-- ==== Sys2Proof/Word.lean ====
section
/-! DEFINITION. Word types: bytes, and tables by number. -/

namespace Sys2Proof

/-- A byte. -/
abbrev Byte := BitVec 8

/-- A table by number: pairs of a key and a value. What an unlisted key reads as is said where the table is read. -/
abbrev Tbl (α : Type) := List (Nat × α)

end Sys2Proof
end

