-- ==== Sys2Proof/Syntax.lean ====
section
/-! DEFINITION. The commands: one constructor per row of the spec's table of commands, with the row's operands. An operand
`dt` is the time, in ns of the reference, that has passed since the command before (log entry 3); an operand
that no command field of the spec gives is a fact the block observes when the command comes: what a device answered, what
a sensor read, what a check found. -/

namespace Sys2Proof

/-- The commands of the block. -/
inductive Instr where
  /-- `CXL_MEM_READ` (R32): A CXL.mem read from a head is checked against the Region Table and served, poisoned, or held for a fetch, reversal or repair. -/
  | cxlMemRead (h : Fin 2) (hpa : Nat) (errs : List (Nat × Nat)) (replBad caErr : Bool) (resv : Option (Nat × Nat × Nat × Bool)) (dt : Nat)
  /-- `CXL_MEM_WRITE` (R41): A CXL.mem write from a head is checked against the Region Table, and is then performed, held for arming or pacing, or dropped; a performed write may make its page dirty. -/
  | cxlMemWrite (h : Fin 2) (hpa : Nat) (data : BitVec 512) (mask : BitVec 64) (ue : BitVec 10) (replBad : Bool) (dt : Nat)
  /-- `ARM_BATCH_PROGRAM` (R48): The tile issues a Cairn program carrying every arm requested since the previous program, up to 512 arms. -/
  | armBatchProgram (t : Fin 8) (dt : Nat)
  /-- `ARM_PROGRAM_DONE` (R47): A Cairn arm program completes, its groups become armed, and the writes held for those groups proceed. -/
  | armProgramDone (t : Fin 8) (dead : Bool) (dt : Nat)
  /-- `GROUP_DISARM` (R49): A group whose summary bit has stayed clear for 10 minutes is removed from the armed set, and a disarm record is queued. -/
  | groupDisarm (g : Nat) (dt : Nat)
  /-- `DISARM_BATCH_PROGRAM` (R49): A disarm record that has waited 1 s is programmed to the Cairn ledger in a batch of its own. -/
  | disarmBatchProgram (t : Fin 8) (dt : Nat)
  /-- `TRICKLE_CAPTURE` (R42): Trickle takes a dirty page under the rules of its state, copies it to staging and enters it in the in-flight table. -/
  | trickleCapture (t : Fin 8) (keyErr : Nat) (ue : List (Nat × Nat)) (dt : Nat)
  /-- `PAGE_RECORD_DURABLE` (R42): A page record becomes durable in Strata, so the locator is updated and the dirty bit is cleared unless the rewrite flag is set. -/
  | pageRecordDurable (t : Fin 8) (ue : List (Nat × Nat)) (dt : Nat)
  /-- `EXPO_STATUS_UPDATE` (R46): The periodic 1 ms update of DW_EXPO_PKG, DW_EXPO_CEIL and DW_EXPO_TILE. -/
  | expoStatusUpdate (dt : Nat)
  /-- `GOVERNOR_RECOMPUTE` (R52): The periodic 10 ms recomputation of C, every c_t and the governor states, with distribution of state and pacing. -/
  | governorRecompute (dt : Nat)
  /-- `EVENT_RECOMPUTE` (R61): A recomputation of the ceiling made within 200 µs after the lead learns of a triggering event. -/
  | eventRecompute (dt : Nat)
  /-- `WRITE_PACING_DELAY_EXPIRY` (R66): The pacing delay of a performed write ends and its completion is sent to the host. -/
  | writePacingDelayExpiry (dt : Nat)
  /-- `WRITE_HOLD_EXPIRY` (R68): A write held in BLACK or LAPSE reaches 500 µs, so it is performed, completed and counted. -/
  | writeHoldExpiry (dt : Nat)
  /-- `GLOBAL_PERSISTENT_FLUSH` (R72): A CXL Global Persistent Flush arrives from a head, and the device waits for that head's completed writes. -/
  | globalPersistentFlush (h : Fin 2) (dt : Nat)
  /-- `GPF_COMPLETION` (R72): The flush completes once every write the head had completed is in DRAM with its dirty bit set. -/
  | gpfCompletion (h : Fin 2) (dt : Nat)
  /-- `HEARTBEAT` (R19): The lead supervisor sends its heartbeat, which it does every 100 µs. -/
  | heartbeat (dt : Nat)
  /-- `LEAD_LOST` (R19): The deputy sees no heartbeat for its bound, declares the lead lost, fences T0's supervisor and loads the mirrored state. -/
  | leadLost (dt : Nat)
  /-- `TAKEOVER_COMPLETE` (R19): The deputy resumes command dispatch, the governor, the gauge master and the Quartz master, and completes the commands it inherited. -/
  | takeoverComplete (dt : Nat)
  /-- `PACE_UPDATE` (R26): The periodic 1 ms update of DW_TILE_PACE for each tile. -/
  | paceUpdate (paces : List (Nat × Nat)) (dt : Nat)
  /-- `POWER_ESTIMATE` (R23): The lead forms the package power estimate every 1 ms and selects or leaves the performance point. -/
  | powerEstimate (coreMw otherMw dt : Nat)
  /-- `OPERATING_POINT_CHANGE` (R24): The lead requests a new VDD_CORE operating point from the core power stage. -/
  | operatingPointChange (dt : Nat)
  /-- `OPERATING_POINT_SETTLED` (R443): The operating-point change completes, and the supervisors may lower SLATE_RDLY.TAP to the new point's value. -/
  | operatingPointSettled (dt : Nat)
  /-- `MESH_LINK_FAILED` (R15): A mesh link fails, traffic is rerouted over the next shortest path, and the failure is reported at severity Degraded. -/
  | meshLinkFailed (link : Fin 12) (dt : Nat)
  /-- `REGION_TABLE_COMMIT` (R33): A Region Table change reaches its commit point on all tiles. -/
  | regionTableCommit (g : Nat) (replBad : Bool) (dt : Nat)
  /-- `CLOCKED_DOMAIN_RESET` (R29): A clocked domain is reset, which empties its boundary FIFOs, completes the emptied requests with error and records a Note. -/
  | clockedDomainReset (dom : Fin 60) (reqs : List Nat) (dt : Nat)
  /-- `PWR_FAIL_N_ASSERT` (R80): A filtered assertion of PWR_FAIL_N is taken as a seal trigger with cause 0h. -/
  | pwrFailNAssert (width : Nat) (taken : Bool) (dt : Nat)
  /-- `VIN_SENSE_LOW` (R80): A filtered VIN_SENSE drop below threshold is taken as a seal trigger with cause 1h. -/
  | vinSenseLow (width : Nat) (taken : Bool) (dt : Nat)
  /-- `STAGE1_COMPLETE` (R84): The writes already accepted are performed and completed, so stage 2 begins and seal mode is requested. -/
  | stage1Complete (dt : Nat)
  /-- `STAGE2_METADATA_VERIFIED` (R153): A tile's stage 2 metadata is programmed and read back, so the tile programs its seal header in the ledger. -/
  | stage2MetadataVerified (t : Fin 8) (dt : Nat)
  /-- `STAGE2_COMPLETE` (R85): A tile's seal header is durable, which completes stage 2 and starts stage 3 landing on that tile. -/
  | stage2Complete (t : Fin 8) (ue : List (Nat × Nat)) (dt : Nat)
  /-- `STAGE3_COMPLETE` (R86): A tile's exposure reaches zero, which ends stage 3 and starts the tile's seal record. -/
  | stage3Complete (t : Fin 8) (dt : Nat)
  /-- `TILE_SEAL_RECORD_WRITTEN` (R88): A tile's seal record is programmed in its Cairn ledger. -/
  | tileSealRecordWritten (t : Fin 8) (dt : Nat)
  /-- `PACKAGE_SEAL_RECORD_WRITTEN` (R88): After every tile in service has written its record, the lead writes the package seal record, and stage 5 or a warm return follows. -/
  | packageSealRecordWritten (canary : BitVec 8) (dt : Nat)
  /-- `STAGE5_COMPLETE` (R89): Flash and DRAM are idle and off, the Slate records are written, and stage 6 hibernation follows. -/
  | stage5Complete (dt : Nat)
  /-- `SEAL_STATUS_UPDATE` (R91): The periodic 10 ms update of DW_SEAL_STATUS during stage 3. -/
  | sealStatusUpdate (dt : Nat)
  /-- `ENERGY_FLOOR_REACHED` (R97): The remaining seal energy reaches E_stop, so stage 3 stops on every tile and STOPPED is set. -/
  | energyFloorReached (dt : Nat)
  /-- `SEAL_PROGRAM_FAIL` (R96): A program failure during stages 2 to 4 is retried on another pre-erased block of the same die's landing zone. -/
  | sealProgramFail (t : Fin 8) (blk : Nat) (dt : Nat)
  /-- `MAINS_GOOD` (R99): Both power inputs have stayed good for 100 ms, so mains good is declared, which starts power-up or marks a warm return as due. -/
  | mainsGood (dt : Nat)
  /-- `RESET_N_RELEASE` (R101): RESET_N is released after 10 µs to 2 s, which requests a seal-then-reset; a shorter assertion is ignored as a glitch. -/
  | resetNRelease (dt : Nat)
  /-- `FORCED_RESET` (R101): RESET_N has been held for 2 s, so the package enters its safe state and resets without a seal. -/
  | forcedReset (dt : Nat)
  /-- `TEST_SEAL_PATH_VERIFIED` (R104): The switch of the module load to the hold-up path is confirmed in the gauge current, and ingress is then held. -/
  | testSealPathVerified (ok : Bool) (dt : Nat)
  /-- `TEST_SEAL_HOLD_LIMIT` (R104): The time since the hold began reaches HOLD_LIMIT − 5 ms, so stage 3 of the test seal stops. -/
  | testSealHoldLimit (dt : Nat)
  /-- `BOOT_COMPLETE` (R109): Phase 2 ends: the firmware is verified and started, the supervisors pass self-test and the lead and deputy are set. -/
  | bootComplete (self okA okB warmOk : BitVec 8) (twinOk : Bool) (half torn : List (Nat × Nat)) (temps : List (Nat × BitVec 18)) (geom : Nat × Nat) (untrained : List (Nat × Nat)) (dt : Nat)
  /-- `DRAM_INIT_COMPLETE` (R109): Phase 3 ends with every channel in service trained and the reserve areas readable. -/
  | dramInitComplete (n size : Fin 4) (rate : Fin 3) (ecc : List (Nat × Nat)) (dt : Nat)
  /-- `CHANNEL_TRAINING_DONE` (R234): A channel completes, or fails, its training at FSP0 and FSP1, with one retraining allowed. -/
  | channelTrainingDone (t : Fin 8) (c : Fin 4) (ok pop dev chk : Bool) (dt : Nat)
  /-- `TILE_TIER_DECIDED` (R114): A tile decides its tier from its ledger, rebuilds its locator and starts writing its poison set. -/
  | tileTierDecided (t : Fin 8) (scan ledgerOk : Bool) (badHdr half : List Nat) (dt : Nat)
  /-- `MOUNT_CROSS_CHECK` (R115): After every tile has decided its tier, the lead compares trigger times and tile masks and raises any mismatch. -/
  | mountCrossCheck (dt : Nat)
  /-- `MOUNT_COMMITTED` (R117): A tile's poison set is durable, so it writes a COMMITTED MOUNT record and a disarm-all record. -/
  | mountCommitted (t : Fin 8) (dt : Nat)
  /-- `MOUNT_TIMEOUT` (R118): A tile's mount exceeds its bound, so the tile is isolated. -/
  | mountTimeout (t : Fin 8) (dt : Nat)
  /-- `EARLY_OPEN` (R119): Every tile has committed, so OPEN records are written, status and poison lists are posted and both heads report Ready. -/
  | earlyOpen (dt : Nat)
  /-- `DEMAND_FETCH_COMPLETE` (R122): A fetched page is restored, or poisoned on failure, and the requests held on it proceed. -/
  | demandFetchComplete (p : Nat) (out : Fin 3) (keyErr : Fin 3) (dt : Nat)
  /-- `BULK_RESTORE_PAGE` (R126): The bulk engine restores a page from its record, or by fill, and sets its bit in the restored-page bitmap. -/
  | bulkRestorePage (t : Fin 8) (fill : Option (Nat × Nat)) (out : Fin 3) (keyErr : Fin 3) (dt : Nat)
  /-- `BULK_RESTORE_COMPLETE` (R128): A tile ends bulk restore, and its paused rank work resumes; when the last tile ends, the core returns to nominal and the restore complete event is raised. -/
  | bulkRestoreComplete (t : Fin 8) (dt : Nat)
  /-- `RESTORE_STATUS_UPDATE` (R132): The periodic 100 ms update of DW_RESTORE_STATUS and DW_RESTORE_POISON during phase 6. -/
  | restoreStatusUpdate (dt : Nat)
  /-- `LOCATOR_CHECKPOINT` (R148): A locator checkpoint starts 60 s after the previous one, or when the tail reaches 1,048,576 entries. -/
  | locatorCheckpoint (t : Fin 8) (dt : Nat)
  /-- `CHECKPOINT_COMMIT` (R147): The CKPT ledger entry is programmed, which commits the locator checkpoint. -/
  | checkpointCommit (t : Fin 8) (dt : Nat)
  /-- `LEDGER_SUMMARY` (R157): 256 MiB of ledger entries have been written since the last summary, so the tile writes a new summary and a LEDGER_CKPT entry. -/
  | ledgerSummary (t : Fin 8) (dt : Nat)
  /-- `BACKGROUND_ERASE` (R152): Background erase starts an erase of a block, with an ERASE_INTENT entry, to refill the landing zone. -/
  | backgroundErase (t : Fin 8) (blk : BitVec 21) (dt : Nat)
  /-- `ERASE_DONE` (R158): A block erase and its blank check end, and an ERASE_DONE entry adds the block to the zone. -/
  | eraseDone (t : Fin 8) (blk : BitVec 21) (ok : Bool) (dt : Nat)
  /-- `FLASH_OP_FAIL` (R160): A program, erase or read failure replaces or retires the block and relocates its live records. -/
  | flashOpFail (t : Fin 8) (blk : BitVec 21) (reason : Fin 4) (lost soft : List Nat) (statusFail wholeDie : Bool) (dt : Nat)
  /-- `GARBAGE_COLLECTION` (R164): Garbage collection takes a victim pSLC block and relocates its live records. -/
  | garbageCollection (t : Fin 8) (lost soft : List Nat) (dt : Nat)
  /-- `COLD_COMPACTION` (R165): Stratum-only records 24 h old are moved into TLC-pool blocks. -/
  | coldCompaction (t : Fin 8) (lost soft : List Nat) (dt : Nat)
  /-- `RETENTION_REFRESH` (R166): A block older than its refresh window, or marked by a soft decode, is relocated. -/
  | retentionRefresh (t : Fin 8) (blk : BitVec 21) (lost soft : List Nat) (dt : Nat)
  /-- `WEAR_LEVELING` (R170): The wear spread on a die exceeds 2,000 units, so the coldest blocks are relocated. -/
  | wearLeveling (t : Fin 8) (die : Fin 127) (lost soft : List Nat) (dt : Nat)
  /-- `BUDGET_RECOMPUTE` (R167): The hourly recomputation of the package wear budget rate. -/
  | budgetRecompute (dt : Nat)
  /-- `BORROW_ACCOUNT_UPDATE` (R169): The per-second update of the borrow account A against B_day. -/
  | borrowAccountUpdate (dt : Nat)
  /-- `STRATA_STATUS_UPDATE` (R171): The periodic 1 s update of DW_STRATA_WEAR and DW_STRATA_SPACE. -/
  | strataStatusUpdate (dt : Nat)
  /-- `DOORBELL_SQ` (R186): A write of a ring's tail doorbell lets the device fetch and start entries, or sets a ring error. -/
  | doorbellSq (h : Fin 2) (c k : Nat) (tail : BitVec 12) (ue : BitVec 10) (dt : Nat)
  /-- `DOORBELL_CQ` (R186): A write of a ring's completion head doorbell frees completion slots, or sets a ring error. -/
  | doorbellCq (h : Fin 2) (c k : Nat) (head : BitVec 12) (dt : Nat)
  /-- `FENCE` (R192): A fetched FENCE entry records the dirty pages of its range at submission for priority trickle. -/
  | fence (c k : Nat) (dt : Nat)
  /-- `FENCE_COMPLETE` (R192): The last waited-for record is durable, so the FENCE completion is posted. -/
  | fenceComplete (c k : Nat) (dt : Nat)
  /-- `CHECKPOINT` (R194): A fetched CHECKPOINT entry fences the whole context. -/
  | checkpoint (c k : Nat) (dt : Nat)
  /-- `CHECKPOINT_STRATUM_SET` (R194): Every tile's fence is done, so the lead sets T_s and every tile programs its STRATUM entry and marker. -/
  | checkpointStratumSet (c k : Nat) (dt : Nat)
  /-- `CHECKPOINT_COMPLETE` (R194): Every tile's STRATUM entry is durable, so the CHECKPOINT completion is posted. -/
  | checkpointComplete (c k : Nat) (m : BitVec 8) (dt : Nat)
  /-- `ROLLBACK` (R196): A fetched ROLLBACK entry is checked, and the device waits for captures in flight to end. -/
  | rollback (c k : Nat) (dt : Nat)
  /-- `ROLLBACK_SWITCH_COMMIT` (R197): The switch clears dirty bits, sets rollback bits and commits ROLLBACK_PENDING when the table entry is durable. -/
  | rollbackSwitchCommit (c k : Nat) (dt : Nat)
  /-- `REVERSAL_COMPLETE` (R199): A page's reversal completes and its bit clears; when every bit of the context is clear, the context returns to ACTIVE. -/
  | reversalComplete (p : Nat) (out : Fin 3) (dt : Nat)
  /-- `ROLLBACK_BITMAP_REBUILT` (R200): A tile rebuilds its rollback bitmap from the locator after early open and releases the held requests. -/
  | rollbackBitmapRebuilt (t : Fin 8) (dt : Nat)
  /-- `EXPOSURE_QUERY` (R201): A ring entry that returns the context exposure and the governor state. -/
  | exposureQuery (c k : Nat) (dt : Nat)
  /-- `METER_MARK` (R201): A ring entry that records a mark in the current metering record. -/
  | meterMark (c k : Nat) (dt : Nat)
  /-- `NOP` (R201): A ring entry that completes with no effect. -/
  | nop (c k : Nat) (dt : Nat)
  /-- `COALESCE_TIMER_EXPIRY` (R202): COAL_TIME passes since the oldest unsignalled completion, so the ring's vector fires or becomes pending. -/
  | coalesceTimerExpiry (c k : Nat) (dt : Nat)
  /-- `QUIESCE_COMPLETE` (R203): Nothing remains started on a quiescing ring or context, so it becomes DISABLED. -/
  | quiesceComplete (c : Nat) (dt : Nat)
  /-- `ZERO_FILL_COMPLETE` (R177): The zero fill of assigned granules ends, so the Region Table commits and Add Capacity is posted. -/
  | zeroFillComplete (g : Nat) (dt : Nat)
  /-- `DC_RELEASE_TIMEOUT` (R178): A Release's host timeout expires, so it completes with DC_TIMEOUT and the granule stays assigned. -/
  | dcReleaseTimeout (h : Fin 2) (dt : Nat)
  /-- `SANITIZE_STEP_DONE` (R205): A sanitize step completes and the next step starts; the last step makes the context FREE. -/
  | sanitizeStepDone (c : Nat) (dt : Nat)
  /-- `MINUTE_BOUNDARY` (R209): At a minute boundary every tile samples its per-context counters, the metering records are cut and age-based retention is applied. -/
  | minuteBoundary (dt : Nat)
  /-- `METERING_WRITE` (R211): Completed metering records are written to Strata within 60 s of their boundary. -/
  | meteringWrite (dt : Nat)
  /-- `LINE_REPAIR_COMPLETE` (R225): A repair from Strata rewrites the line, or poisons it, and the requests held on the page proceed. -/
  | lineRepairComplete (p : Nat) (recBad : Bool) (dt : Nat)
  /-- `PATROL_SCRUB` (R223): Patrol scrub reads lines and writes corrected lines back, covering every line once in 24 hours. -/
  | patrolScrub (line : Nat) (errs : List (Nat × Nat)) (caErr lost : Bool) (dt : Nat)
  /-- `CA_RETRAIN_DONE` (R224): CA retraining ends; on failure the channel goes out of service and the tile is isolated. -/
  | caRetrainDone (t : Fin 8) (c : Fin 4) (ok : Bool) (dt : Nat)
  /-- `TOKEN_REFILL` (R231): A channel's throttle token bucket is refilled, which happens every 10 µs. -/
  | tokenRefill (t : Fin 8) (c : Fin 4) (dt : Nat)
  /-- `MR4_POLL` (R232): The 16 ms read of MR4 of every device, which sets each rank's refresh interval. -/
  | mr4Poll (t : Fin 8) (c : Fin 4) (codes : List (Fin 3)) (dt : Nat)
  /-- `REFRESH_DUE` (R233): A same-bank refresh falls due and is issued or postponed. -/
  | refreshDue (t : Fin 8) (c : Fin 4) (bank : Fin 128) (postpone : Bool) (dt : Nat)
  /-- `GATHER_WINDOW_OPEN` (R236): A channel opens its 250 ms gathering window and runs each rank's DQS interval oscillator. -/
  | gatherWindowOpen (t : Fin 8) (c : Fin 4) (dt : Nat)
  /-- `GATHER_WINDOW_CLOSE` (R236): The gathering window closes, drift is corrected or a partial write training starts. -/
  | gatherWindowClose (t : Fin 8) (c : Fin 4) (drifts : List (Fin 4)) (dt : Nat)
  /-- `PARTIAL_TRAINING_DONE` (R236): A rank's partial write training ends and its held traffic resumes. -/
  | partialTrainingDone (t : Fin 8) (c : Fin 4) (r : Fin 4) (dt : Nat)
  /-- `FSP_SWITCH_DONE` (R237): A channel's set-point switch completes, and the next channel of the tile starts its switch. -/
  | fspSwitchDone (t : Fin 8) (c : Fin 4) (dt : Nat)
  /-- `SELF_REFRESH_ENTRY` (R239): A channel idle for IDLE_SR_US issues all-bank refresh and enters self-refresh. -/
  | selfRefreshEntry (t : Fin 8) (c : Fin 4) (scrubDue : Bool) (dt : Nat)
  /-- `DRAM_CH_STATUS_UPDATE` (R241): The periodic update of DW_DRAM_CH, made at least every 100 ms. -/
  | dramChStatusUpdate (dt : Nat)
  /-- `STEER_RECORD_PROGRAMMED` (R251): The steering table's Slate record is programmed, so the pending state change takes effect. -/
  | steerRecordProgrammed (t : Fin 8) (dt : Nat)
  /-- `SWEEP_BLOCK_COPIED` (R246): A migration or DUAL sweep copies one 2 MiB block and advances SWEEP, entering STEERED or NORMAL after the last block. -/
  | sweepBlockCopied (t : Fin 8) (e : Fin 16) (ue : List (Nat × Nat)) (homeBad : Bool) (dt : Nat)
  /-- `HPPR_DONE` (R247): hPPR of the listed rows ends, with PPR_DONE set or the rank left STEERED. -/
  | hpprDone (t : Fin 8) (e : Fin 16) (ok : Bool) (dt : Nat)
  /-- `PATTERN_TEST_DONE` (R247): A retired rank's pattern test ends, passing or failing; a pass may start the return. -/
  | patternTestDone (t : Fin 8) (e : Fin 16) (ues ces : Nat) (clean0 clean1 : Bool) (dt : Nat)
  /-- `GAUGE_SAMPLE` (R257): The 1 ms simultaneous sample of the gauge channels and the accumulation of current, with the countdown of seal energy during a seal. -/
  | gaugeSample (samples : List (Nat × Int × Nat × Nat)) (cv : BitVec 2) (dt : Nat)
  /-- `PACK_FAULT_CLEARED` (R285): A transient pack fault has been absent for its clearing time, so the bay passes to INSERTED. -/
  | packFaultCleared (b : Fin 2) (dt : Nat)
  /-- `OFFSET_CALIBRATION` (R259): A bay's current offset is taken as the mean over 10 s after 60 s in OFF or IDLE. -/
  | offsetCalibration (b : Fin 2) (mean : Int) (dt : Nat)
  /-- `ESTIMATOR_RECOMPUTE` (R266): The 100 ms recomputation of every E_p, U_p, E_br and U_br, and the update of the views. -/
  | estimatorRecompute (dt : Nat)
  /-- `QUALIFIED_REST_END` (R261): A qualified rest ends, so the OCV fit sets s and resets σ_soc. -/
  | qualifiedRestEnd (b : Fin 2) (vOc : Nat) (dt : Nat)
  /-- `DCIR_MEASUREMENT` (R262): ΔV/ΔI is measured 10 ms after a current step and updates DCIR_25. -/
  | dcirMeasurement (b : Fin 2) (dv di : Nat) (dt : Nat)
  /-- `BRIDGE_CHARGE_MEASURED` (R265): A qualifying bridge charge ends and updates the learned capacitance and ESR. -/
  | bridgeChargeMeasured (v0 v1 q esr : Nat) (steady : Bool) (dt : Nat)
  /-- `PACK_FIRST_ESTIMATE` (R266): A pack's first estimate is made within 2 s of latch closure, and the pack becomes counted. -/
  | packFirstEstimate (b : Fin 2) (mv : Nat) (dt : Nat)
  /-- `CHARGE_TIMEOUT` (R269): Charging not ended within 6 h raises fault 09h. -/
  | chargeTimeout (b : Fin 2) (dt : Nat)
  /-- `CAPACITY_TEST_DUE` (R270): A due capacity test is tried and started if its conditions hold; a failed try is repeated hourly. -/
  | capacityTestDue (b : Fin 2) (dt : Nat)
  /-- `CAPACITY_TEST_STEP` (R271): A capacity test moves to its next step, and the result is computed and accepted or discarded. -/
  | capacityTestStep (b : Fin 2) (dt : Nat)
  /-- `GAUGE_RECORD_WRITE` (R276): The gauge learning and state records are written every 6 h and on their events, retried every 1 s while the pre-check fails. -/
  | gaugeRecordWrite (dt : Nat)
  /-- `SLOT_ASSIST_UPDATE` (R278): The 1 ms read of the module draw, which sets the ASSIST setpoints of able bays. -/
  | slotAssistUpdate (drawMw : Nat) (dt : Nat)
  /-- `FORCED_REST_DUE` (R279): A pack's NO_REST_MIN reaches 4,320, so a forced rest is due and is scheduled. -/
  | forcedRestDue (dt : Nat)
  /-- `BAY_TOUCH` (R281): A debounced handle touch makes the governor compute C_without and pre-drain. -/
  | bayTouch (b : Fin 2) (dt : Nat)
  /-- `BAY_RELEASE_PRESS` (R281): A debounced release button press is granted, refused, or puts the bay in WAITING. -/
  | bayReleasePress (b : Fin 2) (down : Bool) (dt : Nat)
  /-- `BAY_LATCH_OPEN` (R281): A bay latch opens, emptying the bay, as a surprise removal if no grant was given. -/
  | bayLatchOpen (b : Fin 2) (dt : Nat)
  /-- `BAY_LATCH_CLOSE` (R280): A bay latch closes, and the bay enters INSERTED with the lock engaged. -/
  | bayLatchClose (b : Fin 2) (dt : Nat)
  /-- `WAITING_TIMEOUT` (R280): 120 s pass from the first press or request, so the waiting release is refused and the bay returns to READY. -/
  | waitingTimeout (b : Fin 2) (dt : Nat)
  /-- `GRANT_LAPSE` (R280): 60 s pass after a grant with the latch closed, so the lock re-engages and the release lapses. -/
  | grantLapse (b : Fin 2) (dt : Nat)
  /-- `THERMAL_SAMPLE` (R294): The 1 ms sample of every temperature sensor, which enters threshold levels and detects sensor failures. -/
  | thermalSample (codes : List (Nat × BitVec 18)) (dt : Nat)
  /-- `THRESHOLD_LEVEL_LEAVE` (R294): A reading stays below threshold less hysteresis for 1 s, so the sensor leaves the level. -/
  | thresholdLevelLeave (n : Fin 72) (k : Fin 3) (dt : Nat)
  /-- `THROTTLE_STEP` (R295): A hot tile's STEP_S interval expires, so its throttle level rises by one. -/
  | throttleStep (t : Fin 8) (dt : Nat)
  /-- `THROTTLE_FALL` (R295): A cool tile spends a further 1 s cool, so its throttle level falls by one. -/
  | throttleFall (t : Fin 8) (dt : Nat)
  /-- `SENSOR_RECOVER` (R299): A failed sensor passes 10 min without a failure condition and recovers. -/
  | sensorRecover (n : Fin 72) (dt : Nat)
  /-- `FREEZE_END` (R301): The 10 s freeze of the stepped level ends and stepping resumes. -/
  | freezeEnd (t : Fin 8) (dt : Nat)
  /-- `COOL_WAIT_EXPIRY` (R304): COOL_WAIT ends after a thermal seal, so PWR_EN is asserted for a restart check. -/
  | coolWaitExpiry (dt : Nat)
  /-- `CRITICAL_TRIP` (R305): An on-die critical comparator trips, which puts the package in safe state and powers it off without a seal. -/
  | criticalTrip (n : Fin 64) (dt : Nat)
  /-- `THERMAL_STATUS_UPDATE` (R308): The periodic 10 ms update of the thermal registers. -/
  | thermalStatusUpdate (dt : Nat)
  /-- `FLINT_MESSAGE` (R314): A fault message enters a collector, is logged, judged first, co-first, merged or consequential, and takes its reaction. -/
  | flintMessage (c : Fin 9) (n pk : Nat) (dt : Nat)
  /-- `SAFE_STATE_DECISION` (R319): The supervisor holding the package role starts a cause 5h seal, or holds the safe state. -/
  | safeStateDecision (dt : Nat)
  /-- `SHADOW_WINDOW_CLOSE` (R325): A reaction's shadow window expires, and later messages from its sources are independent. -/
  | shadowWindowClose (dt : Nat)
  /-- `LOST_MESSAGE_REPORT` (R321): A per-second Degraded message reports the messages a collector lost while losses continue. -/
  | lostMessageReport (c : Fin 9) (dt : Nat)
  /-- `EVENT_POST_RATE` (R335): The per-second post of rate-limited Note and Corrected events, carrying their counts. -/
  | eventPostRate (dt : Nat)
  /-- `FLINT_EXTRACT_WRITE` (R333): The first-fault records and log extract are written to Slate within 1 s of a severe message. -/
  | flintExtractWrite (dt : Nat)
  /-- `ALIVE_TOGGLE` (R330): ALIVE toggles on its timer, every 500 µs in service and every 50 ms in Bedrock. -/
  | aliveToggle (dt : Nat)
  /-- `STANDBY_COUNT_LOAD` (R345): At each second boundary the standby count is loaded with the count plus 100 µs. -/
  | standbyCountLoad (dt : Nat)
  /-- `QUARTZ_TIME_RECORD` (R346): The hourly write of the Quartz time record to Slate. -/
  | quartzTimeRecord (dt : Nat)
  /-- `REFERENCE_LOST` (R341): The 10 MHz reference is lost, so the PLLs hold, the count runs from the real-time domain and an Urgent message follows. -/
  | referenceLost (dt : Nat)
  /-- `REFERENCE_GOOD` (R341): The reference is declared good again after 1 s without a loss condition. -/
  | referenceGood (dt : Nat)
  /-- `PPS_IN_EDGE` (R344): A PPS_IN rising edge is validated, stamped and fed to the discipline loop, with acquisition or rejection. -/
  | ppsInEdge (width : Nat) (dt : Nat)
  /-- `PPS_TIMEOUT` (R343): No valid PPS_IN edge arrives for 2 s, so the PPS state goes to HOLD and then SEARCH. -/
  | ppsTimeout (dt : Nat)
  /-- `PPS_OUT_EDGE` (R349): PPS_OUT rises at a second boundary, or that edge is omitted. -/
  | ppsOutEdge (dt : Nat)
  /-- `PPS_OUT_FALL` (R349): PPS_OUT falls 10 ms after its rising edge. -/
  | ppsOutFall (dt : Nat)
  /-- `QTZ_NOW_READ` (R350): A read of QTZ_NOW returns the count and latches the count and UTC for the head. -/
  | qtzNowRead (h : Fin 2) (half : Fin 3) (dt : Nat)
  /-- `QTZ_STATUS_UPDATE` (R350): The periodic 10 ms update of QTZ_STATUS. -/
  | qtzStatusUpdate (dt : Nat)
  /-- `ROOT_GIVE_WAY` (R351): An equal-class node with a lower ID has held for 10 s, so the sitting time root gives way. -/
  | rootGiveWay (dt : Nat)
  /-- `TIME_ROOT_LOST` (R351): TROOT_SEQ does not increase for three hello periods, so a new election runs. -/
  | timeRootLost (dt : Nat)
  /-- `SNAP_IN_EDGE` (R354): A SNAP_IN rising edge triggers a snapshot capture. -/
  | snapInEdge (width : Nat) (dt : Nat)
  /-- `SCHEDULED_TRIGGER_FIRE` (R356): A scheduled snapshot time is reached and the capture fires. -/
  | scheduledTriggerFire (dt : Nat)
  /-- `SNAPSHOT_BANK_WRITE` (R359): A full bank 0 is written to the Slate event store within 1 s of its capture. -/
  | snapshotBankWrite (dt : Nat)
  /-- `LINK_TRAINING_ATTEMPT` (R361): A link that is DOWN attempts training every 100 ms. -/
  | linkTrainingAttempt (l : Fin 6) (signal : Bool) (dt : Nat)
  /-- `LINK_TRAINED` (R361): A link's training ends, bringing it up to HELLO or back to DOWN. -/
  | linkTrained (l : Fin 6) (outcome : Fin 3) (dt : Nat)
  /-- `LINK_SIGNAL_LOSS` (R377): A link loses signal or lane lock, goes DOWN, and hardware uses the alternates. -/
  | linkSignalLoss (l : Fin 6) (dt : Nat)
  /-- `ACK` (R365): An ACK frame acknowledges every outstanding frame up to its FSEQ. -/
  | ack (l : Fin 6) (fseq : BitVec 8) (dt : Nat)
  /-- `NAK` (R365): A NAK frame makes the sender replay every frame after the last good FSEQ. -/
  | nak (l : Fin 6) (fseq : BitVec 8) (dt : Nat)
  /-- `ACK_SEND` (R365): An ACK is sent after 16 frames or 1 µs. -/
  | ackSend (l : Fin 6) (dt : Nat)
  /-- `REPLAY_TIMEOUT` (R365): A frame unacknowledged for 20 µs is replayed, and too many replays retrain the link. -/
  | replayTimeout (l : Fin 6) (dt : Nat)
  /-- `CREDIT_RETURN` (R366): A credit return frame restores send credits on a virtual lane. -/
  | creditReturn (l : Fin 6) (vl : Fin 4) (n : Nat) (dt : Nat)
  /-- `CREDIT_WAIT_DISCARD` (R366): A transit frame that waits 10 ms for a credit is discarded. -/
  | creditWaitDiscard (l : Fin 6) (dt : Nat)
  /-- `FRAME_FORWARD` (R376): A received frame for another node is forwarded on its primary or an alternate link, or discarded. -/
  | frameForward (l : Fin 6) (good : Bool) (fseq : BitVec 8) (dst src : BitVec 12) (vl : Fin 4) (svc : BitVec 5) (ttl : BitVec 6) (som eom : Bool) (uid : Nat) (body : List Nat) (dt : Nat)
  /-- `HELLO_SEND` (R369): A trained link sends a hello every 10 ms. -/
  | helloSend (l : Fin 6) (dt : Nat)
  /-- `HELLO` (R370): A received hello is judged clean or unclean, and adopts a neighbour or detects a loop or conflict. -/
  | hello (l : Fin 6) (crcOk : Bool) (uid : Nat) (nodeId : BitVec 12) (plink : Nat) (flags : BitVec 8) (cls : BitVec 3) (hops : BitVec 5) (troot : Nat) (tseq : Nat) (rclass : BitVec 3) (hseq : Nat) (dt : Nat)
  /-- `HELLO_MISSING` (R370): Three hello periods pass without a hello, so the neighbour is lost. -/
  | helloMissing (l : Fin 6) (dt : Nat)
  /-- `HOLD_EXPIRED` (R371): A damped link's hold expires, so the link returns to DOWN. -/
  | holdExpired (l : Fin 6) (dt : Nat)
  /-- `LINK_STATE_ADVERTISEMENT` (R374): A received advertisement is stored and flooded if its LSA_SEQ is newer, and routing is changed. -/
  | linkStateAdvertisement (l : Fin 6) (crcOk : Bool) (uid : Nat) (nodeId : BitVec 12) (flags : BitVec 8) (seq : BitVec 32) (nbrs : List (Nat × Nat × Nat × Nat × Nat)) (dt : Nat)
  /-- `LSA_PERIODIC` (R374): The node floods its own advertisement every 10 s. -/
  | lsaPeriodic (dt : Nat)
  /-- `LSA_EXPIRY` (R374): An advertisement not refreshed for 35 s is discarded. -/
  | lsaExpiry (dt : Nat)
  /-- `ROUTE_COMPUTE` (R377): Batched changes are computed and the route table is loaded, bringing ready links to ACTIVE. -/
  | routeCompute (ms : Nat) (dt : Nat)
  /-- `NODE_ID_REQUEST` (R373): The address root receives an ID request and grants the preferred or the lowest free ID. -/
  | nodeIdRequest (l : Fin 6) (uid : Nat) (pref : BitVec 12) (dt : Nat)
  /-- `NODE_ID_GRANT` (R373): A joining node receives its node ID, records it in Slate and advertises it. -/
  | nodeIdGrant (l : Fin 6) (uid : Nat) (id : BitVec 12) (refused : Bool) (dt : Nat)
  /-- `TIME_EXCHANGE_SEND` (R381): A follower sends a time exchange request to its upstream neighbour every 100 ms. -/
  | timeExchangeSend (dt : Nat)
  /-- `TIME_EXCHANGE_REQ` (R381): A node answers a time exchange request from a neighbour with its stamps and the root's UNC. -/
  | timeExchangeReq (l : Fin 6) (t1 : Nat) (dt : Nat)
  /-- `TIME_EXCHANGE_ANSWER` (R352): A follower computes offset and delay and slews or steps its lattice time. -/
  | timeExchangeAnswer (l : Fin 6) (t2 t3 unc : Nat) (dt : Nat)
  /-- `LATTICE_CHECKPOINT_REQUEST` (R382): A participant accepts or refuses a lattice checkpoint request. -/
  | latticeCheckpointRequest (l : Fin 6) (uid : Nat) (reqId : BitVec 32) (tc : Nat) (c : BitVec 14) (dt : Nat)
  /-- `LATTICE_CHECKPOINT_TIME` (R382): L reaches T_c, so the participant submits a CHECKPOINT of its context. -/
  | latticeCheckpointTime (dt : Nat)
  /-- `LATTICE_CHECKPOINT_ANSWER` (R382): The coordinator receives a participant's answer, and completes when all have answered. -/
  | latticeCheckpointAnswer (l : Fin 6) (uid : Nat) (reqId : BitVec 32) (c : BitVec 14) (status : BitVec 16) (ts : Nat) (dt : Nat)
  /-- `LATTICE_CHECKPOINT_TIMEOUT` (R382): At T_c + 10 s the coordinator completes the lattice checkpoint with the answers it has. -/
  | latticeCheckpointTimeout (dt : Nat)
  /-- `REPLICA_SEND` (R385): The tile sender sends the oldest set page of a stream or migration, within its rate. -/
  | replicaSend (session : Nat) (ue : List (Nat × Nat)) (dt : Nat)
  /-- `REPLICA_DATA` (R386): The receiver performs a replica page write in MSEQ order and acknowledges it. -/
  | replicaData (l : Fin 6) (uid session : Nat) (op : Fin 6) (mseq : BitVec 32) (k o grans : Nat) (data : List Byte) (n : Nat) (dt : Nat)
  /-- `REPLICA_ACK` (R385): A page acknowledgement clears its replica bit and may advance the stream or migration state. -/
  | replicaAck (l : Fin 6) (session : Nat) (op : Fin 4) (mseq : BitVec 32) (status grans : Nat) (dt : Nat)
  /-- `SESSION_RESEND` (R380): A session message unanswered for 5 ms is resent. -/
  | sessionResend (session : Nat) (dt : Nat)
  /-- `PEER_UNREACHABLE` (R380): A peer is silent for 10 s, so the stream pauses or the migration aborts. -/
  | peerUnreachable (uid : Nat) (dt : Nat)
  /-- `MIGRATION_FINAL_ACK` (R390): The destination's final acknowledgement marks the migration DONE. -/
  | migrationFinalAck (l : Fin 6) (session : Nat) (dt : Nat)
  /-- `REMOTE_SNAPSHOT_TRIGGER` (R392): A receiving node schedules a lattice-wide snapshot trigger and answers with a code. -/
  | remoteSnapshotTrigger (l : Fin 6) (node : BitVec 12) (reqId : BitVec 32) (time : Nat) (dt : Nat)
  /-- `REMOTE_SNAPSHOT_ANSWER` (R392): The requester records a node's answer to its lattice snapshot. -/
  | remoteSnapshotAnswer (l : Fin 6) (node : BitVec 12) (reqId : BitVec 32) (code : BitVec 8) (dt : Nat)
  /-- `REMOTE_SNAPSHOT_TIMEOUT` (R392): 1 s after sending, the requester completes its lattice snapshot command. -/
  | remoteSnapshotTimeout (dt : Nat)
  /-- `JCS_RELAY` (R393): A JCS command arrives by relay from a peer as principal LP. -/
  | jcsRelay (l : Fin 6) (uid : Nat) (tag opcode : BitVec 16) (payload : List Byte) (dt : Nat)
  /-- `LATTICE_STATUS_UPDATE` (R394): The periodic 100 ms update of DW_LAT_NODE and DW_LAT_LINK. -/
  | latticeStatusUpdate (dt : Nat)
  /-- `COMMAND_DISPATCH` (R402): A queued changing command is dispatched in stamp order 1 µs after its stamp. -/
  | commandDispatch (dt : Nat)
  /-- `LEASE_TIMEOUT` (R406): A lease ends after TIMEOUT_S without a command from its holder. -/
  | leaseTimeout (res : Nat) (dt : Nat)
  /-- `BACKGROUND_COMPLETE` (R400): A background command ends and reports its return code and extended status. -/
  | backgroundComplete (p : Fin 3) (dt : Nat)
  /-- `DW_WRITE_DISCARDED` (R412): A write to a register with no action of its own is discarded, or stored, or ignored, according to its type. -/
  | dwWriteDiscarded (h : Fin 2) (off : BitVec 27) (dt : Nat)
  /-- `GET_CAPABILITIES` (R415): C400h returns bytes of the capability list. -/
  | getCapabilities (by_ : Fin 4) (uid : Nat) (payload : List Byte) (dt : Nat)
  /-- `GET_IDENTITY` (R415): C401h returns the identity, firmware and floor values. -/
  | getIdentity (by_ : Fin 4) (uid : Nat) (payload : List Byte) (dt : Nat)
  /-- `READ_DIRECT_WINDOW` (R415): C402h returns Direct Window registers by supervisor access. -/
  | readDirectWindow (by_ : Fin 4) (uid : Nat) (payload : List Byte) (dt : Nat)
  /-- `GET_BACKGROUND_STATUS` (R415): C403h reports SB's background command progress. -/
  | getBackgroundStatus (by_ : Fin 4) (uid : Nat) (payload : List Byte) (dt : Nat)
  /-- `CREATE` (R175): C410h creates a context with new keys. -/
  | create (by_ : Fin 4) (uid : Nat) (payload : List Byte) (dt : Nat)
  /-- `ASSIGN` (R177): C411h assigns granules to a context after a zero fill. -/
  | assign (by_ : Fin 4) (uid : Nat) (payload : List Byte) (dt : Nat)
  /-- `RELEASE` (R178): C412h releases granules from a context through dynamic capacity. -/
  | release (by_ : Fin 4) (uid : Nat) (payload : List Byte) (dt : Nat)
  /-- `SET_CLASS` (R179): C413h changes the persistence class of granules. -/
  | setClass (by_ : Fin 4) (uid : Nat) (payload : List Byte) (dt : Nat)
  /-- `SET_OWNER` (R180): C414h moves a disabled context to the other head. -/
  | setOwner (by_ : Fin 4) (uid : Nat) (payload : List Byte) (dt : Nat)
  /-- `DISABLE` (R203): C415h disables a context through QUIESCING. -/
  | disable (by_ : Fin 4) (uid : Nat) (payload : List Byte) (dt : Nat)
  /-- `ENABLE` (R175): C416h enables a disabled context. -/
  | enable (by_ : Fin 4) (uid : Nat) (payload : List Byte) (dt : Nat)
  /-- `SANITIZE` (R205): C417h starts a crypto-erase sanitize of a disabled context. -/
  | sanitize (by_ : Fin 4) (uid : Nat) (payload : List Byte) (dt : Nat)
  /-- `GET_CONTEXT` (R416): C418h returns a context table entry and the context's exposure. -/
  | getContext (by_ : Fin 4) (uid : Nat) (payload : List Byte) (dt : Nat)
  /-- `SET_RETENTION` (R195): C419h sets RETAIN_COUNT and RETAIN_AGE. -/
  | setRetention (by_ : Fin 4) (uid : Nat) (payload : List Byte) (dt : Nat)
  /-- `READ_METERING` (R211): C41Ah returns metering records in a time range. -/
  | readMetering (by_ : Fin 4) (uid : Nat) (payload : List Byte) (dt : Nat)
  /-- `LIST_CONTEXTS` (R416): C41Bh lists contexts with their states and owners. -/
  | listContexts (by_ : Fin 4) (uid : Nat) (payload : List Byte) (dt : Nat)
  /-- `CONFIGURE_RING` (R185): C420h configures a commit ring. -/
  | configureRing (by_ : Fin 4) (uid : Nat) (payload : List Byte) (dt : Nat)
  /-- `DISABLE_RING` (R203): C421h disables a ring through quiescing. -/
  | disableRing (by_ : Fin 4) (uid : Nat) (payload : List Byte) (dt : Nat)
  /-- `SET_INTERRUPTS` (R417): C422h sets a ring's vector and coalescing. -/
  | setInterrupts (by_ : Fin 4) (uid : Nat) (payload : List Byte) (dt : Nat)
  /-- `GET_RING` (R417): C423h returns a ring descriptor. -/
  | getRing (by_ : Fin 4) (uid : Nat) (payload : List Byte) (dt : Nat)
  /-- `GET_EXPOSURE` (R418): C430h returns exposure, bounds and learning values. -/
  | getExposure (by_ : Fin 4) (uid : Nat) (payload : List Byte) (dt : Nat)
  /-- `SET_EXPOSURE_POLICY` (R77): C431h changes exposure policy fields. -/
  | setExposurePolicy (by_ : Fin 4) (uid : Nat) (payload : List Byte) (dt : Nat)
  /-- `GET_EXPOSURE_POLICY` (R418): C432h returns the exposure policy. -/
  | getExposurePolicy (by_ : Fin 4) (uid : Nat) (payload : List Byte) (dt : Nat)
  /-- `READ_LAPSE_RECORDS` (R418): C433h returns lapse records. -/
  | readLapseRecords (by_ : Fin 4) (uid : Nat) (payload : List Byte) (dt : Nat)
  /-- `GET_GAUGE` (R268): C440h returns the seal-referenced gauge reports. -/
  | getGauge (by_ : Fin 4) (uid : Nat) (payload : List Byte) (dt : Nat)
  /-- `REQUEST_RELEASE` (R283): C441h requests release of a bay. -/
  | requestRelease (by_ : Fin 4) (uid : Nat) (payload : List Byte) (dt : Nat)
  /-- `SET_HOLD` (R283): C442h sets or clears HOLD on a bay. -/
  | setHold (by_ : Fin 4) (uid : Nat) (payload : List Byte) (dt : Nat)
  /-- `CAPACITY_TEST` (R270): C443h starts or stops a capacity test. -/
  | capacityTest (by_ : Fin 4) (uid : Nat) (payload : List Byte) (dt : Nat)
  /-- `TEST_SEAL` (R103): C444h starts a test seal. -/
  | testSeal (by_ : Fin 4) (uid : Nat) (payload : List Byte) (dt : Nat)
  /-- `SET_ENERGY_POLICY` (R288): C445h changes the assist and charge policy fields. -/
  | setEnergyPolicy (by_ : Fin 4) (uid : Nat) (payload : List Byte) (dt : Nat)
  /-- `SET_BAY_PARAMETERS` (R288): C446h sets a bay's pack parameters. -/
  | setBayParameters (by_ : Fin 4) (uid : Nat) (payload : List Byte) (dt : Nat)
  /-- `SET_BRIDGE_PARAMETERS` (R288): C447h sets the bridge parameters. -/
  | setBridgeParameters (by_ : Fin 4) (uid : Nat) (payload : List Byte) (dt : Nat)
  /-- `LOAD_CHEMISTRY_TABLE` (R260): C448h loads a chemistry table. -/
  | loadChemistryTable (by_ : Fin 4) (uid : Nat) (payload : List Byte) (dt : Nat)
  /-- `READ_GAUGE_RECORDS` (R419): C449h returns the gauge learning and state records. -/
  | readGaugeRecords (by_ : Fin 4) (uid : Nat) (payload : List Byte) (dt : Nat)
  /-- `GET_THERMAL` (R420): C450h returns the thermal registers and crossing counts. -/
  | getThermal (by_ : Fin 4) (uid : Nat) (payload : List Byte) (dt : Nat)
  /-- `SET_THERMAL` (R307): C451h sets the on-die thermal settings. -/
  | setThermal (by_ : Fin 4) (uid : Nat) (payload : List Byte) (dt : Nat)
  /-- `SET_BOARD_THRESHOLDS` (R293): C452h sets the board input thresholds and masks. -/
  | setBoardThresholds (by_ : Fin 4) (uid : Nat) (payload : List Byte) (dt : Nat)
  /-- `READ_THERMAL_RECORDS` (R306): C453h returns thermal records. -/
  | readThermalRecords (by_ : Fin 4) (uid : Nat) (payload : List Byte) (dt : Nat)
  /-- `READ_LOG` (R331): C460h returns Flint log entries of a collector. -/
  | readLog (by_ : Fin 4) (uid : Nat) (payload : List Byte) (dt : Nat)
  /-- `READ_FIRST_FAULT` (R421): C461h returns a first-fault record. -/
  | readFirstFault (by_ : Fin 4) (uid : Nat) (payload : List Byte) (dt : Nat)
  /-- `ACKNOWLEDGE` (R324): C462h clears a first-fault record by its LSEQ. -/
  | acknowledge (by_ : Fin 4) (uid : Nat) (payload : List Byte) (dt : Nat)
  /-- `INJECT` (R329): C463h forces a Flint message from a source. -/
  | inject (by_ : Fin 4) (uid : Nat) (payload : List Byte) (dt : Nat)
  /-- `HOLD_TFAULT_N` (R330): C464h sets or releases a hold on TFAULT_N lines. -/
  | holdTfaultN (by_ : Fin 4) (uid : Nat) (payload : List Byte) (dt : Nat)
  /-- `READ_COUNTS` (R332): C465h returns per-source Flint counts. -/
  | readCounts (by_ : Fin 4) (uid : Nat) (payload : List Byte) (dt : Nat)
  /-- `TAKE_SNAPSHOT` (R354): C470h triggers a snapshot capture. -/
  | takeSnapshot (by_ : Fin 4) (uid : Nat) (payload : List Byte) (dt : Nat)
  /-- `SCHEDULE_SNAPSHOT` (R356): C471h schedules a snapshot trigger. -/
  | scheduleSnapshot (by_ : Fin 4) (uid : Nat) (payload : List Byte) (dt : Nat)
  /-- `LATTICE_SNAPSHOT` (R357): C472h requests a lattice-wide snapshot trigger. -/
  | latticeSnapshot (by_ : Fin 4) (uid : Nat) (payload : List Byte) (dt : Nat)
  /-- `READ_SNAPSHOT` (R359): C473h returns a snapshot bank's header and sections. -/
  | readSnapshot (by_ : Fin 4) (uid : Nat) (payload : List Byte) (dt : Nat)
  /-- `RELEASE_BANK` (R359): C474h frees a snapshot bank. -/
  | releaseBank (by_ : Fin 4) (uid : Nat) (payload : List Byte) (dt : Nat)
  /-- `CANCEL_SCHEDULED` (R422): C475h cancels a scheduled trigger. -/
  | cancelScheduled (by_ : Fin 4) (uid : Nat) (payload : List Byte) (dt : Nat)
  /-- `GET_TIME` (R423): C480h returns the count, UTC, offsets and Quartz status. -/
  | getTime (by_ : Fin 4) (uid : Nat) (payload : List Byte) (dt : Nat)
  /-- `SET_OFFSET` (R340): C481h sets the UTC offset and its accuracy. -/
  | setOffset (by_ : Fin 4) (uid : Nat) (payload : List Byte) (dt : Nat)
  /-- `SET_TIME_OPTIONS` (R423): C482h sets PPS_EN, PPS_OUT_EN, SNAP_IN_EN and ROOT_EN. -/
  | setTimeOptions (by_ : Fin 4) (uid : Nat) (payload : List Byte) (dt : Nat)
  /-- `GET_LATTICE` (R424): C490h returns lattice status and route entries. -/
  | getLattice (by_ : Fin 4) (uid : Nat) (payload : List Byte) (dt : Nat)
  /-- `SET_LINK` (R424): C491h enables or disables a link and sets its cost and asymmetry. -/
  | setLink (by_ : Fin 4) (uid : Nat) (payload : List Byte) (dt : Nat)
  /-- `SET_GRANT` (R380): C492h adds or removes a lattice grant. -/
  | setGrant (by_ : Fin 4) (uid : Nat) (payload : List Byte) (dt : Nat)
  /-- `CREATE_REPLICA` (R384): C493h sets up a replica stream to a peer. -/
  | createReplica (by_ : Fin 4) (uid : Nat) (payload : List Byte) (dt : Nat)
  /-- `CONTROL_REPLICA` (R424): C494h deletes, re-rates or resyncs a replica stream. -/
  | controlReplica (by_ : Fin 4) (uid : Nat) (payload : List Byte) (dt : Nat)
  /-- `STREAM_STATUS` (R387): C495h returns the state of streams and migrations. -/
  | streamStatus (by_ : Fin 4) (uid : Nat) (payload : List Byte) (dt : Nat)
  /-- `MIGRATE` (R389): C496h starts a context migration. -/
  | migrate (by_ : Fin 4) (uid : Nat) (payload : List Byte) (dt : Nat)
  /-- `CONTROL_MIGRATION` (R389): C497h orders a migration's switch or abort. -/
  | controlMigration (by_ : Fin 4) (uid : Nat) (payload : List Byte) (dt : Nat)
  /-- `LATTICE_CHECKPOINT` (R382): C498h requests a lattice checkpoint as coordinator. -/
  | latticeCheckpoint (by_ : Fin 4) (uid : Nat) (payload : List Byte) (dt : Nat)
  /-- `CHECKPOINT_RESULT` (R424): C499h returns a lattice checkpoint's result. -/
  | checkpointResult (by_ : Fin 4) (uid : Nat) (payload : List Byte) (dt : Nat)
  /-- `GET_RANKS` (R425): C4A0h returns a tile's DRAM configuration, steering and channel status. -/
  | getRanks (by_ : Fin 4) (uid : Nat) (payload : List Byte) (dt : Nat)
  /-- `READ_ROW_FAULTS` (R425): C4A1h returns a rank's row fault list. -/
  | readRowFaults (by_ : Fin 4) (uid : Nat) (payload : List Byte) (dt : Nat)
  /-- `RETIRE_RANK` (R245): C4A2h retires a rank by command. -/
  | retireRank (by_ : Fin 4) (uid : Nat) (payload : List Byte) (dt : Nat)
  /-- `RETURN_RANK` (R248): C4A3h starts the return of a repaired rank. -/
  | returnRank (by_ : Fin 4) (uid : Nat) (payload : List Byte) (dt : Nat)
  /-- `SET_DRAM_CONFIGURATION` (R218): C4A4h sets the DRAM configuration fields. -/
  | setDramConfiguration (by_ : Fin 4) (uid : Nat) (payload : List Byte) (dt : Nat)
  /-- `GET_STRATA_STATUS` (R426): C4B0h returns wear and space status. -/
  | getStrataStatus (by_ : Fin 4) (uid : Nat) (payload : List Byte) (dt : Nat)
  /-- `SET_LIFE_TARGET` (R170): C4B1h sets LIFE_TARGET. -/
  | setLifeTarget (by_ : Fin 4) (uid : Nat) (payload : List Byte) (dt : Nat)
  /-- `LIST_STRATA` (R426): C4B2h lists a context's strata. -/
  | listStrata (by_ : Fin 4) (uid : Nat) (payload : List Byte) (dt : Nat)
  /-- `RELEASE_STRATUM` (R162): C4B3h releases a stratum. -/
  | releaseStratum (by_ : Fin 4) (uid : Nat) (payload : List Byte) (dt : Nat)
  /-- `READ_DAMAGE_LIST` (R426): C4B4h returns a stratum's damaged pages. -/
  | readDamageList (by_ : Fin 4) (uid : Nat) (payload : List Byte) (dt : Nat)
  /-- `ACQUIRE` (R427): C4C0h acquires or renews a lease. -/
  | acquire (by_ : Fin 4) (uid : Nat) (payload : List Byte) (dt : Nat)
  /-- `LEASE_RELEASE` (R427): C4C1h releases a held lease. -/
  | leaseRelease (by_ : Fin 4) (uid : Nat) (payload : List Byte) (dt : Nat)
  /-- `QUERY` (R427): C4C2h returns a lease's holder and times. -/
  | query (by_ : Fin 4) (uid : Nat) (payload : List Byte) (dt : Nat)
  /-- `BREAK` (R427): C4C3h breaks a lease, by SB. -/
  | breakLease (by_ : Fin 4) (uid : Nat) (payload : List Byte) (dt : Nat)
  /-- `GET_RESTORE_STATUS` (R428): C4D0h returns restore status and phase times. -/
  | getRestoreStatus (by_ : Fin 4) (uid : Nat) (payload : List Byte) (dt : Nat)
  /-- `READ_POISON_LIST` (R428): C4D1h returns poisoned ranges. -/
  | readPoisonList (by_ : Fin 4) (uid : Nat) (payload : List Byte) (dt : Nat)
  /-- `READ_SEAL_RECORDS` (R108): C4D2h returns seal event records. -/
  | readSealRecords (by_ : Fin 4) (uid : Nat) (payload : List Byte) (dt : Nat)
  /-- `GET_UPDATE_STATUS` (R429): C4E0h returns slot states and the update progress. -/
  | getUpdateStatus (by_ : Fin 4) (uid : Nat) (payload : List Byte) (dt : Nat)
  /-- `SET_UPDATE_POLICY` (R429): C4E1h sets CONFIRM_MODE. -/
  | setUpdatePolicy (by_ : Fin 4) (uid : Nat) (payload : List Byte) (dt : Nat)
  /-- `CONFIRM` (R476): C4E2h supplies the host's confirmation of a pending try. -/
  | confirm (by_ : Fin 4) (uid : Nat) (payload : List Byte) (dt : Nat)
  /-- `ENTER_BEDROCK` (R483): C4E3h requests a reset into Bedrock. -/
  | enterBedrock (by_ : Fin 4) (uid : Nat) (payload : List Byte) (dt : Nat)
  /-- `IDENTIFY_MEMORY_DEVICE` (R430): The CXL command that returns the capacity and poison list limit. -/
  | identifyMemoryDevice (h : Fin 2) (dt : Nat)
  /-- `GET_PARTITION_INFO` (R430): The CXL command that reports all capacity as persistent. -/
  | getPartitionInfo (h : Fin 2) (dt : Nat)
  /-- `SET_PARTITION_INFO` (R430): The CXL command, answered as Unsupported. -/
  | setPartitionInfo (h : Fin 2) (dt : Nat)
  /-- `GET_HEALTH_INFO` (R430): The CXL command that returns media status, life used, temperature and the dirty-shutdown count. -/
  | getHealthInfo (h : Fin 2) (dt : Nat)
  /-- `GET_ALERT_CONFIGURATION` (R430): The CXL command that reads the alert configuration. -/
  | getAlertConfiguration (h : Fin 2) (dt : Nat)
  /-- `SET_ALERT_CONFIGURATION` (R430): The CXL command that sets the alert configuration. -/
  | setAlertConfiguration (h : Fin 2) (cfg : BitVec 128) (dt : Nat)
  /-- `GET_SHUTDOWN_STATE` (R131): The CXL command that reports the shutdown state. -/
  | getShutdownState (h : Fin 2) (dt : Nat)
  /-- `SET_SHUTDOWN_STATE` (R131): The CXL command that is accepted without changing the count. -/
  | setShutdownState (h : Fin 2) (v : BitVec 8) (dt : Nat)
  /-- `GET_POISON_LIST` (R75): The CXL command that returns the head's poison list. -/
  | getPoisonList (h : Fin 2) (a n : Nat) (dt : Nat)
  /-- `INJECT_POISON` (R430): The CXL command that stores a poisoned line and makes its page dirty. -/
  | injectPoison (h : Fin 2) (dpa : BitVec 45) (dt : Nat)
  /-- `CLEAR_POISON` (R74): The CXL command that is a full-line write of the data given. -/
  | clearPoison (h : Fin 2) (dpa : BitVec 45) (data : BitVec 512) (dt : Nat)
  /-- `SCAN_MEDIA` (R430): The CXL command, answered as Unsupported. -/
  | scanMedia (h : Fin 2) (dt : Nat)
  /-- `GET_EVENT_RECORDS` (R335): The CXL command that returns event records. -/
  | getEventRecords (h : Fin 2) (log : Fin 5) (dt : Nat)
  /-- `CLEAR_EVENT_RECORDS` (R335): The CXL command that clears event records. -/
  | clearEventRecords (h : Fin 2) (log : Fin 5) (all : Bool) (handles : List Nat) (dt : Nat)
  /-- `GET_EVENT_INTERRUPT_POLICY` (R430): The CXL command that reads the event interrupt policy. -/
  | getEventInterruptPolicy (h : Fin 2) (dt : Nat)
  /-- `SET_EVENT_INTERRUPT_POLICY` (R430): The CXL command that sets the event interrupt policy. -/
  | setEventInterruptPolicy (h : Fin 2) (policy : BitVec 40) (dt : Nat)
  /-- `GET_TIMESTAMP` (R430): The CXL command that returns the host timestamp. -/
  | getTimestamp (h : Fin 2) (dt : Nat)
  /-- `SET_TIMESTAMP` (R430): The CXL command that sets the host timestamp for event headers only. -/
  | setTimestamp (h : Fin 2) (v : BitVec 64) (dt : Nat)
  /-- `GET_SUPPORTED_LOGS` (R430): The CXL command that lists the supported logs. -/
  | getSupportedLogs (h : Fin 2) (dt : Nat)
  /-- `GET_LOG` (R397): The CXL command that returns a log, including the Command Effects Log. -/
  | getLog (h : Fin 2) (log : BitVec 128) (off n : BitVec 32) (dt : Nat)
  /-- `GET_FW_INFO` (R467): The CXL command that reports the slots and their revisions. -/
  | getFwInfo (h : Fin 2) (dt : Nat)
  /-- `TRANSFER_FW` (R468): The CXL command that opens the update slot, sends a chunk, ends or aborts a download. -/
  | transferFw (h : Fin 2) (action : Fin 5) (slot : BitVec 8) (off : BitVec 32) (data : List Byte) (dig : Nat) (facts : BitVec 4) (dt : Nat)
  /-- `ACTIVATE_FW` (R472): The CXL command that activates the staged slot as a try. -/
  | activateFw (h : Fin 2) (online : Bool) (slot : BitVec 8) (dt : Nat)
  /-- `GET_DC_CONFIG` (R176): The CXL command that returns the dynamic capacity configuration. -/
  | getDcConfig (h : Fin 2) (dt : Nat)
  /-- `GET_DC_EXTENT_LIST` (R176): The CXL command that returns the extent list. -/
  | getDcExtentList (h : Fin 2) (dt : Nat)
  /-- `ADD_DC_RESPONSE` (R177): The CXL command by which the host accepts an offered extent, clearing DC_PENDING. -/
  | addDcResponse (h : Fin 2) (gs : List Nat) (dt : Nat)
  /-- `RELEASE_DC` (R178): The CXL command by which the host releases an extent, after which the granule is cleared and trimmed. -/
  | releaseDc (h : Fin 2) (gs : List Nat) (dt : Nat)
  /-- `CXL_SANITIZE` (R430): The CXL Sanitize command, answered as Unsupported. -/
  | cxlSanitize (h : Fin 2) (dt : Nat)
  /-- `SECURE_ERASE` (R430): The CXL command, answered as Unsupported. -/
  | secureErase (h : Fin 2) (dt : Nat)
  /-- `GET_LSA` (R430): The CXL command, answered as Unsupported. -/
  | getLsa (h : Fin 2) (dt : Nat)
  /-- `SET_LSA` (R430): The CXL command, answered as Unsupported. -/
  | setLsa (h : Fin 2) (dt : Nat)
  /-- `REQUEST_UPDATE` (R465): PLDM RequestUpdate opens the update slot or is refused. -/
  | requestUpdate (eid maxTransfer : Nat) (dt : Nat)
  /-- `REQUEST_FIRMWARE_DATA` (R468): A response to the device's RequestFirmwareData supplies an image chunk. -/
  | requestFirmwareData (data : List Byte) (dig : Nat) (facts : BitVec 4) (dt : Nat)
  /-- `ACTIVATE_FIRMWARE` (R472): PLDM ActivateFirmware activates the staged slot. -/
  | activateFirmware (selfContained : Bool) (dt : Nat)
  /-- `CANCEL_UPDATE` (R466): PLDM CancelUpdate ends the owner's update slot. -/
  | cancelUpdate (dt : Nat)
  /-- `CHUNK_DURABLE` (R468): A chunk is programmed and read back on all tiles, so it is acknowledged and COMMITTED may advance. -/
  | chunkDurable (dt : Nat)
  /-- `SLOT_VERIFICATION` (R470): Every tile verifies the written slot, which becomes valid or invalid. -/
  | slotVerification (facts : List (BitVec 4)) (dt : Nat)
  /-- `UPDATE_IDLE_TIMEOUT` (R466): 30 minutes pass without an update command, so the update slot is released. -/
  | updateIdleTimeout (dt : Nat)
  /-- `UPDATE_CONFIRMATION` (R477): All confirmation conditions hold, so the floor is raised, the twin swapped and the try made the running slot. -/
  | updateConfirmation (dt : Nat)
  /-- `CONFIRM_WINDOW_EXPIRY` (R478): The 600 s window ends unconfirmed, so REVERT is set and the revert reset is taken. -/
  | confirmWindowExpiry (dt : Nat)
  /-- `SLATE_KEY` (R436): A write of SLATE_KEY advances or fails the unlock sequence. -/
  | slateKey (t : Fin 8) (off : BitVec 7) (v : BitVec 64) (fetch : Fin 3) (purpose : Fin 4) (dt : Nat)
  /-- `PROGRAM_LINE` (R437): Slate command 01h programs a 16-byte line. -/
  | programLine (t : Fin 8) (addr : BitVec 23) (data : BitVec 128) (fetch : Fin 3) (dt : Nat)
  /-- `ERASE_SECTOR` (R437): Slate command 02h erases a sector. -/
  | eraseSector (t : Fin 8) (addr : BitVec 23) (fetch : Fin 3) (purpose : Fin 4) (dt : Nat)
  /-- `MARGIN_VERIFY` (R437): Slate command 03h margin-verifies a sector. -/
  | marginVerify (t : Fin 8) (addr : BitVec 23) (fetch : Fin 3) (dt : Nat)
  /-- `READ_ERASE_COUNTER` (R437): Slate command 04h reads a sector's erase counter. -/
  | readEraseCounter (t : Fin 8) (addr : BitVec 23) (fetch : Fin 3) (dt : Nat)
  /-- `SWAP_BOOT_TWIN` (R456): Slate command 05h programs a swap line naming a boot twin. -/
  | swapBootTwin (t : Fin 8) (addr : BitVec 23) (fetch : Fin 3) (dt : Nat)
  /-- `BLANK_CHECK` (R437): Slate command 06h checks a sector erased. -/
  | blankCheck (t : Fin 8) (addr : BitVec 23) (fetch : Fin 3) (dt : Nat)
  /-- `SLATE_SEQUENCE_TIMEOUT` (R436): An operand not written within 100 µs of the command fails the sequence. -/
  | slateSequenceTimeout (t : Fin 8) (dt : Nat)
  /-- `SLATE_OPERATION_DONE` (R438): A Slate operation ends with DONE or FAIL and releases held fetches. -/
  | slateOperationDone (t : Fin 8) (bank : Fin 2) (ok : Bool) (pulses : BitVec 6) (fail : BitVec 24) (dt : Nat)
  /-- `SUSPEND` (R445): SLATE_SUSP.SUSPEND requests suspension of the erase in progress. -/
  | suspend (t : Fin 8) (dt : Nat)
  /-- `RESUME` (R445): SLATE_SUSP.RESUME continues the suspended erase. -/
  | resume (t : Fin 8) (dt : Nat)
  /-- `SUSPEND_HOLD_END` (R445): 2 ms pass since the erase resumed, so a held suspend takes effect. -/
  | suspendHoldEnd (t : Fin 8) (dt : Nat)
  /-- `SUSPENDED` (R445): The erase suspends at the end of its current pulse. -/
  | suspended (t : Fin 8) (dt : Nat)
  /-- `SLATE_READ_UNDERRUN` (R444): A Slate read meets a delay underrun, is repeated at tap 15, and TAP is raised. -/
  | slateReadUnderrun (t : Fin 8) (err : Fin 4) (dt : Nat)
  /-- `PARAMETER_RECORD_WRITE` (R453): A deferred parameter record write starts once its pre-check passes and its sector is ready. -/
  | parameterRecordWrite (t : Fin 8) (typ len : Nat) (dt : Nat)
  /-- `EVENT_STORE_ROTATION` (R455): Free space in the current event store sector falls below 96 KiB, so the oldest sector is rotated. -/
  | eventStoreRotation (t : Fin 8) (dt : Nat)
  /-- `SLATE_REFRESH` (R457): A sector older than 5 years, or failing its yearly margin verify, is refreshed. -/
  | slateRefresh (t : Fin 8) (sector : Fin 63) (marginFails : Bool) (dt : Nat)
  /-- `BR_ID` (R485): The recovery window read of Bedrock identity. -/
  | brId (dt : Nat)
  /-- `BR_TILES` (R485): The recovery window read or write of the tiles selected. -/
  | brTiles (write : Option (BitVec 8)) (pec : Bool) (dt : Nat)
  /-- `BR_ADDR` (R485): The recovery window read or write of the Slate address. -/
  | brAddr (write : Option (BitVec 23)) (pec : Bool) (dt : Nat)
  /-- `BR_STAT` (R485): The recovery window read of each tile's Slate status. -/
  | brStat (dt : Nat)
  /-- `BR_RES` (R485): The recovery window read of SLATE_RES. -/
  | brRes (dt : Nat)
  /-- `BR_LINE` (R485): The recovery window program of a line on every selected tile. -/
  | brLine (data : BitVec 128) (pec : Bool) (dt : Nat)
  /-- `BR_ERASE` (R485): The recovery window erase of a sector with intent and done lines. -/
  | brErase (sector : BitVec 8) (pec : Bool) (dt : Nat)
  /-- `BR_OP` (R485): The recovery window run of Slate command 03h, 04h, 05h or 06h. -/
  | brOp (arg code : BitVec 8) (pec : Bool) (dt : Nat)
  /-- `BR_DATA` (R485): The recovery window read of a Slate line. -/
  | brData (err : Fin 3) (dt : Nat)
  /-- `BR_VERIFY` (R485): The recovery window verification of a slot or twin. -/
  | brVerify (target : BitVec 8) (facts : List (BitVec 4)) (pec : Bool) (dt : Nat)
  /-- `BR_VRES` (R485): The recovery window read of the verification results. -/
  | brVres (dt : Nat)
  /-- `BR_EXIT` (R486): The recovery window exit from Bedrock into a verified slot. -/
  | brExit (slot : BitVec 8) (pec : Bool) (dt : Nat)
  /-- `VAUX_RISE` (R491): VAUX rises above its threshold, so the standby reset is released and the standby logic starts. -/
  | vauxRise (pwrFailN vinOk latchA latchB : Bool) (dt : Nat)
  /-- `POWER_UP` (R491): Mains good with restart conditions met asserts PWR_EN and enables the rails in order. -/
  | powerUp (dt : Nat)
  /-- `RAIL_GOOD` (R491): A rail reports good, so the next rail is enabled or the core reset is released. -/
  | railGood (rail : Fin 6) (dt : Nat)
  /-- `RAIL_TIMEOUT` (R492): A rail or the reference is not good within its bound, so power-up is undone and retried. -/
  | railTimeout (rail : Fin 6) (dt : Nat)
  /-- `POWER_UP_RETRY` (R492): 10 s after a failed attempt, power-up is retried. -/
  | powerUpRetry (dt : Nat)
  /-- `PACKAGE_RESET` (R497): A package reset clears the package-reset domain and samples the straps. -/
  | packageReset (bedrock noLat : Bool) (smb test : Fin 4) (dt : Nat)
  /-- `VAUX_FALL` (R509): VAUX falls below its threshold, which causes a safe state without a seal and then a standby reset. -/
  | vauxFall (dt : Nat)
  /-- `RAIL_OUT_OF_RANGE` (R496): A rail is reported out of range in service and is logged at the severity for that rail. -/
  | railOutOfRange (rail : Fin 6) (dt : Nat)
  /-- `HEAD_RESET` (R497): PERST_N, a hot reset or link down resets a head. -/
  | headReset (h : Fin 2) (cause : Fin 3) (dt : Nat)
  /-- `HEAD_LINK_UP` (R493): A head's link comes up, and it reports its media status. -/
  | headLinkUp (h : Fin 2) (dt : Nat)
  /-- `SIDEBAND_RESET` (R497): An SMBus, I3C or MCTP reset discards messages in flight. -/
  | sidebandReset (newEid : Option (BitVec 8)) (dt : Nat)
  /-- `SUPERVISOR_WATCHDOG` (R497): A supervisor fails to service its watchdog for 10 ms, which raises an Urgent message that halts it. -/
  | supervisorWatchdog (t : Fin 8) (dt : Nat)
  /-- `MCTP_REQUEST` (R398): A JCS request arrives over MCTP, is admitted if it comes from the sideband owner and is queued. -/
  | mctpRequest (eid : BitVec 8) (tag opcode : BitVec 16) (payload : List Byte) (dt : Nat)
  /-- `MAILBOX_DOORBELL` (R397): A head's mailbox doorbell write submits a command to the serialiser. -/
  | mailboxDoorbell (h : Fin 2) (opcode : BitVec 16) (payload : List Byte) (dt : Nat)
  /-- `MODULE_BUTTON_RELEASE` (R501): A module button release is classified as Tap, Hold or ignored, and acted on for the device state. -/
  | moduleButtonRelease (dt : Nat)
  /-- `BUTTON_STUCK` (R501): A press held for 30 s raises button stuck. -/
  | buttonStuck (dt : Nat)
  /-- `IDENTIFY_END` (R501): Identify ends after 30 s. -/
  | identifyEnd (dt : Nat)
  /-- `TOUCH_STUCK` (R500): A touch held 10 min is taken as a stuck electrode, so TOUCH deasserts and the baseline resets. -/
  | touchStuck (b : Fin 2) (count : Nat) (dt : Nat)
  /-- `REMOVAL_DRAIN_END` (R503): Exposure reaches 1 GiB or 60 s pass, so a seal with cause 6h begins. -/
  | removalDrainEnd (dt : Nat)
  /-- `REFUSED_HOLD_INDICATION_END` (R502): 3 s after a refused Hold, LED_ATTN stops its 4 Hz flashing. -/
  | refusedHoldIndicationEnd (dt : Nat)
  /-- `BAY_TOUCH_END` (R71): A debounced end of a handle touch (five measurements below threshold) ends the pre-drain and removes the pack from the touched set used for C_without. -/
  | bayTouchEnd (b : Fin 2) (dt : Nat)
  /-- `HEAD_LINK_DOWN_LEASE_END` (R406): A head's link has stayed down for 1 s, so the leases of that principal end. -/
  | headLinkDownLeaseEnd (h : Fin 2) (dt : Nat)
  /-- `REFUSED_PRESS_INDICATION_END` (R282): 3 s after a refused bay release press, the bay LED leaves its amber 4 Hz indication. -/
  | refusedPressIndicationEnd (b : Fin 2) (dt : Nat)
  /-- `TFAULT_PULSE_END` (R330): 20 to 25 µs after a first-fault record is taken, the TFAULT_N[t] pulse ends and the line is released unless a hold applies. -/
  | tfaultPulseEnd (t : Fin 8) (dt : Nat)
  /-- `LOSS_OF_BOTH_SUPERVISORS` (R21): The lead supervisor stops its heartbeat while no deputy exists, so the package enters its safe state without a seal and ALIVE stops within 1 ms. -/
  | lossOfBothSupervisors (dt : Nat)
  /-- `MSIX_VECTOR_UNMASK` (R202): The host unmasks an MSI-X vector whose pending bit is set, so the held message is sent. -/
  | msixVectorUnmask (h : Fin 2) (v : Fin 2048) (dt : Nat)
  /-- `HDM_DECODER_COMMIT` (R30): The host commits an HDM decoder of a head, after which host addresses in its range decode to DPAs. -/
  | hdmDecoderCommit (h : Fin 2) (n : Fin 8) (base size ways gran pos dpaBase : Nat) (dt : Nat)
  /-- `PERST_N_DEASSERT` (R493): Hh_PERST_N is deasserted, so the head leaves electrical idle and starts training within 100 ms. -/
  | perstNDeassert (h : Fin 2) (dt : Nat)
  /-- `RESET_N_ASSERT` (R101): RESET_N is asserted, which starts the timing of its length while host traffic continues. -/
  | resetNAssert (dt : Nat)
  /-- `MODULE_BUTTON_PRESS` (R501): MOD_BTN_N is asserted after debounce, which starts the hold timing that classification and the 30 s stuck detection use. -/
  | moduleButtonPress (dt : Nat)
  /-- `PWR_FAIL_N_DEASSERT` (R99): A filtered deassertion of PWR_FAIL_N starts the 100 ms mains-good continuity interval and ends any capacity-test interruption condition. -/
  | pwrFailNDeassert (dt : Nat)
  /-- `VIN_SENSE_HIGH` (R99): VIN_SENSE rises above its rising threshold, which starts the 100 ms mains-good continuity interval. -/
  | vinSenseHigh (dt : Nat)
  /-- `THERMAL_RECORD_WRITE` (R306): A thermal record of kind 05h or 06h is written to the event store within 1 s of the event, retried while the pre-check of R277 fails. -/
  | thermalRecordWrite (dt : Nat)
  /-- `SLATE_CMD_WRITE` (R436): A write of SLATE_CMD after the unlock sequence takes the command code and opens the 100 µs operand window, or is ignored and noted when ARMED is clear. -/
  | slateCmdWrite (t : Fin 8) (code : BitVec 8) (dt : Nat)
  deriving DecidableEq, Repr

end Sys2Proof
end

