-- ==== Sys2Proof/Machine/Bits.lean ====
section
/-! DEFINITION. Byte order, bit fields and sign extension: the helpers that lay out registers, payloads and records (R5, R7). -/

namespace Sys2Proof

/-- One bit of a `Bool`. -/
def bit (b : Bool) : Nat := if b then 1 else 0

/-- The low `n` bytes of a number, least significant first (R7). -/
def leBytes : Nat → Nat → List Byte
  | 0, _ => []
  | n + 1, v => BitVec.ofNat 8 v :: leBytes n (v / 256)

/-- A number from bytes, least significant first (R7). -/
def leNat : List Byte → Nat
  | [] => 0
  | b :: bs => b.toNat + 256 * leNat bs

/-- `n` bytes of a payload from offset `o`, as a number (R7); bytes past the end read as zero. -/
def fieldAt (p : List Byte) (o n : Nat) : Nat := leNat ((p.drop o).take n)

/-- The two's complement pattern of an integer in `n` bits, as a number. -/
def twos (n : Nat) (i : Int) : Nat := (i % (2 ^ n : Int)).toNat

/-- The signed value of an `n`-bit pattern. -/
def signed (n v : Nat) : Int := if v < 2 ^ (n - 1) then (v : Int) else (v : Int) - 2 ^ n

/-- Bits `[lo + n - 1 : lo]` of a number. -/
def bits (v lo n : Nat) : Nat := v / 2 ^ lo % 2 ^ n

/-- A value laid at bit `lo` in a field of `n` bits. -/
def put (lo n v : Nat) : Nat := v % 2 ^ n * 2 ^ lo

/-- A count that saturates at `2 ^ n - 1`. -/
def satInc (n v : Nat) : Nat := if v + 1 < 2 ^ n then v + 1 else 2 ^ n - 1

/-- Fields in order, each as its length in bytes and its value, least significant byte first (R7). -/
def fields (l : List (Nat × Nat)) : List Byte := l.flatMap fun x => leBytes x.1 x.2

/-- One bit of CRC-32C: the Castagnoli polynomial, reflected (PRESUMED: the spec names the code only). -/
def crcBit (c : BitVec 32) : BitVec 32 := if c.getLsbD 0 then (c >>> 1) ^^^ 0x82F63B78 else c >>> 1

/-- CRC-32C over a byte. -/
def crcByte (c : BitVec 32) (b : Byte) : BitVec 32 :=
  crcBit (crcBit (crcBit (crcBit (crcBit (crcBit (crcBit (crcBit (c ^^^ BitVec.zeroExtend 32 b))))))))

/-- CRC-32C over bytes. -/
def crc32c (bs : List Byte) : Nat := (bs.foldl crcByte 0xFFFFFFFF ^^^ 0xFFFFFFFF).toNat

/-- A record's bytes with the CRC-32C over them (R107, R138, R154, R173). -/
def withCrc (bs : List Byte) : List Byte := bs ++ leBytes 4 (crc32c bs)

end Sys2Proof
end

