-- ==== Sys2Proof/Config.lean ====
section
/-! DEFINITION. The free values: constants without a body, so that no proof can see what they are. Each stands for a value
the spec leaves open; notes/assumptions name them. -/

namespace Sys2Proof.Config

/-- Temperature, in 1/16 °C, that the β model gives for a thermistor code, a resistance at 25 °C and a β (R254, R257):
the spec does not give the divider, so the value is free. -/
opaque thermistorTemp : Nat → Nat → Nat → Int

/-- A free value of any width, by the index that the state's counter gives (see the counter `freeN` of the state). -/
opaque freeValue : Nat → Nat

/-- Version of the Bedrock ROM, fused in the part (R485): the spec gives no value. -/
opaque romVersion : Nat

/-- Rated maximum temperature of the DRAM devices, in 1/16 °C (R232, R292): a property of the devices fitted. -/
opaque dramRatedMax : Nat

/-- Effects that the Command Effects Log gives for a JCS opcode (R397): the spec does not give them. -/
opaque celEffects : Nat → Nat

/-- The TYPE under which an image of another settings format keeps a record of a type (R471): the image's own choice. -/
opaque newFormatType : Nat → BitVec 16

/-- The encryption of an elided record's 64-bit pattern, repeated twice, by key slot and generation, tweak and pattern (R138, R139): the keys
are the device's own, so the value is free. -/
opaque xtsPattern : Nat → Nat → Nat → Nat

/-- The check code of a Region Table entry over its bits [55:0] (R31): the spec does not give the function. -/
opaque rtCheck : Nat → BitVec 8

/-- Same-bank refreshes of a rank that the devices fitted let the controller postpone (R233): a property of the devices. -/
opaque postponeLimit : Nat

end Sys2Proof.Config
end

