-- ==== Sys2Proof/Machine/State.lean ====
section
/-! DEFINITION. The state of the block as plain data (one structure per chapter of the spec), its value at reset,
and the reasons a step can stop. Each structure's defaults are its values at reset; notes/assumptions say which are the
spec's and which are the model's. -/

namespace Sys2Proof.Machine

/-- Why a step stops with a fault. No meaning of this block raises one: every command of the table has an effect or is
turned away with a status the spec names. -/
inductive Fault where
  /-- Raised by no meaning; kept so that the type is inhabited. Safe: a stop proves nothing about the hardware. -/
  | none_
  deriving DecidableEq, Repr

/-- Why a command is refused. -/
inductive Refusal where
  /-- A command of the table whose meaning is not written; raised by Dispatch only. Safe. -/
  | notModelled (mnemonic : String)
  deriving DecidableEq, Repr

/-- DRAM contents: cells at strictly rising addresses, none equal to what an unlisted address reads as. -/
abbrev Mem := List Host.Cell

/-- What the block sends to its surroundings. -/
inductive Out where
  /-- A memory request of head `h` completes: data of a read, and whether it is poisoned (R32). -/
  | memRead (h : Nat) (id : Nat) (data : BitVec 512) (poison : Bool)
  /-- A memory write of head `h` completes (R32, R66). -/
  | memWrite (h : Nat) (id : Nat)
  /-- An access that matches no decoder, or a Direct Window access not served, ends as an unsupported request (R30, R412). -/
  | unsupported (h : Nat) (id : Nat)
  /-- A request ends with an error (R29). -/
  | reqError (id : Nat)
  /-- A Global Persistent Flush of head `h` is complete (R72). -/
  | gpfDone (h : Nat)
  /-- A command's response: principal code, opcode, tag, return code, extended status, background started, payload. -/
  | resp (by_ opcode tag ret ext : Nat) (bg : Bool) (payload : List Byte)
  /-- A CXL command's response with its values in order. -/
  | cxlResp (by_ opcode ret ext : Nat) (vals : List Nat)
  /-- A Direct Window read answered (R412). -/
  | dwData (h : Nat) (data : List Byte)
  /-- A completion entry written to a ring (R189). -/
  | cqe (ctx ring : Nat) (bytes : List Byte)
  /-- An MSI-X message of a head (R202). -/
  | msix (h vector : Nat)
  /-- A CXL event record posted (R335). -/
  | event (h : Nat) (log : Nat) (handle : Nat)
  /-- Dynamic capacity offered or asked back on a head (R177, R178). -/
  | dcEvent (h : Nat) (release : Bool) (ctx : Nat) (granules : List Nat)
  /-- A lattice frame sent on link `l`: its service code, and its bytes or its header and the values of its body (R363 to R365). -/
  | frame (l : Nat) (kind : Nat) (fields : List Nat)
  /-- A lattice message sent to a node: kind and fields (R367, R392). -/
  | latMsg (uid : Nat) (kind : Nat) (fields : List Nat)
  /-- A PLDM message sent on the sideband: code and values (R465, R467). -/
  | pldm (code : Nat) (vals : List Nat)
  /-- Bytes read on the recovery window, or a NAK (R485). -/
  | smbus (bytes : List Byte)
  /-- A recovery-window transaction refused (R485). -/
  | nak
  deriving DecidableEq, Repr

/-- Quartz timebase (ch. 11). -/
structure Qtz where
  /-- the count is loaded and runs [R337 R346 11] -/
  running : Bool := false
  /-- nanoseconds since the device epoch [R337 11] -/
  count : Nat := 0
  /-- part of the count below 1 ns, in 2^-32 ns [R338 11] -/
  frac : Nat := 0
  /-- rate correction r in ppb, within ±100,000 [R338 11] -/
  rate : Int := 0
  /-- integral value f of the discipline loop [R344 11] -/
  freq : Int := 0
  /-- UTC offset OFFSET, ns [R340 11] -/
  offset : Int := 0
  /-- OFS_VALID [R340 R347 11] -/
  ofsValid : Bool := false
  /-- source of OFFSET: 0 none, 1 SB, 2 PPS, 3 lattice [R340 11] -/
  ofsSource : Nat := 0
  /-- lattice offset LOFF [R352 11] -/
  loff : Int := 0
  /-- count at which LOFF was last slewed [R352 11] -/
  loffAt : Nat := 0
  /-- UNC in µs at uncTime [R348 11] -/
  unc : Nat := 65535
  /-- time at which unc was last brought up to date [R348 11] -/
  uncTime : Nat := 0
  /-- REF_LOST [R341 11] -/
  refLost : Bool := false
  /-- time since which no loss condition held [R341 11] -/
  refSince : Nat := 0
  /-- CONT_LOST [R347 11] -/
  contLost : Bool := false
  /-- standby count, whole ns [R345 11] -/
  standby : Nat := 0
  /-- its 6-bit fraction, 1/64 ns [R345 11] -/
  standbyFrac : Nat := 0
  /-- the standby rail kept the count [R347 11] -/
  standbyValid : Bool := false
  /-- time since the last 32.768 kHz tick, in 1/32768 ns [R345 11] -/
  rtcRem : Nat := 0
  /-- the device epoch has been set (a valid Quartz time record has been written) [R337 11] -/
  epochSet : Bool := false
  /-- PPS_EN [R343 R423 11 13] -/
  ppsEn : Bool := false
  /-- PPS state code [R343 11] -/
  ppsState : Nat := 0
  /-- valid edges in a row [R343 11] -/
  ppsRun : Nat := 0
  /-- edges rejected in a row [R343 R344 11] -/
  ppsRejects : Nat := 0
  /-- count at the previous valid edge [R343 11] -/
  ppsLastValid : Option Nat := none
  /-- QTZ_PPS_EDGE.COUNT [R343 11] -/
  ppsEdge : Nat := 0
  /-- PPS_OUT_EN [R349 11] -/
  ppsOutEn : Bool := false
  /-- PPS_OUT level [R349 R488 11 16] -/
  ppsOut : Bool := false
  /-- count at the last PPS_OUT rising edge [R349 11] -/
  ppsOutLast : Option Nat := none
  /-- SNAP_IN_EN [R354 11] -/
  snapInEn : Bool := false
  /-- time of the last SNAP_IN edge taken [R354 11] -/
  snapInLast : Option Nat := none
  /-- ROOT_EN [R351 11] -/
  rootEn : Bool := true
  /-- QTZ_LATCH_CNT[h] [R350 11] -/
  latchCnt : Tbl Nat := []
  /-- QTZ_LATCH_UTC[h] [R350 11] -/
  latchUtc : Tbl Int := []
  /-- highest time of any valid Slate record of T0 or T4 [R346 11] -/
  floorStamp : Nat := 0
  /-- the node has lattice time [R352 11] -/
  hasTime : Bool := false
  /-- this node is lattice time root [R351 11] -/
  isRoot : Bool := false
  /-- hops to the root [R351 11] -/
  hops : Nat := 31
  /-- unique ID of the time root followed [R351 R369 11 12] -/
  rootUid : Nat := 0
  /-- class of the time root followed [R351 11] -/
  rootClass : Nat := 0
  /-- the root's UNC as last passed on [R348 R381 11 12] -/
  rootUnc : Nat := 0
  /-- highest TROOT_SEQ seen [R369 12] -/
  rootSeq : Nat := 0
  /-- time at which TROOT_SEQ last rose [R369 12] -/
  rootSeen : Nat := 0
  /-- equal-class node of lower ID and the time since which it has held [R351 11] -/
  rival : Option (Nat × Nat) := none
  deriving DecidableEq, Repr

/-- Qtz at reset. -/
abbrev Qtz.reset : Qtz := {}

/-- A scheduled snapshot trigger (R356). -/
structure SnapSched where
  /-- REQ_ID [R356 11] -/
  id : Nat := 0
  /-- names a lattice time [R356 11] -/
  useL : Bool := false
  /-- the time named [R356 11] -/
  time : Nat := 0
  /-- principal code of the scheduler [R354 11] -/
  owner : Nat := 4
  /-- requesting node, lattice-wide only [R358 11] -/
  reqNode : Nat := 0
  deriving DecidableEq, Repr

/-- SnapSched at reset. -/
abbrev SnapSched.reset : SnapSched := {}

/-- One section of a capture bank (R358). -/
structure SnapSection where
  /-- source ID [R358 11] -/
  src : Nat := 0
  /-- captured, else missing [R358 11] -/
  captured : Bool := false
  /-- CAPTURE_DT [R358 11] -/
  captureDt : Nat := 0
  /-- Corrected count [R358 11] -/
  ce : Nat := 0
  /-- count of severity 2 or more [R358 11] -/
  sev2 : Nat := 0
  /-- state words [R358 11] -/
  words : List (BitVec 64) := []
  deriving DecidableEq, Repr

/-- SnapSection at reset. -/
abbrev SnapSection.reset : SnapSection := {}

/-- One capture bank with its header (R353, R358). -/
structure SnapBank where
  /-- STATE [R358 11] -/
  state : Nat := 0
  /-- OWNER [R358 11] -/
  owner : Nat := 0
  /-- T_TRIG [R358 11] -/
  tTrig : Nat := 0
  /-- L_TRIG [R358 11] -/
  lTrig : Int := 0
  /-- CAUSE [R358 11] -/
  cause : BitVec 16 := 0
  /-- REQ_NODE [R358 11] -/
  reqNode : Nat := 0
  /-- REQ_ID [R358 11] -/
  reqId : Nat := 0
  /-- FF_MSG [R358 11] -/
  ffMsg : BitVec 64 := 0
  /-- FLAGS [R358 11] -/
  flags : BitVec 16 := 0
  /-- sections in SRC order [R358 11] -/
  sections : List SnapSection := []
  deriving DecidableEq, Repr

/-- SnapBank at reset. -/
abbrev SnapBank.reset : SnapBank := {}

/-- A lattice-wide snapshot of which this node is the requester (R357, R392). -/
structure SnapReq where
  /-- REQ_ID [R357 11] -/
  reqId : Nat := 0
  /-- principal code of the requester [R357 11] -/
  by_ : Nat := 0
  /-- tag of its request [R398 13] -/
  tag : Nat := 0
  /-- node IDs listed; empty for a broadcast [R357 11] -/
  nodes : List Nat := []
  /-- (node ID, code) received [R392 12] -/
  answers : List (Nat × Nat) := []
  /-- time of sending [R392 12] -/
  sent : Nat := 0
  deriving DecidableEq, Repr

/-- SnapReq at reset. -/
abbrev SnapReq.reset : SnapReq := {}

/-- Snapshot unit (ch. 11). -/
structure Snap where
  /-- capture banks 0 to 3 [R353 11] -/
  banks : Tbl SnapBank := []
  /-- QTZ_SNAP_STAT.MISSED [R353 11] -/
  missed : Nat := 0
  /-- scheduled triggers pending [R356 11] -/
  sched : List SnapSched := []
  /-- a schedule was cancelled; the event is due at the next boot [R356 11] -/
  cancelledEvent : Bool := false
  /-- next REQ_ID of this node [R422 13] -/
  nextReq : Nat := 1
  /-- lattice-wide requests awaiting answers [R392 12] -/
  reqs : List SnapReq := []
  /-- bank 0 as last written to the Slate event store [R359 11] -/
  stored : Option SnapBank := none
  /-- the previous boot's snapshot in the Slate event store [R359 11] -/
  prevBoot : Option SnapBank := none
  deriving DecidableEq, Repr

/-- Snap at reset. -/
abbrev Snap.reset : Snap := {}

/-- One CXL HDM decoder (R30). -/
structure HdmDecoder where
  /-- committed [R30 01] -/
  committed : Bool := false
  /-- host base address [R30 01] -/
  base : Nat := 0
  /-- bytes of host range [R30 01] -/
  size : Nat := 0
  /-- interleave ways 1, 2, 4, 8, 16 [R30 01] -/
  ways : Nat := 1
  /-- interleave granularity, bytes [R30 01] -/
  gran : Nat := 256
  /-- this device's place in the interleave set [R30 01] -/
  pos : Nat := 0
  /-- DPA at which the range starts [R30 01] -/
  dpaBase : Nat := 0
  deriving DecidableEq, Repr

/-- HdmDecoder at reset. -/
abbrev HdmDecoder.reset : HdmDecoder := {}

/-- One posted CXL event record (R336). -/
structure CxlEvent where
  /-- 0 Informational, 1 Warning, 2 Failure, 3 Fatal, 4 Dynamic Capacity [R335 10] -/
  log : Nat := 0
  /-- record handle [R335 10] -/
  handle : Nat := 0
  /-- MSG [R336 10] -/
  msg : BitVec 64 := 0
  /-- QTIME [R336 10] -/
  qtime : Nat := 0
  /-- package-log LSEQ [R336 10] -/
  lseq : Nat := 0
  /-- COUNT [R336 10] -/
  count : Nat := 1
  /-- CONTEXT, FFFFh none [R336 10] -/
  context : Nat := 65535
  /-- FLAGS [R336 10] -/
  flags : BitVec 16 := 0
  /-- host timestamp of the header [R336 10] -/
  stamp : Nat := 0
  /-- DETAIL fields [R336 10] -/
  detail : List Nat := []
  deriving DecidableEq, Repr

/-- CxlEvent at reset. -/
abbrev CxlEvent.reset : CxlEvent := {}

/-- One CXL poison list entry (R75, R227, R328). -/
structure PoisonRange where
  /-- first byte [R75 02] -/
  dpa : Nat := 0
  /-- length in bytes [R75 02] -/
  len : Nat := 0
  /-- context, FFFFh when the granule has no owner [R428 13] -/
  context : Nat := 65535
  /-- 0 mount, 1 fetch, 2 isolation, 3 DRAM line [R428 13] -/
  cause : Nat := 0
  deriving DecidableEq, Repr

/-- PoisonRange at reset. -/
abbrev PoisonRange.reset : PoisonRange := {}

/-- A dynamic capacity event awaiting the host (R177, R178, R180). -/
structure DcOffer where
  /-- a Release Capacity event (else Add) [R178 06] -/
  release : Bool := false
  /-- context of the extent tag [R176 06] -/
  context : Nat := 0
  /-- granules of the extents [R176 06] -/
  granules : List Nat := []
  /-- end of the Release command's timeout [R178 06] -/
  deadline : Option Nat := none
  /-- principal whose command waits [R178 06] -/
  by_ : Nat := 2
  deriving DecidableEq, Repr

/-- DcOffer at reset. -/
abbrev DcOffer.reset : DcOffer := {}

/-- A background command (R400). -/
structure Bg where
  /-- opcode [R415 13] -/
  opcode : Nat := 0
  /-- per cent complete [R415 13] -/
  pct : Nat := 0
  /-- running [R415 13] -/
  running : Bool := false
  /-- CXL return code value [R415 13] -/
  ret : Nat := 0
  /-- JCS extended status [R415 13] -/
  ext : Nat := 0
  /-- the object it works on (context, session or request) [R400 13] -/
  arg : Nat := 0
  deriving DecidableEq, Repr

/-- Bg at reset. -/
abbrev Bg.reset : Bg := {}

/-- One CXL head (R30, R397, R493, R335, R75, R202). -/
structure HeadSt where
  /-- link up [R493 16] -/
  linkUp : Bool := false
  /-- Hh_PERST_N asserted [R493 16] -/
  perst : Bool := true
  /-- time at which the link went down [R406 13] -/
  linkDownAt : Option Nat := none
  /-- lanes out of electrical idle, training [R493 16] -/
  training : Bool := false
  /-- media status: 0 Not Ready, 1 Ready, 2 Disabled, 3 Error [R133 04] -/
  media : Nat := 0
  /-- HDM decoders [R30 01] -/
  hdm : Tbl HdmDecoder := []
  /-- a command of the mailbox runs [R397 13] -/
  mboxBusy : Bool := false
  /-- mailbox status return code [R397 13] -/
  mboxRet : Nat := 0
  /-- Vendor Specific Extended Status [R397 13] -/
  mboxExt : Nat := 0
  /-- output payload [R397 13] -/
  mboxOut : List (BitVec 8) := []
  /-- Background Command Status [R400 13] -/
  bg : Bg := Bg.reset
  /-- event logs, oldest first [R335 10] -/
  events : List CxlEvent := []
  /-- next record handle [R335 10] -/
  nextHandle : Nat := 1
  /-- event interrupt policy [R430 13] -/
  evtPolicy : BitVec 40 := 0
  /-- alert configuration [R430 13] -/
  alertCfg : BitVec 128 := 0
  /-- host timestamp [R430 13] -/
  hostTime : Nat := 0
  /-- count at which it was set [R430 13] -/
  hostTimeAt : Nat := 0
  /-- shutdown state value accepted from the host [R131 04] -/
  shutdownState : Nat := 0
  /-- CXL poison list [R75 02] -/
  poison : List PoisonRange := []
  /-- list overflow [R75 02] -/
  poisonOvf : Bool := false
  /-- MSI-X vectors not masked [R202 06] -/
  msixOpen : List Nat := []
  /-- MSI-X pending bits [R202 06] -/
  msixPending : List Nat := []
  /-- flushes waiting: highest write id completed when each arrived [R72 02] -/
  gpf : List Nat := []
  /-- dynamic capacity offers and releases awaiting the host [R176 06] -/
  dcOffers : List DcOffer := []
  /-- accepted extents (granule, context) [R176 06] -/
  extents : List (Nat × Nat) := []
  /-- writes that reached 500 µs since the last event [R68 R78 02] -/
  held500 : Nat := 0
  /-- time of the last "write held to bound" event [R68 02] -/
  held500At : Option Nat := none
  deriving DecidableEq, Repr

/-- HeadSt at reset. -/
abbrev HeadSt.reset : HeadSt := {}

/-- A dirty page (R41 to R44). -/
structure DirtyPage where
  /-- page index DPA[44:12] [R41 02] -/
  page : Nat := 0
  /-- Quartz time of the write that first made it dirty [R44 02] -/
  since : Nat := 0
  deriving DecidableEq, Repr

/-- DirtyPage at reset. -/
abbrev DirtyPage.reset : DirtyPage := {}

/-- An entry of a tile's in-flight table (R42). -/
structure InFlight where
  /-- page index [R42 02] -/
  page : Nat := 0
  /-- rewrite flag [R42 02] -/
  rewrite : Bool := false
  /-- the staging copy: cells of the page at its capture [R42 02] -/
  img : List Host.Cell := []
  /-- lines of the page poisoned when captured, 0 to 63 [R138 05] -/
  pmask : List Nat := []
  /-- version sequence taken by the capture [R145 05] -/
  vseq : Nat := 0
  /-- the page is uniform [R139 05] -/
  elided : Bool := false
  /-- flash address it is to be programmed at [R136 05] -/
  addr : Nat := 0
  /-- header index of an elided record [R140 05] -/
  hidx : Nat := 0
  /-- its program has been issued to the die [R97 03] -/
  issued : Bool := false
  /-- captured in a test seal [R138 05] -/
  test : Bool := false
  /-- Quartz time of capture [R138 05] -/
  time : Nat := 0
  /-- captured in seal stage 3 [R138 05] -/
  atSeal : Bool := false
  /-- captured for a fence or checkpoint [R138 05] -/
  fence : Bool := false
  deriving DecidableEq, Repr

/-- InFlight at reset. -/
abbrev InFlight.reset : InFlight := {}

/-- A member of a tile's armed-group set (R47, R49). -/
structure ArmedGroup where
  /-- group index DPA[44:21] [R47 02] -/
  group : Nat := 0
  /-- time since which its summary bit has stayed clear [R49 02] -/
  cleanSince : Option Nat := none
  deriving DecidableEq, Repr

/-- ArmedGroup at reset. -/
abbrev ArmedGroup.reset : ArmedGroup := {}

/-- A Cairn program running on a tile (R48, R49). -/
structure ArmProg where
  /-- groups armed by it [R48 02] -/
  arms : List Nat := []
  /-- disarm records it carries [R49 02] -/
  disarms : List Nat := []
  deriving DecidableEq, Repr

/-- ArmProg at reset. -/
abbrev ArmProg.reset : ArmProg := {}

/-- A CXL.mem request held by the device. -/
structure HeldReq where
  /-- order of arrival [R47 02] -/
  id : Nat := 0
  /-- 0 H0, 1 H1, 2 lattice port, 3 the device [R67 02] -/
  head : Nat := 0
  /-- line index DPA[44:6] [R32 01] -/
  line : Nat := 0
  /-- a write (else a read) [R32 01] -/
  write : Bool := false
  /-- write data [R74 02] -/
  data : BitVec 512 := 0
  /-- byte enables; all ones is a full-line write [R74 02] -/
  mask : BitVec 64 := 0
  /-- time of arrival [R47 02] -/
  arrive : Nat := 0
  /-- lattice stream or migration session of a lattice write; context of a completion [R386 12] -/
  session : Nat := 0
  /-- its MSEQ; ring of a completion [R386 12] -/
  mseq : Nat := 0
  /-- waits for its group's arm record [R47 02] -/
  forArm : Bool := false
  /-- waits in BLACK or LAPSE [R68 02] -/
  forGov : Bool := false
  /-- waits for a demand fetch [R122 04] -/
  forFetch : Bool := false
  /-- waits for a reversal or a bitmap rebuild [R199 06] -/
  forRev : Bool := false
  /-- waits for a repair of the page [R226 07] -/
  forRepair : Bool := false
  /-- waits for a class change to commit [R45 02] -/
  forClass : Bool := false
  /-- queued by a test seal [R104 03] -/
  forTest : Bool := false
  /-- waits for its channel: its token bucket, a CA or partial training, a switch of set point [R39 R231 01 07] -/
  forChan : Bool := false
  /-- 0 a memory request, 1 Inject Poison, 2 Clear Poison, 3 a ring completion of the device [R430 13] -/
  cmd : Nat := 0
  /-- a completion to be signalled [R202 06] -/
  irq : Bool := false
  deriving DecidableEq, Repr

/-- HeldReq at reset. -/
abbrev HeldReq.reset : HeldReq := {}

/-- A performed write whose completion is delayed (R66). -/
structure Paced where
  /-- order of arrival [R66 02] -/
  id : Nat := 0
  /-- head [R66 02] -/
  head : Nat := 0
  /-- time at which the delay ends [R66 02] -/
  due : Nat := 0
  /-- the page of a migration, whose acknowledgement is delayed [R67 R386 02 12] -/
  ack : Bool := false
  /-- its session [R386 12] -/
  session : Nat := 0
  /-- its MSEQ [R386 12] -/
  mseq : Nat := 0
  /-- its last line [R386 12] -/
  line : Nat := 0
  deriving DecidableEq, Repr

/-- Paced at reset. -/
abbrev Paced.reset : Paced := {}

/-- A lapse record (R69, R418). -/
structure Lapse where
  /-- entry time [R69 02] -/
  entry : Nat := 0
  /-- exit time, 0 while open [R69 02] -/
  exit : Nat := 0
  /-- cause 01h to 07h [R418 13] -/
  cause : Nat := 0
  /-- tile of a tile lapse, FFh for a package lapse [R418 13] -/
  tile : Nat := 255
  /-- ceiling breached at entry, pages [R69 02] -/
  ceil : Nat := 0
  /-- exposure against it at entry, pages [R69 02] -/
  expo : Nat := 0
  /-- peak excess over that ceiling, pages [R69 02] -/
  peak : Nat := 0
  deriving DecidableEq, Repr

/-- Lapse at reset. -/
abbrev Lapse.reset : Lapse := {}

/-- The governor (ch. 02). -/
structure Gov where
  /-- C, pages [R52 02] -/
  ceiling : Nat := 0
  /-- bound that sets C [R46 02] -/
  bound : Nat := 3
  /-- C_E, pages [R55 02] -/
  cE : Nat := 0
  /-- C_L, pages [R57 02] -/
  cL : Nat := 0
  /-- C_T, pages [R58 02] -/
  cT : Nat := 0
  /-- C_P, pages [R59 02] -/
  cP : Nat := 0
  /-- D_E, ms [R55 02] -/
  dE : Nat := 0
  /-- E_avail, mJ [R54 02] -/
  eAvail : Nat := 0
  /-- c_t, pages [R60 02] -/
  tileCeil : Tbl Nat := []
  /-- land_t, MB/s [R53 02] -/
  land : Tbl Nat := []
  /-- governor state of each tile [R63 02] -/
  tileState : Tbl Nat := []
  /-- package governor state [R60 02] -/
  pkgState : Nat := 0
  /-- state last received by each tile and the heads [R40 02] -/
  sent : Tbl Nat := []
  /-- pacing delay of each head, tile and class last received, ns [R40 R66 01 02] -/
  pace : Tbl Nat := []
  /-- DMAX of each head last received, ns [R40 R67 01 02] -/
  dmax : Tbl Nat := []
  /-- time of the last state change event [R78 02] -/
  lastPost : Option Nat := none
  /-- a state change event is still to be raised [R78 02] -/
  postDue : Bool := false
  /-- causes of the recomputation that is due (1 other, else lapse cause codes) [R61 R69 02] -/
  triggers : List Nat := []
  /-- states are taken against the release reference [R71 02] -/
  relRef : Bool := false
  /-- C_without, pages [R71 02] -/
  cWithout : Nat := 0
  /-- tile ceilings without the pack [R71 02] -/
  tileWithout : Tbl Nat := []
  /-- drain target in pages while a touch or removal drain runs [R71 R503 02 16] -/
  preDrain : Option Nat := none
  /-- lapse records, newest first [R69 02] -/
  lapses : List Lapse := []
  deriving DecidableEq, Repr

/-- Gov at reset. -/
abbrev Gov.reset : Gov := {}

/-- Exposure policy (R76, R418). -/
structure ExpoPolicy where
  /-- POLICY_BOUND, GiB [R76 02] -/
  boundGib : Nat := 1024
  /-- WINDOW_EN [R76 02] -/
  windowEn : Bool := true
  /-- DMAX_H0, µs [R76 02] -/
  dmaxH0 : Nat := 16
  /-- DMAX_H1, µs [R76 02] -/
  dmaxH1 : Nat := 16
  /-- BORROW_EN [R76 02] -/
  borrowEn : Bool := true
  /-- PERF_EN [R418 13] -/
  perfEn : Bool := false
  deriving DecidableEq, Repr

/-- ExpoPolicy at reset. -/
abbrev ExpoPolicy.reset : ExpoPolicy := {}

/-- Exposure tracker (ch. 02). -/
structure Expo where
  /-- dirty pages, by page index [R43 02] -/
  dirty : List DirtyPage := []
  /-- in-flight tables of the tiles [R42 02] -/
  inflight : List InFlight := []
  /-- armed-group sets of the tiles [R47 R50 02] -/
  armed : List ArmedGroup := []
  /-- arms requested, not yet programmed [R48 02] -/
  armReq : List Nat := []
  /-- Cairn program running on each tile [R48 02] -/
  armProg : Tbl (Option ArmProg) := []
  /-- queued disarm records: group and time queued [R49 02] -/
  disarmQ : List (Nat × Nat) := []
  /-- tiles whose set is in the full state [R50 02] -/
  armFull : List Nat := []
  /-- held requests, oldest first [R47 R68 02] -/
  held : List HeldReq := []
  /-- delayed write completions [R66 02] -/
  paced : List Paced := []
  /-- next request id [R47 02] -/
  nextReq : Nat := 0
  /-- poisoned 64-byte lines, by line index [R74 R221 02 07] -/
  poisonLines : List Nat := []
  /-- lines found uncorrectable and awaiting the action of R225 [R225 07] -/
  ueLines : List Nat := []
  /-- pages to be marked dirty once their group is armed (R47) [R143 R150 R161 05] -/
  dirtyWait : List Nat := []
  /-- k_seal, µJ/GB [R56 02] -/
  kSeal : Nat := 780000
  /-- land_ref, MB/s [R56 02] -/
  landRef : Nat := 320000
  /-- E_fixed, mJ [R56 02] -/
  eFixed : Nat := 1200000
  /-- exposure policy [R76 02] -/
  policy : ExpoPolicy := ExpoPolicy.reset
  /-- governor [R52 02] -/
  gov : Gov := Gov.reset
  deriving DecidableEq, Repr

/-- Expo at reset. -/
abbrev Expo.reset : Expo := {}

/-- A seal event record (R107). -/
structure SealRec where
  /-- RSEQ [R107 03] -/
  rseq : Nat := 0
  /-- T_TRIGGER [R107 03] -/
  tTrigger : Nat := 0
  /-- T_STAGE2 [R107 03] -/
  tStage2 : Nat := 0
  /-- T_STAGE3 [R107 03] -/
  tStage3 : Nat := 0
  /-- T_PKG_RECORD [R107 03] -/
  tPkg : Nat := 0
  /-- T_WRITE [R107 03] -/
  tWrite : Nat := 0
  /-- cause code [R107 03] -/
  cause : Nat := 0
  /-- cause code of a later trigger, Fh none [R107 03] -/
  later : Nat := 15
  /-- FLAGS [R107 03] -/
  flags : BitVec 8 := 0
  /-- T3_MASK [R107 03] -/
  t3Mask : BitVec 8 := 0
  /-- T4_MASK [R107 03] -/
  t4Mask : BitVec 8 := 0
  /-- EXPO_START [R107 03] -/
  expoStart : Nat := 0
  /-- P1_LANDED [R107 03] -/
  p1Landed : Nat := 0
  /-- P2_LANDED [R107 03] -/
  p2Landed : Nat := 0
  /-- ELIDED [R107 03] -/
  elided : Nat := 0
  /-- FILL, bytes [R107 03] -/
  fill : Nat := 0
  /-- E_AVAIL, J [R107 03] -/
  eAvail : Nat := 0
  /-- E_FIXED_MEAS, J [R107 03] -/
  eFixedMeas : Nat := 0
  /-- E_STAGE3, J [R107 03] -/
  eStage3 : Nat := 0
  /-- K_MEAS, µJ/GB [R107 03] -/
  kMeas : Nat := 0
  /-- LAND_MEAS, MB/s [R107 03] -/
  landMeas : Nat := 0
  /-- PACE_MIN, 4.12 [R107 03] -/
  paceMin : Nat := 0
  /-- TEMP_MAX, 1/16 °C [R107 03] -/
  tempMax : Int := 0
  /-- V_A, mV [R107 03] -/
  vA : Nat := 0
  /-- V_B, mV [R107 03] -/
  vB : Nat := 0
  /-- V_BRIDGE, mV [R107 03] -/
  vBridge : Nat := 0
  /-- LEARN [R107 03] -/
  learn : BitVec 16 := 0
  deriving DecidableEq, Repr

/-- SealRec at reset. -/
abbrev SealRec.reset : SealRec := {}

/-- Sealing (ch. 03). -/
structure Seal where
  /-- a seal or test seal runs [R82 03] -/
  active : Bool := false
  /-- current or last stage [R91 03] -/
  stage : Nat := 7
  /-- stage reached by each tile [R82 03] -/
  tileStage : Tbl Nat := []
  /-- cause code [R79 03] -/
  cause : Nat := 0
  /-- the seal is a test seal [R103 03] -/
  test : Bool := false
  /-- trigger time [R82 03] -/
  tTrigger : Nat := 0
  /-- cause of a later trigger [R81 R107 03] -/
  later : Nat := 15
  /-- T3_DONE [R91 03] -/
  t3Done : BitVec 8 := 0
  /-- T4_DONE [R91 03] -/
  t4Done : BitVec 8 := 0
  /-- tiles whose stage 2 metadata is programmed and read back [R153 05] -/
  metaOk : BitVec 8 := 0
  /-- tiles whose seal header carries the TEST flag [R106 03] -/
  hdrTest : BitVec 8 := 0
  /-- tiles in service at stage 0 [R502 16] -/
  inService : BitVec 8 := 0
  /-- MAINS_BACK [R91 03] -/
  mainsBack : Bool := false
  /-- STOPPED [R91 03] -/
  stopped : Bool := false
  /-- ingress of both heads and the lattice port is frozen [R84 03] -/
  frozen : Bool := false
  /-- tiles that end stage 3 without a seal record [R96 03] -/
  noLand : BitVec 8 := 0
  /-- a takeover came about during the seal [R107 03] -/
  takeover : Bool := false
  /-- a tile was isolated during the seal [R107 03] -/
  isoDuring : Bool := false
  /-- a lapse record was open at the trigger [R131 04] -/
  lapseAtTrigger : Bool := false
  /-- package seal record written [R88 03] -/
  pkgRecord : Bool := false
  /-- measurements of the running seal [R107 03] -/
  rec_ : SealRec := SealRec.reset
  /-- seal event records in Slate bank 1, newest first [R108 03] -/
  last : List SealRec := []
  /-- next RSEQ [R107 03] -/
  nextRseq : Nat := 1
  /-- step of the running test seal [R104 03] -/
  testStep : Nat := 0
  /-- HOLD_LIMIT, µs [R103 03] -/
  holdLimit : Nat := 0
  /-- FILL_GIB [R103 03] -/
  fillGib : Nat := 0
  /-- time at which ingress was held [R104 03] -/
  holdAt : Nat := 0
  /-- pages landed in stage 3 [R104 03] -/
  landed : Nat := 0
  /-- of them, by tile [R88 03] -/
  landedT : Tbl Nat := []
  /-- P1 exposure of each tile at entry, pages [R85 R155 03 05] -/
  p1Start : Tbl Nat := []
  /-- P2 exposure of each tile at entry, pages [R85 R155 03 05] -/
  p2Start : Tbl Nat := []
  /-- filler pages landed [R104 03] -/
  fillPages : Nat := 0
  /-- time stage 3 began on the first tile [R56 03] -/
  tStage3Start : Nat := 0
  /-- energy drawn since stage 0, mJ [R266 08] -/
  eDrawn : Nat := 0
  /-- of it, before stage 3, mJ [R56 02] -/
  eDrawnPre : Nat := 0
  /-- of it, up to the end of stage 3, mJ [R56 02] -/
  eDrawn3 : Nat := 0
  /-- the device is in stage 6 [R90 03] -/
  hibernating : Bool := true
  /-- stage 6 shows steady LED_SAFE with LED_ATTN off [R502 16] -/
  stage6Clean : Bool := true
  deriving DecidableEq, Repr

/-- Seal at reset. -/
abbrev Seal.reset : Seal := {}

/-- Restore (ch. 04). -/
structure Restore where
  /-- restore phase, 7 complete, 0 Bedrock [R132 04] -/
  phase : Nat := 1
  /-- time at which phase 4 began [R118 04] -/
  mountAt : Nat := 0
  /-- READY [R132 04] -/
  ready : Bool := false
  /-- WARM [R132 04] -/
  warm : Bool := false
  /-- DS_INC [R132 04] -/
  dsInc : Bool := false
  /-- tier of each tile: 0 clean, 1 aborted, 2 unclean, 3 isolated [R132 04] -/
  tier : Tbl Nat := []
  /-- tiles that have decided their tier [R114 04] -/
  decided : BitVec 8 := 0
  /-- tiles whose MOUNT record is COMMITTED [R117 04] -/
  committed : BitVec 8 := 0
  /-- tiles rebuilding their locator by scan [R116 04] -/
  scan : BitVec 8 := 0
  /-- tiles that have ended bulk restore [R128 04] -/
  drainDone : BitVec 8 := 0
  /-- pages restored since early open, as ranges (first, count) of tile × 2⁴⁰ + tile-local page [R121 04] -/
  restored : List (Nat × Nat) := []
  /-- no page awaits restore [R121 04] -/
  allRestored : Bool := true
  /-- pages with a demand fetch in progress [R122 04] -/
  fetching : List Nat := []
  /-- POISON_PAGES [R132 04] -/
  poisonPages : Nat := 0
  /-- end times of phases 1 to 6 [R428 13] -/
  phaseEnd : Tbl Nat := []
  /-- time mains good was declared [R109 04] -/
  powerGood : Nat := 0
  /-- bytes restored by bulk restore [R428 13] -/
  bulkBytes : Nat := 0
  /-- bytes restored by demand fetch [R428 13] -/
  fetchBytes : Nat := 0
  /-- dirty-shutdown count (Slate 006Bh) [R131 04] -/
  dsCount : Nat := 0
  /-- identity of the last loss counted (Slate 006Bh) [R131 04] -/
  lastLoss : Option Nat := none
  /-- the reset was forced: DRAM content is not trusted [R101 04] -/
  forcedUnclean : Bool := false
  /-- DRAM holds its contents in self-refresh across the reset [R235 R101] -/
  dramKept : Bool := false
  /-- this power-up is a restart after a thermal seal [R304 09] -/
  thermalCheck : Bool := false
  deriving DecidableEq, Repr

/-- Restore at reset. -/
abbrev Restore.reset : Restore := {}

/-- A page record in Strata (R137, R138). -/
structure PageRec where
  /-- page index [R138 05] -/
  page : Nat := 0
  /-- context [R138 05] -/
  context : Nat := 0
  /-- key generation [R138 05] -/
  gen : Nat := 0
  /-- version sequence [R138 05] -/
  vseq : Nat := 0
  /-- Quartz time of capture [R138 05] -/
  time : Nat := 0
  /-- pattern-elided [R139 05] -/
  elided : Bool := false
  /-- page contents as cells at their DPAs [R137 05] -/
  img : List Host.Cell := []
  /-- poisoned lines of the page [R138 05] -/
  pmask : List Nat := []
  /-- landed in seal stage 3 [R138 05] -/
  atSeal : Bool := false
  /-- landed for a fence or checkpoint [R138 05] -/
  fence : Bool := false
  /-- copied by garbage collection, compaction or refresh [R138 05] -/
  relocated : Bool := false
  /-- LSEQ of the latest OPEN record [R138 05] -/
  openSeq : Nat := 0
  /-- flash address: channel, die, block, NAND page, slot [R136 05] -/
  addr : Nat := 0
  /-- header index in its header-page slot (elided records) [R140 05] -/
  hidx : Nat := 0
  /-- FLAGS.TEST: landed in a test seal [R138 05] -/
  test : Bool := false
  /-- DCRC, over the plaintext page [R138 R139 05] -/
  dcrc : Nat := 0
  /-- PATTERN_CT of an elided record [R138 05] -/
  patternCt : Nat := 0
  /-- in a TLC-pool block [R165 05] -/
  tlc : Bool := false
  deriving DecidableEq, Repr

/-- PageRec at reset. -/
abbrev PageRec.reset : PageRec := {}

/-- A page locator entry (R144). -/
structure LocEntry where
  /-- page index [R144 05] -/
  page : Nat := 0
  /-- KIND: 0 no record, 1 data, 2 elided [R144 05] -/
  kind : Nat := 0
  /-- LOC: flash address of the current record [R144 05] -/
  addr : Nat := 0
  /-- HIDX [R144 05] -/
  hidx : Nat := 0
  /-- POISON: page in the poison set [R144 05] -/
  poison : Bool := false
  /-- VSEQ_LO: VSEQ[22:0] of the current record [R144 05] -/
  vseqLo : Nat := 0
  deriving DecidableEq, Repr

/-- LocEntry at reset. -/
abbrev LocEntry.reset : LocEntry := {}

/-- A record in Strata that is no page record: filler, metadata record, stratum marker, header-page slot (R137, R138, R140, R141). -/
structure MetaRec where
  /-- RTYPE: 02h filler, 03h metadata, 04h stratum marker, 05h header-page slot [R138 05] -/
  rtype : Nat := 2
  /-- MKIND of a metadata record [R141 05] -/
  mkind : Nat := 0
  /-- index within the kind; count of headers of a header-page slot [R138 05] -/
  index : Nat := 0
  /-- context of a stratum marker [R162 05] -/
  context : Nat := 0
  /-- FLAGS.TEST [R138 05] -/
  test : Bool := false
  /-- TIME [R138 05] -/
  time : Nat := 0
  /-- OPEN_SEQ [R138 05] -/
  openSeq : Nat := 0
  /-- flash address [R136 05] -/
  addr : Nat := 0
  /-- the structure: fields in order, each as its length in bytes and its value [R141 05] -/
  body : List (Nat × Nat) := []
  deriving DecidableEq, Repr

/-- MetaRec at reset. -/
abbrev MetaRec.reset : MetaRec := {}

/-- A Cairn ledger entry (R154, R155). -/
structure LedgerEntry where
  /-- ledger sequence number [R154 05] -/
  lseq : Nat := 0
  /-- TIME [R154 05] -/
  time : Nat := 0
  /-- entry type [R155 05] -/
  typ : Nat := 0
  /-- first body field: group, block, cause, tier, context, mask, channel or address [R155 05] -/
  a : Nat := 0
  /-- second body field [R155 05] -/
  b : Nat := 0
  /-- third body field [R155 05] -/
  c : Nat := 0
  /-- TEST, COMMITTED or warm-return flag of the type [R155 05] -/
  test : Bool := false
  /-- further body fields: directory addresses of a CKPT; metadata count, reservation blocks and OPEN LSEQ of a SEAL_HEADER [R155 05] -/
  ext : List Nat := []
  /-- flash address of the ledger NAND page that holds it [R154 05] -/
  page : Nat := 0
  deriving DecidableEq, Repr

/-- LedgerEntry at reset. -/
abbrev LedgerEntry.reset : LedgerEntry := {}

/-- A flash block (R135, R158, R167). -/
structure Block where
  /-- wear units [R167 05] -/
  wear : Nat := 0
  /-- 0 erased, 1 open, 2 programmed, 3 erasing (intent durable), 4 retired, 5 emptied awaiting a checkpoint, 6 erasable, 7 half-erased, 8 emptied before the running checkpoint [R158 05] -/
  state : Nat := 0
  /-- TLC pool [R135 05] -/
  tlc : Bool := false
  /-- program time [R164 05] -/
  progTime : Nat := 0
  /-- marked for refresh by a soft decode [R142 05] -/
  refresh : Bool := false
  deriving DecidableEq, Repr

/-- Block at reset. -/
abbrev Block.reset : Block := {}

/-- A stream of programs that fills blocks for one purpose (R137, R140, R155). -/
structure FlashStream where
  /-- block being filled [R155 05] -/
  block : Nat := 0
  /-- NAND pages of it not yet used [R137 05] -/
  left : Nat := 0
  /-- address of the NAND page that gathers records [R137 05] -/
  fillAddr : Nat := 0
  /-- slots of it taken, 0 when no page gathers [R137 05] -/
  fillSlots : Nat := 0
  /-- address of the header page that gathers elided headers [R140 05] -/
  hdrAddr : Nat := 0
  /-- headers in it, 0 when no header page gathers [R140 05] -/
  hdrCount : Nat := 0
  deriving DecidableEq, Repr

/-- FlashStream at reset. -/
abbrev FlashStream.reset : FlashStream := {}

/-- A tile's flash bookkeeping (ch. 05). -/
structure TileFlash where
  /-- log blocks whose state is not the initial one [R135 05] -/
  blocks : Tbl Block := []
  /-- zone_t in page records [R151 05] -/
  zone : Nat := 0
  /-- stage 2 reservation: block addresses, one on each channel [R151 05] -/
  resv : List Nat := []
  /-- streams by purpose: 0 trickle, 1 relocation, 2 compaction, 3 metadata, 4 landing of stage 3 [R155 05] -/
  streams : Tbl FlashStream := []
  /-- metadata records, markers, fillers and header-page slots, newest first [R141 05] -/
  metas : List MetaRec := []
  /-- landing plan: planned blocks not yet used, in order [R141 R153 05] -/
  plan : List Nat := []
  /-- in stage 3, the block that each die fills and its NAND pages left [R153 05] -/
  dieOpen : Tbl (Nat × Nat) := []
  /-- die that took the last NAND page of stage 3 [R153 05] -/
  stripe : Nat := 0
  /-- blocks that failed in the last seal, withdrawn after restore [R96 03] -/
  withdrawn : List Nat := []
  /-- remap table: logical block address to physical replacement block [R136 R160 05] -/
  remap : Tbl Nat := []
  /-- ledger block being filled [R154 05] -/
  ledBlock : Nat := 127
  /-- NAND pages of it not yet programmed [R154 05] -/
  ledLeft : Nat := 512
  /-- blocks whose erase intent waits for the tile's next Cairn program [R156 05] -/
  intentQ : List Nat := []
  /-- tile-local groups whose locator segment was relocated since the last checkpoint [R147 R164 05] -/
  segMoved : List Nat := []
  /-- time from which the wear budget lets the tile trickle its next page [R168 05] -/
  budgetDue : Nat := 0
  /-- time from which the thermal trickle cap lets the tile program its next page [R296 09] -/
  capDue : Nat := 0
  /-- index of the next metering record [R211 06] -/
  meterNext : Nat := 0
  /-- flash work served last at its level: 1 trickle, 2 erase [R65 02] -/
  lastWork : Nat := 0
  /-- ledger, newest first [R154 05] -/
  ledger : List LedgerEntry := []
  /-- next ledger sequence number [R154 05] -/
  nextLseq : Nat := 1
  /-- ledger bytes since the last summary [R157 05] -/
  sinceSummary : Nat := 0
  /-- locator tail: the pages with locator changes since the last committed checkpoint [R148 05] -/
  tail : List Nat := []
  /-- tail positions covered by the checkpoint in progress [R147 05] -/
  ckptRun : Option (List Nat) := none
  /-- time the last checkpoint started [R148 05] -/
  ckptAt : Nat := 0
  /-- checkpoint number [R155 05] -/
  ckptNo : Nat := 0
  /-- spare blocks used, by die (block address [6:0]) [R135 R160 05] -/
  spareUsed : Tbl Nat := []
  /-- block failures by die, with their times [R161 05] -/
  blockFails : List (Nat × Nat) := []
  /-- blocks retired [R426 13] -/
  blocksRetired : Nat := 0
  /-- data dies retired (channel × 8 + die) [R161 05] -/
  diesRetired : List Nat := []
  /-- bytes landed by trickle since the last account update [R169 05] -/
  landedBytes : Nat := 0
  /-- dirty bitmap persisted by the last stage 2 [R85 03] -/
  sealDirty : List Nat := []
  /-- time that stage 2 began [R73 02] -/
  sealAt : Nat := 0
  /-- armed-group set persisted by the last stage 2 [R85 03] -/
  sealArmed : List Nat := []
  deriving DecidableEq, Repr

/-- TileFlash at reset. -/
abbrev TileFlash.reset : TileFlash := {}

/-- A retained stratum (R162, R194). -/
structure Stratum where
  /-- context [R162 05] -/
  context : Nat := 0
  /-- T_s [R162 05] -/
  time : Nat := 0
  /-- tag of the CHECKPOINT [R194 06] -/
  tag : Nat := 0
  /-- marked damaged [R143 05] -/
  damaged : Bool := false
  /-- damage list, page indices [R143 05] -/
  damage : List Nat := []
  deriving DecidableEq, Repr

/-- Stratum at reset. -/
abbrev Stratum.reset : Stratum := {}

/-- A TRIM entry still needed (R163). -/
structure TrimRec where
  /-- context [R163 05] -/
  context : Nat := 0
  /-- granule, none for the whole context [R163 05] -/
  granule : Option Nat := none
  /-- TIME of the entry [R163 05] -/
  time : Nat := 0
  deriving DecidableEq, Repr

/-- TrimRec at reset. -/
abbrev TrimRec.reset : TrimRec := {}

/-- Strata, package-wide tables (ch. 05). -/
structure Strata where
  /-- page records, newest first [R137 05] -/
  recs : List PageRec := []
  /-- page locators, by page index [R144 05] -/
  loc : List LocEntry := []
  /-- retained strata, newest first [R162 05] -/
  strata : List Stratum := []
  /-- trims [R163 05] -/
  trims : List TrimRec := []
  /-- blocks per plane, from the parameter page [R134 R135 05] -/
  planeBlocks : Nat := 2740
  /-- NAND pages of a pSLC block, from the parameter page [R134 R135 05] -/
  slcPages : Nat := 512
  /-- LIFE_TARGET, years [R170 05] -/
  lifeTarget : Nat := 40
  /-- WA × 1,000 [R167 05] -/
  waMilli : Nat := 1100
  /-- package budget rate, bytes/s [R167 05] -/
  rate : Nat := 4000994662
  /-- W_rem, bytes [R167 05] -/
  wRem : Nat := 5555518722539520000
  /-- borrow account A, bytes [R169 05] -/
  borrow : Nat := 0
  /-- B_day, bytes [R167 05] -/
  bDay : Nat := 345685938796800
  /-- A has reached B_day [R169 05] -/
  borrowOut : Bool := false
  /-- rated endurance consumed has been raised [R167 05] -/
  endurance : Bool := false
  /-- rate at beginning of life [R167 05] -/
  rateBol : Nat := 4000994662
  /-- package trickle rate over the last second, MB/s [R171 05] -/
  trickleMbs : Nat := 0
  /-- erase units consumed [R167 05] -/
  unitsUsed : Nat := 0
  /-- erase units in the running hour [R167 05] -/
  erasesH : Nat := 0
  /-- bytes landed by trickle and seal in the running hour [R167 05] -/
  landedH : Nat := 0
  /-- hotter flash-zone board sensor in each of the last 24 hours, 1/16 °C, newest first [R166 05] -/
  tempHist : List Int := []
  /-- erase units and bytes landed in each of the trailing 7 days' hours, newest first [R167 05] -/
  wearHist : List (Nat × Nat) := []
  deriving DecidableEq, Repr

/-- Strata at reset. -/
abbrev Strata.reset : Strata := {}

/-- A fetched ring entry (R188, R190). -/
structure RingEntry where
  /-- index in the entry area [R190 06] -/
  idx : Nat := 0
  /-- OPC [R188 06] -/
  opc : BitVec 8 := 0
  /-- FLAGS [R188 06] -/
  flags : BitVec 8 := 0
  /-- CID [R188 06] -/
  cid : Nat := 0
  /-- ARG0 [R188 06] -/
  arg0 : Nat := 0
  /-- ARG1 [R188 06] -/
  arg1 : Nat := 0
  /-- a reserved bit of the entry was set [R191 06] -/
  badField : Bool := false
  /-- submission time (its fetch) [R190 06] -/
  submit : Nat := 0
  /-- started [R190 06] -/
  started : Bool := false
  /-- taken up: its checks are done [R190 R191 06] -/
  checked : Bool := false
  /-- a seal came between its start and its completion [R93 R207 03 06] -/
  crossed : Bool := false
  /-- tiles whose STRATUM entry of a CHECKPOINT is durable [R194 06] -/
  done : BitVec 8 := 0
  /-- pages waited for, each with the least VSEQ that satisfies it [R192 06] -/
  waits : List (Nat × Nat) := []
  /-- pages waited for at submission [R192 06] -/
  nWait : Nat := 0
  /-- time the last waited-for record became durable [R192 06] -/
  lastDurable : Nat := 0
  /-- T_s of a CHECKPOINT, 0 before [R194 06] -/
  ts : Nat := 0
  deriving DecidableEq, Repr

/-- RingEntry at reset. -/
abbrev RingEntry.reset : RingEntry := {}

/-- A commit ring descriptor (R185). -/
structure Ring where
  /-- SQ_BASE [R185 06] -/
  sqBase : Nat := 0
  /-- CQ_BASE [R185 06] -/
  cqBase : Nat := 0
  /-- SIZE_LOG2 [R185 06] -/
  sizeLog2 : Nat := 4
  /-- STATE [R185 06] -/
  state : Nat := 0
  /-- VECTOR, FFFFh none [R185 06] -/
  vector : Nat := 65535
  /-- COAL_COUNT [R185 06] -/
  coalCount : Nat := 0
  /-- COAL_TIME, µs [R185 06] -/
  coalTime : Nat := 0
  /-- SQ_HEAD [R185 06] -/
  sqHead : Nat := 0
  /-- SQ_TAIL [R185 06] -/
  sqTail : Nat := 0
  /-- CQ_TAIL [R185 06] -/
  cqTail : Nat := 0
  /-- CQ_HEAD [R185 06] -/
  cqHead : Nat := 0
  /-- PHASE [R185 06] -/
  phase : Bool := false
  /-- ERR [R185 06] -/
  err : Nat := 0
  /-- T_CONFIG [R185 06] -/
  tConfig : Nat := 0
  /-- COMPLETED [R185 06] -/
  completed : Nat := 0
  /-- SEQ of DW_DB_STAT [R185 06] -/
  seq : Nat := 0
  /-- entries fetched and not completed, oldest first [R190 06] -/
  entries : List RingEntry := []
  /-- unsignalled completions [R202 06] -/
  unsig : Nat := 0
  /-- time of the oldest unsignalled completion [R202 06] -/
  unsigAt : Nat := 0
  deriving DecidableEq, Repr

/-- Ring at reset. -/
abbrev Ring.reset : Ring := {}

/-- A metering record (R209). -/
structure MeterRec where
  /-- CONTEXT [R209 06] -/
  context : Nat := 0
  /-- FLAGS [R209 06] -/
  flags : BitVec 16 := 0
  /-- DURATION, ms [R209 06] -/
  duration : Nat := 0
  /-- MINUTE_START [R209 06] -/
  start : Nat := 0
  /-- BYTES_WRITTEN [R209 06] -/
  written : Nat := 0
  /-- BYTES_DURABLE [R209 06] -/
  durable : Nat := 0
  /-- FENCES [R209 06] -/
  fences : Nat := 0
  /-- CHECKPOINTS [R209 06] -/
  ckpts : Nat := 0
  /-- ROLLBACKS [R209 06] -/
  rollbacks : Nat := 0
  /-- RETAINED_BYTES [R209 06] -/
  retained : Nat := 0
  /-- EXPO_PMS [R209 06] -/
  expoPms : Nat := 0
  /-- MARK [R209 06] -/
  mark : Nat := 0
  deriving DecidableEq, Repr

/-- MeterRec at reset. -/
abbrev MeterRec.reset : MeterRec := {}

/-- A context (R173, R181, R185, R209). -/
structure Ctx where
  /-- STATE [R174 06] -/
  state : Nat := 0
  /-- OWNER [R173 06] -/
  owner : Nat := 0
  /-- KEYGEN [R173 06] -/
  gen : Nat := 0
  /-- KEY_LOST [R173 06] -/
  keyLost : Bool := false
  /-- ALLOW_DAMAGED of the rollback in progress [R173 06] -/
  allowDamaged : Bool := false
  /-- DC_PENDING [R173 06] -/
  dcPending : Bool := false
  /-- RETAIN_COUNT [R173 06] -/
  retainCount : Nat := 8
  /-- RETAIN_AGE, minutes [R173 06] -/
  retainAge : Nat := 0
  /-- T_STATE [R173 06] -/
  tState : Nat := 0
  /-- T_S_RB [R173 06] -/
  tSRb : Nat := 0
  /-- T_R [R173 06] -/
  tR : Nat := 0
  /-- wrapped key present and valid, per tile [R181 06] -/
  keyValid : BitVec 8 := 0
  /-- wrapped key held in Strata metadata [R181 06] -/
  keyMeta : Bool := false
  /-- KEY1_W, wrapped data key [R181 06] -/
  key1W : Nat := 0
  /-- KEY2_W, wrapped tweak key [R181 06] -/
  key2W : Nat := 0
  /-- rings 0 to 63 [R185 06] -/
  rings : Tbl Ring := []
  /-- sanitize step in progress, 0 none, 6 the erases of step 3 [R205 06] -/
  sanStep : Nat := 0
  /-- tiles still to rebuild their rollback bitmap [R200 06] -/
  rebuild : BitVec 8 := 0
  /-- counters of the running period [R209 06] -/
  meter : MeterRec := MeterRec.reset
  /-- start of the running period [R210 06] -/
  meterStart : Nat := 0
  /-- completed metering records, newest first [R211 06] -/
  records : List MeterRec := []
  /-- completed records not yet in Strata [R211 06] -/
  unwritten : Nat := 0
  deriving DecidableEq, Repr

/-- Ctx at reset. -/
abbrev Ctx.reset : Ctx := {}

/-- A Region Table entry (R31). -/
structure Granule where
  /-- VALID [R31 01] -/
  valid : Bool := false
  /-- HEAD [R31 01] -/
  head : Nat := 0
  /-- CLASS: 1 P1, 2 P2, 3 V [R31 01] -/
  cls : Nat := 0
  /-- CONTEXT [R31 01] -/
  context : Nat := 0
  /-- ISOLATED [R31 01] -/
  isolated : Bool := false
  deriving DecidableEq, Repr

/-- Granule at reset. -/
abbrev Granule.reset : Granule := {}

/-- A Region Table change awaiting its commit point (R33). -/
structure RtChange where
  /-- granule [R33 01] -/
  granule : Nat := 0
  /-- new entry [R33 01] -/
  entry : Granule := Granule.reset
  /-- the granule is zero filled first [R45 R177 02 06] -/
  zero : Bool := false
  /-- a granule TRIM is programmed and its dirty pages leave exposure [R45 R178 02 06] -/
  trim : Bool := false
  /-- the zero fill has not ended [R177 06] -/
  waitFill : Bool := false
  /-- head on which Add Capacity is posted at commit: 0 none, 1 H0, 2 H1 [R177 06] -/
  offer : Nat := 0
  deriving DecidableEq, Repr

/-- RtChange at reset. -/
abbrev RtChange.reset : RtChange := {}

/-- Contexts and Region Table (ch. 01, 06). -/
structure Ctxs where
  /-- context table [R173 06] -/
  tbl : Tbl Ctx := []
  /-- Region Table, master copy [R31 01] -/
  rt : Tbl Granule := []
  /-- changes not yet committed [R33 01] -/
  rtPend : List RtChange := []
  /-- key caches, most recent first [R182 06] -/
  keyCache : Tbl (List Nat) := []
  /-- rollback bitmap: pages awaiting reversal [R197 06] -/
  rollback : List Nat := []
  /-- earliest next minute boundary allowed after an offset change [R208 06] -/
  minuteEnd : Nat := 0
  deriving DecidableEq, Repr

/-- Ctxs at reset. -/
abbrev Ctxs.reset : Ctxs := {}

/-- Per-tile state of ch. 01. -/
structure TileSt where
  /-- live pace, 4.12 [R25 01] -/
  pace : Nat := 0
  /-- seal ring pace, 4.12 [R25 01] -/
  sealPace : Nat := 0
  /-- supervisor sends its heartbeat [R25 01] -/
  supvOk : Bool := false
  /-- supervisor halted until the next package reset [R316 10] -/
  supvHalted : Bool := false
  /-- data path isolated [R327 10] -/
  isolated : Bool := false
  /-- LSEQ of the message that isolated it [R327 10] -/
  isoCause : Nat := 0
  /-- throttle level in force [R295 09] -/
  throttle : Nat := 0
  deriving DecidableEq, Repr

/-- TileSt at reset. -/
abbrev TileSt.reset : TileSt := {}

/-- Package role, mesh and operating point (ch. 01). -/
structure Pkg where
  /-- tile whose supervisor holds the package role [R17 01] -/
  lead : Nat := 0
  /-- deputy tile [R17 01] -/
  deputy : Option Nat := some 4
  /-- takeover step reached, 0 none [R19 01] -/
  takeStep : Nat := 0
  /-- T0's supervisor is fenced off the control plane [R19 01] -/
  fenced : Bool := false
  /-- time of the lead's last heartbeat [R19 01] -/
  lastBeat : Nat := 0
  /-- mesh links failed, 0 to 11 [R15 01] -/
  meshFailed : List Nat := []
  /-- operating point in force [R23 01] -/
  oppt : Nat := 1
  /-- operating point being changed to [R24 01] -/
  opptReq : Option Nat := none
  /-- package power estimate at the performance point, mW [R23 01] -/
  powerMw : Nat := 0
  /-- 0 no safe state, 1 after Urgent, 2 no seal follows [R318 10] -/
  safe : Nat := 0
  /-- the package is in Bedrock [R483 15] -/
  bedrock : Bool := false
  /-- tiles T0 to T7 [R14 00] -/
  tiles : Tbl TileSt := []
  /-- whole multiples of the period reached at the last periodic update: 0 pace, 1 exposure, 2 seal, 3 Quartz, 4 restore, 5 Strata, 6 thermal, 7 DRAM, 8 lattice, 9 gauge [R522 00] -/
  lastTick : Tbl Nat := []
  deriving DecidableEq, Repr

/-- Pkg at reset. -/
abbrev Pkg.reset : Pkg := {}

/-- DRAM configuration (R218). -/
structure DramCfg where
  /-- FSP0_RATE in force [R215 07] -/
  rate : Nat := 0
  /-- N, ranks per channel [R35 01] -/
  n : Nat := 4
  /-- S, GiB [R35 01] -/
  sGib : Nat := 256
  /-- k [R218 07] -/
  spares : Nat := 1
  /-- c − 8 [R218 07] -/
  cgrain : Nat := 0
  /-- tile grain code: 0 2 MiB, 1 64 MiB, 2 1 GiB [R218 07] -/
  tgrain : Nat := 0
  /-- AUTO_RETURN [R218 07] -/
  autoReturn : Bool := true
  /-- IDLE_SR_US [R218 07] -/
  idleSr : Nat := 200
  /-- k of the parameter record [R218 07] -/
  nextSpares : Nat := 1
  /-- c − 8 of the parameter record [R218 07] -/
  nextCgrain : Nat := 0
  /-- tile grain of the parameter record [R218 07] -/
  nextTgrain : Nat := 0
  /-- module rate limit in force [R215 07] -/
  rateLimit : Nat := 0
  /-- module rate limit of the parameter record [R215 R218 07] -/
  nextRate : Nat := 0
  deriving DecidableEq, Repr

/-- DramCfg at reset. -/
abbrev DramCfg.reset : DramCfg := {}

/-- A DRAM channel (ch. 07). -/
structure Chan where
  /-- 0 training, 1 active, 2 self-refresh, 3 out of service [R241 07] -/
  state : Nat := 0
  /-- set point in force [R241 07] -/
  fsp : Nat := 0
  /-- gathering window open [R236 07] -/
  gather : Bool := false
  /-- cap in force [R231 07] -/
  cap : Nat := 0
  /-- a rank refreshes at 1.95 µs [R232 07] -/
  refx2 : Bool := false
  /-- a set point switch waits [R238 07] -/
  switchPend : Bool := false
  /-- set point switch in progress [R237 07] -/
  switchTo : Option Nat := none
  /-- times of corrected events in the last hour [R241 07] -/
  ceHour : List Nat := []
  /-- times of uncorrectable lines in the last 24 h [R241 07] -/
  ueDay : List Nat := []
  /-- times of CA parity errors within 1 s [R224 07] -/
  caErrs : List Nat := []
  /-- CA retraining in progress [R224 07] -/
  caTrain : Bool := false
  /-- cap token bucket [R231 07] -/
  tokens : Nat := 64
  /-- host write limit bucket [R231 07] -/
  hostTokens : Nat := 64
  /-- trainings failed in this boot [R234 07] -/
  trainTries : Nat := 0
  /-- settings of both set points hold [R235 07] -/
  trained : Bool := false
  /-- valid flag of the retention register file [R235 07] -/
  retValid : Bool := false
  /-- ranks in partial write training [R236 07] -/
  partial_ : List Nat := []
  /-- refreshes postponed and not yet made up, each by its bank (rank × 32 + bank), oldest first [R233 07] -/
  postponed : List Nat := []
  /-- time of the last request [R239 07] -/
  lastReq : Nat := 0
  deriving DecidableEq, Repr

/-- Chan at reset. -/
abbrev Chan.reset : Chan := {}

/-- A physical rank (R224, R232). -/
structure Rank where
  /-- last error lines of each device with their times [R224 07] -/
  errLines : Tbl (List (Nat × Nat)) := []
  /-- times of corrected events within 10 min [R224 07] -/
  ceTimes : List Nat := []
  /-- row fault list, entries coded as C4A1h [R224 R425 07 13] -/
  rows : List (BitVec 64) := []
  /-- retired [R245 07] -/
  retired : Bool := false
  /-- refresh interval 1.95 µs [R232 07] -/
  trefi2 : Bool := false
  /-- subchannel whose errors retired the rank, 2 for none [R325 10] -/
  retSc : Nat := 2
  /-- a device reports above its rated maximum [R232 07] -/
  overMax : Bool := false
  /-- hPPR in progress [R247 07] -/
  pprRun : Bool := false
  /-- pattern test in progress [R247 07] -/
  testRun : Bool := false
  /-- bank that the rotation of same-bank refreshes reaches next [R233 07] -/
  refNext : Nat := 0
  /-- error-check-and-scrub count of the devices' on-die ECC, read at initialisation, of the rank log [R212 07] -/
  eccCount : Nat := 0
  deriving DecidableEq, Repr

/-- Rank at reset. -/
abbrev Rank.reset : Rank := {}

/-- A rank steering entry (R242). -/
structure Steer where
  /-- steering state [R243 07] -/
  state : Nat := 0
  /-- POP [R242 07] -/
  pop : Bool := false
  /-- ALT_CH [R242 07] -/
  altCh : Nat := 0
  /-- ALT_RANK [R242 07] -/
  altRank : Nat := 0
  /-- ALT_VALID [R242 07] -/
  altValid : Bool := false
  /-- SWEEP [R242 07] -/
  sweep : Nat := 0
  /-- REASON [R242 07] -/
  reason : Nat := 0
  /-- MARK0 [R242 07] -/
  mark0 : Nat := 15
  /-- MARK1 [R242 07] -/
  mark1 : Nat := 15
  /-- ROWS [R242 07] -/
  rowsN : Nat := 0
  /-- PPR_DONE [R242 07] -/
  pprDone : Bool := false
  /-- TEST_PASS [R242 07] -/
  testPass : Bool := false
  /-- Quartz time of the last state change [R252 07] -/
  changed : Nat := 0
  deriving DecidableEq, Repr

/-- Steer at reset. -/
abbrev Steer.reset : Steer := {}

/-- A steering change awaiting its Slate record (R251). -/
structure SteerPend where
  /-- tile [R251 07] -/
  tile : Nat := 0
  /-- entry [R251 07] -/
  entry : Nat := 0
  /-- the entry once the record is programmed [R251 07] -/
  new : Steer := Steer.reset
  deriving DecidableEq, Repr

/-- SteerPend at reset. -/
abbrev SteerPend.reset : SteerPend := {}

/-- DRAM channels, ranks and steering (ch. 07). -/
structure Dram where
  /-- configuration [R218 07] -/
  cfg : DramCfg := DramCfg.reset
  /-- channels, tile × 4 + channel [R241 07] -/
  chans : Tbl Chan := []
  /-- ranks, tile × 16 + entry [R224 07] -/
  ranks : Tbl Rank := []
  /-- steering tables, tile × 16 + entry [R242 07] -/
  steer : Tbl Steer := []
  /-- changes awaiting their Slate record [R251 07] -/
  steerPend : List SteerPend := []
  /-- the Slate parameter records 0064h [R251 07] -/
  slateSteer : Tbl Steer := []
  /-- sealed work state of the steering tables [R252 07] -/
  sealedSteer : Option (Tbl Steer) := none
  /-- pages under repair from Strata [R225 07] -/
  repairs : List Nat := []
  /-- patrol scrub position [R223 07] -/
  scrubAt : Nat := 0
  deriving DecidableEq, Repr

/-- Dram at reset. -/
abbrev Dram.reset : Dram := {}

/-- Gauge channel of a bay or the bridge (R257, R259). -/
structure SourceSt where
  /-- voltage code [R257 08] -/
  vCode : Nat := 0
  /-- current code [R257 08] -/
  iCode : Int := 0
  /-- TH1 code [R257 08] -/
  th1 : Nat := 0
  /-- TH2 code [R257 08] -/
  th2 : Nat := 0
  /-- current accumulator [R259 08] -/
  acc : Int := 0
  /-- current offset code [R259 08] -/
  off : Int := 0
  /-- E_p or E_br, mJ [R263 R265 08] -/
  eMj : Nat := 0
  /-- U_p or U_br, mJ [R264 R265 08] -/
  uMj : Nat := 0
  /-- U at seal stage 0, mJ [R97 R266] -/
  uHeld : Nat := 0
  /-- E_full, mJ [R263 08] -/
  eFullMj : Nat := 0
  /-- time of the estimate [R268 08] -/
  tEst : Nat := 0
  deriving DecidableEq, Repr

/-- SourceSt at reset. -/
abbrev SourceSt.reset : SourceSt := {}

/-- Estimator and bay state of a pack (ch. 08). -/
structure PackSt where
  /-- bay state [R280 08] -/
  state : Nat := 0
  /-- latch closed [R288 08] -/
  latch : Bool := false
  /-- handle touched [R288 08] -/
  touch : Bool := false
  /-- release button pressed [R288 08] -/
  button : Bool := false
  /-- lock engaged [R280 08] -/
  lock : Bool := false
  /-- pack counted in E_avail [R288 08] -/
  counted : Bool := false
  /-- HOLD [R283 08] -/
  hold : Bool := false
  /-- power-path mode [R255 08] -/
  path : Nat := 0
  /-- end of the refused press indication [R282 08] -/
  refusedUntil : Option Nat := none
  /-- pack fault code [R285 08] -/
  fault : Nat := 0
  /-- time at which the fault's condition last held [R285 08] -/
  faultSince : Nat := 0
  /-- capacity test step [R288 08] -/
  test : Nat := 0
  /-- interruptions of the running test [R288 08] -/
  testIntr : Nat := 0
  /-- start of the interruption in progress [R272 08] -/
  intrAt : Option Nat := none
  /-- time its condition ended [R272 08] -/
  intrClear : Option Nat := none
  /-- accumulator at the start of discharge [R271 08] -/
  testQ0 : Int := 0
  /-- s_a, 0.01 % [R271 08] -/
  testSa : Option Nat := none
  /-- forced rest due [R279 08] -/
  restDue : Bool := false
  /-- forced rest running [R279 08] -/
  resting : Bool := false
  /-- time of the first press or request [R280 08] -/
  waitSince : Nat := 0
  /-- time of the grant [R280 08] -/
  grantAt : Nat := 0
  /-- latch openings counted [R276 08] -/
  latchOpens : Nat := 0
  /-- s, 0.01 % [R261 08] -/
  soc : Nat := 0
  /-- σ_soc, 0.01 % [R264 08] -/
  sigSoc : Nat := 500
  /-- σ_cap, 0.01 % [R264 08] -/
  sigCap : Nat := 1000
  /-- FCC, mAh [R264 08] -/
  fccMah : Nat := 0
  /-- DCIR_25, µΩ [R262 08] -/
  dcir : Nat := 0
  /-- learned [R274 08] -/
  learned : Bool := false
  /-- worn [R274 08] -/
  worn : Bool := false
  /-- T_LEARN [R274 08] -/
  tLearn : Nat := 0
  /-- T_NEXT_LEARN [R274 08] -/
  tNextLearn : Nat := 0
  /-- LEARN_FAILS [R274 08] -/
  learnFails : Nat := 0
  /-- THROUGHPUT, mAh [R274 08] -/
  throughput : Nat := 0
  /-- T_INSERT [R274 08] -/
  tInsert : Nat := 0
  /-- T_REST [R275 08] -/
  tRest : Nat := 0
  /-- NO_REST_MIN [R268 08] -/
  noRestMin : Nat := 0
  /-- time since when the bay is in OFF or IDLE with the input good [R259 08] -/
  calFrom : Option Nat := none
  /-- start of the rest in progress [R261 08] -/
  restFrom : Option Nat := none
  /-- lowest pack temperature of the rest, 1/16 °C [R261 08] -/
  restLo : Int := 0
  /-- highest pack temperature of the rest, 1/16 °C [R261 08] -/
  restHi : Int := 0
  /-- charging [R269 08] -/
  charging : Bool := false
  /-- start of charging [R269 08] -/
  chargeAt : Nat := 0
  /-- slew-limited SOC, in 1/6 of 0.01 % [R267 08] -/
  viewSoc : Nat := 0
  /-- slew-limited energy, mJ [R267 08] -/
  viewEnergy : Nat := 0
  /-- CHEM in force [R288 08] -/
  chem : Nat := 0
  /-- NAMEPLATE_MAH in force [R288 08] -/
  nameplate : Option Nat := none
  /-- R_SHUNT in force, µΩ [R288 08] -/
  rShunt : Nat := 0
  /-- thermistor resistance at 25 °C, Ω [R288 08] -/
  thR25 : Nat := 0
  /-- β, K [R288 08] -/
  thBeta : Nat := 0
  /-- LEARN_INTERVAL [R288 08] -/
  learnInt : Nat := 90
  /-- TEST_RATE, 0.01C [R288 08] -/
  testRate : Nat := 20
  /-- parameters set, in force at the next insertion [R288 08] -/
  next : Option (List Nat) := none
  /-- consecutive samples in each fault condition [R285 08] -/
  runs : Tbl Nat := []
  /-- charge (current codes x 1 ms) not yet taken into s [R261 08] -/
  socAcc : Int := 0
  /-- growth of σ_soc below 0.01 %, in 1/36,000 of it [R264 08] -/
  sigFine : Nat := 0
  /-- discharge not yet taken into THROUGHPUT, in current codes x 1 ms [R274 08] -/
  thruAcc : Nat := 0
  /-- current codes summed in the 1 s window that runs [R272 08] -/
  winSum : Int := 0
  /-- samples in that window [R272 08] -/
  winN : Nat := 0
  /-- s_b, 0.01 % [R271 08] -/
  testSb : Option Nat := none
  /-- Q of the discharge, in current codes x 1 ms [R271 08] -/
  testQ : Int := 0
  /-- the first estimate is made from the state block [R276 08] -/
  resumed : Bool := false
  deriving DecidableEq, Repr

/-- PackSt at reset. -/
abbrev PackSt.reset : PackSt := {}

/-- The gauge learning and state records as last written (R274, R275). -/
structure GaugeRec where
  /-- RSEQ of the learning record [R274 08] -/
  rseqL : Nat := 0
  /-- RSEQ of the state record [R275 08] -/
  rseqS : Nat := 0
  /-- T_WRITE [R274 08] -/
  tWrite : Nat := 0
  /-- learning record fields in table order [R274 08] -/
  bytesL : List Nat := []
  /-- state record fields in table order [R275 08] -/
  bytesS : List Nat := []
  /-- written in seal stage 5 [R275 08] -/
  stage5 : Bool := false
  deriving DecidableEq, Repr

/-- GaugeRec at reset. -/
abbrev GaugeRec.reset : GaugeRec := {}

/-- Packs, bridge and gauge (ch. 08). -/
structure Energy where
  /-- bay A, bay B, bridge [R257 08] -/
  src : Tbl SourceSt := []
  /-- bays A and B [R280 08] -/
  pack : Tbl PackSt := []
  /-- sample count [R257 08] -/
  sample : Nat := 0
  /-- learned bridge capacitance, mF [R265 08] -/
  brC : Nat := 0
  /-- learned bridge ESR, µΩ [R265 08] -/
  brEsr : Nat := 0
  /-- BR_T_LEARN [R274 08] -/
  brTLearn : Nat := 0
  /-- C_NOM in force, mF [R288 08] -/
  brCnom : Option Nat := none
  /-- nominal ESR in force, µΩ [R288 08] -/
  brEsrNom : Nat := 0
  /-- V_FULL in force, mV [R288 08] -/
  brVfull : Nat := 0
  /-- bridge R_SHUNT in force, µΩ [R288 08] -/
  brShunt : Nat := 0
  /-- bridge parameters set, in force at the next package reset [R288 08] -/
  brNext : Option (List Nat) := none
  /-- bridge fault code [R286 08] -/
  brFault : Nat := 0
  /-- time at which its condition last held [R286 08] -/
  brFaultSince : Nat := 0
  /-- consecutive samples in each bridge fault condition [R286 08] -/
  brRuns : Tbl Nat := []
  /-- bridge state [R268 08] -/
  brState : Nat := 0
  /-- time bridge charging was enabled [R265 08] -/
  brChargeAt : Option Nat := none
  /-- slew-limited FILL, in 1/6 of 0.01 % [R267 08] -/
  brFill : Nat := 0
  /-- slew-limited energy, mJ [R267 08] -/
  brEnergy : Nat := 0
  /-- ASSIST_EN [R288 08] -/
  assistEn : Bool := false
  /-- P_SLOT [R288 08] -/
  pSlot : Nat := 225
  /-- ASSIST_MAX [R288 08] -/
  assistMax : Nat := 25
  /-- ASSIST_FLOOR [R288 08] -/
  assistFloor : Nat := 70
  /-- CHARGE_TARGET [R288 08] -/
  chargeTarget : Nat := 100
  /-- CHARGE_RATE, 0.01C [R288 08] -/
  chargeRate : Nat := 50
  /-- ASSIST setpoints, W [R278 08] -/
  assistSet : Tbl Nat := []
  /-- time of the last "slot limit exceeded" [R278 08] -/
  slotExceed : Option Nat := none
  /-- trickle capped by a forced rest [R279 08] -/
  restCap : Bool := false
  /-- chemistry tables, 16-bit values [R260 08] -/
  chemTab : Tbl (List Nat) := []
  /-- records in Slate [R274 08] -/
  rec_ : GaugeRec := GaugeRec.reset
  /-- something in the learning record has changed [R276 08] -/
  recDirty : Bool := false
  /-- time of the last record write [R276 08] -/
  recAt : Nat := 0
  /-- a record write is due [R277 08] -/
  recDue : Bool := false
  /-- no forced rest starts before this time [R279 08] -/
  restRetry : Nat := 0
  /-- a rest was abandoned by the LAPSE that runs [R279 08] -/
  restAband : Bool := false
  /-- a standby reset has lost the latch counters: at boot every bay counts as holding a new pack [R498 16] -/
  bayLost : Bool := false
  /-- module draw, mW [R278 08] -/
  drawMw : Nat := 0
  deriving DecidableEq, Repr

/-- Energy at reset. -/
abbrev Energy.reset : Energy := {}

/-- A temperature sensor (ch. 09). -/
structure Sensor where
  /-- raw code of the latest sample [R291 09] -/
  code : Int := 0
  /-- reading in use, 1/16 °C [R308 09] -/
  temp : Int := 0
  /-- failed [R299 09] -/
  failed : Bool := false
  /-- cause of failure [R299 09] -/
  cause : Nat := 0
  /-- learned offset, 1/16 °C [R300 09] -/
  off : Nat := 0
  /-- consecutive samples with the same code [R299 09] -/
  same : Nat := 0
  /-- consecutive samples out of range [R299 09] -/
  outRun : Nat := 0
  /-- start of a disagreement [R299 09] -/
  disSince : Option Nat := none
  /-- time since which no failure condition held [R299 09] -/
  okSince : Nat := 0
  /-- consecutive samples at or above the warning threshold [R294 09] -/
  runW : Nat := 0
  /-- at or above the throttle threshold [R294 09] -/
  runT : Nat := 0
  /-- at or above the shutdown threshold [R294 09] -/
  runS : Nat := 0
  /-- in the warning level [R294 09] -/
  inW : Bool := false
  /-- in the throttle level [R294 09] -/
  inT : Bool := false
  /-- in the shutdown level [R294 09] -/
  inS : Bool := false
  /-- below the warning threshold less hysteresis since [R294 09] -/
  belW : Option Nat := none
  /-- below the throttle threshold less hysteresis since [R294 09] -/
  belT : Option Nat := none
  /-- below the shutdown threshold less hysteresis since [R294 09] -/
  belS : Option Nat := none
  /-- sum of the readings of the running second [R300 09] -/
  meanSum : Int := 0
  /-- samples in it [R300 09] -/
  meanN : Nat := 0
  /-- mean of the last whole second, 1/16 °C [R300 09] -/
  mean : Int := 0
  /-- differences of the trailing 24 h that may still be the largest, with their times [R300 09] -/
  offHist : List (Nat × Nat) := []
  deriving DecidableEq, Repr

/-- Sensor at reset. -/
abbrev Sensor.reset : Sensor := {}

/-- Throttle stepping of a tile (R295, R301, R302). -/
structure ThermTile where
  /-- stepped level [R295 09] -/
  step : Nat := 0
  /-- floor [R302 09] -/
  floor : Nat := 0
  /-- hot [R295 09] -/
  hot : Bool := false
  /-- start of the STEP_S or 1 s fall interval [R295 09] -/
  stepAt : Nat := 0
  /-- end of the freeze [R301 09] -/
  frozenUntil : Option Nat := none
  /-- entries into the warning level within the hour [R298 09] -/
  crossW : List Nat := []
  /-- entries into the throttle level within the hour [R298 09] -/
  crossT : List Nat := []
  /-- time of the last hovering event, warning [R298 09] -/
  hoverW : Option Nat := none
  /-- time of the last hovering event, throttle [R298 09] -/
  hoverT : Option Nat := none
  deriving DecidableEq, Repr

/-- ThermTile at reset. -/
abbrev ThermTile.reset : ThermTile := {}

/-- A board thermal input's module parameters (R293). -/
structure BoardIn where
  /-- warning threshold, °C [R293 09] -/
  warn : Nat := 0
  /-- throttle threshold, °C [R293 09] -/
  thr : Nat := 0
  /-- shutdown threshold, °C [R293 09] -/
  shut : Nat := 0
  /-- tile mask [R292 09] -/
  mask : BitVec 8 := 255
  /-- level entries within the hour (level, time) [R298 09] -/
  cross : List (Nat × Nat) := []
  /-- time of the last hovering event, by level [R298 09] -/
  hover : Tbl Nat := []
  deriving DecidableEq, Repr

/-- BoardIn at reset. -/
abbrev BoardIn.reset : BoardIn := {}

/-- A thermal record (R306). -/
structure ThermRec where
  /-- RSEQ [R306 09] -/
  rseq : Nat := 0
  /-- T_EVENT [R306 09] -/
  tEvent : Nat := 0
  /-- KIND [R306 09] -/
  kind : Nat := 0
  /-- SENSOR [R306 09] -/
  sensor : Nat := 0
  /-- READING [R306 09] -/
  reading : Int := 0
  /-- THRESH [R306 09] -/
  thresh : Int := 0
  /-- LEVELS [R306 09] -/
  levels : BitVec 16 := 0
  /-- PKG_MAX [R306 09] -/
  pkgMax : Int := 0
  /-- INLET [R306 09] -/
  inlet : Int := 0
  /-- FAILED [R306 09] -/
  failed : Nat := 0
  /-- SHUTDOWNS [R306 09] -/
  shutdowns : Nat := 0
  /-- T_SEAL_END [R306 09] -/
  tSealEnd : Nat := 0
  deriving DecidableEq, Repr

/-- ThermRec at reset. -/
abbrev ThermRec.reset : ThermRec := {}

/-- Thermal sensing and throttling (ch. 09). -/
structure Therm where
  /-- sensors by number [R290 09] -/
  sens : Tbl Sensor := []
  /-- tiles [R295 09] -/
  tile : Tbl ThermTile := []
  /-- board inputs 40h to 47h in force [R293 09] -/
  board : Tbl BoardIn := []
  /-- board thresholds set, in force at the next package reset [R307 09] -/
  boardNext : Option (Tbl BoardIn) := none
  /-- WARN_C [R307 09] -/
  warnC : Nat := 95
  /-- THROTTLE_C [R307 09] -/
  throttleC : Nat := 105
  /-- SHUT_C [R307 09] -/
  shutC : Nat := 118
  /-- WARN_HYS [R307 09] -/
  warnHys : Nat := 3
  /-- THROTTLE_HYS [R307 09] -/
  throttleHys : Nat := 4
  /-- SHUT_HYS [R307 09] -/
  shutHys : Nat := 10
  /-- STEP_S [R307 09] -/
  stepS : Nat := 10
  /-- COOL_WAIT [R307 09] -/
  coolWait : Nat := 300
  /-- RESTART_MAX [R307 09] -/
  restartMax : Nat := 3
  /-- sample count [R308 09] -/
  sample : Nat := 0
  /-- thermal records, newest first [R306 09] -/
  recs : List ThermRec := []
  /-- records awaiting their write [R306 09] -/
  recPend : List ThermRec := []
  /-- next RSEQ [R306 09] -/
  nextRseq : Nat := 1
  /-- times of thermal shutdowns [R304 09] -/
  shutTimes : List Nat := []
  /-- sensor of the last thermal shutdown [R102 03] -/
  shutSensor : Nat := 0
  /-- start of COOL_WAIT [R304 09] -/
  coolFrom : Option Nat := none
  /-- automatic restart withheld [R304 R305 09] -/
  withheld : Bool := false
  /-- sensor number and time latched by a critical trip [R305 09] -/
  critLatch : Option (Nat × Nat) := none
  deriving DecidableEq, Repr

/-- Therm at reset. -/
abbrev Therm.reset : Therm := {}

/-- A Flint message (R310) with what its detector adds. -/
structure FlintMsg where
  /-- SRC [R310 10] -/
  src : Nat := 0
  /-- KIND [R312 10] -/
  kind : BitVec 8 := 0
  /-- SEV [R310 10] -/
  sev : Nat := 0
  /-- TILE [R310 10] -/
  tile : Nat := 0
  /-- AV [R310 10] -/
  av : Bool := false
  /-- ATAG [R311 10] -/
  atag : Nat := 0
  /-- forced by C463h [R329 10] -/
  forced : Bool := false
  /-- takes its reaction [R329 10] -/
  react : Bool := true
  /-- context concerned [R331 10] -/
  context : Nat := 65535
  /-- 0 H0, 1 H1: concerns one head only; 2 both [R335 10] -/
  headOnly : Nat := 2
  /-- its chapter names it as an event [R335 10] -/
  named : Bool := true
  /-- REACTION code of a Degraded message's own action: 1, 3 or 4 [R331 10] -/
  act : Nat := 1
  /-- DETAIL [R336 10] -/
  detail : List Nat := []
  deriving DecidableEq, Repr

/-- FlintMsg at reset. -/
abbrev FlintMsg.reset : FlintMsg := {}

/-- A Flint log entry (R331). -/
structure LogEntry where
  /-- MSG [R331 10] -/
  msg : BitVec 64 := 0
  /-- TIME [R331 10] -/
  time : Nat := 0
  /-- LSEQ [R331 10] -/
  lseq : Nat := 0
  /-- CAUSE_SEQ [R331 10] -/
  causeSeq : Nat := 4294967295
  /-- FLAGS [R331 10] -/
  flags : BitVec 16 := 0
  /-- ORIG_SEV [R331 10] -/
  origSev : Nat := 0
  /-- REACTION [R331 10] -/
  reaction : Nat := 0
  /-- CONTEXT [R331 10] -/
  context : Nat := 65535
  deriving DecidableEq, Repr

/-- LogEntry at reset. -/
abbrev LogEntry.reset : LogEntry := {}

/-- A first-fault record FLT_FF (R322, R323). -/
structure FirstFault where
  /-- MSG [R334 10] -/
  msg : BitVec 64 := 0
  /-- T_FIRST [R334 10] -/
  tFirst : Nat := 0
  /-- LAST_MSG [R334 10] -/
  lastMsg : BitVec 64 := 0
  /-- T_LAST [R334 10] -/
  tLast : Nat := 0
  /-- COUNT [R334 10] -/
  count : Nat := 0
  /-- KIND_OR [R334 10] -/
  kindOr : BitVec 8 := 0
  /-- MAX_SEV [R334 10] -/
  maxSev : Nat := 0
  /-- VALID [R334 10] -/
  valid : Bool := false
  /-- FORCED [R334 10] -/
  forced : Bool := false
  /-- CO_FIRST present [R334 10] -/
  coFirst : Bool := false
  /-- held [R334 10] -/
  held : Bool := false
  /-- CO_MSG [R334 10] -/
  coMsg : BitVec 64 := 0
  /-- CO_COUNT [R334 10] -/
  coCount : Nat := 0
  /-- LSEQ [R334 10] -/
  lseq : Nat := 0
  deriving DecidableEq, Repr

/-- FirstFault at reset. -/
abbrev FirstFault.reset : FirstFault := {}

/-- A Flint collector (R321, R331). -/
structure Collector where
  /-- input stage [R321 10] -/
  input : List FlintMsg := []
  /-- reserved lane for Urgent and Fatal messages [R321 10] -/
  urgent : List FlintMsg := []
  /-- log, newest first [R331 10] -/
  log : List LogEntry := []
  /-- next LSEQ [R331 10] -/
  nextLseq : Nat := 1
  /-- first-fault record [R322 10] -/
  ff : FirstFault := FirstFault.reset
  /-- messages were lost since the last entry [R321 10] -/
  lostBefore : Bool := false
  /-- messages lost since the last report [R321 10] -/
  lostSince : Nat := 0
  deriving DecidableEq, Repr

/-- Collector at reset. -/
abbrev Collector.reset : Collector := {}

/-- An open shadow window (R325). -/
structure Shadow where
  /-- LSEQ of the cause in the package log [R326 10] -/
  cause : Nat := 0
  /-- severity of the cause [R326 10] -/
  sev : Nat := 0
  /-- 1 isolation, 2 rank, 3 channel, 4 die, 5 safe state, 6 takeover, 7 lattice link [R325 10] -/
  reaction : Nat := 0
  /-- tile, rank, channel, die or link concerned [R325 10] -/
  unit : Nat := 0
  /-- end of the window [R325 10] -/
  until_ : Nat := 0
  deriving DecidableEq, Repr

/-- Shadow at reset. -/
abbrev Shadow.reset : Shadow := {}

/-- A rate-limited event (R335). -/
structure RateSlot where
  /-- source [R335 10] -/
  src : Nat := 0
  /-- kind [R335 10] -/
  kind : BitVec 8 := 0
  /-- head [R335 10] -/
  head : Nat := 0
  /-- time of the last post [R335 10] -/
  last : Nat := 0
  /-- messages since it [R335 10] -/
  count : Nat := 0
  /-- latest message [R335 10] -/
  msg : FlintMsg := FlintMsg.reset
  deriving DecidableEq, Repr

/-- RateSlot at reset. -/
abbrev RateSlot.reset : RateSlot := {}

/-- Fault collection and reaction (ch. 10). -/
structure Flint where
  /-- collectors 0 to 7 (tiles) and 8 (package) [R331 10] -/
  coll : Tbl Collector := []
  /-- Corrected counts by source [R332 10] -/
  ce : Tbl Nat := []
  /-- counts of severity 2 or more by source [R332 10] -/
  sev2 : Tbl Nat := []
  /-- open shadows [R325 10] -/
  shadows : List Shadow := []
  /-- rate-limited events [R335 10] -/
  rate : List RateSlot := []
  /-- FATAL [R334 10] -/
  fatal : Bool := false
  /-- LOST [R334 10] -/
  lost : Nat := 0
  /-- TFAULT_N lines pulsing low [R330 10] -/
  tfPulse : BitVec 8 := 0
  /-- time at which the line's last pulse began [R330 10] -/
  tfAt : Tbl Nat := []
  /-- TFAULT_N lines held low [R330 10] -/
  tfHold : BitVec 8 := 0
  /-- ALIVE level [R330 R488 10 16] -/
  alive : Bool := false
  /-- ALIVE stopped [R330 10] -/
  aliveStop : Bool := false
  /-- a message of severity 4 or more, not forced with REACT 0, taken since this boot began [R476 15] -/
  sev4 : Bool := false
  /-- Flint extract in Slate [R333 10] -/
  prevLog : List LogEntry := []
  /-- first-fault set in Slate [R333 10] -/
  prevFf : Tbl FirstFault := []
  /-- an extract write is due [R333 10] -/
  extractDue : Bool := false
  deriving DecidableEq, Repr

/-- Flint at reset. -/
abbrev Flint.reset : Flint := {}

/-- A lattice frame held by a link (R363). -/
structure LatFrame where
  /-- DST [R363 12] -/
  dst : Nat := 0
  /-- SRC [R363 12] -/
  src : Nat := 0
  /-- VL [R363 12] -/
  vl : Nat := 0
  /-- SVC [R363 12] -/
  svc : Nat := 0
  /-- TTL [R363 12] -/
  ttl : Nat := 63
  /-- SOM [R363 12] -/
  som : Bool := true
  /-- EOM [R363 12] -/
  eom : Bool := true
  /-- time from which it waits for a credit, or at which it was last sent [R366 12] -/
  since : Nat := 0
  /-- payload, as the fields of its message [R363 12] -/
  body : List Nat := []
  deriving DecidableEq, Repr

/-- LatFrame at reset. -/
abbrev LatFrame.reset : LatFrame := {}

/-- A lattice link (ch. 12). -/
structure LinkSt where
  /-- link state [R371 12] -/
  state : Nat := 1
  /-- 0 x4, 1 x2 [R361 12] -/
  width : Nat := 0
  /-- cost in force [R375 12] -/
  cost : Nat := 0
  /-- COST set by SB [R375 12] -/
  costSet : Option Nat := none
  /-- ASYM_l, ns [R381 12] -/
  asym : Int := 0
  /-- 1 SB, 2 looped or duplicate, 3 Contained, 4 strap [R371 12] -/
  disabledBy : Nat := 0
  /-- neighbour's unique ID [R369 12] -/
  peerUid : Nat := 0
  /-- neighbour's node ID [R369 12] -/
  peerId : Nat := 0
  /-- neighbour's link index [R369 12] -/
  peerLink : Nat := 0
  /-- neighbour's OPEN flag [R369 12] -/
  peerOpen : Bool := false
  /-- neighbour's clock-quality class [R369 12] -/
  peerClass : Nat := 0
  /-- neighbour's hops to the time root [R369 12] -/
  peerHops : Nat := 31
  /-- TROOT_UID of the neighbour [R369 12] -/
  peerRoot : Nat := 0
  /-- class of the root it follows [R351 11] -/
  peerRootClass : Nat := 0
  /-- consecutive clean hellos [R370 12] -/
  clean : Nat := 0
  /-- time of the last hello [R370 12] -/
  lastHello : Option Nat := none
  /-- HSEQ of the last hello [R369 12] -/
  lastHseq : Nat := 0
  /-- own HSEQ on this link [R369 12] -/
  hseq : Nat := 0
  /-- a NAK or replay since the last hello [R370 12] -/
  replayed : Bool := false
  /-- times of flaps [R371 12] -/
  flaps : List Nat := []
  /-- next hold, s [R371 12] -/
  holdS : Nat := 60
  /-- end of the hold [R371 12] -/
  heldUntil : Nat := 0
  /-- time of the last hold [R371 12] -/
  holdEnd : Option Nat := none
  /-- next FSEQ to send [R365 12] -/
  txNext : Nat := 0
  /-- replay buffer: FSEQ, replays so far and frame, oldest first [R365 12] -/
  outst : List (Nat × Nat × LatFrame) := []
  /-- next FSEQ expected [R365 12] -/
  rxNext : Nat := 0
  /-- frames received and not yet acknowledged [R365 12] -/
  unacked : Nat := 0
  /-- ACK or NAK naming no outstanding frame, counted [R365 12] -/
  badAck : Nat := 0
  /-- times of replays within 1 s [R365 12] -/
  replays : List Nat := []
  /-- times of failed retrainings within 10 min [R395 12] -/
  retrainFails : List Nat := []
  /-- retraining in progress [R365 12] -/
  retraining : Bool := false
  /-- send credits of each virtual lane [R366 12] -/
  credits : Tbl Nat := []
  /-- frames waiting for a credit or for room in the replay buffer, oldest first [R366 12] -/
  wait : List LatFrame := []
  /-- place of the deficit round robin of VL1 to VL3 [R366 12] -/
  drr : Nat := 0
  /-- frames freed in each lane and not yet returned as credits [R366 12] -/
  freed : Tbl Nat := []
  /-- delays of the last time exchanges [R381 12] -/
  delays : List Int := []
  /-- t1 of the exchange in progress [R381 12] -/
  exch : Option Nat := none
  deriving DecidableEq, Repr

/-- LinkSt at reset. -/
abbrev LinkSt.reset : LinkSt := {}

/-- A link-state advertisement held (R374). -/
structure Lsa where
  /-- originating node [R374 12] -/
  uid : Nat := 0
  /-- its node ID [R374 12] -/
  nodeId : Nat := 0
  /-- LEAVING [R374 12] -/
  leaving : Bool := false
  /-- OPEN [R374 12] -/
  open_ : Bool := false
  /-- LSA_SEQ [R374 12] -/
  seq : Nat := 0
  /-- neighbours: UID, node ID, own link, COST, width (0 x4, 1 x2) [R374 12] -/
  nbrs : List (Nat × Nat × Nat × Nat × Nat) := []
  /-- time received [R374 12] -/
  at_ : Nat := 0
  deriving DecidableEq, Repr

/-- Lsa at reset. -/
abbrev Lsa.reset : Lsa := {}

/-- A route table entry (R375). -/
structure Route where
  /-- PRI [R375 12] -/
  pri : Nat := 7
  /-- ALT1 [R375 12] -/
  alt1 : Nat := 7
  /-- ALT2 [R375 12] -/
  alt2 : Nat := 7
  /-- HOPS [R375 12] -/
  hops : Nat := 0
  /-- VALID [R375 12] -/
  valid : Bool := false
  /-- COST [R375 12] -/
  cost : Nat := 0
  deriving DecidableEq, Repr

/-- Route at reset. -/
abbrev Route.reset : Route := {}

/-- A lattice grant (R380). -/
structure Grant where
  /-- context [R380 12] -/
  context : Nat := 0
  /-- peer unique ID [R380 12] -/
  uid : Nat := 0
  /-- [0] replica target, [1] migration target, [2] checkpoint participant [R424 13] -/
  svc : BitVec 8 := 0
  deriving DecidableEq, Repr

/-- Grant at reset. -/
abbrev Grant.reset : Grant := {}

/-- A replica stream or a migration (R384, R389). -/
structure Stream where
  /-- SESSION [R367 12] -/
  session : Nat := 0
  /-- a migration [R389 12] -/
  migration : Bool := false
  /-- this node is the source [R384 12] -/
  outgoing : Bool := true
  /-- local context [R384 12] -/
  local_ : Nat := 0
  /-- peer context [R384 12] -/
  peerCtx : Nat := 0
  /-- peer unique ID [R384 12] -/
  uid : Nat := 0
  /-- state code of C495h [R424 13] -/
  state : Nat := 0
  /-- RATE_MBS [R385 12] -/
  rate : Nat := 2000
  /-- AUTO_SWITCH [R389 12] -/
  autoSwitch : Bool := false
  /-- SWITCH_GIB [R389 12] -/
  switchGib : Nat := 1
  /-- passes of CONVERGE [R389 12] -/
  passes : Nat := 0
  /-- SB has ordered the switch [R389 12] -/
  ordered : Bool := false
  /-- next MSEQ to send [R367 12] -/
  mseqTx : Nat := 0
  /-- next MSEQ to apply [R367 12] -/
  mseqRx : Nat := 0
  /-- set bits: page and L at which it was set, oldest first [R385 12] -/
  bits : List (Nat × Nat) := []
  /-- pages in flight: page, MSEQ, flagged for resending [R385 12] -/
  flying : List (Nat × Nat × Bool) := []
  /-- bytes acknowledged [R424 13] -/
  acked : Nat := 0
  /-- time of the last answer [R380 12] -/
  lastAns : Nat := 0
  /-- a RESYNC is due [R388 12] -/
  resync : Bool := false
  /-- final message sent [R389 12] -/
  finalSent : Bool := false
  /-- the peer answers [R380 12] -/
  peerOpen : Bool := true
  /-- the peer has not yet answered the setup [R384 12] -/
  setup : Bool := true
  /-- principal that created it [R424 13] -/
  by_ : Nat := 2
  /-- pages whose bits have not cleared once in this copy or pass [R387 12] -/
  round : List Nat := []
  /-- stratum markers due: T_s and the pages still to be acknowledged [R387 12] -/
  marks : List (Nat × List Nat) := []
  /-- markers sent and not yet answered: MSEQ and T_s [R380, R387 12] -/
  sentMarks : List (Nat × Nat) := []
  /-- P1 and P2 granules that the target can take [R384 12] -/
  grans : Nat := 0
  /-- replica target too small has been raised [R384 12] -/
  tooSmall : Bool := false
  /-- receiver: the target has been written by anything else, or mounted in a tier other than clean, and its source has not been told; source: the abort of a migration has been reported [R388, R391 12] -/
  dirtied : Bool := false
  deriving DecidableEq, Repr

/-- Stream at reset. -/
abbrev Stream.reset : Stream := {}

/-- A participant of a lattice checkpoint (R382). -/
structure CkptPart where
  /-- node unique ID [R424 13] -/
  uid : Nat := 0
  /-- context [R424 13] -/
  context : Nat := 0
  /-- answered [R382 12] -/
  answered : Bool := false
  /-- status [R424 13] -/
  status : Nat := 0
  /-- T_s [R424 13] -/
  ts : Nat := 0
  deriving DecidableEq, Repr

/-- CkptPart at reset. -/
abbrev CkptPart.reset : CkptPart := {}

/-- A lattice checkpoint coordinated or taken part in (R382). -/
structure Ckpt where
  /-- REQ_ID [R382 12] -/
  reqId : Nat := 0
  /-- principal (coordinator side) [R424 13] -/
  by_ : Nat := 0
  /-- T_c [R382 12] -/
  tc : Nat := 0
  /-- this node is the coordinator [R382 12] -/
  coord : Bool := true
  /-- coordinator's unique ID (participant side) [R382 12] -/
  uid : Nat := 0
  /-- context (participant side) [R382 12] -/
  context : Nat := 0
  /-- participants [R382 12] -/
  parts : List CkptPart := []
  /-- complete [R424 13] -/
  complete : Bool := false
  deriving DecidableEq, Repr

/-- Ckpt at reset. -/
abbrev Ckpt.reset : Ckpt := {}

/-- Rurek lattice (ch. 12). -/
structure Lat where
  /-- unique ID [R368 12] -/
  uid : Nat := 1
  /-- own node ID [R394 12] -/
  nodeId : Nat := 0
  /-- preferred ID of the Slate lattice record [R373 12] -/
  prefId : Nat := 0
  /-- links L0 to L5 [R371 12] -/
  links : Tbl LinkSt := []
  /-- own LSA_SEQ (kept in Slate) [R374 12] -/
  lsaSeq : Nat := 0
  /-- advertisements held [R374 12] -/
  lsas : List Lsa := []
  /-- route table [R375 12] -/
  routes : Tbl Route := []
  /-- changes batched for a computation [R377 12] -/
  routeDue : Bool := false
  /-- CONV_MS [R394 12] -/
  convMs : Nat := 0
  /-- a route table has been loaded [R380 12] -/
  loaded : Bool := false
  /-- hellos carry LEAVING [R396 12] -/
  leaving : Bool := false
  /-- grants [R380 12] -/
  grants : List Grant := []
  /-- streams and migrations [R384 12] -/
  streams : List Stream := []
  /-- lattice checkpoints [R382 12] -/
  ckpts : List Ckpt := []
  /-- next SESSION [R367 12] -/
  nextSession : Nat := 1
  /-- TROOT_SEQ of this node as time root [R369 12] -/
  trootSeq : Nat := 0
  /-- frames discarded and counted [R376 12] -/
  discarded : Nat := 0
  /-- time of the last discard event [R395 12] -/
  discEvent : Option Nat := none
  /-- discards since that event [R395 12] -/
  discPend : Nat := 0
  /-- messages under way: arrival link, SRC, DST, VL, departure link (7: lost) [R376 12] -/
  paths : List (Nat × Nat × Nat × Nat × Nat) := []
  /-- link by which an ID request of a unique ID arrived [R373 12] -/
  idBack : Tbl Nat := []
  deriving DecidableEq, Repr

/-- Lat at reset. -/
abbrev Lat.reset : Lat := {}

/-- A command in the serialiser (R402). -/
structure QCmd where
  /-- principal code [R401 13] -/
  by_ : Nat := 0
  /-- peer unique ID of an LP command [R401 13] -/
  uid : Nat := 0
  /-- TAG of the sideband request [R398 13] -/
  tag : Nat := 0
  /-- stamp [R402 13] -/
  stamp : Nat := 0
  /-- opcode [R402 13] -/
  opcode : Nat := 0
  /-- JCS payload [R402 13] -/
  payload : List (BitVec 8) := []
  deriving DecidableEq, Repr

/-- QCmd at reset. -/
abbrev QCmd.reset : QCmd := {}

/-- A lease (R404). -/
structure Lease_ where
  /-- holder [R404 13] -/
  holder : Nat := 255
  /-- unique ID of an LP holder [R401 13] -/
  uid : Nat := 0
  /-- time acquired [R427 13] -/
  acquired : Nat := 0
  /-- TIMEOUT_S [R427 13] -/
  timeoutS : Nat := 600
  /-- time of the holder's last command naming the resource [R406 13] -/
  last : Nat := 0
  deriving DecidableEq, Repr

/-- Lease_ at reset. -/
abbrev Lease_.reset : Lease_ := {}

/-- The package state as last mirrored into the deputy (R18). -/
structure Mirror where
  /-- serialiser queue [R18 01] -/
  queue : List QCmd := []
  /-- lease table [R18 01] -/
  leases : Tbl Lease_ := []
  /-- governor state and ceiling inputs [R18 01] -/
  gov : Gov := Gov.reset
  /-- k_seal [R18 01] -/
  kSeal : Nat := 780000
  /-- land_ref [R18 01] -/
  landRef : Nat := 320000
  /-- E_fixed [R18 01] -/
  eFixed : Nat := 1500000
  /-- learned capacitance of the bridge [R18 01] -/
  brC : Nat := 0
  /-- learned ESR of the bridge [R18 01] -/
  brEsr : Nat := 0
  /-- fill view of the bridge [R18 01] -/
  brFill : Nat := 0
  /-- energy view of the bridge [R18 01] -/
  brEnergy : Nat := 0
  /-- gauge estimator state of the sources [R18 01] -/
  src : Tbl SourceSt := []
  /-- gauge estimator state of the packs [R18 01] -/
  pack : Tbl PackSt := []
  /-- Quartz discipline state: r [R18 01] -/
  rate : Int := 0
  /-- Quartz discipline state: f [R18 01] -/
  freq : Int := 0
  /-- Quartz discipline state: PPS state [R18 01] -/
  ppsState : Nat := 0
  /-- Quartz discipline state: valid edges in a row [R18 01] -/
  ppsRun : Nat := 0
  /-- Quartz discipline state: phase errors rejected in a row [R18 01] -/
  ppsRejects : Nat := 0
  /-- stamps of commands whose effect is committed [R20 01] -/
  done : List Nat := []
  deriving DecidableEq, Repr

/-- Mirror at reset. -/
abbrev Mirror.reset : Mirror := {}

/-- Command interface (ch. 13). -/
structure JcsSt where
  /-- serialiser queue, in stamp order [R402 13] -/
  queue : List QCmd := []
  /-- commands accepted but not completed at a takeover [R20 13] -/
  inProg : List QCmd := []
  /-- stamps of commands committed and not yet completed [R20 01] -/
  done : List Nat := []
  /-- leases by resource code [R404 13] -/
  leases : Tbl Lease_ := []
  /-- SB's background command [R400 13] -/
  sbBg : Bg := Bg.reset
  /-- MCTP endpoint ID assigned [R398 13] -/
  sbEid : Nat := 0
  /-- MCTP messages in flight, by tag [R497 16] -/
  mctpBusy : List Nat := []
  deriving DecidableEq, Repr

/-- JcsSt at reset. -/
abbrev JcsSt.reset : JcsSt := {}

/-- An operation running or suspended in a Slate bank (R433, R445). -/
structure SlateOp where
  /-- command code [R437 14] -/
  code : Nat := 0
  /-- operand address [R437 14] -/
  addr : Nat := 0
  /-- line of a program [R437 14] -/
  data : BitVec 128 := 0
  /-- pulses applied so far [R438 14] -/
  pulses : Nat := 0
  /-- suspended [R445 14] -/
  suspended : Bool := false
  /-- time of the suspend request not yet in effect [R445 14] -/
  suspReq : Option Nat := none
  /-- the suspend request is held under the minimum-run rule [R445 14] -/
  held : Bool := false
  /-- PURPOSE of an erase [R449 14] -/
  purpose : Nat := 0
  /-- time the erase last started or resumed [R445 14] -/
  resumedAt : Nat := 0
  deriving DecidableEq, Repr

/-- SlateOp at reset. -/
abbrev SlateOp.reset : SlateOp := {}

/-- A parameter record, newest valid copy (R451, R452). -/
structure ParamRec where
  /-- TYPE [R451 14] -/
  typ : Nat := 0
  /-- RSEQ [R451 14] -/
  rseq : Nat := 0
  /-- T_WRITE [R451 14] -/
  tWrite : Nat := 0
  /-- parameter sector that holds it [R453 14] -/
  sector : Nat := 0
  /-- record lines of 16 bytes, without the completion line [R451 14] -/
  len : Nat := 0
  deriving DecidableEq, Repr

/-- ParamRec at reset. -/
abbrev ParamRec.reset : ParamRec := {}

/-- An event store record (R455). -/
structure EvtRec where
  /-- TYPE [R455 14] -/
  typ : Nat := 0
  /-- RSEQ [R455 14] -/
  rseq : Nat := 0
  /-- event store sector 0 to 2 [R455 14] -/
  sector : Nat := 0
  /-- bytes with its completion line [R455 14] -/
  size : Nat := 0
  /-- its first line (address / 16) [R455 14] -/
  line : Nat := 0
  deriving DecidableEq, Repr

/-- EvtRec at reset. -/
abbrev EvtRec.reset : EvtRec := {}

/-- Slate of one tile (ch. 14). -/
structure SlateTile where
  /-- STALL_OK [R434 14] -/
  stallOk : Bool := false
  /-- DONE_IRQ [R434 14] -/
  doneIrq : Bool := false
  /-- supervisor interrupt raised under DONE_IRQ [R434 14] -/
  irq : Bool := false
  /-- unlock step: 0 none, 1 first key, 2 ARMED [R436 14] -/
  keyStep : Nat := 0
  /-- time of the first key [R436 14] -/
  keyAt : Nat := 0
  /-- SLATE_CMD.CODE, the last code accepted [R434 14] -/
  code : Nat := 0
  /-- code accepted and awaiting its operands [R436 14] -/
  seq : Option Nat := none
  /-- time of that code's write [R436 14] -/
  seqAt : Nat := 0
  /-- operands written so far [R436 14] -/
  opIdx : Nat := 0
  /-- SLATE_ADDR [R434 14] -/
  addr : Nat := 0
  /-- SLATE_DATA0 [R434 14] -/
  data0 : BitVec 64 := 0
  /-- SLATE_DATA1 [R434 14] -/
  data1 : BitVec 64 := 0
  /-- DONE [R434 14] -/
  done : Bool := false
  /-- FAIL [R434 14] -/
  fail : Bool := false
  /-- UNDERRUN [R434 14] -/
  underrun : Bool := false
  /-- RDERR [R434 14] -/
  rdErr : Bool := false
  /-- ERR [R435 14] -/
  err : Nat := 0
  /-- SLATE_RES.VALUE [R434 14] -/
  res : Nat := 0
  /-- SLATE_RDLY.TAP [R442 14] -/
  tap : Nat := 15
  /-- CE_COUNT [R434 14] -/
  ceCount : Nat := 0
  /-- UE_COUNT [R434 14] -/
  ueCount : Nat := 0
  /-- UNDERRUNS [R434 14] -/
  underruns : Nat := 0
  /-- operation of each bank [R433 14] -/
  ops : Tbl SlateOp := []
  /-- BANK of the last operation [R434 14] -/
  lastBank : Nat := 0
  /-- programmed lines of the array, by line number [R431 R441 14] -/
  lines : Tbl (BitVec 128) := []
  /-- lines that read uncorrectable [R441 14] -/
  badLines : List Nat := []
  /-- erase counters [R447 14] -/
  counters : Tbl Nat := []
  /-- active intent sector [R449 14] -/
  intentSector : Nat := 0
  /-- parameter records [R454 14] -/
  recs : Tbl ParamRec := []
  /-- record writes waiting [R453 14] -/
  pend : List Nat := []
  /-- event store records, newest first [R455 14] -/
  store : List EvtRec := []
  /-- current event store sector [R455 14] -/
  storeSector : Nat := 0
  /-- sectors for which "Slate sector worn" has been raised [R448 14] -/
  worn : List Nat := []
  /-- main sectors that failed [R448 14] -/
  badSectors : List Nat := []
  /-- time of the last completed erase [R457 14] -/
  lastErase : Tbl Nat := []
  /-- time of the last margin verify [R457 14] -/
  lastVerify : Tbl Nat := []
  /-- sector under refresh [R457 14] -/
  refresh : Option Nat := none
  /-- contents of the main sector under refresh, held in the supervisor working state [R458 14] -/
  refreshImg : Tbl (BitVec 128) := []
  deriving DecidableEq, Repr

/-- SlateTile at reset. -/
abbrev SlateTile.reset : SlateTile := {}

/-- An update state record 0067h (R463). -/
structure UpdRec where
  /-- RUN_SLOT [R463 15] -/
  runSlot : Nat := 0
  /-- STATE_A [R464 15] -/
  stateA : Nat := 1
  /-- STATE_B [R464 15] -/
  stateB : Nat := 0
  /-- TRY_SLOT [R463 15] -/
  trySlot : Option Nat := none
  /-- TRIES [R463 15] -/
  tries : Nat := 0
  /-- REVERT [R463 15] -/
  revert : Bool := false
  /-- CONFIRMING [R463 15] -/
  confirming : Bool := false
  /-- BEDROCK_REQ [R463 15] -/
  bedrockReq : Bool := false
  /-- NEW_TWIN [R463 15] -/
  newTwin : Bool := false
  /-- OWNER [R463 15] -/
  owner : Nat := 255
  /-- REVERT_CAUSE [R463 15] -/
  revertCause : Nat := 0
  /-- OWNER_UID [R463 15] -/
  ownerUid : Nat := 0
  /-- VERSION_A [R463 15] -/
  verA : Nat := 0
  /-- VERSION_B [R463 15] -/
  verB : Nat := 0
  /-- SVN_A [R463 15] -/
  svnA : Nat := 0
  /-- SVN_B [R463 15] -/
  svnB : Nat := 0
  /-- COMMITTED [R463 15] -/
  committed : Nat := 0
  /-- HDR_DIG [R463 15] -/
  hdrDig : Nat := 0
  /-- T_ACTIVATE [R463 15] -/
  tActivate : Nat := 0
  /-- T_TRY [R463 15] -/
  tTry : Nat := 0
  deriving DecidableEq, Repr

/-- UpdRec at reset. -/
abbrev UpdRec.reset : UpdRec := {}

/-- The header fields of a firmware image (R460). -/
structure ImgHdr where
  /-- MAGIC [R460 15] -/
  magic : Nat := 0
  /-- HDR_VERSION [R460 15] -/
  hdrVersion : Nat := 0
  /-- PART [R460 15] -/
  part : Nat := 0
  /-- IMAGE_VERSION [R460 15] -/
  version : Nat := 0
  /-- SVN [R460 15] -/
  svn : Nat := 0
  /-- KEY_INDEX [R460 15] -/
  keyIndex : Nat := 0
  /-- FLAGS [R460 15] -/
  flags : BitVec 16 := 0
  /-- MAIN_LENGTH [R460 15] -/
  mainLen : Nat := 0
  /-- BOOT_LENGTH [R460 15] -/
  bootLen : Nat := 0
  /-- LOADER_VERSION [R460 15] -/
  loaderVersion : Nat := 0
  /-- LOADER_MIN [R460 15] -/
  loaderMin : Nat := 0
  /-- SETTINGS_FORMAT [R460 15] -/
  settings : Nat := 0
  deriving DecidableEq, Repr

/-- ImgHdr at reset. -/
abbrev ImgHdr.reset : ImgHdr := {}

/-- A firmware transfer (R465 to R470). -/
structure Xfer where
  /-- a transfer is open [R465 15] -/
  active : Bool := false
  /-- over PLDM [R467 15] -/
  pldm : Bool := false
  /-- slot written [R467 15] -/
  slot : Nat := 1
  /-- header of the image [R460 15] -/
  hdr : ImgHdr := ImgHdr.reset
  /-- bytes of the file durable on every tile [R468 15] -/
  durable : Nat := 0
  /-- file offset of the chunk being programmed [R468 15] -/
  chunkAt : Option Nat := none
  /-- its length [R468 15] -/
  chunkLen : Nat := 0
  /-- bytes of the chunk being programmed [R468 15] -/
  chunk : List (BitVec 8) := []
  /-- principal that sends the transfer [R465 15] -/
  by_ : Nat := 2
  /-- the slot's sectors stand erased for this transfer [R468 15] -/
  erased : Bool := false
  /-- slot state, HDR_DIG and COMMITTED before the header, until the erase [R479 15] -/
  prev : Option (Nat × Nat × Nat) := none
  /-- bytes pulled before the header is whole [R467 15] -/
  hdrBuf : List (BitVec 8) := []
  /-- request size of the PLDM pull [R467 15] -/
  maxReq : Nat := 4096
  /-- time of the owner's last update command [R466 15] -/
  last : Nat := 0
  /-- the last byte has been acknowledged; verification runs [R470 15] -/
  ended : Bool := false
  deriving DecidableEq, Repr

/-- Xfer at reset. -/
abbrev Xfer.reset : Xfer := {}

/-- Firmware update and recovery (ch. 15). -/
structure Update where
  /-- update state records of the tiles [R463 15] -/
  recs : Tbl UpdRec := []
  /-- security version floor of each tile [R462 15] -/
  floor : Tbl Nat := []
  /-- revocation bits of each tile [R462 15] -/
  revoked : Tbl (BitVec 4) := []
  /-- slot each tile runs [R474 15] -/
  running : Tbl Nat := []
  /-- transfer [R465 15] -/
  xfer : Xfer := Xfer.reset
  /-- CONFIRM_MODE [R429 13] -/
  confirmMode : Bool := false
  /-- C4E2h received in this boot [R476 15] -/
  confirmRx : Bool := false
  /-- ns of the confirmation window remaining [R476 15] -/
  windowLeft : Nat := 0
  /-- Quartz time from which it runs now; none while paused or closed [R476 15] -/
  windowFrom : Option Nat := none
  /-- copies in the old settings format are kept [R471 15] -/
  keepOld : Bool := false
  /-- version of the loader that runs [R461 15] -/
  loader : Nat := 0
  /-- cause of Bedrock [R483 15] -/
  bedCause : Nat := 0
  /-- BR_TILES [R485 15] -/
  brTiles : BitVec 8 := 255
  /-- BR_ADDR [R485 15] -/
  brAddr : Nat := 0
  /-- BR_VRES of each tile for slot A, slot B, twin A, twin B [R485 15] -/
  vres : Tbl Nat := []
  /-- slot or twin of the last BR_VERIFY [R485 15] -/
  brTarget : Nat := 0
  /-- Bedrock events to be posted at the next early open [R487 15] -/
  brEvents : Bool := false
  deriving DecidableEq, Repr

/-- Update at reset. -/
abbrev Update.reset : Update := {}

/-- Standby logic, pins, rails and panel (ch. 16). -/
structure Panel where
  /-- VAUX above its threshold [R491 16] -/
  vaux : Bool := false
  /-- PWR_FAIL_N, filtered [R80 03] -/
  pwrFailN : Bool := true
  /-- VIN_SENSE above its threshold, filtered [R80 03] -/
  vinOk : Bool := false
  /-- time since which both inputs have been good [R99 03] -/
  goodSince : Option Nat := none
  /-- mains good [R99 03] -/
  mainsGood : Bool := false
  /-- standby time since which mains has been not good [R494 16] -/
  notGoodAt : Option Nat := some 0
  /-- mains has been not good for 1 s since stage 6 [R494 16] -/
  freshOk : Bool := false
  /-- time RESET_N was asserted [R101 03] -/
  resetNAt : Option Nat := none
  /-- the 2 s forced reset of this assertion has been taken [R101 03] -/
  resetTaken : Bool := false
  /-- PWR_EN [R491 16] -/
  pwrEn : Bool := false
  /-- rails enabled, in the order of R491 step 3 [R491 16] -/
  rails : Nat := 0
  /-- rails that report good [R491 16] -/
  railsGood : Nat := 0
  /-- time of the last enable [R491 16] -/
  railAt : Nat := 0
  /-- reference reported good [R491 16] -/
  refGood : Bool := false
  /-- core reset released [R491 16] -/
  coreUp : Bool := false
  /-- failed power-up attempts [R492 16] -/
  attempts : Nat := 0
  /-- latched causes, by rail index (5 the reference) [R492 16] -/
  failCauses : List Nat := []
  /-- time of the failed attempt awaiting its retry [R492 16] -/
  retryAt : Option Nat := none
  /-- a package reset is due and takes place at the next PACKAGE_RESET [R497 16] -/
  resetDue : Bool := false
  /-- power-up failed three times [R492 R502 16] -/
  failedRestart : Bool := false
  /-- cause of the seal that led to stage 6 [R494 16] -/
  sealCause : Option Nat := none
  /-- STRAP_BEDROCK as sampled [R490 16] -/
  strapBedrock : Bool := false
  /-- STRAP_SMBADDR as sampled [R490 16] -/
  strapSmb : Nat := 0
  /-- STRAP_NOLAT as sampled [R490 16] -/
  strapNoLat : Bool := false
  /-- STRAP_TEST as sampled [R490 16] -/
  strapTest : Nat := 0
  /-- time the module button press began [R501 16] -/
  btnAt : Option Nat := none
  /-- button stuck [R501 16] -/
  btnStuck : Bool := false
  /-- time a stuck button was released [R501 16] -/
  btnReleased : Option Nat := none
  /-- end of the identify indication [R501 16] -/
  identifyUntil : Option Nat := none
  /-- end of the refused Hold indication [R502 16] -/
  refusedUntil : Option Nat := none
  /-- removal flow: 0 none, 1 waits for a test seal, 2 drain, 3 seal [R503 16] -/
  removal : Nat := 0
  /-- start of the drain [R503 16] -/
  drainAt : Nat := 0
  /-- time each bay's touch began [R500 16] -/
  touchAt : Tbl Nat := []
  /-- bays whose electrode is stuck [R500 16] -/
  touchStuck : List Nat := []
  /-- baseline of each electrode [R500 16] -/
  touchBase : Tbl Nat := []
  /-- F_WP_N asserted on every ONFI channel [R489 16] -/
  fWpN : Bool := true
  /-- DDR_RST_N asserted [R489 16] -/
  ddrRst : Bool := true
  /-- SMB_ALERT_N asserted [R488 16] -/
  sdAlert : Bool := false
  /-- serial number [R415 13] -/
  serial : Nat := 1
  deriving DecidableEq, Repr

/-- Panel at reset. -/
abbrev Panel.reset : Panel := {}

/-- Everything but the command queue. -/
structure Dev where
  /-- DRAM contents visible by DPA, as cells in canonical form [R34 R114 R121 01 04] -/
  mem : Mem := []
  /-- package role, mesh, operating point, tiles [R14 00] -/
  pkg : Pkg := {}
  /-- exposure tracker and governor [R41 02] -/
  expo : Expo := {}
  /-- sealing [R79 03] -/
  sealing : Seal := {}
  /-- restore [R109 04] -/
  restore : Restore := {}
  /-- Strata, package-wide tables [R134 05] -/
  strata : Strata := {}
  /-- flash bookkeeping of the tiles [R135 05] -/
  flash : Tbl TileFlash := []
  /-- contexts, Region Table, rings [R173 06] -/
  ctxs : Ctxs := {}
  /-- DRAM channels and ranks [R212 07] -/
  dram : Dram := {}
  /-- packs, bridge, gauge [R254 08] -/
  energy : Energy := {}
  /-- thermal sensing [R290 09] -/
  therm : Therm := {}
  /-- fault collection [R310 10] -/
  flint : Flint := {}
  /-- timebase [R337 11] -/
  qtz : Qtz := {}
  /-- snapshot unit [R353 11] -/
  snap : Snap := {}
  /-- lattice [R361 12] -/
  lat : Lat := {}
  /-- CXL heads H0 and H1 [R30 R397 01 13] -/
  heads : Tbl HeadSt := []
  /-- command interface [R402 13] -/
  jcs : JcsSt := {}
  /-- Slate of the tiles [R431 14] -/
  slate : Tbl SlateTile := []
  /-- firmware update and recovery [R460 15] -/
  upd : Update := {}
  /-- standby logic, pins, panel [R488 16] -/
  panel : Panel := {}
  /-- package state as mirrored into the deputy [R18 01] -/
  mirror : Mirror := {}
  /-- Direct Window registers, by offset, as last updated [R412 13] -/
  dw : Tbl (BitVec 64) := []
  /-- what the block has sent to its surroundings, newest first [model] -/
  out : List Out := []
  /-- index of the next free value [model] -/
  freeN : Nat := 0
  deriving DecidableEq, Repr

/-- Dev at reset. -/
abbrev Dev.reset : Dev := {}

/-- The block: the commands that wait, first in, first out, and everything else. -/
structure State where
  /-- Commands waiting, the next one first. -/
  pending : List Instr := []
  /-- Everything but the queue. -/
  dev : Dev := {}
  deriving DecidableEq, Repr

/-- The block right after reset: no command waits, and every register holds its reset value. -/
def State.reset : State := { pending := [], dev := {} }

end Sys2Proof.Machine
end

