-- ==== Sys2Proof/Machine/Parts.lean ====
section
/-! DEFINITION. One update operation per part of the state, over which every meaning is written. -/

namespace Sys2Proof.Machine

/-- Change `mem` and nothing else. -/
def Dev.onMem (d : Dev) (f : Mem → Mem) : Dev := { d with mem := f d.mem }

/-- Change `pkg` and nothing else. -/
def Dev.onPkg (d : Dev) (f : Pkg → Pkg) : Dev := { d with pkg := f d.pkg }

/-- Change `expo` and nothing else. -/
def Dev.onExpo (d : Dev) (f : Expo → Expo) : Dev := { d with expo := f d.expo }

/-- Change `sealing` and nothing else. -/
def Dev.onSealing (d : Dev) (f : Seal → Seal) : Dev := { d with sealing := f d.sealing }

/-- Change `restore` and nothing else. -/
def Dev.onRestore (d : Dev) (f : Restore → Restore) : Dev := { d with restore := f d.restore }

/-- Change `strata` and nothing else. -/
def Dev.onStrata (d : Dev) (f : Strata → Strata) : Dev := { d with strata := f d.strata }

/-- Change `flash` and nothing else. -/
def Dev.onFlash (d : Dev) (f : (Tbl TileFlash) → Tbl TileFlash) : Dev := { d with flash := f d.flash }

/-- Change `ctxs` and nothing else. -/
def Dev.onCtxs (d : Dev) (f : Ctxs → Ctxs) : Dev := { d with ctxs := f d.ctxs }

/-- Change `dram` and nothing else. -/
def Dev.onDram (d : Dev) (f : Dram → Dram) : Dev := { d with dram := f d.dram }

/-- Change `energy` and nothing else. -/
def Dev.onEnergy (d : Dev) (f : Energy → Energy) : Dev := { d with energy := f d.energy }

/-- Change `therm` and nothing else. -/
def Dev.onTherm (d : Dev) (f : Therm → Therm) : Dev := { d with therm := f d.therm }

/-- Change `flint` and nothing else. -/
def Dev.onFlint (d : Dev) (f : Flint → Flint) : Dev := { d with flint := f d.flint }

/-- Change `qtz` and nothing else. -/
def Dev.onQtz (d : Dev) (f : Qtz → Qtz) : Dev := { d with qtz := f d.qtz }

/-- Change `snap` and nothing else. -/
def Dev.onSnap (d : Dev) (f : Snap → Snap) : Dev := { d with snap := f d.snap }

/-- Change `lat` and nothing else. -/
def Dev.onLat (d : Dev) (f : Lat → Lat) : Dev := { d with lat := f d.lat }

/-- Change `heads` and nothing else. -/
def Dev.onHeads (d : Dev) (f : (Tbl HeadSt) → Tbl HeadSt) : Dev := { d with heads := f d.heads }

/-- Change `jcs` and nothing else. -/
def Dev.onJcs (d : Dev) (f : JcsSt → JcsSt) : Dev := { d with jcs := f d.jcs }

/-- Change `slate` and nothing else. -/
def Dev.onSlate (d : Dev) (f : (Tbl SlateTile) → Tbl SlateTile) : Dev := { d with slate := f d.slate }

/-- Change `upd` and nothing else. -/
def Dev.onUpd (d : Dev) (f : Update → Update) : Dev := { d with upd := f d.upd }

/-- Change `panel` and nothing else. -/
def Dev.onPanel (d : Dev) (f : Panel → Panel) : Dev := { d with panel := f d.panel }

/-- Change `mirror` and nothing else. -/
def Dev.onMirror (d : Dev) (f : Mirror → Mirror) : Dev := { d with mirror := f d.mirror }

/-- Change `dw` and nothing else. -/
def Dev.onDw (d : Dev) (f : (Tbl (BitVec 64)) → Tbl (BitVec 64)) : Dev := { d with dw := f d.dw }

/-- Change `out` and nothing else. -/
def Dev.onOut (d : Dev) (f : (List Out) → List Out) : Dev := { d with out := f d.out }

/-- Change `freeN` and nothing else. -/
def Dev.onFreeN (d : Dev) (f : Nat → Nat) : Dev := { d with freeN := f d.freeN }

end Sys2Proof.Machine
end

