-- ==== Sys2Proof/Machine/Ops.lean ====
section
/-! DEFINITION. The named operations every meaning is written over: tables, DRAM contents, time, the Direct Window
snapshot registers, messages to Flint, and what the block sends out. -/

namespace Sys2Proof.Machine

/-! ### Tables -/

/-- The entry of a table at key `k`; `dflt` where it lists none. -/
def tget {α : Type} (t : Tbl α) (dflt : α) (k : Nat) : α :=
  match t with
  | [] => dflt
  | e :: r => if e.1 = k then e.2 else tget r dflt k

/-- Set the entry at key `k`; keys stay in rising order. -/
def tset {α : Type} (t : Tbl α) (k : Nat) (v : α) : Tbl α :=
  match t with
  | [] => [(k, v)]
  | e :: r => if k < e.1 then (k, v) :: e :: r else if e.1 = k then (k, v) :: r else e :: tset r k v

/-- Change the entry at key `k`. -/
def tmod {α : Type} (t : Tbl α) (dflt : α) (k : Nat) (f : α → α) : Tbl α := tset t k (f (tget t dflt k))

/-- Remove the entry at key `k`. -/
def tdel {α : Type} (t : Tbl α) (k : Nat) : Tbl α := t.filter fun e => e.1 != k

/-- Whether the table lists key `k`. -/
def thas {α : Type} (t : Tbl α) (k : Nat) : Bool := t.any fun e => e.1 == k

/-- Add a number to a list that holds each number once. -/
def addOnce (l : List Nat) (n : Nat) : List Nat := if l.contains n then l else l ++ [n]

/-- Bit `i` of a mask. -/
def mbit {w : Nat} (m : BitVec w) (i : Nat) : Bool := m.getLsbD i

/-- Set bit `i` of a mask. -/
def mset {w : Nat} (m : BitVec w) (i : Nat) : BitVec w := m ||| BitVec.ofNat w (2 ^ i)

/-- Clear bit `i` of a mask. -/
def mclr {w : Nat} (m : BitVec w) (i : Nat) : BitVec w := m &&& ~~~(BitVec.ofNat w (2 ^ i))

/-- A mask of tiles. -/
def maskOf (ts : List Nat) : BitVec 8 := ts.foldl (fun m t => mset m t) 0

/-- The tiles, T0 to T7. -/
def tiles8 : List Nat := [0, 1, 2, 3, 4, 5, 6, 7]

/-- The sum of `f` over a list. -/
def sumBy {α : Type} (l : List α) (f : α → Nat) : Nat := l.foldl (fun a x => a + f x) 0

/-- Insert before the first element that `x` may precede. -/
def insertLe {α : Type} (le : α → α → Bool) (x : α) : List α → List α
  | [] => [x]
  | y :: r => if le x y then x :: y :: r else y :: insertLe le x r

/-- A list in the order `le`; elements that are equal in it keep their order. -/
def sortLe {α : Type} (le : α → α → Bool) : List α → List α
  | [] => []
  | x :: r => insertLe le x (sortLe le r)

/-- The largest of `f` over a list, at least `z`. -/
def maxBy {α : Type} (l : List α) (z : Nat) (f : α → Nat) : Nat := l.foldl (fun a x => max a (f x)) z

/-- The first element with the least `f`. -/
def argMin {α : Type} (l : List α) (f : α → Nat) : Option α :=
  l.foldl (fun a x => match a with
    | none => some x
    | some y => if f x < f y then some x else some y) none

/-! ### DRAM contents -/

/-- The canonical form: addresses strictly rising, and no entry equal to what an unlisted address reads as. -/
def Mem.wf : Mem → Bool
  | [] => true
  | [c] => c.2 != 0
  | c :: e :: r => c.2 != 0 && decide (c.1 < e.1) && Mem.wf (e :: r)

/-- One byte: an unlisted address reads zero. -/
def Mem.byte (m : Mem) (a : Nat) : Byte := tget m 0 a

/-- Write one byte, keeping the canonical form: zero removes the entry. -/
def Mem.setByte (m : Mem) (a : Nat) (b : Byte) : Mem :=
  match m with
  | [] => if b = 0 then [] else [(a, b)]
  | e :: r =>
    if a < e.1 then (if b = 0 then e :: r else (a, b) :: e :: r)
    else if e.1 = a then (if b = 0 then r else (a, b) :: r)
    else e :: Mem.setByte r a b

/-- `n` bytes from address `a`, least first. -/
def Mem.bytes (m : Mem) (a : Nat) : Nat → List Byte
  | 0 => []
  | n + 1 => m.byte a :: Mem.bytes m (a + 1) n

/-- Write bytes from address `a` up. -/
def Mem.setBytes (m : Mem) (a : Nat) (bs : List Byte) : Mem :=
  match bs with
  | [] => m
  | b :: r => Mem.setBytes (m.setByte a b) (a + 1) r

/-- Zero every byte of `[a, a + n)`. -/
def Mem.clear (m : Mem) (a n : Nat) : Mem := m.filter fun c => decide (c.1 < a) || decide (a + n ≤ c.1)

/-- The cells of `[a, a + n)`. -/
def Mem.slice (m : Mem) (a n : Nat) : Mem := m.filter fun c => decide (a ≤ c.1) && decide (c.1 < a + n)

/-- Write the cells of a saved image over a cleared range. -/
def Mem.load (m : Mem) (img : Mem) : Mem := img.foldl (fun acc c => acc.setByte c.1 c.2) m

/-- The 64-byte line at line index `l` (DPA[44:6]), byte 0 in the low bits (R7). -/
def Mem.line (m : Mem) (l : Nat) : BitVec 512 := BitVec.ofNat 512 (leNat (m.bytes (l * 64) 64))

/-- The bytes of a line that a write with byte enables `mask` changes. -/
def lineWrites (l : Nat) (data : BitVec 512) (mask : BitVec 64) : List (Nat × Byte) :=
  ((List.range 64).filter fun i => mbit mask i).map fun i => (l * 64 + i, data.extractLsb' (8 * i) 8)

/-- Write the enabled bytes of a line (R41). -/
def Mem.setLine (m : Mem) (l : Nat) (data : BitVec 512) (mask : BitVec 64) : Mem :=
  (lineWrites l data mask).foldl (fun acc c => acc.setByte c.1 c.2) m

/-! ### Time (R12, R338, R345) -/

/-- The time by which durations are measured: the Quartz count while it runs, the standby count otherwise (R12). -/
def Dev.now (d : Dev) : Nat := if d.qtz.running then d.qtz.count else d.qtz.standby

/-- The time since `t0`. -/
def Dev.since (d : Dev) (t0 : Nat) : Nat := d.now - t0

/-- Advance the Quartz count by `dt` ns of the reference (R338): by the rate correction while the reference is good, and
uncorrected while it is lost (R341). -/
def qtzAdvance (q : Qtz) (dt : Nat) : Qtz :=
  if q.running then
    let r : Int := if q.refLost then 0 else q.rate
    let total : Int := (q.frac : Int) + ((dt : Int) * (1000000000 + r) * 4294967296) / 1000000000
    let t := total.toNat
    { q with count := q.count + t / 4294967296, frac := t % 4294967296 }
  else q

/-- The standby count advances by 30,517.578125 ns, with a 6-bit fraction, at each tick of the 32.768 kHz domain (R345). -/
def rtcAdvance (q : Qtz) (dt : Nat) : Qtz :=
  let total := q.rtcRem + dt * 32768
  let ticks := total / 1000000000
  let f := q.standbyFrac + ticks * 37
  { q with standby := q.standby + ticks * 30517 + f / 64, standbyFrac := f % 64, rtcRem := total % 1000000000 }

/-- The time root brings LOFF towards OFFSET, by at most 50 ns for each millisecond of the count, while OFS_VALID is 1 and they differ
by at most 1 s (R352). -/
def loffSlew (q : Qtz) : Qtz :=
  let e := q.offset - q.loff
  if q.isRoot && q.hasTime && q.ofsValid && decide (e ≤ 1000000000) && decide (-1000000000 ≤ e) then
    let k : Int := 50 * (((q.count - q.loffAt) / 1000000 : Nat) : Int)
    { q with loff := q.loff + max (-k) (min k e), loffAt := q.loffAt + (q.count - q.loffAt) / 1000000 * 1000000 }
  else { q with loffAt := q.count }

/-- Time passes: `dt` ns of the reference for the count, lattice time and the standby count. -/
def Dev.elapse (d : Dev) (dt : Nat) : Dev := d.onQtz fun q => rtcAdvance (loffSlew (qtzAdvance q dt)) dt

/-! ### Direct Window snapshot registers -/

/-- Write a Direct Window register as one 64-bit update (R26). -/
def Dev.dwSet (d : Dev) (off : Nat) (v : Nat) : Dev := d.onDw fun t => tset t off (BitVec.ofNat 64 v)

/-- A Direct Window register as last updated; `dflt` its reset value. -/
def Dev.dwGet (d : Dev) (off : Nat) (dflt : Nat) : Nat := (tget d.dw (BitVec.ofNat 64 dflt) off).toNat

/-- Update a register whose SEQ stands in bits `[63 : 64 - w]`: the fields given, and SEQ advanced by one modulo `2 ^ w`
(R522). -/
def Dev.dwUpd (d : Dev) (off w fields : Nat) : Dev :=
  let seq := bits (d.dwGet off 0) (64 - w) w
  d.dwSet off (fields % 2 ^ (64 - w) + put (64 - w) w (seq + 1))

/-- A periodic update falls due: the Quartz time has reached a whole multiple of `p` ns since the update before it; `k` numbers the registers
(R522). -/
def Dev.tickDue (d : Dev) (k p : Nat) : Bool := decide (tget d.pkg.lastTick 0 k < d.now / p)

/-- The periodic update `f` of the registers `k`, if it is due (R522). -/
def Dev.periodic (d : Dev) (k p : Nat) (f : Dev → Dev) : Dev :=
  if d.tickDue k p then f (d.onPkg fun x => { x with lastTick := tset x.lastTick k (d.now / p) }) else d

/-! ### What the block sends, and free values -/

/-- Send something to the surroundings. -/
def Dev.emit (d : Dev) (o : Out) : Dev := d.onOut fun l => o :: l

/-- The next index of the free values. -/
def Dev.tick (d : Dev) : Dev := d.onFreeN fun n => n + 1

/-! ### Accessors of the numbered parts -/

/-- Tile `t`'s state of chapter 01. -/
def Dev.tile (d : Dev) (t : Nat) : TileSt := tget d.pkg.tiles {} t
/-- Change tile `t`. -/
def Dev.onTile (d : Dev) (t : Nat) (f : TileSt → TileSt) : Dev := d.onPkg fun p => { p with tiles := tmod p.tiles {} t f }
/-- Head `h`. -/
def Dev.head (d : Dev) (h : Nat) : HeadSt := tget d.heads {} h
/-- Change head `h`. -/
def Dev.onHead (d : Dev) (h : Nat) (f : HeadSt → HeadSt) : Dev := d.onHeads fun t => tmod t {} h f
/-- Flash bookkeeping of tile `t`. -/
def Dev.fl (d : Dev) (t : Nat) : TileFlash := tget d.flash {} t
/-- Change the flash bookkeeping of tile `t`. -/
def Dev.onFl (d : Dev) (t : Nat) (f : TileFlash → TileFlash) : Dev := d.onFlash fun x => tmod x {} t f
/-- Context `c`. -/
def Dev.ctx (d : Dev) (c : Nat) : Ctx := tget d.ctxs.tbl {} c
/-- Change context `c`. -/
def Dev.onCtx (d : Dev) (c : Nat) (f : Ctx → Ctx) : Dev := d.onCtxs fun x => { x with tbl := tmod x.tbl {} c f }
/-- Ring `k` of context `c`. -/
def Dev.ring (d : Dev) (c k : Nat) : Ring := tget (d.ctx c).rings {} k
/-- Change ring `k` of context `c`. -/
def Dev.onRing (d : Dev) (c k : Nat) (f : Ring → Ring) : Dev := d.onCtx c fun x => { x with rings := tmod x.rings {} k f }
/-- The Region Table entry of granule `g`. -/
def Dev.gran (d : Dev) (g : Nat) : Granule := tget d.ctxs.rt {} g
/-- Change the Region Table entry of granule `g`. -/
def Dev.onGran (d : Dev) (g : Nat) (f : Granule → Granule) : Dev := d.onCtxs fun x => { x with rt := tmod x.rt {} g f }
/-- DRAM channel `c` of tile `t`. -/
def Dev.chan (d : Dev) (t c : Nat) : Chan := tget d.dram.chans {} (t * 4 + c)
/-- Change DRAM channel `c` of tile `t`. -/
def Dev.onChan (d : Dev) (t c : Nat) (f : Chan → Chan) : Dev := d.onDram fun x => { x with chans := tmod x.chans {} (t * 4 + c) f }
/-- Rank entry `e` of tile `t`: its physical rank's error state. -/
def Dev.rank (d : Dev) (t e : Nat) : Rank := tget d.dram.ranks {} (t * 16 + e)
/-- Change the error state of rank `e` of tile `t`. -/
def Dev.onRank (d : Dev) (t e : Nat) (f : Rank → Rank) : Dev := d.onDram fun x => { x with ranks := tmod x.ranks {} (t * 16 + e) f }
/-- Steering entry `e` of tile `t`. -/
def Dev.steer (d : Dev) (t e : Nat) : Steer := tget d.dram.steer {} (t * 16 + e)
/-- Change steering entry `e` of tile `t`. -/
def Dev.onSteer (d : Dev) (t e : Nat) (f : Steer → Steer) : Dev := d.onDram fun x => { x with steer := tmod x.steer {} (t * 16 + e) f }
/-- Gauge source `s`: 0 bay A, 1 bay B, 2 bridge. -/
def Dev.src (d : Dev) (s : Nat) : SourceSt := tget d.energy.src {} s
/-- Change gauge source `s`. -/
def Dev.onSrc (d : Dev) (s : Nat) (f : SourceSt → SourceSt) : Dev := d.onEnergy fun x => { x with src := tmod x.src {} s f }
/-- Bay `b`. -/
def Dev.bay (d : Dev) (b : Nat) : PackSt := tget d.energy.pack {} b
/-- Change bay `b`. -/
def Dev.onBay (d : Dev) (b : Nat) (f : PackSt → PackSt) : Dev := d.onEnergy fun x => { x with pack := tmod x.pack {} b f }
/-- Temperature sensor `n`. -/
def Dev.sens (d : Dev) (n : Nat) : Sensor := tget d.therm.sens {} n
/-- Change sensor `n`. -/
def Dev.onSens (d : Dev) (n : Nat) (f : Sensor → Sensor) : Dev := d.onTherm fun x => { x with sens := tmod x.sens {} n f }
/-- The default thresholds of a board input, °C: warning, throttle, shutdown (R293). -/
def boardDefault (n : Nat) : BoardIn :=
  if n < 4 then { warn := 80, thr := 88, shut := 95 }
  else if n < 6 then { warn := 65, thr := 75, shut := 85 }
  else if n = 6 then { warn := 55 }
  else { warn := 40, shut := 55 }
/-- Board input `n`, 0 to 7 for the numbers 40h to 47h. -/
def Dev.boardIn (d : Dev) (n : Nat) : BoardIn := tget d.therm.board (boardDefault n) n
/-- Change a board input. -/
def Dev.onBoardIn (d : Dev) (n : Nat) (f : BoardIn → BoardIn) : Dev :=
  d.onTherm fun x => { x with board := tmod x.board (boardDefault n) n f }
/-- Throttle state of tile `t`. -/
def Dev.ttile (d : Dev) (t : Nat) : ThermTile := tget d.therm.tile {} t
/-- Change the throttle state of tile `t`. -/
def Dev.onTtile (d : Dev) (t : Nat) (f : ThermTile → ThermTile) : Dev := d.onTherm fun x => { x with tile := tmod x.tile {} t f }
/-- Flint collector `c`. -/
def Dev.coll (d : Dev) (c : Nat) : Collector := tget d.flint.coll {} c
/-- Change Flint collector `c`. -/
def Dev.onColl (d : Dev) (c : Nat) (f : Collector → Collector) : Dev := d.onFlint fun x => { x with coll := tmod x.coll {} c f }
/-- Lattice link `l`. -/
def Dev.link (d : Dev) (l : Nat) : LinkSt := tget d.lat.links {} l
/-- Change lattice link `l`. -/
def Dev.onLink (d : Dev) (l : Nat) (f : LinkSt → LinkSt) : Dev := d.onLat fun x => { x with links := tmod x.links {} l f }
/-- Slate of tile `t`. -/
def Dev.sl (d : Dev) (t : Nat) : SlateTile := tget d.slate {} t
/-- Change Slate of tile `t`. -/
def Dev.onSl (d : Dev) (t : Nat) (f : SlateTile → SlateTile) : Dev := d.onSlate fun x => tmod x {} t f
/-- Update record of tile `t`. -/
def Dev.urec (d : Dev) (t : Nat) : UpdRec := tget d.upd.recs {} t
/-- Change the update record of tile `t`. -/
def Dev.onUrec (d : Dev) (t : Nat) (f : UpdRec → UpdRec) : Dev := d.onUpd fun x => { x with recs := tmod x.recs {} t f }

/-! ### Messages to Flint (R310, R313, R321) -/

/-- Source ID of offset `o` on tile `t` (R313). -/
def tsrc (t o : Nat) : Nat := t * 96 + o

/-- The collector of a source: its tile's for a tile source, the package collector otherwise. -/
def collOf (src : Nat) : Nat := if src < 768 then src / 96 else 8

/-- A message reaches its collector's input stage (R321): Urgent and Fatal ones on the reserved lane; another that finds
the 64 entries full is lost and counted. -/
def Dev.deliver (d : Dev) (m : FlintMsg) : Dev :=
  let c := collOf m.src
  if 4 ≤ m.sev then d.onColl c fun x => { x with urgent := x.urgent ++ [m] }
  else if (d.coll c).input.length < 64 then d.onColl c fun x => { x with input := x.input ++ [m] }
  else (d.onColl c fun x => { x with lostBefore := true, lostSince := x.lostSince + 1 }).onFlint
    fun x => { x with lost := satInc 20 x.lost }

/-- A detector's message: source, kind code, severity, and what is known beside. `tile` names the tile concerned of a
package source; none is the tile that holds the package role (R310). -/
def Dev.raise (d : Dev) (src kind sev : Nat) (tile : Option Nat := none) (atag : Option Nat := none)
    (ctx : Nat := 65535) (detail : List Nat := []) (headOnly : Nat := 2) (act : Nat := 1) : Dev :=
  d.deliver
    { src := src, kind := BitVec.ofNat 8 kind, sev := sev
      tile := if src < 768 then src / 96 else tile.getD d.pkg.lead
      av := atag.isSome, atag := atag.getD 0, context := ctx, headOnly := headOnly, detail := detail, act := act }

/-! ### Governor triggers and record writes -/

/-- A recomputation of the ceiling is due, with the lapse cause code its event would name (R61, R69; 1: another event). -/
def Dev.govTrigger (d : Dev) (cause : Nat) : Dev :=
  d.onExpo fun e => { e with gov := { e.gov with triggers := addOnce e.gov.triggers cause } }

/-- A write of parameter record type `typ` is due on tile `t` (R453). -/
def Dev.recDueOn (d : Dev) (t typ : Nat) : Dev := d.onSl t fun x => { x with pend := addOnce x.pend typ }

/-- A write of a package parameter record is due on T0, with its copy on T4 (R432). -/
def Dev.recDue (d : Dev) (typ : Nat) : Dev := (d.recDueOn 0 typ).recDueOn 4 typ

/-! ### Commands -/

/-- The outcome of a command. -/
abbrev Res := Host.Outcome State Fault Refusal

/-- A command completes: its effect on everything but the queue, the queue as it stands. -/
def State.run (s : State) (f : Dev → Dev) : Res := .next { s with dev := f s.dev }

/-! ### What condition the device is in -/

/-- The tiles in service: not isolated. -/
def Dev.inSvc (d : Dev) : List Nat := tiles8.filter fun t => !(d.tile t).isolated

/-- A real seal or test seal runs (R82). -/
def Dev.sealRuns (d : Dev) : Bool := d.sealing.active

end Sys2Proof.Machine
end

