-- ==== Sys2Proof/Machine/Operands.lean ====
section
/-! DEFINITION. Addresses: host address to device address, device address to tile, channel and rank, pages, groups and
granules, and what the Region Table says of them (chapter 01). -/

namespace Sys2Proof.Machine

/-- log2 of the tile interleave grain G (R34). -/
def Dev.grainLog (d : Dev) : Nat := if d.dram.cfg.tgrain = 0 then 21 else if d.dram.cfg.tgrain = 1 then 26 else 30

/-- The tile that holds a device physical address (R34). -/
def Dev.tileOf (d : Dev) (dpa : Nat) : Nat := dpa / 2 ^ d.grainLog % 8

/-- The tile-local address of a DPA (R34). -/
def Dev.tla (d : Dev) (dpa : Nat) : Nat := dpa / 2 ^ (d.grainLog + 3) * 2 ^ d.grainLog + dpa % 2 ^ d.grainLog

/-- The DPA of a tile-local address (R34 read backwards). -/
def Dev.dpaOf (d : Dev) (t a : Nat) : Nat :=
  a / 2 ^ d.grainLog * 2 ^ (d.grainLog + 3) + t * 2 ^ d.grainLog + a % 2 ^ d.grainLog

/-- Capacity of one rank in bytes (R35). -/
def Dev.rankBytes (d : Dev) : Nat := d.dram.cfg.sGib * 2 ^ 30

/-- Channels left in service in row N − 1 (R35). -/
def Dev.lastWays (d : Dev) : Nat := 4 - d.dram.cfg.spares

/-- The row, channel and address within the logical rank of a tile-local address (R36). -/
def Dev.chanOf (d : Dev) (a : Nat) : Nat × Nat × Nat :=
  let S := d.rankBytes
  let full := d.dram.cfg.n - 1
  let c := 8 + d.dram.cfg.cgrain
  let row := if a < full * 4 * S then a / (4 * S) else full
  let rla := if a < full * 4 * S then a % (4 * S) else a - full * 4 * S
  let ways := if a < full * 4 * S then 4 else d.lastWays
  let blk := rla / 2 ^ c
  (row, blk % ways, blk / ways * 2 ^ c + rla % 2 ^ c)

/-- The steering entry of a logical rank: row × 4 + channel (R242). -/
def rankEntry (row ch : Nat) : Nat := row * 4 + ch

/-- Host-visible capacity of a tile in GiB (R38). -/
def Dev.hostGib (d : Dev) : Nat := 4 * d.dram.cfg.n * d.dram.cfg.sGib - d.dram.cfg.spares * d.dram.cfg.sGib - 12

/-- Whether granule `g` lies within host-visible capacity: its BACKED bit (R31, R38). -/
def Dev.backed (d : Dev) (g : Nat) : Bool := decide (g < 8 * d.hostGib)

/-- A Region Table entry in its 64 bits (R31). -/
def Dev.rtWord (d : Dev) (g : Nat) : Nat :=
  let e := d.gran g
  let w := put 0 1 (bit e.valid) + put 1 2 e.head + put 3 2 e.cls + put 5 14 e.context + put 19 1 (bit (d.backed g)) + put 20 1 (bit e.isolated)
  w + put 56 8 (Config.rtCheck w).toNat

/-! ### The reserve area (R37) -/

/-- The tile-local address at which a tile's reserve area starts (R37, R38). -/
def Dev.reserveBase (d : Dev) : Nat := d.hostGib * 2 ^ 30

/-- The regions of the reserve area: offset from the reserve base, size, and the structure it holds, as the repairs of R150 tell them apart:
0 dirty bitmap, 1 page locator, 2 supervisor working state with the locator's tail, 3 armed-group set, 4 a structure with a copy in Strata,
5 restored-page bitmap, a staging buffer otherwise, 6 rollback bitmap, 7 replica bitmap, 8 staging buffers, 9 header, canaries and seal
scratch (R37). -/
def reserveMap : List (Nat × Nat × Nat) := [
  (0x00000000, 0x00100000, 9), (0x00100000, 0x00300000, 4), (0x00400000, 0x00800000, 3), (0x00C00000, 0x01000000, 4),
  (0x01C00000, 0x02400000, 2), (0x04000000, 0x0C000000, 4), (0x10000000, 0x08000000, 0), (0x18000000, 0x28000000, 9),
  (0x40000000, 0x200000000, 1), (0x240000000, 0x08000000, 5), (0x248000000, 0x08000000, 6), (0x250000000, 0x08000000, 7),
  (0x258000000, 0xA8000000, 8)]

/-- The region that an offset in the reserve area lies in: its offset and its structure. -/
def reserveAt (off : Nat) : Nat × Nat :=
  match reserveMap.find? fun r => decide (r.1 ≤ off) && decide (off < r.1 + r.2.1) with
  | some r => (r.1, r.2.2)
  | none => (0, 9)

/-- The line index of a tile's reserve area at an offset. -/
def Dev.reserveLine (d : Dev) (t off : Nat) : Nat := d.dpaOf t (d.reserveBase + off) / 64

/-- The offset in its tile's reserve area of a line that lies there (R37). -/
def Dev.reserveOff (d : Dev) (l : Nat) : Option Nat :=
  let a := d.tla (l * 64)
  if d.reserveBase ≤ a then some (a - d.reserveBase) else none

/-- Page index of a line index. -/
def linePage (l : Nat) : Nat := l / 64
/-- Group of a page (R14). -/
def pageGroup (p : Nat) : Nat := p / 512
/-- Granule of a page (R14). -/
def pageGran (p : Nat) : Nat := p / 262144
/-- First byte of a page. -/
def pageBase (p : Nat) : Nat := p * 4096
/-- The tile that holds a page. -/
def Dev.pageTile (d : Dev) (p : Nat) : Nat := d.tileOf (pageBase p)
/-- The tile that holds a group. -/
def Dev.groupTile (d : Dev) (g : Nat) : Nat := d.tileOf (g * 2097152)

/-- The Region Table entry of a page. -/
def Dev.pageEntry (d : Dev) (p : Nat) : Granule := d.gran (pageGran p)
/-- The context of a page; none where its granule is not assigned. -/
def Dev.pageCtx (d : Dev) (p : Nat) : Option Nat := if (d.pageEntry p).valid then some (d.pageEntry p).context else none
/-- Context field of a report on a page: FFFFh when its granule has no owner (R428). -/
def Dev.pageCtx16 (d : Dev) (p : Nat) : Nat := (d.pageCtx p).getD 65535
/-- Persistence class of a page: 1 P1, 2 P2, 3 V, 0 none (R44). -/
def Dev.pageCls (d : Dev) (p : Nat) : Nat := if (d.pageEntry p).valid then (d.pageEntry p).cls else 0
/-- A page of class P1 or P2. -/
def Dev.persistent (d : Dev) (p : Nat) : Bool := d.pageCls p == 1 || d.pageCls p == 2
/-- The granules of a context, in order. -/
def Dev.ctxGrans (d : Dev) (c : Nat) : List Nat :=
  (d.ctxs.rt.filter fun e => e.2.valid && e.2.context == c).map fun e => e.1

/-- The DPA that head `h`'s committed decoders give a host physical address; none where no decoder matches (R30). -/
def Dev.hdmDecode (d : Dev) (h hpa : Nat) : Option Nat :=
  let t := (d.head h).hdm
  let f (i : Nat) : Option Nat :=
    let x := tget t {} i
    if x.committed ∧ x.base ≤ hpa ∧ hpa < x.base + x.size then
      let o := hpa - x.base
      if o / x.gran % x.ways = x.pos then some (x.dpaBase + o / x.gran / x.ways * x.gran + o % x.gran) else none
    else none
  (List.range 8).findSome? f

/-! ### Slate sectors (R431) -/

/-- The sector of a Slate address. -/
def secOf (a : Nat) : Nat :=
  if a < 0x40000 then 0 else if a < 0x80000 then 1 else if a < 0xC0000 then 2 + (a - 0x80000) / 0x2000 else 0x22 + (a - 0xC0000) / 0x40000

/-- The first address of a sector. -/
def secBase (s : Nat) : Nat :=
  if s < 2 then s * 0x40000 else if s < 0x22 then 0x80000 + (s - 2) * 0x2000 else 0xC0000 + (s - 0x22) * 0x40000

/-- The lines of a sector. -/
def secLines (s : Nat) : Nat := if 2 ≤ s ∧ s < 0x22 then 512 else 16384

/-- The bank of an address. -/
def slateBank (a : Nat) : Nat := if a < 0x400000 then 0 else 1

/-- Rated erase cycles of a sector. -/
def ratedCycles (s : Nat) : Nat := if 2 ≤ s ∧ s < 0x22 then 100000 else 10000

/-! ### Row of the mesh (R15) -/

/-- The two tiles a mesh link joins: links 0 to 3 the upper ring, 4 to 7 the lower ring, 8 to 11 the columns. -/
def meshEnds (i : Nat) : Nat × Nat :=
  if i < 4 then (i, (i + 1) % 4) else if i < 8 then (i, 4 + (i - 3) % 4) else (i - 8, i - 4)

/-- Tiles reached from a set in one hop over links that have not failed. -/
def Dev.meshStep (d : Dev) (ts : List Nat) : List Nat :=
  (List.range 12).foldl (fun acc i =>
    if d.pkg.meshFailed.contains i then acc
    else
      let e := meshEnds i
      let acc := if ts.contains e.1 then addOnce acc e.2 else acc
      if ts.contains e.2 then addOnce acc e.1 else acc) ts

/-- Hops of the shortest path between two tiles that avoids failed links; none where no path is left (R15). -/
def Dev.meshHops (d : Dev) (a b : Nat) : Option Nat :=
  ((List.range 8).foldl (fun (st : List Nat × Option Nat) k =>
    if st.2.isSome then st
    else if st.1.contains b then (st.1, some k)
    else (d.meshStep st.1, none)) ([a], none)).2

end Sys2Proof.Machine
end

