-- ==== Sys2Proof/Machine/Cairn.lean ====
section
/-! DEFINITION. The flash of a tile: geometry, blocks, the least-worn block, and the Cairn ledger with its entries' bytes
(R134 to R136, R154 to R158, R170). Block states: 0 erased, 1 open, 2 programmed, 3 erase with intent, 4 retired, 5 emptied and
waiting for a checkpoint, 6 erasable, 7 half-erased, 8 emptied before the running checkpoint. A block not listed is erased and
unworn. -/

namespace Sys2Proof.Machine

/-! ### Geometry (R134 to R136) -/

/-- Log blocks of a die: its blocks on 4 planes less its spare pool of 96 (R135). -/
def Dev.dieBlocks (d : Dev) : Nat := 4 * d.strata.planeBlocks - 96

/-- Page records of a pSLC block: four slots in each NAND page (R135, R137). -/
def Dev.blkRecs (d : Dev) : Nat := 4 * d.strata.slcPages

/-- The die of a block address: channel in bits 3:0, die in bits 6:4 (R136). -/
def dieOf (blk : Nat) : Nat := blk % 128

/-- The Cairn ledger die: die 7 of channel F15 (R135). -/
def ledgerDie : Nat := 127

/-- The block address of a flash address (R136). -/
def blkOf (addr : Nat) : Nat := addr % 2097152

/-- The NAND page of a flash address: the address of its slot 0 (R136). -/
def npOf (addr : Nat) : Nat := addr % 4294967296

/-- The flash address of slot `s` of NAND page `p` of a block (R136). -/
def flashAddr (blk p s : Nat) : Nat := put 0 21 blk + put 21 11 p + put 32 2 s

/-- The block address that holds a page record. -/
def PageRec.block (r : PageRec) : Nat := blkOf r.addr

/-- The block address that a locator entry names. -/
def LocEntry.block (l : LocEntry) : Nat := blkOf l.addr

/-- A locator entry's 64 bits (R144). -/
def LocEntry.word (l : LocEntry) : Nat :=
  put 0 34 l.addr + put 34 4 l.hidx + put 38 2 l.kind + put 40 1 (bit l.poison) + put 41 23 l.vseqLo

/-! ### Blocks (R135, R158, R167, R170) -/

/-- Block `n` of a tile. -/
def Dev.blk (d : Dev) (t n : Nat) : Block := tget (d.fl t).blocks {} n
/-- Change a block. -/
def Dev.onBlk (d : Dev) (t n : Nat) (f : Block → Block) : Dev := d.onFl t fun x => { x with blocks := tmod x.blocks {} n f }

/-- The data dies of a tile in service (R135, R161). -/
def Dev.dataDies (d : Dev) (t : Nat) : List Nat := (List.range 127).filter fun x => !((d.fl t).diesRetired.contains x)

/-- The least-worn erased block of a tile on the dies given, outside the stage 2 reservation (R151, R170); none where those dies have no
erased block left. Of blocks never used, which have no wear, the first by block number, then by die, is taken. -/
def Dev.leastWorn (d : Dev) (t : Nat) (dies : List Nat) : Option Nat :=
  let f := d.fl t
  let unused (n : Nat) : Bool := !(thas f.blocks n) && !(f.resv.contains n) && n != f.ledBlock
  match (List.range (min d.dieBlocks (f.blocks.length + 18))).findSome? fun k =>
      (dies.map fun die => k * 128 + die).find? unused with
  | some n => some n
  | none => (argMin (f.blocks.filter fun b => b.2.state == 0 && dies.contains (dieOf b.1) && !(f.resv.contains b.1)) fun b => b.2.wear).map
      fun b => b.1

/-! ### Ledger entries (R154, R155) -/

/-- Length of an entry in units of 32 bytes, by its type (R155). -/
def ledgerUnits (typ : Nat) : Nat :=
  match typ with
  | 0x08 => 3 | 0x09 => 5 | 0x0F => 3
  | 0x0A => 2 | 0x0C => 2 | 0x10 => 2 | 0x11 => 2 | 0x12 => 2
  | _ => 1

/-- The body of an entry, by its type (R155). -/
def LedgerEntry.body (e : LedgerEntry) : List (Nat × Nat) :=
  let x (i : Nat) : Nat := e.ext.getD i 0
  match e.typ with
  | 0x01 => [(8, put 0 24 e.a + put 24 14 e.b)]
  | 0x02 => [(8, put 0 24 e.a)]
  | 0x04 => [(8, put 0 21 e.a + put 21 1 e.b)]
  | 0x05 => [(8, put 0 21 e.a + put 21 1 e.b)]
  | 0x06 => [(8, put 0 21 e.a + put 21 1 e.b + put 22 2 e.c)]
  | 0x07 => [(8, put 0 21 e.a + put 21 14 e.b + put 35 4 e.c)]
  | 0x08 => (8, e.a) :: (List.range 8).map fun i => (8, x i)
  | 0x09 => [(1, e.a), (1, bit e.test), (2, 0), (8, e.b), (8, e.c), (4, x 0), (20, 0)] ++ ((List.range 16).map fun i => (4, x (i + 1)))
      ++ [(8, x 17), (20, 0)]
  | 0x0A => [(8, e.a), (8, e.b), (1, bit e.test), (23, 0)]
  | 0x0B => [(1, e.a), (1, bit e.test), (6, 0)]
  | 0x0C => [(1, put 0 2 e.a + put 2 1 (bit e.test)), (3, 0), (8, e.b), (4, e.c), (24, 0)]
  | 0x0D => [(1, e.a), (7, 0)]
  | 0x0E => [(8, put 0 24 e.a)]
  | 0x0F => [(8, e.a), (64, e.c)]
  | 0x10 => [(8, e.a), (8, e.b), (8, e.c), (16, 0)]
  | 0x11 => [(2, e.a), (1, e.b), (1, 0), (8, e.c), (28, 0)]
  | 0x12 => [(2, e.a), (1, e.b), (1, 0), (2, e.c), (34, 0)]
  | 0x13 => [(8, put 0 4 e.a + put 4 3 e.b)]
  | _ => [(8, 0)]

/-- An entry's bytes, with its CRC (R154). -/
def LedgerEntry.bytes (e : LedgerEntry) : List Byte :=
  withCrc (fields ([(1, e.typ), (1, ledgerUnits e.typ), (2, 0), (8, e.lseq), (8, e.time)] ++ e.body))

/-! ### Programming the ledger (R49, R154, R156) -/

/-- The next NAND page of the ledger: a full ledger block is followed by the least-worn erased one of the ledger die (R154, R170). -/
def Dev.ledgerPage (d : Dev) (t : Nat) : Dev × Nat :=
  let d := if (d.fl t).ledLeft ≠ 0 then d
    else
      let n := (d.leastWorn t [ledgerDie]).getD (d.fl t).ledBlock
      let d := d.onBlk t (d.fl t).ledBlock fun b => { b with state := 2 }
      (d.onBlk t n fun b => { b with state := 1, progTime := d.now }).onFl t fun f => { f with ledBlock := n, ledLeft := d.strata.slcPages }
  let f := d.fl t
  (d.onFl t fun x => { x with ledLeft := x.ledLeft - 1 }, flashAddr f.ledBlock (d.strata.slcPages - f.ledLeft) 0)

/-- An entry enters the ledger: it takes the next LSEQ, and its TIME unless it names one (R154). -/
def Dev.ledgerAdd (d : Dev) (t page : Nat) (e : LedgerEntry) : Dev :=
  d.onFl t fun f =>
    { f with
      ledger := { e with lseq := f.nextLseq, time := if e.time = 0 then d.now else e.time, page := page } :: f.ledger
      nextLseq := f.nextLseq + 1
      sinceSummary := f.sinceSummary + 32 * ledgerUnits e.typ }

/-- One Cairn program: its entries fill one NAND page of the ledger, the rest of which is padded (R154, R156). -/
def Dev.cairnPut (d : Dev) (t : Nat) (es : List LedgerEntry) : Dev :=
  let x := d.ledgerPage t
  es.foldl (fun d e => d.ledgerAdd t x.2 e) x.1

/-- The disarm records queued on a tile that no running program carries (R49). -/
def Dev.disarmsFor (d : Dev) (t : Nat) : List Nat :=
  let run : List Nat := match tget d.expo.armProg none t with | some p => p.disarms | none => []
  ((d.expo.disarmQ.filter fun q => d.groupTile q.1 == t).map fun q => q.1).filter fun g => !run.contains g

/-- A Cairn program of a tile: the entries given, then the erase intents and disarm records that wait for the tile's next program, as many
as its 512 units hold (R49, R156). -/
def Dev.cairn (d : Dev) (t : Nat) (es : List LedgerEntry) : Dev :=
  let room := 512 - sumBy es fun e => ledgerUnits e.typ
  let ints := (d.fl t).intentQ.take room
  let dis := (d.disarmsFor t).take (room - ints.length)
  let d := d.cairnPut t (es ++ (ints.map fun b => { typ := 4, a := b, b := bit (d.blk t b).tlc }) ++ dis.map fun g => { typ := 2, a := g })
  let d := ints.foldl (fun d b => d.onBlk t b fun x => { x with state := 3 }) d
  let d := d.onFl t fun f => { f with intentQ := f.intentQ.filter fun b => !ints.contains b }
  d.onExpo fun e => { e with disarmQ := e.disarmQ.filter fun q => !dis.contains q.1 }

/-- Program a ledger entry on tile `t`: its type and body fields (R154, R155). -/
def Dev.ledger (d : Dev) (t typ : Nat) (a : Nat := 0) (b : Nat := 0) (c : Nat := 0) (test : Bool := false) : Dev :=
  d.cairn t [{ typ := typ, a := a, b := b, c := c, test := test }]

/-- Program a ledger entry on every tile of a list. -/
def Dev.ledgerAll (d : Dev) (ts : List Nat) (typ : Nat) (a : Nat := 0) (b : Nat := 0) (c : Nat := 0) : Dev :=
  ts.foldl (fun d t => d.ledger t typ a b c) d

/-- The latest ledger entry of a tile that satisfies `f`. -/
def Dev.lastEntry (d : Dev) (t : Nat) (f : LedgerEntry → Bool) : Option LedgerEntry := (d.fl t).ledger.find? f

/-- A tile has sealed work state: the latest of its seal headers, seal records (none of a test) and OPEN records is not an OPEN record
(R92, R114, R251). -/
def Dev.sealedTile (d : Dev) (t : Nat) : Bool :=
  match d.lastEntry t fun e => ((e.typ == 0x09 || e.typ == 0x0A) && !e.test) || e.typ == 0x0D with
  | some e => e.typ != 0x0D
  | none => false

/-- The groups that a tile's ledger shows armed: the record of the highest LSEQ decides each group (R49, R114). -/
def Dev.ledgerArmed (d : Dev) (t : Nat) : List Nat :=
  (d.fl t).ledger.foldr (fun e gs => if e.typ = 1 then addOnce gs e.a else if e.typ = 2 then gs.filter fun g => g != e.a
    else if e.typ = 3 then [] else gs) []

/-- Low 32 bits of the LSEQ of a tile's latest OPEN record: OPEN_SEQ (R138). -/
def Dev.openSeq (d : Dev) (t : Nat) : Nat := ((d.lastEntry t fun e => e.typ == 0x0D).map fun e => e.lseq % 2 ^ 32).getD 0

/-- A locator checkpoint starts on a tile unless one runs: it covers the entries that stand in the tail now, and the blocks emptied so
far may be erased once it commits (R147 to R149). -/
def Dev.ckptStart (d : Dev) (t : Nat) : Dev :=
  if (d.fl t).ckptRun.isSome then d
  else d.onFl t fun f => { f with
    ckptRun := some f.tail, tail := [], ckptAt := d.now
    blocks := f.blocks.map fun b => (b.1, if b.2.state = 5 then { b.2 with state := 8 } else b.2) }

end Sys2Proof.Machine
end

