-- ==== Sys2Proof/Machine/Governor.lean ====
section
/-! DEFINITION. Exposure counts, the ceiling, governor states and lapse records (chapter 02, R41 to R71). -/

namespace Sys2Proof.Machine

/-! ### Dirty pages (R41 to R43) -/

/-- Whether a page is dirty. -/
def Dev.isDirty (d : Dev) (p : Nat) : Bool := d.expo.dirty.any fun x => x.page == p

/-- Insert a dirty page, pages in rising order. -/
def insDirty (x : DirtyPage) : List DirtyPage → List DirtyPage
  | [] => [x]
  | y :: r => if x.page < y.page then x :: y :: r else if x.page = y.page then y :: r else y :: insDirty x r

/-- A write changes a page: a P1 or P2 page becomes dirty, with the time of the write that first made it so, and an
in-flight copy of it takes its rewrite flag (R41, R42, R44). -/
def Dev.dirtyPage (d : Dev) (p : Nat) : Dev :=
  if d.persistent p then
    d.onExpo fun e =>
      { e with
        dirty := insDirty { page := p, since := d.now } e.dirty
        inflight := e.inflight.map fun x => if x.page = p then { x with rewrite := true } else x
        armed := e.armed.map fun g => if g.group = pageGroup p then { g with cleanSince := none } else g }
  else d

/-- Whether any page of a group is dirty: its summary bit (R43). -/
def Dev.groupDirty (d : Dev) (g : Nat) : Bool := d.expo.dirty.any fun x => pageGroup x.page == g

/-- Groups whose summary bit has just cleared start their 10 minutes (R49). -/
def Dev.summaryClear (d : Dev) : Dev :=
  d.onExpo fun e => { e with armed := e.armed.map fun g =>
    if g.cleanSince.isNone ∧ !d.groupDirty g.group then { g with cleanSince := some d.now } else g }

/-- Clear the dirty bits of the pages that `f` picks; they leave exposure (R42, R43). -/
def Dev.cleanPages (d : Dev) (f : Nat → Bool) : Dev :=
  (d.onExpo fun e => { e with dirty := e.dirty.filter fun x => !f x.page }).summaryClear

/-- Exposure of a tile in pages (R43). -/
def Dev.xTile (d : Dev) (t : Nat) : Nat := d.expo.dirty.countP fun x => d.pageTile x.page == t
/-- Package exposure in pages: the sum over the tiles in service (R43). -/
def Dev.xPkg (d : Dev) : Nat := d.expo.dirty.countP fun x => !(d.tile (d.pageTile x.page)).isolated
/-- Exposure of a context in pages (R43). -/
def Dev.xCtx (d : Dev) (c : Nat) : Nat := d.expo.dirty.countP fun x => d.pageCtx x.page == some c
/-- Groups armed on a tile (R50). -/
def Dev.armedCount (d : Dev) (t : Nat) : Nat := d.expo.armed.countP fun g => d.groupTile g.group == t
/-- Whether a group is in its tile's armed set. -/
def Dev.isArmed (d : Dev) (g : Nat) : Bool := d.expo.armed.any fun x => x.group == g

/-! ### The ceiling (R52 to R60) -/

/-- The denominator of the landing rate: 0.833 in 4.12, times 1,000 (R25). -/
def paceDen : Nat := 4096 * 833

/-- Landing rate of a tile over its full 40 GB/s, in `paceDen`ths (R53). -/
def Dev.landNum (d : Dev) (t : Nat) : Nat :=
  if (d.tile t).isolated then 0
  else min paceDen (1000 * bits (d.dwGet (0x400 + 8 * t) 0) 16 16)

/-- Landing rate of a tile in MB/s (R53). -/
def Dev.landMbs (d : Dev) (t : Nat) : Nat := 40000 * d.landNum t / paceDen

/-- Seal-referenced energy of a source less its uncertainty, mJ, at least zero (R54). -/
def Dev.netMj (d : Dev) (s : Nat) : Nat := (d.src s).eMj - (d.src s).uMj

/-- E_avail in mJ, the bays of `excl` left out (R54, R71). -/
def Dev.eAvailMj (d : Dev) (excl : List Nat) : Nat :=
  sumBy [0, 1] (fun b => if (d.bay b).counted ∧ !excl.contains b then d.netMj b else 0) + d.netMj 2

/-- zone_t in page records: a tile in service's landing zone less its reservation (R57). -/
def Dev.zoneOf (d : Dev) (t : Nat) : Nat := if (d.tile t).isolated then 0 else (d.fl t).zone

/-- The numbers one recomputation forms (R52 to R60). -/
structure Ceil where
  /-- E_avail, mJ. -/
  eAvail : Nat := 0
  /-- D_E, ms. -/
  dE : Nat := 0
  /-- C_E, pages. -/
  cE : Nat := 0
  /-- C_L, pages. -/
  cL : Nat := 0
  /-- C_T, pages. -/
  cT : Nat := 0
  /-- C_P, pages. -/
  cP : Nat := 0
  /-- C, pages. -/
  c : Nat := 0
  /-- Bound that sets C: 0 energy, 1 landing, 2 rate, 3 policy. -/
  bound : Nat := 3
  /-- c_t of T0 to T7, pages. -/
  tile : Tbl Nat := []
  deriving DecidableEq, Repr

/-- Pages that a landing rate (in `paceDen`ths) lands in D_E: `land × D_E`, rounded down (R55, R60). -/
def energyPages (land dMj k lr : Nat) : Nat := land * 40000000000 * 850000 * dMj / (paceDen * (k * lr) * 4096)

/-- Pages that a landing rate lands in 30 s (R58). -/
def windowPages (land : Nat) : Nat := land * 40000000000 * 30 / (paceDen * 4096)

/-- The policy bound C_P, pages; a POLICY_BOUND above host-visible capacity has no effect beyond that capacity (R59, R77). -/
def Dev.policyPages (d : Dev) : Nat := min d.expo.policy.boundGib (8 * d.hostGib) * 262144

/-- The ceiling and tile ceilings, the bays of `excl` not counted (R52 to R60, R71). -/
def Dev.ceilings (d : Dev) (excl : List Nat) : Ceil :=
  let e := d.expo
  let ea := d.eAvailMj excl
  let dMj := ea - e.eFixed
  let landPkg := sumBy tiles8 d.landNum
  let cE := energyPages landPkg dMj e.kSeal e.landRef
  let cL := sumBy tiles8 d.zoneOf
  let cT := windowPages landPkg
  let cP := d.policyPages
  let m := min (min cE cL) cP
  let c := if e.policy.windowEn then min m cT else m
  let ct (t : Nat) : Nat :=
    let a := min (energyPages (d.landNum t) dMj e.kSeal e.landRef) (d.zoneOf t)
    if e.policy.windowEn then min a (windowPages (d.landNum t)) else a
  { eAvail := ea, dE := 850000000 * dMj / (e.kSeal * e.landRef), cE := cE, cL := cL, cT := cT, cP := cP, c := c
    bound := if c = cE then 0 else if c = cL then 1 else if e.policy.windowEn ∧ c = cT then 2 else 3
    tile := tiles8.map fun t => (t, ct t) }

/-! ### Governing fractions and states (R60, R63) -/

/-- The ceiling that the fractions are taken against: the release reference while one is set (R71). -/
def Dev.refC (d : Dev) : Nat := if d.expo.gov.relRef then d.expo.gov.cWithout else d.expo.gov.ceiling
/-- The tile ceiling that the fractions are taken against (R71). -/
def Dev.refTile (d : Dev) (t : Nat) : Nat :=
  tget (if d.expo.gov.relRef then d.expo.gov.tileWithout else d.expo.gov.tileCeil) 0 t

/-- phi_t is at least `q` per cent (R60); an empty ceiling makes the fraction infinite. DESIGN CHOICE (log 241): so it does for the package's,
X / C with C = 0, of which the spec says nothing. -/
def Dev.phiGe (d : Dev) (t q : Nat) : Bool :=
  decide (q * d.refC ≤ 100 * d.xPkg) || decide (q * d.refTile t ≤ 100 * d.xTile t)

/-- The package LAPSE condition: X over C with C not set by the policy bound (R63, R70). -/
def Dev.pkgBreach (d : Dev) : Bool := decide (d.expo.gov.ceiling < d.xPkg) && d.expo.gov.bound != 3

/-- The tile LAPSE condition: X_t over c_t (R63). -/
def Dev.tileBreach (d : Dev) (t : Nat) : Bool := decide (tget d.expo.gov.tileCeil 0 t < d.xTile t)

/-- The state a tile takes at a recomputation from the state it was in (R63): 0 GREEN to 4 LAPSE. -/
def Dev.nextState (d : Dev) (t : Nat) : Nat :=
  let prev := tget d.expo.gov.tileState 0 t
  if d.pkgBreach || d.tileBreach t || (prev == 4 && d.inSvc.any d.tileBreach) then 4
  else if d.phiGe t 95 || (decide (3 ≤ prev) && d.phiGe t 90) then 3
  else if d.phiGe t 75 then 2
  else if d.phiGe t 50 then 1
  else 0

/-- The cause code of a lapse that begins at this recomputation (R69, C433h): the first triggering event in the order of
R69's table, else the breached bound or the governing term of the tile ceiling. -/
def Dev.lapseCause (d : Dev) (tile : Option Nat) : Nat :=
  let tr := d.expo.gov.triggers
  match [2, 3, 6, 5, 4, 7].find? tr.contains with
  | some c => c
  | none =>
    if tr.contains 1 then 1
    else match tile with
      | none => if d.expo.gov.bound = 0 then 1 else if d.expo.gov.bound = 1 then 5 else 4
      | some t =>
        let e := d.expo
        let c := tget e.gov.tileCeil 0 t
        if c = energyPages (d.landNum t) (e.gov.eAvail - e.eFixed) e.kSeal e.landRef then 1
        else if c = d.zoneOf t then 5 else 4

/-- Excess over the ceiling that a lapse record names. -/
def Dev.lapseExcess (d : Dev) (l : Lapse) : Nat :=
  if l.tile = 255 then d.xPkg - d.expo.gov.ceiling else d.xTile l.tile - tget d.expo.gov.tileCeil 0 l.tile

/-- Entry to LAPSE: the event, and a lapse record is opened (R69). -/
def Dev.lapseEnter (d : Dev) : Dev :=
  let tl := if d.pkgBreach then none else d.inSvc.find? d.tileBreach
  let cause := d.lapseCause tl
  let l : Lapse :=
    { entry := d.now, cause := cause, tile := tl.getD 255
      ceil := match tl with | none => d.expo.gov.ceiling | some t => tget d.expo.gov.tileCeil 0 t
      expo := match tl with | none => d.xPkg | some t => d.xTile t }
  (d.onExpo fun e => { e with gov := { e.gov with
      lapses := ({ l with peak := d.lapseExcess l } :: e.gov.lapses).take 256 } }).raise 811 0x27 2 (tile := tl)
    (detail := [cause])

/-- The open lapse record's peak follows the excess (R69). DESIGN CHOICE (log 240): it is sampled at the recomputations. -/
def Dev.lapseTrack (d : Dev) : Dev :=
  d.onExpo fun e => { e with gov := { e.gov with lapses := e.gov.lapses.map fun l =>
    if l.exit = 0 then { l with peak := max l.peak (d.lapseExcess l) } else l } }

/-- Exit from LAPSE: the record is closed and the event raised (R69, R78). -/
def Dev.lapseExit (d : Dev) : Dev :=
  (d.onExpo fun e => { e with gov := { e.gov with lapses := e.gov.lapses.map fun l =>
    if l.exit = 0 then { l with exit := d.now } else l } }).raise 811 0x27 0

/-! ### Exposure registers (R46) -/

/-- DW_EXPO_PKG and DW_EXPO_CEIL are written together, with one SEQ. -/
def Dev.expoPkgUpd (d : Dev) : Dev :=
  let g := d.expo.gov
  let seq := bits (d.dwGet 0x500 (3 * 2 ^ 37)) 48 16 + 1
  let pend := [0, 1].any fun b => (d.bay b).state == 3 || (d.bay b).state == 4
  let v := put 0 34 d.xPkg + put 34 3 g.pkgState + put 37 3 (if g.relRef then 4 else g.bound)
    + put 40 1 (bit (g.pkgState == 4)) + put 41 1 (bit pend) + put 48 16 seq
  (d.dwSet 0x500 v).dwSet 0x508 (put 0 34 g.ceiling + put 48 16 seq)

/-- DW_EXPO_TILE of a tile. -/
def Dev.expoTileUpd (d : Dev) (t : Nat) : Dev :=
  let n := d.armedCount t
  d.dwUpd (0x540 + 8 * t) 8
    (put 0 31 (d.xTile t) + put 31 3 (tget d.expo.gov.tileState 0 t) + put 34 1 (bit (n == 1048576)) + put 35 21 n)

/-- Every exposure register (R46). -/
def Dev.expoUpd (d : Dev) : Dev := tiles8.foldl Dev.expoTileUpd d.expoPkgUpd

/-! ### Bays: power path, LED and status register (R255, R282, R288) -/

/-- The hold-up path carries the module: a seal between stage 0 and stage 5, or a test seal from its step 1 (R255, R256). -/
def Dev.holdup (d : Dev) : Bool := d.sealing.active || d.sealing.testStep != 0

/-- The power-path mode of a bay (R255, R287): 0 OFF, 1 IDLE, 2 CHARGE, 3 ASSIST, 4 TEST, 5 HOLDUP. -/
def Dev.pathOf (d : Dev) (b : Nat) : Nat :=
  let p := d.bay b
  if p.state = 0 ∨ !d.panel.coreUp then 0
  else if p.state = 5 then (if p.fault = 2 then 1 else 0)
  else if p.state = 4 ∧ (p.fault = 1 ∨ 3 ≤ p.fault ∧ !d.sealing.active) then 0
  else if d.holdup ∧ p.latch ∧ (p.state = 2 ∨ p.state = 3 ∨ p.state = 4) then 5
  else if p.test = 2 ∧ p.intrAt.isNone then 4
  else if p.charging then 2
  else if tget d.energy.assistSet 0 b ≠ 0 then 3
  else 1

/-- The LED of a bay (R282); off in stage 6. -/
def Dev.bayLed (d : Dev) (b : Nat) : Nat :=
  let p := d.bay b
  let refused : Bool := match p.refusedUntil with | some t => decide (d.now < t) | none => false
  if !d.panel.coreUp then 0
  else if refused then 6
  else if p.state = 4 then 1
  else if p.state = 1 then 2
  else if p.state = 3 then 5
  else if p.state = 5 then 4
  else if p.state = 2 then (if p.touch then 4 else if p.charging ∨ p.test ≠ 0 then 3 else 0)
  else 0

/-- DW_BAY_STAT of a bay, and its power path (R255, R288), which a safe state freezes until a seal (R318). -/
def Dev.bayUpd (d : Dev) (b : Nat) : Dev :=
  let d := d.onBay b fun p => { p with path := if d.pkg.safe ≠ 0 ∧ !d.holdup then p.path else d.pathOf b }
  let p := d.bay b
  d.dwUpd (0xE00 + 8 * b) 16
    (put 0 3 p.state + put 3 1 (bit p.latch) + put 4 1 (bit p.touch) + put 5 1 (bit p.button) + put 6 1 (bit p.lock)
      + put 7 1 (bit p.counted) + put 8 1 (bit p.hold) + put 9 3 p.path + put 12 3 (d.bayLed b)
      + put 15 1 (bit (p.restDue || p.resting)) + put 16 8 p.fault + put 24 2 p.test + put 26 2 p.testIntr)

/-- Change a bay, and bring its register up to date (R288). -/
def Dev.bayDo (d : Dev) (b : Nat) (f : PackSt → PackSt) : Dev := (d.onBay b f).bayUpd b

/-- A fault that a seal only recorded takes effect when the device returns to service (R287). -/
def Dev.faultBack (d : Dev) (b : Nat) : Dev :=
  d.bayDo b fun p =>
    if p.fault ≠ 0 ∧ (p.state = 2 ∨ p.state = 3) then { p with state := 5, counted := false, charging := false } else p

/-! ### A recomputation (R52, R63, R69, R71, R40, R78) -/

/-- The bays that C_without leaves out: touched, WAITING or GRANTED (R281). -/
def Dev.withoutBays (d : Dev) : List Nat :=
  [0, 1].filter fun b => (d.bay b).touch || (d.bay b).state == 3 || (d.bay b).state == 4

/-- Some bay is WAITING, so the release reference is set (R71 step 2, R280). -/
def Dev.anyWaiting (d : Dev) : Bool := [0, 1].any fun b => (d.bay b).state == 3

/-- Take the ceilings of a recomputation into force, and the release reference while a bay waits (R52, R71). -/
def Dev.takeCeil (d : Dev) : Dev :=
  let c := d.ceilings []
  let w := d.ceilings d.withoutBays
  let rel := d.anyWaiting
  d.onExpo fun e => { e with gov := { e.gov with
    ceiling := c.c, bound := c.bound, cE := c.cE, cL := c.cL, cT := c.cT, cP := c.cP, dE := c.dE, eAvail := c.eAvail
    tileCeil := c.tile, land := tiles8.map fun t => (t, d.landMbs t)
    relRef := rel, cWithout := w.c, tileWithout := w.tile } }

/-- The package state change event, at most one a second, carrying the final state (R78). -/
def Dev.stateEvent (d : Dev) (changed : Bool) : Dev :=
  let due := changed || d.expo.gov.postDue
  let free := match d.expo.gov.lastPost with | none => true | some t => decide (1000000000 ≤ d.since t)
  if due && free then
    (d.onExpo fun e => { e with gov := { e.gov with postDue := false, lastPost := some d.now } }).raise 811 0x14 0
      (detail := [d.expo.gov.pkgState])
  else if due then d.onExpo fun e => { e with gov := { e.gov with postDue := true } }
  else d

/-- A forced rest that runs is abandoned (R279). -/
def Dev.abandonRest (d : Dev) : Dev :=
  if [0, 1].any fun b => (d.bay b).resting then
    let d := d.onEnergy fun e => { e with restAband := true, restCap := false }
    [0, 1].foldl (fun d b => d.bayDo b fun p => { p with resting := false }) d
  else d

/-- A rest abandoned is requested again 1 h from now (R279). -/
def Dev.restAgain (d : Dev) : Dev :=
  if d.energy.restAband then
    d.onEnergy fun e => { e with restAband := false, restRetry := d.now + 3600000000000 }
  else d

/-- Pacing delay in ns of a fraction `a / b` (R66): from 0.75 over 0.20 for P2, from 0.85 over 0.10 for P1. -/
def paceNs (dmaxNs cls a b : Nat) : Nat :=
  if b = 0 then dmaxNs
  else if cls = 2 then min dmaxNs (dmaxNs * (20 * a - 15 * b) / (4 * b))
  else min dmaxNs (dmaxNs * (20 * a - 17 * b) / (2 * b))

/-- The pacing that a recomputation distributes to the heads: the delay of each head, tile and class (R40, R66). -/
def Dev.paceTable (d : Dev) : Tbl Nat :=
  let x := d.xPkg
  let c := d.refC
  [0, 1].flatMap fun h =>
    let dm := (if h = 0 then d.expo.policy.dmaxH0 else d.expo.policy.dmaxH1) * 1000
    tiles8.flatMap fun t =>
      let xt := d.xTile t
      let ct := d.refTile t
      [1, 2].map fun cls => ((h * 8 + t) * 2 + (cls - 1), max (paceNs dm cls x c) (paceNs dm cls xt ct))

/-- Every tile's state is evaluated, LAPSE entered or left, and state and pacing distributed to the tiles and heads
(R63, R69, R40); exposure registers follow a change (R46). -/
def Dev.evalStates (d : Dev) : Dev :=
  let prev := d.expo.gov.pkgState
  let prevT := d.expo.gov.tileState
  let ts : Tbl Nat := tiles8.map fun t => (t, if (d.tile t).isolated then 0 else d.nextState t)
  let pk := maxBy ts 0 fun x => x.2
  let d := d.onExpo fun e => { e with gov := { e.gov with tileState := ts, pkgState := pk, sent := ts, pace := d.paceTable, dmax := [(0, d.expo.policy.dmaxH0 * 1000), (1, d.expo.policy.dmaxH1 * 1000)] } }
  let d := if pk = 4 ∧ prev ≠ 4 then d.lapseEnter.abandonRest else if pk ≠ 4 ∧ prev = 4 then d.lapseExit.restAgain else d
  let d := if pk = 4 then d.lapseTrack else d
  let d := d.stateEvent (pk != prev)
  if ts != prevT then d.expoUpd else d

/-- Exposure allows a release: X below C_without and every X_t below its tile ceiling without the pack (R71). -/
def Dev.mayGrant (d : Dev) (b : Nat) : Bool :=
  let w := d.ceilings (addOnce d.withoutBays b)
  decide (d.xPkg < w.c) && d.inSvc.all fun t => decide (d.xTile t < tget w.tile 0 t)

/-- The pre-drain target while a bay is touched: 0.75 × C_without (R71 step 1). -/
def Dev.preDrainTarget (d : Dev) : Option Nat :=
  if d.panel.removal = 2 then some 0
  else if [0, 1].any fun b => (d.bay b).touch then some ((d.ceilings d.withoutBays).c * 3 / 4) else none

/-- A grant (R71 step 3, R280): the pack is no longer counted, the lock is disengaged, and the time is kept. -/
def Dev.grantBay (d : Dev) (b : Nat) : Dev :=
  ((d.bayDo b fun p => { p with state := 4, counted := false, lock := false, grantAt := d.now }).govTrigger 7).expoPkgUpd

/-- Grant every waiting release that exposure allows (R71). No release is granted while a seal runs (R283). -/
def Dev.grantWaiting (d : Dev) : Dev :=
  [0, 1].foldl (fun d b => if (d.bay b).state = 3 ∧ d.mayGrant b ∧ !d.sealRuns then d.grantBay b else d) d

/-- Held writes whose tile's fraction has fallen below 0.90 lose their governor hold (R68). -/
def Dev.releaseGov (d : Dev) : Dev :=
  d.onExpo fun e => { e with held := e.held.map fun r =>
    if r.forGov && !(d.phiGe (d.pageTile (linePage r.line)) 90) then { r with forGov := false } else r }

/-- One recomputation with the triggers that are due: grants that may be given, ceilings, states, pre-drain. -/
def Dev.recompute (d : Dev) : Dev :=
  let d := (d.grantWaiting.takeCeil).evalStates
  let d := d.onExpo fun e => { e with gov := { e.gov with
    triggers := []
    preDrain := if d.panel.removal = 2 then some 0 else d.preDrainTarget } }
  d.releaseGov

end Sys2Proof.Machine
end

