-- ==== Sys2Proof/Machine/DramErr.lean ====
section
/-! DEFINITION. The symbol code of a DRAM burst, error counting, rank retirement and the handling of uncorrectable lines
(chapter 07, R216 to R227, R241 to R253). -/

namespace Sys2Proof.Machine

/-! ### The symbol code (R219, R220) -/

/-- Multiply by α = 02h in GF(2⁸) with polynomial 11Dh (R219). -/
def gfX (a : BitVec 8) : BitVec 8 := if a.getLsbD 7 then (a <<< 1) ^^^ 0x1D else a <<< 1

/-- Multiply by α^j. -/
def gfXn (a : BitVec 8) : Nat → BitVec 8
  | 0 => a
  | n + 1 => gfX (gfXn a n)

/-- What the eight slices of a burst decode to (R220). -/
inductive LineResult where
  /-- No error. -/
  | good
  /-- An error confined to device `j`, corrected. -/
  | corrected (j : Nat)
  /-- The poison pattern. -/
  | poison
  /-- Anything else. -/
  | uncorrectable
  deriving DecidableEq, Repr

/-- Decode the syndromes (S0, S1) of the slices; `mark` the marked device of the subchannel, 15 none (R220). -/
def decodeSlices (mark : Nat) (syn : List (BitVec 8 × BitVec 8)) : LineResult :=
  if syn.all fun s => s.1 == 0 && s.2 == 0 then .good
  else
    match (List.range 10).find? fun j =>
        syn.all fun s => (s.1 == 0 && s.2 == 0) || (s.1 != 0 && s.2 == gfXn s.1 j) with
    | some j => .corrected j
    | none =>
      if syn.all fun s => s.1 == 0 && s.2 == 0x5A then .poison
      else if mark ≤ 9 ∧ (syn.all fun s => s.2 == gfXn s.1 mark) then .corrected mark
      else if mark ≤ 9 ∧ (syn.all fun s => s.2 == gfXn s.1 mark ^^^ 0x5A) then .poison
      else .uncorrectable

/-- The syndromes S0 and S1 of a slice's ten symbols, device 0 first (R219). -/
def syndromes (c : List (BitVec 8)) : BitVec 8 × BitVec 8 :=
  (c.foldl (fun a x => a ^^^ x) 0, (c.mapIdx fun d x => gfXn x d).foldl (fun a x => a ^^^ x) 0)

/-- The eight data symbols of slice `s` of a line: symbol `d` is byte 8s + d (R219). -/
def dataSymbols (line : BitVec 512) (s : Nat) : List (BitVec 8) := (List.range 8).map fun d => line.extractLsb' (8 * (8 * s + d)) 8

/-- The ten symbols of slice `s` of a line as stored: devices 8 and 9 carry the check symbols that make S0 zero and S1 zero, or 5Ah where the
line is poison (R219, R221). The inverse of α⁸ + α⁹ is α²²². -/
def codeword (line : BitVec 512) (poisoned : Bool) (s : Nat) : List (BitVec 8) :=
  let c := dataSymbols line s
  let z := syndromes c
  let c9 := gfXn (gfXn z.1 8 ^^^ z.2 ^^^ (if poisoned then 0x5A else 0)) 222
  c ++ [z.1 ^^^ c9, c9]

/-- The error of the symbol of device `j` in slice `s`: `errs` lists the symbols of a burst that are disturbed, by 10 × slice + device, with
the bits that are wrong. -/
def symErr (errs : List (Nat × Nat)) (s j : Nat) : BitVec 8 :=
  errs.foldl (fun a e => if e.1 = 10 * s + j then a ^^^ BitVec.ofNat 8 e.2 else a) 0

/-- The syndromes that a read of a line finds in each slice: the code is linear, so they are those of the disturbed symbols alone, over the
poison pattern where the line is stored as poison (R219, R221). -/
def slicesOf (poisoned : Bool) (errs : List (Nat × Nat)) : List (BitVec 8 × BitVec 8) :=
  (List.range 8).map fun s =>
    let z := if errs.isEmpty then (0, 0) else syndromes ((List.range 10).map fun j => symErr errs s j)
    (z.1, if poisoned then z.2 ^^^ 0x5A else z.2)

/-- The devices of a subchannel seen failing in a burst, one bit each. -/
def errDevs (errs : List (Nat × Nat)) : Nat :=
  sumBy (List.range 10) fun j => if errs.any fun e => e.1 % 10 == j && e.2 % 256 != 0 then 2 ^ j else 0

/-- The bits of the line that a read returns wrong: those disturbed in the data symbols, after the correction of device `j` (10: none is
corrected), which takes S0 of each slice off its symbol (R220). An error confined to one device leaves none. -/
def errBits (errs : List (Nat × Nat)) (j : Nat) : BitVec 512 :=
  if errs.isEmpty then 0
  else BitVec.ofNat 512 (leNat ((List.range 64).map fun i =>
    symErr errs (i / 8) (i % 8) ^^^ (if i % 8 = j then (syndromes ((List.range 10).map fun k => symErr errs (i / 8) k)).1 else 0)))

/-! ### Where a line lies (R216, R217) -/

/-- Where a line lies: tile, entry of its logical rank, channel, subchannel, address within the logical rank. -/
structure LineLoc where
  /-- Tile. -/
  t : Nat
  /-- Steering entry of the logical rank. -/
  e : Nat
  /-- Channel of the logical rank. -/
  ch : Nat
  /-- Subchannel, CLA[6]. -/
  sc : Nat
  /-- Address within the logical rank. -/
  cla : Nat
  deriving DecidableEq, Repr

/-- The place of a host-visible line (R34, R36, R216). -/
def Dev.lineLoc (d : Dev) (l : Nat) : LineLoc :=
  let dpa := l * 64
  let (row, ch, cla) := d.chanOf (d.tla dpa)
  { t := d.tileOf dpa, e := rankEntry row ch, ch := ch, sc := bits cla 6 1, cla := cla }

/-- CID bits of the device (R213). -/
def Dev.cidBits (d : Dev) : Nat := if d.dram.cfg.sGib = 128 then 1 else if d.dram.cfg.sGib = 256 then 2 else 0

/-- Where a CLA lies within its rank: subchannel, bank group, bank, burst column, chip and row (R216, R217). -/
structure DevAddr where
  /-- Subchannel. -/
  sc : Nat
  /-- Bank group. -/
  bg : Nat
  /-- Bank. -/
  ba : Nat
  /-- Burst column. -/
  cb : Nat
  /-- Chip. -/
  cid : Nat
  /-- Row. -/
  row : Nat
  deriving DecidableEq, Repr

/-- The device coordinates of a CLA (R216, R217). -/
def Dev.coords (d : Dev) (cla : Nat) : DevAddr :=
  let row := cla / 2 ^ (19 + d.cidBits)
  { sc := bits cla 6 1, bg := bits cla 7 3 ^^^ bits row 0 3, ba := bits cla 14 2 ^^^ bits row 3 2, cb := bits cla 10 4 + 16 * bits cla 16 3
    cid := bits cla 19 d.cidBits, row := row }

/-- The column address that a burst sends to the devices (R216). -/
def DevAddr.column (x : DevAddr) : Nat := x.cb * 16

/-- A row fault list entry for a CLA and a device mask, coded as C4A1h reports it (R216, R217, R425). -/
def Dev.rowCode (d : Dev) (cla devs : Nat) : BitVec 64 :=
  let x := d.coords cla
  BitVec.ofNat 64 (put 0 17 x.row + put 17 1 x.sc + put 18 2 x.cid + put 20 3 x.bg + put 23 2 x.ba + put 25 10 devs)

/-- The rank that a migration copies from: a failing spare that still names the entry, else the home rank (R245). -/
def Dev.migSource (d : Dev) (t e : Nat) : Nat :=
  let alt := rankEntry (d.steer t e).altRank (d.steer t e).altCh
  ((List.range 16).find? fun x => x != alt && (d.steer t x).state == 6 && (d.steer t x).altRank * 4 + (d.steer t x).altCh == e).getD e

/-- The physical rank that serves reads of a block of entry `e` (R244). -/
def Dev.readRank (d : Dev) (t e block : Nat) : Nat :=
  let s := d.steer t e
  let alt := rankEntry s.altRank s.altCh
  match s.state with
  | 1 => if block < s.sweep then alt else d.migSource t e
  | 2 => alt
  | 3 => if block < s.sweep then e else alt
  | 4 => if s.altValid then alt else e
  | _ => e

/-- The physical ranks that a request for a line reaches: the one that serves a read, both while a migration or a return runs for a write
(R244). -/
def Dev.lineRanks (d : Dev) (l : Nat) (write : Bool) : List Nat :=
  let x := d.lineLoc l
  let s := d.steer x.t x.e
  if write && (s.state == 1 || s.state == 3) then [d.migSource x.t x.e, rankEntry s.altRank s.altCh] else [d.readRank x.t x.e (x.cla / 2097152)]

/-! ### Channel status (R239, R241) -/

/-- The times of a list that lie within a window that ends now. -/
def Dev.within (d : Dev) (w : Nat) (l : List Nat) : List Nat := l.filter fun t => decide (d.now < t + w)

/-- Update DW_DRAM_CH of channel `c` of tile `t`. -/
def Dev.chanUpd (d : Dev) (t c : Nat) : Dev :=
  let x := d.chan t c
  d.dwUpd (0x800 + t * 0x20 + c * 8) 16
    (put 0 2 x.state + put 2 1 x.fsp + put 3 2 (if x.fsp = 1 then 2 else d.dram.cfg.rate) + put 5 1 (bit x.gather) + put 6 2 x.cap
      + put 8 1 (bit x.refx2) + put 9 1 (bit x.switchPend) + put 16 16 (min 65535 (d.within 3600000000000 x.ceHour).length)
      + put 32 8 (min 255 (d.within 86400000000000 x.ueDay).length))

/-- The fields whose change a channel's register shows at once: STATE, FSP, CAP, GATHER, SWITCH_PEND (R241). -/
def chanSig (x : Chan) : List Nat := [x.state, x.fsp, x.cap, bit x.gather, bit x.switchPend]

/-- Change a channel, and update its register where the change is one that it shows at once (R241). -/
def Dev.chanDo (d : Dev) (t c : Nat) (f : Chan → Chan) : Dev :=
  let was := chanSig (d.chan t c)
  let d := d.onChan t c f
  if chanSig (d.chan t c) = was then d else d.chanUpd t c

/-- Change every channel of a tile. -/
def Dev.tileChans (d : Dev) (t : Nat) (f : Chan → Chan) : Dev := [0, 1, 2, 3].foldl (fun d c => d.chanDo t c f) d

/-- A channel in service enters self-refresh. -/
def chanSleep (x : Chan) : Chan := if x.state = 3 then x else { x with state := 2 }

/-- Lines that a channel moves in 10 µs at its peak (R215). -/
def Dev.peakLines (d : Dev) : Nat := if d.dram.cfg.rate = 0 then 8000 else if d.dram.cfg.rate = 1 then 7000 else 6000

/-- Lines that a cap lets a channel move in 10 µs (R231). -/
def Dev.capLines (d : Dev) (cap : Nat) : Nat := if cap = 1 then d.peakLines * 3 / 4 else d.peakLines / 2

/-- A channel takes a cap, its buckets full (R231). -/
def Dev.setCap (d : Dev) (t c cap : Nat) : Dev :=
  d.chanDo t c fun x => { x with cap := cap, tokens := d.capLines cap + 64, hostTokens := d.peakLines / 8 + 64 }

/-- What keeps a request of a port from reaching a channel: an empty bucket of its cap, which the supervisor's port does not meet, or of the
host write limit (R231), a CA retraining (R224), a switch of set point (R237), or a partial write training of the rank (R236). -/
def Dev.chanWaits (d : Dev) (t p : Nat) (hostWrite supv : Bool) : Bool :=
  let x := d.chan t (p % 4)
  x.caTrain || x.switchTo.isSome || x.partial_.contains (p / 4)
    || (x.cap != 0 && !supv && x.tokens == 0) || (x.cap == 3 && hostWrite && x.hostTokens == 0)

/-- A request for a line waits for a channel it needs. -/
def Dev.lineWaits (d : Dev) (l : Nat) (write hostWrite supv : Bool) : Bool :=
  (d.lineRanks l write).any fun p => d.chanWaits (d.lineLoc l).t p hostWrite supv

/-- `n` lines move on the channel of physical rank `p` of tile `t`: it leaves self-refresh, and its idle time starts again (R239); under a
cap they take tokens, and host writes those of the host write limit beside them (R231). -/
def Dev.chanUse (d : Dev) (t p n : Nat) (hostWrite supv : Bool) : Dev :=
  let c := p % 4
  let wake := decide ((d.chan t c).state = 2) && decide (d.pkg.safe = 0)
  let d := d.onChan t c fun x => { x with
    state := if wake then 1 else x.state, lastReq := d.now
    tokens := if x.cap = 0 || supv then x.tokens else x.tokens - n
    hostTokens := if x.cap = 3 && hostWrite then x.hostTokens - n else x.hostTokens }
  if wake then d.chanUpd t c else d

/-- A request reaches the channels of its line (R231, R239, R244). -/
def Dev.chanTouch (d : Dev) (l : Nat) (write hostWrite supv : Bool) : Dev :=
  (d.lineRanks l write).foldl (fun d p => d.chanUse (d.lineLoc l).t p 1 hostWrite supv) d

/-- A page is read or written by one of the device's own ports (R228, R231, R239). -/
def Dev.pageTouch (d : Dev) (p : Nat) (write : Bool) : Dev :=
  let n := 2 ^ (2 + d.dram.cfg.cgrain)
  (List.range (64 / n)).foldl (fun d i =>
    let l := p * 64 + i * n
    (d.lineRanks l write).foldl (fun d k => d.chanUse (d.lineLoc l).t k n false false) d) d

/-! ### Steering changes, which wait for their Slate record (R251) -/

/-- The entry as it will stand once its pending changes are programmed. -/
def Dev.steerNext (d : Dev) (t e : Nat) : Steer :=
  match d.dram.steerPend.find? fun p => p.tile == t && p.entry == e with
  | some p => p.new
  | none => d.steer t e

/-- Queue a change of an entry; it takes effect once the Slate record is programmed (R251). -/
def Dev.steerPut (d : Dev) (t e : Nat) (f : Steer → Steer) : Dev :=
  let n := f (d.steerNext t e)
  (d.onDram fun x => { x with steerPend :=
    (x.steerPend.filter fun p => !(p.tile == t && p.entry == e)) ++ [{ tile := t, entry := e, new := n }] }).recDueOn t 0x64

/-- A steering entry in its 64 bits (R242). -/
def Dev.steerBits (d : Dev) (t e : Nat) : Nat :=
  let s := d.steer t e
  put 0 3 s.state + put 3 1 (bit s.pop) + put 4 2 s.altCh + put 6 2 s.altRank + put 8 1 (bit s.altValid) + put 9 17 s.sweep
    + put 26 3 s.reason + put 29 4 s.mark0 + put 33 4 s.mark1 + put 37 7 s.rowsN + put 44 1 (bit s.pprDone) + put 45 1 (bit s.testPass)

/-- DW_STEER of an entry. -/
def Dev.steerUpd (d : Dev) (t e : Nat) : Dev := d.dwSet (0x900 + t * 0x80 + e * 8) (d.steerBits t e)

/-- Change what an entry keeps outside its Slate record, at once: SWEEP, REASON, ROWS, PPR_DONE, TEST_PASS (R251). -/
def Dev.steerNow (d : Dev) (t e : Nat) (f : Steer → Steer) : Dev :=
  let d := d.onSteer t e f
  (d.onDram fun x => { x with steerPend := x.steerPend.map fun p =>
    if p.tile = t ∧ p.entry = e then { p with new := f p.new } else p }).steerUpd t e

/-- The free spare that a retirement on channel `ch` takes: on the same channel, else the highest-numbered (R245). -/
def Dev.freeSpare (d : Dev) (t ch : Nat) : Option Nat :=
  let free := (List.range 16).filter fun e => (d.steerNext t e).state == 5
  match free.find? fun e => e % 4 == ch with
  | some e => some e
  | none => free.foldl (fun a e => match a with
    | none => some e
    | some x => if x % 4 ≤ e % 4 then some e else some x) none

/-- Begin the migration of entry `e` to spare `sp` (R245). -/
def Dev.migrateTo (d : Dev) (t e sp reason : Nat) : Dev :=
  let d := d.steerPut t e fun s => { s with
    state := 1, sweep := 0, altCh := sp % 4, altRank := sp / 4, altValid := true, reason := reason, pprDone := false
    testPass := false, changed := d.now }
  d.steerPut t sp fun s => { s with state := 6, altCh := e % 4, altRank := e / 4, altValid := true, changed := d.now }

/-- The physical rank at position `e` of tile `t` meets a retirement condition (R245, R249, R250); while the migration of its logical
rank runs it is not retired again (R246). `sc` is the subchannel whose errors did it, 2 for none (R325). -/
def Dev.retire (d : Dev) (t e reason sc : Nat) : Dev :=
  let s := d.steerNext t e
  let d := d.onRank t e fun r => { r with retSc := sc }
  let src := tsrc t (4 * (e % 4) + 3)
  match s.state with
  | 0 =>
    let d := d.onRank t e fun r => { r with retired := true }
    let d := d.raise src 0x85 2 (detail := [e])
    match d.freeSpare t (e % 4) with
    | some sp => d.migrateTo t e sp reason
    | none => (d.steerPut t e fun s => { s with state := 4, reason := reason, changed := d.now }).raise src 0x13 2
  | 3 =>
    (d.steerPut t e fun s => { s with state := 2, sweep := 0, testPass := false, reason := 1, changed := d.now }).raise src 0x81 2
  | 6 =>
    let served := s.altRank * 4 + s.altCh
    if (d.steerNext t served).state = 1 then d
    else
    let d := d.onRank t e fun r => { r with retired := true }
    let d := d.raise src 0x85 2 (detail := [e])
    match d.freeSpare t (e % 4) with
    | some sp => d.migrateTo t served sp reason
    | none => (d.steerPut t served fun s => { s with state := 4, reason := reason, changed := d.now }).raise src 0x13 2
  | _ => d

/-! ### Counting (R224) -/

/-- Ten minutes, one hour and one day in ns. -/
def min10 : Nat := 600000000000
/-- One hour in ns. -/
def hour : Nat := 3600000000000
/-- One day in ns. -/
def day : Nat := 86400000000000

/-- Enter a row in a row fault list of up to 64 entries; a row listed already takes the new device mask beside its own (R224). -/
def addRow (l : List (BitVec 64)) (code : BitVec 64) : List (BitVec 64) :=
  if l.any fun c => c.extractLsb' 0 25 == code.extractLsb' 0 25 then
    l.map fun c => if c.extractLsb' 0 25 = code.extractLsb' 0 25 then c ||| code else c
  else (l ++ [code]).take 64

/-- Enter rows in the row fault list of a rank, which ROWS counts (R224, R242). -/
def Dev.rowsAdd (d : Dev) (t e : Nat) (codes : List (BitVec 64)) : Dev :=
  let d := d.onRank t e fun r => { r with rows := codes.foldl addRow r.rows }
  d.steerNow t e fun s => { s with rowsN := (d.rank t e).rows.length }

/-- A corrected event on device `j` at a line, on physical rank `p` of its tile (R224). -/
def Dev.correctedEvent (d : Dev) (l : Nat) (x : LineLoc) (p j : Nat) : Dev :=
  let src := tsrc x.t (4 * (p % 4) + 1 + x.sc)
  let d := d.raise src 0x80 1 (atag := some (linePage l))
  let d := d.onChan x.t (p % 4) fun c => { c with ceHour := d.now :: d.within hour c.ceHour }
  let key := x.sc * 10 + j
  let old := tget (d.rank x.t p).errLines [] key
  let new := ((x.cla / 64, d.now) :: old.filter fun e => e.1 != x.cla / 64).take 16
  let d := d.onRank x.t p fun r => { r with
    errLines := tset r.errLines key new, ceTimes := d.now :: d.within min10 r.ceTimes }
  let recent := new.filter fun e => decide (d.now < e.2 + day)
  let s := d.steerNext x.t p
  let mark := if x.sc = 0 then s.mark0 else s.mark1
  let d :=
    if 16 ≤ recent.length ∧ mark ≠ j then
      if mark = 15 then
        let rowOf (la : Nat) : BitVec 64 := d.rowCode (la * 64) 0
        let rows := recent.filter fun e => decide (4 ≤ recent.countP fun f => rowOf f.1 == rowOf e.1)
        let codes := (rows.map fun e => d.rowCode (e.1 * 64) (2 ^ j)).dedup
        let d := d.rowsAdd x.t p codes
        (d.steerPut x.t p fun s => if x.sc = 0 then { s with mark0 := j } else { s with mark1 := j }).raise src 0x84 2
      else d.retire x.t p 3 x.sc
    else d
  if 1024 ≤ (d.rank x.t p).ceTimes.length then d.retire x.t p 2 x.sc else d

/-- An uncorrectable line is counted: its row enters the row fault list with the devices `devs` seen failing, and its rank is retired, reason
UE (R224). -/
def Dev.ueEvent (d : Dev) (x : LineLoc) (p devs : Nat) : Dev :=
  let d := d.onChan x.t (p % 4) fun c => { c with ueDay := d.now :: d.within day c.ueDay }
  let code := d.rowCode x.cla devs
  (d.rowsAdd x.t p [code]).retire x.t p 1 x.sc

/-- A CA parity error on a channel: the 64th within 1 s starts a CA retraining (R224). -/
def Dev.caError (d : Dev) (t c : Nat) : Dev :=
  let es := d.now :: d.within 1000000000 (d.chan t c).caErrs
  if 64 ≤ es.length ∧ !(d.chan t c).caTrain then
    (d.onChan t c fun x => { x with caErrs := [], caTrain := true }).raise (tsrc t (4 * c)) 0x41 2
  else d.onChan t c fun x => { x with caErrs := es }

/-! ### Poison (R74, R75, R221, R227) -/

/-- Whether a line is poisoned. -/
def Dev.poisoned (d : Dev) (l : Nat) : Bool := d.expo.poisonLines.contains l

/-- The head whose poison list a page belongs to; none where no head owns it (R75). -/
def Dev.pageHead (d : Dev) (p : Nat) : Option Nat :=
  let g := d.pageEntry p
  if g.valid ∧ g.head = 1 then some 0 else if g.valid ∧ g.head = 2 then some 1 else none

/-- Adjacent and overlapping ranges of one context and cause become one, in a list whose ranges ascend (R75). -/
def mergePoison : List PoisonRange → List PoisonRange
  | [] => []
  | x :: r => match mergePoison r with
    | [] => [x]
    | y :: q =>
      if x.context = y.context ∧ x.cause = y.cause ∧ y.dpa ≤ x.dpa + x.len then
        { x with len := max x.len (y.dpa + y.len - x.dpa) } :: q
      else x :: y :: q

/-- Enter a range in a poison list, ranges ascending, adjacent ones of the same context and cause merged (R75). -/
def insPoison (x : PoisonRange) (l : List PoisonRange) : List PoisonRange :=
  mergePoison (insertLe (fun a b => decide (a.dpa ≤ b.dpa)) x l)

/-- Enter a poisoned range of one page in its owning head's list; a list of 8,192 entries overflows (R75). -/
def Dev.poisonEntry (d : Dev) (dpa len cause : Nat) : Dev :=
  let p := dpa / 4096
  match d.pageHead p with
  | none => d
  | some h =>
    let l := insPoison { dpa := dpa, len := len, context := d.pageCtx16 p, cause := cause } (d.head h).poison
    d.onHead h fun x => if 8192 < l.length then { x with poisonOvf := true } else { x with poison := l }

/-- Remove `[dpa, dpa + len)` from a poison list. -/
def cutPoison (dpa len : Nat) (l : List PoisonRange) : List PoisonRange :=
  l.flatMap fun r =>
    if r.dpa + r.len ≤ dpa ∨ dpa + len ≤ r.dpa then [r]
    else
      (if r.dpa < dpa then [{ r with len := dpa - r.dpa }] else []) ++
      (if dpa + len < r.dpa + r.len then [{ r with dpa := dpa + len, len := r.dpa + r.len - (dpa + len) }] else [])

/-- Store a line as poison: zero data with the poison pattern (R221). -/
def Dev.storePoison (d : Dev) (l : Nat) : Dev :=
  (d.onExpo fun e => { e with poisonLines := addOnce e.poisonLines l }).onMem fun m => m.clear (l * 64) 64

/-- A line becomes poison under R225: stored, entered in the poison list, recorded as Contained (R227). -/
def Dev.linePoison (d : Dev) (l : Nat) : Dev :=
  let x := d.lineLoc l
  ((d.storePoison l).poisonEntry (l * 64) 64 3).raise (tsrc x.t (4 * x.ch + 1 + x.sc)) 0x82 3
    (atag := some (linePage l)) (ctx := d.pageCtx16 (linePage l)) (detail := [1, l * 64])

/-- A line loses its poison, in DRAM and in the lists (R74). -/
def Dev.clearPoison (d : Dev) (l : Nat) : Dev :=
  if d.poisoned l then
    let d := d.onExpo fun e => { e with poisonLines := e.poisonLines.filter fun x => x != l }
    (d.onHead 0 fun x => { x with poison := cutPoison (l * 64) 64 x.poison }).onHead 1 fun x =>
      { x with poison := cutPoison (l * 64) 64 x.poison }
  else d

/-- Every line of a page becomes poison (R74, R121). -/
def Dev.pagePoison (d : Dev) (p cause : Nat) : Dev :=
  let d := d.onExpo fun e => { e with poisonLines := (List.range 64).foldl (fun a i => addOnce a (p * 64 + i)) e.poisonLines }
  d.poisonEntry (pageBase p) 4096 cause

/-- Every line of a page loses its poison. -/
def Dev.pageClearPoison (d : Dev) (p : Nat) : Dev :=
  let d := d.onExpo fun e => { e with poisonLines := e.poisonLines.filter fun l => linePage l != p }
  (d.onHead 0 fun x => { x with poison := cutPoison (pageBase p) 4096 x.poison }).onHead 1 fun x =>
    { x with poison := cutPoison (pageBase p) 4096 x.poison }

/-! ### Strata lookups (R137, R144) -/

/-- The locator entry of a page; KIND 0 where it has none (R144). -/
def Dev.loc (d : Dev) (p : Nat) : LocEntry := (d.strata.loc.find? fun x => x.page == p).getD { page := p }

/-- The record found at the flash address that a page's locator entry names, which must hold the expected PAGE and VSEQ (R142, R144). -/
def Dev.curRec (d : Dev) (p : Nat) : Option PageRec :=
  let l := d.loc p
  if l.kind = 0 then none
  else d.strata.recs.find? fun r => r.page == p && r.addr == l.addr && r.hidx == l.hidx && r.vseq % 8388608 == l.vseqLo

/-- Restore a page's image over DRAM. -/
def Dev.loadPage (d : Dev) (p : Nat) (img : Mem) : Dev := d.onMem fun m => (m.clear (pageBase p) 4096).load img

/-- Put one line of an image back into DRAM. -/
def Dev.loadLine (d : Dev) (l : Nat) (img : Mem) : Dev :=
  d.onMem fun m => (m.clear (l * 64) 64).load (Mem.slice img (l * 64) 64)

/-- The place of a page in the restored-page bitmaps: its tile × 2⁴⁰ + its tile-local page (R121). -/
def Dev.restIdx (d : Dev) (p : Nat) : Nat := d.pageTile p * 2 ^ 40 + d.tla (pageBase p) / 4096

/-- Add a range to a list of disjoint rising ranges (first, count). -/
def addRange (a n : Nat) : List (Nat × Nat) → List (Nat × Nat)
  | [] => [(a, n)]
  | (b, m) :: r =>
    if a + n < b then (a, n) :: (b, m) :: r
    else if b + m < a then (b, m) :: addRange a n r
    else addRange (min a b) (max (a + n) (b + m) - min a b) r

/-- Set `n` bits of the restored-page bitmaps from place `a` on (R121). -/
def Dev.markRange (d : Dev) (a n : Nat) : Dev :=
  if d.restore.allRestored then d else d.onRestore fun r => { r with restored := addRange a n r.restored }

/-- A page is restored: its final content is in DRAM (R121). -/
def Dev.markRestored (d : Dev) (p : Nat) : Dev := d.markRange (d.restIdx p) 1

/-- Whether a page has been restored (R121). -/
def Dev.restored (d : Dev) (p : Nat) : Bool :=
  d.restore.allRestored || d.restore.restored.any fun r => decide (r.1 ≤ d.restIdx p) && decide (d.restIdx p < r.1 + r.2)

/-- The outcome of the handling of an uncorrectable line. -/
inductive UeOut where
  /-- The data are good now. -/
  | data
  /-- The line is poison. -/
  | poison
  /-- The request waits for a fetch or a reversal, which overwrites the page. -/
  | wait
  /-- The request waits for a repair from Strata. -/
  | repair
  deriving DecidableEq, Repr

/-- A line has been corrected or repaired: recorded as Corrected (R227). -/
def Dev.lineMended (d : Dev) (l : Nat) : Dev :=
  let x := d.lineLoc l
  d.raise (tsrc x.t (4 * x.ch + 1 + x.sc)) 0x80 1 (atag := some (linePage l)) (ctx := d.pageCtx16 (linePage l))

/-- The repair of a line from Strata starts: until it ends every request to its page waits (R225, R226). -/
def Dev.repairStart (d : Dev) (l : Nat) : Dev :=
  let p := linePage l
  let d := d.onExpo fun x => { x with
    ueLines := addOnce x.ueLines l
    held := x.held.map fun r => if linePage r.line = p then { r with forRepair := true } else r }
  d.onDram fun x => { x with repairs := addOnce x.repairs p }

/-- A read finds a host-visible line uncorrectable, `devs` the devices seen failing: the action by its page (R225, R227). -/
def Dev.lineUe (d : Dev) (l devs : Nat) : Dev × UeOut :=
  let p := linePage l
  let x := d.lineLoc l
  let d := d.ueEvent x (d.readRank x.t x.e (x.cla / 2097152)) devs
  if !d.restored p ∨ d.ctxs.rollback.contains p then (d, .wait)
  else if !d.persistent p then (d.linePoison l, .poison)
  else if d.isDirty p then
    match d.expo.inflight.find? fun f => f.page == p && !f.rewrite with
    | some f => ((d.loadLine l f.img).lineMended l, .data)
    | none => (d.linePoison l, .poison)
  else
    let e := d.loc p
    if e.poison then (d.linePoison l, .poison)
    else if e.kind = 1 then (d.repairStart l, .repair)
    else if e.kind = 2 then
      match d.curRec p with
      | some r => ((d.loadLine l r.img).lineMended l, .data)
      | none => ((d.onMem fun m => m.clear (l * 64) 64).lineMended l, .data)
    else ((d.onMem fun m => m.clear (l * 64) 64).lineMended l, .data)

/-- What a read of a line decodes to (R220): its outcome and the physical rank it came from. -/
def Dev.decodeLine (d : Dev) (l : Nat) (errs : List (Nat × Nat)) : LineResult × Nat :=
  let x := d.lineLoc l
  let p := d.readRank x.t x.e (x.cla / 2097152)
  let s := d.steer x.t p
  (decodeSlices (if x.sc = 0 then s.mark0 else s.mark1) (slicesOf (d.poisoned l) errs), p)

/-- A read of a line as the controller decodes it: its outcome, and what it counts and does (R220, R224, R225). -/
def Dev.readLine (d : Dev) (l : Nat) (errs : List (Nat × Nat)) : Dev × UeOut :=
  let r := d.decodeLine l errs
  match r.1 with
  | .good => (d, .data)
  | .poison => (d, .poison)
  | .corrected j => (d.correctedEvent l (d.lineLoc l) r.2 j, if d.poisoned l then .poison else .data)
  | .uncorrectable => d.lineUe l (errDevs errs)

/-- The bits of a line that its decoded read returns wrong: none, but for an error that the code takes for another (R220). -/
def Dev.readFlips (d : Dev) (l : Nat) (errs : List (Nat × Nat)) : BitVec 512 :=
  match (d.decodeLine l errs).1 with
  | .good => errBits errs 10
  | .corrected j => errBits errs j
  | _ => 0

/-- The controller finds lines of a page uncorrectable as one of the device's own ports reads it: (line 0 to 63, devices seen failing)
(R225, R226). -/
def Dev.pageUe (d : Dev) (p : Nat) (ue : List (Nat × Nat)) : Dev :=
  ue.foldl (fun d x => if d.poisoned (p * 64 + x.1 % 64) then d else (d.lineUe (p * 64 + x.1 % 64) x.2).1) d

end Sys2Proof.Machine
end

