-- ==== Sys2Proof/Machine/LatLinks.lean ====
section
/-! DEFINITION. The Rurek lattice links: frames, credits, replay, routes and forwarding (chapter 12, R361 to R367, R376). -/

namespace Sys2Proof.Machine

/-! ### Condition and counts -/

/-- The lattice PHYs are powered and no strap holds every link DISABLED (R396, R491). -/
def Dev.latUp (d : Dev) : Bool := d.panel.coreUp && !d.pkg.bedrock && !d.panel.strapNoLat

/-- Frames are discarded and counted; the event names them at most once per second, with their count (R376, R395). -/
def Dev.latDiscard (d : Dev) (n : Nat) : Dev :=
  if n = 0 then d
  else
    let d := d.onLat fun x => { x with discarded := x.discarded + n, discPend := x.discPend + n }
    let due : Bool := match d.lat.discEvent with
      | some t => decide (1000000000 ≤ d.now - t)
      | none => true
    if due then
      let c := d.lat.discPend
      (d.raise 790 0x13 0 (detail := [c])).onLat fun x => { x with discPend := 0, discEvent := some d.now }
    else d

/-! ### Sending (R363, R365, R366) -/

/-- The credits a link holds for a lane: 16, 64, 64 and 512 frames at link up (R366). -/
def LinkSt.credit (k : LinkSt) (vl : Nat) : Nat := tget k.credits (if vl = 0 then 16 else if vl = 3 then 512 else 64) vl

/-- A lane has a frame waiting and a credit. -/
def LinkSt.ready (k : LinkSt) (vl : Nat) : Bool := k.wait.any (fun f => f.vl == vl) && decide (0 < k.credit vl)

/-- The lanes of the deficit round robin, with their weights 1, 1 and 4 (R366). -/
def drrLanes : List Nat := [1, 2, 3, 3, 3, 3]

/-- The lane the arbiter serves next, and its place afterwards: VL0 first, then the round robin (R366). -/
def LinkSt.pick (k : LinkSt) : Option (Nat × Nat) :=
  if k.ready 0 then some (0, k.drr)
  else
    ((List.range 6).find? fun i => k.ready (drrLanes.getD ((k.drr + i) % 6) 1)).map fun i =>
      (drrLanes.getD ((k.drr + i) % 6) 1, (k.drr + i + 1) % 6)

/-- Remove the first element that satisfies `f`. -/
def eraseFirst {α : Type} (f : α → Bool) : List α → List α
  | [] => []
  | x :: r => if f x then r else x :: eraseFirst f r

/-- Bits 47:0 of a frame's header, as a number (R363). -/
def frameHead (fseq : Nat) (f : LatFrame) : Nat :=
  put 0 12 f.dst + put 12 12 f.src + put 24 2 f.vl + put 26 5 f.svc + put 32 6 f.ttl + put 38 1 (bit f.som) + put 39 1 (bit f.eom) + put 40 8 fseq

/-- One bit of the frame CRC: polynomial 8BB7h, most significant bit first (R363; PRESUMED: the spec names the polynomial and the initial
value only, log entry 280). -/
def crc16Bit (c : BitVec 16) : BitVec 16 := if c.getLsbD 15 then (c <<< 1) ^^^ 0x8BB7 else c <<< 1

/-- The frame CRC over a byte. -/
def crc16Byte (c : BitVec 16) (b : Byte) : BitVec 16 :=
  crc16Bit (crc16Bit (crc16Bit (crc16Bit (crc16Bit (crc16Bit (crc16Bit (crc16Bit (c ^^^ (BitVec.zeroExtend 16 b <<< 8)))))))))

/-- The 72 bytes of a frame with its payload: the header, its FCRC over header bits 47:0 and the payload, and the payload (R7, R363). -/
def frameBytes (fseq : Nat) (f : LatFrame) (payload : List Byte) : List Byte :=
  let h := leBytes 6 (frameHead fseq f)
  h ++ leBytes 2 ((h ++ payload).foldl crc16Byte 0xFFFF).toNat ++ payload

/-- A frame as it goes out on link `l`: the bytes of a hello and of an advertisement, whose payloads the spec lays out; of the other services
the header's bits and the values of the body (R363, R367, R369, R374; log entry 280). -/
def frameOut (l fseq : Nat) (f : LatFrame) : Out :=
  .frame l f.svc (if f.svc = 1 ∨ f.svc = 2 then (frameBytes fseq f (f.body.map (BitVec.ofNat 8))).map BitVec.toNat else frameHead fseq f :: f.body)

/-- Send the frames of a link that wait, as credits and the replay buffer allow; nothing new goes out while the link retrains (R365,
R366). -/
def Dev.pump (d : Dev) (l : Nat) : Nat → Dev
  | 0 => d
  | n + 1 =>
    let k := d.link l
    if k.retraining ∨ 255 ≤ k.outst.length ∨ k.state < 3 ∨ k.state = 6 then d
    else match k.pick with
      | none => d
      | some (vl, drr) =>
        match k.wait.find? fun f => f.vl == vl with
        | none => d
        | some f =>
          let d := (d.emit (frameOut l k.txNext f)).onLink l fun k => { k with
            wait := eraseFirst (fun x => x.vl == vl) k.wait
            outst := k.outst ++ [(k.txNext, 0, { f with since := d.now })]
            txNext := (k.txNext + 1) % 256, drr := drr, credits := tset k.credits vl (k.credit vl - 1) }
          d.pump l n

/-- Queue frames on link `l`, and send what may go. -/
def Dev.sendFrames (d : Dev) (l : Nat) (fs : List LatFrame) : Dev :=
  let fs := fs.map fun f => { f with since := d.now }
  (d.onLink l fun k => { k with wait := k.wait ++ fs }).pump l ((d.link l).wait.length + fs.length)

/-- A link-local frame on lane 0 (R364). -/
def Dev.sendLocal (d : Dev) (l svc : Nat) (body : List Nat) : Dev :=
  d.sendFrames l [{ dst := 0, src := d.lat.nodeId, vl := 0, svc := svc, body := body }]

/-- The links of which `f` holds for the state. -/
def Dev.linksIn (d : Dev) (f : Nat → Bool) : List Nat := [0, 1, 2, 3, 4, 5].filter fun l => f (d.link l).state

/-- The first listed link that is ACTIVE towards a node: the primary, else an alternate (R376). -/
def Dev.routeLink (d : Dev) (dst : Nat) : Option Nat :=
  let r := tget d.lat.routes {} dst
  if r.valid then [r.pri, r.alt1, r.alt2].find? fun l => decide (l < 6) && (d.link l).state == 5 else none

/-- The body of a header frame that `n` data frames follow: the first 16 bytes of the payload as one number (OP, FRAMES, FLAGS, SESSION, MSEQ
and STATUS), then the operation's values. The bodies of services 06h, 07h and 09h are encrypted (R367, R380). -/
def msgBody (n svc op session mseq status : Nat) (rest : List Nat) : List Nat :=
  (put 0 8 op + put 8 8 n + put 16 1 (bit (n == 256)) + put 17 1 (bit ([6, 7, 9].contains svc)) + put 32 32 session + put 64 32 mseq
    + put 96 32 status) :: rest

/-- The body of a message of `n` data frames from its fields: operation, SESSION, MSEQ, STATUS and the operation's values (R367). -/
def headBody (n svc : Nat) (fs : List Nat) : List Nat :=
  msgBody n svc (fs.getD 0 0) (fs.getD 1 0) (fs.getD 2 0) (fs.getD 3 0) (fs.drop 4)

/-- Data bytes as the payloads of 64-byte frames. -/
def chunks (bs : List Byte) : Nat → List Nat
  | 0 => []
  | n + 1 => if bs.isEmpty then [] else leNat (bs.take 64) :: chunks (bs.drop 64) n

/-- Send a routed message to a node ID: one header frame and its data frames, all on the link that the header takes (R367, R376). A
message to this node is delivered here. `body` lists the operation, SESSION, MSEQ, STATUS and the operation's values. -/
def Dev.sendNode (d : Dev) (dst svc vl : Nat) (body : List Nat) (data : List Byte) : Dev :=
  if dst = d.lat.nodeId then d.emit (.latMsg d.lat.uid svc body)
  else
    let cs := chunks data 256
    let n := cs.length
    match (if d.lat.nodeId = 0 then none else d.routeLink dst) with
    | none => d.latDiscard (n + 1)
    | some l =>
      let h : LatFrame := { dst := dst, src := d.lat.nodeId, vl := vl, svc := svc, som := true, eom := n == 0, body := headBody n svc body }
      d.sendFrames l (h :: cs.mapIdx fun i c => { h with som := false, eom := i + 1 == n, body := [c] })

/-- The node ID that the advertisements give for a unique ID; 0 for none (R368). -/
def Dev.nodeOf (d : Dev) (uid : Nat) : Nat :=
  if uid = d.lat.uid then d.lat.nodeId else ((d.lat.lsas.find? fun a => a.uid == uid).map fun a => a.nodeId).getD 0

/-- Send a routed message to a unique ID. -/
def Dev.sendMsg (d : Dev) (uid svc vl : Nat) (body : List Nat) (data : List Byte := []) : Dev :=
  if uid = d.lat.uid then d.emit (.latMsg uid svc body)
  else if d.nodeOf uid = 0 then d.latDiscard 1
  else d.sendNode (d.nodeOf uid) svc vl body data

/-- Send a message to every node (R376, R392). -/
def Dev.sendBroadcast (d : Dev) (svc vl : Nat) (body : List Nat) : Dev :=
  if d.lat.nodeId = 0 then d
  else (d.linksIn fun s => s == 5).foldl
    (fun d l => d.sendFrames l [{ dst := 0xFFF, src := d.lat.nodeId, vl := vl, svc := svc, body := headBody 0 svc body }]) d

/-! ### Receiving (R365, R366) -/

/-- `n` good frames in sequence arrive on a lane of link `l`. -/
def Dev.rxFrames (d : Dev) (l vl n : Nat) : Dev :=
  d.onLink l fun k => { k with rxNext := (k.rxNext + n) % 256, unacked := k.unacked + n, freed := tmod k.freed 0 vl fun x => x + n }

/-- ACK: an ACK frame naming FSEQ `fseq` acknowledges every outstanding frame up to it (R365). -/
def execAck (l : Fin 6) (fseq : BitVec 8) (dt : Nat) (s : State) : Res := s.run fun d =>
  let d := d.elapse dt
  let k := d.link l.val
  if k.outst.any fun f => f.1 == fseq.toNat then
    let rest := (k.outst.dropWhile fun f => f.1 != fseq.toNat).drop 1
    (d.onLink l.val fun k => { k with outst := rest }).pump l.val k.wait.length
  else d.onLink l.val fun k => { k with badAck := k.badAck + 1 }

/-- The replay rate of a link over the last second. -/
def Dev.replayRate (d : Dev) (l : Nat) : Nat := (d.link l).replays.countP fun t => decide (d.now - t ≤ 1000000000)

/-- Replay the frames of link `l` of which `f` holds, each a Corrected event; a frame replayed four times, or more than 1,000 replays
within 1 s, makes the link retrain, and more than 10,000 a Contained message (R365, R395). -/
def Dev.replay (d : Dev) (l : Nat) (f : Nat × Nat × LatFrame → Bool) : Dev :=
  let k := d.link l
  let hit := k.outst.filter f
  if hit.isEmpty then d
  else
    let t := d.now
    let d := hit.foldl (fun d x => (d.emit (frameOut l x.1 x.2.2)).raise (784 + l) 0x44 1) d
    let outst := k.outst.map fun x => if f x then (x.1, x.2.1 + 1, { x.2.2 with since := t }) else x
    let d := d.onLink l fun k => { k with
      outst := outst, replayed := true
      replays := (k.replays.filter fun u => decide (t - u ≤ 1000000000)) ++ hit.map fun _ => t }
    let n := d.replayRate l
    let d := if 10000 < n then d.raise (784 + l) 0x44 3 else d
    if (outst.any fun x => decide (4 ≤ x.2.1)) ∨ 1000 < n then d.onLink l fun k => { k with retraining := true } else d

/-- NAK: a NAK frame names the last good FSEQ; every frame after it is replayed (R365). -/
def execNak (l : Fin 6) (fseq : BitVec 8) (dt : Nat) (s : State) : Res := s.run fun d =>
  let d := d.elapse dt
  let k := d.link l.val
  if k.outst.any fun f => f.1 == fseq.toNat then
    let rest := (k.outst.dropWhile fun f => f.1 != fseq.toNat).drop 1
    let d := d.onLink l.val fun k => { k with outst := rest, replayed := true }
    (d.replay l.val fun _ => true).pump l.val k.wait.length
  else d.onLink l.val fun k => { k with badAck := k.badAck + 1 }

/-- ACK_SEND: the frames accepted so far are acknowledged, and the credits of the frames freed go back (R365, R366). -/
def execAckSend (l : Fin 6) (dt : Nat) (s : State) : Res := s.run fun d =>
  let d := d.elapse dt
  let k := d.link l.val
  if k.state < 3 ∨ k.state = 6 then d
  else
    let d := if k.unacked = 0 then d else d.emit (.frame l.val 0 [0, (k.rxNext + 255) % 256])
    let back := k.freed.filter fun e => e.2 != 0
    let d := if back.isEmpty then d else d.emit (.frame l.val 0 (2 :: back.flatMap fun e => [e.1, e.2]))
    d.onLink l.val fun k => { k with unacked := 0, freed := [] }

/-- REPLAY_TIMEOUT: the frames unacknowledged for 20 µs are replayed (R365). -/
def execReplayTimeout (l : Fin 6) (dt : Nat) (s : State) : Res := s.run fun d =>
  let d := d.elapse dt
  if (d.link l.val).retraining then d else d.replay l.val fun x => decide (20000 ≤ d.now - x.2.2.since)

/-- CREDIT_RETURN: `n` send credits of a lane come back (R366). -/
def execCreditReturn (l : Fin 6) (vl : Fin 4) (n : Nat) (dt : Nat) (s : State) : Res := s.run fun d =>
  let d := d.elapse dt
  let d := d.onLink l.val fun k => { k with credits := tset k.credits vl.val (k.credit vl.val + n) }
  d.pump l.val (d.link l.val).wait.length

/-- CREDIT_WAIT_DISCARD: transit frames that have waited more than 10 ms for a credit are discarded and counted (R366). A transit
frame is one whose source is another node. -/
def execCreditWaitDiscard (l : Fin 6) (dt : Nat) (s : State) : Res := s.run fun d =>
  let d := d.elapse dt
  let old (f : LatFrame) : Bool := f.src != d.lat.nodeId && decide (10000000 < d.now - f.since)
  let n := (d.link l.val).wait.countP old
  (d.onLink l.val fun k => { k with wait := k.wait.filter fun f => !old f }).latDiscard n

/-! ### Forwarding (R364, R373, R376, R396) -/

/-- Transit forwarding runs: from the first loaded route table, until stage 5 of a seal, and not in the safe state (R380, R396). -/
def Dev.transitRuns (d : Dev) : Bool :=
  d.lat.loaded && decide (d.pkg.safe = 0) && !(d.sealing.active && decide (5 ≤ d.sealing.stage) && decide (d.sealing.stage < 7))

/-- The link by which a transit frame leaves: for a header frame the primary or an alternate; for another the link its header took (R376). -/
def Dev.transitLink (d : Dev) (l : Nat) (f : LatFrame) : Option Nat :=
  if f.som then d.routeLink f.dst
  else
    match d.lat.paths.find? fun p => p.1 == l && p.2.1 == f.src && p.2.2.1 == f.dst && p.2.2.2.1 == f.vl with
    | some p => if p.2.2.2.2 < 6 then some p.2.2.2.2 else none
    | none => none

/-- Keep the path of a message while its frames pass. -/
def Dev.transitPath (d : Dev) (l : Nat) (f : LatFrame) (out : Nat) : Dev :=
  let here (p : Nat × Nat × Nat × Nat × Nat) : Bool := p.1 == l && p.2.1 == f.src && p.2.2.1 == f.dst && p.2.2.2.1 == f.vl
  d.onLat fun x => { x with
    paths := (x.paths.filter fun p => !here p) ++ (if f.eom then [] else [(l, f.src, f.dst, f.vl, out)]) }

/-- Deliver, forward or discard an accepted frame (R364, R373, R376). `uid` is the unique ID in the body of an ID request or grant. -/
def Dev.route (d : Dev) (l : Nat) (f : LatFrame) (uid : Nat) : Dev :=
  if 0x0A ≤ f.svc then d.latDiscard 1
  else if f.dst = 0 then
    if f.svc = 3 ∧ uid ≠ d.lat.uid ∧ thas d.lat.idBack uid then d.sendFrames (tget d.lat.idBack 7 uid) [f]
    else d.emit (.latMsg d.lat.uid f.svc f.body)
  else if f.dst = 0xFFF then
    if (tget d.lat.routes {} f.src).pri = l ∧ (tget d.lat.routes {} f.src).valid then
      let d := d.emit (.latMsg d.lat.uid f.svc f.body)
      if !d.transitRuns then d
      else if f.ttl ≤ 1 then d.latDiscard 1
      else ((d.linksIn fun s => s == 5).filter fun x => x != l).foldl (fun d x => d.sendFrames x [{ f with ttl := f.ttl - 1 }]) d
    else d.latDiscard 1
  else if f.dst = d.lat.nodeId then d.emit (.latMsg d.lat.uid f.svc f.body)
  else if !d.transitRuns ∨ f.ttl ≤ 1 then (d.transitPath l f 7).latDiscard 1
  else
    let d := if f.svc = 3 ∧ f.src = 0 then d.onLat fun x => { x with idBack := tset x.idBack uid l } else d
    match d.transitLink l f with
    | none => (d.transitPath l f 7).latDiscard 1
    | some x => (d.transitPath l f x).sendFrames x [{ f with ttl := f.ttl - 1 }]

/-- FRAME_FORWARD: a frame arrives on link `l`, its FCRC valid or not: out of order or bad it is discarded with a NAK; accepted, it is
delivered, forwarded or discarded (R363 to R365, R376). -/
def execFrameForward (l : Fin 6) (good : Bool) (fseq : BitVec 8) (dst src : BitVec 12) (vl : Fin 4) (svc : BitVec 5) (ttl : BitVec 6)
    (som eom : Bool) (uid : Nat) (body : List Nat) (dt : Nat) (s : State) : Res := s.run fun d =>
  let d := d.elapse dt
  let k := d.link l.val
  if !d.latUp ∨ k.state < 3 ∨ k.state = 6 then d
  else if !good ∨ fseq.toNat ≠ k.rxNext then
    (d.emit (.frame l.val 0 [1, (k.rxNext + 255) % 256])).onLink l.val fun k => { k with replayed := true }
  else
    (d.rxFrames l.val vl.val 1).route l.val
      { dst := dst.toNat, src := src.toNat, vl := vl.val, svc := svc.toNat, ttl := ttl.toNat, som := som, eom := eom, body := body } uid

end Sys2Proof.Machine
end

