-- ==== Sys2Proof/Machine/Memory.lean ====
section
/-! DEFINITION. Serving a memory request: the Region Table checks, the holds, performing a read or a write, and pacing
(R32, R41, R47, R66 to R68, R74, R84, R112, R122, R123, R174, R199, R226). -/

namespace Sys2Proof.Machine

/-- The ownership-check source of a head (R313). -/
def ownSrc (h : Nat) : Nat := 772 + 8 * h

/-- A request turned away by ownership or by the device's condition is counted by the head's ownership source (R32, R112). -/
def Dev.countOwn (d : Dev) (h p : Nat) : Dev := d.raise (ownSrc h) 0x12 0 (atag := some p) (headOnly := h)

/-- Complete a request: a read with poison, a write without error and not performed (R32). -/
def Dev.refuseQuiet (d : Dev) (r : HeldReq) : Dev :=
  if r.cmd ≠ 0 then d else if r.write then d.emit (.memWrite r.head r.id) else d.emit (.memRead r.head r.id 0 true)

/-- Refuse a request: a read completes with poison, a write with an error indication (R84, R112, R318). -/
def Dev.refuseErr (d : Dev) (r : HeldReq) : Dev :=
  if r.cmd ≠ 0 then d else if r.write then d.emit (.reqError r.id) else d.emit (.memRead r.head r.id 0 true)

/-- The governor state that a tile and the heads last received (R40). -/
def Dev.tileGov (d : Dev) (t : Nat) : Nat := tget d.expo.gov.sent 0 t

/-- Ask for a group to be armed, unless it is armed, asked for, or carried by a running program (R47, R48). -/
def Dev.requestArm (d : Dev) (g : Nat) : Dev :=
  let run : Bool := match tget d.expo.armProg none (d.groupTile g) with
    | some p => p.arms.contains g
    | none => false
  if d.isArmed g || run then d else d.onExpo fun e => { e with armReq := addOnce e.armReq g }

/-- The tile's set becomes full: the event is raised once for each entry to the full state (R50). -/
def Dev.armFullCheck (d : Dev) (t : Nat) : Dev :=
  if 1048576 ≤ d.armedCount t then
    if d.expo.armFull.contains t then d
    else (d.onExpo fun e => { e with armFull := addOnce e.armFull t }).raise 811 0x13 2 (tile := some t)
  else d.onExpo fun e => { e with armFull := e.armFull.filter fun x => x != t }

/-- The delay of a paced write's completion on head `h`, as the head last received it (R40, R66). -/
def Dev.paceDelay (d : Dev) (h t cls : Nat) : Nat := tget d.expo.gov.pace 0 ((h * 8 + t) * 2 + (cls - 1))

/-- Lattice time L (R352). -/
def Dev.lTime (d : Dev) : Int := (d.qtz.count : Int) + d.qtz.loff

/-- A write to a page of a context with an outgoing stream or migration sets its replica bit, or flags the page for
resending while it is in flight (R385). -/
def Dev.replicaMark (d : Dev) (p : Nat) : Dev :=
  match d.pageCtx p with
  | none => d
  | some c =>
    if d.lat.streams.any fun s => s.outgoing && s.local_ == c then
      d.onLat fun x => { x with streams := x.streams.map fun s =>
        if s.outgoing ∧ s.local_ = c ∧ s.state ≠ 4 ∧ s.state ≠ 0x13 ∧ s.state ≠ 0x14 then
          { s with
            flying := s.flying.map fun f => if f.1 = p then (f.1, f.2.1, true) else f
            bits := if s.bits.any fun b => b.1 == p then s.bits else s.bits ++ [(p, d.lTime.toNat)] }
        else s }
    else d

/-- A page that is the target of a replica stream is written by anything other than the stream (R388). -/
def Dev.otherWrite (d : Dev) (p : Nat) : Dev :=
  match d.pageCtx p with
  | none => d
  | some c =>
    if d.lat.streams.any fun s => !s.outgoing && !s.migration && s.local_ == c then
      d.onLat fun x => { x with streams := x.streams.map fun s =>
        if !s.outgoing && !s.migration && s.local_ == c then { s with dirtied := true } else s }
    else d

/-- Perform a write (R41, R74): the enabled bytes are written; a full-line write clears the line's poison, a partial write
leaves a poisoned line poisoned; the page becomes dirty. -/
def Dev.doWrite (d : Dev) (l : Nat) (data : BitVec 512) (mask : BitVec 64) : Dev :=
  let full := mask == BitVec.allOnes 64
  let d := if full then d.clearPoison l else d
  let d := if d.poisoned l then d else d.onMem fun m => m.setLine l data mask
  (d.dirtyPage (linePage l)).replicaMark (linePage l)

/-- Complete a performed write of head `h`: at once, or after the delay that pacing gives it (R66, R67). -/
def Dev.finishWrite (d : Dev) (r : HeldReq) (wasClean : Bool) : Dev :=
  let p := linePage r.line
  let t := d.pageTile p
  let g := d.tileGov t
  let h := r.head
  let dl :=
    if !d.persistent p then 0
    else if wasClean then (if 2 ≤ g then d.paceDelay h t (d.pageCls p) else 0)
    else if 3 ≤ g then tget d.expo.gov.dmax 0 h else 0
  if dl = 0 then d.emit (.memWrite r.head r.id)
  else d.onExpo fun e => { e with paced := e.paced ++ [{ id := r.id, head := r.head, due := d.now + dl }] }

/-- A write of the owning head is metered: 64 bytes a line (R209). -/
def Dev.meterWrite (d : Dev) (l : Nat) : Dev :=
  match d.pageCtx (linePage l) with
  | some c => d.onCtx c fun x => { x with meter := { x.meter with written := x.meter.written + 64 } }
  | none => d

/-- The incoming stream that a page of the lattice port belongs to (R386). -/
def Dev.portStream (d : Dev) (session line : Nat) : Option Stream :=
  d.lat.streams.find? fun s => !s.outgoing && s.session == session && d.pageCtx (linePage line) == some s.local_

/-- A page of a replica or migration is acknowledged to its sender (R386). -/
def Dev.ackPage (d : Dev) (session mseq line : Nat) : Dev :=
  match d.portStream session line with
  | some s => d.sendMsg s.uid 7 2 [0, session, mseq, 0]
  | none => d

/-- A page of a replica or migration is in DRAM with its dirty bit set, so it is acknowledged: a migration's, paced as a write of the head
that owns its granule, after the delay of a write that made the page dirty or, in BLACK and LAPSE, of any (R67, R386). -/
def Dev.replicaDone (d : Dev) (r : HeldReq) : Dev :=
  let p := linePage r.line
  let t := d.pageTile p
  let g := d.tileGov t
  let h := (d.pageHead p).getD 0
  let made := d.expo.dirty.any fun x => x.page == p && decide (r.arrive ≤ x.since)
  let mig : Bool := match d.portStream r.session r.line with | some s => s.migration | none => false
  let dl := if !mig || !d.persistent p then 0
    else if made then (if 2 ≤ g then d.paceDelay h t (d.pageCls p) else 0)
    else if 3 ≤ g then tget d.expo.gov.dmax 0 h else 0
  if dl = 0 then d.ackPage r.session r.mseq r.line
  else d.onExpo fun e => { e with
    paced := e.paced ++ [{ head := 2, due := d.now + dl, ack := true, session := r.session, mseq := r.mseq, line := r.line }] }

/-- The delay of a completion has ended, or is cut short by a seal (R66, R84). -/
def Dev.pacedDone (d : Dev) (p : Paced) : Dev :=
  if p.ack then d.ackPage p.session p.mseq p.line else d.emit (.memWrite p.head p.id)

/-- A write that would make a clean P1 or P2 page dirty (R47, R68). -/
def Dev.wouldDirty (d : Dev) (r : HeldReq) : Bool :=
  r.write && d.persistent (linePage r.line) && !d.isDirty (linePage r.line)

/-- Start what a held request waits for: its demand fetch (R122), its group's arm (R47). -/
def Dev.startHeld (d : Dev) (r : HeldReq) : Dev :=
  let p := linePage r.line
  let d := if r.forFetch then d.onRestore fun x => { x with fetching := addOnce x.fetching p } else d
  if r.forArm then (d.requestArm (pageGroup p)).armFullCheck (d.pageTile p) else d

/-- A message of a vector is sent, or becomes pending while the vector is masked or the link is down (R202). -/
def Dev.fire (d : Dev) (h v : Nat) : Dev :=
  let x := d.head h
  if !(x.msixOpen.contains v) ∨ !x.linkUp then d.onHead h fun y => { y with msixPending := addOnce y.msixPending v }
  else d.emit (.msix h v)

/-- The head that owns a context: 0 H0, 1 H1. -/
def Dev.ownerHead (d : Dev) (c : Nat) : Nat := (d.ctx c).owner - 1

/-- A ring's vector fires and its unsignalled completions are signalled. -/
def Dev.fireRing (d : Dev) (c k : Nat) : Dev :=
  let r := d.ring c k
  (d.onRing c k fun r => { r with unsig := 0 }).fire (d.ownerHead c) r.vector

/-- A completion to be signalled (R202). -/
def Dev.signal (d : Dev) (c k : Nat) : Dev :=
  let r := d.ring c k
  if r.coalCount = 0 ∨ r.vector = 65535 then d
  else
    let d := d.onRing c k fun r => { r with unsig := r.unsig + 1, unsigAt := if r.unsig = 0 then d.now else r.unsigAt }
    if r.coalCount ≤ r.unsig + 1 ∨ r.coalTime = 0 then d.fireRing c k else d

/-- A completion of the device has been written: the host sees it, and its ring signals it unless its entry said otherwise (R189,
R202). -/
def Dev.posted (d : Dev) (r : HeldReq) : Dev :=
  let lo := if r.mask.getLsbD 0 then 0 else 256
  let d := d.emit (.cqe r.session r.mseq (leBytes 32 (r.data.toNat / 2 ^ lo)))
  if r.irq then d.signal r.session r.mseq else d

/-- Perform a request that nothing holds any longer; a write whose group was disarmed while something else held it waits for its arm
again (R47), and one whose channel cannot take it now waits for the channel (R224, R231, R236, R237). A read's `data` are the bits that its
decoding left wrong (R220). A request of a replica stream or a migration has head number 2 (R386); one that a poison command made has no completion of
its own (R430); a completion of the device is posted (R189). -/
def Dev.perform (d : Dev) (r : HeldReq) : Dev :=
  let p := linePage r.line
  if (d.tile (d.pageTile p)).isolated then d.refuseQuiet r
  else if d.wouldDirty r && !d.isArmed (pageGroup p) then
    (d.startHeld { r with forArm := true }).onExpo fun e => { e with held := e.held ++ [{ r with forArm := true }] }
  else
  let hostWrite := r.write && decide (r.head < 2) && decide (r.cmd = 0)
  if d.lineWaits r.line r.write hostWrite (r.cmd = 3) then d.onExpo fun e => { e with held := e.held ++ [{ r with forChan := true }] }
  else
  let d := d.chanTouch r.line r.write hostWrite (r.cmd = 3)
  if r.write then
    let clean := !d.isDirty p
    let d := if r.head = 2 then d else d.otherWrite p
    let d := if r.cmd = 1 then (((d.storePoison r.line).poisonEntry (r.line * 64) 64 3).dirtyPage p).replicaMark p
      else d.doWrite r.line r.data r.mask
    if r.cmd = 1 then d else if r.cmd = 3 then d.posted r else if r.cmd = 2 then d.meterWrite r.line
    else if r.head = 2 then (if r.line % 64 = 63 then d.replicaDone r else d)
    else (d.meterWrite r.line).finishWrite r clean
  else if d.poisoned r.line then d.emit (.memRead r.head r.id 0 true)
  else d.emit (.memRead r.head r.id (d.mem.line r.line ^^^ r.data) false)

/-- Nothing holds the request. -/
def HeldReq.free (r : HeldReq) : Bool :=
  !(r.forArm || r.forGov || r.forFetch || r.forRev || r.forRepair || r.forClass || r.forTest || r.forChan)

/-- Nothing holds the request, and it is no completion of the device that a seal keeps back (R93). -/
def Dev.goes (d : Dev) (r : HeldReq) : Bool := r.free && !(d.sealing.frozen && r.cmd == 3)

/-- Perform every held request that nothing holds any longer, oldest first. -/
def Dev.serve (d : Dev) : Dev :=
  let ready := d.expo.held.filter d.goes
  ready.foldl Dev.perform (d.onExpo fun e => { e with held := e.held.filter fun r => !d.goes r })

/-- The channels of a tile may take requests again: those that waited for them are tried in order (R224, R231, R236, R237). -/
def Dev.chanServe (d : Dev) (t : Nat) : Dev :=
  let f (r : HeldReq) : HeldReq := if (d.lineLoc r.line).t = t then { r with forChan := false } else r
  (d.onExpo fun e => { e with held := e.held.map f }).serve

/-- The holds of a request that has passed its checks: a fetch (R122, R123), a reversal or a bitmap rebuild (R199, R200),
a repair (R226), a class change (R45), an arm record (R47), and the BLACK and LAPSE hold (R68), which for a write held for a
fetch begins when the fetch ends (R123) and which a completion of the device never meets (R67). -/
def Dev.holds (d : Dev) (r : HeldReq) : HeldReq :=
  let p := linePage r.line
  let fetch := !d.restored p
  let rev := d.ctxs.rollback.contains p || (match d.pageCtx p with
    | some c => mbit (d.ctx c).rebuild (d.pageTile p)
    | none => false)
  let clean := d.wouldDirty r
  { r with
    forFetch := fetch
    forRev := rev
    forChan := false
    forRepair := d.dram.repairs.contains p
    forClass := r.write && d.ctxs.rtPend.any fun c => c.granule == pageGran p && c.zero
    forArm := clean && !d.isArmed (pageGroup p)
    forGov := clean && !fetch && !rev && r.cmd != 3 && decide (3 ≤ d.tileGov (d.pageTile p)) }

/-- A request that has passed every check is performed or held. -/
def Dev.admitReq (d : Dev) (r : HeldReq) : Dev :=
  let r := d.holds r
  if d.goes r then d.perform r
  else (d.startHeld r).onExpo fun e => { e with held := e.held ++ [r] }

/-- Whether the granule of a page is open to head `h` (R32, R174). -/
def Dev.pageOpen (d : Dev) (h p : Nat) : Bool :=
  let g := d.pageEntry p
  let st := (d.ctx g.context).state
  g.valid && d.backed (pageGran p) && g.head == h + 1 && (st == 1 || st == 5)

/-- A memory request at a head, from its address on (R30, R32, R84, R104, R112, R318). A read carries what the controller's
read of the line finds. -/
def Dev.request (d : Dev) (h hpa : Nat) (write : Bool) (data : BitVec 512) (mask : BitVec 64)
    (errs : List (Nat × Nat)) : Dev :=
  let id := d.expo.nextReq
  let d := d.onExpo fun e => { e with nextReq := e.nextReq + 1 }
  let r0 : HeldReq := { id := id, head := h, write := write, data := data, mask := mask, arrive := d.now }
  if d.pkg.safe ≠ 0 then d.refuseErr r0
  else match d.hdmDecode h hpa with
  | none => d.emit (.unsupported h id)
  | some dpa =>
    let r := { r0 with line := dpa / 64 }
    let p := dpa / 4096
    if !d.restore.ready then (d.refuseErr r).countOwn h p
    else if d.sealing.frozen then
      if d.sealing.test then d.onExpo fun e => { e with held := e.held ++ [{ r with forTest := true }] }
      else d.refuseErr r
    else if !(d.pageOpen h p) then (d.refuseQuiet r).countOwn h p
    else if (d.tile (d.pageTile p)).isolated then d.refuseQuiet r
    else if write ∨ !(d.holds r).free then d.admitReq r
    else
      let flips := d.readFlips r.line errs
      let (d, o) := d.readLine r.line errs
      match o with
      | .data => d.perform { r with data := flips }
      | .poison => d.emit (.memRead h id 0 true)
      | .wait => d.admitReq r
      | .repair => d.admitReq r

/-- Requests queued by a test seal, when it releases ingress (R104): each is checked and performed or held as on arrival. -/
def Dev.releaseTest (d : Dev) : Dev :=
  let q := d.expo.held.filter fun r => r.forTest
  q.foldl (fun d r =>
      if !(d.pageOpen r.head (linePage r.line)) then (d.refuseQuiet r).countOwn r.head (linePage r.line)
      else d.admitReq { r with forTest := false })
    (d.onExpo fun e => { e with held := e.held.filter fun r => !r.forTest })

/-- When the fetch or reversal that held a write ends, the BLACK and LAPSE hold begins for it (R123), but not once a seal has released such
holds (R84). -/
def Dev.govAfter (d : Dev) (r : HeldReq) : HeldReq :=
  if !d.sealing.frozen && d.wouldDirty r && r.cmd != 3 && decide (3 ≤ d.tileGov (d.pageTile (linePage r.line))) then { r with forGov := true, arrive := d.now } else r

/-- The fetch of a page has ended: held requests lose that hold, and are served (R122, R123). -/
def Dev.fetchDone (d : Dev) (p : Nat) : Dev :=
  let d := d.onRestore fun x => { x with fetching := x.fetching.filter fun q => q != p }
  let f (r : HeldReq) : HeldReq :=
    if r.forFetch ∧ linePage r.line = p then d.govAfter { r with forFetch := false } else r
  (d.onExpo fun e => { e with held := e.held.map f }).serve

/-- The reversal of a page, or the rebuild of a bitmap that held its requests, has ended (R199, R200). -/
def Dev.revDone (d : Dev) (f : Nat → Bool) : Dev :=
  let g (r : HeldReq) : HeldReq := if r.forRev ∧ f (linePage r.line) then d.govAfter { r with forRev := false } else r
  (d.onExpo fun e => { e with held := e.held.map g }).serve

/-- Disarm a group: it leaves the armed set at once, and a disarm record is queued (R49). -/
def Dev.disarm (d : Dev) (g : Nat) : Dev :=
  if d.isArmed g then
    d.onExpo fun e => { e with
      armed := e.armed.filter fun x => x.group != g
      disarmQ := e.disarmQ ++ [(g, d.now)] }
  else d

/-- The clean armed group of a tile that has been clean longest (R50). -/
def Dev.longestClean (d : Dev) (t : Nat) : Option Nat :=
  let cs := d.expo.armed.filter fun g => d.groupTile g.group == t && g.cleanSince.isSome
  (argMin cs fun g => g.cleanSince.getD 0).map fun g => g.group

/-- Early disarms while the set holds 983,040 groups or more: longest-clean first, until it is below or no armed group is
clean (R50). -/
def Dev.earlyDisarm (d : Dev) (t : Nat) : Nat → Dev
  | 0 => d
  | n + 1 =>
    if d.armedCount t < 983040 then d
    else match d.longestClean t with
      | some g => Dev.earlyDisarm (d.disarm g) t n
      | none => d

/-- From the freeze of a seal until the armed set of a tile's stage 2 is durable, no page of the tile becomes dirty (R51, R84). -/
def Dev.armFrozen (d : Dev) (t : Nat) : Bool := d.sealing.frozen && !(mbit d.sealing.metaOk t)

/-- Groups become armed: the writes held for them proceed (R47), once stage 2 of a seal that runs has made the armed set durable (R51).
DESIGN CHOICE (log 238): the 10 minutes of R49 for a group none of whose pages has become dirty yet run from its arming. -/
def Dev.armGroups (d : Dev) (gs : List Nat) : Dev :=
  let d := d.onExpo fun e => { e with
    armed := e.armed ++ (gs.filter fun g => !e.armed.any fun x => x.group == g).map fun g => { group := g, cleanSince := some d.now } }
  let gs := gs.filter fun g => !d.armFrozen (d.groupTile g)
  let d := d.onExpo fun e => { e with
    held := e.held.map fun r => if r.forArm ∧ gs.contains (pageGroup (linePage r.line)) then { r with forArm := false } else r }
  let due := d.expo.dirtyWait.filter fun p => gs.contains (pageGroup p)
  let d := d.onExpo fun e => { e with dirtyWait := e.dirtyWait.filter fun p => !gs.contains (pageGroup p) }
  let d := due.foldl Dev.dirtyPage d
  (gs.map d.groupTile).dedup.foldl Dev.armFullCheck d.serve

/-- The key of a page's context is lost, so the page can be landed no more (R183). -/
def Dev.keyGone (d : Dev) (p : Nat) : Bool := match d.pageCtx p with
  | some c => (d.ctx c).keyLost
  | none => false

/-- Mark a page dirty, arming its group first (R47, R143, R150, R161): a page of a group not armed waits for its arm. A page whose key is
lost stays clean, since no record of it can be made (R183). -/
def Dev.dirtyArmed (d : Dev) (p : Nat) : Dev :=
  if !d.persistent p || d.keyGone p then d
  else if d.isArmed (pageGroup p) then d.dirtyPage p
  else ((d.requestArm (pageGroup p)).armFullCheck (d.pageTile p)).onExpo fun e => { e with dirtyWait := addOnce e.dirtyWait p }

/-- After a seal, the pages that were still to be marked dirty are marked, or wait for their groups' arms again (R47, R84). -/
def Dev.rewait (d : Dev) : Dev := d.expo.dirtyWait.foldl Dev.dirtyArmed (d.onExpo fun e => { e with dirtyWait := [] })

end Sys2Proof.Machine
end

