-- ==== Sys2Proof/Machine/Reactions.lean ====
section
/-! DEFINITION. What many commands share: ledger entries, tile isolation, the safe state, hibernation, the operating point,
the mirror into the deputy (R18, R23, R154, R318, R327, R90). -/

namespace Sys2Proof.Machine

/-! ### Restore status (R131, R132) -/

/-- Host-visible pages of one tile (R38). -/
def Dev.tilePages (d : Dev) : Nat := d.hostGib * 262144

/-- Host-visible pages of a tile that are restored. -/
def Dev.restoredOn (d : Dev) (t : Nat) : Nat :=
  if d.restore.allRestored then d.tilePages
  else min d.tilePages (sumBy (d.restore.restored.filter fun r => r.1 / 2 ^ 40 == t) fun r => r.2)

/-- DW_RESTORE_STATUS and DW_RESTORE_POISON take the present state, under one SEQ (R132). -/
def Dev.restUpd (d : Dev) : Dev :=
  let r := d.restore
  let total := d.inSvc.length * d.tilePages
  let done := sumBy d.inSvc d.restoredOn
  let tier (t : Nat) : Nat := if (d.tile t).isolated then 3 else tget r.tier 0 t
  let f := put 0 3 r.phase + put 3 1 (bit r.ready) + put 4 1 (bit r.warm) + put 5 1 (bit r.dsInc)
    + sumBy tiles8 (fun t => put (8 + 2 * t) 2 (tier t)) + put 24 8 (if total = 0 then 100 else done * 100 / total)
    + put 32 16 ((total - done + 262143) / 262144)
  let d := d.dwUpd 0x640 16 f
  d.dwSet 0x648 (r.poisonPages % 2 ^ 40 + put 48 16 (bits (d.dwGet 0x640 0) 48 16))

/-! ### Roles (R17 to R22) -/

/-- A supervisor runs: it sends its heartbeat and has not been halted. -/
def Dev.supv (d : Dev) (t : Nat) : Bool := (d.tile t).supvOk && !(d.tile t).supvHalted

/-- The package role is held by a running supervisor and no takeover is under way (R20). -/
def Dev.roleRuns (d : Dev) : Bool := d.supv d.pkg.lead && d.pkg.takeStep == 0

/-- The lead mirrors the package state into the deputy (R18). -/
def Dev.mirrorNow (d : Dev) : Dev :=
  if d.roleRuns && d.pkg.deputy.isSome then
    d.onMirror fun m => { m with
      queue := d.jcs.queue, leases := d.jcs.leases, gov := d.expo.gov
      kSeal := d.expo.kSeal, landRef := d.expo.landRef, eFixed := d.expo.eFixed
      brC := d.energy.brC, brEsr := d.energy.brEsr, brFill := d.energy.brFill, brEnergy := d.energy.brEnergy
      ppsState := d.qtz.ppsState, ppsRun := d.qtz.ppsRun, ppsRejects := d.qtz.ppsRejects
      src := d.energy.src, pack := d.energy.pack, rate := d.qtz.rate, freq := d.qtz.freq, done := d.jcs.done }
  else d

/-! ### Operating points (R23, R24, R442, R443) -/

/-- The read-delay tap that the table of R442 gives for a tile maximum (1/16 °C) and an operating point; the band is taken
from the maximum less 5 °C. -/
def tapFor (maxT : Int) (pt : Nat) : Nat :=
  let m := maxT - 80
  let row := if m < 400 then 12 else if m < 1120 then 11 else if m < 1680 then 10 else 9
  let v := row - 2 * pt
  if m ≥ 1680 ∧ pt = 2 then 6 else v

/-- The hottest reading in use of a tile's own six sites, 1/16 °C (R290: sensors of a tile are `8 t` to `8 t + 5`). -/
def Dev.tileMaxT (d : Dev) (t : Nat) : Int :=
  (List.range 6).foldl (fun a i => max a (d.sens (8 * t + i)).temp) (d.sens (8 * t)).temp

/-- Before a change of operating point, every supervisor sets TAP to the higher of the two points' values (R443). -/
def Dev.tapsFor (d : Dev) (a b : Nat) : Dev :=
  tiles8.foldl (fun d t => d.onSl t fun s => { s with tap := max (tapFor (d.tileMaxT t) a) (tapFor (d.tileMaxT t) b) }) d

/-- The operating point that R23 selects now: 0 performance, 1 nominal, 2 seal mode. -/
def Dev.wantPoint (d : Dev) : Nat :=
  let s := d.sealing
  if s.active ∧ 2 ≤ s.stage ∧ s.stage ≤ (if s.test then 4 else 5) then 2
  else if (d.restore.phase == 6 || d.expo.policy.perfEn) && !s.active && decide (d.pkg.powerMw ≤ 160000)
      && tiles8.all fun t => (d.tile t).throttle == 0 then 0
  else 1

/-- The lead requests the point that R23 selects, if it is not the one in force or asked for; during a takeover there is no lead to do it
(R22). -/
def Dev.pointCheck (d : Dev) : Dev :=
  let w := d.wantPoint
  if d.pkg.takeStep ≠ 0 then d
  else if d.pkg.opptReq.getD d.pkg.oppt = w then d
  else (d.tapsFor d.pkg.oppt w).onPkg fun p => { p with opptReq := if w = p.oppt then none else some w }

/-- The caps of a tile's channels follow its throttle level (R231); from stage 1 of a seal they are lifted (R92). -/
def Dev.capApply (d : Dev) (t : Nat) : Dev :=
  let c := if d.sealing.active then 0 else min 3 (d.tile t).throttle
  ([0, 1, 2, 3].foldl (fun d k => if (d.chan t k).cap = c then d else d.setCap t k c) d).chanServe t

/-! ### What a running seal records (R107) -/

/-- The lowest seal pace of a tile in stage 3, and the highest reading, so far (R107). -/
def Dev.sealWorst (d : Dev) : Dev :=
  if !d.sealing.active then d
  else
    let ps := (d.inSvc.filter fun t => tget d.sealing.tileStage 0 t == 3).map fun t => (d.tile t).sealPace
    let lo := ps.foldl (fun a p => if a = 0 then p else min a p) d.sealing.rec_.paceMin
    let hi := d.therm.sens.foldl (fun a e => max a e.2.temp) d.sealing.rec_.tempMax
    d.onSealing fun s => { s with rec_ := { s.rec_ with paceMin := lo, tempMax := hi } }

/-! ### Isolation of a tile (R327, R328) -/

/-- Whether granule `g` has part on tile `t` (R34, R328). -/
def Dev.granOn (d : Dev) (g t : Nat) : Bool := if d.grainLog = 30 then g % 8 == t else true

/-- The DPA ranges of granule `g` that lie on tile `t`, as (first byte, bytes). -/
def Dev.granParts (d : Dev) (g t : Nat) : List (Nat × Nat) :=
  let gl := d.grainLog
  if gl = 30 then (if g % 8 = t then [(g * 2 ^ 30, 2 ^ 30)] else [])
  else (List.range (2 ^ (27 - gl))).map fun i => (g * 2 ^ 30 + i * 2 ^ (gl + 3) + t * 2 ^ gl, 2 ^ gl)

/-- Tile `t` is isolated (R327): its requests complete, its granules are marked, its pages leave exposure, a
recomputation falls due, poison lists and the event are posted. `cause` is the LSEQ of the message that isolated it. -/
def Dev.isolate (d : Dev) (t cause : Nat) : Dev :=
  if (d.tile t).isolated then d
  else
    let d := d.onTile t fun x => { x with isolated := true, isoCause := cause }
    let mine := d.expo.held.filter fun r => d.pageTile (linePage r.line) == t
    let d := d.onExpo fun e => { e with held := e.held.filter fun r => d.pageTile (linePage r.line) != t }
    let d := mine.foldl Dev.refuseQuiet d
    let d := d.tileChans t chanSleep
    let d := d.onCtxs fun x => { x with rt := x.rt.map fun e => if d.granOn e.1 t then (e.1, { e.2 with isolated := true }) else e }
    let d := d.onExpo fun e =>
      { e with
        dirty := e.dirty.filter fun x => d.pageTile x.page != t
        inflight := e.inflight.filter fun x => d.pageTile x.page != t
        armReq := e.armReq.filter fun g => d.groupTile g != t
        dirtyWait := e.dirtyWait.filter fun p => d.pageTile p != t
        armProg := tset e.armProg t none }
    let d := d.onSealing fun s => { s with isoDuring := s.isoDuring || s.active }
    let d := (d.ctxs.rt.filter fun e => e.2.valid).foldl (fun d e =>
      (d.granParts e.1 t).foldl (fun d r => d.poisonEntry r.1 r.2 2) d) d
    (d.raise 833 0x16 2 (tile := some t) (detail := [t, d.dram.cfg.tgrain, d.hostGib * 262144])).govTrigger 6

/-! ### The safe state (R318, R319) -/

/-- Capacity tests, charging and slot assist stop (R318 step 5). -/
def Dev.freezeEnergy (d : Dev) : Dev :=
  let f (p : PackSt) : PackSt := { p with charging := false, test := 0 }
  let d := d.onEnergy fun e => { e with assistSet := [], pack := e.pack.map fun x => (x.1, f x.2) }
  [0, 1].foldl Dev.bayUpd d

/-- The safe-state wire: `lvl` 1 after Urgent, 2 when no seal follows. Flash stops, heads complete their requests,
channels enter self-refresh, the energy path is held (R318); a seal or a restore ends where it stands (R320). -/
def Dev.safeState (d : Dev) (lvl : Nat) : Dev :=
  let held := d.expo.held
  let paced := d.expo.paced
  let d := d.freezeEnergy
  let d := d.onPkg fun p => { p with safe := max p.safe lvl }
  let d := d.onExpo fun e => { e with held := [], paced := [] }
  let d := held.foldl Dev.refuseErr d
  let d := paced.foldl (fun d x => d.emit (.reqError x.id)) d
  let d := tiles8.foldl (fun d t => d.tileChans t chanSleep) d
  let d := d.onPanel fun p => { p with fWpN := true }
  let d := d.onSealing fun s => if lvl = 2 then { s with active := false } else s
  d.onFlint fun f => if lvl = 2 then { f with fatal := true, aliveStop := true } else f

/-! ### Contexts and their minute records (R162, R173, R209) -/

/-- A record that no TRIM makes dead (R163). -/
def Dev.notTrimmed (d : Dev) (r : PageRec) : Bool :=
  !(d.strata.trims.any fun t => t.context == r.context && (match t.granule with
    | none => true
    | some g => pageGran r.page == g) && decide (r.time < t.time))

/-- The record that stratum `s` pins for a page: the highest VSEQ among its records of TIME at or before T_s (R162). -/
def Dev.pinned (d : Dev) (s : Stratum) (p : Nat) : Option PageRec :=
  let rs := d.strata.recs.filter fun r => r.page == p && r.context == s.context && decide (r.time ≤ s.time) && d.notTrimmed r
  rs.foldl (fun a r => match a with
    | none => some r
    | some x => if x.vseq < r.vseq then some r else some x) none

/-- A record that some retained stratum pins. -/
def Dev.isPinned (d : Dev) (r : PageRec) : Bool :=
  d.strata.strata.any fun s => match d.pinned s r.page with
    | some x => x == r
    | none => false

/-- A record that is the current record of its page. -/
def Dev.isCurrent (d : Dev) (r : PageRec) : Bool :=
  let l := d.loc r.page
  l.kind != 0 && l.vseqLo == r.vseq % 8388608 && l.addr == r.addr && l.hidx == r.hidx

/-- Bytes held only by the strata of a context (R209). -/
def Dev.retainedBytes (d : Dev) (c : Nat) : Nat :=
  4096 * d.strata.recs.countP fun r => r.context == c && !(d.isCurrent r) && d.isPinned r

/-- The contexts that are not FREE. -/
def Dev.liveCtxs (d : Dev) : List Nat := (d.ctxs.tbl.filter fun x => x.2.state != 0).map fun x => x.1

/-- Cut the running metering record of a context now, with the flags given beside those it carries (R209, R210). -/
def Dev.cutMeter (d : Dev) (c : Nat) (flags : BitVec 16) : Dev :=
  let x := d.ctx c
  let r : MeterRec :=
    { x.meter with
      context := c, flags := x.meter.flags ||| flags, duration := (d.now - x.meterStart) / 1000000, start := x.meterStart
      retained := d.retainedBytes c }
  d.onCtx c fun x => { x with
    records := (r :: x.records).take 1440, unwritten := x.unwritten + 1, meter := {}, meterStart := d.now }

/-- Count a metered event of a context. -/
def Dev.onMeter (d : Dev) (c : Nat) (f : MeterRec → MeterRec) : Dev := d.onCtx c fun x => { x with meter := f x.meter }

/-- Change a context's state: the time is kept, and the minute's STATE flag set (R173, R209). -/
def Dev.ctxState (d : Dev) (c st : Nat) : Dev :=
  d.onCtx c fun x => { x with state := st, tState := d.now, meter := { x.meter with flags := x.meter.flags ||| 0x10 } }

/-! ### Status codes and background commands (R400, R409). Principals: 0 H0, 1 H1, 2 SB, 3 LP. -/

/-- The CXL return code, by its number in the CXL mailbox, that accompanies an extended status code (R409). -/
def retOf (ext : Nat) : Nat :=
  match ext with
  | 0 => 0x00
  | 0x01 => 0x03 | 0x05 => 0x03
  | 0x06 => 0x06 | 0x09 => 0x06 | 0x0C => 0x06 | 0x12 => 0x06
  | 0x07 => 0x05 | 0x0A => 0x05 | 0x0B => 0x05 | 0x0D => 0x05
  | 0x08 => 0x12 | 0x0E => 0x12 | 0x11 => 0x12
  | 0x13 => 0x07 | 0x16 => 0x07
  | 0x15 => 0x04
  | _ => 0x02

/-- The background slot of a principal: a head's, or the sideband's. -/
def Dev.bgOf (d : Dev) (p : Nat) : Bg := if p < 2 then (d.head p).bg else d.jcs.sbBg
/-- Change a principal's background slot. -/
def Dev.onBg (d : Dev) (p : Nat) (f : Bg → Bg) : Dev :=
  if p < 2 then d.onHead p fun h => { h with bg := f h.bg } else d.onJcs fun j => { j with sbBg := f j.sbBg }

/-- A background command of a principal completes with an extended status, if it is the one that runs there (R400). -/
def Dev.bgEnd (d : Dev) (p opcode ext : Nat) : Dev :=
  if (d.bgOf p).running ∧ (d.bgOf p).opcode = opcode then
    (d.onBg p fun b => { b with running := false, pct := if ext = 0 then 100 else b.pct, ret := retOf ext, ext := ext }).mirrorNow
  else d

/-- A background command of whatever principal completes, where its argument satisfies `f`. -/
def Dev.bgEndAny (d : Dev) (opcode ext : Nat) (f : Nat → Bool) : Dev :=
  [0, 1, 2].foldl (fun d p => if f (d.bgOf p).arg then d.bgEnd p opcode ext else d) d

/-- Every running background command is aborted with SEALING (R92). -/
def Dev.abortBg (d : Dev) : Dev :=
  [0, 1, 2].foldl (fun d p => d.onBg p fun b => if b.running then { b with running := false, ret := retOf 8, ext := 8 } else b) d

/-- The chunk of a firmware transfer that is being programmed is not acknowledged; a head's Transfer FW completes with a status (R480,
R481). -/
def Dev.chunkAbort (d : Dev) (ext : Nat) : Dev :=
  let x := d.upd.xfer
  let d := if x.chunkAt.isSome ∧ !x.pldm ∧ x.by_ < 2 then
      (d.onHead x.by_ fun h => { h with mboxBusy := false, mboxRet := retOf ext, mboxExt := ext, mboxOut := [] }).emit
        (.cxlResp x.by_ 0x0201 (retOf ext) ext [])
    else d
  d.onUpd fun u => { u with xfer := { u.xfer with chunkAt := none, ended := u.xfer.ended && x.chunkAt.isNone } }

/-! ### The UTC uncertainty (R348) -/

/-- UNC now, µs: 1 while PPS_IN is locked, the root's plus 1 on a lattice follower; else it grows by 0.5 µs per second, by 20 µs
per second in hibernation or with the reference lost; FFFFh while OFS_VALID is 0. -/
def Dev.uncNow (d : Dev) : Nat :=
  let q := d.qtz
  if !q.ofsValid then 65535
  else if q.hasTime ∧ !q.isRoot ∧ !q.refLost then min 65535 (q.rootUnc + 1)
  else if q.ppsEn ∧ q.ppsState = 2 ∧ !q.refLost then 1
  else
    let dt := d.now - q.uncTime
    min 65535 (q.unc + (if q.refLost ∨ !q.running then dt * 20 / 1000000000 else dt / 2000000000))

/-- Bring UNC up to date before its source changes. -/
def Dev.uncSync (d : Dev) : Dev := d.onQtz fun q => { q with unc := d.uncNow, uncTime := d.now }

/-! ### Hibernation (R90, R113, R495) -/

/-- Slate of a tile loses its power: an erase in progress leaves its sector half-erased, a program its line not valid (R446,
R449), and the registers and sequences are gone. -/
def slateOff (s : SlateTile) : SlateTile :=
  { s with
    badSectors := s.ops.foldl (fun l o => if o.2.code = 2 then addOnce l (secOf o.2.addr) else l) s.badSectors
    badLines := s.ops.foldl (fun l o => if o.2.code = 1 ∨ o.2.code = 5 then addOnce l (o.2.addr / 16) else l) s.badLines
    ops := [], seq := none, keyStep := 0, refresh := none, refreshImg := [] }

/-- The core loses its power: everything that lives only in the core is gone; Slate, Strata and the standby logic stay. -/
def Dev.coreOff (d : Dev) : Dev :=
  let d := d.onPanel fun p => { p with
    pwrEn := false, rails := 0, railsGood := 0, refGood := false, coreUp := false, fWpN := true, ddrRst := true
    sdAlert := false, identifyUntil := none, removal := 0, freshOk := false
    notGoodAt := if p.mainsGood then none else some d.now }
  let d := d.uncSync.onQtz fun q => { q with running := false, standbyValid := true, ppsOut := false }
  let d := d.onFlint fun f => { f with alive := false, tfPulse := 0, tfHold := 0 }
  let d := d.onSlate fun x => x.map fun e => (e.1, slateOff e.2)
  let d := d.onPkg fun p => { p with tiles := p.tiles.map fun t => (t.1, { t.2 with supvOk := false }) }
  [0, 1].foldl (fun d b => d.onBay b fun x => { x with lock := false, charging := false }) d

/-- Stage 6 (R90): PWR_EN deasserted, VDD_CORE removed, only the standby logic kept. `clean` says how the lights show it
(R502), `cause` the cause of the seal that led there. -/
def Dev.hibernate (d : Dev) (cause : Nat) (clean : Bool) : Dev :=
  let d := d.onSealing fun s => { s with active := false, frozen := false, hibernating := true, stage6Clean := clean }
  let d := if cause = 2 then d.onTherm fun x => { x with coolFrom := some d.now } else d
  (d.onPanel fun p => { p with sealCause := some cause }).coreOff

/-- A power-fail trigger or thermal shutdown before early open, or in Bedrock: no seal runs; the device hibernates (R113,
R484). -/
def Dev.hibernateUnsealed (d : Dev) (cause : Nat) : Dev := d.hibernate cause true

end Sys2Proof.Machine
end

