-- ==== Sys2Proof/Machine/Exposure.lean ====
section
/-! DEFINITION. Memory traffic, arming, recomputations and flushes (chapter 02). -/

namespace Sys2Proof.Machine

/-- A Region Table replica entry failed its check code: reloaded from the master, recorded as Corrected (R33). -/
def Dev.replicaReload (d : Dev) (bad : Bool) (dpaPage : Nat) : Dev :=
  if bad then d.raise (tsrc (d.pageTile dpaPage) 63) 0x83 1 else d

/-- Mark every page of a group dirty, arming its group (R150). -/
def Dev.dirtyGroup (d : Dev) (g : Nat) : Dev :=
  (List.range 512).foldl (fun d i => d.dirtyArmed (g * 512 + i)) d

/-- A page of the fill pass: class V, unassigned, or with no locator entry (R121, R126). -/
def Dev.fillPage (d : Dev) (p : Nat) : Bool := !(d.persistent p) || !(d.strata.loc.any fun l => l.page == p)

/-- The next page that the record passes of a tile take: P1 in rising DPA, then P2 (R126). -/
def Dev.nextRecord (d : Dev) (t : Nat) : Option Nat :=
  let ps := (d.strata.loc.filter fun l => d.pageTile l.page == t && d.persistent l.page && !(d.restored l.page)).map fun l => l.page
  match argMin (ps.filter fun p => d.pageCls p == 1) id with
  | some p => some p
  | none => argMin ps id

/-- Remove the range of `n` from `a` on from a list of disjoint rising ranges (first, count). -/
def cutRange (a n : Nat) (l : List (Nat × Nat)) : List (Nat × Nat) :=
  l.flatMap fun r =>
    (if r.1 < a then [(r.1, min r.2 (a - r.1))] else []) ++ (if a + n < r.1 + r.2 then [(max r.1 (a + n), r.1 + r.2 - max r.1 (a + n))] else [])

/-- A line of the restored-page bitmap is rebuilt for the pages it stands for: those that are dirty or below the position of the running
pass of bulk restore are treated as restored, the others are fetched again (R150). -/
def Dev.restoredRebuild (d : Dev) (t : Nat) (ps : List Nat) : Dev :=
  let next := d.nextRecord t
  let below (p : Nat) : Bool := match next with
    | none => true
    | some n => decide (d.pageCls p < d.pageCls n) || (d.pageCls p == d.pageCls n && decide (p < n))
  let keep := ps.filter fun p => d.restored p && (d.isDirty p || d.fillPage p || below p)
  if d.restore.allRestored then d
  else
    let d := ps.foldl (fun d p => d.onRestore fun r => { r with restored := cutRange (d.restIdx p) 1 r.restored }) d
    keep.foldl Dev.markRestored d

/-- The bits of a group's line in the rollback bitmap are rebuilt (R150, R200). -/
def Dev.rollbackRebuild (d : Dev) (g : Nat) : Dev :=
  let back (p : Nat) : Bool := match d.pageCtx p with
    | some c => (d.ctx c).tR != 0 && !(d.isDirty p) && (match d.curRec p with
      | some r => decide (r.time < (d.ctx c).tR)
      | none => true)
    | none => false
  d.onCtxs fun x => { x with rollback :=
    (x.rollback.filter fun p => pageGroup p != g) ++ ((List.range 512).map fun i => g * 512 + i).filter back }

/-- An uncorrectable error in the line at offset `off` of a tile's reserve area: it is counted against its rank (R224), the structure that the
line holds is repaired by the rule for it, and the repair is recorded as Corrected (R150); `lost` says that what the rule reloads from
could not be read. The lines of the bitmaps stand for one group each, a line of the locator for eight pages. DESIGN CHOICE (log 244): the
record's source is the tile's checkpoint source 64 and its kind 81h. -/
def Dev.reserveRepair (d : Dev) (t off devs : Nat) (lost : Bool) : Dev :=
  let x := d.lineLoc (d.reserveLine t off)
  let d := d.ueEvent x (d.readRank x.t x.e (x.cla / 2097152)) devs
  let d := d.raise (tsrc t 64) 0x81 1
  let at_ := reserveAt off
  let line := (off - at_.1) / 64
  let g := d.dpaOf t (line * 2097152) / 2097152
  match at_.2 with
  | 0 => if d.groupDirty g then d.dirtyGroup g else d
  | 1 => if lost then ((List.range 8).map fun i => d.dpaOf t ((line * 8 + i) * 4096) / 4096).foldl Dev.dirtyArmed d else d
  | 2 =>
    let gs := ((d.fl t).tail.map pageGroup).dedup
    let d := d.ckptStart t
    if lost then gs.foldl Dev.dirtyGroup d else d
  | 5 => d.restoredRebuild t ((List.range 512).map fun i => g * 512 + i)
  | 6 => d.rollbackRebuild g
  | 7 => ((List.range 512).map fun i => g * 512 + i).foldl Dev.replicaMark d
  | _ => d

/-- A line of DRAM is found uncorrectable: one of the reserve area by R150, a host-visible one by R225. -/
def Dev.lineBad (d : Dev) (l devs : Nat) : Dev :=
  if (d.reserveOff l).isSome then d.reserveRepair (d.tileOf (l * 64)) ((d.reserveOff l).getD 0) devs false else (d.lineUe l devs).1

/-- CXL_MEM_READ: a read of one line by head `h` (R30, R32, R122, R199, R220, R225). `errs` are the disturbed symbols of its burst
(10 × slice + device, the bits that are wrong); `replBad` a replica entry that fails its check code, `caErr` a CA
parity error, `resv` an uncorrectable line met in the reserve area of a tile (tile, offset, devices seen failing, lost). -/
def execCxlMemRead (h : Fin 2) (hpa : Nat) (errs : List (Nat × Nat)) (replBad caErr : Bool)
    (resv : Option (Nat × Nat × Nat × Bool)) (dt : Nat) (s : State) : Res := s.run fun d =>
  let d := d.elapse dt
  let at_ := d.hdmDecode h.val hpa
  let d := match at_ with
    | some dpa =>
      let d := d.replicaReload replBad (dpa / 4096)
      if caErr then let x := d.lineLoc (dpa / 64); d.caError x.t x.ch else d
    | none => d
  let d := match resv with
    | some (t, o, devs, lost) => d.reserveRepair t o devs lost
    | none => d
  d.request h.val hpa false 0 0 errs

/-- CXL_MEM_WRITE: a write of the enabled bytes of one line by head `h` (R32, R41, R47, R66 to R68, R74). `ue` not zero
says that the read-modify-write of a partial write finds the line uncorrectable, with the devices seen failing (R225). -/
def execCxlMemWrite (h : Fin 2) (hpa : Nat) (data : BitVec 512) (mask : BitVec 64) (ue : BitVec 10) (replBad : Bool) (dt : Nat)
    (s : State) : Res := s.run fun d =>
  let d := d.elapse dt
  let d := match d.hdmDecode h.val hpa with
    | some dpa =>
      let d := d.replicaReload replBad (dpa / 4096)
      if ue != 0 && mask != BitVec.allOnes 64 && d.pageOpen h.val (dpa / 4096) && d.restore.ready && !d.sealing.frozen
      then (d.lineUe (dpa / 64) ue.toNat).1 else d
    | none => d
  d.request h.val hpa true data mask []

/-- Arm requests of a tile, oldest first. -/
def Dev.armReqs (d : Dev) (t : Nat) : List Nat := d.expo.armReq.filter fun g => d.groupTile g == t

/-- Start a Cairn program of a tile that carries `arms` and the disarm records queued for the tile, as many as its 512 units hold (R48,
R49, R156). -/
def Dev.startArm (d : Dev) (t : Nat) (arms : List Nat) : Dev :=
  let dis := (d.disarmsFor t).take (512 - arms.length)
  d.onExpo fun e =>
    { e with
      armReq := e.armReq.filter fun g => !arms.contains g
      armProg := tset e.armProg t (some { arms := arms, disarms := dis }) }

/-- The set of a tile that is full takes no further group: how many arms a program may carry (R48, R50). -/
def Dev.armRoom (d : Dev) (t : Nat) : Nat := min 512 (1048576 - d.armedCount t)

/-- ARM_BATCH_PROGRAM: a Cairn program is issued with the arms requested since the previous one (R48). -/
def execArmBatchProgram (t : Fin 8) (dt : Nat) (s : State) : Res := s.run fun d =>
  let d := d.elapse dt
  let arms := (d.armReqs t.val).take (d.armRoom t.val)
  if (tget d.expo.armProg none t.val).isNone && !arms.isEmpty && !(d.tile t.val).isolated then d.startArm t.val arms else d

/-- A Cairn program has ended: its disarm and arm records are in the ledger, its groups are armed, and the writes held for them proceed;
the erase intents that wait follow in a program of their own (R47, R48, R49, R156). -/
def Dev.armDone (d : Dev) (t : Nat) : Dev :=
  match tget d.expo.armProg none t with
  | none => d
  | some p =>
    let ctxOf (g : Nat) : Nat := (d.gran (g / 512)).context
    let d := d.cairnPut t ((p.disarms.map fun g => { typ := 2, a := g }) ++ p.arms.map fun g => { typ := 1, a := g, b := ctxOf g })
    let d := d.onExpo fun e => { e with
      armProg := tset e.armProg t none
      disarmQ := e.disarmQ.filter fun q => !(p.disarms.contains q.1) }
    let d := if (d.fl t).intentQ.isEmpty then d else d.cairn t []
    let d := d.armGroups p.arms
    d.earlyDisarm t 1048576

/-- ARM_PROGRAM_DONE: the program ends; `dead` says that the ledger die could not be programmed even after its retry, which
is Contained and isolates the tile (R47, R156). -/
def execArmProgramDone (t : Fin 8) (dead : Bool) (dt : Nat) (s : State) : Res := s.run fun d =>
  let d := d.elapse dt
  if dead then (d.raise (tsrc t.val 36) 0x81 3) else d.armDone t.val

/-- GROUP_DISARM: a group whose summary bit has stayed clear for 10 minutes is disarmed (R49). -/
def execGroupDisarm (g : Nat) (dt : Nat) (s : State) : Res := s.run fun d =>
  let d := d.elapse dt
  let due := d.expo.armed.any fun x => x.group == g && (match x.cleanSince with
    | some t => decide (600000000000 ≤ d.since t)
    | none => false)
  let d := if due then (d.disarm g).armFullCheck (d.groupTile g) else d
  d.earlyDisarm (d.groupTile g) 1048576

/-- DISARM_BATCH_PROGRAM: disarm records one of which has waited 1 s are programmed in a batch of their own (R49). -/
def execDisarmBatchProgram (t : Fin 8) (dt : Nat) (s : State) : Res := s.run fun d =>
  let d := d.elapse dt
  let old := d.expo.disarmQ.any fun q => d.groupTile q.1 == t.val && decide (1000000000 ≤ d.since q.2)
  if (tget d.expo.armProg none t.val).isNone && old then d.startArm t.val [] else d

/-- The 1 ms sample of every context's exposure, and of LAPSE, into the running minute (R209). -/
def Dev.meterSample (d : Dev) : Dev :=
  d.liveCtxs.foldl (fun d c => d.onMeter c fun m => { m with
    expoPms := m.expoPms + d.xCtx c
    flags := if d.expo.gov.pkgState = 4 then m.flags ||| 0x8 else m.flags }) d

/-- EXPO_STATUS_UPDATE: the exposure registers, every 1 ms (R46), with the metering sample of the same period (R209,
R522). -/
def execExpoStatusUpdate (dt : Nat) (s : State) : Res := s.run fun d =>
  (d.elapse dt).periodic 1 1000000 fun d => d.meterSample.expoUpd

/-- The event "write held to bound" of a head, at most one a second, with the count since the previous one (R68). -/
def Dev.heldEvent (d : Dev) (h : Nat) : Dev :=
  let x := d.head h
  let free : Bool := match x.held500At with | none => true | some t => decide (1000000000 ≤ d.since t)
  if x.held500 ≠ 0 ∧ free then
    (d.onHead h fun y => { y with held500 := 0, held500At := some d.now }).raise 811 0x27 0 (detail := [h, x.held500])
      (headOnly := h)
  else d

/-- GOVERNOR_RECOMPUTE: the recomputation of every 10 ms, while a supervisor holds the package role (R20, R52, R18, R40,
R68, R69, R71). -/
def execGovernorRecompute (dt : Nat) (s : State) : Res := s.run fun d =>
  let d := d.elapse dt
  if d.roleRuns then (((d.recompute.serve).heldEvent 0).heldEvent 1).mirrorNow else d

/-- EVENT_RECOMPUTE: the recomputation that an event of R61 calls for. -/
def execEventRecompute (dt : Nat) (s : State) : Res := s.run fun d =>
  let d := d.elapse dt
  if d.roleRuns && !d.expo.gov.triggers.isEmpty then d.recompute.serve.mirrorNow else d

/-- WRITE_PACING_DELAY_EXPIRY: delayed completions whose delay has ended are sent (R66). -/
def execWritePacingDelayExpiry (dt : Nat) (s : State) : Res := s.run fun d =>
  let d := d.elapse dt
  let due := d.expo.paced.filter fun p => decide (p.due ≤ d.now)
  let d := d.onExpo fun e => { e with paced := e.paced.filter fun p => decide (d.now < p.due) }
  due.foldl Dev.pacedDone d

/-- WRITE_HOLD_EXPIRY: writes held in BLACK or LAPSE that reach 500 µs are performed, completed and counted (R68). -/
def execWriteHoldExpiry (dt : Nat) (s : State) : Res := s.run fun d =>
  let d := d.elapse dt
  let hit (r : HeldReq) : Bool := r.forGov && decide (500000 ≤ d.since r.arrive)
  let due := d.expo.held.filter hit
  let clear (r : HeldReq) : HeldReq := if hit r then { r with forGov := false } else r
  let d := d.onExpo fun e => { e with held := e.held.map clear }
  let d := due.foldl (fun d r => d.onHead (if r.head < 2 then r.head else (d.pageHead (linePage r.line)).getD 0)
    fun x => { x with held500 := x.held500 + 1 }) d
  (d.serve.heldEvent 0).heldEvent 1

/-- GLOBAL_PERSISTENT_FLUSH: a flush arrives at head `h`; after stage 1 of a seal has begun it completes at once (R72). -/
def execGlobalPersistentFlush (h : Fin 2) (dt : Nat) (s : State) : Res := s.run fun d =>
  let d := d.elapse dt
  if d.sealing.active ∧ !d.sealing.test then d.emit (.gpfDone h.val)
  else d.onHead h.val fun x => { x with gpf := x.gpf ++ [d.expo.nextReq] }

/-- GPF_COMPLETION: every write that the head had completed before the flush is in DRAM with its dirty bit set, so the
oldest flush completes (R72). -/
def execGpfCompletion (h : Fin 2) (dt : Nat) (s : State) : Res := s.run fun d =>
  let d := d.elapse dt
  match (d.head h.val).gpf with
  | [] => d
  | _ :: r => (d.onHead h.val fun x => { x with gpf := r }).emit (.gpfDone h.val)

end Sys2Proof.Machine
end

