-- ==== Sys2Proof/Machine/Layouts.lean ====
section
/-! DEFINITION. The bytes of the records that Slate keeps and of the structures in them: gauge, thermal, seal event, update state,
first-fault set, Flint extract and snapshot records (R107, R274, R275, R306, R331, R333, R358, R359, R451, R455, R463). -/

namespace Sys2Proof.Machine

/-- The lines of 16 bytes of a record. -/
def lines16 (bs : List Byte) : List (BitVec 128) :=
  (List.range (bs.length / 16)).map fun i => BitVec.ofNat 128 (leNat ((bs.drop (16 * i)).take 16))

/-- Fields of the given lengths from a list of values. -/
def fieldsOf (ls vs : List Nat) : List Byte := fields (ls.zip vs)

/-- The gauge learning record, written with RSEQ `q` at `now` (R274). -/
def GaugeRec.learning (r : GaugeRec) (q now : Nat) : List Byte :=
  let blk (i : Nat) : List Byte := fieldsOf [2, 1, 1, 2, 2, 8, 4, 4, 8, 2, 2, 8] (r.bytesL.drop (12 * i)) ++ List.replicate 4 0
  withCrc (fields [(2, 0x47), (2, 0xA0), (4, q), (8, now)] ++ blk 0 ++ blk 1 ++ fieldsOf [4, 4, 8, 4, 4, 4] (r.bytesL.drop 24)
    ++ List.replicate 16 0)

/-- The gauge state record, written with RSEQ `q` at `now` (R275). -/
def GaugeRec.stateRec (r : GaugeRec) (q now : Nat) : List Byte :=
  let blk (i : Nat) : List Byte := fieldsOf [2, 2, 4, 8, 4, 2, 2, 4] (r.bytesS.drop (8 * i)) ++ List.replicate 12 0
  withCrc (fields [(2, 0x48), (2, 0x80), (4, q), (8, now)] ++ blk 0 ++ blk 1 ++ fieldsOf [4, 1] (r.bytesS.drop 16) ++ List.replicate 23 0)

/-- The update state record, written with RSEQ `q` at `now` (R463). -/
def UpdRec.bytes (u : UpdRec) (q now : Nat) : List Byte :=
  withCrc (fields [(2, 0x67), (2, 0x60), (4, q), (8, now), (1, u.runSlot), (1, u.stateA), (1, u.stateB), (1, u.trySlot.getD 255), (1, u.tries),
    (1, bit u.revert + 2 * bit u.confirming + 4 * bit u.bedrockReq + 8 * bit u.newTwin), (1, u.owner), (1, u.revertCause), (8, u.ownerUid),
    (4, u.verA), (4, u.verB), (1, u.svnA), (1, u.svnB), (2, 0), (4, u.committed), (16, u.hdrDig), (8, u.tActivate), (8, u.tTry), (12, 0)])

/-- The 64 bytes of a thermal record (R306). -/
def ThermRec.bytes (r : ThermRec) : List Byte :=
  withCrc (fields [(2, 0x54), (2, 0x40), (4, r.rseq), (8, r.tEvent), (1, r.kind), (1, r.sensor), (2, twos 16 r.reading), (2, twos 16 r.thresh),
    (2, r.levels.toNat), (2, twos 16 r.pkgMax), (2, twos 16 r.inlet), (1, r.failed), (1, r.shutdowns), (2, 0), (8, r.tSealEnd), (20, 0)])

/-- The 256 bytes of a seal event record (R107). -/
def SealRec.bytes (r : SealRec) : List Byte :=
  withCrc (fields [(2, 0x51), (2, 0x100), (4, r.rseq), (8, r.tTrigger), (8, r.tStage2), (8, r.tStage3), (8, r.tPkg), (8, r.tWrite),
    (1, r.cause + 16 * r.later), (1, r.flags.toNat), (1, r.t3Mask.toNat), (1, r.t4Mask.toNat), (4, 0), (8, r.expoStart), (8, r.p1Landed),
    (8, r.p2Landed), (8, r.elided), (8, r.fill), (4, r.eAvail), (4, r.eFixedMeas), (4, r.eStage3), (4, r.kMeas), (4, r.landMeas), (2, r.paceMin),
    (2, twos 16 r.tempMax), (2, r.vA), (2, r.vB), (2, r.vBridge), (2, r.learn.toNat), (124, 0)])

/-- The 32 bytes of a log entry (R331). -/
def LogEntry.bytes (e : LogEntry) : List Byte :=
  fields [(8, e.msg.toNat), (8, e.time), (4, e.lseq), (4, e.causeSeq), (2, e.flags.toNat), (1, e.origSev), (1, e.reaction), (2, e.context),
    (2, 0)]

/-- The 64 bytes of a first-fault record (R333). -/
def FirstFault.bytes (f : FirstFault) : List Byte :=
  fields [(8, f.msg.toNat), (8, f.tFirst), (8, f.lastMsg.toNat), (8, f.tLast), (4, f.count), (1, f.kindOr.toNat), (1, f.maxSev),
    (2, bit f.valid + 2 * bit f.forced + 4 * bit f.coFirst + 8 * bit f.held), (8, f.coMsg.toNat), (4, f.coCount), (4, f.lseq), (8, 0)]

/-- A section of a capture bank (R358). -/
def SnapSection.bytes (x : SnapSection) : List Byte :=
  fields [(2, x.src), (1, x.words.length), (1, if x.captured then 1 else 2), (4, x.captureDt), (4, x.ce), (2, x.sev2), (2, 0)]
    ++ x.words.flatMap fun w => leBytes 8 w.toNat

/-- The 64-byte header of a capture bank (R358). -/
def SnapBank.header (b : SnapBank) : List Byte :=
  let got := b.sections.filter fun x => x.captured
  withCrc (fields [(8, b.tTrig), (8, twos 64 b.lTrig), (2, b.cause.toNat), (2, b.reqNode), (4, b.reqId), (8, b.ffMsg.toNat),
    (4, maxBy got 0 fun x => x.captureDt), (2, got.length), (2, b.sections.length - got.length), (1, b.owner), (1, b.state),
    (2, b.flags.toNat), (4, sumBy b.sections fun x => 16 + 8 * x.words.length), (12, 0)])

/-- An event record of `content`, framed as R451: LENGTH the next multiple of 16, the CRC its last four bytes (R455). -/
def evtFrame (typ q now : Nat) (content : List Byte) : List Byte :=
  let n := (content.length + 35) / 16 * 16
  withCrc (fields [(2, typ), (2, n), (4, q), (8, now)] ++ content ++ List.replicate (n - 20 - content.length) 0)

end Sys2Proof.Machine
end

