-- ==== Sys2Proof/Machine/SlateOps.lean ====
section
/-! DEFINITION. The operations of Slate, the embedded flash of each tile: lines, sectors, status, starting an operation, erase
intents, parameter records and the event store (chapter 14). -/

namespace Sys2Proof.Machine

/-! ### Lines: CRC, intent lines, swap lines (R449, R456) -/

/-- A line from its bytes 0 to 11, with its CRC in bytes 12 to 15. -/
def crcLine (v : Nat) : BitVec 128 := BitVec.ofNat 128 (v % 2 ^ 96 + put 96 32 (crc32c (leBytes 12 v)))

/-- Whether a line's CRC is right. -/
def lineOk (l : BitVec 128) : Bool := crcLine l.toNat == l

/-- A line of the intent pair: its LTYPE, sector, PURPOSE, ISEQ and ECOUNT (R449). -/
structure IntentLine where
  /-- LTYPE: 49h intent, 44h done, 43h cancel, 52h replacement. -/
  ltype : Nat
  /-- Sector concerned. -/
  sector : Nat
  /-- PURPOSE, or the spare sector. -/
  purpose : Nat
  /-- ISEQ. -/
  iseq : Nat
  /-- ECOUNT. -/
  ecount : Nat
  deriving DecidableEq, Repr

/-- The 16 bytes of an intent line. -/
def intentBits (i : IntentLine) : BitVec 128 :=
  crcLine (put 0 8 i.ltype + put 8 8 i.sector + put 16 8 i.purpose + put 32 32 i.iseq + put 64 24 i.ecount)

/-- The intent line that 16 bytes hold. -/
def intentOf (l : BitVec 128) : IntentLine :=
  let v := l.toNat
  { ltype := bits v 0 8, sector := bits v 8 8, purpose := bits v 16 8, iseq := bits v 32 32, ecount := bits v 64 24 }

/-- A swap line: twin and SSEQ (R456). -/
def swapBits (twin sseq : Nat) : BitVec 128 := crcLine (put 0 8 0x53 + put 8 8 twin + put 32 32 sseq)

/-- The programmed lines of a sector, by line number (address / 16). -/
def Dev.secContents (d : Dev) (t s : Nat) : Tbl (BitVec 128) :=
  (d.sl t).lines.filter fun e => decide (secBase s ≤ 16 * e.1) && decide (16 * e.1 < secBase s + 16 * secLines s)

/-- The number of programmed lines of a sector. -/
def Dev.secUsed (d : Dev) (t s : Nat) : Nat := (d.secContents t s).length

/-- The valid lines of the intent pair, sectors 26 and 27; a torn line is ignored (R450). -/
def Dev.intents (d : Dev) (t : Nat) : List IntentLine :=
  ((d.secContents t 26 ++ d.secContents t 27).filter fun e => lineOk e.2 && !(d.sl t).badLines.contains e.1).map fun e => intentOf e.2

/-- The valid swap lines as (SSEQ, twin, slot) (R456). -/
def Dev.swapLines (d : Dev) (t : Nat) : List (Nat × Nat × Nat) :=
  [0, 1, 2].flatMap fun k =>
    ((d.secContents t (28 + k)).filter fun e => lineOk e.2 && bits e.2.toNat 0 8 == 0x53 && !(d.sl t).badLines.contains e.1).map
      fun e => (bits e.2.toNat 32 32, bits e.2.toNat 8 8, k)

/-- The newest swap line. -/
def Dev.newestSwap (d : Dev) (t : Nat) : Option (Nat × Nat × Nat) :=
  (d.swapLines t).foldl (fun a x => match a with
    | none => some x
    | some y => if y.1 < x.1 then some x else some y) none

/-- The twin that boots: the newest swap line's, A when no line is valid (R456). -/
def Dev.bootTwin (d : Dev) (t : Nat) : Nat := match d.newestSwap t with | some x => x.2.1 | none => 0

/-! ### Registers (R434, R435) -/

/-- The operation running in a bank. -/
def Dev.slOp (d : Dev) (t b : Nat) : Option SlateOp := ((d.sl t).ops.find? fun o => o.1 == b).map fun o => o.2
/-- The erase suspended in a bank. -/
def Dev.slSusp (d : Dev) (t b : Nat) : Option SlateOp := d.slOp t (b + 2)
/-- A bank takes no further operation. -/
def Dev.slBusy (d : Dev) (t b : Nat) : Bool := (d.slOp t b).isSome

/-- SLATE_STAT of a tile (R434). -/
def Dev.slateStat (d : Dev) (t : Nat) : Nat :=
  let s := d.sl t
  let b := s.lastBank
  let o := ((d.slOp t b).orElse fun _ => d.slSusp t b).getD {}
  put 0 1 (bit !s.ops.isEmpty) + put 1 1 (bit s.done) + put 2 1 (bit s.fail) + put 3 1 (bit (s.keyStep == 2))
    + put 4 1 (bit (s.ops.any fun o => o.2.suspended)) + put 5 1 (bit (s.ops.any fun o => o.2.held)) + put 6 1 (bit s.underrun)
    + put 7 1 (bit s.rdErr) + put 8 4 s.err + put 12 3 o.code + put 15 1 b + put 16 6 (secOf o.addr) + put 22 6 o.pulses

/-- DONE or FAIL has set: the interrupt, where it is enabled (R434). -/
def slIrq (s : SlateTile) : SlateTile := { s with irq := s.irq || s.doneIrq }

/-- A command or sequence is refused: FAIL and ERR set, the sequence disarms, and the refusal is recorded (R435, R436, R459). -/
def Dev.slRefuse (d : Dev) (t err : Nat) : Dev :=
  (d.onSl t fun s => slIrq { s with fail := true, err := err, keyStep := 0, seq := none, opIdx := 0 }).raise (tsrc t 53)
    (if err = 2 then 0x17 else 0x12) 0

/-- Another Slate register is written: between the keys that is ERR KEY, in a sequence ERR SEQUENCE (R435, R436). -/
def Dev.slTouch (d : Dev) (t : Nat) : Dev :=
  let s := d.sl t
  if s.keyStep = 1 then d.slRefuse t 1 else if s.keyStep = 2 then d.slRefuse t 5 else d

/-! ### Starting an operation (R433, R437, R440, R445, R447) -/

/-- The error that refuses an operation, if one does, in the order of the codes: SELF_BANK, BUSY, RANGE, NOT_BLANK, FULL.
`fetch` is the bank that the starting write's instruction came from, 2 for none. -/
def Dev.opRefused (d : Dev) (t fetch c addr : Nat) : Option Nat :=
  let b := if c = 5 then 0 else slateBank addr
  let ln := addr / 16
  let blocked : Bool := match d.slSusp t b with
    | none => false
    | some o => c == 2 || c == 5 || (secOf o.addr == secOf addr)
  let slot : Nat := match d.newestSwap t with | some x => (x.2.2 + 1) % 3 | none => 0
  if fetch = b ∧ !(d.sl t).stallOk then some 2
  else if d.slBusy t b || blocked then some 3
  else if c = 1 ∧ addr % 16 ≠ 0 then some 4
  else if c = 1 ∧ (thas (d.sl t).lines ln ∨ (d.sl t).badLines.contains ln) then some 6
  else if c = 5 ∧ secLines (28 + slot) ≤ d.secUsed t (28 + slot) then some 10
  else none

/-- An erase begins: its counter advances before the first pulse (R447), and the start counts as a resume (R445). -/
def Dev.eraseStart (d : Dev) (t s purpose : Nat) : Dev :=
  let a := secBase s
  d.onSl t fun x => { x with
    ops := tset x.ops (slateBank a) { code := 2, addr := a, purpose := purpose, resumedAt := d.now }
    lastBank := slateBank a, counters := tset x.counters s (min 0xFFFFFF (tget x.counters 0 s + 1)) }

/-- Program lines at the first free place of a sector, in ascending order; a sector with too little room takes what fits. -/
def Dev.putLines (d : Dev) (t s : Nat) (ls : List (BitVec 128)) : Dev :=
  let u := d.secUsed t s
  (ls.take (secLines s - u)).foldl (fun (a : Dev × Nat) l =>
    (a.1.onSl t fun x => { x with lines := tset x.lines a.2 l }, a.2 + 1)) (d, secBase s / 16 + u) |>.1

/-- The highest ISEQ of a tile. -/
def Dev.topIseq (d : Dev) (t : Nat) : Nat := maxBy (d.intents t) 0 fun i => i.iseq

/-- Every line of a sector is erased. -/
def Dev.secClear (d : Dev) (t s : Nat) : Dev :=
  let inS (ln : Nat) : Bool := decide (secBase s ≤ 16 * ln) && decide (16 * ln < secBase s + 16 * secLines s)
  d.onSl t fun x => { x with
    lines := x.lines.filter fun e => !inS e.1, badLines := x.badLines.filter fun l => !inS l
    badSectors := x.badSectors.filter fun b => b != s }

/-- Append a line to the intent pair. With fewer than eight free lines left, the other sector is erased with its intent and done
lines, takes the replacement lines, and becomes the active one (R449). -/
def Dev.intentPut (d : Dev) (t : Nat) (i : IntentLine) : Dev :=
  let a := (d.sl t).intentSector
  let act := 26 + a
  let oth := 27 - a
  if 512 - d.secUsed t act < 8 then
    let n := d.topIseq t + 1
    let cnt := tget (d.sl t).counters 0 oth
    let rep := (d.intents t).filter fun x => x.ltype == 0x52
    let d := d.putLines t act [intentBits { ltype := 0x49, sector := oth, purpose := 0, iseq := n, ecount := cnt }]
    let d := (d.onSl t fun x => { x with counters := tset x.counters oth (min 0xFFFFFF (cnt + 1)), lastErase := tset x.lastErase oth d.now }).secClear t oth
    let d := d.putLines t act [intentBits { ltype := 0x44, sector := oth, purpose := 0, iseq := n, ecount := cnt }]
    let d := (d.putLines t oth (rep.map intentBits)).onSl t fun x => { x with intentSector := 1 - a }
    d.putLines t oth [intentBits { i with iseq := if i.ltype = 0x49 ∨ i.ltype = 0x52 then max i.iseq (n + 1) else i.iseq }]
  else d.putLines t act [intentBits i]

/-- The intent of a sector that has no done or cancel line. -/
def Dev.openIntent (d : Dev) (t s : Nat) : Option IntentLine :=
  let l := d.intents t
  l.find? fun i => i.ltype == 0x49 && i.sector == s && !(l.any fun j => (j.ltype == 0x44 || j.ltype == 0x43) && j.iseq == i.iseq)

/-- Steps 1 and 2 of an erase (R449): its intent line, unless one stands open for the sector, then the erase. -/
def Dev.eraseRun (d : Dev) (t s purpose : Nat) : Dev :=
  let d := if (d.openIntent t s).isSome then d
    else d.intentPut t { ltype := 0x49, sector := s, purpose := purpose, iseq := d.topIseq t + 1, ecount := tget (d.sl t).counters 0 s }
  d.eraseStart t s purpose

/-- Step 3 of an erase: the done line; the time of the last erase goes into the maintenance record (R449, R457). -/
def Dev.eraseDone (d : Dev) (t s : Nat) : Dev :=
  let d := match d.openIntent t s with
    | some i => d.intentPut t { i with ltype := 0x44 }
    | none => d
  (d.onSl t fun x => { x with lastErase := tset x.lastErase s d.now }).recDueOn t 0x6C

/-- The sector that stands for parameter sector `s`: its spare where one replaces it, and that spare's where it has failed too; there are
three spares (R448). -/
def Dev.secPhys (d : Dev) (t s : Nat) : Nat :=
  let next (k : Nat) : Nat := match (d.intents t).find? fun i => i.ltype == 0x52 && i.sector == k with
    | some i => i.purpose
    | none => k
  next (next (next s))

/-- The operation of the sequence starts, or is refused (R436, R437). -/
def Dev.opStart (d : Dev) (t fetch c addr purpose : Nat) (data : BitVec 128) : Dev :=
  match d.opRefused t fetch c addr with
  | some e => d.slRefuse t e
  | none =>
    let d := d.onSl t fun s => { s with keyStep := 0, seq := none, opIdx := 0 }
    let b := if c = 5 then 0 else slateBank addr
    if c = 2 then d.eraseRun t (secOf addr) purpose
    else
      let (a, l) : Nat × BitVec 128 := if c = 5 then
          let (sq, slot) := match d.newestSwap t with | some x => (x.1 + 1, (x.2.2 + 1) % 3) | none => (1, 0)
          (secBase (28 + slot) + 16 * d.secUsed t (28 + slot), swapBits (addr % 2) sq)
        else (addr, data)
      d.onSl t fun s => { s with ops := tset s.ops b { code := c, addr := a, data := l, resumedAt := d.now }, lastBank := b }

/-- A line as a read returns it: all ones where erased (R441); what a line that was not completely programmed or erased reads as
is a free value. -/
def Dev.slateLine (d : Dev) (t ln : Nat) : BitVec 128 :=
  if (d.sl t).badLines.contains ln ∨ (d.sl t).badSectors.contains (secOf (16 * ln)) then BitVec.ofNat 128 (Config.freeValue d.freeN)
  else tget (d.sl t).lines (BitVec.allOnes 128) ln

/-! ### Parameter records (R451 to R454) -/

/-- The journal pair of a record type (R452); a grant block `b` of type 0069h is named `6900h + b`, and the copy of a type in a new image's
settings format the type plus 10000h (R471). -/
def pairOf (typ : Nat) : Nat :=
  let typ := typ % 0x10000
  if typ = 0x61 then 0 else if typ = 0x62 then 1 else if typ = 0x47 ∨ typ = 0x48 then 2 else if typ = 0x63 then 3
  else if typ = 0x64 ∨ typ = 0x6C then 4 else if typ = 0x65 ∨ typ = 0x66 ∨ typ = 0x6B then 5 else if typ = 0x67 then 6
  else if typ = 0x68 ∨ typ = 0x6A then 7 else if 0x6900 ≤ typ ∧ typ < 0x6908 then 8 + (typ - 0x6900) / 2 else 8

/-- The TYPE that a record carries (R451, R471). -/
def recType (typ : Nat) : Nat := if 0x10000 ≤ typ then (Config.newFormatType (typ % 0x10000)).toNat else if 0x6900 ≤ typ then 0x69 else typ

/-- The first line of a record: TYPE, LENGTH, RSEQ, T_WRITE (R451). -/
def recHead (typ len rseq time : Nat) : BitVec 128 :=
  BitVec.ofNat 128 (put 0 16 (recType typ) + put 16 16 (16 * len) + put 32 32 rseq + put 64 64 time)

/-- A completion line: TYPE, MARK, RSEQ, RCRC, CRC (R451). -/
def recMark (typ rseq rcrc : Nat) : BitVec 128 :=
  crcLine (put 0 16 (recType typ) + put 16 16 0xC0DE + put 32 32 rseq + put 64 32 rcrc)

/-- The body of a parameter record of a type whose bytes the spec lays out, on tile `t` with RSEQ `q`; none of another type (R274, R275,
R463). -/
def Dev.recBody (d : Dev) (t typ q : Nat) : List Byte :=
  if typ = 0x67 then (d.urec t).bytes q d.now
  else if typ = 0x47 then d.energy.rec_.learning q d.now
  else if typ = 0x48 then d.energy.rec_.stateRec q d.now
  else []

/-- The lines of a record whose bytes are given, and its completion line (R451). -/
def evtLines (typ q : Nat) (body : List Byte) : List (BitVec 128) := lines16 body ++ [recMark typ q (leNat (body.drop (body.length - 4)))]

/-- The lines of a parameter record and its completion line; of a type whose bytes no rule lays out, those after the first line are free
values (R451). -/
def Dev.recLines (d : Dev) (t typ len q : Nat) : List (BitVec 128) :=
  let body := d.recBody t typ q
  if !body.isEmpty then evtLines typ q body
  else recHead typ len q d.now :: ((List.range (len - 1)).map fun i => BitVec.ofNat 128 (Config.freeValue (d.freeN + i)))
    ++ [recMark typ q (Config.freeValue (d.freeN + len))]

/-- The lines of a record of a type, where the spec gives its LENGTH; else `len` (R274, R275, R463). -/
def recLen (typ len : Nat) : Nat := if typ = 0x67 then 6 else if typ = 0x47 then 10 else if typ = 0x48 then 8 else len

/-- A sector of a pair is ready: room for two copies of its largest record, of `len` lines, with their completion lines (R453). -/
def Dev.secReady (d : Dev) (t s len : Nat) : Bool := decide (d.secUsed t s + 2 * (len + 1) ≤ secLines s)

/-- A record of a type is programmed into a sector (R451, R453). -/
def Dev.recPut (d : Dev) (t typ len s : Nat) : Dev :=
  let q := (tget (d.sl t).recs {} typ).rseq + 1
  let d := ((d.putLines t s (d.recLines t typ len q)).onFreeN fun n => n + len + 1).onQtz fun q => { q with floorStamp := max q.floorStamp d.now }
  d.onSl t fun x => { x with recs := tset x.recs typ { typ := typ, rseq := q, tWrite := d.now, sector := s, len := len }, pend := x.pend.filter fun y => y != typ }

/-- The newest copies of a pair that stand in sector `s` of a tile, by type (R452). -/
def Dev.secKeeps (d : Dev) (t p s : Nat) : Tbl ParamRec := (d.sl t).recs.filter fun r => r.2.sector == s && pairOf r.1 == p

/-- Step 4 of R453: the sector `s` of pair `p`, not ready, is erased in the background. A newest copy of another type, or of another settings
format, that stands there is first rewritten into the pair's other sector `o`, so that the erased sector holds none (R453, R471). -/
def Dev.pairFix (d : Dev) (t p s o big : Nat) : Dev :=
  if d.secReady t s big ∨ d.slBusy t 0 then d
  else
    let d := (d.secKeeps t p s).foldl (fun d r =>
      if d.secUsed t o + r.2.len + 1 ≤ secLines o then d.recPut t r.1 r.2.len o else d) d
    if (d.secKeeps t p s).isEmpty then d.eraseRun t s 0 else d

/-- A record of a type is written on a tile: into the sector of its pair that does not hold its newest copy, if that is ready, else
into the other if it has room; the sector of the pair that is then not ready is erased (R453). -/
def Dev.recWrite (d : Dev) (t typ len : Nat) : Dev :=
  let len := recLen typ len
  let p := pairOf typ
  let a := d.secPhys t (2 + 2 * p)
  let b := d.secPhys t (3 + 2 * p)
  let cur := tget (d.sl t).recs {} typ
  let new := if cur.rseq ≠ 0 ∧ cur.sector = a then a else b
  let oth := if new = a then b else a
  let big := maxBy ((d.sl t).recs.filter fun r => pairOf r.1 == p) len fun r => r.2.len
  if d.secReady t oth big then (d.recPut t typ len oth).pairFix t p new oth big
  else if d.secUsed t new + len + 1 ≤ secLines new then (d.recPut t typ len new).pairFix t p oth new big
  else d.pairFix t p oth new big

/-- A package record is written on T0 and copied to T4 (R432). -/
def Dev.recWritePkg (d : Dev) (typ len : Nat) : Dev := (d.recWrite 0 typ len).recWrite 4 typ len

/-! ### The event store (R455) -/

/-- The event store sectors of a tile that are in use. -/
def Dev.storeSecs (d : Dev) (t : Nat) : List Nat := [0, 1, 2].filter fun k => !(d.sl t).badSectors.contains (0x3C + k)

/-- The sector after `k` in rotation. -/
def Dev.storeNext (d : Dev) (t k : Nat) : Nat :=
  match [k + 1, k + 2].find? fun j => (d.storeSecs t).contains (j % 3) with
  | some j => j % 3
  | none => k

/-- The lines of a record with its completion line are appended to the event store, in the next sector once the current one is full. -/
def Dev.storePut (d : Dev) (t typ q : Nat) (ls : List (BitVec 128)) : Dev :=
  let k := (d.sl t).storeSector
  let k := if d.secUsed t (0x3C + k) + ls.length ≤ 16384 then k else d.storeNext t k
  let at_ := secBase (0x3C + k) / 16 + d.secUsed t (0x3C + k)
  (d.putLines t (0x3C + k) ls).onSl t fun x => { x with
    storeSector := k, store := { typ := typ, rseq := q, sector := k, size := 16 * ls.length, line := at_ } :: x.store }

/-- The highest RSEQ of a type in the store, plus one. -/
def Dev.storeSeq (d : Dev) (t typ : Nat) : Nat := maxBy ((d.sl t).store.filter fun r => r.typ == typ) 0 (fun r => r.rseq) + 1

/-- A record of a type, its bytes given, is appended to the event store of the lead, and of T4 where `both` (R89, R432). -/
def Dev.storeNew (d : Dev) (typ q : Nat) (body : List Byte) (both : Bool := false) : Dev :=
  let d := d.storePut d.pkg.lead typ q (evtLines typ q body)
  if both ∧ d.pkg.lead ≠ 4 then d.storePut 4 typ q (evtLines typ q body) else d

/-- A record of a type with the next RSEQ of the lead's store is appended there, framed as R455. -/
def Dev.storeFramed (d : Dev) (typ : Nat) (content : List Byte) : Dev :=
  let q := d.storeSeq d.pkg.lead typ
  d.storeNew typ q (evtFrame typ q d.now content)

end Sys2Proof.Machine
end

