-- ==== Sys2Proof/Machine/Gauge.lean ====
section
/-! DEFINITION. The estimator: chemistry tables, seal-referenced energy and its uncertainty, the slew-limited views
(chapter 08, R260 to R268). Energies are in mJ, voltages in mV, resistances in µΩ, shares in 0.01 %, temperatures in
1/16 °C; each quotient is rounded down. -/

namespace Sys2Proof.Machine

/-! ### Chemistry tables (R260) -/

/-- One value of a table at grid point `i` (0 to 20) and column `j` (0 to 5); `o` is 0 for OCV, 126 for R_tab. -/
def chemAt (tab : List Nat) (o i j : Nat) : Int := (tab.getD (o + j * 21 + i) 0 : Nat)

/-- Linear interpolation between two values, `num / den` of the way. -/
def lerp (a b : Int) (num den : Nat) : Int := a + (b - a) * (num : Int) / (den : Int)

/-- The column left of a temperature and the way past it, as (column, numerator, denominator); the nearest column is used
outside the range (R260). -/
def chemCol (t : Int) : Nat × Nat × Nat :=
  if t ≤ -320 then (0, 0, 1)
  else if t < 0 then (0, (t + 320).toNat, 320)
  else if t < 160 then (1, t.toNat, 160)
  else if t < 400 then (2, (t - 160).toNat, 240)
  else if t < 640 then (3, (t - 400).toNat, 240)
  else if t < 960 then (4, (t - 640).toNat, 320)
  else (5, 0, 1)

/-- A table's value at state of charge `x` (0.01 %) and temperature `t`, interpolated bilinearly (R260). -/
def chemVal (tab : List Nat) (o x : Nat) (t : Int) : Nat :=
  let i := min (x / 500) 19
  let n := x - 500 * i
  let c := chemCol t
  let col (j : Nat) : Int := lerp (chemAt tab o i j) (chemAt tab o (i + 1) j) n 500
  (lerp (col c.1) (col (min (c.1 + 1) 5)) c.2.1 c.2.2).toNat

/-- The chemistry table of a bay's pack. -/
def Dev.chemOf (d : Dev) (b : Nat) : List Nat := tget d.energy.chemTab [] (d.bay b).chem

/-- OCV in mV of a bay's pack (R260). -/
def Dev.ocv (d : Dev) (b x : Nat) (t : Int) : Nat := chemVal (d.chemOf b) 0 x t
/-- R_tab in µΩ of a bay's pack (R260). -/
def Dev.rTab (d : Dev) (b x : Nat) (t : Int) : Nat := 10 * chemVal (d.chemOf b) 126 x t

/-- OCV⁻¹: the state of charge whose OCV is `v`, from the first grid interval that holds it (R261). -/
def Dev.ocvInv (d : Dev) (b v : Nat) (t : Int) : Nat :=
  if v ≤ d.ocv b 0 t then 0
  else match (List.range 20).find? fun i => decide (v ≤ d.ocv b (500 * (i + 1)) t) with
    | none => 10000
    | some i =>
      let a := d.ocv b (500 * i) t
      let z := d.ocv b (500 * (i + 1)) t
      500 * i + (v - a) * 500 / (z - a)

/-! ### Readings -/

/-- Temperature of thermistor `i` of a bay (R254, R257); the conversion is a free function. -/
def Dev.thT (d : Dev) (b i : Nat) : Int :=
  let p := d.bay b
  let s := d.src b
  Config.thermistorTemp (if i = 0 then s.th1 else s.th2) p.thR25 p.thBeta
/-- The lower of a pack's two thermistors. -/
def Dev.packLo (d : Dev) (b : Nat) : Int := min (d.thT b 0) (d.thT b 1)
/-- The higher of a pack's two thermistors. -/
def Dev.packHi (d : Dev) (b : Nat) : Int := max (d.thT b 0) (d.thT b 1)
/-- Voltage of a source, mV (R257). -/
def Dev.srcMv (d : Dev) (s : Nat) : Nat := (d.src s).vCode / 10
/-- Shunt of a source, µΩ. -/
def Dev.shunt (d : Dev) (s : Nat) : Nat := if s = 2 then d.energy.brShunt else (d.bay s).rShunt
/-- Current of a source in µA, offset removed; positive discharges (R257, R259). -/
def Dev.srcUa (d : Dev) (s : Nat) : Int :=
  let r := d.shunt s
  if r = 0 then 0 else ((d.src s).iCode - (d.src s).off) * 625000 / (r : Int)
/-- A pack's current is above FCC/200 per hour (R261, R264). -/
def Dev.loaded (d : Dev) (b : Nat) : Bool := decide ((d.bay b).fccMah * 5 < (d.srcUa b).natAbs)

/-! ### Energy (R263 to R265) -/

/-- P in mW: the larger of 150 W and P_seal (R55, R263). -/
def Dev.sealMw (d : Dev) : Nat := max 150000 (d.expo.kSeal * d.expo.landRef / 1000000)

/-- R(x, T) in µΩ (R262). -/
def Dev.rAt (d : Dev) (b x : Nat) (t : Int) : Nat :=
  let m := d.rTab b 5000 400
  if m = 0 then 0 else d.rTab b x t * (d.bay b).dcir / m

/-- Vt(x) in mV; 0 where the root is imaginary (R263). -/
def Dev.vt (d : Dev) (b : Nat) (t : Int) (x : Nat) : Nat :=
  let o := d.ocv b x t
  let q := 4 * d.rAt b x t * d.sealMw / 1000
  if o * o < q then 0 else (o + Nat.sqrt (o * o - q)) / 2

/-- Twice the integral of `f` over `[lo, hi]` (0.01 %), by trapezoids on the 5 % grid. -/
def trap2 (f : Nat → Nat) (lo hi : Nat) : Nat :=
  sumBy (List.range 20) fun i =>
    let a := max lo (500 * i)
    let b := min hi (500 * (i + 1))
    if a < b then (f a + f b) * (b - a) else 0

/-- s_z: the least grid point from which Vt stays at 12.0 V or above; none where there is none (R263). -/
def Dev.sz (d : Dev) (b : Nat) (t : Int) : Option Nat :=
  ((List.range 21).map fun i => 500 * i).find? fun x =>
    (List.range 21).all fun j => decide (500 * j < x) || decide (12000 ≤ d.vt b t (500 * j))

/-- Energy in mJ of FCC × an integral given doubled. -/
def Dev.fccMj (d : Dev) (b twice : Nat) : Nat := 36 * (d.bay b).fccMah * twice / 200000

/-- Energy from s_z to `x`; zero below −20 °C (R260, R263). -/
def Dev.packMj (d : Dev) (b x : Nat) : Nat :=
  let t := d.packLo b
  if t < -320 then 0
  else match d.sz b t with
    | none => 0
    | some z => if x ≤ z then 0 else d.fccMj b (trap2 (d.vt b t) z x)

/-- σ_cap (R264). -/
def Dev.sigCapNow (d : Dev) (b : Nat) : Nat :=
  let p := d.bay b
  if p.tLearn = 0 then 1000 else min 500 (50 + 25 * (d.since p.tLearn) / (30 * 86400000000000))

/-- σ_soc, at most 20 % (R264). -/
def Dev.sigSocNow (d : Dev) (b : Nat) : Nat := min 2000 ((d.bay b).sigSoc + (d.bay b).sigFine / 36000)

/-- E_br in mJ at the bridge voltage (R265). -/
def Dev.bridgeMj (d : Dev) (mv : Nat) : Nat :=
  let e := d.energy
  let vz := 12000 + e.brEsr * d.sealMw / 12000000
  e.brC * (mv * mv - vz * vz) / 2000000

/-- The bridge is counted: its parameters are set and it has none of faults 1h, 4h and 5h (R286, R288). -/
def Dev.bridgeCounted (d : Dev) : Bool :=
  d.energy.brCnom.isSome && d.energy.brFault != 1 && d.energy.brFault != 4 && d.energy.brFault != 5

/-- A pack is present with its parameters, and the gauge has made its first estimate of it. -/
def Dev.estimated (d : Dev) (b : Nat) : Bool :=
  (d.bay b).latch && (d.bay b).nameplate.isSome && (d.src b).tEst != 0

/-- Recompute E_p, U_p and E_full of a pack (R263, R264). -/
def Dev.estimatePack (d : Dev) (b : Nat) : Dev :=
  if d.estimated b then
    let d := d.onBay b fun p => { p with sigCap := d.sigCapNow b }
    let e := d.packMj b (d.bay b).soc
    let full := d.packMj b 10000
    let u := ((d.bay b).sigCap * e + d.sigSocNow b * full) / 10000
    d.onSrc b fun s => { s with eMj := e, uMj := u, eFullMj := full, tEst := max 1 d.now }
  else d

/-- Recompute E_br and U_br (R265); a bridge not counted has none. -/
def Dev.estimateBridge (d : Dev) : Dev :=
  let e := if d.bridgeCounted then d.bridgeMj (d.srcMv 2) else 0
  let u := if d.bridgeCounted then e / 100 + 40000 else 0
  d.onSrc 2 fun s => { s with eMj := e, uMj := u, eFullMj := d.bridgeMj d.energy.brVfull, tEst := d.now }

/-! ### The views (R267, R268) -/

/-- Move `a` towards `b` by at most `m`. -/
def slew (a b m : Nat) : Nat := if a < b then min b (a + m) else max b (a - m)

/-- Display energy of a pack: from s down to 0 % along the OCV curve (R267). -/
def Dev.displayMj (d : Dev) (b x : Nat) : Nat := d.fccMj b (trap2 (fun y => d.ocv b y (d.packLo b)) 0 x)

/-- The view of a pack follows the estimator, at most 1 % of full scale a minute; `now` takes the estimate at once; a pack
fault holds it (R267). The view is brought up 600 times a minute. -/
def Dev.viewPack (d : Dev) (b : Nat) (now : Bool) : Dev :=
  let p := d.bay b
  if p.fault ≠ 0 then d
  else
    let s := 6 * p.soc
    let e := d.displayMj b p.soc
    let m := d.displayMj b 10000 / 60000
    d.onBay b fun q => if now then { q with viewSoc := s, viewEnergy := e }
      else { q with viewSoc := slew q.viewSoc s 1, viewEnergy := slew q.viewEnergy e m }

/-- Bridge energy above 12.0 V and its share of the energy at V_FULL (R267). -/
def Dev.bridgeView (d : Dev) : Dev :=
  let e := d.energy
  let mj (mv : Nat) : Nat := e.brC * (mv * mv - 12000 * 12000) / 2000000
  let full := mj e.brVfull
  let now := mj (d.srcMv 2)
  let fill := if full = 0 then 0 else 6 * (min 10000 (10000 * now / full))
  d.onEnergy fun x => { x with brFill := slew x.brFill fill 1, brEnergy := slew x.brEnergy now (full / 60000) }

/-- FCC as a percentage of nameplate, saturating (R267). -/
def Dev.health (d : Dev) (b : Nat) : Nat :=
  match (d.bay b).nameplate with
  | some n => if n = 0 then 0 else min 255 (100 * (d.bay b).fccMah / n)
  | none => 0

/-- DW_GAUGE_SL of a bay and DW_GAUGE_BR (R267, R268). -/
def Dev.viewUpd (d : Dev) : Dev :=
  let d := [0, 1].foldl (fun d b =>
    let p := d.bay b
    d.dwUpd (0xE10 + 8 * b) 8 (put 0 14 (p.viewSoc / 6) + put 14 20 (p.viewEnergy / 1000) + put 34 14 (twos 14 (d.packHi b))
      + put 48 8 (d.health b))) d
  let e := d.energy
  d.dwUpd 0xE20 8 (put 0 14 (e.brFill / 6) + put 14 20 (e.brEnergy / 1000) + put 34 16 (d.srcMv 2) + put 50 2 e.brState
    + put 52 4 e.brFault)

/-! ### The floor (R97) -/

/-- E_stop in mJ (R97). -/
def Dev.eStop (d : Dev) : Nat := max 400000 (d.expo.eFixed / 2)

/-! ### Bays of a source -/

/-- Flint source of a bay (R313). -/
def baySrc (b : Nat) : Nat := 807 + b

end Sys2Proof.Machine
end

