-- ==== Sys2Proof/Machine/Energy.lean ====
section
/-! DEFINITION. Packs, bridge, capacity tests, slot assist and the bays (chapter 08). -/

namespace Sys2Proof.Machine

/-! ### Records and events -/

/-- The gauge learning record is to be written, with the state record (R276, R277). -/
def Dev.gaugeDue (d : Dev) : Dev := d.onEnergy fun e => { e with recDue := true, recDirty := true }

/-- A bay event by its name in DETAIL (R521): severity and number. -/
def Dev.bayEvent (d : Dev) (b kind sev name : Nat) : Dev := d.raise (baySrc b) kind sev (detail := [name])

/-! ### Capacity tests (R270 to R273) -/

/-- A test of a pack is disqualified: it recharges and is tried again 24 h later; after three in a row learning is not
possible until the next interval (R272). -/
def Dev.disqualify (d : Dev) (b : Nat) : Dev :=
  let p := d.bay b
  if p.test = 0 then d
  else
    let n := p.learnFails + 1
    let third := decide (n % 3 = 0)
    let d := d.bayDo b fun p => { p with
      test := 0, testIntr := 0, intrAt := none, intrClear := none, testSa := none, testSb := none, learnFails := n
      tNextLearn := d.now + (if third then p.learnInt * 86400000000000 else 86400000000000) }
    let d := d.bayEvent b 0x27 0 3
    let d := d.onEnergy fun e => { e with recDirty := true }
    if third then d.bayEvent b 0x27 2 4 else d

/-- An interruption of the capacity tests that discharge or rest: a fourth one disqualifies (R272). -/
def Dev.interruptTests (d : Dev) : Dev :=
  [0, 1].foldl (fun d b =>
    let p := d.bay b
    if p.test = 2 ∨ p.test = 3 then
      if p.intrAt.isSome then d.onBay b fun p => { p with intrClear := none }
      else if 3 ≤ p.testIntr then d.disqualify b
      else d.bayDo b fun p => { p with testIntr := p.testIntr + 1, intrAt := some d.now, intrClear := none }
    else d) d

/-- A condition that interrupts a test stands (R272). -/
def Dev.interrupting (d : Dev) : Bool :=
  !d.panel.pwrFailN || !d.panel.vinOk || d.sealing.active
    || [0, 1].any fun b => (d.bay b).touch || (d.bay b).button || (d.bay b).fault != 0

/-- An interruption lasts until 5 s after its condition ends; one of more than 60 s disqualifies (R272). -/
def Dev.interruptStep (d : Dev) (b : Nat) : Dev :=
  let p := d.bay b
  match p.intrAt with
  | none => d
  | some t0 =>
    if 60000000000 < d.since t0 then d.disqualify b
    else if d.interrupting then d.onBay b fun p => { p with intrClear := none }
    else match p.intrClear with
      | none => d.onBay b fun p => { p with intrClear := some d.now }
      | some c => if 5000000000 ≤ d.since c then d.bayDo b fun p => { p with intrAt := none, intrClear := none } else d

/-- Both thermistors lie in `[lo, hi]` °C. -/
def Dev.packIn (d : Dev) (b : Nat) (lo hi : Int) : Bool := decide (lo * 16 ≤ d.packLo b) && decide (d.packHi b ≤ hi * 16)

/-- The conditions under which the device starts a capacity test (R270). -/
def Dev.testMayStart (d : Dev) (b : Nat) : Bool :=
  let o := 1 - b
  d.panel.mainsGood && (d.bay b).state == 2 && (d.bay b).test == 0 && (d.bay o).counted && (d.bay o).test == 0
    && d.expo.gov.pkgState == 0 && !([0, 1].any fun x => (d.bay x).state == 3 || (d.bay x).state == 4)
    && !d.holdup && d.pkg.safe == 0 && d.packIn b 15 40 && d.panel.removal == 0

/-- Start a test: the pack is charged to 100 % (R271 step 1). -/
def Dev.startTest (d : Dev) (b : Nat) : Dev :=
  d.bayDo b fun p => { p with
    test := 1, testIntr := 0, intrAt := none, intrClear := none, testSa := none, testSb := none
    charging := p.charging || decide (p.soc < 10000), chargeAt := if p.charging then p.chargeAt else d.now }

/-- CAPACITY_TEST_DUE: a due test is tried; one whose conditions fail is tried again in 1 h (R270). -/
def execCapacityTestDue (b : Fin 2) (dt : Nat) (s : State) : Res := s.run fun d =>
  let d := d.elapse dt
  let p := d.bay b.val
  if p.learnInt ≠ 0 ∧ p.test = 0 ∧ p.counted ∧ p.tNextLearn ≤ d.now then
    if d.testMayStart b.val then d.startTest b.val
    else d.onBay b.val fun p => { p with tNextLearn := d.now + 3600000000000 }
  else d

/-- The result of a test: accepted between 50 % and 110 % of nameplate, else discarded as a disqualification (R273). -/
def Dev.testResult (d : Dev) (b sa sb : Nat) : Dev :=
  let p := d.bay b
  let np := p.nameplate.getD 0
  let meas := if p.rShunt * (sa - sb) = 0 then 0 else p.testQ.toNat * 6250 / (3600 * p.rShunt * (sa - sb))
  if np ≤ 2 * meas ∧ 10 * meas ≤ 11 * np ∧ meas ≠ 0 then
    let old := p.fccMah
    let d := d.bayDo b fun p => { p with
      test := 0, testIntr := 0, testSa := none, testSb := none, fccMah := meas, learned := true, sigCap := 50, tLearn := d.now
      tNextLearn := d.now + p.learnInt * 86400000000000, learnFails := 0, worn := decide (100 * meas < 70 * np) }
    let d := (d.bayEvent b 0x27 0 1).gaugeDue
    let d := if old < 10 * (if meas < old then old - meas else meas - old) then d.bayEvent b 0x27 0 2 else d
    if 100 * meas < 70 * np then d.bayEvent b 0x27 2 5 else d
  else d.disqualify b

/-! ### Pack faults (R285 to R287) -/

/-- A pack fault is raised: the bay enters FAULT, but for a bay in GRANTED, and its pack leaves E_avail; during a seal
faults 03h to 0Ah are recorded only (R287). One fault is shown at a time: another is taken when it has cleared, but 01h and 02h
replace one that a seal only recorded. -/
def Dev.packFault (d : Dev) (b code : Nat) : Dev :=
  let p := d.bay b
  let recOnly := d.sealing.active && decide (3 ≤ code)
  let worse := d.sealing.active && !recOnly && decide (3 ≤ p.fault)
  if p.fault ≠ 0 ∧ !worse ∨ !p.latch then d
  else
    let d := d.bayDo b fun p =>
      if recOnly then { p with fault := code, faultSince := d.now }
      else { p with
        fault := code, faultSince := d.now, counted := false, charging := false, state := if p.state = 4 then 4 else 5 }
    let d := (d.bayEvent b 0x25 2 code).onEnergy fun e => { e with
      recDirty := true, assistSet := if recOnly then e.assistSet else tdel e.assistSet b }
    let d := d.bayUpd b
    let d := if p.test ≠ 0 ∧ !recOnly then d.disqualify b else d
    (d.govTrigger 2).interruptTests

/-- PACK_FAULT_CLEARED: a transient fault has been absent for 60 s, so the bay passes to INSERTED, and the pack is counted
again after a new first estimate (R285, R287). -/
def execPackFaultCleared (b : Fin 2) (dt : Nat) (s : State) : Res := s.run fun d =>
  let d := d.elapse dt
  let p := d.bay b.val
  if 1 ≤ p.fault ∧ p.fault ≤ 6 ∧ 60000000000 ≤ d.since p.faultSince then
    let d := if p.counted then d else d.onSrc b.val fun x => { x with tEst := 0, eMj := 0, uMj := 0 }
    let d := d.bayDo b.val fun p => { p with fault := 0, state := if p.state = 5 then 1 else p.state, resumed := false }
    (d.bayEvent b.val 0x25 0 0).govTrigger 8
  else d

/-- The bridge raises a fault; one that takes it out of the count replaces one that does not (R286). -/
def Dev.bridgeFault (d : Dev) (code : Nat) : Dev :=
  let worse := (d.energy.brFault == 2 || d.energy.brFault == 3) && code != 2 && code != 3
  if d.energy.brFault = code then d.onEnergy fun e => { e with brFaultSince := d.now }
  else if d.energy.brFault ≠ 0 ∧ !worse then d
  else ((d.onEnergy fun e => { e with brFault := code, brFaultSince := d.now, brState := 3 }).raise 809 0x25 2
    (detail := [code])).govTrigger 8

/-- A bridge fault clears once absent for 60 s (R286). -/
def Dev.bridgeClear (d : Dev) : Dev :=
  if d.energy.brFault ≠ 0 ∧ 60000000000 ≤ d.since d.energy.brFaultSince then
    ((d.onEnergy fun e => { e with brFault := 0, brState := 0 }).raise 809 0x25 0 (detail := [0])).govTrigger 8
  else d

/-! ### The 1 ms sample (R257, R259, R266) -/

/-- One source's sample is taken: codes, accumulator, registers (R257, R259). -/
def Dev.takeSample (d : Dev) (s : Nat) (x : Nat × Int × Nat × Nat) : Dev :=
  let d := d.onSrc s fun r => { r with
    vCode := x.1 % 262144, iCode := signed 18 (twos 18 x.2.1), th1 := x.2.2.1 % 262144, th2 := x.2.2.2 % 262144
    acc := signed 48 (twos 48 (r.acc + (signed 18 (twos 18 x.2.1) - r.off))) }
  let r := d.src s
  let n := d.energy.sample
  (d.dwSet (0xE40 + 16 * s) (put 0 18 r.vCode + put 18 18 (twos 18 r.iCode) + put 36 16 n)).dwSet (0xE48 + 16 * s)
    (if s = 2 then put 36 16 n else put 0 18 r.th1 + put 18 18 r.th2 + put 36 16 n)

/-- V × I × 1 ms of a source, mJ (R266). -/
def Dev.sampleMj (d : Dev) (s : Nat) : Int :=
  let r := d.shunt s
  if r = 0 then 0 else (((d.src s).vCode : Int) * ((d.src s).iCode - (d.src s).off) * 625) / ((r : Int) * 10000000)

/-- Some tile is in stage 3. -/
def Seal.landing (x : Seal) : Bool := x.tileStage.any fun t => t.2 == 3

/-- During a seal the seal-referenced energy of a source counts down, and what is drawn is measured (R266, R56). -/
def Dev.countDown (d : Dev) (s : Nat) : Dev :=
  let e := d.sampleMj s
  let d := d.onSrc s fun r => { r with eMj := ((r.eMj : Int) - e).toNat }
  d.onSealing fun x => { x with
    eDrawn := ((x.eDrawn : Int) + e).toNat
    eDrawnPre := if x.landing then x.eDrawnPre else ((x.eDrawnPre : Int) + e).toNat
    eDrawn3 := if x.landing then ((x.eDrawn3 : Int) + e).toNat else x.eDrawn3 }

/-- Charge counts into s (R261) and into THROUGHPUT (R274): current codes of 1 ms, carried below the unit. -/
def Dev.countCharge (d : Dev) (b : Nat) : Dev :=
  let c := (d.src b).iCode - (d.src b).off
  let old := (d.bay b).throughput
  let d := d.onBay b fun p =>
    let unit := p.fccMah * p.rShunt * 576 / 1000
    let mAh := p.rShunt * 5760
    let a := p.socAcc + c
    let p := if unit = 0 then { p with socAcc := 0 }
      else { p with
        soc := (min 10000 (max 0 ((p.soc : Int) - a.tdiv unit))).toNat, socAcc := a - a.tdiv unit * unit }
    let t := p.thruAcc + c.toNat
    if mAh = 0 then p else { p with throughput := p.throughput + t / mAh, thruAcc := t % mAh }
  d.onEnergy fun e => { e with recDirty := e.recDirty || (d.bay b).throughput != old }

/-- Set the run of a fault condition, and the time at which the condition of the standing fault last held. -/
def Dev.packRun (d : Dev) (b code need : Nat) (cond : Bool) : Dev :=
  let n := if cond then tget (d.bay b).runs 0 code + 1 else 0
  let d := d.onBay b fun p => { p with
    runs := tset p.runs code (min n 100000)
    faultSince := if cond ∧ p.fault = code % 16 then d.now else p.faultSince }
  if need ≤ n ∧ cond then d.packFault b (code % 16) else d

/-- The fault conditions that a sample shows on a bay (R285). `prev` is the sample before. -/
def Dev.packChecks (d : Dev) (b : Nat) (prev : SourceSt) : Dev :=
  let r := d.src b
  let p := d.bay b
  if !p.latch then d
  else
    let others := prev.th1 != r.th1 || prev.th2 != r.th2
    let vStuck := prev.vCode == r.vCode && (prev.iCode != r.iCode || others)
    let iStuck := prev.iCode == r.iCode && (prev.vCode != r.vCode || others)
    let rail := r.th1 == 0 || r.th1 == 262143 || r.th2 == 0 || r.th2 == 262143
    let hot := if p.fault = 3 then decide (960 ≤ d.packHi b) else decide (1120 < d.packHi b)
    let d := d.packRun b 1 100 (decide (170000 < r.vCode))
    let d := d.packRun b 2 1 (decide (r.vCode < 80000))
    let d := d.packRun b 3 3 hot
    let d := d.packRun b 4 1 rail
    let d := d.packRun b 0x14 10000 (decide (128 < d.packHi b - d.packLo b))
    let d := d.packRun b 5 1000 vStuck
    let d := d.packRun b 0x15 1000 iStuck
    let d := d.packRun b 0x25 1 (r.iCode == 131071 || r.iCode == -131072 || r.vCode == 262143)
    d.packRun b 6 10000 ((p.path == 0 || (p.path == 1 && d.panel.vinOk)) && decide (50000 < (d.srcUa b).natAbs))

/-- The bridge's conditions in a sample (R286). -/
def Dev.bridgeChecks (d : Dev) (prev : SourceSt) : Dev :=
  let r := d.src 2
  let e := d.energy
  if e.brCnom.isNone then d
  else
    let run (k : Nat) (c : Bool) : Nat := if c then tget e.brRuns 0 k + 1 else 0
    let nv := run 4 (prev.vCode == r.vCode && prev.iCode != r.iCode)
    let ni := run 0x14 (prev.iCode == r.iCode && prev.vCode != r.vCode)
    let d := d.onEnergy fun e => { e with brRuns := tset (tset e.brRuns 4 (min nv 100000)) 0x14 (min ni 100000) }
    let d := if 255000 < r.vCode then d.bridgeFault 1 else d
    let d := if 1000 ≤ nv ∨ 1000 ≤ ni ∨ r.vCode = 262143 then d.bridgeFault 4 else d
    let low := decide (r.vCode < 235000) && (match e.brChargeAt with
      | some t => decide (120000000000 ≤ d.since t)
      | none => false)
    let d := if low then d.bridgeFault 5 else d
    let d := if 100 * e.brC < 70 * e.brCnom.getD 0 then d.bridgeFault 2 else d
    let d := if 2 * e.brEsrNom < e.brEsr then d.bridgeFault 3 else d
    let d := d.bridgeClear
    d.onEnergy fun e => { e with
      brChargeAt := if 235000 ≤ r.vCode then none else e.brChargeAt
      brState := if e.brFault ≠ 0 then 3 else if 100 < d.srcUa 2 / 1000 then 2 else if 235000 ≤ r.vCode then 1 else 0 }

/-- Charging ends at the target, or at C/20 in constant voltage for a 100 % target, which sets s to 100 % (R261, R269). -/
def Dev.chargeEnd (d : Dev) (b : Nat) (cv : Bool) : Dev :=
  let p := d.bay b
  let target := if p.test = 1 then 100 else d.energy.chargeTarget
  if !p.charging then d
  else if target = 100 then
    if cv ∧ (d.srcUa b).natAbs ≤ p.fccMah * 50 then
      d.bayDo b fun p => { p with charging := false, soc := 10000, socAcc := 0, sigSoc := 50, sigFine := 0 }
    else d
  else if target * 100 ≤ p.soc then d.bayDo b fun p => { p with charging := false }
  else d

/-- The 1 s mean current of a test that discharges (R272). -/
def Dev.testRate (d : Dev) (b : Nat) : Dev :=
  let p := d.bay b
  if p.test = 2 ∧ p.intrAt.isNone then
    let sum := p.winSum + d.srcUa b
    if p.winN + 1 < 1000 then d.onBay b fun p => { p with winSum := sum, winN := p.winN + 1 }
    else
      let mean := (sum / 1000).toNat
      let c := p.fccMah * 1000
      let want := c * p.testRate / 100
      let d := d.onBay b fun p => { p with winSum := 0, winN := 0 }
      if 100 * mean < 5 * c ∨ c < 2 * mean ∨ 5 * mean < 4 * want ∨ 6 * want < 5 * mean then d.disqualify b else d
  else d.onBay b fun p => { p with winSum := 0, winN := 0 }

/-- The time in OFF or IDLE with the input good runs (R259). -/
def Dev.calRun (d : Dev) (b : Nat) : Dev :=
  d.onBay b fun p => { p with
    calFrom := if p.path ≤ 1 ∧ d.panel.pwrFailN ∧ d.panel.vinOk then some (p.calFrom.getD d.now) else none }

/-- A rest runs while |I| is at most FCC/200 per hour; a pack temperature that has changed by more than 3 °C begins it again (R261). -/
def Dev.restRun (d : Dev) (b : Nat) : Dev :=
  let t := d.packLo b
  d.onBay b fun p =>
    if d.loaded b then { p with restFrom := none }
    else
      let lo := min p.restLo t
      let hi := max p.restHi t
      if p.restFrom.isSome ∧ hi - lo ≤ 48 then { p with restLo := lo, restHi := hi }
      else { p with restFrom := some d.now, restLo := t, restHi := t }

/-- The rest of a pack has lasted 20 min (R261). -/
def Dev.restQualifies (d : Dev) (b : Nat) : Bool :=
  match (d.bay b).restFrom with
  | some t => decide (1200000000000 ≤ d.since t)
  | none => false

/-- GAUGE_SAMPLE: the 1 ms sample of bay A, bay B and the bridge (voltage code, current code, TH1, TH2); `cv` says which
chargers are in constant voltage; what it changes for the governor is mirrored (R18, R257, R259, R261, R266, R269, R272, R285, R286). -/
def execGaugeSample (samples : List (Nat × Int × Nat × Nat)) (cv : BitVec 2) (dt : Nat) (s : State) : Res := s.run fun d =>
  let d := d.elapse dt
  let d := d.onEnergy fun e => { e with sample := (e.sample + 1) % 65536 }
  let prev := fun b => d.src b
  let pa := prev 0
  let pb := prev 1
  let pbr := prev 2
  let x := fun (i : Nat) => samples.getD i (0, 0, 0, 0)
  let d := ((d.takeSample 0 (x 0)).takeSample 1 (x 1)).takeSample 2 (x 2)
  let d := if d.sealing.active then [0, 1, 2].foldl Dev.countDown d else d
  let d := (d.countCharge 0).countCharge 1
  let d := [0, 1].foldl (fun d b => (d.calRun b).restRun b) d
  let d := ((d.packChecks 0 pa).packChecks 1 pb).bridgeChecks pbr
  let d := (d.chargeEnd 0 (mbit cv 0)).chargeEnd 1 (mbit cv 1)
  let d := [0, 1].foldl (fun d b =>
    let d := (d.interruptStep b).testRate b
    if (d.bay b).test ≠ 0 ∧ !(d.packIn b 15 40) then d.disqualify b else d) d
  if d.expo.gov.triggers.isEmpty then d else d.mirrorNow

/-- OFFSET_CALIBRATION: the mean current code of the 10 s that follow 60 s in OFF or IDLE with the input good becomes the offset of
the bay (R259). -/
def execOffsetCalibration (b : Fin 2) (mean : Int) (dt : Nat) (s : State) : Res := s.run fun d =>
  let d := d.elapse dt
  let due : Bool := match (d.bay b.val).calFrom with
    | some t => decide (70000000000 ≤ d.since t)
    | none => false
  if due ∧ (d.bay b.val).path ≤ 1 ∧ d.panel.pwrFailN ∧ d.panel.vinOk then
    (d.onSrc b.val fun r => { r with off := mean }).onEnergy fun e => { e with recDirty := true }
  else d

/-! ### The 100 ms estimator (R264, R266, R268, R269) -/

/-- Whether a bay's pack may charge now (R269); a pack that prepares for a test and has been charged rests (R271). -/
def Dev.mayCharge (d : Dev) (b : Nat) : Bool :=
  let p := d.bay b
  let e := d.energy
  let target := if p.test = 1 then 100 else e.chargeTarget
  let rate := if d.packHi b < 160 then 20 else e.chargeRate
  let mw := rate * p.fccMah * d.srcMv b / 100000
  p.state == 2 && p.test != 2 && p.test != 3 && !p.resting && d.panel.mainsGood && !d.holdup && d.pkg.safe == 0
    && decide (0 ≤ d.packHi b) && decide (d.packHi b ≤ 720) && decide (p.soc < target * 100)
    && (p.test != 1 || p.charging || decide (p.soc < 9800))
    && (!e.assistEn || decide (e.drawMw + mw ≤ e.pSlot * 1000))

/-- Charging starts or is suspended (R269). -/
def Dev.chargeStep (d : Dev) (b : Nat) : Dev :=
  let p := d.bay b
  if d.mayCharge b then
    if p.charging then d else d.bayDo b fun p => { p with charging := true, chargeAt := d.now }
  else if p.charging then d.bayDo b fun p => { p with charging := false } else d

/-- σ_soc grows and NO_REST_MIN follows T_REST: one period of 100 ms (R264, R279). -/
def Dev.sigGrow (d : Dev) (b : Nat) : Dev :=
  let up := if d.loaded b then 10 else 1
  d.onBay b fun p => { p with sigFine := p.sigFine + up, noRestMin := d.since p.tRest / 60000000000 }

/-- A pack locked again after a lapsed grant is counted from its next estimate (R71 step 4, R281 step 5). -/
def Dev.recount (d : Dev) (b : Nat) : Dev :=
  if (d.bay b).state = 1 ∧ d.estimated b ∧ (d.bay b).fault = 0 ∧ !d.sealing.active then
    (d.bayDo b fun p => { p with state := 2, counted := true }).govTrigger 8
  else d

/-- ESTIMATOR_RECOMPUTE: every 100 ms every E_p, U_p, E_br and U_br, the views and the charging decision; during a seal the
energies count down by the sample instead (R266, R268, R522). -/
def execEstimatorRecompute (dt : Nat) (s : State) : Res := s.run fun d =>
  (d.elapse dt).periodic 9 100000000 fun d =>
    let d := if d.sealing.active then d
      else
        let d := [0, 1].foldl (fun d b => if d.estimated b then ((d.sigGrow b).estimatePack b).recount b else d) d
        d.estimateBridge
    let d := [0, 1].foldl (fun d b => if d.estimated b then d.viewPack b false else d) d
    let d := [0, 1].foldl (fun d b => (d.chargeStep b).bayUpd b) d.bridgeView
    d.viewUpd

/-- QUALIFIED_REST_END: the fit over the end of a rest of 20 min gives V_oc, mV; s is OCV⁻¹ of it and σ_soc falls to 0.5 %; a forced
rest ends, and a capacity test takes its start or end point (R261, R264, R271, R279). -/
def execQualifiedRestEnd (b : Fin 2) (vOc : Nat) (dt : Nat) (s : State) : Res := s.run fun d =>
  let d := d.elapse dt
  if !(d.estimated b.val) ∨ !(d.restQualifies b.val) then d
  else
    let x := d.ocvInv b.val vOc (d.packLo b.val)
    let wasRest := (d.bay b.val).resting
    let d := d.bayDo b.val fun p => { p with
      soc := x, socAcc := 0, sigSoc := 50, sigFine := 0, tRest := d.now, noRestMin := 0, resting := false, restDue := false
      restFrom := some d.now, restLo := d.packLo b.val, restHi := d.packLo b.val
      testSa := if p.test = 1 ∧ 9800 ≤ x then some x else p.testSa
      testSb := if p.test = 3 then some x else p.testSb }
    if wasRest then (d.onEnergy fun e => { e with restCap := false }).bayEvent b.val 0x14 0 3 else d

/-- DCIR_MEASUREMENT: ΔV in µV and ΔI in µA 10 ms after a current step of at least 1 A; DCIR_25 moves a quarter of the way;
above three times the table value it raises fault 07h (R262, R285). -/
def execDcirMeasurement (b : Fin 2) (dv di : Nat) (dt : Nat) (s : State) : Res := s.run fun d =>
  let d := d.elapse dt
  let p := d.bay b.val
  let rt := d.rTab b.val p.soc (d.packLo b.val)
  let ref := d.rTab b.val 5000 400
  if di < 1000000 ∨ rt = 0 ∨ !(d.estimated b.val) then d
  else
    let m : Int := ((dv * 1000000 / di * ref / rt : Nat) : Int)
    let d := d.onBay b.val fun p => { p with dcir := ((p.dcir : Int) + (m - (p.dcir : Int)) / 4).toNat }
    let d := d.onEnergy fun e => { e with recDirty := true }
    if 3 * ref < (d.bay b.val).dcir then d.packFault b.val 7 else d

/-- BRIDGE_CHARGE_MEASURED: a charge from `v0` to `v1` mV of `q` mC, the ESR its first step showed, and whether its current
varied by no more than 10 % (R265). -/
def execBridgeChargeMeasured (v0 v1 q esr : Nat) (steady : Bool) (dt : Nat) (s : State) : Res := s.run fun d =>
  let d := d.elapse dt
  match d.energy.brCnom with
  | none => d
  | some cn =>
    if v0 ≤ 20000 ∧ 23500 ≤ v1 ∧ steady then
      let c : Int := ((q * 1000 / (v1 - v0) : Nat) : Int)
      let d := d.onEnergy fun e => { e with
        brC := (min (((cn * 3 / 2 : Nat)) : Int) (max ((cn / 2 : Nat) : Int) ((e.brC : Int) + (c - (e.brC : Int)) / 4))).toNat
        brEsr := ((e.brEsr : Int) + ((esr : Int) - (e.brEsr : Int)) / 4).toNat
        brTLearn := d.now, recDirty := true, brState := 1 }
      let d := if 100 * d.energy.brC < 70 * cn then d.bridgeFault 2 else d
      if 2 * d.energy.brEsrNom < d.energy.brEsr then d.bridgeFault 3 else d
    else d

/-- PACK_FIRST_ESTIMATE: within 2 s of latch closure, from the 1 s mean voltage at zero current in mV, or from the state
block of a pack that stayed in its bay (R264, R266, R267, R276, R280). -/
def execPackFirstEstimate (b : Fin 2) (mv : Nat) (dt : Nat) (s : State) : Res := s.run fun d =>
  let d := d.elapse dt
  let p := d.bay b.val
  if p.state ≠ 1 ∨ !p.latch ∨ p.nameplate.isNone ∨ p.fault ≠ 0 ∨ d.sealing.active then d
  else
    let t := d.packLo b.val
    if !p.resumed ∧ (mv < d.ocv b.val 0 t ∨ d.ocv b.val 10000 t < mv) then d.packFault b.val 0xA
    else
      let d := d.onBay b.val fun p =>
        if p.resumed then p
        else { p with
          soc := d.ocvInv b.val mv t, socAcc := 0, sigSoc := 500, sigFine := 0
          tInsert := if p.tInsert = 0 then d.now else p.tInsert
          tRest := if p.tInsert = 0 then d.now else p.tRest
          tNextLearn := if p.tInsert = 0 then d.now + p.learnInt * 86400000000000 else p.tNextLearn }
      let d := (d.onSrc b.val fun r => { r with tEst := max 1 d.now }).estimatePack b.val
      let d := (d.onBay b.val fun p => { p with state := 2, counted := true, resumed := false }).viewPack b.val true
      ((d.bayUpd b.val).bayEvent b.val 0x14 0 1).gaugeDue.govTrigger 8

/-- CHARGE_TIMEOUT: charging not ended within 6 h raises fault 09h (R269). -/
def execChargeTimeout (b : Fin 2) (dt : Nat) (s : State) : Res := s.run fun d =>
  let d := d.elapse dt
  if (d.bay b.val).charging ∧ 6 * 3600000000000 ≤ d.since (d.bay b.val).chargeAt then d.packFault b.val 9 else d

/-- CAPACITY_TEST_STEP: the test moves on once its step is complete: the start point is known, s has reached 30 %, the end
point is known (R271, R273). -/
def execCapacityTestStep (b : Fin 2) (dt : Nat) (s : State) : Res := s.run fun d =>
  let d := d.elapse dt
  let p := d.bay b.val
  match p.test, p.testSa, p.testSb with
  | 1, some _, _ => d.bayDo b.val fun p => { p with test := 2, testQ0 := (d.src b.val).acc, charging := false, winSum := 0, winN := 0 }
  | 2, _, _ =>
    if p.soc ≤ 3000 ∧ p.intrAt.isNone then
      d.bayDo b.val fun p => { p with test := 3, testQ := signed 48 (twos 48 ((d.src b.val).acc - p.testQ0)) }
    else d
  | 3, some sa, some sb =>
    let d := d.testResult b.val sa sb
    if 2 * (d.bay b.val).fccMah < (d.bay b.val).nameplate.getD 0 then d.packFault b.val 8 else d
  | _, _, _ => d

/-! ### The records (R274 to R277) -/

/-- The bay block of the learning record, its fields in table order: SIGMA_CAP is σ_cap at the last accepted test, OFFSET in 0.01 µV (R264,
R274). -/
def Dev.bayBlock (d : Dev) (b : Nat) : List Nat :=
  let p := d.bay b
  [bit p.latch + 2 * bit p.learned + 4 * bit p.worn + 8 * bit (p.fault != 0), p.fault, p.chem, p.fccMah, (if p.tLearn = 0 then 1000 else 50)
  , p.tLearn, p.dcir, p.throughput, p.tInsert, p.learnFails, twos 16 ((d.src b).off * 125 / 2), p.tNextLearn]

/-- The state block of the state record (R275). -/
def Dev.stateBlock (d : Dev) (b : Nat) : List Nat :=
  let p := d.bay b
  [p.soc, d.sigSocNow b, (d.src b).eMj / 1000, p.tRest, p.latchOpens, twos 16 (d.packLo b), d.srcMv b, p.noRestMin]

/-- Write the learning record and the state record (R274, R275). -/
def Dev.gaugeWrite (d : Dev) (stage5 : Bool) : Dev :=
  let e := d.energy
  let d := d.onEnergy fun x => { x with
    recDirty := false, recDue := false, recAt := d.now
    rec_ := {
      rseqL := e.rec_.rseqL + 1, rseqS := e.rec_.rseqS + 1, tWrite := d.now, stage5 := stage5
      bytesL := d.bayBlock 0 ++ d.bayBlock 1 ++ [e.brC, e.brEsr, e.brTLearn, d.expo.kSeal, d.expo.landRef, d.expo.eFixed / 1000]
      bytesS := d.stateBlock 0 ++ d.stateBlock 1 ++ [d.srcMv 2, bit stage5] } }
  (d.recWritePkg 0x47 10).recWritePkg 0x48 8

/-- What the lead does as stage 2 begins: it requests seal mode and writes the gauge records that wait; a deputy does it once it has taken
over (R22, R85, R276). -/
def Dev.stage2Lead (d : Dev) : Dev :=
  let d := d.pointCheck
  if d.energy.recDirty && d.pkg.takeStep == 0 then d.gaugeWrite false else d

/-- The state record alone, in seal stage 5 (R89, R275). -/
def Dev.stateWrite (d : Dev) : Dev :=
  let d := d.onEnergy fun x => { x with
    rec_ := { x.rec_ with
      rseqS := x.rec_.rseqS + 1, tWrite := d.now, stage5 := true
      bytesS := d.stateBlock 0 ++ d.stateBlock 1 ++ [d.srcMv 2, 1] } }
  d.recWritePkg 0x48 8

/-- The pre-check of a record write outside a seal (R277). -/
def Dev.gaugePreCheck (d : Dev) : Bool :=
  d.panel.pwrFailN && d.panel.vinOk && (match d.panel.goodSince with
    | some t => decide (100000000 ≤ d.since t)
    | none => d.panel.mainsGood) && decide (d.eStop + 100000 ≤ d.eAvailMj [])

/-- GAUGE_RECORD_WRITE: the records are written when due, or every 6 h; a write whose pre-check fails stays due and is retried
(R276, R277). -/
def execGaugeRecordWrite (dt : Nat) (s : State) : Res := s.run fun d =>
  let d := d.elapse dt
  if d.energy.recDue ∨ 21600000000000 ≤ d.since d.energy.recAt then
    if d.gaugePreCheck then d.gaugeWrite false else d.onEnergy fun e => { e with recDue := true }
  else d

/-! ### Slot assist and forced rests (R278, R279) -/

/-- A bay is able to assist (R278). -/
def Dev.able (d : Dev) (b : Nat) : Bool :=
  let p := d.bay b
  p.state == 2 && p.test == 0 && !p.restDue && !p.resting && decide (d.energy.assistFloor * 100 < p.soc)
    && decide (160 ≤ d.packHi b) && decide (d.packHi b ≤ 720)

/-- The excess of the module draw over P_SLOT, mW (R278). -/
def Dev.excess (d : Dev) : Nat := d.energy.drawMw - d.energy.pSlot * 1000

/-- SLOT_ASSIST_UPDATE: the module draw in mW sets the able bays to ASSIST, the excess shared equally, each up to ASSIST_MAX;
an excess that no bay can carry is reported at most once a minute (R278). -/
def execSlotAssistUpdate (drawMw : Nat) (dt : Nat) (s : State) : Res := s.run fun d =>
  let d := (d.elapse dt).onEnergy fun e => { e with drawMw := drawMw }
  if !d.energy.assistEn ∨ d.holdup ∨ d.pkg.safe ≠ 0 then
    [0, 1].foldl Dev.bayUpd (d.onEnergy fun e => { e with assistSet := [] })
  else
    let x := d.excess
    let bays := [0, 1].filter d.able
    let each := if bays.isEmpty then 0 else min (d.energy.assistMax * 1000) (x / bays.length)
    let d := d.onEnergy fun e => { e with assistSet := if x = 0 then [] else bays.map fun b => (b, each) }
    let d := if x = 0 then d else bays.foldl (fun d b => d.onBay b fun p => { p with charging := false }) d
    let d := [0, 1].foldl Dev.bayUpd d
    let free : Bool := match d.energy.slotExceed with | some t => decide (60000000000 ≤ d.since t) | none => true
    if each * bays.length + 1 < x ∧ x ≠ 0 ∧ free then
      (d.onEnergy fun e => { e with slotExceed := some d.now }).raise 806 0x26 0
    else d

/-- FORCED_REST_DUE: a pack whose NO_REST_MIN has reached 4,320 has a rest due; rests run one at a time, the longer wait
first (R279). -/
def execForcedRestDue (dt : Nat) (s : State) : Res := s.run fun d =>
  let d := d.elapse dt
  let d := [0, 1].foldl (fun d b =>
    if d.estimated b ∧ 4320 ≤ (d.bay b).noRestMin then d.bayDo b fun p => { p with restDue := true } else d) d
  if d.expo.gov.pkgState = 4 ∨ d.sealing.active ∨ d.pkg.safe ≠ 0 ∨ d.now < d.energy.restRetry ∨ ([0, 1].any fun b => (d.bay b).resting) then d
  else
    let due := [0, 1].filter fun b => (d.bay b).restDue && (d.bay b).state == 2
    match due.foldl (fun a b => match a with
        | none => some b
        | some x => if (d.bay x).noRestMin < (d.bay b).noRestMin then some b else some x) none with
    | none => d
    | some b =>
      let o := 1 - b
      let carries := d.able o && decide (d.excess ≤ d.energy.assistMax * 1000)
      let d := d.onEnergy fun e => { e with restCap := !carries, assistSet := tdel e.assistSet b }
      (d.bayDo b fun p => { p with resting := true, charging := false }).bayEvent b 0x14 0 2

/-! ### The bays (R280 to R284) -/

/-- A test seal is running (R283). -/
def Dev.testSealRuns (d : Dev) : Bool := d.sealing.testStep != 0

/-- A real seal runs, from stage 0 until a warm return or stage 6. -/
def Dev.realSeal (d : Dev) : Bool := d.sealing.active && !d.sealing.test

/-- A press or request is refused with its indication (R282, R283). -/
def Dev.refusePress (d : Dev) (b : Nat) : Dev :=
  (d.bayDo b fun p => { p with refusedUntil := some (d.now + 3000000000) }).bayEvent b 0x27 0 6

/-- A press or release request that is not refused (R71, R281, R283): granted at once when exposure allows it, when package
exposure is zero or the pack is not counted; otherwise the bay waits. -/
def Dev.releaseAsk (d : Dev) (b : Nat) : Dev :=
  let d := d.disqualify b
  let d := d.govTrigger 8
  if d.testSealRuns then d.bayDo b fun p => { p with state := 3, waitSince := d.now }
  else if d.xPkg = 0 ∨ !(d.bay b).counted ∨ d.mayGrant b then d.grantBay b
  else (d.bayDo b fun p => { p with state := 3, waitSince := d.now }).raise 811 0x27 0 (detail := [2, b])

/-- BAY_TOUCH: a debounced touch; ignored during a seal and on a stuck electrode (R71, R281, R284, R500). -/
def execBayTouch (b : Fin 2) (dt : Nat) (s : State) : Res := s.run fun d =>
  let d := d.elapse dt
  if d.sealing.active ∨ !d.panel.coreUp ∨ d.panel.touchStuck.contains b.val ∨ (d.bay b.val).touch then d
  else
    let d := d.onPanel fun p => { p with touchAt := tset p.touchAt b.val d.now }
    let d := (d.bayDo b.val fun p => { p with touch := true }).interruptTests.govTrigger 8
    d.onExpo fun e => { e with gov := { e.gov with preDrain := d.preDrainTarget } }

/-- BAY_TOUCH_END: the handle is let go; a stuck electrode is taken into use again (R71, R500). -/
def execBayTouchEnd (b : Fin 2) (dt : Nat) (s : State) : Res := s.run fun d =>
  let d := d.elapse dt
  let d := d.onPanel fun p => { p with touchStuck := p.touchStuck.filter fun x => x != b.val, touchAt := tdel p.touchAt b.val }
  if (d.bay b.val).touch then
    let d := (d.bayDo b.val fun p => { p with touch := false }).govTrigger 8
    d.onExpo fun e => { e with gov := { e.gov with preDrain := d.preDrainTarget } }
  else d

/-- TOUCH_STUCK: a touch held for 10 min is a stuck electrode: TOUCH deasserts, the baseline takes the present `count`, and the
electrode is ignored until its count falls back (R500). -/
def execTouchStuck (b : Fin 2) (count : Nat) (dt : Nat) (s : State) : Res := s.run fun d =>
  let d := d.elapse dt
  let held : Bool := match tget (d.panel.touchAt.map fun e => (e.1, some e.2)) none b.val with
    | some t => decide (600000000000 ≤ d.since t)
    | none => false
  if (d.bay b.val).touch && held then
    let d := d.onPanel fun p => { p with
      touchStuck := addOnce p.touchStuck b.val, touchBase := tset p.touchBase b.val count, touchAt := tdel p.touchAt b.val }
    let d := ((d.bayDo b.val fun p => { p with touch := false }).bayEvent b.val 0x24 2 0).govTrigger 8
    d.onExpo fun e => { e with gov := { e.gov with preDrain := d.preDrainTarget } }
  else d

/-- BAY_RELEASE_PRESS: a debounced press of a bay's release button (R280, R281, R283); `down` is false when the button is let
go. -/
def execBayReleasePress (b : Fin 2) (down : Bool) (dt : Nat) (s : State) : Res := s.run fun d =>
  let d := d.elapse dt
  if !d.panel.coreUp then d
  else if !down then d.bayDo b.val fun p => { p with button := false }
  else
    let d := d.bayDo b.val fun p => { p with button := true }
    let p := d.bay b.val
    if p.state = 0 then d
    else
      let d := d.interruptTests
      if d.realSeal ∨ p.hold ∨ p.state = 1 then d.refusePress b.val
      else if p.state = 5 then d.grantBay b.val
      else if p.state = 4 then d
      else if p.state = 3 then ((d.bayDo b.val fun p => { p with state := 2 }).bayEvent b.val 0x27 0 6).govTrigger 8
      else d.releaseAsk b.val

/-- BAY_LATCH_OPEN: a latch opens: the bay is EMPTY; without a grant it is a surprise removal; the pack leaves the energy at
once; while the device hibernates the opening is only counted (R267, R276, R280, R281, R284, R285). -/
def execBayLatchOpen (b : Fin 2) (dt : Nat) (s : State) : Res := s.run fun d =>
  let d := d.elapse dt
  let d := d.onBay b.val fun p => { p with latchOpens := p.latchOpens + 1 }
  if !d.panel.coreUp then d.onBay b.val fun p => { p with latch := false }
  else
    let st := (d.bay b.val).state
    let surprise := decide (st = 2 ∨ st = 3)
    let d := d.disqualify b.val
    let d := d.onSrc b.val fun r => { r with eMj := 0, uMj := 0, eFullMj := 0, tEst := 0 }
    let d := d.bayDo b.val fun p => { p with
      state := 0, latch := false, lock := false, counted := false, fault := 0, charging := false, restDue := false
      resting := false, viewSoc := 0, viewEnergy := 0, resumed := false, runs := [] }
    let d := if st = 0 then d
      else if surprise then (d.bayEvent b.val 0x27 2 7).gaugeDue.govTrigger 3
      else (d.bayEvent b.val 0x14 0 4).gaugeDue.govTrigger 8
    d.interruptTests.viewUpd

/-- The parameters set for a bay take effect at an insertion (R288); FCC and DCIR take their values for a new pack (R264). -/
def Dev.insertPack (d : Dev) (b : Nat) : Dev :=
  let d := d.onBay b fun p => match p.next with
    | some [chem, li, tr, np, rs, r25, beta] => { p with
        next := none, chem := chem, learnInt := li, testRate := tr, nameplate := some np, rShunt := rs, thR25 := r25, thBeta := beta }
    | _ => p
  d.onBay b fun p => { p with
    fccMah := p.nameplate.getD 0 * 9 / 10, dcir := d.rTab b 5000 400, learned := false, worn := false, tLearn := 0, tInsert := 0, learnFails := 0
    throughput := 0, thruAcc := 0, socAcc := 0, sigCap := 1000, sigSoc := 500, sigFine := 0, resumed := false, runs := []
    calFrom := none, restFrom := none }

/-- BAY_LATCH_CLOSE: a latch closes: the bay is INSERTED, its lock engaged (R280); while the device hibernates the lock stays
disengaged. -/
def execBayLatchClose (b : Fin 2) (dt : Nat) (s : State) : Res := s.run fun d =>
  let d := d.elapse dt
  if !d.panel.coreUp then d.onBay b.val fun p => { p with latch := true }
  else if (d.bay b.val).state = 0 then
    let d := d.insertPack b.val
    (d.bayDo b.val fun p => { p with latch := true, state := 1, lock := true }).interruptTests
  else d.bayDo b.val fun p => { p with latch := true }

/-- WAITING_TIMEOUT: 120 s from the first press or request the release is refused (R280). -/
def execWaitingTimeout (b : Fin 2) (dt : Nat) (s : State) : Res := s.run fun d =>
  let d := d.elapse dt
  if (d.bay b.val).state = 3 ∧ 120000000000 ≤ d.since (d.bay b.val).waitSince then
    ((d.bayDo b.val fun p => { p with state := 2 }).bayEvent b.val 0x27 0 6).govTrigger 8
  else d

/-- GRANT_LAPSE: 60 s after a grant with the latch closed the lock engages and the release lapses (R280, R281 step 5). -/
def execGrantLapse (b : Fin 2) (dt : Nat) (s : State) : Res := s.run fun d =>
  let d := d.elapse dt
  if (d.bay b.val).state = 4 ∧ (d.bay b.val).latch ∧ 60000000000 ≤ d.since (d.bay b.val).grantAt then
    ((d.bayDo b.val fun p => { p with state := if p.fault = 0 then 1 else 5, lock := true }).bayEvent b.val 0x27 0 8).govTrigger 8
  else d

/-- REFUSED_PRESS_INDICATION_END: 3 s after a refused press the bay's LED leaves its 4 Hz flashing (R282). -/
def execRefusedPressIndicationEnd (b : Fin 2) (dt : Nat) (s : State) : Res := s.run fun d =>
  let d := d.elapse dt
  let due : Bool := match (d.bay b.val).refusedUntil with | some t => decide (t ≤ d.now) | none => false
  if due then d.bayDo b.val fun p => { p with refusedUntil := none } else d

end Sys2Proof.Machine
end

