-- ==== Sys2Proof/Machine/Flash.lean ====
section
/-! DEFINITION. The image log of a tile: record headers, streams that fill NAND pages of four slots, header pages, metadata records
and the stage 2 reservation (R137 to R141, R151, R153, R155). -/

namespace Sys2Proof.Machine

/-! ### Record headers (R138, R139) -/

/-- The XTS tweak of a page record: the page index and VSEQ (R139). -/
def tweakOf (page vseq : Nat) : Nat := put 0 33 page + put 33 40 vseq

/-- A record's POISON_MASK: bit n for line n (R138). -/
def poisonBits (ls : List Nat) : Nat := sumBy ls fun i => 2 ^ i

/-- The 64 bytes of a page record's header (R138, R181). -/
def PageRec.header (r : PageRec) : List Byte :=
  withCrc (fields [(1, 1),
    (1, bit r.elided + 2 * bit (!r.pmask.isEmpty) + 4 * bit r.fence + 16 * bit r.atSeal + 32 * bit r.test + 64 * bit r.relocated),
    (2, put 0 14 r.context + put 14 2 r.gen), (8, put 0 33 r.page + put 33 14 r.context), (8, put 0 40 r.vseq), (8, r.time), (4, r.dcrc),
    (16, r.patternCt), (4, r.openSeq), (8, poisonBits r.pmask)])

/-- The 64 bytes of the header of a filler, a metadata record, a stratum marker or a header-page slot (R138, R140, R162); DCRC is that of a
metadata record's structure. -/
def MetaRec.header (m : MetaRec) : List Byte :=
  let id := if m.rtype = 3 then put 0 25 m.index + put 25 8 m.mkind else if m.rtype = 4 then put 33 14 m.context else put 0 5 m.index
  let data := fields m.body
  withCrc (fields [(1, m.rtype), (1, (if m.rtype = 4 then 8 else 0) + 32 * bit m.test), (2, 0), (8, id), (8, 0), (8, m.time),
    (4, if m.rtype = 3 then crc32c (data ++ List.replicate (4096 - data.length) 0) else 0), (16, 0), (4, m.openSeq), (8, 0)])

/-! ### Streams (R137, R140, R151, R152, R155). Purposes: 0 trickle, 1 relocation, 2 compaction, 3 metadata, 4 the landing of
stage 3. -/

/-- The stream of a purpose. -/
def Dev.stream (d : Dev) (t k : Nat) : FlashStream := tget (d.fl t).streams {} k
/-- Change a stream. -/
def Dev.onFlow (d : Dev) (t k : Nat) (f : FlashStream → FlashStream) : Dev :=
  d.onFl t fun x => { x with streams := tmod x.streams {} k f }

/-- NAND pages of a block of a stream: compaction fills TLC blocks (R134, R165). -/
def Dev.flowPages (d : Dev) (k : Nat) : Nat := if k = 2 then 3 * d.strata.slcPages else d.strata.slcPages

/-- Slots taken leave the zone; a stream of another purpose than trickle or landing has taken its whole block before (R151, R152). -/
def Dev.zoneUse (d : Dev) (t k n : Nat) : Dev := if k = 0 ∨ k = 4 then d.onFl t fun f => { f with zone := f.zone - n } else d

/-- The least-worn erased block is opened for a purpose, with its BLOCK_OPEN entry (R155, R170). -/
def Dev.openFor (d : Dev) (t k : Nat) : Dev :=
  match d.leastWorn t (d.dataDies t) with
  | none => d
  | some n =>
    let d := d.onBlk t (d.stream t k).block fun b => { b with state := if b.state = 1 then 2 else b.state }
    let d := (d.onBlk t n fun b => { b with state := 1, progTime := d.now, tlc := k == 2 }).ledger t 0x06 n (bit (k == 2)) (if k < 4 then k else 0)
    let d := if k = 0 then d else d.onFl t fun f => { f with zone := f.zone - d.blkRecs }
    d.onFlow t k fun s => { s with block := n, left := d.flowPages k }

/-- Stage 3 takes a NAND page on a die: of the block it fills, else of its next planned block (R153). -/
def Dev.landOn (d : Dev) (t die : Nat) : Dev × Option Nat :=
  let d := if (tget (d.fl t).dieOpen (0, 0) die).2 ≠ 0 then d
    else match (d.fl t).plan.find? fun n => dieOf n == die with
      | some n => (d.onBlk t n fun b => { b with state := 1, progTime := d.now }).onFl t fun f => { f with
          plan := f.plan.filter fun x => x != n, dieOpen := tset f.dieOpen die (n, d.strata.slcPages) }
      | none => d
  let x := tget (d.fl t).dieOpen (0, 0) die
  if x.2 = 0 then (d, none)
  else (d.onFl t fun f => { f with dieOpen := tset f.dieOpen die (x.1, x.2 - 1), stripe := die },
    some (flashAddr x.1 (d.strata.slcPages - x.2) 0))

/-- Stage 3 takes its next NAND page: the data dies take turns, each filling its planned blocks in order; with the plan used up the
least-worn erased block follows (R96, R153). -/
def Dev.landPage (d : Dev) (t : Nat) : Dev × Option Nat :=
  let f := d.fl t
  let ready (die : Nat) : Bool := decide ((tget f.dieOpen (0, 0) die).2 ≠ 0) || f.plan.any fun n => dieOf n == die
  let dies := d.dataDies t
  match ((dies.filter fun x => decide (f.stripe < x)) ++ dies.filter fun x => decide (x ≤ f.stripe)).find? ready with
  | some die => d.landOn t die
  | none => match d.leastWorn t dies with
    | some n => (d.onFl t fun f => { f with plan := f.plan ++ [n] }).landOn t (dieOf n)
    | none => (d, none)

/-- The next NAND page of a stream; none where no erased block is left (R137, R152). -/
def Dev.takePage (d : Dev) (t k : Nat) : Dev × Option Nat :=
  if k = 4 then d.landPage t
  else
    let d := if (d.stream t k).left = 0 then d.openFor t k else d
    let s := d.stream t k
    if s.left = 0 then (d, none)
    else (d.onFlow t k fun s => { s with left := s.left - 1 }, some (flashAddr s.block (d.flowPages k - s.left) 0))

/-- Records that are no page records enter the log of a tile. -/
def Dev.putMetas (d : Dev) (t : Nat) (ms : List MetaRec) : Dev :=
  d.onFl t fun f => { f with metas := ms.foldl (fun l m => { m with time := if m.time = 0 then d.now else m.time, openSeq := d.openSeq t, test := d.sealing.test } :: l) f.metas }

/-- The slots of a header page that hold `n` elided headers, 16 to a slot, with their counts (R140). -/
def hdrSlots (addr n : Nat) : List MetaRec :=
  (List.range ((n + 15) / 16)).map fun i => { rtype := 5, index := min 16 (n - 16 * i), addr := addr + 4294967296 * i }

/-- Filler records in the slots from `a` on of a NAND page (R137). -/
def fillers (addr a : Nat) : List MetaRec := (List.range (4 - a)).map fun i => { rtype := 2, addr := addr + 4294967296 * (a + i) }

/-- The NAND page `a` that a stream gathers is programmed as it stands: its unused slots carry filler records (R137, R140). -/
def Dev.closePage (d : Dev) (t k a : Nat) : Dev :=
  let s := d.stream t k
  if s.fillAddr = a ∧ s.fillSlots % 4 ≠ 0 then
    ((d.putMetas t (fillers a s.fillSlots)).zoneUse t k (4 - s.fillSlots)).onFlow t k fun s => { s with fillSlots := 0 }
  else if s.hdrAddr = a ∧ s.hdrCount % 64 ≠ 0 then
    let n := (s.hdrCount + 15) / 16
    ((d.putMetas t (hdrSlots a s.hdrCount ++ fillers a n)).zoneUse t k (4 - n)).onFlow t k fun s => { s with hdrCount := 0 }
  else d

/-- Whatever pages a stream gathers are programmed as they stand (R137). -/
def Dev.closeStream (d : Dev) (t k : Nat) : Dev :=
  let d := d.closePage t k (d.stream t k).fillAddr
  d.closePage t k (d.stream t k).hdrAddr

/-- A slot of a stream for one record: a data record takes a slot of its own, an elided one the next of 16 headers of a header-page
slot (R137, R140). Its flash address and header index; none where no erased block is left. -/
def Dev.drawSlot (d : Dev) (t k : Nat) (elided : Bool) : Dev × Option (Nat × Nat) :=
  let s := d.stream t k
  if elided then
    if s.hdrCount % 64 ≠ 0 then
      let d := if s.hdrCount % 16 = 0 then d.zoneUse t k 1 else d
      let d := d.onFlow t k fun s => { s with hdrCount := s.hdrCount + 1 }
      let d := if s.hdrCount + 1 = 64 then d.putMetas t (hdrSlots s.hdrAddr 64) else d
      (d, some (s.hdrAddr + 4294967296 * (s.hdrCount / 16), s.hdrCount % 16))
    else
      let x := d.takePage t k
      match x.2 with
      | none => (x.1, none)
      | some a => ((x.1.zoneUse t k 1).onFlow t k fun s => { s with hdrAddr := a, hdrCount := 1 }, some (a, 0))
  else if s.fillSlots % 4 ≠ 0 then
    ((d.zoneUse t k 1).onFlow t k fun s => { s with fillSlots := s.fillSlots + 1 }, some (s.fillAddr + 4294967296 * s.fillSlots, 0))
  else
    let x := d.takePage t k
    match x.2 with
    | none => (x.1, none)
    | some a => ((x.1.zoneUse t k 1).onFlow t k fun s => { s with fillAddr := a, fillSlots := 1 }, some (a, 0))

/-! ### Metadata records (R141, R153, R164) -/

/-- The newest metadata record of a kind and index on a tile. -/
def Dev.metaAt (d : Dev) (t kind index : Nat) : Option MetaRec :=
  (d.fl t).metas.find? fun m => m.rtype == 3 && m.mkind == kind && m.index == index

/-- The flash address of the newest metadata record of a kind and index; 0 where none is written. -/
def Dev.metaAddr (d : Dev) (t kind index : Nat) : Nat := ((d.metaAt t kind index).map fun m => m.addr).getD 0

/-- A metadata record or a stratum marker is programmed in a slot of the metadata stream (R141, R155, R162). -/
def Dev.metaOne (d : Dev) (t : Nat) (m : MetaRec) : Dev :=
  let x := d.drawSlot t 3 false
  match x.2 with
  | none => x.1
  | some a => x.1.putMetas t [{ m with addr := a.1 }]

/-- Metadata records of one kind are programmed on a tile: index and structure of each (R141). -/
def Dev.metaPut (d : Dev) (t kind : Nat) (l : List (Nat × List (Nat × Nat))) : Dev :=
  (l.foldl (fun d x => d.metaOne t { rtype := 3, mkind := kind, index := x.1, body := x.2 }) d).closeStream t 3

/-- A list cut into runs of `n`, with their numbers. -/
def runs {α : Type} (n : Nat) (l : List α) : List (Nat × List α) :=
  (List.range ((l.length + n - 1) / n)).map fun i => (i, (l.drop (n * i)).take n)

/-- The stage 2 metadata are programmed in the reservation blocks in round-robin order of NAND pages (R85, R153). -/
def Dev.resvPut (d : Dev) (t : Nat) (ms : List MetaRec) : Dev :=
  let f := d.fl t
  let n := f.resv.length
  let at_ (i : Nat) : Nat := flashAddr (f.resv.getD (i / 4 % n) 0) (i / 4 / n) (i % 4)
  let pad := (List.range ((4 - ms.length % 4) % 4)).map fun _ => ({ rtype := 2 } : MetaRec)
  let all := ms ++ pad
  let d := d.putMetas t ((List.range all.length).map fun i => { (all.getD i {} : MetaRec) with addr := at_ i })
  (f.resv.take ((all.length + 3) / 4)).foldl (fun d b => d.onBlk t b fun x => { x with state := 2, progTime := d.now }) d

/-- The reservation holds one erased block on each channel: what a seal has used is replaced from the zone (R151). -/
def Dev.resvFill (d : Dev) (t : Nat) : Dev :=
  let ok (b : Nat) : Bool := (d.blk t b).state == 0 && !((d.fl t).diesRetired.contains (dieOf b))
  let d := d.onFl t fun f => { f with resv := f.resv.filter ok }
  (List.range 16).foldl (fun d ch =>
    if (d.fl t).resv.any fun b => b % 16 == ch then d
    else match d.leastWorn t ((d.dataDies t).filter fun die => die % 16 == ch) with
      | some n => d.onFl t fun f => { f with resv := f.resv ++ [n], zone := f.zone - d.blkRecs }
      | none => d) d

end Sys2Proof.Machine
end

