-- ==== Sys2Proof/Machine/Records.lean ====
section
/-! DEFINITION. The structures of contexts, keys, rings and metering, and their metadata records in Strata (R141, R173, R181, R185,
R206, R209, R211, R252). -/

namespace Sys2Proof.Machine

/-! ### The context table (R173) -/

/-- The strata of a context, newest first. -/
def Dev.strataOf (d : Dev) (c : Nat) : List Stratum := d.strata.strata.filter fun s => s.context == c

/-- The 64-byte entry of the context table (R173). -/
def Dev.ctxEntry (d : Dev) (c : Nat) : List Byte :=
  let x := d.ctx c
  let ss := d.strataOf c
  withCrc (fields [(1, x.state), (1, x.owner), (1, x.gen), (1, bit x.keyLost + 2 * bit x.allowDamaged + 4 * bit x.dcPending),
    (2, x.retainCount), (2, (d.ctxGrans c).length), (4, x.retainAge), (4, 0), (8, x.tState), (8, maxBy ss 0 fun s => s.time),
    (8, x.tSRb), (8, x.tR), (2, ss.length), (10, 0)])

/-- The tile whose Strata holds the package's metadata: the lead's, or the first in service where that one is isolated. -/
def Dev.metaTile (d : Dev) : Nat := if (d.tile d.pkg.lead).isolated then (d.inSvc.head?).getD d.pkg.lead else d.pkg.lead

/-- A change of a context's entry goes to Strata: a metadata record of 64 entries (R173). -/
def Dev.ctxSave (d : Dev) (c : Nat) : Dev :=
  let r := c / 64
  d.metaPut d.metaTile 0x0B [(r, (List.range 64).map fun i => (64, leNat (d.ctxEntry (64 * r + i))))]

/-- A context changes its state, and its entry goes to Strata (R173). -/
def Dev.ctxTo (d : Dev) (c st : Nat) : Dev := (d.ctxState c st).ctxSave c

/-- A change of the Region Table goes to Strata: a metadata record of 512 entries of 8 bytes (R31, R116, R141, R150). -/
def Dev.rtSave (d : Dev) (g : Nat) : Dev :=
  let r := g / 512
  d.metaPut d.metaTile 0x0A [(r, (List.range 512).map fun i => (8, d.rtWord (512 * r + i)))]

/-! ### Wrapped keys (R181) -/

/-- The 128-byte wrapped-key record of a context on a tile (R181). -/
def Dev.keyRec (d : Dev) (t c : Nat) : List Byte :=
  let x := d.ctx c
  withCrc (fields [(40, x.key1W), (40, x.key2W), (1, x.gen), (1, bit (mbit x.keyValid t)), (42, 0)])

/-- The wrapped keys of a context go to a tile's metadata: a record of 32 (R181). -/
def Dev.keySave (d : Dev) (t c : Nat) : Dev :=
  let r := c / 32
  d.metaPut t 0x0C [(r, (List.range 32).map fun i => (128, leNat (d.keyRec t (32 * r + i))))]

/-- The DRBG draws a context's two keys, and their wrapped form goes to every tile's reserve area and Strata (R181); what the wrapped form
is the spec leaves to the device's secret, so it is a free value. -/
def Dev.keyDraw (d : Dev) (c : Nat) : Dev :=
  let n := d.freeN
  let d := (d.onCtx c fun x => { x with
    key1W := Config.freeValue n % 2 ^ 320, key2W := Config.freeValue (n + 1) % 2 ^ 320, keyValid := 0xFF, keyMeta := true }).tick.tick
  d.inSvc.foldl (fun d t => d.keySave t c) d

/-! ### Rings (R185, R206) -/

/-- The 128 bytes of a ring descriptor (R185). -/
def Ring.bytes (r : Ring) : List Byte :=
  withCrc (fields [(8, r.sqBase), (8, r.cqBase), (1, r.sizeLog2), (1, r.state), (2, r.vector), (2, r.coalCount), (2, r.coalTime),
    (2, r.sqHead), (2, r.sqTail), (2, r.cqTail), (2, r.cqHead), (1, bit r.phase), (1, r.err),
    (2, (r.entries.filter fun e => e.started).length), (4, 0), (8, r.tConfig), (8, r.completed), (68, 0)])

/-- A ring's configured fields, bytes 0 to 23 and 40 to 47 of its descriptor (R185). -/
def Ring.config (r : Ring) : Ring :=
  { sqBase := r.sqBase, cqBase := r.cqBase, sizeLog2 := r.sizeLog2, state := r.state, vector := r.vector, coalCount := r.coalCount
    coalTime := r.coalTime, tConfig := r.tConfig }

/-- A ring's configuration goes to Strata on the tile that holds its descriptor: a record of 32 rings (R185). -/
def Dev.ringSave (d : Dev) (c k : Nat) : Dev :=
  let r := c * 2 + k / 32
  d.metaPut (c % 8) 0x0D [(r, (List.range 32).map fun i => (128, leNat (d.ring c (32 * (k / 32) + i)).config.bytes))]

/-- A 32-byte work-state entry (R206). -/
def workEntry (ctx ring kind : Nat) (body : List (Nat × Nat)) : Nat × Nat :=
  let b := fields ([(2, ctx), (1, ring), (1, kind)] ++ body)
  (32, leNat (withCrc (b ++ List.replicate (28 - b.length) 0)))

/-- The work-state entries of a ring: its pointers, and each entry fetched (R206). -/
def Ring.work (c k : Nat) (r : Ring) : List (Nat × Nat) :=
  workEntry c k 1 [(2, r.sqHead), (2, r.cqTail), (1, bit r.phase), (1, r.state)]
    :: r.entries.map fun e =>
      if e.started then workEntry c k 2 [(2, e.cid), (1, e.opc.toNat), (1, e.flags.toNat), (8, e.arg0), (4, e.arg1), (8, e.submit)]
      else workEntry c k 3 [(2, e.cid), (1, e.opc.toNat)]

/-- The work state that a tile persists in stage 2: the rings it holds, and each steering entry in MIGRATE, STEERED, DUAL or DEGRADED
(R206, R252). -/
def Dev.workState (d : Dev) (t : Nat) : List (Nat × Nat) :=
  ((d.ctxs.tbl.filter fun c => c.1 % 8 == t).flatMap fun c => (c.2.rings.filter fun r => r.2.state != 0).flatMap fun r => Ring.work c.1 r.1 r.2)
    ++ ((List.range 16).filter fun e => [1, 2, 3, 4].contains (d.steer t e).state).map fun e =>
        workEntry 0xFFFE 0 (16 + e) [(8, d.steerBits t e), (8, (d.steer t e).changed), (8, 0)]

/-! ### Metering (R209, R211) -/

/-- The 64 bytes of a metering record (R209). -/
def MeterRec.bytes (m : MeterRec) : List Byte :=
  withCrc (fields [(2, m.context), (2, m.flags.toNat), (4, m.duration), (8, m.start), (8, m.written), (8, m.durable), (4, m.fences),
    (2, m.ckpts), (2, m.rollbacks), (8, m.retained), (8, m.expoPms), (4, m.mark)])

/-- The completed records not yet in Strata of the contexts that a tile meters, in context order, each context's oldest first (R209,
R211). -/
def Dev.meterTail (d : Dev) (t : Nat) : List (Nat × Nat) :=
  (d.ctxs.tbl.filter fun c => c.1 % 8 == t).flatMap fun c =>
    ((c.2.records.take c.2.unwritten).reverse).map fun m => (64, leNat m.bytes)

/-- A tile's completed records go to Strata, 64 to a metadata record (R211). -/
def Dev.meterSave (d : Dev) (t : Nat) : Dev :=
  let rs := runs 64 (d.meterTail t)
  let n := (d.fl t).meterNext
  let d := d.metaPut t 0x05 (rs.map fun r => ((n + r.1) % 2 ^ 25, r.2))
  let d := d.onFl t fun f => { f with meterNext := (n + rs.length) % 2 ^ 25 }
  d.onCtxs fun x => { x with tbl := x.tbl.map fun c => if c.1 % 8 = t then (c.1, { c.2 with unwritten := 0 }) else c }

end Sys2Proof.Machine
end

