-- ==== Sys2Proof/Machine/Trickle.lean ====
section
/-! DEFINITION. Page records: capture, landing and what a durable record changes (R42, R44, R137 to R148, R151, R152, R168,
R181 to R183, R192), in trickle and in seal stage 3. -/

namespace Sys2Proof.Machine

/-! ### Keys (R181 to R183) -/

/-- The key of a context is lost on a tile and in Strata: the context is DISABLED with KEY_LOST, and every page of it with no
clean copy in DRAM reads as poison (R183). The pages that were dirty leave exposure; entries that its rings hold complete with
KEY_LOST as they start or end (R191). -/
def Dev.keyLost (d : Dev) (t c : Nat) : Dev :=
  let d := (d.onCtx c fun x => { x with keyLost := true, rings := x.rings.map fun r => (r.1, { r.2 with state := 3 })
                                        rebuild := 0, tR := 0, tSRb := 0, allowDamaged := false }).ctxTo c 3
  let d := d.raise (tsrc t 44) 0x83 3 (ctx := c) (detail := [c])
  let ps := (d.expo.dirty.filter fun x => d.pageCtx x.page == some c).map fun x => x.page
  let d := ps.foldl (fun d p => d.pagePoison p 1) d
  let d := d.onCtxs fun x => { x with rollback := x.rollback.filter fun p => d.pageCtx p != some c }
  (d.cleanPages fun p => d.pageCtx p == some c).revDone fun p => d.pageCtx p == some c

/-- The transcoder uses the key of a context on a tile: a miss unwraps it from the reserve copy; `err` 1 says that the reserve
copy fails and Strata's is taken, 2 that both fail (R182, R183). -/
def Dev.useKey (d : Dev) (t c err : Nat) : Dev :=
  let l := tget d.ctxs.keyCache [] t
  let d := d.onCtxs fun x => { x with keyCache := tset x.keyCache t ((c :: l.filter fun k => k != c).take 1024) }
  if l.contains c then d else if err = 2 ∧ !(d.ctx c).keyLost then d.keyLost t c else d

/-! ### Capture (R42, R139, R145) -/

/-- The next VSEQ of a page: that of its current record, whose high bits its header holds, plus 1; a page with no record takes 1
(R145). -/
def Dev.nextVseq (d : Dev) (p : Nat) : Nat :=
  match d.curRec p with
  | some r => r.vseq % 2 ^ 40 + 1
  | none => (d.loc p).vseqLo + 1

/-- Every 64-bit word of a page image is the same (R139). -/
def uniform (img : Mem) (base : Nat) : Bool :=
  let w (i : Nat) : List Byte := Mem.bytes img (base + 8 * i) 8
  (List.range 512).all fun i => w i == w 0

/-- The poisoned lines of a page, numbered 0 to 63. -/
def Dev.poisonMask (d : Dev) (p : Nat) : List Nat := (List.range 64).filter fun i => d.poisoned (p * 64 + i)

/-- A capture of a tile is in the NAND page `a`. -/
def Dev.inPage (d : Dev) (t a : Nat) (f : InFlight) : Bool := npOf f.addr == a && d.pageTile f.page == t

/-- The program of the NAND page `a` is issued, with filler in its unused slots (R97, R137, R140). -/
def Dev.issue (d : Dev) (t a : Nat) : Dev :=
  let d := (d.closePage t 0 a).closePage t 4 a
  d.onExpo fun e => { e with inflight := e.inflight.map fun f => if d.inPage t a f then { f with issued := true } else f }

/-- A page is copied to staging and entered in the in-flight table, with a slot for its record (R42, R137, R139, R140, R145); a NAND page
that it fills is issued. With no slot left nothing is taken. -/
def Dev.capture (d : Dev) (t p : Nat) (atSeal fence : Bool) : Dev :=
  let k := if atSeal then 4 else 0
  let img := Mem.slice d.mem (pageBase p) 4096
  let el := uniform img (pageBase p)
  let v := d.nextVseq p
  let mask := d.poisonMask p
  let x := d.drawSlot t k el
  match x.2 with
  | none => x.1
  | some a =>
    let f : InFlight :=
      { page := p, img := img, pmask := mask, vseq := v, time := d.now, elided := el, addr := a.1, hidx := a.2, atSeal := atSeal
        fence := fence, test := atSeal && d.sealing.test }
    let d := x.1.onExpo fun e => { e with inflight := e.inflight ++ [f] }
    let s := d.stream t k
    if (if el then s.hdrCount % 64 else s.fillSlots % 4) = 0 then d.issue t (npOf a.1) else d

/-- Whether a page has a capture in flight. -/
def Dev.flying (d : Dev) (p : Nat) : Bool := d.expo.inflight.any fun f => f.page == p

/-- Every entry of every ring of every context. -/
def Dev.mapEntries (d : Dev) (f : RingEntry → RingEntry) : Dev :=
  d.onCtxs fun x => { x with tbl := x.tbl.map fun c =>
    (c.1, { c.2 with rings := c.2.rings.map fun r => (r.1, { r.2 with entries := r.2.entries.map f }) }) }

/-- Entries that wait for a page take its record when it is durable: a record of the submission's contents or later (R192). -/
def Dev.fenceRecord (d : Dev) (p v : Nat) : Dev :=
  let hit (w : Nat × Nat) : Bool := w.1 == p && decide (w.2 ≤ v)
  d.mapEntries fun e => if e.waits.any hit then { e with waits := e.waits.filter fun w => !hit w, lastDurable := d.now } else e

/-- The pages that some started FENCE or CHECKPOINT names (R168). -/
def Dev.fencePages (d : Dev) : List Nat :=
  (d.ctxs.tbl.flatMap fun c => c.2.rings.flatMap fun r => r.2.entries.flatMap fun e => e.waits.map fun w => w.1).dedup

/-- A record becomes its page's current one: it enters Strata, the locator and, outside stage 3, the tail (R145, R146, R148),
and is counted (R167, R209). -/
def Dev.putRec (d : Dev) (t : Nat) (r : PageRec) : Dev :=
  let d := d.onStrata fun s => { s with
    recs := r :: s.recs
    loc := { page := r.page, kind := if r.elided then 2 else 1, vseqLo := r.vseq % 8388608, addr := r.addr, hidx := r.hidx
             poison := false } :: s.loc.filter fun l => l.page != r.page
    landedH := s.landedH + 4096 }
  let d := d.onFl t fun f => { f with
    landedBytes := if r.atSeal then f.landedBytes else f.landedBytes + 4096
    tail := if r.atSeal then f.tail else f.tail ++ [r.page] }
  d.onMeter r.context fun m => { m with durable := m.durable + 4096 }

/-- The record of a captured page: DCRC over the page in plain form; of an elided one the encrypted pattern, which is a free value
(R138, R139). -/
def Dev.recOf (d : Dev) (t : Nat) (f : InFlight) : PageRec :=
  let c := (d.pageCtx f.page).getD 0
  let gen := (d.ctx c).gen
  { page := f.page, context := c, gen := gen, vseq := f.vseq, time := f.time, elided := f.elided, img := f.img, pmask := f.pmask
    atSeal := f.atSeal, fence := f.fence, test := f.test, openSeq := d.openSeq t, addr := f.addr, hidx := f.hidx
    dcrc := crc32c (Mem.bytes f.img (pageBase f.page) 4096)
    patternCt := if f.elided then Config.xtsPattern (put 0 14 c + put 14 2 gen) (tweakOf f.page f.vseq)
      (leNat (Mem.bytes f.img (pageBase f.page) 8)) % 2 ^ 128 else 0 }

/-- A capture completes: its record is durable, and the page's dirty bit clears unless it was rewritten; a capture whose page
was trimmed meanwhile is discarded (R42, R146). -/
def Dev.recordDone (d : Dev) (t : Nat) (f : InFlight) : Dev :=
  let d := d.onExpo fun e => { e with inflight := e.inflight.filter fun x => x.page != f.page }
  let r := d.recOf t f
  if !(d.persistent f.page) ∨ !(d.notTrimmed r) then d
  else
    let d := d.putRec t r
    let d := if f.rewrite then d else d.cleanPages fun p => p == f.page
    let d := d.fenceRecord f.page f.vseq
    if f.atSeal then
      d.onSealing fun s => { s with
        landed := s.landed + 1, landedT := tmod s.landedT 0 t fun n => n + 1
        rec_ := { s.rec_ with
          p1Landed := s.rec_.p1Landed + (if d.pageCls f.page = 1 then 1 else 0)
          p2Landed := s.rec_.p2Landed + (if d.pageCls f.page = 2 then 1 else 0)
          elided := s.rec_.elided + (if r.elided then 1 else 0) } }
    else d

/-! ### Which page is taken -/

/-- The dirty pages of a tile that may be taken: not in flight, and, outside a seal, not of a context whose rollback awaits its switch (R86,
R197). -/
def Dev.takeable (d : Dev) (t : Nat) : List DirtyPage :=
  let rolling (c : Nat) : Bool := !d.sealing.active && (d.ctx c).rings.any fun r => r.2.entries.any fun e => e.started && e.opc == 3
  d.expo.dirty.filter fun x => d.pageTile x.page == t && !(d.flying x.page) && (match d.pageCtx x.page with
    | some c => !(rolling c)
    | none => false)

/-- First in the order of R44: P1 pages, oldest dirty first, then P2 pages. -/
def Dev.oldest (d : Dev) (l : List DirtyPage) : Option DirtyPage :=
  match argMin (l.filter fun x => d.pageCls x.page == 1) fun x => x.since with
  | some x => some x
  | none => argMin l fun x => x.since

/-- With the armed set full, pages of the armed group with the fewest dirty pages (R50). -/
def Dev.fewestGroup (d : Dev) (l : List DirtyPage) : List DirtyPage :=
  match argMin (l.map fun x => pageGroup x.page) fun g => d.expo.dirty.countP fun x => pageGroup x.page == g with
  | some g => l.filter fun x => pageGroup x.page == g
  | none => []

/-- The page that trickle takes next on a tile: of the group with the fewest dirty pages while the armed set is full (R50); else pages a
fence names first (R168), then the order of R44; in GREEN others are taken only above a quarter of the tile ceiling, or when dirty for
300 s (R168), or for a pre-drain (R71). -/
def Dev.tricklePick (d : Dev) (t : Nat) : Option (DirtyPage × Bool) :=
  let l := d.takeable t
  if d.expo.armFull.contains t then (d.oldest (d.fewestGroup l)).map fun x => (x, false)
  else
    let fp := d.fencePages
    match d.oldest (l.filter fun x => fp.contains x.page) with
    | some x => some (x, true)
    | none =>
      let drain : Bool := match d.expo.gov.preDrain with | some g => decide (g < d.xPkg) | none => false
      let l := if tget d.expo.gov.tileState 0 t ≠ 0 ∨ drain then l
        else if tget d.expo.gov.tileCeil 0 t < 4 * d.xTile t then l
        else l.filter fun x => decide (300000000000 ≤ d.since x.since)
      (d.oldest l).map fun x => (x, false)

/-! ### The trickle rate (R39, R64, R167 to R169, R279, R296) -/

/-- A tile's share of the package budget rate, bytes per second: in proportion to its exposure, equally when there is none (R167). -/
def Dev.budgetShare (d : Dev) (t : Nat) : Nat :=
  if d.xPkg = 0 then d.strata.rate / max 1 d.inSvc.length else d.strata.rate * d.xTile t / d.xPkg

/-- The wear budget holds a tile's trickle to its share: in GREEN; from AMBER to BLACK without borrowing, with the borrow account spent, or
while a forced rest caps trickle; never in LAPSE (R39, R64, R169, R279). -/
def Dev.budgetBinds (d : Dev) (t : Nat) : Bool :=
  let g := tget d.expo.gov.tileState 0 t
  g != 4 && (g == 0 || d.energy.restCap || !(d.expo.policy.borrowEn && decide (d.strata.borrow < d.strata.bDay)))

/-- The thermal cap on a tile's trickle and background programs, bytes per second; none at T0 (R296). -/
def Dev.trickleCap (d : Dev) (t : Nat) : Option Nat :=
  match (d.tile t).throttle with
  | 0 => none
  | 1 => some 8000000000
  | 2 => some 4000000000
  | _ => some 2000000000

/-- The thermal cap leaves room for a further program of a tile (R39, R296). -/
def Dev.capMay (d : Dev) (t : Nat) : Bool := (d.trickleCap t).isNone || decide ((d.fl t).capDue ≤ d.now)

/-- Bytes are programmed under the thermal cap: the next program waits until the cap has let them pass (R296). -/
def Dev.capUse (d : Dev) (t bytes : Nat) : Dev :=
  match d.trickleCap t with
  | none => d
  | some r => d.onFl t fun f => { f with capDue := max f.capDue d.now + (bytes * 1000000000 + r - 1) / r }

/-- The least of the limits on the trickle rate lets a tile take its next page now (R39). -/
def Dev.rateMay (d : Dev) (t : Nat) : Bool :=
  d.capMay t && (!d.budgetBinds t || (decide (0 < d.budgetShare t) && decide ((d.fl t).budgetDue ≤ d.now)))

/-- A page is taken: while the budget binds, the next one waits until the tile's share has let it pass; what trickle lands beyond the rate
otherwise is borrowed (R168, R169). -/
def Dev.rateUse (d : Dev) (t : Nat) (elided : Bool) : Dev :=
  let r := d.budgetShare t
  let due := if d.budgetBinds t then max (d.fl t).budgetDue d.now + (4096000000000 + r - 1) / r else d.now
  (d.onFl t fun f => { f with budgetDue := due }).capUse t (if elided then 256 else 4096)

/-- Trickle may take a page on a tile: in service, not in the safe state, no seal begun, room in the in-flight table, the tail
and the zone (R42, R82, R148, R152, R318). -/
def Dev.trickleMay (d : Dev) (t : Nat) : Bool :=
  d.restore.ready && decide (d.pkg.safe = 0) && !d.sealing.active && !(d.tile t).isolated
    && decide ((d.expo.inflight.countP fun f => d.pageTile f.page == t) < 65536)
    && decide ((d.fl t).tail.length + ((d.fl t).ckptRun.getD []).length < 2097152) && decide (0 < (d.fl t).zone)

/-- The safe state holds a tile's flash, but for a seal that runs past its stage 1, for which each tile lifts the hold (R318,
R319). -/
def Dev.flashHeld (d : Dev) : Bool :=
  d.pkg.safe == 2 || (d.pkg.safe == 1 && !(d.sealing.active && !d.sealing.test && decide (2 ≤ d.sealing.stage)))

/-! ### Landing in stage 3 (R86, R97) -/

/-- The stage of a tile in the seal. -/
def Dev.tileStage (d : Dev) (t : Nat) : Nat := tget d.sealing.tileStage 0 t

/-- A program of a tile has been issued and has not ended. -/
def Dev.programming (d : Dev) (t : Nat) : Bool := d.expo.inflight.any fun f => d.pageTile f.page == t && f.issued

/-- Stage 3 copies pages to staging in the order of R86, until a NAND page is issued or nothing more can be taken. -/
def Dev.stagePages (d : Dev) (t : Nat) : Nat → Dev
  | 0 => d
  | n + 1 => match d.oldest (d.takeable t) with
    | none => d
    | some x => if (d.fl t).zone = 0 ∨ d.programming t then d else Dev.stagePages (d.capture t x.page true false) t n

/-- Stage 3 of a tile takes its next pages while no program of it runs; when nothing more is left to take, what is staged is issued. A
landing zone with no slot left ends the landing (R86, R96, R97, R153). A test seal with nothing left to land lands filler up to FILL_GIB
(R104). -/
def Dev.landNext (d : Dev) (t : Nat) : Dev :=
  if d.tileStage t ≠ 3 ∨ d.programming t ∨ d.sealing.stopped ∨ mbit d.sealing.noLand t then d
  else
    let d := match d.expo.inflight.find? fun f => d.pageTile f.page == t && !f.atSeal with
      | some f => d.issue t (npOf f.addr)
      | none => d.stagePages t 67
    if d.programming t then d
    else match d.expo.inflight.find? fun f => d.pageTile f.page == t with
      | some f => d.issue t (npOf f.addr)
      | none =>
        if (d.takeable t).isEmpty then
          if d.sealing.test ∧ d.sealing.landed + d.sealing.fillPages < d.sealing.fillGib * 262144 ∧ (d.fl t).zone ≠ 0 then
            let x := d.drawSlot t 4 false
            (x.1.putMetas t [{ rtype := 2, addr := (x.2.getD (0, 0)).1 }]).onSealing fun s => { s with fillPages := s.fillPages + 1 }
          else d
        else d.onSealing fun s => { s with noLand := mset s.noLand t }

/-- Lines of a tile's dirty pages that the copying to staging finds uncorrectable in stage 3: (line, devices seen failing) (R225, R226). -/
def Dev.landUe (d : Dev) (t : Nat) (ue : List (Nat × Nat)) : Dev :=
  ue.foldl (fun d x =>
    if d.tileStage t = 3 && d.pageTile (linePage x.1) == t && d.isDirty (linePage x.1) && !d.poisoned x.1 then (d.lineUe x.1 x.2).1 else d) d

/-- PAGE_RECORD_DURABLE: the NAND page that holds the oldest capture of a tile is programmed: every record in it becomes durable (R42, R50,
R86, R137, R140, R146). In stage 3 the next pages are copied to staging, `ue` the lines that these reads find uncorrectable (R225). -/
def execPageRecordDurable (t : Fin 8) (ue : List (Nat × Nat)) (dt : Nat) (s : State) : Res := s.run fun d =>
  let d := d.elapse dt
  if d.flashHeld ∨ (d.tile t.val).isolated then d
  else
    let d := match d.expo.inflight.find? fun f => d.pageTile f.page == t.val && (f.issued || !d.sealing.stopped) with
      | none => d
      | some f =>
        let d := d.issue t.val (npOf f.addr)
        (d.expo.inflight.filter (d.inPage t.val (npOf f.addr))).foldl (fun d f => d.recordDone t.val f) d
    let d := (d.earlyDisarm t.val 1048576).armFullCheck t.val
    (d.landUe t.val ue).landNext t.val

end Sys2Proof.Machine
end

