-- ==== Sys2Proof/Machine/Contexts.lean ====
section
/-! DEFINITION. Region Table changes, dynamic capacity, sanitize, strata of a context and minute metering (chapters 01, 05,
06). -/

namespace Sys2Proof.Machine

/-! ### Streams that end (R387) -/

/-- What a stream keeps once it is STOPPED (R387). -/
def streamEnd (s : Stream) : Stream := { s with state := 4, bits := [], flying := [], round := [], marks := [], sentMarks := [] }

/-- An outgoing replica stream is STOPPED, and its target told (R387). -/
def Dev.stopStream (d : Dev) (s : Stream) : Dev :=
  (d.onLat fun x => { x with streams := x.streams.map fun t => if t.outgoing ∧ t.session = s.session then streamEnd t else t }).sendMsg
    s.uid 7 2 [5, s.session, 0, 0]

/-- Every outgoing replica stream of a context is STOPPED (R387). -/
def Dev.stopStreams (d : Dev) (c : Nat) : Dev :=
  (d.lat.streams.filter fun t => t.local_ == c && t.outgoing && !t.migration && t.state != 4).foldl Dev.stopStream d

/-! ### Trims and zeroing (R45, R163, R177) -/

/-- The tiles that hold part of a granule. -/
def Dev.granTiles (d : Dev) (g : Nat) : List Nat := tiles8.filter fun t => d.granOn g t

/-- The tiles in service that hold pages of a context. -/
def Dev.ctxTiles (d : Dev) (c : Nat) : List Nat :=
  d.inSvc.filter fun t => (d.ctxGrans c).any fun g => d.granOn g t

/-- Disarm every armed group that satisfies `f` (R45, R49). -/
def Dev.disarmIf (d : Dev) (f : Nat → Bool) : Dev :=
  d.onExpo fun e =>
    { e with
      disarmQ := e.disarmQ ++ ((e.armed.filter fun g => f g.group).map fun g => (g.group, d.now))
      armed := e.armed.filter fun g => !f g.group }

/-- The locator entries of the pages that `f` picks clear, each change entering its tile's tail (R146, R148). -/
def Dev.clearLoc (d : Dev) (f : Nat → Bool) : Dev :=
  let ps := (d.strata.loc.filter fun l => f l.page).map fun l => l.page
  let d := d.onStrata fun s => { s with loc := s.loc.filter fun l => !f l.page }
  ((ps.map d.pageTile).dedup).foldl (fun d t => d.onFl t fun x => { x with tail := x.tail ++ ps.filter fun p => d.pageTile p == t }) d

/-- A granule TRIM: every record of the granule dies, its locator entries clear, its dirty pages leave exposure, its groups
are disarmed (R45, R163, R178). -/
def Dev.trimGranule (d : Dev) (c g : Nat) : Dev :=
  let d := d.ledgerAll ((d.granTiles g).filter fun t => !(d.tile t).isolated) 0x12 c 1 g
  let d := d.onStrata fun s => { s with trims := { context := c, granule := some g, time := d.now } :: s.trims }
  let d := d.clearLoc fun p => pageGran p == g
  (d.cleanPages fun p => pageGran p == g).disarmIf fun x => x / 512 == g

/-- Zero to every line of a granule: contents, poison, dirty bits and locator entries clear, and its pages hold their final
content (R45, R121, R177). -/
def Dev.zeroGranule (d : Dev) (g : Nat) : Dev :=
  let d := d.onMem fun m => m.clear (g * 2 ^ 30) (2 ^ 30)
  let d := d.onExpo fun e => { e with poisonLines := e.poisonLines.filter fun l => pageGran (linePage l) != g }
  let d := [0, 1].foldl (fun d h => d.onHead h fun x => { x with poison := cutPoison (g * 2 ^ 30) (2 ^ 30) x.poison }) d
  let d := d.clearLoc fun p => pageGran p == g
  let d := (d.granTiles g).foldl (fun d t =>
    if d.grainLog = 30 then d.markRange (t * 2 ^ 40 + g / 8 * 262144) 262144 else d.markRange (t * 2 ^ 40 + g * 32768) 32768) d
  (d.cleanPages fun p => pageGran p == g).fetchDone (g * 262144)

/-! ### Dynamic capacity (R176 to R178, R180) -/

/-- The interrupt that a head's policy asks for on an event log: a policy byte's low two bits 1 and its vector in the high four
(R430). -/
def Dev.evtIrq (d : Dev) (h log : Nat) : Dev :=
  let p := (d.head h).evtPolicy.toNat / 2 ^ (8 * log) % 256
  if p % 4 = 1 then d.fire h (p / 16) else d

/-- The timestamp of an event record's header (R336, R430): the host's, 0 where it has set none. -/
def Dev.hostStamp (d : Dev) (h : Nat) : Nat :=
  let x := d.head h
  if x.hostTime = 0 then 0 else x.hostTime + (d.now - x.hostTimeAt)

/-- A record in the Dynamic Capacity log of a head (R177, R178, R335): `kind` 0 Add, 1 Release, 2 forced release. -/
def Dev.dcPost (d : Dev) (h kind c : Nat) (gs : List Nat) : Dev :=
  let x := d.head h
  let e : CxlEvent := { log := 4, handle := x.nextHandle, qtime := d.now, context := c, stamp := d.hostStamp h, detail := kind :: gs }
  let d := d.onHead h fun y => { y with events := y.events ++ [e], nextHandle := y.nextHandle % 65535 + 1 }
  (d.emit (.dcEvent h (kind != 0) c gs)).evtIrq h 4

/-- Offer granules to the owning head of a context, or ask for them back; DC_PENDING is set (R173, R177, R178). -/
def Dev.dcOffer (d : Dev) (h c : Nat) (gs : List Nat) (release : Bool) (deadline : Option Nat) (by_ : Nat) : Dev :=
  let o : DcOffer := { release := release, context := c, granules := gs, deadline := deadline, by_ := by_ }
  let d := d.onHead h fun x => { x with dcOffers := x.dcOffers ++ [o] }
  ((d.onCtx c fun x => { x with dcPending := true }).ctxSave c).dcPost h (bit release) c gs

/-- DC_PENDING of a context stands while an offer or release of it awaits a host (R173). -/
def Dev.dcSettle (d : Dev) (c : Nat) : Dev :=
  let p := [0, 1].any fun h => (d.head h).dcOffers.any fun o => o.context == c
  if (d.ctx c).dcPending = p then d else (d.onCtx c fun x => { x with dcPending := p }).ctxSave c

/-- A notice of a forced release: the granules leave the host's extents and whatever awaits the host (R178). -/
def Dev.dcForced (d : Dev) (h c : Nat) (gs : List Nat) : Dev :=
  let cut (o : DcOffer) : DcOffer := if o.context = c then { o with granules := o.granules.filter fun g => !gs.contains g } else o
  ((d.onHead h fun x => { x with
    extents := x.extents.filter fun e => !gs.contains e.1
    dcOffers := (x.dcOffers.map cut).filter fun o => !o.granules.isEmpty }).dcSettle c).dcPost h 2 c gs

/-- A release of a context still waits for its host (R178). -/
def Dev.releasing (d : Dev) (c : Nat) : Bool := [0, 1].any fun h => (d.head h).dcOffers.any fun o => o.release && o.context == c

/-! ### Ring areas (R184, R187) -/

/-- `n` bytes from DPA `a` lie wholly inside granules of a context. -/
def Dev.inCtx (d : Dev) (c a n : Nat) : Bool :=
  (List.range ((a + n - 1) / 2 ^ 30 - a / 2 ^ 30 + 1)).all fun i =>
    let g := d.gran (a / 2 ^ 30 + i)
    g.valid && g.context == c

/-- DW_DB_STAT of a ring counts a change of its state or pointers (R185). -/
def ringStep (r : Ring) : Ring := { r with seq := (r.seq + 1) % 65536 }

/-- A ring enters STATE 4 with its cause, and stops fetching; of the entries fetched, those that wait for earlier ones are dropped
(R187, R190). -/
def Dev.ringError (d : Dev) (c k err : Nat) : Dev :=
  let d := d.onRing c k fun r => ringStep { r with state := 4, err := err, entries := r.entries.filter fun e => e.started || !e.flags.getLsbD 0 }
  d.raise (tsrc (c % 8) 65) 0x17 0 (ctx := c) (detail := [c, k, err])

/-- After a granule left a context, rings with an area outside it enter STATE 4, ERR 04h (R187). -/
def Dev.ringAreas (d : Dev) (c : Nat) : Dev :=
  ((d.ctx c).rings.filter fun r => r.2.state == 1 || r.2.state == 2).foldl (fun d r =>
    let n := 2 ^ r.2.sizeLog2
    if d.inCtx c r.2.sqBase (64 * n) && d.inCtx c r.2.cqBase (32 * n) then d else d.ringError c r.1 4) d

/-! ### Region Table changes (R33, R45, R177 to R180) -/

/-- Queue a change for its commit point. -/
def Dev.rtChange (d : Dev) (x : RtChange) : Dev := d.onCtxs fun c => { c with rtPend := c.rtPend ++ [x] }

/-- The context has no page left to revert: it returns to ACTIVE, or goes on quiescing; its entry names the rollback no longer (R173,
R175, R199). -/
def Dev.rollbackEnd (d : Dev) (c : Nat) : Dev :=
  if (d.ctx c).tR = 0 || (d.ctx c).rebuild != 0 || d.ctxs.rollback.any fun p => d.pageCtx p == some c then d
  else
    let d := d.onCtx c fun x => { x with tR := 0, tSRb := 0, allowDamaged := false }
    if (d.ctx c).state = 5 then (d.ctxTo c 1).raise (tsrc d.pkg.lead 70) 0x14 0 (ctx := c) (detail := [c]) else d.ctxSave c

/-- The commit of a change: one point on all tiles (R33), with what the change brings: a trim, which leaves nothing to revert (R45, R178,
R199), the offer of an extent (R177, R180), held writes released (R45), background commands that it completes. -/
def Dev.rtCommit (d : Dev) (x : RtChange) : Dev :=
  let old := d.gran x.granule
  let c := if x.entry.valid then x.entry.context else old.context
  let d := d.onCtxs fun s => { s with rtPend := s.rtPend.filter fun y => !(y.granule == x.granule) }
  let d := if x.trim then (d.trimGranule old.context x.granule).onCtxs fun s =>
    { s with rollback := s.rollback.filter fun p => pageGran p != x.granule } else d
  let d := (((d.onGran x.granule fun _ => { x.entry with isolated := old.isolated }).rtSave x.granule).ctxSave c).rollbackEnd old.context
  let d := if x.offer ≠ 0 then d.dcOffer (x.offer - 1) c [x.granule] false none 2 else d
  let d := if !x.entry.valid then
      (d.onHead (old.head - 1) fun h => { h with extents := h.extents.filter fun e => e.1 != x.granule }).ringAreas c
    else d
  let f (r : HeldReq) : HeldReq := if r.forClass ∧ pageGran (linePage r.line) = x.granule then { r with forClass := false } else r
  let d := (d.onExpo fun e => { e with held := e.held.map f }).serve
  let left := d.ctxs.rtPend.any fun y => y.entry.context == c || (d.gran y.granule).context == c
  if left then d
  else
    let d := if d.releasing c then d else d.bgEndAny 0xC412 0 fun a => a == c
    [0xC411, 0xC413, 0xC414].foldl (fun d op => d.bgEndAny op 0 fun a => a == c) d

/-- REGION_TABLE_COMMIT: the oldest change of a granule that waits for no fill reaches its commit point (R33, R45); `replBad`
says that a replica entry fails its check code and is reloaded; from stage 1 of a seal no change is made (R92). -/
def execRegionTableCommit (g : Nat) (replBad : Bool) (dt : Nat) (s : State) : Res := s.run fun d =>
  let d := d.elapse dt
  let d := if replBad then d.raise (tsrc (d.tileOf (g * 2 ^ 30)) 63) 0x83 1 else d
  match d.ctxs.rtPend.find? fun x => x.granule == g with
  | some x => if x.waitFill ∨ x.zero ∨ d.sealing.frozen then d else d.rtCommit x
  | none => d

/-- ZERO_FILL_COMPLETE: the zero fill of a granule ends: its change commits, and capacity is offered (R45, R177); not from stage 1
of a seal (R92). -/
def execZeroFillComplete (g : Nat) (dt : Nat) (s : State) : Res := s.run fun d =>
  let d := d.elapse dt
  match d.ctxs.rtPend.find? fun x => x.granule == g && (x.waitFill || x.zero) with
  | some x => if d.sealing.frozen then d else (d.zeroGranule g).rtCommit x
  | none => d

/-- A granule leaves its context: VALID clears with a TRIM at its commit point (R178). -/
def Dev.releaseGran (d : Dev) (g : Nat) : Dev :=
  d.rtChange { granule := g, entry := {}, trim := true }

/-- DC_RELEASE_TIMEOUT: releases that a host has not honoured within their timeout end with DC_TIMEOUT; the granules stay
assigned (R178). -/
def execDcReleaseTimeout (h : Fin 2) (dt : Nat) (s : State) : Res := s.run fun d =>
  let d := d.elapse dt
  let late (o : DcOffer) : Bool := o.release && (match o.deadline with
    | some t => decide (t ≤ d.now)
    | none => false)
  let dead := (d.head h.val).dcOffers.filter late
  let d := d.onHead h.val fun x => { x with dcOffers := x.dcOffers.filter fun o => !late o }
  dead.foldl (fun d o => (d.dcSettle o.context).bgEnd o.by_ 0xC412 0xE) d

/-! ### Strata of a context (R162, R194, R195) -/

/-- Release a stratum, with STRATUM release entries (R162). -/
def Dev.releaseStratum (d : Dev) (c time : Nat) : Dev :=
  let d := d.ledgerAll (d.ctxTiles c) 0x11 c 2 time
  (d.onStrata fun s => { s with strata := s.strata.filter fun x => !(x.context == c && x.time == time) }).ctxSave c

/-- The oldest stratum of a context. -/
def Dev.oldestStratum (d : Dev) (c : Nat) : Option Stratum := argMin (d.strataOf c) fun s => s.time

/-- A tile programs its part of a stratum: the STRATUM create entry, and the marker record, whose data is the tag (R162, R194). -/
def Dev.stratumOn (d : Dev) (c ts tag t : Nat) : Dev :=
  ((d.ledger t 0x11 c 1 ts).metaOne t { rtype := 4, context := c, time := ts, body := [(8, tag)] }).closeStream t 3

/-- A stratum stands once every tile has its entry; the oldest is released while the count exceeds RETAIN_COUNT (R194, R195). -/
def Dev.createStratum (d : Dev) (c ts tag : Nat) : Dev :=
  let d := d.onStrata fun s => { s with strata := { context := c, time := ts, tag := tag } :: s.strata }
  let d := (d.onMeter c fun m => { m with ckpts := m.ckpts + 1 }).ctxSave c
  if (d.ctx c).retainCount < (d.strataOf c).length then
    match d.oldestStratum c with
    | some s => d.releaseStratum c s.time
    | none => d
  else d

/-- Strata older than RETAIN_AGE are released, except the newest (R195). -/
def Dev.ageStrata (d : Dev) (c : Nat) : Dev :=
  let age := (d.ctx c).retainAge
  let newest := maxBy (d.strataOf c) 0 fun s => s.time
  if age = 0 then d
  else
    ((d.strataOf c).filter fun s => s.time != newest && decide (s.time + age * 60000000000 < d.now)).foldl
      (fun d s => d.releaseStratum c s.time) d

/-! ### Minute metering (R208 to R211) -/

/-- The first minute boundary after `t` (R208). -/
def Dev.nextBoundary (d : Dev) (t : Nat) : Nat :=
  let u : Int := if d.qtz.ofsValid then d.qtz.offset else 0
  t + (60000000000 - (((t : Int) + u) % 60000000000).toNat)

/-- MINUTE_BOUNDARY: every running record is cut, and age-based retention applied (R195, R208, R209). -/
def execMinuteBoundary (dt : Nat) (s : State) : Res := s.run fun d =>
  let d := d.elapse dt
  if d.ctxs.minuteEnd ≤ d.now ∧ d.restore.ready then
    let d := d.liveCtxs.foldl (fun d c => (d.cutMeter c 0).ageStrata c) d
    d.onCtxs fun x => { x with minuteEnd := d.nextBoundary d.now }
  else d

/-- METERING_WRITE: completed records are written to Strata on the tiles that hold them, while the device serves (R211). -/
def execMeteringWrite (dt : Nat) (s : State) : Res := s.run fun d =>
  let d := d.elapse dt
  if d.sealing.frozen ∨ d.pkg.safe ≠ 0 then d else d.inSvc.foldl Dev.meterSave d

/-! ### Sanitize (R205) -/

/-- Step 5: the final record is cut, the context is FREE and its KEYGEN advances (R205, R209). -/
def Dev.sanitizeEnd (d : Dev) (c : Nat) : Dev :=
  let d := (d.ctxState c 0).cutMeter c 0x20
  ((d.onCtx c fun x => { x with
    gen := (x.gen + 1) % 4, keyLost := false, sanStep := 0, owner := 0, rings := [], allowDamaged := false, dcPending := false
    tSRb := 0, tR := 0 }).ctxSave c).bgEndAny 0xC417 0 fun a => a == c

/-- The blocks of a tile that hold a wrapped-key record of a context older than its latest (R205). -/
def Dev.oldKeyBlocks (d : Dev) (t c : Nat) : List Nat :=
  (((d.fl t).metas.filter fun m => m.rtype == 3 && m.mkind == 0x0C && m.index == c / 32 && d.metaAt t 0x0C (c / 32) != some m).map
    fun m => blkOf m.addr).dedup

/-- Crypto-erase begins (R205 step 3): the wrapped key is destroyed on every tile and in its metadata, the key caches drop it. -/
def Dev.keyErase (d : Dev) (c : Nat) : Dev :=
  let d := d.onCtxs fun y => { y with keyCache := y.keyCache.map fun e => (e.1, e.2.filter fun k => k != c) }
  let d := d.onCtx c fun x => { x with keyValid := 0, keyMeta := false }
  d.inSvc.foldl (fun d t => d.keySave t c) d

end Sys2Proof.Machine
end

