-- ==== Sys2Proof/Machine/Strata.lean ====
section
/-! DEFINITION. Strata in service: locator checkpoints, ledger summaries, erase, bad blocks and dies, garbage collection,
compaction, refresh, wear and the Strata status registers (chapter 05). -/

namespace Sys2Proof.Machine

/-! ### Geometry and space (R135, R151, R152, R160, R164) -/

/-- Log blocks of a data die of a tile in service: those not retired (R160). -/
def Dev.dieLog (d : Dev) (t die : Nat) : Nat := d.dieBlocks - (d.fl t).blocks.countP fun b => b.2.state == 4 && dieOf b.1 == die

/-- Data dies in service of a tile. -/
def Dev.diesLeft (d : Dev) (t : Nat) : Nat := 127 - (d.fl t).diesRetired.length

/-- A block on a data die in service. -/
def Dev.liveDie (d : Dev) (t blk : Nat) : Bool := dieOf blk != ledgerDie && !((d.fl t).diesRetired.contains (dieOf blk))

/-- Log blocks of a tile in service: those of its data dies in service less the retired ones. -/
def Dev.logBlocks (d : Dev) (t : Nat) : Nat :=
  d.dieBlocks * d.diesLeft t - (d.fl t).blocks.countP fun b => b.2.state == 4 && d.liveDie t b.1

/-- Over-provisioning of a tile: 10 % of the log blocks of each die in service (R160). -/
def Dev.overProv (d : Dev) (t : Nat) : Nat := sumBy (d.dataDies t) fun die => d.dieLog t die / 10

/-- Free pSLC blocks outside the zone: emptied or half-erased ones that wait for their erase. -/
def Dev.freeOutside (d : Dev) (t : Nat) : Nat :=
  (d.fl t).blocks.countP fun b => 5 ≤ b.2.state && d.liveDie t b.1

/-- Free pSLC blocks of a tile. -/
def Dev.freeBlocks (d : Dev) (t : Nat) : Nat := (d.fl t).zone / d.blkRecs + d.freeOutside t

/-- P_t: pages of the tile's P1 and P2 granules (R152). -/
def Dev.persistPages (d : Dev) (t : Nat) : Nat :=
  sumBy (d.ctxs.rt.filter fun g => g.2.valid && (g.2.cls == 1 || g.2.cls == 2) && d.backed g.1 && d.granOn g.1 t) fun _ =>
    if d.grainLog = 30 then 262144 else 32768

/-- The zone target Z_t, in page records (R152). -/
def Dev.zoneTarget (d : Dev) (t : Nat) : Nat :=
  let e := d.expo
  let a := min (energyPages (d.landNum t) (e.gov.eAvail - e.eFixed) e.kSeal e.landRef) (min d.policyPages (d.persistPages t))
  let a := if e.policy.windowEn then min a (windowPages (d.landNum t)) else a
  min (11 * a / 10) ((d.freeBlocks t - d.overProv t) * d.blkRecs)

/-- Flash work below a seal's may run on a tile: in service, no seal, no safe state (R82, R318). -/
def Dev.flashMay (d : Dev) (t : Nat) : Bool :=
  d.restore.ready && decide (d.pkg.safe = 0) && !d.sealing.active && !(d.tile t).isolated

/-! ### Locator checkpoints (R147 to R149) -/

/-- LOCATOR_CHECKPOINT: a checkpoint starts 60 s after the previous one started, or when the tail reaches 1,048,576 entries;
it covers the entries that stand in the tail now (R147, R148); none starts or commits in a seal (R92). -/
def execLocatorCheckpoint (t : Fin 8) (dt : Nat) (s : State) : Res := s.run fun d =>
  let d := d.elapse dt
  let f := d.fl t.val
  if f.ckptRun.isNone && (decide (60000000000 ≤ d.since f.ckptAt) || decide (1048576 ≤ f.tail.length)) && d.flashMay t.val then
    d.ckptStart t.val
  else d

/-- The structure of a locator segment: the entries of the 512 pages of a tile-local group (R141, R144). -/
def Dev.segBody (d : Dev) (t g : Nat) : List (Nat × Nat) :=
  (List.range 512).map fun i => (8, (d.loc (d.dpaOf t (g * 2097152 + i * 4096) / 4096)).word)

/-- The structure of a locator root page or directory record: the flash addresses of 512 records of the kind below it (R141). -/
def Dev.addrBody (d : Dev) (t kind r : Nat) : List (Nat × Nat) := (List.range 512).map fun i => (8, d.metaAddr t kind (r * 512 + i))

/-- The tile-local group of a page (R141). -/
def Dev.tileGroup (d : Dev) (p : Nat) : Nat := d.tla (pageBase p) / 2097152

/-- Steps 2 to 4 of a checkpoint: the segments of the groups that changed, the root pages that point to a new segment, and the eight directory
records (R147). -/
def Dev.ckptWrite (d : Dev) (t : Nat) : Dev :=
  let f := d.fl t
  let gs := (((f.ckptRun.getD []).map d.tileGroup) ++ f.segMoved).dedup
  let d := d.metaPut t 7 (gs.map fun g => (g, d.segBody t g))
  let rs := (gs.map fun g => g / 512).dedup
  let d := d.metaPut t 8 (rs.map fun r => (r, d.addrBody t 7 r))
  (d.metaPut t 9 ((List.range 8).map fun i => (i, d.addrBody t 8 i))).onFl t fun f => { f with segMoved := [] }

/-- CHECKPOINT_COMMIT: the checkpoint's records are programmed and its CKPT entry after them, with the addresses of the eight directory
records, which commits it; blocks emptied before it started may be erased (R147, R149). -/
def execCheckpointCommit (t : Fin 8) (dt : Nat) (s : State) : Res := s.run fun d =>
  let d := d.elapse dt
  if (d.fl t.val).ckptRun.isSome && d.flashMay t.val then
    let d := d.ckptWrite t.val
    (d.cairn t.val [{ typ := 0x08, a := (d.fl t.val).ckptNo + 1, ext := (List.range 8).map fun i => d.metaAddr t.val 9 i }]).onFl t.val fun f =>
      { f with
        ckptRun := none, ckptNo := f.ckptNo + 1
        blocks := f.blocks.map fun b => (b.1, if b.2.state = 8 then { b.2 with state := 6 } else b.2) }
  else d

/-! ### Ledger summaries (R157, R158, R163) -/

/-- The entries a summary keeps: the latest of each type that it lists, every ARM and DISARM that still decides a group, erase intents
without their ERASE_DONE, remaps and retired dies, poison records, the entries of retained strata, and TRIM entries still needed (R157,
R163). -/
def Dev.keepEntry (d : Dev) (l : List LedgerEntry) (e : LedgerEntry) : Bool :=
  if [0x08, 0x09, 0x0A, 0x0B, 0x0C, 0x0D].contains e.typ then !(l.any fun x => x.typ == e.typ && decide (e.lseq < x.lseq))
  else if e.typ = 4 then !(l.any fun x => x.typ == 5 && x.a == e.a && decide (e.lseq < x.lseq))
  else if e.typ = 1 ∨ e.typ = 2 then !(l.any fun x => (x.typ == 3 || (decide (x.typ = 1 ∨ x.typ = 2) && x.a == e.a)) && decide (e.lseq < x.lseq))
  else if e.typ = 0x11 then e.b != 2 && d.strata.strata.any fun s => s.context == e.a && s.time == e.c
  else if e.typ = 0x12 then d.strata.trims.any fun k => k.context == e.a && k.granule == (if e.b = 0 then none else some e.c) &&
    decide (e.time ≤ k.time)
  else e.typ == 7 || e.typ == 0x0E || e.typ == 0x0F || e.typ == 0x13

/-- The records of a summary: its entries' bytes in order, at most 128 units to a record (R141, R154, R157). -/
def summaryBodies (es : List LedgerEntry) : List (Nat × List (Nat × Nat)) :=
  (runs 25 es).map fun x => (x.1, x.2.map fun e => (32 * ledgerUnits e.typ, leNat e.bytes))

/-- The erase of a ledger block begins with its intent (R157, R158). -/
def Dev.ledgerErase (d : Dev) (t b : Nat) : Dev := (d.ledger t 0x04 b).onBlk t b fun x => { x with state := 3 }

/-- A record of a summary takes the next NAND page of the ledger (R157). -/
def Dev.summaryPut (d : Dev) (t : Nat) (m : Nat × List (Nat × Nat)) : Dev :=
  let y := d.ledgerPage t
  y.1.putMetas t [{ rtype := 3, mkind := 0x0F, index := m.1, body := m.2, addr := y.2 }]

/-- LEDGER_SUMMARY: 256 MiB of entries have been written since the previous summary, so its records are written on the ledger die, a
LEDGER_CKPT entry follows, and the ledger blocks wholly older begin their erase (R157, R158). -/
def execLedgerSummary (t : Fin 8) (dt : Nat) (s : State) : Res := s.run fun d =>
  let d := d.elapse dt
  let t := t.val
  let f := d.fl t
  if decide (268435456 ≤ f.sinceSummary) && !d.flashHeld && !(d.tile t).isolated then
    let kept := f.ledger.filter (d.keepEntry f.ledger)
    let old := (f.blocks.filter fun b => dieOf b.1 == ledgerDie && b.2.state == 2).map fun b => b.1
    let first := if kept.isEmpty then 0 else (d.ledgerPage t).2
    let d := (summaryBodies kept).foldl (fun d m => d.summaryPut t m) d
    let d := (d.onFl t fun f => { f with ledger := kept }).ledger t 0x10 first (summaryBodies kept).length (f.nextLseq - 1)
    let d := old.foldl (fun d b => d.ledgerErase t b) d
    d.onFl t fun f => { f with sinceSummary := 0 }
  else d

/-! ### Records that are moved or lost (R143, R146, R164) -/

/-- A record is lost to the strata that pin it: they are marked damaged, with the page in their damage lists (R143, R161). -/
def Dev.strataLost (d : Dev) (t : Nat) (r : PageRec) : Dev :=
  let hit (s : Stratum) : Bool := s.context == r.context && (match d.pinned s r.page with
    | some x => x == r
    | none => false)
  let bad := d.strata.strata.filter hit
  let d := bad.foldl (fun d s => if s.damaged then d else d.ledgerAll (d.ctxTiles s.context) 0x11 s.context 3 s.time) d
  let d := d.onStrata fun s => { s with
    recs := s.recs.filter fun x => x != r
    strata := s.strata.map fun x => if bad.contains x then { x with damaged := true, damage := addOnce x.damage r.page } else x }
  if bad.isEmpty then d else d.raise (tsrc t 37) 0x86 2 (atag := some r.page) (ctx := r.context)

/-- A record that could not be read (R143): a page clean in DRAM whose current record it is is armed and marked dirty, and its record
re-protected; strata that pin it lose it. -/
def Dev.recLost (d : Dev) (t : Nat) (r : PageRec) : Dev :=
  let d := if !(d.isCurrent r) || d.isDirty r.page || !d.restored r.page then d
    else (d.dirtyArmed r.page).raise (tsrc t 37) 0x86 1 (atag := some r.page) (ctx := r.context)
  d.strataLost t r

/-- The live page records of a block of a tile (R164). -/
def Dev.liveRecs (d : Dev) (t blk : Nat) : List PageRec :=
  d.strata.recs.filter fun r => r.block == blk && d.pageTile r.page == t && (d.isCurrent r || d.isPinned r)

/-- A metadata record or marker that is still needed: the newest of its kind and index, a stage 2 record of the latest seal, a
metering record that a context keeps, the marker of a retained stratum (R164, R211). -/
def Dev.metaLive (d : Dev) (t : Nat) (m : MetaRec) : Bool :=
  if m.rtype = 3 then
    if [1, 2, 3, 4, 6].contains m.mkind then decide ((d.fl t).sealAt ≤ m.time)
    else if m.mkind = 5 then m.body.any fun b => d.ctxs.tbl.any fun c => c.1 % 8 == t && c.2.records.any fun r => leNat r.bytes == b.2
    else d.metaAt t m.mkind m.index == some m
  else m.rtype == 4 && d.strata.strata.any fun s => s.context == m.context && (s.time == m.time)

/-- The live metadata records and markers of a block of a tile (R164). -/
def Dev.liveMetas (d : Dev) (t blk : Nat) : List MetaRec :=
  (d.fl t).metas.filter fun m => blkOf m.addr == blk && d.metaLive t m

/-- Relocation or compaction may open a block: the zone holds more than its target, and a whole block (R152). -/
def Dev.drawMay (d : Dev) (t : Nat) : Bool := decide (d.zoneTarget t < (d.fl t).zone) && decide (d.blkRecs ≤ (d.fl t).zone)

/-- A stream of purpose `k` has a slot without opening a block. -/
def Dev.slotOpen (d : Dev) (t k : Nat) (elided : Bool) : Bool :=
  let s := d.stream t k
  decide (s.left ≠ 0) || decide ((if elided then s.hdrCount % 64 else s.fillSlots % 4) ≠ 0)

/-- A record is copied to the block that relocation (1) or compaction (2) fills: VSEQ, TIME, ciphertext and DCRC stay, RELOCATED is set, and
the locator follows if it still points to the source (R145, R146); a read that needed the soft decode marks the source block (R142).
Without a slot, and where no block may be drawn, the record stays where it is (R152). `draw`: a block may be drawn whatever the zone's
target, for a block that failed (R160). -/
def Dev.relocate (d : Dev) (t k : Nat) (draw : Bool) (soft : List Nat) (r : PageRec) : Dev :=
  if !(d.slotOpen t k r.elided) && !(draw || d.drawMay t) then d
  else
    let x := d.drawSlot t k r.elided
    match x.2 with
    | none => x.1
    | some a =>
      let d := if soft.contains r.page then x.1.onBlk t r.block fun b => { b with refresh := true } else x.1
      let cur := d.isCurrent r
      let n : PageRec := { r with relocated := true, addr := a.1, hidx := a.2, tlc := k == 2 }
      let d := d.onStrata fun s => { s with
        recs := s.recs.map fun x => if x = r then n else x
        loc := if cur then s.loc.map fun l => if l.page = r.page then { l with addr := a.1, hidx := a.2 } else l else s.loc }
      let d := d.capUse t (if r.elided then 256 else 4096)
      if cur then d.onFl t fun f => { f with tail := f.tail ++ [r.page] } else d

/-- A live metadata record or marker is copied to the metadata stream; a moved locator segment has its root page written again by the
next checkpoint (R147, R164). -/
def Dev.relocateMeta (d : Dev) (t : Nat) (draw : Bool) (m : MetaRec) : Dev :=
  if !(d.slotOpen t 3 false) && !(draw || d.drawMay t) then d
  else
    let x := d.drawSlot t 3 false
    match x.2 with
    | none => x.1
    | some a => x.1.onFl t fun f => { f with
        metas := f.metas.map fun y => if y = m then { m with addr := a.1 } else y
        segMoved := if m.rtype = 3 ∧ m.mkind = 7 then addOnce f.segMoved m.index
          else if m.rtype = 3 ∧ m.mkind = 8 then addOnce f.segMoved (m.index * 512) else f.segMoved }

/-- The live records of a block are moved, those of the pages in `lost` being unreadable (R143, R160, R164). -/
def Dev.moveOut (d : Dev) (t blk : Nat) (draw : Bool) (lost soft : List Nat) : Dev :=
  let d := (d.liveRecs t blk).foldl (fun d r => if lost.contains r.page then d.recLost t r else d.relocate t 1 draw soft r) d
  let d := (d.liveMetas t blk).foldl (fun d m => d.relocateMeta t draw m) d
  (d.closeStream t 1).closeStream t 3

/-- A block holds nothing live. -/
def Dev.blockDead (d : Dev) (t blk : Nat) : Bool := (d.liveRecs t blk).isEmpty && (d.liveMetas t blk).isEmpty

/-- A block is emptied: its live records are moved, and once none is left it waits for a checkpoint (R149, R164). -/
def Dev.emptyBlock (d : Dev) (t blk : Nat) (lost soft : List Nat) : Dev :=
  let d := d.moveOut t blk false lost soft
  if d.blockDead t blk then d.onBlk t blk fun b => if b.state = 4 then b else { b with state := 5, refresh := false } else d

/-- TLC blocks with nothing live return to the pSLC pool once erased (R165). -/
def Dev.dropTlc (d : Dev) (t : Nat) : Dev :=
  ((d.fl t).blocks.filter fun b => b.2.tlc && b.2.state == 2 && d.blockDead t b.1).foldl
    (fun d b => d.onBlk t b.1 fun b => { b with state := 5 }) d

/-! ### Dies and bad blocks (R156, R158, R160, R161) -/

/-- Page records that a stream may still fill without opening a block: their part of the zone. -/
def streamRest (s : FlashStream) : Nat :=
  4 * s.left + (if s.fillSlots % 4 = 0 then 0 else 4 - s.fillSlots) + (if s.hdrCount % 64 = 0 then 0 else 4 - (s.hdrCount + 15) / 16)

/-- The streams whose block `f` picks end there; captures that were to be programmed in such a block leave the in-flight table, and their
pages stay dirty (R42, R160, R161). -/
def Dev.dropStreams (d : Dev) (t : Nat) (f : Nat → Bool) : Dev :=
  let d := [0, 1, 2, 3].foldl (fun d k =>
    let s := d.stream t k
    if f s.block && decide (s.left ≠ 0 ∨ s.fillSlots % 4 ≠ 0 ∨ s.hdrCount % 64 ≠ 0) then
      (d.zoneUse t k (streamRest s)).onFlow t k fun s => { block := s.block }
    else d) d
  d.onExpo fun e => { e with inflight := e.inflight.filter fun x => !(d.pageTile x.page == t && f (blkOf x.addr)) }

/-- A data die is retired (R161): its blocks leave the zone and the reservation, clean pages whose current record it held are marked dirty,
versions that strata pinned there are lost, and a tile of fewer than 112 data dies is isolated. -/
def Dev.retireDie (d : Dev) (t die : Nat) : Dev :=
  if (d.fl t).diesRetired.contains die ∨ die = ledgerDie then d
  else
    let f := d.fl t
    let used := (f.blocks.countP fun b => dieOf b.1 == die && b.2.state != 0) + f.resv.countP fun b => dieOf b == die && (d.blk t b).state == 0
    let here := d.strata.recs.filter fun r => dieOf r.block == die && d.pageTile r.page == t && (d.isCurrent r || d.isPinned r)
    let d := d.dropStreams t fun b => dieOf b == die
    let d := (d.ledger t 0x13 (die % 16) (die / 16)).onFl t fun f => { f with
      diesRetired := addOnce f.diesRetired die
      zone := f.zone - (d.dieBlocks - used) * d.blkRecs }
    let d := here.foldl (fun d r =>
      let e := if d.isCurrent r && !(d.isDirty r.page) then d.dirtyArmed r.page else d
      e.strataLost t r) d
    let d := ((d.resvFill t).raise (tsrc t (18 + die % 16)) 0x85 2 (detail := [die])).govTrigger 5
    if d.diesLeft t < 112 then d.raise (tsrc t 37) 0x85 3 (detail := [die]) else d

/-- A block is taken out of use: its logical address is mapped to a block of its die's spare pool, or it is retired where the pool is empty or
it is worn; its BAD_BLOCK entry says why (R135, R136, R155, R160). A block that held records is erased only after a checkpoint has committed
(R149). -/
def Dev.badBlock (d : Dev) (t blk reason : Nat) : Dev :=
  let die := dieOf blk
  let n := tget (d.fl t).spareUsed 0 die
  let held := (d.blk t blk).state == 1 || (d.blk t blk).state == 2
  let d := if die = ledgerDie then d else d.govTrigger 5
  if n < 96 ∧ reason ≠ 3 then
    let d := (d.ledger t 0x07 blk (d.dieBlocks + n) reason).onBlk t blk fun _ => { state := if held ∧ die ≠ ledgerDie then 5 else 6 }
    let d := d.onFl t fun f => { f with spareUsed := tset f.spareUsed die (n + 1), remap := tset f.remap blk (d.dieBlocks + n) }
    if n + 1 = 72 then d.raise (tsrc t 37) 0x84 2 (detail := [die]) else d
  else
    let d := (d.ledger t 0x07 blk 0 (reason + 8)).onBlk t blk fun b => { b with state := 4 }
    (d.onFl t fun f => { f with blocksRetired := f.blocksRetired + 1 }).raise (tsrc t 37) 0x85 0 (detail := [blk])

/-- A block fails: what fills it ends, its live records are moved first, or handled as unreadable, and the block is then taken out (R160). With
no erased block left to move them to it stays, marked for refresh. -/
def Dev.blockFails (d : Dev) (t blk reason : Nat) (lost soft : List Nat) : Dev :=
  let d := if (d.blk t blk).state = 0 then
      (if (d.fl t).resv.contains blk then (d.onFl t fun f => { f with resv := f.resv.filter fun b => b != blk }).resvFill t
       else d.onFl t fun f => { f with zone := f.zone - d.blkRecs })
    else d.dropStreams t fun b => b == blk
  let d := d.moveOut t blk true lost soft
  if d.blockDead t blk then d.badBlock t blk reason else d.onBlk t blk fun b => { b with state := 2, refresh := true }

/-- FLASH_OP_FAIL: a program (0), erase (1) or read (2) fails, or a block is worn (3); `lost` the pages whose records there
cannot be read, `soft` those read by the soft decode, `statusFail` that the die's status check fails, `wholeDie` that a whole-die operation
failed. On the ledger die, the program is retried on the next ledger block, and `wholeDie` says that this failed too (R142, R156, R160,
R161). -/
def execFlashOpFail (t : Fin 8) (blk : BitVec 21) (reason : Fin 4) (lost soft : List Nat) (statusFail wholeDie : Bool) (dt : Nat)
    (s : State) : Res := s.run fun d =>
  let d := d.elapse dt
  let b := blk.toNat
  let die := dieOf b
  if die = ledgerDie then
    if wholeDie then d.raise (tsrc t.val 36) 0x81 3
    else (d.onFl t.val fun f => if f.ledBlock = b then { f with ledLeft := 0 } else f).badBlock t.val b reason.val
  else if (d.fl t.val).diesRetired.contains die ∨ (d.blk t.val b).state = 4 then d
  else
    let recent := (d.fl t.val).blockFails.filter fun x => decide (d.now < x.2 + 60000000000)
    let two := decide (2 ≤ recent.countP fun x => x.1 == die)
    let d := d.onFl t.val fun f => { f with blockFails := (die, d.now) :: recent }
    if wholeDie || (two && statusFail) then d.retireDie t.val die else d.blockFails t.val b reason.val lost soft

/-! ### Priority of flash work (R65) -/

/-- The landing zone asks for an erase at level 2: below 1.1 × c_t (R65, R152). -/
def Dev.eraseUrgent (d : Dev) (t : Nat) : Bool := decide (10 * (d.fl t).zone < 11 * tget d.expo.gov.tileCeil 0 t)

/-- A block of a tile that may begin its erase: emptied and free of a checkpoint, or half-erased, its intent not yet asked for (R149,
R159). -/
def Dev.erasable (d : Dev) (t b : Nat) : Bool :=
  ((d.blk t b).state == 6 || (d.blk t b).state == 7) && d.liveDie t b && !((d.fl t).intentQ.contains b)

/-- A sanitize waits for the erase of a block of a tile (R205). -/
def Dev.sanWaits (d : Dev) (t b : Nat) : Bool := d.ctxs.tbl.any fun c => c.2.sanStep == 6 && (d.oldKeyBlocks t c.1).contains b

/-- The level of a landing-zone erase that waits on a tile; none where neither the zone nor a sanitize needs one or no block may be erased
(R65, R152, R205). -/
def Dev.eraseLevel (d : Dev) (t : Nat) : Option Nat :=
  if d.flashMay t && (d.fl t).blocks.any fun b => d.erasable t b.1 then
    (if d.eraseUrgent t then some 2 else if (d.fl t).zone < d.zoneTarget t || (d.fl t).blocks.any fun b => d.sanWaits t b.1 then some 1 else none)
  else none

/-- The level of trickle for a page: 2 from RED on, 1 in AMBER and for a page that a fence names, else 0 (R65, R168). -/
def Dev.trickleLevel (d : Dev) (t : Nat) (fence : Bool) : Nat :=
  let g := tget d.expo.gov.tileState 0 t
  if 2 ≤ g then 2 else if g = 1 ∨ fence then 1 else 0

/-- The level of the trickle that waits on a tile; none where no page may be taken now. -/
def Dev.trickleWaits (d : Dev) (t : Nat) : Option Nat :=
  if d.trickleMay t && d.rateMay t then (d.tricklePick t).map fun x => d.trickleLevel t x.2 else none

/-- A demand fetch of a data record waits on a tile, at level 3 (R65, R124). -/
def Dev.fetchWaits (d : Dev) (t : Nat) : Bool :=
  d.restore.fetching.any fun p => d.pageTile p == t && d.persistent p && (d.loc p).kind == 1

/-- Work of level `n` on a tile is served now: nothing of a higher level waits. `kind` is 1 trickle, 2 erase, 0 other work: of the two that
wait at one level, the one not served last is served (R65). -/
def Dev.flashTurn (d : Dev) (t n kind : Nat) : Bool :=
  let above (w : Option Nat) (k : Nat) : Bool := match w with
    | some m => decide (n < m) || (m == n && kind != 0 && k != kind && (d.fl t).lastWork == kind)
    | none => false
  !(d.fetchWaits t) && !(kind != 1 && above (d.trickleWaits t) 1) && !(kind != 2 && above (d.eraseLevel t) 2)

/-- Work of a kind has been served (R65). -/
def Dev.flashServed (d : Dev) (t kind : Nat) : Dev := d.onFl t fun f => { f with lastWork := kind }

/-- TRICKLE_CAPTURE: trickle takes a page of a tile, within its rate and in its turn; `keyErr` as in `useKey`, `ue` the lines of it that are found
uncorrectable, with the devices seen failing (R39, R42, R44, R50, R64, R65,
R148, R168, R182, R183, R225, R226). -/
def execTrickleCapture (t : Fin 8) (keyErr : Nat) (ue : List (Nat × Nat)) (dt : Nat) (s : State) : Res := s.run fun d =>
  let d := d.elapse dt
  if d.trickleMay t.val && d.rateMay t.val then
    match d.tricklePick t.val with
    | none => d
    | some (x, fence) =>
      if !(d.flashTurn t.val (d.trickleLevel t.val fence) 1) then d
      else
        let c := (d.pageCtx x.page).getD 0
        let d := d.useKey t.val c keyErr
        if (d.ctx c).keyLost then d
        else
          let d := (d.pageTouch x.page false).pageUe x.page ue
          ((d.rateUse t.val (uniform d.mem (pageBase x.page))).capture t.val x.page false fence).flashServed t.val 1
  else d

/-- BACKGROUND_ERASE: an emptied block, or a half-erased one, is erased while the zone is below its target or below 1.1 × c_t, in the turn of
flash work: its ERASE_INTENT entry is programmed, or waits for the program that runs on the ledger die (R65, R149, R152, R156, R158, R159). -/
def execBackgroundErase (t : Fin 8) (blk : BitVec 21) (dt : Nat) (s : State) : Res := s.run fun d =>
  let d := d.elapse dt
  let b := blk.toNat
  match d.eraseLevel t.val with
  | none => d
  | some n =>
    if !(d.erasable t.val b) || !(d.flashTurn t.val n 2) then d
    else
      let d := (d.onFl t.val fun f => { f with intentQ := f.intentQ ++ [b] }).flashServed t.val 2
      if (tget d.expo.armProg none t.val).isSome then d else d.cairn t.val []

/-- An erase ends on a blank block: its ERASE_DONE entry is programmed, it is worn by 1 unit or 20, and a data block joins the zone; one that
reaches 60,000 units is retired; a ledger block may be filled again (R151, R158, R160, R167). -/
def Dev.eraseBlank (d : Dev) (t b : Nat) : Dev :=
  let x := d.blk t b
  let w := x.wear + (if x.tlc then 20 else 1)
  let d := d.ledger t 0x05 b (bit x.tlc)
  if 60000 ≤ w ∧ dieOf b ≠ ledgerDie then (d.onBlk t b fun x => { x with wear := w, tlc := false }).badBlock t b 3
  else
    let d := d.onBlk t b fun x => { x with wear := w, tlc := false, state := 0, refresh := false }
    if dieOf b = ledgerDie then d else d.onFl t fun f => { f with zone := f.zone + d.blkRecs }

/-- ERASE_DONE: an erase ends; `ok` says that the block's first and last pages are blank. Its records are gone, and trims that only they needed
with them; one that fails is taken out (R151, R158, R160, R163, R167). -/
def execEraseDone (t : Fin 8) (blk : BitVec 21) (ok : Bool) (dt : Nat) (s : State) : Res := s.run fun d =>
  let d := d.elapse dt
  let b := blk.toNat
  let x := d.blk t.val b
  if x.state ≠ 3 ∨ d.flashHeld ∨ (d.sealing.active ∧ 2 ≤ d.sealing.stage) then d
  else
    let u := if x.tlc then 20 else 1
    let d := d.onStrata fun s => { s with
      unitsUsed := s.unitsUsed + (if dieOf b = ledgerDie then 0 else u), erasesH := s.erasesH + (if dieOf b = ledgerDie then 0 else u)
      recs := s.recs.filter fun r => !(r.block == b && d.pageTile r.page == t.val) }
    let d := d.onStrata fun s => { s with
      trims := s.trims.filter fun k => s.recs.any fun r => r.context == k.context && decide (r.time < k.time) && (match k.granule with
        | none => true
        | some g => pageGran r.page == g) }
    let d := d.onFl t.val fun f => { f with metas := f.metas.filter fun m => blkOf m.addr != b }
    if ok then d.eraseBlank t.val b
    else (d.onBlk t.val b fun y => { y with wear := y.wear + u }).badBlock t.val b 1

/-! ### Sanitize (R205) -/

/-- The metadata blocks of a tile that hold an earlier wrapped-key record of a context: what fills them ends, their live records are
relocated, and their erase begins (R158, R205). -/
def Dev.dropOldKeys (d : Dev) (t c : Nat) : Dev :=
  let bs := d.oldKeyBlocks t c
  let d := bs.foldl (fun d b => ((d.dropStreams t fun x => x == b).moveOut t b true [] []).onBlk t b fun x => { x with state := 6 }) d
  let d := d.onFl t fun f => { f with intentQ := f.intentQ ++ bs.filter fun b => !f.intentQ.contains b }
  if bs.isEmpty || (tget d.expo.armProg none t).isSome then d else d.cairn t []

/-- SANITIZE_STEP_DONE: a step of a sanitize completes and the next begins (R205): 1 table entry durable, 2 granules released
and zeroed, 3 crypto-erase, whose metadata blocks are erased before it completes (6), 4 whole-context TRIM, 5 final record. It rests in a seal and resumes at early open or a warm return (R92, R120). -/
def execSanitizeStepDone (c : Nat) (dt : Nat) (s : State) : Res := s.run fun d =>
  let d := d.elapse dt
  let x := d.ctx c
  if x.state ≠ 4 ∨ d.sealing.frozen ∨ !d.restore.ready ∨ d.pkg.safe ≠ 0 then d
  else match x.sanStep with
    | 1 => (d.ctxSave c).onCtx c fun x => { x with sanStep := 2 }
    | 2 =>
      let gs := d.ctxGrans c
      let h := x.owner - 1
      let d := d.dcForced h c gs
      let d := gs.foldl (fun d g => ((d.rtCommit { granule := g, entry := {}, trim := true }).zeroGranule g)) d
      d.onCtx c fun x => { x with sanStep := 3 }
    | 3 => (d.inSvc.foldl (fun d t => d.dropOldKeys t c) (d.keyErase c)).onCtx c fun x => { x with sanStep := 6 }
    | 6 => if d.inSvc.all fun t => (d.oldKeyBlocks t c).isEmpty then d.onCtx c fun x => { x with sanStep := 4 } else d
    | 4 =>
      let d := d.ledgerAll d.inSvc 0x12 c 0
      let d := d.onStrata fun s => { s with
        trims := { context := c, granule := none, time := d.now } :: s.trims
        strata := s.strata.filter fun st => st.context != c }
      let d := d.stopStreams c
      d.onCtx c fun x => { x with sanStep := 5 }
    | _ => d.sanitizeEnd c


/-! ### Garbage collection, compaction, refresh, wear leveling (R164 to R166, R170) -/

/-- The oldest stratum in the package among contexts that hold more than one (R164). -/
def Dev.oldestSpare (d : Dev) : Option Stratum :=
  argMin (d.strata.strata.filter fun s => decide (2 ≤ (d.strataOf s.context).length)) fun s => s.time

/-- Free pSLC space outside the zone target below 5 % of the log: the oldest releasable stratum is released (R164, R172). -/
def Dev.spaceCheck (d : Dev) (t : Nat) : Dev :=
  if 20 * (d.freeBlocks t * d.blkRecs - d.zoneTarget t) < d.logBlocks t * d.blkRecs then
    match d.oldestSpare with
    | some s => (d.releaseStratum s.context s.time).raise (tsrc d.pkg.lead 41) 0x13 0 (ctx := s.context)
    | none => d
  else d

/-- Background work that moves records may run on a tile: flash work may, the thermal cap leaves room, and nothing of a higher level waits
(R65, R296). -/
def Dev.moveMay (d : Dev) (t : Nat) : Bool := d.flashMay t && d.capMay t && d.flashTurn t 1 0

/-- GARBAGE_COLLECTION: the pSLC block with the fewest live records, the oldest of equals, is emptied, blocks being drawn while the zone exceeds
its target; `lost` are the pages whose records there cannot be read, `soft` those read by the soft decode; a shortage of space releases a
stratum (R65, R142, R143, R146, R149, R152, R164, R296). -/
def execGarbageCollection (t : Fin 8) (lost soft : List Nat) (dt : Nat) (s : State) : Res := s.run fun d =>
  let d := d.elapse dt
  if d.moveMay t.val then
    let d := d.dropTlc t.val
    let vs := (d.fl t.val).blocks.filter fun b => b.2.state == 2 && !b.2.tlc && d.liveDie t.val b.1
    let live (b : Nat) : Nat := (d.liveRecs t.val b).length + (d.liveMetas t.val b).length
    let d := match argMin vs fun b => live b.1 * 2 ^ 64 + b.2.progTime with
      | some b => d.emptyBlock t.val b.1 lost soft
      | none => d
    d.spaceCheck t.val
  else d

/-- A block may enter a die's TLC pool: the pool stays within 75 % of the die's log blocks, and the tile's pSLC free space at Z_t plus 10 % of
the pSLC log (R165). -/
def Dev.tlcMay (d : Dev) (t : Nat) : Bool :=
  match d.leastWorn t (d.dataDies t) with
  | none => false
  | some n =>
    let tlc := (d.fl t).blocks.countP fun b => b.2.tlc && b.2.state != 4 && dieOf b.1 == dieOf n
    let pslc := d.logBlocks t - (d.fl t).blocks.countP fun b => b.2.tlc && b.2.state != 4 && d.liveDie t b.1
    decide (d.zoneTarget t + pslc * d.blkRecs / 10 ≤ (d.freeBlocks t - 1) * d.blkRecs) && decide (4 * (tlc + 1) ≤ 3 * d.dieLog t (dieOf n))

/-- COLD_COMPACTION: records that only strata pin, once 24 h old, move to TLC-pool blocks, while the zone exceeds its target,
the die's TLC pool stays within 75 % and the free pSLC space above Z_t plus 10 % of the log; suspended from throttle level T2 on (R65, R152,
R165, R296). -/
def execColdCompaction (t : Fin 8) (lost soft : List Nat) (dt : Nat) (s : State) : Res := s.run fun d =>
  let d := d.elapse dt
  let open_ := d.slotOpen t.val 2 false || d.slotOpen t.val 2 true
  if d.moveMay t.val && decide ((d.tile t.val).throttle < 2) && d.drawMay t.val && (d.tlcMay t.val || open_) then
    let cold := d.strata.recs.filter fun r => d.pageTile r.page == t.val && !r.tlc && !(d.isCurrent r) && d.isPinned r
      && decide (day ≤ d.since r.time)
    let left := 4 * (d.stream t.val 2).left
    let n := if left = 0 then (if d.tlcMay t.val then 12 * d.strata.slcPages else 3) else left
    (((cold.take n).foldl (fun d r => if lost.contains r.page then d.strataLost t.val r else d.relocate t.val 2 false soft r) d).closeStream
      t.val 2).dropTlc t.val
  else d

/-- The refresh window of a block, ns: 90 days pSLC, 30 days TLC, halved for each full 10 °C of the average above 55 °C
(R166). -/
def refreshWindow (tlc : Bool) (avgC : Nat) : Nat := (if tlc then 30 else 90) * day / 2 ^ ((avgC - 55) / 10)

/-- The 24-hour average of the hotter flash-zone board sensor, full °C (R166). -/
def Dev.flashAvg (d : Dev) : Nat :=
  let h := d.strata.tempHist
  if h.isEmpty then 0 else ((h.foldl (fun a x => a + x) 0) / (16 * (h.length : Int))).toNat

/-- A programmed block is older than its refresh window (R166). -/
def Dev.aged (d : Dev) (b : Block) : Bool := b.state == 2 && decide (refreshWindow b.tlc d.flashAvg < d.since b.progTime)

/-- RETENTION_REFRESH: a block programmed longer ago than its window is relocated, or, with no such block left on the tile, one marked by a soft
decode; suspended from throttle level T2 on (R65, R142, R143, R166, R296). -/
def execRetentionRefresh (t : Fin 8) (blk : BitVec 21) (lost soft : List Nat) (dt : Nat) (s : State) : Res := s.run fun d =>
  let d := d.elapse dt
  let b := d.blk t.val blk.toNat
  let next := d.aged b || (b.refresh && b.state == 2 && !((d.fl t.val).blocks.any fun x => d.aged x.2))
  if d.moveMay t.val && decide ((d.tile t.val).throttle < 2) && next then d.emptyBlock t.val blk.toNat lost soft
  else d

/-- WEAR_LEVELING: the spread of units on a die exceeds 2,000, so its coldest block, the least worn of those programmed, is
relocated (R65, R170). -/
def execWearLeveling (t : Fin 8) (die : Fin 127) (lost soft : List Nat) (dt : Nat) (s : State) : Res := s.run fun d =>
  let d := d.elapse dt
  let bs := (d.fl t.val).blocks.filter fun b => dieOf b.1 == die.val && b.2.state != 4
  let hi := maxBy bs 0 fun b => b.2.wear
  let lo := if bs.length < d.dieBlocks then 0 else ((argMin bs fun b => b.2.wear).map fun b => b.2.wear).getD 0
  if d.moveMay t.val && decide (2000 < hi - lo) && d.liveDie t.val die.val then
    match argMin (bs.filter fun b => b.2.state == 2) fun b => b.2.wear * 2 ^ 64 + b.2.progTime with
    | some b => d.emptyBlock t.val b.1 lost soft
    | none => d
  else d

/-! ### The wear governor (R167 to R170) -/

/-- Wear units left in a tile's log blocks in service (R167). -/
def Dev.unitsLeft (d : Dev) (t : Nat) : Nat :=
  if (d.tile t).isolated then 0
  else d.logBlocks t * 60000 - sumBy ((d.fl t).blocks.filter fun b => b.2.state != 4 && d.liveDie t b.1) fun b => min 60000 b.2.wear

/-- A year in ns (365.25 days). -/
def year : Nat := 31557600000000000

/-- The budget from W_rem, WA and L_rem; a W_rem of zero holds the rate at a tenth of its beginning-of-life value (R167). -/
def Dev.budget (d : Dev) : Dev :=
  let w := sumBy tiles8 d.unitsLeft * (d.blkRecs * 4096)
  let lRem := max (30 * day) (d.strata.lifeTarget * year - d.now)
  let r := if w = 0 then d.strata.rateBol / 10 else w * 1000 * 1000000000 / (d.strata.waMilli * lRem)
  let first := decide (w = 0) && !d.strata.endurance
  let d := d.onStrata fun s => { s with wRem := w, rate := r, bDay := r * 86400, endurance := s.endurance || first }
  if first then d.raise (tsrc d.pkg.lead 40) 0x84 2 else d

/-- WA over the trailing 7 days, × 1,000, from 1,000 to 4,000; unchanged where nothing landed (R167). -/
def Dev.writeAmp (d : Dev) : Dev :=
  let h := ((d.strata.erasesH, d.strata.landedH) :: d.strata.wearHist).take 168
  let e := sumBy h fun x => x.1
  let l := sumBy h fun x => x.2
  d.onStrata fun s => { s with
    wearHist := h, erasesH := 0, landedH := 0
    waMilli := if l = 0 then s.waMilli else max 1000 (min 4000 (e * (d.blkRecs * 4096) * 1000 / l)) }

/-- BUDGET_RECOMPUTE: the hourly recomputation of the budget rate, with the hour's sample of the flash zones (R166, R167). -/
def execBudgetRecompute (dt : Nat) (s : State) : Res := s.run fun d =>
  let d := d.elapse dt
  let t := max (d.sens 0x44).temp (d.sens 0x45).temp
  (d.onStrata fun s => { s with tempHist := (t :: s.tempHist).take 24 }).writeAmp.budget

/-- BORROW_ACCOUNT_UPDATE: each second the account takes the bytes landed by trickle less the rate, never below zero; when it
reaches B_day the event is raised once (R169). -/
def execBorrowAccountUpdate (dt : Nat) (s : State) : Res := s.run fun d =>
  let d := d.elapse dt
  let landed := sumBy tiles8 fun t => (d.fl t).landedBytes
  let a := d.strata.borrow + landed - d.strata.rate
  let out := decide (d.strata.bDay ≤ a)
  let rise := out && !d.strata.borrowOut
  let d := d.onFlash fun x => x.map fun f => (f.1, { f.2 with landedBytes := 0 })
  let d := d.onStrata fun s => { s with borrow := a, borrowOut := out, trickleMbs := landed / 1000000 }
  if rise then d.raise (tsrc d.pkg.lead 40) 0x27 0 else d

/-- Bytes held only by strata (R171). -/
def Dev.retainedAll (d : Dev) : Nat := 4096 * d.strata.recs.countP fun r => !(d.isCurrent r) && d.isPinned r

/-- DW_STRATA_WEAR and DW_STRATA_SPACE, with one SEQ (R171). -/
def Dev.strataUpd (d : Dev) : Dev :=
  let s := d.strata
  let pct (a b : Nat) : Nat := if b = 0 then 0 else min 255 (a * 100 / b)
  let d := d.dwUpd 0x680 8
    (put 0 20 (s.rate / 1000000) + put 20 20 s.trickleMbs + put 40 8 (pct s.borrow s.bDay) + put 48 8 (pct s.unitsUsed (1016 * d.dieBlocks * 60000)))
  let seq := bits (d.dwGet 0x680 0) 56 8
  d.dwSet 0x688
    (put 0 18 (sumBy tiles8 d.zoneOf / 262144) + put 18 18 (sumBy tiles8 d.freeOutside * d.blkRecs / 262144) + put 36 18 (d.retainedAll / 2 ^ 30)
      + put 56 8 seq)

/-- STRATA_STATUS_UPDATE: both registers, every 1 s, with the check of the free space (R164, R171, R522). -/
def execStrataStatusUpdate (dt : Nat) (s : State) : Res := s.run fun d =>
  (d.elapse dt).periodic 5 1000000000 fun d => ((d.inSvc.filter d.flashMay).foldl Dev.spaceCheck d).strataUpd

end Sys2Proof.Machine
end

