-- ==== Sys2Proof/Machine/Dram.lean ====
section
/-! DEFINITION. The DRAM channels in service: training, repair, scrub, refresh, gathering, set points, self-refresh and rank
steering (chapter 07). -/

namespace Sys2Proof.Machine

/-! ### Configuration and steering registers (R217, R218, R242) -/

/-- DW_DRAM_CFG. -/
def Dev.dramCfgUpd (d : Dev) : Dev :=
  let c := d.dram.cfg
  let size := if c.sGib = 32 then 0 else if c.sGib = 64 then 1 else if c.sGib = 128 then 2 else 3
  d.dwSet 0xD00
    (put 0 2 c.rate + put 2 2 (c.n - 1) + put 4 2 size + put 6 2 c.spares + put 8 3 c.cgrain + put 11 2 c.tgrain
      + put 13 1 (bit c.autoReturn) + put 16 16 c.idleSr)

/-- A tile's steering table at a boot with no record of its own: the ranks of R35, spares on the highest channels of the last
row (R35, R242, R243). -/
def Dev.steerDefault (d : Dev) (t e : Nat) : Steer :=
  let row := e / 4
  let n := d.dram.cfg.n
  if n ≤ row then { state := 7 }
  else if row = n - 1 ∧ d.lastWays ≤ e % 4 then { state := 5, pop := true }
  else { (tget d.dram.slateSteer { state := 0 } (t * 16 + e)) with pop := true }

/-- Load the steering table of a tile at boot: its sealed work state where there is one; else its Slate record, in which an
entry in MIGRATE or DUAL enters STEERED, the latter with TEST_PASS kept (R251). -/
def Dev.steerLoad (d : Dev) (t : Nat) : Dev :=
  (List.range 16).foldl (fun d e =>
    let k := t * 16 + e
    let s0 := if thas d.dram.slateSteer k then tget d.dram.slateSteer {} k else d.steerDefault t e
    let s := match if d.sealedTile t then d.dram.sealedSteer else none with
      | some x => if thas x k then tget x {} k else s0
      | none => if s0.state = 1 then { s0 with state := 2, sweep := 0 }
        else if s0.state = 3 then { s0 with state := 2, sweep := 0, testPass := true } else s0
    (d.onSteer t e fun _ => { s with rowsN := (d.rank t e).rows.length }).steerUpd t e) d

/-! ### Initialisation and training (R214, R215, R218, R234) -/

/-- CHANNEL_TRAINING_DONE: a channel trains at both set points, or fails; the second failure takes it out of service, and its
tile is isolated (R118, R234). What the SPD of its ranks says makes it fail as well: a population that breaks R35 (`pop` false), a device
outside R213 (`dev` false), no check devices (`chk` false) (R214). -/
def execChannelTrainingDone (t : Fin 8) (c : Fin 4) (ok pop dev chk : Bool) (dt : Nat) (s : State) : Res := s.run fun d =>
  let d := d.elapse dt
  let x := d.chan t.val c.val
  if d.restore.phase ≠ 3 ∨ x.state = 3 ∨ (d.tile t.val).isolated then d
  else if ok && pop && dev && chk then d.chanDo t.val c.val fun x => { x with state := 1, trained := true, retValid := true, lastReq := d.now }
  else if x.trainTries = 0 && pop && dev && chk then d.onChan t.val c.val fun x => { x with trainTries := 1 }
  else (d.chanDo t.val c.val fun x => { x with state := 3, trained := false, retValid := false }).raise (tsrc t.val (4 * c.val)) 0x40 3

/-- DRAM_INIT_COMPLETE: phase 3 ends once every channel in service is trained; `n` and `size` are N − 1 and the code of S from the
SPD, `rate` the fastest rate code that every device supports, `ecc` the on-die ECC counts of the ranks (tile × 16 + entry, count), for the
rank log (R109, R212, R215, R218, R251). -/
def execDramInitComplete (n size : Fin 4) (rate : Fin 3) (ecc : List (Nat × Nat)) (dt : Nat) (s : State) : Res := s.run fun d =>
  let d := d.elapse dt
  let up (t : Nat) : Bool := [0, 1, 2, 3].all fun c => (d.chan t c).state == 1
  if d.restore.phase = 3 ∧ (d.inSvc.filter fun t => !(up t) && [0, 1, 2, 3].all fun c => (d.chan t c).state != 3).isEmpty then
    let d := d.onDram fun x => { x with cfg := { x.cfg with
      n := n.val + 1, sGib := 32 * 2 ^ size.val, rate := max rate.val x.cfg.rateLimit } }
    let d := tiles8.foldl Dev.steerLoad d.dramCfgUpd
    let d := ecc.foldl (fun d x => d.onRank (x.1 / 16) (x.1 % 16) fun r => { r with eccCount := x.2 }) d
    let d := d.onPanel fun p => { p with ddrRst := false }
    (d.onRestore fun r => { r with phase := 4, mountAt := d.now, phaseEnd := tset r.phaseEnd 3 d.now }).restUpd
  else d

/-! ### Repair, scrub and CA retraining (R223 to R226) -/

/-- LINE_REPAIR_COMPLETE: the repair of a page's lines from its record ends; a record that cannot be read leaves them poison
(R143, R225, R226). -/
def execLineRepairComplete (p : Nat) (recBad : Bool) (dt : Nat) (s : State) : Res := s.run fun d =>
  let d := d.elapse dt
  if !(d.dram.repairs.contains p) then d
  else
    let ls := d.expo.ueLines.filter fun l => linePage l == p
    let fix (d : Dev) (l : Nat) : Dev :=
      match d.curRec p with
      | some r =>
        if recBad ∨ r.pmask.contains (l % 64) then d.linePoison l
        else
          (d.loadLine l r.img).lineMended l
      | none => d.linePoison l
    let d := (ls.foldl fix d).pageTouch p true
    let d := d.onExpo fun e => { e with
      ueLines := e.ueLines.filter fun l => linePage l != p
      held := e.held.map fun r => if r.forRepair ∧ linePage r.line = p then { r with forRepair := false } else r }
    (d.onDram fun x => { x with repairs := x.repairs.filter fun q => q != p }).serve

/-- PATROL_SCRUB: scrub reads a line; a corrected line is written back without dirtying its page; an uncorrectable one is
handled by its page, or by the reserve structure that it lies in (R150, R223, R224, R225), `lost` as for `reserveRepair`. A channel in
self-refresh is left there, and scrub makes up its reads later (R239). A free spare is left to its daily test. -/
def execPatrolScrub (line : Nat) (errs : List (Nat × Nat)) (caErr lost : Bool) (dt : Nat) (s : State) : Res := s.run fun d =>
  let d := d.elapse dt
  let x := d.lineLoc line
  let rs := d.lineRanks line false
  if (d.tile x.t).isolated ∨ d.restore.phase < 4 ∨ (rs.any fun p => (d.chan x.t (p % 4)).state != 1) then d
  else
    let d := d.onDram fun y => { y with scrubAt := line }
    let d := if caErr then d.caError x.t x.ch else d
    let d := d.chanTouch line false false false
    match d.reserveOff line, (d.decodeLine line errs).1 with
    | some o, .uncorrectable => d.reserveRepair x.t o (errDevs errs) lost
    | _, _ => (d.readLine line errs).1

/-- CA_RETRAIN_DONE: a CA retraining ends, and the requests that waited for it go on; on failure the channel is out of service and the tile is isolated (R118, R224). -/
def execCaRetrainDone (t : Fin 8) (c : Fin 4) (ok : Bool) (dt : Nat) (s : State) : Res := s.run fun d =>
  let d := d.elapse dt
  if !(d.chan t.val c.val).caTrain then d
  else if ok then (d.onChan t.val c.val fun x => { x with caTrain := false }).chanServe t.val
  else
    (d.chanDo t.val c.val fun x => { x with caTrain := false, state := 3 }).raise (tsrc t.val (4 * c.val)) 0x40 3

/-! ### Caps, refresh, gathering (R231 to R236) -/

/-- TOKEN_REFILL: every 10 µs the buckets of a capped channel take the lines that its cap, and the host write limit, let through in that
time, beside at most the burst of 64 that was left (R231); requests that waited go on. -/
def execTokenRefill (t : Fin 8) (c : Fin 4) (dt : Nat) (s : State) : Res := s.run fun d =>
  let d := d.elapse dt
  (d.onChan t.val c.val fun x => { x with
    tokens := min x.tokens 64 + d.capLines x.cap, hostTokens := min x.hostTokens 64 + d.peakLines / 8 }).chanServe t.val

/-- The DRAM zone inputs whose mask includes a tile (R232, R292). -/
def Dev.tileZones (d : Dev) (t : Nat) : List Nat := [0, 1, 2, 3].filter fun z => mbit (d.boardIn z).mask t

/-- MR4_POLL: MR4 of every device of a channel is read; `codes` is the highest indication of each rank: 0 at or below 85 °C, 1
above it or the read failed, 2 above the rated maximum; the board zone sensors assigned to the tile count beside it (R232). -/
def execMr4Poll (t : Fin 8) (c : Fin 4) (codes : List (Fin 3)) (dt : Nat) (s : State) : Res := s.run fun d =>
  let d := d.elapse dt
  if (d.tile t.val).isolated then d
  else
    let hot := (d.tileZones t.val).any fun z => decide (80 * 16 < (d.sens (0x40 + z)).temp)
    let rs := (List.range 4).map fun r => (r, ((codes[r]?).map fun x => x.val).getD 0)
    let d := rs.foldl (fun d r => d.onRank t.val (rankEntry r.1 c.val) fun x => { x with
      trefi2 := hot || r.2 != 0, overMax := r.2 == 2 }) d
    d.chanDo t.val c.val fun x => { x with refx2 := hot || rs.any fun r => r.2 != 0 }

/-- REFRESH_DUE: a same-bank refresh of a rank's bank (rank × 32 + bank) falls due or is made up. The refreshes of a rank rotate through its
banks: the one that the rotation has reached is issued, or postponed for a pending request of urgency 3 (`postpone`) within the devices'
limit; another is one that was postponed and is made up. A rank in self-refresh is not touched (R233). -/
def execRefreshDue (t : Fin 8) (c : Fin 4) (bank : Fin 128) (postpone : Bool) (dt : Nat) (s : State) : Res := s.run fun d =>
  let d := d.elapse dt
  let x := d.chan t.val c.val
  let e := rankEntry (bank.val / 32) c.val
  if x.state ≠ 1 then d
  else if (d.rank t.val e).refNext = bank.val % 32 then
    let d := d.onRank t.val e fun r => { r with refNext := (r.refNext + 1) % 32 }
    if postpone && decide (x.postponed.countP (fun b => b / 32 == bank.val / 32) < Config.postponeLimit) then
      d.onChan t.val c.val fun x => { x with postponed := x.postponed ++ [bank.val] }
    else d
  else d.onChan t.val c.val fun x => { x with postponed := if postpone then x.postponed else x.postponed.erase bank.val }

/-- GATHER_WINDOW_OPEN: a channel's gathering window opens, every 250 ms (R236); not in self-refresh, nor from a seal's start
(R92, R233). -/
def execGatherWindowOpen (t : Fin 8) (c : Fin 4) (dt : Nat) (s : State) : Res := s.run fun d =>
  let d := d.elapse dt
  if (d.chan t.val c.val).state = 1 ∧ !d.sealing.active ∧ (d.chan t.val c.val).switchTo.isNone then
    d.chanDo t.val c.val fun x => { x with gather := true }
  else d

/-! ### Set points (R237, R238) -/

/-- The set point that a tile's throttle level selects (R237). -/
def Dev.fspWant (d : Dev) (t : Nat) : Nat := if 2 ≤ (d.tile t).throttle then 1 else 0

/-- Channel `c` of a tile starts its switch, the channels before it being done; `urgent` is an entry to T2, which closes an open
gathering window at once; another switch waits for it (R237, R238). -/
def Dev.fspFrom (d : Dev) (t : Nat) (urgent : Bool) (c : Nat) : Dev :=
  let w := d.fspWant t
  match ([0, 1, 2, 3].filter fun k => decide (c ≤ k)).find? fun k => (d.chan t k).fsp != w && (d.chan t k).state != 3 with
  | none => d
  | some k =>
    if d.sealing.active then d
    else if (d.chan t k).gather ∧ !urgent then d.chanDo t k fun x => { x with switchPend := true }
    else d.chanDo t k fun x => { x with gather := false, switchPend := false, switchTo := some w }

/-- No switch waits any more on a channel that is at the set point its tile now wants (R237, R238). -/
def Dev.fspUnwait (d : Dev) (t c : Nat) : Dev :=
  if (d.chan t c).switchPend ∧ (d.chan t c).switchTo.isNone ∧ (d.chan t c).fsp = d.fspWant t then
    d.chanDo t c fun x => { x with switchPend := false }
  else d

/-- A tile's channels begin to switch, C0 first, unless a switch already runs (R237). -/
def Dev.fspStart (d : Dev) (t : Nat) (urgent : Bool) : Dev :=
  if [0, 1, 2, 3].any fun k => (d.chan t k).switchTo.isSome then d
  else ([0, 1, 2, 3].foldl (fun d k => d.fspUnwait t k) d).fspFrom t urgent 0

/-- A tile's channels take the caps and the set point of its throttle level (R231, R237). -/
def Dev.heatApply (d : Dev) (t : Nat) : Dev :=
  if (d.tile t).isolated then d else (d.capApply t).fspStart t (d.fspWant t == 1)

/-- A switch of a channel completes, and the next channel's starts (R237). -/
def Dev.fspEnd (d : Dev) (t c w : Nat) : Dev :=
  (d.chanDo t c fun x => { x with fsp := w, switchTo := none, switchPend := false }).fspFrom t (d.fspWant t == 1) c

/-- GATHER_WINDOW_CLOSE: the window closes; a switch that waits for it discards its data and starts; else each rank of `drifts`,
drifting beyond 0.25 UI, starts a partial write training (R236, R238). -/
def execGatherWindowClose (t : Fin 8) (c : Fin 4) (drifts : List (Fin 4)) (dt : Nat) (s : State) : Res := s.run fun d =>
  let d := d.elapse dt
  let x := d.chan t.val c.val
  if !x.gather then d
  else
    let d := d.chanDo t.val c.val fun x => { x with gather := false, switchPend := false }
    if x.switchPend then d.fspFrom t.val (d.fspWant t.val == 1) c.val
    else drifts.foldl (fun d r =>
      (d.onChan t.val c.val fun x => { x with partial_ := addOnce x.partial_ r.val }).raise (tsrc t.val (4 * c.val)) 0x41 2
        (detail := [r.val])) d

/-- PARTIAL_TRAINING_DONE: a rank's partial write training ends; a switch that waited for the last one completes (R236, R238). -/
def execPartialTrainingDone (t : Fin 8) (c : Fin 4) (r : Fin 4) (dt : Nat) (s : State) : Res := s.run fun d =>
  let d := d.elapse dt
  let d := d.onChan t.val c.val fun x => { x with partial_ := x.partial_.filter fun k => k != r.val }
  let x := d.chan t.val c.val
  match x.switchTo with
  | some w => if x.switchPend ∧ x.partial_.isEmpty then (d.fspEnd t.val c.val w).chanServe t.val else d.chanServe t.val
  | none => d.chanServe t.val

/-- FSP_SWITCH_DONE: a channel's switch completes, unless a rank is in partial write training, whose end it awaits (R237,
R238). -/
def execFspSwitchDone (t : Fin 8) (c : Fin 4) (dt : Nat) (s : State) : Res := s.run fun d =>
  let d := d.elapse dt
  let x := d.chan t.val c.val
  match x.switchTo with
  | none => d
  | some w =>
    if x.partial_.isEmpty then (d.fspEnd t.val c.val w).chanServe t.val else d.chanDo t.val c.val fun x => { x with switchPend := true }

/-! ### Self-refresh and status (R239, R241) -/

/-- Rank work that keeps a channel out of self-refresh: migration, DUAL sweep, repair or test of a rank on it (R239). -/
def Dev.chanBusy (d : Dev) (t c : Nat) : Bool :=
  (List.range 16).any fun e =>
    let s := d.steer t e
    let r := d.rank t e
    (decide (e % 4 = c) && ((s.state == 1) || (s.state == 3) || r.pprRun || r.testRun))
      || (decide (s.altCh = c) && s.altValid && ((s.state == 1) || (s.state == 3)))

/-- SELF_REFRESH_ENTRY: a channel idle for IDLE_SR_US with no work on it enters self-refresh (R239); `scrubDue` says that a scrub
read of it is due. -/
def execSelfRefreshEntry (t : Fin 8) (c : Fin 4) (scrubDue : Bool) (dt : Nat) (s : State) : Res := s.run fun d =>
  let d := d.elapse dt
  let x := d.chan t.val c.val
  let us := d.dram.cfg.idleSr
  let waits := d.expo.held.any fun r => (d.lineLoc r.line).t == t.val && (d.lineLoc r.line).ch == c.val
  if x.state = 1 ∧ us ≠ 0 ∧ us * 1000 ≤ d.since x.lastReq ∧ !x.gather ∧ x.partial_.isEmpty ∧ x.switchTo.isNone
      ∧ !(d.chanBusy t.val c.val) ∧ !scrubDue ∧ !waits then
    d.chanDo t.val c.val fun x => { x with state := 2 }
  else d

/-- DRAM_CH_STATUS_UPDATE: every channel's register, at least every 100 ms (R241, R522). -/
def execDramChStatusUpdate (dt : Nat) (s : State) : Res := s.run fun d =>
  (d.elapse dt).periodic 7 100000000 fun d => (List.range 32).foldl (fun d k => d.chanUpd (k / 4) (k % 4)) d

/-! ### Rank steering (R245 to R251) -/

/-- Entries in DEGRADED migrate as soon as a spare is free (R250). -/
def Dev.degradedRetry (d : Dev) (t : Nat) : Dev :=
  (List.range 16).foldl (fun d e =>
    if (d.steerNext t e).state = 4 then
      match d.freeSpare t (e % 4) with
      | some sp => d.migrateTo t e sp (d.steerNext t e).reason
      | none => d
    else d) d

/-- The return of a rank begins: DUAL with SWEEP at 0 (R248). -/
def Dev.returnBegin (d : Dev) (t e : Nat) : Dev := d.steerPut t e fun s => { s with state := 3, sweep := 0, changed := d.now }

/-- What an entry in STEERED begins: hPPR of its listed rows, or the pattern test where none are listed or all are repaired
(R247). -/
def Dev.repairBegin (d : Dev) (t e : Nat) : Dev :=
  if (d.steer t e).state = 2 ∧ !(d.steer t e).testPass ∧ (d.steer t e).reason ≠ 5 then
    d.onRank t e fun r => if r.rows.isEmpty || (d.steer t e).pprDone then { r with testRun := true } else { r with pprRun := true }
  else d

/-- Rank work of a tile goes on once its bulk restore has ended (R120): a return cut off by a loss runs again where it is automatic, and
an entry in DEGRADED takes a free spare, and the repair or test of a rank in STEERED that does not run begins (R247, R248, R250, R251). -/
def Dev.rankWork (d : Dev) (t : Nat) : Dev :=
  let d := (List.range 16).foldl (fun d e =>
    if (d.steerNext t e).state = 2 ∧ (d.steerNext t e).testPass ∧ d.dram.cfg.autoReturn then d.returnBegin t e
    else if (d.rank t e).pprRun ∨ (d.rank t e).testRun then d
    else d.repairBegin t e) d
  d.degradedRetry t

/-- STEER_RECORD_PROGRAMMED: a tile's steering record is in Slate, so its pending changes take effect (R251); an entry in
STEERED begins its repair (R247), and one in DEGRADED takes a spare that is now free (R250). -/
def execSteerRecordProgrammed (t : Fin 8) (dt : Nat) (s : State) : Res := s.run fun d =>
  let d := d.elapse dt
  let mine := d.dram.steerPend.filter fun p => p.tile == t.val
  let d := d.onDram fun x => { x with steerPend := x.steerPend.filter fun p => p.tile != t.val }
  let put1 (d : Dev) (p : SteerPend) : Dev :=
    let was := (d.steer p.tile p.entry).state
    let d := (d.onSteer p.tile p.entry fun _ => p.new).onDram fun x => { x with
      slateSteer := tset x.slateSteer (p.tile * 16 + p.entry) { p.new with sweep := 0 } }
    let d := d.steerUpd p.tile p.entry
    if was ≠ 2 ∧ p.new.state = 2 then d.repairBegin p.tile p.entry else d
  let d := mine.foldl put1 d
  let d := d.onSl t.val fun x => { x with pend := x.pend.filter fun k => k != 0x64 }
  d.degradedRetry t.val

/-- The line of the device at a CLA of the logical rank of entry `e` (R34, R36 read backwards). -/
def Dev.claLine (d : Dev) (t e cla : Nat) : Nat :=
  let S := d.rankBytes
  let row := e / 4
  let ways := if row < d.dram.cfg.n - 1 then 4 else d.lastWays
  let c := 8 + d.dram.cfg.cgrain
  let rla := (cla / 2 ^ c * ways + e % 4) * 2 ^ c + cla % 2 ^ c
  d.dpaOf t (row * 4 * S + rla) / 64

/-- A return is aborted: the entry is STEERED again with SWEEP 0, TEST_PASS clear and REASON 001b (R249). -/
def Dev.returnAbort (d : Dev) (t e : Nat) : Dev :=
  (d.steerPut t e fun s => { s with state := 2, sweep := 0, testPass := false, reason := 1, changed := d.now }).raise
    (tsrc t (4 * (e % 4) + 3)) 0x81 2

/-- The last block of a migration: STEERED, and a failing spare that was the source becomes OFFLINE (R245, R246). -/
def Dev.migrateEnd (d : Dev) (t e : Nat) : Dev :=
  let src := d.migSource t e
  let d := d.steerPut t e fun s => { s with state := 2, changed := d.now }
  let d := if src = e then d else d.steerPut t src fun s => { s with state := 7, altValid := false, changed := d.now }
  d.raise (tsrc t (4 * (e % 4) + 3)) 0x14 0

/-- The last block of a return: NORMAL, the spare free, and what the retirement left is cleared (R248). -/
def Dev.returnEnd (d : Dev) (t e : Nat) : Dev :=
  let s := d.steer t e
  let d := d.steerPut t e fun s => { s with
    state := 0, sweep := 0, altValid := false, altCh := 0, altRank := 0, reason := 0, rowsN := 0, pprDone := false
    testPass := false, changed := d.now }
  let d := d.steerPut t (rankEntry s.altRank s.altCh) fun x => { x with
    state := 5, altValid := false, altCh := 0, altRank := 0, changed := d.now }
  (d.onRank t e fun r => { r with retired := false, rows := [] }).raise (tsrc t (4 * (e % 4) + 3)) 0x14 0

/-- Rank work may go on: the tile is in service with its bulk restore ended, and no seal runs (R92, R120, R252). -/
def Dev.rankMay (d : Dev) (t : Nat) : Bool :=
  !(d.tile t).isolated && !d.sealing.active && decide (d.pkg.safe = 0) && d.restore.ready && (d.restore.allRestored || mbit d.restore.drainDone t)

/-- SWEEP_BLOCK_COPIED: a sweep copies the block at SWEEP; `ue` are the lines of the block (0 to 32,767) found uncorrectable in
the copy's source, with the devices seen failing, `homeBad` says that a return finds one on the home rank or in its read-back (R246, R248, R249). -/
def execSweepBlockCopied (t : Fin 8) (e : Fin 16) (ue : List (Nat × Nat)) (homeBad : Bool) (dt : Nat) (s : State) : Res := s.run fun d =>
  let d := d.elapse dt
  let x := d.steer t.val e.val
  if (d.steerNext t.val e.val).state ≠ x.state ∨ !(d.rankMay t.val) then d
  else
    let lines := ue.map fun i => (d.claLine t.val e.val (x.sweep * 2097152 + i.1 % 32768 * 64), i.2)
    let d := (d.lineRanks (d.claLine t.val e.val (x.sweep * 2097152)) true).foldl (fun d p => d.chanUse t.val p 32768 false false) d
    let last := decide (d.rankBytes / 2097152 ≤ x.sweep + 1)
    match x.state with
    | 1 =>
      let d := lines.foldl (fun d l => d.lineBad l.1 l.2) d
      let d := d.steerNow t.val e.val fun s => { s with sweep := s.sweep + 1 }
      if last then d.migrateEnd t.val e.val else d
    | 3 =>
      if homeBad ∨ !lines.isEmpty then lines.foldl (fun d l => d.lineBad l.1 l.2) (d.returnAbort t.val e.val)
      else
        let d := d.steerNow t.val e.val fun s => { s with sweep := s.sweep + 1 }
        if last then d.returnEnd t.val e.val else d
    | _ => d

/-- HPPR_DONE: hPPR of the listed rows ends: PPR_DONE and the pattern test follow, or the rank stays STEERED (R247). -/
def execHpprDone (t : Fin 8) (e : Fin 16) (ok : Bool) (dt : Nat) (s : State) : Res := s.run fun d =>
  let d := d.elapse dt
  if !(d.rank t.val e.val).pprRun ∨ !(d.rankMay t.val) then d
  else if ok then
    (d.onRank t.val e.val fun r => { r with pprRun := false, testRun := true }).steerNow t.val e.val fun s => { s with pprDone := true }
  else (d.onRank t.val e.val fun r => { r with pprRun := false }).raise (tsrc t.val (4 * (e.val % 4) + 3)) 0x84 2

/-- PATTERN_TEST_DONE: a test of a retired rank, or the daily one of a free spare, ends with the numbers of uncorrectable lines and
corrected events it found, a test in progress at a seal running again after it (R252); `clean0`, `clean1` say that the marked device of each subchannel showed no error (R223, R247,
R248). -/
def execPatternTestDone (t : Fin 8) (e : Fin 16) (ues ces : Nat) (clean0 clean1 : Bool) (dt : Nat) (s : State) : Res := s.run fun d =>
  let d := d.elapse dt
  let pass := decide (ues = 0) && decide (ces ≤ 16)
  let src := tsrc t.val (4 * (e.val % 4) + 3)
  let x := d.steer t.val e.val
  if !(d.rankMay t.val) then d
  else if x.state = 5 then
    if pass then d
    else (d.steerPut t.val e.val fun s => { s with state := 7, reason := 5, changed := d.now }).raise src 0x84 2
  else if x.state = 2 ∧ (d.rank t.val e.val).testRun then
    let d := d.onRank t.val e.val fun r => { r with testRun := false }
    if !pass then (d.steerNow t.val e.val fun s => { s with reason := 5 }).raise src 0x84 2
    else
      let m0 := if clean0 then 15 else x.mark0
      let m1 := if clean1 then 15 else x.mark1
      let d := if m0 = x.mark0 ∧ m1 = x.mark1 then d else d.steerPut t.val e.val fun s => { s with mark0 := m0, mark1 := m1 }
      let wide := (d.rank t.val e.val).rows.isEmpty && !(decide (m0 = 15) && decide (m1 = 15))
      if wide then d
      else
        let d := d.steerNow t.val e.val fun s => { s with testPass := true }
        if d.dram.cfg.autoReturn then d.returnBegin t.val e.val else d
  else d

end Sys2Proof.Machine
end

