-- ==== Sys2Proof/Machine/Rings.lean ====
section
/-! DEFINITION. Commit rings: doorbells, entries, completions, fences, checkpoints, rollbacks, interrupts and quiescing
(chapter 06, R184 to R207). -/

namespace Sys2Proof.Machine

/-- Slots of a ring, 2 ^ n. -/
def Ring.slots (r : Ring) : Nat := 2 ^ r.sizeLog2

/-! ### Interrupts (R202) -/

/-- COALESCE_TIMER_EXPIRY: COAL_TIME has passed since the oldest unsignalled completion (R202). -/
def execCoalesceTimerExpiry (c k : Nat) (dt : Nat) (s : State) : Res := s.run fun d =>
  let d := d.elapse dt
  let r := d.ring c k
  if r.unsig ≠ 0 ∧ r.coalTime * 1000 ≤ d.since r.unsigAt then d.fireRing c k else d

/-- MSIX_VECTOR_UNMASK: the host unmasks a vector; a pending message is sent once the link is up (R202). -/
def execMsixVectorUnmask (h : Fin 2) (v : Fin 2048) (dt : Nat) (s : State) : Res := s.run fun d =>
  let d := d.elapse dt
  let d := d.onHead h.val fun x => { x with msixOpen := addOnce x.msixOpen v.val }
  if (d.head h.val).msixPending.contains v.val ∧ (d.head h.val).linkUp then
    (d.onHead h.val fun x => { x with msixPending := x.msixPending.filter fun m => m != v.val }).emit (.msix h.val v.val)
  else d

/-! ### Completions (R189, R190) -/

/-- The 32 bytes of a completion (R189). -/
def cqeBytes (cid status sqHead opc flags time r0 r1 : Nat) : List Byte :=
  leBytes 2 cid ++ leBytes 2 status ++ leBytes 2 sqHead ++ leBytes 1 opc ++ leBytes 1 flags ++ leBytes 8 time ++ leBytes 8 r0
    ++ leBytes 8 r1

/-- A completion of ring `k` of context `c` at DPA `a` is one line write of the device: it makes its page dirty, so it waits for the
page's fetch or reversal and for its group's arm record as any write does, and is neither paced nor held by the governor (R41, R47, R67,
R123, R184, R189). In a context whose key is lost it is written without making a page dirty (R183). -/
def Dev.writeCqe (d : Dev) (c k a : Nat) (bs : List Byte) (irq : Bool) : Dev :=
  let lo := a % 64
  let r : HeldReq :=
    { head := 3, line := a / 64, write := true, data := BitVec.ofNat 512 (leNat bs * 2 ^ (8 * lo))
      mask := BitVec.ofNat 64 ((2 ^ 32 - 1) * 2 ^ lo), arrive := d.now, session := c, mseq := k, cmd := 3, irq := irq }
  if (d.ctx c).keyLost then
    (if d.poisoned r.line then d else d.onMem fun m => m.setLine r.line r.data r.mask).posted r
  else d.admitReq r

/-- The ring number under which the device's own CHECKPOINTs of a context run: one submitted for a lattice checkpoint or for a stratum
marker (R382, R387). -/
def latRing : Nat := 64

/-- The tag of a lattice checkpoint: REQ_ID and the low 32 bits of the coordinator's unique ID (R382). -/
def ckptTag (reqId uid : Nat) : Nat := reqId % 2 ^ 32 + uid % 2 ^ 32 * 2 ^ 32

/-- The extended status that reports a ring status in a lattice checkpoint's answer (R191, R409). -/
def ringToJcs (st : Nat) : Nat := if st = 0 then 0 else if st = 8 then 0x13 else if st = 4 then 0x10 else 4

/-- The coordinator's command completes (R382). -/
def Dev.ckptEnd (d : Dev) (k : Ckpt) : Dev :=
  let d := d.onLat fun x => { x with ckpts := x.ckpts.map fun y => if y.coord ∧ y.reqId = k.reqId ∧ y.by_ = k.by_ then { y with complete := true } else y }
  if (d.bgOf k.by_).arg = k.reqId then d.bgEnd k.by_ 0xC498 0 else d

/-- A participant's answer is recorded by the coordinator; with every participant's in, the command completes (R382, R395). -/
def Dev.ckptRecord (d : Dev) (uid reqId c status ts : Nat) : Dev :=
  let mine (p : CkptPart) : Bool := p.uid == uid && p.context == c && !p.answered
  match d.lat.ckpts.find? fun k => k.coord && !k.complete && k.reqId == reqId && k.parts.any mine with
  | none => d
  | some k =>
    let put (p : CkptPart) : CkptPart := if mine p then { p with answered := true, status := status, ts := ts } else p
    let k' : Ckpt := { k with parts := k.parts.map put }
    let d := d.onLat fun x => { x with ckpts := x.ckpts.map fun y => if y = k then k' else y }
    let d := if status = 0 then d else d.raise 793 0x17 0 (ctx := c)
    if k'.parts.all fun p => p.answered then d.ckptEnd k' else d

/-- A participant's answer goes to its coordinator, which may be this node (R382). -/
def Dev.ckptReply (d : Dev) (uid reqId c status ts : Nat) : Dev :=
  if uid = d.lat.uid then d.ckptRecord uid reqId c status ts else d.sendMsg uid 5 2 [1, reqId, 0, status, c, ts]

/-- The participant answers its coordinator with T_s or a status (R382). -/
def Dev.ckptAnswer (d : Dev) (c : Nat) (e : RingEntry) (status time : Nat) : Dev :=
  let mine (k : Ckpt) : Bool := !k.coord && k.context == c && ckptTag k.reqId k.uid == e.arg0
  match d.lat.ckpts.find? mine with
  | some k =>
    (d.onLat fun x => { x with ckpts := x.ckpts.filter fun k => !mine k }).ckptReply k.uid k.reqId c (ringToJcs status)
      (if status = 0 then time else 0)
  | none => d

/-- When an entry completes, an ORDERED one that is now the oldest of its running ring starts (R190). -/
def Dev.startHead (d : Dev) (c k : Nat) : Dev :=
  let r := d.ring c k
  match r.entries with
  | e :: l => if e.started || r.state != 1 || d.sealing.frozen then d else d.onRing c k fun r => { r with entries := { e with started := true } :: l }
  | [] => d

/-- Post the completion of an entry of ring `k` of context `c` and drop the entry; a seal between its start and its completion is
flagged (R187, R189, R190, R207). A completion area that is not valid takes none. -/
def Dev.complete (d : Dev) (c k : Nat) (e : RingEntry) (status time r0 r1 : Nat) (poison : Bool := false) : Dev :=
  let r := d.ring c k
  let d := (d.onRing c k fun r => { r with entries := r.entries.filter fun x => x.idx != e.idx || x.submit != e.submit }).startHead c k
  if k = latRing then d.ckptAnswer c e status time
  else if !(d.inCtx c r.cqBase (32 * r.slots)) then d
  else
    let fl := bit r.phase + 2 * bit poison + 4 * bit e.crossed
    let bs := cqeBytes e.cid status r.sqHead e.opc.toNat fl time r0 r1
    let d := d.onRing c k fun r => ringStep { r with
      cqTail := (r.cqTail + 1) % r.slots, phase := if r.cqTail + 1 = r.slots then !r.phase else r.phase
      completed := r.completed + 1 }
    d.writeCqe c k (r.cqBase + 32 * r.cqTail) bs !(e.flags.getLsbD 1)

/-! ### Fetching (R186, R190, R192) -/

/-- An entry as its 64 bytes give it (R188). DESIGN CHOICE (log 249): ARG0 of EXPOSURE_QUERY and NOP is accepted with any value. -/
def parseEntry (idx : Nat) (b : List Byte) : RingEntry :=
  let opc := fieldAt b 0 1
  let fl := fieldAt b 1 1
  let a0 := fieldAt b 8 8
  let a1 := fieldAt b 16 8
  let rest := (b.drop 24).any fun x => x != 0
  let bad := rest || decide (7 < fl) || (fl / 4 % 2 == 1 && opc != 3) || fieldAt b 4 4 != 0
    || (match opc with
      | 1 => decide (2 ^ 33 ≤ a0) || decide (2 ^ 32 ≤ a1)
      | 5 => decide (2 ^ 32 ≤ a0) || a1 != 0
      | 2 => a1 != 0
      | 3 => a1 != 0
      | _ => a1 != 0)
  { idx := idx, opc := BitVec.ofNat 8 opc, flags := BitVec.ofNat 8 fl, cid := fieldAt b 2 2, arg0 := a0, arg1 := a1, badField := bad }

/-- The pages of an entry's range: `[first, first + count)`, or the whole context for a count of 0 and for CHECKPOINT. -/
def Dev.inRange (d : Dev) (c : Nat) (e : RingEntry) (p : Nat) : Bool :=
  if e.opc == 2 || e.arg1 == 0 then d.pageCtx p == some c else decide (e.arg0 ≤ p) && decide (p < e.arg0 + e.arg1)

/-- What a FENCE or CHECKPOINT waits for: for each dirty page of its range, the VSEQ from which a record holds the contents as
of submission (R192). -/
def Dev.fenceWaits (d : Dev) (c : Nat) (e : RingEntry) : List (Nat × Nat) :=
  if e.opc == 1 || e.opc == 2 then
    (d.expo.dirty.filter fun x => d.inRange c e x.page && d.pageCtx x.page == some c).map fun x =>
      match d.expo.inflight.find? fun f => f.page == x.page with
      | some f => (x.page, if f.rewrite then f.vseq + 1 else f.vseq)
      | none => (x.page, d.nextVseq x.page)
  else []

/-- Entries of the package that are started and not completed. -/
def Dev.startedAll (d : Dev) : Nat := sumBy d.ctxs.tbl fun c => sumBy c.2.rings fun r => r.2.entries.countP fun e => e.started

/-- The ring may fetch: running, its context open, no seal, room for one more, and neither limit of started entries reached (R186,
R190, R93). -/
def Dev.mayFetch (d : Dev) (c k : Nat) : Bool :=
  let r := d.ring c k
  let st := (d.ctx c).state
  let unread := (r.cqTail + r.slots - r.cqHead) % r.slots
  r.state == 1 && (st == 1 || st == 5) && !d.sealing.frozen && decide (d.pkg.safe = 0) && r.sqHead != r.sqTail
    && decide (r.entries.length + unread < r.slots - 1) && decide (r.entries.countP (fun e => e.started) < 32)
    && decide (d.startedAll < 262144)

/-- What the read of an entry waits for: its page's demand fetch, its reversal, or a repair (R122, R199, R225). -/
def Dev.entryRead (d : Dev) (a : Nat) : HeldReq := d.holds { line := a / 64 }

/-- Fetch entries in ring order while the ring may: an entry starts when it is fetched, unless it is ORDERED and others are before it; a
poisoned entry read is ring error 03h; one whose page waits raises what it waits for (R122, R187, R190, R199, R328). -/
def Dev.fetch (d : Dev) (c k : Nat) : Nat → Dev
  | 0 => d
  | n + 1 =>
    if !(d.mayFetch c k) then d
    else
      let r := d.ring c k
      let a := r.sqBase + 64 * r.sqHead
      let h := d.entryRead a
      if (d.tile (d.pageTile (linePage h.line))).isolated then d.ringError c k 3
      else if h.forFetch || h.forRev || h.forRepair then d.startHeld h
      else if d.poisoned h.line then d.ringError c k 3
      else
        let e := parseEntry r.sqHead (d.mem.bytes a 64)
        let ws := d.fenceWaits c e
        let e := { e with submit := d.now, waits := ws, nWait := ws.length, started := !e.flags.getLsbD 0 || r.entries.isEmpty }
        (d.onRing c k fun r => ringStep { r with sqHead := (r.sqHead + 1) % r.slots, entries := r.entries ++ [e] }).fetch c k n

/-- Fetch as far as the ring may. -/
def Dev.fetchAll (d : Dev) (c k : Nat) : Dev := d.fetch c k (d.ring c k).slots

/-- Every ring fetches as far as it may: what paused it may have ended (R190). -/
def Dev.fetchRings (d : Dev) : Dev := d.ctxs.tbl.foldl (fun d c => c.2.rings.foldl (fun d r => d.fetchAll c.1 r.1) d) d

/-- The head that presents a doorbell does not own the context: counted as an ownership violation (R186). -/
def Dev.wrongHead (d : Dev) (h c : Nat) : Bool := (d.ctx c).owner != h + 1

/-- A doorbell takes effect (R186, R112, R93). -/
def Dev.doorbellOk (d : Dev) (c k : Nat) : Bool :=
  let st := (d.ctx c).state
  d.restore.ready && (st == 1 || st == 5) && (d.ring c k).state == 1 && !d.pkg.bedrock && decide (k < 64)

/-- A pointer of a ring takes a value; DW_DB_STAT counts a change (R185). -/
def ringSet (changed : Bool) (r : Ring) : Ring := if changed then ringStep r else r

/-- DOORBELL_SQ: head `h` writes TAIL of ring `k` of context `c`; `ue` not zero says that the read of the next entry finds its line
uncorrectable, with the devices seen failing (R186, R187, R190, R225). -/
def execDoorbellSq (h : Fin 2) (c k : Nat) (tail : BitVec 12) (ue : BitVec 10) (dt : Nat) (s : State) : Res := s.run fun d =>
  let d := d.elapse dt
  if d.wrongHead h.val c then d.raise (ownSrc h.val) 0x12 0 (ctx := c) (headOnly := h.val)
  else if !(d.doorbellOk c k) then d
  else if (d.ring c k).slots ≤ tail.toNat then d.ringError c k 1
  else
    let d := d.onRing c k fun r => ringSet (r.sqTail != tail.toNat) { r with sqTail := tail.toNat }
    let r := d.ring c k
    let x := d.entryRead (r.sqBase + 64 * r.sqHead)
    (if ue != 0 && d.mayFetch c k && x.free && !d.poisoned x.line then (d.lineUe x.line ue.toNat).1 else d).fetchAll c k

/-- DOORBELL_CQ: head `h` writes HEAD of ring `k` of context `c`; it may not pass the last completion posted (R186, R187). -/
def execDoorbellCq (h : Fin 2) (c k : Nat) (head : BitVec 12) (dt : Nat) (s : State) : Res := s.run fun d =>
  let d := d.elapse dt
  if d.wrongHead h.val c then d.raise (ownSrc h.val) 0x12 0 (ctx := c) (headOnly := h.val)
  else if !(d.doorbellOk c k) then d
  else
    let r := d.ring c k
    let unread := (r.cqTail + r.slots - r.cqHead) % r.slots
    let taken := (head.toNat + r.slots - r.cqHead) % r.slots
    if r.slots ≤ head.toNat ∨ unread < taken then d.ringError c k 2
    else (d.onRing c k fun r => ringSet (r.cqHead != head.toNat) { r with cqHead := head.toNat }).fetchAll c k

/-! ### Taking up entries (R190, R191, R201) -/

/-- Change an entry of a ring. -/
def Dev.onEntry (d : Dev) (c k : Nat) (e : RingEntry) (f : RingEntry → RingEntry) : Dev :=
  d.onRing c k fun r => { r with entries := r.entries.map fun x => if x.idx = e.idx ∧ x.submit = e.submit then f x else x }

/-- An entry is taken up: its checks are done. -/
def Dev.checkEntry (d : Dev) (c k : Nat) (e : RingEntry) : Dev := d.onEntry c k e fun x => { x with checked := true }

/-- The checks every entry meets (R188, R191): 2 for a reserved bit, 8 for a lost key, else 0. -/
def Dev.entryStatus (d : Dev) (c : Nat) (e : RingEntry) : Nat := if e.badField then 2 else if (d.ctx c).keyLost then 8 else 0

/-- An entry that is refused completes at once with its status (R191). -/
def Dev.rejectEntry (d : Dev) (c k : Nat) (e : RingEntry) (status : Nat) : Dev := d.complete c k e status d.now 0 0

/-- Rollbacks in progress in the package: contexts whose switch has committed, and ROLLBACK entries that wait for theirs (R196). -/
def Dev.rollbacks (d : Dev) : Nat :=
  (d.ctxs.tbl.countP fun c => c.2.tR != 0)
    + sumBy d.ctxs.tbl fun c => sumBy c.2.rings fun r => r.2.entries.countP fun e => e.checked && e.opc == 3

/-- Conflicting work (R196): another started entry of the context, a rollback of it, or 64 rollbacks in the package. -/
def Dev.rollbackBusy (d : Dev) (c k : Nat) (e : RingEntry) : Bool :=
  ((d.ctx c).rings.any fun r => r.2.entries.any fun x => x.started && !(r.1 == k && x.idx == e.idx && x.submit == e.submit))
    || (d.ctx c).state == 5 || (d.ctx c).tR != 0 || decide (64 ≤ d.rollbacks)

/-- A ROLLBACK is checked, and then waits for its switch (R191, R196). -/
def Dev.takeRollback (d : Dev) (c k : Nat) (e : RingEntry) : Dev :=
  match (d.strataOf c).find? fun s => s.time == e.arg0 with
  | none => d.rejectEntry c k e 4
  | some st =>
    if st.damaged ∧ !e.flags.getLsbD 2 then d.rejectEntry c k e 5
    else if d.rollbackBusy c k e then d.rejectEntry c k e 6
    else (d.checkEntry c k e).onEntry c k e fun x => { x with ts := e.arg0 }

/-- A started entry is taken up: a reserved opcode, a reserved bit and a lost key are refused; a FENCE, CHECKPOINT or ROLLBACK goes on
to wait for what it needs; the others complete with their results (R188, R191, R196, R201). -/
def Dev.takeUp (d : Dev) (c k : Nat) (e : RingEntry) : Dev :=
  let opc := e.opc.toNat
  if opc = 0 ∨ 6 < opc then d.rejectEntry c k e 1
  else if d.entryStatus c e ≠ 0 then d.rejectEntry c k e (d.entryStatus c e)
  else match opc with
    | 1 => if e.arg1 ≠ 0 ∧ !(d.inCtx c (e.arg0 * 4096) (e.arg1 * 4096)) then d.rejectEntry c k e 3 else d.checkEntry c k e
    | 2 => d.checkEntry c k e
    | 3 => d.takeRollback c k e
    | 4 => d.complete c k e 0 d.now (4096 * d.xCtx c) (d.expo.gov.pkgState + 8 * bit (d.expo.gov.pkgState == 4))
    | 5 => (d.onMeter c fun m => { m with mark := e.arg0, flags := m.flags ||| 4 }).complete c k e 0 d.now (d.ctx c).meterStart 0
    | _ => d.complete c k e 0 d.now 0 0

/-- The first started entry of a ring with opcode test `f` that has not been taken up. -/
def Dev.nextUp (d : Dev) (c k : Nat) (f : Nat → Bool) : Option RingEntry :=
  (d.ring c k).entries.find? fun e => e.started && !e.checked && f e.opc.toNat

/-- The first started entry of a ring with opcode test `f` is taken up, but not in a seal (R93, R190). -/
def Dev.takeNext (d : Dev) (c k : Nat) (f : Nat → Bool) : Dev :=
  if d.sealing.frozen ∨ d.pkg.safe ≠ 0 then d
  else match d.nextUp c k f with
    | some e => (d.takeUp c k e).fetchRings
    | none => d

/-- FENCE: a started FENCE is taken up; its dirty pages were recorded at submission for priority trickle (R168, R191, R192). An entry
with a reserved opcode completes with INVALID_OPCODE. -/
def execFence (c k : Nat) (dt : Nat) (s : State) : Res := s.run fun d =>
  (d.elapse dt).takeNext c k fun o => o == 1 || o == 0 || decide (6 < o)

/-- CHECKPOINT: a started CHECKPOINT is taken up, which fences the whole context (R194). -/
def execCheckpoint (c k : Nat) (dt : Nat) (s : State) : Res := s.run fun d => (d.elapse dt).takeNext c k fun o => o == 2

/-- ROLLBACK: a started ROLLBACK is checked and waits for its switch (R191, R196). -/
def execRollback (c k : Nat) (dt : Nat) (s : State) : Res := s.run fun d => (d.elapse dt).takeNext c k fun o => o == 3

/-- EXPOSURE_QUERY: the context's exposure in bytes, the package state and RISK (R201). -/
def execExposureQuery (c k : Nat) (dt : Nat) (s : State) : Res := s.run fun d => (d.elapse dt).takeNext c k fun o => o == 4

/-- METER_MARK: the mark goes into the current metering record, whose MINUTE_START is returned (R201, R209). -/
def execMeterMark (c k : Nat) (dt : Nat) (s : State) : Res := s.run fun d => (d.elapse dt).takeNext c k fun o => o == 5

/-- NOP: completes with no effect (R201). -/
def execNop (c k : Nat) (dt : Nat) (s : State) : Res := s.run fun d => (d.elapse dt).takeNext c k fun o => o == 6

/-! ### FENCE (R192) -/

/-- An entry taken up waits for no record any longer: each page it waited for has its record, or has left exposure. -/
def Dev.fenceDone (d : Dev) (e : RingEntry) : Bool := e.checked && e.waits.all fun w => !(d.isDirty w.1) && !(d.flying w.1)

/-- Some page of an entry's range lies on an isolated tile, where it reads as poison (R328). -/
def Dev.rangeIsolated (d : Dev) (c : Nat) (e : RingEntry) : Bool :=
  let whole := e.opc == 2 || e.arg1 == 0
  (tiles8.filter fun t => (d.tile t).isolated).any fun t => (d.ctxGrans c).any fun g => d.granOn g t
    && (whole || (d.granParts g t).any fun r => decide (r.1 < (e.arg0 + e.arg1) * 4096) && decide (e.arg0 * 4096 < r.1 + r.2))

/-- Some line of an entry's range is poisoned: in DRAM, by the poison set of a page not yet restored, or on an isolated tile (R121, R192,
R328). -/
def Dev.rangePoison (d : Dev) (c : Nat) (e : RingEntry) : Bool :=
  (d.expo.poisonLines.any fun l => d.inRange c e (linePage l))
    || (d.strata.loc.any fun l => l.poison && !d.restored l.page && d.inRange c e l.page) || d.rangeIsolated c e

/-- TIME of a fence: when the last waited-for record became durable, or the submission (R192). -/
def Dev.fenceTime (d : Dev) (e : RingEntry) : Nat :=
  if e.nWait = 0 then e.submit else if e.lastDurable = 0 then d.now else e.lastDurable

/-- Post the completion of a FENCE, with KEY_LOST where the context's key has been lost (R183, R191, R192, R209). -/
def Dev.fenceEnd (d : Dev) (c k : Nat) (e : RingEntry) : Dev :=
  if (d.ctx c).keyLost then d.complete c k e 8 (d.fenceTime e) e.nWait e.submit (d.rangePoison c e)
  else
    let d := d.onMeter c fun m => { m with fences := m.fences + 1 }
    d.complete c k e 0 (d.fenceTime e) e.nWait e.submit (d.rangePoison c e)

/-- FENCE_COMPLETE: the last waited-for record of a FENCE of the ring is durable, so its completion is posted (R192). -/
def execFenceComplete (c k : Nat) (dt : Nat) (s : State) : Res := s.run fun d =>
  let d := d.elapse dt
  if d.sealing.frozen ∨ d.pkg.safe ≠ 0 then d
  else match (d.ring c k).entries.find? fun e => e.opc == 1 && d.fenceDone e with
    | some e => (d.fenceEnd c k e).fetchRings
    | none => d

/-! ### CHECKPOINT (R194) -/

/-- CHECKPOINT_STRATUM_SET: the fence of every tile is done, so the lead sets T_s (R194). -/
def execCheckpointStratumSet (c k : Nat) (dt : Nat) (s : State) : Res := s.run fun d =>
  let d := d.elapse dt
  match (d.ring c k).entries.find? fun e => e.opc == 2 && d.fenceDone e && e.ts == 0 with
  | some e => if d.sealing.frozen ∨ d.pkg.safe ≠ 0 then d else d.onEntry c k e fun x => { x with ts := max 1 d.now }
  | none => d

/-- A stratum of a context with an outgoing replica stream makes a marker due behind every page whose bit is set (R387). -/
def Dev.markStreams (d : Dev) (c ts : Nat) : Dev :=
  d.onLat fun x => { x with streams := x.streams.map fun s =>
    if s.outgoing && !s.migration && s.local_ == c && s.state != 4 then
      { s with marks := s.marks ++ [(ts, s.bits.map fun b => b.1)] } else s }

/-- The tiles of a mask program their parts of a CHECKPOINT's stratum, each once (R194). -/
def Dev.ckptTiles (d : Dev) (c k : Nat) (e : RingEntry) (m : BitVec 8) : Dev :=
  let ts := (d.ctxTiles c).filter fun t => mbit m t && !mbit e.done t
  (ts.foldl (fun d t => d.stratumOn c e.ts e.arg0 t) d).onEntry c k e fun x => { x with done := x.done ||| maskOf ts }

/-- CHECKPOINT_COMPLETE: the STRATUM entries of the tiles `m` are durable; with every tile's, the stratum stands and the completion is
posted (R194, R195). DESIGN CHOICE (log 245): RESULT1 counts the strata after the release that the creation brings. -/
def execCheckpointComplete (c k : Nat) (m : BitVec 8) (dt : Nat) (s : State) : Res := s.run fun d =>
  let d := d.elapse dt
  match (d.ring c k).entries.find? fun e => e.opc == 2 && e.checked && e.ts != 0 with
  | some e =>
    if d.sealing.frozen ∨ d.pkg.safe ≠ 0 then d
    else if (d.ctx c).keyLost then (d.complete c k e 8 d.now 0 0).fetchRings
    else
      let d := d.ckptTiles c k e m
      if (d.ctxTiles c).all fun t => mbit (e.done ||| m) t then
        let d := (d.createStratum c e.ts e.arg0).markStreams c e.ts
        (d.complete c k e 0 e.ts e.ts (d.strataOf c).length).fetchRings
      else d
  | none => d

/-- STRATUM create entries of a tile with no stratum, and not released yet: those of a CHECKPOINT that a seal or loss cut short (R194). -/
def Dev.partialStrata (d : Dev) (t : Nat) : List LedgerEntry :=
  let l := (d.fl t).ledger
  l.filter fun e => e.typ == 0x11 && e.b == 1 && !(d.strata.strata.any fun s => s.context == e.a && s.time == e.c)
    && !(l.any fun x => x.typ == 0x11 && x.b == 2 && x.a == e.a && x.c == e.c)
    && !(l.any fun x => x.typ == 0x12 && x.b == 0 && x.a == e.a && decide (e.lseq < x.lseq))

/-- Mount releases the partial entries of strata that do not stand (R194). -/
def Dev.releasePartial (d : Dev) : Dev :=
  d.inSvc.foldl (fun d t => (d.partialStrata t).foldl (fun d e => d.ledger t 0x11 e.a 2 e.c) d) d

/-! ### ROLLBACK (R196 to R200) -/

/-- The pages of a context's P1 and P2 granules, but those of isolated tiles. -/
def Dev.ctxPages (d : Dev) (c : Nat) : List Nat :=
  ((d.ctxGrans c).filter fun g => (d.gran g).cls == 1 || (d.gran g).cls == 2).flatMap fun g =>
    ((List.range 262144).map fun i => g * 262144 + i).filter fun p => !(d.tile (d.pageTile p)).isolated

/-- ROLLBACK_SWITCH_COMMIT: no capture of a page of the context is in flight, so dirty bits clear, rollback bits are set and
ROLLBACK_PENDING is durable; the ROLLBACK completes (R197). -/
def execRollbackSwitchCommit (c k : Nat) (dt : Nat) (s : State) : Res := s.run fun d =>
  let d := d.elapse dt
  match (d.ring c k).entries.find? fun e => e.opc == 3 && e.checked with
  | none => d
  | some e =>
    if (d.expo.inflight.any fun f => d.pageCtx f.page == some c) ∨ d.sealing.frozen ∨ d.pkg.safe ≠ 0 then d
    else if (d.ctx c).keyLost then (d.complete c k e 8 d.now 0 0).fetchRings
    else
      let d := d.cleanPages fun p => d.pageCtx p == some c
      let d := d.onCtxs fun x => { x with rollback := x.rollback ++ d.ctxPages c }
      let d := d.onCtx c fun x => { x with tSRb := e.ts, tR := d.now, allowDamaged := e.flags.getLsbD 2 }
      let d := if (d.ctx c).state = 1 then d.ctxTo c 5 else d.ctxSave c
      let d := d.onMeter c fun m => { m with rollbacks := m.rollbacks + 1, flags := m.flags ||| 0x10 }
      ((d.complete c k e 0 (d.ctx c).tR e.ts 0).rollbackEnd c).fetchRings

/-- The stratum of a context's rollback in progress; none where it has been released meanwhile. DESIGN CHOICE (log 248): such a release is
allowed, and the pages still to be reverted then have no pinned version, so they revert to zero. -/
def Dev.rbStratum (d : Dev) (c : Nat) : Option Stratum := (d.strataOf c).find? fun s => s.time == (d.ctx c).tSRb

/-- A page is reverted to its pinned version, or to zero; a reversal record is written where that is not the current record, POISONED
where the version is lost or could not be read (`out` 2), which the stratum then loses too (R143, R198). `out` 1: the read needed the soft
decode (R142). False where no slot is left for the record. -/
def Dev.revert (d : Dev) (c p out : Nat) : Dev × Bool :=
  let t := d.pageTile p
  let st := d.rbStratum c
  let v : Option PageRec := match st with | some s => d.pinned s p | none => none
  let lost : Bool := match st with | some s => s.damage.contains p | none => false
  let unread := v.isSome && out == 2
  let bad := lost || unread
  let same : Bool := !bad && (match v with | some r => d.isCurrent r | none => (d.loc p).kind == 0)
  let img := if bad then [] else (v.map fun r => r.img).getD []
  let mask := if bad then List.range 64 else (v.map fun r => r.pmask).getD []
  let el := uniform img (pageBase p)
  let x := if same then (d, some (0, 0)) else d.drawSlot t 0 el
  match x.2 with
  | none => (x.1, false)
  | some a =>
    let d := match v with
      | some r => if out = 1 then x.1.onBlk t r.block fun b => { b with refresh := true } else x.1
      | none => x.1
    let d := if same then d
      else (d.putRec t (d.recOf t { page := p, img := img, pmask := mask, vseq := d.nextVseq p, time := d.now, elided := el, addr := a.1, hidx := a.2 })).issue
        t (npOf a.1)
    let d := match v with
      | some r => if unread then (d.strataLost t r).raise (tsrc t 76) 0x83 3 (atag := some p) (ctx := c) (detail := [p]) else d
      | none => d
    let d := (d.pageClearPoison p).loadPage p img
    (if bad then d.pagePoison p 1 else mask.foldl (fun d i => d.storePoison (p * 64 + i)) d, true)

/-- The page that bulk reversal takes next on a tile: P1 before P2, ascending DPA (R198). -/
def Dev.bulkReversal (d : Dev) (t : Nat) : Option Nat :=
  argMin (d.ctxs.rollback.filter fun p => d.pageTile p == t) fun p => p + (if d.pageCls p = 1 then 0 else 2 ^ 33)

/-- Something waits for a page's reversal: a held request, or a ring's next entry (R190, R199). -/
def Dev.reversalAsked (d : Dev) (p : Nat) : Bool :=
  (d.expo.held.any fun r => r.forRev && linePage r.line == p)
    || d.ctxs.tbl.any fun c => c.2.rings.any fun r => d.mayFetch c.1 r.1 && linePage ((r.2.sqBase + 64 * r.2.sqHead) / 64) == p

/-- REVERSAL_COMPLETE: the reversal of a page that something waits for, or of bulk reversal's next one, completes: its bit clears and its
requests proceed; `out` says how its pinned version was read: 0 well, 1 by the soft decode, 2 not at all. From stage 2 of a seal none
runs (R92, R125, R142, R143, R198, R199). -/
def execReversalComplete (p : Nat) (out : Fin 3) (dt : Nat) (s : State) : Res := s.run fun d =>
  let d := d.elapse dt
  let t := d.pageTile p
  if d.ctxs.rollback.contains p ∧ d.pkg.safe = 0 ∧ !(d.sealing.active && decide (2 ≤ d.sealing.stage))
      ∧ (d.reversalAsked p ∨ d.bulkReversal t = some p) then
    match d.pageCtx p with
    | none => d.onCtxs fun x => { x with rollback := x.rollback.filter fun q => q != p }
    | some c =>
      let x := d.revert c p out.val
      let d := x.1
      if !x.2 then d
      else
        let d := d.onCtxs fun x => { x with rollback := x.rollback.filter fun q => q != p }
        let d := d.markRestored p
        (((d.fetchDone p).revDone fun q => q == p).rollbackEnd c).fetchRings
  else d

/-- A page awaits reversal: its current record is older than the switch, or it has none (R200). -/
def Dev.awaitsReversal (d : Dev) (p : Nat) : Bool :=
  match d.pageCtx p with
  | some c => (d.ctx c).tR != 0 && (match d.curRec p with
    | some r => decide (r.time < (d.ctx c).tR)
    | none => true)
  | none => false

/-- ROLLBACK_BITMAP_REBUILT: after early open a tile has rebuilt its rollback bitmap from the locator; held requests of pages
that need no reversal proceed (R200). -/
def execRollbackBitmapRebuilt (t : Fin 8) (dt : Nat) (s : State) : Res := s.run fun d =>
  let d := d.elapse dt
  let cs := (d.ctxs.tbl.filter fun c => mbit c.2.rebuild t.val).map fun c => c.1
  let ps := (cs.flatMap d.ctxPages).filter fun p => d.pageTile p == t.val && d.awaitsReversal p
  let d := d.onCtxs fun x => { x with rollback := x.rollback ++ ps.filter fun p => !x.rollback.contains p }
  let d := cs.foldl (fun d c => d.onCtx c fun x => { x with rebuild := mclr x.rebuild t.val }) d
  let d := d.revDone fun p => d.pageTile p == t.val && !(d.ctxs.rollback.contains p)
  (cs.foldl Dev.rollbackEnd d).fetchRings

/-! ### Quiescing (R203) -/

/-- Entries fetched and not started complete with ABORTED_DISABLED (R203). -/
def Dev.abortUnstarted (d : Dev) (c k : Nat) : Dev :=
  ((d.ring c k).entries.filter fun e => !e.started).foldl (fun d e => d.complete c k e 7 d.now 0 0) d

/-- A rollback that has not reached its switch ends with ABORTED_DISABLED when its ring or context is disabled (R203). -/
def Dev.abortRollback (d : Dev) (c k : Nat) : Dev :=
  ((d.ring c k).entries.filter fun e => e.started && e.opc == 3).foldl (fun d e => d.complete c k e 7 d.now 0 0) d

/-- A ring enters QUIESCING (R203). -/
def Dev.quiesceRing (d : Dev) (c k : Nat) : Dev :=
  ((d.onRing c k fun r => ringStep { r with state := 2 }).abortUnstarted c k).abortRollback c k

/-- A context enters QUIESCING with its rings (R203). -/
def Dev.quiesceCtx (d : Dev) (c : Nat) : Dev :=
  let d := d.ctxTo c 2
  ((d.ctx c).rings.filter fun r => r.2.state == 1 || r.2.state == 4).foldl (fun d r => d.quiesceRing c r.1) d

/-- A ring has no started entry. -/
def Ring.idle (r : Ring) : Bool := !(r.entries.any fun e => e.started)

/-- QUIESCE_COMPLETE: nothing remains started on quiescing rings of the context, or on the context, so they are DISABLED; the
commands that waited complete (R203). A quiescing ring that met a ring error keeps STATE 4, which only a configuration ends; its disable
completes with its last entry (R187). -/
def execQuiesceComplete (c : Nat) (dt : Nat) (s : State) : Res := s.run fun d =>
  let d := d.elapse dt
  let ks := ((d.ctx c).rings.filter fun r => (r.2.state == 2 || r.2.state == 4) && r.2.idle).map fun r => r.1
  let d := ks.foldl (fun d k =>
    (d.onRing c k fun r => if r.state = 2 then ringStep { r with state := 3 } else r).bgEndAny 0xC421 0 fun a => a == c * 64 + k) d
  let x := d.ctx c
  if x.state = 2 ∧ (x.rings.all fun r => r.2.idle) ∧ !(d.ctxs.rollback.any fun p => d.pageCtx p == some c) then
    (d.ctxTo c 3).bgEndAny 0xC415 0 fun a => a == c
  else d

/-! ### After a seal (R93, R207) -/

/-- Rings resume at early open or a warm return, and what completes from now on of the entries they hold carries AFTER_SEAL: entries not
started complete with ABORTED_DISABLED, as does a ROLLBACK short of its switch; the others are taken up; a FENCE whose pages are durable
completes; a CHECKPOINT whose stratum did not come to stand completes with NO_STRATUM (R93, R194, R207). `kept` says that DRAM was kept,
so that other fences go on. DESIGN CHOICE (log 246): SQ_TAIL and CQ_HEAD, which R206 does not persist, stay as the host last wrote them.
DESIGN CHOICE (log 247): with DRAM lost, a CHECKPOINT still in its fence phase completes with NO_STRATUM too. -/
def Dev.resumeRing (d : Dev) (c k : Nat) (kept : Bool) : Dev :=
  let d := d.onRing c k fun r => { r with entries := r.entries.map fun e => { e with crossed := true } }
  let d := (d.abortUnstarted c k).abortRollback c k
  let d := ((d.ring c k).entries.filter fun e => !e.checked).foldl (fun d e => d.takeUp c k e) d
  let d := ((d.ring c k).entries.filter fun e => e.opc == 1 && (d.fenceDone e || !kept)).foldl (fun d e => d.fenceEnd c k e) d
  let d := ((d.ring c k).entries.filter fun e => e.opc == 2 && (e.ts != 0 || !kept)).foldl (fun d e => d.complete c k e 4 d.now 0 0) d
  d.fetchAll c k

/-- Every ring of every open context resumes, with the partial entries of strata that do not stand released (R194). -/
def Dev.resumeRings (d : Dev) (kept : Bool) : Dev :=
  (d.ctxs.tbl.foldl (fun d c => c.2.rings.foldl (fun d r => d.resumeRing c.1 r.1 kept) d) d).releasePartial

end Sys2Proof.Machine
end

