-- ==== Sys2Proof/Machine/Seal.lean ====
section
/-! DEFINITION. Sealing on power failure: triggers, stages, warm return, RESET_N, test seals and the seal event record
(chapter 03). A tile's seal stage: 1 frozen, 2 metadata, 3 landing, 4 landing ended, 5 nothing left to write. -/

namespace Sys2Proof.Machine

/-! ### Status (R91) -/

/-- DW_SEAL_STATUS (R91). -/
def Dev.sealUpd (d : Dev) : Dev :=
  let s := d.sealing
  d.dwUpd 0x600 16
    (put 0 3 s.stage + put 3 1 (bit s.active) + put 4 4 s.cause + put 8 8 s.t3Done.toNat + put 16 8 s.t4Done.toNat
      + put 24 1 (bit s.mainsBack) + put 25 1 (bit s.stopped) + put 26 1 (bit s.test) + put 32 16 ((d.xPkg + 262143) / 262144))

/-- DW_SEAL_STATUS after a package reset reports the last seal that Slate holds (R91, R108). DESIGN CHOICE (log 255): the stage of a record is 4
where it tells of a warm return or a test seal, 5 for cause 3h, else 6; what remained is the exposure at its start less what it landed. -/
def Dev.sealReport (d : Dev) : Dev :=
  match d.sealing.last with
  | [] => d
  | r :: _ =>
    let fl (i : Nat) : Bool := mbit r.flags i
    let st := if fl 0 || fl 3 then 4 else if r.cause = 3 then 5 else 6
    d.dwSet 0x600 (put 0 3 st + put 4 4 r.cause + put 8 8 r.t3Mask.toNat + put 16 8 r.t4Mask.toNat + put 24 1 (bit (fl 1)) + put 25 1 (bit (fl 2))
      + put 26 1 (bit (fl 0)) + put 32 16 ((r.expoStart - (r.p1Landed + r.p2Landed) + 262143) / 262144))

/-- Set the stage of a tile; the package's stage is the furthest reached. -/
def Dev.toStage (d : Dev) (t st : Nat) : Dev :=
  d.onSealing fun s => { s with tileStage := tset s.tileStage t st, stage := max s.stage (min st 4) }

/-! ### The confirmation window of a try (R476, R480) -/

/-- The window stops counting. -/
def Dev.pauseWindow (d : Dev) : Dev :=
  d.onUpd fun u => match u.windowFrom with
    | some t => { u with windowLeft := u.windowLeft - (d.now - t), windowFrom := none }
    | none => u
/-- The window counts again. -/
def Dev.resumeWindow (d : Dev) : Dev :=
  d.onUpd fun u => if u.windowLeft ≠ 0 ∧ u.windowFrom.isNone then { u with windowFrom := some d.now } else u

/-! ### Stages 0 and 1 (R82, R84, R92, R93) -/

/-- Work in progress at the start of a seal (R92): training windows, set point changes (one that runs completes, one put off is
dropped), caps, assist, rests, capacity tests, lattice services and migrations. -/
def Dev.sealWork (d : Dev) : Dev :=
  let f (c : Chan) : Chan := match c.switchTo with
    | some w => if c.switchPend then { c with gather := false, partial_ := [], switchPend := false, switchTo := none, fsp := w, cap := 0 }
      else { c with gather := false, partial_ := [], cap := 0 }
    | none => { c with gather := false, partial_ := [], switchPend := false, cap := 0 }
  let d := tiles8.foldl (fun d t => d.tileChans t f) d
  let d := (d.onEnergy fun e => { e with assistSet := [] }).abandonRest.interruptTests
  let stop (t : Stream) : Stream :=
    if t.migration ∧ (t.state = 0x10 ∨ t.state = 0x11 ∨ t.state = 0x12) then { t with state := 0x14 } else t
  let d := d.onLat fun l => { l with leaving := true, streams := l.streams.map stop, ckpts := l.ckpts.filter fun c => c.coord }
  (d.chunkAbort 8).pauseWindow

/-- Requests that a head had accepted before the freeze point: governor holds are released at once, and what nothing else
holds is performed; paced writes complete (R84). -/
def Dev.freezeAccepted (d : Dev) : Dev :=
  let gone := d.ctxs.rtPend.isEmpty
  let d := d.onExpo fun e => { e with held := e.held.map fun r => { r with forGov := false, forClass := r.forClass && !gone } }
  let due := d.expo.paced
  let d := d.onExpo fun e => { e with paced := [] }
  (due.foldl Dev.pacedDone d).serve

/-- Requests that a test seal has queued are refused as in stage 1 (R106). -/
def Dev.refuseTest (d : Dev) : Dev :=
  let q := d.expo.held.filter fun r => r.forTest
  q.foldl Dev.refuseErr (d.onExpo fun e => { e with held := e.held.filter fun r => !r.forTest })

/-- Stage 0 of a seal: its fields, and the status of that stage (R82, R91). -/
def Dev.sealStart (d : Dev) (cause : Nat) (test : Bool) : Dev :=
  let ea := d.eAvailMj []
  let hot := d.therm.sens.foldl (fun a e => max a e.2.temp) (d.sens 0).temp
  let d := d.onSealing fun s => { s with
    active := true, stage := 0, tileStage := [], cause := cause, test := test, tTrigger := d.now, later := 15, t3Done := 0
    t4Done := 0, metaOk := 0, hdrTest := 0, inService := maskOf d.inSvc, mainsBack := false, stopped := false, frozen := false
    noLand := 0, takeover := false, isoDuring := false, lapseAtTrigger := d.expo.gov.pkgState == 4, pkgRecord := false
    rec_ := { rseq := s.nextRseq, tTrigger := d.now, cause := cause, eAvail := ea / 1000, tempMax := hot }, testStep := 0, landed := 0, landedT := [], p1Start := []
    p2Start := [], fillPages := 0
    eDrawn := 0, eDrawnPre := 0, eDrawn3 := 0, hibernating := false }
  let d := [0, 1, 2].foldl (fun d s => d.onSrc s fun r => { r with uHeld := r.uMj }) d
  let d := d.onPanel fun p => { p with removal := if cause = 4 then p.removal else 0 }
  (d.liveCtxs.foldl (fun d c => d.cutMeter c 1) d).sealUpd

/-- The freeze of stage 1 (R82, R84, R92, R93, R256). -/
def Dev.sealFreeze (d : Dev) : Dev :=
  let d := d.sealWork
  let d := d.onSealing fun s => { s with stage := 1, frozen := true, tileStage := d.inSvc.map fun t => (t, 1) }
  [0, 1].foldl Dev.bayUpd d.freezeAccepted.sealUpd

/-- A real seal begins (R79, R82, R92). -/
def Dev.sealBegin (d : Dev) (cause : Nat) : Dev := (((d.sealStart cause false).abortBg).onCtxs fun c => { c with rtPend := [] }).sealFreeze

/-- The seal header of a tile (R85, R155): cause, TEST, trigger time, exposure per class at the end of stage 1, count of stage 2 metadata
records, reservation blocks, LSEQ of the latest OPEN. DESIGN CHOICE (log 250): the exposure is the tile's own. -/
def Dev.sealHeader (d : Dev) (t : Nat) : Dev :=
  let x := d.sealing
  let f := d.fl t
  let n := (f.metas.filter fun m => m.rtype == 3 && f.resv.contains (blkOf m.addr)).length
  let opn := ((d.lastEntry t fun e => e.typ == 0x0D).map fun e => e.lseq).getD 0
  let ext := n :: ((List.range 16).map fun i => f.resv.getD i 0) ++ [opn]
  (d.cairn t [{ typ := 9, a := x.cause, b := tget x.p1Start 0 t, c := tget x.p2Start 0 t, time := x.tTrigger, test := x.test, ext := ext }]).onSealing fun s =>
    { s with hdrTest := if s.test then mset s.hdrTest t else mclr s.hdrTest t }

/-- A test seal becomes a real seal of cause 0h or 1h from the stage it has reached (R106): each tile past stage 2 programs a
new header without the TEST flag before it lands any further page, and tiles land all exposure and write their records
again. -/
def Dev.testToReal (d : Dev) (cause : Nat) : Dev :=
  let past := d.inSvc.filter fun t => decide (3 ≤ d.tileStage t)
  let begun := decide (1 ≤ d.sealing.stage)
  let d := d.onSealing fun s => { s with
    cause := cause, test := false, testStep := 0, t4Done := 0, noLand := 0, later := s.later
    rec_ := { s.rec_ with cause := cause }
    t3Done := past.foldl (fun m t => if d.xTile t = 0 ∧ mbit s.t3Done t then m else mclr m t) s.t3Done
    tileStage := s.tileStage.map fun e =>
      if e.2 ≤ 3 then e else (e.1, if d.xTile e.1 = 0 then 4 else 3) }
  let d := ((past.foldl Dev.sealHeader d).refuseTest.abortBg).onCtxs fun c => { c with rtPend := [] }
  let d := if begun then (d.freezeAccepted).sealUpd else d.sealFreeze
  past.foldl Dev.landNext d

/-- A trigger of R79 but for the test seal is taken (R79 to R81, R106, R113, R484): a seal begins; while one runs the trigger
is recorded only; a test seal becomes real on a power-fail trigger; before early open, from the power sequence on, and in Bedrock no seal runs
and the device hibernates; in a safe state without a seal, and while it hibernates, nothing follows. -/
def Dev.trigger (d : Dev) (cause : Nat) : Dev :=
  if d.pkg.safe = 2 then d
  else if !d.panel.coreUp then (if d.panel.pwrEn then d.hibernateUnsealed cause else d)
  else if d.sealing.active then
    if d.sealing.test ∧ cause ≤ 1 then d.testToReal cause
    else d.onSealing fun s => { s with later := if s.later = 15 then cause else s.later }
  else if !d.restore.ready ∨ d.pkg.bedrock then d.hibernateUnsealed cause
  else d.sealBegin cause

/-- The filter of R80 on an input held for `width` ns: below 200 ns ignored, from 1 µs on taken, between the two as the
environment shows it. -/
def filterTakes (width : Nat) (taken : Bool) : Bool := decide (1000 ≤ width) || (decide (200 ≤ width) && taken)

/-- A power input has been taken as failed: mains is not good (R99), and capacity tests are interrupted (R272). -/
def Dev.mainsLost (d : Dev) : Dev :=
  let d := d.onPanel fun p => { p with
    mainsGood := false, goodSince := none, notGoodAt := if p.notGoodAt.isSome then p.notGoodAt else some d.now }
  d.interruptTests

/-- PWR_FAIL_N_ASSERT: PWR_FAIL_N asserted for `width` ns (R79, R80). -/
def execPwrFailNAssert (width : Nat) (taken : Bool) (dt : Nat) (s : State) : Res := s.run fun d =>
  let d := d.elapse dt
  if filterTakes width taken then ((d.onPanel fun p => { p with pwrFailN := false }).mainsLost).trigger 0 else d

/-- VIN_SENSE_LOW: VIN_SENSE below its threshold for `width` ns (R79, R80). -/
def execVinSenseLow (width : Nat) (taken : Bool) (dt : Nat) (s : State) : Res := s.run fun d =>
  let d := d.elapse dt
  if filterTakes width taken then ((d.onPanel fun p => { p with vinOk := false }).mainsLost).trigger 1 else d

/-- Both power inputs are good: the 100 ms run (R99). -/
def Dev.inputsGood (d : Dev) : Dev :=
  d.onPanel fun p => { p with goodSince := if p.pwrFailN ∧ p.vinOk ∧ p.goodSince.isNone then some d.now else p.goodSince }

/-- PWR_FAIL_N_DEASSERT (R99). -/
def execPwrFailNDeassert (dt : Nat) (s : State) : Res := s.run fun d =>
  ((d.elapse dt).onPanel fun p => { p with pwrFailN := true }).inputsGood

/-- VIN_SENSE_HIGH (R99). -/
def execVinSenseHigh (dt : Nat) (s : State) : Res := s.run fun d =>
  ((d.elapse dt).onPanel fun p => { p with vinOk := true }).inputsGood

/-- MAINS_GOOD: both inputs good for 100 ms (R99); a seal that runs notes it (R81, R91). While the device hibernates, whether
mains came back after at least 1 s without it is kept for R494. -/
def execMainsGood (dt : Nat) (s : State) : Res := s.run fun d =>
  let d := d.elapse dt
  let due : Bool := match d.panel.goodSince with | some t => decide (100000000 ≤ d.since t) | none => false
  if due && !d.panel.mainsGood then
    let fresh : Bool := match d.panel.notGoodAt with | some t => decide (1000000000 ≤ d.since t) | none => false
    let d := d.onPanel fun p => { p with
      mainsGood := true, notGoodAt := none, freshOk := (p.freshOk || fresh) && !p.coreUp }
    let d := d.onRestore fun r => if d.panel.coreUp then r else { r with powerGood := d.now }
    if d.sealing.active then (d.onSealing fun s => { s with mainsBack := true }).sealUpd else d
  else d

/-! ### Stages 1 to 3 -/

/-- Every group that a held write waits to have armed enters the armed set that stage 2 persists; the write stays held (R51). -/
def Dev.sealArms (d : Dev) : Dev :=
  let gs := ((d.expo.held.filter fun r => r.forArm).map fun r => pageGroup (linePage r.line)).dedup
  d.onExpo fun e =>
    { e with
      armReq := []
      armed := e.armed ++ (gs.filter fun g => !e.armed.any fun a => a.group == g).map fun g => { group := g, cleanSince := none } }

/-- Stage 1 has done its work: every request accepted before the freeze is performed but those that R51 keeps for their arm, and no channel
is in a switch of its set point (R82, R84, R92). -/
def Dev.stage1Done (d : Dev) : Bool :=
  !(d.expo.held.any fun r => !r.forTest && r.cmd != 3 && (r.forGov || r.forFetch || r.forRev || r.forRepair || r.forClass || r.forChan))
    && d.inSvc.all fun t => [0, 1, 2, 3].all fun c => (d.chan t c).switchTo.isNone

/-- Exposure of a tile in a class, pages (R85). -/
def Dev.xCls (d : Dev) (t cls : Nat) : Nat := d.expo.dirty.countP fun x => d.pageTile x.page == t && d.pageCls x.page == cls

/-- STAGE1_COMPLETE: stage 2 begins on every tile, and the lead requests seal mode (R82, R84, R85, R92, R23, R276). -/
def execStage1Complete (dt : Nat) (s : State) : Res := s.run fun d =>
  let d := d.elapse dt
  if !d.sealing.active ∨ d.sealing.stage ≠ 1 ∨ !d.stage1Done then d
  else
    let d := d.sealArms
    let d := d.onSealing fun s => { s with
      stage := 2, tileStage := d.inSvc.map fun t => (t, 2), rec_ := { s.rec_ with expoStart := d.xPkg }
      p1Start := d.inSvc.map fun t => (t, d.xCls t 1), p2Start := d.inSvc.map fun t => (t, d.xCls t 2) }
    let d := d.onDram fun x => { x with sealedSteer := some x.steer }
    let d := d.inSvc.foldl (fun d t => d.onFl t fun f => { f with sealAt := d.now }) d
    d.stage2Lead.sealUpd

/-! ### The metadata of stage 2 (R85, R141, R153) -/

/-- The structures of one kind, `n` entries to a record, unused entries filled with `pad` bytes of FFh (R141). -/
def metaRuns (kind n pad : Nat) (l : List (Nat × Nat)) : List MetaRec :=
  (runs n l).map fun r =>
    { rtype := 3, mkind := kind, index := r.1, body := r.2 ++ List.replicate (n - r.2.length) (pad, 2 ^ (8 * pad) - 1) }

/-- The dirty-bitmap extract: 60 groups to a record, their bitmaps and then their tile-local numbers (R85, R141). -/
def Dev.dirtyMetas (d : Dev) (t : Nat) : List MetaRec :=
  let ps := (d.expo.dirty.filter fun x => d.pageTile x.page == t).map fun x => x.page
  let bitmap (g : Nat) : Nat := sumBy (ps.filter fun p => pageGroup p == g) fun p => 2 ^ (p % 512)
  (runs 60 (ps.map pageGroup).dedup).map fun r =>
    { rtype := 3, mkind := 1, index := r.1
      body := r.2.map (fun g => (64, bitmap g)) ++ [(64 * (60 - r.2.length), 0)] ++ r.2.map (fun g => (4, d.tileGroup (g * 512)))
        ++ List.replicate (60 - r.2.length) (4, 2 ^ 32 - 1) ++ [(16, 0)] }

/-- The locator tail since the last committed checkpoint (R85, R141, R148). -/
def Dev.tailMetas (d : Dev) (t : Nat) : List MetaRec :=
  let ps := (((d.fl t).ckptRun.getD []) ++ (d.fl t).tail).dedup
  (runs 256 ps).map fun r =>
    { rtype := 3, mkind := 2, index := r.1
      body := r.2.flatMap (fun p => [(8, d.tla (pageBase p) / 4096), (8, (d.loc p).word)])
        ++ List.replicate (256 - r.2.length) (16, 2 ^ 64 - 1) }

/-- The first `k` erased blocks of a die in the order of wear, outside the reservation (R151, R170). -/
def Dev.wornOrder (d : Dev) (t die k : Nat) : List Nat :=
  let f := d.fl t
  let free (n : Nat) : Bool := !(thas f.blocks n) && !(f.resv.contains n) && n != f.ledBlock
  let new := ((List.range (min d.dieBlocks (f.blocks.length + 18 + k))).map fun i => i * 128 + die).filter free
  let used := f.blocks.filter fun b => b.2.state == 0 && dieOf b.1 == die && !(f.resv.contains b.1)
  (new ++ (sortLe (fun a b => decide (a.2.wear ≤ b.2.wear)) used).map fun b => b.1).take k

/-- The landing plan of a tile: the blocks, die by die, that hold its exposure when every data die takes its share of NAND pages
(R153). -/
def Dev.planFor (d : Dev) (t : Nat) : List Nat :=
  let np := (d.xTile t + 3) / 4
  let dies := (d.dataDies t).take (min np (d.dataDies t).length)
  let per := (np + max 1 dies.length - 1) / max 1 dies.length
  let k := (per + d.strata.slcPages - 1) / d.strata.slcPages
  dies.flatMap fun die => d.wornOrder t die k

/-- Everything a tile persists in stage 2 beside its seal header (R85, R141, R206, R211). -/
def Dev.stage2Metas (d : Dev) (t : Nat) : List MetaRec :=
  d.dirtyMetas t ++ d.tailMetas t
    ++ metaRuns 3 1024 4 (((d.expo.armed.filter fun g => d.groupTile g.group == t)).map fun g => (4, d.tileGroup (g.group * 512)))
    ++ metaRuns 4 1024 4 ((d.fl t).plan.map fun b => (4, b)) ++ metaRuns 5 64 64 (d.meterTail t) ++ metaRuns 6 128 32 (d.workState t)

/-- STAGE2_METADATA_VERIFIED: the metadata of a tile are programmed and read back; the writes held for arming are performed,
their armed set being durable; the bitmap kept is the one with their pages (R51, R85, R153). -/
def execStage2MetadataVerified (t : Fin 8) (dt : Nat) (s : State) : Res := s.run fun d =>
  let d := d.elapse dt
  if !d.sealing.active ∨ d.tileStage t.val ≠ 2 ∨ (d.tile t.val).isolated then d
  else
    let f (r : HeldReq) : HeldReq := if d.pageTile (linePage r.line) = t.val then { r with forArm := false } else r
    let d := d.sealArms
    let d := (d.onExpo fun e => { e with held := e.held.map f }).serve
    let dirty := (d.expo.dirty.filter fun x => d.pageTile x.page == t.val).map fun x => x.page
    let armed := (d.expo.armed.filter fun g => d.groupTile g.group == t.val).map fun g => g.group
    let d := d.onFl t.val fun f => { f with sealDirty := dirty, sealArmed := armed, plan := d.planFor t.val, stripe := 127 }
    let d := d.resvPut t.val (d.stage2Metas t.val)
    d.onSealing fun s => { s with metaOk := mset s.metaOk t.val }

/-- STAGE2_COMPLETE: a tile's seal header is durable, which completes stage 2 and starts its landing (R85, R86, R153); a test
seal whose hold limit has passed lands nothing (R104). `ue` as for PAGE_RECORD_DURABLE (R225). -/
def execStage2Complete (t : Fin 8) (ue : List (Nat × Nat)) (dt : Nat) (s : State) : Res := s.run fun d =>
  let d := d.elapse dt
  if !d.sealing.active ∨ d.tileStage t.val ≠ 2 ∨ !(mbit d.sealing.metaOk t.val) ∨ (d.tile t.val).isolated then d
  else
    let d := (d.sealHeader t.val).toStage t.val 3
    let d := d.onSealing fun s => { s with
      tStage3Start := d.now
      noLand := if s.test && decide (s.holdAt + s.holdLimit * 1000 ≤ d.now + 5000000) then mset s.noLand t.val else s.noLand
      rec_ := { s.rec_ with tStage2 := d.now } }
    ((d.sealWorst.landUe t.val ue).landNext t.val).sealUpd

/-- Nothing of a tile is in flight. -/
def Dev.quiet (d : Dev) (t : Nat) : Bool := !(d.expo.inflight.any fun f => d.pageTile f.page == t)

/-- Stage 3 of a test seal has landed what it lands (R104). -/
def Dev.testLanded (d : Dev) (t : Nat) : Bool :=
  mbit d.sealing.noLand t || decide (d.sealing.fillGib * 262144 ≤ d.sealing.landed + d.sealing.fillPages)

/-- STAGE3_COMPLETE: a tile's exposure is zero, or its landing has been stopped: at the energy floor (R97), by an exhausted
zone (R96) or by the limit of a test seal (R104). DESIGN CHOICE (log 242): the T3_DONE bit of a tile that the energy floor stopped with
exposure left stays clear. -/
def execStage3Complete (t : Fin 8) (dt : Nat) (s : State) : Res := s.run fun d =>
  let d := d.elapse dt
  let x := d.sealing
  if !x.active ∨ d.tileStage t.val ≠ 3 ∨ !(d.quiet t.val) then d
  else
    let zero := decide (d.xTile t.val = 0)
    let ends := if x.test then (zero && d.testLanded t.val) || mbit x.noLand t.val else zero
    if ends then
      let d := d.sealWorst.toStage t.val 4
      (d.onSealing fun s => { s with t3Done := mset s.t3Done t.val, rec_ := { s.rec_ with tStage3 := d.now } }).sealUpd
    else if mbit x.noLand t.val then
      let d := d.sealWorst.toStage t.val 5
      (d.onSealing fun s => { s with t3Done := mset s.t3Done t.val, rec_ := { s.rec_ with tStage3 := d.now } }).sealUpd
    else if x.stopped then
      ((d.toStage t.val 5).onSealing fun s => { s with rec_ := { s.rec_ with tStage3 := d.now } }).sealUpd
    else d

/-- SEAL_STATUS_UPDATE: the periodic update while a tile is in stage 3, every 10 ms (R91, R522). -/
def execSealStatusUpdate (dt : Nat) (s : State) : Res := s.run fun d =>
  (d.elapse dt).periodic 2 10000000 fun d => if d.sealing.active && d.inSvc.any fun t => d.tileStage t == 3 then d.sealUpd else d

/-- The energy that is compared with the energy floor, mJ: each source less its uncertainty of stage 0 (R97). -/
def Dev.floorMj (d : Dev) : Nat :=
  let net (s : Nat) : Nat := (d.src s).eMj - (d.src s).uHeld
  sumBy [0, 1] (fun b => if (d.bay b).counted then net b else 0) + net 2

/-- ENERGY_FLOOR_REACHED: from stage 2 to the end of stage 4, with the remaining energy at E_stop or below, stage 3 stops on every tile
(R97): what is copied to staging and not issued is not landed, and its pages stay dirty; a test seal then lands nothing more and goes on to
its stage 4. The lead compares, so none does during a takeover (R22). -/
def execEnergyFloorReached (dt : Nat) (s : State) : Res := s.run fun d =>
  let d := d.elapse dt
  let x := d.sealing
  if x.active ∧ 2 ≤ x.stage ∧ x.stage ≤ 4 ∧ !x.pkgRecord ∧ d.floorMj ≤ d.eStop ∧ !x.stopped ∧ d.pkg.takeStep = 0 then
    let d := d.onExpo fun e => { e with inflight := e.inflight.filter fun f => f.issued }
    let d := tiles8.foldl (fun d t => d.onFlow t 4 fun s => { s with fillSlots := 0, hdrCount := 0 }) d
    (d.onSealing fun s => { s with stopped := true, noLand := if s.test then 0xFF else s.noLand }).sealUpd
  else d

/-- What was to be programmed in the NAND page `a` of a tile goes to the page `n` (R96). -/
def Dev.readdress (d : Dev) (t a n : Nat) : Dev :=
  let moved (x : Nat) : Nat := if npOf x = a then n + 4294967296 * (x / 4294967296) else x
  let d := d.onExpo fun e => { e with inflight := e.inflight.map fun f => if d.inPage t a f then { f with addr := moved f.addr } else f }
  let d := d.onFlow t 4 fun s => { s with fillAddr := moved s.fillAddr, hdrAddr := moved s.hdrAddr }
  d.onFl t fun f => { f with metas := f.metas.map fun m => { m with addr := moved m.addr } }

/-- The next NAND page on a die for a program that is retried; where its die has no erased block left, on another one (R96). -/
def Dev.retryPage (d : Dev) (t die : Nat) : Dev × Option Nat :=
  if (d.fl t).plan.any fun n => dieOf n == die then d.landOn t die
  else match d.leastWorn t [die] with
    | some n => (d.onFl t fun f => { f with plan := f.plan ++ [n] }).landOn t die
    | none => d.landPage t

/-- A data block fails in stage 3: it takes no more records, and each NAND page that was to be programmed in it goes to the next block of
its die; with the zone exhausted its pages stay dirty, and the tile's landing ends (R96). -/
def Dev.landFail (d : Dev) (t blk : Nat) : Dev :=
  let die := dieOf blk
  let x := tget (d.fl t).dieOpen (0, 0) die
  let d := if x.1 = blk then d.onFl t fun f => { f with dieOpen := tset f.dieOpen die (0, 0), zone := f.zone - 4 * x.2 } else d
  let d := d.onFlow t 0 fun s => if s.block = blk then { s with left := 0 } else s
  let pages := ((d.expo.inflight.filter fun f => d.pageTile f.page == t && blkOf f.addr == blk).map fun f => npOf f.addr).dedup
  pages.foldl (fun d a =>
    let y := d.retryPage t die
    match y.2 with
    | some n => y.1.readdress t a n
    | none =>
      let d := y.1.onExpo fun e => { e with inflight := e.inflight.filter fun f => !(d.inPage t a f) }
      (d.onFlow t 4 fun s => { s with fillSlots := 0, hdrCount := 0 }).onSealing fun s => { s with noLand := mset s.noLand t }) d

/-- A reservation block fails: another erased block of its die, or else of its channel, takes its place; with none left the tile's landing
ends (R96, R151). -/
def Dev.resvFail (d : Dev) (t blk : Nat) : Dev :=
  let near := (d.dataDies t).filter fun x => x % 16 == blk % 16
  match (d.leastWorn t [dieOf blk]).or (d.leastWorn t near) with
  | none => d.onSealing fun s => { s with noLand := mset s.noLand t }
  | some n =>
    let old := (d.blk t blk).state
    let d := d.onBlk t n fun b => { b with state := old, progTime := d.now }
    d.onFl t fun f => { f with
      zone := f.zone - d.blkRecs, resv := f.resv.map fun b => if b = blk then n else b
      metas := f.metas.map fun m => if blkOf m.addr = blk then { m with addr := m.addr - blk + n } else m }

/-- SEAL_PROGRAM_FAIL: a program failure during stage 2, 3 or 4 on block `blk` of a tile: the program is retried on another erased block of
the same die, on the next ledger block for the ledger die; the failed block is withdrawn after restore, and a zone with none left ends the
tile's landing (R96). -/
def execSealProgramFail (t : Fin 8) (blk : Nat) (dt : Nat) (s : State) : Res := s.run fun d =>
  let d := d.elapse dt
  if !d.sealing.active ∨ d.sealing.stage < 2 ∨ 4 < d.sealing.stage ∨ (d.tile t.val).isolated then d
  else if dieOf blk = ledgerDie then (if blk = (d.fl t.val).ledBlock then d.onFl t.val fun f => { f with ledLeft := 0 } else d)
  else
    let d := if (d.fl t.val).resv.contains blk then d.resvFail t.val blk else d.landFail t.val blk
    (d.onBlk t.val blk fun b => { b with state := 2 }).onFl t.val fun f => { f with withdrawn := addOnce f.withdrawn blk }

/-- What a seal leaves open in the landing zone of a tile is closed: the blocks that its dies filled take no more records, and the plan is
dropped (R151, R153). -/
def Dev.landClose (d : Dev) (t : Nat) : Dev :=
  let os := (d.fl t).dieOpen.filter fun x => x.2.2 ≠ 0 ∨ (d.blk t x.2.1).state = 1
  let d := os.foldl (fun d x => d.onBlk t x.2.1 fun b => { b with state := if b.state = 1 then 2 else b.state }) d
  (d.onFl t fun f => { f with zone := f.zone - 4 * sumBy os fun x => x.2.2, plan := [], dieOpen := [] }).onFlow t 4 fun _ => {}

/-- The blocks that failed in a seal are withdrawn once the device serves again (R96, R160), and the reservation is made whole (R151). -/
def Dev.afterSeal (d : Dev) : Dev :=
  d.inSvc.foldl (fun d t =>
    let bs := (d.fl t).withdrawn
    let d := d.onFl t fun f => { f with withdrawn := [] }
    (bs.foldl (fun d b => d.blockFails t b 0 [] []) d).resvFill t) d

/-- Groups that a seal has armed with no ARM entry in the ledger take one once DRAM is kept (R47, R51). DESIGN CHOICE (log 251): the spec
does not say when. -/
def Dev.armLate (d : Dev) (t : Nat) : Dev :=
  let led := d.ledgerArmed t
  let gs := ((d.expo.armed.filter fun g => d.groupTile g.group == t).map fun g => g.group).filter fun g => !led.contains g
  (runs 512 gs).foldl (fun d r => d.cairn t (r.2.map fun g => { typ := 1, a := g, b := (d.gran (g / 512)).context })) d

/-! ### Learning and the seal event record (R56, R107) -/

/-- A learning value moves: at once to a larger measurement, a quarter of the way to a smaller one (R56). -/
def learn (old m : Nat) : Nat := if old < m then m else old - (old - m) / 4

/-- A rejected measurement (R56, R78). -/
def Dev.learnReject (d : Dev) : Dev :=
  (d.raise 811 0x27 0 (detail := [1])).onSealing fun s => { s with rec_ := { s.rec_ with learn := s.rec_.learn ||| 4 } }

/-- The learning values are updated, or a measurement is rejected (R56). DESIGN CHOICE (log 252): E_FIXED_MEAS leaves the energy of the entry to
stage 6 out, since the record is written in stage 5, before it. -/
def Dev.sealLearn (d : Dev) : Dev :=
  let s := d.sealing
  let pages := s.landed + s.fillPages
  let bytes := pages * 4096
  let dur := s.rec_.tStage3 - s.rec_.tStage2
  let k := if bytes = 0 then 0 else s.eDrawn3 * 1000000000000 / bytes
  let land := if dur = 0 then 0 else bytes * 1000 / dur
  let ef := s.eDrawnPre
  let d := d.onSealing fun x => { x with rec_ := { x.rec_ with
    eFixedMeas := ef / 1000, eStage3 := s.eDrawn3 / 1000, kMeas := k, landMeas := land, learn := 0 } }
  let d :=
    if pages < 64 * 262144 then d
    else if 500000 ≤ k ∧ k ≤ 2000000 ∧ 40000 ≤ land ∧ land ≤ 320000 then
      let n := learn d.expo.kSeal k
      let changed := n != d.expo.kSeal
      let d := d.onExpo fun e => { e with kSeal := n, landRef := if changed then land else e.landRef }
      d.onSealing fun x => { x with rec_ := { x.rec_ with learn := if changed then x.rec_.learn ||| 1 else x.rec_.learn } }
    else d.learnReject
  let d :=
    if 600000 ≤ ef ∧ ef ≤ 3000000 then
      let n := learn d.expo.eFixed ef
      let changed := n != d.expo.eFixed
      let d := d.onExpo fun e => { e with eFixed := n }
      d.onSealing fun x => { x with rec_ := { x.rec_ with learn := if changed then x.rec_.learn ||| 2 else x.rec_.learn } }
    else d.learnReject
  (d.onEnergy fun e => { e with recDirty := true }).govTrigger 1

/-- The seal event record, as a seal ends (R107). -/
def Dev.sealEvt (d : Dev) (warm : Bool) : SealRec :=
  let s := d.sealing
  let fl := bit s.test + 2 * bit s.mainsBack + 4 * bit s.stopped + 8 * bit warm + 16 * bit s.takeover + 32 * bit s.isoDuring
    + 64 * bit (s.cause == 2)
  { s.rec_ with
    later := s.later, flags := BitVec.ofNat 8 fl, t3Mask := s.t3Done, t4Mask := s.t4Done, fill := s.fillPages * 4096, tWrite := d.now }

/-- The seal event record is written and kept, the last 128 (R107, R108). -/
def Dev.sealRecord (d : Dev) (warm : Bool) : Dev :=
  let r := d.sealEvt warm
  (d.storeNew 0x51 r.rseq r.bytes true).onSealing fun s => { s with rec_ := r, last := (r :: s.last).take 128, nextRseq := s.nextRseq + 1 }

/-! ### What stage 5 writes beside (R89, R276, R306, R333, R346, R359) -/

/-- The first-fault records and the extract of the package log, oldest entry first, are written to the event store (R333, R455). -/
def Dev.flintExtract (d : Dev) : Dev :=
  let es := (((tget d.flint.coll {} 8).log.filter fun e => decide (2 ≤ e.origSev) && !(d.flint.prevLog.any fun x => x.lseq == e.lseq)).take 256).reverse
  let d := if d.flint.coll.any fun c => c.2.ff.valid && c.2.ff != (tget d.flint.prevFf {} c.1) then
      d.storeFramed 0x55 ((List.range 9).flatMap fun c => (tget d.flint.coll {} c).ff.bytes)
    else d
  let d := if es.isEmpty then d else d.storeFramed 0x56 (es.flatMap LogEntry.bytes)
  d.onFlint fun f => { f with
    prevFf := f.coll.map fun c => (c.1, c.2.ff)
    prevLog := (((tget f.coll {} 8).log.filter fun e => decide (2 ≤ e.origSev)) ++ f.prevLog.filter fun e =>
      !((tget f.coll {} 8).log.any fun x => x.lseq == e.lseq)).take 256
    extractDue := false }

/-- A full bank 0 is written to the event store (R359). -/
def Dev.snapKeep (d : Dev) : Dev :=
  let b := tget d.snap.banks {} 0
  let d := if b.state = 0 then d else d.storeFramed 0x57 (b.header ++ b.sections.flatMap SnapSection.bytes)
  d.onSnap fun s => { s with stored := if (tget s.banks {} 0).state = 0 then s.stored else some (tget s.banks {} 0) }

/-- Thermal records that wait are written; a shutdown's takes the time at which stage 5 ends (R306). -/
def Dev.thermKeep (d : Dev) : Dev :=
  let rs := d.therm.recPend.map fun r => if r.kind = 1 then { r with tSealEnd := d.now } else r
  (rs.foldl (fun d r => d.storeNew 0x54 r.rseq r.bytes) d).onTherm fun x => { x with recs := (rs ++ x.recs).take 64, recPend := [] }

/-- The highest time that a Slate record carries (R346). -/
def Dev.stampFloor (d : Dev) : Dev := d.onQtz fun q => { q with floorStamp := max q.floorStamp d.now }

/-! ### Warm return (R99, R100, R129, R131) -/

/-- The dirty-shutdown count is incremented for a loss not counted before, whose identity is kept (R131). -/
def Dev.dirtyShutdown (d : Dev) (identity : Nat) : Dev :=
  if d.restore.lastLoss = some identity then d
  else (d.onRestore fun r => { r with dsCount := min 4294967295 (r.dsCount + 1), lastLoss := some identity, dsInc := true }).recDue 0x6B

/-- The restore restarts from the Strata mount on every tile: what is in DRAM is not trusted, no page is dirty, nothing is armed or restored,
and memory is closed; a head in media state Error stays in it (R100, R113, R118, R121). Completions that the device held back are kept
(R93). -/
def Dev.mountReset (d : Dev) : Dev :=
  let d := tiles8.foldl Dev.landClose d
  let d := d.onRestore fun r => { r with
    phase := 4, mountAt := d.now, ready := false, warm := false, decided := 0, committed := 0, scan := 0, drainDone := 0, restored := [], allRestored := false
    fetching := [], poisonPages := 0, tier := [], bulkBytes := 0, fetchBytes := 0, dramKept := false }
  let d := d.onExpo fun e => { e with
    dirty := [], inflight := [], held := e.held.filter fun r => r.cmd == 3, paced := [], poisonLines := [], ueLines := [], armed := [], disarmQ := []
    armReq := [], armProg := [], armFull := [], dirtyWait := [] }
  let d := d.onMem fun _ => []
  let d := d.onCtxs fun c => { c with rollback := [], rtPend := [] }
  [0, 1].foldl (fun d h => d.onHead h fun x => { x with media := if x.media = 3 then 3 else 0, poison := [], poisonOvf := false }) d

/-- The Strata mount begins (R113, R132). -/
def Dev.beginMount (d : Dev) : Dev := d.mountReset.restUpd

/-- The migrations of this node as source that a seal aborted are reported once (R391, R395). -/
def Dev.reportAborts (d : Dev) : Dev :=
  let new (t : Stream) : Bool := t.outgoing && t.migration && t.state == 0x14 && !t.dirtied
  let d := (d.lat.streams.filter new).foldl (fun d t => d.raise 794 0x42 2 (ctx := t.local_)) d
  d.onLat fun x => { x with streams := x.streams.map fun t => if new t then { t with dirtied := true } else t }

/-- Services reopen after a warm return: OPEN records, ingress, rings, lattice, the governor from the exposure present (R62,
R100, R129, R207). -/
def Dev.warmOpen (d : Dev) : Dev :=
  let d := d.reportAborts
  let d := tiles8.foldl Dev.landClose d
  let d := d.ledgerAll d.inSvc 0x0D 1
  let d := d.inSvc.foldl Dev.armLate d
  let d := d.onSealing fun s => { s with active := false, frozen := false, hibernating := false }
  let d := d.onRestore fun r => { r with ready := true, warm := true, phase := if r.allRestored then 7 else 6, dramKept := false }
  let d := if d.sealing.lapseAtTrigger then d.dirtyShutdown d.sealing.tTrigger else d
  let d := d.onLat fun l => { l with leaving := false }
  let d := [0, 1].foldl (fun d h => if (d.head h).linkUp then d.onHead h fun x => { x with media := 1 } else d) d
  let d := tiles8.foldl (fun d t => if (d.tile t).isolated then d
    else d.tileChans t fun x => { x with state := 1 }) d
  let d := tiles8.foldl Dev.heatApply d.pointCheck.restAgain.resumeWindow
  let d := ((([0, 1].foldl Dev.faultBack d).resumeRings true).afterSeal.rewait.serve).recompute
  ([0, 1].foldl Dev.bayUpd d).sealUpd.restUpd

/-- A warm return: canaries intact on every tile in service, or a restore from the mount phase (R100). -/
def Dev.warmReturn (d : Dev) (canary : BitVec 8) : Dev :=
  if d.inSvc.all fun t => mbit canary t then d.warmOpen
  else ([0, 1].foldl Dev.faultBack (d.onSealing fun s => { s with active := false, frozen := false })).beginMount.sealUpd

/-! ### Stages 4 and 5 -/

/-- Every tile in service has written its record, or will write none (R88). -/
def Dev.tilesSealed (d : Dev) : Bool := d.inSvc.all fun t => d.tileStage t == 5

/-- A test seal ends: ingress and rings are released, the mains path and operating point restored, learning applied, the record
written; what waited for it goes on (R104 steps 6 and 7, R283, R504). -/
def Dev.testEnd (d : Dev) (ext : Nat) (measured : Bool) : Dev :=
  let d := d.onSealing fun s => { s with active := false, frozen := false, testStep := 0, tileStage := [] }
  let d := (tiles8.foldl Dev.landClose (if measured then (d.sealLearn).sealRecord false else d)).releaseTest.pointCheck.restAgain.resumeWindow
  let d := d.reportAborts.onLat fun l => { l with leaving := false }
  let d := (d.inSvc.foldl Dev.armLate d).afterSeal.rewait.serve.fetchRings
  let d := d.onPanel fun p => if p.removal = 1 then { p with removal := 2, drainAt := d.now } else p
  let d := [0, 1, 2].foldl (fun d p => d.bgEnd p 0xC444 ext) d
  ((tiles8.foldl Dev.heatApply ([0, 1].foldl Dev.faultBack d)).govTrigger 8).sealUpd

/-- TILE_SEAL_RECORD_WRITTEN: a tile's seal record is in its ledger, with the pages it landed (R88, R104). -/
def execTileSealRecordWritten (t : Fin 8) (dt : Nat) (s : State) : Res := s.run fun d =>
  let d := d.elapse dt
  if !d.sealing.active ∨ d.tileStage t.val ≠ 4 ∨ (d.tile t.val).isolated then d
  else
    let hdr := ((d.lastEntry t.val fun e => e.typ == 0x09).map fun e => e.lseq).getD 0
    let d := (d.ledger t.val 0x0A hdr (tget d.sealing.landedT 0 t.val) 0 d.sealing.test).toStage t.val 5
    (d.onSealing fun s => { s with t4Done := mset s.t4Done t.val }).sealUpd

/-- Stage 5 begins: flash stops and its rail goes, DRAM enters self-refresh and its rail goes, the core rails staying; a seal before a reset
keeps its rails (R89, R101, R489). DESIGN CHOICE (log 253): R101 keeps the flash rail of such a seal on too. -/
def Dev.stage5Begin (d : Dev) : Dev :=
  let off := d.sealing.cause != 3
  let d := d.onPanel fun p => { p with
    fWpN := true, rails := if off then min p.rails 3 else p.rails, railsGood := if off then min p.railsGood 3 else p.railsGood }
  let d := tiles8.foldl (fun d t => if (d.tile t).isolated then d
    else d.tileChans t chanSleep) d
  (d.onSealing fun s => { s with stage := 5 }).sealUpd

/-- PACKAGE_SEAL_RECORD_WRITTEN: with every tile in service done, the lead writes the package seal record; a test seal then ends, a warm
return follows where mains is good again under cause 0h or 1h, else stage 5 (R88, R89, R99, R22, R104, R107). `canary` says which tiles'
canaries are intact. -/
def execPackageSealRecordWritten (canary : BitVec 8) (dt : Nat) (s : State) : Res := s.run fun d =>
  let d := d.elapse dt
  let x := d.sealing
  if !x.active ∨ x.stage < 2 ∨ 5 ≤ x.stage ∨ x.pkgRecord ∨ !d.tilesSealed ∨ d.pkg.takeStep ≠ 0 then d
  else
    let d := d.ledger d.pkg.lead 0x0B x.t4Done.toNat 0 0 x.test
    let d := d.onSealing fun s => { s with
      stage := 4, pkgRecord := true
      rec_ := { s.rec_ with tPkg := d.now, vA := d.srcMv 0, vB := d.srcMv 1, vBridge := d.srcMv 2 } }
    if x.test then d.testEnd 0 true
    else if x.cause ≤ 1 ∧ x.mainsBack then ((d.sealLearn).sealRecord true).warmReturn canary
    else d.stage5Begin

/-- STAGE5_COMPLETE: the Slate records are written; cause 3h resets the package with DRAM kept in self-refresh, every other
cause hibernates (R22, R56, R79, R89, R90, R101, R102). -/
def execStage5Complete (dt : Nat) (s : State) : Res := s.run fun d =>
  let d := d.elapse dt
  let x := d.sealing
  if !x.active ∨ x.stage ≠ 5 ∨ d.pkg.takeStep ≠ 0 then d
  else
    let d := (((d.sealLearn).sealRecord false).stateWrite).thermKeep.flintExtract.snapKeep.stampFloor
    let clean := x.inService &&& ~~~x.t4Done == 0
    if x.cause = 3 then
      let d := d.onSealing fun s => { s with active := false }
      let d := d.onRestore fun r => { r with dramKept := true }
      (d.onPanel fun p => { p with resetDue := true }).sealUpd
    else
      let d := d.onSnap fun s => { s with cancelledEvent := s.cancelledEvent || !s.sched.isEmpty, sched := [] }
      let d := [0, 1].foldl (fun d b => d.disqualify b) d
      let d := (d.onSealing fun s => { s with stage := 6 }).sealUpd
      d.hibernate x.cause clean

/-! ### RESET_N (R101) -/

/-- A forced reset: the safe state, and a package reset without a seal; DRAM is not trusted (R101). -/
def Dev.forcedReset (d : Dev) : Dev :=
  let d := if d.pkg.safe = 0 then d.safeState 1 else d
  let d := d.onRestore fun r => { r with forcedUnclean := true, dramKept := false }
  d.onPanel fun p => { p with resetDue := true, resetTaken := true }

/-- PWR_EN is asserted and the first rail enabled: restore phase 1 (R109, R491). -/
def Dev.powerStart (d : Dev) : Dev :=
  let d := d.onPanel fun p => { p with
    pwrEn := true, rails := 1, railsGood := 0, refGood := false, railAt := d.now, retryAt := none, freshOk := false, failedRestart := false }
  let d := d.onSealing fun s => { s with hibernating := false }
  let d := d.onTherm fun x => { x with coolFrom := none }
  d.onRestore fun r => { r with phase := 1, ready := false, thermalCheck := r.thermalCheck || d.panel.sealCause == some 2, powerGood := d.now }

/-- RESET_N_ASSERT: the timing of its length starts; ignored while the device hibernates (R101). DESIGN CHOICE (log 243): an assertion that
begins during a seal and outlasts it is timed from the assertion, and acts once no seal runs. -/
def execResetNAssert (dt : Nat) (s : State) : Res := s.run fun d =>
  let d := d.elapse dt
  if d.panel.coreUp || d.panel.pwrEn then d.onPanel fun p => { p with resetNAt := some d.now, resetTaken := false } else d

/-- RESET_N_RELEASE: by the length of the assertion and the state of the device (R94, R101, R130, R497); while the power sequence runs, the
sequence begins again. -/
def execResetNRelease (dt : Nat) (s : State) : Res := s.run fun d =>
  let d := d.elapse dt
  match d.panel.resetNAt with
  | none => d
  | some t =>
    let w := d.since t
    let taken := d.panel.resetTaken
    let d := d.onPanel fun p => { p with resetNAt := none, resetTaken := false }
    if w < 10000 ∨ taken ∨ d.sealing.active then d
    else if !d.panel.coreUp then (if d.panel.pwrEn then d.powerStart else d)
    else if d.pkg.safe = 2 then d.forcedReset
    else if d.pkg.bedrock ∨ !d.restore.ready then d.onPanel fun p => { p with resetDue := true }
    else if w < 2000000000 ∧ d.panel.mainsGood then d.trigger 3
    else d

/-- FORCED_RESET: RESET_N has been held for 2 s; it is ignored while a seal runs (R101, R130). -/
def execForcedReset (dt : Nat) (s : State) : Res := s.run fun d =>
  let d := d.elapse dt
  let held : Bool := match d.panel.resetNAt with | some t => decide (2000000000 ≤ d.since t) | none => false
  if held && !d.panel.resetTaken && !d.sealing.active && (d.panel.mainsGood || d.pkg.safe == 2) then
    if d.panel.coreUp then d.forcedReset
    else if d.panel.pwrEn then d.powerStart.onPanel fun p => { p with resetTaken := true } else d
  else d

/-! ### Test seals (R103, R104) -/

/-- A test seal begins: its step 1 switches the module load to the hold-up path (R104). -/
def Dev.testBegin (d : Dev) (holdLimit fillGib : Nat) : Dev :=
  let d := d.sealStart 4 true
  let d := d.onSealing fun s => { s with testStep := 1, holdLimit := holdLimit, fillGib := fillGib }
  [0, 1].foldl Dev.bayUpd (d.onEnergy fun e => { e with assistSet := [] })

/-- TEST_SEAL_PATH_VERIFIED: the change of the gauge current within 5 ms confirms the switch (`ok`), and ingress is held; a
switch not confirmed ends the test with INTERNAL (R104). -/
def execTestSealPathVerified (ok : Bool) (dt : Nat) (s : State) : Res := s.run fun d =>
  let d := d.elapse dt
  if d.sealing.testStep ≠ 1 ∨ !d.sealing.active then d
  else if ok then
    let d := d.onSealing fun s => { s with testStep := 2, holdAt := d.now }
    d.sealFreeze
  else d.testEnd 0x15 false

/-- TEST_SEAL_HOLD_LIMIT: HOLD_LIMIT − 5 ms since the hold began, so stage 3 of the test lands nothing more (R104). -/
def execTestSealHoldLimit (dt : Nat) (s : State) : Res := s.run fun d =>
  let d := d.elapse dt
  if d.sealing.active ∧ d.sealing.test ∧ d.sealing.testStep = 2 ∧ d.sealing.holdAt + d.sealing.holdLimit * 1000 ≤ d.now + 5000000 then
    d.onSealing fun s => { s with noLand := 0xFF }
  else d

end Sys2Proof.Machine
end

