-- ==== Sys2Proof/Machine/Slate.lean ====
section
/-! DEFINITION. The commands of Slate, the embedded flash of each tile: the command sequence, the end of an operation, suspend and
resume, reads, parameter records, the event store's rotation and refresh (chapter 14). -/

namespace Sys2Proof.Machine

/-! ### The command sequence (R436) -/

/-- A write of SLATE_KEY (R436). -/
def Dev.slKeyWrite (d : Dev) (t key : Nat) : Dev :=
  let x := d.sl t
  if x.keyStep = 2 then d.slRefuse t 5
  else if x.keyStep = 1 then
    if key = 0x92D4 ∧ d.since x.keyAt ≤ 1000 then d.onSl t fun s => { s with keyStep := 2 } else d.slRefuse t 1
  else if key = 0x6D2B then d.onSl t fun s => { s with keyStep := 1, keyAt := d.now }
  else d.slRefuse t 1

/-- A write of SLATE_CMD; with ARMED clear it is ignored and recorded (R436). -/
def Dev.slCmdWrite (d : Dev) (t code : Nat) : Dev :=
  let x := d.sl t
  if x.keyStep = 1 then d.slRefuse t 1
  else if x.keyStep ≠ 2 then d.raise (tsrc t 53) 0x12 0
  else if x.seq.isSome then d.slRefuse t 5
  else if code = 0 ∨ 6 < code then d.slRefuse t 4
  else d.onSl t fun s => { s with code := code, seq := some code, seqAt := d.now, opIdx := 0 }

/-- SLATE_CMD_WRITE: a write of SLATE_CMD (R436). -/
def execSlateCmdWrite (t : Fin 8) (code : BitVec 8) (dt : Nat) (s : State) : Res := s.run fun d =>
  (d.elapse dt).slCmdWrite t.val code.toNat

/-- A write of ADDR (0), DATA0 (1) or DATA1 (2): the value is stored, and in a sequence it is an operand, which must come in the
command's order within 100 µs (R436, R437). `fetch` and `purpose` as the starting write's. -/
def Dev.operandWrite (d : Dev) (t k v fetch purpose : Nat) : Dev :=
  let x := d.sl t
  let d := d.onSl t fun s =>
    if k = 0 then { s with addr := v % 2 ^ 23 } else if k = 1 then { s with data0 := BitVec.ofNat 64 v }
    else { s with data1 := BitVec.ofNat 64 v }
  match x.seq with
  | none => d.slTouch t
  | some c =>
    if 100000 < d.since x.seqAt ∨ k ≠ x.opIdx then d.slRefuse t 5
    else if c = 1 ∧ k < 2 then d.onSl t fun s => { s with opIdx := k + 1 }
    else d.opStart t fetch c (d.sl t).addr purpose ((d.sl t).data1 ++ (d.sl t).data0)

/-- PROGRAM_LINE: the operands of a line program, ADDR then DATA0 then DATA1 (R437). -/
def execProgramLine (t : Fin 8) (addr : BitVec 23) (data : BitVec 128) (fetch : Fin 3) (dt : Nat) (s : State) : Res := s.run fun d =>
  let d := (d.elapse dt).operandWrite t.val 0 addr.toNat fetch.val 0
  let d := d.operandWrite t.val 1 (data.extractLsb' 0 64).toNat fetch.val 0
  d.operandWrite t.val 2 (data.extractLsb' 64 64).toNat fetch.val 0

/-- ERASE_SECTOR: the ADDR operand of an erase, for a purpose of R449 (R437, R447, R449). -/
def execEraseSector (t : Fin 8) (addr : BitVec 23) (fetch : Fin 3) (purpose : Fin 4) (dt : Nat) (s : State) : Res := s.run fun d =>
  (d.elapse dt).operandWrite t.val 0 addr.toNat fetch.val purpose.val

/-- MARGIN_VERIFY: the ADDR operand of a margin verify (R437). -/
def execMarginVerify (t : Fin 8) (addr : BitVec 23) (fetch : Fin 3) (dt : Nat) (s : State) : Res := s.run fun d =>
  (d.elapse dt).operandWrite t.val 0 addr.toNat fetch.val 0

/-- READ_ERASE_COUNTER: the ADDR operand of a read of an erase counter (R437, R447). -/
def execReadEraseCounter (t : Fin 8) (addr : BitVec 23) (fetch : Fin 3) (dt : Nat) (s : State) : Res := s.run fun d =>
  (d.elapse dt).operandWrite t.val 0 addr.toNat fetch.val 0

/-- SWAP_BOOT_TWIN: the ADDR operand of a swap (R437, R456). -/
def execSwapBootTwin (t : Fin 8) (addr : BitVec 23) (fetch : Fin 3) (dt : Nat) (s : State) : Res := s.run fun d =>
  (d.elapse dt).operandWrite t.val 0 addr.toNat fetch.val 0

/-- BLANK_CHECK: the ADDR operand of a blank check (R437). -/
def execBlankCheck (t : Fin 8) (addr : BitVec 23) (fetch : Fin 3) (dt : Nat) (s : State) : Res := s.run fun d =>
  (d.elapse dt).operandWrite t.val 0 addr.toNat fetch.val 0

/-- SLATE_SEQUENCE_TIMEOUT: 100 µs since the command without its operands (R436). -/
def execSlateSequenceTimeout (t : Fin 8) (dt : Nat) (s : State) : Res := s.run fun d =>
  let d := d.elapse dt
  if (d.sl t.val).seq.isSome ∧ 100000 ≤ d.since (d.sl t.val).seqAt then d.slRefuse t.val 5 else d

/-! ### The end of an operation (R438, R448, R449, R459) -/

/-- An operation of a bank ends: DONE, or FAIL with its code. -/
def Dev.opEnds (d : Dev) (t b err : Nat) : Dev :=
  d.onSl t fun s => slIrq { s with ops := tdel s.ops b, done := s.done || err == 0, fail := s.fail || err != 0, err := err }

/-- Mark slot A (0) or B (1) of a tile invalid (R448, R464). -/
def Dev.slotState (d : Dev) (t slot st : Nat) : Dev :=
  (d.onUrec t fun u => if slot = 0 then { u with stateA := st } else { u with stateB := st }).recDueOn t 0x67

/-- A sector fails: a parameter sector is replaced by the next free spare; a main sector's use ends, and so does its refresh (R448). -/
def Dev.sectorFails (d : Dev) (t s : Nat) : Dev :=
  let d := d.onSl t fun x => { x with
    badSectors := addOnce x.badSectors s, refresh := if x.refresh = some s then none else x.refresh
    refreshImg := if x.refresh = some s then [] else x.refreshImg }
  if 2 ≤ s ∧ s < 0x22 then
    let used := ((d.intents t).filter fun i => i.ltype == 0x52).map fun i => i.purpose
    match [31, 32, 33].find? fun k => !(used.contains k) && k != s with
    | some k =>
      (d.intentPut t { ltype := 0x52, sector := s, purpose := k, iseq := d.topIseq t + 1, ecount := tget (d.sl t).counters 0 s }).raise
        (tsrc t 53) 0x85 2 (detail := [s, k])
    | none => d.raise (tsrc t 53) 0x13 2 (detail := [s])
  else if 0x22 ≤ s ∧ s < 0x2F then d.slotState t 0 4
  else if 0x2F ≤ s ∧ s < 0x3C then d.slotState t 1 4
  else d

/-- An erase that ended well: the sector is erased, its worn state judged, its done line written unless the erase is a refresh
(R447 to R449). `fail` is the first line its margin verify finds, FFFFFFh none. -/
def Dev.eraseEnds (d : Dev) (t : Nat) (o : SlateOp) (fail : Nat) : Dev :=
  let s := secOf o.addr
  let d := d.secClear t s
  let worn := decide (ratedCycles s ≤ tget (d.sl t).counters 0 s)
  let d := if worn ∧ !(d.sl t).worn.contains s then
      (d.onSl t fun x => { x with worn := addOnce x.worn s }).raise (tsrc t 53) 0x84 0 (detail := [s])
    else d
  if worn ∧ fail ≠ 0xFFFFFF then ((d.raise (tsrc t 53) 0x84 2 (detail := [s])).eraseDone t s).sectorFails t s
  else if (d.sl t).refresh = some s ∧ !(d.sl t).refreshImg.isEmpty then
    let img := (d.sl t).refreshImg
    d.onSl t fun x => { x with
      lines := img.foldl (fun l e => tset l e.1 e.2) x.lines, refreshImg := []
      ops := tset x.ops (slateBank o.addr) { code := 3, addr := o.addr, resumedAt := d.now } }
  else
    let d := d.eraseDone t s
    if (d.sl t).refresh = some s then (d.onSl t fun x => { x with refresh := none }).raise (tsrc t 53) 0x14 0 (detail := [s]) else d

/-- SLATE_OPERATION_DONE: the operation of a bank ends, well or with the pulse limit reached; `fail` is the first failing line a
margin verify, or a check of a sector not wholly erased, finds, FFFFFFh none (R437, R438, R448, R449, R459). -/
def execSlateOperationDone (t : Fin 8) (bank : Fin 2) (ok : Bool) (pulses : BitVec 6) (fail : BitVec 24) (dt : Nat) (s : State) : Res :=
  s.run fun d =>
  let d := d.elapse dt
  let b := bank.val
  match d.slOp t.val b with
  | none => d
  | some o =>
    let sec := secOf o.addr
    let d := d.onSl t.val fun s => { s with ops := tset s.ops b { o with pulses := pulses.toNat } }
    match o.code with
    | 2 =>
      if ok then (d.opEnds t.val b 0).eraseEnds t.val o fail.toNat
      else ((d.opEnds t.val b 7).raise (tsrc t.val 53) 0x81 2).sectorFails t.val sec
    | 3 =>
      let d := d.onSl t.val fun s => { s with res := fail.toNat, lastVerify := tset s.lastVerify sec d.now }
      let fresh := (d.sl t.val).refresh == some sec
      if fail = 0xFFFFFF then
        let d := d.opEnds t.val b 0
        if fresh then ((d.eraseDone t.val sec).onSl t.val fun s => { s with refresh := none }).raise (tsrc t.val 53) 0x14 0 (detail := [sec])
        else d
      else
        let d := (d.opEnds t.val b 8).raise (tsrc t.val 53) 0x84 2 (detail := [sec])
        if fresh then d.sectorFails t.val sec else d
    | 4 => (d.onSl t.val fun s => { s with res := tget s.counters 0 sec }).opEnds t.val b 0
    | 6 =>
      let first := match (d.secContents t.val sec).head? with
        | some e => min (16 * e.1) (if (d.sl t.val).badSectors.contains sec then fail.toNat else 0xFFFFFF)
        | none => if (d.sl t.val).badSectors.contains sec then fail.toNat else 0xFFFFFF
      (d.onSl t.val fun s => { s with res := first }).opEnds t.val b (if first = 0xFFFFFF then 0 else 9)
    | _ =>
      if ok then (d.onSl t.val fun s => { s with lines := tset s.lines (o.addr / 16) o.data }).opEnds t.val b 0
      else
        ((d.onSl t.val fun s => { s with lines := tset s.lines (o.addr / 16) o.data, badLines := addOnce s.badLines (o.addr / 16) }).opEnds
          t.val b 7).raise (tsrc t.val 53) 0x81 2

/-! ### Suspend and resume (R445, R446) -/

/-- SLATE_SUSP.SUSPEND: the erase in progress is asked to suspend; less than 2 ms after it last resumed, the request is held. A second
one while suspended has no effect (R445). -/
def Dev.slSuspend (d : Dev) (t : Nat) : Dev :=
  let f (o : SlateOp) : SlateOp :=
    if o.code = 2 ∧ !o.suspended ∧ o.suspReq.isNone then
      { o with suspReq := some d.now, held := decide (d.since o.resumedAt < 2000000) }
    else o
  d.onSl t fun s => { s with ops := s.ops.map fun o => (o.1, f o.2) }

/-- SLATE_SUSP.RESUME: the suspended erase continues with its pulse count and counter unchanged; while not suspended, and while another
operation runs in its bank, it has no effect (R445). -/
def Dev.slResume (d : Dev) (t : Nat) : Dev :=
  [0, 1].foldl (fun d b => match d.slSusp t b with
    | some o => if d.slBusy t b then d
      else d.onSl t fun s => { s with
        ops := tset (tdel s.ops (b + 2)) b { o with suspended := false, suspReq := none, held := false, resumedAt := d.now } }
    | none => d) d

/-- SUSPEND: a write of SLATE_SUSP.SUSPEND (R445). -/
def execSuspend (t : Fin 8) (dt : Nat) (s : State) : Res := s.run fun d => ((d.elapse dt).slTouch t.val).slSuspend t.val

/-- RESUME: a write of SLATE_SUSP.RESUME (R445). -/
def execResume (t : Fin 8) (dt : Nat) (s : State) : Res := s.run fun d => ((d.elapse dt).slTouch t.val).slResume t.val

/-- A write of a Slate register by its offset (R9, R434, R436): the key, the command and the operands by the rules of a sequence; any other
register ends a sequence under way and takes the value: CTL, STAT (write one to clear), RDLY, SUSP. The rest discard what is written. -/
def Dev.slateRegWrite (d : Dev) (t off v fetch purpose : Nat) : Dev :=
  match off with
  | 0x08 => d.slKeyWrite t (v % 2 ^ 16)
  | 0x10 => d.slCmdWrite t (v % 256)
  | 0x18 => d.operandWrite t 0 v fetch purpose
  | 0x20 => d.operandWrite t 1 v fetch purpose
  | 0x28 => d.operandWrite t 2 v fetch purpose
  | 0x48 =>
    let d := d.slTouch t
    let d := if bits v 0 1 = 1 then d.slSuspend t else d
    if bits v 1 1 = 1 then d.slResume t else d
  | _ =>
    (d.onSl t fun s =>
      if off = 0 then { s with stallOk := bits v 0 1 == 1, doneIrq := bits v 1 1 == 1 }
      else if off = 0x30 then
        { s with
          done := s.done && bits v 1 1 == 0, fail := s.fail && bits v 2 1 == 0, underrun := s.underrun && bits v 6 1 == 0
          rdErr := s.rdErr && bits v 7 1 == 0 }
      else if off = 0x40 then { s with tap := v % 16 }
      else s).slTouch t

/-- SLATE_KEY: a write of a Slate register, by its offset; that of SLATE_KEY is 08h. `fetch` and `purpose` as for the starting write of a
command (R434, R436). -/
def execSlateKey (t : Fin 8) (off : BitVec 7) (v : BitVec 64) (fetch : Fin 3) (purpose : Fin 4) (dt : Nat) (s : State) : Res := s.run fun d =>
  (d.elapse dt).slateRegWrite t.val off.toNat v.toNat fetch.val purpose.val

/-- SUSPEND_HOLD_END: 2 ms since the erase resumed, so a held suspend may take effect (R445). -/
def execSuspendHoldEnd (t : Fin 8) (dt : Nat) (s : State) : Res := s.run fun d =>
  let d := d.elapse dt
  let f (o : SlateOp) : SlateOp := if o.held ∧ 2000000 ≤ d.since o.resumedAt then { o with held := false } else o
  d.onSl t.val fun s => { s with ops := s.ops.map fun o => (o.1, f o.2) }

/-- SUSPENDED: the erase whose suspension is asked for and not held suspends at the end of its pulse (R445). -/
def execSuspended (t : Fin 8) (dt : Nat) (s : State) : Res := s.run fun d =>
  let d := d.elapse dt
  [0, 1].foldl (fun d b => match d.slOp t.val b with
    | some o =>
      if o.code = 2 ∧ o.suspReq.isSome ∧ !o.held then
        d.onSl t.val fun s => { s with
          ops := tset (tdel s.ops b) (b + 2) { o with suspended := true, suspReq := none }, lastBank := b }
      else d
    | none => d) d

/-! ### Reads (R441, R444) -/

/-- A read of a line meets an error: 1 corrected, 2 uncorrectable for data, 3 uncorrectable for an instruction fetch (R441). -/
def Dev.slateReadErr (d : Dev) (t e : Nat) : Dev :=
  if e = 0 then d
  else if e = 1 then (d.onSl t fun s => { s with ceCount := satInc 32 s.ceCount }).raise (tsrc t 54) 0x80 1
  else
    let d := (d.onSl t fun s => { s with rdErr := true, ueCount := satInc 16 s.ueCount }).raise (tsrc t 54) 0x81 2
    if e = 3 then d.raise (tsrc t 50) 0x81 4 else d

/-- SLATE_READ_UNDERRUN: a read meets a delay underrun: it is repeated at tap 15, counted and recorded, and the supervisor raises TAP by 2;
`err` is the error that the repeat meets, as above (R441, R444). -/
def execSlateReadUnderrun (t : Fin 8) (err : Fin 4) (dt : Nat) (s : State) : Res := s.run fun d =>
  let d := d.elapse dt
  let d := (d.onSl t.val fun s => { s with underrun := true, underruns := satInc 16 s.underruns, tap := min 15 (s.tap + 2) }).raise
    (tsrc t.val 54) 0x42 2
  d.slateReadErr t.val err.val

/-- The pre-check of R277 is waived in seal stages 2 and 5 (R453). -/
def Dev.recMay (d : Dev) : Bool :=
  (d.sealing.active && (d.sealing.stage == 2 || d.sealing.stage == 5)) || d.gaugePreCheck

/-- PARAMETER_RECORD_WRITE: a write of a record type that is due on a tile, of `len` lines, starts once its pre-check passes and a
sector of its pair has room; the other sector is erased if it is not ready. During the try of an image with another settings format it is
written in both formats (R452, R453, R471). -/
def execParameterRecordWrite (t : Fin 8) (typ len : Nat) (dt : Nat) (s : State) : Res := s.run fun d =>
  let d := d.elapse dt
  let t := t.val
  if !(d.sl t).pend.contains typ ∨ !d.recMay ∨ len = 0 ∨ d.slBusy t 0 then d
  else
    let d := d.recWrite t typ len
    if d.upd.keepOld ∧ typ ≠ 0x67 ∧ typ < 0x10000 ∧ (d.urec t).trySlot = some (tget d.upd.running 0 t) then d.recWrite t (typ + 0x10000) len else d

/-! ### The event store (R455) -/

/-- How many records of a type are kept; the extracts of 256 entries are kept as 256 at most (R455). -/
def storeKeep (typ : Nat) : Nat := if typ = 0x51 then 128 else if typ = 0x54 then 64 else if typ = 0x56 then 256 else 1

/-- A record that is kept: among the newest of its type. -/
def Dev.storeKept (d : Dev) (t : Nat) (r : EvtRec) : Bool :=
  decide (((d.sl t).store.countP fun x => x.typ == r.typ && decide (r.rseq < x.rseq)) < storeKeep r.typ)

/-- The kept records of sector `k` are rewritten into the current sector, and sector `k` is erased (R455). -/
def Dev.storeMove (d : Dev) (t k purpose : Nat) : Dev :=
  let mv := ((d.sl t).store.filter fun r => r.sector == k && d.storeKept t r).reverse
  let d := d.onSl t fun x => { x with store := x.store.filter fun r => r.sector != k }
  let ls := mv.map fun r => (r, (List.range (r.size / 16)).map fun i => tget (d.sl t).lines (BitVec.allOnes 128) (r.line + i))
  let d := ls.foldl (fun d r => d.storePut t r.1.typ r.1.rseq r.2) d
  d.eraseRun t (0x3C + k) purpose

/-- EVENT_STORE_ROTATION: free space in the current sector has fallen below 96 KiB: the kept records of the oldest sector move and
it is erased (R455). -/
def execEventStoreRotation (t : Fin 8) (dt : Nat) (s : State) : Res := s.run fun d =>
  let d := d.elapse dt
  let t := t.val
  let k := (d.sl t).storeSector
  let o := d.storeNext t k
  if 16384 - d.secUsed t (0x3C + k) < 6144 ∧ o ≠ k ∧ d.secUsed t (0x3C + o) ≠ 0 ∧ !(d.slBusy t 1) then d.storeMove t o 0 else d

/-! ### Refresh (R457, R458, R482) -/

/-- Five years and one year of 365 days, ns. -/
def fiveYears : Nat := 5 * 365 * 86400000000000

/-- A refresh may run: in service after early open, no seal, no update slot owned and no try pending (R457, R482). -/
def Dev.refreshMay (d : Dev) : Bool :=
  d.restore.ready && !d.sealing.active && (d.urec d.pkg.lead).owner == 255 && (d.urec d.pkg.lead).trySlot.isNone && !d.upd.xfer.active

/-- SLATE_REFRESH: a sector last erased more than 5 years ago, or whose yearly margin verify fails, is refreshed (R457, R458). -/
def execSlateRefresh (t : Fin 8) (sector : Fin 63) (marginFails : Bool) (dt : Nat) (s : State) : Res := s.run fun d =>
  let d := d.elapse dt
  let t := t.val
  let k := sector.val
  let x := d.sl t
  let b := slateBank (secBase k)
  let old := decide (fiveYears < d.since (tget x.lastErase 0 k))
  let verify := decide (fiveYears / 5 ≤ d.since (tget x.lastVerify 0 k)) && !(d.slBusy t b)
  let d := if verify then d.onSl t fun x => { x with lastVerify := tset x.lastVerify k d.now } else d
  let d := if verify ∧ marginFails then d.raise (tsrc t 53) 0x84 2 (detail := [k]) else d
  let r := d.urec t
  let main := k < 2 ∨ (0x22 ≤ k ∧ k < 0x3C)
  let mayMain := if k < 2 then !(x.badSectors.contains (1 - k)) else if k < 0x2F then r.stateB == 1 else r.stateA == 1
  if !d.refreshMay ∨ x.refresh.isSome ∨ d.slBusy t b ∨ !(old || (verify && marginFails)) then d
  else if main then
    if mayMain then
      (d.onSl t fun y => { y with refresh := some k, refreshImg := d.secContents t k }).eraseRun t k 1
    else d
  else if 0x3C ≤ k then
    let d := if (d.sl t).storeSector = k - 0x3C then d.onSl t fun y => { y with storeSector := d.storeNext t (k - 0x3C) } else d
    (d.onSl t fun y => { y with refresh := some k }).storeMove t (k - 0x3C) 1
  else if k < 26 then
    let held := (x.recs.filter fun e => e.2.sector == k).map fun e => e.1
    if held.isEmpty then (d.onSl t fun y => { y with refresh := some k }).eraseRun t k 1
    else held.foldl (fun d typ => d.recDueOn t typ) d
  else if d.secUsed t k = 0 then (d.onSl t fun y => { y with refresh := some k }).eraseRun t k 1
  else d

end Sys2Proof.Machine
end

