-- ==== Sys2Proof/Machine/JcsCore.lean ====
section
/-! DEFINITION. What every JCS command shares: callers, responses, leases, the table of commands and the order of the checks
(chapter 13, R397 to R409, R414). -/

namespace Sys2Proof.Machine

/-! ### Callers and responses (R397, R398, R401, R409) -/

/-- Who sends a command: the principal, 0 H0, 1 H1, 2 SB, 3 LP, the peer's unique ID for LP, and the MCTP tag. -/
structure Caller where
  /-- Principal code. -/
  p : Nat
  /-- Unique ID of an LP peer. -/
  uid : Nat := 0
  /-- MCTP or relay tag. -/
  tag : Nat := 0
  deriving DecidableEq, Repr

/-- What a command answers: extended status, output payload, and whether it goes on in the background, or answers later. -/
structure Rsp where
  /-- Extended status. -/
  ext : Nat := 0
  /-- Output payload. -/
  out : List Byte := []
  /-- A background command has started; its argument in the background slot. -/
  bg : Option Nat := none
  /-- The response follows later. -/
  later : Bool := false
  deriving DecidableEq, Repr

/-- A refusal with a status and no output. -/
def Rsp.err (ext : Nat) : Rsp := { ext := ext }

/-- Send a response: a head's mailbox registers take it, and it goes out on the caller's transport (R397, R398),
a peer's as a relay message (R393); the command is no longer accepted and uncompleted (R20). -/
def Dev.respond (d : Dev) (c : Caller) (opcode ret ext : Nat) (bg : Bool) (out : List Byte) : Dev :=
  let mine (q : QCmd) : Bool := q.by_ == c.p && q.tag == c.tag && q.opcode == opcode
  let d := d.onJcs fun j => { j with
    done := j.done.filter fun t => !(j.inProg.any fun q => mine q && q.stamp == t)
    inProg := j.inProg.filter fun q => !mine q }
  let d := if c.p < 2 then d.onHead c.p fun h => { h with mboxBusy := false, mboxRet := ret, mboxExt := ext, mboxOut := out } else d
  let d := if c.p = 2 then d.onJcs fun j => { j with mctpBusy := j.mctpBusy.filter fun t => t != c.tag } else d
  let d := d.emit (.resp c.p opcode c.tag ret ext bg out)
  if c.p = 3 then d.sendMsg c.uid 9 2 [1, c.tag, 0, ext, opcode, ret, bit bg] out else d

/-- Send a CXL command's response through the mailbox of head `h`. -/
def Dev.cxlRespond (d : Dev) (h opcode ext : Nat) (vals : List Nat) : Dev :=
  (d.onHead h fun x => { x with mboxBusy := false, mboxRet := retOf ext, mboxExt := ext, mboxOut := [] }).emit
    (.cxlResp h opcode (retOf ext) ext vals)

/-! ### Leases (R404 to R407) -/

/-- The lease of a resource. -/
def Dev.lease (d : Dev) (res : Nat) : Lease_ := tget d.jcs.leases {} res

/-- Whether a caller holds a lease. -/
def Lease_.heldBy (l : Lease_) (c : Caller) : Bool := l.holder == c.p && (c.p != 3 || l.uid == c.uid)

/-- End a lease, with the mirroring that R18 asks at every change of a lease. -/
def Dev.endLease (d : Dev) (res : Nat) : Dev := (d.onJcs fun j => { j with leases := tdel j.leases res }).mirrorNow

/-- End every lease that satisfies `f`; the update slot's follows the rules of R466. -/
def Dev.endLeases (d : Dev) (f : Lease_ → Bool) : Dev :=
  (d.onJcs fun j => { j with leases := j.leases.filter fun e => e.1 == 0x4003 || !f e.2 }).mirrorNow

/-- The holder's command keeps its lease from lapsing (R406). -/
def Dev.useLease (d : Dev) (c : Caller) (res : List Nat) : Dev :=
  res.foldl (fun d r => if (d.lease r).heldBy c then d.onJcs fun j => { j with leases := tmod j.leases {} r fun l => { l with last := d.now } } else d) d

/-- The 4-byte output of a refusal with LEASE_CONFLICT or BUSY (R407). -/
def conflictOut (winner res : Nat) : List Byte := [BitVec.ofNat 8 winner, 0] ++ leBytes 2 res

/-- What the leases say to a changing command on resources (R405): the first conflict. -/
def Dev.leaseGate (d : Dev) (c : Caller) (res : List Nat) (held : Bool) : Option Rsp :=
  (res.find? fun r => let l := d.lease r; !(l.heldBy c) && (held || l.holder != 255)).map fun r =>
    { ext := 6, out := conflictOut (d.lease r).holder r }

/-! ### The table of commands (R414 to R429) -/

/-- Which resource a command names. -/
inductive LeaseKind where
  /-- None. -/
  | none_
  /-- The context of bytes 0–1. -/
  | ctx
  /-- The bay of byte 0. -/
  | bay
  /-- Both bays. -/
  | bays
  /-- The test seal. -/
  | testSeal
  /-- The update slot. -/
  | update
  /-- The lattice configuration. -/
  | lattice
  /-- The exposure policy. -/
  | policy
  /-- The resource code of bytes 0–1. -/
  | named
  deriving DecidableEq, Repr

/-- A row of the command tables: opcode, principals allowed (bit 0 H0, 1 H1, 2 SB, 3 LP), whether a head must own the context of
bytes 0–1, its lease and whether it must be held, whether it runs in the background, the shortest input, whether it is a changing
command, and whether it is served before early open (R112) and in a seal (R94). -/
structure CmdRow where
  /-- Opcode. -/
  op : Nat
  /-- Principals. -/
  by_ : Nat
  /-- Head must own the context named. -/
  own : Bool := false
  /-- Lease named. -/
  lease : LeaseKind := .none_
  /-- Lease marked held. -/
  held : Bool := false
  /-- Background. -/
  bg : Bool := false
  /-- Shortest input, bytes. -/
  len : Nat := 0
  /-- Changing. -/
  chg : Bool := false
  /-- Served before early open. -/
  early : Bool := false
  /-- Served in a seal. -/
  inSeal : Bool := false
  deriving DecidableEq, Repr

/-- Identity, contexts and rings (R415 to R417). -/
def rows1 : List CmdRow := [
  { op := 0xC400, by_ := 15, len := 8, early := true },
  { op := 0xC401, by_ := 15, early := true, inSeal := true },
  { op := 0xC402, by_ := 15, len := 8 },
  { op := 0xC403, by_ := 4 },
  { op := 0xC410, by_ := 4, lease := .ctx, len := 12, chg := true },
  { op := 0xC411, by_ := 4, lease := .ctx, bg := true, len := 8, chg := true },
  { op := 0xC412, by_ := 4, lease := .ctx, bg := true, len := 12, chg := true },
  { op := 0xC413, by_ := 4, lease := .ctx, bg := true, len := 8, chg := true },
  { op := 0xC414, by_ := 4, lease := .ctx, bg := true, len := 3, chg := true },
  { op := 0xC415, by_ := 7, own := true, lease := .ctx, bg := true, len := 2, chg := true },
  { op := 0xC416, by_ := 7, own := true, lease := .ctx, len := 2, chg := true },
  { op := 0xC417, by_ := 4, lease := .ctx, bg := true, len := 2, chg := true },
  { op := 0xC418, by_ := 7, own := true, len := 2 },
  { op := 0xC419, by_ := 7, own := true, lease := .ctx, len := 8, chg := true },
  { op := 0xC41A, by_ := 7, own := true, len := 26 },
  { op := 0xC41B, by_ := 4, len := 4 },
  { op := 0xC420, by_ := 3, own := true, lease := .ctx, len := 32, chg := true },
  { op := 0xC421, by_ := 3, own := true, lease := .ctx, bg := true, len := 3, chg := true },
  { op := 0xC422, by_ := 3, own := true, lease := .ctx, len := 10, chg := true },
  { op := 0xC423, by_ := 7, own := true, len := 3 }]

/-- Exposure, energy and thermal (R418 to R420). -/
def rows2 : List CmdRow := [
  { op := 0xC430, by_ := 15, inSeal := true },
  { op := 0xC431, by_ := 7, lease := .policy, held := true, len := 16, chg := true },
  { op := 0xC432, by_ := 15 },
  { op := 0xC433, by_ := 7, len := 4 },
  { op := 0xC440, by_ := 15, inSeal := true },
  { op := 0xC441, by_ := 15, lease := .bay, len := 1, chg := true },
  { op := 0xC442, by_ := 4, lease := .bay, held := true, len := 2, chg := true },
  { op := 0xC443, by_ := 4, lease := .bay, held := true, len := 2, chg := true },
  { op := 0xC444, by_ := 7, lease := .testSeal, held := true, bg := true, len := 8, chg := true },
  { op := 0xC445, by_ := 7, lease := .policy, held := true, len := 10, chg := true },
  { op := 0xC446, by_ := 4, lease := .bay, held := true, len := 24, chg := true },
  { op := 0xC447, by_ := 4, lease := .bays, held := true, len := 16, chg := true },
  { op := 0xC448, by_ := 4, lease := .bays, held := true, len := 512, chg := true },
  { op := 0xC449, by_ := 7 },
  { op := 0xC450, by_ := 15 },
  { op := 0xC451, by_ := 4, lease := .policy, held := true, len := 12, chg := true },
  { op := 0xC452, by_ := 4, lease := .bays, held := true, len := 32, chg := true },
  { op := 0xC453, by_ := 7, len := 1 }]

/-- Flint, snapshots, time and lattice (R421 to R424). -/
def rows3 : List CmdRow := [
  { op := 0xC460, by_ := 15, len := 10, early := true, inSeal := true },
  { op := 0xC461, by_ := 15, len := 1, early := true, inSeal := true },
  { op := 0xC462, by_ := 7, len := 8, chg := true },
  { op := 0xC463, by_ := 7, lease := .policy, held := true, len := 16, chg := true },
  { op := 0xC464, by_ := 4, len := 2, chg := true },
  { op := 0xC465, by_ := 7, len := 4, early := true, inSeal := true },
  { op := 0xC470, by_ := 7, chg := true },
  { op := 0xC471, by_ := 7, len := 16, chg := true },
  { op := 0xC472, by_ := 7, len := 18, chg := true },
  { op := 0xC473, by_ := 7, len := 6 },
  { op := 0xC474, by_ := 15, len := 1, chg := true },
  { op := 0xC475, by_ := 15, len := 4, chg := true },
  { op := 0xC480, by_ := 15 },
  { op := 0xC481, by_ := 4, len := 12, chg := true },
  { op := 0xC482, by_ := 4, len := 5, chg := true },
  { op := 0xC490, by_ := 15, len := 4 },
  { op := 0xC491, by_ := 4, lease := .lattice, held := true, len := 6, chg := true },
  { op := 0xC492, by_ := 4, lease := .lattice, held := true, len := 16, chg := true },
  { op := 0xC493, by_ := 4, lease := .lattice, held := true, bg := true, len := 16, chg := true },
  { op := 0xC494, by_ := 4, lease := .lattice, held := true, len := 8, chg := true },
  { op := 0xC495, by_ := 7, len := 6 },
  { op := 0xC496, by_ := 4, lease := .lattice, held := true, bg := true, len := 16, chg := true },
  { op := 0xC497, by_ := 4, lease := .lattice, held := true, len := 3, chg := true },
  { op := 0xC498, by_ := 7, bg := true, len := 18, chg := true },
  { op := 0xC499, by_ := 15, len := 4 }]

/-- Ranks, Strata, leases, restore status and update (R425 to R429). -/
def rows4 : List CmdRow := [
  { op := 0xC4A0, by_ := 7, len := 1 },
  { op := 0xC4A1, by_ := 4, len := 2 },
  { op := 0xC4A2, by_ := 4, len := 2, chg := true },
  { op := 0xC4A3, by_ := 4, len := 2, chg := true },
  { op := 0xC4A4, by_ := 4, len := 10, chg := true },
  { op := 0xC4B0, by_ := 15 },
  { op := 0xC4B1, by_ := 7, lease := .policy, held := true, len := 1, chg := true },
  { op := 0xC4B2, by_ := 7, own := true, len := 6 },
  { op := 0xC4B3, by_ := 7, own := true, lease := .ctx, len := 16, chg := true },
  { op := 0xC4B4, by_ := 7, own := true, len := 22 },
  { op := 0xC4C0, by_ := 15, lease := .named, len := 4, chg := true },
  { op := 0xC4C1, by_ := 15, len := 2, chg := true },
  { op := 0xC4C2, by_ := 15, len := 2 },
  { op := 0xC4C3, by_ := 4, len := 2, chg := true },
  { op := 0xC4D0, by_ := 15, early := true, inSeal := true },
  { op := 0xC4D1, by_ := 7, len := 6, early := true, inSeal := true },
  { op := 0xC4D2, by_ := 7, len := 2, early := true, inSeal := true },
  { op := 0xC4E0, by_ := 15 },
  { op := 0xC4E1, by_ := 4, len := 1, chg := true },
  { op := 0xC4E2, by_ := 4, chg := true },
  { op := 0xC4E3, by_ := 4, lease := .update, held := true, chg := true }]

/-- The row of an opcode; none where it is unassigned. -/
def cmdRow (op : Nat) : Option CmdRow := (rows1 ++ rows2 ++ rows3 ++ rows4).find? fun r => r.op == op

/-- The resources that a command names. -/
def CmdRow.resources (r : CmdRow) (p : List Byte) : List Nat :=
  match r.lease with
  | .none_ => []
  | .ctx => [fieldAt p 0 2]
  | .bay => [0x4000 + fieldAt p 0 1]
  | .bays => [0x4000, 0x4001]
  | .testSeal => [0x4002]
  | .update => [0x4003]
  | .lattice => [0x4004]
  | .policy => [0x4005]
  | .named => [fieldAt p 0 2]

/-- Every resource that a command names, for the holder's idle time (R406): the lease's, and the context or resource of bytes 0–1. -/
def CmdRow.names (r : CmdRow) (p : List Byte) : List Nat :=
  r.resources p ++ (if r.lease = .none_ ∧ (r.own ∨ (0xC4C1 ≤ r.op ∧ r.op ≤ 0xC4C3)) then [fieldAt p 0 2] else [])

/-! ### The checks of R403 -/

/-- Steps 1 to 3 of R403, and the shortest input of step 4: the status that refuses the command, 0 for none. A test seal is a seal
here (R79), and in the safe state no more than the reads of R94 is served (R319) (DEDUCED). -/
def Dev.admission (d : Dev) (r : CmdRow) (c : Caller) (p : List Byte) : Nat :=
  if !(Nat.testBit r.by_ c.p) then 5
  else if d.pkg.bedrock ∧ r.op ≠ 0xC400 ∧ r.op ≠ 0xC401 ∧ r.op ≠ 0xC4E0 then 0x16
  else if !d.restore.ready ∧ !d.pkg.bedrock ∧ !r.early then 7
  else if (d.sealing.active ∨ d.pkg.safe ≠ 0) ∧ !r.inSeal then 8
  else if p.length < r.len then 2
  else if r.own ∧ 0x4000 ≤ fieldAt p 0 2 then 2
  else if r.lease = .ctx ∧ 0x4000 ≤ fieldAt p 0 2 then 2
  else 0

/-- A head's command on a context that it does not own (R175, R407). -/
def Dev.notOwner (d : Dev) (r : CmdRow) (c : Caller) (p : List Byte) : Option Rsp :=
  let o := (d.ctx (fieldAt p 0 2)).owner
  if r.own ∧ c.p < 2 ∧ o ≠ c.p + 1 then
    some { ext := 6, out := conflictOut (if o = 0 then 255 else o - 1) (fieldAt p 0 2) }
  else none

/-- The CXL return code of a refusal: a length error has its own (R409). -/
def admitRet (r : CmdRow) (p : List Byte) (ext : Nat) : Nat := if ext = 2 ∧ p.length < r.len then 0x16 else retOf ext

/-- Whether commands are answered: the core has power, phase 2 has ended (R109, R112), no takeover is under way (R20), and a supervisor
runs, or the ROM in Bedrock (R319, R484). -/
def Dev.answers (d : Dev) : Bool :=
  d.panel.coreUp && d.restore.phase != 1 && d.restore.phase != 2 && d.pkg.takeStep == 0 && (d.pkg.bedrock || tiles8.any d.supv)

/-- The effect of a command that no check before it has refused: one background command of a caller at a time, the lease kept from lapsing,
the effect `act`, the response, and after a changing command the mirroring (R18, R400, R406). -/
def Dev.jcsEffect (d : Dev) (op : Nat) (act : Dev → Caller → List Byte → Dev × Rsp) (r : CmdRow) (c : Caller) (p : List Byte) : Dev :=
  if r.bg ∧ (d.bgOf c.p).running then d.respond c op (retOf 9) 9 false (conflictOut c.p ((r.resources p).headD 0))
  else
    let now := d.now
    let d := d.onJcs fun j => { j with inProg := j.inProg ++ [{ by_ := c.p, uid := c.uid, tag := c.tag, stamp := now, opcode := op }] }
    let (d, x) := act (d.useLease c (r.names p)) c p
    let d := if x.later then
        (if d.jcs.inProg.any fun q => q.by_ == c.p && q.tag == c.tag && q.opcode == op then
          d.onJcs fun j => { j with done := j.done ++ [now] } else d)
      else match x.bg with
        | some a =>
          (d.onBg c.p fun _ => { opcode := op, running := true, arg := a }).respond c op 1 0 true []
        | none => d.respond c op (retOf x.ext) x.ext false x.out
    if r.chg then d.mirrorNow else d

/-- A JCS command of a caller, from its admission to its response (R400, R403, R405, R406): the checks of the row, the fields by
`check` (0, or a status), the leases, one background command at a time, and then its effect `act`. In Bedrock neither MCTP nor the
lattice is served (R396, R484). -/
def Dev.jcsDo (d : Dev) (op : Nat) (check : Dev → Caller → List Byte → Nat) (act : Dev → Caller → List Byte → Dev × Rsp)
    (c : Caller) (p : List Byte) : Dev :=
  if !d.answers ∨ (d.pkg.bedrock ∧ 2 ≤ c.p) then d
  else match cmdRow op with
  | none => d.respond c op (retOf 1) 1 false []
  | some r =>
    let e := d.admission r c p
    if e ≠ 0 then d.respond c op (admitRet r p e) e false []
    else
      let e := check d c p
      if e ≠ 0 then d.respond c op (retOf e) e false []
      else
        let res := r.resources p
        match (d.notOwner r c p).or (if r.chg then d.leaseGate c res r.held else none) with
        | some x => d.respond c op (retOf x.ext) x.ext false x.out
        | none => d.jcsEffect op act r c p

/-- No field to check beyond the row's length. -/
def noCheck (_ : Dev) (_ : Caller) (_ : List Byte) : Nat := 0

end Sys2Proof.Machine
end

