-- ==== Sys2Proof/Machine/Quartz.lean ====
section
/-! DEFINITION. The Quartz timebase, PPS and the snapshot unit (chapter 11). -/

namespace Sys2Proof.Machine

/-! ### Status (R342, R350, R351) -/

/-- The time source in use: 0 free run, 1 PPS_IN, 2 lattice, 3 real-time domain (R342). -/
def Dev.timeSrc (d : Dev) : Nat :=
  let q := d.qtz
  if q.refLost then 3 else if q.hasTime ∧ !q.isRoot then 2 else if q.ppsEn ∧ q.ppsState = 2 then 1 else 0

/-- The clock-quality class of this node, from its own sources (R351). -/
def Dev.clockClass (d : Dev) : Nat :=
  let q := d.qtz
  if !q.rootEn then 0
  else if q.contLost ∨ q.refLost then 1
  else if q.ppsState = 2 then (if q.ofsValid then 6 else 5)
  else if !q.ofsValid then 2
  else if d.uncNow ≤ 1000 then 4 else 3

/-- QTZ_STATUS, updated at every change and every 10 ms (R350). -/
def Dev.qtzUpd (d : Dev) : Dev :=
  let q := d.qtz
  d.dwUpd 0x2040 8
    (put 0 2 d.timeSrc + put 2 2 q.ppsState + put 4 1 (bit q.ofsValid) + put 5 1 (bit q.contLost) + put 6 3 d.clockClass
      + put 9 1 (bit q.isRoot) + put 10 5 (if q.isRoot then 0 else if q.hasTime then q.hops else 31) + put 15 1 (bit q.refLost)
      + put 16 18 (twos 18 q.rate) + put 34 16 d.uncNow)

/-- QTZ_STATUS_UPDATE: the register, every 10 ms (R350, R522). -/
def execQtzStatusUpdate (dt : Nat) (s : State) : Res := s.run fun d => (d.elapse dt).periodic 3 10000000 Dev.qtzUpd

/-- UTC at this instant; 0 while OFS_VALID is 0 (R340, R350). -/
def Dev.utcNow (d : Dev) : Int := if d.qtz.ofsValid then (d.qtz.count : Int) + d.qtz.offset else 0

/-- QTZ_NOW_READ: a head reads QTZ_NOW: `half` 0 the whole, 1 its low half, both of which latch the count and UTC for the head; 2 the
high half of what its last low read latched (R350). -/
def execQtzNowRead (h : Fin 2) (half : Fin 3) (dt : Nat) (s : State) : Res := s.run fun d =>
  let d := d.elapse dt
  if half.val = 2 then d.emit (.dwData h.val (leBytes 4 (tget d.qtz.latchCnt 0 h.val / 2 ^ 32)))
  else
    let c := d.qtz.count
    let u := d.utcNow
    (d.onQtz fun q => { q with latchCnt := tset q.latchCnt h.val c, latchUtc := tset q.latchUtc h.val u }).emit
      (.dwData h.val (leBytes (if half.val = 0 then 8 else 4) c))

/-! ### The UTC offset (R208, R340, R347) -/

/-- OFFSET changes: its source is kept, it becomes valid, CONT_LOST clears, the running minute takes its new boundary, and a write of
its record falls due (R208, R340, R347). `src`: 1 SB, 2 PPS_IN, 3 the lattice. -/
def Dev.setOffset (d : Dev) (v : Int) (src : Nat) : Dev :=
  let d := d.uncSync.onQtz fun q => { q with offset := v, ofsValid := true, ofsSource := src, contLost := false }
  let d := d.onCtxs fun x => { x with minuteEnd := d.nextBoundary (d.now + 999999999) }
  d.recDue 0x66

/-! ### PPS_IN (R343, R344) -/

/-- The PPS state enters HOLD, is shown in one status update, and goes to SEARCH; r stays at f (R343). -/
def Dev.ppsHold (d : Dev) : Dev :=
  let d := (d.uncSync.onQtz fun q => { q with ppsState := 3, rate := q.freq, ppsRun := 0, ppsRejects := 0, ppsLastValid := none }).qtzUpd
  (d.raise 802 0x40 2).onQtz fun q => { q with ppsState := 1 }

/-- Limit to ±100,000 ppb. -/
def clampPpb (x : Int) : Int := max (-100000) (min 100000 x)

/-- The phase error of an edge, wrapped into ±0.5 s (R344). -/
def phaseErr (edge : Nat) (offset : Int) : Int :=
  let e := ((edge : Int) + offset) % 1000000000
  if 500000000 ≤ e then e - 1000000000 else e

/-- The loop of R344 at an edge; on a lattice follower, and while the reference is lost, PPS_IN is timed but does
not discipline (R342). -/
def Dev.ppsLoop (d : Dev) (edge prev : Nat) (acquiring : Bool) : Dev :=
  let q := d.qtz
  let use := !(q.hasTime && !q.isRoot) && !q.refLost
  if q.ofsValid then
    let e := phaseErr edge q.offset
    let big := decide (1000000 < e) || decide (e < -1000000)
    if big ∧ !acquiring then
      let n := q.ppsRejects + 1
      let d := (d.onQtz fun q => { q with ppsRejects := n }).raise 802 0x44 0
      if 3 ≤ n then d.ppsHold else d
    else
      let d := d.onQtz fun q => { q with ppsRejects := 0 }
      if !use then d
      else
        let d := if big then (d.setOffset (q.offset - e) 2).raise 800 0x14 0 else d
        let e := if big then 0 else e
        d.onQtz fun q => { q with freq := clampPpb (q.freq - e.tdiv 256), rate := clampPpb (clampPpb (q.freq - e.tdiv 256) - e.tdiv 16) }
  else if !use then d
  else
    let x : Int := (edge : Int) - prev - 1000000000
    d.onQtz fun q => { q with freq := clampPpb (q.freq - x.tdiv 4), rate := clampPpb (q.freq - x.tdiv 4) }

/-- PPS_IN_EDGE: a rising edge of PPS_IN that stays high for `width` ns (R343, R344); during a takeover no Quartz master runs, so the edge is
timed only (R19, R20). -/
def execPpsInEdge (width : Nat) (dt : Nat) (s : State) : Res := s.run fun d =>
  let d := d.elapse dt
  let q := d.qtz
  let c := q.count
  if !q.ppsEn ∨ !q.running then d
  else if d.pkg.takeStep ≠ 0 then d.onQtz fun q => { q with ppsEdge := c }
  else
    let follower := q.hasTime && !q.isRoot
    let d := if follower then d.onQtz fun q => { q with ppsEdge := c } else d
    let spaced : Bool := match q.ppsLastValid with
      | none => false
      | some p => decide (999750000 ≤ c - p) && decide (c - p ≤ 1000250000)
    let first := decide (q.ppsState = 1) && !spaced
    if width < 100 ∨ (!spaced ∧ !first) then d
    else
      let run := if first then 1 else q.ppsRun + 1
      let prev := q.ppsLastValid.getD c
      let d := d.onQtz fun q => { q with ppsEdge := c, ppsLastValid := some c, ppsRun := run }
      if q.ppsState = 2 then d.ppsLoop c prev false
      else if 3 ≤ run then
        let d := d.uncSync.onQtz fun q => { q with ppsState := 2, ppsRejects := 0, unc := 1 }
        ((d.ppsLoop c prev true).raise 802 0x14 0).qtzUpd
      else d

/-- PPS_TIMEOUT: LOCKED, and no valid edge for 2 s (R343). -/
def execPpsTimeout (dt : Nat) (s : State) : Res := s.run fun d =>
  let d := d.elapse dt
  match d.qtz.ppsLastValid with
  | some t => if d.qtz.ppsState = 2 ∧ d.pkg.takeStep = 0 ∧ 2000000000 ≤ d.now - t then d.ppsHold else d
  | none => d

/-! ### PPS_OUT (R349) -/

/-- The instant lies on a second of UTC, or of the count while OFS_VALID is 0, within 5 ns. -/
def Dev.onSecond (d : Dev) : Bool :=
  let u : Int := if d.qtz.ofsValid then d.qtz.offset else 0
  let m := ((d.qtz.count : Int) + u) % 1000000000
  decide (m ≤ 5) || decide (999999995 ≤ m)

/-- PPS_OUT_EDGE: PPS_OUT rises at a second boundary, or the edge is omitted less than 500 ms after the previous one (R349). -/
def execPpsOutEdge (dt : Nat) (s : State) : Res := s.run fun d =>
  let d := d.elapse dt
  let near : Bool := match d.qtz.ppsOutLast with
    | some t => decide (d.now - t < 500000000)
    | none => false
  if d.qtz.ppsOutEn ∧ d.qtz.running ∧ 3 ≤ d.restore.phase ∧ !d.pkg.bedrock ∧ d.onSecond ∧ !near then
    d.onQtz fun q => { q with ppsOut := true, ppsOutLast := some d.now }
  else d

/-- PPS_OUT_FALL: PPS_OUT falls 10 ms after its rising edge (R349). -/
def execPpsOutFall (dt : Nat) (s : State) : Res := s.run fun d =>
  let d := d.elapse dt
  match d.qtz.ppsOutLast with
  | some t => if d.qtz.ppsOut ∧ 9999000 ≤ d.now - t then d.onQtz fun q => { q with ppsOut := false } else d
  | none => d

/-! ### Standby count, time record, reference (R341, R345, R346) -/

/-- STANDBY_COUNT_LOAD: at a second boundary of the count the standby count is loaded with the count + 100 µs (R345). -/
def execStandbyCountLoad (dt : Nat) (s : State) : Res := s.run fun d =>
  let d := d.elapse dt
  if d.qtz.running then
    d.onQtz fun q => { q with standby := q.count + 100000, standbyFrac := 0, standbyValid := true }
  else d

/-- QUARTZ_TIME_RECORD: the hourly Quartz time record is written under the pre-check (R277, R337, R346). -/
def execQuartzTimeRecord (dt : Nat) (s : State) : Res := s.run fun d =>
  let d := d.elapse dt
  if d.qtz.running ∧ d.recMay then
    ((d.recWritePkg 0x65 2).stampFloor).onQtz fun q => { q with epochSet := true }
  else d

/-- REFERENCE_LOST: the count runs from the real-time domain, the class is 1, and source 801 sends an Urgent message (R341). -/
def execReferenceLost (dt : Nat) (s : State) : Res := s.run fun d =>
  let d := d.elapse dt
  let d := if d.qtz.refLost then d else d.raise 801 0x40 4
  (d.uncSync.onQtz fun q => { q with refLost := true, refSince := d.now }).qtzUpd

/-- REFERENCE_GOOD: 1 s without a loss condition (R341). -/
def execReferenceGood (dt : Nat) (s : State) : Res := s.run fun d =>
  let d := d.elapse dt
  if d.qtz.refLost ∧ 1000000000 ≤ d.since d.qtz.refSince then
    ((d.uncSync.onQtz fun q => { q with refLost := false }).raise 801 0x14 0).qtzUpd
  else d

/-! ### Snapshots (R353 to R359) -/

/-- The populated Flint sources, in ascending order (R313). -/
def snapSources : List Nat := (tiles8.flatMap fun t => (List.range 78).map fun o => tsrc t o) ++ (List.range 92).map fun i => 768 + i

/-- The Direct Window registers whose values are a source's state words (R358). -/
def snapRegs (src : Nat) : List Nat :=
  if src < 768 then
    let t := src / 96
    let o := src % 96
    if o < 16 ∧ o % 4 = 0 then [0x800 + t * 0x20 + o / 4 * 8]
    else if o < 16 ∧ o % 4 = 3 then [0, 1, 2, 3].map fun i => 0x900 + t * 0x80 + (o / 4 + 4 * i) * 8
    else if o = 45 then [0x540 + 8 * t]
    else if 55 ≤ o ∧ o ≤ 60 then [0x1000 + 8 * (8 * t + (o - 55))]
    else if o = 61 then [0xF40 + 8 * t]
    else if o = 62 then [0x400 + 8 * t]
    else []
  else match src with
    | 805 => [0xE40, 0xE48, 0xE50, 0xE58, 0xE60, 0xE68]
    | 807 => [0xE00, 0xE10]
    | 808 => [0xE08, 0xE18]
    | 809 => [0xE20]
    | 811 => [0x500, 0x508, 0x680, 0x688]
    | 812 => [0x600]
    | 813 => [0x640, 0x648]
    | 833 => [0x1400, 0xF00]
    | _ => []

/-- The state words of a source at capture; those of 800 are live (R358). -/
def Dev.snapWords (d : Dev) (src : Nat) : List (BitVec 64) :=
  if src = 800 then
    [BitVec.ofNat 64 d.qtz.count, BitVec.ofNat 64 (d.dwGet 0x2040 0), BitVec.ofInt 64 d.qtz.offset, BitVec.ofInt 64 d.qtz.loff]
  else (snapRegs src).map fun o => BitVec.ofNat 64 (d.dwGet o 0)

/-- The longest CAPTURE_DT of a source, ns (R355). -/
def captureMax (src : Nat) : Nat := if src = 803 then 92000 else if src = 805 then 600 else 300

/-- A section: missing for a source of an isolated tile; its delay is a free value within its bound (R355, R358). -/
def Dev.snapSection (d : Dev) (i src : Nat) : SnapSection :=
  if src < 768 ∧ (d.tile (src / 96)).isolated then { src := src }
  else
    { src := src, captured := true, captureDt := Config.freeValue (d.freeN + i) % (captureMax src + 1)
      ce := tget d.flint.ce 0 src, sev2 := tget d.flint.sev2 0 src, words := d.snapWords src }

/-- QTZ_SNAP_STAT. -/
def Dev.snapUpd (d : Dev) : Dev :=
  d.dwUpd 0x3000 8
    (sumBy [0, 1, 2, 3] (fun b => put (2 * b) 2 (tget d.snap.banks {} b).state) + put 8 4 d.snap.sched.length + put 12 16 d.snap.missed
      + put 28 1 (bit d.qtz.snapInEn) + put 29 1 (bit d.qtz.ppsOutEn))

/-- The bank a trigger takes: bank 0 for a first fault, if free; else the lowest free of 1 to 3 (R353). -/
def Dev.snapBank (d : Dev) (first : Bool) : Option Nat :=
  (if first then [0, 1, 2, 3] else [1, 2, 3]).find? fun b => (tget d.snap.banks {} b).state == 0

/-- A capture of every block's state into one bank, or a missed trigger (R353, R355, R358, R360). -/
def Dev.snapCapture (d : Dev) (cause : BitVec 16) (owner reqNode reqId : Nat) (ff : BitVec 64) : Dev :=
  match d.snapBank (mbit cause 0) with
  | none => ((d.onSnap fun s => { s with missed := satInc 16 s.missed }).raise 837 0x13 0).snapUpd
  | some b =>
    let l : Int := if d.qtz.hasTime then (d.qtz.count : Int) + d.qtz.loff else 0
    let bank : SnapBank :=
      { state := 1, owner := owner, tTrig := d.now, lTrig := l, cause := cause, reqNode := reqNode, reqId := reqId, ffMsg := ff
        flags := (if d.sealing.active then 2 else 0) ||| (if d.pkg.safe ≠ 0 then 4 else 0)
        sections := snapSources.mapIdx fun i x => d.snapSection i x }
    let d := (d.onSnap fun s => { s with banks := tset s.banks b bank }).onFreeN fun n => n + snapSources.length
    (d.raise 837 0x14 0 (detail := [0, b])).snapUpd

/-- SNAP_IN_EDGE: a rising edge of SNAP_IN, high for `width` ns (R354). -/
def execSnapInEdge (width : Nat) (dt : Nat) (s : State) : Res := s.run fun d =>
  let d := d.elapse dt
  let near : Bool := match d.qtz.snapInLast with
    | some t => decide (d.now - t < 1000000)
    | none => false
  if d.qtz.snapInEn ∧ 50 ≤ width ∧ !near ∧ d.panel.coreUp then
    (d.onQtz fun q => { q with snapInLast := some d.now }).snapCapture 4 4 0 0 0
  else d

/-- A scheduled trigger's time has been reached (R356). -/
def Dev.schedDue (d : Dev) (x : SnapSched) : Bool :=
  if x.useL then decide ((x.time : Int) ≤ (d.qtz.count : Int) + d.qtz.loff) else decide (x.time ≤ d.qtz.count)

/-- SCHEDULED_TRIGGER_FIRE: the earliest trigger whose time is reached fires, with the others of its very time (R355, R356). -/
def execScheduledTriggerFire (dt : Nat) (s : State) : Res := s.run fun d =>
  let d := d.elapse dt
  match argMin (d.snap.sched.filter d.schedDue) fun x => x.time with
  | none => d
  | some x =>
    let same (y : SnapSched) : Bool := y.useL == x.useL && y.time == x.time && d.schedDue y
    let all := d.snap.sched.filter same
    let cause : BitVec 16 := (if all.any fun y => y.reqNode == 0 then 8 else 0) ||| (if all.any fun y => y.reqNode != 0 then 16 else 0)
    (d.onSnap fun s => { s with sched := s.sched.filter fun y => !(same y) }).snapCapture cause x.owner x.reqNode x.id 0

/-- SNAPSHOT_BANK_WRITE: a full bank 0 is written to the Slate event store under the pre-check (R359). -/
def execSnapshotBankWrite (dt : Nat) (s : State) : Res := s.run fun d =>
  let d := d.elapse dt
  let b := tget d.snap.banks {} 0
  if b.state = 1 ∧ !mbit b.flags 0 ∧ d.recMay then
    (d.onSnap fun s => { s with banks := tset s.banks 0 { b with flags := b.flags ||| 1 } }).snapKeep
  else d

end Sys2Proof.Machine
end

