-- ==== Sys2Proof/Machine/Lattice.lean ====
section
/-! DEFINITION. The Rurek lattice: link states, hellos, advertisements, routes, node IDs, lattice time and status (chapter 12, R361 to
R381, R394, R395; R351, R352). -/

namespace Sys2Proof.Machine

/-! ### Routes (R375) -/

/-- A path's cost and hops; smaller cost first, then fewer hops. -/
def pathLess (a b : Nat × Nat) : Bool := decide (a.1 < b.1) || (a.1 == b.1 && decide (a.2 < b.2))

/-- The links that both ends' advertisements list: from, to, cost at the sending end (R375). -/
def latEdges (as : List Lsa) : List (Nat × Nat × Nat) :=
  as.flatMap fun a =>
    (a.nbrs.filter fun n => as.any fun b => b.uid == n.1 && b.nbrs.any fun m => m.1 == a.uid).map fun n => (a.uid, n.1, n.2.2.2.1)

/-- One round of relaxation over the links. -/
def relax (es : List (Nat × Nat × Nat)) (t : Tbl (Option (Nat × Nat))) : Tbl (Option (Nat × Nat)) :=
  es.foldl (fun t e => match tget t none e.1 with
    | none => t
    | some p =>
      let q := (p.1 + e.2.2, p.2 + 1)
      match tget t none e.2.1 with
      | none => tset t e.2.1 (some q)
      | some r => if pathLess q r then tset t e.2.1 (some q) else t) t

/-- `n` rounds. -/
def relaxN (es : List (Nat × Nat × Nat)) (t : Tbl (Option (Nat × Nat))) : Nat → Tbl (Option (Nat × Nat))
  | 0 => t
  | n + 1 => relaxN es (relax es t) n

/-- Least cost and its hops from one node to each other, over the advertisements. -/
def pathsFrom (as : List Lsa) (uid : Nat) : Tbl (Option (Nat × Nat)) := relaxN (latEdges as) [(uid, some (0, 0))] as.length

/-- The nodes that the advertisements show to be connected, this one among them. -/
def Dev.connected (d : Dev) : List Nat :=
  let t := pathsFrom d.lat.lsas d.lat.uid
  d.lat.uid :: (d.lat.lsas.filter fun a => a.uid != d.lat.uid && (tget t none a.uid).isSome).map fun a => a.uid

/-- The address root: the connected node with the lowest unique ID (R373). -/
def Dev.aroot (d : Dev) : Nat := d.connected.foldl min d.lat.uid

/-! ### Status (R394) -/

/-- Update a register whose fields differ from those it shows; SEQ is its top 8 bits (R394). -/
def Dev.dwShow (d : Dev) (off fields dflt : Nat) : Dev :=
  if bits (d.dwGet off dflt) 0 56 = fields % 2 ^ 56 then d else d.dwUpd off 8 fields

/-- The fields of DW_LAT_LINK[l]. -/
def Dev.linkFields (d : Dev) (l : Nat) : Nat :=
  let k := d.link l
  put 0 3 k.state + put 3 1 k.width + put 4 8 k.cost + put 12 12 k.peerId + put 24 2 k.clean + put 26 1 (bit k.peerOpen)
    + put 32 16 (min 65535 (k.replays.countP fun t => decide (d.now - t ≤ 1000000000)))
    + put 48 8 (min 255 (k.flaps.countP fun t => decide (d.now - t ≤ 3600000000000)))

/-- A mask of links by state. -/
def Dev.linkMask (d : Dev) (f : Nat → Bool) : Nat := sumBy (d.linksIn f) fun l => 2 ^ l

/-- Lattice services are open on this node (R380). -/
def Dev.latOpen (d : Dev) : Bool := d.restore.ready && !d.sealing.frozen && decide (d.pkg.safe = 0) && !d.pkg.bedrock

/-- The fields of DW_LAT_NODE. -/
def Dev.nodeFields (d : Dev) : Nat :=
  put 0 12 d.lat.nodeId + put 12 1 (bit (d.lat.nodeId != 0 && d.aroot == d.lat.uid)) + put 13 1 (bit d.latOpen)
    + put 14 6 (d.linkMask fun s => s == 5) + put 20 6 (d.linkMask fun s => s == 6 || s == 0)
    + put 26 12 (d.lat.routes.countP fun r => r.2.valid) + put 38 10 (min 1023 d.lat.convMs)

/-- DW_LAT_NODE and DW_LAT_LINK show what has changed (R394). -/
def Dev.latShow (d : Dev) : Dev :=
  ([0, 1, 2, 3, 4, 5].foldl (fun d l => d.dwShow (0x1840 + 8 * l) (d.linkFields l) 1) d).dwShow 0x1800 d.nodeFields 0

/-- The lattice registers are updated whatever they show (R394). -/
def Dev.latUpd (d : Dev) : Dev :=
  ([0, 1, 2, 3, 4, 5].foldl (fun d l => d.dwUpd (0x1840 + 8 * l) 8 (d.linkFields l)) d).dwUpd 0x1800 8 d.nodeFields

/-! ### Advertisements (R374) -/

/-- The neighbours this node advertises: the links in WAIT_ROUTE or ACTIVE. -/
def Dev.ownNbrs (d : Dev) : List (Nat × Nat × Nat × Nat × Nat) :=
  (d.linksIn fun s => s == 4 || s == 5).map fun l => let k := d.link l; (k.peerUid, k.peerId, l, k.cost, k.width)

/-- Put an advertisement in place of the one held for its node. -/
def Dev.putLsa (d : Dev) (a : Lsa) : Dev := d.onLat fun x => { x with lsas := (x.lsas.filter fun b => b.uid != a.uid) ++ [a] }

/-- The 128 bytes of an advertisement (R374). -/
def lsaBytes (a : Lsa) : List Byte :=
  let nbr (n : Nat × Nat × Nat × Nat × Nat) : List (Nat × Nat) := [(8, n.1), (2, n.2.1), (1, n.2.2.1), (1, n.2.2.2.1), (1, n.2.2.2.2), (3, 0)]
  withCrc (fields ([(8, a.uid), (2, a.nodeId), (1, bit a.leaving + 2 * bit a.open_), (1, a.nbrs.length), (4, a.seq)] ++ a.nbrs.flatMap nbr
    ++ [(16 * (6 - a.nbrs.length), 0), (12, 0)]))

/-- Send an advertisement on every link in ACTIVE or WAIT_ROUTE other than `but`: two frames, for its 128 bytes (R367, R374). -/
def Dev.flood (d : Dev) (a : Lsa) (but : Nat) : Dev :=
  ((d.linksIn fun s => s == 4 || s == 5).filter fun l => l != but).foldl (fun d l =>
    let bs := (lsaBytes a).map BitVec.toNat
    let f : LatFrame := { dst := 0, src := d.lat.nodeId, vl := 0, svc := 2, body := bs.take 64, eom := false }
    d.sendFrames l [f, { f with body := bs.drop 64, som := false, eom := true }]) d

/-- This node floods its own advertisement; LSA_SEQ is kept in Slate (R374). -/
def Dev.sendLsa (d : Dev) : Dev :=
  let d := d.onLat fun x => { x with lsaSeq := x.lsaSeq + 1, routeDue := true }
  let a : Lsa :=
    { uid := d.lat.uid, nodeId := d.lat.nodeId, leaving := d.lat.leaving, open_ := d.latOpen, seq := d.lat.lsaSeq, nbrs := d.ownNbrs, at_ := d.now }
  ((d.putLsa a).flood a 6).recDue 0x68

/-! ### Node IDs (R373) -/

/-- The node takes an ID: it is recorded in Slate and advertised (R373). -/
def Dev.takeId (d : Dev) (id : Nat) : Dev := ((d.onLat fun x => { x with nodeId := id, prefId := id }).recDue 0x68).sendLsa

/-- IDs held by other nodes, as the advertisements show them. -/
def Dev.idsHeld (d : Dev) : List Nat := (d.lat.lsas.filter fun a => a.nodeId != 0).map fun a => a.nodeId

/-- The ID that the address root grants: the preferred one if it is free, else the lowest free from 001h to FFEh (R373). -/
def grantId (pref : Nat) (held : List Nat) : Option Nat :=
  if 1 ≤ pref ∧ pref ≤ 0xFFE ∧ !held.contains pref then some pref
  else ((List.range 0xFFE).map fun i => i + 1).find? fun i => !held.contains i

/-- A node without an ID asks the address root for one, or, being the root, takes one (R373). -/
def Dev.askId (d : Dev) : Dev :=
  match (d.linksIn fun s => s == 4 || s == 5).head? with
  | none => d
  | some l =>
    if d.lat.nodeId ≠ 0 then d
    else if d.aroot = d.lat.uid then
      match grantId d.lat.prefId d.idsHeld with
      | some id => d.takeId id
      | none => d.raise 790 0x13 2
    else d.sendFrames l [{ dst := d.nodeOf d.aroot, src := 0, vl := 0, svc := 3, body := msgBody 0 3 0 0 0 0 [d.lat.uid, d.lat.prefId] }]

/-- NODE_ID_REQUEST: the address root receives an ID request on link `l`: it grants an ID, or refuses when all are held (R373). -/
def execNodeIdRequest (l : Fin 6) (uid : Nat) (pref : BitVec 12) (dt : Nat) (s : State) : Res := s.run fun d =>
  let d := (d.elapse dt).rxFrames l.val 0 1
  if d.aroot ≠ d.lat.uid ∨ d.lat.nodeId = 0 ∨ !d.roleRuns then d
  else
    let held := d.lat.nodeId :: (d.lat.lsas.filter fun a => a.uid != uid && a.nodeId != 0).map fun a => a.nodeId
    let id := (grantId pref.toNat held).getD 0
    d.sendFrames l.val [{ dst := 0, src := d.lat.nodeId, vl := 0, svc := 3, body := msgBody 0 3 1 0 0 0 [uid, id, bit (id == 0)] }]

/-- NODE_ID_GRANT: the root's answer reaches the node: an ID, or a refusal, for which it raises "lattice full" (R373, R395). -/
def execNodeIdGrant (l : Fin 6) (uid : Nat) (id : BitVec 12) (refused : Bool) (dt : Nat) (s : State) : Res := s.run fun d =>
  let d := (d.elapse dt).rxFrames l.val 0 1
  if uid ≠ d.lat.uid ∨ d.lat.nodeId ≠ 0 then d
  else if refused then d.raise 790 0x13 2
  else (d.takeId id.toNat).latShow

/-! ### Lattice time (R351, R352, R381) -/

/-- The hops to a root: those of the nearest ACTIVE neighbour that follows it, and one. -/
def Dev.hopsTo (d : Dev) (root dflt : Nat) : Nat :=
  match argMin ((d.linksIn fun s => s == 5).filter fun l => (d.link l).peerRoot == root) fun l => (d.link l).peerHops with
  | some l => (d.link l).peerHops + 1
  | none => dflt

/-- The node loses lattice time (R352, R360). -/
def Dev.loseTime (d : Dev) : Dev :=
  if d.qtz.hasTime then
    (d.uncSync.onQtz fun q => { q with hasTime := false, isRoot := false, hops := 31, rootUid := 0, rootClass := 0, rival := none }).raise
      791 0x40 2
  else d

/-- The node takes a time root, itself or another; a root more than 16 hops away gives no lattice time (R351, R352). -/
def Dev.setRoot (d : Dev) (uid cls hops seq : Nat) : Dev :=
  if 16 < hops then d.loseTime
  else
    let changed := !d.qtz.hasTime || d.qtz.rootUid != uid
    let d := d.uncSync.onQtz fun q => { q with
      hasTime := true, isRoot := uid == d.lat.uid, hops := hops, rootUid := uid, rootClass := cls, rootSeq := seq, rootSeen := d.now, rival := none }
    if changed then d.raise 791 0x14 0 else d

/-- The class by which the present root is judged: this node's own while it is root (R351). -/
def Dev.rootClass (d : Dev) : Nat := if d.qtz.isRoot then d.clockClass else d.qtz.rootClass

/-- What another candidate for time root does to the present one: a higher class takes over at once, an equal class with a lower ID
becomes the rival, which takes over after 10 s (R351). -/
def Dev.candidate (d : Dev) (uid cls hops seq : Nat) : Dev :=
  if cls = 0 ∨ 16 < hops then d
  else if !d.qtz.hasTime ∨ d.rootClass < cls then d.setRoot uid cls hops seq
  else if cls = d.rootClass ∧ uid < d.qtz.rootUid then
    d.onQtz fun q => { q with rival := match q.rival with
      | some r => if r.1 = uid then some r else if uid < r.1 then some (uid, d.now) else some r
      | none => some (uid, d.now) }
  else d.onQtz fun q => { q with rival := match q.rival with
    | some r => if r.1 = uid then none else some r
    | none => none }

/-- This node as a candidate. -/
def Dev.selfCandidate (d : Dev) : Dev :=
  if d.qtz.isRoot then (if d.clockClass = 0 then d.loseTime else d) else d.candidate d.lat.uid d.clockClass 0 d.lat.trootSeq

/-- What a neighbour's hello says of the time root (R351, R369). -/
def Dev.rootHello (d : Dev) (l root cls hops seq : Nat) : Dev :=
  if root = d.lat.uid ∨ root = 0 ∨ hops = 31 then d.selfCandidate
  else if d.qtz.hasTime ∧ d.qtz.rootUid = root then
    let d := if d.qtz.rootSeq < seq then d.onQtz fun q => { q with rootSeq := seq, rootSeen := d.now } else d
    let h := d.hopsTo root (if (d.link l).state = 5 then hops + 1 else d.qtz.hops)
    let d := if 16 < h then d.loseTime else d.onQtz fun q => { q with hops := h, rootClass := cls }
    d.selfCandidate
  else (d.candidate root cls (hops + 1) seq).selfCandidate

/-- ROOT_GIVE_WAY: a node of equal class with a lower ID has held for 10 s, so it becomes the root (R351). -/
def execRootGiveWay (dt : Nat) (s : State) : Res := s.run fun d =>
  let d := d.elapse dt
  match d.qtz.rival with
  | some (u, t0) =>
    if 10000000000 ≤ d.now - t0 then
      let l := (d.linksIn fun s => s == 5).find? fun l => (d.link l).peerRoot == u
      let h := if u = d.lat.uid then 0 else d.hopsTo u 17
      (d.setRoot u d.rootClass h (match l with
        | some _ => 0
        | none => d.lat.trootSeq)).qtzUpd
    else d
  | none => d

/-- TIME_ROOT_LOST: TROOT_SEQ has not increased for three hello periods, so a new election runs among this node and the roots that the
other neighbours follow (R351, R369). -/
def execTimeRootLost (dt : Nat) (s : State) : Res := s.run fun d =>
  let d := d.elapse dt
  let q := d.qtz
  if !q.hasTime ∨ q.isRoot ∨ d.now - q.rootSeen < 30000000 then d
  else
    let lost := q.rootUid
    let ls := (d.linksIn fun s => s == 5).filter fun l => (d.link l).peerRoot != lost && (d.link l).peerRoot != 0
    let cands := (d.lat.uid, d.clockClass, 0) :: ls.map fun l => ((d.link l).peerRoot, (d.link l).peerRootClass, (d.link l).peerHops + 1)
    let ok := cands.filter fun c => c.2.1 != 0 && decide (c.2.2 ≤ 16)
    match argMin ok fun c => (7 - c.2.1) * 2 ^ 64 + c.1 with
    | some c => (d.setRoot c.1 c.2.1 c.2.2 0).qtzUpd
    | none => d.loseTime.qtzUpd

/-- The upstream neighbour: the ACTIVE neighbour with the fewest hops to the root, then the lower cost, then the lower link (R381). -/
def Dev.upstream (d : Dev) : Option Nat :=
  argMin ((d.linksIn fun s => s == 5).filter fun l => (d.link l).peerRoot == d.qtz.rootUid) fun l =>
    ((d.link l).peerHops * 256 + (d.link l).cost) * 8 + l

/-- TIME_EXCHANGE_SEND: a follower sends REQ to its upstream neighbour at its lattice time t1 (R381). -/
def execTimeExchangeSend (dt : Nat) (s : State) : Res := s.run fun d =>
  let d := d.elapse dt
  if !d.qtz.hasTime ∨ d.qtz.isRoot then d
  else match d.upstream with
    | some l => (d.sendLocal l 4 [0, d.lTime.toNat]).onLink l fun k => { k with exch := some d.lTime.toNat }
    | none => d

/-- The UNC that this node passes on: the root adds the difference between LOFF and OFFSET (R352, R381). -/
def Dev.uncOut (d : Dev) : Nat :=
  if d.qtz.isRoot then min 65535 (d.uncNow + (d.qtz.offset - d.qtz.loff).natAbs / 1000) else d.qtz.rootUnc

/-- TIME_EXCHANGE_REQ: a neighbour's REQ is answered with its t1, the times of receipt and answer, and the root's UNC (R381). -/
def execTimeExchangeReq (l : Fin 6) (t1 : Nat) (dt : Nat) (s : State) : Res := s.run fun d =>
  let d := (d.elapse dt).rxFrames l.val 0 1
  d.sendLocal l.val 4 [1, t1, d.lTime.toNat, d.lTime.toNat, d.uncOut]

/-- The median of a list of delays: its middle element in rising order, the lower one of two. -/
def median (l : List Int) : Int := (sortLe (fun a b => decide (a ≤ b)) l).getD ((l.length - 1) / 2) 0

/-- The follower's L is off by `e` ns from the root's: up to 1 ms it slews its rate, by an amount the manual leaves open within 100 ppm;
above, it steps LOFF (R352). It may take OFFSET from LOFF. -/
def Dev.follow (d : Dev) (e : Int) (unc : Nat) : Dev :=
  let d := d.uncSync.onQtz fun q => { q with rootUnc := unc }
  let d :=
    if decide (e ≤ 1000000) && decide (-1000000 ≤ e) then
      (d.onQtz fun q => { q with rate := (Config.freeValue d.freeN % 200001 : Nat) - 100000 }).tick
    else (d.onQtz fun q => { q with loff := q.loff + e }).raise 791 0x14 0
  if !d.qtz.ofsValid ∧ (d.qtz.rootClass = 3 ∨ d.qtz.rootClass = 4 ∨ d.qtz.rootClass = 6) then d.setOffset d.qtz.loff 3 else d

/-- TIME_EXCHANGE_ANSWER: the answer of an exchange arrives on link `l`: offset and delay are computed; one whose delay exceeds the
median of the last 16 by more than 50 ns is discarded (R352, R381). -/
def execTimeExchangeAnswer (l : Fin 6) (t2 t3 unc : Nat) (dt : Nat) (s : State) : Res := s.run fun d =>
  let d := (d.elapse dt).rxFrames l.val 0 1
  let k := d.link l.val
  match k.exch with
  | none => d
  | some t1 =>
    let t4 : Int := d.lTime
    let a : Int := (t2 : Int) - t1
    let b : Int := t4 - t3
    let offset := (a - b) / 2 + k.asym
    let delay := (t4 - t1 - ((t3 : Int) - t2)) / 2
    let ok := k.delays.isEmpty || decide (delay ≤ median k.delays + 50)
    let d := d.onLink l.val fun k => { k with exch := none, delays := (delay :: k.delays).take 16 }
    if ok ∧ d.qtz.hasTime ∧ !d.qtz.isRoot ∧ d.pkg.takeStep = 0 then (d.follow offset unc).qtzUpd else d

/-- The root steps LOFF to OFFSET where they differ by more than 1 s (R352). -/
def Dev.rootStep (d : Dev) : Dev :=
  let e := d.qtz.offset - d.qtz.loff
  if d.pkg.takeStep == 0 && d.qtz.hasTime && d.qtz.isRoot && d.qtz.ofsValid && (decide (1000000000 < e) || decide (e < -1000000000)) then
    (d.onQtz fun q => { q with loff := q.offset }).raise 791 0x14 0
  else d

/-! ### Link states (R361, R371, R377, R378, R395) -/

/-- What a link forgets when it leaves the upper states. -/
def linkClear (k : LinkSt) (st : Nat) : LinkSt :=
  { k with
    state := st, clean := 0, lastHello := none, peerOpen := false, peerUid := 0, peerId := 0, peerRoot := 0, peerHops := 31, peerRootClass := 0
    replayed := false, outst := [], wait := [], credits := [], freed := [], unacked := 0, retraining := false, exch := none, delays := []
    txNext := 0, rxNext := 0, drr := 0 }

/-- A link leaves the upper states for `st`: its frames and the messages that left on it are lost, and what it listed is advertised anew
(R365, R374, R376, R377). -/
def Dev.linkLeave (d : Dev) (l st : Nat) : Dev :=
  let up := decide (4 ≤ (d.link l).state) && decide ((d.link l).state ≤ 5)
  let d := d.onLink l fun k => linkClear k st
  let d := d.onLat fun x => { x with paths := x.paths.map fun p => if p.2.2.2.2 = l then (p.1, p.2.1, p.2.2.1, p.2.2.2.1, 7) else p }
  if up then d.sendLsa else d

/-- A hold of a link: 60 s, doubled up to 960 s within 1 h of the last (R371). -/
def holdFor (k : LinkSt) (now : Nat) : Nat :=
  match k.holdEnd with
  | some t => if now - t ≤ 3600000000000 then min 960 k.holdS else 60
  | none => 60

/-- The neighbour of link `l` is lost, not by departure: from ACTIVE or WAIT_ROUTE that is a flap, and the third within 60 s puts the link
in HELD (R370, R371). -/
def Dev.linkFail (d : Dev) (l : Nat) : Dev :=
  let k := d.link l
  let t := d.now
  if k.state = 4 ∨ k.state = 5 then
    let recent := k.flaps.filter fun u => decide (t - u ≤ 3600000000000)
    let flaps := recent ++ [t]
    let hold0 := if recent.isEmpty then 60 else k.holdS
    let held := decide (3 ≤ flaps.countP fun u => decide (t - u ≤ 60000000000))
    let hs := holdFor { k with holdS := hold0 } t
    let d := d.linkLeave l (if held then 6 else 1)
    if held then
      (d.onLink l fun k => { k with flaps := flaps, holdS := min 960 (2 * hs), heldUntil := t + hs * 1000000000, holdEnd := some t }).raise
        (784 + l) 0x14 2
    else d.onLink l fun k => { k with flaps := flaps, holdS := hold0 }
  else d.linkLeave l 1

/-- A link enters DISABLED: 1 by SB, 2 looped or duplicate, 3 after a Contained message (R371, R372, R395). -/
def Dev.linkDisable (d : Dev) (l by_ : Nat) : Dev := (d.linkLeave l 0).onLink l fun k => { k with disabledBy := by_ }

/-- LINK_TRAINING_ATTEMPT: a link that is DOWN attempts training; it enters TRAINING when a signal is detected (R361, R371). -/
def execLinkTrainingAttempt (l : Fin 6) (signal : Bool) (dt : Nat) (s : State) : Res := s.run fun d =>
  let d := d.elapse dt
  if d.latUp ∧ (d.link l.val).state = 1 ∧ signal then (d.onLink l.val fun k => { k with state := 2 }).latShow else d

/-- A retraining fails: three in 10 min are a Contained message (R365, R395). -/
def Dev.retrainFail (d : Dev) (l : Nat) : Dev :=
  let t := d.now
  let fs := ((d.link l).retrainFails.filter fun u => decide (t - u ≤ 600000000000)) ++ [t]
  let d := ((d.onLink l fun k => { k with retrainFails := fs }).raise (784 + l) 0x43 2).raise (784 + l) 0x40 2
  let d := if 3 ≤ fs.length then d.raise (784 + l) 0x44 3 else d
  d.linkFail l

/-- LINK_TRAINED: training or a retraining ends: `outcome` 0 failed, 1 up at x4, 2 up at x2 (R361, R365, R371). -/
def execLinkTrained (l : Fin 6) (outcome : Fin 3) (dt : Nat) (s : State) : Res := s.run fun d =>
  let d := d.elapse dt
  let k := d.link l.val
  let w := if outcome.val = 2 then 1 else 0
  let cost := k.costSet.getD (if w = 1 then 20 else 10)
  if k.retraining then
    if outcome.val = 0 then (d.retrainFail l.val).latShow
    else
      let t := d.now
      let d := k.outst.foldl (fun d x => d.emit (frameOut l.val x.1 x.2.2)) d
      let d := d.onLink l.val fun k => { k with
        retraining := false, width := w, cost := cost, replayed := true
        outst := k.outst.map fun x => (x.1, 0, { x.2.2 with since := t }) }
      let d := (d.raise (784 + l.val) 0x41 2).pump l.val k.wait.length
      (if cost = k.cost then d else d.sendLsa).latShow
  else if k.state ≠ 2 then d
  else if outcome.val = 0 then ((d.onLink l.val fun k => linkClear k 1).raise (784 + l.val) 0x43 2).latShow
  else (d.onLink l.val fun k => { linkClear k 3 with width := w, cost := cost }).latShow

/-- LINK_SIGNAL_LOSS: a link loses signal or lane lock and goes DOWN (R371, R377, R395). -/
def execLinkSignalLoss (l : Fin 6) (dt : Nat) (s : State) : Res := s.run fun d =>
  let d := d.elapse dt
  let st := (d.link l.val).state
  if st = 0 ∨ st = 1 ∨ st = 6 then d
  else ((d.linkFail l.val).raise (784 + l.val) 0x40 2).latShow

/-- HELLO_MISSING: three hello periods pass without a hello, so the neighbour is lost (R370). -/
def execHelloMissing (l : Fin 6) (dt : Nat) (s : State) : Res := s.run fun d =>
  let d := d.elapse dt
  let k := d.link l.val
  match k.lastHello with
  | some t => if 3 ≤ k.state ∧ k.state ≤ 5 ∧ 30000000 ≤ d.now - t then ((d.linkFail l.val).raise (784 + l.val) 0x40 2).latShow else d
  | none => d

/-- HOLD_EXPIRED: the hold of a damped link ends, so it is DOWN (R371). -/
def execHoldExpired (l : Fin 6) (dt : Nat) (s : State) : Res := s.run fun d =>
  let d := d.elapse dt
  if (d.link l.val).state = 6 ∧ (d.link l.val).heldUntil ≤ d.now then (d.onLink l.val fun k => { k with state := 1 }).latShow else d

/-! ### Hellos (R369 to R372) -/

/-- The 64 bytes of the hello that a link sends (R351, R369). -/
def Dev.helloBytes (d : Dev) (l : Nat) : List Byte :=
  let q := d.qtz
  let safe : Bool := decide (d.pkg.safe ≠ 0)
  let flags := bit (d.lat.leaving || safe) + 2 * bit d.restore.ready + 4 * bit safe + 8 * bit q.rootEn
  withCrc (fields [(8, d.lat.uid), (2, d.lat.nodeId), (1, l), (1, flags), (1, d.clockClass),
    (1, if q.isRoot then 0 else if q.hasTime then q.hops else 31), (2, 31), (8, if q.hasTime then q.rootUid else d.lat.uid),
    (4, if q.isRoot then d.lat.trootSeq else q.rootSeq), (4, d.lat.lsaSeq), (8, d.aroot), (4, (d.link l).hseq), (1, (d.link l).cost), (15, 0)])

/-- HELLO_SEND: a link that has trained sends a hello; the time root counts TROOT_SEQ up (R369). -/
def execHelloSend (l : Fin 6) (dt : Nat) (s : State) : Res := s.run fun d =>
  let d := d.elapse dt
  let k := d.link l.val
  if !d.latUp ∨ k.state < 3 ∨ k.state = 6 then d
  else
    let d := if d.qtz.isRoot then d.onLat fun x => { x with trootSeq := x.trootSeq + 1 } else d
    let d := d.onLink l.val fun k => { k with hseq := k.hseq + 1 }
    d.sendLocal l.val 1 ((d.helloBytes l.val).map BitVec.toNat)

/-- A hello is clean (R370). The first after link up has no earlier one to be held against. -/
def Dev.helloClean (d : Dev) (k : LinkSt) (crcOk : Bool) (uid nodeId hseq : Nat) : Bool :=
  crcOk && (match k.lastHello with
    | none => true
    | some t => uid == k.peerUid && nodeId == k.peerId && hseq == k.lastHseq + 1 && decide (9000000 ≤ d.now - t) && decide (d.now - t ≤ 11000000)
      && !k.replayed)

/-- Another link of this node has a peer of that unique ID that cannot be the same node: the same link index at the far end, or another
node ID (R372). -/
def Dev.dupLinks (d : Dev) (l uid nodeId plink : Nat) : List Nat :=
  (d.linksIn fun s => s == 3 || s == 4 || s == 5).filter fun x =>
    let k := d.link x
    x != l && k.lastHello.isSome && k.peerUid == uid && (k.peerLink == plink || k.peerId != nodeId)

/-- HELLO: a hello arrives on link `l` with the fields of R369; `rclass` is the clock-quality class of the root it names. It is judged
clean or unclean; it shows a departure, a looped link, a duplicate unique ID, or adopts the neighbour; and it may move the time root (R351,
R370 to R372, R378). -/
def execHello (l : Fin 6) (crcOk : Bool) (uid : Nat) (nodeId : BitVec 12) (plink : Nat) (flags : BitVec 8) (cls : BitVec 3)
    (hops : BitVec 5) (troot : Nat) (tseq : Nat) (rclass : BitVec 3) (hseq : Nat) (dt : Nat) (s : State) : Res := s.run fun d =>
  let d := d.elapse dt
  let k := d.link l.val
  if k.state < 3 ∨ k.state = 6 then d
  else
    let d := d.rxFrames l.val 0 1
    if !crcOk then (d.onLink l.val fun k => { k with clean := 0 }).latShow
    else if uid = d.lat.uid then ((d.linkDisable l.val 2).raise (784 + l.val) 0x17 2).latShow
    else
      let dup := d.dupLinks l.val uid nodeId.toNat plink
      if !dup.isEmpty then
        ((l.val :: dup).foldl (fun d x => (d.linkDisable x 2).raise (784 + x) 0x17 2) d).latShow
      else if mbit flags 0 then
        if k.lastHello.isSome then ((d.linkLeave l.val 1).raise (784 + l.val) 0x14 0).latShow else d
      else
        let clean := d.helloClean k crcOk uid nodeId.toNat hseq
        let n := if clean then min 3 (k.clean + 1) else 0
        let moved := k.lastHello.isSome && (k.peerUid != uid || k.peerId != nodeId.toNat)
        let d := d.onLink l.val fun k => { k with
          clean := n, lastHello := some d.now, lastHseq := hseq, replayed := false, peerUid := uid, peerId := nodeId.toNat, peerLink := plink
          peerOpen := mbit flags 1, peerClass := cls.toNat, peerHops := hops.toNat, peerRoot := troot, peerRootClass := rclass.toNat }
        let d :=
          if k.state = 3 ∧ 3 ≤ n then ((d.onLink l.val fun k => { k with state := 4 }).sendLsa).askId
          else if moved ∧ 4 ≤ k.state then d.sendLsa
          else d
        let d := if 4 ≤ (d.link l.val).state then d.rootHello l.val troot rclass.toNat hops.toNat tseq else d
        d.latShow

/-! ### Received advertisements (R372 to R374) -/

/-- An advertised node ID is this node's own: it gives its ID up to a node of lower unique ID, and requests again (R373). -/
def Dev.idConflict (d : Dev) (uid nodeId : Nat) : Dev :=
  if nodeId ≠ 0 ∧ nodeId = d.lat.nodeId ∧ uid < d.lat.uid then
    (((d.onLat fun x => { x with nodeId := 0, prefId := 0 }).raise 790 0x14 0).sendLsa).askId
  else d

/-- LINK_STATE_ADVERTISEMENT: an advertisement arrives on link `l`: a newer one is stored and flooded on; one that disagrees on the same
LSA_SEQ shows a duplicate unique ID (R372 to R374, R377). -/
def execLinkStateAdvertisement (l : Fin 6) (crcOk : Bool) (uid : Nat) (nodeId : BitVec 12) (flags : BitVec 8) (seq : BitVec 32)
    (nbrs : List (Nat × Nat × Nat × Nat × Nat)) (dt : Nat) (s : State) : Res := s.run fun d =>
  let d := (d.elapse dt).rxFrames l.val 0 2
  if !crcOk then d
  else
    let a : Lsa :=
      { uid := uid, nodeId := nodeId.toNat, leaving := mbit flags 0, open_ := mbit flags 1, seq := seq.toNat, nbrs := nbrs.take 6, at_ := d.now }
    match d.lat.lsas.find? fun b => b.uid == uid with
    | some b =>
      if b.seq = a.seq then
        if b.nodeId = a.nodeId ∧ b.leaving = a.leaving ∧ b.open_ = a.open_ ∧ b.nbrs = a.nbrs then d
        else
          (((d.linksIn fun s => decide (3 ≤ s) && decide (s ≤ 5)).filter fun x => (d.link x).peerUid == uid).foldl
            (fun d x => (d.linkDisable x 2).raise (784 + x) 0x17 2) d).latShow
      else if b.seq < a.seq then ((((d.putLsa a).flood a l.val).onLat fun x => { x with routeDue := true }).idConflict uid a.nodeId).latShow
      else d
    | none => ((((d.putLsa a).flood a l.val).onLat fun x => { x with routeDue := true }).idConflict uid a.nodeId).latShow

/-- LSA_PERIODIC: the node floods its own advertisement every 10 s (R374). -/
def execLsaPeriodic (dt : Nat) (s : State) : Res := s.run fun d =>
  let d := d.elapse dt
  if d.latUp then d.sendLsa else d

/-- LSA_EXPIRY: advertisements not refreshed for 35 s are discarded (R374). -/
def execLsaExpiry (dt : Nat) (s : State) : Res := s.run fun d =>
  let d := d.elapse dt
  let old (a : Lsa) : Bool := a.uid != d.lat.uid && decide (35000000000 ≤ d.now - a.at_)
  if d.lat.lsas.any old then d.onLat fun x => { x with lsas := x.lsas.filter fun a => !old a, routeDue := true } else d

/-! ### Route computation (R375, R377, R378) -/

/-- The links that enter the computation: in WAIT_ROUTE or ACTIVE, and listed in return by the peer's advertisement. -/
def Dev.routeLinks (d : Dev) : List Nat :=
  (d.linksIn fun s => s == 4 || s == 5).filter fun l =>
    d.lat.lsas.any fun a => a.uid == (d.link l).peerUid && a.nbrs.any fun n => n.1 == d.lat.uid

/-- Insert into a list kept by rising `f`. -/
def insertBy {α : Type} (f : α → Nat) (x : α) : List α → List α
  | [] => [x]
  | y :: r => if f x < f y then x :: y :: r else y :: insertBy f x r

/-- The route to an advertised node (R375): the first hop of a least-cost path, ties to fewer hops and then to the lower neighbour; and up
to two alternates whose neighbours lie downstream. -/
def Dev.routeTo (d : Dev) (own : Tbl (Option (Nat × Nat))) (via : List (Nat × Tbl (Option (Nat × Nat)))) (dst : Nat) : Route :=
  let cands : List (Nat × Nat × Nat × Nat) := via.filterMap fun v =>
    match tget v.2 none dst with
    | some p => some (v.1, (d.link v.1).cost + p.1, p.2 + 1, p.1)
    | none => none
  let key (c : Nat × Nat × Nat × Nat) : Nat := ((c.2.1 * 2 ^ 16 + c.2.2.1) * 2 ^ 64 + (d.link c.1).peerUid) * 8 + c.1
  match argMin cands key with
  | none => {}
  | some b =>
    let self := match tget own none dst with
      | some p => p.1
      | none => b.2.1
    let pu := (d.link b.1).peerUid
    let alts := (cands.filter fun c => (d.link c.1).peerUid != pu && decide (c.2.2.2 < self)).foldl
      (fun l c => insertBy (fun c => (c.2.1 * 2 ^ 64 + (d.link c.1).peerUid) * 8 + c.1) c l) []
    { pri := b.1, alt1 := (alts.map fun c => c.1).getD 0 7, alt2 := (alts.map fun c => c.1).getD 1 7
      hops := b.2.2.1, valid := decide (b.2.2.1 ≤ 63), cost := b.2.1 }

/-- The route table that the advertisements give. -/
def Dev.computeRoutes (d : Dev) : Tbl Route :=
  let as := d.lat.lsas
  let own := pathsFrom as d.lat.uid
  let via := d.routeLinks.map fun l => (l, pathsFrom as (d.link l).peerUid)
  as.foldl (fun t a =>
    if a.nodeId = 0 then t
    else if a.uid = d.lat.uid then tset t a.nodeId { valid := true }
    else
      let r := d.routeTo own via a.uid
      if r.valid then tset t a.nodeId r else t) []

/-- ROUTE_COMPUTE: the batched changes are computed and the table is loaded, in `ms` milliseconds; the links that the computation took
enter ACTIVE (R375, R377, R378). -/
def execRouteCompute (ms : Nat) (dt : Nat) (s : State) : Res := s.run fun d =>
  let d := d.elapse dt
  if !d.lat.routeDue ∨ !d.roleRuns then d
  else
    let ls := d.routeLinks
    let d := d.onLat fun x => { x with routes := d.computeRoutes, routeDue := false, convMs := ms, loaded := true }
    (ls.foldl (fun d l => d.onLink l fun k => { k with state := 5 }) d).latShow

/-- LATTICE_STATUS_UPDATE: every 100 ms DW_LAT_NODE and DW_LAT_LINK are updated; a node without an ID asks again, and the time root is
judged (R351, R352, R373, R394, R522). -/
def execLatticeStatusUpdate (dt : Nat) (s : State) : Res := s.run fun d =>
  (d.elapse dt).periodic 8 100000000 fun d => if d.latUp then (d.askId.selfCandidate.rootStep).latUpd else d.latUpd

end Sys2Proof.Machine
end

