-- ==== Sys2Proof/Machine/LatServices.lean ====
section
/-! DEFINITION. The services of the Rurek lattice: lattice checkpoints, replica streams, context migration and remote snapshot triggers
(chapter 12, R380, R382 to R392). -/

namespace Sys2Proof.Machine

/-! ### Opening and grants (R380) -/

/-- How this node meets a service message: none, silent, from seal stage 1 and in the safe state; else 0, or NOT_READY before early open
(R380, R396). -/
def Dev.latGate (d : Dev) : Option Nat :=
  if d.sealing.frozen ∨ d.pkg.safe ≠ 0 ∨ d.pkg.bedrock then none else if d.restore.ready then some 0 else some 7

/-- A grant of a local context names the peer and the service: 0 replica target, 1 migration target, 2 checkpoint participant (R380). A
node needs none for itself. -/
def Dev.granted (d : Dev) (c uid svc : Nat) : Bool :=
  uid == d.lat.uid || d.lat.grants.any fun g => g.context == c && g.uid == uid && mbit g.svc svc

/-! ### Lattice checkpoints (R382, R383) -/

/-- A participant accepts a request of a coordinator, or answers why not (R380, R382). -/
def Dev.ckptRequest (d : Dev) (uid reqId tc c : Nat) : Dev :=
  if !d.qtz.hasTime then d.ckptReply uid reqId c 4 0
  else if (d.ctx c).state ≠ 1 then d.ckptReply uid reqId c 4 0
  else if !d.granted c uid 2 then d.ckptReply uid reqId c 0x0F 0
  else if (tc : Int) - d.lTime < 50000000 then d.ckptReply uid reqId c 3 0
  else d.onLat fun x => { x with ckpts := x.ckpts ++ [{ reqId := reqId, tc := tc, coord := false, uid := uid, context := c }] }

/-- LATTICE_CHECKPOINT_REQUEST: a coordinator's request reaches a participant, which accepts it or answers why not (R380, R382). -/
def execLatticeCheckpointRequest (l : Fin 6) (uid : Nat) (reqId : BitVec 32) (tc : Nat) (c : BitVec 14) (dt : Nat) (s : State) : Res :=
  s.run fun d =>
  let d := (d.elapse dt).rxFrames l.val 1 1
  match d.latGate with
  | none => d
  | some 0 => d.ckptRequest uid reqId.toNat tc c.toNat
  | some st => d.ckptReply uid reqId.toNat c.toNat st 0

/-- The CHECKPOINT that the device itself submits on a context, with its tag (R194, R382, R387). -/
def Dev.submitOwn (d : Dev) (c tag : Nat) : Dev :=
  let e : RingEntry := { idx := tag, opc := 2, arg0 := tag, submit := d.now }
  let ws := d.fenceWaits c e
  d.onRing c latRing fun r => { r with state := 1, entries := r.entries ++ [{ e with waits := ws, nWait := ws.length, started := true }] }

/-- LATTICE_CHECKPOINT_TIME: L reaches T_c of an accepted request, so the participant submits its CHECKPOINT (R382, R383). -/
def execLatticeCheckpointTime (dt : Nat) (s : State) : Res := s.run fun d =>
  let d := d.elapse dt
  let due := d.lat.ckpts.find? fun k =>
    !k.coord && decide ((k.tc : Int) ≤ d.lTime)
      && !((d.ring k.context latRing).entries.any fun e => e.arg0 == ckptTag k.reqId k.uid)
  match due with
  | none => d
  | some k =>
    if (d.ctx k.context).state ≠ 1 then
      (d.onLat fun x => { x with ckpts := x.ckpts.filter fun y => y != k }).ckptReply k.uid k.reqId k.context 4 0
    else d.submitOwn k.context (ckptTag k.reqId k.uid)

/-- LATTICE_CHECKPOINT_ANSWER: a participant's answer reaches the coordinator (R382, R395). -/
def execLatticeCheckpointAnswer (l : Fin 6) (uid : Nat) (reqId : BitVec 32) (c : BitVec 14) (status : BitVec 16) (ts : Nat) (dt : Nat)
    (s : State) : Res := s.run fun d =>
  ((d.elapse dt).rxFrames l.val 2 1).ckptRecord uid reqId.toNat c.toNat status.toNat ts

/-- LATTICE_CHECKPOINT_TIMEOUT: T_c + 10 s: the coordinator completes with the answers it has; the others are listed as unreachable
(R382, R395). -/
def execLatticeCheckpointTimeout (dt : Nat) (s : State) : Res := s.run fun d =>
  let d := d.elapse dt
  match d.lat.ckpts.find? fun k => k.coord && !k.complete && decide ((k.tc : Int) + 10000000000 ≤ d.lTime) with
  | none => d
  | some k =>
    let tardy := k.parts.filter fun p => !p.answered
    let k' : Ckpt := { k with parts := k.parts.map fun p => if p.answered then p else { p with status := 0x11 } }
    let d := d.onLat fun x => { x with ckpts := x.ckpts.map fun y => if y = k then k' else y }
    let d := tardy.foldl (fun d p => d.raise 793 0x17 0 (ctx := p.context)) d
    d.ckptEnd k'

/-! ### Replica streams and migrations: the source (R384, R385, R387 to R391) -/

/-- The P1 and P2 granules of a context, in rising order (R384). -/
def Dev.persistGrans (d : Dev) (c : Nat) : List Nat := (d.ctxGrans c).filter fun g => (d.gran g).cls == 1 || (d.gran g).cls == 2

/-- The pages of a context's P1 and P2 granules. -/
def Dev.streamPages (d : Dev) (c : Nat) : List Nat := (d.persistGrans c).flatMap fun g => (List.range 262144).map fun o => g * 262144 + o

/-- A stream of this node as source. -/
def Dev.outStream (d : Dev) (session : Nat) : Option Stream := d.lat.streams.find? fun s => s.outgoing && s.session == session

/-- Change an outgoing stream. -/
def Dev.onStream (d : Dev) (session : Nat) (f : Stream → Stream) : Dev :=
  d.onLat fun x => { x with streams := x.streams.map fun s => if s.outgoing ∧ s.session = session then f s else s }

/-- A copy of the whole context starts: a bit is set for every page (R385, R387, R389). `st`: SYNC, RESYNC or COPY. -/
def Dev.startCopy (d : Dev) (session st : Nat) : Dev :=
  match d.outStream session with
  | none => d
  | some x =>
    let ps := d.streamPages x.local_
    let t := d.lTime.toNat
    d.onStream session fun s => { s with
      state := st, resync := false, round := ps
      bits := s.bits ++ (ps.filter fun p => !(s.bits.any fun b => b.1 == p)).map fun p => (p, t) }

/-- The whole-word pattern of a page whose 512 words are all equal (R367). -/
def pagePattern (bs : List Byte) : Option Nat :=
  let w := leNat (bs.take 8)
  if (List.range 512).all fun i => fieldAt bs (8 * i) 8 == w then some w else none

/-- The granule's place in the mapping, and the offset, of a page of a context (R384). -/
def Dev.pagePlace (d : Dev) (c p : Nat) : Option (Nat × Nat) :=
  ((d.persistGrans c).findIdx? fun g => g == pageGran p).map fun k => (k, p % 262144)

/-- Send one page of a stream: its current contents in DRAM (R367, R385). -/
def Dev.sendPage (d : Dev) (s : Stream) (p k o mseq : Nat) : Dev :=
  let bs := d.mem.bytes (pageBase p) 4096
  match pagePattern bs with
  | some w => d.sendMsg s.uid 6 3 [0, s.session, mseq, 0, k, o, 1, w]
  | none => d.sendMsg s.uid 6 3 [0, s.session, mseq, 0, k, o, 0] bs

/-- An answer is awaited from now on, where none was. -/
def await (s : Stream) (t : Nat) : Stream := if s.flying.isEmpty && s.sentMarks.isEmpty then { s with lastAns := t } else s

/-- The stratum markers of a stream whose pages are all acknowledged are sent (R387). -/
def Dev.sendMarks (d : Dev) (session : Nat) : Dev :=
  match d.outStream session with
  | none => d
  | some s =>
    let due := s.marks.takeWhile fun m => m.2.isEmpty
    let sent := due.mapIdx fun i m => ((s.mseqTx + i) % 2 ^ 32, m.1)
    if due.isEmpty then d
    else
      let t := d.now
      let d := d.onStream session fun s => { await s t with
        marks := s.marks.drop due.length, sentMarks := s.sentMarks ++ sent, mseqTx := (s.mseqTx + due.length) % 2 ^ 32 }
      sent.foldl (fun d x => d.sendMsg s.uid 6 3 [3, s.session, x.1, 0, x.2]) d

/-- A migration's last pages have gone and c is DISABLED, so its final message is sent (R389). -/
def Dev.finalMsg (d : Dev) (s : Stream) : Dev :=
  if s.migration ∧ s.state = 0x12 ∧ s.bits.isEmpty ∧ s.flying.isEmpty ∧ !s.finalSent ∧ (d.ctx s.local_).state = 3 then
    (d.onStream s.session fun s => { s with finalSent := true, lastAns := d.now }).sendMsg s.uid 6 3 [4, s.session, s.mseqTx]
  else d

/-- The states of a stream in which it sends: SYNC, LIVE, RESYNC, and COPY, CONVERGE, SWITCH of a migration. -/
def Stream.sends (s : Stream) : Bool := !s.setup && [0, 1, 3, 0x10, 0x11, 0x12].contains s.state

/-- REPLICA_SEND: the sender of a stream or migration sends its oldest set page, up to 512 in flight; pages beyond what the target takes
are not sent; c disabled, a stream sends nothing new (R384, R385, R387, R389). `ue` are the lines of the page that its read finds
uncorrectable, with the devices seen failing; a page under repair waits (R225, R226). -/
def execReplicaSend (session : Nat) (ue : List (Nat × Nat)) (dt : Nat) (s : State) : Res := s.run fun d =>
  let d := d.elapse dt
  match d.outStream session with
  | none => d
  | some x =>
    let off := (d.ctx x.local_).state = 3 ∨ (d.ctx x.local_).state = 2
    if !x.sends ∨ 512 ≤ x.flying.length ∨ d.sealing.frozen ∨ d.pkg.safe ≠ 0 ∨ (off ∧ x.state ≠ 0x12) then d
    else match x.bits.find? fun b => !(x.flying.any fun f => f.1 == b.1) with
      | none => (d.sendMarks session).finalMsg x
      | some b =>
        match d.pagePlace x.local_ b.1 with
        | none => d.onStream session fun s => { s with bits := s.bits.filter fun y => y.1 != b.1, round := s.round.filter fun q => q != b.1 }
        | some (k, o) =>
          if x.grans ≤ k then
            let d := d.onStream session fun s => { s with
              tooSmall := true, bits := s.bits.filter fun y => y.1 != b.1, round := s.round.filter fun q => q != b.1 }
            if x.tooSmall ∨ x.migration then d else d.raise 792 0x17 2 (ctx := x.local_)
          else
            let d := (d.pageTouch b.1 false).pageUe b.1 ue
            if d.dram.repairs.contains b.1 then d else
            let t := d.now
            let d := d.onStream session fun s =>
              { await s t with flying := s.flying ++ [(b.1, s.mseqTx, false)], mseqTx := (s.mseqTx + 1) % 2 ^ 32 }
            d.sendPage x b.1 k o x.mseqTx

/-- A migration's CONVERGE reaches SWITCH: little enough is pending, or 8 passes are done, and the switch is automatic or ordered; c is
then disabled (R203, R389). -/
def Dev.switchCheck (d : Dev) (session : Nat) : Dev :=
  match d.outStream session with
  | none => d
  | some s =>
    let small := decide (4096 * s.bits.length ≤ s.switchGib * 2 ^ 30) || decide (8 ≤ s.passes)
    if s.migration ∧ s.state = 0x11 ∧ small ∧ (s.autoSwitch ∨ s.ordered) then
      let d := d.onStream session fun s => { s with state := 0x12 }
      if (d.ctx s.local_).state = 1 ∨ (d.ctx s.local_).state = 5 then d.quiesceCtx s.local_ else d
    else d

/-- The phase of a stream or migration moves on when every bit of its copy or pass has cleared once (R387, R389). -/
def Dev.streamPhase (d : Dev) (session : Nat) : Dev :=
  match d.outStream session with
  | none => d
  | some s =>
    if !s.round.isEmpty then d.switchCheck session
    else
      let d :=
        if s.state = 0 ∨ s.state = 3 then d.onStream session fun s => { s with state := 1 }
        else if s.state = 0x10 then d.onStream session fun s => { s with state := 0x11, passes := 0, round := s.bits.map fun b => b.1 }
        else if s.state = 0x11 then d.onStream session fun s => { s with passes := min 8 (s.passes + 1), round := s.bits.map fun b => b.1 }
        else d
      d.switchCheck session

/-- A page is acknowledged: its bit clears unless the page was flagged for resending (R385). -/
def Dev.pageAck (d : Dev) (session mseq : Nat) : Dev :=
  match d.outStream session with
  | none => d
  | some s =>
    match s.flying.find? fun f => f.2.1 == mseq with
    | none => d
    | some (p, _, again) =>
      let d := d.onStream session fun s =>
        let s := { s with flying := s.flying.filter fun f => f.2.1 != mseq, marks := s.marks.map fun m => (m.1, m.2.filter fun q => q != p) }
        if again then s
        else { s with bits := s.bits.filter fun b => b.1 != p, round := s.round.filter fun q => q != p, acked := s.acked + 4096 }
      (d.sendMarks session).streamPhase session

/-- A peer that was unreachable answers: its streams go LIVE, or RESYNC if that is due or the receiver says so (R387, R388). -/
def Dev.resumeStream (d : Dev) (session : Nat) (dirtied : Bool) : Dev :=
  match d.outStream session with
  | none => d
  | some s =>
    if s.migration ∨ s.state = 4 then d
    else if s.resync ∨ dirtied then
      (d.startCopy session 3).raise 792 0x14 0 (ctx := s.local_)
    else if s.state = 2 then d.onStream session fun s => { s with state := 1 }
    else d

/-- A migration ends as ABORTED: c stays as it is (R391, R395). -/
def Dev.abortMigration (d : Dev) (s : Stream) : Dev :=
  (d.onStream s.session fun s => { s with state := 0x14, bits := [], flying := [], round := [], dirtied := true }).raise 794 0x42 2 (ctx := s.local_)

/-- The peer's answer to a setup: a refusal ends the stream with its status; otherwise its copy begins (R384, R389). A later refusal aborts a
migration, whose target has sealed or been lost (R391). -/
def Dev.setupAnswer (d : Dev) (session status grans : Nat) : Dev :=
  match d.outStream session with
  | none => d
  | some s =>
    if !s.setup then
      (if s.migration ∧ status ≠ 0 ∧ (s.state = 0x10 ∨ s.state = 0x11 ∨ s.state = 0x12) then d.abortMigration s else d)
    else
      let op := if s.migration then 0xC496 else 0xC493
      let d := d.bgEnd s.by_ op status
      if status ≠ 0 then d.onLat fun x => { x with streams := x.streams.filter fun y => !(y.outgoing && y.session == session) }
      else if s.state = 4 then d.onStream session fun s => { s with setup := false }
      else
        (d.onStream session fun s => { s with setup := false, grans := grans }).startCopy session (if s.migration then 0x10 else 0)

/-- REPLICA_ACK: an acknowledgement or control message of a session reaches the source on link `l`: `op` 0 a page of MSEQ `mseq` is
acknowledged; 1 the answer to the setup, with its status and the granules the target takes; 2 the peer answers again, `status` 1 if its
copy has been written by anything else or remounted; 3 the answer to the marker of MSEQ `mseq`; to a stream that is PAUSED each shows that the
peer answers again (R385, R387 to R389). -/
def execReplicaAck (l : Fin 6) (session : Nat) (op : Fin 4) (mseq : BitVec 32) (status grans : Nat) (dt : Nat) (s : State) : Res :=
  s.run fun d =>
  let d := (d.elapse dt).rxFrames l.val 2 1
  if d.sealing.frozen ∨ d.pkg.safe ≠ 0 then d
  else
    let d := d.onStream session fun s => { s with lastAns := d.now, peerOpen := true }
    let paused : Bool := match d.outStream session with | some x => x.state == 2 && !x.setup | none => false
    let d := if paused && op.val != 2 then d.resumeStream session false else d
    match op.val with
    | 0 => d.pageAck session mseq.toNat
    | 1 => d.setupAnswer session status grans
    | 2 => d.resumeStream session (status != 0)
    | _ => d.onStream session fun s => { s with sentMarks := s.sentMarks.filter fun m => m.1 != mseq.toNat }

/-- SESSION_RESEND: the messages of a session unanswered for 5 ms are resent (R380). -/
def execSessionResend (session : Nat) (dt : Nat) (s : State) : Res := s.run fun d =>
  let d := d.elapse dt
  match d.outStream session with
  | none => d
  | some x =>
    if d.now - x.lastAns < 5000000 ∨ d.sealing.frozen ∨ d.pkg.safe ≠ 0 then d
    else if x.setup then d.sendMsg x.uid 7 2 [if x.migration then 2 else 1, x.session, 0, 0, x.local_, x.peerCtx, (d.persistGrans x.local_).length]
    else if x.finalSent then d.sendMsg x.uid 6 3 [4, x.session, x.mseqTx]
    else
      let d := x.flying.foldl (fun d f => match d.pagePlace x.local_ f.1 with
        | some (k, o) => d.sendPage x f.1 k o f.2.1
        | none => d) d
      x.sentMarks.foldl (fun d m => d.sendMsg x.uid 6 3 [3, x.session, m.1, 0, m.2]) d

/-- PEER_UNREACHABLE: a peer has been silent for 10 s: its streams pause, still resending what it has not answered, its migrations abort, its setups are refused, and the leases it
holds end (R380, R387, R391, R395, R406). -/
def execPeerUnreachable (uid : Nat) (dt : Nat) (s : State) : Res := s.run fun d =>
  let d := d.elapse dt
  let hit := d.lat.streams.filter fun s =>
    s.outgoing && s.uid == uid && s.peerOpen && decide (10000000000 ≤ d.now - s.lastAns)
      && (s.setup || !s.flying.isEmpty || !s.sentMarks.isEmpty || (s.finalSent && s.state != 0x13))
  let d := hit.foldl (fun d s =>
    if s.setup then d.setupAnswer s.session 0x11 0
    else if s.migration then (if s.state = 0x13 ∨ s.state = 0x14 then d else d.abortMigration s)
    else d.onStream s.session fun s => { s with
      peerOpen := false, resync := s.resync || s.state == 0 || s.state == 3, state := if s.state = 4 then 4 else 2 }) d
  let d := if hit.isEmpty then d else d.raise 792 0x42 2
  d.endLeases fun l => l.holder == 3 && l.uid == uid

/-- MIGRATION_FINAL_ACK: the destination's final acknowledgement, the point of no return, marks the migration DONE (R390, R395). -/
def execMigrationFinalAck (l : Fin 6) (session : Nat) (dt : Nat) (s : State) : Res := s.run fun d =>
  let d := (d.elapse dt).rxFrames l.val 2 1
  match d.outStream session with
  | some s =>
    if s.migration ∧ s.state = 0x12 ∧ s.finalSent then
      (d.onStream session fun s => { s with state := 0x13, lastAns := d.now }).raise 794 0x14 0 (ctx := s.local_)
    else d
  | none => d

/-! ### Replica streams and migrations: the target (R384, R386, R387, R389, R390) -/

/-- The incoming stream of a peer's session. -/
def Dev.inStream (d : Dev) (uid session : Nat) : Option Stream :=
  d.lat.streams.find? fun s => !s.outgoing && s.uid == uid && s.session == session

/-- Change an incoming stream. -/
def Dev.onInStream (d : Dev) (uid session : Nat) (f : Stream → Stream) : Dev :=
  d.onLat fun x => { x with streams := x.streams.map fun s => if !s.outgoing ∧ s.uid = uid ∧ s.session = session then f s else s }

/-- The checks of a setup at the target: DISABLED, granted, and a P1 or P2 granule for each of the source's (R384, R389); and the limit of
incoming streams. -/
def Dev.setupStatus (d : Dev) (uid r n : Nat) (migration : Bool) : Nat :=
  let inc := d.lat.streams.countP fun s => !s.outgoing && s.migration == migration && s.state != 0x13 && s.state != 0x14
  if (d.ctx r).state ≠ 3 then 4
  else if !d.granted r uid (if migration then 1 else 0) then 0x0F
  else if (d.ctxGrans r).length < n ∨ ((d.ctxGrans r).take n).any (fun g => !((d.gran g).cls == 1 || (d.gran g).cls == 2)) then 3
  else if (if migration then 8 else 1024) ≤ inc then 0x12
  else 0

/-- The lines of a page arrive as writes on behalf of a context migration (R41, R67, R386). -/
def Dev.pageWrite (d : Dev) (session mseq p : Nat) (bs : List Byte) : Dev :=
  (List.range 64).foldl (fun d i =>
    let r : HeldReq :=
      { id := d.expo.nextReq, head := 2, line := p * 64 + i, write := true, data := BitVec.ofNat 512 (fieldAt bs (64 * i) 64)
        mask := BitVec.allOnes 64, arrive := d.now, session := session, mseq := mseq }
    (d.onExpo fun e => { e with nextReq := e.nextReq + 1 }).admitReq r) d

/-- No line of a session waits to be performed. -/
def Dev.sessionIdle (d : Dev) (session : Nat) : Bool := !(d.expo.held.any fun r => r.head == 2 && r.session == session)

/-- A page message of an incoming stream: in MSEQ order it is performed; an earlier one is acknowledged again; a later one waits to be
resent (R384, R386). -/
def Dev.pageIn (d : Dev) (x : Stream) (mseq k o : Nat) (bs : List Byte) : Dev :=
  let here (r : HeldReq) : Bool := r.head == 2 && r.session == x.session && r.mseq == mseq
  if mseq < x.mseqRx then
    if d.expo.held.any here then d else d.sendMsg x.uid 7 2 [0, x.session, mseq, 0]
  else if x.mseqRx < mseq then d
  else
    match (d.ctxGrans x.local_)[k]? with
    | none => d
    | some g =>
      (d.onInStream x.uid x.session fun s => { s with mseqRx := (s.mseqRx + 1) % 2 ^ 32 }).pageWrite x.session mseq (g * 262144 + o % 262144) bs

/-- At the first message of a replica stream after its target was written by anything else, or mounted in a tier other than clean, the source
is told (R388). -/
def Dev.tellDirtied (d : Dev) (uid session : Nat) : Dev :=
  match d.inStream uid session with
  | some x =>
    if x.dirtied ∧ !x.migration then (d.onInStream uid session fun s => { s with dirtied := false }).sendMsg uid 7 2 [2, session, 0, 1] else d
  | none => d

/-- REPLICA_DATA: a message of a session reaches the target on link `l`, of `n` frames: `op` 0 a page at offset `o` of granule `k`; 1 and
2 the setup of a replica stream or a migration from context `k` to context `o` with `grans` granules; 3 a stratum marker with T_s `k`; 4 a
migration's final message; 5 the end of a stream (R380, R384, R386, R387, R389, R390). -/
def execReplicaData (l : Fin 6) (uid session : Nat) (op : Fin 6) (mseq : BitVec 32) (k o grans : Nat) (data : List Byte) (n : Nat)
    (dt : Nat) (s : State) : Res := s.run fun d =>
  let d := (d.elapse dt).rxFrames l.val 3 n
  match d.latGate with
  | none => d
  | some 0 =>
    let d := d.tellDirtied uid session
    match op.val, d.inStream uid session with
    | 0, some x => if x.state = 0x14 then d.sendMsg uid 7 2 [1, session, 0, 4] else d.pageIn x mseq.toNat k o data
    | 1, none =>
      let st := d.setupStatus uid o grans false
      let d := if st = 0 then d.onLat fun x => { x with streams := x.streams ++ [{ session := session, outgoing := false, local_ := o, peerCtx := k, uid := uid, setup := false }] } else d
      d.sendMsg uid 7 2 [1, session, 0, st, (d.persistGrans o).length]
    | 2, none =>
      let st := d.setupStatus uid o grans true
      let d := if st = 0 then d.onLat fun x => { x with streams := x.streams ++ [{ session := session, migration := true, outgoing := false, local_ := o, peerCtx := k, uid := uid, setup := false, state := 0x10 }] } else d
      d.sendMsg uid 7 2 [1, session, 0, st, (d.persistGrans o).length]
    | 1, some x => d.sendMsg uid 7 2 [1, session, 0, 0, (d.persistGrans x.local_).length]
    | 2, some x => d.sendMsg uid 7 2 [1, session, 0, 0, (d.persistGrans x.local_).length]
    | 3, some x =>
      if mseq.toNat = x.mseqRx ∧ d.sessionIdle session then
        ((d.onInStream uid session fun s => { s with mseqRx := (s.mseqRx + 1) % 2 ^ 32 }).submitOwn x.local_ k).sendMsg uid 7 2 [3, session, mseq.toNat, 0]
      else if mseq.toNat < x.mseqRx then d.sendMsg uid 7 2 [3, session, mseq.toNat, 0]
      else d
    | 4, some x =>
      if x.state = 0x14 then d.sendMsg uid 7 2 [1, session, 0, 4]
      else if x.migration ∧ mseq.toNat = x.mseqRx ∧ d.sessionIdle session then
        (d.onInStream uid session fun s => { s with state := 0x13 }).sendMsg uid 7 2 [4, session, mseq.toNat]
      else d
    | 5, some _ => d.onLat fun y => { y with streams := y.streams.filter fun s => s.outgoing || s.uid != uid || s.session != session }
    | 0, none => d.sendMsg uid 7 2 [1, session, 0, 4]
    | _, _ => d
  | some st => d.sendMsg uid 7 2 [1, session, 0, st]

/-- At early open after a restore from Strata: outgoing streams need a full resend, and migrations in COPY or CONVERGE are reported as
ABORTED; incoming ones remember a tier other than clean (R388, R391). -/
def Dev.latEarlyOpen (d : Dev) (tierBad : Nat → Bool) : Dev :=
  let d := d.onLat fun x => { x with streams := x.streams.map fun s =>
    if s.migration ∧ (s.state = 0x10 ∨ s.state = 0x11 ∨ s.state = 0x12) then { s with state := 0x14, bits := [], flying := [], round := [] } else s }
  let d := d.reportAborts
  let d := (d.lat.streams.filter fun s => s.outgoing && !s.migration && s.state != 4 && !s.setup).foldl
    (fun d s => (d.startCopy s.session 3).raise 792 0x14 0 (ctx := s.local_)) d
  d.onLat fun x => { x with streams := x.streams.map fun s => if !s.outgoing ∧ tierBad s.local_ then { s with dirtied := true } else s }

/-! ### Remote snapshot triggers (R356, R357, R392) -/

/-- The answer to a snapshot trigger: 0 scheduled, 1 no lattice time, 2 eight pending, 3 less than 1 ms ahead, 4 not open (R392). -/
def Dev.trigCode (d : Dev) (time : Nat) : Nat :=
  if !d.restore.ready then 4
  else if !d.qtz.hasTime then 1
  else if 8 ≤ d.snap.sched.length then 2
  else if (time : Int) - d.lTime < 1000000 then 3
  else 0

/-- REMOTE_SNAPSHOT_TRIGGER: a lattice-wide trigger of node `node` reaches this node, which schedules it and answers with a code (R356,
R380, R392). -/
def execRemoteSnapshotTrigger (l : Fin 6) (node : BitVec 12) (reqId : BitVec 32) (time : Nat) (dt : Nat) (s : State) : Res := s.run fun d =>
  let d := (d.elapse dt).rxFrames l.val 1 1
  match d.latGate with
  | none => d
  | some _ =>
    let c := d.trigCode time
    let x : SnapSched := { id := reqId.toNat, useL := true, time := time, owner := 3, reqNode := node.toNat }
    let d := if c = 0 then (d.onSnap fun s => { s with sched := s.sched ++ [x] }).snapUpd else d
    d.sendNode node.toNat 8 2 [1, reqId.toNat, 0, 0, d.lat.nodeId, c] []

/-- The requester's command completes with the counts and the refusals (R357, R392). -/
def Dev.snapReqEnd (d : Dev) (r : SnapReq) : Dev :=
  let acc := r.answers.countP fun a => a.2 == 0
  let refs := r.answers.filter fun a => a.2 != 0
  let out := fields [(4, r.reqId), (2, acc), (2, refs.length)] ++ refs.flatMap fun a => fields [(2, a.1), (1, a.2), (1, 0)]
  (d.onSnap fun s => { s with reqs := s.reqs.filter fun x => x != r }).respond { p := r.by_, tag := r.tag } 0xC472 (retOf 0) 0 false out

/-- REMOTE_SNAPSHOT_ANSWER: a node's answer is recorded; when every listed node has answered, the command completes (R392). -/
def execRemoteSnapshotAnswer (l : Fin 6) (node : BitVec 12) (reqId : BitVec 32) (code : BitVec 8) (dt : Nat) (s : State) : Res :=
  s.run fun d =>
  let d := (d.elapse dt).rxFrames l.val 2 1
  match d.snap.reqs.find? fun r => r.reqId == reqId.toNat with
  | none => d
  | some r =>
    if r.answers.any fun a => a.1 == node.toNat then d
    else
      let r' : SnapReq := { r with answers := r.answers ++ [(node.toNat, code.toNat)] }
      let d := d.onSnap fun s => { s with reqs := s.reqs.map fun x => if x = r then r' else x }
      if !r.nodes.isEmpty ∧ r.nodes.all fun n => r'.answers.any fun a => a.1 == n then d.snapReqEnd r' else d

/-- REMOTE_SNAPSHOT_TIMEOUT: 1 s after sending, the requester's command completes with the answers it has (R392). -/
def execRemoteSnapshotTimeout (dt : Nat) (s : State) : Res := s.run fun d =>
  let d := d.elapse dt
  match d.snap.reqs.find? fun r => decide (1000000000 ≤ d.now - r.sent) with
  | some r => d.snapReqEnd r
  | none => d

end Sys2Proof.Machine
end

