-- ==== Sys2Proof/Machine/Package.lean ====
section
/-! DEFINITION. The package role, the mesh, pace, operating points and boundary FIFOs (chapter 01). -/

namespace Sys2Proof.Machine

/-- HEARTBEAT: the lead's supervisor sends its heartbeat (R19). -/
def execHeartbeat (dt : Nat) (s : State) : Res := s.run fun d =>
  let d := d.elapse dt
  if d.supv d.pkg.lead then d.onPkg fun p => { p with lastBeat := d.now } else d

/-- Both supervisors are lost: Fatal, the safe state without a seal, and ALIVE stops (R21). -/
def Dev.bothLost (d : Dev) : Dev :=
  if d.pkg.safe = 2 then d else (d.raise 815 0x10 5).safeState 2

/-- The deputy declares the lead lost and hardware fences the lead's supervisor (R19 steps 1 and 2). -/
def Dev.leadLost (d : Dev) : Dev :=
  match d.pkg.deputy with
  | none => d.bothLost
  | some _ =>
    if d.pkg.takeStep ≠ 0 then d
    else
      let d := d.raise 816 0x10 2 (tile := some d.pkg.lead)
      let d := d.onTile d.pkg.lead fun t => { t with supvHalted := true }
      let d := d.onSealing fun x => { x with takeover := x.takeover || x.active }
      d.onPkg fun p => { p with takeStep := 2, fenced := true }

/-- LEAD_LOST: no heartbeat from the lead for its period, or its supervisor is halted (R19). -/
def execLeadLost (dt : Nat) (s : State) : Res := s.run fun d =>
  let d := d.elapse dt
  if d.pkg.takeStep = 0 && (!(d.supv d.pkg.lead) || decide (100000 < d.since d.pkg.lastBeat)) then d.leadLost else d

/-- The response to a command accepted but not completed at a takeover: success if the mirror records its effect as
committed, TAKEOVER_RETRY otherwise (R20, R408). -/
def Dev.takeoverResp (d : Dev) (q : QCmd) : Dev :=
  let ok := d.mirror.done.contains q.stamp
  let e := if ok then 0 else 10
  let d := if q.by_ < 2 then d.onHead q.by_ fun h => { h with mboxBusy := false, mboxRet := retOf e, mboxExt := e, mboxOut := [] } else d
  d.emit (.resp q.by_ q.opcode q.tag (retOf e) e false [])

/-- The estimator state of a pack after a takeover: the mirrored estimates, with the charge that the front-end has gone on counting
and the bay as it stands (R18). -/
def PackSt.afterTakeover (now m : PackSt) : PackSt := { now with
  sigSoc := m.sigSoc, sigFine := m.sigFine, sigCap := m.sigCap, fccMah := m.fccMah, dcir := m.dcir, tRest := m.tRest, noRestMin := m.noRestMin
  viewSoc := m.viewSoc, viewEnergy := m.viewEnergy }

/-- The estimator state of a source after a takeover: the mirrored estimates with the front-end's own codes and accumulator (R18). -/
def SourceSt.afterTakeover (now m : SourceSt) : SourceSt := { m with
  vCode := now.vCode, iCode := now.iCode, th1 := now.th1, th2 := now.th2, acc := now.acc }

/-- The deputy loads the gauge estimator state: that of the bridge with its learned values, and of each bay whose pack is the one that was mirrored (R18, R19). -/
def Dev.loadGauge (d : Dev) (m : Mirror) : Dev :=
  let one (d : Dev) (b : Nat) : Dev :=
    let p := tget m.pack {} b
    if p.tInsert = (d.bay b).tInsert ∧ p.counted = (d.bay b).counted then
      (d.onBay b fun x => x.afterTakeover p).onSrc b fun x => x.afterTakeover (tget m.src {} b)
    else d
  (([0, 1].foldl one d).onSrc 2 fun x => x.afterTakeover (tget m.src {} 2)).onEnergy fun e =>
    { e with brC := m.brC, brEsr := m.brEsr, brFill := m.brFill, brEnergy := m.brEnergy }

/-- TAKEOVER_COMPLETE: the deputy loads the mirrored state and resumes the package role, and what a seal's lead does as stage 2 begins if
one runs (R19 steps 3 and 4, R20, R22, R481). -/
def execTakeoverComplete (dt : Nat) (s : State) : Res := s.run fun d =>
  let d := d.elapse dt
  match d.pkg.deputy with
  | none => d
  | some t =>
    if d.pkg.takeStep ≠ 2 then d
    else
      let m := d.mirror
      let acc := d.jcs.inProg
      let d := d.onPkg fun p => { p with lead := t, deputy := none, takeStep := 0, lastBeat := d.now }
      let d := d.onExpo fun e => { e with kSeal := m.kSeal, landRef := m.landRef, eFixed := m.eFixed, gov := { m.gov with triggers := e.gov.triggers } }
      let d := d.loadGauge m
      let d := d.onQtz fun q => { q with
        rate := m.rate, freq := m.freq, ppsState := m.ppsState, ppsRun := m.ppsRun, ppsRejects := m.ppsRejects }
      let d := d.onJcs fun j => { j with inProg := [], done := [], leases := m.leases }
      let d := acc.foldl Dev.takeoverResp d
      let d := d.chunkAbort 10
      let com := (d.urec t).committed
      let d := d.onUpd fun u => { u with xfer := if u.xfer.active ∧ !u.xfer.ended then { u.xfer with durable := com } else u.xfer }
      if d.sealing.active ∧ 2 ≤ d.sealing.stage then d.stage2Lead else d.pointCheck

/-- LOSS_OF_BOTH_SUPERVISORS: neither T0's nor T4's supervisor runs (R21). -/
def execLossOfBothSupervisors (dt : Nat) (s : State) : Res := s.run fun d =>
  let d := d.elapse dt
  if !(d.supv 0) && !(d.supv 4) then d.bothLost else d

/-- ROLE of a tile in DW_TILE_PACE: 1 lead, 2 deputy, 3 isolated, 0 member (R25). -/
def Dev.roleCode (d : Dev) (t : Nat) : Nat :=
  if d.pkg.lead = t then 1 else if d.pkg.deputy = some t then 2 else if (d.tile t).isolated then 3 else 0

/-- DW_TILE_PACE of a tile (R25, R26). -/
def Dev.paceUpd (d : Dev) (t : Nat) : Dev :=
  let x := d.tile t
  d.dwUpd (0x400 + 8 * t) 16
    (put 0 16 x.pace + put 16 16 x.sealPace + put 32 2 d.pkg.oppt + put 34 2 (d.roleCode t) + put 36 1 (bit (d.supv t)))

/-- PACE_UPDATE: every 1 ms the pace monitors' averages of each tile, (live pace, seal pace) of T0 first (R25, R26, R522). -/
def execPaceUpdate (paces : List (Nat × Nat)) (dt : Nat) (s : State) : Res := s.run fun d =>
  let one (d : Dev) (t : Nat) : Dev :=
    let p := paces.getD t ((d.tile t).pace, (d.tile t).sealPace)
    (d.onTile t fun x => { x with pace := p.1 % 65536, sealPace := p.2 % 65536 }).paceUpd t
  (d.elapse dt).periodic 0 1000000 fun d => (tiles8.foldl one d).sealWorst

/-- VDD_CORE of an operating point, mV (R23). -/
def pointMv (pt : Nat) : Nat := if pt = 0 then 800 else if pt = 1 then 720 else 620

/-- POWER_ESTIMATE: every 1 ms, from the measured power of the VDD_CORE rail and of the other rails, mW (R23, R510). -/
def execPowerEstimate (coreMw otherMw dt : Nat) (s : State) : Res := s.run fun d =>
  let d := d.elapse dt
  let v := pointMv d.pkg.oppt
  let est := if d.pkg.oppt = 0 then coreMw + otherMw else coreMw * 800 * 800 * 800 / (v * v * v) + otherMw
  let d := d.onPkg fun p => { p with powerMw := est }
  if d.pkg.oppt = 0 ∧ 160000 < est then d.pointCheck else d

/-- OPERATING_POINT_CHANGE: the lead requests the point that R23 selects. -/
def execOperatingPointChange (dt : Nat) (s : State) : Res := s.run fun d => (d.elapse dt).pointCheck

/-- OPERATING_POINT_SETTLED: the rail has reached the point asked for (R24, R443). -/
def execOperatingPointSettled (dt : Nat) (s : State) : Res := s.run fun d =>
  let d := d.elapse dt
  match d.pkg.opptReq with
  | none => d
  | some pt => (d.onPkg fun p => { p with oppt := pt, opptReq := none }).tapsFor pt pt

/-- MESH_LINK_FAILED: traffic takes paths that avoid the link; its source reports it (R15). DESIGN CHOICE (log 239): each end of a link has a
source of it, and the one on the first tile of `meshEnds` reports the failure. -/
def execMeshLinkFailed (link : Fin 12) (dt : Nat) (s : State) : Res := s.run fun d =>
  let d := d.elapse dt
  if d.pkg.meshFailed.contains link.val then d
  else
    let e := meshEnds link.val
    (d.onPkg fun p => { p with meshFailed := addOnce p.meshFailed link.val }).raise
      (tsrc e.1 (if link.val < 8 then 47 else 49)) 0x40 2

/-- The Flint source of a clocked domain (R28, R313): 32 DDR channels, 16 ONFI groups, heads, lattice links, Quartz,
real-time, gauge modulator, sideband. -/
def domainSrc (n : Nat) : Nat :=
  if n < 32 then tsrc (n / 4) (4 * (n % 4)) else if n < 48 then tsrc ((n - 32) / 2) (34 + n % 2) else 838 + (n - 48)

/-- A request that a domain's FIFOs can hold: a head's for its own domain, one to a channel of DRAM for that channel's (R29). -/
def Dev.inDomain (d : Dev) (dom : Nat) (r : HeldReq) : Bool :=
  if dom < 32 then (d.lineLoc r.line).t == dom / 4 && (d.lineRanks r.line r.write).any fun p => p % 4 == dom % 4
  else dom == 48 + r.head

/-- CLOCKED_DOMAIN_RESET: the domain's FIFOs are emptied; each request `reqs` they held ends with an error and is gone, and the
domain's source records a Note (R29). -/
def execClockedDomainReset (dom : Fin 60) (reqs : List Nat) (dt : Nat) (s : State) : Res := s.run fun d =>
  let d := d.elapse dt
  let gone (r : HeldReq) : Bool := r.cmd == 0 && decide (r.head < 2) && reqs.contains r.id && d.inDomain dom.val r
  let late (p : Paced) : Bool := !p.ack && reqs.contains p.id && dom.val == 48 + p.head
  let d := d.onExpo fun e => { e with held := e.held.filter fun r => !gone r, paced := e.paced.filter fun p => !late p }
  (reqs.foldl (fun d r => d.emit (.reqError r)) d).raise (domainSrc dom.val) 0x46 0

end Sys2Proof.Machine
end

