-- ==== Sys2Proof/Machine/Flint.lean ====
section
/-! DEFINITION. Flint: collection, first faults, consequences, reactions, posting and the fault outputs (chapter 10). -/

namespace Sys2Proof.Machine

/-! ### The message (R310, R331) -/

/-- The 64 bits of a message with a severity (R310). -/
def FlintMsg.word (m : FlintMsg) (sev : Nat) : BitVec 64 :=
  BitVec.ofNat 64 (put 54 10 m.src + put 46 8 m.kind.toNat + put 43 3 sev + put 40 3 m.tile + put 39 1 (bit m.av) + put 0 39 m.atag)

/-- A message as a window judges it: its shadow's cause if it is consequential, and the severity it is logged with (R326). -/
structure Judged where
  /-- The message. -/
  m : FlintMsg
  /-- The cause: LSEQ of the package log, and its severity. -/
  cause : Option (Nat × Nat) := none
  deriving DecidableEq, Repr

/-- The severity after any cap (R326). -/
def Judged.sev (j : Judged) : Nat := match j.cause with
  | some c => min j.m.sev c.2
  | none => j.m.sev

/-- A message that takes or merges into first-fault records (R322, R323). -/
def Judged.fault (j : Judged) : Bool := j.cause.isNone && decide (2 ≤ j.m.sev)

/-- Higher severity ranks first, then the lower SRC (R322). -/
def Judged.rank (j : Judged) : Nat := (7 - j.m.sev) * 1024 + j.m.src

/-! ### Shadows (R325, R326) -/

/-- A kind is one of a list. -/
def kindIn (k : BitVec 8) (l : List Nat) : Bool := l.contains k.toNat

/-- The CXL.mem and poison-list sources of both heads. -/
def headMemSrcs : List Nat := [770, 774, 778, 782]

/-- Offset of a tile source; 96 for a package source. -/
def offOf (src : Nat) : Nat := if src < 768 then src % 96 else 96

/-- A DRAM channel source or an ONFI source of a tile, by its offset. -/
def dramOnfi (o : Nat) : Bool := decide (o < 16) || (decide (18 ≤ o) && decide (o ≤ 35))

/-- Some line of a page lies on a rank (R325). -/
def Dev.pageOnRank (d : Dev) (p t e : Nat) : Bool := (List.range 64).any fun i => let x := d.lineLoc (p * 64 + i); x.t == t && x.e == e

/-- The shadow list of a reaction covers a message (R325). -/
def Dev.covers (d : Dev) (s : Shadow) (m : FlintMsg) : Bool :=
  let k := m.kind
  let t := m.src / 96
  let o := offOf m.src
  let mine (u : Nat) : Bool := decide (m.src < 768) && t == u
  match s.reaction with
  | 1 =>
    let u := s.unit
    let row := u / 4 * 4
    let prev := row + (u + 3) % 4
    let next := row + (u + 1) % 4
    let col := (u + 4) % 8
    (kindIn k [0x40, 0x42, 0x44] && (m.src == tsrc prev 47 || m.src == tsrc next 48 || m.src == tsrc col 49))
      || (mine u && dramOnfi o)
      || (kindIn k [0x42] && [prev, next, col].any fun n => m.src == tsrc n 74)
      || (kindIn k [0x82] && headMemSrcs.contains m.src)
  | 2 =>
    let u := s.unit / 16
    let e := s.unit % 16
    let sc := (d.rank u e).retSc
    kindIn k [0x80, 0x81] && m.av && mine u && d.pageOnRank m.atag u e
      && (([0, 1].any fun j => j != sc && o == 4 * (e % 4) + 1 + j) || o == 17)
  | 3 =>
    let u := s.unit / 4
    let c := s.unit % 4
    (mine u && decide (4 * c < o) && decide (o < 4 * c + 4)) || (mine u && o == 16 && kindIn k [0x42, 0x13])
      || (kindIn k [0x82] && (m.src == 770 || m.src == 778))
  | 4 =>
    let u := s.unit / 128
    let die := s.unit % 128
    (mine u && o == 18 + die % 16 && kindIn k [0x81, 0x42, 0x43]) || (mine u && (o == 38 || o == 41) && kindIn k [0x86])
  | 5 =>
    (kindIn k [0x40, 0x41, 0x42, 0x43, 0x44]
      && (dramOnfi o || (decide (47 ≤ o) && decide (o ≤ 49)) || o == 74 || (decide (768 ≤ m.src) && decide (m.src ≤ 789))))
      || (kindIn k [0x82] && headMemSrcs.contains m.src) || (o == 65 && kindIn k [0x42])
  | 6 =>
    (kindIn k [0x10, 0x11] && (m.src == 50 || m.src == 51)) || (kindIn k [0x10, 0x13] && (m.src == 814 || m.src == 815))
      || (kindIn k [0x13] && (m.src == 773 || m.src == 781))
  | _ => kindIn k [0x40, 0x42] && (m.src == 790 || m.src == 791 || m.src == 792)

/-- Judge a message: consequential to the earliest cause whose open shadow covers it (R326). -/
def Dev.judge (d : Dev) (m : FlintMsg) : Judged :=
  let l := d.flint.shadows.filter fun s => decide (d.now ≤ s.until_) && d.covers s m
  { m := m, cause := (argMin l fun s => s.cause).map fun s => (s.cause, s.sev) }

/-- The window of a reaction, ns (R325). -/
def shadowNs (reaction : Nat) : Nat :=
  match reaction with
  | 1 => 5000000
  | 2 => 1000000
  | 3 => 2000000
  | 4 => 1000000
  | 5 => 10000000
  | 6 => 2000000
  | _ => 5000000

/-- A reaction opens its shadow. -/
def Dev.openShadow (d : Dev) (lseq sev reaction unit : Nat) : Dev :=
  d.onFlint fun f => { f with
    shadows := f.shadows ++ [{ cause := lseq, sev := sev, reaction := reaction, unit := unit, until_ := d.now + shadowNs reaction }] }

/-! ### Log and first faults (R322, R323, R331, R332) -/

/-- Whether a message is handled as a forced one with REACT 0 (R329). -/
def FlintMsg.quiet (m : FlintMsg) : Bool := m.forced && !m.react

/-- REACTION of a log entry (R331). -/
def Dev.reactionCode (d : Dev) (j : Judged) : Nat :=
  if j.cause.isSome then 0
  else if j.m.quiet then 1
  else match j.m.sev with
    | 0 => 1
    | 1 => 2
    | 2 =>
      if j.m.kind = 0x85 then 4
      else if 784 ≤ j.m.src ∧ j.m.src ≤ 789 ∧ kindIn j.m.kind [0x40, 0x41, 0x43, 0x44] then 3
      else j.m.act
    | 3 => 5
    | 4 => if j.m.src < 768 ∧ 50 ≤ offOf j.m.src ∧ offOf j.m.src ≤ 52 then 5 else if d.sealing.active then (if j.m.src < 768 then 5 else 1) else 6
    | _ => if j.m.src < 768 ∧ 50 ≤ offOf j.m.src ∧ offOf j.m.src ≤ 52 then 5 else 7

/-- The log of a collector takes an entry (R331). -/
def Dev.logPut (d : Dev) (c : Nat) (e : LogEntry) : Dev :=
  let lost := (d.coll c).lostBefore
  d.onColl c fun x => { x with
    log := ({ e with flags := if lost then mset e.flags 7 else e.flags } :: x.log).take (if c < 8 then 16384 else 65536)
    nextLseq := x.nextLseq + 1, lostBefore := false }

/-- What a window does to the first-fault record of a collector (R322, R323): for each message, 4 the first, 2 co-first, 16 merged, as
bits of FLAGS; 0 otherwise. -/
def ffRole (valid : Bool) (win : Option Judged) (j : Judged) : BitVec 16 :=
  if !j.fault then 0 else if valid then 16 else if win = some j then 4 else 2

/-- The heads a message is posted on (R335). -/
def Dev.postHeads (d : Dev) (m : FlintMsg) : List Nat :=
  if m.headOnly < 2 then [m.headOnly]
  else if m.context ≠ 65535 ∧ (d.ctx m.context).owner ≠ 0 then [d.ownerHead m.context]
  else [0, 1]

/-- The rate slot that holds back a message on a head: one for its source and kind, and for a line-poison event one for its context (R227,
R335). -/
def rateSame (m : FlintMsg) (h : Nat) (s : RateSlot) : Bool :=
  s.head == h && s.kind == m.kind && (if m.kind = 0x82 ∧ 2 ≤ m.sev then s.msg.context == m.context else s.src == m.src)

/-- Posting needs the supervisor that holds the package role, or a deputy to take it over (chapter 10). -/
def Dev.postMay (d : Dev) : Bool := d.roleRuns || d.pkg.deputy.isSome

/-- A message of severity 2 or more is posted; a lesser one that is named is posted unless its rate holds it back on every head (R335). -/
def Dev.isPosted (d : Dev) (j : Judged) : Bool :=
  j.cause.isNone && d.postMay && (decide (2 ≤ j.sev) || (j.m.named && (d.postHeads j.m).any fun h =>
    match d.flint.rate.find? (rateSame j.m h) with
    | some s => decide (1000000000 ≤ d.now - s.last)
    | none => true))

/-- Log a window's messages in a collector, and let them take, join or merge into its first-fault record. `first` is the index of the
winner among them. -/
def Dev.windowLog (d : Dev) (c : Nat) (js : List Judged) : Dev :=
  let rec_ := (d.coll c).ff
  let faults := js.filter Judged.fault
  let win := argMin faults Judged.rank
  let co := match win with
    | some w => eraseFirst (fun j => j == w) faults
    | none => []
  let t := d.now
  let base := (d.coll c).nextLseq
  let idx := (js.findIdx? fun j => win == some j).getD 0
  let d := (js.mapIdx fun i j => (i, j)).foldl (fun d x =>
    let j := x.2
    let role := if !rec_.valid ∧ win = some j ∧ x.1 ≠ idx ∧ j.fault then 2 else ffRole rec_.valid win j
    let fl : BitVec 16 := (if j.m.forced then 1 else 0) ||| role ||| (if j.cause.isSome then 8 else 0)
      ||| (if j.sev < j.m.sev then 32 else 0) ||| (if c = 8 ∧ d.isPosted j then 64 else 0)
    d.logPut c
      { msg := j.m.word j.sev, time := t, lseq := (d.coll c).nextLseq, causeSeq := (j.cause.map fun c => c.1).getD 0xFFFFFFFF
        flags := fl, origSev := j.m.sev, reaction := d.reactionCode j, context := j.m.context }) d
  let merge (f : FirstFault) (j : Judged) : FirstFault :=
    { f with
      count := satInc 32 f.count, kindOr := f.kindOr ||| j.m.kind, lastMsg := j.m.word j.sev, tLast := t, maxSev := max f.maxSev j.sev }
  match win with
  | none => d
  | some w =>
    if rec_.valid then d.onColl c fun x => { x with ff := faults.foldl merge x.ff }
    else
      let coTop := argMin co Judged.rank
      d.onColl c fun x => { x with ff :=
        { msg := w.m.word w.sev, tFirst := t, maxSev := w.sev, valid := true, forced := w.m.forced, coFirst := !co.isEmpty
          coMsg := (coTop.map fun j => j.m.word j.sev).getD 0, coCount := co.length, lseq := base + idx, held := mbit d.flint.tfHold (c % 8) && decide (c < 8) } }

/-- The counts of a source (R332). -/
def Dev.countMsg (d : Dev) (m : FlintMsg) : Dev :=
  d.onFlint fun f =>
    if m.sev = 1 then { f with ce := tmod f.ce 0 m.src (satInc 32) }
    else if 2 ≤ m.sev then { f with sev2 := tmod f.sev2 0 m.src (satInc 16) }
    else f

/-- TFAULT_N of a tile pulses (R330). -/
def Dev.tfPulse (d : Dev) (t : Nat) : Dev := d.onFlint fun f => { f with tfPulse := mset f.tfPulse t, tfAt := tset f.tfAt t d.now }

/-! ### Posting (R335, R336) -/

/-- The CXL event log of a severity (R335). -/
def logOf (sev : Nat) : Nat := if sev ≤ 1 then 0 else if sev = 2 then 1 else if sev ≤ 4 then 2 else 3

/-- Post one record in an event log of head `h`, with the interrupt that the head's policy asks for (R336, R430). -/
def Dev.postTo (d : Dev) (h : Nat) (m : FlintMsg) (sev lseq count : Nat) (flags : BitVec 16) : Dev :=
  let x := d.head h
  let e : CxlEvent :=
    { log := logOf sev, handle := x.nextHandle, msg := m.word sev, qtime := d.now, lseq := lseq, count := count, context := m.context, flags := flags
      stamp := d.hostStamp h, detail := m.detail }
  ((d.onHead h fun y => { y with events := y.events ++ [e], nextHandle := y.nextHandle % 65535 + 1 }).emit (.event h e.log e.handle)).evtIrq
    h e.log

/-- A message of severity 0 or 1, and a line-poison event, is posted at most once per second, carrying the count since and the
first message of those counted (R227, R335). -/
def Dev.postRated (d : Dev) (h : Nat) (m : FlintMsg) (sev lseq : Nat) (flags : BitVec 16) : Dev :=
  match d.flint.rate.find? (rateSame m h) with
  | some s =>
    if d.now - s.last < 1000000000 then
      d.onFlint fun f => { f with rate := f.rate.map fun x => if x = s then { x with count := x.count + 1, msg := if x.count = 0 then m else x.msg } else x }
    else
      (d.onFlint fun f => { f with rate := f.rate.map fun x => if x = s then { x with count := 0, last := d.now, msg := m } else x }).postTo
        h m sev lseq (s.count + 1) flags
  | none =>
    (d.onFlint fun f => { f with rate := f.rate ++ [{ src := m.src, kind := m.kind, head := h, last := d.now, count := 0, msg := m }] }).postTo
      h m sev lseq 1 flags

/-- Post a message (R335). -/
def Dev.post (d : Dev) (j : Judged) (lseq : Nat) (flags : BitVec 16) : Dev :=
  if j.cause.isSome ∨ !d.postMay then d
  else if 2 ≤ j.sev then
    if j.m.kind = 0x82 ∧ j.sev = 3 ∧ j.m.src < 768 ∧ !j.m.forced then (d.postHeads j.m).foldl (fun d h => d.postRated h j.m j.sev lseq flags) d
    else (d.postHeads j.m).foldl (fun d h => d.postTo h j.m j.sev lseq 1 flags) d
  else if j.m.named then (d.postHeads j.m).foldl (fun d h => d.postRated h j.m j.sev lseq flags) d
  else d

/-- EVENT_POST_RATE: the events held back by their rate for 1 s are posted with their counts (R335). -/
def execEventPostRate (dt : Nat) (s : State) : Res := s.run fun d =>
  let d := d.elapse dt
  if !d.roleRuns then d
  else
    let due (x : RateSlot) : Bool := x.count != 0 && decide (1000000000 ≤ d.now - x.last)
    let l := d.flint.rate.filter due
    let t := d.now
    let d := d.onFlint fun f => { f with rate := f.rate.map fun x => if due x then { x with count := 0, last := t } else x }
    l.foldl (fun d x => d.postTo x.head x.msg x.msg.sev ((d.coll 8).nextLseq - 1) x.count (if x.msg.forced then 1 else 0)) d

/-! ### Reactions (R314 to R319, R327) -/

/-- What a head's reset clears (R204, R497): its link, configuration, decoder commits, MSI-X table and mailbox; its background command
ends with Aborted. -/
def Dev.headClear (d : Dev) (h : Nat) : Dev :=
  d.onHead h fun x => { x with
    linkUp := false, training := false, linkDownAt := some d.now, hdm := [], mboxBusy := false, mboxOut := [], msixOpen := [], msixPending := []
    bg := if x.bg.running then { x.bg with running := false, ret := retOf 8, ext := 0 } else x.bg }

/-- A Contained message resets the head's link, and its requests end with an error (R315). -/
def Dev.headReset (d : Dev) (h : Nat) : Dev :=
  let mine := d.expo.held.filter fun r => r.head == h
  let d := d.onExpo fun e => { e with held := e.held.filter fun r => r.head != h, paced := e.paced.filter fun p => p.head != h }
  (mine.foldl Dev.refuseErr d).headClear h

/-- A supervisor is halted by an Urgent or Fatal message of its own sources (R316). -/
def Dev.haltSupv (d : Dev) (t lseq : Nat) : Dev :=
  if (d.tile t).supvHalted then d
  else
    let d := d.onTile t fun x => { x with supvHalted := true }
    if t = 0 ∨ t = 4 then
      if d.pkg.lead = t then (if d.pkg.deputy.isNone then d.bothLost else d)
      else if d.pkg.deputy = some t then (d.onPkg fun p => { p with deputy := none }).raise 816 0x10 2 (tile := some t)
      else d
    else d.isolate t lseq

/-- A page that could not be restored or reverted is contained by the page alone, which its detector has poisoned (R125, R315). -/
def FlintMsg.pageUnit (m : FlintMsg) : Bool :=
  decide (m.src < 768) && (offOf m.src == 75 || offOf m.src == 76) && m.kind == 0x83 && !m.forced

/-- A Contained message isolates its containment unit (R315). `m.detail` names the die or the context where its detector gave it; a forced
message names the die by its flash address. -/
def Dev.contain (d : Dev) (m : FlintMsg) (lseq : Nat) : Dev :=
  let o := offOf m.src
  let t := m.src / 96
  let iso (d : Dev) : Dev := if (d.tile t).isolated then d else (d.isolate t lseq).openShadow lseq m.sev 1 t
  if 768 ≤ m.src then
    if m.src ≤ 783 then
      let h := (m.src - 768) / 8
      d.headReset h
    else if m.src = 831 then
      match m.detail with
      | [3] => d.headReset 0
      | [4] => d.headReset 1
      | [5] => ([0, 1, 2, 3, 4, 5].foldl (fun d l => d.linkDisable l 3) d).latShow
      | _ => d
    else if m.src ≤ 789 then (d.linkDisable (m.src - 784) 3).latShow.openShadow lseq m.sev 7 (m.src - 784)
    else d
  else if (o < 16 ∧ (o % 4 = 1 ∨ o % 4 = 2)) ∨ o = 17 then
    if m.forced ∧ m.av then (d.storePoison (m.atag * 64 + Config.freeValue d.freeN % 64)).tick else d
  else if o < 16 ∧ o % 4 = 0 then
    let d := d.openShadow lseq m.sev 3 (t * 4 + o / 4)
    iso (d.chanDo t (o / 4) fun c => { c with state := 3 })
  else if 18 ≤ o ∧ o ≤ 33 then
    let die := if m.forced then m.atag % 128 else m.detail.headD (m.atag % 128)
    if m.detail.isEmpty ∧ !m.av then d else (d.retireDie t die).openShadow lseq m.sev 4 (t * 128 + die)
  else if o = 44 then
    match m.detail with
    | c :: _ => if (d.ctx c).keyLost then d else d.keyLost t c
    | [] => d
  else if m.pageUnit then d
  else iso d

/-- The package safe state begins (R318), with its shadow. -/
def Dev.safeBegin (d : Dev) (m : FlintMsg) (lseq lvl : Nat) : Dev := (d.safeState lvl).openShadow lseq m.sev 5 0

/-- The reaction of a message that is not consequential (R95, R314 to R319); an Urgent one in a seal is a later trigger, which the
seal's record keeps (R79, R81). -/
def Dev.react (d : Dev) (m : FlintMsg) (lseq : Nat) : Dev :=
  let o := offOf m.src
  let t := m.src / 96
  let supv := decide (m.src < 768) && decide (50 ≤ o) && decide (o ≤ 52)
  let d := if 4 ≤ m.sev then d.onFlint fun f => { f with sev4 := true } else d
  match m.sev with
  | 0 => d
  | 1 => d
  | 2 =>
    if m.kind = 0x85 ∧ m.src < 768 ∧ o < 16 ∧ o % 4 = 3 then
      match m.detail with
      | e :: _ => d.openShadow lseq 2 2 (t * 16 + e)
      | [] => d
    else if m.kind = 0x85 ∧ m.src < 768 ∧ 18 ≤ o ∧ o ≤ 33 then
      match m.detail with
      | e :: _ => d.openShadow lseq 2 4 (t * 128 + e)
      | [] => d
    else if m.src = 816 ∧ m.kind = 0x10 ∧ d.pkg.takeStep ≠ 0 then d.openShadow lseq 2 6 0
    else d
  | 3 =>
    if d.sealing.active ∧ m.src < 768 ∧ !(o < 16 ∧ (o % 4 = 1 ∨ o % 4 = 2)) ∧ o ≠ 17 ∧ o ≠ 44 ∧ !(18 ≤ o ∧ o ≤ 33) ∧ !m.pageUnit then
      (if (d.tile t).isolated then d else (d.isolate t lseq).openShadow lseq 3 1 t)
    else d.contain m lseq
  | 4 =>
    if supv then d.haltSupv t lseq
    else if d.sealing.active then
      let d := d.onSealing fun s => { s with later := if s.later = 15 then 5 else s.later }
      if m.src < 768 ∧ !(d.tile t).isolated then (d.isolate t lseq).openShadow lseq 4 1 t else d
    else d.safeBegin m lseq 1
  | _ =>
    if supv then d.haltSupv t lseq else d.safeBegin m lseq 2

/-! ### Windows (R314, R321, R322) -/

/-- The fields of DW_FLT_PKG. -/
def Dev.fltFields (d : Dev) : Nat :=
  sumBy tiles8 (fun t => put t 1 (bit (d.tile t).isolated)) + put 8 1 (bit (d.pkg.safe != 0)) + put 9 1 (bit d.flint.fatal)
    + put 10 1 (bit d.flint.aliveStop) + sumBy tiles8 (fun t => put (11 + t) 1 (bit (d.coll t).ff.valid)) + put 19 1 (bit (d.coll 8).ff.valid)
    + put 20 8 d.flint.tfHold.toNat + put 28 20 d.flint.lost

/-- DW_FLT_PKG shows what has changed, within 10 µs (R334). -/
def Dev.fltShow (d : Dev) : Dev := if bits (d.dwGet 0x1400 0) 0 48 = d.fltFields % 2 ^ 48 then d else d.dwUpd 0x1400 16 d.fltFields

/-- Take up to `n` waiting messages of a collector, the reserved lane first (R321). -/
def Dev.takeWindow (d : Dev) (c n : Nat) : Dev × List FlintMsg :=
  let x := d.coll c
  let u := x.urgent.take n
  let i := x.input.take (n - u.length)
  (d.onColl c fun x => { x with urgent := x.urgent.drop u.length, input := x.input.drop i.length }, u ++ i)

/-- The package collector admits one window: it is logged, judged against the first-fault record, posted, and takes its reactions; a first
fault triggers a snapshot, and one of a package source pulses the line of its tile (R314, R322, R330, R335, R354). -/
def Dev.admitPkg (d : Dev) (js : List Judged) : Dev :=
  let had := (d.coll 8).ff.valid
  let base := (d.coll 8).nextLseq
  let d := d.windowLog 8 js
  let took := !had && (d.coll 8).ff.valid
  let win := argMin (js.filter Judged.fault) Judged.rank
  let d := (js.mapIdx fun i j => (base + i, j)).foldl (fun d x =>
    let fl := (((d.coll 8).log.find? fun e => e.lseq == x.1).map fun e => e.flags).getD 0
    d.post x.2 x.1 fl) d
  let d :=
    match win with
    | some w =>
      if took then
        let d := if 768 ≤ w.m.src then d.tfPulse w.m.tile else d
        d.snapCapture (if w.m.forced then 33 else 1) 4 0 0 (w.m.word w.sev)
      else d
    | none => d
  (js.mapIdx fun i j => (base + i, j)).foldl (fun d x =>
    let d := if 3 ≤ x.2.sev then d.onFlint fun f => { f with extractDue := true } else d
    if x.2.cause.isSome ∨ x.2.m.quiet then d else d.react x.2.m x.1) d

/-- One arbitration window of a collector admits the first `n` waiting messages, at most eight; a tile's goes as one group to the package
collector, whose window takes it with `pk` of its own (R321, R322). -/
def Dev.window (d : Dev) (c n pk : Nat) : Dev :=
  let (d, ms) := d.takeWindow c (min n 8)
  let d := ms.foldl Dev.countMsg d
  let js := ms.map d.judge
  if c = 8 then (d.admitPkg js).fltShow
  else
    let had := (d.coll c).ff.valid
    let d := d.windowLog c js
    let d := if !had ∧ (d.coll c).ff.valid then d.tfPulse c else d
    let (d, ps) := d.takeWindow 8 (min pk 8)
    let d := ps.foldl Dev.countMsg d
    (d.admitPkg (js ++ ps.map d.judge)).fltShow

/-- Every message that waits at a collector is taken, eight a window. -/
def Dev.flush (d : Dev) (c : Nat) : Nat → Dev
  | 0 => d
  | n + 1 => if (d.coll c).input.isEmpty && (d.coll c).urgent.isEmpty then d else Dev.flush (d.window c 8 0) c n

/-- FLINT_MESSAGE: one arbitration window of collector `c` (0 to 7 a tile's, 8 the package's) admits the first `n` of the messages that wait
there, at most eight. A tile's window goes as one group to the package collector, whose window takes it with `pk` waiting messages of the
package's own (R310, R314, R321 to R326). -/
def execFlintMessage (c : Fin 9) (n pk : Nat) (dt : Nat) (s : State) : Res := s.run fun d => (d.elapse dt).window c.val n pk

/-- SHADOW_WINDOW_CLOSE: the shadow windows that have run out close (R325). -/
def execShadowWindowClose (dt : Nat) (s : State) : Res := s.run fun d =>
  let d := d.elapse dt
  d.onFlint fun f => { f with shadows := f.shadows.filter fun x => decide (d.now ≤ x.until_) }

/-- LOST_MESSAGE_REPORT: once per second while losses continue, a collector reports the messages it lost (R321). -/
def execLostMessageReport (c : Fin 9) (dt : Nat) (s : State) : Res := s.run fun d =>
  let d := d.elapse dt
  let n := (d.coll c.val).lostSince
  if n = 0 then d
  else (d.onColl c.val fun x => { x with lostSince := 0 }).raise (if c.val < 8 then tsrc c.val 68 else 833) 0x13 2 (detail := [n])

/-- SAFE_STATE_DECISION: after an Urgent message the supervisor with the package role starts a seal of cause 5h; where none can act, the safe
state is held and ALIVE stops (R319, R320). -/
def execSafeStateDecision (dt : Nat) (s : State) : Res := s.run fun d =>
  let d := d.elapse dt
  if d.pkg.safe ≠ 1 ∨ d.sealing.active ∨ d.sealing.hibernating then d
  else if d.roleRuns then d.trigger 5
  else ((d.onPkg fun p => { p with safe := 2 }).onFlint fun f => { f with aliveStop := true }).fltShow

/-- FLINT_EXTRACT_WRITE: within 1 s of a message of severity 3 or more, the first-fault records and the extract of the log go to Slate,
under the pre-check (R333). -/
def execFlintExtractWrite (dt : Nat) (s : State) : Res := s.run fun d =>
  let d := d.elapse dt
  if d.flint.extractDue ∧ d.recMay then d.flintExtract else d

/-! ### Outputs (R330) -/

/-- ALIVE_TOGGLE: from the end of restore phase 2 on, ALIVE takes the level of a square wave of 500 µs a half whose rising edges fall on
Quartz milliseconds; in Bedrock, of one of 50 ms a half. It does not move once it has stopped (R330). -/
def execAliveToggle (dt : Nat) (s : State) : Res := s.run fun d =>
  let d := d.elapse dt
  if d.panel.coreUp ∧ !d.flint.aliveStop ∧ (3 ≤ d.restore.phase ∨ d.pkg.bedrock) then 
    d.onFlint fun f => { f with alive := decide (d.now / (if d.pkg.bedrock then 50000000 else 500000) % 2 = 0) }
  else d

/-- TFAULT_PULSE_END: the pulse of TFAULT_N[t] ends once it has lasted 20 µs; a hold keeps the line low (R330). -/
def execTfaultPulseEnd (t : Fin 8) (dt : Nat) (s : State) : Res := s.run fun d =>
  let d := d.elapse dt
  if 20000 ≤ d.since (tget d.flint.tfAt 0 t.val) then d.onFlint fun f => { f with tfPulse := mclr f.tfPulse t.val } else d

/-- The level of TFAULT_N[t]: low while it pulses or is held. -/
def Dev.tfaultN (d : Dev) (t : Nat) : Bool := !(mbit d.flint.tfPulse t || mbit d.flint.tfHold t)

end Sys2Proof.Machine
end

