-- ==== Sys2Proof/Machine/Update.lean ====
section
/-! DEFINITION. Firmware update, the boot's choice of a slot, confirmation, and Bedrock with its recovery window (chapter 15). -/

namespace Sys2Proof.Machine

/-! ### Images (R460, R461) -/

/-- The header fields of an image, from its bytes (R460). -/
def parseHdr (b : List Byte) : ImgHdr :=
  { magic := fieldAt b 0 4, hdrVersion := fieldAt b 4 2, part := fieldAt b 6 2, version := fieldAt b 8 4, svn := fieldAt b 12 1
    keyIndex := fieldAt b 13 1, flags := BitVec.ofNat 16 (fieldAt b 14 2), mainLen := fieldAt b 16 4, bootLen := fieldAt b 20 4
    loaderVersion := fieldAt b 24 4, loaderMin := fieldAt b 28 4, settings := fieldAt b 32 2 }

/-- Length of an image file: header, main and boot component (R460). -/
def ImgHdr.fileLen (h : ImgHdr) : Nat := 512 + h.mainLen + h.bootLen

/-- The package floor: the highest of any tile (R462). -/
def Dev.floorPkg (d : Dev) : Nat := maxBy tiles8 0 fun t => tget d.upd.floor 0 t

/-- The reason of R461 that an image fails for on a tile of floor `fl`, 0 for none; `full` adds checks 05h and 08h, `loader` says
that the object is a boot component. `f` is what only cryptography and fuses tell of it: bit 0 the key hash matches its fused one (02h), bit 1
the signature is valid (03h), bit 2 the digests match (05h), bit 3 the settings fit (08h). -/
def Dev.imgReason (d : Dev) (h : ImgHdr) (f : BitVec 4) (fl : Nat) (full loader : Bool) : Nat :=
  let revoked := tiles8.any fun t => (tget d.upd.revoked 0 t).getLsbD (h.keyIndex % 4)
  let boot := h.flags.getLsbD 0
  if h.magic ≠ 0x4A524D49 ∨ h.hdrVersion ≠ 1 ∨ h.part ≠ 0x8800 ∨ h.flags.getLsbD 1 ≠ loader then 1
  else if 4 ≤ h.keyIndex ∨ !f.getLsbD 0 ∨ revoked then 2
  else if !f.getLsbD 1 then 3
  else if h.svn < fl then 4
  else if full ∧ !f.getLsbD 2 then 5
  else if h.mainLen % 16 ≠ 0 ∨ 3407360 < h.mainLen ∨ h.bootLen % 16 ≠ 0 ∨ 262144 < h.bootLen ∨ (!boot && h.bootLen != 0) then 6
  else if d.upd.loader < h.loaderMin ∨ (boot && decide (h.loaderVersion < h.loaderMin)) then 7
  else if full ∧ !f.getLsbD 3 then 8
  else 0

/-- First address of slot A (0) or B (1). -/
def slotBase (slot : Nat) : Nat := if slot = 0 then 0xC0000 else 0x400000
/-- The 13 sectors of a slot. -/
def slotSecs (slot : Nat) : List Nat := (List.range 13).map fun i => (if slot = 0 then 0x22 else 0x2F) + i

/-- The first 512 bytes held at a Slate address of a tile. -/
def Dev.slateHdr (d : Dev) (t a : Nat) : ImgHdr :=
  parseHdr ((List.range 32).flatMap fun i => leBytes 16 (tget (d.sl t).lines (BitVec.allOnes 128) (a / 16 + i)).toNat)

/-- Write bytes into Slate lines of a tile from an address on. -/
def Dev.slatePut (d : Dev) (t a : Nat) (bs : List Byte) : Dev :=
  (List.range ((bs.length + 15) / 16)).foldl (fun d i =>
    d.onSl t fun s => { s with lines := tset s.lines (a / 16 + i) (BitVec.ofNat 128 (leNat ((bs.drop (16 * i)).take 16))) }) d

/-- A whole erase with its intent and done lines, by the firmware (R449). -/
def Dev.eraseWhole (d : Dev) (t s purpose : Nat) : Dev :=
  let n := d.topIseq t + 1
  let c := tget (d.sl t).counters 0 s
  let i : IntentLine := { ltype := 0x49, sector := s, purpose := purpose, iseq := n, ecount := c }
  let d := (d.intentPut t i).secClear t s
  let d := d.onSl t fun x => { x with counters := tset x.counters s (min 0xFFFFFF (c + 1)), lastErase := tset x.lastErase s d.now }
  (d.intentPut t { i with ltype := 0x44 }).recDueOn t 0x6C

/-! ### Update records (R463, R464) -/

/-- The state of a slot in a record. -/
def UpdRec.state (u : UpdRec) (slot : Nat) : Nat := if slot = 0 then u.stateA else u.stateB
/-- A record with a slot's state changed. -/
def UpdRec.setState (u : UpdRec) (slot st : Nat) : UpdRec := if slot = 0 then { u with stateA := st } else { u with stateB := st }
/-- SVN of a slot. -/
def UpdRec.svn (u : UpdRec) (slot : Nat) : Nat := if slot = 0 then u.svnA else u.svnB

/-- Every tile writes its record, the lead last (R463). -/
def Dev.onRecs (d : Dev) (f : UpdRec → UpdRec) : Dev :=
  ((tiles8.filter fun t => t != d.pkg.lead) ++ [d.pkg.lead]).foldl (fun d t => (d.onUrec t f).recWrite t 0x67 6) d

/-- The lead's record, which decides. -/
def Dev.lrec (d : Dev) : UpdRec := d.urec d.pkg.lead

/-- An update event on a source (R487). -/
def Dev.updEvent (d : Dev) (src kind sev : Nat) (detail : List Nat := []) : Dev := d.raise src kind sev (detail := detail)

/-- The update slot is released; a chunk in flight is not acknowledged (R466). -/
def Dev.updRelease (d : Dev) : Dev :=
  if d.lrec.owner = 255 then d
  else
    let d := d.chunkAbort 4
    let d := (d.onRecs fun u => { u with owner := 255, ownerUid := 0 }).endLease 0x4003
    (d.onUpd fun u => { u with xfer := {} }).updEvent 834 0x14 0 [0]

/-- A principal becomes the update owner, on every tile (R465). -/
def Dev.updOwn (d : Dev) (by_ slot : Nat) (pldm : Bool) : Dev :=
  let d := d.onRecs fun u => { u with owner := by_, ownerUid := 0 }
  let d := (d.onJcs fun j => { j with leases := tset j.leases 0x4003 { holder := by_, acquired := d.now, timeoutS := 1800, last := d.now } }).mirrorNow
  (d.onUpd fun u => { u with xfer := { active := true, pldm := pldm, slot := slot, by_ := by_, last := d.now } }).updEvent 834 0x14 0 [1, by_]

/-- Why a transfer or an activation cannot be taken now: SEALING, NOT_READY, 0 for none (R94, R467). -/
def Dev.updBar (d : Dev) : Nat :=
  if d.sealing.active ∨ d.pkg.safe ≠ 0 then 8
  else if !d.restore.ready ∨ !(tiles8.all fun t => (d.tile t).supvOk) then 7
  else 0

/-! ### Download (R467 to R469) -/

/-- The header of a transfer has been checked: the slot resumes if it is PARTIAL with the same HDR_DIG, and else starts anew as
PARTIAL with COMMITTED 0; with nothing committed its sectors are erased before the first chunk (R468, R469). -/
def Dev.xferHeader (d : Dev) (h : ImgHdr) (dig : Nat) : Dev :=
  let slot := d.upd.xfer.slot
  let r := d.lrec
  if r.state slot = 2 ∧ r.hdrDig = dig then
    d.onUpd fun u => { u with xfer := { u.xfer with hdr := h, durable := r.committed, erased := r.committed != 0 } }
  else
    let d := d.onRecs fun u => { u.setState slot 2 with hdrDig := dig, committed := 0 }
    d.onUpd fun u => { u with xfer := { u.xfer with
      hdr := h, durable := 0, erased := false, prev := some (r.state slot, r.hdrDig, r.committed) } }

/-- The slot has its previous state again, its erase not having begun (R465, R479). -/
def Dev.xferUndo (d : Dev) : Dev :=
  match d.upd.xfer.prev with
  | none => d
  | some (st, dig, com) =>
    let slot := d.upd.xfer.slot
    d.onUpd fun u => { u with
      recs := u.recs.map fun e => (e.1, { e.2.setState slot st with hdrDig := dig, committed := com }), xfer := { u.xfer with prev := none } }

/-- A principal asks for the update slot less than 1 µs after a head that comes after it in the order SB, H0, H1 has opened it: that head's
command loses, and nothing that it did stands (R407, R465). -/
def Dev.updYield (d : Dev) (p : Nat) : Dev :=
  let o := d.lrec.owner
  let x := d.upd.xfer
  if o < 2 ∧ (p = 2 ∨ p < o) ∧ d.now < (d.lease 0x4003).acquired + 1000 ∧ x.active ∧ !x.pldm ∧ x.chunkAt.isSome ∧ !x.ended then
    let d := ((d.xferUndo.onRecs fun u => { u with owner := 255, ownerUid := 0 }).endLease 0x4003).cxlRespond o 0x0201 6 [p, 0, 0x4003]
    d.onUpd fun u => { u with xfer := {} }
  else d

/-- A chunk of the file is taken for programming; one wholly durable already is acknowledged without being written (R468, R469). -/
def Dev.xferChunk (d : Dev) (off : Nat) (bs : List Byte) : Dev :=
  d.onUpd fun u => { u with xfer := { u.xfer with chunkAt := some off, chunkLen := bs.length, chunk := bs, last := d.now } }

/-- The response that acknowledges a chunk to its source. -/
def Dev.xferAck (d : Dev) (ext : Nat) : Dev :=
  let x := d.upd.xfer
  if x.pldm then d.emit (.pldm 0x15 [x.durable, min x.maxReq (x.hdr.fileLen - x.durable)])
  else d.cxlRespond x.by_ 0x0201 ext []

/-- CHUNK_DURABLE: the chunk is programmed and read back on all eight tiles: the slot's sectors having been erased before the first
one, its bytes stand in the slot or the inactive twin, COMMITTED advances at each 65,536 bytes and at the end of the file, and the source gets
its acknowledgement, that of the last byte being the outcome of the verification (R468, R470). -/
def execChunkDurable (dt : Nat) (s : State) : Res := s.run fun d =>
  let d := d.elapse dt
  let x := d.upd.xfer
  match x.chunkAt with
  | none => d
  | some off =>
    if d.sealing.active then d
    else
      let d := if x.erased then d
        else tiles8.foldl (fun d t =>
          let d := (slotSecs x.slot).foldl (fun d s => d.eraseWhole t s 2) d
          if x.hdr.flags.getLsbD 0 then d.eraseWhole t (1 - d.bootTwin t) 3 else d) d
      let main := 512 + x.hdr.mainLen
      let inMain := x.chunk.take (main - off)
      let inBoot := x.chunk.drop (main - off)
      let fresh := decide (x.durable < off + x.chunkLen)
      let d := if fresh then tiles8.foldl (fun d t =>
          let d := if off < main then d.slatePut t (slotBase x.slot + off) inMain else d
          if inBoot.isEmpty then d else d.slatePut t (secBase (1 - d.bootTwin t) + (max off main - main)) inBoot) d
        else d
      let dur := max x.durable (off + x.chunkLen)
      let d := d.onUpd fun u => { u with xfer := { u.xfer with
        erased := true, prev := none, chunkAt := none, chunkLen := 0, chunk := [], durable := dur, ended := u.xfer.ended || (u.xfer.pldm && decide (u.xfer.hdr.fileLen ≤ dur)) } }
      let com := if x.hdr.fileLen ≤ dur then x.hdr.fileLen else dur / 65536 * 65536
      let d := if d.lrec.committed < com then d.onRecs fun u => { u with committed := com } else d
      if d.upd.xfer.ended then (if x.pldm then d.emit (.pldm 0x16 [0]) else d) else d.xferAck 0

/-- A transfer is refused as an image: the event, and the status (R468, R470, R487). -/
def Dev.imageReject (d : Dev) (reason : Nat) : Dev := d.updEvent 834 0x15 2 [reason]

/-- SLOT_VERIFICATION: the last byte has been acknowledged and every tile verifies its slot, and any new twin, under R461; `facts`
gives each tile's cryptographic outcome (R470). -/
def execSlotVerification (facts : List (BitVec 4)) (dt : Nat) (s : State) : Res := s.run fun d =>
  let d := d.elapse dt
  let x := d.upd.xfer
  if !x.ended ∨ !x.active ∨ x.chunkAt.isSome ∨ d.sealing.active then d
  else
    let rs := tiles8.map fun t =>
      let f := facts.getD t 0
      let r := d.imgReason (d.slateHdr t (slotBase x.slot)) f (tget d.upd.floor 0 t) true false
      if r = 0 ∧ x.hdr.flags.getLsbD 0 then d.imgReason (d.slateHdr t (secBase (1 - d.bootTwin t))) f (tget d.upd.floor 0 t) true true else r
    let d := d.onUpd fun u => { u with xfer := { u.xfer with ended := false } }
    match rs.find? fun r => r != 0 with
    | some r =>
      let d := (d.onRecs fun u => u.setState x.slot 4).imageReject r
      let d := if x.pldm then d.emit (.pldm 0x17 [r]) else d.cxlRespond x.by_ 0x0201 0x14 []
      d.updRelease
    | none =>
      let d := d.onRecs fun u =>
        let u := { u.setState x.slot 1 with newTwin := u.newTwin || x.hdr.flags.getLsbD 0, committed := x.hdr.fileLen }
        if x.slot = 0 then { u with verA := x.hdr.version, svnA := x.hdr.svn } else { u with verB := x.hdr.version, svnB := x.hdr.svn }
      let d := d.onUpd fun u => { u with xfer := { u.xfer with active := false, last := d.now } }
      if x.pldm then (d.emit (.pldm 0x17 [0])).emit (.pldm 0x18 [0]) else d.cxlRespond x.by_ 0x0201 0 []

/-- UPDATE_IDLE_TIMEOUT: 30 minutes pass without a command of the owner, no try being pending (R466). -/
def execUpdateIdleTimeout (dt : Nat) (s : State) : Res := s.run fun d =>
  let d := d.elapse dt
  if d.lrec.owner ≠ 255 ∧ d.lrec.trySlot.isNone ∧ 1800000000000 ≤ d.since (max d.upd.xfer.last (d.lease 0x4003).last) then d.updRelease else d

/-! ### PLDM (R398, R465 to R469, R472). Message codes and completion codes are PLDM's own. -/

/-- REQUEST_UPDATE: PLDM RequestUpdate from endpoint `eid` (R465, R467): refused while the slot is owned, before early open, in a
seal, or from another endpoint than the sideband owner; the device then asks for the first bytes. Requests are of whole lines. -/
def execRequestUpdate (eid maxTransfer : Nat) (dt : Nat) (s : State) : Res := s.run fun d =>
  let d := d.elapse dt
  if !d.answers ∨ d.pkg.bedrock then d
  else if eid ≠ d.jcs.sbEid then d.emit (.pldm 0x10 [1])
  else if d.updBar ≠ 0 then d.emit (.pldm 0x10 [if d.updBar = 8 then 0x8D else 0x8A])
  else
    let d := d.updYield 2
    if d.lrec.owner ≠ 255 then d.emit (.pldm 0x10 [0x81])
    else
      let d := d.updOwn 2 (1 - d.lrec.runSlot) true
      let n := max 32 (min 4096 maxTransfer) / 16 * 16
      let d := d.onUpd fun u => { u with xfer := { u.xfer with maxReq := n } }
      (d.emit (.pldm 0x10 [0])).emit (.pldm 0x15 [0, n])

/-- REQUEST_FIRMWARE_DATA: the response that supplies the chunk the device asked for; the first 512 bytes are the header, whose checks
may refuse the image before anything is written (R467, R468). `dig` is the header's HDR_DIG. -/
def execRequestFirmwareData (data : List Byte) (dig : Nat) (facts : BitVec 4) (dt : Nat) (s : State) : Res := s.run fun d =>
  let d := d.elapse dt
  let x := d.upd.xfer
  if !d.answers ∨ d.pkg.bedrock ∨ !x.active ∨ !x.pldm ∨ x.chunkAt.isSome ∨ x.ended ∨ data.isEmpty then d
  else if d.updBar ≠ 0 then d
  else if x.hdr.magic = 0 then
    let buf := x.hdrBuf ++ data.take x.maxReq
    let d := d.onUpd fun u => { u with xfer := { u.xfer with hdrBuf := buf, last := d.now } }
    if buf.length < 512 then d.emit (.pldm 0x15 [buf.length, x.maxReq])
    else
      let h := parseHdr buf
      let r := d.imgReason h facts d.floorPkg false false
      if r ≠ 0 then ((d.imageReject r).emit (.pldm 0x16 [r])).updRelease
      else
        let d := d.xferHeader h dig
        let done := d.upd.xfer.durable
        if done = 0 then d.xferChunk 0 (buf.take h.fileLen)
        else if h.fileLen ≤ done then (d.onUpd fun u => { u with xfer := { u.xfer with ended := true } }).emit (.pldm 0x16 [0])
        else d.xferAck 0
  else d.xferChunk x.durable (data.take (min x.maxReq (x.hdr.fileLen - x.durable)))

/-- CANCEL_UPDATE: PLDM CancelUpdate of the owner ends its slot (R466). -/
def execCancelUpdate (dt : Nat) (s : State) : Res := s.run fun d =>
  let d := d.elapse dt
  if !d.answers ∨ d.pkg.bedrock then d
  else if d.updBar = 8 then d.emit (.pldm 0x1D [0x8D])
  else if d.lrec.owner = 2 ∧ d.lrec.trySlot.isNone then (d.updRelease).emit (.pldm 0x1D [0])
  else d.emit (.pldm 0x1D [0x80])

/-! ### Activation (R472, R473) -/

/-- Why an activation by a principal is refused, 0 for none; the slot is the one that does not run (R472). -/
def Dev.activateBar (d : Dev) (by_ slot : Nat) : Nat :=
  if d.sealing.active ∧ !d.sealing.test ∨ d.pkg.safe ≠ 0 then 8
  else if !d.restore.ready then 7
  else if d.lrec.owner ≠ by_ then 6
  else if slot = d.lrec.runSlot ∨ d.lrec.state slot ≠ 1 ∨ d.lrec.trySlot.isSome then 4
  else if d.restore.phase ≠ 7 ∨ d.sealing.active ∨ !(tiles8.all fun t => (d.tile t).supvOk) then 7
  else 0

/-- The steps of an activation: gauge records, then every tile's record, the lead's last, which commits it (R472). `now` takes the
activation reset at once (R473). -/
def Dev.activate (d : Dev) (slot : Nat) (now : Bool) : Dev :=
  let d := d.gaugeWrite false
  let t := d.now
  let d := d.onRecs fun u => { u.setState slot 3 with trySlot := some slot, tries := 0, revert := false, revertCause := 0, tActivate := t }
  let fmt (k : Nat) : Nat := (d.slateHdr d.pkg.lead (slotBase k)).settings
  let d := (d.onUpd fun u => { u with confirmRx := false, keepOld := fmt slot != fmt (1 - slot) }).updEvent 834 0x14 0 [2]
  if now then d.trigger 3 else d

/-- ACTIVATE_FIRMWARE: PLDM ActivateFirmware (R472). -/
def execActivateFirmware (selfContained : Bool) (dt : Nat) (s : State) : Res := s.run fun d =>
  let d := d.elapse dt
  let slot := 1 - d.lrec.runSlot
  let e := d.activateBar 2 slot
  if !d.answers ∨ d.pkg.bedrock then d
  else if e ≠ 0 then d.emit (.pldm 0x1A [if e = 8 then 0x8D else if e = 7 then 0x8A else if e = 6 then 0x80 else 0x82])
  else (d.emit (.pldm 0x1A [0])).activate slot selfContained

/-! ### Booting a slot (R474, R475, R462) -/

/-- The loader's choice on a record: the record as it stands after it, and the slot (R474). -/
def loaderChoose (u : UpdRec) : UpdRec × Nat :=
  match u.trySlot with
  | none => (u, u.runSlot)
  | some s =>
    if u.confirming then (u, s)
    else if u.revert then ({ u.setState s 4 with trySlot := none, revert := false }, u.runSlot)
    else if 2 ≤ u.tries then ({ u.setState s 4 with trySlot := none, revert := false, revertCause := 2 }, u.runSlot)
    else ({ u with tries := u.tries + 1 }, s)

/-- A tile's record takes the lead's decision (R475). -/
def followLead (l u : UpdRec) : UpdRec :=
  { u with
    runSlot := l.runSlot, trySlot := l.trySlot, tries := l.tries, revert := l.revert, confirming := l.confirming, stateA := l.stateA
    stateB := l.stateB, revertCause := l.revertCause }

/-- A try has ended, so records are kept in one settings format only: the new one at a confirmation, the old one at a revert (R471). -/
def Dev.formatsEnd (d : Dev) (new : Bool) : Dev :=
  let f (s : SlateTile) : SlateTile :=
    let s := if new then { s with recs := s.recs.foldl (fun r e => if 0x10000 ≤ e.1 then tset r (e.1 % 0x10000) e.2 else r) s.recs } else s
    { s with recs := s.recs.filter fun e => decide (e.1 < 0x10000), pend := s.pend.filter fun k => decide (k < 0x10000) }
  (d.onSlate fun x => x.map fun e => (e.1, f e.2)).onUpd fun u => { u with keepOld := false }

/-- A slot of a tile is rewritten over the mesh from another tile's copy (R475). -/
def Dev.slotCopy (d : Dev) (slot src dst : Nat) : Dev :=
  let img := (slotSecs slot).flatMap fun s => d.secContents src s
  let d := (slotSecs slot).foldl (fun d s => d.eraseWhole dst s 2) d
  (d.onSl dst fun x => { x with lines := img.foldl (fun l e => tset l e.1 e.2) x.lines }).updEvent 834 0x14 0 [dst]

/-- The steps of a confirmation after the lead's CONFIRMING: floors and revocations, the twin swap, the records, the release
(R477). -/
def Dev.confirmRest (d : Dev) : Dev :=
  match d.lrec.trySlot with
  | none => d
  | some slot =>
    let h := d.slateHdr d.pkg.lead (slotBase slot)
    let svn := d.lrec.svn slot
    let up := decide (d.floorPkg < min 128 svn)
    let keys := (List.range 4).filter fun k => h.magic == 0x4A524D49 && h.flags.getLsbD (2 + k) && k != h.keyIndex
    let d := d.onUpd fun u => { u with
      floor := tiles8.map fun t => (t, max (tget u.floor 0 t) (min 128 svn))
      revoked := tiles8.map fun t => (t, keys.foldl mset (tget u.revoked 0 t)) }
    let d := if up then d.updEvent 836 0x14 0 [svn] else d
    let d := if keys.isEmpty then d else d.updEvent 836 0x14 0 [0x100]
    let d := if d.lrec.newTwin then tiles8.foldl (fun d t =>
        let (sq, k) := match d.newestSwap t with | some x => (x.1 + 1, (x.2.2 + 1) % 3) | none => (1, 0)
        let d := if 512 ≤ d.secUsed t (28 + k) then d.eraseWhole t (28 + k) 0 else d
        d.putLines t (28 + k) [swapBits (1 - d.bootTwin t) sq]) d
      else d
    let fl := d.floorPkg
    let d := d.onRecs fun (u : UpdRec) =>
      let old := 1 - slot
      let u : UpdRec := { u.setState slot 1 with runSlot := slot, trySlot := none, tries := 0, confirming := false, newTwin := false }
      if u.state old = 0 ∨ u.state old = 2 then u else u.setState old (if fl ≤ u.svn old then 1 else 4)
    let d := (d.formatsEnd true).onUpd fun u => { u with windowLeft := 0, windowFrom := none, confirmRx := false }
    (d.updEvent 834 0x14 0 [3]).updRelease

/-- The package enters Bedrock (R111, R483, R484, R133). -/
def Dev.enterBedrock (d : Dev) (cause : Nat) : Dev :=
  let d := d.onPkg fun p => { p with bedrock := true }
  let d := d.onUpd fun u => { u with bedCause := cause, brTiles := 0xFF, vres := [], brEvents := true, windowLeft := 0, windowFrom := none }
  let d := d.onRestore fun r => { r with phase := 0, ready := false }
  ([0, 1].foldl (fun d h => d.onHead h fun x => { x with media := 2 }) d).restUpd

/-- Before any slot runs, the loaders count their tries (R475) and every tile's record follows the lead's (R462); a try that the loader
gave up is reverted, with its event. -/
def Dev.bootRecords (d : Dev) : Dev :=
  let tried := d.lrec.trySlot.isSome
  let d := tiles8.foldl (fun d t =>
    let u := (loaderChoose (d.urec t)).1
    if u = d.urec t then d else (d.onUrec t fun _ => u).recWrite t 0x67 6) d
  let l := d.lrec
  let d := tiles8.foldl (fun d t => if followLead l (d.urec t) = d.urec t then d
    else (d.onUrec t (followLead l)).recWrite t 0x67 6) d
  if tried ∧ l.trySlot.isNone then ((d.formatsEnd false).updEvent 834 0x15 2 [l.revertCause]).updRelease else d

/-- Every tile runs slot `slot` (R474, R478): where it is not the slot `want` the records name, that one failed; a tile whose copy does not
verify (`ok` says which do) takes another's; the floors rise to the package's; a confirmation under way completes, and a pending try starts its
window. The slot that runs is valid, every copy of it having been made good. -/
def Dev.bootRun (d : Dev) (want slot : Nat) (ok : BitVec 8) : Dev :=
  let d := if slot = want then d
    else
      let tried := d.lrec.trySlot.isSome
      let d := (d.onRecs fun u => { u.setState want 4 with runSlot := slot, trySlot := none, tries := 0, confirming := false }).updEvent 834 0x15 2
      if tried then (d.formatsEnd false).updRelease else d
  let src := (tiles8.find? fun t => mbit ok t).getD 0
  let d := tiles8.foldl (fun d t => if mbit ok t then d else d.slotCopy slot src t) d
  let st := d.lrec.state slot
  let d := if st = 1 ∨ st = 3 then d else d.onRecs fun u => u.setState slot 1
  let fl := d.floorPkg
  let low := tiles8.filter fun t => decide (tget d.upd.floor 0 t < fl)
  let d := d.onUpd fun u => { u with floor := tiles8.map fun t => (t, max (tget u.floor 0 t) fl), running := tiles8.map fun t => (t, slot) }
  let d := low.foldl (fun d t => d.updEvent 836 0x15 2 [t]) d
  if d.lrec.confirming then d.confirmRest
  else if d.lrec.trySlot.isSome then
    let now := d.now
    let d := d.onRecs fun u => { u with tTry := now }
    d.onUpd fun u => { u with windowLeft := 600000000000, windowFrom := some now, confirmRx := false }
  else d

/-- Restore phase 2's decision of what every tile runs (R462, R474, R475, R478): `okA` and `okB` say on which tiles each slot
verifies, `twinOk` that a boot twin of the lead does. The loader is the twin that booted, whose version its header gives. -/
def Dev.bootSlots (d : Dev) (okA okB : BitVec 8) (twinOk : Bool) : Dev :=
  if !twinOk then d.enterBedrock 3
  else if d.lrec.bedrockReq then d.enterBedrock 4
  else
    let tw := d.bootTwin d.pkg.lead
    let hdr (k : Nat) : ImgHdr := d.slateHdr d.pkg.lead (secBase k)
    let ld := if (hdr tw).magic = 0x4A524D49 then hdr tw else hdr (1 - tw)
    let d := if ld.magic = 0x4A524D49 then d.onUpd fun u => { u with loader := ld.version } else d
    let d := d.bootRecords
    let want := d.lrec.trySlot.getD d.lrec.runSlot
    let ok (s : Nat) : BitVec 8 := if s = 0 then okA else okB
    if ok want ≠ 0 then d.bootRun want want (ok want)
    else if ok (1 - want) ≠ 0 then d.bootRun want (1 - want) (ok (1 - want))
    else d.enterBedrock 2

/-! ### Confirmation (R476 to R478, R480) -/

/-- Every condition of R476 holds. -/
def Dev.confirmMay (d : Dev) : Bool :=
  (match d.lrec.trySlot with
    | some s => tiles8.all fun t => tget d.upd.running 0 t == s && (d.tile t).supvOk
    | none => false)
    && !d.lrec.revert && !d.sealing.active
    && (match d.upd.windowFrom with | some t => decide (d.since t < d.upd.windowLeft) | none => false)
    && d.restore.ready && (d.restore.warm || d.restore.phase == 7) && !d.flint.sev4
    && ([0, 1].any fun h => (d.head h).media == 1) && (!d.upd.confirmMode || d.upd.confirmRx)

/-- UPDATE_CONFIRMATION: every condition of R476 holds, so the try is confirmed (R477); one begun before a seal completes. -/
def execUpdateConfirmation (dt : Nat) (s : State) : Res := s.run fun d =>
  let d := d.elapse dt
  if d.lrec.confirming ∧ !d.sealing.active ∧ d.restore.ready then d.confirmRest
  else if d.confirmMay then (d.onRecs fun u => { u with confirming := true }).confirmRest
  else d

/-- CONFIRM_WINDOW_EXPIRY: the window ends unconfirmed: REVERT on every tile, the lead last, and the revert reset (R473, R478). -/
def execConfirmWindowExpiry (dt : Nat) (s : State) : Res := s.run fun d =>
  let d := d.elapse dt
  let late : Bool := match d.upd.windowFrom with | some t => decide (d.upd.windowLeft ≤ d.since t) | none => false
  if d.lrec.trySlot.isSome && !d.lrec.confirming && late && !d.sealing.active then
    let d := d.onRecs fun u => { u with revert := true, revertCause := 1 }
    (d.onUpd fun u => { u with windowLeft := 0, windowFrom := none }).trigger 3
  else d

/-! ### The recovery window (R484 to R486) -/

/-- The lowest selected tile. -/
def Dev.brLow (d : Dev) : Nat := (tiles8.find? fun t => mbit d.upd.brTiles t).getD 0
/-- The tiles selected for writes. -/
def Dev.brSel (d : Dev) : List Nat := tiles8.filter fun t => mbit d.upd.brTiles t
/-- An erase or check runs on a tile, so a command byte is refused (R485). -/
def Dev.brBusy (d : Dev) : Bool := tiles8.any fun t => (d.sl t).ops.any fun o => o.2.code != 1
/-- A recovery-window transaction: refused outside Bedrock, while an erase or check runs, and on a write with a wrong PEC. -/
def Dev.brDo (d : Dev) (pec : Bool) (f : Dev → Dev) : Dev :=
  if !d.pkg.bedrock then d else if d.brBusy ∨ !pec then d.emit .nak else f d
/-- A write has touched the slot or twin that holds an address, whose verification result no longer stands. -/
def Dev.brTouch (d : Dev) (t a : Nat) : Dev :=
  let s := secOf a
  let k : Option Nat := if s = 0 then some 2 else if s = 1 then some 3 else if 0x22 ≤ s ∧ s < 0x2F then some 0
    else if 0x2F ≤ s ∧ s < 0x3C then some 1 else none
  match k with
  | some k => d.onUpd fun u => { u with vres := tdel u.vres (4 * t + k) }
  | none => d
/-- The unlock sequence and a command, as the ROM runs them on a tile; a program or an erase that is taken touches its slot (R436). -/
def Dev.brRun (d : Dev) (t c addr purpose : Nat) (data : BitVec 128) : Dev :=
  let e := (d.onSl t fun s => { s with code := c, addr := addr, data0 := data.extractLsb' 0 64, data1 := data.extractLsb' 64 64 }).opStart t 2 c addr purpose data
  if c ≤ 2 ∧ (d.opRefused t 2 c addr).isNone then e.brTouch t addr else e
/-- A verification result: FEh where none stands (R485). -/
def Dev.brRes (d : Dev) (t k : Nat) : Nat := tget d.upd.vres 0xFE (4 * t + k)

/-- BR_ID: the identity of the device in Bedrock (R485). -/
def execBrId (dt : Nat) (s : State) : Res := s.run fun d => (d.elapse dt).brDo true fun d =>
  d.emit (.smbus (fields [(2, 0x1F3D), (2, 0x8800), (4, Config.romVersion), (1, d.upd.bedCause), (1, 0xFF), (1, d.pkg.lead), (1, d.floorPkg), (4, 0)]))

/-- BR_TILES: a read, or a write of the tiles selected (R485). -/
def execBrTiles (write : Option (BitVec 8)) (pec : Bool) (dt : Nat) (s : State) : Res := s.run fun d =>
  match write with
  | some v => (d.elapse dt).brDo pec fun d => d.onUpd fun u => { u with brTiles := v }
  | none => (d.elapse dt).brDo true fun d => d.emit (.smbus [d.upd.brTiles])

/-- BR_ADDR: a read, or a write of the Slate address (R485). -/
def execBrAddr (write : Option (BitVec 23)) (pec : Bool) (dt : Nat) (s : State) : Res := s.run fun d =>
  match write with
  | some v => (d.elapse dt).brDo pec fun d => d.onUpd fun u => { u with brAddr := v.toNat }
  | none => (d.elapse dt).brDo true fun d => d.emit (.smbus (leBytes 3 d.upd.brAddr))

/-- BR_STAT: each tile's busy, fail and ERR (R485); it is refused as every command byte while an erase or check runs. -/
def execBrStat (dt : Nat) (s : State) : Res := s.run fun d => (d.elapse dt).brDo true fun d =>
  d.emit (.smbus (tiles8.map fun t =>
    let x := d.sl t
    BitVec.ofNat 8 (bit !x.ops.isEmpty + 2 * bit x.fail + put 2 4 x.err)))

/-- BR_RES: SLATE_RES of the lowest selected tile (R485). -/
def execBrRes (dt : Nat) (s : State) : Res := s.run fun d => (d.elapse dt).brDo true fun d =>
  d.emit (.smbus (leBytes 3 (d.sl d.brLow).res))

/-- BR_LINE: a line programmed at BR_ADDR on every selected tile; the twins, the intent pair and the swap slots are refused with ERR
RANGE. While the previous line's program runs on a selected tile the clock is stretched, so that nothing is taken (R485). -/
def execBrLine (data : BitVec 128) (pec : Bool) (dt : Nat) (s : State) : Res := s.run fun d => (d.elapse dt).brDo pec fun d =>
  if d.brSel.any fun t => !(d.sl t).ops.isEmpty then d else
  let a := d.upd.brAddr
  let sec := secOf a
  let d := d.brSel.foldl (fun d t =>
    if sec < 2 ∨ (26 ≤ sec ∧ sec ≤ 30) then d.slRefuse t 4 else d.brRun t 1 a 0 data) d
  d.onUpd fun u => { u with brAddr := (a + 16) % 2 ^ 23 }

/-- BR_ERASE: the intent, erase and done sequence of a sector on every selected tile (R449, R485). -/
def execBrErase (sector : BitVec 8) (pec : Bool) (dt : Nat) (s : State) : Res := s.run fun d => (d.elapse dt).brDo pec fun d =>
  let k := sector.toNat
  d.brSel.foldl (fun d t =>
    if 0x3F ≤ k then d.slRefuse t 4 else d.brRun t 2 (secBase k) (if k < 2 then 3 else 2) 0) d

/-- BR_OP: Slate command 03h, 04h, 05h or 06h on every selected tile, on a sector, or a twin for 05h (R437, R485). -/
def execBrOp (arg code : BitVec 8) (pec : Bool) (dt : Nat) (s : State) : Res := s.run fun d => (d.elapse dt).brDo pec fun d =>
  let c := code.toNat
  d.brSel.foldl (fun d t =>
    if c < 3 ∨ 6 < c ∨ (c ≠ 5 ∧ 0x3F ≤ arg.toNat) then d.slRefuse t 4
    else d.brRun t c (if c = 5 then arg.toNat % 2 else secBase arg.toNat) 0 0) d

/-- BR_DATA: the line at BR_ADDR of the lowest selected tile; `err` says that the read was corrected (1) or uncorrectable (2), for
which the transaction is refused (R441, R485). -/
def execBrData (err : Fin 3) (dt : Nat) (s : State) : Res := s.run fun d => (d.elapse dt).brDo true fun d =>
  let a := d.upd.brAddr
  let t := d.brLow
  let v := d.slateLine t (a / 16)
  let d := (d.slateReadErr t err.val).tick
  let d := d.onUpd fun u => { u with brAddr := (a + 16) % 2 ^ 23 }
  if err.val = 2 then d.emit .nak else d.emit (.smbus (leBytes 16 v.toNat))

/-- BR_VERIFY: a slot (0 A, 1 B) or twin (2 A, 3 B) is verified under R461 on every selected tile (R485). -/
def execBrVerify (target : BitVec 8) (facts : List (BitVec 4)) (pec : Bool) (dt : Nat) (s : State) : Res := s.run fun d =>
  (d.elapse dt).brDo pec fun d =>
  let k := target.toNat
  if 3 < k then d.emit .nak
  else
    let d := d.onUpd fun u => { u with brTarget := k }
    d.brSel.foldl (fun d t =>
    let a := if k < 2 then slotBase k else secBase (k - 2)
    let r := d.imgReason (d.slateHdr t a) (facts.getD t 0) (tget d.upd.floor 0 t) true (decide (2 ≤ k))
    d.onUpd fun u => { u with vres := tset u.vres (4 * t + k) r }) d

/-- BR_VRES: each tile's result of the last verification asked for (R485). -/
def execBrVres (dt : Nat) (s : State) : Res := s.run fun d => (d.elapse dt).brDo true fun d =>
  d.emit (.smbus (tiles8.map fun t => BitVec.ofNat 8 (d.brRes t d.upd.brTarget)))

/-- BR_EXIT: taken only if the slot has passed on all eight tiles since its last write: every record is written, the lead's last, and
the package is reset (R486). -/
def execBrExit (slot : BitVec 8) (pec : Bool) (dt : Nat) (s : State) : Res := s.run fun d => (d.elapse dt).brDo pec fun d =>
  let k := slot.toNat
  if 1 < k ∨ !(tiles8.all fun t => d.brRes t k == 0) then d.emit .nak
  else
    let o := 1 - k
    let v := d.upd.vres
    let f (t : Nat) (u : UpdRec) : UpdRec :=
      let r := tget v 0xFE (4 * t + o)
      let u := { u.setState k 1 with
        runSlot := k, trySlot := none, tries := 0, revert := false, confirming := false, bedrockReq := false, newTwin := false
        revertCause := if u.trySlot.isSome then 3 else u.revertCause }
      if r = 0xFE then u else u.setState o (if r = 0 then 1 else 4)
    let d := ((tiles8.filter fun t => t != d.pkg.lead) ++ [d.pkg.lead]).foldl (fun d t => (d.onUrec t (f t)).recWrite t 0x67 6) d
    (d.onUpd fun u => { u with brEvents := true }).onPanel fun p => { p with resetDue := true }

end Sys2Proof.Machine
end

