-- ==== Sys2Proof/Machine/Jcs1.lean ====
section
/-! DEFINITION. The identity, context and ring commands, C400h to C42Fh (R415 to R417). -/

namespace Sys2Proof.Machine

/-- A successful answer with an output payload. -/
def Rsp.data (out : List Byte) : Rsp := { out := out }

/-- Leave the state as it is and answer. -/
def Dev.answer (d : Dev) (r : Rsp) : Dev × Rsp := (d, r)

/-- A status for a payload that breaks a rule: `ext` unless `ok`. -/
def orErr (ok : Bool) (ext : Nat) : Nat := if ok then 0 else ext

/-! ### The Direct Window as read (R412, R413) -/

/-- What a Direct Window register reads before its first update (R25, R46, R91, R132, R218, R242, R394). -/
def dwReset (off : Nat) : Nat :=
  if 0x400 ≤ off ∧ off < 0x440 then 2 ^ 32
  else if off = 0x500 then 3 * 2 ^ 37
  else if off = 0x600 then 7
  else if off = 0x640 then 1
  else if 0x900 ≤ off ∧ off < 0xD00 then 15 * 2 ^ 29 + 15 * 2 ^ 33
  else if off = 0xD00 then 2 ^ 6 + 2 ^ 13 + 200 * 2 ^ 16
  else if 0x1840 ≤ off ∧ off < 0x1870 then 1
  else 0

/-- Eight bytes of a record at an offset. -/
def word8 (bs : List Byte) (o : Nat) : Nat := leNat ((bs.drop o).take 8)

/-- A 64-bit register as one access of head `h` reads it; DW_DB_STAT of a ring answers its context's owning head only (R26, R185, R350,
R412). -/
def Dev.dwRead (d : Dev) (h off : Nat) : Nat :=
  if off = 0 then 0x188001F3D + h * 2 ^ 40
  else if off = 0x1808 then d.lat.uid
  else if 0x1440 ≤ off ∧ off < 0x1680 then word8 (d.coll ((off - 0x1440) / 64)).ff.bytes (off % 64)
  else if off = 0x2000 then d.qtz.count
  else if off = 0x2010 ∨ off = 0x2020 then tget d.qtz.latchCnt 0 ((off - 0x2010) / 16)
  else if off = 0x2018 ∨ off = 0x2028 then twos 64 (tget d.qtz.latchUtc 0 ((off - 0x2018) / 16))
  else if off = 0x2030 then twos 64 d.qtz.offset
  else if off = 0x2038 then twos 64 d.qtz.loff
  else if off = 0x2048 then d.qtz.ppsEdge
  else if 0x3040 ≤ off ∧ off < 0x3140 then word8 (tget d.snap.banks {} ((off - 0x3040) / 64)).header (off % 64)
  else if 0x4000000 ≤ off ∧ off < 0x8000000 ∧ off % 64 = 8 then
    let c := (off - 0x4000000) / 4096
    let r := d.ring c (off / 64 % 64)
    if (d.ctx c).owner = h + 1 then
      put 0 3 r.state + put 3 5 r.err + put 8 12 r.sqHead + put 20 12 r.cqTail + put 32 1 (bit r.phase) + put 48 16 r.seq
    else 0
  else d.dwGet off (dwReset off)

/-! ### Identity and capability (R410, R411, R415) -/

/-- The UUID of the vendor event record type, in the order written (R411). -/
def vendorUuid : List Byte := [0x3B, 0x7E, 0x0C, 0x52, 0x91, 0xD4, 0x4A, 0x86, 0xB0, 0xF3, 0x6E, 0x2D, 0x18, 0xC9, 0xA5, 0x74]

/-- The capability entries of the JRM-8800 with their parameters (R411). -/
def capEntries : List (Nat × List Byte) := [
  (0x0001, fields [(1, 8), (1, 255), (1, 4), (1, 16), (1, 45), (3, 0)] ++ vendorUuid),
  (0x0002, fields [(4, 16), (4, 32768), (4, 1048576), (2, 400)]),
  (0x0003, fields [(2, 15), (2, 400)]),
  (0x0004, fields [(2, 1024), (2, 16384)]),
  (0x0005, fields [(1, 75)]),
  (0x0006, fields [(1, 64), (1, 4), (1, 12), (1, 0), (4, 262144), (4, 0x4000000)]),
  (0x0007, fields [(2, 1440), (2, 64)]),
  (0x0008, fields [(1, 2), (1, 48)]),
  (0x0009, fields [(2, 400)]),
  (0x000A, fields [(1, 6), (1, 0), (2, 4094), (1, 63), (1, 16)]),
  (0x000B, fields [(2, 1024), (2, 1024), (1, 8)]),
  (0x000C, fields [(1, 7)]),
  (0x000D, fields [(1, 4), (1, 8)]),
  (0x000E, []),
  (0x000F, fields [(1, 2), (1, 0), (2, 600), (1, 2)]),
  (0x0010, fields [(1, 3)]),
  (0x0011, fields [(1, 2), (1, 0), (2, 2048)])]

/-- The chain of entries from offset `o` on, each aligned to 8 bytes (R410). -/
def capChain : List (Nat × List Byte) → Nat → List Byte
  | [], _ => []
  | (id, p) :: r, o =>
    let n := 8 + (p.length + 7) / 8 * 8
    fields [(2, id), (1, 1), (1, 0), (2, if r.isEmpty then 0 else o + n), (2, p.length)] ++ p
      ++ List.replicate (n - 8 - p.length) 0 ++ capChain r (o + n)

/-- The capability list. -/
def capList : List Byte := capChain capEntries 0

/-- C400h: LENGTH of at most 16,384; OFFSET within the list. -/
def capCheck (_ : Dev) (_ : Caller) (p : List Byte) : Nat :=
  if 16384 < fieldAt p 4 4 then 2 else orErr (decide (fieldAt p 0 4 < capList.length)) 3

/-- C400h: bytes of the list from OFFSET, up to LENGTH or its end (R415). -/
def capAct (d : Dev) (_ : Caller) (p : List Byte) : Dev × Rsp := d.answer (.data ((capList.drop (fieldAt p 0 4)).take (fieldAt p 4 4)))

/-- GET_CAPABILITIES, C400h (R410, R411, R415). -/
def execGetCapabilities (by_ : Fin 4) (uid : Nat) (payload : List Byte) (dt : Nat) (s : State) : Res := s.run fun d =>
  (d.elapse dt).jcsDo 0xC400 capCheck capAct { p := by_.val, uid := uid } payload

/-- The slot that the lead runs. -/
def Dev.runSlot (d : Dev) : Nat := tget d.upd.running 0 d.pkg.lead

/-- C401h: who the device is, its running slot and the caller's principal (R415). -/
def identAct (d : Dev) (c : Caller) (_ : List Byte) : Dev × Rsp :=
  let u := d.lrec
  let name : List Byte := [0x4A, 0x52, 0x4D, 0x2D, 0x38, 0x38, 0x30, 0x30, 0, 0, 0, 0, 0, 0, 0, 0]
  d.answer (.data (fields [(2, 0x1F3D), (2, 0x8800), (8, d.lat.uid)] ++ name
    ++ fields [(4, if d.runSlot = 0 then u.verA else u.verB), (1, d.runSlot), (1, d.floorPkg), (1, c.p), (1, 0), (16, d.panel.serial)]))

/-- GET_IDENTITY, C401h (R415). -/
def execGetIdentity (by_ : Fin 4) (uid : Nat) (payload : List Byte) (dt : Nat) (s : State) : Res := s.run fun d =>
  (d.elapse dt).jcsDo 0xC401 noCheck identAct { p := by_.val, uid := uid } payload

/-- C402h: an aligned range of the status region of at most 4,096 bytes (R415). -/
def dwCheck (_ : Dev) (_ : Caller) (p : List Byte) : Nat :=
  let o := fieldAt p 0 4
  let n := fieldAt p 4 4
  orErr (o % 8 == 0 && n % 8 == 0 && decide (o ≤ 0xFFFF8) && decide (n ≤ 4096) && decide (o + n ≤ 0x100000)) 3

/-- C402h: each register of the range as one access (R26, R350, R415). -/
def dwAct (d : Dev) (c : Caller) (p : List Byte) : Dev × Rsp :=
  d.answer (.data ((List.range (fieldAt p 4 4 / 8)).flatMap fun i =>
    leBytes 8 (d.dwRead (if c.p = 1 then 1 else 0) (fieldAt p 0 4 + 8 * i))))

/-- READ_DIRECT_WINDOW, C402h (R415). -/
def execReadDirectWindow (by_ : Fin 4) (uid : Nat) (payload : List Byte) (dt : Nat) (s : State) : Res := s.run fun d =>
  (d.elapse dt).jcsDo 0xC402 dwCheck dwAct { p := by_.val, uid := uid } payload

/-- C403h: SB's background command (R400, R415). -/
def bgStatAct (d : Dev) (_ : Caller) (_ : List Byte) : Dev × Rsp :=
  let b := d.jcs.sbBg
  d.answer (.data (fields [(2, b.opcode), (1, b.pct), (1, bit b.running), (2, b.ret), (2, b.ext)]))

/-- GET_BACKGROUND_STATUS, C403h (R400, R415). -/
def execGetBackgroundStatus (by_ : Fin 4) (uid : Nat) (payload : List Byte) (dt : Nat) (s : State) : Res := s.run fun d =>
  (d.elapse dt).jcsDo 0xC403 noCheck bgStatAct { p := by_.val, uid := uid } payload

/-! ### Contexts (R173 to R180, R416) -/

/-- The context that a payload names. -/
def ctxOf (p : List Byte) : Nat := fieldAt p 0 2

/-- C410h: OWNER is H0 or H1, RETAIN_COUNT at most 1,024. -/
def createCheck (_ : Dev) (_ : Caller) (p : List Byte) : Nat :=
  orErr ((fieldAt p 2 1 == 1 || fieldAt p 2 1 == 2) && decide (fieldAt p 4 2 ≤ 1024)) 2

/-- C410h: a FREE context becomes ACTIVE with a new key (R175, R181, R416). -/
def createAct (d : Dev) (_ : Caller) (p : List Byte) : Dev × Rsp :=
  let c := ctxOf p
  if (d.ctx c).state ≠ 0 then (d, .err 4)
  else
    let n := fieldAt p 4 2
    let d := ((d.onCtx c fun x => { x with
      owner := fieldAt p 2 1, keyLost := false, retainCount := if n = 0 then 8 else n
      retainAge := fieldAt p 8 4, rings := [], dcPending := false, meter := {}, meterStart := d.now }).keyDraw c).ctxTo c 1
    (d, .data (leBytes 1 (d.ctx c).gen))

/-- CREATE, C410h (R416). -/
def execCreate (by_ : Fin 4) (uid : Nat) (payload : List Byte) (dt : Nat) (s : State) : Res := s.run fun d =>
  (d.elapse dt).jcsDo 0xC410 createCheck createAct { p := by_.val, uid := uid } payload

/-- The entries of C411h and C413h: granule and class. -/
def granClasses (p : List Byte) : List (Nat × Nat) :=
  (List.range (fieldAt p 2 2)).map fun i => (fieldAt p (8 + 4 * i) 2, fieldAt p (8 + 4 * i + 2) 1)

/-- Whether a list of granules names one twice. -/
def twice (l : List Nat) : Bool := decide (l.eraseDups.length < l.length)

/-- C411h and C413h: COUNT of 1 to 4,094, its entries present, classes P1, P2 or V. -/
def granCheck (_ : Dev) (_ : Caller) (p : List Byte) : Nat :=
  let n := fieldAt p 2 2
  orErr (decide (1 ≤ n) && decide (n ≤ 4094) && decide (8 + 4 * n ≤ p.length)
    && (granClasses p).all fun e => decide (1 ≤ e.2) && decide (e.2 ≤ 3)) 2

/-- A change of the Region Table waits for a granule. -/
def Dev.granPend (d : Dev) (g : Nat) : Bool := d.ctxs.rtPend.any fun x => x.granule == g

/-- C411h: free granules that are backed and lie on no isolated tile are filled with zero and committed (R177). -/
def assignAct (d : Dev) (_ : Caller) (p : List Byte) : Dev × Rsp :=
  let c := ctxOf p
  let x := d.ctx c
  let es := granClasses p
  let free (g : Nat) : Bool :=
    d.backed g && !(d.gran g).valid && !d.granPend g && (d.granTiles g).all fun t => !(d.tile t).isolated
  if x.state ≠ 1 ∧ x.state ≠ 3 then (d, .err 4)
  else if x.keyLost then (d, .err 0x13)
  else if twice (es.map fun e => e.1) ∨ !(es.all fun e => free e.1) then (d, .err 3)
  else
    (es.foldl (fun d e => d.rtChange {
      granule := e.1, entry := { valid := true, head := x.owner, cls := e.2, context := c }
      zero := true, waitFill := true, offer := x.owner }) d, { bg := some c })

/-- ASSIGN, C411h (R177, R416). -/
def execAssign (by_ : Fin 4) (uid : Nat) (payload : List Byte) (dt : Nat) (s : State) : Res := s.run fun d =>
  (d.elapse dt).jcsDo 0xC411 granCheck assignAct { p := by_.val, uid := uid } payload

/-- The granules of C412h. -/
def releaseList (p : List Byte) : List Nat := (List.range (fieldAt p 8 2)).map fun i => fieldAt p (12 + 2 * i) 2

/-- C412h: TIMEOUT_S of 1 to 3,600, COUNT of 1 to 8,186, its granules present. -/
def releaseCheck (_ : Dev) (_ : Caller) (p : List Byte) : Nat :=
  let t := fieldAt p 4 4
  let n := fieldAt p 8 2
  orErr (decide (1 ≤ t) && decide (t ≤ 3600) && decide (1 ≤ n) && decide (n ≤ 8186) && decide (12 + 2 * n ≤ p.length)) 2

/-- C412h: granules of the context are asked back from its owning head, or taken with a notice (R178). -/
def releaseAct (d : Dev) (k : Caller) (p : List Byte) : Dev × Rsp :=
  let c := ctxOf p
  let gs := releaseList p
  let h := (d.ctx c).owner - 1
  if (d.ctx c).keyLost then (d, .err 0x13)
  else if twice gs ∨ !(gs.all fun g => (d.gran g).valid && (d.gran g).context == c && !d.granPend g) then (d, .err 3)
  else if (fieldAt p 2 1).testBit 0 then (gs.foldl (fun d g => d.releaseGran g) (d.dcForced h c gs), { bg := some c })
  else (d.dcOffer h c gs true (some (d.now + fieldAt p 4 4 * 1000000000)) k.p, { bg := some c })

/-- RELEASE, C412h (R178, R416). -/
def execRelease (by_ : Fin 4) (uid : Nat) (payload : List Byte) (dt : Nat) (s : State) : Res := s.run fun d =>
  (d.elapse dt).jcsDo 0xC412 releaseCheck releaseAct { p := by_.val, uid := uid } payload

/-- C413h: the class of granules of the context changes at its commit: out of persistence with a trim, into it with a zero fill
(R45, R179). -/
def classAct (d : Dev) (_ : Caller) (p : List Byte) : Dev × Rsp :=
  let c := ctxOf p
  let es := granClasses p
  if (d.ctx c).keyLost then (d, .err 0x13)
  else if twice (es.map fun e => e.1) ∨ !(es.all fun e => (d.gran e.1).valid && (d.gran e.1).context == c && !d.granPend e.1) then (d, .err 3)
  else
    (es.foldl (fun d e =>
      let o := d.gran e.1
      let fill := o.cls == 3 && e.2 != 3
      d.rtChange { granule := e.1, entry := { o with cls := e.2 }, zero := fill, waitFill := fill, trim := o.cls != 3 && e.2 == 3 }) d,
      { bg := some c })

/-- SET_CLASS, C413h (R45, R179, R416). -/
def execSetClass (by_ : Fin 4) (uid : Nat) (payload : List Byte) (dt : Nat) (s : State) : Res := s.run fun d =>
  (d.elapse dt).jcsDo 0xC413 granCheck classAct { p := by_.val, uid := uid } payload

/-- C414h: OWNER is H0 or H1. -/
def ownerCheck (_ : Dev) (_ : Caller) (p : List Byte) : Nat := orErr (fieldAt p 2 1 == 1 || fieldAt p 2 1 == 2) 2

/-- C414h: a DISABLED context's granules leave the old head with forced notices and are offered on the new one (R180). -/
def ownerAct (d : Dev) (_ : Caller) (p : List Byte) : Dev × Rsp :=
  let c := ctxOf p
  let x := d.ctx c
  let n := fieldAt p 2 1
  let gs := d.ctxGrans c
  if x.state ≠ 3 then (d, .err 4)
  else if x.keyLost then (d, .err 0x13)
  else
    let d := (d.dcForced (x.owner - 1) c gs).stopStreams c
    let d := gs.foldl (fun d g => d.rtChange { granule := g, entry := { d.gran g with head := n }, offer := n }) d
    ((d.onCtx c fun x => { x with owner := n, rings := [] }).ctxSave c, { bg := some c })

/-- SET_OWNER, C414h (R180, R416). -/
def execSetOwner (by_ : Fin 4) (uid : Nat) (payload : List Byte) (dt : Nat) (s : State) : Res := s.run fun d =>
  (d.elapse dt).jcsDo 0xC414 ownerCheck ownerAct { p := by_.val, uid := uid } payload

/-- C415h: an ACTIVE or ROLLBACK_PENDING context enters QUIESCING (R175, R203). -/
def disableAct (d : Dev) (_ : Caller) (p : List Byte) : Dev × Rsp :=
  let c := ctxOf p
  if (d.ctx c).state ≠ 1 ∧ (d.ctx c).state ≠ 5 then (d, .err 4) else (d.quiesceCtx c, { bg := some c })

/-- DISABLE, C415h (R203, R416). -/
def execDisable (by_ : Fin 4) (uid : Nat) (payload : List Byte) (dt : Nat) (s : State) : Res := s.run fun d =>
  (d.elapse dt).jcsDo 0xC415 noCheck disableAct { p := by_.val, uid := uid } payload

/-- C416h: a DISABLED context whose key is not lost becomes ACTIVE; one that a migration has filled is offered to its head (R175,
R183, R390). -/
def enableAct (d : Dev) (_ : Caller) (p : List Byte) : Dev × Rsp :=
  let c := ctxOf p
  let x := d.ctx c
  if x.state ≠ 3 then (d, .err 4)
  else if x.keyLost then (d, .err 0x13)
  else
    let d := d.ctxTo c 1
    let h := x.owner - 1
    let gs := (d.ctxGrans c).filter fun g => !((d.head h).extents.contains (g, c))
    if (d.lat.streams.any fun t => t.migration && !t.outgoing && t.local_ == c && t.state == 0x13) ∧ gs ≠ [] then
      (d.dcOffer h c gs false none 2, {})
    else (d, {})

/-- ENABLE, C416h (R175, R416). -/
def execEnable (by_ : Fin 4) (uid : Nat) (payload : List Byte) (dt : Nat) (s : State) : Res := s.run fun d =>
  (d.elapse dt).jcsDo 0xC416 noCheck enableAct { p := by_.val, uid := uid } payload

/-- C417h: a DISABLED context enters SANITIZING (R205). -/
def sanitizeAct (d : Dev) (_ : Caller) (p : List Byte) : Dev × Rsp :=
  let c := ctxOf p
  if (d.ctx c).state ≠ 3 then (d, .err 4)
  else ((d.ctxTo c 4).onCtx c fun x => { x with sanStep := 1 }, { bg := some c })

/-- SANITIZE, C417h (R205, R416). -/
def execSanitize (by_ : Fin 4) (uid : Nat) (payload : List Byte) (dt : Nat) (s : State) : Res := s.run fun d =>
  (d.elapse dt).jcsDo 0xC417 noCheck sanitizeAct { p := by_.val, uid := uid } payload

/-- C418h: the entry and the context's exposure. -/
def getCtxAct (d : Dev) (_ : Caller) (p : List Byte) : Dev × Rsp :=
  d.answer (.data (d.ctxEntry (ctxOf p) ++ leBytes 8 (d.xCtx (ctxOf p))))

/-- GET_CONTEXT, C418h (R173, R416). -/
def execGetContext (by_ : Fin 4) (uid : Nat) (payload : List Byte) (dt : Nat) (s : State) : Res := s.run fun d =>
  (d.elapse dt).jcsDo 0xC418 noCheck getCtxAct { p := by_.val, uid := uid } payload

/-- C419h: RETAIN_COUNT of 1 to 1,024. -/
def retainCheck (_ : Dev) (_ : Caller) (p : List Byte) : Nat := orErr (decide (1 ≤ fieldAt p 2 2) && decide (fieldAt p 2 2 ≤ 1024)) 2

/-- C419h: the retention of a context that is not FREE (R195). -/
def retainAct (d : Dev) (_ : Caller) (p : List Byte) : Dev × Rsp :=
  if (d.ctx (ctxOf p)).state = 0 then (d, .err 4)
  else if (d.ctx (ctxOf p)).keyLost then (d, .err 0x13)
  else ((d.onCtx (ctxOf p) fun x => { x with retainCount := fieldAt p 2 2, retainAge := fieldAt p 4 4 }).ctxSave (ctxOf p), {})

/-- SET_RETENTION, C419h (R195, R416). -/
def execSetRetention (by_ : Fin 4) (uid : Nat) (payload : List Byte) (dt : Nat) (s : State) : Res := s.run fun d =>
  (d.elapse dt).jcsDo 0xC419 retainCheck retainAct { p := by_.val, uid := uid } payload

/-- C41Ah: MAX of 1 to 255, and a range of times that is one. -/
def meterCheck (_ : Dev) (_ : Caller) (p : List Byte) : Nat :=
  if fieldAt p 24 2 = 0 ∨ 255 < fieldAt p 24 2 then 2 else orErr (decide (fieldAt p 8 8 ≤ fieldAt p 16 8)) 3

/-- C41Ah: the records of the range, oldest first, and the start of the next (R416). -/
def meterAct (d : Dev) (_ : Caller) (p : List Byte) : Dev × Rsp :=
  let rs := (d.ctx (ctxOf p)).records.reverse.filter fun r => decide (fieldAt p 8 8 ≤ r.start) && decide (r.start ≤ fieldAt p 16 8)
  let out := rs.take (fieldAt p 24 2)
  let next := match rs.drop (fieldAt p 24 2) with
    | r :: _ => r.start
    | [] => 0
  d.answer (.data (fields [(2, out.length), (6, 0), (8, next), (48, 0)] ++ out.flatMap MeterRec.bytes))

/-- READ_METERING, C41Ah (R211, R416). -/
def execReadMetering (by_ : Fin 4) (uid : Nat) (payload : List Byte) (dt : Nat) (s : State) : Res := s.run fun d =>
  (d.elapse dt).jcsDo 0xC41A meterCheck meterAct { p := by_.val, uid := uid } payload

/-- C41Bh: FIRST a context ID, MAX of 1 to 4,096. -/
def listCtxCheck (_ : Dev) (_ : Caller) (p : List Byte) : Nat :=
  orErr (decide (fieldAt p 0 2 < 0x4000) && decide (1 ≤ fieldAt p 2 2) && decide (fieldAt p 2 2 ≤ 4096)) 2

/-- C41Bh: four bytes for each context from FIRST on. -/
def listCtxAct (d : Dev) (_ : Caller) (p : List Byte) : Dev × Rsp :=
  let f := fieldAt p 0 2
  d.answer (.data ((List.range (min (fieldAt p 2 2) (0x4000 - f))).flatMap fun i =>
    leBytes 4 (f + i + put 16 4 (d.ctx (f + i)).state + put 20 2 (d.ctx (f + i)).owner)))

/-- LIST_CONTEXTS, C41Bh (R416). -/
def execListContexts (by_ : Fin 4) (uid : Nat) (payload : List Byte) (dt : Nat) (s : State) : Res := s.run fun d =>
  (d.elapse dt).jcsDo 0xC41B listCtxCheck listCtxAct { p := by_.val, uid := uid } payload

/-! ### Commit rings (R184, R185, R417) -/

/-- The ring that a payload names. -/
def ringOf (p : List Byte) : Nat := fieldAt p 2 1

/-- A vector of the owning head, a coalescing count and a coalescing time within R185. -/
def intOk (v n t : Nat) : Bool := (v == 0xFFFF || decide (16 ≤ v) && decide (v ≤ 2047)) && decide (n ≤ 4096) && decide (t ≤ 10000)

/-- C420h: ring number, size, areas, vector and coalescing within R184 and R185, and a ring whose STATE is 0 or 3. -/
def ringCheck (d : Dev) (_ : Caller) (p : List Byte) : Nat :=
  let c := ctxOf p
  let sq := fieldAt p 8 8
  let cq := fieldAt p 16 8
  let n := fieldAt p 24 1
  let st := (d.ring c (ringOf p)).state
  orErr (decide (ringOf p < 64) && decide (4 ≤ n) && decide (n ≤ 12) && sq % 4096 == 0 && cq % 4096 == 0
    && d.inCtx c sq (64 * 2 ^ min n 12) && d.inCtx c cq (32 * 2 ^ min n 12)
    && intOk (fieldAt p 26 2) (fieldAt p 28 2) (fieldAt p 30 2) && (st == 0 || st == 3)) 2

/-- C420h: the ring runs from empty areas, PHASE 1 (R185). -/
def ringAct (d : Dev) (_ : Caller) (p : List Byte) : Dev × Rsp :=
  let new (r : Ring) : Ring :=
    { seq := r.seq, sqBase := fieldAt p 8 8, cqBase := fieldAt p 16 8, sizeLog2 := fieldAt p 24 1, state := 1, vector := fieldAt p 26 2
      coalCount := fieldAt p 28 2, coalTime := fieldAt p 30 2, phase := true, tConfig := d.now }
  ((d.onRing (ctxOf p) (ringOf p) fun r => ringStep (new r)).ringSave (ctxOf p) (ringOf p), {})

/-- CONFIGURE_RING, C420h (R184, R185, R417). -/
def execConfigureRing (by_ : Fin 4) (uid : Nat) (payload : List Byte) (dt : Nat) (s : State) : Res := s.run fun d =>
  (d.elapse dt).jcsDo 0xC420 ringCheck ringAct { p := by_.val, uid := uid } payload

/-- A ring number below 64. -/
def ringNoCheck (_ : Dev) (_ : Caller) (p : List Byte) : Nat := orErr (decide (ringOf p < 64)) 2

/-- C421h: a ring in STATE 1 or 4 quiesces (R203). -/
def ringOffAct (d : Dev) (_ : Caller) (p : List Byte) : Dev × Rsp :=
  let c := ctxOf p
  let k := ringOf p
  if (d.ring c k).state ≠ 1 ∧ (d.ring c k).state ≠ 4 then (d, .err 4) else (d.quiesceRing c k, { bg := some (c * 64 + k) })

/-- DISABLE_RING, C421h (R203, R417). -/
def execDisableRing (by_ : Fin 4) (uid : Nat) (payload : List Byte) (dt : Nat) (s : State) : Res := s.run fun d =>
  (d.elapse dt).jcsDo 0xC421 ringNoCheck ringOffAct { p := by_.val, uid := uid } payload

/-- C422h: a ring number, vector, count and time within R185. -/
def ringIntCheck (_ : Dev) (_ : Caller) (p : List Byte) : Nat :=
  orErr (decide (ringOf p < 64) && intOk (fieldAt p 4 2) (fieldAt p 6 2) (fieldAt p 8 2)) 2

/-- C422h: the vector and coalescing of completions posted from now on. -/
def ringIntAct (d : Dev) (_ : Caller) (p : List Byte) : Dev × Rsp :=
  ((d.onRing (ctxOf p) (ringOf p) fun r => { r with
    vector := fieldAt p 4 2, coalCount := fieldAt p 6 2, coalTime := fieldAt p 8 2 }).ringSave (ctxOf p) (ringOf p), {})

/-- SET_INTERRUPTS, C422h (R202, R417). -/
def execSetInterrupts (by_ : Fin 4) (uid : Nat) (payload : List Byte) (dt : Nat) (s : State) : Res := s.run fun d =>
  (d.elapse dt).jcsDo 0xC422 ringIntCheck ringIntAct { p := by_.val, uid := uid } payload

/-- C423h: the descriptor. -/
def getRingAct (d : Dev) (_ : Caller) (p : List Byte) : Dev × Rsp := d.answer (.data (d.ring (ctxOf p) (ringOf p)).bytes)

/-- GET_RING, C423h (R185, R417). -/
def execGetRing (by_ : Fin 4) (uid : Nat) (payload : List Byte) (dt : Nat) (s : State) : Res := s.run fun d =>
  (d.elapse dt).jcsDo 0xC423 ringNoCheck getRingAct { p := by_.val, uid := uid } payload

end Sys2Proof.Machine
end

