-- ==== Sys2Proof/Machine/Thermal.lean ====
section
/-! DEFINITION. Temperature sensors, threshold levels, throttle levels, sensor failure, thermal shutdown and thermal records
(chapter 09). -/

namespace Sys2Proof.Machine

/-! ### Sensors (R290 to R292) -/

/-- The sensor numbers: six sites of each tile, and the board inputs 40h to 47h (R290). -/
def sensors : List Nat := (tiles8.flatMap fun t => (List.range 6).map fun i => 8 * t + i) ++ (List.range 8).map fun i => 0x40 + i

/-- The neighbours of a sensor (R290). -/
def nbrs (n : Nat) : List Nat :=
  if n < 0x40 then
    let t := n / 8 * 8
    (match n % 8 with
      | 0 => [3, 4, 5]
      | 1 => [3, 4, 5]
      | 2 => [3, 4]
      | 3 => [0, 1, 2, 4]
      | 4 => [0, 1, 2, 3, 5]
      | 5 => [0, 1, 4]
      | _ => []).map fun i => t + i
  else
    match n with
    | 0x40 => [0x41]
    | 0x41 => [0x40, 0x42]
    | 0x42 => [0x41, 0x43]
    | 0x43 => [0x42]
    | 0x44 => [0x45]
    | 0x45 => [0x44]
    | _ => []

/-- The valid neighbours of a sensor. -/
def Dev.validNbrs (d : Dev) (n : Nat) : List Nat := (nbrs n).filter fun m => !(d.sens m).failed

/-- The Flint source of a sensor (R313, R521). -/
def sensSrc (n : Nat) : Nat := if n < 0x40 then tsrc (n / 8) (55 + n % 8) else 819 + (n - 0x40)

/-- The highest reading in use of a list of sensors. -/
def Dev.maxTemp (d : Dev) (l : List Nat) : Int :=
  match l with
  | [] => 0
  | a :: r => r.foldl (fun m n => max m (d.sens n).temp) (d.sens a).temp

/-- The sensor of a list that gives the highest reading, the first of equals. -/
def Dev.maxSensor (d : Dev) (l : List Nat) : Nat :=
  match l with
  | [] => 0
  | a :: r => r.foldl (fun m n => if (d.sens m).temp < (d.sens n).temp then n else m) a

/-- The on-die sensors of a tile. -/
def tileSens (t : Nat) : List Nat := (List.range 6).map fun i => 8 * t + i

/-- Every on-die sensor. -/
def dieSens : List Nat := tiles8.flatMap tileSens

/-- The package maximum (R292). -/
def Dev.pkgMaxT (d : Dev) : Int := d.maxTemp dieSens

/-! ### Status registers (R292, R308) -/

/-- DW_THERM_RD of a sensor. -/
def Dev.thermRd (d : Dev) (n : Nat) : Dev :=
  let s := d.sens n
  d.dwSet (0x1000 + 8 * n)
    (put 0 18 (twos 18 s.code) + put 18 16 (twos 16 s.temp) + put 34 1 (bit s.failed) + put 35 2 s.cause + put 37 8 s.off
      + put 48 16 d.therm.sample)

/-- Throttle levels in force, two bits a tile. -/
def Dev.levels (d : Dev) : Nat := sumBy tiles8 fun t => put (2 * t) 2 (d.tile t).throttle

/-- The zone inputs whose mask includes a tile. -/
def Dev.masked (d : Dev) (t : Nat) : List Nat :=
  ([0, 1, 2, 3, 4, 5].filter fun z => mbit (d.boardIn z).mask t).map fun z => 0x40 + z

/-- A failed zone input with no valid neighbour: it has no substitute (R302). -/
def Dev.zoneOut (d : Dev) (n : Nat) : Bool := (d.sens n).failed && (d.validNbrs n).isEmpty

/-- DW_THERM_TILE of a tile. -/
def Dev.thermTileUpd (d : Dev) (t : Nat) : Dev :=
  let x := d.ttile t
  let h (l : List Nat) : Nat := (d.within hour l).length
  d.dwUpd (0xF40 + 8 * t) 8
    (put 0 16 (twos 16 (d.tileMaxT t)) + put 16 3 (d.maxSensor (tileSens t) % 8) + put 19 2 (d.tile t).throttle + put 21 2 x.floor
      + put 23 1 (bit x.frozenUntil.isSome) + put 24 1 (bit x.hot)
      + put 25 6 (sumBy (List.range 6) fun i => put i 1 (bit (d.sens (8 * t + i)).failed))
      + put 32 16 (twos 16 (d.maxTemp ((d.masked t).filter fun n => !(d.zoneOut n))))
      + put 48 8 (min 255 (max (h x.crossW) (h x.crossT))))

/-- Every thermal register (R308). -/
def Dev.thermUpd (d : Dev) : Dev :=
  let warn := sumBy tiles8 fun t => put t 1 (bit ((tileSens t).any fun n => (d.sens n).inW))
  let d := d.dwUpd 0xF00 8
    (put 0 16 (twos 16 d.pkgMaxT) + put 16 8 (d.maxSensor dieSens) + put 24 16 d.levels + put 40 8 warn
      + put 48 8 (sensors.countP fun n => (d.sens n).failed))
  sensors.foldl Dev.thermRd (tiles8.foldl Dev.thermTileUpd d)

/-- Levels, floors, freezes and failures: what the thermal registers show at each change (R308). -/
def Dev.thermSig (d : Dev) : List Nat :=
  (tiles8.map fun t => put 0 2 (d.tile t).throttle + put 2 2 (d.ttile t).floor + put 4 1 (bit (d.ttile t).frozenUntil.isSome))
    ++ sensors.map fun n =>
      let s := d.sens n
      put 0 1 (bit s.failed) + put 1 1 (bit s.inW) + put 2 1 (bit s.inT) + put 3 1 (bit s.inS)

/-- One update of the thermal registers where a command changed what `was` says (R308, R522). -/
def Dev.thermShow (d : Dev) (was : List Nat) : Dev := if d.thermSig = was then d else d.thermUpd

/-- THERMAL_STATUS_UPDATE: the thermal registers, every 10 ms (R308, R522). -/
def execThermalStatusUpdate (dt : Nat) (s : State) : Res := s.run fun d => (d.elapse dt).periodic 6 10000000 Dev.thermUpd

/-! ### Thermal records (R306) -/

/-- A thermal record of this moment. -/
def Dev.thermRec (d : Dev) (kind sensor : Nat) (reading thresh : Int) : ThermRec :=
  { rseq := d.therm.nextRseq, tEvent := d.now, kind := kind, sensor := sensor, reading := reading, thresh := thresh
    levels := BitVec.ofNat 16 d.levels, pkgMax := d.pkgMaxT, inlet := (d.sens 0x47).temp
    failed := sensors.countP fun n => (d.sens n).failed, shutdowns := (d.within day d.therm.shutTimes).length }

/-- A thermal record waits for its write. -/
def Dev.thermPend (d : Dev) (r : ThermRec) : Dev := d.onTherm fun x => { x with recPend := x.recPend ++ [r], nextRseq := x.nextRseq + 1 }

/-- THERMAL_RECORD_WRITE: the records that wait are written, while the pre-check of R277 passes (R306). -/
def execThermalRecordWrite (dt : Nat) (s : State) : Res := s.run fun d =>
  let d := d.elapse dt
  if d.recMay ∧ !d.therm.recPend.isEmpty then d.thermKeep.stampFloor else d

/-! ### Levels of a tile (R295 to R298, R301, R302) -/

/-- A tile is hot: an on-die sensor, a board input of its mask, or the bridge or inlet input is in its throttle level (R295). -/
def Dev.isHot (d : Dev) (t : Nat) : Bool := (tileSens t ++ d.masked t ++ [0x46, 0x47]).any fun n => (d.sens n).inT

/-- The floor of a tile (R302). -/
def Dev.floorOf (d : Dev) (t : Nat) : Nat :=
  let bad := (tileSens t).filter fun n => (d.sens n).failed
  if 4 ≤ bad.length ∨ bad.any fun n => (d.validNbrs n).isEmpty then 3
  else if 2 ≤ bad.length then 2
  else if (d.masked t).any d.zoneOut then 1
  else 0

/-- The level in force becomes the higher of the stepped level and the floor; a change triggers the recomputation of R61, caps
and set points follow, and the operating point is checked (R23, R231, R237, R295, R297). -/
def Dev.levelUpd (d : Dev) (t : Nat) : Dev :=
  let x := d.ttile t
  let old := (d.tile t).throttle
  let new := max x.step x.floor
  if new = old then d
  else
    let d := (d.onTile t fun y => { y with throttle := new }).raise (tsrc t 61) 0x21 0 (detail := [old, new])
    let d := (d.govTrigger 4).capApply t
    let d := if decide (2 ≤ new) != decide (2 ≤ old) then d.fspStart t (decide (2 ≤ new)) else d
    d.pointCheck

/-- A tile's condition after its sensors changed: it steps up at once from T0 on becoming hot, down by one on becoming cool,
unless its level is frozen; its floor takes effect at once (R295, R301, R302). -/
def Dev.tileHeat (d : Dev) (t : Nat) : Dev :=
  let x := d.ttile t
  let hot := d.isHot t
  let frozen := x.frozenUntil.isSome
  let fl := d.floorOf t
  let d := d.onTtile t fun x =>
    if hot ∧ !x.hot then { x with hot := true, step := if x.step = 0 ∧ !frozen then 1 else x.step, stepAt := d.now }
    else if !hot ∧ x.hot then { x with hot := false, step := if frozen then x.step else x.step - 1, stepAt := d.now }
    else x
  let d := d.onTtile t fun x => { x with floor := fl }
  let d := if fl ≤ x.floor then d
    else if fl = 3 then
      (d.raise (tsrc t 61) 0x24 2 (detail := [2])).thermPend
        (d.thermRec 6 (((tileSens t).find? fun n => (d.sens n).failed).getD (8 * t)) (d.tileMaxT t) (d.therm.throttleC * 16))
    else if fl = 2 then d.raise (tsrc t 61) 0x24 2 (detail := [1]) else d
  d.levelUpd t

/-- THROTTLE_STEP: a tile that has stayed hot for STEP_S rises by one level, up to T3 (R295). -/
def execThrottleStep (t : Fin 8) (dt : Nat) (s : State) : Res := s.run fun d =>
  let d := d.elapse dt
  let x := d.ttile t.val
  if x.hot && x.frozenUntil.isNone && decide (x.step < 3) && decide (d.therm.stepS * 1000000000 ≤ d.since x.stepAt) then
    ((d.onTtile t.val fun x => { x with step := x.step + 1, stepAt := d.now }).levelUpd t.val).thermShow d.thermSig
  else d

/-- THROTTLE_FALL: a tile that has stayed cool for a further 1 s falls by one level (R295). -/
def execThrottleFall (t : Fin 8) (dt : Nat) (s : State) : Res := s.run fun d =>
  let d := d.elapse dt
  let x := d.ttile t.val
  if !x.hot && x.frozenUntil.isNone && decide (0 < x.step) && decide (1000000000 ≤ d.since x.stepAt) then
    ((d.onTtile t.val fun x => { x with step := x.step - 1, stepAt := d.now }).levelUpd t.val).thermShow d.thermSig
  else d

/-- FREEZE_END: the freeze of 10 s ends; stepping resumes from the present condition, its intervals started afresh (R301). -/
def execFreezeEnd (t : Fin 8) (dt : Nat) (s : State) : Res := s.run fun d =>
  let d := d.elapse dt
  match (d.ttile t.val).frozenUntil with
  | none => d
  | some e =>
    if d.now < e then d
    else
      let hot := d.isHot t.val
      ((d.onTtile t.val fun x => { x with
        frozenUntil := none, hot := hot, stepAt := d.now, step := if hot ∧ x.step = 0 then 1 else x.step }).levelUpd t.val).thermUpd

/-! ### Thresholds (R293, R294, R298, R303) -/

/-- Threshold `k` of a sensor in °C, 0 for one disabled: 0 warning, 1 throttle, 2 shutdown (R293). -/
def Dev.thrOf (d : Dev) (n k : Nat) : Nat :=
  if n < 0x40 then (if k = 0 then d.therm.warnC else if k = 1 then d.therm.throttleC else d.therm.shutC)
  else
    let b := d.boardIn (n - 0x40)
    if k = 0 then b.warn else if k = 1 then b.thr else b.shut

/-- Its hysteresis in °C (R293). -/
def Dev.hysOf (d : Dev) (n k : Nat) : Nat :=
  if n < 0x40 then (if k = 0 then d.therm.warnHys else if k = 1 then d.therm.throttleHys else d.therm.shutHys)
  else if n = 0x47 then 2 else 3

/-- A crossing counter takes an entry; at 100 in the sliding hour the hovering event is raised, at most once an hour (R298). -/
def Dev.crossing (d : Dev) (n k : Nat) : Dev :=
  let due (l : List Nat) (h : Option Nat) : Bool := decide (100 ≤ l.length) && (match h with
    | none => true
    | some t => decide (hour ≤ d.since t))
  if n < 0x40 then
    let t := n / 8
    let x := d.ttile t
    if k = 0 then
      let l := d.now :: d.within hour x.crossW
      let d' := d.onTtile t fun x => { x with crossW := l, hoverW := if due l x.hoverW then some d.now else x.hoverW }
      if due l x.hoverW then d'.raise (tsrc t 61) 0x20 0 (detail := [k, n]) else d'
    else if k = 1 then
      let l := d.now :: d.within hour x.crossT
      let d' := d.onTtile t fun x => { x with crossT := l, hoverT := if due l x.hoverT then some d.now else x.hoverT }
      if due l x.hoverT then d'.raise (tsrc t 61) 0x21 0 (detail := [k, n]) else d'
    else d
  else
    let b := d.boardIn (n - 0x40)
    let all := (k, d.now) :: b.cross.filter fun e => decide (d.now < e.2 + hour)
    let l := (all.filter fun e => e.1 == k).map fun e => e.2
    let h : Option Nat := if thas b.hover k then some (tget b.hover 0 k) else none
    let d' := d.onBoardIn (n - 0x40) fun b => { b with cross := all, hover := if due l h then tset b.hover k d.now else b.hover }
    if due l h then d'.raise (sensSrc n) (0x20 + k) 0 (detail := [k, n]) else d'

/-- A sensor enters its shutdown level: the event, the record of kind 01h, and the thermal seal with cause 2h (R102, R303). -/
def Dev.thermShutdown (d : Dev) (n : Nat) : Dev :=
  let d := d.raise (sensSrc n) 0x22 2 (detail := [n])
  if d.sealing.active ∨ !d.panel.coreUp then d.trigger 2
  else
    let d := d.onTherm fun x => { x with shutSensor := n, shutTimes := d.now :: d.within day x.shutTimes }
    (d.thermPend (d.thermRec 1 n (d.sens n).temp (d.thrOf n 2 * 16))).trigger 2

/-- One sample of threshold `k` of a sensor against its reading in use: three consecutive samples at or above it enter its level;
the time below the threshold less the hysteresis runs (R294). -/
def Dev.threshold (d : Dev) (n k : Nat) : Dev :=
  let thr := d.thrOf n k
  let s := d.sens n
  let above := decide (thr ≠ 0) && decide ((thr * 16 : Int) ≤ s.temp)
  let below := decide (s.temp < (((thr : Int) - d.hysOf n k) * 16))
  let run := if above then (if k = 0 then s.runW else if k = 1 then s.runT else s.runS) + 1 else 0
  let inL := if k = 0 then s.inW else if k = 1 then s.inT else s.inS
  let bel0 := if k = 0 then s.belW else if k = 1 then s.belT else s.belS
  let bel := if below then some (bel0.getD d.now) else none
  let enter := decide (3 ≤ run) && !inL
  let inNew := (inL || enter) && decide (thr ≠ 0)
  let d := d.onSens n fun s =>
    if k = 0 then { s with runW := run, belW := bel, inW := inNew }
    else if k = 1 then { s with runT := run, belT := bel, inT := inNew }
    else { s with runS := run, belS := bel, inS := inNew }
  if !enter then d
  else
    let d := if k = 0 then d.raise (sensSrc n) 0x20 0 (detail := [n]) else d
    let d := d.crossing n k
    if k = 2 then d.thermShutdown n else d

/-- The thresholds of a sensor that are evaluated: all, but those of a failed zone with no substitute, and the shutdown one of a
failed inlet (R302). -/
def Dev.evaluated (d : Dev) (n k : Nat) : Bool :=
  !(decide (0x40 ≤ n) && decide (n < 0x46) && d.zoneOut n) && !(n == 0x47 && k == 2 && (d.sens n).failed)

/-- THRESHOLD_LEVEL_LEAVE: a reading has stayed below a threshold less its hysteresis for 1 s, so the sensor leaves the level
(R294, R295, R309). -/
def execThresholdLevelLeave (n : Fin 72) (k : Fin 3) (dt : Nat) (s : State) : Res := s.run fun d =>
  let d := d.elapse dt
  let x := d.sens n.val
  let long (b : Option Nat) : Bool := match b with
    | some t => decide (1000000000 ≤ d.since t)
    | none => false
  let was := d.thermSig
  match k.val with
  | 0 =>
    if x.inW ∧ long x.belW then
      ((d.onSens n.val fun x => { x with inW := false }).raise (sensSrc n.val) 0x20 0 (detail := [n.val])).thermShow was
    else d
  | 1 =>
    if x.inT ∧ long x.belT then (tiles8.foldl Dev.tileHeat (d.onSens n.val fun x => { x with inT := false })).thermShow was else d
  | _ => if x.inS ∧ long x.belS then (d.onSens n.val fun x => { x with inS := false }).thermShow was else d

/-! ### Failure, substitutes and offsets (R299 to R302) -/

/-- A sample enters a sensor: its code, and the runs of same codes and of samples out of range (R291, R299). A board DRAM zone reads
the devices' rated maximum while a device of its tiles reports above it (R232, R292). -/
def Dev.takeCode (d : Dev) (n : Nat) (code : Int) : Dev :=
  let out := decide (code < -40 * 512) || decide (150 * 512 < code) || code == 131071 || code == -131072
  let hot := decide (0x40 ≤ n) && decide (n < 0x44) && (tiles8.any fun t => mbit (d.boardIn (n - 0x40)).mask t
    && (List.range 16).any fun e => (d.rank t e).overMax)
  let r : Int := code / 32
  let r := if hot then max r (Config.dramRatedMax : Int) else r
  d.onSens n fun s => { s with
    same := if s.code = code then s.same + 1 else 1, outRun := if out then s.outRun + 1 else 0, code := code
    temp := if s.failed then s.temp else r }

/-- Disagreement now: at least two valid neighbours that agree within 15 °C, from every one of which the raw reading differs by more
than 15 °C (R299). -/
def Dev.disagrees (d : Dev) (n : Nat) : Bool :=
  let v := (d.validNbrs n).map fun m => (d.sens m).temp
  let r := (d.sens n).code / 32
  decide (2 ≤ v.length) && v.all (fun a => v.all fun b => decide (a - b ≤ 240)) && v.all fun a => decide (240 < a - r) || decide (240 < r - a)

/-- The failure condition that holds for a sensor: 0 none, 1 stuck, 2 out of range, 3 disagreement (R299). -/
def Dev.failCause (d : Dev) (n : Nat) : Nat :=
  let s := d.sens n
  if 2000 ≤ s.same then 1
  else if 3 ≤ s.outRun then 2
  else match s.disSince with
    | some t => if 1000000000 ≤ d.since t then 3 else 0
    | none => 0

/-- A sensor is declared failed: the event, the record, and the freeze of a tile at T1 or above whose maximum it gave (`top`)
(R299, R301, R302). -/
def Dev.sensorFails (d : Dev) (top : Nat → Nat) (n cause : Nat) : Dev :=
  let d := d.onSens n fun s => { s with failed := true, cause := cause, okSince := d.now }
  let d := d.raise (sensSrc n) 0x24 2 (detail := [0, n])
  let d := d.thermPend (d.thermRec 5 n (d.sens n).temp (d.thrOf n 1 * 16))
  let d := if 0x46 ≤ n ∨ (0x40 ≤ n ∧ (d.validNbrs n).isEmpty) then d.raise (sensSrc n) 0x24 2 (detail := [1, n]) else d
  if n < 0x40 ∧ top (n / 8) = n ∧ 1 ≤ (d.tile (n / 8)).throttle then
    d.onTtile (n / 8) fun x => { x with frozenUntil := some (d.now + 10000000000) }
  else d

/-- The failure conditions of a sensor are judged on its raw code (R299). -/
def Dev.judgeSensor (d : Dev) (top : Nat → Nat) (n : Nat) : Dev :=
  let dis := d.disagrees n
  let d := d.onSens n fun s => { s with disSince := if dis then some (s.disSince.getD d.now) else none }
  let c := d.failCause n
  if (d.sens n).failed then
    if c ≠ 0 then d.onSens n fun s => { s with okSince := d.now } else d
  else if c ≠ 0 then d.sensorFails top n c else d

/-- The substitute of a failed sensor (R300, R302): its highest valid neighbour plus its offset; on a die with none, or with four or
more failed, the highest valid on-die reading of the tile, or of the package, plus 15 °C, or THROTTLE_C; a board input with no
valid neighbour keeps its last reading. -/
def Dev.substitute (d : Dev) (n : Nat) : Int :=
  let v := d.validNbrs n
  if 0x40 ≤ n then (if v.isEmpty then (d.sens n).temp else d.maxTemp v + (d.sens n).off)
  else
    let bad := (tileSens (n / 8)).countP fun m => (d.sens m).failed
    if v.isEmpty ∨ 4 ≤ bad then
      let mine := (tileSens (n / 8)).filter fun m => !(d.sens m).failed
      let all := dieSens.filter fun m => !(d.sens m).failed
      if !mine.isEmpty then d.maxTemp mine + 240
      else if !all.isEmpty then d.maxTemp all + 240
      else (d.therm.throttleC * 16 : Nat)
    else d.maxTemp v + (d.sens n).off

/-- Failed sensors take their substitutes. -/
def Dev.substAll (d : Dev) : Dev :=
  let subs := (sensors.filter fun n => (d.sens n).failed).map fun n => (n, d.substitute n)
  subs.foldl (fun d x => d.onSens x.1 fun s => { s with temp := x.2 }) d

/-- The running mean of every sensor; each whole second the offsets are learned from the means (R300). -/
def Dev.learnOffsets (d : Dev) : Dev :=
  let d := sensors.foldl (fun d n => d.onSens n fun s => { s with meanSum := s.meanSum + s.temp, meanN := s.meanN + 1 }) d
  if d.therm.sample % 1000 ≠ 0 then d
  else
    let d := sensors.foldl (fun d n => d.onSens n fun s => { s with
      mean := s.meanSum / (max 1 s.meanN : Nat), meanSum := 0, meanN := 0 }) d
    sensors.foldl (fun d n =>
      let v := d.validNbrs n
      if (d.sens n).failed ∨ v.isEmpty then d
      else
        let top := v.foldl (fun a m => max a (d.sens m).mean) (d.sens (v.headD 0)).mean
        let diff := min 240 ((d.sens n).mean - top).toNat
        d.onSens n fun s =>
          let h := (d.now, diff) :: s.offHist.filter fun e => decide (d.now < e.1 + day) && decide (diff < e.2)
          { s with offHist := h, off := maxBy h 0 fun e => e.2 }) d

/-- THERMAL_SAMPLE: the 1 ms sample of every sensor (R291, R294, R295, R299 to R303). `codes` are the codes that differ from the
previous sample's, a sensor not listed having the same code again. -/
def execThermalSample (codes : List (Nat × BitVec 18)) (dt : Nat) (s : State) : Res := s.run fun d =>
  let d := d.elapse dt
  if !d.panel.coreUp then d
  else
    let was := d.thermSig
    let tops := tiles8.map fun t => (t, d.maxSensor (tileSens t))
    let top (t : Nat) : Nat := tget tops 0 t
    let d := d.onTherm fun x => { x with sample := x.sample + 1 }
    let code (n : Nat) : Int := match codes.find? fun c => c.1 == n with
      | some c => c.2.toInt
      | none => (d.sens n).code
    let d := sensors.foldl (fun d n => d.takeCode n (code n)) d
    let d := sensors.foldl (fun d n => d.judgeSensor top n) d
    let d := (d.substAll).learnOffsets
    let d := sensors.foldl (fun d n => [0, 1, 2].foldl (fun d k => if d.evaluated n k then d.threshold n k else d) d) d
    ((tiles8.foldl Dev.tileHeat d).sealWorst).thermShow was

/-- SENSOR_RECOVER: a failed sensor for which no failure condition has held for 10 min recovers (R299, R302). -/
def execSensorRecover (n : Fin 72) (dt : Nat) (s : State) : Res := s.run fun d =>
  let d := d.elapse dt
  let x := d.sens n.val
  if x.failed ∧ d.failCause n.val = 0 ∧ min10 ≤ d.since x.okSince then
    let d := d.onSens n.val fun s => { s with failed := false, cause := 0, temp := s.code / 32 }
    let d := d.raise (sensSrc n.val) 0x24 0 (detail := [n.val])
    (tiles8.foldl Dev.tileHeat d.substAll).thermUpd
  else d

end Sys2Proof.Machine
end

