-- ==== Sys2Proof/Machine/Jcs2.lean ====
section
/-! DEFINITION. The exposure, energy and thermal commands, C430h to C45Fh (R418 to R420). -/

namespace Sys2Proof.Machine

/-- A value lies in `[lo, hi]`. -/
def within (lo hi v : Nat) : Bool := decide (lo ≤ v) && decide (v ≤ hi)

/-- Field `i` of a MASK is selected and breaks its range, unless `ok` (R414). -/
def maskOk (m i : Nat) (ok : Bool) : Bool := !m.testBit i || ok

/-- The value of a MASK field: the new one where selected, else the old. -/
def pick {α : Type} (m i : Nat) (new old : α) : α := if m.testBit i then new else old

/-! ### Exposure (R76, R77, R418) -/

/-- C430h: exposure, ceilings, state and energy figures, and each tile's (R418). -/
def expoAct (d : Dev) (_ : Caller) (_ : List Byte) : Dev × Rsp :=
  let e := d.expo
  let g := e.gov
  d.answer (.data (fields [(8, d.xPkg), (8, g.ceiling), (8, g.cE), (8, g.cL), (8, if e.policy.windowEn then g.cT else 0), (8, g.cP),
      (1, g.pkgState), (1, if g.relRef then 4 else g.bound), (1, bit (g.pkgState == 4)), (1, 0), (4, g.eAvail / 1000),
      (4, e.eFixed / 1000), (4, e.kSeal), (4, e.landRef), (4, g.dE)]
    ++ tiles8.flatMap fun t => fields [(8, tget g.tileCeil 0 t), (4, tget g.land 0 t), (1, tget g.tileState 0 t), (3, 0)]))

/-- GET_EXPOSURE, C430h (R418). -/
def execGetExposure (by_ : Fin 4) (uid : Nat) (payload : List Byte) (dt : Nat) (s : State) : Res := s.run fun d =>
  (d.elapse dt).jcsDo 0xC430 noCheck expoAct { p := by_.val, uid := uid } payload

/-- C431h: each field that MASK selects lies within its values (R76). -/
def expoPolicyCheck (_ : Dev) (_ : Caller) (p : List Byte) : Nat :=
  let m := fieldAt p 0 1
  orErr (maskOk m 0 (within 16 32768 (fieldAt p 4 4)) && maskOk m 1 (within 0 1 (fieldAt p 8 1)) && maskOk m 2 (within 1 400 (fieldAt p 12 2))
    && maskOk m 3 (within 1 400 (fieldAt p 14 2)) && maskOk m 4 (within 0 1 (fieldAt p 9 1)) && maskOk m 5 (within 0 1 (fieldAt p 10 1))) 2

/-- C431h: the policy changes, its record is due, and a recomputation takes it into force (R76, R77). -/
def expoPolicyAct (d : Dev) (_ : Caller) (p : List Byte) : Dev × Rsp :=
  let m := fieldAt p 0 1
  let d := d.onExpo fun e => { e with policy := {
    boundGib := pick m 0 (fieldAt p 4 4) e.policy.boundGib, windowEn := pick m 1 (fieldAt p 8 1 == 1) e.policy.windowEn
    dmaxH0 := pick m 2 (fieldAt p 12 2) e.policy.dmaxH0, dmaxH1 := pick m 3 (fieldAt p 14 2) e.policy.dmaxH1
    borrowEn := pick m 4 (fieldAt p 9 1 == 1) e.policy.borrowEn, perfEn := pick m 5 (fieldAt p 10 1 == 1) e.policy.perfEn } }
  (((d.govTrigger 8).recDue 0x62).pointCheck, {})

/-- SET_EXPOSURE_POLICY, C431h (R76, R77, R418). -/
def execSetExposurePolicy (by_ : Fin 4) (uid : Nat) (payload : List Byte) (dt : Nat) (s : State) : Res := s.run fun d =>
  (d.elapse dt).jcsDo 0xC431 expoPolicyCheck expoPolicyAct { p := by_.val, uid := uid } payload

/-- C432h: the policy, as the input of C431h. -/
def getPolicyAct (d : Dev) (_ : Caller) (_ : List Byte) : Dev × Rsp :=
  let x := d.expo.policy
  d.answer (.data (fields [(1, 0x3F), (3, 0), (4, x.boundGib), (1, bit x.windowEn), (1, bit x.borrowEn), (1, bit x.perfEn), (1, 0),
    (2, x.dmaxH0), (2, x.dmaxH1)]))

/-- GET_EXPOSURE_POLICY, C432h (R418). -/
def execGetExposurePolicy (by_ : Fin 4) (uid : Nat) (payload : List Byte) (dt : Nat) (s : State) : Res := s.run fun d =>
  (d.elapse dt).jcsDo 0xC432 noCheck getPolicyAct { p := by_.val, uid := uid } payload

/-- C433h: MAX of at most 256. -/
def lapseCheck (_ : Dev) (_ : Caller) (p : List Byte) : Nat := orErr (decide (fieldAt p 2 2 ≤ 256)) 2

/-- The 48 bytes of a lapse record (R69, R418). -/
def Lapse.bytes (l : Lapse) : List Byte :=
  fields [(8, l.entry), (8, l.exit), (1, l.cause), (1, l.tile), (6, 0), (8, l.ceil), (8, l.expo), (8, l.peak)]

/-- C433h: lapse records from FIRST on, newest first. -/
def lapseAct (d : Dev) (_ : Caller) (p : List Byte) : Dev × Rsp :=
  d.answer (.data (((d.expo.gov.lapses.drop (fieldAt p 0 2)).take (fieldAt p 2 2)).flatMap Lapse.bytes))

/-- READ_LAPSE_RECORDS, C433h (R69, R418). -/
def execReadLapseRecords (by_ : Fin 4) (uid : Nat) (payload : List Byte) (dt : Nat) (s : State) : Res := s.run fun d =>
  (d.elapse dt).jcsDo 0xC433 lapseCheck lapseAct { p := by_.val, uid := uid } payload

/-! ### Packs, gauge, bays and test seal (R419) -/

/-- The 32-byte report of a source, 0 bay A, 1 bay B, 2 bridge (R268). -/
def Dev.gaugeReport (d : Dev) (s : Nat) : List Byte :=
  let e := d.energy
  let x := d.src s
  if s = 2 then
    let mj (mv : Nat) : Nat := e.brC * (mv * mv - 12000 * 12000) / 2000000
    fields [(1, 2), (1, bit e.brCnom.isSome + 2 * bit d.bridgeCounted + 4 * bit (e.brFault != 0) + 8 * bit (e.brTLearn != 0)),
      (2, if mj e.brVfull = 0 then 0 else min 10000 (10000 * mj (d.srcMv 2) / mj e.brVfull)), (4, x.eMj / 1000), (4, x.uMj / 1000),
      (4, mj e.brVfull / 1000), (2, 0), (2, 0), (4, e.brEsr), (4, 0), (4, x.tEst)]
  else
    let b := d.bay s
    fields [(1, s), (1, bit b.latch + 2 * bit b.counted + 4 * bit (b.fault != 0) + 8 * bit b.learned + 16 * bit b.restDue), (2, b.soc),
      (4, x.eMj / 1000), (4, x.uMj / 1000), (4, x.eFullMj / 1000), (2, d.sigSocNow s), (2, d.sigCapNow s), (4, b.dcir), (4, b.noRestMin),
      (4, x.tEst)]

/-- C440h: the reports of bay A, bay B and the bridge. -/
def gaugeAct (d : Dev) (_ : Caller) (_ : List Byte) : Dev × Rsp := d.answer (.data ([0, 1, 2].flatMap d.gaugeReport))

/-- GET_GAUGE, C440h (R268, R419). -/
def execGetGauge (by_ : Fin 4) (uid : Nat) (payload : List Byte) (dt : Nat) (s : State) : Res := s.run fun d =>
  (d.elapse dt).jcsDo 0xC440 noCheck gaugeAct { p := by_.val, uid := uid } payload

/-- The bay that a payload names. -/
def bayOf (p : List Byte) : Nat := fieldAt p 0 1

/-- C441h: bay A or B. -/
def bayCheck (_ : Dev) (_ : Caller) (p : List Byte) : Nat := orErr (decide (bayOf p ≤ 1)) 2

/-- C441h: a release request: refused with BAY_BUSY under HOLD and while the bay is INSERTED with its lock engaged; without change
on a bay EMPTY, WAITING or GRANTED; else granted at once or waiting (R280, R281, R283). -/
def relReqAct (d : Dev) (_ : Caller) (p : List Byte) : Dev × Rsp :=
  let b := bayOf p
  let x := d.bay b
  if x.hold ∨ (x.state = 1 ∧ x.lock) then (d.refusePress b, .err 0xC)
  else if x.state = 0 ∨ x.state = 4 then (d, .data [0])
  else if x.state = 3 then (d, .data [1])
  else
    let d := d.releaseAsk b
    (d, .data [if (d.bay b).state = 4 then 0 else 1])

/-- REQUEST_RELEASE, C441h (R71, R280, R283, R419). -/
def execRequestRelease (by_ : Fin 4) (uid : Nat) (payload : List Byte) (dt : Nat) (s : State) : Res := s.run fun d =>
  (d.elapse dt).jcsDo 0xC441 bayCheck relReqAct { p := by_.val, uid := uid } payload

/-- C442h: a bay, and HOLD of 0 or 1. -/
def holdCheck (_ : Dev) (_ : Caller) (p : List Byte) : Nat := orErr (decide (bayOf p ≤ 1) && within 0 1 (fieldAt p 1 1)) 2

/-- C442h: HOLD of a bay (R283). -/
def holdAct (d : Dev) (_ : Caller) (p : List Byte) : Dev × Rsp := (d.bayDo (bayOf p) fun x => { x with hold := fieldAt p 1 1 == 1 }, {})

/-- SET_HOLD, C442h (R283, R419). -/
def execSetHold (by_ : Fin 4) (uid : Nat) (payload : List Byte) (dt : Nat) (s : State) : Res := s.run fun d =>
  (d.elapse dt).jcsDo 0xC442 holdCheck holdAct { p := by_.val, uid := uid } payload

/-- C443h: a bay, and ACTION 1 start or 2 stop. -/
def capTestCheck (_ : Dev) (_ : Caller) (p : List Byte) : Nat := orErr (decide (bayOf p ≤ 1) && within 1 2 (fieldAt p 1 1)) 2

/-- C443h: a test starts where R270 allows it; a stop ends it without a result (R270). -/
def capTestAct (d : Dev) (_ : Caller) (p : List Byte) : Dev × Rsp :=
  let b := bayOf p
  if fieldAt p 1 1 = 1 then
    if d.testMayStart b then (d.startTest b, {}) else (d, .err 0xC)
  else (d.bayDo b fun x => { x with test := 0, testIntr := 0, intrAt := none, intrClear := none, testSa := none, testSb := none }, {})

/-- CAPACITY_TEST, C443h (R270, R419). -/
def execCapacityTest (by_ : Fin 4) (uid : Nat) (payload : List Byte) (dt : Nat) (s : State) : Res := s.run fun d =>
  (d.elapse dt).jcsDo 0xC443 capTestCheck capTestAct { p := by_.val, uid := uid } payload

/-- C444h: HOLD_LIMIT of 1 ms to 10 s, FILL_GIB of at most 1,024 (R103). -/
def testSealCheck (_ : Dev) (_ : Caller) (p : List Byte) : Nat :=
  orErr (within 1000 10000000 (fieldAt p 0 4) && decide (fieldAt p 4 4 ≤ 1024)) 2

/-- A firmware activation is in progress: a try is activated and its reset has not yet run it (R103). -/
def Dev.activating (d : Dev) : Bool :=
  d.panel.resetDue || (match d.lrec.trySlot with
    | some s => d.runSlot != s
    | none => false)

/-- C444h: a test seal begins, unless R103 refuses it. -/
def testSealAct (d : Dev) (_ : Caller) (p : List Byte) : Dev × Rsp :=
  let bytes := max (d.xPkg * 4096) (fieldAt p 4 4 * 2 ^ 30)
  if 2 ≤ d.expo.gov.pkgState then (d, .err 0xB)
  else if [0, 1].any fun b => (d.bay b).state == 3 || (d.bay b).state == 4 || (d.bay b).test != 0 then (d, .err 0xC)
  else if d.restore.phase ≠ 7 ∨ d.activating then (d, .err 7)
  else if ((d.expo.gov.eAvail : Int) - d.expo.eFixed) * 1000000000000 < ((2 * (d.expo.kSeal * bytes) : Nat) : Int) then (d, .err 0xD)
  else (d.testBegin (fieldAt p 0 4) (fieldAt p 4 4), { bg := some 0 })

/-- TEST_SEAL, C444h (R103, R104, R419). -/
def execTestSeal (by_ : Fin 4) (uid : Nat) (payload : List Byte) (dt : Nat) (s : State) : Res := s.run fun d =>
  (d.elapse dt).jcsDo 0xC444 testSealCheck testSealAct { p := by_.val, uid := uid } payload

/-- C445h: each field that MASK selects lies within its values (R288). -/
def enPolicyCheck (_ : Dev) (_ : Caller) (p : List Byte) : Nat :=
  let m := fieldAt p 0 1
  orErr (maskOk m 0 (within 0 1 (fieldAt p 2 1)) && maskOk m 1 (within 50 95 (fieldAt p 3 1)) && maskOk m 2 (within 80 100 (fieldAt p 4 1))
    && maskOk m 3 (within 10 70 (fieldAt p 5 1)) && maskOk m 4 (within 50 400 (fieldAt p 6 2)) && maskOk m 5 (within 5 60 (fieldAt p 8 2))) 2

/-- C445h: the energy policy changes, and its record is due (R288). -/
def enPolicyAct (d : Dev) (_ : Caller) (p : List Byte) : Dev × Rsp :=
  let m := fieldAt p 0 1
  ((d.onEnergy fun e => { e with
    assistEn := pick m 0 (fieldAt p 2 1 == 1) e.assistEn, assistFloor := pick m 1 (fieldAt p 3 1) e.assistFloor
    chargeTarget := pick m 2 (fieldAt p 4 1) e.chargeTarget, chargeRate := pick m 3 (fieldAt p 5 1) e.chargeRate
    pSlot := pick m 4 (fieldAt p 6 2) e.pSlot, assistMax := pick m 5 (fieldAt p 8 2) e.assistMax }).recDue 0x62, {})

/-- SET_ENERGY_POLICY, C445h (R288, R419). -/
def execSetEnergyPolicy (by_ : Fin 4) (uid : Nat) (payload : List Byte) (dt : Nat) (s : State) : Res := s.run fun d =>
  (d.elapse dt).jcsDo 0xC445 enPolicyCheck enPolicyAct { p := by_.val, uid := uid } payload

/-- C446h: a bay, CHEM of 0 to 3, LEARN_INTERVAL and TEST_RATE within R288. -/
def bayParCheck (_ : Dev) (_ : Caller) (p : List Byte) : Nat :=
  orErr (decide (bayOf p ≤ 1) && within 0 3 (fieldAt p 1 1) && (fieldAt p 2 2 == 0 || within 30 365 (fieldAt p 2 2))
    && within 5 50 (fieldAt p 4 1)) 2

/-- C446h: the bay's parameters, in force at its next insertion (R288). -/
def bayParAct (d : Dev) (_ : Caller) (p : List Byte) : Dev × Rsp :=
  ((d.onBay (bayOf p) fun x => { x with next := some [fieldAt p 1 1, fieldAt p 2 2, fieldAt p 4 1, fieldAt p 8 4, fieldAt p 12 4, fieldAt p 16 4, fieldAt p 20 4] }).recDue
    0x61, {})

/-- SET_BAY_PARAMETERS, C446h (R254, R288, R419). -/
def execSetBayParameters (by_ : Fin 4) (uid : Nat) (payload : List Byte) (dt : Nat) (s : State) : Res := s.run fun d =>
  (d.elapse dt).jcsDo 0xC446 bayParCheck bayParAct { p := by_.val, uid := uid } payload

/-- C447h: V_FULL of at most 24.0 V (R254). -/
def bridgeParCheck (_ : Dev) (_ : Caller) (p : List Byte) : Nat := orErr (decide (fieldAt p 8 2 ≤ 24000)) 2

/-- C447h: the bridge's parameters, in force at the next package reset (R288). -/
def bridgeParAct (d : Dev) (_ : Caller) (p : List Byte) : Dev × Rsp :=
  ((d.onEnergy fun e => { e with brNext := some [fieldAt p 0 4, fieldAt p 4 4, fieldAt p 8 2, fieldAt p 12 4] }).recDue 0x61, {})

/-- SET_BRIDGE_PARAMETERS, C447h (R254, R288, R419). -/
def execSetBridgeParameters (by_ : Fin 4) (uid : Nat) (payload : List Byte) (dt : Nat) (s : State) : Res := s.run fun d =>
  (d.elapse dt).jcsDo 0xC447 bridgeParCheck bridgeParAct { p := by_.val, uid := uid } payload

/-- C448h: table index 0 to 3. -/
def chemCheck (_ : Dev) (_ : Caller) (p : List Byte) : Nat := orErr (within 0 3 (fieldAt p 0 1)) 2

/-- C448h: 252 values of 16 bits, OCV then R_tab (R260). -/
def chemAct (d : Dev) (_ : Caller) (p : List Byte) : Dev × Rsp :=
  let vs := (List.range 252).map fun i => fieldAt p (8 + 2 * i) 2
  ((d.onEnergy fun e => { e with chemTab := tset e.chemTab (fieldAt p 0 1) vs }).recDue 0x63, {})

/-- LOAD_CHEMISTRY_TABLE, C448h (R260, R419). -/
def execLoadChemistryTable (by_ : Fin 4) (uid : Nat) (payload : List Byte) (dt : Nat) (s : State) : Res := s.run fun d =>
  (d.elapse dt).jcsDo 0xC448 chemCheck chemAct { p := by_.val, uid := uid } payload

/-- The learning record and the state record as last written; zeros where none has been (R274, R275). -/
def GaugeRec.bytes (r : GaugeRec) : List Byte :=
  if r.bytesL = [] then List.replicate 288 0 else r.learning r.rseqL r.tWrite ++ r.stateRec r.rseqS r.tWrite

/-- C449h: both records. -/
def gaugeRecAct (d : Dev) (_ : Caller) (_ : List Byte) : Dev × Rsp := d.answer (.data d.energy.rec_.bytes)

/-- READ_GAUGE_RECORDS, C449h (R274, R275, R419). -/
def execReadGaugeRecords (by_ : Fin 4) (uid : Nat) (payload : List Byte) (dt : Nat) (s : State) : Res := s.run fun d =>
  (d.elapse dt).jcsDo 0xC449 noCheck gaugeRecAct { p := by_.val, uid := uid } payload

/-! ### Thermal (R306, R307, R420) -/

/-- C450h: the thermal registers, crossing counts and board counts. -/
def thermAct (d : Dev) (_ : Caller) (_ : List Byte) : Dev × Rsp :=
  let dw (o : Nat) : List Byte := leBytes 8 (d.dwRead 0 o)
  let n (l : List Nat) : List Byte := leBytes 2 (min 65535 (d.within hour l).length)
  let lvl (i k : Nat) : List Byte := n (((d.boardIn i).cross.filter fun e => e.1 == k).map fun e => e.2)
  d.answer (.data ((List.range 72).flatMap (fun i => dw (0x1000 + 8 * i)) ++ tiles8.flatMap (fun t => dw (0xF40 + 8 * t)) ++ dw 0xF00
    ++ tiles8.flatMap (fun t => n (d.ttile t).crossW ++ n (d.ttile t).crossT)
    ++ tiles8.flatMap fun i => lvl i 0 ++ lvl i 1 ++ lvl i 2))

/-- GET_THERMAL, C450h (R420). -/
def execGetThermal (by_ : Fin 4) (uid : Nat) (payload : List Byte) (dt : Nat) (s : State) : Res := s.run fun d =>
  (d.elapse dt).jcsDo 0xC450 noCheck thermAct { p := by_.val, uid := uid } payload

/-- The thermal settings with the fields that C451h's MASK selects. -/
def thermSet (x : Therm) (p : List Byte) : Therm :=
  let m := fieldAt p 0 2
  { x with
    warnC := pick m 0 (fieldAt p 2 1) x.warnC, throttleC := pick m 1 (fieldAt p 3 1) x.throttleC, shutC := pick m 2 (fieldAt p 4 1) x.shutC
    warnHys := pick m 3 (fieldAt p 5 1) x.warnHys, throttleHys := pick m 4 (fieldAt p 6 1) x.throttleHys
    shutHys := pick m 5 (fieldAt p 7 1) x.shutHys, stepS := pick m 6 (fieldAt p 8 1) x.stepS, coolWait := pick m 7 (fieldAt p 10 2) x.coolWait
    restartMax := pick m 8 (fieldAt p 9 1) x.restartMax }

/-- Settings within the ranges and orderings of R307. -/
def Therm.setOk (x : Therm) : Bool :=
  within 60 105 x.warnC && within 80 110 x.throttleC && within 95 118 x.shutC && within 1 10 x.warnHys && within 1 10 x.throttleHys
    && within 5 20 x.shutHys && within 2 60 x.stepS && within 60 3600 x.coolWait && within 0 8 x.restartMax
    && decide (x.warnC < x.throttleC) && decide (x.throttleC + 6 ≤ x.shutC)

/-- C451h: the settings that would result keep every range and ordering. -/
def thermCheck (d : Dev) (_ : Caller) (p : List Byte) : Nat := orErr (thermSet d.therm p).setOk 2

/-- C451h: the settings change, and their record is due (R307). -/
def thermSetAct (d : Dev) (_ : Caller) (p : List Byte) : Dev × Rsp := ((d.onTherm fun x => thermSet x p).recDue 0x62, {})

/-- SET_THERMAL, C451h (R307, R420). -/
def execSetThermal (by_ : Fin 4) (uid : Nat) (payload : List Byte) (dt : Nat) (s : State) : Res := s.run fun d =>
  (d.elapse dt).jcsDo 0xC451 thermCheck thermSetAct { p := by_.val, uid := uid } payload

/-- C452h: thresholds of 0 to 125 °C. -/
def boardCheck (_ : Dev) (_ : Caller) (p : List Byte) : Nat :=
  orErr (tiles8.all fun i => [0, 1, 2].all fun k => decide (fieldAt p (4 * i + k) 1 ≤ 125)) 2

/-- C452h: board thresholds and masks, in force at the next package reset (R292, R293, R307). -/
def boardAct (d : Dev) (_ : Caller) (p : List Byte) : Dev × Rsp :=
  let row (i : Nat) : Nat × BoardIn := (i, { warn := fieldAt p (4 * i) 1, thr := fieldAt p (4 * i + 1) 1, shut := fieldAt p (4 * i + 2) 1
                                             mask := BitVec.ofNat 8 (fieldAt p (4 * i + 3) 1) })
  ((d.onTherm fun x => { x with boardNext := some (tiles8.map row) }).recDue 0x61, {})

/-- SET_BOARD_THRESHOLDS, C452h (R293, R420). -/
def execSetBoardThresholds (by_ : Fin 4) (uid : Nat) (payload : List Byte) (dt : Nat) (s : State) : Res := s.run fun d =>
  (d.elapse dt).jcsDo 0xC452 boardCheck boardAct { p := by_.val, uid := uid } payload

/-- C453h: MAX of at most 64. -/
def thermRecCheck (_ : Dev) (_ : Caller) (p : List Byte) : Nat := orErr (decide (fieldAt p 0 1 ≤ 64)) 2

/-- C453h: thermal records, newest first. -/
def thermRecAct (d : Dev) (_ : Caller) (p : List Byte) : Dev × Rsp :=
  d.answer (.data ((d.therm.recs.take (fieldAt p 0 1)).flatMap ThermRec.bytes))

/-- READ_THERMAL_RECORDS, C453h (R306, R420). -/
def execReadThermalRecords (by_ : Fin 4) (uid : Nat) (payload : List Byte) (dt : Nat) (s : State) : Res := s.run fun d =>
  (d.elapse dt).jcsDo 0xC453 thermRecCheck thermRecAct { p := by_.val, uid := uid } payload

end Sys2Proof.Machine
end

