-- ==== Sys2Proof/Machine/Jcs3.lean ====
section
/-! DEFINITION. The Flint, snapshot, time and lattice commands, C460h to C49Fh (R421 to R424). -/

namespace Sys2Proof.Machine

/-! ### Flint (R324, R329 to R333, R421) -/

/-- C460h: collector 0 to 9, MAX of at most 511. -/
def logCheck (_ : Dev) (_ : Caller) (p : List Byte) : Nat := orErr (decide (fieldAt p 0 1 ≤ 9) && decide (fieldAt p 8 2 ≤ 511)) 2

/-- C460h: entries from FROM_LSEQ on, oldest first, the LSEQ after them, and whether older ones have been overwritten. -/
def logAct (d : Dev) (_ : Caller) (p : List Byte) : Dev × Rsp :=
  let c := fieldAt p 0 1
  let log := (if c = 9 then d.flint.prevLog else (d.coll c).log).reverse
  let from_ := fieldAt p 4 4
  let es := (log.filter fun e => decide (from_ ≤ e.lseq)).take (fieldAt p 8 2)
  let next := match es.getLast? with
    | some e => e.lseq + 1
    | none => from_
  let lostOld := match log.head? with
    | some e => decide (from_ < e.lseq)
    | none => false
  d.answer (.data (fields [(4, es.length), (4, next), (1, bit lostOld), (23, 0)] ++ es.flatMap LogEntry.bytes))

/-- READ_LOG, C460h (R331, R421). -/
def execReadLog (by_ : Fin 4) (uid : Nat) (payload : List Byte) (dt : Nat) (s : State) : Res := s.run fun d =>
  (d.elapse dt).jcsDo 0xC460 logCheck logAct { p := by_.val, uid := uid } payload

/-- C461h: collector 0 to 17. -/
def ffCheck (_ : Dev) (_ : Caller) (p : List Byte) : Nat := orErr (decide (fieldAt p 0 1 ≤ 17)) 2

/-- C461h: the record of a collector, or of the previous boot (R333, R421). -/
def ffAct (d : Dev) (_ : Caller) (p : List Byte) : Dev × Rsp :=
  let c := fieldAt p 0 1
  d.answer (.data (if c ≤ 8 then (d.coll c).ff else tget d.flint.prevFf {} (c - 9)).bytes)

/-- READ_FIRST_FAULT, C461h (R333, R421). -/
def execReadFirstFault (by_ : Fin 4) (uid : Nat) (payload : List Byte) (dt : Nat) (s : State) : Res := s.run fun d =>
  (d.elapse dt).jcsDo 0xC461 ffCheck ffAct { p := by_.val, uid := uid } payload

/-- C462h: collector 0 to 8 whose record is valid and has the LSEQ named (R324). -/
def ackCheck (d : Dev) (_ : Caller) (p : List Byte) : Nat :=
  let f := (d.coll (fieldAt p 0 1)).ff
  orErr (decide (fieldAt p 0 1 ≤ 8) && f.valid && f.lseq == fieldAt p 4 4) 2

/-- C462h: VALID clears; a tile's own record releases the hold of its TFAULT_N (R324, R330). -/
def ackAct (d : Dev) (_ : Caller) (p : List Byte) : Dev × Rsp :=
  let c := fieldAt p 0 1
  let d := d.onColl c fun x => { x with ff := { x.ff with valid := false, held := false } }
  let d := if c < 8 then d.onFlint fun f => { f with tfHold := mclr f.tfHold c } else d
  (d.fltShow, {})

/-- ACKNOWLEDGE, C462h (R324, R421). -/
def execAcknowledge (by_ : Fin 4) (uid : Nat) (payload : List Byte) (dt : Nat) (s : State) : Res := s.run fun d =>
  (d.elapse dt).jcsDo 0xC462 ackCheck ackAct { p := by_.val, uid := uid } payload

/-- A source ID that the part populates (R313). -/
def populated (src : Nat) : Bool := if src < 768 then decide (src % 96 ≤ 77) else within 768 859 src

/-- The kind codes (R312). -/
def kindCodes : List Nat := [0x80, 0x81, 0x82, 0x83, 0x84, 0x85, 0x86, 0x40, 0x41, 0x42, 0x43, 0x44, 0x45, 0x46,
  0x20, 0x21, 0x22, 0x23, 0x24, 0x25, 0x26, 0x27, 0x10, 0x11, 0x12, 0x13, 0x14, 0x15, 0x16, 0x17]

/-- The tile offsets at which some event or fault is named Corrected, Degraded, Urgent or Fatal (R33, R95, R143, R150, R160, R161, R167,
R253, R302, R305, R316, R321, R441, R444, R448, R521). -/
def sevOffsets (sev : Nat) : List Nat :=
  match sev with
  | 1 => [1, 2, 5, 6, 9, 10, 13, 14, 37, 54, 63, 64]
  | 2 => (List.range 16) ++ (List.range 16).map (fun i => 18 + i) ++ [37, 38, 40, 47, 48, 49, 53, 54, 55, 56, 57, 58, 59, 60, 61, 68]
  | 4 => [50, 51, 52]
  | _ => [50, 51, 52, 61]

/-- The package sources at which some event or fault is named at a severity (R19, R21, R78, R286, R287, R302, R341, R360, R395, R487, R492, R496,
R501, R521). -/
def sevSources (sev : Nat) : List Nat :=
  match sev with
  | 1 => [784, 785, 786, 787, 788, 789]
  | 2 => [784, 785, 786, 787, 788, 789, 790, 791, 792, 794, 802, 804, 806, 807, 808, 809, 811, 816, 819, 820, 821, 822, 823, 824, 825, 826, 828,
      831, 833, 834, 835, 836]
  | 4 => [801, 831]
  | _ => [815]

/-- A severity that a force may give a source: Note always, Contained for any (R315), else where the manual names one (R329). -/
def sevNamed (src sev : Nat) : Bool :=
  if sev = 0 ∨ sev = 3 then true
  else if src < 768 then (sevOffsets sev).contains (src % 96) else (sevSources sev).contains src

/-- C463h: a populated source, a kind of R312, a severity that R329 allows, and no Fatal message with REACT. -/
def injectCheck (_ : Dev) (_ : Caller) (p : List Byte) : Nat :=
  let src := fieldAt p 0 2
  let sev := fieldAt p 3 1
  orErr (populated src && kindCodes.contains (fieldAt p 2 1) && decide (sev ≤ 5) && !(sev == 5 && (fieldAt p 4 1).testBit 1) && sevNamed src sev) 2

/-- C463h: the detector presents the message, and its collectors log it; the answer gives its LSEQ in the package log (R329). -/
def injectAct (d : Dev) (_ : Caller) (p : List Byte) : Dev × Rsp :=
  let src := fieldAt p 0 2
  let m : FlintMsg := {
    src := src, kind := BitVec.ofNat 8 (fieldAt p 2 1), sev := fieldAt p 3 1, tile := if src < 768 then src / 96 else d.pkg.lead
    av := (fieldAt p 4 1).testBit 0, atag := fieldAt p 8 8 % 2 ^ 39, forced := true, react := (fieldAt p 4 1).testBit 1 }
  let c := collOf src
  let d := (((d.flush c 64).deliver m).flush c 64)
  let lseq := (((d.coll 8).log.find? fun e => e.flags.getLsbD 0).map fun e => e.lseq).getD 0xFFFFFFFF
  (d, .data (leBytes 4 lseq))

/-- INJECT, C463h (R329, R421). -/
def execInject (by_ : Fin 4) (uid : Nat) (payload : List Byte) (dt : Nat) (s : State) : Res := s.run fun d =>
  (d.elapse dt).jcsDo 0xC463 injectCheck injectAct { p := by_.val, uid := uid } payload

/-- C464h: HOLD of 0 or 1. -/
def holdTfCheck (_ : Dev) (_ : Caller) (p : List Byte) : Nat := orErr (within 0 1 (fieldAt p 1 1)) 2

/-- C464h: TFAULT_N of the tiles named is held, each having a valid first-fault record, or let go (R330). -/
def holdTfAct (d : Dev) (_ : Caller) (p : List Byte) : Dev × Rsp :=
  let m := BitVec.ofNat 8 (fieldAt p 0 1)
  let ts := tiles8.filter fun t => mbit m t
  let on := fieldAt p 1 1 == 1
  if on ∧ !(ts.all fun t => (d.coll t).ff.valid) then (d, .err 4)
  else
    let d := d.onFlint fun f => { f with tfHold := if on then f.tfHold ||| m else f.tfHold &&& ~~~m }
    let d := ts.foldl (fun d t => d.onColl t fun x => { x with ff := { x.ff with held := on } }) d
    (d.fltShow, {})

/-- HOLD_TFAULT_N, C464h (R330, R421). -/
def execHoldTfaultN (by_ : Fin 4) (uid : Nat) (payload : List Byte) (dt : Nat) (s : State) : Res := s.run fun d =>
  (d.elapse dt).jcsDo 0xC464 holdTfCheck holdTfAct { p := by_.val, uid := uid } payload

/-- C465h: COUNT of at most 1,024, within the source IDs. -/
def countsCheck (_ : Dev) (_ : Caller) (p : List Byte) : Nat :=
  if 1024 < fieldAt p 2 2 then 2 else orErr (decide (fieldAt p 0 2 + fieldAt p 2 2 ≤ 1024)) 3

/-- C465h: eight bytes for each source (R332). -/
def countsAct (d : Dev) (_ : Caller) (p : List Byte) : Dev × Rsp :=
  d.answer (.data ((List.range (fieldAt p 2 2)).flatMap fun i =>
    let s := fieldAt p 0 2 + i
    fields [(4, tget d.flint.ce 0 s), (2, tget d.flint.sev2 0 s), (2, 0)]))

/-- READ_COUNTS, C465h (R332, R421). -/
def execReadCounts (by_ : Fin 4) (uid : Nat) (payload : List Byte) (dt : Nat) (s : State) : Res := s.run fun d =>
  (d.elapse dt).jcsDo 0xC465 countsCheck countsAct { p := by_.val, uid := uid } payload

/-! ### Snapshots (R353 to R359, R422) -/

/-- C470h: a capture into a free bank of 1 to 3 (R353, R354). -/
def snapAct (d : Dev) (c : Caller) (_ : List Byte) : Dev × Rsp :=
  match d.snapBank false with
  | none => (d, { ext := 9, out := conflictOut 255 0 })
  | some b =>
    let id := d.snap.nextReq
    let d := d.onSnap fun s => { s with nextReq := (id + 1) % 2 ^ 32 }
    (d.snapCapture 2 c.p 0 id 0, .data (fields [(1, b), (3, 0), (4, id)]))

/-- TAKE_SNAPSHOT, C470h (R354, R422). -/
def execTakeSnapshot (by_ : Fin 4) (uid : Nat) (payload : List Byte) (dt : Nat) (s : State) : Res := s.run fun d =>
  (d.elapse dt).jcsDo 0xC470 noCheck snapAct { p := by_.val, uid := uid } payload

/-- C471h: BASE 0, or 1 on a node with lattice time; a time from 1 ms to 24 h ahead (R356). -/
def schedCheck (d : Dev) (_ : Caller) (p : List Byte) : Nat :=
  let useL := fieldAt p 0 1
  let now : Int := if useL = 1 then d.lTime else d.qtz.count
  let ahead := (fieldAt p 8 8 : Int) - now
  orErr (decide (useL ≤ 1) && (useL == 0 || d.qtz.hasTime) && decide (1000000 ≤ ahead) && decide (ahead ≤ 86400000000000)) 2

/-- C471h: a trigger is scheduled, unless eight are pending (R356). -/
def schedAct (d : Dev) (c : Caller) (p : List Byte) : Dev × Rsp :=
  if 8 ≤ d.snap.sched.length then (d, { ext := 9, out := conflictOut 255 0 })
  else
    let id := d.snap.nextReq
    let x : SnapSched := { id := id, useL := fieldAt p 0 1 == 1, time := fieldAt p 8 8, owner := c.p }
    ((d.onSnap fun s => { s with nextReq := (id + 1) % 2 ^ 32, sched := s.sched ++ [x] }).snapUpd, .data (leBytes 4 id))

/-- SCHEDULE_SNAPSHOT, C471h (R356, R422). -/
def execScheduleSnapshot (by_ : Fin 4) (uid : Nat) (payload : List Byte) (dt : Nat) (s : State) : Res := s.run fun d =>
  (d.elapse dt).jcsDo 0xC471 schedCheck schedAct { p := by_.val, uid := uid } payload

/-- C472h: lattice time, a time in L from 10 ms to 24 h ahead, and the node IDs listed (R356, R357). -/
def latSnapCheck (d : Dev) (_ : Caller) (p : List Byte) : Nat :=
  let ahead := (fieldAt p 8 8 : Int) - d.lTime
  orErr (d.qtz.hasTime && decide (10000000 ≤ ahead) && decide (ahead ≤ 86400000000000) && decide (32 + 2 * fieldAt p 16 2 ≤ p.length || fieldAt p 16 2 = 0)) 2

/-- C472h: the trigger is scheduled here and sent to the nodes listed, or to all; the answer follows (R357, R392). -/
def latSnapAct (d : Dev) (c : Caller) (p : List Byte) : Dev × Rsp :=
  let id := d.snap.nextReq
  let time := fieldAt p 8 8
  let nodes := (List.range (fieldAt p 16 2)).map fun i => fieldAt p (32 + 2 * i) 2
  let own := d.lat.nodeId
  let code := d.trigCode time
  let r : SnapReq := { reqId := id, by_ := c.p, tag := c.tag, nodes := nodes, sent := d.now
                       answers := if nodes.isEmpty ∨ own ∈ nodes then [(own, code)] else [] }
  let x : SnapSched := { id := id, useL := true, time := time, owner := c.p, reqNode := own }
  let d := d.onSnap fun s => { s with nextReq := (id + 1) % 2 ^ 32, reqs := s.reqs ++ [r], sched := if code = 0 then s.sched ++ [x] else s.sched }
  let d := d.snapUpd
  let d := if nodes.isEmpty then d.sendBroadcast 8 1 [0, id, 0, 0, own, time]
    else (nodes.filter fun n => n != own).foldl (fun d n => d.sendNode n 8 1 [0, id, 0, 0, own, time] []) d
  (if !nodes.isEmpty ∧ nodes.all (fun n => n == own) then d.snapReqEnd r else d, { later := true })

/-- LATTICE_SNAPSHOT, C472h (R357, R392, R422). -/
def execLatticeSnapshot (by_ : Fin 4) (uid : Nat) (payload : List Byte) (dt : Nat) (s : State) : Res := s.run fun d =>
  (d.elapse dt).jcsDo 0xC472 latSnapCheck latSnapAct { p := by_.val, uid := uid } payload

/-- C473h: bank 0 to 4. -/
def readSnapCheck (_ : Dev) (_ : Caller) (p : List Byte) : Nat := orErr (decide (fieldAt p 0 1 ≤ 4)) 2

/-- Whole sections of a list within a budget of bytes. -/
def sectionsIn : List SnapSection → Nat → List Byte
  | [], _ => []
  | x :: r, n => if x.bytes.length ≤ n then x.bytes ++ sectionsIn r (n - x.bytes.length) else []

/-- C473h: the header and whole sections, up to MAX or 16 KiB; bank 4 is the previous boot's (R358, R359). -/
def readSnapAct (d : Dev) (_ : Caller) (p : List Byte) : Dev × Rsp :=
  let b := if fieldAt p 0 1 = 4 then d.snap.prevBoot.getD {} else tget d.snap.banks {} (fieldAt p 0 1)
  if b.state = 0 then (d, .err 4)
  else d.answer (.data (b.header ++ sectionsIn ((b.sections.drop (fieldAt p 2 2)).take (fieldAt p 4 2)) (16384 - 64)))

/-- READ_SNAPSHOT, C473h (R358, R359, R422). -/
def execReadSnapshot (by_ : Fin 4) (uid : Nat) (payload : List Byte) (dt : Nat) (s : State) : Res := s.run fun d =>
  (d.elapse dt).jcsDo 0xC473 readSnapCheck readSnapAct { p := by_.val, uid := uid } payload

/-- C474h: bank 0 to 3, released by SB, or a bank other than 0 by its owner. -/
def relBankCheck (d : Dev) (c : Caller) (p : List Byte) : Nat :=
  let n := fieldAt p 0 1
  let b := tget d.snap.banks {} n
  if 3 < n then 2 else orErr (c.p == 2 || n != 0 && b.state != 0 && b.owner == c.p) 5

/-- C474h: the bank is free (R359). -/
def relBankAct (d : Dev) (_ : Caller) (p : List Byte) : Dev × Rsp :=
  ((d.onSnap fun s => { s with banks := tset s.banks (fieldAt p 0 1) {} }).snapUpd, {})

/-- RELEASE_BANK, C474h (R359, R422). -/
def execReleaseBank (by_ : Fin 4) (uid : Nat) (payload : List Byte) (dt : Nat) (s : State) : Res := s.run fun d =>
  (d.elapse dt).jcsDo 0xC474 relBankCheck relBankAct { p := by_.val, uid := uid } payload

/-- C475h: a pending REQ_ID, cancelled by SB or its requester. -/
def cancelCheck (d : Dev) (c : Caller) (p : List Byte) : Nat :=
  match d.snap.sched.find? fun x => x.id == fieldAt p 0 4 with
  | none => 2
  | some x => orErr (c.p == 2 || x.owner == c.p) 5

/-- C475h: the trigger is no longer pending. -/
def cancelAct (d : Dev) (_ : Caller) (p : List Byte) : Dev × Rsp :=
  ((d.onSnap fun s => { s with sched := s.sched.filter fun x => x.id != fieldAt p 0 4 }).snapUpd, {})

/-- CANCEL_SCHEDULED, C475h (R422). -/
def execCancelScheduled (by_ : Fin 4) (uid : Nat) (payload : List Byte) (dt : Nat) (s : State) : Res := s.run fun d =>
  (d.elapse dt).jcsDo 0xC475 cancelCheck cancelAct { p := by_.val, uid := uid } payload

/-! ### Time (R340, R423) -/

/-- C480h: count, UTC, OFFSET, LOFF, QTZ_STATUS and QTZ_PPS_EDGE. -/
def timeAct (d : Dev) (_ : Caller) (_ : List Byte) : Dev × Rsp :=
  d.answer (.data (fields [(8, d.qtz.count), (8, twos 64 d.utcNow), (8, twos 64 d.qtz.offset), (8, twos 64 d.qtz.loff), (8, d.dwRead 0 0x2040),
    (8, d.qtz.ppsEdge)]))

/-- GET_TIME, C480h (R423). -/
def execGetTime (by_ : Fin 4) (uid : Nat) (payload : List Byte) (dt : Nat) (s : State) : Res := s.run fun d =>
  (d.elapse dt).jcsDo 0xC480 noCheck timeAct { p := by_.val, uid := uid } payload

/-- C481h: OFFSET and its accuracy, which becomes UNC (R340). -/
def offsetAct (d : Dev) (_ : Caller) (p : List Byte) : Dev × Rsp :=
  let d := d.setOffset (signed 64 (fieldAt p 0 8)) 1
  ((d.onQtz fun q => { q with unc := min 65535 (fieldAt p 8 4), uncTime := d.now }).qtzUpd, {})

/-- SET_OFFSET, C481h (R340, R423). -/
def execSetOffset (by_ : Fin 4) (uid : Nat) (payload : List Byte) (dt : Nat) (s : State) : Res := s.run fun d =>
  (d.elapse dt).jcsDo 0xC481 noCheck offsetAct { p := by_.val, uid := uid } payload

/-- C482h: each field that MASK selects is 0 or 1. -/
def timeOptCheck (_ : Dev) (_ : Caller) (p : List Byte) : Nat :=
  orErr ([0, 1, 2, 3].all fun i => maskOk (fieldAt p 0 1) i (within 0 1 (fieldAt p (1 + i) 1))) 2

/-- C482h: PPS_EN, PPS_OUT_EN, SNAP_IN_EN and ROOT_EN (R343, R349, R351, R354). -/
def timeOptAct (d : Dev) (_ : Caller) (p : List Byte) : Dev × Rsp :=
  let m := fieldAt p 0 1
  let on (i : Nat) : Bool := fieldAt p (1 + i) 1 == 1
  let d := if m.testBit 0 && on 0 != d.qtz.ppsEn then
      d.uncSync.onQtz fun q => { q with ppsEn := on 0, ppsState := bit (on 0), ppsRun := 0, ppsRejects := 0, ppsLastValid := none }
    else d
  let d := d.onQtz fun q => { q with
    ppsOutEn := pick m 1 (on 1) q.ppsOutEn, snapInEn := pick m 2 (on 2) q.snapInEn, rootEn := pick m 3 (on 3) q.rootEn }
  let d := if d.qtz.isRoot then d.selfCandidate else d
  ((d.qtzUpd.snapUpd).recDue 0x62, {})

/-- SET_TIME_OPTIONS, C482h (R351, R423). -/
def execSetTimeOptions (by_ : Fin 4) (uid : Nat) (payload : List Byte) (dt : Nat) (s : State) : Res := s.run fun d =>
  (d.elapse dt).jcsDo 0xC482 timeOptCheck timeOptAct { p := by_.val, uid := uid } payload

/-! ### Lattice (R371, R375, R380, R384, R387, R389, R382, R424) -/

/-- C490h: a node ID, COUNT of at most 4,080. -/
def getLatCheck (_ : Dev) (_ : Caller) (p : List Byte) : Nat := orErr (decide (fieldAt p 0 2 < 4096) && decide (fieldAt p 2 2 ≤ 4080)) 2

/-- A route table entry in its 32 bits (R375). -/
def Route.word (r : Route) : Nat := put 0 3 r.pri + put 3 3 r.alt1 + put 6 3 r.alt2 + put 9 6 r.hops + put 15 1 (bit r.valid) + put 16 16 r.cost

/-- C490h: the lattice registers and route entries. -/
def getLatAct (d : Dev) (_ : Caller) (p : List Byte) : Dev × Rsp :=
  let f := fieldAt p 0 2
  d.answer (.data (leBytes 8 (d.dwRead 0 0x1800) ++ (List.range 6).flatMap (fun l => leBytes 8 (d.dwRead 0 (0x1840 + 8 * l))) ++ leBytes 8 0
    ++ (List.range (min (fieldAt p 2 2) (4096 - f))).flatMap fun i => leBytes 4 (tget d.lat.routes {} (f + i)).word))

/-- GET_LATTICE, C490h (R375, R394, R424). -/
def execGetLattice (by_ : Fin 4) (uid : Nat) (payload : List Byte) (dt : Nat) (s : State) : Res := s.run fun d =>
  (d.elapse dt).jcsDo 0xC490 getLatCheck getLatAct { p := by_.val, uid := uid } payload

/-- C491h: a link, and each field that MASK selects within its values (R375, R381). -/
def setLinkCheck (_ : Dev) (_ : Caller) (p : List Byte) : Nat :=
  let m := fieldAt p 1 1
  let a := signed 16 (fieldAt p 4 2)
  orErr (decide (fieldAt p 0 1 ≤ 5) && maskOk m 1 (within 1 255 (fieldAt p 3 1)) && maskOk m 2 (decide (-500 ≤ a) && decide (a ≤ 500))) 2

/-- C491h: a link is enabled, DISABLED to DOWN, or disabled; its COST, which is advertised; its asymmetry (R371, R374, R375, R381). A strap
that holds every link DISABLED stands (R490). -/
def setLinkAct (d : Dev) (_ : Caller) (p : List Byte) : Dev × Rsp :=
  let l := fieldAt p 0 1
  let m := fieldAt p 1 1
  let on := (fieldAt p 2 1).testBit 0
  let d :=
    if !m.testBit 0 then d
    else if !on then (if (d.link l).state = 0 then d.onLink l fun k => { k with disabledBy := 1 } else d.linkDisable l 1)
    else if (d.link l).state = 0 ∧ !d.panel.strapNoLat then d.onLink l fun k => { k with state := 1, disabledBy := 0 }
    else d
  let d := if m.testBit 2 then d.onLink l fun k => { k with asym := signed 16 (fieldAt p 4 2) } else d
  let d := if m.testBit 1 then
      let d := d.onLink l fun k => { k with costSet := some (fieldAt p 3 1), cost := fieldAt p 3 1 }
      if (d.link l).state = 4 ∨ (d.link l).state = 5 then (d.onLat fun x => { x with routeDue := true }).sendLsa else d
    else d
  ((d.recDue 0x68).latShow, {})

/-- SET_LINK, C491h (R371, R375, R381, R424). -/
def execSetLink (by_ : Fin 4) (uid : Nat) (payload : List Byte) (dt : Nat) (s : State) : Res := s.run fun d =>
  (d.elapse dt).jcsDo 0xC491 setLinkCheck setLinkAct { p := by_.val, uid := uid } payload

/-- C492h: a context ID, ACTION 0 or 1. -/
def grantCheck (_ : Dev) (_ : Caller) (p : List Byte) : Nat := orErr (decide (ctxOf p < 0x4000) && within 0 1 (fieldAt p 3 1)) 2

/-- C492h: services are added to the grant of a context and a peer, or taken from it; at most 1,024 grants (R380). -/
def grantAct (d : Dev) (_ : Caller) (p : List Byte) : Dev × Rsp :=
  let c := ctxOf p
  let u := fieldAt p 8 8
  let svc := BitVec.ofNat 8 (fieldAt p 2 1 % 8)
  let same (g : Grant) : Bool := g.context == c && g.uid == u
  let i := (d.lat.grants.findIdx? same).getD d.lat.grants.length
  let d' (f : List Grant → List Grant) : Dev := (d.onLat fun x => { x with grants := f x.grants }).recDue (0x6900 + min i 1023 / 128)
  if fieldAt p 3 1 = 1 then
    (d' fun l => (l.map fun g => if same g then { g with svc := g.svc &&& ~~~svc } else g).filter fun g => g.svc != 0, {})
  else if d.lat.grants.any same then (d' fun l => l.map fun g => if same g then { g with svc := g.svc ||| svc } else g, {})
  else if svc = 0 then (d, {})
  else if 1024 ≤ d.lat.grants.length then (d, .err 0x12)
  else (d' fun l => l ++ [{ context := c, uid := u, svc := svc }], {})

/-- SET_GRANT, C492h (R380, R424). -/
def execSetGrant (by_ : Fin 4) (uid : Nat) (payload : List Byte) (dt : Nat) (s : State) : Res := s.run fun d =>
  (d.elapse dt).jcsDo 0xC492 grantCheck grantAct { p := by_.val, uid := uid } payload

/-- A stream or migration of a context that has not ended (R384). -/
def Dev.liveStream (d : Dev) (c : Nat) : Option Stream :=
  d.lat.streams.find? fun s => s.outgoing && s.local_ == c && s.state != 4 && s.state != 0x13 && s.state != 0x14

/-- Set up a stream or migration with a peer (R384, R389): refused for a FREE or SANITIZING context or one that has a stream already, beyond
the node's limit, or with no route to the peer. -/
def Dev.openStream (d : Dev) (new : Stream) (limit : Nat) : Dev × Rsp :=
  let c := new.local_
  let n := d.lat.streams.countP fun s => s.outgoing && s.migration == new.migration && s.state != 4 && s.state != 0x13 && s.state != 0x14
  if (d.ctx c).state = 0 ∨ (d.ctx c).state = 4 ∨ (d.liveStream c).isSome then (d, .err 4)
  else if limit ≤ n then (d, .err 0x12)
  else if d.nodeOf new.uid = 0 ∨ (d.routeLink (d.nodeOf new.uid)).isNone then (d, .err 0x11)
  else
    let id := d.lat.nextSession
    let x : Stream := { new with session := id, outgoing := true, setup := true, peerOpen := true, by_ := 2, lastAns := d.now }
    let d := d.onLat fun l => { l with
      nextSession := (id + 1) % 2 ^ 32, streams := (l.streams.filter fun s => !(s.outgoing && s.local_ == c)) ++ [x] }
    (d.sendMsg x.uid 7 2 [if x.migration then 2 else 1, id, 0, 0, c, x.peerCtx, (d.persistGrans c).length], { bg := some id })

/-- C493h: context IDs, RATE_MBS of 1 to 13,700, another node as peer (R384, R385). -/
def replicaCheck (d : Dev) (_ : Caller) (p : List Byte) : Nat :=
  orErr (decide (ctxOf p < 0x4000) && decide (fieldAt p 2 2 < 0x4000) && within 1 13700 (fieldAt p 4 4) && fieldAt p 8 8 != d.lat.uid) 2

/-- C493h: the peer is asked (R384). -/
def replicaAct (d : Dev) (_ : Caller) (p : List Byte) : Dev × Rsp :=
  d.openStream { local_ := ctxOf p, peerCtx := fieldAt p 2 2, uid := fieldAt p 8 8, rate := fieldAt p 4 4 } 1024

/-- CREATE_REPLICA, C493h (R384, R424). -/
def execCreateReplica (by_ : Fin 4) (uid : Nat) (payload : List Byte) (dt : Nat) (s : State) : Res := s.run fun d =>
  (d.elapse dt).jcsDo 0xC493 replicaCheck replicaAct { p := by_.val, uid := uid } payload

/-- C494h: ACTION 1 to 3, and a rate within its values where one is set. -/
def ctlReplicaCheck (_ : Dev) (_ : Caller) (p : List Byte) : Nat :=
  orErr (within 1 3 (fieldAt p 2 1) && (fieldAt p 2 1 != 2 || within 1 13700 (fieldAt p 4 4))) 2

/-- C494h: the stream of a context is deleted, takes a rate, or begins RESYNC, at once or when its peer answers again (R385, R387). -/
def ctlReplicaAct (d : Dev) (_ : Caller) (p : List Byte) : Dev × Rsp :=
  match d.liveStream (ctxOf p) with
  | none => (d, .err 4)
  | some x =>
    if x.migration then (d, .err 4)
    else match fieldAt p 2 1 with
      | 1 => (d.stopStream x, {})
      | 2 => (d.onStream x.session fun s => { s with rate := fieldAt p 4 4 }, {})
      | _ =>
        if x.setup then (d, .err 4)
        else if x.state = 2 then (d.onStream x.session fun s => { s with resync := true }, {})
        else ((d.startCopy x.session 3).raise 792 0x14 0 (ctx := x.local_), {})

/-- CONTROL_REPLICA, C494h (R387, R424). -/
def execControlReplica (by_ : Fin 4) (uid : Nat) (payload : List Byte) (dt : Nat) (s : State) : Res := s.run fun d =>
  (d.elapse dt).jcsDo 0xC494 ctlReplicaCheck ctlReplicaAct { p := by_.val, uid := uid } payload

/-- C495h: LIST 0 to 2, MAX of at most 341. -/
def streamCheck (_ : Dev) (_ : Caller) (p : List Byte) : Nat := orErr (decide (fieldAt p 0 1 ≤ 2) && decide (fieldAt p 4 2 ≤ 341)) 2

/-- The 48 bytes of a stream or migration (R387, R424). -/
def Dev.streamBytes (d : Dev) (s : Stream) : List Byte :=
  let lag := match s.bits with
    | b :: r => (d.lTime.toNat - (r.foldl (fun m x => min m x.2) b.2)) / 1000000
    | [] => 0
  fields [(2, s.local_), (2, s.peerCtx), (1, s.state), (3, 0), (8, s.uid), (4, lag), (4, s.session), (8, 4096 * s.bits.length), (8, s.acked), (8, 0)]

/-- C495h: the streams of a list from FIRST on. -/
def streamAct (d : Dev) (_ : Caller) (p : List Byte) : Dev × Rsp :=
  let l := fieldAt p 0 1
  let ss := d.lat.streams.filter fun s => if l = 2 then s.migration else !s.migration && s.outgoing == (l == 0)
  d.answer (.data (((ss.drop (fieldAt p 2 2)).take (fieldAt p 4 2)).flatMap d.streamBytes))

/-- STREAM_STATUS, C495h (R387, R424). -/
def execStreamStatus (by_ : Fin 4) (uid : Nat) (payload : List Byte) (dt : Nat) (s : State) : Res := s.run fun d =>
  (d.elapse dt).jcsDo 0xC495 streamCheck streamAct { p := by_.val, uid := uid } payload

/-- C496h: context IDs, AUTO_SWITCH of 0 or 1, SWITCH_GIB of 1 to 64, another node as peer (R389). -/
def migrateCheck (d : Dev) (_ : Caller) (p : List Byte) : Nat :=
  orErr (decide (ctxOf p < 0x4000) && decide (fieldAt p 2 2 < 0x4000) && within 0 1 (fieldAt p 4 1) && within 1 64 (fieldAt p 5 1)
    && fieldAt p 8 8 != d.lat.uid) 2

/-- C496h: the peer is asked (R384, R389). -/
def migrateAct (d : Dev) (_ : Caller) (p : List Byte) : Dev × Rsp :=
  d.openStream { local_ := ctxOf p, peerCtx := fieldAt p 2 2, uid := fieldAt p 8 8, migration := true, state := 0x10
                 autoSwitch := fieldAt p 4 1 == 1, switchGib := fieldAt p 5 1 } 8

/-- MIGRATE, C496h (R389, R424). -/
def execMigrate (by_ : Fin 4) (uid : Nat) (payload : List Byte) (dt : Nat) (s : State) : Res := s.run fun d =>
  (d.elapse dt).jcsDo 0xC496 migrateCheck migrateAct { p := by_.val, uid := uid } payload

/-- C497h: ACTION 1 or 2. -/
def ctlMigCheck (_ : Dev) (_ : Caller) (p : List Byte) : Nat := orErr (within 1 2 (fieldAt p 2 1)) 2

/-- C497h: the switch of a migration is ordered, before it has begun, or the migration is aborted (R389, R391). -/
def ctlMigAct (d : Dev) (_ : Caller) (p : List Byte) : Dev × Rsp :=
  match d.liveStream (ctxOf p) with
  | none => (d, .err 4)
  | some x =>
    if !x.migration then (d, .err 4)
    else if fieldAt p 2 1 = 2 then (d.abortMigration x, {})
    else if x.state = 0x12 then (d, .err 4)
    else ((d.onStream x.session fun s => { s with ordered := true }).switchCheck x.session, {})

/-- CONTROL_MIGRATION, C497h (R389, R391, R424). -/
def execControlMigration (by_ : Fin 4) (uid : Nat) (payload : List Byte) (dt : Nat) (s : State) : Res := s.run fun d =>
  (d.elapse dt).jcsDo 0xC497 ctlMigCheck ctlMigAct { p := by_.val, uid := uid } payload

/-- The participants of C498h: unique ID and context. -/
def ckptParts (p : List Byte) : List (Nat × Nat) := (List.range (fieldAt p 16 2)).map fun i => (fieldAt p (32 + 16 * i) 8, fieldAt p (40 + 16 * i) 2)

/-- C498h: lattice time, T_c from 100 ms to 24 h ahead, 1 to 256 participants, a REQ_ID that its principal has not pending; a head names
local contexts that it owns (R382, R424). -/
def ckptCheck (d : Dev) (c : Caller) (p : List Byte) : Nat :=
  let ahead := (fieldAt p 8 8 : Int) - d.lTime
  let n := fieldAt p 16 2
  let ps := ckptParts p
  let dup := d.lat.ckpts.any fun k => k.coord && !k.complete && k.by_ == c.p && k.reqId == fieldAt p 0 4
  if !(d.qtz.hasTime && decide (100000000 ≤ ahead) && decide (ahead ≤ 86400000000000) && within 1 256 n && decide (32 + 16 * n ≤ p.length)
      && ps.all (fun e => decide (e.2 < 0x4000)) && !dup) then 2
  else orErr (c.p == 2 || ps.all fun e => e.1 == d.lat.uid && (d.ctx e.2).owner == c.p + 1) 5

/-- C498h: every participant is asked (R382); at most 16 are pending (R383). -/
def ckptAct (d : Dev) (c : Caller) (p : List Byte) : Dev × Rsp :=
  let id := fieldAt p 0 4
  let tc := fieldAt p 8 8
  let ps := ckptParts p
  let pend := d.lat.ckpts.countP fun k => k.coord && !k.complete
  if 16 ≤ pend then (d, .err 0x12)
  else
    let k : Ckpt := { reqId := id, by_ := c.p, tc := tc, coord := true, uid := d.lat.uid, parts := ps.map fun e => { uid := e.1, context := e.2 } }
    let d := d.onLat fun x => { x with ckpts := (x.ckpts.filter fun y => !(y.coord && y.by_ == c.p && y.reqId == id)) ++ [k] }
    (ps.foldl (fun d e =>
      if e.1 = d.lat.uid then d.ckptRequest e.1 id tc e.2 else d.sendMsg e.1 5 1 [0, id, 0, 0, tc, d.lat.uid, e.2]) d, { bg := some id })

/-- LATTICE_CHECKPOINT, C498h (R382, R424). -/
def execLatticeCheckpoint (by_ : Fin 4) (uid : Nat) (payload : List Byte) (dt : Nat) (s : State) : Res := s.run fun d =>
  (d.elapse dt).jcsDo 0xC498 ckptCheck ckptAct { p := by_.val, uid := uid } payload

/-- The checkpoint that C499h names: SB's any, another principal's its own. -/
def Dev.ckptOf (d : Dev) (c : Caller) (id : Nat) : Option Ckpt :=
  d.lat.ckpts.find? fun k => k.coord && k.reqId == id && (c.p == 2 || k.by_ == c.p)

/-- C499h: a checkpoint that the caller may read. -/
def ckptResCheck (d : Dev) (c : Caller) (p : List Byte) : Nat := orErr (d.ckptOf c (fieldAt p 0 4)).isSome 2

/-- C499h: pending or complete, and each participant's status and T_s. -/
def ckptResAct (d : Dev) (c : Caller) (p : List Byte) : Dev × Rsp :=
  match d.ckptOf c (fieldAt p 0 4) with
  | none => (d, .err 2)
  | some k => d.answer (.data (fields [(1, bit k.complete), (3, 0), (2, k.parts.length), (10, 0)]
      ++ k.parts.flatMap fun x => fields [(8, x.uid), (2, x.context), (2, x.status), (4, 0), (8, x.ts)]))

/-- CHECKPOINT_RESULT, C499h (R382, R424). -/
def execCheckpointResult (by_ : Fin 4) (uid : Nat) (payload : List Byte) (dt : Nat) (s : State) : Res := s.run fun d =>
  (d.elapse dt).jcsDo 0xC499 ckptResCheck ckptResAct { p := by_.val, uid := uid } payload

end Sys2Proof.Machine
end

