-- ==== Sys2Proof/Machine/Restore.lean ====
section
/-! DEFINITION. Restore: the end of boot, the Strata mount, early open, demand fetch and bulk restore (chapter 04). -/

namespace Sys2Proof.Machine

/-! ### Boot (R17, R100, R109 to R111, R235, R276, R304, R305, R346, R450, R454, R489, R492) -/

/-- The count steps forward above a durable stamp (R346). -/
def Dev.timeFloor (d : Dev) (stamp : Nat) : Dev :=
  if d.qtz.running ∧ d.qtz.count ≤ stamp then (d.onQtz fun q => { q with count := stamp + 1 }).raise 804 0x14 0 else d

/-- The intent scan of a tile: each intent without a done or cancel line is cancelled, erased again, or marked done (R450); `half`
lists the sectors that fail blank check or margin verify. A valid slot with a half-erased sector is invalid (R464). -/
def Dev.intentScan (d : Dev) (t : Nat) (half : List Nat) : Dev :=
  let l := d.intents t
  let open_ := l.filter fun i => i.ltype == 0x49 && !(l.any fun j => (j.ltype == 0x44 || j.ltype == 0x43) && j.iseq == i.iseq)
  open_.foldl (fun d i =>
    let d := d.raise (tsrc t 53) 0x14 0 (detail := [i.sector, i.purpose])
    if tget (d.sl t).counters 0 i.sector ≤ i.ecount then d.intentPut t { i with ltype := 0x43 }
    else if half.contains i.sector then
      let d := (d.intentPut t { i with ltype := 0x43 }).eraseWhole t i.sector i.purpose
      let k := if i.sector < 0x2F then 0 else 1
      if 0x22 ≤ i.sector ∧ i.sector < 0x3C ∧ (d.urec t).state k = 1 then d.slotState t k 4 else d
    else d.intentPut t { i with ltype := 0x44 }) d

/-- A torn record: the previous copy is used, and the event names its type (R277, R454). -/
def Dev.tornRecord (d : Dev) (x : Nat × Nat) : Dev :=
  if x.2 = 0x47 ∨ x.2 = 0x48 then d.raise 806 0x83 0 (detail := [x.2]) else d.raise (tsrc (x.1 % 8) 53) 0x83 0 (detail := [x.2])

/-- Lead and deputy, by the boot self-tests, and the first mirroring of the package state (R17, R18, R118): T0 leads with T4 as deputy; T4 leads alone when T0 fails; any other tile whose
supervisor fails is isolated. -/
def Dev.bootRoles (d : Dev) (self : BitVec 8) : Dev :=
  let d := tiles8.foldl (fun d t => d.onTile t fun x => { x with supvOk := mbit self t }) d
  let d := d.onPkg fun p => { p with
    lead := if mbit self 0 then 0 else 4, deputy := if mbit self 0 ∧ mbit self 4 then some 4 else none, lastBeat := d.now }
  let d := if mbit self 0 ∧ !(mbit self 4) then d.raise 816 0x10 2 (tile := some 4) else d
  let d := if !(mbit self 0) ∧ !(mbit self 4) then
      ([0, 1].foldl (fun d h => d.onHead h fun x => { x with media := 3 }) d).bothLost
    else d
  ([1, 2, 3, 5, 6, 7].foldl (fun d t => if mbit self t then d else d.raise (tsrc t 50) 0x10 3) d).mirrorNow

/-- At boot a closed bay resumes from the state block when no opening of its latch was counted since, with σ_soc raised by 1 % and
0.01 % per hour; any other closed bay holds a new pack (R276). -/
def Dev.bayBoot (d : Dev) (b : Nat) : Dev :=
  let r := d.energy.rec_
  let st (i : Nat) : Nat := r.bytesS.getD (8 * b + i) 0
  let d := if !(d.bay b).latch then d.onBay b fun p => { p with state := 0, lock := false }
    else if !d.energy.bayLost ∧ r.rseqS ≠ 0 ∧ st 4 = (d.bay b).latchOpens then
      d.onBay b fun p => { p with
        state := 1, lock := true, resumed := true, soc := st 0, socAcc := 0
        sigSoc := min 2000 (st 1 + 100 + (d.now - r.tWrite) / hour), sigFine := 0, tRest := st 3, noRestMin := st 7 }
    else (d.insertPack b).onBay b fun p => { p with state := 1, lock := true }
  d.bayUpd b

/-- The sensors as read at a restart after a thermal seal: no on-die reading at or above SHUT_C − SHUT_HYS, and no board input at or above
its shutdown threshold less its hysteresis (R304). -/
def Dev.coolEnough (d : Dev) : Bool :=
  sensors.all fun n => decide (d.thrOf n 2 = 0) || decide ((d.sens n).temp < ((d.thrOf n 2 : Int) - d.hysOf n 2) * 16)

/-- A restart found too hot: a record of kind 03h, PWR_EN deasserted, and COOL_WAIT again (R304, R502). -/
def Dev.tooHot (d : Dev) : Dev :=
  let n := d.maxSensor sensors
  let d := (d.thermPend (d.thermRec 3 n (d.sens n).temp (d.thrOf n 2 * 16))).thermKeep.stampFloor
  d.hibernate 2 false

/-- DRAM was not kept: the restore runs phases 3 to 6 (R100, R129, R132, R235). -/
def Dev.toDramInit (d : Dev) : Dev :=
  let d := d.mountReset
  let d := tiles8.foldl (fun d t => d.tileChans t fun x => { x with state := 0, trainTries := 0, trained := false }) d
  (d.onRestore fun r => { r with phase := 3 }).restUpd

/-- A flash channel of a tile does not train after one retry: it is out of service, and its dies count as failed; with the ledger die gone
the tile cannot mount (R118, R134). -/
def Dev.flashChanLost (d : Dev) (t ch : Nat) : Dev :=
  let d := ((List.range 8).map fun k => ch + 16 * k).foldl (fun d die => if die = ledgerDie then d else d.retireDie t die) d
  if ch = 15 then d.raise (tsrc t 36) 0x81 3 else d

/-- BOOT_COMPLETE: phase 2 ends; a seal event record torn on T0 and on T4 is skipped (R108). `self`:
supervisors that pass self-test; `okA`, `okB`, `twinOk`: what verifies (R474, R475); `warmOk`:
tiles whose channels and canaries pass the check of R235; `half`, `torn`: (tile, sector) and (tile, record type) found by the scans;
`temps`: sensor codes read at a restart after a thermal seal; `geom`: blocks of a plane and NAND pages of a pSLC block, from the parameter
page; `untrained`: (tile, flash channel) that do not train (R109, R111, R129, R134, R304). -/
def execBootComplete (self okA okB warmOk : BitVec 8) (twinOk : Bool) (half torn : List (Nat × Nat)) (temps : List (Nat × BitVec 18))
    (geom : Nat × Nat) (untrained : List (Nat × Nat)) (dt : Nat) (s : State) : Res := s.run fun d =>
  let d := d.elapse dt
  if d.restore.phase ≠ 2 ∨ !d.panel.coreUp ∨ d.pkg.bedrock ∨ d.panel.resetDue then d
  else
    let d := tiles8.foldl (fun d t => d.intentScan t ((half.filter fun x => x.1 == t).map fun x => x.2)) d
    let d := torn.foldl Dev.tornRecord d
    let d := if torn.contains (0, 0x51) && torn.contains (4, 0x51) then (d.onSealing fun s => { s with last := s.last.drop 1 }).sealReport else d
    let d := d.timeFloor d.qtz.floorStamp
    let d := d.bootRoles self
    let d := d.panel.failCauses.foldl (fun d c => d.raise 831 0x26 2 (detail := [c])) d
    let d := d.onPanel fun p => { p with failCauses := [], attempts := 0, failedRestart := false }
    let d := match d.therm.critLatch with
      | some x => (d.thermPend { d.thermRec 2 x.1 (125 * 16) (125 * 16) with tEvent := x.2 }).onTherm fun y => { y with critLatch := none }
      | none => d
    let d := if d.therm.withheld then
        (d.raise (if d.therm.shutSensor < 0x40 then tsrc (d.therm.shutSensor / 8) 61 else sensSrc d.therm.shutSensor) 0x22 2
          (detail := [4])).onTherm fun y => { y with withheld := false }
      else d
    let d := if d.snap.cancelledEvent then (d.raise 837 0x14 0).onSnap fun x => { x with cancelledEvent := false } else d
    let d := if d.restore.thermalCheck then temps.foldl (fun d x => d.takeCode x.1 x.2.toInt) d else d
    if d.restore.thermalCheck && !d.coolEnough then d.tooHot
    else
      let d := d.onRestore fun r => { r with thermalCheck := false }
      let d := d.bootSlots okA okB twinOk
      if d.pkg.bedrock then d
      else
        let d := ([0, 1].foldl Dev.bayBoot d).onEnergy fun e => { e with bayLost := false }
        let d := d.onPanel fun p => { p with fWpN := false }
        let d := (d.onRestore fun r => { r with phaseEnd := tset r.phaseEnd 2 d.now }).qtzUpd
        let kept := d.restore.dramKept && !d.restore.forcedUnclean && d.inSvc.all fun t =>
          mbit warmOk t && [0, 1, 2, 3].all fun c => (d.chan t c).retValid
        let d := d.onRestore fun r => { r with forcedUnclean := false }
        let d := d.onStrata fun x => { x with planeBlocks := geom.1, slcPages := geom.2 }
        let d := if kept then (tiles8.foldl Dev.steerLoad d.dramCfgUpd).warmOpen else d.toDramInit
        untrained.foldl (fun d x => d.flashChanLost x.1 x.2) d

/-! ### Mount (R73, R114 to R118, R131, R155, R159) -/

/-- The record of a tile's ledger that decides its tier: the latest seal header or seal record without TEST, OPEN record, or MOUNT record with
COMMITTED (R105, R114). -/
def Dev.mountRec (d : Dev) (t : Nat) : Option LedgerEntry :=
  d.lastEntry t fun e => ((e.typ == 0x09 || e.typ == 0x0A) && !e.test) || e.typ == 0x0D || (e.typ == 0x0C && e.test)

/-- The tier that a record gives: 0 clean, 1 aborted after stage 2, 2 unclean loss (R114). -/
def tierOf (e : Option LedgerEntry) : Nat :=
  match e with
  | none => 0
  | some e => if e.typ = 0x0A then 0 else if e.typ = 0x09 then 1 else if e.typ = 0x0D then 2 else e.a

/-- A page enters the poison set, which its locator entry shows; the change enters the tail (R117, R144, R148). -/
def Dev.poisonLoc (d : Dev) (p : Nat) : Dev :=
  let d := d.onStrata fun s => { s with loc := { d.loc p with page := p, poison := true } :: s.loc.filter fun l => l.page != p }
  d.onFl (d.pageTile p) fun f => { f with tail := f.tail ++ [p] }

/-- The pages of a group that a tier may poison: those of class V read as zero, those of a granule with VALID 0 count too (R73, R75). -/
def Dev.groupPages (d : Dev) (g : Nat) : List Nat := ((List.range 512).map fun i => g * 512 + i).filter fun p => d.pageCls p != 3

/-- The pages that a tier poisons on a tile, by group (R73): every page of the armed groups after an unclean loss; after an abort each dirty
page of the sealed bitmap with no record of TIME at or after the begin of stage 2. -/
def Dev.mountPoison (d : Dev) (t tier : Nat) : List (Nat × List Nat) :=
  let f := d.fl t
  if tier = 2 then (d.ledgerArmed t).dedup.map fun g => (g, d.groupPages g)
  else if tier = 1 then
    let lost := f.sealDirty.filter fun p => d.pageCls p != 3 && !(d.strata.recs.any fun r => r.page == p && decide (f.sealAt ≤ r.time))
    ((lost.map pageGroup).dedup).map fun g => (g, lost.filter fun p => pageGroup p == g)
  else []

/-- Poison records of a tier: one per armed group, or one per group with its 512-bit mask (R117). -/
def Dev.poisonRecords (d : Dev) (t tier : Nat) : Dev :=
  (d.mountPoison t tier).foldl (fun d x =>
    let d := if tier = 2 then d.ledger t 0x0E x.1 else d.ledger t 0x0F x.1 0 (sumBy x.2 fun p => 2 ^ (p % 512))
    x.2.foldl Dev.poisonLoc d) d

/-- Strata of a tile is formatted at its first power-up: every log block of its data dies joins the zone, less the reservation (R114,
R151). -/
def Dev.formatTile (d : Dev) (t : Nat) : Dev :=
  let d := (d.onFl t fun f => { f with zone := 127 * d.dieBlocks * d.blkRecs, metas := [], resv := [] }).resvFill t
  d.onStrata fun s => { s with recs := s.recs.filter fun r => d.pageTile r.page != t, loc := s.loc.filter fun l => d.pageTile l.page != t }

/-- Records of a tile whose header, at the flash addresses given, fails its CRC are absent: the previous version stands; of a metadata
record the event names the structure (R116, R138, R143). DESIGN CHOICE (log 254): the source and severity of that event. -/
def Dev.dropHeaders (d : Dev) (t : Nat) (bad : List Nat) : Dev :=
  let ks := (((d.fl t).metas.filter fun m => m.rtype == 3 && bad.contains m.addr).map fun m => m.mkind).dedup
  let d := d.onStrata fun s => { s with recs := s.recs.filter fun r => !(d.pageTile r.page == t && bad.contains r.addr && !r.elided) }
  let d := d.onFl t fun f => { f with metas := f.metas.filter fun m => !bad.contains m.addr }
  ks.foldl (fun d k => d.raise (tsrc t 38) 0x83 1 (detail := [k])) d

/-- The locator entry that mount builds for a page: the record of the highest VSEQ that no TRIM makes dead; the poison set stands (R116,
R117, R144). -/
def Dev.locFrom (d : Dev) (p : Nat) : LocEntry :=
  let rs := d.strata.recs.filter fun r => r.page == p && d.notTrimmed r
  let poison := (d.loc p).poison
  match rs.foldl (fun a r => match a with | none => some r | some x => if x.vseq < r.vseq then some r else some x) none with
  | some r => { page := p, kind := if r.elided then 2 else 1, vseqLo := r.vseq % 8388608, addr := r.addr, hidx := r.hidx, poison := poison }
  | none => { page := p, poison := poison }

/-- A tile rebuilds its locator from its checkpoint, tail and landing-zone blocks, or by a scan of every block: what they give is, for each
page, its latest record that stands (R116). -/
def Dev.rebuildLoc (d : Dev) (t : Nat) : Dev :=
  let ps := (((d.strata.recs.map fun r => r.page) ++ d.strata.loc.map fun l => l.page).filter fun p => d.pageTile p == t).dedup
  let es := (ps.map d.locFrom).filter fun l => l.kind != 0 || l.poison
  d.onStrata fun s => { s with loc := es ++ s.loc.filter fun l => d.pageTile l.page != t }

/-- Blocks that mount finds half-erased: one with an open erase intent; and, of those given, one that is recorded as erased or that nothing
refers to, which leaves the zone (R159). -/
def Dev.halfErased (d : Dev) (t : Nat) (half : List Nat) : Dev :=
  let d := d.onFl t fun f => { f with
    intentQ := []
    blocks := f.blocks.map fun b =>
      if b.2.state = 3 then (b.1, { b.2 with state := 7 }) else if b.2.state = 8 then (b.1, { b.2 with state := 5 }) else b }
  half.foldl (fun d b =>
    let st := (d.blk t b).state
    if st = 0 then
      (d.onBlk t b fun x => { x with state := 7 }).onFl t fun f => { f with
        zone := if f.resv.contains b then f.zone else f.zone - d.blkRecs, resv := f.resv.filter fun x => x != b }
    else if st = 5 ∨ st = 6 then d.onBlk t b fun x => { x with state := 7 } else d) d

/-- TILE_TIER_DECIDED: a tile replays its ledger, rebuilds its locator, decides its tier and starts its poison set; a checkpoint that was
interrupted is ignored (R147), and a block with an open erase intent is half-erased (R159). `scan` says that no locator checkpoint was
valid, `ledgerOk` that its ledger die can be read; `badHdr` the flash addresses at which a header fails its CRC, `half` the blocks that fail
the checks of R159 (R73, R114, R116 to R118, R143, R159, R166, R346). -/
def execTileTierDecided (t : Fin 8) (scan ledgerOk : Bool) (badHdr half : List Nat) (dt : Nat) (s : State) : Res := s.run fun d =>
  let d := d.elapse dt
  let t := t.val
  if d.restore.phase ≠ 4 ∨ (d.tile t).isolated ∨ mbit d.restore.decided t ∨ d.pkg.safe ≠ 0 then d
  else if !ledgerOk then d.raise (tsrc t 36) 0x81 3
  else
    let newest := (d.fl t).ledger.head?
    let last := (newest.map fun e => e.time).getD d.now
    let d := if 270 * day < d.now - last then d.raise (tsrc t 37) 0x86 2 else d
    let d := d.timeFloor ((newest.map fun e => e.time).getD 0)
    let d := if scan then d.raise (tsrc t 38) 0x83 2 else d
    let e := d.mountRec t
    let tier := tierOf e
    let d := if e.isNone then d.formatTile t else d
    let d := d.onFl t fun f => { f with tail := f.ckptRun.getD [] ++ f.tail, ckptRun := none }
    let d := ((d.halfErased t half).dropHeaders t badHdr).rebuildLoc t
    let fresh : Bool := match e with | some e => e.typ != 0x0C | none => false
    let n := if fresh then sumBy (d.mountPoison t tier) fun x => x.2.length else 0
    let d := if fresh then d.poisonRecords t tier else d
    let d := d.ledger t 0x0C tier ((e.map fun e => e.lseq).getD 0) n
    d.onRestore fun r => { r with
      tier := tset r.tier t tier, decided := mset r.decided t, scan := if scan then mset r.scan t else r.scan }

/-- The latest seal header of a tile that is not a test's. -/
def Dev.sealHdr (d : Dev) (t : Nat) : Option LedgerEntry := d.lastEntry t fun e => e.typ == 0x09 && !e.test

/-- A tile holds the seal record of its latest seal header. -/
def Dev.hasSealRec (d : Dev) (t : Nat) : Bool :=
  match d.sealHdr t with
  | some h => (d.lastEntry t fun e => e.typ == 0x0A && !e.test && e.a == h.lseq).isSome
  | none => false

/-- MOUNT_CROSS_CHECK: the lead compares trigger times and the tile mask of the package seal record; a disagreement is an event and changes
no tier (R115). -/
def execMountCrossCheck (dt : Nat) (s : State) : Res := s.run fun d =>
  let d := d.elapse dt
  if d.restore.phase ≠ 4 ∨ !(d.inSvc.all fun t => mbit d.restore.decided t) then d
  else
    let l := d.pkg.lead
    let trig (t : Nat) : Option Nat := (d.sealHdr t).map fun e => e.time
    let times := d.inSvc.any fun t => (trig t).isSome && trig t != trig l
    let masks : Bool := match d.lastEntry l fun e => e.typ == 0x0B && !e.test, d.sealHdr l with
      | some p, some h => decide (h.lseq < p.lseq) && d.inSvc.any fun t => Nat.testBit p.a t != d.hasSealRec t
      | _, _ => false
    if times || masks then d.raise 813 0x14 0 else d

/-- Phase 4 ends once every tile in service has committed (R109, R119). -/
def Dev.mountEnds (d : Dev) : Dev :=
  if d.restore.phase = 4 ∧ !d.inSvc.isEmpty ∧ (d.inSvc.all fun t => mbit d.restore.committed t) then
    (d.onRestore fun r => { r with phase := 5, phaseEnd := tset r.phaseEnd 4 d.now }).restUpd
  else d

/-- MOUNT_COMMITTED: a tile's poison set is durable: MOUNT with COMMITTED, and one disarm-all record (R117). -/
def execMountCommitted (t : Fin 8) (dt : Nat) (s : State) : Res := s.run fun d =>
  let d := d.elapse dt
  let t := t.val
  if d.restore.phase ≠ 4 ∨ (d.tile t).isolated ∨ !(mbit d.restore.decided t) ∨ mbit d.restore.committed t ∨ d.pkg.safe ≠ 0 then d
  else
    let m := (d.lastEntry t fun e => e.typ == 0x0C).getD {}
    let d := (d.ledger t 0x0C m.a m.b m.c true).ledger t 0x03
    let d := d.onExpo fun e => { e with
      armed := e.armed.filter fun g => d.groupTile g.group != t || d.groupDirty g.group, disarmQ := e.disarmQ.filter fun q => d.groupTile q.1 != t
      armFull := e.armFull.filter fun x => x != t, armProg := tset e.armProg t none }
    (d.onRestore fun r => { r with committed := mset r.committed t }).mountEnds

/-- MOUNT_TIMEOUT: a tile's mount exceeds 4 s, or 120 s when it rebuilds its locator by scan, so the tile is isolated by a Contained message
(R118). -/
def execMountTimeout (t : Fin 8) (dt : Nat) (s : State) : Res := s.run fun d =>
  let d := d.elapse dt
  let bound := if mbit d.restore.scan t.val then 120000000000 else 4000000000
  if d.restore.phase = 4 ∧ !(d.tile t.val).isolated ∧ !(mbit d.restore.committed t.val) ∧ bound < d.since d.restore.mountAt then d.raise (tsrc t.val 75) 0x42 3 else d

/-! ### Early open (R62, R75, R119, R120, R131, R200, R207, R210) -/

/-- The pages of tiles in service that are in the poison set. -/
def Dev.poisonSet (d : Dev) : List Nat :=
  sortLe (fun a b => decide (a ≤ b))
    ((d.strata.loc.filter fun l => l.poison && !(d.tile (d.pageTile l.page)).isolated && d.persistent l.page).map fun l => l.page)

/-- Poison entries and one event for each context with poisoned pages: context, tier, pages, first DPA (R75). -/
def Dev.poisonReport (d : Dev) : Dev :=
  let ps := d.poisonSet
  let unowned := (d.strata.loc.filter fun l => l.poison && !(d.tile (d.pageTile l.page)).isolated && !(d.persistent l.page)).length
  let iso := (tiles8.filter fun t => (d.tile t).isolated).length * d.tilePages
  let d := ps.foldl (fun d p => d.poisonEntry (pageBase p) 4096 0) d
  let d := d.onRestore fun r => { r with poisonPages := ps.length + unowned + iso }
  ((ps.filterMap d.pageCtx).dedup).foldl (fun d c =>
    let mine := ps.filter fun p => d.pageCtx p == some c
    let tier := maxBy mine 0 fun p => tget d.restore.tier 0 (d.pageTile p)
    d.raise 813 0x82 3 (ctx := c) (headOnly := if (d.ctx c).owner = 2 then 1 else if (d.ctx c).owner = 1 then 0 else 2)
      (detail := [c, tier, mine.length, pageBase (mine.headD 0)])) d

/-- The outage of each context not FREE is metered from the end of its last durable record, split at 24 h, with the landings of stage 3:
UNCLEAN where the tile that meters it was not clean; after an unclean loss of that tile the records not yet in Strata are gone, where
stage 2 has persisted them otherwise (R85, R210). -/
def Dev.outageMeter (d : Dev) : Dev :=
  d.liveCtxs.foldl (fun d c =>
    let x := d.ctx c
    let tier := tget d.restore.tier 0 (c % 8)
    let gone := tier == 2
    let recs := if gone then x.records.drop x.unwritten else x.records
    let from_ := if gone then (match recs.head? with | some r => r.start + r.duration * 1000000 | none => x.meterStart) else x.meterStart
    let fl : BitVec 16 := (if tier = 0 then 2 else 0x42) ||| (if gone then 0 else x.meter.flags)
    let all := (d.now - from_) / 1000000
    let n := (all - 1) / 86400000
    let one (i : Nat) : MeterRec :=
      let base : MeterRec := if i = n ∧ !gone then x.meter else {}
      { base with
        context := c, flags := fl, start := from_ + i * 86400000000000
        duration := if i = n then all - n * 86400000 else 86400000, retained := d.retainedBytes c }
    let new := ((List.range (n + 1)).map one).reverse
    d.onCtx c fun x => { x with
      records := (new ++ recs).take 1440, unwritten := (if gone then 0 else x.unwritten) + n + 1, meter := {}, meterStart := d.now }) d

/-- After an unclean loss nothing of the rings' work was persisted: their entries are gone without completion, and the rings of a context
with an uncommitted rollback come back disabled (R206, R207, R498). -/
def Dev.ringsLost (d : Dev) : Dev :=
  let d := d.onExpo fun e => { e with held := e.held.filter fun r => r.cmd != 3 }
  d.onCtxs fun x => { x with tbl := x.tbl.map fun c =>
    let rb := c.2.state != 5 && c.2.rings.any fun r => r.2.entries.any fun e => e.started && e.opc == 3
    (c.1, { c.2 with rings := c.2.rings.map fun r =>
      (r.1, { r.2 with entries := [], state := if rb ∧ (r.2.state = 1 ∨ r.2.state = 2) then 3 else r.2.state }) }) }

/-- The identity of the loss that a mount found: the trigger time of an aborted seal, else the TIME of the latest OPEN record of an unclean
tile (R131). -/
def Dev.lossIdentity (d : Dev) : Option Nat :=
  let of (t : Nat) : Option LedgerEntry :=
    d.lastEntry t fun e => ((e.typ == 0x09 || e.typ == 0x0A) && !e.test) || e.typ == 0x0D
  let fresh (t : Nat) : Bool := match d.lastEntry t fun e => e.typ == 0x0C && e.test with
    | some m => match (d.fl t).ledger.find? fun e => e.lseq == m.b with
      | some e => e.typ != 0x0C
      | none => false
    | none => false
  let ts := d.inSvc.filter fun t => fresh t && tget d.restore.tier 0 t != 0
  match ts.find? fun t => tget d.restore.tier 0 t == 1 with
  | some t => (d.sealHdr t).map fun e => e.time
  | none => match ts with
    | t :: _ => (of t).map fun e => e.time
    | [] => if d.sealing.lapseAtTrigger ∧ d.inSvc.any fresh then (d.sealHdr d.pkg.lead).map fun e => e.time else none

/-- The events that Bedrock left for this boot (R487). -/
def Dev.bedrockEvents (d : Dev) : Dev :=
  if d.upd.brEvents then
    ((d.raise 835 0x14 2 (detail := [d.upd.bedCause])).raise 835 0x14 0).onUpd fun u => { u with brEvents := false, bedCause := 0 }
  else d

/-- Completions that the device held back across a seal are admitted again (R93, R120). -/
def Dev.readmit (d : Dev) : Dev :=
  let q := d.expo.held.filter fun r => r.cmd == 3
  q.foldl (fun d r => d.admitReq { r with forArm := false, forFetch := false, forRev := false, forRepair := false })
    (d.onExpo fun e => { e with held := e.held.filter fun r => r.cmd != 3 })

/-- EARLY_OPEN: every tile in service has committed (R119): OPEN records, the dirty-shutdown count, poison lists and events, media Ready, and
the governor in GREEN with no exposure; then the work of R120 goes on. Where neither T0 nor T4 could mount, media status is Error
(R118). -/
def execEarlyOpen (dt : Nat) (s : State) : Res := s.run fun d =>
  let d := d.elapse dt
  if (d.tile 0).isolated ∧ (d.tile 4).isolated ∧ !d.restore.ready ∧ !d.pkg.bedrock ∧ d.panel.coreUp then
    [0, 1].foldl (fun d h => d.onHead h fun x => { x with media := 3 }) d
  else
    let d := d.mountEnds
    if d.restore.phase ≠ 5 ∨ d.pkg.safe ≠ 0 then d
    else
      let loss := d.lossIdentity
      let unclean := tget d.restore.tier 0 d.pkg.lead == 2
      let d := d.ledgerAll d.inSvc 0x0D 0
      let d := match loss with | some i => d.dirtyShutdown i | none => d
      let d := d.poisonReport
      let d := d.onRestore fun r => { r with ready := true, phase := 6, phaseEnd := tset r.phaseEnd 5 d.now }
      let d := [0, 1].foldl (fun d h => if (d.head h).linkUp then d.onHead h fun x => { x with media := 1 } else d) d
      let d := d.onExpo fun e => { e with gov := { e.gov with pkgState := 0, tileState := [], sent := [], relRef := false, preDrain := none } }
      let d := d.onSealing fun x => { x with hibernating := false }
      let d := d.onLat fun l => { l with leaving := false }
      let d := if unclean then d.ringsLost else d
      let d := (d.ctxs.tbl.filter fun c => c.2.state == 5 || (c.2.state == 2 && c.2.tR != 0)).foldl (fun d c =>
        d.onCtx c.1 fun x => { x with rebuild := maskOf (d.ctxTiles c.1) }) d
      let d := d.outageMeter
      let d := d.onCtxs fun x => { x with minuteEnd := d.nextBoundary d.now }
      let d := (d.readmit.resumeRings false).afterSeal.latEarlyOpen fun c =>
        (d.ctxTiles c).any fun t => tget d.restore.tier 0 t != 0
      let d := tiles8.foldl Dev.heatApply d.pointCheck.resumeWindow
      (([0, 1].foldl Dev.bayUpd d.bedrockEvents).recompute).restUpd

/-! ### Restoring pages (R121 to R126, R128, R142, R143) -/

/-- A page whose record cannot be read is poisoned, counted and reported, and enters its head's poison list; no older version is taken
(R125). -/
def Dev.restoreFail (d : Dev) (p src : Nat) : Dev :=
  ((d.pagePoison p 1).onRestore fun x => { x with poisonPages := x.poisonPages + 1 }).raise (tsrc (d.pageTile p) src) 0x83 3 (atag := some p)
    (ctx := (d.pageCtx p).getD 0) (detail := [p])

/-- A page is restored: its content from its record, or zero, and every line poisoned where it is in the poison set, or those that its
record marks; it is marked restored, and nothing makes it dirty (R75, R121). `out`: 0 the record was read, 1 by a soft decode, which marks
its block for refresh (R142), 2 it cannot be read or fails its checks, which poisons the page (R125, R140, R142); a record whose die is
retired cannot be read either (R161); `keyErr` as for the key cache; `src` the source that reports. -/
def Dev.restorePage (d : Dev) (p out keyErr src : Nat) : Dev :=
  let t := d.pageTile p
  let c := (d.pageCtx p).getD 0
  let l := d.loc p
  let rec_ := if d.persistent p then d.curRec p else none
  let d := match rec_ with
    | none => if d.persistent p && l.kind != 0 then d.restoreFail p src else if l.poison ∧ d.persistent p then d.pagePoison p 0 else d
    | some r =>
      let d := d.useKey t c keyErr
      if (d.ctx c).keyLost then d.pagePoison p 1
      else if out = 2 then d.restoreFail p src
      else
        let d := if out = 1 then d.onBlk t r.block fun b => { b with refresh := true } else d
        let d := (d.loadPage p r.img).pageTouch p true
        if l.poison then d.pagePoison p 0 else r.pmask.foldl (fun d i => (d.storePoison (p * 64 + i)).poisonEntry ((p * 64 + i) * 64) 64 3) d
  (d.markRestored p).fetchDone p

/-- DEMAND_FETCH_COMPLETE: a fetched page is restored, or poisoned, and the requests held on it proceed (R122 to R125). -/
def execDemandFetchComplete (p : Nat) (out : Fin 3) (keyErr : Fin 3) (dt : Nat) (s : State) : Res := s.run fun d =>
  let d := d.elapse dt
  if !(d.restore.fetching.contains p) ∨ (d.tile (d.pageTile p)).isolated ∨ d.pkg.safe ≠ 0 then d
  else if d.restored p then d.fetchDone p
  else ((d.onRestore fun r => { r with fetchBytes := r.fetchBytes + 4096 }).restorePage p out.val keyErr.val 76).fetchRings

/-- BULK_RESTORE_PAGE: the bulk engine of a tile restores its next record page, or with `fill` the `n` pages of the fill pass from tile-local
page `i` on; pages restored already are skipped (R126, R128). -/
def execBulkRestorePage (t : Fin 8) (fill : Option (Nat × Nat)) (out : Fin 3) (keyErr : Fin 3) (dt : Nat) (s : State) : Res := s.run fun d =>
  let d := d.elapse dt
  let t := t.val
  if d.restore.phase ≠ 6 ∨ d.restore.allRestored ∨ (d.tile t).isolated ∨ d.sealing.active ∨ d.pkg.safe ≠ 0 then d
  else match fill with
    | some (i, n) =>
      let inRun (p : Nat) : Bool := d.pageTile p == t && decide (i ≤ d.tla (pageBase p) / 4096) && decide (d.tla (pageBase p) / 4096 < i + n)
      if d.tilePages < i + n ∨ (d.strata.loc.any fun l => inRun l.page && !(d.fillPage l.page)) then d
      else
        let was := d.restoredOn t
        let d := d.markRange (t * 2 ^ 40 + i) n
        let d := d.onRestore fun r => { r with bulkBytes := r.bulkBytes + (d.restoredOn t - was) * 4096 }
        ((d.restore.fetching.filter inRun).foldl Dev.fetchDone d).fetchRings
    | none => match d.nextRecord t with
      | none => d
      | some p => ((d.onRestore fun r => { r with bulkBytes := r.bulkBytes + 4096 }).restorePage p out.val keyErr.val 75).fetchRings

/-- The restore is complete once every tile in service has ended bulk restore (R128, R133). -/
def Dev.restoreEnds (d : Dev) : Dev :=
  if d.inSvc.all fun t => mbit d.restore.drainDone t then
    let d := d.onRestore fun r => { r with phase := 7, allRestored := true, restored := [], phaseEnd := tset r.phaseEnd 6 d.now }
    let e := d.restore.phaseEnd
    let span (k : Nat) : Nat := tget e 0 k - (if k = 1 then d.restore.powerGood else tget e 0 (k - 1))
    let d := d.raise 813 0x14 0 (detail := ([1, 2, 3, 4, 5, 6].map span) ++ [d.restore.bulkBytes, d.restore.fetchBytes])
    d.pointCheck.restUpd
  else d

/-- BULK_RESTORE_COMPLETE: a tile has restored every host-visible page; its rank work resumes, and with the last tile the restore is complete
(R120, R128, R133, R251). -/
def execBulkRestoreComplete (t : Fin 8) (dt : Nat) (s : State) : Res := s.run fun d =>
  let d := d.elapse dt
  let t := t.val
  if d.restore.phase ≠ 6 ∨ d.restore.allRestored ∨ (d.tile t).isolated ∨ d.restoredOn t < d.tilePages then d
  else ((d.onRestore fun r => { r with drainDone := mset r.drainDone t }).rankWork t).restoreEnds

/-- RESTORE_STATUS_UPDATE: the periodic update of the restore registers in phase 6, every 100 ms (R132, R522). -/
def execRestoreStatusUpdate (dt : Nat) (s : State) : Res := s.run fun d =>
  (d.elapse dt).periodic 4 100000000 fun d => if d.restore.phase = 6 then d.restUpd else d

end Sys2Proof.Machine
end

