-- ==== Sys2Proof/Machine/Jcs4.lean ====
section
/-! DEFINITION. The rank, Strata, lease, restore status and update policy commands, C4A0h to C4EFh (R425 to R429). -/

namespace Sys2Proof.Machine

/-! ### Ranks (R218, R245, R248, R425) -/

/-- C4A0h: TILE 0 to 7. -/
def ranksCheck (_ : Dev) (_ : Caller) (p : List Byte) : Nat := orErr (within 0 7 (fieldAt p 0 1)) 2

/-- C4A0h: the configuration, the steering table and the channels of a tile. -/
def ranksAct (d : Dev) (_ : Caller) (p : List Byte) : Dev × Rsp :=
  let t := fieldAt p 0 1
  let dw (o : Nat) : List Byte := leBytes 8 (d.dwRead 0 o)
  d.answer (.data (dw 0xD00 ++ (List.range 16).flatMap (fun e => dw (0x900 + t * 0x80 + e * 8))
    ++ (List.range 4).flatMap fun c => dw (0x800 + t * 0x20 + c * 8)))

/-- GET_RANKS, C4A0h (R425). -/
def execGetRanks (by_ : Fin 4) (uid : Nat) (payload : List Byte) (dt : Nat) (s : State) : Res := s.run fun d =>
  (d.elapse dt).jcsDo 0xC4A0 ranksCheck ranksAct { p := by_.val, uid := uid } payload

/-- C4A1h to C4A3h: TILE 0 to 7, ENTRY 0 to 15. -/
def entryCheck (_ : Dev) (_ : Caller) (p : List Byte) : Nat := orErr (within 0 7 (fieldAt p 0 1) && within 0 15 (fieldAt p 1 1)) 2

/-- C4A1h: the row fault list of a rank. -/
def rowFaultsAct (d : Dev) (_ : Caller) (p : List Byte) : Dev × Rsp :=
  d.answer (.data ((d.rank (fieldAt p 0 1) (fieldAt p 1 1)).rows.flatMap fun r => leBytes 8 r.toNat))

/-- READ_ROW_FAULTS, C4A1h (R425). -/
def execReadRowFaults (by_ : Fin 4) (uid : Nat) (payload : List Byte) (dt : Nat) (s : State) : Res := s.run fun d =>
  (d.elapse dt).jcsDo 0xC4A1 entryCheck rowFaultsAct { p := by_.val, uid := uid } payload

/-- C4A2h: a rank in NORMAL is retired; for one in DEGRADED, whose retirement is due already, a spare is looked for again and REASON
says command (R245, R250). -/
def retireAct (d : Dev) (_ : Caller) (p : List Byte) : Dev × Rsp :=
  let t := fieldAt p 0 1
  let e := fieldAt p 1 1
  match (d.steerNext t e).state with
  | 0 => (d.retire t e 6 2, {})
  | 4 => match d.freeSpare t (e % 4) with
    | some sp => (d.migrateTo t e sp 6, {})
    | none => (d.steerNow t e fun s => { s with reason := 6 }, {})
  | _ => (d, .err 4)

/-- RETIRE_RANK, C4A2h (R245, R425). -/
def execRetireRank (by_ : Fin 4) (uid : Nat) (payload : List Byte) (dt : Nat) (s : State) : Res := s.run fun d =>
  (d.elapse dt).jcsDo 0xC4A2 entryCheck retireAct { p := by_.val, uid := uid } payload

/-- C4A3h: the return of a repaired rank begins (R248). -/
def returnAct (d : Dev) (_ : Caller) (p : List Byte) : Dev × Rsp :=
  let t := fieldAt p 0 1
  let e := fieldAt p 1 1
  let s := d.steerNext t e
  if s.state = 2 ∧ s.testPass then (d.returnBegin t e, {}) else (d, .err 4)

/-- RETURN_RANK, C4A3h (R248, R425). -/
def execReturnRank (by_ : Fin 4) (uid : Nat) (payload : List Byte) (dt : Nat) (s : State) : Res := s.run fun d =>
  (d.elapse dt).jcsDo 0xC4A3 entryCheck returnAct { p := by_.val, uid := uid } payload

/-- C4A4h: each field that MASK selects lies within its values (R35, R36, R215, R218). -/
def dramCfgCheck (_ : Dev) (_ : Caller) (p : List Byte) : Nat :=
  let m := fieldAt p 0 1
  let idle := fieldAt p 8 2
  orErr (maskOk m 0 (within 0 3 (fieldAt p 1 1)) && maskOk m 1 (within 0 4 (fieldAt p 2 1)) && maskOk m 2 (within 0 2 (fieldAt p 3 1))
    && maskOk m 3 (within 0 2 (fieldAt p 4 1)) && maskOk m 4 (within 0 1 (fieldAt p 5 1)) && maskOk m 5 (idle == 0 || within 50 10000 idle)) 2

/-- C4A4h: the first four fields wait for the next package reset, the others are in force at once; the record is due (R218). -/
def dramCfgAct (d : Dev) (_ : Caller) (p : List Byte) : Dev × Rsp :=
  let m := fieldAt p 0 1
  if m % 16 ≠ 0 ∧ d.ctxs.rt.any fun g => g.2.valid then (d, .err 4)
  else
    let d := d.onDram fun x => { x with cfg := { x.cfg with
      nextSpares := pick m 0 (fieldAt p 1 1) x.cfg.nextSpares, nextCgrain := pick m 1 (fieldAt p 2 1) x.cfg.nextCgrain
      nextTgrain := pick m 2 (fieldAt p 3 1) x.cfg.nextTgrain, nextRate := pick m 3 (fieldAt p 4 1) x.cfg.nextRate
      autoReturn := pick m 4 (fieldAt p 5 1 == 1) x.cfg.autoReturn, idleSr := pick m 5 (fieldAt p 8 2) x.cfg.idleSr } }
    ((d.recDue 0x61).dramCfgUpd, {})

/-- SET_DRAM_CONFIGURATION, C4A4h (R218, R425). -/
def execSetDramConfiguration (by_ : Fin 4) (uid : Nat) (payload : List Byte) (dt : Nat) (s : State) : Res := s.run fun d =>
  (d.elapse dt).jcsDo 0xC4A4 dramCfgCheck dramCfgAct { p := by_.val, uid := uid } payload

/-! ### Strata (R162, R170, R171, R426) -/

/-- C4B0h: both registers and the governor's figures. -/
def strataAct (d : Dev) (_ : Caller) (_ : List Byte) : Dev × Rsp :=
  let s := d.strata
  d.answer (.data (fields [(8, d.dwRead 0 0x680), (8, d.dwRead 0 0x688), (8, s.wRem), (8, s.borrow), (8, s.bDay), (4, s.waMilli), (1, s.lifeTarget),
    (3, 0), (4, sumBy tiles8 fun t => (d.fl t).blocksRetired), (2, sumBy tiles8 fun t => (d.fl t).diesRetired.length)]))

/-- GET_STRATA_STATUS, C4B0h (R171, R426). -/
def execGetStrataStatus (by_ : Fin 4) (uid : Nat) (payload : List Byte) (dt : Nat) (s : State) : Res := s.run fun d =>
  (d.elapse dt).jcsDo 0xC4B0 noCheck strataAct { p := by_.val, uid := uid } payload

/-- C4B1h: 1 to 40 years, ending at least 30 days after the present (R170). -/
def lifeCheck (d : Dev) (_ : Caller) (p : List Byte) : Nat :=
  let y := fieldAt p 0 1
  orErr (within 1 40 y && decide (d.now + 30 * day ≤ y * year)) 2

/-- C4B1h: LIFE_TARGET changes, and its record is due. -/
def lifeAct (d : Dev) (_ : Caller) (p : List Byte) : Dev × Rsp :=
  ((d.onStrata fun s => { s with lifeTarget := fieldAt p 0 1 }).recDue 0x62, {})

/-- SET_LIFE_TARGET, C4B1h (R170, R426). -/
def execSetLifeTarget (by_ : Fin 4) (uid : Nat) (payload : List Byte) (dt : Nat) (s : State) : Res := s.run fun d =>
  (d.elapse dt).jcsDo 0xC4B1 lifeCheck lifeAct { p := by_.val, uid := uid } payload

/-- C4B2h: MAX of at most 511. -/
def strataListCheck (_ : Dev) (_ : Caller) (p : List Byte) : Nat := orErr (within 0 511 (fieldAt p 4 2)) 2

/-- C4B2h: strata of a context, newest first. -/
def strataListAct (d : Dev) (_ : Caller) (p : List Byte) : Dev × Rsp :=
  let all := sortLe (fun a b => decide (b.time ≤ a.time)) (d.strataOf (ctxOf p))
  let ss := (all.drop (fieldAt p 2 2)).take (fieldAt p 4 2)
  d.answer (.data (fields [(2, ss.length), (30, 0)]
    ++ ss.flatMap fun x => fields [(8, x.time), (8, x.tag), (1, bit x.damaged), (7, 0), (8, x.damage.length)]))

/-- LIST_STRATA, C4B2h (R426). -/
def execListStrata (by_ : Fin 4) (uid : Nat) (payload : List Byte) (dt : Nat) (s : State) : Res := s.run fun d =>
  (d.elapse dt).jcsDo 0xC4B2 strataListCheck strataListAct { p := by_.val, uid := uid } payload

/-- The stratum of a context with a stratum time. -/
def Dev.stratumAt (d : Dev) (c time : Nat) : Option Stratum := (d.strataOf c).find? fun x => x.time == time

/-- C4B3h: a stratum is released. -/
def strataRelAct (d : Dev) (_ : Caller) (p : List Byte) : Dev × Rsp :=
  match d.stratumAt (ctxOf p) (fieldAt p 8 8) with
  | some x => (d.releaseStratum x.context x.time, {})
  | none => (d, .err 0x10)

/-- RELEASE_STRATUM, C4B3h (R162, R426). -/
def execReleaseStratum (by_ : Fin 4) (uid : Nat) (payload : List Byte) (dt : Nat) (s : State) : Res := s.run fun d =>
  (d.elapse dt).jcsDo 0xC4B3 noCheck strataRelAct { p := by_.val, uid := uid } payload

/-- C4B4h: MAX of at most 2,046. -/
def damageCheck (_ : Dev) (_ : Caller) (p : List Byte) : Nat := orErr (within 0 2046 (fieldAt p 20 2)) 2

/-- C4B4h: damaged pages of a stratum. -/
def damageAct (d : Dev) (_ : Caller) (p : List Byte) : Dev × Rsp :=
  match d.stratumAt (ctxOf p) (fieldAt p 8 8) with
  | some x =>
    let ps := (x.damage.drop (fieldAt p 16 4)).take (fieldAt p 20 2)
    (d, .data (fields [(4, ps.length), (12, 0)] ++ ps.flatMap fun q => leBytes 8 q))
  | none => (d, .err 0x10)

/-- READ_DAMAGE_LIST, C4B4h (R143, R426). -/
def execReadDamageList (by_ : Fin 4) (uid : Nat) (payload : List Byte) (dt : Nat) (s : State) : Res := s.run fun d =>
  (d.elapse dt).jcsDo 0xC4B4 damageCheck damageAct { p := by_.val, uid := uid } payload

/-! ### Leases (R404 to R407, R427) -/

/-- Whether a principal may hold the lease of a resource (R404). -/
def Dev.mayHold (d : Dev) (p res : Nat) : Bool :=
  if res < 0x4000 then p == 2 || (decide (p < 2) && (d.ctx res).owner == p + 1)
  else if res = 0x4004 then p == 2
  else if res ≤ 0x4001 then true
  else p != 3

/-- C4C0h: a resource that can be acquired, TIMEOUT_S of 0 or 10 to 3,600, then the principal (R403 step 4, R404, R406). -/
def acquireCheck (d : Dev) (c : Caller) (p : List Byte) : Nat :=
  let r := fieldAt p 0 2
  let t := fieldAt p 2 2
  if 0x4005 < r ∨ r = 0x4003 ∨ !(t == 0 || within 10 3600 t) then 2 else orErr (d.mayHold c.p r) 5

/-- C4C0h: the caller holds the lease; its present holder renews it with the new TIMEOUT_S. -/
def acquireAct (d : Dev) (c : Caller) (p : List Byte) : Dev × Rsp :=
  let r := fieldAt p 0 2
  let t := if fieldAt p 2 2 = 0 then 600 else fieldAt p 2 2
  let l := d.lease r
  let new : Lease_ := { holder := c.p, uid := if c.p = 3 then c.uid else 0, acquired := if l.heldBy c then l.acquired else d.now
                        timeoutS := t, last := d.now }
  (d.onJcs fun j => { j with leases := tset j.leases r new }, .data (leBytes 8 (d.now + t * 1000000000)))

/-- ACQUIRE, C4C0h (R404, R427). -/
def execAcquire (by_ : Fin 4) (uid : Nat) (payload : List Byte) (dt : Nat) (s : State) : Res := s.run fun d =>
  (d.elapse dt).jcsDo 0xC4C0 acquireCheck acquireAct { p := by_.val, uid := uid } payload

/-- C4C1h to C4C3h: an assigned resource code. -/
def leaseCheck (_ : Dev) (_ : Caller) (p : List Byte) : Nat := orErr (within 0 0x4005 (fieldAt p 0 2)) 2

/-- A lease is given up; the update slot's ends with the slot, unless a try is pending (R406, R466). -/
def Dev.giveUp (d : Dev) (res : Nat) : Dev :=
  if res ≠ 0x4003 then d.endLease res else if d.lrec.trySlot.isSome then d else d.updRelease

/-- C4C1h: the holder releases its lease. -/
def leaseRelAct (d : Dev) (c : Caller) (p : List Byte) : Dev × Rsp :=
  let r := fieldAt p 0 2
  if (d.lease r).heldBy c then (d.giveUp r, {}) else (d, .err 4)

/-- LEASE_RELEASE, C4C1h (R406, R427). -/
def execLeaseRelease (by_ : Fin 4) (uid : Nat) (payload : List Byte) (dt : Nat) (s : State) : Res := s.run fun d =>
  (d.elapse dt).jcsDo 0xC4C1 leaseCheck leaseRelAct { p := by_.val, uid := uid } payload

/-- C4C2h: the holder of a lease and its times. -/
def leaseQueryAct (d : Dev) (_ : Caller) (p : List Byte) : Dev × Rsp :=
  let l := d.lease (fieldAt p 0 2)
  let held (n : Nat) : Nat := if l.holder = 255 then 0 else n
  d.answer (.data (fields [(1, l.holder), (7, 0), (8, l.uid), (8, held l.acquired), (8, held (l.last + l.timeoutS * 1000000000))]))

/-- QUERY, C4C2h (R427). -/
def execQuery (by_ : Fin 4) (uid : Nat) (payload : List Byte) (dt : Nat) (s : State) : Res := s.run fun d =>
  (d.elapse dt).jcsDo 0xC4C2 leaseCheck leaseQueryAct { p := by_.val, uid := uid } payload

/-- C4C3h: SB breaks a lease. -/
def breakAct (d : Dev) (_ : Caller) (p : List Byte) : Dev × Rsp :=
  let r := fieldAt p 0 2
  (d.giveUp r, .data (leBytes 1 (d.lease r).holder))

/-- BREAK, C4C3h (R406, R427, R466). -/
def execBreak (by_ : Fin 4) (uid : Nat) (payload : List Byte) (dt : Nat) (s : State) : Res := s.run fun d =>
  (d.elapse dt).jcsDo 0xC4C3 leaseCheck breakAct { p := by_.val, uid := uid } payload

/-! ### Restore status (R75, R107, R428) -/

/-- C4D0h: both registers, the end times of the phases, the bytes restored and the dirty-shutdown count. -/
def restoreAct (d : Dev) (_ : Caller) (_ : List Byte) : Dev × Rsp :=
  let r := d.restore
  d.answer (.data (fields [(8, d.dwRead 0 0x640), (8, d.dwRead 0 0x648)] ++ [1, 2, 3, 4, 5, 6].flatMap (fun k => leBytes 8 (tget r.phaseEnd 0 k))
    ++ fields [(8, r.bulkBytes), (8, r.fetchBytes), (4, r.dsCount)]))

/-- GET_RESTORE_STATUS, C4D0h (R132, R428). -/
def execGetRestoreStatus (by_ : Fin 4) (uid : Nat) (payload : List Byte) (dt : Nat) (s : State) : Res := s.run fun d =>
  (d.elapse dt).jcsDo 0xC4D0 noCheck restoreAct { p := by_.val, uid := uid } payload

/-- A byte lies in a range of a poison list. -/
def PoisonRange.has (r : PoisonRange) (a : Nat) : Bool := decide (r.dpa ≤ a) && decide (a < r.dpa + r.len)

/-- Enter a range in a set of poisoned ranges, unless one holds its first byte already. -/
def addPoison (l : List PoisonRange) (x : PoisonRange) : List PoisonRange := if l.any fun r => r.has x.dpa then l else insPoison x l

/-- The full set of poisoned ranges (R75, R428): those of both heads' lists, then what the lists do not hold: granules on isolated tiles
(cause 02h), pages of the poison set (00h), pages with every line poisoned (01h) and other lines (03h). -/
def Dev.poisonAll (d : Dev) : List PoisonRange :=
  let base := [0, 1].foldl (fun l h => (d.head h).poison.foldl addPoison l) []
  let iso := (d.ctxs.rt.filter fun e => e.2.valid).flatMap fun e =>
    (tiles8.filter fun t => (d.tile t).isolated).flatMap fun t => (d.granParts e.1 t).map fun r =>
      ({ dpa := r.1, len := r.2, context := e.2.context, cause := 2 } : PoisonRange)
  let set := (d.strata.loc.filter fun x => x.poison && !(d.tile (d.pageTile x.page)).isolated).map fun x =>
    ({ dpa := pageBase x.page, len := 4096, context := d.pageCtx16 x.page, cause := 0 } : PoisonRange)
  let lines := d.expo.poisonLines.map fun l =>
    let whole := (List.range 64).all fun i => d.poisoned (linePage l * 64 + i)
    ({ dpa := l * 64, len := 64, context := d.pageCtx16 (linePage l), cause := if whole then 1 else 3 } : PoisonRange)
  (iso ++ set ++ lines).foldl addPoison base

/-- C4D1h: MAX of at most 682. -/
def poisonCheck (_ : Dev) (_ : Caller) (p : List Byte) : Nat := orErr (within 0 682 (fieldAt p 4 2)) 2

/-- C4D1h: poisoned ranges; a head's are those of contexts it owns. -/
def poisonAct (d : Dev) (c : Caller) (p : List Byte) : Dev × Rsp :=
  let all := if c.p = 2 then d.poisonAll else d.poisonAll.filter fun r => r.context != 65535 && (d.ctx r.context).owner == c.p + 1
  let rs := (all.drop (fieldAt p 0 4)).take (fieldAt p 4 2)
  d.answer (.data (fields [(4, all.length), (12, 0)] ++ rs.flatMap fun r => fields [(8, r.dpa), (8, r.len), (2, r.context), (1, r.cause), (5, 0)]))

/-- READ_POISON_LIST, C4D1h (R75, R428). -/
def execReadPoisonList (by_ : Fin 4) (uid : Nat) (payload : List Byte) (dt : Nat) (s : State) : Res := s.run fun d =>
  (d.elapse dt).jcsDo 0xC4D1 poisonCheck poisonAct { p := by_.val, uid := uid } payload

/-- C4D2h: MAX of at most 63. -/
def sealRecCheck (_ : Dev) (_ : Caller) (p : List Byte) : Nat := orErr (within 0 63 (fieldAt p 1 1)) 2

/-- C4D2h: seal event records, newest first. -/
def sealRecAct (d : Dev) (_ : Caller) (p : List Byte) : Dev × Rsp :=
  d.answer (.data (((d.sealing.last.drop (fieldAt p 0 1)).take (fieldAt p 1 1)).flatMap SealRec.bytes))

/-- READ_SEAL_RECORDS, C4D2h (R107, R108, R428). -/
def execReadSealRecords (by_ : Fin 4) (uid : Nat) (payload : List Byte) (dt : Nat) (s : State) : Res := s.run fun d =>
  (d.elapse dt).jcsDo 0xC4D2 sealRecCheck sealRecAct { p := by_.val, uid := uid } payload

/-! ### Update policy and confirmation (R429, R463, R476, R483) -/

/-- ns left of the confirmation window (R476). -/
def Dev.windowNs (d : Dev) : Nat :=
  match d.upd.windowFrom with
  | some t => d.upd.windowLeft - d.since t
  | none => d.upd.windowLeft

/-- C4E0h: the slots, the try and the progress. -/
def updStatAct (d : Dev) (_ : Caller) (_ : List Byte) : Dev × Rsp :=
  let u := d.lrec
  d.answer (.data (fields [(1, d.runSlot), (1, u.stateA), (1, u.stateB), (1, u.tries), (4, d.windowNs / 1000000), (1, u.owner), (3, 0),
    (4, u.committed)]))

/-- GET_UPDATE_STATUS, C4E0h (R429, R464, R469). -/
def execGetUpdateStatus (by_ : Fin 4) (uid : Nat) (payload : List Byte) (dt : Nat) (s : State) : Res := s.run fun d =>
  (d.elapse dt).jcsDo 0xC4E0 noCheck updStatAct { p := by_.val, uid := uid } payload

/-- C4E1h: CONFIRM_MODE 0 or 1. -/
def updPolCheck (_ : Dev) (_ : Caller) (p : List Byte) : Nat := orErr (within 0 1 (fieldAt p 0 1)) 2

/-- C4E1h: CONFIRM_MODE changes, and its record is due. -/
def updPolAct (d : Dev) (_ : Caller) (p : List Byte) : Dev × Rsp :=
  ((d.onUpd fun u => { u with confirmMode := fieldAt p 0 1 == 1 }).recDue 0x62, {})

/-- SET_UPDATE_POLICY, C4E1h (R429). -/
def execSetUpdatePolicy (by_ : Fin 4) (uid : Nat) (payload : List Byte) (dt : Nat) (s : State) : Res := s.run fun d =>
  (d.elapse dt).jcsDo 0xC4E1 updPolCheck updPolAct { p := by_.val, uid := uid } payload

/-- C4E2h: the host's confirmation of the pending try is received (R476). -/
def confirmAct (d : Dev) (_ : Caller) (_ : List Byte) : Dev × Rsp :=
  if d.lrec.trySlot.isNone then (d, .err 4) else (d.onUpd fun u => { u with confirmRx := true }, {})

/-- CONFIRM, C4E2h (R429, R476). -/
def execConfirm (by_ : Fin 4) (uid : Nat) (payload : List Byte) (dt : Nat) (s : State) : Res := s.run fun d =>
  (d.elapse dt).jcsDo 0xC4E2 noCheck confirmAct { p := by_.val, uid := uid } payload

/-- C4E3h: BEDROCK_REQ on every tile, the lead last; the completion is sent, and the reset into Bedrock follows (R473, R483). -/
def bedrockAct (d : Dev) (c : Caller) (_ : List Byte) : Dev × Rsp :=
  (((d.onRecs fun u => { u with bedrockReq := true }).respond c 0xC4E3 (retOf 0) 0 false []).trigger 3, { later := true })

/-- ENTER_BEDROCK, C4E3h (R429, R473, R483). -/
def execEnterBedrock (by_ : Fin 4) (uid : Nat) (payload : List Byte) (dt : Nat) (s : State) : Res := s.run fun d =>
  (d.elapse dt).jcsDo 0xC4E3 noCheck bedrockAct { p := by_.val, uid := uid } payload

end Sys2Proof.Machine
end

