-- ==== Sys2Proof/Machine/Power.lean ====
section
/-! DEFINITION. Power-up, resets, rails, heads' pins, the thermal restart, and the service panel (R30, R304, R305, R488 to R509). -/

namespace Sys2Proof.Machine

/-! ### Power-up (R490 to R494, R304) -/

/-- Fewer than RESTART_MAX thermal shutdowns in the last 24 h (R304). -/
def Dev.restartMay (d : Dev) : Bool := decide ((d.within day d.therm.shutTimes).length < d.therm.restartMax)

/-- A restart condition of R494 and R304 holds; `hold` says that a Hold press asks for it. -/
def Dev.mayStart (d : Dev) (hold : Bool) : Bool :=
  let asked := hold || d.panel.freshOk
  let cool : Bool := match d.therm.coolFrom with
    | some t => decide (d.therm.coolWait * 1000000000 ≤ d.since t) && d.restartMay
    | none => false
  d.panel.vaux && !d.panel.pwrEn && !d.panel.coreUp && d.panel.mainsGood && d.panel.strapTest == 0 && d.panel.retryAt.isNone
    && (if d.therm.withheld || d.panel.failedRestart then asked
        else match d.panel.sealCause with
          | some 2 => cool
          | some 5 => asked
          | some 6 => asked
          | _ => true)

/-- POWER_UP: mains good with a restart condition asserts PWR_EN (R491, R494). -/
def execPowerUp (dt : Nat) (s : State) : Res := s.run fun d =>
  let d := d.elapse dt
  if d.mayStart false then d.powerStart else d

/-- COOL_WAIT_EXPIRY: COOL_WAIT ends: a restart where fewer than RESTART_MAX shutdowns stand in 24 h and mains is good; with as many, the
restart is withheld with a record of kind 04h (R304, R306). -/
def execCoolWaitExpiry (dt : Nat) (s : State) : Res := s.run fun d =>
  let d := d.elapse dt
  match d.therm.coolFrom with
  | none => d
  | some t =>
    if d.panel.coreUp ∨ d.panel.pwrEn ∨ d.since t < d.therm.coolWait * 1000000000 then d
    else if !d.restartMay then
      let n := d.therm.shutSensor
      let d := (d.thermPend (d.thermRec 4 n (d.sens n).temp (d.thrOf n 2 * 16))).onTherm fun x => { x with withheld := true, coolFrom := none }
      d.onSealing fun s => { s with stage6Clean := false }
    else if d.mayStart false then d.powerStart else d

/-- Quartz takes its count at the end of phase 1 (R337, R346, R347): from zero at the epoch; else from the standby count, or from the floor
alone where the standby rail was lost, which loses continuity. -/
def Dev.qtzLoad (d : Dev) : Dev :=
  let q := d.qtz
  if !q.epochSet then
    (d.onQtz fun q => { q with running := true, count := 0, frac := 0, ofsValid := false, contLost := false, uncTime := 0, loffAt := 0 }).recDue 0x65
  else if q.standbyValid then
    d.onQtz fun q => { q with running := true, count := q.standby + (if q.standbyFrac = 0 then 0 else 1), frac := 0 }
  else
    let d := d.onQtz fun q => { q with running := true, count := q.floorStamp + 1, frac := 0, ofsValid := false, contLost := true }
    let d := d.onRestore fun r => { r with powerGood := d.now }
    let d := d.raise 804 0x40 2
    d.inSvc.foldl (fun d t => d.raise (tsrc t 37) 0x86 2) d

/-- Phase 1 ends: the core reset is released, the count is loaded, bridge charging is enabled and heads may train (R265, R337, R491, R493);
the package reset of the end of phase 1 falls due (R497). -/
def Dev.coreStart (d : Dev) : Dev :=
  let d := d.onPanel fun p => { p with coreUp := true, resetDue := true }
  let d := d.qtzLoad
  let d := d.onEnergy fun e => { e with brChargeAt := some d.now, brState := 0 }
  d.onRestore fun r => { r with phaseEnd := tset r.phaseEnd 1 d.now }

/-- RAIL_GOOD: the rail enabled last (0 VDD_CORE, 1 PHY 0.75 V, 2 PHY 1.2 V, 3 flash VCCQ, 4 DDR VDDQ), or the reference (5), reports good:
the next rail is enabled; with all good the core reset is released (R491). -/
def execRailGood (rail : Fin 6) (dt : Nat) (s : State) : Res := s.run fun d =>
  let d := d.elapse dt
  let p := d.panel
  if !p.pwrEn ∨ p.coreUp then d
  else
    let d :=
      if rail.val = 5 then (if p.railsGood = 0 then d else d.onPanel fun p => { p with refGood := true })
      else if rail.val + 1 = p.rails ∧ p.railsGood = rail.val then
        d.onPanel fun p => { p with railsGood := rail.val + 1, rails := min 5 (rail.val + 2), railAt := d.now }
      else d
    if d.panel.railsGood = 5 ∧ d.panel.refGood then d.coreStart else d

/-- RAIL_TIMEOUT: the rail enabled last is not good within 50 ms, or (5) the reference within 200 ms: the rails and PWR_EN go, the cause is
latched, and the attempt is retried after 10 s, three times at most (R492). -/
def execRailTimeout (rail : Fin 6) (dt : Nat) (s : State) : Res := s.run fun d =>
  let d := d.elapse dt
  let p := d.panel
  let late := if rail.val = 5 then decide (0 < p.railsGood) && !p.refGood else decide (rail.val + 1 = p.rails) && decide (p.railsGood = rail.val)
  if p.pwrEn && !p.coreUp && late then
    let n := p.attempts + 1
    let d := d.onPanel fun p => { p with
      pwrEn := false, rails := 0, railsGood := 0, refGood := false, attempts := if 3 ≤ n then 0 else n
      failCauses := addOnce p.failCauses rail.val, retryAt := if 3 ≤ n then none else some d.now, failedRestart := decide (3 ≤ n) }
    d.onSealing fun s => { s with hibernating := true, stage6Clean := s.stage6Clean && decide (n < 3) }
  else d

/-- POWER_UP_RETRY: 10 s after a failed attempt (R492). -/
def execPowerUpRetry (dt : Nat) (s : State) : Res := s.run fun d =>
  let d := d.elapse dt
  match d.panel.retryAt with
  | some t => if 10000000000 ≤ d.since t ∧ d.panel.mainsGood ∧ !d.panel.pwrEn then d.powerStart else d
  | none => d

/-! ### Package reset (R17, R130, R338, R359, R406, R490, R497, R498) -/

/-- Slate registers and sequences at a package reset; the array, its records and its counters stay (R434, R497). -/
def slateReset (s : SlateTile) : SlateTile :=
  let s := slateOff s
  { s with
    stallOk := false, doneIrq := false, irq := false, code := 0, opIdx := 0, addr := 0, data0 := 0, data1 := 0, done := false, fail := false
    underrun := false, rdErr := false, err := 0, res := 0, tap := 15, ceCount := 0, ueCount := 0, underruns := 0, lastBank := 0 }

/-- A head at a package reset: as a head reset, and its event logs, settings and registers; the extent offers that await its host stand as
DC_PENDING of their contexts does (R173, R177). -/
def headFresh (x : HeadSt) : HeadSt :=
  { x with
    linkUp := false, training := !x.perst, hdm := [], mboxBusy := false, mboxRet := 0, mboxExt := 0, mboxOut := [], bg := {}, events := []
    nextHandle := 1, evtPolicy := 0, alertCfg := 0, hostTime := 0, hostTimeAt := 0, shutdownState := 0, msixOpen := [], msixPending := []
    gpf := [], held500 := 0, held500At := none, media := 0 }

/-- A lattice link at a package reset: DOWN, or held DISABLED by the strap (R371, R490). -/
def linkFresh (noLat : Bool) (k : LinkSt) : LinkSt :=
  { costSet := k.costSet, asym := k.asym, state := if noLat then 0 else 1, disabledBy := if noLat then 4 else 0 }

/-- A bay at a package reset: its registers; what its records hold stays (R274, R288, R497). -/
def bayFresh (p : PackSt) : PackSt :=
  { p with
    counted := false, hold := false, path := 0, refusedUntil := none, fault := 0, test := 0, testIntr := 0, intrAt := none, intrClear := none
    testSa := none, testSb := none, restDue := false, resting := false, charging := false, viewSoc := 0, viewEnergy := 0, runs := []
    winSum := 0, winN := 0, calFrom := none, restFrom := none }

/-- The parts of the package that a package reset returns to their reset state; `kept` says that DRAM was kept in self-refresh. -/
def Dev.resetParts (d : Dev) (kept noLat : Bool) : Dev :=
  let t0 := d.now
  let d := d.onPkg fun p => { p with
    lead := 0, deputy := some 4, takeStep := 0, fenced := false, oppt := 1, opptReq := none, safe := 0, bedrock := false, tiles := [] }
  let d := d.onDw fun _ => []
  let d := d.onFlint fun f => { prevLog := f.prevLog, prevFf := f.prevFf }
  let d := d.onHeads fun t => [0, 1].map fun h => (h, headFresh (tget t {} h))
  let d := d.onJcs fun j => { sbEid := j.sbEid }
  let d := d.onMirror fun _ => {}
  let d := d.onLat fun l => { l with
    links := [0, 1, 2, 3, 4, 5].map fun i => (i, linkFresh noLat (tget l.links {} i))
    lsas := [], routes := [], routeDue := false, convMs := 0, loaded := false, nodeId := 0, leaving := false, discPend := 0, discEvent := none
    paths := [], idBack := [], ckpts := [] }
  let d := d.uncSync.onQtz fun q => { q with hasTime := false, isRoot := false, hops := 31, rootUid := 0, rootClass := 0, rival := none }
  let d := d.onSnap fun s => { s with
    banks := [], missed := 0, cancelledEvent := s.cancelledEvent || !s.sched.isEmpty, sched := [], reqs := [], prevBoot := s.stored }
  let d := d.onSlate fun x => x.map fun e => (e.1, slateReset e.2)
  let d := d.onUpd fun u => { u with
    xfer := {}, confirmRx := false, windowFrom := none, brTiles := 0xFF, brAddr := 0, vres := [], brTarget := 0 }
  let held := d.expo.held
  let paced := d.expo.paced
  let d := held.foldl Dev.refuseErr (d.onExpo fun e => { e with
    held := held.filter fun r => r.cmd == 3, paced := [], armReq := [], armProg := []
    gov := { lapses := e.gov.lapses.map fun l => if l.exit = 0 then { l with exit := t0 } else l } })
  let d := paced.foldl (fun d x => d.emit (.reqError x.id)) d
  let d := d.onSealing fun s => { last := s.last, nextRseq := s.nextRseq, lapseAtTrigger := s.lapseAtTrigger, tTrigger := s.tTrigger, hibernating := false }
  let d := d.sealReport
  let d := d.onTherm fun x => { x with
    sens := x.sens.map fun e => (e.1, { off := e.2.off, offHist := e.2.offHist }), tile := [], sample := 0
    board := (match x.boardNext with | some b => b | none => x.board.map fun e => (e.1, { e.2 with cross := [], hover := [] })), boardNext := none }
  let d := d.onCtxs fun c => { c with keyCache := [] }
  let d := [0, 1].foldl (fun d b => d.disqualify b) d
  let d := d.onEnergy fun e => { e with
    src := e.src.map fun x => (x.1, { off := x.2.off }), pack := e.pack.map fun x => (x.1, bayFresh x.2), sample := 0, assistSet := []
    brFill := 0, brEnergy := 0, brFault := 0, brRuns := [], slotExceed := none, restCap := false, restAband := false }
  let d := d.onEnergy fun e => match e.brNext with
    | some [c, esr, vf, sh] =>
      let c' := if e.brC = 0 then c else max (c / 2) (min (c * 3 / 2) e.brC)
      let r' := if e.brEsr = 0 then esr else e.brEsr
      { e with brCnom := some c, brEsrNom := esr, brVfull := vf, brShunt := sh, brC := c', brEsr := r', brNext := none }
    | _ => e
  let free := !(d.ctxs.rt.any fun g => g.2.valid)
  d.onDram fun x => { x with
    cfg := if free then { x.cfg with spares := x.cfg.nextSpares, cgrain := x.cfg.nextCgrain, tgrain := x.cfg.nextTgrain, rateLimit := x.cfg.nextRate } else x.cfg
    chans := if kept then x.chans.map fun c => (c.1, { state := 2, trained := c.2.trained, retValid := c.2.retValid }) else x.chans.map fun c => (c.1, { retValid := c.2.retValid })
    ranks := x.ranks.map fun r => (r.1,
      let w := d.sealedTile (r.1 / 16)
      { rows := r.2.rows, retired := r.2.retired, pprRun := w && r.2.pprRun, testRun := w && r.2.testRun })
    steer := [], steerPend := [], repairs := [] }

/-- PACKAGE_RESET: the package-reset domain is cleared and the straps are sampled (R490, R497); a strap may hold the package in phase 1 or
take it into Bedrock (R483). The lease of the update slot comes back where a try is pending (R466). -/
def execPackageReset (bedrock noLat : Bool) (smb test : Fin 4) (dt : Nat) (s : State) : Res := s.run fun d =>
  let d := d.elapse dt
  if !d.panel.resetDue ∨ !d.panel.coreUp then d
  else
    let r := d.restore
    let kept := r.dramKept && !r.forcedUnclean
    let atPower := r.phase == 1
    let d := d.xferUndo.resetParts kept noLat
    let d := d.onRestore fun r => { r with
      phase := 2, ready := false, warm := false, dsInc := false, tier := [], decided := 0, committed := 0, scan := 0, fetching := [], poisonPages := 0
      phaseEnd := if atPower then r.phaseEnd else [(1, d.now)], powerGood := if atPower then r.powerGood else d.now, bulkBytes := 0
      fetchBytes := 0, dramKept := kept, restored := if kept then r.restored else []
      allRestored := kept && r.allRestored, drainDone := if kept then r.drainDone else 0 }
    let d := d.onPanel fun p => { p with
      resetDue := false, resetNAt := none, resetTaken := false, strapBedrock := bedrock, strapSmb := smb.val, strapNoLat := noLat
      strapTest := test.val, fWpN := true, ddrRst := !kept, sdAlert := false, identifyUntil := none, removal := 0, refusedUntil := none }
    let u := d.lrec
    let d := if u.trySlot.isSome ∧ u.owner ≠ 255 then d.onJcs fun j => { j with
        leases := tset j.leases 0x4003 { holder := u.owner, uid := u.ownerUid, acquired := d.now, timeoutS := 1800, last := d.now } }
      else d
    let d := if u.trySlot.isNone ∧ u.owner ≠ 255 then d.onRecs fun u => { u with owner := 255, ownerUid := 0 } else d
    let d := d.restUpd
    if test.val ≠ 0 then
      (d.coreOff).onRestore fun r => { r with phase := 1 }
    else if bedrock then d.enterBedrock 1
    else d

/-! ### VAUX and rails (R491, R495, R496, R509) -/

/-- VAUX_RISE: the standby reset is released; the power inputs are sampled (R491 step 1). -/
def execVauxRise (pwrFailN vinOk latchA latchB : Bool) (dt : Nat) (s : State) : Res := s.run fun d =>
  let d := d.elapse dt
  if d.panel.vaux then d
  else
    let d := d.onPanel fun p => { p with
      vaux := true, pwrFailN := pwrFailN, vinOk := vinOk, mainsGood := false, goodSince := if pwrFailN ∧ vinOk then some d.now else none
      notGoodAt := some d.now }
    (d.onBay 0 fun p => { p with latch := latchA }).onBay 1 fun p => { p with latch := latchB }

/-- VAUX_FALL: while VDD_CORE is present the package enters its safe state without a seal; a standby reset follows, which loses the standby
count, the retention registers, the latch counters and the latched causes (R235, R276, R347, R497, R498, R509). -/
def execVauxFall (dt : Nat) (s : State) : Res := s.run fun d =>
  let d := d.elapse dt
  if !d.panel.vaux then d
  else
    let up := d.panel.coreUp
    let d := if up then d.safeState 2 else d
    let d := if up then d.coreOff else d
    let d := d.onSealing fun s => { s with active := false, hibernating := true }
    let d := d.onRestore fun r => { r with ready := false, dramKept := false, forcedUnclean := r.forcedUnclean || up }
    let d := d.onQtz fun q => { q with running := false, standby := 0, standbyFrac := 0, standbyValid := false, rtcRem := 0 }
    let d := d.onDram fun x => { x with chans := x.chans.map fun c => (c.1, { c.2 with retValid := false }) }
    let d := (d.onEnergy fun e => { e with bayLost := true }).onTherm fun x => { x with coolFrom := none, withheld := false, critLatch := none }
    let d := [0, 1].foldl (fun d b => d.onBay b fun p => { p with latchOpens := 0 }) d
    d.onPanel fun p => { serial := p.serial, touchBase := p.touchBase, notGoodAt := some 0 }

/-- RAIL_OUT_OF_RANGE: a rail is reported out of range in service: 0 VDD_CORE, 1 DDR VDDQ, 2 flash VCCQ Urgent; 3 and 4 the PHY rail of H0
and H1, 5 that of the lattice, Contained on the head or on every link (R496). -/
def execRailOutOfRange (rail : Fin 6) (dt : Nat) (s : State) : Res := s.run fun d =>
  let d := d.elapse dt
  if !d.panel.coreUp then d
  else if rail.val < 3 then d.raise 831 0x26 4 (detail := [rail.val])
  else d.raise 831 0x26 3 (headOnly := if rail.val = 3 then 0 else if rail.val = 4 then 1 else 2) (detail := [rail.val])

/-- CRITICAL_TRIP: the comparator of an on-die site trips: the safe state, PWR_EN deasserted without sequencing and without a seal, sensor and
time latched; no restart on its own (R305, R495, R309). -/
def execCriticalTrip (n : Fin 64) (dt : Nat) (s : State) : Res := s.run fun d =>
  let d := d.elapse dt
  if !d.panel.coreUp ∨ 6 ≤ n.val % 8 then d
  else
    let d := (d.raise (tsrc (n.val / 8) 61) 0x23 5 (detail := [n.val])).safeState 2
    let d := d.onTherm fun x => { x with critLatch := some (n.val, d.now), withheld := true, shutSensor := n.val }
    let d := d.onRestore fun r => { r with ready := false, forcedUnclean := true, dramKept := false }
    let d := d.onSealing fun s => { s with active := false, frozen := false, hibernating := true, stage6Clean := false }
    d.coreOff

/-! ### Heads (R30, R130, R204, R493, R497, R498) -/

/-- The media status of the device (R133). -/
def Dev.mediaNow (d : Dev) : Nat :=
  if d.pkg.bedrock then 2
  else if (d.tile 0).isolated ∧ (d.tile 4).isolated ∧ !d.restore.ready then 3
  else if d.restore.ready then 1 else 0

/-- An owner whose transport is lost during a download gives up the update slot, which stays PARTIAL (R466, R469, R498). -/
def Dev.updLoses (d : Dev) (p : Nat) : Dev :=
  if d.lrec.owner = p ∧ d.lrec.trySlot.isNone then (d.onUpd fun u => { u with xfer := { u.xfer with chunkAt := none } }).updRelease else d

/-- HEAD_RESET: PERST_N (0), a CXL hot reset (1) or link down (2) resets a head. What it had accepted goes on, but for requests held in
restore phase 6, which are discarded without completion (R130, R204, R497, R498). -/
def execHeadReset (h : Fin 2) (cause : Fin 3) (dt : Nat) (s : State) : Res := s.run fun d =>
  let d := d.elapse dt
  let h := h.val
  let d := d.onExpo fun e => { e with held := e.held.filter fun r => r.head != h || (r.write && d.restore.phase != 6) }
  let d := d.headClear h
  let d := if cause.val = 0 then d.onHead h fun x => { x with perst := true }
    else if cause.val = 1 then d.onHead h fun x => { x with training := true } else d
  if cause.val = 2 then d else (d.endLeases fun l => l.holder == h).updLoses h

/-- PERST_N_DEASSERT: the head leaves electrical idle and trains, once phase 1 has ended (R493). -/
def execPerstNDeassert (h : Fin 2) (dt : Nat) (s : State) : Res := s.run fun d =>
  let d := d.elapse dt
  d.onHead h.val fun x => { x with perst := false, training := d.panel.coreUp && !x.linkUp }

/-- HEAD_LINK_UP: a head's link comes up; it reports its media status, and pending interrupts are sent (R119, R133, R202, R493). -/
def execHeadLinkUp (h : Fin 2) (dt : Nat) (s : State) : Res := s.run fun d =>
  let d := d.elapse dt
  let h := h.val
  if !d.panel.coreUp ∨ (d.head h).perst then d
  else
    let d := d.onHead h fun x => { x with linkUp := true, training := false, linkDownAt := none, media := d.mediaNow }
    let vs := (d.head h).msixPending
    vs.foldl (fun d v => d.fire h v) (d.onHead h fun x => { x with msixPending := [] })

/-- HEAD_LINK_DOWN_LEASE_END: a head's link has stayed down for 1 s (R406). -/
def execHeadLinkDownLeaseEnd (h : Fin 2) (dt : Nat) (s : State) : Res := s.run fun d =>
  let d := d.elapse dt
  let late : Bool := match (d.head h.val).linkDownAt with | some t => decide (1000000000 ≤ d.since t) | none => false
  if late && !(d.head h.val).linkUp then (d.endLeases fun l => l.holder == h.val).updLoses h.val else d

/-- HDM_DECODER_COMMIT: the host commits a decoder of a head; a value that no decoder supports leaves it uncommitted (R30). -/
def execHdmDecoderCommit (h : Fin 2) (n : Fin 8) (base size ways gran pos dpaBase : Nat) (dt : Nat) (s : State) : Res := s.run fun d =>
  let d := d.elapse dt
  let ok := [1, 2, 4, 8, 16].contains ways && [256, 512, 1024, 2048, 4096, 8192, 16384].contains gran && decide (pos < ways) && decide (size ≠ 0)
  let new : HdmDecoder := { committed := ok, base := base, size := size, ways := ways, gran := gran, pos := pos, dpaBase := dpaBase }
  d.onHead h.val fun x => { x with hdm := tset x.hdm n.val new }

/-- SIDEBAND_RESET: messages in flight are discarded without response; SB's leases end only with a change of the endpoint ID (R406, R497,
R498). -/
def execSidebandReset (newEid : Option (BitVec 8)) (dt : Nat) (s : State) : Res := s.run fun d =>
  let d := (d.elapse dt).onJcs fun j => { j with mctpBusy := [], queue := j.queue.filter fun q => q.by_ != 2 }
  match newEid with
  | none => d
  | some e =>
    if e.toNat = d.jcs.sbEid then d
    else ((d.onJcs fun j => { j with sbEid := e.toNat }).endLeases fun l => l.holder == 2).updLoses 2

/-- SUPERVISOR_WATCHDOG: a supervisor fails to service its watchdog for 10 ms (R497). -/
def execSupervisorWatchdog (t : Fin 8) (dt : Nat) (s : State) : Res := s.run fun d => (d.elapse dt).raise (tsrc t.val 51) 0x11 4

/-! ### The service panel (R501 to R504) -/

/-- MODULE_BUTTON_PRESS: the timing of a press begins; a button found stuck must have been released for 1 s (R501). -/
def execModuleButtonPress (dt : Nat) (s : State) : Res := s.run fun d =>
  let d := d.elapse dt
  if !d.panel.vaux then d
  else if d.panel.btnStuck then
    match d.panel.btnReleased with
    | some t => if 1000000000 ≤ d.since t then d.onPanel fun p => { p with btnStuck := false, btnReleased := none, btnAt := some d.now }
        else d.onPanel fun p => { p with btnReleased := none }
    | none => d
  else d.onPanel fun p => { p with btnAt := some d.now }

/-- A Tap: identify for 30 s, or its end (R501). -/
def Dev.identify (d : Dev) : Dev :=
  d.onPanel fun p => { p with identifyUntil := if p.identifyUntil.isSome then none else some (d.now + 30000000000) }

/-- A refused Hold is shown for 3 s (R501, R502). -/
def Dev.refuseHold (d : Dev) : Dev := d.onPanel fun p => { p with refusedUntil := some (d.now + 3000000000) }

/-- A press as classified: 1 Tap, 2 Hold, 0 neither (R501). -/
def pressClass (w : Nat) : Nat :=
  if 50000000 ≤ w ∧ w ≤ 1000000000 then 1 else if 3000000000 ≤ w ∧ w ≤ 8000000000 then 2 else 0

/-- A Hold in service asks for the module's removal (R503, R504). -/
def Dev.removeAsk (d : Dev) : Dev :=
  let d := (d.raise 828 0x14 2 (detail := [1])).onPanel fun p => { p with removal := if d.sealing.active then 1 else 2, drainAt := d.now }
  ([0, 1].foldl (fun d b => d.disqualify b) d).govTrigger 8

/-- MODULE_BUTTON_RELEASE: the press is classified and acted on for the state of the device (R113, R319, R494, R501, R503, R504). -/
def execModuleButtonRelease (dt : Nat) (s : State) : Res := s.run fun d =>
  let d := d.elapse dt
  if d.panel.btnStuck then d.onPanel fun p => { p with btnReleased := some d.now, btnAt := none }
  else match d.panel.btnAt with
  | none => d
  | some t =>
    let k := pressClass (d.since t)
    let d := d.onPanel fun p => { p with btnAt := none }
    if k = 0 then d
    else if !d.panel.coreUp then (if k = 2 ∧ d.mayStart true then d.powerStart else d)
    else if d.sealing.active then
      if k = 1 then d
      else if d.sealing.test ∧ d.panel.removal = 0 then d.removeAsk
      else d.refuseHold
    else if !d.restore.ready ∨ d.pkg.bedrock ∨ d.pkg.safe = 2 then
      if k = 1 then d.identify else d.hibernate 6 (decide (d.pkg.safe ≠ 2))
    else if d.pkg.safe ≠ 0 then d
    else if k = 1 then
      if d.panel.removal = 2 then ((d.onPanel fun p => { p with removal := 0 }).raise 828 0x14 0 (detail := [2])).govTrigger 8 else d.identify
    else if d.panel.removal ≠ 0 then d.refuseHold
    else d.removeAsk

/-- BUTTON_STUCK: a press held for 30 s (R501). -/
def execButtonStuck (dt : Nat) (s : State) : Res := s.run fun d =>
  let d := d.elapse dt
  match d.panel.btnAt with
  | some t =>
    if 30000000000 ≤ d.since t ∧ !d.panel.btnStuck then
      (d.onPanel fun p => { p with btnStuck := true, btnReleased := none, btnAt := none }).raise 828 0x24 2
    else d
  | none => d

/-- IDENTIFY_END: identify ends after 30 s (R501). -/
def execIdentifyEnd (dt : Nat) (s : State) : Res := s.run fun d =>
  let d := d.elapse dt
  match d.panel.identifyUntil with
  | some t => if t ≤ d.now then d.onPanel fun p => { p with identifyUntil := none } else d
  | none => d

/-- REFUSED_HOLD_INDICATION_END: 3 s after a refused Hold (R502). -/
def execRefusedHoldIndicationEnd (dt : Nat) (s : State) : Res := s.run fun d =>
  let d := d.elapse dt
  match d.panel.refusedUntil with
  | some t => if t ≤ d.now then d.onPanel fun p => { p with refusedUntil := none } else d
  | none => d

/-- REMOVAL_DRAIN_END: exposure has reached 1 GiB, or 60 s have passed, so the seal of cause 6h begins (R503). -/
def execRemovalDrainEnd (dt : Nat) (s : State) : Res := s.run fun d =>
  let d := d.elapse dt
  if d.panel.removal = 2 ∧ !d.sealing.active ∧ (d.xPkg ≤ 262144 ∨ 60000000000 ≤ d.since d.panel.drainAt) then d.trigger 6 else d

/-! ### Lights (R502) -/

/-- A light: off, steady, or flashing at a rate in tenths of Hz. -/
inductive Light where
  /-- Off. -/
  | off
  /-- Steady. -/
  | steady
  /-- Flashing. -/
  | flash (deciHz : Nat)
  deriving DecidableEq, Repr

/-- LED_ATTN and LED_SAFE: the first row of R502 that applies. -/
def Dev.lights (d : Dev) : Light × Light :=
  let s := d.sealing
  if d.pkg.safe ≠ 0 ∧ d.panel.coreUp ∧ !s.hibernating ∨ d.flint.fatal ∧ d.panel.coreUp then (.steady, .off)
  else if d.pkg.bedrock ∧ d.panel.coreUp then (.flash 20, .off)
  else if s.hibernating then (if s.stage6Clean then (.off, .steady) else (.flash 10, .steady))
  else if d.panel.refusedUntil.isSome then (.flash 40, .off)
  else if (d.panel.removal ≠ 0 ∧ !s.active) ∨ (s.active ∧ s.cause = 6) then (.off, .flash 20)
  else if s.active then (.flash 40, .off)
  else if d.panel.identifyUntil.isSome then (.flash 5, .off)
  else if d.inSvc.length < 8 ∨ d.expo.gov.pkgState = 4 ∨ (d.flint.coll.any fun c => c.2.ff.valid && decide (3 ≤ c.2.ff.maxSev)) then (.steady, .off)
  else if !d.restore.ready then (.off, .flash 5)
  else (.off, .off)

end Sys2Proof.Machine
end

