-- ==== Sys2Proof/Machine/Cxl.lean ====
section
/-! DEFINITION. The CXL memory-device commands of a head's mailbox (R430), with firmware transfer (R465 to R473) and dynamic capacity
(R176 to R178). A row carries the command's fields; the response carries its values in order. -/

namespace Sys2Proof.Machine

/-- A CXL command that the device supports, with the admission of R403: `early` is served before early open (R112). -/
def Dev.cxlDo (d : Dev) (h op : Nat) (early : Bool) (f : Dev → Dev) : Dev :=
  if !d.answers then d
  else if d.pkg.bedrock then d.cxlRespond h op 0x16 []
  else if !d.restore.ready ∧ !early then d.cxlRespond h op 7 []
  else if d.sealing.active ∨ d.pkg.safe ≠ 0 then d.cxlRespond h op 8 []
  else f d

/-- A CXL command that the device does not support (R403 step 1, R430). -/
def Dev.cxlUnsup (d : Dev) (h op : Nat) : Dev := if d.answers then d.cxlRespond h op 1 [] else d

/-- Host-visible capacity in bytes (R38). -/
def Dev.hostBytes (d : Dev) : Nat := 8 * d.hostGib * 2 ^ 30

/-! ### Identity, partitions, health (R38, R75, R131, R133, R430) -/

/-- IDENTIFY_MEMORY_DEVICE: capacity in all, persistent and volatile; poison list limit; label storage size. -/
def execIdentifyMemoryDevice (h : Fin 2) (dt : Nat) (s : State) : Res := s.run fun d =>
  (d.elapse dt).cxlDo h.val 0x4000 false fun d => d.cxlRespond h.val 0x4000 0 [d.hostBytes, d.hostBytes, 0, 8192, 0]

/-- GET_PARTITION_INFO: volatile and persistent capacity, active and next. -/
def execGetPartitionInfo (h : Fin 2) (dt : Nat) (s : State) : Res := s.run fun d =>
  (d.elapse dt).cxlDo h.val 0x4100 false fun d => d.cxlRespond h.val 0x4100 0 [0, d.hostBytes, 0, d.hostBytes]

/-- SET_PARTITION_INFO: Unsupported. -/
def execSetPartitionInfo (h : Fin 2) (dt : Nat) (s : State) : Res := s.run fun d => (d.elapse dt).cxlUnsup h.val 0x4101

/-- GET_HEALTH_INFO: Maintenance Needed, media status, life used, temperature in °C (16 bits, signed) and the dirty-shutdown count. -/
def execGetHealthInfo (h : Fin 2) (dt : Nat) (s : State) : Res := s.run fun d =>
  (d.elapse dt).cxlDo h.val 0x4200 true fun d =>
    d.cxlRespond h.val 0x4200 0
      [bits (d.dwGet 0x500 0) 40 1, d.mediaNow, min 100 (bits (d.dwGet 0x680 0) 48 8), twos 16 (d.pkgMaxT / 16), d.restore.dsCount]

/-- GET_ALERT_CONFIGURATION: the configuration as set. -/
def execGetAlertConfiguration (h : Fin 2) (dt : Nat) (s : State) : Res := s.run fun d =>
  (d.elapse dt).cxlDo h.val 0x4201 false fun d => d.cxlRespond h.val 0x4201 0 [(d.head h.val).alertCfg.toNat]

/-- SET_ALERT_CONFIGURATION. -/
def execSetAlertConfiguration (h : Fin 2) (cfg : BitVec 128) (dt : Nat) (s : State) : Res := s.run fun d =>
  (d.elapse dt).cxlDo h.val 0x4202 false fun d => (d.onHead h.val fun x => { x with alertCfg := cfg }).cxlRespond h.val 0x4202 0 []

/-- GET_SHUTDOWN_STATE: the value that the host has set (R131). -/
def execGetShutdownState (h : Fin 2) (dt : Nat) (s : State) : Res := s.run fun d =>
  (d.elapse dt).cxlDo h.val 0x4203 false fun d => d.cxlRespond h.val 0x4203 0 [(d.head h.val).shutdownState]

/-- SET_SHUTDOWN_STATE: accepted, and its value reported; the count does not change (R131). -/
def execSetShutdownState (h : Fin 2) (v : BitVec 8) (dt : Nat) (s : State) : Res := s.run fun d =>
  (d.elapse dt).cxlDo h.val 0x4204 false fun d => (d.onHead h.val fun x => { x with shutdownState := v.toNat }).cxlRespond h.val 0x4204 0 []

/-! ### Poison (R74, R75, R221, R430) -/

/-- GET_POISON_LIST: overflow, count, and address and length of each range of the head's list that meets `[a, a + n)`. -/
def execGetPoisonList (h : Fin 2) (a n : Nat) (dt : Nat) (s : State) : Res := s.run fun d =>
  (d.elapse dt).cxlDo h.val 0x4300 false fun d =>
    let x := d.head h.val
    let rs := x.poison.filter fun r => decide (r.dpa < a + n) && decide (a < r.dpa + r.len)
    d.cxlRespond h.val 0x4300 0 ([bit x.poisonOvf, rs.length] ++ rs.flatMap fun r => [r.dpa, r.len])

/-- A poison command on a line of a granule that the head owns: it is taken as a write that waits as any other (R41, R47, R123), and is
answered at once. `cmd`: 1 Inject Poison, 2 Clear Poison. -/
def Dev.poisonCmd (d : Dev) (h op dpa cmd : Nat) (data : BitVec 512) : Dev :=
  let p := dpa / 4096
  if dpa % 64 ≠ 0 ∨ !(d.pageOpen h p) then d.cxlRespond h op 3 []
  else if (d.tile (d.pageTile p)).isolated then d.cxlRespond h op 4 []
  else
    let r : HeldReq := { id := d.expo.nextReq, head := h, line := dpa / 64, write := true, data := data, mask := BitVec.allOnes 64, arrive := d.now, cmd := cmd }
    ((d.onExpo fun e => { e with nextReq := e.nextReq + 1 }).admitReq r).cxlRespond h op 0 []

/-- INJECT_POISON: a poisoned line is stored in a granule that the head owns, and its page becomes dirty (R41, R221). -/
def execInjectPoison (h : Fin 2) (dpa : BitVec 45) (dt : Nat) (s : State) : Res := s.run fun d =>
  (d.elapse dt).cxlDo h.val 0x4301 false fun d => d.poisonCmd h.val 0x4301 dpa.toNat 1 0

/-- CLEAR_POISON: a full-line write of the data given (R74). -/
def execClearPoison (h : Fin 2) (dpa : BitVec 45) (data : BitVec 512) (dt : Nat) (s : State) : Res := s.run fun d =>
  (d.elapse dt).cxlDo h.val 0x4302 false fun d => d.poisonCmd h.val 0x4302 dpa.toNat 2 data

/-- SCAN_MEDIA: Unsupported. -/
def execScanMedia (h : Fin 2) (dt : Nat) (s : State) : Res := s.run fun d => (d.elapse dt).cxlUnsup h.val 0x4304

/-! ### Events, timestamp and logs (R335, R336, R397, R430) -/

/-- The fields of an event record. -/
def CxlEvent.vals (e : CxlEvent) : List Nat :=
  [e.handle, e.stamp, e.msg.toNat, e.qtime, e.lseq, e.count, e.context, e.flags.toNat, e.detail.length] ++ e.detail

/-- GET_EVENT_RECORDS: the records of a log, oldest first: 0 Informational, 1 Warning, 2 Failure, 3 Fatal, 4 Dynamic Capacity. -/
def execGetEventRecords (h : Fin 2) (log : Fin 5) (dt : Nat) (s : State) : Res := s.run fun d =>
  (d.elapse dt).cxlDo h.val 0x0100 false fun d =>
    let es := (d.head h.val).events.filter fun e => e.log == log.val
    d.cxlRespond h.val 0x0100 0 (es.length :: es.flatMap CxlEvent.vals)

/-- CLEAR_EVENT_RECORDS: all records of a log, or those with the handles given; a handle that the log does not hold is refused. -/
def execClearEventRecords (h : Fin 2) (log : Fin 5) (all : Bool) (handles : List Nat) (dt : Nat) (s : State) : Res := s.run fun d =>
  (d.elapse dt).cxlDo h.val 0x0101 false fun d =>
    let mine := (d.head h.val).events.filter fun e => e.log == log.val
    if !all && handles.any fun k => !(mine.any fun e => e.handle == k) then d.cxlRespond h.val 0x0101 2 []
    else
      let keep (e : CxlEvent) : Bool := e.log != log.val || !(all || handles.contains e.handle)
      (d.onHead h.val fun x => { x with events := x.events.filter keep }).cxlRespond h.val 0x0101 0 []

/-- GET_EVENT_INTERRUPT_POLICY: one byte for each log. -/
def execGetEventInterruptPolicy (h : Fin 2) (dt : Nat) (s : State) : Res := s.run fun d =>
  (d.elapse dt).cxlDo h.val 0x0102 false fun d =>
    d.cxlRespond h.val 0x0102 0 ((List.range 5).map fun i => bits (d.head h.val).evtPolicy.toNat (8 * i) 8)

/-- SET_EVENT_INTERRUPT_POLICY. -/
def execSetEventInterruptPolicy (h : Fin 2) (policy : BitVec 40) (dt : Nat) (s : State) : Res := s.run fun d =>
  (d.elapse dt).cxlDo h.val 0x0103 false fun d => (d.onHead h.val fun x => { x with evtPolicy := policy }).cxlRespond h.val 0x0103 0 []

/-- GET_TIMESTAMP: the host timestamp, counted on since it was set. -/
def execGetTimestamp (h : Fin 2) (dt : Nat) (s : State) : Res := s.run fun d =>
  (d.elapse dt).cxlDo h.val 0x0300 false fun d => d.cxlRespond h.val 0x0300 0 [d.hostStamp h.val]

/-- SET_TIMESTAMP: it stamps event record headers only; Quartz does not change. -/
def execSetTimestamp (h : Fin 2) (v : BitVec 64) (dt : Nat) (s : State) : Res := s.run fun d =>
  (d.elapse dt).cxlDo h.val 0x0301 false fun d =>
    (d.onHead h.val fun x => { x with hostTime := v.toNat, hostTimeAt := d.now }).cxlRespond h.val 0x0301 0 []

/-- The Command Effects Log: every JCS opcode with its effects; bit 6 says that it runs in the background (R397, R414). -/
def effectsLog : List Byte :=
  (rows1 ++ rows2 ++ rows3 ++ rows4).flatMap fun r =>
    fields [(2, r.op), (2, (if (Config.celEffects r.op).testBit 6 = r.bg then Config.celEffects r.op else Config.celEffects r.op ^^^ 64))]

/-- The identifier of the Command Effects Log, in the order written. -/
def celUuid : BitVec 128 := 0x0DA9C0B5BF414B788F7996B1623B3F17

/-- GET_SUPPORTED_LOGS: one log, its identifier and size in bytes. -/
def execGetSupportedLogs (h : Fin 2) (dt : Nat) (s : State) : Res := s.run fun d =>
  (d.elapse dt).cxlDo h.val 0x0400 false fun d => d.cxlRespond h.val 0x0400 0 [1, celUuid.toNat, effectsLog.length]

/-- GET_LOG: bytes of the Command Effects Log. -/
def execGetLog (h : Fin 2) (log : BitVec 128) (off n : BitVec 32) (dt : Nat) (s : State) : Res := s.run fun d =>
  (d.elapse dt).cxlDo h.val 0x0401 false fun d =>
    if log ≠ celUuid ∨ effectsLog.length < off.toNat + n.toNat ∨ 16384 < n.toNat then d.cxlRespond h.val 0x0401 2 []
    else d.cxlRespond h.val 0x0401 0 (((effectsLog.drop off.toNat).take n.toNat).map fun b => b.toNat)

/-! ### Firmware (R465 to R470, R472, R473) -/

/-- GET_FW_INFO: slots, the running slot, the staged one (0 none), and the version of each valid slot (0 where not valid). -/
def execGetFwInfo (h : Fin 2) (dt : Nat) (s : State) : Res := s.run fun d =>
  (d.elapse dt).cxlDo h.val 0x0200 false fun d =>
    let u := d.lrec
    let ver (st v : Nat) : Nat := if st = 1 ∨ st = 3 then v else 0
    d.cxlRespond h.val 0x0200 0 [2, d.runSlot + 1, (match u.trySlot with | some x => x + 1 | none => 0), ver u.stateA u.verA, ver u.stateB u.verB]

/-- The output of a refusal that names the update owner (R407, R465). -/
def Dev.updConflict (d : Dev) (h op : Nat) : Dev := d.cxlRespond h op 6 [d.lrec.owner, 0, 0x4003]

/-- A chunk of a CXL transfer in order: one that lies wholly below what is durable is acknowledged without being written, any other begins
where the durable bytes end (R468, R469). `last` says that the file ends with it, so that verification follows (R470). -/
def Dev.cxlChunk (d : Dev) (h off : Nat) (data : List Byte) (last : Bool) : Dev :=
  let x := d.upd.xfer
  let n := off + data.length
  if (last ∧ n ≠ x.hdr.fileLen) ∨ x.hdr.fileLen < n then d.cxlRespond h 0x0201 2 []
  else if n ≤ x.durable then
    let d := d.onUpd fun u => { u with xfer := { u.xfer with last := d.now, ended := u.xfer.ended || last } }
    if last then d else d.xferAck 0
  else if off ≠ x.durable then d.cxlRespond h 0x0201 2 []
  else
    let d := d.xferChunk off data
    d.onUpd fun u => { u with xfer := { u.xfer with ended := u.xfer.ended || last } }

/-- The first chunk of a transfer: the header's checks, before anything is written; where the whole file is durable already it is verified
again and nothing more is sent (R468, R470). -/
def Dev.cxlFirst (d : Dev) (h slot : Nat) (data : List Byte) (dig : Nat) (facts : BitVec 4) (last : Bool) : Dev :=
  let hd := parseHdr data
  let r := d.imgReason hd facts d.floorPkg false false
  if r ≠ 0 then (d.imageReject r).cxlRespond h 0x0201 0x14 []
  else if (last ∧ data.length ≠ hd.fileLen) ∨ hd.fileLen < data.length then d.cxlRespond h 0x0201 2 []
  else
    let d := (d.updOwn h slot false).xferHeader hd dig
    if d.upd.xfer.durable ≠ 0 ∧ hd.fileLen ≤ d.upd.xfer.durable then d.onUpd fun u => { u with xfer := { u.xfer with ended := true } }
    else d.cxlChunk h 0 data last

/-- TRANSFER_FW: `action` 0 full transfer, 1 initiate, 2 continue, 3 end, 4 abort; CXL slot 1 for A or 2 for B; offset in units of 128
bytes; chunks of at most 16,256 bytes; `dig` the header's HDR_DIG and `facts` what cryptography tells of it (R465 to R470). -/
def execTransferFw (h : Fin 2) (action : Fin 5) (slot : BitVec 8) (off : BitVec 32) (data : List Byte) (dig : Nat) (facts : BitVec 4) (dt : Nat)
    (s : State) : Res := s.run fun d =>
  (d.elapse dt).cxlDo h.val 0x0201 false fun d =>
    let h := h.val
    let u := d.lrec
    let k := slot.toNat - 1
    let bad := decide (slot.toNat < 1) || decide (2 < slot.toNat) || decide (16256 < data.length)
    if action.val = 4 then
      if u.owner ≠ h then (if u.owner = 255 then d.cxlRespond h 0x0201 4 [] else d.updConflict h 0x0201)
      else if u.trySlot.isSome then d.cxlRespond h 0x0201 4 []
      else d.updRelease.cxlRespond h 0x0201 0 []
    else if bad || k == d.runSlot then d.cxlRespond h 0x0201 2 []
    else if d.updBar ≠ 0 then d.cxlRespond h 0x0201 d.updBar []
    else if action.val ≤ 1 then
      let d := d.updYield h
      if d.lrec.owner ≠ 255 then d.updConflict h 0x0201
      else if off ≠ 0 ∨ data.length < 512 then d.cxlRespond h 0x0201 2 []
      else d.cxlFirst h k data dig facts (action.val == 0)
    else if u.owner ≠ h then (if u.owner = 255 then d.cxlRespond h 0x0201 4 [] else d.updConflict h 0x0201)
    else if !d.upd.xfer.active ∨ d.upd.xfer.pldm ∨ d.upd.xfer.slot ≠ k ∨ d.upd.xfer.ended then d.cxlRespond h 0x0201 4 []
    else if d.upd.xfer.chunkAt.isSome then d.cxlRespond h 0x0201 9 []
    else d.cxlChunk h (off.toNat * 128) data (action.val == 3)

/-- ACTIVATE_FW: `online` takes the activation reset at once, after the command has completed; a test seal makes it NOT_READY (R472,
R473). -/
def execActivateFw (h : Fin 2) (online : Bool) (slot : BitVec 8) (dt : Nat) (s : State) : Res := s.run fun d =>
  let d := d.elapse dt
  if d.answers && d.restore.ready && d.sealing.active && d.sealing.test then d.cxlRespond h.val 0x0202 7 []
  else d.cxlDo h.val 0x0202 false fun d =>
    let h := h.val
    let k := slot.toNat - 1
    if slot.toNat < 1 ∨ 2 < slot.toNat then d.cxlRespond h 0x0202 2 []
    else
      let e := d.activateBar h k
      if e = 6 then d.updConflict h 0x0202
      else if e ≠ 0 then d.cxlRespond h 0x0202 e []
      else
        let d := (d.activate k false).cxlRespond h 0x0202 0 []
        if online then d.trigger 3 else d

/-! ### Dynamic capacity (R176 to R178) -/

/-- GET_DC_CONFIG: one region: its base, length and block size (R176). -/
def execGetDcConfig (h : Fin 2) (dt : Nat) (s : State) : Res := s.run fun d =>
  (d.elapse dt).cxlDo h.val 0x4800 false fun d => d.cxlRespond h.val 0x4800 0 [1, 0, d.hostBytes, 2 ^ 30]

/-- GET_DC_EXTENT_LIST: the extents that the host has accepted: address, length and tag (R176). -/
def execGetDcExtentList (h : Fin 2) (dt : Nat) (s : State) : Res := s.run fun d =>
  (d.elapse dt).cxlDo h.val 0x4801 false fun d =>
    let es := (d.head h.val).extents
    d.cxlRespond h.val 0x4801 0 (es.length :: es.flatMap fun e => [e.1 * 2 ^ 30, 2 ^ 30, e.2])

/-- Granules leave the offers of a head that satisfy `f`; an offer with none left ends. -/
def Dev.dcTake (d : Dev) (h : Nat) (gs : List Nat) (f : DcOffer → Bool) : Dev :=
  let cut (o : DcOffer) : DcOffer := if f o then { o with granules := o.granules.filter fun g => !gs.contains g } else o
  let cs := ((d.head h).dcOffers.filter fun o => f o && o.granules.any gs.contains).map fun o => o.context
  let d := d.onHead h fun x => { x with dcOffers := (x.dcOffers.map cut).filter fun o => !o.granules.isEmpty }
  cs.foldl Dev.dcSettle d

/-- ADD_DC_RESPONSE: the host accepts extents offered to it; DC_PENDING clears once nothing awaits it (R177). -/
def execAddDcResponse (h : Fin 2) (gs : List Nat) (dt : Nat) (s : State) : Res := s.run fun d =>
  (d.elapse dt).cxlDo h.val 0x4802 false fun d =>
    let h := h.val
    let offered (g : Nat) : Bool := (d.head h).dcOffers.any fun o => !o.release && o.granules.contains g
    if !(gs.all offered) then d.cxlRespond h 0x4802 3 []
    else
      let new := (gs.eraseDups.filter fun g => !((d.head h).extents.any fun e => e.1 == g)).map fun g => (g, (d.gran g).context)
      let d := d.onHead h fun x => { x with extents := x.extents ++ new }
      (d.dcTake h gs fun o => !o.release).cxlRespond h 0x4802 0 []

/-- RELEASE_DC: the host releases extents: VALID clears with a TRIM at the commit (R178). -/
def execReleaseDc (h : Fin 2) (gs : List Nat) (dt : Nat) (s : State) : Res := s.run fun d =>
  (d.elapse dt).cxlDo h.val 0x4803 false fun d =>
    let h := h.val
    let mine (g : Nat) : Bool := (d.gran g).valid && (d.gran g).head == h + 1 && !d.granPend g
      && (((d.head h).extents.any fun e => e.1 == g) || (d.head h).dcOffers.any fun o => o.granules.contains g)
    if !(gs.all mine) then d.cxlRespond h 0x4803 3 []
    else
      let d := gs.eraseDups.foldl Dev.releaseGran d
      let d := d.onHead h fun x => { x with extents := x.extents.filter fun e => !gs.contains e.1 }
      (d.dcTake h gs fun _ => true).cxlRespond h 0x4803 0 []

/-! ### Commands that the device does not support (R430) -/

/-- CXL_SANITIZE: Unsupported. -/
def execCxlSanitize (h : Fin 2) (dt : Nat) (s : State) : Res := s.run fun d => (d.elapse dt).cxlUnsup h.val 0x4400
/-- SECURE_ERASE: Unsupported. -/
def execSecureErase (h : Fin 2) (dt : Nat) (s : State) : Res := s.run fun d => (d.elapse dt).cxlUnsup h.val 0x4401
/-- GET_LSA: Unsupported. -/
def execGetLsa (h : Fin 2) (dt : Nat) (s : State) : Res := s.run fun d => (d.elapse dt).cxlUnsup h.val 0x4102
/-- SET_LSA: Unsupported. -/
def execSetLsa (h : Fin 2) (dt : Nat) (s : State) : Res := s.run fun d => (d.elapse dt).cxlUnsup h.val 0x4103

end Sys2Proof.Machine
end

