-- ==== Sys2Proof/Machine/Commands.lean ====
section
/-! DEFINITION. The serialiser: requests on the three transports, dispatch in stamp order and the simultaneity rule, the end of leases and
of background commands, and discarded Direct Window writes (R393, R397 to R403, R406, R407, R412). -/

namespace Sys2Proof.Machine

/-- The field checks and the effect of a JCS opcode. -/
def jcsRow (op : Nat) : (Dev → Caller → List Byte → Nat) × (Dev → Caller → List Byte → Dev × Rsp) :=
  match op with
  | 0xC400 => (capCheck, capAct)
  | 0xC401 => (noCheck, identAct)
  | 0xC402 => (dwCheck, dwAct)
  | 0xC403 => (noCheck, bgStatAct)
  | 0xC410 => (createCheck, createAct)
  | 0xC411 => (granCheck, assignAct)
  | 0xC412 => (releaseCheck, releaseAct)
  | 0xC413 => (granCheck, classAct)
  | 0xC414 => (ownerCheck, ownerAct)
  | 0xC415 => (noCheck, disableAct)
  | 0xC416 => (noCheck, enableAct)
  | 0xC417 => (noCheck, sanitizeAct)
  | 0xC418 => (noCheck, getCtxAct)
  | 0xC419 => (retainCheck, retainAct)
  | 0xC41A => (meterCheck, meterAct)
  | 0xC41B => (listCtxCheck, listCtxAct)
  | 0xC420 => (ringCheck, ringAct)
  | 0xC421 => (ringNoCheck, ringOffAct)
  | 0xC422 => (ringIntCheck, ringIntAct)
  | 0xC423 => (ringNoCheck, getRingAct)
  | 0xC430 => (noCheck, expoAct)
  | 0xC431 => (expoPolicyCheck, expoPolicyAct)
  | 0xC432 => (noCheck, getPolicyAct)
  | 0xC433 => (lapseCheck, lapseAct)
  | 0xC440 => (noCheck, gaugeAct)
  | 0xC441 => (bayCheck, relReqAct)
  | 0xC442 => (holdCheck, holdAct)
  | 0xC443 => (capTestCheck, capTestAct)
  | 0xC444 => (testSealCheck, testSealAct)
  | 0xC445 => (enPolicyCheck, enPolicyAct)
  | 0xC446 => (bayParCheck, bayParAct)
  | 0xC447 => (bridgeParCheck, bridgeParAct)
  | 0xC448 => (chemCheck, chemAct)
  | 0xC449 => (noCheck, gaugeRecAct)
  | 0xC450 => (noCheck, thermAct)
  | 0xC451 => (thermCheck, thermSetAct)
  | 0xC452 => (boardCheck, boardAct)
  | 0xC453 => (thermRecCheck, thermRecAct)
  | 0xC460 => (logCheck, logAct)
  | 0xC461 => (ffCheck, ffAct)
  | 0xC462 => (ackCheck, ackAct)
  | 0xC463 => (injectCheck, injectAct)
  | 0xC464 => (holdTfCheck, holdTfAct)
  | 0xC465 => (countsCheck, countsAct)
  | 0xC470 => (noCheck, snapAct)
  | 0xC471 => (schedCheck, schedAct)
  | 0xC472 => (latSnapCheck, latSnapAct)
  | 0xC473 => (readSnapCheck, readSnapAct)
  | 0xC474 => (relBankCheck, relBankAct)
  | 0xC475 => (cancelCheck, cancelAct)
  | 0xC480 => (noCheck, timeAct)
  | 0xC481 => (noCheck, offsetAct)
  | 0xC482 => (timeOptCheck, timeOptAct)
  | 0xC490 => (getLatCheck, getLatAct)
  | 0xC491 => (setLinkCheck, setLinkAct)
  | 0xC492 => (grantCheck, grantAct)
  | 0xC493 => (replicaCheck, replicaAct)
  | 0xC494 => (ctlReplicaCheck, ctlReplicaAct)
  | 0xC495 => (streamCheck, streamAct)
  | 0xC496 => (migrateCheck, migrateAct)
  | 0xC497 => (ctlMigCheck, ctlMigAct)
  | 0xC498 => (ckptCheck, ckptAct)
  | 0xC499 => (ckptResCheck, ckptResAct)
  | 0xC4A0 => (ranksCheck, ranksAct)
  | 0xC4A1 => (entryCheck, rowFaultsAct)
  | 0xC4A2 => (entryCheck, retireAct)
  | 0xC4A3 => (entryCheck, returnAct)
  | 0xC4A4 => (dramCfgCheck, dramCfgAct)
  | 0xC4B0 => (noCheck, strataAct)
  | 0xC4B1 => (lifeCheck, lifeAct)
  | 0xC4B2 => (strataListCheck, strataListAct)
  | 0xC4B3 => (noCheck, strataRelAct)
  | 0xC4B4 => (damageCheck, damageAct)
  | 0xC4C0 => (acquireCheck, acquireAct)
  | 0xC4C1 => (leaseCheck, leaseRelAct)
  | 0xC4C2 => (leaseCheck, leaseQueryAct)
  | 0xC4C3 => (leaseCheck, breakAct)
  | 0xC4D0 => (noCheck, restoreAct)
  | 0xC4D1 => (poisonCheck, poisonAct)
  | 0xC4D2 => (sealRecCheck, sealRecAct)
  | 0xC4E0 => (noCheck, updStatAct)
  | 0xC4E1 => (updPolCheck, updPolAct)
  | 0xC4E2 => (noCheck, confirmAct)
  | 0xC4E3 => (noCheck, bedrockAct)
  | _ => (noCheck, fun d _ _ => (d, .err 1))

/-- Run a JCS command by its opcode. -/
def Dev.jcsRun (d : Dev) (op : Nat) (c : Caller) (p : List Byte) : Dev := d.jcsDo op (jcsRow op).1 (jcsRow op).2 c p

/-- Whether an opcode's command is changing (R402). -/
def isChanging (op : Nat) : Bool := match cmdRow op with
  | some r => r.chg
  | none => false

/-- The resources that a queued command names. -/
def QCmd.resources (q : QCmd) : List Nat := match cmdRow q.opcode with
  | some r => r.resources q.payload
  | none => []

/-- The caller of a queued command. -/
def QCmd.caller (q : QCmd) : Caller := { p := q.by_, uid := q.uid, tag := q.tag }

/-! ### Requests (R393, R397, R398, R402) -/

/-- A complete request reaches the serialiser (R20, R402): refused while the queue is full; a read is dispatched at once, while commands
are answered; any other command is stamped and queued. -/
def Dev.submit (d : Dev) (c : Caller) (op : Nat) (p : List Byte) : Dev :=
  if !d.panel.coreUp ∨ d.restore.phase = 1 ∨ d.restore.phase = 2 ∨ (d.pkg.bedrock ∧ 2 ≤ c.p) then d
  else if 64 ≤ d.jcs.queue.length then d.respond c op (retOf 9) 9 false (conflictOut 255 0)
  else if !(isChanging op) ∧ d.answers then d.jcsRun op c p
  else (d.onJcs fun j => { j with queue := j.queue ++ [{ by_ := c.p, uid := c.uid, tag := c.tag, stamp := d.now, opcode := op, payload := p }] }).mirrorNow

/-- MAILBOX_DOORBELL: a doorbell write submits the command in a head's mailbox (R397, R402). A CXL opcode's command is the row of its own;
the mailbox is busy until that row responds. -/
def execMailboxDoorbell (h : Fin 2) (opcode : BitVec 16) (payload : List Byte) (dt : Nat) (s : State) : Res := s.run fun d =>
  let d := d.elapse dt
  let op := opcode.toNat
  if (d.head h.val).mboxBusy ∨ !d.panel.coreUp ∨ d.restore.phase = 1 ∨ d.restore.phase = 2 then d
  else
    let d := d.onHead h.val fun x => { x with mboxBusy := true }
    if op < 0xC400 ∨ 0xC4FF < op then d else d.submit { p := h.val } op payload

/-- MCTP_REQUEST: the last packet of a JCS request arrives from endpoint `eid`: only the sideband owner's is taken, a LENGTH above 16,384 is
refused (R398, R402). MCTP is not served in Bedrock (R484). -/
def execMctpRequest (eid : BitVec 8) (tag opcode : BitVec 16) (payload : List Byte) (dt : Nat) (s : State) : Res := s.run fun d =>
  let d := d.elapse dt
  let c : Caller := { p := 2, tag := tag.toNat }
  if !d.panel.coreUp ∨ d.pkg.bedrock then d
  else if eid.toNat ≠ d.jcs.sbEid then d.emit (.resp 255 opcode.toNat tag.toNat (retOf 5) 5 false [])
  else if 16384 < payload.length then d.respond c opcode.toNat 0x16 2 false []
  else (d.onJcs fun j => { j with mctpBusy := addOnce j.mctpBusy tag.toNat }).submit c opcode.toNat payload

/-- JCS_RELAY: the last frame of a JCS command from peer `uid` arrives over link `l`, as principal LP (R380, R393, R399). -/
def execJcsRelay (l : Fin 6) (uid : Nat) (tag opcode : BitVec 16) (payload : List Byte) (dt : Nat) (s : State) : Res := s.run fun d =>
  let d := (d.elapse dt).rxFrames l.val 1 (1 + (payload.length + 63) / 64)
  let c : Caller := { p := 3, uid := uid, tag := tag.toNat }
  match d.latGate with
  | none => d
  | some 0 => if 16384 < payload.length then d.respond c opcode.toNat 0x16 2 false [] else d.submit c opcode.toNat payload
  | some e => d.respond c opcode.toNat (retOf e) e false []

/-! ### Dispatch (R402, R403, R407) -/

/-- A queued command passes every check before those of the leases (R403 steps 1 to 4, R175). -/
def Dev.reaches (d : Dev) (q : QCmd) : Bool := match cmdRow q.opcode with
  | some r => d.admission r q.caller q.payload == 0 && (jcsRow q.opcode).1 d q.caller q.payload == 0 && (d.notOwner r q.caller q.payload).isNone
  | none => false

/-- The rank of a principal on a resource, the least winning (R407): on a context its owning head before SB, else SB, H0, H1, LP. -/
def leaseRank (res p : Nat) : Nat := if res < 0x4000 then (if p < 2 then 0 else p) else if p = 2 then 0 else if p < 2 then p + 1 else 3

/-- The first resource that two commands both name. -/
def QCmd.shared (a b : QCmd) : Option Nat := a.resources.find? b.resources.contains

/-- The commands simultaneous with one on a resource that nobody has leased (R407). -/
def Dev.rivals (d : Dev) (q : QCmd) : List QCmd :=
  d.jcs.queue.filter fun x =>
    x.by_ != q.by_ && isChanging x.opcode && decide (x.stamp < q.stamp + 1000) && d.reaches x
      && (match q.shared x with
        | some r => (d.lease r).holder == 255
        | none => false)

/-- COMMAND_DISPATCH: the oldest changing command whose stamp is 1 µs old is dispatched, or a read that has waited for a takeover; of
commands that are simultaneous with it one runs, once its own stamp is 1 µs old, and the others lose with LEASE_CONFLICT (R402, R407). -/
def execCommandDispatch (dt : Nat) (s : State) : Res := s.run fun d =>
  let d := d.elapse dt
  if !d.answers then d
  else match d.jcs.queue.find? fun q => !(isChanging q.opcode) || decide (1000 ≤ d.now - q.stamp) with
    | none => d
    | some q =>
      let rs := if d.reaches q then d.rivals q else []
      let rank (x : QCmd) : Nat := leaseRank ((q.shared x).getD (q.resources.headD 0)) x.by_
      let win := rs.foldl (fun w x => if rank x < leaseRank ((q.shared x).getD 0) w.by_ then x else w) q
      if isChanging win.opcode && decide (d.now - win.stamp < 1000) then d else
      let all := q :: rs
      let d := d.onJcs fun j => { j with queue := j.queue.filter fun x => !all.contains x }
      let d := d.jcsRun win.opcode win.caller win.payload
      ((all.filter fun x => x != win).foldl (fun d x =>
        d.respond x.caller x.opcode (retOf 6) 6 false (conflictOut win.by_ ((win.shared x).getD ((q.shared x).getD (q.resources.headD 0))))) d).mirrorNow

/-! ### Leases and background commands (R400, R406) -/

/-- LEASE_TIMEOUT: TIMEOUT_S has passed with no command of the holder that names the resource (R406); the update slot's lease has its own
row. -/
def execLeaseTimeout (res : Nat) (dt : Nat) (s : State) : Res := s.run fun d =>
  let d := d.elapse dt
  let l := d.lease res
  if res ≠ 0x4003 ∧ l.holder ≠ 255 ∧ l.timeoutS * 1000000000 ≤ d.since l.last then d.endLease res else d

/-- Whether the work of a running background command of principal `p` has ended. -/
def Dev.bgOver (d : Dev) (p : Nat) (b : Bg) : Bool :=
  let settled := !(d.ctxs.rtPend.any fun x => x.entry.context == b.arg || (d.gran x.granule).context == b.arg)
  if b.opcode = 0xC411 ∨ b.opcode = 0xC413 ∨ b.opcode = 0xC414 then settled
  else if b.opcode = 0xC412 then settled && !(d.releasing b.arg)
  else if b.opcode = 0xC415 then (d.ctx b.arg).state == 3
  else if b.opcode = 0xC417 then (d.ctx b.arg).state == 0
  else if b.opcode = 0xC421 then
    let r := d.ring (b.arg / 64) (b.arg % 64)
    r.state == 3 || (r.state == 4 && r.idle)
  else if b.opcode = 0xC444 then !d.sealing.active
  else if b.opcode = 0xC493 ∨ b.opcode = 0xC496 then !(d.lat.streams.any fun x => x.outgoing && x.session == b.arg && x.setup)
  else if b.opcode = 0xC498 then d.lat.ckpts.all fun k => !(k.coord && k.by_ == p && k.reqId == b.arg) || k.complete
  else false

/-- BACKGROUND_COMPLETE: a background command whose work has ended reports its return code and extended status (R400). -/
def execBackgroundComplete (p : Fin 3) (dt : Nat) (s : State) : Res := s.run fun d =>
  let d := d.elapse dt
  let b := d.bgOf p.val
  if b.running && d.bgOver p.val b then d.bgEnd p.val b.opcode 0 else d

/-! ### Writes that act on nothing (R412) -/

/-- DW_WRITE_DISCARDED: a write of BAR 2 with no action is discarded; in the status region the head's ownership source counts it. -/
def execDwWriteDiscarded (h : Fin 2) (off : BitVec 27) (dt : Nat) (s : State) : Res := s.run fun d =>
  let d := d.elapse dt
  if d.panel.coreUp ∧ off.toNat < 0x100000 then d.raise (ownSrc h.val) 0x12 0 (headOnly := h.val) else d

end Sys2Proof.Machine
end

