-- ==== Sys2Proof/Machine/Dispatch.lean ====
section
/-! DEFINITION. One arm per command, each one direct call of its meaning. -/

namespace Sys2Proof.Machine

/-- A command's effect on everything but the queue. -/
def exec (i : Instr) (s : State) : Host.Outcome State Fault Refusal :=
  match i with
  | .cxlMemRead h hpa errs replBad caErr resv dt => Sys2Proof.Machine.execCxlMemRead h hpa errs replBad caErr resv dt s
  | .cxlMemWrite h hpa data mask ue replBad dt => Sys2Proof.Machine.execCxlMemWrite h hpa data mask ue replBad dt s
  | .armBatchProgram t dt => Sys2Proof.Machine.execArmBatchProgram t dt s
  | .armProgramDone t dead dt => Sys2Proof.Machine.execArmProgramDone t dead dt s
  | .groupDisarm g dt => Sys2Proof.Machine.execGroupDisarm g dt s
  | .disarmBatchProgram t dt => Sys2Proof.Machine.execDisarmBatchProgram t dt s
  | .trickleCapture t keyErr ue dt => Sys2Proof.Machine.execTrickleCapture t keyErr ue dt s
  | .pageRecordDurable t ue dt => Sys2Proof.Machine.execPageRecordDurable t ue dt s
  | .expoStatusUpdate dt => Sys2Proof.Machine.execExpoStatusUpdate dt s
  | .governorRecompute dt => Sys2Proof.Machine.execGovernorRecompute dt s
  | .eventRecompute dt => Sys2Proof.Machine.execEventRecompute dt s
  | .writePacingDelayExpiry dt => Sys2Proof.Machine.execWritePacingDelayExpiry dt s
  | .writeHoldExpiry dt => Sys2Proof.Machine.execWriteHoldExpiry dt s
  | .globalPersistentFlush h dt => Sys2Proof.Machine.execGlobalPersistentFlush h dt s
  | .gpfCompletion h dt => Sys2Proof.Machine.execGpfCompletion h dt s
  | .heartbeat dt => Sys2Proof.Machine.execHeartbeat dt s
  | .leadLost dt => Sys2Proof.Machine.execLeadLost dt s
  | .takeoverComplete dt => Sys2Proof.Machine.execTakeoverComplete dt s
  | .paceUpdate paces dt => Sys2Proof.Machine.execPaceUpdate paces dt s
  | .powerEstimate coreMw otherMw dt => Sys2Proof.Machine.execPowerEstimate coreMw otherMw dt s
  | .operatingPointChange dt => Sys2Proof.Machine.execOperatingPointChange dt s
  | .operatingPointSettled dt => Sys2Proof.Machine.execOperatingPointSettled dt s
  | .meshLinkFailed link dt => Sys2Proof.Machine.execMeshLinkFailed link dt s
  | .regionTableCommit g replBad dt => Sys2Proof.Machine.execRegionTableCommit g replBad dt s
  | .clockedDomainReset dom reqs dt => Sys2Proof.Machine.execClockedDomainReset dom reqs dt s
  | .pwrFailNAssert width taken dt => Sys2Proof.Machine.execPwrFailNAssert width taken dt s
  | .vinSenseLow width taken dt => Sys2Proof.Machine.execVinSenseLow width taken dt s
  | .stage1Complete dt => Sys2Proof.Machine.execStage1Complete dt s
  | .stage2MetadataVerified t dt => Sys2Proof.Machine.execStage2MetadataVerified t dt s
  | .stage2Complete t ue dt => Sys2Proof.Machine.execStage2Complete t ue dt s
  | .stage3Complete t dt => Sys2Proof.Machine.execStage3Complete t dt s
  | .tileSealRecordWritten t dt => Sys2Proof.Machine.execTileSealRecordWritten t dt s
  | .packageSealRecordWritten canary dt => Sys2Proof.Machine.execPackageSealRecordWritten canary dt s
  | .stage5Complete dt => Sys2Proof.Machine.execStage5Complete dt s
  | .sealStatusUpdate dt => Sys2Proof.Machine.execSealStatusUpdate dt s
  | .energyFloorReached dt => Sys2Proof.Machine.execEnergyFloorReached dt s
  | .sealProgramFail t blk dt => Sys2Proof.Machine.execSealProgramFail t blk dt s
  | .mainsGood dt => Sys2Proof.Machine.execMainsGood dt s
  | .resetNRelease dt => Sys2Proof.Machine.execResetNRelease dt s
  | .forcedReset dt => Sys2Proof.Machine.execForcedReset dt s
  | .testSealPathVerified ok dt => Sys2Proof.Machine.execTestSealPathVerified ok dt s
  | .testSealHoldLimit dt => Sys2Proof.Machine.execTestSealHoldLimit dt s
  | .bootComplete self okA okB warmOk twinOk half torn temps geom untrained dt => Sys2Proof.Machine.execBootComplete self okA okB warmOk twinOk half torn temps geom untrained dt s
  | .dramInitComplete n size rate ecc dt => Sys2Proof.Machine.execDramInitComplete n size rate ecc dt s
  | .channelTrainingDone t c ok pop dev chk dt => Sys2Proof.Machine.execChannelTrainingDone t c ok pop dev chk dt s
  | .tileTierDecided t scan ledgerOk badHdr half dt => Sys2Proof.Machine.execTileTierDecided t scan ledgerOk badHdr half dt s
  | .mountCrossCheck dt => Sys2Proof.Machine.execMountCrossCheck dt s
  | .mountCommitted t dt => Sys2Proof.Machine.execMountCommitted t dt s
  | .mountTimeout t dt => Sys2Proof.Machine.execMountTimeout t dt s
  | .earlyOpen dt => Sys2Proof.Machine.execEarlyOpen dt s
  | .demandFetchComplete p out keyErr dt => Sys2Proof.Machine.execDemandFetchComplete p out keyErr dt s
  | .bulkRestorePage t fill out keyErr dt => Sys2Proof.Machine.execBulkRestorePage t fill out keyErr dt s
  | .bulkRestoreComplete t dt => Sys2Proof.Machine.execBulkRestoreComplete t dt s
  | .restoreStatusUpdate dt => Sys2Proof.Machine.execRestoreStatusUpdate dt s
  | .locatorCheckpoint t dt => Sys2Proof.Machine.execLocatorCheckpoint t dt s
  | .checkpointCommit t dt => Sys2Proof.Machine.execCheckpointCommit t dt s
  | .ledgerSummary t dt => Sys2Proof.Machine.execLedgerSummary t dt s
  | .backgroundErase t blk dt => Sys2Proof.Machine.execBackgroundErase t blk dt s
  | .eraseDone t blk ok dt => Sys2Proof.Machine.execEraseDone t blk ok dt s
  | .flashOpFail t blk reason lost soft statusFail wholeDie dt => Sys2Proof.Machine.execFlashOpFail t blk reason lost soft statusFail wholeDie dt s
  | .garbageCollection t lost soft dt => Sys2Proof.Machine.execGarbageCollection t lost soft dt s
  | .coldCompaction t lost soft dt => Sys2Proof.Machine.execColdCompaction t lost soft dt s
  | .retentionRefresh t blk lost soft dt => Sys2Proof.Machine.execRetentionRefresh t blk lost soft dt s
  | .wearLeveling t die lost soft dt => Sys2Proof.Machine.execWearLeveling t die lost soft dt s
  | .budgetRecompute dt => Sys2Proof.Machine.execBudgetRecompute dt s
  | .borrowAccountUpdate dt => Sys2Proof.Machine.execBorrowAccountUpdate dt s
  | .strataStatusUpdate dt => Sys2Proof.Machine.execStrataStatusUpdate dt s
  | .doorbellSq h c k tail ue dt => Sys2Proof.Machine.execDoorbellSq h c k tail ue dt s
  | .doorbellCq h c k head dt => Sys2Proof.Machine.execDoorbellCq h c k head dt s
  | .fence c k dt => Sys2Proof.Machine.execFence c k dt s
  | .fenceComplete c k dt => Sys2Proof.Machine.execFenceComplete c k dt s
  | .checkpoint c k dt => Sys2Proof.Machine.execCheckpoint c k dt s
  | .checkpointStratumSet c k dt => Sys2Proof.Machine.execCheckpointStratumSet c k dt s
  | .checkpointComplete c k m dt => Sys2Proof.Machine.execCheckpointComplete c k m dt s
  | .rollback c k dt => Sys2Proof.Machine.execRollback c k dt s
  | .rollbackSwitchCommit c k dt => Sys2Proof.Machine.execRollbackSwitchCommit c k dt s
  | .reversalComplete p out dt => Sys2Proof.Machine.execReversalComplete p out dt s
  | .rollbackBitmapRebuilt t dt => Sys2Proof.Machine.execRollbackBitmapRebuilt t dt s
  | .exposureQuery c k dt => Sys2Proof.Machine.execExposureQuery c k dt s
  | .meterMark c k dt => Sys2Proof.Machine.execMeterMark c k dt s
  | .nop c k dt => Sys2Proof.Machine.execNop c k dt s
  | .coalesceTimerExpiry c k dt => Sys2Proof.Machine.execCoalesceTimerExpiry c k dt s
  | .quiesceComplete c dt => Sys2Proof.Machine.execQuiesceComplete c dt s
  | .zeroFillComplete g dt => Sys2Proof.Machine.execZeroFillComplete g dt s
  | .dcReleaseTimeout h dt => Sys2Proof.Machine.execDcReleaseTimeout h dt s
  | .sanitizeStepDone c dt => Sys2Proof.Machine.execSanitizeStepDone c dt s
  | .minuteBoundary dt => Sys2Proof.Machine.execMinuteBoundary dt s
  | .meteringWrite dt => Sys2Proof.Machine.execMeteringWrite dt s
  | .lineRepairComplete p recBad dt => Sys2Proof.Machine.execLineRepairComplete p recBad dt s
  | .patrolScrub line errs caErr lost dt => Sys2Proof.Machine.execPatrolScrub line errs caErr lost dt s
  | .caRetrainDone t c ok dt => Sys2Proof.Machine.execCaRetrainDone t c ok dt s
  | .tokenRefill t c dt => Sys2Proof.Machine.execTokenRefill t c dt s
  | .mr4Poll t c codes dt => Sys2Proof.Machine.execMr4Poll t c codes dt s
  | .refreshDue t c bank postpone dt => Sys2Proof.Machine.execRefreshDue t c bank postpone dt s
  | .gatherWindowOpen t c dt => Sys2Proof.Machine.execGatherWindowOpen t c dt s
  | .gatherWindowClose t c drifts dt => Sys2Proof.Machine.execGatherWindowClose t c drifts dt s
  | .partialTrainingDone t c r dt => Sys2Proof.Machine.execPartialTrainingDone t c r dt s
  | .fspSwitchDone t c dt => Sys2Proof.Machine.execFspSwitchDone t c dt s
  | .selfRefreshEntry t c scrubDue dt => Sys2Proof.Machine.execSelfRefreshEntry t c scrubDue dt s
  | .dramChStatusUpdate dt => Sys2Proof.Machine.execDramChStatusUpdate dt s
  | .steerRecordProgrammed t dt => Sys2Proof.Machine.execSteerRecordProgrammed t dt s
  | .sweepBlockCopied t e ue homeBad dt => Sys2Proof.Machine.execSweepBlockCopied t e ue homeBad dt s
  | .hpprDone t e ok dt => Sys2Proof.Machine.execHpprDone t e ok dt s
  | .patternTestDone t e ues ces clean0 clean1 dt => Sys2Proof.Machine.execPatternTestDone t e ues ces clean0 clean1 dt s
  | .gaugeSample samples cv dt => Sys2Proof.Machine.execGaugeSample samples cv dt s
  | .packFaultCleared b dt => Sys2Proof.Machine.execPackFaultCleared b dt s
  | .offsetCalibration b mean dt => Sys2Proof.Machine.execOffsetCalibration b mean dt s
  | .estimatorRecompute dt => Sys2Proof.Machine.execEstimatorRecompute dt s
  | .qualifiedRestEnd b vOc dt => Sys2Proof.Machine.execQualifiedRestEnd b vOc dt s
  | .dcirMeasurement b dv di dt => Sys2Proof.Machine.execDcirMeasurement b dv di dt s
  | .bridgeChargeMeasured v0 v1 q esr steady dt => Sys2Proof.Machine.execBridgeChargeMeasured v0 v1 q esr steady dt s
  | .packFirstEstimate b mv dt => Sys2Proof.Machine.execPackFirstEstimate b mv dt s
  | .chargeTimeout b dt => Sys2Proof.Machine.execChargeTimeout b dt s
  | .capacityTestDue b dt => Sys2Proof.Machine.execCapacityTestDue b dt s
  | .capacityTestStep b dt => Sys2Proof.Machine.execCapacityTestStep b dt s
  | .gaugeRecordWrite dt => Sys2Proof.Machine.execGaugeRecordWrite dt s
  | .slotAssistUpdate drawMw dt => Sys2Proof.Machine.execSlotAssistUpdate drawMw dt s
  | .forcedRestDue dt => Sys2Proof.Machine.execForcedRestDue dt s
  | .bayTouch b dt => Sys2Proof.Machine.execBayTouch b dt s
  | .bayReleasePress b down dt => Sys2Proof.Machine.execBayReleasePress b down dt s
  | .bayLatchOpen b dt => Sys2Proof.Machine.execBayLatchOpen b dt s
  | .bayLatchClose b dt => Sys2Proof.Machine.execBayLatchClose b dt s
  | .waitingTimeout b dt => Sys2Proof.Machine.execWaitingTimeout b dt s
  | .grantLapse b dt => Sys2Proof.Machine.execGrantLapse b dt s
  | .thermalSample codes dt => Sys2Proof.Machine.execThermalSample codes dt s
  | .thresholdLevelLeave n k dt => Sys2Proof.Machine.execThresholdLevelLeave n k dt s
  | .throttleStep t dt => Sys2Proof.Machine.execThrottleStep t dt s
  | .throttleFall t dt => Sys2Proof.Machine.execThrottleFall t dt s
  | .sensorRecover n dt => Sys2Proof.Machine.execSensorRecover n dt s
  | .freezeEnd t dt => Sys2Proof.Machine.execFreezeEnd t dt s
  | .coolWaitExpiry dt => Sys2Proof.Machine.execCoolWaitExpiry dt s
  | .criticalTrip n dt => Sys2Proof.Machine.execCriticalTrip n dt s
  | .thermalStatusUpdate dt => Sys2Proof.Machine.execThermalStatusUpdate dt s
  | .flintMessage c n pk dt => Sys2Proof.Machine.execFlintMessage c n pk dt s
  | .safeStateDecision dt => Sys2Proof.Machine.execSafeStateDecision dt s
  | .shadowWindowClose dt => Sys2Proof.Machine.execShadowWindowClose dt s
  | .lostMessageReport c dt => Sys2Proof.Machine.execLostMessageReport c dt s
  | .eventPostRate dt => Sys2Proof.Machine.execEventPostRate dt s
  | .flintExtractWrite dt => Sys2Proof.Machine.execFlintExtractWrite dt s
  | .aliveToggle dt => Sys2Proof.Machine.execAliveToggle dt s
  | .standbyCountLoad dt => Sys2Proof.Machine.execStandbyCountLoad dt s
  | .quartzTimeRecord dt => Sys2Proof.Machine.execQuartzTimeRecord dt s
  | .referenceLost dt => Sys2Proof.Machine.execReferenceLost dt s
  | .referenceGood dt => Sys2Proof.Machine.execReferenceGood dt s
  | .ppsInEdge width dt => Sys2Proof.Machine.execPpsInEdge width dt s
  | .ppsTimeout dt => Sys2Proof.Machine.execPpsTimeout dt s
  | .ppsOutEdge dt => Sys2Proof.Machine.execPpsOutEdge dt s
  | .ppsOutFall dt => Sys2Proof.Machine.execPpsOutFall dt s
  | .qtzNowRead h half dt => Sys2Proof.Machine.execQtzNowRead h half dt s
  | .qtzStatusUpdate dt => Sys2Proof.Machine.execQtzStatusUpdate dt s
  | .rootGiveWay dt => Sys2Proof.Machine.execRootGiveWay dt s
  | .timeRootLost dt => Sys2Proof.Machine.execTimeRootLost dt s
  | .snapInEdge width dt => Sys2Proof.Machine.execSnapInEdge width dt s
  | .scheduledTriggerFire dt => Sys2Proof.Machine.execScheduledTriggerFire dt s
  | .snapshotBankWrite dt => Sys2Proof.Machine.execSnapshotBankWrite dt s
  | .linkTrainingAttempt l signal dt => Sys2Proof.Machine.execLinkTrainingAttempt l signal dt s
  | .linkTrained l outcome dt => Sys2Proof.Machine.execLinkTrained l outcome dt s
  | .linkSignalLoss l dt => Sys2Proof.Machine.execLinkSignalLoss l dt s
  | .ack l fseq dt => Sys2Proof.Machine.execAck l fseq dt s
  | .nak l fseq dt => Sys2Proof.Machine.execNak l fseq dt s
  | .ackSend l dt => Sys2Proof.Machine.execAckSend l dt s
  | .replayTimeout l dt => Sys2Proof.Machine.execReplayTimeout l dt s
  | .creditReturn l vl n dt => Sys2Proof.Machine.execCreditReturn l vl n dt s
  | .creditWaitDiscard l dt => Sys2Proof.Machine.execCreditWaitDiscard l dt s
  | .frameForward l good fseq dst src vl svc ttl som eom uid body dt => Sys2Proof.Machine.execFrameForward l good fseq dst src vl svc ttl som eom uid body dt s
  | .helloSend l dt => Sys2Proof.Machine.execHelloSend l dt s
  | .hello l crcOk uid nodeId plink flags cls hops troot tseq rclass hseq dt => Sys2Proof.Machine.execHello l crcOk uid nodeId plink flags cls hops troot tseq rclass hseq dt s
  | .helloMissing l dt => Sys2Proof.Machine.execHelloMissing l dt s
  | .holdExpired l dt => Sys2Proof.Machine.execHoldExpired l dt s
  | .linkStateAdvertisement l crcOk uid nodeId flags seq nbrs dt => Sys2Proof.Machine.execLinkStateAdvertisement l crcOk uid nodeId flags seq nbrs dt s
  | .lsaPeriodic dt => Sys2Proof.Machine.execLsaPeriodic dt s
  | .lsaExpiry dt => Sys2Proof.Machine.execLsaExpiry dt s
  | .routeCompute ms dt => Sys2Proof.Machine.execRouteCompute ms dt s
  | .nodeIdRequest l uid pref dt => Sys2Proof.Machine.execNodeIdRequest l uid pref dt s
  | .nodeIdGrant l uid id refused dt => Sys2Proof.Machine.execNodeIdGrant l uid id refused dt s
  | .timeExchangeSend dt => Sys2Proof.Machine.execTimeExchangeSend dt s
  | .timeExchangeReq l t1 dt => Sys2Proof.Machine.execTimeExchangeReq l t1 dt s
  | .timeExchangeAnswer l t2 t3 unc dt => Sys2Proof.Machine.execTimeExchangeAnswer l t2 t3 unc dt s
  | .latticeCheckpointRequest l uid reqId tc c dt => Sys2Proof.Machine.execLatticeCheckpointRequest l uid reqId tc c dt s
  | .latticeCheckpointTime dt => Sys2Proof.Machine.execLatticeCheckpointTime dt s
  | .latticeCheckpointAnswer l uid reqId c status ts dt => Sys2Proof.Machine.execLatticeCheckpointAnswer l uid reqId c status ts dt s
  | .latticeCheckpointTimeout dt => Sys2Proof.Machine.execLatticeCheckpointTimeout dt s
  | .replicaSend session ue dt => Sys2Proof.Machine.execReplicaSend session ue dt s
  | .replicaData l uid session op mseq k o grans data n dt => Sys2Proof.Machine.execReplicaData l uid session op mseq k o grans data n dt s
  | .replicaAck l session op mseq status grans dt => Sys2Proof.Machine.execReplicaAck l session op mseq status grans dt s
  | .sessionResend session dt => Sys2Proof.Machine.execSessionResend session dt s
  | .peerUnreachable uid dt => Sys2Proof.Machine.execPeerUnreachable uid dt s
  | .migrationFinalAck l session dt => Sys2Proof.Machine.execMigrationFinalAck l session dt s
  | .remoteSnapshotTrigger l node reqId time dt => Sys2Proof.Machine.execRemoteSnapshotTrigger l node reqId time dt s
  | .remoteSnapshotAnswer l node reqId code dt => Sys2Proof.Machine.execRemoteSnapshotAnswer l node reqId code dt s
  | .remoteSnapshotTimeout dt => Sys2Proof.Machine.execRemoteSnapshotTimeout dt s
  | .jcsRelay l uid tag opcode payload dt => Sys2Proof.Machine.execJcsRelay l uid tag opcode payload dt s
  | .latticeStatusUpdate dt => Sys2Proof.Machine.execLatticeStatusUpdate dt s
  | .commandDispatch dt => Sys2Proof.Machine.execCommandDispatch dt s
  | .leaseTimeout res dt => Sys2Proof.Machine.execLeaseTimeout res dt s
  | .backgroundComplete p dt => Sys2Proof.Machine.execBackgroundComplete p dt s
  | .dwWriteDiscarded h off dt => Sys2Proof.Machine.execDwWriteDiscarded h off dt s
  | .getCapabilities by_ uid payload dt => Sys2Proof.Machine.execGetCapabilities by_ uid payload dt s
  | .getIdentity by_ uid payload dt => Sys2Proof.Machine.execGetIdentity by_ uid payload dt s
  | .readDirectWindow by_ uid payload dt => Sys2Proof.Machine.execReadDirectWindow by_ uid payload dt s
  | .getBackgroundStatus by_ uid payload dt => Sys2Proof.Machine.execGetBackgroundStatus by_ uid payload dt s
  | .create by_ uid payload dt => Sys2Proof.Machine.execCreate by_ uid payload dt s
  | .assign by_ uid payload dt => Sys2Proof.Machine.execAssign by_ uid payload dt s
  | .release by_ uid payload dt => Sys2Proof.Machine.execRelease by_ uid payload dt s
  | .setClass by_ uid payload dt => Sys2Proof.Machine.execSetClass by_ uid payload dt s
  | .setOwner by_ uid payload dt => Sys2Proof.Machine.execSetOwner by_ uid payload dt s
  | .disable by_ uid payload dt => Sys2Proof.Machine.execDisable by_ uid payload dt s
  | .enable by_ uid payload dt => Sys2Proof.Machine.execEnable by_ uid payload dt s
  | .sanitize by_ uid payload dt => Sys2Proof.Machine.execSanitize by_ uid payload dt s
  | .getContext by_ uid payload dt => Sys2Proof.Machine.execGetContext by_ uid payload dt s
  | .setRetention by_ uid payload dt => Sys2Proof.Machine.execSetRetention by_ uid payload dt s
  | .readMetering by_ uid payload dt => Sys2Proof.Machine.execReadMetering by_ uid payload dt s
  | .listContexts by_ uid payload dt => Sys2Proof.Machine.execListContexts by_ uid payload dt s
  | .configureRing by_ uid payload dt => Sys2Proof.Machine.execConfigureRing by_ uid payload dt s
  | .disableRing by_ uid payload dt => Sys2Proof.Machine.execDisableRing by_ uid payload dt s
  | .setInterrupts by_ uid payload dt => Sys2Proof.Machine.execSetInterrupts by_ uid payload dt s
  | .getRing by_ uid payload dt => Sys2Proof.Machine.execGetRing by_ uid payload dt s
  | .getExposure by_ uid payload dt => Sys2Proof.Machine.execGetExposure by_ uid payload dt s
  | .setExposurePolicy by_ uid payload dt => Sys2Proof.Machine.execSetExposurePolicy by_ uid payload dt s
  | .getExposurePolicy by_ uid payload dt => Sys2Proof.Machine.execGetExposurePolicy by_ uid payload dt s
  | .readLapseRecords by_ uid payload dt => Sys2Proof.Machine.execReadLapseRecords by_ uid payload dt s
  | .getGauge by_ uid payload dt => Sys2Proof.Machine.execGetGauge by_ uid payload dt s
  | .requestRelease by_ uid payload dt => Sys2Proof.Machine.execRequestRelease by_ uid payload dt s
  | .setHold by_ uid payload dt => Sys2Proof.Machine.execSetHold by_ uid payload dt s
  | .capacityTest by_ uid payload dt => Sys2Proof.Machine.execCapacityTest by_ uid payload dt s
  | .testSeal by_ uid payload dt => Sys2Proof.Machine.execTestSeal by_ uid payload dt s
  | .setEnergyPolicy by_ uid payload dt => Sys2Proof.Machine.execSetEnergyPolicy by_ uid payload dt s
  | .setBayParameters by_ uid payload dt => Sys2Proof.Machine.execSetBayParameters by_ uid payload dt s
  | .setBridgeParameters by_ uid payload dt => Sys2Proof.Machine.execSetBridgeParameters by_ uid payload dt s
  | .loadChemistryTable by_ uid payload dt => Sys2Proof.Machine.execLoadChemistryTable by_ uid payload dt s
  | .readGaugeRecords by_ uid payload dt => Sys2Proof.Machine.execReadGaugeRecords by_ uid payload dt s
  | .getThermal by_ uid payload dt => Sys2Proof.Machine.execGetThermal by_ uid payload dt s
  | .setThermal by_ uid payload dt => Sys2Proof.Machine.execSetThermal by_ uid payload dt s
  | .setBoardThresholds by_ uid payload dt => Sys2Proof.Machine.execSetBoardThresholds by_ uid payload dt s
  | .readThermalRecords by_ uid payload dt => Sys2Proof.Machine.execReadThermalRecords by_ uid payload dt s
  | .readLog by_ uid payload dt => Sys2Proof.Machine.execReadLog by_ uid payload dt s
  | .readFirstFault by_ uid payload dt => Sys2Proof.Machine.execReadFirstFault by_ uid payload dt s
  | .acknowledge by_ uid payload dt => Sys2Proof.Machine.execAcknowledge by_ uid payload dt s
  | .inject by_ uid payload dt => Sys2Proof.Machine.execInject by_ uid payload dt s
  | .holdTfaultN by_ uid payload dt => Sys2Proof.Machine.execHoldTfaultN by_ uid payload dt s
  | .readCounts by_ uid payload dt => Sys2Proof.Machine.execReadCounts by_ uid payload dt s
  | .takeSnapshot by_ uid payload dt => Sys2Proof.Machine.execTakeSnapshot by_ uid payload dt s
  | .scheduleSnapshot by_ uid payload dt => Sys2Proof.Machine.execScheduleSnapshot by_ uid payload dt s
  | .latticeSnapshot by_ uid payload dt => Sys2Proof.Machine.execLatticeSnapshot by_ uid payload dt s
  | .readSnapshot by_ uid payload dt => Sys2Proof.Machine.execReadSnapshot by_ uid payload dt s
  | .releaseBank by_ uid payload dt => Sys2Proof.Machine.execReleaseBank by_ uid payload dt s
  | .cancelScheduled by_ uid payload dt => Sys2Proof.Machine.execCancelScheduled by_ uid payload dt s
  | .getTime by_ uid payload dt => Sys2Proof.Machine.execGetTime by_ uid payload dt s
  | .setOffset by_ uid payload dt => Sys2Proof.Machine.execSetOffset by_ uid payload dt s
  | .setTimeOptions by_ uid payload dt => Sys2Proof.Machine.execSetTimeOptions by_ uid payload dt s
  | .getLattice by_ uid payload dt => Sys2Proof.Machine.execGetLattice by_ uid payload dt s
  | .setLink by_ uid payload dt => Sys2Proof.Machine.execSetLink by_ uid payload dt s
  | .setGrant by_ uid payload dt => Sys2Proof.Machine.execSetGrant by_ uid payload dt s
  | .createReplica by_ uid payload dt => Sys2Proof.Machine.execCreateReplica by_ uid payload dt s
  | .controlReplica by_ uid payload dt => Sys2Proof.Machine.execControlReplica by_ uid payload dt s
  | .streamStatus by_ uid payload dt => Sys2Proof.Machine.execStreamStatus by_ uid payload dt s
  | .migrate by_ uid payload dt => Sys2Proof.Machine.execMigrate by_ uid payload dt s
  | .controlMigration by_ uid payload dt => Sys2Proof.Machine.execControlMigration by_ uid payload dt s
  | .latticeCheckpoint by_ uid payload dt => Sys2Proof.Machine.execLatticeCheckpoint by_ uid payload dt s
  | .checkpointResult by_ uid payload dt => Sys2Proof.Machine.execCheckpointResult by_ uid payload dt s
  | .getRanks by_ uid payload dt => Sys2Proof.Machine.execGetRanks by_ uid payload dt s
  | .readRowFaults by_ uid payload dt => Sys2Proof.Machine.execReadRowFaults by_ uid payload dt s
  | .retireRank by_ uid payload dt => Sys2Proof.Machine.execRetireRank by_ uid payload dt s
  | .returnRank by_ uid payload dt => Sys2Proof.Machine.execReturnRank by_ uid payload dt s
  | .setDramConfiguration by_ uid payload dt => Sys2Proof.Machine.execSetDramConfiguration by_ uid payload dt s
  | .getStrataStatus by_ uid payload dt => Sys2Proof.Machine.execGetStrataStatus by_ uid payload dt s
  | .setLifeTarget by_ uid payload dt => Sys2Proof.Machine.execSetLifeTarget by_ uid payload dt s
  | .listStrata by_ uid payload dt => Sys2Proof.Machine.execListStrata by_ uid payload dt s
  | .releaseStratum by_ uid payload dt => Sys2Proof.Machine.execReleaseStratum by_ uid payload dt s
  | .readDamageList by_ uid payload dt => Sys2Proof.Machine.execReadDamageList by_ uid payload dt s
  | .acquire by_ uid payload dt => Sys2Proof.Machine.execAcquire by_ uid payload dt s
  | .leaseRelease by_ uid payload dt => Sys2Proof.Machine.execLeaseRelease by_ uid payload dt s
  | .query by_ uid payload dt => Sys2Proof.Machine.execQuery by_ uid payload dt s
  | .breakLease by_ uid payload dt => Sys2Proof.Machine.execBreak by_ uid payload dt s
  | .getRestoreStatus by_ uid payload dt => Sys2Proof.Machine.execGetRestoreStatus by_ uid payload dt s
  | .readPoisonList by_ uid payload dt => Sys2Proof.Machine.execReadPoisonList by_ uid payload dt s
  | .readSealRecords by_ uid payload dt => Sys2Proof.Machine.execReadSealRecords by_ uid payload dt s
  | .getUpdateStatus by_ uid payload dt => Sys2Proof.Machine.execGetUpdateStatus by_ uid payload dt s
  | .setUpdatePolicy by_ uid payload dt => Sys2Proof.Machine.execSetUpdatePolicy by_ uid payload dt s
  | .confirm by_ uid payload dt => Sys2Proof.Machine.execConfirm by_ uid payload dt s
  | .enterBedrock by_ uid payload dt => Sys2Proof.Machine.execEnterBedrock by_ uid payload dt s
  | .identifyMemoryDevice h dt => Sys2Proof.Machine.execIdentifyMemoryDevice h dt s
  | .getPartitionInfo h dt => Sys2Proof.Machine.execGetPartitionInfo h dt s
  | .setPartitionInfo h dt => Sys2Proof.Machine.execSetPartitionInfo h dt s
  | .getHealthInfo h dt => Sys2Proof.Machine.execGetHealthInfo h dt s
  | .getAlertConfiguration h dt => Sys2Proof.Machine.execGetAlertConfiguration h dt s
  | .setAlertConfiguration h cfg dt => Sys2Proof.Machine.execSetAlertConfiguration h cfg dt s
  | .getShutdownState h dt => Sys2Proof.Machine.execGetShutdownState h dt s
  | .setShutdownState h v dt => Sys2Proof.Machine.execSetShutdownState h v dt s
  | .getPoisonList h a n dt => Sys2Proof.Machine.execGetPoisonList h a n dt s
  | .injectPoison h dpa dt => Sys2Proof.Machine.execInjectPoison h dpa dt s
  | .clearPoison h dpa data dt => Sys2Proof.Machine.execClearPoison h dpa data dt s
  | .scanMedia h dt => Sys2Proof.Machine.execScanMedia h dt s
  | .getEventRecords h log dt => Sys2Proof.Machine.execGetEventRecords h log dt s
  | .clearEventRecords h log all handles dt => Sys2Proof.Machine.execClearEventRecords h log all handles dt s
  | .getEventInterruptPolicy h dt => Sys2Proof.Machine.execGetEventInterruptPolicy h dt s
  | .setEventInterruptPolicy h policy dt => Sys2Proof.Machine.execSetEventInterruptPolicy h policy dt s
  | .getTimestamp h dt => Sys2Proof.Machine.execGetTimestamp h dt s
  | .setTimestamp h v dt => Sys2Proof.Machine.execSetTimestamp h v dt s
  | .getSupportedLogs h dt => Sys2Proof.Machine.execGetSupportedLogs h dt s
  | .getLog h log off n dt => Sys2Proof.Machine.execGetLog h log off n dt s
  | .getFwInfo h dt => Sys2Proof.Machine.execGetFwInfo h dt s
  | .transferFw h action slot off data dig facts dt => Sys2Proof.Machine.execTransferFw h action slot off data dig facts dt s
  | .activateFw h online slot dt => Sys2Proof.Machine.execActivateFw h online slot dt s
  | .getDcConfig h dt => Sys2Proof.Machine.execGetDcConfig h dt s
  | .getDcExtentList h dt => Sys2Proof.Machine.execGetDcExtentList h dt s
  | .addDcResponse h gs dt => Sys2Proof.Machine.execAddDcResponse h gs dt s
  | .releaseDc h gs dt => Sys2Proof.Machine.execReleaseDc h gs dt s
  | .cxlSanitize h dt => Sys2Proof.Machine.execCxlSanitize h dt s
  | .secureErase h dt => Sys2Proof.Machine.execSecureErase h dt s
  | .getLsa h dt => Sys2Proof.Machine.execGetLsa h dt s
  | .setLsa h dt => Sys2Proof.Machine.execSetLsa h dt s
  | .requestUpdate eid maxTransfer dt => Sys2Proof.Machine.execRequestUpdate eid maxTransfer dt s
  | .requestFirmwareData data dig facts dt => Sys2Proof.Machine.execRequestFirmwareData data dig facts dt s
  | .activateFirmware selfContained dt => Sys2Proof.Machine.execActivateFirmware selfContained dt s
  | .cancelUpdate dt => Sys2Proof.Machine.execCancelUpdate dt s
  | .chunkDurable dt => Sys2Proof.Machine.execChunkDurable dt s
  | .slotVerification facts dt => Sys2Proof.Machine.execSlotVerification facts dt s
  | .updateIdleTimeout dt => Sys2Proof.Machine.execUpdateIdleTimeout dt s
  | .updateConfirmation dt => Sys2Proof.Machine.execUpdateConfirmation dt s
  | .confirmWindowExpiry dt => Sys2Proof.Machine.execConfirmWindowExpiry dt s
  | .slateKey t off v fetch purpose dt => Sys2Proof.Machine.execSlateKey t off v fetch purpose dt s
  | .programLine t addr data fetch dt => Sys2Proof.Machine.execProgramLine t addr data fetch dt s
  | .eraseSector t addr fetch purpose dt => Sys2Proof.Machine.execEraseSector t addr fetch purpose dt s
  | .marginVerify t addr fetch dt => Sys2Proof.Machine.execMarginVerify t addr fetch dt s
  | .readEraseCounter t addr fetch dt => Sys2Proof.Machine.execReadEraseCounter t addr fetch dt s
  | .swapBootTwin t addr fetch dt => Sys2Proof.Machine.execSwapBootTwin t addr fetch dt s
  | .blankCheck t addr fetch dt => Sys2Proof.Machine.execBlankCheck t addr fetch dt s
  | .slateSequenceTimeout t dt => Sys2Proof.Machine.execSlateSequenceTimeout t dt s
  | .slateOperationDone t bank ok pulses fail dt => Sys2Proof.Machine.execSlateOperationDone t bank ok pulses fail dt s
  | .suspend t dt => Sys2Proof.Machine.execSuspend t dt s
  | .resume t dt => Sys2Proof.Machine.execResume t dt s
  | .suspendHoldEnd t dt => Sys2Proof.Machine.execSuspendHoldEnd t dt s
  | .suspended t dt => Sys2Proof.Machine.execSuspended t dt s
  | .slateReadUnderrun t err dt => Sys2Proof.Machine.execSlateReadUnderrun t err dt s
  | .parameterRecordWrite t typ len dt => Sys2Proof.Machine.execParameterRecordWrite t typ len dt s
  | .eventStoreRotation t dt => Sys2Proof.Machine.execEventStoreRotation t dt s
  | .slateRefresh t sector marginFails dt => Sys2Proof.Machine.execSlateRefresh t sector marginFails dt s
  | .brId dt => Sys2Proof.Machine.execBrId dt s
  | .brTiles write pec dt => Sys2Proof.Machine.execBrTiles write pec dt s
  | .brAddr write pec dt => Sys2Proof.Machine.execBrAddr write pec dt s
  | .brStat dt => Sys2Proof.Machine.execBrStat dt s
  | .brRes dt => Sys2Proof.Machine.execBrRes dt s
  | .brLine data pec dt => Sys2Proof.Machine.execBrLine data pec dt s
  | .brErase sector pec dt => Sys2Proof.Machine.execBrErase sector pec dt s
  | .brOp arg code pec dt => Sys2Proof.Machine.execBrOp arg code pec dt s
  | .brData err dt => Sys2Proof.Machine.execBrData err dt s
  | .brVerify target facts pec dt => Sys2Proof.Machine.execBrVerify target facts pec dt s
  | .brVres dt => Sys2Proof.Machine.execBrVres dt s
  | .brExit slot pec dt => Sys2Proof.Machine.execBrExit slot pec dt s
  | .vauxRise pwrFailN vinOk latchA latchB dt => Sys2Proof.Machine.execVauxRise pwrFailN vinOk latchA latchB dt s
  | .powerUp dt => Sys2Proof.Machine.execPowerUp dt s
  | .railGood rail dt => Sys2Proof.Machine.execRailGood rail dt s
  | .railTimeout rail dt => Sys2Proof.Machine.execRailTimeout rail dt s
  | .powerUpRetry dt => Sys2Proof.Machine.execPowerUpRetry dt s
  | .packageReset bedrock noLat smb test dt => Sys2Proof.Machine.execPackageReset bedrock noLat smb test dt s
  | .vauxFall dt => Sys2Proof.Machine.execVauxFall dt s
  | .railOutOfRange rail dt => Sys2Proof.Machine.execRailOutOfRange rail dt s
  | .headReset h cause dt => Sys2Proof.Machine.execHeadReset h cause dt s
  | .headLinkUp h dt => Sys2Proof.Machine.execHeadLinkUp h dt s
  | .sidebandReset newEid dt => Sys2Proof.Machine.execSidebandReset newEid dt s
  | .supervisorWatchdog t dt => Sys2Proof.Machine.execSupervisorWatchdog t dt s
  | .mctpRequest eid tag opcode payload dt => Sys2Proof.Machine.execMctpRequest eid tag opcode payload dt s
  | .mailboxDoorbell h opcode payload dt => Sys2Proof.Machine.execMailboxDoorbell h opcode payload dt s
  | .moduleButtonRelease dt => Sys2Proof.Machine.execModuleButtonRelease dt s
  | .buttonStuck dt => Sys2Proof.Machine.execButtonStuck dt s
  | .identifyEnd dt => Sys2Proof.Machine.execIdentifyEnd dt s
  | .touchStuck b count dt => Sys2Proof.Machine.execTouchStuck b count dt s
  | .removalDrainEnd dt => Sys2Proof.Machine.execRemovalDrainEnd dt s
  | .refusedHoldIndicationEnd dt => Sys2Proof.Machine.execRefusedHoldIndicationEnd dt s
  | .bayTouchEnd b dt => Sys2Proof.Machine.execBayTouchEnd b dt s
  | .headLinkDownLeaseEnd h dt => Sys2Proof.Machine.execHeadLinkDownLeaseEnd h dt s
  | .refusedPressIndicationEnd b dt => Sys2Proof.Machine.execRefusedPressIndicationEnd b dt s
  | .tfaultPulseEnd t dt => Sys2Proof.Machine.execTfaultPulseEnd t dt s
  | .lossOfBothSupervisors dt => Sys2Proof.Machine.execLossOfBothSupervisors dt s
  | .msixVectorUnmask h v dt => Sys2Proof.Machine.execMsixVectorUnmask h v dt s
  | .hdmDecoderCommit h n base size ways gran pos dpaBase dt => Sys2Proof.Machine.execHdmDecoderCommit h n base size ways gran pos dpaBase dt s
  | .perstNDeassert h dt => Sys2Proof.Machine.execPerstNDeassert h dt s
  | .resetNAssert dt => Sys2Proof.Machine.execResetNAssert dt s
  | .moduleButtonPress dt => Sys2Proof.Machine.execModuleButtonPress dt s
  | .pwrFailNDeassert dt => Sys2Proof.Machine.execPwrFailNDeassert dt s
  | .vinSenseHigh dt => Sys2Proof.Machine.execVinSenseHigh dt s
  | .thermalRecordWrite dt => Sys2Proof.Machine.execThermalRecordWrite dt s
  | .slateCmdWrite t code dt => Sys2Proof.Machine.execSlateCmdWrite t code dt s

end Sys2Proof.Machine
end

