-- ==== Sys2Proof/Machine/Step.lean ====
section
/-! DEFINITION. One step: the command at the front of the queue takes its effect; with none waiting, 100 ns pass. -/

namespace Sys2Proof.Machine

/-- The time an empty queue's step lets pass, in ns: 100 ns, one tick of the 10 MHz reference (DESIGN CHOICE). -/
def idleNs : Nat := 100

/-- Take the command at the front of the queue and run it with the queue's rest; with none waiting, time passes. -/
def step (s : State) : Host.Outcome State Fault Refusal :=
  match s.pending with
  | [] => .next { s with dev := s.dev.elapse idleNs }
  | c :: r => exec c { s with pending := r }

/-- The state with the command a word spells put at the front of the queue: no row of the table gives bits, so no word
spells one and the state stays as it is. -/
def State.withFetchWord (s : State) (nbits w : Nat) : State :=
  match Sys2Proof.decodeTableWord nbits w with
  | some i => { s with pending := i :: s.pending }
  | none => s

end Sys2Proof.Machine
end

