-- ==== Sys2Proof/Safety.lean ====
section
/-! DEFINITION. The terms in which claims about runs are stated: the parts of the device that a command may change, and the invariants
that every step keeps. -/

namespace Sys2Proof.Machine

/-- The parts of the device, one for each field of `Dev`. -/
inductive Part where
  | mem | pkg | expo | sealing | restore | strata | flash | ctxs | dram | energy | therm | flint | qtz | snap | lat | heads | jcs | slate
  | upd | panel | mirror | dw | out | freeN
  deriving DecidableEq, Repr

/-- Two device states hold the same part `p`. -/
def Part.same (p : Part) (d e : Dev) : Prop :=
  match p with
  | .mem => d.mem = e.mem
  | .pkg => d.pkg = e.pkg
  | .expo => d.expo = e.expo
  | .sealing => d.sealing = e.sealing
  | .restore => d.restore = e.restore
  | .strata => d.strata = e.strata
  | .flash => d.flash = e.flash
  | .ctxs => d.ctxs = e.ctxs
  | .dram => d.dram = e.dram
  | .energy => d.energy = e.energy
  | .therm => d.therm = e.therm
  | .flint => d.flint = e.flint
  | .qtz => d.qtz = e.qtz
  | .snap => d.snap = e.snap
  | .lat => d.lat = e.lat
  | .heads => d.heads = e.heads
  | .jcs => d.jcs = e.jcs
  | .slate => d.slate = e.slate
  | .upd => d.upd = e.upd
  | .panel => d.panel = e.panel
  | .mirror => d.mirror = e.mirror
  | .dw => d.dw = e.dw
  | .out => d.out = e.out
  | .freeN => d.freeN = e.freeN

/-- From `d` to `e` nothing changes outside the parts `S`. -/
structure ChangesOnly (S : List Part) (d e : Dev) : Prop where
  /-- Every other part is the same. -/
  same : ∀ p : Part, p ∉ S → p.same d e

/-- The command `i` runs on `s`: it answers a next state that keeps the queue, changes nothing outside the parts `S`, and whose
device satisfies `P`. -/
def Runs (i : Instr) (s : State) (S : List Part) (P : Dev → Prop) : Prop :=
  ∃ t, exec i s = .next t ∧ t.pending = s.pending ∧ ChangesOnly S s.dev t.dev ∧ P t.dev

/-- No page of an unarmed group is dirty (R47): the group of every dirty page is in its tile's armed set, with no time since
which it has been clean. -/
structure ArmedOk (d : Dev) : Prop where
  /-- Every dirty page's group is armed. -/
  armed : ∀ x ∈ d.expo.dirty, ∃ g ∈ d.expo.armed, g.group = pageGroup x.page
  /-- No group with a dirty page is held to be clean. -/
  held : ∀ x ∈ d.expo.dirty, ∀ g ∈ d.expo.armed, g.group = pageGroup x.page → g.cleanSince = none

/-- Link `l` is up, has every credit of its lanes, and has nothing waiting or outstanding, so a frame given to it goes out at once. -/
def Dev.linkIdle (d : Dev) (l : Nat) : Bool :=
  let k := d.link l
  decide (3 ≤ k.state) && k.state != 6 && !k.retraining && k.outst.isEmpty && k.wait.isEmpty && k.credits.isEmpty

/-- The caller of a JCS row: principal `b`, with the unique ID of an LP peer. -/
abbrev caller (b : Fin 4) (uid : Nat) : Caller := { p := b.val, uid := uid }

/-- Commands are answered, and no check of R403 before that of the object's state refuses command `op` of a caller but those of its
fields: the row allows the principal, the device state serves it, the payload is long enough, the head owns the context, the leases allow
it, and no background command of the caller runs where this is one. -/
def Dev.admits (d : Dev) (op : Nat) (c : Caller) (p : List Byte) : Bool :=
  d.answers && (!d.pkg.bedrock || decide (c.p < 2)) &&
    match cmdRow op with
    | none => false
    | some r => d.admission r c p == 0 && (d.notOwner r c p).isNone && (!r.chg || (d.leaseGate c (r.resources p) r.held).isNone)
        && !(r.bg && (d.bgOf c.p).running)

/-- From `d` to `e` the device has answered command `op` of principal `b` with a return code, an extended status, whether it goes on in
the background, and an output: the response is among what it has sent since, and a head's mailbox shows it. -/
abbrev Answered (d e : Dev) (b op ret ext : Nat) (bg : Bool) (out : List Byte) : Prop :=
  Out.resp b op 0 ret ext bg out ∈ e.out.take (e.out.length - d.out.length) ∧
    (b < 2 → (e.head b).mboxBusy = false ∧ (e.head b).mboxRet = ret ∧ (e.head b).mboxExt = ext ∧ (e.head b).mboxOut = out)

/-- A CXL command that is served only in operation reaches its effect: commands are answered, no Bedrock, memory open, no seal and no
safe state. -/
def Dev.cxlServes (d : Dev) : Bool :=
  d.answers && !d.pkg.bedrock && d.restore.ready && !d.sealing.active && decide (d.pkg.safe = 0)

/-- From `d` to `e` the device has answered CXL command `op` of head `h` with an extended status and values: the response is among what it
has sent since, and the head's mailbox shows it. -/
abbrev CxlAnswered (d e : Dev) (h op ext : Nat) (vals : List Nat) : Prop :=
  Out.cxlResp h op (retOf ext) ext vals ∈ e.out.take (e.out.length - d.out.length) ∧
    (e.head h).mboxBusy = false ∧ (e.head h).mboxRet = retOf ext ∧ (e.head h).mboxExt = ext

/-- `e` has the count, the rate correction with the integral value of its loop, the UTC offset with its validity and source, and the
lattice offset of `d` (R339). -/
abbrev TimeKept (d e : Dev) : Prop :=
  e.qtz.count = d.qtz.count ∧ e.qtz.frac = d.qtz.frac ∧ e.qtz.rate = d.qtz.rate ∧ e.qtz.freq = d.qtz.freq ∧
    e.qtz.offset = d.qtz.offset ∧ e.qtz.ofsValid = d.qtz.ofsValid ∧ e.qtz.ofsSource = d.qtz.ofsSource ∧ e.qtz.loff = d.qtz.loff

/-- The DRAM contents are in canonical form. -/
structure MemOk (d : Dev) : Prop where
  /-- Addresses strictly rising, no entry equal to what an unlisted address reads as. -/
  wf : Mem.wf d.mem = true

end Sys2Proof.Machine
end

