-- ==== Sys2Proof/Certificates/Slice0/Obligations.lean ====
section
/-! DEFINITION. The statements about the machine, for the provers. -/

open Sys2Proof Sys2Proof.Machine

/-- For every command c, queue rest r and device state d, step of the state whose queue is c :: r is exec of c on the state whose queue is r:
the front command runs with the queue's rest. That commands are taken first in, first out is the model's form of a block (DESIGN CHOICE, log
entry 1). (spec/00 the block's commands, R402) -/
def Obligations.StepRunsFrontCommand : Prop :=
  ∀ (c : Instr) (r : List Instr) (d : Dev), step { pending := c :: r, dev := d } = exec c { pending := r, dev := d }

/-- A step on an empty queue answers a next state with the queue still empty, in which nothing but the Quartz part has changed, and the Quartz
part is that of 100 ns having passed. That an idle step is 100 ns, one tick of the 10 MHz reference, is the model's choice (DESIGN CHOICE,
log entry 2). (R338, R12) -/
def Obligations.EmptyQueueLetsTimePass : Prop :=
  ∀ d : Dev, ∃ t, step { pending := [], dev := d } = .next t ∧ t.pending = [] ∧ ChangesOnly [.qtz] d t.dev ∧
    t.dev.qtz = (d.elapse 100).qtz

/-- For every command and every state, exec answers a next state, never a fault and never a refusal, and the queue of waiting commands is
unchanged by the command's effect. The spec gives every command of the table an effect or a status with which it is turned away, so no
command stops the machine. (R403, R32) -/
def Obligations.EveryCommandAnswersNext : Prop :=
  ∀ (i : Instr) (s : State), ∃ t, exec i s = .next t ∧ t.pending = s.pending

/-- From any device state with queue cs ++ rest, running as many steps as cs is long answers a next state whose queue is rest: every waiting
command is taken once, in order, and none stops the run. (R402, spec/00 the block's commands) -/
def Obligations.QueueDrainsInOrder : Prop :=
  ∀ (cs rest : List Instr) (d : Dev), ∃ t, Host.Core.run Sys2Proof.core cs.length { pending := cs ++ rest, dev := d } = .next t ∧
    t.pending = rest

/-- Whatever command stands at the front of the queue, and on an empty queue too, if the DRAM contents are in canonical form (addresses strictly
rising, no entry equal to what an unlisted address reads as) then they are in canonical form after the step. The form is the model's; the
writes that it covers are those of the cited rules. (R41, R45, R122, R225, R177) -/
def Obligations.MemoryStaysCanonical : Prop :=
  ∀ s t : State, MemOk s.dev → step s = .next t → MemOk t.dev

/-- In the reset state the DRAM lists nothing, which is the canonical form of a memory whose every byte reads as an unlisted address reads
(zero, DESIGN CHOICE, log entry 10). (R38, R14) -/
def Obligations.MemoryCanonicalAtReset : Prop :=
  MemOk State.reset.dev ∧ State.reset.dev.mem = []

/-- Whatever command stands at the front of the queue, and on an empty queue too: if every dirty page lies in a group of the armed set, and no
group with a dirty page is held to be clean, then the same holds after the step. So no command makes a page of an unarmed group dirty, and
no command disarms a group that has a dirty page. (R47, R49) -/
def Obligations.DirtyPagesLieInArmedGroups : Prop :=
  ∀ s t : State, ArmedOk s.dev → step s = .next t → ArmedOk t.dev

/-- The reset state satisfies the invariant on dirty pages and armed groups: it has no dirty page and no armed group. (R62, R47) -/
def Obligations.NoDirtyPageAtReset : Prop :=
  ArmedOk State.reset.dev ∧ State.reset.dev.expo.dirty = [] ∧ State.reset.dev.expo.armed = []

/-- HEARTBEAT of a running lead stamps its heartbeat time and changes nothing else of the package. LEAD_LOST, while no takeover runs, a deputy
exists and the lead's supervisor does not run, reports source 816 kind 10h Degraded, halts and fences that supervisor and leaves the
takeover at its step 2. TAKEOVER_COMPLETE makes the deputy the lead without a deputy, ends the takeover, restores the mirrored leases,
governor inputs, bridge estimate and PPS loop, and leaves no command accepted and uncompleted. LOSS_OF_BOTH_SUPERVISORS, with neither
supervisor running, enters the safe state without a seal and stops ALIVE. None touches a part outside those listed, so the DRAM contents are
unchanged. (R19, R20, R21, R18) -/
def Obligations.PackageRoleRows : Prop :=
  (∀ s dt, s.dev.supv s.dev.pkg.lead = true →
    Runs (.heartbeat dt) s [.pkg, .qtz] fun e => e.pkg = { s.dev.pkg with lastBeat := (s.dev.elapse dt).now }) ∧
  (∀ s dt t, s.dev.pkg.takeStep = 0 → s.dev.pkg.deputy = some t → s.dev.supv s.dev.pkg.lead = false →
    Runs (.leadLost dt) s [.pkg, .expo, .sealing, .dram, .energy, .flint, .qtz, .panel, .dw, .out] fun e =>
      e.pkg.takeStep = 2 ∧ e.pkg.fenced = true ∧ e.pkg.lead = s.dev.pkg.lead ∧ (e.tile s.dev.pkg.lead).supvHalted = true ∧
      e.flint = (s.dev.raise 816 0x10 2 (tile := some s.dev.pkg.lead)).flint) ∧
  (∀ s dt t, s.dev.pkg.takeStep = 2 → s.dev.pkg.deputy = some t →
    Runs (.takeoverComplete dt) s [.pkg, .expo, .energy, .qtz, .heads, .jcs, .slate, .upd, .out, .freeN] fun e =>
      e.pkg.lead = t ∧ e.pkg.deputy = none ∧ e.pkg.takeStep = 0 ∧ e.jcs.leases = s.dev.mirror.leases ∧ e.jcs.inProg = [] ∧
      e.expo.kSeal = s.dev.mirror.kSeal ∧ e.expo.landRef = s.dev.mirror.landRef ∧ e.expo.eFixed = s.dev.mirror.eFixed ∧
      e.energy.brC = s.dev.mirror.brC ∧ e.energy.brEsr = s.dev.mirror.brEsr ∧
      e.qtz.rate = s.dev.mirror.rate ∧ e.qtz.ppsState = s.dev.mirror.ppsState ∧ e.qtz.ppsRun = s.dev.mirror.ppsRun) ∧
  (∀ s dt, s.dev.supv 0 = false → s.dev.supv 4 = false → s.dev.pkg.safe ≠ 2 →
    Runs (.lossOfBothSupervisors dt) s [.pkg, .expo, .sealing, .dram, .energy, .flint, .qtz, .panel, .dw, .out] fun e =>
      e.pkg.safe = 2 ∧ e.flint.aliveStop = true ∧ e.sealing.active = false)

/-- PACE_UPDATE, when the 1 ms update is due, stores the given live and seal pace of every tile; before that only time passes. POWER_ESTIMATE
stores the measured power at the performance point, and otherwise the measured power with the VDD_CORE share scaled by (0.80 V / V) cubed.
OPERATING_POINT_CHANGE leaves the point that R23 selects as the one in force or asked for, without moving the rail; during a takeover it
asks for nothing. OPERATING_POINT_SETTLED puts the point asked for in force. Nothing outside the listed parts changes. (R23, R24, R25, R26) -/
def Obligations.PaceAndOperatingPointRows : Prop :=
  (∀ s (paces : List (Nat × Nat)) dt (t : Fin 8), (s.dev.elapse dt).tickDue 0 1000000 = true → Runs (.paceUpdate paces dt) s [.pkg, .sealing, .qtz, .dw] fun e =>
      (e.tile t.val).pace = (paces.getD t.val ((s.dev.tile t.val).pace, (s.dev.tile t.val).sealPace)).1 % 65536 ∧
      (e.tile t.val).sealPace = (paces.getD t.val ((s.dev.tile t.val).pace, (s.dev.tile t.val).sealPace)).2 % 65536) ∧
  (∀ s (paces : List (Nat × Nat)) dt, (s.dev.elapse dt).tickDue 0 1000000 = false →
    Runs (.paceUpdate paces dt) s [.qtz] fun e => e = s.dev.elapse dt) ∧
  (∀ s core other dt, Runs (.powerEstimate core other dt) s [.pkg, .qtz, .slate] fun e =>
      e.pkg.powerMw = if s.dev.pkg.oppt = 0 then core + other
        else core * 800 ^ 3 / (pointMv s.dev.pkg.oppt) ^ 3 + other) ∧
  (∀ s dt, s.dev.pkg.takeStep = 0 →
    Runs (.operatingPointChange dt) s [.pkg, .qtz, .slate] fun e =>
      e.pkg.opptReq.getD e.pkg.oppt = s.dev.wantPoint ∧ e.pkg.oppt = s.dev.pkg.oppt) ∧
  (∀ s dt, s.dev.pkg.takeStep ≠ 0 → Runs (.operatingPointChange dt) s [.pkg, .qtz, .slate] fun e => e = s.dev.elapse dt) ∧
  (∀ s dt pt, s.dev.pkg.opptReq = some pt →
    Runs (.operatingPointSettled dt) s [.pkg, .qtz, .slate] fun e => e.pkg = { s.dev.pkg with oppt := pt, opptReq := none })

/-- During a real seal from stage 2 to stage 5, and during stages 2 to 4 of a test seal, the selected point is seal mode. With any tile at
throttle level T1 or above, or the power estimate above 160 W, it is never performance. Outside a seal, with no throttle, an estimate of at
most 160 W and the bulk restore phase running, it is performance. (R23) -/
def Obligations.SealSelectsSealPoint : Prop :=
  (∀ d : Dev, d.sealing.active = true → 2 ≤ d.sealing.stage → d.sealing.stage ≤ (if d.sealing.test then 4 else 5) → d.wantPoint = 2) ∧
  (∀ (d : Dev) (t : Fin 8), (d.tile t.val).throttle ≠ 0 → d.wantPoint ≠ 0) ∧
  (∀ d : Dev, 160000 < d.pkg.powerMw → d.wantPoint ≠ 0) ∧
  (∀ d : Dev, d.sealing.active = false → d.restore.phase = 6 → d.pkg.powerMw ≤ 160000 → (∀ t : Fin 8, (d.tile t.val).throttle = 0) →
    d.wantPoint = 0)

/-- MESH_LINK_FAILED adds a link that had not failed to the failed links and reports it at severity Degraded. CLOCKED_DOMAIN_RESET completes
each request that the domain's FIFOs held with an error, in order, leaves none of them held, and records a Note of the domain's source.
Nothing else changes. With at most one link failed every two tiles are joined by a path of at most three hops. (R15, R29) -/
def Obligations.MeshAndDomainRows : Prop :=
  (∀ s (l : Fin 12) dt, s.dev.pkg.meshFailed.contains l.val = false →
    Runs (.meshLinkFailed l dt) s [.pkg, .flint, .qtz] fun e =>
      e.pkg = { s.dev.pkg with meshFailed := s.dev.pkg.meshFailed ++ [l.val] } ∧
      e.flint = (s.dev.raise (tsrc (meshEnds l.val).1 (if l.val < 8 then 47 else 49)) 0x40 2).flint) ∧
  (∀ s (n : Fin 60) (reqs : List Nat) dt, Runs (.clockedDomainReset n reqs dt) s [.expo, .flint, .qtz, .out] fun e =>
      e.out = (reqs.map Out.reqError).reverse ++ s.dev.out ∧
      (∀ r ∈ e.expo.held, r.cmd = 0 → r.head < 2 → r.id ∈ reqs → s.dev.inDomain n.val r = false) ∧
      (∀ r ∈ s.dev.expo.held, r.id ∉ reqs → r ∈ e.expo.held) ∧ e.flint = (s.dev.raise (domainSrc n.val) 0x46 0).flint) ∧
  (∀ (d : Dev) (a b : Fin 8), d.pkg.meshFailed.length ≤ 1 → ∃ n : Nat, d.meshHops a.val b.val = some n ∧ n ≤ 3)

/-- CXL_MEM_READ of a line that no fault touches, by the owning head of an open granule on a tile in service, with nothing holding it, answers
the line's present contents without poison and leaves every byte of DRAM as it was; disturbed symbols of one device's data are corrected, so
the read answers the same. CXL_MEM_WRITE under the same conditions to an unpoisoned line writes exactly the enabled bytes of that line:
every byte outside the line reads as before; and a P1 or P2 page is dirty afterwards. A request that no committed decoder matches completes
as unsupported, and one to a granule that is not open to the head, on an opened device, completes with poison for a read and without effect
on the DRAM for a write. Writing a whole line of a poisoned line writes it and clears its poison; a write that enables fewer than all 64
bytes of a poisoned line leaves the line poisoned and the DRAM contents as they were. (R30, R32, R41, R66, R74, R112, R220) -/
def Obligations.MemoryRequestRows : Prop :=
  (∀ s (h : Fin 2) hpa dt dpa, s.dev.pkg.safe = 0 → s.dev.hdmDecode h.val hpa = some dpa → s.dev.restore.ready = true →
    s.dev.sealing.frozen = false → s.dev.pageOpen h.val (dpa / 4096) = true → (s.dev.tile (s.dev.pageTile (dpa / 4096))).isolated = false →
    (s.dev.holds { head := h.val, line := dpa / 64 }).free = true → s.dev.poisoned (dpa / 64) = false →
    s.dev.lineWaits (dpa / 64) false false false = false →
    Runs (.cxlMemRead h hpa [] false false none dt) s [.mem, .expo, .restore, .flash, .ctxs, .dram, .flint, .qtz, .lat, .heads, .slate, .dw, .out] fun e =>
      e.mem = s.dev.mem ∧ e.out = Out.memRead h.val s.dev.expo.nextReq (s.dev.mem.line (dpa / 64)) false :: s.dev.out) ∧
  (∀ s (h : Fin 2) hpa dt dpa (errs : List (Nat × Nat)) (j : Fin 8), s.dev.pkg.safe = 0 → s.dev.hdmDecode h.val hpa = some dpa → s.dev.restore.ready = true →
    s.dev.sealing.frozen = false → s.dev.pageOpen h.val (dpa / 4096) = true → (s.dev.tile (s.dev.pageTile (dpa / 4096))).isolated = false →
    (s.dev.holds { head := h.val, line := dpa / 64 }).free = true → s.dev.poisoned (dpa / 64) = false →
    s.dev.lineWaits (dpa / 64) false false false = false → (∀ e ∈ errs, e.1 < 80 ∧ e.1 % 10 = j.val) →
    Runs (.cxlMemRead h hpa errs false false none dt) s [.mem, .expo, .restore, .flash, .ctxs, .dram, .flint, .qtz, .lat, .heads, .slate, .dw, .out] fun e =>
      e.mem = s.dev.mem ∧ e.out.head? = some (Out.memRead h.val s.dev.expo.nextReq (s.dev.mem.line (dpa / 64)) false)) ∧
  (∀ s (h : Fin 2) hpa (data : BitVec 512) (mask : BitVec 64) dt dpa, s.dev.pkg.safe = 0 → s.dev.hdmDecode h.val hpa = some dpa → s.dev.restore.ready = true →
    s.dev.sealing.frozen = false → s.dev.pageOpen h.val (dpa / 4096) = true → (s.dev.tile (s.dev.pageTile (dpa / 4096))).isolated = false →
    (s.dev.holds { head := h.val, line := dpa / 64, write := true }).free = true → s.dev.poisoned (dpa / 64) = false →
    s.dev.lineWaits (dpa / 64) true true false = false →
    Runs (.cxlMemWrite h hpa data mask 0 false dt) s [.mem, .expo, .restore, .ctxs, .dram, .flint, .qtz, .lat, .heads, .slate, .dw, .out] fun e =>
      e.mem = s.dev.mem.setLine (dpa / 64) data mask ∧ (∀ a, a / 64 ≠ dpa / 64 → e.mem.byte a = s.dev.mem.byte a) ∧
      (s.dev.persistent (dpa / 4096) = true → e.isDirty (dpa / 4096) = true)) ∧
  (∀ s (h : Fin 2) hpa dt, s.dev.pkg.safe = 0 → s.dev.hdmDecode h.val hpa = none →
    Runs (.cxlMemRead h hpa [] false false none dt) s [.mem, .expo, .restore, .flash, .ctxs, .dram, .flint, .qtz, .lat, .heads, .slate, .dw, .out] fun e =>
      e.mem = s.dev.mem ∧ e.out = Out.unsupported h.val s.dev.expo.nextReq :: s.dev.out) ∧
  (∀ s (h : Fin 2) hpa (data : BitVec 512) (mask : BitVec 64) dt dpa, s.dev.pkg.safe = 0 → s.dev.hdmDecode h.val hpa = some dpa → s.dev.restore.ready = true →
    s.dev.sealing.frozen = false → s.dev.pageOpen h.val (dpa / 4096) = false →
    Runs (.cxlMemWrite h hpa data mask 0 false dt) s [.mem, .expo, .restore, .ctxs, .dram, .flint, .qtz, .lat, .heads, .slate, .dw, .out] fun e =>
      e.mem = s.dev.mem ∧ e.expo.dirty = s.dev.expo.dirty ∧ e.out = Out.memWrite h.val s.dev.expo.nextReq :: s.dev.out) ∧
  (∀ (d : Dev) l (data : BitVec 512), (d.doWrite l data (BitVec.allOnes 64)).poisoned l = false ∧
    (d.doWrite l data (BitVec.allOnes 64)).mem = d.mem.setLine l data (BitVec.allOnes 64)) ∧
  (∀ (d : Dev) l (data : BitVec 512) (mask : BitVec 64), mask ≠ BitVec.allOnes 64 → d.poisoned l = true →
    (d.doWrite l data mask).poisoned l = true ∧ (d.doWrite l data mask).mem = d.mem)

/-- ARM_BATCH_PROGRAM on an idle ledger die with arm requests issues one program with at most 512 of them, oldest first, and the queued disarms
that the program has room for. ARM_PROGRAM_DONE ends the running program and puts an arm record for each of its groups in the tile's ledger.
GROUP_DISARM of a group clean for 10 minutes takes it out of the armed set at once and queues its disarm record. DISARM_BATCH_PROGRAM
programs the queued disarms once one has waited 1 s. (R47, R48, R49, R155) -/
def Obligations.ArmingRows : Prop :=
  (∀ s (t : Fin 8) dt, tget s.dev.expo.armProg none t.val = none → s.dev.armReqs t.val ≠ [] → s.dev.armRoom t.val ≠ 0 →
    (s.dev.tile t.val).isolated = false →
    Runs (.armBatchProgram t dt) s [.expo, .qtz] fun e => ∃ p, tget e.expo.armProg none t.val = some p ∧
      p.arms = (s.dev.armReqs t.val).take (s.dev.armRoom t.val) ∧ p.arms.length ≤ 512 ∧
      p.disarms = (s.dev.disarmsFor t.val).take (512 - p.arms.length)) ∧
  (∀ s (t : Fin 8) dt (p : ArmProg), tget s.dev.expo.armProg none t.val = some p →
    Runs (.armProgramDone t false dt) s [.mem, .expo, .restore, .flash, .ctxs, .dram, .flint, .qtz, .lat, .heads, .dw, .out] fun e => tget e.expo.armProg none t.val = none ∧
      ∀ g ∈ p.arms, ∃ x ∈ (e.fl t.val).ledger, x.typ = 0x01 ∧ x.a = g) ∧
  (∀ s g dt (x : ArmedGroup) t0, x ∈ s.dev.expo.armed → x.group = g → x.cleanSince = some t0 → 600000000000 ≤ (s.dev.elapse dt).since t0 →
    Runs (.groupDisarm g dt) s [.expo, .flint, .qtz] fun e =>
      e.isArmed g = false ∧ (g, (s.dev.elapse dt).now) ∈ e.expo.disarmQ) ∧
  (∀ s (t : Fin 8) dt (q : Nat × Nat), tget s.dev.expo.armProg none t.val = none → q ∈ s.dev.expo.disarmQ → s.dev.groupTile q.1 = t.val →
    1000000000 ≤ (s.dev.elapse dt).since q.2 →
    Runs (.disarmBatchProgram t dt) s [.expo, .qtz] fun e => ∃ p, tget e.expo.armProg none t.val = some p ∧ p.arms = [] ∧
      p.disarms = (s.dev.disarmsFor t.val).take 512)

/-- EXPO_STATUS_UPDATE, when the 1 ms update is due, writes package exposure into DW_EXPO_PKG and the ceiling into DW_EXPO_CEIL.
GOVERNOR_RECOMPUTE under a running lead, with no release waiting, puts the ceiling that the bounds give in force and consumes the triggers;
EVENT_RECOMPUTE does so when a trigger is due. WRITE_PACING_DELAY_EXPIRY completes exactly the paced writes whose delay has ended. After
WRITE_HOLD_EXPIRY no write is held by the governor that has waited 500 microseconds. GLOBAL_PERSISTENT_FLUSH is queued, or completes at once
in a seal; GPF_COMPLETION completes the oldest flush. Each keeps the DRAM contents, but for the held writes that WRITE_HOLD_EXPIRY and the
recomputations let go. (R46, R52, R61, R66, R68, R72) -/
def Obligations.GovernorRows : Prop :=
  (∀ s dt, (s.dev.elapse dt).tickDue 1 1000000 = true → Runs (.expoStatusUpdate dt) s [.pkg, .ctxs, .qtz, .dw] fun e =>
      bits (e.dwGet 0x500 0) 0 34 = s.dev.xPkg % 2 ^ 34 ∧ bits (e.dwGet 0x508 0) 0 34 = s.dev.expo.gov.ceiling % 2 ^ 34) ∧
  (∀ s dt, s.dev.roleRuns = true → (s.dev.bay 0).state ≠ 3 → (s.dev.bay 1).state ≠ 3 →
    Runs (.governorRecompute dt) s [.mem, .expo, .restore, .ctxs, .dram, .energy, .flint, .qtz, .lat, .heads, .mirror, .dw, .out] fun e =>
      e.expo.gov.ceiling = (s.dev.ceilings []).c ∧ e.expo.gov.triggers = []) ∧
  (∀ s dt, s.dev.roleRuns = true → s.dev.expo.gov.triggers ≠ [] → (s.dev.bay 0).state ≠ 3 → (s.dev.bay 1).state ≠ 3 →
    Runs (.eventRecompute dt) s [.mem, .expo, .restore, .ctxs, .dram, .energy, .flint, .qtz, .lat, .heads, .mirror, .dw, .out] fun e =>
      e.expo.gov.ceiling = (s.dev.ceilings []).c ∧ e.expo.gov.triggers = []) ∧
  (∀ s dt, (∀ p ∈ s.dev.expo.paced, p.ack = false) → Runs (.writePacingDelayExpiry dt) s [.expo, .flint, .qtz, .lat, .out] fun e =>
      e.expo.paced = (s.dev.expo.paced.filter fun (p : Paced) => decide ((s.dev.elapse dt).now < p.due)) ∧
      e.out = ((s.dev.expo.paced.filter fun (p : Paced) => decide (p.due ≤ (s.dev.elapse dt).now)).map fun (p : Paced) => Out.memWrite p.head p.id).reverse
        ++ s.dev.out) ∧
  (∀ s dt, Runs (.writePacingDelayExpiry dt) s [.expo, .flint, .qtz, .lat, .out] fun e =>
      e.expo.paced = (s.dev.expo.paced.filter fun (p : Paced) => decide ((s.dev.elapse dt).now < p.due))) ∧
  (∀ s dt, Runs (.writeHoldExpiry dt) s [.mem, .expo, .restore, .ctxs, .dram, .flint, .qtz, .lat, .heads, .dw, .out] fun e =>
      ∀ r ∈ e.expo.held, r.forGov = true → (s.dev.elapse dt).since r.arrive < 500000) ∧
  (∀ s (h : Fin 2) dt, s.dev.sealing.active = false →
    Runs (.globalPersistentFlush h dt) s [.qtz, .heads, .out] fun e => (e.head h.val).gpf = (s.dev.head h.val).gpf ++ [s.dev.expo.nextReq]) ∧
  (∀ s (h : Fin 2) dt, s.dev.sealing.active = true → s.dev.sealing.test = false →
    Runs (.globalPersistentFlush h dt) s [.qtz, .heads, .out] fun e => e.out = Out.gpfDone h.val :: s.dev.out) ∧
  (∀ s (h : Fin 2) dt x (r : List Nat), (s.dev.head h.val).gpf = x :: r →
    Runs (.gpfCompletion h dt) s [.qtz, .heads, .out] fun e => (e.head h.val).gpf = r ∧ e.out = Out.gpfDone h.val :: s.dev.out)

/-- For every device state, the policy bound in force is the value of the policy field, or host-visible capacity where the field is higher, in
pages; the ceiling is the least of the energy, landing and policy bounds and, while WINDOW_EN is 1, the rate bound; BOUND names the first of
energy, landing, rate, policy that equals it, and names policy only when the policy bound is strictly less than every other bound in force.
(R52, R58, R59, R77) -/
def Obligations.CeilingIsLeastBound : Prop :=
  ∀ d : Dev, let c := d.ceilings []
    (c.cP = if d.expo.policy.boundGib ≤ 8 * d.hostGib then d.expo.policy.boundGib * 262144 else 8 * d.hostGib * 262144) ∧
    c.c = (if d.expo.policy.windowEn then min (min (min c.cE c.cL) c.cT) c.cP else min (min c.cE c.cL) c.cP) ∧
    (c.bound = 0 ↔ c.c = c.cE) ∧ (c.bound = 1 ↔ c.c ≠ c.cE ∧ c.c = c.cL) ∧
    (c.bound = 2 ↔ c.c ≠ c.cE ∧ c.c ≠ c.cL ∧ d.expo.policy.windowEn = true ∧ c.c = c.cT) ∧
    (c.bound = 3 → c.c = c.cP ∧ c.cP < c.cE ∧ c.cP < c.cL ∧ (d.expo.policy.windowEn = true → c.cP < c.cT))

/-- At a recomputation a tile takes LAPSE while package exposure exceeds a ceiling that the policy bound does not set, or its own exposure
exceeds its tile ceiling; otherwise, from a state below LAPSE, BLACK from 95 per cent on, or from 90 per cent on when it was in BLACK; RED
from 75, AMBER from 50, GREEN below. From LAPSE, with no ceiling breached, it takes BLACK from 90 per cent on. (R60, R63, R70) -/
def Obligations.GovernorStateTable : Prop :=
  ∀ (d : Dev) (t : Nat),
    (d.pkgBreach = true ∨ d.tileBreach t = true → d.nextState t = 4) ∧
    (d.pkgBreach = false → d.inSvc.any d.tileBreach = false → d.tileBreach t = false →
      d.nextState t = if d.phiGe t 95 = true ∨ (3 ≤ tget d.expo.gov.tileState 0 t ∧ d.phiGe t 90 = true) then 3
        else if d.phiGe t 75 = true then 2 else if d.phiGe t 50 = true then 1 else 0)

/-- TRICKLE_CAPTURE, where trickle may take a page within its rate and turn, its key is at hand and the trickle stream has a slot, enters the
page that R44 and R168 choose in the in-flight table with its present contents and its rewrite flag clear. PAGE_RECORD_DURABLE ends the NAND
page of a tile's oldest capture: it puts its record, with the captured image and the version number, in Strata; the page's dirty bit clears
unless the rewrite flag is set, in which case the page stays as dirty as it was. The DRAM contents are unchanged. (R42, R44, R39, R65, R137,
R145, R146) -/
def Obligations.TrickleRows : Prop :=
  (∀ s (t : Fin 8) dt (x : DirtyPage) (fence : Bool) c, (s.dev.elapse dt).trickleMay t.val = true → (s.dev.elapse dt).tricklePick t.val = some (x, fence) →
    (s.dev.elapse dt).rateMay t.val = true → (s.dev.elapse dt).flashTurn t.val ((s.dev.elapse dt).trickleLevel t.val fence) 1 = true →
    ((s.dev.stream t.val 0).left ≠ 0 ∨ (s.dev.leastWorn t.val (s.dev.dataDies t.val) ≠ none ∧ s.dev.strata.slcPages ≠ 0)) →
    s.dev.pageCtx x.page = some c → (s.dev.ctx c).keyLost = false →
    Runs (.trickleCapture t 0 [] dt) s [.mem, .expo, .restore, .flash, .ctxs, .dram, .flint, .qtz, .lat, .heads, .slate, .dw, .out] fun e => ∃ f : InFlight, f ∈ e.expo.inflight ∧
      e.expo.inflight.map (fun (f : InFlight) => f.page) = s.dev.expo.inflight.map (fun (f : InFlight) => f.page) ++ [x.page] ∧ f.page = x.page ∧
      f.img = Mem.slice s.dev.mem (pageBase x.page) 4096 ∧ f.rewrite = false ∧ f.atSeal = false) ∧
  (∀ s (t : Fin 8) dt (f : InFlight), s.dev.flashHeld = false → (s.dev.tile t.val).isolated = false →
    (s.dev.expo.inflight.find? fun f => s.dev.pageTile f.page == t.val) = some f → s.dev.persistent f.page = true →
    s.dev.notTrimmed (s.dev.recOf t.val f) = true → s.dev.sealing.stopped = false → (∀ g ∈ s.dev.expo.inflight, g.page = f.page → g = f) →
    Runs (.pageRecordDurable t [] dt) s [.mem, .expo, .sealing, .strata, .flash, .ctxs, .dram, .flint, .qtz, .heads, .slate, .dw] fun e =>
      (∃ r ∈ e.strata.recs, r.page = f.page ∧ r.vseq = f.vseq ∧ r.img = f.img) ∧
      e.isDirty f.page = (f.rewrite && s.dev.isDirty f.page))

/-- On an opened device outside a safe state, PWR_FAIL_N_ASSERT or VIN_SENSE_LOW held for at least 1 µs begins a real seal with cause 0h or 1h,
latches the trigger time and freezes ingress. An assertion below 200 ns is ignored. While a real seal runs, a further trigger is recorded
(the first one stands) and changes nothing else of the seal. The two deassertion rows record the input, and start the 100 ms run when both
inputs are good; MAINS_GOOD after that run makes mains good, and a running seal notes it. (R79, R80, R81, R82, R84, R91, R99) -/
def Obligations.PowerFailRows : Prop :=
  (∀ s width (taken : Bool) dt, s.dev.panel.coreUp = true → s.dev.pkg.safe = 0 → s.dev.restore.ready = true → s.dev.pkg.bedrock = false →
    s.dev.sealing.active = false → 1000 ≤ width →
    Runs (.pwrFailNAssert width taken dt) s [.mem, .pkg, .expo, .sealing, .restore, .flash, .ctxs, .dram, .energy, .therm, .flint, .qtz, .lat, .heads, .jcs, .slate, .upd, .panel, .dw, .out] fun e =>
      e.sealing.active = true ∧ e.sealing.frozen = true ∧ e.sealing.test = false ∧ e.sealing.stage = 1 ∧ e.sealing.cause = 0 ∧
      e.sealing.tTrigger = (s.dev.elapse dt).now ∧ e.panel.pwrFailN = false ∧ e.panel.mainsGood = false) ∧
  (∀ s width (taken : Bool) dt, s.dev.panel.coreUp = true → s.dev.pkg.safe = 0 → s.dev.restore.ready = true → s.dev.pkg.bedrock = false →
    s.dev.sealing.active = false → (1000 ≤ width ∨ (200 ≤ width ∧ taken = true)) →
    Runs (.vinSenseLow width taken dt) s [.mem, .pkg, .expo, .sealing, .restore, .flash, .ctxs, .dram, .energy, .therm, .flint, .qtz, .lat, .heads, .jcs, .slate, .upd, .panel, .dw, .out] fun e =>
      e.sealing.active = true ∧ e.sealing.frozen = true ∧ e.sealing.test = false ∧ e.sealing.stage = 1 ∧ e.sealing.cause = 1 ∧
      e.sealing.tTrigger = (s.dev.elapse dt).now ∧ e.panel.vinOk = false ∧ e.panel.mainsGood = false) ∧
  (∀ s width (taken : Bool) dt, width < 200 →
    Runs (.pwrFailNAssert width taken dt) s [.qtz] fun e => e.panel = s.dev.panel) ∧
  (∀ s width (taken : Bool) dt, width < 200 →
    Runs (.vinSenseLow width taken dt) s [.qtz] fun e => e.panel = s.dev.panel) ∧
  (∀ s width (taken : Bool) dt, s.dev.panel.coreUp = true → s.dev.pkg.safe = 0 → s.dev.sealing.active = true → s.dev.sealing.test = false →
    1000 ≤ width →
    Runs (.pwrFailNAssert width taken dt) s [.mem, .pkg, .expo, .sealing, .restore, .flash, .ctxs, .dram, .energy, .therm, .flint, .qtz, .lat, .heads, .jcs, .slate, .upd, .panel, .dw, .out] fun e =>
      e.sealing = { s.dev.sealing with later := if s.dev.sealing.later = 15 then 0 else s.dev.sealing.later }) ∧
  (∀ s dt, s.dev.panel.vinOk = true → s.dev.panel.goodSince = none →
    Runs (.pwrFailNDeassert dt) s [.qtz, .panel] fun e =>
      e.panel = { s.dev.panel with pwrFailN := true, goodSince := some (s.dev.elapse dt).now }) ∧
  (∀ s dt, s.dev.panel.pwrFailN = false →
    Runs (.vinSenseHigh dt) s [.qtz, .panel] fun e => e.panel = { s.dev.panel with vinOk := true }) ∧
  (∀ s dt t0, s.dev.panel.goodSince = some t0 → t0 + 100000000 ≤ (s.dev.elapse dt).now → s.dev.panel.mainsGood = false →
    Runs (.mainsGood dt) s [.sealing, .restore, .qtz, .panel, .dw] fun e =>
      e.panel.mainsGood = true ∧ e.panel.notGoodAt = none ∧ e.sealing.active = s.dev.sealing.active ∧
      e.sealing.mainsBack = (s.dev.sealing.mainsBack || s.dev.sealing.active))

/-- STAGE1_COMPLETE, once no accepted request but one that waits for an arm is left, begins stage 2 on every tile in service with its exposure
per class, adds the group of every write held for arming to the armed set, and keeps the steering table. STAGE2_METADATA_VERIFIED notes the
tile's metadata as durable, the bitmap kept being the tile's dirty pages. STAGE2_COMPLETE programs the seal header, with the exposure per
class, and moves the tile to stage 3. STAGE3_COMPLETE with nothing in flight moves a tile with no exposure to stage 4 and sets its T3_DONE;
a tile with exposure left after a stop at the energy floor ends without a record to write. TILE_SEAL_RECORD_WRITTEN adds the seal record,
with the pages that the tile landed, to its ledger and sets its T4_DONE. ENERGY_FLOOR_REACHED at or below E_stop stops stage 3 and drops
what was not issued. SEAL_PROGRAM_FAIL of a data block closes it and notes it for withdrawal; of the block that the ledger fills it has the
ledger go on with the next block. SEAL_STATUS_UPDATE, when the 10 ms update is due with a tile in stage 3, reports the seal and leaves it as
it is; before it is due only time passes. (R51, R82, R84, R85, R86, R88, R91, R92, R96, R97, R153, R522) -/
def Obligations.SealStageRows : Prop :=
  (∀ s dt, s.dev.sealing.active = true → s.dev.sealing.stage = 1 → s.dev.stage1Done = true →
    Runs (.stage1Complete dt) s [.pkg, .expo, .sealing, .flash, .dram, .energy, .qtz, .slate, .dw, .freeN] fun e =>
      e.sealing.stage = 2 ∧ (∀ t ∈ s.dev.inSvc, e.tileStage t = 2) ∧ e.dram.sealedSteer = some s.dev.dram.steer ∧
      (∀ r ∈ s.dev.expo.held, r.forArm = true → ∃ g ∈ e.expo.armed, g.group = pageGroup (linePage r.line)) ∧
      (∀ g ∈ s.dev.expo.armed, g ∈ e.expo.armed) ∧
      (∀ t ∈ s.dev.inSvc, tget e.sealing.p1Start 0 t = s.dev.xCls t 1 ∧ tget e.sealing.p2Start 0 t = s.dev.xCls t 2)) ∧
  (∀ s (t : Fin 8) dt, s.dev.sealing.active = true → s.dev.tileStage t.val = 2 → (s.dev.tile t.val).isolated = false →
    Runs (.stage2MetadataVerified t dt) s [.mem, .expo, .sealing, .restore, .flash, .ctxs, .dram, .flint, .qtz, .lat, .heads, .dw, .out] fun e =>
      mbit e.sealing.metaOk t.val = true ∧
      (e.fl t.val).sealDirty = (e.expo.dirty.filter fun x : DirtyPage => e.pageTile x.page == t.val).map fun x : DirtyPage => x.page) ∧
  (∀ s (t : Fin 8) dt, s.dev.sealing.active = true → s.dev.tileStage t.val = 2 → mbit s.dev.sealing.metaOk t.val = true →
    (s.dev.tile t.val).isolated = false →
    Runs (.stage2Complete t [] dt) s [.mem, .expo, .sealing, .flash, .dram, .flint, .qtz, .heads, .slate, .dw] fun e =>
      e.tileStage t.val = 3 ∧ ((e.lastEntry t.val fun x : LedgerEntry => x.typ == 0x09).map fun h : LedgerEntry => (h.a, h.b, h.c, h.test)) =
        some (s.dev.sealing.cause, tget s.dev.sealing.p1Start 0 t.val, tget s.dev.sealing.p2Start 0 t.val, s.dev.sealing.test) ∧
      (s.dev.sealing.tTrigger ≠ 0 → ((e.lastEntry t.val fun x : LedgerEntry => x.typ == 0x09).map fun h : LedgerEntry => h.time) =
        some s.dev.sealing.tTrigger)) ∧
  (∀ s (t : Fin 8) dt, s.dev.sealing.active = true → s.dev.sealing.test = false → s.dev.tileStage t.val = 3 → s.dev.quiet t.val = true →
    s.dev.xTile t.val = 0 →
    Runs (.stage3Complete t dt) s [.sealing, .qtz, .dw] fun e => e.tileStage t.val = 4 ∧ mbit e.sealing.t3Done t.val = true) ∧
  (∀ s (t : Fin 8) dt, s.dev.sealing.active = true → s.dev.sealing.test = false → s.dev.tileStage t.val = 3 → s.dev.quiet t.val = true →
    s.dev.xTile t.val ≠ 0 → s.dev.sealing.stopped = true → mbit s.dev.sealing.noLand t.val = false →
    Runs (.stage3Complete t dt) s [.sealing, .qtz, .dw] fun e => e.tileStage t.val = 5 ∧ e.sealing.t4Done = s.dev.sealing.t4Done) ∧
  (∀ s (t : Fin 8) dt, s.dev.sealing.active = true → s.dev.tileStage t.val = 4 → (s.dev.tile t.val).isolated = false →
    Runs (.tileSealRecordWritten t dt) s [.expo, .sealing, .flash, .qtz, .dw] fun e =>
      e.tileStage t.val = 5 ∧ e.sealing.t4Done = mset s.dev.sealing.t4Done t.val ∧
      ((e.lastEntry t.val fun x : LedgerEntry => x.typ == 0x0A).map fun h : LedgerEntry => (h.b, h.test)) = some (tget s.dev.sealing.landedT 0 t.val, s.dev.sealing.test)) ∧
  (∀ s dt, s.dev.sealing.active = true → 2 ≤ s.dev.sealing.stage → s.dev.sealing.stage ≤ 4 → s.dev.sealing.pkgRecord = false →
    s.dev.floorMj ≤ s.dev.eStop → s.dev.sealing.stopped = false → s.dev.pkg.takeStep = 0 →
    Runs (.energyFloorReached dt) s [.expo, .sealing, .flash, .qtz, .dw] fun e =>
      e.sealing = { s.dev.sealing with stopped := true, noLand := if s.dev.sealing.test then 0xFF else s.dev.sealing.noLand } ∧
      e.expo.inflight = s.dev.expo.inflight.filter fun f : InFlight => f.issued) ∧
  (∀ s (t : Fin 8) blk dt, s.dev.sealing.active = true → 2 ≤ s.dev.sealing.stage → s.dev.sealing.stage ≤ 4 →
    (s.dev.tile t.val).isolated = false → dieOf blk ≠ ledgerDie →
    Runs (.sealProgramFail t blk dt) s [.expo, .sealing, .flash, .qtz] fun e =>
      (e.blk t.val blk).state = 2 ∧ blk ∈ (e.fl t.val).withdrawn) ∧
  (∀ s (t : Fin 8) dt, s.dev.sealing.active = true → 2 ≤ s.dev.sealing.stage → s.dev.sealing.stage ≤ 4 →
    (s.dev.tile t.val).isolated = false → dieOf (s.dev.fl t.val).ledBlock = ledgerDie →
    Runs (.sealProgramFail t (s.dev.fl t.val).ledBlock dt) s [.expo, .sealing, .flash, .qtz] fun e =>
      (e.fl t.val).ledLeft = 0 ∧ (e.fl t.val).blocks = (s.dev.fl t.val).blocks) ∧
  (∀ s dt, (s.dev.elapse dt).tickDue 2 10000000 = false → Runs (.sealStatusUpdate dt) s [.qtz] fun e => e = s.dev.elapse dt) ∧
  (∀ s dt, (s.dev.elapse dt).tickDue 2 10000000 = true → s.dev.sealing.active = true → (s.dev.inSvc.any fun t : Nat => s.dev.tileStage t == 3) = true →
    Runs (.sealStatusUpdate dt) s [.pkg, .qtz, .dw] fun e =>
      e.sealing = s.dev.sealing ∧ bits (e.dwGet 0x600 0) 0 3 = s.dev.sealing.stage % 8 ∧
      bits (e.dwGet 0x600 0) 4 4 = s.dev.sealing.cause % 16 ∧ bits (e.dwGet 0x600 0) 48 16 = (bits (s.dev.dwGet 0x600 0) 48 16 + 1) % 65536)

/-- PACKAGE_SEAL_RECORD_WRITTEN, with every tile in service done, ends the seal by a warm return when mains came back under cause 0h or 1h and
every canary is intact; with a canary lost, the restore starts again from the mount with DRAM emptied and memory closed; otherwise stage 5
begins with write protection on and, but for cause 3h, the DRAM and flash rails off; at the end of a test seal it ends the test.
STAGE5_COMPLETE keeps the seal's event record in front of the last 128 and, for cause 3h, leaves a package reset due with DRAM kept; for
every other cause the core is off with PWR_EN deasserted and the seal's cause kept. (R79, R88, R89, R90, R99, R100, R101, R104, R107, R108) -/
def Obligations.SealEndRows : Prop :=
  (∀ s (canary : BitVec 8) dt, s.dev.sealing.active = true → s.dev.sealing.test = false → 2 ≤ s.dev.sealing.stage → s.dev.sealing.stage < 5 →
    s.dev.sealing.pkgRecord = false → s.dev.tilesSealed = true → s.dev.pkg.takeStep = 0 → s.dev.sealing.cause ≤ 1 → s.dev.sealing.mainsBack = true →
    s.dev.inSvc.all (fun t : Nat => mbit canary t) = true →
    Runs (.packageSealRecordWritten canary dt) s [.mem, .pkg, .expo, .sealing, .restore, .strata, .flash, .ctxs, .dram, .energy, .flint, .qtz, .lat, .heads, .jcs, .slate, .upd, .panel, .mirror, .dw, .out] fun e =>
      e.sealing.active = false ∧ e.sealing.frozen = false ∧
      e.sealing.nextRseq = s.dev.sealing.nextRseq + 1) ∧
  (∀ s (canary : BitVec 8) dt, s.dev.sealing.active = true → s.dev.sealing.test = false → 2 ≤ s.dev.sealing.stage → s.dev.sealing.stage < 5 →
    s.dev.sealing.pkgRecord = false → s.dev.tilesSealed = true → s.dev.pkg.takeStep = 0 → s.dev.sealing.cause ≤ 1 → s.dev.sealing.mainsBack = true →
    s.dev.inSvc.all (fun t : Nat => mbit canary t) = false →
    Runs (.packageSealRecordWritten canary dt) s [.mem, .pkg, .expo, .sealing, .restore, .strata, .flash, .ctxs, .dram, .energy, .flint, .qtz, .lat, .heads, .jcs, .slate, .upd, .panel, .mirror, .dw, .out] fun e =>
      e.sealing.active = false ∧ e.restore.phase = 4 ∧ e.restore.ready = false ∧ e.mem = [] ∧ e.expo.dirty = []) ∧
  (∀ s (canary : BitVec 8) dt, s.dev.sealing.active = true → s.dev.sealing.test = false → 2 ≤ s.dev.sealing.stage → s.dev.sealing.stage < 5 →
    s.dev.sealing.pkgRecord = false → s.dev.tilesSealed = true → s.dev.pkg.takeStep = 0 → (2 ≤ s.dev.sealing.cause ∨ s.dev.sealing.mainsBack = false) →
    Runs (.packageSealRecordWritten canary dt) s [.mem, .pkg, .expo, .sealing, .restore, .strata, .flash, .ctxs, .dram, .energy, .flint, .qtz, .lat, .heads, .jcs, .slate, .upd, .panel, .mirror, .dw, .out] fun e =>
      e.sealing.active = true ∧ e.sealing.stage = 5 ∧ e.sealing.pkgRecord = true ∧ e.panel.fWpN = true ∧ e.mem = s.dev.mem ∧
      e.expo.dirty = s.dev.expo.dirty ∧ (s.dev.sealing.cause ≠ 3 → e.panel.rails ≤ 3) ∧
      (s.dev.sealing.cause = 3 → e.panel.rails = s.dev.panel.rails)) ∧
  (∀ s (canary : BitVec 8) dt, s.dev.sealing.active = true → s.dev.sealing.test = true → 2 ≤ s.dev.sealing.stage → s.dev.sealing.stage < 5 →
    s.dev.sealing.pkgRecord = false → s.dev.tilesSealed = true → s.dev.pkg.takeStep = 0 →
    Runs (.packageSealRecordWritten canary dt) s [.mem, .pkg, .expo, .sealing, .restore, .strata, .flash, .ctxs, .dram, .energy, .flint, .qtz, .lat, .heads, .jcs, .slate, .upd, .panel, .mirror, .dw, .out] fun e =>
      e.sealing.active = false ∧ e.sealing.testStep = 0 ∧ e.sealing.frozen = false ∧ e.sealing.nextRseq = s.dev.sealing.nextRseq + 1) ∧
  (∀ s dt, s.dev.sealing.active = true → s.dev.sealing.stage = 5 → s.dev.pkg.takeStep = 0 → s.dev.sealing.cause = 3 →
    Runs (.stage5Complete dt) s [.pkg, .expo, .sealing, .restore, .energy, .therm, .flint, .qtz, .snap, .slate, .panel, .dw, .freeN] fun e =>
      e.sealing.active = false ∧ e.restore.dramKept = true ∧ e.panel.resetDue = true ∧ e.mem = s.dev.mem ∧
      e.sealing.last.drop 1 = s.dev.sealing.last.take 127 ∧
      (e.sealing.last.head?.map fun r : SealRec => (r.cause, r.t4Mask)) = some (s.dev.sealing.rec_.cause, s.dev.sealing.t4Done)) ∧
  (∀ s dt, s.dev.sealing.active = true → s.dev.sealing.stage = 5 → s.dev.pkg.takeStep = 0 → s.dev.sealing.cause ≠ 3 →
    Runs (.stage5Complete dt) s [.pkg, .expo, .sealing, .restore, .energy, .therm, .flint, .qtz, .snap, .slate, .panel, .dw, .freeN] fun e =>
      e.sealing.active = false ∧ e.sealing.hibernating = true ∧ e.panel.pwrEn = false ∧ e.panel.coreUp = false ∧
      e.panel.sealCause = some s.dev.sealing.cause ∧ e.panel.resetDue = s.dev.panel.resetDue ∧
      e.sealing.last.drop 1 = s.dev.sealing.last.take 127 ∧
      (e.sealing.last.head?.map fun r : SealRec => (r.cause, r.t4Mask)) = some (s.dev.sealing.rec_.cause, s.dev.sealing.t4Done))

/-- RESET_N_ASSERT with PWR_EN asserted or the core up starts the timing. RESET_N_RELEASE below 10 µs is ignored; from 10 µs to 2 s with mains
good on an opened device it begins a seal of cause 3h; while the power sequence runs, the sequence begins again at restore phase 1.
FORCED_RESET after 2 s with no seal running makes a package reset due with DRAM not trusted. TEST_SEAL_PATH_VERIFIED freezes ingress when
the path switched and ends the test when it did not. TEST_SEAL_HOLD_LIMIT ends the landing of a test seal. (R79, R101, R104) -/
def Obligations.ResetPinAndTestSealRows : Prop :=
  (∀ s dt, (s.dev.panel.coreUp = true ∨ s.dev.panel.pwrEn = true) →
    Runs (.resetNAssert dt) s [.qtz, .panel] fun e => e.panel = { s.dev.panel with resetNAt := some (s.dev.elapse dt).now, resetTaken := false }) ∧
  (∀ s dt t0, s.dev.panel.resetNAt = some t0 → (s.dev.elapse dt).now < t0 + 10000 →
    Runs (.resetNRelease dt) s [.qtz, .panel] fun e => e.panel = { s.dev.panel with resetNAt := none, resetTaken := false }) ∧
  (∀ s dt t0, s.dev.panel.resetNAt = some t0 → t0 + 10000 ≤ (s.dev.elapse dt).now → (s.dev.elapse dt).now < t0 + 2000000000 →
    s.dev.panel.resetTaken = false → s.dev.panel.coreUp = true → s.dev.panel.mainsGood = true → s.dev.pkg.safe = 0 → s.dev.restore.ready = true →
    s.dev.pkg.bedrock = false → s.dev.sealing.active = false →
    Runs (.resetNRelease dt) s [.mem, .pkg, .expo, .sealing, .restore, .flash, .ctxs, .dram, .energy, .therm, .flint, .qtz, .lat, .heads, .jcs, .slate, .upd, .panel, .dw, .out] fun e =>
      e.sealing.active = true ∧ e.sealing.cause = 3 ∧ e.sealing.stage = 1 ∧ e.sealing.frozen = true ∧ e.panel.resetNAt = none) ∧
  (∀ s dt t0, s.dev.panel.resetNAt = some t0 → t0 + 10000 ≤ (s.dev.elapse dt).now → s.dev.panel.resetTaken = false →
    s.dev.panel.coreUp = false → s.dev.panel.pwrEn = true → s.dev.sealing.active = false →
    Runs (.resetNRelease dt) s [.mem, .pkg, .expo, .sealing, .restore, .flash, .ctxs, .dram, .energy, .therm, .flint, .qtz, .lat, .heads, .jcs, .slate, .upd, .panel, .dw, .out] fun e =>
      e.restore.phase = 1 ∧ e.restore.ready = false ∧ e.panel.rails = 1 ∧ e.panel.railsGood = 0 ∧ e.panel.resetNAt = none) ∧
  (∀ s dt t0, s.dev.panel.resetNAt = some t0 → t0 + 2000000000 ≤ (s.dev.elapse dt).now → s.dev.panel.resetTaken = false →
    s.dev.panel.coreUp = true → s.dev.panel.mainsGood = true → s.dev.sealing.active = false →
    Runs (.forcedReset dt) s [.pkg, .expo, .sealing, .restore, .dram, .energy, .therm, .flint, .qtz, .panel, .dw, .out] fun e =>
      e.panel.resetDue = true ∧ e.panel.resetTaken = true ∧ e.restore.dramKept = false ∧ 1 ≤ e.pkg.safe ∧ e.sealing.active = false) ∧
  (∀ s dt, s.dev.sealing.active = true → s.dev.sealing.testStep = 1 →
    Runs (.testSealPathVerified true dt) s [.mem, .pkg, .expo, .sealing, .restore, .strata, .flash, .ctxs, .dram, .energy, .flint, .qtz, .lat, .heads, .jcs, .slate, .upd, .panel, .mirror, .dw, .out] fun e =>
      e.sealing.active = true ∧ e.sealing.testStep = 2 ∧ e.sealing.frozen = true ∧ e.sealing.stage = 1 ∧ e.sealing.holdAt = (s.dev.elapse dt).now) ∧
  (∀ s dt, s.dev.sealing.active = true → s.dev.sealing.testStep = 1 →
    Runs (.testSealPathVerified false dt) s [.mem, .pkg, .expo, .sealing, .restore, .strata, .flash, .ctxs, .dram, .energy, .flint, .qtz, .lat, .heads, .jcs, .slate, .upd, .panel, .mirror, .dw, .out] fun e =>
      e.sealing.active = false ∧ e.sealing.frozen = false ∧ e.sealing.testStep = 0) ∧
  (∀ s dt, s.dev.sealing.active = true → s.dev.sealing.test = true → s.dev.sealing.testStep = 2 →
    s.dev.sealing.holdAt + s.dev.sealing.holdLimit * 1000 ≤ (s.dev.elapse dt).now + 5000000 →
    Runs (.testSealHoldLimit dt) s [.sealing, .qtz] fun e => e.sealing = { s.dev.sealing with noLand := 0xFF })

/-- A tile's tier is clean after a seal record, aborted after a seal header, unclean after an OPEN record, the named tier after a committed
MOUNT record, and clean with an empty ledger. TILE_TIER_DECIDED in phase 4 on an undecided tile with a readable ledger sets the tile's tier
to that of its deciding record and writes a MOUNT record without COMMITTED. A tile whose ledger cannot be read decides nothing and raises a
Contained message. MOUNT_COMMITTED writes the MOUNT record with COMMITTED and then a disarm-all, leaves the ledger with no group armed,
empties the tile's armed set and queued disarms of groups with no dirty page, and phase 5 begins with the last tile. MOUNT_CROSS_CHECK
leaves every tier as decided, and reports disagreeing trigger times. MOUNT_TIMEOUT past 4 s, or 120 s after a scan, raises the Contained
message that isolates the tile; before that it changes nothing. (R73, R114, R115, R116, R117, R118) -/
def Obligations.RestoreMountRows : Prop :=
  (∀ (x : LedgerEntry), tierOf none = 0 ∧ (x.typ = 0x0A → tierOf (some x) = 0) ∧ (x.typ = 0x09 → tierOf (some x) = 1) ∧
    (x.typ = 0x0D → tierOf (some x) = 2) ∧ (x.typ = 0x0C → tierOf (some x) = x.a)) ∧
  (∀ s (t : Fin 8) (scan : Bool) (badHdr half : List Nat) dt, s.dev.restore.phase = 4 → (s.dev.tile t.val).isolated = false →
    mbit s.dev.restore.decided t.val = false → s.dev.pkg.safe = 0 →
    Runs (.tileTierDecided t scan true badHdr half dt) s [.expo, .restore, .strata, .flash, .flint, .qtz] fun e =>
      tget e.restore.tier 0 t.val = tierOf (s.dev.mountRec t.val) ∧ e.restore.decided = mset s.dev.restore.decided t.val ∧
      ((e.lastEntry t.val fun x : LedgerEntry => x.typ == 0x0C).map fun x : LedgerEntry => (x.a, x.test)) = some (tierOf (s.dev.mountRec t.val), false)) ∧
  (∀ s (t : Fin 8) (scan : Bool) dt, s.dev.restore.phase = 4 → (s.dev.tile t.val).isolated = false → mbit s.dev.restore.decided t.val = false →
    s.dev.pkg.safe = 0 →
    Runs (.tileTierDecided t scan false [] [] dt) s [.flint, .qtz] fun e => e.flint = (s.dev.raise (tsrc t.val 36) 0x81 3).flint) ∧
  (∀ s (t : Fin 8) dt, s.dev.restore.phase = 4 → (s.dev.tile t.val).isolated = false → mbit s.dev.restore.decided t.val = true →
    mbit s.dev.restore.committed t.val = false → s.dev.pkg.safe = 0 →
    Runs (.mountCommitted t dt) s [.expo, .restore, .flash, .qtz, .dw] fun e =>
      mbit e.restore.committed t.val = true ∧
      ((e.lastEntry t.val fun x : LedgerEntry => x.typ == 0x0C).map fun x : LedgerEntry => x.test) = some true ∧ e.ledgerArmed t.val = [] ∧
      (∀ g ∈ e.expo.armed, s.dev.groupTile g.group = t.val → s.dev.groupDirty g.group = true) ∧
      (∀ g ∈ s.dev.expo.armed, s.dev.groupTile g.group ≠ t.val → g ∈ e.expo.armed) ∧
      (e.restore.phase = 5 ∨ e.restore.phase = 4) ∧
      (e.restore.phase = 5 → ∀ k ∈ s.dev.inSvc, mbit e.restore.committed k = true)) ∧
  (∀ s dt, s.dev.restore.phase = 4 → s.dev.inSvc.all (fun t : Nat => mbit s.dev.restore.decided t) = true →
    s.dev.inSvc.any (fun t : Nat => (s.dev.sealHdr t).isSome && (s.dev.sealHdr t).map (fun x : LedgerEntry => x.time) != (s.dev.sealHdr s.dev.pkg.lead).map (fun x : LedgerEntry => x.time)) = true →
    Runs (.mountCrossCheck dt) s [.flint, .qtz] fun e => e.flint = (s.dev.raise 813 0x14 0).flint) ∧
  (∀ s (t : Fin 8) dt, s.dev.restore.phase = 4 → (s.dev.tile t.val).isolated = false → mbit s.dev.restore.committed t.val = false →
    (if mbit s.dev.restore.scan t.val then 120000000000 else 4000000000) < (s.dev.elapse dt).since s.dev.restore.mountAt →
    Runs (.mountTimeout t dt) s [.flint, .qtz] fun e => e.flint = (s.dev.raise (tsrc t.val 75) 0x42 3).flint) ∧
  (∀ s (t : Fin 8) dt, (s.dev.elapse dt).since s.dev.restore.mountAt ≤ 4000000000 →
    Runs (.mountTimeout t dt) s [.qtz] fun e => e = s.dev.elapse dt)

/-- BOOT_COMPLETE in phase 2, outside a thermal restart, with DRAM not kept and no Bedrock entry, goes on with DRAM initialisation: memory
closed, DRAM emptied, no page dirty. EARLY_OPEN in phase 5 opens the device in phase 6, puts an OPEN record of a cold open in every tile's
ledger and reports ready the heads whose link is up. DEMAND_FETCH_COMPLETE and BULK_RESTORE_PAGE mark the page restored and end its fetch;
restoring a page whose record is read and marks no poison loads that record's image into DRAM; the fill pass counts the pages that it newly
restores. BULK_RESTORE_COMPLETE of the last tile completes the restore. RESTORE_STATUS_UPDATE, when the 100 ms update of phase 6 is due,
reports the phase and the ready bit and advances SEQ. The dirty-shutdown count is incremented once for a loss, and not again for the
identity kept. (R109, R119, R121, R122, R125, R126, R129, R131, R132) -/
def Obligations.RestoreRows : Prop :=
  (∀ s (self okA okB warmOk : BitVec 8) (twinOk : Bool) (half torn : List (Nat × Nat)) (temps : List (Nat × BitVec 18)) (geom : Nat × Nat) (untrained : List (Nat × Nat)) dt,
    s.dev.restore.phase = 2 → s.dev.panel.coreUp = true → s.dev.pkg.bedrock = false → s.dev.panel.resetDue = false →
    s.dev.restore.thermalCheck = false → s.dev.restore.dramKept = false →
    Runs (.bootComplete self okA okB warmOk twinOk half torn temps geom untrained dt) s [.mem, .pkg, .expo, .sealing, .restore, .strata, .flash, .ctxs, .dram, .energy, .therm, .flint, .qtz, .snap, .lat, .heads, .jcs, .slate, .upd, .panel, .mirror, .dw, .out, .freeN] fun e =>
      e.panel.failCauses = [] ∧
      (e.pkg.bedrock = false → e.restore.phase = 3 ∧ e.restore.ready = false ∧ e.mem = [] ∧ e.expo.dirty = [])) ∧
  (∀ s dt, ((s.dev.tile 0).isolated = false ∨ (s.dev.tile 4).isolated = false) → s.dev.restore.phase = 5 → s.dev.pkg.safe = 0 →
    Runs (.earlyOpen dt) s [.mem, .pkg, .expo, .sealing, .restore, .strata, .flash, .ctxs, .dram, .energy, .flint, .qtz, .lat, .heads, .jcs, .slate, .upd, .mirror, .dw, .out] fun e =>
      e.restore.ready = true ∧ e.restore.phase = 6 ∧
      (∀ t ∈ s.dev.inSvc, ((e.lastEntry t fun x : LedgerEntry => x.typ == 0x0D).map fun x : LedgerEntry => x.a) = some 0) ∧
      ((s.dev.head 0).linkUp = true → (e.head 0).media = 1) ∧ ((s.dev.head 1).linkUp = true → (e.head 1).media = 1)) ∧
  (∀ s p (out : Fin 3) (keyErr : Fin 3) dt, s.dev.restore.fetching.contains p = true → (s.dev.tile (s.dev.pageTile p)).isolated = false →
    s.dev.pkg.safe = 0 → s.dev.restored p = false →
    Runs (.demandFetchComplete p out keyErr dt) s [.mem, .expo, .restore, .flash, .ctxs, .dram, .flint, .qtz, .lat, .heads, .dw, .out] fun e =>
      e.restored p = true ∧ e.restore.fetching.contains p = false ∧ e.restore.fetchBytes = s.dev.restore.fetchBytes + 4096) ∧
  (∀ (d : Dev) p (r : PageRec) (src : Nat), d.persistent p = true → d.curRec p = some r → (d.loc p).poison = false → r.pmask = [] →
    (d.ctx ((d.pageCtx p).getD 0)).keyLost = false → d.expo.held = [] →
    (d.restorePage p 0 0 src).mem = (d.mem.clear (pageBase p) 4096).load r.img ∧ (d.restorePage p 0 0 src).restored p = true ∧
    (d.restorePage p 0 0 src).expo.dirty = d.expo.dirty) ∧
  (∀ s (t : Fin 8) (out : Fin 3) (keyErr : Fin 3) dt p, s.dev.restore.phase = 6 → s.dev.restore.allRestored = false →
    (s.dev.tile t.val).isolated = false → s.dev.sealing.active = false → s.dev.pkg.safe = 0 → s.dev.nextRecord t.val = some p →
    Runs (.bulkRestorePage t none out keyErr dt) s [.mem, .expo, .restore, .flash, .ctxs, .dram, .flint, .qtz, .lat, .heads, .dw, .out] fun e =>
      e.restored p = true ∧ e.restore.fetching.contains p = false ∧ e.restore.bulkBytes = s.dev.restore.bulkBytes + 4096) ∧
  (∀ s (t : Fin 8) i n (out : Fin 3) (keyErr : Fin 3) dt, s.dev.restore.phase = 6 → s.dev.restore.allRestored = false →
    (s.dev.tile t.val).isolated = false → s.dev.sealing.active = false → s.dev.pkg.safe = 0 → i + n ≤ s.dev.tilePages → s.dev.strata.loc = [] →
    Runs (.bulkRestorePage t (some (i, n)) out keyErr dt) s [.mem, .expo, .restore, .flash, .ctxs, .dram, .flint, .qtz, .lat, .heads, .dw, .out] fun e =>
      e.restore.bulkBytes = s.dev.restore.bulkBytes +
        ((s.dev.markRange (t.val * 2 ^ 40 + i) n).restoredOn t.val - s.dev.restoredOn t.val) * 4096 ∧ e.restore.phase = 6) ∧
  (∀ s (t : Fin 8) dt, s.dev.restore.phase = 6 → s.dev.restore.allRestored = false → (s.dev.tile t.val).isolated = false →
    s.dev.restoredOn t.val = s.dev.tilePages → s.dev.inSvc.all (fun k : Nat => k == t.val || mbit s.dev.restore.drainDone k) = true →
    Runs (.bulkRestoreComplete t dt) s [.pkg, .restore, .dram, .flint, .qtz, .slate, .dw] fun e =>
      e.restore.phase = 7 ∧ e.restore.allRestored = true) ∧
  (∀ s dt, (s.dev.elapse dt).tickDue 4 100000000 = false → Runs (.restoreStatusUpdate dt) s [.qtz] fun e => e = s.dev.elapse dt) ∧
  (∀ s dt, (s.dev.elapse dt).tickDue 4 100000000 = true → s.dev.restore.phase = 6 →
    Runs (.restoreStatusUpdate dt) s [.pkg, .qtz, .dw] fun e =>
      bits (e.dwGet 0x640 0) 0 3 = s.dev.restore.phase % 8 ∧ bits (e.dwGet 0x640 0) 3 1 = bit s.dev.restore.ready ∧
      bits (e.dwGet 0x640 0) 48 16 = (bits (s.dev.dwGet 0x640 0) 48 16 + 1) % 65536 ∧
      bits (e.dwGet 0x648 0) 48 16 = bits (e.dwGet 0x640 0) 48 16 ∧ bits (e.dwGet 0x648 0) 0 40 = s.dev.restore.poisonPages % 2 ^ 40) ∧
  (∀ (d : Dev) (i : Nat), (d.restore.lastLoss ≠ some i → (d.dirtyShutdown i).restore.dsCount = min 4294967295 (d.restore.dsCount + 1)) ∧
    (d.dirtyShutdown i).dirtyShutdown i = d.dirtyShutdown i)

/-- LOCATOR_CHECKPOINT when due covers the tail as it stands and empties it; CHECKPOINT_COMMIT ends the running checkpoint with a CKPT entry
that names the eight directory records, and leaves no emptied block waiting for it. LEDGER_SUMMARY writes a LEDGER_CKPT entry, keeps every
entry that is still needed, and adds no entry but that one, erase intents and disarms. FLASH_OP_FAIL on a ledger die that also fails its
retry raises the Contained message; otherwise it writes the block's BAD_BLOCK entry; a whole-die failure retires a data die; a single
failure takes the block out of the log, or marks it for refresh while live records are left in it. BACKGROUND_ERASE of an erasable block, in
its turn, programs the intent first, or queues it for the ledger die; ERASE_DONE of a blank block programs the done entry, wears it by one
unit or twenty, and adds it to the zone with none of its records left; a failed erase takes the block out. (R65, R142, R147, R148, R149,
R155, R156, R157, R158, R160, R161) -/
def Obligations.StrataLogRows : Prop :=
  (∀ s (t : Fin 8) dt, s.dev.flashMay t.val = true → (s.dev.fl t.val).ckptRun = none →
    (1048576 ≤ (s.dev.fl t.val).tail.length ∨ 60000000000 ≤ (s.dev.elapse dt).since (s.dev.fl t.val).ckptAt) →
    Runs (.locatorCheckpoint t dt) s [.flash, .qtz] fun e =>
      (e.fl t.val).ckptRun = some (s.dev.fl t.val).tail ∧ (e.fl t.val).tail = [] ∧ (e.fl t.val).ckptAt = (s.dev.elapse dt).now) ∧
  (∀ s (t : Fin 8) dt, s.dev.flashMay t.val = true → (s.dev.fl t.val).ckptRun.isSome = true →
    Runs (.checkpointCommit t dt) s [.expo, .flash, .qtz] fun e =>
      (e.fl t.val).ckptRun = none ∧ (e.fl t.val).ckptNo = (s.dev.fl t.val).ckptNo + 1 ∧
      ((e.lastEntry t.val fun x : LedgerEntry => x.typ == 0x08).map fun x : LedgerEntry => (x.a, x.ext)) =
        some ((s.dev.fl t.val).ckptNo + 1, (List.range 8).map fun i : Nat => e.metaAddr t.val 9 i) ∧ (∀ b ∈ (e.fl t.val).blocks, b.2.state ≠ 8)) ∧
  (∀ s (t : Fin 8) dt, 268435456 ≤ (s.dev.fl t.val).sinceSummary → s.dev.pkg.safe = 0 → (s.dev.tile t.val).isolated = false →
    Runs (.ledgerSummary t dt) s [.expo, .flash, .qtz] fun e =>
      (e.fl t.val).sinceSummary = 0 ∧ ((e.lastEntry t.val fun x : LedgerEntry => x.typ == 0x10).map fun x : LedgerEntry => x.c) =
        some ((s.dev.fl t.val).nextLseq - 1) ∧
      (∀ x ∈ (e.fl t.val).ledger, x ∈ (s.dev.fl t.val).ledger ∨ x.typ = 0x10 ∨ x.typ = 0x04 ∨ x.typ = 0x02) ∧
      (∀ x ∈ (s.dev.fl t.val).ledger, s.dev.keepEntry (s.dev.fl t.val).ledger x = true → x ∈ (e.fl t.val).ledger)) ∧
  (∀ s (t : Fin 8) (blk : BitVec 21) (reason : Fin 4) (lost soft : List Nat) (statusFail : Bool) dt, dieOf blk.toNat = ledgerDie →
    Runs (.flashOpFail t blk reason lost soft statusFail false dt) s [.expo, .strata, .flash, .flint, .qtz] fun e =>
      ((e.blk t.val blk.toNat).state = 6 ∨ (e.blk t.val blk.toNat).state = 4) ∧
      ((e.lastEntry t.val fun x : LedgerEntry => x.typ == 0x07).map fun x : LedgerEntry => x.a) = some blk.toNat) ∧
  (∀ s (t : Fin 8) (blk : BitVec 21) (reason : Fin 4) (lost soft : List Nat) (statusFail : Bool) dt, dieOf blk.toNat = ledgerDie →
    Runs (.flashOpFail t blk reason lost soft statusFail true dt) s [.expo, .strata, .flash, .flint, .qtz] fun e =>
      e.flint = (s.dev.raise (tsrc t.val 36) 0x81 3).flint ∧ e.flash = s.dev.flash) ∧
  (∀ s (t : Fin 8) (blk : BitVec 21) (reason : Fin 4) (lost soft : List Nat) (statusFail : Bool) dt, dieOf blk.toNat ≠ ledgerDie →
    (s.dev.fl t.val).diesRetired.contains (dieOf blk.toNat) = false → (s.dev.blk t.val blk.toNat).state ≠ 4 →
    Runs (.flashOpFail t blk reason lost soft statusFail true dt) s [.expo, .strata, .flash, .flint, .qtz] fun e =>
      (e.fl t.val).diesRetired.contains (dieOf blk.toNat) = true) ∧
  (∀ s (t : Fin 8) (blk : BitVec 21) (reason : Fin 4) (lost soft : List Nat) dt, dieOf blk.toNat ≠ ledgerDie →
    (s.dev.fl t.val).diesRetired.contains (dieOf blk.toNat) = false → (s.dev.blk t.val blk.toNat).state ≠ 4 →
    Runs (.flashOpFail t blk reason lost soft false false dt) s [.expo, .strata, .flash, .flint, .qtz] fun e =>
      (e.blk t.val blk.toNat).state = 4 ∨ (e.blk t.val blk.toNat).state = 5 ∨ (e.blk t.val blk.toNat).state = 6 ∨
      ((e.blk t.val blk.toNat).state = 2 ∧ (e.blk t.val blk.toNat).refresh = true)) ∧
  (∀ s (t : Fin 8) (blk : BitVec 21) dt n, (s.dev.elapse dt).eraseLevel t.val = some n → s.dev.erasable t.val blk.toNat = true →
    (s.dev.elapse dt).flashTurn t.val n 2 = true →
    Runs (.backgroundErase t blk dt) s [.expo, .flash, .qtz] fun e =>
      (e.blk t.val blk.toNat).state = 3 ∨ blk.toNat ∈ (e.fl t.val).intentQ) ∧
  (∀ s (t : Fin 8) (blk : BitVec 21) dt n, (s.dev.elapse dt).eraseLevel t.val = some n → s.dev.erasable t.val blk.toNat = true →
    (s.dev.elapse dt).flashTurn t.val n 2 = true → (s.dev.fl t.val).intentQ = [] → tget s.dev.expo.armProg none t.val = none →
    Runs (.backgroundErase t blk dt) s [.expo, .flash, .qtz] fun e =>
      (e.blk t.val blk.toNat).state = 3 ∧
      ((e.lastEntry t.val fun x : LedgerEntry => x.typ == 0x04).map fun x : LedgerEntry => x.a) = some blk.toNat) ∧
  (∀ s (t : Fin 8) (blk : BitVec 21) dt, (s.dev.blk t.val blk.toNat).state = 3 → s.dev.pkg.safe = 0 → s.dev.sealing.active = false →
    (s.dev.blk t.val blk.toNat).wear + (if (s.dev.blk t.val blk.toNat).tlc = true then 20 else 1) < 60000 → dieOf blk.toNat ≠ ledgerDie →
    Runs (.eraseDone t blk true dt) s [.expo, .strata, .flash, .flint, .qtz] fun e =>
      (e.blk t.val blk.toNat).state = 0 ∧
      (e.blk t.val blk.toNat).wear = (s.dev.blk t.val blk.toNat).wear + (if (s.dev.blk t.val blk.toNat).tlc = true then 20 else 1) ∧
      (e.fl t.val).zone = (s.dev.fl t.val).zone + s.dev.blkRecs ∧
      ((e.lastEntry t.val fun x : LedgerEntry => x.typ == 0x05).map fun x : LedgerEntry => x.a) = some blk.toNat ∧
      (∀ r ∈ e.strata.recs, r.block = blk.toNat → e.pageTile r.page ≠ t.val)) ∧
  (∀ s (t : Fin 8) (blk : BitVec 21) dt, (s.dev.blk t.val blk.toNat).state = 3 → s.dev.pkg.safe = 0 → s.dev.sealing.active = false →
    dieOf blk.toNat = ledgerDie →
    Runs (.eraseDone t blk true dt) s [.expo, .strata, .flash, .flint, .qtz] fun e => (e.blk t.val blk.toNat).state = 0 ∧ (e.fl t.val).zone = (s.dev.fl t.val).zone) ∧
  (∀ s (t : Fin 8) (blk : BitVec 21) dt, (s.dev.blk t.val blk.toNat).state = 3 → s.dev.pkg.safe = 0 → s.dev.sealing.active = false →
    Runs (.eraseDone t blk false dt) s [.expo, .strata, .flash, .flint, .qtz] fun e =>
      (e.blk t.val blk.toNat).state = 4 ∨ (e.blk t.val blk.toNat).state = 6)

/-- GARBAGE_COLLECTION, COLD_COMPACTION, RETENTION_REFRESH and WEAR_LEVELING, where they may run and every record they touch can be read, make
no page dirty and change no byte of DRAM; a refreshed block, and the least worn programmed block of a die whose units spread too far, wait
for a checkpoint once nothing live is left in them. BUDGET_RECOMPUTE gives the budget rate of R167 from the wear left, WA and the life that
remains, and B_day from it. BORROW_ACCOUNT_UPDATE adds the bytes landed less the rate, never below zero, and starts a new second.
STRATA_STATUS_UPDATE, when the 1 s update is due, reports the rate and advances SEQ. (R65, R145, R146, R149, R152, R164, R165, R166, R167,
R169, R170, R171) -/
def Obligations.StrataBackgroundRows : Prop :=
  (∀ s (t : Fin 8) (soft : List Nat) dt, (s.dev.elapse dt).moveMay t.val = true →
    Runs (.garbageCollection t [] soft dt) s [.expo, .strata, .flash, .flint, .qtz] fun e => e.expo.dirty = s.dev.expo.dirty ∧ e.mem = s.dev.mem) ∧
  (∀ s (t : Fin 8) (soft : List Nat) dt, (s.dev.elapse dt).moveMay t.val = true → (s.dev.tile t.val).throttle < 2 →
    (s.dev.elapse dt).drawMay t.val = true → (s.dev.elapse dt).tlcMay t.val = true →
    Runs (.coldCompaction t [] soft dt) s [.expo, .strata, .flash, .flint, .qtz] fun e => e.expo.dirty = s.dev.expo.dirty ∧ e.mem = s.dev.mem) ∧
  (∀ s (t : Fin 8) (blk : BitVec 21) (soft : List Nat) dt, (s.dev.elapse dt).moveMay t.val = true → (s.dev.tile t.val).throttle < 2 →
    (s.dev.elapse dt).aged (s.dev.blk t.val blk.toNat) = true →
    Runs (.retentionRefresh t blk [] soft dt) s [.expo, .strata, .flash, .flint, .qtz] fun e =>
      (e.blockDead t.val blk.toNat = true → (e.blk t.val blk.toNat).state = 5) ∧ e.expo.dirty = s.dev.expo.dirty ∧ e.mem = s.dev.mem) ∧
  (∀ s (t : Fin 8) (blk : BitVec 21) (soft : List Nat) dt, (s.dev.elapse dt).moveMay t.val = true → (s.dev.tile t.val).throttle < 2 →
    (s.dev.blk t.val blk.toNat).state = 2 → (s.dev.blk t.val blk.toNat).refresh = true →
    (s.dev.fl t.val).blocks.any (fun x : Nat × Block => (s.dev.elapse dt).aged x.2) = false →
    Runs (.retentionRefresh t blk [] soft dt) s [.expo, .strata, .flash, .flint, .qtz] fun e =>
      (e.blockDead t.val blk.toNat = true → (e.blk t.val blk.toNat).state = 5) ∧ e.expo.dirty = s.dev.expo.dirty ∧ e.mem = s.dev.mem) ∧
  (∀ s (t : Fin 8) (die : Fin 127) (soft : List Nat) dt (b x : Nat × Block), (s.dev.elapse dt).moveMay t.val = true → s.dev.liveDie t.val die.val = true →
    ((s.dev.fl t.val).blocks.countP fun y : Nat × Block => dieOf y.1 == die.val && y.2.state != 4) < s.dev.dieBlocks →
    x ∈ (s.dev.fl t.val).blocks → dieOf x.1 = die.val → x.2.state ≠ 4 → 2000 < x.2.wear →
    argMin ((s.dev.fl t.val).blocks.filter fun y : Nat × Block => dieOf y.1 == die.val && y.2.state != 4 && y.2.state == 2)
      (fun y : Nat × Block => y.2.wear * 2 ^ 64 + y.2.progTime) = some b → s.dev.blk t.val b.1 = b.2 →
    Runs (.wearLeveling t die [] soft dt) s [.expo, .strata, .flash, .flint, .qtz] fun e =>
      (e.blockDead t.val b.1 = true → (e.blk t.val b.1).state = 5) ∧ e.expo.dirty = s.dev.expo.dirty ∧ e.mem = s.dev.mem) ∧
  (∀ s dt, Runs (.budgetRecompute dt) s [.strata, .flint, .qtz] fun e =>
      e.strata.bDay = e.strata.rate * 86400 ∧ e.strata.wearHist.head? = some (s.dev.strata.erasesH, s.dev.strata.landedH) ∧
      (e.strata.wRem ≠ 0 → e.strata.rate = e.strata.wRem * 1000 * 1000000000 /
        (e.strata.waMilli * max (30 * day) (s.dev.strata.lifeTarget * year - (s.dev.elapse dt).now))) ∧
      (e.strata.wRem = 0 → e.strata.rate = s.dev.strata.rateBol / 10)) ∧
  (∀ s dt, Runs (.borrowAccountUpdate dt) s [.strata, .flash, .flint, .qtz] fun e =>
      e.strata.borrow = s.dev.strata.borrow + sumBy tiles8 (fun t : Nat => (s.dev.fl t).landedBytes) - s.dev.strata.rate ∧
      (∀ t ∈ tiles8, (e.fl t).landedBytes = 0)) ∧
  (∀ s dt, (s.dev.elapse dt).tickDue 5 1000000000 = true → Runs (.strataStatusUpdate dt) s [.pkg, .expo, .strata, .flash, .flint, .qtz, .dw] fun e =>
      bits (e.dwGet 0x680 0) 0 20 = s.dev.strata.rate / 1000000 % 2 ^ 20 ∧
      bits (e.dwGet 0x680 0) 56 8 = (bits (s.dev.dwGet 0x680 0) 56 8 + 1) % 256 ∧
      bits (e.dwGet 0x688 0) 56 8 = bits (e.dwGet 0x680 0) 56 8)

/-- REGION_TABLE_COMMIT of a granule's oldest change gives the granule its new entry at one point and, with a trim, leaves no page of it dirty;
ZERO_FILL_COMPLETE does so after zeroing every byte of the granule (both where no request is held). DC_RELEASE_TIMEOUT leaves no release of
the head whose time is over. MINUTE_BOUNDARY when due restarts the record of every live context and sets the next boundary after now.
METERING_WRITE leaves no record unwritten of the contexts that tiles in service meter. SANITIZE_STEP_DONE goes through its steps: after 2
the third is next; the third leaves no key of the context valid or cached, and ends once no metadata block holds an earlier wrapped key;
after 4 no stratum of it is left, after 5 it is FREE with its generation advanced. (R33, R45, R177, R178, R205, R208, R209, R211) -/
def Obligations.RegionTableAndSanitizeRows : Prop :=
  (∀ s g (replBad : Bool) dt (x : RtChange), s.dev.ctxs.rtPend.find? (fun y : RtChange => y.granule == g) = some x → x.waitFill = false → x.zero = false →
    s.dev.sealing.frozen = false → s.dev.expo.held = [] →
    Runs (.regionTableCommit g replBad dt) s [.mem, .expo, .restore, .strata, .flash, .ctxs, .dram, .flint, .qtz, .lat, .heads, .jcs, .mirror, .dw, .out] fun e =>
      e.gran g = { x.entry with isolated := (s.dev.gran g).isolated } ∧ e.ctxs.rtPend = s.dev.ctxs.rtPend.filter (fun y : RtChange => !(y.granule == g)) ∧
      (x.trim = true → ∀ y ∈ e.expo.dirty, pageGran y.page ≠ g)) ∧
  (∀ s g dt (x : RtChange), s.dev.ctxs.rtPend.find? (fun y : RtChange => y.granule == g && (y.waitFill || y.zero)) = some x →
    s.dev.sealing.frozen = false → s.dev.expo.held = [] →
    Runs (.zeroFillComplete g dt) s [.mem, .expo, .restore, .strata, .flash, .ctxs, .dram, .flint, .qtz, .lat, .heads, .jcs, .mirror, .dw, .out] fun e =>
      e.gran g = { x.entry with isolated := (s.dev.gran g).isolated } ∧ (∀ a, a / 2 ^ 30 = g → e.mem.byte a = 0) ∧
      (∀ a, a / 2 ^ 30 ≠ g → e.mem.byte a = s.dev.mem.byte a)) ∧
  (∀ s (h : Fin 2) dt,
    Runs (.dcReleaseTimeout h dt) s [.expo, .flash, .ctxs, .qtz, .heads, .jcs, .mirror] fun e =>
      (∀ o ∈ (e.head h.val).dcOffers, o.release = true → o.deadline.all (fun t : Nat => decide ((s.dev.elapse dt).now < t)) = true) ∧
      (∀ o ∈ (e.head h.val).dcOffers, o ∈ (s.dev.head h.val).dcOffers)) ∧
  (∀ s dt, s.dev.ctxs.minuteEnd ≤ (s.dev.elapse dt).now → s.dev.restore.ready = true →
    Runs (.minuteBoundary dt) s [.expo, .strata, .flash, .ctxs, .qtz] fun e =>
      (s.dev.elapse dt).now < e.ctxs.minuteEnd ∧ e.ctxs.minuteEnd ≤ (s.dev.elapse dt).now + 60000000000 ∧
      (∀ c ∈ s.dev.liveCtxs, (e.ctx c).meterStart = (s.dev.elapse dt).now)) ∧
  (∀ s dt, s.dev.sealing.frozen = false → s.dev.pkg.safe = 0 → Runs (.meteringWrite dt) s [.expo, .flash, .ctxs, .qtz] fun e =>
      (∀ x ∈ e.ctxs.tbl, x.1 % 8 ∈ s.dev.inSvc → x.2.unwritten = 0) ∧ e.ctxs.rt = s.dev.ctxs.rt) ∧
  (∀ s c dt, (s.dev.ctx c).state = 4 → (s.dev.ctx c).sanStep = 1 → s.dev.sealing.frozen = false → s.dev.restore.ready = true → s.dev.pkg.safe = 0 →
    Runs (.sanitizeStepDone c dt) s [.mem, .expo, .restore, .strata, .flash, .ctxs, .dram, .flint, .qtz, .lat, .heads, .jcs, .mirror, .dw, .out] fun e => (e.ctx c).sanStep = 2 ∧ (e.ctx c).state = 4) ∧
  (∀ s c dt, (s.dev.ctx c).state = 4 → (s.dev.ctx c).sanStep = 2 → s.dev.sealing.frozen = false → s.dev.restore.ready = true → s.dev.pkg.safe = 0 →
    Runs (.sanitizeStepDone c dt) s [.mem, .expo, .restore, .strata, .flash, .ctxs, .dram, .flint, .qtz, .lat, .heads, .jcs, .mirror, .dw, .out] fun e => (e.ctx c).sanStep = 3) ∧
  (∀ s c dt, (s.dev.ctx c).state = 4 → (s.dev.ctx c).sanStep = 3 → s.dev.sealing.frozen = false → s.dev.restore.ready = true → s.dev.pkg.safe = 0 →
    Runs (.sanitizeStepDone c dt) s [.mem, .expo, .restore, .strata, .flash, .ctxs, .dram, .flint, .qtz, .lat, .heads, .jcs, .mirror, .dw, .out] fun e =>
      (e.ctx c).sanStep = 6 ∧ (e.ctx c).keyValid = 0 ∧ (e.ctx c).keyMeta = false ∧ (∀ x ∈ e.ctxs.keyCache, x.2.contains c = false)) ∧
  (∀ s c dt, (s.dev.ctx c).state = 4 → (s.dev.ctx c).sanStep = 6 → s.dev.sealing.frozen = false → s.dev.restore.ready = true → s.dev.pkg.safe = 0 →
    (∀ t ∈ s.dev.inSvc, s.dev.oldKeyBlocks t c = []) →
    Runs (.sanitizeStepDone c dt) s [.mem, .expo, .restore, .strata, .flash, .ctxs, .dram, .flint, .qtz, .lat, .heads, .jcs, .mirror, .dw, .out] fun e => (e.ctx c).sanStep = 4) ∧
  (∀ s c dt, (s.dev.ctx c).state = 4 → (s.dev.ctx c).sanStep = 4 → s.dev.sealing.frozen = false → s.dev.restore.ready = true → s.dev.pkg.safe = 0 →
    Runs (.sanitizeStepDone c dt) s [.mem, .expo, .restore, .strata, .flash, .ctxs, .dram, .flint, .qtz, .lat, .heads, .jcs, .mirror, .dw, .out] fun e =>
      (e.ctx c).sanStep = 5 ∧ (∀ x ∈ e.strata.strata, x.context ≠ c) ∧
      e.strata.trims.head? = some ({ context := c, granule := none, time := (s.dev.elapse dt).now } : TrimRec)) ∧
  (∀ s c dt, (s.dev.ctx c).state = 4 → (s.dev.ctx c).sanStep = 5 → s.dev.sealing.frozen = false → s.dev.restore.ready = true → s.dev.pkg.safe = 0 →
    Runs (.sanitizeStepDone c dt) s [.mem, .expo, .restore, .strata, .flash, .ctxs, .dram, .flint, .qtz, .lat, .heads, .jcs, .mirror, .dw, .out] fun e =>
      (e.ctx c).state = 0 ∧ (e.ctx c).gen = ((s.dev.ctx c).gen + 1) % 4 ∧ (e.ctx c).owner = 0)

/-- DOORBELL_SQ and DOORBELL_CQ from a head that does not own the context change no context and are counted as an ownership violation. From the
owning head on a running ring, a tail in range becomes the ring's SQ_TAIL, a tail at or above 2^n puts the ring into error 01h; a head
within the completions posted becomes the ring's CQ_HEAD, and one at or above 2^n puts it into error 02h. COALESCE_TIMER_EXPIRY signals what
is unsignalled once COAL_TIME has passed. MSIX_VECTOR_UNMASK opens the vector and sends what was pending on a head whose link is up.
QUIESCE_COMPLETE disables a quiescing context with nothing started and nothing to revert. (R186, R187, R190, R202, R203) -/
def Obligations.RingDoorbellRows : Prop :=
  (∀ s (h : Fin 2) c k (tail : BitVec 12) (ue : BitVec 10) dt, (s.dev.ctx c).owner ≠ h.val + 1 →
    Runs (.doorbellSq h c k tail ue dt) s [.qtz, .flint] fun e =>
      e.flint = (s.dev.raise (ownSrc h.val) 0x12 0 (ctx := c) (headOnly := h.val)).flint) ∧
  (∀ s (h : Fin 2) c k (head : BitVec 12) dt, (s.dev.ctx c).owner ≠ h.val + 1 →
    Runs (.doorbellCq h c k head dt) s [.qtz, .flint] fun e =>
      e.flint = (s.dev.raise (ownSrc h.val) 0x12 0 (ctx := c) (headOnly := h.val)).flint) ∧
  (∀ s (h : Fin 2) c k (tail : BitVec 12) (ue : BitVec 10) dt, (s.dev.ctx c).owner = h.val + 1 → s.dev.doorbellOk c k = true → tail.toNat < (s.dev.ring c k).slots →
    Runs (.doorbellSq h c k tail ue dt) s [.mem, .expo, .restore, .ctxs, .dram, .flint, .qtz, .heads, .slate, .dw] fun e => (e.ring c k).sqTail = tail.toNat ∧ (e.ring c k).cqTail = (s.dev.ring c k).cqTail) ∧
  (∀ s (h : Fin 2) c k (tail : BitVec 12) (ue : BitVec 10) dt, (s.dev.ctx c).owner = h.val + 1 → s.dev.doorbellOk c k = true → (s.dev.ring c k).slots ≤ tail.toNat →
    Runs (.doorbellSq h c k tail ue dt) s [.mem, .expo, .restore, .ctxs, .dram, .flint, .qtz, .heads, .slate, .dw] fun e =>
      (e.ring c k).state = 4 ∧ (e.ring c k).err = 1 ∧ (e.ring c k).sqTail = (s.dev.ring c k).sqTail) ∧
  (∀ s (h : Fin 2) c k (head : BitVec 12) dt, (s.dev.ctx c).owner = h.val + 1 → s.dev.doorbellOk c k = true → head.toNat < (s.dev.ring c k).slots →
    (head.toNat + (s.dev.ring c k).slots - (s.dev.ring c k).cqHead) % (s.dev.ring c k).slots ≤
      ((s.dev.ring c k).cqTail + (s.dev.ring c k).slots - (s.dev.ring c k).cqHead) % (s.dev.ring c k).slots →
    Runs (.doorbellCq h c k head dt) s [.expo, .restore, .ctxs, .flint, .qtz] fun e => (e.ring c k).cqHead = head.toNat ∧ (e.ring c k).cqTail = (s.dev.ring c k).cqTail) ∧
  (∀ s (h : Fin 2) c k (head : BitVec 12) dt, (s.dev.ctx c).owner = h.val + 1 → s.dev.doorbellOk c k = true → (s.dev.ring c k).slots ≤ head.toNat →
    Runs (.doorbellCq h c k head dt) s [.expo, .restore, .ctxs, .flint, .qtz] fun e => (e.ring c k).state = 4 ∧ (e.ring c k).err = 2) ∧
  (∀ s c k dt, (s.dev.ring c k).unsig ≠ 0 → (s.dev.ring c k).coalTime * 1000 ≤ (s.dev.elapse dt).since (s.dev.ring c k).unsigAt →
    Runs (.coalesceTimerExpiry c k dt) s [.ctxs, .qtz, .heads, .out] fun e => (e.ring c k).unsig = 0) ∧
  (∀ s (h : Fin 2) (v : Fin 2048) dt,
    Runs (.msixVectorUnmask h v dt) s [.qtz, .heads, .out] fun e =>
      (e.head h.val).msixOpen.contains v.val = true ∧
      ((s.dev.head h.val).linkUp = true → (e.head h.val).msixPending.contains v.val = false)) ∧
  (∀ s c dt, (s.dev.ctx c).state = 2 → (s.dev.ctx c).rings.all (fun r : Nat × Ring => r.2.idle) = true → s.dev.ctxs.rollback = [] →
    Runs (.quiesceComplete c dt) s [.expo, .flash, .ctxs, .qtz, .heads, .jcs, .mirror] fun e => (e.ctx c).state = 3)

/-- FENCE, CHECKPOINT and ROLLBACK take up the next started entry of their opcode, which then waits if it passes its checks. FENCE_COMPLETE
posts the completion of a fence whose waits are over and counts it. CHECKPOINT_STRATUM_SET sets T_s to the present time. CHECKPOINT_COMPLETE
notes the tiles whose entries are durable and, with every tile's, makes the stratum with that T_s and posts the completion.
ROLLBACK_SWITCH_COMMIT puts an ACTIVE context with a page of class P1 or P2 in ROLLBACK_PENDING with the switch time, and leaves one without
such a page ACTIVE. REVERSAL_COMPLETE of the page that is due, with a slot for its record, restores the page and takes its bit away;
ROLLBACK_BITMAP_REBUILT ends the rebuild on the tile. EXPOSURE_QUERY, METER_MARK and NOP complete the next entry of their opcode; METER_MARK
sets the mark of the running record. A completion advances CQ_TAIL by one slot of a ring whose completion area is valid. (R188, R189, R190,
R191, R192, R194, R196, R197, R198, R199, R200, R201) -/
def Obligations.RingEntryRows : Prop :=
  (∀ s c k dt (x : RingEntry), s.dev.nextUp c k (fun o : Nat => o == 1 || o == 0 || decide (6 < o)) = some x → s.dev.sealing.frozen = false →
    s.dev.pkg.safe = 0 → x.opc = 1 → s.dev.entryStatus c x = 0 →
    (x.arg1 = 0 ∨ s.dev.inCtx c (x.arg0 * 4096) (x.arg1 * 4096) = true) →
    Runs (.fence c k dt) s [.mem, .expo, .restore, .flash, .ctxs, .dram, .flint, .qtz, .lat, .heads, .jcs, .mirror, .dw, .out] fun e =>
      ∃ y ∈ (e.ring c k).entries, y.idx = x.idx ∧ y.submit = x.submit ∧ y.started = true ∧ y.checked = true ∧ y.waits = x.waits) ∧
  (∀ s c k dt (x : RingEntry), s.dev.nextUp c k (fun o : Nat => o == 1 || o == 0 || decide (6 < o)) = some x → s.dev.sealing.frozen = false →
    s.dev.pkg.safe = 0 → x.opc ≠ 1 → k ≠ latRing →
    s.dev.inCtx c (s.dev.ring c k).cqBase (32 * (s.dev.ring c k).slots) = true →
    Runs (.fence c k dt) s [.mem, .expo, .restore, .flash, .ctxs, .dram, .flint, .qtz, .lat, .heads, .jcs, .mirror, .dw, .out] fun e =>
      (e.ring c k).completed = (s.dev.ring c k).completed + 1 ∧ (e.ring c k).cqTail = ((s.dev.ring c k).cqTail + 1) % (s.dev.ring c k).slots) ∧
  (∀ s c k dt (x : RingEntry), (s.dev.ring c k).entries.find? (fun y : RingEntry => y.opc == 1 && s.dev.fenceDone y) = some x → s.dev.sealing.frozen = false →
    s.dev.pkg.safe = 0 → k ≠ latRing → s.dev.inCtx c (s.dev.ring c k).cqBase (32 * (s.dev.ring c k).slots) = true →
    Runs (.fenceComplete c k dt) s [.mem, .expo, .restore, .flash, .ctxs, .dram, .flint, .qtz, .lat, .heads, .jcs, .mirror, .dw, .out] fun e =>
      (e.ring c k).completed = (s.dev.ring c k).completed + 1 ∧ (e.ring c k).cqTail = ((s.dev.ring c k).cqTail + 1) % (s.dev.ring c k).slots ∧
      (e.ctx c).meter.fences = (s.dev.ctx c).meter.fences + (if (s.dev.ctx c).keyLost = true then 0 else 1)) ∧
  (∀ s c k dt (x : RingEntry), s.dev.nextUp c k (fun o : Nat => o == 2) = some x → s.dev.sealing.frozen = false → s.dev.pkg.safe = 0 → s.dev.entryStatus c x = 0 →
    Runs (.checkpoint c k dt) s [.mem, .expo, .restore, .flash, .ctxs, .dram, .flint, .qtz, .lat, .heads, .jcs, .mirror, .dw, .out] fun e =>
      ∃ y ∈ (e.ring c k).entries, y.idx = x.idx ∧ y.submit = x.submit ∧ y.started = true ∧ y.checked = true ∧ y.waits = x.waits) ∧
  (∀ s c k dt (x : RingEntry), (s.dev.ring c k).entries.find? (fun y : RingEntry => y.opc == 2 && s.dev.fenceDone y && y.ts == 0) = some x →
    s.dev.sealing.frozen = false → s.dev.pkg.safe = 0 →
    Runs (.checkpointStratumSet c k dt) s [.ctxs, .qtz] fun e =>
      ∃ y ∈ (e.ring c k).entries, y.idx = x.idx ∧ y.submit = x.submit ∧ y.ts = max 1 (s.dev.elapse dt).now) ∧
  (∀ s c k (m : BitVec 8) dt (x : RingEntry), (s.dev.ring c k).entries.find? (fun y : RingEntry => y.opc == 2 && y.checked && y.ts != 0) = some x →
    s.dev.sealing.frozen = false → s.dev.pkg.safe = 0 → (s.dev.ctx c).keyLost = false →
    (s.dev.ctxTiles c).all (fun t : Nat => mbit (x.done ||| m) t) = false →
    Runs (.checkpointComplete c k m dt) s [.mem, .expo, .restore, .strata, .flash, .ctxs, .dram, .flint, .qtz, .lat, .heads, .jcs, .mirror, .dw, .out] fun e =>
      e.strata.strata = s.dev.strata.strata ∧
      ∃ y ∈ (e.ring c k).entries, y.idx = x.idx ∧ y.submit = x.submit ∧ (∀ t ∈ s.dev.ctxTiles c, mbit m t = true → mbit y.done t = true)) ∧
  (∀ s c k (m : BitVec 8) dt (x : RingEntry), (s.dev.ring c k).entries.find? (fun y : RingEntry => y.opc == 2 && y.checked && y.ts != 0) = some x →
    s.dev.sealing.frozen = false → s.dev.pkg.safe = 0 → (s.dev.ctx c).keyLost = false → (s.dev.strataOf c).length < (s.dev.ctx c).retainCount →
    (s.dev.ctxTiles c).all (fun t : Nat => mbit (x.done ||| m) t) = true →
    Runs (.checkpointComplete c k m dt) s [.mem, .expo, .restore, .strata, .flash, .ctxs, .dram, .flint, .qtz, .lat, .heads, .jcs, .mirror, .dw, .out] fun e =>
      e.strata.strata = ({ context := c, time := x.ts, tag := x.arg0 } : Stratum) :: s.dev.strata.strata ∧
      (e.ctx c).meter.ckpts = (s.dev.ctx c).meter.ckpts + 1) ∧
  (∀ s c k dt (x : RingEntry) (st : Stratum), s.dev.nextUp c k (fun o : Nat => o == 3) = some x → s.dev.sealing.frozen = false → s.dev.pkg.safe = 0 →
    s.dev.entryStatus c x = 0 →
    (s.dev.strataOf c).find? (fun y : Stratum => y.time == x.arg0) = some st → (st.damaged = false ∨ x.flags.getLsbD 2 = true) → s.dev.rollbackBusy c k x = false →
    Runs (.rollback c k dt) s [.mem, .expo, .restore, .flash, .ctxs, .dram, .flint, .qtz, .lat, .heads, .jcs, .mirror, .dw, .out] fun e =>
      ∃ y ∈ (e.ring c k).entries, y.idx = x.idx ∧ y.submit = x.submit ∧ y.started = true ∧ y.checked = true ∧ y.ts = x.arg0) ∧
  (∀ s c k dt (x : RingEntry), (s.dev.ring c k).entries.find? (fun y : RingEntry => y.opc == 3 && y.checked) = some x → s.dev.expo.inflight = [] →
    s.dev.sealing.frozen = false → s.dev.pkg.safe = 0 → (s.dev.ctx c).keyLost = false → (s.dev.ctx c).state = 1 → (s.dev.ctx c).rebuild = 0 →
    s.dev.ctxs.rollback = [] → (∀ g ∈ s.dev.ctxGrans c, (s.dev.gran g).cls ≠ 1 ∧ (s.dev.gran g).cls ≠ 2) → (s.dev.elapse dt).now ≠ 0 →
    Runs (.rollbackSwitchCommit c k dt) s [.mem, .expo, .restore, .flash, .ctxs, .dram, .flint, .qtz, .lat, .heads, .jcs, .mirror, .dw, .out] fun e => (e.ctx c).state = 1 ∧ (e.ctx c).tR = 0) ∧
  (∀ s c k dt (x : RingEntry) g, (s.dev.ring c k).entries.find? (fun y : RingEntry => y.opc == 3 && y.checked) = some x → s.dev.expo.inflight = [] →
    s.dev.sealing.frozen = false → s.dev.pkg.safe = 0 → (s.dev.ctx c).keyLost = false → (s.dev.ctx c).state = 1 →
    g ∈ s.dev.ctxGrans c → ((s.dev.gran g).cls = 1 ∨ (s.dev.gran g).cls = 2) → (s.dev.tile (s.dev.pageTile (g * 262144))).isolated = false →
    s.dev.backed g = true →
    Runs (.rollbackSwitchCommit c k dt) s [.mem, .expo, .restore, .flash, .ctxs, .dram, .flint, .qtz, .lat, .heads, .jcs, .mirror, .dw, .out] fun e =>
      (e.ctx c).state = 5 ∧ (e.ctx c).tR = (s.dev.elapse dt).now ∧ (e.ctx c).tSRb = x.ts) ∧
  (∀ s p (out : Fin 3) dt, s.dev.ctxs.rollback.contains p = true → s.dev.pkg.safe = 0 → s.dev.pageCtx p ≠ none → s.dev.sealing.active = false →
    (s.dev.reversalAsked p = true ∨ s.dev.bulkReversal (s.dev.pageTile p) = some p) →
    ((s.dev.stream (s.dev.pageTile p) 0).left ≠ 0 ∨
      (s.dev.leastWorn (s.dev.pageTile p) (s.dev.dataDies (s.dev.pageTile p)) ≠ none ∧ s.dev.strata.slcPages ≠ 0)) →
    Runs (.reversalComplete p out dt) s [.mem, .expo, .restore, .strata, .flash, .ctxs, .dram, .flint, .qtz, .lat, .heads, .dw, .out] fun e => e.ctxs.rollback.contains p = false ∧ e.restored p = true) ∧
  (∀ s (t : Fin 8) dt, Runs (.rollbackBitmapRebuilt t dt) s [.mem, .expo, .restore, .flash, .ctxs, .dram, .flint, .qtz, .lat, .heads, .dw, .out] fun e =>
      (∀ c, mbit (e.ctx c).rebuild t.val = false) ∧ e.ctxs.rt = s.dev.ctxs.rt) ∧
  (∀ s c k dt (x : RingEntry), s.dev.nextUp c k (fun o : Nat => o == 4) = some x → s.dev.sealing.frozen = false → s.dev.pkg.safe = 0 →
    s.dev.entryStatus c x = 0 → k ≠ latRing →
    s.dev.inCtx c (s.dev.ring c k).cqBase (32 * (s.dev.ring c k).slots) = true →
    Runs (.exposureQuery c k dt) s [.mem, .expo, .restore, .flash, .ctxs, .dram, .flint, .qtz, .lat, .heads, .jcs, .mirror, .dw, .out] fun e =>
      (e.ring c k).completed = (s.dev.ring c k).completed + 1 ∧ (e.ring c k).cqTail = ((s.dev.ring c k).cqTail + 1) % (s.dev.ring c k).slots) ∧
  (∀ s c k dt (x : RingEntry), s.dev.nextUp c k (fun o : Nat => o == 5) = some x → s.dev.sealing.frozen = false → s.dev.pkg.safe = 0 →
    s.dev.entryStatus c x = 0 → k ≠ latRing →
    s.dev.inCtx c (s.dev.ring c k).cqBase (32 * (s.dev.ring c k).slots) = true →
    Runs (.meterMark c k dt) s [.mem, .expo, .restore, .flash, .ctxs, .dram, .flint, .qtz, .lat, .heads, .jcs, .mirror, .dw, .out] fun e =>
      (e.ring c k).completed = (s.dev.ring c k).completed + 1 ∧ (e.ctx c).meter.mark = x.arg0) ∧
  (∀ s c k dt (x : RingEntry), s.dev.nextUp c k (fun o : Nat => o == 6) = some x → s.dev.sealing.frozen = false → s.dev.pkg.safe = 0 →
    s.dev.entryStatus c x = 0 → k ≠ latRing →
    s.dev.inCtx c (s.dev.ring c k).cqBase (32 * (s.dev.ring c k).slots) = true →
    Runs (.nop c k dt) s [.mem, .expo, .restore, .flash, .ctxs, .dram, .flint, .qtz, .lat, .heads, .jcs, .mirror, .dw, .out] fun e =>
      (e.ring c k).completed = (s.dev.ring c k).completed + 1 ∧ (e.ring c k).cqTail = ((s.dev.ring c k).cqTail + 1) % (s.dev.ring c k).slots)

/-- Writing the completion of a ring whose key is not lost, where nothing holds the line's page and its tile is in service, changes in DRAM
exactly the 32 bytes of the slot, and the governor never holds it; where its page is clean, persistent and in an unarmed group, DRAM keeps
its contents and the completion is held until the arm. (R47, R67, R184, R189) -/
def Obligations.CompletionWrite : Prop :=
  (∀ (d : Dev) c k a (bs : List Byte) (irq : Bool), (d.ctx c).keyLost = false → (d.tile (d.pageTile (linePage (a / 64)))).isolated = false →
    (d.holds ({ head := 3, line := a / 64, write := true, cmd := 3 } : HeldReq)).free = true → d.poisoned (a / 64) = false → a % 64 ≤ 32 →
    (∀ b : Nat, (b < a ∨ a + 32 ≤ b) → (d.writeCqe c k a bs irq).mem.byte b = d.mem.byte b)) ∧
  (∀ (d : Dev) (r : HeldReq), r.cmd = 3 → (d.holds r).forGov = false) ∧
  (∀ (d : Dev) c k a (bs : List Byte) (irq : Bool), (d.ctx c).keyLost = false → d.persistent (linePage (a / 64)) = true →
    d.isDirty (linePage (a / 64)) = false → d.isArmed (pageGroup (linePage (a / 64))) = false →
    (d.writeCqe c k a bs irq).mem = d.mem ∧ ∃ r ∈ (d.writeCqe c k a bs irq).expo.held, r.cmd = 3 ∧ r.line = a / 64 ∧ r.forArm = true)

/-- The DPA of a tile's local address lies on that tile and has that local address; every DPA is the DPA of its own tile and local address;
every page lies on the tile of its group; and two tile-local addresses with the same row, channel and address within the logical rank are
the same, whatever the grains, the ranks and the number of spares below four. (R14, R34, R35, R36) -/
def Obligations.AddressMapIsOneToOne : Prop :=
  (∀ (d : Dev) t a, t < 8 → d.tileOf (d.dpaOf t a) = t ∧ d.tla (d.dpaOf t a) = a) ∧
  (∀ (d : Dev) a, d.dpaOf (d.tileOf a) (d.tla a) = a ∧ d.tileOf a < 8) ∧
  (∀ (d : Dev) p, d.pageTile p = d.groupTile (pageGroup p)) ∧
  (∀ (d : Dev) a b, d.dram.cfg.spares < 4 → d.chanOf a = d.chanOf b → a = b)

/-- Whatever symbols one of the ten devices disturbs, and in however many of the eight slices, decoding names that device as corrected, with or
without a mark on the subchannel. No disturbance is good. The ten symbols of a slice as stored have the line's eight bytes first and
syndromes of zero, or 5Ah for S1 where the line is poison, and the syndromes that a disturbed read finds are those of its ten symbols. A
line stored as poison with no disturbance decodes as poison. A poisoned line disturbed alike in every slice on the marked device decodes as
poison, or by the order of the table as an error of one device. (R219, R220, R221) -/
def Obligations.SymbolCodeCorrectsOneDevice : Prop :=
  (∀ (mark j : Nat) (es : List (BitVec 8)), j < 10 → (∃ e ∈ es, e ≠ 0) →
    decodeSlices mark (es.map fun e : BitVec 8 => (e, gfXn e j)) = LineResult.corrected j) ∧
  (∀ (mark n : Nat), decodeSlices mark ((List.range n).map fun _ : Nat => ((0 : BitVec 8), (0 : BitVec 8))) = LineResult.good) ∧
  (∀ (mark : Nat), decodeSlices mark (slicesOf true []) = LineResult.poison ∧ decodeSlices mark (slicesOf false []) = LineResult.good) ∧
  (∀ (line : BitVec 512) (p : Bool) (s : Nat), s < 8 → (codeword line p s).take 8 = dataSymbols line s ∧ (codeword line p s).length = 10 ∧
    syndromes (codeword line p s) = (0, if p then 0x5A else 0)) ∧
  (∀ (line : BitVec 512) (p : Bool) (errs : List (Nat × Nat)) (s : Nat), s < 8 →
    (slicesOf p errs)[s]? = some (syndromes ((codeword line p s).mapIdx fun (j : Nat) (x : BitVec 8) => x ^^^ symErr errs s j))) ∧
  (∀ (mark : Nat) (e : BitVec 8), mark < 10 →
    (decodeSlices mark ((List.range 8).map fun _ : Nat => (e, gfXn e mark ^^^ 0x5A)) = LineResult.poison ∨
      ∃ j, j < 10 ∧ decodeSlices mark ((List.range 8).map fun _ : Nat => (e, gfXn e mark ^^^ 0x5A)) = LineResult.corrected j))

/-- CHANNEL_TRAINING_DONE in phase 3 makes a channel active when it trains, retries once, and takes it out of service with a Contained message
at the second failure or where the SPD shows ranks that cannot serve. DRAM_INIT_COMPLETE with every channel in service trained ends phase 3.
CA_RETRAIN_DONE ends a retraining, or takes the channel out of service. TOKEN_REFILL adds what the cap and the host write limit let through
in 10 µs to at most 64 left tokens. MR4_POLL halves the refresh interval of the ranks whose indication is not the lowest. REFRESH_DUE of the
bank that the rank's rotation has reached moves the rotation on, and postpones at most that refresh; of another bank it makes one postponed
refresh up. A gathering window opens on an active channel, and its close starts a partial training of every drifting rank.
PARTIAL_TRAINING_DONE ends the rank's training. FSP_SWITCH_DONE brings the channel to the set point it switches to, unless a partial
training runs. SELF_REFRESH_ENTRY of an idle channel puts it in self-refresh. DRAM_CH_STATUS_UPDATE, when the 100 ms update is due, reports
every channel and changes none. (R224, R231, R232, R233, R234, R236, R237, R238, R239, R241) -/
def Obligations.DramChannelRows : Prop :=
  (∀ s (t : Fin 8) (c : Fin 4) dt, s.dev.restore.phase = 3 → (s.dev.chan t.val c.val).state ≠ 3 → (s.dev.tile t.val).isolated = false →
    Runs (.channelTrainingDone t c true true true true dt) s [.dram, .flint, .qtz, .dw] fun e =>
      (e.chan t.val c.val).state = 1 ∧ (e.chan t.val c.val).trained = true ∧ (e.chan t.val c.val).retValid = true) ∧
  (∀ s (t : Fin 8) (c : Fin 4) dt, s.dev.restore.phase = 3 → (s.dev.chan t.val c.val).state ≠ 3 → (s.dev.tile t.val).isolated = false →
    Runs (.channelTrainingDone t c false true true true dt) s [.dram, .flint, .qtz, .dw] fun e =>
      ((s.dev.chan t.val c.val).trainTries = 0 → (e.chan t.val c.val).trainTries = 1 ∧ e.flint = s.dev.flint) ∧
      ((s.dev.chan t.val c.val).trainTries ≠ 0 → (e.chan t.val c.val).state = 3 ∧ e.flint = (s.dev.raise (tsrc t.val (4 * c.val)) 0x40 3).flint)) ∧
  (∀ s (t : Fin 8) (c : Fin 4) (ok pop dev chk : Bool) dt, s.dev.restore.phase = 3 → (s.dev.chan t.val c.val).state ≠ 3 → (s.dev.tile t.val).isolated = false →
    (pop && dev && chk) = false →
    Runs (.channelTrainingDone t c ok pop dev chk dt) s [.dram, .flint, .qtz, .dw] fun e =>
      (e.chan t.val c.val).state = 3 ∧ e.flint = (s.dev.raise (tsrc t.val (4 * c.val)) 0x40 3).flint) ∧
  (∀ s (n size : Fin 4) (rate : Fin 3) (ecc : List (Nat × Nat)) dt, s.dev.restore.phase = 3 →
    (∀ t ∈ s.dev.inSvc, ∀ c ∈ [0, 1, 2, 3], (s.dev.chan t c).state = 1) →
    Runs (.dramInitComplete n size rate ecc dt) s [.restore, .dram, .qtz, .panel, .dw] fun e =>
      e.restore.phase = 4 ∧ e.dram.cfg.n = n.val + 1 ∧ e.dram.cfg.sGib = 32 * 2 ^ size.val ∧ e.dram.cfg.rate = max rate.val s.dev.dram.cfg.rateLimit) ∧
  (∀ s (t : Fin 8) (c : Fin 4) dt, (s.dev.chan t.val c.val).caTrain = true →
    Runs (.caRetrainDone t c true dt) s [.mem, .expo, .restore, .ctxs, .dram, .flint, .qtz, .lat, .heads, .dw, .out] fun e =>
      (e.chan t.val c.val).caTrain = false ∧
      (s.dev.expo.held = [] → (e.chan t.val c.val).state = (s.dev.chan t.val c.val).state)) ∧
  (∀ s (t : Fin 8) (c : Fin 4) dt, (s.dev.chan t.val c.val).caTrain = true →
    Runs (.caRetrainDone t c false dt) s [.mem, .expo, .restore, .ctxs, .dram, .flint, .qtz, .lat, .heads, .dw, .out] fun e =>
      (e.chan t.val c.val).state = 3 ∧ e.flint = (s.dev.raise (tsrc t.val (4 * c.val)) 0x40 3).flint) ∧
  (∀ s (t : Fin 8) (c : Fin 4) dt, s.dev.expo.held = [] → Runs (.tokenRefill t c dt) s [.mem, .expo, .restore, .ctxs, .dram, .flint, .qtz, .lat, .heads, .dw, .out] fun e =>
      e.chan t.val c.val = { s.dev.chan t.val c.val with
        tokens := min (s.dev.chan t.val c.val).tokens 64 + s.dev.capLines (s.dev.chan t.val c.val).cap,
        hostTokens := min (s.dev.chan t.val c.val).hostTokens 64 + s.dev.peakLines / 8 }) ∧
  (∀ s (t : Fin 8) (c : Fin 4) (codes : List (Fin 3)) dt (r : Fin 4) k, (s.dev.tile t.val).isolated = false → codes[r.val]? = some k → k ≠ 0 →
    Runs (.mr4Poll t c codes dt) s [.dram, .qtz, .dw] fun e =>
      (e.rank t.val (rankEntry r.val c.val)).trefi2 = true ∧ (e.chan t.val c.val).refx2 = true) ∧
  (∀ s (t : Fin 8) (c : Fin 4) (bank : Fin 128) (postpone : Bool) dt, (s.dev.chan t.val c.val).state = 1 →
    (s.dev.rank t.val (rankEntry (bank.val / 32) c.val)).refNext = bank.val % 32 →
    Runs (.refreshDue t c bank postpone dt) s [.dram, .qtz] fun e =>
      (e.rank t.val (rankEntry (bank.val / 32) c.val)).refNext = (bank.val % 32 + 1) % 32 ∧
      ((e.chan t.val c.val).postponed = (s.dev.chan t.val c.val).postponed ∨
        (postpone = true ∧ (e.chan t.val c.val).postponed = (s.dev.chan t.val c.val).postponed ++ [bank.val]))) ∧
  (∀ s (t : Fin 8) (c : Fin 4) (bank : Fin 128) dt, (s.dev.chan t.val c.val).state = 1 →
    (s.dev.rank t.val (rankEntry (bank.val / 32) c.val)).refNext ≠ bank.val % 32 →
    Runs (.refreshDue t c bank false dt) s [.dram, .qtz] fun e =>
      (e.chan t.val c.val).postponed = (s.dev.chan t.val c.val).postponed.erase bank.val) ∧
  (∀ s (t : Fin 8) (c : Fin 4) dt, (s.dev.chan t.val c.val).state = 1 → s.dev.sealing.active = false → (s.dev.chan t.val c.val).switchTo = none →
    Runs (.gatherWindowOpen t c dt) s [.dram, .qtz, .dw] fun e => (e.chan t.val c.val).gather = true) ∧
  (∀ s (t : Fin 8) (c : Fin 4) (drifts : List (Fin 4)) dt, (s.dev.chan t.val c.val).gather = true → (s.dev.chan t.val c.val).switchPend = false →
    Runs (.gatherWindowClose t c drifts dt) s [.dram, .flint, .qtz, .dw] fun e =>
      (e.chan t.val c.val).gather = false ∧ ∀ r ∈ drifts, (e.chan t.val c.val).partial_.contains r.val = true) ∧
  (∀ s (t : Fin 8) (c r : Fin 4) dt, (s.dev.chan t.val c.val).switchTo = none →
    Runs (.partialTrainingDone t c r dt) s [.mem, .expo, .restore, .ctxs, .dram, .flint, .qtz, .lat, .heads, .dw, .out] fun e => (e.chan t.val c.val).partial_.contains r.val = false) ∧
  (∀ s (t : Fin 8) (c r : Fin 4) dt w, (s.dev.chan t.val c.val).switchTo = some w → (s.dev.chan t.val c.val).switchPend = true →
    (s.dev.chan t.val c.val).partial_ = [r.val] →
    Runs (.partialTrainingDone t c r dt) s [.mem, .expo, .restore, .ctxs, .dram, .flint, .qtz, .lat, .heads, .dw, .out] fun e =>
      (e.chan t.val c.val).fsp = w ∧ (w = s.dev.fspWant t.val → (e.chan t.val c.val).switchTo = none)) ∧
  (∀ s (t : Fin 8) (c : Fin 4) dt w, (s.dev.chan t.val c.val).switchTo = some w → (s.dev.chan t.val c.val).partial_ = [] →
    Runs (.fspSwitchDone t c dt) s [.mem, .expo, .restore, .ctxs, .dram, .flint, .qtz, .lat, .heads, .dw, .out] fun e =>
      (e.chan t.val c.val).fsp = w ∧ (w = s.dev.fspWant t.val → (e.chan t.val c.val).switchTo = none)) ∧
  (∀ s (t : Fin 8) (c : Fin 4) dt, (s.dev.chan t.val c.val).state = 1 → s.dev.dram.cfg.idleSr ≠ 0 →
    s.dev.dram.cfg.idleSr * 1000 ≤ (s.dev.elapse dt).since (s.dev.chan t.val c.val).lastReq → (s.dev.chan t.val c.val).gather = false →
    (s.dev.chan t.val c.val).partial_ = [] → (s.dev.chan t.val c.val).switchTo = none → s.dev.chanBusy t.val c.val = false → s.dev.expo.held = [] →
    Runs (.selfRefreshEntry t c false dt) s [.dram, .qtz, .dw] fun e => (e.chan t.val c.val).state = 2) ∧
  (∀ s dt, (s.dev.elapse dt).tickDue 7 100000000 = true → Runs (.dramChStatusUpdate dt) s [.pkg, .qtz, .dw] fun e =>
      e.dram = s.dev.dram ∧ bits (e.dwGet 0x800 0) 0 2 = (s.dev.chan 0 0).state % 4)

/-- LINE_REPAIR_COMPLETE ends the repair of a page whether or not its record can be read, and leaves no uncorrectable line of it. PATROL_SCRUB
of a line without error writes no byte of DRAM and makes no page dirty. STEER_RECORD_PROGRAMMED puts every pending entry of the tile in
force. SWEEP_BLOCK_COPIED without error advances the sweep of a MIGRATE or DUAL entry by one block, and an error of a return puts STEERED
with SWEEP 0 and REASON 001b in its record. HPPR_DONE that repairs every row sets PPR_DONE and starts the pattern test; PATTERN_TEST_DONE
that finds an uncorrectable line or more than 16 corrected events sets REASON 101b, and one that passes on a rank with no marked device left
sets TEST_PASS. (R223, R225, R226, R246, R247, R248, R249, R250, R251) -/
def Obligations.DramRepairAndSteeringRows : Prop :=
  (∀ s p (recBad : Bool) dt, s.dev.dram.repairs.contains p = true → s.dev.expo.held = [] →
    Runs (.lineRepairComplete p recBad dt) s [.mem, .expo, .restore, .ctxs, .dram, .flint, .qtz, .lat, .heads, .dw, .out] fun e =>
      e.dram.repairs.contains p = false ∧ (∀ l ∈ e.expo.ueLines, linePage l ≠ p)) ∧
  (∀ s line (lost : Bool) dt, (s.dev.tile (s.dev.lineLoc line).t).isolated = false → 4 ≤ s.dev.restore.phase →
    (∀ p ∈ s.dev.lineRanks line false, (s.dev.chan (s.dev.lineLoc line).t (p % 4)).state = 1) →
    Runs (.patrolScrub line [] false lost dt) s [.mem, .expo, .restore, .flash, .ctxs, .dram, .flint, .qtz, .lat, .heads, .slate, .dw] fun e =>
      e.dram.scrubAt = line ∧ e.mem = s.dev.mem ∧ e.expo = s.dev.expo) ∧
  (∀ s (t : Fin 8) dt (x : SteerPend), s.dev.dram.steerPend = [x] → x.tile = t.val → x.new.state ≠ 4 →
    (∀ k ∈ List.range 16, k ≠ x.entry → (s.dev.steer t.val k).state ≠ 4) →
    Runs (.steerRecordProgrammed t dt) s [.dram, .qtz, .slate, .dw] fun e =>
      e.steer t.val x.entry = x.new ∧ e.dram.steerPend = [] ∧ tget e.dram.slateSteer {} (t.val * 16 + x.entry) = { x.new with sweep := 0 }) ∧
  (∀ s (t : Fin 8) (e : Fin 16) dt, s.dev.dram.steerPend = [] → s.dev.rankMay t.val = true → (s.dev.steer t.val e.val).state = 1 →
    (s.dev.steer t.val e.val).sweep + 1 < s.dev.rankBytes / 2097152 →
    Runs (.sweepBlockCopied t e [] false dt) s [.mem, .expo, .restore, .flash, .ctxs, .dram, .flint, .qtz, .lat, .heads, .slate, .dw] fun d =>
      d.steer t.val e.val = { s.dev.steer t.val e.val with sweep := (s.dev.steer t.val e.val).sweep + 1 } ∧ d.dram.steerPend = []) ∧
  (∀ s (t : Fin 8) (e : Fin 16) dt, s.dev.dram.steerPend = [] → s.dev.rankMay t.val = true → (s.dev.steer t.val e.val).state = 1 →
    s.dev.rankBytes / 2097152 ≤ (s.dev.steer t.val e.val).sweep + 1 → s.dev.migSource t.val e.val = e.val →
    Runs (.sweepBlockCopied t e [] false dt) s [.mem, .expo, .restore, .flash, .ctxs, .dram, .flint, .qtz, .lat, .heads, .slate, .dw] fun d => (d.steerNext t.val e.val).state = 2) ∧
  (∀ s (t : Fin 8) (e : Fin 16) dt, s.dev.dram.steerPend = [] → s.dev.rankMay t.val = true → (s.dev.steer t.val e.val).state = 3 →
    Runs (.sweepBlockCopied t e [] true dt) s [.mem, .expo, .restore, .flash, .ctxs, .dram, .flint, .qtz, .lat, .heads, .slate, .dw] fun d =>
      (d.steerNext t.val e.val).state = 2 ∧ (d.steerNext t.val e.val).sweep = 0 ∧ (d.steerNext t.val e.val).testPass = false ∧
      (d.steerNext t.val e.val).reason = 1) ∧
  (∀ s (t : Fin 8) (e : Fin 16) dt, (s.dev.rank t.val e.val).pprRun = true → s.dev.rankMay t.val = true →
    Runs (.hpprDone t e true dt) s [.dram, .flint, .qtz, .dw] fun d =>
      (d.steer t.val e.val).pprDone = true ∧ (d.rank t.val e.val).testRun = true ∧ (d.rank t.val e.val).pprRun = false) ∧
  (∀ s (t : Fin 8) (e : Fin 16) dt, (s.dev.rank t.val e.val).pprRun = true → s.dev.rankMay t.val = true →
    Runs (.hpprDone t e false dt) s [.dram, .flint, .qtz, .dw] fun d =>
      (d.rank t.val e.val).pprRun = false ∧ d.flint = (s.dev.raise (tsrc t.val (4 * (e.val % 4) + 3)) 0x84 2).flint) ∧
  (∀ s (t : Fin 8) (e : Fin 16) ues ces (clean0 clean1 : Bool) dt, s.dev.rankMay t.val = true → (s.dev.steer t.val e.val).state = 2 →
    (s.dev.rank t.val e.val).testRun = true → (ues ≠ 0 ∨ 16 < ces) →
    Runs (.patternTestDone t e ues ces clean0 clean1 dt) s [.dram, .flint, .qtz, .slate, .dw] fun d =>
      (d.steer t.val e.val).reason = 5 ∧ (d.steer t.val e.val).state = 2 ∧ (d.rank t.val e.val).testRun = false) ∧
  (∀ s (t : Fin 8) (e : Fin 16) ces (clean0 clean1 : Bool) dt, s.dev.rankMay t.val = true → (s.dev.steer t.val e.val).state = 2 →
    (s.dev.rank t.val e.val).testRun = true → ces ≤ 16 → (s.dev.steer t.val e.val).mark0 = 15 → (s.dev.steer t.val e.val).mark1 = 15 →
    Runs (.patternTestDone t e 0 ces clean0 clean1 dt) s [.dram, .flint, .qtz, .slate, .dw] fun d => (d.steer t.val e.val).testPass = true) ∧
  (∀ s (t : Fin 8) (e : Fin 16) ues ces (clean0 clean1 : Bool) dt, s.dev.rankMay t.val = true → (s.dev.steer t.val e.val).state = 5 →
    (ues ≠ 0 ∨ 16 < ces) →
    Runs (.patternTestDone t e ues ces clean0 clean1 dt) s [.dram, .flint, .qtz, .slate, .dw] fun d => (d.steerNext t.val e.val).state = 7)

/-- GAUGE_SAMPLE takes the codes of the three sources at one sample count, adds each current code less its offset to its 48-bit accumulator, and
shows them in DW_GAUGE_VI and DW_GAUGE_TH; in a seal it takes V x I x 1 ms from the bridge's energy. OFFSET_CALIBRATION keeps the mean code
of a bay that has been in OFF or IDLE with the input good for 70 s. ESTIMATOR_RECOMPUTE, when its 100 ms period is over, recomputes outside
a seal the bridge's energy and uncertainty and those of every estimated pack, and moves a view by at most one step; in a seal it leaves
every source alone. QUALIFIED_REST_END, once a rest has lasted 20 min, sets s from the open-circuit voltage and resets its uncertainty.
DCIR_MEASUREMENT moves DCIR_25 a quarter of the way. BRIDGE_CHARGE_MEASURED moves C within 50 % and 150 % of nominal and ESR a quarter of
the way. PACK_FIRST_ESTIMATE counts the pack with the defaults, or raises fault 0Ah where the voltage lies outside the table. Fixed-point
units are the model's (log entry 80). (R257, R259, R261, R262, R263, R264, R265, R266, R267, R280, R285) -/
def Obligations.GaugeAndEstimatorRows : Prop :=
  (∀ s (a b c : Nat × Int × Nat × Nat) (cv : BitVec 2) dt,
    Runs (.gaugeSample [a, b, c] cv dt) s [.expo, .sealing, .energy, .flint, .qtz, .mirror, .dw] fun e =>
      e.energy.sample = (s.dev.energy.sample + 1) % 65536 ∧
      (∀ x ∈ ([(0, a), (1, b), (2, c)] : List (Nat × Nat × Int × Nat × Nat)), (e.src x.1).vCode = x.2.1 % 262144 ∧ (e.src x.1).iCode = signed 18 (twos 18 x.2.2.1) ∧
        (e.src x.1).th1 = x.2.2.2.1 % 262144 ∧ (e.src x.1).th2 = x.2.2.2.2 % 262144 ∧
        (e.src x.1).acc = signed 48 (twos 48 ((s.dev.src x.1).acc + (signed 18 (twos 18 x.2.2.1) - (s.dev.src x.1).off))) ∧
        bits (e.dwGet (0xE40 + 16 * x.1) 0) 0 18 = x.2.1 % 262144 ∧
        bits (e.dwGet (0xE40 + 16 * x.1) 0) 36 16 = e.energy.sample ∧ bits (e.dwGet (0xE48 + 16 * x.1) 0) 36 16 = e.energy.sample)) ∧
  (∀ s (a b c : Nat × Int × Nat × Nat) (cv : BitVec 2) dt, s.dev.sealing.active = true → s.dev.energy.brShunt ≠ 0 →
    Runs (.gaugeSample [a, b, c] cv dt) s [.expo, .sealing, .energy, .flint, .qtz, .mirror, .dw] fun e =>
      (e.src 2).eMj = (((s.dev.src 2).eMj : Int) - ((c.1 % 262144 : Nat) : Int) * (signed 18 (twos 18 c.2.1) - (s.dev.src 2).off) * 625 /
        ((s.dev.energy.brShunt : Int) * 10000000)).toNat) ∧
  (∀ s (b : Fin 2) (mean : Int) (t0 : Nat) dt, (s.dev.bay b.val).path ≤ 1 → s.dev.panel.pwrFailN = true → s.dev.panel.vinOk = true →
    (s.dev.bay b.val).calFrom = some t0 → 70000000000 ≤ (s.dev.elapse dt).since t0 →
    Runs (.offsetCalibration b mean dt) s [.energy, .qtz] fun e =>
      (e.src b.val).off = mean ∧ (e.src b.val).acc = (s.dev.src b.val).acc ∧ e.energy.pack = s.dev.energy.pack ∧ e.energy.recDirty = true) ∧
  (∀ s dt, (s.dev.elapse dt).tickDue 9 100000000 = true → s.dev.sealing.active = false → s.dev.bridgeCounted = true →
    Runs (.estimatorRecompute dt) s [.pkg, .expo, .energy, .qtz, .dw] fun e =>
      (e.src 2).eMj = s.dev.energy.brC * (s.dev.srcMv 2 * s.dev.srcMv 2 -
        (12000 + s.dev.energy.brEsr * s.dev.sealMw / 12000000) * (12000 + s.dev.energy.brEsr * s.dev.sealMw / 12000000)) / 2000000 ∧
      (e.src 2).uMj = (e.src 2).eMj / 100 + 40000 ∧ (e.src 2).tEst = (s.dev.elapse dt).now) ∧
  (∀ s (b : Fin 2) dt, (s.dev.elapse dt).tickDue 9 100000000 = true → s.dev.sealing.active = false → s.dev.estimated b.val = true →
    Runs (.estimatorRecompute dt) s [.pkg, .expo, .energy, .qtz, .dw] fun e =>
      (e.src b.val).eMj = s.dev.packMj b.val (s.dev.bay b.val).soc ∧ (e.src b.val).eFullMj = s.dev.packMj b.val 10000 ∧
      (e.src b.val).uMj = ((e.bay b.val).sigCap * (e.src b.val).eMj + e.sigSocNow b.val * (e.src b.val).eFullMj) / 10000 ∧
      (e.bay b.val).viewSoc ≤ (s.dev.bay b.val).viewSoc + 1 ∧ (s.dev.bay b.val).viewSoc ≤ (e.bay b.val).viewSoc + 1 ∧
      ((s.dev.bay b.val).fault ≠ 0 → (e.bay b.val).viewSoc = (s.dev.bay b.val).viewSoc)) ∧
  (∀ s dt, s.dev.sealing.active = true → Runs (.estimatorRecompute dt) s [.pkg, .expo, .energy, .qtz, .dw] fun e => e.energy.src = s.dev.energy.src) ∧
  (∀ s (b : Fin 2) (vOc t0 : Nat) dt, s.dev.estimated b.val = true →
    (s.dev.bay b.val).restFrom = some t0 → 1200000000000 ≤ (s.dev.elapse dt).since t0 →
    Runs (.qualifiedRestEnd b vOc dt) s [.energy, .flint, .qtz, .dw] fun e =>
      (e.bay b.val).soc = s.dev.ocvInv b.val vOc (s.dev.packLo b.val) ∧ (e.bay b.val).sigSoc = 50 ∧ (e.bay b.val).sigFine = 0 ∧
      (e.bay b.val).tRest = (s.dev.elapse dt).now ∧ (e.bay b.val).noRestMin = 0 ∧ (e.bay b.val).resting = false ∧
      ((s.dev.bay b.val).resting = true → e.energy.restCap = false)) ∧
  (∀ s (b : Fin 2) (dv di : Nat) dt, 1000000 ≤ di → s.dev.estimated b.val = true →
    Runs (.dcirMeasurement b dv di dt) s [.expo, .energy, .flint, .qtz, .dw] fun e =>
      (s.dev.rTab b.val (s.dev.bay b.val).soc (s.dev.packLo b.val) ≠ 0 →
        (e.bay b.val).dcir = (((s.dev.bay b.val).dcir : Int) +
          (((dv * 1000000 / di * s.dev.rTab b.val 5000 400 / s.dev.rTab b.val (s.dev.bay b.val).soc (s.dev.packLo b.val) : Nat) : Int) -
            ((s.dev.bay b.val).dcir : Int)) / 4).toNat) ∧
      (s.dev.rTab b.val (s.dev.bay b.val).soc (s.dev.packLo b.val) = 0 → e.energy = s.dev.energy)) ∧
  (∀ s (v0 v1 q esr cn : Nat) dt, s.dev.energy.brCnom = some cn → v0 ≤ 20000 → 23500 ≤ v1 →
    Runs (.bridgeChargeMeasured v0 v1 q esr true dt) s [.expo, .energy, .flint, .qtz] fun e =>
      e.energy.brC = (min ((cn * 3 / 2 : Nat) : Int) (max ((cn / 2 : Nat) : Int)
        ((s.dev.energy.brC : Int) + (((q * 1000 / (v1 - v0) : Nat) : Int) - (s.dev.energy.brC : Int)) / 4))).toNat ∧
      e.energy.brEsr = ((s.dev.energy.brEsr : Int) + ((esr : Int) - (s.dev.energy.brEsr : Int)) / 4).toNat ∧
      e.energy.brTLearn = (s.dev.elapse dt).now) ∧
  (∀ s (b : Fin 2) (mv : Nat) dt, (s.dev.bay b.val).state = 1 → (s.dev.bay b.val).latch = true → (s.dev.bay b.val).nameplate.isSome = true →
    (s.dev.bay b.val).fault = 0 → (s.dev.bay b.val).resumed = false → s.dev.sealing.active = false →
    Runs (.packFirstEstimate b mv dt) s [.expo, .energy, .flint, .qtz, .slate, .dw] fun e =>
      if mv < s.dev.ocv b.val 0 (s.dev.packLo b.val) ∨ s.dev.ocv b.val 10000 (s.dev.packLo b.val) < mv then
        (e.bay b.val).state = 5 ∧ (e.bay b.val).fault = 0xA ∧ (e.bay b.val).counted = false
      else
        (e.bay b.val).state = 2 ∧ (e.bay b.val).counted = true ∧ (e.bay b.val).soc = s.dev.ocvInv b.val mv (s.dev.packLo b.val) ∧
        (e.bay b.val).sigSoc = 500 ∧ (e.bay b.val).viewSoc = 6 * (e.bay b.val).soc ∧ (e.src b.val).tEst ≠ 0) ∧
  (∀ s (b : Fin 2) (mv : Nat) dt, (s.dev.bay b.val).state = 1 → (s.dev.bay b.val).latch = true → (s.dev.bay b.val).nameplate.isSome = true →
    (s.dev.bay b.val).fault = 0 → (s.dev.bay b.val).resumed = true → s.dev.sealing.active = false →
    Runs (.packFirstEstimate b mv dt) s [.expo, .energy, .flint, .qtz, .slate, .dw] fun e =>
      (e.bay b.val).state = 2 ∧ (e.bay b.val).counted = true ∧ (e.bay b.val).soc = (s.dev.bay b.val).soc ∧
      (e.bay b.val).sigSoc = (s.dev.bay b.val).sigSoc)

/-- CHARGE_TIMEOUT of a charge of 6 h puts the bay in FAULT with code 09h, uncounted. A due CAPACITY_TEST_DUE starts the test where the
conditions hold and else tries again 1 h later. CAPACITY_TEST_STEP goes from preparing to discharging, from discharging at 30 % to the end
rest with the charge measured, and to the result: an FCC between 50 % and 110 % of nameplate replaces FCC, another counts as a
disqualification. PACK_FAULT_CLEARED after 60 s takes the fault away and passes the bay to INSERTED. GAUGE_RECORD_WRITE writes both records
where the pre-check passes and else stays due. SLOT_ASSIST_UPDATE gives the able bays equal shares of the excess, each up to ASSIST_MAX, and
none without an excess or with ASSIST_EN 0. FORCED_REST_DUE rests one pack at a time, the longer wait first and bay A on a tie. (R269, R270,
R271, R273, R274, R275, R276, R277, R278, R279, R285, R287) -/
def Obligations.CapacityFaultAssistRows : Prop :=
  (∀ s (b : Fin 2) dt, (s.dev.bay b.val).charging = true → (s.dev.bay b.val).latch = true → (s.dev.bay b.val).fault = 0 →
    (s.dev.bay b.val).state ≠ 4 → s.dev.sealing.active = false → 21600000000000 ≤ (s.dev.elapse dt).since (s.dev.bay b.val).chargeAt →
    Runs (.chargeTimeout b dt) s [.expo, .energy, .flint, .qtz, .dw] fun e =>
      (e.bay b.val).state = 5 ∧ (e.bay b.val).fault = 9 ∧ (e.bay b.val).counted = false ∧ (e.bay b.val).charging = false ∧
      e.expo.gov.triggers.contains 2 = true) ∧
  (∀ s (b : Fin 2) dt, (s.dev.bay b.val).learnInt ≠ 0 → (s.dev.bay b.val).test = 0 → (s.dev.bay b.val).counted = true →
    (s.dev.bay b.val).tNextLearn ≤ (s.dev.elapse dt).now →
    Runs (.capacityTestDue b dt) s [.energy, .qtz, .dw] fun e =>
      if (s.dev.elapse dt).testMayStart b.val = true then (e.bay b.val).test = 1 ∧ (e.bay b.val).testIntr = 0
      else (e.bay b.val).test = 0 ∧ (e.bay b.val).tNextLearn = (s.dev.elapse dt).now + 3600000000000) ∧
  (∀ s (b : Fin 2) dt, (s.dev.bay b.val).test = 1 → (s.dev.bay b.val).testSa.isSome = true →
    Runs (.capacityTestStep b dt) s [.expo, .energy, .flint, .qtz, .slate, .dw] fun e =>
      (e.bay b.val).test = 2 ∧ (e.bay b.val).testQ0 = (s.dev.src b.val).acc ∧ (e.bay b.val).charging = false) ∧
  (∀ s (b : Fin 2) dt, (s.dev.bay b.val).test = 2 → (s.dev.bay b.val).soc ≤ 3000 → (s.dev.bay b.val).intrAt = none →
    Runs (.capacityTestStep b dt) s [.expo, .energy, .flint, .qtz, .slate, .dw] fun e =>
      (e.bay b.val).test = 3 ∧ (e.bay b.val).testQ = signed 48 (twos 48 ((s.dev.src b.val).acc - (s.dev.bay b.val).testQ0))) ∧
  (∀ s (b : Fin 2) (np sa sb meas : Nat) dt, (s.dev.bay b.val).test = 3 → (s.dev.bay b.val).testSa = some sa → (s.dev.bay b.val).testSb = some sb →
    (s.dev.bay b.val).nameplate = some np → (s.dev.bay b.val).rShunt * (sa - sb) ≠ 0 →
    meas = (s.dev.bay b.val).testQ.toNat * 6250 / (3600 * (s.dev.bay b.val).rShunt * (sa - sb)) → meas ≠ 0 →
    np ≤ 2 * meas → 10 * meas ≤ 11 * np →
    Runs (.capacityTestStep b dt) s [.expo, .energy, .flint, .qtz, .slate, .dw] fun e =>
      (e.bay b.val).test = 0 ∧ (e.bay b.val).fccMah = meas ∧ (e.bay b.val).sigCap = 50 ∧ (e.bay b.val).learned = true ∧
      (e.bay b.val).tLearn = (s.dev.elapse dt).now ∧ (e.bay b.val).learnFails = 0 ∧
      ((e.bay b.val).worn = true ↔ 100 * meas < 70 * np) ∧ e.energy.recDue = true) ∧
  (∀ s (b : Fin 2) (np sa sb meas : Nat) dt, (s.dev.bay b.val).test = 3 → (s.dev.bay b.val).testSa = some sa → (s.dev.bay b.val).testSb = some sb →
    (s.dev.bay b.val).nameplate = some np → (s.dev.bay b.val).rShunt * (sa - sb) ≠ 0 →
    meas = (s.dev.bay b.val).testQ.toNat * 6250 / (3600 * (s.dev.bay b.val).rShunt * (sa - sb)) → (2 * meas < np ∨ 11 * np < 10 * meas) →
    np ≤ 2 * (s.dev.bay b.val).fccMah →
    Runs (.capacityTestStep b dt) s [.expo, .energy, .flint, .qtz, .slate, .dw] fun e =>
      (e.bay b.val).test = 0 ∧ (e.bay b.val).fccMah = (s.dev.bay b.val).fccMah ∧ (e.bay b.val).learnFails = (s.dev.bay b.val).learnFails + 1 ∧
      (e.bay b.val).tNextLearn = (s.dev.elapse dt).now +
        (if ((s.dev.bay b.val).learnFails + 1) % 3 = 0 then (s.dev.bay b.val).learnInt * 86400000000000 else 86400000000000)) ∧
  (∀ s (b : Fin 2) dt, 1 ≤ (s.dev.bay b.val).fault → (s.dev.bay b.val).fault ≤ 6 → (s.dev.bay b.val).state = 5 →
    60000000000 ≤ (s.dev.elapse dt).since (s.dev.bay b.val).faultSince →
    Runs (.packFaultCleared b dt) s [.expo, .energy, .flint, .qtz, .dw] fun e =>
      (e.bay b.val).fault = 0 ∧ (e.bay b.val).state = 1 ∧ ((s.dev.bay b.val).counted = false → e.estimated b.val = false)) ∧
  (∀ s dt, (s.dev.energy.recDue = true ∨ 21600000000000 ≤ (s.dev.elapse dt).since s.dev.energy.recAt) →
    Runs (.gaugeRecordWrite dt) s [.energy, .qtz, .slate, .freeN] fun e =>
      if (s.dev.elapse dt).gaugePreCheck = true then
        e.energy.rec_.rseqL = s.dev.energy.rec_.rseqL + 1 ∧ e.energy.rec_.rseqS = s.dev.energy.rec_.rseqS + 1 ∧
        e.energy.rec_.tWrite = (s.dev.elapse dt).now ∧ e.energy.rec_.stage5 = false ∧ e.energy.recDue = false ∧ e.energy.recDirty = false ∧
        e.energy.rec_.bytesL = s.dev.bayBlock 0 ++ s.dev.bayBlock 1 ++
          [s.dev.energy.brC, s.dev.energy.brEsr, s.dev.energy.brTLearn, s.dev.expo.kSeal, s.dev.expo.landRef, s.dev.expo.eFixed / 1000]
      else e.energy.rec_ = s.dev.energy.rec_ ∧ e.energy.recDue = true) ∧
  (∀ s (drawMw : Nat) dt, s.dev.energy.assistEn = true → s.dev.holdup = false → s.dev.pkg.safe = 0 →
    Runs (.slotAssistUpdate drawMw dt) s [.energy, .flint, .qtz, .dw] fun e =>
      e.energy.drawMw = drawMw ∧ (drawMw ≤ s.dev.energy.pSlot * 1000 → e.energy.assistSet = []) ∧
      (s.dev.energy.pSlot * 1000 < drawMw → e.energy.assistSet.map (fun x : Nat × Nat => x.1) = [0, 1].filter s.dev.able) ∧
      (∀ x ∈ e.energy.assistSet, x.2 = min (s.dev.energy.assistMax * 1000)
        ((drawMw - s.dev.energy.pSlot * 1000) / e.energy.assistSet.length))) ∧
  (∀ s (drawMw : Nat) dt, (s.dev.energy.assistEn = false ∨ s.dev.holdup = true ∨ s.dev.pkg.safe ≠ 0) →
    Runs (.slotAssistUpdate drawMw dt) s [.energy, .flint, .qtz, .dw] fun e => e.energy.drawMw = drawMw ∧ e.energy.assistSet = []) ∧
  (∀ s dt, s.dev.estimated 0 = true → 4320 ≤ (s.dev.bay 0).noRestMin → (s.dev.bay 0).state = 2 → (s.dev.bay 1).noRestMin ≤ (s.dev.bay 0).noRestMin →
    (s.dev.bay 0).resting = false → (s.dev.bay 1).resting = false → s.dev.expo.gov.pkgState ≠ 4 → s.dev.sealing.active = false → s.dev.pkg.safe = 0 →
    s.dev.energy.restRetry ≤ (s.dev.elapse dt).now →
    Runs (.forcedRestDue dt) s [.energy, .flint, .qtz, .dw] fun e =>
      (e.bay 0).restDue = true ∧ (e.bay 0).resting = true ∧ (e.bay 0).charging = false ∧ (e.bay 1).resting = false ∧
      tget e.energy.assistSet 0 0 = 0) ∧
  (∀ s dt, (s.dev.bay 0).resting = true → (s.dev.bay 1).resting = false →
    Runs (.forcedRestDue dt) s [.energy, .flint, .qtz, .dw] fun e => (e.bay 0).resting = true ∧ (e.bay 1).resting = false)

/-- BAY_TOUCH sets TOUCH and starts a recomputation; BAY_TOUCH_END clears it; TOUCH_STUCK after 10 min clears it, takes the present count as
baseline and ignores the electrode. BAY_RELEASE_PRESS: letting go clears BUTTON; a press of an EMPTY bay does nothing but show BUTTON; a
press under HOLD, in a seal or while INSERTED is refused for 3 s with the bay as it was; in FAULT it is granted at once; in WAITING it
returns the bay to READY; in READY it is granted at once with package exposure zero, and else granted or WAITING from now. BAY_LATCH_OPEN
makes the bay EMPTY, uncounted and of no energy, and counts the opening; without a grant it triggers the governor as a surprise removal;
with the core off it only counts. BAY_LATCH_CLOSE inserts. WAITING_TIMEOUT after 120 s returns the bay to READY; GRANT_LAPSE after 60 s
locks it again, INSERTED or FAULT; REFUSED_PRESS_INDICATION_END ends the indication. (R267, R271, R276, R280, R281, R282, R283, R284, R500) -/
def Obligations.BayRows : Prop :=
  (∀ s (b : Fin 2) dt, s.dev.sealing.active = false → s.dev.panel.coreUp = true → s.dev.panel.touchStuck.contains b.val = false →
    (s.dev.bay b.val).touch = false →
    Runs (.bayTouch b dt) s [.expo, .energy, .flint, .qtz, .panel, .dw] fun e =>
      (e.bay b.val).touch = true ∧ (e.bay b.val).state = (s.dev.bay b.val).state ∧ e.expo.gov.triggers.contains 8 = true ∧
      e.expo.gov.preDrain = e.preDrainTarget ∧ tget e.panel.touchAt 0 b.val = (s.dev.elapse dt).now) ∧
  (∀ s (b : Fin 2) dt, (s.dev.bay b.val).touch = true →
    Runs (.bayTouchEnd b dt) s [.expo, .energy, .qtz, .panel, .dw] fun e =>
      (e.bay b.val).touch = false ∧ (e.bay b.val).state = (s.dev.bay b.val).state ∧ e.panel.touchStuck.contains b.val = false ∧
      e.expo.gov.preDrain = e.preDrainTarget) ∧
  (∀ s (b : Fin 2) (count t : Nat) dt, (s.dev.bay b.val).touch = true → tget (s.dev.panel.touchAt.map fun x => (x.1, some x.2)) none b.val = some t →
    600000000000 ≤ (s.dev.elapse dt).since t →
    Runs (.touchStuck b count dt) s [.expo, .energy, .flint, .qtz, .panel, .dw] fun e =>
      (e.bay b.val).touch = false ∧ e.panel.touchStuck.contains b.val = true ∧ tget e.panel.touchBase 0 b.val = count) ∧
  (∀ s (b : Fin 2) dt, s.dev.panel.coreUp = true →
    Runs (.bayReleasePress b false dt) s [.expo, .energy, .flint, .qtz, .dw] fun e =>
      (e.bay b.val).button = false ∧ (e.bay b.val).state = (s.dev.bay b.val).state) ∧
  (∀ s (b : Fin 2) dt, s.dev.panel.coreUp = true → (s.dev.bay b.val).state = 0 →
    Runs (.bayReleasePress b true dt) s [.expo, .energy, .flint, .qtz, .dw] fun e =>
      (e.bay b.val).button = true ∧ (e.bay b.val).state = 0 ∧ e.flint = s.dev.flint) ∧
  (∀ s (b : Fin 2) dt, s.dev.panel.coreUp = true → (s.dev.bay b.val).state ≠ 0 →
    (s.dev.realSeal = true ∨ (s.dev.bay b.val).hold = true ∨ (s.dev.bay b.val).state = 1) →
    Runs (.bayReleasePress b true dt) s [.expo, .energy, .flint, .qtz, .dw] fun e =>
      (e.bay b.val).state = (s.dev.bay b.val).state ∧ (e.bay b.val).refusedUntil = some ((s.dev.elapse dt).now + 3000000000)) ∧
  (∀ s (b : Fin 2) dt, s.dev.panel.coreUp = true → s.dev.realSeal = false → (s.dev.bay b.val).hold = false → (s.dev.bay b.val).state = 5 →
    Runs (.bayReleasePress b true dt) s [.expo, .energy, .flint, .qtz, .dw] fun e =>
      (e.bay b.val).state = 4 ∧ (e.bay b.val).lock = false ∧ (e.bay b.val).counted = false ∧ (e.bay b.val).grantAt = (s.dev.elapse dt).now) ∧
  (∀ s (b : Fin 2) dt, s.dev.panel.coreUp = true → s.dev.realSeal = false → (s.dev.bay b.val).hold = false → (s.dev.bay b.val).state = 3 →
    Runs (.bayReleasePress b true dt) s [.expo, .energy, .flint, .qtz, .dw] fun e =>
      (e.bay b.val).state = 2 ∧ (e.bay b.val).counted = (s.dev.bay b.val).counted) ∧
  (∀ s (b : Fin 2) dt, s.dev.panel.coreUp = true → s.dev.realSeal = false → s.dev.testSealRuns = false → (s.dev.bay b.val).hold = false →
    (s.dev.bay b.val).state = 2 → (s.dev.xPkg = 0 ∨ (s.dev.bay b.val).counted = false) →
    Runs (.bayReleasePress b true dt) s [.expo, .energy, .flint, .qtz, .dw] fun e =>
      (e.bay b.val).state = 4 ∧ (e.bay b.val).lock = false ∧ (e.bay b.val).counted = false ∧ (e.bay b.val).test = 0 ∧
      (e.bay b.val).grantAt = (s.dev.elapse dt).now) ∧
  (∀ s (b : Fin 2) dt, s.dev.panel.coreUp = true → s.dev.realSeal = false → (s.dev.bay b.val).hold = false → (s.dev.bay b.val).state = 2 →
    Runs (.bayReleasePress b true dt) s [.expo, .energy, .flint, .qtz, .dw] fun e =>
      (s.dev.testSealRuns = true → (e.bay b.val).state = 3) ∧
      ((e.bay b.val).state = 4 ∨
        (e.bay b.val).state = 3 ∧ (e.bay b.val).waitSince = (s.dev.elapse dt).now ∧ (e.bay b.val).counted = (s.dev.bay b.val).counted)) ∧
  (∀ s (b : Fin 2) dt, s.dev.panel.coreUp = true →
    Runs (.bayLatchOpen b dt) s [.expo, .energy, .flint, .qtz, .slate, .dw] fun e =>
      (e.bay b.val).state = 0 ∧ (e.bay b.val).latch = false ∧ (e.bay b.val).lock = false ∧ (e.bay b.val).counted = false ∧
      (e.bay b.val).fault = 0 ∧ (e.bay b.val).test = 0 ∧ (e.bay b.val).viewSoc = 0 ∧
      (e.bay b.val).latchOpens = (s.dev.bay b.val).latchOpens + 1 ∧ (e.src b.val).eMj = 0 ∧ (e.src b.val).uMj = 0 ∧
      (((s.dev.bay b.val).state = 2 ∨ (s.dev.bay b.val).state = 3) → e.expo.gov.triggers.contains 3 = true ∧ e.energy.recDue = true)) ∧
  (∀ s (b : Fin 2) dt, s.dev.panel.coreUp = false →
    Runs (.bayLatchOpen b dt) s [.expo, .energy, .flint, .qtz, .slate, .dw] fun e =>
      e.bay b.val = { s.dev.bay b.val with latch := false, latchOpens := (s.dev.bay b.val).latchOpens + 1 }) ∧
  (∀ s (b : Fin 2) dt, s.dev.panel.coreUp = true → (s.dev.bay b.val).state = 0 →
    Runs (.bayLatchClose b dt) s [.energy, .flint, .qtz, .dw] fun e =>
      (e.bay b.val).state = 1 ∧ (e.bay b.val).latch = true ∧ (e.bay b.val).lock = true ∧ (e.bay b.val).counted = (s.dev.bay b.val).counted ∧
      (e.bay b.val).sigSoc = 500 ∧ (e.bay b.val).learned = false ∧ (e.bay b.val).fccMah = (e.bay b.val).nameplate.getD 0 * 9 / 10) ∧
  (∀ s (b : Fin 2) dt, (s.dev.bay b.val).state = 3 → 120000000000 ≤ (s.dev.elapse dt).since (s.dev.bay b.val).waitSince →
    Runs (.waitingTimeout b dt) s [.expo, .energy, .flint, .qtz, .dw] fun e => (e.bay b.val).state = 2 ∧ e.expo.gov.triggers.contains 8 = true) ∧
  (∀ s (b : Fin 2) dt, (s.dev.bay b.val).state = 4 → (s.dev.bay b.val).latch = true → 60000000000 ≤ (s.dev.elapse dt).since (s.dev.bay b.val).grantAt →
    Runs (.grantLapse b dt) s [.expo, .energy, .flint, .qtz, .dw] fun e =>
      (e.bay b.val).state = (if (s.dev.bay b.val).fault = 0 then 1 else 5) ∧ (e.bay b.val).lock = true) ∧
  (∀ s (b : Fin 2) (t : Nat) dt, (s.dev.bay b.val).refusedUntil = some t → t ≤ (s.dev.elapse dt).now →
    Runs (.refusedPressIndicationEnd b dt) s [.energy, .qtz, .dw] fun e =>
      (e.bay b.val).refusedUntil = none ∧ (e.bay b.val).state = (s.dev.bay b.val).state)

/-- THERMAL_SAMPLE takes the code of every sensor at a new sample count, replaces no valid reading by anything but its own code, never lets a
sample alone end a level, and enters a level only after three samples at or above the threshold (stated where no sensor is at its third
sample above shutdown, which starts a seal). THRESHOLD_LEVEL_LEAVE ends a level after 1 s below. THROTTLE_STEP raises a tile that stays hot
for STEP_S by one level, THROTTLE_FALL lowers a cool one after 1 s, and the level in force is the higher of the stepped level and the floor.
FREEZE_END ends the freeze with the intervals started afresh. SENSOR_RECOVER makes a sensor valid after 10 min without a failure condition.
THERMAL_STATUS_UPDATE shows every sensor and level. THERMAL_RECORD_WRITE keeps the records that wait, at most 64. (R291, R292, R294, R295,
R299, R300, R301, R302, R306, R307, R308) -/
def Obligations.ThermalRows : Prop :=
  (∀ s (codes : List (Nat × BitVec 18)) dt, s.dev.panel.coreUp = true → (∀ n ∈ sensors, (s.dev.sens n).runS < 2) →
    Runs (.thermalSample codes dt) s [.mem, .pkg, .expo, .sealing, .restore, .flash, .ctxs, .dram, .energy, .therm, .flint, .qtz, .lat, .heads, .jcs, .slate, .upd, .panel, .dw, .out] fun e =>
      e.therm.sample = s.dev.therm.sample + 1 ∧
      ∀ n ∈ sensors,
        (e.sens n).code = (match codes.find? fun c : Nat × BitVec 18 => c.1 == n with | some c => c.2.toInt | none => (s.dev.sens n).code) ∧
        ((e.sens n).failed = false → n < 0x40 → (e.sens n).temp = (e.sens n).code / 32) ∧
        ((s.dev.sens n).failed = true → (e.sens n).failed = true) ∧
        ((e.sens n).inW = true → (s.dev.sens n).inW = true ∨ 3 ≤ (e.sens n).runW) ∧
        ((e.sens n).inT = true → (s.dev.sens n).inT = true ∨ 3 ≤ (e.sens n).runT) ∧
        ((s.dev.sens n).inT = true → s.dev.thrOf n 1 ≠ 0 → (e.sens n).inT = true)) ∧
  (∀ s (n : Fin 72) (u : Nat) dt, (s.dev.sens n.val).inW = true → (s.dev.sens n.val).belW = some u → 1000000000 ≤ (s.dev.elapse dt).since u →
    Runs (.thresholdLevelLeave n 0 dt) s [.mem, .pkg, .expo, .restore, .ctxs, .dram, .therm, .flint, .qtz, .lat, .heads, .slate, .dw, .out] fun e =>
      (e.sens n.val).inW = false ∧ (e.sens n.val).inT = (s.dev.sens n.val).inT ∧ (e.sens n.val).inS = (s.dev.sens n.val).inS) ∧
  (∀ s (n : Fin 72) (u : Nat) dt, (s.dev.sens n.val).inT = true → (s.dev.sens n.val).belT = some u → 1000000000 ≤ (s.dev.elapse dt).since u →
    Runs (.thresholdLevelLeave n 1 dt) s [.mem, .pkg, .expo, .restore, .ctxs, .dram, .therm, .flint, .qtz, .lat, .heads, .slate, .dw, .out] fun e =>
      (e.sens n.val).inT = false ∧ (e.sens n.val).inW = (s.dev.sens n.val).inW ∧
      ∀ t ∈ tiles8, (e.ttile t).hot = e.isHot t ∧ (e.ttile t).floor = e.floorOf t ∧
        (e.tile t).throttle = max (e.ttile t).step (e.ttile t).floor) ∧
  (∀ s (n : Fin 72) (u : Nat) dt, (s.dev.sens n.val).inS = true → (s.dev.sens n.val).belS = some u → 1000000000 ≤ (s.dev.elapse dt).since u →
    Runs (.thresholdLevelLeave n 2 dt) s [.mem, .pkg, .expo, .restore, .ctxs, .dram, .therm, .flint, .qtz, .lat, .heads, .slate, .dw, .out] fun e =>
      (e.sens n.val).inS = false ∧ (e.sens n.val).inT = (s.dev.sens n.val).inT) ∧
  (∀ s (t : Fin 8) dt, (s.dev.ttile t.val).hot = true → (s.dev.ttile t.val).frozenUntil = none → (s.dev.ttile t.val).step < 3 →
    s.dev.therm.stepS * 1000000000 ≤ (s.dev.elapse dt).since (s.dev.ttile t.val).stepAt →
    Runs (.throttleStep t dt) s [.mem, .pkg, .expo, .restore, .ctxs, .dram, .therm, .flint, .qtz, .lat, .heads, .slate, .dw, .out] fun e =>
      (e.ttile t.val).step = (s.dev.ttile t.val).step + 1 ∧ (e.ttile t.val).stepAt = (s.dev.elapse dt).now ∧
      (e.tile t.val).throttle = max ((s.dev.ttile t.val).step + 1) (s.dev.ttile t.val).floor ∧
      (e.therm.sens = s.dev.therm.sens)) ∧
  (∀ s (t : Fin 8) dt, (s.dev.ttile t.val).hot = false → (s.dev.ttile t.val).frozenUntil = none → 0 < (s.dev.ttile t.val).step →
    1000000000 ≤ (s.dev.elapse dt).since (s.dev.ttile t.val).stepAt →
    Runs (.throttleFall t dt) s [.mem, .pkg, .expo, .restore, .ctxs, .dram, .therm, .flint, .qtz, .lat, .heads, .slate, .dw, .out] fun e =>
      (e.ttile t.val).step = (s.dev.ttile t.val).step - 1 ∧ (e.ttile t.val).stepAt = (s.dev.elapse dt).now ∧
      (e.tile t.val).throttle = max ((s.dev.ttile t.val).step - 1) (s.dev.ttile t.val).floor) ∧
  (∀ s (t : Fin 8) (u : Nat) dt, (s.dev.ttile t.val).frozenUntil = some u → u ≤ (s.dev.elapse dt).now →
    Runs (.freezeEnd t dt) s [.mem, .pkg, .expo, .restore, .ctxs, .dram, .therm, .flint, .qtz, .lat, .heads, .slate, .dw, .out] fun e =>
      (e.ttile t.val).frozenUntil = none ∧ (e.ttile t.val).stepAt = (s.dev.elapse dt).now ∧ (e.ttile t.val).hot = s.dev.isHot t.val ∧
      ((s.dev.ttile t.val).step ≠ 0 → (e.ttile t.val).step = (s.dev.ttile t.val).step)) ∧
  (∀ s (n : Fin 72) dt, (s.dev.sens n.val).failed = true → (s.dev.elapse dt).failCause n.val = 0 →
    600000000000 ≤ (s.dev.elapse dt).since (s.dev.sens n.val).okSince →
    Runs (.sensorRecover n dt) s [.mem, .pkg, .expo, .restore, .ctxs, .dram, .therm, .flint, .qtz, .lat, .heads, .slate, .dw, .out] fun e =>
      (e.sens n.val).failed = false ∧ (e.sens n.val).cause = 0 ∧ (e.sens n.val).temp = (s.dev.sens n.val).code / 32 ∧
      (e.sens n.val).off = (s.dev.sens n.val).off) ∧
  (∀ s dt, (s.dev.elapse dt).tickDue 6 10000000 = true → Runs (.thermalStatusUpdate dt) s [.pkg, .qtz, .dw] fun e =>
      bits (e.dwGet 0xF00 0) 24 16 = s.dev.levels % 65536 ∧ bits (e.dwGet 0xF00 0) 56 8 = (bits (s.dev.dwGet 0xF00 0) 56 8 + 1) % 256 ∧
      (∀ t ∈ tiles8, bits (e.dwGet (0xF40 + 8 * t) 0) 19 2 = (s.dev.tile t).throttle % 4 ∧
        bits (e.dwGet (0xF40 + 8 * t) 0) 21 2 = (s.dev.ttile t).floor % 4) ∧
      ∀ n ∈ sensors, bits (e.dwGet (0x1000 + 8 * n) 0) 0 18 = twos 18 (s.dev.sens n).code ∧
        bits (e.dwGet (0x1000 + 8 * n) 0) 18 16 = twos 16 (s.dev.sens n).temp ∧
        bits (e.dwGet (0x1000 + 8 * n) 0) 34 1 = bit (s.dev.sens n).failed) ∧
  (∀ s dt, (s.dev.elapse dt).recMay = true → s.dev.therm.recPend ≠ [] →
    Runs (.thermalRecordWrite dt) s [.therm, .qtz, .slate] fun e =>
      e.therm.recPend = [] ∧ e.therm.recs.length ≤ 64 ∧ (∀ r ∈ s.dev.therm.recPend.take 64, r.kind ≠ 1 → r ∈ e.therm.recs))

/-- A FLINT_MESSAGE window that admits one message with no shadow open logs it under the collector's next LSEQ. A Note or Corrected message
leaves the first-fault record and the package's state alone, and a Corrected one is counted. A Degraded message takes an empty record, with
no merged message, and pulses TFAULT_N of its tile; it merges into a held one, which keeps its first message. A tile message takes its
tile's record and pulses that tile's line. A consequential message changes no record and starts no safe state. A Contained message of a
source whose unit is the tile isolates the tile. An Urgent message of a package source begins the safe state, and a Fatal one the safe state
that no seal follows. (R314, R315, R318, R322, R323, R325, R326, R327, R330, R331, R332) -/
def Obligations.FlintWindowRows : Prop :=
  (∀ s (m : FlintMsg) (n pk : Nat) dt, (s.dev.coll 8).urgent = [] → (s.dev.coll 8).input = [m] → 1 ≤ n → s.dev.flint.shadows = [] → m.sev ≤ 1 →
    Runs (.flintMessage 8 n pk dt) s [.mem, .pkg, .expo, .sealing, .restore, .strata, .flash, .ctxs, .dram, .energy, .flint, .qtz, .snap, .lat, .heads, .slate, .panel, .dw, .out, .freeN] fun e =>
      (e.coll 8).ff = (s.dev.coll 8).ff ∧ (e.coll 8).nextLseq = (s.dev.coll 8).nextLseq + 1 ∧
      ((e.coll 8).log.head?.map fun x : LogEntry => (x.msg, x.lseq, x.causeSeq)) = some (m.word m.sev, (s.dev.coll 8).nextLseq, 0xFFFFFFFF) ∧
      tget e.flint.ce 0 m.src = (if m.sev = 1 then satInc 32 (tget s.dev.flint.ce 0 m.src) else tget s.dev.flint.ce 0 m.src) ∧
      e.pkg.safe = s.dev.pkg.safe) ∧
  (∀ s (m : FlintMsg) (n pk : Nat) dt, (s.dev.coll 8).urgent = [] → (s.dev.coll 8).input = [m] → 1 ≤ n → s.dev.flint.shadows = [] → m.sev = 2 →
    (s.dev.coll 8).ff.valid = false → 768 ≤ m.src → m.tile < 8 →
    Runs (.flintMessage 8 n pk dt) s [.mem, .pkg, .expo, .sealing, .restore, .strata, .flash, .ctxs, .dram, .energy, .flint, .qtz, .snap, .lat, .heads, .slate, .panel, .dw, .out, .freeN] fun e =>
      (e.coll 8).ff.valid = true ∧ (e.coll 8).ff.msg = m.word 2 ∧ (e.coll 8).ff.tFirst = (s.dev.elapse dt).now ∧ (e.coll 8).ff.count = 0 ∧
      (e.coll 8).ff.maxSev = 2 ∧ (e.coll 8).ff.lseq = (s.dev.coll 8).nextLseq ∧ (e.coll 8).ff.coFirst = false ∧
      mbit e.flint.tfPulse m.tile = true ∧ tget e.flint.sev2 0 m.src = satInc 16 (tget s.dev.flint.sev2 0 m.src) ∧ e.pkg.safe = s.dev.pkg.safe) ∧
  (∀ s (m : FlintMsg) (n pk : Nat) dt, (s.dev.coll 8).urgent = [] → (s.dev.coll 8).input = [m] → 1 ≤ n → s.dev.flint.shadows = [] → m.sev = 2 →
    (s.dev.coll 8).ff.valid = true →
    Runs (.flintMessage 8 n pk dt) s [.mem, .pkg, .expo, .sealing, .restore, .strata, .flash, .ctxs, .dram, .energy, .flint, .qtz, .snap, .lat, .heads, .slate, .panel, .dw, .out, .freeN] fun e =>
      (e.coll 8).ff = { (s.dev.coll 8).ff with
        count := satInc 32 (s.dev.coll 8).ff.count, kindOr := (s.dev.coll 8).ff.kindOr ||| m.kind, lastMsg := m.word 2,
        tLast := (s.dev.elapse dt).now, maxSev := max (s.dev.coll 8).ff.maxSev 2 } ∧
      e.flint.tfPulse = s.dev.flint.tfPulse) ∧
  (∀ s (c : Fin 9) (m : FlintMsg) (n : Nat) dt, c.val < 8 → (s.dev.coll c.val).urgent = [] → (s.dev.coll c.val).input = [m] → 1 ≤ n →
    s.dev.flint.shadows = [] → m.sev = 2 → (s.dev.coll c.val).ff.valid = false →
    Runs (.flintMessage c n 0 dt) s [.mem, .pkg, .expo, .sealing, .restore, .strata, .flash, .ctxs, .dram, .energy, .flint, .qtz, .snap, .lat, .heads, .slate, .panel, .dw, .out, .freeN] fun e =>
      (e.coll c.val).ff.valid = true ∧ (e.coll c.val).ff.msg = m.word 2 ∧ (e.coll c.val).ff.lseq = (s.dev.coll c.val).nextLseq ∧
      mbit e.flint.tfPulse c.val = true ∧ (e.coll 8).nextLseq = (s.dev.coll 8).nextLseq + 1) ∧
  (∀ s (m : FlintMsg) (n pk : Nat) dt, (s.dev.coll 8).urgent = [] → (s.dev.coll 8).input = [m] → 1 ≤ n →
    ((s.dev.elapse dt).judge m).cause.isSome = true →
    Runs (.flintMessage 8 n pk dt) s [.mem, .pkg, .expo, .sealing, .restore, .strata, .flash, .ctxs, .dram, .energy, .flint, .qtz, .snap, .lat, .heads, .slate, .panel, .dw, .out, .freeN] fun e =>
      (e.coll 8).ff = (s.dev.coll 8).ff ∧ e.flint.tfPulse = s.dev.flint.tfPulse ∧ e.pkg.safe = s.dev.pkg.safe ∧
      (∀ t ∈ tiles8, (e.tile t).isolated = (s.dev.tile t).isolated) ∧ (e.coll 8).nextLseq = (s.dev.coll 8).nextLseq + 1) ∧
  (∀ s (c : Fin 9) (m : FlintMsg) (n : Nat) dt, c.val < 8 → (s.dev.coll c.val).urgent = [] → (s.dev.coll c.val).input = [m] → 1 ≤ n →
    s.dev.flint.shadows = [] → m.sev = 3 → m.src = tsrc c.val 38 → m.quiet = false →
    Runs (.flintMessage c n 0 dt) s [.mem, .pkg, .expo, .sealing, .restore, .strata, .flash, .ctxs, .dram, .energy, .flint, .qtz, .snap, .lat, .heads, .slate, .panel, .dw, .out, .freeN] fun e =>
      (e.tile c.val).isolated = true ∧ (∀ t ∈ tiles8, t ≠ c.val → (e.tile t).isolated = (s.dev.tile t).isolated)) ∧
  (∀ s (m : FlintMsg) (n : Nat) dt, (s.dev.coll 8).urgent = [m] → (s.dev.coll 8).input = [] → 1 ≤ n → s.dev.flint.shadows = [] →
    768 ≤ m.src → m.quiet = false → m.sev = 4 → s.dev.sealing.active = false →
    Runs (.flintMessage 8 n 0 dt) s [.mem, .pkg, .expo, .sealing, .restore, .strata, .flash, .ctxs, .dram, .energy, .flint, .qtz, .snap, .lat, .heads, .slate, .panel, .dw, .out, .freeN] fun e =>
      e.pkg.safe = max s.dev.pkg.safe 1 ∧ e.expo.held = [] ∧ e.panel.fWpN = true ∧
      (∀ t ∈ tiles8, ∀ c ∈ ([0, 1, 2, 3] : List Nat), (e.chan t c).state = 2) ∧ (e.flint.shadows.map fun x : Shadow => x.reaction) = [5]) ∧
  (∀ s (m : FlintMsg) (n : Nat) dt, (s.dev.coll 8).urgent = [m] → (s.dev.coll 8).input = [] → 1 ≤ n → s.dev.flint.shadows = [] →
    768 ≤ m.src → m.quiet = false → m.sev = 5 →
    Runs (.flintMessage 8 n 0 dt) s [.mem, .pkg, .expo, .sealing, .restore, .strata, .flash, .ctxs, .dram, .energy, .flint, .qtz, .snap, .lat, .heads, .slate, .panel, .dw, .out, .freeN] fun e =>
      2 ≤ e.pkg.safe ∧ e.sealing.active = false ∧ e.flint.fatal = true ∧ e.flint.aliveStop = true)

/-- SHADOW_WINDOW_CLOSE keeps exactly the shadows still open. LOST_MESSAGE_REPORT sends one Degraded message of kind 13h from the collector's
own source and starts the count again. SAFE_STATE_DECISION starts a seal of cause 5h where the package role runs, and else holds the safe
state with ALIVE stopped. FLINT_EXTRACT_WRITE keeps the first-fault records and at most 256 entries. EVENT_POST_RATE posts an event held
back for 1 s with its count. ALIVE_TOGGLE sets ALIVE to the level of its square wave unless it has stopped; TFAULT_PULSE_END ends a pulse of
20 µs or more on one line. (R319, R321, R325, R330, R333, R335) -/
def Obligations.FlintServiceRows : Prop :=
  (∀ s dt, Runs (.shadowWindowClose dt) s [.flint, .qtz] fun e =>
      e.flint = { s.dev.flint with shadows := s.dev.flint.shadows.filter fun x : Shadow => decide ((s.dev.elapse dt).now ≤ x.until_) }) ∧
  (∀ s (c : Fin 9) dt, (s.dev.coll c.val).lostSince ≠ 0 → (s.dev.coll c.val).input.length < 64 →
    Runs (.lostMessageReport c dt) s [.flint, .qtz] fun e =>
      (e.coll c.val).lostSince = 0 ∧ ((e.coll c.val).input.getLast?.map fun m : FlintMsg => (m.src, m.kind.toNat, m.sev, m.detail)) =
        some (if c.val < 8 then c.val * 96 + 68 else 833, 0x13, 2, [(s.dev.coll c.val).lostSince])) ∧
  (∀ s dt, s.dev.pkg.safe = 1 → s.dev.sealing.active = false → s.dev.sealing.hibernating = false → s.dev.roleRuns = true →
    s.dev.panel.coreUp = true → s.dev.restore.ready = true → s.dev.pkg.bedrock = false →
    Runs (.safeStateDecision dt) s [.mem, .pkg, .expo, .sealing, .restore, .flash, .ctxs, .dram, .energy, .therm, .flint, .qtz, .lat, .heads, .jcs, .slate, .upd, .panel, .dw, .out] fun e =>
      e.sealing.active = true ∧ e.sealing.cause = 5 ∧ e.sealing.tTrigger = (s.dev.elapse dt).now) ∧
  (∀ s dt, s.dev.pkg.safe = 1 → s.dev.sealing.active = false → s.dev.sealing.hibernating = false → s.dev.roleRuns = false →
    Runs (.safeStateDecision dt) s [.mem, .pkg, .expo, .sealing, .restore, .flash, .ctxs, .dram, .energy, .therm, .flint, .qtz, .lat, .heads, .jcs, .slate, .upd, .panel, .dw, .out] fun e => e.pkg.safe = 2 ∧ e.flint.aliveStop = true ∧ e.sealing = s.dev.sealing) ∧
  (∀ s dt, s.dev.flint.extractDue = true → (s.dev.elapse dt).recMay = true →
    Runs (.flintExtractWrite dt) s [.flint, .qtz, .slate] fun e =>
      e.flint.extractDue = false ∧ e.flint.prevLog.length ≤ 256 ∧
      e.flint.prevFf = s.dev.flint.coll.map (fun c : Nat × Collector => (c.1, c.2.ff))) ∧
  (∀ s (x : RateSlot) dt, s.dev.roleRuns = true → s.dev.flint.rate = [x] → x.count ≠ 0 → 1000000000 ≤ (s.dev.elapse dt).now - x.last →
    Runs (.eventPostRate dt) s [.flint, .qtz, .heads, .out] fun e =>
      (e.head x.head).events.length = (s.dev.head x.head).events.length + 1 ∧
      ((e.head x.head).events.getLast?.map fun v : CxlEvent => v.count) = some x.count ∧
      e.flint.rate = [{ x with count := 0, last := (s.dev.elapse dt).now }]) ∧
  (∀ s dt, s.dev.panel.coreUp = true → s.dev.flint.aliveStop = false → (3 ≤ s.dev.restore.phase ∨ s.dev.pkg.bedrock = true) →
    Runs (.aliveToggle dt) s [.flint, .qtz] fun e => 
      e.flint = { s.dev.flint with alive := decide ((s.dev.elapse dt).now / (if s.dev.pkg.bedrock then 50000000 else 500000) % 2 = 0) }) ∧
  (∀ s (t : Fin 8) dt, 20000 ≤ (s.dev.elapse dt).since (tget s.dev.flint.tfAt 0 t.val) →
    Runs (.tfaultPulseEnd t dt) s [.flint, .qtz] fun e =>
      e.flint = { s.dev.flint with tfPulse := mclr s.dev.flint.tfPulse t.val } ∧ mbit e.flint.tfPulse t.val = false)

/-- QTZ_STATUS_UPDATE, when due, shows source, PPS state, validity, class, r and UNC and advances SEQ. QTZ_NOW_READ answers the count of that
instant and latches it and UTC for its head; the high half is that of the head's last low read. PPS_IN_EDGE: a pulse under 100 ns changes
nothing; a valid edge while LOCKED moves f and then r by R344 and leaves OFFSET alone; one more than 1 ms off is rejected, the third in a
row giving up the lock; the third valid edge in SEARCH locks, and takes a large error into OFFSET without touching the count. PPS_TIMEOUT
shows HOLD once and searches with r at f. During a takeover no Quartz master runs: an edge is only timed and no timeout acts. PPS_OUT rises
on a second and is omitted within 500 ms; it falls. STANDBY_COUNT_LOAD loads the count + 100 us. QUARTZ_TIME_RECORD raises the floor to now.
REFERENCE_LOST sets class 1 and sends an Urgent message; REFERENCE_GOOD after 1 s ends it. (Quotients are rounded towards zero, log entry
112.) (R338, R341, R342, R343, R344, R345, R346, R349, R350, R351) -/
def Obligations.QuartzRows : Prop :=
  (∀ s dt, (s.dev.elapse dt).tickDue 3 10000000 = true → Runs (.qtzStatusUpdate dt) s [.pkg, .qtz, .dw] fun e =>
      bits (e.dwGet 0x2040 0) 0 2 = e.timeSrc % 4 ∧ bits (e.dwGet 0x2040 0) 2 2 = s.dev.qtz.ppsState % 4 ∧
      bits (e.dwGet 0x2040 0) 4 1 = bit s.dev.qtz.ofsValid ∧ bits (e.dwGet 0x2040 0) 5 1 = bit s.dev.qtz.contLost ∧
      bits (e.dwGet 0x2040 0) 15 1 = bit s.dev.qtz.refLost ∧ bits (e.dwGet 0x2040 0) 16 18 = twos 18 s.dev.qtz.rate ∧
      bits (e.dwGet 0x2040 0) 56 8 = (bits (s.dev.dwGet 0x2040 0) 56 8 + 1) % 256 ∧ e.qtz = (s.dev.elapse dt).qtz) ∧
  (∀ s (h : Fin 2) dt, Runs (.qtzNowRead h 0 dt) s [.qtz, .out] fun e =>
      e.out = Out.dwData h.val (leBytes 8 (s.dev.elapse dt).qtz.count) :: s.dev.out ∧
      tget e.qtz.latchCnt 0 h.val = (s.dev.elapse dt).qtz.count ∧ tget e.qtz.latchUtc 0 h.val = (s.dev.elapse dt).utcNow ∧
      tget e.qtz.latchCnt 0 (1 - h.val) = tget s.dev.qtz.latchCnt 0 (1 - h.val)) ∧
  (∀ s (h : Fin 2) dt, Runs (.qtzNowRead h 1 dt) s [.qtz, .out] fun e =>
      e.out = Out.dwData h.val (leBytes 4 (s.dev.elapse dt).qtz.count) :: s.dev.out ∧
      tget e.qtz.latchCnt 0 h.val = (s.dev.elapse dt).qtz.count) ∧
  (∀ s (h : Fin 2) dt, Runs (.qtzNowRead h 2 dt) s [.qtz, .out] fun e =>
      e.out = Out.dwData h.val (leBytes 4 (tget s.dev.qtz.latchCnt 0 h.val / 2 ^ 32)) :: s.dev.out ∧ e.qtz.latchCnt = s.dev.qtz.latchCnt) ∧
  (∀ s (width : Nat) dt, width < 100 → (s.dev.qtz.hasTime = false ∨ s.dev.qtz.isRoot = true) →
    Runs (.ppsInEdge width dt) s [.ctxs, .flint, .qtz, .slate, .dw] fun e => e = s.dev.elapse dt) ∧
  (∀ s (width p : Nat) dt, 100 ≤ width → s.dev.pkg.takeStep = 0 → s.dev.qtz.ppsEn = true → s.dev.qtz.running = true → s.dev.qtz.ppsState = 2 → s.dev.qtz.ofsValid = true →
    (s.dev.qtz.hasTime = false ∨ s.dev.qtz.isRoot = true) → s.dev.qtz.refLost = false → s.dev.qtz.ppsLastValid = some p →
    999750000 ≤ (s.dev.elapse dt).qtz.count - p → (s.dev.elapse dt).qtz.count - p ≤ 1000250000 →
    -1000000 ≤ phaseErr (s.dev.elapse dt).qtz.count s.dev.qtz.offset → phaseErr (s.dev.elapse dt).qtz.count s.dev.qtz.offset ≤ 1000000 →
    Runs (.ppsInEdge width dt) s [.ctxs, .flint, .qtz, .slate, .dw] fun e =>
      e.qtz.freq = clampPpb (s.dev.qtz.freq - (phaseErr (s.dev.elapse dt).qtz.count s.dev.qtz.offset).tdiv 256) ∧
      e.qtz.rate = clampPpb (e.qtz.freq - (phaseErr (s.dev.elapse dt).qtz.count s.dev.qtz.offset).tdiv 16) ∧
      e.qtz.offset = s.dev.qtz.offset ∧ e.qtz.count = (s.dev.elapse dt).qtz.count ∧ e.qtz.ppsEdge = (s.dev.elapse dt).qtz.count ∧
      e.qtz.ppsState = 2 ∧ e.qtz.ppsRejects = 0) ∧
  (∀ s (width p : Nat) dt, 100 ≤ width → s.dev.pkg.takeStep = 0 → s.dev.qtz.ppsEn = true → s.dev.qtz.running = true → s.dev.qtz.ppsState = 2 → s.dev.qtz.ofsValid = true →
    s.dev.qtz.ppsLastValid = some p →
    999750000 ≤ (s.dev.elapse dt).qtz.count - p → (s.dev.elapse dt).qtz.count - p ≤ 1000250000 →
    (phaseErr (s.dev.elapse dt).qtz.count s.dev.qtz.offset < -1000000 ∨ 1000000 < phaseErr (s.dev.elapse dt).qtz.count s.dev.qtz.offset) →
    Runs (.ppsInEdge width dt) s [.ctxs, .flint, .qtz, .slate, .dw] fun e =>
      e.qtz.freq = s.dev.qtz.freq ∧ e.qtz.offset = s.dev.qtz.offset ∧ e.qtz.ppsEdge = (s.dev.elapse dt).qtz.count ∧
      (s.dev.qtz.ppsRejects < 2 → e.qtz.ppsState = 2 ∧ e.qtz.ppsRejects = s.dev.qtz.ppsRejects + 1 ∧ e.qtz.rate = s.dev.qtz.rate) ∧
      (2 ≤ s.dev.qtz.ppsRejects → e.qtz.ppsState = 1 ∧ e.qtz.rate = s.dev.qtz.freq ∧ bits (e.dwGet 0x2040 0) 2 2 = 3)) ∧
  (∀ s (width p : Nat) dt, 100 ≤ width → s.dev.pkg.takeStep = 0 → s.dev.qtz.ppsEn = true → s.dev.qtz.running = true → s.dev.qtz.ppsState = 1 → s.dev.qtz.ppsRun = 2 →
    s.dev.qtz.ofsValid = true → (s.dev.qtz.hasTime = false ∨ s.dev.qtz.isRoot = true) → s.dev.qtz.refLost = false →
    s.dev.qtz.ppsLastValid = some p → 999750000 ≤ (s.dev.elapse dt).qtz.count - p → (s.dev.elapse dt).qtz.count - p ≤ 1000250000 →
    (phaseErr (s.dev.elapse dt).qtz.count s.dev.qtz.offset < -1000000 ∨ 1000000 < phaseErr (s.dev.elapse dt).qtz.count s.dev.qtz.offset) →
    Runs (.ppsInEdge width dt) s [.ctxs, .flint, .qtz, .slate, .dw] fun e =>
      e.qtz.ppsState = 2 ∧ e.qtz.offset = s.dev.qtz.offset - phaseErr (s.dev.elapse dt).qtz.count s.dev.qtz.offset ∧ e.qtz.ofsSource = 2 ∧
      e.qtz.count = (s.dev.elapse dt).qtz.count ∧ e.qtz.contLost = false ∧ bits (e.dwGet 0x2040 0) 2 2 = 2) ∧
  (∀ s (u : Nat) dt, s.dev.pkg.takeStep = 0 → s.dev.qtz.ppsState = 2 → s.dev.qtz.ppsLastValid = some u → 2000000000 ≤ (s.dev.elapse dt).now - u →
    Runs (.ppsTimeout dt) s [.flint, .qtz, .dw] fun e =>
      e.qtz.ppsState = 1 ∧ e.qtz.rate = s.dev.qtz.freq ∧ e.qtz.offset = s.dev.qtz.offset ∧ bits (e.dwGet 0x2040 0) 2 2 = 3) ∧
  (∀ s (width : Nat) dt, s.dev.pkg.takeStep ≠ 0 → s.dev.qtz.ppsEn = true → s.dev.qtz.running = true →
    Runs (.ppsInEdge width dt) s [.ctxs, .flint, .qtz, .slate, .dw] fun e => e = (s.dev.elapse dt).onQtz fun q => { q with ppsEdge := (s.dev.elapse dt).qtz.count }) ∧
  (∀ s dt, s.dev.pkg.takeStep ≠ 0 → Runs (.ppsTimeout dt) s [.flint, .qtz, .dw] fun e => e = s.dev.elapse dt) ∧
  (∀ s dt, s.dev.qtz.ppsOutEn = true → s.dev.qtz.running = true → 3 ≤ s.dev.restore.phase → s.dev.pkg.bedrock = false →
    (s.dev.elapse dt).onSecond = true → (∀ u ∈ s.dev.qtz.ppsOutLast, 500000000 ≤ (s.dev.elapse dt).now - u) →
    Runs (.ppsOutEdge dt) s [.qtz] fun e => e.qtz.ppsOut = true ∧ e.qtz.ppsOutLast = some (s.dev.elapse dt).now) ∧
  (∀ s (u : Nat) dt, s.dev.qtz.ppsOutLast = some u → (s.dev.elapse dt).now - u < 500000000 →
    Runs (.ppsOutEdge dt) s [.qtz] fun e => e = s.dev.elapse dt) ∧
  (∀ s (u : Nat) dt, s.dev.qtz.ppsOutLast = some u → s.dev.qtz.ppsOut = true → 10000000 ≤ (s.dev.elapse dt).now - u →
    Runs (.ppsOutFall dt) s [.qtz] fun e => e.qtz = { (s.dev.elapse dt).qtz with ppsOut := false }) ∧
  (∀ s dt, s.dev.qtz.running = true →
    Runs (.standbyCountLoad dt) s [.qtz] fun e =>
      e.qtz.standby = e.qtz.count + 100000 ∧ e.qtz.standbyFrac = 0 ∧ e.qtz.count = (s.dev.elapse dt).qtz.count) ∧
  (∀ s dt, s.dev.qtz.running = true → (s.dev.elapse dt).recMay = true →
    Runs (.quartzTimeRecord dt) s [.qtz, .slate, .freeN] fun e =>
      (s.dev.elapse dt).now ≤ e.qtz.floorStamp ∧ s.dev.qtz.floorStamp ≤ e.qtz.floorStamp ∧ e.qtz.epochSet = true) ∧
  (∀ s dt, Runs (.referenceLost dt) s [.flint, .qtz, .dw] fun e =>
      e.qtz.refLost = true ∧ e.timeSrc = 3 ∧ (e.qtz.rootEn = true → e.clockClass = 1) ∧ bits (e.dwGet 0x2040 0) 15 1 = 1 ∧
      (s.dev.qtz.refLost = false → ((e.coll 8).urgent.getLast?.map fun m : FlintMsg => (m.src, m.kind.toNat, m.sev)) = some (801, 0x40, 4))) ∧
  (∀ s dt, s.dev.qtz.refLost = true → 1000000000 ≤ (s.dev.elapse dt).since s.dev.qtz.refSince →
    Runs (.referenceGood dt) s [.flint, .qtz, .dw] fun e => e.qtz.refLost = false ∧ bits (e.dwGet 0x2040 0) 15 1 = 0)

/-- SNAP_IN_EDGE captures into the lowest free bank of 1 to 3 with cause bit 2 and owner SV, one section for each source with its state words of
this moment, a source of an isolated tile missing; with no such bank free it is missed and counted, and bank 0 is never taken.
SCHEDULED_TRIGGER_FIRE takes the trigger whose time is reached out of the schedule and captures for its owner. SNAPSHOT_BANK_WRITE marks
bank 0 as copied. (R353, R354, R355, R356, R358, R359) -/
def Obligations.SnapshotRows : Prop :=
  (∀ s (width : Nat) dt, s.dev.qtz.snapInEn = true → 50 ≤ width → (∀ u ∈ s.dev.qtz.snapInLast, 1000000 ≤ (s.dev.elapse dt).now - u) →
    s.dev.panel.coreUp = true → (tget s.dev.snap.banks {} 1).state = 0 →
    Runs (.snapInEdge width dt) s [.flint, .qtz, .snap, .dw, .freeN] fun e =>
      (tget e.snap.banks {} 1).state = 1 ∧ (tget e.snap.banks {} 1).owner = 4 ∧ (tget e.snap.banks {} 1).cause = 4 ∧
      (tget e.snap.banks {} 1).tTrig = (s.dev.elapse dt).now ∧ tget e.snap.banks {} 0 = tget s.dev.snap.banks {} 0 ∧
      ((tget e.snap.banks {} 1).sections.map fun x : SnapSection => x.src) = snapSources ∧
      (∀ x ∈ (tget e.snap.banks {} 1).sections, x.captured = !(decide (x.src < 768) && (s.dev.tile (x.src / 96)).isolated) ∧
        (x.captured = true → x.words = (s.dev.elapse dt).snapWords x.src ∧ x.ce = tget s.dev.flint.ce 0 x.src ∧ x.captureDt ≤ captureMax x.src)) ∧
      e.qtz.snapInLast = some (s.dev.elapse dt).now ∧ e.snap.missed = s.dev.snap.missed) ∧
  (∀ s (width : Nat) dt, s.dev.qtz.snapInEn = true → 50 ≤ width → (∀ u ∈ s.dev.qtz.snapInLast, 1000000 ≤ (s.dev.elapse dt).now - u) →
    s.dev.panel.coreUp = true → (∀ b ∈ ([1, 2, 3] : List Nat), (tget s.dev.snap.banks {} b).state ≠ 0) →
    Runs (.snapInEdge width dt) s [.flint, .qtz, .snap, .dw, .freeN] fun e =>
      e.snap.banks = s.dev.snap.banks ∧ e.snap.missed = satInc 16 s.dev.snap.missed ∧ bits (e.dwGet 0x3000 0) 12 16 = e.snap.missed % 65536) ∧
  (∀ s (x : SnapSched) dt, s.dev.snap.sched = [x] → (s.dev.elapse dt).schedDue x = true → (tget s.dev.snap.banks {} 1).state = 0 →
    Runs (.scheduledTriggerFire dt) s [.flint, .qtz, .snap, .dw, .freeN] fun e =>
      e.snap.sched = [] ∧ (tget e.snap.banks {} 1).state = 1 ∧ (tget e.snap.banks {} 1).owner = x.owner ∧
      (tget e.snap.banks {} 1).cause = (if x.reqNode = 0 then 8 else 16) ∧ (tget e.snap.banks {} 1).reqNode = x.reqNode ∧
      (tget e.snap.banks {} 1).reqId = x.id ∧ (tget e.snap.banks {} 1).tTrig = (s.dev.elapse dt).now) ∧
  (∀ s dt, (tget s.dev.snap.banks {} 0).state = 1 → mbit (tget s.dev.snap.banks {} 0).flags 0 = false → (s.dev.elapse dt).recMay = true →
    Runs (.snapshotBankWrite dt) s [.qtz, .snap, .slate] fun e =>
      mbit (tget e.snap.banks {} 0).flags 0 = true ∧ (tget e.snap.banks {} 0).sections = (tget s.dev.snap.banks {} 0).sections)

/-- ACK and NAK that name an outstanding frame take that frame and every earlier one out of the replay buffer, NAK replaying the rest; one that
names none changes no buffer and is counted. ACK_SEND acknowledges the last frame accepted and clears what was owed. REPLAY_TIMEOUT replays
exactly the frames unacknowledged for 20 us. CREDIT_RETURN adds credits, and sends a frame that waited for one. CREDIT_WAIT_DISCARD drops
the old transit frames and counts them. FRAME_FORWARD: a bad or out-of-order frame is answered with NAK and not accepted; a frame for this
node is accepted and delivered; one of a reserved service, or at the end of its TTL, is discarded and counted; a transit header leaves on
the routed link with its TTL one lower. (R363, R364, R365, R366, R376) -/
def Obligations.LatticeFrameRows : Prop :=
  (∀ s (l : Fin 6) (fseq : BitVec 8) dt, (s.dev.link l.val).wait = [] →
    ((s.dev.link l.val).outst.any fun f : Nat × Nat × LatFrame => f.1 == fseq.toNat) = true →
    Runs (.ack l fseq dt) s [.qtz, .lat, .out] fun e =>
      (e.link l.val).outst = ((s.dev.link l.val).outst.dropWhile fun f : Nat × Nat × LatFrame => f.1 != fseq.toNat).drop 1 ∧
      (e.link l.val).badAck = (s.dev.link l.val).badAck) ∧
  (∀ s (l : Fin 6) (fseq : BitVec 8) dt, ((s.dev.link l.val).outst.any fun f : Nat × Nat × LatFrame => f.1 == fseq.toNat) = false →
    Runs (.ack l fseq dt) s [.qtz, .lat, .out] fun e =>
      e.link l.val = { s.dev.link l.val with badAck := (s.dev.link l.val).badAck + 1 }) ∧
  (∀ s (l : Fin 6) (fseq : BitVec 8) dt, (s.dev.link l.val).wait = [] →
    ((s.dev.link l.val).outst.any fun f : Nat × Nat × LatFrame => f.1 == fseq.toNat) = true →
    Runs (.nak l fseq dt) s [.flint, .qtz, .lat, .out] fun e =>
      (e.link l.val).outst.map (fun f : Nat × Nat × LatFrame => (f.1, f.2.1)) =
        (((s.dev.link l.val).outst.dropWhile fun f : Nat × Nat × LatFrame => f.1 != fseq.toNat).drop 1).map
          (fun f : Nat × Nat × LatFrame => (f.1, f.2.1 + 1)) ∧
      (∀ f ∈ (e.link l.val).outst, 4 ≤ f.2.1 → (e.link l.val).retraining = true)) ∧
  (∀ s (l : Fin 6) (fseq : BitVec 8) dt, ((s.dev.link l.val).outst.any fun f : Nat × Nat × LatFrame => f.1 == fseq.toNat) = false →
    Runs (.nak l fseq dt) s [.flint, .qtz, .lat, .out] fun e =>
      e.link l.val = { s.dev.link l.val with badAck := (s.dev.link l.val).badAck + 1 }) ∧
  (∀ s (l : Fin 6) dt, 3 ≤ (s.dev.link l.val).state → (s.dev.link l.val).state ≠ 6 →
    Runs (.ackSend l dt) s [.qtz, .lat, .out] fun e =>
      (e.link l.val).unacked = 0 ∧ (e.link l.val).freed = [] ∧ (e.link l.val).rxNext = (s.dev.link l.val).rxNext ∧
      ((s.dev.link l.val).unacked ≠ 0 → (s.dev.link l.val).freed = [] →
        e.out = Out.frame l.val 0 [0, ((s.dev.link l.val).rxNext + 255) % 256] :: s.dev.out)) ∧
  (∀ s (l : Fin 6) dt, (s.dev.link l.val).retraining = false →
    Runs (.replayTimeout l dt) s [.flint, .qtz, .lat, .out] fun e =>
      (e.link l.val).outst.map (fun f : Nat × Nat × LatFrame => (f.1, f.2.1)) =
        (s.dev.link l.val).outst.map (fun f : Nat × Nat × LatFrame =>
          (f.1, f.2.1 + (if 20000 ≤ (s.dev.elapse dt).now - f.2.2.since then 1 else 0))) ∧
      (e.link l.val).txNext = (s.dev.link l.val).txNext) ∧
  (∀ s (l : Fin 6) (vl : Fin 4) (n : Nat) dt, (s.dev.link l.val).wait = [] →
    Runs (.creditReturn l vl n dt) s [.qtz, .lat, .out] fun e =>
      (e.link l.val).credit vl.val = (s.dev.link l.val).credit vl.val + n ∧ (e.link l.val).outst = (s.dev.link l.val).outst) ∧
  (∀ s (l : Fin 6) (vl : Fin 4) (n : Nat) (f : LatFrame) dt, (s.dev.link l.val).wait = [f] → f.vl = vl.val → (s.dev.link l.val).outst = [] →
    (s.dev.link l.val).retraining = false → (s.dev.link l.val).state = 5 → (s.dev.link l.val).credit vl.val = 0 → 1 ≤ n →
    Runs (.creditReturn l vl n dt) s [.qtz, .lat, .out] fun e =>
      e.out = frameOut l.val (s.dev.link l.val).txNext f :: s.dev.out ∧ (e.link l.val).wait = [] ∧
      (e.link l.val).outst.map (fun x : Nat × Nat × LatFrame => (x.1, x.2.1)) = [((s.dev.link l.val).txNext, 0)] ∧
      (e.link l.val).txNext = ((s.dev.link l.val).txNext + 1) % 256 ∧ (e.link l.val).credit vl.val = n - 1) ∧
  (∀ s (l : Fin 6) dt,
    Runs (.creditWaitDiscard l dt) s [.flint, .qtz, .lat] fun e =>
      (e.link l.val).wait = (s.dev.link l.val).wait.filter (fun f : LatFrame =>
        !(f.src != s.dev.lat.nodeId && decide (10000000 < (s.dev.elapse dt).now - f.since))) ∧
      e.lat.discarded = s.dev.lat.discarded + ((s.dev.link l.val).wait.length - (e.link l.val).wait.length)) ∧
  (∀ s (l : Fin 6) (good : Bool) (fseq : BitVec 8) (dst src : BitVec 12) (vl : Fin 4) (svc : BitVec 5) (ttl : BitVec 6) (som eom : Bool)
    (uid : Nat) (body : List Nat) dt, s.dev.latUp = true → 3 ≤ (s.dev.link l.val).state → (s.dev.link l.val).state ≠ 6 →
    (good = false ∨ fseq.toNat ≠ (s.dev.link l.val).rxNext) →
    Runs (.frameForward l good fseq dst src vl svc ttl som eom uid body dt) s [.flint, .qtz, .lat, .out] fun e =>
      e.out = Out.frame l.val 0 [1, ((s.dev.link l.val).rxNext + 255) % 256] :: s.dev.out ∧
      e.link l.val = { s.dev.link l.val with replayed := true }) ∧
  (∀ s (l : Fin 6) (fseq : BitVec 8) (dst src : BitVec 12) (vl : Fin 4) (svc : BitVec 5) (ttl : BitVec 6) (som eom : Bool)
    (uid : Nat) (body : List Nat) dt, s.dev.latUp = true → 3 ≤ (s.dev.link l.val).state → (s.dev.link l.val).state ≠ 6 →
    fseq.toNat = (s.dev.link l.val).rxNext → dst.toNat = s.dev.lat.nodeId → dst ≠ 0 → dst ≠ 0xFFF → svc.toNat < 10 →
    Runs (.frameForward l true fseq dst src vl svc ttl som eom uid body dt) s [.flint, .qtz, .lat, .out] fun e =>
      e.out = Out.latMsg s.dev.lat.uid svc.toNat body :: s.dev.out ∧ (e.link l.val).rxNext = ((s.dev.link l.val).rxNext + 1) % 256 ∧
      (e.link l.val).unacked = (s.dev.link l.val).unacked + 1 ∧ e.lat.discarded = s.dev.lat.discarded) ∧
  (∀ s (l : Fin 6) (fseq : BitVec 8) (dst src : BitVec 12) (vl : Fin 4) (svc : BitVec 5) (ttl : BitVec 6) (som eom : Bool)
    (uid : Nat) (body : List Nat) dt, s.dev.latUp = true → 3 ≤ (s.dev.link l.val).state → (s.dev.link l.val).state ≠ 6 →
    fseq.toNat = (s.dev.link l.val).rxNext → (10 ≤ svc.toNat ∨ dst.toNat ≠ s.dev.lat.nodeId ∧ dst ≠ 0 ∧ dst ≠ 0xFFF ∧ ttl.toNat ≤ 1) →
    Runs (.frameForward l true fseq dst src vl svc ttl som eom uid body dt) s [.flint, .qtz, .lat, .out] fun e =>
      e.out = s.dev.out ∧ (e.link l.val).rxNext = ((s.dev.link l.val).rxNext + 1) % 256 ∧ e.lat.discarded = s.dev.lat.discarded + 1) ∧
  (∀ s (l x : Fin 6) (fseq : BitVec 8) (dst src : BitVec 12) (vl : Fin 4) (svc : BitVec 5) (ttl : BitVec 6) (eom : Bool)
    (uid : Nat) (body : List Nat) dt, s.dev.latUp = true → 3 ≤ (s.dev.link l.val).state → (s.dev.link l.val).state ≠ 6 →
    fseq.toNat = (s.dev.link l.val).rxNext → svc.toNat < 10 → svc.toNat ≠ 3 → dst.toNat ≠ s.dev.lat.nodeId → dst ≠ 0 → dst ≠ 0xFFF → 2 ≤ ttl.toNat →
    s.dev.transitRuns = true → s.dev.routeLink dst.toNat = some x.val → s.dev.linkIdle x.val = true →
    Runs (.frameForward l true fseq dst src vl svc ttl true eom uid body dt) s [.flint, .qtz, .lat, .out] fun e =>
      e.out = frameOut x.val (s.dev.link x.val).txNext
        { dst := dst.toNat, src := src.toNat, vl := vl.val, svc := svc.toNat, ttl := ttl.toNat - 1, som := true, eom := eom, body := body } :: s.dev.out ∧
      e.lat.discarded = s.dev.lat.discarded ∧ (e.link x.val).txNext = ((s.dev.link x.val).txNext + 1) % 256)

/-- LINK_TRAINING_ATTEMPT with a signal puts a DOWN link in TRAINING; LINK_TRAINED takes it to HELLO with the trained width and cost, or back to
DOWN. LINK_SIGNAL_LOSS and HELLO_MISSING take an ACTIVE or WAIT_ROUTE link DOWN, counting a flap, the third within 60 s holding it, for 60 s
the first time; HOLD_EXPIRED releases it. HELLO_SEND counts HSEQ up and sends the 64 bytes of the hello. HELLO: the third clean hello puts
the link in WAIT_ROUTE; an unclean one sets the count to zero and leaves an ACTIVE link ACTIVE; the node's own unique ID disables the link;
LEAVING takes it DOWN without a flap. LINK_STATE_ADVERTISEMENT stores a newer advertisement and keeps no other; LSA_PERIODIC advertises
anew; LSA_EXPIRY drops those of 35 s. ROUTE_COMPUTE loads the table of the advertisements and makes the links it took ACTIVE.
LATTICE_STATUS_UPDATE shows node and links. (R361, R369, R370, R371, R372, R374, R375, R377, R378, R394) -/
def Obligations.LatticeDiscoveryRows : Prop :=
  (∀ s (l : Fin 6) dt, s.dev.latUp = true → (s.dev.link l.val).state = 1 →
    Runs (.linkTrainingAttempt l true dt) s [.ctxs, .qtz, .lat, .heads, .dw, .out] fun e =>
      e.link l.val = { s.dev.link l.val with state := 2 } ∧ bits (e.dwGet (0x1840 + 8 * l.val) 1) 0 3 = 2) ∧
  (∀ s (l : Fin 6) (outcome : Fin 3) dt, (s.dev.link l.val).state = 2 → (s.dev.link l.val).retraining = false →
    Runs (.linkTrained l outcome dt) s [.flint, .qtz, .lat, .slate, .dw, .out] fun e =>
      (e.link l.val).state = (if outcome = 0 then 1 else 3) ∧ (e.link l.val).clean = 0 ∧ (e.link l.val).rxNext = 0 ∧ (e.link l.val).txNext = 0 ∧
      (outcome ≠ 0 → (e.link l.val).width = (if outcome = 2 then 1 else 0) ∧
        (e.link l.val).cost = (s.dev.link l.val).costSet.getD (if outcome = 2 then 20 else 10))) ∧
  (∀ s (l : Fin 6) dt, ((s.dev.link l.val).state = 4 ∨ (s.dev.link l.val).state = 5) →
    Runs (.linkSignalLoss l dt) s [.flint, .qtz, .lat, .slate, .dw, .out] fun e =>
      (e.link l.val).state = (if 2 ≤ (s.dev.link l.val).flaps.countP (fun u : Nat => decide ((s.dev.elapse dt).now - u ≤ 60000000000)) then 6 else 1) ∧
      (e.link l.val).outst = [] ∧ (e.link l.val).clean = 0 ∧ (e.link l.val).flaps.getLast? = some (s.dev.elapse dt).now ∧
      ((e.link l.val).state = 6 → (s.dev.link l.val).holdEnd = none → (e.link l.val).heldUntil = (s.dev.elapse dt).now + 60000000000)) ∧
  (∀ s (l : Fin 6) dt, ((s.dev.link l.val).state = 2 ∨ (s.dev.link l.val).state = 3) →
    Runs (.linkSignalLoss l dt) s [.flint, .qtz, .lat, .slate, .dw, .out] fun e =>
      (e.link l.val).state = 1 ∧ (e.link l.val).flaps = (s.dev.link l.val).flaps ∧ e.lat.lsaSeq = s.dev.lat.lsaSeq) ∧
  (∀ s (l : Fin 6) (u : Nat) dt, (s.dev.link l.val).lastHello = some u → 3 ≤ (s.dev.link l.val).state → (s.dev.link l.val).state ≤ 5 →
    30000000 ≤ (s.dev.elapse dt).now - u →
    Runs (.helloMissing l dt) s [.flint, .qtz, .lat, .slate, .dw, .out] fun e =>
      ((e.link l.val).state = 1 ∨ (e.link l.val).state = 6) ∧ (e.link l.val).lastHello = none ∧ (e.link l.val).clean = 0) ∧
  (∀ s (l : Fin 6) dt, (s.dev.link l.val).state = 6 → (s.dev.link l.val).heldUntil ≤ (s.dev.elapse dt).now →
    Runs (.holdExpired l dt) s [.qtz, .lat, .dw] fun e => e.link l.val = { s.dev.link l.val with state := 1 }) ∧
  (∀ s (l : Fin 6) dt, s.dev.latUp = true → 3 ≤ (s.dev.link l.val).state → (s.dev.link l.val).state ≠ 6 →
    Runs (.helloSend l dt) s [.qtz, .lat, .out] fun e =>
      (e.link l.val).hseq = (s.dev.link l.val).hseq + 1 ∧
      e.lat.trootSeq = (if s.dev.qtz.isRoot = true then s.dev.lat.trootSeq + 1 else s.dev.lat.trootSeq) ∧
      (s.dev.linkIdle l.val = true → e.out = frameOut l.val (s.dev.link l.val).txNext
        { dst := 0, src := s.dev.lat.nodeId, vl := 0, svc := 1, body := (e.helloBytes l.val).map BitVec.toNat } :: s.dev.out)) ∧
  (∀ s (l : Fin 6) (uid : Nat) (nodeId : BitVec 12) (plink : Nat) (flags : BitVec 8) (cls : BitVec 3) (hops : BitVec 5) (troot tseq : Nat)
    (rclass : BitVec 3) (hseq u : Nat) dt, uid ≠ s.dev.lat.uid → s.dev.dupLinks l.val uid nodeId.toNat plink = [] → mbit flags 0 = false →
    (s.dev.link l.val).state = 3 → (s.dev.link l.val).clean = 2 → (s.dev.link l.val).lastHello = some u → uid = (s.dev.link l.val).peerUid →
    nodeId.toNat = (s.dev.link l.val).peerId → hseq = (s.dev.link l.val).lastHseq + 1 → (s.dev.link l.val).replayed = false →
    9000000 ≤ (s.dev.elapse dt).now - u → (s.dev.elapse dt).now - u ≤ 11000000 →
    Runs (.hello l true uid nodeId plink flags cls hops troot tseq rclass hseq dt) s [.flint, .qtz, .lat, .slate, .dw, .out] fun e =>
      (e.link l.val).state = 4 ∧ (e.link l.val).clean = 3 ∧ (e.link l.val).peerOpen = mbit flags 1 ∧ (e.link l.val).lastHseq = hseq ∧
      e.lat.routeDue = true) ∧
  (∀ s (l : Fin 6) (uid : Nat) (nodeId : BitVec 12) (plink : Nat) (flags : BitVec 8) (cls : BitVec 3) (hops : BitVec 5) (troot tseq : Nat)
    (rclass : BitVec 3) (hseq u : Nat) dt, uid ≠ s.dev.lat.uid → s.dev.dupLinks l.val uid nodeId.toNat plink = [] → mbit flags 0 = false →
    (s.dev.link l.val).state = 5 → (s.dev.link l.val).lastHello = some u →
    (hseq ≠ (s.dev.link l.val).lastHseq + 1 ∨ (s.dev.link l.val).replayed = true ∨ (s.dev.elapse dt).now - u < 9000000) →
    Runs (.hello l true uid nodeId plink flags cls hops troot tseq rclass hseq dt) s [.flint, .qtz, .lat, .slate, .dw, .out] fun e =>
      (e.link l.val).state = 5 ∧ (e.link l.val).clean = 0 ∧ (e.link l.val).replayed = false ∧ (e.link l.val).lastHseq = hseq) ∧
  (∀ s (l : Fin 6) (nodeId : BitVec 12) (plink : Nat) (flags : BitVec 8) (cls : BitVec 3) (hops : BitVec 5) (troot tseq : Nat)
    (rclass : BitVec 3) (hseq : Nat) dt, 3 ≤ (s.dev.link l.val).state → (s.dev.link l.val).state ≠ 6 →
    Runs (.hello l true s.dev.lat.uid nodeId plink flags cls hops troot tseq rclass hseq dt) s [.flint, .qtz, .lat, .slate, .dw, .out] fun e =>
      (e.link l.val).state = 0 ∧ (e.link l.val).disabledBy = 2) ∧
  (∀ s (l : Fin 6) (uid : Nat) (nodeId : BitVec 12) (plink : Nat) (flags : BitVec 8) (cls : BitVec 3) (hops : BitVec 5) (troot tseq : Nat)
    (rclass : BitVec 3) (hseq u : Nat) dt, uid ≠ s.dev.lat.uid → s.dev.dupLinks l.val uid nodeId.toNat plink = [] → mbit flags 0 = true →
    3 ≤ (s.dev.link l.val).state → (s.dev.link l.val).state ≠ 6 → (s.dev.link l.val).lastHello = some u →
    Runs (.hello l true uid nodeId plink flags cls hops troot tseq rclass hseq dt) s [.flint, .qtz, .lat, .slate, .dw, .out] fun e =>
      (e.link l.val).state = 1 ∧ (e.link l.val).flaps = (s.dev.link l.val).flaps) ∧
  (∀ s (l : Fin 6) (uid : Nat) (nodeId : BitVec 12) (flags : BitVec 8) (seq : BitVec 32) (nbrs : List (Nat × Nat × Nat × Nat × Nat)) dt,
    uid ≠ s.dev.lat.uid → (∀ a ∈ s.dev.lat.lsas, a.uid = uid → a.seq < seq.toNat) →
    Runs (.linkStateAdvertisement l true uid nodeId flags seq nbrs dt) s [.flint, .qtz, .lat, .slate, .dw, .out] fun e =>
      ((e.lat.lsas.find? fun a : Lsa => a.uid == uid).map fun a : Lsa => (a.seq, a.nodeId, a.nbrs, a.at_)) =
        some (seq.toNat, nodeId.toNat, nbrs.take 6, (s.dev.elapse dt).now) ∧ e.lat.routeDue = true) ∧
  (∀ s (l : Fin 6) (crcOk : Bool) (uid : Nat) (nodeId : BitVec 12) (flags : BitVec 8) (seq : BitVec 32) (nbrs : List (Nat × Nat × Nat × Nat × Nat)) dt,
    (crcOk = false ∨ ∃ a ∈ s.dev.lat.lsas.find? (fun a : Lsa => a.uid == uid), seq.toNat < a.seq) →
    Runs (.linkStateAdvertisement l crcOk uid nodeId flags seq nbrs dt) s [.flint, .qtz, .lat, .slate, .dw, .out] fun e =>
      e.lat.lsas = s.dev.lat.lsas ∧ e.lat.routeDue = s.dev.lat.routeDue) ∧
  (∀ s dt, s.dev.latUp = true →
    Runs (.lsaPeriodic dt) s [.qtz, .lat, .slate, .out] fun e =>
      e.lat.lsaSeq = s.dev.lat.lsaSeq + 1 ∧ e.lat.routeDue = true ∧
      ((e.lat.lsas.find? fun a : Lsa => a.uid == s.dev.lat.uid).map fun a : Lsa => (a.seq, a.nodeId, a.nbrs)) =
        some (s.dev.lat.lsaSeq + 1, s.dev.lat.nodeId, s.dev.ownNbrs)) ∧
  (∀ s dt, Runs (.lsaExpiry dt) s [.qtz, .lat] fun e =>
      e.lat.lsas = s.dev.lat.lsas.filter (fun a : Lsa => !(a.uid != s.dev.lat.uid && decide (35000000000 ≤ (s.dev.elapse dt).now - a.at_)))) ∧
  (∀ s (ms : Nat) dt, s.dev.lat.routeDue = true → s.dev.roleRuns = true →
    Runs (.routeCompute ms dt) s [.qtz, .lat, .dw] fun e =>
      e.lat.routes = s.dev.computeRoutes ∧ e.lat.routeDue = false ∧ e.lat.loaded = true ∧ e.lat.convMs = ms ∧
      (∀ l ∈ s.dev.routeLinks, (e.link l).state = 5) ∧
      (∀ l ∈ ([0, 1, 2, 3, 4, 5] : List Nat), l ∉ s.dev.routeLinks → e.link l = s.dev.link l)) ∧
  (∀ s dt, (s.dev.elapse dt).tickDue 8 100000000 = true → Runs (.latticeStatusUpdate dt) s [.pkg, .flint, .qtz, .lat, .slate, .dw, .out] fun e =>
      bits (e.dwGet 0x1800 0) 0 12 = e.lat.nodeId % 4096 ∧ bits (e.dwGet 0x1800 0) 14 6 = e.linkMask (fun x : Nat => x == 5) ∧
      (∀ l ∈ ([0, 1, 2, 3, 4, 5] : List Nat), bits (e.dwGet (0x1840 + 8 * l) 1) 0 3 = (e.link l).state % 8 ∧
        bits (e.dwGet (0x1840 + 8 * l) 1) 12 12 = (e.link l).peerId % 4096))

/-- NODE_ID_REQUEST at the address root answers on its link with the preferred ID where no other node holds it. NODE_ID_GRANT for this node
takes the ID and advertises it; a refusal raises "lattice full". ROOT_GIVE_WAY after 10 s makes this node the root where it is the rival.
TIME_ROOT_LOST with no other neighbour makes this node the root, or leaves it without lattice time where it may not be one.
TIME_EXCHANGE_SEND keeps t1 for the upstream link and TIME_EXCHANGE_REQ is answered at once. TIME_EXCHANGE_ANSWER, outside a takeover, slews
the rate within 100 ppm for an error of at most 1 ms, LOFF as it was, and steps LOFF alone for a larger one; the count is never moved. (The
amount of a slew is a free value, log entry 129.) (R351, R352, R373, R381) -/
def Obligations.LatticeIdAndTimeRows : Prop :=
  (∀ s (l : Fin 6) (uid : Nat) (pref : BitVec 12) dt, s.dev.aroot = s.dev.lat.uid → s.dev.lat.nodeId ≠ 0 → s.dev.roleRuns = true →
    s.dev.linkIdle l.val = true → pref ≠ 0 → pref ≠ 0xFFF → pref.toNat ≠ s.dev.lat.nodeId →
    (∀ a ∈ s.dev.lat.lsas, a.uid ≠ uid → a.nodeId ≠ pref.toNat) →
    Runs (.nodeIdRequest l uid pref dt) s [.qtz, .lat, .out] fun e =>
      e.out = frameOut l.val (s.dev.link l.val).txNext
        { dst := 0, src := s.dev.lat.nodeId, vl := 0, svc := 3, body := msgBody 0 3 1 0 0 0 [uid, pref.toNat, 0] } :: s.dev.out) ∧
  (∀ s (l : Fin 6) (id : BitVec 12) dt, s.dev.lat.nodeId = 0 →
    Runs (.nodeIdGrant l s.dev.lat.uid id false dt) s [.flint, .qtz, .lat, .slate, .dw, .out] fun e =>
      e.lat.nodeId = id.toNat ∧ e.lat.prefId = id.toNat ∧ e.lat.lsaSeq = s.dev.lat.lsaSeq + 1 ∧
      bits (e.dwGet 0x1800 0) 0 12 = id.toNat) ∧
  (∀ s (l : Fin 6) (id : BitVec 12) dt, s.dev.lat.nodeId = 0 →
    Runs (.nodeIdGrant l s.dev.lat.uid id true dt) s [.flint, .qtz, .lat, .slate, .dw, .out] fun e =>
      e.lat.nodeId = 0 ∧ e.flint = (s.dev.raise 790 0x13 2).flint) ∧
  (∀ s (t0 : Nat) dt, s.dev.qtz.rival = some (s.dev.lat.uid, t0) → 10000000000 ≤ (s.dev.elapse dt).now - t0 →
    Runs (.rootGiveWay dt) s [.flint, .qtz, .dw] fun e =>
      e.qtz.isRoot = true ∧ e.qtz.hasTime = true ∧ e.qtz.rootUid = s.dev.lat.uid ∧ e.qtz.hops = 0 ∧ e.qtz.rival = none ∧
      e.qtz.loff = (s.dev.elapse dt).qtz.loff ∧ e.qtz.count = (s.dev.elapse dt).qtz.count) ∧
  (∀ s dt, s.dev.qtz.hasTime = true → s.dev.qtz.isRoot = false → 30000000 ≤ (s.dev.elapse dt).now - s.dev.qtz.rootSeen →
    s.dev.linksIn (fun x : Nat => x == 5) = [] →
    Runs (.timeRootLost dt) s [.flint, .qtz, .dw] fun e =>
      e.qtz.isRoot = s.dev.qtz.rootEn ∧ e.qtz.hasTime = s.dev.qtz.rootEn ∧ e.qtz.count = (s.dev.elapse dt).qtz.count ∧
      e.qtz.loff = (s.dev.elapse dt).qtz.loff) ∧
  (∀ s (l : Nat) dt, s.dev.qtz.hasTime = true → s.dev.qtz.isRoot = false → s.dev.upstream = some l →
    Runs (.timeExchangeSend dt) s [.qtz, .lat, .out] fun e =>
      (e.link l).exch = some (s.dev.elapse dt).lTime.toNat ∧
      (s.dev.linkIdle l = true → e.out = frameOut l (s.dev.link l).txNext
        { dst := 0, src := s.dev.lat.nodeId, vl := 0, svc := 4, body := [0, (s.dev.elapse dt).lTime.toNat] } :: s.dev.out)) ∧
  (∀ s (l : Fin 6) (t1 : Nat) dt, s.dev.linkIdle l.val = true →
    Runs (.timeExchangeReq l t1 dt) s [.qtz, .lat, .out] fun e =>
      e.out = frameOut l.val (s.dev.link l.val).txNext
        { dst := 0, src := s.dev.lat.nodeId, vl := 0, svc := 4, body := [1, t1, (s.dev.elapse dt).lTime.toNat, (s.dev.elapse dt).lTime.toNat, (s.dev.elapse dt).uncOut] } :: s.dev.out) ∧
  (∀ s (l : Fin 6) (t1 t2 t3 unc : Nat) (off : Int) dt, (s.dev.link l.val).exch = some t1 → (s.dev.link l.val).delays = [] →
    s.dev.qtz.hasTime = true → s.dev.qtz.isRoot = false → s.dev.qtz.ofsValid = true → s.dev.pkg.takeStep = 0 →
    off = ((((t2 : Int) - t1) - ((s.dev.elapse dt).lTime - t3)) / 2 + (s.dev.link l.val).asym) →
    Runs (.timeExchangeAnswer l t2 t3 unc dt) s [.ctxs, .flint, .qtz, .lat, .slate, .dw, .freeN] fun e =>
      (e.link l.val).exch = none ∧ e.qtz.count = (s.dev.elapse dt).qtz.count ∧ e.qtz.rootUnc = unc ∧ e.qtz.offset = s.dev.qtz.offset ∧
      ((-1000000 ≤ off ∧ off ≤ 1000000) → e.qtz.loff = (s.dev.elapse dt).qtz.loff ∧ -100000 ≤ e.qtz.rate ∧ e.qtz.rate ≤ 100000) ∧
      ((off < -1000000 ∨ 1000000 < off) → e.qtz.loff = (s.dev.elapse dt).qtz.loff + off ∧ e.qtz.rate = s.dev.qtz.rate))

/-- LATTICE_CHECKPOINT_REQUEST that passes the checks is kept until L reaches T_c, and without a grant is not; LATTICE_CHECKPOINT_TIME then
submits a CHECKPOINT with the request's tag; LATTICE_CHECKPOINT_ANSWER records the participant; LATTICE_CHECKPOINT_TIMEOUT completes the
coordinator's command with the silent ones unreachable. REPLICA_SEND puts the oldest set page in flight. REPLICA_ACK of a page clears its
bit, unless the page was flagged for resending. SESSION_RESEND sends a setup again. PEER_UNREACHABLE pauses a stream and aborts a migration.
MIGRATION_FINAL_ACK marks it DONE. REPLICA_DATA: a setup that passes the checks opens an incoming stream, a page in MSEQ order is taken and
a later one is not, the end of a stream removes it. REMOTE_SNAPSHOT_TRIGGER schedules; REMOTE_SNAPSHOT_ANSWER records;
REMOTE_SNAPSHOT_TIMEOUT completes the command. (R357, R380, R382, R384, R385, R386, R387, R389, R390, R391, R392) -/
def Obligations.LatticeServiceRows : Prop :=
  (∀ s (l : Fin 6) (uid : Nat) (reqId : BitVec 32) (tc : Nat) (c : BitVec 14) dt, s.dev.latGate = some 0 → s.dev.qtz.hasTime = true →
    (s.dev.ctx c.toNat).state = 1 → s.dev.granted c.toNat uid 2 = true → 50000000 ≤ (tc : Int) - (s.dev.elapse dt).lTime →
    Runs (.latticeCheckpointRequest l uid reqId tc c dt) s [.flint, .qtz, .lat, .heads, .jcs, .mirror, .out] fun e =>
      e.lat.ckpts = s.dev.lat.ckpts ++ [({ reqId := reqId.toNat, tc := tc, coord := false, uid := uid, context := c.toNat } : Ckpt)]) ∧
  (∀ s (l : Fin 6) (uid : Nat) (reqId : BitVec 32) (tc : Nat) (c : BitVec 14) dt, s.dev.latGate = some 0 → s.dev.granted c.toNat uid 2 = false →
    Runs (.latticeCheckpointRequest l uid reqId tc c dt) s [.flint, .qtz, .lat, .heads, .jcs, .mirror, .out] fun e =>
      e.lat.ckpts = s.dev.lat.ckpts ∧ e.ctxs = s.dev.ctxs) ∧
  (∀ s (k : Ckpt) dt, s.dev.lat.ckpts = [k] → k.coord = false → (k.tc : Int) ≤ (s.dev.elapse dt).lTime →
    ((s.dev.ring k.context latRing).entries.any fun x : RingEntry => x.arg0 == ckptTag k.reqId k.uid) = false → (s.dev.ctx k.context).state = 1 →
    Runs (.latticeCheckpointTime dt) s [.ctxs, .flint, .qtz, .lat, .heads, .jcs, .mirror, .out] fun e =>
      ((e.ring k.context latRing).entries.getLast?.map fun x : RingEntry => (x.opc, x.arg0, x.submit)) =
        some (2, ckptTag k.reqId k.uid, (s.dev.elapse dt).now) ∧ e.lat.ckpts = [k]) ∧
  (∀ s (l : Fin 6) (uid : Nat) (reqId : BitVec 32) (c : BitVec 14) (status : BitVec 16) (ts : Nat) (k : Ckpt) dt, s.dev.lat.ckpts = [k] →
    k.coord = true → k.complete = false → k.reqId = reqId.toNat → k.parts = [{ uid := uid, context := c.toNat }] → (s.dev.bgOf k.by_).arg ≠ k.reqId →
    Runs (.latticeCheckpointAnswer l uid reqId c status ts dt) s [.flint, .qtz, .lat, .heads, .jcs, .mirror] fun e =>
      e.lat.ckpts = [{ k with complete := true, parts := [{ uid := uid, context := c.toNat, answered := true, status := status.toNat, ts := ts }] }]) ∧
  (∀ s (k : Ckpt) dt, s.dev.lat.ckpts = [k] → k.coord = true → k.complete = false → (k.tc : Int) + 10000000000 ≤ (s.dev.elapse dt).lTime →
    (s.dev.bgOf k.by_).arg ≠ k.reqId →
    Runs (.latticeCheckpointTimeout dt) s [.mem, .expo, .restore, .flash, .ctxs, .dram, .flint, .qtz, .lat, .heads, .jcs, .mirror, .dw, .out] fun e =>
      e.lat.ckpts.map (fun x : Ckpt => (x.complete, x.reqId)) = [(true, k.reqId)] ∧
      (∀ x ∈ e.lat.ckpts, ∀ p ∈ x.parts, p.answered = false → p.status = 0x11)) ∧
  (∀ s (x : Stream) (p w k o : Nat) dt, s.dev.lat.streams = [x] → x.outgoing = true → x.setup = false → x.state ≤ 1 → x.bits = [(p, w)] → x.flying = [] →
    s.dev.sealing.frozen = false → s.dev.pkg.safe = 0 → (s.dev.ctx x.local_).state = 1 → s.dev.pagePlace x.local_ p = some (k, o) → k < x.grans → s.dev.dram.repairs.contains p = false →
    Runs (.replicaSend x.session [] dt) s [.mem, .expo, .dram, .flint, .qtz, .lat, .heads, .slate, .dw, .out] fun e =>
      e.lat.streams.map (fun y : Stream => (y.flying, y.mseqTx, y.bits, y.state)) =
        [([(p, x.mseqTx, false)], (x.mseqTx + 1) % 2 ^ 32, [(p, w)], x.state)] ∧ e.mem = s.dev.mem) ∧
  (∀ s (l : Fin 6) (x : Stream) (p w : Nat) (mseq : BitVec 32) (again : Bool) (status grans : Nat) dt, s.dev.lat.streams = [x] → x.outgoing = true →
    x.state = 1 → x.migration = false → x.bits = [(p, w)] → x.flying = [(p, mseq.toNat, again)] → x.marks = [] → s.dev.sealing.frozen = false → s.dev.pkg.safe = 0 →
    Runs (.replicaAck l x.session 0 mseq status grans dt) s [.mem, .expo, .restore, .flash, .ctxs, .dram, .flint, .qtz, .lat, .heads, .jcs, .mirror, .dw, .out] fun e =>
      e.lat.streams.map (fun y : Stream => (y.flying, y.bits, y.acked, y.lastAns)) =
        [([], if again = true then [(p, w)] else [], if again = true then x.acked else x.acked + 4096, (s.dev.elapse dt).now)]) ∧
  (∀ s (x : Stream) dt, s.dev.lat.streams = [x] → x.outgoing = true → x.setup = true → x.migration = false → 5000000 ≤ (s.dev.elapse dt).now - x.lastAns →
    s.dev.sealing.frozen = false → s.dev.pkg.safe = 0 →
    Runs (.sessionResend x.session dt) s [.flint, .qtz, .lat, .out] fun e =>
      e = (s.dev.elapse dt).sendMsg x.uid 7 2 [1, x.session, 0, 0, x.local_, x.peerCtx, (s.dev.persistGrans x.local_).length]) ∧
  (∀ s (x : Stream) dt, s.dev.lat.streams = [x] → x.outgoing = true → x.setup = false → x.peerOpen = true → 10000000000 ≤ (s.dev.elapse dt).now - x.lastAns →
    x.flying ≠ [] → x.state ≤ 1 ∨ x.migration = true ∧ 0x10 ≤ x.state ∧ x.state ≤ 0x12 →
    Runs (.peerUnreachable x.uid dt) s [.flint, .qtz, .lat, .heads, .jcs, .mirror] fun e =>
      e.lat.streams.map (fun y : Stream => (y.state, y.flying)) = [(if x.migration = true then 0x14 else 2, if x.migration = true then [] else x.flying)]) ∧
  (∀ s (l : Fin 6) (x : Stream) dt, s.dev.lat.streams = [x] → x.outgoing = true → x.migration = true → x.state = 0x12 → x.finalSent = true →
    Runs (.migrationFinalAck l x.session dt) s [.flint, .qtz, .lat] fun e =>
      e.lat.streams = [{ x with state := 0x13, lastAns := (s.dev.elapse dt).now }] ∧ e.ctxs = s.dev.ctxs) ∧
  (∀ s (l : Fin 6) (uid session : Nat) (mseq : BitVec 32) (k o grans : Nat) (data : List Byte) (n : Nat) dt, s.dev.latGate = some 0 →
    s.dev.inStream uid session = none → s.dev.setupStatus uid o grans false = 0 →
    Runs (.replicaData l uid session 1 mseq k o grans data n dt) s [.mem, .expo, .restore, .ctxs, .dram, .flint, .qtz, .lat, .heads, .dw, .out] fun e =>
      e.lat.streams = s.dev.lat.streams ++ [({ session := session, outgoing := false, local_ := o, peerCtx := k, uid := uid, setup := false } : Stream)] ∧
      e.mem = s.dev.mem) ∧
  (∀ s (l : Fin 6) (uid session : Nat) (mseq : BitVec 32) (k o grans : Nat) (data : List Byte) (n g : Nat) (x : Stream) dt, s.dev.latGate = some 0 →
    s.dev.inStream uid session = some x → x.uid = uid → x.session = session → x.outgoing = false → x.state ≠ 0x14 → x.mseqRx = mseq.toNat →
    (s.dev.ctxGrans x.local_)[k]? = some g →
    Runs (.replicaData l uid session 0 mseq k o grans data n dt) s [.mem, .expo, .restore, .ctxs, .dram, .flint, .qtz, .lat, .heads, .dw, .out] fun e =>
      (e.inStream uid session).map (fun y : Stream => y.mseqRx) = some ((mseq.toNat + 1) % 2 ^ 32)) ∧
  (∀ s (l : Fin 6) (uid session : Nat) (mseq : BitVec 32) (k o grans : Nat) (data : List Byte) (n : Nat) (x : Stream) dt, s.dev.latGate = some 0 →
    s.dev.inStream uid session = some x → x.state ≠ 0x14 → x.mseqRx < mseq.toNat →
    Runs (.replicaData l uid session 0 mseq k o grans data n dt) s [.mem, .expo, .restore, .ctxs, .dram, .flint, .qtz, .lat, .heads, .dw, .out] fun e => e.mem = s.dev.mem ∧ (x.dirtied = false → e.lat.streams = s.dev.lat.streams)) ∧
  (∀ s (l : Fin 6) (uid session : Nat) (mseq : BitVec 32) (k o grans : Nat) (data : List Byte) (n : Nat) dt, s.dev.latGate = some 0 →
    (s.dev.inStream uid session).isSome = true →
    Runs (.replicaData l uid session 5 mseq k o grans data n dt) s [.mem, .expo, .restore, .ctxs, .dram, .flint, .qtz, .lat, .heads, .dw, .out] fun e =>
      e.inStream uid session = none ∧ (∀ y ∈ s.dev.lat.streams, y.outgoing = true → y ∈ e.lat.streams)) ∧
  (∀ s (l : Fin 6) (node : BitVec 12) (reqId : BitVec 32) (time : Nat) dt, s.dev.latGate = some 0 → (s.dev.elapse dt).trigCode time = 0 →
    Runs (.remoteSnapshotTrigger l node reqId time dt) s [.flint, .qtz, .snap, .lat, .dw, .out] fun e =>
      e.snap.sched = s.dev.snap.sched ++ [({ id := reqId.toNat, useL := true, time := time, owner := 3, reqNode := node.toNat } : SnapSched)] ∧
      bits (e.dwGet 0x3000 0) 8 4 = e.snap.sched.length % 16) ∧
  (∀ s (l : Fin 6) (node : BitVec 12) (reqId : BitVec 32) (code : BitVec 8) (r : SnapReq) dt, s.dev.snap.reqs = [r] → r.reqId = reqId.toNat →
    (r.answers.any fun a : Nat × Nat => a.1 == node.toNat) = false → r.nodes = [] →
    Runs (.remoteSnapshotAnswer l node reqId code dt) s [.flint, .qtz, .snap, .lat, .heads, .jcs, .out] fun e =>
      e.snap.reqs = [{ r with answers := r.answers ++ [(node.toNat, code.toNat)] }] ∧ e.out = s.dev.out) ∧
  (∀ s (l : Fin 6) (node : BitVec 12) (reqId : BitVec 32) (code : BitVec 8) (r : SnapReq) dt, s.dev.snap.reqs = [r] → r.reqId = reqId.toNat →
    r.answers = [] → r.nodes = [node.toNat] →
    Runs (.remoteSnapshotAnswer l node reqId code dt) s [.flint, .qtz, .snap, .lat, .heads, .jcs, .out] fun e =>
      e.snap.reqs = [] ∧ (r.by_ < 3 → e.out.length = s.dev.out.length + 1)) ∧
  (∀ s (r : SnapReq) dt, s.dev.snap.reqs = [r] → 1000000000 ≤ (s.dev.elapse dt).now - r.sent →
    Runs (.remoteSnapshotTimeout dt) s [.flint, .qtz, .snap, .lat, .heads, .jcs, .out] fun e => e.snap.reqs = [] ∧ (r.by_ < 3 → e.out.length = s.dev.out.length + 1))

/-- Each reading command of the identity, context, ring, exposure, energy and thermal groups that passes the checks of R403 answers SUCCESS with
the output that its row describes, laid out byte by byte: through the mailbox of a head, and to SB and LP. No other part of the device
changes than the parts that take the response. (R397, R403, R410, R412, R415, R416, R417, R418, R419, R420) -/
def Obligations.JcsReadRowsOne : Prop :=
  (∀ s (d : Dev) (b : Fin 4) uid (p : List Byte) dt, d = s.dev.elapse dt → d.admits 0xC400 (caller b uid) p = true → fieldAt p 4 4 ≤ 16384 → fieldAt p 0 4 < capList.length →
    Runs (.getCapabilities b uid p dt) s [.flint, .qtz, .lat, .heads, .jcs, .mirror, .out] fun e =>
      Answered d e b.val 0xC400 (0) 0 false ((capList.drop (fieldAt p 0 4)).take (fieldAt p 4 4))) ∧
  (∀ s (d : Dev) (b : Fin 4) uid (p : List Byte) dt, d = s.dev.elapse dt → d.admits 0xC401 (caller b uid) p = true →
    Runs (.getIdentity b uid p dt) s [.flint, .qtz, .lat, .heads, .jcs, .mirror, .out] fun e =>
      Answered d e b.val 0xC401 (0) 0 false (fields [(2, 0x1F3D), (2, 0x8800), (8, d.lat.uid)] ++ ([0x4A, 0x52, 0x4D, 0x2D, 0x38, 0x38, 0x30, 0x30, 0, 0, 0, 0, 0, 0, 0, 0] : List Byte) ++
        fields [(4, if d.runSlot = 0 then d.lrec.verA else d.lrec.verB), (1, d.runSlot), (1, d.floorPkg), (1, b.val), (1, 0), (16, d.panel.serial)])) ∧
  (∀ s (d : Dev) (b : Fin 4) uid (p : List Byte) dt, d = s.dev.elapse dt → d.admits 0xC402 (caller b uid) p = true → fieldAt p 0 4 % 8 = 0 → fieldAt p 4 4 % 8 = 0 → fieldAt p 4 4 ≤ 4096 → fieldAt p 0 4 + fieldAt p 4 4 ≤ 0x100000 → fieldAt p 0 4 ≤ 0xFFFF8 →
    Runs (.readDirectWindow b uid p dt) s [.flint, .qtz, .lat, .heads, .jcs, .mirror, .out] fun e =>
      Answered d e b.val 0xC402 (0) 0 false ((List.range (fieldAt p 4 4 / 8)).flatMap fun i : Nat => leBytes 8 (d.dwRead (if b = 1 then 1 else 0) (fieldAt p 0 4 + 8 * i)))) ∧
  (∀ s (d : Dev) (b : Fin 4) uid (p : List Byte) dt, d = s.dev.elapse dt → d.admits 0xC403 (caller b uid) p = true →
    Runs (.getBackgroundStatus b uid p dt) s [.flint, .qtz, .lat, .heads, .jcs, .mirror, .out] fun e =>
      Answered d e b.val 0xC403 (0) 0 false (fields [(2, d.jcs.sbBg.opcode), (1, d.jcs.sbBg.pct), (1, bit d.jcs.sbBg.running), (2, d.jcs.sbBg.ret), (2, d.jcs.sbBg.ext)])) ∧
  (∀ s (d : Dev) (b : Fin 4) uid (p : List Byte) dt, d = s.dev.elapse dt → d.admits 0xC418 (caller b uid) p = true →
    Runs (.getContext b uid p dt) s [.flint, .qtz, .lat, .heads, .jcs, .mirror, .out] fun e =>
      Answered d e b.val 0xC418 (0) 0 false (d.ctxEntry (fieldAt p 0 2) ++ leBytes 8 (d.xCtx (fieldAt p 0 2)))) ∧
  (∀ s (d : Dev) (b : Fin 4) uid (p : List Byte) (rs : List MeterRec) dt, d = s.dev.elapse dt → d.admits 0xC41A (caller b uid) p = true → 1 ≤ fieldAt p 24 2 → fieldAt p 24 2 ≤ 255 → fieldAt p 8 8 ≤ fieldAt p 16 8 → rs = ((d.ctx (fieldAt p 0 2)).records.reverse.filter fun r : MeterRec => decide (fieldAt p 8 8 ≤ r.start) && decide (r.start ≤ fieldAt p 16 8)) →
    Runs (.readMetering b uid p dt) s [.flint, .qtz, .lat, .heads, .jcs, .mirror, .out] fun e =>
      Answered d e b.val 0xC41A (0) 0 false (fields [(2, (rs.take (fieldAt p 24 2)).length), (6, 0), (8, ((rs.drop (fieldAt p 24 2)).map fun r : MeterRec => r.start).headD 0), (48, 0)] ++
        (rs.take (fieldAt p 24 2)).flatMap MeterRec.bytes)) ∧
  (∀ s (d : Dev) (b : Fin 4) uid (p : List Byte) dt, d = s.dev.elapse dt → d.admits 0xC41B (caller b uid) p = true → fieldAt p 0 2 < 0x4000 → 1 ≤ fieldAt p 2 2 → fieldAt p 2 2 ≤ 4096 →
    Runs (.listContexts b uid p dt) s [.flint, .qtz, .lat, .heads, .jcs, .mirror, .out] fun e =>
      Answered d e b.val 0xC41B (0) 0 false ((List.range (min (fieldAt p 2 2) (0x4000 - fieldAt p 0 2))).flatMap fun i : Nat =>
        leBytes 4 (fieldAt p 0 2 + i + put 16 4 (d.ctx (fieldAt p 0 2 + i)).state + put 20 2 (d.ctx (fieldAt p 0 2 + i)).owner))) ∧
  (∀ s (d : Dev) (b : Fin 4) uid (p : List Byte) dt, d = s.dev.elapse dt → d.admits 0xC423 (caller b uid) p = true → fieldAt p 2 1 < 64 →
    Runs (.getRing b uid p dt) s [.flint, .qtz, .lat, .heads, .jcs, .mirror, .out] fun e =>
      Answered d e b.val 0xC423 (0) 0 false (d.ring (fieldAt p 0 2) (fieldAt p 2 1)).bytes) ∧
  (∀ s (d : Dev) (b : Fin 4) uid (p : List Byte) dt, d = s.dev.elapse dt → d.admits 0xC430 (caller b uid) p = true →
    Runs (.getExposure b uid p dt) s [.flint, .qtz, .lat, .heads, .jcs, .mirror, .out] fun e =>
      Answered d e b.val 0xC430 (0) 0 false (fields [(8, d.xPkg), (8, d.expo.gov.ceiling), (8, d.expo.gov.cE), (8, d.expo.gov.cL),
        (8, if d.expo.policy.windowEn then d.expo.gov.cT else 0), (8, d.expo.gov.cP), (1, d.expo.gov.pkgState),
        (1, if d.expo.gov.relRef then 4 else d.expo.gov.bound), (1, bit (d.expo.gov.pkgState == 4)), (1, 0), (4, d.expo.gov.eAvail / 1000),
        (4, d.expo.eFixed / 1000), (4, d.expo.kSeal), (4, d.expo.landRef), (4, d.expo.gov.dE)] ++
        tiles8.flatMap fun t : Nat => fields [(8, tget d.expo.gov.tileCeil 0 t), (4, tget d.expo.gov.land 0 t), (1, tget d.expo.gov.tileState 0 t), (3, 0)])) ∧
  (∀ s (d : Dev) (b : Fin 4) uid (p : List Byte) dt, d = s.dev.elapse dt → d.admits 0xC432 (caller b uid) p = true →
    Runs (.getExposurePolicy b uid p dt) s [.flint, .qtz, .lat, .heads, .jcs, .mirror, .out] fun e =>
      Answered d e b.val 0xC432 (0) 0 false (fields [(1, 0x3F), (3, 0), (4, d.expo.policy.boundGib), (1, bit d.expo.policy.windowEn), (1, bit d.expo.policy.borrowEn), (1, bit d.expo.policy.perfEn), (1, 0), (2, d.expo.policy.dmaxH0), (2, d.expo.policy.dmaxH1)])) ∧
  (∀ s (d : Dev) (b : Fin 4) uid (p : List Byte) dt, d = s.dev.elapse dt → d.admits 0xC433 (caller b uid) p = true → fieldAt p 2 2 ≤ 256 →
    Runs (.readLapseRecords b uid p dt) s [.flint, .qtz, .lat, .heads, .jcs, .mirror, .out] fun e =>
      Answered d e b.val 0xC433 (0) 0 false (((d.expo.gov.lapses.drop (fieldAt p 0 2)).take (fieldAt p 2 2)).flatMap fun l : Lapse =>
        fields [(8, l.entry), (8, l.exit), (1, l.cause), (1, l.tile), (6, 0), (8, l.ceil), (8, l.expo), (8, l.peak)])) ∧
  (∀ s (d : Dev) (b : Fin 4) uid (p : List Byte) dt, d = s.dev.elapse dt → d.admits 0xC440 (caller b uid) p = true →
    Runs (.getGauge b uid p dt) s [.flint, .qtz, .lat, .heads, .jcs, .mirror, .out] fun e =>
      Answered d e b.val 0xC440 (0) 0 false (d.gaugeReport 0 ++ d.gaugeReport 1 ++ d.gaugeReport 2)) ∧
  (∀ s (d : Dev) (b : Fin 4) uid (p : List Byte) dt, d = s.dev.elapse dt → d.admits 0xC449 (caller b uid) p = true →
    Runs (.readGaugeRecords b uid p dt) s [.flint, .qtz, .lat, .heads, .jcs, .mirror, .out] fun e =>
      Answered d e b.val 0xC449 (0) 0 false d.energy.rec_.bytes) ∧
  (∀ s (d : Dev) (b : Fin 4) uid (p : List Byte) dt, d = s.dev.elapse dt → d.admits 0xC450 (caller b uid) p = true →
    Runs (.getThermal b uid p dt) s [.flint, .qtz, .lat, .heads, .jcs, .mirror, .out] fun e =>
      Answered d e b.val 0xC450 (0) 0 false (((List.range 72).flatMap fun i : Nat => leBytes 8 (d.dwRead 0 (0x1000 + 8 * i))) ++ (tiles8.flatMap fun t : Nat => leBytes 8 (d.dwRead 0 (0xF40 + 8 * t))) ++
        leBytes 8 (d.dwRead 0 0xF00) ++
        (tiles8.flatMap fun t : Nat => leBytes 2 (min 65535 (d.within hour (d.ttile t).crossW).length) ++ leBytes 2 (min 65535 (d.within hour (d.ttile t).crossT).length)) ++
        (tiles8.flatMap fun i : Nat => ([0, 1, 2] : List Nat).flatMap fun k : Nat =>
          leBytes 2 (min 65535 (d.within hour (((d.boardIn i).cross.filter fun e : Nat × Nat => e.1 == k).map fun e : Nat × Nat => e.2)).length)))) ∧
  (∀ s (d : Dev) (b : Fin 4) uid (p : List Byte) dt, d = s.dev.elapse dt → d.admits 0xC453 (caller b uid) p = true → fieldAt p 0 1 ≤ 64 →
    Runs (.readThermalRecords b uid p dt) s [.flint, .qtz, .lat, .heads, .jcs, .mirror, .out] fun e =>
      Answered d e b.val 0xC453 (0) 0 false ((d.therm.recs.take (fieldAt p 0 1)).flatMap ThermRec.bytes))

/-- Each reading command of the Flint, snapshot, time, lattice, rank, Strata, lease, restore and update groups that passes the checks of R403
answers SUCCESS with the output that its row describes, laid out byte by byte: through the mailbox of a head, and to SB and LP; a free bank
answers INVALID_STATE, an unknown REQ_ID INVALID_FIELD and an unknown stratum NO_STRATUM. No other part of the device changes than the parts
that take the response. (R397, R403, R421, R422, R423, R424, R425, R426, R427, R428, R429) -/
def Obligations.JcsReadRowsTwo : Prop :=
  (∀ s (d : Dev) (b : Fin 4) uid (p : List Byte) (log es : List LogEntry) dt, d = s.dev.elapse dt → d.admits 0xC460 (caller b uid) p = true → fieldAt p 0 1 ≤ 9 → fieldAt p 8 2 ≤ 511 → log = (if fieldAt p 0 1 = 9 then d.flint.prevLog else (d.coll (fieldAt p 0 1)).log).reverse → es = (log.filter fun x : LogEntry => decide (fieldAt p 4 4 ≤ x.lseq)).take (fieldAt p 8 2) →
    Runs (.readLog b uid p dt) s [.flint, .qtz, .lat, .heads, .jcs, .mirror, .out] fun e =>
      Answered d e b.val 0xC460 (0) 0 false (fields [(4, es.length), (4, (es.getLast?.map fun x : LogEntry => x.lseq + 1).getD (fieldAt p 4 4)),
        (1, bit ((log.head?.map fun x : LogEntry => decide (fieldAt p 4 4 < x.lseq)).getD false)), (23, 0)] ++ es.flatMap LogEntry.bytes)) ∧
  (∀ s (d : Dev) (b : Fin 4) uid (p : List Byte) dt, d = s.dev.elapse dt → d.admits 0xC461 (caller b uid) p = true → fieldAt p 0 1 ≤ 17 →
    Runs (.readFirstFault b uid p dt) s [.flint, .qtz, .lat, .heads, .jcs, .mirror, .out] fun e =>
      Answered d e b.val 0xC461 (0) 0 false (if fieldAt p 0 1 ≤ 8 then (d.coll (fieldAt p 0 1)).ff else tget d.flint.prevFf {} (fieldAt p 0 1 - 9)).bytes) ∧
  (∀ s (d : Dev) (b : Fin 4) uid (p : List Byte) dt, d = s.dev.elapse dt → d.admits 0xC465 (caller b uid) p = true → fieldAt p 2 2 ≤ 1024 → fieldAt p 0 2 + fieldAt p 2 2 ≤ 1024 →
    Runs (.readCounts b uid p dt) s [.flint, .qtz, .lat, .heads, .jcs, .mirror, .out] fun e =>
      Answered d e b.val 0xC465 (0) 0 false ((List.range (fieldAt p 2 2)).flatMap fun i : Nat =>
        fields [(4, tget d.flint.ce 0 (fieldAt p 0 2 + i)), (2, tget d.flint.sev2 0 (fieldAt p 0 2 + i)), (2, 0)])) ∧
  (∀ s (d : Dev) (b : Fin 4) uid (p : List Byte) (k : SnapBank) dt, d = s.dev.elapse dt → d.admits 0xC473 (caller b uid) p = true → fieldAt p 0 1 ≤ 4 → k = (if fieldAt p 0 1 = 4 then d.snap.prevBoot.getD {} else tget d.snap.banks {} (fieldAt p 0 1)) → k.state ≠ 0 →
    Runs (.readSnapshot b uid p dt) s [.flint, .qtz, .lat, .heads, .jcs, .mirror, .out] fun e =>
      Answered d e b.val 0xC473 (0) 0 false (k.header ++ sectionsIn ((k.sections.drop (fieldAt p 2 2)).take (fieldAt p 4 2)) 16320)) ∧
  (∀ s (d : Dev) (b : Fin 4) uid (p : List Byte) dt, d = s.dev.elapse dt → d.admits 0xC480 (caller b uid) p = true →
    Runs (.getTime b uid p dt) s [.flint, .qtz, .lat, .heads, .jcs, .mirror, .out] fun e =>
      Answered d e b.val 0xC480 (0) 0 false (fields [(8, d.qtz.count), (8, twos 64 d.utcNow), (8, twos 64 d.qtz.offset), (8, twos 64 d.qtz.loff), (8, d.dwRead 0 0x2040),
        (8, d.qtz.ppsEdge)])) ∧
  (∀ s (d : Dev) (b : Fin 4) uid (p : List Byte) dt, d = s.dev.elapse dt → d.admits 0xC490 (caller b uid) p = true → fieldAt p 0 2 < 4096 → fieldAt p 2 2 ≤ 4080 →
    Runs (.getLattice b uid p dt) s [.flint, .qtz, .lat, .heads, .jcs, .mirror, .out] fun e =>
      Answered d e b.val 0xC490 (0) 0 false (leBytes 8 (d.dwRead 0 0x1800) ++ (([0, 1, 2, 3, 4, 5] : List Nat).flatMap fun l : Nat => leBytes 8 (d.dwRead 0 (0x1840 + 8 * l))) ++ leBytes 8 0 ++
        (List.range (min (fieldAt p 2 2) (4096 - fieldAt p 0 2))).flatMap fun i : Nat => leBytes 4 (tget d.lat.routes {} (fieldAt p 0 2 + i)).word)) ∧
  (∀ s (d : Dev) (b : Fin 4) uid (p : List Byte) (ss : List Stream) dt, d = s.dev.elapse dt → d.admits 0xC495 (caller b uid) p = true → fieldAt p 0 1 ≤ 2 → fieldAt p 4 2 ≤ 341 → ss = d.lat.streams.filter (fun x : Stream => if fieldAt p 0 1 = 2 then x.migration else !x.migration && x.outgoing == (fieldAt p 0 1 == 0)) →
    Runs (.streamStatus b uid p dt) s [.flint, .qtz, .lat, .heads, .jcs, .mirror, .out] fun e =>
      Answered d e b.val 0xC495 (0) 0 false (((ss.drop (fieldAt p 2 2)).take (fieldAt p 4 2)).flatMap d.streamBytes)) ∧
  (∀ s (d : Dev) (b : Fin 4) uid (p : List Byte) (k : Ckpt) dt, d = s.dev.elapse dt → d.admits 0xC499 (caller b uid) p = true → d.ckptOf (caller b uid) (fieldAt p 0 4) = some k →
    Runs (.checkpointResult b uid p dt) s [.mem, .expo, .restore, .flash, .ctxs, .dram, .flint, .qtz, .lat, .heads, .jcs, .mirror, .dw, .out] fun e =>
      Answered d e b.val 0xC499 (0) 0 false (fields [(1, bit k.complete), (3, 0), (2, k.parts.length), (10, 0)] ++
        k.parts.flatMap fun x : CkptPart => fields [(8, x.uid), (2, x.context), (2, x.status), (4, 0), (8, x.ts)])) ∧
  (∀ s (d : Dev) (b : Fin 4) uid (p : List Byte) dt, d = s.dev.elapse dt → d.admits 0xC4A0 (caller b uid) p = true → fieldAt p 0 1 ≤ 7 →
    Runs (.getRanks b uid p dt) s [.flint, .qtz, .lat, .heads, .jcs, .mirror, .out] fun e =>
      Answered d e b.val 0xC4A0 (0) 0 false (leBytes 8 (d.dwRead 0 0xD00) ++ ((List.range 16).flatMap fun i : Nat => leBytes 8 (d.dwRead 0 (0x900 + fieldAt p 0 1 * 0x80 + i * 8))) ++
        (List.range 4).flatMap fun i : Nat => leBytes 8 (d.dwRead 0 (0x800 + fieldAt p 0 1 * 0x20 + i * 8)))) ∧
  (∀ s (d : Dev) (b : Fin 4) uid (p : List Byte) dt, d = s.dev.elapse dt → d.admits 0xC4A1 (caller b uid) p = true → fieldAt p 0 1 ≤ 7 → fieldAt p 1 1 ≤ 15 →
    Runs (.readRowFaults b uid p dt) s [.flint, .qtz, .lat, .heads, .jcs, .mirror, .out] fun e =>
      Answered d e b.val 0xC4A1 (0) 0 false ((d.rank (fieldAt p 0 1) (fieldAt p 1 1)).rows.flatMap fun r : BitVec 64 => leBytes 8 r.toNat)) ∧
  (∀ s (d : Dev) (b : Fin 4) uid (p : List Byte) dt, d = s.dev.elapse dt → d.admits 0xC4B0 (caller b uid) p = true →
    Runs (.getStrataStatus b uid p dt) s [.flint, .qtz, .lat, .heads, .jcs, .mirror, .out] fun e =>
      Answered d e b.val 0xC4B0 (0) 0 false (fields [(8, d.dwRead 0 0x680), (8, d.dwRead 0 0x688), (8, d.strata.wRem), (8, d.strata.borrow), (8, d.strata.bDay), (4, d.strata.waMilli),
        (1, d.strata.lifeTarget), (3, 0), (4, sumBy tiles8 fun t : Nat => (d.fl t).blocksRetired), (2, sumBy tiles8 fun t : Nat => (d.fl t).diesRetired.length)])) ∧
  (∀ s (d : Dev) (b : Fin 4) uid (p : List Byte) (all ss : List Stratum) dt, d = s.dev.elapse dt → d.admits 0xC4B2 (caller b uid) p = true → fieldAt p 4 2 ≤ 511 → all = sortLe (fun x y : Stratum => decide (y.time ≤ x.time)) (d.strataOf (fieldAt p 0 2)) → ss = (all.drop (fieldAt p 2 2)).take (fieldAt p 4 2) →
    Runs (.listStrata b uid p dt) s [.flint, .qtz, .lat, .heads, .jcs, .mirror, .out] fun e =>
      Answered d e b.val 0xC4B2 (0) 0 false (fields [(2, ss.length), (30, 0)] ++ ss.flatMap fun x : Stratum => fields [(8, x.time), (8, x.tag), (1, bit x.damaged), (7, 0), (8, x.damage.length)])) ∧
  (∀ s (d : Dev) (b : Fin 4) uid (p : List Byte) (x : Stratum) (ps : List Nat) dt, d = s.dev.elapse dt → d.admits 0xC4B4 (caller b uid) p = true → fieldAt p 20 2 ≤ 2046 → d.stratumAt (fieldAt p 0 2) (fieldAt p 8 8) = some x → ps = (x.damage.drop (fieldAt p 16 4)).take (fieldAt p 20 2) →
    Runs (.readDamageList b uid p dt) s [.flint, .qtz, .lat, .heads, .jcs, .mirror, .out] fun e =>
      Answered d e b.val 0xC4B4 (0) 0 false (fields [(4, ps.length), (12, 0)] ++ ps.flatMap fun q : Nat => leBytes 8 q)) ∧
  (∀ s (d : Dev) (b : Fin 4) uid (p : List Byte) (l : Lease_) dt, d = s.dev.elapse dt → d.admits 0xC4C2 (caller b uid) p = true → fieldAt p 0 2 ≤ 0x4005 → l = d.lease (fieldAt p 0 2) →
    Runs (.query b uid p dt) s [.flint, .qtz, .lat, .heads, .jcs, .mirror, .out] fun e =>
      Answered d e b.val 0xC4C2 (0) 0 false (fields [(1, l.holder), (7, 0), (8, l.uid), (8, if l.holder = 255 then 0 else l.acquired), (8, if l.holder = 255 then 0 else l.last + l.timeoutS * 1000000000)])) ∧
  (∀ s (d : Dev) (b : Fin 4) uid (p : List Byte) dt, d = s.dev.elapse dt → d.admits 0xC4D0 (caller b uid) p = true →
    Runs (.getRestoreStatus b uid p dt) s [.flint, .qtz, .lat, .heads, .jcs, .mirror, .out] fun e =>
      Answered d e b.val 0xC4D0 (0) 0 false (fields [(8, d.dwRead 0 0x640), (8, d.dwRead 0 0x648)] ++ (([1, 2, 3, 4, 5, 6] : List Nat).flatMap fun k : Nat => leBytes 8 (tget d.restore.phaseEnd 0 k)) ++
        fields [(8, d.restore.bulkBytes), (8, d.restore.fetchBytes), (4, d.restore.dsCount)])) ∧
  (∀ s (d : Dev) (b : Fin 4) uid (p : List Byte) (all : List PoisonRange) dt, d = s.dev.elapse dt → d.admits 0xC4D1 (caller b uid) p = true → fieldAt p 4 2 ≤ 682 → all = (if b = 2 then d.poisonAll else d.poisonAll.filter fun r : PoisonRange => r.context != 65535 && (d.ctx r.context).owner == b.val + 1) →
    Runs (.readPoisonList b uid p dt) s [.flint, .qtz, .lat, .heads, .jcs, .mirror, .out] fun e =>
      Answered d e b.val 0xC4D1 (0) 0 false (fields [(4, all.length), (12, 0)] ++ ((all.drop (fieldAt p 0 4)).take (fieldAt p 4 2)).flatMap fun r : PoisonRange =>
        fields [(8, r.dpa), (8, r.len), (2, r.context), (1, r.cause), (5, 0)])) ∧
  (∀ s (d : Dev) (b : Fin 4) uid (p : List Byte) dt, d = s.dev.elapse dt → d.admits 0xC4D2 (caller b uid) p = true → fieldAt p 1 1 ≤ 63 →
    Runs (.readSealRecords b uid p dt) s [.flint, .qtz, .lat, .heads, .jcs, .mirror, .out] fun e =>
      Answered d e b.val 0xC4D2 (0) 0 false (((d.sealing.last.drop (fieldAt p 0 1)).take (fieldAt p 1 1)).flatMap SealRec.bytes)) ∧
  (∀ s (d : Dev) (b : Fin 4) uid (p : List Byte) dt, d = s.dev.elapse dt → d.admits 0xC4E0 (caller b uid) p = true →
    Runs (.getUpdateStatus b uid p dt) s [.flint, .qtz, .lat, .heads, .jcs, .mirror, .out] fun e =>
      Answered d e b.val 0xC4E0 (0) 0 false (fields [(1, d.runSlot), (1, d.lrec.stateA), (1, d.lrec.stateB), (1, d.lrec.tries), (4, d.windowNs / 1000000), (1, d.lrec.owner), (3, 0),
        (4, d.lrec.committed)])) ∧
  (∀ s (d : Dev) (b : Fin 4) uid (p : List Byte) dt, d = s.dev.elapse dt → d.admits 0xC473 (caller b uid) p = true → fieldAt p 0 1 ≤ 4 → (if fieldAt p 0 1 = 4 then d.snap.prevBoot.getD {} else tget d.snap.banks {} (fieldAt p 0 1)).state = 0 →
    Runs (.readSnapshot b uid p dt) s [.flint, .qtz, .lat, .heads, .jcs, .mirror, .out] fun e =>
      Answered d e b.val 0xC473 (retOf 4) 4 false []) ∧
  (∀ s (d : Dev) (b : Fin 4) uid (p : List Byte) dt, d = s.dev.elapse dt → d.admits 0xC499 (caller b uid) p = true → d.ckptOf (caller b uid) (fieldAt p 0 4) = none →
    Runs (.checkpointResult b uid p dt) s [.mem, .expo, .restore, .flash, .ctxs, .dram, .flint, .qtz, .lat, .heads, .jcs, .mirror, .dw, .out] fun e =>
      Answered d e b.val 0xC499 (retOf 2) 2 false []) ∧
  (∀ s (d : Dev) (b : Fin 4) uid (p : List Byte) dt, d = s.dev.elapse dt → d.admits 0xC4B4 (caller b uid) p = true → fieldAt p 20 2 ≤ 2046 → d.stratumAt (fieldAt p 0 2) (fieldAt p 8 8) = none →
    Runs (.readDamageList b uid p dt) s [.flint, .qtz, .lat, .heads, .jcs, .mirror, .out] fun e =>
      Answered d e b.val 0xC4B4 (retOf 16) 16 false [])

/-- For every caller and payload that pass the checks of R403: Create makes a FREE context ACTIVE with its owner, retention and key; Assign, Set
class and Set owner put the Region Table changes that R177, R179 and R180 describe before their commit, and no entry changes yet; Release
asks the host back for the granules, or with FORCE takes them; Disable begins QUIESCING; Enable and Sanitize leave DISABLED; Set retention,
Configure ring, Disable ring and Set interrupts write the fields of their rows and nothing else. A context or ring in another state answers
INVALID_STATE, a lost key KEY_LOST for all of them but Disable, Sanitize and the ring commands, a granule that cannot be assigned
INVALID_RANGE, a ring outside R184 INVALID_FIELD, each changing no context. (R175, R177, R178, R179, R180, R183, R184, R185, R203, R205,
R416, R417) -/
def Obligations.ContextAndRingCommands : Prop :=
  (∀ s (d : Dev) (b : Fin 4) uid (p : List Byte) (c : Nat) dt, d = s.dev.elapse dt → d.admits 0xC410 (caller b uid) p = true → c = fieldAt p 0 2 → (fieldAt p 2 1 = 1 ∨ fieldAt p 2 1 = 2) → fieldAt p 4 2 ≤ 1024 → (d.ctx c).state = 0 →
    Runs (.create b uid p dt) s [.mem, .expo, .restore, .flash, .ctxs, .dram, .flint, .qtz, .lat, .heads, .jcs, .mirror, .dw, .out, .freeN] fun e =>
      Answered d e b.val 0xC410 (0) 0 false (leBytes 1 (d.ctx c).gen) ∧
      (e.ctx c).state = 1 ∧ (e.ctx c).owner = fieldAt p 2 1 ∧ (e.ctx c).retainCount = (if fieldAt p 4 2 = 0 then 8 else fieldAt p 4 2) ∧
      (e.ctx c).retainAge = fieldAt p 8 4 ∧ (e.ctx c).keyValid = 0xFF ∧ (e.ctx c).keyMeta = true ∧ (e.ctx c).keyLost = false ∧ (e.ctx c).rings = [] ∧
      (e.ctx c).gen = (d.ctx c).gen ∧ (e.ctx c).tState = d.now ∧ e.ctxs.rt = d.ctxs.rt ∧ (∀ k : Nat, k < 0x4000 → k ≠ c → e.ctx k = d.ctx k)) ∧
  (∀ s (d : Dev) (b : Fin 4) uid (p : List Byte) dt, d = s.dev.elapse dt → d.admits 0xC410 (caller b uid) p = true → (fieldAt p 2 1 = 1 ∨ fieldAt p 2 1 = 2) → fieldAt p 4 2 ≤ 1024 → (d.ctx (fieldAt p 0 2)).state ≠ 0 →
    Runs (.create b uid p dt) s [.mem, .expo, .restore, .flash, .ctxs, .dram, .flint, .qtz, .lat, .heads, .jcs, .mirror, .dw, .out, .freeN] fun e =>
      Answered d e b.val 0xC410 (retOf 4) 4 false [] ∧
      e.ctxs = d.ctxs) ∧
  (∀ s (d : Dev) (b : Fin 4) uid (p : List Byte) (c : Nat) (es : List (Nat × Nat)) dt, d = s.dev.elapse dt → d.admits 0xC411 (caller b uid) p = true → c = fieldAt p 0 2 → es = granClasses p → es.length = fieldAt p 2 2 → es ≠ [] → es.length ≤ 4094 → 8 + 4 * es.length ≤ p.length → (∀ x ∈ es, 1 ≤ x.2 ∧ x.2 ≤ 3) → (es.map (fun x : Nat × Nat => x.1)).eraseDups.length = es.length → (∀ x ∈ es, d.backed x.1 = true ∧ (d.gran x.1).valid = false ∧ d.granPend x.1 = false ∧ ∀ t ∈ d.granTiles x.1, (d.tile t).isolated = false) → ((d.ctx c).state = 1 ∨ (d.ctx c).state = 3) → (d.ctx c).keyLost = false →
    Runs (.assign b uid p dt) s [.mem, .expo, .restore, .flash, .ctxs, .dram, .flint, .qtz, .lat, .heads, .jcs, .mirror, .dw, .out] fun e =>
      Answered d e b.val 0xC411 (1) 0 true [] ∧
      e.ctxs.rtPend = d.ctxs.rtPend ++ es.map (fun x : Nat × Nat => ({ granule := x.1, entry := { valid := true, head := (d.ctx c).owner, cls := x.2, context := c }, zero := true, waitFill := true, offer := (d.ctx c).owner } : RtChange)) ∧
      e.ctxs.rt = d.ctxs.rt ∧ e.ctxs.tbl = d.ctxs.tbl ∧ (e.bgOf b.val).running = true ∧ (e.bgOf b.val).opcode = 0xC411) ∧
  (∀ s (d : Dev) (b : Fin 4) uid (p : List Byte) (g k : Nat) dt, d = s.dev.elapse dt → d.admits 0xC411 (caller b uid) p = true → granClasses p = [(g, k)] → fieldAt p 2 2 = 1 → 12 ≤ p.length → 1 ≤ k → k ≤ 3 → ((d.ctx (fieldAt p 0 2)).state = 1 ∨ (d.ctx (fieldAt p 0 2)).state = 3) → (d.ctx (fieldAt p 0 2)).keyLost = false → (d.backed g = false ∨ (d.gran g).valid = true) →
    Runs (.assign b uid p dt) s [.mem, .expo, .restore, .flash, .ctxs, .dram, .flint, .qtz, .lat, .heads, .jcs, .mirror, .dw, .out] fun e =>
      Answered d e b.val 0xC411 (retOf 3) 3 false [] ∧
      e.ctxs = d.ctxs) ∧
  (∀ s (d : Dev) (b : Fin 4) uid (p : List Byte) (c : Nat) (h : Nat) (gs : List Nat) dt, d = s.dev.elapse dt → d.admits 0xC412 (caller b uid) p = true → c = fieldAt p 0 2 → gs = releaseList p → 1 ≤ fieldAt p 4 4 → fieldAt p 4 4 ≤ 3600 → 1 ≤ fieldAt p 8 2 → fieldAt p 8 2 ≤ 8186 → 12 + 2 * fieldAt p 8 2 ≤ p.length → gs.eraseDups.length = gs.length → (gs.all fun g : Nat => (d.gran g).valid && (d.gran g).context == c && !d.granPend g) = true → (fieldAt p 2 1).testBit 0 = false → (d.ctx c).keyLost = false → h = (d.ctx c).owner - 1 → h < 2 →
    Runs (.release b uid p dt) s [.mem, .expo, .restore, .flash, .ctxs, .dram, .flint, .qtz, .lat, .heads, .jcs, .mirror, .dw, .out] fun e =>
      Answered d e b.val 0xC412 (1) 0 true [] ∧
      (e.head h).dcOffers = (d.head h).dcOffers ++ [({ release := true, context := c, granules := gs, deadline := some (d.now + fieldAt p 4 4 * 1000000000), by_ := b.val } : DcOffer)] ∧
      (e.ctx c).dcPending = true ∧ e.ctxs.rt = d.ctxs.rt ∧ e.ctxs.rtPend = d.ctxs.rtPend ∧ (e.bgOf b.val).running = true ∧ (e.bgOf b.val).opcode = 0xC412) ∧
  (∀ s (d : Dev) (b : Fin 4) uid (p : List Byte) (c : Nat) (h : Nat) (gs : List Nat) dt, d = s.dev.elapse dt → d.admits 0xC412 (caller b uid) p = true → c = fieldAt p 0 2 → gs = releaseList p → 1 ≤ fieldAt p 4 4 → fieldAt p 4 4 ≤ 3600 → 1 ≤ fieldAt p 8 2 → fieldAt p 8 2 ≤ 8186 → 12 + 2 * fieldAt p 8 2 ≤ p.length → gs.eraseDups.length = gs.length → (gs.all fun g : Nat => (d.gran g).valid && (d.gran g).context == c && !d.granPend g) = true → (fieldAt p 2 1).testBit 0 = true → (d.ctx c).keyLost = false → h = (d.ctx c).owner - 1 → h < 2 →
    Runs (.release b uid p dt) s [.mem, .expo, .restore, .flash, .ctxs, .dram, .flint, .qtz, .lat, .heads, .jcs, .mirror, .dw, .out] fun e =>
      Answered d e b.val 0xC412 (1) 0 true [] ∧
      e.ctxs.rtPend = d.ctxs.rtPend ++ gs.map (fun g : Nat => ({ granule := g, entry := {}, trim := true } : RtChange)) ∧ e.ctxs.rt = d.ctxs.rt ∧
      (e.head h).extents = (d.head h).extents.filter (fun x : Nat × Nat => !gs.contains x.1) ∧ Out.dcEvent h true c gs ∈ e.out ∧ (e.bgOf b.val).running = true ∧ (e.bgOf b.val).opcode = 0xC412) ∧
  (∀ s (d : Dev) (b : Fin 4) uid (p : List Byte) (c g k : Nat) dt, d = s.dev.elapse dt → d.admits 0xC413 (caller b uid) p = true → c = fieldAt p 0 2 → granClasses p = [(g, k)] → fieldAt p 2 2 = 1 → 12 ≤ p.length → 1 ≤ k → k ≤ 3 → (d.gran g).valid = true → (d.gran g).context = c → d.granPend g = false → (d.ctx c).keyLost = false →
    Runs (.setClass b uid p dt) s [.mem, .expo, .restore, .flash, .ctxs, .dram, .flint, .qtz, .lat, .heads, .jcs, .mirror, .dw, .out] fun e =>
      Answered d e b.val 0xC413 (1) 0 true [] ∧
      e.ctxs.rtPend = d.ctxs.rtPend ++ [({ granule := g, entry := { d.gran g with cls := k }, zero := (d.gran g).cls == 3 && k != 3, waitFill := (d.gran g).cls == 3 && k != 3, trim := (d.gran g).cls != 3 && k == 3 } : RtChange)] ∧
      e.ctxs.rt = d.ctxs.rt ∧ e.ctxs.tbl = d.ctxs.tbl ∧ (e.bgOf b.val).running = true ∧ (e.bgOf b.val).opcode = 0xC413) ∧
  (∀ s (d : Dev) (b : Fin 4) uid (p : List Byte) (c n h : Nat) dt, d = s.dev.elapse dt → d.admits 0xC414 (caller b uid) p = true → c = fieldAt p 0 2 → n = fieldAt p 2 1 → (n = 1 ∨ n = 2) → (d.ctx c).state = 3 → (d.ctx c).keyLost = false → h = (d.ctx c).owner - 1 → h < 2 →
    Runs (.setOwner b uid p dt) s [.mem, .expo, .restore, .flash, .ctxs, .dram, .flint, .qtz, .lat, .heads, .jcs, .mirror, .dw, .out] fun e =>
      Answered d e b.val 0xC414 (1) 0 true [] ∧
      (e.ctx c).owner = n ∧ (e.ctx c).rings = [] ∧ (e.ctx c).state = 3 ∧ e.ctxs.rt = d.ctxs.rt ∧
      e.ctxs.rtPend = d.ctxs.rtPend ++ (d.ctxGrans c).map (fun g : Nat => ({ granule := g, entry := { d.gran g with head := n }, offer := n } : RtChange)) ∧
      (e.head h).extents = (d.head h).extents.filter (fun x : Nat × Nat => !(d.ctxGrans c).contains x.1) ∧ (e.bgOf b.val).running = true ∧ (e.bgOf b.val).opcode = 0xC414) ∧
  (∀ s (d : Dev) (b : Fin 4) uid (p : List Byte) dt, d = s.dev.elapse dt → d.admits 0xC414 (caller b uid) p = true → (fieldAt p 2 1 = 1 ∨ fieldAt p 2 1 = 2) → (d.ctx (fieldAt p 0 2)).state ≠ 3 →
    Runs (.setOwner b uid p dt) s [.mem, .expo, .restore, .flash, .ctxs, .dram, .flint, .qtz, .lat, .heads, .jcs, .mirror, .dw, .out] fun e =>
      Answered d e b.val 0xC414 (retOf 4) 4 false [] ∧
      e.ctxs = d.ctxs) ∧
  (∀ s (d : Dev) (b : Fin 4) uid (p : List Byte) (c : Nat) dt, d = s.dev.elapse dt → d.admits 0xC415 (caller b uid) p = true → c = fieldAt p 0 2 → ((d.ctx c).state = 1 ∨ (d.ctx c).state = 5) →
    Runs (.disable b uid p dt) s [.mem, .expo, .restore, .flash, .ctxs, .dram, .flint, .qtz, .lat, .heads, .jcs, .mirror, .dw, .out] fun e =>
      Answered d e b.val 0xC415 (1) 0 true [] ∧
      (e.ctx c).state = 2 ∧ (e.ctx c).tState = d.now ∧ (e.ctx c).owner = (d.ctx c).owner ∧ e.ctxs.rt = d.ctxs.rt ∧ (e.bgOf b.val).running = true ∧ (e.bgOf b.val).opcode = 0xC415) ∧
  (∀ s (d : Dev) (b : Fin 4) uid (p : List Byte) dt, d = s.dev.elapse dt → d.admits 0xC415 (caller b uid) p = true → (d.ctx (fieldAt p 0 2)).state ≠ 1 → (d.ctx (fieldAt p 0 2)).state ≠ 5 →
    Runs (.disable b uid p dt) s [.mem, .expo, .restore, .flash, .ctxs, .dram, .flint, .qtz, .lat, .heads, .jcs, .mirror, .dw, .out] fun e =>
      Answered d e b.val 0xC415 (retOf 4) 4 false [] ∧
      e.ctxs = d.ctxs) ∧
  (∀ s (d : Dev) (b : Fin 4) uid (p : List Byte) (c : Nat) dt, d = s.dev.elapse dt → d.admits 0xC416 (caller b uid) p = true → c = fieldAt p 0 2 → (d.ctx c).state = 3 → (d.ctx c).keyLost = false → d.lat.streams = [] →
    Runs (.enable b uid p dt) s [.mem, .expo, .restore, .flash, .ctxs, .dram, .flint, .qtz, .lat, .heads, .jcs, .mirror, .dw, .out] fun e =>
      Answered d e b.val 0xC416 (0) 0 false [] ∧
      (e.ctx c).state = 1 ∧ (e.ctx c).tState = d.now ∧ (e.ctx c).rings = (d.ctx c).rings ∧ e.ctxs.rt = d.ctxs.rt ∧ (∀ k : Nat, k < 0x4000 → k ≠ c → e.ctx k = d.ctx k)) ∧
  (∀ s (d : Dev) (b : Fin 4) uid (p : List Byte) dt, d = s.dev.elapse dt → d.admits 0xC416 (caller b uid) p = true → (d.ctx (fieldAt p 0 2)).state = 3 → (d.ctx (fieldAt p 0 2)).keyLost = true →
    Runs (.enable b uid p dt) s [.mem, .expo, .restore, .flash, .ctxs, .dram, .flint, .qtz, .lat, .heads, .jcs, .mirror, .dw, .out] fun e =>
      Answered d e b.val 0xC416 (retOf 0x13) 0x13 false [] ∧
      e.ctxs = d.ctxs) ∧
  (∀ s (d : Dev) (b : Fin 4) uid (p : List Byte) (g k : Nat) dt, d = s.dev.elapse dt → d.admits 0xC411 (caller b uid) p = true → granClasses p = [(g, k)] → fieldAt p 2 2 = 1 → 12 ≤ p.length → 1 ≤ k → k ≤ 3 → ((d.ctx (fieldAt p 0 2)).state = 1 ∨ (d.ctx (fieldAt p 0 2)).state = 3) → (d.ctx (fieldAt p 0 2)).keyLost = true →
    Runs (.assign b uid p dt) s [.mem, .expo, .restore, .flash, .ctxs, .dram, .flint, .qtz, .lat, .heads, .jcs, .mirror, .dw, .out] fun e =>
      Answered d e b.val 0xC411 (retOf 0x13) 0x13 false [] ∧
      e.ctxs = d.ctxs) ∧
  (∀ s (d : Dev) (b : Fin 4) uid (p : List Byte) dt, d = s.dev.elapse dt → d.admits 0xC412 (caller b uid) p = true → 1 ≤ fieldAt p 4 4 → fieldAt p 4 4 ≤ 3600 → 1 ≤ fieldAt p 8 2 → fieldAt p 8 2 ≤ 8186 → 12 + 2 * fieldAt p 8 2 ≤ p.length → (d.ctx (fieldAt p 0 2)).keyLost = true →
    Runs (.release b uid p dt) s [.mem, .expo, .restore, .flash, .ctxs, .dram, .flint, .qtz, .lat, .heads, .jcs, .mirror, .dw, .out] fun e =>
      Answered d e b.val 0xC412 (retOf 0x13) 0x13 false [] ∧
      e.ctxs = d.ctxs) ∧
  (∀ s (d : Dev) (b : Fin 4) uid (p : List Byte) (g k : Nat) dt, d = s.dev.elapse dt → d.admits 0xC413 (caller b uid) p = true → granClasses p = [(g, k)] → fieldAt p 2 2 = 1 → 12 ≤ p.length → 1 ≤ k → k ≤ 3 → (d.ctx (fieldAt p 0 2)).keyLost = true →
    Runs (.setClass b uid p dt) s [.mem, .expo, .restore, .flash, .ctxs, .dram, .flint, .qtz, .lat, .heads, .jcs, .mirror, .dw, .out] fun e =>
      Answered d e b.val 0xC413 (retOf 0x13) 0x13 false [] ∧
      e.ctxs = d.ctxs) ∧
  (∀ s (d : Dev) (b : Fin 4) uid (p : List Byte) dt, d = s.dev.elapse dt → d.admits 0xC414 (caller b uid) p = true → (fieldAt p 2 1 = 1 ∨ fieldAt p 2 1 = 2) → (d.ctx (fieldAt p 0 2)).state = 3 → (d.ctx (fieldAt p 0 2)).keyLost = true →
    Runs (.setOwner b uid p dt) s [.mem, .expo, .restore, .flash, .ctxs, .dram, .flint, .qtz, .lat, .heads, .jcs, .mirror, .dw, .out] fun e =>
      Answered d e b.val 0xC414 (retOf 0x13) 0x13 false [] ∧
      e.ctxs = d.ctxs) ∧
  (∀ s (d : Dev) (b : Fin 4) uid (p : List Byte) dt, d = s.dev.elapse dt → d.admits 0xC419 (caller b uid) p = true → 1 ≤ fieldAt p 2 2 → fieldAt p 2 2 ≤ 1024 → (d.ctx (fieldAt p 0 2)).state ≠ 0 → (d.ctx (fieldAt p 0 2)).keyLost = true →
    Runs (.setRetention b uid p dt) s [.mem, .expo, .restore, .flash, .ctxs, .dram, .flint, .qtz, .lat, .heads, .jcs, .mirror, .dw, .out] fun e =>
      Answered d e b.val 0xC419 (retOf 0x13) 0x13 false [] ∧
      e.ctxs = d.ctxs) ∧
  (∀ s (d : Dev) (b : Fin 4) uid (p : List Byte) (c : Nat) dt, d = s.dev.elapse dt → d.admits 0xC417 (caller b uid) p = true → c = fieldAt p 0 2 → (d.ctx c).state = 3 →
    Runs (.sanitize b uid p dt) s [.expo, .flash, .ctxs, .flint, .qtz, .lat, .heads, .jcs, .mirror, .out] fun e =>
      Answered d e b.val 0xC417 (1) 0 true [] ∧
      (e.ctx c).state = 4 ∧ (e.ctx c).sanStep = 1 ∧ e.ctxs.rt = d.ctxs.rt ∧ (∀ k : Nat, k < 0x4000 → k ≠ c → e.ctx k = d.ctx k) ∧ (e.bgOf b.val).running = true ∧ (e.bgOf b.val).opcode = 0xC417) ∧
  (∀ s (d : Dev) (b : Fin 4) uid (p : List Byte) dt, d = s.dev.elapse dt → d.admits 0xC417 (caller b uid) p = true → (d.ctx (fieldAt p 0 2)).state ≠ 3 →
    Runs (.sanitize b uid p dt) s [.expo, .flash, .ctxs, .flint, .qtz, .lat, .heads, .jcs, .mirror, .out] fun e =>
      Answered d e b.val 0xC417 (retOf 4) 4 false [] ∧
      e.ctxs = d.ctxs) ∧
  (∀ s (d : Dev) (b : Fin 4) uid (p : List Byte) (c : Nat) dt, d = s.dev.elapse dt → d.admits 0xC419 (caller b uid) p = true → c = fieldAt p 0 2 → 1 ≤ fieldAt p 2 2 → fieldAt p 2 2 ≤ 1024 → (d.ctx c).state ≠ 0 → (d.ctx c).keyLost = false →
    Runs (.setRetention b uid p dt) s [.mem, .expo, .restore, .flash, .ctxs, .dram, .flint, .qtz, .lat, .heads, .jcs, .mirror, .dw, .out] fun e =>
      Answered d e b.val 0xC419 (0) 0 false [] ∧
      e.ctx c = { d.ctx c with retainCount := fieldAt p 2 2, retainAge := fieldAt p 4 4 } ∧ e.strata = d.strata ∧ (∀ k : Nat, k < 0x4000 → k ≠ c → e.ctx k = d.ctx k)) ∧
  (∀ s (d : Dev) (b : Fin 4) uid (p : List Byte) (c k : Nat) dt, d = s.dev.elapse dt → d.admits 0xC420 (caller b uid) p = true → c = fieldAt p 0 2 → k = fieldAt p 2 1 → k < 64 → 4 ≤ fieldAt p 24 1 → fieldAt p 24 1 ≤ 12 → fieldAt p 8 8 % 4096 = 0 → fieldAt p 16 8 % 4096 = 0 → d.inCtx c (fieldAt p 8 8) (64 * 2 ^ min (fieldAt p 24 1) 12) = true → d.inCtx c (fieldAt p 16 8) (32 * 2 ^ min (fieldAt p 24 1) 12) = true → (fieldAt p 26 2 = 0xFFFF ∨ 16 ≤ fieldAt p 26 2 ∧ fieldAt p 26 2 ≤ 2047) → fieldAt p 28 2 ≤ 4096 → fieldAt p 30 2 ≤ 10000 → ((d.ring c k).state = 0 ∨ (d.ring c k).state = 3) →
    Runs (.configureRing b uid p dt) s [.expo, .flash, .ctxs, .flint, .qtz, .lat, .heads, .jcs, .mirror, .out] fun e =>
      Answered d e b.val 0xC420 (0) 0 false [] ∧
      e.ring c k = ({ seq := ((d.ring c k).seq + 1) % 65536, sqBase := fieldAt p 8 8, cqBase := fieldAt p 16 8, sizeLog2 := fieldAt p 24 1, state := 1, vector := fieldAt p 26 2, coalCount := fieldAt p 28 2, coalTime := fieldAt p 30 2, phase := true, tConfig := d.now } : Ring) ∧
      e.ctxs.rt = d.ctxs.rt ∧ (∀ j : Nat, j < 64 → j ≠ k → e.ring c j = d.ring c j)) ∧
  (∀ s (d : Dev) (b : Fin 4) uid (p : List Byte) (c k : Nat) dt, d = s.dev.elapse dt → d.admits 0xC420 (caller b uid) p = true → c = fieldAt p 0 2 → k = fieldAt p 2 1 → (64 ≤ k ∨ fieldAt p 24 1 < 4 ∨ 12 < fieldAt p 24 1 ∨ fieldAt p 8 8 % 4096 ≠ 0 ∨ fieldAt p 16 8 % 4096 ≠ 0 ∨ ((d.ring c k).state ≠ 0 ∧ (d.ring c k).state ≠ 3)) →
    Runs (.configureRing b uid p dt) s [.expo, .flash, .ctxs, .flint, .qtz, .lat, .heads, .jcs, .mirror, .out] fun e =>
      Answered d e b.val 0xC420 (retOf 2) 2 false [] ∧
      e.ctxs = d.ctxs) ∧
  (∀ s (d : Dev) (b : Fin 4) uid (p : List Byte) (c k : Nat) dt, d = s.dev.elapse dt → d.admits 0xC421 (caller b uid) p = true → c = fieldAt p 0 2 → k = fieldAt p 2 1 → k < 64 → ((d.ring c k).state = 1 ∨ (d.ring c k).state = 4) →
    Runs (.disableRing b uid p dt) s [.mem, .expo, .restore, .flash, .ctxs, .dram, .flint, .qtz, .lat, .heads, .jcs, .mirror, .dw, .out] fun e =>
      Answered d e b.val 0xC421 (1) 0 true [] ∧
      (e.ring c k).state = 2 ∧ (e.ring c k).sqTail = (d.ring c k).sqTail ∧ (e.ring c k).sqHead = (d.ring c k).sqHead ∧ e.ctxs.rt = d.ctxs.rt ∧ (e.bgOf b.val).running = true ∧ (e.bgOf b.val).opcode = 0xC421) ∧
  (∀ s (d : Dev) (b : Fin 4) uid (p : List Byte) dt, d = s.dev.elapse dt → d.admits 0xC421 (caller b uid) p = true → fieldAt p 2 1 < 64 → (d.ring (fieldAt p 0 2) (fieldAt p 2 1)).state ≠ 1 → (d.ring (fieldAt p 0 2) (fieldAt p 2 1)).state ≠ 4 →
    Runs (.disableRing b uid p dt) s [.mem, .expo, .restore, .flash, .ctxs, .dram, .flint, .qtz, .lat, .heads, .jcs, .mirror, .dw, .out] fun e =>
      Answered d e b.val 0xC421 (retOf 4) 4 false [] ∧
      e.ctxs = d.ctxs) ∧
  (∀ s (d : Dev) (b : Fin 4) uid (p : List Byte) (c k : Nat) dt, d = s.dev.elapse dt → d.admits 0xC422 (caller b uid) p = true → c = fieldAt p 0 2 → k = fieldAt p 2 1 → k < 64 → (fieldAt p 4 2 = 0xFFFF ∨ 16 ≤ fieldAt p 4 2 ∧ fieldAt p 4 2 ≤ 2047) → fieldAt p 6 2 ≤ 4096 → fieldAt p 8 2 ≤ 10000 →
    Runs (.setInterrupts b uid p dt) s [.expo, .flash, .ctxs, .flint, .qtz, .lat, .heads, .jcs, .mirror, .out] fun e =>
      Answered d e b.val 0xC422 (0) 0 false [] ∧
      e.ring c k = { d.ring c k with vector := fieldAt p 4 2, coalCount := fieldAt p 6 2, coalTime := fieldAt p 8 2 } ∧ e.ctxs.rt = d.ctxs.rt ∧ (∀ j : Nat, j < 64 → j ≠ k → e.ring c j = d.ring c j))

/-- For every caller and payload that pass the checks of R403, with the leases that their rows ask for: the policy commands write the fields
that MASK selects, keep the others, and make the record due; a value or an ordering outside R76 or R307 answers INVALID_FIELD and changes
nothing. Request release is refused with BAY_BUSY under HOLD or while the lock engages, changes nothing on a bay EMPTY, WAITING or GRANTED,
is granted at exposure 0 and waits where exposure is not below the ceiling without the pack. Set hold writes HOLD. A capacity test starts
where R270 allows it and else answers BAY_BUSY; a stop ends it. A test seal begins, or answers GOVERNOR_STATE, BAY_BUSY, NOT_READY or
NO_ENERGY in that order. Bay, bridge, chemistry and board values wait for the moment that R288 and R307 give. (R76, R77, R103, R104, R254,
R270, R280, R283, R288, R307, R418, R419) -/
def Obligations.PolicyEnergyAndThermalCommands : Prop :=
  (∀ s (d : Dev) (b : Fin 4) uid (p : List Byte) (m : Nat) dt, d = s.dev.elapse dt → d.admits 0xC431 (caller b uid) p = true → m = fieldAt p 0 1 → (m.testBit 0 = true → 16 ≤ fieldAt p 4 4 ∧ fieldAt p 4 4 ≤ 32768) → (m.testBit 1 = true → 0 ≤ fieldAt p 8 1 ∧ fieldAt p 8 1 ≤ 1) → (m.testBit 2 = true → 1 ≤ fieldAt p 12 2 ∧ fieldAt p 12 2 ≤ 400) → (m.testBit 3 = true → 1 ≤ fieldAt p 14 2 ∧ fieldAt p 14 2 ≤ 400) → (m.testBit 4 = true → 0 ≤ fieldAt p 9 1 ∧ fieldAt p 9 1 ≤ 1) → (m.testBit 5 = true → 0 ≤ fieldAt p 10 1 ∧ fieldAt p 10 1 ≤ 1) →
    Runs (.setExposurePolicy b uid p dt) s [.pkg, .expo, .flint, .qtz, .lat, .heads, .jcs, .slate, .mirror, .out] fun e =>
      Answered d e b.val 0xC431 (0) 0 false [] ∧
      e.expo.policy = ({ boundGib := if m.testBit 0 then fieldAt p 4 4 else d.expo.policy.boundGib, windowEn := if m.testBit 1 then fieldAt p 8 1 == 1 else d.expo.policy.windowEn, dmaxH0 := if m.testBit 2 then fieldAt p 12 2 else d.expo.policy.dmaxH0, dmaxH1 := if m.testBit 3 then fieldAt p 14 2 else d.expo.policy.dmaxH1, borrowEn := if m.testBit 4 then fieldAt p 9 1 == 1 else d.expo.policy.borrowEn, perfEn := if m.testBit 5 then fieldAt p 10 1 == 1 else d.expo.policy.perfEn } : ExpoPolicy) ∧
      8 ∈ e.expo.gov.triggers ∧ 0x62 ∈ (e.sl 0).pend ∧ 0x62 ∈ (e.sl 4).pend) ∧
  (∀ s (d : Dev) (b : Fin 4) uid (p : List Byte) dt, d = s.dev.elapse dt → d.admits 0xC431 (caller b uid) p = true → (fieldAt p 0 1).testBit 0 = true → (fieldAt p 4 4 < 16 ∨ 32768 < fieldAt p 4 4) →
    Runs (.setExposurePolicy b uid p dt) s [.pkg, .expo, .flint, .qtz, .lat, .heads, .jcs, .slate, .mirror, .out] fun e =>
      Answered d e b.val 0xC431 (retOf 2) 2 false [] ∧
      e.expo.policy = d.expo.policy ∧ e.slate = d.slate) ∧
  (∀ s (d : Dev) (b : Fin 4) uid (p : List Byte) (a : Nat) dt, d = s.dev.elapse dt → d.admits 0xC441 (caller b uid) p = true → a = fieldAt p 0 1 → a ≤ 1 → ((d.bay a).hold = true ∨ (d.bay a).state = 1 ∧ (d.bay a).lock = true) →
    Runs (.requestRelease b uid p dt) s [.expo, .energy, .flint, .qtz, .lat, .heads, .jcs, .mirror, .dw, .out] fun e =>
      Answered d e b.val 0xC441 (retOf 0xC) 0xC false [] ∧
      (e.bay a).state = (d.bay a).state ∧ (e.bay a).lock = (d.bay a).lock ∧ (e.bay a).counted = (d.bay a).counted ∧ (e.bay a).refusedUntil = some (d.now + 3000000000)) ∧
  (∀ s (d : Dev) (b : Fin 4) uid (p : List Byte) (a : Nat) dt, d = s.dev.elapse dt → d.admits 0xC441 (caller b uid) p = true → a = fieldAt p 0 1 → a ≤ 1 → (d.bay a).hold = false → (d.bay a).state = 3 →
    Runs (.requestRelease b uid p dt) s [.expo, .energy, .flint, .qtz, .lat, .heads, .jcs, .mirror, .dw, .out] fun e =>
      Answered d e b.val 0xC441 (0) 0 false [1] ∧
      e.energy = d.energy) ∧
  (∀ s (d : Dev) (b : Fin 4) uid (p : List Byte) (a : Nat) dt, d = s.dev.elapse dt → d.admits 0xC441 (caller b uid) p = true → a = fieldAt p 0 1 → a ≤ 1 → (d.bay a).hold = false → ((d.bay a).state = 0 ∨ (d.bay a).state = 4) →
    Runs (.requestRelease b uid p dt) s [.expo, .energy, .flint, .qtz, .lat, .heads, .jcs, .mirror, .dw, .out] fun e =>
      Answered d e b.val 0xC441 (0) 0 false [0] ∧
      e.energy = d.energy) ∧
  (∀ s (d : Dev) (b : Fin 4) uid (p : List Byte) (a : Nat) dt, d = s.dev.elapse dt → d.admits 0xC441 (caller b uid) p = true → a = fieldAt p 0 1 → a ≤ 1 → (d.bay a).hold = false → ((d.bay a).state = 2 ∨ (d.bay a).state = 5) → (d.bay a).test = 0 → d.sealing.testStep = 0 → d.xPkg = 0 →
    Runs (.requestRelease b uid p dt) s [.expo, .energy, .flint, .qtz, .lat, .heads, .jcs, .mirror, .dw, .out] fun e =>
      Answered d e b.val 0xC441 (0) 0 false [0] ∧
      (e.bay a).state = 4 ∧ (e.bay a).lock = false ∧ (e.bay a).counted = false ∧ (e.bay a).grantAt = d.now ∧ 7 ∈ e.expo.gov.triggers ∧ e.bay (1 - a) = d.bay (1 - a)) ∧
  (∀ s (d : Dev) (b : Fin 4) uid (p : List Byte) (a : Nat) dt, d = s.dev.elapse dt → d.admits 0xC441 (caller b uid) p = true → a = fieldAt p 0 1 → a ≤ 1 → (d.bay a).hold = false → (d.bay a).state = 2 → (d.bay a).test = 0 → (d.bay a).counted = true → 0 < d.xPkg → d.sealing.testStep = 0 → (d.ceilings (addOnce d.withoutBays a)).c ≤ d.xPkg →
    Runs (.requestRelease b uid p dt) s [.expo, .energy, .flint, .qtz, .lat, .heads, .jcs, .mirror, .dw, .out] fun e =>
      Answered d e b.val 0xC441 (0) 0 false [1] ∧
      (e.bay a).state = 3 ∧ (e.bay a).lock = (d.bay a).lock ∧ (e.bay a).counted = true ∧ (e.bay a).waitSince = d.now) ∧
  (∀ s (d : Dev) (b : Fin 4) uid (p : List Byte) (a : Nat) dt, d = s.dev.elapse dt → d.admits 0xC442 (caller b uid) p = true → a = fieldAt p 0 1 → a ≤ 1 → fieldAt p 1 1 ≤ 1 →
    Runs (.setHold b uid p dt) s [.energy, .flint, .qtz, .lat, .heads, .jcs, .mirror, .dw, .out] fun e =>
      Answered d e b.val 0xC442 (0) 0 false [] ∧
      (e.bay a).hold = (fieldAt p 1 1 == 1) ∧ (e.bay a).state = (d.bay a).state ∧ (e.bay a).lock = (d.bay a).lock ∧ e.bay (1 - a) = d.bay (1 - a)) ∧
  (∀ s (d : Dev) (b : Fin 4) uid (p : List Byte) (a : Nat) dt, d = s.dev.elapse dt → d.admits 0xC443 (caller b uid) p = true → a = fieldAt p 0 1 → a ≤ 1 → fieldAt p 1 1 = 1 →
    Runs (.capacityTest b uid p dt) s [.energy, .flint, .qtz, .lat, .heads, .jcs, .mirror, .dw, .out] fun e =>
      e.bay (1 - a) = d.bay (1 - a) ∧ (e.bay a).counted = (d.bay a).counted ∧
      (if d.testMayStart a = true then Answered d e b.val 0xC443 0 0 false [] ∧ (e.bay a).test = 1 ∧ (e.bay a).testIntr = 0 else Answered d e b.val 0xC443 (retOf 0xC) 0xC false [] ∧ e.energy = d.energy)) ∧
  (∀ s (d : Dev) (b : Fin 4) uid (p : List Byte) (a : Nat) dt, d = s.dev.elapse dt → d.admits 0xC443 (caller b uid) p = true → a = fieldAt p 0 1 → a ≤ 1 → fieldAt p 1 1 = 2 →
    Runs (.capacityTest b uid p dt) s [.energy, .flint, .qtz, .lat, .heads, .jcs, .mirror, .dw, .out] fun e =>
      Answered d e b.val 0xC443 (0) 0 false [] ∧
      (e.bay a).test = 0 ∧ (e.bay a).learnFails = (d.bay a).learnFails ∧ e.bay (1 - a) = d.bay (1 - a)) ∧
  (∀ s (d : Dev) (b : Fin 4) uid (p : List Byte) dt, d = s.dev.elapse dt → d.admits 0xC444 (caller b uid) p = true → 1000 ≤ fieldAt p 0 4 → fieldAt p 0 4 ≤ 10000000 → fieldAt p 4 4 ≤ 1024 → d.expo.gov.pkgState < 2 → (∀ a : Nat, a < 2 → (d.bay a).state ≠ 3 ∧ (d.bay a).state ≠ 4 ∧ (d.bay a).test = 0) → d.restore.phase = 7 → d.activating = false → ((2 * (d.expo.kSeal * max (d.xPkg * 4096) (fieldAt p 4 4 * 2 ^ 30)) : Nat) : Int) ≤ ((d.expo.gov.eAvail : Int) - d.expo.eFixed) * 1000000000000 →
    Runs (.testSeal b uid p dt) s [.sealing, .ctxs, .energy, .flint, .qtz, .lat, .heads, .jcs, .panel, .mirror, .dw, .out] fun e =>
      Answered d e b.val 0xC444 (1) 0 true [] ∧
      e.sealing.active = true ∧ e.sealing.test = true ∧ e.sealing.testStep = 1 ∧ e.sealing.holdLimit = fieldAt p 0 4 ∧ e.sealing.fillGib = fieldAt p 4 4 ∧ e.energy.assistSet = [] ∧
      (e.bgOf b.val).running = true ∧ (e.bgOf b.val).opcode = 0xC444) ∧
  (∀ s (d : Dev) (b : Fin 4) uid (p : List Byte) dt, d = s.dev.elapse dt → d.admits 0xC444 (caller b uid) p = true → 1000 ≤ fieldAt p 0 4 → fieldAt p 0 4 ≤ 10000000 → fieldAt p 4 4 ≤ 1024 → 2 ≤ d.expo.gov.pkgState →
    Runs (.testSeal b uid p dt) s [.sealing, .ctxs, .energy, .flint, .qtz, .lat, .heads, .jcs, .panel, .mirror, .dw, .out] fun e =>
      Answered d e b.val 0xC444 (retOf 0xB) 0xB false [] ∧
      e.sealing = d.sealing ∧ e.energy = d.energy) ∧
  (∀ s (d : Dev) (b : Fin 4) uid (p : List Byte) dt, d = s.dev.elapse dt → d.admits 0xC444 (caller b uid) p = true → 1000 ≤ fieldAt p 0 4 → fieldAt p 0 4 ≤ 10000000 → fieldAt p 4 4 ≤ 1024 → d.expo.gov.pkgState < 2 → ¬ (∀ a : Nat, a < 2 → (d.bay a).state ≠ 3 ∧ (d.bay a).state ≠ 4 ∧ (d.bay a).test = 0) →
    Runs (.testSeal b uid p dt) s [.sealing, .ctxs, .energy, .flint, .qtz, .lat, .heads, .jcs, .panel, .mirror, .dw, .out] fun e =>
      Answered d e b.val 0xC444 (retOf 0xC) 0xC false [] ∧
      e.sealing = d.sealing ∧ e.energy = d.energy) ∧
  (∀ s (d : Dev) (b : Fin 4) uid (p : List Byte) dt, d = s.dev.elapse dt → d.admits 0xC444 (caller b uid) p = true → 1000 ≤ fieldAt p 0 4 → fieldAt p 0 4 ≤ 10000000 → fieldAt p 4 4 ≤ 1024 → d.expo.gov.pkgState < 2 → (∀ a : Nat, a < 2 → (d.bay a).state ≠ 3 ∧ (d.bay a).state ≠ 4 ∧ (d.bay a).test = 0) → (d.restore.phase ≠ 7 ∨ d.activating = true) →
    Runs (.testSeal b uid p dt) s [.sealing, .ctxs, .energy, .flint, .qtz, .lat, .heads, .jcs, .panel, .mirror, .dw, .out] fun e =>
      Answered d e b.val 0xC444 (retOf 7) 7 false [] ∧
      e.sealing = d.sealing ∧ e.energy = d.energy) ∧
  (∀ s (d : Dev) (b : Fin 4) uid (p : List Byte) dt, d = s.dev.elapse dt → d.admits 0xC444 (caller b uid) p = true → 1000 ≤ fieldAt p 0 4 → fieldAt p 0 4 ≤ 10000000 → fieldAt p 4 4 ≤ 1024 → d.expo.gov.pkgState < 2 → (∀ a : Nat, a < 2 → (d.bay a).state ≠ 3 ∧ (d.bay a).state ≠ 4 ∧ (d.bay a).test = 0) → d.restore.phase = 7 → d.activating = false → ((d.expo.gov.eAvail : Int) - d.expo.eFixed) * 1000000000000 < ((2 * (d.expo.kSeal * max (d.xPkg * 4096) (fieldAt p 4 4 * 2 ^ 30)) : Nat) : Int) →
    Runs (.testSeal b uid p dt) s [.sealing, .ctxs, .energy, .flint, .qtz, .lat, .heads, .jcs, .panel, .mirror, .dw, .out] fun e =>
      Answered d e b.val 0xC444 (retOf 0xD) 0xD false [] ∧
      e.sealing = d.sealing ∧ e.energy = d.energy) ∧
  (∀ s (d : Dev) (b : Fin 4) uid (p : List Byte) (m : Nat) dt, d = s.dev.elapse dt → d.admits 0xC445 (caller b uid) p = true → m = fieldAt p 0 1 → (m.testBit 0 = true → 0 ≤ fieldAt p 2 1 ∧ fieldAt p 2 1 ≤ 1) → (m.testBit 1 = true → 50 ≤ fieldAt p 3 1 ∧ fieldAt p 3 1 ≤ 95) → (m.testBit 2 = true → 80 ≤ fieldAt p 4 1 ∧ fieldAt p 4 1 ≤ 100) → (m.testBit 3 = true → 10 ≤ fieldAt p 5 1 ∧ fieldAt p 5 1 ≤ 70) → (m.testBit 4 = true → 50 ≤ fieldAt p 6 2 ∧ fieldAt p 6 2 ≤ 400) → (m.testBit 5 = true → 5 ≤ fieldAt p 8 2 ∧ fieldAt p 8 2 ≤ 60) →
    Runs (.setEnergyPolicy b uid p dt) s [.energy, .flint, .qtz, .lat, .heads, .jcs, .slate, .mirror, .out] fun e =>
      Answered d e b.val 0xC445 (0) 0 false [] ∧
      e.energy.assistEn = (if m.testBit 0 then fieldAt p 2 1 == 1 else d.energy.assistEn) ∧ e.energy.assistFloor = (if m.testBit 1 then fieldAt p 3 1 else d.energy.assistFloor) ∧
      e.energy.chargeTarget = (if m.testBit 2 then fieldAt p 4 1 else d.energy.chargeTarget) ∧ e.energy.chargeRate = (if m.testBit 3 then fieldAt p 5 1 else d.energy.chargeRate) ∧
      e.energy.pSlot = (if m.testBit 4 then fieldAt p 6 2 else d.energy.pSlot) ∧ e.energy.assistMax = (if m.testBit 5 then fieldAt p 8 2 else d.energy.assistMax) ∧
      e.energy.pack = d.energy.pack ∧ 0x62 ∈ (e.sl 0).pend ∧ 0x62 ∈ (e.sl 4).pend) ∧
  (∀ s (d : Dev) (b : Fin 4) uid (p : List Byte) (a : Nat) dt, d = s.dev.elapse dt → d.admits 0xC446 (caller b uid) p = true → a = fieldAt p 0 1 → a ≤ 1 → fieldAt p 1 1 ≤ 3 → (fieldAt p 2 2 = 0 ∨ 30 ≤ fieldAt p 2 2 ∧ fieldAt p 2 2 ≤ 365) → 5 ≤ fieldAt p 4 1 → fieldAt p 4 1 ≤ 50 →
    Runs (.setBayParameters b uid p dt) s [.energy, .flint, .qtz, .lat, .heads, .jcs, .slate, .mirror, .out] fun e =>
      Answered d e b.val 0xC446 (0) 0 false [] ∧
      e.bay a = { d.bay a with next := some ([fieldAt p 1 1, fieldAt p 2 2, fieldAt p 4 1, fieldAt p 8 4, fieldAt p 12 4, fieldAt p 16 4, fieldAt p 20 4] : List Nat) } ∧ e.bay (1 - a) = d.bay (1 - a) ∧ 0x61 ∈ (e.sl 0).pend ∧ 0x61 ∈ (e.sl 4).pend) ∧
  (∀ s (d : Dev) (b : Fin 4) uid (p : List Byte) dt, d = s.dev.elapse dt → d.admits 0xC447 (caller b uid) p = true → fieldAt p 8 2 ≤ 24000 →
    Runs (.setBridgeParameters b uid p dt) s [.energy, .flint, .qtz, .lat, .heads, .jcs, .slate, .mirror, .out] fun e =>
      Answered d e b.val 0xC447 (0) 0 false [] ∧
      e.energy = { d.energy with brNext := some ([fieldAt p 0 4, fieldAt p 4 4, fieldAt p 8 2, fieldAt p 12 4] : List Nat) } ∧ 0x61 ∈ (e.sl 0).pend ∧ 0x61 ∈ (e.sl 4).pend) ∧
  (∀ s (d : Dev) (b : Fin 4) uid (p : List Byte) dt, d = s.dev.elapse dt → d.admits 0xC448 (caller b uid) p = true → fieldAt p 0 1 ≤ 3 →
    Runs (.loadChemistryTable b uid p dt) s [.energy, .flint, .qtz, .lat, .heads, .jcs, .slate, .mirror, .out] fun e =>
      Answered d e b.val 0xC448 (0) 0 false [] ∧
      tget e.energy.chemTab [] (fieldAt p 0 1) = (List.range 252).map (fun i : Nat => fieldAt p (8 + 2 * i) 2) ∧ e.energy.pack = d.energy.pack ∧ 0x63 ∈ (e.sl 0).pend ∧ 0x63 ∈ (e.sl 4).pend) ∧
  (∀ s (d : Dev) (b : Fin 4) uid (p : List Byte) (x : Therm) (m : Nat) dt, d = s.dev.elapse dt → d.admits 0xC451 (caller b uid) p = true → x = thermSet d.therm p → 60 ≤ x.warnC ∧ x.warnC ≤ 105 ∧ 80 ≤ x.throttleC ∧ x.throttleC ≤ 110 ∧ 95 ≤ x.shutC ∧ x.shutC ≤ 118 → 1 ≤ x.warnHys ∧ x.warnHys ≤ 10 ∧ 1 ≤ x.throttleHys ∧ x.throttleHys ≤ 10 ∧ 5 ≤ x.shutHys ∧ x.shutHys ≤ 20 → 2 ≤ x.stepS ∧ x.stepS ≤ 60 ∧ 60 ≤ x.coolWait ∧ x.coolWait ≤ 3600 ∧ x.restartMax ≤ 8 → x.warnC < x.throttleC → x.throttleC + 6 ≤ x.shutC → m = fieldAt p 0 2 →
    Runs (.setThermal b uid p dt) s [.therm, .flint, .qtz, .lat, .heads, .jcs, .slate, .mirror, .out] fun e =>
      Answered d e b.val 0xC451 (0) 0 false [] ∧
      e.therm.warnC = (if m.testBit 0 then fieldAt p 2 1 else d.therm.warnC) ∧ e.therm.throttleC = (if m.testBit 1 then fieldAt p 3 1 else d.therm.throttleC) ∧
      e.therm.shutC = (if m.testBit 2 then fieldAt p 4 1 else d.therm.shutC) ∧ e.therm.warnHys = (if m.testBit 3 then fieldAt p 5 1 else d.therm.warnHys) ∧
      e.therm.throttleHys = (if m.testBit 4 then fieldAt p 6 1 else d.therm.throttleHys) ∧ e.therm.shutHys = (if m.testBit 5 then fieldAt p 7 1 else d.therm.shutHys) ∧
      e.therm.stepS = (if m.testBit 6 then fieldAt p 8 1 else d.therm.stepS) ∧ e.therm.coolWait = (if m.testBit 7 then fieldAt p 10 2 else d.therm.coolWait) ∧
      e.therm.restartMax = (if m.testBit 8 then fieldAt p 9 1 else d.therm.restartMax) ∧ e.therm.sens = d.therm.sens ∧ 0x62 ∈ (e.sl 0).pend ∧ 0x62 ∈ (e.sl 4).pend) ∧
  (∀ s (d : Dev) (b : Fin 4) uid (p : List Byte) (x : Therm) dt, d = s.dev.elapse dt → d.admits 0xC451 (caller b uid) p = true → x = thermSet d.therm p → (x.throttleC ≤ x.warnC ∨ x.shutC < x.throttleC + 6) →
    Runs (.setThermal b uid p dt) s [.therm, .flint, .qtz, .lat, .heads, .jcs, .slate, .mirror, .out] fun e =>
      Answered d e b.val 0xC451 (retOf 2) 2 false [] ∧
      e.therm = d.therm ∧ e.slate = d.slate) ∧
  (∀ s (d : Dev) (b : Fin 4) uid (p : List Byte) dt, d = s.dev.elapse dt → d.admits 0xC452 (caller b uid) p = true → (∀ i : Nat, i < 8 → ∀ k : Nat, k < 3 → fieldAt p (4 * i + k) 1 ≤ 125) →
    Runs (.setBoardThresholds b uid p dt) s [.therm, .flint, .qtz, .lat, .heads, .jcs, .slate, .mirror, .out] fun e =>
      Answered d e b.val 0xC452 (0) 0 false [] ∧
      e.therm = { d.therm with boardNext := some ((List.range 8).map fun i : Nat => (i, ({ warn := fieldAt p (4 * i) 1, thr := fieldAt p (4 * i + 1) 1, shut := fieldAt p (4 * i + 2) 1, mask := BitVec.ofNat 8 (fieldAt p (4 * i + 3) 1) } : BoardIn))) } ∧ 0x61 ∈ (e.sl 0).pend ∧ 0x61 ∈ (e.sl 4).pend)

/-- For every caller and payload that pass the checks of R403: Acknowledge clears VALID of the record named and releases its hold; Inject logs a
forced message and answers its LSEQ, without any reaction where REACT is 0; Hold TFAULT_N holds and releases the tiles of its mask; Take and
Schedule snapshot use a free bank and a free place, or answer BUSY with the output of R407; Lattice snapshot keeps its request until the
nodes answer; Release bank and Cancel serve SB, the owner and the requester; Set offset and Set time options write their fields. Fields
outside their values answer INVALID_FIELD and change nothing. (R324, R329, R330, R340, R353, R356, R357, R392, R421, R422, R423) -/
def Obligations.FlintSnapshotAndTimeCommands : Prop :=
  (∀ s (d : Dev) (b : Fin 4) uid (p : List Byte) (k : Nat) dt, d = s.dev.elapse dt → d.admits 0xC462 (caller b uid) p = true → k = fieldAt p 0 1 → k ≤ 8 → (d.coll k).ff.valid = true → (d.coll k).ff.lseq = fieldAt p 4 4 →
    Runs (.acknowledge b uid p dt) s [.flint, .qtz, .lat, .heads, .jcs, .mirror, .dw, .out] fun e =>
      Answered d e b.val 0xC462 (0) 0 false [] ∧
      (e.coll k).ff = { (d.coll k).ff with valid := false, held := false } ∧ (e.coll k).log = (d.coll k).log ∧ (∀ j : Nat, j < 9 → j ≠ k → e.coll j = d.coll j) ∧
      (k < 8 → mbit e.flint.tfHold k = false) ∧ (∀ j : Nat, j < 8 → j ≠ k → mbit e.flint.tfHold j = mbit d.flint.tfHold j)) ∧
  (∀ s (d : Dev) (b : Fin 4) uid (p : List Byte) (k : Nat) dt, d = s.dev.elapse dt → d.admits 0xC462 (caller b uid) p = true → k = fieldAt p 0 1 → (8 < k ∨ (d.coll k).ff.valid = false ∨ (d.coll k).ff.lseq ≠ fieldAt p 4 4) →
    Runs (.acknowledge b uid p dt) s [.flint, .qtz, .lat, .heads, .jcs, .mirror, .dw, .out] fun e =>
      Answered d e b.val 0xC462 (retOf 2) 2 false [] ∧
      e.flint = d.flint) ∧
  (∀ s (d : Dev) (b : Fin 4) uid (p : List Byte) (src : Nat) dt, d = s.dev.elapse dt → d.admits 0xC463 (caller b uid) p = true → src = fieldAt p 0 2 → populated src = true → fieldAt p 2 1 ∈ kindCodes → fieldAt p 3 1 ≤ 5 → (fieldAt p 3 1 = 5 → (fieldAt p 4 1).testBit 1 = false) → sevNamed src (fieldAt p 3 1) = true →
    Runs (.inject b uid p dt) s [.mem, .pkg, .expo, .sealing, .restore, .strata, .flash, .ctxs, .dram, .energy, .flint, .qtz, .snap, .lat, .heads, .jcs, .slate, .panel, .mirror, .dw, .out, .freeN] fun e =>
      ((e.out.take (e.out.length - d.out.length)).any fun o : Out => match o with
        | .resp q op _ ret ext _ out => q == b.val && op == 0xC463 && ret == 0 && ext == 0 && out.length == 4
        | _ => false) = true) ∧
  (∀ s (d : Dev) (b : Fin 4) uid (p : List Byte) (src k : Nat) dt, d = s.dev.elapse dt → d.admits 0xC463 (caller b uid) p = true → src = fieldAt p 0 2 → populated src = true → fieldAt p 2 1 ∈ kindCodes → fieldAt p 3 1 ≤ 5 → (fieldAt p 3 1 = 5 → (fieldAt p 4 1).testBit 1 = false) → sevNamed src (fieldAt p 3 1) = true → 768 ≤ src → (d.coll 8).input = [] → (d.coll 8).urgent = [] → (fieldAt p 4 1).testBit 1 = false → k = (d.coll 8).nextLseq →
    Runs (.inject b uid p dt) s [.mem, .pkg, .expo, .sealing, .restore, .strata, .flash, .ctxs, .dram, .energy, .flint, .qtz, .snap, .lat, .heads, .jcs, .slate, .panel, .mirror, .dw, .out, .freeN] fun e =>
      Answered d e b.val 0xC463 (0) 0 false (leBytes 4 k) ∧
      (e.coll 8).log.any (fun x : LogEntry => x.lseq == k && x.flags.getLsbD 0 && x.origSev == fieldAt p 3 1) = true ∧ e.pkg = d.pkg ∧ e.expo = d.expo ∧ e.mem = d.mem) ∧
  (∀ s (d : Dev) (b : Fin 4) uid (p : List Byte) dt, d = s.dev.elapse dt → d.admits 0xC463 (caller b uid) p = true → (populated (fieldAt p 0 2) = false ∨ fieldAt p 2 1 ∉ kindCodes ∨ 5 < fieldAt p 3 1 ∨ fieldAt p 3 1 = 5 ∧ (fieldAt p 4 1).testBit 1 = true) →
    Runs (.inject b uid p dt) s [.mem, .pkg, .expo, .sealing, .restore, .strata, .flash, .ctxs, .dram, .energy, .flint, .qtz, .snap, .lat, .heads, .jcs, .slate, .panel, .mirror, .dw, .out, .freeN] fun e =>
      Answered d e b.val 0xC463 (retOf 2) 2 false [] ∧
      e.flint = d.flint) ∧
  (∀ s (d : Dev) (b : Fin 4) uid (p : List Byte) (m : BitVec 8) dt, d = s.dev.elapse dt → d.admits 0xC464 (caller b uid) p = true → fieldAt p 1 1 = 1 → m = BitVec.ofNat 8 (fieldAt p 0 1) → (∀ t : Nat, t < 8 → mbit m t = true → (d.coll t).ff.valid = true) →
    Runs (.holdTfaultN b uid p dt) s [.flint, .qtz, .lat, .heads, .jcs, .mirror, .dw, .out] fun e =>
      Answered d e b.val 0xC464 (0) 0 false [] ∧
      e.flint.tfHold = d.flint.tfHold ||| m ∧ (∀ t : Nat, t < 8 → mbit m t = true → (e.coll t).ff.held = true ∧ (e.coll t).ff.valid = true) ∧ (∀ t : Nat, t < 8 → mbit m t = false → e.coll t = d.coll t)) ∧
  (∀ s (d : Dev) (b : Fin 4) uid (p : List Byte) (m : BitVec 8) (t : Nat) dt, d = s.dev.elapse dt → d.admits 0xC464 (caller b uid) p = true → fieldAt p 1 1 = 1 → m = BitVec.ofNat 8 (fieldAt p 0 1) → t < 8 → mbit m t = true → (d.coll t).ff.valid = false →
    Runs (.holdTfaultN b uid p dt) s [.flint, .qtz, .lat, .heads, .jcs, .mirror, .dw, .out] fun e =>
      Answered d e b.val 0xC464 (retOf 4) 4 false [] ∧
      e.flint = d.flint) ∧
  (∀ s (d : Dev) (b : Fin 4) uid (p : List Byte) (m : BitVec 8) dt, d = s.dev.elapse dt → d.admits 0xC464 (caller b uid) p = true → fieldAt p 1 1 = 0 → m = BitVec.ofNat 8 (fieldAt p 0 1) →
    Runs (.holdTfaultN b uid p dt) s [.flint, .qtz, .lat, .heads, .jcs, .mirror, .dw, .out] fun e =>
      Answered d e b.val 0xC464 (0) 0 false [] ∧
      e.flint.tfHold = d.flint.tfHold &&& ~~~m ∧ (∀ t : Nat, t < 8 → mbit m t = true → (e.coll t).ff.held = false ∧ (e.coll t).ff.valid = (d.coll t).ff.valid) ∧ (∀ t : Nat, t < 8 → mbit m t = false → e.coll t = d.coll t)) ∧
  (∀ s (d : Dev) (b : Fin 4) uid (p : List Byte) (k : Nat) dt, d = s.dev.elapse dt → d.admits 0xC470 (caller b uid) p = true → d.snapBank false = some k →
    Runs (.takeSnapshot b uid p dt) s [.flint, .qtz, .snap, .lat, .heads, .jcs, .mirror, .dw, .out, .freeN] fun e =>
      Answered d e b.val 0xC470 (0) 0 false (fields [(1, k), (3, 0), (4, d.snap.nextReq)]) ∧
      (tget e.snap.banks {} k).state = 1 ∧ (tget e.snap.banks {} k).owner = b.val ∧ (tget e.snap.banks {} k).reqId = d.snap.nextReq ∧ (tget e.snap.banks {} k).tTrig = d.now ∧
      e.snap.nextReq = (d.snap.nextReq + 1) % 2 ^ 32 ∧ (∀ j : Nat, j < 4 → j ≠ k → tget e.snap.banks {} j = tget d.snap.banks {} j)) ∧
  (∀ s (d : Dev) (b : Fin 4) uid (p : List Byte) dt, d = s.dev.elapse dt → d.admits 0xC470 (caller b uid) p = true → d.snapBank false = none →
    Runs (.takeSnapshot b uid p dt) s [.flint, .qtz, .snap, .lat, .heads, .jcs, .mirror, .dw, .out, .freeN] fun e =>
      Answered d e b.val 0xC470 (retOf 9) 9 false ([255, 0, 0, 0] : List Byte) ∧
      e.snap = d.snap) ∧
  (∀ s (d : Dev) (b : Fin 4) uid (p : List Byte) (u : Nat) (ahead : Int) dt, d = s.dev.elapse dt → d.admits 0xC471 (caller b uid) p = true → u = fieldAt p 0 1 → ahead = (fieldAt p 8 8 : Int) - (if u = 1 then d.lTime else d.qtz.count) → u ≤ 1 → (u = 1 → d.qtz.hasTime = true) → 1000000 ≤ ahead → ahead ≤ 86400000000000 → d.snap.sched.length < 8 →
    Runs (.scheduleSnapshot b uid p dt) s [.flint, .qtz, .snap, .lat, .heads, .jcs, .mirror, .dw, .out] fun e =>
      Answered d e b.val 0xC471 (0) 0 false (leBytes 4 d.snap.nextReq) ∧
      e.snap.sched = d.snap.sched ++ [({ id := d.snap.nextReq, useL := u == 1, time := fieldAt p 8 8, owner := b.val } : SnapSched)] ∧ e.snap.nextReq = (d.snap.nextReq + 1) % 2 ^ 32 ∧ e.snap.banks = d.snap.banks) ∧
  (∀ s (d : Dev) (b : Fin 4) uid (p : List Byte) (u : Nat) (ahead : Int) dt, d = s.dev.elapse dt → d.admits 0xC471 (caller b uid) p = true → u = fieldAt p 0 1 → ahead = (fieldAt p 8 8 : Int) - (if u = 1 then d.lTime else d.qtz.count) → u ≤ 1 → (u = 1 → d.qtz.hasTime = true) → 1000000 ≤ ahead → ahead ≤ 86400000000000 → 8 ≤ d.snap.sched.length →
    Runs (.scheduleSnapshot b uid p dt) s [.flint, .qtz, .snap, .lat, .heads, .jcs, .mirror, .dw, .out] fun e =>
      Answered d e b.val 0xC471 (retOf 9) 9 false ([255, 0, 0, 0] : List Byte) ∧
      e.snap = d.snap) ∧
  (∀ s (d : Dev) (b : Fin 4) uid (p : List Byte) (n : Nat) (ns : List Nat) dt, d = s.dev.elapse dt → d.admits 0xC472 (caller b uid) p = true → d.qtz.hasTime = true → 10000000 ≤ (fieldAt p 8 8 : Int) - d.lTime → (fieldAt p 8 8 : Int) - d.lTime ≤ 86400000000000 → n = fieldAt p 16 2 → 32 + 2 * n ≤ p.length → ns = (List.range n).map (fun i : Nat => fieldAt p (32 + 2 * i) 2) → (∃ x ∈ ns, x ≠ d.lat.nodeId) →
    Runs (.latticeSnapshot b uid p dt) s [.flint, .qtz, .snap, .lat, .heads, .jcs, .mirror, .dw, .out] fun e =>
      e.snap.reqs = d.snap.reqs ++ [({ reqId := d.snap.nextReq, by_ := b.val, tag := 0, nodes := ns, sent := d.now, answers := if d.lat.nodeId ∈ ns then ([(d.lat.nodeId, d.trigCode (fieldAt p 8 8))] : List (Nat × Nat)) else [] } : SnapReq)] ∧
      e.snap.nextReq = (d.snap.nextReq + 1) % 2 ^ 32 ∧ (d.trigCode (fieldAt p 8 8) = 0 → e.snap.sched.length = d.snap.sched.length + 1) ∧ e.snap.banks = d.snap.banks) ∧
  (∀ s (d : Dev) (b : Fin 4) uid (p : List Byte) dt, d = s.dev.elapse dt → d.admits 0xC472 (caller b uid) p = true → d.qtz.hasTime = true → 10000000 ≤ (fieldAt p 8 8 : Int) - d.lTime → (fieldAt p 8 8 : Int) - d.lTime ≤ 86400000000000 → fieldAt p 16 2 = 0 →
    Runs (.latticeSnapshot b uid p dt) s [.flint, .qtz, .snap, .lat, .heads, .jcs, .mirror, .dw, .out] fun e =>
      e.snap.reqs = d.snap.reqs ++ [({ reqId := d.snap.nextReq, by_ := b.val, tag := 0, nodes := [], sent := d.now, answers := ([(d.lat.nodeId, d.trigCode (fieldAt p 8 8))] : List (Nat × Nat)) } : SnapReq)] ∧
      e.snap.nextReq = (d.snap.nextReq + 1) % 2 ^ 32 ∧ e.snap.banks = d.snap.banks) ∧
  (∀ s (d : Dev) (b : Fin 4) uid (p : List Byte) (k : Nat) dt, d = s.dev.elapse dt → d.admits 0xC474 (caller b uid) p = true → k = fieldAt p 0 1 → k ≤ 3 → (b = 2 ∨ k ≠ 0 ∧ (tget d.snap.banks {} k).state ≠ 0 ∧ (tget d.snap.banks {} k).owner = b.val) →
    Runs (.releaseBank b uid p dt) s [.flint, .qtz, .snap, .lat, .heads, .jcs, .mirror, .dw, .out] fun e =>
      Answered d e b.val 0xC474 (0) 0 false [] ∧
      tget e.snap.banks {} k = {} ∧ (∀ j : Nat, j < 4 → j ≠ k → tget e.snap.banks {} j = tget d.snap.banks {} j) ∧ e.snap.sched = d.snap.sched) ∧
  (∀ s (d : Dev) (b : Fin 4) uid (p : List Byte) (k : Nat) dt, d = s.dev.elapse dt → d.admits 0xC474 (caller b uid) p = true → k = fieldAt p 0 1 → k ≤ 3 → b ≠ 2 → (k = 0 ∨ (tget d.snap.banks {} k).owner ≠ b.val) →
    Runs (.releaseBank b uid p dt) s [.flint, .qtz, .snap, .lat, .heads, .jcs, .mirror, .dw, .out] fun e =>
      Answered d e b.val 0xC474 (retOf 5) 5 false [] ∧
      e.snap = d.snap) ∧
  (∀ s (d : Dev) (b : Fin 4) uid (p : List Byte) (y : SnapSched) dt, d = s.dev.elapse dt → d.admits 0xC475 (caller b uid) p = true → d.snap.sched.find? (fun x : SnapSched => x.id == fieldAt p 0 4) = some y → (b = 2 ∨ y.owner = b.val) →
    Runs (.cancelScheduled b uid p dt) s [.flint, .qtz, .snap, .lat, .heads, .jcs, .mirror, .dw, .out] fun e =>
      Answered d e b.val 0xC475 (0) 0 false [] ∧
      e.snap.sched = d.snap.sched.filter (fun x : SnapSched => x.id != fieldAt p 0 4) ∧ e.snap.banks = d.snap.banks) ∧
  (∀ s (d : Dev) (b : Fin 4) uid (p : List Byte) dt, d = s.dev.elapse dt → d.admits 0xC475 (caller b uid) p = true → (∀ x ∈ d.snap.sched, x.id ≠ fieldAt p 0 4) →
    Runs (.cancelScheduled b uid p dt) s [.flint, .qtz, .snap, .lat, .heads, .jcs, .mirror, .dw, .out] fun e =>
      Answered d e b.val 0xC475 (retOf 2) 2 false [] ∧
      e.snap = d.snap) ∧
  (∀ s (d : Dev) (b : Fin 4) uid (p : List Byte) dt, d = s.dev.elapse dt → d.admits 0xC481 (caller b uid) p = true →
    Runs (.setOffset b uid p dt) s [.ctxs, .flint, .qtz, .lat, .heads, .jcs, .slate, .mirror, .dw, .out] fun e =>
      Answered d e b.val 0xC481 (0) 0 false [] ∧
      e.qtz.offset = signed 64 (fieldAt p 0 8) ∧ e.qtz.ofsValid = true ∧ e.qtz.ofsSource = 1 ∧ e.qtz.unc = min 65535 (fieldAt p 8 4) ∧ e.qtz.count = d.qtz.count ∧
      e.qtz.loff = d.qtz.loff ∧ e.qtz.rate = d.qtz.rate ∧ 0x66 ∈ (e.sl 0).pend ∧ 0x66 ∈ (e.sl 4).pend) ∧
  (∀ s (d : Dev) (b : Fin 4) uid (p : List Byte) (m : Nat) dt, d = s.dev.elapse dt → d.admits 0xC482 (caller b uid) p = true → m = fieldAt p 0 1 → (∀ i : Nat, i < 4 → m.testBit i = true → fieldAt p (1 + i) 1 ≤ 1) → d.qtz.isRoot = false →
    Runs (.setTimeOptions b uid p dt) s [.flint, .qtz, .lat, .heads, .jcs, .slate, .mirror, .dw, .out] fun e =>
      Answered d e b.val 0xC482 (0) 0 false [] ∧
      e.qtz.ppsEn = (if m.testBit 0 then fieldAt p 1 1 == 1 else d.qtz.ppsEn) ∧ e.qtz.ppsOutEn = (if m.testBit 1 then fieldAt p 2 1 == 1 else d.qtz.ppsOutEn) ∧
      e.qtz.snapInEn = (if m.testBit 2 then fieldAt p 3 1 == 1 else d.qtz.snapInEn) ∧ e.qtz.rootEn = (if m.testBit 3 then fieldAt p 4 1 == 1 else d.qtz.rootEn) ∧
      e.qtz.count = d.qtz.count ∧ e.qtz.offset = d.qtz.offset ∧ 0x62 ∈ (e.sl 0).pend ∧ 0x62 ∈ (e.sl 4).pend) ∧
  (∀ s (d : Dev) (b : Fin 4) uid (p : List Byte) dt, d = s.dev.elapse dt → d.admits 0xC482 (caller b uid) p = true → (fieldAt p 0 1).testBit 2 = true → 1 < fieldAt p 3 1 →
    Runs (.setTimeOptions b uid p dt) s [.flint, .qtz, .lat, .heads, .jcs, .slate, .mirror, .dw, .out] fun e =>
      Answered d e b.val 0xC482 (retOf 2) 2 false [] ∧
      e.qtz = d.qtz)

/-- For every caller and payload that pass the checks of R403: Set link disables and enables a link and sets its cost and asymmetry; Set grant
adds and takes away services, at most 1,024 grants; Create replica and Migrate set up a stream with a reachable peer, or answer
INVALID_STATE, NO_RESOURCE or UNREACHABLE; Control replica deletes it, sets its rate or begins RESYNC; Control migration orders the switch
or aborts; Lattice checkpoint keeps the request with its participants, at most 16, and a head only for contexts it owns. (R371, R375, R380,
R381, R382, R383, R384, R385, R387, R389, R391, R424) -/
def Obligations.LatticeCommands : Prop :=
  (∀ s (d : Dev) (b : Fin 4) uid (p : List Byte) (l m : Nat) dt, d = s.dev.elapse dt → d.admits 0xC491 (caller b uid) p = true → l = fieldAt p 0 1 → m = fieldAt p 1 1 → l ≤ 5 → (m.testBit 1 = true → 1 ≤ fieldAt p 3 1) → (m.testBit 2 = true → -500 ≤ signed 16 (fieldAt p 4 2) ∧ signed 16 (fieldAt p 4 2) ≤ 500) → m.testBit 0 = true → (fieldAt p 2 1).testBit 0 = false →
    Runs (.setLink b uid p dt) s [.flint, .qtz, .lat, .heads, .jcs, .slate, .mirror, .dw, .out] fun e =>
      Answered d e b.val 0xC491 (0) 0 false [] ∧
      (e.link l).state = 0 ∧ (e.link l).disabledBy = 1 ∧ (e.link l).asym = (if m.testBit 2 then signed 16 (fieldAt p 4 2) else (d.link l).asym) ∧
      (m.testBit 1 = true → (e.link l).costSet = some (fieldAt p 3 1)) ∧ 0x68 ∈ (e.sl 0).pend ∧ 0x68 ∈ (e.sl 4).pend) ∧
  (∀ s (d : Dev) (b : Fin 4) uid (p : List Byte) (l m : Nat) dt, d = s.dev.elapse dt → d.admits 0xC491 (caller b uid) p = true → l = fieldAt p 0 1 → m = fieldAt p 1 1 → l ≤ 5 → (m.testBit 1 = true → 1 ≤ fieldAt p 3 1) → (m.testBit 2 = true → -500 ≤ signed 16 (fieldAt p 4 2) ∧ signed 16 (fieldAt p 4 2) ≤ 500) → m.testBit 0 = true → (fieldAt p 2 1).testBit 0 = true → (d.link l).state = 0 → d.panel.strapNoLat = false →
    Runs (.setLink b uid p dt) s [.flint, .qtz, .lat, .heads, .jcs, .slate, .mirror, .dw, .out] fun e =>
      Answered d e b.val 0xC491 (0) 0 false [] ∧
      (e.link l).state = 1 ∧ (e.link l).disabledBy = 0 ∧ (∀ j : Nat, j < 6 → j ≠ l → e.link j = d.link j)) ∧
  (∀ s (d : Dev) (b : Fin 4) uid (p : List Byte) (l m : Nat) dt, d = s.dev.elapse dt → d.admits 0xC491 (caller b uid) p = true → l = fieldAt p 0 1 → m = fieldAt p 1 1 → l ≤ 5 → (m.testBit 1 = true → 1 ≤ fieldAt p 3 1) → (m.testBit 2 = true → -500 ≤ signed 16 (fieldAt p 4 2) ∧ signed 16 (fieldAt p 4 2) ≤ 500) → m.testBit 0 = false → (d.link l).state < 4 →
    Runs (.setLink b uid p dt) s [.flint, .qtz, .lat, .heads, .jcs, .slate, .mirror, .dw, .out] fun e =>
      Answered d e b.val 0xC491 (0) 0 false [] ∧
      (e.link l).state = (d.link l).state ∧ (e.link l).asym = (if m.testBit 2 then signed 16 (fieldAt p 4 2) else (d.link l).asym) ∧
      (e.link l).cost = (if m.testBit 1 then fieldAt p 3 1 else (d.link l).cost) ∧ (∀ j : Nat, j < 6 → j ≠ l → e.link j = d.link j) ∧ 0x68 ∈ (e.sl 0).pend ∧ 0x68 ∈ (e.sl 4).pend) ∧
  (∀ s (d : Dev) (b : Fin 4) uid (p : List Byte) dt, d = s.dev.elapse dt → d.admits 0xC491 (caller b uid) p = true → (5 < fieldAt p 0 1 ∨ (fieldAt p 1 1).testBit 1 = true ∧ fieldAt p 3 1 = 0 ∨ (fieldAt p 1 1).testBit 2 = true ∧ (signed 16 (fieldAt p 4 2) < -500 ∨ 500 < signed 16 (fieldAt p 4 2))) →
    Runs (.setLink b uid p dt) s [.flint, .qtz, .lat, .heads, .jcs, .slate, .mirror, .dw, .out] fun e =>
      Answered d e b.val 0xC491 (retOf 2) 2 false [] ∧
      e.lat = d.lat) ∧
  (∀ s (d : Dev) (b : Fin 4) uid (p : List Byte) (c u : Nat) (svc : BitVec 8) dt, d = s.dev.elapse dt → d.admits 0xC492 (caller b uid) p = true → c = fieldAt p 0 2 → c < 0x4000 → u = fieldAt p 8 8 → svc = BitVec.ofNat 8 (fieldAt p 2 1 % 8) → fieldAt p 3 1 = 0 → (∀ g ∈ d.lat.grants, ¬(g.context = c ∧ g.uid = u)) → svc ≠ 0 → d.lat.grants.length < 1024 →
    Runs (.setGrant b uid p dt) s [.flint, .qtz, .lat, .heads, .jcs, .slate, .mirror, .out] fun e =>
      Answered d e b.val 0xC492 (0) 0 false [] ∧
      e.lat.grants = d.lat.grants ++ [({ context := c, uid := u, svc := svc } : Grant)] ∧ e.lat.streams = d.lat.streams) ∧
  (∀ s (d : Dev) (b : Fin 4) uid (p : List Byte) (c u : Nat) (svc : BitVec 8) (g : Grant) dt, d = s.dev.elapse dt → d.admits 0xC492 (caller b uid) p = true → c = fieldAt p 0 2 → c < 0x4000 → u = fieldAt p 8 8 → svc = BitVec.ofNat 8 (fieldAt p 2 1 % 8) → fieldAt p 3 1 = 0 → g ∈ d.lat.grants → g.context = c → g.uid = u →
    Runs (.setGrant b uid p dt) s [.flint, .qtz, .lat, .heads, .jcs, .slate, .mirror, .out] fun e =>
      Answered d e b.val 0xC492 (0) 0 false [] ∧
      e.lat.grants = d.lat.grants.map (fun x : Grant => if x.context = c ∧ x.uid = u then { x with svc := x.svc ||| svc } else x)) ∧
  (∀ s (d : Dev) (b : Fin 4) uid (p : List Byte) (c u : Nat) (svc : BitVec 8) dt, d = s.dev.elapse dt → d.admits 0xC492 (caller b uid) p = true → c = fieldAt p 0 2 → c < 0x4000 → u = fieldAt p 8 8 → svc = BitVec.ofNat 8 (fieldAt p 2 1 % 8) → fieldAt p 3 1 = 1 →
    Runs (.setGrant b uid p dt) s [.flint, .qtz, .lat, .heads, .jcs, .slate, .mirror, .out] fun e =>
      Answered d e b.val 0xC492 (0) 0 false [] ∧
      (∀ g : Grant, g ∈ e.lat.grants → g.svc ≠ 0 ∧ (g.context = c → g.uid = u → g.svc &&& svc = 0)) ∧ (∀ g : Grant, g ∈ d.lat.grants → ¬(g.context = c ∧ g.uid = u) → g.svc ≠ 0 → g ∈ e.lat.grants)) ∧
  (∀ s (d : Dev) (b : Fin 4) uid (p : List Byte) (c u : Nat) (svc : BitVec 8) dt, d = s.dev.elapse dt → d.admits 0xC492 (caller b uid) p = true → c = fieldAt p 0 2 → c < 0x4000 → u = fieldAt p 8 8 → svc = BitVec.ofNat 8 (fieldAt p 2 1 % 8) → fieldAt p 3 1 = 0 → (∀ g ∈ d.lat.grants, ¬(g.context = c ∧ g.uid = u)) → svc ≠ 0 → 1024 ≤ d.lat.grants.length →
    Runs (.setGrant b uid p dt) s [.flint, .qtz, .lat, .heads, .jcs, .slate, .mirror, .out] fun e =>
      Answered d e b.val 0xC492 (retOf 0x12) 0x12 false [] ∧
      e.lat = d.lat ∧ e.slate = d.slate) ∧
  (∀ s (d : Dev) (b : Fin 4) uid (p : List Byte) (c r u : Nat) dt, d = s.dev.elapse dt → d.admits 0xC493 (caller b uid) p = true → c = fieldAt p 0 2 → r = fieldAt p 2 2 → u = fieldAt p 8 8 → c < 0x4000 → r < 0x4000 → u ≠ d.lat.uid → 1 ≤ fieldAt p 4 4 → fieldAt p 4 4 ≤ 13700 → (d.ctx c).state ≠ 0 → (d.ctx c).state ≠ 4 → d.liveStream c = none → d.lat.streams.countP (fun x : Stream => x.outgoing && x.migration == false && x.state != 4 && x.state != 0x13 && x.state != 0x14) < 1024 → d.nodeOf u ≠ 0 → (d.routeLink (d.nodeOf u)).isSome = true →
    Runs (.createReplica b uid p dt) s [.flint, .qtz, .lat, .heads, .jcs, .mirror, .out] fun e =>
      Answered d e b.val 0xC493 (1) 0 true [] ∧
      e.lat.streams = d.lat.streams.filter (fun x : Stream => !(x.outgoing && x.local_ == c)) ++ [({ session := d.lat.nextSession, local_ := c, peerCtx := r, uid := u, outgoing := true, setup := true, peerOpen := true, by_ := 2, lastAns := d.now, rate := fieldAt p 4 4 } : Stream)] ∧ e.lat.nextSession = (d.lat.nextSession + 1) % 2 ^ 32 ∧
      e.ctxs = d.ctxs ∧ (e.bgOf b.val).running = true ∧ (e.bgOf b.val).opcode = 0xC493) ∧
  (∀ s (d : Dev) (b : Fin 4) uid (p : List Byte) (c r u : Nat) dt, d = s.dev.elapse dt → d.admits 0xC493 (caller b uid) p = true → c = fieldAt p 0 2 → r = fieldAt p 2 2 → u = fieldAt p 8 8 → c < 0x4000 → r < 0x4000 → u ≠ d.lat.uid → 1 ≤ fieldAt p 4 4 → fieldAt p 4 4 ≤ 13700 → ((d.ctx c).state = 0 ∨ (d.ctx c).state = 4 ∨ (d.liveStream c).isSome = true) →
    Runs (.createReplica b uid p dt) s [.flint, .qtz, .lat, .heads, .jcs, .mirror, .out] fun e =>
      Answered d e b.val 0xC493 (retOf 4) 4 false [] ∧
      e.lat = d.lat) ∧
  (∀ s (d : Dev) (b : Fin 4) uid (p : List Byte) (c r u : Nat) dt, d = s.dev.elapse dt → d.admits 0xC493 (caller b uid) p = true → c = fieldAt p 0 2 → r = fieldAt p 2 2 → u = fieldAt p 8 8 → c < 0x4000 → r < 0x4000 → u ≠ d.lat.uid → 1 ≤ fieldAt p 4 4 → fieldAt p 4 4 ≤ 13700 → (d.ctx c).state ≠ 0 → (d.ctx c).state ≠ 4 → d.liveStream c = none → 1024 ≤ d.lat.streams.countP (fun x : Stream => x.outgoing && x.migration == false && x.state != 4 && x.state != 0x13 && x.state != 0x14) →
    Runs (.createReplica b uid p dt) s [.flint, .qtz, .lat, .heads, .jcs, .mirror, .out] fun e =>
      Answered d e b.val 0xC493 (retOf 0x12) 0x12 false [] ∧
      e.lat = d.lat) ∧
  (∀ s (d : Dev) (b : Fin 4) uid (p : List Byte) (c r u : Nat) dt, d = s.dev.elapse dt → d.admits 0xC493 (caller b uid) p = true → c = fieldAt p 0 2 → r = fieldAt p 2 2 → u = fieldAt p 8 8 → c < 0x4000 → r < 0x4000 → u ≠ d.lat.uid → 1 ≤ fieldAt p 4 4 → fieldAt p 4 4 ≤ 13700 → (d.ctx c).state ≠ 0 → (d.ctx c).state ≠ 4 → d.liveStream c = none → d.lat.streams.countP (fun x : Stream => x.outgoing && x.migration == false && x.state != 4 && x.state != 0x13 && x.state != 0x14) < 1024 → (d.nodeOf u = 0 ∨ d.routeLink (d.nodeOf u) = none) →
    Runs (.createReplica b uid p dt) s [.flint, .qtz, .lat, .heads, .jcs, .mirror, .out] fun e =>
      Answered d e b.val 0xC493 (retOf 0x11) 0x11 false [] ∧
      e.lat = d.lat) ∧
  (∀ s (d : Dev) (b : Fin 4) uid (p : List Byte) (c r u : Nat) dt, d = s.dev.elapse dt → d.admits 0xC496 (caller b uid) p = true → c = fieldAt p 0 2 → r = fieldAt p 2 2 → u = fieldAt p 8 8 → c < 0x4000 → r < 0x4000 → u ≠ d.lat.uid → fieldAt p 4 1 ≤ 1 → 1 ≤ fieldAt p 5 1 → fieldAt p 5 1 ≤ 64 → (d.ctx c).state ≠ 0 → (d.ctx c).state ≠ 4 → d.liveStream c = none → d.lat.streams.countP (fun x : Stream => x.outgoing && x.migration == true && x.state != 4 && x.state != 0x13 && x.state != 0x14) < 8 → d.nodeOf u ≠ 0 → (d.routeLink (d.nodeOf u)).isSome = true →
    Runs (.migrate b uid p dt) s [.flint, .qtz, .lat, .heads, .jcs, .mirror, .out] fun e =>
      Answered d e b.val 0xC496 (1) 0 true [] ∧
      e.lat.streams = d.lat.streams.filter (fun x : Stream => !(x.outgoing && x.local_ == c)) ++ [({ session := d.lat.nextSession, local_ := c, peerCtx := r, uid := u, outgoing := true, setup := true, peerOpen := true, by_ := 2, lastAns := d.now, migration := true, state := 0x10, autoSwitch := fieldAt p 4 1 == 1, switchGib := fieldAt p 5 1 } : Stream)] ∧ e.lat.nextSession = (d.lat.nextSession + 1) % 2 ^ 32 ∧
      e.ctxs = d.ctxs ∧ (e.bgOf b.val).running = true ∧ (e.bgOf b.val).opcode = 0xC496) ∧
  (∀ s (d : Dev) (b : Fin 4) uid (p : List Byte) (c r u : Nat) dt, d = s.dev.elapse dt → d.admits 0xC496 (caller b uid) p = true → c = fieldAt p 0 2 → r = fieldAt p 2 2 → u = fieldAt p 8 8 → c < 0x4000 → r < 0x4000 → u ≠ d.lat.uid → fieldAt p 4 1 ≤ 1 → 1 ≤ fieldAt p 5 1 → fieldAt p 5 1 ≤ 64 → ((d.ctx c).state = 0 ∨ (d.ctx c).state = 4 ∨ (d.liveStream c).isSome = true) →
    Runs (.migrate b uid p dt) s [.flint, .qtz, .lat, .heads, .jcs, .mirror, .out] fun e =>
      Answered d e b.val 0xC496 (retOf 4) 4 false [] ∧
      e.lat = d.lat) ∧
  (∀ s (d : Dev) (b : Fin 4) uid (p : List Byte) (c r u : Nat) dt, d = s.dev.elapse dt → d.admits 0xC496 (caller b uid) p = true → c = fieldAt p 0 2 → r = fieldAt p 2 2 → u = fieldAt p 8 8 → c < 0x4000 → r < 0x4000 → u ≠ d.lat.uid → fieldAt p 4 1 ≤ 1 → 1 ≤ fieldAt p 5 1 → fieldAt p 5 1 ≤ 64 → (d.ctx c).state ≠ 0 → (d.ctx c).state ≠ 4 → d.liveStream c = none → 8 ≤ d.lat.streams.countP (fun x : Stream => x.outgoing && x.migration == true && x.state != 4 && x.state != 0x13 && x.state != 0x14) →
    Runs (.migrate b uid p dt) s [.flint, .qtz, .lat, .heads, .jcs, .mirror, .out] fun e =>
      Answered d e b.val 0xC496 (retOf 0x12) 0x12 false [] ∧
      e.lat = d.lat) ∧
  (∀ s (d : Dev) (b : Fin 4) uid (p : List Byte) (c r u : Nat) dt, d = s.dev.elapse dt → d.admits 0xC496 (caller b uid) p = true → c = fieldAt p 0 2 → r = fieldAt p 2 2 → u = fieldAt p 8 8 → c < 0x4000 → r < 0x4000 → u ≠ d.lat.uid → fieldAt p 4 1 ≤ 1 → 1 ≤ fieldAt p 5 1 → fieldAt p 5 1 ≤ 64 → (d.ctx c).state ≠ 0 → (d.ctx c).state ≠ 4 → d.liveStream c = none → d.lat.streams.countP (fun x : Stream => x.outgoing && x.migration == true && x.state != 4 && x.state != 0x13 && x.state != 0x14) < 8 → (d.nodeOf u = 0 ∨ d.routeLink (d.nodeOf u) = none) →
    Runs (.migrate b uid p dt) s [.flint, .qtz, .lat, .heads, .jcs, .mirror, .out] fun e =>
      Answered d e b.val 0xC496 (retOf 0x11) 0x11 false [] ∧
      e.lat = d.lat) ∧
  (∀ s (d : Dev) (b : Fin 4) uid (p : List Byte) (x : Stream) dt, d = s.dev.elapse dt → d.admits 0xC494 (caller b uid) p = true → d.lat.streams = [x] → x.outgoing = true → x.local_ = fieldAt p 0 2 → x.migration = false → x.state ≠ 4 → x.state ≠ 0x13 → x.state ≠ 0x14 → fieldAt p 2 1 = 1 →
    Runs (.controlReplica b uid p dt) s [.flint, .qtz, .lat, .heads, .jcs, .mirror, .out] fun e =>
      Answered d e b.val 0xC494 (0) 0 false [] ∧
      e.lat.streams = [{ x with state := 4, bits := [], flying := [], round := [], marks := [], sentMarks := [] }]) ∧
  (∀ s (d : Dev) (b : Fin 4) uid (p : List Byte) (x : Stream) dt, d = s.dev.elapse dt → d.admits 0xC494 (caller b uid) p = true → d.lat.streams = [x] → x.outgoing = true → x.local_ = fieldAt p 0 2 → x.migration = false → x.state ≠ 4 → x.state ≠ 0x13 → x.state ≠ 0x14 → fieldAt p 2 1 = 2 → 1 ≤ fieldAt p 4 4 → fieldAt p 4 4 ≤ 13700 →
    Runs (.controlReplica b uid p dt) s [.flint, .qtz, .lat, .heads, .jcs, .mirror, .out] fun e =>
      Answered d e b.val 0xC494 (0) 0 false [] ∧
      e.lat.streams = [{ x with rate := fieldAt p 4 4 }]) ∧
  (∀ s (d : Dev) (b : Fin 4) uid (p : List Byte) (x : Stream) dt, d = s.dev.elapse dt → d.admits 0xC494 (caller b uid) p = true → d.lat.streams = [x] → x.outgoing = true → x.local_ = fieldAt p 0 2 → x.migration = false → x.state ≠ 4 → x.state ≠ 0x13 → x.state ≠ 0x14 → fieldAt p 2 1 = 3 → x.setup = false →
    Runs (.controlReplica b uid p dt) s [.flint, .qtz, .lat, .heads, .jcs, .mirror, .out] fun e =>
      Answered d e b.val 0xC494 (0) 0 false [] ∧
      e.lat.streams.map (fun y : Stream => (y.session, y.state, y.resync)) = [(x.session, if x.state = 2 then 2 else 3, x.resync || x.state == 2)] ∧ (x.state ≠ 2 → e.lat.streams.map (fun y : Stream => y.bits.map fun z : Nat × Nat => z.1) = [d.streamPages x.local_])) ∧
  (∀ s (d : Dev) (b : Fin 4) uid (p : List Byte) dt, d = s.dev.elapse dt → d.admits 0xC494 (caller b uid) p = true → 1 ≤ fieldAt p 2 1 → fieldAt p 2 1 ≤ 3 → (fieldAt p 2 1 = 2 → 1 ≤ fieldAt p 4 4 ∧ fieldAt p 4 4 ≤ 13700) → d.liveStream (fieldAt p 0 2) = none →
    Runs (.controlReplica b uid p dt) s [.flint, .qtz, .lat, .heads, .jcs, .mirror, .out] fun e =>
      Answered d e b.val 0xC494 (retOf 4) 4 false [] ∧
      e.lat = d.lat) ∧
  (∀ s (d : Dev) (b : Fin 4) uid (p : List Byte) (x : Stream) dt, d = s.dev.elapse dt → d.admits 0xC497 (caller b uid) p = true → d.lat.streams = [x] → x.outgoing = true → x.local_ = fieldAt p 0 2 → x.migration = true → x.state ≠ 4 → x.state ≠ 0x13 → x.state ≠ 0x14 → fieldAt p 2 1 = 2 →
    Runs (.controlMigration b uid p dt) s [.mem, .expo, .restore, .flash, .ctxs, .dram, .flint, .qtz, .lat, .heads, .jcs, .mirror, .dw, .out] fun e =>
      Answered d e b.val 0xC497 (0) 0 false [] ∧
      e.lat.streams = [{ x with state := 0x14, bits := [], flying := [], round := [], dirtied := true }] ∧ e.ctxs = d.ctxs) ∧
  (∀ s (d : Dev) (b : Fin 4) uid (p : List Byte) (x : Stream) dt, d = s.dev.elapse dt → d.admits 0xC497 (caller b uid) p = true → d.lat.streams = [x] → x.outgoing = true → x.local_ = fieldAt p 0 2 → x.migration = true → x.state ≠ 4 → x.state ≠ 0x13 → x.state ≠ 0x14 → fieldAt p 2 1 = 1 → x.state = 0x11 → (4096 * x.bits.length ≤ x.switchGib * 2 ^ 30 ∨ 8 ≤ x.passes) → (d.ctx x.local_).state = 1 →
    Runs (.controlMigration b uid p dt) s [.mem, .expo, .restore, .flash, .ctxs, .dram, .flint, .qtz, .lat, .heads, .jcs, .mirror, .dw, .out] fun e =>
      Answered d e b.val 0xC497 (0) 0 false [] ∧
      e.lat.streams = [{ x with ordered := true, state := 0x12 }] ∧ (e.ctx x.local_).state = 2) ∧
  (∀ s (d : Dev) (b : Fin 4) uid (p : List Byte) dt, d = s.dev.elapse dt → d.admits 0xC497 (caller b uid) p = true → 1 ≤ fieldAt p 2 1 → fieldAt p 2 1 ≤ 2 → d.liveStream (fieldAt p 0 2) = none →
    Runs (.controlMigration b uid p dt) s [.mem, .expo, .restore, .flash, .ctxs, .dram, .flint, .qtz, .lat, .heads, .jcs, .mirror, .dw, .out] fun e =>
      Answered d e b.val 0xC497 (retOf 4) 4 false [] ∧
      e.lat = d.lat) ∧
  (∀ s (d : Dev) (b : Fin 4) uid (p : List Byte) (id tc : Nat) (ps : List (Nat × Nat)) dt, d = s.dev.elapse dt → d.admits 0xC498 (caller b uid) p = true → id = fieldAt p 0 4 → tc = fieldAt p 8 8 → ps = ckptParts p → d.qtz.hasTime = true → 100000000 ≤ (tc : Int) - d.lTime → (tc : Int) - d.lTime ≤ 86400000000000 → 1 ≤ fieldAt p 16 2 → fieldAt p 16 2 ≤ 256 → 32 + 16 * fieldAt p 16 2 ≤ p.length → (∀ x ∈ ps, x.2 < 0x4000) → (∀ k ∈ d.lat.ckpts, k.coord = true → k.complete = false → ¬(k.by_ = b.val ∧ k.reqId = id)) → b = 2 → d.lat.ckpts.countP (fun k : Ckpt => k.coord && !k.complete) < 16 → (∀ x ∈ ps, x.1 ≠ d.lat.uid) →
    Runs (.latticeCheckpoint b uid p dt) s [.mem, .expo, .restore, .flash, .ctxs, .dram, .flint, .qtz, .lat, .heads, .jcs, .mirror, .dw, .out] fun e =>
      Answered d e b.val 0xC498 (1) 0 true [] ∧
      e.lat.ckpts = d.lat.ckpts.filter (fun y : Ckpt => !(y.coord && y.by_ == b.val && y.reqId == id)) ++ [({ reqId := id, by_ := b.val, tc := tc, coord := true, uid := d.lat.uid, parts := ps.map fun x : Nat × Nat => ({ uid := x.1, context := x.2 } : CkptPart) } : Ckpt)] ∧
      (e.bgOf b.val).running = true ∧ (e.bgOf b.val).opcode = 0xC498) ∧
  (∀ s (d : Dev) (b : Fin 4) uid (p : List Byte) (id tc : Nat) (ps : List (Nat × Nat)) (c : Nat) dt, d = s.dev.elapse dt → d.admits 0xC498 (caller b uid) p = true → id = fieldAt p 0 4 → tc = fieldAt p 8 8 → ps = ckptParts p → d.qtz.hasTime = true → 100000000 ≤ (tc : Int) - d.lTime → (tc : Int) - d.lTime ≤ 86400000000000 → 1 ≤ fieldAt p 16 2 → fieldAt p 16 2 ≤ 256 → 32 + 16 * fieldAt p 16 2 ≤ p.length → (∀ x ∈ ps, x.2 < 0x4000) → (∀ k ∈ d.lat.ckpts, k.coord = true → k.complete = false → ¬(k.by_ = b.val ∧ k.reqId = id)) → d.lat.ckpts.countP (fun k : Ckpt => k.coord && !k.complete) < 16 → ps = [(d.lat.uid, c)] → (d.ctx c).state = 1 → (b = 2 ∨ (d.ctx c).owner = b.val + 1) →
    Runs (.latticeCheckpoint b uid p dt) s [.mem, .expo, .restore, .flash, .ctxs, .dram, .flint, .qtz, .lat, .heads, .jcs, .mirror, .dw, .out] fun e =>
      Answered d e b.val 0xC498 (1) 0 true [] ∧
      e.lat.ckpts = d.lat.ckpts.filter (fun y : Ckpt => !(y.coord && y.by_ == b.val && y.reqId == id)) ++ [({ reqId := id, by_ := b.val, tc := tc, coord := true, uid := d.lat.uid, parts := ([{ uid := d.lat.uid, context := c }] : List CkptPart) } : Ckpt), ({ reqId := id, tc := tc, coord := false, uid := d.lat.uid, context := c } : Ckpt)] ∧
      (e.bgOf b.val).running = true ∧ (e.bgOf b.val).opcode = 0xC498) ∧
  (∀ s (d : Dev) (b : Fin 4) uid (p : List Byte) (id tc : Nat) (ps : List (Nat × Nat)) dt, d = s.dev.elapse dt → d.admits 0xC498 (caller b uid) p = true → id = fieldAt p 0 4 → tc = fieldAt p 8 8 → ps = ckptParts p → d.qtz.hasTime = true → 100000000 ≤ (tc : Int) - d.lTime → (tc : Int) - d.lTime ≤ 86400000000000 → 1 ≤ fieldAt p 16 2 → fieldAt p 16 2 ≤ 256 → 32 + 16 * fieldAt p 16 2 ≤ p.length → (∀ x ∈ ps, x.2 < 0x4000) → (∀ k ∈ d.lat.ckpts, k.coord = true → k.complete = false → ¬(k.by_ = b.val ∧ k.reqId = id)) → b = 2 → 16 ≤ d.lat.ckpts.countP (fun k : Ckpt => k.coord && !k.complete) →
    Runs (.latticeCheckpoint b uid p dt) s [.mem, .expo, .restore, .flash, .ctxs, .dram, .flint, .qtz, .lat, .heads, .jcs, .mirror, .dw, .out] fun e =>
      Answered d e b.val 0xC498 (retOf 0x12) 0x12 false [] ∧
      e.lat = d.lat) ∧
  (∀ s (d : Dev) (b : Fin 4) uid (p : List Byte) (id tc : Nat) (ps : List (Nat × Nat)) (x : Nat × Nat) dt, d = s.dev.elapse dt → d.admits 0xC498 (caller b uid) p = true → id = fieldAt p 0 4 → tc = fieldAt p 8 8 → ps = ckptParts p → d.qtz.hasTime = true → 100000000 ≤ (tc : Int) - d.lTime → (tc : Int) - d.lTime ≤ 86400000000000 → 1 ≤ fieldAt p 16 2 → fieldAt p 16 2 ≤ 256 → 32 + 16 * fieldAt p 16 2 ≤ p.length → (∀ x ∈ ps, x.2 < 0x4000) → (∀ k ∈ d.lat.ckpts, k.coord = true → k.complete = false → ¬(k.by_ = b.val ∧ k.reqId = id)) → b < 2 → x ∈ ps → (x.1 ≠ d.lat.uid ∨ (d.ctx x.2).owner ≠ b.val + 1) →
    Runs (.latticeCheckpoint b uid p dt) s [.mem, .expo, .restore, .flash, .ctxs, .dram, .flint, .qtz, .lat, .heads, .jcs, .mirror, .dw, .out] fun e =>
      Answered d e b.val 0xC498 (retOf 5) 5 false [] ∧
      e.lat = d.lat) ∧
  (∀ s (d : Dev) (b : Fin 4) uid (p : List Byte) dt, d = s.dev.elapse dt → d.admits 0xC498 (caller b uid) p = true → (d.qtz.hasTime = false ∨ (fieldAt p 8 8 : Int) - d.lTime < 100000000 ∨ 86400000000000 < (fieldAt p 8 8 : Int) - d.lTime ∨ fieldAt p 16 2 = 0 ∨ 256 < fieldAt p 16 2) →
    Runs (.latticeCheckpoint b uid p dt) s [.mem, .expo, .restore, .flash, .ctxs, .dram, .flint, .qtz, .lat, .heads, .jcs, .mirror, .dw, .out] fun e =>
      Answered d e b.val 0xC498 (retOf 2) 2 false [] ∧
      e.lat = d.lat)

/-- For every caller and payload that pass the checks of R403: Retire rank moves a NORMAL or DEGRADED rank to a free spare or leaves it
DEGRADED, and Return rank begins the return of a repaired one; both only queue entries for their Slate record. Set DRAM configuration keeps
the first four fields for the next package reset, and refuses them while a granule is VALID. Release stratum removes one stratum. Acquire
takes a free lease for a principal of R404 or renews its own; release and break end one, and no other lease changes. Confirm needs a pending
try. Enter Bedrock sets BEDROCK_REQ on every tile, answers, and the seal of the reset begins. (R162, R170, R218, R245, R248, R404, R406,
R425, R426, R427, R429, R483) -/
def Obligations.RankStrataLeaseAndUpdateCommands : Prop :=
  (∀ s (d : Dev) (b : Fin 4) uid (p : List Byte) (t k : Nat) (sp : Nat) dt, d = s.dev.elapse dt → d.admits 0xC4A2 (caller b uid) p = true → t = fieldAt p 0 1 → k = fieldAt p 1 1 → t ≤ 7 → k ≤ 15 → ((d.steerNext t k).state = 0 ∨ (d.steerNext t k).state = 4) → d.freeSpare t (k % 4) = some sp →
    Runs (.retireRank b uid p dt) s [.dram, .flint, .qtz, .lat, .heads, .jcs, .slate, .mirror, .dw, .out] fun e =>
      Answered d e b.val 0xC4A2 (0) 0 false [] ∧
      (e.steerNext t k).state = 1 ∧ (e.steerNext t k).sweep = 0 ∧ (e.steerNext t k).altCh = sp % 4 ∧ (e.steerNext t k).altRank = sp / 4 ∧ (e.steerNext t k).reason = 6 ∧
      (e.steerNext t sp).state = 6 ∧ (e.steerNext t sp).altCh = k % 4 ∧ (e.steerNext t sp).altRank = k / 4 ∧ e.dram.steer = d.dram.steer ∧ e.mem = d.mem) ∧
  (∀ s (d : Dev) (b : Fin 4) uid (p : List Byte) (t k : Nat) dt, d = s.dev.elapse dt → d.admits 0xC4A2 (caller b uid) p = true → t = fieldAt p 0 1 → k = fieldAt p 1 1 → t ≤ 7 → k ≤ 15 → (d.steerNext t k).state = 0 → d.freeSpare t (k % 4) = none →
    Runs (.retireRank b uid p dt) s [.dram, .flint, .qtz, .lat, .heads, .jcs, .slate, .mirror, .dw, .out] fun e =>
      Answered d e b.val 0xC4A2 (0) 0 false [] ∧
      (e.steerNext t k).state = 4 ∧ (e.steerNext t k).reason = 6 ∧ (e.rank t k).retired = true ∧ e.dram.steer = d.dram.steer) ∧
  (∀ s (d : Dev) (b : Fin 4) uid (p : List Byte) (t k : Nat) dt, d = s.dev.elapse dt → d.admits 0xC4A2 (caller b uid) p = true → t = fieldAt p 0 1 → k = fieldAt p 1 1 → t ≤ 7 → k ≤ 15 → (d.steerNext t k).state = 4 → d.freeSpare t (k % 4) = none →
    Runs (.retireRank b uid p dt) s [.dram, .flint, .qtz, .lat, .heads, .jcs, .slate, .mirror, .dw, .out] fun e =>
      Answered d e b.val 0xC4A2 (0) 0 false [] ∧
      (e.steerNext t k).state = 4 ∧ (e.steerNext t k).reason = 6) ∧
  (∀ s (d : Dev) (b : Fin 4) uid (p : List Byte) (t k : Nat) dt, d = s.dev.elapse dt → d.admits 0xC4A2 (caller b uid) p = true → t = fieldAt p 0 1 → k = fieldAt p 1 1 → t ≤ 7 → k ≤ 15 → (d.steerNext t k).state ≠ 0 → (d.steerNext t k).state ≠ 4 →
    Runs (.retireRank b uid p dt) s [.dram, .flint, .qtz, .lat, .heads, .jcs, .slate, .mirror, .dw, .out] fun e =>
      Answered d e b.val 0xC4A2 (retOf 4) 4 false [] ∧
      e.dram = d.dram) ∧
  (∀ s (d : Dev) (b : Fin 4) uid (p : List Byte) (t k : Nat) dt, d = s.dev.elapse dt → d.admits 0xC4A3 (caller b uid) p = true → t = fieldAt p 0 1 → k = fieldAt p 1 1 → t ≤ 7 → k ≤ 15 → (d.steerNext t k).state = 2 → (d.steerNext t k).testPass = true →
    Runs (.returnRank b uid p dt) s [.dram, .flint, .qtz, .lat, .heads, .jcs, .slate, .mirror, .out] fun e =>
      Answered d e b.val 0xC4A3 (0) 0 false [] ∧
      (e.steerNext t k).state = 3 ∧ (e.steerNext t k).sweep = 0 ∧ (e.steerNext t k).altRank = (d.steerNext t k).altRank ∧ e.dram.steer = d.dram.steer) ∧
  (∀ s (d : Dev) (b : Fin 4) uid (p : List Byte) (t k : Nat) dt, d = s.dev.elapse dt → d.admits 0xC4A3 (caller b uid) p = true → t = fieldAt p 0 1 → k = fieldAt p 1 1 → t ≤ 7 → k ≤ 15 → ((d.steerNext t k).state ≠ 2 ∨ (d.steerNext t k).testPass = false) →
    Runs (.returnRank b uid p dt) s [.dram, .flint, .qtz, .lat, .heads, .jcs, .slate, .mirror, .out] fun e =>
      Answered d e b.val 0xC4A3 (retOf 4) 4 false [] ∧
      e.dram = d.dram) ∧
  (∀ s (d : Dev) (b : Fin 4) uid (p : List Byte) (m : Nat) dt, d = s.dev.elapse dt → d.admits 0xC4A4 (caller b uid) p = true → m = fieldAt p 0 1 → (m.testBit 0 = true → 0 ≤ fieldAt p 1 1 ∧ fieldAt p 1 1 ≤ 3) → (m.testBit 1 = true → 0 ≤ fieldAt p 2 1 ∧ fieldAt p 2 1 ≤ 4) → (m.testBit 2 = true → 0 ≤ fieldAt p 3 1 ∧ fieldAt p 3 1 ≤ 2) → (m.testBit 3 = true → 0 ≤ fieldAt p 4 1 ∧ fieldAt p 4 1 ≤ 2) → (m.testBit 4 = true → 0 ≤ fieldAt p 5 1 ∧ fieldAt p 5 1 ≤ 1) → (m.testBit 5 = true → fieldAt p 8 2 = 0 ∨ 50 ≤ fieldAt p 8 2 ∧ fieldAt p 8 2 ≤ 10000) → (m % 16 = 0 ∨ (∀ g ∈ d.ctxs.rt, g.2.valid = false)) →
    Runs (.setDramConfiguration b uid p dt) s [.dram, .flint, .qtz, .lat, .heads, .jcs, .slate, .mirror, .dw, .out] fun e =>
      Answered d e b.val 0xC4A4 (0) 0 false [] ∧
      e.dram.cfg = { d.dram.cfg with nextSpares := if m.testBit 0 then fieldAt p 1 1 else d.dram.cfg.nextSpares, nextCgrain := if m.testBit 1 then fieldAt p 2 1 else d.dram.cfg.nextCgrain, nextTgrain := if m.testBit 2 then fieldAt p 3 1 else d.dram.cfg.nextTgrain, nextRate := if m.testBit 3 then fieldAt p 4 1 else d.dram.cfg.nextRate, autoReturn := if m.testBit 4 then fieldAt p 5 1 == 1 else d.dram.cfg.autoReturn, idleSr := if m.testBit 5 then fieldAt p 8 2 else d.dram.cfg.idleSr } ∧
      e.dram.steer = d.dram.steer ∧ 0x61 ∈ (e.sl 0).pend ∧ 0x61 ∈ (e.sl 4).pend) ∧
  (∀ s (d : Dev) (b : Fin 4) uid (p : List Byte) (m : Nat) (g : Nat × Granule) dt, d = s.dev.elapse dt → d.admits 0xC4A4 (caller b uid) p = true → m = fieldAt p 0 1 → (m.testBit 0 = true → 0 ≤ fieldAt p 1 1 ∧ fieldAt p 1 1 ≤ 3) → (m.testBit 1 = true → 0 ≤ fieldAt p 2 1 ∧ fieldAt p 2 1 ≤ 4) → (m.testBit 2 = true → 0 ≤ fieldAt p 3 1 ∧ fieldAt p 3 1 ≤ 2) → (m.testBit 3 = true → 0 ≤ fieldAt p 4 1 ∧ fieldAt p 4 1 ≤ 2) → (m.testBit 4 = true → 0 ≤ fieldAt p 5 1 ∧ fieldAt p 5 1 ≤ 1) → (m.testBit 5 = true → fieldAt p 8 2 = 0 ∨ 50 ≤ fieldAt p 8 2 ∧ fieldAt p 8 2 ≤ 10000) → m % 16 ≠ 0 → g ∈ d.ctxs.rt → g.2.valid = true →
    Runs (.setDramConfiguration b uid p dt) s [.dram, .flint, .qtz, .lat, .heads, .jcs, .slate, .mirror, .dw, .out] fun e =>
      Answered d e b.val 0xC4A4 (retOf 4) 4 false [] ∧
      e.dram = d.dram ∧ e.slate = d.slate) ∧
  (∀ s (d : Dev) (b : Fin 4) uid (p : List Byte) (y : Nat) dt, d = s.dev.elapse dt → d.admits 0xC4B1 (caller b uid) p = true → y = fieldAt p 0 1 → 1 ≤ y → y ≤ 40 → d.now + 30 * day ≤ y * year →
    Runs (.setLifeTarget b uid p dt) s [.strata, .flint, .qtz, .lat, .heads, .jcs, .slate, .mirror, .out] fun e =>
      Answered d e b.val 0xC4B1 (0) 0 false [] ∧
      e.strata = { d.strata with lifeTarget := y } ∧ 0x62 ∈ (e.sl 0).pend ∧ 0x62 ∈ (e.sl 4).pend) ∧
  (∀ s (d : Dev) (b : Fin 4) uid (p : List Byte) (y : Nat) dt, d = s.dev.elapse dt → d.admits 0xC4B1 (caller b uid) p = true → y = fieldAt p 0 1 → (y = 0 ∨ 40 < y ∨ y * year < d.now + 30 * day) →
    Runs (.setLifeTarget b uid p dt) s [.strata, .flint, .qtz, .lat, .heads, .jcs, .slate, .mirror, .out] fun e =>
      Answered d e b.val 0xC4B1 (retOf 2) 2 false [] ∧
      e.strata = d.strata ∧ e.slate = d.slate) ∧
  (∀ s (d : Dev) (b : Fin 4) uid (p : List Byte) (c : Nat) (x : Stratum) dt, d = s.dev.elapse dt → d.admits 0xC4B3 (caller b uid) p = true → c = fieldAt p 0 2 → x ∈ d.strata.strata → x.context = c → x.time = fieldAt p 8 8 →
    Runs (.releaseStratum b uid p dt) s [.expo, .strata, .flash, .flint, .qtz, .lat, .heads, .jcs, .mirror, .out] fun e =>
      Answered d e b.val 0xC4B3 (0) 0 false [] ∧
      e.strata.strata = d.strata.strata.filter (fun y : Stratum => !(y.context == c && y.time == fieldAt p 8 8)) ∧ e.strata.loc = d.strata.loc) ∧
  (∀ s (d : Dev) (b : Fin 4) uid (p : List Byte) dt, d = s.dev.elapse dt → d.admits 0xC4B3 (caller b uid) p = true → d.stratumAt (fieldAt p 0 2) (fieldAt p 8 8) = none →
    Runs (.releaseStratum b uid p dt) s [.expo, .strata, .flash, .flint, .qtz, .lat, .heads, .jcs, .mirror, .out] fun e =>
      Answered d e b.val 0xC4B3 (retOf 0x10) 0x10 false [] ∧
      e.strata = d.strata) ∧
  (∀ s (d : Dev) (b : Fin 4) uid (p : List Byte) (r t n : Nat) dt, d = s.dev.elapse dt → d.admits 0xC4C0 (caller b uid) p = true → r = fieldAt p 0 2 → t = fieldAt p 2 2 → r ≤ 0x4005 → r ≠ 0x4003 → (t = 0 ∨ 10 ≤ t ∧ t ≤ 3600) → d.mayHold b.val r = true → (d.lease r).holder = 255 → n = (if t = 0 then 600 else t) →
    Runs (.acquire b uid p dt) s [.flint, .qtz, .lat, .heads, .jcs, .mirror, .out] fun e =>
      Answered d e b.val 0xC4C0 (0) 0 false (leBytes 8 (d.now + n * 1000000000)) ∧
      e.lease r = ({ holder := b.val, uid := if b = 3 then uid else 0, acquired := d.now, timeoutS := n, last := d.now } : Lease_) ∧ (∀ j : Nat, j < 0x4006 → j ≠ r → e.lease j = d.lease j)) ∧
  (∀ s (d : Dev) (b : Fin 4) uid (p : List Byte) (r t n : Nat) dt, d = s.dev.elapse dt → d.admits 0xC4C0 (caller b uid) p = true → r = fieldAt p 0 2 → t = fieldAt p 2 2 → r ≤ 0x4005 → r ≠ 0x4003 → (t = 0 ∨ 10 ≤ t ∧ t ≤ 3600) → d.mayHold b.val r = true → (d.lease r).heldBy (caller b uid) = true → n = (if t = 0 then 600 else t) →
    Runs (.acquire b uid p dt) s [.flint, .qtz, .lat, .heads, .jcs, .mirror, .out] fun e =>
      Answered d e b.val 0xC4C0 (0) 0 false (leBytes 8 (d.now + n * 1000000000)) ∧
      (e.lease r).holder = b.val ∧ (e.lease r).acquired = (d.lease r).acquired ∧ (e.lease r).timeoutS = n ∧ (e.lease r).last = d.now) ∧
  (∀ s (d : Dev) (b : Fin 4) uid (p : List Byte) (r t : Nat) dt, d = s.dev.elapse dt → d.admits 0xC4C0 (caller b uid) p = true → r = fieldAt p 0 2 → t = fieldAt p 2 2 → r ≤ 0x4005 → r ≠ 0x4003 → (t = 0 ∨ 10 ≤ t ∧ t ≤ 3600) → d.mayHold b.val r = false →
    Runs (.acquire b uid p dt) s [.flint, .qtz, .lat, .heads, .jcs, .mirror, .out] fun e =>
      Answered d e b.val 0xC4C0 (retOf 5) 5 false [] ∧
      e.jcs.leases = d.jcs.leases) ∧
  (∀ s (d : Dev) (b : Fin 4) uid (p : List Byte) (r t : Nat) dt, d = s.dev.elapse dt → d.admits 0xC4C0 (caller b uid) p = true → r = fieldAt p 0 2 → t = fieldAt p 2 2 → (0x4005 < r ∨ r = 0x4003 ∨ 0 < t ∧ t < 10 ∨ 3600 < t) →
    Runs (.acquire b uid p dt) s [.flint, .qtz, .lat, .heads, .jcs, .mirror, .out] fun e =>
      Answered d e b.val 0xC4C0 (retOf 2) 2 false [] ∧
      e.jcs.leases = d.jcs.leases) ∧
  (∀ s (d : Dev) (b : Fin 4) uid (p : List Byte) (r : Nat) dt, d = s.dev.elapse dt → d.admits 0xC4C1 (caller b uid) p = true → r = fieldAt p 0 2 → r ≤ 0x4005 → r ≠ 0x4003 → (d.lease r).heldBy (caller b uid) = true →
    Runs (.leaseRelease b uid p dt) s [.flint, .qtz, .lat, .heads, .jcs, .slate, .upd, .mirror, .out, .freeN] fun e =>
      Answered d e b.val 0xC4C1 (0) 0 false [] ∧
      (e.lease r).holder = 255 ∧ (∀ j : Nat, j < 0x4006 → j ≠ r → e.lease j = d.lease j)) ∧
  (∀ s (d : Dev) (b : Fin 4) uid (p : List Byte) (r : Nat) dt, d = s.dev.elapse dt → d.admits 0xC4C1 (caller b uid) p = true → r = fieldAt p 0 2 → r ≤ 0x4005 → (d.lease r).heldBy (caller b uid) = false →
    Runs (.leaseRelease b uid p dt) s [.flint, .qtz, .lat, .heads, .jcs, .slate, .upd, .mirror, .out, .freeN] fun e =>
      Answered d e b.val 0xC4C1 (retOf 4) 4 false [] ∧
      e.jcs.leases = d.jcs.leases) ∧
  (∀ s (d : Dev) (b : Fin 4) uid (p : List Byte) (r : Nat) dt, d = s.dev.elapse dt → d.admits 0xC4C3 (caller b uid) p = true → r = fieldAt p 0 2 → r ≤ 0x4005 → r ≠ 0x4003 →
    Runs (.breakLease b uid p dt) s [.flint, .qtz, .lat, .heads, .jcs, .slate, .upd, .mirror, .out, .freeN] fun e =>
      Answered d e b.val 0xC4C3 (0) 0 false (leBytes 1 (d.lease r).holder) ∧
      (e.lease r).holder = 255 ∧ (∀ j : Nat, j < 0x4006 → j ≠ r → e.lease j = d.lease j)) ∧
  (∀ s (d : Dev) (b : Fin 4) uid (p : List Byte) dt, d = s.dev.elapse dt → d.admits 0xC4C3 (caller b uid) p = true → fieldAt p 0 2 = 0x4003 → d.lrec.trySlot = none → d.lrec.owner ≠ 255 →
    Runs (.breakLease b uid p dt) s [.flint, .qtz, .lat, .heads, .jcs, .slate, .upd, .mirror, .out, .freeN] fun e =>
      Answered d e b.val 0xC4C3 (0) 0 false (leBytes 1 (d.lease 0x4003).holder) ∧
      (e.lease 0x4003).holder = 255 ∧ e.lrec.owner = 255 ∧ e.upd.xfer = {}) ∧
  (∀ s (d : Dev) (b : Fin 4) uid (p : List Byte) dt, d = s.dev.elapse dt → d.admits 0xC4E1 (caller b uid) p = true → fieldAt p 0 1 ≤ 1 →
    Runs (.setUpdatePolicy b uid p dt) s [.flint, .qtz, .lat, .heads, .jcs, .slate, .upd, .mirror, .out] fun e =>
      Answered d e b.val 0xC4E1 (0) 0 false [] ∧
      e.upd = { d.upd with confirmMode := fieldAt p 0 1 == 1 } ∧ 0x62 ∈ (e.sl 0).pend ∧ 0x62 ∈ (e.sl 4).pend) ∧
  (∀ s (d : Dev) (b : Fin 4) uid (p : List Byte) dt, d = s.dev.elapse dt → d.admits 0xC4E2 (caller b uid) p = true → d.lrec.trySlot ≠ none →
    Runs (.confirm b uid p dt) s [.flint, .qtz, .lat, .heads, .jcs, .upd, .mirror, .out] fun e =>
      Answered d e b.val 0xC4E2 (0) 0 false [] ∧
      e.upd = { d.upd with confirmRx := true }) ∧
  (∀ s (d : Dev) (b : Fin 4) uid (p : List Byte) dt, d = s.dev.elapse dt → d.admits 0xC4E2 (caller b uid) p = true → d.lrec.trySlot = none →
    Runs (.confirm b uid p dt) s [.flint, .qtz, .lat, .heads, .jcs, .upd, .mirror, .out] fun e =>
      Answered d e b.val 0xC4E2 (retOf 4) 4 false [] ∧
      e.upd = d.upd) ∧
  (∀ s (d : Dev) (b : Fin 4) uid (p : List Byte) dt, d = s.dev.elapse dt → d.admits 0xC4E3 (caller b uid) p = true →
    Runs (.enterBedrock b uid p dt) s [.mem, .pkg, .expo, .sealing, .restore, .flash, .ctxs, .dram, .energy, .therm, .flint, .qtz, .lat, .heads, .jcs, .slate, .upd, .panel, .mirror, .dw, .out, .freeN] fun e =>
      Answered d e b.val 0xC4E3 (0) 0 false [] ∧
      (∀ t : Nat, t < 8 → (e.urec t).bedrockReq = true) ∧ e.sealing.active = true ∧ e.sealing.test = false ∧ e.sealing.cause = 3 ∧ e.sealing.frozen = true)

/-- A doorbell, an MCTP request of the sideband owner and a relayed command with a changing opcode are stamped with the present time and join
the queue of 64; a full queue answers BUSY with the output FFh and nothing joins it; a reading command is dispatched at once; a request of
another endpoint is refused with NOT_PERMITTED and changes nothing but the output; a doorbell of a busy mailbox changes nothing (the model's
choice, log). COMMAND_DISPATCH takes nothing before 1 µs has passed since the stamp, then the oldest changing command runs and leaves the
queue; of two simultaneous commands on a free resource that both pass the checks before the leases, the one of lesser rank of R407 runs and
the other completes with LEASE_CONFLICT, naming the winner and the resource; the winner too waits for 1 µs after its own stamp. A lease that
has been idle for TIMEOUT_S ends, unless it is the update slot's; one that has not stands. A background command that is over reports
SUCCESS, one that is not goes on. A Direct Window write outside the status region changes nothing. (R175, R380, R393, R397, R398, R400,
R402, R403, R406, R407, R409, R412) -/
def Obligations.SerialiserCommands : Prop :=
  (∀ s (d : Dev) (h : Fin 2) (op : BitVec 16) (p : List Byte) dt, d = s.dev.elapse dt → (d.head h.val).mboxBusy = true →
    Runs (.mailboxDoorbell h op p dt) s [.mem, .pkg, .expo, .sealing, .restore, .strata, .flash, .ctxs, .dram, .energy, .therm, .flint, .qtz, .snap, .lat, .heads, .jcs, .slate, .upd, .panel, .mirror, .dw, .out, .freeN] fun e => e = d) ∧
  (∀ s (d : Dev) (h : Fin 2) (op : BitVec 16) (p : List Byte) dt, d = s.dev.elapse dt → (d.head h.val).mboxBusy = false → d.panel.coreUp = true →
    d.restore.phase ≠ 1 → d.restore.phase ≠ 2 → isChanging op.toNat = true → d.jcs.queue.length < 64 →
    Runs (.mailboxDoorbell h op p dt) s [.mem, .pkg, .expo, .sealing, .restore, .strata, .flash, .ctxs, .dram, .energy, .therm, .flint, .qtz, .snap, .lat, .heads, .jcs, .slate, .upd, .panel, .mirror, .dw, .out, .freeN] fun e =>
      e.jcs.queue = d.jcs.queue ++ [({ by_ := h.val, stamp := d.now, opcode := op.toNat, payload := p } : QCmd)] ∧ (e.head h.val).mboxBusy = true ∧ e.out = d.out) ∧
  (∀ s (d : Dev) (h : Fin 2) (op : BitVec 16) (p : List Byte) dt, d = s.dev.elapse dt → (d.head h.val).mboxBusy = false → d.panel.coreUp = true →
    d.restore.phase ≠ 1 → d.restore.phase ≠ 2 → 0xC400 ≤ op.toNat → op.toNat ≤ 0xC4FF → 64 ≤ d.jcs.queue.length →
    Runs (.mailboxDoorbell h op p dt) s [.mem, .pkg, .expo, .sealing, .restore, .strata, .flash, .ctxs, .dram, .energy, .therm, .flint, .qtz, .snap, .lat, .heads, .jcs, .slate, .upd, .panel, .mirror, .dw, .out, .freeN] fun e =>
      e.jcs.queue = d.jcs.queue ∧ Answered d e h.val op.toNat (retOf 9) 9 false ([0xFF, 0, 0, 0] : List Byte)) ∧
  (∀ s (d : Dev) (h : Fin 2) (op : BitVec 16) (p : List Byte) dt, d = s.dev.elapse dt → (d.head h.val).mboxBusy = false → d.panel.coreUp = true →
    d.restore.phase ≠ 1 → d.restore.phase ≠ 2 → 0xC400 ≤ op.toNat → op.toNat ≤ 0xC4FF → isChanging op.toNat = false → d.jcs.queue.length < 64 → d.answers = true →
    Runs (.mailboxDoorbell h op p dt) s [.mem, .pkg, .expo, .sealing, .restore, .strata, .flash, .ctxs, .dram, .energy, .therm, .flint, .qtz, .snap, .lat, .heads, .jcs, .slate, .upd, .panel, .mirror, .dw, .out, .freeN] fun e =>
      e = (d.onHead h.val fun x => { x with mboxBusy := true }).jcsRun op.toNat { p := h.val } p ∧ (e.head h.val).mboxBusy = false) ∧
  (∀ s (d : Dev) (eid : BitVec 8) (tag op : BitVec 16) (p : List Byte) dt, d = s.dev.elapse dt → d.panel.coreUp = true → d.pkg.bedrock = false → eid.toNat = d.jcs.sbEid →
    d.restore.phase ≠ 1 → d.restore.phase ≠ 2 → p.length ≤ 16384 → isChanging op.toNat = true → d.jcs.queue.length < 64 →
    Runs (.mctpRequest eid tag op p dt) s [.mem, .pkg, .expo, .sealing, .restore, .strata, .flash, .ctxs, .dram, .energy, .therm, .flint, .qtz, .snap, .lat, .heads, .jcs, .slate, .upd, .panel, .mirror, .dw, .out, .freeN] fun e =>
      e.jcs.queue = d.jcs.queue ++ [({ by_ := 2, tag := tag.toNat, stamp := d.now, opcode := op.toNat, payload := p } : QCmd)] ∧ tag.toNat ∈ e.jcs.mctpBusy ∧ e.out = d.out) ∧
  (∀ s (d : Dev) (eid : BitVec 8) (tag op : BitVec 16) (p : List Byte) dt, d = s.dev.elapse dt → d.panel.coreUp = true → d.pkg.bedrock = false → eid.toNat ≠ d.jcs.sbEid →
    Runs (.mctpRequest eid tag op p dt) s [.mem, .pkg, .expo, .sealing, .restore, .strata, .flash, .ctxs, .dram, .energy, .therm, .flint, .qtz, .snap, .lat, .heads, .jcs, .slate, .upd, .panel, .mirror, .dw, .out, .freeN] fun e => e = { d with out := e.out } ∧ ∃ x : Out, e.out = x :: d.out) ∧
  (∀ s (d : Dev) (l : Fin 6) (uid : Nat) (tag op : BitVec 16) (p : List Byte) dt, d = (s.dev.elapse dt).rxFrames l.val 1 (1 + (p.length + 63) / 64) → d.latGate = some 0 →
    d.panel.coreUp = true → d.restore.phase ≠ 1 → d.restore.phase ≠ 2 → d.pkg.bedrock = false → p.length ≤ 16384 → isChanging op.toNat = true → d.jcs.queue.length < 64 →
    Runs (.jcsRelay l uid tag op p dt) s [.mem, .pkg, .expo, .sealing, .restore, .strata, .flash, .ctxs, .dram, .energy, .therm, .flint, .qtz, .snap, .lat, .heads, .jcs, .slate, .upd, .panel, .mirror, .dw, .out, .freeN] fun e =>
      e.jcs.queue = d.jcs.queue ++ [({ by_ := 3, uid := uid, tag := tag.toNat, stamp := d.now, opcode := op.toNat, payload := p } : QCmd)] ∧ e.out = d.out) ∧
  (∀ s (d : Dev) dt, d = s.dev.elapse dt → (∀ q : QCmd, q ∈ d.jcs.queue → isChanging q.opcode = true ∧ d.now < q.stamp + 1000 ∧ q.stamp ≤ d.now) →
    Runs (.commandDispatch dt) s [.mem, .pkg, .expo, .sealing, .restore, .strata, .flash, .ctxs, .dram, .energy, .therm, .flint, .qtz, .snap, .lat, .heads, .jcs, .slate, .upd, .panel, .mirror, .dw, .out, .freeN] fun e => e = d) ∧
  (∀ s (d : Dev) (q : QCmd) dt, d = s.dev.elapse dt → d.answers = true → d.jcs.queue = [q] → isChanging q.opcode = true → q.stamp + 1000 ≤ d.now →
    Runs (.commandDispatch dt) s [.mem, .pkg, .expo, .sealing, .restore, .strata, .flash, .ctxs, .dram, .energy, .therm, .flint, .qtz, .snap, .lat, .heads, .jcs, .slate, .upd, .panel, .mirror, .dw, .out, .freeN] fun e => e = ((d.onJcs fun j => { j with queue := [] }).jcsRun q.opcode q.caller q.payload).mirrorNow) ∧
  (∀ s (d : Dev) (q x : QCmd) (r : Nat) dt, d = s.dev.elapse dt → d.answers = true → d.jcs.queue = [q, x] → isChanging q.opcode = true → isChanging x.opcode = true →
    q.stamp + 1000 ≤ d.now → x.stamp < q.stamp + 1000 → q.by_ ≠ x.by_ → d.reaches q = true → d.reaches x = true → q.shared x = some r → x.shared q = some r →
    (d.lease r).holder = 255 → leaseRank r x.by_ < leaseRank r q.by_ → x.stamp + 1000 ≤ d.now →
    Runs (.commandDispatch dt) s [.mem, .pkg, .expo, .sealing, .restore, .strata, .flash, .ctxs, .dram, .energy, .therm, .flint, .qtz, .snap, .lat, .heads, .jcs, .slate, .upd, .panel, .mirror, .dw, .out, .freeN] fun e =>
      e = (((d.onJcs fun j => { j with queue := [] }).jcsRun x.opcode x.caller x.payload).respond q.caller q.opcode (retOf 6) 6 false (conflictOut x.by_ r)).mirrorNow) ∧
  (∀ s (d : Dev) (q x : QCmd) (r : Nat) dt, d = s.dev.elapse dt → d.answers = true → d.jcs.queue = [q, x] → isChanging q.opcode = true → isChanging x.opcode = true →
    q.stamp + 1000 ≤ d.now → x.stamp < q.stamp + 1000 → q.by_ ≠ x.by_ → d.reaches q = true → d.reaches x = true → q.shared x = some r → x.shared q = some r →
    (d.lease r).holder = 255 → leaseRank r x.by_ < leaseRank r q.by_ → x.stamp ≤ d.now → d.now < x.stamp + 1000 →
    Runs (.commandDispatch dt) s [.mem, .pkg, .expo, .sealing, .restore, .strata, .flash, .ctxs, .dram, .energy, .therm, .flint, .qtz, .snap, .lat, .heads, .jcs, .slate, .upd, .panel, .mirror, .dw, .out, .freeN] fun e => e = d) ∧
  (∀ s (d : Dev) (q x : QCmd) (r : Nat) dt, d = s.dev.elapse dt → d.answers = true → d.jcs.queue = [q, x] → isChanging q.opcode = true → isChanging x.opcode = true →
    q.stamp + 1000 ≤ d.now → x.stamp < q.stamp + 1000 → q.by_ ≠ x.by_ → d.reaches q = true → d.reaches x = true → q.shared x = some r → x.shared q = some r →
    (d.lease r).holder = 255 → leaseRank r q.by_ < leaseRank r x.by_ →
    Runs (.commandDispatch dt) s [.mem, .pkg, .expo, .sealing, .restore, .strata, .flash, .ctxs, .dram, .energy, .therm, .flint, .qtz, .snap, .lat, .heads, .jcs, .slate, .upd, .panel, .mirror, .dw, .out, .freeN] fun e =>
      e = (((d.onJcs fun j => { j with queue := [] }).jcsRun q.opcode q.caller q.payload).respond x.caller x.opcode (retOf 6) 6 false (conflictOut q.by_ r)).mirrorNow) ∧
  (∀ s (d : Dev) (r : Nat) dt, d = s.dev.elapse dt → r ≠ 0x4003 → (d.lease r).holder ≠ 255 → (d.lease r).timeoutS * 1000000000 ≤ d.now - (d.lease r).last →
    Runs (.leaseTimeout r dt) s [.qtz, .jcs, .mirror] fun e => (e.lease r).holder = 255 ∧ (∀ j : Nat, j < 0x4006 → j ≠ r → e.lease j = d.lease j)) ∧
  (∀ s (d : Dev) (r : Nat) dt, d = s.dev.elapse dt → (r = 0x4003 ∨ (d.lease r).holder = 255 ∨ d.now - (d.lease r).last < (d.lease r).timeoutS * 1000000000) →
    Runs (.leaseTimeout r dt) s [.qtz, .jcs, .mirror] fun e => e = d) ∧
  (∀ s (d : Dev) (b : Fin 3) dt, d = s.dev.elapse dt → (d.bgOf b.val).running = true → d.bgOver b.val (d.bgOf b.val) = true →
    Runs (.backgroundComplete b dt) s [.qtz, .heads, .jcs, .mirror] fun e => e.bgOf b.val = { d.bgOf b.val with running := false, pct := 100, ret := 0, ext := 0 }) ∧
  (∀ s (d : Dev) (b : Fin 3) dt, d = s.dev.elapse dt → ((d.bgOf b.val).running = false ∨ d.bgOver b.val (d.bgOf b.val) = false) →
    Runs (.backgroundComplete b dt) s [.qtz, .heads, .jcs, .mirror] fun e => e = d) ∧
  (∀ s (d : Dev) (h : Fin 2) (off : BitVec 27) dt, d = s.dev.elapse dt → 0x100000 ≤ off.toNat → Runs (.dwWriteDiscarded h off dt) s [.flint, .qtz] fun e => e = d) ∧
  (∀ s (d : Dev) (h : Fin 2) (off : BitVec 27) dt, d = s.dev.elapse dt → d.panel.coreUp = true → off.toNat < 0x100000 →
    Runs (.dwWriteDiscarded h off dt) s [.flint, .qtz] fun e =>
      e = d.deliver { src := ownSrc h.val, kind := 0x12, sev := 0, tile := d.pkg.lead, headOnly := h.val })

/-- Where commands are answered, outside Bedrock, after early open, with no seal and no safe state, each supported CXL memory-device command
answers SUCCESS with the values of its row; health information needs no early open. Those that set a value set it for that head, and the
dirty-shutdown count and Quartz do not move. Inject Poison stores a poisoned line in a granule that the head owns, its page then dirty where
its class persists; Clear Poison writes the whole line given and it is poisoned no longer; an address outside an open granule of the head is
refused and nothing changes. Event records are cleared by their handles or all at once. An accepted extent joins the list and leaves the
offers; a released one leaves the list, and its granule waits for the commit of VALID = 0 with a TRIM. The unsupported commands answer
Unsupported. (R38, R41, R74, R75, R131, R133, R176, R177, R178, R397, R430, R467) -/
def Obligations.CxlMemoryDeviceCommands : Prop :=
  (∀ s (d : Dev) (h : Fin 2) dt, d = s.dev.elapse dt → d.cxlServes = true →
    Runs (.identifyMemoryDevice h dt) s [.qtz, .heads, .out] fun e =>
      CxlAnswered d e h.val 0x4000 0 [(8 * d.hostGib * 2 ^ 30), (8 * d.hostGib * 2 ^ 30), 0, 8192, 0]) ∧
  (∀ s (d : Dev) (h : Fin 2) dt, d = s.dev.elapse dt → d.cxlServes = true →
    Runs (.getPartitionInfo h dt) s [.qtz, .heads, .out] fun e =>
      CxlAnswered d e h.val 0x4100 0 [0, (8 * d.hostGib * 2 ^ 30), 0, (8 * d.hostGib * 2 ^ 30)]) ∧
  (∀ s (d : Dev) (h : Fin 2) dt, d = s.dev.elapse dt → d.answers = true → d.pkg.bedrock = false → d.sealing.active = false → d.pkg.safe = 0 →
    Runs (.getHealthInfo h dt) s [.qtz, .heads, .out] fun e =>
      CxlAnswered d e h.val 0x4200 0 [bits (d.dwGet 0x500 0) 40 1, d.mediaNow, min 100 (bits (d.dwGet 0x680 0) 48 8), twos 16 (d.pkgMaxT / 16), d.restore.dsCount]) ∧
  (∀ s (d : Dev) (h : Fin 2) dt, d = s.dev.elapse dt → d.cxlServes = true →
    Runs (.getAlertConfiguration h dt) s [.qtz, .heads, .out] fun e =>
      CxlAnswered d e h.val 0x4201 0 [(d.head h.val).alertCfg.toNat]) ∧
  (∀ s (d : Dev) (h : Fin 2) (cfg : BitVec 128) dt, d = s.dev.elapse dt → d.cxlServes = true →
    Runs (.setAlertConfiguration h cfg dt) s [.qtz, .heads, .out] fun e =>
      CxlAnswered d e h.val 0x4202 0 [] ∧
      (e.head h.val).alertCfg = cfg ∧ e.head (1 - h.val) = d.head (1 - h.val)) ∧
  (∀ s (d : Dev) (h : Fin 2) dt, d = s.dev.elapse dt → d.cxlServes = true →
    Runs (.getShutdownState h dt) s [.qtz, .heads, .out] fun e =>
      CxlAnswered d e h.val 0x4203 0 [(d.head h.val).shutdownState]) ∧
  (∀ s (d : Dev) (h : Fin 2) (v : BitVec 8) dt, d = s.dev.elapse dt → d.cxlServes = true →
    Runs (.setShutdownState h v dt) s [.qtz, .heads, .out] fun e =>
      CxlAnswered d e h.val 0x4204 0 [] ∧
      (e.head h.val).shutdownState = v.toNat ∧ e.restore.dsCount = d.restore.dsCount) ∧
  (∀ s (d : Dev) (h : Fin 2) (a n : Nat) (rs : List PoisonRange) dt, d = s.dev.elapse dt → d.cxlServes = true → rs = (d.head h.val).poison.filter (fun r : PoisonRange => decide (r.dpa < a + n) && decide (a < r.dpa + r.len)) →
    Runs (.getPoisonList h a n dt) s [.qtz, .heads, .out] fun e =>
      CxlAnswered d e h.val 0x4300 0 ([bit (d.head h.val).poisonOvf, rs.length] ++ rs.flatMap fun r : PoisonRange => [r.dpa, r.len])) ∧
  (∀ s (d : Dev) (h : Fin 2) (dpa : BitVec 45) dt, d = s.dev.elapse dt → d.cxlServes = true → dpa.toNat % 64 = 0 → d.pageOpen h.val (dpa.toNat / 4096) = true → (d.tile (d.pageTile (dpa.toNat / 4096))).isolated = false → ((d.holds { id := d.expo.nextReq, head := h.val, line := dpa.toNat / 64, write := true, data := 0, mask := BitVec.allOnes 64, arrive := d.now, cmd := 1 }).free = true) → d.lineWaits (dpa.toNat / 64) true false false = false →
    Runs (.injectPoison h dpa dt) s [.mem, .expo, .restore, .ctxs, .dram, .flint, .qtz, .lat, .heads, .dw, .out] fun e =>
      CxlAnswered d e h.val 0x4301 0 [] ∧
      e.poisoned (dpa.toNat / 64) = true ∧ (d.persistent (dpa.toNat / 4096) = true → e.isDirty (dpa.toNat / 4096) = true) ∧ (∀ a, a / 64 ≠ dpa.toNat / 64 → e.mem.byte a = d.mem.byte a)) ∧
  (∀ s (d : Dev) (h : Fin 2) (dpa : BitVec 45) dt, d = s.dev.elapse dt → d.cxlServes = true → (dpa.toNat % 64 ≠ 0 ∨ d.pageOpen h.val (dpa.toNat / 4096) = false) →
    Runs (.injectPoison h dpa dt) s [.mem, .expo, .restore, .ctxs, .dram, .flint, .qtz, .lat, .heads, .dw, .out] fun e =>
      CxlAnswered d e h.val 0x4301 3 [] ∧
      e.expo = d.expo ∧ e.mem = d.mem) ∧
  (∀ s (d : Dev) (h : Fin 2) (dpa : BitVec 45) (data : BitVec 512) dt, d = s.dev.elapse dt → d.cxlServes = true → dpa.toNat % 64 = 0 → d.pageOpen h.val (dpa.toNat / 4096) = true → (d.tile (d.pageTile (dpa.toNat / 4096))).isolated = false → ((d.holds { id := d.expo.nextReq, head := h.val, line := dpa.toNat / 64, write := true, data := data, mask := BitVec.allOnes 64, arrive := d.now, cmd := 2 }).free = true) → d.lineWaits (dpa.toNat / 64) true false false = false →
    Runs (.clearPoison h dpa data dt) s [.mem, .expo, .restore, .ctxs, .dram, .flint, .qtz, .lat, .heads, .dw, .out] fun e =>
      CxlAnswered d e h.val 0x4302 0 [] ∧
      e.poisoned (dpa.toNat / 64) = false ∧ e.mem = d.mem.setLine (dpa.toNat / 64) data (BitVec.allOnes 64) ∧ (d.persistent (dpa.toNat / 4096) = true → e.isDirty (dpa.toNat / 4096) = true)) ∧
  (∀ s (d : Dev) (h : Fin 2) (dpa : BitVec 45) (data : BitVec 512) dt, d = s.dev.elapse dt → d.cxlServes = true → (dpa.toNat % 64 ≠ 0 ∨ d.pageOpen h.val (dpa.toNat / 4096) = false) →
    Runs (.clearPoison h dpa data dt) s [.mem, .expo, .restore, .ctxs, .dram, .flint, .qtz, .lat, .heads, .dw, .out] fun e =>
      CxlAnswered d e h.val 0x4302 3 [] ∧
      e.expo = d.expo ∧ e.mem = d.mem) ∧
  (∀ s (d : Dev) (h : Fin 2) (log : Fin 5) (es : List CxlEvent) dt, d = s.dev.elapse dt → d.cxlServes = true → es = (d.head h.val).events.filter (fun x : CxlEvent => x.log == log.val) →
    Runs (.getEventRecords h log dt) s [.qtz, .heads, .out] fun e =>
      CxlAnswered d e h.val 0x100 0 (es.length :: es.flatMap CxlEvent.vals)) ∧
  (∀ s (d : Dev) (h : Fin 2) (log : Fin 5) (all : Bool) (hs : List Nat) dt, d = s.dev.elapse dt → d.cxlServes = true → (all = true ∨ ∀ k ∈ hs, ∃ x ∈ (d.head h.val).events, x.log = log.val ∧ x.handle = k) →
    Runs (.clearEventRecords h log all hs dt) s [.qtz, .heads, .out] fun e =>
      CxlAnswered d e h.val 0x101 0 [] ∧
      (e.head h.val).events = (d.head h.val).events.filter (fun x : CxlEvent => x.log != log.val || !(all || hs.contains x.handle)) ∧ e.head (1 - h.val) = d.head (1 - h.val)) ∧
  (∀ s (d : Dev) (h : Fin 2) (log : Fin 5) (hs : List Nat) (k : Nat) dt, d = s.dev.elapse dt → d.cxlServes = true → k ∈ hs → (∀ x : CxlEvent, x ∈ (d.head h.val).events → x.log = log.val → x.handle ≠ k) →
    Runs (.clearEventRecords h log false hs dt) s [.qtz, .heads, .out] fun e =>
      CxlAnswered d e h.val 0x101 2 [] ∧
      (e.head h.val).events = (d.head h.val).events) ∧
  (∀ s (d : Dev) (h : Fin 2) dt, d = s.dev.elapse dt → d.cxlServes = true →
    Runs (.getEventInterruptPolicy h dt) s [.qtz, .heads, .out] fun e =>
      CxlAnswered d e h.val 0x102 0 ((List.range 5).map fun i : Nat => bits (d.head h.val).evtPolicy.toNat (8 * i) 8)) ∧
  (∀ s (d : Dev) (h : Fin 2) (v : BitVec 40) dt, d = s.dev.elapse dt → d.cxlServes = true →
    Runs (.setEventInterruptPolicy h v dt) s [.qtz, .heads, .out] fun e =>
      CxlAnswered d e h.val 0x103 0 [] ∧
      (e.head h.val).evtPolicy = v ∧ e.head (1 - h.val) = d.head (1 - h.val)) ∧
  (∀ s (d : Dev) (h : Fin 2) dt, d = s.dev.elapse dt → d.cxlServes = true →
    Runs (.getTimestamp h dt) s [.qtz, .heads, .out] fun e =>
      CxlAnswered d e h.val 0x300 0 [if (d.head h.val).hostTime = 0 then 0 else (d.head h.val).hostTime + (d.now - (d.head h.val).hostTimeAt)]) ∧
  (∀ s (d : Dev) (h : Fin 2) (v : BitVec 64) dt, d = s.dev.elapse dt → d.cxlServes = true →
    Runs (.setTimestamp h v dt) s [.qtz, .heads, .out] fun e =>
      CxlAnswered d e h.val 0x301 0 [] ∧
      (e.head h.val).hostTime = v.toNat ∧ (e.head h.val).hostTimeAt = d.now ∧ e.qtz = d.qtz) ∧
  (∀ s (d : Dev) (h : Fin 2) dt, d = s.dev.elapse dt → d.cxlServes = true →
    Runs (.getSupportedLogs h dt) s [.qtz, .heads, .out] fun e =>
      CxlAnswered d e h.val 0x400 0 [1, celUuid.toNat, effectsLog.length]) ∧
  (∀ s (d : Dev) (h : Fin 2) (off n : BitVec 32) dt, d = s.dev.elapse dt → d.cxlServes = true → off.toNat + n.toNat ≤ effectsLog.length → n.toNat ≤ 16384 →
    Runs (.getLog h celUuid off n dt) s [.qtz, .heads, .out] fun e =>
      CxlAnswered d e h.val 0x401 0 (((effectsLog.drop off.toNat).take n.toNat).map fun b : Byte => b.toNat)) ∧
  (∀ s (d : Dev) (h : Fin 2) (log : BitVec 128) (off n : BitVec 32) dt, d = s.dev.elapse dt → d.cxlServes = true → (log ≠ celUuid ∨ effectsLog.length < off.toNat + n.toNat) →
    Runs (.getLog h log off n dt) s [.qtz, .heads, .out] fun e =>
      CxlAnswered d e h.val 0x401 2 []) ∧
  (∀ s (d : Dev) (h : Fin 2) dt, d = s.dev.elapse dt → d.cxlServes = true →
    Runs (.getFwInfo h dt) s [.qtz, .heads, .out] fun e =>
      CxlAnswered d e h.val 0x200 0 [2, d.runSlot + 1, (match d.lrec.trySlot with | some x => x + 1 | none => 0), if d.lrec.stateA = 1 ∨ d.lrec.stateA = 3 then d.lrec.verA else 0, if d.lrec.stateB = 1 ∨ d.lrec.stateB = 3 then d.lrec.verB else 0]) ∧
  (∀ s (d : Dev) (h : Fin 2) dt, d = s.dev.elapse dt → d.cxlServes = true →
    Runs (.getDcConfig h dt) s [.qtz, .heads, .out] fun e =>
      CxlAnswered d e h.val 0x4800 0 [1, 0, (8 * d.hostGib * 2 ^ 30), 2 ^ 30]) ∧
  (∀ s (d : Dev) (h : Fin 2) dt, d = s.dev.elapse dt → d.cxlServes = true →
    Runs (.getDcExtentList h dt) s [.qtz, .heads, .out] fun e =>
      CxlAnswered d e h.val 0x4801 0 ((d.head h.val).extents.length :: (d.head h.val).extents.flatMap fun x : Nat × Nat => [x.1 * 2 ^ 30, 2 ^ 30, x.2])) ∧
  (∀ s (d : Dev) (h : Fin 2) (gs : List Nat) dt, d = s.dev.elapse dt → d.cxlServes = true → (∀ g ∈ gs, ∃ o ∈ (d.head h.val).dcOffers, o.release = false ∧ g ∈ o.granules) →
    Runs (.addDcResponse h gs dt) s [.expo, .flash, .ctxs, .qtz, .heads, .out] fun e =>
      CxlAnswered d e h.val 0x4802 0 [] ∧
      (∀ g : Nat, g ∈ gs → ∃ x : Nat × Nat, x ∈ (e.head h.val).extents ∧ x.1 = g) ∧ (∀ x : Nat × Nat, x ∈ (d.head h.val).extents → x ∈ (e.head h.val).extents) ∧
      (∀ o : DcOffer, o ∈ (e.head h.val).dcOffers → o.release = false → ∀ g : Nat, g ∈ gs → g ∉ o.granules) ∧ e.ctxs.rt = d.ctxs.rt) ∧
  (∀ s (d : Dev) (h : Fin 2) (gs : List Nat) (g : Nat) dt, d = s.dev.elapse dt → d.cxlServes = true → g ∈ gs → (∀ o : DcOffer, o ∈ (d.head h.val).dcOffers → o.release = false → g ∉ o.granules) →
    Runs (.addDcResponse h gs dt) s [.expo, .flash, .ctxs, .qtz, .heads, .out] fun e =>
      CxlAnswered d e h.val 0x4802 3 [] ∧
      (e.head h.val).extents = (d.head h.val).extents ∧ e.ctxs = d.ctxs) ∧
  (∀ s (d : Dev) (h : Fin 2) (gs : List Nat) dt, d = s.dev.elapse dt → d.cxlServes = true → (∀ k ∈ gs, (d.gran k).valid = true ∧ (d.gran k).head = h.val + 1 ∧ d.granPend k = false ∧ ∃ x ∈ (d.head h.val).extents, x.1 = k) →
    Runs (.releaseDc h gs dt) s [.expo, .flash, .ctxs, .qtz, .heads, .out] fun e =>
      CxlAnswered d e h.val 0x4803 0 [] ∧
      (∀ k : Nat, k ∈ gs → ∃ x : RtChange, x ∈ e.ctxs.rtPend ∧ x.granule = k ∧ x.entry.valid = false ∧ x.trim = true) ∧
      (e.head h.val).extents = (d.head h.val).extents.filter (fun x : Nat × Nat => !gs.contains x.1)) ∧
  (∀ s (d : Dev) (h : Fin 2) (gs : List Nat) (k : Nat) dt, d = s.dev.elapse dt → d.cxlServes = true → k ∈ gs → (d.gran k).valid = false →
    Runs (.releaseDc h gs dt) s [.expo, .flash, .ctxs, .qtz, .heads, .out] fun e =>
      CxlAnswered d e h.val 0x4803 3 [] ∧
      (e.head h.val).extents = (d.head h.val).extents ∧ e.ctxs = d.ctxs) ∧
  (∀ s (d : Dev) (h : Fin 2) dt, d = s.dev.elapse dt → d.answers = true →
    Runs (.setPartitionInfo h dt) s [.qtz, .heads, .out] fun e =>
      CxlAnswered d e h.val 0x4101 1 []) ∧
  (∀ s (d : Dev) (h : Fin 2) dt, d = s.dev.elapse dt → d.answers = true →
    Runs (.scanMedia h dt) s [.qtz, .heads, .out] fun e =>
      CxlAnswered d e h.val 0x4304 1 []) ∧
  (∀ s (d : Dev) (h : Fin 2) dt, d = s.dev.elapse dt → d.answers = true →
    Runs (.cxlSanitize h dt) s [.qtz, .heads, .out] fun e =>
      CxlAnswered d e h.val 0x4400 1 []) ∧
  (∀ s (d : Dev) (h : Fin 2) dt, d = s.dev.elapse dt → d.answers = true →
    Runs (.secureErase h dt) s [.qtz, .heads, .out] fun e =>
      CxlAnswered d e h.val 0x4401 1 []) ∧
  (∀ s (d : Dev) (h : Fin 2) dt, d = s.dev.elapse dt → d.answers = true →
    Runs (.getLsa h dt) s [.qtz, .heads, .out] fun e =>
      CxlAnswered d e h.val 0x4102 1 []) ∧
  (∀ s (d : Dev) (h : Fin 2) dt, d = s.dev.elapse dt → d.answers = true →
    Runs (.setLsa h dt) s [.qtz, .heads, .out] fun e =>
      CxlAnswered d e h.val 0x4103 1 [])

/-- On every tile: the two keys in order and in time arm the block; a wrong or late key, another register between the keys, a wrong code, a late
operand and a refusal of R435 set FAIL and ERR, disarm, and start nothing and change no line. The operand that completes a sequence starts
the operation of its bank; an erase first writes its intent line and increments the sector's counter; a swap programs the next slot.
SLATE_OPERATION_DONE ends the operation with DONE, or FAIL with its code: a program and a swap write the line, an erase empties the sector,
checks and the counter read report in SLATE_RES. Only an erase suspends, not within 2 ms of its last resume, and it resumes with its pulses
and counter. A read underrun is counted and raises TAP by 2. A due record is written in the ready sector that does not hold its newest copy
with the next RSEQ. The event store rotates when fewer than 96 KiB are free. A firmware sector is refreshed only while the other slot is
valid. SLATE_KEY carries the register offset (DESIGN CHOICE, log). (R434, R435, R436, R437, R440, R445, R447, R449, R453, R455, R456, R458) -/
def Obligations.SlateCommands : Prop :=
  (∀ s (d : Dev) (t : Fin 8) (v : BitVec 64) (fetch : Fin 3) (purpose : Fin 4) dt, d = s.dev.elapse dt → (d.sl t.val).keyStep = 0 → v.toNat % 65536 = 0x6D2B →
    Runs (.slateKey t 8 v fetch purpose dt) s [.expo, .restore, .ctxs, .flint, .qtz, .slate] fun e =>
      e = d.onSl t.val fun x => { x with keyStep := 1, keyAt := d.now }) ∧
  (∀ s (d : Dev) (t : Fin 8) (v : BitVec 64) (fetch : Fin 3) (purpose : Fin 4) dt, d = s.dev.elapse dt → (d.sl t.val).keyStep = 1 → v.toNat % 65536 = 0x92D4 → d.now - (d.sl t.val).keyAt ≤ 1000 →
    Runs (.slateKey t 8 v fetch purpose dt) s [.expo, .restore, .ctxs, .flint, .qtz, .slate] fun e =>
      e = (d.onSl t.val fun x => { x with keyStep := 2 }) ∧
      bits (e.slateStat t.val) 3 1 = 1) ∧
  (∀ s (d : Dev) (t : Fin 8) (v : BitVec 64) (fetch : Fin 3) (purpose : Fin 4) dt, d = s.dev.elapse dt → (d.sl t.val).keyStep = 1 → (v.toNat % 65536 ≠ 0x92D4 ∨ 1000 < d.now - (d.sl t.val).keyAt) →
    Runs (.slateKey t 8 v fetch purpose dt) s [.expo, .restore, .ctxs, .flint, .qtz, .slate] fun e =>
      (e.sl t.val).fail = true ∧ (e.sl t.val).err = 1 ∧ (e.sl t.val).keyStep = 0 ∧ (e.sl t.val).seq = none ∧ (e.sl t.val).ops = (d.sl t.val).ops ∧ (e.sl t.val).lines = (d.sl t.val).lines) ∧
  (∀ s (d : Dev) (t : Fin 8) (off : BitVec 7) (v : BitVec 64) (fetch : Fin 3) (purpose : Fin 4) dt, d = s.dev.elapse dt → (d.sl t.val).keyStep = 1 → off.toNat ≠ 8 → (d.sl t.val).seq = none → off ≠ 0x48 →
    Runs (.slateKey t off v fetch purpose dt) s [.expo, .restore, .ctxs, .flint, .qtz, .slate] fun e =>
      (e.sl t.val).fail = true ∧ (e.sl t.val).err = 1 ∧ (e.sl t.val).keyStep = 0 ∧ (e.sl t.val).seq = none ∧ (e.sl t.val).ops = (d.sl t.val).ops ∧ (e.sl t.val).lines = (d.sl t.val).lines) ∧
  (∀ s (d : Dev) (t : Fin 8) (v : BitVec 64) (fetch : Fin 3) (purpose : Fin 4) dt, d = s.dev.elapse dt → (d.sl t.val).keyStep = 0 →
    Runs (.slateKey t 0 v fetch purpose dt) s [.expo, .restore, .ctxs, .flint, .qtz, .slate] fun e =>
      e = d.onSl t.val fun x => { x with stallOk := bits v.toNat 0 1 == 1, doneIrq := bits v.toNat 1 1 == 1 }) ∧
  (∀ s (d : Dev) (t : Fin 8) (v : BitVec 64) (fetch : Fin 3) (purpose : Fin 4) dt, d = s.dev.elapse dt → (d.sl t.val).keyStep = 0 →
    Runs (.slateKey t 0x30 v fetch purpose dt) s [.expo, .restore, .ctxs, .flint, .qtz, .slate] fun e =>
      (bits v.toNat 1 1 = 1 → (e.sl t.val).done = false) ∧ (bits v.toNat 1 1 = 0 → (e.sl t.val).done = (d.sl t.val).done) ∧ (bits v.toNat 2 1 = 1 → (e.sl t.val).fail = false) ∧ (bits v.toNat 2 1 = 0 → (e.sl t.val).fail = (d.sl t.val).fail) ∧
      (bits v.toNat 6 1 = 1 → (e.sl t.val).underrun = false) ∧ (bits v.toNat 7 1 = 1 → (e.sl t.val).rdErr = false) ∧ (e.sl t.val).err = (d.sl t.val).err) ∧
  (∀ s (d : Dev) (t : Fin 8) (v : BitVec 64) (fetch : Fin 3) (purpose : Fin 4) dt, d = s.dev.elapse dt → (d.sl t.val).keyStep = 0 →
    Runs (.slateKey t 0x40 v fetch purpose dt) s [.expo, .restore, .ctxs, .flint, .qtz, .slate] fun e =>
      e = d.onSl t.val fun x => { x with tap := v.toNat % 16 }) ∧
  (∀ s (d : Dev) (t : Fin 8) (code : BitVec 8) dt, d = s.dev.elapse dt → (d.sl t.val).keyStep = 2 → (d.sl t.val).seq = none → 1 ≤ code.toNat → code.toNat ≤ 6 →
    Runs (.slateCmdWrite t code dt) s [.flint, .qtz, .slate] fun e =>
      e = d.onSl t.val fun x => { x with code := code.toNat, seq := some code.toNat, seqAt := d.now, opIdx := 0 }) ∧
  (∀ s (d : Dev) (t : Fin 8) (code : BitVec 8) dt, d = s.dev.elapse dt → (d.sl t.val).keyStep = 2 → (d.sl t.val).seq = none → (code.toNat = 0 ∨ 6 < code.toNat) →
    Runs (.slateCmdWrite t code dt) s [.flint, .qtz, .slate] fun e =>
      (e.sl t.val).fail = true ∧ (e.sl t.val).err = 4 ∧ (e.sl t.val).keyStep = 0 ∧ (e.sl t.val).seq = none ∧ (e.sl t.val).ops = (d.sl t.val).ops ∧ (e.sl t.val).lines = (d.sl t.val).lines) ∧
  (∀ s (d : Dev) (t : Fin 8) (code : BitVec 8) dt, d = s.dev.elapse dt → (d.sl t.val).keyStep = 0 →
    Runs (.slateCmdWrite t code dt) s [.flint, .qtz, .slate] fun e =>
      e.slate = d.slate ∧
      e.flint = (d.raise (tsrc t.val 53) 0x12 0).flint) ∧
  (∀ s (d : Dev) (t : Fin 8) (addr : BitVec 23) (data : BitVec 128) (fetch : Fin 3) dt, d = s.dev.elapse dt → (d.sl t.val).keyStep = 2 → (d.sl t.val).seq = some 1 → (d.sl t.val).opIdx = 0 → d.now - (d.sl t.val).seqAt ≤ 100000 → d.opRefused t.val fetch.val 1 (addr.toNat) = none →
    Runs (.programLine t addr data fetch dt) s [.expo, .restore, .ctxs, .flint, .qtz, .slate] fun e =>
      e.slOp t.val (slateBank addr.toNat) = some ({ code := 1, addr := addr.toNat, data := data, resumedAt := d.now } : SlateOp) ∧
      (e.sl t.val).keyStep = 0 ∧ (e.sl t.val).seq = none ∧ bits (e.slateStat t.val) 0 1 = 1 ∧ bits (e.slateStat t.val) 3 1 = 0 ∧
      (e.sl t.val).lines = (d.sl t.val).lines) ∧
  (∀ s (d : Dev) (t : Fin 8) (addr : BitVec 23) (data : BitVec 128) (fetch : Fin 3) (r : Nat) dt, d = s.dev.elapse dt → (d.sl t.val).keyStep = 2 → (d.sl t.val).seq = some 1 → (d.sl t.val).opIdx = 0 → d.now - (d.sl t.val).seqAt ≤ 100000 → d.opRefused t.val fetch.val 1 addr.toNat = some r →
    Runs (.programLine t addr data fetch dt) s [.expo, .restore, .ctxs, .flint, .qtz, .slate] fun e =>
      (e.sl t.val).fail = true ∧ (e.sl t.val).err = r ∧ (e.sl t.val).keyStep = 0 ∧ (e.sl t.val).seq = none ∧ (e.sl t.val).ops = (d.sl t.val).ops ∧ (e.sl t.val).lines = (d.sl t.val).lines ∧
      (r = 2 → fetch.val = slateBank addr.toNat)) ∧
  (∀ s (d : Dev) (t : Fin 8) (addr : BitVec 23) (data : BitVec 128) (fetch : Fin 3) dt, d = s.dev.elapse dt → (d.sl t.val).keyStep = 2 → (d.sl t.val).seq = some 1 → 100000 < d.now - (d.sl t.val).seqAt →
    Runs (.programLine t addr data fetch dt) s [.expo, .restore, .ctxs, .flint, .qtz, .slate] fun e =>
      (e.sl t.val).fail = true ∧ (e.sl t.val).err = 5 ∧ (e.sl t.val).keyStep = 0 ∧ (e.sl t.val).seq = none ∧ (e.sl t.val).ops = (d.sl t.val).ops ∧ (e.sl t.val).lines = (d.sl t.val).lines) ∧
  (∀ s (d : Dev) (t : Fin 8) (addr : BitVec 23) (data : BitVec 128) (fetch : Fin 3) dt, d = s.dev.elapse dt → (d.sl t.val).keyStep = 0 → (d.sl t.val).seq = none →
    Runs (.programLine t addr data fetch dt) s [.expo, .restore, .ctxs, .flint, .qtz, .slate] fun e =>
      (e.sl t.val).addr = addr.toNat ∧ (e.sl t.val).data1 ++ (e.sl t.val).data0 = data ∧ (e.sl t.val).ops = (d.sl t.val).ops ∧ (e.sl t.val).err = (d.sl t.val).err) ∧
  (∀ s (d : Dev) (t : Fin 8) (addr : BitVec 23) (fetch : Fin 3) (purpose : Fin 4) dt, d = s.dev.elapse dt → (d.sl t.val).keyStep = 2 → (d.sl t.val).seq = some 2 → (d.sl t.val).opIdx = 0 → d.now - (d.sl t.val).seqAt ≤ 100000 → d.opRefused t.val fetch.val 2 (addr.toNat) = none → d.openIntent t.val (secOf addr.toNat) = none → d.secUsed t.val (26 + (d.sl t.val).intentSector) ≤ 504 → (d.sl t.val).intentSector ≤ 1 →
    Runs (.eraseSector t addr fetch purpose dt) s [.expo, .restore, .ctxs, .flint, .qtz, .slate] fun e =>
      e.slOp t.val (slateBank addr.toNat) = some ({ code := 2, addr := secBase (secOf addr.toNat), purpose := purpose.val, resumedAt := d.now } : SlateOp) ∧
      tget (e.sl t.val).counters 0 (secOf addr.toNat) = min 0xFFFFFF (tget (d.sl t.val).counters 0 (secOf addr.toNat) + 1) ∧
      (e.sl t.val).lines = tset (d.sl t.val).lines (secBase (26 + (d.sl t.val).intentSector) / 16 + d.secUsed t.val (26 + (d.sl t.val).intentSector)) (intentBits ({ ltype := 0x49, sector := secOf addr.toNat, purpose := purpose.val, iseq := d.topIseq t.val + 1, ecount := tget (d.sl t.val).counters 0 (secOf addr.toNat) } : IntentLine)) ∧
      (e.sl t.val).keyStep = 0 ∧ (e.sl t.val).seq = none ∧ bits (e.slateStat t.val) 0 1 = 1 ∧ bits (e.slateStat t.val) 3 1 = 0) ∧
  (∀ s (d : Dev) (t : Fin 8) (addr : BitVec 23) (fetch : Fin 3) dt, d = s.dev.elapse dt → (d.sl t.val).keyStep = 2 → (d.sl t.val).seq = some 3 → (d.sl t.val).opIdx = 0 → d.now - (d.sl t.val).seqAt ≤ 100000 → d.opRefused t.val fetch.val 3 (addr.toNat) = none →
    Runs (.marginVerify t addr fetch dt) s [.expo, .restore, .ctxs, .flint, .qtz, .slate] fun e =>
      e.slOp t.val (slateBank addr.toNat) = some ({ code := 3, addr := addr.toNat, data := (d.sl t.val).data1 ++ (d.sl t.val).data0, resumedAt := d.now } : SlateOp) ∧
      (e.sl t.val).keyStep = 0 ∧ (e.sl t.val).seq = none ∧ bits (e.slateStat t.val) 0 1 = 1 ∧ bits (e.slateStat t.val) 3 1 = 0 ∧
      (e.sl t.val).lines = (d.sl t.val).lines ∧ (e.sl t.val).counters = (d.sl t.val).counters) ∧
  (∀ s (d : Dev) (t : Fin 8) (addr : BitVec 23) (fetch : Fin 3) dt, d = s.dev.elapse dt → (d.sl t.val).keyStep = 2 → (d.sl t.val).seq = some 4 → (d.sl t.val).opIdx = 0 → d.now - (d.sl t.val).seqAt ≤ 100000 → d.opRefused t.val fetch.val 4 (addr.toNat) = none →
    Runs (.readEraseCounter t addr fetch dt) s [.expo, .restore, .ctxs, .flint, .qtz, .slate] fun e =>
      e.slOp t.val (slateBank addr.toNat) = some ({ code := 4, addr := addr.toNat, data := (d.sl t.val).data1 ++ (d.sl t.val).data0, resumedAt := d.now } : SlateOp) ∧
      (e.sl t.val).keyStep = 0 ∧ (e.sl t.val).seq = none ∧ bits (e.slateStat t.val) 0 1 = 1 ∧ bits (e.slateStat t.val) 3 1 = 0 ∧
      (e.sl t.val).lines = (d.sl t.val).lines ∧ (e.sl t.val).counters = (d.sl t.val).counters) ∧
  (∀ s (d : Dev) (t : Fin 8) (addr : BitVec 23) (fetch : Fin 3) dt, d = s.dev.elapse dt → (d.sl t.val).keyStep = 2 → (d.sl t.val).seq = some 6 → (d.sl t.val).opIdx = 0 → d.now - (d.sl t.val).seqAt ≤ 100000 → d.opRefused t.val fetch.val 6 (addr.toNat) = none →
    Runs (.blankCheck t addr fetch dt) s [.expo, .restore, .ctxs, .flint, .qtz, .slate] fun e =>
      e.slOp t.val (slateBank addr.toNat) = some ({ code := 6, addr := addr.toNat, data := (d.sl t.val).data1 ++ (d.sl t.val).data0, resumedAt := d.now } : SlateOp) ∧
      (e.sl t.val).keyStep = 0 ∧ (e.sl t.val).seq = none ∧ bits (e.slateStat t.val) 0 1 = 1 ∧ bits (e.slateStat t.val) 3 1 = 0 ∧
      (e.sl t.val).lines = (d.sl t.val).lines ∧ (e.sl t.val).counters = (d.sl t.val).counters) ∧
  (∀ s (d : Dev) (t : Fin 8) (addr : BitVec 23) (fetch : Fin 3) (sq tw slot : Nat) dt, d = s.dev.elapse dt → (d.sl t.val).keyStep = 2 → (d.sl t.val).seq = some 5 → (d.sl t.val).opIdx = 0 → d.now - (d.sl t.val).seqAt ≤ 100000 → d.opRefused t.val fetch.val 5 (addr.toNat) = none → d.newestSwap t.val = some (sq, tw, slot) →
    Runs (.swapBootTwin t addr fetch dt) s [.expo, .restore, .ctxs, .flint, .qtz, .slate] fun e =>
      e.slOp t.val 0 = some ({ code := 5, addr := secBase (28 + (slot + 1) % 3) + 16 * d.secUsed t.val (28 + (slot + 1) % 3), data := swapBits (addr.toNat % 2) (sq + 1), resumedAt := d.now } : SlateOp) ∧
      (e.sl t.val).keyStep = 0 ∧ (e.sl t.val).seq = none ∧ bits (e.slateStat t.val) 0 1 = 1 ∧ bits (e.slateStat t.val) 3 1 = 0 ∧
      (e.sl t.val).lines = (d.sl t.val).lines) ∧
  (∀ s (d : Dev) (t : Fin 8) (addr : BitVec 23) (fetch : Fin 3) dt, d = s.dev.elapse dt → (d.sl t.val).keyStep = 2 → (d.sl t.val).seq = some 5 → (d.sl t.val).opIdx = 0 → d.now - (d.sl t.val).seqAt ≤ 100000 → d.opRefused t.val fetch.val 5 (addr.toNat) = none → d.newestSwap t.val = none →
    Runs (.swapBootTwin t addr fetch dt) s [.expo, .restore, .ctxs, .flint, .qtz, .slate] fun e =>
      e.slOp t.val 0 = some ({ code := 5, addr := secBase 28 + 16 * d.secUsed t.val 28, data := swapBits (addr.toNat % 2) 1, resumedAt := d.now } : SlateOp) ∧
      (e.sl t.val).keyStep = 0 ∧ (e.sl t.val).seq = none ∧ bits (e.slateStat t.val) 0 1 = 1 ∧ bits (e.slateStat t.val) 3 1 = 0) ∧
  (∀ s (d : Dev) (t : Fin 8) (k : Nat) dt, d = s.dev.elapse dt → (d.sl t.val).seq = some k → 100000 ≤ d.now - (d.sl t.val).seqAt →
    Runs (.slateSequenceTimeout t dt) s [.flint, .qtz, .slate] fun e =>
      (e.sl t.val).fail = true ∧ (e.sl t.val).err = 5 ∧ (e.sl t.val).keyStep = 0 ∧ (e.sl t.val).seq = none ∧ (e.sl t.val).ops = (d.sl t.val).ops ∧ (e.sl t.val).lines = (d.sl t.val).lines) ∧
  (∀ s (d : Dev) (t : Fin 8) (b : Fin 2) (ok : Bool) (pulses : BitVec 6) (fail : BitVec 24) dt, d = s.dev.elapse dt → d.slOp t.val b.val = none →
    Runs (.slateOperationDone t b ok pulses fail dt) s [.flint, .qtz, .slate, .upd] fun e =>
      e = d) ∧
  (∀ s (d : Dev) (t : Fin 8) (b : Fin 2) (o : SlateOp) (pulses : BitVec 6) (fail : BitVec 24) dt, d = s.dev.elapse dt → d.slOp t.val b.val = some o → o.code = 1 →
    Runs (.slateOperationDone t b true pulses fail dt) s [.flint, .qtz, .slate, .upd] fun e =>
      e.slOp t.val b.val = none ∧ (e.sl t.val).err = 0 ∧
      (e.sl t.val).done = true ∧
      (e.sl t.val).lines = tset (d.sl t.val).lines (o.addr / 16) o.data) ∧
  (∀ s (d : Dev) (t : Fin 8) (b : Fin 2) (o : SlateOp) (pulses : BitVec 6) (fail : BitVec 24) dt, d = s.dev.elapse dt → d.slOp t.val b.val = some o → o.code = 1 →
    Runs (.slateOperationDone t b false pulses fail dt) s [.flint, .qtz, .slate, .upd] fun e =>
      e.slOp t.val b.val = none ∧ (e.sl t.val).err = 7 ∧
      (e.sl t.val).fail = true ∧
      e.flint = (d.raise (tsrc t.val 53) 0x81 2).flint) ∧
  (∀ s (d : Dev) (t : Fin 8) (b : Fin 2) (o : SlateOp) (pulses : BitVec 6) (fail : BitVec 24) dt, d = s.dev.elapse dt → d.slOp t.val b.val = some o → o.code = 5 →
    Runs (.slateOperationDone t b true pulses fail dt) s [.flint, .qtz, .slate, .upd] fun e =>
      e.slOp t.val b.val = none ∧ (e.sl t.val).err = 0 ∧
      (e.sl t.val).done = true ∧
      (e.sl t.val).lines = tset (d.sl t.val).lines (o.addr / 16) o.data) ∧
  (∀ s (d : Dev) (t : Fin 8) (b : Fin 2) (o : SlateOp) (pulses : BitVec 6) (fail : BitVec 24) dt, d = s.dev.elapse dt → d.slOp t.val b.val = some o → o.code = 2 → (d.sl t.val).refresh ≠ some (secOf o.addr) → tget (d.sl t.val).counters 0 (secOf o.addr) < ratedCycles (secOf o.addr) → secOf o.addr ≠ 26 → secOf o.addr ≠ 27 → d.secUsed t.val (26 + (d.sl t.val).intentSector) ≤ 504 → (d.sl t.val).intentSector ≤ 1 →
    Runs (.slateOperationDone t b true pulses fail dt) s [.flint, .qtz, .slate, .upd] fun e =>
      e.slOp t.val b.val = none ∧ (e.sl t.val).err = 0 ∧
      (e.sl t.val).done = true ∧
      e.secUsed t.val (secOf o.addr) = 0 ∧
      tget (e.sl t.val).lastErase 0 (secOf o.addr) = d.now ∧
      0x6C ∈ (e.sl t.val).pend ∧
      (e.sl t.val).counters = (d.sl t.val).counters) ∧
  (∀ s (d : Dev) (t : Fin 8) (b : Fin 2) (o : SlateOp) (pulses : BitVec 6) (fail : BitVec 24) dt, d = s.dev.elapse dt → d.slOp t.val b.val = some o → o.code = 2 →
    Runs (.slateOperationDone t b false pulses fail dt) s [.flint, .qtz, .slate, .upd] fun e =>
      e.slOp t.val b.val = none ∧ (e.sl t.val).err = 7 ∧ (e.sl t.val).fail = true ∧
      secOf o.addr ∈ (e.sl t.val).badSectors) ∧
  (∀ s (d : Dev) (t : Fin 8) (b : Fin 2) (o : SlateOp) (pulses : BitVec 6) dt, d = s.dev.elapse dt → d.slOp t.val b.val = some o → o.code = 3 → (d.sl t.val).refresh = none →
    Runs (.slateOperationDone t b true pulses 0xFFFFFF dt) s [.flint, .qtz, .slate, .upd] fun e =>
      e.slOp t.val b.val = none ∧ (e.sl t.val).err = 0 ∧
      (e.sl t.val).res = 0xFFFFFF ∧ (e.sl t.val).done = true ∧
      (e.sl t.val).lines = (d.sl t.val).lines) ∧
  (∀ s (d : Dev) (t : Fin 8) (b : Fin 2) (o : SlateOp) (pulses : BitVec 6) (fail : BitVec 24) dt, d = s.dev.elapse dt → d.slOp t.val b.val = some o → o.code = 3 → (d.sl t.val).refresh = none → fail ≠ 0xFFFFFF →
    Runs (.slateOperationDone t b true pulses fail dt) s [.flint, .qtz, .slate, .upd] fun e =>
      e.slOp t.val b.val = none ∧ (e.sl t.val).err = 8 ∧
      (e.sl t.val).res = fail.toNat ∧ (e.sl t.val).fail = true ∧
      e.flint = (d.raise (tsrc t.val 53) 0x84 2 (detail := [secOf o.addr])).flint) ∧
  (∀ s (d : Dev) (t : Fin 8) (b : Fin 2) (o : SlateOp) (pulses : BitVec 6) (fail : BitVec 24) dt, d = s.dev.elapse dt → d.slOp t.val b.val = some o → o.code = 4 →
    Runs (.slateOperationDone t b true pulses fail dt) s [.flint, .qtz, .slate, .upd] fun e =>
      e.slOp t.val b.val = none ∧ (e.sl t.val).err = 0 ∧
      (e.sl t.val).res = tget (d.sl t.val).counters 0 (secOf o.addr)) ∧
  (∀ s (d : Dev) (t : Fin 8) (b : Fin 2) (o : SlateOp) (pulses : BitVec 6) (fail : BitVec 24) dt, d = s.dev.elapse dt → d.slOp t.val b.val = some o → o.code = 6 → (d.sl t.val).badSectors.contains (secOf o.addr) = false → d.secContents t.val (secOf o.addr) = [] →
    Runs (.slateOperationDone t b true pulses fail dt) s [.flint, .qtz, .slate, .upd] fun e =>
      e.slOp t.val b.val = none ∧ (e.sl t.val).err = 0 ∧
      (e.sl t.val).res = 0xFFFFFF ∧ (e.sl t.val).done = true) ∧
  (∀ s (d : Dev) (t : Fin 8) (b : Fin 2) (o : SlateOp) (pulses : BitVec 6) (fail : BitVec 24) (x : Nat × BitVec 128) (r : Tbl (BitVec 128)) dt, d = s.dev.elapse dt → d.slOp t.val b.val = some o → o.code = 6 → d.secContents t.val (secOf o.addr) = x :: r → (d.sl t.val).badSectors.contains (secOf o.addr) = false → x.1 < 0x80000 →
    Runs (.slateOperationDone t b true pulses fail dt) s [.flint, .qtz, .slate, .upd] fun e =>
      e.slOp t.val b.val = none ∧ (e.sl t.val).err = 9 ∧
      (e.sl t.val).res = 16 * x.1 ∧ (e.sl t.val).fail = true) ∧
  (∀ s (d : Dev) (t : Fin 8) (b : Fin 2) (o : SlateOp) dt, d = s.dev.elapse dt → (d.sl t.val).keyStep = 0 → d.slOp t.val b.val = some o → o.code = 2 → o.suspended = false → o.suspReq = none →
    Runs (.suspend t dt) s [.flint, .qtz, .slate] fun e =>
      e.slOp t.val b.val = some { o with suspReq := some d.now, held := decide (d.now - o.resumedAt < 2000000) }) ∧
  (∀ s (d : Dev) (t : Fin 8) (b : Fin 2) (o : SlateOp) dt, d = s.dev.elapse dt → d.slOp t.val b.val = some o → o.code = 2 → o.suspReq ≠ none → o.held = false →
    Runs (.suspended t dt) s [.qtz, .slate] fun e =>
      e.slOp t.val b.val = none ∧ e.slSusp t.val b.val = some { o with suspended := true, suspReq := none } ∧
      (e.sl t.val).counters = (d.sl t.val).counters) ∧
  (∀ s (d : Dev) (t : Fin 8) (b : Fin 2) (o : SlateOp) dt, d = s.dev.elapse dt → d.slOp t.val b.val = some o → o.code = 2 → (o.suspReq = none ∨ o.held = true) →
    Runs (.suspended t dt) s [.qtz, .slate] fun e =>
      e.slOp t.val b.val = some o) ∧
  (∀ s (d : Dev) (t : Fin 8) (b : Fin 2) (o : SlateOp) dt, d = s.dev.elapse dt → d.slOp t.val b.val = some o → o.code = 2 → o.held = true →
    Runs (.suspendHoldEnd t dt) s [.qtz, .slate] fun e =>
      e.slOp t.val b.val = some { o with held := decide (d.now - o.resumedAt < 2000000) }) ∧
  (∀ s (d : Dev) (t : Fin 8) (b : Fin 2) (o : SlateOp) dt, d = s.dev.elapse dt → (d.sl t.val).keyStep = 0 → d.slSusp t.val b.val = some o → d.slOp t.val b.val = none →
    Runs (.resume t dt) s [.flint, .qtz, .slate] fun e =>
      e.slOp t.val b.val = some { o with suspended := false, suspReq := none, held := false, resumedAt := d.now } ∧ e.slSusp t.val b.val = none) ∧
  (∀ s (d : Dev) (t : Fin 8) dt, d = s.dev.elapse dt → (d.sl t.val).keyStep = 0 → d.slSusp t.val 0 = none → d.slSusp t.val 1 = none →
    Runs (.resume t dt) s [.flint, .qtz, .slate] fun e =>
      e = d) ∧
  (∀ s (d : Dev) (t : Fin 8) dt, d = s.dev.elapse dt →
    Runs (.slateReadUnderrun t 0 dt) s [.flint, .qtz, .slate] fun e =>
      e.slate = (d.onSl t.val fun x => { x with underrun := true, underruns := satInc 16 x.underruns, tap := min 15 (x.tap + 2) }).slate ∧
      e.flint = (d.raise (tsrc t.val 54) 0x42 2).flint) ∧
  (∀ s (d : Dev) (t : Fin 8) dt, d = s.dev.elapse dt →
    Runs (.slateReadUnderrun t 1 dt) s [.flint, .qtz, .slate] fun e =>
      (e.sl t.val).ceCount = satInc 32 (d.sl t.val).ceCount ∧ (e.sl t.val).rdErr = (d.sl t.val).rdErr ∧ (e.sl t.val).ueCount = (d.sl t.val).ueCount) ∧
  (∀ s (d : Dev) (t : Fin 8) dt, d = s.dev.elapse dt →
    Runs (.slateReadUnderrun t 2 dt) s [.flint, .qtz, .slate] fun e =>
      (e.sl t.val).ueCount = satInc 16 (d.sl t.val).ueCount ∧ (e.sl t.val).rdErr = true ∧ (e.sl t.val).ceCount = (d.sl t.val).ceCount) ∧
  (∀ s (d : Dev) (t : Fin 8) (typ len p a b target : Nat) (cur : ParamRec) dt, d = s.dev.elapse dt → typ ∈ (d.sl t.val).pend → d.recMay = true → 1 ≤ len → d.upd.keepOld = false → d.slBusy t.val 0 = false → p = pairOf typ → a = d.secPhys t.val (2 + 2 * p) → b = d.secPhys t.val (3 + 2 * p) → cur = tget (d.sl t.val).recs {} typ → target = (if cur.rseq ≠ 0 ∧ cur.sector = a then b else a) → (∀ x ∈ d.intents t.val, x.ltype ≠ 0x52) → d.secReady t.val target (maxBy ((d.sl t.val).recs.filter (fun r : Nat × ParamRec => pairOf r.1 == p)) len (fun r : Nat × ParamRec => r.2.len)) = true →
    Runs (.parameterRecordWrite t typ len dt) s [.qtz, .slate, .freeN] fun e =>
      tget (e.sl t.val).recs {} typ = ({ typ := typ, rseq := cur.rseq + 1, tWrite := d.now, sector := target, len := len } : ParamRec) ∧
      typ ∉ (e.sl t.val).pend) ∧
  (∀ s (d : Dev) (t : Fin 8) (typ len : Nat) dt, d = s.dev.elapse dt → (typ ∉ (d.sl t.val).pend ∨ d.recMay = false) →
    Runs (.parameterRecordWrite t typ len dt) s [.qtz, .slate, .freeN] fun e =>
      e = d) ∧
  (∀ s (d : Dev) (t : Fin 8) (k o : Nat) dt, d = s.dev.elapse dt → k = (d.sl t.val).storeSector → o = d.storeNext t.val k → 16384 - d.secUsed t.val (0x3C + k) < 6144 → o ≠ k → d.secUsed t.val (0x3C + o) ≠ 0 → d.slBusy t.val 1 = false →
    Runs (.eventStoreRotation t dt) s [.qtz, .slate] fun e =>
      (e.slOp t.val 1).map (fun x : SlateOp => (x.code, x.addr, x.purpose)) = some (2, secBase (0x3C + o), 0) ∧
      tget (e.sl t.val).counters 0 (0x3C + o) = min 0xFFFFFF (tget (d.sl t.val).counters 0 (0x3C + o) + 1)) ∧
  (∀ s (d : Dev) (t : Fin 8) dt, d = s.dev.elapse dt → 6144 ≤ 16384 - d.secUsed t.val (0x3C + (d.sl t.val).storeSector) →
    Runs (.eventStoreRotation t dt) s [.qtz, .slate] fun e =>
      e = d) ∧
  (∀ s (d : Dev) (t : Fin 8) (k : Fin 63) (bad : Bool) dt, d = s.dev.elapse dt → (d.refreshMay = false ∨ (d.sl t.val).refresh ≠ none) →
    Runs (.slateRefresh t k bad dt) s [.flint, .qtz, .slate] fun e =>
      (e.sl t.val).ops = (d.sl t.val).ops ∧ (e.sl t.val).lines = (d.sl t.val).lines ∧ (e.sl t.val).refresh = (d.sl t.val).refresh) ∧
  (∀ s (d : Dev) (t : Fin 8) (k : Fin 63) (bad : Bool) dt, d = s.dev.elapse dt → d.refreshMay = true → (d.sl t.val).refresh = none → d.slBusy t.val (slateBank (secBase k.val)) = false → fiveYears < d.now - tget (d.sl t.val).lastErase 0 k.val → 0x22 ≤ k.val → k.val < 0x3C → (if k.val < 0x2F then (d.urec t.val).stateB else (d.urec t.val).stateA) = 1 →
    Runs (.slateRefresh t k bad dt) s [.flint, .qtz, .slate] fun e =>
      (e.sl t.val).refresh = some k.val ∧ (e.sl t.val).refreshImg = d.secContents t.val k.val ∧
      (e.slOp t.val (slateBank (secBase k.val))).map (fun x : SlateOp => (x.code, x.addr, x.purpose)) = some (2, secBase k.val, 1)) ∧
  (∀ s (d : Dev) (t : Fin 8) (k : Fin 63) (bad : Bool) dt, d = s.dev.elapse dt → d.refreshMay = true → (d.sl t.val).refresh = none → d.slBusy t.val (slateBank (secBase k.val)) = false → fiveYears < d.now - tget (d.sl t.val).lastErase 0 k.val → 0x22 ≤ k.val → k.val < 0x3C → (if k.val < 0x2F then (d.urec t.val).stateB else (d.urec t.val).stateA) ≠ 1 →
    Runs (.slateRefresh t k bad dt) s [.flint, .qtz, .slate] fun e =>
      (e.sl t.val).ops = (d.sl t.val).ops ∧ (e.sl t.val).lines = (d.sl t.val).lines ∧ (e.sl t.val).refresh = none)

/-- A first transfer opens the free update slot and makes the other slot PARTIAL on every tile with the header's digest, or resumes it from
COMMITTED where the digest is the same; a bad image, a taken slot and the running slot are refused and nothing changes, but a request of SB
within 1 µs of a head's opening takes the slot from it and the head's command loses. Chunks in order are programmed on all eight tiles and
acknowledged when durable, not in a seal; the last one leads to verification, by which the slot becomes valid, or invalid and released.
Release, cancel and the 30 minutes of R466 leave the slot states alone. Activation makes the slot the pending try on every tile, at once
with the reset where asked; confirmation makes it the running slot, raises the floors and releases the update slot; an expired window sets
REVERT and begins the revert reset. In Bedrock each command of the recovery window reads or does what R485 says on the selected tiles, and
BR_EXIT is taken only for a slot that passed on all eight. PLDM codes are PRESUMED (log). (R463, R465, R466, R468, R469, R470, R472, R473,
R477, R478, R485, R486) -/
def Obligations.UpdateAndBedrockCommands : Prop :=
  (∀ s (d : Dev) (h : Fin 2) (slot : BitVec 8) (data : List Byte) (dig : Nat) (facts : BitVec 4) (k : Nat) dt, d = s.dev.elapse dt → d.cxlServes = true → (∀ t : Nat, t < 8 → (d.tile t).supvOk = true) → k = slot.toNat - 1 → 1 ≤ slot.toNat → slot.toNat ≤ 2 → k ≠ d.runSlot → 512 ≤ data.length → data.length ≤ 16256 → d.lrec.owner = 255 → d.imgReason (parseHdr data) facts d.floorPkg false false = 0 → data.length < (parseHdr data).fileLen → (d.lrec.state k ≠ 2 ∨ d.lrec.hdrDig ≠ dig) →
    Runs (.transferFw h 1 slot 0 data dig facts dt) s [.flint, .qtz, .heads, .jcs, .slate, .upd, .mirror, .out, .freeN] fun e =>
      (∀ t : Nat, t < 8 → (e.urec t).owner = h.val ∧ (e.urec t).state k = 2 ∧ (e.urec t).state (1 - k) = (d.urec t).state (1 - k) ∧ (e.urec t).hdrDig = dig ∧ (e.urec t).committed = 0) ∧
      (e.lease 0x4003).holder = h.val ∧ e.upd.xfer.active = true ∧ e.upd.xfer.slot = k ∧ e.upd.xfer.hdr = parseHdr data ∧ e.upd.xfer.chunkAt = some 0 ∧ e.upd.xfer.chunk = data) ∧
  (∀ s (d : Dev) (h : Fin 2) (slot : BitVec 8) (data : List Byte) (dig : Nat) (facts : BitVec 4) (k : Nat) dt, d = s.dev.elapse dt → d.cxlServes = true → (∀ t : Nat, t < 8 → (d.tile t).supvOk = true) → k = slot.toNat - 1 → 1 ≤ slot.toNat → slot.toNat ≤ 2 → k ≠ d.runSlot → 512 ≤ data.length → data.length ≤ 16256 → d.lrec.owner = 255 → d.imgReason (parseHdr data) facts d.floorPkg false false = 0 → data.length < d.lrec.committed → d.lrec.committed < (parseHdr data).fileLen → d.lrec.state k = 2 → d.lrec.hdrDig = dig →
    Runs (.transferFw h 1 slot 0 data dig facts dt) s [.flint, .qtz, .heads, .jcs, .slate, .upd, .mirror, .out, .freeN] fun e =>
      CxlAnswered d e h.val 0x201 0 [] ∧
      e.upd.xfer.durable = d.lrec.committed ∧
      (∀ t : Nat, t < 8 → (e.urec t).owner = h.val ∧ (e.urec t).state k = (d.urec t).state k)) ∧
  (∀ s (d : Dev) (h : Fin 2) (slot : BitVec 8) (data : List Byte) (dig : Nat) (facts : BitVec 4) (k : Nat) dt, d = s.dev.elapse dt → d.cxlServes = true → (∀ t : Nat, t < 8 → (d.tile t).supvOk = true) → k = slot.toNat - 1 → 1 ≤ slot.toNat → slot.toNat ≤ 2 → k ≠ d.runSlot → 512 ≤ data.length → data.length ≤ 16256 → d.lrec.owner = 255 → d.imgReason (parseHdr data) facts d.floorPkg false false ≠ 0 →
    Runs (.transferFw h 1 slot 0 data dig facts dt) s [.flint, .qtz, .heads, .jcs, .slate, .upd, .mirror, .out, .freeN] fun e =>
      CxlAnswered d e h.val 0x201 0x14 [] ∧
      e.upd = d.upd) ∧
  (∀ s (d : Dev) (h : Fin 2) (slot : BitVec 8) (data : List Byte) (dig : Nat) (facts : BitVec 4) (k : Nat) dt, d = s.dev.elapse dt → d.cxlServes = true → (∀ t : Nat, t < 8 → (d.tile t).supvOk = true) → k = slot.toNat - 1 → 1 ≤ slot.toNat → slot.toNat ≤ 2 → k ≠ d.runSlot → 512 ≤ data.length → data.length ≤ 16256 → d.lrec.owner ≠ 255 → (d.lease 0x4003).acquired + 1000 ≤ d.now →
    Runs (.transferFw h 1 slot 0 data dig facts dt) s [.flint, .qtz, .heads, .jcs, .slate, .upd, .mirror, .out, .freeN] fun e =>
      CxlAnswered d e h.val 0x201 6 [d.lrec.owner, 0, 0x4003] ∧
      e.upd = d.upd) ∧
  (∀ s (d : Dev) (h : Fin 2) (action : Fin 5) (slot : BitVec 8) (off : BitVec 32) (data : List Byte) (dig : Nat) (facts : BitVec 4) dt, d = s.dev.elapse dt → d.cxlServes = true → action ≠ 4 → slot.toNat - 1 = d.runSlot →
    Runs (.transferFw h action slot off data dig facts dt) s [.flint, .qtz, .heads, .jcs, .slate, .upd, .mirror, .out, .freeN] fun e =>
      CxlAnswered d e h.val 0x201 2 [] ∧
      e.upd = d.upd) ∧
  (∀ s (d : Dev) (h : Fin 2) (slot : BitVec 8) (off : BitVec 32) (data : List Byte) (dig : Nat) (facts : BitVec 4) (k : Nat) dt, d = s.dev.elapse dt → d.cxlServes = true → (∀ t : Nat, t < 8 → (d.tile t).supvOk = true) → k = slot.toNat - 1 → 1 ≤ slot.toNat → slot.toNat ≤ 2 → k ≠ d.runSlot → data.length ≤ 16256 → d.lrec.owner = h.val → d.upd.xfer.active = true → d.upd.xfer.pldm = false → d.upd.xfer.slot = k → d.upd.xfer.ended = false → d.upd.xfer.chunkAt = none → off.toNat * 128 = d.upd.xfer.durable → 0 < data.length → d.upd.xfer.durable + data.length ≤ d.upd.xfer.hdr.fileLen →
    Runs (.transferFw h 2 slot off data dig facts dt) s [.flint, .qtz, .heads, .jcs, .slate, .upd, .mirror, .out, .freeN] fun e =>
      e.upd.xfer.chunkAt = some d.upd.xfer.durable ∧ e.upd.xfer.chunk = data ∧ e.upd.xfer.ended = false ∧ e.upd.recs = d.upd.recs ∧
      e.out = d.out) ∧
  (∀ s (d : Dev) (h : Fin 2) (slot : BitVec 8) (off : BitVec 32) (data : List Byte) (dig : Nat) (facts : BitVec 4) (k : Nat) dt, d = s.dev.elapse dt → d.cxlServes = true → (∀ t : Nat, t < 8 → (d.tile t).supvOk = true) → k = slot.toNat - 1 → 1 ≤ slot.toNat → slot.toNat ≤ 2 → k ≠ d.runSlot → data.length ≤ 16256 → d.lrec.owner = h.val → d.upd.xfer.active = true → d.upd.xfer.pldm = false → d.upd.xfer.slot = k → d.upd.xfer.ended = false → d.upd.xfer.chunkAt = none → off.toNat * 128 = d.upd.xfer.durable → 0 < data.length → d.upd.xfer.durable + data.length = d.upd.xfer.hdr.fileLen →
    Runs (.transferFw h 3 slot off data dig facts dt) s [.flint, .qtz, .heads, .jcs, .slate, .upd, .mirror, .out, .freeN] fun e =>
      e.upd.xfer.chunkAt = some d.upd.xfer.durable ∧ e.upd.xfer.chunk = data ∧ e.upd.xfer.ended = true ∧ e.upd.recs = d.upd.recs ∧
      e.out = d.out) ∧
  (∀ s (d : Dev) (h : Fin 2) (slot : BitVec 8) (off : BitVec 32) (data : List Byte) (dig : Nat) (facts : BitVec 4) (k : Nat) dt, d = s.dev.elapse dt → d.cxlServes = true → (∀ t : Nat, t < 8 → (d.tile t).supvOk = true) → k = slot.toNat - 1 → 1 ≤ slot.toNat → slot.toNat ≤ 2 → k ≠ d.runSlot → data.length ≤ 16256 → d.lrec.owner = h.val → d.upd.xfer.active = true → d.upd.xfer.pldm = false → d.upd.xfer.slot = k → d.upd.xfer.ended = false → d.upd.xfer.chunkAt = none → off.toNat * 128 + data.length ≤ d.upd.xfer.durable → d.upd.xfer.durable ≤ d.upd.xfer.hdr.fileLen →
    Runs (.transferFw h 2 slot off data dig facts dt) s [.flint, .qtz, .heads, .jcs, .slate, .upd, .mirror, .out, .freeN] fun e =>
      CxlAnswered d e h.val 0x201 0 [] ∧
      e.upd.xfer.durable = d.upd.xfer.durable ∧ e.upd.xfer.chunkAt = none ∧ e.slate = d.slate) ∧
  (∀ s (d : Dev) (h : Fin 2) (slot : BitVec 8) (off : BitVec 32) (data : List Byte) (dig : Nat) (facts : BitVec 4) dt, d = s.dev.elapse dt → d.cxlServes = true → d.lrec.owner = h.val → d.lrec.trySlot = none →
    Runs (.transferFw h 4 slot off data dig facts dt) s [.flint, .qtz, .heads, .jcs, .slate, .upd, .mirror, .out, .freeN] fun e =>
      CxlAnswered d e h.val 0x201 0 [] ∧
      (∀ t : Nat, t < 8 → (e.urec t).owner = 255 ∧ (e.urec t).stateA = (d.urec t).stateA ∧ (e.urec t).stateB = (d.urec t).stateB ∧ (e.urec t).committed = (d.urec t).committed) ∧
      e.upd.xfer = {} ∧ (e.lease 0x4003).holder = 255) ∧
  (∀ s (d : Dev) (x : Xfer) (off : Nat) dt, d = s.dev.elapse dt → d.sealing.active = false → x = d.upd.xfer → x.chunkAt = some off → x.erased = true → x.durable = off → 0 < x.chunkLen → x.chunk.length = x.chunkLen → x.pldm = false → x.ended = false → off + x.chunkLen < 512 + x.hdr.mainLen → (off + x.chunkLen) / 65536 * 65536 ≤ d.lrec.committed →
    Runs (.chunkDurable dt) s [.qtz, .heads, .slate, .upd, .out, .freeN] fun e =>
      (∀ t : Nat, t < 8 → (e.sl t).lines = ((d.slatePut t (slotBase x.slot + off) x.chunk).sl t).lines) ∧
      e.upd.xfer.durable = off + x.chunkLen ∧ e.upd.xfer.chunkAt = none ∧ e.upd.recs = d.upd.recs ∧
      Out.cxlResp x.by_ 0x0201 0 0 [] ∈ e.out.take (e.out.length - d.out.length)) ∧
  (∀ s (d : Dev) (x : Xfer) (off : Nat) dt, d = s.dev.elapse dt → d.sealing.active = false → x = d.upd.xfer → x.chunkAt = some off → x.erased = true → x.durable ≤ off + x.chunkLen → x.pldm = false → x.ended = true → x.hdr.fileLen = off + x.chunkLen → d.lrec.committed < x.hdr.fileLen →
    Runs (.chunkDurable dt) s [.qtz, .heads, .slate, .upd, .out, .freeN] fun e =>
      (∀ t : Nat, t < 8 → (e.urec t).committed = x.hdr.fileLen ∧ (e.urec t).state x.slot = (d.urec t).state x.slot) ∧
      e.upd.xfer.ended = true ∧ e.upd.xfer.chunkAt = none ∧ e.upd.xfer.durable = x.hdr.fileLen ∧ e.out = d.out) ∧
  (∀ s (d : Dev) dt, d = s.dev.elapse dt → (d.sealing.active = true ∨ d.upd.xfer.chunkAt = none) →
    Runs (.chunkDurable dt) s [.qtz, .heads, .slate, .upd, .out, .freeN] fun e =>
      e = d) ∧
  (∀ s (d : Dev) (facts : List (BitVec 4)) (x : Xfer) dt, d = s.dev.elapse dt → d.sealing.active = false → x = d.upd.xfer → x.active = true → x.ended = true → x.chunkAt = none → x.pldm = false → x.by_ < 2 → x.hdr.flags.getLsbD 0 = false → (∀ t : Nat, t < 8 → d.imgReason (d.slateHdr t (slotBase x.slot)) (facts.getD t 0) (tget d.upd.floor 0 t) true false = 0) →
    Runs (.slotVerification facts dt) s [.flint, .qtz, .heads, .jcs, .slate, .upd, .mirror, .out, .freeN] fun e =>
      (∀ t : Nat, t < 8 → (e.urec t).state x.slot = 1 ∧ (e.urec t).owner = (d.urec t).owner) ∧
      e.upd.xfer.active = false ∧
      CxlAnswered d e x.by_ 0x201 0 []) ∧
  (∀ s (d : Dev) (facts : List (BitVec 4)) (x : Xfer) (t0 : Nat) dt, d = s.dev.elapse dt → d.sealing.active = false → x = d.upd.xfer → x.active = true → x.ended = true → x.chunkAt = none → x.pldm = false → x.by_ < 2 → x.hdr.flags.getLsbD 0 = false → t0 < 8 → d.imgReason (d.slateHdr t0 (slotBase x.slot)) (facts.getD t0 0) (tget d.upd.floor 0 t0) true false ≠ 0 → d.lrec.owner ≠ 255 →
    Runs (.slotVerification facts dt) s [.flint, .qtz, .heads, .jcs, .slate, .upd, .mirror, .out, .freeN] fun e =>
      (∀ t : Nat, t < 8 → (e.urec t).state x.slot = 4 ∧ (e.urec t).owner = 255) ∧
      CxlAnswered d e x.by_ 0x201 0x14 [] ∧
      e.upd.xfer = {}) ∧
  (∀ s (d : Dev) (facts : List (BitVec 4)) dt, d = s.dev.elapse dt → d.upd.xfer.ended = false →
    Runs (.slotVerification facts dt) s [.flint, .qtz, .heads, .jcs, .slate, .upd, .mirror, .out, .freeN] fun e =>
      e = d) ∧
  (∀ s (d : Dev) dt, d = s.dev.elapse dt → d.lrec.owner ≠ 255 → d.lrec.trySlot = none → d.upd.xfer.last + 1800000000000 ≤ d.now → (d.lease 0x4003).last + 1800000000000 ≤ d.now →
    Runs (.updateIdleTimeout dt) s [.flint, .qtz, .heads, .jcs, .slate, .upd, .mirror, .out, .freeN] fun e =>
      (∀ t : Nat, t < 8 → (e.urec t).owner = 255 ∧ (e.urec t).stateA = (d.urec t).stateA ∧ (e.urec t).stateB = (d.urec t).stateB) ∧
      (e.lease 0x4003).holder = 255) ∧
  (∀ s (d : Dev) dt, d = s.dev.elapse dt → (d.lrec.owner = 255 ∨ d.lrec.trySlot ≠ none ∨ d.now < d.upd.xfer.last + 1800000000000) →
    Runs (.updateIdleTimeout dt) s [.flint, .qtz, .heads, .jcs, .slate, .upd, .mirror, .out, .freeN] fun e =>
      e = d) ∧
  (∀ s (d : Dev) (eid mx : Nat) dt, d = s.dev.elapse dt → d.answers = true → d.pkg.bedrock = false → eid = d.jcs.sbEid → d.updBar = 0 → d.lrec.owner = 255 →
    Runs (.requestUpdate eid mx dt) s [.flint, .qtz, .heads, .jcs, .slate, .upd, .mirror, .out, .freeN] fun e =>
      (∀ t : Nat, t < 8 → (e.urec t).owner = 2) ∧
      (e.lease 0x4003).holder = 2 ∧ e.upd.xfer.active = true ∧ e.upd.xfer.pldm = true ∧ e.upd.xfer.slot = 1 - d.lrec.runSlot ∧ e.upd.xfer.maxReq ≤ 4096 ∧
      Out.pldm 0x10 [0] ∈ e.out.take (e.out.length - d.out.length)) ∧
  (∀ s (d : Dev) (eid mx : Nat) dt, d = s.dev.elapse dt → d.answers = true → d.pkg.bedrock = false → eid = d.jcs.sbEid → d.updBar = 0 → d.lrec.owner ≠ 255 → (d.lease 0x4003).acquired + 1000 ≤ d.now →
    Runs (.requestUpdate eid mx dt) s [.flint, .qtz, .heads, .jcs, .slate, .upd, .mirror, .out, .freeN] fun e =>
      e.upd = d.upd ∧ e.jcs = d.jcs ∧ e.out = Out.pldm 0x10 [0x81] :: d.out) ∧
  (∀ s (d : Dev) (eid mx : Nat) (h st dig com : Nat) dt, d = s.dev.elapse dt → d.answers = true → d.pkg.bedrock = false → eid = d.jcs.sbEid → d.updBar = 0 → d.lrec.owner = h → h < 2 → d.now < (d.lease 0x4003).acquired + 1000 → d.upd.xfer.active = true → d.upd.xfer.pldm = false → d.upd.xfer.chunkAt ≠ none → d.upd.xfer.ended = false → d.upd.xfer.slot ≤ 1 → d.upd.xfer.prev = some (st, dig, com) → (∀ t : Nat, t < 8 → thas d.upd.recs t = true) →
    Runs (.requestUpdate eid mx dt) s [.flint, .qtz, .heads, .jcs, .slate, .upd, .mirror, .out, .freeN] fun e =>
      (∀ t : Nat, t < 8 → (e.urec t).owner = 2 ∧ (e.urec t).state d.upd.xfer.slot = st ∧ (e.urec t).hdrDig = dig ∧ (e.urec t).committed = com) ∧
      (e.lease 0x4003).holder = 2 ∧ e.upd.xfer.pldm = true ∧
      Out.cxlResp h 0x0201 (retOf 6) 6 [2, 0, 0x4003] ∈ e.out.take (e.out.length - d.out.length)) ∧
  (∀ s (d : Dev) (eid mx : Nat) dt, d = s.dev.elapse dt → d.answers = true → d.pkg.bedrock = false → eid ≠ d.jcs.sbEid →
    Runs (.requestUpdate eid mx dt) s [.flint, .qtz, .heads, .jcs, .slate, .upd, .mirror, .out, .freeN] fun e =>
      e = { d with out := Out.pldm 0x10 [1] :: d.out }) ∧
  (∀ s (d : Dev) (data : List Byte) (dig : Nat) (facts : BitVec 4) dt, d = s.dev.elapse dt → d.answers = true → d.pkg.bedrock = false → d.updBar = 0 → d.upd.xfer.active = true → d.upd.xfer.pldm = true → d.upd.xfer.ended = false → d.upd.xfer.chunkAt = none → data ≠ [] → d.upd.xfer.hdr.magic = 0 → d.upd.xfer.hdrBuf.length + (data.take d.upd.xfer.maxReq).length < 512 →
    Runs (.requestFirmwareData data dig facts dt) s [.flint, .qtz, .heads, .jcs, .slate, .upd, .mirror, .out, .freeN] fun e =>
      e.upd.xfer.hdrBuf = d.upd.xfer.hdrBuf ++ data.take d.upd.xfer.maxReq ∧ e.upd.recs = d.upd.recs ∧ e.out = Out.pldm 0x15 [e.upd.xfer.hdrBuf.length, d.upd.xfer.maxReq] :: d.out) ∧
  (∀ s (d : Dev) (data : List Byte) (dig : Nat) (facts : BitVec 4) (buf : List Byte) dt, d = s.dev.elapse dt → d.answers = true → d.pkg.bedrock = false → d.updBar = 0 → d.upd.xfer.active = true → d.upd.xfer.pldm = true → d.upd.xfer.ended = false → d.upd.xfer.chunkAt = none → data ≠ [] → d.upd.xfer.hdr.magic = 0 → buf = d.upd.xfer.hdrBuf ++ data.take d.upd.xfer.maxReq → 512 ≤ buf.length → d.imgReason (parseHdr buf) facts d.floorPkg false false = 0 → d.upd.xfer.slot ≤ 1 → (d.lrec.state d.upd.xfer.slot ≠ 2 ∨ d.lrec.hdrDig ≠ dig) →
    Runs (.requestFirmwareData data dig facts dt) s [.flint, .qtz, .heads, .jcs, .slate, .upd, .mirror, .out, .freeN] fun e =>
      (∀ t : Nat, t < 8 → (e.urec t).state d.upd.xfer.slot = 2 ∧ (e.urec t).hdrDig = dig ∧ (e.urec t).committed = 0) ∧
      e.upd.xfer.hdr = parseHdr buf ∧ e.upd.xfer.chunkAt = some 0 ∧ e.upd.xfer.chunk = buf.take (parseHdr buf).fileLen) ∧
  (∀ s (d : Dev) (data : List Byte) (dig : Nat) (facts : BitVec 4) (buf : List Byte) (r : Nat) dt, d = s.dev.elapse dt → d.answers = true → d.pkg.bedrock = false → d.updBar = 0 → d.upd.xfer.active = true → d.upd.xfer.pldm = true → d.upd.xfer.ended = false → d.upd.xfer.chunkAt = none → data ≠ [] → d.upd.xfer.hdr.magic = 0 → buf = d.upd.xfer.hdrBuf ++ data.take d.upd.xfer.maxReq → 512 ≤ buf.length → r = d.imgReason (parseHdr buf) facts d.floorPkg false false → r ≠ 0 → d.lrec.owner = 2 →
    Runs (.requestFirmwareData data dig facts dt) s [.flint, .qtz, .heads, .jcs, .slate, .upd, .mirror, .out, .freeN] fun e =>
      (∀ t : Nat, t < 8 → (e.urec t).owner = 255 ∧ (e.urec t).stateA = (d.urec t).stateA ∧ (e.urec t).stateB = (d.urec t).stateB) ∧
      Out.pldm 0x16 [r] ∈ e.out.take (e.out.length - d.out.length)) ∧
  (∀ s (d : Dev) (data : List Byte) (dig : Nat) (facts : BitVec 4) dt, d = s.dev.elapse dt → d.answers = true → d.pkg.bedrock = false → d.updBar = 0 → d.upd.xfer.active = true → d.upd.xfer.pldm = true → d.upd.xfer.ended = false → d.upd.xfer.chunkAt = none → data ≠ [] → d.upd.xfer.hdr.magic ≠ 0 →
    Runs (.requestFirmwareData data dig facts dt) s [.flint, .qtz, .heads, .jcs, .slate, .upd, .mirror, .out, .freeN] fun e =>
      e.upd.xfer.chunkAt = some d.upd.xfer.durable ∧ e.upd.xfer.chunk = data.take (min d.upd.xfer.maxReq (d.upd.xfer.hdr.fileLen - d.upd.xfer.durable)) ∧ e.upd.recs = d.upd.recs ∧ e.out = d.out) ∧
  (∀ s (d : Dev) dt, d = s.dev.elapse dt → d.answers = true → d.pkg.bedrock = false → d.updBar ≠ 8 → d.lrec.owner = 2 → d.lrec.trySlot = none →
    Runs (.cancelUpdate dt) s [.flint, .qtz, .heads, .jcs, .slate, .upd, .mirror, .out, .freeN] fun e =>
      (∀ t : Nat, t < 8 → (e.urec t).owner = 255 ∧ (e.urec t).stateB = (d.urec t).stateB) ∧
      Out.pldm 0x1D [0] ∈ e.out.take (e.out.length - d.out.length) ∧
      e.upd.xfer = {}) ∧
  (∀ s (d : Dev) dt, d = s.dev.elapse dt → d.answers = true → d.pkg.bedrock = false → d.updBar ≠ 8 → (d.lrec.owner ≠ 2 ∨ d.lrec.trySlot ≠ none) →
    Runs (.cancelUpdate dt) s [.flint, .qtz, .heads, .jcs, .slate, .upd, .mirror, .out, .freeN] fun e =>
      e = { d with out := Out.pldm 0x1D [0x80] :: d.out }) ∧
  (∀ s (d : Dev) (k : Nat) dt, d = s.dev.elapse dt → d.answers = true → d.pkg.bedrock = false → d.updBar ≠ 8 → k = 1 - d.lrec.runSlot → d.lrec.owner = 2 → d.restore.ready = true → d.sealing.active = false → d.pkg.safe = 0 → d.lrec.runSlot ≤ 1 → d.lrec.state k = 1 → d.lrec.trySlot = none → d.restore.phase = 7 → (∀ t : Nat, t < 8 → (d.tile t).supvOk = true) →
    Runs (.activateFirmware false dt) s [.mem, .pkg, .expo, .sealing, .restore, .strata, .flash, .ctxs, .dram, .energy, .therm, .flint, .qtz, .lat, .heads, .jcs, .slate, .upd, .panel, .dw, .out, .freeN] fun e =>
      (∀ t : Nat, t < 8 → (e.urec t).state k = 3 ∧ (e.urec t).trySlot = some k ∧ (e.urec t).tries = 0 ∧ (e.urec t).revert = false ∧ (e.urec t).tActivate = d.now ∧ (e.urec t).runSlot = (d.urec t).runSlot) ∧
      Out.pldm 0x1A [0] ∈ e.out.take (e.out.length - d.out.length) ∧
      e.sealing = d.sealing) ∧
  (∀ s (d : Dev) (k : Nat) dt, d = s.dev.elapse dt → d.answers = true → d.pkg.bedrock = false → d.updBar ≠ 8 → k = 1 - d.lrec.runSlot → d.lrec.owner = 2 → d.restore.ready = true → d.sealing.active = false → d.pkg.safe = 0 → d.panel.coreUp = true → d.lrec.runSlot ≤ 1 → d.lrec.state k = 1 → d.lrec.trySlot = none → d.restore.phase = 7 → (∀ t : Nat, t < 8 → (d.tile t).supvOk = true) →
    Runs (.activateFirmware true dt) s [.mem, .pkg, .expo, .sealing, .restore, .strata, .flash, .ctxs, .dram, .energy, .therm, .flint, .qtz, .lat, .heads, .jcs, .slate, .upd, .panel, .dw, .out, .freeN] fun e =>
      e.sealing.active = true ∧ e.sealing.cause = 3 ∧ e.sealing.test = false ∧
      (∀ t : Nat, t < 8 → (e.urec t).state k = 3 ∧ (e.urec t).trySlot = some k ∧ (e.urec t).tries = 0)) ∧
  (∀ s (d : Dev) (h : Fin 2) (slot : BitVec 8) (k : Nat) dt, d = s.dev.elapse dt → d.cxlServes = true → 1 ≤ slot.toNat → slot.toNat ≤ 2 → k = slot.toNat - 1 → k ≠ d.lrec.runSlot → d.lrec.owner = h.val → d.lrec.runSlot ≤ 1 → d.lrec.state k = 1 → d.lrec.trySlot = none → d.restore.phase = 7 → (∀ t : Nat, t < 8 → (d.tile t).supvOk = true) →
    Runs (.activateFw h false slot dt) s [.mem, .pkg, .expo, .sealing, .restore, .strata, .flash, .ctxs, .dram, .energy, .therm, .flint, .qtz, .lat, .heads, .jcs, .slate, .upd, .panel, .dw, .out, .freeN] fun e =>
      (∀ t : Nat, t < 8 → (e.urec t).state k = 3 ∧ (e.urec t).trySlot = some k ∧ (e.urec t).tries = 0 ∧ (e.urec t).revert = false ∧ (e.urec t).tActivate = d.now ∧ (e.urec t).runSlot = (d.urec t).runSlot) ∧
      CxlAnswered d e h.val 0x202 0 [] ∧
      e.sealing = d.sealing) ∧
  (∀ s (d : Dev) (h : Fin 2) (online : Bool) (slot : BitVec 8) dt, d = s.dev.elapse dt → d.cxlServes = true → 1 ≤ slot.toNat → slot.toNat ≤ 2 → d.lrec.owner = h.val → (d.lrec.state (slot.toNat - 1) ≠ 1 ∨ d.lrec.trySlot ≠ none) →
    Runs (.activateFw h online slot dt) s [.mem, .pkg, .expo, .sealing, .restore, .strata, .flash, .ctxs, .dram, .energy, .therm, .flint, .qtz, .lat, .heads, .jcs, .slate, .upd, .panel, .dw, .out, .freeN] fun e =>
      CxlAnswered d e h.val 0x202 4 [] ∧ e.upd = d.upd ∧ e.sealing = d.sealing) ∧
  (∀ s (d : Dev) (h : Fin 2) (online : Bool) (slot : BitVec 8) (k : Nat) dt, d = s.dev.elapse dt → d.cxlServes = true → 1 ≤ slot.toNat → slot.toNat ≤ 2 → k = slot.toNat - 1 → k ≠ d.lrec.runSlot → d.lrec.owner = h.val → d.lrec.state k = 1 → d.lrec.trySlot = none → d.restore.phase ≠ 7 →
    Runs (.activateFw h online slot dt) s [.mem, .pkg, .expo, .sealing, .restore, .strata, .flash, .ctxs, .dram, .energy, .therm, .flint, .qtz, .lat, .heads, .jcs, .slate, .upd, .panel, .dw, .out, .freeN] fun e =>
      CxlAnswered d e h.val 0x202 7 [] ∧ e.upd = d.upd ∧ e.sealing = d.sealing) ∧
  (∀ s (d : Dev) (k : Nat) dt, d = s.dev.elapse dt → d.lrec.trySlot = some k → k ≤ 1 → d.confirmMay = true → d.lrec.owner ≠ 255 →
    Runs (.updateConfirmation dt) s [.flint, .qtz, .heads, .jcs, .slate, .upd, .mirror, .out, .freeN] fun e =>
      (∀ t : Nat, t < 8 → (e.urec t).runSlot = k ∧ (e.urec t).trySlot = none ∧ (e.urec t).tries = 0 ∧ (e.urec t).confirming = false ∧ (e.urec t).newTwin = false ∧ (e.urec t).state k = 1 ∧ (e.urec t).owner = 255 ∧ tget e.upd.floor 0 t = max (tget d.upd.floor 0 t) (min 128 (d.lrec.svn k)))) ∧
  (∀ s (d : Dev) dt, d = s.dev.elapse dt → d.confirmMay = false → d.lrec.confirming = false →
    Runs (.updateConfirmation dt) s [.flint, .qtz, .heads, .jcs, .slate, .upd, .mirror, .out, .freeN] fun e =>
      e = d) ∧
  (∀ s (d : Dev) (t0 : Nat) dt, d = s.dev.elapse dt → d.lrec.trySlot ≠ none → d.lrec.confirming = false → d.upd.windowFrom = some t0 → d.upd.windowLeft ≤ d.now - t0 → d.sealing.active = false → d.panel.coreUp = true → d.pkg.safe = 0 → d.restore.ready = true → d.pkg.bedrock = false →
    Runs (.confirmWindowExpiry dt) s [.mem, .pkg, .expo, .sealing, .restore, .strata, .flash, .ctxs, .dram, .energy, .therm, .flint, .qtz, .lat, .heads, .jcs, .slate, .upd, .panel, .dw, .out, .freeN] fun e =>
      (∀ t : Nat, t < 8 → (e.urec t).revert = true ∧ (e.urec t).revertCause = 1) ∧
      e.sealing.active = true ∧ e.sealing.cause = 3) ∧
  (∀ s (d : Dev) (t0 : Nat) dt, d = s.dev.elapse dt → d.upd.windowFrom = some t0 → d.now - t0 < d.upd.windowLeft →
    Runs (.confirmWindowExpiry dt) s [.mem, .pkg, .expo, .sealing, .restore, .strata, .flash, .ctxs, .dram, .energy, .therm, .flint, .qtz, .lat, .heads, .jcs, .slate, .upd, .panel, .dw, .out, .freeN] fun e =>
      e = d) ∧
  (∀ s (d : Dev) dt, d = s.dev.elapse dt → d.pkg.bedrock = true → d.brBusy = false →
    Runs (.brId dt) s [.qtz, .out] fun e =>
      e = { d with out := Out.smbus (fields [(2, 0x1F3D), (2, 0x8800), (4, Config.romVersion), (1, d.upd.bedCause), (1, 0xFF), (1, d.pkg.lead), (1, d.floorPkg), (4, 0)]) :: d.out }) ∧
  (∀ s (d : Dev) (pec : Bool) dt, d = s.dev.elapse dt → d.pkg.bedrock = true → d.brBusy = false →
    Runs (.brTiles none pec dt) s [.qtz, .upd, .out] fun e =>
      e = { d with out := Out.smbus ([d.upd.brTiles]) :: d.out }) ∧
  (∀ s (d : Dev) (v : BitVec 8) dt, d = s.dev.elapse dt → d.pkg.bedrock = true → d.brBusy = false →
    Runs (.brTiles (some v) true dt) s [.qtz, .upd, .out] fun e =>
      e = d.onUpd fun u => { u with brTiles := v }) ∧
  (∀ s (d : Dev) (v : BitVec 8) dt, d = s.dev.elapse dt → d.pkg.bedrock = true →
    Runs (.brTiles (some v) false dt) s [.qtz, .upd, .out] fun e =>
      e = { d with out := Out.nak :: d.out }) ∧
  (∀ s (d : Dev) (pec : Bool) dt, d = s.dev.elapse dt → d.pkg.bedrock = true → d.brBusy = false →
    Runs (.brAddr none pec dt) s [.qtz, .upd, .out] fun e =>
      e = { d with out := Out.smbus (leBytes 3 d.upd.brAddr) :: d.out }) ∧
  (∀ s (d : Dev) (v : BitVec 23) dt, d = s.dev.elapse dt → d.pkg.bedrock = true → d.brBusy = false →
    Runs (.brAddr (some v) true dt) s [.qtz, .upd, .out] fun e =>
      e = d.onUpd fun u => { u with brAddr := v.toNat }) ∧
  (∀ s (d : Dev) dt, d = s.dev.elapse dt → d.pkg.bedrock = true → d.brBusy = false →
    Runs (.brStat dt) s [.qtz, .out] fun e =>
      e = { d with out := Out.smbus (tiles8.map fun t : Nat => BitVec.ofNat 8 (bits (d.slateStat t) 0 1 + 2 * bits (d.slateStat t) 2 1 + 4 * bits (d.slateStat t) 8 4)) :: d.out }) ∧
  (∀ s (d : Dev) dt, d = s.dev.elapse dt → d.pkg.bedrock = true → d.brBusy = true →
    Runs (.brStat dt) s [.qtz, .out] fun e =>
      e = { d with out := Out.nak :: d.out }) ∧
  (∀ s (d : Dev) dt, d = s.dev.elapse dt → d.pkg.bedrock = true → d.brBusy = false →
    Runs (.brRes dt) s [.qtz, .out] fun e =>
      e = { d with out := Out.smbus (leBytes 3 (d.sl d.brLow).res) :: d.out }) ∧
  (∀ s (d : Dev) (data : BitVec 128) (t0 a : Nat) dt, d = s.dev.elapse dt → d.pkg.bedrock = true → d.brBusy = false → d.brSel = [t0] → t0 < 8 → a = d.upd.brAddr → (d.sl t0).ops = [] → (2 ≤ secOf a ∧ (secOf a < 26 ∨ 30 < secOf a)) → d.opRefused t0 2 1 a = none →
    Runs (.brLine data true dt) s [.flint, .qtz, .slate, .upd, .out] fun e =>
      e.slOp t0 (slateBank a) = some ({ code := 1, addr := a, data := data, resumedAt := d.now } : SlateOp) ∧ e.upd.brAddr = (a + 16) % 2 ^ 23 ∧ e.out = d.out ∧
      (0x22 ≤ secOf a ∧ secOf a < 0x2F → e.brRes t0 0 = 0xFE) ∧ (0x2F ≤ secOf a ∧ secOf a < 0x3C → e.brRes t0 1 = 0xFE)) ∧
  (∀ s (d : Dev) (data : BitVec 128) (t0 a : Nat) dt, d = s.dev.elapse dt → d.pkg.bedrock = true → d.brBusy = false → d.brSel = [t0] → t0 < 8 → a = d.upd.brAddr → (d.sl t0).ops = [] → (secOf a < 2 ∨ 26 ≤ secOf a ∧ secOf a ≤ 30) →
    Runs (.brLine data true dt) s [.flint, .qtz, .slate, .upd, .out] fun e =>
      (e.sl t0).fail = true ∧ (e.sl t0).err = 4 ∧ (e.sl t0).ops = [] ∧ (e.sl t0).lines = (d.sl t0).lines ∧ e.upd.brAddr = (a + 16) % 2 ^ 23) ∧
  (∀ s (d : Dev) (k : BitVec 8) (t0 a : Nat) dt, d = s.dev.elapse dt → d.pkg.bedrock = true → d.brBusy = false → d.brSel = [t0] → t0 < 8 → a = d.upd.brAddr → (d.sl t0).ops = [] → k.toNat < 0x3F → k ≠ 26 → k ≠ 27 → d.opRefused t0 2 2 (secBase k.toNat) = none →
    Runs (.brErase k true dt) s [.flint, .qtz, .slate, .upd, .out] fun e =>
      (e.slOp t0 (slateBank (secBase k.toNat))).map (fun x : SlateOp => (x.code, x.addr, x.purpose)) = some (2, secBase k.toNat, if k.toNat < 2 then 3 else 2) ∧
      tget (e.sl t0).counters 0 k.toNat = min 0xFFFFFF (tget (d.sl t0).counters 0 k.toNat + 1)) ∧
  (∀ s (d : Dev) (arg code : BitVec 8) (t0 a : Nat) dt, d = s.dev.elapse dt → d.pkg.bedrock = true → d.brBusy = false → d.brSel = [t0] → t0 < 8 → a = d.upd.brAddr → (d.sl t0).ops = [] → (code = 3 ∨ code = 4 ∨ code = 6) → arg.toNat < 0x3F → d.opRefused t0 2 code.toNat (secBase arg.toNat) = none →
    Runs (.brOp arg code true dt) s [.flint, .qtz, .slate, .upd, .out] fun e =>
      e.slOp t0 (slateBank (secBase arg.toNat)) = some ({ code := code.toNat, addr := secBase arg.toNat, resumedAt := d.now } : SlateOp) ∧
      (e.sl t0).lines = (d.sl t0).lines) ∧
  (∀ s (d : Dev) (a : Nat) dt, d = s.dev.elapse dt → d.pkg.bedrock = true → d.brBusy = false → a = d.upd.brAddr → (d.sl d.brLow).badLines.contains (a / 16) = false → (d.sl d.brLow).badSectors.contains (secOf (16 * (a / 16))) = false →
    Runs (.brData 0 dt) s [.flint, .qtz, .slate, .upd, .out, .freeN] fun e =>
      e.out = Out.smbus (leBytes 16 (tget (d.sl d.brLow).lines (BitVec.allOnes 128) (a / 16)).toNat) :: d.out ∧ e.upd.brAddr = (a + 16) % 2 ^ 23 ∧ e.slate = d.slate) ∧
  (∀ s (d : Dev) (k : BitVec 8) (facts : List (BitVec 4)) dt, d = s.dev.elapse dt → d.pkg.bedrock = true → d.brBusy = false → k.toNat ≤ 1 →
    Runs (.brVerify k facts true dt) s [.qtz, .upd, .out] fun e =>
      (∀ t : Nat, t < 8 → mbit d.upd.brTiles t = true → e.brRes t k.toNat = d.imgReason (d.slateHdr t (slotBase k.toNat)) (facts.getD t 0) (tget d.upd.floor 0 t) true false) ∧
      (∀ t : Nat, t < 8 → mbit d.upd.brTiles t = false → e.brRes t k.toNat = d.brRes t k.toNat) ∧
      e.upd.recs = d.upd.recs ∧ e.slate = d.slate) ∧
  (∀ s (d : Dev) dt, d = s.dev.elapse dt → d.pkg.bedrock = true → d.brBusy = false →
    Runs (.brVres dt) s [.qtz, .out] fun e =>
      e = { d with out := Out.smbus (tiles8.map fun t : Nat => BitVec.ofNat 8 (d.brRes t d.upd.brTarget)) :: d.out }) ∧
  (∀ s (d : Dev) (k : BitVec 8) dt, d = s.dev.elapse dt → d.pkg.bedrock = true → d.brBusy = false → k.toNat ≤ 1 → (∀ t : Nat, t < 8 → d.brRes t k.toNat = 0) →
    Runs (.brExit k true dt) s [.mem, .expo, .strata, .flash, .ctxs, .flint, .qtz, .heads, .slate, .upd, .panel, .out, .freeN] fun e =>
      (∀ t : Nat, t < 8 → (e.urec t).runSlot = k.toNat ∧ (e.urec t).state k.toNat = 1 ∧ (e.urec t).trySlot = none ∧ (e.urec t).tries = 0 ∧ (e.urec t).bedrockReq = false ∧ (e.urec t).newTwin = false ∧ (e.urec t).revertCause = if (d.urec t).trySlot = none then (d.urec t).revertCause else 3) ∧
      e.panel.resetDue = true) ∧
  (∀ s (d : Dev) (k : BitVec 8) dt, d = s.dev.elapse dt → d.pkg.bedrock = true → d.brBusy = false → (1 < k.toNat ∨ ∃ t ∈ tiles8, d.brRes t k.toNat ≠ 0) →
    Runs (.brExit k true dt) s [.mem, .expo, .strata, .flash, .ctxs, .flint, .qtz, .heads, .slate, .upd, .panel, .out, .freeN] fun e =>
      e = { d with out := Out.nak :: d.out })

/-- Power-up starts where a restart condition holds and not otherwise, rail after rail; the core starts when the last rail and the reference are
good; a rail or reference late ends the attempt, and three failed ones the retries. A package reset clears leases, queue, snapshots, heads,
links and the held requests that are no completions of the device, and samples the straps, and leaves the count; a strap takes the package
into Bedrock or holds it in phase 1. VAUX lost loses the standby count, the retention registers, the latch counters and the latched causes.
A rail out of range and a watchdog raise their messages; a critical trip removes power at once. A head reset clears that head and not the
other; its leases end at once for PERST_N and a hot reset, after 1 s for link down. A sideband reset ends SB's leases only with a change of
endpoint. A Tap identifies or cancels the removal drain, a Hold asks for removal, is refused, restarts or removes power as R501 says, other
presses do nothing, and the lights follow R502. (R304, R491, R492, R494, R496, R497, R501, R502, R503, R504, R30, R406) -/
def Obligations.PowerResetAndPanelCommands : Prop :=
  (∀ s (d : Dev) dt, d = s.dev.elapse dt → d.panel.vaux = true → d.panel.pwrEn = false → d.panel.coreUp = false → d.panel.mainsGood = true → d.panel.strapTest = 0 → d.panel.retryAt = none → d.therm.withheld = false → d.panel.failedRestart = false → d.panel.sealCause ≠ some 2 → (d.panel.sealCause = some 5 ∨ d.panel.sealCause = some 6 → d.panel.freshOk = true) →
    Runs (.powerUp dt) s [.sealing, .restore, .therm, .qtz, .panel] fun e =>
      e.panel.pwrEn = true ∧ e.panel.rails = 1 ∧ e.panel.railsGood = 0 ∧ e.panel.refGood = false ∧ e.restore.phase = 1 ∧ e.restore.ready = false ∧ e.sealing.hibernating = false) ∧
  (∀ s (d : Dev) dt, d = s.dev.elapse dt → (d.panel.mainsGood = false ∨ d.panel.strapTest ≠ 0 ∨ d.panel.sealCause = some 6 ∧ d.panel.freshOk = false) →
    Runs (.powerUp dt) s [.sealing, .restore, .therm, .qtz, .panel] fun e =>
      e = d) ∧
  (∀ s (d : Dev) (t0 : Nat) dt, d = s.dev.elapse dt → d.therm.coolFrom = some t0 → d.therm.coolWait * 1000000000 ≤ d.now - t0 → d.panel.coreUp = false → d.panel.pwrEn = false → d.restartMay = true → d.panel.vaux = true → d.panel.mainsGood = true → d.panel.strapTest = 0 → d.panel.retryAt = none → d.therm.withheld = false → d.panel.failedRestart = false → d.panel.sealCause = some 2 →
    Runs (.coolWaitExpiry dt) s [.sealing, .restore, .therm, .qtz, .panel] fun e =>
      e.panel.pwrEn = true ∧ e.panel.rails = 1 ∧ e.panel.railsGood = 0 ∧ e.panel.refGood = false ∧ e.restore.phase = 1 ∧ e.restore.ready = false ∧ e.sealing.hibernating = false ∧ e.therm.coolFrom = none) ∧
  (∀ s (d : Dev) (t0 : Nat) dt, d = s.dev.elapse dt → d.therm.coolFrom = some t0 → d.therm.coolWait * 1000000000 ≤ d.now - t0 → d.panel.coreUp = false → d.panel.pwrEn = false → d.restartMay = false →
    Runs (.coolWaitExpiry dt) s [.sealing, .restore, .therm, .qtz, .panel] fun e =>
      e.therm.withheld = true ∧ e.therm.coolFrom = none ∧ e.panel = d.panel ∧ e.sealing.stage6Clean = false) ∧
  (∀ s (d : Dev) (i : Fin 6) dt, d = s.dev.elapse dt → d.panel.pwrEn = true → d.panel.coreUp = false → i.val < 5 → d.panel.railsGood = i.val → d.panel.rails = i.val + 1 → (i.val < 4 ∨ d.panel.refGood = false) →
    Runs (.railGood i dt) s [.restore, .energy, .flint, .qtz, .slate, .panel] fun e =>
      e.panel = { d.panel with railsGood := i.val + 1, rails := min 5 (i.val + 2), railAt := d.now } ∧
      e.restore = d.restore) ∧
  (∀ s (d : Dev) dt, d = s.dev.elapse dt → d.panel.pwrEn = true → d.panel.coreUp = false → d.panel.railsGood = 4 → d.panel.rails = 5 → d.panel.refGood = true →
    Runs (.railGood 4 dt) s [.restore, .energy, .flint, .qtz, .slate, .panel] fun e =>
      e.panel.coreUp = true ∧ e.panel.resetDue = true ∧ e.panel.railsGood = 5 ∧ e.qtz.running = true) ∧
  (∀ s (d : Dev) dt, d = s.dev.elapse dt → d.panel.pwrEn = true → d.panel.coreUp = false → 0 < d.panel.railsGood → d.panel.railsGood < 5 →
    Runs (.railGood 5 dt) s [.restore, .energy, .flint, .qtz, .slate, .panel] fun e =>
      e.panel = { d.panel with refGood := true }) ∧
  (∀ s (d : Dev) (i : Fin 6) (n : Nat) dt, d = s.dev.elapse dt → d.panel.pwrEn = true → d.panel.coreUp = false → (if i = 5 then 0 < d.panel.railsGood ∧ d.panel.refGood = false else i.val + 1 = d.panel.rails ∧ d.panel.railsGood = i.val) → n = d.panel.attempts + 1 →
    Runs (.railTimeout i dt) s [.sealing, .qtz, .panel] fun e =>
      e.panel.pwrEn = false ∧ e.panel.rails = 0 ∧ e.panel.railsGood = 0 ∧ i.val ∈ e.panel.failCauses ∧ e.sealing.hibernating = true ∧
      e.panel.retryAt = (if 3 ≤ n then none else some d.now) ∧ e.panel.failedRestart = decide (3 ≤ n)) ∧
  (∀ s (d : Dev) (t0 : Nat) dt, d = s.dev.elapse dt → d.panel.retryAt = some t0 → t0 + 10000000000 ≤ d.now → d.panel.mainsGood = true → d.panel.pwrEn = false →
    Runs (.powerUpRetry dt) s [.sealing, .restore, .therm, .qtz, .panel] fun e =>
      e.panel.pwrEn = true ∧ e.panel.rails = 1 ∧ e.panel.railsGood = 0 ∧ e.panel.refGood = false ∧ e.restore.phase = 1 ∧ e.restore.ready = false ∧ e.sealing.hibernating = false ∧ e.panel.retryAt = none) ∧
  (∀ s (d : Dev) (t0 : Nat) dt, d = s.dev.elapse dt → d.panel.retryAt = some t0 → d.now < t0 + 10000000000 →
    Runs (.powerUpRetry dt) s [.sealing, .restore, .therm, .qtz, .panel] fun e =>
      e = d) ∧
  (∀ s (d : Dev) (noLat : Bool) (smb : Fin 4) dt, d = s.dev.elapse dt → d.panel.resetDue = true → d.panel.coreUp = true → d.restore.dramKept = false →
    Runs (.packageReset false noLat smb 0 dt) s [.pkg, .expo, .sealing, .restore, .ctxs, .dram, .energy, .therm, .flint, .qtz, .snap, .lat, .heads, .jcs, .slate, .upd, .panel, .mirror, .dw, .out, .freeN] fun e =>
      e.restore.phase = 2 ∧ e.restore.ready = false ∧ e.panel.resetDue = false ∧ e.panel.strapNoLat = noLat ∧ e.panel.strapSmb = smb.val ∧ e.pkg.lead = 0 ∧ e.pkg.deputy = some 4 ∧ e.pkg.safe = 0 ∧ e.pkg.bedrock = false ∧
      e.jcs.queue = [] ∧ (∀ r : Nat, r ≠ 0x4003 → (e.lease r).holder = 255) ∧ e.snap.banks = [] ∧ e.snap.sched = [] ∧ (∀ r ∈ e.expo.held, r.cmd = 3) ∧ e.expo.paced = [] ∧ e.restore.restored = [] ∧
      (∀ h : Nat, h < 2 → (e.head h).linkUp = false ∧ (e.head h).hdm = [] ∧ (e.head h).events = [] ∧ (e.head h).mboxBusy = false) ∧ (∀ l : Nat, l < 6 → (e.link l).state = if noLat then 0 else 1) ∧
      e.qtz.count = d.qtz.count ∧ e.qtz.frac = d.qtz.frac ∧ e.qtz.running = d.qtz.running ∧ (d.lrec.trySlot = none → e.lrec.owner = 255)) ∧
  (∀ s (d : Dev) (noLat : Bool) (smb : Fin 4) dt, d = s.dev.elapse dt → d.panel.resetDue = true → d.panel.coreUp = true →
    Runs (.packageReset true noLat smb 0 dt) s [.pkg, .expo, .sealing, .restore, .ctxs, .dram, .energy, .therm, .flint, .qtz, .snap, .lat, .heads, .jcs, .slate, .upd, .panel, .mirror, .dw, .out, .freeN] fun e =>
      e.pkg.bedrock = true ∧ e.upd.bedCause = 1 ∧ e.restore.phase = 0 ∧ e.restore.ready = false) ∧
  (∀ s (d : Dev) (bed noLat : Bool) (smb test : Fin 4) dt, d = s.dev.elapse dt → d.panel.resetDue = true → d.panel.coreUp = true → test ≠ 0 →
    Runs (.packageReset bed noLat smb test dt) s [.pkg, .expo, .sealing, .restore, .ctxs, .dram, .energy, .therm, .flint, .qtz, .snap, .lat, .heads, .jcs, .slate, .upd, .panel, .mirror, .dw, .out, .freeN] fun e =>
      e.panel.pwrEn = false ∧ e.panel.coreUp = false ∧ e.panel.strapTest = test.val ∧ e.restore.phase = 1) ∧
  (∀ s (d : Dev) (bed noLat : Bool) (smb test : Fin 4) dt, d = s.dev.elapse dt → (d.panel.resetDue = false ∨ d.panel.coreUp = false) →
    Runs (.packageReset bed noLat smb test dt) s [.pkg, .expo, .sealing, .restore, .ctxs, .dram, .energy, .therm, .flint, .qtz, .snap, .lat, .heads, .jcs, .slate, .upd, .panel, .mirror, .dw, .out, .freeN] fun e =>
      e = d) ∧
  (∀ s (d : Dev) (pf vin la lb : Bool) dt, d = s.dev.elapse dt → d.panel.vaux = false →
    Runs (.vauxRise pf vin la lb dt) s [.energy, .qtz, .panel] fun e =>
      e.panel = { d.panel with vaux := true, pwrFailN := pf, vinOk := vin, mainsGood := false, goodSince := if pf = true ∧ vin = true then some d.now else none, notGoodAt := some d.now } ∧
      (e.bay 0).latch = la ∧ (e.bay 1).latch = lb) ∧
  (∀ s (d : Dev) dt, d = s.dev.elapse dt → d.panel.vaux = true →
    Runs (.vauxFall dt) s [.pkg, .expo, .sealing, .restore, .dram, .energy, .therm, .flint, .qtz, .slate, .panel, .dw, .out] fun e =>
      e.panel.vaux = false ∧ e.panel.coreUp = false ∧ e.panel.pwrEn = false ∧ e.panel.failCauses = [] ∧ e.qtz.standbyValid = false ∧ e.qtz.standby = 0 ∧ e.qtz.running = false ∧
      (∀ t c : Nat, (e.chan t c).retValid = false) ∧ (e.bay 0).latchOpens = 0 ∧ (e.bay 1).latchOpens = 0 ∧ e.restore.dramKept = false ∧ e.sealing.active = false) ∧
  (∀ s (d : Dev) (rail : Fin 6) dt, d = s.dev.elapse dt → d.panel.coreUp = true → rail.val < 3 →
    Runs (.railOutOfRange rail dt) s [.flint, .qtz] fun e =>
      e = d.raise 831 0x26 4 (detail := [rail.val])) ∧
  (∀ s (d : Dev) (rail : Fin 6) dt, d = s.dev.elapse dt → d.panel.coreUp = true → 3 ≤ rail.val →
    Runs (.railOutOfRange rail dt) s [.flint, .qtz] fun e =>
      e = d.raise 831 0x26 3 (headOnly := if rail.val = 3 then 0 else if rail.val = 4 then 1 else 2) (detail := [rail.val])) ∧
  (∀ s (d : Dev) (n : Fin 64) dt, d = s.dev.elapse dt → d.panel.coreUp = true → n.val % 8 < 6 →
    Runs (.criticalTrip n dt) s [.pkg, .expo, .sealing, .restore, .dram, .energy, .therm, .flint, .qtz, .slate, .panel, .dw, .out] fun e =>
      e.panel.pwrEn = false ∧ e.panel.coreUp = false ∧ e.therm.withheld = true ∧ e.therm.critLatch = some (n.val, d.now) ∧ e.restore.forcedUnclean = true ∧ e.restore.dramKept = false ∧ e.sealing.active = false ∧ e.sealing.hibernating = true ∧ e.pkg.safe = max d.pkg.safe 2) ∧
  (∀ s (d : Dev) (h : Fin 2) dt, d = s.dev.elapse dt →
    Runs (.headReset h 0 dt) s [.expo, .flint, .qtz, .heads, .jcs, .slate, .upd, .mirror, .out, .freeN] fun e =>
      (e.head h.val).linkUp = false ∧ (e.head h.val).hdm = [] ∧ (e.head h.val).mboxBusy = false ∧ (e.head h.val).bg.running = false ∧ (e.head h.val).msixOpen = [] ∧
      e.mem = d.mem ∧ e.ctxs = d.ctxs ∧ e.head (1 - h.val) = d.head (1 - h.val) ∧
      (e.head h.val).perst = true ∧
      (∀ r : Nat, r ≠ 0x4003 → (e.lease r).holder ≠ h.val) ∧
      (d.lrec.owner = h.val → d.lrec.trySlot = none → e.lrec.owner = 255)) ∧
  (∀ s (d : Dev) (h : Fin 2) dt, d = s.dev.elapse dt →
    Runs (.headReset h 1 dt) s [.expo, .flint, .qtz, .heads, .jcs, .slate, .upd, .mirror, .out, .freeN] fun e =>
      (e.head h.val).linkUp = false ∧ (e.head h.val).hdm = [] ∧ (e.head h.val).mboxBusy = false ∧ (e.head h.val).bg.running = false ∧ (e.head h.val).msixOpen = [] ∧
      e.mem = d.mem ∧ e.ctxs = d.ctxs ∧ e.head (1 - h.val) = d.head (1 - h.val) ∧
      (e.head h.val).training = true ∧
      (∀ r : Nat, r ≠ 0x4003 → (e.lease r).holder ≠ h.val)) ∧
  (∀ s (d : Dev) (h : Fin 2) dt, d = s.dev.elapse dt →
    Runs (.headReset h 2 dt) s [.expo, .flint, .qtz, .heads, .jcs, .slate, .upd, .mirror, .out, .freeN] fun e =>
      (e.head h.val).linkUp = false ∧ (e.head h.val).hdm = [] ∧ (e.head h.val).mboxBusy = false ∧ (e.head h.val).bg.running = false ∧ (e.head h.val).msixOpen = [] ∧
      e.mem = d.mem ∧ e.ctxs = d.ctxs ∧ e.head (1 - h.val) = d.head (1 - h.val) ∧
      e.jcs = d.jcs ∧ e.upd = d.upd ∧ (e.head h.val).linkDownAt = some d.now) ∧
  (∀ s (d : Dev) (h : Fin 2) (t0 : Nat) dt, d = s.dev.elapse dt → (d.head h.val).linkDownAt = some t0 → t0 + 1000000000 ≤ d.now → (d.head h.val).linkUp = false →
    Runs (.headLinkDownLeaseEnd h dt) s [.flint, .qtz, .heads, .jcs, .slate, .upd, .mirror, .out, .freeN] fun e =>
      (∀ r : Nat, r ≠ 0x4003 → (e.lease r).holder ≠ h.val) ∧ (∀ r : Nat, (d.lease r).holder ≠ h.val → (r = 0x4003 ∨ e.lease r = d.lease r))) ∧
  (∀ s (d : Dev) (h : Fin 2) dt, d = s.dev.elapse dt → (d.head h.val).linkUp = true →
    Runs (.headLinkDownLeaseEnd h dt) s [.flint, .qtz, .heads, .jcs, .slate, .upd, .mirror, .out, .freeN] fun e =>
      e = d) ∧
  (∀ s (d : Dev) (h : Fin 2) dt, d = s.dev.elapse dt →
    Runs (.perstNDeassert h dt) s [.qtz, .heads] fun e =>
      (e.head h.val).perst = false ∧ (e.head h.val).training = (d.panel.coreUp && !(d.head h.val).linkUp) ∧ e.head (1 - h.val) = d.head (1 - h.val)) ∧
  (∀ s (d : Dev) (h : Fin 2) dt, d = s.dev.elapse dt → d.panel.coreUp = true → (d.head h.val).perst = false →
    Runs (.headLinkUp h dt) s [.qtz, .heads, .out] fun e =>
      (e.head h.val).linkUp = true ∧ (e.head h.val).training = false ∧ (e.head h.val).linkDownAt = none ∧ (e.head h.val).media = d.mediaNow) ∧
  (∀ s (d : Dev) (h : Fin 2) dt, d = s.dev.elapse dt → (d.panel.coreUp = false ∨ (d.head h.val).perst = true) →
    Runs (.headLinkUp h dt) s [.qtz, .heads, .out] fun e =>
      e = d) ∧
  (∀ s (d : Dev) (h : Fin 2) (i : Fin 8) (base size ways gran pos dpaBase : Nat) dt, d = s.dev.elapse dt → ways ∈ [1, 2, 4, 8, 16] → gran ∈ [256, 512, 1024, 2048, 4096, 8192, 16384] → pos < ways → size ≠ 0 →
    Runs (.hdmDecoderCommit h i base size ways gran pos dpaBase dt) s [.qtz, .heads] fun e =>
      tget (e.head h.val).hdm {} i.val = ({ committed := true, base := base, size := size, ways := ways, gran := gran, pos := pos, dpaBase := dpaBase } : HdmDecoder)) ∧
  (∀ s (d : Dev) (h : Fin 2) (i : Fin 8) (base size ways gran pos dpaBase : Nat) dt, d = s.dev.elapse dt → (ways ∉ [1, 2, 4, 8, 16] ∨ gran ∉ [256, 512, 1024, 2048, 4096, 8192, 16384] ∨ ways ≤ pos ∨ size = 0) →
    Runs (.hdmDecoderCommit h i base size ways gran pos dpaBase dt) s [.qtz, .heads] fun e =>
      tget (e.head h.val).hdm {} i.val = ({ committed := false, base := base, size := size, ways := ways, gran := gran, pos := pos, dpaBase := dpaBase } : HdmDecoder)) ∧
  (∀ s (d : Dev) dt, d = s.dev.elapse dt →
    Runs (.sidebandReset none dt) s [.flint, .qtz, .heads, .jcs, .slate, .upd, .mirror, .out, .freeN] fun e =>
      e.jcs = { d.jcs with mctpBusy := [], queue := d.jcs.queue.filter (fun q : QCmd => q.by_ != 2) }) ∧
  (∀ s (d : Dev) (v : BitVec 8) dt, d = s.dev.elapse dt → v.toNat ≠ d.jcs.sbEid →
    Runs (.sidebandReset (some v) dt) s [.flint, .qtz, .heads, .jcs, .slate, .upd, .mirror, .out, .freeN] fun e =>
      e.jcs.sbEid = v.toNat ∧ e.jcs.mctpBusy = [] ∧ e.jcs.sbBg = d.jcs.sbBg ∧ (∀ r : Nat, r ≠ 0x4003 → (e.lease r).holder ≠ 2) ∧ (d.lrec.owner = 2 → d.lrec.trySlot = none → e.lrec.owner = 255)) ∧
  (∀ s (d : Dev) (t : Fin 8) dt, d = s.dev.elapse dt →
    Runs (.supervisorWatchdog t dt) s [.flint, .qtz] fun e =>
      e = d.raise (tsrc t.val 51) 0x11 4) ∧
  (∀ s (d : Dev) dt, d = s.dev.elapse dt → d.panel.vaux = true → d.panel.btnStuck = false →
    Runs (.moduleButtonPress dt) s [.qtz, .panel] fun e =>
      e.panel = { d.panel with btnAt := some d.now }) ∧
  (∀ s (d : Dev) (t0 w : Nat) dt, d = s.dev.elapse dt → d.panel.btnStuck = false → d.panel.btnAt = some t0 → t0 ≤ d.now → w = d.now - t0 → 50000000 ≤ w → w ≤ 1000000000 → d.panel.coreUp = true → d.sealing.active = false → d.restore.ready = true → d.pkg.bedrock = false → d.pkg.safe = 0 → d.panel.removal ≠ 2 →
    Runs (.moduleButtonRelease dt) s [.pkg, .expo, .sealing, .restore, .energy, .therm, .flint, .qtz, .slate, .panel, .dw] fun e =>
      e.panel = { d.panel with btnAt := none, identifyUntil := if d.panel.identifyUntil = none then some (d.now + 30000000000) else none } ∧ e.out = d.out) ∧
  (∀ s (d : Dev) (t0 w : Nat) dt, d = s.dev.elapse dt → d.panel.btnStuck = false → d.panel.btnAt = some t0 → t0 ≤ d.now → w = d.now - t0 → 3000000000 ≤ w → w ≤ 8000000000 → d.panel.coreUp = true → d.sealing.active = false → d.restore.ready = true → d.pkg.bedrock = false → d.pkg.safe = 0 → d.panel.removal = 0 →
    Runs (.moduleButtonRelease dt) s [.pkg, .expo, .sealing, .restore, .energy, .therm, .flint, .qtz, .slate, .panel, .dw] fun e =>
      e.panel.removal = 2 ∧ e.panel.drainAt = d.now ∧ e.panel.btnAt = none ∧ e.sealing.active = false) ∧
  (∀ s (d : Dev) (t0 w : Nat) dt, d = s.dev.elapse dt → d.panel.btnStuck = false → d.panel.btnAt = some t0 → t0 ≤ d.now → w = d.now - t0 → 50000000 ≤ w → w ≤ 1000000000 → d.panel.coreUp = true → d.sealing.active = false → d.restore.ready = true → d.pkg.bedrock = false → d.pkg.safe = 0 → d.panel.removal = 2 →
    Runs (.moduleButtonRelease dt) s [.pkg, .expo, .sealing, .restore, .energy, .therm, .flint, .qtz, .slate, .panel, .dw] fun e =>
      e.panel.removal = 0 ∧ e.panel.identifyUntil = d.panel.identifyUntil) ∧
  (∀ s (d : Dev) (t0 w : Nat) dt, d = s.dev.elapse dt → d.panel.btnStuck = false → d.panel.btnAt = some t0 → t0 ≤ d.now → w = d.now - t0 → 3000000000 ≤ w → w ≤ 8000000000 → d.panel.coreUp = true → d.sealing.active = false → d.restore.ready = true → d.pkg.bedrock = false → d.pkg.safe = 0 → d.panel.removal ≠ 0 →
    Runs (.moduleButtonRelease dt) s [.pkg, .expo, .sealing, .restore, .energy, .therm, .flint, .qtz, .slate, .panel, .dw] fun e =>
      e.panel = { d.panel with btnAt := none, refusedUntil := some (d.now + 3000000000) }) ∧
  (∀ s (d : Dev) (t0 w : Nat) dt, d = s.dev.elapse dt → d.panel.btnStuck = false → d.panel.btnAt = some t0 → t0 ≤ d.now → w = d.now - t0 → 3000000000 ≤ w → w ≤ 8000000000 → d.panel.coreUp = true → d.sealing.active = true → d.sealing.test = false →
    Runs (.moduleButtonRelease dt) s [.pkg, .expo, .sealing, .restore, .energy, .therm, .flint, .qtz, .slate, .panel, .dw] fun e =>
      e.panel = { d.panel with btnAt := none, refusedUntil := some (d.now + 3000000000) } ∧ e.sealing = d.sealing) ∧
  (∀ s (d : Dev) (t0 w : Nat) dt, d = s.dev.elapse dt → d.panel.btnStuck = false → d.panel.btnAt = some t0 → t0 ≤ d.now → w = d.now - t0 → 3000000000 ≤ w → w ≤ 8000000000 → d.panel.coreUp = true → d.sealing.active = false → (d.restore.ready = false ∨ d.pkg.bedrock = true) → d.pkg.safe ≠ 2 →
    Runs (.moduleButtonRelease dt) s [.pkg, .expo, .sealing, .restore, .energy, .therm, .flint, .qtz, .slate, .panel, .dw] fun e =>
      e.panel.pwrEn = false ∧ e.panel.coreUp = false ∧ e.panel.sealCause = some 6 ∧ e.sealing.hibernating = true ∧ e.sealing.stage6Clean = true ∧ e.sealing.active = false) ∧
  (∀ s (d : Dev) (t0 w : Nat) dt, d = s.dev.elapse dt → d.panel.btnStuck = false → d.panel.btnAt = some t0 → t0 ≤ d.now → w = d.now - t0 → (w < 50000000 ∨ 1000000000 < w ∧ w < 3000000000 ∨ 8000000000 < w) →
    Runs (.moduleButtonRelease dt) s [.pkg, .expo, .sealing, .restore, .energy, .therm, .flint, .qtz, .slate, .panel, .dw] fun e =>
      e.panel = { d.panel with btnAt := none }) ∧
  (∀ s (d : Dev) (t0 w : Nat) dt, d = s.dev.elapse dt → d.panel.btnStuck = false → d.panel.btnAt = some t0 → t0 ≤ d.now → w = d.now - t0 → 3000000000 ≤ w → w ≤ 8000000000 → d.panel.vaux = true → d.panel.pwrEn = false → d.panel.coreUp = false → d.panel.mainsGood = true → d.panel.strapTest = 0 → d.panel.retryAt = none → (d.panel.sealCause = some 5 ∨ d.panel.sealCause = some 6 ∨ d.therm.withheld = true ∨ d.panel.failedRestart = true) →
    Runs (.moduleButtonRelease dt) s [.pkg, .expo, .sealing, .restore, .energy, .therm, .flint, .qtz, .slate, .panel, .dw] fun e =>
      e.panel.pwrEn = true ∧ e.panel.rails = 1 ∧ e.panel.railsGood = 0 ∧ e.panel.refGood = false ∧ e.restore.phase = 1 ∧ e.restore.ready = false ∧ e.sealing.hibernating = false) ∧
  (∀ s (d : Dev) (t0 : Nat) dt, d = s.dev.elapse dt → d.panel.btnAt = some t0 → t0 + 30000000000 ≤ d.now → d.panel.btnStuck = false →
    Runs (.buttonStuck dt) s [.flint, .qtz, .panel] fun e =>
      e.panel.btnStuck = true ∧ e.panel.btnAt = none ∧ e.panel.removal = d.panel.removal ∧ e.sealing = d.sealing) ∧
  (∀ s (d : Dev) (t0 : Nat) dt, d = s.dev.elapse dt → d.panel.identifyUntil = some t0 →
    Runs (.identifyEnd dt) s [.qtz, .panel] fun e =>
      e.panel = { d.panel with identifyUntil := if t0 ≤ d.now then none else some t0 }) ∧
  (∀ s (d : Dev) (t0 : Nat) dt, d = s.dev.elapse dt → d.panel.refusedUntil = some t0 →
    Runs (.refusedHoldIndicationEnd dt) s [.qtz, .panel] fun e =>
      e.panel = { d.panel with refusedUntil := if t0 ≤ d.now then none else some t0 }) ∧
  (∀ s (d : Dev) dt, d = s.dev.elapse dt → d.panel.removal = 2 → d.sealing.active = false → d.panel.coreUp = true → d.pkg.safe = 0 → d.restore.ready = true → d.pkg.bedrock = false → (d.xPkg ≤ 262144 ∨ d.panel.drainAt + 60000000000 ≤ d.now) →
    Runs (.removalDrainEnd dt) s [.mem, .pkg, .expo, .sealing, .restore, .flash, .ctxs, .dram, .energy, .therm, .flint, .qtz, .lat, .heads, .jcs, .slate, .upd, .panel, .dw, .out] fun e =>
      e.sealing.active = true ∧ e.sealing.cause = 6 ∧ e.sealing.test = false ∧ e.sealing.frozen = true) ∧
  (∀ s (d : Dev) dt, d = s.dev.elapse dt → (d.panel.removal ≠ 2 ∨ d.sealing.active = true ∨ 262144 < d.xPkg ∧ d.now < d.panel.drainAt + 60000000000) →
    Runs (.removalDrainEnd dt) s [.mem, .pkg, .expo, .sealing, .restore, .flash, .ctxs, .dram, .energy, .therm, .flint, .qtz, .lat, .heads, .jcs, .slate, .upd, .panel, .dw, .out] fun e =>
      e = d) ∧
  (∀ d : Dev, (d.pkg.safe ≠ 0 → d.panel.coreUp = true → d.sealing.hibernating = false → d.lights = (.steady, .off)) ∧
      (d.pkg.safe = 0 → d.flint.fatal = false → d.pkg.bedrock = false → d.sealing.hibernating = true → d.lights = if d.sealing.stage6Clean then (.off, .steady) else (.flash 10, .steady)) ∧
      (d.pkg.safe = 0 → d.flint.fatal = false → d.pkg.bedrock = false → d.sealing.hibernating = false → d.panel.refusedUntil = none → d.sealing.active = true → d.lights = if d.sealing.cause = 6 then (.off, .flash 20) else (.flash 40, .off)))

/-- Whatever the state, a package reset with any straps, a forced reset, a reset of a head by PERST_N, hot reset or link down and its link
coming up again, a sideband reset with or without a new endpoint, a watchdog of any supervisor and a reset of a clocked domain leave the
count, the rate correction with the integral value of its loop, the UTC offset with its validity and source, and the lattice offset as they
would be had only the command's time passed. The lead mirrors the discipline state to the deputy while both run, and a takeover, which takes
it from the mirror, keeps it and the rest of the time. (R339) -/
def Obligations.ResetsKeepTime : Prop :=
  (∀ s (bedrock noLat : Bool) (smb test : Fin 4) dt, ∃ t, exec (.packageReset bedrock noLat smb test dt) s = .next t ∧ TimeKept (s.dev.elapse dt) t.dev) ∧
  (∀ s dt, ∃ t, exec (.forcedReset dt) s = .next t ∧ TimeKept (s.dev.elapse dt) t.dev) ∧
  (∀ s (h : Fin 2) (cause : Fin 3) dt, ∃ t, exec (.headReset h cause dt) s = .next t ∧ TimeKept (s.dev.elapse dt) t.dev) ∧
  (∀ s (h : Fin 2) dt, ∃ t, exec (.headLinkUp h dt) s = .next t ∧ TimeKept (s.dev.elapse dt) t.dev) ∧
  (∀ s (eid : Option (BitVec 8)) dt, ∃ t, exec (.sidebandReset eid dt) s = .next t ∧ TimeKept (s.dev.elapse dt) t.dev) ∧
  (∀ s (u : Fin 8) dt, ∃ t, exec (.supervisorWatchdog u dt) s = .next t ∧ TimeKept (s.dev.elapse dt) t.dev) ∧
  (∀ s (dom : Fin 60) (reqs : List Nat) dt, ∃ t, exec (.clockedDomainReset dom reqs dt) s = .next t ∧ TimeKept (s.dev.elapse dt) t.dev) ∧
  (∀ d : Dev, d.roleRuns = true → d.pkg.deputy ≠ none → d.mirrorNow.mirror.rate = d.qtz.rate ∧ d.mirrorNow.mirror.freq = d.qtz.freq) ∧
  (∀ s dt, s.dev.mirror.rate = s.dev.qtz.rate → s.dev.mirror.freq = s.dev.qtz.freq →
    ∃ t, exec (.takeoverComplete dt) s = .next t ∧ TimeKept (s.dev.elapse dt) t.dev)

/-- Take any JCS command of any principal that its row's own checks, the fields and the ownership of a context do not refuse. If the row is
changing and names a resource whose lease another holds, or if the row marks its lease "held" and the caller does not hold it, the command
completes with LEASE_CONFLICT that names the resource and the lease's holder, FFh while the lease is free; no lease changes, nor anything
but the caller's answer. If every resource it names is leased to the caller, or is free where the row is not marked "held", the leases do
not stop it: its effect runs. A read's effect runs whatever the leases are. (R405) -/
def Obligations.LeasesGateChangingCommands : Prop :=
  (∀ (d : Dev) (b : Fin 4) (uid op : Nat) (p : List Byte) (r : CmdRow) (x : Nat), d.answers = true → (d.pkg.bedrock = false ∨ b.val < 2) →
    cmdRow op = some r → d.admission r (caller b uid) p = 0 → (jcsRow op).1 d (caller b uid) p = 0 → d.notOwner r (caller b uid) p = none →
    r.chg = true → x ∈ r.resources p → (d.lease x).heldBy (caller b uid) = false → (r.held = true ∨ (d.lease x).holder ≠ 255) →
    ∃ y, y ∈ r.resources p ∧ (d.lease y).heldBy (caller b uid) = false ∧ (r.held = true ∨ (d.lease y).holder ≠ 255) ∧
      Answered d (d.jcsRun op (caller b uid) p) b.val op (retOf 6) 6 false (conflictOut (d.lease y).holder y) ∧
      (d.jcsRun op (caller b uid) p).jcs.leases = d.jcs.leases ∧
      ChangesOnly [.flint, .lat, .heads, .jcs, .out] d (d.jcsRun op (caller b uid) p)) ∧
  (∀ (d : Dev) (b : Fin 4) (uid op : Nat) (p : List Byte) (r : CmdRow), d.answers = true → (d.pkg.bedrock = false ∨ b.val < 2) →
    cmdRow op = some r → d.admission r (caller b uid) p = 0 → (jcsRow op).1 d (caller b uid) p = 0 → d.notOwner r (caller b uid) p = none →
    r.chg = true → (∀ y ∈ r.resources p, (d.lease y).heldBy (caller b uid) = true ∨ (r.held = false ∧ (d.lease y).holder = 255)) →
    d.jcsRun op (caller b uid) p = d.jcsEffect op (jcsRow op).2 r (caller b uid) p) ∧
  (∀ (d : Dev) (b : Fin 4) (uid op : Nat) (p : List Byte) (r : CmdRow), d.answers = true → (d.pkg.bedrock = false ∨ b.val < 2) →
    cmdRow op = some r → d.admission r (caller b uid) p = 0 → (jcsRow op).1 d (caller b uid) p = 0 → d.notOwner r (caller b uid) p = none →
    r.chg = false → d.jcsRun op (caller b uid) p = d.jcsEffect op (jcsRow op).2 r (caller b uid) p)
end

