-- ==== Sys2Proof/Laws/ChangesOnly.lean ====
section
/-! SUPPORT. How `ChangesOnly` composes, and that each part's update operation changes that part alone. -/

namespace Sys2Proof.Machine

/-- A part is the same as itself. -/
theorem Part.same_refl (p : Part) (d : Dev) : p.same d d := by cases p <;> rfl

/-- The same part, in a row. -/
theorem Part.same_trans {p : Part} {a b c : Dev} (h : p.same a b) (k : p.same b c) : p.same a c := by
  cases p <;> exact Eq.trans h k

/-- No change stays within any parts. -/
theorem ChangesOnly.refl (S : List Part) (d : Dev) : ChangesOnly S d d := ⟨fun p _ => p.same_refl d⟩

/-- A change within `T` after one within `S`, where `S` holds all of `T`. -/
theorem ChangesOnly.step {S T : List Part} {a b c : Dev} (k : ChangesOnly T b c) (hT : ∀ p ∈ T, p ∈ S) (h : ChangesOnly S a b) :
    ChangesOnly S a c :=
  ⟨fun p hp => Part.same_trans (h.same p hp) (k.same p fun ht => hp (hT p ht))⟩

/-- A change within fewer parts is one within more. -/
theorem ChangesOnly.mono {S T : List Part} {b c : Dev} (k : ChangesOnly T b c) (hT : ∀ p ∈ T, p ∈ S) : ChangesOnly S b c :=
  .step k hT (.refl _ _)

/-- Either branch. -/
theorem ChangesOnly.ite {S : List Part} {c : Prop} {_ : Decidable c} {d a b : Dev} (ha : ChangesOnly S d a) (hb : ChangesOnly S d b) :
    ChangesOnly S d (if c then a else b) := by split <;> assumption

/-- A fold of changes within the same parts. -/
theorem ChangesOnly.foldl {α : Type} {S : List Part} {f : Dev → α → Dev} {l : List α} {d e : Dev}
    (hf : ∀ e a, ChangesOnly S d e → ChangesOnly S d (f e a)) (h : ChangesOnly S d e) : ChangesOnly S d (l.foldl f e) := by
  induction l generalizing e with
  | nil => exact h
  | cons a l ih => exact ih (hf _ _ h)

/-- A change whose result is taken apart as a pair. -/
theorem ChangesOnly.pair {α : Type} {S : List Part} {p : Dev × α} {d e : Dev} {x : α} (q : p = (e, x)) (h : ChangesOnly S d p.1) :
    ChangesOnly S d e := by rw [q] at h; exact h

theorem Dev.onMem_foot {d : Dev} {f : Mem → Mem} : ChangesOnly [.mem] d (d.onMem f) := by
  refine ⟨fun p hp => ?_⟩; cases p <;> first | rfl | simp at hp
theorem Dev.onPkg_foot {d : Dev} {f : Pkg → Pkg} : ChangesOnly [.pkg] d (d.onPkg f) := by
  refine ⟨fun p hp => ?_⟩; cases p <;> first | rfl | simp at hp
theorem Dev.onExpo_foot {d : Dev} {f : Expo → Expo} : ChangesOnly [.expo] d (d.onExpo f) := by
  refine ⟨fun p hp => ?_⟩; cases p <;> first | rfl | simp at hp
theorem Dev.onSealing_foot {d : Dev} {f : Seal → Seal} : ChangesOnly [.sealing] d (d.onSealing f) := by
  refine ⟨fun p hp => ?_⟩; cases p <;> first | rfl | simp at hp
theorem Dev.onRestore_foot {d : Dev} {f : Restore → Restore} : ChangesOnly [.restore] d (d.onRestore f) := by
  refine ⟨fun p hp => ?_⟩; cases p <;> first | rfl | simp at hp
theorem Dev.onStrata_foot {d : Dev} {f : Strata → Strata} : ChangesOnly [.strata] d (d.onStrata f) := by
  refine ⟨fun p hp => ?_⟩; cases p <;> first | rfl | simp at hp
theorem Dev.onFlash_foot {d : Dev} {f : (Tbl TileFlash) → Tbl TileFlash} : ChangesOnly [.flash] d (d.onFlash f) := by
  refine ⟨fun p hp => ?_⟩; cases p <;> first | rfl | simp at hp
theorem Dev.onCtxs_foot {d : Dev} {f : Ctxs → Ctxs} : ChangesOnly [.ctxs] d (d.onCtxs f) := by
  refine ⟨fun p hp => ?_⟩; cases p <;> first | rfl | simp at hp
theorem Dev.onDram_foot {d : Dev} {f : Dram → Dram} : ChangesOnly [.dram] d (d.onDram f) := by
  refine ⟨fun p hp => ?_⟩; cases p <;> first | rfl | simp at hp
theorem Dev.onEnergy_foot {d : Dev} {f : Energy → Energy} : ChangesOnly [.energy] d (d.onEnergy f) := by
  refine ⟨fun p hp => ?_⟩; cases p <;> first | rfl | simp at hp
theorem Dev.onTherm_foot {d : Dev} {f : Therm → Therm} : ChangesOnly [.therm] d (d.onTherm f) := by
  refine ⟨fun p hp => ?_⟩; cases p <;> first | rfl | simp at hp
theorem Dev.onFlint_foot {d : Dev} {f : Flint → Flint} : ChangesOnly [.flint] d (d.onFlint f) := by
  refine ⟨fun p hp => ?_⟩; cases p <;> first | rfl | simp at hp
theorem Dev.onQtz_foot {d : Dev} {f : Qtz → Qtz} : ChangesOnly [.qtz] d (d.onQtz f) := by
  refine ⟨fun p hp => ?_⟩; cases p <;> first | rfl | simp at hp
theorem Dev.onSnap_foot {d : Dev} {f : Snap → Snap} : ChangesOnly [.snap] d (d.onSnap f) := by
  refine ⟨fun p hp => ?_⟩; cases p <;> first | rfl | simp at hp
theorem Dev.onLat_foot {d : Dev} {f : Lat → Lat} : ChangesOnly [.lat] d (d.onLat f) := by
  refine ⟨fun p hp => ?_⟩; cases p <;> first | rfl | simp at hp
theorem Dev.onHeads_foot {d : Dev} {f : (Tbl HeadSt) → Tbl HeadSt} : ChangesOnly [.heads] d (d.onHeads f) := by
  refine ⟨fun p hp => ?_⟩; cases p <;> first | rfl | simp at hp
theorem Dev.onJcs_foot {d : Dev} {f : JcsSt → JcsSt} : ChangesOnly [.jcs] d (d.onJcs f) := by
  refine ⟨fun p hp => ?_⟩; cases p <;> first | rfl | simp at hp
theorem Dev.onSlate_foot {d : Dev} {f : (Tbl SlateTile) → Tbl SlateTile} : ChangesOnly [.slate] d (d.onSlate f) := by
  refine ⟨fun p hp => ?_⟩; cases p <;> first | rfl | simp at hp
theorem Dev.onUpd_foot {d : Dev} {f : Update → Update} : ChangesOnly [.upd] d (d.onUpd f) := by
  refine ⟨fun p hp => ?_⟩; cases p <;> first | rfl | simp at hp
theorem Dev.onPanel_foot {d : Dev} {f : Panel → Panel} : ChangesOnly [.panel] d (d.onPanel f) := by
  refine ⟨fun p hp => ?_⟩; cases p <;> first | rfl | simp at hp
theorem Dev.onMirror_foot {d : Dev} {f : Mirror → Mirror} : ChangesOnly [.mirror] d (d.onMirror f) := by
  refine ⟨fun p hp => ?_⟩; cases p <;> first | rfl | simp at hp
theorem Dev.onDw_foot {d : Dev} {f : (Tbl (BitVec 64)) → Tbl (BitVec 64)} : ChangesOnly [.dw] d (d.onDw f) := by
  refine ⟨fun p hp => ?_⟩; cases p <;> first | rfl | simp at hp
theorem Dev.onOut_foot {d : Dev} {f : (List Out) → List Out} : ChangesOnly [.out] d (d.onOut f) := by
  refine ⟨fun p hp => ?_⟩; cases p <;> first | rfl | simp at hp
theorem Dev.onFreeN_foot {d : Dev} {f : Nat → Nat} : ChangesOnly [.freeN] d (d.onFreeN f) := by
  refine ⟨fun p hp => ?_⟩; cases p <;> first | rfl | simp at hp

end Sys2Proof.Machine
end

