-- ==== Sys2Proof/Laws/Foot.lean ====
section
/-! SUPPORT. What each operation may change: for every operation on the device, the parts it may touch. -/

set_option linter.unreachableTactic false
set_option linter.unusedTactic false

namespace Sys2Proof.Machine

/-! ### Ops -/

theorem Dev.elapse_foot {d : Dev} {dt : Nat} : ChangesOnly [.qtz] d (Dev.elapse d dt) := by
  unfold Dev.elapse
  try dsimp only
  repeat' first
    | intro _ | with_reducible exact .refl _ _ | with_reducible assumption | with_reducible apply ChangesOnly.ite
    | with_reducible apply ChangesOnly.foldl | (with_reducible apply ChangesOnly.step Dev.onQtz_foot; decide) | with_reducible exact .pair ‹_› ‹_›
    | split | dsimp only

theorem Dev.dwSet_foot {d : Dev} {off : Nat} {v : Nat} : ChangesOnly [.dw] d (Dev.dwSet d off v) := by
  unfold Dev.dwSet
  try dsimp only
  repeat' first
    | intro _ | with_reducible exact .refl _ _ | with_reducible assumption | with_reducible apply ChangesOnly.ite
    | with_reducible apply ChangesOnly.foldl | (with_reducible apply ChangesOnly.step Dev.onDw_foot; decide) | with_reducible exact .pair ‹_› ‹_›
    | split | dsimp only

theorem Dev.dwUpd_foot {d : Dev} {off w fields : Nat} : ChangesOnly [.dw] d (Dev.dwUpd d off w fields) := by
  unfold Dev.dwUpd
  try dsimp only
  repeat' first
    | intro _ | with_reducible exact .refl _ _ | with_reducible assumption | with_reducible apply ChangesOnly.ite
    | with_reducible apply ChangesOnly.foldl | (with_reducible apply ChangesOnly.step Dev.dwSet_foot; decide) | with_reducible exact .pair ‹_› ‹_›
    | split | dsimp only

theorem Dev.periodic_foot {S : List Part} {d0 d : Dev} {k q : Nat} {f : Dev → Dev} (hS : ∀ p ∈ ([.pkg] : List Part), p ∈ S)
    (h0 : ChangesOnly S d0 d) (hf : ∀ e, ChangesOnly S d0 e → ChangesOnly S d0 (f e)) : ChangesOnly S d0 (d.periodic k q f) := by
  unfold Dev.periodic
  try dsimp only
  repeat' first
    | intro _ | with_reducible exact .refl _ _ | with_reducible assumption | with_reducible apply hf | with_reducible apply ChangesOnly.ite
    | with_reducible apply ChangesOnly.foldl | (with_reducible apply ChangesOnly.step Dev.onPkg_foot; exact fun p hp => hS p (by revert p hp; decide))
    | with_reducible exact .pair ‹_› ‹_› | split | dsimp only

theorem Dev.emit_foot {d : Dev} {o : Out} : ChangesOnly [.out] d (Dev.emit d o) := by
  unfold Dev.emit
  try dsimp only
  repeat' first
    | intro _ | with_reducible exact .refl _ _ | with_reducible assumption | with_reducible apply ChangesOnly.ite
    | with_reducible apply ChangesOnly.foldl | (with_reducible apply ChangesOnly.step Dev.onOut_foot; decide) | with_reducible exact .pair ‹_› ‹_›
    | split | dsimp only

theorem Dev.tick_foot {d : Dev} : ChangesOnly [.freeN] d (Dev.tick d) := by
  unfold Dev.tick
  try dsimp only
  repeat' first
    | intro _ | with_reducible exact .refl _ _ | with_reducible assumption | with_reducible apply ChangesOnly.ite
    | with_reducible apply ChangesOnly.foldl | (with_reducible apply ChangesOnly.step Dev.onFreeN_foot; decide) | with_reducible exact .pair ‹_› ‹_›
    | split | dsimp only

theorem Dev.onTile_foot {d : Dev} {t : Nat} {f : TileSt → TileSt} : ChangesOnly [.pkg] d (Dev.onTile d t f) := by
  unfold Dev.onTile
  try dsimp only
  repeat' first
    | intro _ | with_reducible exact .refl _ _ | with_reducible assumption | with_reducible apply ChangesOnly.ite
    | with_reducible apply ChangesOnly.foldl | (with_reducible apply ChangesOnly.step Dev.onPkg_foot; decide) | with_reducible exact .pair ‹_› ‹_›
    | split | dsimp only

theorem Dev.onHead_foot {d : Dev} {h : Nat} {f : HeadSt → HeadSt} : ChangesOnly [.heads] d (Dev.onHead d h f) := by
  unfold Dev.onHead
  try dsimp only
  repeat' first
    | intro _ | with_reducible exact .refl _ _ | with_reducible assumption | with_reducible apply ChangesOnly.ite
    | with_reducible apply ChangesOnly.foldl | (with_reducible apply ChangesOnly.step Dev.onHeads_foot; decide) | with_reducible exact .pair ‹_› ‹_›
    | split | dsimp only

theorem Dev.onFl_foot {d : Dev} {t : Nat} {f : TileFlash → TileFlash} : ChangesOnly [.flash] d (Dev.onFl d t f) := by
  unfold Dev.onFl
  try dsimp only
  repeat' first
    | intro _ | with_reducible exact .refl _ _ | with_reducible assumption | with_reducible apply ChangesOnly.ite
    | with_reducible apply ChangesOnly.foldl | (with_reducible apply ChangesOnly.step Dev.onFlash_foot; decide) | with_reducible exact .pair ‹_› ‹_›
    | split | dsimp only

theorem Dev.onCtx_foot {d : Dev} {c : Nat} {f : Ctx → Ctx} : ChangesOnly [.ctxs] d (Dev.onCtx d c f) := by
  unfold Dev.onCtx
  try dsimp only
  repeat' first
    | intro _ | with_reducible exact .refl _ _ | with_reducible assumption | with_reducible apply ChangesOnly.ite
    | with_reducible apply ChangesOnly.foldl | (with_reducible apply ChangesOnly.step Dev.onCtxs_foot; decide) | with_reducible exact .pair ‹_› ‹_›
    | split | dsimp only

theorem Dev.onRing_foot {d : Dev} {c k : Nat} {f : Ring → Ring} : ChangesOnly [.ctxs] d (Dev.onRing d c k f) := by
  unfold Dev.onRing
  try dsimp only
  repeat' first
    | intro _ | with_reducible exact .refl _ _ | with_reducible assumption | with_reducible apply ChangesOnly.ite
    | with_reducible apply ChangesOnly.foldl | (with_reducible apply ChangesOnly.step Dev.onCtx_foot; decide) | with_reducible exact .pair ‹_› ‹_›
    | split | dsimp only

theorem Dev.onGran_foot {d : Dev} {g : Nat} {f : Granule → Granule} : ChangesOnly [.ctxs] d (Dev.onGran d g f) := by
  unfold Dev.onGran
  try dsimp only
  repeat' first
    | intro _ | with_reducible exact .refl _ _ | with_reducible assumption | with_reducible apply ChangesOnly.ite
    | with_reducible apply ChangesOnly.foldl | (with_reducible apply ChangesOnly.step Dev.onCtxs_foot; decide) | with_reducible exact .pair ‹_› ‹_›
    | split | dsimp only

theorem Dev.onChan_foot {d : Dev} {t c : Nat} {f : Chan → Chan} : ChangesOnly [.dram] d (Dev.onChan d t c f) := by
  unfold Dev.onChan
  try dsimp only
  repeat' first
    | intro _ | with_reducible exact .refl _ _ | with_reducible assumption | with_reducible apply ChangesOnly.ite
    | with_reducible apply ChangesOnly.foldl | (with_reducible apply ChangesOnly.step Dev.onDram_foot; decide) | with_reducible exact .pair ‹_› ‹_›
    | split | dsimp only

theorem Dev.onRank_foot {d : Dev} {t e : Nat} {f : Rank → Rank} : ChangesOnly [.dram] d (Dev.onRank d t e f) := by
  unfold Dev.onRank
  try dsimp only
  repeat' first
    | intro _ | with_reducible exact .refl _ _ | with_reducible assumption | with_reducible apply ChangesOnly.ite
    | with_reducible apply ChangesOnly.foldl | (with_reducible apply ChangesOnly.step Dev.onDram_foot; decide) | with_reducible exact .pair ‹_› ‹_›
    | split | dsimp only

theorem Dev.onSteer_foot {d : Dev} {t e : Nat} {f : Steer → Steer} : ChangesOnly [.dram] d (Dev.onSteer d t e f) := by
  unfold Dev.onSteer
  try dsimp only
  repeat' first
    | intro _ | with_reducible exact .refl _ _ | with_reducible assumption | with_reducible apply ChangesOnly.ite
    | with_reducible apply ChangesOnly.foldl | (with_reducible apply ChangesOnly.step Dev.onDram_foot; decide) | with_reducible exact .pair ‹_› ‹_›
    | split | dsimp only

theorem Dev.onSrc_foot {d : Dev} {s : Nat} {f : SourceSt → SourceSt} : ChangesOnly [.energy] d (Dev.onSrc d s f) := by
  unfold Dev.onSrc
  try dsimp only
  repeat' first
    | intro _ | with_reducible exact .refl _ _ | with_reducible assumption | with_reducible apply ChangesOnly.ite
    | with_reducible apply ChangesOnly.foldl | (with_reducible apply ChangesOnly.step Dev.onEnergy_foot; decide) | with_reducible exact .pair ‹_› ‹_›
    | split | dsimp only

theorem Dev.onBay_foot {d : Dev} {b : Nat} {f : PackSt → PackSt} : ChangesOnly [.energy] d (Dev.onBay d b f) := by
  unfold Dev.onBay
  try dsimp only
  repeat' first
    | intro _ | with_reducible exact .refl _ _ | with_reducible assumption | with_reducible apply ChangesOnly.ite
    | with_reducible apply ChangesOnly.foldl | (with_reducible apply ChangesOnly.step Dev.onEnergy_foot; decide) | with_reducible exact .pair ‹_› ‹_›
    | split | dsimp only

theorem Dev.onSens_foot {d : Dev} {n : Nat} {f : Sensor → Sensor} : ChangesOnly [.therm] d (Dev.onSens d n f) := by
  unfold Dev.onSens
  try dsimp only
  repeat' first
    | intro _ | with_reducible exact .refl _ _ | with_reducible assumption | with_reducible apply ChangesOnly.ite
    | with_reducible apply ChangesOnly.foldl | (with_reducible apply ChangesOnly.step Dev.onTherm_foot; decide) | with_reducible exact .pair ‹_› ‹_›
    | split | dsimp only

theorem Dev.onBoardIn_foot {d : Dev} {n : Nat} {f : BoardIn → BoardIn} : ChangesOnly [.therm] d (Dev.onBoardIn d n f) := by
  unfold Dev.onBoardIn
  try dsimp only
  repeat' first
    | intro _ | with_reducible exact .refl _ _ | with_reducible assumption | with_reducible apply ChangesOnly.ite
    | with_reducible apply ChangesOnly.foldl | (with_reducible apply ChangesOnly.step Dev.onTherm_foot; decide) | with_reducible exact .pair ‹_› ‹_›
    | split | dsimp only

theorem Dev.onTtile_foot {d : Dev} {t : Nat} {f : ThermTile → ThermTile} : ChangesOnly [.therm] d (Dev.onTtile d t f) := by
  unfold Dev.onTtile
  try dsimp only
  repeat' first
    | intro _ | with_reducible exact .refl _ _ | with_reducible assumption | with_reducible apply ChangesOnly.ite
    | with_reducible apply ChangesOnly.foldl | (with_reducible apply ChangesOnly.step Dev.onTherm_foot; decide) | with_reducible exact .pair ‹_› ‹_›
    | split | dsimp only

theorem Dev.onColl_foot {d : Dev} {c : Nat} {f : Collector → Collector} : ChangesOnly [.flint] d (Dev.onColl d c f) := by
  unfold Dev.onColl
  try dsimp only
  repeat' first
    | intro _ | with_reducible exact .refl _ _ | with_reducible assumption | with_reducible apply ChangesOnly.ite
    | with_reducible apply ChangesOnly.foldl | (with_reducible apply ChangesOnly.step Dev.onFlint_foot; decide) | with_reducible exact .pair ‹_› ‹_›
    | split | dsimp only

theorem Dev.onLink_foot {d : Dev} {l : Nat} {f : LinkSt → LinkSt} : ChangesOnly [.lat] d (Dev.onLink d l f) := by
  unfold Dev.onLink
  try dsimp only
  repeat' first
    | intro _ | with_reducible exact .refl _ _ | with_reducible assumption | with_reducible apply ChangesOnly.ite
    | with_reducible apply ChangesOnly.foldl | (with_reducible apply ChangesOnly.step Dev.onLat_foot; decide) | with_reducible exact .pair ‹_› ‹_›
    | split | dsimp only

theorem Dev.onSl_foot {d : Dev} {t : Nat} {f : SlateTile → SlateTile} : ChangesOnly [.slate] d (Dev.onSl d t f) := by
  unfold Dev.onSl
  try dsimp only
  repeat' first
    | intro _ | with_reducible exact .refl _ _ | with_reducible assumption | with_reducible apply ChangesOnly.ite
    | with_reducible apply ChangesOnly.foldl | (with_reducible apply ChangesOnly.step Dev.onSlate_foot; decide) | with_reducible exact .pair ‹_› ‹_›
    | split | dsimp only

theorem Dev.onUrec_foot {d : Dev} {t : Nat} {f : UpdRec → UpdRec} : ChangesOnly [.upd] d (Dev.onUrec d t f) := by
  unfold Dev.onUrec
  try dsimp only
  repeat' first
    | intro _ | with_reducible exact .refl _ _ | with_reducible assumption | with_reducible apply ChangesOnly.ite
    | with_reducible apply ChangesOnly.foldl | (with_reducible apply ChangesOnly.step Dev.onUpd_foot; decide) | with_reducible exact .pair ‹_› ‹_›
    | split | dsimp only

theorem Dev.deliver_foot {d : Dev} {m : FlintMsg} : ChangesOnly [.flint] d (Dev.deliver d m) := by
  unfold Dev.deliver
  try dsimp only
  repeat' first
    | intro _ | with_reducible exact .refl _ _ | with_reducible assumption | with_reducible apply ChangesOnly.ite
    | with_reducible apply ChangesOnly.foldl | (with_reducible apply ChangesOnly.step Dev.onFlint_foot; decide)
    | (with_reducible apply ChangesOnly.step Dev.onColl_foot; decide) | with_reducible exact .pair ‹_› ‹_› | split | dsimp only

theorem Dev.raise_foot {d : Dev} {src kind sev : Nat} {tile : Option Nat} {atag : Option Nat} {ctx : Nat} {detail : List Nat} {headOnly : Nat} {act : Nat} : ChangesOnly [.flint] d (Dev.raise d src kind sev tile atag ctx detail headOnly act) := by
  unfold Dev.raise
  try dsimp only
  repeat' first
    | intro _ | with_reducible exact .refl _ _ | with_reducible assumption | with_reducible apply ChangesOnly.ite
    | with_reducible apply ChangesOnly.foldl | (with_reducible apply ChangesOnly.step Dev.deliver_foot; decide) | with_reducible exact .pair ‹_› ‹_›
    | split | dsimp only

theorem Dev.govTrigger_foot {d : Dev} {cause : Nat} : ChangesOnly [.expo] d (Dev.govTrigger d cause) := by
  unfold Dev.govTrigger
  try dsimp only
  repeat' first
    | intro _ | with_reducible exact .refl _ _ | with_reducible assumption | with_reducible apply ChangesOnly.ite
    | with_reducible apply ChangesOnly.foldl | (with_reducible apply ChangesOnly.step Dev.onExpo_foot; decide) | with_reducible exact .pair ‹_› ‹_›
    | split | dsimp only

theorem Dev.recDueOn_foot {d : Dev} {t typ : Nat} : ChangesOnly [.slate] d (Dev.recDueOn d t typ) := by
  unfold Dev.recDueOn
  try dsimp only
  repeat' first
    | intro _ | with_reducible exact .refl _ _ | with_reducible assumption | with_reducible apply ChangesOnly.ite
    | with_reducible apply ChangesOnly.foldl | (with_reducible apply ChangesOnly.step Dev.onSl_foot; decide) | with_reducible exact .pair ‹_› ‹_›
    | split | dsimp only

theorem Dev.recDue_foot {d : Dev} {typ : Nat} : ChangesOnly [.slate] d (Dev.recDue d typ) := by
  unfold Dev.recDue
  try dsimp only
  repeat' first
    | intro _ | with_reducible exact .refl _ _ | with_reducible assumption | with_reducible apply ChangesOnly.ite
    | with_reducible apply ChangesOnly.foldl | (with_reducible apply ChangesOnly.step Dev.recDueOn_foot; decide) | with_reducible exact .pair ‹_› ‹_›
    | split | dsimp only

/-! ### LatLinks -/

theorem Dev.latDiscard_foot {d : Dev} {n : Nat} : ChangesOnly [.flint, .lat] d (Dev.latDiscard d n) := by
  unfold Dev.latDiscard
  try dsimp only
  repeat' first
    | intro _ | with_reducible exact .refl _ _ | with_reducible assumption | with_reducible apply ChangesOnly.ite
    | with_reducible apply ChangesOnly.foldl | (with_reducible apply ChangesOnly.step Dev.onLat_foot; decide)
    | (with_reducible apply ChangesOnly.step Dev.raise_foot; decide) | with_reducible exact .pair ‹_› ‹_› | split | dsimp only

theorem Dev.pump_foot {d : Dev} {l : Nat} {n : Nat} : ChangesOnly [.lat, .out] d (Dev.pump d l n) := by
  induction n generalizing d with
  | zero => exact .refl _ _
  | succ n ih =>
    unfold Dev.pump
    try dsimp only
    repeat' first
      | intro _ | with_reducible exact .refl _ _ | with_reducible assumption | with_reducible apply ChangesOnly.ite
      | with_reducible apply ChangesOnly.foldl | (with_reducible apply ChangesOnly.step ih; decide)
      | (with_reducible apply ChangesOnly.step Dev.emit_foot; decide) | (with_reducible apply ChangesOnly.step Dev.onLink_foot; decide)
      | with_reducible exact .pair ‹_› ‹_› | split | dsimp only

theorem Dev.sendFrames_foot {d : Dev} {l : Nat} {fs : List LatFrame} : ChangesOnly [.lat, .out] d (Dev.sendFrames d l fs) := by
  unfold Dev.sendFrames
  try dsimp only
  repeat' first
    | intro _ | with_reducible exact .refl _ _ | with_reducible assumption | with_reducible apply ChangesOnly.ite
    | with_reducible apply ChangesOnly.foldl | (with_reducible apply ChangesOnly.step Dev.onLink_foot; decide)
    | (with_reducible apply ChangesOnly.step Dev.pump_foot; decide) | with_reducible exact .pair ‹_› ‹_› | split | dsimp only

theorem Dev.sendLocal_foot {d : Dev} {l svc : Nat} {body : List Nat} : ChangesOnly [.lat, .out] d (Dev.sendLocal d l svc body) := by
  unfold Dev.sendLocal
  try dsimp only
  repeat' first
    | intro _ | with_reducible exact .refl _ _ | with_reducible assumption | with_reducible apply ChangesOnly.ite
    | with_reducible apply ChangesOnly.foldl | (with_reducible apply ChangesOnly.step Dev.sendFrames_foot; decide)
    | with_reducible exact .pair ‹_› ‹_› | split | dsimp only

theorem Dev.sendNode_foot {d : Dev} {dst svc vl : Nat} {body : List Nat} {data : List Byte} : ChangesOnly [.flint, .lat, .out] d (Dev.sendNode d dst svc vl body data) := by
  unfold Dev.sendNode
  try dsimp only
  repeat' first
    | intro _ | with_reducible exact .refl _ _ | with_reducible assumption | with_reducible apply ChangesOnly.ite
    | with_reducible apply ChangesOnly.foldl | (with_reducible apply ChangesOnly.step Dev.emit_foot; decide)
    | (with_reducible apply ChangesOnly.step Dev.latDiscard_foot; decide) | (with_reducible apply ChangesOnly.step Dev.sendFrames_foot; decide)
    | with_reducible exact .pair ‹_› ‹_› | split | dsimp only

theorem Dev.sendMsg_foot {d : Dev} {uid svc vl : Nat} {body : List Nat} {data : List Byte} : ChangesOnly [.flint, .lat, .out] d (Dev.sendMsg d uid svc vl body data) := by
  unfold Dev.sendMsg
  try dsimp only
  repeat' first
    | intro _ | with_reducible exact .refl _ _ | with_reducible assumption | with_reducible apply ChangesOnly.ite
    | with_reducible apply ChangesOnly.foldl | (with_reducible apply ChangesOnly.step Dev.emit_foot; decide)
    | (with_reducible apply ChangesOnly.step Dev.latDiscard_foot; decide) | (with_reducible apply ChangesOnly.step Dev.sendNode_foot; decide)
    | with_reducible exact .pair ‹_› ‹_› | split | dsimp only

theorem Dev.sendBroadcast_foot {d : Dev} {svc vl : Nat} {body : List Nat} : ChangesOnly [.lat, .out] d (Dev.sendBroadcast d svc vl body) := by
  unfold Dev.sendBroadcast
  try dsimp only
  repeat' first
    | intro _ | with_reducible exact .refl _ _ | with_reducible assumption | with_reducible apply ChangesOnly.ite
    | with_reducible apply ChangesOnly.foldl | (with_reducible apply ChangesOnly.step Dev.sendFrames_foot; decide)
    | with_reducible exact .pair ‹_› ‹_› | split | dsimp only

theorem Dev.rxFrames_foot {d : Dev} {l vl n : Nat} : ChangesOnly [.lat] d (Dev.rxFrames d l vl n) := by
  unfold Dev.rxFrames
  try dsimp only
  repeat' first
    | intro _ | with_reducible exact .refl _ _ | with_reducible assumption | with_reducible apply ChangesOnly.ite
    | with_reducible apply ChangesOnly.foldl | (with_reducible apply ChangesOnly.step Dev.onLink_foot; decide) | with_reducible exact .pair ‹_› ‹_›
    | split | dsimp only

theorem Dev.replay_foot {d : Dev} {l : Nat} {f : Nat × Nat × LatFrame → Bool} : ChangesOnly [.flint, .lat, .out] d (Dev.replay d l f) := by
  unfold Dev.replay
  try dsimp only
  repeat' first
    | intro _ | with_reducible exact .refl _ _ | with_reducible assumption | with_reducible apply ChangesOnly.ite
    | with_reducible apply ChangesOnly.foldl | (with_reducible apply ChangesOnly.step Dev.emit_foot; decide)
    | (with_reducible apply ChangesOnly.step Dev.raise_foot; decide) | (with_reducible apply ChangesOnly.step Dev.onLink_foot; decide)
    | with_reducible exact .pair ‹_› ‹_› | split | dsimp only

theorem Dev.transitPath_foot {d : Dev} {l : Nat} {f : LatFrame} {out : Nat} : ChangesOnly [.lat] d (Dev.transitPath d l f out) := by
  unfold Dev.transitPath
  try dsimp only
  repeat' first
    | intro _ | with_reducible exact .refl _ _ | with_reducible assumption | with_reducible apply ChangesOnly.ite
    | with_reducible apply ChangesOnly.foldl | (with_reducible apply ChangesOnly.step Dev.onLat_foot; decide) | with_reducible exact .pair ‹_› ‹_›
    | split | dsimp only

theorem Dev.route_foot {d : Dev} {l : Nat} {f : LatFrame} {uid : Nat} : ChangesOnly [.flint, .lat, .out] d (Dev.route d l f uid) := by
  unfold Dev.route
  try dsimp only
  repeat' first
    | intro _ | with_reducible exact .refl _ _ | with_reducible assumption | with_reducible apply ChangesOnly.ite
    | with_reducible apply ChangesOnly.foldl | (with_reducible apply ChangesOnly.step Dev.onLat_foot; decide)
    | (with_reducible apply ChangesOnly.step Dev.latDiscard_foot; decide) | (with_reducible apply ChangesOnly.step Dev.sendFrames_foot; decide)
    | (with_reducible apply ChangesOnly.step Dev.emit_foot; decide) | (with_reducible apply ChangesOnly.step Dev.transitPath_foot; decide)
    | with_reducible exact .pair ‹_› ‹_› | split | dsimp only

/-! ### Cairn -/

theorem Dev.onBlk_foot {d : Dev} {t n : Nat} {f : Block → Block} : ChangesOnly [.flash] d (Dev.onBlk d t n f) := by
  unfold Dev.onBlk
  try dsimp only
  repeat' first
    | intro _ | with_reducible exact .refl _ _ | with_reducible assumption | with_reducible apply ChangesOnly.ite
    | with_reducible apply ChangesOnly.foldl | (with_reducible apply ChangesOnly.step Dev.onFl_foot; decide) | with_reducible exact .pair ‹_› ‹_›
    | split | dsimp only

theorem Dev.ledgerPage_foot {d : Dev} {t : Nat} : ChangesOnly [.flash] d (Dev.ledgerPage d t).1 := by
  unfold Dev.ledgerPage
  try dsimp only
  repeat' first
    | intro _ | with_reducible exact .refl _ _ | with_reducible assumption | with_reducible apply ChangesOnly.ite
    | with_reducible apply ChangesOnly.foldl | (with_reducible apply ChangesOnly.step Dev.onBlk_foot; decide)
    | (with_reducible apply ChangesOnly.step Dev.onFl_foot; decide) | with_reducible exact .pair ‹_› ‹_› | split | dsimp only

theorem Dev.ledgerAdd_foot {d : Dev} {t page : Nat} {e : LedgerEntry} : ChangesOnly [.flash] d (Dev.ledgerAdd d t page e) := by
  unfold Dev.ledgerAdd
  try dsimp only
  repeat' first
    | intro _ | with_reducible exact .refl _ _ | with_reducible assumption | with_reducible apply ChangesOnly.ite
    | with_reducible apply ChangesOnly.foldl | (with_reducible apply ChangesOnly.step Dev.onFl_foot; decide) | with_reducible exact .pair ‹_› ‹_›
    | split | dsimp only

theorem Dev.cairnPut_foot {d : Dev} {t : Nat} {es : List LedgerEntry} : ChangesOnly [.flash] d (Dev.cairnPut d t es) := by
  unfold Dev.cairnPut
  try dsimp only
  repeat' first
    | intro _ | with_reducible exact .refl _ _ | with_reducible assumption | with_reducible apply ChangesOnly.ite
    | with_reducible apply ChangesOnly.foldl | (with_reducible apply ChangesOnly.step Dev.ledgerPage_foot; decide)
    | (with_reducible apply ChangesOnly.step Dev.ledgerAdd_foot; decide) | with_reducible exact .pair ‹_› ‹_› | split | dsimp only

theorem Dev.cairn_foot {d : Dev} {t : Nat} {es : List LedgerEntry} : ChangesOnly [.expo, .flash] d (Dev.cairn d t es) := by
  unfold Dev.cairn
  try dsimp only
  repeat' first
    | intro _ | with_reducible exact .refl _ _ | with_reducible assumption | with_reducible apply ChangesOnly.ite
    | with_reducible apply ChangesOnly.foldl | (with_reducible apply ChangesOnly.step Dev.onExpo_foot; decide)
    | (with_reducible apply ChangesOnly.step Dev.cairnPut_foot; decide) | (with_reducible apply ChangesOnly.step Dev.onBlk_foot; decide)
    | (with_reducible apply ChangesOnly.step Dev.onFl_foot; decide) | with_reducible exact .pair ‹_› ‹_› | split | dsimp only

theorem Dev.ledger_foot {d : Dev} {t typ : Nat} {a : Nat} {b : Nat} {c : Nat} {test : Bool} : ChangesOnly [.expo, .flash] d (Dev.ledger d t typ a b c test) := by
  unfold Dev.ledger
  try dsimp only
  repeat' first
    | intro _ | with_reducible exact .refl _ _ | with_reducible assumption | with_reducible apply ChangesOnly.ite
    | with_reducible apply ChangesOnly.foldl | (with_reducible apply ChangesOnly.step Dev.cairn_foot; decide) | with_reducible exact .pair ‹_› ‹_›
    | split | dsimp only

theorem Dev.ledgerAll_foot {d : Dev} {ts : List Nat} {typ : Nat} {a : Nat} {b : Nat} {c : Nat} : ChangesOnly [.expo, .flash] d (Dev.ledgerAll d ts typ a b c) := by
  unfold Dev.ledgerAll
  try dsimp only
  repeat' first
    | intro _ | with_reducible exact .refl _ _ | with_reducible assumption | with_reducible apply ChangesOnly.ite
    | with_reducible apply ChangesOnly.foldl | (with_reducible apply ChangesOnly.step Dev.ledger_foot; decide) | with_reducible exact .pair ‹_› ‹_›
    | split | dsimp only

theorem Dev.ckptStart_foot {d : Dev} {t : Nat} : ChangesOnly [.flash] d (Dev.ckptStart d t) := by
  unfold Dev.ckptStart
  try dsimp only
  repeat' first
    | intro _ | with_reducible exact .refl _ _ | with_reducible assumption | with_reducible apply ChangesOnly.ite
    | with_reducible apply ChangesOnly.foldl | (with_reducible apply ChangesOnly.step Dev.onFl_foot; decide) | with_reducible exact .pair ‹_› ‹_›
    | split | dsimp only

/-! ### Governor -/

theorem Dev.dirtyPage_foot {d : Dev} {p : Nat} : ChangesOnly [.expo] d (Dev.dirtyPage d p) := by
  unfold Dev.dirtyPage
  try dsimp only
  repeat' first
    | intro _ | with_reducible exact .refl _ _ | with_reducible assumption | with_reducible apply ChangesOnly.ite
    | with_reducible apply ChangesOnly.foldl | (with_reducible apply ChangesOnly.step Dev.onExpo_foot; decide) | with_reducible exact .pair ‹_› ‹_›
    | split | dsimp only

theorem Dev.summaryClear_foot {d : Dev} : ChangesOnly [.expo] d (Dev.summaryClear d) := by
  unfold Dev.summaryClear
  try dsimp only
  repeat' first
    | intro _ | with_reducible exact .refl _ _ | with_reducible assumption | with_reducible apply ChangesOnly.ite
    | with_reducible apply ChangesOnly.foldl | (with_reducible apply ChangesOnly.step Dev.onExpo_foot; decide) | with_reducible exact .pair ‹_› ‹_›
    | split | dsimp only

theorem Dev.cleanPages_foot {d : Dev} {f : Nat → Bool} : ChangesOnly [.expo] d (Dev.cleanPages d f) := by
  unfold Dev.cleanPages
  try dsimp only
  repeat' first
    | intro _ | with_reducible exact .refl _ _ | with_reducible assumption | with_reducible apply ChangesOnly.ite
    | with_reducible apply ChangesOnly.foldl | (with_reducible apply ChangesOnly.step Dev.onExpo_foot; decide)
    | (with_reducible apply ChangesOnly.step Dev.summaryClear_foot; decide) | with_reducible exact .pair ‹_› ‹_› | split | dsimp only

theorem Dev.lapseEnter_foot {d : Dev} : ChangesOnly [.expo, .flint] d (Dev.lapseEnter d) := by
  unfold Dev.lapseEnter
  try dsimp only
  repeat' first
    | intro _ | with_reducible exact .refl _ _ | with_reducible assumption | with_reducible apply ChangesOnly.ite
    | with_reducible apply ChangesOnly.foldl | (with_reducible apply ChangesOnly.step Dev.onExpo_foot; decide)
    | (with_reducible apply ChangesOnly.step Dev.raise_foot; decide) | with_reducible exact .pair ‹_› ‹_› | split | dsimp only

theorem Dev.lapseTrack_foot {d : Dev} : ChangesOnly [.expo] d (Dev.lapseTrack d) := by
  unfold Dev.lapseTrack
  try dsimp only
  repeat' first
    | intro _ | with_reducible exact .refl _ _ | with_reducible assumption | with_reducible apply ChangesOnly.ite
    | with_reducible apply ChangesOnly.foldl | (with_reducible apply ChangesOnly.step Dev.onExpo_foot; decide) | with_reducible exact .pair ‹_› ‹_›
    | split | dsimp only

theorem Dev.lapseExit_foot {d : Dev} : ChangesOnly [.expo, .flint] d (Dev.lapseExit d) := by
  unfold Dev.lapseExit
  try dsimp only
  repeat' first
    | intro _ | with_reducible exact .refl _ _ | with_reducible assumption | with_reducible apply ChangesOnly.ite
    | with_reducible apply ChangesOnly.foldl | (with_reducible apply ChangesOnly.step Dev.onExpo_foot; decide)
    | (with_reducible apply ChangesOnly.step Dev.raise_foot; decide) | with_reducible exact .pair ‹_› ‹_› | split | dsimp only

theorem Dev.expoPkgUpd_foot {d : Dev} : ChangesOnly [.dw] d (Dev.expoPkgUpd d) := by
  unfold Dev.expoPkgUpd
  try dsimp only
  repeat' first
    | intro _ | with_reducible exact .refl _ _ | with_reducible assumption | with_reducible apply ChangesOnly.ite
    | with_reducible apply ChangesOnly.foldl | (with_reducible apply ChangesOnly.step Dev.dwSet_foot; decide) | with_reducible exact .pair ‹_› ‹_›
    | split | dsimp only

theorem Dev.expoTileUpd_foot {d : Dev} {t : Nat} : ChangesOnly [.dw] d (Dev.expoTileUpd d t) := by
  unfold Dev.expoTileUpd
  try dsimp only
  repeat' first
    | intro _ | with_reducible exact .refl _ _ | with_reducible assumption | with_reducible apply ChangesOnly.ite
    | with_reducible apply ChangesOnly.foldl | (with_reducible apply ChangesOnly.step Dev.dwUpd_foot; decide) | with_reducible exact .pair ‹_› ‹_›
    | split | dsimp only

theorem Dev.expoUpd_foot {d : Dev} : ChangesOnly [.dw] d (Dev.expoUpd d) := by
  unfold Dev.expoUpd
  try dsimp only
  repeat' first
    | intro _ | with_reducible exact .refl _ _ | with_reducible assumption | with_reducible apply ChangesOnly.ite
    | with_reducible apply ChangesOnly.foldl | (with_reducible apply ChangesOnly.step Dev.expoTileUpd_foot; decide)
    | (with_reducible apply ChangesOnly.step Dev.expoPkgUpd_foot; decide) | with_reducible exact .pair ‹_› ‹_› | split | dsimp only

theorem Dev.bayUpd_foot {d : Dev} {b : Nat} : ChangesOnly [.energy, .dw] d (Dev.bayUpd d b) := by
  unfold Dev.bayUpd
  try dsimp only
  repeat' first
    | intro _ | with_reducible exact .refl _ _ | with_reducible assumption | with_reducible apply ChangesOnly.ite
    | with_reducible apply ChangesOnly.foldl | (with_reducible apply ChangesOnly.step Dev.onBay_foot; decide)
    | (with_reducible apply ChangesOnly.step Dev.dwUpd_foot; decide) | with_reducible exact .pair ‹_› ‹_› | split | dsimp only

theorem Dev.bayDo_foot {d : Dev} {b : Nat} {f : PackSt → PackSt} : ChangesOnly [.energy, .dw] d (Dev.bayDo d b f) := by
  unfold Dev.bayDo
  try dsimp only
  repeat' first
    | intro _ | with_reducible exact .refl _ _ | with_reducible assumption | with_reducible apply ChangesOnly.ite
    | with_reducible apply ChangesOnly.foldl | (with_reducible apply ChangesOnly.step Dev.onBay_foot; decide)
    | (with_reducible apply ChangesOnly.step Dev.bayUpd_foot; decide) | with_reducible exact .pair ‹_› ‹_› | split | dsimp only

theorem Dev.faultBack_foot {d : Dev} {b : Nat} : ChangesOnly [.energy, .dw] d (Dev.faultBack d b) := by
  unfold Dev.faultBack
  try dsimp only
  repeat' first
    | intro _ | with_reducible exact .refl _ _ | with_reducible assumption | with_reducible apply ChangesOnly.ite
    | with_reducible apply ChangesOnly.foldl | (with_reducible apply ChangesOnly.step Dev.bayDo_foot; decide) | with_reducible exact .pair ‹_› ‹_›
    | split | dsimp only

theorem Dev.takeCeil_foot {d : Dev} : ChangesOnly [.expo] d (Dev.takeCeil d) := by
  unfold Dev.takeCeil
  try dsimp only
  repeat' first
    | intro _ | with_reducible exact .refl _ _ | with_reducible assumption | with_reducible apply ChangesOnly.ite
    | with_reducible apply ChangesOnly.foldl | (with_reducible apply ChangesOnly.step Dev.onExpo_foot; decide) | with_reducible exact .pair ‹_› ‹_›
    | split | dsimp only

theorem Dev.stateEvent_foot {d : Dev} {changed : Bool} : ChangesOnly [.expo, .flint] d (Dev.stateEvent d changed) := by
  unfold Dev.stateEvent
  try dsimp only
  repeat' first
    | intro _ | with_reducible exact .refl _ _ | with_reducible assumption | with_reducible apply ChangesOnly.ite
    | with_reducible apply ChangesOnly.foldl | (with_reducible apply ChangesOnly.step Dev.onExpo_foot; decide)
    | (with_reducible apply ChangesOnly.step Dev.raise_foot; decide) | with_reducible exact .pair ‹_› ‹_› | split | dsimp only

theorem Dev.abandonRest_foot {d : Dev} : ChangesOnly [.energy, .dw] d (Dev.abandonRest d) := by
  unfold Dev.abandonRest
  try dsimp only
  repeat' first
    | intro _ | with_reducible exact .refl _ _ | with_reducible assumption | with_reducible apply ChangesOnly.ite
    | with_reducible apply ChangesOnly.foldl | (with_reducible apply ChangesOnly.step Dev.onEnergy_foot; decide)
    | (with_reducible apply ChangesOnly.step Dev.bayDo_foot; decide) | with_reducible exact .pair ‹_› ‹_› | split | dsimp only

theorem Dev.restAgain_foot {d : Dev} : ChangesOnly [.energy] d (Dev.restAgain d) := by
  unfold Dev.restAgain
  try dsimp only
  repeat' first
    | intro _ | with_reducible exact .refl _ _ | with_reducible assumption | with_reducible apply ChangesOnly.ite
    | with_reducible apply ChangesOnly.foldl | (with_reducible apply ChangesOnly.step Dev.onEnergy_foot; decide) | with_reducible exact .pair ‹_› ‹_›
    | split | dsimp only

theorem Dev.evalStates_foot {d : Dev} : ChangesOnly [.expo, .energy, .flint, .dw] d (Dev.evalStates d) := by
  unfold Dev.evalStates
  try dsimp only
  repeat' first
    | intro _ | with_reducible exact .refl _ _ | with_reducible assumption | with_reducible apply ChangesOnly.ite
    | with_reducible apply ChangesOnly.foldl | (with_reducible apply ChangesOnly.step Dev.onExpo_foot; decide)
    | (with_reducible apply ChangesOnly.step Dev.abandonRest_foot; decide) | (with_reducible apply ChangesOnly.step Dev.lapseEnter_foot; decide)
    | (with_reducible apply ChangesOnly.step Dev.restAgain_foot; decide) | (with_reducible apply ChangesOnly.step Dev.lapseExit_foot; decide)
    | (with_reducible apply ChangesOnly.step Dev.lapseTrack_foot; decide) | (with_reducible apply ChangesOnly.step Dev.stateEvent_foot; decide)
    | (with_reducible apply ChangesOnly.step Dev.expoUpd_foot; decide) | with_reducible exact .pair ‹_› ‹_› | split | dsimp only

theorem Dev.grantBay_foot {d : Dev} {b : Nat} : ChangesOnly [.expo, .energy, .dw] d (Dev.grantBay d b) := by
  unfold Dev.grantBay
  try dsimp only
  repeat' first
    | intro _ | with_reducible exact .refl _ _ | with_reducible assumption | with_reducible apply ChangesOnly.ite
    | with_reducible apply ChangesOnly.foldl | (with_reducible apply ChangesOnly.step Dev.bayDo_foot; decide)
    | (with_reducible apply ChangesOnly.step Dev.govTrigger_foot; decide) | (with_reducible apply ChangesOnly.step Dev.expoPkgUpd_foot; decide)
    | with_reducible exact .pair ‹_› ‹_› | split | dsimp only

theorem Dev.grantWaiting_foot {d : Dev} : ChangesOnly [.expo, .energy, .dw] d (Dev.grantWaiting d) := by
  unfold Dev.grantWaiting
  try dsimp only
  repeat' first
    | intro _ | with_reducible exact .refl _ _ | with_reducible assumption | with_reducible apply ChangesOnly.ite
    | with_reducible apply ChangesOnly.foldl | (with_reducible apply ChangesOnly.step Dev.grantBay_foot; decide) | with_reducible exact .pair ‹_› ‹_›
    | split | dsimp only

theorem Dev.releaseGov_foot {d : Dev} : ChangesOnly [.expo] d (Dev.releaseGov d) := by
  unfold Dev.releaseGov
  try dsimp only
  repeat' first
    | intro _ | with_reducible exact .refl _ _ | with_reducible assumption | with_reducible apply ChangesOnly.ite
    | with_reducible apply ChangesOnly.foldl | (with_reducible apply ChangesOnly.step Dev.onExpo_foot; decide) | with_reducible exact .pair ‹_› ‹_›
    | split | dsimp only

theorem Dev.recompute_foot {d : Dev} : ChangesOnly [.expo, .energy, .flint, .dw] d (Dev.recompute d) := by
  unfold Dev.recompute
  try dsimp only
  repeat' first
    | intro _ | with_reducible exact .refl _ _ | with_reducible assumption | with_reducible apply ChangesOnly.ite
    | with_reducible apply ChangesOnly.foldl | (with_reducible apply ChangesOnly.step Dev.onExpo_foot; decide)
    | (with_reducible apply ChangesOnly.step Dev.takeCeil_foot; decide) | (with_reducible apply ChangesOnly.step Dev.grantWaiting_foot; decide)
    | (with_reducible apply ChangesOnly.step Dev.evalStates_foot; decide) | (with_reducible apply ChangesOnly.step Dev.releaseGov_foot; decide)
    | with_reducible exact .pair ‹_› ‹_› | split | dsimp only

/-! ### DramErr -/

theorem Dev.chanUpd_foot {d : Dev} {t c : Nat} : ChangesOnly [.dw] d (Dev.chanUpd d t c) := by
  unfold Dev.chanUpd
  try dsimp only
  repeat' first
    | intro _ | with_reducible exact .refl _ _ | with_reducible assumption | with_reducible apply ChangesOnly.ite
    | with_reducible apply ChangesOnly.foldl | (with_reducible apply ChangesOnly.step Dev.dwUpd_foot; decide) | with_reducible exact .pair ‹_› ‹_›
    | split | dsimp only

theorem Dev.chanDo_foot {d : Dev} {t c : Nat} {f : Chan → Chan} : ChangesOnly [.dram, .dw] d (Dev.chanDo d t c f) := by
  unfold Dev.chanDo
  try dsimp only
  repeat' first
    | intro _ | with_reducible exact .refl _ _ | with_reducible assumption | with_reducible apply ChangesOnly.ite
    | with_reducible apply ChangesOnly.foldl | (with_reducible apply ChangesOnly.step Dev.onChan_foot; decide)
    | (with_reducible apply ChangesOnly.step Dev.chanUpd_foot; decide) | with_reducible exact .pair ‹_› ‹_› | split | dsimp only

theorem Dev.tileChans_foot {d : Dev} {t : Nat} {f : Chan → Chan} : ChangesOnly [.dram, .dw] d (Dev.tileChans d t f) := by
  unfold Dev.tileChans
  try dsimp only
  repeat' first
    | intro _ | with_reducible exact .refl _ _ | with_reducible assumption | with_reducible apply ChangesOnly.ite
    | with_reducible apply ChangesOnly.foldl | (with_reducible apply ChangesOnly.step Dev.chanDo_foot; decide) | with_reducible exact .pair ‹_› ‹_›
    | split | dsimp only

theorem Dev.setCap_foot {d : Dev} {t c cap : Nat} : ChangesOnly [.dram, .dw] d (Dev.setCap d t c cap) := by
  unfold Dev.setCap
  try dsimp only
  repeat' first
    | intro _ | with_reducible exact .refl _ _ | with_reducible assumption | with_reducible apply ChangesOnly.ite
    | with_reducible apply ChangesOnly.foldl | (with_reducible apply ChangesOnly.step Dev.chanDo_foot; decide) | with_reducible exact .pair ‹_› ‹_›
    | split | dsimp only

theorem Dev.chanUse_foot {d : Dev} {t p n : Nat} {hostWrite supv : Bool} : ChangesOnly [.dram, .dw] d (Dev.chanUse d t p n hostWrite supv) := by
  unfold Dev.chanUse
  try dsimp only
  repeat' first
    | intro _ | with_reducible exact .refl _ _ | with_reducible assumption | with_reducible apply ChangesOnly.ite
    | with_reducible apply ChangesOnly.foldl | (with_reducible apply ChangesOnly.step Dev.onChan_foot; decide)
    | (with_reducible apply ChangesOnly.step Dev.chanUpd_foot; decide) | with_reducible exact .pair ‹_› ‹_› | split | dsimp only

theorem Dev.chanTouch_foot {d : Dev} {l : Nat} {write hostWrite supv : Bool} : ChangesOnly [.dram, .dw] d (Dev.chanTouch d l write hostWrite supv) := by
  unfold Dev.chanTouch
  try dsimp only
  repeat' first
    | intro _ | with_reducible exact .refl _ _ | with_reducible assumption | with_reducible apply ChangesOnly.ite
    | with_reducible apply ChangesOnly.foldl | (with_reducible apply ChangesOnly.step Dev.chanUse_foot; decide) | with_reducible exact .pair ‹_› ‹_›
    | split | dsimp only

theorem Dev.pageTouch_foot {d : Dev} {p : Nat} {write : Bool} : ChangesOnly [.dram, .dw] d (Dev.pageTouch d p write) := by
  unfold Dev.pageTouch
  try dsimp only
  repeat' first
    | intro _ | with_reducible exact .refl _ _ | with_reducible assumption | with_reducible apply ChangesOnly.ite
    | with_reducible apply ChangesOnly.foldl | (with_reducible apply ChangesOnly.step Dev.chanUse_foot; decide) | with_reducible exact .pair ‹_› ‹_›
    | split | dsimp only

theorem Dev.steerPut_foot {d : Dev} {t e : Nat} {f : Steer → Steer} : ChangesOnly [.dram, .slate] d (Dev.steerPut d t e f) := by
  unfold Dev.steerPut
  try dsimp only
  repeat' first
    | intro _ | with_reducible exact .refl _ _ | with_reducible assumption | with_reducible apply ChangesOnly.ite
    | with_reducible apply ChangesOnly.foldl | (with_reducible apply ChangesOnly.step Dev.onDram_foot; decide)
    | (with_reducible apply ChangesOnly.step Dev.recDueOn_foot; decide) | with_reducible exact .pair ‹_› ‹_› | split | dsimp only

theorem Dev.steerUpd_foot {d : Dev} {t e : Nat} : ChangesOnly [.dw] d (Dev.steerUpd d t e) := by
  unfold Dev.steerUpd
  try dsimp only
  repeat' first
    | intro _ | with_reducible exact .refl _ _ | with_reducible assumption | with_reducible apply ChangesOnly.ite
    | with_reducible apply ChangesOnly.foldl | (with_reducible apply ChangesOnly.step Dev.dwSet_foot; decide) | with_reducible exact .pair ‹_› ‹_›
    | split | dsimp only

theorem Dev.steerNow_foot {d : Dev} {t e : Nat} {f : Steer → Steer} : ChangesOnly [.dram, .dw] d (Dev.steerNow d t e f) := by
  unfold Dev.steerNow
  try dsimp only
  repeat' first
    | intro _ | with_reducible exact .refl _ _ | with_reducible assumption | with_reducible apply ChangesOnly.ite
    | with_reducible apply ChangesOnly.foldl | (with_reducible apply ChangesOnly.step Dev.onDram_foot; decide)
    | (with_reducible apply ChangesOnly.step Dev.onSteer_foot; decide) | (with_reducible apply ChangesOnly.step Dev.steerUpd_foot; decide)
    | with_reducible exact .pair ‹_› ‹_› | split | dsimp only

theorem Dev.migrateTo_foot {d : Dev} {t e sp reason : Nat} : ChangesOnly [.dram, .slate] d (Dev.migrateTo d t e sp reason) := by
  unfold Dev.migrateTo
  try dsimp only
  repeat' first
    | intro _ | with_reducible exact .refl _ _ | with_reducible assumption | with_reducible apply ChangesOnly.ite
    | with_reducible apply ChangesOnly.foldl | (with_reducible apply ChangesOnly.step Dev.steerPut_foot; decide) | with_reducible exact .pair ‹_› ‹_›
    | split | dsimp only

theorem Dev.retire_foot {d : Dev} {t e reason sc : Nat} : ChangesOnly [.dram, .flint, .slate] d (Dev.retire d t e reason sc) := by
  unfold Dev.retire
  try dsimp only
  repeat' first
    | intro _ | with_reducible exact .refl _ _ | with_reducible assumption | with_reducible apply ChangesOnly.ite
    | with_reducible apply ChangesOnly.foldl | (with_reducible apply ChangesOnly.step Dev.onRank_foot; decide)
    | (with_reducible apply ChangesOnly.step Dev.raise_foot; decide) | (with_reducible apply ChangesOnly.step Dev.migrateTo_foot; decide)
    | (with_reducible apply ChangesOnly.step Dev.steerPut_foot; decide) | with_reducible exact .pair ‹_› ‹_› | split | dsimp only

theorem Dev.rowsAdd_foot {d : Dev} {t e : Nat} {codes : List (BitVec 64)} : ChangesOnly [.dram, .dw] d (Dev.rowsAdd d t e codes) := by
  unfold Dev.rowsAdd
  try dsimp only
  repeat' first
    | intro _ | with_reducible exact .refl _ _ | with_reducible assumption | with_reducible apply ChangesOnly.ite
    | with_reducible apply ChangesOnly.foldl | (with_reducible apply ChangesOnly.step Dev.onRank_foot; decide)
    | (with_reducible apply ChangesOnly.step Dev.steerNow_foot; decide) | with_reducible exact .pair ‹_› ‹_› | split | dsimp only

theorem Dev.correctedEvent_foot {d : Dev} {l : Nat} {x : LineLoc} {p j : Nat} : ChangesOnly [.dram, .flint, .slate, .dw] d (Dev.correctedEvent d l x p j) := by
  unfold Dev.correctedEvent
  try dsimp only
  repeat' first
    | intro _ | with_reducible exact .refl _ _ | with_reducible assumption | with_reducible apply ChangesOnly.ite
    | with_reducible apply ChangesOnly.foldl | (with_reducible apply ChangesOnly.step Dev.raise_foot; decide)
    | (with_reducible apply ChangesOnly.step Dev.onChan_foot; decide) | (with_reducible apply ChangesOnly.step Dev.onRank_foot; decide)
    | (with_reducible apply ChangesOnly.step Dev.rowsAdd_foot; decide) | (with_reducible apply ChangesOnly.step Dev.steerPut_foot; decide)
    | (with_reducible apply ChangesOnly.step Dev.retire_foot; decide) | with_reducible exact .pair ‹_› ‹_› | split | dsimp only

theorem Dev.ueEvent_foot {d : Dev} {x : LineLoc} {p devs : Nat} : ChangesOnly [.dram, .flint, .slate, .dw] d (Dev.ueEvent d x p devs) := by
  unfold Dev.ueEvent
  try dsimp only
  repeat' first
    | intro _ | with_reducible exact .refl _ _ | with_reducible assumption | with_reducible apply ChangesOnly.ite
    | with_reducible apply ChangesOnly.foldl | (with_reducible apply ChangesOnly.step Dev.onChan_foot; decide)
    | (with_reducible apply ChangesOnly.step Dev.rowsAdd_foot; decide) | (with_reducible apply ChangesOnly.step Dev.retire_foot; decide)
    | with_reducible exact .pair ‹_› ‹_› | split | dsimp only

theorem Dev.caError_foot {d : Dev} {t c : Nat} : ChangesOnly [.dram, .flint] d (Dev.caError d t c) := by
  unfold Dev.caError
  try dsimp only
  repeat' first
    | intro _ | with_reducible exact .refl _ _ | with_reducible assumption | with_reducible apply ChangesOnly.ite
    | with_reducible apply ChangesOnly.foldl | (with_reducible apply ChangesOnly.step Dev.onChan_foot; decide)
    | (with_reducible apply ChangesOnly.step Dev.raise_foot; decide) | with_reducible exact .pair ‹_› ‹_› | split | dsimp only

theorem Dev.poisonEntry_foot {d : Dev} {dpa len cause : Nat} : ChangesOnly [.heads] d (Dev.poisonEntry d dpa len cause) := by
  unfold Dev.poisonEntry
  try dsimp only
  repeat' first
    | intro _ | with_reducible exact .refl _ _ | with_reducible assumption | with_reducible apply ChangesOnly.ite
    | with_reducible apply ChangesOnly.foldl | (with_reducible apply ChangesOnly.step Dev.onHead_foot; decide) | with_reducible exact .pair ‹_› ‹_›
    | split | dsimp only

theorem Dev.storePoison_foot {d : Dev} {l : Nat} : ChangesOnly [.mem, .expo] d (Dev.storePoison d l) := by
  unfold Dev.storePoison
  try dsimp only
  repeat' first
    | intro _ | with_reducible exact .refl _ _ | with_reducible assumption | with_reducible apply ChangesOnly.ite
    | with_reducible apply ChangesOnly.foldl | (with_reducible apply ChangesOnly.step Dev.onExpo_foot; decide)
    | (with_reducible apply ChangesOnly.step Dev.onMem_foot; decide) | with_reducible exact .pair ‹_› ‹_› | split | dsimp only

theorem Dev.linePoison_foot {d : Dev} {l : Nat} : ChangesOnly [.mem, .expo, .flint, .heads] d (Dev.linePoison d l) := by
  unfold Dev.linePoison
  try dsimp only
  repeat' first
    | intro _ | with_reducible exact .refl _ _ | with_reducible assumption | with_reducible apply ChangesOnly.ite
    | with_reducible apply ChangesOnly.foldl | (with_reducible apply ChangesOnly.step Dev.storePoison_foot; decide)
    | (with_reducible apply ChangesOnly.step Dev.poisonEntry_foot; decide) | (with_reducible apply ChangesOnly.step Dev.raise_foot; decide)
    | with_reducible exact .pair ‹_› ‹_› | split | dsimp only

theorem Dev.clearPoison_foot {d : Dev} {l : Nat} : ChangesOnly [.expo, .heads] d (Dev.clearPoison d l) := by
  unfold Dev.clearPoison
  try dsimp only
  repeat' first
    | intro _ | with_reducible exact .refl _ _ | with_reducible assumption | with_reducible apply ChangesOnly.ite
    | with_reducible apply ChangesOnly.foldl | (with_reducible apply ChangesOnly.step Dev.onExpo_foot; decide)
    | (with_reducible apply ChangesOnly.step Dev.onHead_foot; decide) | with_reducible exact .pair ‹_› ‹_› | split | dsimp only

theorem Dev.pagePoison_foot {d : Dev} {p cause : Nat} : ChangesOnly [.expo, .heads] d (Dev.pagePoison d p cause) := by
  unfold Dev.pagePoison
  try dsimp only
  repeat' first
    | intro _ | with_reducible exact .refl _ _ | with_reducible assumption | with_reducible apply ChangesOnly.ite
    | with_reducible apply ChangesOnly.foldl | (with_reducible apply ChangesOnly.step Dev.onExpo_foot; decide)
    | (with_reducible apply ChangesOnly.step Dev.poisonEntry_foot; decide) | with_reducible exact .pair ‹_› ‹_› | split | dsimp only

theorem Dev.pageClearPoison_foot {d : Dev} {p : Nat} : ChangesOnly [.expo, .heads] d (Dev.pageClearPoison d p) := by
  unfold Dev.pageClearPoison
  try dsimp only
  repeat' first
    | intro _ | with_reducible exact .refl _ _ | with_reducible assumption | with_reducible apply ChangesOnly.ite
    | with_reducible apply ChangesOnly.foldl | (with_reducible apply ChangesOnly.step Dev.onExpo_foot; decide)
    | (with_reducible apply ChangesOnly.step Dev.onHead_foot; decide) | with_reducible exact .pair ‹_› ‹_› | split | dsimp only

theorem Dev.loadPage_foot {d : Dev} {p : Nat} {img : Mem} : ChangesOnly [.mem] d (Dev.loadPage d p img) := by
  unfold Dev.loadPage
  try dsimp only
  repeat' first
    | intro _ | with_reducible exact .refl _ _ | with_reducible assumption | with_reducible apply ChangesOnly.ite
    | with_reducible apply ChangesOnly.foldl | (with_reducible apply ChangesOnly.step Dev.onMem_foot; decide) | with_reducible exact .pair ‹_› ‹_›
    | split | dsimp only

theorem Dev.loadLine_foot {d : Dev} {l : Nat} {img : Mem} : ChangesOnly [.mem] d (Dev.loadLine d l img) := by
  unfold Dev.loadLine
  try dsimp only
  repeat' first
    | intro _ | with_reducible exact .refl _ _ | with_reducible assumption | with_reducible apply ChangesOnly.ite
    | with_reducible apply ChangesOnly.foldl | (with_reducible apply ChangesOnly.step Dev.onMem_foot; decide) | with_reducible exact .pair ‹_› ‹_›
    | split | dsimp only

theorem Dev.markRange_foot {d : Dev} {a n : Nat} : ChangesOnly [.restore] d (Dev.markRange d a n) := by
  unfold Dev.markRange
  try dsimp only
  repeat' first
    | intro _ | with_reducible exact .refl _ _ | with_reducible assumption | with_reducible apply ChangesOnly.ite
    | with_reducible apply ChangesOnly.foldl | (with_reducible apply ChangesOnly.step Dev.onRestore_foot; decide) | with_reducible exact .pair ‹_› ‹_›
    | split | dsimp only

theorem Dev.markRestored_foot {d : Dev} {p : Nat} : ChangesOnly [.restore] d (Dev.markRestored d p) := by
  unfold Dev.markRestored
  try dsimp only
  repeat' first
    | intro _ | with_reducible exact .refl _ _ | with_reducible assumption | with_reducible apply ChangesOnly.ite
    | with_reducible apply ChangesOnly.foldl | (with_reducible apply ChangesOnly.step Dev.markRange_foot; decide) | with_reducible exact .pair ‹_› ‹_›
    | split | dsimp only

theorem Dev.lineMended_foot {d : Dev} {l : Nat} : ChangesOnly [.flint] d (Dev.lineMended d l) := by
  unfold Dev.lineMended
  try dsimp only
  repeat' first
    | intro _ | with_reducible exact .refl _ _ | with_reducible assumption | with_reducible apply ChangesOnly.ite
    | with_reducible apply ChangesOnly.foldl | (with_reducible apply ChangesOnly.step Dev.raise_foot; decide) | with_reducible exact .pair ‹_› ‹_›
    | split | dsimp only

theorem Dev.repairStart_foot {d : Dev} {l : Nat} : ChangesOnly [.expo, .dram] d (Dev.repairStart d l) := by
  unfold Dev.repairStart
  try dsimp only
  repeat' first
    | intro _ | with_reducible exact .refl _ _ | with_reducible assumption | with_reducible apply ChangesOnly.ite
    | with_reducible apply ChangesOnly.foldl | (with_reducible apply ChangesOnly.step Dev.onExpo_foot; decide)
    | (with_reducible apply ChangesOnly.step Dev.onDram_foot; decide) | with_reducible exact .pair ‹_› ‹_› | split | dsimp only

theorem Dev.lineUe_foot {d : Dev} {l devs : Nat} : ChangesOnly [.mem, .expo, .dram, .flint, .heads, .slate, .dw] d (Dev.lineUe d l devs).1 := by
  unfold Dev.lineUe
  try dsimp only
  repeat' first
    | intro _ | with_reducible exact .refl _ _ | with_reducible assumption | with_reducible apply ChangesOnly.ite
    | with_reducible apply ChangesOnly.foldl | (with_reducible apply ChangesOnly.step Dev.onMem_foot; decide)
    | (with_reducible apply ChangesOnly.step Dev.ueEvent_foot; decide) | (with_reducible apply ChangesOnly.step Dev.linePoison_foot; decide)
    | (with_reducible apply ChangesOnly.step Dev.loadLine_foot; decide) | (with_reducible apply ChangesOnly.step Dev.lineMended_foot; decide)
    | (with_reducible apply ChangesOnly.step Dev.repairStart_foot; decide) | with_reducible exact .pair ‹_› ‹_› | split | dsimp only

theorem Dev.readLine_foot {d : Dev} {l : Nat} {errs : List (Nat × Nat)} : ChangesOnly [.mem, .expo, .dram, .flint, .heads, .slate, .dw] d (Dev.readLine d l errs).1 := by
  unfold Dev.readLine
  try dsimp only
  repeat' first
    | intro _ | with_reducible exact .refl _ _ | with_reducible assumption | with_reducible apply ChangesOnly.ite
    | with_reducible apply ChangesOnly.foldl | (with_reducible apply ChangesOnly.step Dev.correctedEvent_foot; decide)
    | (with_reducible apply ChangesOnly.step Dev.lineUe_foot; decide) | with_reducible exact .pair ‹_› ‹_› | split | dsimp only

theorem Dev.pageUe_foot {d : Dev} {p : Nat} {ue : List (Nat × Nat)} : ChangesOnly [.mem, .expo, .dram, .flint, .heads, .slate, .dw] d (Dev.pageUe d p ue) := by
  unfold Dev.pageUe
  try dsimp only
  repeat' first
    | intro _ | with_reducible exact .refl _ _ | with_reducible assumption | with_reducible apply ChangesOnly.ite
    | with_reducible apply ChangesOnly.foldl | (with_reducible apply ChangesOnly.step Dev.lineUe_foot; decide) | with_reducible exact .pair ‹_› ‹_›
    | split | dsimp only

/-! ### Memory -/

theorem Dev.countOwn_foot {d : Dev} {h p : Nat} : ChangesOnly [.flint] d (Dev.countOwn d h p) := by
  unfold Dev.countOwn
  try dsimp only
  repeat' first
    | intro _ | with_reducible exact .refl _ _ | with_reducible assumption | with_reducible apply ChangesOnly.ite
    | with_reducible apply ChangesOnly.foldl | (with_reducible apply ChangesOnly.step Dev.raise_foot; decide) | with_reducible exact .pair ‹_› ‹_›
    | split | dsimp only

theorem Dev.refuseQuiet_foot {d : Dev} {r : HeldReq} : ChangesOnly [.out] d (Dev.refuseQuiet d r) := by
  unfold Dev.refuseQuiet
  try dsimp only
  repeat' first
    | intro _ | with_reducible exact .refl _ _ | with_reducible assumption | with_reducible apply ChangesOnly.ite
    | with_reducible apply ChangesOnly.foldl | (with_reducible apply ChangesOnly.step Dev.emit_foot; decide) | with_reducible exact .pair ‹_› ‹_›
    | split | dsimp only

theorem Dev.refuseErr_foot {d : Dev} {r : HeldReq} : ChangesOnly [.out] d (Dev.refuseErr d r) := by
  unfold Dev.refuseErr
  try dsimp only
  repeat' first
    | intro _ | with_reducible exact .refl _ _ | with_reducible assumption | with_reducible apply ChangesOnly.ite
    | with_reducible apply ChangesOnly.foldl | (with_reducible apply ChangesOnly.step Dev.emit_foot; decide) | with_reducible exact .pair ‹_› ‹_›
    | split | dsimp only

theorem Dev.requestArm_foot {d : Dev} {g : Nat} : ChangesOnly [.expo] d (Dev.requestArm d g) := by
  unfold Dev.requestArm
  try dsimp only
  repeat' first
    | intro _ | with_reducible exact .refl _ _ | with_reducible assumption | with_reducible apply ChangesOnly.ite
    | with_reducible apply ChangesOnly.foldl | (with_reducible apply ChangesOnly.step Dev.onExpo_foot; decide) | with_reducible exact .pair ‹_› ‹_›
    | split | dsimp only

theorem Dev.armFullCheck_foot {d : Dev} {t : Nat} : ChangesOnly [.expo, .flint] d (Dev.armFullCheck d t) := by
  unfold Dev.armFullCheck
  try dsimp only
  repeat' first
    | intro _ | with_reducible exact .refl _ _ | with_reducible assumption | with_reducible apply ChangesOnly.ite
    | with_reducible apply ChangesOnly.foldl | (with_reducible apply ChangesOnly.step Dev.onExpo_foot; decide)
    | (with_reducible apply ChangesOnly.step Dev.raise_foot; decide) | with_reducible exact .pair ‹_› ‹_› | split | dsimp only

theorem Dev.replicaMark_foot {d : Dev} {p : Nat} : ChangesOnly [.lat] d (Dev.replicaMark d p) := by
  unfold Dev.replicaMark
  try dsimp only
  repeat' first
    | intro _ | with_reducible exact .refl _ _ | with_reducible assumption | with_reducible apply ChangesOnly.ite
    | with_reducible apply ChangesOnly.foldl | (with_reducible apply ChangesOnly.step Dev.onLat_foot; decide) | with_reducible exact .pair ‹_› ‹_›
    | split | dsimp only

theorem Dev.otherWrite_foot {d : Dev} {p : Nat} : ChangesOnly [.lat] d (Dev.otherWrite d p) := by
  unfold Dev.otherWrite
  try dsimp only
  repeat' first
    | intro _ | with_reducible exact .refl _ _ | with_reducible assumption | with_reducible apply ChangesOnly.ite
    | with_reducible apply ChangesOnly.foldl | (with_reducible apply ChangesOnly.step Dev.onLat_foot; decide) | with_reducible exact .pair ‹_› ‹_›
    | split | dsimp only

theorem Dev.doWrite_foot {d : Dev} {l : Nat} {data : BitVec 512} {mask : BitVec 64} : ChangesOnly [.mem, .expo, .lat, .heads] d (Dev.doWrite d l data mask) := by
  unfold Dev.doWrite
  try dsimp only
  repeat' first
    | intro _ | with_reducible exact .refl _ _ | with_reducible assumption | with_reducible apply ChangesOnly.ite
    | with_reducible apply ChangesOnly.foldl | (with_reducible apply ChangesOnly.step Dev.onMem_foot; decide)
    | (with_reducible apply ChangesOnly.step Dev.clearPoison_foot; decide) | (with_reducible apply ChangesOnly.step Dev.dirtyPage_foot; decide)
    | (with_reducible apply ChangesOnly.step Dev.replicaMark_foot; decide) | with_reducible exact .pair ‹_› ‹_› | split | dsimp only

theorem Dev.finishWrite_foot {d : Dev} {r : HeldReq} {wasClean : Bool} : ChangesOnly [.expo, .out] d (Dev.finishWrite d r wasClean) := by
  unfold Dev.finishWrite
  try dsimp only
  repeat' first
    | intro _ | with_reducible exact .refl _ _ | with_reducible assumption | with_reducible apply ChangesOnly.ite
    | with_reducible apply ChangesOnly.foldl | (with_reducible apply ChangesOnly.step Dev.onExpo_foot; decide)
    | (with_reducible apply ChangesOnly.step Dev.emit_foot; decide) | with_reducible exact .pair ‹_› ‹_› | split | dsimp only

theorem Dev.meterWrite_foot {d : Dev} {l : Nat} : ChangesOnly [.ctxs] d (Dev.meterWrite d l) := by
  unfold Dev.meterWrite
  try dsimp only
  repeat' first
    | intro _ | with_reducible exact .refl _ _ | with_reducible assumption | with_reducible apply ChangesOnly.ite
    | with_reducible apply ChangesOnly.foldl | (with_reducible apply ChangesOnly.step Dev.onCtx_foot; decide) | with_reducible exact .pair ‹_› ‹_›
    | split | dsimp only

theorem Dev.ackPage_foot {d : Dev} {session mseq line : Nat} : ChangesOnly [.flint, .lat, .out] d (Dev.ackPage d session mseq line) := by
  unfold Dev.ackPage
  try dsimp only
  repeat' first
    | intro _ | with_reducible exact .refl _ _ | with_reducible assumption | with_reducible apply ChangesOnly.ite
    | with_reducible apply ChangesOnly.foldl | (with_reducible apply ChangesOnly.step Dev.sendMsg_foot; decide) | with_reducible exact .pair ‹_› ‹_›
    | split | dsimp only

theorem Dev.replicaDone_foot {d : Dev} {r : HeldReq} : ChangesOnly [.expo, .flint, .lat, .out] d (Dev.replicaDone d r) := by
  unfold Dev.replicaDone
  try dsimp only
  repeat' first
    | intro _ | with_reducible exact .refl _ _ | with_reducible assumption | with_reducible apply ChangesOnly.ite
    | with_reducible apply ChangesOnly.foldl | (with_reducible apply ChangesOnly.step Dev.onExpo_foot; decide)
    | (with_reducible apply ChangesOnly.step Dev.ackPage_foot; decide) | with_reducible exact .pair ‹_› ‹_› | split | dsimp only

theorem Dev.pacedDone_foot {d : Dev} {p : Paced} : ChangesOnly [.flint, .lat, .out] d (Dev.pacedDone d p) := by
  unfold Dev.pacedDone
  try dsimp only
  repeat' first
    | intro _ | with_reducible exact .refl _ _ | with_reducible assumption | with_reducible apply ChangesOnly.ite
    | with_reducible apply ChangesOnly.foldl | (with_reducible apply ChangesOnly.step Dev.ackPage_foot; decide)
    | (with_reducible apply ChangesOnly.step Dev.emit_foot; decide) | with_reducible exact .pair ‹_› ‹_› | split | dsimp only

theorem Dev.startHeld_foot {d : Dev} {r : HeldReq} : ChangesOnly [.expo, .restore, .flint] d (Dev.startHeld d r) := by
  unfold Dev.startHeld
  try dsimp only
  repeat' first
    | intro _ | with_reducible exact .refl _ _ | with_reducible assumption | with_reducible apply ChangesOnly.ite
    | with_reducible apply ChangesOnly.foldl | (with_reducible apply ChangesOnly.step Dev.onRestore_foot; decide)
    | (with_reducible apply ChangesOnly.step Dev.requestArm_foot; decide) | (with_reducible apply ChangesOnly.step Dev.armFullCheck_foot; decide)
    | with_reducible exact .pair ‹_› ‹_› | split | dsimp only

theorem Dev.fire_foot {d : Dev} {h v : Nat} : ChangesOnly [.heads, .out] d (Dev.fire d h v) := by
  unfold Dev.fire
  try dsimp only
  repeat' first
    | intro _ | with_reducible exact .refl _ _ | with_reducible assumption | with_reducible apply ChangesOnly.ite
    | with_reducible apply ChangesOnly.foldl | (with_reducible apply ChangesOnly.step Dev.onHead_foot; decide)
    | (with_reducible apply ChangesOnly.step Dev.emit_foot; decide) | with_reducible exact .pair ‹_› ‹_› | split | dsimp only

theorem Dev.fireRing_foot {d : Dev} {c k : Nat} : ChangesOnly [.ctxs, .heads, .out] d (Dev.fireRing d c k) := by
  unfold Dev.fireRing
  try dsimp only
  repeat' first
    | intro _ | with_reducible exact .refl _ _ | with_reducible assumption | with_reducible apply ChangesOnly.ite
    | with_reducible apply ChangesOnly.foldl | (with_reducible apply ChangesOnly.step Dev.onRing_foot; decide)
    | (with_reducible apply ChangesOnly.step Dev.fire_foot; decide) | with_reducible exact .pair ‹_› ‹_› | split | dsimp only

theorem Dev.signal_foot {d : Dev} {c k : Nat} : ChangesOnly [.ctxs, .heads, .out] d (Dev.signal d c k) := by
  unfold Dev.signal
  try dsimp only
  repeat' first
    | intro _ | with_reducible exact .refl _ _ | with_reducible assumption | with_reducible apply ChangesOnly.ite
    | with_reducible apply ChangesOnly.foldl | (with_reducible apply ChangesOnly.step Dev.onRing_foot; decide)
    | (with_reducible apply ChangesOnly.step Dev.fireRing_foot; decide) | with_reducible exact .pair ‹_› ‹_› | split | dsimp only

theorem Dev.posted_foot {d : Dev} {r : HeldReq} : ChangesOnly [.ctxs, .heads, .out] d (Dev.posted d r) := by
  unfold Dev.posted
  try dsimp only
  repeat' first
    | intro _ | with_reducible exact .refl _ _ | with_reducible assumption | with_reducible apply ChangesOnly.ite
    | with_reducible apply ChangesOnly.foldl | (with_reducible apply ChangesOnly.step Dev.emit_foot; decide)
    | (with_reducible apply ChangesOnly.step Dev.signal_foot; decide) | with_reducible exact .pair ‹_› ‹_› | split | dsimp only

theorem Dev.perform_foot {d : Dev} {r : HeldReq} : ChangesOnly [.mem, .expo, .restore, .ctxs, .dram, .flint, .lat, .heads, .dw, .out] d (Dev.perform d r) := by
  unfold Dev.perform
  try dsimp only
  repeat' first
    | intro _ | with_reducible exact .refl _ _ | with_reducible assumption | with_reducible apply ChangesOnly.ite
    | with_reducible apply ChangesOnly.foldl | (with_reducible apply ChangesOnly.step Dev.onExpo_foot; decide)
    | (with_reducible apply ChangesOnly.step Dev.refuseQuiet_foot; decide) | (with_reducible apply ChangesOnly.step Dev.startHeld_foot; decide)
    | (with_reducible apply ChangesOnly.step Dev.chanTouch_foot; decide) | (with_reducible apply ChangesOnly.step Dev.otherWrite_foot; decide)
    | (with_reducible apply ChangesOnly.step Dev.storePoison_foot; decide) | (with_reducible apply ChangesOnly.step Dev.poisonEntry_foot; decide)
    | (with_reducible apply ChangesOnly.step Dev.dirtyPage_foot; decide) | (with_reducible apply ChangesOnly.step Dev.replicaMark_foot; decide)
    | (with_reducible apply ChangesOnly.step Dev.doWrite_foot; decide) | (with_reducible apply ChangesOnly.step Dev.posted_foot; decide)
    | (with_reducible apply ChangesOnly.step Dev.meterWrite_foot; decide) | (with_reducible apply ChangesOnly.step Dev.replicaDone_foot; decide)
    | (with_reducible apply ChangesOnly.step Dev.finishWrite_foot; decide) | (with_reducible apply ChangesOnly.step Dev.emit_foot; decide)
    | with_reducible exact .pair ‹_› ‹_› | split | dsimp only

theorem Dev.serve_foot {d : Dev} : ChangesOnly [.mem, .expo, .restore, .ctxs, .dram, .flint, .lat, .heads, .dw, .out] d (Dev.serve d) := by
  unfold Dev.serve
  try dsimp only
  repeat' first
    | intro _ | with_reducible exact .refl _ _ | with_reducible assumption | with_reducible apply ChangesOnly.ite
    | with_reducible apply ChangesOnly.foldl | (with_reducible apply ChangesOnly.step Dev.onExpo_foot; decide)
    | (with_reducible apply ChangesOnly.step Dev.perform_foot; decide) | with_reducible exact .pair ‹_› ‹_› | split | dsimp only

theorem Dev.chanServe_foot {d : Dev} {t : Nat} : ChangesOnly [.mem, .expo, .restore, .ctxs, .dram, .flint, .lat, .heads, .dw, .out] d (Dev.chanServe d t) := by
  unfold Dev.chanServe
  try dsimp only
  repeat' first
    | intro _ | with_reducible exact .refl _ _ | with_reducible assumption | with_reducible apply ChangesOnly.ite
    | with_reducible apply ChangesOnly.foldl | (with_reducible apply ChangesOnly.step Dev.onExpo_foot; decide)
    | (with_reducible apply ChangesOnly.step Dev.serve_foot; decide) | with_reducible exact .pair ‹_› ‹_› | split | dsimp only

theorem Dev.admitReq_foot {d : Dev} {r : HeldReq} : ChangesOnly [.mem, .expo, .restore, .ctxs, .dram, .flint, .lat, .heads, .dw, .out] d (Dev.admitReq d r) := by
  unfold Dev.admitReq
  try dsimp only
  repeat' first
    | intro _ | with_reducible exact .refl _ _ | with_reducible assumption | with_reducible apply ChangesOnly.ite
    | with_reducible apply ChangesOnly.foldl | (with_reducible apply ChangesOnly.step Dev.onExpo_foot; decide)
    | (with_reducible apply ChangesOnly.step Dev.perform_foot; decide) | (with_reducible apply ChangesOnly.step Dev.startHeld_foot; decide)
    | with_reducible exact .pair ‹_› ‹_› | split | dsimp only

theorem Dev.request_foot {d : Dev} {h hpa : Nat} {write : Bool} {data : BitVec 512} {mask : BitVec 64} {errs : List (Nat × Nat)} : ChangesOnly [.mem, .expo, .restore, .ctxs, .dram, .flint, .lat, .heads, .slate, .dw, .out] d (Dev.request d h hpa write data mask errs) := by
  unfold Dev.request
  try dsimp only
  repeat' first
    | intro _ | with_reducible exact .refl _ _ | with_reducible assumption | with_reducible apply ChangesOnly.ite
    | with_reducible apply ChangesOnly.foldl | (with_reducible apply ChangesOnly.step Dev.onExpo_foot; decide)
    | (with_reducible apply ChangesOnly.step Dev.refuseErr_foot; decide) | (with_reducible apply ChangesOnly.step Dev.emit_foot; decide)
    | (with_reducible apply ChangesOnly.step Dev.countOwn_foot; decide) | (with_reducible apply ChangesOnly.step Dev.refuseQuiet_foot; decide)
    | (with_reducible apply ChangesOnly.step Dev.admitReq_foot; decide) | (with_reducible apply ChangesOnly.step Dev.readLine_foot; decide)
    | (with_reducible apply ChangesOnly.step Dev.perform_foot; decide) | with_reducible exact .pair ‹_› ‹_› | split | dsimp only

theorem Dev.releaseTest_foot {d : Dev} : ChangesOnly [.mem, .expo, .restore, .ctxs, .dram, .flint, .lat, .heads, .dw, .out] d (Dev.releaseTest d) := by
  unfold Dev.releaseTest
  try dsimp only
  repeat' first
    | intro _ | with_reducible exact .refl _ _ | with_reducible assumption | with_reducible apply ChangesOnly.ite
    | with_reducible apply ChangesOnly.foldl | (with_reducible apply ChangesOnly.step Dev.onExpo_foot; decide)
    | (with_reducible apply ChangesOnly.step Dev.refuseQuiet_foot; decide) | (with_reducible apply ChangesOnly.step Dev.countOwn_foot; decide)
    | (with_reducible apply ChangesOnly.step Dev.admitReq_foot; decide) | with_reducible exact .pair ‹_› ‹_› | split | dsimp only

theorem Dev.fetchDone_foot {d : Dev} {p : Nat} : ChangesOnly [.mem, .expo, .restore, .ctxs, .dram, .flint, .lat, .heads, .dw, .out] d (Dev.fetchDone d p) := by
  unfold Dev.fetchDone
  try dsimp only
  repeat' first
    | intro _ | with_reducible exact .refl _ _ | with_reducible assumption | with_reducible apply ChangesOnly.ite
    | with_reducible apply ChangesOnly.foldl | (with_reducible apply ChangesOnly.step Dev.onRestore_foot; decide)
    | (with_reducible apply ChangesOnly.step Dev.onExpo_foot; decide) | (with_reducible apply ChangesOnly.step Dev.serve_foot; decide)
    | with_reducible exact .pair ‹_› ‹_› | split | dsimp only

theorem Dev.revDone_foot {d : Dev} {f : Nat → Bool} : ChangesOnly [.mem, .expo, .restore, .ctxs, .dram, .flint, .lat, .heads, .dw, .out] d (Dev.revDone d f) := by
  unfold Dev.revDone
  try dsimp only
  repeat' first
    | intro _ | with_reducible exact .refl _ _ | with_reducible assumption | with_reducible apply ChangesOnly.ite
    | with_reducible apply ChangesOnly.foldl | (with_reducible apply ChangesOnly.step Dev.onExpo_foot; decide)
    | (with_reducible apply ChangesOnly.step Dev.serve_foot; decide) | with_reducible exact .pair ‹_› ‹_› | split | dsimp only

theorem Dev.disarm_foot {d : Dev} {g : Nat} : ChangesOnly [.expo] d (Dev.disarm d g) := by
  unfold Dev.disarm
  try dsimp only
  repeat' first
    | intro _ | with_reducible exact .refl _ _ | with_reducible assumption | with_reducible apply ChangesOnly.ite
    | with_reducible apply ChangesOnly.foldl | (with_reducible apply ChangesOnly.step Dev.onExpo_foot; decide) | with_reducible exact .pair ‹_› ‹_›
    | split | dsimp only

theorem Dev.earlyDisarm_foot {d : Dev} {t : Nat} {n : Nat} : ChangesOnly [.expo] d (Dev.earlyDisarm d t n) := by
  induction n generalizing d with
  | zero => exact .refl _ _
  | succ n ih =>
    unfold Dev.earlyDisarm
    try dsimp only
    repeat' first
      | intro _ | with_reducible exact .refl _ _ | with_reducible assumption | with_reducible apply ChangesOnly.ite
      | with_reducible apply ChangesOnly.foldl | (with_reducible apply ChangesOnly.step ih; decide)
      | (with_reducible apply ChangesOnly.step Dev.disarm_foot; decide) | with_reducible exact .pair ‹_› ‹_› | split | dsimp only

theorem Dev.armGroups_foot {d : Dev} {gs : List Nat} : ChangesOnly [.mem, .expo, .restore, .ctxs, .dram, .flint, .lat, .heads, .dw, .out] d (Dev.armGroups d gs) := by
  unfold Dev.armGroups
  try dsimp only
  repeat' first
    | intro _ | with_reducible exact .refl _ _ | with_reducible assumption | with_reducible apply ChangesOnly.ite
    | with_reducible apply ChangesOnly.foldl | (with_reducible apply ChangesOnly.step Dev.onExpo_foot; decide)
    | (with_reducible apply ChangesOnly.step Dev.dirtyPage_foot; decide) | (with_reducible apply ChangesOnly.step Dev.armFullCheck_foot; decide)
    | (with_reducible apply ChangesOnly.step Dev.serve_foot; decide) | with_reducible exact .pair ‹_› ‹_› | split | dsimp only

theorem Dev.dirtyArmed_foot {d : Dev} {p : Nat} : ChangesOnly [.expo, .flint] d (Dev.dirtyArmed d p) := by
  unfold Dev.dirtyArmed
  try dsimp only
  repeat' first
    | intro _ | with_reducible exact .refl _ _ | with_reducible assumption | with_reducible apply ChangesOnly.ite
    | with_reducible apply ChangesOnly.foldl | (with_reducible apply ChangesOnly.step Dev.onExpo_foot; decide)
    | (with_reducible apply ChangesOnly.step Dev.dirtyPage_foot; decide) | (with_reducible apply ChangesOnly.step Dev.requestArm_foot; decide)
    | (with_reducible apply ChangesOnly.step Dev.armFullCheck_foot; decide) | with_reducible exact .pair ‹_› ‹_› | split | dsimp only

theorem Dev.rewait_foot {d : Dev} : ChangesOnly [.expo, .flint] d (Dev.rewait d) := by
  unfold Dev.rewait
  try dsimp only
  repeat' first
    | intro _ | with_reducible exact .refl _ _ | with_reducible assumption | with_reducible apply ChangesOnly.ite
    | with_reducible apply ChangesOnly.foldl | (with_reducible apply ChangesOnly.step Dev.onExpo_foot; decide)
    | (with_reducible apply ChangesOnly.step Dev.dirtyArmed_foot; decide) | with_reducible exact .pair ‹_› ‹_› | split | dsimp only

/-! ### Reactions -/

theorem Dev.restUpd_foot {d : Dev} : ChangesOnly [.dw] d (Dev.restUpd d) := by
  unfold Dev.restUpd
  try dsimp only
  repeat' first
    | intro _ | with_reducible exact .refl _ _ | with_reducible assumption | with_reducible apply ChangesOnly.ite
    | with_reducible apply ChangesOnly.foldl | (with_reducible apply ChangesOnly.step Dev.dwUpd_foot; decide)
    | (with_reducible apply ChangesOnly.step Dev.dwSet_foot; decide) | with_reducible exact .pair ‹_› ‹_› | split | dsimp only

theorem Dev.mirrorNow_foot {d : Dev} : ChangesOnly [.mirror] d (Dev.mirrorNow d) := by
  unfold Dev.mirrorNow
  try dsimp only
  repeat' first
    | intro _ | with_reducible exact .refl _ _ | with_reducible assumption | with_reducible apply ChangesOnly.ite
    | with_reducible apply ChangesOnly.foldl | (with_reducible apply ChangesOnly.step Dev.onMirror_foot; decide) | with_reducible exact .pair ‹_› ‹_›
    | split | dsimp only

theorem Dev.tapsFor_foot {d : Dev} {a b : Nat} : ChangesOnly [.slate] d (Dev.tapsFor d a b) := by
  unfold Dev.tapsFor
  try dsimp only
  repeat' first
    | intro _ | with_reducible exact .refl _ _ | with_reducible assumption | with_reducible apply ChangesOnly.ite
    | with_reducible apply ChangesOnly.foldl | (with_reducible apply ChangesOnly.step Dev.onSl_foot; decide) | with_reducible exact .pair ‹_› ‹_›
    | split | dsimp only

theorem Dev.pointCheck_foot {d : Dev} : ChangesOnly [.pkg, .slate] d (Dev.pointCheck d) := by
  unfold Dev.pointCheck
  try dsimp only
  repeat' first
    | intro _ | with_reducible exact .refl _ _ | with_reducible assumption | with_reducible apply ChangesOnly.ite
    | with_reducible apply ChangesOnly.foldl | (with_reducible apply ChangesOnly.step Dev.onPkg_foot; decide)
    | (with_reducible apply ChangesOnly.step Dev.tapsFor_foot; decide) | with_reducible exact .pair ‹_› ‹_› | split | dsimp only

theorem Dev.capApply_foot {d : Dev} {t : Nat} : ChangesOnly [.mem, .expo, .restore, .ctxs, .dram, .flint, .lat, .heads, .dw, .out] d (Dev.capApply d t) := by
  unfold Dev.capApply
  try dsimp only
  repeat' first
    | intro _ | with_reducible exact .refl _ _ | with_reducible assumption | with_reducible apply ChangesOnly.ite
    | with_reducible apply ChangesOnly.foldl | (with_reducible apply ChangesOnly.step Dev.setCap_foot; decide)
    | (with_reducible apply ChangesOnly.step Dev.chanServe_foot; decide) | with_reducible exact .pair ‹_› ‹_› | split | dsimp only

theorem Dev.sealWorst_foot {d : Dev} : ChangesOnly [.sealing] d (Dev.sealWorst d) := by
  unfold Dev.sealWorst
  try dsimp only
  repeat' first
    | intro _ | with_reducible exact .refl _ _ | with_reducible assumption | with_reducible apply ChangesOnly.ite
    | with_reducible apply ChangesOnly.foldl | (with_reducible apply ChangesOnly.step Dev.onSealing_foot; decide) | with_reducible exact .pair ‹_› ‹_›
    | split | dsimp only

theorem Dev.isolate_foot {d : Dev} {t cause : Nat} : ChangesOnly [.pkg, .expo, .sealing, .ctxs, .dram, .flint, .heads, .dw, .out] d (Dev.isolate d t cause) := by
  unfold Dev.isolate
  try dsimp only
  repeat' first
    | intro _ | with_reducible exact .refl _ _ | with_reducible assumption | with_reducible apply ChangesOnly.ite
    | with_reducible apply ChangesOnly.foldl | (with_reducible apply ChangesOnly.step Dev.onExpo_foot; decide)
    | (with_reducible apply ChangesOnly.step Dev.onCtxs_foot; decide) | (with_reducible apply ChangesOnly.step Dev.onSealing_foot; decide)
    | (with_reducible apply ChangesOnly.step Dev.onTile_foot; decide) | (with_reducible apply ChangesOnly.step Dev.refuseQuiet_foot; decide)
    | (with_reducible apply ChangesOnly.step Dev.tileChans_foot; decide) | (with_reducible apply ChangesOnly.step Dev.poisonEntry_foot; decide)
    | (with_reducible apply ChangesOnly.step Dev.raise_foot; decide) | (with_reducible apply ChangesOnly.step Dev.govTrigger_foot; decide)
    | with_reducible exact .pair ‹_› ‹_› | split | dsimp only

theorem Dev.freezeEnergy_foot {d : Dev} : ChangesOnly [.energy, .dw] d (Dev.freezeEnergy d) := by
  unfold Dev.freezeEnergy
  try dsimp only
  repeat' first
    | intro _ | with_reducible exact .refl _ _ | with_reducible assumption | with_reducible apply ChangesOnly.ite
    | with_reducible apply ChangesOnly.foldl | (with_reducible apply ChangesOnly.step Dev.onEnergy_foot; decide)
    | (with_reducible apply ChangesOnly.step Dev.bayUpd_foot; decide) | with_reducible exact .pair ‹_› ‹_› | split | dsimp only

theorem Dev.safeState_foot {d : Dev} {lvl : Nat} : ChangesOnly [.pkg, .expo, .sealing, .dram, .energy, .flint, .panel, .dw, .out] d (Dev.safeState d lvl) := by
  unfold Dev.safeState
  try dsimp only
  repeat' first
    | intro _ | with_reducible exact .refl _ _ | with_reducible assumption | with_reducible apply ChangesOnly.ite
    | with_reducible apply ChangesOnly.foldl | (with_reducible apply ChangesOnly.step Dev.onPkg_foot; decide)
    | (with_reducible apply ChangesOnly.step Dev.onExpo_foot; decide) | (with_reducible apply ChangesOnly.step Dev.onPanel_foot; decide)
    | (with_reducible apply ChangesOnly.step Dev.onSealing_foot; decide) | (with_reducible apply ChangesOnly.step Dev.onFlint_foot; decide)
    | (with_reducible apply ChangesOnly.step Dev.freezeEnergy_foot; decide) | (with_reducible apply ChangesOnly.step Dev.refuseErr_foot; decide)
    | (with_reducible apply ChangesOnly.step Dev.emit_foot; decide) | (with_reducible apply ChangesOnly.step Dev.tileChans_foot; decide)
    | with_reducible exact .pair ‹_› ‹_› | split | dsimp only

theorem Dev.cutMeter_foot {d : Dev} {c : Nat} {flags : BitVec 16} : ChangesOnly [.ctxs] d (Dev.cutMeter d c flags) := by
  unfold Dev.cutMeter
  try dsimp only
  repeat' first
    | intro _ | with_reducible exact .refl _ _ | with_reducible assumption | with_reducible apply ChangesOnly.ite
    | with_reducible apply ChangesOnly.foldl | (with_reducible apply ChangesOnly.step Dev.onCtx_foot; decide) | with_reducible exact .pair ‹_› ‹_›
    | split | dsimp only

theorem Dev.onMeter_foot {d : Dev} {c : Nat} {f : MeterRec → MeterRec} : ChangesOnly [.ctxs] d (Dev.onMeter d c f) := by
  unfold Dev.onMeter
  try dsimp only
  repeat' first
    | intro _ | with_reducible exact .refl _ _ | with_reducible assumption | with_reducible apply ChangesOnly.ite
    | with_reducible apply ChangesOnly.foldl | (with_reducible apply ChangesOnly.step Dev.onCtx_foot; decide) | with_reducible exact .pair ‹_› ‹_›
    | split | dsimp only

theorem Dev.ctxState_foot {d : Dev} {c st : Nat} : ChangesOnly [.ctxs] d (Dev.ctxState d c st) := by
  unfold Dev.ctxState
  try dsimp only
  repeat' first
    | intro _ | with_reducible exact .refl _ _ | with_reducible assumption | with_reducible apply ChangesOnly.ite
    | with_reducible apply ChangesOnly.foldl | (with_reducible apply ChangesOnly.step Dev.onCtx_foot; decide) | with_reducible exact .pair ‹_› ‹_›
    | split | dsimp only

theorem Dev.onBg_foot {d : Dev} {p : Nat} {f : Bg → Bg} : ChangesOnly [.heads, .jcs] d (Dev.onBg d p f) := by
  unfold Dev.onBg
  try dsimp only
  repeat' first
    | intro _ | with_reducible exact .refl _ _ | with_reducible assumption | with_reducible apply ChangesOnly.ite
    | with_reducible apply ChangesOnly.foldl | (with_reducible apply ChangesOnly.step Dev.onJcs_foot; decide)
    | (with_reducible apply ChangesOnly.step Dev.onHead_foot; decide) | with_reducible exact .pair ‹_› ‹_› | split | dsimp only

theorem Dev.bgEnd_foot {d : Dev} {p opcode ext : Nat} : ChangesOnly [.heads, .jcs, .mirror] d (Dev.bgEnd d p opcode ext) := by
  unfold Dev.bgEnd
  try dsimp only
  repeat' first
    | intro _ | with_reducible exact .refl _ _ | with_reducible assumption | with_reducible apply ChangesOnly.ite
    | with_reducible apply ChangesOnly.foldl | (with_reducible apply ChangesOnly.step Dev.onBg_foot; decide)
    | (with_reducible apply ChangesOnly.step Dev.mirrorNow_foot; decide) | with_reducible exact .pair ‹_› ‹_› | split | dsimp only

theorem Dev.bgEndAny_foot {d : Dev} {opcode ext : Nat} {f : Nat → Bool} : ChangesOnly [.heads, .jcs, .mirror] d (Dev.bgEndAny d opcode ext f) := by
  unfold Dev.bgEndAny
  try dsimp only
  repeat' first
    | intro _ | with_reducible exact .refl _ _ | with_reducible assumption | with_reducible apply ChangesOnly.ite
    | with_reducible apply ChangesOnly.foldl | (with_reducible apply ChangesOnly.step Dev.bgEnd_foot; decide) | with_reducible exact .pair ‹_› ‹_›
    | split | dsimp only

theorem Dev.abortBg_foot {d : Dev} : ChangesOnly [.heads, .jcs] d (Dev.abortBg d) := by
  unfold Dev.abortBg
  try dsimp only
  repeat' first
    | intro _ | with_reducible exact .refl _ _ | with_reducible assumption | with_reducible apply ChangesOnly.ite
    | with_reducible apply ChangesOnly.foldl | (with_reducible apply ChangesOnly.step Dev.onBg_foot; decide) | with_reducible exact .pair ‹_› ‹_›
    | split | dsimp only

theorem Dev.chunkAbort_foot {d : Dev} {ext : Nat} : ChangesOnly [.heads, .upd, .out] d (Dev.chunkAbort d ext) := by
  unfold Dev.chunkAbort
  try dsimp only
  repeat' first
    | intro _ | with_reducible exact .refl _ _ | with_reducible assumption | with_reducible apply ChangesOnly.ite
    | with_reducible apply ChangesOnly.foldl | (with_reducible apply ChangesOnly.step Dev.onUpd_foot; decide)
    | (with_reducible apply ChangesOnly.step Dev.onHead_foot; decide) | (with_reducible apply ChangesOnly.step Dev.emit_foot; decide)
    | with_reducible exact .pair ‹_› ‹_› | split | dsimp only

theorem Dev.uncSync_foot {d : Dev} : ChangesOnly [.qtz] d (Dev.uncSync d) := by
  unfold Dev.uncSync
  try dsimp only
  repeat' first
    | intro _ | with_reducible exact .refl _ _ | with_reducible assumption | with_reducible apply ChangesOnly.ite
    | with_reducible apply ChangesOnly.foldl | (with_reducible apply ChangesOnly.step Dev.onQtz_foot; decide) | with_reducible exact .pair ‹_› ‹_›
    | split | dsimp only

theorem Dev.coreOff_foot {d : Dev} : ChangesOnly [.pkg, .energy, .flint, .qtz, .slate, .panel] d (Dev.coreOff d) := by
  unfold Dev.coreOff
  try dsimp only
  repeat' first
    | intro _ | with_reducible exact .refl _ _ | with_reducible assumption | with_reducible apply ChangesOnly.ite
    | with_reducible apply ChangesOnly.foldl | (with_reducible apply ChangesOnly.step Dev.onPanel_foot; decide)
    | (with_reducible apply ChangesOnly.step Dev.onQtz_foot; decide) | (with_reducible apply ChangesOnly.step Dev.onFlint_foot; decide)
    | (with_reducible apply ChangesOnly.step Dev.onSlate_foot; decide) | (with_reducible apply ChangesOnly.step Dev.onPkg_foot; decide)
    | (with_reducible apply ChangesOnly.step Dev.uncSync_foot; decide) | (with_reducible apply ChangesOnly.step Dev.onBay_foot; decide)
    | with_reducible exact .pair ‹_› ‹_› | split | dsimp only

theorem Dev.hibernate_foot {d : Dev} {cause : Nat} {clean : Bool} : ChangesOnly [.pkg, .sealing, .energy, .therm, .flint, .qtz, .slate, .panel] d (Dev.hibernate d cause clean) := by
  unfold Dev.hibernate
  try dsimp only
  repeat' first
    | intro _ | with_reducible exact .refl _ _ | with_reducible assumption | with_reducible apply ChangesOnly.ite
    | with_reducible apply ChangesOnly.foldl | (with_reducible apply ChangesOnly.step Dev.onSealing_foot; decide)
    | (with_reducible apply ChangesOnly.step Dev.onTherm_foot; decide) | (with_reducible apply ChangesOnly.step Dev.onPanel_foot; decide)
    | (with_reducible apply ChangesOnly.step Dev.coreOff_foot; decide) | with_reducible exact .pair ‹_› ‹_› | split | dsimp only

theorem Dev.hibernateUnsealed_foot {d : Dev} {cause : Nat} : ChangesOnly [.pkg, .sealing, .energy, .therm, .flint, .qtz, .slate, .panel] d (Dev.hibernateUnsealed d cause) := by
  unfold Dev.hibernateUnsealed
  try dsimp only
  repeat' first
    | intro _ | with_reducible exact .refl _ _ | with_reducible assumption | with_reducible apply ChangesOnly.ite
    | with_reducible apply ChangesOnly.foldl | (with_reducible apply ChangesOnly.step Dev.hibernate_foot; decide) | with_reducible exact .pair ‹_› ‹_›
    | split | dsimp only

/-! ### SlateOps -/

theorem Dev.slRefuse_foot {d : Dev} {t err : Nat} : ChangesOnly [.flint, .slate] d (Dev.slRefuse d t err) := by
  unfold Dev.slRefuse
  try dsimp only
  repeat' first
    | intro _ | with_reducible exact .refl _ _ | with_reducible assumption | with_reducible apply ChangesOnly.ite
    | with_reducible apply ChangesOnly.foldl | (with_reducible apply ChangesOnly.step Dev.onSl_foot; decide)
    | (with_reducible apply ChangesOnly.step Dev.raise_foot; decide) | with_reducible exact .pair ‹_› ‹_› | split | dsimp only

theorem Dev.slTouch_foot {d : Dev} {t : Nat} : ChangesOnly [.flint, .slate] d (Dev.slTouch d t) := by
  unfold Dev.slTouch
  try dsimp only
  repeat' first
    | intro _ | with_reducible exact .refl _ _ | with_reducible assumption | with_reducible apply ChangesOnly.ite
    | with_reducible apply ChangesOnly.foldl | (with_reducible apply ChangesOnly.step Dev.slRefuse_foot; decide) | with_reducible exact .pair ‹_› ‹_›
    | split | dsimp only

theorem Dev.eraseStart_foot {d : Dev} {t s purpose : Nat} : ChangesOnly [.slate] d (Dev.eraseStart d t s purpose) := by
  unfold Dev.eraseStart
  try dsimp only
  repeat' first
    | intro _ | with_reducible exact .refl _ _ | with_reducible assumption | with_reducible apply ChangesOnly.ite
    | with_reducible apply ChangesOnly.foldl | (with_reducible apply ChangesOnly.step Dev.onSl_foot; decide) | with_reducible exact .pair ‹_› ‹_›
    | split | dsimp only

theorem Dev.putLines_foot {d : Dev} {t s : Nat} {ls : List (BitVec 128)} : ChangesOnly [.slate] d (Dev.putLines d t s ls) := by
  unfold Dev.putLines
  suffices h : ∀ (l : List (BitVec 128)) (e : Dev) (k : Nat), ChangesOnly [.slate] d e → ChangesOnly [.slate] d (l.foldl (fun (a : Dev × Nat) l =>
      (a.1.onSl t fun x => { x with lines := tset x.lines a.2 l }, a.2 + 1)) (e, k)).1 from h _ d _ (.refl _ _)
  intro l
  induction l with
  | nil => exact fun _ _ h => h
  | cons x l ih => exact fun e k h => ih _ _ (ChangesOnly.step Dev.onSl_foot (by decide) h)

theorem Dev.secClear_foot {d : Dev} {t s : Nat} : ChangesOnly [.slate] d (Dev.secClear d t s) := by
  unfold Dev.secClear
  try dsimp only
  repeat' first
    | intro _ | with_reducible exact .refl _ _ | with_reducible assumption | with_reducible apply ChangesOnly.ite
    | with_reducible apply ChangesOnly.foldl | (with_reducible apply ChangesOnly.step Dev.onSl_foot; decide) | with_reducible exact .pair ‹_› ‹_›
    | split | dsimp only

theorem Dev.intentPut_foot {d : Dev} {t : Nat} {i : IntentLine} : ChangesOnly [.slate] d (Dev.intentPut d t i) := by
  unfold Dev.intentPut
  try dsimp only
  repeat' first
    | intro _ | with_reducible exact .refl _ _ | with_reducible assumption | with_reducible apply ChangesOnly.ite
    | with_reducible apply ChangesOnly.foldl | (with_reducible apply ChangesOnly.step Dev.putLines_foot; decide)
    | (with_reducible apply ChangesOnly.step Dev.onSl_foot; decide) | (with_reducible apply ChangesOnly.step Dev.secClear_foot; decide)
    | with_reducible exact .pair ‹_› ‹_› | split | dsimp only

theorem Dev.eraseRun_foot {d : Dev} {t s purpose : Nat} : ChangesOnly [.slate] d (Dev.eraseRun d t s purpose) := by
  unfold Dev.eraseRun
  try dsimp only
  repeat' first
    | intro _ | with_reducible exact .refl _ _ | with_reducible assumption | with_reducible apply ChangesOnly.ite
    | with_reducible apply ChangesOnly.foldl | (with_reducible apply ChangesOnly.step Dev.intentPut_foot; decide)
    | (with_reducible apply ChangesOnly.step Dev.eraseStart_foot; decide) | with_reducible exact .pair ‹_› ‹_› | split | dsimp only

theorem Dev.eraseDone_foot {d : Dev} {t s : Nat} : ChangesOnly [.slate] d (Dev.eraseDone d t s) := by
  unfold Dev.eraseDone
  try dsimp only
  repeat' first
    | intro _ | with_reducible exact .refl _ _ | with_reducible assumption | with_reducible apply ChangesOnly.ite
    | with_reducible apply ChangesOnly.foldl | (with_reducible apply ChangesOnly.step Dev.intentPut_foot; decide)
    | (with_reducible apply ChangesOnly.step Dev.onSl_foot; decide) | (with_reducible apply ChangesOnly.step Dev.recDueOn_foot; decide)
    | with_reducible exact .pair ‹_› ‹_› | split | dsimp only

theorem Dev.opStart_foot {d : Dev} {t fetch c addr purpose : Nat} {data : BitVec 128} : ChangesOnly [.flint, .slate] d (Dev.opStart d t fetch c addr purpose data) := by
  unfold Dev.opStart
  try dsimp only
  repeat' first
    | intro _ | with_reducible exact .refl _ _ | with_reducible assumption | with_reducible apply ChangesOnly.ite
    | with_reducible apply ChangesOnly.foldl | (with_reducible apply ChangesOnly.step Dev.slRefuse_foot; decide)
    | (with_reducible apply ChangesOnly.step Dev.onSl_foot; decide) | (with_reducible apply ChangesOnly.step Dev.eraseRun_foot; decide)
    | with_reducible exact .pair ‹_› ‹_› | split | dsimp only

theorem Dev.recPut_foot {d : Dev} {t typ len s : Nat} : ChangesOnly [.qtz, .slate, .freeN] d (Dev.recPut d t typ len s) := by
  unfold Dev.recPut
  try dsimp only
  repeat' first
    | intro _ | with_reducible exact .refl _ _ | with_reducible assumption | with_reducible apply ChangesOnly.ite
    | with_reducible apply ChangesOnly.foldl | (with_reducible apply ChangesOnly.step Dev.onFreeN_foot; decide)
    | (with_reducible apply ChangesOnly.step Dev.onQtz_foot; decide) | (with_reducible apply ChangesOnly.step Dev.putLines_foot; decide)
    | (with_reducible apply ChangesOnly.step Dev.onSl_foot; decide) | with_reducible exact .pair ‹_› ‹_› | split | dsimp only

theorem Dev.pairFix_foot {d : Dev} {t p s o big : Nat} : ChangesOnly [.qtz, .slate, .freeN] d (Dev.pairFix d t p s o big) := by
  unfold Dev.pairFix
  try dsimp only
  repeat' first
    | intro _ | with_reducible exact .refl _ _ | with_reducible assumption | with_reducible apply ChangesOnly.ite
    | with_reducible apply ChangesOnly.foldl | (with_reducible apply ChangesOnly.step Dev.recPut_foot; decide)
    | (with_reducible apply ChangesOnly.step Dev.eraseRun_foot; decide) | with_reducible exact .pair ‹_› ‹_› | split | dsimp only

theorem Dev.recWrite_foot {d : Dev} {t typ len : Nat} : ChangesOnly [.qtz, .slate, .freeN] d (Dev.recWrite d t typ len) := by
  unfold Dev.recWrite
  try dsimp only
  repeat' first
    | intro _ | with_reducible exact .refl _ _ | with_reducible assumption | with_reducible apply ChangesOnly.ite
    | with_reducible apply ChangesOnly.foldl | (with_reducible apply ChangesOnly.step Dev.recPut_foot; decide)
    | (with_reducible apply ChangesOnly.step Dev.pairFix_foot; decide) | with_reducible exact .pair ‹_› ‹_› | split | dsimp only

theorem Dev.recWritePkg_foot {d : Dev} {typ len : Nat} : ChangesOnly [.qtz, .slate, .freeN] d (Dev.recWritePkg d typ len) := by
  unfold Dev.recWritePkg
  try dsimp only
  repeat' first
    | intro _ | with_reducible exact .refl _ _ | with_reducible assumption | with_reducible apply ChangesOnly.ite
    | with_reducible apply ChangesOnly.foldl | (with_reducible apply ChangesOnly.step Dev.recWrite_foot; decide) | with_reducible exact .pair ‹_› ‹_›
    | split | dsimp only

theorem Dev.storePut_foot {d : Dev} {t typ q : Nat} {ls : List (BitVec 128)} : ChangesOnly [.slate] d (Dev.storePut d t typ q ls) := by
  unfold Dev.storePut
  try dsimp only
  repeat' first
    | intro _ | with_reducible exact .refl _ _ | with_reducible assumption | with_reducible apply ChangesOnly.ite
    | with_reducible apply ChangesOnly.foldl | (with_reducible apply ChangesOnly.step Dev.putLines_foot; decide)
    | (with_reducible apply ChangesOnly.step Dev.onSl_foot; decide) | with_reducible exact .pair ‹_› ‹_› | split | dsimp only

theorem Dev.storeNew_foot {d : Dev} {typ q : Nat} {body : List Byte} {both : Bool} : ChangesOnly [.slate] d (Dev.storeNew d typ q body both) := by
  unfold Dev.storeNew
  try dsimp only
  repeat' first
    | intro _ | with_reducible exact .refl _ _ | with_reducible assumption | with_reducible apply ChangesOnly.ite
    | with_reducible apply ChangesOnly.foldl | (with_reducible apply ChangesOnly.step Dev.storePut_foot; decide) | with_reducible exact .pair ‹_› ‹_›
    | split | dsimp only

theorem Dev.storeFramed_foot {d : Dev} {typ : Nat} {content : List Byte} : ChangesOnly [.slate] d (Dev.storeFramed d typ content) := by
  unfold Dev.storeFramed
  try dsimp only
  repeat' first
    | intro _ | with_reducible exact .refl _ _ | with_reducible assumption | with_reducible apply ChangesOnly.ite
    | with_reducible apply ChangesOnly.foldl | (with_reducible apply ChangesOnly.step Dev.storeNew_foot; decide) | with_reducible exact .pair ‹_› ‹_›
    | split | dsimp only

/-! ### Gauge -/

theorem Dev.estimatePack_foot {d : Dev} {b : Nat} : ChangesOnly [.energy] d (Dev.estimatePack d b) := by
  unfold Dev.estimatePack
  try dsimp only
  repeat' first
    | intro _ | with_reducible exact .refl _ _ | with_reducible assumption | with_reducible apply ChangesOnly.ite
    | with_reducible apply ChangesOnly.foldl | (with_reducible apply ChangesOnly.step Dev.onBay_foot; decide)
    | (with_reducible apply ChangesOnly.step Dev.onSrc_foot; decide) | with_reducible exact .pair ‹_› ‹_› | split | dsimp only

theorem Dev.estimateBridge_foot {d : Dev} : ChangesOnly [.energy] d (Dev.estimateBridge d) := by
  unfold Dev.estimateBridge
  try dsimp only
  repeat' first
    | intro _ | with_reducible exact .refl _ _ | with_reducible assumption | with_reducible apply ChangesOnly.ite
    | with_reducible apply ChangesOnly.foldl | (with_reducible apply ChangesOnly.step Dev.onSrc_foot; decide) | with_reducible exact .pair ‹_› ‹_›
    | split | dsimp only

theorem Dev.viewPack_foot {d : Dev} {b : Nat} {now : Bool} : ChangesOnly [.energy] d (Dev.viewPack d b now) := by
  unfold Dev.viewPack
  try dsimp only
  repeat' first
    | intro _ | with_reducible exact .refl _ _ | with_reducible assumption | with_reducible apply ChangesOnly.ite
    | with_reducible apply ChangesOnly.foldl | (with_reducible apply ChangesOnly.step Dev.onBay_foot; decide) | with_reducible exact .pair ‹_› ‹_›
    | split | dsimp only

theorem Dev.bridgeView_foot {d : Dev} : ChangesOnly [.energy] d (Dev.bridgeView d) := by
  unfold Dev.bridgeView
  try dsimp only
  repeat' first
    | intro _ | with_reducible exact .refl _ _ | with_reducible assumption | with_reducible apply ChangesOnly.ite
    | with_reducible apply ChangesOnly.foldl | (with_reducible apply ChangesOnly.step Dev.onEnergy_foot; decide) | with_reducible exact .pair ‹_› ‹_›
    | split | dsimp only

theorem Dev.viewUpd_foot {d : Dev} : ChangesOnly [.dw] d (Dev.viewUpd d) := by
  unfold Dev.viewUpd
  try dsimp only
  repeat' first
    | intro _ | with_reducible exact .refl _ _ | with_reducible assumption | with_reducible apply ChangesOnly.ite
    | with_reducible apply ChangesOnly.foldl | (with_reducible apply ChangesOnly.step Dev.dwUpd_foot; decide) | with_reducible exact .pair ‹_› ‹_›
    | split | dsimp only

/-! ### Energy -/

theorem Dev.gaugeDue_foot {d : Dev} : ChangesOnly [.energy, .slate] d (Dev.gaugeDue d) := by
  unfold Dev.gaugeDue
  try dsimp only
  repeat' first
    | intro _ | with_reducible exact .refl _ _ | with_reducible assumption | with_reducible apply ChangesOnly.ite
    | with_reducible apply ChangesOnly.foldl | (with_reducible apply ChangesOnly.step Dev.onEnergy_foot; decide)
    | (with_reducible apply ChangesOnly.step Dev.recDue_foot; decide) | with_reducible exact .pair ‹_› ‹_› | split | dsimp only

theorem Dev.bayEvent_foot {d : Dev} {b kind sev name : Nat} : ChangesOnly [.flint] d (Dev.bayEvent d b kind sev name) := by
  unfold Dev.bayEvent
  try dsimp only
  repeat' first
    | intro _ | with_reducible exact .refl _ _ | with_reducible assumption | with_reducible apply ChangesOnly.ite
    | with_reducible apply ChangesOnly.foldl | (with_reducible apply ChangesOnly.step Dev.raise_foot; decide) | with_reducible exact .pair ‹_› ‹_›
    | split | dsimp only

theorem Dev.disqualify_foot {d : Dev} {b : Nat} : ChangesOnly [.energy, .flint, .dw] d (Dev.disqualify d b) := by
  unfold Dev.disqualify
  try dsimp only
  repeat' first
    | intro _ | with_reducible exact .refl _ _ | with_reducible assumption | with_reducible apply ChangesOnly.ite
    | with_reducible apply ChangesOnly.foldl | (with_reducible apply ChangesOnly.step Dev.onEnergy_foot; decide)
    | (with_reducible apply ChangesOnly.step Dev.bayDo_foot; decide) | (with_reducible apply ChangesOnly.step Dev.bayEvent_foot; decide)
    | with_reducible exact .pair ‹_› ‹_› | split | dsimp only

theorem Dev.interruptTests_foot {d : Dev} : ChangesOnly [.energy, .flint, .dw] d (Dev.interruptTests d) := by
  unfold Dev.interruptTests
  try dsimp only
  repeat' first
    | intro _ | with_reducible exact .refl _ _ | with_reducible assumption | with_reducible apply ChangesOnly.ite
    | with_reducible apply ChangesOnly.foldl | (with_reducible apply ChangesOnly.step Dev.onBay_foot; decide)
    | (with_reducible apply ChangesOnly.step Dev.disqualify_foot; decide) | (with_reducible apply ChangesOnly.step Dev.bayDo_foot; decide)
    | with_reducible exact .pair ‹_› ‹_› | split | dsimp only

theorem Dev.interruptStep_foot {d : Dev} {b : Nat} : ChangesOnly [.energy, .flint, .dw] d (Dev.interruptStep d b) := by
  unfold Dev.interruptStep
  try dsimp only
  repeat' first
    | intro _ | with_reducible exact .refl _ _ | with_reducible assumption | with_reducible apply ChangesOnly.ite
    | with_reducible apply ChangesOnly.foldl | (with_reducible apply ChangesOnly.step Dev.disqualify_foot; decide)
    | (with_reducible apply ChangesOnly.step Dev.onBay_foot; decide) | (with_reducible apply ChangesOnly.step Dev.bayDo_foot; decide)
    | with_reducible exact .pair ‹_› ‹_› | split | dsimp only

theorem Dev.startTest_foot {d : Dev} {b : Nat} : ChangesOnly [.energy, .dw] d (Dev.startTest d b) := by
  unfold Dev.startTest
  try dsimp only
  repeat' first
    | intro _ | with_reducible exact .refl _ _ | with_reducible assumption | with_reducible apply ChangesOnly.ite
    | with_reducible apply ChangesOnly.foldl | (with_reducible apply ChangesOnly.step Dev.bayDo_foot; decide) | with_reducible exact .pair ‹_› ‹_›
    | split | dsimp only

theorem Dev.testResult_foot {d : Dev} {b sa sb : Nat} : ChangesOnly [.energy, .flint, .slate, .dw] d (Dev.testResult d b sa sb) := by
  unfold Dev.testResult
  try dsimp only
  repeat' first
    | intro _ | with_reducible exact .refl _ _ | with_reducible assumption | with_reducible apply ChangesOnly.ite
    | with_reducible apply ChangesOnly.foldl | (with_reducible apply ChangesOnly.step Dev.bayDo_foot; decide)
    | (with_reducible apply ChangesOnly.step Dev.bayEvent_foot; decide) | (with_reducible apply ChangesOnly.step Dev.gaugeDue_foot; decide)
    | (with_reducible apply ChangesOnly.step Dev.disqualify_foot; decide) | with_reducible exact .pair ‹_› ‹_› | split | dsimp only

theorem Dev.packFault_foot {d : Dev} {b code : Nat} : ChangesOnly [.expo, .energy, .flint, .dw] d (Dev.packFault d b code) := by
  unfold Dev.packFault
  try dsimp only
  repeat' first
    | intro _ | with_reducible exact .refl _ _ | with_reducible assumption | with_reducible apply ChangesOnly.ite
    | with_reducible apply ChangesOnly.foldl | (with_reducible apply ChangesOnly.step Dev.onEnergy_foot; decide)
    | (with_reducible apply ChangesOnly.step Dev.bayDo_foot; decide) | (with_reducible apply ChangesOnly.step Dev.bayEvent_foot; decide)
    | (with_reducible apply ChangesOnly.step Dev.bayUpd_foot; decide) | (with_reducible apply ChangesOnly.step Dev.disqualify_foot; decide)
    | (with_reducible apply ChangesOnly.step Dev.govTrigger_foot; decide) | (with_reducible apply ChangesOnly.step Dev.interruptTests_foot; decide)
    | with_reducible exact .pair ‹_› ‹_› | split | dsimp only

theorem Dev.bridgeFault_foot {d : Dev} {code : Nat} : ChangesOnly [.expo, .energy, .flint] d (Dev.bridgeFault d code) := by
  unfold Dev.bridgeFault
  try dsimp only
  repeat' first
    | intro _ | with_reducible exact .refl _ _ | with_reducible assumption | with_reducible apply ChangesOnly.ite
    | with_reducible apply ChangesOnly.foldl | (with_reducible apply ChangesOnly.step Dev.onEnergy_foot; decide)
    | (with_reducible apply ChangesOnly.step Dev.raise_foot; decide) | (with_reducible apply ChangesOnly.step Dev.govTrigger_foot; decide)
    | with_reducible exact .pair ‹_› ‹_› | split | dsimp only

theorem Dev.bridgeClear_foot {d : Dev} : ChangesOnly [.expo, .energy, .flint] d (Dev.bridgeClear d) := by
  unfold Dev.bridgeClear
  try dsimp only
  repeat' first
    | intro _ | with_reducible exact .refl _ _ | with_reducible assumption | with_reducible apply ChangesOnly.ite
    | with_reducible apply ChangesOnly.foldl | (with_reducible apply ChangesOnly.step Dev.onEnergy_foot; decide)
    | (with_reducible apply ChangesOnly.step Dev.raise_foot; decide) | (with_reducible apply ChangesOnly.step Dev.govTrigger_foot; decide)
    | with_reducible exact .pair ‹_› ‹_› | split | dsimp only

theorem Dev.takeSample_foot {d : Dev} {s : Nat} {x : Nat × Int × Nat × Nat} : ChangesOnly [.energy, .dw] d (Dev.takeSample d s x) := by
  unfold Dev.takeSample
  try dsimp only
  repeat' first
    | intro _ | with_reducible exact .refl _ _ | with_reducible assumption | with_reducible apply ChangesOnly.ite
    | with_reducible apply ChangesOnly.foldl | (with_reducible apply ChangesOnly.step Dev.onSrc_foot; decide)
    | (with_reducible apply ChangesOnly.step Dev.dwSet_foot; decide) | with_reducible exact .pair ‹_› ‹_› | split | dsimp only

theorem Dev.countDown_foot {d : Dev} {s : Nat} : ChangesOnly [.sealing, .energy] d (Dev.countDown d s) := by
  unfold Dev.countDown
  try dsimp only
  repeat' first
    | intro _ | with_reducible exact .refl _ _ | with_reducible assumption | with_reducible apply ChangesOnly.ite
    | with_reducible apply ChangesOnly.foldl | (with_reducible apply ChangesOnly.step Dev.onSealing_foot; decide)
    | (with_reducible apply ChangesOnly.step Dev.onSrc_foot; decide) | with_reducible exact .pair ‹_› ‹_› | split | dsimp only

theorem Dev.countCharge_foot {d : Dev} {b : Nat} : ChangesOnly [.energy] d (Dev.countCharge d b) := by
  unfold Dev.countCharge
  try dsimp only
  repeat' first
    | intro _ | with_reducible exact .refl _ _ | with_reducible assumption | with_reducible apply ChangesOnly.ite
    | with_reducible apply ChangesOnly.foldl | (with_reducible apply ChangesOnly.step Dev.onEnergy_foot; decide)
    | (with_reducible apply ChangesOnly.step Dev.onBay_foot; decide) | with_reducible exact .pair ‹_› ‹_› | split | dsimp only

theorem Dev.packRun_foot {d : Dev} {b code need : Nat} {cond : Bool} : ChangesOnly [.expo, .energy, .flint, .dw] d (Dev.packRun d b code need cond) := by
  unfold Dev.packRun
  try dsimp only
  repeat' first
    | intro _ | with_reducible exact .refl _ _ | with_reducible assumption | with_reducible apply ChangesOnly.ite
    | with_reducible apply ChangesOnly.foldl | (with_reducible apply ChangesOnly.step Dev.onBay_foot; decide)
    | (with_reducible apply ChangesOnly.step Dev.packFault_foot; decide) | with_reducible exact .pair ‹_› ‹_› | split | dsimp only

theorem Dev.packChecks_foot {d : Dev} {b : Nat} {prev : SourceSt} : ChangesOnly [.expo, .energy, .flint, .dw] d (Dev.packChecks d b prev) := by
  unfold Dev.packChecks
  try dsimp only
  repeat' first
    | intro _ | with_reducible exact .refl _ _ | with_reducible assumption | with_reducible apply ChangesOnly.ite
    | with_reducible apply ChangesOnly.foldl | (with_reducible apply ChangesOnly.step Dev.packRun_foot; decide) | with_reducible exact .pair ‹_› ‹_›
    | split | dsimp only

theorem Dev.bridgeChecks_foot {d : Dev} {prev : SourceSt} : ChangesOnly [.expo, .energy, .flint] d (Dev.bridgeChecks d prev) := by
  unfold Dev.bridgeChecks
  try dsimp only
  repeat' first
    | intro _ | with_reducible exact .refl _ _ | with_reducible assumption | with_reducible apply ChangesOnly.ite
    | with_reducible apply ChangesOnly.foldl | (with_reducible apply ChangesOnly.step Dev.onEnergy_foot; decide)
    | (with_reducible apply ChangesOnly.step Dev.bridgeFault_foot; decide) | (with_reducible apply ChangesOnly.step Dev.bridgeClear_foot; decide)
    | with_reducible exact .pair ‹_› ‹_› | split | dsimp only

theorem Dev.chargeEnd_foot {d : Dev} {b : Nat} {cv : Bool} : ChangesOnly [.energy, .dw] d (Dev.chargeEnd d b cv) := by
  unfold Dev.chargeEnd
  try dsimp only
  repeat' first
    | intro _ | with_reducible exact .refl _ _ | with_reducible assumption | with_reducible apply ChangesOnly.ite
    | with_reducible apply ChangesOnly.foldl | (with_reducible apply ChangesOnly.step Dev.bayDo_foot; decide) | with_reducible exact .pair ‹_› ‹_›
    | split | dsimp only

theorem Dev.testRate_foot {d : Dev} {b : Nat} : ChangesOnly [.energy, .flint, .dw] d (Dev.testRate d b) := by
  unfold Dev.testRate
  try dsimp only
  repeat' first
    | intro _ | with_reducible exact .refl _ _ | with_reducible assumption | with_reducible apply ChangesOnly.ite
    | with_reducible apply ChangesOnly.foldl | (with_reducible apply ChangesOnly.step Dev.onBay_foot; decide)
    | (with_reducible apply ChangesOnly.step Dev.disqualify_foot; decide) | with_reducible exact .pair ‹_› ‹_› | split | dsimp only

theorem Dev.calRun_foot {d : Dev} {b : Nat} : ChangesOnly [.energy] d (Dev.calRun d b) := by
  unfold Dev.calRun
  try dsimp only
  repeat' first
    | intro _ | with_reducible exact .refl _ _ | with_reducible assumption | with_reducible apply ChangesOnly.ite
    | with_reducible apply ChangesOnly.foldl | (with_reducible apply ChangesOnly.step Dev.onBay_foot; decide) | with_reducible exact .pair ‹_› ‹_›
    | split | dsimp only

theorem Dev.restRun_foot {d : Dev} {b : Nat} : ChangesOnly [.energy] d (Dev.restRun d b) := by
  unfold Dev.restRun
  try dsimp only
  repeat' first
    | intro _ | with_reducible exact .refl _ _ | with_reducible assumption | with_reducible apply ChangesOnly.ite
    | with_reducible apply ChangesOnly.foldl | (with_reducible apply ChangesOnly.step Dev.onBay_foot; decide) | with_reducible exact .pair ‹_› ‹_›
    | split | dsimp only

theorem Dev.chargeStep_foot {d : Dev} {b : Nat} : ChangesOnly [.energy, .dw] d (Dev.chargeStep d b) := by
  unfold Dev.chargeStep
  try dsimp only
  repeat' first
    | intro _ | with_reducible exact .refl _ _ | with_reducible assumption | with_reducible apply ChangesOnly.ite
    | with_reducible apply ChangesOnly.foldl | (with_reducible apply ChangesOnly.step Dev.bayDo_foot; decide) | with_reducible exact .pair ‹_› ‹_›
    | split | dsimp only

theorem Dev.sigGrow_foot {d : Dev} {b : Nat} : ChangesOnly [.energy] d (Dev.sigGrow d b) := by
  unfold Dev.sigGrow
  try dsimp only
  repeat' first
    | intro _ | with_reducible exact .refl _ _ | with_reducible assumption | with_reducible apply ChangesOnly.ite
    | with_reducible apply ChangesOnly.foldl | (with_reducible apply ChangesOnly.step Dev.onBay_foot; decide) | with_reducible exact .pair ‹_› ‹_›
    | split | dsimp only

theorem Dev.recount_foot {d : Dev} {b : Nat} : ChangesOnly [.expo, .energy, .dw] d (Dev.recount d b) := by
  unfold Dev.recount
  try dsimp only
  repeat' first
    | intro _ | with_reducible exact .refl _ _ | with_reducible assumption | with_reducible apply ChangesOnly.ite
    | with_reducible apply ChangesOnly.foldl | (with_reducible apply ChangesOnly.step Dev.bayDo_foot; decide)
    | (with_reducible apply ChangesOnly.step Dev.govTrigger_foot; decide) | with_reducible exact .pair ‹_› ‹_› | split | dsimp only

theorem Dev.gaugeWrite_foot {d : Dev} {stage5 : Bool} : ChangesOnly [.energy, .qtz, .slate, .freeN] d (Dev.gaugeWrite d stage5) := by
  unfold Dev.gaugeWrite
  try dsimp only
  repeat' first
    | intro _ | with_reducible exact .refl _ _ | with_reducible assumption | with_reducible apply ChangesOnly.ite
    | with_reducible apply ChangesOnly.foldl | (with_reducible apply ChangesOnly.step Dev.onEnergy_foot; decide)
    | (with_reducible apply ChangesOnly.step Dev.recDue_foot; decide) | (with_reducible apply ChangesOnly.step Dev.recWritePkg_foot; decide)
    | with_reducible exact .pair ‹_› ‹_› | split | dsimp only

theorem Dev.stage2Lead_foot {d : Dev} : ChangesOnly [.pkg, .energy, .qtz, .slate, .freeN] d (Dev.stage2Lead d) := by
  unfold Dev.stage2Lead
  try dsimp only
  repeat' first
    | intro _ | with_reducible exact .refl _ _ | with_reducible assumption | with_reducible apply ChangesOnly.ite
    | with_reducible apply ChangesOnly.foldl | (with_reducible apply ChangesOnly.step Dev.pointCheck_foot; decide)
    | (with_reducible apply ChangesOnly.step Dev.gaugeWrite_foot; decide) | with_reducible exact .pair ‹_› ‹_› | split | dsimp only

theorem Dev.stateWrite_foot {d : Dev} : ChangesOnly [.energy, .qtz, .slate, .freeN] d (Dev.stateWrite d) := by
  unfold Dev.stateWrite
  try dsimp only
  repeat' first
    | intro _ | with_reducible exact .refl _ _ | with_reducible assumption | with_reducible apply ChangesOnly.ite
    | with_reducible apply ChangesOnly.foldl | (with_reducible apply ChangesOnly.step Dev.onEnergy_foot; decide)
    | (with_reducible apply ChangesOnly.step Dev.recWritePkg_foot; decide) | with_reducible exact .pair ‹_› ‹_› | split | dsimp only

theorem Dev.refusePress_foot {d : Dev} {b : Nat} : ChangesOnly [.energy, .flint, .dw] d (Dev.refusePress d b) := by
  unfold Dev.refusePress
  try dsimp only
  repeat' first
    | intro _ | with_reducible exact .refl _ _ | with_reducible assumption | with_reducible apply ChangesOnly.ite
    | with_reducible apply ChangesOnly.foldl | (with_reducible apply ChangesOnly.step Dev.bayDo_foot; decide)
    | (with_reducible apply ChangesOnly.step Dev.bayEvent_foot; decide) | with_reducible exact .pair ‹_› ‹_› | split | dsimp only

theorem Dev.releaseAsk_foot {d : Dev} {b : Nat} : ChangesOnly [.expo, .energy, .flint, .dw] d (Dev.releaseAsk d b) := by
  unfold Dev.releaseAsk
  try dsimp only
  repeat' first
    | intro _ | with_reducible exact .refl _ _ | with_reducible assumption | with_reducible apply ChangesOnly.ite
    | with_reducible apply ChangesOnly.foldl | (with_reducible apply ChangesOnly.step Dev.disqualify_foot; decide)
    | (with_reducible apply ChangesOnly.step Dev.govTrigger_foot; decide) | (with_reducible apply ChangesOnly.step Dev.bayDo_foot; decide)
    | (with_reducible apply ChangesOnly.step Dev.grantBay_foot; decide) | (with_reducible apply ChangesOnly.step Dev.raise_foot; decide)
    | with_reducible exact .pair ‹_› ‹_› | split | dsimp only

theorem Dev.insertPack_foot {d : Dev} {b : Nat} : ChangesOnly [.energy, .flint, .dw] d (Dev.insertPack d b) := by
  unfold Dev.insertPack
  try dsimp only
  repeat' first
    | intro _ | with_reducible exact .refl _ _ | with_reducible assumption | with_reducible apply ChangesOnly.ite
    | with_reducible apply ChangesOnly.foldl | (with_reducible apply ChangesOnly.step Dev.onBay_foot; decide)
    | (with_reducible apply ChangesOnly.step Dev.testRate_foot; decide) | with_reducible exact .pair ‹_› ‹_› | split | dsimp only

/-! ### Flash -/

theorem Dev.onFlow_foot {d : Dev} {t k : Nat} {f : FlashStream → FlashStream} : ChangesOnly [.flash] d (Dev.onFlow d t k f) := by
  unfold Dev.onFlow
  try dsimp only
  repeat' first
    | intro _ | with_reducible exact .refl _ _ | with_reducible assumption | with_reducible apply ChangesOnly.ite
    | with_reducible apply ChangesOnly.foldl | (with_reducible apply ChangesOnly.step Dev.onFl_foot; decide) | with_reducible exact .pair ‹_› ‹_›
    | split | dsimp only

theorem Dev.zoneUse_foot {d : Dev} {t k n : Nat} : ChangesOnly [.flash] d (Dev.zoneUse d t k n) := by
  unfold Dev.zoneUse
  try dsimp only
  repeat' first
    | intro _ | with_reducible exact .refl _ _ | with_reducible assumption | with_reducible apply ChangesOnly.ite
    | with_reducible apply ChangesOnly.foldl | (with_reducible apply ChangesOnly.step Dev.onFl_foot; decide) | with_reducible exact .pair ‹_› ‹_›
    | split | dsimp only

theorem Dev.openFor_foot {d : Dev} {t k : Nat} : ChangesOnly [.expo, .flash] d (Dev.openFor d t k) := by
  unfold Dev.openFor
  try dsimp only
  repeat' first
    | intro _ | with_reducible exact .refl _ _ | with_reducible assumption | with_reducible apply ChangesOnly.ite
    | with_reducible apply ChangesOnly.foldl | (with_reducible apply ChangesOnly.step Dev.onBlk_foot; decide)
    | (with_reducible apply ChangesOnly.step Dev.ledger_foot; decide) | (with_reducible apply ChangesOnly.step Dev.onFl_foot; decide)
    | (with_reducible apply ChangesOnly.step Dev.onFlow_foot; decide) | with_reducible exact .pair ‹_› ‹_› | split | dsimp only

theorem Dev.landOn_foot {d : Dev} {t die : Nat} : ChangesOnly [.flash] d (Dev.landOn d t die).1 := by
  unfold Dev.landOn
  try dsimp only
  repeat' first
    | intro _ | with_reducible exact .refl _ _ | with_reducible assumption | with_reducible apply ChangesOnly.ite
    | with_reducible apply ChangesOnly.foldl | (with_reducible apply ChangesOnly.step Dev.onBlk_foot; decide)
    | (with_reducible apply ChangesOnly.step Dev.onFl_foot; decide) | with_reducible exact .pair ‹_› ‹_› | split | dsimp only

theorem Dev.landPage_foot {d : Dev} {t : Nat} : ChangesOnly [.flash] d (Dev.landPage d t).1 := by
  unfold Dev.landPage
  try dsimp only
  repeat' first
    | intro _ | with_reducible exact .refl _ _ | with_reducible assumption | with_reducible apply ChangesOnly.ite
    | with_reducible apply ChangesOnly.foldl | (with_reducible apply ChangesOnly.step Dev.landOn_foot; decide)
    | (with_reducible apply ChangesOnly.step Dev.onFl_foot; decide) | with_reducible exact .pair ‹_› ‹_› | split | dsimp only

theorem Dev.takePage_foot {d : Dev} {t k : Nat} : ChangesOnly [.expo, .flash] d (Dev.takePage d t k).1 := by
  unfold Dev.takePage
  try dsimp only
  repeat' first
    | intro _ | with_reducible exact .refl _ _ | with_reducible assumption | with_reducible apply ChangesOnly.ite
    | with_reducible apply ChangesOnly.foldl | (with_reducible apply ChangesOnly.step Dev.landPage_foot; decide)
    | (with_reducible apply ChangesOnly.step Dev.openFor_foot; decide) | (with_reducible apply ChangesOnly.step Dev.onFlow_foot; decide)
    | with_reducible exact .pair ‹_› ‹_› | split | dsimp only

theorem Dev.putMetas_foot {d : Dev} {t : Nat} {ms : List MetaRec} : ChangesOnly [.flash] d (Dev.putMetas d t ms) := by
  unfold Dev.putMetas
  try dsimp only
  repeat' first
    | intro _ | with_reducible exact .refl _ _ | with_reducible assumption | with_reducible apply ChangesOnly.ite
    | with_reducible apply ChangesOnly.foldl | (with_reducible apply ChangesOnly.step Dev.onFl_foot; decide) | with_reducible exact .pair ‹_› ‹_›
    | split | dsimp only

theorem Dev.closePage_foot {d : Dev} {t k a : Nat} : ChangesOnly [.flash] d (Dev.closePage d t k a) := by
  unfold Dev.closePage
  try dsimp only
  repeat' first
    | intro _ | with_reducible exact .refl _ _ | with_reducible assumption | with_reducible apply ChangesOnly.ite
    | with_reducible apply ChangesOnly.foldl | (with_reducible apply ChangesOnly.step Dev.putMetas_foot; decide)
    | (with_reducible apply ChangesOnly.step Dev.zoneUse_foot; decide) | (with_reducible apply ChangesOnly.step Dev.onFlow_foot; decide)
    | with_reducible exact .pair ‹_› ‹_› | split | dsimp only

theorem Dev.closeStream_foot {d : Dev} {t k : Nat} : ChangesOnly [.flash] d (Dev.closeStream d t k) := by
  unfold Dev.closeStream
  try dsimp only
  repeat' first
    | intro _ | with_reducible exact .refl _ _ | with_reducible assumption | with_reducible apply ChangesOnly.ite
    | with_reducible apply ChangesOnly.foldl | (with_reducible apply ChangesOnly.step Dev.closePage_foot; decide) | with_reducible exact .pair ‹_› ‹_›
    | split | dsimp only

theorem Dev.drawSlot_foot {d : Dev} {t k : Nat} {elided : Bool} : ChangesOnly [.expo, .flash] d (Dev.drawSlot d t k elided).1 := by
  unfold Dev.drawSlot
  try dsimp only
  repeat' first
    | intro _ | with_reducible exact .refl _ _ | with_reducible assumption | with_reducible apply ChangesOnly.ite
    | with_reducible apply ChangesOnly.foldl | (with_reducible apply ChangesOnly.step Dev.zoneUse_foot; decide)
    | (with_reducible apply ChangesOnly.step Dev.onFlow_foot; decide) | (with_reducible apply ChangesOnly.step Dev.putMetas_foot; decide)
    | (with_reducible apply ChangesOnly.step Dev.takePage_foot; decide) | with_reducible exact .pair ‹_› ‹_› | split | dsimp only

theorem Dev.metaOne_foot {d : Dev} {t : Nat} {m : MetaRec} : ChangesOnly [.expo, .flash] d (Dev.metaOne d t m) := by
  unfold Dev.metaOne
  try dsimp only
  repeat' first
    | intro _ | with_reducible exact .refl _ _ | with_reducible assumption | with_reducible apply ChangesOnly.ite
    | with_reducible apply ChangesOnly.foldl | (with_reducible apply ChangesOnly.step Dev.drawSlot_foot; decide)
    | (with_reducible apply ChangesOnly.step Dev.putMetas_foot; decide) | with_reducible exact .pair ‹_› ‹_› | split | dsimp only

theorem Dev.metaPut_foot {d : Dev} {t kind : Nat} {l : List (Nat × List (Nat × Nat))} : ChangesOnly [.expo, .flash] d (Dev.metaPut d t kind l) := by
  unfold Dev.metaPut
  try dsimp only
  repeat' first
    | intro _ | with_reducible exact .refl _ _ | with_reducible assumption | with_reducible apply ChangesOnly.ite
    | with_reducible apply ChangesOnly.foldl | (with_reducible apply ChangesOnly.step Dev.metaOne_foot; decide)
    | (with_reducible apply ChangesOnly.step Dev.closeStream_foot; decide) | with_reducible exact .pair ‹_› ‹_› | split | dsimp only

theorem Dev.resvPut_foot {d : Dev} {t : Nat} {ms : List MetaRec} : ChangesOnly [.flash] d (Dev.resvPut d t ms) := by
  unfold Dev.resvPut
  try dsimp only
  repeat' first
    | intro _ | with_reducible exact .refl _ _ | with_reducible assumption | with_reducible apply ChangesOnly.ite
    | with_reducible apply ChangesOnly.foldl | (with_reducible apply ChangesOnly.step Dev.putMetas_foot; decide)
    | (with_reducible apply ChangesOnly.step Dev.onBlk_foot; decide) | with_reducible exact .pair ‹_› ‹_› | split | dsimp only

theorem Dev.resvFill_foot {d : Dev} {t : Nat} : ChangesOnly [.flash] d (Dev.resvFill d t) := by
  unfold Dev.resvFill
  try dsimp only
  repeat' first
    | intro _ | with_reducible exact .refl _ _ | with_reducible assumption | with_reducible apply ChangesOnly.ite
    | with_reducible apply ChangesOnly.foldl | (with_reducible apply ChangesOnly.step Dev.onFl_foot; decide) | with_reducible exact .pair ‹_› ‹_›
    | split | dsimp only

/-! ### Records -/

theorem Dev.ctxSave_foot {d : Dev} {c : Nat} : ChangesOnly [.expo, .flash] d (Dev.ctxSave d c) := by
  unfold Dev.ctxSave
  try dsimp only
  repeat' first
    | intro _ | with_reducible exact .refl _ _ | with_reducible assumption | with_reducible apply ChangesOnly.ite
    | with_reducible apply ChangesOnly.foldl | (with_reducible apply ChangesOnly.step Dev.metaPut_foot; decide) | with_reducible exact .pair ‹_› ‹_›
    | split | dsimp only

theorem Dev.ctxTo_foot {d : Dev} {c st : Nat} : ChangesOnly [.expo, .flash, .ctxs] d (Dev.ctxTo d c st) := by
  unfold Dev.ctxTo
  try dsimp only
  repeat' first
    | intro _ | with_reducible exact .refl _ _ | with_reducible assumption | with_reducible apply ChangesOnly.ite
    | with_reducible apply ChangesOnly.foldl | (with_reducible apply ChangesOnly.step Dev.ctxState_foot; decide)
    | (with_reducible apply ChangesOnly.step Dev.ctxSave_foot; decide) | with_reducible exact .pair ‹_› ‹_› | split | dsimp only

theorem Dev.rtSave_foot {d : Dev} {g : Nat} : ChangesOnly [.expo, .flash] d (Dev.rtSave d g) := by
  unfold Dev.rtSave
  try dsimp only
  repeat' first
    | intro _ | with_reducible exact .refl _ _ | with_reducible assumption | with_reducible apply ChangesOnly.ite
    | with_reducible apply ChangesOnly.foldl | (with_reducible apply ChangesOnly.step Dev.metaPut_foot; decide) | with_reducible exact .pair ‹_› ‹_›
    | split | dsimp only

theorem Dev.keySave_foot {d : Dev} {t c : Nat} : ChangesOnly [.expo, .flash] d (Dev.keySave d t c) := by
  unfold Dev.keySave
  try dsimp only
  repeat' first
    | intro _ | with_reducible exact .refl _ _ | with_reducible assumption | with_reducible apply ChangesOnly.ite
    | with_reducible apply ChangesOnly.foldl | (with_reducible apply ChangesOnly.step Dev.metaPut_foot; decide) | with_reducible exact .pair ‹_› ‹_›
    | split | dsimp only

theorem Dev.keyDraw_foot {d : Dev} {c : Nat} : ChangesOnly [.expo, .flash, .ctxs, .freeN] d (Dev.keyDraw d c) := by
  unfold Dev.keyDraw
  try dsimp only
  repeat' first
    | intro _ | with_reducible exact .refl _ _ | with_reducible assumption | with_reducible apply ChangesOnly.ite
    | with_reducible apply ChangesOnly.foldl | (with_reducible apply ChangesOnly.step Dev.onCtx_foot; decide)
    | (with_reducible apply ChangesOnly.step Dev.tick_foot; decide) | (with_reducible apply ChangesOnly.step Dev.keySave_foot; decide)
    | with_reducible exact .pair ‹_› ‹_› | split | dsimp only

theorem Dev.ringSave_foot {d : Dev} {c k : Nat} : ChangesOnly [.expo, .flash] d (Dev.ringSave d c k) := by
  unfold Dev.ringSave
  try dsimp only
  repeat' first
    | intro _ | with_reducible exact .refl _ _ | with_reducible assumption | with_reducible apply ChangesOnly.ite
    | with_reducible apply ChangesOnly.foldl | (with_reducible apply ChangesOnly.step Dev.metaPut_foot; decide) | with_reducible exact .pair ‹_› ‹_›
    | split | dsimp only

theorem Dev.meterSave_foot {d : Dev} {t : Nat} : ChangesOnly [.expo, .flash, .ctxs] d (Dev.meterSave d t) := by
  unfold Dev.meterSave
  try dsimp only
  repeat' first
    | intro _ | with_reducible exact .refl _ _ | with_reducible assumption | with_reducible apply ChangesOnly.ite
    | with_reducible apply ChangesOnly.foldl | (with_reducible apply ChangesOnly.step Dev.onCtxs_foot; decide)
    | (with_reducible apply ChangesOnly.step Dev.metaPut_foot; decide) | (with_reducible apply ChangesOnly.step Dev.onFl_foot; decide)
    | with_reducible exact .pair ‹_› ‹_› | split | dsimp only

/-! ### Trickle -/

theorem Dev.keyLost_foot {d : Dev} {t c : Nat} : ChangesOnly [.mem, .expo, .restore, .flash, .ctxs, .dram, .flint, .lat, .heads, .dw, .out] d (Dev.keyLost d t c) := by
  unfold Dev.keyLost
  try dsimp only
  repeat' first
    | intro _ | with_reducible exact .refl _ _ | with_reducible assumption | with_reducible apply ChangesOnly.ite
    | with_reducible apply ChangesOnly.foldl | (with_reducible apply ChangesOnly.step Dev.onCtxs_foot; decide)
    | (with_reducible apply ChangesOnly.step Dev.onCtx_foot; decide) | (with_reducible apply ChangesOnly.step Dev.ctxTo_foot; decide)
    | (with_reducible apply ChangesOnly.step Dev.raise_foot; decide) | (with_reducible apply ChangesOnly.step Dev.pagePoison_foot; decide)
    | (with_reducible apply ChangesOnly.step Dev.cleanPages_foot; decide) | (with_reducible apply ChangesOnly.step Dev.revDone_foot; decide)
    | with_reducible exact .pair ‹_› ‹_› | split | dsimp only

theorem Dev.useKey_foot {d : Dev} {t c err : Nat} : ChangesOnly [.mem, .expo, .restore, .flash, .ctxs, .dram, .flint, .lat, .heads, .dw, .out] d (Dev.useKey d t c err) := by
  unfold Dev.useKey
  try dsimp only
  repeat' first
    | intro _ | with_reducible exact .refl _ _ | with_reducible assumption | with_reducible apply ChangesOnly.ite
    | with_reducible apply ChangesOnly.foldl | (with_reducible apply ChangesOnly.step Dev.onCtxs_foot; decide)
    | (with_reducible apply ChangesOnly.step Dev.keyLost_foot; decide) | with_reducible exact .pair ‹_› ‹_› | split | dsimp only

theorem Dev.issue_foot {d : Dev} {t a : Nat} : ChangesOnly [.expo, .flash] d (Dev.issue d t a) := by
  unfold Dev.issue
  try dsimp only
  repeat' first
    | intro _ | with_reducible exact .refl _ _ | with_reducible assumption | with_reducible apply ChangesOnly.ite
    | with_reducible apply ChangesOnly.foldl | (with_reducible apply ChangesOnly.step Dev.onExpo_foot; decide)
    | (with_reducible apply ChangesOnly.step Dev.closePage_foot; decide) | with_reducible exact .pair ‹_› ‹_› | split | dsimp only

theorem Dev.capture_foot {d : Dev} {t p : Nat} {atSeal fence : Bool} : ChangesOnly [.expo, .flash] d (Dev.capture d t p atSeal fence) := by
  unfold Dev.capture
  try dsimp only
  repeat' first
    | intro _ | with_reducible exact .refl _ _ | with_reducible assumption | with_reducible apply ChangesOnly.ite
    | with_reducible apply ChangesOnly.foldl | (with_reducible apply ChangesOnly.step Dev.onExpo_foot; decide)
    | (with_reducible apply ChangesOnly.step Dev.drawSlot_foot; decide) | (with_reducible apply ChangesOnly.step Dev.issue_foot; decide)
    | with_reducible exact .pair ‹_› ‹_› | split | dsimp only

theorem Dev.mapEntries_foot {d : Dev} {f : RingEntry → RingEntry} : ChangesOnly [.ctxs] d (Dev.mapEntries d f) := by
  unfold Dev.mapEntries
  try dsimp only
  repeat' first
    | intro _ | with_reducible exact .refl _ _ | with_reducible assumption | with_reducible apply ChangesOnly.ite
    | with_reducible apply ChangesOnly.foldl | (with_reducible apply ChangesOnly.step Dev.onCtxs_foot; decide) | with_reducible exact .pair ‹_› ‹_›
    | split | dsimp only

theorem Dev.fenceRecord_foot {d : Dev} {p v : Nat} : ChangesOnly [.ctxs] d (Dev.fenceRecord d p v) := by
  unfold Dev.fenceRecord
  try dsimp only
  repeat' first
    | intro _ | with_reducible exact .refl _ _ | with_reducible assumption | with_reducible apply ChangesOnly.ite
    | with_reducible apply ChangesOnly.foldl | (with_reducible apply ChangesOnly.step Dev.mapEntries_foot; decide)
    | with_reducible exact .pair ‹_› ‹_› | split | dsimp only

theorem Dev.putRec_foot {d : Dev} {t : Nat} {r : PageRec} : ChangesOnly [.strata, .flash, .ctxs] d (Dev.putRec d t r) := by
  unfold Dev.putRec
  try dsimp only
  repeat' first
    | intro _ | with_reducible exact .refl _ _ | with_reducible assumption | with_reducible apply ChangesOnly.ite
    | with_reducible apply ChangesOnly.foldl | (with_reducible apply ChangesOnly.step Dev.onStrata_foot; decide)
    | (with_reducible apply ChangesOnly.step Dev.onFl_foot; decide) | (with_reducible apply ChangesOnly.step Dev.onMeter_foot; decide)
    | with_reducible exact .pair ‹_› ‹_› | split | dsimp only

theorem Dev.recordDone_foot {d : Dev} {t : Nat} {f : InFlight} : ChangesOnly [.expo, .sealing, .strata, .flash, .ctxs] d (Dev.recordDone d t f) := by
  unfold Dev.recordDone
  try dsimp only
  repeat' first
    | intro _ | with_reducible exact .refl _ _ | with_reducible assumption | with_reducible apply ChangesOnly.ite
    | with_reducible apply ChangesOnly.foldl | (with_reducible apply ChangesOnly.step Dev.onExpo_foot; decide)
    | (with_reducible apply ChangesOnly.step Dev.onSealing_foot; decide) | (with_reducible apply ChangesOnly.step Dev.putRec_foot; decide)
    | (with_reducible apply ChangesOnly.step Dev.cleanPages_foot; decide) | (with_reducible apply ChangesOnly.step Dev.fenceRecord_foot; decide)
    | with_reducible exact .pair ‹_› ‹_› | split | dsimp only

theorem Dev.capUse_foot {d : Dev} {t bytes : Nat} : ChangesOnly [.flash] d (Dev.capUse d t bytes) := by
  unfold Dev.capUse
  try dsimp only
  repeat' first
    | intro _ | with_reducible exact .refl _ _ | with_reducible assumption | with_reducible apply ChangesOnly.ite
    | with_reducible apply ChangesOnly.foldl | (with_reducible apply ChangesOnly.step Dev.onFl_foot; decide) | with_reducible exact .pair ‹_› ‹_›
    | split | dsimp only

theorem Dev.rateUse_foot {d : Dev} {t : Nat} {elided : Bool} : ChangesOnly [.flash] d (Dev.rateUse d t elided) := by
  unfold Dev.rateUse
  try dsimp only
  repeat' first
    | intro _ | with_reducible exact .refl _ _ | with_reducible assumption | with_reducible apply ChangesOnly.ite
    | with_reducible apply ChangesOnly.foldl | (with_reducible apply ChangesOnly.step Dev.onFl_foot; decide)
    | (with_reducible apply ChangesOnly.step Dev.capUse_foot; decide) | with_reducible exact .pair ‹_› ‹_› | split | dsimp only

theorem Dev.stagePages_foot {d : Dev} {t : Nat} {n : Nat} : ChangesOnly [.expo, .flash] d (Dev.stagePages d t n) := by
  induction n generalizing d with
  | zero => exact .refl _ _
  | succ n ih =>
    unfold Dev.stagePages
    try dsimp only
    repeat' first
      | intro _ | with_reducible exact .refl _ _ | with_reducible assumption | with_reducible apply ChangesOnly.ite
      | with_reducible apply ChangesOnly.foldl | (with_reducible apply ChangesOnly.step ih; decide)
      | (with_reducible apply ChangesOnly.step Dev.capture_foot; decide) | with_reducible exact .pair ‹_› ‹_› | split | dsimp only

theorem Dev.landNext_foot {d : Dev} {t : Nat} : ChangesOnly [.expo, .sealing, .flash] d (Dev.landNext d t) := by
  unfold Dev.landNext
  try dsimp only
  repeat' first
    | intro _ | with_reducible exact .refl _ _ | with_reducible assumption | with_reducible apply ChangesOnly.ite
    | with_reducible apply ChangesOnly.foldl | (with_reducible apply ChangesOnly.step Dev.onSealing_foot; decide)
    | (with_reducible apply ChangesOnly.step Dev.issue_foot; decide) | (with_reducible apply ChangesOnly.step Dev.stagePages_foot; decide)
    | (with_reducible apply ChangesOnly.step Dev.drawSlot_foot; decide) | (with_reducible apply ChangesOnly.step Dev.putMetas_foot; decide)
    | with_reducible exact .pair ‹_› ‹_› | split | dsimp only

theorem Dev.landUe_foot {d : Dev} {t : Nat} {ue : List (Nat × Nat)} : ChangesOnly [.mem, .expo, .dram, .flint, .heads, .slate, .dw] d (Dev.landUe d t ue) := by
  unfold Dev.landUe
  try dsimp only
  repeat' first
    | intro _ | with_reducible exact .refl _ _ | with_reducible assumption | with_reducible apply ChangesOnly.ite
    | with_reducible apply ChangesOnly.foldl | (with_reducible apply ChangesOnly.step Dev.lineUe_foot; decide) | with_reducible exact .pair ‹_› ‹_›
    | split | dsimp only

/-! ### Contexts -/

theorem Dev.stopStream_foot {d : Dev} {s : Stream} : ChangesOnly [.flint, .lat, .out] d (Dev.stopStream d s) := by
  unfold Dev.stopStream
  try dsimp only
  repeat' first
    | intro _ | with_reducible exact .refl _ _ | with_reducible assumption | with_reducible apply ChangesOnly.ite
    | with_reducible apply ChangesOnly.foldl | (with_reducible apply ChangesOnly.step Dev.onLat_foot; decide)
    | (with_reducible apply ChangesOnly.step Dev.sendMsg_foot; decide) | with_reducible exact .pair ‹_› ‹_› | split | dsimp only

theorem Dev.stopStreams_foot {d : Dev} {c : Nat} : ChangesOnly [.flint, .lat, .out] d (Dev.stopStreams d c) := by
  unfold Dev.stopStreams
  try dsimp only
  repeat' first
    | intro _ | with_reducible exact .refl _ _ | with_reducible assumption | with_reducible apply ChangesOnly.ite
    | with_reducible apply ChangesOnly.foldl | (with_reducible apply ChangesOnly.step Dev.stopStream_foot; decide)
    | with_reducible exact .pair ‹_› ‹_› | split | dsimp only

theorem Dev.disarmIf_foot {d : Dev} {f : Nat → Bool} : ChangesOnly [.expo] d (Dev.disarmIf d f) := by
  unfold Dev.disarmIf
  try dsimp only
  repeat' first
    | intro _ | with_reducible exact .refl _ _ | with_reducible assumption | with_reducible apply ChangesOnly.ite
    | with_reducible apply ChangesOnly.foldl | (with_reducible apply ChangesOnly.step Dev.onExpo_foot; decide) | with_reducible exact .pair ‹_› ‹_›
    | split | dsimp only

theorem Dev.clearLoc_foot {d : Dev} {f : Nat → Bool} : ChangesOnly [.strata, .flash] d (Dev.clearLoc d f) := by
  unfold Dev.clearLoc
  try dsimp only
  repeat' first
    | intro _ | with_reducible exact .refl _ _ | with_reducible assumption | with_reducible apply ChangesOnly.ite
    | with_reducible apply ChangesOnly.foldl | (with_reducible apply ChangesOnly.step Dev.onStrata_foot; decide)
    | (with_reducible apply ChangesOnly.step Dev.onFl_foot; decide) | with_reducible exact .pair ‹_› ‹_› | split | dsimp only

theorem Dev.trimGranule_foot {d : Dev} {c g : Nat} : ChangesOnly [.expo, .strata, .flash] d (Dev.trimGranule d c g) := by
  unfold Dev.trimGranule
  try dsimp only
  repeat' first
    | intro _ | with_reducible exact .refl _ _ | with_reducible assumption | with_reducible apply ChangesOnly.ite
    | with_reducible apply ChangesOnly.foldl | (with_reducible apply ChangesOnly.step Dev.onStrata_foot; decide)
    | (with_reducible apply ChangesOnly.step Dev.ledgerAll_foot; decide) | (with_reducible apply ChangesOnly.step Dev.clearLoc_foot; decide)
    | (with_reducible apply ChangesOnly.step Dev.cleanPages_foot; decide) | (with_reducible apply ChangesOnly.step Dev.disarmIf_foot; decide)
    | with_reducible exact .pair ‹_› ‹_› | split | dsimp only

theorem Dev.zeroGranule_foot {d : Dev} {g : Nat} : ChangesOnly [.mem, .expo, .restore, .strata, .flash, .ctxs, .dram, .flint, .lat, .heads, .dw, .out] d (Dev.zeroGranule d g) := by
  unfold Dev.zeroGranule
  try dsimp only
  repeat' first
    | intro _ | with_reducible exact .refl _ _ | with_reducible assumption | with_reducible apply ChangesOnly.ite
    | with_reducible apply ChangesOnly.foldl | (with_reducible apply ChangesOnly.step Dev.onMem_foot; decide)
    | (with_reducible apply ChangesOnly.step Dev.onExpo_foot; decide) | (with_reducible apply ChangesOnly.step Dev.onHead_foot; decide)
    | (with_reducible apply ChangesOnly.step Dev.clearLoc_foot; decide) | (with_reducible apply ChangesOnly.step Dev.markRange_foot; decide)
    | (with_reducible apply ChangesOnly.step Dev.cleanPages_foot; decide) | (with_reducible apply ChangesOnly.step Dev.fetchDone_foot; decide)
    | with_reducible exact .pair ‹_› ‹_› | split | dsimp only

theorem Dev.evtIrq_foot {d : Dev} {h log : Nat} : ChangesOnly [.heads, .out] d (Dev.evtIrq d h log) := by
  unfold Dev.evtIrq
  try dsimp only
  repeat' first
    | intro _ | with_reducible exact .refl _ _ | with_reducible assumption | with_reducible apply ChangesOnly.ite
    | with_reducible apply ChangesOnly.foldl | (with_reducible apply ChangesOnly.step Dev.fire_foot; decide) | with_reducible exact .pair ‹_› ‹_›
    | split | dsimp only

theorem Dev.dcPost_foot {d : Dev} {h kind c : Nat} {gs : List Nat} : ChangesOnly [.heads, .out] d (Dev.dcPost d h kind c gs) := by
  unfold Dev.dcPost
  try dsimp only
  repeat' first
    | intro _ | with_reducible exact .refl _ _ | with_reducible assumption | with_reducible apply ChangesOnly.ite
    | with_reducible apply ChangesOnly.foldl | (with_reducible apply ChangesOnly.step Dev.onHead_foot; decide)
    | (with_reducible apply ChangesOnly.step Dev.emit_foot; decide) | (with_reducible apply ChangesOnly.step Dev.evtIrq_foot; decide)
    | with_reducible exact .pair ‹_› ‹_› | split | dsimp only

theorem Dev.dcOffer_foot {d : Dev} {h c : Nat} {gs : List Nat} {release : Bool} {deadline : Option Nat} {by_ : Nat} : ChangesOnly [.expo, .flash, .ctxs, .heads, .out] d (Dev.dcOffer d h c gs release deadline by_) := by
  unfold Dev.dcOffer
  try dsimp only
  repeat' first
    | intro _ | with_reducible exact .refl _ _ | with_reducible assumption | with_reducible apply ChangesOnly.ite
    | with_reducible apply ChangesOnly.foldl | (with_reducible apply ChangesOnly.step Dev.onHead_foot; decide)
    | (with_reducible apply ChangesOnly.step Dev.onCtx_foot; decide) | (with_reducible apply ChangesOnly.step Dev.ctxSave_foot; decide)
    | (with_reducible apply ChangesOnly.step Dev.dcPost_foot; decide) | with_reducible exact .pair ‹_› ‹_› | split | dsimp only

theorem Dev.dcSettle_foot {d : Dev} {c : Nat} : ChangesOnly [.expo, .flash, .ctxs] d (Dev.dcSettle d c) := by
  unfold Dev.dcSettle
  try dsimp only
  repeat' first
    | intro _ | with_reducible exact .refl _ _ | with_reducible assumption | with_reducible apply ChangesOnly.ite
    | with_reducible apply ChangesOnly.foldl | (with_reducible apply ChangesOnly.step Dev.onCtx_foot; decide)
    | (with_reducible apply ChangesOnly.step Dev.ctxSave_foot; decide) | with_reducible exact .pair ‹_› ‹_› | split | dsimp only

theorem Dev.dcForced_foot {d : Dev} {h c : Nat} {gs : List Nat} : ChangesOnly [.expo, .flash, .ctxs, .heads, .out] d (Dev.dcForced d h c gs) := by
  unfold Dev.dcForced
  try dsimp only
  repeat' first
    | intro _ | with_reducible exact .refl _ _ | with_reducible assumption | with_reducible apply ChangesOnly.ite
    | with_reducible apply ChangesOnly.foldl | (with_reducible apply ChangesOnly.step Dev.onHead_foot; decide)
    | (with_reducible apply ChangesOnly.step Dev.dcSettle_foot; decide) | (with_reducible apply ChangesOnly.step Dev.dcPost_foot; decide)
    | with_reducible exact .pair ‹_› ‹_› | split | dsimp only

theorem Dev.ringError_foot {d : Dev} {c k err : Nat} : ChangesOnly [.ctxs, .flint] d (Dev.ringError d c k err) := by
  unfold Dev.ringError
  try dsimp only
  repeat' first
    | intro _ | with_reducible exact .refl _ _ | with_reducible assumption | with_reducible apply ChangesOnly.ite
    | with_reducible apply ChangesOnly.foldl | (with_reducible apply ChangesOnly.step Dev.onRing_foot; decide)
    | (with_reducible apply ChangesOnly.step Dev.raise_foot; decide) | with_reducible exact .pair ‹_› ‹_› | split | dsimp only

theorem Dev.ringAreas_foot {d : Dev} {c : Nat} : ChangesOnly [.ctxs, .flint] d (Dev.ringAreas d c) := by
  unfold Dev.ringAreas
  try dsimp only
  repeat' first
    | intro _ | with_reducible exact .refl _ _ | with_reducible assumption | with_reducible apply ChangesOnly.ite
    | with_reducible apply ChangesOnly.foldl | (with_reducible apply ChangesOnly.step Dev.ringError_foot; decide) | with_reducible exact .pair ‹_› ‹_›
    | split | dsimp only

theorem Dev.rtChange_foot {d : Dev} {x : RtChange} : ChangesOnly [.ctxs] d (Dev.rtChange d x) := by
  unfold Dev.rtChange
  try dsimp only
  repeat' first
    | intro _ | with_reducible exact .refl _ _ | with_reducible assumption | with_reducible apply ChangesOnly.ite
    | with_reducible apply ChangesOnly.foldl | (with_reducible apply ChangesOnly.step Dev.onCtxs_foot; decide) | with_reducible exact .pair ‹_› ‹_›
    | split | dsimp only

theorem Dev.rollbackEnd_foot {d : Dev} {c : Nat} : ChangesOnly [.expo, .flash, .ctxs, .flint] d (Dev.rollbackEnd d c) := by
  unfold Dev.rollbackEnd
  try dsimp only
  repeat' first
    | intro _ | with_reducible exact .refl _ _ | with_reducible assumption | with_reducible apply ChangesOnly.ite
    | with_reducible apply ChangesOnly.foldl | (with_reducible apply ChangesOnly.step Dev.onCtx_foot; decide)
    | (with_reducible apply ChangesOnly.step Dev.ctxTo_foot; decide) | (with_reducible apply ChangesOnly.step Dev.raise_foot; decide)
    | (with_reducible apply ChangesOnly.step Dev.ctxSave_foot; decide) | with_reducible exact .pair ‹_› ‹_› | split | dsimp only

theorem Dev.rtCommit_foot {d : Dev} {x : RtChange} : ChangesOnly [.mem, .expo, .restore, .strata, .flash, .ctxs, .dram, .flint, .lat, .heads, .jcs, .mirror, .dw, .out] d (Dev.rtCommit d x) := by
  unfold Dev.rtCommit
  try dsimp only
  repeat' first
    | intro _ | with_reducible exact .refl _ _ | with_reducible assumption | with_reducible apply ChangesOnly.ite
    | with_reducible apply ChangesOnly.foldl | (with_reducible apply ChangesOnly.step Dev.onCtxs_foot; decide)
    | (with_reducible apply ChangesOnly.step Dev.onExpo_foot; decide) | (with_reducible apply ChangesOnly.step Dev.trimGranule_foot; decide)
    | (with_reducible apply ChangesOnly.step Dev.onGran_foot; decide) | (with_reducible apply ChangesOnly.step Dev.rtSave_foot; decide)
    | (with_reducible apply ChangesOnly.step Dev.ctxSave_foot; decide) | (with_reducible apply ChangesOnly.step Dev.rollbackEnd_foot; decide)
    | (with_reducible apply ChangesOnly.step Dev.dcOffer_foot; decide) | (with_reducible apply ChangesOnly.step Dev.onHead_foot; decide)
    | (with_reducible apply ChangesOnly.step Dev.ringAreas_foot; decide) | (with_reducible apply ChangesOnly.step Dev.serve_foot; decide)
    | (with_reducible apply ChangesOnly.step Dev.bgEndAny_foot; decide) | with_reducible exact .pair ‹_› ‹_› | split | dsimp only

theorem Dev.releaseGran_foot {d : Dev} {g : Nat} : ChangesOnly [.ctxs] d (Dev.releaseGran d g) := by
  unfold Dev.releaseGran
  try dsimp only
  repeat' first
    | intro _ | with_reducible exact .refl _ _ | with_reducible assumption | with_reducible apply ChangesOnly.ite
    | with_reducible apply ChangesOnly.foldl | (with_reducible apply ChangesOnly.step Dev.rtChange_foot; decide) | with_reducible exact .pair ‹_› ‹_›
    | split | dsimp only

theorem Dev.releaseStratum_foot {d : Dev} {c time : Nat} : ChangesOnly [.expo, .strata, .flash] d (Dev.releaseStratum d c time) := by
  unfold Dev.releaseStratum
  try dsimp only
  repeat' first
    | intro _ | with_reducible exact .refl _ _ | with_reducible assumption | with_reducible apply ChangesOnly.ite
    | with_reducible apply ChangesOnly.foldl | (with_reducible apply ChangesOnly.step Dev.onStrata_foot; decide)
    | (with_reducible apply ChangesOnly.step Dev.ledgerAll_foot; decide) | (with_reducible apply ChangesOnly.step Dev.ctxSave_foot; decide)
    | with_reducible exact .pair ‹_› ‹_› | split | dsimp only

theorem Dev.stratumOn_foot {d : Dev} {c ts tag t : Nat} : ChangesOnly [.expo, .flash] d (Dev.stratumOn d c ts tag t) := by
  unfold Dev.stratumOn
  try dsimp only
  repeat' first
    | intro _ | with_reducible exact .refl _ _ | with_reducible assumption | with_reducible apply ChangesOnly.ite
    | with_reducible apply ChangesOnly.foldl | (with_reducible apply ChangesOnly.step Dev.ledger_foot; decide)
    | (with_reducible apply ChangesOnly.step Dev.metaOne_foot; decide) | (with_reducible apply ChangesOnly.step Dev.closeStream_foot; decide)
    | with_reducible exact .pair ‹_› ‹_› | split | dsimp only

theorem Dev.createStratum_foot {d : Dev} {c ts tag : Nat} : ChangesOnly [.expo, .strata, .flash, .ctxs] d (Dev.createStratum d c ts tag) := by
  unfold Dev.createStratum
  try dsimp only
  repeat' first
    | intro _ | with_reducible exact .refl _ _ | with_reducible assumption | with_reducible apply ChangesOnly.ite
    | with_reducible apply ChangesOnly.foldl | (with_reducible apply ChangesOnly.step Dev.onStrata_foot; decide)
    | (with_reducible apply ChangesOnly.step Dev.onMeter_foot; decide) | (with_reducible apply ChangesOnly.step Dev.ctxSave_foot; decide)
    | (with_reducible apply ChangesOnly.step Dev.releaseStratum_foot; decide) | with_reducible exact .pair ‹_› ‹_› | split | dsimp only

theorem Dev.ageStrata_foot {d : Dev} {c : Nat} : ChangesOnly [.expo, .strata, .flash] d (Dev.ageStrata d c) := by
  unfold Dev.ageStrata
  try dsimp only
  repeat' first
    | intro _ | with_reducible exact .refl _ _ | with_reducible assumption | with_reducible apply ChangesOnly.ite
    | with_reducible apply ChangesOnly.foldl | (with_reducible apply ChangesOnly.step Dev.releaseStratum_foot; decide)
    | with_reducible exact .pair ‹_› ‹_› | split | dsimp only

theorem Dev.sanitizeEnd_foot {d : Dev} {c : Nat} : ChangesOnly [.mem, .expo, .restore, .flash, .ctxs, .dram, .flint, .lat, .heads, .jcs, .mirror, .dw, .out] d (Dev.sanitizeEnd d c) := by
  unfold Dev.sanitizeEnd
  try dsimp only
  repeat' first
    | intro _ | with_reducible exact .refl _ _ | with_reducible assumption | with_reducible apply ChangesOnly.ite
    | with_reducible apply ChangesOnly.foldl | (with_reducible apply ChangesOnly.step Dev.ctxState_foot; decide)
    | (with_reducible apply ChangesOnly.step Dev.cutMeter_foot; decide) | (with_reducible apply ChangesOnly.step Dev.onCtx_foot; decide)
    | (with_reducible apply ChangesOnly.step Dev.keyLost_foot; decide) | (with_reducible apply ChangesOnly.step Dev.ctxSave_foot; decide)
    | (with_reducible apply ChangesOnly.step Dev.bgEndAny_foot; decide) | with_reducible exact .pair ‹_› ‹_› | split | dsimp only

theorem Dev.keyErase_foot {d : Dev} {c : Nat} : ChangesOnly [.expo, .flash, .ctxs] d (Dev.keyErase d c) := by
  unfold Dev.keyErase
  try dsimp only
  repeat' first
    | intro _ | with_reducible exact .refl _ _ | with_reducible assumption | with_reducible apply ChangesOnly.ite
    | with_reducible apply ChangesOnly.foldl | (with_reducible apply ChangesOnly.step Dev.onCtxs_foot; decide)
    | (with_reducible apply ChangesOnly.step Dev.onCtx_foot; decide) | (with_reducible apply ChangesOnly.step Dev.keySave_foot; decide)
    | with_reducible exact .pair ‹_› ‹_› | split | dsimp only

/-! ### Exposure -/

theorem Dev.replicaReload_foot {d : Dev} {bad : Bool} {dpaPage : Nat} : ChangesOnly [.flint] d (Dev.replicaReload d bad dpaPage) := by
  unfold Dev.replicaReload
  try dsimp only
  repeat' first
    | intro _ | with_reducible exact .refl _ _ | with_reducible assumption | with_reducible apply ChangesOnly.ite
    | with_reducible apply ChangesOnly.foldl | (with_reducible apply ChangesOnly.step Dev.raise_foot; decide) | with_reducible exact .pair ‹_› ‹_›
    | split | dsimp only

theorem Dev.dirtyGroup_foot {d : Dev} {g : Nat} : ChangesOnly [.expo, .flint] d (Dev.dirtyGroup d g) := by
  unfold Dev.dirtyGroup
  try dsimp only
  repeat' first
    | intro _ | with_reducible exact .refl _ _ | with_reducible assumption | with_reducible apply ChangesOnly.ite
    | with_reducible apply ChangesOnly.foldl | (with_reducible apply ChangesOnly.step Dev.dirtyArmed_foot; decide)
    | with_reducible exact .pair ‹_› ‹_› | split | dsimp only

theorem Dev.restoredRebuild_foot {d : Dev} {t : Nat} {ps : List Nat} : ChangesOnly [.restore] d (Dev.restoredRebuild d t ps) := by
  unfold Dev.restoredRebuild
  try dsimp only
  repeat' first
    | intro _ | with_reducible exact .refl _ _ | with_reducible assumption | with_reducible apply ChangesOnly.ite
    | with_reducible apply ChangesOnly.foldl | (with_reducible apply ChangesOnly.step Dev.onRestore_foot; decide)
    | (with_reducible apply ChangesOnly.step Dev.markRestored_foot; decide) | with_reducible exact .pair ‹_› ‹_› | split | dsimp only

theorem Dev.rollbackRebuild_foot {d : Dev} {g : Nat} : ChangesOnly [.ctxs] d (Dev.rollbackRebuild d g) := by
  unfold Dev.rollbackRebuild
  try dsimp only
  repeat' first
    | intro _ | with_reducible exact .refl _ _ | with_reducible assumption | with_reducible apply ChangesOnly.ite
    | with_reducible apply ChangesOnly.foldl | (with_reducible apply ChangesOnly.step Dev.onCtxs_foot; decide) | with_reducible exact .pair ‹_› ‹_›
    | split | dsimp only

theorem Dev.reserveRepair_foot {d : Dev} {t off devs : Nat} {lost : Bool} : ChangesOnly [.expo, .restore, .flash, .ctxs, .dram, .flint, .lat, .slate, .dw] d (Dev.reserveRepair d t off devs lost) := by
  unfold Dev.reserveRepair
  try dsimp only
  repeat' first
    | intro _ | with_reducible exact .refl _ _ | with_reducible assumption | with_reducible apply ChangesOnly.ite
    | with_reducible apply ChangesOnly.foldl | (with_reducible apply ChangesOnly.step Dev.ueEvent_foot; decide)
    | (with_reducible apply ChangesOnly.step Dev.raise_foot; decide) | (with_reducible apply ChangesOnly.step Dev.dirtyGroup_foot; decide)
    | (with_reducible apply ChangesOnly.step Dev.dirtyArmed_foot; decide) | (with_reducible apply ChangesOnly.step Dev.ckptStart_foot; decide)
    | (with_reducible apply ChangesOnly.step Dev.restoredRebuild_foot; decide)
    | (with_reducible apply ChangesOnly.step Dev.rollbackRebuild_foot; decide) | (with_reducible apply ChangesOnly.step Dev.replicaMark_foot; decide)
    | with_reducible exact .pair ‹_› ‹_› | split | dsimp only

theorem Dev.lineBad_foot {d : Dev} {l devs : Nat} : ChangesOnly [.mem, .expo, .restore, .flash, .ctxs, .dram, .flint, .lat, .heads, .slate, .dw] d (Dev.lineBad d l devs) := by
  unfold Dev.lineBad
  try dsimp only
  repeat' first
    | intro _ | with_reducible exact .refl _ _ | with_reducible assumption | with_reducible apply ChangesOnly.ite
    | with_reducible apply ChangesOnly.foldl | (with_reducible apply ChangesOnly.step Dev.reserveRepair_foot; decide)
    | (with_reducible apply ChangesOnly.step Dev.lineUe_foot; decide) | with_reducible exact .pair ‹_› ‹_› | split | dsimp only

theorem Dev.startArm_foot {d : Dev} {t : Nat} {arms : List Nat} : ChangesOnly [.expo] d (Dev.startArm d t arms) := by
  unfold Dev.startArm
  try dsimp only
  repeat' first
    | intro _ | with_reducible exact .refl _ _ | with_reducible assumption | with_reducible apply ChangesOnly.ite
    | with_reducible apply ChangesOnly.foldl | (with_reducible apply ChangesOnly.step Dev.onExpo_foot; decide) | with_reducible exact .pair ‹_› ‹_›
    | split | dsimp only

theorem Dev.armDone_foot {d : Dev} {t : Nat} : ChangesOnly [.mem, .expo, .restore, .flash, .ctxs, .dram, .flint, .lat, .heads, .dw, .out] d (Dev.armDone d t) := by
  unfold Dev.armDone
  try dsimp only
  repeat' first
    | intro _ | with_reducible exact .refl _ _ | with_reducible assumption | with_reducible apply ChangesOnly.ite
    | with_reducible apply ChangesOnly.foldl | (with_reducible apply ChangesOnly.step Dev.onExpo_foot; decide)
    | (with_reducible apply ChangesOnly.step Dev.cairnPut_foot; decide) | (with_reducible apply ChangesOnly.step Dev.cairn_foot; decide)
    | (with_reducible apply ChangesOnly.step Dev.armGroups_foot; decide) | (with_reducible apply ChangesOnly.step Dev.earlyDisarm_foot; decide)
    | with_reducible exact .pair ‹_› ‹_› | split | dsimp only

theorem Dev.meterSample_foot {d : Dev} : ChangesOnly [.ctxs] d (Dev.meterSample d) := by
  unfold Dev.meterSample
  try dsimp only
  repeat' first
    | intro _ | with_reducible exact .refl _ _ | with_reducible assumption | with_reducible apply ChangesOnly.ite
    | with_reducible apply ChangesOnly.foldl | (with_reducible apply ChangesOnly.step Dev.onMeter_foot; decide) | with_reducible exact .pair ‹_› ‹_›
    | split | dsimp only

theorem Dev.heldEvent_foot {d : Dev} {h : Nat} : ChangesOnly [.flint, .heads] d (Dev.heldEvent d h) := by
  unfold Dev.heldEvent
  try dsimp only
  repeat' first
    | intro _ | with_reducible exact .refl _ _ | with_reducible assumption | with_reducible apply ChangesOnly.ite
    | with_reducible apply ChangesOnly.foldl | (with_reducible apply ChangesOnly.step Dev.onHead_foot; decide)
    | (with_reducible apply ChangesOnly.step Dev.raise_foot; decide) | with_reducible exact .pair ‹_› ‹_› | split | dsimp only

/-! ### Strata -/

theorem Dev.ckptWrite_foot {d : Dev} {t : Nat} : ChangesOnly [.expo, .flash] d (Dev.ckptWrite d t) := by
  unfold Dev.ckptWrite
  try dsimp only
  repeat' first
    | intro _ | with_reducible exact .refl _ _ | with_reducible assumption | with_reducible apply ChangesOnly.ite
    | with_reducible apply ChangesOnly.foldl | (with_reducible apply ChangesOnly.step Dev.metaPut_foot; decide)
    | (with_reducible apply ChangesOnly.step Dev.onFl_foot; decide) | with_reducible exact .pair ‹_› ‹_› | split | dsimp only

theorem Dev.ledgerErase_foot {d : Dev} {t b : Nat} : ChangesOnly [.expo, .flash] d (Dev.ledgerErase d t b) := by
  unfold Dev.ledgerErase
  try dsimp only
  repeat' first
    | intro _ | with_reducible exact .refl _ _ | with_reducible assumption | with_reducible apply ChangesOnly.ite
    | with_reducible apply ChangesOnly.foldl | (with_reducible apply ChangesOnly.step Dev.ledger_foot; decide)
    | (with_reducible apply ChangesOnly.step Dev.onBlk_foot; decide) | with_reducible exact .pair ‹_› ‹_› | split | dsimp only

theorem Dev.summaryPut_foot {d : Dev} {t : Nat} {m : Nat × List (Nat × Nat)} : ChangesOnly [.flash] d (Dev.summaryPut d t m) := by
  unfold Dev.summaryPut
  try dsimp only
  repeat' first
    | intro _ | with_reducible exact .refl _ _ | with_reducible assumption | with_reducible apply ChangesOnly.ite
    | with_reducible apply ChangesOnly.foldl | (with_reducible apply ChangesOnly.step Dev.ledgerPage_foot; decide)
    | (with_reducible apply ChangesOnly.step Dev.putMetas_foot; decide) | with_reducible exact .pair ‹_› ‹_› | split | dsimp only

theorem Dev.strataLost_foot {d : Dev} {t : Nat} {r : PageRec} : ChangesOnly [.expo, .strata, .flash, .flint] d (Dev.strataLost d t r) := by
  unfold Dev.strataLost
  try dsimp only
  repeat' first
    | intro _ | with_reducible exact .refl _ _ | with_reducible assumption | with_reducible apply ChangesOnly.ite
    | with_reducible apply ChangesOnly.foldl | (with_reducible apply ChangesOnly.step Dev.onStrata_foot; decide)
    | (with_reducible apply ChangesOnly.step Dev.ledgerAll_foot; decide) | (with_reducible apply ChangesOnly.step Dev.raise_foot; decide)
    | with_reducible exact .pair ‹_› ‹_› | split | dsimp only

theorem Dev.recLost_foot {d : Dev} {t : Nat} {r : PageRec} : ChangesOnly [.expo, .strata, .flash, .flint] d (Dev.recLost d t r) := by
  unfold Dev.recLost
  try dsimp only
  repeat' first
    | intro _ | with_reducible exact .refl _ _ | with_reducible assumption | with_reducible apply ChangesOnly.ite
    | with_reducible apply ChangesOnly.foldl | (with_reducible apply ChangesOnly.step Dev.dirtyArmed_foot; decide)
    | (with_reducible apply ChangesOnly.step Dev.raise_foot; decide) | (with_reducible apply ChangesOnly.step Dev.strataLost_foot; decide)
    | with_reducible exact .pair ‹_› ‹_› | split | dsimp only

theorem Dev.relocate_foot {d : Dev} {t k : Nat} {draw : Bool} {soft : List Nat} {r : PageRec} : ChangesOnly [.expo, .strata, .flash] d (Dev.relocate d t k draw soft r) := by
  unfold Dev.relocate
  try dsimp only
  repeat' first
    | intro _ | with_reducible exact .refl _ _ | with_reducible assumption | with_reducible apply ChangesOnly.ite
    | with_reducible apply ChangesOnly.foldl | (with_reducible apply ChangesOnly.step Dev.onStrata_foot; decide)
    | (with_reducible apply ChangesOnly.step Dev.drawSlot_foot; decide) | (with_reducible apply ChangesOnly.step Dev.onBlk_foot; decide)
    | (with_reducible apply ChangesOnly.step Dev.capUse_foot; decide) | (with_reducible apply ChangesOnly.step Dev.onFl_foot; decide)
    | with_reducible exact .pair ‹_› ‹_› | split | dsimp only

theorem Dev.relocateMeta_foot {d : Dev} {t : Nat} {draw : Bool} {m : MetaRec} : ChangesOnly [.expo, .flash] d (Dev.relocateMeta d t draw m) := by
  unfold Dev.relocateMeta
  try dsimp only
  repeat' first
    | intro _ | with_reducible exact .refl _ _ | with_reducible assumption | with_reducible apply ChangesOnly.ite
    | with_reducible apply ChangesOnly.foldl | (with_reducible apply ChangesOnly.step Dev.drawSlot_foot; decide)
    | (with_reducible apply ChangesOnly.step Dev.onFl_foot; decide) | with_reducible exact .pair ‹_› ‹_› | split | dsimp only

theorem Dev.moveOut_foot {d : Dev} {t blk : Nat} {draw : Bool} {lost soft : List Nat} : ChangesOnly [.expo, .strata, .flash, .flint] d (Dev.moveOut d t blk draw lost soft) := by
  unfold Dev.moveOut
  try dsimp only
  repeat' first
    | intro _ | with_reducible exact .refl _ _ | with_reducible assumption | with_reducible apply ChangesOnly.ite
    | with_reducible apply ChangesOnly.foldl | (with_reducible apply ChangesOnly.step Dev.recLost_foot; decide)
    | (with_reducible apply ChangesOnly.step Dev.relocate_foot; decide) | (with_reducible apply ChangesOnly.step Dev.relocateMeta_foot; decide)
    | (with_reducible apply ChangesOnly.step Dev.closeStream_foot; decide) | with_reducible exact .pair ‹_› ‹_› | split | dsimp only

theorem Dev.emptyBlock_foot {d : Dev} {t blk : Nat} {lost soft : List Nat} : ChangesOnly [.expo, .strata, .flash, .flint] d (Dev.emptyBlock d t blk lost soft) := by
  unfold Dev.emptyBlock
  try dsimp only
  repeat' first
    | intro _ | with_reducible exact .refl _ _ | with_reducible assumption | with_reducible apply ChangesOnly.ite
    | with_reducible apply ChangesOnly.foldl | (with_reducible apply ChangesOnly.step Dev.moveOut_foot; decide)
    | (with_reducible apply ChangesOnly.step Dev.onBlk_foot; decide) | with_reducible exact .pair ‹_› ‹_› | split | dsimp only

theorem Dev.dropTlc_foot {d : Dev} {t : Nat} : ChangesOnly [.flash] d (Dev.dropTlc d t) := by
  unfold Dev.dropTlc
  try dsimp only
  repeat' first
    | intro _ | with_reducible exact .refl _ _ | with_reducible assumption | with_reducible apply ChangesOnly.ite
    | with_reducible apply ChangesOnly.foldl | (with_reducible apply ChangesOnly.step Dev.onBlk_foot; decide) | with_reducible exact .pair ‹_› ‹_›
    | split | dsimp only

theorem Dev.dropStreams_foot {d : Dev} {t : Nat} {f : Nat → Bool} : ChangesOnly [.expo, .flash] d (Dev.dropStreams d t f) := by
  unfold Dev.dropStreams
  try dsimp only
  repeat' first
    | intro _ | with_reducible exact .refl _ _ | with_reducible assumption | with_reducible apply ChangesOnly.ite
    | with_reducible apply ChangesOnly.foldl | (with_reducible apply ChangesOnly.step Dev.onExpo_foot; decide)
    | (with_reducible apply ChangesOnly.step Dev.zoneUse_foot; decide) | (with_reducible apply ChangesOnly.step Dev.onFlow_foot; decide)
    | with_reducible exact .pair ‹_› ‹_› | split | dsimp only

theorem Dev.retireDie_foot {d : Dev} {t die : Nat} : ChangesOnly [.expo, .strata, .flash, .flint] d (Dev.retireDie d t die) := by
  unfold Dev.retireDie
  try dsimp only
  repeat' first
    | intro _ | with_reducible exact .refl _ _ | with_reducible assumption | with_reducible apply ChangesOnly.ite
    | with_reducible apply ChangesOnly.foldl | (with_reducible apply ChangesOnly.step Dev.dropStreams_foot; decide)
    | (with_reducible apply ChangesOnly.step Dev.ledger_foot; decide) | (with_reducible apply ChangesOnly.step Dev.onFl_foot; decide)
    | (with_reducible apply ChangesOnly.step Dev.dirtyArmed_foot; decide) | (with_reducible apply ChangesOnly.step Dev.strataLost_foot; decide)
    | (with_reducible apply ChangesOnly.step Dev.resvFill_foot; decide) | (with_reducible apply ChangesOnly.step Dev.raise_foot; decide)
    | (with_reducible apply ChangesOnly.step Dev.govTrigger_foot; decide) | with_reducible exact .pair ‹_› ‹_› | split | dsimp only

theorem Dev.badBlock_foot {d : Dev} {t blk reason : Nat} : ChangesOnly [.expo, .flash, .flint] d (Dev.badBlock d t blk reason) := by
  unfold Dev.badBlock
  try dsimp only
  repeat' first
    | intro _ | with_reducible exact .refl _ _ | with_reducible assumption | with_reducible apply ChangesOnly.ite
    | with_reducible apply ChangesOnly.foldl | (with_reducible apply ChangesOnly.step Dev.govTrigger_foot; decide)
    | (with_reducible apply ChangesOnly.step Dev.ledger_foot; decide) | (with_reducible apply ChangesOnly.step Dev.onBlk_foot; decide)
    | (with_reducible apply ChangesOnly.step Dev.onFl_foot; decide) | (with_reducible apply ChangesOnly.step Dev.raise_foot; decide)
    | with_reducible exact .pair ‹_› ‹_› | split | dsimp only

theorem Dev.blockFails_foot {d : Dev} {t blk reason : Nat} {lost soft : List Nat} : ChangesOnly [.expo, .strata, .flash, .flint] d (Dev.blockFails d t blk reason lost soft) := by
  unfold Dev.blockFails
  try dsimp only
  repeat' first
    | intro _ | with_reducible exact .refl _ _ | with_reducible assumption | with_reducible apply ChangesOnly.ite
    | with_reducible apply ChangesOnly.foldl | (with_reducible apply ChangesOnly.step Dev.onFl_foot; decide)
    | (with_reducible apply ChangesOnly.step Dev.resvFill_foot; decide) | (with_reducible apply ChangesOnly.step Dev.dropStreams_foot; decide)
    | (with_reducible apply ChangesOnly.step Dev.moveOut_foot; decide) | (with_reducible apply ChangesOnly.step Dev.badBlock_foot; decide)
    | (with_reducible apply ChangesOnly.step Dev.onBlk_foot; decide) | with_reducible exact .pair ‹_› ‹_› | split | dsimp only

theorem Dev.flashServed_foot {d : Dev} {t kind : Nat} : ChangesOnly [.flash] d (Dev.flashServed d t kind) := by
  unfold Dev.flashServed
  try dsimp only
  repeat' first
    | intro _ | with_reducible exact .refl _ _ | with_reducible assumption | with_reducible apply ChangesOnly.ite
    | with_reducible apply ChangesOnly.foldl | (with_reducible apply ChangesOnly.step Dev.onFl_foot; decide) | with_reducible exact .pair ‹_› ‹_›
    | split | dsimp only

theorem Dev.eraseBlank_foot {d : Dev} {t b : Nat} : ChangesOnly [.expo, .flash, .flint] d (Dev.eraseBlank d t b) := by
  unfold Dev.eraseBlank
  try dsimp only
  repeat' first
    | intro _ | with_reducible exact .refl _ _ | with_reducible assumption | with_reducible apply ChangesOnly.ite
    | with_reducible apply ChangesOnly.foldl | (with_reducible apply ChangesOnly.step Dev.ledger_foot; decide)
    | (with_reducible apply ChangesOnly.step Dev.onBlk_foot; decide) | (with_reducible apply ChangesOnly.step Dev.badBlock_foot; decide)
    | (with_reducible apply ChangesOnly.step Dev.onFl_foot; decide) | with_reducible exact .pair ‹_› ‹_› | split | dsimp only

theorem Dev.dropOldKeys_foot {d : Dev} {t c : Nat} : ChangesOnly [.expo, .strata, .flash, .flint] d (Dev.dropOldKeys d t c) := by
  unfold Dev.dropOldKeys
  try dsimp only
  repeat' first
    | intro _ | with_reducible exact .refl _ _ | with_reducible assumption | with_reducible apply ChangesOnly.ite
    | with_reducible apply ChangesOnly.foldl | (with_reducible apply ChangesOnly.step Dev.dropStreams_foot; decide)
    | (with_reducible apply ChangesOnly.step Dev.moveOut_foot; decide) | (with_reducible apply ChangesOnly.step Dev.onBlk_foot; decide)
    | (with_reducible apply ChangesOnly.step Dev.onFl_foot; decide) | (with_reducible apply ChangesOnly.step Dev.cairn_foot; decide)
    | with_reducible exact .pair ‹_› ‹_› | split | dsimp only

theorem Dev.spaceCheck_foot {d : Dev} {t : Nat} : ChangesOnly [.expo, .strata, .flash, .flint] d (Dev.spaceCheck d t) := by
  unfold Dev.spaceCheck
  try dsimp only
  repeat' first
    | intro _ | with_reducible exact .refl _ _ | with_reducible assumption | with_reducible apply ChangesOnly.ite
    | with_reducible apply ChangesOnly.foldl | (with_reducible apply ChangesOnly.step Dev.releaseStratum_foot; decide)
    | (with_reducible apply ChangesOnly.step Dev.raise_foot; decide) | with_reducible exact .pair ‹_› ‹_› | split | dsimp only

theorem Dev.budget_foot {d : Dev} : ChangesOnly [.strata, .flint] d (Dev.budget d) := by
  unfold Dev.budget
  try dsimp only
  repeat' first
    | intro _ | with_reducible exact .refl _ _ | with_reducible assumption | with_reducible apply ChangesOnly.ite
    | with_reducible apply ChangesOnly.foldl | (with_reducible apply ChangesOnly.step Dev.onStrata_foot; decide)
    | (with_reducible apply ChangesOnly.step Dev.raise_foot; decide) | with_reducible exact .pair ‹_› ‹_› | split | dsimp only

theorem Dev.writeAmp_foot {d : Dev} : ChangesOnly [.strata] d (Dev.writeAmp d) := by
  unfold Dev.writeAmp
  try dsimp only
  repeat' first
    | intro _ | with_reducible exact .refl _ _ | with_reducible assumption | with_reducible apply ChangesOnly.ite
    | with_reducible apply ChangesOnly.foldl | (with_reducible apply ChangesOnly.step Dev.onStrata_foot; decide) | with_reducible exact .pair ‹_› ‹_›
    | split | dsimp only

theorem Dev.strataUpd_foot {d : Dev} : ChangesOnly [.dw] d (Dev.strataUpd d) := by
  unfold Dev.strataUpd
  try dsimp only
  repeat' first
    | intro _ | with_reducible exact .refl _ _ | with_reducible assumption | with_reducible apply ChangesOnly.ite
    | with_reducible apply ChangesOnly.foldl | (with_reducible apply ChangesOnly.step Dev.dwUpd_foot; decide)
    | (with_reducible apply ChangesOnly.step Dev.dwSet_foot; decide) | with_reducible exact .pair ‹_› ‹_› | split | dsimp only

/-! ### Dram -/

theorem Dev.dramCfgUpd_foot {d : Dev} : ChangesOnly [.dw] d (Dev.dramCfgUpd d) := by
  unfold Dev.dramCfgUpd
  try dsimp only
  repeat' first
    | intro _ | with_reducible exact .refl _ _ | with_reducible assumption | with_reducible apply ChangesOnly.ite
    | with_reducible apply ChangesOnly.foldl | (with_reducible apply ChangesOnly.step Dev.dwSet_foot; decide) | with_reducible exact .pair ‹_› ‹_›
    | split | dsimp only

theorem Dev.steerLoad_foot {d : Dev} {t : Nat} : ChangesOnly [.dram, .dw] d (Dev.steerLoad d t) := by
  unfold Dev.steerLoad
  try dsimp only
  repeat' first
    | intro _ | with_reducible exact .refl _ _ | with_reducible assumption | with_reducible apply ChangesOnly.ite
    | with_reducible apply ChangesOnly.foldl | (with_reducible apply ChangesOnly.step Dev.onSteer_foot; decide)
    | (with_reducible apply ChangesOnly.step Dev.steerUpd_foot; decide) | with_reducible exact .pair ‹_› ‹_› | split | dsimp only

theorem Dev.fspFrom_foot {d : Dev} {t : Nat} {urgent : Bool} {c : Nat} : ChangesOnly [.dram, .dw] d (Dev.fspFrom d t urgent c) := by
  unfold Dev.fspFrom
  try dsimp only
  repeat' first
    | intro _ | with_reducible exact .refl _ _ | with_reducible assumption | with_reducible apply ChangesOnly.ite
    | with_reducible apply ChangesOnly.foldl | (with_reducible apply ChangesOnly.step Dev.chanDo_foot; decide) | with_reducible exact .pair ‹_› ‹_›
    | split | dsimp only

theorem Dev.fspUnwait_foot {d : Dev} {t c : Nat} : ChangesOnly [.dram, .dw] d (Dev.fspUnwait d t c) := by
  unfold Dev.fspUnwait
  try dsimp only
  repeat' first
    | intro _ | with_reducible exact .refl _ _ | with_reducible assumption | with_reducible apply ChangesOnly.ite
    | with_reducible apply ChangesOnly.foldl | (with_reducible apply ChangesOnly.step Dev.chanDo_foot; decide) | with_reducible exact .pair ‹_› ‹_›
    | split | dsimp only

theorem Dev.fspStart_foot {d : Dev} {t : Nat} {urgent : Bool} : ChangesOnly [.dram, .dw] d (Dev.fspStart d t urgent) := by
  unfold Dev.fspStart
  try dsimp only
  repeat' first
    | intro _ | with_reducible exact .refl _ _ | with_reducible assumption | with_reducible apply ChangesOnly.ite
    | with_reducible apply ChangesOnly.foldl | (with_reducible apply ChangesOnly.step Dev.fspUnwait_foot; decide)
    | (with_reducible apply ChangesOnly.step Dev.fspFrom_foot; decide) | with_reducible exact .pair ‹_› ‹_› | split | dsimp only

theorem Dev.heatApply_foot {d : Dev} {t : Nat} : ChangesOnly [.mem, .expo, .restore, .ctxs, .dram, .flint, .lat, .heads, .dw, .out] d (Dev.heatApply d t) := by
  unfold Dev.heatApply
  try dsimp only
  repeat' first
    | intro _ | with_reducible exact .refl _ _ | with_reducible assumption | with_reducible apply ChangesOnly.ite
    | with_reducible apply ChangesOnly.foldl | (with_reducible apply ChangesOnly.step Dev.capApply_foot; decide)
    | (with_reducible apply ChangesOnly.step Dev.fspStart_foot; decide) | with_reducible exact .pair ‹_› ‹_› | split | dsimp only

theorem Dev.fspEnd_foot {d : Dev} {t c w : Nat} : ChangesOnly [.dram, .dw] d (Dev.fspEnd d t c w) := by
  unfold Dev.fspEnd
  try dsimp only
  repeat' first
    | intro _ | with_reducible exact .refl _ _ | with_reducible assumption | with_reducible apply ChangesOnly.ite
    | with_reducible apply ChangesOnly.foldl | (with_reducible apply ChangesOnly.step Dev.chanDo_foot; decide)
    | (with_reducible apply ChangesOnly.step Dev.fspFrom_foot; decide) | with_reducible exact .pair ‹_› ‹_› | split | dsimp only

theorem Dev.degradedRetry_foot {d : Dev} {t : Nat} : ChangesOnly [.dram, .slate] d (Dev.degradedRetry d t) := by
  unfold Dev.degradedRetry
  try dsimp only
  repeat' first
    | intro _ | with_reducible exact .refl _ _ | with_reducible assumption | with_reducible apply ChangesOnly.ite
    | with_reducible apply ChangesOnly.foldl | (with_reducible apply ChangesOnly.step Dev.migrateTo_foot; decide) | with_reducible exact .pair ‹_› ‹_›
    | split | dsimp only

theorem Dev.returnBegin_foot {d : Dev} {t e : Nat} : ChangesOnly [.dram, .slate] d (Dev.returnBegin d t e) := by
  unfold Dev.returnBegin
  try dsimp only
  repeat' first
    | intro _ | with_reducible exact .refl _ _ | with_reducible assumption | with_reducible apply ChangesOnly.ite
    | with_reducible apply ChangesOnly.foldl | (with_reducible apply ChangesOnly.step Dev.steerPut_foot; decide) | with_reducible exact .pair ‹_› ‹_›
    | split | dsimp only

theorem Dev.repairBegin_foot {d : Dev} {t e : Nat} : ChangesOnly [.dram] d (Dev.repairBegin d t e) := by
  unfold Dev.repairBegin
  try dsimp only
  repeat' first
    | intro _ | with_reducible exact .refl _ _ | with_reducible assumption | with_reducible apply ChangesOnly.ite
    | with_reducible apply ChangesOnly.foldl | (with_reducible apply ChangesOnly.step Dev.onRank_foot; decide) | with_reducible exact .pair ‹_› ‹_›
    | split | dsimp only

theorem Dev.rankWork_foot {d : Dev} {t : Nat} : ChangesOnly [.dram, .slate] d (Dev.rankWork d t) := by
  unfold Dev.rankWork
  try dsimp only
  repeat' first
    | intro _ | with_reducible exact .refl _ _ | with_reducible assumption | with_reducible apply ChangesOnly.ite
    | with_reducible apply ChangesOnly.foldl | (with_reducible apply ChangesOnly.step Dev.returnBegin_foot; decide)
    | (with_reducible apply ChangesOnly.step Dev.repairBegin_foot; decide) | (with_reducible apply ChangesOnly.step Dev.degradedRetry_foot; decide)
    | with_reducible exact .pair ‹_› ‹_› | split | dsimp only

theorem Dev.returnAbort_foot {d : Dev} {t e : Nat} : ChangesOnly [.dram, .flint, .slate] d (Dev.returnAbort d t e) := by
  unfold Dev.returnAbort
  try dsimp only
  repeat' first
    | intro _ | with_reducible exact .refl _ _ | with_reducible assumption | with_reducible apply ChangesOnly.ite
    | with_reducible apply ChangesOnly.foldl | (with_reducible apply ChangesOnly.step Dev.steerPut_foot; decide)
    | (with_reducible apply ChangesOnly.step Dev.raise_foot; decide) | with_reducible exact .pair ‹_› ‹_› | split | dsimp only

theorem Dev.migrateEnd_foot {d : Dev} {t e : Nat} : ChangesOnly [.dram, .flint, .slate] d (Dev.migrateEnd d t e) := by
  unfold Dev.migrateEnd
  try dsimp only
  repeat' first
    | intro _ | with_reducible exact .refl _ _ | with_reducible assumption | with_reducible apply ChangesOnly.ite
    | with_reducible apply ChangesOnly.foldl | (with_reducible apply ChangesOnly.step Dev.steerPut_foot; decide)
    | (with_reducible apply ChangesOnly.step Dev.raise_foot; decide) | with_reducible exact .pair ‹_› ‹_› | split | dsimp only

theorem Dev.returnEnd_foot {d : Dev} {t e : Nat} : ChangesOnly [.dram, .flint, .slate] d (Dev.returnEnd d t e) := by
  unfold Dev.returnEnd
  try dsimp only
  repeat' first
    | intro _ | with_reducible exact .refl _ _ | with_reducible assumption | with_reducible apply ChangesOnly.ite
    | with_reducible apply ChangesOnly.foldl | (with_reducible apply ChangesOnly.step Dev.steerPut_foot; decide)
    | (with_reducible apply ChangesOnly.step Dev.onRank_foot; decide) | (with_reducible apply ChangesOnly.step Dev.raise_foot; decide)
    | with_reducible exact .pair ‹_› ‹_› | split | dsimp only

/-! ### Rings -/

theorem Dev.writeCqe_foot {d : Dev} {c k a : Nat} {bs : List Byte} {irq : Bool} : ChangesOnly [.mem, .expo, .restore, .flash, .ctxs, .dram, .flint, .lat, .heads, .dw, .out] d (Dev.writeCqe d c k a bs irq) := by
  unfold Dev.writeCqe
  try dsimp only
  repeat' first
    | intro _ | with_reducible exact .refl _ _ | with_reducible assumption | with_reducible apply ChangesOnly.ite
    | with_reducible apply ChangesOnly.foldl | (with_reducible apply ChangesOnly.step Dev.onMem_foot; decide)
    | (with_reducible apply ChangesOnly.step Dev.keyLost_foot; decide) | (with_reducible apply ChangesOnly.step Dev.posted_foot; decide)
    | (with_reducible apply ChangesOnly.step Dev.admitReq_foot; decide) | with_reducible exact .pair ‹_› ‹_› | split | dsimp only

theorem Dev.ckptEnd_foot {d : Dev} {k : Ckpt} : ChangesOnly [.lat, .heads, .jcs, .mirror] d (Dev.ckptEnd d k) := by
  unfold Dev.ckptEnd
  try dsimp only
  repeat' first
    | intro _ | with_reducible exact .refl _ _ | with_reducible assumption | with_reducible apply ChangesOnly.ite
    | with_reducible apply ChangesOnly.foldl | (with_reducible apply ChangesOnly.step Dev.onLat_foot; decide)
    | (with_reducible apply ChangesOnly.step Dev.bgEnd_foot; decide) | with_reducible exact .pair ‹_› ‹_› | split | dsimp only

theorem Dev.ckptRecord_foot {d : Dev} {uid reqId c status ts : Nat} : ChangesOnly [.flint, .lat, .heads, .jcs, .mirror] d (Dev.ckptRecord d uid reqId c status ts) := by
  unfold Dev.ckptRecord
  try dsimp only
  repeat' first
    | intro _ | with_reducible exact .refl _ _ | with_reducible assumption | with_reducible apply ChangesOnly.ite
    | with_reducible apply ChangesOnly.foldl | (with_reducible apply ChangesOnly.step Dev.onLat_foot; decide)
    | (with_reducible apply ChangesOnly.step Dev.raise_foot; decide) | (with_reducible apply ChangesOnly.step Dev.ckptEnd_foot; decide)
    | with_reducible exact .pair ‹_› ‹_› | split | dsimp only

theorem Dev.ckptReply_foot {d : Dev} {uid reqId c status ts : Nat} : ChangesOnly [.flint, .lat, .heads, .jcs, .mirror, .out] d (Dev.ckptReply d uid reqId c status ts) := by
  unfold Dev.ckptReply
  try dsimp only
  repeat' first
    | intro _ | with_reducible exact .refl _ _ | with_reducible assumption | with_reducible apply ChangesOnly.ite
    | with_reducible apply ChangesOnly.foldl | (with_reducible apply ChangesOnly.step Dev.ckptRecord_foot; decide)
    | (with_reducible apply ChangesOnly.step Dev.sendMsg_foot; decide) | with_reducible exact .pair ‹_› ‹_› | split | dsimp only

theorem Dev.ckptAnswer_foot {d : Dev} {c : Nat} {e : RingEntry} {status time : Nat} : ChangesOnly [.flint, .lat, .heads, .jcs, .mirror, .out] d (Dev.ckptAnswer d c e status time) := by
  unfold Dev.ckptAnswer
  try dsimp only
  repeat' first
    | intro _ | with_reducible exact .refl _ _ | with_reducible assumption | with_reducible apply ChangesOnly.ite
    | with_reducible apply ChangesOnly.foldl | (with_reducible apply ChangesOnly.step Dev.onLat_foot; decide)
    | (with_reducible apply ChangesOnly.step Dev.ckptReply_foot; decide) | with_reducible exact .pair ‹_› ‹_› | split | dsimp only

theorem Dev.startHead_foot {d : Dev} {c k : Nat} : ChangesOnly [.ctxs] d (Dev.startHead d c k) := by
  unfold Dev.startHead
  try dsimp only
  repeat' first
    | intro _ | with_reducible exact .refl _ _ | with_reducible assumption | with_reducible apply ChangesOnly.ite
    | with_reducible apply ChangesOnly.foldl | (with_reducible apply ChangesOnly.step Dev.onRing_foot; decide) | with_reducible exact .pair ‹_› ‹_›
    | split | dsimp only

theorem Dev.complete_foot {d : Dev} {c k : Nat} {e : RingEntry} {status time r0 r1 : Nat} {poison : Bool} : ChangesOnly [.mem, .expo, .restore, .flash, .ctxs, .dram, .flint, .lat, .heads, .jcs, .mirror, .dw, .out] d (Dev.complete d c k e status time r0 r1 poison) := by
  unfold Dev.complete
  try dsimp only
  repeat' first
    | intro _ | with_reducible exact .refl _ _ | with_reducible assumption | with_reducible apply ChangesOnly.ite
    | with_reducible apply ChangesOnly.foldl | (with_reducible apply ChangesOnly.step Dev.onRing_foot; decide)
    | (with_reducible apply ChangesOnly.step Dev.startHead_foot; decide) | (with_reducible apply ChangesOnly.step Dev.ckptAnswer_foot; decide)
    | (with_reducible apply ChangesOnly.step Dev.writeCqe_foot; decide) | with_reducible exact .pair ‹_› ‹_› | split | dsimp only

theorem Dev.fetch_foot {d : Dev} {c k : Nat} {n : Nat} : ChangesOnly [.expo, .restore, .ctxs, .flint] d (Dev.fetch d c k n) := by
  induction n generalizing d with
  | zero => exact .refl _ _
  | succ n ih =>
    unfold Dev.fetch
    try dsimp only
    repeat' first
      | intro _ | with_reducible exact .refl _ _ | with_reducible assumption | with_reducible apply ChangesOnly.ite
      | with_reducible apply ChangesOnly.foldl | (with_reducible apply ChangesOnly.step ih; decide)
      | (with_reducible apply ChangesOnly.step Dev.ringError_foot; decide) | (with_reducible apply ChangesOnly.step Dev.startHeld_foot; decide)
      | (with_reducible apply ChangesOnly.step Dev.onRing_foot; decide) | with_reducible exact .pair ‹_› ‹_› | split | dsimp only

theorem Dev.fetchAll_foot {d : Dev} {c k : Nat} : ChangesOnly [.expo, .restore, .ctxs, .flint] d (Dev.fetchAll d c k) := by
  unfold Dev.fetchAll
  try dsimp only
  repeat' first
    | intro _ | with_reducible exact .refl _ _ | with_reducible assumption | with_reducible apply ChangesOnly.ite
    | with_reducible apply ChangesOnly.foldl | (with_reducible apply ChangesOnly.step Dev.fetch_foot; decide) | with_reducible exact .pair ‹_› ‹_›
    | split | dsimp only

theorem Dev.fetchRings_foot {d : Dev} : ChangesOnly [.expo, .restore, .ctxs, .flint] d (Dev.fetchRings d) := by
  unfold Dev.fetchRings
  try dsimp only
  repeat' first
    | intro _ | with_reducible exact .refl _ _ | with_reducible assumption | with_reducible apply ChangesOnly.ite
    | with_reducible apply ChangesOnly.foldl | (with_reducible apply ChangesOnly.step Dev.fetchAll_foot; decide) | with_reducible exact .pair ‹_› ‹_›
    | split | dsimp only

theorem Dev.onEntry_foot {d : Dev} {c k : Nat} {e : RingEntry} {f : RingEntry → RingEntry} : ChangesOnly [.ctxs] d (Dev.onEntry d c k e f) := by
  unfold Dev.onEntry
  try dsimp only
  repeat' first
    | intro _ | with_reducible exact .refl _ _ | with_reducible assumption | with_reducible apply ChangesOnly.ite
    | with_reducible apply ChangesOnly.foldl | (with_reducible apply ChangesOnly.step Dev.onRing_foot; decide) | with_reducible exact .pair ‹_› ‹_›
    | split | dsimp only

theorem Dev.checkEntry_foot {d : Dev} {c k : Nat} {e : RingEntry} : ChangesOnly [.ctxs] d (Dev.checkEntry d c k e) := by
  unfold Dev.checkEntry
  try dsimp only
  repeat' first
    | intro _ | with_reducible exact .refl _ _ | with_reducible assumption | with_reducible apply ChangesOnly.ite
    | with_reducible apply ChangesOnly.foldl | (with_reducible apply ChangesOnly.step Dev.onEntry_foot; decide) | with_reducible exact .pair ‹_› ‹_›
    | split | dsimp only

theorem Dev.rejectEntry_foot {d : Dev} {c k : Nat} {e : RingEntry} {status : Nat} : ChangesOnly [.mem, .expo, .restore, .flash, .ctxs, .dram, .flint, .lat, .heads, .jcs, .mirror, .dw, .out] d (Dev.rejectEntry d c k e status) := by
  unfold Dev.rejectEntry
  try dsimp only
  repeat' first
    | intro _ | with_reducible exact .refl _ _ | with_reducible assumption | with_reducible apply ChangesOnly.ite
    | with_reducible apply ChangesOnly.foldl | (with_reducible apply ChangesOnly.step Dev.complete_foot; decide) | with_reducible exact .pair ‹_› ‹_›
    | split | dsimp only

theorem Dev.takeRollback_foot {d : Dev} {c k : Nat} {e : RingEntry} : ChangesOnly [.mem, .expo, .restore, .flash, .ctxs, .dram, .flint, .lat, .heads, .jcs, .mirror, .dw, .out] d (Dev.takeRollback d c k e) := by
  unfold Dev.takeRollback
  try dsimp only
  repeat' first
    | intro _ | with_reducible exact .refl _ _ | with_reducible assumption | with_reducible apply ChangesOnly.ite
    | with_reducible apply ChangesOnly.foldl | (with_reducible apply ChangesOnly.step Dev.rejectEntry_foot; decide)
    | (with_reducible apply ChangesOnly.step Dev.checkEntry_foot; decide) | (with_reducible apply ChangesOnly.step Dev.onEntry_foot; decide)
    | with_reducible exact .pair ‹_› ‹_› | split | dsimp only

theorem Dev.takeUp_foot {d : Dev} {c k : Nat} {e : RingEntry} : ChangesOnly [.mem, .expo, .restore, .flash, .ctxs, .dram, .flint, .lat, .heads, .jcs, .mirror, .dw, .out] d (Dev.takeUp d c k e) := by
  unfold Dev.takeUp
  try dsimp only
  repeat' first
    | intro _ | with_reducible exact .refl _ _ | with_reducible assumption | with_reducible apply ChangesOnly.ite
    | with_reducible apply ChangesOnly.foldl | (with_reducible apply ChangesOnly.step Dev.rejectEntry_foot; decide)
    | (with_reducible apply ChangesOnly.step Dev.checkEntry_foot; decide) | (with_reducible apply ChangesOnly.step Dev.takeRollback_foot; decide)
    | (with_reducible apply ChangesOnly.step Dev.complete_foot; decide) | (with_reducible apply ChangesOnly.step Dev.onMeter_foot; decide)
    | with_reducible exact .pair ‹_› ‹_› | split | dsimp only

theorem Dev.takeNext_foot {d : Dev} {c k : Nat} {f : Nat → Bool} : ChangesOnly [.mem, .expo, .restore, .flash, .ctxs, .dram, .flint, .lat, .heads, .jcs, .mirror, .dw, .out] d (Dev.takeNext d c k f) := by
  unfold Dev.takeNext
  try dsimp only
  repeat' first
    | intro _ | with_reducible exact .refl _ _ | with_reducible assumption | with_reducible apply ChangesOnly.ite
    | with_reducible apply ChangesOnly.foldl | (with_reducible apply ChangesOnly.step Dev.takeUp_foot; decide)
    | (with_reducible apply ChangesOnly.step Dev.fetchRings_foot; decide) | with_reducible exact .pair ‹_› ‹_› | split | dsimp only

theorem Dev.fenceEnd_foot {d : Dev} {c k : Nat} {e : RingEntry} : ChangesOnly [.mem, .expo, .restore, .flash, .ctxs, .dram, .flint, .lat, .heads, .jcs, .mirror, .dw, .out] d (Dev.fenceEnd d c k e) := by
  unfold Dev.fenceEnd
  try dsimp only
  repeat' first
    | intro _ | with_reducible exact .refl _ _ | with_reducible assumption | with_reducible apply ChangesOnly.ite
    | with_reducible apply ChangesOnly.foldl | (with_reducible apply ChangesOnly.step Dev.keyLost_foot; decide)
    | (with_reducible apply ChangesOnly.step Dev.complete_foot; decide) | (with_reducible apply ChangesOnly.step Dev.onMeter_foot; decide)
    | with_reducible exact .pair ‹_› ‹_› | split | dsimp only

theorem Dev.markStreams_foot {d : Dev} {c ts : Nat} : ChangesOnly [.lat] d (Dev.markStreams d c ts) := by
  unfold Dev.markStreams
  try dsimp only
  repeat' first
    | intro _ | with_reducible exact .refl _ _ | with_reducible assumption | with_reducible apply ChangesOnly.ite
    | with_reducible apply ChangesOnly.foldl | (with_reducible apply ChangesOnly.step Dev.onLat_foot; decide) | with_reducible exact .pair ‹_› ‹_›
    | split | dsimp only

theorem Dev.ckptTiles_foot {d : Dev} {c k : Nat} {e : RingEntry} {m : BitVec 8} : ChangesOnly [.expo, .flash, .ctxs] d (Dev.ckptTiles d c k e m) := by
  unfold Dev.ckptTiles
  try dsimp only
  repeat' first
    | intro _ | with_reducible exact .refl _ _ | with_reducible assumption | with_reducible apply ChangesOnly.ite
    | with_reducible apply ChangesOnly.foldl | (with_reducible apply ChangesOnly.step Dev.stratumOn_foot; decide)
    | (with_reducible apply ChangesOnly.step Dev.onEntry_foot; decide) | with_reducible exact .pair ‹_› ‹_› | split | dsimp only

theorem Dev.releasePartial_foot {d : Dev} : ChangesOnly [.expo, .flash] d (Dev.releasePartial d) := by
  unfold Dev.releasePartial
  try dsimp only
  repeat' first
    | intro _ | with_reducible exact .refl _ _ | with_reducible assumption | with_reducible apply ChangesOnly.ite
    | with_reducible apply ChangesOnly.foldl | (with_reducible apply ChangesOnly.step Dev.ledger_foot; decide) | with_reducible exact .pair ‹_› ‹_›
    | split | dsimp only

theorem Dev.revert_foot {d : Dev} {c p out : Nat} : ChangesOnly [.mem, .expo, .strata, .flash, .ctxs, .flint, .heads] d (Dev.revert d c p out).1 := by
  unfold Dev.revert
  try dsimp only
  repeat' first
    | intro _ | with_reducible exact .refl _ _ | with_reducible assumption | with_reducible apply ChangesOnly.ite
    | with_reducible apply ChangesOnly.foldl | (with_reducible apply ChangesOnly.step Dev.drawSlot_foot; decide)
    | (with_reducible apply ChangesOnly.step Dev.onBlk_foot; decide) | (with_reducible apply ChangesOnly.step Dev.putRec_foot; decide)
    | (with_reducible apply ChangesOnly.step Dev.issue_foot; decide) | (with_reducible apply ChangesOnly.step Dev.strataLost_foot; decide)
    | (with_reducible apply ChangesOnly.step Dev.raise_foot; decide) | (with_reducible apply ChangesOnly.step Dev.pageClearPoison_foot; decide)
    | (with_reducible apply ChangesOnly.step Dev.loadPage_foot; decide) | (with_reducible apply ChangesOnly.step Dev.pagePoison_foot; decide)
    | (with_reducible apply ChangesOnly.step Dev.storePoison_foot; decide) | with_reducible exact .pair ‹_› ‹_› | split | dsimp only

theorem Dev.abortUnstarted_foot {d : Dev} {c k : Nat} : ChangesOnly [.mem, .expo, .restore, .flash, .ctxs, .dram, .flint, .lat, .heads, .jcs, .mirror, .dw, .out] d (Dev.abortUnstarted d c k) := by
  unfold Dev.abortUnstarted
  try dsimp only
  repeat' first
    | intro _ | with_reducible exact .refl _ _ | with_reducible assumption | with_reducible apply ChangesOnly.ite
    | with_reducible apply ChangesOnly.foldl | (with_reducible apply ChangesOnly.step Dev.complete_foot; decide) | with_reducible exact .pair ‹_› ‹_›
    | split | dsimp only

theorem Dev.abortRollback_foot {d : Dev} {c k : Nat} : ChangesOnly [.mem, .expo, .restore, .flash, .ctxs, .dram, .flint, .lat, .heads, .jcs, .mirror, .dw, .out] d (Dev.abortRollback d c k) := by
  unfold Dev.abortRollback
  try dsimp only
  repeat' first
    | intro _ | with_reducible exact .refl _ _ | with_reducible assumption | with_reducible apply ChangesOnly.ite
    | with_reducible apply ChangesOnly.foldl | (with_reducible apply ChangesOnly.step Dev.complete_foot; decide) | with_reducible exact .pair ‹_› ‹_›
    | split | dsimp only

theorem Dev.quiesceRing_foot {d : Dev} {c k : Nat} : ChangesOnly [.mem, .expo, .restore, .flash, .ctxs, .dram, .flint, .lat, .heads, .jcs, .mirror, .dw, .out] d (Dev.quiesceRing d c k) := by
  unfold Dev.quiesceRing
  try dsimp only
  repeat' first
    | intro _ | with_reducible exact .refl _ _ | with_reducible assumption | with_reducible apply ChangesOnly.ite
    | with_reducible apply ChangesOnly.foldl | (with_reducible apply ChangesOnly.step Dev.onRing_foot; decide)
    | (with_reducible apply ChangesOnly.step Dev.abortUnstarted_foot; decide) | (with_reducible apply ChangesOnly.step Dev.abortRollback_foot; decide)
    | with_reducible exact .pair ‹_› ‹_› | split | dsimp only

theorem Dev.quiesceCtx_foot {d : Dev} {c : Nat} : ChangesOnly [.mem, .expo, .restore, .flash, .ctxs, .dram, .flint, .lat, .heads, .jcs, .mirror, .dw, .out] d (Dev.quiesceCtx d c) := by
  unfold Dev.quiesceCtx
  try dsimp only
  repeat' first
    | intro _ | with_reducible exact .refl _ _ | with_reducible assumption | with_reducible apply ChangesOnly.ite
    | with_reducible apply ChangesOnly.foldl | (with_reducible apply ChangesOnly.step Dev.ctxTo_foot; decide)
    | (with_reducible apply ChangesOnly.step Dev.quiesceRing_foot; decide) | with_reducible exact .pair ‹_› ‹_› | split | dsimp only

theorem Dev.resumeRing_foot {d : Dev} {c k : Nat} {kept : Bool} : ChangesOnly [.mem, .expo, .restore, .flash, .ctxs, .dram, .flint, .lat, .heads, .jcs, .mirror, .dw, .out] d (Dev.resumeRing d c k kept) := by
  unfold Dev.resumeRing
  try dsimp only
  repeat' first
    | intro _ | with_reducible exact .refl _ _ | with_reducible assumption | with_reducible apply ChangesOnly.ite
    | with_reducible apply ChangesOnly.foldl | (with_reducible apply ChangesOnly.step Dev.onRing_foot; decide)
    | (with_reducible apply ChangesOnly.step Dev.abortUnstarted_foot; decide) | (with_reducible apply ChangesOnly.step Dev.abortRollback_foot; decide)
    | (with_reducible apply ChangesOnly.step Dev.takeUp_foot; decide) | (with_reducible apply ChangesOnly.step Dev.fenceEnd_foot; decide)
    | (with_reducible apply ChangesOnly.step Dev.complete_foot; decide) | (with_reducible apply ChangesOnly.step Dev.fetchAll_foot; decide)
    | with_reducible exact .pair ‹_› ‹_› | split | dsimp only

theorem Dev.resumeRings_foot {d : Dev} {kept : Bool} : ChangesOnly [.mem, .expo, .restore, .flash, .ctxs, .dram, .flint, .lat, .heads, .jcs, .mirror, .dw, .out] d (Dev.resumeRings d kept) := by
  unfold Dev.resumeRings
  try dsimp only
  repeat' first
    | intro _ | with_reducible exact .refl _ _ | with_reducible assumption | with_reducible apply ChangesOnly.ite
    | with_reducible apply ChangesOnly.foldl | (with_reducible apply ChangesOnly.step Dev.resumeRing_foot; decide)
    | (with_reducible apply ChangesOnly.step Dev.releasePartial_foot; decide) | with_reducible exact .pair ‹_› ‹_› | split | dsimp only

/-! ### Seal -/

theorem Dev.sealUpd_foot {d : Dev} : ChangesOnly [.dw] d (Dev.sealUpd d) := by
  unfold Dev.sealUpd
  try dsimp only
  repeat' first
    | intro _ | with_reducible exact .refl _ _ | with_reducible assumption | with_reducible apply ChangesOnly.ite
    | with_reducible apply ChangesOnly.foldl | (with_reducible apply ChangesOnly.step Dev.dwUpd_foot; decide) | with_reducible exact .pair ‹_› ‹_›
    | split | dsimp only

theorem Dev.sealReport_foot {d : Dev} : ChangesOnly [.dw] d (Dev.sealReport d) := by
  unfold Dev.sealReport
  try dsimp only
  repeat' first
    | intro _ | with_reducible exact .refl _ _ | with_reducible assumption | with_reducible apply ChangesOnly.ite
    | with_reducible apply ChangesOnly.foldl | (with_reducible apply ChangesOnly.step Dev.dwSet_foot; decide) | with_reducible exact .pair ‹_› ‹_›
    | split | dsimp only

theorem Dev.toStage_foot {d : Dev} {t st : Nat} : ChangesOnly [.sealing] d (Dev.toStage d t st) := by
  unfold Dev.toStage
  try dsimp only
  repeat' first
    | intro _ | with_reducible exact .refl _ _ | with_reducible assumption | with_reducible apply ChangesOnly.ite
    | with_reducible apply ChangesOnly.foldl | (with_reducible apply ChangesOnly.step Dev.onSealing_foot; decide) | with_reducible exact .pair ‹_› ‹_›
    | split | dsimp only

theorem Dev.pauseWindow_foot {d : Dev} : ChangesOnly [.upd] d (Dev.pauseWindow d) := by
  unfold Dev.pauseWindow
  try dsimp only
  repeat' first
    | intro _ | with_reducible exact .refl _ _ | with_reducible assumption | with_reducible apply ChangesOnly.ite
    | with_reducible apply ChangesOnly.foldl | (with_reducible apply ChangesOnly.step Dev.onUpd_foot; decide) | with_reducible exact .pair ‹_› ‹_›
    | split | dsimp only

theorem Dev.resumeWindow_foot {d : Dev} : ChangesOnly [.upd] d (Dev.resumeWindow d) := by
  unfold Dev.resumeWindow
  try dsimp only
  repeat' first
    | intro _ | with_reducible exact .refl _ _ | with_reducible assumption | with_reducible apply ChangesOnly.ite
    | with_reducible apply ChangesOnly.foldl | (with_reducible apply ChangesOnly.step Dev.onUpd_foot; decide) | with_reducible exact .pair ‹_› ‹_›
    | split | dsimp only

theorem Dev.sealWork_foot {d : Dev} : ChangesOnly [.dram, .energy, .flint, .lat, .heads, .upd, .dw, .out] d (Dev.sealWork d) := by
  unfold Dev.sealWork
  try dsimp only
  repeat' first
    | intro _ | with_reducible exact .refl _ _ | with_reducible assumption | with_reducible apply ChangesOnly.ite
    | with_reducible apply ChangesOnly.foldl | (with_reducible apply ChangesOnly.step Dev.onEnergy_foot; decide)
    | (with_reducible apply ChangesOnly.step Dev.onLat_foot; decide) | (with_reducible apply ChangesOnly.step Dev.tileChans_foot; decide)
    | (with_reducible apply ChangesOnly.step Dev.interruptTests_foot; decide) | (with_reducible apply ChangesOnly.step Dev.abandonRest_foot; decide)
    | (with_reducible apply ChangesOnly.step Dev.chunkAbort_foot; decide) | (with_reducible apply ChangesOnly.step Dev.pauseWindow_foot; decide)
    | with_reducible exact .pair ‹_› ‹_› | split | dsimp only

theorem Dev.freezeAccepted_foot {d : Dev} : ChangesOnly [.mem, .expo, .restore, .ctxs, .dram, .flint, .lat, .heads, .dw, .out] d (Dev.freezeAccepted d) := by
  unfold Dev.freezeAccepted
  try dsimp only
  repeat' first
    | intro _ | with_reducible exact .refl _ _ | with_reducible assumption | with_reducible apply ChangesOnly.ite
    | with_reducible apply ChangesOnly.foldl | (with_reducible apply ChangesOnly.step Dev.onExpo_foot; decide)
    | (with_reducible apply ChangesOnly.step Dev.pacedDone_foot; decide) | (with_reducible apply ChangesOnly.step Dev.serve_foot; decide)
    | with_reducible exact .pair ‹_› ‹_› | split | dsimp only

theorem Dev.refuseTest_foot {d : Dev} : ChangesOnly [.expo, .out] d (Dev.refuseTest d) := by
  unfold Dev.refuseTest
  try dsimp only
  repeat' first
    | intro _ | with_reducible exact .refl _ _ | with_reducible assumption | with_reducible apply ChangesOnly.ite
    | with_reducible apply ChangesOnly.foldl | (with_reducible apply ChangesOnly.step Dev.onExpo_foot; decide)
    | (with_reducible apply ChangesOnly.step Dev.refuseErr_foot; decide) | with_reducible exact .pair ‹_› ‹_› | split | dsimp only

theorem Dev.sealStart_foot {d : Dev} {cause : Nat} {test : Bool} : ChangesOnly [.sealing, .ctxs, .energy, .panel, .dw] d (Dev.sealStart d cause test) := by
  unfold Dev.sealStart
  try dsimp only
  repeat' first
    | intro _ | with_reducible exact .refl _ _ | with_reducible assumption | with_reducible apply ChangesOnly.ite
    | with_reducible apply ChangesOnly.foldl | (with_reducible apply ChangesOnly.step Dev.onSealing_foot; decide)
    | (with_reducible apply ChangesOnly.step Dev.onPanel_foot; decide) | (with_reducible apply ChangesOnly.step Dev.onSrc_foot; decide)
    | (with_reducible apply ChangesOnly.step Dev.cutMeter_foot; decide) | (with_reducible apply ChangesOnly.step Dev.sealUpd_foot; decide)
    | with_reducible exact .pair ‹_› ‹_› | split | dsimp only

theorem Dev.sealFreeze_foot {d : Dev} : ChangesOnly [.mem, .expo, .sealing, .restore, .ctxs, .dram, .energy, .flint, .lat, .heads, .upd, .dw, .out] d (Dev.sealFreeze d) := by
  unfold Dev.sealFreeze
  try dsimp only
  repeat' first
    | intro _ | with_reducible exact .refl _ _ | with_reducible assumption | with_reducible apply ChangesOnly.ite
    | with_reducible apply ChangesOnly.foldl | (with_reducible apply ChangesOnly.step Dev.onSealing_foot; decide)
    | (with_reducible apply ChangesOnly.step Dev.sealWork_foot; decide) | (with_reducible apply ChangesOnly.step Dev.bayUpd_foot; decide)
    | (with_reducible apply ChangesOnly.step Dev.sealUpd_foot; decide) | (with_reducible apply ChangesOnly.step Dev.freezeAccepted_foot; decide)
    | with_reducible exact .pair ‹_› ‹_› | split | dsimp only

theorem Dev.sealBegin_foot {d : Dev} {cause : Nat} : ChangesOnly [.mem, .expo, .sealing, .restore, .ctxs, .dram, .energy, .flint, .lat, .heads, .jcs, .upd, .panel, .dw, .out] d (Dev.sealBegin d cause) := by
  unfold Dev.sealBegin
  try dsimp only
  repeat' first
    | intro _ | with_reducible exact .refl _ _ | with_reducible assumption | with_reducible apply ChangesOnly.ite
    | with_reducible apply ChangesOnly.foldl | (with_reducible apply ChangesOnly.step Dev.onCtxs_foot; decide)
    | (with_reducible apply ChangesOnly.step Dev.sealStart_foot; decide) | (with_reducible apply ChangesOnly.step Dev.abortBg_foot; decide)
    | (with_reducible apply ChangesOnly.step Dev.sealFreeze_foot; decide) | with_reducible exact .pair ‹_› ‹_› | split | dsimp only

theorem Dev.sealHeader_foot {d : Dev} {t : Nat} : ChangesOnly [.expo, .sealing, .flash] d (Dev.sealHeader d t) := by
  unfold Dev.sealHeader
  try dsimp only
  repeat' first
    | intro _ | with_reducible exact .refl _ _ | with_reducible assumption | with_reducible apply ChangesOnly.ite
    | with_reducible apply ChangesOnly.foldl | (with_reducible apply ChangesOnly.step Dev.onSealing_foot; decide)
    | (with_reducible apply ChangesOnly.step Dev.cairn_foot; decide) | with_reducible exact .pair ‹_› ‹_› | split | dsimp only

theorem Dev.testToReal_foot {d : Dev} {cause : Nat} : ChangesOnly [.mem, .expo, .sealing, .restore, .flash, .ctxs, .dram, .energy, .flint, .lat, .heads, .jcs, .upd, .dw, .out] d (Dev.testToReal d cause) := by
  unfold Dev.testToReal
  try dsimp only
  repeat' first
    | intro _ | with_reducible exact .refl _ _ | with_reducible assumption | with_reducible apply ChangesOnly.ite
    | with_reducible apply ChangesOnly.foldl | (with_reducible apply ChangesOnly.step Dev.onSealing_foot; decide)
    | (with_reducible apply ChangesOnly.step Dev.onCtxs_foot; decide) | (with_reducible apply ChangesOnly.step Dev.sealHeader_foot; decide)
    | (with_reducible apply ChangesOnly.step Dev.abortBg_foot; decide) | (with_reducible apply ChangesOnly.step Dev.refuseTest_foot; decide)
    | (with_reducible apply ChangesOnly.step Dev.freezeAccepted_foot; decide) | (with_reducible apply ChangesOnly.step Dev.sealUpd_foot; decide)
    | (with_reducible apply ChangesOnly.step Dev.sealFreeze_foot; decide) | (with_reducible apply ChangesOnly.step Dev.landNext_foot; decide)
    | with_reducible exact .pair ‹_› ‹_› | split | dsimp only

theorem Dev.trigger_foot {d : Dev} {cause : Nat} : ChangesOnly [.mem, .pkg, .expo, .sealing, .restore, .flash, .ctxs, .dram, .energy, .therm, .flint, .qtz, .lat, .heads, .jcs, .slate, .upd, .panel, .dw, .out] d (Dev.trigger d cause) := by
  unfold Dev.trigger
  try dsimp only
  repeat' first
    | intro _ | with_reducible exact .refl _ _ | with_reducible assumption | with_reducible apply ChangesOnly.ite
    | with_reducible apply ChangesOnly.foldl | (with_reducible apply ChangesOnly.step Dev.onSealing_foot; decide)
    | (with_reducible apply ChangesOnly.step Dev.hibernateUnsealed_foot; decide) | (with_reducible apply ChangesOnly.step Dev.testToReal_foot; decide)
    | (with_reducible apply ChangesOnly.step Dev.sealBegin_foot; decide) | with_reducible exact .pair ‹_› ‹_› | split | dsimp only

theorem Dev.mainsLost_foot {d : Dev} : ChangesOnly [.energy, .flint, .panel, .dw] d (Dev.mainsLost d) := by
  unfold Dev.mainsLost
  try dsimp only
  repeat' first
    | intro _ | with_reducible exact .refl _ _ | with_reducible assumption | with_reducible apply ChangesOnly.ite
    | with_reducible apply ChangesOnly.foldl | (with_reducible apply ChangesOnly.step Dev.onPanel_foot; decide)
    | (with_reducible apply ChangesOnly.step Dev.interruptTests_foot; decide) | with_reducible exact .pair ‹_› ‹_› | split | dsimp only

theorem Dev.inputsGood_foot {d : Dev} : ChangesOnly [.panel] d (Dev.inputsGood d) := by
  unfold Dev.inputsGood
  try dsimp only
  repeat' first
    | intro _ | with_reducible exact .refl _ _ | with_reducible assumption | with_reducible apply ChangesOnly.ite
    | with_reducible apply ChangesOnly.foldl | (with_reducible apply ChangesOnly.step Dev.onPanel_foot; decide) | with_reducible exact .pair ‹_› ‹_›
    | split | dsimp only

theorem Dev.sealArms_foot {d : Dev} : ChangesOnly [.expo] d (Dev.sealArms d) := by
  unfold Dev.sealArms
  try dsimp only
  repeat' first
    | intro _ | with_reducible exact .refl _ _ | with_reducible assumption | with_reducible apply ChangesOnly.ite
    | with_reducible apply ChangesOnly.foldl | (with_reducible apply ChangesOnly.step Dev.onExpo_foot; decide) | with_reducible exact .pair ‹_› ‹_›
    | split | dsimp only

theorem Dev.readdress_foot {d : Dev} {t a n : Nat} : ChangesOnly [.expo, .flash] d (Dev.readdress d t a n) := by
  unfold Dev.readdress
  try dsimp only
  repeat' first
    | intro _ | with_reducible exact .refl _ _ | with_reducible assumption | with_reducible apply ChangesOnly.ite
    | with_reducible apply ChangesOnly.foldl | (with_reducible apply ChangesOnly.step Dev.onExpo_foot; decide)
    | (with_reducible apply ChangesOnly.step Dev.onFlow_foot; decide) | (with_reducible apply ChangesOnly.step Dev.onFl_foot; decide)
    | with_reducible exact .pair ‹_› ‹_› | split | dsimp only

theorem Dev.retryPage_foot {d : Dev} {t die : Nat} : ChangesOnly [.flash] d (Dev.retryPage d t die).1 := by
  unfold Dev.retryPage
  try dsimp only
  repeat' first
    | intro _ | with_reducible exact .refl _ _ | with_reducible assumption | with_reducible apply ChangesOnly.ite
    | with_reducible apply ChangesOnly.foldl | (with_reducible apply ChangesOnly.step Dev.landOn_foot; decide)
    | (with_reducible apply ChangesOnly.step Dev.onFl_foot; decide) | (with_reducible apply ChangesOnly.step Dev.landPage_foot; decide)
    | with_reducible exact .pair ‹_› ‹_› | split | dsimp only

theorem Dev.landFail_foot {d : Dev} {t blk : Nat} : ChangesOnly [.expo, .sealing, .flash] d (Dev.landFail d t blk) := by
  unfold Dev.landFail
  try dsimp only
  repeat' first
    | intro _ | with_reducible exact .refl _ _ | with_reducible assumption | with_reducible apply ChangesOnly.ite
    | with_reducible apply ChangesOnly.foldl | (with_reducible apply ChangesOnly.step Dev.onExpo_foot; decide)
    | (with_reducible apply ChangesOnly.step Dev.onSealing_foot; decide) | (with_reducible apply ChangesOnly.step Dev.onFl_foot; decide)
    | (with_reducible apply ChangesOnly.step Dev.onFlow_foot; decide) | (with_reducible apply ChangesOnly.step Dev.retryPage_foot; decide)
    | (with_reducible apply ChangesOnly.step Dev.readdress_foot; decide) | with_reducible exact .pair ‹_› ‹_› | split | dsimp only

theorem Dev.resvFail_foot {d : Dev} {t blk : Nat} : ChangesOnly [.sealing, .flash] d (Dev.resvFail d t blk) := by
  unfold Dev.resvFail
  try dsimp only
  repeat' first
    | intro _ | with_reducible exact .refl _ _ | with_reducible assumption | with_reducible apply ChangesOnly.ite
    | with_reducible apply ChangesOnly.foldl | (with_reducible apply ChangesOnly.step Dev.onSealing_foot; decide)
    | (with_reducible apply ChangesOnly.step Dev.onBlk_foot; decide) | (with_reducible apply ChangesOnly.step Dev.onFl_foot; decide)
    | with_reducible exact .pair ‹_› ‹_› | split | dsimp only

theorem Dev.landClose_foot {d : Dev} {t : Nat} : ChangesOnly [.flash] d (Dev.landClose d t) := by
  unfold Dev.landClose
  try dsimp only
  repeat' first
    | intro _ | with_reducible exact .refl _ _ | with_reducible assumption | with_reducible apply ChangesOnly.ite
    | with_reducible apply ChangesOnly.foldl | (with_reducible apply ChangesOnly.step Dev.onBlk_foot; decide)
    | (with_reducible apply ChangesOnly.step Dev.onFl_foot; decide) | (with_reducible apply ChangesOnly.step Dev.onFlow_foot; decide)
    | with_reducible exact .pair ‹_› ‹_› | split | dsimp only

theorem Dev.afterSeal_foot {d : Dev} : ChangesOnly [.expo, .strata, .flash, .flint] d (Dev.afterSeal d) := by
  unfold Dev.afterSeal
  try dsimp only
  repeat' first
    | intro _ | with_reducible exact .refl _ _ | with_reducible assumption | with_reducible apply ChangesOnly.ite
    | with_reducible apply ChangesOnly.foldl | (with_reducible apply ChangesOnly.step Dev.onFl_foot; decide)
    | (with_reducible apply ChangesOnly.step Dev.blockFails_foot; decide) | (with_reducible apply ChangesOnly.step Dev.resvFill_foot; decide)
    | with_reducible exact .pair ‹_› ‹_› | split | dsimp only

theorem Dev.armLate_foot {d : Dev} {t : Nat} : ChangesOnly [.expo, .flash] d (Dev.armLate d t) := by
  unfold Dev.armLate
  try dsimp only
  repeat' first
    | intro _ | with_reducible exact .refl _ _ | with_reducible assumption | with_reducible apply ChangesOnly.ite
    | with_reducible apply ChangesOnly.foldl | (with_reducible apply ChangesOnly.step Dev.cairn_foot; decide) | with_reducible exact .pair ‹_› ‹_›
    | split | dsimp only

theorem Dev.learnReject_foot {d : Dev} : ChangesOnly [.sealing, .flint] d (Dev.learnReject d) := by
  unfold Dev.learnReject
  try dsimp only
  repeat' first
    | intro _ | with_reducible exact .refl _ _ | with_reducible assumption | with_reducible apply ChangesOnly.ite
    | with_reducible apply ChangesOnly.foldl | (with_reducible apply ChangesOnly.step Dev.onSealing_foot; decide)
    | (with_reducible apply ChangesOnly.step Dev.raise_foot; decide) | with_reducible exact .pair ‹_› ‹_› | split | dsimp only

theorem Dev.sealLearn_foot {d : Dev} : ChangesOnly [.expo, .sealing, .energy, .flint] d (Dev.sealLearn d) := by
  unfold Dev.sealLearn
  try dsimp only
  repeat' first
    | intro _ | with_reducible exact .refl _ _ | with_reducible assumption | with_reducible apply ChangesOnly.ite
    | with_reducible apply ChangesOnly.foldl | (with_reducible apply ChangesOnly.step Dev.onSealing_foot; decide)
    | (with_reducible apply ChangesOnly.step Dev.onExpo_foot; decide) | (with_reducible apply ChangesOnly.step Dev.onEnergy_foot; decide)
    | (with_reducible apply ChangesOnly.step Dev.learnReject_foot; decide) | (with_reducible apply ChangesOnly.step Dev.govTrigger_foot; decide)
    | with_reducible exact .pair ‹_› ‹_› | split | dsimp only

theorem Dev.sealRecord_foot {d : Dev} {warm : Bool} : ChangesOnly [.sealing, .slate] d (Dev.sealRecord d warm) := by
  unfold Dev.sealRecord
  try dsimp only
  repeat' first
    | intro _ | with_reducible exact .refl _ _ | with_reducible assumption | with_reducible apply ChangesOnly.ite
    | with_reducible apply ChangesOnly.foldl | (with_reducible apply ChangesOnly.step Dev.onSealing_foot; decide)
    | (with_reducible apply ChangesOnly.step Dev.storeNew_foot; decide) | with_reducible exact .pair ‹_› ‹_› | split | dsimp only

theorem Dev.flintExtract_foot {d : Dev} : ChangesOnly [.flint, .slate] d (Dev.flintExtract d) := by
  unfold Dev.flintExtract
  try dsimp only
  repeat' first
    | intro _ | with_reducible exact .refl _ _ | with_reducible assumption | with_reducible apply ChangesOnly.ite
    | with_reducible apply ChangesOnly.foldl | (with_reducible apply ChangesOnly.step Dev.onFlint_foot; decide)
    | (with_reducible apply ChangesOnly.step Dev.storeFramed_foot; decide) | with_reducible exact .pair ‹_› ‹_› | split | dsimp only

theorem Dev.snapKeep_foot {d : Dev} : ChangesOnly [.snap, .slate] d (Dev.snapKeep d) := by
  unfold Dev.snapKeep
  try dsimp only
  repeat' first
    | intro _ | with_reducible exact .refl _ _ | with_reducible assumption | with_reducible apply ChangesOnly.ite
    | with_reducible apply ChangesOnly.foldl | (with_reducible apply ChangesOnly.step Dev.onSnap_foot; decide)
    | (with_reducible apply ChangesOnly.step Dev.storeFramed_foot; decide) | with_reducible exact .pair ‹_› ‹_› | split | dsimp only

theorem Dev.thermKeep_foot {d : Dev} : ChangesOnly [.therm, .slate] d (Dev.thermKeep d) := by
  unfold Dev.thermKeep
  try dsimp only
  repeat' first
    | intro _ | with_reducible exact .refl _ _ | with_reducible assumption | with_reducible apply ChangesOnly.ite
    | with_reducible apply ChangesOnly.foldl | (with_reducible apply ChangesOnly.step Dev.onTherm_foot; decide)
    | (with_reducible apply ChangesOnly.step Dev.storeNew_foot; decide) | with_reducible exact .pair ‹_› ‹_› | split | dsimp only

theorem Dev.stampFloor_foot {d : Dev} : ChangesOnly [.qtz] d (Dev.stampFloor d) := by
  unfold Dev.stampFloor
  try dsimp only
  repeat' first
    | intro _ | with_reducible exact .refl _ _ | with_reducible assumption | with_reducible apply ChangesOnly.ite
    | with_reducible apply ChangesOnly.foldl | (with_reducible apply ChangesOnly.step Dev.onQtz_foot; decide) | with_reducible exact .pair ‹_› ‹_›
    | split | dsimp only

theorem Dev.dirtyShutdown_foot {d : Dev} {identity : Nat} : ChangesOnly [.restore, .slate] d (Dev.dirtyShutdown d identity) := by
  unfold Dev.dirtyShutdown
  try dsimp only
  repeat' first
    | intro _ | with_reducible exact .refl _ _ | with_reducible assumption | with_reducible apply ChangesOnly.ite
    | with_reducible apply ChangesOnly.foldl | (with_reducible apply ChangesOnly.step Dev.onRestore_foot; decide)
    | (with_reducible apply ChangesOnly.step Dev.recDue_foot; decide) | with_reducible exact .pair ‹_› ‹_› | split | dsimp only

theorem Dev.mountReset_foot {d : Dev} : ChangesOnly [.mem, .expo, .restore, .flash, .ctxs, .heads] d (Dev.mountReset d) := by
  unfold Dev.mountReset
  try dsimp only
  repeat' first
    | intro _ | with_reducible exact .refl _ _ | with_reducible assumption | with_reducible apply ChangesOnly.ite
    | with_reducible apply ChangesOnly.foldl | (with_reducible apply ChangesOnly.step Dev.onRestore_foot; decide)
    | (with_reducible apply ChangesOnly.step Dev.onExpo_foot; decide) | (with_reducible apply ChangesOnly.step Dev.onMem_foot; decide)
    | (with_reducible apply ChangesOnly.step Dev.onCtxs_foot; decide) | (with_reducible apply ChangesOnly.step Dev.landClose_foot; decide)
    | (with_reducible apply ChangesOnly.step Dev.onHead_foot; decide) | with_reducible exact .pair ‹_› ‹_› | split | dsimp only

theorem Dev.beginMount_foot {d : Dev} : ChangesOnly [.mem, .expo, .restore, .flash, .ctxs, .heads, .dw] d (Dev.beginMount d) := by
  unfold Dev.beginMount
  try dsimp only
  repeat' first
    | intro _ | with_reducible exact .refl _ _ | with_reducible assumption | with_reducible apply ChangesOnly.ite
    | with_reducible apply ChangesOnly.foldl | (with_reducible apply ChangesOnly.step Dev.restUpd_foot; decide)
    | (with_reducible apply ChangesOnly.step Dev.mountReset_foot; decide) | with_reducible exact .pair ‹_› ‹_› | split | dsimp only

theorem Dev.reportAborts_foot {d : Dev} : ChangesOnly [.flint, .lat] d (Dev.reportAborts d) := by
  unfold Dev.reportAborts
  try dsimp only
  repeat' first
    | intro _ | with_reducible exact .refl _ _ | with_reducible assumption | with_reducible apply ChangesOnly.ite
    | with_reducible apply ChangesOnly.foldl | (with_reducible apply ChangesOnly.step Dev.onLat_foot; decide)
    | (with_reducible apply ChangesOnly.step Dev.raise_foot; decide) | with_reducible exact .pair ‹_› ‹_› | split | dsimp only

theorem Dev.warmOpen_foot {d : Dev} : ChangesOnly [.mem, .pkg, .expo, .sealing, .restore, .strata, .flash, .ctxs, .dram, .energy, .flint, .lat, .heads, .jcs, .slate, .upd, .mirror, .dw, .out] d (Dev.warmOpen d) := by
  unfold Dev.warmOpen
  try dsimp only
  repeat' first
    | intro _ | with_reducible exact .refl _ _ | with_reducible assumption | with_reducible apply ChangesOnly.ite
    | with_reducible apply ChangesOnly.foldl | (with_reducible apply ChangesOnly.step Dev.onSealing_foot; decide)
    | (with_reducible apply ChangesOnly.step Dev.onRestore_foot; decide) | (with_reducible apply ChangesOnly.step Dev.onLat_foot; decide)
    | (with_reducible apply ChangesOnly.step Dev.reportAborts_foot; decide) | (with_reducible apply ChangesOnly.step Dev.landClose_foot; decide)
    | (with_reducible apply ChangesOnly.step Dev.ledgerAll_foot; decide) | (with_reducible apply ChangesOnly.step Dev.armLate_foot; decide)
    | (with_reducible apply ChangesOnly.step Dev.dirtyShutdown_foot; decide) | (with_reducible apply ChangesOnly.step Dev.onHead_foot; decide)
    | (with_reducible apply ChangesOnly.step Dev.tileChans_foot; decide) | (with_reducible apply ChangesOnly.step Dev.heatApply_foot; decide)
    | (with_reducible apply ChangesOnly.step Dev.resumeWindow_foot; decide) | (with_reducible apply ChangesOnly.step Dev.pointCheck_foot; decide)
    | (with_reducible apply ChangesOnly.step Dev.restAgain_foot; decide) | (with_reducible apply ChangesOnly.step Dev.faultBack_foot; decide)
    | (with_reducible apply ChangesOnly.step Dev.resumeRings_foot; decide) | (with_reducible apply ChangesOnly.step Dev.serve_foot; decide)
    | (with_reducible apply ChangesOnly.step Dev.afterSeal_foot; decide) | (with_reducible apply ChangesOnly.step Dev.rewait_foot; decide)
    | (with_reducible apply ChangesOnly.step Dev.recompute_foot; decide) | (with_reducible apply ChangesOnly.step Dev.bayUpd_foot; decide)
    | (with_reducible apply ChangesOnly.step Dev.restUpd_foot; decide) | (with_reducible apply ChangesOnly.step Dev.sealUpd_foot; decide)
    | with_reducible exact .pair ‹_› ‹_› | split | dsimp only

theorem Dev.warmReturn_foot {d : Dev} {canary : BitVec 8} : ChangesOnly [.mem, .pkg, .expo, .sealing, .restore, .strata, .flash, .ctxs, .dram, .energy, .flint, .lat, .heads, .jcs, .slate, .upd, .mirror, .dw, .out] d (Dev.warmReturn d canary) := by
  unfold Dev.warmReturn
  try dsimp only
  repeat' first
    | intro _ | with_reducible exact .refl _ _ | with_reducible assumption | with_reducible apply ChangesOnly.ite
    | with_reducible apply ChangesOnly.foldl | (with_reducible apply ChangesOnly.step Dev.onSealing_foot; decide)
    | (with_reducible apply ChangesOnly.step Dev.warmOpen_foot; decide) | (with_reducible apply ChangesOnly.step Dev.faultBack_foot; decide)
    | (with_reducible apply ChangesOnly.step Dev.sealUpd_foot; decide) | (with_reducible apply ChangesOnly.step Dev.beginMount_foot; decide)
    | with_reducible exact .pair ‹_› ‹_› | split | dsimp only

theorem Dev.testEnd_foot {d : Dev} {ext : Nat} {measured : Bool} : ChangesOnly [.mem, .pkg, .expo, .sealing, .restore, .strata, .flash, .ctxs, .dram, .energy, .flint, .lat, .heads, .jcs, .slate, .upd, .panel, .mirror, .dw, .out] d (Dev.testEnd d ext measured) := by
  unfold Dev.testEnd
  try dsimp only
  repeat' first
    | intro _ | with_reducible exact .refl _ _ | with_reducible assumption | with_reducible apply ChangesOnly.ite
    | with_reducible apply ChangesOnly.foldl | (with_reducible apply ChangesOnly.step Dev.onSealing_foot; decide)
    | (with_reducible apply ChangesOnly.step Dev.onLat_foot; decide) | (with_reducible apply ChangesOnly.step Dev.onPanel_foot; decide)
    | (with_reducible apply ChangesOnly.step Dev.landClose_foot; decide) | (with_reducible apply ChangesOnly.step Dev.sealLearn_foot; decide)
    | (with_reducible apply ChangesOnly.step Dev.sealRecord_foot; decide) | (with_reducible apply ChangesOnly.step Dev.resumeWindow_foot; decide)
    | (with_reducible apply ChangesOnly.step Dev.releaseTest_foot; decide) | (with_reducible apply ChangesOnly.step Dev.pointCheck_foot; decide)
    | (with_reducible apply ChangesOnly.step Dev.restAgain_foot; decide) | (with_reducible apply ChangesOnly.step Dev.reportAborts_foot; decide)
    | (with_reducible apply ChangesOnly.step Dev.armLate_foot; decide) | (with_reducible apply ChangesOnly.step Dev.fetchRings_foot; decide)
    | (with_reducible apply ChangesOnly.step Dev.afterSeal_foot; decide) | (with_reducible apply ChangesOnly.step Dev.rewait_foot; decide)
    | (with_reducible apply ChangesOnly.step Dev.serve_foot; decide) | (with_reducible apply ChangesOnly.step Dev.bgEnd_foot; decide)
    | (with_reducible apply ChangesOnly.step Dev.heatApply_foot; decide) | (with_reducible apply ChangesOnly.step Dev.faultBack_foot; decide)
    | (with_reducible apply ChangesOnly.step Dev.govTrigger_foot; decide) | (with_reducible apply ChangesOnly.step Dev.sealUpd_foot; decide)
    | with_reducible exact .pair ‹_› ‹_› | split | dsimp only

theorem Dev.stage5Begin_foot {d : Dev} : ChangesOnly [.sealing, .dram, .panel, .dw] d (Dev.stage5Begin d) := by
  unfold Dev.stage5Begin
  try dsimp only
  repeat' first
    | intro _ | with_reducible exact .refl _ _ | with_reducible assumption | with_reducible apply ChangesOnly.ite
    | with_reducible apply ChangesOnly.foldl | (with_reducible apply ChangesOnly.step Dev.onPanel_foot; decide)
    | (with_reducible apply ChangesOnly.step Dev.onSealing_foot; decide) | (with_reducible apply ChangesOnly.step Dev.tileChans_foot; decide)
    | (with_reducible apply ChangesOnly.step Dev.sealUpd_foot; decide) | with_reducible exact .pair ‹_› ‹_› | split | dsimp only

theorem Dev.forcedReset_foot {d : Dev} : ChangesOnly [.pkg, .expo, .sealing, .restore, .dram, .energy, .flint, .panel, .dw, .out] d (Dev.forcedReset d) := by
  unfold Dev.forcedReset
  try dsimp only
  repeat' first
    | intro _ | with_reducible exact .refl _ _ | with_reducible assumption | with_reducible apply ChangesOnly.ite
    | with_reducible apply ChangesOnly.foldl | (with_reducible apply ChangesOnly.step Dev.onRestore_foot; decide)
    | (with_reducible apply ChangesOnly.step Dev.onPanel_foot; decide) | (with_reducible apply ChangesOnly.step Dev.safeState_foot; decide)
    | with_reducible exact .pair ‹_› ‹_› | split | dsimp only

theorem Dev.powerStart_foot {d : Dev} : ChangesOnly [.sealing, .restore, .therm, .panel] d (Dev.powerStart d) := by
  unfold Dev.powerStart
  try dsimp only
  repeat' first
    | intro _ | with_reducible exact .refl _ _ | with_reducible assumption | with_reducible apply ChangesOnly.ite
    | with_reducible apply ChangesOnly.foldl | (with_reducible apply ChangesOnly.step Dev.onPanel_foot; decide)
    | (with_reducible apply ChangesOnly.step Dev.onSealing_foot; decide) | (with_reducible apply ChangesOnly.step Dev.onTherm_foot; decide)
    | (with_reducible apply ChangesOnly.step Dev.onRestore_foot; decide) | with_reducible exact .pair ‹_› ‹_› | split | dsimp only

theorem Dev.testBegin_foot {d : Dev} {holdLimit fillGib : Nat} : ChangesOnly [.sealing, .ctxs, .energy, .panel, .dw] d (Dev.testBegin d holdLimit fillGib) := by
  unfold Dev.testBegin
  try dsimp only
  repeat' first
    | intro _ | with_reducible exact .refl _ _ | with_reducible assumption | with_reducible apply ChangesOnly.ite
    | with_reducible apply ChangesOnly.foldl | (with_reducible apply ChangesOnly.step Dev.onSealing_foot; decide)
    | (with_reducible apply ChangesOnly.step Dev.onEnergy_foot; decide) | (with_reducible apply ChangesOnly.step Dev.sealStart_foot; decide)
    | (with_reducible apply ChangesOnly.step Dev.bayUpd_foot; decide) | with_reducible exact .pair ‹_› ‹_› | split | dsimp only

/-! ### Slate -/

theorem Dev.slKeyWrite_foot {d : Dev} {t key : Nat} : ChangesOnly [.flint, .slate] d (Dev.slKeyWrite d t key) := by
  unfold Dev.slKeyWrite
  try dsimp only
  repeat' first
    | intro _ | with_reducible exact .refl _ _ | with_reducible assumption | with_reducible apply ChangesOnly.ite
    | with_reducible apply ChangesOnly.foldl | (with_reducible apply ChangesOnly.step Dev.slRefuse_foot; decide)
    | (with_reducible apply ChangesOnly.step Dev.onSl_foot; decide) | with_reducible exact .pair ‹_› ‹_› | split | dsimp only

theorem Dev.slCmdWrite_foot {d : Dev} {t code : Nat} : ChangesOnly [.flint, .slate] d (Dev.slCmdWrite d t code) := by
  unfold Dev.slCmdWrite
  try dsimp only
  repeat' first
    | intro _ | with_reducible exact .refl _ _ | with_reducible assumption | with_reducible apply ChangesOnly.ite
    | with_reducible apply ChangesOnly.foldl | (with_reducible apply ChangesOnly.step Dev.slRefuse_foot; decide)
    | (with_reducible apply ChangesOnly.step Dev.raise_foot; decide) | (with_reducible apply ChangesOnly.step Dev.onSl_foot; decide)
    | with_reducible exact .pair ‹_› ‹_› | split | dsimp only

theorem Dev.operandWrite_foot {d : Dev} {t k v fetch purpose : Nat} : ChangesOnly [.expo, .restore, .ctxs, .flint, .slate] d (Dev.operandWrite d t k v fetch purpose) := by
  unfold Dev.operandWrite
  try dsimp only
  repeat' first
    | intro _ | with_reducible exact .refl _ _ | with_reducible assumption | with_reducible apply ChangesOnly.ite
    | with_reducible apply ChangesOnly.foldl | (with_reducible apply ChangesOnly.step Dev.onSl_foot; decide)
    | (with_reducible apply ChangesOnly.step Dev.slTouch_foot; decide) | (with_reducible apply ChangesOnly.step Dev.slRefuse_foot; decide)
    | (with_reducible apply ChangesOnly.step Dev.opStart_foot; decide) | (with_reducible apply ChangesOnly.step Dev.fetch_foot; decide)
    | with_reducible exact .pair ‹_› ‹_› | split | dsimp only

theorem Dev.opEnds_foot {d : Dev} {t b err : Nat} : ChangesOnly [.slate] d (Dev.opEnds d t b err) := by
  unfold Dev.opEnds
  try dsimp only
  repeat' first
    | intro _ | with_reducible exact .refl _ _ | with_reducible assumption | with_reducible apply ChangesOnly.ite
    | with_reducible apply ChangesOnly.foldl | (with_reducible apply ChangesOnly.step Dev.onSl_foot; decide) | with_reducible exact .pair ‹_› ‹_›
    | split | dsimp only

theorem Dev.slotState_foot {d : Dev} {t slot st : Nat} : ChangesOnly [.slate, .upd] d (Dev.slotState d t slot st) := by
  unfold Dev.slotState
  try dsimp only
  repeat' first
    | intro _ | with_reducible exact .refl _ _ | with_reducible assumption | with_reducible apply ChangesOnly.ite
    | with_reducible apply ChangesOnly.foldl | (with_reducible apply ChangesOnly.step Dev.onUrec_foot; decide)
    | (with_reducible apply ChangesOnly.step Dev.recDueOn_foot; decide) | with_reducible exact .pair ‹_› ‹_› | split | dsimp only

theorem Dev.sectorFails_foot {d : Dev} {t s : Nat} : ChangesOnly [.flint, .slate, .upd] d (Dev.sectorFails d t s) := by
  unfold Dev.sectorFails
  try dsimp only
  repeat' first
    | intro _ | with_reducible exact .refl _ _ | with_reducible assumption | with_reducible apply ChangesOnly.ite
    | with_reducible apply ChangesOnly.foldl | (with_reducible apply ChangesOnly.step Dev.onSl_foot; decide)
    | (with_reducible apply ChangesOnly.step Dev.intentPut_foot; decide) | (with_reducible apply ChangesOnly.step Dev.raise_foot; decide)
    | (with_reducible apply ChangesOnly.step Dev.slotState_foot; decide) | with_reducible exact .pair ‹_› ‹_› | split | dsimp only

theorem Dev.eraseEnds_foot {d : Dev} {t : Nat} {o : SlateOp} {fail : Nat} : ChangesOnly [.flint, .slate, .upd] d (Dev.eraseEnds d t o fail) := by
  unfold Dev.eraseEnds
  try dsimp only
  repeat' first
    | intro _ | with_reducible exact .refl _ _ | with_reducible assumption | with_reducible apply ChangesOnly.ite
    | with_reducible apply ChangesOnly.foldl | (with_reducible apply ChangesOnly.step Dev.secClear_foot; decide)
    | (with_reducible apply ChangesOnly.step Dev.onSl_foot; decide) | (with_reducible apply ChangesOnly.step Dev.raise_foot; decide)
    | (with_reducible apply ChangesOnly.step Dev.eraseDone_foot; decide) | (with_reducible apply ChangesOnly.step Dev.sectorFails_foot; decide)
    | with_reducible exact .pair ‹_› ‹_› | split | dsimp only

theorem Dev.slSuspend_foot {d : Dev} {t : Nat} : ChangesOnly [.slate] d (Dev.slSuspend d t) := by
  unfold Dev.slSuspend
  try dsimp only
  repeat' first
    | intro _ | with_reducible exact .refl _ _ | with_reducible assumption | with_reducible apply ChangesOnly.ite
    | with_reducible apply ChangesOnly.foldl | (with_reducible apply ChangesOnly.step Dev.onSl_foot; decide) | with_reducible exact .pair ‹_› ‹_›
    | split | dsimp only

theorem Dev.slResume_foot {d : Dev} {t : Nat} : ChangesOnly [.slate] d (Dev.slResume d t) := by
  unfold Dev.slResume
  try dsimp only
  repeat' first
    | intro _ | with_reducible exact .refl _ _ | with_reducible assumption | with_reducible apply ChangesOnly.ite
    | with_reducible apply ChangesOnly.foldl | (with_reducible apply ChangesOnly.step Dev.onSl_foot; decide) | with_reducible exact .pair ‹_› ‹_›
    | split | dsimp only

theorem Dev.slateRegWrite_foot {d : Dev} {t off v fetch purpose : Nat} : ChangesOnly [.expo, .restore, .ctxs, .flint, .slate] d (Dev.slateRegWrite d t off v fetch purpose) := by
  unfold Dev.slateRegWrite
  try dsimp only
  repeat' first
    | intro _ | with_reducible exact .refl _ _ | with_reducible assumption | with_reducible apply ChangesOnly.ite
    | with_reducible apply ChangesOnly.foldl | (with_reducible apply ChangesOnly.step Dev.slKeyWrite_foot; decide)
    | (with_reducible apply ChangesOnly.step Dev.slCmdWrite_foot; decide) | (with_reducible apply ChangesOnly.step Dev.operandWrite_foot; decide)
    | (with_reducible apply ChangesOnly.step Dev.fetch_foot; decide) | (with_reducible apply ChangesOnly.step Dev.slTouch_foot; decide)
    | (with_reducible apply ChangesOnly.step Dev.slSuspend_foot; decide) | (with_reducible apply ChangesOnly.step Dev.slResume_foot; decide)
    | (with_reducible apply ChangesOnly.step Dev.onSl_foot; decide) | with_reducible exact .pair ‹_› ‹_› | split | dsimp only

theorem Dev.slateReadErr_foot {d : Dev} {t e : Nat} : ChangesOnly [.flint, .slate] d (Dev.slateReadErr d t e) := by
  unfold Dev.slateReadErr
  try dsimp only
  repeat' first
    | intro _ | with_reducible exact .refl _ _ | with_reducible assumption | with_reducible apply ChangesOnly.ite
    | with_reducible apply ChangesOnly.foldl | (with_reducible apply ChangesOnly.step Dev.onSl_foot; decide)
    | (with_reducible apply ChangesOnly.step Dev.raise_foot; decide) | with_reducible exact .pair ‹_› ‹_› | split | dsimp only

theorem Dev.storeMove_foot {d : Dev} {t k purpose : Nat} : ChangesOnly [.slate] d (Dev.storeMove d t k purpose) := by
  unfold Dev.storeMove
  try dsimp only
  repeat' first
    | intro _ | with_reducible exact .refl _ _ | with_reducible assumption | with_reducible apply ChangesOnly.ite
    | with_reducible apply ChangesOnly.foldl | (with_reducible apply ChangesOnly.step Dev.onSl_foot; decide)
    | (with_reducible apply ChangesOnly.step Dev.storePut_foot; decide) | (with_reducible apply ChangesOnly.step Dev.eraseRun_foot; decide)
    | with_reducible exact .pair ‹_› ‹_› | split | dsimp only

/-! ### Thermal -/

theorem Dev.thermRd_foot {d : Dev} {n : Nat} : ChangesOnly [.dw] d (Dev.thermRd d n) := by
  unfold Dev.thermRd
  try dsimp only
  repeat' first
    | intro _ | with_reducible exact .refl _ _ | with_reducible assumption | with_reducible apply ChangesOnly.ite
    | with_reducible apply ChangesOnly.foldl | (with_reducible apply ChangesOnly.step Dev.dwSet_foot; decide) | with_reducible exact .pair ‹_› ‹_›
    | split | dsimp only

theorem Dev.thermTileUpd_foot {d : Dev} {t : Nat} : ChangesOnly [.dw] d (Dev.thermTileUpd d t) := by
  unfold Dev.thermTileUpd
  try dsimp only
  repeat' first
    | intro _ | with_reducible exact .refl _ _ | with_reducible assumption | with_reducible apply ChangesOnly.ite
    | with_reducible apply ChangesOnly.foldl | (with_reducible apply ChangesOnly.step Dev.dwUpd_foot; decide) | with_reducible exact .pair ‹_› ‹_›
    | split | dsimp only

theorem Dev.thermUpd_foot {d : Dev} : ChangesOnly [.dw] d (Dev.thermUpd d) := by
  unfold Dev.thermUpd
  try dsimp only
  repeat' first
    | intro _ | with_reducible exact .refl _ _ | with_reducible assumption | with_reducible apply ChangesOnly.ite
    | with_reducible apply ChangesOnly.foldl | (with_reducible apply ChangesOnly.step Dev.dwUpd_foot; decide)
    | (with_reducible apply ChangesOnly.step Dev.thermRd_foot; decide) | (with_reducible apply ChangesOnly.step Dev.thermTileUpd_foot; decide)
    | with_reducible exact .pair ‹_› ‹_› | split | dsimp only

theorem Dev.thermShow_foot {d : Dev} {was : List Nat} : ChangesOnly [.dw] d (Dev.thermShow d was) := by
  unfold Dev.thermShow
  try dsimp only
  repeat' first
    | intro _ | with_reducible exact .refl _ _ | with_reducible assumption | with_reducible apply ChangesOnly.ite
    | with_reducible apply ChangesOnly.foldl | (with_reducible apply ChangesOnly.step Dev.thermUpd_foot; decide) | with_reducible exact .pair ‹_› ‹_›
    | split | dsimp only

theorem Dev.thermPend_foot {d : Dev} {r : ThermRec} : ChangesOnly [.therm] d (Dev.thermPend d r) := by
  unfold Dev.thermPend
  try dsimp only
  repeat' first
    | intro _ | with_reducible exact .refl _ _ | with_reducible assumption | with_reducible apply ChangesOnly.ite
    | with_reducible apply ChangesOnly.foldl | (with_reducible apply ChangesOnly.step Dev.onTherm_foot; decide) | with_reducible exact .pair ‹_› ‹_›
    | split | dsimp only

theorem Dev.levelUpd_foot {d : Dev} {t : Nat} : ChangesOnly [.mem, .pkg, .expo, .restore, .ctxs, .dram, .flint, .lat, .heads, .slate, .dw, .out] d (Dev.levelUpd d t) := by
  unfold Dev.levelUpd
  try dsimp only
  repeat' first
    | intro _ | with_reducible exact .refl _ _ | with_reducible assumption | with_reducible apply ChangesOnly.ite
    | with_reducible apply ChangesOnly.foldl | (with_reducible apply ChangesOnly.step Dev.onTile_foot; decide)
    | (with_reducible apply ChangesOnly.step Dev.raise_foot; decide) | (with_reducible apply ChangesOnly.step Dev.govTrigger_foot; decide)
    | (with_reducible apply ChangesOnly.step Dev.capApply_foot; decide) | (with_reducible apply ChangesOnly.step Dev.fspStart_foot; decide)
    | (with_reducible apply ChangesOnly.step Dev.pointCheck_foot; decide) | with_reducible exact .pair ‹_› ‹_› | split | dsimp only

theorem Dev.tileHeat_foot {d : Dev} {t : Nat} : ChangesOnly [.mem, .pkg, .expo, .restore, .ctxs, .dram, .therm, .flint, .lat, .heads, .slate, .dw, .out] d (Dev.tileHeat d t) := by
  unfold Dev.tileHeat
  try dsimp only
  repeat' first
    | intro _ | with_reducible exact .refl _ _ | with_reducible assumption | with_reducible apply ChangesOnly.ite
    | with_reducible apply ChangesOnly.foldl | (with_reducible apply ChangesOnly.step Dev.onTtile_foot; decide)
    | (with_reducible apply ChangesOnly.step Dev.raise_foot; decide) | (with_reducible apply ChangesOnly.step Dev.thermPend_foot; decide)
    | (with_reducible apply ChangesOnly.step Dev.levelUpd_foot; decide) | with_reducible exact .pair ‹_› ‹_› | split | dsimp only

theorem Dev.crossing_foot {d : Dev} {n k : Nat} : ChangesOnly [.therm, .flint] d (Dev.crossing d n k) := by
  unfold Dev.crossing
  try dsimp only
  repeat' first
    | intro _ | with_reducible exact .refl _ _ | with_reducible assumption | with_reducible apply ChangesOnly.ite
    | with_reducible apply ChangesOnly.foldl | (with_reducible apply ChangesOnly.step Dev.onTtile_foot; decide)
    | (with_reducible apply ChangesOnly.step Dev.raise_foot; decide) | (with_reducible apply ChangesOnly.step Dev.onBoardIn_foot; decide)
    | with_reducible exact .pair ‹_› ‹_› | split | dsimp only

theorem Dev.thermShutdown_foot {d : Dev} {n : Nat} : ChangesOnly [.mem, .pkg, .expo, .sealing, .restore, .flash, .ctxs, .dram, .energy, .therm, .flint, .qtz, .lat, .heads, .jcs, .slate, .upd, .panel, .dw, .out] d (Dev.thermShutdown d n) := by
  unfold Dev.thermShutdown
  try dsimp only
  repeat' first
    | intro _ | with_reducible exact .refl _ _ | with_reducible assumption | with_reducible apply ChangesOnly.ite
    | with_reducible apply ChangesOnly.foldl | (with_reducible apply ChangesOnly.step Dev.onTherm_foot; decide)
    | (with_reducible apply ChangesOnly.step Dev.raise_foot; decide) | (with_reducible apply ChangesOnly.step Dev.trigger_foot; decide)
    | (with_reducible apply ChangesOnly.step Dev.thermPend_foot; decide) | with_reducible exact .pair ‹_› ‹_› | split | dsimp only

theorem Dev.threshold_foot {d : Dev} {n k : Nat} : ChangesOnly [.mem, .pkg, .expo, .sealing, .restore, .flash, .ctxs, .dram, .energy, .therm, .flint, .qtz, .lat, .heads, .jcs, .slate, .upd, .panel, .dw, .out] d (Dev.threshold d n k) := by
  unfold Dev.threshold
  try dsimp only
  repeat' first
    | intro _ | with_reducible exact .refl _ _ | with_reducible assumption | with_reducible apply ChangesOnly.ite
    | with_reducible apply ChangesOnly.foldl | (with_reducible apply ChangesOnly.step Dev.onSens_foot; decide)
    | (with_reducible apply ChangesOnly.step Dev.raise_foot; decide) | (with_reducible apply ChangesOnly.step Dev.crossing_foot; decide)
    | (with_reducible apply ChangesOnly.step Dev.thermShutdown_foot; decide) | with_reducible exact .pair ‹_› ‹_› | split | dsimp only

theorem Dev.takeCode_foot {d : Dev} {n : Nat} {code : Int} : ChangesOnly [.therm] d (Dev.takeCode d n code) := by
  unfold Dev.takeCode
  try dsimp only
  repeat' first
    | intro _ | with_reducible exact .refl _ _ | with_reducible assumption | with_reducible apply ChangesOnly.ite
    | with_reducible apply ChangesOnly.foldl | (with_reducible apply ChangesOnly.step Dev.onSens_foot; decide) | with_reducible exact .pair ‹_› ‹_›
    | split | dsimp only

theorem Dev.sensorFails_foot {d : Dev} {top : Nat → Nat} {n cause : Nat} : ChangesOnly [.therm, .flint] d (Dev.sensorFails d top n cause) := by
  unfold Dev.sensorFails
  try dsimp only
  repeat' first
    | intro _ | with_reducible exact .refl _ _ | with_reducible assumption | with_reducible apply ChangesOnly.ite
    | with_reducible apply ChangesOnly.foldl | (with_reducible apply ChangesOnly.step Dev.onSens_foot; decide)
    | (with_reducible apply ChangesOnly.step Dev.raise_foot; decide) | (with_reducible apply ChangesOnly.step Dev.thermPend_foot; decide)
    | (with_reducible apply ChangesOnly.step Dev.onTtile_foot; decide) | with_reducible exact .pair ‹_› ‹_› | split | dsimp only

theorem Dev.judgeSensor_foot {d : Dev} {top : Nat → Nat} {n : Nat} : ChangesOnly [.therm, .flint] d (Dev.judgeSensor d top n) := by
  unfold Dev.judgeSensor
  try dsimp only
  repeat' first
    | intro _ | with_reducible exact .refl _ _ | with_reducible assumption | with_reducible apply ChangesOnly.ite
    | with_reducible apply ChangesOnly.foldl | (with_reducible apply ChangesOnly.step Dev.onSens_foot; decide)
    | (with_reducible apply ChangesOnly.step Dev.sensorFails_foot; decide) | with_reducible exact .pair ‹_› ‹_› | split | dsimp only

theorem Dev.substAll_foot {d : Dev} : ChangesOnly [.therm] d (Dev.substAll d) := by
  unfold Dev.substAll
  try dsimp only
  repeat' first
    | intro _ | with_reducible exact .refl _ _ | with_reducible assumption | with_reducible apply ChangesOnly.ite
    | with_reducible apply ChangesOnly.foldl | (with_reducible apply ChangesOnly.step Dev.onSens_foot; decide) | with_reducible exact .pair ‹_› ‹_›
    | split | dsimp only

theorem Dev.learnOffsets_foot {d : Dev} : ChangesOnly [.therm] d (Dev.learnOffsets d) := by
  unfold Dev.learnOffsets
  try dsimp only
  repeat' first
    | intro _ | with_reducible exact .refl _ _ | with_reducible assumption | with_reducible apply ChangesOnly.ite
    | with_reducible apply ChangesOnly.foldl | (with_reducible apply ChangesOnly.step Dev.onSens_foot; decide) | with_reducible exact .pair ‹_› ‹_›
    | split | dsimp only

/-! ### Quartz -/

theorem Dev.qtzUpd_foot {d : Dev} : ChangesOnly [.dw] d (Dev.qtzUpd d) := by
  unfold Dev.qtzUpd
  try dsimp only
  repeat' first
    | intro _ | with_reducible exact .refl _ _ | with_reducible assumption | with_reducible apply ChangesOnly.ite
    | with_reducible apply ChangesOnly.foldl | (with_reducible apply ChangesOnly.step Dev.dwUpd_foot; decide) | with_reducible exact .pair ‹_› ‹_›
    | split | dsimp only

theorem Dev.setOffset_foot {d : Dev} {v : Int} {src : Nat} : ChangesOnly [.ctxs, .qtz, .slate] d (Dev.setOffset d v src) := by
  unfold Dev.setOffset
  try dsimp only
  repeat' first
    | intro _ | with_reducible exact .refl _ _ | with_reducible assumption | with_reducible apply ChangesOnly.ite
    | with_reducible apply ChangesOnly.foldl | (with_reducible apply ChangesOnly.step Dev.onQtz_foot; decide)
    | (with_reducible apply ChangesOnly.step Dev.onCtxs_foot; decide) | (with_reducible apply ChangesOnly.step Dev.uncSync_foot; decide)
    | (with_reducible apply ChangesOnly.step Dev.recDue_foot; decide) | with_reducible exact .pair ‹_› ‹_› | split | dsimp only

theorem Dev.ppsHold_foot {d : Dev} : ChangesOnly [.flint, .qtz, .dw] d (Dev.ppsHold d) := by
  unfold Dev.ppsHold
  try dsimp only
  repeat' first
    | intro _ | with_reducible exact .refl _ _ | with_reducible assumption | with_reducible apply ChangesOnly.ite
    | with_reducible apply ChangesOnly.foldl | (with_reducible apply ChangesOnly.step Dev.onQtz_foot; decide)
    | (with_reducible apply ChangesOnly.step Dev.uncSync_foot; decide) | (with_reducible apply ChangesOnly.step Dev.qtzUpd_foot; decide)
    | (with_reducible apply ChangesOnly.step Dev.raise_foot; decide) | with_reducible exact .pair ‹_› ‹_› | split | dsimp only

theorem Dev.ppsLoop_foot {d : Dev} {edge prev : Nat} {acquiring : Bool} : ChangesOnly [.ctxs, .flint, .qtz, .slate, .dw] d (Dev.ppsLoop d edge prev acquiring) := by
  unfold Dev.ppsLoop
  try dsimp only
  repeat' first
    | intro _ | with_reducible exact .refl _ _ | with_reducible assumption | with_reducible apply ChangesOnly.ite
    | with_reducible apply ChangesOnly.foldl | (with_reducible apply ChangesOnly.step Dev.onQtz_foot; decide)
    | (with_reducible apply ChangesOnly.step Dev.raise_foot; decide) | (with_reducible apply ChangesOnly.step Dev.ppsHold_foot; decide)
    | (with_reducible apply ChangesOnly.step Dev.setOffset_foot; decide) | with_reducible exact .pair ‹_› ‹_› | split | dsimp only

theorem Dev.snapUpd_foot {d : Dev} : ChangesOnly [.dw] d (Dev.snapUpd d) := by
  unfold Dev.snapUpd
  try dsimp only
  repeat' first
    | intro _ | with_reducible exact .refl _ _ | with_reducible assumption | with_reducible apply ChangesOnly.ite
    | with_reducible apply ChangesOnly.foldl | (with_reducible apply ChangesOnly.step Dev.dwUpd_foot; decide) | with_reducible exact .pair ‹_› ‹_›
    | split | dsimp only

theorem Dev.snapCapture_foot {d : Dev} {cause : BitVec 16} {owner reqNode reqId : Nat} {ff : BitVec 64} : ChangesOnly [.flint, .snap, .dw, .freeN] d (Dev.snapCapture d cause owner reqNode reqId ff) := by
  unfold Dev.snapCapture
  try dsimp only
  repeat' first
    | intro _ | with_reducible exact .refl _ _ | with_reducible assumption | with_reducible apply ChangesOnly.ite
    | with_reducible apply ChangesOnly.foldl | (with_reducible apply ChangesOnly.step Dev.onSnap_foot; decide)
    | (with_reducible apply ChangesOnly.step Dev.onFreeN_foot; decide) | (with_reducible apply ChangesOnly.step Dev.raise_foot; decide)
    | (with_reducible apply ChangesOnly.step Dev.snapUpd_foot; decide) | with_reducible exact .pair ‹_› ‹_› | split | dsimp only

/-! ### JcsCore -/

theorem Dev.respond_foot {d : Dev} {c : Caller} {opcode ret ext : Nat} {bg : Bool} {out : List Byte} : ChangesOnly [.flint, .lat, .heads, .jcs, .out] d (Dev.respond d c opcode ret ext bg out) := by
  unfold Dev.respond
  try dsimp only
  repeat' first
    | intro _ | with_reducible exact .refl _ _ | with_reducible assumption | with_reducible apply ChangesOnly.ite
    | with_reducible apply ChangesOnly.foldl | (with_reducible apply ChangesOnly.step Dev.onJcs_foot; decide)
    | (with_reducible apply ChangesOnly.step Dev.onHead_foot; decide) | (with_reducible apply ChangesOnly.step Dev.emit_foot; decide)
    | (with_reducible apply ChangesOnly.step Dev.sendMsg_foot; decide) | with_reducible exact .pair ‹_› ‹_› | split | dsimp only

theorem Dev.cxlRespond_foot {d : Dev} {h opcode ext : Nat} {vals : List Nat} : ChangesOnly [.heads, .out] d (Dev.cxlRespond d h opcode ext vals) := by
  unfold Dev.cxlRespond
  try dsimp only
  repeat' first
    | intro _ | with_reducible exact .refl _ _ | with_reducible assumption | with_reducible apply ChangesOnly.ite
    | with_reducible apply ChangesOnly.foldl | (with_reducible apply ChangesOnly.step Dev.onHead_foot; decide)
    | (with_reducible apply ChangesOnly.step Dev.emit_foot; decide) | with_reducible exact .pair ‹_› ‹_› | split | dsimp only

theorem Dev.endLease_foot {d : Dev} {res : Nat} : ChangesOnly [.jcs, .mirror] d (Dev.endLease d res) := by
  unfold Dev.endLease
  try dsimp only
  repeat' first
    | intro _ | with_reducible exact .refl _ _ | with_reducible assumption | with_reducible apply ChangesOnly.ite
    | with_reducible apply ChangesOnly.foldl | (with_reducible apply ChangesOnly.step Dev.onJcs_foot; decide)
    | (with_reducible apply ChangesOnly.step Dev.mirrorNow_foot; decide) | with_reducible exact .pair ‹_› ‹_› | split | dsimp only

theorem Dev.endLeases_foot {d : Dev} {f : Lease_ → Bool} : ChangesOnly [.jcs, .mirror] d (Dev.endLeases d f) := by
  unfold Dev.endLeases
  try dsimp only
  repeat' first
    | intro _ | with_reducible exact .refl _ _ | with_reducible assumption | with_reducible apply ChangesOnly.ite
    | with_reducible apply ChangesOnly.foldl | (with_reducible apply ChangesOnly.step Dev.onJcs_foot; decide)
    | (with_reducible apply ChangesOnly.step Dev.mirrorNow_foot; decide) | with_reducible exact .pair ‹_› ‹_› | split | dsimp only

theorem Dev.useLease_foot {d : Dev} {c : Caller} {res : List Nat} : ChangesOnly [.jcs] d (Dev.useLease d c res) := by
  unfold Dev.useLease
  try dsimp only
  repeat' first
    | intro _ | with_reducible exact .refl _ _ | with_reducible assumption | with_reducible apply ChangesOnly.ite
    | with_reducible apply ChangesOnly.foldl | (with_reducible apply ChangesOnly.step Dev.onJcs_foot; decide) | with_reducible exact .pair ‹_› ‹_›
    | split | dsimp only

theorem Dev.jcsEffect_foot {S : List Part} {d0 d : Dev} {op : Nat} {act : Dev → Caller → List Byte → Dev × Rsp} {r : CmdRow} {c : Caller} {p : List Byte} (hS : ∀ p ∈ ([.flint, .lat, .heads, .jcs, .mirror, .out] : List Part), p ∈ S)
    (h0 : ChangesOnly S d0 d) (hf : ∀ e, ChangesOnly S d0 e → ChangesOnly S d0 (act e c p).1) : ChangesOnly S d0 (d.jcsEffect op act r c p) := by
  unfold Dev.jcsEffect
  try dsimp only
  repeat' first
    | intro _ | with_reducible exact .refl _ _ | with_reducible assumption | with_reducible apply hf | with_reducible apply ChangesOnly.ite
    | with_reducible apply ChangesOnly.foldl
    | (with_reducible apply ChangesOnly.step Dev.respond_foot; exact fun p hp => hS p (by revert p hp; decide))
    | (with_reducible apply ChangesOnly.step Dev.onJcs_foot; exact fun p hp => hS p (by revert p hp; decide))
    | (with_reducible apply ChangesOnly.step Dev.useLease_foot; exact fun p hp => hS p (by revert p hp; decide))
    | (with_reducible apply ChangesOnly.step Dev.onBg_foot; exact fun p hp => hS p (by revert p hp; decide))
    | (with_reducible apply ChangesOnly.step Dev.mirrorNow_foot; exact fun p hp => hS p (by revert p hp; decide)) | with_reducible exact .pair ‹_› ‹_›
    | split | dsimp only

theorem Dev.jcsDo_foot {S : List Part} {d0 d : Dev} {op : Nat} {check : Dev → Caller → List Byte → Nat} {act : Dev → Caller → List Byte → Dev × Rsp} {c : Caller} {p : List Byte} (hS : ∀ p ∈ ([.flint, .lat, .heads, .jcs, .mirror, .out] : List Part), p ∈ S)
    (h0 : ChangesOnly S d0 d) (hf : ∀ e, ChangesOnly S d0 e → ChangesOnly S d0 (act e c p).1) : ChangesOnly S d0 (d.jcsDo op check act c p) := by
  unfold Dev.jcsDo
  try dsimp only
  repeat' first
    | intro _ | with_reducible exact .refl _ _ | with_reducible assumption | with_reducible apply hf | with_reducible apply ChangesOnly.ite
    | with_reducible apply ChangesOnly.foldl
    | (with_reducible apply ChangesOnly.step Dev.respond_foot; exact fun p hp => hS p (by revert p hp; decide))
    | with_reducible refine Dev.jcsEffect_foot (fun p hp => hS p (by revert p hp; decide)) ?_ ?_ | with_reducible exact .pair ‹_› ‹_› | split
    | dsimp only

/-! ### Lattice -/

theorem Dev.dwShow_foot {d : Dev} {off fields dflt : Nat} : ChangesOnly [.dw] d (Dev.dwShow d off fields dflt) := by
  unfold Dev.dwShow
  try dsimp only
  repeat' first
    | intro _ | with_reducible exact .refl _ _ | with_reducible assumption | with_reducible apply ChangesOnly.ite
    | with_reducible apply ChangesOnly.foldl | (with_reducible apply ChangesOnly.step Dev.dwUpd_foot; decide) | with_reducible exact .pair ‹_› ‹_›
    | split | dsimp only

theorem Dev.latShow_foot {d : Dev} : ChangesOnly [.dw] d (Dev.latShow d) := by
  unfold Dev.latShow
  try dsimp only
  repeat' first
    | intro _ | with_reducible exact .refl _ _ | with_reducible assumption | with_reducible apply ChangesOnly.ite
    | with_reducible apply ChangesOnly.foldl | (with_reducible apply ChangesOnly.step Dev.dwShow_foot; decide) | with_reducible exact .pair ‹_› ‹_›
    | split | dsimp only

theorem Dev.latUpd_foot {d : Dev} : ChangesOnly [.dw] d (Dev.latUpd d) := by
  unfold Dev.latUpd
  try dsimp only
  repeat' first
    | intro _ | with_reducible exact .refl _ _ | with_reducible assumption | with_reducible apply ChangesOnly.ite
    | with_reducible apply ChangesOnly.foldl | (with_reducible apply ChangesOnly.step Dev.dwUpd_foot; decide) | with_reducible exact .pair ‹_› ‹_›
    | split | dsimp only

theorem Dev.putLsa_foot {d : Dev} {a : Lsa} : ChangesOnly [.lat] d (Dev.putLsa d a) := by
  unfold Dev.putLsa
  try dsimp only
  repeat' first
    | intro _ | with_reducible exact .refl _ _ | with_reducible assumption | with_reducible apply ChangesOnly.ite
    | with_reducible apply ChangesOnly.foldl | (with_reducible apply ChangesOnly.step Dev.onLat_foot; decide) | with_reducible exact .pair ‹_› ‹_›
    | split | dsimp only

theorem Dev.flood_foot {d : Dev} {a : Lsa} {but : Nat} : ChangesOnly [.lat, .out] d (Dev.flood d a but) := by
  unfold Dev.flood
  try dsimp only
  repeat' first
    | intro _ | with_reducible exact .refl _ _ | with_reducible assumption | with_reducible apply ChangesOnly.ite
    | with_reducible apply ChangesOnly.foldl | (with_reducible apply ChangesOnly.step Dev.sendFrames_foot; decide)
    | with_reducible exact .pair ‹_› ‹_› | split | dsimp only

theorem Dev.sendLsa_foot {d : Dev} : ChangesOnly [.lat, .slate, .out] d (Dev.sendLsa d) := by
  unfold Dev.sendLsa
  try dsimp only
  repeat' first
    | intro _ | with_reducible exact .refl _ _ | with_reducible assumption | with_reducible apply ChangesOnly.ite
    | with_reducible apply ChangesOnly.foldl | (with_reducible apply ChangesOnly.step Dev.onLat_foot; decide)
    | (with_reducible apply ChangesOnly.step Dev.putLsa_foot; decide) | (with_reducible apply ChangesOnly.step Dev.flood_foot; decide)
    | (with_reducible apply ChangesOnly.step Dev.recDue_foot; decide) | with_reducible exact .pair ‹_› ‹_› | split | dsimp only

theorem Dev.takeId_foot {d : Dev} {id : Nat} : ChangesOnly [.lat, .slate, .out] d (Dev.takeId d id) := by
  unfold Dev.takeId
  try dsimp only
  repeat' first
    | intro _ | with_reducible exact .refl _ _ | with_reducible assumption | with_reducible apply ChangesOnly.ite
    | with_reducible apply ChangesOnly.foldl | (with_reducible apply ChangesOnly.step Dev.onLat_foot; decide)
    | (with_reducible apply ChangesOnly.step Dev.recDue_foot; decide) | (with_reducible apply ChangesOnly.step Dev.sendLsa_foot; decide)
    | with_reducible exact .pair ‹_› ‹_› | split | dsimp only

theorem Dev.askId_foot {d : Dev} : ChangesOnly [.flint, .lat, .slate, .out] d (Dev.askId d) := by
  unfold Dev.askId
  try dsimp only
  repeat' first
    | intro _ | with_reducible exact .refl _ _ | with_reducible assumption | with_reducible apply ChangesOnly.ite
    | with_reducible apply ChangesOnly.foldl | (with_reducible apply ChangesOnly.step Dev.takeId_foot; decide)
    | (with_reducible apply ChangesOnly.step Dev.raise_foot; decide) | (with_reducible apply ChangesOnly.step Dev.sendFrames_foot; decide)
    | with_reducible exact .pair ‹_› ‹_› | split | dsimp only

theorem Dev.loseTime_foot {d : Dev} : ChangesOnly [.flint, .qtz] d (Dev.loseTime d) := by
  unfold Dev.loseTime
  try dsimp only
  repeat' first
    | intro _ | with_reducible exact .refl _ _ | with_reducible assumption | with_reducible apply ChangesOnly.ite
    | with_reducible apply ChangesOnly.foldl | (with_reducible apply ChangesOnly.step Dev.onQtz_foot; decide)
    | (with_reducible apply ChangesOnly.step Dev.uncSync_foot; decide) | (with_reducible apply ChangesOnly.step Dev.raise_foot; decide)
    | with_reducible exact .pair ‹_› ‹_› | split | dsimp only

theorem Dev.setRoot_foot {d : Dev} {uid cls hops seq : Nat} : ChangesOnly [.flint, .qtz] d (Dev.setRoot d uid cls hops seq) := by
  unfold Dev.setRoot
  try dsimp only
  repeat' first
    | intro _ | with_reducible exact .refl _ _ | with_reducible assumption | with_reducible apply ChangesOnly.ite
    | with_reducible apply ChangesOnly.foldl | (with_reducible apply ChangesOnly.step Dev.onQtz_foot; decide)
    | (with_reducible apply ChangesOnly.step Dev.loseTime_foot; decide) | (with_reducible apply ChangesOnly.step Dev.uncSync_foot; decide)
    | (with_reducible apply ChangesOnly.step Dev.raise_foot; decide) | with_reducible exact .pair ‹_› ‹_› | split | dsimp only

theorem Dev.candidate_foot {d : Dev} {uid cls hops seq : Nat} : ChangesOnly [.flint, .qtz] d (Dev.candidate d uid cls hops seq) := by
  unfold Dev.candidate
  try dsimp only
  repeat' first
    | intro _ | with_reducible exact .refl _ _ | with_reducible assumption | with_reducible apply ChangesOnly.ite
    | with_reducible apply ChangesOnly.foldl | (with_reducible apply ChangesOnly.step Dev.onQtz_foot; decide)
    | (with_reducible apply ChangesOnly.step Dev.setRoot_foot; decide) | with_reducible exact .pair ‹_› ‹_› | split | dsimp only

theorem Dev.selfCandidate_foot {d : Dev} : ChangesOnly [.flint, .qtz] d (Dev.selfCandidate d) := by
  unfold Dev.selfCandidate
  try dsimp only
  repeat' first
    | intro _ | with_reducible exact .refl _ _ | with_reducible assumption | with_reducible apply ChangesOnly.ite
    | with_reducible apply ChangesOnly.foldl | (with_reducible apply ChangesOnly.step Dev.loseTime_foot; decide)
    | (with_reducible apply ChangesOnly.step Dev.candidate_foot; decide) | with_reducible exact .pair ‹_› ‹_› | split | dsimp only

theorem Dev.rootHello_foot {d : Dev} {l root cls hops seq : Nat} : ChangesOnly [.flint, .qtz] d (Dev.rootHello d l root cls hops seq) := by
  unfold Dev.rootHello
  try dsimp only
  repeat' first
    | intro _ | with_reducible exact .refl _ _ | with_reducible assumption | with_reducible apply ChangesOnly.ite
    | with_reducible apply ChangesOnly.foldl | (with_reducible apply ChangesOnly.step Dev.onQtz_foot; decide)
    | (with_reducible apply ChangesOnly.step Dev.selfCandidate_foot; decide) | (with_reducible apply ChangesOnly.step Dev.loseTime_foot; decide)
    | (with_reducible apply ChangesOnly.step Dev.candidate_foot; decide) | with_reducible exact .pair ‹_› ‹_› | split | dsimp only

theorem Dev.follow_foot {d : Dev} {e : Int} {unc : Nat} : ChangesOnly [.ctxs, .flint, .qtz, .slate, .freeN] d (Dev.follow d e unc) := by
  unfold Dev.follow
  try dsimp only
  repeat' first
    | intro _ | with_reducible exact .refl _ _ | with_reducible assumption | with_reducible apply ChangesOnly.ite
    | with_reducible apply ChangesOnly.foldl | (with_reducible apply ChangesOnly.step Dev.onQtz_foot; decide)
    | (with_reducible apply ChangesOnly.step Dev.uncSync_foot; decide) | (with_reducible apply ChangesOnly.step Dev.tick_foot; decide)
    | (with_reducible apply ChangesOnly.step Dev.raise_foot; decide) | (with_reducible apply ChangesOnly.step Dev.setOffset_foot; decide)
    | with_reducible exact .pair ‹_› ‹_› | split | dsimp only

theorem Dev.rootStep_foot {d : Dev} : ChangesOnly [.flint, .qtz] d (Dev.rootStep d) := by
  unfold Dev.rootStep
  try dsimp only
  repeat' first
    | intro _ | with_reducible exact .refl _ _ | with_reducible assumption | with_reducible apply ChangesOnly.ite
    | with_reducible apply ChangesOnly.foldl | (with_reducible apply ChangesOnly.step Dev.onQtz_foot; decide)
    | (with_reducible apply ChangesOnly.step Dev.raise_foot; decide) | with_reducible exact .pair ‹_› ‹_› | split | dsimp only

theorem Dev.linkLeave_foot {d : Dev} {l st : Nat} : ChangesOnly [.lat, .slate, .out] d (Dev.linkLeave d l st) := by
  unfold Dev.linkLeave
  try dsimp only
  repeat' first
    | intro _ | with_reducible exact .refl _ _ | with_reducible assumption | with_reducible apply ChangesOnly.ite
    | with_reducible apply ChangesOnly.foldl | (with_reducible apply ChangesOnly.step Dev.onLat_foot; decide)
    | (with_reducible apply ChangesOnly.step Dev.onLink_foot; decide) | (with_reducible apply ChangesOnly.step Dev.sendLsa_foot; decide)
    | with_reducible exact .pair ‹_› ‹_› | split | dsimp only

theorem Dev.linkFail_foot {d : Dev} {l : Nat} : ChangesOnly [.flint, .lat, .slate, .out] d (Dev.linkFail d l) := by
  unfold Dev.linkFail
  try dsimp only
  repeat' first
    | intro _ | with_reducible exact .refl _ _ | with_reducible assumption | with_reducible apply ChangesOnly.ite
    | with_reducible apply ChangesOnly.foldl | (with_reducible apply ChangesOnly.step Dev.linkLeave_foot; decide)
    | (with_reducible apply ChangesOnly.step Dev.onLink_foot; decide) | (with_reducible apply ChangesOnly.step Dev.raise_foot; decide)
    | with_reducible exact .pair ‹_› ‹_› | split | dsimp only

theorem Dev.linkDisable_foot {d : Dev} {l by_ : Nat} : ChangesOnly [.lat, .slate, .out] d (Dev.linkDisable d l by_) := by
  unfold Dev.linkDisable
  try dsimp only
  repeat' first
    | intro _ | with_reducible exact .refl _ _ | with_reducible assumption | with_reducible apply ChangesOnly.ite
    | with_reducible apply ChangesOnly.foldl | (with_reducible apply ChangesOnly.step Dev.linkLeave_foot; decide)
    | (with_reducible apply ChangesOnly.step Dev.onLink_foot; decide) | with_reducible exact .pair ‹_› ‹_› | split | dsimp only

theorem Dev.retrainFail_foot {d : Dev} {l : Nat} : ChangesOnly [.flint, .lat, .slate, .out] d (Dev.retrainFail d l) := by
  unfold Dev.retrainFail
  try dsimp only
  repeat' first
    | intro _ | with_reducible exact .refl _ _ | with_reducible assumption | with_reducible apply ChangesOnly.ite
    | with_reducible apply ChangesOnly.foldl | (with_reducible apply ChangesOnly.step Dev.onLink_foot; decide)
    | (with_reducible apply ChangesOnly.step Dev.raise_foot; decide) | (with_reducible apply ChangesOnly.step Dev.linkFail_foot; decide)
    | with_reducible exact .pair ‹_› ‹_› | split | dsimp only

theorem Dev.idConflict_foot {d : Dev} {uid nodeId : Nat} : ChangesOnly [.flint, .lat, .slate, .out] d (Dev.idConflict d uid nodeId) := by
  unfold Dev.idConflict
  try dsimp only
  repeat' first
    | intro _ | with_reducible exact .refl _ _ | with_reducible assumption | with_reducible apply ChangesOnly.ite
    | with_reducible apply ChangesOnly.foldl | (with_reducible apply ChangesOnly.step Dev.onLat_foot; decide)
    | (with_reducible apply ChangesOnly.step Dev.raise_foot; decide) | (with_reducible apply ChangesOnly.step Dev.sendLsa_foot; decide)
    | (with_reducible apply ChangesOnly.step Dev.askId_foot; decide) | with_reducible exact .pair ‹_› ‹_› | split | dsimp only

/-! ### LatServices -/

theorem Dev.ckptRequest_foot {d : Dev} {uid reqId tc c : Nat} : ChangesOnly [.flint, .lat, .heads, .jcs, .mirror, .out] d (Dev.ckptRequest d uid reqId tc c) := by
  unfold Dev.ckptRequest
  try dsimp only
  repeat' first
    | intro _ | with_reducible exact .refl _ _ | with_reducible assumption | with_reducible apply ChangesOnly.ite
    | with_reducible apply ChangesOnly.foldl | (with_reducible apply ChangesOnly.step Dev.onLat_foot; decide)
    | (with_reducible apply ChangesOnly.step Dev.ckptReply_foot; decide) | with_reducible exact .pair ‹_› ‹_› | split | dsimp only

theorem Dev.submitOwn_foot {d : Dev} {c tag : Nat} : ChangesOnly [.ctxs] d (Dev.submitOwn d c tag) := by
  unfold Dev.submitOwn
  try dsimp only
  repeat' first
    | intro _ | with_reducible exact .refl _ _ | with_reducible assumption | with_reducible apply ChangesOnly.ite
    | with_reducible apply ChangesOnly.foldl | (with_reducible apply ChangesOnly.step Dev.onRing_foot; decide) | with_reducible exact .pair ‹_› ‹_›
    | split | dsimp only

theorem Dev.onStream_foot {d : Dev} {session : Nat} {f : Stream → Stream} : ChangesOnly [.lat] d (Dev.onStream d session f) := by
  unfold Dev.onStream
  try dsimp only
  repeat' first
    | intro _ | with_reducible exact .refl _ _ | with_reducible assumption | with_reducible apply ChangesOnly.ite
    | with_reducible apply ChangesOnly.foldl | (with_reducible apply ChangesOnly.step Dev.onLat_foot; decide) | with_reducible exact .pair ‹_› ‹_›
    | split | dsimp only

theorem Dev.startCopy_foot {d : Dev} {session st : Nat} : ChangesOnly [.lat] d (Dev.startCopy d session st) := by
  unfold Dev.startCopy
  try dsimp only
  repeat' first
    | intro _ | with_reducible exact .refl _ _ | with_reducible assumption | with_reducible apply ChangesOnly.ite
    | with_reducible apply ChangesOnly.foldl | (with_reducible apply ChangesOnly.step Dev.onStream_foot; decide) | with_reducible exact .pair ‹_› ‹_›
    | split | dsimp only

theorem Dev.sendPage_foot {d : Dev} {s : Stream} {p k o mseq : Nat} : ChangesOnly [.flint, .lat, .out] d (Dev.sendPage d s p k o mseq) := by
  unfold Dev.sendPage
  try dsimp only
  repeat' first
    | intro _ | with_reducible exact .refl _ _ | with_reducible assumption | with_reducible apply ChangesOnly.ite
    | with_reducible apply ChangesOnly.foldl | (with_reducible apply ChangesOnly.step Dev.sendMsg_foot; decide) | with_reducible exact .pair ‹_› ‹_›
    | split | dsimp only

theorem Dev.sendMarks_foot {d : Dev} {session : Nat} : ChangesOnly [.flint, .lat, .out] d (Dev.sendMarks d session) := by
  unfold Dev.sendMarks
  try dsimp only
  repeat' first
    | intro _ | with_reducible exact .refl _ _ | with_reducible assumption | with_reducible apply ChangesOnly.ite
    | with_reducible apply ChangesOnly.foldl | (with_reducible apply ChangesOnly.step Dev.onStream_foot; decide)
    | (with_reducible apply ChangesOnly.step Dev.sendMsg_foot; decide) | with_reducible exact .pair ‹_› ‹_› | split | dsimp only

theorem Dev.finalMsg_foot {d : Dev} {s : Stream} : ChangesOnly [.flint, .lat, .out] d (Dev.finalMsg d s) := by
  unfold Dev.finalMsg
  try dsimp only
  repeat' first
    | intro _ | with_reducible exact .refl _ _ | with_reducible assumption | with_reducible apply ChangesOnly.ite
    | with_reducible apply ChangesOnly.foldl | (with_reducible apply ChangesOnly.step Dev.onStream_foot; decide)
    | (with_reducible apply ChangesOnly.step Dev.sendMsg_foot; decide) | with_reducible exact .pair ‹_› ‹_› | split | dsimp only

theorem Dev.switchCheck_foot {d : Dev} {session : Nat} : ChangesOnly [.mem, .expo, .restore, .flash, .ctxs, .dram, .flint, .lat, .heads, .jcs, .mirror, .dw, .out] d (Dev.switchCheck d session) := by
  unfold Dev.switchCheck
  try dsimp only
  repeat' first
    | intro _ | with_reducible exact .refl _ _ | with_reducible assumption | with_reducible apply ChangesOnly.ite
    | with_reducible apply ChangesOnly.foldl | (with_reducible apply ChangesOnly.step Dev.onStream_foot; decide)
    | (with_reducible apply ChangesOnly.step Dev.quiesceCtx_foot; decide) | with_reducible exact .pair ‹_› ‹_› | split | dsimp only

theorem Dev.streamPhase_foot {d : Dev} {session : Nat} : ChangesOnly [.mem, .expo, .restore, .flash, .ctxs, .dram, .flint, .lat, .heads, .jcs, .mirror, .dw, .out] d (Dev.streamPhase d session) := by
  unfold Dev.streamPhase
  try dsimp only
  repeat' first
    | intro _ | with_reducible exact .refl _ _ | with_reducible assumption | with_reducible apply ChangesOnly.ite
    | with_reducible apply ChangesOnly.foldl | (with_reducible apply ChangesOnly.step Dev.switchCheck_foot; decide)
    | (with_reducible apply ChangesOnly.step Dev.onStream_foot; decide) | with_reducible exact .pair ‹_› ‹_› | split | dsimp only

theorem Dev.pageAck_foot {d : Dev} {session mseq : Nat} : ChangesOnly [.mem, .expo, .restore, .flash, .ctxs, .dram, .flint, .lat, .heads, .jcs, .mirror, .dw, .out] d (Dev.pageAck d session mseq) := by
  unfold Dev.pageAck
  try dsimp only
  repeat' first
    | intro _ | with_reducible exact .refl _ _ | with_reducible assumption | with_reducible apply ChangesOnly.ite
    | with_reducible apply ChangesOnly.foldl | (with_reducible apply ChangesOnly.step Dev.onStream_foot; decide)
    | (with_reducible apply ChangesOnly.step Dev.sendMarks_foot; decide) | (with_reducible apply ChangesOnly.step Dev.streamPhase_foot; decide)
    | with_reducible exact .pair ‹_› ‹_› | split | dsimp only

theorem Dev.resumeStream_foot {d : Dev} {session : Nat} {dirtied : Bool} : ChangesOnly [.flint, .lat] d (Dev.resumeStream d session dirtied) := by
  unfold Dev.resumeStream
  try dsimp only
  repeat' first
    | intro _ | with_reducible exact .refl _ _ | with_reducible assumption | with_reducible apply ChangesOnly.ite
    | with_reducible apply ChangesOnly.foldl | (with_reducible apply ChangesOnly.step Dev.startCopy_foot; decide)
    | (with_reducible apply ChangesOnly.step Dev.raise_foot; decide) | (with_reducible apply ChangesOnly.step Dev.onStream_foot; decide)
    | with_reducible exact .pair ‹_› ‹_› | split | dsimp only

theorem Dev.abortMigration_foot {d : Dev} {s : Stream} : ChangesOnly [.flint, .lat] d (Dev.abortMigration d s) := by
  unfold Dev.abortMigration
  try dsimp only
  repeat' first
    | intro _ | with_reducible exact .refl _ _ | with_reducible assumption | with_reducible apply ChangesOnly.ite
    | with_reducible apply ChangesOnly.foldl | (with_reducible apply ChangesOnly.step Dev.onStream_foot; decide)
    | (with_reducible apply ChangesOnly.step Dev.raise_foot; decide) | with_reducible exact .pair ‹_› ‹_› | split | dsimp only

theorem Dev.setupAnswer_foot {d : Dev} {session status grans : Nat} : ChangesOnly [.flint, .lat, .heads, .jcs, .mirror] d (Dev.setupAnswer d session status grans) := by
  unfold Dev.setupAnswer
  try dsimp only
  repeat' first
    | intro _ | with_reducible exact .refl _ _ | with_reducible assumption | with_reducible apply ChangesOnly.ite
    | with_reducible apply ChangesOnly.foldl | (with_reducible apply ChangesOnly.step Dev.onLat_foot; decide)
    | (with_reducible apply ChangesOnly.step Dev.abortMigration_foot; decide) | (with_reducible apply ChangesOnly.step Dev.bgEnd_foot; decide)
    | (with_reducible apply ChangesOnly.step Dev.onStream_foot; decide) | (with_reducible apply ChangesOnly.step Dev.startCopy_foot; decide)
    | with_reducible exact .pair ‹_› ‹_› | split | dsimp only

theorem Dev.onInStream_foot {d : Dev} {uid session : Nat} {f : Stream → Stream} : ChangesOnly [.lat] d (Dev.onInStream d uid session f) := by
  unfold Dev.onInStream
  try dsimp only
  repeat' first
    | intro _ | with_reducible exact .refl _ _ | with_reducible assumption | with_reducible apply ChangesOnly.ite
    | with_reducible apply ChangesOnly.foldl | (with_reducible apply ChangesOnly.step Dev.onLat_foot; decide) | with_reducible exact .pair ‹_› ‹_›
    | split | dsimp only

theorem Dev.pageWrite_foot {d : Dev} {session mseq p : Nat} {bs : List Byte} : ChangesOnly [.mem, .expo, .restore, .ctxs, .dram, .flint, .lat, .heads, .dw, .out] d (Dev.pageWrite d session mseq p bs) := by
  unfold Dev.pageWrite
  try dsimp only
  repeat' first
    | intro _ | with_reducible exact .refl _ _ | with_reducible assumption | with_reducible apply ChangesOnly.ite
    | with_reducible apply ChangesOnly.foldl | (with_reducible apply ChangesOnly.step Dev.onExpo_foot; decide)
    | (with_reducible apply ChangesOnly.step Dev.admitReq_foot; decide) | with_reducible exact .pair ‹_› ‹_› | split | dsimp only

theorem Dev.pageIn_foot {d : Dev} {x : Stream} {mseq k o : Nat} {bs : List Byte} : ChangesOnly [.mem, .expo, .restore, .ctxs, .dram, .flint, .lat, .heads, .dw, .out] d (Dev.pageIn d x mseq k o bs) := by
  unfold Dev.pageIn
  try dsimp only
  repeat' first
    | intro _ | with_reducible exact .refl _ _ | with_reducible assumption | with_reducible apply ChangesOnly.ite
    | with_reducible apply ChangesOnly.foldl | (with_reducible apply ChangesOnly.step Dev.sendMsg_foot; decide)
    | (with_reducible apply ChangesOnly.step Dev.onInStream_foot; decide) | (with_reducible apply ChangesOnly.step Dev.pageWrite_foot; decide)
    | with_reducible exact .pair ‹_› ‹_› | split | dsimp only

theorem Dev.tellDirtied_foot {d : Dev} {uid session : Nat} : ChangesOnly [.flint, .lat, .out] d (Dev.tellDirtied d uid session) := by
  unfold Dev.tellDirtied
  try dsimp only
  repeat' first
    | intro _ | with_reducible exact .refl _ _ | with_reducible assumption | with_reducible apply ChangesOnly.ite
    | with_reducible apply ChangesOnly.foldl | (with_reducible apply ChangesOnly.step Dev.onInStream_foot; decide)
    | (with_reducible apply ChangesOnly.step Dev.sendMsg_foot; decide) | with_reducible exact .pair ‹_› ‹_› | split | dsimp only

theorem Dev.latEarlyOpen_foot {d : Dev} {tierBad : Nat → Bool} : ChangesOnly [.flint, .lat] d (Dev.latEarlyOpen d tierBad) := by
  unfold Dev.latEarlyOpen
  try dsimp only
  repeat' first
    | intro _ | with_reducible exact .refl _ _ | with_reducible assumption | with_reducible apply ChangesOnly.ite
    | with_reducible apply ChangesOnly.foldl | (with_reducible apply ChangesOnly.step Dev.onLat_foot; decide)
    | (with_reducible apply ChangesOnly.step Dev.reportAborts_foot; decide) | (with_reducible apply ChangesOnly.step Dev.startCopy_foot; decide)
    | (with_reducible apply ChangesOnly.step Dev.raise_foot; decide) | with_reducible exact .pair ‹_› ‹_› | split | dsimp only

theorem Dev.snapReqEnd_foot {d : Dev} {r : SnapReq} : ChangesOnly [.flint, .snap, .lat, .heads, .jcs, .out] d (Dev.snapReqEnd d r) := by
  unfold Dev.snapReqEnd
  try dsimp only
  repeat' first
    | intro _ | with_reducible exact .refl _ _ | with_reducible assumption | with_reducible apply ChangesOnly.ite
    | with_reducible apply ChangesOnly.foldl | (with_reducible apply ChangesOnly.step Dev.onSnap_foot; decide)
    | (with_reducible apply ChangesOnly.step Dev.respond_foot; decide) | with_reducible exact .pair ‹_› ‹_› | split | dsimp only

/-! ### Package -/

theorem Dev.bothLost_foot {d : Dev} : ChangesOnly [.pkg, .expo, .sealing, .dram, .energy, .flint, .panel, .dw, .out] d (Dev.bothLost d) := by
  unfold Dev.bothLost
  try dsimp only
  repeat' first
    | intro _ | with_reducible exact .refl _ _ | with_reducible assumption | with_reducible apply ChangesOnly.ite
    | with_reducible apply ChangesOnly.foldl | (with_reducible apply ChangesOnly.step Dev.raise_foot; decide)
    | (with_reducible apply ChangesOnly.step Dev.safeState_foot; decide) | with_reducible exact .pair ‹_› ‹_› | split | dsimp only

theorem Dev.leadLost_foot {d : Dev} : ChangesOnly [.pkg, .expo, .sealing, .dram, .energy, .flint, .panel, .dw, .out] d (Dev.leadLost d) := by
  unfold Dev.leadLost
  try dsimp only
  repeat' first
    | intro _ | with_reducible exact .refl _ _ | with_reducible assumption | with_reducible apply ChangesOnly.ite
    | with_reducible apply ChangesOnly.foldl | (with_reducible apply ChangesOnly.step Dev.onSealing_foot; decide)
    | (with_reducible apply ChangesOnly.step Dev.onPkg_foot; decide) | (with_reducible apply ChangesOnly.step Dev.bothLost_foot; decide)
    | (with_reducible apply ChangesOnly.step Dev.raise_foot; decide) | (with_reducible apply ChangesOnly.step Dev.onTile_foot; decide)
    | with_reducible exact .pair ‹_› ‹_› | split | dsimp only

theorem Dev.takeoverResp_foot {d : Dev} {q : QCmd} : ChangesOnly [.heads, .out] d (Dev.takeoverResp d q) := by
  unfold Dev.takeoverResp
  try dsimp only
  repeat' first
    | intro _ | with_reducible exact .refl _ _ | with_reducible assumption | with_reducible apply ChangesOnly.ite
    | with_reducible apply ChangesOnly.foldl | (with_reducible apply ChangesOnly.step Dev.onHead_foot; decide)
    | (with_reducible apply ChangesOnly.step Dev.emit_foot; decide) | with_reducible exact .pair ‹_› ‹_› | split | dsimp only

theorem Dev.loadGauge_foot {d : Dev} {m : Mirror} : ChangesOnly [.energy] d (Dev.loadGauge d m) := by
  unfold Dev.loadGauge
  try dsimp only
  repeat' first
    | intro _ | with_reducible exact .refl _ _ | with_reducible assumption | with_reducible apply ChangesOnly.ite
    | with_reducible apply ChangesOnly.foldl | (with_reducible apply ChangesOnly.step Dev.onEnergy_foot; decide)
    | (with_reducible apply ChangesOnly.step Dev.onBay_foot; decide) | (with_reducible apply ChangesOnly.step Dev.onSrc_foot; decide)
    | with_reducible exact .pair ‹_› ‹_› | split | dsimp only

theorem Dev.paceUpd_foot {d : Dev} {t : Nat} : ChangesOnly [.dw] d (Dev.paceUpd d t) := by
  unfold Dev.paceUpd
  try dsimp only
  repeat' first
    | intro _ | with_reducible exact .refl _ _ | with_reducible assumption | with_reducible apply ChangesOnly.ite
    | with_reducible apply ChangesOnly.foldl | (with_reducible apply ChangesOnly.step Dev.dwUpd_foot; decide) | with_reducible exact .pair ‹_› ‹_›
    | split | dsimp only

/-! ### Flint -/

theorem Dev.openShadow_foot {d : Dev} {lseq sev reaction unit : Nat} : ChangesOnly [.flint] d (Dev.openShadow d lseq sev reaction unit) := by
  unfold Dev.openShadow
  try dsimp only
  repeat' first
    | intro _ | with_reducible exact .refl _ _ | with_reducible assumption | with_reducible apply ChangesOnly.ite
    | with_reducible apply ChangesOnly.foldl | (with_reducible apply ChangesOnly.step Dev.onFlint_foot; decide) | with_reducible exact .pair ‹_› ‹_›
    | split | dsimp only

theorem Dev.logPut_foot {d : Dev} {c : Nat} {e : LogEntry} : ChangesOnly [.flint] d (Dev.logPut d c e) := by
  unfold Dev.logPut
  try dsimp only
  repeat' first
    | intro _ | with_reducible exact .refl _ _ | with_reducible assumption | with_reducible apply ChangesOnly.ite
    | with_reducible apply ChangesOnly.foldl | (with_reducible apply ChangesOnly.step Dev.onColl_foot; decide) | with_reducible exact .pair ‹_› ‹_›
    | split | dsimp only

theorem Dev.windowLog_foot {d : Dev} {c : Nat} {js : List Judged} : ChangesOnly [.flint] d (Dev.windowLog d c js) := by
  unfold Dev.windowLog
  try dsimp only
  repeat' first
    | intro _ | with_reducible exact .refl _ _ | with_reducible assumption | with_reducible apply ChangesOnly.ite
    | with_reducible apply ChangesOnly.foldl | (with_reducible apply ChangesOnly.step Dev.logPut_foot; decide)
    | (with_reducible apply ChangesOnly.step Dev.onColl_foot; decide) | with_reducible exact .pair ‹_› ‹_› | split | dsimp only

theorem Dev.countMsg_foot {d : Dev} {m : FlintMsg} : ChangesOnly [.flint] d (Dev.countMsg d m) := by
  unfold Dev.countMsg
  try dsimp only
  repeat' first
    | intro _ | with_reducible exact .refl _ _ | with_reducible assumption | with_reducible apply ChangesOnly.ite
    | with_reducible apply ChangesOnly.foldl | (with_reducible apply ChangesOnly.step Dev.onFlint_foot; decide) | with_reducible exact .pair ‹_› ‹_›
    | split | dsimp only

theorem Dev.tfPulse_foot {d : Dev} {t : Nat} : ChangesOnly [.flint] d (Dev.tfPulse d t) := by
  unfold Dev.tfPulse
  try dsimp only
  repeat' first
    | intro _ | with_reducible exact .refl _ _ | with_reducible assumption | with_reducible apply ChangesOnly.ite
    | with_reducible apply ChangesOnly.foldl | (with_reducible apply ChangesOnly.step Dev.onFlint_foot; decide) | with_reducible exact .pair ‹_› ‹_›
    | split | dsimp only

theorem Dev.postTo_foot {d : Dev} {h : Nat} {m : FlintMsg} {sev lseq count : Nat} {flags : BitVec 16} : ChangesOnly [.heads, .out] d (Dev.postTo d h m sev lseq count flags) := by
  unfold Dev.postTo
  try dsimp only
  repeat' first
    | intro _ | with_reducible exact .refl _ _ | with_reducible assumption | with_reducible apply ChangesOnly.ite
    | with_reducible apply ChangesOnly.foldl | (with_reducible apply ChangesOnly.step Dev.onHead_foot; decide)
    | (with_reducible apply ChangesOnly.step Dev.emit_foot; decide) | (with_reducible apply ChangesOnly.step Dev.evtIrq_foot; decide)
    | with_reducible exact .pair ‹_› ‹_› | split | dsimp only

theorem Dev.postRated_foot {d : Dev} {h : Nat} {m : FlintMsg} {sev lseq : Nat} {flags : BitVec 16} : ChangesOnly [.flint, .heads, .out] d (Dev.postRated d h m sev lseq flags) := by
  unfold Dev.postRated
  try dsimp only
  repeat' first
    | intro _ | with_reducible exact .refl _ _ | with_reducible assumption | with_reducible apply ChangesOnly.ite
    | with_reducible apply ChangesOnly.foldl | (with_reducible apply ChangesOnly.step Dev.onFlint_foot; decide)
    | (with_reducible apply ChangesOnly.step Dev.postTo_foot; decide) | with_reducible exact .pair ‹_› ‹_› | split | dsimp only

theorem Dev.post_foot {d : Dev} {j : Judged} {lseq : Nat} {flags : BitVec 16} : ChangesOnly [.flint, .heads, .out] d (Dev.post d j lseq flags) := by
  unfold Dev.post
  try dsimp only
  repeat' first
    | intro _ | with_reducible exact .refl _ _ | with_reducible assumption | with_reducible apply ChangesOnly.ite
    | with_reducible apply ChangesOnly.foldl | (with_reducible apply ChangesOnly.step Dev.postRated_foot; decide)
    | (with_reducible apply ChangesOnly.step Dev.postTo_foot; decide) | with_reducible exact .pair ‹_› ‹_› | split | dsimp only

theorem Dev.headClear_foot {d : Dev} {h : Nat} : ChangesOnly [.heads] d (Dev.headClear d h) := by
  unfold Dev.headClear
  try dsimp only
  repeat' first
    | intro _ | with_reducible exact .refl _ _ | with_reducible assumption | with_reducible apply ChangesOnly.ite
    | with_reducible apply ChangesOnly.foldl | (with_reducible apply ChangesOnly.step Dev.onHead_foot; decide) | with_reducible exact .pair ‹_› ‹_›
    | split | dsimp only

theorem Dev.headReset_foot {d : Dev} {h : Nat} : ChangesOnly [.expo, .heads, .out] d (Dev.headReset d h) := by
  unfold Dev.headReset
  try dsimp only
  repeat' first
    | intro _ | with_reducible exact .refl _ _ | with_reducible assumption | with_reducible apply ChangesOnly.ite
    | with_reducible apply ChangesOnly.foldl | (with_reducible apply ChangesOnly.step Dev.onExpo_foot; decide)
    | (with_reducible apply ChangesOnly.step Dev.refuseErr_foot; decide) | (with_reducible apply ChangesOnly.step Dev.headClear_foot; decide)
    | with_reducible exact .pair ‹_› ‹_› | split | dsimp only

theorem Dev.haltSupv_foot {d : Dev} {t lseq : Nat} : ChangesOnly [.pkg, .expo, .sealing, .ctxs, .dram, .energy, .flint, .heads, .panel, .dw, .out] d (Dev.haltSupv d t lseq) := by
  unfold Dev.haltSupv
  try dsimp only
  repeat' first
    | intro _ | with_reducible exact .refl _ _ | with_reducible assumption | with_reducible apply ChangesOnly.ite
    | with_reducible apply ChangesOnly.foldl | (with_reducible apply ChangesOnly.step Dev.onPkg_foot; decide)
    | (with_reducible apply ChangesOnly.step Dev.onTile_foot; decide) | (with_reducible apply ChangesOnly.step Dev.bothLost_foot; decide)
    | (with_reducible apply ChangesOnly.step Dev.raise_foot; decide) | (with_reducible apply ChangesOnly.step Dev.isolate_foot; decide)
    | with_reducible exact .pair ‹_› ‹_› | split | dsimp only

theorem Dev.contain_foot {d : Dev} {m : FlintMsg} {lseq : Nat} : ChangesOnly [.mem, .pkg, .expo, .sealing, .restore, .strata, .flash, .ctxs, .dram, .flint, .lat, .heads, .slate, .dw, .out, .freeN] d (Dev.contain d m lseq) := by
  unfold Dev.contain
  try dsimp only
  repeat' first
    | intro _ | with_reducible exact .refl _ _ | with_reducible assumption | with_reducible apply ChangesOnly.ite
    | with_reducible apply ChangesOnly.foldl | (with_reducible apply ChangesOnly.step Dev.isolate_foot; decide)
    | (with_reducible apply ChangesOnly.step Dev.openShadow_foot; decide) | (with_reducible apply ChangesOnly.step Dev.headReset_foot; decide)
    | (with_reducible apply ChangesOnly.step Dev.linkDisable_foot; decide) | (with_reducible apply ChangesOnly.step Dev.latShow_foot; decide)
    | (with_reducible apply ChangesOnly.step Dev.storePoison_foot; decide) | (with_reducible apply ChangesOnly.step Dev.tick_foot; decide)
    | (with_reducible apply ChangesOnly.step Dev.chanDo_foot; decide) | (with_reducible apply ChangesOnly.step Dev.retireDie_foot; decide)
    | (with_reducible apply ChangesOnly.step Dev.keyLost_foot; decide) | with_reducible exact .pair ‹_› ‹_› | split | dsimp only

theorem Dev.safeBegin_foot {d : Dev} {m : FlintMsg} {lseq lvl : Nat} : ChangesOnly [.pkg, .expo, .sealing, .dram, .energy, .flint, .panel, .dw, .out] d (Dev.safeBegin d m lseq lvl) := by
  unfold Dev.safeBegin
  try dsimp only
  repeat' first
    | intro _ | with_reducible exact .refl _ _ | with_reducible assumption | with_reducible apply ChangesOnly.ite
    | with_reducible apply ChangesOnly.foldl | (with_reducible apply ChangesOnly.step Dev.safeState_foot; decide)
    | (with_reducible apply ChangesOnly.step Dev.openShadow_foot; decide) | with_reducible exact .pair ‹_› ‹_› | split | dsimp only

theorem Dev.react_foot {d : Dev} {m : FlintMsg} {lseq : Nat} : ChangesOnly [.mem, .pkg, .expo, .sealing, .restore, .strata, .flash, .ctxs, .dram, .energy, .flint, .lat, .heads, .slate, .panel, .dw, .out, .freeN] d (Dev.react d m lseq) := by
  unfold Dev.react
  try dsimp only
  repeat' first
    | intro _ | with_reducible exact .refl _ _ | with_reducible assumption | with_reducible apply ChangesOnly.ite
    | with_reducible apply ChangesOnly.foldl | (with_reducible apply ChangesOnly.step Dev.onFlint_foot; decide)
    | (with_reducible apply ChangesOnly.step Dev.onSealing_foot; decide) | (with_reducible apply ChangesOnly.step Dev.openShadow_foot; decide)
    | (with_reducible apply ChangesOnly.step Dev.isolate_foot; decide) | (with_reducible apply ChangesOnly.step Dev.contain_foot; decide)
    | (with_reducible apply ChangesOnly.step Dev.haltSupv_foot; decide) | (with_reducible apply ChangesOnly.step Dev.safeBegin_foot; decide)
    | with_reducible exact .pair ‹_› ‹_› | split | dsimp only

theorem Dev.fltShow_foot {d : Dev} : ChangesOnly [.dw] d (Dev.fltShow d) := by
  unfold Dev.fltShow
  try dsimp only
  repeat' first
    | intro _ | with_reducible exact .refl _ _ | with_reducible assumption | with_reducible apply ChangesOnly.ite
    | with_reducible apply ChangesOnly.foldl | (with_reducible apply ChangesOnly.step Dev.dwUpd_foot; decide) | with_reducible exact .pair ‹_› ‹_›
    | split | dsimp only

theorem Dev.takeWindow_foot {d : Dev} {c n : Nat} : ChangesOnly [.flint] d (Dev.takeWindow d c n).1 := by
  unfold Dev.takeWindow
  try dsimp only
  repeat' first
    | intro _ | with_reducible exact .refl _ _ | with_reducible assumption | with_reducible apply ChangesOnly.ite
    | with_reducible apply ChangesOnly.foldl | (with_reducible apply ChangesOnly.step Dev.onColl_foot; decide) | with_reducible exact .pair ‹_› ‹_›
    | split | dsimp only

theorem Dev.admitPkg_foot {d : Dev} {js : List Judged} : ChangesOnly [.mem, .pkg, .expo, .sealing, .restore, .strata, .flash, .ctxs, .dram, .energy, .flint, .snap, .lat, .heads, .slate, .panel, .dw, .out, .freeN] d (Dev.admitPkg d js) := by
  unfold Dev.admitPkg
  try dsimp only
  repeat' first
    | intro _ | with_reducible exact .refl _ _ | with_reducible assumption | with_reducible apply ChangesOnly.ite
    | with_reducible apply ChangesOnly.foldl | (with_reducible apply ChangesOnly.step Dev.onFlint_foot; decide)
    | (with_reducible apply ChangesOnly.step Dev.windowLog_foot; decide) | (with_reducible apply ChangesOnly.step Dev.post_foot; decide)
    | (with_reducible apply ChangesOnly.step Dev.tfPulse_foot; decide) | (with_reducible apply ChangesOnly.step Dev.snapCapture_foot; decide)
    | (with_reducible apply ChangesOnly.step Dev.react_foot; decide) | with_reducible exact .pair ‹_› ‹_› | split | dsimp only

theorem Dev.window_foot {d : Dev} {c n pk : Nat} : ChangesOnly [.mem, .pkg, .expo, .sealing, .restore, .strata, .flash, .ctxs, .dram, .energy, .flint, .snap, .lat, .heads, .slate, .panel, .dw, .out, .freeN] d (Dev.window d c n pk) := by
  unfold Dev.window
  try dsimp only
  repeat' first
    | intro _ | with_reducible exact .refl _ _ | with_reducible assumption | with_reducible apply ChangesOnly.ite
    | with_reducible apply ChangesOnly.foldl | (with_reducible apply ChangesOnly.step Dev.takeWindow_foot; decide)
    | (with_reducible apply ChangesOnly.step Dev.countMsg_foot; decide) | (with_reducible apply ChangesOnly.step Dev.admitPkg_foot; decide)
    | (with_reducible apply ChangesOnly.step Dev.fltShow_foot; decide) | (with_reducible apply ChangesOnly.step Dev.windowLog_foot; decide)
    | (with_reducible apply ChangesOnly.step Dev.tfPulse_foot; decide) | with_reducible exact .pair ‹_› ‹_› | split | dsimp only

theorem Dev.flush_foot {d : Dev} {c : Nat} {n : Nat} : ChangesOnly [.mem, .pkg, .expo, .sealing, .restore, .strata, .flash, .ctxs, .dram, .energy, .flint, .snap, .lat, .heads, .slate, .panel, .dw, .out, .freeN] d (Dev.flush d c n) := by
  induction n generalizing d with
  | zero => exact .refl _ _
  | succ n ih =>
    unfold Dev.flush
    try dsimp only
    repeat' first
      | intro _ | with_reducible exact .refl _ _ | with_reducible assumption | with_reducible apply ChangesOnly.ite
      | with_reducible apply ChangesOnly.foldl | (with_reducible apply ChangesOnly.step ih; decide)
      | (with_reducible apply ChangesOnly.step Dev.window_foot; decide) | with_reducible exact .pair ‹_› ‹_› | split | dsimp only

/-! ### Update -/

theorem Dev.slatePut_foot {d : Dev} {t a : Nat} {bs : List Byte} : ChangesOnly [.slate] d (Dev.slatePut d t a bs) := by
  unfold Dev.slatePut
  try dsimp only
  repeat' first
    | intro _ | with_reducible exact .refl _ _ | with_reducible assumption | with_reducible apply ChangesOnly.ite
    | with_reducible apply ChangesOnly.foldl | (with_reducible apply ChangesOnly.step Dev.onSl_foot; decide) | with_reducible exact .pair ‹_› ‹_›
    | split | dsimp only

theorem Dev.eraseWhole_foot {d : Dev} {t s purpose : Nat} : ChangesOnly [.slate] d (Dev.eraseWhole d t s purpose) := by
  unfold Dev.eraseWhole
  try dsimp only
  repeat' first
    | intro _ | with_reducible exact .refl _ _ | with_reducible assumption | with_reducible apply ChangesOnly.ite
    | with_reducible apply ChangesOnly.foldl | (with_reducible apply ChangesOnly.step Dev.intentPut_foot; decide)
    | (with_reducible apply ChangesOnly.step Dev.secClear_foot; decide) | (with_reducible apply ChangesOnly.step Dev.onSl_foot; decide)
    | (with_reducible apply ChangesOnly.step Dev.recDueOn_foot; decide) | with_reducible exact .pair ‹_› ‹_› | split | dsimp only

theorem Dev.onRecs_foot {d : Dev} {f : UpdRec → UpdRec} : ChangesOnly [.qtz, .slate, .upd, .freeN] d (Dev.onRecs d f) := by
  unfold Dev.onRecs
  try dsimp only
  repeat' first
    | intro _ | with_reducible exact .refl _ _ | with_reducible assumption | with_reducible apply ChangesOnly.ite
    | with_reducible apply ChangesOnly.foldl | (with_reducible apply ChangesOnly.step Dev.onUrec_foot; decide)
    | (with_reducible apply ChangesOnly.step Dev.recWrite_foot; decide) | with_reducible exact .pair ‹_› ‹_› | split | dsimp only

theorem Dev.updEvent_foot {d : Dev} {src kind sev : Nat} {detail : List Nat} : ChangesOnly [.flint] d (Dev.updEvent d src kind sev detail) := by
  unfold Dev.updEvent
  try dsimp only
  repeat' first
    | intro _ | with_reducible exact .refl _ _ | with_reducible assumption | with_reducible apply ChangesOnly.ite
    | with_reducible apply ChangesOnly.foldl | (with_reducible apply ChangesOnly.step Dev.raise_foot; decide) | with_reducible exact .pair ‹_› ‹_›
    | split | dsimp only

theorem Dev.updRelease_foot {d : Dev} : ChangesOnly [.flint, .qtz, .heads, .jcs, .slate, .upd, .mirror, .out, .freeN] d (Dev.updRelease d) := by
  unfold Dev.updRelease
  try dsimp only
  repeat' first
    | intro _ | with_reducible exact .refl _ _ | with_reducible assumption | with_reducible apply ChangesOnly.ite
    | with_reducible apply ChangesOnly.foldl | (with_reducible apply ChangesOnly.step Dev.onUpd_foot; decide)
    | (with_reducible apply ChangesOnly.step Dev.chunkAbort_foot; decide) | (with_reducible apply ChangesOnly.step Dev.onRecs_foot; decide)
    | (with_reducible apply ChangesOnly.step Dev.endLease_foot; decide) | (with_reducible apply ChangesOnly.step Dev.updEvent_foot; decide)
    | with_reducible exact .pair ‹_› ‹_› | split | dsimp only

theorem Dev.updOwn_foot {d : Dev} {by_ slot : Nat} {pldm : Bool} : ChangesOnly [.flint, .qtz, .jcs, .slate, .upd, .mirror, .freeN] d (Dev.updOwn d by_ slot pldm) := by
  unfold Dev.updOwn
  try dsimp only
  repeat' first
    | intro _ | with_reducible exact .refl _ _ | with_reducible assumption | with_reducible apply ChangesOnly.ite
    | with_reducible apply ChangesOnly.foldl | (with_reducible apply ChangesOnly.step Dev.onJcs_foot; decide)
    | (with_reducible apply ChangesOnly.step Dev.onUpd_foot; decide) | (with_reducible apply ChangesOnly.step Dev.onRecs_foot; decide)
    | (with_reducible apply ChangesOnly.step Dev.mirrorNow_foot; decide) | (with_reducible apply ChangesOnly.step Dev.updEvent_foot; decide)
    | with_reducible exact .pair ‹_› ‹_› | split | dsimp only

theorem Dev.xferHeader_foot {d : Dev} {h : ImgHdr} {dig : Nat} : ChangesOnly [.qtz, .slate, .upd, .freeN] d (Dev.xferHeader d h dig) := by
  unfold Dev.xferHeader
  try dsimp only
  repeat' first
    | intro _ | with_reducible exact .refl _ _ | with_reducible assumption | with_reducible apply ChangesOnly.ite
    | with_reducible apply ChangesOnly.foldl | (with_reducible apply ChangesOnly.step Dev.onUpd_foot; decide)
    | (with_reducible apply ChangesOnly.step Dev.onRecs_foot; decide) | with_reducible exact .pair ‹_› ‹_› | split | dsimp only

theorem Dev.xferUndo_foot {d : Dev} : ChangesOnly [.upd] d (Dev.xferUndo d) := by
  unfold Dev.xferUndo
  try dsimp only
  repeat' first
    | intro _ | with_reducible exact .refl _ _ | with_reducible assumption | with_reducible apply ChangesOnly.ite
    | with_reducible apply ChangesOnly.foldl | (with_reducible apply ChangesOnly.step Dev.onUpd_foot; decide) | with_reducible exact .pair ‹_› ‹_›
    | split | dsimp only

theorem Dev.updYield_foot {d : Dev} {p : Nat} : ChangesOnly [.qtz, .heads, .jcs, .slate, .upd, .mirror, .out, .freeN] d (Dev.updYield d p) := by
  unfold Dev.updYield
  try dsimp only
  repeat' first
    | intro _ | with_reducible exact .refl _ _ | with_reducible assumption | with_reducible apply ChangesOnly.ite
    | with_reducible apply ChangesOnly.foldl | (with_reducible apply ChangesOnly.step Dev.onUpd_foot; decide)
    | (with_reducible apply ChangesOnly.step Dev.onRecs_foot; decide) | (with_reducible apply ChangesOnly.step Dev.xferUndo_foot; decide)
    | (with_reducible apply ChangesOnly.step Dev.endLease_foot; decide) | (with_reducible apply ChangesOnly.step Dev.cxlRespond_foot; decide)
    | with_reducible exact .pair ‹_› ‹_› | split | dsimp only

theorem Dev.xferChunk_foot {d : Dev} {off : Nat} {bs : List Byte} : ChangesOnly [.upd] d (Dev.xferChunk d off bs) := by
  unfold Dev.xferChunk
  try dsimp only
  repeat' first
    | intro _ | with_reducible exact .refl _ _ | with_reducible assumption | with_reducible apply ChangesOnly.ite
    | with_reducible apply ChangesOnly.foldl | (with_reducible apply ChangesOnly.step Dev.onUpd_foot; decide) | with_reducible exact .pair ‹_› ‹_›
    | split | dsimp only

theorem Dev.xferAck_foot {d : Dev} {ext : Nat} : ChangesOnly [.heads, .out] d (Dev.xferAck d ext) := by
  unfold Dev.xferAck
  try dsimp only
  repeat' first
    | intro _ | with_reducible exact .refl _ _ | with_reducible assumption | with_reducible apply ChangesOnly.ite
    | with_reducible apply ChangesOnly.foldl | (with_reducible apply ChangesOnly.step Dev.emit_foot; decide)
    | (with_reducible apply ChangesOnly.step Dev.cxlRespond_foot; decide) | with_reducible exact .pair ‹_› ‹_› | split | dsimp only

theorem Dev.imageReject_foot {d : Dev} {reason : Nat} : ChangesOnly [.flint] d (Dev.imageReject d reason) := by
  unfold Dev.imageReject
  try dsimp only
  repeat' first
    | intro _ | with_reducible exact .refl _ _ | with_reducible assumption | with_reducible apply ChangesOnly.ite
    | with_reducible apply ChangesOnly.foldl | (with_reducible apply ChangesOnly.step Dev.updEvent_foot; decide) | with_reducible exact .pair ‹_› ‹_›
    | split | dsimp only

theorem Dev.activate_foot {d : Dev} {slot : Nat} {now : Bool} : ChangesOnly [.mem, .pkg, .expo, .sealing, .restore, .strata, .flash, .ctxs, .dram, .energy, .therm, .flint, .qtz, .lat, .heads, .jcs, .slate, .upd, .panel, .dw, .out, .freeN] d (Dev.activate d slot now) := by
  unfold Dev.activate
  try dsimp only
  repeat' first
    | intro _ | with_reducible exact .refl _ _ | with_reducible assumption | with_reducible apply ChangesOnly.ite
    | with_reducible apply ChangesOnly.foldl | (with_reducible apply ChangesOnly.step Dev.onUpd_foot; decide)
    | (with_reducible apply ChangesOnly.step Dev.gaugeWrite_foot; decide) | (with_reducible apply ChangesOnly.step Dev.onRecs_foot; decide)
    | (with_reducible apply ChangesOnly.step Dev.revert_foot; decide) | (with_reducible apply ChangesOnly.step Dev.updEvent_foot; decide)
    | (with_reducible apply ChangesOnly.step Dev.trigger_foot; decide) | with_reducible exact .pair ‹_› ‹_› | split | dsimp only

theorem Dev.formatsEnd_foot {d : Dev} {new : Bool} : ChangesOnly [.slate, .upd] d (Dev.formatsEnd d new) := by
  unfold Dev.formatsEnd
  try dsimp only
  repeat' first
    | intro _ | with_reducible exact .refl _ _ | with_reducible assumption | with_reducible apply ChangesOnly.ite
    | with_reducible apply ChangesOnly.foldl | (with_reducible apply ChangesOnly.step Dev.onSlate_foot; decide)
    | (with_reducible apply ChangesOnly.step Dev.onUpd_foot; decide) | with_reducible exact .pair ‹_› ‹_› | split | dsimp only

theorem Dev.slotCopy_foot {d : Dev} {slot src dst : Nat} : ChangesOnly [.flint, .slate] d (Dev.slotCopy d slot src dst) := by
  unfold Dev.slotCopy
  try dsimp only
  repeat' first
    | intro _ | with_reducible exact .refl _ _ | with_reducible assumption | with_reducible apply ChangesOnly.ite
    | with_reducible apply ChangesOnly.foldl | (with_reducible apply ChangesOnly.step Dev.eraseWhole_foot; decide)
    | (with_reducible apply ChangesOnly.step Dev.onSl_foot; decide) | (with_reducible apply ChangesOnly.step Dev.updEvent_foot; decide)
    | with_reducible exact .pair ‹_› ‹_› | split | dsimp only

theorem Dev.confirmRest_foot {d : Dev} : ChangesOnly [.flint, .qtz, .heads, .jcs, .slate, .upd, .mirror, .out, .freeN] d (Dev.confirmRest d) := by
  unfold Dev.confirmRest
  try dsimp only
  repeat' first
    | intro _ | with_reducible exact .refl _ _ | with_reducible assumption | with_reducible apply ChangesOnly.ite
    | with_reducible apply ChangesOnly.foldl | (with_reducible apply ChangesOnly.step Dev.onUpd_foot; decide)
    | (with_reducible apply ChangesOnly.step Dev.updEvent_foot; decide) | (with_reducible apply ChangesOnly.step Dev.eraseWhole_foot; decide)
    | (with_reducible apply ChangesOnly.step Dev.putLines_foot; decide) | (with_reducible apply ChangesOnly.step Dev.onRecs_foot; decide)
    | (with_reducible apply ChangesOnly.step Dev.formatsEnd_foot; decide) | (with_reducible apply ChangesOnly.step Dev.updRelease_foot; decide)
    | with_reducible exact .pair ‹_› ‹_› | split | dsimp only

theorem Dev.enterBedrock_foot {d : Dev} {cause : Nat} : ChangesOnly [.pkg, .restore, .heads, .upd, .dw] d (Dev.enterBedrock d cause) := by
  unfold Dev.enterBedrock
  try dsimp only
  repeat' first
    | intro _ | with_reducible exact .refl _ _ | with_reducible assumption | with_reducible apply ChangesOnly.ite
    | with_reducible apply ChangesOnly.foldl | (with_reducible apply ChangesOnly.step Dev.onPkg_foot; decide)
    | (with_reducible apply ChangesOnly.step Dev.onUpd_foot; decide) | (with_reducible apply ChangesOnly.step Dev.onRestore_foot; decide)
    | (with_reducible apply ChangesOnly.step Dev.onHead_foot; decide) | (with_reducible apply ChangesOnly.step Dev.restUpd_foot; decide)
    | with_reducible exact .pair ‹_› ‹_› | split | dsimp only

theorem Dev.bootRecords_foot {d : Dev} : ChangesOnly [.flint, .qtz, .heads, .jcs, .slate, .upd, .mirror, .out, .freeN] d (Dev.bootRecords d) := by
  unfold Dev.bootRecords
  try dsimp only
  repeat' first
    | intro _ | with_reducible exact .refl _ _ | with_reducible assumption | with_reducible apply ChangesOnly.ite
    | with_reducible apply ChangesOnly.foldl | (with_reducible apply ChangesOnly.step Dev.onUrec_foot; decide)
    | (with_reducible apply ChangesOnly.step Dev.recWrite_foot; decide) | (with_reducible apply ChangesOnly.step Dev.formatsEnd_foot; decide)
    | (with_reducible apply ChangesOnly.step Dev.updEvent_foot; decide) | (with_reducible apply ChangesOnly.step Dev.updRelease_foot; decide)
    | with_reducible exact .pair ‹_› ‹_› | split | dsimp only

theorem Dev.bootRun_foot {d : Dev} {want slot : Nat} {ok : BitVec 8} : ChangesOnly [.flint, .qtz, .heads, .jcs, .slate, .upd, .mirror, .out, .freeN] d (Dev.bootRun d want slot ok) := by
  unfold Dev.bootRun
  try dsimp only
  repeat' first
    | intro _ | with_reducible exact .refl _ _ | with_reducible assumption | with_reducible apply ChangesOnly.ite
    | with_reducible apply ChangesOnly.foldl | (with_reducible apply ChangesOnly.step Dev.onUpd_foot; decide)
    | (with_reducible apply ChangesOnly.step Dev.onRecs_foot; decide) | (with_reducible apply ChangesOnly.step Dev.updEvent_foot; decide)
    | (with_reducible apply ChangesOnly.step Dev.formatsEnd_foot; decide) | (with_reducible apply ChangesOnly.step Dev.updRelease_foot; decide)
    | (with_reducible apply ChangesOnly.step Dev.slotCopy_foot; decide) | (with_reducible apply ChangesOnly.step Dev.confirmRest_foot; decide)
    | with_reducible exact .pair ‹_› ‹_› | split | dsimp only

theorem Dev.bootSlots_foot {d : Dev} {okA okB : BitVec 8} {twinOk : Bool} : ChangesOnly [.pkg, .restore, .flint, .qtz, .heads, .jcs, .slate, .upd, .mirror, .dw, .out, .freeN] d (Dev.bootSlots d okA okB twinOk) := by
  unfold Dev.bootSlots
  try dsimp only
  repeat' first
    | intro _ | with_reducible exact .refl _ _ | with_reducible assumption | with_reducible apply ChangesOnly.ite
    | with_reducible apply ChangesOnly.foldl | (with_reducible apply ChangesOnly.step Dev.onUpd_foot; decide)
    | (with_reducible apply ChangesOnly.step Dev.enterBedrock_foot; decide) | (with_reducible apply ChangesOnly.step Dev.bootRecords_foot; decide)
    | (with_reducible apply ChangesOnly.step Dev.bootRun_foot; decide) | with_reducible exact .pair ‹_› ‹_› | split | dsimp only

theorem Dev.brDo_foot {S : List Part} {d0 d : Dev} {pec : Bool} {f : Dev → Dev} (hS : ∀ p ∈ ([.out] : List Part), p ∈ S)
    (h0 : ChangesOnly S d0 d) (hf : ChangesOnly S d0 (f d)) : ChangesOnly S d0 (d.brDo pec f) := by
  unfold Dev.brDo
  try dsimp only
  repeat' first
    | intro _ | with_reducible exact .refl _ _ | with_reducible assumption | with_reducible apply hf | with_reducible apply ChangesOnly.ite
    | with_reducible apply ChangesOnly.foldl | (with_reducible apply ChangesOnly.step Dev.emit_foot; exact fun p hp => hS p (by revert p hp; decide))
    | with_reducible exact .pair ‹_› ‹_› | split | dsimp only

theorem Dev.brTouch_foot {d : Dev} {t a : Nat} : ChangesOnly [.upd] d (Dev.brTouch d t a) := by
  unfold Dev.brTouch
  try dsimp only
  repeat' first
    | intro _ | with_reducible exact .refl _ _ | with_reducible assumption | with_reducible apply ChangesOnly.ite
    | with_reducible apply ChangesOnly.foldl | (with_reducible apply ChangesOnly.step Dev.onUpd_foot; decide) | with_reducible exact .pair ‹_› ‹_›
    | split | dsimp only

theorem Dev.brRun_foot {d : Dev} {t c addr purpose : Nat} {data : BitVec 128} : ChangesOnly [.flint, .slate, .upd] d (Dev.brRun d t c addr purpose data) := by
  unfold Dev.brRun
  try dsimp only
  repeat' first
    | intro _ | with_reducible exact .refl _ _ | with_reducible assumption | with_reducible apply ChangesOnly.ite
    | with_reducible apply ChangesOnly.foldl | (with_reducible apply ChangesOnly.step Dev.onSl_foot; decide)
    | (with_reducible apply ChangesOnly.step Dev.opStart_foot; decide) | (with_reducible apply ChangesOnly.step Dev.brTouch_foot; decide)
    | with_reducible exact .pair ‹_› ‹_› | split | dsimp only

/-! ### Restore -/

theorem Dev.timeFloor_foot {d : Dev} {stamp : Nat} : ChangesOnly [.flint, .qtz] d (Dev.timeFloor d stamp) := by
  unfold Dev.timeFloor
  try dsimp only
  repeat' first
    | intro _ | with_reducible exact .refl _ _ | with_reducible assumption | with_reducible apply ChangesOnly.ite
    | with_reducible apply ChangesOnly.foldl | (with_reducible apply ChangesOnly.step Dev.onQtz_foot; decide)
    | (with_reducible apply ChangesOnly.step Dev.raise_foot; decide) | with_reducible exact .pair ‹_› ‹_› | split | dsimp only

theorem Dev.intentScan_foot {d : Dev} {t : Nat} {half : List Nat} : ChangesOnly [.flint, .slate, .upd] d (Dev.intentScan d t half) := by
  unfold Dev.intentScan
  try dsimp only
  repeat' first
    | intro _ | with_reducible exact .refl _ _ | with_reducible assumption | with_reducible apply ChangesOnly.ite
    | with_reducible apply ChangesOnly.foldl | (with_reducible apply ChangesOnly.step Dev.raise_foot; decide)
    | (with_reducible apply ChangesOnly.step Dev.intentPut_foot; decide) | (with_reducible apply ChangesOnly.step Dev.eraseWhole_foot; decide)
    | (with_reducible apply ChangesOnly.step Dev.slotState_foot; decide) | with_reducible exact .pair ‹_› ‹_› | split | dsimp only

theorem Dev.tornRecord_foot {d : Dev} {x : Nat × Nat} : ChangesOnly [.flint] d (Dev.tornRecord d x) := by
  unfold Dev.tornRecord
  try dsimp only
  repeat' first
    | intro _ | with_reducible exact .refl _ _ | with_reducible assumption | with_reducible apply ChangesOnly.ite
    | with_reducible apply ChangesOnly.foldl | (with_reducible apply ChangesOnly.step Dev.raise_foot; decide) | with_reducible exact .pair ‹_› ‹_›
    | split | dsimp only

theorem Dev.bootRoles_foot {d : Dev} {self : BitVec 8} : ChangesOnly [.pkg, .expo, .sealing, .dram, .energy, .flint, .heads, .panel, .mirror, .dw, .out] d (Dev.bootRoles d self) := by
  unfold Dev.bootRoles
  try dsimp only
  repeat' first
    | intro _ | with_reducible exact .refl _ _ | with_reducible assumption | with_reducible apply ChangesOnly.ite
    | with_reducible apply ChangesOnly.foldl | (with_reducible apply ChangesOnly.step Dev.onPkg_foot; decide)
    | (with_reducible apply ChangesOnly.step Dev.onTile_foot; decide) | (with_reducible apply ChangesOnly.step Dev.raise_foot; decide)
    | (with_reducible apply ChangesOnly.step Dev.onHead_foot; decide) | (with_reducible apply ChangesOnly.step Dev.bothLost_foot; decide)
    | (with_reducible apply ChangesOnly.step Dev.mirrorNow_foot; decide) | with_reducible exact .pair ‹_› ‹_› | split | dsimp only

theorem Dev.bayBoot_foot {d : Dev} {b : Nat} : ChangesOnly [.energy, .flint, .dw] d (Dev.bayBoot d b) := by
  unfold Dev.bayBoot
  try dsimp only
  repeat' first
    | intro _ | with_reducible exact .refl _ _ | with_reducible assumption | with_reducible apply ChangesOnly.ite
    | with_reducible apply ChangesOnly.foldl | (with_reducible apply ChangesOnly.step Dev.onBay_foot; decide)
    | (with_reducible apply ChangesOnly.step Dev.insertPack_foot; decide) | (with_reducible apply ChangesOnly.step Dev.bayUpd_foot; decide)
    | with_reducible exact .pair ‹_› ‹_› | split | dsimp only

theorem Dev.tooHot_foot {d : Dev} : ChangesOnly [.pkg, .sealing, .energy, .therm, .flint, .qtz, .slate, .panel] d (Dev.tooHot d) := by
  unfold Dev.tooHot
  try dsimp only
  repeat' first
    | intro _ | with_reducible exact .refl _ _ | with_reducible assumption | with_reducible apply ChangesOnly.ite
    | with_reducible apply ChangesOnly.foldl | (with_reducible apply ChangesOnly.step Dev.thermPend_foot; decide)
    | (with_reducible apply ChangesOnly.step Dev.stampFloor_foot; decide) | (with_reducible apply ChangesOnly.step Dev.thermKeep_foot; decide)
    | (with_reducible apply ChangesOnly.step Dev.hibernate_foot; decide) | with_reducible exact .pair ‹_› ‹_› | split | dsimp only

theorem Dev.toDramInit_foot {d : Dev} : ChangesOnly [.mem, .expo, .restore, .flash, .ctxs, .dram, .heads, .dw] d (Dev.toDramInit d) := by
  unfold Dev.toDramInit
  try dsimp only
  repeat' first
    | intro _ | with_reducible exact .refl _ _ | with_reducible assumption | with_reducible apply ChangesOnly.ite
    | with_reducible apply ChangesOnly.foldl | (with_reducible apply ChangesOnly.step Dev.onRestore_foot; decide)
    | (with_reducible apply ChangesOnly.step Dev.mountReset_foot; decide) | (with_reducible apply ChangesOnly.step Dev.tileChans_foot; decide)
    | (with_reducible apply ChangesOnly.step Dev.restUpd_foot; decide) | with_reducible exact .pair ‹_› ‹_› | split | dsimp only

theorem Dev.flashChanLost_foot {d : Dev} {t ch : Nat} : ChangesOnly [.expo, .strata, .flash, .flint] d (Dev.flashChanLost d t ch) := by
  unfold Dev.flashChanLost
  try dsimp only
  repeat' first
    | intro _ | with_reducible exact .refl _ _ | with_reducible assumption | with_reducible apply ChangesOnly.ite
    | with_reducible apply ChangesOnly.foldl | (with_reducible apply ChangesOnly.step Dev.retireDie_foot; decide)
    | (with_reducible apply ChangesOnly.step Dev.raise_foot; decide) | with_reducible exact .pair ‹_› ‹_› | split | dsimp only

theorem Dev.poisonLoc_foot {d : Dev} {p : Nat} : ChangesOnly [.strata, .flash] d (Dev.poisonLoc d p) := by
  unfold Dev.poisonLoc
  try dsimp only
  repeat' first
    | intro _ | with_reducible exact .refl _ _ | with_reducible assumption | with_reducible apply ChangesOnly.ite
    | with_reducible apply ChangesOnly.foldl | (with_reducible apply ChangesOnly.step Dev.onStrata_foot; decide)
    | (with_reducible apply ChangesOnly.step Dev.onFl_foot; decide) | with_reducible exact .pair ‹_› ‹_› | split | dsimp only

theorem Dev.poisonRecords_foot {d : Dev} {t tier : Nat} : ChangesOnly [.expo, .strata, .flash] d (Dev.poisonRecords d t tier) := by
  unfold Dev.poisonRecords
  try dsimp only
  repeat' first
    | intro _ | with_reducible exact .refl _ _ | with_reducible assumption | with_reducible apply ChangesOnly.ite
    | with_reducible apply ChangesOnly.foldl | (with_reducible apply ChangesOnly.step Dev.ledger_foot; decide)
    | (with_reducible apply ChangesOnly.step Dev.poisonLoc_foot; decide) | with_reducible exact .pair ‹_› ‹_› | split | dsimp only

theorem Dev.formatTile_foot {d : Dev} {t : Nat} : ChangesOnly [.strata, .flash] d (Dev.formatTile d t) := by
  unfold Dev.formatTile
  try dsimp only
  repeat' first
    | intro _ | with_reducible exact .refl _ _ | with_reducible assumption | with_reducible apply ChangesOnly.ite
    | with_reducible apply ChangesOnly.foldl | (with_reducible apply ChangesOnly.step Dev.onStrata_foot; decide)
    | (with_reducible apply ChangesOnly.step Dev.onFl_foot; decide) | (with_reducible apply ChangesOnly.step Dev.resvFill_foot; decide)
    | with_reducible exact .pair ‹_› ‹_› | split | dsimp only

theorem Dev.dropHeaders_foot {d : Dev} {t : Nat} {bad : List Nat} : ChangesOnly [.strata, .flash, .flint] d (Dev.dropHeaders d t bad) := by
  unfold Dev.dropHeaders
  try dsimp only
  repeat' first
    | intro _ | with_reducible exact .refl _ _ | with_reducible assumption | with_reducible apply ChangesOnly.ite
    | with_reducible apply ChangesOnly.foldl | (with_reducible apply ChangesOnly.step Dev.onStrata_foot; decide)
    | (with_reducible apply ChangesOnly.step Dev.onFl_foot; decide) | (with_reducible apply ChangesOnly.step Dev.raise_foot; decide)
    | with_reducible exact .pair ‹_› ‹_› | split | dsimp only

theorem Dev.rebuildLoc_foot {d : Dev} {t : Nat} : ChangesOnly [.strata] d (Dev.rebuildLoc d t) := by
  unfold Dev.rebuildLoc
  try dsimp only
  repeat' first
    | intro _ | with_reducible exact .refl _ _ | with_reducible assumption | with_reducible apply ChangesOnly.ite
    | with_reducible apply ChangesOnly.foldl | (with_reducible apply ChangesOnly.step Dev.onStrata_foot; decide) | with_reducible exact .pair ‹_› ‹_›
    | split | dsimp only

theorem Dev.halfErased_foot {d : Dev} {t : Nat} {half : List Nat} : ChangesOnly [.flash] d (Dev.halfErased d t half) := by
  unfold Dev.halfErased
  try dsimp only
  repeat' first
    | intro _ | with_reducible exact .refl _ _ | with_reducible assumption | with_reducible apply ChangesOnly.ite
    | with_reducible apply ChangesOnly.foldl | (with_reducible apply ChangesOnly.step Dev.onFl_foot; decide)
    | (with_reducible apply ChangesOnly.step Dev.onBlk_foot; decide) | with_reducible exact .pair ‹_› ‹_› | split | dsimp only

theorem Dev.mountEnds_foot {d : Dev} : ChangesOnly [.restore, .dw] d (Dev.mountEnds d) := by
  unfold Dev.mountEnds
  try dsimp only
  repeat' first
    | intro _ | with_reducible exact .refl _ _ | with_reducible assumption | with_reducible apply ChangesOnly.ite
    | with_reducible apply ChangesOnly.foldl | (with_reducible apply ChangesOnly.step Dev.onRestore_foot; decide)
    | (with_reducible apply ChangesOnly.step Dev.restUpd_foot; decide) | with_reducible exact .pair ‹_› ‹_› | split | dsimp only

theorem Dev.poisonReport_foot {d : Dev} : ChangesOnly [.restore, .flint, .heads] d (Dev.poisonReport d) := by
  unfold Dev.poisonReport
  try dsimp only
  repeat' first
    | intro _ | with_reducible exact .refl _ _ | with_reducible assumption | with_reducible apply ChangesOnly.ite
    | with_reducible apply ChangesOnly.foldl | (with_reducible apply ChangesOnly.step Dev.onRestore_foot; decide)
    | (with_reducible apply ChangesOnly.step Dev.poisonEntry_foot; decide) | (with_reducible apply ChangesOnly.step Dev.raise_foot; decide)
    | with_reducible exact .pair ‹_› ‹_› | split | dsimp only

theorem Dev.outageMeter_foot {d : Dev} : ChangesOnly [.ctxs] d (Dev.outageMeter d) := by
  unfold Dev.outageMeter
  try dsimp only
  repeat' first
    | intro _ | with_reducible exact .refl _ _ | with_reducible assumption | with_reducible apply ChangesOnly.ite
    | with_reducible apply ChangesOnly.foldl | (with_reducible apply ChangesOnly.step Dev.onCtx_foot; decide) | with_reducible exact .pair ‹_› ‹_›
    | split | dsimp only

theorem Dev.ringsLost_foot {d : Dev} : ChangesOnly [.expo, .ctxs] d (Dev.ringsLost d) := by
  unfold Dev.ringsLost
  try dsimp only
  repeat' first
    | intro _ | with_reducible exact .refl _ _ | with_reducible assumption | with_reducible apply ChangesOnly.ite
    | with_reducible apply ChangesOnly.foldl | (with_reducible apply ChangesOnly.step Dev.onExpo_foot; decide)
    | (with_reducible apply ChangesOnly.step Dev.onCtxs_foot; decide) | with_reducible exact .pair ‹_› ‹_› | split | dsimp only

theorem Dev.bedrockEvents_foot {d : Dev} : ChangesOnly [.flint, .upd] d (Dev.bedrockEvents d) := by
  unfold Dev.bedrockEvents
  try dsimp only
  repeat' first
    | intro _ | with_reducible exact .refl _ _ | with_reducible assumption | with_reducible apply ChangesOnly.ite
    | with_reducible apply ChangesOnly.foldl | (with_reducible apply ChangesOnly.step Dev.onUpd_foot; decide)
    | (with_reducible apply ChangesOnly.step Dev.raise_foot; decide) | with_reducible exact .pair ‹_› ‹_› | split | dsimp only

theorem Dev.readmit_foot {d : Dev} : ChangesOnly [.mem, .expo, .restore, .ctxs, .dram, .flint, .lat, .heads, .dw, .out] d (Dev.readmit d) := by
  unfold Dev.readmit
  try dsimp only
  repeat' first
    | intro _ | with_reducible exact .refl _ _ | with_reducible assumption | with_reducible apply ChangesOnly.ite
    | with_reducible apply ChangesOnly.foldl | (with_reducible apply ChangesOnly.step Dev.onExpo_foot; decide)
    | (with_reducible apply ChangesOnly.step Dev.admitReq_foot; decide) | with_reducible exact .pair ‹_› ‹_› | split | dsimp only

theorem Dev.restoreFail_foot {d : Dev} {p src : Nat} : ChangesOnly [.expo, .restore, .flint, .heads] d (Dev.restoreFail d p src) := by
  unfold Dev.restoreFail
  try dsimp only
  repeat' first
    | intro _ | with_reducible exact .refl _ _ | with_reducible assumption | with_reducible apply ChangesOnly.ite
    | with_reducible apply ChangesOnly.foldl | (with_reducible apply ChangesOnly.step Dev.onRestore_foot; decide)
    | (with_reducible apply ChangesOnly.step Dev.pagePoison_foot; decide) | (with_reducible apply ChangesOnly.step Dev.raise_foot; decide)
    | with_reducible exact .pair ‹_› ‹_› | split | dsimp only

theorem Dev.restorePage_foot {d : Dev} {p out keyErr src : Nat} : ChangesOnly [.mem, .expo, .restore, .flash, .ctxs, .dram, .flint, .lat, .heads, .dw, .out] d (Dev.restorePage d p out keyErr src) := by
  unfold Dev.restorePage
  try dsimp only
  repeat' first
    | intro _ | with_reducible exact .refl _ _ | with_reducible assumption | with_reducible apply ChangesOnly.ite
    | with_reducible apply ChangesOnly.foldl | (with_reducible apply ChangesOnly.step Dev.restoreFail_foot; decide)
    | (with_reducible apply ChangesOnly.step Dev.pagePoison_foot; decide) | (with_reducible apply ChangesOnly.step Dev.useKey_foot; decide)
    | (with_reducible apply ChangesOnly.step Dev.keyLost_foot; decide) | (with_reducible apply ChangesOnly.step Dev.onBlk_foot; decide)
    | (with_reducible apply ChangesOnly.step Dev.loadPage_foot; decide) | (with_reducible apply ChangesOnly.step Dev.pageTouch_foot; decide)
    | (with_reducible apply ChangesOnly.step Dev.storePoison_foot; decide) | (with_reducible apply ChangesOnly.step Dev.poisonEntry_foot; decide)
    | (with_reducible apply ChangesOnly.step Dev.markRestored_foot; decide) | (with_reducible apply ChangesOnly.step Dev.fetchDone_foot; decide)
    | with_reducible exact .pair ‹_› ‹_› | split | dsimp only

theorem Dev.restoreEnds_foot {d : Dev} : ChangesOnly [.pkg, .restore, .flint, .slate, .dw] d (Dev.restoreEnds d) := by
  unfold Dev.restoreEnds
  try dsimp only
  repeat' first
    | intro _ | with_reducible exact .refl _ _ | with_reducible assumption | with_reducible apply ChangesOnly.ite
    | with_reducible apply ChangesOnly.foldl | (with_reducible apply ChangesOnly.step Dev.onRestore_foot; decide)
    | (with_reducible apply ChangesOnly.step Dev.raise_foot; decide) | (with_reducible apply ChangesOnly.step Dev.restUpd_foot; decide)
    | (with_reducible apply ChangesOnly.step Dev.pointCheck_foot; decide) | with_reducible exact .pair ‹_› ‹_› | split | dsimp only

/-! ### Power -/

theorem Dev.qtzLoad_foot {d : Dev} : ChangesOnly [.restore, .flint, .qtz, .slate] d (Dev.qtzLoad d) := by
  unfold Dev.qtzLoad
  try dsimp only
  repeat' first
    | intro _ | with_reducible exact .refl _ _ | with_reducible assumption | with_reducible apply ChangesOnly.ite
    | with_reducible apply ChangesOnly.foldl | (with_reducible apply ChangesOnly.step Dev.onQtz_foot; decide)
    | (with_reducible apply ChangesOnly.step Dev.onRestore_foot; decide) | (with_reducible apply ChangesOnly.step Dev.recDue_foot; decide)
    | (with_reducible apply ChangesOnly.step Dev.raise_foot; decide) | with_reducible exact .pair ‹_› ‹_› | split | dsimp only

theorem Dev.coreStart_foot {d : Dev} : ChangesOnly [.restore, .energy, .flint, .qtz, .slate, .panel] d (Dev.coreStart d) := by
  unfold Dev.coreStart
  try dsimp only
  repeat' first
    | intro _ | with_reducible exact .refl _ _ | with_reducible assumption | with_reducible apply ChangesOnly.ite
    | with_reducible apply ChangesOnly.foldl | (with_reducible apply ChangesOnly.step Dev.onPanel_foot; decide)
    | (with_reducible apply ChangesOnly.step Dev.onEnergy_foot; decide) | (with_reducible apply ChangesOnly.step Dev.onRestore_foot; decide)
    | (with_reducible apply ChangesOnly.step Dev.qtzLoad_foot; decide) | with_reducible exact .pair ‹_› ‹_› | split | dsimp only

theorem Dev.resetParts_foot {d : Dev} {kept noLat : Bool} : ChangesOnly [.pkg, .expo, .sealing, .ctxs, .dram, .energy, .therm, .flint, .qtz, .snap, .lat, .heads, .jcs, .slate, .upd, .mirror, .dw, .out] d (Dev.resetParts d kept noLat) := by
  unfold Dev.resetParts
  try dsimp only
  repeat' first
    | intro _ | with_reducible exact .refl _ _ | with_reducible assumption | with_reducible apply ChangesOnly.ite
    | with_reducible apply ChangesOnly.foldl | (with_reducible apply ChangesOnly.step Dev.onPkg_foot; decide)
    | (with_reducible apply ChangesOnly.step Dev.onDw_foot; decide) | (with_reducible apply ChangesOnly.step Dev.onFlint_foot; decide)
    | (with_reducible apply ChangesOnly.step Dev.onHeads_foot; decide) | (with_reducible apply ChangesOnly.step Dev.onJcs_foot; decide)
    | (with_reducible apply ChangesOnly.step Dev.onMirror_foot; decide) | (with_reducible apply ChangesOnly.step Dev.onLat_foot; decide)
    | (with_reducible apply ChangesOnly.step Dev.onQtz_foot; decide) | (with_reducible apply ChangesOnly.step Dev.onSnap_foot; decide)
    | (with_reducible apply ChangesOnly.step Dev.onSlate_foot; decide) | (with_reducible apply ChangesOnly.step Dev.onUpd_foot; decide)
    | (with_reducible apply ChangesOnly.step Dev.onExpo_foot; decide) | (with_reducible apply ChangesOnly.step Dev.onSealing_foot; decide)
    | (with_reducible apply ChangesOnly.step Dev.onTherm_foot; decide) | (with_reducible apply ChangesOnly.step Dev.onCtxs_foot; decide)
    | (with_reducible apply ChangesOnly.step Dev.onEnergy_foot; decide) | (with_reducible apply ChangesOnly.step Dev.onDram_foot; decide)
    | (with_reducible apply ChangesOnly.step Dev.uncSync_foot; decide) | (with_reducible apply ChangesOnly.step Dev.refuseErr_foot; decide)
    | (with_reducible apply ChangesOnly.step Dev.emit_foot; decide) | (with_reducible apply ChangesOnly.step Dev.sealReport_foot; decide)
    | (with_reducible apply ChangesOnly.step Dev.disqualify_foot; decide) | with_reducible exact .pair ‹_› ‹_› | split | dsimp only

theorem Dev.updLoses_foot {d : Dev} {p : Nat} : ChangesOnly [.flint, .qtz, .heads, .jcs, .slate, .upd, .mirror, .out, .freeN] d (Dev.updLoses d p) := by
  unfold Dev.updLoses
  try dsimp only
  repeat' first
    | intro _ | with_reducible exact .refl _ _ | with_reducible assumption | with_reducible apply ChangesOnly.ite
    | with_reducible apply ChangesOnly.foldl | (with_reducible apply ChangesOnly.step Dev.onUpd_foot; decide)
    | (with_reducible apply ChangesOnly.step Dev.updRelease_foot; decide) | with_reducible exact .pair ‹_› ‹_› | split | dsimp only

theorem Dev.identify_foot {d : Dev} : ChangesOnly [.panel] d (Dev.identify d) := by
  unfold Dev.identify
  try dsimp only
  repeat' first
    | intro _ | with_reducible exact .refl _ _ | with_reducible assumption | with_reducible apply ChangesOnly.ite
    | with_reducible apply ChangesOnly.foldl | (with_reducible apply ChangesOnly.step Dev.onPanel_foot; decide) | with_reducible exact .pair ‹_› ‹_›
    | split | dsimp only

theorem Dev.refuseHold_foot {d : Dev} : ChangesOnly [.panel] d (Dev.refuseHold d) := by
  unfold Dev.refuseHold
  try dsimp only
  repeat' first
    | intro _ | with_reducible exact .refl _ _ | with_reducible assumption | with_reducible apply ChangesOnly.ite
    | with_reducible apply ChangesOnly.foldl | (with_reducible apply ChangesOnly.step Dev.onPanel_foot; decide) | with_reducible exact .pair ‹_› ‹_›
    | split | dsimp only

theorem Dev.removeAsk_foot {d : Dev} : ChangesOnly [.expo, .energy, .flint, .panel, .dw] d (Dev.removeAsk d) := by
  unfold Dev.removeAsk
  try dsimp only
  repeat' first
    | intro _ | with_reducible exact .refl _ _ | with_reducible assumption | with_reducible apply ChangesOnly.ite
    | with_reducible apply ChangesOnly.foldl | (with_reducible apply ChangesOnly.step Dev.onPanel_foot; decide)
    | (with_reducible apply ChangesOnly.step Dev.raise_foot; decide) | (with_reducible apply ChangesOnly.step Dev.disqualify_foot; decide)
    | (with_reducible apply ChangesOnly.step Dev.govTrigger_foot; decide) | with_reducible exact .pair ‹_› ‹_› | split | dsimp only

/-! ### Jcs1 -/

theorem Dev.answer_foot {d : Dev} {r : Rsp} : ChangesOnly [] d (Dev.answer d r).1 := by
  unfold Dev.answer
  try dsimp only
  repeat' first
    | intro _ | with_reducible exact .refl _ _ | with_reducible assumption | with_reducible apply ChangesOnly.ite
    | with_reducible apply ChangesOnly.foldl | with_reducible exact .pair ‹_› ‹_› | split | dsimp only

theorem capAct_foot {d : Dev} {x1 : Caller} {p : List Byte} : ChangesOnly [] d (capAct d x1 p).1 := by
  unfold capAct
  try dsimp only
  repeat' first
    | intro _ | with_reducible exact .refl _ _ | with_reducible assumption | with_reducible apply ChangesOnly.ite
    | with_reducible apply ChangesOnly.foldl | (with_reducible apply ChangesOnly.step Dev.answer_foot; decide) | with_reducible exact .pair ‹_› ‹_›
    | split | dsimp only

theorem identAct_foot {d : Dev} {c : Caller} {x2 : List Byte} : ChangesOnly [] d (identAct d c x2).1 := by
  unfold identAct
  try dsimp only
  repeat' first
    | intro _ | with_reducible exact .refl _ _ | with_reducible assumption | with_reducible apply ChangesOnly.ite
    | with_reducible apply ChangesOnly.foldl | (with_reducible apply ChangesOnly.step Dev.answer_foot; decide) | with_reducible exact .pair ‹_› ‹_›
    | split | dsimp only

theorem dwAct_foot {d : Dev} {c : Caller} {p : List Byte} : ChangesOnly [] d (dwAct d c p).1 := by
  unfold dwAct
  try dsimp only
  repeat' first
    | intro _ | with_reducible exact .refl _ _ | with_reducible assumption | with_reducible apply ChangesOnly.ite
    | with_reducible apply ChangesOnly.foldl | (with_reducible apply ChangesOnly.step Dev.answer_foot; decide) | with_reducible exact .pair ‹_› ‹_›
    | split | dsimp only

theorem bgStatAct_foot {d : Dev} {x1 : Caller} {x2 : List Byte} : ChangesOnly [] d (bgStatAct d x1 x2).1 := by
  unfold bgStatAct
  try dsimp only
  repeat' first
    | intro _ | with_reducible exact .refl _ _ | with_reducible assumption | with_reducible apply ChangesOnly.ite
    | with_reducible apply ChangesOnly.foldl | (with_reducible apply ChangesOnly.step Dev.answer_foot; decide) | with_reducible exact .pair ‹_› ‹_›
    | split | dsimp only

theorem createAct_foot {d : Dev} {x1 : Caller} {p : List Byte} : ChangesOnly [.mem, .expo, .restore, .flash, .ctxs, .dram, .flint, .lat, .heads, .dw, .out, .freeN] d (createAct d x1 p).1 := by
  unfold createAct
  try dsimp only
  repeat' first
    | intro _ | with_reducible exact .refl _ _ | with_reducible assumption | with_reducible apply ChangesOnly.ite
    | with_reducible apply ChangesOnly.foldl | (with_reducible apply ChangesOnly.step Dev.onCtx_foot; decide)
    | (with_reducible apply ChangesOnly.step Dev.keyLost_foot; decide) | (with_reducible apply ChangesOnly.step Dev.keyDraw_foot; decide)
    | (with_reducible apply ChangesOnly.step Dev.ctxTo_foot; decide) | with_reducible exact .pair ‹_› ‹_› | split | dsimp only

theorem assignAct_foot {d : Dev} {x1 : Caller} {p : List Byte} : ChangesOnly [.mem, .expo, .restore, .flash, .ctxs, .dram, .flint, .lat, .heads, .dw, .out] d (assignAct d x1 p).1 := by
  unfold assignAct
  try dsimp only
  repeat' first
    | intro _ | with_reducible exact .refl _ _ | with_reducible assumption | with_reducible apply ChangesOnly.ite
    | with_reducible apply ChangesOnly.foldl | (with_reducible apply ChangesOnly.step Dev.keyLost_foot; decide)
    | (with_reducible apply ChangesOnly.step Dev.rtChange_foot; decide) | with_reducible exact .pair ‹_› ‹_› | split | dsimp only

theorem releaseAct_foot {d : Dev} {k : Caller} {p : List Byte} : ChangesOnly [.mem, .expo, .restore, .flash, .ctxs, .dram, .flint, .lat, .heads, .dw, .out] d (releaseAct d k p).1 := by
  unfold releaseAct
  try dsimp only
  repeat' first
    | intro _ | with_reducible exact .refl _ _ | with_reducible assumption | with_reducible apply ChangesOnly.ite
    | with_reducible apply ChangesOnly.foldl | (with_reducible apply ChangesOnly.step Dev.keyLost_foot; decide)
    | (with_reducible apply ChangesOnly.step Dev.releaseGran_foot; decide) | (with_reducible apply ChangesOnly.step Dev.dcForced_foot; decide)
    | (with_reducible apply ChangesOnly.step Dev.dcOffer_foot; decide) | with_reducible exact .pair ‹_› ‹_› | split | dsimp only

theorem classAct_foot {d : Dev} {x1 : Caller} {p : List Byte} : ChangesOnly [.mem, .expo, .restore, .flash, .ctxs, .dram, .flint, .lat, .heads, .dw, .out] d (classAct d x1 p).1 := by
  unfold classAct
  try dsimp only
  repeat' first
    | intro _ | with_reducible exact .refl _ _ | with_reducible assumption | with_reducible apply ChangesOnly.ite
    | with_reducible apply ChangesOnly.foldl | (with_reducible apply ChangesOnly.step Dev.keyLost_foot; decide)
    | (with_reducible apply ChangesOnly.step Dev.rtChange_foot; decide) | with_reducible exact .pair ‹_› ‹_› | split | dsimp only

theorem ownerAct_foot {d : Dev} {x1 : Caller} {p : List Byte} : ChangesOnly [.mem, .expo, .restore, .flash, .ctxs, .dram, .flint, .lat, .heads, .dw, .out] d (ownerAct d x1 p).1 := by
  unfold ownerAct
  try dsimp only
  repeat' first
    | intro _ | with_reducible exact .refl _ _ | with_reducible assumption | with_reducible apply ChangesOnly.ite
    | with_reducible apply ChangesOnly.foldl | (with_reducible apply ChangesOnly.step Dev.keyLost_foot; decide)
    | (with_reducible apply ChangesOnly.step Dev.dcForced_foot; decide) | (with_reducible apply ChangesOnly.step Dev.stopStreams_foot; decide)
    | (with_reducible apply ChangesOnly.step Dev.rtChange_foot; decide) | (with_reducible apply ChangesOnly.step Dev.onCtx_foot; decide)
    | (with_reducible apply ChangesOnly.step Dev.ctxSave_foot; decide) | with_reducible exact .pair ‹_› ‹_› | split | dsimp only

theorem disableAct_foot {d : Dev} {x1 : Caller} {p : List Byte} : ChangesOnly [.mem, .expo, .restore, .flash, .ctxs, .dram, .flint, .lat, .heads, .jcs, .mirror, .dw, .out] d (disableAct d x1 p).1 := by
  unfold disableAct
  try dsimp only
  repeat' first
    | intro _ | with_reducible exact .refl _ _ | with_reducible assumption | with_reducible apply ChangesOnly.ite
    | with_reducible apply ChangesOnly.foldl | (with_reducible apply ChangesOnly.step Dev.quiesceCtx_foot; decide)
    | with_reducible exact .pair ‹_› ‹_› | split | dsimp only

theorem enableAct_foot {d : Dev} {x1 : Caller} {p : List Byte} : ChangesOnly [.mem, .expo, .restore, .flash, .ctxs, .dram, .flint, .lat, .heads, .dw, .out] d (enableAct d x1 p).1 := by
  unfold enableAct
  try dsimp only
  repeat' first
    | intro _ | with_reducible exact .refl _ _ | with_reducible assumption | with_reducible apply ChangesOnly.ite
    | with_reducible apply ChangesOnly.foldl | (with_reducible apply ChangesOnly.step Dev.keyLost_foot; decide)
    | (with_reducible apply ChangesOnly.step Dev.ctxTo_foot; decide) | (with_reducible apply ChangesOnly.step Dev.dcOffer_foot; decide)
    | with_reducible exact .pair ‹_› ‹_› | split | dsimp only

theorem sanitizeAct_foot {d : Dev} {x1 : Caller} {p : List Byte} : ChangesOnly [.expo, .flash, .ctxs] d (sanitizeAct d x1 p).1 := by
  unfold sanitizeAct
  try dsimp only
  repeat' first
    | intro _ | with_reducible exact .refl _ _ | with_reducible assumption | with_reducible apply ChangesOnly.ite
    | with_reducible apply ChangesOnly.foldl | (with_reducible apply ChangesOnly.step Dev.ctxTo_foot; decide)
    | (with_reducible apply ChangesOnly.step Dev.onCtx_foot; decide) | with_reducible exact .pair ‹_› ‹_› | split | dsimp only

theorem getCtxAct_foot {d : Dev} {x1 : Caller} {p : List Byte} : ChangesOnly [] d (getCtxAct d x1 p).1 := by
  unfold getCtxAct
  try dsimp only
  repeat' first
    | intro _ | with_reducible exact .refl _ _ | with_reducible assumption | with_reducible apply ChangesOnly.ite
    | with_reducible apply ChangesOnly.foldl | (with_reducible apply ChangesOnly.step Dev.answer_foot; decide) | with_reducible exact .pair ‹_› ‹_›
    | split | dsimp only

theorem retainAct_foot {d : Dev} {x1 : Caller} {p : List Byte} : ChangesOnly [.mem, .expo, .restore, .flash, .ctxs, .dram, .flint, .lat, .heads, .dw, .out] d (retainAct d x1 p).1 := by
  unfold retainAct
  try dsimp only
  repeat' first
    | intro _ | with_reducible exact .refl _ _ | with_reducible assumption | with_reducible apply ChangesOnly.ite
    | with_reducible apply ChangesOnly.foldl | (with_reducible apply ChangesOnly.step Dev.keyLost_foot; decide)
    | (with_reducible apply ChangesOnly.step Dev.onCtx_foot; decide) | (with_reducible apply ChangesOnly.step Dev.ctxSave_foot; decide)
    | with_reducible exact .pair ‹_› ‹_› | split | dsimp only

theorem meterAct_foot {d : Dev} {x1 : Caller} {p : List Byte} : ChangesOnly [] d (meterAct d x1 p).1 := by
  unfold meterAct
  try dsimp only
  repeat' first
    | intro _ | with_reducible exact .refl _ _ | with_reducible assumption | with_reducible apply ChangesOnly.ite
    | with_reducible apply ChangesOnly.foldl | (with_reducible apply ChangesOnly.step Dev.answer_foot; decide) | with_reducible exact .pair ‹_› ‹_›
    | split | dsimp only

theorem listCtxAct_foot {d : Dev} {x1 : Caller} {p : List Byte} : ChangesOnly [] d (listCtxAct d x1 p).1 := by
  unfold listCtxAct
  try dsimp only
  repeat' first
    | intro _ | with_reducible exact .refl _ _ | with_reducible assumption | with_reducible apply ChangesOnly.ite
    | with_reducible apply ChangesOnly.foldl | (with_reducible apply ChangesOnly.step Dev.answer_foot; decide) | with_reducible exact .pair ‹_› ‹_›
    | split | dsimp only

theorem ringAct_foot {d : Dev} {x1 : Caller} {p : List Byte} : ChangesOnly [.expo, .flash, .ctxs] d (ringAct d x1 p).1 := by
  unfold ringAct
  try dsimp only
  repeat' first
    | intro _ | with_reducible exact .refl _ _ | with_reducible assumption | with_reducible apply ChangesOnly.ite
    | with_reducible apply ChangesOnly.foldl | (with_reducible apply ChangesOnly.step Dev.onRing_foot; decide)
    | (with_reducible apply ChangesOnly.step Dev.ringSave_foot; decide) | with_reducible exact .pair ‹_› ‹_› | split | dsimp only

theorem ringOffAct_foot {d : Dev} {x1 : Caller} {p : List Byte} : ChangesOnly [.mem, .expo, .restore, .flash, .ctxs, .dram, .flint, .lat, .heads, .jcs, .mirror, .dw, .out] d (ringOffAct d x1 p).1 := by
  unfold ringOffAct
  try dsimp only
  repeat' first
    | intro _ | with_reducible exact .refl _ _ | with_reducible assumption | with_reducible apply ChangesOnly.ite
    | with_reducible apply ChangesOnly.foldl | (with_reducible apply ChangesOnly.step Dev.quiesceRing_foot; decide)
    | with_reducible exact .pair ‹_› ‹_› | split | dsimp only

theorem ringIntAct_foot {d : Dev} {x1 : Caller} {p : List Byte} : ChangesOnly [.expo, .flash, .ctxs] d (ringIntAct d x1 p).1 := by
  unfold ringIntAct
  try dsimp only
  repeat' first
    | intro _ | with_reducible exact .refl _ _ | with_reducible assumption | with_reducible apply ChangesOnly.ite
    | with_reducible apply ChangesOnly.foldl | (with_reducible apply ChangesOnly.step Dev.onRing_foot; decide)
    | (with_reducible apply ChangesOnly.step Dev.ringSave_foot; decide) | with_reducible exact .pair ‹_› ‹_› | split | dsimp only

theorem getRingAct_foot {d : Dev} {x1 : Caller} {p : List Byte} : ChangesOnly [] d (getRingAct d x1 p).1 := by
  unfold getRingAct
  try dsimp only
  repeat' first
    | intro _ | with_reducible exact .refl _ _ | with_reducible assumption | with_reducible apply ChangesOnly.ite
    | with_reducible apply ChangesOnly.foldl | (with_reducible apply ChangesOnly.step Dev.answer_foot; decide) | with_reducible exact .pair ‹_› ‹_›
    | split | dsimp only

/-! ### Jcs2 -/

theorem expoAct_foot {d : Dev} {x1 : Caller} {x2 : List Byte} : ChangesOnly [] d (expoAct d x1 x2).1 := by
  unfold expoAct
  try dsimp only
  repeat' first
    | intro _ | with_reducible exact .refl _ _ | with_reducible assumption | with_reducible apply ChangesOnly.ite
    | with_reducible apply ChangesOnly.foldl | (with_reducible apply ChangesOnly.step Dev.answer_foot; decide) | with_reducible exact .pair ‹_› ‹_›
    | split | dsimp only

theorem expoPolicyAct_foot {d : Dev} {x1 : Caller} {p : List Byte} : ChangesOnly [.pkg, .expo, .slate] d (expoPolicyAct d x1 p).1 := by
  unfold expoPolicyAct
  try dsimp only
  repeat' first
    | intro _ | with_reducible exact .refl _ _ | with_reducible assumption | with_reducible apply ChangesOnly.ite
    | with_reducible apply ChangesOnly.foldl | (with_reducible apply ChangesOnly.step Dev.onExpo_foot; decide)
    | (with_reducible apply ChangesOnly.step Dev.govTrigger_foot; decide) | (with_reducible apply ChangesOnly.step Dev.recDue_foot; decide)
    | (with_reducible apply ChangesOnly.step Dev.pointCheck_foot; decide) | with_reducible exact .pair ‹_› ‹_› | split | dsimp only

theorem getPolicyAct_foot {d : Dev} {x1 : Caller} {x2 : List Byte} : ChangesOnly [] d (getPolicyAct d x1 x2).1 := by
  unfold getPolicyAct
  try dsimp only
  repeat' first
    | intro _ | with_reducible exact .refl _ _ | with_reducible assumption | with_reducible apply ChangesOnly.ite
    | with_reducible apply ChangesOnly.foldl | (with_reducible apply ChangesOnly.step Dev.answer_foot; decide) | with_reducible exact .pair ‹_› ‹_›
    | split | dsimp only

theorem lapseAct_foot {d : Dev} {x1 : Caller} {p : List Byte} : ChangesOnly [] d (lapseAct d x1 p).1 := by
  unfold lapseAct
  try dsimp only
  repeat' first
    | intro _ | with_reducible exact .refl _ _ | with_reducible assumption | with_reducible apply ChangesOnly.ite
    | with_reducible apply ChangesOnly.foldl | (with_reducible apply ChangesOnly.step Dev.answer_foot; decide) | with_reducible exact .pair ‹_› ‹_›
    | split | dsimp only

theorem gaugeAct_foot {d : Dev} {x1 : Caller} {x2 : List Byte} : ChangesOnly [] d (gaugeAct d x1 x2).1 := by
  unfold gaugeAct
  try dsimp only
  repeat' first
    | intro _ | with_reducible exact .refl _ _ | with_reducible assumption | with_reducible apply ChangesOnly.ite
    | with_reducible apply ChangesOnly.foldl | (with_reducible apply ChangesOnly.step Dev.answer_foot; decide) | with_reducible exact .pair ‹_› ‹_›
    | split | dsimp only

theorem relReqAct_foot {d : Dev} {x1 : Caller} {p : List Byte} : ChangesOnly [.expo, .energy, .flint, .dw] d (relReqAct d x1 p).1 := by
  unfold relReqAct
  try dsimp only
  repeat' first
    | intro _ | with_reducible exact .refl _ _ | with_reducible assumption | with_reducible apply ChangesOnly.ite
    | with_reducible apply ChangesOnly.foldl | (with_reducible apply ChangesOnly.step Dev.refusePress_foot; decide)
    | (with_reducible apply ChangesOnly.step Dev.releaseAsk_foot; decide) | with_reducible exact .pair ‹_› ‹_› | split | dsimp only

theorem holdAct_foot {d : Dev} {x1 : Caller} {p : List Byte} : ChangesOnly [.energy, .dw] d (holdAct d x1 p).1 := by
  unfold holdAct
  try dsimp only
  repeat' first
    | intro _ | with_reducible exact .refl _ _ | with_reducible assumption | with_reducible apply ChangesOnly.ite
    | with_reducible apply ChangesOnly.foldl | (with_reducible apply ChangesOnly.step Dev.bayDo_foot; decide) | with_reducible exact .pair ‹_› ‹_›
    | split | dsimp only

theorem capTestAct_foot {d : Dev} {x1 : Caller} {p : List Byte} : ChangesOnly [.energy, .dw] d (capTestAct d x1 p).1 := by
  unfold capTestAct
  try dsimp only
  repeat' first
    | intro _ | with_reducible exact .refl _ _ | with_reducible assumption | with_reducible apply ChangesOnly.ite
    | with_reducible apply ChangesOnly.foldl | (with_reducible apply ChangesOnly.step Dev.startTest_foot; decide)
    | (with_reducible apply ChangesOnly.step Dev.bayDo_foot; decide) | with_reducible exact .pair ‹_› ‹_› | split | dsimp only

theorem testSealAct_foot {d : Dev} {x1 : Caller} {p : List Byte} : ChangesOnly [.sealing, .ctxs, .energy, .panel, .dw] d (testSealAct d x1 p).1 := by
  unfold testSealAct
  try dsimp only
  repeat' first
    | intro _ | with_reducible exact .refl _ _ | with_reducible assumption | with_reducible apply ChangesOnly.ite
    | with_reducible apply ChangesOnly.foldl | (with_reducible apply ChangesOnly.step Dev.testBegin_foot; decide) | with_reducible exact .pair ‹_› ‹_›
    | split | dsimp only

theorem enPolicyAct_foot {d : Dev} {x1 : Caller} {p : List Byte} : ChangesOnly [.energy, .slate] d (enPolicyAct d x1 p).1 := by
  unfold enPolicyAct
  try dsimp only
  repeat' first
    | intro _ | with_reducible exact .refl _ _ | with_reducible assumption | with_reducible apply ChangesOnly.ite
    | with_reducible apply ChangesOnly.foldl | (with_reducible apply ChangesOnly.step Dev.onEnergy_foot; decide)
    | (with_reducible apply ChangesOnly.step Dev.recDue_foot; decide) | with_reducible exact .pair ‹_› ‹_› | split | dsimp only

theorem bayParAct_foot {d : Dev} {x1 : Caller} {p : List Byte} : ChangesOnly [.energy, .slate] d (bayParAct d x1 p).1 := by
  unfold bayParAct
  try dsimp only
  repeat' first
    | intro _ | with_reducible exact .refl _ _ | with_reducible assumption | with_reducible apply ChangesOnly.ite
    | with_reducible apply ChangesOnly.foldl | (with_reducible apply ChangesOnly.step Dev.onBay_foot; decide)
    | (with_reducible apply ChangesOnly.step Dev.recDue_foot; decide) | with_reducible exact .pair ‹_› ‹_› | split | dsimp only

theorem bridgeParAct_foot {d : Dev} {x1 : Caller} {p : List Byte} : ChangesOnly [.energy, .slate] d (bridgeParAct d x1 p).1 := by
  unfold bridgeParAct
  try dsimp only
  repeat' first
    | intro _ | with_reducible exact .refl _ _ | with_reducible assumption | with_reducible apply ChangesOnly.ite
    | with_reducible apply ChangesOnly.foldl | (with_reducible apply ChangesOnly.step Dev.onEnergy_foot; decide)
    | (with_reducible apply ChangesOnly.step Dev.recDue_foot; decide) | with_reducible exact .pair ‹_› ‹_› | split | dsimp only

theorem chemAct_foot {d : Dev} {x1 : Caller} {p : List Byte} : ChangesOnly [.energy, .slate] d (chemAct d x1 p).1 := by
  unfold chemAct
  try dsimp only
  repeat' first
    | intro _ | with_reducible exact .refl _ _ | with_reducible assumption | with_reducible apply ChangesOnly.ite
    | with_reducible apply ChangesOnly.foldl | (with_reducible apply ChangesOnly.step Dev.onEnergy_foot; decide)
    | (with_reducible apply ChangesOnly.step Dev.recDue_foot; decide) | with_reducible exact .pair ‹_› ‹_› | split | dsimp only

theorem gaugeRecAct_foot {d : Dev} {x1 : Caller} {x2 : List Byte} : ChangesOnly [] d (gaugeRecAct d x1 x2).1 := by
  unfold gaugeRecAct
  try dsimp only
  repeat' first
    | intro _ | with_reducible exact .refl _ _ | with_reducible assumption | with_reducible apply ChangesOnly.ite
    | with_reducible apply ChangesOnly.foldl | (with_reducible apply ChangesOnly.step Dev.answer_foot; decide) | with_reducible exact .pair ‹_› ‹_›
    | split | dsimp only

theorem thermAct_foot {d : Dev} {x1 : Caller} {x2 : List Byte} : ChangesOnly [] d (thermAct d x1 x2).1 := by
  unfold thermAct
  try dsimp only
  repeat' first
    | intro _ | with_reducible exact .refl _ _ | with_reducible assumption | with_reducible apply ChangesOnly.ite
    | with_reducible apply ChangesOnly.foldl | (with_reducible apply ChangesOnly.step Dev.answer_foot; decide) | with_reducible exact .pair ‹_› ‹_›
    | split | dsimp only

theorem thermSetAct_foot {d : Dev} {x1 : Caller} {p : List Byte} : ChangesOnly [.therm, .slate] d (thermSetAct d x1 p).1 := by
  unfold thermSetAct
  try dsimp only
  repeat' first
    | intro _ | with_reducible exact .refl _ _ | with_reducible assumption | with_reducible apply ChangesOnly.ite
    | with_reducible apply ChangesOnly.foldl | (with_reducible apply ChangesOnly.step Dev.onTherm_foot; decide)
    | (with_reducible apply ChangesOnly.step Dev.recDue_foot; decide) | with_reducible exact .pair ‹_› ‹_› | split | dsimp only

theorem boardAct_foot {d : Dev} {x1 : Caller} {p : List Byte} : ChangesOnly [.therm, .slate] d (boardAct d x1 p).1 := by
  unfold boardAct
  try dsimp only
  repeat' first
    | intro _ | with_reducible exact .refl _ _ | with_reducible assumption | with_reducible apply ChangesOnly.ite
    | with_reducible apply ChangesOnly.foldl | (with_reducible apply ChangesOnly.step Dev.onTherm_foot; decide)
    | (with_reducible apply ChangesOnly.step Dev.recDue_foot; decide) | with_reducible exact .pair ‹_› ‹_› | split | dsimp only

theorem thermRecAct_foot {d : Dev} {x1 : Caller} {p : List Byte} : ChangesOnly [] d (thermRecAct d x1 p).1 := by
  unfold thermRecAct
  try dsimp only
  repeat' first
    | intro _ | with_reducible exact .refl _ _ | with_reducible assumption | with_reducible apply ChangesOnly.ite
    | with_reducible apply ChangesOnly.foldl | (with_reducible apply ChangesOnly.step Dev.answer_foot; decide) | with_reducible exact .pair ‹_› ‹_›
    | split | dsimp only

/-! ### Jcs3 -/

theorem logAct_foot {d : Dev} {x1 : Caller} {p : List Byte} : ChangesOnly [] d (logAct d x1 p).1 := by
  unfold logAct
  try dsimp only
  repeat' first
    | intro _ | with_reducible exact .refl _ _ | with_reducible assumption | with_reducible apply ChangesOnly.ite
    | with_reducible apply ChangesOnly.foldl | (with_reducible apply ChangesOnly.step Dev.answer_foot; decide) | with_reducible exact .pair ‹_› ‹_›
    | split | dsimp only

theorem ffAct_foot {d : Dev} {x1 : Caller} {p : List Byte} : ChangesOnly [] d (ffAct d x1 p).1 := by
  unfold ffAct
  try dsimp only
  repeat' first
    | intro _ | with_reducible exact .refl _ _ | with_reducible assumption | with_reducible apply ChangesOnly.ite
    | with_reducible apply ChangesOnly.foldl | (with_reducible apply ChangesOnly.step Dev.answer_foot; decide) | with_reducible exact .pair ‹_› ‹_›
    | split | dsimp only

theorem ackAct_foot {d : Dev} {x1 : Caller} {p : List Byte} : ChangesOnly [.flint, .dw] d (ackAct d x1 p).1 := by
  unfold ackAct
  try dsimp only
  repeat' first
    | intro _ | with_reducible exact .refl _ _ | with_reducible assumption | with_reducible apply ChangesOnly.ite
    | with_reducible apply ChangesOnly.foldl | (with_reducible apply ChangesOnly.step Dev.onFlint_foot; decide)
    | (with_reducible apply ChangesOnly.step Dev.onColl_foot; decide) | (with_reducible apply ChangesOnly.step Dev.fltShow_foot; decide)
    | with_reducible exact .pair ‹_› ‹_› | split | dsimp only

theorem injectAct_foot {d : Dev} {x1 : Caller} {p : List Byte} : ChangesOnly [.mem, .pkg, .expo, .sealing, .restore, .strata, .flash, .ctxs, .dram, .energy, .flint, .snap, .lat, .heads, .slate, .panel, .dw, .out, .freeN] d (injectAct d x1 p).1 := by
  unfold injectAct
  try dsimp only
  repeat' first
    | intro _ | with_reducible exact .refl _ _ | with_reducible assumption | with_reducible apply ChangesOnly.ite
    | with_reducible apply ChangesOnly.foldl | (with_reducible apply ChangesOnly.step Dev.react_foot; decide)
    | (with_reducible apply ChangesOnly.step Dev.flush_foot; decide) | (with_reducible apply ChangesOnly.step Dev.deliver_foot; decide)
    | with_reducible exact .pair ‹_› ‹_› | split | dsimp only

theorem holdTfAct_foot {d : Dev} {x1 : Caller} {p : List Byte} : ChangesOnly [.flint, .dw] d (holdTfAct d x1 p).1 := by
  unfold holdTfAct
  try dsimp only
  repeat' first
    | intro _ | with_reducible exact .refl _ _ | with_reducible assumption | with_reducible apply ChangesOnly.ite
    | with_reducible apply ChangesOnly.foldl | (with_reducible apply ChangesOnly.step Dev.onFlint_foot; decide)
    | (with_reducible apply ChangesOnly.step Dev.onColl_foot; decide) | (with_reducible apply ChangesOnly.step Dev.fltShow_foot; decide)
    | with_reducible exact .pair ‹_› ‹_› | split | dsimp only

theorem countsAct_foot {d : Dev} {x1 : Caller} {p : List Byte} : ChangesOnly [] d (countsAct d x1 p).1 := by
  unfold countsAct
  try dsimp only
  repeat' first
    | intro _ | with_reducible exact .refl _ _ | with_reducible assumption | with_reducible apply ChangesOnly.ite
    | with_reducible apply ChangesOnly.foldl | (with_reducible apply ChangesOnly.step Dev.answer_foot; decide) | with_reducible exact .pair ‹_› ‹_›
    | split | dsimp only

theorem snapAct_foot {d : Dev} {c : Caller} {x2 : List Byte} : ChangesOnly [.flint, .snap, .dw, .freeN] d (snapAct d c x2).1 := by
  unfold snapAct
  try dsimp only
  repeat' first
    | intro _ | with_reducible exact .refl _ _ | with_reducible assumption | with_reducible apply ChangesOnly.ite
    | with_reducible apply ChangesOnly.foldl | (with_reducible apply ChangesOnly.step Dev.onSnap_foot; decide)
    | (with_reducible apply ChangesOnly.step Dev.snapCapture_foot; decide) | with_reducible exact .pair ‹_› ‹_› | split | dsimp only

theorem schedAct_foot {d : Dev} {c : Caller} {p : List Byte} : ChangesOnly [.snap, .dw] d (schedAct d c p).1 := by
  unfold schedAct
  try dsimp only
  repeat' first
    | intro _ | with_reducible exact .refl _ _ | with_reducible assumption | with_reducible apply ChangesOnly.ite
    | with_reducible apply ChangesOnly.foldl | (with_reducible apply ChangesOnly.step Dev.onSnap_foot; decide)
    | (with_reducible apply ChangesOnly.step Dev.snapUpd_foot; decide) | with_reducible exact .pair ‹_› ‹_› | split | dsimp only

theorem latSnapAct_foot {d : Dev} {c : Caller} {p : List Byte} : ChangesOnly [.flint, .snap, .lat, .heads, .jcs, .dw, .out] d (latSnapAct d c p).1 := by
  unfold latSnapAct
  try dsimp only
  repeat' first
    | intro _ | with_reducible exact .refl _ _ | with_reducible assumption | with_reducible apply ChangesOnly.ite
    | with_reducible apply ChangesOnly.foldl | (with_reducible apply ChangesOnly.step Dev.onSnap_foot; decide)
    | (with_reducible apply ChangesOnly.step Dev.snapUpd_foot; decide) | (with_reducible apply ChangesOnly.step Dev.sendBroadcast_foot; decide)
    | (with_reducible apply ChangesOnly.step Dev.sendNode_foot; decide) | (with_reducible apply ChangesOnly.step Dev.snapReqEnd_foot; decide)
    | with_reducible exact .pair ‹_› ‹_› | split | dsimp only

theorem readSnapAct_foot {d : Dev} {x1 : Caller} {p : List Byte} : ChangesOnly [] d (readSnapAct d x1 p).1 := by
  unfold readSnapAct
  try dsimp only
  repeat' first
    | intro _ | with_reducible exact .refl _ _ | with_reducible assumption | with_reducible apply ChangesOnly.ite
    | with_reducible apply ChangesOnly.foldl | (with_reducible apply ChangesOnly.step Dev.answer_foot; decide) | with_reducible exact .pair ‹_› ‹_›
    | split | dsimp only

theorem relBankAct_foot {d : Dev} {x1 : Caller} {p : List Byte} : ChangesOnly [.snap, .dw] d (relBankAct d x1 p).1 := by
  unfold relBankAct
  try dsimp only
  repeat' first
    | intro _ | with_reducible exact .refl _ _ | with_reducible assumption | with_reducible apply ChangesOnly.ite
    | with_reducible apply ChangesOnly.foldl | (with_reducible apply ChangesOnly.step Dev.onSnap_foot; decide)
    | (with_reducible apply ChangesOnly.step Dev.snapUpd_foot; decide) | with_reducible exact .pair ‹_› ‹_› | split | dsimp only

theorem cancelAct_foot {d : Dev} {x1 : Caller} {p : List Byte} : ChangesOnly [.snap, .dw] d (cancelAct d x1 p).1 := by
  unfold cancelAct
  try dsimp only
  repeat' first
    | intro _ | with_reducible exact .refl _ _ | with_reducible assumption | with_reducible apply ChangesOnly.ite
    | with_reducible apply ChangesOnly.foldl | (with_reducible apply ChangesOnly.step Dev.onSnap_foot; decide)
    | (with_reducible apply ChangesOnly.step Dev.snapUpd_foot; decide) | with_reducible exact .pair ‹_› ‹_› | split | dsimp only

theorem timeAct_foot {d : Dev} {x1 : Caller} {x2 : List Byte} : ChangesOnly [] d (timeAct d x1 x2).1 := by
  unfold timeAct
  try dsimp only
  repeat' first
    | intro _ | with_reducible exact .refl _ _ | with_reducible assumption | with_reducible apply ChangesOnly.ite
    | with_reducible apply ChangesOnly.foldl | (with_reducible apply ChangesOnly.step Dev.answer_foot; decide) | with_reducible exact .pair ‹_› ‹_›
    | split | dsimp only

theorem offsetAct_foot {d : Dev} {x1 : Caller} {p : List Byte} : ChangesOnly [.ctxs, .qtz, .slate, .dw] d (offsetAct d x1 p).1 := by
  unfold offsetAct
  try dsimp only
  repeat' first
    | intro _ | with_reducible exact .refl _ _ | with_reducible assumption | with_reducible apply ChangesOnly.ite
    | with_reducible apply ChangesOnly.foldl | (with_reducible apply ChangesOnly.step Dev.onQtz_foot; decide)
    | (with_reducible apply ChangesOnly.step Dev.setOffset_foot; decide) | (with_reducible apply ChangesOnly.step Dev.qtzUpd_foot; decide)
    | with_reducible exact .pair ‹_› ‹_› | split | dsimp only

theorem timeOptAct_foot {d : Dev} {x1 : Caller} {p : List Byte} : ChangesOnly [.flint, .qtz, .slate, .dw] d (timeOptAct d x1 p).1 := by
  unfold timeOptAct
  try dsimp only
  repeat' first
    | intro _ | with_reducible exact .refl _ _ | with_reducible assumption | with_reducible apply ChangesOnly.ite
    | with_reducible apply ChangesOnly.foldl | (with_reducible apply ChangesOnly.step Dev.onQtz_foot; decide)
    | (with_reducible apply ChangesOnly.step Dev.uncSync_foot; decide) | (with_reducible apply ChangesOnly.step Dev.selfCandidate_foot; decide)
    | (with_reducible apply ChangesOnly.step Dev.snapUpd_foot; decide) | (with_reducible apply ChangesOnly.step Dev.qtzUpd_foot; decide)
    | (with_reducible apply ChangesOnly.step Dev.recDue_foot; decide) | with_reducible exact .pair ‹_› ‹_› | split | dsimp only

theorem getLatAct_foot {d : Dev} {x1 : Caller} {p : List Byte} : ChangesOnly [] d (getLatAct d x1 p).1 := by
  unfold getLatAct
  try dsimp only
  repeat' first
    | intro _ | with_reducible exact .refl _ _ | with_reducible assumption | with_reducible apply ChangesOnly.ite
    | with_reducible apply ChangesOnly.foldl | (with_reducible apply ChangesOnly.step Dev.answer_foot; decide) | with_reducible exact .pair ‹_› ‹_›
    | split | dsimp only

theorem setLinkAct_foot {d : Dev} {x1 : Caller} {p : List Byte} : ChangesOnly [.lat, .slate, .dw, .out] d (setLinkAct d x1 p).1 := by
  unfold setLinkAct
  try dsimp only
  repeat' first
    | intro _ | with_reducible exact .refl _ _ | with_reducible assumption | with_reducible apply ChangesOnly.ite
    | with_reducible apply ChangesOnly.foldl | (with_reducible apply ChangesOnly.step Dev.onLat_foot; decide)
    | (with_reducible apply ChangesOnly.step Dev.onLink_foot; decide) | (with_reducible apply ChangesOnly.step Dev.linkDisable_foot; decide)
    | (with_reducible apply ChangesOnly.step Dev.sendLsa_foot; decide) | (with_reducible apply ChangesOnly.step Dev.recDue_foot; decide)
    | (with_reducible apply ChangesOnly.step Dev.latShow_foot; decide) | with_reducible exact .pair ‹_› ‹_› | split | dsimp only

theorem grantAct_foot {d : Dev} {x1 : Caller} {p : List Byte} : ChangesOnly [.lat, .slate] d (grantAct d x1 p).1 := by
  unfold grantAct
  try dsimp only
  repeat' first
    | intro _ | with_reducible exact .refl _ _ | with_reducible assumption | with_reducible apply ChangesOnly.ite
    | with_reducible apply ChangesOnly.foldl | (with_reducible apply ChangesOnly.step Dev.onLat_foot; decide)
    | (with_reducible apply ChangesOnly.step Dev.recDue_foot; decide) | with_reducible exact .pair ‹_› ‹_› | split | dsimp only

theorem Dev.openStream_foot {d : Dev} {new : Stream} {limit : Nat} : ChangesOnly [.flint, .lat, .out] d (Dev.openStream d new limit).1 := by
  unfold Dev.openStream
  try dsimp only
  repeat' first
    | intro _ | with_reducible exact .refl _ _ | with_reducible assumption | with_reducible apply ChangesOnly.ite
    | with_reducible apply ChangesOnly.foldl | (with_reducible apply ChangesOnly.step Dev.onLat_foot; decide)
    | (with_reducible apply ChangesOnly.step Dev.sendMsg_foot; decide) | with_reducible exact .pair ‹_› ‹_› | split | dsimp only

theorem replicaAct_foot {d : Dev} {x1 : Caller} {p : List Byte} : ChangesOnly [.flint, .lat, .out] d (replicaAct d x1 p).1 := by
  unfold replicaAct
  try dsimp only
  repeat' first
    | intro _ | with_reducible exact .refl _ _ | with_reducible assumption | with_reducible apply ChangesOnly.ite
    | with_reducible apply ChangesOnly.foldl | (with_reducible apply ChangesOnly.step Dev.openStream_foot; decide)
    | with_reducible exact .pair ‹_› ‹_› | split | dsimp only

theorem ctlReplicaAct_foot {d : Dev} {x1 : Caller} {p : List Byte} : ChangesOnly [.flint, .lat, .out] d (ctlReplicaAct d x1 p).1 := by
  unfold ctlReplicaAct
  try dsimp only
  repeat' first
    | intro _ | with_reducible exact .refl _ _ | with_reducible assumption | with_reducible apply ChangesOnly.ite
    | with_reducible apply ChangesOnly.foldl | (with_reducible apply ChangesOnly.step Dev.stopStream_foot; decide)
    | (with_reducible apply ChangesOnly.step Dev.onStream_foot; decide) | (with_reducible apply ChangesOnly.step Dev.startCopy_foot; decide)
    | (with_reducible apply ChangesOnly.step Dev.raise_foot; decide) | with_reducible exact .pair ‹_› ‹_› | split | dsimp only

theorem streamAct_foot {d : Dev} {x1 : Caller} {p : List Byte} : ChangesOnly [] d (streamAct d x1 p).1 := by
  unfold streamAct
  try dsimp only
  repeat' first
    | intro _ | with_reducible exact .refl _ _ | with_reducible assumption | with_reducible apply ChangesOnly.ite
    | with_reducible apply ChangesOnly.foldl | (with_reducible apply ChangesOnly.step Dev.answer_foot; decide) | with_reducible exact .pair ‹_› ‹_›
    | split | dsimp only

theorem migrateAct_foot {d : Dev} {x1 : Caller} {p : List Byte} : ChangesOnly [.flint, .lat, .out] d (migrateAct d x1 p).1 := by
  unfold migrateAct
  try dsimp only
  repeat' first
    | intro _ | with_reducible exact .refl _ _ | with_reducible assumption | with_reducible apply ChangesOnly.ite
    | with_reducible apply ChangesOnly.foldl | (with_reducible apply ChangesOnly.step Dev.openStream_foot; decide)
    | with_reducible exact .pair ‹_› ‹_› | split | dsimp only

theorem ctlMigAct_foot {d : Dev} {x1 : Caller} {p : List Byte} : ChangesOnly [.mem, .expo, .restore, .flash, .ctxs, .dram, .flint, .lat, .heads, .jcs, .mirror, .dw, .out] d (ctlMigAct d x1 p).1 := by
  unfold ctlMigAct
  try dsimp only
  repeat' first
    | intro _ | with_reducible exact .refl _ _ | with_reducible assumption | with_reducible apply ChangesOnly.ite
    | with_reducible apply ChangesOnly.foldl | (with_reducible apply ChangesOnly.step Dev.abortMigration_foot; decide)
    | (with_reducible apply ChangesOnly.step Dev.onStream_foot; decide) | (with_reducible apply ChangesOnly.step Dev.switchCheck_foot; decide)
    | with_reducible exact .pair ‹_› ‹_› | split | dsimp only

theorem ckptAct_foot {d : Dev} {c : Caller} {p : List Byte} : ChangesOnly [.mem, .expo, .restore, .flash, .ctxs, .dram, .flint, .lat, .heads, .jcs, .mirror, .dw, .out] d (ckptAct d c p).1 := by
  unfold ckptAct
  try dsimp only
  repeat' first
    | intro _ | with_reducible exact .refl _ _ | with_reducible assumption | with_reducible apply ChangesOnly.ite
    | with_reducible apply ChangesOnly.foldl | (with_reducible apply ChangesOnly.step Dev.onLat_foot; decide)
    | (with_reducible apply ChangesOnly.step Dev.complete_foot; decide) | (with_reducible apply ChangesOnly.step Dev.ckptRequest_foot; decide)
    | (with_reducible apply ChangesOnly.step Dev.sendMsg_foot; decide) | with_reducible exact .pair ‹_› ‹_› | split | dsimp only

theorem ckptResAct_foot {d : Dev} {c : Caller} {p : List Byte} : ChangesOnly [.mem, .expo, .restore, .flash, .ctxs, .dram, .flint, .lat, .heads, .jcs, .mirror, .dw, .out] d (ckptResAct d c p).1 := by
  unfold ckptResAct
  try dsimp only
  repeat' first
    | intro _ | with_reducible exact .refl _ _ | with_reducible assumption | with_reducible apply ChangesOnly.ite
    | with_reducible apply ChangesOnly.foldl | (with_reducible apply ChangesOnly.step Dev.answer_foot; decide)
    | (with_reducible apply ChangesOnly.step Dev.complete_foot; decide) | with_reducible exact .pair ‹_› ‹_› | split | dsimp only

/-! ### Jcs4 -/

theorem ranksAct_foot {d : Dev} {x1 : Caller} {p : List Byte} : ChangesOnly [] d (ranksAct d x1 p).1 := by
  unfold ranksAct
  try dsimp only
  repeat' first
    | intro _ | with_reducible exact .refl _ _ | with_reducible assumption | with_reducible apply ChangesOnly.ite
    | with_reducible apply ChangesOnly.foldl | (with_reducible apply ChangesOnly.step Dev.answer_foot; decide) | with_reducible exact .pair ‹_› ‹_›
    | split | dsimp only

theorem rowFaultsAct_foot {d : Dev} {x1 : Caller} {p : List Byte} : ChangesOnly [] d (rowFaultsAct d x1 p).1 := by
  unfold rowFaultsAct
  try dsimp only
  repeat' first
    | intro _ | with_reducible exact .refl _ _ | with_reducible assumption | with_reducible apply ChangesOnly.ite
    | with_reducible apply ChangesOnly.foldl | (with_reducible apply ChangesOnly.step Dev.answer_foot; decide) | with_reducible exact .pair ‹_› ‹_›
    | split | dsimp only

theorem retireAct_foot {d : Dev} {x1 : Caller} {p : List Byte} : ChangesOnly [.dram, .flint, .slate, .dw] d (retireAct d x1 p).1 := by
  unfold retireAct
  try dsimp only
  repeat' first
    | intro _ | with_reducible exact .refl _ _ | with_reducible assumption | with_reducible apply ChangesOnly.ite
    | with_reducible apply ChangesOnly.foldl | (with_reducible apply ChangesOnly.step Dev.retire_foot; decide)
    | (with_reducible apply ChangesOnly.step Dev.migrateTo_foot; decide) | (with_reducible apply ChangesOnly.step Dev.steerNow_foot; decide)
    | with_reducible exact .pair ‹_› ‹_› | split | dsimp only

theorem returnAct_foot {d : Dev} {x1 : Caller} {p : List Byte} : ChangesOnly [.dram, .slate] d (returnAct d x1 p).1 := by
  unfold returnAct
  try dsimp only
  repeat' first
    | intro _ | with_reducible exact .refl _ _ | with_reducible assumption | with_reducible apply ChangesOnly.ite
    | with_reducible apply ChangesOnly.foldl | (with_reducible apply ChangesOnly.step Dev.returnBegin_foot; decide)
    | with_reducible exact .pair ‹_› ‹_› | split | dsimp only

theorem dramCfgAct_foot {d : Dev} {x1 : Caller} {p : List Byte} : ChangesOnly [.dram, .slate, .dw] d (dramCfgAct d x1 p).1 := by
  unfold dramCfgAct
  try dsimp only
  repeat' first
    | intro _ | with_reducible exact .refl _ _ | with_reducible assumption | with_reducible apply ChangesOnly.ite
    | with_reducible apply ChangesOnly.foldl | (with_reducible apply ChangesOnly.step Dev.onDram_foot; decide)
    | (with_reducible apply ChangesOnly.step Dev.recDue_foot; decide) | (with_reducible apply ChangesOnly.step Dev.dramCfgUpd_foot; decide)
    | with_reducible exact .pair ‹_› ‹_› | split | dsimp only

theorem strataAct_foot {d : Dev} {x1 : Caller} {x2 : List Byte} : ChangesOnly [] d (strataAct d x1 x2).1 := by
  unfold strataAct
  try dsimp only
  repeat' first
    | intro _ | with_reducible exact .refl _ _ | with_reducible assumption | with_reducible apply ChangesOnly.ite
    | with_reducible apply ChangesOnly.foldl | (with_reducible apply ChangesOnly.step Dev.answer_foot; decide) | with_reducible exact .pair ‹_› ‹_›
    | split | dsimp only

theorem lifeAct_foot {d : Dev} {x1 : Caller} {p : List Byte} : ChangesOnly [.strata, .slate] d (lifeAct d x1 p).1 := by
  unfold lifeAct
  try dsimp only
  repeat' first
    | intro _ | with_reducible exact .refl _ _ | with_reducible assumption | with_reducible apply ChangesOnly.ite
    | with_reducible apply ChangesOnly.foldl | (with_reducible apply ChangesOnly.step Dev.onStrata_foot; decide)
    | (with_reducible apply ChangesOnly.step Dev.recDue_foot; decide) | with_reducible exact .pair ‹_› ‹_› | split | dsimp only

theorem strataListAct_foot {d : Dev} {x1 : Caller} {p : List Byte} : ChangesOnly [] d (strataListAct d x1 p).1 := by
  unfold strataListAct
  try dsimp only
  repeat' first
    | intro _ | with_reducible exact .refl _ _ | with_reducible assumption | with_reducible apply ChangesOnly.ite
    | with_reducible apply ChangesOnly.foldl | (with_reducible apply ChangesOnly.step Dev.answer_foot; decide) | with_reducible exact .pair ‹_› ‹_›
    | split | dsimp only

theorem strataRelAct_foot {d : Dev} {x1 : Caller} {p : List Byte} : ChangesOnly [.expo, .strata, .flash] d (strataRelAct d x1 p).1 := by
  unfold strataRelAct
  try dsimp only
  repeat' first
    | intro _ | with_reducible exact .refl _ _ | with_reducible assumption | with_reducible apply ChangesOnly.ite
    | with_reducible apply ChangesOnly.foldl | (with_reducible apply ChangesOnly.step Dev.releaseStratum_foot; decide)
    | with_reducible exact .pair ‹_› ‹_› | split | dsimp only

theorem damageAct_foot {d : Dev} {x1 : Caller} {p : List Byte} : ChangesOnly [] d (damageAct d x1 p).1 := by
  unfold damageAct
  try dsimp only
  repeat' first
    | intro _ | with_reducible exact .refl _ _ | with_reducible assumption | with_reducible apply ChangesOnly.ite
    | with_reducible apply ChangesOnly.foldl | with_reducible exact .pair ‹_› ‹_› | split | dsimp only

theorem acquireAct_foot {d : Dev} {c : Caller} {p : List Byte} : ChangesOnly [.jcs] d (acquireAct d c p).1 := by
  unfold acquireAct
  try dsimp only
  repeat' first
    | intro _ | with_reducible exact .refl _ _ | with_reducible assumption | with_reducible apply ChangesOnly.ite
    | with_reducible apply ChangesOnly.foldl | (with_reducible apply ChangesOnly.step Dev.onJcs_foot; decide) | with_reducible exact .pair ‹_› ‹_›
    | split | dsimp only

theorem Dev.giveUp_foot {d : Dev} {res : Nat} : ChangesOnly [.flint, .qtz, .heads, .jcs, .slate, .upd, .mirror, .out, .freeN] d (Dev.giveUp d res) := by
  unfold Dev.giveUp
  try dsimp only
  repeat' first
    | intro _ | with_reducible exact .refl _ _ | with_reducible assumption | with_reducible apply ChangesOnly.ite
    | with_reducible apply ChangesOnly.foldl | (with_reducible apply ChangesOnly.step Dev.endLease_foot; decide)
    | (with_reducible apply ChangesOnly.step Dev.updRelease_foot; decide) | with_reducible exact .pair ‹_› ‹_› | split | dsimp only

theorem leaseRelAct_foot {d : Dev} {c : Caller} {p : List Byte} : ChangesOnly [.flint, .qtz, .heads, .jcs, .slate, .upd, .mirror, .out, .freeN] d (leaseRelAct d c p).1 := by
  unfold leaseRelAct
  try dsimp only
  repeat' first
    | intro _ | with_reducible exact .refl _ _ | with_reducible assumption | with_reducible apply ChangesOnly.ite
    | with_reducible apply ChangesOnly.foldl | (with_reducible apply ChangesOnly.step Dev.giveUp_foot; decide) | with_reducible exact .pair ‹_› ‹_›
    | split | dsimp only

theorem leaseQueryAct_foot {d : Dev} {x1 : Caller} {p : List Byte} : ChangesOnly [] d (leaseQueryAct d x1 p).1 := by
  unfold leaseQueryAct
  try dsimp only
  repeat' first
    | intro _ | with_reducible exact .refl _ _ | with_reducible assumption | with_reducible apply ChangesOnly.ite
    | with_reducible apply ChangesOnly.foldl | (with_reducible apply ChangesOnly.step Dev.answer_foot; decide) | with_reducible exact .pair ‹_› ‹_›
    | split | dsimp only

theorem breakAct_foot {d : Dev} {x1 : Caller} {p : List Byte} : ChangesOnly [.flint, .qtz, .heads, .jcs, .slate, .upd, .mirror, .out, .freeN] d (breakAct d x1 p).1 := by
  unfold breakAct
  try dsimp only
  repeat' first
    | intro _ | with_reducible exact .refl _ _ | with_reducible assumption | with_reducible apply ChangesOnly.ite
    | with_reducible apply ChangesOnly.foldl | (with_reducible apply ChangesOnly.step Dev.giveUp_foot; decide) | with_reducible exact .pair ‹_› ‹_›
    | split | dsimp only

theorem restoreAct_foot {d : Dev} {x1 : Caller} {x2 : List Byte} : ChangesOnly [] d (restoreAct d x1 x2).1 := by
  unfold restoreAct
  try dsimp only
  repeat' first
    | intro _ | with_reducible exact .refl _ _ | with_reducible assumption | with_reducible apply ChangesOnly.ite
    | with_reducible apply ChangesOnly.foldl | (with_reducible apply ChangesOnly.step Dev.answer_foot; decide) | with_reducible exact .pair ‹_› ‹_›
    | split | dsimp only

theorem poisonAct_foot {d : Dev} {c : Caller} {p : List Byte} : ChangesOnly [] d (poisonAct d c p).1 := by
  unfold poisonAct
  try dsimp only
  repeat' first
    | intro _ | with_reducible exact .refl _ _ | with_reducible assumption | with_reducible apply ChangesOnly.ite
    | with_reducible apply ChangesOnly.foldl | (with_reducible apply ChangesOnly.step Dev.answer_foot; decide) | with_reducible exact .pair ‹_› ‹_›
    | split | dsimp only

theorem sealRecAct_foot {d : Dev} {x1 : Caller} {p : List Byte} : ChangesOnly [] d (sealRecAct d x1 p).1 := by
  unfold sealRecAct
  try dsimp only
  repeat' first
    | intro _ | with_reducible exact .refl _ _ | with_reducible assumption | with_reducible apply ChangesOnly.ite
    | with_reducible apply ChangesOnly.foldl | (with_reducible apply ChangesOnly.step Dev.answer_foot; decide) | with_reducible exact .pair ‹_› ‹_›
    | split | dsimp only

theorem updStatAct_foot {d : Dev} {x1 : Caller} {x2 : List Byte} : ChangesOnly [] d (updStatAct d x1 x2).1 := by
  unfold updStatAct
  try dsimp only
  repeat' first
    | intro _ | with_reducible exact .refl _ _ | with_reducible assumption | with_reducible apply ChangesOnly.ite
    | with_reducible apply ChangesOnly.foldl | (with_reducible apply ChangesOnly.step Dev.answer_foot; decide) | with_reducible exact .pair ‹_› ‹_›
    | split | dsimp only

theorem updPolAct_foot {d : Dev} {x1 : Caller} {p : List Byte} : ChangesOnly [.slate, .upd] d (updPolAct d x1 p).1 := by
  unfold updPolAct
  try dsimp only
  repeat' first
    | intro _ | with_reducible exact .refl _ _ | with_reducible assumption | with_reducible apply ChangesOnly.ite
    | with_reducible apply ChangesOnly.foldl | (with_reducible apply ChangesOnly.step Dev.onUpd_foot; decide)
    | (with_reducible apply ChangesOnly.step Dev.recDue_foot; decide) | with_reducible exact .pair ‹_› ‹_› | split | dsimp only

theorem confirmAct_foot {d : Dev} {x1 : Caller} {x2 : List Byte} : ChangesOnly [.upd] d (confirmAct d x1 x2).1 := by
  unfold confirmAct
  try dsimp only
  repeat' first
    | intro _ | with_reducible exact .refl _ _ | with_reducible assumption | with_reducible apply ChangesOnly.ite
    | with_reducible apply ChangesOnly.foldl | (with_reducible apply ChangesOnly.step Dev.onUpd_foot; decide) | with_reducible exact .pair ‹_› ‹_›
    | split | dsimp only

theorem bedrockAct_foot {d : Dev} {c : Caller} {x2 : List Byte} : ChangesOnly [.mem, .pkg, .expo, .sealing, .restore, .flash, .ctxs, .dram, .energy, .therm, .flint, .qtz, .lat, .heads, .jcs, .slate, .upd, .panel, .dw, .out, .freeN] d (bedrockAct d c x2).1 := by
  unfold bedrockAct
  try dsimp only
  repeat' first
    | intro _ | with_reducible exact .refl _ _ | with_reducible assumption | with_reducible apply ChangesOnly.ite
    | with_reducible apply ChangesOnly.foldl | (with_reducible apply ChangesOnly.step Dev.onRecs_foot; decide)
    | (with_reducible apply ChangesOnly.step Dev.respond_foot; decide) | (with_reducible apply ChangesOnly.step Dev.trigger_foot; decide)
    | with_reducible exact .pair ‹_› ‹_› | split | dsimp only

/-! ### Cxl -/

theorem Dev.cxlDo_foot {S : List Part} {d0 d : Dev} {h op : Nat} {early : Bool} {f : Dev → Dev} (hS : ∀ p ∈ ([.heads, .out] : List Part), p ∈ S)
    (h0 : ChangesOnly S d0 d) (hf : ChangesOnly S d0 (f d)) : ChangesOnly S d0 (d.cxlDo h op early f) := by
  unfold Dev.cxlDo
  try dsimp only
  repeat' first
    | intro _ | with_reducible exact .refl _ _ | with_reducible assumption | with_reducible apply hf | with_reducible apply ChangesOnly.ite
    | with_reducible apply ChangesOnly.foldl
    | (with_reducible apply ChangesOnly.step Dev.cxlRespond_foot; exact fun p hp => hS p (by revert p hp; decide))
    | with_reducible exact .pair ‹_› ‹_› | split | dsimp only

theorem Dev.cxlUnsup_foot {d : Dev} {h op : Nat} : ChangesOnly [.heads, .out] d (Dev.cxlUnsup d h op) := by
  unfold Dev.cxlUnsup
  try dsimp only
  repeat' first
    | intro _ | with_reducible exact .refl _ _ | with_reducible assumption | with_reducible apply ChangesOnly.ite
    | with_reducible apply ChangesOnly.foldl | (with_reducible apply ChangesOnly.step Dev.cxlRespond_foot; decide)
    | with_reducible exact .pair ‹_› ‹_› | split | dsimp only

theorem Dev.poisonCmd_foot {d : Dev} {h op dpa cmd : Nat} {data : BitVec 512} : ChangesOnly [.mem, .expo, .restore, .ctxs, .dram, .flint, .lat, .heads, .dw, .out] d (Dev.poisonCmd d h op dpa cmd data) := by
  unfold Dev.poisonCmd
  try dsimp only
  repeat' first
    | intro _ | with_reducible exact .refl _ _ | with_reducible assumption | with_reducible apply ChangesOnly.ite
    | with_reducible apply ChangesOnly.foldl | (with_reducible apply ChangesOnly.step Dev.onExpo_foot; decide)
    | (with_reducible apply ChangesOnly.step Dev.cxlRespond_foot; decide) | (with_reducible apply ChangesOnly.step Dev.admitReq_foot; decide)
    | with_reducible exact .pair ‹_› ‹_› | split | dsimp only

theorem Dev.updConflict_foot {d : Dev} {h op : Nat} : ChangesOnly [.heads, .out] d (Dev.updConflict d h op) := by
  unfold Dev.updConflict
  try dsimp only
  repeat' first
    | intro _ | with_reducible exact .refl _ _ | with_reducible assumption | with_reducible apply ChangesOnly.ite
    | with_reducible apply ChangesOnly.foldl | (with_reducible apply ChangesOnly.step Dev.cxlRespond_foot; decide)
    | with_reducible exact .pair ‹_› ‹_› | split | dsimp only

theorem Dev.cxlChunk_foot {d : Dev} {h off : Nat} {data : List Byte} {last : Bool} : ChangesOnly [.heads, .upd, .out] d (Dev.cxlChunk d h off data last) := by
  unfold Dev.cxlChunk
  try dsimp only
  repeat' first
    | intro _ | with_reducible exact .refl _ _ | with_reducible assumption | with_reducible apply ChangesOnly.ite
    | with_reducible apply ChangesOnly.foldl | (with_reducible apply ChangesOnly.step Dev.onUpd_foot; decide)
    | (with_reducible apply ChangesOnly.step Dev.cxlRespond_foot; decide) | (with_reducible apply ChangesOnly.step Dev.xferAck_foot; decide)
    | (with_reducible apply ChangesOnly.step Dev.xferChunk_foot; decide) | with_reducible exact .pair ‹_› ‹_› | split | dsimp only

theorem Dev.cxlFirst_foot {d : Dev} {h slot : Nat} {data : List Byte} {dig : Nat} {facts : BitVec 4} {last : Bool} : ChangesOnly [.flint, .qtz, .heads, .jcs, .slate, .upd, .mirror, .out, .freeN] d (Dev.cxlFirst d h slot data dig facts last) := by
  unfold Dev.cxlFirst
  try dsimp only
  repeat' first
    | intro _ | with_reducible exact .refl _ _ | with_reducible assumption | with_reducible apply ChangesOnly.ite
    | with_reducible apply ChangesOnly.foldl | (with_reducible apply ChangesOnly.step Dev.onUpd_foot; decide)
    | (with_reducible apply ChangesOnly.step Dev.imageReject_foot; decide) | (with_reducible apply ChangesOnly.step Dev.cxlRespond_foot; decide)
    | (with_reducible apply ChangesOnly.step Dev.updOwn_foot; decide) | (with_reducible apply ChangesOnly.step Dev.xferHeader_foot; decide)
    | (with_reducible apply ChangesOnly.step Dev.cxlChunk_foot; decide) | with_reducible exact .pair ‹_› ‹_› | split | dsimp only

theorem Dev.dcTake_foot {d : Dev} {h : Nat} {gs : List Nat} {f : DcOffer → Bool} : ChangesOnly [.expo, .flash, .ctxs, .heads] d (Dev.dcTake d h gs f) := by
  unfold Dev.dcTake
  try dsimp only
  repeat' first
    | intro _ | with_reducible exact .refl _ _ | with_reducible assumption | with_reducible apply ChangesOnly.ite
    | with_reducible apply ChangesOnly.foldl | (with_reducible apply ChangesOnly.step Dev.onHead_foot; decide)
    | (with_reducible apply ChangesOnly.step Dev.dcSettle_foot; decide) | with_reducible exact .pair ‹_› ‹_› | split | dsimp only

/-! ### Commands -/

/-- Every JCS command's effect, by opcode. -/
theorem jcsRow_foot {op : Nat} {d : Dev} {c : Caller} {p : List Byte} :
    ChangesOnly [.mem, .pkg, .expo, .sealing, .restore, .strata, .flash, .ctxs, .dram, .energy, .therm, .flint, .qtz, .snap, .lat, .heads, .jcs, .slate, .upd, .panel, .mirror, .dw, .out, .freeN] d ((jcsRow op).2 d c p).1 := by
  unfold jcsRow
  split
  · show ChangesOnly _ d (capAct d c p).1
    with_reducible apply ChangesOnly.mono capAct_foot
    decide
  · show ChangesOnly _ d (identAct d c p).1
    with_reducible apply ChangesOnly.mono identAct_foot
    decide
  · show ChangesOnly _ d (dwAct d c p).1
    with_reducible apply ChangesOnly.mono dwAct_foot
    decide
  · show ChangesOnly _ d (bgStatAct d c p).1
    with_reducible apply ChangesOnly.mono bgStatAct_foot
    decide
  · show ChangesOnly _ d (createAct d c p).1
    with_reducible apply ChangesOnly.mono createAct_foot
    decide
  · show ChangesOnly _ d (assignAct d c p).1
    with_reducible apply ChangesOnly.mono assignAct_foot
    decide
  · show ChangesOnly _ d (releaseAct d c p).1
    with_reducible apply ChangesOnly.mono releaseAct_foot
    decide
  · show ChangesOnly _ d (classAct d c p).1
    with_reducible apply ChangesOnly.mono classAct_foot
    decide
  · show ChangesOnly _ d (ownerAct d c p).1
    with_reducible apply ChangesOnly.mono ownerAct_foot
    decide
  · show ChangesOnly _ d (disableAct d c p).1
    with_reducible apply ChangesOnly.mono disableAct_foot
    decide
  · show ChangesOnly _ d (enableAct d c p).1
    with_reducible apply ChangesOnly.mono enableAct_foot
    decide
  · show ChangesOnly _ d (sanitizeAct d c p).1
    with_reducible apply ChangesOnly.mono sanitizeAct_foot
    decide
  · show ChangesOnly _ d (getCtxAct d c p).1
    with_reducible apply ChangesOnly.mono getCtxAct_foot
    decide
  · show ChangesOnly _ d (retainAct d c p).1
    with_reducible apply ChangesOnly.mono retainAct_foot
    decide
  · show ChangesOnly _ d (meterAct d c p).1
    with_reducible apply ChangesOnly.mono meterAct_foot
    decide
  · show ChangesOnly _ d (listCtxAct d c p).1
    with_reducible apply ChangesOnly.mono listCtxAct_foot
    decide
  · show ChangesOnly _ d (ringAct d c p).1
    with_reducible apply ChangesOnly.mono ringAct_foot
    decide
  · show ChangesOnly _ d (ringOffAct d c p).1
    with_reducible apply ChangesOnly.mono ringOffAct_foot
    decide
  · show ChangesOnly _ d (ringIntAct d c p).1
    with_reducible apply ChangesOnly.mono ringIntAct_foot
    decide
  · show ChangesOnly _ d (getRingAct d c p).1
    with_reducible apply ChangesOnly.mono getRingAct_foot
    decide
  · show ChangesOnly _ d (expoAct d c p).1
    with_reducible apply ChangesOnly.mono expoAct_foot
    decide
  · show ChangesOnly _ d (expoPolicyAct d c p).1
    with_reducible apply ChangesOnly.mono expoPolicyAct_foot
    decide
  · show ChangesOnly _ d (getPolicyAct d c p).1
    with_reducible apply ChangesOnly.mono getPolicyAct_foot
    decide
  · show ChangesOnly _ d (lapseAct d c p).1
    with_reducible apply ChangesOnly.mono lapseAct_foot
    decide
  · show ChangesOnly _ d (gaugeAct d c p).1
    with_reducible apply ChangesOnly.mono gaugeAct_foot
    decide
  · show ChangesOnly _ d (relReqAct d c p).1
    with_reducible apply ChangesOnly.mono relReqAct_foot
    decide
  · show ChangesOnly _ d (holdAct d c p).1
    with_reducible apply ChangesOnly.mono holdAct_foot
    decide
  · show ChangesOnly _ d (capTestAct d c p).1
    with_reducible apply ChangesOnly.mono capTestAct_foot
    decide
  · show ChangesOnly _ d (testSealAct d c p).1
    with_reducible apply ChangesOnly.mono testSealAct_foot
    decide
  · show ChangesOnly _ d (enPolicyAct d c p).1
    with_reducible apply ChangesOnly.mono enPolicyAct_foot
    decide
  · show ChangesOnly _ d (bayParAct d c p).1
    with_reducible apply ChangesOnly.mono bayParAct_foot
    decide
  · show ChangesOnly _ d (bridgeParAct d c p).1
    with_reducible apply ChangesOnly.mono bridgeParAct_foot
    decide
  · show ChangesOnly _ d (chemAct d c p).1
    with_reducible apply ChangesOnly.mono chemAct_foot
    decide
  · show ChangesOnly _ d (gaugeRecAct d c p).1
    with_reducible apply ChangesOnly.mono gaugeRecAct_foot
    decide
  · show ChangesOnly _ d (thermAct d c p).1
    with_reducible apply ChangesOnly.mono thermAct_foot
    decide
  · show ChangesOnly _ d (thermSetAct d c p).1
    with_reducible apply ChangesOnly.mono thermSetAct_foot
    decide
  · show ChangesOnly _ d (boardAct d c p).1
    with_reducible apply ChangesOnly.mono boardAct_foot
    decide
  · show ChangesOnly _ d (thermRecAct d c p).1
    with_reducible apply ChangesOnly.mono thermRecAct_foot
    decide
  · show ChangesOnly _ d (logAct d c p).1
    with_reducible apply ChangesOnly.mono logAct_foot
    decide
  · show ChangesOnly _ d (ffAct d c p).1
    with_reducible apply ChangesOnly.mono ffAct_foot
    decide
  · show ChangesOnly _ d (ackAct d c p).1
    with_reducible apply ChangesOnly.mono ackAct_foot
    decide
  · show ChangesOnly _ d (injectAct d c p).1
    with_reducible apply ChangesOnly.mono injectAct_foot
    decide
  · show ChangesOnly _ d (holdTfAct d c p).1
    with_reducible apply ChangesOnly.mono holdTfAct_foot
    decide
  · show ChangesOnly _ d (countsAct d c p).1
    with_reducible apply ChangesOnly.mono countsAct_foot
    decide
  · show ChangesOnly _ d (snapAct d c p).1
    with_reducible apply ChangesOnly.mono snapAct_foot
    decide
  · show ChangesOnly _ d (schedAct d c p).1
    with_reducible apply ChangesOnly.mono schedAct_foot
    decide
  · show ChangesOnly _ d (latSnapAct d c p).1
    with_reducible apply ChangesOnly.mono latSnapAct_foot
    decide
  · show ChangesOnly _ d (readSnapAct d c p).1
    with_reducible apply ChangesOnly.mono readSnapAct_foot
    decide
  · show ChangesOnly _ d (relBankAct d c p).1
    with_reducible apply ChangesOnly.mono relBankAct_foot
    decide
  · show ChangesOnly _ d (cancelAct d c p).1
    with_reducible apply ChangesOnly.mono cancelAct_foot
    decide
  · show ChangesOnly _ d (timeAct d c p).1
    with_reducible apply ChangesOnly.mono timeAct_foot
    decide
  · show ChangesOnly _ d (offsetAct d c p).1
    with_reducible apply ChangesOnly.mono offsetAct_foot
    decide
  · show ChangesOnly _ d (timeOptAct d c p).1
    with_reducible apply ChangesOnly.mono timeOptAct_foot
    decide
  · show ChangesOnly _ d (getLatAct d c p).1
    with_reducible apply ChangesOnly.mono getLatAct_foot
    decide
  · show ChangesOnly _ d (setLinkAct d c p).1
    with_reducible apply ChangesOnly.mono setLinkAct_foot
    decide
  · show ChangesOnly _ d (grantAct d c p).1
    with_reducible apply ChangesOnly.mono grantAct_foot
    decide
  · show ChangesOnly _ d (replicaAct d c p).1
    with_reducible apply ChangesOnly.mono replicaAct_foot
    decide
  · show ChangesOnly _ d (ctlReplicaAct d c p).1
    with_reducible apply ChangesOnly.mono ctlReplicaAct_foot
    decide
  · show ChangesOnly _ d (streamAct d c p).1
    with_reducible apply ChangesOnly.mono streamAct_foot
    decide
  · show ChangesOnly _ d (migrateAct d c p).1
    with_reducible apply ChangesOnly.mono migrateAct_foot
    decide
  · show ChangesOnly _ d (ctlMigAct d c p).1
    with_reducible apply ChangesOnly.mono ctlMigAct_foot
    decide
  · show ChangesOnly _ d (ckptAct d c p).1
    with_reducible apply ChangesOnly.mono ckptAct_foot
    decide
  · show ChangesOnly _ d (ckptResAct d c p).1
    with_reducible apply ChangesOnly.mono ckptResAct_foot
    decide
  · show ChangesOnly _ d (ranksAct d c p).1
    with_reducible apply ChangesOnly.mono ranksAct_foot
    decide
  · show ChangesOnly _ d (rowFaultsAct d c p).1
    with_reducible apply ChangesOnly.mono rowFaultsAct_foot
    decide
  · show ChangesOnly _ d (retireAct d c p).1
    with_reducible apply ChangesOnly.mono retireAct_foot
    decide
  · show ChangesOnly _ d (returnAct d c p).1
    with_reducible apply ChangesOnly.mono returnAct_foot
    decide
  · show ChangesOnly _ d (dramCfgAct d c p).1
    with_reducible apply ChangesOnly.mono dramCfgAct_foot
    decide
  · show ChangesOnly _ d (strataAct d c p).1
    with_reducible apply ChangesOnly.mono strataAct_foot
    decide
  · show ChangesOnly _ d (lifeAct d c p).1
    with_reducible apply ChangesOnly.mono lifeAct_foot
    decide
  · show ChangesOnly _ d (strataListAct d c p).1
    with_reducible apply ChangesOnly.mono strataListAct_foot
    decide
  · show ChangesOnly _ d (strataRelAct d c p).1
    with_reducible apply ChangesOnly.mono strataRelAct_foot
    decide
  · show ChangesOnly _ d (damageAct d c p).1
    with_reducible apply ChangesOnly.mono damageAct_foot
    decide
  · show ChangesOnly _ d (acquireAct d c p).1
    with_reducible apply ChangesOnly.mono acquireAct_foot
    decide
  · show ChangesOnly _ d (leaseRelAct d c p).1
    with_reducible apply ChangesOnly.mono leaseRelAct_foot
    decide
  · show ChangesOnly _ d (leaseQueryAct d c p).1
    with_reducible apply ChangesOnly.mono leaseQueryAct_foot
    decide
  · show ChangesOnly _ d (breakAct d c p).1
    with_reducible apply ChangesOnly.mono breakAct_foot
    decide
  · show ChangesOnly _ d (restoreAct d c p).1
    with_reducible apply ChangesOnly.mono restoreAct_foot
    decide
  · show ChangesOnly _ d (poisonAct d c p).1
    with_reducible apply ChangesOnly.mono poisonAct_foot
    decide
  · show ChangesOnly _ d (sealRecAct d c p).1
    with_reducible apply ChangesOnly.mono sealRecAct_foot
    decide
  · show ChangesOnly _ d (updStatAct d c p).1
    with_reducible apply ChangesOnly.mono updStatAct_foot
    decide
  · show ChangesOnly _ d (updPolAct d c p).1
    with_reducible apply ChangesOnly.mono updPolAct_foot
    decide
  · show ChangesOnly _ d (confirmAct d c p).1
    with_reducible apply ChangesOnly.mono confirmAct_foot
    decide
  · show ChangesOnly _ d (bedrockAct d c p).1
    with_reducible apply ChangesOnly.mono bedrockAct_foot
    decide
  · exact .refl _ _

theorem Dev.jcsRun_foot {d : Dev} {op : Nat} {c : Caller} {p : List Byte} : ChangesOnly [.mem, .pkg, .expo, .sealing, .restore, .strata, .flash, .ctxs, .dram, .energy, .therm, .flint, .qtz, .snap, .lat, .heads, .jcs, .slate, .upd, .panel, .mirror, .dw, .out, .freeN] d (Dev.jcsRun d op c p) := by
  unfold Dev.jcsRun
  refine Dev.jcsDo_foot (by decide) (.refl _ _) ?_
  intro e h
  exact ChangesOnly.step jcsRow_foot (by decide) h

theorem Dev.submit_foot {d : Dev} {c : Caller} {op : Nat} {p : List Byte} : ChangesOnly [.mem, .pkg, .expo, .sealing, .restore, .strata, .flash, .ctxs, .dram, .energy, .therm, .flint, .qtz, .snap, .lat, .heads, .jcs, .slate, .upd, .panel, .mirror, .dw, .out, .freeN] d (Dev.submit d c op p) := by
  unfold Dev.submit
  try dsimp only
  repeat' first
    | intro _ | with_reducible exact .refl _ _ | with_reducible assumption | with_reducible apply ChangesOnly.ite
    | with_reducible apply ChangesOnly.foldl | (with_reducible apply ChangesOnly.step Dev.onJcs_foot; decide)
    | (with_reducible apply ChangesOnly.step Dev.respond_foot; decide) | (with_reducible apply ChangesOnly.step Dev.jcsRun_foot; decide)
    | (with_reducible apply ChangesOnly.step Dev.mirrorNow_foot; decide) | with_reducible exact .pair ‹_› ‹_› | split | dsimp only

end Sys2Proof.Machine
end

