-- ==== Sys2Proof/Laws/Mem.lean ====
section
/-! SUPPORT. Laws of tables and of the DRAM contents: every operation on memory keeps the canonical form, a read after a write gives
the value written, and a write leaves every other byte as it was. -/

namespace Sys2Proof.Machine

/-! ### Tables -/

/-- A table reads back what was set, at every key. -/
@[simp] theorem tget_tset {α : Type} (t : Tbl α) (z : α) (k j : Nat) (v : α) (hk : k = j) : tget (tset t k v) z j = v := by
  subst hk
  induction t with
  | nil => simp [tset, tget]
  | cons e r ih =>
    simp only [tset]
    split
    · simp [tget]
    · split
      · simp [tget]
      · rename_i h1 h2; simp [tget, h2, ih]

/-- Setting one key leaves every other key's entry as it was. -/
theorem tget_tset_ne {α : Type} (t : Tbl α) (z : α) (k j : Nat) (v : α) (hk : j ≠ k) : tget (tset t k v) z j = tget t z j := by
  induction t with
  | nil => simp [tset, tget, hk.symm]
  | cons e r ih =>
    simp only [tset]
    split
    · simp [tget, hk.symm]
    · split
      · rename_i h1 h2; simp [tget, h2, hk.symm]
      · simp [tget, ih]

/-- Changing one key's entry changes it, -/
@[simp] theorem tget_tmod {α : Type} (t : Tbl α) (z : α) (k : Nat) (f : α → α) : tget (tmod t z k f) z k = f (tget t z k) := by
  simp [tmod]

/-- and no other. -/
theorem tget_tmod_ne {α : Type} (t : Tbl α) (z : α) (k j : Nat) (f : α → α) (hk : j ≠ k) : tget (tmod t z k f) z j = tget t z j :=
  tget_tset_ne t z k j _ hk

/-! ### The canonical form -/

/-- The canonical form, over the whole list. -/
theorem Mem.wf_iff (m : Mem) : Mem.wf m = true ↔ m.Pairwise (fun a b => a.1 < b.1) ∧ ∀ c ∈ m, c.2 ≠ 0 := by
  induction m with
  | nil => simp [Mem.wf]
  | cons c r ih =>
    cases r with
    | nil => simp [Mem.wf]
    | cons e r =>
      simp only [Mem.wf, Bool.and_eq_true, ih, decide_eq_true_eq, bne_iff_ne, ne_eq]
      constructor
      · rintro ⟨⟨hc, hlt⟩, hp, hz⟩
        refine ⟨List.pairwise_cons.mpr ⟨?_, hp⟩, ?_⟩
        · intro x hx
          rcases List.mem_cons.mp hx with rfl | hx
          · exact hlt
          · exact Nat.lt_trans hlt ((List.pairwise_cons.mp hp).1 x hx)
        · intro x hx
          rcases List.mem_cons.mp hx with rfl | hx
          · exact hc
          · exact hz x hx
      · rintro ⟨hp, hz⟩
        obtain ⟨h1, h2⟩ := List.pairwise_cons.mp hp
        exact ⟨⟨hz c (by simp), h1 e (by simp)⟩, h2, fun x hx => hz x (List.mem_cons_of_mem _ hx)⟩

/-- Removing cells keeps the canonical form. -/
theorem Mem.filter_wf {m : Mem} (f : Nat × Byte → Bool) (h : Mem.wf m = true) : Mem.wf (m.filter f) = true := by
  rw [Mem.wf_iff] at *
  exact ⟨h.1.filter f, fun c hc => h.2 c (List.mem_of_mem_filter hc)⟩

/-- The cells a byte write leaves are the old ones and the byte written, where it is not zero. -/
theorem Mem.mem_setByte {m : Mem} {a : Nat} {b : Byte} {c : Nat × Byte} (h : c ∈ m.setByte a b) : c ∈ m ∨ (c = (a, b) ∧ b ≠ 0) := by
  induction m with
  | nil =>
    simp only [Mem.setByte] at h
    split at h
    · simp at h
    · right; simp_all
  | cons e r ih =>
    simp only [Mem.setByte] at h
    split at h
    · split at h
      · exact .inl h
      · rcases List.mem_cons.mp h with rfl | h
        · right; simp_all
        · exact .inl h
    · split at h
      · split at h
        · exact .inl (List.mem_cons_of_mem _ h)
        · rcases List.mem_cons.mp h with rfl | h
          · right; simp_all
          · exact .inl (List.mem_cons_of_mem _ h)
      · rcases List.mem_cons.mp h with rfl | h
        · exact .inl (by simp)
        · rcases ih h with h | h
          · exact .inl (List.mem_cons_of_mem _ h)
          · exact .inr h

/-- Writing a byte keeps the canonical form. -/
theorem Mem.setByte_wf {m : Mem} (a : Nat) (b : Byte) (h : Mem.wf m = true) : Mem.wf (m.setByte a b) = true := by
  rw [Mem.wf_iff] at h ⊢
  refine ⟨?_, ?_⟩
  · obtain ⟨hp, -⟩ := h
    induction m with
    | nil => simp only [Mem.setByte]; split <;> simp
    | cons e r ih =>
      obtain ⟨h1, h2⟩ := List.pairwise_cons.mp hp
      simp only [Mem.setByte]
      split
      · rename_i hlt
        split
        · exact hp
        · refine List.pairwise_cons.mpr ⟨?_, hp⟩
          intro x hx
          rcases List.mem_cons.mp hx with rfl | hx
          · exact hlt
          · exact Nat.lt_trans hlt (h1 x hx)
      · split
        · rename_i heq
          split
          · exact h2
          · exact List.pairwise_cons.mpr ⟨fun x hx => by simpa [← heq] using h1 x hx, h2⟩
        · refine List.pairwise_cons.mpr ⟨?_, ih h2⟩
          intro x hx
          rcases Mem.mem_setByte hx with hx | ⟨rfl, -⟩
          · exact h1 x hx
          · simp only; omega
  · intro c hc
    rcases Mem.mem_setByte hc with hc | ⟨rfl, hb⟩
    · exact h.2 c hc
    · exact hb

/-- Writing any list of cells keeps the canonical form. -/
theorem Mem.foldSet_wf (l : List (Nat × Byte)) : ∀ {m : Mem}, Mem.wf m = true → Mem.wf (l.foldl (fun acc c => Mem.setByte acc c.1 c.2) m) = true := by
  induction l with
  | nil => exact fun h => h
  | cons c r ih => exact fun h => ih (Mem.setByte_wf c.1 c.2 h)

/-- Clearing a range keeps the canonical form. -/
theorem Mem.clear_wf {m : Mem} (a n : Nat) (h : Mem.wf m = true) : Mem.wf (m.clear a n) = true := Mem.filter_wf _ h

/-- Loading an image keeps the canonical form. -/
theorem Mem.load_wf {m : Mem} (img : Mem) (h : Mem.wf m = true) : Mem.wf (m.load img) = true := Mem.foldSet_wf img h

/-- Writing a line keeps the canonical form. -/
theorem Mem.setLine_wf {m : Mem} (l : Nat) (data : BitVec 512) (mask : BitVec 64) (h : Mem.wf m = true) : Mem.wf (m.setLine l data mask) = true :=
  Mem.foldSet_wf _ h

/-- Writing bytes keeps the canonical form. -/
theorem Mem.setBytes_wf (bs : List Byte) : ∀ {m : Mem} (a : Nat), Mem.wf m = true → Mem.wf (m.setBytes a bs) = true := by
  induction bs with
  | nil => exact fun _ h => h
  | cons b r ih => exact fun a h => ih (a + 1) (Mem.setByte_wf a b h)

/-! ### Reads after writes -/

/-- In canonical form a byte below every listed address reads zero. -/
theorem Mem.byte_low {m : Mem} {a : Nat} (h : ∀ c ∈ m, a < c.1) : m.byte a = 0 := by
  induction m with
  | nil => rfl
  | cons e r ih =>
    have he : e.1 ≠ a := Nat.ne_of_gt (h e (by simp))
    simpa [Mem.byte, tget, he] using ih fun c hc => h c (List.mem_cons_of_mem _ hc)

/-- A byte reads back as written. -/
theorem Mem.byte_setByte {m : Mem} (a : Nat) (b : Byte) (h : Mem.wf m = true) : (m.setByte a b).byte a = b := by
  rw [Mem.wf_iff] at h
  obtain ⟨hp, -⟩ := h
  induction m with
  | nil => simp only [Mem.setByte]; split <;> simp_all [Mem.byte, tget]
  | cons e r ih =>
    obtain ⟨h1, h2⟩ := List.pairwise_cons.mp hp
    simp only [Mem.setByte]
    split
    · rename_i hlt
      split
      · rename_i hb
        subst hb
        refine Mem.byte_low fun c hc => ?_
        rcases List.mem_cons.mp hc with rfl | hc
        · exact hlt
        · exact Nat.lt_trans hlt (h1 c hc)
      · simp [Mem.byte, tget]
    · split
      · rename_i heq
        split
        · rename_i hb
          subst hb
          exact Mem.byte_low fun c hc => by simpa [← heq] using h1 c hc
        · simp [Mem.byte, tget]
      · rename_i hne
        simpa [Mem.byte, tget, hne] using ih h2

/-- A write of one byte leaves every other byte as it was. -/
theorem Mem.byte_setByte_ne {m : Mem} (a : Nat) (b : Byte) (x : Nat) (hx : x ≠ a) : (m.setByte a b).byte x = m.byte x := by
  induction m with
  | nil => simp only [Mem.setByte]; split <;> simp [Mem.byte, tget, hx.symm]
  | cons e r ih =>
    simp only [Mem.setByte]
    split
    · split
      · rfl
      · simp [Mem.byte, tget, hx.symm]
    · split
      · rename_i heq
        have : e.1 ≠ x := heq ▸ hx.symm
        split
        · simp [Mem.byte, tget, this]
        · simp [Mem.byte, tget, this, hx.symm]
      · by_cases he : e.1 = x
        · simp [Mem.byte, tget, he]
        · simpa [Mem.byte, tget, he] using ih

/-- A list of cells written leaves every byte none of them names. -/
theorem Mem.byte_foldSet_ne (l : List (Nat × Byte)) (x : Nat) : ∀ {m : Mem}, (∀ c ∈ l, c.1 ≠ x) →
    (l.foldl (fun acc c => Mem.setByte acc c.1 c.2) m).byte x = m.byte x := by
  induction l with
  | nil => exact fun _ => rfl
  | cons c r ih =>
    intro m h
    rw [List.foldl_cons, ih fun e he => h e (List.mem_cons_of_mem _ he)]
    exact Mem.byte_setByte_ne _ _ _ fun e => h c (by simp) e.symm

/-- A line write changes no byte outside its line. -/
theorem Mem.byte_setLine_outside {m : Mem} (l : Nat) (data : BitVec 512) (mask : BitVec 64) (x : Nat) (hx : x / 64 ≠ l) :
    (m.setLine l data mask).byte x = m.byte x := by
  refine Mem.byte_foldSet_ne _ x fun c hc => ?_
  simp only [lineWrites, List.mem_map, List.mem_filter, List.mem_range] at hc
  obtain ⟨i, ⟨hi, -⟩, rfl⟩ := hc
  simp only
  omega

/-- A list of cells of distinct addresses written: a byte one of them names reads as that cell says. -/
theorem Mem.byte_foldSet (l : List (Nat × Byte)) (hl : (l.map (·.1)).Nodup) (c : Nat × Byte) (hc : c ∈ l) : ∀ {m : Mem}, Mem.wf m = true →
    (l.foldl (fun acc c => Mem.setByte acc c.1 c.2) m).byte c.1 = c.2 := by
  induction l with
  | nil => cases hc
  | cons e r ih =>
    intro m h
    rw [List.map_cons, List.nodup_cons] at hl
    rw [List.foldl_cons]
    rcases List.mem_cons.mp hc with rfl | hc
    · rw [Mem.byte_foldSet_ne]
      · exact Mem.byte_setByte _ _ h
      · exact fun x hx he => hl.1 (he ▸ List.mem_map_of_mem hx)
    · exact ih hl.2 hc (Mem.setByte_wf _ _ h)

/-- A line write: the enabled bytes of the line read as the data, every other byte as before. -/
theorem Mem.byte_setLine {m : Mem} (h : Mem.wf m = true) (l : Nat) (data : BitVec 512) (mask : BitVec 64) (i : Nat) (hi : i < 64) :
    (m.setLine l data mask).byte (l * 64 + i) = if mbit mask i then data.extractLsb' (8 * i) 8 else m.byte (l * 64 + i) := by
  split
  · rename_i hm
    refine Mem.byte_foldSet (lineWrites l data mask) ?_ (l * 64 + i, data.extractLsb' (8 * i) 8) ?_ h
    · simp only [lineWrites, List.map_map]
      refine List.Nodup.map_on ?_ ((List.nodup_range).filter _)
      intro a _ b _ e
      simpa using e
    · simp only [lineWrites, List.mem_map, List.mem_filter, List.mem_range]
      exact ⟨i, ⟨hi, hm⟩, rfl⟩
  · rename_i hm
    refine Mem.byte_foldSet_ne _ _ fun c hc => ?_
    simp only [lineWrites, List.mem_map, List.mem_filter, List.mem_range] at hc
    obtain ⟨j, ⟨hj, hj'⟩, rfl⟩ := hc
    intro e
    have : j = i := by simpa using e
    exact hm (this ▸ hj')

end Sys2Proof.Machine
end

