-- ==== Sys2Proof/Laws/MemKeeps.lean ====
section
/-! SUPPORT. Every operation that may touch the DRAM contents keeps their canonical form. -/

set_option linter.unreachableTactic false
set_option linter.unusedTactic false

namespace Sys2Proof.Machine

/-- Either branch. -/
theorem MemOk.ite {c : Prop} {_ : Decidable c} {a b : Dev} (ha : MemOk a) (hb : MemOk b) : MemOk (if c then a else b) := by split <;> assumption

/-- A fold. -/
theorem MemOk.foldl {α : Type} {f : Dev → α → Dev} {l : List α} {d : Dev} (hf : ∀ e a, MemOk e → MemOk (f e a)) (h : MemOk d) : MemOk (l.foldl f d) := by
  induction l generalizing d with
  | nil => exact h
  | cons a l ih => exact ih (hf _ _ h)

/-- A result taken apart as a pair. -/
theorem MemOk.pair {α : Type} {p : Dev × α} {e : Dev} {x : α} (q : p = (e, x)) (h : MemOk p.1) : MemOk e := by rw [q] at h; exact h

/-- An operation that does not touch the part. -/
theorem MemOk.keep {S : List Part} {d e : Dev} (k : ChangesOnly S d e) (hS : Part.mem ∉ S) (h : MemOk d) : MemOk e := by
  have := k.same .mem hS
  simp only [Part.same] at this
  exact ⟨this ▸ h.1⟩

/-- A change of memory that keeps the canonical form. -/
theorem Dev.onMem_memOk {d : Dev} {f : Mem → Mem} (hf : ∀ m, Mem.wf m = true → Mem.wf (f m) = true) (h : MemOk d) : MemOk (d.onMem f) :=
  ⟨hf _ h.wf⟩

theorem Dev.jcsEffect_memOk {d : Dev} {op : Nat} {act : Dev → Caller → List Byte → Dev × Rsp} {r : CmdRow} {c : Caller} {p : List Byte} (hf : ∀ e, MemOk e → MemOk (act e c p).1) (h0 : MemOk d) : MemOk (Dev.jcsEffect d op act r c p) := by
  unfold Dev.jcsEffect
  try dsimp only
  repeat' first
    | intro _ | with_reducible assumption | with_reducible apply hf | with_reducible apply MemOk.ite | with_reducible apply MemOk.foldl
    | (with_reducible apply MemOk.keep Dev.respond_foot; decide) | (with_reducible apply MemOk.keep Dev.onJcs_foot; decide)
    | (with_reducible apply MemOk.keep Dev.useLease_foot; decide) | (with_reducible apply MemOk.keep Dev.onBg_foot; decide)
    | (with_reducible apply MemOk.keep Dev.mirrorNow_foot; decide) | with_reducible exact MemOk.pair ‹_› ‹_› | split | dsimp only

theorem Dev.jcsDo_memOk {d : Dev} {op : Nat} {check : Dev → Caller → List Byte → Nat} {act : Dev → Caller → List Byte → Dev × Rsp} {c : Caller} {p : List Byte} (hf : ∀ e, MemOk e → MemOk (act e c p).1) (h0 : MemOk d) : MemOk (Dev.jcsDo d op check act c p) := by
  unfold Dev.jcsDo
  try dsimp only
  repeat' first
    | intro _ | with_reducible assumption | with_reducible apply hf | with_reducible apply MemOk.ite | with_reducible apply MemOk.foldl
    | (with_reducible apply MemOk.keep Dev.respond_foot; decide) | with_reducible apply Dev.jcsEffect_memOk | with_reducible exact MemOk.pair ‹_› ‹_›
    | split | dsimp only

theorem Dev.cxlDo_memOk {d : Dev} {h op : Nat} {early : Bool} {f : Dev → Dev} (hf : MemOk d → MemOk (f d)) (h0 : MemOk d) : MemOk (Dev.cxlDo d h op early f) := by
  unfold Dev.cxlDo
  try dsimp only
  repeat' first
    | intro _ | with_reducible assumption | with_reducible apply hf | with_reducible apply MemOk.ite | with_reducible apply MemOk.foldl
    | (with_reducible apply MemOk.keep Dev.cxlRespond_foot; decide) | with_reducible exact MemOk.pair ‹_› ‹_› | split | dsimp only

theorem Dev.brDo_memOk {d : Dev} {pec : Bool} {f : Dev → Dev} (hf : MemOk d → MemOk (f d)) (h0 : MemOk d) : MemOk (Dev.brDo d pec f) := by
  unfold Dev.brDo
  try dsimp only
  repeat' first
    | intro _ | with_reducible assumption | with_reducible apply hf | with_reducible apply MemOk.ite | with_reducible apply MemOk.foldl
    | (with_reducible apply MemOk.keep Dev.emit_foot; decide) | with_reducible exact MemOk.pair ‹_› ‹_› | split | dsimp only

theorem Dev.storePoison_memOk {d : Dev} {l : Nat} (h0 : MemOk d) : MemOk (Dev.storePoison d l) := by
  unfold Dev.storePoison
  try dsimp only
  repeat' first
    | intro _ | with_reducible assumption | with_reducible apply MemOk.ite | with_reducible apply MemOk.foldl
    | (with_reducible apply MemOk.keep Dev.onExpo_foot; decide) | with_reducible apply Dev.onMem_memOk | exact Mem.setLine_wf _ _ _ ‹_›
    | exact Mem.clear_wf _ _ ‹_› | exact Mem.load_wf _ (Mem.clear_wf _ _ ‹_›) | exact Mem.setByte_wf _ _ ‹_› | rfl
    | with_reducible exact MemOk.pair ‹_› ‹_› | split | dsimp only

theorem Dev.linePoison_memOk {d : Dev} {l : Nat} (h0 : MemOk d) : MemOk (Dev.linePoison d l) := by
  unfold Dev.linePoison
  try dsimp only
  repeat' first
    | intro _ | with_reducible assumption | with_reducible apply MemOk.ite | with_reducible apply MemOk.foldl
    | with_reducible apply Dev.storePoison_memOk | (with_reducible apply MemOk.keep Dev.poisonEntry_foot; decide)
    | (with_reducible apply MemOk.keep Dev.raise_foot; decide) | exact Mem.setLine_wf _ _ _ ‹_› | exact Mem.clear_wf _ _ ‹_›
    | exact Mem.load_wf _ (Mem.clear_wf _ _ ‹_›) | exact Mem.setByte_wf _ _ ‹_› | rfl | with_reducible exact MemOk.pair ‹_› ‹_› | split | dsimp only

theorem Dev.loadPage_memOk {d : Dev} {p : Nat} {img : Mem} (h0 : MemOk d) : MemOk (Dev.loadPage d p img) := by
  unfold Dev.loadPage
  try dsimp only
  repeat' first
    | intro _ | with_reducible assumption | with_reducible apply MemOk.ite | with_reducible apply MemOk.foldl | with_reducible apply Dev.onMem_memOk
    | exact Mem.setLine_wf _ _ _ ‹_› | exact Mem.clear_wf _ _ ‹_› | exact Mem.load_wf _ (Mem.clear_wf _ _ ‹_›) | exact Mem.setByte_wf _ _ ‹_› | rfl
    | with_reducible exact MemOk.pair ‹_› ‹_› | split | dsimp only

theorem Dev.loadLine_memOk {d : Dev} {l : Nat} {img : Mem} (h0 : MemOk d) : MemOk (Dev.loadLine d l img) := by
  unfold Dev.loadLine
  try dsimp only
  repeat' first
    | intro _ | with_reducible assumption | with_reducible apply MemOk.ite | with_reducible apply MemOk.foldl | with_reducible apply Dev.onMem_memOk
    | exact Mem.setLine_wf _ _ _ ‹_› | exact Mem.clear_wf _ _ ‹_› | exact Mem.load_wf _ (Mem.clear_wf _ _ ‹_›) | exact Mem.setByte_wf _ _ ‹_› | rfl
    | with_reducible exact MemOk.pair ‹_› ‹_› | split | dsimp only

theorem Dev.lineUe_memOk {d : Dev} {l devs : Nat} (h0 : MemOk d) : MemOk (Dev.lineUe d l devs).1 := by
  unfold Dev.lineUe
  try dsimp only
  repeat' first
    | intro _ | with_reducible assumption | with_reducible apply MemOk.ite | with_reducible apply MemOk.foldl | with_reducible apply Dev.onMem_memOk
    | (with_reducible apply MemOk.keep Dev.ueEvent_foot; decide) | with_reducible apply Dev.linePoison_memOk | with_reducible apply Dev.loadLine_memOk
    | (with_reducible apply MemOk.keep Dev.lineMended_foot; decide) | (with_reducible apply MemOk.keep Dev.repairStart_foot; decide)
    | exact Mem.setLine_wf _ _ _ ‹_› | exact Mem.clear_wf _ _ ‹_› | exact Mem.load_wf _ (Mem.clear_wf _ _ ‹_›) | exact Mem.setByte_wf _ _ ‹_› | rfl
    | with_reducible exact MemOk.pair ‹_› ‹_› | split | dsimp only

theorem Dev.readLine_memOk {d : Dev} {l : Nat} {errs : List (Nat × Nat)} (h0 : MemOk d) : MemOk (Dev.readLine d l errs).1 := by
  unfold Dev.readLine
  try dsimp only
  repeat' first
    | intro _ | with_reducible assumption | with_reducible apply MemOk.ite | with_reducible apply MemOk.foldl
    | (with_reducible apply MemOk.keep Dev.correctedEvent_foot; decide) | with_reducible apply Dev.lineUe_memOk | exact Mem.setLine_wf _ _ _ ‹_›
    | exact Mem.clear_wf _ _ ‹_› | exact Mem.load_wf _ (Mem.clear_wf _ _ ‹_›) | exact Mem.setByte_wf _ _ ‹_› | rfl
    | with_reducible exact MemOk.pair ‹_› ‹_› | split | dsimp only

theorem Dev.pageUe_memOk {d : Dev} {p : Nat} {ue : List (Nat × Nat)} (h0 : MemOk d) : MemOk (Dev.pageUe d p ue) := by
  unfold Dev.pageUe
  try dsimp only
  repeat' first
    | intro _ | with_reducible assumption | with_reducible apply MemOk.ite | with_reducible apply MemOk.foldl | with_reducible apply Dev.lineUe_memOk
    | exact Mem.setLine_wf _ _ _ ‹_› | exact Mem.clear_wf _ _ ‹_› | exact Mem.load_wf _ (Mem.clear_wf _ _ ‹_›) | exact Mem.setByte_wf _ _ ‹_› | rfl
    | with_reducible exact MemOk.pair ‹_› ‹_› | split | dsimp only

theorem Dev.doWrite_memOk {d : Dev} {l : Nat} {data : BitVec 512} {mask : BitVec 64} (h0 : MemOk d) : MemOk (Dev.doWrite d l data mask) := by
  unfold Dev.doWrite
  try dsimp only
  repeat' first
    | intro _ | with_reducible assumption | with_reducible apply MemOk.ite | with_reducible apply MemOk.foldl | with_reducible apply Dev.onMem_memOk
    | (with_reducible apply MemOk.keep Dev.clearPoison_foot; decide) | (with_reducible apply MemOk.keep Dev.dirtyPage_foot; decide)
    | (with_reducible apply MemOk.keep Dev.replicaMark_foot; decide) | exact Mem.setLine_wf _ _ _ ‹_› | exact Mem.clear_wf _ _ ‹_›
    | exact Mem.load_wf _ (Mem.clear_wf _ _ ‹_›) | exact Mem.setByte_wf _ _ ‹_› | rfl | with_reducible exact MemOk.pair ‹_› ‹_› | split | dsimp only

theorem Dev.perform_memOk {d : Dev} {r : HeldReq} (h0 : MemOk d) : MemOk (Dev.perform d r) := by
  unfold Dev.perform
  try dsimp only
  repeat' first
    | intro _ | with_reducible assumption | with_reducible apply MemOk.ite | with_reducible apply MemOk.foldl
    | (with_reducible apply MemOk.keep Dev.onExpo_foot; decide) | (with_reducible apply MemOk.keep Dev.refuseQuiet_foot; decide)
    | (with_reducible apply MemOk.keep Dev.startHeld_foot; decide) | (with_reducible apply MemOk.keep Dev.chanTouch_foot; decide)
    | (with_reducible apply MemOk.keep Dev.otherWrite_foot; decide) | with_reducible apply Dev.storePoison_memOk
    | (with_reducible apply MemOk.keep Dev.poisonEntry_foot; decide) | (with_reducible apply MemOk.keep Dev.dirtyPage_foot; decide)
    | (with_reducible apply MemOk.keep Dev.replicaMark_foot; decide) | with_reducible apply Dev.doWrite_memOk
    | (with_reducible apply MemOk.keep Dev.posted_foot; decide) | (with_reducible apply MemOk.keep Dev.meterWrite_foot; decide)
    | (with_reducible apply MemOk.keep Dev.replicaDone_foot; decide) | (with_reducible apply MemOk.keep Dev.finishWrite_foot; decide)
    | (with_reducible apply MemOk.keep Dev.emit_foot; decide) | exact Mem.setLine_wf _ _ _ ‹_› | exact Mem.clear_wf _ _ ‹_›
    | exact Mem.load_wf _ (Mem.clear_wf _ _ ‹_›) | exact Mem.setByte_wf _ _ ‹_› | rfl | with_reducible exact MemOk.pair ‹_› ‹_› | split | dsimp only

theorem Dev.serve_memOk {d : Dev} (h0 : MemOk d) : MemOk (Dev.serve d) := by
  unfold Dev.serve
  try dsimp only
  repeat' first
    | intro _ | with_reducible assumption | with_reducible apply MemOk.ite | with_reducible apply MemOk.foldl
    | (with_reducible apply MemOk.keep Dev.onExpo_foot; decide) | with_reducible apply Dev.perform_memOk | exact Mem.setLine_wf _ _ _ ‹_›
    | exact Mem.clear_wf _ _ ‹_› | exact Mem.load_wf _ (Mem.clear_wf _ _ ‹_›) | exact Mem.setByte_wf _ _ ‹_› | rfl
    | with_reducible exact MemOk.pair ‹_› ‹_› | split | dsimp only

theorem Dev.chanServe_memOk {d : Dev} {t : Nat} (h0 : MemOk d) : MemOk (Dev.chanServe d t) := by
  unfold Dev.chanServe
  try dsimp only
  repeat' first
    | intro _ | with_reducible assumption | with_reducible apply MemOk.ite | with_reducible apply MemOk.foldl
    | (with_reducible apply MemOk.keep Dev.onExpo_foot; decide) | with_reducible apply Dev.serve_memOk | exact Mem.setLine_wf _ _ _ ‹_›
    | exact Mem.clear_wf _ _ ‹_› | exact Mem.load_wf _ (Mem.clear_wf _ _ ‹_›) | exact Mem.setByte_wf _ _ ‹_› | rfl
    | with_reducible exact MemOk.pair ‹_› ‹_› | split | dsimp only

theorem Dev.admitReq_memOk {d : Dev} {r : HeldReq} (h0 : MemOk d) : MemOk (Dev.admitReq d r) := by
  unfold Dev.admitReq
  try dsimp only
  repeat' first
    | intro _ | with_reducible assumption | with_reducible apply MemOk.ite | with_reducible apply MemOk.foldl
    | (with_reducible apply MemOk.keep Dev.onExpo_foot; decide) | with_reducible apply Dev.perform_memOk
    | (with_reducible apply MemOk.keep Dev.startHeld_foot; decide) | exact Mem.setLine_wf _ _ _ ‹_› | exact Mem.clear_wf _ _ ‹_›
    | exact Mem.load_wf _ (Mem.clear_wf _ _ ‹_›) | exact Mem.setByte_wf _ _ ‹_› | rfl | with_reducible exact MemOk.pair ‹_› ‹_› | split | dsimp only

theorem Dev.request_memOk {d : Dev} {h hpa : Nat} {write : Bool} {data : BitVec 512} {mask : BitVec 64} {errs : List (Nat × Nat)} (h0 : MemOk d) : MemOk (Dev.request d h hpa write data mask errs) := by
  unfold Dev.request
  try dsimp only
  repeat' first
    | intro _ | with_reducible assumption | with_reducible apply MemOk.ite | with_reducible apply MemOk.foldl
    | (with_reducible apply MemOk.keep Dev.onExpo_foot; decide) | (with_reducible apply MemOk.keep Dev.refuseErr_foot; decide)
    | (with_reducible apply MemOk.keep Dev.emit_foot; decide) | (with_reducible apply MemOk.keep Dev.countOwn_foot; decide)
    | (with_reducible apply MemOk.keep Dev.refuseQuiet_foot; decide) | with_reducible apply Dev.admitReq_memOk
    | with_reducible apply Dev.readLine_memOk | with_reducible apply Dev.perform_memOk | exact Mem.setLine_wf _ _ _ ‹_› | exact Mem.clear_wf _ _ ‹_›
    | exact Mem.load_wf _ (Mem.clear_wf _ _ ‹_›) | exact Mem.setByte_wf _ _ ‹_› | rfl | with_reducible exact MemOk.pair ‹_› ‹_› | split | dsimp only

theorem Dev.releaseTest_memOk {d : Dev} (h0 : MemOk d) : MemOk (Dev.releaseTest d) := by
  unfold Dev.releaseTest
  try dsimp only
  repeat' first
    | intro _ | with_reducible assumption | with_reducible apply MemOk.ite | with_reducible apply MemOk.foldl
    | (with_reducible apply MemOk.keep Dev.onExpo_foot; decide) | (with_reducible apply MemOk.keep Dev.refuseQuiet_foot; decide)
    | (with_reducible apply MemOk.keep Dev.countOwn_foot; decide) | with_reducible apply Dev.admitReq_memOk | exact Mem.setLine_wf _ _ _ ‹_›
    | exact Mem.clear_wf _ _ ‹_› | exact Mem.load_wf _ (Mem.clear_wf _ _ ‹_›) | exact Mem.setByte_wf _ _ ‹_› | rfl
    | with_reducible exact MemOk.pair ‹_› ‹_› | split | dsimp only

theorem Dev.fetchDone_memOk {d : Dev} {p : Nat} (h0 : MemOk d) : MemOk (Dev.fetchDone d p) := by
  unfold Dev.fetchDone
  try dsimp only
  repeat' first
    | intro _ | with_reducible assumption | with_reducible apply MemOk.ite | with_reducible apply MemOk.foldl
    | (with_reducible apply MemOk.keep Dev.onRestore_foot; decide) | (with_reducible apply MemOk.keep Dev.onExpo_foot; decide)
    | with_reducible apply Dev.serve_memOk | exact Mem.setLine_wf _ _ _ ‹_› | exact Mem.clear_wf _ _ ‹_› | exact Mem.load_wf _ (Mem.clear_wf _ _ ‹_›)
    | exact Mem.setByte_wf _ _ ‹_› | rfl | with_reducible exact MemOk.pair ‹_› ‹_› | split | dsimp only

theorem Dev.revDone_memOk {d : Dev} {f : Nat → Bool} (h0 : MemOk d) : MemOk (Dev.revDone d f) := by
  unfold Dev.revDone
  try dsimp only
  repeat' first
    | intro _ | with_reducible assumption | with_reducible apply MemOk.ite | with_reducible apply MemOk.foldl
    | (with_reducible apply MemOk.keep Dev.onExpo_foot; decide) | with_reducible apply Dev.serve_memOk | exact Mem.setLine_wf _ _ _ ‹_›
    | exact Mem.clear_wf _ _ ‹_› | exact Mem.load_wf _ (Mem.clear_wf _ _ ‹_›) | exact Mem.setByte_wf _ _ ‹_› | rfl
    | with_reducible exact MemOk.pair ‹_› ‹_› | split | dsimp only

theorem Dev.armGroups_memOk {d : Dev} {gs : List Nat} (h0 : MemOk d) : MemOk (Dev.armGroups d gs) := by
  unfold Dev.armGroups
  try dsimp only
  repeat' first
    | intro _ | with_reducible assumption | with_reducible apply MemOk.ite | with_reducible apply MemOk.foldl
    | (with_reducible apply MemOk.keep Dev.onExpo_foot; decide) | (with_reducible apply MemOk.keep Dev.dirtyPage_foot; decide)
    | (with_reducible apply MemOk.keep Dev.armFullCheck_foot; decide) | with_reducible apply Dev.serve_memOk | exact Mem.setLine_wf _ _ _ ‹_›
    | exact Mem.clear_wf _ _ ‹_› | exact Mem.load_wf _ (Mem.clear_wf _ _ ‹_›) | exact Mem.setByte_wf _ _ ‹_› | rfl
    | with_reducible exact MemOk.pair ‹_› ‹_› | split | dsimp only

theorem Dev.capApply_memOk {d : Dev} {t : Nat} (h0 : MemOk d) : MemOk (Dev.capApply d t) := by
  unfold Dev.capApply
  try dsimp only
  repeat' first
    | intro _ | with_reducible assumption | with_reducible apply MemOk.ite | with_reducible apply MemOk.foldl
    | (with_reducible apply MemOk.keep Dev.setCap_foot; decide) | with_reducible apply Dev.chanServe_memOk | exact Mem.setLine_wf _ _ _ ‹_›
    | exact Mem.clear_wf _ _ ‹_› | exact Mem.load_wf _ (Mem.clear_wf _ _ ‹_›) | exact Mem.setByte_wf _ _ ‹_› | rfl
    | with_reducible exact MemOk.pair ‹_› ‹_› | split | dsimp only

theorem Dev.keyLost_memOk {d : Dev} {t c : Nat} (h0 : MemOk d) : MemOk (Dev.keyLost d t c) := by
  unfold Dev.keyLost
  try dsimp only
  repeat' first
    | intro _ | with_reducible assumption | with_reducible apply MemOk.ite | with_reducible apply MemOk.foldl
    | (with_reducible apply MemOk.keep Dev.onCtxs_foot; decide) | (with_reducible apply MemOk.keep Dev.onCtx_foot; decide)
    | (with_reducible apply MemOk.keep Dev.ctxTo_foot; decide) | (with_reducible apply MemOk.keep Dev.raise_foot; decide)
    | (with_reducible apply MemOk.keep Dev.pagePoison_foot; decide) | (with_reducible apply MemOk.keep Dev.cleanPages_foot; decide)
    | with_reducible apply Dev.revDone_memOk | exact Mem.setLine_wf _ _ _ ‹_› | exact Mem.clear_wf _ _ ‹_›
    | exact Mem.load_wf _ (Mem.clear_wf _ _ ‹_›) | exact Mem.setByte_wf _ _ ‹_› | rfl | with_reducible exact MemOk.pair ‹_› ‹_› | split | dsimp only

theorem Dev.useKey_memOk {d : Dev} {t c err : Nat} (h0 : MemOk d) : MemOk (Dev.useKey d t c err) := by
  unfold Dev.useKey
  try dsimp only
  repeat' first
    | intro _ | with_reducible assumption | with_reducible apply MemOk.ite | with_reducible apply MemOk.foldl
    | (with_reducible apply MemOk.keep Dev.onCtxs_foot; decide) | with_reducible apply Dev.keyLost_memOk | exact Mem.setLine_wf _ _ _ ‹_›
    | exact Mem.clear_wf _ _ ‹_› | exact Mem.load_wf _ (Mem.clear_wf _ _ ‹_›) | exact Mem.setByte_wf _ _ ‹_› | rfl
    | with_reducible exact MemOk.pair ‹_› ‹_› | split | dsimp only

theorem Dev.landUe_memOk {d : Dev} {t : Nat} {ue : List (Nat × Nat)} (h0 : MemOk d) : MemOk (Dev.landUe d t ue) := by
  unfold Dev.landUe
  try dsimp only
  repeat' first
    | intro _ | with_reducible assumption | with_reducible apply MemOk.ite | with_reducible apply MemOk.foldl | with_reducible apply Dev.lineUe_memOk
    | exact Mem.setLine_wf _ _ _ ‹_› | exact Mem.clear_wf _ _ ‹_› | exact Mem.load_wf _ (Mem.clear_wf _ _ ‹_›) | exact Mem.setByte_wf _ _ ‹_› | rfl
    | with_reducible exact MemOk.pair ‹_› ‹_› | split | dsimp only

theorem Dev.zeroGranule_memOk {d : Dev} {g : Nat} (h0 : MemOk d) : MemOk (Dev.zeroGranule d g) := by
  unfold Dev.zeroGranule
  try dsimp only
  repeat' first
    | intro _ | with_reducible assumption | with_reducible apply MemOk.ite | with_reducible apply MemOk.foldl | with_reducible apply Dev.onMem_memOk
    | (with_reducible apply MemOk.keep Dev.onExpo_foot; decide) | (with_reducible apply MemOk.keep Dev.onHead_foot; decide)
    | (with_reducible apply MemOk.keep Dev.clearLoc_foot; decide) | (with_reducible apply MemOk.keep Dev.markRange_foot; decide)
    | (with_reducible apply MemOk.keep Dev.cleanPages_foot; decide) | with_reducible apply Dev.fetchDone_memOk | exact Mem.setLine_wf _ _ _ ‹_›
    | exact Mem.clear_wf _ _ ‹_› | exact Mem.load_wf _ (Mem.clear_wf _ _ ‹_›) | exact Mem.setByte_wf _ _ ‹_› | rfl
    | with_reducible exact MemOk.pair ‹_› ‹_› | split | dsimp only

theorem Dev.rtCommit_memOk {d : Dev} {x : RtChange} (h0 : MemOk d) : MemOk (Dev.rtCommit d x) := by
  unfold Dev.rtCommit
  try dsimp only
  repeat' first
    | intro _ | with_reducible assumption | with_reducible apply MemOk.ite | with_reducible apply MemOk.foldl
    | (with_reducible apply MemOk.keep Dev.onCtxs_foot; decide) | (with_reducible apply MemOk.keep Dev.onExpo_foot; decide)
    | (with_reducible apply MemOk.keep Dev.trimGranule_foot; decide) | (with_reducible apply MemOk.keep Dev.onGran_foot; decide)
    | (with_reducible apply MemOk.keep Dev.rtSave_foot; decide) | (with_reducible apply MemOk.keep Dev.ctxSave_foot; decide)
    | (with_reducible apply MemOk.keep Dev.rollbackEnd_foot; decide) | (with_reducible apply MemOk.keep Dev.dcOffer_foot; decide)
    | (with_reducible apply MemOk.keep Dev.onHead_foot; decide) | (with_reducible apply MemOk.keep Dev.ringAreas_foot; decide)
    | with_reducible apply Dev.serve_memOk | (with_reducible apply MemOk.keep Dev.bgEndAny_foot; decide) | exact Mem.setLine_wf _ _ _ ‹_›
    | exact Mem.clear_wf _ _ ‹_› | exact Mem.load_wf _ (Mem.clear_wf _ _ ‹_›) | exact Mem.setByte_wf _ _ ‹_› | rfl
    | with_reducible exact MemOk.pair ‹_› ‹_› | split | dsimp only

theorem Dev.sanitizeEnd_memOk {d : Dev} {c : Nat} (h0 : MemOk d) : MemOk (Dev.sanitizeEnd d c) := by
  unfold Dev.sanitizeEnd
  try dsimp only
  repeat' first
    | intro _ | with_reducible assumption | with_reducible apply MemOk.ite | with_reducible apply MemOk.foldl
    | (with_reducible apply MemOk.keep Dev.ctxState_foot; decide) | (with_reducible apply MemOk.keep Dev.cutMeter_foot; decide)
    | (with_reducible apply MemOk.keep Dev.onCtx_foot; decide) | with_reducible apply Dev.keyLost_memOk
    | (with_reducible apply MemOk.keep Dev.ctxSave_foot; decide) | (with_reducible apply MemOk.keep Dev.bgEndAny_foot; decide)
    | exact Mem.setLine_wf _ _ _ ‹_› | exact Mem.clear_wf _ _ ‹_› | exact Mem.load_wf _ (Mem.clear_wf _ _ ‹_›) | exact Mem.setByte_wf _ _ ‹_› | rfl
    | with_reducible exact MemOk.pair ‹_› ‹_› | split | dsimp only

theorem Dev.lineBad_memOk {d : Dev} {l devs : Nat} (h0 : MemOk d) : MemOk (Dev.lineBad d l devs) := by
  unfold Dev.lineBad
  try dsimp only
  repeat' first
    | intro _ | with_reducible assumption | with_reducible apply MemOk.ite | with_reducible apply MemOk.foldl
    | (with_reducible apply MemOk.keep Dev.reserveRepair_foot; decide) | with_reducible apply Dev.lineUe_memOk | exact Mem.setLine_wf _ _ _ ‹_›
    | exact Mem.clear_wf _ _ ‹_› | exact Mem.load_wf _ (Mem.clear_wf _ _ ‹_›) | exact Mem.setByte_wf _ _ ‹_› | rfl
    | with_reducible exact MemOk.pair ‹_› ‹_› | split | dsimp only

theorem Dev.armDone_memOk {d : Dev} {t : Nat} (h0 : MemOk d) : MemOk (Dev.armDone d t) := by
  unfold Dev.armDone
  try dsimp only
  repeat' first
    | intro _ | with_reducible assumption | with_reducible apply MemOk.ite | with_reducible apply MemOk.foldl
    | (with_reducible apply MemOk.keep Dev.onExpo_foot; decide) | (with_reducible apply MemOk.keep Dev.cairnPut_foot; decide)
    | (with_reducible apply MemOk.keep Dev.cairn_foot; decide) | with_reducible apply Dev.armGroups_memOk
    | (with_reducible apply MemOk.keep Dev.earlyDisarm_foot; decide) | exact Mem.setLine_wf _ _ _ ‹_› | exact Mem.clear_wf _ _ ‹_›
    | exact Mem.load_wf _ (Mem.clear_wf _ _ ‹_›) | exact Mem.setByte_wf _ _ ‹_› | rfl | with_reducible exact MemOk.pair ‹_› ‹_› | split | dsimp only

theorem Dev.heatApply_memOk {d : Dev} {t : Nat} (h0 : MemOk d) : MemOk (Dev.heatApply d t) := by
  unfold Dev.heatApply
  try dsimp only
  repeat' first
    | intro _ | with_reducible assumption | with_reducible apply MemOk.ite | with_reducible apply MemOk.foldl
    | with_reducible apply Dev.capApply_memOk | (with_reducible apply MemOk.keep Dev.fspStart_foot; decide) | exact Mem.setLine_wf _ _ _ ‹_›
    | exact Mem.clear_wf _ _ ‹_› | exact Mem.load_wf _ (Mem.clear_wf _ _ ‹_›) | exact Mem.setByte_wf _ _ ‹_› | rfl
    | with_reducible exact MemOk.pair ‹_› ‹_› | split | dsimp only

theorem Dev.writeCqe_memOk {d : Dev} {c k a : Nat} {bs : List Byte} {irq : Bool} (h0 : MemOk d) : MemOk (Dev.writeCqe d c k a bs irq) := by
  unfold Dev.writeCqe
  try dsimp only
  repeat' first
    | intro _ | with_reducible assumption | with_reducible apply MemOk.ite | with_reducible apply MemOk.foldl | with_reducible apply Dev.onMem_memOk
    | with_reducible apply Dev.keyLost_memOk | (with_reducible apply MemOk.keep Dev.posted_foot; decide) | with_reducible apply Dev.admitReq_memOk
    | exact Mem.setLine_wf _ _ _ ‹_› | exact Mem.clear_wf _ _ ‹_› | exact Mem.load_wf _ (Mem.clear_wf _ _ ‹_›) | exact Mem.setByte_wf _ _ ‹_› | rfl
    | with_reducible exact MemOk.pair ‹_› ‹_› | split | dsimp only

theorem Dev.complete_memOk {d : Dev} {c k : Nat} {e : RingEntry} {status time r0 r1 : Nat} {poison : Bool} (h0 : MemOk d) : MemOk (Dev.complete d c k e status time r0 r1 poison) := by
  unfold Dev.complete
  try dsimp only
  repeat' first
    | intro _ | with_reducible assumption | with_reducible apply MemOk.ite | with_reducible apply MemOk.foldl
    | (with_reducible apply MemOk.keep Dev.onRing_foot; decide) | (with_reducible apply MemOk.keep Dev.startHead_foot; decide)
    | (with_reducible apply MemOk.keep Dev.ckptAnswer_foot; decide) | with_reducible apply Dev.writeCqe_memOk | exact Mem.setLine_wf _ _ _ ‹_›
    | exact Mem.clear_wf _ _ ‹_› | exact Mem.load_wf _ (Mem.clear_wf _ _ ‹_›) | exact Mem.setByte_wf _ _ ‹_› | rfl
    | with_reducible exact MemOk.pair ‹_› ‹_› | split | dsimp only

theorem Dev.rejectEntry_memOk {d : Dev} {c k : Nat} {e : RingEntry} {status : Nat} (h0 : MemOk d) : MemOk (Dev.rejectEntry d c k e status) := by
  unfold Dev.rejectEntry
  try dsimp only
  repeat' first
    | intro _ | with_reducible assumption | with_reducible apply MemOk.ite | with_reducible apply MemOk.foldl
    | with_reducible apply Dev.complete_memOk | exact Mem.setLine_wf _ _ _ ‹_› | exact Mem.clear_wf _ _ ‹_›
    | exact Mem.load_wf _ (Mem.clear_wf _ _ ‹_›) | exact Mem.setByte_wf _ _ ‹_› | rfl | with_reducible exact MemOk.pair ‹_› ‹_› | split | dsimp only

theorem Dev.takeRollback_memOk {d : Dev} {c k : Nat} {e : RingEntry} (h0 : MemOk d) : MemOk (Dev.takeRollback d c k e) := by
  unfold Dev.takeRollback
  try dsimp only
  repeat' first
    | intro _ | with_reducible assumption | with_reducible apply MemOk.ite | with_reducible apply MemOk.foldl
    | with_reducible apply Dev.rejectEntry_memOk | (with_reducible apply MemOk.keep Dev.checkEntry_foot; decide)
    | (with_reducible apply MemOk.keep Dev.onEntry_foot; decide) | exact Mem.setLine_wf _ _ _ ‹_› | exact Mem.clear_wf _ _ ‹_›
    | exact Mem.load_wf _ (Mem.clear_wf _ _ ‹_›) | exact Mem.setByte_wf _ _ ‹_› | rfl | with_reducible exact MemOk.pair ‹_› ‹_› | split | dsimp only

theorem Dev.takeUp_memOk {d : Dev} {c k : Nat} {e : RingEntry} (h0 : MemOk d) : MemOk (Dev.takeUp d c k e) := by
  unfold Dev.takeUp
  try dsimp only
  repeat' first
    | intro _ | with_reducible assumption | with_reducible apply MemOk.ite | with_reducible apply MemOk.foldl
    | with_reducible apply Dev.rejectEntry_memOk | (with_reducible apply MemOk.keep Dev.checkEntry_foot; decide)
    | with_reducible apply Dev.takeRollback_memOk | with_reducible apply Dev.complete_memOk
    | (with_reducible apply MemOk.keep Dev.onMeter_foot; decide) | exact Mem.setLine_wf _ _ _ ‹_› | exact Mem.clear_wf _ _ ‹_›
    | exact Mem.load_wf _ (Mem.clear_wf _ _ ‹_›) | exact Mem.setByte_wf _ _ ‹_› | rfl | with_reducible exact MemOk.pair ‹_› ‹_› | split | dsimp only

theorem Dev.takeNext_memOk {d : Dev} {c k : Nat} {f : Nat → Bool} (h0 : MemOk d) : MemOk (Dev.takeNext d c k f) := by
  unfold Dev.takeNext
  try dsimp only
  repeat' first
    | intro _ | with_reducible assumption | with_reducible apply MemOk.ite | with_reducible apply MemOk.foldl | with_reducible apply Dev.takeUp_memOk
    | (with_reducible apply MemOk.keep Dev.fetchRings_foot; decide) | exact Mem.setLine_wf _ _ _ ‹_› | exact Mem.clear_wf _ _ ‹_›
    | exact Mem.load_wf _ (Mem.clear_wf _ _ ‹_›) | exact Mem.setByte_wf _ _ ‹_› | rfl | with_reducible exact MemOk.pair ‹_› ‹_› | split | dsimp only

theorem Dev.fenceEnd_memOk {d : Dev} {c k : Nat} {e : RingEntry} (h0 : MemOk d) : MemOk (Dev.fenceEnd d c k e) := by
  unfold Dev.fenceEnd
  try dsimp only
  repeat' first
    | intro _ | with_reducible assumption | with_reducible apply MemOk.ite | with_reducible apply MemOk.foldl | with_reducible apply Dev.keyLost_memOk
    | with_reducible apply Dev.complete_memOk | (with_reducible apply MemOk.keep Dev.onMeter_foot; decide) | exact Mem.setLine_wf _ _ _ ‹_›
    | exact Mem.clear_wf _ _ ‹_› | exact Mem.load_wf _ (Mem.clear_wf _ _ ‹_›) | exact Mem.setByte_wf _ _ ‹_› | rfl
    | with_reducible exact MemOk.pair ‹_› ‹_› | split | dsimp only

theorem Dev.revert_memOk {d : Dev} {c p out : Nat} (h0 : MemOk d) : MemOk (Dev.revert d c p out).1 := by
  unfold Dev.revert
  try dsimp only
  repeat' first
    | intro _ | with_reducible assumption | with_reducible apply MemOk.ite | with_reducible apply MemOk.foldl
    | (with_reducible apply MemOk.keep Dev.drawSlot_foot; decide) | (with_reducible apply MemOk.keep Dev.onBlk_foot; decide)
    | (with_reducible apply MemOk.keep Dev.putRec_foot; decide) | (with_reducible apply MemOk.keep Dev.issue_foot; decide)
    | (with_reducible apply MemOk.keep Dev.strataLost_foot; decide) | (with_reducible apply MemOk.keep Dev.raise_foot; decide)
    | (with_reducible apply MemOk.keep Dev.pageClearPoison_foot; decide) | with_reducible apply Dev.loadPage_memOk
    | (with_reducible apply MemOk.keep Dev.pagePoison_foot; decide) | with_reducible apply Dev.storePoison_memOk | exact Mem.setLine_wf _ _ _ ‹_›
    | exact Mem.clear_wf _ _ ‹_› | exact Mem.load_wf _ (Mem.clear_wf _ _ ‹_›) | exact Mem.setByte_wf _ _ ‹_› | rfl
    | with_reducible exact MemOk.pair ‹_› ‹_› | split | dsimp only

theorem Dev.abortUnstarted_memOk {d : Dev} {c k : Nat} (h0 : MemOk d) : MemOk (Dev.abortUnstarted d c k) := by
  unfold Dev.abortUnstarted
  try dsimp only
  repeat' first
    | intro _ | with_reducible assumption | with_reducible apply MemOk.ite | with_reducible apply MemOk.foldl
    | with_reducible apply Dev.complete_memOk | exact Mem.setLine_wf _ _ _ ‹_› | exact Mem.clear_wf _ _ ‹_›
    | exact Mem.load_wf _ (Mem.clear_wf _ _ ‹_›) | exact Mem.setByte_wf _ _ ‹_› | rfl | with_reducible exact MemOk.pair ‹_› ‹_› | split | dsimp only

theorem Dev.abortRollback_memOk {d : Dev} {c k : Nat} (h0 : MemOk d) : MemOk (Dev.abortRollback d c k) := by
  unfold Dev.abortRollback
  try dsimp only
  repeat' first
    | intro _ | with_reducible assumption | with_reducible apply MemOk.ite | with_reducible apply MemOk.foldl
    | with_reducible apply Dev.complete_memOk | exact Mem.setLine_wf _ _ _ ‹_› | exact Mem.clear_wf _ _ ‹_›
    | exact Mem.load_wf _ (Mem.clear_wf _ _ ‹_›) | exact Mem.setByte_wf _ _ ‹_› | rfl | with_reducible exact MemOk.pair ‹_› ‹_› | split | dsimp only

theorem Dev.quiesceRing_memOk {d : Dev} {c k : Nat} (h0 : MemOk d) : MemOk (Dev.quiesceRing d c k) := by
  unfold Dev.quiesceRing
  try dsimp only
  repeat' first
    | intro _ | with_reducible assumption | with_reducible apply MemOk.ite | with_reducible apply MemOk.foldl
    | (with_reducible apply MemOk.keep Dev.onRing_foot; decide) | with_reducible apply Dev.abortUnstarted_memOk
    | with_reducible apply Dev.abortRollback_memOk | exact Mem.setLine_wf _ _ _ ‹_› | exact Mem.clear_wf _ _ ‹_›
    | exact Mem.load_wf _ (Mem.clear_wf _ _ ‹_›) | exact Mem.setByte_wf _ _ ‹_› | rfl | with_reducible exact MemOk.pair ‹_› ‹_› | split | dsimp only

theorem Dev.quiesceCtx_memOk {d : Dev} {c : Nat} (h0 : MemOk d) : MemOk (Dev.quiesceCtx d c) := by
  unfold Dev.quiesceCtx
  try dsimp only
  repeat' first
    | intro _ | with_reducible assumption | with_reducible apply MemOk.ite | with_reducible apply MemOk.foldl
    | (with_reducible apply MemOk.keep Dev.ctxTo_foot; decide) | with_reducible apply Dev.quiesceRing_memOk | exact Mem.setLine_wf _ _ _ ‹_›
    | exact Mem.clear_wf _ _ ‹_› | exact Mem.load_wf _ (Mem.clear_wf _ _ ‹_›) | exact Mem.setByte_wf _ _ ‹_› | rfl
    | with_reducible exact MemOk.pair ‹_› ‹_› | split | dsimp only

theorem Dev.resumeRing_memOk {d : Dev} {c k : Nat} {kept : Bool} (h0 : MemOk d) : MemOk (Dev.resumeRing d c k kept) := by
  unfold Dev.resumeRing
  try dsimp only
  repeat' first
    | intro _ | with_reducible assumption | with_reducible apply MemOk.ite | with_reducible apply MemOk.foldl
    | (with_reducible apply MemOk.keep Dev.onRing_foot; decide) | with_reducible apply Dev.abortUnstarted_memOk
    | with_reducible apply Dev.abortRollback_memOk | with_reducible apply Dev.takeUp_memOk | with_reducible apply Dev.fenceEnd_memOk
    | with_reducible apply Dev.complete_memOk | (with_reducible apply MemOk.keep Dev.fetchAll_foot; decide) | exact Mem.setLine_wf _ _ _ ‹_›
    | exact Mem.clear_wf _ _ ‹_› | exact Mem.load_wf _ (Mem.clear_wf _ _ ‹_›) | exact Mem.setByte_wf _ _ ‹_› | rfl
    | with_reducible exact MemOk.pair ‹_› ‹_› | split | dsimp only

theorem Dev.resumeRings_memOk {d : Dev} {kept : Bool} (h0 : MemOk d) : MemOk (Dev.resumeRings d kept) := by
  unfold Dev.resumeRings
  try dsimp only
  repeat' first
    | intro _ | with_reducible assumption | with_reducible apply MemOk.ite | with_reducible apply MemOk.foldl
    | with_reducible apply Dev.resumeRing_memOk | (with_reducible apply MemOk.keep Dev.releasePartial_foot; decide) | exact Mem.setLine_wf _ _ _ ‹_›
    | exact Mem.clear_wf _ _ ‹_› | exact Mem.load_wf _ (Mem.clear_wf _ _ ‹_›) | exact Mem.setByte_wf _ _ ‹_› | rfl
    | with_reducible exact MemOk.pair ‹_› ‹_› | split | dsimp only

theorem Dev.freezeAccepted_memOk {d : Dev} (h0 : MemOk d) : MemOk (Dev.freezeAccepted d) := by
  unfold Dev.freezeAccepted
  try dsimp only
  repeat' first
    | intro _ | with_reducible assumption | with_reducible apply MemOk.ite | with_reducible apply MemOk.foldl
    | (with_reducible apply MemOk.keep Dev.onExpo_foot; decide) | (with_reducible apply MemOk.keep Dev.pacedDone_foot; decide)
    | with_reducible apply Dev.serve_memOk | exact Mem.setLine_wf _ _ _ ‹_› | exact Mem.clear_wf _ _ ‹_› | exact Mem.load_wf _ (Mem.clear_wf _ _ ‹_›)
    | exact Mem.setByte_wf _ _ ‹_› | rfl | with_reducible exact MemOk.pair ‹_› ‹_› | split | dsimp only

theorem Dev.sealFreeze_memOk {d : Dev} (h0 : MemOk d) : MemOk (Dev.sealFreeze d) := by
  unfold Dev.sealFreeze
  try dsimp only
  repeat' first
    | intro _ | with_reducible assumption | with_reducible apply MemOk.ite | with_reducible apply MemOk.foldl
    | (with_reducible apply MemOk.keep Dev.onSealing_foot; decide) | (with_reducible apply MemOk.keep Dev.sealWork_foot; decide)
    | (with_reducible apply MemOk.keep Dev.bayUpd_foot; decide) | (with_reducible apply MemOk.keep Dev.sealUpd_foot; decide)
    | with_reducible apply Dev.freezeAccepted_memOk | exact Mem.setLine_wf _ _ _ ‹_› | exact Mem.clear_wf _ _ ‹_›
    | exact Mem.load_wf _ (Mem.clear_wf _ _ ‹_›) | exact Mem.setByte_wf _ _ ‹_› | rfl | with_reducible exact MemOk.pair ‹_› ‹_› | split | dsimp only

theorem Dev.sealBegin_memOk {d : Dev} {cause : Nat} (h0 : MemOk d) : MemOk (Dev.sealBegin d cause) := by
  unfold Dev.sealBegin
  try dsimp only
  repeat' first
    | intro _ | with_reducible assumption | with_reducible apply MemOk.ite | with_reducible apply MemOk.foldl
    | (with_reducible apply MemOk.keep Dev.onCtxs_foot; decide) | (with_reducible apply MemOk.keep Dev.sealStart_foot; decide)
    | (with_reducible apply MemOk.keep Dev.abortBg_foot; decide) | with_reducible apply Dev.sealFreeze_memOk | exact Mem.setLine_wf _ _ _ ‹_›
    | exact Mem.clear_wf _ _ ‹_› | exact Mem.load_wf _ (Mem.clear_wf _ _ ‹_›) | exact Mem.setByte_wf _ _ ‹_› | rfl
    | with_reducible exact MemOk.pair ‹_› ‹_› | split | dsimp only

theorem Dev.testToReal_memOk {d : Dev} {cause : Nat} (h0 : MemOk d) : MemOk (Dev.testToReal d cause) := by
  unfold Dev.testToReal
  try dsimp only
  repeat' first
    | intro _ | with_reducible assumption | with_reducible apply MemOk.ite | with_reducible apply MemOk.foldl
    | (with_reducible apply MemOk.keep Dev.onSealing_foot; decide) | (with_reducible apply MemOk.keep Dev.onCtxs_foot; decide)
    | (with_reducible apply MemOk.keep Dev.sealHeader_foot; decide) | (with_reducible apply MemOk.keep Dev.abortBg_foot; decide)
    | (with_reducible apply MemOk.keep Dev.refuseTest_foot; decide) | with_reducible apply Dev.freezeAccepted_memOk
    | (with_reducible apply MemOk.keep Dev.sealUpd_foot; decide) | with_reducible apply Dev.sealFreeze_memOk
    | (with_reducible apply MemOk.keep Dev.landNext_foot; decide) | exact Mem.setLine_wf _ _ _ ‹_› | exact Mem.clear_wf _ _ ‹_›
    | exact Mem.load_wf _ (Mem.clear_wf _ _ ‹_›) | exact Mem.setByte_wf _ _ ‹_› | rfl | with_reducible exact MemOk.pair ‹_› ‹_› | split | dsimp only

theorem Dev.trigger_memOk {d : Dev} {cause : Nat} (h0 : MemOk d) : MemOk (Dev.trigger d cause) := by
  unfold Dev.trigger
  try dsimp only
  repeat' first
    | intro _ | with_reducible assumption | with_reducible apply MemOk.ite | with_reducible apply MemOk.foldl
    | (with_reducible apply MemOk.keep Dev.onSealing_foot; decide) | (with_reducible apply MemOk.keep Dev.hibernateUnsealed_foot; decide)
    | with_reducible apply Dev.testToReal_memOk | with_reducible apply Dev.sealBegin_memOk | exact Mem.setLine_wf _ _ _ ‹_›
    | exact Mem.clear_wf _ _ ‹_› | exact Mem.load_wf _ (Mem.clear_wf _ _ ‹_›) | exact Mem.setByte_wf _ _ ‹_› | rfl
    | with_reducible exact MemOk.pair ‹_› ‹_› | split | dsimp only

theorem Dev.mountReset_memOk {d : Dev} (h0 : MemOk d) : MemOk (Dev.mountReset d) := by
  unfold Dev.mountReset
  try dsimp only
  repeat' first
    | intro _ | with_reducible assumption | with_reducible apply MemOk.ite | with_reducible apply MemOk.foldl
    | (with_reducible apply MemOk.keep Dev.onRestore_foot; decide) | (with_reducible apply MemOk.keep Dev.onExpo_foot; decide)
    | with_reducible apply Dev.onMem_memOk | (with_reducible apply MemOk.keep Dev.onCtxs_foot; decide)
    | (with_reducible apply MemOk.keep Dev.landClose_foot; decide) | (with_reducible apply MemOk.keep Dev.onHead_foot; decide)
    | exact Mem.setLine_wf _ _ _ ‹_› | exact Mem.clear_wf _ _ ‹_› | exact Mem.load_wf _ (Mem.clear_wf _ _ ‹_›) | exact Mem.setByte_wf _ _ ‹_› | rfl
    | with_reducible exact MemOk.pair ‹_› ‹_› | split | dsimp only

theorem Dev.beginMount_memOk {d : Dev} (h0 : MemOk d) : MemOk (Dev.beginMount d) := by
  unfold Dev.beginMount
  try dsimp only
  repeat' first
    | intro _ | with_reducible assumption | with_reducible apply MemOk.ite | with_reducible apply MemOk.foldl
    | (with_reducible apply MemOk.keep Dev.restUpd_foot; decide) | with_reducible apply Dev.mountReset_memOk | exact Mem.setLine_wf _ _ _ ‹_›
    | exact Mem.clear_wf _ _ ‹_› | exact Mem.load_wf _ (Mem.clear_wf _ _ ‹_›) | exact Mem.setByte_wf _ _ ‹_› | rfl
    | with_reducible exact MemOk.pair ‹_› ‹_› | split | dsimp only

theorem Dev.warmOpen_memOk {d : Dev} (h0 : MemOk d) : MemOk (Dev.warmOpen d) := by
  unfold Dev.warmOpen
  try dsimp only
  repeat' first
    | intro _ | with_reducible assumption | with_reducible apply MemOk.ite | with_reducible apply MemOk.foldl
    | (with_reducible apply MemOk.keep Dev.onSealing_foot; decide) | (with_reducible apply MemOk.keep Dev.onRestore_foot; decide)
    | (with_reducible apply MemOk.keep Dev.onLat_foot; decide) | (with_reducible apply MemOk.keep Dev.reportAborts_foot; decide)
    | (with_reducible apply MemOk.keep Dev.landClose_foot; decide) | (with_reducible apply MemOk.keep Dev.ledgerAll_foot; decide)
    | (with_reducible apply MemOk.keep Dev.armLate_foot; decide) | (with_reducible apply MemOk.keep Dev.dirtyShutdown_foot; decide)
    | (with_reducible apply MemOk.keep Dev.onHead_foot; decide) | (with_reducible apply MemOk.keep Dev.tileChans_foot; decide)
    | with_reducible apply Dev.heatApply_memOk | (with_reducible apply MemOk.keep Dev.resumeWindow_foot; decide)
    | (with_reducible apply MemOk.keep Dev.pointCheck_foot; decide) | (with_reducible apply MemOk.keep Dev.restAgain_foot; decide)
    | (with_reducible apply MemOk.keep Dev.faultBack_foot; decide) | with_reducible apply Dev.resumeRings_memOk | with_reducible apply Dev.serve_memOk
    | (with_reducible apply MemOk.keep Dev.afterSeal_foot; decide) | (with_reducible apply MemOk.keep Dev.rewait_foot; decide)
    | (with_reducible apply MemOk.keep Dev.recompute_foot; decide) | (with_reducible apply MemOk.keep Dev.bayUpd_foot; decide)
    | (with_reducible apply MemOk.keep Dev.restUpd_foot; decide) | (with_reducible apply MemOk.keep Dev.sealUpd_foot; decide)
    | exact Mem.setLine_wf _ _ _ ‹_› | exact Mem.clear_wf _ _ ‹_› | exact Mem.load_wf _ (Mem.clear_wf _ _ ‹_›) | exact Mem.setByte_wf _ _ ‹_› | rfl
    | with_reducible exact MemOk.pair ‹_› ‹_› | split | dsimp only

theorem Dev.warmReturn_memOk {d : Dev} {canary : BitVec 8} (h0 : MemOk d) : MemOk (Dev.warmReturn d canary) := by
  unfold Dev.warmReturn
  try dsimp only
  repeat' first
    | intro _ | with_reducible assumption | with_reducible apply MemOk.ite | with_reducible apply MemOk.foldl
    | (with_reducible apply MemOk.keep Dev.onSealing_foot; decide) | with_reducible apply Dev.warmOpen_memOk
    | (with_reducible apply MemOk.keep Dev.faultBack_foot; decide) | (with_reducible apply MemOk.keep Dev.sealUpd_foot; decide)
    | with_reducible apply Dev.beginMount_memOk | exact Mem.setLine_wf _ _ _ ‹_› | exact Mem.clear_wf _ _ ‹_›
    | exact Mem.load_wf _ (Mem.clear_wf _ _ ‹_›) | exact Mem.setByte_wf _ _ ‹_› | rfl | with_reducible exact MemOk.pair ‹_› ‹_› | split | dsimp only

theorem Dev.testEnd_memOk {d : Dev} {ext : Nat} {measured : Bool} (h0 : MemOk d) : MemOk (Dev.testEnd d ext measured) := by
  unfold Dev.testEnd
  try dsimp only
  repeat' first
    | intro _ | with_reducible assumption | with_reducible apply MemOk.ite | with_reducible apply MemOk.foldl
    | (with_reducible apply MemOk.keep Dev.onSealing_foot; decide) | (with_reducible apply MemOk.keep Dev.onLat_foot; decide)
    | (with_reducible apply MemOk.keep Dev.onPanel_foot; decide) | (with_reducible apply MemOk.keep Dev.landClose_foot; decide)
    | (with_reducible apply MemOk.keep Dev.sealLearn_foot; decide) | (with_reducible apply MemOk.keep Dev.sealRecord_foot; decide)
    | (with_reducible apply MemOk.keep Dev.resumeWindow_foot; decide) | with_reducible apply Dev.releaseTest_memOk
    | (with_reducible apply MemOk.keep Dev.pointCheck_foot; decide) | (with_reducible apply MemOk.keep Dev.restAgain_foot; decide)
    | (with_reducible apply MemOk.keep Dev.reportAborts_foot; decide) | (with_reducible apply MemOk.keep Dev.armLate_foot; decide)
    | (with_reducible apply MemOk.keep Dev.fetchRings_foot; decide) | (with_reducible apply MemOk.keep Dev.afterSeal_foot; decide)
    | (with_reducible apply MemOk.keep Dev.rewait_foot; decide) | with_reducible apply Dev.serve_memOk
    | (with_reducible apply MemOk.keep Dev.bgEnd_foot; decide) | with_reducible apply Dev.heatApply_memOk
    | (with_reducible apply MemOk.keep Dev.faultBack_foot; decide) | (with_reducible apply MemOk.keep Dev.govTrigger_foot; decide)
    | (with_reducible apply MemOk.keep Dev.sealUpd_foot; decide) | exact Mem.setLine_wf _ _ _ ‹_› | exact Mem.clear_wf _ _ ‹_›
    | exact Mem.load_wf _ (Mem.clear_wf _ _ ‹_›) | exact Mem.setByte_wf _ _ ‹_› | rfl | with_reducible exact MemOk.pair ‹_› ‹_› | split | dsimp only

theorem Dev.levelUpd_memOk {d : Dev} {t : Nat} (h0 : MemOk d) : MemOk (Dev.levelUpd d t) := by
  unfold Dev.levelUpd
  try dsimp only
  repeat' first
    | intro _ | with_reducible assumption | with_reducible apply MemOk.ite | with_reducible apply MemOk.foldl
    | (with_reducible apply MemOk.keep Dev.onTile_foot; decide) | (with_reducible apply MemOk.keep Dev.raise_foot; decide)
    | (with_reducible apply MemOk.keep Dev.govTrigger_foot; decide) | with_reducible apply Dev.capApply_memOk
    | (with_reducible apply MemOk.keep Dev.fspStart_foot; decide) | (with_reducible apply MemOk.keep Dev.pointCheck_foot; decide)
    | exact Mem.setLine_wf _ _ _ ‹_› | exact Mem.clear_wf _ _ ‹_› | exact Mem.load_wf _ (Mem.clear_wf _ _ ‹_›) | exact Mem.setByte_wf _ _ ‹_› | rfl
    | with_reducible exact MemOk.pair ‹_› ‹_› | split | dsimp only

theorem Dev.tileHeat_memOk {d : Dev} {t : Nat} (h0 : MemOk d) : MemOk (Dev.tileHeat d t) := by
  unfold Dev.tileHeat
  try dsimp only
  repeat' first
    | intro _ | with_reducible assumption | with_reducible apply MemOk.ite | with_reducible apply MemOk.foldl
    | (with_reducible apply MemOk.keep Dev.onTtile_foot; decide) | (with_reducible apply MemOk.keep Dev.raise_foot; decide)
    | (with_reducible apply MemOk.keep Dev.thermPend_foot; decide) | with_reducible apply Dev.levelUpd_memOk | exact Mem.setLine_wf _ _ _ ‹_›
    | exact Mem.clear_wf _ _ ‹_› | exact Mem.load_wf _ (Mem.clear_wf _ _ ‹_›) | exact Mem.setByte_wf _ _ ‹_› | rfl
    | with_reducible exact MemOk.pair ‹_› ‹_› | split | dsimp only

theorem Dev.thermShutdown_memOk {d : Dev} {n : Nat} (h0 : MemOk d) : MemOk (Dev.thermShutdown d n) := by
  unfold Dev.thermShutdown
  try dsimp only
  repeat' first
    | intro _ | with_reducible assumption | with_reducible apply MemOk.ite | with_reducible apply MemOk.foldl
    | (with_reducible apply MemOk.keep Dev.onTherm_foot; decide) | (with_reducible apply MemOk.keep Dev.raise_foot; decide)
    | with_reducible apply Dev.trigger_memOk | (with_reducible apply MemOk.keep Dev.thermPend_foot; decide) | exact Mem.setLine_wf _ _ _ ‹_›
    | exact Mem.clear_wf _ _ ‹_› | exact Mem.load_wf _ (Mem.clear_wf _ _ ‹_›) | exact Mem.setByte_wf _ _ ‹_› | rfl
    | with_reducible exact MemOk.pair ‹_› ‹_› | split | dsimp only

theorem Dev.threshold_memOk {d : Dev} {n k : Nat} (h0 : MemOk d) : MemOk (Dev.threshold d n k) := by
  unfold Dev.threshold
  try dsimp only
  repeat' first
    | intro _ | with_reducible assumption | with_reducible apply MemOk.ite | with_reducible apply MemOk.foldl
    | (with_reducible apply MemOk.keep Dev.onSens_foot; decide) | (with_reducible apply MemOk.keep Dev.raise_foot; decide)
    | (with_reducible apply MemOk.keep Dev.crossing_foot; decide) | with_reducible apply Dev.thermShutdown_memOk | exact Mem.setLine_wf _ _ _ ‹_›
    | exact Mem.clear_wf _ _ ‹_› | exact Mem.load_wf _ (Mem.clear_wf _ _ ‹_›) | exact Mem.setByte_wf _ _ ‹_› | rfl
    | with_reducible exact MemOk.pair ‹_› ‹_› | split | dsimp only

theorem Dev.switchCheck_memOk {d : Dev} {session : Nat} (h0 : MemOk d) : MemOk (Dev.switchCheck d session) := by
  unfold Dev.switchCheck
  try dsimp only
  repeat' first
    | intro _ | with_reducible assumption | with_reducible apply MemOk.ite | with_reducible apply MemOk.foldl
    | (with_reducible apply MemOk.keep Dev.onStream_foot; decide) | with_reducible apply Dev.quiesceCtx_memOk | exact Mem.setLine_wf _ _ _ ‹_›
    | exact Mem.clear_wf _ _ ‹_› | exact Mem.load_wf _ (Mem.clear_wf _ _ ‹_›) | exact Mem.setByte_wf _ _ ‹_› | rfl
    | with_reducible exact MemOk.pair ‹_› ‹_› | split | dsimp only

theorem Dev.streamPhase_memOk {d : Dev} {session : Nat} (h0 : MemOk d) : MemOk (Dev.streamPhase d session) := by
  unfold Dev.streamPhase
  try dsimp only
  repeat' first
    | intro _ | with_reducible assumption | with_reducible apply MemOk.ite | with_reducible apply MemOk.foldl
    | with_reducible apply Dev.switchCheck_memOk | (with_reducible apply MemOk.keep Dev.onStream_foot; decide) | exact Mem.setLine_wf _ _ _ ‹_›
    | exact Mem.clear_wf _ _ ‹_› | exact Mem.load_wf _ (Mem.clear_wf _ _ ‹_›) | exact Mem.setByte_wf _ _ ‹_› | rfl
    | with_reducible exact MemOk.pair ‹_› ‹_› | split | dsimp only

theorem Dev.pageAck_memOk {d : Dev} {session mseq : Nat} (h0 : MemOk d) : MemOk (Dev.pageAck d session mseq) := by
  unfold Dev.pageAck
  try dsimp only
  repeat' first
    | intro _ | with_reducible assumption | with_reducible apply MemOk.ite | with_reducible apply MemOk.foldl
    | (with_reducible apply MemOk.keep Dev.onStream_foot; decide) | (with_reducible apply MemOk.keep Dev.sendMarks_foot; decide)
    | with_reducible apply Dev.streamPhase_memOk | exact Mem.setLine_wf _ _ _ ‹_› | exact Mem.clear_wf _ _ ‹_›
    | exact Mem.load_wf _ (Mem.clear_wf _ _ ‹_›) | exact Mem.setByte_wf _ _ ‹_› | rfl | with_reducible exact MemOk.pair ‹_› ‹_› | split | dsimp only

theorem Dev.pageWrite_memOk {d : Dev} {session mseq p : Nat} {bs : List Byte} (h0 : MemOk d) : MemOk (Dev.pageWrite d session mseq p bs) := by
  unfold Dev.pageWrite
  try dsimp only
  repeat' first
    | intro _ | with_reducible assumption | with_reducible apply MemOk.ite | with_reducible apply MemOk.foldl
    | (with_reducible apply MemOk.keep Dev.onExpo_foot; decide) | with_reducible apply Dev.admitReq_memOk | exact Mem.setLine_wf _ _ _ ‹_›
    | exact Mem.clear_wf _ _ ‹_› | exact Mem.load_wf _ (Mem.clear_wf _ _ ‹_›) | exact Mem.setByte_wf _ _ ‹_› | rfl
    | with_reducible exact MemOk.pair ‹_› ‹_› | split | dsimp only

theorem Dev.pageIn_memOk {d : Dev} {x : Stream} {mseq k o : Nat} {bs : List Byte} (h0 : MemOk d) : MemOk (Dev.pageIn d x mseq k o bs) := by
  unfold Dev.pageIn
  try dsimp only
  repeat' first
    | intro _ | with_reducible assumption | with_reducible apply MemOk.ite | with_reducible apply MemOk.foldl
    | (with_reducible apply MemOk.keep Dev.sendMsg_foot; decide) | (with_reducible apply MemOk.keep Dev.onInStream_foot; decide)
    | with_reducible apply Dev.pageWrite_memOk | exact Mem.setLine_wf _ _ _ ‹_› | exact Mem.clear_wf _ _ ‹_›
    | exact Mem.load_wf _ (Mem.clear_wf _ _ ‹_›) | exact Mem.setByte_wf _ _ ‹_› | rfl | with_reducible exact MemOk.pair ‹_› ‹_› | split | dsimp only

theorem Dev.contain_memOk {d : Dev} {m : FlintMsg} {lseq : Nat} (h0 : MemOk d) : MemOk (Dev.contain d m lseq) := by
  unfold Dev.contain
  try dsimp only
  repeat' first
    | intro _ | with_reducible assumption | with_reducible apply MemOk.ite | with_reducible apply MemOk.foldl
    | (with_reducible apply MemOk.keep Dev.isolate_foot; decide) | (with_reducible apply MemOk.keep Dev.openShadow_foot; decide)
    | (with_reducible apply MemOk.keep Dev.headReset_foot; decide) | (with_reducible apply MemOk.keep Dev.linkDisable_foot; decide)
    | (with_reducible apply MemOk.keep Dev.latShow_foot; decide) | with_reducible apply Dev.storePoison_memOk
    | (with_reducible apply MemOk.keep Dev.tick_foot; decide) | (with_reducible apply MemOk.keep Dev.chanDo_foot; decide)
    | (with_reducible apply MemOk.keep Dev.retireDie_foot; decide) | with_reducible apply Dev.keyLost_memOk | exact Mem.setLine_wf _ _ _ ‹_›
    | exact Mem.clear_wf _ _ ‹_› | exact Mem.load_wf _ (Mem.clear_wf _ _ ‹_›) | exact Mem.setByte_wf _ _ ‹_› | rfl
    | with_reducible exact MemOk.pair ‹_› ‹_› | split | dsimp only

theorem Dev.react_memOk {d : Dev} {m : FlintMsg} {lseq : Nat} (h0 : MemOk d) : MemOk (Dev.react d m lseq) := by
  unfold Dev.react
  try dsimp only
  repeat' first
    | intro _ | with_reducible assumption | with_reducible apply MemOk.ite | with_reducible apply MemOk.foldl
    | (with_reducible apply MemOk.keep Dev.onFlint_foot; decide) | (with_reducible apply MemOk.keep Dev.onSealing_foot; decide)
    | (with_reducible apply MemOk.keep Dev.openShadow_foot; decide) | (with_reducible apply MemOk.keep Dev.isolate_foot; decide)
    | with_reducible apply Dev.contain_memOk | (with_reducible apply MemOk.keep Dev.haltSupv_foot; decide)
    | (with_reducible apply MemOk.keep Dev.safeBegin_foot; decide) | exact Mem.setLine_wf _ _ _ ‹_› | exact Mem.clear_wf _ _ ‹_›
    | exact Mem.load_wf _ (Mem.clear_wf _ _ ‹_›) | exact Mem.setByte_wf _ _ ‹_› | rfl | with_reducible exact MemOk.pair ‹_› ‹_› | split | dsimp only

theorem Dev.admitPkg_memOk {d : Dev} {js : List Judged} (h0 : MemOk d) : MemOk (Dev.admitPkg d js) := by
  unfold Dev.admitPkg
  try dsimp only
  repeat' first
    | intro _ | with_reducible assumption | with_reducible apply MemOk.ite | with_reducible apply MemOk.foldl
    | (with_reducible apply MemOk.keep Dev.onFlint_foot; decide) | (with_reducible apply MemOk.keep Dev.windowLog_foot; decide)
    | (with_reducible apply MemOk.keep Dev.post_foot; decide) | (with_reducible apply MemOk.keep Dev.tfPulse_foot; decide)
    | (with_reducible apply MemOk.keep Dev.snapCapture_foot; decide) | with_reducible apply Dev.react_memOk | exact Mem.setLine_wf _ _ _ ‹_›
    | exact Mem.clear_wf _ _ ‹_› | exact Mem.load_wf _ (Mem.clear_wf _ _ ‹_›) | exact Mem.setByte_wf _ _ ‹_› | rfl
    | with_reducible exact MemOk.pair ‹_› ‹_› | split | dsimp only

theorem Dev.window_memOk {d : Dev} {c n pk : Nat} (h0 : MemOk d) : MemOk (Dev.window d c n pk) := by
  unfold Dev.window
  try dsimp only
  repeat' first
    | intro _ | with_reducible assumption | with_reducible apply MemOk.ite | with_reducible apply MemOk.foldl
    | (with_reducible apply MemOk.keep Dev.takeWindow_foot; decide) | (with_reducible apply MemOk.keep Dev.countMsg_foot; decide)
    | with_reducible apply Dev.admitPkg_memOk | (with_reducible apply MemOk.keep Dev.fltShow_foot; decide)
    | (with_reducible apply MemOk.keep Dev.windowLog_foot; decide) | (with_reducible apply MemOk.keep Dev.tfPulse_foot; decide)
    | exact Mem.setLine_wf _ _ _ ‹_› | exact Mem.clear_wf _ _ ‹_› | exact Mem.load_wf _ (Mem.clear_wf _ _ ‹_›) | exact Mem.setByte_wf _ _ ‹_› | rfl
    | with_reducible exact MemOk.pair ‹_› ‹_› | split | dsimp only

theorem Dev.flush_memOk {d : Dev} {c : Nat} {n : Nat} (h0 : MemOk d) : MemOk (Dev.flush d c n) := by
  induction n generalizing d with
  | zero => exact h0
  | succ n ih =>
    unfold Dev.flush
    try dsimp only
    repeat' first
      | intro _ | with_reducible assumption | with_reducible apply MemOk.ite | with_reducible apply MemOk.foldl | with_reducible apply ih
      | with_reducible apply Dev.window_memOk | exact Mem.setLine_wf _ _ _ ‹_› | exact Mem.clear_wf _ _ ‹_›
      | exact Mem.load_wf _ (Mem.clear_wf _ _ ‹_›) | exact Mem.setByte_wf _ _ ‹_› | rfl | with_reducible exact MemOk.pair ‹_› ‹_› | split | dsimp only

theorem Dev.activate_memOk {d : Dev} {slot : Nat} {now : Bool} (h0 : MemOk d) : MemOk (Dev.activate d slot now) := by
  unfold Dev.activate
  try dsimp only
  repeat' first
    | intro _ | with_reducible assumption | with_reducible apply MemOk.ite | with_reducible apply MemOk.foldl
    | (with_reducible apply MemOk.keep Dev.onUpd_foot; decide) | (with_reducible apply MemOk.keep Dev.gaugeWrite_foot; decide)
    | (with_reducible apply MemOk.keep Dev.onRecs_foot; decide) | with_reducible apply Dev.revert_memOk
    | (with_reducible apply MemOk.keep Dev.updEvent_foot; decide) | with_reducible apply Dev.trigger_memOk | exact Mem.setLine_wf _ _ _ ‹_›
    | exact Mem.clear_wf _ _ ‹_› | exact Mem.load_wf _ (Mem.clear_wf _ _ ‹_›) | exact Mem.setByte_wf _ _ ‹_› | rfl
    | with_reducible exact MemOk.pair ‹_› ‹_› | split | dsimp only

theorem Dev.toDramInit_memOk {d : Dev} (h0 : MemOk d) : MemOk (Dev.toDramInit d) := by
  unfold Dev.toDramInit
  try dsimp only
  repeat' first
    | intro _ | with_reducible assumption | with_reducible apply MemOk.ite | with_reducible apply MemOk.foldl
    | (with_reducible apply MemOk.keep Dev.onRestore_foot; decide) | with_reducible apply Dev.mountReset_memOk
    | (with_reducible apply MemOk.keep Dev.tileChans_foot; decide) | (with_reducible apply MemOk.keep Dev.restUpd_foot; decide)
    | exact Mem.setLine_wf _ _ _ ‹_› | exact Mem.clear_wf _ _ ‹_› | exact Mem.load_wf _ (Mem.clear_wf _ _ ‹_›) | exact Mem.setByte_wf _ _ ‹_› | rfl
    | with_reducible exact MemOk.pair ‹_› ‹_› | split | dsimp only

theorem Dev.readmit_memOk {d : Dev} (h0 : MemOk d) : MemOk (Dev.readmit d) := by
  unfold Dev.readmit
  try dsimp only
  repeat' first
    | intro _ | with_reducible assumption | with_reducible apply MemOk.ite | with_reducible apply MemOk.foldl
    | (with_reducible apply MemOk.keep Dev.onExpo_foot; decide) | with_reducible apply Dev.admitReq_memOk | exact Mem.setLine_wf _ _ _ ‹_›
    | exact Mem.clear_wf _ _ ‹_› | exact Mem.load_wf _ (Mem.clear_wf _ _ ‹_›) | exact Mem.setByte_wf _ _ ‹_› | rfl
    | with_reducible exact MemOk.pair ‹_› ‹_› | split | dsimp only

theorem Dev.restorePage_memOk {d : Dev} {p out keyErr src : Nat} (h0 : MemOk d) : MemOk (Dev.restorePage d p out keyErr src) := by
  unfold Dev.restorePage
  try dsimp only
  repeat' first
    | intro _ | with_reducible assumption | with_reducible apply MemOk.ite | with_reducible apply MemOk.foldl
    | (with_reducible apply MemOk.keep Dev.restoreFail_foot; decide) | (with_reducible apply MemOk.keep Dev.pagePoison_foot; decide)
    | with_reducible apply Dev.useKey_memOk | with_reducible apply Dev.keyLost_memOk | (with_reducible apply MemOk.keep Dev.onBlk_foot; decide)
    | with_reducible apply Dev.loadPage_memOk | (with_reducible apply MemOk.keep Dev.pageTouch_foot; decide)
    | with_reducible apply Dev.storePoison_memOk | (with_reducible apply MemOk.keep Dev.poisonEntry_foot; decide)
    | (with_reducible apply MemOk.keep Dev.markRestored_foot; decide) | with_reducible apply Dev.fetchDone_memOk | exact Mem.setLine_wf _ _ _ ‹_›
    | exact Mem.clear_wf _ _ ‹_› | exact Mem.load_wf _ (Mem.clear_wf _ _ ‹_›) | exact Mem.setByte_wf _ _ ‹_› | rfl
    | with_reducible exact MemOk.pair ‹_› ‹_› | split | dsimp only

theorem createAct_memOk {d : Dev} {x1 : Caller} {p : List Byte} (h0 : MemOk d) : MemOk (createAct d x1 p).1 := by
  unfold createAct
  try dsimp only
  repeat' first
    | intro _ | with_reducible assumption | with_reducible apply MemOk.ite | with_reducible apply MemOk.foldl
    | (with_reducible apply MemOk.keep Dev.onCtx_foot; decide) | with_reducible apply Dev.keyLost_memOk
    | (with_reducible apply MemOk.keep Dev.keyDraw_foot; decide) | (with_reducible apply MemOk.keep Dev.ctxTo_foot; decide)
    | exact Mem.setLine_wf _ _ _ ‹_› | exact Mem.clear_wf _ _ ‹_› | exact Mem.load_wf _ (Mem.clear_wf _ _ ‹_›) | exact Mem.setByte_wf _ _ ‹_› | rfl
    | with_reducible exact MemOk.pair ‹_› ‹_› | split | dsimp only

theorem assignAct_memOk {d : Dev} {x1 : Caller} {p : List Byte} (h0 : MemOk d) : MemOk (assignAct d x1 p).1 := by
  unfold assignAct
  try dsimp only
  repeat' first
    | intro _ | with_reducible assumption | with_reducible apply MemOk.ite | with_reducible apply MemOk.foldl | with_reducible apply Dev.keyLost_memOk
    | (with_reducible apply MemOk.keep Dev.rtChange_foot; decide) | exact Mem.setLine_wf _ _ _ ‹_› | exact Mem.clear_wf _ _ ‹_›
    | exact Mem.load_wf _ (Mem.clear_wf _ _ ‹_›) | exact Mem.setByte_wf _ _ ‹_› | rfl | with_reducible exact MemOk.pair ‹_› ‹_› | split | dsimp only

theorem releaseAct_memOk {d : Dev} {k : Caller} {p : List Byte} (h0 : MemOk d) : MemOk (releaseAct d k p).1 := by
  unfold releaseAct
  try dsimp only
  repeat' first
    | intro _ | with_reducible assumption | with_reducible apply MemOk.ite | with_reducible apply MemOk.foldl | with_reducible apply Dev.keyLost_memOk
    | (with_reducible apply MemOk.keep Dev.releaseGran_foot; decide) | (with_reducible apply MemOk.keep Dev.dcForced_foot; decide)
    | (with_reducible apply MemOk.keep Dev.dcOffer_foot; decide) | exact Mem.setLine_wf _ _ _ ‹_› | exact Mem.clear_wf _ _ ‹_›
    | exact Mem.load_wf _ (Mem.clear_wf _ _ ‹_›) | exact Mem.setByte_wf _ _ ‹_› | rfl | with_reducible exact MemOk.pair ‹_› ‹_› | split | dsimp only

theorem classAct_memOk {d : Dev} {x1 : Caller} {p : List Byte} (h0 : MemOk d) : MemOk (classAct d x1 p).1 := by
  unfold classAct
  try dsimp only
  repeat' first
    | intro _ | with_reducible assumption | with_reducible apply MemOk.ite | with_reducible apply MemOk.foldl | with_reducible apply Dev.keyLost_memOk
    | (with_reducible apply MemOk.keep Dev.rtChange_foot; decide) | exact Mem.setLine_wf _ _ _ ‹_› | exact Mem.clear_wf _ _ ‹_›
    | exact Mem.load_wf _ (Mem.clear_wf _ _ ‹_›) | exact Mem.setByte_wf _ _ ‹_› | rfl | with_reducible exact MemOk.pair ‹_› ‹_› | split | dsimp only

theorem ownerAct_memOk {d : Dev} {x1 : Caller} {p : List Byte} (h0 : MemOk d) : MemOk (ownerAct d x1 p).1 := by
  unfold ownerAct
  try dsimp only
  repeat' first
    | intro _ | with_reducible assumption | with_reducible apply MemOk.ite | with_reducible apply MemOk.foldl | with_reducible apply Dev.keyLost_memOk
    | (with_reducible apply MemOk.keep Dev.dcForced_foot; decide) | (with_reducible apply MemOk.keep Dev.stopStreams_foot; decide)
    | (with_reducible apply MemOk.keep Dev.rtChange_foot; decide) | (with_reducible apply MemOk.keep Dev.onCtx_foot; decide)
    | (with_reducible apply MemOk.keep Dev.ctxSave_foot; decide) | exact Mem.setLine_wf _ _ _ ‹_› | exact Mem.clear_wf _ _ ‹_›
    | exact Mem.load_wf _ (Mem.clear_wf _ _ ‹_›) | exact Mem.setByte_wf _ _ ‹_› | rfl | with_reducible exact MemOk.pair ‹_› ‹_› | split | dsimp only

theorem disableAct_memOk {d : Dev} {x1 : Caller} {p : List Byte} (h0 : MemOk d) : MemOk (disableAct d x1 p).1 := by
  unfold disableAct
  try dsimp only
  repeat' first
    | intro _ | with_reducible assumption | with_reducible apply MemOk.ite | with_reducible apply MemOk.foldl
    | with_reducible apply Dev.quiesceCtx_memOk | exact Mem.setLine_wf _ _ _ ‹_› | exact Mem.clear_wf _ _ ‹_›
    | exact Mem.load_wf _ (Mem.clear_wf _ _ ‹_›) | exact Mem.setByte_wf _ _ ‹_› | rfl | with_reducible exact MemOk.pair ‹_› ‹_› | split | dsimp only

theorem enableAct_memOk {d : Dev} {x1 : Caller} {p : List Byte} (h0 : MemOk d) : MemOk (enableAct d x1 p).1 := by
  unfold enableAct
  try dsimp only
  repeat' first
    | intro _ | with_reducible assumption | with_reducible apply MemOk.ite | with_reducible apply MemOk.foldl | with_reducible apply Dev.keyLost_memOk
    | (with_reducible apply MemOk.keep Dev.ctxTo_foot; decide) | (with_reducible apply MemOk.keep Dev.dcOffer_foot; decide)
    | exact Mem.setLine_wf _ _ _ ‹_› | exact Mem.clear_wf _ _ ‹_› | exact Mem.load_wf _ (Mem.clear_wf _ _ ‹_›) | exact Mem.setByte_wf _ _ ‹_› | rfl
    | with_reducible exact MemOk.pair ‹_› ‹_› | split | dsimp only

theorem retainAct_memOk {d : Dev} {x1 : Caller} {p : List Byte} (h0 : MemOk d) : MemOk (retainAct d x1 p).1 := by
  unfold retainAct
  try dsimp only
  repeat' first
    | intro _ | with_reducible assumption | with_reducible apply MemOk.ite | with_reducible apply MemOk.foldl | with_reducible apply Dev.keyLost_memOk
    | (with_reducible apply MemOk.keep Dev.onCtx_foot; decide) | (with_reducible apply MemOk.keep Dev.ctxSave_foot; decide)
    | exact Mem.setLine_wf _ _ _ ‹_› | exact Mem.clear_wf _ _ ‹_› | exact Mem.load_wf _ (Mem.clear_wf _ _ ‹_›) | exact Mem.setByte_wf _ _ ‹_› | rfl
    | with_reducible exact MemOk.pair ‹_› ‹_› | split | dsimp only

theorem ringOffAct_memOk {d : Dev} {x1 : Caller} {p : List Byte} (h0 : MemOk d) : MemOk (ringOffAct d x1 p).1 := by
  unfold ringOffAct
  try dsimp only
  repeat' first
    | intro _ | with_reducible assumption | with_reducible apply MemOk.ite | with_reducible apply MemOk.foldl
    | with_reducible apply Dev.quiesceRing_memOk | exact Mem.setLine_wf _ _ _ ‹_› | exact Mem.clear_wf _ _ ‹_›
    | exact Mem.load_wf _ (Mem.clear_wf _ _ ‹_›) | exact Mem.setByte_wf _ _ ‹_› | rfl | with_reducible exact MemOk.pair ‹_› ‹_› | split | dsimp only

theorem injectAct_memOk {d : Dev} {x1 : Caller} {p : List Byte} (h0 : MemOk d) : MemOk (injectAct d x1 p).1 := by
  unfold injectAct
  try dsimp only
  repeat' first
    | intro _ | with_reducible assumption | with_reducible apply MemOk.ite | with_reducible apply MemOk.foldl | with_reducible apply Dev.react_memOk
    | with_reducible apply Dev.flush_memOk | (with_reducible apply MemOk.keep Dev.deliver_foot; decide) | exact Mem.setLine_wf _ _ _ ‹_›
    | exact Mem.clear_wf _ _ ‹_› | exact Mem.load_wf _ (Mem.clear_wf _ _ ‹_›) | exact Mem.setByte_wf _ _ ‹_› | rfl
    | with_reducible exact MemOk.pair ‹_› ‹_› | split | dsimp only

theorem ctlMigAct_memOk {d : Dev} {x1 : Caller} {p : List Byte} (h0 : MemOk d) : MemOk (ctlMigAct d x1 p).1 := by
  unfold ctlMigAct
  try dsimp only
  repeat' first
    | intro _ | with_reducible assumption | with_reducible apply MemOk.ite | with_reducible apply MemOk.foldl
    | (with_reducible apply MemOk.keep Dev.abortMigration_foot; decide) | (with_reducible apply MemOk.keep Dev.onStream_foot; decide)
    | with_reducible apply Dev.switchCheck_memOk | exact Mem.setLine_wf _ _ _ ‹_› | exact Mem.clear_wf _ _ ‹_›
    | exact Mem.load_wf _ (Mem.clear_wf _ _ ‹_›) | exact Mem.setByte_wf _ _ ‹_› | rfl | with_reducible exact MemOk.pair ‹_› ‹_› | split | dsimp only

theorem ckptAct_memOk {d : Dev} {c : Caller} {p : List Byte} (h0 : MemOk d) : MemOk (ckptAct d c p).1 := by
  unfold ckptAct
  try dsimp only
  repeat' first
    | intro _ | with_reducible assumption | with_reducible apply MemOk.ite | with_reducible apply MemOk.foldl
    | (with_reducible apply MemOk.keep Dev.onLat_foot; decide) | with_reducible apply Dev.complete_memOk
    | (with_reducible apply MemOk.keep Dev.ckptRequest_foot; decide) | (with_reducible apply MemOk.keep Dev.sendMsg_foot; decide)
    | exact Mem.setLine_wf _ _ _ ‹_› | exact Mem.clear_wf _ _ ‹_› | exact Mem.load_wf _ (Mem.clear_wf _ _ ‹_›) | exact Mem.setByte_wf _ _ ‹_› | rfl
    | with_reducible exact MemOk.pair ‹_› ‹_› | split | dsimp only

theorem ckptResAct_memOk {d : Dev} {c : Caller} {p : List Byte} (h0 : MemOk d) : MemOk (ckptResAct d c p).1 := by
  unfold ckptResAct
  try dsimp only
  repeat' first
    | intro _ | with_reducible assumption | with_reducible apply MemOk.ite | with_reducible apply MemOk.foldl
    | (with_reducible apply MemOk.keep Dev.answer_foot; decide) | with_reducible apply Dev.complete_memOk | exact Mem.setLine_wf _ _ _ ‹_›
    | exact Mem.clear_wf _ _ ‹_› | exact Mem.load_wf _ (Mem.clear_wf _ _ ‹_›) | exact Mem.setByte_wf _ _ ‹_› | rfl
    | with_reducible exact MemOk.pair ‹_› ‹_› | split | dsimp only

theorem bedrockAct_memOk {d : Dev} {c : Caller} {x2 : List Byte} (h0 : MemOk d) : MemOk (bedrockAct d c x2).1 := by
  unfold bedrockAct
  try dsimp only
  repeat' first
    | intro _ | with_reducible assumption | with_reducible apply MemOk.ite | with_reducible apply MemOk.foldl
    | (with_reducible apply MemOk.keep Dev.onRecs_foot; decide) | (with_reducible apply MemOk.keep Dev.respond_foot; decide)
    | with_reducible apply Dev.trigger_memOk | exact Mem.setLine_wf _ _ _ ‹_› | exact Mem.clear_wf _ _ ‹_›
    | exact Mem.load_wf _ (Mem.clear_wf _ _ ‹_›) | exact Mem.setByte_wf _ _ ‹_› | rfl | with_reducible exact MemOk.pair ‹_› ‹_› | split | dsimp only

theorem Dev.poisonCmd_memOk {d : Dev} {h op dpa cmd : Nat} {data : BitVec 512} (h0 : MemOk d) : MemOk (Dev.poisonCmd d h op dpa cmd data) := by
  unfold Dev.poisonCmd
  try dsimp only
  repeat' first
    | intro _ | with_reducible assumption | with_reducible apply MemOk.ite | with_reducible apply MemOk.foldl
    | (with_reducible apply MemOk.keep Dev.onExpo_foot; decide) | (with_reducible apply MemOk.keep Dev.cxlRespond_foot; decide)
    | with_reducible apply Dev.admitReq_memOk | exact Mem.setLine_wf _ _ _ ‹_› | exact Mem.clear_wf _ _ ‹_›
    | exact Mem.load_wf _ (Mem.clear_wf _ _ ‹_›) | exact Mem.setByte_wf _ _ ‹_› | rfl | with_reducible exact MemOk.pair ‹_› ‹_› | split | dsimp only

theorem jcsRow_memOk {op : Nat} {d : Dev} {c : Caller} {p : List Byte} (h0 : MemOk d) : MemOk ((jcsRow op).2 d c p).1 := by
  unfold jcsRow
  split
  · show MemOk (capAct d c p).1
    exact MemOk.keep capAct_foot (by decide) h0
  · show MemOk (identAct d c p).1
    exact MemOk.keep identAct_foot (by decide) h0
  · show MemOk (dwAct d c p).1
    exact MemOk.keep dwAct_foot (by decide) h0
  · show MemOk (bgStatAct d c p).1
    exact MemOk.keep bgStatAct_foot (by decide) h0
  · show MemOk (createAct d c p).1
    exact createAct_memOk h0
  · show MemOk (assignAct d c p).1
    exact assignAct_memOk h0
  · show MemOk (releaseAct d c p).1
    exact releaseAct_memOk h0
  · show MemOk (classAct d c p).1
    exact classAct_memOk h0
  · show MemOk (ownerAct d c p).1
    exact ownerAct_memOk h0
  · show MemOk (disableAct d c p).1
    exact disableAct_memOk h0
  · show MemOk (enableAct d c p).1
    exact enableAct_memOk h0
  · show MemOk (sanitizeAct d c p).1
    exact MemOk.keep sanitizeAct_foot (by decide) h0
  · show MemOk (getCtxAct d c p).1
    exact MemOk.keep getCtxAct_foot (by decide) h0
  · show MemOk (retainAct d c p).1
    exact retainAct_memOk h0
  · show MemOk (meterAct d c p).1
    exact MemOk.keep meterAct_foot (by decide) h0
  · show MemOk (listCtxAct d c p).1
    exact MemOk.keep listCtxAct_foot (by decide) h0
  · show MemOk (ringAct d c p).1
    exact MemOk.keep ringAct_foot (by decide) h0
  · show MemOk (ringOffAct d c p).1
    exact ringOffAct_memOk h0
  · show MemOk (ringIntAct d c p).1
    exact MemOk.keep ringIntAct_foot (by decide) h0
  · show MemOk (getRingAct d c p).1
    exact MemOk.keep getRingAct_foot (by decide) h0
  · show MemOk (expoAct d c p).1
    exact MemOk.keep expoAct_foot (by decide) h0
  · show MemOk (expoPolicyAct d c p).1
    exact MemOk.keep expoPolicyAct_foot (by decide) h0
  · show MemOk (getPolicyAct d c p).1
    exact MemOk.keep getPolicyAct_foot (by decide) h0
  · show MemOk (lapseAct d c p).1
    exact MemOk.keep lapseAct_foot (by decide) h0
  · show MemOk (gaugeAct d c p).1
    exact MemOk.keep gaugeAct_foot (by decide) h0
  · show MemOk (relReqAct d c p).1
    exact MemOk.keep relReqAct_foot (by decide) h0
  · show MemOk (holdAct d c p).1
    exact MemOk.keep holdAct_foot (by decide) h0
  · show MemOk (capTestAct d c p).1
    exact MemOk.keep capTestAct_foot (by decide) h0
  · show MemOk (testSealAct d c p).1
    exact MemOk.keep testSealAct_foot (by decide) h0
  · show MemOk (enPolicyAct d c p).1
    exact MemOk.keep enPolicyAct_foot (by decide) h0
  · show MemOk (bayParAct d c p).1
    exact MemOk.keep bayParAct_foot (by decide) h0
  · show MemOk (bridgeParAct d c p).1
    exact MemOk.keep bridgeParAct_foot (by decide) h0
  · show MemOk (chemAct d c p).1
    exact MemOk.keep chemAct_foot (by decide) h0
  · show MemOk (gaugeRecAct d c p).1
    exact MemOk.keep gaugeRecAct_foot (by decide) h0
  · show MemOk (thermAct d c p).1
    exact MemOk.keep thermAct_foot (by decide) h0
  · show MemOk (thermSetAct d c p).1
    exact MemOk.keep thermSetAct_foot (by decide) h0
  · show MemOk (boardAct d c p).1
    exact MemOk.keep boardAct_foot (by decide) h0
  · show MemOk (thermRecAct d c p).1
    exact MemOk.keep thermRecAct_foot (by decide) h0
  · show MemOk (logAct d c p).1
    exact MemOk.keep logAct_foot (by decide) h0
  · show MemOk (ffAct d c p).1
    exact MemOk.keep ffAct_foot (by decide) h0
  · show MemOk (ackAct d c p).1
    exact MemOk.keep ackAct_foot (by decide) h0
  · show MemOk (injectAct d c p).1
    exact injectAct_memOk h0
  · show MemOk (holdTfAct d c p).1
    exact MemOk.keep holdTfAct_foot (by decide) h0
  · show MemOk (countsAct d c p).1
    exact MemOk.keep countsAct_foot (by decide) h0
  · show MemOk (snapAct d c p).1
    exact MemOk.keep snapAct_foot (by decide) h0
  · show MemOk (schedAct d c p).1
    exact MemOk.keep schedAct_foot (by decide) h0
  · show MemOk (latSnapAct d c p).1
    exact MemOk.keep latSnapAct_foot (by decide) h0
  · show MemOk (readSnapAct d c p).1
    exact MemOk.keep readSnapAct_foot (by decide) h0
  · show MemOk (relBankAct d c p).1
    exact MemOk.keep relBankAct_foot (by decide) h0
  · show MemOk (cancelAct d c p).1
    exact MemOk.keep cancelAct_foot (by decide) h0
  · show MemOk (timeAct d c p).1
    exact MemOk.keep timeAct_foot (by decide) h0
  · show MemOk (offsetAct d c p).1
    exact MemOk.keep offsetAct_foot (by decide) h0
  · show MemOk (timeOptAct d c p).1
    exact MemOk.keep timeOptAct_foot (by decide) h0
  · show MemOk (getLatAct d c p).1
    exact MemOk.keep getLatAct_foot (by decide) h0
  · show MemOk (setLinkAct d c p).1
    exact MemOk.keep setLinkAct_foot (by decide) h0
  · show MemOk (grantAct d c p).1
    exact MemOk.keep grantAct_foot (by decide) h0
  · show MemOk (replicaAct d c p).1
    exact MemOk.keep replicaAct_foot (by decide) h0
  · show MemOk (ctlReplicaAct d c p).1
    exact MemOk.keep ctlReplicaAct_foot (by decide) h0
  · show MemOk (streamAct d c p).1
    exact MemOk.keep streamAct_foot (by decide) h0
  · show MemOk (migrateAct d c p).1
    exact MemOk.keep migrateAct_foot (by decide) h0
  · show MemOk (ctlMigAct d c p).1
    exact ctlMigAct_memOk h0
  · show MemOk (ckptAct d c p).1
    exact ckptAct_memOk h0
  · show MemOk (ckptResAct d c p).1
    exact ckptResAct_memOk h0
  · show MemOk (ranksAct d c p).1
    exact MemOk.keep ranksAct_foot (by decide) h0
  · show MemOk (rowFaultsAct d c p).1
    exact MemOk.keep rowFaultsAct_foot (by decide) h0
  · show MemOk (retireAct d c p).1
    exact MemOk.keep retireAct_foot (by decide) h0
  · show MemOk (returnAct d c p).1
    exact MemOk.keep returnAct_foot (by decide) h0
  · show MemOk (dramCfgAct d c p).1
    exact MemOk.keep dramCfgAct_foot (by decide) h0
  · show MemOk (strataAct d c p).1
    exact MemOk.keep strataAct_foot (by decide) h0
  · show MemOk (lifeAct d c p).1
    exact MemOk.keep lifeAct_foot (by decide) h0
  · show MemOk (strataListAct d c p).1
    exact MemOk.keep strataListAct_foot (by decide) h0
  · show MemOk (strataRelAct d c p).1
    exact MemOk.keep strataRelAct_foot (by decide) h0
  · show MemOk (damageAct d c p).1
    exact MemOk.keep damageAct_foot (by decide) h0
  · show MemOk (acquireAct d c p).1
    exact MemOk.keep acquireAct_foot (by decide) h0
  · show MemOk (leaseRelAct d c p).1
    exact MemOk.keep leaseRelAct_foot (by decide) h0
  · show MemOk (leaseQueryAct d c p).1
    exact MemOk.keep leaseQueryAct_foot (by decide) h0
  · show MemOk (breakAct d c p).1
    exact MemOk.keep breakAct_foot (by decide) h0
  · show MemOk (restoreAct d c p).1
    exact MemOk.keep restoreAct_foot (by decide) h0
  · show MemOk (poisonAct d c p).1
    exact MemOk.keep poisonAct_foot (by decide) h0
  · show MemOk (sealRecAct d c p).1
    exact MemOk.keep sealRecAct_foot (by decide) h0
  · show MemOk (updStatAct d c p).1
    exact MemOk.keep updStatAct_foot (by decide) h0
  · show MemOk (updPolAct d c p).1
    exact MemOk.keep updPolAct_foot (by decide) h0
  · show MemOk (confirmAct d c p).1
    exact MemOk.keep confirmAct_foot (by decide) h0
  · show MemOk (bedrockAct d c p).1
    exact bedrockAct_memOk h0
  · exact h0

theorem Dev.jcsRun_memOk {d : Dev} {op : Nat} {c : Caller} {p : List Byte} (h0 : MemOk d) : MemOk (Dev.jcsRun d op c p) := by
  unfold Dev.jcsRun
  exact Dev.jcsDo_memOk (fun e h => jcsRow_memOk h) h0

theorem Dev.submit_memOk {d : Dev} {c : Caller} {op : Nat} {p : List Byte} (h0 : MemOk d) : MemOk (Dev.submit d c op p) := by
  unfold Dev.submit
  try dsimp only
  repeat' first
    | intro _ | with_reducible assumption | with_reducible apply MemOk.ite | with_reducible apply MemOk.foldl
    | (with_reducible apply MemOk.keep Dev.onJcs_foot; decide) | (with_reducible apply MemOk.keep Dev.respond_foot; decide)
    | with_reducible apply Dev.jcsRun_memOk | (with_reducible apply MemOk.keep Dev.mirrorNow_foot; decide) | exact Mem.setLine_wf _ _ _ ‹_›
    | exact Mem.clear_wf _ _ ‹_› | exact Mem.load_wf _ (Mem.clear_wf _ _ ‹_›) | exact Mem.setByte_wf _ _ ‹_› | rfl
    | with_reducible exact MemOk.pair ‹_› ‹_› | split | dsimp only

end Sys2Proof.Machine
end

