-- ==== Sys2Proof/Laws/Rows.lean ====
section
/-! SUPPORT. Every row's meaning answers a next state, keeps the queue, and changes no part but those named. -/

set_option linter.unreachableTactic false
set_option linter.unusedTactic false
set_option linter.unusedVariables false

namespace Sys2Proof.Machine

theorem execAck_foot {l : Fin 6} {fseq : BitVec 8} {dt : Nat} {s : State} : ∃ s', execAck l fseq dt s = .next s' ∧ s'.pending = s.pending ∧ ChangesOnly [.qtz, .lat, .out] s.dev s'.dev := by
  unfold execAck State.run
  refine ⟨_, rfl, rfl, ?_⟩
  try dsimp only
  repeat' first
    | intro _ | with_reducible exact .refl _ _ | with_reducible assumption | with_reducible apply ChangesOnly.ite
    | with_reducible apply ChangesOnly.foldl | (with_reducible apply ChangesOnly.step Dev.elapse_foot; decide)
    | (with_reducible apply ChangesOnly.step Dev.onLink_foot; decide) | (with_reducible apply ChangesOnly.step Dev.pump_foot; decide)
    | with_reducible exact .pair ‹_› ‹_› | split | dsimp only

theorem execNak_foot {l : Fin 6} {fseq : BitVec 8} {dt : Nat} {s : State} : ∃ s', execNak l fseq dt s = .next s' ∧ s'.pending = s.pending ∧ ChangesOnly [.flint, .qtz, .lat, .out] s.dev s'.dev := by
  unfold execNak State.run
  refine ⟨_, rfl, rfl, ?_⟩
  try dsimp only
  repeat' first
    | intro _ | with_reducible exact .refl _ _ | with_reducible assumption | with_reducible apply ChangesOnly.ite
    | with_reducible apply ChangesOnly.foldl | (with_reducible apply ChangesOnly.step Dev.elapse_foot; decide)
    | (with_reducible apply ChangesOnly.step Dev.onLink_foot; decide) | (with_reducible apply ChangesOnly.step Dev.replay_foot; decide)
    | (with_reducible apply ChangesOnly.step Dev.pump_foot; decide) | with_reducible exact .pair ‹_› ‹_› | split | dsimp only

theorem execAckSend_foot {l : Fin 6} {dt : Nat} {s : State} : ∃ s', execAckSend l dt s = .next s' ∧ s'.pending = s.pending ∧ ChangesOnly [.qtz, .lat, .out] s.dev s'.dev := by
  unfold execAckSend State.run
  refine ⟨_, rfl, rfl, ?_⟩
  try dsimp only
  repeat' first
    | intro _ | with_reducible exact .refl _ _ | with_reducible assumption | with_reducible apply ChangesOnly.ite
    | with_reducible apply ChangesOnly.foldl | (with_reducible apply ChangesOnly.step Dev.elapse_foot; decide)
    | (with_reducible apply ChangesOnly.step Dev.emit_foot; decide) | (with_reducible apply ChangesOnly.step Dev.onLink_foot; decide)
    | with_reducible exact .pair ‹_› ‹_› | split | dsimp only

theorem execReplayTimeout_foot {l : Fin 6} {dt : Nat} {s : State} : ∃ s', execReplayTimeout l dt s = .next s' ∧ s'.pending = s.pending ∧ ChangesOnly [.flint, .qtz, .lat, .out] s.dev s'.dev := by
  unfold execReplayTimeout State.run
  refine ⟨_, rfl, rfl, ?_⟩
  try dsimp only
  repeat' first
    | intro _ | with_reducible exact .refl _ _ | with_reducible assumption | with_reducible apply ChangesOnly.ite
    | with_reducible apply ChangesOnly.foldl | (with_reducible apply ChangesOnly.step Dev.elapse_foot; decide)
    | (with_reducible apply ChangesOnly.step Dev.replay_foot; decide) | with_reducible exact .pair ‹_› ‹_› | split | dsimp only

theorem execCreditReturn_foot {l : Fin 6} {vl : Fin 4} {n : Nat} {dt : Nat} {s : State} : ∃ s', execCreditReturn l vl n dt s = .next s' ∧ s'.pending = s.pending ∧ ChangesOnly [.qtz, .lat, .out] s.dev s'.dev := by
  unfold execCreditReturn State.run
  refine ⟨_, rfl, rfl, ?_⟩
  try dsimp only
  repeat' first
    | intro _ | with_reducible exact .refl _ _ | with_reducible assumption | with_reducible apply ChangesOnly.ite
    | with_reducible apply ChangesOnly.foldl | (with_reducible apply ChangesOnly.step Dev.elapse_foot; decide)
    | (with_reducible apply ChangesOnly.step Dev.onLink_foot; decide) | (with_reducible apply ChangesOnly.step Dev.pump_foot; decide)
    | with_reducible exact .pair ‹_› ‹_› | split | dsimp only

theorem execCreditWaitDiscard_foot {l : Fin 6} {dt : Nat} {s : State} : ∃ s', execCreditWaitDiscard l dt s = .next s' ∧ s'.pending = s.pending ∧ ChangesOnly [.flint, .qtz, .lat] s.dev s'.dev := by
  unfold execCreditWaitDiscard State.run
  refine ⟨_, rfl, rfl, ?_⟩
  try dsimp only
  repeat' first
    | intro _ | with_reducible exact .refl _ _ | with_reducible assumption | with_reducible apply ChangesOnly.ite
    | with_reducible apply ChangesOnly.foldl | (with_reducible apply ChangesOnly.step Dev.elapse_foot; decide)
    | (with_reducible apply ChangesOnly.step Dev.onLink_foot; decide) | (with_reducible apply ChangesOnly.step Dev.latDiscard_foot; decide)
    | with_reducible exact .pair ‹_› ‹_› | split | dsimp only

theorem execFrameForward_foot {l : Fin 6} {good : Bool} {fseq : BitVec 8} {dst src : BitVec 12} {vl : Fin 4} {svc : BitVec 5} {ttl : BitVec 6} {som eom : Bool} {uid : Nat} {body : List Nat} {dt : Nat} {s : State} : ∃ s', execFrameForward l good fseq dst src vl svc ttl som eom uid body dt s = .next s' ∧ s'.pending = s.pending ∧ ChangesOnly [.flint, .qtz, .lat, .out] s.dev s'.dev := by
  unfold execFrameForward State.run
  refine ⟨_, rfl, rfl, ?_⟩
  try dsimp only
  repeat' first
    | intro _ | with_reducible exact .refl _ _ | with_reducible assumption | with_reducible apply ChangesOnly.ite
    | with_reducible apply ChangesOnly.foldl | (with_reducible apply ChangesOnly.step Dev.elapse_foot; decide)
    | (with_reducible apply ChangesOnly.step Dev.emit_foot; decide) | (with_reducible apply ChangesOnly.step Dev.onLink_foot; decide)
    | (with_reducible apply ChangesOnly.step Dev.rxFrames_foot; decide) | (with_reducible apply ChangesOnly.step Dev.route_foot; decide)
    | with_reducible exact .pair ‹_› ‹_› | split | dsimp only

theorem execCapacityTestDue_foot {b : Fin 2} {dt : Nat} {s : State} : ∃ s', execCapacityTestDue b dt s = .next s' ∧ s'.pending = s.pending ∧ ChangesOnly [.energy, .qtz, .dw] s.dev s'.dev := by
  unfold execCapacityTestDue State.run
  refine ⟨_, rfl, rfl, ?_⟩
  try dsimp only
  repeat' first
    | intro _ | with_reducible exact .refl _ _ | with_reducible assumption | with_reducible apply ChangesOnly.ite
    | with_reducible apply ChangesOnly.foldl | (with_reducible apply ChangesOnly.step Dev.elapse_foot; decide)
    | (with_reducible apply ChangesOnly.step Dev.startTest_foot; decide) | (with_reducible apply ChangesOnly.step Dev.onBay_foot; decide)
    | with_reducible exact .pair ‹_› ‹_› | split | dsimp only

theorem execPackFaultCleared_foot {b : Fin 2} {dt : Nat} {s : State} : ∃ s', execPackFaultCleared b dt s = .next s' ∧ s'.pending = s.pending ∧ ChangesOnly [.expo, .energy, .flint, .qtz, .dw] s.dev s'.dev := by
  unfold execPackFaultCleared State.run
  refine ⟨_, rfl, rfl, ?_⟩
  try dsimp only
  repeat' first
    | intro _ | with_reducible exact .refl _ _ | with_reducible assumption | with_reducible apply ChangesOnly.ite
    | with_reducible apply ChangesOnly.foldl | (with_reducible apply ChangesOnly.step Dev.elapse_foot; decide)
    | (with_reducible apply ChangesOnly.step Dev.onSrc_foot; decide) | (with_reducible apply ChangesOnly.step Dev.bayDo_foot; decide)
    | (with_reducible apply ChangesOnly.step Dev.bayEvent_foot; decide) | (with_reducible apply ChangesOnly.step Dev.govTrigger_foot; decide)
    | with_reducible exact .pair ‹_› ‹_› | split | dsimp only

theorem execGaugeSample_foot {samples : List (Nat × Int × Nat × Nat)} {cv : BitVec 2} {dt : Nat} {s : State} : ∃ s', execGaugeSample samples cv dt s = .next s' ∧ s'.pending = s.pending ∧ ChangesOnly [.expo, .sealing, .energy, .flint, .qtz, .mirror, .dw] s.dev s'.dev := by
  unfold execGaugeSample State.run
  refine ⟨_, rfl, rfl, ?_⟩
  try dsimp only
  repeat' first
    | intro _ | with_reducible exact .refl _ _ | with_reducible assumption | with_reducible apply ChangesOnly.ite
    | with_reducible apply ChangesOnly.foldl | (with_reducible apply ChangesOnly.step Dev.onEnergy_foot; decide)
    | (with_reducible apply ChangesOnly.step Dev.elapse_foot; decide) | (with_reducible apply ChangesOnly.step Dev.takeSample_foot; decide)
    | (with_reducible apply ChangesOnly.step Dev.countDown_foot; decide) | (with_reducible apply ChangesOnly.step Dev.countCharge_foot; decide)
    | (with_reducible apply ChangesOnly.step Dev.calRun_foot; decide) | (with_reducible apply ChangesOnly.step Dev.restRun_foot; decide)
    | (with_reducible apply ChangesOnly.step Dev.packChecks_foot; decide) | (with_reducible apply ChangesOnly.step Dev.bridgeChecks_foot; decide)
    | (with_reducible apply ChangesOnly.step Dev.chargeEnd_foot; decide) | (with_reducible apply ChangesOnly.step Dev.interruptStep_foot; decide)
    | (with_reducible apply ChangesOnly.step Dev.testRate_foot; decide) | (with_reducible apply ChangesOnly.step Dev.disqualify_foot; decide)
    | (with_reducible apply ChangesOnly.step Dev.mirrorNow_foot; decide) | with_reducible exact .pair ‹_› ‹_› | split | dsimp only

theorem execOffsetCalibration_foot {b : Fin 2} {mean : Int} {dt : Nat} {s : State} : ∃ s', execOffsetCalibration b mean dt s = .next s' ∧ s'.pending = s.pending ∧ ChangesOnly [.energy, .qtz] s.dev s'.dev := by
  unfold execOffsetCalibration State.run
  refine ⟨_, rfl, rfl, ?_⟩
  try dsimp only
  repeat' first
    | intro _ | with_reducible exact .refl _ _ | with_reducible assumption | with_reducible apply ChangesOnly.ite
    | with_reducible apply ChangesOnly.foldl | (with_reducible apply ChangesOnly.step Dev.onEnergy_foot; decide)
    | (with_reducible apply ChangesOnly.step Dev.elapse_foot; decide) | (with_reducible apply ChangesOnly.step Dev.onSrc_foot; decide)
    | with_reducible exact .pair ‹_› ‹_› | split | dsimp only

theorem execEstimatorRecompute_foot {dt : Nat} {s : State} : ∃ s', execEstimatorRecompute dt s = .next s' ∧ s'.pending = s.pending ∧ ChangesOnly [.pkg, .expo, .energy, .qtz, .dw] s.dev s'.dev := by
  unfold execEstimatorRecompute State.run
  refine ⟨_, rfl, rfl, ?_⟩
  try dsimp only
  repeat' first
    | intro _ | with_reducible exact .refl _ _ | with_reducible assumption | with_reducible apply ChangesOnly.ite
    | with_reducible apply ChangesOnly.foldl | (with_reducible apply ChangesOnly.step Dev.elapse_foot; decide)
    | with_reducible apply Dev.periodic_foot (by decide) | (with_reducible apply ChangesOnly.step Dev.sigGrow_foot; decide)
    | (with_reducible apply ChangesOnly.step Dev.estimatePack_foot; decide) | (with_reducible apply ChangesOnly.step Dev.recount_foot; decide)
    | (with_reducible apply ChangesOnly.step Dev.estimateBridge_foot; decide) | (with_reducible apply ChangesOnly.step Dev.viewPack_foot; decide)
    | (with_reducible apply ChangesOnly.step Dev.chargeStep_foot; decide) | (with_reducible apply ChangesOnly.step Dev.bayUpd_foot; decide)
    | (with_reducible apply ChangesOnly.step Dev.bridgeView_foot; decide) | (with_reducible apply ChangesOnly.step Dev.viewUpd_foot; decide)
    | with_reducible exact .pair ‹_› ‹_› | split | dsimp only

theorem execQualifiedRestEnd_foot {b : Fin 2} {vOc : Nat} {dt : Nat} {s : State} : ∃ s', execQualifiedRestEnd b vOc dt s = .next s' ∧ s'.pending = s.pending ∧ ChangesOnly [.energy, .flint, .qtz, .dw] s.dev s'.dev := by
  unfold execQualifiedRestEnd State.run
  refine ⟨_, rfl, rfl, ?_⟩
  try dsimp only
  repeat' first
    | intro _ | with_reducible exact .refl _ _ | with_reducible assumption | with_reducible apply ChangesOnly.ite
    | with_reducible apply ChangesOnly.foldl | (with_reducible apply ChangesOnly.step Dev.onEnergy_foot; decide)
    | (with_reducible apply ChangesOnly.step Dev.elapse_foot; decide) | (with_reducible apply ChangesOnly.step Dev.bayDo_foot; decide)
    | (with_reducible apply ChangesOnly.step Dev.bayEvent_foot; decide) | with_reducible exact .pair ‹_› ‹_› | split | dsimp only

theorem execDcirMeasurement_foot {b : Fin 2} {dv di : Nat} {dt : Nat} {s : State} : ∃ s', execDcirMeasurement b dv di dt s = .next s' ∧ s'.pending = s.pending ∧ ChangesOnly [.expo, .energy, .flint, .qtz, .dw] s.dev s'.dev := by
  unfold execDcirMeasurement State.run
  refine ⟨_, rfl, rfl, ?_⟩
  try dsimp only
  repeat' first
    | intro _ | with_reducible exact .refl _ _ | with_reducible assumption | with_reducible apply ChangesOnly.ite
    | with_reducible apply ChangesOnly.foldl | (with_reducible apply ChangesOnly.step Dev.onEnergy_foot; decide)
    | (with_reducible apply ChangesOnly.step Dev.elapse_foot; decide) | (with_reducible apply ChangesOnly.step Dev.onBay_foot; decide)
    | (with_reducible apply ChangesOnly.step Dev.packFault_foot; decide) | with_reducible exact .pair ‹_› ‹_› | split | dsimp only

theorem execBridgeChargeMeasured_foot {v0 v1 q esr : Nat} {steady : Bool} {dt : Nat} {s : State} : ∃ s', execBridgeChargeMeasured v0 v1 q esr steady dt s = .next s' ∧ s'.pending = s.pending ∧ ChangesOnly [.expo, .energy, .flint, .qtz] s.dev s'.dev := by
  unfold execBridgeChargeMeasured State.run
  refine ⟨_, rfl, rfl, ?_⟩
  try dsimp only
  repeat' first
    | intro _ | with_reducible exact .refl _ _ | with_reducible assumption | with_reducible apply ChangesOnly.ite
    | with_reducible apply ChangesOnly.foldl | (with_reducible apply ChangesOnly.step Dev.onEnergy_foot; decide)
    | (with_reducible apply ChangesOnly.step Dev.elapse_foot; decide) | (with_reducible apply ChangesOnly.step Dev.bridgeFault_foot; decide)
    | with_reducible exact .pair ‹_› ‹_› | split | dsimp only

theorem execPackFirstEstimate_foot {b : Fin 2} {mv : Nat} {dt : Nat} {s : State} : ∃ s', execPackFirstEstimate b mv dt s = .next s' ∧ s'.pending = s.pending ∧ ChangesOnly [.expo, .energy, .flint, .qtz, .slate, .dw] s.dev s'.dev := by
  unfold execPackFirstEstimate State.run
  refine ⟨_, rfl, rfl, ?_⟩
  try dsimp only
  repeat' first
    | intro _ | with_reducible exact .refl _ _ | with_reducible assumption | with_reducible apply ChangesOnly.ite
    | with_reducible apply ChangesOnly.foldl | (with_reducible apply ChangesOnly.step Dev.elapse_foot; decide)
    | (with_reducible apply ChangesOnly.step Dev.packFault_foot; decide) | (with_reducible apply ChangesOnly.step Dev.onBay_foot; decide)
    | (with_reducible apply ChangesOnly.step Dev.onSrc_foot; decide) | (with_reducible apply ChangesOnly.step Dev.estimatePack_foot; decide)
    | (with_reducible apply ChangesOnly.step Dev.viewPack_foot; decide) | (with_reducible apply ChangesOnly.step Dev.bayUpd_foot; decide)
    | (with_reducible apply ChangesOnly.step Dev.bayEvent_foot; decide) | (with_reducible apply ChangesOnly.step Dev.govTrigger_foot; decide)
    | (with_reducible apply ChangesOnly.step Dev.gaugeDue_foot; decide) | with_reducible exact .pair ‹_› ‹_› | split | dsimp only

theorem execChargeTimeout_foot {b : Fin 2} {dt : Nat} {s : State} : ∃ s', execChargeTimeout b dt s = .next s' ∧ s'.pending = s.pending ∧ ChangesOnly [.expo, .energy, .flint, .qtz, .dw] s.dev s'.dev := by
  unfold execChargeTimeout State.run
  refine ⟨_, rfl, rfl, ?_⟩
  try dsimp only
  repeat' first
    | intro _ | with_reducible exact .refl _ _ | with_reducible assumption | with_reducible apply ChangesOnly.ite
    | with_reducible apply ChangesOnly.foldl | (with_reducible apply ChangesOnly.step Dev.elapse_foot; decide)
    | (with_reducible apply ChangesOnly.step Dev.packFault_foot; decide) | with_reducible exact .pair ‹_› ‹_› | split | dsimp only

theorem execCapacityTestStep_foot {b : Fin 2} {dt : Nat} {s : State} : ∃ s', execCapacityTestStep b dt s = .next s' ∧ s'.pending = s.pending ∧ ChangesOnly [.expo, .energy, .flint, .qtz, .slate, .dw] s.dev s'.dev := by
  unfold execCapacityTestStep State.run
  refine ⟨_, rfl, rfl, ?_⟩
  try dsimp only
  repeat' first
    | intro _ | with_reducible exact .refl _ _ | with_reducible assumption | with_reducible apply ChangesOnly.ite
    | with_reducible apply ChangesOnly.foldl | (with_reducible apply ChangesOnly.step Dev.elapse_foot; decide)
    | (with_reducible apply ChangesOnly.step Dev.bayDo_foot; decide) | (with_reducible apply ChangesOnly.step Dev.testResult_foot; decide)
    | (with_reducible apply ChangesOnly.step Dev.packFault_foot; decide) | with_reducible exact .pair ‹_› ‹_› | split | dsimp only

theorem execGaugeRecordWrite_foot {dt : Nat} {s : State} : ∃ s', execGaugeRecordWrite dt s = .next s' ∧ s'.pending = s.pending ∧ ChangesOnly [.energy, .qtz, .slate, .freeN] s.dev s'.dev := by
  unfold execGaugeRecordWrite State.run
  refine ⟨_, rfl, rfl, ?_⟩
  try dsimp only
  repeat' first
    | intro _ | with_reducible exact .refl _ _ | with_reducible assumption | with_reducible apply ChangesOnly.ite
    | with_reducible apply ChangesOnly.foldl | (with_reducible apply ChangesOnly.step Dev.onEnergy_foot; decide)
    | (with_reducible apply ChangesOnly.step Dev.elapse_foot; decide) | (with_reducible apply ChangesOnly.step Dev.recDue_foot; decide)
    | (with_reducible apply ChangesOnly.step Dev.gaugeWrite_foot; decide) | with_reducible exact .pair ‹_› ‹_› | split | dsimp only

theorem execSlotAssistUpdate_foot {drawMw : Nat} {dt : Nat} {s : State} : ∃ s', execSlotAssistUpdate drawMw dt s = .next s' ∧ s'.pending = s.pending ∧ ChangesOnly [.energy, .flint, .qtz, .dw] s.dev s'.dev := by
  unfold execSlotAssistUpdate State.run
  refine ⟨_, rfl, rfl, ?_⟩
  try dsimp only
  repeat' first
    | intro _ | with_reducible exact .refl _ _ | with_reducible assumption | with_reducible apply ChangesOnly.ite
    | with_reducible apply ChangesOnly.foldl | (with_reducible apply ChangesOnly.step Dev.onEnergy_foot; decide)
    | (with_reducible apply ChangesOnly.step Dev.elapse_foot; decide) | (with_reducible apply ChangesOnly.step Dev.bayUpd_foot; decide)
    | (with_reducible apply ChangesOnly.step Dev.onBay_foot; decide) | (with_reducible apply ChangesOnly.step Dev.raise_foot; decide)
    | with_reducible exact .pair ‹_› ‹_› | split | dsimp only

theorem execForcedRestDue_foot {dt : Nat} {s : State} : ∃ s', execForcedRestDue dt s = .next s' ∧ s'.pending = s.pending ∧ ChangesOnly [.energy, .flint, .qtz, .dw] s.dev s'.dev := by
  unfold execForcedRestDue State.run
  refine ⟨_, rfl, rfl, ?_⟩
  try dsimp only
  repeat' first
    | intro _ | with_reducible exact .refl _ _ | with_reducible assumption | with_reducible apply ChangesOnly.ite
    | with_reducible apply ChangesOnly.foldl | (with_reducible apply ChangesOnly.step Dev.onEnergy_foot; decide)
    | (with_reducible apply ChangesOnly.step Dev.elapse_foot; decide) | (with_reducible apply ChangesOnly.step Dev.bayDo_foot; decide)
    | (with_reducible apply ChangesOnly.step Dev.bayEvent_foot; decide) | with_reducible exact .pair ‹_› ‹_› | split | dsimp only

theorem execBayTouch_foot {b : Fin 2} {dt : Nat} {s : State} : ∃ s', execBayTouch b dt s = .next s' ∧ s'.pending = s.pending ∧ ChangesOnly [.expo, .energy, .flint, .qtz, .panel, .dw] s.dev s'.dev := by
  unfold execBayTouch State.run
  refine ⟨_, rfl, rfl, ?_⟩
  try dsimp only
  repeat' first
    | intro _ | with_reducible exact .refl _ _ | with_reducible assumption | with_reducible apply ChangesOnly.ite
    | with_reducible apply ChangesOnly.foldl | (with_reducible apply ChangesOnly.step Dev.onPanel_foot; decide)
    | (with_reducible apply ChangesOnly.step Dev.onExpo_foot; decide) | (with_reducible apply ChangesOnly.step Dev.elapse_foot; decide)
    | (with_reducible apply ChangesOnly.step Dev.bayDo_foot; decide) | (with_reducible apply ChangesOnly.step Dev.govTrigger_foot; decide)
    | (with_reducible apply ChangesOnly.step Dev.interruptTests_foot; decide) | with_reducible exact .pair ‹_› ‹_› | split | dsimp only

theorem execBayTouchEnd_foot {b : Fin 2} {dt : Nat} {s : State} : ∃ s', execBayTouchEnd b dt s = .next s' ∧ s'.pending = s.pending ∧ ChangesOnly [.expo, .energy, .qtz, .panel, .dw] s.dev s'.dev := by
  unfold execBayTouchEnd State.run
  refine ⟨_, rfl, rfl, ?_⟩
  try dsimp only
  repeat' first
    | intro _ | with_reducible exact .refl _ _ | with_reducible assumption | with_reducible apply ChangesOnly.ite
    | with_reducible apply ChangesOnly.foldl | (with_reducible apply ChangesOnly.step Dev.onPanel_foot; decide)
    | (with_reducible apply ChangesOnly.step Dev.onExpo_foot; decide) | (with_reducible apply ChangesOnly.step Dev.elapse_foot; decide)
    | (with_reducible apply ChangesOnly.step Dev.bayDo_foot; decide) | (with_reducible apply ChangesOnly.step Dev.govTrigger_foot; decide)
    | with_reducible exact .pair ‹_› ‹_› | split | dsimp only

theorem execTouchStuck_foot {b : Fin 2} {count : Nat} {dt : Nat} {s : State} : ∃ s', execTouchStuck b count dt s = .next s' ∧ s'.pending = s.pending ∧ ChangesOnly [.expo, .energy, .flint, .qtz, .panel, .dw] s.dev s'.dev := by
  unfold execTouchStuck State.run
  refine ⟨_, rfl, rfl, ?_⟩
  try dsimp only
  repeat' first
    | intro _ | with_reducible exact .refl _ _ | with_reducible assumption | with_reducible apply ChangesOnly.ite
    | with_reducible apply ChangesOnly.foldl | (with_reducible apply ChangesOnly.step Dev.onPanel_foot; decide)
    | (with_reducible apply ChangesOnly.step Dev.onExpo_foot; decide) | (with_reducible apply ChangesOnly.step Dev.elapse_foot; decide)
    | (with_reducible apply ChangesOnly.step Dev.bayDo_foot; decide) | (with_reducible apply ChangesOnly.step Dev.bayEvent_foot; decide)
    | (with_reducible apply ChangesOnly.step Dev.govTrigger_foot; decide) | with_reducible exact .pair ‹_› ‹_› | split | dsimp only

theorem execBayReleasePress_foot {b : Fin 2} {down : Bool} {dt : Nat} {s : State} : ∃ s', execBayReleasePress b down dt s = .next s' ∧ s'.pending = s.pending ∧ ChangesOnly [.expo, .energy, .flint, .qtz, .dw] s.dev s'.dev := by
  unfold execBayReleasePress State.run
  refine ⟨_, rfl, rfl, ?_⟩
  try dsimp only
  repeat' first
    | intro _ | with_reducible exact .refl _ _ | with_reducible assumption | with_reducible apply ChangesOnly.ite
    | with_reducible apply ChangesOnly.foldl | (with_reducible apply ChangesOnly.step Dev.elapse_foot; decide)
    | (with_reducible apply ChangesOnly.step Dev.bayDo_foot; decide) | (with_reducible apply ChangesOnly.step Dev.interruptTests_foot; decide)
    | (with_reducible apply ChangesOnly.step Dev.refusePress_foot; decide) | (with_reducible apply ChangesOnly.step Dev.grantBay_foot; decide)
    | (with_reducible apply ChangesOnly.step Dev.bayEvent_foot; decide) | (with_reducible apply ChangesOnly.step Dev.govTrigger_foot; decide)
    | (with_reducible apply ChangesOnly.step Dev.releaseAsk_foot; decide) | with_reducible exact .pair ‹_› ‹_› | split | dsimp only

theorem execBayLatchOpen_foot {b : Fin 2} {dt : Nat} {s : State} : ∃ s', execBayLatchOpen b dt s = .next s' ∧ s'.pending = s.pending ∧ ChangesOnly [.expo, .energy, .flint, .qtz, .slate, .dw] s.dev s'.dev := by
  unfold execBayLatchOpen State.run
  refine ⟨_, rfl, rfl, ?_⟩
  try dsimp only
  repeat' first
    | intro _ | with_reducible exact .refl _ _ | with_reducible assumption | with_reducible apply ChangesOnly.ite
    | with_reducible apply ChangesOnly.foldl | (with_reducible apply ChangesOnly.step Dev.elapse_foot; decide)
    | (with_reducible apply ChangesOnly.step Dev.onBay_foot; decide) | (with_reducible apply ChangesOnly.step Dev.disqualify_foot; decide)
    | (with_reducible apply ChangesOnly.step Dev.onSrc_foot; decide) | (with_reducible apply ChangesOnly.step Dev.bayDo_foot; decide)
    | (with_reducible apply ChangesOnly.step Dev.bayEvent_foot; decide) | (with_reducible apply ChangesOnly.step Dev.govTrigger_foot; decide)
    | (with_reducible apply ChangesOnly.step Dev.gaugeDue_foot; decide) | (with_reducible apply ChangesOnly.step Dev.viewUpd_foot; decide)
    | (with_reducible apply ChangesOnly.step Dev.interruptTests_foot; decide) | with_reducible exact .pair ‹_› ‹_› | split | dsimp only

theorem execBayLatchClose_foot {b : Fin 2} {dt : Nat} {s : State} : ∃ s', execBayLatchClose b dt s = .next s' ∧ s'.pending = s.pending ∧ ChangesOnly [.energy, .flint, .qtz, .dw] s.dev s'.dev := by
  unfold execBayLatchClose State.run
  refine ⟨_, rfl, rfl, ?_⟩
  try dsimp only
  repeat' first
    | intro _ | with_reducible exact .refl _ _ | with_reducible assumption | with_reducible apply ChangesOnly.ite
    | with_reducible apply ChangesOnly.foldl | (with_reducible apply ChangesOnly.step Dev.elapse_foot; decide)
    | (with_reducible apply ChangesOnly.step Dev.onBay_foot; decide) | (with_reducible apply ChangesOnly.step Dev.insertPack_foot; decide)
    | (with_reducible apply ChangesOnly.step Dev.bayDo_foot; decide) | (with_reducible apply ChangesOnly.step Dev.interruptTests_foot; decide)
    | with_reducible exact .pair ‹_› ‹_› | split | dsimp only

theorem execWaitingTimeout_foot {b : Fin 2} {dt : Nat} {s : State} : ∃ s', execWaitingTimeout b dt s = .next s' ∧ s'.pending = s.pending ∧ ChangesOnly [.expo, .energy, .flint, .qtz, .dw] s.dev s'.dev := by
  unfold execWaitingTimeout State.run
  refine ⟨_, rfl, rfl, ?_⟩
  try dsimp only
  repeat' first
    | intro _ | with_reducible exact .refl _ _ | with_reducible assumption | with_reducible apply ChangesOnly.ite
    | with_reducible apply ChangesOnly.foldl | (with_reducible apply ChangesOnly.step Dev.elapse_foot; decide)
    | (with_reducible apply ChangesOnly.step Dev.bayDo_foot; decide) | (with_reducible apply ChangesOnly.step Dev.bayEvent_foot; decide)
    | (with_reducible apply ChangesOnly.step Dev.govTrigger_foot; decide) | with_reducible exact .pair ‹_› ‹_› | split | dsimp only

theorem execGrantLapse_foot {b : Fin 2} {dt : Nat} {s : State} : ∃ s', execGrantLapse b dt s = .next s' ∧ s'.pending = s.pending ∧ ChangesOnly [.expo, .energy, .flint, .qtz, .dw] s.dev s'.dev := by
  unfold execGrantLapse State.run
  refine ⟨_, rfl, rfl, ?_⟩
  try dsimp only
  repeat' first
    | intro _ | with_reducible exact .refl _ _ | with_reducible assumption | with_reducible apply ChangesOnly.ite
    | with_reducible apply ChangesOnly.foldl | (with_reducible apply ChangesOnly.step Dev.elapse_foot; decide)
    | (with_reducible apply ChangesOnly.step Dev.bayDo_foot; decide) | (with_reducible apply ChangesOnly.step Dev.bayEvent_foot; decide)
    | (with_reducible apply ChangesOnly.step Dev.govTrigger_foot; decide) | with_reducible exact .pair ‹_› ‹_› | split | dsimp only

theorem execRefusedPressIndicationEnd_foot {b : Fin 2} {dt : Nat} {s : State} : ∃ s', execRefusedPressIndicationEnd b dt s = .next s' ∧ s'.pending = s.pending ∧ ChangesOnly [.energy, .qtz, .dw] s.dev s'.dev := by
  unfold execRefusedPressIndicationEnd State.run
  refine ⟨_, rfl, rfl, ?_⟩
  try dsimp only
  repeat' first
    | intro _ | with_reducible exact .refl _ _ | with_reducible assumption | with_reducible apply ChangesOnly.ite
    | with_reducible apply ChangesOnly.foldl | (with_reducible apply ChangesOnly.step Dev.elapse_foot; decide)
    | (with_reducible apply ChangesOnly.step Dev.bayDo_foot; decide) | with_reducible exact .pair ‹_› ‹_› | split | dsimp only

theorem execPageRecordDurable_foot {t : Fin 8} {ue : List (Nat × Nat)} {dt : Nat} {s : State} : ∃ s', execPageRecordDurable t ue dt s = .next s' ∧ s'.pending = s.pending ∧ ChangesOnly [.mem, .expo, .sealing, .strata, .flash, .ctxs, .dram, .flint, .qtz, .heads, .slate, .dw] s.dev s'.dev := by
  unfold execPageRecordDurable State.run
  refine ⟨_, rfl, rfl, ?_⟩
  try dsimp only
  repeat' first
    | intro _ | with_reducible exact .refl _ _ | with_reducible assumption | with_reducible apply ChangesOnly.ite
    | with_reducible apply ChangesOnly.foldl | (with_reducible apply ChangesOnly.step Dev.elapse_foot; decide)
    | (with_reducible apply ChangesOnly.step Dev.issue_foot; decide) | (with_reducible apply ChangesOnly.step Dev.recordDone_foot; decide)
    | (with_reducible apply ChangesOnly.step Dev.earlyDisarm_foot; decide) | (with_reducible apply ChangesOnly.step Dev.armFullCheck_foot; decide)
    | (with_reducible apply ChangesOnly.step Dev.landUe_foot; decide) | (with_reducible apply ChangesOnly.step Dev.landNext_foot; decide)
    | with_reducible exact .pair ‹_› ‹_› | split | dsimp only

theorem execRegionTableCommit_foot {g : Nat} {replBad : Bool} {dt : Nat} {s : State} : ∃ s', execRegionTableCommit g replBad dt s = .next s' ∧ s'.pending = s.pending ∧ ChangesOnly [.mem, .expo, .restore, .strata, .flash, .ctxs, .dram, .flint, .qtz, .lat, .heads, .jcs, .mirror, .dw, .out] s.dev s'.dev := by
  unfold execRegionTableCommit State.run
  refine ⟨_, rfl, rfl, ?_⟩
  try dsimp only
  repeat' first
    | intro _ | with_reducible exact .refl _ _ | with_reducible assumption | with_reducible apply ChangesOnly.ite
    | with_reducible apply ChangesOnly.foldl | (with_reducible apply ChangesOnly.step Dev.elapse_foot; decide)
    | (with_reducible apply ChangesOnly.step Dev.raise_foot; decide) | (with_reducible apply ChangesOnly.step Dev.rtCommit_foot; decide)
    | with_reducible exact .pair ‹_› ‹_› | split | dsimp only

theorem execZeroFillComplete_foot {g : Nat} {dt : Nat} {s : State} : ∃ s', execZeroFillComplete g dt s = .next s' ∧ s'.pending = s.pending ∧ ChangesOnly [.mem, .expo, .restore, .strata, .flash, .ctxs, .dram, .flint, .qtz, .lat, .heads, .jcs, .mirror, .dw, .out] s.dev s'.dev := by
  unfold execZeroFillComplete State.run
  refine ⟨_, rfl, rfl, ?_⟩
  try dsimp only
  repeat' first
    | intro _ | with_reducible exact .refl _ _ | with_reducible assumption | with_reducible apply ChangesOnly.ite
    | with_reducible apply ChangesOnly.foldl | (with_reducible apply ChangesOnly.step Dev.elapse_foot; decide)
    | (with_reducible apply ChangesOnly.step Dev.zeroGranule_foot; decide) | (with_reducible apply ChangesOnly.step Dev.rtCommit_foot; decide)
    | with_reducible exact .pair ‹_› ‹_› | split | dsimp only

theorem execDcReleaseTimeout_foot {h : Fin 2} {dt : Nat} {s : State} : ∃ s', execDcReleaseTimeout h dt s = .next s' ∧ s'.pending = s.pending ∧ ChangesOnly [.expo, .flash, .ctxs, .qtz, .heads, .jcs, .mirror] s.dev s'.dev := by
  unfold execDcReleaseTimeout State.run
  refine ⟨_, rfl, rfl, ?_⟩
  try dsimp only
  repeat' first
    | intro _ | with_reducible exact .refl _ _ | with_reducible assumption | with_reducible apply ChangesOnly.ite
    | with_reducible apply ChangesOnly.foldl | (with_reducible apply ChangesOnly.step Dev.elapse_foot; decide)
    | (with_reducible apply ChangesOnly.step Dev.onHead_foot; decide) | (with_reducible apply ChangesOnly.step Dev.dcSettle_foot; decide)
    | (with_reducible apply ChangesOnly.step Dev.bgEnd_foot; decide) | with_reducible exact .pair ‹_› ‹_› | split | dsimp only

theorem execMinuteBoundary_foot {dt : Nat} {s : State} : ∃ s', execMinuteBoundary dt s = .next s' ∧ s'.pending = s.pending ∧ ChangesOnly [.expo, .strata, .flash, .ctxs, .qtz] s.dev s'.dev := by
  unfold execMinuteBoundary State.run
  refine ⟨_, rfl, rfl, ?_⟩
  try dsimp only
  repeat' first
    | intro _ | with_reducible exact .refl _ _ | with_reducible assumption | with_reducible apply ChangesOnly.ite
    | with_reducible apply ChangesOnly.foldl | (with_reducible apply ChangesOnly.step Dev.onCtxs_foot; decide)
    | (with_reducible apply ChangesOnly.step Dev.elapse_foot; decide) | (with_reducible apply ChangesOnly.step Dev.cutMeter_foot; decide)
    | (with_reducible apply ChangesOnly.step Dev.ageStrata_foot; decide) | with_reducible exact .pair ‹_› ‹_› | split | dsimp only

theorem execMeteringWrite_foot {dt : Nat} {s : State} : ∃ s', execMeteringWrite dt s = .next s' ∧ s'.pending = s.pending ∧ ChangesOnly [.expo, .flash, .ctxs, .qtz] s.dev s'.dev := by
  unfold execMeteringWrite State.run
  refine ⟨_, rfl, rfl, ?_⟩
  try dsimp only
  repeat' first
    | intro _ | with_reducible exact .refl _ _ | with_reducible assumption | with_reducible apply ChangesOnly.ite
    | with_reducible apply ChangesOnly.foldl | (with_reducible apply ChangesOnly.step Dev.elapse_foot; decide)
    | (with_reducible apply ChangesOnly.step Dev.meterSave_foot; decide) | with_reducible exact .pair ‹_› ‹_› | split | dsimp only

theorem execCxlMemRead_foot {h : Fin 2} {hpa : Nat} {errs : List (Nat × Nat)} {replBad caErr : Bool} {resv : Option (Nat × Nat × Nat × Bool)} {dt : Nat} {s : State} : ∃ s', execCxlMemRead h hpa errs replBad caErr resv dt s = .next s' ∧ s'.pending = s.pending ∧ ChangesOnly [.mem, .expo, .restore, .flash, .ctxs, .dram, .flint, .qtz, .lat, .heads, .slate, .dw, .out] s.dev s'.dev := by
  unfold execCxlMemRead State.run
  refine ⟨_, rfl, rfl, ?_⟩
  try dsimp only
  repeat' first
    | intro _ | with_reducible exact .refl _ _ | with_reducible assumption | with_reducible apply ChangesOnly.ite
    | with_reducible apply ChangesOnly.foldl | (with_reducible apply ChangesOnly.step Dev.elapse_foot; decide)
    | (with_reducible apply ChangesOnly.step Dev.replicaReload_foot; decide) | (with_reducible apply ChangesOnly.step Dev.caError_foot; decide)
    | (with_reducible apply ChangesOnly.step Dev.reserveRepair_foot; decide) | (with_reducible apply ChangesOnly.step Dev.request_foot; decide)
    | with_reducible exact .pair ‹_› ‹_› | split | dsimp only

theorem execCxlMemWrite_foot {h : Fin 2} {hpa : Nat} {data : BitVec 512} {mask : BitVec 64} {ue : BitVec 10} {replBad : Bool} {dt : Nat} {s : State} : ∃ s', execCxlMemWrite h hpa data mask ue replBad dt s = .next s' ∧ s'.pending = s.pending ∧ ChangesOnly [.mem, .expo, .restore, .ctxs, .dram, .flint, .qtz, .lat, .heads, .slate, .dw, .out] s.dev s'.dev := by
  unfold execCxlMemWrite State.run
  refine ⟨_, rfl, rfl, ?_⟩
  try dsimp only
  repeat' first
    | intro _ | with_reducible exact .refl _ _ | with_reducible assumption | with_reducible apply ChangesOnly.ite
    | with_reducible apply ChangesOnly.foldl | (with_reducible apply ChangesOnly.step Dev.elapse_foot; decide)
    | (with_reducible apply ChangesOnly.step Dev.replicaReload_foot; decide) | (with_reducible apply ChangesOnly.step Dev.lineUe_foot; decide)
    | (with_reducible apply ChangesOnly.step Dev.request_foot; decide) | with_reducible exact .pair ‹_› ‹_› | split | dsimp only

theorem execArmBatchProgram_foot {t : Fin 8} {dt : Nat} {s : State} : ∃ s', execArmBatchProgram t dt s = .next s' ∧ s'.pending = s.pending ∧ ChangesOnly [.expo, .qtz] s.dev s'.dev := by
  unfold execArmBatchProgram State.run
  refine ⟨_, rfl, rfl, ?_⟩
  try dsimp only
  repeat' first
    | intro _ | with_reducible exact .refl _ _ | with_reducible assumption | with_reducible apply ChangesOnly.ite
    | with_reducible apply ChangesOnly.foldl | (with_reducible apply ChangesOnly.step Dev.elapse_foot; decide)
    | (with_reducible apply ChangesOnly.step Dev.startArm_foot; decide) | with_reducible exact .pair ‹_› ‹_› | split | dsimp only

theorem execArmProgramDone_foot {t : Fin 8} {dead : Bool} {dt : Nat} {s : State} : ∃ s', execArmProgramDone t dead dt s = .next s' ∧ s'.pending = s.pending ∧ ChangesOnly [.mem, .expo, .restore, .flash, .ctxs, .dram, .flint, .qtz, .lat, .heads, .dw, .out] s.dev s'.dev := by
  unfold execArmProgramDone State.run
  refine ⟨_, rfl, rfl, ?_⟩
  try dsimp only
  repeat' first
    | intro _ | with_reducible exact .refl _ _ | with_reducible assumption | with_reducible apply ChangesOnly.ite
    | with_reducible apply ChangesOnly.foldl | (with_reducible apply ChangesOnly.step Dev.elapse_foot; decide)
    | (with_reducible apply ChangesOnly.step Dev.raise_foot; decide) | (with_reducible apply ChangesOnly.step Dev.armDone_foot; decide)
    | with_reducible exact .pair ‹_› ‹_› | split | dsimp only

theorem execGroupDisarm_foot {g : Nat} {dt : Nat} {s : State} : ∃ s', execGroupDisarm g dt s = .next s' ∧ s'.pending = s.pending ∧ ChangesOnly [.expo, .flint, .qtz] s.dev s'.dev := by
  unfold execGroupDisarm State.run
  refine ⟨_, rfl, rfl, ?_⟩
  try dsimp only
  repeat' first
    | intro _ | with_reducible exact .refl _ _ | with_reducible assumption | with_reducible apply ChangesOnly.ite
    | with_reducible apply ChangesOnly.foldl | (with_reducible apply ChangesOnly.step Dev.elapse_foot; decide)
    | (with_reducible apply ChangesOnly.step Dev.disarm_foot; decide) | (with_reducible apply ChangesOnly.step Dev.armFullCheck_foot; decide)
    | (with_reducible apply ChangesOnly.step Dev.earlyDisarm_foot; decide) | with_reducible exact .pair ‹_› ‹_› | split | dsimp only

theorem execDisarmBatchProgram_foot {t : Fin 8} {dt : Nat} {s : State} : ∃ s', execDisarmBatchProgram t dt s = .next s' ∧ s'.pending = s.pending ∧ ChangesOnly [.expo, .qtz] s.dev s'.dev := by
  unfold execDisarmBatchProgram State.run
  refine ⟨_, rfl, rfl, ?_⟩
  try dsimp only
  repeat' first
    | intro _ | with_reducible exact .refl _ _ | with_reducible assumption | with_reducible apply ChangesOnly.ite
    | with_reducible apply ChangesOnly.foldl | (with_reducible apply ChangesOnly.step Dev.elapse_foot; decide)
    | (with_reducible apply ChangesOnly.step Dev.startArm_foot; decide) | with_reducible exact .pair ‹_› ‹_› | split | dsimp only

theorem execExpoStatusUpdate_foot {dt : Nat} {s : State} : ∃ s', execExpoStatusUpdate dt s = .next s' ∧ s'.pending = s.pending ∧ ChangesOnly [.pkg, .ctxs, .qtz, .dw] s.dev s'.dev := by
  unfold execExpoStatusUpdate State.run
  refine ⟨_, rfl, rfl, ?_⟩
  try dsimp only
  repeat' first
    | intro _ | with_reducible exact .refl _ _ | with_reducible assumption | with_reducible apply ChangesOnly.ite
    | with_reducible apply ChangesOnly.foldl | (with_reducible apply ChangesOnly.step Dev.elapse_foot; decide)
    | with_reducible apply Dev.periodic_foot (by decide) | (with_reducible apply ChangesOnly.step Dev.expoUpd_foot; decide)
    | (with_reducible apply ChangesOnly.step Dev.meterSample_foot; decide) | with_reducible exact .pair ‹_› ‹_› | split | dsimp only

theorem execGovernorRecompute_foot {dt : Nat} {s : State} : ∃ s', execGovernorRecompute dt s = .next s' ∧ s'.pending = s.pending ∧ ChangesOnly [.mem, .expo, .restore, .ctxs, .dram, .energy, .flint, .qtz, .lat, .heads, .mirror, .dw, .out] s.dev s'.dev := by
  unfold execGovernorRecompute State.run
  refine ⟨_, rfl, rfl, ?_⟩
  try dsimp only
  repeat' first
    | intro _ | with_reducible exact .refl _ _ | with_reducible assumption | with_reducible apply ChangesOnly.ite
    | with_reducible apply ChangesOnly.foldl | (with_reducible apply ChangesOnly.step Dev.elapse_foot; decide)
    | (with_reducible apply ChangesOnly.step Dev.serve_foot; decide) | (with_reducible apply ChangesOnly.step Dev.recompute_foot; decide)
    | (with_reducible apply ChangesOnly.step Dev.heldEvent_foot; decide) | (with_reducible apply ChangesOnly.step Dev.mirrorNow_foot; decide)
    | with_reducible exact .pair ‹_› ‹_› | split | dsimp only

theorem execEventRecompute_foot {dt : Nat} {s : State} : ∃ s', execEventRecompute dt s = .next s' ∧ s'.pending = s.pending ∧ ChangesOnly [.mem, .expo, .restore, .ctxs, .dram, .energy, .flint, .qtz, .lat, .heads, .mirror, .dw, .out] s.dev s'.dev := by
  unfold execEventRecompute State.run
  refine ⟨_, rfl, rfl, ?_⟩
  try dsimp only
  repeat' first
    | intro _ | with_reducible exact .refl _ _ | with_reducible assumption | with_reducible apply ChangesOnly.ite
    | with_reducible apply ChangesOnly.foldl | (with_reducible apply ChangesOnly.step Dev.elapse_foot; decide)
    | (with_reducible apply ChangesOnly.step Dev.mirrorNow_foot; decide) | (with_reducible apply ChangesOnly.step Dev.recompute_foot; decide)
    | (with_reducible apply ChangesOnly.step Dev.serve_foot; decide) | with_reducible exact .pair ‹_› ‹_› | split | dsimp only

theorem execWritePacingDelayExpiry_foot {dt : Nat} {s : State} : ∃ s', execWritePacingDelayExpiry dt s = .next s' ∧ s'.pending = s.pending ∧ ChangesOnly [.expo, .flint, .qtz, .lat, .out] s.dev s'.dev := by
  unfold execWritePacingDelayExpiry State.run
  refine ⟨_, rfl, rfl, ?_⟩
  try dsimp only
  repeat' first
    | intro _ | with_reducible exact .refl _ _ | with_reducible assumption | with_reducible apply ChangesOnly.ite
    | with_reducible apply ChangesOnly.foldl | (with_reducible apply ChangesOnly.step Dev.onExpo_foot; decide)
    | (with_reducible apply ChangesOnly.step Dev.elapse_foot; decide) | (with_reducible apply ChangesOnly.step Dev.pacedDone_foot; decide)
    | with_reducible exact .pair ‹_› ‹_› | split | dsimp only

theorem execWriteHoldExpiry_foot {dt : Nat} {s : State} : ∃ s', execWriteHoldExpiry dt s = .next s' ∧ s'.pending = s.pending ∧ ChangesOnly [.mem, .expo, .restore, .ctxs, .dram, .flint, .qtz, .lat, .heads, .dw, .out] s.dev s'.dev := by
  unfold execWriteHoldExpiry State.run
  refine ⟨_, rfl, rfl, ?_⟩
  try dsimp only
  repeat' first
    | intro _ | with_reducible exact .refl _ _ | with_reducible assumption | with_reducible apply ChangesOnly.ite
    | with_reducible apply ChangesOnly.foldl | (with_reducible apply ChangesOnly.step Dev.onExpo_foot; decide)
    | (with_reducible apply ChangesOnly.step Dev.elapse_foot; decide) | (with_reducible apply ChangesOnly.step Dev.onHead_foot; decide)
    | (with_reducible apply ChangesOnly.step Dev.heldEvent_foot; decide) | (with_reducible apply ChangesOnly.step Dev.serve_foot; decide)
    | with_reducible exact .pair ‹_› ‹_› | split | dsimp only

theorem execGlobalPersistentFlush_foot {h : Fin 2} {dt : Nat} {s : State} : ∃ s', execGlobalPersistentFlush h dt s = .next s' ∧ s'.pending = s.pending ∧ ChangesOnly [.qtz, .heads, .out] s.dev s'.dev := by
  unfold execGlobalPersistentFlush State.run
  refine ⟨_, rfl, rfl, ?_⟩
  try dsimp only
  repeat' first
    | intro _ | with_reducible exact .refl _ _ | with_reducible assumption | with_reducible apply ChangesOnly.ite
    | with_reducible apply ChangesOnly.foldl | (with_reducible apply ChangesOnly.step Dev.elapse_foot; decide)
    | (with_reducible apply ChangesOnly.step Dev.emit_foot; decide) | (with_reducible apply ChangesOnly.step Dev.onHead_foot; decide)
    | with_reducible exact .pair ‹_› ‹_› | split | dsimp only

theorem execGpfCompletion_foot {h : Fin 2} {dt : Nat} {s : State} : ∃ s', execGpfCompletion h dt s = .next s' ∧ s'.pending = s.pending ∧ ChangesOnly [.qtz, .heads, .out] s.dev s'.dev := by
  unfold execGpfCompletion State.run
  refine ⟨_, rfl, rfl, ?_⟩
  try dsimp only
  repeat' first
    | intro _ | with_reducible exact .refl _ _ | with_reducible assumption | with_reducible apply ChangesOnly.ite
    | with_reducible apply ChangesOnly.foldl | (with_reducible apply ChangesOnly.step Dev.elapse_foot; decide)
    | (with_reducible apply ChangesOnly.step Dev.onHead_foot; decide) | (with_reducible apply ChangesOnly.step Dev.emit_foot; decide)
    | with_reducible exact .pair ‹_› ‹_› | split | dsimp only

theorem execLocatorCheckpoint_foot {t : Fin 8} {dt : Nat} {s : State} : ∃ s', execLocatorCheckpoint t dt s = .next s' ∧ s'.pending = s.pending ∧ ChangesOnly [.flash, .qtz] s.dev s'.dev := by
  unfold execLocatorCheckpoint State.run
  refine ⟨_, rfl, rfl, ?_⟩
  try dsimp only
  repeat' first
    | intro _ | with_reducible exact .refl _ _ | with_reducible assumption | with_reducible apply ChangesOnly.ite
    | with_reducible apply ChangesOnly.foldl | (with_reducible apply ChangesOnly.step Dev.elapse_foot; decide)
    | (with_reducible apply ChangesOnly.step Dev.ckptStart_foot; decide) | with_reducible exact .pair ‹_› ‹_› | split | dsimp only

theorem execCheckpointCommit_foot {t : Fin 8} {dt : Nat} {s : State} : ∃ s', execCheckpointCommit t dt s = .next s' ∧ s'.pending = s.pending ∧ ChangesOnly [.expo, .flash, .qtz] s.dev s'.dev := by
  unfold execCheckpointCommit State.run
  refine ⟨_, rfl, rfl, ?_⟩
  try dsimp only
  repeat' first
    | intro _ | with_reducible exact .refl _ _ | with_reducible assumption | with_reducible apply ChangesOnly.ite
    | with_reducible apply ChangesOnly.foldl | (with_reducible apply ChangesOnly.step Dev.elapse_foot; decide)
    | (with_reducible apply ChangesOnly.step Dev.ckptWrite_foot; decide) | (with_reducible apply ChangesOnly.step Dev.cairn_foot; decide)
    | (with_reducible apply ChangesOnly.step Dev.onFl_foot; decide) | with_reducible exact .pair ‹_› ‹_› | split | dsimp only

theorem execLedgerSummary_foot {t : Fin 8} {dt : Nat} {s : State} : ∃ s', execLedgerSummary t dt s = .next s' ∧ s'.pending = s.pending ∧ ChangesOnly [.expo, .flash, .qtz] s.dev s'.dev := by
  unfold execLedgerSummary State.run
  refine ⟨_, rfl, rfl, ?_⟩
  try dsimp only
  repeat' first
    | intro _ | with_reducible exact .refl _ _ | with_reducible assumption | with_reducible apply ChangesOnly.ite
    | with_reducible apply ChangesOnly.foldl | (with_reducible apply ChangesOnly.step Dev.elapse_foot; decide)
    | (with_reducible apply ChangesOnly.step Dev.ledger_foot; decide) | (with_reducible apply ChangesOnly.step Dev.ledgerPage_foot; decide)
    | (with_reducible apply ChangesOnly.step Dev.summaryPut_foot; decide) | (with_reducible apply ChangesOnly.step Dev.onFl_foot; decide)
    | (with_reducible apply ChangesOnly.step Dev.ledgerErase_foot; decide) | with_reducible exact .pair ‹_› ‹_› | split | dsimp only

theorem execFlashOpFail_foot {t : Fin 8} {blk : BitVec 21} {reason : Fin 4} {lost soft : List Nat} {statusFail wholeDie : Bool} {dt : Nat} {s : State} : ∃ s', execFlashOpFail t blk reason lost soft statusFail wholeDie dt s = .next s' ∧ s'.pending = s.pending ∧ ChangesOnly [.expo, .strata, .flash, .flint, .qtz] s.dev s'.dev := by
  unfold execFlashOpFail State.run
  refine ⟨_, rfl, rfl, ?_⟩
  try dsimp only
  repeat' first
    | intro _ | with_reducible exact .refl _ _ | with_reducible assumption | with_reducible apply ChangesOnly.ite
    | with_reducible apply ChangesOnly.foldl | (with_reducible apply ChangesOnly.step Dev.elapse_foot; decide)
    | (with_reducible apply ChangesOnly.step Dev.raise_foot; decide) | (with_reducible apply ChangesOnly.step Dev.onFl_foot; decide)
    | (with_reducible apply ChangesOnly.step Dev.badBlock_foot; decide) | (with_reducible apply ChangesOnly.step Dev.blockFails_foot; decide)
    | (with_reducible apply ChangesOnly.step Dev.retireDie_foot; decide) | with_reducible exact .pair ‹_› ‹_› | split | dsimp only

theorem execTrickleCapture_foot {t : Fin 8} {keyErr : Nat} {ue : List (Nat × Nat)} {dt : Nat} {s : State} : ∃ s', execTrickleCapture t keyErr ue dt s = .next s' ∧ s'.pending = s.pending ∧ ChangesOnly [.mem, .expo, .restore, .flash, .ctxs, .dram, .flint, .qtz, .lat, .heads, .slate, .dw, .out] s.dev s'.dev := by
  unfold execTrickleCapture State.run
  refine ⟨_, rfl, rfl, ?_⟩
  try dsimp only
  repeat' first
    | intro _ | with_reducible exact .refl _ _ | with_reducible assumption | with_reducible apply ChangesOnly.ite
    | with_reducible apply ChangesOnly.foldl | (with_reducible apply ChangesOnly.step Dev.elapse_foot; decide)
    | (with_reducible apply ChangesOnly.step Dev.useKey_foot; decide) | (with_reducible apply ChangesOnly.step Dev.keyLost_foot; decide)
    | (with_reducible apply ChangesOnly.step Dev.pageTouch_foot; decide) | (with_reducible apply ChangesOnly.step Dev.pageUe_foot; decide)
    | (with_reducible apply ChangesOnly.step Dev.rateUse_foot; decide) | (with_reducible apply ChangesOnly.step Dev.capture_foot; decide)
    | (with_reducible apply ChangesOnly.step Dev.flashServed_foot; decide) | with_reducible exact .pair ‹_› ‹_› | split | dsimp only

theorem execBackgroundErase_foot {t : Fin 8} {blk : BitVec 21} {dt : Nat} {s : State} : ∃ s', execBackgroundErase t blk dt s = .next s' ∧ s'.pending = s.pending ∧ ChangesOnly [.expo, .flash, .qtz] s.dev s'.dev := by
  unfold execBackgroundErase State.run
  refine ⟨_, rfl, rfl, ?_⟩
  try dsimp only
  repeat' first
    | intro _ | with_reducible exact .refl _ _ | with_reducible assumption | with_reducible apply ChangesOnly.ite
    | with_reducible apply ChangesOnly.foldl | (with_reducible apply ChangesOnly.step Dev.elapse_foot; decide)
    | (with_reducible apply ChangesOnly.step Dev.onFl_foot; decide) | (with_reducible apply ChangesOnly.step Dev.flashServed_foot; decide)
    | (with_reducible apply ChangesOnly.step Dev.cairn_foot; decide) | with_reducible exact .pair ‹_› ‹_› | split | dsimp only

theorem execEraseDone_foot {t : Fin 8} {blk : BitVec 21} {ok : Bool} {dt : Nat} {s : State} : ∃ s', execEraseDone t blk ok dt s = .next s' ∧ s'.pending = s.pending ∧ ChangesOnly [.expo, .strata, .flash, .flint, .qtz] s.dev s'.dev := by
  unfold execEraseDone State.run
  refine ⟨_, rfl, rfl, ?_⟩
  try dsimp only
  repeat' first
    | intro _ | with_reducible exact .refl _ _ | with_reducible assumption | with_reducible apply ChangesOnly.ite
    | with_reducible apply ChangesOnly.foldl | (with_reducible apply ChangesOnly.step Dev.onStrata_foot; decide)
    | (with_reducible apply ChangesOnly.step Dev.elapse_foot; decide) | (with_reducible apply ChangesOnly.step Dev.onFl_foot; decide)
    | (with_reducible apply ChangesOnly.step Dev.eraseBlank_foot; decide) | (with_reducible apply ChangesOnly.step Dev.onBlk_foot; decide)
    | (with_reducible apply ChangesOnly.step Dev.badBlock_foot; decide) | with_reducible exact .pair ‹_› ‹_› | split | dsimp only

theorem execSanitizeStepDone_foot {c : Nat} {dt : Nat} {s : State} : ∃ s', execSanitizeStepDone c dt s = .next s' ∧ s'.pending = s.pending ∧ ChangesOnly [.mem, .expo, .restore, .strata, .flash, .ctxs, .dram, .flint, .qtz, .lat, .heads, .jcs, .mirror, .dw, .out] s.dev s'.dev := by
  unfold execSanitizeStepDone State.run
  refine ⟨_, rfl, rfl, ?_⟩
  try dsimp only
  repeat' first
    | intro _ | with_reducible exact .refl _ _ | with_reducible assumption | with_reducible apply ChangesOnly.ite
    | with_reducible apply ChangesOnly.foldl | (with_reducible apply ChangesOnly.step Dev.onStrata_foot; decide)
    | (with_reducible apply ChangesOnly.step Dev.elapse_foot; decide) | (with_reducible apply ChangesOnly.step Dev.ctxSave_foot; decide)
    | (with_reducible apply ChangesOnly.step Dev.onCtx_foot; decide) | (with_reducible apply ChangesOnly.step Dev.dcForced_foot; decide)
    | (with_reducible apply ChangesOnly.step Dev.rtCommit_foot; decide) | (with_reducible apply ChangesOnly.step Dev.zeroGranule_foot; decide)
    | (with_reducible apply ChangesOnly.step Dev.dropOldKeys_foot; decide) | (with_reducible apply ChangesOnly.step Dev.keyErase_foot; decide)
    | (with_reducible apply ChangesOnly.step Dev.ledgerAll_foot; decide) | (with_reducible apply ChangesOnly.step Dev.stopStreams_foot; decide)
    | (with_reducible apply ChangesOnly.step Dev.sanitizeEnd_foot; decide) | with_reducible exact .pair ‹_› ‹_› | split | dsimp only

theorem execGarbageCollection_foot {t : Fin 8} {lost soft : List Nat} {dt : Nat} {s : State} : ∃ s', execGarbageCollection t lost soft dt s = .next s' ∧ s'.pending = s.pending ∧ ChangesOnly [.expo, .strata, .flash, .flint, .qtz] s.dev s'.dev := by
  unfold execGarbageCollection State.run
  refine ⟨_, rfl, rfl, ?_⟩
  try dsimp only
  repeat' first
    | intro _ | with_reducible exact .refl _ _ | with_reducible assumption | with_reducible apply ChangesOnly.ite
    | with_reducible apply ChangesOnly.foldl | (with_reducible apply ChangesOnly.step Dev.elapse_foot; decide)
    | (with_reducible apply ChangesOnly.step Dev.dropTlc_foot; decide) | (with_reducible apply ChangesOnly.step Dev.emptyBlock_foot; decide)
    | (with_reducible apply ChangesOnly.step Dev.spaceCheck_foot; decide) | with_reducible exact .pair ‹_› ‹_› | split | dsimp only

theorem execColdCompaction_foot {t : Fin 8} {lost soft : List Nat} {dt : Nat} {s : State} : ∃ s', execColdCompaction t lost soft dt s = .next s' ∧ s'.pending = s.pending ∧ ChangesOnly [.expo, .strata, .flash, .flint, .qtz] s.dev s'.dev := by
  unfold execColdCompaction State.run
  refine ⟨_, rfl, rfl, ?_⟩
  try dsimp only
  repeat' first
    | intro _ | with_reducible exact .refl _ _ | with_reducible assumption | with_reducible apply ChangesOnly.ite
    | with_reducible apply ChangesOnly.foldl | (with_reducible apply ChangesOnly.step Dev.elapse_foot; decide)
    | (with_reducible apply ChangesOnly.step Dev.strataLost_foot; decide) | (with_reducible apply ChangesOnly.step Dev.relocate_foot; decide)
    | (with_reducible apply ChangesOnly.step Dev.closeStream_foot; decide) | (with_reducible apply ChangesOnly.step Dev.dropTlc_foot; decide)
    | with_reducible exact .pair ‹_› ‹_› | split | dsimp only

theorem execRetentionRefresh_foot {t : Fin 8} {blk : BitVec 21} {lost soft : List Nat} {dt : Nat} {s : State} : ∃ s', execRetentionRefresh t blk lost soft dt s = .next s' ∧ s'.pending = s.pending ∧ ChangesOnly [.expo, .strata, .flash, .flint, .qtz] s.dev s'.dev := by
  unfold execRetentionRefresh State.run
  refine ⟨_, rfl, rfl, ?_⟩
  try dsimp only
  repeat' first
    | intro _ | with_reducible exact .refl _ _ | with_reducible assumption | with_reducible apply ChangesOnly.ite
    | with_reducible apply ChangesOnly.foldl | (with_reducible apply ChangesOnly.step Dev.elapse_foot; decide)
    | (with_reducible apply ChangesOnly.step Dev.emptyBlock_foot; decide) | with_reducible exact .pair ‹_› ‹_› | split | dsimp only

theorem execWearLeveling_foot {t : Fin 8} {die : Fin 127} {lost soft : List Nat} {dt : Nat} {s : State} : ∃ s', execWearLeveling t die lost soft dt s = .next s' ∧ s'.pending = s.pending ∧ ChangesOnly [.expo, .strata, .flash, .flint, .qtz] s.dev s'.dev := by
  unfold execWearLeveling State.run
  refine ⟨_, rfl, rfl, ?_⟩
  try dsimp only
  repeat' first
    | intro _ | with_reducible exact .refl _ _ | with_reducible assumption | with_reducible apply ChangesOnly.ite
    | with_reducible apply ChangesOnly.foldl | (with_reducible apply ChangesOnly.step Dev.elapse_foot; decide)
    | (with_reducible apply ChangesOnly.step Dev.emptyBlock_foot; decide) | with_reducible exact .pair ‹_› ‹_› | split | dsimp only

theorem execBudgetRecompute_foot {dt : Nat} {s : State} : ∃ s', execBudgetRecompute dt s = .next s' ∧ s'.pending = s.pending ∧ ChangesOnly [.strata, .flint, .qtz] s.dev s'.dev := by
  unfold execBudgetRecompute State.run
  refine ⟨_, rfl, rfl, ?_⟩
  try dsimp only
  repeat' first
    | intro _ | with_reducible exact .refl _ _ | with_reducible assumption | with_reducible apply ChangesOnly.ite
    | with_reducible apply ChangesOnly.foldl | (with_reducible apply ChangesOnly.step Dev.onStrata_foot; decide)
    | (with_reducible apply ChangesOnly.step Dev.elapse_foot; decide) | (with_reducible apply ChangesOnly.step Dev.budget_foot; decide)
    | (with_reducible apply ChangesOnly.step Dev.writeAmp_foot; decide) | with_reducible exact .pair ‹_› ‹_› | split | dsimp only

theorem execBorrowAccountUpdate_foot {dt : Nat} {s : State} : ∃ s', execBorrowAccountUpdate dt s = .next s' ∧ s'.pending = s.pending ∧ ChangesOnly [.strata, .flash, .flint, .qtz] s.dev s'.dev := by
  unfold execBorrowAccountUpdate State.run
  refine ⟨_, rfl, rfl, ?_⟩
  try dsimp only
  repeat' first
    | intro _ | with_reducible exact .refl _ _ | with_reducible assumption | with_reducible apply ChangesOnly.ite
    | with_reducible apply ChangesOnly.foldl | (with_reducible apply ChangesOnly.step Dev.onFlash_foot; decide)
    | (with_reducible apply ChangesOnly.step Dev.onStrata_foot; decide) | (with_reducible apply ChangesOnly.step Dev.elapse_foot; decide)
    | (with_reducible apply ChangesOnly.step Dev.raise_foot; decide) | with_reducible exact .pair ‹_› ‹_› | split | dsimp only

theorem execStrataStatusUpdate_foot {dt : Nat} {s : State} : ∃ s', execStrataStatusUpdate dt s = .next s' ∧ s'.pending = s.pending ∧ ChangesOnly [.pkg, .expo, .strata, .flash, .flint, .qtz, .dw] s.dev s'.dev := by
  unfold execStrataStatusUpdate State.run
  refine ⟨_, rfl, rfl, ?_⟩
  try dsimp only
  repeat' first
    | intro _ | with_reducible exact .refl _ _ | with_reducible assumption | with_reducible apply ChangesOnly.ite
    | with_reducible apply ChangesOnly.foldl | (with_reducible apply ChangesOnly.step Dev.elapse_foot; decide)
    | with_reducible apply Dev.periodic_foot (by decide) | (with_reducible apply ChangesOnly.step Dev.spaceCheck_foot; decide)
    | (with_reducible apply ChangesOnly.step Dev.strataUpd_foot; decide) | with_reducible exact .pair ‹_› ‹_› | split | dsimp only

theorem execChannelTrainingDone_foot {t : Fin 8} {c : Fin 4} {ok pop dev chk : Bool} {dt : Nat} {s : State} : ∃ s', execChannelTrainingDone t c ok pop dev chk dt s = .next s' ∧ s'.pending = s.pending ∧ ChangesOnly [.dram, .flint, .qtz, .dw] s.dev s'.dev := by
  unfold execChannelTrainingDone State.run
  refine ⟨_, rfl, rfl, ?_⟩
  try dsimp only
  repeat' first
    | intro _ | with_reducible exact .refl _ _ | with_reducible assumption | with_reducible apply ChangesOnly.ite
    | with_reducible apply ChangesOnly.foldl | (with_reducible apply ChangesOnly.step Dev.elapse_foot; decide)
    | (with_reducible apply ChangesOnly.step Dev.chanDo_foot; decide) | (with_reducible apply ChangesOnly.step Dev.onChan_foot; decide)
    | (with_reducible apply ChangesOnly.step Dev.raise_foot; decide) | with_reducible exact .pair ‹_› ‹_› | split | dsimp only

theorem execDramInitComplete_foot {n size : Fin 4} {rate : Fin 3} {ecc : List (Nat × Nat)} {dt : Nat} {s : State} : ∃ s', execDramInitComplete n size rate ecc dt s = .next s' ∧ s'.pending = s.pending ∧ ChangesOnly [.restore, .dram, .qtz, .panel, .dw] s.dev s'.dev := by
  unfold execDramInitComplete State.run
  refine ⟨_, rfl, rfl, ?_⟩
  try dsimp only
  repeat' first
    | intro _ | with_reducible exact .refl _ _ | with_reducible assumption | with_reducible apply ChangesOnly.ite
    | with_reducible apply ChangesOnly.foldl | (with_reducible apply ChangesOnly.step Dev.onDram_foot; decide)
    | (with_reducible apply ChangesOnly.step Dev.onPanel_foot; decide) | (with_reducible apply ChangesOnly.step Dev.onRestore_foot; decide)
    | (with_reducible apply ChangesOnly.step Dev.elapse_foot; decide) | (with_reducible apply ChangesOnly.step Dev.steerLoad_foot; decide)
    | (with_reducible apply ChangesOnly.step Dev.dramCfgUpd_foot; decide) | (with_reducible apply ChangesOnly.step Dev.onRank_foot; decide)
    | (with_reducible apply ChangesOnly.step Dev.restUpd_foot; decide) | with_reducible exact .pair ‹_› ‹_› | split | dsimp only

theorem execLineRepairComplete_foot {p : Nat} {recBad : Bool} {dt : Nat} {s : State} : ∃ s', execLineRepairComplete p recBad dt s = .next s' ∧ s'.pending = s.pending ∧ ChangesOnly [.mem, .expo, .restore, .ctxs, .dram, .flint, .qtz, .lat, .heads, .dw, .out] s.dev s'.dev := by
  unfold execLineRepairComplete State.run
  refine ⟨_, rfl, rfl, ?_⟩
  try dsimp only
  repeat' first
    | intro _ | with_reducible exact .refl _ _ | with_reducible assumption | with_reducible apply ChangesOnly.ite
    | with_reducible apply ChangesOnly.foldl | (with_reducible apply ChangesOnly.step Dev.onExpo_foot; decide)
    | (with_reducible apply ChangesOnly.step Dev.onDram_foot; decide) | (with_reducible apply ChangesOnly.step Dev.elapse_foot; decide)
    | (with_reducible apply ChangesOnly.step Dev.linePoison_foot; decide) | (with_reducible apply ChangesOnly.step Dev.loadLine_foot; decide)
    | (with_reducible apply ChangesOnly.step Dev.lineMended_foot; decide) | (with_reducible apply ChangesOnly.step Dev.pageTouch_foot; decide)
    | (with_reducible apply ChangesOnly.step Dev.serve_foot; decide) | with_reducible exact .pair ‹_› ‹_› | split | dsimp only

theorem execPatrolScrub_foot {line : Nat} {errs : List (Nat × Nat)} {caErr lost : Bool} {dt : Nat} {s : State} : ∃ s', execPatrolScrub line errs caErr lost dt s = .next s' ∧ s'.pending = s.pending ∧ ChangesOnly [.mem, .expo, .restore, .flash, .ctxs, .dram, .flint, .qtz, .lat, .heads, .slate, .dw] s.dev s'.dev := by
  unfold execPatrolScrub State.run
  refine ⟨_, rfl, rfl, ?_⟩
  try dsimp only
  repeat' first
    | intro _ | with_reducible exact .refl _ _ | with_reducible assumption | with_reducible apply ChangesOnly.ite
    | with_reducible apply ChangesOnly.foldl | (with_reducible apply ChangesOnly.step Dev.onDram_foot; decide)
    | (with_reducible apply ChangesOnly.step Dev.elapse_foot; decide) | (with_reducible apply ChangesOnly.step Dev.caError_foot; decide)
    | (with_reducible apply ChangesOnly.step Dev.chanTouch_foot; decide) | (with_reducible apply ChangesOnly.step Dev.reserveRepair_foot; decide)
    | (with_reducible apply ChangesOnly.step Dev.readLine_foot; decide) | with_reducible exact .pair ‹_› ‹_› | split | dsimp only

theorem execCaRetrainDone_foot {t : Fin 8} {c : Fin 4} {ok : Bool} {dt : Nat} {s : State} : ∃ s', execCaRetrainDone t c ok dt s = .next s' ∧ s'.pending = s.pending ∧ ChangesOnly [.mem, .expo, .restore, .ctxs, .dram, .flint, .qtz, .lat, .heads, .dw, .out] s.dev s'.dev := by
  unfold execCaRetrainDone State.run
  refine ⟨_, rfl, rfl, ?_⟩
  try dsimp only
  repeat' first
    | intro _ | with_reducible exact .refl _ _ | with_reducible assumption | with_reducible apply ChangesOnly.ite
    | with_reducible apply ChangesOnly.foldl | (with_reducible apply ChangesOnly.step Dev.elapse_foot; decide)
    | (with_reducible apply ChangesOnly.step Dev.onChan_foot; decide) | (with_reducible apply ChangesOnly.step Dev.chanServe_foot; decide)
    | (with_reducible apply ChangesOnly.step Dev.chanDo_foot; decide) | (with_reducible apply ChangesOnly.step Dev.raise_foot; decide)
    | with_reducible exact .pair ‹_› ‹_› | split | dsimp only

theorem execTokenRefill_foot {t : Fin 8} {c : Fin 4} {dt : Nat} {s : State} : ∃ s', execTokenRefill t c dt s = .next s' ∧ s'.pending = s.pending ∧ ChangesOnly [.mem, .expo, .restore, .ctxs, .dram, .flint, .qtz, .lat, .heads, .dw, .out] s.dev s'.dev := by
  unfold execTokenRefill State.run
  refine ⟨_, rfl, rfl, ?_⟩
  try dsimp only
  repeat' first
    | intro _ | with_reducible exact .refl _ _ | with_reducible assumption | with_reducible apply ChangesOnly.ite
    | with_reducible apply ChangesOnly.foldl | (with_reducible apply ChangesOnly.step Dev.elapse_foot; decide)
    | (with_reducible apply ChangesOnly.step Dev.onChan_foot; decide) | (with_reducible apply ChangesOnly.step Dev.chanServe_foot; decide)
    | with_reducible exact .pair ‹_› ‹_› | split | dsimp only

theorem execMr4Poll_foot {t : Fin 8} {c : Fin 4} {codes : List (Fin 3)} {dt : Nat} {s : State} : ∃ s', execMr4Poll t c codes dt s = .next s' ∧ s'.pending = s.pending ∧ ChangesOnly [.dram, .qtz, .dw] s.dev s'.dev := by
  unfold execMr4Poll State.run
  refine ⟨_, rfl, rfl, ?_⟩
  try dsimp only
  repeat' first
    | intro _ | with_reducible exact .refl _ _ | with_reducible assumption | with_reducible apply ChangesOnly.ite
    | with_reducible apply ChangesOnly.foldl | (with_reducible apply ChangesOnly.step Dev.elapse_foot; decide)
    | (with_reducible apply ChangesOnly.step Dev.onRank_foot; decide) | (with_reducible apply ChangesOnly.step Dev.chanDo_foot; decide)
    | with_reducible exact .pair ‹_› ‹_› | split | dsimp only

theorem execRefreshDue_foot {t : Fin 8} {c : Fin 4} {bank : Fin 128} {postpone : Bool} {dt : Nat} {s : State} : ∃ s', execRefreshDue t c bank postpone dt s = .next s' ∧ s'.pending = s.pending ∧ ChangesOnly [.dram, .qtz] s.dev s'.dev := by
  unfold execRefreshDue State.run
  refine ⟨_, rfl, rfl, ?_⟩
  try dsimp only
  repeat' first
    | intro _ | with_reducible exact .refl _ _ | with_reducible assumption | with_reducible apply ChangesOnly.ite
    | with_reducible apply ChangesOnly.foldl | (with_reducible apply ChangesOnly.step Dev.elapse_foot; decide)
    | (with_reducible apply ChangesOnly.step Dev.onRank_foot; decide) | (with_reducible apply ChangesOnly.step Dev.onChan_foot; decide)
    | with_reducible exact .pair ‹_› ‹_› | split | dsimp only

theorem execGatherWindowOpen_foot {t : Fin 8} {c : Fin 4} {dt : Nat} {s : State} : ∃ s', execGatherWindowOpen t c dt s = .next s' ∧ s'.pending = s.pending ∧ ChangesOnly [.dram, .qtz, .dw] s.dev s'.dev := by
  unfold execGatherWindowOpen State.run
  refine ⟨_, rfl, rfl, ?_⟩
  try dsimp only
  repeat' first
    | intro _ | with_reducible exact .refl _ _ | with_reducible assumption | with_reducible apply ChangesOnly.ite
    | with_reducible apply ChangesOnly.foldl | (with_reducible apply ChangesOnly.step Dev.elapse_foot; decide)
    | (with_reducible apply ChangesOnly.step Dev.chanDo_foot; decide) | with_reducible exact .pair ‹_› ‹_› | split | dsimp only

theorem execGatherWindowClose_foot {t : Fin 8} {c : Fin 4} {drifts : List (Fin 4)} {dt : Nat} {s : State} : ∃ s', execGatherWindowClose t c drifts dt s = .next s' ∧ s'.pending = s.pending ∧ ChangesOnly [.dram, .flint, .qtz, .dw] s.dev s'.dev := by
  unfold execGatherWindowClose State.run
  refine ⟨_, rfl, rfl, ?_⟩
  try dsimp only
  repeat' first
    | intro _ | with_reducible exact .refl _ _ | with_reducible assumption | with_reducible apply ChangesOnly.ite
    | with_reducible apply ChangesOnly.foldl | (with_reducible apply ChangesOnly.step Dev.elapse_foot; decide)
    | (with_reducible apply ChangesOnly.step Dev.chanDo_foot; decide) | (with_reducible apply ChangesOnly.step Dev.fspFrom_foot; decide)
    | (with_reducible apply ChangesOnly.step Dev.onChan_foot; decide) | (with_reducible apply ChangesOnly.step Dev.raise_foot; decide)
    | with_reducible exact .pair ‹_› ‹_› | split | dsimp only

theorem execPartialTrainingDone_foot {t : Fin 8} {c : Fin 4} {r : Fin 4} {dt : Nat} {s : State} : ∃ s', execPartialTrainingDone t c r dt s = .next s' ∧ s'.pending = s.pending ∧ ChangesOnly [.mem, .expo, .restore, .ctxs, .dram, .flint, .qtz, .lat, .heads, .dw, .out] s.dev s'.dev := by
  unfold execPartialTrainingDone State.run
  refine ⟨_, rfl, rfl, ?_⟩
  try dsimp only
  repeat' first
    | intro _ | with_reducible exact .refl _ _ | with_reducible assumption | with_reducible apply ChangesOnly.ite
    | with_reducible apply ChangesOnly.foldl | (with_reducible apply ChangesOnly.step Dev.elapse_foot; decide)
    | (with_reducible apply ChangesOnly.step Dev.onChan_foot; decide) | (with_reducible apply ChangesOnly.step Dev.fspEnd_foot; decide)
    | (with_reducible apply ChangesOnly.step Dev.chanServe_foot; decide) | with_reducible exact .pair ‹_› ‹_› | split | dsimp only

theorem execFspSwitchDone_foot {t : Fin 8} {c : Fin 4} {dt : Nat} {s : State} : ∃ s', execFspSwitchDone t c dt s = .next s' ∧ s'.pending = s.pending ∧ ChangesOnly [.mem, .expo, .restore, .ctxs, .dram, .flint, .qtz, .lat, .heads, .dw, .out] s.dev s'.dev := by
  unfold execFspSwitchDone State.run
  refine ⟨_, rfl, rfl, ?_⟩
  try dsimp only
  repeat' first
    | intro _ | with_reducible exact .refl _ _ | with_reducible assumption | with_reducible apply ChangesOnly.ite
    | with_reducible apply ChangesOnly.foldl | (with_reducible apply ChangesOnly.step Dev.elapse_foot; decide)
    | (with_reducible apply ChangesOnly.step Dev.fspEnd_foot; decide) | (with_reducible apply ChangesOnly.step Dev.chanServe_foot; decide)
    | (with_reducible apply ChangesOnly.step Dev.chanDo_foot; decide) | with_reducible exact .pair ‹_› ‹_› | split | dsimp only

theorem execSelfRefreshEntry_foot {t : Fin 8} {c : Fin 4} {scrubDue : Bool} {dt : Nat} {s : State} : ∃ s', execSelfRefreshEntry t c scrubDue dt s = .next s' ∧ s'.pending = s.pending ∧ ChangesOnly [.dram, .qtz, .dw] s.dev s'.dev := by
  unfold execSelfRefreshEntry State.run
  refine ⟨_, rfl, rfl, ?_⟩
  try dsimp only
  repeat' first
    | intro _ | with_reducible exact .refl _ _ | with_reducible assumption | with_reducible apply ChangesOnly.ite
    | with_reducible apply ChangesOnly.foldl | (with_reducible apply ChangesOnly.step Dev.elapse_foot; decide)
    | (with_reducible apply ChangesOnly.step Dev.chanDo_foot; decide) | with_reducible exact .pair ‹_› ‹_› | split | dsimp only

theorem execDramChStatusUpdate_foot {dt : Nat} {s : State} : ∃ s', execDramChStatusUpdate dt s = .next s' ∧ s'.pending = s.pending ∧ ChangesOnly [.pkg, .qtz, .dw] s.dev s'.dev := by
  unfold execDramChStatusUpdate State.run
  refine ⟨_, rfl, rfl, ?_⟩
  try dsimp only
  repeat' first
    | intro _ | with_reducible exact .refl _ _ | with_reducible assumption | with_reducible apply ChangesOnly.ite
    | with_reducible apply ChangesOnly.foldl | (with_reducible apply ChangesOnly.step Dev.elapse_foot; decide)
    | with_reducible apply Dev.periodic_foot (by decide) | (with_reducible apply ChangesOnly.step Dev.chanUpd_foot; decide)
    | with_reducible exact .pair ‹_› ‹_› | split | dsimp only

theorem execSteerRecordProgrammed_foot {t : Fin 8} {dt : Nat} {s : State} : ∃ s', execSteerRecordProgrammed t dt s = .next s' ∧ s'.pending = s.pending ∧ ChangesOnly [.dram, .qtz, .slate, .dw] s.dev s'.dev := by
  unfold execSteerRecordProgrammed State.run
  refine ⟨_, rfl, rfl, ?_⟩
  try dsimp only
  repeat' first
    | intro _ | with_reducible exact .refl _ _ | with_reducible assumption | with_reducible apply ChangesOnly.ite
    | with_reducible apply ChangesOnly.foldl | (with_reducible apply ChangesOnly.step Dev.onDram_foot; decide)
    | (with_reducible apply ChangesOnly.step Dev.elapse_foot; decide) | (with_reducible apply ChangesOnly.step Dev.onSteer_foot; decide)
    | (with_reducible apply ChangesOnly.step Dev.steerUpd_foot; decide) | (with_reducible apply ChangesOnly.step Dev.repairBegin_foot; decide)
    | (with_reducible apply ChangesOnly.step Dev.onSl_foot; decide) | (with_reducible apply ChangesOnly.step Dev.degradedRetry_foot; decide)
    | with_reducible exact .pair ‹_› ‹_› | split | dsimp only

theorem execSweepBlockCopied_foot {t : Fin 8} {e : Fin 16} {ue : List (Nat × Nat)} {homeBad : Bool} {dt : Nat} {s : State} : ∃ s', execSweepBlockCopied t e ue homeBad dt s = .next s' ∧ s'.pending = s.pending ∧ ChangesOnly [.mem, .expo, .restore, .flash, .ctxs, .dram, .flint, .qtz, .lat, .heads, .slate, .dw] s.dev s'.dev := by
  unfold execSweepBlockCopied State.run
  refine ⟨_, rfl, rfl, ?_⟩
  try dsimp only
  repeat' first
    | intro _ | with_reducible exact .refl _ _ | with_reducible assumption | with_reducible apply ChangesOnly.ite
    | with_reducible apply ChangesOnly.foldl | (with_reducible apply ChangesOnly.step Dev.elapse_foot; decide)
    | (with_reducible apply ChangesOnly.step Dev.chanUse_foot; decide) | (with_reducible apply ChangesOnly.step Dev.lineBad_foot; decide)
    | (with_reducible apply ChangesOnly.step Dev.steerNow_foot; decide) | (with_reducible apply ChangesOnly.step Dev.migrateEnd_foot; decide)
    | (with_reducible apply ChangesOnly.step Dev.returnAbort_foot; decide) | (with_reducible apply ChangesOnly.step Dev.returnEnd_foot; decide)
    | with_reducible exact .pair ‹_› ‹_› | split | dsimp only

theorem execHpprDone_foot {t : Fin 8} {e : Fin 16} {ok : Bool} {dt : Nat} {s : State} : ∃ s', execHpprDone t e ok dt s = .next s' ∧ s'.pending = s.pending ∧ ChangesOnly [.dram, .flint, .qtz, .dw] s.dev s'.dev := by
  unfold execHpprDone State.run
  refine ⟨_, rfl, rfl, ?_⟩
  try dsimp only
  repeat' first
    | intro _ | with_reducible exact .refl _ _ | with_reducible assumption | with_reducible apply ChangesOnly.ite
    | with_reducible apply ChangesOnly.foldl | (with_reducible apply ChangesOnly.step Dev.elapse_foot; decide)
    | (with_reducible apply ChangesOnly.step Dev.onRank_foot; decide) | (with_reducible apply ChangesOnly.step Dev.steerNow_foot; decide)
    | (with_reducible apply ChangesOnly.step Dev.raise_foot; decide) | with_reducible exact .pair ‹_› ‹_› | split | dsimp only

theorem execPatternTestDone_foot {t : Fin 8} {e : Fin 16} {ues ces : Nat} {clean0 clean1 : Bool} {dt : Nat} {s : State} : ∃ s', execPatternTestDone t e ues ces clean0 clean1 dt s = .next s' ∧ s'.pending = s.pending ∧ ChangesOnly [.dram, .flint, .qtz, .slate, .dw] s.dev s'.dev := by
  unfold execPatternTestDone State.run
  refine ⟨_, rfl, rfl, ?_⟩
  try dsimp only
  repeat' first
    | intro _ | with_reducible exact .refl _ _ | with_reducible assumption | with_reducible apply ChangesOnly.ite
    | with_reducible apply ChangesOnly.foldl | (with_reducible apply ChangesOnly.step Dev.elapse_foot; decide)
    | (with_reducible apply ChangesOnly.step Dev.steerPut_foot; decide) | (with_reducible apply ChangesOnly.step Dev.raise_foot; decide)
    | (with_reducible apply ChangesOnly.step Dev.onRank_foot; decide) | (with_reducible apply ChangesOnly.step Dev.steerNow_foot; decide)
    | (with_reducible apply ChangesOnly.step Dev.returnBegin_foot; decide) | with_reducible exact .pair ‹_› ‹_› | split | dsimp only

theorem execCoalesceTimerExpiry_foot {c k : Nat} {dt : Nat} {s : State} : ∃ s', execCoalesceTimerExpiry c k dt s = .next s' ∧ s'.pending = s.pending ∧ ChangesOnly [.ctxs, .qtz, .heads, .out] s.dev s'.dev := by
  unfold execCoalesceTimerExpiry State.run
  refine ⟨_, rfl, rfl, ?_⟩
  try dsimp only
  repeat' first
    | intro _ | with_reducible exact .refl _ _ | with_reducible assumption | with_reducible apply ChangesOnly.ite
    | with_reducible apply ChangesOnly.foldl | (with_reducible apply ChangesOnly.step Dev.elapse_foot; decide)
    | (with_reducible apply ChangesOnly.step Dev.fireRing_foot; decide) | with_reducible exact .pair ‹_› ‹_› | split | dsimp only

theorem execMsixVectorUnmask_foot {h : Fin 2} {v : Fin 2048} {dt : Nat} {s : State} : ∃ s', execMsixVectorUnmask h v dt s = .next s' ∧ s'.pending = s.pending ∧ ChangesOnly [.qtz, .heads, .out] s.dev s'.dev := by
  unfold execMsixVectorUnmask State.run
  refine ⟨_, rfl, rfl, ?_⟩
  try dsimp only
  repeat' first
    | intro _ | with_reducible exact .refl _ _ | with_reducible assumption | with_reducible apply ChangesOnly.ite
    | with_reducible apply ChangesOnly.foldl | (with_reducible apply ChangesOnly.step Dev.elapse_foot; decide)
    | (with_reducible apply ChangesOnly.step Dev.onHead_foot; decide) | (with_reducible apply ChangesOnly.step Dev.emit_foot; decide)
    | with_reducible exact .pair ‹_› ‹_› | split | dsimp only

theorem execDoorbellSq_foot {h : Fin 2} {c k : Nat} {tail : BitVec 12} {ue : BitVec 10} {dt : Nat} {s : State} : ∃ s', execDoorbellSq h c k tail ue dt s = .next s' ∧ s'.pending = s.pending ∧ ChangesOnly [.mem, .expo, .restore, .ctxs, .dram, .flint, .qtz, .heads, .slate, .dw] s.dev s'.dev := by
  unfold execDoorbellSq State.run
  refine ⟨_, rfl, rfl, ?_⟩
  try dsimp only
  repeat' first
    | intro _ | with_reducible exact .refl _ _ | with_reducible assumption | with_reducible apply ChangesOnly.ite
    | with_reducible apply ChangesOnly.foldl | (with_reducible apply ChangesOnly.step Dev.elapse_foot; decide)
    | (with_reducible apply ChangesOnly.step Dev.raise_foot; decide) | (with_reducible apply ChangesOnly.step Dev.ringError_foot; decide)
    | (with_reducible apply ChangesOnly.step Dev.onRing_foot; decide) | (with_reducible apply ChangesOnly.step Dev.lineUe_foot; decide)
    | (with_reducible apply ChangesOnly.step Dev.fetchAll_foot; decide) | with_reducible exact .pair ‹_› ‹_› | split | dsimp only

theorem execDoorbellCq_foot {h : Fin 2} {c k : Nat} {head : BitVec 12} {dt : Nat} {s : State} : ∃ s', execDoorbellCq h c k head dt s = .next s' ∧ s'.pending = s.pending ∧ ChangesOnly [.expo, .restore, .ctxs, .flint, .qtz] s.dev s'.dev := by
  unfold execDoorbellCq State.run
  refine ⟨_, rfl, rfl, ?_⟩
  try dsimp only
  repeat' first
    | intro _ | with_reducible exact .refl _ _ | with_reducible assumption | with_reducible apply ChangesOnly.ite
    | with_reducible apply ChangesOnly.foldl | (with_reducible apply ChangesOnly.step Dev.elapse_foot; decide)
    | (with_reducible apply ChangesOnly.step Dev.raise_foot; decide) | (with_reducible apply ChangesOnly.step Dev.ringError_foot; decide)
    | (with_reducible apply ChangesOnly.step Dev.onRing_foot; decide) | (with_reducible apply ChangesOnly.step Dev.fetchAll_foot; decide)
    | with_reducible exact .pair ‹_› ‹_› | split | dsimp only

theorem execFence_foot {c k : Nat} {dt : Nat} {s : State} : ∃ s', execFence c k dt s = .next s' ∧ s'.pending = s.pending ∧ ChangesOnly [.mem, .expo, .restore, .flash, .ctxs, .dram, .flint, .qtz, .lat, .heads, .jcs, .mirror, .dw, .out] s.dev s'.dev := by
  unfold execFence State.run
  refine ⟨_, rfl, rfl, ?_⟩
  try dsimp only
  repeat' first
    | intro _ | with_reducible exact .refl _ _ | with_reducible assumption | with_reducible apply ChangesOnly.ite
    | with_reducible apply ChangesOnly.foldl | (with_reducible apply ChangesOnly.step Dev.elapse_foot; decide)
    | (with_reducible apply ChangesOnly.step Dev.takeNext_foot; decide) | with_reducible exact .pair ‹_› ‹_› | split | dsimp only

theorem execCheckpoint_foot {c k : Nat} {dt : Nat} {s : State} : ∃ s', execCheckpoint c k dt s = .next s' ∧ s'.pending = s.pending ∧ ChangesOnly [.mem, .expo, .restore, .flash, .ctxs, .dram, .flint, .qtz, .lat, .heads, .jcs, .mirror, .dw, .out] s.dev s'.dev := by
  unfold execCheckpoint State.run
  refine ⟨_, rfl, rfl, ?_⟩
  try dsimp only
  repeat' first
    | intro _ | with_reducible exact .refl _ _ | with_reducible assumption | with_reducible apply ChangesOnly.ite
    | with_reducible apply ChangesOnly.foldl | (with_reducible apply ChangesOnly.step Dev.elapse_foot; decide)
    | (with_reducible apply ChangesOnly.step Dev.takeNext_foot; decide) | with_reducible exact .pair ‹_› ‹_› | split | dsimp only

theorem execRollback_foot {c k : Nat} {dt : Nat} {s : State} : ∃ s', execRollback c k dt s = .next s' ∧ s'.pending = s.pending ∧ ChangesOnly [.mem, .expo, .restore, .flash, .ctxs, .dram, .flint, .qtz, .lat, .heads, .jcs, .mirror, .dw, .out] s.dev s'.dev := by
  unfold execRollback State.run
  refine ⟨_, rfl, rfl, ?_⟩
  try dsimp only
  repeat' first
    | intro _ | with_reducible exact .refl _ _ | with_reducible assumption | with_reducible apply ChangesOnly.ite
    | with_reducible apply ChangesOnly.foldl | (with_reducible apply ChangesOnly.step Dev.elapse_foot; decide)
    | (with_reducible apply ChangesOnly.step Dev.takeNext_foot; decide) | with_reducible exact .pair ‹_› ‹_› | split | dsimp only

theorem execExposureQuery_foot {c k : Nat} {dt : Nat} {s : State} : ∃ s', execExposureQuery c k dt s = .next s' ∧ s'.pending = s.pending ∧ ChangesOnly [.mem, .expo, .restore, .flash, .ctxs, .dram, .flint, .qtz, .lat, .heads, .jcs, .mirror, .dw, .out] s.dev s'.dev := by
  unfold execExposureQuery State.run
  refine ⟨_, rfl, rfl, ?_⟩
  try dsimp only
  repeat' first
    | intro _ | with_reducible exact .refl _ _ | with_reducible assumption | with_reducible apply ChangesOnly.ite
    | with_reducible apply ChangesOnly.foldl | (with_reducible apply ChangesOnly.step Dev.elapse_foot; decide)
    | (with_reducible apply ChangesOnly.step Dev.takeNext_foot; decide) | with_reducible exact .pair ‹_› ‹_› | split | dsimp only

theorem execMeterMark_foot {c k : Nat} {dt : Nat} {s : State} : ∃ s', execMeterMark c k dt s = .next s' ∧ s'.pending = s.pending ∧ ChangesOnly [.mem, .expo, .restore, .flash, .ctxs, .dram, .flint, .qtz, .lat, .heads, .jcs, .mirror, .dw, .out] s.dev s'.dev := by
  unfold execMeterMark State.run
  refine ⟨_, rfl, rfl, ?_⟩
  try dsimp only
  repeat' first
    | intro _ | with_reducible exact .refl _ _ | with_reducible assumption | with_reducible apply ChangesOnly.ite
    | with_reducible apply ChangesOnly.foldl | (with_reducible apply ChangesOnly.step Dev.elapse_foot; decide)
    | (with_reducible apply ChangesOnly.step Dev.takeNext_foot; decide) | with_reducible exact .pair ‹_› ‹_› | split | dsimp only

theorem execNop_foot {c k : Nat} {dt : Nat} {s : State} : ∃ s', execNop c k dt s = .next s' ∧ s'.pending = s.pending ∧ ChangesOnly [.mem, .expo, .restore, .flash, .ctxs, .dram, .flint, .qtz, .lat, .heads, .jcs, .mirror, .dw, .out] s.dev s'.dev := by
  unfold execNop State.run
  refine ⟨_, rfl, rfl, ?_⟩
  try dsimp only
  repeat' first
    | intro _ | with_reducible exact .refl _ _ | with_reducible assumption | with_reducible apply ChangesOnly.ite
    | with_reducible apply ChangesOnly.foldl | (with_reducible apply ChangesOnly.step Dev.elapse_foot; decide)
    | (with_reducible apply ChangesOnly.step Dev.takeNext_foot; decide) | with_reducible exact .pair ‹_› ‹_› | split | dsimp only

theorem execFenceComplete_foot {c k : Nat} {dt : Nat} {s : State} : ∃ s', execFenceComplete c k dt s = .next s' ∧ s'.pending = s.pending ∧ ChangesOnly [.mem, .expo, .restore, .flash, .ctxs, .dram, .flint, .qtz, .lat, .heads, .jcs, .mirror, .dw, .out] s.dev s'.dev := by
  unfold execFenceComplete State.run
  refine ⟨_, rfl, rfl, ?_⟩
  try dsimp only
  repeat' first
    | intro _ | with_reducible exact .refl _ _ | with_reducible assumption | with_reducible apply ChangesOnly.ite
    | with_reducible apply ChangesOnly.foldl | (with_reducible apply ChangesOnly.step Dev.elapse_foot; decide)
    | (with_reducible apply ChangesOnly.step Dev.fenceEnd_foot; decide) | (with_reducible apply ChangesOnly.step Dev.fetchRings_foot; decide)
    | with_reducible exact .pair ‹_› ‹_› | split | dsimp only

theorem execCheckpointStratumSet_foot {c k : Nat} {dt : Nat} {s : State} : ∃ s', execCheckpointStratumSet c k dt s = .next s' ∧ s'.pending = s.pending ∧ ChangesOnly [.ctxs, .qtz] s.dev s'.dev := by
  unfold execCheckpointStratumSet State.run
  refine ⟨_, rfl, rfl, ?_⟩
  try dsimp only
  repeat' first
    | intro _ | with_reducible exact .refl _ _ | with_reducible assumption | with_reducible apply ChangesOnly.ite
    | with_reducible apply ChangesOnly.foldl | (with_reducible apply ChangesOnly.step Dev.elapse_foot; decide)
    | (with_reducible apply ChangesOnly.step Dev.onEntry_foot; decide) | with_reducible exact .pair ‹_› ‹_› | split | dsimp only

theorem execCheckpointComplete_foot {c k : Nat} {m : BitVec 8} {dt : Nat} {s : State} : ∃ s', execCheckpointComplete c k m dt s = .next s' ∧ s'.pending = s.pending ∧ ChangesOnly [.mem, .expo, .restore, .strata, .flash, .ctxs, .dram, .flint, .qtz, .lat, .heads, .jcs, .mirror, .dw, .out] s.dev s'.dev := by
  unfold execCheckpointComplete State.run
  refine ⟨_, rfl, rfl, ?_⟩
  try dsimp only
  repeat' first
    | intro _ | with_reducible exact .refl _ _ | with_reducible assumption | with_reducible apply ChangesOnly.ite
    | with_reducible apply ChangesOnly.foldl | (with_reducible apply ChangesOnly.step Dev.elapse_foot; decide)
    | (with_reducible apply ChangesOnly.step Dev.keyLost_foot; decide) | (with_reducible apply ChangesOnly.step Dev.complete_foot; decide)
    | (with_reducible apply ChangesOnly.step Dev.fetchRings_foot; decide) | (with_reducible apply ChangesOnly.step Dev.ckptTiles_foot; decide)
    | (with_reducible apply ChangesOnly.step Dev.createStratum_foot; decide) | (with_reducible apply ChangesOnly.step Dev.markStreams_foot; decide)
    | with_reducible exact .pair ‹_› ‹_› | split | dsimp only

theorem execRollbackSwitchCommit_foot {c k : Nat} {dt : Nat} {s : State} : ∃ s', execRollbackSwitchCommit c k dt s = .next s' ∧ s'.pending = s.pending ∧ ChangesOnly [.mem, .expo, .restore, .flash, .ctxs, .dram, .flint, .qtz, .lat, .heads, .jcs, .mirror, .dw, .out] s.dev s'.dev := by
  unfold execRollbackSwitchCommit State.run
  refine ⟨_, rfl, rfl, ?_⟩
  try dsimp only
  repeat' first
    | intro _ | with_reducible exact .refl _ _ | with_reducible assumption | with_reducible apply ChangesOnly.ite
    | with_reducible apply ChangesOnly.foldl | (with_reducible apply ChangesOnly.step Dev.onCtxs_foot; decide)
    | (with_reducible apply ChangesOnly.step Dev.elapse_foot; decide) | (with_reducible apply ChangesOnly.step Dev.keyLost_foot; decide)
    | (with_reducible apply ChangesOnly.step Dev.complete_foot; decide) | (with_reducible apply ChangesOnly.step Dev.fetchRings_foot; decide)
    | (with_reducible apply ChangesOnly.step Dev.cleanPages_foot; decide) | (with_reducible apply ChangesOnly.step Dev.onCtx_foot; decide)
    | (with_reducible apply ChangesOnly.step Dev.ctxTo_foot; decide) | (with_reducible apply ChangesOnly.step Dev.ctxSave_foot; decide)
    | (with_reducible apply ChangesOnly.step Dev.onMeter_foot; decide) | (with_reducible apply ChangesOnly.step Dev.rollbackEnd_foot; decide)
    | with_reducible exact .pair ‹_› ‹_› | split | dsimp only

theorem execReversalComplete_foot {p : Nat} {out : Fin 3} {dt : Nat} {s : State} : ∃ s', execReversalComplete p out dt s = .next s' ∧ s'.pending = s.pending ∧ ChangesOnly [.mem, .expo, .restore, .strata, .flash, .ctxs, .dram, .flint, .qtz, .lat, .heads, .dw, .out] s.dev s'.dev := by
  unfold execReversalComplete State.run
  refine ⟨_, rfl, rfl, ?_⟩
  try dsimp only
  repeat' first
    | intro _ | with_reducible exact .refl _ _ | with_reducible assumption | with_reducible apply ChangesOnly.ite
    | with_reducible apply ChangesOnly.foldl | (with_reducible apply ChangesOnly.step Dev.onCtxs_foot; decide)
    | (with_reducible apply ChangesOnly.step Dev.elapse_foot; decide) | (with_reducible apply ChangesOnly.step Dev.revert_foot; decide)
    | (with_reducible apply ChangesOnly.step Dev.markRestored_foot; decide) | (with_reducible apply ChangesOnly.step Dev.fetchDone_foot; decide)
    | (with_reducible apply ChangesOnly.step Dev.revDone_foot; decide) | (with_reducible apply ChangesOnly.step Dev.rollbackEnd_foot; decide)
    | (with_reducible apply ChangesOnly.step Dev.fetchRings_foot; decide) | with_reducible exact .pair ‹_› ‹_› | split | dsimp only

theorem execRollbackBitmapRebuilt_foot {t : Fin 8} {dt : Nat} {s : State} : ∃ s', execRollbackBitmapRebuilt t dt s = .next s' ∧ s'.pending = s.pending ∧ ChangesOnly [.mem, .expo, .restore, .flash, .ctxs, .dram, .flint, .qtz, .lat, .heads, .dw, .out] s.dev s'.dev := by
  unfold execRollbackBitmapRebuilt State.run
  refine ⟨_, rfl, rfl, ?_⟩
  try dsimp only
  repeat' first
    | intro _ | with_reducible exact .refl _ _ | with_reducible assumption | with_reducible apply ChangesOnly.ite
    | with_reducible apply ChangesOnly.foldl | (with_reducible apply ChangesOnly.step Dev.onCtxs_foot; decide)
    | (with_reducible apply ChangesOnly.step Dev.elapse_foot; decide) | (with_reducible apply ChangesOnly.step Dev.onCtx_foot; decide)
    | (with_reducible apply ChangesOnly.step Dev.revDone_foot; decide) | (with_reducible apply ChangesOnly.step Dev.rollbackEnd_foot; decide)
    | (with_reducible apply ChangesOnly.step Dev.fetchRings_foot; decide) | with_reducible exact .pair ‹_› ‹_› | split | dsimp only

theorem execQuiesceComplete_foot {c : Nat} {dt : Nat} {s : State} : ∃ s', execQuiesceComplete c dt s = .next s' ∧ s'.pending = s.pending ∧ ChangesOnly [.expo, .flash, .ctxs, .qtz, .heads, .jcs, .mirror] s.dev s'.dev := by
  unfold execQuiesceComplete State.run
  refine ⟨_, rfl, rfl, ?_⟩
  try dsimp only
  repeat' first
    | intro _ | with_reducible exact .refl _ _ | with_reducible assumption | with_reducible apply ChangesOnly.ite
    | with_reducible apply ChangesOnly.foldl | (with_reducible apply ChangesOnly.step Dev.elapse_foot; decide)
    | (with_reducible apply ChangesOnly.step Dev.onRing_foot; decide) | (with_reducible apply ChangesOnly.step Dev.bgEndAny_foot; decide)
    | (with_reducible apply ChangesOnly.step Dev.ctxTo_foot; decide) | with_reducible exact .pair ‹_› ‹_› | split | dsimp only

theorem execPwrFailNAssert_foot {width : Nat} {taken : Bool} {dt : Nat} {s : State} : ∃ s', execPwrFailNAssert width taken dt s = .next s' ∧ s'.pending = s.pending ∧ ChangesOnly [.mem, .pkg, .expo, .sealing, .restore, .flash, .ctxs, .dram, .energy, .therm, .flint, .qtz, .lat, .heads, .jcs, .slate, .upd, .panel, .dw, .out] s.dev s'.dev := by
  unfold execPwrFailNAssert State.run
  refine ⟨_, rfl, rfl, ?_⟩
  try dsimp only
  repeat' first
    | intro _ | with_reducible exact .refl _ _ | with_reducible assumption | with_reducible apply ChangesOnly.ite
    | with_reducible apply ChangesOnly.foldl | (with_reducible apply ChangesOnly.step Dev.onPanel_foot; decide)
    | (with_reducible apply ChangesOnly.step Dev.elapse_foot; decide) | (with_reducible apply ChangesOnly.step Dev.mainsLost_foot; decide)
    | (with_reducible apply ChangesOnly.step Dev.trigger_foot; decide) | with_reducible exact .pair ‹_› ‹_› | split | dsimp only

theorem execVinSenseLow_foot {width : Nat} {taken : Bool} {dt : Nat} {s : State} : ∃ s', execVinSenseLow width taken dt s = .next s' ∧ s'.pending = s.pending ∧ ChangesOnly [.mem, .pkg, .expo, .sealing, .restore, .flash, .ctxs, .dram, .energy, .therm, .flint, .qtz, .lat, .heads, .jcs, .slate, .upd, .panel, .dw, .out] s.dev s'.dev := by
  unfold execVinSenseLow State.run
  refine ⟨_, rfl, rfl, ?_⟩
  try dsimp only
  repeat' first
    | intro _ | with_reducible exact .refl _ _ | with_reducible assumption | with_reducible apply ChangesOnly.ite
    | with_reducible apply ChangesOnly.foldl | (with_reducible apply ChangesOnly.step Dev.onPanel_foot; decide)
    | (with_reducible apply ChangesOnly.step Dev.elapse_foot; decide) | (with_reducible apply ChangesOnly.step Dev.mainsLost_foot; decide)
    | (with_reducible apply ChangesOnly.step Dev.trigger_foot; decide) | with_reducible exact .pair ‹_› ‹_› | split | dsimp only

theorem execPwrFailNDeassert_foot {dt : Nat} {s : State} : ∃ s', execPwrFailNDeassert dt s = .next s' ∧ s'.pending = s.pending ∧ ChangesOnly [.qtz, .panel] s.dev s'.dev := by
  unfold execPwrFailNDeassert State.run
  refine ⟨_, rfl, rfl, ?_⟩
  try dsimp only
  repeat' first
    | intro _ | with_reducible exact .refl _ _ | with_reducible assumption | with_reducible apply ChangesOnly.ite
    | with_reducible apply ChangesOnly.foldl | (with_reducible apply ChangesOnly.step Dev.onPanel_foot; decide)
    | (with_reducible apply ChangesOnly.step Dev.elapse_foot; decide) | (with_reducible apply ChangesOnly.step Dev.inputsGood_foot; decide)
    | with_reducible exact .pair ‹_› ‹_› | split | dsimp only

theorem execVinSenseHigh_foot {dt : Nat} {s : State} : ∃ s', execVinSenseHigh dt s = .next s' ∧ s'.pending = s.pending ∧ ChangesOnly [.qtz, .panel] s.dev s'.dev := by
  unfold execVinSenseHigh State.run
  refine ⟨_, rfl, rfl, ?_⟩
  try dsimp only
  repeat' first
    | intro _ | with_reducible exact .refl _ _ | with_reducible assumption | with_reducible apply ChangesOnly.ite
    | with_reducible apply ChangesOnly.foldl | (with_reducible apply ChangesOnly.step Dev.onPanel_foot; decide)
    | (with_reducible apply ChangesOnly.step Dev.elapse_foot; decide) | (with_reducible apply ChangesOnly.step Dev.inputsGood_foot; decide)
    | with_reducible exact .pair ‹_› ‹_› | split | dsimp only

theorem execMainsGood_foot {dt : Nat} {s : State} : ∃ s', execMainsGood dt s = .next s' ∧ s'.pending = s.pending ∧ ChangesOnly [.sealing, .restore, .qtz, .panel, .dw] s.dev s'.dev := by
  unfold execMainsGood State.run
  refine ⟨_, rfl, rfl, ?_⟩
  try dsimp only
  repeat' first
    | intro _ | with_reducible exact .refl _ _ | with_reducible assumption | with_reducible apply ChangesOnly.ite
    | with_reducible apply ChangesOnly.foldl | (with_reducible apply ChangesOnly.step Dev.onPanel_foot; decide)
    | (with_reducible apply ChangesOnly.step Dev.onRestore_foot; decide) | (with_reducible apply ChangesOnly.step Dev.onSealing_foot; decide)
    | (with_reducible apply ChangesOnly.step Dev.elapse_foot; decide) | (with_reducible apply ChangesOnly.step Dev.sealUpd_foot; decide)
    | with_reducible exact .pair ‹_› ‹_› | split | dsimp only

theorem execStage1Complete_foot {dt : Nat} {s : State} : ∃ s', execStage1Complete dt s = .next s' ∧ s'.pending = s.pending ∧ ChangesOnly [.pkg, .expo, .sealing, .flash, .dram, .energy, .qtz, .slate, .dw, .freeN] s.dev s'.dev := by
  unfold execStage1Complete State.run
  refine ⟨_, rfl, rfl, ?_⟩
  try dsimp only
  repeat' first
    | intro _ | with_reducible exact .refl _ _ | with_reducible assumption | with_reducible apply ChangesOnly.ite
    | with_reducible apply ChangesOnly.foldl | (with_reducible apply ChangesOnly.step Dev.onSealing_foot; decide)
    | (with_reducible apply ChangesOnly.step Dev.onDram_foot; decide) | (with_reducible apply ChangesOnly.step Dev.elapse_foot; decide)
    | (with_reducible apply ChangesOnly.step Dev.sealArms_foot; decide) | (with_reducible apply ChangesOnly.step Dev.onFl_foot; decide)
    | (with_reducible apply ChangesOnly.step Dev.sealUpd_foot; decide) | (with_reducible apply ChangesOnly.step Dev.stage2Lead_foot; decide)
    | with_reducible exact .pair ‹_› ‹_› | split | dsimp only

theorem execStage2MetadataVerified_foot {t : Fin 8} {dt : Nat} {s : State} : ∃ s', execStage2MetadataVerified t dt s = .next s' ∧ s'.pending = s.pending ∧ ChangesOnly [.mem, .expo, .sealing, .restore, .flash, .ctxs, .dram, .flint, .qtz, .lat, .heads, .dw, .out] s.dev s'.dev := by
  unfold execStage2MetadataVerified State.run
  refine ⟨_, rfl, rfl, ?_⟩
  try dsimp only
  repeat' first
    | intro _ | with_reducible exact .refl _ _ | with_reducible assumption | with_reducible apply ChangesOnly.ite
    | with_reducible apply ChangesOnly.foldl | (with_reducible apply ChangesOnly.step Dev.onExpo_foot; decide)
    | (with_reducible apply ChangesOnly.step Dev.onSealing_foot; decide) | (with_reducible apply ChangesOnly.step Dev.elapse_foot; decide)
    | (with_reducible apply ChangesOnly.step Dev.sealArms_foot; decide) | (with_reducible apply ChangesOnly.step Dev.serve_foot; decide)
    | (with_reducible apply ChangesOnly.step Dev.onFl_foot; decide) | (with_reducible apply ChangesOnly.step Dev.resvPut_foot; decide)
    | with_reducible exact .pair ‹_› ‹_› | split | dsimp only

theorem execStage2Complete_foot {t : Fin 8} {ue : List (Nat × Nat)} {dt : Nat} {s : State} : ∃ s', execStage2Complete t ue dt s = .next s' ∧ s'.pending = s.pending ∧ ChangesOnly [.mem, .expo, .sealing, .flash, .dram, .flint, .qtz, .heads, .slate, .dw] s.dev s'.dev := by
  unfold execStage2Complete State.run
  refine ⟨_, rfl, rfl, ?_⟩
  try dsimp only
  repeat' first
    | intro _ | with_reducible exact .refl _ _ | with_reducible assumption | with_reducible apply ChangesOnly.ite
    | with_reducible apply ChangesOnly.foldl | (with_reducible apply ChangesOnly.step Dev.onSealing_foot; decide)
    | (with_reducible apply ChangesOnly.step Dev.elapse_foot; decide) | (with_reducible apply ChangesOnly.step Dev.sealHeader_foot; decide)
    | (with_reducible apply ChangesOnly.step Dev.toStage_foot; decide) | (with_reducible apply ChangesOnly.step Dev.landUe_foot; decide)
    | (with_reducible apply ChangesOnly.step Dev.sealWorst_foot; decide) | (with_reducible apply ChangesOnly.step Dev.landNext_foot; decide)
    | (with_reducible apply ChangesOnly.step Dev.sealUpd_foot; decide) | with_reducible exact .pair ‹_› ‹_› | split | dsimp only

theorem execStage3Complete_foot {t : Fin 8} {dt : Nat} {s : State} : ∃ s', execStage3Complete t dt s = .next s' ∧ s'.pending = s.pending ∧ ChangesOnly [.sealing, .qtz, .dw] s.dev s'.dev := by
  unfold execStage3Complete State.run
  refine ⟨_, rfl, rfl, ?_⟩
  try dsimp only
  repeat' first
    | intro _ | with_reducible exact .refl _ _ | with_reducible assumption | with_reducible apply ChangesOnly.ite
    | with_reducible apply ChangesOnly.foldl | (with_reducible apply ChangesOnly.step Dev.onSealing_foot; decide)
    | (with_reducible apply ChangesOnly.step Dev.elapse_foot; decide) | (with_reducible apply ChangesOnly.step Dev.toStage_foot; decide)
    | (with_reducible apply ChangesOnly.step Dev.sealWorst_foot; decide) | (with_reducible apply ChangesOnly.step Dev.sealUpd_foot; decide)
    | with_reducible exact .pair ‹_› ‹_› | split | dsimp only

theorem execSealStatusUpdate_foot {dt : Nat} {s : State} : ∃ s', execSealStatusUpdate dt s = .next s' ∧ s'.pending = s.pending ∧ ChangesOnly [.pkg, .qtz, .dw] s.dev s'.dev := by
  unfold execSealStatusUpdate State.run
  refine ⟨_, rfl, rfl, ?_⟩
  try dsimp only
  repeat' first
    | intro _ | with_reducible exact .refl _ _ | with_reducible assumption | with_reducible apply ChangesOnly.ite
    | with_reducible apply ChangesOnly.foldl | (with_reducible apply ChangesOnly.step Dev.elapse_foot; decide)
    | with_reducible apply Dev.periodic_foot (by decide) | (with_reducible apply ChangesOnly.step Dev.sealUpd_foot; decide)
    | with_reducible exact .pair ‹_› ‹_› | split | dsimp only

theorem execEnergyFloorReached_foot {dt : Nat} {s : State} : ∃ s', execEnergyFloorReached dt s = .next s' ∧ s'.pending = s.pending ∧ ChangesOnly [.expo, .sealing, .flash, .qtz, .dw] s.dev s'.dev := by
  unfold execEnergyFloorReached State.run
  refine ⟨_, rfl, rfl, ?_⟩
  try dsimp only
  repeat' first
    | intro _ | with_reducible exact .refl _ _ | with_reducible assumption | with_reducible apply ChangesOnly.ite
    | with_reducible apply ChangesOnly.foldl | (with_reducible apply ChangesOnly.step Dev.onExpo_foot; decide)
    | (with_reducible apply ChangesOnly.step Dev.onSealing_foot; decide) | (with_reducible apply ChangesOnly.step Dev.elapse_foot; decide)
    | (with_reducible apply ChangesOnly.step Dev.onFlow_foot; decide) | (with_reducible apply ChangesOnly.step Dev.sealUpd_foot; decide)
    | with_reducible exact .pair ‹_› ‹_› | split | dsimp only

theorem execSealProgramFail_foot {t : Fin 8} {blk : Nat} {dt : Nat} {s : State} : ∃ s', execSealProgramFail t blk dt s = .next s' ∧ s'.pending = s.pending ∧ ChangesOnly [.expo, .sealing, .flash, .qtz] s.dev s'.dev := by
  unfold execSealProgramFail State.run
  refine ⟨_, rfl, rfl, ?_⟩
  try dsimp only
  repeat' first
    | intro _ | with_reducible exact .refl _ _ | with_reducible assumption | with_reducible apply ChangesOnly.ite
    | with_reducible apply ChangesOnly.foldl | (with_reducible apply ChangesOnly.step Dev.elapse_foot; decide)
    | (with_reducible apply ChangesOnly.step Dev.onFl_foot; decide) | (with_reducible apply ChangesOnly.step Dev.resvFail_foot; decide)
    | (with_reducible apply ChangesOnly.step Dev.landFail_foot; decide) | (with_reducible apply ChangesOnly.step Dev.onBlk_foot; decide)
    | with_reducible exact .pair ‹_› ‹_› | split | dsimp only

theorem execTileSealRecordWritten_foot {t : Fin 8} {dt : Nat} {s : State} : ∃ s', execTileSealRecordWritten t dt s = .next s' ∧ s'.pending = s.pending ∧ ChangesOnly [.expo, .sealing, .flash, .qtz, .dw] s.dev s'.dev := by
  unfold execTileSealRecordWritten State.run
  refine ⟨_, rfl, rfl, ?_⟩
  try dsimp only
  repeat' first
    | intro _ | with_reducible exact .refl _ _ | with_reducible assumption | with_reducible apply ChangesOnly.ite
    | with_reducible apply ChangesOnly.foldl | (with_reducible apply ChangesOnly.step Dev.onSealing_foot; decide)
    | (with_reducible apply ChangesOnly.step Dev.elapse_foot; decide) | (with_reducible apply ChangesOnly.step Dev.ledger_foot; decide)
    | (with_reducible apply ChangesOnly.step Dev.toStage_foot; decide) | (with_reducible apply ChangesOnly.step Dev.sealUpd_foot; decide)
    | with_reducible exact .pair ‹_› ‹_› | split | dsimp only

theorem execPackageSealRecordWritten_foot {canary : BitVec 8} {dt : Nat} {s : State} : ∃ s', execPackageSealRecordWritten canary dt s = .next s' ∧ s'.pending = s.pending ∧ ChangesOnly [.mem, .pkg, .expo, .sealing, .restore, .strata, .flash, .ctxs, .dram, .energy, .flint, .qtz, .lat, .heads, .jcs, .slate, .upd, .panel, .mirror, .dw, .out] s.dev s'.dev := by
  unfold execPackageSealRecordWritten State.run
  refine ⟨_, rfl, rfl, ?_⟩
  try dsimp only
  repeat' first
    | intro _ | with_reducible exact .refl _ _ | with_reducible assumption | with_reducible apply ChangesOnly.ite
    | with_reducible apply ChangesOnly.foldl | (with_reducible apply ChangesOnly.step Dev.onSealing_foot; decide)
    | (with_reducible apply ChangesOnly.step Dev.elapse_foot; decide) | (with_reducible apply ChangesOnly.step Dev.ledger_foot; decide)
    | (with_reducible apply ChangesOnly.step Dev.testEnd_foot; decide) | (with_reducible apply ChangesOnly.step Dev.sealLearn_foot; decide)
    | (with_reducible apply ChangesOnly.step Dev.sealRecord_foot; decide) | (with_reducible apply ChangesOnly.step Dev.warmReturn_foot; decide)
    | (with_reducible apply ChangesOnly.step Dev.stage5Begin_foot; decide) | with_reducible exact .pair ‹_› ‹_› | split | dsimp only

theorem execStage5Complete_foot {dt : Nat} {s : State} : ∃ s', execStage5Complete dt s = .next s' ∧ s'.pending = s.pending ∧ ChangesOnly [.pkg, .expo, .sealing, .restore, .energy, .therm, .flint, .qtz, .snap, .slate, .panel, .dw, .freeN] s.dev s'.dev := by
  unfold execStage5Complete State.run
  refine ⟨_, rfl, rfl, ?_⟩
  try dsimp only
  repeat' first
    | intro _ | with_reducible exact .refl _ _ | with_reducible assumption | with_reducible apply ChangesOnly.ite
    | with_reducible apply ChangesOnly.foldl | (with_reducible apply ChangesOnly.step Dev.onSealing_foot; decide)
    | (with_reducible apply ChangesOnly.step Dev.onRestore_foot; decide) | (with_reducible apply ChangesOnly.step Dev.onPanel_foot; decide)
    | (with_reducible apply ChangesOnly.step Dev.onSnap_foot; decide) | (with_reducible apply ChangesOnly.step Dev.elapse_foot; decide)
    | (with_reducible apply ChangesOnly.step Dev.sealLearn_foot; decide) | (with_reducible apply ChangesOnly.step Dev.sealRecord_foot; decide)
    | (with_reducible apply ChangesOnly.step Dev.stateWrite_foot; decide) | (with_reducible apply ChangesOnly.step Dev.stampFloor_foot; decide)
    | (with_reducible apply ChangesOnly.step Dev.thermKeep_foot; decide) | (with_reducible apply ChangesOnly.step Dev.flintExtract_foot; decide)
    | (with_reducible apply ChangesOnly.step Dev.snapKeep_foot; decide) | (with_reducible apply ChangesOnly.step Dev.sealUpd_foot; decide)
    | (with_reducible apply ChangesOnly.step Dev.disqualify_foot; decide) | (with_reducible apply ChangesOnly.step Dev.hibernate_foot; decide)
    | with_reducible exact .pair ‹_› ‹_› | split | dsimp only

theorem execResetNAssert_foot {dt : Nat} {s : State} : ∃ s', execResetNAssert dt s = .next s' ∧ s'.pending = s.pending ∧ ChangesOnly [.qtz, .panel] s.dev s'.dev := by
  unfold execResetNAssert State.run
  refine ⟨_, rfl, rfl, ?_⟩
  try dsimp only
  repeat' first
    | intro _ | with_reducible exact .refl _ _ | with_reducible assumption | with_reducible apply ChangesOnly.ite
    | with_reducible apply ChangesOnly.foldl | (with_reducible apply ChangesOnly.step Dev.onPanel_foot; decide)
    | (with_reducible apply ChangesOnly.step Dev.elapse_foot; decide) | with_reducible exact .pair ‹_› ‹_› | split | dsimp only

theorem execResetNRelease_foot {dt : Nat} {s : State} : ∃ s', execResetNRelease dt s = .next s' ∧ s'.pending = s.pending ∧ ChangesOnly [.mem, .pkg, .expo, .sealing, .restore, .flash, .ctxs, .dram, .energy, .therm, .flint, .qtz, .lat, .heads, .jcs, .slate, .upd, .panel, .dw, .out] s.dev s'.dev := by
  unfold execResetNRelease State.run
  refine ⟨_, rfl, rfl, ?_⟩
  try dsimp only
  repeat' first
    | intro _ | with_reducible exact .refl _ _ | with_reducible assumption | with_reducible apply ChangesOnly.ite
    | with_reducible apply ChangesOnly.foldl | (with_reducible apply ChangesOnly.step Dev.onPanel_foot; decide)
    | (with_reducible apply ChangesOnly.step Dev.elapse_foot; decide) | (with_reducible apply ChangesOnly.step Dev.powerStart_foot; decide)
    | (with_reducible apply ChangesOnly.step Dev.forcedReset_foot; decide) | (with_reducible apply ChangesOnly.step Dev.trigger_foot; decide)
    | with_reducible exact .pair ‹_› ‹_› | split | dsimp only

theorem execForcedReset_foot {dt : Nat} {s : State} : ∃ s', execForcedReset dt s = .next s' ∧ s'.pending = s.pending ∧ ChangesOnly [.pkg, .expo, .sealing, .restore, .dram, .energy, .therm, .flint, .qtz, .panel, .dw, .out] s.dev s'.dev := by
  unfold execForcedReset State.run
  refine ⟨_, rfl, rfl, ?_⟩
  try dsimp only
  repeat' first
    | intro _ | with_reducible exact .refl _ _ | with_reducible assumption | with_reducible apply ChangesOnly.ite
    | with_reducible apply ChangesOnly.foldl | (with_reducible apply ChangesOnly.step Dev.onPanel_foot; decide)
    | (with_reducible apply ChangesOnly.step Dev.elapse_foot; decide) | (with_reducible apply ChangesOnly.step Dev.forcedReset_foot; decide)
    | (with_reducible apply ChangesOnly.step Dev.powerStart_foot; decide) | with_reducible exact .pair ‹_› ‹_› | split | dsimp only

theorem execTestSealPathVerified_foot {ok : Bool} {dt : Nat} {s : State} : ∃ s', execTestSealPathVerified ok dt s = .next s' ∧ s'.pending = s.pending ∧ ChangesOnly [.mem, .pkg, .expo, .sealing, .restore, .strata, .flash, .ctxs, .dram, .energy, .flint, .qtz, .lat, .heads, .jcs, .slate, .upd, .panel, .mirror, .dw, .out] s.dev s'.dev := by
  unfold execTestSealPathVerified State.run
  refine ⟨_, rfl, rfl, ?_⟩
  try dsimp only
  repeat' first
    | intro _ | with_reducible exact .refl _ _ | with_reducible assumption | with_reducible apply ChangesOnly.ite
    | with_reducible apply ChangesOnly.foldl | (with_reducible apply ChangesOnly.step Dev.onSealing_foot; decide)
    | (with_reducible apply ChangesOnly.step Dev.elapse_foot; decide) | (with_reducible apply ChangesOnly.step Dev.sealFreeze_foot; decide)
    | (with_reducible apply ChangesOnly.step Dev.testEnd_foot; decide) | with_reducible exact .pair ‹_› ‹_› | split | dsimp only

theorem execTestSealHoldLimit_foot {dt : Nat} {s : State} : ∃ s', execTestSealHoldLimit dt s = .next s' ∧ s'.pending = s.pending ∧ ChangesOnly [.sealing, .qtz] s.dev s'.dev := by
  unfold execTestSealHoldLimit State.run
  refine ⟨_, rfl, rfl, ?_⟩
  try dsimp only
  repeat' first
    | intro _ | with_reducible exact .refl _ _ | with_reducible assumption | with_reducible apply ChangesOnly.ite
    | with_reducible apply ChangesOnly.foldl | (with_reducible apply ChangesOnly.step Dev.onSealing_foot; decide)
    | (with_reducible apply ChangesOnly.step Dev.elapse_foot; decide) | with_reducible exact .pair ‹_› ‹_› | split | dsimp only

theorem execSlateCmdWrite_foot {t : Fin 8} {code : BitVec 8} {dt : Nat} {s : State} : ∃ s', execSlateCmdWrite t code dt s = .next s' ∧ s'.pending = s.pending ∧ ChangesOnly [.flint, .qtz, .slate] s.dev s'.dev := by
  unfold execSlateCmdWrite State.run
  refine ⟨_, rfl, rfl, ?_⟩
  try dsimp only
  repeat' first
    | intro _ | with_reducible exact .refl _ _ | with_reducible assumption | with_reducible apply ChangesOnly.ite
    | with_reducible apply ChangesOnly.foldl | (with_reducible apply ChangesOnly.step Dev.elapse_foot; decide)
    | (with_reducible apply ChangesOnly.step Dev.slCmdWrite_foot; decide) | with_reducible exact .pair ‹_› ‹_› | split | dsimp only

theorem execProgramLine_foot {t : Fin 8} {addr : BitVec 23} {data : BitVec 128} {fetch : Fin 3} {dt : Nat} {s : State} : ∃ s', execProgramLine t addr data fetch dt s = .next s' ∧ s'.pending = s.pending ∧ ChangesOnly [.expo, .restore, .ctxs, .flint, .qtz, .slate] s.dev s'.dev := by
  unfold execProgramLine State.run
  refine ⟨_, rfl, rfl, ?_⟩
  try dsimp only
  repeat' first
    | intro _ | with_reducible exact .refl _ _ | with_reducible assumption | with_reducible apply ChangesOnly.ite
    | with_reducible apply ChangesOnly.foldl | (with_reducible apply ChangesOnly.step Dev.elapse_foot; decide)
    | (with_reducible apply ChangesOnly.step Dev.operandWrite_foot; decide) | (with_reducible apply ChangesOnly.step Dev.fetch_foot; decide)
    | with_reducible exact .pair ‹_› ‹_› | split | dsimp only

theorem execEraseSector_foot {t : Fin 8} {addr : BitVec 23} {fetch : Fin 3} {purpose : Fin 4} {dt : Nat} {s : State} : ∃ s', execEraseSector t addr fetch purpose dt s = .next s' ∧ s'.pending = s.pending ∧ ChangesOnly [.expo, .restore, .ctxs, .flint, .qtz, .slate] s.dev s'.dev := by
  unfold execEraseSector State.run
  refine ⟨_, rfl, rfl, ?_⟩
  try dsimp only
  repeat' first
    | intro _ | with_reducible exact .refl _ _ | with_reducible assumption | with_reducible apply ChangesOnly.ite
    | with_reducible apply ChangesOnly.foldl | (with_reducible apply ChangesOnly.step Dev.elapse_foot; decide)
    | (with_reducible apply ChangesOnly.step Dev.operandWrite_foot; decide) | (with_reducible apply ChangesOnly.step Dev.fetch_foot; decide)
    | with_reducible exact .pair ‹_› ‹_› | split | dsimp only

theorem execMarginVerify_foot {t : Fin 8} {addr : BitVec 23} {fetch : Fin 3} {dt : Nat} {s : State} : ∃ s', execMarginVerify t addr fetch dt s = .next s' ∧ s'.pending = s.pending ∧ ChangesOnly [.expo, .restore, .ctxs, .flint, .qtz, .slate] s.dev s'.dev := by
  unfold execMarginVerify State.run
  refine ⟨_, rfl, rfl, ?_⟩
  try dsimp only
  repeat' first
    | intro _ | with_reducible exact .refl _ _ | with_reducible assumption | with_reducible apply ChangesOnly.ite
    | with_reducible apply ChangesOnly.foldl | (with_reducible apply ChangesOnly.step Dev.elapse_foot; decide)
    | (with_reducible apply ChangesOnly.step Dev.operandWrite_foot; decide) | (with_reducible apply ChangesOnly.step Dev.fetch_foot; decide)
    | with_reducible exact .pair ‹_› ‹_› | split | dsimp only

theorem execReadEraseCounter_foot {t : Fin 8} {addr : BitVec 23} {fetch : Fin 3} {dt : Nat} {s : State} : ∃ s', execReadEraseCounter t addr fetch dt s = .next s' ∧ s'.pending = s.pending ∧ ChangesOnly [.expo, .restore, .ctxs, .flint, .qtz, .slate] s.dev s'.dev := by
  unfold execReadEraseCounter State.run
  refine ⟨_, rfl, rfl, ?_⟩
  try dsimp only
  repeat' first
    | intro _ | with_reducible exact .refl _ _ | with_reducible assumption | with_reducible apply ChangesOnly.ite
    | with_reducible apply ChangesOnly.foldl | (with_reducible apply ChangesOnly.step Dev.elapse_foot; decide)
    | (with_reducible apply ChangesOnly.step Dev.operandWrite_foot; decide) | (with_reducible apply ChangesOnly.step Dev.fetch_foot; decide)
    | with_reducible exact .pair ‹_› ‹_› | split | dsimp only

theorem execSwapBootTwin_foot {t : Fin 8} {addr : BitVec 23} {fetch : Fin 3} {dt : Nat} {s : State} : ∃ s', execSwapBootTwin t addr fetch dt s = .next s' ∧ s'.pending = s.pending ∧ ChangesOnly [.expo, .restore, .ctxs, .flint, .qtz, .slate] s.dev s'.dev := by
  unfold execSwapBootTwin State.run
  refine ⟨_, rfl, rfl, ?_⟩
  try dsimp only
  repeat' first
    | intro _ | with_reducible exact .refl _ _ | with_reducible assumption | with_reducible apply ChangesOnly.ite
    | with_reducible apply ChangesOnly.foldl | (with_reducible apply ChangesOnly.step Dev.elapse_foot; decide)
    | (with_reducible apply ChangesOnly.step Dev.operandWrite_foot; decide) | (with_reducible apply ChangesOnly.step Dev.fetch_foot; decide)
    | with_reducible exact .pair ‹_› ‹_› | split | dsimp only

theorem execBlankCheck_foot {t : Fin 8} {addr : BitVec 23} {fetch : Fin 3} {dt : Nat} {s : State} : ∃ s', execBlankCheck t addr fetch dt s = .next s' ∧ s'.pending = s.pending ∧ ChangesOnly [.expo, .restore, .ctxs, .flint, .qtz, .slate] s.dev s'.dev := by
  unfold execBlankCheck State.run
  refine ⟨_, rfl, rfl, ?_⟩
  try dsimp only
  repeat' first
    | intro _ | with_reducible exact .refl _ _ | with_reducible assumption | with_reducible apply ChangesOnly.ite
    | with_reducible apply ChangesOnly.foldl | (with_reducible apply ChangesOnly.step Dev.elapse_foot; decide)
    | (with_reducible apply ChangesOnly.step Dev.operandWrite_foot; decide) | (with_reducible apply ChangesOnly.step Dev.fetch_foot; decide)
    | with_reducible exact .pair ‹_› ‹_› | split | dsimp only

theorem execSlateSequenceTimeout_foot {t : Fin 8} {dt : Nat} {s : State} : ∃ s', execSlateSequenceTimeout t dt s = .next s' ∧ s'.pending = s.pending ∧ ChangesOnly [.flint, .qtz, .slate] s.dev s'.dev := by
  unfold execSlateSequenceTimeout State.run
  refine ⟨_, rfl, rfl, ?_⟩
  try dsimp only
  repeat' first
    | intro _ | with_reducible exact .refl _ _ | with_reducible assumption | with_reducible apply ChangesOnly.ite
    | with_reducible apply ChangesOnly.foldl | (with_reducible apply ChangesOnly.step Dev.elapse_foot; decide)
    | (with_reducible apply ChangesOnly.step Dev.slRefuse_foot; decide) | with_reducible exact .pair ‹_› ‹_› | split | dsimp only

theorem execSlateOperationDone_foot {t : Fin 8} {bank : Fin 2} {ok : Bool} {pulses : BitVec 6} {fail : BitVec 24} {dt : Nat} {s : State} : ∃ s', execSlateOperationDone t bank ok pulses fail dt s = .next s' ∧ s'.pending = s.pending ∧ ChangesOnly [.flint, .qtz, .slate, .upd] s.dev s'.dev := by
  unfold execSlateOperationDone State.run
  refine ⟨_, rfl, rfl, ?_⟩
  try dsimp only
  repeat' first
    | intro _ | with_reducible exact .refl _ _ | with_reducible assumption | with_reducible apply ChangesOnly.ite
    | with_reducible apply ChangesOnly.foldl | (with_reducible apply ChangesOnly.step Dev.elapse_foot; decide)
    | (with_reducible apply ChangesOnly.step Dev.onSl_foot; decide) | (with_reducible apply ChangesOnly.step Dev.opEnds_foot; decide)
    | (with_reducible apply ChangesOnly.step Dev.eraseEnds_foot; decide) | (with_reducible apply ChangesOnly.step Dev.raise_foot; decide)
    | (with_reducible apply ChangesOnly.step Dev.sectorFails_foot; decide) | (with_reducible apply ChangesOnly.step Dev.eraseDone_foot; decide)
    | with_reducible exact .pair ‹_› ‹_› | split | dsimp only

theorem execSuspend_foot {t : Fin 8} {dt : Nat} {s : State} : ∃ s', execSuspend t dt s = .next s' ∧ s'.pending = s.pending ∧ ChangesOnly [.flint, .qtz, .slate] s.dev s'.dev := by
  unfold execSuspend State.run
  refine ⟨_, rfl, rfl, ?_⟩
  try dsimp only
  repeat' first
    | intro _ | with_reducible exact .refl _ _ | with_reducible assumption | with_reducible apply ChangesOnly.ite
    | with_reducible apply ChangesOnly.foldl | (with_reducible apply ChangesOnly.step Dev.elapse_foot; decide)
    | (with_reducible apply ChangesOnly.step Dev.slTouch_foot; decide) | (with_reducible apply ChangesOnly.step Dev.slSuspend_foot; decide)
    | with_reducible exact .pair ‹_› ‹_› | split | dsimp only

theorem execResume_foot {t : Fin 8} {dt : Nat} {s : State} : ∃ s', execResume t dt s = .next s' ∧ s'.pending = s.pending ∧ ChangesOnly [.flint, .qtz, .slate] s.dev s'.dev := by
  unfold execResume State.run
  refine ⟨_, rfl, rfl, ?_⟩
  try dsimp only
  repeat' first
    | intro _ | with_reducible exact .refl _ _ | with_reducible assumption | with_reducible apply ChangesOnly.ite
    | with_reducible apply ChangesOnly.foldl | (with_reducible apply ChangesOnly.step Dev.elapse_foot; decide)
    | (with_reducible apply ChangesOnly.step Dev.slTouch_foot; decide) | (with_reducible apply ChangesOnly.step Dev.slResume_foot; decide)
    | with_reducible exact .pair ‹_› ‹_› | split | dsimp only

theorem execSlateKey_foot {t : Fin 8} {off : BitVec 7} {v : BitVec 64} {fetch : Fin 3} {purpose : Fin 4} {dt : Nat} {s : State} : ∃ s', execSlateKey t off v fetch purpose dt s = .next s' ∧ s'.pending = s.pending ∧ ChangesOnly [.expo, .restore, .ctxs, .flint, .qtz, .slate] s.dev s'.dev := by
  unfold execSlateKey State.run
  refine ⟨_, rfl, rfl, ?_⟩
  try dsimp only
  repeat' first
    | intro _ | with_reducible exact .refl _ _ | with_reducible assumption | with_reducible apply ChangesOnly.ite
    | with_reducible apply ChangesOnly.foldl | (with_reducible apply ChangesOnly.step Dev.elapse_foot; decide)
    | (with_reducible apply ChangesOnly.step Dev.slateRegWrite_foot; decide) | (with_reducible apply ChangesOnly.step Dev.fetch_foot; decide)
    | with_reducible exact .pair ‹_› ‹_› | split | dsimp only

theorem execSuspendHoldEnd_foot {t : Fin 8} {dt : Nat} {s : State} : ∃ s', execSuspendHoldEnd t dt s = .next s' ∧ s'.pending = s.pending ∧ ChangesOnly [.qtz, .slate] s.dev s'.dev := by
  unfold execSuspendHoldEnd State.run
  refine ⟨_, rfl, rfl, ?_⟩
  try dsimp only
  repeat' first
    | intro _ | with_reducible exact .refl _ _ | with_reducible assumption | with_reducible apply ChangesOnly.ite
    | with_reducible apply ChangesOnly.foldl | (with_reducible apply ChangesOnly.step Dev.elapse_foot; decide)
    | (with_reducible apply ChangesOnly.step Dev.onSl_foot; decide) | with_reducible exact .pair ‹_› ‹_› | split | dsimp only

theorem execSuspended_foot {t : Fin 8} {dt : Nat} {s : State} : ∃ s', execSuspended t dt s = .next s' ∧ s'.pending = s.pending ∧ ChangesOnly [.qtz, .slate] s.dev s'.dev := by
  unfold execSuspended State.run
  refine ⟨_, rfl, rfl, ?_⟩
  try dsimp only
  repeat' first
    | intro _ | with_reducible exact .refl _ _ | with_reducible assumption | with_reducible apply ChangesOnly.ite
    | with_reducible apply ChangesOnly.foldl | (with_reducible apply ChangesOnly.step Dev.elapse_foot; decide)
    | (with_reducible apply ChangesOnly.step Dev.onSl_foot; decide) | with_reducible exact .pair ‹_› ‹_› | split | dsimp only

theorem execSlateReadUnderrun_foot {t : Fin 8} {err : Fin 4} {dt : Nat} {s : State} : ∃ s', execSlateReadUnderrun t err dt s = .next s' ∧ s'.pending = s.pending ∧ ChangesOnly [.flint, .qtz, .slate] s.dev s'.dev := by
  unfold execSlateReadUnderrun State.run
  refine ⟨_, rfl, rfl, ?_⟩
  try dsimp only
  repeat' first
    | intro _ | with_reducible exact .refl _ _ | with_reducible assumption | with_reducible apply ChangesOnly.ite
    | with_reducible apply ChangesOnly.foldl | (with_reducible apply ChangesOnly.step Dev.elapse_foot; decide)
    | (with_reducible apply ChangesOnly.step Dev.onSl_foot; decide) | (with_reducible apply ChangesOnly.step Dev.raise_foot; decide)
    | (with_reducible apply ChangesOnly.step Dev.slateReadErr_foot; decide) | with_reducible exact .pair ‹_› ‹_› | split | dsimp only

theorem execParameterRecordWrite_foot {t : Fin 8} {typ len : Nat} {dt : Nat} {s : State} : ∃ s', execParameterRecordWrite t typ len dt s = .next s' ∧ s'.pending = s.pending ∧ ChangesOnly [.qtz, .slate, .freeN] s.dev s'.dev := by
  unfold execParameterRecordWrite State.run
  refine ⟨_, rfl, rfl, ?_⟩
  try dsimp only
  repeat' first
    | intro _ | with_reducible exact .refl _ _ | with_reducible assumption | with_reducible apply ChangesOnly.ite
    | with_reducible apply ChangesOnly.foldl | (with_reducible apply ChangesOnly.step Dev.elapse_foot; decide)
    | (with_reducible apply ChangesOnly.step Dev.recWrite_foot; decide) | with_reducible exact .pair ‹_› ‹_› | split | dsimp only

theorem execEventStoreRotation_foot {t : Fin 8} {dt : Nat} {s : State} : ∃ s', execEventStoreRotation t dt s = .next s' ∧ s'.pending = s.pending ∧ ChangesOnly [.qtz, .slate] s.dev s'.dev := by
  unfold execEventStoreRotation State.run
  refine ⟨_, rfl, rfl, ?_⟩
  try dsimp only
  repeat' first
    | intro _ | with_reducible exact .refl _ _ | with_reducible assumption | with_reducible apply ChangesOnly.ite
    | with_reducible apply ChangesOnly.foldl | (with_reducible apply ChangesOnly.step Dev.elapse_foot; decide)
    | (with_reducible apply ChangesOnly.step Dev.storeMove_foot; decide) | with_reducible exact .pair ‹_› ‹_› | split | dsimp only

theorem execSlateRefresh_foot {t : Fin 8} {sector : Fin 63} {marginFails : Bool} {dt : Nat} {s : State} : ∃ s', execSlateRefresh t sector marginFails dt s = .next s' ∧ s'.pending = s.pending ∧ ChangesOnly [.flint, .qtz, .slate] s.dev s'.dev := by
  unfold execSlateRefresh State.run
  refine ⟨_, rfl, rfl, ?_⟩
  try dsimp only
  repeat' first
    | intro _ | with_reducible exact .refl _ _ | with_reducible assumption | with_reducible apply ChangesOnly.ite
    | with_reducible apply ChangesOnly.foldl | (with_reducible apply ChangesOnly.step Dev.elapse_foot; decide)
    | (with_reducible apply ChangesOnly.step Dev.onSl_foot; decide) | (with_reducible apply ChangesOnly.step Dev.raise_foot; decide)
    | (with_reducible apply ChangesOnly.step Dev.eraseRun_foot; decide) | (with_reducible apply ChangesOnly.step Dev.storeMove_foot; decide)
    | (with_reducible apply ChangesOnly.step Dev.recDueOn_foot; decide) | with_reducible exact .pair ‹_› ‹_› | split | dsimp only

theorem execThermalStatusUpdate_foot {dt : Nat} {s : State} : ∃ s', execThermalStatusUpdate dt s = .next s' ∧ s'.pending = s.pending ∧ ChangesOnly [.pkg, .qtz, .dw] s.dev s'.dev := by
  unfold execThermalStatusUpdate State.run
  refine ⟨_, rfl, rfl, ?_⟩
  try dsimp only
  repeat' first
    | intro _ | with_reducible exact .refl _ _ | with_reducible assumption | with_reducible apply ChangesOnly.ite
    | with_reducible apply ChangesOnly.foldl | (with_reducible apply ChangesOnly.step Dev.elapse_foot; decide)
    | with_reducible apply Dev.periodic_foot (by decide) | (with_reducible apply ChangesOnly.step Dev.thermUpd_foot; decide)
    | with_reducible exact .pair ‹_› ‹_› | split | dsimp only

theorem execThermalRecordWrite_foot {dt : Nat} {s : State} : ∃ s', execThermalRecordWrite dt s = .next s' ∧ s'.pending = s.pending ∧ ChangesOnly [.therm, .qtz, .slate] s.dev s'.dev := by
  unfold execThermalRecordWrite State.run
  refine ⟨_, rfl, rfl, ?_⟩
  try dsimp only
  repeat' first
    | intro _ | with_reducible exact .refl _ _ | with_reducible assumption | with_reducible apply ChangesOnly.ite
    | with_reducible apply ChangesOnly.foldl | (with_reducible apply ChangesOnly.step Dev.elapse_foot; decide)
    | (with_reducible apply ChangesOnly.step Dev.stampFloor_foot; decide) | (with_reducible apply ChangesOnly.step Dev.thermKeep_foot; decide)
    | with_reducible exact .pair ‹_› ‹_› | split | dsimp only

theorem execThrottleStep_foot {t : Fin 8} {dt : Nat} {s : State} : ∃ s', execThrottleStep t dt s = .next s' ∧ s'.pending = s.pending ∧ ChangesOnly [.mem, .pkg, .expo, .restore, .ctxs, .dram, .therm, .flint, .qtz, .lat, .heads, .slate, .dw, .out] s.dev s'.dev := by
  unfold execThrottleStep State.run
  refine ⟨_, rfl, rfl, ?_⟩
  try dsimp only
  repeat' first
    | intro _ | with_reducible exact .refl _ _ | with_reducible assumption | with_reducible apply ChangesOnly.ite
    | with_reducible apply ChangesOnly.foldl | (with_reducible apply ChangesOnly.step Dev.elapse_foot; decide)
    | (with_reducible apply ChangesOnly.step Dev.onTtile_foot; decide) | (with_reducible apply ChangesOnly.step Dev.levelUpd_foot; decide)
    | (with_reducible apply ChangesOnly.step Dev.thermShow_foot; decide) | with_reducible exact .pair ‹_› ‹_› | split | dsimp only

theorem execThrottleFall_foot {t : Fin 8} {dt : Nat} {s : State} : ∃ s', execThrottleFall t dt s = .next s' ∧ s'.pending = s.pending ∧ ChangesOnly [.mem, .pkg, .expo, .restore, .ctxs, .dram, .therm, .flint, .qtz, .lat, .heads, .slate, .dw, .out] s.dev s'.dev := by
  unfold execThrottleFall State.run
  refine ⟨_, rfl, rfl, ?_⟩
  try dsimp only
  repeat' first
    | intro _ | with_reducible exact .refl _ _ | with_reducible assumption | with_reducible apply ChangesOnly.ite
    | with_reducible apply ChangesOnly.foldl | (with_reducible apply ChangesOnly.step Dev.elapse_foot; decide)
    | (with_reducible apply ChangesOnly.step Dev.onTtile_foot; decide) | (with_reducible apply ChangesOnly.step Dev.levelUpd_foot; decide)
    | (with_reducible apply ChangesOnly.step Dev.thermShow_foot; decide) | with_reducible exact .pair ‹_› ‹_› | split | dsimp only

theorem execFreezeEnd_foot {t : Fin 8} {dt : Nat} {s : State} : ∃ s', execFreezeEnd t dt s = .next s' ∧ s'.pending = s.pending ∧ ChangesOnly [.mem, .pkg, .expo, .restore, .ctxs, .dram, .therm, .flint, .qtz, .lat, .heads, .slate, .dw, .out] s.dev s'.dev := by
  unfold execFreezeEnd State.run
  refine ⟨_, rfl, rfl, ?_⟩
  try dsimp only
  repeat' first
    | intro _ | with_reducible exact .refl _ _ | with_reducible assumption | with_reducible apply ChangesOnly.ite
    | with_reducible apply ChangesOnly.foldl | (with_reducible apply ChangesOnly.step Dev.elapse_foot; decide)
    | (with_reducible apply ChangesOnly.step Dev.onTtile_foot; decide) | (with_reducible apply ChangesOnly.step Dev.levelUpd_foot; decide)
    | (with_reducible apply ChangesOnly.step Dev.thermUpd_foot; decide) | with_reducible exact .pair ‹_› ‹_› | split | dsimp only

theorem execThresholdLevelLeave_foot {n : Fin 72} {k : Fin 3} {dt : Nat} {s : State} : ∃ s', execThresholdLevelLeave n k dt s = .next s' ∧ s'.pending = s.pending ∧ ChangesOnly [.mem, .pkg, .expo, .restore, .ctxs, .dram, .therm, .flint, .qtz, .lat, .heads, .slate, .dw, .out] s.dev s'.dev := by
  unfold execThresholdLevelLeave State.run
  refine ⟨_, rfl, rfl, ?_⟩
  try dsimp only
  repeat' first
    | intro _ | with_reducible exact .refl _ _ | with_reducible assumption | with_reducible apply ChangesOnly.ite
    | with_reducible apply ChangesOnly.foldl | (with_reducible apply ChangesOnly.step Dev.elapse_foot; decide)
    | (with_reducible apply ChangesOnly.step Dev.onSens_foot; decide) | (with_reducible apply ChangesOnly.step Dev.raise_foot; decide)
    | (with_reducible apply ChangesOnly.step Dev.thermShow_foot; decide) | (with_reducible apply ChangesOnly.step Dev.tileHeat_foot; decide)
    | with_reducible exact .pair ‹_› ‹_› | split | dsimp only

theorem execThermalSample_foot {codes : List (Nat × BitVec 18)} {dt : Nat} {s : State} : ∃ s', execThermalSample codes dt s = .next s' ∧ s'.pending = s.pending ∧ ChangesOnly [.mem, .pkg, .expo, .sealing, .restore, .flash, .ctxs, .dram, .energy, .therm, .flint, .qtz, .lat, .heads, .jcs, .slate, .upd, .panel, .dw, .out] s.dev s'.dev := by
  unfold execThermalSample State.run
  refine ⟨_, rfl, rfl, ?_⟩
  try dsimp only
  repeat' first
    | intro _ | with_reducible exact .refl _ _ | with_reducible assumption | with_reducible apply ChangesOnly.ite
    | with_reducible apply ChangesOnly.foldl | (with_reducible apply ChangesOnly.step Dev.onTherm_foot; decide)
    | (with_reducible apply ChangesOnly.step Dev.elapse_foot; decide) | (with_reducible apply ChangesOnly.step Dev.takeCode_foot; decide)
    | (with_reducible apply ChangesOnly.step Dev.judgeSensor_foot; decide) | (with_reducible apply ChangesOnly.step Dev.substAll_foot; decide)
    | (with_reducible apply ChangesOnly.step Dev.learnOffsets_foot; decide) | (with_reducible apply ChangesOnly.step Dev.threshold_foot; decide)
    | (with_reducible apply ChangesOnly.step Dev.tileHeat_foot; decide) | (with_reducible apply ChangesOnly.step Dev.sealWorst_foot; decide)
    | (with_reducible apply ChangesOnly.step Dev.thermShow_foot; decide) | with_reducible exact .pair ‹_› ‹_› | split | dsimp only

theorem execSensorRecover_foot {n : Fin 72} {dt : Nat} {s : State} : ∃ s', execSensorRecover n dt s = .next s' ∧ s'.pending = s.pending ∧ ChangesOnly [.mem, .pkg, .expo, .restore, .ctxs, .dram, .therm, .flint, .qtz, .lat, .heads, .slate, .dw, .out] s.dev s'.dev := by
  unfold execSensorRecover State.run
  refine ⟨_, rfl, rfl, ?_⟩
  try dsimp only
  repeat' first
    | intro _ | with_reducible exact .refl _ _ | with_reducible assumption | with_reducible apply ChangesOnly.ite
    | with_reducible apply ChangesOnly.foldl | (with_reducible apply ChangesOnly.step Dev.elapse_foot; decide)
    | (with_reducible apply ChangesOnly.step Dev.onSens_foot; decide) | (with_reducible apply ChangesOnly.step Dev.raise_foot; decide)
    | (with_reducible apply ChangesOnly.step Dev.tileHeat_foot; decide) | (with_reducible apply ChangesOnly.step Dev.substAll_foot; decide)
    | (with_reducible apply ChangesOnly.step Dev.thermUpd_foot; decide) | with_reducible exact .pair ‹_› ‹_› | split | dsimp only

theorem execQtzStatusUpdate_foot {dt : Nat} {s : State} : ∃ s', execQtzStatusUpdate dt s = .next s' ∧ s'.pending = s.pending ∧ ChangesOnly [.pkg, .qtz, .dw] s.dev s'.dev := by
  unfold execQtzStatusUpdate State.run
  refine ⟨_, rfl, rfl, ?_⟩
  try dsimp only
  repeat' first
    | intro _ | with_reducible exact .refl _ _ | with_reducible assumption | with_reducible apply ChangesOnly.ite
    | with_reducible apply ChangesOnly.foldl | (with_reducible apply ChangesOnly.step Dev.elapse_foot; decide)
    | with_reducible apply Dev.periodic_foot (by decide) | (with_reducible apply ChangesOnly.step Dev.qtzUpd_foot; decide)
    | with_reducible exact .pair ‹_› ‹_› | split | dsimp only

theorem execQtzNowRead_foot {h : Fin 2} {half : Fin 3} {dt : Nat} {s : State} : ∃ s', execQtzNowRead h half dt s = .next s' ∧ s'.pending = s.pending ∧ ChangesOnly [.qtz, .out] s.dev s'.dev := by
  unfold execQtzNowRead State.run
  refine ⟨_, rfl, rfl, ?_⟩
  try dsimp only
  repeat' first
    | intro _ | with_reducible exact .refl _ _ | with_reducible assumption | with_reducible apply ChangesOnly.ite
    | with_reducible apply ChangesOnly.foldl | (with_reducible apply ChangesOnly.step Dev.onQtz_foot; decide)
    | (with_reducible apply ChangesOnly.step Dev.elapse_foot; decide) | (with_reducible apply ChangesOnly.step Dev.emit_foot; decide)
    | with_reducible exact .pair ‹_› ‹_› | split | dsimp only

theorem execPpsInEdge_foot {width : Nat} {dt : Nat} {s : State} : ∃ s', execPpsInEdge width dt s = .next s' ∧ s'.pending = s.pending ∧ ChangesOnly [.ctxs, .flint, .qtz, .slate, .dw] s.dev s'.dev := by
  unfold execPpsInEdge State.run
  refine ⟨_, rfl, rfl, ?_⟩
  try dsimp only
  repeat' first
    | intro _ | with_reducible exact .refl _ _ | with_reducible assumption | with_reducible apply ChangesOnly.ite
    | with_reducible apply ChangesOnly.foldl | (with_reducible apply ChangesOnly.step Dev.onQtz_foot; decide)
    | (with_reducible apply ChangesOnly.step Dev.elapse_foot; decide) | (with_reducible apply ChangesOnly.step Dev.ppsLoop_foot; decide)
    | (with_reducible apply ChangesOnly.step Dev.uncSync_foot; decide) | (with_reducible apply ChangesOnly.step Dev.raise_foot; decide)
    | (with_reducible apply ChangesOnly.step Dev.qtzUpd_foot; decide) | with_reducible exact .pair ‹_› ‹_› | split | dsimp only

theorem execPpsTimeout_foot {dt : Nat} {s : State} : ∃ s', execPpsTimeout dt s = .next s' ∧ s'.pending = s.pending ∧ ChangesOnly [.flint, .qtz, .dw] s.dev s'.dev := by
  unfold execPpsTimeout State.run
  refine ⟨_, rfl, rfl, ?_⟩
  try dsimp only
  repeat' first
    | intro _ | with_reducible exact .refl _ _ | with_reducible assumption | with_reducible apply ChangesOnly.ite
    | with_reducible apply ChangesOnly.foldl | (with_reducible apply ChangesOnly.step Dev.elapse_foot; decide)
    | (with_reducible apply ChangesOnly.step Dev.ppsHold_foot; decide) | with_reducible exact .pair ‹_› ‹_› | split | dsimp only

theorem execPpsOutEdge_foot {dt : Nat} {s : State} : ∃ s', execPpsOutEdge dt s = .next s' ∧ s'.pending = s.pending ∧ ChangesOnly [.qtz] s.dev s'.dev := by
  unfold execPpsOutEdge State.run
  refine ⟨_, rfl, rfl, ?_⟩
  try dsimp only
  repeat' first
    | intro _ | with_reducible exact .refl _ _ | with_reducible assumption | with_reducible apply ChangesOnly.ite
    | with_reducible apply ChangesOnly.foldl | (with_reducible apply ChangesOnly.step Dev.onQtz_foot; decide)
    | (with_reducible apply ChangesOnly.step Dev.elapse_foot; decide) | with_reducible exact .pair ‹_› ‹_› | split | dsimp only

theorem execPpsOutFall_foot {dt : Nat} {s : State} : ∃ s', execPpsOutFall dt s = .next s' ∧ s'.pending = s.pending ∧ ChangesOnly [.qtz] s.dev s'.dev := by
  unfold execPpsOutFall State.run
  refine ⟨_, rfl, rfl, ?_⟩
  try dsimp only
  repeat' first
    | intro _ | with_reducible exact .refl _ _ | with_reducible assumption | with_reducible apply ChangesOnly.ite
    | with_reducible apply ChangesOnly.foldl | (with_reducible apply ChangesOnly.step Dev.onQtz_foot; decide)
    | (with_reducible apply ChangesOnly.step Dev.elapse_foot; decide) | with_reducible exact .pair ‹_› ‹_› | split | dsimp only

theorem execStandbyCountLoad_foot {dt : Nat} {s : State} : ∃ s', execStandbyCountLoad dt s = .next s' ∧ s'.pending = s.pending ∧ ChangesOnly [.qtz] s.dev s'.dev := by
  unfold execStandbyCountLoad State.run
  refine ⟨_, rfl, rfl, ?_⟩
  try dsimp only
  repeat' first
    | intro _ | with_reducible exact .refl _ _ | with_reducible assumption | with_reducible apply ChangesOnly.ite
    | with_reducible apply ChangesOnly.foldl | (with_reducible apply ChangesOnly.step Dev.onQtz_foot; decide)
    | (with_reducible apply ChangesOnly.step Dev.elapse_foot; decide) | with_reducible exact .pair ‹_› ‹_› | split | dsimp only

theorem execQuartzTimeRecord_foot {dt : Nat} {s : State} : ∃ s', execQuartzTimeRecord dt s = .next s' ∧ s'.pending = s.pending ∧ ChangesOnly [.qtz, .slate, .freeN] s.dev s'.dev := by
  unfold execQuartzTimeRecord State.run
  refine ⟨_, rfl, rfl, ?_⟩
  try dsimp only
  repeat' first
    | intro _ | with_reducible exact .refl _ _ | with_reducible assumption | with_reducible apply ChangesOnly.ite
    | with_reducible apply ChangesOnly.foldl | (with_reducible apply ChangesOnly.step Dev.onQtz_foot; decide)
    | (with_reducible apply ChangesOnly.step Dev.elapse_foot; decide) | (with_reducible apply ChangesOnly.step Dev.recWritePkg_foot; decide)
    | (with_reducible apply ChangesOnly.step Dev.stampFloor_foot; decide) | with_reducible exact .pair ‹_› ‹_› | split | dsimp only

theorem execReferenceLost_foot {dt : Nat} {s : State} : ∃ s', execReferenceLost dt s = .next s' ∧ s'.pending = s.pending ∧ ChangesOnly [.flint, .qtz, .dw] s.dev s'.dev := by
  unfold execReferenceLost State.run
  refine ⟨_, rfl, rfl, ?_⟩
  try dsimp only
  repeat' first
    | intro _ | with_reducible exact .refl _ _ | with_reducible assumption | with_reducible apply ChangesOnly.ite
    | with_reducible apply ChangesOnly.foldl | (with_reducible apply ChangesOnly.step Dev.onQtz_foot; decide)
    | (with_reducible apply ChangesOnly.step Dev.elapse_foot; decide) | (with_reducible apply ChangesOnly.step Dev.raise_foot; decide)
    | (with_reducible apply ChangesOnly.step Dev.uncSync_foot; decide) | (with_reducible apply ChangesOnly.step Dev.qtzUpd_foot; decide)
    | with_reducible exact .pair ‹_› ‹_› | split | dsimp only

theorem execReferenceGood_foot {dt : Nat} {s : State} : ∃ s', execReferenceGood dt s = .next s' ∧ s'.pending = s.pending ∧ ChangesOnly [.flint, .qtz, .dw] s.dev s'.dev := by
  unfold execReferenceGood State.run
  refine ⟨_, rfl, rfl, ?_⟩
  try dsimp only
  repeat' first
    | intro _ | with_reducible exact .refl _ _ | with_reducible assumption | with_reducible apply ChangesOnly.ite
    | with_reducible apply ChangesOnly.foldl | (with_reducible apply ChangesOnly.step Dev.onQtz_foot; decide)
    | (with_reducible apply ChangesOnly.step Dev.elapse_foot; decide) | (with_reducible apply ChangesOnly.step Dev.uncSync_foot; decide)
    | (with_reducible apply ChangesOnly.step Dev.raise_foot; decide) | (with_reducible apply ChangesOnly.step Dev.qtzUpd_foot; decide)
    | with_reducible exact .pair ‹_› ‹_› | split | dsimp only

theorem execSnapInEdge_foot {width : Nat} {dt : Nat} {s : State} : ∃ s', execSnapInEdge width dt s = .next s' ∧ s'.pending = s.pending ∧ ChangesOnly [.flint, .qtz, .snap, .dw, .freeN] s.dev s'.dev := by
  unfold execSnapInEdge State.run
  refine ⟨_, rfl, rfl, ?_⟩
  try dsimp only
  repeat' first
    | intro _ | with_reducible exact .refl _ _ | with_reducible assumption | with_reducible apply ChangesOnly.ite
    | with_reducible apply ChangesOnly.foldl | (with_reducible apply ChangesOnly.step Dev.onQtz_foot; decide)
    | (with_reducible apply ChangesOnly.step Dev.elapse_foot; decide) | (with_reducible apply ChangesOnly.step Dev.snapCapture_foot; decide)
    | with_reducible exact .pair ‹_› ‹_› | split | dsimp only

theorem execScheduledTriggerFire_foot {dt : Nat} {s : State} : ∃ s', execScheduledTriggerFire dt s = .next s' ∧ s'.pending = s.pending ∧ ChangesOnly [.flint, .qtz, .snap, .dw, .freeN] s.dev s'.dev := by
  unfold execScheduledTriggerFire State.run
  refine ⟨_, rfl, rfl, ?_⟩
  try dsimp only
  repeat' first
    | intro _ | with_reducible exact .refl _ _ | with_reducible assumption | with_reducible apply ChangesOnly.ite
    | with_reducible apply ChangesOnly.foldl | (with_reducible apply ChangesOnly.step Dev.onSnap_foot; decide)
    | (with_reducible apply ChangesOnly.step Dev.elapse_foot; decide) | (with_reducible apply ChangesOnly.step Dev.snapCapture_foot; decide)
    | with_reducible exact .pair ‹_› ‹_› | split | dsimp only

theorem execSnapshotBankWrite_foot {dt : Nat} {s : State} : ∃ s', execSnapshotBankWrite dt s = .next s' ∧ s'.pending = s.pending ∧ ChangesOnly [.qtz, .snap, .slate] s.dev s'.dev := by
  unfold execSnapshotBankWrite State.run
  refine ⟨_, rfl, rfl, ?_⟩
  try dsimp only
  repeat' first
    | intro _ | with_reducible exact .refl _ _ | with_reducible assumption | with_reducible apply ChangesOnly.ite
    | with_reducible apply ChangesOnly.foldl | (with_reducible apply ChangesOnly.step Dev.onSnap_foot; decide)
    | (with_reducible apply ChangesOnly.step Dev.elapse_foot; decide) | (with_reducible apply ChangesOnly.step Dev.snapKeep_foot; decide)
    | with_reducible exact .pair ‹_› ‹_› | split | dsimp only

theorem execNodeIdRequest_foot {l : Fin 6} {uid : Nat} {pref : BitVec 12} {dt : Nat} {s : State} : ∃ s', execNodeIdRequest l uid pref dt s = .next s' ∧ s'.pending = s.pending ∧ ChangesOnly [.qtz, .lat, .out] s.dev s'.dev := by
  unfold execNodeIdRequest State.run
  refine ⟨_, rfl, rfl, ?_⟩
  try dsimp only
  repeat' first
    | intro _ | with_reducible exact .refl _ _ | with_reducible assumption | with_reducible apply ChangesOnly.ite
    | with_reducible apply ChangesOnly.foldl | (with_reducible apply ChangesOnly.step Dev.elapse_foot; decide)
    | (with_reducible apply ChangesOnly.step Dev.rxFrames_foot; decide) | (with_reducible apply ChangesOnly.step Dev.sendFrames_foot; decide)
    | with_reducible exact .pair ‹_› ‹_› | split | dsimp only

theorem execNodeIdGrant_foot {l : Fin 6} {uid : Nat} {id : BitVec 12} {refused : Bool} {dt : Nat} {s : State} : ∃ s', execNodeIdGrant l uid id refused dt s = .next s' ∧ s'.pending = s.pending ∧ ChangesOnly [.flint, .qtz, .lat, .slate, .dw, .out] s.dev s'.dev := by
  unfold execNodeIdGrant State.run
  refine ⟨_, rfl, rfl, ?_⟩
  try dsimp only
  repeat' first
    | intro _ | with_reducible exact .refl _ _ | with_reducible assumption | with_reducible apply ChangesOnly.ite
    | with_reducible apply ChangesOnly.foldl | (with_reducible apply ChangesOnly.step Dev.elapse_foot; decide)
    | (with_reducible apply ChangesOnly.step Dev.rxFrames_foot; decide) | (with_reducible apply ChangesOnly.step Dev.raise_foot; decide)
    | (with_reducible apply ChangesOnly.step Dev.takeId_foot; decide) | (with_reducible apply ChangesOnly.step Dev.latShow_foot; decide)
    | with_reducible exact .pair ‹_› ‹_› | split | dsimp only

theorem execRootGiveWay_foot {dt : Nat} {s : State} : ∃ s', execRootGiveWay dt s = .next s' ∧ s'.pending = s.pending ∧ ChangesOnly [.flint, .qtz, .dw] s.dev s'.dev := by
  unfold execRootGiveWay State.run
  refine ⟨_, rfl, rfl, ?_⟩
  try dsimp only
  repeat' first
    | intro _ | with_reducible exact .refl _ _ | with_reducible assumption | with_reducible apply ChangesOnly.ite
    | with_reducible apply ChangesOnly.foldl | (with_reducible apply ChangesOnly.step Dev.elapse_foot; decide)
    | (with_reducible apply ChangesOnly.step Dev.setRoot_foot; decide) | (with_reducible apply ChangesOnly.step Dev.qtzUpd_foot; decide)
    | with_reducible exact .pair ‹_› ‹_› | split | dsimp only

theorem execTimeRootLost_foot {dt : Nat} {s : State} : ∃ s', execTimeRootLost dt s = .next s' ∧ s'.pending = s.pending ∧ ChangesOnly [.flint, .qtz, .dw] s.dev s'.dev := by
  unfold execTimeRootLost State.run
  refine ⟨_, rfl, rfl, ?_⟩
  try dsimp only
  repeat' first
    | intro _ | with_reducible exact .refl _ _ | with_reducible assumption | with_reducible apply ChangesOnly.ite
    | with_reducible apply ChangesOnly.foldl | (with_reducible apply ChangesOnly.step Dev.elapse_foot; decide)
    | (with_reducible apply ChangesOnly.step Dev.setRoot_foot; decide) | (with_reducible apply ChangesOnly.step Dev.qtzUpd_foot; decide)
    | (with_reducible apply ChangesOnly.step Dev.loseTime_foot; decide) | with_reducible exact .pair ‹_› ‹_› | split | dsimp only

theorem execTimeExchangeSend_foot {dt : Nat} {s : State} : ∃ s', execTimeExchangeSend dt s = .next s' ∧ s'.pending = s.pending ∧ ChangesOnly [.qtz, .lat, .out] s.dev s'.dev := by
  unfold execTimeExchangeSend State.run
  refine ⟨_, rfl, rfl, ?_⟩
  try dsimp only
  repeat' first
    | intro _ | with_reducible exact .refl _ _ | with_reducible assumption | with_reducible apply ChangesOnly.ite
    | with_reducible apply ChangesOnly.foldl | (with_reducible apply ChangesOnly.step Dev.elapse_foot; decide)
    | (with_reducible apply ChangesOnly.step Dev.sendLocal_foot; decide) | (with_reducible apply ChangesOnly.step Dev.onLink_foot; decide)
    | with_reducible exact .pair ‹_› ‹_› | split | dsimp only

theorem execTimeExchangeReq_foot {l : Fin 6} {t1 : Nat} {dt : Nat} {s : State} : ∃ s', execTimeExchangeReq l t1 dt s = .next s' ∧ s'.pending = s.pending ∧ ChangesOnly [.qtz, .lat, .out] s.dev s'.dev := by
  unfold execTimeExchangeReq State.run
  refine ⟨_, rfl, rfl, ?_⟩
  try dsimp only
  repeat' first
    | intro _ | with_reducible exact .refl _ _ | with_reducible assumption | with_reducible apply ChangesOnly.ite
    | with_reducible apply ChangesOnly.foldl | (with_reducible apply ChangesOnly.step Dev.elapse_foot; decide)
    | (with_reducible apply ChangesOnly.step Dev.rxFrames_foot; decide) | (with_reducible apply ChangesOnly.step Dev.sendLocal_foot; decide)
    | with_reducible exact .pair ‹_› ‹_› | split | dsimp only

theorem execTimeExchangeAnswer_foot {l : Fin 6} {t2 t3 unc : Nat} {dt : Nat} {s : State} : ∃ s', execTimeExchangeAnswer l t2 t3 unc dt s = .next s' ∧ s'.pending = s.pending ∧ ChangesOnly [.ctxs, .flint, .qtz, .lat, .slate, .dw, .freeN] s.dev s'.dev := by
  unfold execTimeExchangeAnswer State.run
  refine ⟨_, rfl, rfl, ?_⟩
  try dsimp only
  repeat' first
    | intro _ | with_reducible exact .refl _ _ | with_reducible assumption | with_reducible apply ChangesOnly.ite
    | with_reducible apply ChangesOnly.foldl | (with_reducible apply ChangesOnly.step Dev.elapse_foot; decide)
    | (with_reducible apply ChangesOnly.step Dev.rxFrames_foot; decide) | (with_reducible apply ChangesOnly.step Dev.onLink_foot; decide)
    | (with_reducible apply ChangesOnly.step Dev.follow_foot; decide) | (with_reducible apply ChangesOnly.step Dev.qtzUpd_foot; decide)
    | with_reducible exact .pair ‹_› ‹_› | split | dsimp only

theorem execLinkTrainingAttempt_foot {l : Fin 6} {signal : Bool} {dt : Nat} {s : State} : ∃ s', execLinkTrainingAttempt l signal dt s = .next s' ∧ s'.pending = s.pending ∧ ChangesOnly [.ctxs, .qtz, .lat, .heads, .dw, .out] s.dev s'.dev := by
  unfold execLinkTrainingAttempt State.run
  refine ⟨_, rfl, rfl, ?_⟩
  try dsimp only
  repeat' first
    | intro _ | with_reducible exact .refl _ _ | with_reducible assumption | with_reducible apply ChangesOnly.ite
    | with_reducible apply ChangesOnly.foldl | (with_reducible apply ChangesOnly.step Dev.elapse_foot; decide)
    | (with_reducible apply ChangesOnly.step Dev.signal_foot; decide) | (with_reducible apply ChangesOnly.step Dev.onLink_foot; decide)
    | (with_reducible apply ChangesOnly.step Dev.latShow_foot; decide) | with_reducible exact .pair ‹_› ‹_› | split | dsimp only

theorem execLinkTrained_foot {l : Fin 6} {outcome : Fin 3} {dt : Nat} {s : State} : ∃ s', execLinkTrained l outcome dt s = .next s' ∧ s'.pending = s.pending ∧ ChangesOnly [.flint, .qtz, .lat, .slate, .dw, .out] s.dev s'.dev := by
  unfold execLinkTrained State.run
  refine ⟨_, rfl, rfl, ?_⟩
  try dsimp only
  repeat' first
    | intro _ | with_reducible exact .refl _ _ | with_reducible assumption | with_reducible apply ChangesOnly.ite
    | with_reducible apply ChangesOnly.foldl | (with_reducible apply ChangesOnly.step Dev.elapse_foot; decide)
    | (with_reducible apply ChangesOnly.step Dev.retrainFail_foot; decide) | (with_reducible apply ChangesOnly.step Dev.latShow_foot; decide)
    | (with_reducible apply ChangesOnly.step Dev.emit_foot; decide) | (with_reducible apply ChangesOnly.step Dev.onLink_foot; decide)
    | (with_reducible apply ChangesOnly.step Dev.raise_foot; decide) | (with_reducible apply ChangesOnly.step Dev.pump_foot; decide)
    | (with_reducible apply ChangesOnly.step Dev.sendLsa_foot; decide) | with_reducible exact .pair ‹_› ‹_› | split | dsimp only

theorem execLinkSignalLoss_foot {l : Fin 6} {dt : Nat} {s : State} : ∃ s', execLinkSignalLoss l dt s = .next s' ∧ s'.pending = s.pending ∧ ChangesOnly [.flint, .qtz, .lat, .slate, .dw, .out] s.dev s'.dev := by
  unfold execLinkSignalLoss State.run
  refine ⟨_, rfl, rfl, ?_⟩
  try dsimp only
  repeat' first
    | intro _ | with_reducible exact .refl _ _ | with_reducible assumption | with_reducible apply ChangesOnly.ite
    | with_reducible apply ChangesOnly.foldl | (with_reducible apply ChangesOnly.step Dev.elapse_foot; decide)
    | (with_reducible apply ChangesOnly.step Dev.linkFail_foot; decide) | (with_reducible apply ChangesOnly.step Dev.raise_foot; decide)
    | (with_reducible apply ChangesOnly.step Dev.latShow_foot; decide) | with_reducible exact .pair ‹_› ‹_› | split | dsimp only

theorem execHelloMissing_foot {l : Fin 6} {dt : Nat} {s : State} : ∃ s', execHelloMissing l dt s = .next s' ∧ s'.pending = s.pending ∧ ChangesOnly [.flint, .qtz, .lat, .slate, .dw, .out] s.dev s'.dev := by
  unfold execHelloMissing State.run
  refine ⟨_, rfl, rfl, ?_⟩
  try dsimp only
  repeat' first
    | intro _ | with_reducible exact .refl _ _ | with_reducible assumption | with_reducible apply ChangesOnly.ite
    | with_reducible apply ChangesOnly.foldl | (with_reducible apply ChangesOnly.step Dev.elapse_foot; decide)
    | (with_reducible apply ChangesOnly.step Dev.linkFail_foot; decide) | (with_reducible apply ChangesOnly.step Dev.raise_foot; decide)
    | (with_reducible apply ChangesOnly.step Dev.latShow_foot; decide) | with_reducible exact .pair ‹_› ‹_› | split | dsimp only

theorem execHoldExpired_foot {l : Fin 6} {dt : Nat} {s : State} : ∃ s', execHoldExpired l dt s = .next s' ∧ s'.pending = s.pending ∧ ChangesOnly [.qtz, .lat, .dw] s.dev s'.dev := by
  unfold execHoldExpired State.run
  refine ⟨_, rfl, rfl, ?_⟩
  try dsimp only
  repeat' first
    | intro _ | with_reducible exact .refl _ _ | with_reducible assumption | with_reducible apply ChangesOnly.ite
    | with_reducible apply ChangesOnly.foldl | (with_reducible apply ChangesOnly.step Dev.elapse_foot; decide)
    | (with_reducible apply ChangesOnly.step Dev.onLink_foot; decide) | (with_reducible apply ChangesOnly.step Dev.latShow_foot; decide)
    | with_reducible exact .pair ‹_› ‹_› | split | dsimp only

theorem execHelloSend_foot {l : Fin 6} {dt : Nat} {s : State} : ∃ s', execHelloSend l dt s = .next s' ∧ s'.pending = s.pending ∧ ChangesOnly [.qtz, .lat, .out] s.dev s'.dev := by
  unfold execHelloSend State.run
  refine ⟨_, rfl, rfl, ?_⟩
  try dsimp only
  repeat' first
    | intro _ | with_reducible exact .refl _ _ | with_reducible assumption | with_reducible apply ChangesOnly.ite
    | with_reducible apply ChangesOnly.foldl | (with_reducible apply ChangesOnly.step Dev.onLat_foot; decide)
    | (with_reducible apply ChangesOnly.step Dev.elapse_foot; decide) | (with_reducible apply ChangesOnly.step Dev.onLink_foot; decide)
    | (with_reducible apply ChangesOnly.step Dev.sendLocal_foot; decide) | with_reducible exact .pair ‹_› ‹_› | split | dsimp only

theorem execHello_foot {l : Fin 6} {crcOk : Bool} {uid : Nat} {nodeId : BitVec 12} {plink : Nat} {flags : BitVec 8} {cls : BitVec 3} {hops : BitVec 5} {troot : Nat} {tseq : Nat} {rclass : BitVec 3} {hseq : Nat} {dt : Nat} {s : State} : ∃ s', execHello l crcOk uid nodeId plink flags cls hops troot tseq rclass hseq dt s = .next s' ∧ s'.pending = s.pending ∧ ChangesOnly [.flint, .qtz, .lat, .slate, .dw, .out] s.dev s'.dev := by
  unfold execHello State.run
  refine ⟨_, rfl, rfl, ?_⟩
  try dsimp only
  repeat' first
    | intro _ | with_reducible exact .refl _ _ | with_reducible assumption | with_reducible apply ChangesOnly.ite
    | with_reducible apply ChangesOnly.foldl | (with_reducible apply ChangesOnly.step Dev.elapse_foot; decide)
    | (with_reducible apply ChangesOnly.step Dev.rxFrames_foot; decide) | (with_reducible apply ChangesOnly.step Dev.onLink_foot; decide)
    | (with_reducible apply ChangesOnly.step Dev.latShow_foot; decide) | (with_reducible apply ChangesOnly.step Dev.linkDisable_foot; decide)
    | (with_reducible apply ChangesOnly.step Dev.raise_foot; decide) | (with_reducible apply ChangesOnly.step Dev.linkLeave_foot; decide)
    | (with_reducible apply ChangesOnly.step Dev.sendLsa_foot; decide) | (with_reducible apply ChangesOnly.step Dev.askId_foot; decide)
    | (with_reducible apply ChangesOnly.step Dev.rootHello_foot; decide) | with_reducible exact .pair ‹_› ‹_› | split | dsimp only

theorem execLinkStateAdvertisement_foot {l : Fin 6} {crcOk : Bool} {uid : Nat} {nodeId : BitVec 12} {flags : BitVec 8} {seq : BitVec 32} {nbrs : List (Nat × Nat × Nat × Nat × Nat)} {dt : Nat} {s : State} : ∃ s', execLinkStateAdvertisement l crcOk uid nodeId flags seq nbrs dt s = .next s' ∧ s'.pending = s.pending ∧ ChangesOnly [.flint, .qtz, .lat, .slate, .dw, .out] s.dev s'.dev := by
  unfold execLinkStateAdvertisement State.run
  refine ⟨_, rfl, rfl, ?_⟩
  try dsimp only
  repeat' first
    | intro _ | with_reducible exact .refl _ _ | with_reducible assumption | with_reducible apply ChangesOnly.ite
    | with_reducible apply ChangesOnly.foldl | (with_reducible apply ChangesOnly.step Dev.onLat_foot; decide)
    | (with_reducible apply ChangesOnly.step Dev.elapse_foot; decide) | (with_reducible apply ChangesOnly.step Dev.rxFrames_foot; decide)
    | (with_reducible apply ChangesOnly.step Dev.linkDisable_foot; decide) | (with_reducible apply ChangesOnly.step Dev.raise_foot; decide)
    | (with_reducible apply ChangesOnly.step Dev.latShow_foot; decide) | (with_reducible apply ChangesOnly.step Dev.putLsa_foot; decide)
    | (with_reducible apply ChangesOnly.step Dev.flood_foot; decide) | (with_reducible apply ChangesOnly.step Dev.idConflict_foot; decide)
    | with_reducible exact .pair ‹_› ‹_› | split | dsimp only

theorem execLsaPeriodic_foot {dt : Nat} {s : State} : ∃ s', execLsaPeriodic dt s = .next s' ∧ s'.pending = s.pending ∧ ChangesOnly [.qtz, .lat, .slate, .out] s.dev s'.dev := by
  unfold execLsaPeriodic State.run
  refine ⟨_, rfl, rfl, ?_⟩
  try dsimp only
  repeat' first
    | intro _ | with_reducible exact .refl _ _ | with_reducible assumption | with_reducible apply ChangesOnly.ite
    | with_reducible apply ChangesOnly.foldl | (with_reducible apply ChangesOnly.step Dev.elapse_foot; decide)
    | (with_reducible apply ChangesOnly.step Dev.sendLsa_foot; decide) | with_reducible exact .pair ‹_› ‹_› | split | dsimp only

theorem execLsaExpiry_foot {dt : Nat} {s : State} : ∃ s', execLsaExpiry dt s = .next s' ∧ s'.pending = s.pending ∧ ChangesOnly [.qtz, .lat] s.dev s'.dev := by
  unfold execLsaExpiry State.run
  refine ⟨_, rfl, rfl, ?_⟩
  try dsimp only
  repeat' first
    | intro _ | with_reducible exact .refl _ _ | with_reducible assumption | with_reducible apply ChangesOnly.ite
    | with_reducible apply ChangesOnly.foldl | (with_reducible apply ChangesOnly.step Dev.onLat_foot; decide)
    | (with_reducible apply ChangesOnly.step Dev.elapse_foot; decide) | with_reducible exact .pair ‹_› ‹_› | split | dsimp only

theorem execRouteCompute_foot {ms : Nat} {dt : Nat} {s : State} : ∃ s', execRouteCompute ms dt s = .next s' ∧ s'.pending = s.pending ∧ ChangesOnly [.qtz, .lat, .dw] s.dev s'.dev := by
  unfold execRouteCompute State.run
  refine ⟨_, rfl, rfl, ?_⟩
  try dsimp only
  repeat' first
    | intro _ | with_reducible exact .refl _ _ | with_reducible assumption | with_reducible apply ChangesOnly.ite
    | with_reducible apply ChangesOnly.foldl | (with_reducible apply ChangesOnly.step Dev.onLat_foot; decide)
    | (with_reducible apply ChangesOnly.step Dev.elapse_foot; decide) | (with_reducible apply ChangesOnly.step Dev.onLink_foot; decide)
    | (with_reducible apply ChangesOnly.step Dev.latShow_foot; decide) | with_reducible exact .pair ‹_› ‹_› | split | dsimp only

theorem execLatticeStatusUpdate_foot {dt : Nat} {s : State} : ∃ s', execLatticeStatusUpdate dt s = .next s' ∧ s'.pending = s.pending ∧ ChangesOnly [.pkg, .flint, .qtz, .lat, .slate, .dw, .out] s.dev s'.dev := by
  unfold execLatticeStatusUpdate State.run
  refine ⟨_, rfl, rfl, ?_⟩
  try dsimp only
  repeat' first
    | intro _ | with_reducible exact .refl _ _ | with_reducible assumption | with_reducible apply ChangesOnly.ite
    | with_reducible apply ChangesOnly.foldl | (with_reducible apply ChangesOnly.step Dev.elapse_foot; decide)
    | with_reducible apply Dev.periodic_foot (by decide) | (with_reducible apply ChangesOnly.step Dev.rootStep_foot; decide)
    | (with_reducible apply ChangesOnly.step Dev.askId_foot; decide) | (with_reducible apply ChangesOnly.step Dev.selfCandidate_foot; decide)
    | (with_reducible apply ChangesOnly.step Dev.latUpd_foot; decide) | with_reducible exact .pair ‹_› ‹_› | split | dsimp only

theorem execLatticeCheckpointRequest_foot {l : Fin 6} {uid : Nat} {reqId : BitVec 32} {tc : Nat} {c : BitVec 14} {dt : Nat} {s : State} : ∃ s', execLatticeCheckpointRequest l uid reqId tc c dt s = .next s' ∧ s'.pending = s.pending ∧ ChangesOnly [.flint, .qtz, .lat, .heads, .jcs, .mirror, .out] s.dev s'.dev := by
  unfold execLatticeCheckpointRequest State.run
  refine ⟨_, rfl, rfl, ?_⟩
  try dsimp only
  repeat' first
    | intro _ | with_reducible exact .refl _ _ | with_reducible assumption | with_reducible apply ChangesOnly.ite
    | with_reducible apply ChangesOnly.foldl | (with_reducible apply ChangesOnly.step Dev.elapse_foot; decide)
    | (with_reducible apply ChangesOnly.step Dev.rxFrames_foot; decide) | (with_reducible apply ChangesOnly.step Dev.ckptRequest_foot; decide)
    | (with_reducible apply ChangesOnly.step Dev.ckptReply_foot; decide) | with_reducible exact .pair ‹_› ‹_› | split | dsimp only

theorem execLatticeCheckpointTime_foot {dt : Nat} {s : State} : ∃ s', execLatticeCheckpointTime dt s = .next s' ∧ s'.pending = s.pending ∧ ChangesOnly [.ctxs, .flint, .qtz, .lat, .heads, .jcs, .mirror, .out] s.dev s'.dev := by
  unfold execLatticeCheckpointTime State.run
  refine ⟨_, rfl, rfl, ?_⟩
  try dsimp only
  repeat' first
    | intro _ | with_reducible exact .refl _ _ | with_reducible assumption | with_reducible apply ChangesOnly.ite
    | with_reducible apply ChangesOnly.foldl | (with_reducible apply ChangesOnly.step Dev.onLat_foot; decide)
    | (with_reducible apply ChangesOnly.step Dev.elapse_foot; decide) | (with_reducible apply ChangesOnly.step Dev.ckptReply_foot; decide)
    | (with_reducible apply ChangesOnly.step Dev.submitOwn_foot; decide) | with_reducible exact .pair ‹_› ‹_› | split | dsimp only

theorem execLatticeCheckpointAnswer_foot {l : Fin 6} {uid : Nat} {reqId : BitVec 32} {c : BitVec 14} {status : BitVec 16} {ts : Nat} {dt : Nat} {s : State} : ∃ s', execLatticeCheckpointAnswer l uid reqId c status ts dt s = .next s' ∧ s'.pending = s.pending ∧ ChangesOnly [.flint, .qtz, .lat, .heads, .jcs, .mirror] s.dev s'.dev := by
  unfold execLatticeCheckpointAnswer State.run
  refine ⟨_, rfl, rfl, ?_⟩
  try dsimp only
  repeat' first
    | intro _ | with_reducible exact .refl _ _ | with_reducible assumption | with_reducible apply ChangesOnly.ite
    | with_reducible apply ChangesOnly.foldl | (with_reducible apply ChangesOnly.step Dev.elapse_foot; decide)
    | (with_reducible apply ChangesOnly.step Dev.rxFrames_foot; decide) | (with_reducible apply ChangesOnly.step Dev.ckptRecord_foot; decide)
    | with_reducible exact .pair ‹_› ‹_› | split | dsimp only

theorem execLatticeCheckpointTimeout_foot {dt : Nat} {s : State} : ∃ s', execLatticeCheckpointTimeout dt s = .next s' ∧ s'.pending = s.pending ∧ ChangesOnly [.mem, .expo, .restore, .flash, .ctxs, .dram, .flint, .qtz, .lat, .heads, .jcs, .mirror, .dw, .out] s.dev s'.dev := by
  unfold execLatticeCheckpointTimeout State.run
  refine ⟨_, rfl, rfl, ?_⟩
  try dsimp only
  repeat' first
    | intro _ | with_reducible exact .refl _ _ | with_reducible assumption | with_reducible apply ChangesOnly.ite
    | with_reducible apply ChangesOnly.foldl | (with_reducible apply ChangesOnly.step Dev.onLat_foot; decide)
    | (with_reducible apply ChangesOnly.step Dev.elapse_foot; decide) | (with_reducible apply ChangesOnly.step Dev.complete_foot; decide)
    | (with_reducible apply ChangesOnly.step Dev.raise_foot; decide) | (with_reducible apply ChangesOnly.step Dev.ckptEnd_foot; decide)
    | with_reducible exact .pair ‹_› ‹_› | split | dsimp only

theorem execReplicaSend_foot {session : Nat} {ue : List (Nat × Nat)} {dt : Nat} {s : State} : ∃ s', execReplicaSend session ue dt s = .next s' ∧ s'.pending = s.pending ∧ ChangesOnly [.mem, .expo, .dram, .flint, .qtz, .lat, .heads, .slate, .dw, .out] s.dev s'.dev := by
  unfold execReplicaSend State.run
  refine ⟨_, rfl, rfl, ?_⟩
  try dsimp only
  repeat' first
    | intro _ | with_reducible exact .refl _ _ | with_reducible assumption | with_reducible apply ChangesOnly.ite
    | with_reducible apply ChangesOnly.foldl | (with_reducible apply ChangesOnly.step Dev.elapse_foot; decide)
    | (with_reducible apply ChangesOnly.step Dev.sendMarks_foot; decide) | (with_reducible apply ChangesOnly.step Dev.finalMsg_foot; decide)
    | (with_reducible apply ChangesOnly.step Dev.onStream_foot; decide) | (with_reducible apply ChangesOnly.step Dev.raise_foot; decide)
    | (with_reducible apply ChangesOnly.step Dev.pageTouch_foot; decide) | (with_reducible apply ChangesOnly.step Dev.pageUe_foot; decide)
    | (with_reducible apply ChangesOnly.step Dev.sendPage_foot; decide) | with_reducible exact .pair ‹_› ‹_› | split | dsimp only

theorem execReplicaAck_foot {l : Fin 6} {session : Nat} {op : Fin 4} {mseq : BitVec 32} {status grans : Nat} {dt : Nat} {s : State} : ∃ s', execReplicaAck l session op mseq status grans dt s = .next s' ∧ s'.pending = s.pending ∧ ChangesOnly [.mem, .expo, .restore, .flash, .ctxs, .dram, .flint, .qtz, .lat, .heads, .jcs, .mirror, .dw, .out] s.dev s'.dev := by
  unfold execReplicaAck State.run
  refine ⟨_, rfl, rfl, ?_⟩
  try dsimp only
  repeat' first
    | intro _ | with_reducible exact .refl _ _ | with_reducible assumption | with_reducible apply ChangesOnly.ite
    | with_reducible apply ChangesOnly.foldl | (with_reducible apply ChangesOnly.step Dev.elapse_foot; decide)
    | (with_reducible apply ChangesOnly.step Dev.rxFrames_foot; decide) | (with_reducible apply ChangesOnly.step Dev.onStream_foot; decide)
    | (with_reducible apply ChangesOnly.step Dev.resumeStream_foot; decide) | (with_reducible apply ChangesOnly.step Dev.pageAck_foot; decide)
    | (with_reducible apply ChangesOnly.step Dev.setupAnswer_foot; decide) | with_reducible exact .pair ‹_› ‹_› | split | dsimp only

theorem execSessionResend_foot {session : Nat} {dt : Nat} {s : State} : ∃ s', execSessionResend session dt s = .next s' ∧ s'.pending = s.pending ∧ ChangesOnly [.flint, .qtz, .lat, .out] s.dev s'.dev := by
  unfold execSessionResend State.run
  refine ⟨_, rfl, rfl, ?_⟩
  try dsimp only
  repeat' first
    | intro _ | with_reducible exact .refl _ _ | with_reducible assumption | with_reducible apply ChangesOnly.ite
    | with_reducible apply ChangesOnly.foldl | (with_reducible apply ChangesOnly.step Dev.elapse_foot; decide)
    | (with_reducible apply ChangesOnly.step Dev.sendMsg_foot; decide) | (with_reducible apply ChangesOnly.step Dev.sendPage_foot; decide)
    | with_reducible exact .pair ‹_› ‹_› | split | dsimp only

theorem execPeerUnreachable_foot {uid : Nat} {dt : Nat} {s : State} : ∃ s', execPeerUnreachable uid dt s = .next s' ∧ s'.pending = s.pending ∧ ChangesOnly [.flint, .qtz, .lat, .heads, .jcs, .mirror] s.dev s'.dev := by
  unfold execPeerUnreachable State.run
  refine ⟨_, rfl, rfl, ?_⟩
  try dsimp only
  repeat' first
    | intro _ | with_reducible exact .refl _ _ | with_reducible assumption | with_reducible apply ChangesOnly.ite
    | with_reducible apply ChangesOnly.foldl | (with_reducible apply ChangesOnly.step Dev.elapse_foot; decide)
    | (with_reducible apply ChangesOnly.step Dev.setupAnswer_foot; decide) | (with_reducible apply ChangesOnly.step Dev.abortMigration_foot; decide)
    | (with_reducible apply ChangesOnly.step Dev.onStream_foot; decide) | (with_reducible apply ChangesOnly.step Dev.raise_foot; decide)
    | (with_reducible apply ChangesOnly.step Dev.endLeases_foot; decide) | with_reducible exact .pair ‹_› ‹_› | split | dsimp only

theorem execMigrationFinalAck_foot {l : Fin 6} {session : Nat} {dt : Nat} {s : State} : ∃ s', execMigrationFinalAck l session dt s = .next s' ∧ s'.pending = s.pending ∧ ChangesOnly [.flint, .qtz, .lat] s.dev s'.dev := by
  unfold execMigrationFinalAck State.run
  refine ⟨_, rfl, rfl, ?_⟩
  try dsimp only
  repeat' first
    | intro _ | with_reducible exact .refl _ _ | with_reducible assumption | with_reducible apply ChangesOnly.ite
    | with_reducible apply ChangesOnly.foldl | (with_reducible apply ChangesOnly.step Dev.elapse_foot; decide)
    | (with_reducible apply ChangesOnly.step Dev.rxFrames_foot; decide) | (with_reducible apply ChangesOnly.step Dev.onStream_foot; decide)
    | (with_reducible apply ChangesOnly.step Dev.raise_foot; decide) | with_reducible exact .pair ‹_› ‹_› | split | dsimp only

theorem execReplicaData_foot {l : Fin 6} {uid session : Nat} {op : Fin 6} {mseq : BitVec 32} {k o grans : Nat} {data : List Byte} {n : Nat} {dt : Nat} {s : State} : ∃ s', execReplicaData l uid session op mseq k o grans data n dt s = .next s' ∧ s'.pending = s.pending ∧ ChangesOnly [.mem, .expo, .restore, .ctxs, .dram, .flint, .qtz, .lat, .heads, .dw, .out] s.dev s'.dev := by
  unfold execReplicaData State.run
  refine ⟨_, rfl, rfl, ?_⟩
  try dsimp only
  repeat' first
    | intro _ | with_reducible exact .refl _ _ | with_reducible assumption | with_reducible apply ChangesOnly.ite
    | with_reducible apply ChangesOnly.foldl | (with_reducible apply ChangesOnly.step Dev.onLat_foot; decide)
    | (with_reducible apply ChangesOnly.step Dev.elapse_foot; decide) | (with_reducible apply ChangesOnly.step Dev.rxFrames_foot; decide)
    | (with_reducible apply ChangesOnly.step Dev.tellDirtied_foot; decide) | (with_reducible apply ChangesOnly.step Dev.sendMsg_foot; decide)
    | (with_reducible apply ChangesOnly.step Dev.pageIn_foot; decide) | (with_reducible apply ChangesOnly.step Dev.onInStream_foot; decide)
    | (with_reducible apply ChangesOnly.step Dev.submitOwn_foot; decide) | with_reducible exact .pair ‹_› ‹_› | split | dsimp only

theorem execRemoteSnapshotTrigger_foot {l : Fin 6} {node : BitVec 12} {reqId : BitVec 32} {time : Nat} {dt : Nat} {s : State} : ∃ s', execRemoteSnapshotTrigger l node reqId time dt s = .next s' ∧ s'.pending = s.pending ∧ ChangesOnly [.flint, .qtz, .snap, .lat, .dw, .out] s.dev s'.dev := by
  unfold execRemoteSnapshotTrigger State.run
  refine ⟨_, rfl, rfl, ?_⟩
  try dsimp only
  repeat' first
    | intro _ | with_reducible exact .refl _ _ | with_reducible assumption | with_reducible apply ChangesOnly.ite
    | with_reducible apply ChangesOnly.foldl | (with_reducible apply ChangesOnly.step Dev.onSnap_foot; decide)
    | (with_reducible apply ChangesOnly.step Dev.elapse_foot; decide) | (with_reducible apply ChangesOnly.step Dev.rxFrames_foot; decide)
    | (with_reducible apply ChangesOnly.step Dev.snapUpd_foot; decide) | (with_reducible apply ChangesOnly.step Dev.sendNode_foot; decide)
    | with_reducible exact .pair ‹_› ‹_› | split | dsimp only

theorem execRemoteSnapshotAnswer_foot {l : Fin 6} {node : BitVec 12} {reqId : BitVec 32} {code : BitVec 8} {dt : Nat} {s : State} : ∃ s', execRemoteSnapshotAnswer l node reqId code dt s = .next s' ∧ s'.pending = s.pending ∧ ChangesOnly [.flint, .qtz, .snap, .lat, .heads, .jcs, .out] s.dev s'.dev := by
  unfold execRemoteSnapshotAnswer State.run
  refine ⟨_, rfl, rfl, ?_⟩
  try dsimp only
  repeat' first
    | intro _ | with_reducible exact .refl _ _ | with_reducible assumption | with_reducible apply ChangesOnly.ite
    | with_reducible apply ChangesOnly.foldl | (with_reducible apply ChangesOnly.step Dev.onSnap_foot; decide)
    | (with_reducible apply ChangesOnly.step Dev.elapse_foot; decide) | (with_reducible apply ChangesOnly.step Dev.rxFrames_foot; decide)
    | (with_reducible apply ChangesOnly.step Dev.snapReqEnd_foot; decide) | with_reducible exact .pair ‹_› ‹_› | split | dsimp only

theorem execRemoteSnapshotTimeout_foot {dt : Nat} {s : State} : ∃ s', execRemoteSnapshotTimeout dt s = .next s' ∧ s'.pending = s.pending ∧ ChangesOnly [.flint, .qtz, .snap, .lat, .heads, .jcs, .out] s.dev s'.dev := by
  unfold execRemoteSnapshotTimeout State.run
  refine ⟨_, rfl, rfl, ?_⟩
  try dsimp only
  repeat' first
    | intro _ | with_reducible exact .refl _ _ | with_reducible assumption | with_reducible apply ChangesOnly.ite
    | with_reducible apply ChangesOnly.foldl | (with_reducible apply ChangesOnly.step Dev.elapse_foot; decide)
    | (with_reducible apply ChangesOnly.step Dev.snapReqEnd_foot; decide) | with_reducible exact .pair ‹_› ‹_› | split | dsimp only

theorem execHeartbeat_foot {dt : Nat} {s : State} : ∃ s', execHeartbeat dt s = .next s' ∧ s'.pending = s.pending ∧ ChangesOnly [.pkg, .qtz] s.dev s'.dev := by
  unfold execHeartbeat State.run
  refine ⟨_, rfl, rfl, ?_⟩
  try dsimp only
  repeat' first
    | intro _ | with_reducible exact .refl _ _ | with_reducible assumption | with_reducible apply ChangesOnly.ite
    | with_reducible apply ChangesOnly.foldl | (with_reducible apply ChangesOnly.step Dev.onPkg_foot; decide)
    | (with_reducible apply ChangesOnly.step Dev.elapse_foot; decide) | with_reducible exact .pair ‹_› ‹_› | split | dsimp only

theorem execLeadLost_foot {dt : Nat} {s : State} : ∃ s', execLeadLost dt s = .next s' ∧ s'.pending = s.pending ∧ ChangesOnly [.pkg, .expo, .sealing, .dram, .energy, .flint, .qtz, .panel, .dw, .out] s.dev s'.dev := by
  unfold execLeadLost State.run
  refine ⟨_, rfl, rfl, ?_⟩
  try dsimp only
  repeat' first
    | intro _ | with_reducible exact .refl _ _ | with_reducible assumption | with_reducible apply ChangesOnly.ite
    | with_reducible apply ChangesOnly.foldl | (with_reducible apply ChangesOnly.step Dev.elapse_foot; decide)
    | (with_reducible apply ChangesOnly.step Dev.leadLost_foot; decide) | with_reducible exact .pair ‹_› ‹_› | split | dsimp only

theorem execTakeoverComplete_foot {dt : Nat} {s : State} : ∃ s', execTakeoverComplete dt s = .next s' ∧ s'.pending = s.pending ∧ ChangesOnly [.pkg, .expo, .energy, .qtz, .heads, .jcs, .slate, .upd, .out, .freeN] s.dev s'.dev := by
  unfold execTakeoverComplete State.run
  refine ⟨_, rfl, rfl, ?_⟩
  try dsimp only
  repeat' first
    | intro _ | with_reducible exact .refl _ _ | with_reducible assumption | with_reducible apply ChangesOnly.ite
    | with_reducible apply ChangesOnly.foldl | (with_reducible apply ChangesOnly.step Dev.onPkg_foot; decide)
    | (with_reducible apply ChangesOnly.step Dev.onExpo_foot; decide) | (with_reducible apply ChangesOnly.step Dev.onQtz_foot; decide)
    | (with_reducible apply ChangesOnly.step Dev.onJcs_foot; decide) | (with_reducible apply ChangesOnly.step Dev.onUpd_foot; decide)
    | (with_reducible apply ChangesOnly.step Dev.elapse_foot; decide) | (with_reducible apply ChangesOnly.step Dev.loadGauge_foot; decide)
    | (with_reducible apply ChangesOnly.step Dev.takeoverResp_foot; decide) | (with_reducible apply ChangesOnly.step Dev.chunkAbort_foot; decide)
    | (with_reducible apply ChangesOnly.step Dev.stage2Lead_foot; decide) | (with_reducible apply ChangesOnly.step Dev.pointCheck_foot; decide)
    | with_reducible exact .pair ‹_› ‹_› | split | dsimp only

theorem execLossOfBothSupervisors_foot {dt : Nat} {s : State} : ∃ s', execLossOfBothSupervisors dt s = .next s' ∧ s'.pending = s.pending ∧ ChangesOnly [.pkg, .expo, .sealing, .dram, .energy, .flint, .qtz, .panel, .dw, .out] s.dev s'.dev := by
  unfold execLossOfBothSupervisors State.run
  refine ⟨_, rfl, rfl, ?_⟩
  try dsimp only
  repeat' first
    | intro _ | with_reducible exact .refl _ _ | with_reducible assumption | with_reducible apply ChangesOnly.ite
    | with_reducible apply ChangesOnly.foldl | (with_reducible apply ChangesOnly.step Dev.elapse_foot; decide)
    | (with_reducible apply ChangesOnly.step Dev.bothLost_foot; decide) | with_reducible exact .pair ‹_› ‹_› | split | dsimp only

theorem execPaceUpdate_foot {paces : List (Nat × Nat)} {dt : Nat} {s : State} : ∃ s', execPaceUpdate paces dt s = .next s' ∧ s'.pending = s.pending ∧ ChangesOnly [.pkg, .sealing, .qtz, .dw] s.dev s'.dev := by
  unfold execPaceUpdate State.run
  refine ⟨_, rfl, rfl, ?_⟩
  try dsimp only
  repeat' first
    | intro _ | with_reducible exact .refl _ _ | with_reducible assumption | with_reducible apply ChangesOnly.ite
    | with_reducible apply ChangesOnly.foldl | (with_reducible apply ChangesOnly.step Dev.onTile_foot; decide)
    | (with_reducible apply ChangesOnly.step Dev.paceUpd_foot; decide) | (with_reducible apply ChangesOnly.step Dev.elapse_foot; decide)
    | with_reducible apply Dev.periodic_foot (by decide) | (with_reducible apply ChangesOnly.step Dev.sealWorst_foot; decide)
    | with_reducible exact .pair ‹_› ‹_› | split | dsimp only

theorem execPowerEstimate_foot {coreMw otherMw dt : Nat} {s : State} : ∃ s', execPowerEstimate coreMw otherMw dt s = .next s' ∧ s'.pending = s.pending ∧ ChangesOnly [.pkg, .qtz, .slate] s.dev s'.dev := by
  unfold execPowerEstimate State.run
  refine ⟨_, rfl, rfl, ?_⟩
  try dsimp only
  repeat' first
    | intro _ | with_reducible exact .refl _ _ | with_reducible assumption | with_reducible apply ChangesOnly.ite
    | with_reducible apply ChangesOnly.foldl | (with_reducible apply ChangesOnly.step Dev.onPkg_foot; decide)
    | (with_reducible apply ChangesOnly.step Dev.elapse_foot; decide) | (with_reducible apply ChangesOnly.step Dev.pointCheck_foot; decide)
    | with_reducible exact .pair ‹_› ‹_› | split | dsimp only

theorem execOperatingPointChange_foot {dt : Nat} {s : State} : ∃ s', execOperatingPointChange dt s = .next s' ∧ s'.pending = s.pending ∧ ChangesOnly [.pkg, .qtz, .slate] s.dev s'.dev := by
  unfold execOperatingPointChange State.run
  refine ⟨_, rfl, rfl, ?_⟩
  try dsimp only
  repeat' first
    | intro _ | with_reducible exact .refl _ _ | with_reducible assumption | with_reducible apply ChangesOnly.ite
    | with_reducible apply ChangesOnly.foldl | (with_reducible apply ChangesOnly.step Dev.elapse_foot; decide)
    | (with_reducible apply ChangesOnly.step Dev.pointCheck_foot; decide) | with_reducible exact .pair ‹_› ‹_› | split | dsimp only

theorem execOperatingPointSettled_foot {dt : Nat} {s : State} : ∃ s', execOperatingPointSettled dt s = .next s' ∧ s'.pending = s.pending ∧ ChangesOnly [.pkg, .qtz, .slate] s.dev s'.dev := by
  unfold execOperatingPointSettled State.run
  refine ⟨_, rfl, rfl, ?_⟩
  try dsimp only
  repeat' first
    | intro _ | with_reducible exact .refl _ _ | with_reducible assumption | with_reducible apply ChangesOnly.ite
    | with_reducible apply ChangesOnly.foldl | (with_reducible apply ChangesOnly.step Dev.onPkg_foot; decide)
    | (with_reducible apply ChangesOnly.step Dev.elapse_foot; decide) | (with_reducible apply ChangesOnly.step Dev.tapsFor_foot; decide)
    | with_reducible exact .pair ‹_› ‹_› | split | dsimp only

theorem execMeshLinkFailed_foot {link : Fin 12} {dt : Nat} {s : State} : ∃ s', execMeshLinkFailed link dt s = .next s' ∧ s'.pending = s.pending ∧ ChangesOnly [.pkg, .flint, .qtz] s.dev s'.dev := by
  unfold execMeshLinkFailed State.run
  refine ⟨_, rfl, rfl, ?_⟩
  try dsimp only
  repeat' first
    | intro _ | with_reducible exact .refl _ _ | with_reducible assumption | with_reducible apply ChangesOnly.ite
    | with_reducible apply ChangesOnly.foldl | (with_reducible apply ChangesOnly.step Dev.onPkg_foot; decide)
    | (with_reducible apply ChangesOnly.step Dev.elapse_foot; decide) | (with_reducible apply ChangesOnly.step Dev.raise_foot; decide)
    | with_reducible exact .pair ‹_› ‹_› | split | dsimp only

theorem execClockedDomainReset_foot {dom : Fin 60} {reqs : List Nat} {dt : Nat} {s : State} : ∃ s', execClockedDomainReset dom reqs dt s = .next s' ∧ s'.pending = s.pending ∧ ChangesOnly [.expo, .flint, .qtz, .out] s.dev s'.dev := by
  unfold execClockedDomainReset State.run
  refine ⟨_, rfl, rfl, ?_⟩
  try dsimp only
  repeat' first
    | intro _ | with_reducible exact .refl _ _ | with_reducible assumption | with_reducible apply ChangesOnly.ite
    | with_reducible apply ChangesOnly.foldl | (with_reducible apply ChangesOnly.step Dev.onExpo_foot; decide)
    | (with_reducible apply ChangesOnly.step Dev.elapse_foot; decide) | (with_reducible apply ChangesOnly.step Dev.emit_foot; decide)
    | (with_reducible apply ChangesOnly.step Dev.raise_foot; decide) | with_reducible exact .pair ‹_› ‹_› | split | dsimp only

theorem execEventPostRate_foot {dt : Nat} {s : State} : ∃ s', execEventPostRate dt s = .next s' ∧ s'.pending = s.pending ∧ ChangesOnly [.flint, .qtz, .heads, .out] s.dev s'.dev := by
  unfold execEventPostRate State.run
  refine ⟨_, rfl, rfl, ?_⟩
  try dsimp only
  repeat' first
    | intro _ | with_reducible exact .refl _ _ | with_reducible assumption | with_reducible apply ChangesOnly.ite
    | with_reducible apply ChangesOnly.foldl | (with_reducible apply ChangesOnly.step Dev.onFlint_foot; decide)
    | (with_reducible apply ChangesOnly.step Dev.elapse_foot; decide) | (with_reducible apply ChangesOnly.step Dev.postTo_foot; decide)
    | with_reducible exact .pair ‹_› ‹_› | split | dsimp only

theorem execFlintMessage_foot {c : Fin 9} {n pk : Nat} {dt : Nat} {s : State} : ∃ s', execFlintMessage c n pk dt s = .next s' ∧ s'.pending = s.pending ∧ ChangesOnly [.mem, .pkg, .expo, .sealing, .restore, .strata, .flash, .ctxs, .dram, .energy, .flint, .qtz, .snap, .lat, .heads, .slate, .panel, .dw, .out, .freeN] s.dev s'.dev := by
  unfold execFlintMessage State.run
  refine ⟨_, rfl, rfl, ?_⟩
  try dsimp only
  repeat' first
    | intro _ | with_reducible exact .refl _ _ | with_reducible assumption | with_reducible apply ChangesOnly.ite
    | with_reducible apply ChangesOnly.foldl | (with_reducible apply ChangesOnly.step Dev.elapse_foot; decide)
    | (with_reducible apply ChangesOnly.step Dev.window_foot; decide) | with_reducible exact .pair ‹_› ‹_› | split | dsimp only

theorem execShadowWindowClose_foot {dt : Nat} {s : State} : ∃ s', execShadowWindowClose dt s = .next s' ∧ s'.pending = s.pending ∧ ChangesOnly [.flint, .qtz] s.dev s'.dev := by
  unfold execShadowWindowClose State.run
  refine ⟨_, rfl, rfl, ?_⟩
  try dsimp only
  repeat' first
    | intro _ | with_reducible exact .refl _ _ | with_reducible assumption | with_reducible apply ChangesOnly.ite
    | with_reducible apply ChangesOnly.foldl | (with_reducible apply ChangesOnly.step Dev.onFlint_foot; decide)
    | (with_reducible apply ChangesOnly.step Dev.elapse_foot; decide) | with_reducible exact .pair ‹_› ‹_› | split | dsimp only

theorem execLostMessageReport_foot {c : Fin 9} {dt : Nat} {s : State} : ∃ s', execLostMessageReport c dt s = .next s' ∧ s'.pending = s.pending ∧ ChangesOnly [.flint, .qtz] s.dev s'.dev := by
  unfold execLostMessageReport State.run
  refine ⟨_, rfl, rfl, ?_⟩
  try dsimp only
  repeat' first
    | intro _ | with_reducible exact .refl _ _ | with_reducible assumption | with_reducible apply ChangesOnly.ite
    | with_reducible apply ChangesOnly.foldl | (with_reducible apply ChangesOnly.step Dev.elapse_foot; decide)
    | (with_reducible apply ChangesOnly.step Dev.onColl_foot; decide) | (with_reducible apply ChangesOnly.step Dev.raise_foot; decide)
    | with_reducible exact .pair ‹_› ‹_› | split | dsimp only

theorem execSafeStateDecision_foot {dt : Nat} {s : State} : ∃ s', execSafeStateDecision dt s = .next s' ∧ s'.pending = s.pending ∧ ChangesOnly [.mem, .pkg, .expo, .sealing, .restore, .flash, .ctxs, .dram, .energy, .therm, .flint, .qtz, .lat, .heads, .jcs, .slate, .upd, .panel, .dw, .out] s.dev s'.dev := by
  unfold execSafeStateDecision State.run
  refine ⟨_, rfl, rfl, ?_⟩
  try dsimp only
  repeat' first
    | intro _ | with_reducible exact .refl _ _ | with_reducible assumption | with_reducible apply ChangesOnly.ite
    | with_reducible apply ChangesOnly.foldl | (with_reducible apply ChangesOnly.step Dev.onPkg_foot; decide)
    | (with_reducible apply ChangesOnly.step Dev.onFlint_foot; decide) | (with_reducible apply ChangesOnly.step Dev.elapse_foot; decide)
    | (with_reducible apply ChangesOnly.step Dev.trigger_foot; decide) | (with_reducible apply ChangesOnly.step Dev.fltShow_foot; decide)
    | with_reducible exact .pair ‹_› ‹_› | split | dsimp only

theorem execFlintExtractWrite_foot {dt : Nat} {s : State} : ∃ s', execFlintExtractWrite dt s = .next s' ∧ s'.pending = s.pending ∧ ChangesOnly [.flint, .qtz, .slate] s.dev s'.dev := by
  unfold execFlintExtractWrite State.run
  refine ⟨_, rfl, rfl, ?_⟩
  try dsimp only
  repeat' first
    | intro _ | with_reducible exact .refl _ _ | with_reducible assumption | with_reducible apply ChangesOnly.ite
    | with_reducible apply ChangesOnly.foldl | (with_reducible apply ChangesOnly.step Dev.elapse_foot; decide)
    | (with_reducible apply ChangesOnly.step Dev.flintExtract_foot; decide) | with_reducible exact .pair ‹_› ‹_› | split | dsimp only

theorem execAliveToggle_foot {dt : Nat} {s : State} : ∃ s', execAliveToggle dt s = .next s' ∧ s'.pending = s.pending ∧ ChangesOnly [.flint, .qtz] s.dev s'.dev := by
  unfold execAliveToggle State.run
  refine ⟨_, rfl, rfl, ?_⟩
  try dsimp only
  repeat' first
    | intro _ | with_reducible exact .refl _ _ | with_reducible assumption | with_reducible apply ChangesOnly.ite
    | with_reducible apply ChangesOnly.foldl | (with_reducible apply ChangesOnly.step Dev.onFlint_foot; decide)
    | (with_reducible apply ChangesOnly.step Dev.elapse_foot; decide) | with_reducible exact .pair ‹_› ‹_› | split | dsimp only

theorem execTfaultPulseEnd_foot {t : Fin 8} {dt : Nat} {s : State} : ∃ s', execTfaultPulseEnd t dt s = .next s' ∧ s'.pending = s.pending ∧ ChangesOnly [.flint, .qtz] s.dev s'.dev := by
  unfold execTfaultPulseEnd State.run
  refine ⟨_, rfl, rfl, ?_⟩
  try dsimp only
  repeat' first
    | intro _ | with_reducible exact .refl _ _ | with_reducible assumption | with_reducible apply ChangesOnly.ite
    | with_reducible apply ChangesOnly.foldl | (with_reducible apply ChangesOnly.step Dev.onFlint_foot; decide)
    | (with_reducible apply ChangesOnly.step Dev.elapse_foot; decide) | (with_reducible apply ChangesOnly.step Dev.tfPulse_foot; decide)
    | with_reducible exact .pair ‹_› ‹_› | split | dsimp only

theorem execChunkDurable_foot {dt : Nat} {s : State} : ∃ s', execChunkDurable dt s = .next s' ∧ s'.pending = s.pending ∧ ChangesOnly [.qtz, .heads, .slate, .upd, .out, .freeN] s.dev s'.dev := by
  unfold execChunkDurable State.run
  refine ⟨_, rfl, rfl, ?_⟩
  try dsimp only
  repeat' first
    | intro _ | with_reducible exact .refl _ _ | with_reducible assumption | with_reducible apply ChangesOnly.ite
    | with_reducible apply ChangesOnly.foldl | (with_reducible apply ChangesOnly.step Dev.onUpd_foot; decide)
    | (with_reducible apply ChangesOnly.step Dev.elapse_foot; decide) | (with_reducible apply ChangesOnly.step Dev.eraseWhole_foot; decide)
    | (with_reducible apply ChangesOnly.step Dev.slatePut_foot; decide) | (with_reducible apply ChangesOnly.step Dev.onRecs_foot; decide)
    | (with_reducible apply ChangesOnly.step Dev.emit_foot; decide) | (with_reducible apply ChangesOnly.step Dev.xferAck_foot; decide)
    | with_reducible exact .pair ‹_› ‹_› | split | dsimp only

theorem execSlotVerification_foot {facts : List (BitVec 4)} {dt : Nat} {s : State} : ∃ s', execSlotVerification facts dt s = .next s' ∧ s'.pending = s.pending ∧ ChangesOnly [.flint, .qtz, .heads, .jcs, .slate, .upd, .mirror, .out, .freeN] s.dev s'.dev := by
  unfold execSlotVerification State.run
  refine ⟨_, rfl, rfl, ?_⟩
  try dsimp only
  repeat' first
    | intro _ | with_reducible exact .refl _ _ | with_reducible assumption | with_reducible apply ChangesOnly.ite
    | with_reducible apply ChangesOnly.foldl | (with_reducible apply ChangesOnly.step Dev.onUpd_foot; decide)
    | (with_reducible apply ChangesOnly.step Dev.elapse_foot; decide) | (with_reducible apply ChangesOnly.step Dev.onRecs_foot; decide)
    | (with_reducible apply ChangesOnly.step Dev.imageReject_foot; decide) | (with_reducible apply ChangesOnly.step Dev.emit_foot; decide)
    | (with_reducible apply ChangesOnly.step Dev.cxlRespond_foot; decide) | (with_reducible apply ChangesOnly.step Dev.updRelease_foot; decide)
    | with_reducible exact .pair ‹_› ‹_› | split | dsimp only

theorem execUpdateIdleTimeout_foot {dt : Nat} {s : State} : ∃ s', execUpdateIdleTimeout dt s = .next s' ∧ s'.pending = s.pending ∧ ChangesOnly [.flint, .qtz, .heads, .jcs, .slate, .upd, .mirror, .out, .freeN] s.dev s'.dev := by
  unfold execUpdateIdleTimeout State.run
  refine ⟨_, rfl, rfl, ?_⟩
  try dsimp only
  repeat' first
    | intro _ | with_reducible exact .refl _ _ | with_reducible assumption | with_reducible apply ChangesOnly.ite
    | with_reducible apply ChangesOnly.foldl | (with_reducible apply ChangesOnly.step Dev.elapse_foot; decide)
    | (with_reducible apply ChangesOnly.step Dev.updRelease_foot; decide) | with_reducible exact .pair ‹_› ‹_› | split | dsimp only

theorem execRequestUpdate_foot {eid maxTransfer : Nat} {dt : Nat} {s : State} : ∃ s', execRequestUpdate eid maxTransfer dt s = .next s' ∧ s'.pending = s.pending ∧ ChangesOnly [.flint, .qtz, .heads, .jcs, .slate, .upd, .mirror, .out, .freeN] s.dev s'.dev := by
  unfold execRequestUpdate State.run
  refine ⟨_, rfl, rfl, ?_⟩
  try dsimp only
  repeat' first
    | intro _ | with_reducible exact .refl _ _ | with_reducible assumption | with_reducible apply ChangesOnly.ite
    | with_reducible apply ChangesOnly.foldl | (with_reducible apply ChangesOnly.step Dev.onUpd_foot; decide)
    | (with_reducible apply ChangesOnly.step Dev.elapse_foot; decide) | (with_reducible apply ChangesOnly.step Dev.emit_foot; decide)
    | (with_reducible apply ChangesOnly.step Dev.updYield_foot; decide) | (with_reducible apply ChangesOnly.step Dev.updOwn_foot; decide)
    | with_reducible exact .pair ‹_› ‹_› | split | dsimp only

theorem execRequestFirmwareData_foot {data : List Byte} {dig : Nat} {facts : BitVec 4} {dt : Nat} {s : State} : ∃ s', execRequestFirmwareData data dig facts dt s = .next s' ∧ s'.pending = s.pending ∧ ChangesOnly [.flint, .qtz, .heads, .jcs, .slate, .upd, .mirror, .out, .freeN] s.dev s'.dev := by
  unfold execRequestFirmwareData State.run
  refine ⟨_, rfl, rfl, ?_⟩
  try dsimp only
  repeat' first
    | intro _ | with_reducible exact .refl _ _ | with_reducible assumption | with_reducible apply ChangesOnly.ite
    | with_reducible apply ChangesOnly.foldl | (with_reducible apply ChangesOnly.step Dev.onUpd_foot; decide)
    | (with_reducible apply ChangesOnly.step Dev.elapse_foot; decide) | (with_reducible apply ChangesOnly.step Dev.emit_foot; decide)
    | (with_reducible apply ChangesOnly.step Dev.imageReject_foot; decide) | (with_reducible apply ChangesOnly.step Dev.updRelease_foot; decide)
    | (with_reducible apply ChangesOnly.step Dev.xferHeader_foot; decide) | (with_reducible apply ChangesOnly.step Dev.xferChunk_foot; decide)
    | (with_reducible apply ChangesOnly.step Dev.xferAck_foot; decide) | with_reducible exact .pair ‹_› ‹_› | split | dsimp only

theorem execCancelUpdate_foot {dt : Nat} {s : State} : ∃ s', execCancelUpdate dt s = .next s' ∧ s'.pending = s.pending ∧ ChangesOnly [.flint, .qtz, .heads, .jcs, .slate, .upd, .mirror, .out, .freeN] s.dev s'.dev := by
  unfold execCancelUpdate State.run
  refine ⟨_, rfl, rfl, ?_⟩
  try dsimp only
  repeat' first
    | intro _ | with_reducible exact .refl _ _ | with_reducible assumption | with_reducible apply ChangesOnly.ite
    | with_reducible apply ChangesOnly.foldl | (with_reducible apply ChangesOnly.step Dev.elapse_foot; decide)
    | (with_reducible apply ChangesOnly.step Dev.emit_foot; decide) | (with_reducible apply ChangesOnly.step Dev.updRelease_foot; decide)
    | with_reducible exact .pair ‹_› ‹_› | split | dsimp only

theorem execActivateFirmware_foot {selfContained : Bool} {dt : Nat} {s : State} : ∃ s', execActivateFirmware selfContained dt s = .next s' ∧ s'.pending = s.pending ∧ ChangesOnly [.mem, .pkg, .expo, .sealing, .restore, .strata, .flash, .ctxs, .dram, .energy, .therm, .flint, .qtz, .lat, .heads, .jcs, .slate, .upd, .panel, .dw, .out, .freeN] s.dev s'.dev := by
  unfold execActivateFirmware State.run
  refine ⟨_, rfl, rfl, ?_⟩
  try dsimp only
  repeat' first
    | intro _ | with_reducible exact .refl _ _ | with_reducible assumption | with_reducible apply ChangesOnly.ite
    | with_reducible apply ChangesOnly.foldl | (with_reducible apply ChangesOnly.step Dev.elapse_foot; decide)
    | (with_reducible apply ChangesOnly.step Dev.emit_foot; decide) | (with_reducible apply ChangesOnly.step Dev.activate_foot; decide)
    | with_reducible exact .pair ‹_› ‹_› | split | dsimp only

theorem execUpdateConfirmation_foot {dt : Nat} {s : State} : ∃ s', execUpdateConfirmation dt s = .next s' ∧ s'.pending = s.pending ∧ ChangesOnly [.flint, .qtz, .heads, .jcs, .slate, .upd, .mirror, .out, .freeN] s.dev s'.dev := by
  unfold execUpdateConfirmation State.run
  refine ⟨_, rfl, rfl, ?_⟩
  try dsimp only
  repeat' first
    | intro _ | with_reducible exact .refl _ _ | with_reducible assumption | with_reducible apply ChangesOnly.ite
    | with_reducible apply ChangesOnly.foldl | (with_reducible apply ChangesOnly.step Dev.elapse_foot; decide)
    | (with_reducible apply ChangesOnly.step Dev.confirmRest_foot; decide) | (with_reducible apply ChangesOnly.step Dev.onRecs_foot; decide)
    | with_reducible exact .pair ‹_› ‹_› | split | dsimp only

theorem execConfirmWindowExpiry_foot {dt : Nat} {s : State} : ∃ s', execConfirmWindowExpiry dt s = .next s' ∧ s'.pending = s.pending ∧ ChangesOnly [.mem, .pkg, .expo, .sealing, .restore, .strata, .flash, .ctxs, .dram, .energy, .therm, .flint, .qtz, .lat, .heads, .jcs, .slate, .upd, .panel, .dw, .out, .freeN] s.dev s'.dev := by
  unfold execConfirmWindowExpiry State.run
  refine ⟨_, rfl, rfl, ?_⟩
  try dsimp only
  repeat' first
    | intro _ | with_reducible exact .refl _ _ | with_reducible assumption | with_reducible apply ChangesOnly.ite
    | with_reducible apply ChangesOnly.foldl | (with_reducible apply ChangesOnly.step Dev.onUpd_foot; decide)
    | (with_reducible apply ChangesOnly.step Dev.elapse_foot; decide) | (with_reducible apply ChangesOnly.step Dev.onRecs_foot; decide)
    | (with_reducible apply ChangesOnly.step Dev.revert_foot; decide) | (with_reducible apply ChangesOnly.step Dev.trigger_foot; decide)
    | with_reducible exact .pair ‹_› ‹_› | split | dsimp only

theorem execBrId_foot {dt : Nat} {s : State} : ∃ s', execBrId dt s = .next s' ∧ s'.pending = s.pending ∧ ChangesOnly [.qtz, .out] s.dev s'.dev := by
  unfold execBrId State.run
  refine ⟨_, rfl, rfl, ?_⟩
  try dsimp only
  repeat' first
    | intro _ | with_reducible exact .refl _ _ | with_reducible assumption | with_reducible apply ChangesOnly.ite
    | with_reducible apply ChangesOnly.foldl | (with_reducible apply ChangesOnly.step Dev.elapse_foot; decide)
    | with_reducible apply Dev.brDo_foot (by decide) | (with_reducible apply ChangesOnly.step Dev.emit_foot; decide)
    | with_reducible exact .pair ‹_› ‹_› | split | dsimp only

theorem execBrTiles_foot {write : Option (BitVec 8)} {pec : Bool} {dt : Nat} {s : State} : ∃ s', execBrTiles write pec dt s = .next s' ∧ s'.pending = s.pending ∧ ChangesOnly [.qtz, .upd, .out] s.dev s'.dev := by
  unfold execBrTiles State.run
  refine ⟨_, rfl, rfl, ?_⟩
  try dsimp only
  repeat' first
    | intro _ | with_reducible exact .refl _ _ | with_reducible assumption | with_reducible apply ChangesOnly.ite
    | with_reducible apply ChangesOnly.foldl | (with_reducible apply ChangesOnly.step Dev.onUpd_foot; decide)
    | (with_reducible apply ChangesOnly.step Dev.elapse_foot; decide) | with_reducible apply Dev.brDo_foot (by decide)
    | (with_reducible apply ChangesOnly.step Dev.emit_foot; decide) | with_reducible exact .pair ‹_› ‹_› | split | dsimp only

theorem execBrAddr_foot {write : Option (BitVec 23)} {pec : Bool} {dt : Nat} {s : State} : ∃ s', execBrAddr write pec dt s = .next s' ∧ s'.pending = s.pending ∧ ChangesOnly [.qtz, .upd, .out] s.dev s'.dev := by
  unfold execBrAddr State.run
  refine ⟨_, rfl, rfl, ?_⟩
  try dsimp only
  repeat' first
    | intro _ | with_reducible exact .refl _ _ | with_reducible assumption | with_reducible apply ChangesOnly.ite
    | with_reducible apply ChangesOnly.foldl | (with_reducible apply ChangesOnly.step Dev.onUpd_foot; decide)
    | (with_reducible apply ChangesOnly.step Dev.elapse_foot; decide) | with_reducible apply Dev.brDo_foot (by decide)
    | (with_reducible apply ChangesOnly.step Dev.emit_foot; decide) | with_reducible exact .pair ‹_› ‹_› | split | dsimp only

theorem execBrStat_foot {dt : Nat} {s : State} : ∃ s', execBrStat dt s = .next s' ∧ s'.pending = s.pending ∧ ChangesOnly [.qtz, .out] s.dev s'.dev := by
  unfold execBrStat State.run
  refine ⟨_, rfl, rfl, ?_⟩
  try dsimp only
  repeat' first
    | intro _ | with_reducible exact .refl _ _ | with_reducible assumption | with_reducible apply ChangesOnly.ite
    | with_reducible apply ChangesOnly.foldl | (with_reducible apply ChangesOnly.step Dev.elapse_foot; decide)
    | with_reducible apply Dev.brDo_foot (by decide) | (with_reducible apply ChangesOnly.step Dev.emit_foot; decide)
    | with_reducible exact .pair ‹_› ‹_› | split | dsimp only

theorem execBrRes_foot {dt : Nat} {s : State} : ∃ s', execBrRes dt s = .next s' ∧ s'.pending = s.pending ∧ ChangesOnly [.qtz, .out] s.dev s'.dev := by
  unfold execBrRes State.run
  refine ⟨_, rfl, rfl, ?_⟩
  try dsimp only
  repeat' first
    | intro _ | with_reducible exact .refl _ _ | with_reducible assumption | with_reducible apply ChangesOnly.ite
    | with_reducible apply ChangesOnly.foldl | (with_reducible apply ChangesOnly.step Dev.elapse_foot; decide)
    | with_reducible apply Dev.brDo_foot (by decide) | (with_reducible apply ChangesOnly.step Dev.emit_foot; decide)
    | with_reducible exact .pair ‹_› ‹_› | split | dsimp only

theorem execBrLine_foot {data : BitVec 128} {pec : Bool} {dt : Nat} {s : State} : ∃ s', execBrLine data pec dt s = .next s' ∧ s'.pending = s.pending ∧ ChangesOnly [.flint, .qtz, .slate, .upd, .out] s.dev s'.dev := by
  unfold execBrLine State.run
  refine ⟨_, rfl, rfl, ?_⟩
  try dsimp only
  repeat' first
    | intro _ | with_reducible exact .refl _ _ | with_reducible assumption | with_reducible apply ChangesOnly.ite
    | with_reducible apply ChangesOnly.foldl | (with_reducible apply ChangesOnly.step Dev.onUpd_foot; decide)
    | (with_reducible apply ChangesOnly.step Dev.elapse_foot; decide) | with_reducible apply Dev.brDo_foot (by decide)
    | (with_reducible apply ChangesOnly.step Dev.slRefuse_foot; decide) | (with_reducible apply ChangesOnly.step Dev.brRun_foot; decide)
    | with_reducible exact .pair ‹_› ‹_› | split | dsimp only

theorem execBrErase_foot {sector : BitVec 8} {pec : Bool} {dt : Nat} {s : State} : ∃ s', execBrErase sector pec dt s = .next s' ∧ s'.pending = s.pending ∧ ChangesOnly [.flint, .qtz, .slate, .upd, .out] s.dev s'.dev := by
  unfold execBrErase State.run
  refine ⟨_, rfl, rfl, ?_⟩
  try dsimp only
  repeat' first
    | intro _ | with_reducible exact .refl _ _ | with_reducible assumption | with_reducible apply ChangesOnly.ite
    | with_reducible apply ChangesOnly.foldl | (with_reducible apply ChangesOnly.step Dev.elapse_foot; decide)
    | with_reducible apply Dev.brDo_foot (by decide) | (with_reducible apply ChangesOnly.step Dev.slRefuse_foot; decide)
    | (with_reducible apply ChangesOnly.step Dev.brRun_foot; decide) | with_reducible exact .pair ‹_› ‹_› | split | dsimp only

theorem execBrOp_foot {arg code : BitVec 8} {pec : Bool} {dt : Nat} {s : State} : ∃ s', execBrOp arg code pec dt s = .next s' ∧ s'.pending = s.pending ∧ ChangesOnly [.flint, .qtz, .slate, .upd, .out] s.dev s'.dev := by
  unfold execBrOp State.run
  refine ⟨_, rfl, rfl, ?_⟩
  try dsimp only
  repeat' first
    | intro _ | with_reducible exact .refl _ _ | with_reducible assumption | with_reducible apply ChangesOnly.ite
    | with_reducible apply ChangesOnly.foldl | (with_reducible apply ChangesOnly.step Dev.elapse_foot; decide)
    | with_reducible apply Dev.brDo_foot (by decide) | (with_reducible apply ChangesOnly.step Dev.slRefuse_foot; decide)
    | (with_reducible apply ChangesOnly.step Dev.brRun_foot; decide) | with_reducible exact .pair ‹_› ‹_› | split | dsimp only

theorem execBrData_foot {err : Fin 3} {dt : Nat} {s : State} : ∃ s', execBrData err dt s = .next s' ∧ s'.pending = s.pending ∧ ChangesOnly [.flint, .qtz, .slate, .upd, .out, .freeN] s.dev s'.dev := by
  unfold execBrData State.run
  refine ⟨_, rfl, rfl, ?_⟩
  try dsimp only
  repeat' first
    | intro _ | with_reducible exact .refl _ _ | with_reducible assumption | with_reducible apply ChangesOnly.ite
    | with_reducible apply ChangesOnly.foldl | (with_reducible apply ChangesOnly.step Dev.onUpd_foot; decide)
    | (with_reducible apply ChangesOnly.step Dev.elapse_foot; decide) | with_reducible apply Dev.brDo_foot (by decide)
    | (with_reducible apply ChangesOnly.step Dev.slateReadErr_foot; decide) | (with_reducible apply ChangesOnly.step Dev.tick_foot; decide)
    | (with_reducible apply ChangesOnly.step Dev.emit_foot; decide) | with_reducible exact .pair ‹_› ‹_› | split | dsimp only

theorem execBrVerify_foot {target : BitVec 8} {facts : List (BitVec 4)} {pec : Bool} {dt : Nat} {s : State} : ∃ s', execBrVerify target facts pec dt s = .next s' ∧ s'.pending = s.pending ∧ ChangesOnly [.qtz, .upd, .out] s.dev s'.dev := by
  unfold execBrVerify State.run
  refine ⟨_, rfl, rfl, ?_⟩
  try dsimp only
  repeat' first
    | intro _ | with_reducible exact .refl _ _ | with_reducible assumption | with_reducible apply ChangesOnly.ite
    | with_reducible apply ChangesOnly.foldl | (with_reducible apply ChangesOnly.step Dev.onUpd_foot; decide)
    | (with_reducible apply ChangesOnly.step Dev.elapse_foot; decide) | with_reducible apply Dev.brDo_foot (by decide)
    | (with_reducible apply ChangesOnly.step Dev.emit_foot; decide) | with_reducible exact .pair ‹_› ‹_› | split | dsimp only

theorem execBrVres_foot {dt : Nat} {s : State} : ∃ s', execBrVres dt s = .next s' ∧ s'.pending = s.pending ∧ ChangesOnly [.qtz, .out] s.dev s'.dev := by
  unfold execBrVres State.run
  refine ⟨_, rfl, rfl, ?_⟩
  try dsimp only
  repeat' first
    | intro _ | with_reducible exact .refl _ _ | with_reducible assumption | with_reducible apply ChangesOnly.ite
    | with_reducible apply ChangesOnly.foldl | (with_reducible apply ChangesOnly.step Dev.elapse_foot; decide)
    | with_reducible apply Dev.brDo_foot (by decide) | (with_reducible apply ChangesOnly.step Dev.emit_foot; decide)
    | with_reducible exact .pair ‹_› ‹_› | split | dsimp only

theorem execBrExit_foot {slot : BitVec 8} {pec : Bool} {dt : Nat} {s : State} : ∃ s', execBrExit slot pec dt s = .next s' ∧ s'.pending = s.pending ∧ ChangesOnly [.mem, .expo, .strata, .flash, .ctxs, .flint, .qtz, .heads, .slate, .upd, .panel, .out, .freeN] s.dev s'.dev := by
  unfold execBrExit State.run
  refine ⟨_, rfl, rfl, ?_⟩
  try dsimp only
  repeat' first
    | intro _ | with_reducible exact .refl _ _ | with_reducible assumption | with_reducible apply ChangesOnly.ite
    | with_reducible apply ChangesOnly.foldl | (with_reducible apply ChangesOnly.step Dev.onUpd_foot; decide)
    | (with_reducible apply ChangesOnly.step Dev.onPanel_foot; decide) | (with_reducible apply ChangesOnly.step Dev.elapse_foot; decide)
    | with_reducible apply Dev.brDo_foot (by decide) | (with_reducible apply ChangesOnly.step Dev.emit_foot; decide)
    | (with_reducible apply ChangesOnly.step Dev.revert_foot; decide) | (with_reducible apply ChangesOnly.step Dev.onUrec_foot; decide)
    | (with_reducible apply ChangesOnly.step Dev.recWrite_foot; decide) | with_reducible exact .pair ‹_› ‹_› | split | dsimp only

theorem execBootComplete_foot {self okA okB warmOk : BitVec 8} {twinOk : Bool} {half torn : List (Nat × Nat)} {temps : List (Nat × BitVec 18)} {geom : Nat × Nat} {untrained : List (Nat × Nat)} {dt : Nat} {s : State} : ∃ s', execBootComplete self okA okB warmOk twinOk half torn temps geom untrained dt s = .next s' ∧ s'.pending = s.pending ∧ ChangesOnly [.mem, .pkg, .expo, .sealing, .restore, .strata, .flash, .ctxs, .dram, .energy, .therm, .flint, .qtz, .snap, .lat, .heads, .jcs, .slate, .upd, .panel, .mirror, .dw, .out, .freeN] s.dev s'.dev := by
  unfold execBootComplete State.run
  refine ⟨_, rfl, rfl, ?_⟩
  try dsimp only
  repeat' first
    | intro _ | with_reducible exact .refl _ _ | with_reducible assumption | with_reducible apply ChangesOnly.ite
    | with_reducible apply ChangesOnly.foldl | (with_reducible apply ChangesOnly.step Dev.onSealing_foot; decide)
    | (with_reducible apply ChangesOnly.step Dev.onPanel_foot; decide) | (with_reducible apply ChangesOnly.step Dev.onTherm_foot; decide)
    | (with_reducible apply ChangesOnly.step Dev.onSnap_foot; decide) | (with_reducible apply ChangesOnly.step Dev.onRestore_foot; decide)
    | (with_reducible apply ChangesOnly.step Dev.onEnergy_foot; decide) | (with_reducible apply ChangesOnly.step Dev.onStrata_foot; decide)
    | (with_reducible apply ChangesOnly.step Dev.elapse_foot; decide) | (with_reducible apply ChangesOnly.step Dev.intentScan_foot; decide)
    | (with_reducible apply ChangesOnly.step Dev.tornRecord_foot; decide) | (with_reducible apply ChangesOnly.step Dev.sealReport_foot; decide)
    | (with_reducible apply ChangesOnly.step Dev.timeFloor_foot; decide) | (with_reducible apply ChangesOnly.step Dev.bootRoles_foot; decide)
    | (with_reducible apply ChangesOnly.step Dev.raise_foot; decide) | (with_reducible apply ChangesOnly.step Dev.thermPend_foot; decide)
    | (with_reducible apply ChangesOnly.step Dev.takeCode_foot; decide) | (with_reducible apply ChangesOnly.step Dev.tooHot_foot; decide)
    | (with_reducible apply ChangesOnly.step Dev.bootSlots_foot; decide) | (with_reducible apply ChangesOnly.step Dev.bayBoot_foot; decide)
    | (with_reducible apply ChangesOnly.step Dev.qtzUpd_foot; decide) | (with_reducible apply ChangesOnly.step Dev.steerLoad_foot; decide)
    | (with_reducible apply ChangesOnly.step Dev.dramCfgUpd_foot; decide) | (with_reducible apply ChangesOnly.step Dev.warmOpen_foot; decide)
    | (with_reducible apply ChangesOnly.step Dev.toDramInit_foot; decide) | (with_reducible apply ChangesOnly.step Dev.flashChanLost_foot; decide)
    | with_reducible exact .pair ‹_› ‹_› | split | dsimp only

theorem execTileTierDecided_foot {t : Fin 8} {scan ledgerOk : Bool} {badHdr half : List Nat} {dt : Nat} {s : State} : ∃ s', execTileTierDecided t scan ledgerOk badHdr half dt s = .next s' ∧ s'.pending = s.pending ∧ ChangesOnly [.expo, .restore, .strata, .flash, .flint, .qtz] s.dev s'.dev := by
  unfold execTileTierDecided State.run
  refine ⟨_, rfl, rfl, ?_⟩
  try dsimp only
  repeat' first
    | intro _ | with_reducible exact .refl _ _ | with_reducible assumption | with_reducible apply ChangesOnly.ite
    | with_reducible apply ChangesOnly.foldl | (with_reducible apply ChangesOnly.step Dev.onRestore_foot; decide)
    | (with_reducible apply ChangesOnly.step Dev.elapse_foot; decide) | (with_reducible apply ChangesOnly.step Dev.raise_foot; decide)
    | (with_reducible apply ChangesOnly.step Dev.ledger_foot; decide) | (with_reducible apply ChangesOnly.step Dev.timeFloor_foot; decide)
    | (with_reducible apply ChangesOnly.step Dev.formatTile_foot; decide) | (with_reducible apply ChangesOnly.step Dev.onFl_foot; decide)
    | (with_reducible apply ChangesOnly.step Dev.halfErased_foot; decide) | (with_reducible apply ChangesOnly.step Dev.dropHeaders_foot; decide)
    | (with_reducible apply ChangesOnly.step Dev.rebuildLoc_foot; decide) | (with_reducible apply ChangesOnly.step Dev.poisonRecords_foot; decide)
    | with_reducible exact .pair ‹_› ‹_› | split | dsimp only

theorem execMountCrossCheck_foot {dt : Nat} {s : State} : ∃ s', execMountCrossCheck dt s = .next s' ∧ s'.pending = s.pending ∧ ChangesOnly [.flint, .qtz] s.dev s'.dev := by
  unfold execMountCrossCheck State.run
  refine ⟨_, rfl, rfl, ?_⟩
  try dsimp only
  repeat' first
    | intro _ | with_reducible exact .refl _ _ | with_reducible assumption | with_reducible apply ChangesOnly.ite
    | with_reducible apply ChangesOnly.foldl | (with_reducible apply ChangesOnly.step Dev.elapse_foot; decide)
    | (with_reducible apply ChangesOnly.step Dev.raise_foot; decide) | with_reducible exact .pair ‹_› ‹_› | split | dsimp only

theorem execMountCommitted_foot {t : Fin 8} {dt : Nat} {s : State} : ∃ s', execMountCommitted t dt s = .next s' ∧ s'.pending = s.pending ∧ ChangesOnly [.expo, .restore, .flash, .qtz, .dw] s.dev s'.dev := by
  unfold execMountCommitted State.run
  refine ⟨_, rfl, rfl, ?_⟩
  try dsimp only
  repeat' first
    | intro _ | with_reducible exact .refl _ _ | with_reducible assumption | with_reducible apply ChangesOnly.ite
    | with_reducible apply ChangesOnly.foldl | (with_reducible apply ChangesOnly.step Dev.onExpo_foot; decide)
    | (with_reducible apply ChangesOnly.step Dev.onRestore_foot; decide) | (with_reducible apply ChangesOnly.step Dev.elapse_foot; decide)
    | (with_reducible apply ChangesOnly.step Dev.ledger_foot; decide) | (with_reducible apply ChangesOnly.step Dev.mountEnds_foot; decide)
    | with_reducible exact .pair ‹_› ‹_› | split | dsimp only

theorem execMountTimeout_foot {t : Fin 8} {dt : Nat} {s : State} : ∃ s', execMountTimeout t dt s = .next s' ∧ s'.pending = s.pending ∧ ChangesOnly [.flint, .qtz] s.dev s'.dev := by
  unfold execMountTimeout State.run
  refine ⟨_, rfl, rfl, ?_⟩
  try dsimp only
  repeat' first
    | intro _ | with_reducible exact .refl _ _ | with_reducible assumption | with_reducible apply ChangesOnly.ite
    | with_reducible apply ChangesOnly.foldl | (with_reducible apply ChangesOnly.step Dev.elapse_foot; decide)
    | (with_reducible apply ChangesOnly.step Dev.raise_foot; decide) | with_reducible exact .pair ‹_› ‹_› | split | dsimp only

theorem execEarlyOpen_foot {dt : Nat} {s : State} : ∃ s', execEarlyOpen dt s = .next s' ∧ s'.pending = s.pending ∧ ChangesOnly [.mem, .pkg, .expo, .sealing, .restore, .strata, .flash, .ctxs, .dram, .energy, .flint, .qtz, .lat, .heads, .jcs, .slate, .upd, .mirror, .dw, .out] s.dev s'.dev := by
  unfold execEarlyOpen State.run
  refine ⟨_, rfl, rfl, ?_⟩
  try dsimp only
  repeat' first
    | intro _ | with_reducible exact .refl _ _ | with_reducible assumption | with_reducible apply ChangesOnly.ite
    | with_reducible apply ChangesOnly.foldl | (with_reducible apply ChangesOnly.step Dev.onRestore_foot; decide)
    | (with_reducible apply ChangesOnly.step Dev.onExpo_foot; decide) | (with_reducible apply ChangesOnly.step Dev.onSealing_foot; decide)
    | (with_reducible apply ChangesOnly.step Dev.onLat_foot; decide) | (with_reducible apply ChangesOnly.step Dev.onCtxs_foot; decide)
    | (with_reducible apply ChangesOnly.step Dev.elapse_foot; decide) | (with_reducible apply ChangesOnly.step Dev.onHead_foot; decide)
    | (with_reducible apply ChangesOnly.step Dev.mountEnds_foot; decide) | (with_reducible apply ChangesOnly.step Dev.ledgerAll_foot; decide)
    | (with_reducible apply ChangesOnly.step Dev.dirtyShutdown_foot; decide) | (with_reducible apply ChangesOnly.step Dev.poisonReport_foot; decide)
    | (with_reducible apply ChangesOnly.step Dev.ringsLost_foot; decide) | (with_reducible apply ChangesOnly.step Dev.onCtx_foot; decide)
    | (with_reducible apply ChangesOnly.step Dev.outageMeter_foot; decide) | (with_reducible apply ChangesOnly.step Dev.resumeRings_foot; decide)
    | (with_reducible apply ChangesOnly.step Dev.readmit_foot; decide) | (with_reducible apply ChangesOnly.step Dev.latEarlyOpen_foot; decide)
    | (with_reducible apply ChangesOnly.step Dev.afterSeal_foot; decide) | (with_reducible apply ChangesOnly.step Dev.heatApply_foot; decide)
    | (with_reducible apply ChangesOnly.step Dev.resumeWindow_foot; decide) | (with_reducible apply ChangesOnly.step Dev.pointCheck_foot; decide)
    | (with_reducible apply ChangesOnly.step Dev.bayUpd_foot; decide) | (with_reducible apply ChangesOnly.step Dev.bedrockEvents_foot; decide)
    | (with_reducible apply ChangesOnly.step Dev.recompute_foot; decide) | (with_reducible apply ChangesOnly.step Dev.restUpd_foot; decide)
    | with_reducible exact .pair ‹_› ‹_› | split | dsimp only

theorem execDemandFetchComplete_foot {p : Nat} {out : Fin 3} {keyErr : Fin 3} {dt : Nat} {s : State} : ∃ s', execDemandFetchComplete p out keyErr dt s = .next s' ∧ s'.pending = s.pending ∧ ChangesOnly [.mem, .expo, .restore, .flash, .ctxs, .dram, .flint, .qtz, .lat, .heads, .dw, .out] s.dev s'.dev := by
  unfold execDemandFetchComplete State.run
  refine ⟨_, rfl, rfl, ?_⟩
  try dsimp only
  repeat' first
    | intro _ | with_reducible exact .refl _ _ | with_reducible assumption | with_reducible apply ChangesOnly.ite
    | with_reducible apply ChangesOnly.foldl | (with_reducible apply ChangesOnly.step Dev.onRestore_foot; decide)
    | (with_reducible apply ChangesOnly.step Dev.elapse_foot; decide) | (with_reducible apply ChangesOnly.step Dev.fetchDone_foot; decide)
    | (with_reducible apply ChangesOnly.step Dev.restorePage_foot; decide) | (with_reducible apply ChangesOnly.step Dev.fetchRings_foot; decide)
    | with_reducible exact .pair ‹_› ‹_› | split | dsimp only

theorem execBulkRestorePage_foot {t : Fin 8} {fill : Option (Nat × Nat)} {out : Fin 3} {keyErr : Fin 3} {dt : Nat} {s : State} : ∃ s', execBulkRestorePage t fill out keyErr dt s = .next s' ∧ s'.pending = s.pending ∧ ChangesOnly [.mem, .expo, .restore, .flash, .ctxs, .dram, .flint, .qtz, .lat, .heads, .dw, .out] s.dev s'.dev := by
  unfold execBulkRestorePage State.run
  refine ⟨_, rfl, rfl, ?_⟩
  try dsimp only
  repeat' first
    | intro _ | with_reducible exact .refl _ _ | with_reducible assumption | with_reducible apply ChangesOnly.ite
    | with_reducible apply ChangesOnly.foldl | (with_reducible apply ChangesOnly.step Dev.onRestore_foot; decide)
    | (with_reducible apply ChangesOnly.step Dev.elapse_foot; decide) | (with_reducible apply ChangesOnly.step Dev.markRange_foot; decide)
    | (with_reducible apply ChangesOnly.step Dev.fetchDone_foot; decide) | (with_reducible apply ChangesOnly.step Dev.fetchRings_foot; decide)
    | (with_reducible apply ChangesOnly.step Dev.restorePage_foot; decide) | with_reducible exact .pair ‹_› ‹_› | split | dsimp only

theorem execBulkRestoreComplete_foot {t : Fin 8} {dt : Nat} {s : State} : ∃ s', execBulkRestoreComplete t dt s = .next s' ∧ s'.pending = s.pending ∧ ChangesOnly [.pkg, .restore, .dram, .flint, .qtz, .slate, .dw] s.dev s'.dev := by
  unfold execBulkRestoreComplete State.run
  refine ⟨_, rfl, rfl, ?_⟩
  try dsimp only
  repeat' first
    | intro _ | with_reducible exact .refl _ _ | with_reducible assumption | with_reducible apply ChangesOnly.ite
    | with_reducible apply ChangesOnly.foldl | (with_reducible apply ChangesOnly.step Dev.onRestore_foot; decide)
    | (with_reducible apply ChangesOnly.step Dev.elapse_foot; decide) | (with_reducible apply ChangesOnly.step Dev.rankWork_foot; decide)
    | (with_reducible apply ChangesOnly.step Dev.restoreEnds_foot; decide) | with_reducible exact .pair ‹_› ‹_› | split | dsimp only

theorem execRestoreStatusUpdate_foot {dt : Nat} {s : State} : ∃ s', execRestoreStatusUpdate dt s = .next s' ∧ s'.pending = s.pending ∧ ChangesOnly [.pkg, .qtz, .dw] s.dev s'.dev := by
  unfold execRestoreStatusUpdate State.run
  refine ⟨_, rfl, rfl, ?_⟩
  try dsimp only
  repeat' first
    | intro _ | with_reducible exact .refl _ _ | with_reducible assumption | with_reducible apply ChangesOnly.ite
    | with_reducible apply ChangesOnly.foldl | (with_reducible apply ChangesOnly.step Dev.elapse_foot; decide)
    | with_reducible apply Dev.periodic_foot (by decide) | (with_reducible apply ChangesOnly.step Dev.restUpd_foot; decide)
    | with_reducible exact .pair ‹_› ‹_› | split | dsimp only

theorem execPowerUp_foot {dt : Nat} {s : State} : ∃ s', execPowerUp dt s = .next s' ∧ s'.pending = s.pending ∧ ChangesOnly [.sealing, .restore, .therm, .qtz, .panel] s.dev s'.dev := by
  unfold execPowerUp State.run
  refine ⟨_, rfl, rfl, ?_⟩
  try dsimp only
  repeat' first
    | intro _ | with_reducible exact .refl _ _ | with_reducible assumption | with_reducible apply ChangesOnly.ite
    | with_reducible apply ChangesOnly.foldl | (with_reducible apply ChangesOnly.step Dev.elapse_foot; decide)
    | (with_reducible apply ChangesOnly.step Dev.powerStart_foot; decide) | with_reducible exact .pair ‹_› ‹_› | split | dsimp only

theorem execCoolWaitExpiry_foot {dt : Nat} {s : State} : ∃ s', execCoolWaitExpiry dt s = .next s' ∧ s'.pending = s.pending ∧ ChangesOnly [.sealing, .restore, .therm, .qtz, .panel] s.dev s'.dev := by
  unfold execCoolWaitExpiry State.run
  refine ⟨_, rfl, rfl, ?_⟩
  try dsimp only
  repeat' first
    | intro _ | with_reducible exact .refl _ _ | with_reducible assumption | with_reducible apply ChangesOnly.ite
    | with_reducible apply ChangesOnly.foldl | (with_reducible apply ChangesOnly.step Dev.onTherm_foot; decide)
    | (with_reducible apply ChangesOnly.step Dev.onSealing_foot; decide) | (with_reducible apply ChangesOnly.step Dev.elapse_foot; decide)
    | (with_reducible apply ChangesOnly.step Dev.thermPend_foot; decide) | (with_reducible apply ChangesOnly.step Dev.powerStart_foot; decide)
    | with_reducible exact .pair ‹_› ‹_› | split | dsimp only

theorem execRailGood_foot {rail : Fin 6} {dt : Nat} {s : State} : ∃ s', execRailGood rail dt s = .next s' ∧ s'.pending = s.pending ∧ ChangesOnly [.restore, .energy, .flint, .qtz, .slate, .panel] s.dev s'.dev := by
  unfold execRailGood State.run
  refine ⟨_, rfl, rfl, ?_⟩
  try dsimp only
  repeat' first
    | intro _ | with_reducible exact .refl _ _ | with_reducible assumption | with_reducible apply ChangesOnly.ite
    | with_reducible apply ChangesOnly.foldl | (with_reducible apply ChangesOnly.step Dev.onPanel_foot; decide)
    | (with_reducible apply ChangesOnly.step Dev.elapse_foot; decide) | (with_reducible apply ChangesOnly.step Dev.coreStart_foot; decide)
    | with_reducible exact .pair ‹_› ‹_› | split | dsimp only

theorem execRailTimeout_foot {rail : Fin 6} {dt : Nat} {s : State} : ∃ s', execRailTimeout rail dt s = .next s' ∧ s'.pending = s.pending ∧ ChangesOnly [.sealing, .qtz, .panel] s.dev s'.dev := by
  unfold execRailTimeout State.run
  refine ⟨_, rfl, rfl, ?_⟩
  try dsimp only
  repeat' first
    | intro _ | with_reducible exact .refl _ _ | with_reducible assumption | with_reducible apply ChangesOnly.ite
    | with_reducible apply ChangesOnly.foldl | (with_reducible apply ChangesOnly.step Dev.onPanel_foot; decide)
    | (with_reducible apply ChangesOnly.step Dev.onSealing_foot; decide) | (with_reducible apply ChangesOnly.step Dev.elapse_foot; decide)
    | with_reducible exact .pair ‹_› ‹_› | split | dsimp only

theorem execPowerUpRetry_foot {dt : Nat} {s : State} : ∃ s', execPowerUpRetry dt s = .next s' ∧ s'.pending = s.pending ∧ ChangesOnly [.sealing, .restore, .therm, .qtz, .panel] s.dev s'.dev := by
  unfold execPowerUpRetry State.run
  refine ⟨_, rfl, rfl, ?_⟩
  try dsimp only
  repeat' first
    | intro _ | with_reducible exact .refl _ _ | with_reducible assumption | with_reducible apply ChangesOnly.ite
    | with_reducible apply ChangesOnly.foldl | (with_reducible apply ChangesOnly.step Dev.elapse_foot; decide)
    | (with_reducible apply ChangesOnly.step Dev.powerStart_foot; decide) | with_reducible exact .pair ‹_› ‹_› | split | dsimp only

theorem execPackageReset_foot {bedrock noLat : Bool} {smb test : Fin 4} {dt : Nat} {s : State} : ∃ s', execPackageReset bedrock noLat smb test dt s = .next s' ∧ s'.pending = s.pending ∧ ChangesOnly [.pkg, .expo, .sealing, .restore, .ctxs, .dram, .energy, .therm, .flint, .qtz, .snap, .lat, .heads, .jcs, .slate, .upd, .panel, .mirror, .dw, .out, .freeN] s.dev s'.dev := by
  unfold execPackageReset State.run
  refine ⟨_, rfl, rfl, ?_⟩
  try dsimp only
  repeat' first
    | intro _ | with_reducible exact .refl _ _ | with_reducible assumption | with_reducible apply ChangesOnly.ite
    | with_reducible apply ChangesOnly.foldl | (with_reducible apply ChangesOnly.step Dev.onRestore_foot; decide)
    | (with_reducible apply ChangesOnly.step Dev.onPanel_foot; decide) | (with_reducible apply ChangesOnly.step Dev.onJcs_foot; decide)
    | (with_reducible apply ChangesOnly.step Dev.elapse_foot; decide) | (with_reducible apply ChangesOnly.step Dev.resetParts_foot; decide)
    | (with_reducible apply ChangesOnly.step Dev.xferUndo_foot; decide) | (with_reducible apply ChangesOnly.step Dev.onRecs_foot; decide)
    | (with_reducible apply ChangesOnly.step Dev.restUpd_foot; decide) | (with_reducible apply ChangesOnly.step Dev.coreOff_foot; decide)
    | (with_reducible apply ChangesOnly.step Dev.enterBedrock_foot; decide) | with_reducible exact .pair ‹_› ‹_› | split | dsimp only

theorem execVauxRise_foot {pwrFailN vinOk latchA latchB : Bool} {dt : Nat} {s : State} : ∃ s', execVauxRise pwrFailN vinOk latchA latchB dt s = .next s' ∧ s'.pending = s.pending ∧ ChangesOnly [.energy, .qtz, .panel] s.dev s'.dev := by
  unfold execVauxRise State.run
  refine ⟨_, rfl, rfl, ?_⟩
  try dsimp only
  repeat' first
    | intro _ | with_reducible exact .refl _ _ | with_reducible assumption | with_reducible apply ChangesOnly.ite
    | with_reducible apply ChangesOnly.foldl | (with_reducible apply ChangesOnly.step Dev.onPanel_foot; decide)
    | (with_reducible apply ChangesOnly.step Dev.elapse_foot; decide) | (with_reducible apply ChangesOnly.step Dev.onBay_foot; decide)
    | with_reducible exact .pair ‹_› ‹_› | split | dsimp only

theorem execVauxFall_foot {dt : Nat} {s : State} : ∃ s', execVauxFall dt s = .next s' ∧ s'.pending = s.pending ∧ ChangesOnly [.pkg, .expo, .sealing, .restore, .dram, .energy, .therm, .flint, .qtz, .slate, .panel, .dw, .out] s.dev s'.dev := by
  unfold execVauxFall State.run
  refine ⟨_, rfl, rfl, ?_⟩
  try dsimp only
  repeat' first
    | intro _ | with_reducible exact .refl _ _ | with_reducible assumption | with_reducible apply ChangesOnly.ite
    | with_reducible apply ChangesOnly.foldl | (with_reducible apply ChangesOnly.step Dev.onSealing_foot; decide)
    | (with_reducible apply ChangesOnly.step Dev.onRestore_foot; decide) | (with_reducible apply ChangesOnly.step Dev.onQtz_foot; decide)
    | (with_reducible apply ChangesOnly.step Dev.onDram_foot; decide) | (with_reducible apply ChangesOnly.step Dev.onEnergy_foot; decide)
    | (with_reducible apply ChangesOnly.step Dev.onTherm_foot; decide) | (with_reducible apply ChangesOnly.step Dev.onPanel_foot; decide)
    | (with_reducible apply ChangesOnly.step Dev.elapse_foot; decide) | (with_reducible apply ChangesOnly.step Dev.safeState_foot; decide)
    | (with_reducible apply ChangesOnly.step Dev.coreOff_foot; decide) | (with_reducible apply ChangesOnly.step Dev.onBay_foot; decide)
    | with_reducible exact .pair ‹_› ‹_› | split | dsimp only

theorem execRailOutOfRange_foot {rail : Fin 6} {dt : Nat} {s : State} : ∃ s', execRailOutOfRange rail dt s = .next s' ∧ s'.pending = s.pending ∧ ChangesOnly [.flint, .qtz] s.dev s'.dev := by
  unfold execRailOutOfRange State.run
  refine ⟨_, rfl, rfl, ?_⟩
  try dsimp only
  repeat' first
    | intro _ | with_reducible exact .refl _ _ | with_reducible assumption | with_reducible apply ChangesOnly.ite
    | with_reducible apply ChangesOnly.foldl | (with_reducible apply ChangesOnly.step Dev.elapse_foot; decide)
    | (with_reducible apply ChangesOnly.step Dev.raise_foot; decide) | with_reducible exact .pair ‹_› ‹_› | split | dsimp only

theorem execCriticalTrip_foot {n : Fin 64} {dt : Nat} {s : State} : ∃ s', execCriticalTrip n dt s = .next s' ∧ s'.pending = s.pending ∧ ChangesOnly [.pkg, .expo, .sealing, .restore, .dram, .energy, .therm, .flint, .qtz, .slate, .panel, .dw, .out] s.dev s'.dev := by
  unfold execCriticalTrip State.run
  refine ⟨_, rfl, rfl, ?_⟩
  try dsimp only
  repeat' first
    | intro _ | with_reducible exact .refl _ _ | with_reducible assumption | with_reducible apply ChangesOnly.ite
    | with_reducible apply ChangesOnly.foldl | (with_reducible apply ChangesOnly.step Dev.onTherm_foot; decide)
    | (with_reducible apply ChangesOnly.step Dev.onRestore_foot; decide) | (with_reducible apply ChangesOnly.step Dev.onSealing_foot; decide)
    | (with_reducible apply ChangesOnly.step Dev.elapse_foot; decide) | (with_reducible apply ChangesOnly.step Dev.raise_foot; decide)
    | (with_reducible apply ChangesOnly.step Dev.safeState_foot; decide) | (with_reducible apply ChangesOnly.step Dev.coreOff_foot; decide)
    | with_reducible exact .pair ‹_› ‹_› | split | dsimp only

theorem execHeadReset_foot {h : Fin 2} {cause : Fin 3} {dt : Nat} {s : State} : ∃ s', execHeadReset h cause dt s = .next s' ∧ s'.pending = s.pending ∧ ChangesOnly [.expo, .flint, .qtz, .heads, .jcs, .slate, .upd, .mirror, .out, .freeN] s.dev s'.dev := by
  unfold execHeadReset State.run
  refine ⟨_, rfl, rfl, ?_⟩
  try dsimp only
  repeat' first
    | intro _ | with_reducible exact .refl _ _ | with_reducible assumption | with_reducible apply ChangesOnly.ite
    | with_reducible apply ChangesOnly.foldl | (with_reducible apply ChangesOnly.step Dev.onExpo_foot; decide)
    | (with_reducible apply ChangesOnly.step Dev.elapse_foot; decide) | (with_reducible apply ChangesOnly.step Dev.headClear_foot; decide)
    | (with_reducible apply ChangesOnly.step Dev.onHead_foot; decide) | (with_reducible apply ChangesOnly.step Dev.endLeases_foot; decide)
    | (with_reducible apply ChangesOnly.step Dev.updLoses_foot; decide) | with_reducible exact .pair ‹_› ‹_› | split | dsimp only

theorem execPerstNDeassert_foot {h : Fin 2} {dt : Nat} {s : State} : ∃ s', execPerstNDeassert h dt s = .next s' ∧ s'.pending = s.pending ∧ ChangesOnly [.qtz, .heads] s.dev s'.dev := by
  unfold execPerstNDeassert State.run
  refine ⟨_, rfl, rfl, ?_⟩
  try dsimp only
  repeat' first
    | intro _ | with_reducible exact .refl _ _ | with_reducible assumption | with_reducible apply ChangesOnly.ite
    | with_reducible apply ChangesOnly.foldl | (with_reducible apply ChangesOnly.step Dev.elapse_foot; decide)
    | (with_reducible apply ChangesOnly.step Dev.onHead_foot; decide) | with_reducible exact .pair ‹_› ‹_› | split | dsimp only

theorem execHeadLinkUp_foot {h : Fin 2} {dt : Nat} {s : State} : ∃ s', execHeadLinkUp h dt s = .next s' ∧ s'.pending = s.pending ∧ ChangesOnly [.qtz, .heads, .out] s.dev s'.dev := by
  unfold execHeadLinkUp State.run
  refine ⟨_, rfl, rfl, ?_⟩
  try dsimp only
  repeat' first
    | intro _ | with_reducible exact .refl _ _ | with_reducible assumption | with_reducible apply ChangesOnly.ite
    | with_reducible apply ChangesOnly.foldl | (with_reducible apply ChangesOnly.step Dev.elapse_foot; decide)
    | (with_reducible apply ChangesOnly.step Dev.onHead_foot; decide) | (with_reducible apply ChangesOnly.step Dev.fire_foot; decide)
    | with_reducible exact .pair ‹_› ‹_› | split | dsimp only

theorem execHeadLinkDownLeaseEnd_foot {h : Fin 2} {dt : Nat} {s : State} : ∃ s', execHeadLinkDownLeaseEnd h dt s = .next s' ∧ s'.pending = s.pending ∧ ChangesOnly [.flint, .qtz, .heads, .jcs, .slate, .upd, .mirror, .out, .freeN] s.dev s'.dev := by
  unfold execHeadLinkDownLeaseEnd State.run
  refine ⟨_, rfl, rfl, ?_⟩
  try dsimp only
  repeat' first
    | intro _ | with_reducible exact .refl _ _ | with_reducible assumption | with_reducible apply ChangesOnly.ite
    | with_reducible apply ChangesOnly.foldl | (with_reducible apply ChangesOnly.step Dev.elapse_foot; decide)
    | (with_reducible apply ChangesOnly.step Dev.endLeases_foot; decide) | (with_reducible apply ChangesOnly.step Dev.updLoses_foot; decide)
    | with_reducible exact .pair ‹_› ‹_› | split | dsimp only

theorem execHdmDecoderCommit_foot {h : Fin 2} {n : Fin 8} {base size ways gran pos dpaBase : Nat} {dt : Nat} {s : State} : ∃ s', execHdmDecoderCommit h n base size ways gran pos dpaBase dt s = .next s' ∧ s'.pending = s.pending ∧ ChangesOnly [.qtz, .heads] s.dev s'.dev := by
  unfold execHdmDecoderCommit State.run
  refine ⟨_, rfl, rfl, ?_⟩
  try dsimp only
  repeat' first
    | intro _ | with_reducible exact .refl _ _ | with_reducible assumption | with_reducible apply ChangesOnly.ite
    | with_reducible apply ChangesOnly.foldl | (with_reducible apply ChangesOnly.step Dev.elapse_foot; decide)
    | (with_reducible apply ChangesOnly.step Dev.onHead_foot; decide) | with_reducible exact .pair ‹_› ‹_› | split | dsimp only

theorem execSidebandReset_foot {newEid : Option (BitVec 8)} {dt : Nat} {s : State} : ∃ s', execSidebandReset newEid dt s = .next s' ∧ s'.pending = s.pending ∧ ChangesOnly [.flint, .qtz, .heads, .jcs, .slate, .upd, .mirror, .out, .freeN] s.dev s'.dev := by
  unfold execSidebandReset State.run
  refine ⟨_, rfl, rfl, ?_⟩
  try dsimp only
  repeat' first
    | intro _ | with_reducible exact .refl _ _ | with_reducible assumption | with_reducible apply ChangesOnly.ite
    | with_reducible apply ChangesOnly.foldl | (with_reducible apply ChangesOnly.step Dev.onJcs_foot; decide)
    | (with_reducible apply ChangesOnly.step Dev.elapse_foot; decide) | (with_reducible apply ChangesOnly.step Dev.endLeases_foot; decide)
    | (with_reducible apply ChangesOnly.step Dev.updLoses_foot; decide) | with_reducible exact .pair ‹_› ‹_› | split | dsimp only

theorem execSupervisorWatchdog_foot {t : Fin 8} {dt : Nat} {s : State} : ∃ s', execSupervisorWatchdog t dt s = .next s' ∧ s'.pending = s.pending ∧ ChangesOnly [.flint, .qtz] s.dev s'.dev := by
  unfold execSupervisorWatchdog State.run
  refine ⟨_, rfl, rfl, ?_⟩
  try dsimp only
  repeat' first
    | intro _ | with_reducible exact .refl _ _ | with_reducible assumption | with_reducible apply ChangesOnly.ite
    | with_reducible apply ChangesOnly.foldl | (with_reducible apply ChangesOnly.step Dev.elapse_foot; decide)
    | (with_reducible apply ChangesOnly.step Dev.raise_foot; decide) | with_reducible exact .pair ‹_› ‹_› | split | dsimp only

theorem execModuleButtonPress_foot {dt : Nat} {s : State} : ∃ s', execModuleButtonPress dt s = .next s' ∧ s'.pending = s.pending ∧ ChangesOnly [.qtz, .panel] s.dev s'.dev := by
  unfold execModuleButtonPress State.run
  refine ⟨_, rfl, rfl, ?_⟩
  try dsimp only
  repeat' first
    | intro _ | with_reducible exact .refl _ _ | with_reducible assumption | with_reducible apply ChangesOnly.ite
    | with_reducible apply ChangesOnly.foldl | (with_reducible apply ChangesOnly.step Dev.onPanel_foot; decide)
    | (with_reducible apply ChangesOnly.step Dev.elapse_foot; decide) | with_reducible exact .pair ‹_› ‹_› | split | dsimp only

theorem execModuleButtonRelease_foot {dt : Nat} {s : State} : ∃ s', execModuleButtonRelease dt s = .next s' ∧ s'.pending = s.pending ∧ ChangesOnly [.pkg, .expo, .sealing, .restore, .energy, .therm, .flint, .qtz, .slate, .panel, .dw] s.dev s'.dev := by
  unfold execModuleButtonRelease State.run
  refine ⟨_, rfl, rfl, ?_⟩
  try dsimp only
  repeat' first
    | intro _ | with_reducible exact .refl _ _ | with_reducible assumption | with_reducible apply ChangesOnly.ite
    | with_reducible apply ChangesOnly.foldl | (with_reducible apply ChangesOnly.step Dev.onPanel_foot; decide)
    | (with_reducible apply ChangesOnly.step Dev.elapse_foot; decide) | (with_reducible apply ChangesOnly.step Dev.powerStart_foot; decide)
    | (with_reducible apply ChangesOnly.step Dev.removeAsk_foot; decide) | (with_reducible apply ChangesOnly.step Dev.refuseHold_foot; decide)
    | (with_reducible apply ChangesOnly.step Dev.identify_foot; decide) | (with_reducible apply ChangesOnly.step Dev.hibernate_foot; decide)
    | (with_reducible apply ChangesOnly.step Dev.raise_foot; decide) | (with_reducible apply ChangesOnly.step Dev.govTrigger_foot; decide)
    | with_reducible exact .pair ‹_› ‹_› | split | dsimp only

theorem execButtonStuck_foot {dt : Nat} {s : State} : ∃ s', execButtonStuck dt s = .next s' ∧ s'.pending = s.pending ∧ ChangesOnly [.flint, .qtz, .panel] s.dev s'.dev := by
  unfold execButtonStuck State.run
  refine ⟨_, rfl, rfl, ?_⟩
  try dsimp only
  repeat' first
    | intro _ | with_reducible exact .refl _ _ | with_reducible assumption | with_reducible apply ChangesOnly.ite
    | with_reducible apply ChangesOnly.foldl | (with_reducible apply ChangesOnly.step Dev.onPanel_foot; decide)
    | (with_reducible apply ChangesOnly.step Dev.elapse_foot; decide) | (with_reducible apply ChangesOnly.step Dev.raise_foot; decide)
    | with_reducible exact .pair ‹_› ‹_› | split | dsimp only

theorem execIdentifyEnd_foot {dt : Nat} {s : State} : ∃ s', execIdentifyEnd dt s = .next s' ∧ s'.pending = s.pending ∧ ChangesOnly [.qtz, .panel] s.dev s'.dev := by
  unfold execIdentifyEnd State.run
  refine ⟨_, rfl, rfl, ?_⟩
  try dsimp only
  repeat' first
    | intro _ | with_reducible exact .refl _ _ | with_reducible assumption | with_reducible apply ChangesOnly.ite
    | with_reducible apply ChangesOnly.foldl | (with_reducible apply ChangesOnly.step Dev.onPanel_foot; decide)
    | (with_reducible apply ChangesOnly.step Dev.elapse_foot; decide) | with_reducible exact .pair ‹_› ‹_› | split | dsimp only

theorem execRefusedHoldIndicationEnd_foot {dt : Nat} {s : State} : ∃ s', execRefusedHoldIndicationEnd dt s = .next s' ∧ s'.pending = s.pending ∧ ChangesOnly [.qtz, .panel] s.dev s'.dev := by
  unfold execRefusedHoldIndicationEnd State.run
  refine ⟨_, rfl, rfl, ?_⟩
  try dsimp only
  repeat' first
    | intro _ | with_reducible exact .refl _ _ | with_reducible assumption | with_reducible apply ChangesOnly.ite
    | with_reducible apply ChangesOnly.foldl | (with_reducible apply ChangesOnly.step Dev.onPanel_foot; decide)
    | (with_reducible apply ChangesOnly.step Dev.elapse_foot; decide) | with_reducible exact .pair ‹_› ‹_› | split | dsimp only

theorem execRemovalDrainEnd_foot {dt : Nat} {s : State} : ∃ s', execRemovalDrainEnd dt s = .next s' ∧ s'.pending = s.pending ∧ ChangesOnly [.mem, .pkg, .expo, .sealing, .restore, .flash, .ctxs, .dram, .energy, .therm, .flint, .qtz, .lat, .heads, .jcs, .slate, .upd, .panel, .dw, .out] s.dev s'.dev := by
  unfold execRemovalDrainEnd State.run
  refine ⟨_, rfl, rfl, ?_⟩
  try dsimp only
  repeat' first
    | intro _ | with_reducible exact .refl _ _ | with_reducible assumption | with_reducible apply ChangesOnly.ite
    | with_reducible apply ChangesOnly.foldl | (with_reducible apply ChangesOnly.step Dev.elapse_foot; decide)
    | (with_reducible apply ChangesOnly.step Dev.trigger_foot; decide) | with_reducible exact .pair ‹_› ‹_› | split | dsimp only

theorem execGetCapabilities_foot {by_ : Fin 4} {uid : Nat} {payload : List Byte} {dt : Nat} {s : State} : ∃ s', execGetCapabilities by_ uid payload dt s = .next s' ∧ s'.pending = s.pending ∧ ChangesOnly [.flint, .qtz, .lat, .heads, .jcs, .mirror, .out] s.dev s'.dev := by
  unfold execGetCapabilities State.run
  refine ⟨_, rfl, rfl, ?_⟩
  try dsimp only
  repeat' first
    | intro _ | with_reducible exact .refl _ _ | with_reducible assumption | with_reducible apply ChangesOnly.ite
    | with_reducible apply ChangesOnly.foldl | (with_reducible apply ChangesOnly.step Dev.elapse_foot; decide)
    | with_reducible apply Dev.jcsDo_foot (by decide) | (with_reducible apply ChangesOnly.step capAct_foot; decide)
    | with_reducible exact .pair ‹_› ‹_› | split | dsimp only

theorem execGetIdentity_foot {by_ : Fin 4} {uid : Nat} {payload : List Byte} {dt : Nat} {s : State} : ∃ s', execGetIdentity by_ uid payload dt s = .next s' ∧ s'.pending = s.pending ∧ ChangesOnly [.flint, .qtz, .lat, .heads, .jcs, .mirror, .out] s.dev s'.dev := by
  unfold execGetIdentity State.run
  refine ⟨_, rfl, rfl, ?_⟩
  try dsimp only
  repeat' first
    | intro _ | with_reducible exact .refl _ _ | with_reducible assumption | with_reducible apply ChangesOnly.ite
    | with_reducible apply ChangesOnly.foldl | (with_reducible apply ChangesOnly.step Dev.elapse_foot; decide)
    | with_reducible apply Dev.jcsDo_foot (by decide) | (with_reducible apply ChangesOnly.step identAct_foot; decide)
    | with_reducible exact .pair ‹_› ‹_› | split | dsimp only

theorem execReadDirectWindow_foot {by_ : Fin 4} {uid : Nat} {payload : List Byte} {dt : Nat} {s : State} : ∃ s', execReadDirectWindow by_ uid payload dt s = .next s' ∧ s'.pending = s.pending ∧ ChangesOnly [.flint, .qtz, .lat, .heads, .jcs, .mirror, .out] s.dev s'.dev := by
  unfold execReadDirectWindow State.run
  refine ⟨_, rfl, rfl, ?_⟩
  try dsimp only
  repeat' first
    | intro _ | with_reducible exact .refl _ _ | with_reducible assumption | with_reducible apply ChangesOnly.ite
    | with_reducible apply ChangesOnly.foldl | (with_reducible apply ChangesOnly.step Dev.elapse_foot; decide)
    | with_reducible apply Dev.jcsDo_foot (by decide) | (with_reducible apply ChangesOnly.step dwAct_foot; decide)
    | with_reducible exact .pair ‹_› ‹_› | split | dsimp only

theorem execGetBackgroundStatus_foot {by_ : Fin 4} {uid : Nat} {payload : List Byte} {dt : Nat} {s : State} : ∃ s', execGetBackgroundStatus by_ uid payload dt s = .next s' ∧ s'.pending = s.pending ∧ ChangesOnly [.flint, .qtz, .lat, .heads, .jcs, .mirror, .out] s.dev s'.dev := by
  unfold execGetBackgroundStatus State.run
  refine ⟨_, rfl, rfl, ?_⟩
  try dsimp only
  repeat' first
    | intro _ | with_reducible exact .refl _ _ | with_reducible assumption | with_reducible apply ChangesOnly.ite
    | with_reducible apply ChangesOnly.foldl | (with_reducible apply ChangesOnly.step Dev.elapse_foot; decide)
    | with_reducible apply Dev.jcsDo_foot (by decide) | (with_reducible apply ChangesOnly.step bgStatAct_foot; decide)
    | with_reducible exact .pair ‹_› ‹_› | split | dsimp only

theorem execCreate_foot {by_ : Fin 4} {uid : Nat} {payload : List Byte} {dt : Nat} {s : State} : ∃ s', execCreate by_ uid payload dt s = .next s' ∧ s'.pending = s.pending ∧ ChangesOnly [.mem, .expo, .restore, .flash, .ctxs, .dram, .flint, .qtz, .lat, .heads, .jcs, .mirror, .dw, .out, .freeN] s.dev s'.dev := by
  unfold execCreate State.run
  refine ⟨_, rfl, rfl, ?_⟩
  try dsimp only
  repeat' first
    | intro _ | with_reducible exact .refl _ _ | with_reducible assumption | with_reducible apply ChangesOnly.ite
    | with_reducible apply ChangesOnly.foldl | (with_reducible apply ChangesOnly.step Dev.elapse_foot; decide)
    | with_reducible apply Dev.jcsDo_foot (by decide) | (with_reducible apply ChangesOnly.step createAct_foot; decide)
    | with_reducible exact .pair ‹_› ‹_› | split | dsimp only

theorem execAssign_foot {by_ : Fin 4} {uid : Nat} {payload : List Byte} {dt : Nat} {s : State} : ∃ s', execAssign by_ uid payload dt s = .next s' ∧ s'.pending = s.pending ∧ ChangesOnly [.mem, .expo, .restore, .flash, .ctxs, .dram, .flint, .qtz, .lat, .heads, .jcs, .mirror, .dw, .out] s.dev s'.dev := by
  unfold execAssign State.run
  refine ⟨_, rfl, rfl, ?_⟩
  try dsimp only
  repeat' first
    | intro _ | with_reducible exact .refl _ _ | with_reducible assumption | with_reducible apply ChangesOnly.ite
    | with_reducible apply ChangesOnly.foldl | (with_reducible apply ChangesOnly.step Dev.elapse_foot; decide)
    | with_reducible apply Dev.jcsDo_foot (by decide) | (with_reducible apply ChangesOnly.step assignAct_foot; decide)
    | with_reducible exact .pair ‹_› ‹_› | split | dsimp only

theorem execRelease_foot {by_ : Fin 4} {uid : Nat} {payload : List Byte} {dt : Nat} {s : State} : ∃ s', execRelease by_ uid payload dt s = .next s' ∧ s'.pending = s.pending ∧ ChangesOnly [.mem, .expo, .restore, .flash, .ctxs, .dram, .flint, .qtz, .lat, .heads, .jcs, .mirror, .dw, .out] s.dev s'.dev := by
  unfold execRelease State.run
  refine ⟨_, rfl, rfl, ?_⟩
  try dsimp only
  repeat' first
    | intro _ | with_reducible exact .refl _ _ | with_reducible assumption | with_reducible apply ChangesOnly.ite
    | with_reducible apply ChangesOnly.foldl | (with_reducible apply ChangesOnly.step Dev.elapse_foot; decide)
    | with_reducible apply Dev.jcsDo_foot (by decide) | (with_reducible apply ChangesOnly.step releaseAct_foot; decide)
    | with_reducible exact .pair ‹_› ‹_› | split | dsimp only

theorem execSetClass_foot {by_ : Fin 4} {uid : Nat} {payload : List Byte} {dt : Nat} {s : State} : ∃ s', execSetClass by_ uid payload dt s = .next s' ∧ s'.pending = s.pending ∧ ChangesOnly [.mem, .expo, .restore, .flash, .ctxs, .dram, .flint, .qtz, .lat, .heads, .jcs, .mirror, .dw, .out] s.dev s'.dev := by
  unfold execSetClass State.run
  refine ⟨_, rfl, rfl, ?_⟩
  try dsimp only
  repeat' first
    | intro _ | with_reducible exact .refl _ _ | with_reducible assumption | with_reducible apply ChangesOnly.ite
    | with_reducible apply ChangesOnly.foldl | (with_reducible apply ChangesOnly.step Dev.elapse_foot; decide)
    | with_reducible apply Dev.jcsDo_foot (by decide) | (with_reducible apply ChangesOnly.step classAct_foot; decide)
    | with_reducible exact .pair ‹_› ‹_› | split | dsimp only

theorem execSetOwner_foot {by_ : Fin 4} {uid : Nat} {payload : List Byte} {dt : Nat} {s : State} : ∃ s', execSetOwner by_ uid payload dt s = .next s' ∧ s'.pending = s.pending ∧ ChangesOnly [.mem, .expo, .restore, .flash, .ctxs, .dram, .flint, .qtz, .lat, .heads, .jcs, .mirror, .dw, .out] s.dev s'.dev := by
  unfold execSetOwner State.run
  refine ⟨_, rfl, rfl, ?_⟩
  try dsimp only
  repeat' first
    | intro _ | with_reducible exact .refl _ _ | with_reducible assumption | with_reducible apply ChangesOnly.ite
    | with_reducible apply ChangesOnly.foldl | (with_reducible apply ChangesOnly.step Dev.elapse_foot; decide)
    | with_reducible apply Dev.jcsDo_foot (by decide) | (with_reducible apply ChangesOnly.step ownerAct_foot; decide)
    | with_reducible exact .pair ‹_› ‹_› | split | dsimp only

theorem execDisable_foot {by_ : Fin 4} {uid : Nat} {payload : List Byte} {dt : Nat} {s : State} : ∃ s', execDisable by_ uid payload dt s = .next s' ∧ s'.pending = s.pending ∧ ChangesOnly [.mem, .expo, .restore, .flash, .ctxs, .dram, .flint, .qtz, .lat, .heads, .jcs, .mirror, .dw, .out] s.dev s'.dev := by
  unfold execDisable State.run
  refine ⟨_, rfl, rfl, ?_⟩
  try dsimp only
  repeat' first
    | intro _ | with_reducible exact .refl _ _ | with_reducible assumption | with_reducible apply ChangesOnly.ite
    | with_reducible apply ChangesOnly.foldl | (with_reducible apply ChangesOnly.step Dev.elapse_foot; decide)
    | with_reducible apply Dev.jcsDo_foot (by decide) | (with_reducible apply ChangesOnly.step disableAct_foot; decide)
    | with_reducible exact .pair ‹_› ‹_› | split | dsimp only

theorem execEnable_foot {by_ : Fin 4} {uid : Nat} {payload : List Byte} {dt : Nat} {s : State} : ∃ s', execEnable by_ uid payload dt s = .next s' ∧ s'.pending = s.pending ∧ ChangesOnly [.mem, .expo, .restore, .flash, .ctxs, .dram, .flint, .qtz, .lat, .heads, .jcs, .mirror, .dw, .out] s.dev s'.dev := by
  unfold execEnable State.run
  refine ⟨_, rfl, rfl, ?_⟩
  try dsimp only
  repeat' first
    | intro _ | with_reducible exact .refl _ _ | with_reducible assumption | with_reducible apply ChangesOnly.ite
    | with_reducible apply ChangesOnly.foldl | (with_reducible apply ChangesOnly.step Dev.elapse_foot; decide)
    | with_reducible apply Dev.jcsDo_foot (by decide) | (with_reducible apply ChangesOnly.step enableAct_foot; decide)
    | with_reducible exact .pair ‹_› ‹_› | split | dsimp only

theorem execSanitize_foot {by_ : Fin 4} {uid : Nat} {payload : List Byte} {dt : Nat} {s : State} : ∃ s', execSanitize by_ uid payload dt s = .next s' ∧ s'.pending = s.pending ∧ ChangesOnly [.expo, .flash, .ctxs, .flint, .qtz, .lat, .heads, .jcs, .mirror, .out] s.dev s'.dev := by
  unfold execSanitize State.run
  refine ⟨_, rfl, rfl, ?_⟩
  try dsimp only
  repeat' first
    | intro _ | with_reducible exact .refl _ _ | with_reducible assumption | with_reducible apply ChangesOnly.ite
    | with_reducible apply ChangesOnly.foldl | (with_reducible apply ChangesOnly.step Dev.elapse_foot; decide)
    | with_reducible apply Dev.jcsDo_foot (by decide) | (with_reducible apply ChangesOnly.step sanitizeAct_foot; decide)
    | with_reducible exact .pair ‹_› ‹_› | split | dsimp only

theorem execGetContext_foot {by_ : Fin 4} {uid : Nat} {payload : List Byte} {dt : Nat} {s : State} : ∃ s', execGetContext by_ uid payload dt s = .next s' ∧ s'.pending = s.pending ∧ ChangesOnly [.flint, .qtz, .lat, .heads, .jcs, .mirror, .out] s.dev s'.dev := by
  unfold execGetContext State.run
  refine ⟨_, rfl, rfl, ?_⟩
  try dsimp only
  repeat' first
    | intro _ | with_reducible exact .refl _ _ | with_reducible assumption | with_reducible apply ChangesOnly.ite
    | with_reducible apply ChangesOnly.foldl | (with_reducible apply ChangesOnly.step Dev.elapse_foot; decide)
    | with_reducible apply Dev.jcsDo_foot (by decide) | (with_reducible apply ChangesOnly.step getCtxAct_foot; decide)
    | with_reducible exact .pair ‹_› ‹_› | split | dsimp only

theorem execSetRetention_foot {by_ : Fin 4} {uid : Nat} {payload : List Byte} {dt : Nat} {s : State} : ∃ s', execSetRetention by_ uid payload dt s = .next s' ∧ s'.pending = s.pending ∧ ChangesOnly [.mem, .expo, .restore, .flash, .ctxs, .dram, .flint, .qtz, .lat, .heads, .jcs, .mirror, .dw, .out] s.dev s'.dev := by
  unfold execSetRetention State.run
  refine ⟨_, rfl, rfl, ?_⟩
  try dsimp only
  repeat' first
    | intro _ | with_reducible exact .refl _ _ | with_reducible assumption | with_reducible apply ChangesOnly.ite
    | with_reducible apply ChangesOnly.foldl | (with_reducible apply ChangesOnly.step Dev.elapse_foot; decide)
    | with_reducible apply Dev.jcsDo_foot (by decide) | (with_reducible apply ChangesOnly.step retainAct_foot; decide)
    | with_reducible exact .pair ‹_› ‹_› | split | dsimp only

theorem execReadMetering_foot {by_ : Fin 4} {uid : Nat} {payload : List Byte} {dt : Nat} {s : State} : ∃ s', execReadMetering by_ uid payload dt s = .next s' ∧ s'.pending = s.pending ∧ ChangesOnly [.flint, .qtz, .lat, .heads, .jcs, .mirror, .out] s.dev s'.dev := by
  unfold execReadMetering State.run
  refine ⟨_, rfl, rfl, ?_⟩
  try dsimp only
  repeat' first
    | intro _ | with_reducible exact .refl _ _ | with_reducible assumption | with_reducible apply ChangesOnly.ite
    | with_reducible apply ChangesOnly.foldl | (with_reducible apply ChangesOnly.step Dev.elapse_foot; decide)
    | with_reducible apply Dev.jcsDo_foot (by decide) | (with_reducible apply ChangesOnly.step meterAct_foot; decide)
    | with_reducible exact .pair ‹_› ‹_› | split | dsimp only

theorem execListContexts_foot {by_ : Fin 4} {uid : Nat} {payload : List Byte} {dt : Nat} {s : State} : ∃ s', execListContexts by_ uid payload dt s = .next s' ∧ s'.pending = s.pending ∧ ChangesOnly [.flint, .qtz, .lat, .heads, .jcs, .mirror, .out] s.dev s'.dev := by
  unfold execListContexts State.run
  refine ⟨_, rfl, rfl, ?_⟩
  try dsimp only
  repeat' first
    | intro _ | with_reducible exact .refl _ _ | with_reducible assumption | with_reducible apply ChangesOnly.ite
    | with_reducible apply ChangesOnly.foldl | (with_reducible apply ChangesOnly.step Dev.elapse_foot; decide)
    | with_reducible apply Dev.jcsDo_foot (by decide) | (with_reducible apply ChangesOnly.step listCtxAct_foot; decide)
    | with_reducible exact .pair ‹_› ‹_› | split | dsimp only

theorem execConfigureRing_foot {by_ : Fin 4} {uid : Nat} {payload : List Byte} {dt : Nat} {s : State} : ∃ s', execConfigureRing by_ uid payload dt s = .next s' ∧ s'.pending = s.pending ∧ ChangesOnly [.expo, .flash, .ctxs, .flint, .qtz, .lat, .heads, .jcs, .mirror, .out] s.dev s'.dev := by
  unfold execConfigureRing State.run
  refine ⟨_, rfl, rfl, ?_⟩
  try dsimp only
  repeat' first
    | intro _ | with_reducible exact .refl _ _ | with_reducible assumption | with_reducible apply ChangesOnly.ite
    | with_reducible apply ChangesOnly.foldl | (with_reducible apply ChangesOnly.step Dev.elapse_foot; decide)
    | with_reducible apply Dev.jcsDo_foot (by decide) | (with_reducible apply ChangesOnly.step ringAct_foot; decide)
    | with_reducible exact .pair ‹_› ‹_› | split | dsimp only

theorem execDisableRing_foot {by_ : Fin 4} {uid : Nat} {payload : List Byte} {dt : Nat} {s : State} : ∃ s', execDisableRing by_ uid payload dt s = .next s' ∧ s'.pending = s.pending ∧ ChangesOnly [.mem, .expo, .restore, .flash, .ctxs, .dram, .flint, .qtz, .lat, .heads, .jcs, .mirror, .dw, .out] s.dev s'.dev := by
  unfold execDisableRing State.run
  refine ⟨_, rfl, rfl, ?_⟩
  try dsimp only
  repeat' first
    | intro _ | with_reducible exact .refl _ _ | with_reducible assumption | with_reducible apply ChangesOnly.ite
    | with_reducible apply ChangesOnly.foldl | (with_reducible apply ChangesOnly.step Dev.elapse_foot; decide)
    | with_reducible apply Dev.jcsDo_foot (by decide) | (with_reducible apply ChangesOnly.step ringOffAct_foot; decide)
    | with_reducible exact .pair ‹_› ‹_› | split | dsimp only

theorem execSetInterrupts_foot {by_ : Fin 4} {uid : Nat} {payload : List Byte} {dt : Nat} {s : State} : ∃ s', execSetInterrupts by_ uid payload dt s = .next s' ∧ s'.pending = s.pending ∧ ChangesOnly [.expo, .flash, .ctxs, .flint, .qtz, .lat, .heads, .jcs, .mirror, .out] s.dev s'.dev := by
  unfold execSetInterrupts State.run
  refine ⟨_, rfl, rfl, ?_⟩
  try dsimp only
  repeat' first
    | intro _ | with_reducible exact .refl _ _ | with_reducible assumption | with_reducible apply ChangesOnly.ite
    | with_reducible apply ChangesOnly.foldl | (with_reducible apply ChangesOnly.step Dev.elapse_foot; decide)
    | with_reducible apply Dev.jcsDo_foot (by decide) | (with_reducible apply ChangesOnly.step ringIntAct_foot; decide)
    | with_reducible exact .pair ‹_› ‹_› | split | dsimp only

theorem execGetRing_foot {by_ : Fin 4} {uid : Nat} {payload : List Byte} {dt : Nat} {s : State} : ∃ s', execGetRing by_ uid payload dt s = .next s' ∧ s'.pending = s.pending ∧ ChangesOnly [.flint, .qtz, .lat, .heads, .jcs, .mirror, .out] s.dev s'.dev := by
  unfold execGetRing State.run
  refine ⟨_, rfl, rfl, ?_⟩
  try dsimp only
  repeat' first
    | intro _ | with_reducible exact .refl _ _ | with_reducible assumption | with_reducible apply ChangesOnly.ite
    | with_reducible apply ChangesOnly.foldl | (with_reducible apply ChangesOnly.step Dev.elapse_foot; decide)
    | with_reducible apply Dev.jcsDo_foot (by decide) | (with_reducible apply ChangesOnly.step getRingAct_foot; decide)
    | with_reducible exact .pair ‹_› ‹_› | split | dsimp only

theorem execGetExposure_foot {by_ : Fin 4} {uid : Nat} {payload : List Byte} {dt : Nat} {s : State} : ∃ s', execGetExposure by_ uid payload dt s = .next s' ∧ s'.pending = s.pending ∧ ChangesOnly [.flint, .qtz, .lat, .heads, .jcs, .mirror, .out] s.dev s'.dev := by
  unfold execGetExposure State.run
  refine ⟨_, rfl, rfl, ?_⟩
  try dsimp only
  repeat' first
    | intro _ | with_reducible exact .refl _ _ | with_reducible assumption | with_reducible apply ChangesOnly.ite
    | with_reducible apply ChangesOnly.foldl | (with_reducible apply ChangesOnly.step Dev.elapse_foot; decide)
    | with_reducible apply Dev.jcsDo_foot (by decide) | (with_reducible apply ChangesOnly.step expoAct_foot; decide)
    | with_reducible exact .pair ‹_› ‹_› | split | dsimp only

theorem execSetExposurePolicy_foot {by_ : Fin 4} {uid : Nat} {payload : List Byte} {dt : Nat} {s : State} : ∃ s', execSetExposurePolicy by_ uid payload dt s = .next s' ∧ s'.pending = s.pending ∧ ChangesOnly [.pkg, .expo, .flint, .qtz, .lat, .heads, .jcs, .slate, .mirror, .out] s.dev s'.dev := by
  unfold execSetExposurePolicy State.run
  refine ⟨_, rfl, rfl, ?_⟩
  try dsimp only
  repeat' first
    | intro _ | with_reducible exact .refl _ _ | with_reducible assumption | with_reducible apply ChangesOnly.ite
    | with_reducible apply ChangesOnly.foldl | (with_reducible apply ChangesOnly.step Dev.elapse_foot; decide)
    | with_reducible apply Dev.jcsDo_foot (by decide) | (with_reducible apply ChangesOnly.step expoPolicyAct_foot; decide)
    | with_reducible exact .pair ‹_› ‹_› | split | dsimp only

theorem execGetExposurePolicy_foot {by_ : Fin 4} {uid : Nat} {payload : List Byte} {dt : Nat} {s : State} : ∃ s', execGetExposurePolicy by_ uid payload dt s = .next s' ∧ s'.pending = s.pending ∧ ChangesOnly [.flint, .qtz, .lat, .heads, .jcs, .mirror, .out] s.dev s'.dev := by
  unfold execGetExposurePolicy State.run
  refine ⟨_, rfl, rfl, ?_⟩
  try dsimp only
  repeat' first
    | intro _ | with_reducible exact .refl _ _ | with_reducible assumption | with_reducible apply ChangesOnly.ite
    | with_reducible apply ChangesOnly.foldl | (with_reducible apply ChangesOnly.step Dev.elapse_foot; decide)
    | with_reducible apply Dev.jcsDo_foot (by decide) | (with_reducible apply ChangesOnly.step getPolicyAct_foot; decide)
    | with_reducible exact .pair ‹_› ‹_› | split | dsimp only

theorem execReadLapseRecords_foot {by_ : Fin 4} {uid : Nat} {payload : List Byte} {dt : Nat} {s : State} : ∃ s', execReadLapseRecords by_ uid payload dt s = .next s' ∧ s'.pending = s.pending ∧ ChangesOnly [.flint, .qtz, .lat, .heads, .jcs, .mirror, .out] s.dev s'.dev := by
  unfold execReadLapseRecords State.run
  refine ⟨_, rfl, rfl, ?_⟩
  try dsimp only
  repeat' first
    | intro _ | with_reducible exact .refl _ _ | with_reducible assumption | with_reducible apply ChangesOnly.ite
    | with_reducible apply ChangesOnly.foldl | (with_reducible apply ChangesOnly.step Dev.elapse_foot; decide)
    | with_reducible apply Dev.jcsDo_foot (by decide) | (with_reducible apply ChangesOnly.step lapseAct_foot; decide)
    | with_reducible exact .pair ‹_› ‹_› | split | dsimp only

theorem execGetGauge_foot {by_ : Fin 4} {uid : Nat} {payload : List Byte} {dt : Nat} {s : State} : ∃ s', execGetGauge by_ uid payload dt s = .next s' ∧ s'.pending = s.pending ∧ ChangesOnly [.flint, .qtz, .lat, .heads, .jcs, .mirror, .out] s.dev s'.dev := by
  unfold execGetGauge State.run
  refine ⟨_, rfl, rfl, ?_⟩
  try dsimp only
  repeat' first
    | intro _ | with_reducible exact .refl _ _ | with_reducible assumption | with_reducible apply ChangesOnly.ite
    | with_reducible apply ChangesOnly.foldl | (with_reducible apply ChangesOnly.step Dev.elapse_foot; decide)
    | with_reducible apply Dev.jcsDo_foot (by decide) | (with_reducible apply ChangesOnly.step gaugeAct_foot; decide)
    | with_reducible exact .pair ‹_› ‹_› | split | dsimp only

theorem execRequestRelease_foot {by_ : Fin 4} {uid : Nat} {payload : List Byte} {dt : Nat} {s : State} : ∃ s', execRequestRelease by_ uid payload dt s = .next s' ∧ s'.pending = s.pending ∧ ChangesOnly [.expo, .energy, .flint, .qtz, .lat, .heads, .jcs, .mirror, .dw, .out] s.dev s'.dev := by
  unfold execRequestRelease State.run
  refine ⟨_, rfl, rfl, ?_⟩
  try dsimp only
  repeat' first
    | intro _ | with_reducible exact .refl _ _ | with_reducible assumption | with_reducible apply ChangesOnly.ite
    | with_reducible apply ChangesOnly.foldl | (with_reducible apply ChangesOnly.step Dev.elapse_foot; decide)
    | with_reducible apply Dev.jcsDo_foot (by decide) | (with_reducible apply ChangesOnly.step relReqAct_foot; decide)
    | with_reducible exact .pair ‹_› ‹_› | split | dsimp only

theorem execSetHold_foot {by_ : Fin 4} {uid : Nat} {payload : List Byte} {dt : Nat} {s : State} : ∃ s', execSetHold by_ uid payload dt s = .next s' ∧ s'.pending = s.pending ∧ ChangesOnly [.energy, .flint, .qtz, .lat, .heads, .jcs, .mirror, .dw, .out] s.dev s'.dev := by
  unfold execSetHold State.run
  refine ⟨_, rfl, rfl, ?_⟩
  try dsimp only
  repeat' first
    | intro _ | with_reducible exact .refl _ _ | with_reducible assumption | with_reducible apply ChangesOnly.ite
    | with_reducible apply ChangesOnly.foldl | (with_reducible apply ChangesOnly.step Dev.elapse_foot; decide)
    | with_reducible apply Dev.jcsDo_foot (by decide) | (with_reducible apply ChangesOnly.step holdAct_foot; decide)
    | with_reducible exact .pair ‹_› ‹_› | split | dsimp only

theorem execCapacityTest_foot {by_ : Fin 4} {uid : Nat} {payload : List Byte} {dt : Nat} {s : State} : ∃ s', execCapacityTest by_ uid payload dt s = .next s' ∧ s'.pending = s.pending ∧ ChangesOnly [.energy, .flint, .qtz, .lat, .heads, .jcs, .mirror, .dw, .out] s.dev s'.dev := by
  unfold execCapacityTest State.run
  refine ⟨_, rfl, rfl, ?_⟩
  try dsimp only
  repeat' first
    | intro _ | with_reducible exact .refl _ _ | with_reducible assumption | with_reducible apply ChangesOnly.ite
    | with_reducible apply ChangesOnly.foldl | (with_reducible apply ChangesOnly.step Dev.elapse_foot; decide)
    | with_reducible apply Dev.jcsDo_foot (by decide) | (with_reducible apply ChangesOnly.step capTestAct_foot; decide)
    | with_reducible exact .pair ‹_› ‹_› | split | dsimp only

theorem execTestSeal_foot {by_ : Fin 4} {uid : Nat} {payload : List Byte} {dt : Nat} {s : State} : ∃ s', execTestSeal by_ uid payload dt s = .next s' ∧ s'.pending = s.pending ∧ ChangesOnly [.sealing, .ctxs, .energy, .flint, .qtz, .lat, .heads, .jcs, .panel, .mirror, .dw, .out] s.dev s'.dev := by
  unfold execTestSeal State.run
  refine ⟨_, rfl, rfl, ?_⟩
  try dsimp only
  repeat' first
    | intro _ | with_reducible exact .refl _ _ | with_reducible assumption | with_reducible apply ChangesOnly.ite
    | with_reducible apply ChangesOnly.foldl | (with_reducible apply ChangesOnly.step Dev.elapse_foot; decide)
    | with_reducible apply Dev.jcsDo_foot (by decide) | (with_reducible apply ChangesOnly.step testSealAct_foot; decide)
    | with_reducible exact .pair ‹_› ‹_› | split | dsimp only

theorem execSetEnergyPolicy_foot {by_ : Fin 4} {uid : Nat} {payload : List Byte} {dt : Nat} {s : State} : ∃ s', execSetEnergyPolicy by_ uid payload dt s = .next s' ∧ s'.pending = s.pending ∧ ChangesOnly [.energy, .flint, .qtz, .lat, .heads, .jcs, .slate, .mirror, .out] s.dev s'.dev := by
  unfold execSetEnergyPolicy State.run
  refine ⟨_, rfl, rfl, ?_⟩
  try dsimp only
  repeat' first
    | intro _ | with_reducible exact .refl _ _ | with_reducible assumption | with_reducible apply ChangesOnly.ite
    | with_reducible apply ChangesOnly.foldl | (with_reducible apply ChangesOnly.step Dev.elapse_foot; decide)
    | with_reducible apply Dev.jcsDo_foot (by decide) | (with_reducible apply ChangesOnly.step enPolicyAct_foot; decide)
    | with_reducible exact .pair ‹_› ‹_› | split | dsimp only

theorem execSetBayParameters_foot {by_ : Fin 4} {uid : Nat} {payload : List Byte} {dt : Nat} {s : State} : ∃ s', execSetBayParameters by_ uid payload dt s = .next s' ∧ s'.pending = s.pending ∧ ChangesOnly [.energy, .flint, .qtz, .lat, .heads, .jcs, .slate, .mirror, .out] s.dev s'.dev := by
  unfold execSetBayParameters State.run
  refine ⟨_, rfl, rfl, ?_⟩
  try dsimp only
  repeat' first
    | intro _ | with_reducible exact .refl _ _ | with_reducible assumption | with_reducible apply ChangesOnly.ite
    | with_reducible apply ChangesOnly.foldl | (with_reducible apply ChangesOnly.step Dev.elapse_foot; decide)
    | with_reducible apply Dev.jcsDo_foot (by decide) | (with_reducible apply ChangesOnly.step bayParAct_foot; decide)
    | with_reducible exact .pair ‹_› ‹_› | split | dsimp only

theorem execSetBridgeParameters_foot {by_ : Fin 4} {uid : Nat} {payload : List Byte} {dt : Nat} {s : State} : ∃ s', execSetBridgeParameters by_ uid payload dt s = .next s' ∧ s'.pending = s.pending ∧ ChangesOnly [.energy, .flint, .qtz, .lat, .heads, .jcs, .slate, .mirror, .out] s.dev s'.dev := by
  unfold execSetBridgeParameters State.run
  refine ⟨_, rfl, rfl, ?_⟩
  try dsimp only
  repeat' first
    | intro _ | with_reducible exact .refl _ _ | with_reducible assumption | with_reducible apply ChangesOnly.ite
    | with_reducible apply ChangesOnly.foldl | (with_reducible apply ChangesOnly.step Dev.elapse_foot; decide)
    | with_reducible apply Dev.jcsDo_foot (by decide) | (with_reducible apply ChangesOnly.step bridgeParAct_foot; decide)
    | with_reducible exact .pair ‹_› ‹_› | split | dsimp only

theorem execLoadChemistryTable_foot {by_ : Fin 4} {uid : Nat} {payload : List Byte} {dt : Nat} {s : State} : ∃ s', execLoadChemistryTable by_ uid payload dt s = .next s' ∧ s'.pending = s.pending ∧ ChangesOnly [.energy, .flint, .qtz, .lat, .heads, .jcs, .slate, .mirror, .out] s.dev s'.dev := by
  unfold execLoadChemistryTable State.run
  refine ⟨_, rfl, rfl, ?_⟩
  try dsimp only
  repeat' first
    | intro _ | with_reducible exact .refl _ _ | with_reducible assumption | with_reducible apply ChangesOnly.ite
    | with_reducible apply ChangesOnly.foldl | (with_reducible apply ChangesOnly.step Dev.elapse_foot; decide)
    | with_reducible apply Dev.jcsDo_foot (by decide) | (with_reducible apply ChangesOnly.step chemAct_foot; decide)
    | with_reducible exact .pair ‹_› ‹_› | split | dsimp only

theorem execReadGaugeRecords_foot {by_ : Fin 4} {uid : Nat} {payload : List Byte} {dt : Nat} {s : State} : ∃ s', execReadGaugeRecords by_ uid payload dt s = .next s' ∧ s'.pending = s.pending ∧ ChangesOnly [.flint, .qtz, .lat, .heads, .jcs, .mirror, .out] s.dev s'.dev := by
  unfold execReadGaugeRecords State.run
  refine ⟨_, rfl, rfl, ?_⟩
  try dsimp only
  repeat' first
    | intro _ | with_reducible exact .refl _ _ | with_reducible assumption | with_reducible apply ChangesOnly.ite
    | with_reducible apply ChangesOnly.foldl | (with_reducible apply ChangesOnly.step Dev.elapse_foot; decide)
    | with_reducible apply Dev.jcsDo_foot (by decide) | (with_reducible apply ChangesOnly.step gaugeRecAct_foot; decide)
    | with_reducible exact .pair ‹_› ‹_› | split | dsimp only

theorem execGetThermal_foot {by_ : Fin 4} {uid : Nat} {payload : List Byte} {dt : Nat} {s : State} : ∃ s', execGetThermal by_ uid payload dt s = .next s' ∧ s'.pending = s.pending ∧ ChangesOnly [.flint, .qtz, .lat, .heads, .jcs, .mirror, .out] s.dev s'.dev := by
  unfold execGetThermal State.run
  refine ⟨_, rfl, rfl, ?_⟩
  try dsimp only
  repeat' first
    | intro _ | with_reducible exact .refl _ _ | with_reducible assumption | with_reducible apply ChangesOnly.ite
    | with_reducible apply ChangesOnly.foldl | (with_reducible apply ChangesOnly.step Dev.elapse_foot; decide)
    | with_reducible apply Dev.jcsDo_foot (by decide) | (with_reducible apply ChangesOnly.step thermAct_foot; decide)
    | with_reducible exact .pair ‹_› ‹_› | split | dsimp only

theorem execSetThermal_foot {by_ : Fin 4} {uid : Nat} {payload : List Byte} {dt : Nat} {s : State} : ∃ s', execSetThermal by_ uid payload dt s = .next s' ∧ s'.pending = s.pending ∧ ChangesOnly [.therm, .flint, .qtz, .lat, .heads, .jcs, .slate, .mirror, .out] s.dev s'.dev := by
  unfold execSetThermal State.run
  refine ⟨_, rfl, rfl, ?_⟩
  try dsimp only
  repeat' first
    | intro _ | with_reducible exact .refl _ _ | with_reducible assumption | with_reducible apply ChangesOnly.ite
    | with_reducible apply ChangesOnly.foldl | (with_reducible apply ChangesOnly.step Dev.elapse_foot; decide)
    | with_reducible apply Dev.jcsDo_foot (by decide) | (with_reducible apply ChangesOnly.step thermSetAct_foot; decide)
    | with_reducible exact .pair ‹_› ‹_› | split | dsimp only

theorem execSetBoardThresholds_foot {by_ : Fin 4} {uid : Nat} {payload : List Byte} {dt : Nat} {s : State} : ∃ s', execSetBoardThresholds by_ uid payload dt s = .next s' ∧ s'.pending = s.pending ∧ ChangesOnly [.therm, .flint, .qtz, .lat, .heads, .jcs, .slate, .mirror, .out] s.dev s'.dev := by
  unfold execSetBoardThresholds State.run
  refine ⟨_, rfl, rfl, ?_⟩
  try dsimp only
  repeat' first
    | intro _ | with_reducible exact .refl _ _ | with_reducible assumption | with_reducible apply ChangesOnly.ite
    | with_reducible apply ChangesOnly.foldl | (with_reducible apply ChangesOnly.step Dev.elapse_foot; decide)
    | with_reducible apply Dev.jcsDo_foot (by decide) | (with_reducible apply ChangesOnly.step boardAct_foot; decide)
    | with_reducible exact .pair ‹_› ‹_› | split | dsimp only

theorem execReadThermalRecords_foot {by_ : Fin 4} {uid : Nat} {payload : List Byte} {dt : Nat} {s : State} : ∃ s', execReadThermalRecords by_ uid payload dt s = .next s' ∧ s'.pending = s.pending ∧ ChangesOnly [.flint, .qtz, .lat, .heads, .jcs, .mirror, .out] s.dev s'.dev := by
  unfold execReadThermalRecords State.run
  refine ⟨_, rfl, rfl, ?_⟩
  try dsimp only
  repeat' first
    | intro _ | with_reducible exact .refl _ _ | with_reducible assumption | with_reducible apply ChangesOnly.ite
    | with_reducible apply ChangesOnly.foldl | (with_reducible apply ChangesOnly.step Dev.elapse_foot; decide)
    | with_reducible apply Dev.jcsDo_foot (by decide) | (with_reducible apply ChangesOnly.step thermRecAct_foot; decide)
    | with_reducible exact .pair ‹_› ‹_› | split | dsimp only

theorem execReadLog_foot {by_ : Fin 4} {uid : Nat} {payload : List Byte} {dt : Nat} {s : State} : ∃ s', execReadLog by_ uid payload dt s = .next s' ∧ s'.pending = s.pending ∧ ChangesOnly [.flint, .qtz, .lat, .heads, .jcs, .mirror, .out] s.dev s'.dev := by
  unfold execReadLog State.run
  refine ⟨_, rfl, rfl, ?_⟩
  try dsimp only
  repeat' first
    | intro _ | with_reducible exact .refl _ _ | with_reducible assumption | with_reducible apply ChangesOnly.ite
    | with_reducible apply ChangesOnly.foldl | (with_reducible apply ChangesOnly.step Dev.elapse_foot; decide)
    | with_reducible apply Dev.jcsDo_foot (by decide) | (with_reducible apply ChangesOnly.step logAct_foot; decide)
    | with_reducible exact .pair ‹_› ‹_› | split | dsimp only

theorem execReadFirstFault_foot {by_ : Fin 4} {uid : Nat} {payload : List Byte} {dt : Nat} {s : State} : ∃ s', execReadFirstFault by_ uid payload dt s = .next s' ∧ s'.pending = s.pending ∧ ChangesOnly [.flint, .qtz, .lat, .heads, .jcs, .mirror, .out] s.dev s'.dev := by
  unfold execReadFirstFault State.run
  refine ⟨_, rfl, rfl, ?_⟩
  try dsimp only
  repeat' first
    | intro _ | with_reducible exact .refl _ _ | with_reducible assumption | with_reducible apply ChangesOnly.ite
    | with_reducible apply ChangesOnly.foldl | (with_reducible apply ChangesOnly.step Dev.elapse_foot; decide)
    | with_reducible apply Dev.jcsDo_foot (by decide) | (with_reducible apply ChangesOnly.step ffAct_foot; decide)
    | with_reducible exact .pair ‹_› ‹_› | split | dsimp only

theorem execAcknowledge_foot {by_ : Fin 4} {uid : Nat} {payload : List Byte} {dt : Nat} {s : State} : ∃ s', execAcknowledge by_ uid payload dt s = .next s' ∧ s'.pending = s.pending ∧ ChangesOnly [.flint, .qtz, .lat, .heads, .jcs, .mirror, .dw, .out] s.dev s'.dev := by
  unfold execAcknowledge State.run
  refine ⟨_, rfl, rfl, ?_⟩
  try dsimp only
  repeat' first
    | intro _ | with_reducible exact .refl _ _ | with_reducible assumption | with_reducible apply ChangesOnly.ite
    | with_reducible apply ChangesOnly.foldl | (with_reducible apply ChangesOnly.step Dev.elapse_foot; decide)
    | with_reducible apply Dev.jcsDo_foot (by decide) | (with_reducible apply ChangesOnly.step ackAct_foot; decide)
    | with_reducible exact .pair ‹_› ‹_› | split | dsimp only

theorem execInject_foot {by_ : Fin 4} {uid : Nat} {payload : List Byte} {dt : Nat} {s : State} : ∃ s', execInject by_ uid payload dt s = .next s' ∧ s'.pending = s.pending ∧ ChangesOnly [.mem, .pkg, .expo, .sealing, .restore, .strata, .flash, .ctxs, .dram, .energy, .flint, .qtz, .snap, .lat, .heads, .jcs, .slate, .panel, .mirror, .dw, .out, .freeN] s.dev s'.dev := by
  unfold execInject State.run
  refine ⟨_, rfl, rfl, ?_⟩
  try dsimp only
  repeat' first
    | intro _ | with_reducible exact .refl _ _ | with_reducible assumption | with_reducible apply ChangesOnly.ite
    | with_reducible apply ChangesOnly.foldl | (with_reducible apply ChangesOnly.step Dev.elapse_foot; decide)
    | with_reducible apply Dev.jcsDo_foot (by decide) | (with_reducible apply ChangesOnly.step injectAct_foot; decide)
    | with_reducible exact .pair ‹_› ‹_› | split | dsimp only

theorem execHoldTfaultN_foot {by_ : Fin 4} {uid : Nat} {payload : List Byte} {dt : Nat} {s : State} : ∃ s', execHoldTfaultN by_ uid payload dt s = .next s' ∧ s'.pending = s.pending ∧ ChangesOnly [.flint, .qtz, .lat, .heads, .jcs, .mirror, .dw, .out] s.dev s'.dev := by
  unfold execHoldTfaultN State.run
  refine ⟨_, rfl, rfl, ?_⟩
  try dsimp only
  repeat' first
    | intro _ | with_reducible exact .refl _ _ | with_reducible assumption | with_reducible apply ChangesOnly.ite
    | with_reducible apply ChangesOnly.foldl | (with_reducible apply ChangesOnly.step Dev.elapse_foot; decide)
    | with_reducible apply Dev.jcsDo_foot (by decide) | (with_reducible apply ChangesOnly.step holdTfAct_foot; decide)
    | with_reducible exact .pair ‹_› ‹_› | split | dsimp only

theorem execReadCounts_foot {by_ : Fin 4} {uid : Nat} {payload : List Byte} {dt : Nat} {s : State} : ∃ s', execReadCounts by_ uid payload dt s = .next s' ∧ s'.pending = s.pending ∧ ChangesOnly [.flint, .qtz, .lat, .heads, .jcs, .mirror, .out] s.dev s'.dev := by
  unfold execReadCounts State.run
  refine ⟨_, rfl, rfl, ?_⟩
  try dsimp only
  repeat' first
    | intro _ | with_reducible exact .refl _ _ | with_reducible assumption | with_reducible apply ChangesOnly.ite
    | with_reducible apply ChangesOnly.foldl | (with_reducible apply ChangesOnly.step Dev.elapse_foot; decide)
    | with_reducible apply Dev.jcsDo_foot (by decide) | (with_reducible apply ChangesOnly.step countsAct_foot; decide)
    | with_reducible exact .pair ‹_› ‹_› | split | dsimp only

theorem execTakeSnapshot_foot {by_ : Fin 4} {uid : Nat} {payload : List Byte} {dt : Nat} {s : State} : ∃ s', execTakeSnapshot by_ uid payload dt s = .next s' ∧ s'.pending = s.pending ∧ ChangesOnly [.flint, .qtz, .snap, .lat, .heads, .jcs, .mirror, .dw, .out, .freeN] s.dev s'.dev := by
  unfold execTakeSnapshot State.run
  refine ⟨_, rfl, rfl, ?_⟩
  try dsimp only
  repeat' first
    | intro _ | with_reducible exact .refl _ _ | with_reducible assumption | with_reducible apply ChangesOnly.ite
    | with_reducible apply ChangesOnly.foldl | (with_reducible apply ChangesOnly.step Dev.elapse_foot; decide)
    | with_reducible apply Dev.jcsDo_foot (by decide) | (with_reducible apply ChangesOnly.step snapAct_foot; decide)
    | with_reducible exact .pair ‹_› ‹_› | split | dsimp only

theorem execScheduleSnapshot_foot {by_ : Fin 4} {uid : Nat} {payload : List Byte} {dt : Nat} {s : State} : ∃ s', execScheduleSnapshot by_ uid payload dt s = .next s' ∧ s'.pending = s.pending ∧ ChangesOnly [.flint, .qtz, .snap, .lat, .heads, .jcs, .mirror, .dw, .out] s.dev s'.dev := by
  unfold execScheduleSnapshot State.run
  refine ⟨_, rfl, rfl, ?_⟩
  try dsimp only
  repeat' first
    | intro _ | with_reducible exact .refl _ _ | with_reducible assumption | with_reducible apply ChangesOnly.ite
    | with_reducible apply ChangesOnly.foldl | (with_reducible apply ChangesOnly.step Dev.elapse_foot; decide)
    | with_reducible apply Dev.jcsDo_foot (by decide) | (with_reducible apply ChangesOnly.step schedAct_foot; decide)
    | with_reducible exact .pair ‹_› ‹_› | split | dsimp only

theorem execLatticeSnapshot_foot {by_ : Fin 4} {uid : Nat} {payload : List Byte} {dt : Nat} {s : State} : ∃ s', execLatticeSnapshot by_ uid payload dt s = .next s' ∧ s'.pending = s.pending ∧ ChangesOnly [.flint, .qtz, .snap, .lat, .heads, .jcs, .mirror, .dw, .out] s.dev s'.dev := by
  unfold execLatticeSnapshot State.run
  refine ⟨_, rfl, rfl, ?_⟩
  try dsimp only
  repeat' first
    | intro _ | with_reducible exact .refl _ _ | with_reducible assumption | with_reducible apply ChangesOnly.ite
    | with_reducible apply ChangesOnly.foldl | (with_reducible apply ChangesOnly.step Dev.elapse_foot; decide)
    | with_reducible apply Dev.jcsDo_foot (by decide) | (with_reducible apply ChangesOnly.step latSnapAct_foot; decide)
    | with_reducible exact .pair ‹_› ‹_› | split | dsimp only

theorem execReadSnapshot_foot {by_ : Fin 4} {uid : Nat} {payload : List Byte} {dt : Nat} {s : State} : ∃ s', execReadSnapshot by_ uid payload dt s = .next s' ∧ s'.pending = s.pending ∧ ChangesOnly [.flint, .qtz, .lat, .heads, .jcs, .mirror, .out] s.dev s'.dev := by
  unfold execReadSnapshot State.run
  refine ⟨_, rfl, rfl, ?_⟩
  try dsimp only
  repeat' first
    | intro _ | with_reducible exact .refl _ _ | with_reducible assumption | with_reducible apply ChangesOnly.ite
    | with_reducible apply ChangesOnly.foldl | (with_reducible apply ChangesOnly.step Dev.elapse_foot; decide)
    | with_reducible apply Dev.jcsDo_foot (by decide) | (with_reducible apply ChangesOnly.step readSnapAct_foot; decide)
    | with_reducible exact .pair ‹_› ‹_› | split | dsimp only

theorem execReleaseBank_foot {by_ : Fin 4} {uid : Nat} {payload : List Byte} {dt : Nat} {s : State} : ∃ s', execReleaseBank by_ uid payload dt s = .next s' ∧ s'.pending = s.pending ∧ ChangesOnly [.flint, .qtz, .snap, .lat, .heads, .jcs, .mirror, .dw, .out] s.dev s'.dev := by
  unfold execReleaseBank State.run
  refine ⟨_, rfl, rfl, ?_⟩
  try dsimp only
  repeat' first
    | intro _ | with_reducible exact .refl _ _ | with_reducible assumption | with_reducible apply ChangesOnly.ite
    | with_reducible apply ChangesOnly.foldl | (with_reducible apply ChangesOnly.step Dev.elapse_foot; decide)
    | with_reducible apply Dev.jcsDo_foot (by decide) | (with_reducible apply ChangesOnly.step relBankAct_foot; decide)
    | with_reducible exact .pair ‹_› ‹_› | split | dsimp only

theorem execCancelScheduled_foot {by_ : Fin 4} {uid : Nat} {payload : List Byte} {dt : Nat} {s : State} : ∃ s', execCancelScheduled by_ uid payload dt s = .next s' ∧ s'.pending = s.pending ∧ ChangesOnly [.flint, .qtz, .snap, .lat, .heads, .jcs, .mirror, .dw, .out] s.dev s'.dev := by
  unfold execCancelScheduled State.run
  refine ⟨_, rfl, rfl, ?_⟩
  try dsimp only
  repeat' first
    | intro _ | with_reducible exact .refl _ _ | with_reducible assumption | with_reducible apply ChangesOnly.ite
    | with_reducible apply ChangesOnly.foldl | (with_reducible apply ChangesOnly.step Dev.elapse_foot; decide)
    | with_reducible apply Dev.jcsDo_foot (by decide) | (with_reducible apply ChangesOnly.step cancelAct_foot; decide)
    | with_reducible exact .pair ‹_› ‹_› | split | dsimp only

theorem execGetTime_foot {by_ : Fin 4} {uid : Nat} {payload : List Byte} {dt : Nat} {s : State} : ∃ s', execGetTime by_ uid payload dt s = .next s' ∧ s'.pending = s.pending ∧ ChangesOnly [.flint, .qtz, .lat, .heads, .jcs, .mirror, .out] s.dev s'.dev := by
  unfold execGetTime State.run
  refine ⟨_, rfl, rfl, ?_⟩
  try dsimp only
  repeat' first
    | intro _ | with_reducible exact .refl _ _ | with_reducible assumption | with_reducible apply ChangesOnly.ite
    | with_reducible apply ChangesOnly.foldl | (with_reducible apply ChangesOnly.step Dev.elapse_foot; decide)
    | with_reducible apply Dev.jcsDo_foot (by decide) | (with_reducible apply ChangesOnly.step timeAct_foot; decide)
    | with_reducible exact .pair ‹_› ‹_› | split | dsimp only

theorem execSetOffset_foot {by_ : Fin 4} {uid : Nat} {payload : List Byte} {dt : Nat} {s : State} : ∃ s', execSetOffset by_ uid payload dt s = .next s' ∧ s'.pending = s.pending ∧ ChangesOnly [.ctxs, .flint, .qtz, .lat, .heads, .jcs, .slate, .mirror, .dw, .out] s.dev s'.dev := by
  unfold execSetOffset State.run
  refine ⟨_, rfl, rfl, ?_⟩
  try dsimp only
  repeat' first
    | intro _ | with_reducible exact .refl _ _ | with_reducible assumption | with_reducible apply ChangesOnly.ite
    | with_reducible apply ChangesOnly.foldl | (with_reducible apply ChangesOnly.step Dev.elapse_foot; decide)
    | with_reducible apply Dev.jcsDo_foot (by decide) | (with_reducible apply ChangesOnly.step offsetAct_foot; decide)
    | with_reducible exact .pair ‹_› ‹_› | split | dsimp only

theorem execSetTimeOptions_foot {by_ : Fin 4} {uid : Nat} {payload : List Byte} {dt : Nat} {s : State} : ∃ s', execSetTimeOptions by_ uid payload dt s = .next s' ∧ s'.pending = s.pending ∧ ChangesOnly [.flint, .qtz, .lat, .heads, .jcs, .slate, .mirror, .dw, .out] s.dev s'.dev := by
  unfold execSetTimeOptions State.run
  refine ⟨_, rfl, rfl, ?_⟩
  try dsimp only
  repeat' first
    | intro _ | with_reducible exact .refl _ _ | with_reducible assumption | with_reducible apply ChangesOnly.ite
    | with_reducible apply ChangesOnly.foldl | (with_reducible apply ChangesOnly.step Dev.elapse_foot; decide)
    | with_reducible apply Dev.jcsDo_foot (by decide) | (with_reducible apply ChangesOnly.step timeOptAct_foot; decide)
    | with_reducible exact .pair ‹_› ‹_› | split | dsimp only

theorem execGetLattice_foot {by_ : Fin 4} {uid : Nat} {payload : List Byte} {dt : Nat} {s : State} : ∃ s', execGetLattice by_ uid payload dt s = .next s' ∧ s'.pending = s.pending ∧ ChangesOnly [.flint, .qtz, .lat, .heads, .jcs, .mirror, .out] s.dev s'.dev := by
  unfold execGetLattice State.run
  refine ⟨_, rfl, rfl, ?_⟩
  try dsimp only
  repeat' first
    | intro _ | with_reducible exact .refl _ _ | with_reducible assumption | with_reducible apply ChangesOnly.ite
    | with_reducible apply ChangesOnly.foldl | (with_reducible apply ChangesOnly.step Dev.elapse_foot; decide)
    | with_reducible apply Dev.jcsDo_foot (by decide) | (with_reducible apply ChangesOnly.step getLatAct_foot; decide)
    | with_reducible exact .pair ‹_› ‹_› | split | dsimp only

theorem execSetLink_foot {by_ : Fin 4} {uid : Nat} {payload : List Byte} {dt : Nat} {s : State} : ∃ s', execSetLink by_ uid payload dt s = .next s' ∧ s'.pending = s.pending ∧ ChangesOnly [.flint, .qtz, .lat, .heads, .jcs, .slate, .mirror, .dw, .out] s.dev s'.dev := by
  unfold execSetLink State.run
  refine ⟨_, rfl, rfl, ?_⟩
  try dsimp only
  repeat' first
    | intro _ | with_reducible exact .refl _ _ | with_reducible assumption | with_reducible apply ChangesOnly.ite
    | with_reducible apply ChangesOnly.foldl | (with_reducible apply ChangesOnly.step Dev.elapse_foot; decide)
    | with_reducible apply Dev.jcsDo_foot (by decide) | (with_reducible apply ChangesOnly.step setLinkAct_foot; decide)
    | with_reducible exact .pair ‹_› ‹_› | split | dsimp only

theorem execSetGrant_foot {by_ : Fin 4} {uid : Nat} {payload : List Byte} {dt : Nat} {s : State} : ∃ s', execSetGrant by_ uid payload dt s = .next s' ∧ s'.pending = s.pending ∧ ChangesOnly [.flint, .qtz, .lat, .heads, .jcs, .slate, .mirror, .out] s.dev s'.dev := by
  unfold execSetGrant State.run
  refine ⟨_, rfl, rfl, ?_⟩
  try dsimp only
  repeat' first
    | intro _ | with_reducible exact .refl _ _ | with_reducible assumption | with_reducible apply ChangesOnly.ite
    | with_reducible apply ChangesOnly.foldl | (with_reducible apply ChangesOnly.step Dev.elapse_foot; decide)
    | with_reducible apply Dev.jcsDo_foot (by decide) | (with_reducible apply ChangesOnly.step grantAct_foot; decide)
    | with_reducible exact .pair ‹_› ‹_› | split | dsimp only

theorem execCreateReplica_foot {by_ : Fin 4} {uid : Nat} {payload : List Byte} {dt : Nat} {s : State} : ∃ s', execCreateReplica by_ uid payload dt s = .next s' ∧ s'.pending = s.pending ∧ ChangesOnly [.flint, .qtz, .lat, .heads, .jcs, .mirror, .out] s.dev s'.dev := by
  unfold execCreateReplica State.run
  refine ⟨_, rfl, rfl, ?_⟩
  try dsimp only
  repeat' first
    | intro _ | with_reducible exact .refl _ _ | with_reducible assumption | with_reducible apply ChangesOnly.ite
    | with_reducible apply ChangesOnly.foldl | (with_reducible apply ChangesOnly.step Dev.elapse_foot; decide)
    | with_reducible apply Dev.jcsDo_foot (by decide) | (with_reducible apply ChangesOnly.step replicaAct_foot; decide)
    | with_reducible exact .pair ‹_› ‹_› | split | dsimp only

theorem execControlReplica_foot {by_ : Fin 4} {uid : Nat} {payload : List Byte} {dt : Nat} {s : State} : ∃ s', execControlReplica by_ uid payload dt s = .next s' ∧ s'.pending = s.pending ∧ ChangesOnly [.flint, .qtz, .lat, .heads, .jcs, .mirror, .out] s.dev s'.dev := by
  unfold execControlReplica State.run
  refine ⟨_, rfl, rfl, ?_⟩
  try dsimp only
  repeat' first
    | intro _ | with_reducible exact .refl _ _ | with_reducible assumption | with_reducible apply ChangesOnly.ite
    | with_reducible apply ChangesOnly.foldl | (with_reducible apply ChangesOnly.step Dev.elapse_foot; decide)
    | with_reducible apply Dev.jcsDo_foot (by decide) | (with_reducible apply ChangesOnly.step ctlReplicaAct_foot; decide)
    | with_reducible exact .pair ‹_› ‹_› | split | dsimp only

theorem execStreamStatus_foot {by_ : Fin 4} {uid : Nat} {payload : List Byte} {dt : Nat} {s : State} : ∃ s', execStreamStatus by_ uid payload dt s = .next s' ∧ s'.pending = s.pending ∧ ChangesOnly [.flint, .qtz, .lat, .heads, .jcs, .mirror, .out] s.dev s'.dev := by
  unfold execStreamStatus State.run
  refine ⟨_, rfl, rfl, ?_⟩
  try dsimp only
  repeat' first
    | intro _ | with_reducible exact .refl _ _ | with_reducible assumption | with_reducible apply ChangesOnly.ite
    | with_reducible apply ChangesOnly.foldl | (with_reducible apply ChangesOnly.step Dev.elapse_foot; decide)
    | with_reducible apply Dev.jcsDo_foot (by decide) | (with_reducible apply ChangesOnly.step streamAct_foot; decide)
    | with_reducible exact .pair ‹_› ‹_› | split | dsimp only

theorem execMigrate_foot {by_ : Fin 4} {uid : Nat} {payload : List Byte} {dt : Nat} {s : State} : ∃ s', execMigrate by_ uid payload dt s = .next s' ∧ s'.pending = s.pending ∧ ChangesOnly [.flint, .qtz, .lat, .heads, .jcs, .mirror, .out] s.dev s'.dev := by
  unfold execMigrate State.run
  refine ⟨_, rfl, rfl, ?_⟩
  try dsimp only
  repeat' first
    | intro _ | with_reducible exact .refl _ _ | with_reducible assumption | with_reducible apply ChangesOnly.ite
    | with_reducible apply ChangesOnly.foldl | (with_reducible apply ChangesOnly.step Dev.elapse_foot; decide)
    | with_reducible apply Dev.jcsDo_foot (by decide) | (with_reducible apply ChangesOnly.step migrateAct_foot; decide)
    | with_reducible exact .pair ‹_› ‹_› | split | dsimp only

theorem execControlMigration_foot {by_ : Fin 4} {uid : Nat} {payload : List Byte} {dt : Nat} {s : State} : ∃ s', execControlMigration by_ uid payload dt s = .next s' ∧ s'.pending = s.pending ∧ ChangesOnly [.mem, .expo, .restore, .flash, .ctxs, .dram, .flint, .qtz, .lat, .heads, .jcs, .mirror, .dw, .out] s.dev s'.dev := by
  unfold execControlMigration State.run
  refine ⟨_, rfl, rfl, ?_⟩
  try dsimp only
  repeat' first
    | intro _ | with_reducible exact .refl _ _ | with_reducible assumption | with_reducible apply ChangesOnly.ite
    | with_reducible apply ChangesOnly.foldl | (with_reducible apply ChangesOnly.step Dev.elapse_foot; decide)
    | with_reducible apply Dev.jcsDo_foot (by decide) | (with_reducible apply ChangesOnly.step ctlMigAct_foot; decide)
    | with_reducible exact .pair ‹_› ‹_› | split | dsimp only

theorem execLatticeCheckpoint_foot {by_ : Fin 4} {uid : Nat} {payload : List Byte} {dt : Nat} {s : State} : ∃ s', execLatticeCheckpoint by_ uid payload dt s = .next s' ∧ s'.pending = s.pending ∧ ChangesOnly [.mem, .expo, .restore, .flash, .ctxs, .dram, .flint, .qtz, .lat, .heads, .jcs, .mirror, .dw, .out] s.dev s'.dev := by
  unfold execLatticeCheckpoint State.run
  refine ⟨_, rfl, rfl, ?_⟩
  try dsimp only
  repeat' first
    | intro _ | with_reducible exact .refl _ _ | with_reducible assumption | with_reducible apply ChangesOnly.ite
    | with_reducible apply ChangesOnly.foldl | (with_reducible apply ChangesOnly.step Dev.elapse_foot; decide)
    | with_reducible apply Dev.jcsDo_foot (by decide) | (with_reducible apply ChangesOnly.step ckptAct_foot; decide)
    | with_reducible exact .pair ‹_› ‹_› | split | dsimp only

theorem execCheckpointResult_foot {by_ : Fin 4} {uid : Nat} {payload : List Byte} {dt : Nat} {s : State} : ∃ s', execCheckpointResult by_ uid payload dt s = .next s' ∧ s'.pending = s.pending ∧ ChangesOnly [.mem, .expo, .restore, .flash, .ctxs, .dram, .flint, .qtz, .lat, .heads, .jcs, .mirror, .dw, .out] s.dev s'.dev := by
  unfold execCheckpointResult State.run
  refine ⟨_, rfl, rfl, ?_⟩
  try dsimp only
  repeat' first
    | intro _ | with_reducible exact .refl _ _ | with_reducible assumption | with_reducible apply ChangesOnly.ite
    | with_reducible apply ChangesOnly.foldl | (with_reducible apply ChangesOnly.step Dev.elapse_foot; decide)
    | with_reducible apply Dev.jcsDo_foot (by decide) | (with_reducible apply ChangesOnly.step ckptResAct_foot; decide)
    | with_reducible exact .pair ‹_› ‹_› | split | dsimp only

theorem execGetRanks_foot {by_ : Fin 4} {uid : Nat} {payload : List Byte} {dt : Nat} {s : State} : ∃ s', execGetRanks by_ uid payload dt s = .next s' ∧ s'.pending = s.pending ∧ ChangesOnly [.flint, .qtz, .lat, .heads, .jcs, .mirror, .out] s.dev s'.dev := by
  unfold execGetRanks State.run
  refine ⟨_, rfl, rfl, ?_⟩
  try dsimp only
  repeat' first
    | intro _ | with_reducible exact .refl _ _ | with_reducible assumption | with_reducible apply ChangesOnly.ite
    | with_reducible apply ChangesOnly.foldl | (with_reducible apply ChangesOnly.step Dev.elapse_foot; decide)
    | with_reducible apply Dev.jcsDo_foot (by decide) | (with_reducible apply ChangesOnly.step ranksAct_foot; decide)
    | with_reducible exact .pair ‹_› ‹_› | split | dsimp only

theorem execReadRowFaults_foot {by_ : Fin 4} {uid : Nat} {payload : List Byte} {dt : Nat} {s : State} : ∃ s', execReadRowFaults by_ uid payload dt s = .next s' ∧ s'.pending = s.pending ∧ ChangesOnly [.flint, .qtz, .lat, .heads, .jcs, .mirror, .out] s.dev s'.dev := by
  unfold execReadRowFaults State.run
  refine ⟨_, rfl, rfl, ?_⟩
  try dsimp only
  repeat' first
    | intro _ | with_reducible exact .refl _ _ | with_reducible assumption | with_reducible apply ChangesOnly.ite
    | with_reducible apply ChangesOnly.foldl | (with_reducible apply ChangesOnly.step Dev.elapse_foot; decide)
    | with_reducible apply Dev.jcsDo_foot (by decide) | (with_reducible apply ChangesOnly.step rowFaultsAct_foot; decide)
    | with_reducible exact .pair ‹_› ‹_› | split | dsimp only

theorem execRetireRank_foot {by_ : Fin 4} {uid : Nat} {payload : List Byte} {dt : Nat} {s : State} : ∃ s', execRetireRank by_ uid payload dt s = .next s' ∧ s'.pending = s.pending ∧ ChangesOnly [.dram, .flint, .qtz, .lat, .heads, .jcs, .slate, .mirror, .dw, .out] s.dev s'.dev := by
  unfold execRetireRank State.run
  refine ⟨_, rfl, rfl, ?_⟩
  try dsimp only
  repeat' first
    | intro _ | with_reducible exact .refl _ _ | with_reducible assumption | with_reducible apply ChangesOnly.ite
    | with_reducible apply ChangesOnly.foldl | (with_reducible apply ChangesOnly.step Dev.elapse_foot; decide)
    | with_reducible apply Dev.jcsDo_foot (by decide) | (with_reducible apply ChangesOnly.step retireAct_foot; decide)
    | with_reducible exact .pair ‹_› ‹_› | split | dsimp only

theorem execReturnRank_foot {by_ : Fin 4} {uid : Nat} {payload : List Byte} {dt : Nat} {s : State} : ∃ s', execReturnRank by_ uid payload dt s = .next s' ∧ s'.pending = s.pending ∧ ChangesOnly [.dram, .flint, .qtz, .lat, .heads, .jcs, .slate, .mirror, .out] s.dev s'.dev := by
  unfold execReturnRank State.run
  refine ⟨_, rfl, rfl, ?_⟩
  try dsimp only
  repeat' first
    | intro _ | with_reducible exact .refl _ _ | with_reducible assumption | with_reducible apply ChangesOnly.ite
    | with_reducible apply ChangesOnly.foldl | (with_reducible apply ChangesOnly.step Dev.elapse_foot; decide)
    | with_reducible apply Dev.jcsDo_foot (by decide) | (with_reducible apply ChangesOnly.step returnAct_foot; decide)
    | with_reducible exact .pair ‹_› ‹_› | split | dsimp only

theorem execSetDramConfiguration_foot {by_ : Fin 4} {uid : Nat} {payload : List Byte} {dt : Nat} {s : State} : ∃ s', execSetDramConfiguration by_ uid payload dt s = .next s' ∧ s'.pending = s.pending ∧ ChangesOnly [.dram, .flint, .qtz, .lat, .heads, .jcs, .slate, .mirror, .dw, .out] s.dev s'.dev := by
  unfold execSetDramConfiguration State.run
  refine ⟨_, rfl, rfl, ?_⟩
  try dsimp only
  repeat' first
    | intro _ | with_reducible exact .refl _ _ | with_reducible assumption | with_reducible apply ChangesOnly.ite
    | with_reducible apply ChangesOnly.foldl | (with_reducible apply ChangesOnly.step Dev.elapse_foot; decide)
    | with_reducible apply Dev.jcsDo_foot (by decide) | (with_reducible apply ChangesOnly.step dramCfgAct_foot; decide)
    | with_reducible exact .pair ‹_› ‹_› | split | dsimp only

theorem execGetStrataStatus_foot {by_ : Fin 4} {uid : Nat} {payload : List Byte} {dt : Nat} {s : State} : ∃ s', execGetStrataStatus by_ uid payload dt s = .next s' ∧ s'.pending = s.pending ∧ ChangesOnly [.flint, .qtz, .lat, .heads, .jcs, .mirror, .out] s.dev s'.dev := by
  unfold execGetStrataStatus State.run
  refine ⟨_, rfl, rfl, ?_⟩
  try dsimp only
  repeat' first
    | intro _ | with_reducible exact .refl _ _ | with_reducible assumption | with_reducible apply ChangesOnly.ite
    | with_reducible apply ChangesOnly.foldl | (with_reducible apply ChangesOnly.step Dev.elapse_foot; decide)
    | with_reducible apply Dev.jcsDo_foot (by decide) | (with_reducible apply ChangesOnly.step strataAct_foot; decide)
    | with_reducible exact .pair ‹_› ‹_› | split | dsimp only

theorem execSetLifeTarget_foot {by_ : Fin 4} {uid : Nat} {payload : List Byte} {dt : Nat} {s : State} : ∃ s', execSetLifeTarget by_ uid payload dt s = .next s' ∧ s'.pending = s.pending ∧ ChangesOnly [.strata, .flint, .qtz, .lat, .heads, .jcs, .slate, .mirror, .out] s.dev s'.dev := by
  unfold execSetLifeTarget State.run
  refine ⟨_, rfl, rfl, ?_⟩
  try dsimp only
  repeat' first
    | intro _ | with_reducible exact .refl _ _ | with_reducible assumption | with_reducible apply ChangesOnly.ite
    | with_reducible apply ChangesOnly.foldl | (with_reducible apply ChangesOnly.step Dev.elapse_foot; decide)
    | with_reducible apply Dev.jcsDo_foot (by decide) | (with_reducible apply ChangesOnly.step lifeAct_foot; decide)
    | with_reducible exact .pair ‹_› ‹_› | split | dsimp only

theorem execListStrata_foot {by_ : Fin 4} {uid : Nat} {payload : List Byte} {dt : Nat} {s : State} : ∃ s', execListStrata by_ uid payload dt s = .next s' ∧ s'.pending = s.pending ∧ ChangesOnly [.flint, .qtz, .lat, .heads, .jcs, .mirror, .out] s.dev s'.dev := by
  unfold execListStrata State.run
  refine ⟨_, rfl, rfl, ?_⟩
  try dsimp only
  repeat' first
    | intro _ | with_reducible exact .refl _ _ | with_reducible assumption | with_reducible apply ChangesOnly.ite
    | with_reducible apply ChangesOnly.foldl | (with_reducible apply ChangesOnly.step Dev.elapse_foot; decide)
    | with_reducible apply Dev.jcsDo_foot (by decide) | (with_reducible apply ChangesOnly.step strataListAct_foot; decide)
    | with_reducible exact .pair ‹_› ‹_› | split | dsimp only

theorem execReleaseStratum_foot {by_ : Fin 4} {uid : Nat} {payload : List Byte} {dt : Nat} {s : State} : ∃ s', execReleaseStratum by_ uid payload dt s = .next s' ∧ s'.pending = s.pending ∧ ChangesOnly [.expo, .strata, .flash, .flint, .qtz, .lat, .heads, .jcs, .mirror, .out] s.dev s'.dev := by
  unfold execReleaseStratum State.run
  refine ⟨_, rfl, rfl, ?_⟩
  try dsimp only
  repeat' first
    | intro _ | with_reducible exact .refl _ _ | with_reducible assumption | with_reducible apply ChangesOnly.ite
    | with_reducible apply ChangesOnly.foldl | (with_reducible apply ChangesOnly.step Dev.elapse_foot; decide)
    | with_reducible apply Dev.jcsDo_foot (by decide) | (with_reducible apply ChangesOnly.step strataRelAct_foot; decide)
    | with_reducible exact .pair ‹_› ‹_› | split | dsimp only

theorem execReadDamageList_foot {by_ : Fin 4} {uid : Nat} {payload : List Byte} {dt : Nat} {s : State} : ∃ s', execReadDamageList by_ uid payload dt s = .next s' ∧ s'.pending = s.pending ∧ ChangesOnly [.flint, .qtz, .lat, .heads, .jcs, .mirror, .out] s.dev s'.dev := by
  unfold execReadDamageList State.run
  refine ⟨_, rfl, rfl, ?_⟩
  try dsimp only
  repeat' first
    | intro _ | with_reducible exact .refl _ _ | with_reducible assumption | with_reducible apply ChangesOnly.ite
    | with_reducible apply ChangesOnly.foldl | (with_reducible apply ChangesOnly.step Dev.elapse_foot; decide)
    | with_reducible apply Dev.jcsDo_foot (by decide) | (with_reducible apply ChangesOnly.step damageAct_foot; decide)
    | with_reducible exact .pair ‹_› ‹_› | split | dsimp only

theorem execAcquire_foot {by_ : Fin 4} {uid : Nat} {payload : List Byte} {dt : Nat} {s : State} : ∃ s', execAcquire by_ uid payload dt s = .next s' ∧ s'.pending = s.pending ∧ ChangesOnly [.flint, .qtz, .lat, .heads, .jcs, .mirror, .out] s.dev s'.dev := by
  unfold execAcquire State.run
  refine ⟨_, rfl, rfl, ?_⟩
  try dsimp only
  repeat' first
    | intro _ | with_reducible exact .refl _ _ | with_reducible assumption | with_reducible apply ChangesOnly.ite
    | with_reducible apply ChangesOnly.foldl | (with_reducible apply ChangesOnly.step Dev.elapse_foot; decide)
    | with_reducible apply Dev.jcsDo_foot (by decide) | (with_reducible apply ChangesOnly.step acquireAct_foot; decide)
    | with_reducible exact .pair ‹_› ‹_› | split | dsimp only

theorem execLeaseRelease_foot {by_ : Fin 4} {uid : Nat} {payload : List Byte} {dt : Nat} {s : State} : ∃ s', execLeaseRelease by_ uid payload dt s = .next s' ∧ s'.pending = s.pending ∧ ChangesOnly [.flint, .qtz, .lat, .heads, .jcs, .slate, .upd, .mirror, .out, .freeN] s.dev s'.dev := by
  unfold execLeaseRelease State.run
  refine ⟨_, rfl, rfl, ?_⟩
  try dsimp only
  repeat' first
    | intro _ | with_reducible exact .refl _ _ | with_reducible assumption | with_reducible apply ChangesOnly.ite
    | with_reducible apply ChangesOnly.foldl | (with_reducible apply ChangesOnly.step Dev.elapse_foot; decide)
    | with_reducible apply Dev.jcsDo_foot (by decide) | (with_reducible apply ChangesOnly.step leaseRelAct_foot; decide)
    | with_reducible exact .pair ‹_› ‹_› | split | dsimp only

theorem execQuery_foot {by_ : Fin 4} {uid : Nat} {payload : List Byte} {dt : Nat} {s : State} : ∃ s', execQuery by_ uid payload dt s = .next s' ∧ s'.pending = s.pending ∧ ChangesOnly [.flint, .qtz, .lat, .heads, .jcs, .mirror, .out] s.dev s'.dev := by
  unfold execQuery State.run
  refine ⟨_, rfl, rfl, ?_⟩
  try dsimp only
  repeat' first
    | intro _ | with_reducible exact .refl _ _ | with_reducible assumption | with_reducible apply ChangesOnly.ite
    | with_reducible apply ChangesOnly.foldl | (with_reducible apply ChangesOnly.step Dev.elapse_foot; decide)
    | with_reducible apply Dev.jcsDo_foot (by decide) | (with_reducible apply ChangesOnly.step leaseQueryAct_foot; decide)
    | with_reducible exact .pair ‹_› ‹_› | split | dsimp only

theorem execBreak_foot {by_ : Fin 4} {uid : Nat} {payload : List Byte} {dt : Nat} {s : State} : ∃ s', execBreak by_ uid payload dt s = .next s' ∧ s'.pending = s.pending ∧ ChangesOnly [.flint, .qtz, .lat, .heads, .jcs, .slate, .upd, .mirror, .out, .freeN] s.dev s'.dev := by
  unfold execBreak State.run
  refine ⟨_, rfl, rfl, ?_⟩
  try dsimp only
  repeat' first
    | intro _ | with_reducible exact .refl _ _ | with_reducible assumption | with_reducible apply ChangesOnly.ite
    | with_reducible apply ChangesOnly.foldl | (with_reducible apply ChangesOnly.step Dev.elapse_foot; decide)
    | with_reducible apply Dev.jcsDo_foot (by decide) | (with_reducible apply ChangesOnly.step breakAct_foot; decide)
    | with_reducible exact .pair ‹_› ‹_› | split | dsimp only

theorem execGetRestoreStatus_foot {by_ : Fin 4} {uid : Nat} {payload : List Byte} {dt : Nat} {s : State} : ∃ s', execGetRestoreStatus by_ uid payload dt s = .next s' ∧ s'.pending = s.pending ∧ ChangesOnly [.flint, .qtz, .lat, .heads, .jcs, .mirror, .out] s.dev s'.dev := by
  unfold execGetRestoreStatus State.run
  refine ⟨_, rfl, rfl, ?_⟩
  try dsimp only
  repeat' first
    | intro _ | with_reducible exact .refl _ _ | with_reducible assumption | with_reducible apply ChangesOnly.ite
    | with_reducible apply ChangesOnly.foldl | (with_reducible apply ChangesOnly.step Dev.elapse_foot; decide)
    | with_reducible apply Dev.jcsDo_foot (by decide) | (with_reducible apply ChangesOnly.step restoreAct_foot; decide)
    | with_reducible exact .pair ‹_› ‹_› | split | dsimp only

theorem execReadPoisonList_foot {by_ : Fin 4} {uid : Nat} {payload : List Byte} {dt : Nat} {s : State} : ∃ s', execReadPoisonList by_ uid payload dt s = .next s' ∧ s'.pending = s.pending ∧ ChangesOnly [.flint, .qtz, .lat, .heads, .jcs, .mirror, .out] s.dev s'.dev := by
  unfold execReadPoisonList State.run
  refine ⟨_, rfl, rfl, ?_⟩
  try dsimp only
  repeat' first
    | intro _ | with_reducible exact .refl _ _ | with_reducible assumption | with_reducible apply ChangesOnly.ite
    | with_reducible apply ChangesOnly.foldl | (with_reducible apply ChangesOnly.step Dev.elapse_foot; decide)
    | with_reducible apply Dev.jcsDo_foot (by decide) | (with_reducible apply ChangesOnly.step poisonAct_foot; decide)
    | with_reducible exact .pair ‹_› ‹_› | split | dsimp only

theorem execReadSealRecords_foot {by_ : Fin 4} {uid : Nat} {payload : List Byte} {dt : Nat} {s : State} : ∃ s', execReadSealRecords by_ uid payload dt s = .next s' ∧ s'.pending = s.pending ∧ ChangesOnly [.flint, .qtz, .lat, .heads, .jcs, .mirror, .out] s.dev s'.dev := by
  unfold execReadSealRecords State.run
  refine ⟨_, rfl, rfl, ?_⟩
  try dsimp only
  repeat' first
    | intro _ | with_reducible exact .refl _ _ | with_reducible assumption | with_reducible apply ChangesOnly.ite
    | with_reducible apply ChangesOnly.foldl | (with_reducible apply ChangesOnly.step Dev.elapse_foot; decide)
    | with_reducible apply Dev.jcsDo_foot (by decide) | (with_reducible apply ChangesOnly.step sealRecAct_foot; decide)
    | with_reducible exact .pair ‹_› ‹_› | split | dsimp only

theorem execGetUpdateStatus_foot {by_ : Fin 4} {uid : Nat} {payload : List Byte} {dt : Nat} {s : State} : ∃ s', execGetUpdateStatus by_ uid payload dt s = .next s' ∧ s'.pending = s.pending ∧ ChangesOnly [.flint, .qtz, .lat, .heads, .jcs, .mirror, .out] s.dev s'.dev := by
  unfold execGetUpdateStatus State.run
  refine ⟨_, rfl, rfl, ?_⟩
  try dsimp only
  repeat' first
    | intro _ | with_reducible exact .refl _ _ | with_reducible assumption | with_reducible apply ChangesOnly.ite
    | with_reducible apply ChangesOnly.foldl | (with_reducible apply ChangesOnly.step Dev.elapse_foot; decide)
    | with_reducible apply Dev.jcsDo_foot (by decide) | (with_reducible apply ChangesOnly.step updStatAct_foot; decide)
    | with_reducible exact .pair ‹_› ‹_› | split | dsimp only

theorem execSetUpdatePolicy_foot {by_ : Fin 4} {uid : Nat} {payload : List Byte} {dt : Nat} {s : State} : ∃ s', execSetUpdatePolicy by_ uid payload dt s = .next s' ∧ s'.pending = s.pending ∧ ChangesOnly [.flint, .qtz, .lat, .heads, .jcs, .slate, .upd, .mirror, .out] s.dev s'.dev := by
  unfold execSetUpdatePolicy State.run
  refine ⟨_, rfl, rfl, ?_⟩
  try dsimp only
  repeat' first
    | intro _ | with_reducible exact .refl _ _ | with_reducible assumption | with_reducible apply ChangesOnly.ite
    | with_reducible apply ChangesOnly.foldl | (with_reducible apply ChangesOnly.step Dev.elapse_foot; decide)
    | with_reducible apply Dev.jcsDo_foot (by decide) | (with_reducible apply ChangesOnly.step updPolAct_foot; decide)
    | with_reducible exact .pair ‹_› ‹_› | split | dsimp only

theorem execConfirm_foot {by_ : Fin 4} {uid : Nat} {payload : List Byte} {dt : Nat} {s : State} : ∃ s', execConfirm by_ uid payload dt s = .next s' ∧ s'.pending = s.pending ∧ ChangesOnly [.flint, .qtz, .lat, .heads, .jcs, .upd, .mirror, .out] s.dev s'.dev := by
  unfold execConfirm State.run
  refine ⟨_, rfl, rfl, ?_⟩
  try dsimp only
  repeat' first
    | intro _ | with_reducible exact .refl _ _ | with_reducible assumption | with_reducible apply ChangesOnly.ite
    | with_reducible apply ChangesOnly.foldl | (with_reducible apply ChangesOnly.step Dev.elapse_foot; decide)
    | with_reducible apply Dev.jcsDo_foot (by decide) | (with_reducible apply ChangesOnly.step confirmAct_foot; decide)
    | with_reducible exact .pair ‹_› ‹_› | split | dsimp only

theorem execEnterBedrock_foot {by_ : Fin 4} {uid : Nat} {payload : List Byte} {dt : Nat} {s : State} : ∃ s', execEnterBedrock by_ uid payload dt s = .next s' ∧ s'.pending = s.pending ∧ ChangesOnly [.mem, .pkg, .expo, .sealing, .restore, .flash, .ctxs, .dram, .energy, .therm, .flint, .qtz, .lat, .heads, .jcs, .slate, .upd, .panel, .mirror, .dw, .out, .freeN] s.dev s'.dev := by
  unfold execEnterBedrock State.run
  refine ⟨_, rfl, rfl, ?_⟩
  try dsimp only
  repeat' first
    | intro _ | with_reducible exact .refl _ _ | with_reducible assumption | with_reducible apply ChangesOnly.ite
    | with_reducible apply ChangesOnly.foldl | (with_reducible apply ChangesOnly.step Dev.elapse_foot; decide)
    | with_reducible apply Dev.jcsDo_foot (by decide) | (with_reducible apply ChangesOnly.step bedrockAct_foot; decide)
    | with_reducible exact .pair ‹_› ‹_› | split | dsimp only

theorem execIdentifyMemoryDevice_foot {h : Fin 2} {dt : Nat} {s : State} : ∃ s', execIdentifyMemoryDevice h dt s = .next s' ∧ s'.pending = s.pending ∧ ChangesOnly [.qtz, .heads, .out] s.dev s'.dev := by
  unfold execIdentifyMemoryDevice State.run
  refine ⟨_, rfl, rfl, ?_⟩
  try dsimp only
  repeat' first
    | intro _ | with_reducible exact .refl _ _ | with_reducible assumption | with_reducible apply ChangesOnly.ite
    | with_reducible apply ChangesOnly.foldl | (with_reducible apply ChangesOnly.step Dev.elapse_foot; decide)
    | with_reducible apply Dev.cxlDo_foot (by decide) | (with_reducible apply ChangesOnly.step Dev.cxlRespond_foot; decide)
    | with_reducible exact .pair ‹_› ‹_› | split | dsimp only

theorem execGetPartitionInfo_foot {h : Fin 2} {dt : Nat} {s : State} : ∃ s', execGetPartitionInfo h dt s = .next s' ∧ s'.pending = s.pending ∧ ChangesOnly [.qtz, .heads, .out] s.dev s'.dev := by
  unfold execGetPartitionInfo State.run
  refine ⟨_, rfl, rfl, ?_⟩
  try dsimp only
  repeat' first
    | intro _ | with_reducible exact .refl _ _ | with_reducible assumption | with_reducible apply ChangesOnly.ite
    | with_reducible apply ChangesOnly.foldl | (with_reducible apply ChangesOnly.step Dev.elapse_foot; decide)
    | with_reducible apply Dev.cxlDo_foot (by decide) | (with_reducible apply ChangesOnly.step Dev.cxlRespond_foot; decide)
    | with_reducible exact .pair ‹_› ‹_› | split | dsimp only

theorem execSetPartitionInfo_foot {h : Fin 2} {dt : Nat} {s : State} : ∃ s', execSetPartitionInfo h dt s = .next s' ∧ s'.pending = s.pending ∧ ChangesOnly [.qtz, .heads, .out] s.dev s'.dev := by
  unfold execSetPartitionInfo State.run
  refine ⟨_, rfl, rfl, ?_⟩
  try dsimp only
  repeat' first
    | intro _ | with_reducible exact .refl _ _ | with_reducible assumption | with_reducible apply ChangesOnly.ite
    | with_reducible apply ChangesOnly.foldl | (with_reducible apply ChangesOnly.step Dev.elapse_foot; decide)
    | (with_reducible apply ChangesOnly.step Dev.cxlUnsup_foot; decide) | with_reducible exact .pair ‹_› ‹_› | split | dsimp only

theorem execGetHealthInfo_foot {h : Fin 2} {dt : Nat} {s : State} : ∃ s', execGetHealthInfo h dt s = .next s' ∧ s'.pending = s.pending ∧ ChangesOnly [.qtz, .heads, .out] s.dev s'.dev := by
  unfold execGetHealthInfo State.run
  refine ⟨_, rfl, rfl, ?_⟩
  try dsimp only
  repeat' first
    | intro _ | with_reducible exact .refl _ _ | with_reducible assumption | with_reducible apply ChangesOnly.ite
    | with_reducible apply ChangesOnly.foldl | (with_reducible apply ChangesOnly.step Dev.elapse_foot; decide)
    | with_reducible apply Dev.cxlDo_foot (by decide) | (with_reducible apply ChangesOnly.step Dev.cxlRespond_foot; decide)
    | with_reducible exact .pair ‹_› ‹_› | split | dsimp only

theorem execGetAlertConfiguration_foot {h : Fin 2} {dt : Nat} {s : State} : ∃ s', execGetAlertConfiguration h dt s = .next s' ∧ s'.pending = s.pending ∧ ChangesOnly [.qtz, .heads, .out] s.dev s'.dev := by
  unfold execGetAlertConfiguration State.run
  refine ⟨_, rfl, rfl, ?_⟩
  try dsimp only
  repeat' first
    | intro _ | with_reducible exact .refl _ _ | with_reducible assumption | with_reducible apply ChangesOnly.ite
    | with_reducible apply ChangesOnly.foldl | (with_reducible apply ChangesOnly.step Dev.elapse_foot; decide)
    | with_reducible apply Dev.cxlDo_foot (by decide) | (with_reducible apply ChangesOnly.step Dev.cxlRespond_foot; decide)
    | with_reducible exact .pair ‹_› ‹_› | split | dsimp only

theorem execSetAlertConfiguration_foot {h : Fin 2} {cfg : BitVec 128} {dt : Nat} {s : State} : ∃ s', execSetAlertConfiguration h cfg dt s = .next s' ∧ s'.pending = s.pending ∧ ChangesOnly [.qtz, .heads, .out] s.dev s'.dev := by
  unfold execSetAlertConfiguration State.run
  refine ⟨_, rfl, rfl, ?_⟩
  try dsimp only
  repeat' first
    | intro _ | with_reducible exact .refl _ _ | with_reducible assumption | with_reducible apply ChangesOnly.ite
    | with_reducible apply ChangesOnly.foldl | (with_reducible apply ChangesOnly.step Dev.elapse_foot; decide)
    | with_reducible apply Dev.cxlDo_foot (by decide) | (with_reducible apply ChangesOnly.step Dev.onHead_foot; decide)
    | (with_reducible apply ChangesOnly.step Dev.cxlRespond_foot; decide) | with_reducible exact .pair ‹_› ‹_› | split | dsimp only

theorem execGetShutdownState_foot {h : Fin 2} {dt : Nat} {s : State} : ∃ s', execGetShutdownState h dt s = .next s' ∧ s'.pending = s.pending ∧ ChangesOnly [.qtz, .heads, .out] s.dev s'.dev := by
  unfold execGetShutdownState State.run
  refine ⟨_, rfl, rfl, ?_⟩
  try dsimp only
  repeat' first
    | intro _ | with_reducible exact .refl _ _ | with_reducible assumption | with_reducible apply ChangesOnly.ite
    | with_reducible apply ChangesOnly.foldl | (with_reducible apply ChangesOnly.step Dev.elapse_foot; decide)
    | with_reducible apply Dev.cxlDo_foot (by decide) | (with_reducible apply ChangesOnly.step Dev.cxlRespond_foot; decide)
    | with_reducible exact .pair ‹_› ‹_› | split | dsimp only

theorem execSetShutdownState_foot {h : Fin 2} {v : BitVec 8} {dt : Nat} {s : State} : ∃ s', execSetShutdownState h v dt s = .next s' ∧ s'.pending = s.pending ∧ ChangesOnly [.qtz, .heads, .out] s.dev s'.dev := by
  unfold execSetShutdownState State.run
  refine ⟨_, rfl, rfl, ?_⟩
  try dsimp only
  repeat' first
    | intro _ | with_reducible exact .refl _ _ | with_reducible assumption | with_reducible apply ChangesOnly.ite
    | with_reducible apply ChangesOnly.foldl | (with_reducible apply ChangesOnly.step Dev.elapse_foot; decide)
    | with_reducible apply Dev.cxlDo_foot (by decide) | (with_reducible apply ChangesOnly.step Dev.onHead_foot; decide)
    | (with_reducible apply ChangesOnly.step Dev.cxlRespond_foot; decide) | with_reducible exact .pair ‹_› ‹_› | split | dsimp only

theorem execGetPoisonList_foot {h : Fin 2} {a n : Nat} {dt : Nat} {s : State} : ∃ s', execGetPoisonList h a n dt s = .next s' ∧ s'.pending = s.pending ∧ ChangesOnly [.qtz, .heads, .out] s.dev s'.dev := by
  unfold execGetPoisonList State.run
  refine ⟨_, rfl, rfl, ?_⟩
  try dsimp only
  repeat' first
    | intro _ | with_reducible exact .refl _ _ | with_reducible assumption | with_reducible apply ChangesOnly.ite
    | with_reducible apply ChangesOnly.foldl | (with_reducible apply ChangesOnly.step Dev.elapse_foot; decide)
    | with_reducible apply Dev.cxlDo_foot (by decide) | (with_reducible apply ChangesOnly.step Dev.cxlRespond_foot; decide)
    | with_reducible exact .pair ‹_› ‹_› | split | dsimp only

theorem execInjectPoison_foot {h : Fin 2} {dpa : BitVec 45} {dt : Nat} {s : State} : ∃ s', execInjectPoison h dpa dt s = .next s' ∧ s'.pending = s.pending ∧ ChangesOnly [.mem, .expo, .restore, .ctxs, .dram, .flint, .qtz, .lat, .heads, .dw, .out] s.dev s'.dev := by
  unfold execInjectPoison State.run
  refine ⟨_, rfl, rfl, ?_⟩
  try dsimp only
  repeat' first
    | intro _ | with_reducible exact .refl _ _ | with_reducible assumption | with_reducible apply ChangesOnly.ite
    | with_reducible apply ChangesOnly.foldl | (with_reducible apply ChangesOnly.step Dev.elapse_foot; decide)
    | with_reducible apply Dev.cxlDo_foot (by decide) | (with_reducible apply ChangesOnly.step Dev.poisonCmd_foot; decide)
    | with_reducible exact .pair ‹_› ‹_› | split | dsimp only

theorem execClearPoison_foot {h : Fin 2} {dpa : BitVec 45} {data : BitVec 512} {dt : Nat} {s : State} : ∃ s', execClearPoison h dpa data dt s = .next s' ∧ s'.pending = s.pending ∧ ChangesOnly [.mem, .expo, .restore, .ctxs, .dram, .flint, .qtz, .lat, .heads, .dw, .out] s.dev s'.dev := by
  unfold execClearPoison State.run
  refine ⟨_, rfl, rfl, ?_⟩
  try dsimp only
  repeat' first
    | intro _ | with_reducible exact .refl _ _ | with_reducible assumption | with_reducible apply ChangesOnly.ite
    | with_reducible apply ChangesOnly.foldl | (with_reducible apply ChangesOnly.step Dev.elapse_foot; decide)
    | with_reducible apply Dev.cxlDo_foot (by decide) | (with_reducible apply ChangesOnly.step Dev.poisonCmd_foot; decide)
    | with_reducible exact .pair ‹_› ‹_› | split | dsimp only

theorem execScanMedia_foot {h : Fin 2} {dt : Nat} {s : State} : ∃ s', execScanMedia h dt s = .next s' ∧ s'.pending = s.pending ∧ ChangesOnly [.qtz, .heads, .out] s.dev s'.dev := by
  unfold execScanMedia State.run
  refine ⟨_, rfl, rfl, ?_⟩
  try dsimp only
  repeat' first
    | intro _ | with_reducible exact .refl _ _ | with_reducible assumption | with_reducible apply ChangesOnly.ite
    | with_reducible apply ChangesOnly.foldl | (with_reducible apply ChangesOnly.step Dev.elapse_foot; decide)
    | (with_reducible apply ChangesOnly.step Dev.cxlUnsup_foot; decide) | with_reducible exact .pair ‹_› ‹_› | split | dsimp only

theorem execGetEventRecords_foot {h : Fin 2} {log : Fin 5} {dt : Nat} {s : State} : ∃ s', execGetEventRecords h log dt s = .next s' ∧ s'.pending = s.pending ∧ ChangesOnly [.qtz, .heads, .out] s.dev s'.dev := by
  unfold execGetEventRecords State.run
  refine ⟨_, rfl, rfl, ?_⟩
  try dsimp only
  repeat' first
    | intro _ | with_reducible exact .refl _ _ | with_reducible assumption | with_reducible apply ChangesOnly.ite
    | with_reducible apply ChangesOnly.foldl | (with_reducible apply ChangesOnly.step Dev.elapse_foot; decide)
    | with_reducible apply Dev.cxlDo_foot (by decide) | (with_reducible apply ChangesOnly.step Dev.cxlRespond_foot; decide)
    | with_reducible exact .pair ‹_› ‹_› | split | dsimp only

theorem execClearEventRecords_foot {h : Fin 2} {log : Fin 5} {all : Bool} {handles : List Nat} {dt : Nat} {s : State} : ∃ s', execClearEventRecords h log all handles dt s = .next s' ∧ s'.pending = s.pending ∧ ChangesOnly [.qtz, .heads, .out] s.dev s'.dev := by
  unfold execClearEventRecords State.run
  refine ⟨_, rfl, rfl, ?_⟩
  try dsimp only
  repeat' first
    | intro _ | with_reducible exact .refl _ _ | with_reducible assumption | with_reducible apply ChangesOnly.ite
    | with_reducible apply ChangesOnly.foldl | (with_reducible apply ChangesOnly.step Dev.elapse_foot; decide)
    | with_reducible apply Dev.cxlDo_foot (by decide) | (with_reducible apply ChangesOnly.step Dev.cxlRespond_foot; decide)
    | (with_reducible apply ChangesOnly.step Dev.onHead_foot; decide) | with_reducible exact .pair ‹_› ‹_› | split | dsimp only

theorem execGetEventInterruptPolicy_foot {h : Fin 2} {dt : Nat} {s : State} : ∃ s', execGetEventInterruptPolicy h dt s = .next s' ∧ s'.pending = s.pending ∧ ChangesOnly [.qtz, .heads, .out] s.dev s'.dev := by
  unfold execGetEventInterruptPolicy State.run
  refine ⟨_, rfl, rfl, ?_⟩
  try dsimp only
  repeat' first
    | intro _ | with_reducible exact .refl _ _ | with_reducible assumption | with_reducible apply ChangesOnly.ite
    | with_reducible apply ChangesOnly.foldl | (with_reducible apply ChangesOnly.step Dev.elapse_foot; decide)
    | with_reducible apply Dev.cxlDo_foot (by decide) | (with_reducible apply ChangesOnly.step Dev.cxlRespond_foot; decide)
    | with_reducible exact .pair ‹_› ‹_› | split | dsimp only

theorem execSetEventInterruptPolicy_foot {h : Fin 2} {policy : BitVec 40} {dt : Nat} {s : State} : ∃ s', execSetEventInterruptPolicy h policy dt s = .next s' ∧ s'.pending = s.pending ∧ ChangesOnly [.qtz, .heads, .out] s.dev s'.dev := by
  unfold execSetEventInterruptPolicy State.run
  refine ⟨_, rfl, rfl, ?_⟩
  try dsimp only
  repeat' first
    | intro _ | with_reducible exact .refl _ _ | with_reducible assumption | with_reducible apply ChangesOnly.ite
    | with_reducible apply ChangesOnly.foldl | (with_reducible apply ChangesOnly.step Dev.elapse_foot; decide)
    | with_reducible apply Dev.cxlDo_foot (by decide) | (with_reducible apply ChangesOnly.step Dev.onHead_foot; decide)
    | (with_reducible apply ChangesOnly.step Dev.cxlRespond_foot; decide) | with_reducible exact .pair ‹_› ‹_› | split | dsimp only

theorem execGetTimestamp_foot {h : Fin 2} {dt : Nat} {s : State} : ∃ s', execGetTimestamp h dt s = .next s' ∧ s'.pending = s.pending ∧ ChangesOnly [.qtz, .heads, .out] s.dev s'.dev := by
  unfold execGetTimestamp State.run
  refine ⟨_, rfl, rfl, ?_⟩
  try dsimp only
  repeat' first
    | intro _ | with_reducible exact .refl _ _ | with_reducible assumption | with_reducible apply ChangesOnly.ite
    | with_reducible apply ChangesOnly.foldl | (with_reducible apply ChangesOnly.step Dev.elapse_foot; decide)
    | with_reducible apply Dev.cxlDo_foot (by decide) | (with_reducible apply ChangesOnly.step Dev.cxlRespond_foot; decide)
    | with_reducible exact .pair ‹_› ‹_› | split | dsimp only

theorem execSetTimestamp_foot {h : Fin 2} {v : BitVec 64} {dt : Nat} {s : State} : ∃ s', execSetTimestamp h v dt s = .next s' ∧ s'.pending = s.pending ∧ ChangesOnly [.qtz, .heads, .out] s.dev s'.dev := by
  unfold execSetTimestamp State.run
  refine ⟨_, rfl, rfl, ?_⟩
  try dsimp only
  repeat' first
    | intro _ | with_reducible exact .refl _ _ | with_reducible assumption | with_reducible apply ChangesOnly.ite
    | with_reducible apply ChangesOnly.foldl | (with_reducible apply ChangesOnly.step Dev.elapse_foot; decide)
    | with_reducible apply Dev.cxlDo_foot (by decide) | (with_reducible apply ChangesOnly.step Dev.onHead_foot; decide)
    | (with_reducible apply ChangesOnly.step Dev.cxlRespond_foot; decide) | with_reducible exact .pair ‹_› ‹_› | split | dsimp only

theorem execGetSupportedLogs_foot {h : Fin 2} {dt : Nat} {s : State} : ∃ s', execGetSupportedLogs h dt s = .next s' ∧ s'.pending = s.pending ∧ ChangesOnly [.qtz, .heads, .out] s.dev s'.dev := by
  unfold execGetSupportedLogs State.run
  refine ⟨_, rfl, rfl, ?_⟩
  try dsimp only
  repeat' first
    | intro _ | with_reducible exact .refl _ _ | with_reducible assumption | with_reducible apply ChangesOnly.ite
    | with_reducible apply ChangesOnly.foldl | (with_reducible apply ChangesOnly.step Dev.elapse_foot; decide)
    | with_reducible apply Dev.cxlDo_foot (by decide) | (with_reducible apply ChangesOnly.step Dev.cxlRespond_foot; decide)
    | with_reducible exact .pair ‹_› ‹_› | split | dsimp only

theorem execGetLog_foot {h : Fin 2} {log : BitVec 128} {off n : BitVec 32} {dt : Nat} {s : State} : ∃ s', execGetLog h log off n dt s = .next s' ∧ s'.pending = s.pending ∧ ChangesOnly [.qtz, .heads, .out] s.dev s'.dev := by
  unfold execGetLog State.run
  refine ⟨_, rfl, rfl, ?_⟩
  try dsimp only
  repeat' first
    | intro _ | with_reducible exact .refl _ _ | with_reducible assumption | with_reducible apply ChangesOnly.ite
    | with_reducible apply ChangesOnly.foldl | (with_reducible apply ChangesOnly.step Dev.elapse_foot; decide)
    | with_reducible apply Dev.cxlDo_foot (by decide) | (with_reducible apply ChangesOnly.step Dev.cxlRespond_foot; decide)
    | with_reducible exact .pair ‹_› ‹_› | split | dsimp only

theorem execGetFwInfo_foot {h : Fin 2} {dt : Nat} {s : State} : ∃ s', execGetFwInfo h dt s = .next s' ∧ s'.pending = s.pending ∧ ChangesOnly [.qtz, .heads, .out] s.dev s'.dev := by
  unfold execGetFwInfo State.run
  refine ⟨_, rfl, rfl, ?_⟩
  try dsimp only
  repeat' first
    | intro _ | with_reducible exact .refl _ _ | with_reducible assumption | with_reducible apply ChangesOnly.ite
    | with_reducible apply ChangesOnly.foldl | (with_reducible apply ChangesOnly.step Dev.elapse_foot; decide)
    | with_reducible apply Dev.cxlDo_foot (by decide) | (with_reducible apply ChangesOnly.step Dev.cxlRespond_foot; decide)
    | with_reducible exact .pair ‹_› ‹_› | split | dsimp only

theorem execTransferFw_foot {h : Fin 2} {action : Fin 5} {slot : BitVec 8} {off : BitVec 32} {data : List Byte} {dig : Nat} {facts : BitVec 4} {dt : Nat} {s : State} : ∃ s', execTransferFw h action slot off data dig facts dt s = .next s' ∧ s'.pending = s.pending ∧ ChangesOnly [.flint, .qtz, .heads, .jcs, .slate, .upd, .mirror, .out, .freeN] s.dev s'.dev := by
  unfold execTransferFw State.run
  refine ⟨_, rfl, rfl, ?_⟩
  try dsimp only
  repeat' first
    | intro _ | with_reducible exact .refl _ _ | with_reducible assumption | with_reducible apply ChangesOnly.ite
    | with_reducible apply ChangesOnly.foldl | (with_reducible apply ChangesOnly.step Dev.elapse_foot; decide)
    | with_reducible apply Dev.cxlDo_foot (by decide) | (with_reducible apply ChangesOnly.step Dev.cxlRespond_foot; decide)
    | (with_reducible apply ChangesOnly.step Dev.updConflict_foot; decide) | (with_reducible apply ChangesOnly.step Dev.updRelease_foot; decide)
    | (with_reducible apply ChangesOnly.step Dev.updYield_foot; decide) | (with_reducible apply ChangesOnly.step Dev.cxlFirst_foot; decide)
    | (with_reducible apply ChangesOnly.step Dev.cxlChunk_foot; decide) | with_reducible exact .pair ‹_› ‹_› | split | dsimp only

theorem execActivateFw_foot {h : Fin 2} {online : Bool} {slot : BitVec 8} {dt : Nat} {s : State} : ∃ s', execActivateFw h online slot dt s = .next s' ∧ s'.pending = s.pending ∧ ChangesOnly [.mem, .pkg, .expo, .sealing, .restore, .strata, .flash, .ctxs, .dram, .energy, .therm, .flint, .qtz, .lat, .heads, .jcs, .slate, .upd, .panel, .dw, .out, .freeN] s.dev s'.dev := by
  unfold execActivateFw State.run
  refine ⟨_, rfl, rfl, ?_⟩
  try dsimp only
  repeat' first
    | intro _ | with_reducible exact .refl _ _ | with_reducible assumption | with_reducible apply ChangesOnly.ite
    | with_reducible apply ChangesOnly.foldl | (with_reducible apply ChangesOnly.step Dev.elapse_foot; decide)
    | (with_reducible apply ChangesOnly.step Dev.cxlRespond_foot; decide) | with_reducible apply Dev.cxlDo_foot (by decide)
    | (with_reducible apply ChangesOnly.step Dev.updConflict_foot; decide) | (with_reducible apply ChangesOnly.step Dev.activate_foot; decide)
    | (with_reducible apply ChangesOnly.step Dev.trigger_foot; decide) | with_reducible exact .pair ‹_› ‹_› | split | dsimp only

theorem execGetDcConfig_foot {h : Fin 2} {dt : Nat} {s : State} : ∃ s', execGetDcConfig h dt s = .next s' ∧ s'.pending = s.pending ∧ ChangesOnly [.qtz, .heads, .out] s.dev s'.dev := by
  unfold execGetDcConfig State.run
  refine ⟨_, rfl, rfl, ?_⟩
  try dsimp only
  repeat' first
    | intro _ | with_reducible exact .refl _ _ | with_reducible assumption | with_reducible apply ChangesOnly.ite
    | with_reducible apply ChangesOnly.foldl | (with_reducible apply ChangesOnly.step Dev.elapse_foot; decide)
    | with_reducible apply Dev.cxlDo_foot (by decide) | (with_reducible apply ChangesOnly.step Dev.cxlRespond_foot; decide)
    | with_reducible exact .pair ‹_› ‹_› | split | dsimp only

theorem execGetDcExtentList_foot {h : Fin 2} {dt : Nat} {s : State} : ∃ s', execGetDcExtentList h dt s = .next s' ∧ s'.pending = s.pending ∧ ChangesOnly [.qtz, .heads, .out] s.dev s'.dev := by
  unfold execGetDcExtentList State.run
  refine ⟨_, rfl, rfl, ?_⟩
  try dsimp only
  repeat' first
    | intro _ | with_reducible exact .refl _ _ | with_reducible assumption | with_reducible apply ChangesOnly.ite
    | with_reducible apply ChangesOnly.foldl | (with_reducible apply ChangesOnly.step Dev.elapse_foot; decide)
    | with_reducible apply Dev.cxlDo_foot (by decide) | (with_reducible apply ChangesOnly.step Dev.cxlRespond_foot; decide)
    | with_reducible exact .pair ‹_› ‹_› | split | dsimp only

theorem execAddDcResponse_foot {h : Fin 2} {gs : List Nat} {dt : Nat} {s : State} : ∃ s', execAddDcResponse h gs dt s = .next s' ∧ s'.pending = s.pending ∧ ChangesOnly [.expo, .flash, .ctxs, .qtz, .heads, .out] s.dev s'.dev := by
  unfold execAddDcResponse State.run
  refine ⟨_, rfl, rfl, ?_⟩
  try dsimp only
  repeat' first
    | intro _ | with_reducible exact .refl _ _ | with_reducible assumption | with_reducible apply ChangesOnly.ite
    | with_reducible apply ChangesOnly.foldl | (with_reducible apply ChangesOnly.step Dev.elapse_foot; decide)
    | with_reducible apply Dev.cxlDo_foot (by decide) | (with_reducible apply ChangesOnly.step Dev.cxlRespond_foot; decide)
    | (with_reducible apply ChangesOnly.step Dev.onHead_foot; decide) | (with_reducible apply ChangesOnly.step Dev.dcTake_foot; decide)
    | with_reducible exact .pair ‹_› ‹_› | split | dsimp only

theorem execReleaseDc_foot {h : Fin 2} {gs : List Nat} {dt : Nat} {s : State} : ∃ s', execReleaseDc h gs dt s = .next s' ∧ s'.pending = s.pending ∧ ChangesOnly [.expo, .flash, .ctxs, .qtz, .heads, .out] s.dev s'.dev := by
  unfold execReleaseDc State.run
  refine ⟨_, rfl, rfl, ?_⟩
  try dsimp only
  repeat' first
    | intro _ | with_reducible exact .refl _ _ | with_reducible assumption | with_reducible apply ChangesOnly.ite
    | with_reducible apply ChangesOnly.foldl | (with_reducible apply ChangesOnly.step Dev.elapse_foot; decide)
    | with_reducible apply Dev.cxlDo_foot (by decide) | (with_reducible apply ChangesOnly.step Dev.cxlRespond_foot; decide)
    | (with_reducible apply ChangesOnly.step Dev.releaseGran_foot; decide) | (with_reducible apply ChangesOnly.step Dev.onHead_foot; decide)
    | (with_reducible apply ChangesOnly.step Dev.dcTake_foot; decide) | with_reducible exact .pair ‹_› ‹_› | split | dsimp only

theorem execCxlSanitize_foot {h : Fin 2} {dt : Nat} {s : State} : ∃ s', execCxlSanitize h dt s = .next s' ∧ s'.pending = s.pending ∧ ChangesOnly [.qtz, .heads, .out] s.dev s'.dev := by
  unfold execCxlSanitize State.run
  refine ⟨_, rfl, rfl, ?_⟩
  try dsimp only
  repeat' first
    | intro _ | with_reducible exact .refl _ _ | with_reducible assumption | with_reducible apply ChangesOnly.ite
    | with_reducible apply ChangesOnly.foldl | (with_reducible apply ChangesOnly.step Dev.elapse_foot; decide)
    | (with_reducible apply ChangesOnly.step Dev.cxlUnsup_foot; decide) | with_reducible exact .pair ‹_› ‹_› | split | dsimp only

theorem execSecureErase_foot {h : Fin 2} {dt : Nat} {s : State} : ∃ s', execSecureErase h dt s = .next s' ∧ s'.pending = s.pending ∧ ChangesOnly [.qtz, .heads, .out] s.dev s'.dev := by
  unfold execSecureErase State.run
  refine ⟨_, rfl, rfl, ?_⟩
  try dsimp only
  repeat' first
    | intro _ | with_reducible exact .refl _ _ | with_reducible assumption | with_reducible apply ChangesOnly.ite
    | with_reducible apply ChangesOnly.foldl | (with_reducible apply ChangesOnly.step Dev.elapse_foot; decide)
    | (with_reducible apply ChangesOnly.step Dev.cxlUnsup_foot; decide) | with_reducible exact .pair ‹_› ‹_› | split | dsimp only

theorem execGetLsa_foot {h : Fin 2} {dt : Nat} {s : State} : ∃ s', execGetLsa h dt s = .next s' ∧ s'.pending = s.pending ∧ ChangesOnly [.qtz, .heads, .out] s.dev s'.dev := by
  unfold execGetLsa State.run
  refine ⟨_, rfl, rfl, ?_⟩
  try dsimp only
  repeat' first
    | intro _ | with_reducible exact .refl _ _ | with_reducible assumption | with_reducible apply ChangesOnly.ite
    | with_reducible apply ChangesOnly.foldl | (with_reducible apply ChangesOnly.step Dev.elapse_foot; decide)
    | (with_reducible apply ChangesOnly.step Dev.cxlUnsup_foot; decide) | with_reducible exact .pair ‹_› ‹_› | split | dsimp only

theorem execSetLsa_foot {h : Fin 2} {dt : Nat} {s : State} : ∃ s', execSetLsa h dt s = .next s' ∧ s'.pending = s.pending ∧ ChangesOnly [.qtz, .heads, .out] s.dev s'.dev := by
  unfold execSetLsa State.run
  refine ⟨_, rfl, rfl, ?_⟩
  try dsimp only
  repeat' first
    | intro _ | with_reducible exact .refl _ _ | with_reducible assumption | with_reducible apply ChangesOnly.ite
    | with_reducible apply ChangesOnly.foldl | (with_reducible apply ChangesOnly.step Dev.elapse_foot; decide)
    | (with_reducible apply ChangesOnly.step Dev.cxlUnsup_foot; decide) | with_reducible exact .pair ‹_› ‹_› | split | dsimp only

theorem execMailboxDoorbell_foot {h : Fin 2} {opcode : BitVec 16} {payload : List Byte} {dt : Nat} {s : State} : ∃ s', execMailboxDoorbell h opcode payload dt s = .next s' ∧ s'.pending = s.pending ∧ ChangesOnly [.mem, .pkg, .expo, .sealing, .restore, .strata, .flash, .ctxs, .dram, .energy, .therm, .flint, .qtz, .snap, .lat, .heads, .jcs, .slate, .upd, .panel, .mirror, .dw, .out, .freeN] s.dev s'.dev := by
  unfold execMailboxDoorbell State.run
  refine ⟨_, rfl, rfl, ?_⟩
  try dsimp only
  repeat' first
    | intro _ | with_reducible exact .refl _ _ | with_reducible assumption | with_reducible apply ChangesOnly.ite
    | with_reducible apply ChangesOnly.foldl | (with_reducible apply ChangesOnly.step Dev.elapse_foot; decide)
    | (with_reducible apply ChangesOnly.step Dev.onHead_foot; decide) | (with_reducible apply ChangesOnly.step Dev.submit_foot; decide)
    | with_reducible exact .pair ‹_› ‹_› | split | dsimp only

theorem execMctpRequest_foot {eid : BitVec 8} {tag opcode : BitVec 16} {payload : List Byte} {dt : Nat} {s : State} : ∃ s', execMctpRequest eid tag opcode payload dt s = .next s' ∧ s'.pending = s.pending ∧ ChangesOnly [.mem, .pkg, .expo, .sealing, .restore, .strata, .flash, .ctxs, .dram, .energy, .therm, .flint, .qtz, .snap, .lat, .heads, .jcs, .slate, .upd, .panel, .mirror, .dw, .out, .freeN] s.dev s'.dev := by
  unfold execMctpRequest State.run
  refine ⟨_, rfl, rfl, ?_⟩
  try dsimp only
  repeat' first
    | intro _ | with_reducible exact .refl _ _ | with_reducible assumption | with_reducible apply ChangesOnly.ite
    | with_reducible apply ChangesOnly.foldl | (with_reducible apply ChangesOnly.step Dev.onJcs_foot; decide)
    | (with_reducible apply ChangesOnly.step Dev.elapse_foot; decide) | (with_reducible apply ChangesOnly.step Dev.emit_foot; decide)
    | (with_reducible apply ChangesOnly.step Dev.respond_foot; decide) | (with_reducible apply ChangesOnly.step Dev.submit_foot; decide)
    | with_reducible exact .pair ‹_› ‹_› | split | dsimp only

theorem execJcsRelay_foot {l : Fin 6} {uid : Nat} {tag opcode : BitVec 16} {payload : List Byte} {dt : Nat} {s : State} : ∃ s', execJcsRelay l uid tag opcode payload dt s = .next s' ∧ s'.pending = s.pending ∧ ChangesOnly [.mem, .pkg, .expo, .sealing, .restore, .strata, .flash, .ctxs, .dram, .energy, .therm, .flint, .qtz, .snap, .lat, .heads, .jcs, .slate, .upd, .panel, .mirror, .dw, .out, .freeN] s.dev s'.dev := by
  unfold execJcsRelay State.run
  refine ⟨_, rfl, rfl, ?_⟩
  try dsimp only
  repeat' first
    | intro _ | with_reducible exact .refl _ _ | with_reducible assumption | with_reducible apply ChangesOnly.ite
    | with_reducible apply ChangesOnly.foldl | (with_reducible apply ChangesOnly.step Dev.elapse_foot; decide)
    | (with_reducible apply ChangesOnly.step Dev.rxFrames_foot; decide) | (with_reducible apply ChangesOnly.step Dev.respond_foot; decide)
    | (with_reducible apply ChangesOnly.step Dev.submit_foot; decide) | with_reducible exact .pair ‹_› ‹_› | split | dsimp only

theorem execCommandDispatch_foot {dt : Nat} {s : State} : ∃ s', execCommandDispatch dt s = .next s' ∧ s'.pending = s.pending ∧ ChangesOnly [.mem, .pkg, .expo, .sealing, .restore, .strata, .flash, .ctxs, .dram, .energy, .therm, .flint, .qtz, .snap, .lat, .heads, .jcs, .slate, .upd, .panel, .mirror, .dw, .out, .freeN] s.dev s'.dev := by
  unfold execCommandDispatch State.run
  refine ⟨_, rfl, rfl, ?_⟩
  try dsimp only
  repeat' first
    | intro _ | with_reducible exact .refl _ _ | with_reducible assumption | with_reducible apply ChangesOnly.ite
    | with_reducible apply ChangesOnly.foldl | (with_reducible apply ChangesOnly.step Dev.onJcs_foot; decide)
    | (with_reducible apply ChangesOnly.step Dev.elapse_foot; decide) | (with_reducible apply ChangesOnly.step Dev.jcsRun_foot; decide)
    | (with_reducible apply ChangesOnly.step Dev.respond_foot; decide) | (with_reducible apply ChangesOnly.step Dev.mirrorNow_foot; decide)
    | with_reducible exact .pair ‹_› ‹_› | split | dsimp only

theorem execLeaseTimeout_foot {res : Nat} {dt : Nat} {s : State} : ∃ s', execLeaseTimeout res dt s = .next s' ∧ s'.pending = s.pending ∧ ChangesOnly [.qtz, .jcs, .mirror] s.dev s'.dev := by
  unfold execLeaseTimeout State.run
  refine ⟨_, rfl, rfl, ?_⟩
  try dsimp only
  repeat' first
    | intro _ | with_reducible exact .refl _ _ | with_reducible assumption | with_reducible apply ChangesOnly.ite
    | with_reducible apply ChangesOnly.foldl | (with_reducible apply ChangesOnly.step Dev.elapse_foot; decide)
    | (with_reducible apply ChangesOnly.step Dev.endLease_foot; decide) | with_reducible exact .pair ‹_› ‹_› | split | dsimp only

theorem execBackgroundComplete_foot {p : Fin 3} {dt : Nat} {s : State} : ∃ s', execBackgroundComplete p dt s = .next s' ∧ s'.pending = s.pending ∧ ChangesOnly [.qtz, .heads, .jcs, .mirror] s.dev s'.dev := by
  unfold execBackgroundComplete State.run
  refine ⟨_, rfl, rfl, ?_⟩
  try dsimp only
  repeat' first
    | intro _ | with_reducible exact .refl _ _ | with_reducible assumption | with_reducible apply ChangesOnly.ite
    | with_reducible apply ChangesOnly.foldl | (with_reducible apply ChangesOnly.step Dev.elapse_foot; decide)
    | (with_reducible apply ChangesOnly.step Dev.bgEnd_foot; decide) | with_reducible exact .pair ‹_› ‹_› | split | dsimp only

theorem execDwWriteDiscarded_foot {h : Fin 2} {off : BitVec 27} {dt : Nat} {s : State} : ∃ s', execDwWriteDiscarded h off dt s = .next s' ∧ s'.pending = s.pending ∧ ChangesOnly [.flint, .qtz] s.dev s'.dev := by
  unfold execDwWriteDiscarded State.run
  refine ⟨_, rfl, rfl, ?_⟩
  try dsimp only
  repeat' first
    | intro _ | with_reducible exact .refl _ _ | with_reducible assumption | with_reducible apply ChangesOnly.ite
    | with_reducible apply ChangesOnly.foldl | (with_reducible apply ChangesOnly.step Dev.elapse_foot; decide)
    | (with_reducible apply ChangesOnly.step Dev.raise_foot; decide) | with_reducible exact .pair ‹_› ‹_› | split | dsimp only

end Sys2Proof.Machine
end

