-- ==== Sys2Proof/Laws/State.lean ====
section
/-! SUPPORT. What each update of a part of the state reads back as, field by field. -/

namespace Sys2Proof.Machine

@[simp] theorem onMem_mem (d : Dev) (f : Mem → Mem) : (d.onMem f).mem = f d.mem := rfl
@[simp] theorem onMem_pkg (d : Dev) (f : Mem → Mem) : (d.onMem f).pkg = d.pkg := rfl
@[simp] theorem onMem_expo (d : Dev) (f : Mem → Mem) : (d.onMem f).expo = d.expo := rfl
@[simp] theorem onMem_sealing (d : Dev) (f : Mem → Mem) : (d.onMem f).sealing = d.sealing := rfl
@[simp] theorem onMem_restore (d : Dev) (f : Mem → Mem) : (d.onMem f).restore = d.restore := rfl
@[simp] theorem onMem_strata (d : Dev) (f : Mem → Mem) : (d.onMem f).strata = d.strata := rfl
@[simp] theorem onMem_flash (d : Dev) (f : Mem → Mem) : (d.onMem f).flash = d.flash := rfl
@[simp] theorem onMem_ctxs (d : Dev) (f : Mem → Mem) : (d.onMem f).ctxs = d.ctxs := rfl
@[simp] theorem onMem_dram (d : Dev) (f : Mem → Mem) : (d.onMem f).dram = d.dram := rfl
@[simp] theorem onMem_energy (d : Dev) (f : Mem → Mem) : (d.onMem f).energy = d.energy := rfl
@[simp] theorem onMem_therm (d : Dev) (f : Mem → Mem) : (d.onMem f).therm = d.therm := rfl
@[simp] theorem onMem_flint (d : Dev) (f : Mem → Mem) : (d.onMem f).flint = d.flint := rfl
@[simp] theorem onMem_qtz (d : Dev) (f : Mem → Mem) : (d.onMem f).qtz = d.qtz := rfl
@[simp] theorem onMem_snap (d : Dev) (f : Mem → Mem) : (d.onMem f).snap = d.snap := rfl
@[simp] theorem onMem_lat (d : Dev) (f : Mem → Mem) : (d.onMem f).lat = d.lat := rfl
@[simp] theorem onMem_heads (d : Dev) (f : Mem → Mem) : (d.onMem f).heads = d.heads := rfl
@[simp] theorem onMem_jcs (d : Dev) (f : Mem → Mem) : (d.onMem f).jcs = d.jcs := rfl
@[simp] theorem onMem_slate (d : Dev) (f : Mem → Mem) : (d.onMem f).slate = d.slate := rfl
@[simp] theorem onMem_upd (d : Dev) (f : Mem → Mem) : (d.onMem f).upd = d.upd := rfl
@[simp] theorem onMem_panel (d : Dev) (f : Mem → Mem) : (d.onMem f).panel = d.panel := rfl
@[simp] theorem onMem_mirror (d : Dev) (f : Mem → Mem) : (d.onMem f).mirror = d.mirror := rfl
@[simp] theorem onMem_dw (d : Dev) (f : Mem → Mem) : (d.onMem f).dw = d.dw := rfl
@[simp] theorem onMem_out (d : Dev) (f : Mem → Mem) : (d.onMem f).out = d.out := rfl
@[simp] theorem onMem_freeN (d : Dev) (f : Mem → Mem) : (d.onMem f).freeN = d.freeN := rfl
@[simp] theorem onPkg_mem (d : Dev) (f : Pkg → Pkg) : (d.onPkg f).mem = d.mem := rfl
@[simp] theorem onPkg_pkg (d : Dev) (f : Pkg → Pkg) : (d.onPkg f).pkg = f d.pkg := rfl
@[simp] theorem onPkg_expo (d : Dev) (f : Pkg → Pkg) : (d.onPkg f).expo = d.expo := rfl
@[simp] theorem onPkg_sealing (d : Dev) (f : Pkg → Pkg) : (d.onPkg f).sealing = d.sealing := rfl
@[simp] theorem onPkg_restore (d : Dev) (f : Pkg → Pkg) : (d.onPkg f).restore = d.restore := rfl
@[simp] theorem onPkg_strata (d : Dev) (f : Pkg → Pkg) : (d.onPkg f).strata = d.strata := rfl
@[simp] theorem onPkg_flash (d : Dev) (f : Pkg → Pkg) : (d.onPkg f).flash = d.flash := rfl
@[simp] theorem onPkg_ctxs (d : Dev) (f : Pkg → Pkg) : (d.onPkg f).ctxs = d.ctxs := rfl
@[simp] theorem onPkg_dram (d : Dev) (f : Pkg → Pkg) : (d.onPkg f).dram = d.dram := rfl
@[simp] theorem onPkg_energy (d : Dev) (f : Pkg → Pkg) : (d.onPkg f).energy = d.energy := rfl
@[simp] theorem onPkg_therm (d : Dev) (f : Pkg → Pkg) : (d.onPkg f).therm = d.therm := rfl
@[simp] theorem onPkg_flint (d : Dev) (f : Pkg → Pkg) : (d.onPkg f).flint = d.flint := rfl
@[simp] theorem onPkg_qtz (d : Dev) (f : Pkg → Pkg) : (d.onPkg f).qtz = d.qtz := rfl
@[simp] theorem onPkg_snap (d : Dev) (f : Pkg → Pkg) : (d.onPkg f).snap = d.snap := rfl
@[simp] theorem onPkg_lat (d : Dev) (f : Pkg → Pkg) : (d.onPkg f).lat = d.lat := rfl
@[simp] theorem onPkg_heads (d : Dev) (f : Pkg → Pkg) : (d.onPkg f).heads = d.heads := rfl
@[simp] theorem onPkg_jcs (d : Dev) (f : Pkg → Pkg) : (d.onPkg f).jcs = d.jcs := rfl
@[simp] theorem onPkg_slate (d : Dev) (f : Pkg → Pkg) : (d.onPkg f).slate = d.slate := rfl
@[simp] theorem onPkg_upd (d : Dev) (f : Pkg → Pkg) : (d.onPkg f).upd = d.upd := rfl
@[simp] theorem onPkg_panel (d : Dev) (f : Pkg → Pkg) : (d.onPkg f).panel = d.panel := rfl
@[simp] theorem onPkg_mirror (d : Dev) (f : Pkg → Pkg) : (d.onPkg f).mirror = d.mirror := rfl
@[simp] theorem onPkg_dw (d : Dev) (f : Pkg → Pkg) : (d.onPkg f).dw = d.dw := rfl
@[simp] theorem onPkg_out (d : Dev) (f : Pkg → Pkg) : (d.onPkg f).out = d.out := rfl
@[simp] theorem onPkg_freeN (d : Dev) (f : Pkg → Pkg) : (d.onPkg f).freeN = d.freeN := rfl
@[simp] theorem onExpo_mem (d : Dev) (f : Expo → Expo) : (d.onExpo f).mem = d.mem := rfl
@[simp] theorem onExpo_pkg (d : Dev) (f : Expo → Expo) : (d.onExpo f).pkg = d.pkg := rfl
@[simp] theorem onExpo_expo (d : Dev) (f : Expo → Expo) : (d.onExpo f).expo = f d.expo := rfl
@[simp] theorem onExpo_sealing (d : Dev) (f : Expo → Expo) : (d.onExpo f).sealing = d.sealing := rfl
@[simp] theorem onExpo_restore (d : Dev) (f : Expo → Expo) : (d.onExpo f).restore = d.restore := rfl
@[simp] theorem onExpo_strata (d : Dev) (f : Expo → Expo) : (d.onExpo f).strata = d.strata := rfl
@[simp] theorem onExpo_flash (d : Dev) (f : Expo → Expo) : (d.onExpo f).flash = d.flash := rfl
@[simp] theorem onExpo_ctxs (d : Dev) (f : Expo → Expo) : (d.onExpo f).ctxs = d.ctxs := rfl
@[simp] theorem onExpo_dram (d : Dev) (f : Expo → Expo) : (d.onExpo f).dram = d.dram := rfl
@[simp] theorem onExpo_energy (d : Dev) (f : Expo → Expo) : (d.onExpo f).energy = d.energy := rfl
@[simp] theorem onExpo_therm (d : Dev) (f : Expo → Expo) : (d.onExpo f).therm = d.therm := rfl
@[simp] theorem onExpo_flint (d : Dev) (f : Expo → Expo) : (d.onExpo f).flint = d.flint := rfl
@[simp] theorem onExpo_qtz (d : Dev) (f : Expo → Expo) : (d.onExpo f).qtz = d.qtz := rfl
@[simp] theorem onExpo_snap (d : Dev) (f : Expo → Expo) : (d.onExpo f).snap = d.snap := rfl
@[simp] theorem onExpo_lat (d : Dev) (f : Expo → Expo) : (d.onExpo f).lat = d.lat := rfl
@[simp] theorem onExpo_heads (d : Dev) (f : Expo → Expo) : (d.onExpo f).heads = d.heads := rfl
@[simp] theorem onExpo_jcs (d : Dev) (f : Expo → Expo) : (d.onExpo f).jcs = d.jcs := rfl
@[simp] theorem onExpo_slate (d : Dev) (f : Expo → Expo) : (d.onExpo f).slate = d.slate := rfl
@[simp] theorem onExpo_upd (d : Dev) (f : Expo → Expo) : (d.onExpo f).upd = d.upd := rfl
@[simp] theorem onExpo_panel (d : Dev) (f : Expo → Expo) : (d.onExpo f).panel = d.panel := rfl
@[simp] theorem onExpo_mirror (d : Dev) (f : Expo → Expo) : (d.onExpo f).mirror = d.mirror := rfl
@[simp] theorem onExpo_dw (d : Dev) (f : Expo → Expo) : (d.onExpo f).dw = d.dw := rfl
@[simp] theorem onExpo_out (d : Dev) (f : Expo → Expo) : (d.onExpo f).out = d.out := rfl
@[simp] theorem onExpo_freeN (d : Dev) (f : Expo → Expo) : (d.onExpo f).freeN = d.freeN := rfl
@[simp] theorem onSealing_mem (d : Dev) (f : Seal → Seal) : (d.onSealing f).mem = d.mem := rfl
@[simp] theorem onSealing_pkg (d : Dev) (f : Seal → Seal) : (d.onSealing f).pkg = d.pkg := rfl
@[simp] theorem onSealing_expo (d : Dev) (f : Seal → Seal) : (d.onSealing f).expo = d.expo := rfl
@[simp] theorem onSealing_sealing (d : Dev) (f : Seal → Seal) : (d.onSealing f).sealing = f d.sealing := rfl
@[simp] theorem onSealing_restore (d : Dev) (f : Seal → Seal) : (d.onSealing f).restore = d.restore := rfl
@[simp] theorem onSealing_strata (d : Dev) (f : Seal → Seal) : (d.onSealing f).strata = d.strata := rfl
@[simp] theorem onSealing_flash (d : Dev) (f : Seal → Seal) : (d.onSealing f).flash = d.flash := rfl
@[simp] theorem onSealing_ctxs (d : Dev) (f : Seal → Seal) : (d.onSealing f).ctxs = d.ctxs := rfl
@[simp] theorem onSealing_dram (d : Dev) (f : Seal → Seal) : (d.onSealing f).dram = d.dram := rfl
@[simp] theorem onSealing_energy (d : Dev) (f : Seal → Seal) : (d.onSealing f).energy = d.energy := rfl
@[simp] theorem onSealing_therm (d : Dev) (f : Seal → Seal) : (d.onSealing f).therm = d.therm := rfl
@[simp] theorem onSealing_flint (d : Dev) (f : Seal → Seal) : (d.onSealing f).flint = d.flint := rfl
@[simp] theorem onSealing_qtz (d : Dev) (f : Seal → Seal) : (d.onSealing f).qtz = d.qtz := rfl
@[simp] theorem onSealing_snap (d : Dev) (f : Seal → Seal) : (d.onSealing f).snap = d.snap := rfl
@[simp] theorem onSealing_lat (d : Dev) (f : Seal → Seal) : (d.onSealing f).lat = d.lat := rfl
@[simp] theorem onSealing_heads (d : Dev) (f : Seal → Seal) : (d.onSealing f).heads = d.heads := rfl
@[simp] theorem onSealing_jcs (d : Dev) (f : Seal → Seal) : (d.onSealing f).jcs = d.jcs := rfl
@[simp] theorem onSealing_slate (d : Dev) (f : Seal → Seal) : (d.onSealing f).slate = d.slate := rfl
@[simp] theorem onSealing_upd (d : Dev) (f : Seal → Seal) : (d.onSealing f).upd = d.upd := rfl
@[simp] theorem onSealing_panel (d : Dev) (f : Seal → Seal) : (d.onSealing f).panel = d.panel := rfl
@[simp] theorem onSealing_mirror (d : Dev) (f : Seal → Seal) : (d.onSealing f).mirror = d.mirror := rfl
@[simp] theorem onSealing_dw (d : Dev) (f : Seal → Seal) : (d.onSealing f).dw = d.dw := rfl
@[simp] theorem onSealing_out (d : Dev) (f : Seal → Seal) : (d.onSealing f).out = d.out := rfl
@[simp] theorem onSealing_freeN (d : Dev) (f : Seal → Seal) : (d.onSealing f).freeN = d.freeN := rfl
@[simp] theorem onRestore_mem (d : Dev) (f : Restore → Restore) : (d.onRestore f).mem = d.mem := rfl
@[simp] theorem onRestore_pkg (d : Dev) (f : Restore → Restore) : (d.onRestore f).pkg = d.pkg := rfl
@[simp] theorem onRestore_expo (d : Dev) (f : Restore → Restore) : (d.onRestore f).expo = d.expo := rfl
@[simp] theorem onRestore_sealing (d : Dev) (f : Restore → Restore) : (d.onRestore f).sealing = d.sealing := rfl
@[simp] theorem onRestore_restore (d : Dev) (f : Restore → Restore) : (d.onRestore f).restore = f d.restore := rfl
@[simp] theorem onRestore_strata (d : Dev) (f : Restore → Restore) : (d.onRestore f).strata = d.strata := rfl
@[simp] theorem onRestore_flash (d : Dev) (f : Restore → Restore) : (d.onRestore f).flash = d.flash := rfl
@[simp] theorem onRestore_ctxs (d : Dev) (f : Restore → Restore) : (d.onRestore f).ctxs = d.ctxs := rfl
@[simp] theorem onRestore_dram (d : Dev) (f : Restore → Restore) : (d.onRestore f).dram = d.dram := rfl
@[simp] theorem onRestore_energy (d : Dev) (f : Restore → Restore) : (d.onRestore f).energy = d.energy := rfl
@[simp] theorem onRestore_therm (d : Dev) (f : Restore → Restore) : (d.onRestore f).therm = d.therm := rfl
@[simp] theorem onRestore_flint (d : Dev) (f : Restore → Restore) : (d.onRestore f).flint = d.flint := rfl
@[simp] theorem onRestore_qtz (d : Dev) (f : Restore → Restore) : (d.onRestore f).qtz = d.qtz := rfl
@[simp] theorem onRestore_snap (d : Dev) (f : Restore → Restore) : (d.onRestore f).snap = d.snap := rfl
@[simp] theorem onRestore_lat (d : Dev) (f : Restore → Restore) : (d.onRestore f).lat = d.lat := rfl
@[simp] theorem onRestore_heads (d : Dev) (f : Restore → Restore) : (d.onRestore f).heads = d.heads := rfl
@[simp] theorem onRestore_jcs (d : Dev) (f : Restore → Restore) : (d.onRestore f).jcs = d.jcs := rfl
@[simp] theorem onRestore_slate (d : Dev) (f : Restore → Restore) : (d.onRestore f).slate = d.slate := rfl
@[simp] theorem onRestore_upd (d : Dev) (f : Restore → Restore) : (d.onRestore f).upd = d.upd := rfl
@[simp] theorem onRestore_panel (d : Dev) (f : Restore → Restore) : (d.onRestore f).panel = d.panel := rfl
@[simp] theorem onRestore_mirror (d : Dev) (f : Restore → Restore) : (d.onRestore f).mirror = d.mirror := rfl
@[simp] theorem onRestore_dw (d : Dev) (f : Restore → Restore) : (d.onRestore f).dw = d.dw := rfl
@[simp] theorem onRestore_out (d : Dev) (f : Restore → Restore) : (d.onRestore f).out = d.out := rfl
@[simp] theorem onRestore_freeN (d : Dev) (f : Restore → Restore) : (d.onRestore f).freeN = d.freeN := rfl
@[simp] theorem onStrata_mem (d : Dev) (f : Strata → Strata) : (d.onStrata f).mem = d.mem := rfl
@[simp] theorem onStrata_pkg (d : Dev) (f : Strata → Strata) : (d.onStrata f).pkg = d.pkg := rfl
@[simp] theorem onStrata_expo (d : Dev) (f : Strata → Strata) : (d.onStrata f).expo = d.expo := rfl
@[simp] theorem onStrata_sealing (d : Dev) (f : Strata → Strata) : (d.onStrata f).sealing = d.sealing := rfl
@[simp] theorem onStrata_restore (d : Dev) (f : Strata → Strata) : (d.onStrata f).restore = d.restore := rfl
@[simp] theorem onStrata_strata (d : Dev) (f : Strata → Strata) : (d.onStrata f).strata = f d.strata := rfl
@[simp] theorem onStrata_flash (d : Dev) (f : Strata → Strata) : (d.onStrata f).flash = d.flash := rfl
@[simp] theorem onStrata_ctxs (d : Dev) (f : Strata → Strata) : (d.onStrata f).ctxs = d.ctxs := rfl
@[simp] theorem onStrata_dram (d : Dev) (f : Strata → Strata) : (d.onStrata f).dram = d.dram := rfl
@[simp] theorem onStrata_energy (d : Dev) (f : Strata → Strata) : (d.onStrata f).energy = d.energy := rfl
@[simp] theorem onStrata_therm (d : Dev) (f : Strata → Strata) : (d.onStrata f).therm = d.therm := rfl
@[simp] theorem onStrata_flint (d : Dev) (f : Strata → Strata) : (d.onStrata f).flint = d.flint := rfl
@[simp] theorem onStrata_qtz (d : Dev) (f : Strata → Strata) : (d.onStrata f).qtz = d.qtz := rfl
@[simp] theorem onStrata_snap (d : Dev) (f : Strata → Strata) : (d.onStrata f).snap = d.snap := rfl
@[simp] theorem onStrata_lat (d : Dev) (f : Strata → Strata) : (d.onStrata f).lat = d.lat := rfl
@[simp] theorem onStrata_heads (d : Dev) (f : Strata → Strata) : (d.onStrata f).heads = d.heads := rfl
@[simp] theorem onStrata_jcs (d : Dev) (f : Strata → Strata) : (d.onStrata f).jcs = d.jcs := rfl
@[simp] theorem onStrata_slate (d : Dev) (f : Strata → Strata) : (d.onStrata f).slate = d.slate := rfl
@[simp] theorem onStrata_upd (d : Dev) (f : Strata → Strata) : (d.onStrata f).upd = d.upd := rfl
@[simp] theorem onStrata_panel (d : Dev) (f : Strata → Strata) : (d.onStrata f).panel = d.panel := rfl
@[simp] theorem onStrata_mirror (d : Dev) (f : Strata → Strata) : (d.onStrata f).mirror = d.mirror := rfl
@[simp] theorem onStrata_dw (d : Dev) (f : Strata → Strata) : (d.onStrata f).dw = d.dw := rfl
@[simp] theorem onStrata_out (d : Dev) (f : Strata → Strata) : (d.onStrata f).out = d.out := rfl
@[simp] theorem onStrata_freeN (d : Dev) (f : Strata → Strata) : (d.onStrata f).freeN = d.freeN := rfl
@[simp] theorem onFlash_mem (d : Dev) (f : (Tbl TileFlash) → Tbl TileFlash) : (d.onFlash f).mem = d.mem := rfl
@[simp] theorem onFlash_pkg (d : Dev) (f : (Tbl TileFlash) → Tbl TileFlash) : (d.onFlash f).pkg = d.pkg := rfl
@[simp] theorem onFlash_expo (d : Dev) (f : (Tbl TileFlash) → Tbl TileFlash) : (d.onFlash f).expo = d.expo := rfl
@[simp] theorem onFlash_sealing (d : Dev) (f : (Tbl TileFlash) → Tbl TileFlash) : (d.onFlash f).sealing = d.sealing := rfl
@[simp] theorem onFlash_restore (d : Dev) (f : (Tbl TileFlash) → Tbl TileFlash) : (d.onFlash f).restore = d.restore := rfl
@[simp] theorem onFlash_strata (d : Dev) (f : (Tbl TileFlash) → Tbl TileFlash) : (d.onFlash f).strata = d.strata := rfl
@[simp] theorem onFlash_flash (d : Dev) (f : (Tbl TileFlash) → Tbl TileFlash) : (d.onFlash f).flash = f d.flash := rfl
@[simp] theorem onFlash_ctxs (d : Dev) (f : (Tbl TileFlash) → Tbl TileFlash) : (d.onFlash f).ctxs = d.ctxs := rfl
@[simp] theorem onFlash_dram (d : Dev) (f : (Tbl TileFlash) → Tbl TileFlash) : (d.onFlash f).dram = d.dram := rfl
@[simp] theorem onFlash_energy (d : Dev) (f : (Tbl TileFlash) → Tbl TileFlash) : (d.onFlash f).energy = d.energy := rfl
@[simp] theorem onFlash_therm (d : Dev) (f : (Tbl TileFlash) → Tbl TileFlash) : (d.onFlash f).therm = d.therm := rfl
@[simp] theorem onFlash_flint (d : Dev) (f : (Tbl TileFlash) → Tbl TileFlash) : (d.onFlash f).flint = d.flint := rfl
@[simp] theorem onFlash_qtz (d : Dev) (f : (Tbl TileFlash) → Tbl TileFlash) : (d.onFlash f).qtz = d.qtz := rfl
@[simp] theorem onFlash_snap (d : Dev) (f : (Tbl TileFlash) → Tbl TileFlash) : (d.onFlash f).snap = d.snap := rfl
@[simp] theorem onFlash_lat (d : Dev) (f : (Tbl TileFlash) → Tbl TileFlash) : (d.onFlash f).lat = d.lat := rfl
@[simp] theorem onFlash_heads (d : Dev) (f : (Tbl TileFlash) → Tbl TileFlash) : (d.onFlash f).heads = d.heads := rfl
@[simp] theorem onFlash_jcs (d : Dev) (f : (Tbl TileFlash) → Tbl TileFlash) : (d.onFlash f).jcs = d.jcs := rfl
@[simp] theorem onFlash_slate (d : Dev) (f : (Tbl TileFlash) → Tbl TileFlash) : (d.onFlash f).slate = d.slate := rfl
@[simp] theorem onFlash_upd (d : Dev) (f : (Tbl TileFlash) → Tbl TileFlash) : (d.onFlash f).upd = d.upd := rfl
@[simp] theorem onFlash_panel (d : Dev) (f : (Tbl TileFlash) → Tbl TileFlash) : (d.onFlash f).panel = d.panel := rfl
@[simp] theorem onFlash_mirror (d : Dev) (f : (Tbl TileFlash) → Tbl TileFlash) : (d.onFlash f).mirror = d.mirror := rfl
@[simp] theorem onFlash_dw (d : Dev) (f : (Tbl TileFlash) → Tbl TileFlash) : (d.onFlash f).dw = d.dw := rfl
@[simp] theorem onFlash_out (d : Dev) (f : (Tbl TileFlash) → Tbl TileFlash) : (d.onFlash f).out = d.out := rfl
@[simp] theorem onFlash_freeN (d : Dev) (f : (Tbl TileFlash) → Tbl TileFlash) : (d.onFlash f).freeN = d.freeN := rfl
@[simp] theorem onCtxs_mem (d : Dev) (f : Ctxs → Ctxs) : (d.onCtxs f).mem = d.mem := rfl
@[simp] theorem onCtxs_pkg (d : Dev) (f : Ctxs → Ctxs) : (d.onCtxs f).pkg = d.pkg := rfl
@[simp] theorem onCtxs_expo (d : Dev) (f : Ctxs → Ctxs) : (d.onCtxs f).expo = d.expo := rfl
@[simp] theorem onCtxs_sealing (d : Dev) (f : Ctxs → Ctxs) : (d.onCtxs f).sealing = d.sealing := rfl
@[simp] theorem onCtxs_restore (d : Dev) (f : Ctxs → Ctxs) : (d.onCtxs f).restore = d.restore := rfl
@[simp] theorem onCtxs_strata (d : Dev) (f : Ctxs → Ctxs) : (d.onCtxs f).strata = d.strata := rfl
@[simp] theorem onCtxs_flash (d : Dev) (f : Ctxs → Ctxs) : (d.onCtxs f).flash = d.flash := rfl
@[simp] theorem onCtxs_ctxs (d : Dev) (f : Ctxs → Ctxs) : (d.onCtxs f).ctxs = f d.ctxs := rfl
@[simp] theorem onCtxs_dram (d : Dev) (f : Ctxs → Ctxs) : (d.onCtxs f).dram = d.dram := rfl
@[simp] theorem onCtxs_energy (d : Dev) (f : Ctxs → Ctxs) : (d.onCtxs f).energy = d.energy := rfl
@[simp] theorem onCtxs_therm (d : Dev) (f : Ctxs → Ctxs) : (d.onCtxs f).therm = d.therm := rfl
@[simp] theorem onCtxs_flint (d : Dev) (f : Ctxs → Ctxs) : (d.onCtxs f).flint = d.flint := rfl
@[simp] theorem onCtxs_qtz (d : Dev) (f : Ctxs → Ctxs) : (d.onCtxs f).qtz = d.qtz := rfl
@[simp] theorem onCtxs_snap (d : Dev) (f : Ctxs → Ctxs) : (d.onCtxs f).snap = d.snap := rfl
@[simp] theorem onCtxs_lat (d : Dev) (f : Ctxs → Ctxs) : (d.onCtxs f).lat = d.lat := rfl
@[simp] theorem onCtxs_heads (d : Dev) (f : Ctxs → Ctxs) : (d.onCtxs f).heads = d.heads := rfl
@[simp] theorem onCtxs_jcs (d : Dev) (f : Ctxs → Ctxs) : (d.onCtxs f).jcs = d.jcs := rfl
@[simp] theorem onCtxs_slate (d : Dev) (f : Ctxs → Ctxs) : (d.onCtxs f).slate = d.slate := rfl
@[simp] theorem onCtxs_upd (d : Dev) (f : Ctxs → Ctxs) : (d.onCtxs f).upd = d.upd := rfl
@[simp] theorem onCtxs_panel (d : Dev) (f : Ctxs → Ctxs) : (d.onCtxs f).panel = d.panel := rfl
@[simp] theorem onCtxs_mirror (d : Dev) (f : Ctxs → Ctxs) : (d.onCtxs f).mirror = d.mirror := rfl
@[simp] theorem onCtxs_dw (d : Dev) (f : Ctxs → Ctxs) : (d.onCtxs f).dw = d.dw := rfl
@[simp] theorem onCtxs_out (d : Dev) (f : Ctxs → Ctxs) : (d.onCtxs f).out = d.out := rfl
@[simp] theorem onCtxs_freeN (d : Dev) (f : Ctxs → Ctxs) : (d.onCtxs f).freeN = d.freeN := rfl
@[simp] theorem onDram_mem (d : Dev) (f : Dram → Dram) : (d.onDram f).mem = d.mem := rfl
@[simp] theorem onDram_pkg (d : Dev) (f : Dram → Dram) : (d.onDram f).pkg = d.pkg := rfl
@[simp] theorem onDram_expo (d : Dev) (f : Dram → Dram) : (d.onDram f).expo = d.expo := rfl
@[simp] theorem onDram_sealing (d : Dev) (f : Dram → Dram) : (d.onDram f).sealing = d.sealing := rfl
@[simp] theorem onDram_restore (d : Dev) (f : Dram → Dram) : (d.onDram f).restore = d.restore := rfl
@[simp] theorem onDram_strata (d : Dev) (f : Dram → Dram) : (d.onDram f).strata = d.strata := rfl
@[simp] theorem onDram_flash (d : Dev) (f : Dram → Dram) : (d.onDram f).flash = d.flash := rfl
@[simp] theorem onDram_ctxs (d : Dev) (f : Dram → Dram) : (d.onDram f).ctxs = d.ctxs := rfl
@[simp] theorem onDram_dram (d : Dev) (f : Dram → Dram) : (d.onDram f).dram = f d.dram := rfl
@[simp] theorem onDram_energy (d : Dev) (f : Dram → Dram) : (d.onDram f).energy = d.energy := rfl
@[simp] theorem onDram_therm (d : Dev) (f : Dram → Dram) : (d.onDram f).therm = d.therm := rfl
@[simp] theorem onDram_flint (d : Dev) (f : Dram → Dram) : (d.onDram f).flint = d.flint := rfl
@[simp] theorem onDram_qtz (d : Dev) (f : Dram → Dram) : (d.onDram f).qtz = d.qtz := rfl
@[simp] theorem onDram_snap (d : Dev) (f : Dram → Dram) : (d.onDram f).snap = d.snap := rfl
@[simp] theorem onDram_lat (d : Dev) (f : Dram → Dram) : (d.onDram f).lat = d.lat := rfl
@[simp] theorem onDram_heads (d : Dev) (f : Dram → Dram) : (d.onDram f).heads = d.heads := rfl
@[simp] theorem onDram_jcs (d : Dev) (f : Dram → Dram) : (d.onDram f).jcs = d.jcs := rfl
@[simp] theorem onDram_slate (d : Dev) (f : Dram → Dram) : (d.onDram f).slate = d.slate := rfl
@[simp] theorem onDram_upd (d : Dev) (f : Dram → Dram) : (d.onDram f).upd = d.upd := rfl
@[simp] theorem onDram_panel (d : Dev) (f : Dram → Dram) : (d.onDram f).panel = d.panel := rfl
@[simp] theorem onDram_mirror (d : Dev) (f : Dram → Dram) : (d.onDram f).mirror = d.mirror := rfl
@[simp] theorem onDram_dw (d : Dev) (f : Dram → Dram) : (d.onDram f).dw = d.dw := rfl
@[simp] theorem onDram_out (d : Dev) (f : Dram → Dram) : (d.onDram f).out = d.out := rfl
@[simp] theorem onDram_freeN (d : Dev) (f : Dram → Dram) : (d.onDram f).freeN = d.freeN := rfl
@[simp] theorem onEnergy_mem (d : Dev) (f : Energy → Energy) : (d.onEnergy f).mem = d.mem := rfl
@[simp] theorem onEnergy_pkg (d : Dev) (f : Energy → Energy) : (d.onEnergy f).pkg = d.pkg := rfl
@[simp] theorem onEnergy_expo (d : Dev) (f : Energy → Energy) : (d.onEnergy f).expo = d.expo := rfl
@[simp] theorem onEnergy_sealing (d : Dev) (f : Energy → Energy) : (d.onEnergy f).sealing = d.sealing := rfl
@[simp] theorem onEnergy_restore (d : Dev) (f : Energy → Energy) : (d.onEnergy f).restore = d.restore := rfl
@[simp] theorem onEnergy_strata (d : Dev) (f : Energy → Energy) : (d.onEnergy f).strata = d.strata := rfl
@[simp] theorem onEnergy_flash (d : Dev) (f : Energy → Energy) : (d.onEnergy f).flash = d.flash := rfl
@[simp] theorem onEnergy_ctxs (d : Dev) (f : Energy → Energy) : (d.onEnergy f).ctxs = d.ctxs := rfl
@[simp] theorem onEnergy_dram (d : Dev) (f : Energy → Energy) : (d.onEnergy f).dram = d.dram := rfl
@[simp] theorem onEnergy_energy (d : Dev) (f : Energy → Energy) : (d.onEnergy f).energy = f d.energy := rfl
@[simp] theorem onEnergy_therm (d : Dev) (f : Energy → Energy) : (d.onEnergy f).therm = d.therm := rfl
@[simp] theorem onEnergy_flint (d : Dev) (f : Energy → Energy) : (d.onEnergy f).flint = d.flint := rfl
@[simp] theorem onEnergy_qtz (d : Dev) (f : Energy → Energy) : (d.onEnergy f).qtz = d.qtz := rfl
@[simp] theorem onEnergy_snap (d : Dev) (f : Energy → Energy) : (d.onEnergy f).snap = d.snap := rfl
@[simp] theorem onEnergy_lat (d : Dev) (f : Energy → Energy) : (d.onEnergy f).lat = d.lat := rfl
@[simp] theorem onEnergy_heads (d : Dev) (f : Energy → Energy) : (d.onEnergy f).heads = d.heads := rfl
@[simp] theorem onEnergy_jcs (d : Dev) (f : Energy → Energy) : (d.onEnergy f).jcs = d.jcs := rfl
@[simp] theorem onEnergy_slate (d : Dev) (f : Energy → Energy) : (d.onEnergy f).slate = d.slate := rfl
@[simp] theorem onEnergy_upd (d : Dev) (f : Energy → Energy) : (d.onEnergy f).upd = d.upd := rfl
@[simp] theorem onEnergy_panel (d : Dev) (f : Energy → Energy) : (d.onEnergy f).panel = d.panel := rfl
@[simp] theorem onEnergy_mirror (d : Dev) (f : Energy → Energy) : (d.onEnergy f).mirror = d.mirror := rfl
@[simp] theorem onEnergy_dw (d : Dev) (f : Energy → Energy) : (d.onEnergy f).dw = d.dw := rfl
@[simp] theorem onEnergy_out (d : Dev) (f : Energy → Energy) : (d.onEnergy f).out = d.out := rfl
@[simp] theorem onEnergy_freeN (d : Dev) (f : Energy → Energy) : (d.onEnergy f).freeN = d.freeN := rfl
@[simp] theorem onTherm_mem (d : Dev) (f : Therm → Therm) : (d.onTherm f).mem = d.mem := rfl
@[simp] theorem onTherm_pkg (d : Dev) (f : Therm → Therm) : (d.onTherm f).pkg = d.pkg := rfl
@[simp] theorem onTherm_expo (d : Dev) (f : Therm → Therm) : (d.onTherm f).expo = d.expo := rfl
@[simp] theorem onTherm_sealing (d : Dev) (f : Therm → Therm) : (d.onTherm f).sealing = d.sealing := rfl
@[simp] theorem onTherm_restore (d : Dev) (f : Therm → Therm) : (d.onTherm f).restore = d.restore := rfl
@[simp] theorem onTherm_strata (d : Dev) (f : Therm → Therm) : (d.onTherm f).strata = d.strata := rfl
@[simp] theorem onTherm_flash (d : Dev) (f : Therm → Therm) : (d.onTherm f).flash = d.flash := rfl
@[simp] theorem onTherm_ctxs (d : Dev) (f : Therm → Therm) : (d.onTherm f).ctxs = d.ctxs := rfl
@[simp] theorem onTherm_dram (d : Dev) (f : Therm → Therm) : (d.onTherm f).dram = d.dram := rfl
@[simp] theorem onTherm_energy (d : Dev) (f : Therm → Therm) : (d.onTherm f).energy = d.energy := rfl
@[simp] theorem onTherm_therm (d : Dev) (f : Therm → Therm) : (d.onTherm f).therm = f d.therm := rfl
@[simp] theorem onTherm_flint (d : Dev) (f : Therm → Therm) : (d.onTherm f).flint = d.flint := rfl
@[simp] theorem onTherm_qtz (d : Dev) (f : Therm → Therm) : (d.onTherm f).qtz = d.qtz := rfl
@[simp] theorem onTherm_snap (d : Dev) (f : Therm → Therm) : (d.onTherm f).snap = d.snap := rfl
@[simp] theorem onTherm_lat (d : Dev) (f : Therm → Therm) : (d.onTherm f).lat = d.lat := rfl
@[simp] theorem onTherm_heads (d : Dev) (f : Therm → Therm) : (d.onTherm f).heads = d.heads := rfl
@[simp] theorem onTherm_jcs (d : Dev) (f : Therm → Therm) : (d.onTherm f).jcs = d.jcs := rfl
@[simp] theorem onTherm_slate (d : Dev) (f : Therm → Therm) : (d.onTherm f).slate = d.slate := rfl
@[simp] theorem onTherm_upd (d : Dev) (f : Therm → Therm) : (d.onTherm f).upd = d.upd := rfl
@[simp] theorem onTherm_panel (d : Dev) (f : Therm → Therm) : (d.onTherm f).panel = d.panel := rfl
@[simp] theorem onTherm_mirror (d : Dev) (f : Therm → Therm) : (d.onTherm f).mirror = d.mirror := rfl
@[simp] theorem onTherm_dw (d : Dev) (f : Therm → Therm) : (d.onTherm f).dw = d.dw := rfl
@[simp] theorem onTherm_out (d : Dev) (f : Therm → Therm) : (d.onTherm f).out = d.out := rfl
@[simp] theorem onTherm_freeN (d : Dev) (f : Therm → Therm) : (d.onTherm f).freeN = d.freeN := rfl
@[simp] theorem onFlint_mem (d : Dev) (f : Flint → Flint) : (d.onFlint f).mem = d.mem := rfl
@[simp] theorem onFlint_pkg (d : Dev) (f : Flint → Flint) : (d.onFlint f).pkg = d.pkg := rfl
@[simp] theorem onFlint_expo (d : Dev) (f : Flint → Flint) : (d.onFlint f).expo = d.expo := rfl
@[simp] theorem onFlint_sealing (d : Dev) (f : Flint → Flint) : (d.onFlint f).sealing = d.sealing := rfl
@[simp] theorem onFlint_restore (d : Dev) (f : Flint → Flint) : (d.onFlint f).restore = d.restore := rfl
@[simp] theorem onFlint_strata (d : Dev) (f : Flint → Flint) : (d.onFlint f).strata = d.strata := rfl
@[simp] theorem onFlint_flash (d : Dev) (f : Flint → Flint) : (d.onFlint f).flash = d.flash := rfl
@[simp] theorem onFlint_ctxs (d : Dev) (f : Flint → Flint) : (d.onFlint f).ctxs = d.ctxs := rfl
@[simp] theorem onFlint_dram (d : Dev) (f : Flint → Flint) : (d.onFlint f).dram = d.dram := rfl
@[simp] theorem onFlint_energy (d : Dev) (f : Flint → Flint) : (d.onFlint f).energy = d.energy := rfl
@[simp] theorem onFlint_therm (d : Dev) (f : Flint → Flint) : (d.onFlint f).therm = d.therm := rfl
@[simp] theorem onFlint_flint (d : Dev) (f : Flint → Flint) : (d.onFlint f).flint = f d.flint := rfl
@[simp] theorem onFlint_qtz (d : Dev) (f : Flint → Flint) : (d.onFlint f).qtz = d.qtz := rfl
@[simp] theorem onFlint_snap (d : Dev) (f : Flint → Flint) : (d.onFlint f).snap = d.snap := rfl
@[simp] theorem onFlint_lat (d : Dev) (f : Flint → Flint) : (d.onFlint f).lat = d.lat := rfl
@[simp] theorem onFlint_heads (d : Dev) (f : Flint → Flint) : (d.onFlint f).heads = d.heads := rfl
@[simp] theorem onFlint_jcs (d : Dev) (f : Flint → Flint) : (d.onFlint f).jcs = d.jcs := rfl
@[simp] theorem onFlint_slate (d : Dev) (f : Flint → Flint) : (d.onFlint f).slate = d.slate := rfl
@[simp] theorem onFlint_upd (d : Dev) (f : Flint → Flint) : (d.onFlint f).upd = d.upd := rfl
@[simp] theorem onFlint_panel (d : Dev) (f : Flint → Flint) : (d.onFlint f).panel = d.panel := rfl
@[simp] theorem onFlint_mirror (d : Dev) (f : Flint → Flint) : (d.onFlint f).mirror = d.mirror := rfl
@[simp] theorem onFlint_dw (d : Dev) (f : Flint → Flint) : (d.onFlint f).dw = d.dw := rfl
@[simp] theorem onFlint_out (d : Dev) (f : Flint → Flint) : (d.onFlint f).out = d.out := rfl
@[simp] theorem onFlint_freeN (d : Dev) (f : Flint → Flint) : (d.onFlint f).freeN = d.freeN := rfl
@[simp] theorem onQtz_mem (d : Dev) (f : Qtz → Qtz) : (d.onQtz f).mem = d.mem := rfl
@[simp] theorem onQtz_pkg (d : Dev) (f : Qtz → Qtz) : (d.onQtz f).pkg = d.pkg := rfl
@[simp] theorem onQtz_expo (d : Dev) (f : Qtz → Qtz) : (d.onQtz f).expo = d.expo := rfl
@[simp] theorem onQtz_sealing (d : Dev) (f : Qtz → Qtz) : (d.onQtz f).sealing = d.sealing := rfl
@[simp] theorem onQtz_restore (d : Dev) (f : Qtz → Qtz) : (d.onQtz f).restore = d.restore := rfl
@[simp] theorem onQtz_strata (d : Dev) (f : Qtz → Qtz) : (d.onQtz f).strata = d.strata := rfl
@[simp] theorem onQtz_flash (d : Dev) (f : Qtz → Qtz) : (d.onQtz f).flash = d.flash := rfl
@[simp] theorem onQtz_ctxs (d : Dev) (f : Qtz → Qtz) : (d.onQtz f).ctxs = d.ctxs := rfl
@[simp] theorem onQtz_dram (d : Dev) (f : Qtz → Qtz) : (d.onQtz f).dram = d.dram := rfl
@[simp] theorem onQtz_energy (d : Dev) (f : Qtz → Qtz) : (d.onQtz f).energy = d.energy := rfl
@[simp] theorem onQtz_therm (d : Dev) (f : Qtz → Qtz) : (d.onQtz f).therm = d.therm := rfl
@[simp] theorem onQtz_flint (d : Dev) (f : Qtz → Qtz) : (d.onQtz f).flint = d.flint := rfl
@[simp] theorem onQtz_qtz (d : Dev) (f : Qtz → Qtz) : (d.onQtz f).qtz = f d.qtz := rfl
@[simp] theorem onQtz_snap (d : Dev) (f : Qtz → Qtz) : (d.onQtz f).snap = d.snap := rfl
@[simp] theorem onQtz_lat (d : Dev) (f : Qtz → Qtz) : (d.onQtz f).lat = d.lat := rfl
@[simp] theorem onQtz_heads (d : Dev) (f : Qtz → Qtz) : (d.onQtz f).heads = d.heads := rfl
@[simp] theorem onQtz_jcs (d : Dev) (f : Qtz → Qtz) : (d.onQtz f).jcs = d.jcs := rfl
@[simp] theorem onQtz_slate (d : Dev) (f : Qtz → Qtz) : (d.onQtz f).slate = d.slate := rfl
@[simp] theorem onQtz_upd (d : Dev) (f : Qtz → Qtz) : (d.onQtz f).upd = d.upd := rfl
@[simp] theorem onQtz_panel (d : Dev) (f : Qtz → Qtz) : (d.onQtz f).panel = d.panel := rfl
@[simp] theorem onQtz_mirror (d : Dev) (f : Qtz → Qtz) : (d.onQtz f).mirror = d.mirror := rfl
@[simp] theorem onQtz_dw (d : Dev) (f : Qtz → Qtz) : (d.onQtz f).dw = d.dw := rfl
@[simp] theorem onQtz_out (d : Dev) (f : Qtz → Qtz) : (d.onQtz f).out = d.out := rfl
@[simp] theorem onQtz_freeN (d : Dev) (f : Qtz → Qtz) : (d.onQtz f).freeN = d.freeN := rfl
@[simp] theorem onSnap_mem (d : Dev) (f : Snap → Snap) : (d.onSnap f).mem = d.mem := rfl
@[simp] theorem onSnap_pkg (d : Dev) (f : Snap → Snap) : (d.onSnap f).pkg = d.pkg := rfl
@[simp] theorem onSnap_expo (d : Dev) (f : Snap → Snap) : (d.onSnap f).expo = d.expo := rfl
@[simp] theorem onSnap_sealing (d : Dev) (f : Snap → Snap) : (d.onSnap f).sealing = d.sealing := rfl
@[simp] theorem onSnap_restore (d : Dev) (f : Snap → Snap) : (d.onSnap f).restore = d.restore := rfl
@[simp] theorem onSnap_strata (d : Dev) (f : Snap → Snap) : (d.onSnap f).strata = d.strata := rfl
@[simp] theorem onSnap_flash (d : Dev) (f : Snap → Snap) : (d.onSnap f).flash = d.flash := rfl
@[simp] theorem onSnap_ctxs (d : Dev) (f : Snap → Snap) : (d.onSnap f).ctxs = d.ctxs := rfl
@[simp] theorem onSnap_dram (d : Dev) (f : Snap → Snap) : (d.onSnap f).dram = d.dram := rfl
@[simp] theorem onSnap_energy (d : Dev) (f : Snap → Snap) : (d.onSnap f).energy = d.energy := rfl
@[simp] theorem onSnap_therm (d : Dev) (f : Snap → Snap) : (d.onSnap f).therm = d.therm := rfl
@[simp] theorem onSnap_flint (d : Dev) (f : Snap → Snap) : (d.onSnap f).flint = d.flint := rfl
@[simp] theorem onSnap_qtz (d : Dev) (f : Snap → Snap) : (d.onSnap f).qtz = d.qtz := rfl
@[simp] theorem onSnap_snap (d : Dev) (f : Snap → Snap) : (d.onSnap f).snap = f d.snap := rfl
@[simp] theorem onSnap_lat (d : Dev) (f : Snap → Snap) : (d.onSnap f).lat = d.lat := rfl
@[simp] theorem onSnap_heads (d : Dev) (f : Snap → Snap) : (d.onSnap f).heads = d.heads := rfl
@[simp] theorem onSnap_jcs (d : Dev) (f : Snap → Snap) : (d.onSnap f).jcs = d.jcs := rfl
@[simp] theorem onSnap_slate (d : Dev) (f : Snap → Snap) : (d.onSnap f).slate = d.slate := rfl
@[simp] theorem onSnap_upd (d : Dev) (f : Snap → Snap) : (d.onSnap f).upd = d.upd := rfl
@[simp] theorem onSnap_panel (d : Dev) (f : Snap → Snap) : (d.onSnap f).panel = d.panel := rfl
@[simp] theorem onSnap_mirror (d : Dev) (f : Snap → Snap) : (d.onSnap f).mirror = d.mirror := rfl
@[simp] theorem onSnap_dw (d : Dev) (f : Snap → Snap) : (d.onSnap f).dw = d.dw := rfl
@[simp] theorem onSnap_out (d : Dev) (f : Snap → Snap) : (d.onSnap f).out = d.out := rfl
@[simp] theorem onSnap_freeN (d : Dev) (f : Snap → Snap) : (d.onSnap f).freeN = d.freeN := rfl
@[simp] theorem onLat_mem (d : Dev) (f : Lat → Lat) : (d.onLat f).mem = d.mem := rfl
@[simp] theorem onLat_pkg (d : Dev) (f : Lat → Lat) : (d.onLat f).pkg = d.pkg := rfl
@[simp] theorem onLat_expo (d : Dev) (f : Lat → Lat) : (d.onLat f).expo = d.expo := rfl
@[simp] theorem onLat_sealing (d : Dev) (f : Lat → Lat) : (d.onLat f).sealing = d.sealing := rfl
@[simp] theorem onLat_restore (d : Dev) (f : Lat → Lat) : (d.onLat f).restore = d.restore := rfl
@[simp] theorem onLat_strata (d : Dev) (f : Lat → Lat) : (d.onLat f).strata = d.strata := rfl
@[simp] theorem onLat_flash (d : Dev) (f : Lat → Lat) : (d.onLat f).flash = d.flash := rfl
@[simp] theorem onLat_ctxs (d : Dev) (f : Lat → Lat) : (d.onLat f).ctxs = d.ctxs := rfl
@[simp] theorem onLat_dram (d : Dev) (f : Lat → Lat) : (d.onLat f).dram = d.dram := rfl
@[simp] theorem onLat_energy (d : Dev) (f : Lat → Lat) : (d.onLat f).energy = d.energy := rfl
@[simp] theorem onLat_therm (d : Dev) (f : Lat → Lat) : (d.onLat f).therm = d.therm := rfl
@[simp] theorem onLat_flint (d : Dev) (f : Lat → Lat) : (d.onLat f).flint = d.flint := rfl
@[simp] theorem onLat_qtz (d : Dev) (f : Lat → Lat) : (d.onLat f).qtz = d.qtz := rfl
@[simp] theorem onLat_snap (d : Dev) (f : Lat → Lat) : (d.onLat f).snap = d.snap := rfl
@[simp] theorem onLat_lat (d : Dev) (f : Lat → Lat) : (d.onLat f).lat = f d.lat := rfl
@[simp] theorem onLat_heads (d : Dev) (f : Lat → Lat) : (d.onLat f).heads = d.heads := rfl
@[simp] theorem onLat_jcs (d : Dev) (f : Lat → Lat) : (d.onLat f).jcs = d.jcs := rfl
@[simp] theorem onLat_slate (d : Dev) (f : Lat → Lat) : (d.onLat f).slate = d.slate := rfl
@[simp] theorem onLat_upd (d : Dev) (f : Lat → Lat) : (d.onLat f).upd = d.upd := rfl
@[simp] theorem onLat_panel (d : Dev) (f : Lat → Lat) : (d.onLat f).panel = d.panel := rfl
@[simp] theorem onLat_mirror (d : Dev) (f : Lat → Lat) : (d.onLat f).mirror = d.mirror := rfl
@[simp] theorem onLat_dw (d : Dev) (f : Lat → Lat) : (d.onLat f).dw = d.dw := rfl
@[simp] theorem onLat_out (d : Dev) (f : Lat → Lat) : (d.onLat f).out = d.out := rfl
@[simp] theorem onLat_freeN (d : Dev) (f : Lat → Lat) : (d.onLat f).freeN = d.freeN := rfl
@[simp] theorem onHeads_mem (d : Dev) (f : (Tbl HeadSt) → Tbl HeadSt) : (d.onHeads f).mem = d.mem := rfl
@[simp] theorem onHeads_pkg (d : Dev) (f : (Tbl HeadSt) → Tbl HeadSt) : (d.onHeads f).pkg = d.pkg := rfl
@[simp] theorem onHeads_expo (d : Dev) (f : (Tbl HeadSt) → Tbl HeadSt) : (d.onHeads f).expo = d.expo := rfl
@[simp] theorem onHeads_sealing (d : Dev) (f : (Tbl HeadSt) → Tbl HeadSt) : (d.onHeads f).sealing = d.sealing := rfl
@[simp] theorem onHeads_restore (d : Dev) (f : (Tbl HeadSt) → Tbl HeadSt) : (d.onHeads f).restore = d.restore := rfl
@[simp] theorem onHeads_strata (d : Dev) (f : (Tbl HeadSt) → Tbl HeadSt) : (d.onHeads f).strata = d.strata := rfl
@[simp] theorem onHeads_flash (d : Dev) (f : (Tbl HeadSt) → Tbl HeadSt) : (d.onHeads f).flash = d.flash := rfl
@[simp] theorem onHeads_ctxs (d : Dev) (f : (Tbl HeadSt) → Tbl HeadSt) : (d.onHeads f).ctxs = d.ctxs := rfl
@[simp] theorem onHeads_dram (d : Dev) (f : (Tbl HeadSt) → Tbl HeadSt) : (d.onHeads f).dram = d.dram := rfl
@[simp] theorem onHeads_energy (d : Dev) (f : (Tbl HeadSt) → Tbl HeadSt) : (d.onHeads f).energy = d.energy := rfl
@[simp] theorem onHeads_therm (d : Dev) (f : (Tbl HeadSt) → Tbl HeadSt) : (d.onHeads f).therm = d.therm := rfl
@[simp] theorem onHeads_flint (d : Dev) (f : (Tbl HeadSt) → Tbl HeadSt) : (d.onHeads f).flint = d.flint := rfl
@[simp] theorem onHeads_qtz (d : Dev) (f : (Tbl HeadSt) → Tbl HeadSt) : (d.onHeads f).qtz = d.qtz := rfl
@[simp] theorem onHeads_snap (d : Dev) (f : (Tbl HeadSt) → Tbl HeadSt) : (d.onHeads f).snap = d.snap := rfl
@[simp] theorem onHeads_lat (d : Dev) (f : (Tbl HeadSt) → Tbl HeadSt) : (d.onHeads f).lat = d.lat := rfl
@[simp] theorem onHeads_heads (d : Dev) (f : (Tbl HeadSt) → Tbl HeadSt) : (d.onHeads f).heads = f d.heads := rfl
@[simp] theorem onHeads_jcs (d : Dev) (f : (Tbl HeadSt) → Tbl HeadSt) : (d.onHeads f).jcs = d.jcs := rfl
@[simp] theorem onHeads_slate (d : Dev) (f : (Tbl HeadSt) → Tbl HeadSt) : (d.onHeads f).slate = d.slate := rfl
@[simp] theorem onHeads_upd (d : Dev) (f : (Tbl HeadSt) → Tbl HeadSt) : (d.onHeads f).upd = d.upd := rfl
@[simp] theorem onHeads_panel (d : Dev) (f : (Tbl HeadSt) → Tbl HeadSt) : (d.onHeads f).panel = d.panel := rfl
@[simp] theorem onHeads_mirror (d : Dev) (f : (Tbl HeadSt) → Tbl HeadSt) : (d.onHeads f).mirror = d.mirror := rfl
@[simp] theorem onHeads_dw (d : Dev) (f : (Tbl HeadSt) → Tbl HeadSt) : (d.onHeads f).dw = d.dw := rfl
@[simp] theorem onHeads_out (d : Dev) (f : (Tbl HeadSt) → Tbl HeadSt) : (d.onHeads f).out = d.out := rfl
@[simp] theorem onHeads_freeN (d : Dev) (f : (Tbl HeadSt) → Tbl HeadSt) : (d.onHeads f).freeN = d.freeN := rfl
@[simp] theorem onJcs_mem (d : Dev) (f : JcsSt → JcsSt) : (d.onJcs f).mem = d.mem := rfl
@[simp] theorem onJcs_pkg (d : Dev) (f : JcsSt → JcsSt) : (d.onJcs f).pkg = d.pkg := rfl
@[simp] theorem onJcs_expo (d : Dev) (f : JcsSt → JcsSt) : (d.onJcs f).expo = d.expo := rfl
@[simp] theorem onJcs_sealing (d : Dev) (f : JcsSt → JcsSt) : (d.onJcs f).sealing = d.sealing := rfl
@[simp] theorem onJcs_restore (d : Dev) (f : JcsSt → JcsSt) : (d.onJcs f).restore = d.restore := rfl
@[simp] theorem onJcs_strata (d : Dev) (f : JcsSt → JcsSt) : (d.onJcs f).strata = d.strata := rfl
@[simp] theorem onJcs_flash (d : Dev) (f : JcsSt → JcsSt) : (d.onJcs f).flash = d.flash := rfl
@[simp] theorem onJcs_ctxs (d : Dev) (f : JcsSt → JcsSt) : (d.onJcs f).ctxs = d.ctxs := rfl
@[simp] theorem onJcs_dram (d : Dev) (f : JcsSt → JcsSt) : (d.onJcs f).dram = d.dram := rfl
@[simp] theorem onJcs_energy (d : Dev) (f : JcsSt → JcsSt) : (d.onJcs f).energy = d.energy := rfl
@[simp] theorem onJcs_therm (d : Dev) (f : JcsSt → JcsSt) : (d.onJcs f).therm = d.therm := rfl
@[simp] theorem onJcs_flint (d : Dev) (f : JcsSt → JcsSt) : (d.onJcs f).flint = d.flint := rfl
@[simp] theorem onJcs_qtz (d : Dev) (f : JcsSt → JcsSt) : (d.onJcs f).qtz = d.qtz := rfl
@[simp] theorem onJcs_snap (d : Dev) (f : JcsSt → JcsSt) : (d.onJcs f).snap = d.snap := rfl
@[simp] theorem onJcs_lat (d : Dev) (f : JcsSt → JcsSt) : (d.onJcs f).lat = d.lat := rfl
@[simp] theorem onJcs_heads (d : Dev) (f : JcsSt → JcsSt) : (d.onJcs f).heads = d.heads := rfl
@[simp] theorem onJcs_jcs (d : Dev) (f : JcsSt → JcsSt) : (d.onJcs f).jcs = f d.jcs := rfl
@[simp] theorem onJcs_slate (d : Dev) (f : JcsSt → JcsSt) : (d.onJcs f).slate = d.slate := rfl
@[simp] theorem onJcs_upd (d : Dev) (f : JcsSt → JcsSt) : (d.onJcs f).upd = d.upd := rfl
@[simp] theorem onJcs_panel (d : Dev) (f : JcsSt → JcsSt) : (d.onJcs f).panel = d.panel := rfl
@[simp] theorem onJcs_mirror (d : Dev) (f : JcsSt → JcsSt) : (d.onJcs f).mirror = d.mirror := rfl
@[simp] theorem onJcs_dw (d : Dev) (f : JcsSt → JcsSt) : (d.onJcs f).dw = d.dw := rfl
@[simp] theorem onJcs_out (d : Dev) (f : JcsSt → JcsSt) : (d.onJcs f).out = d.out := rfl
@[simp] theorem onJcs_freeN (d : Dev) (f : JcsSt → JcsSt) : (d.onJcs f).freeN = d.freeN := rfl
@[simp] theorem onSlate_mem (d : Dev) (f : (Tbl SlateTile) → Tbl SlateTile) : (d.onSlate f).mem = d.mem := rfl
@[simp] theorem onSlate_pkg (d : Dev) (f : (Tbl SlateTile) → Tbl SlateTile) : (d.onSlate f).pkg = d.pkg := rfl
@[simp] theorem onSlate_expo (d : Dev) (f : (Tbl SlateTile) → Tbl SlateTile) : (d.onSlate f).expo = d.expo := rfl
@[simp] theorem onSlate_sealing (d : Dev) (f : (Tbl SlateTile) → Tbl SlateTile) : (d.onSlate f).sealing = d.sealing := rfl
@[simp] theorem onSlate_restore (d : Dev) (f : (Tbl SlateTile) → Tbl SlateTile) : (d.onSlate f).restore = d.restore := rfl
@[simp] theorem onSlate_strata (d : Dev) (f : (Tbl SlateTile) → Tbl SlateTile) : (d.onSlate f).strata = d.strata := rfl
@[simp] theorem onSlate_flash (d : Dev) (f : (Tbl SlateTile) → Tbl SlateTile) : (d.onSlate f).flash = d.flash := rfl
@[simp] theorem onSlate_ctxs (d : Dev) (f : (Tbl SlateTile) → Tbl SlateTile) : (d.onSlate f).ctxs = d.ctxs := rfl
@[simp] theorem onSlate_dram (d : Dev) (f : (Tbl SlateTile) → Tbl SlateTile) : (d.onSlate f).dram = d.dram := rfl
@[simp] theorem onSlate_energy (d : Dev) (f : (Tbl SlateTile) → Tbl SlateTile) : (d.onSlate f).energy = d.energy := rfl
@[simp] theorem onSlate_therm (d : Dev) (f : (Tbl SlateTile) → Tbl SlateTile) : (d.onSlate f).therm = d.therm := rfl
@[simp] theorem onSlate_flint (d : Dev) (f : (Tbl SlateTile) → Tbl SlateTile) : (d.onSlate f).flint = d.flint := rfl
@[simp] theorem onSlate_qtz (d : Dev) (f : (Tbl SlateTile) → Tbl SlateTile) : (d.onSlate f).qtz = d.qtz := rfl
@[simp] theorem onSlate_snap (d : Dev) (f : (Tbl SlateTile) → Tbl SlateTile) : (d.onSlate f).snap = d.snap := rfl
@[simp] theorem onSlate_lat (d : Dev) (f : (Tbl SlateTile) → Tbl SlateTile) : (d.onSlate f).lat = d.lat := rfl
@[simp] theorem onSlate_heads (d : Dev) (f : (Tbl SlateTile) → Tbl SlateTile) : (d.onSlate f).heads = d.heads := rfl
@[simp] theorem onSlate_jcs (d : Dev) (f : (Tbl SlateTile) → Tbl SlateTile) : (d.onSlate f).jcs = d.jcs := rfl
@[simp] theorem onSlate_slate (d : Dev) (f : (Tbl SlateTile) → Tbl SlateTile) : (d.onSlate f).slate = f d.slate := rfl
@[simp] theorem onSlate_upd (d : Dev) (f : (Tbl SlateTile) → Tbl SlateTile) : (d.onSlate f).upd = d.upd := rfl
@[simp] theorem onSlate_panel (d : Dev) (f : (Tbl SlateTile) → Tbl SlateTile) : (d.onSlate f).panel = d.panel := rfl
@[simp] theorem onSlate_mirror (d : Dev) (f : (Tbl SlateTile) → Tbl SlateTile) : (d.onSlate f).mirror = d.mirror := rfl
@[simp] theorem onSlate_dw (d : Dev) (f : (Tbl SlateTile) → Tbl SlateTile) : (d.onSlate f).dw = d.dw := rfl
@[simp] theorem onSlate_out (d : Dev) (f : (Tbl SlateTile) → Tbl SlateTile) : (d.onSlate f).out = d.out := rfl
@[simp] theorem onSlate_freeN (d : Dev) (f : (Tbl SlateTile) → Tbl SlateTile) : (d.onSlate f).freeN = d.freeN := rfl
@[simp] theorem onUpd_mem (d : Dev) (f : Update → Update) : (d.onUpd f).mem = d.mem := rfl
@[simp] theorem onUpd_pkg (d : Dev) (f : Update → Update) : (d.onUpd f).pkg = d.pkg := rfl
@[simp] theorem onUpd_expo (d : Dev) (f : Update → Update) : (d.onUpd f).expo = d.expo := rfl
@[simp] theorem onUpd_sealing (d : Dev) (f : Update → Update) : (d.onUpd f).sealing = d.sealing := rfl
@[simp] theorem onUpd_restore (d : Dev) (f : Update → Update) : (d.onUpd f).restore = d.restore := rfl
@[simp] theorem onUpd_strata (d : Dev) (f : Update → Update) : (d.onUpd f).strata = d.strata := rfl
@[simp] theorem onUpd_flash (d : Dev) (f : Update → Update) : (d.onUpd f).flash = d.flash := rfl
@[simp] theorem onUpd_ctxs (d : Dev) (f : Update → Update) : (d.onUpd f).ctxs = d.ctxs := rfl
@[simp] theorem onUpd_dram (d : Dev) (f : Update → Update) : (d.onUpd f).dram = d.dram := rfl
@[simp] theorem onUpd_energy (d : Dev) (f : Update → Update) : (d.onUpd f).energy = d.energy := rfl
@[simp] theorem onUpd_therm (d : Dev) (f : Update → Update) : (d.onUpd f).therm = d.therm := rfl
@[simp] theorem onUpd_flint (d : Dev) (f : Update → Update) : (d.onUpd f).flint = d.flint := rfl
@[simp] theorem onUpd_qtz (d : Dev) (f : Update → Update) : (d.onUpd f).qtz = d.qtz := rfl
@[simp] theorem onUpd_snap (d : Dev) (f : Update → Update) : (d.onUpd f).snap = d.snap := rfl
@[simp] theorem onUpd_lat (d : Dev) (f : Update → Update) : (d.onUpd f).lat = d.lat := rfl
@[simp] theorem onUpd_heads (d : Dev) (f : Update → Update) : (d.onUpd f).heads = d.heads := rfl
@[simp] theorem onUpd_jcs (d : Dev) (f : Update → Update) : (d.onUpd f).jcs = d.jcs := rfl
@[simp] theorem onUpd_slate (d : Dev) (f : Update → Update) : (d.onUpd f).slate = d.slate := rfl
@[simp] theorem onUpd_upd (d : Dev) (f : Update → Update) : (d.onUpd f).upd = f d.upd := rfl
@[simp] theorem onUpd_panel (d : Dev) (f : Update → Update) : (d.onUpd f).panel = d.panel := rfl
@[simp] theorem onUpd_mirror (d : Dev) (f : Update → Update) : (d.onUpd f).mirror = d.mirror := rfl
@[simp] theorem onUpd_dw (d : Dev) (f : Update → Update) : (d.onUpd f).dw = d.dw := rfl
@[simp] theorem onUpd_out (d : Dev) (f : Update → Update) : (d.onUpd f).out = d.out := rfl
@[simp] theorem onUpd_freeN (d : Dev) (f : Update → Update) : (d.onUpd f).freeN = d.freeN := rfl
@[simp] theorem onPanel_mem (d : Dev) (f : Panel → Panel) : (d.onPanel f).mem = d.mem := rfl
@[simp] theorem onPanel_pkg (d : Dev) (f : Panel → Panel) : (d.onPanel f).pkg = d.pkg := rfl
@[simp] theorem onPanel_expo (d : Dev) (f : Panel → Panel) : (d.onPanel f).expo = d.expo := rfl
@[simp] theorem onPanel_sealing (d : Dev) (f : Panel → Panel) : (d.onPanel f).sealing = d.sealing := rfl
@[simp] theorem onPanel_restore (d : Dev) (f : Panel → Panel) : (d.onPanel f).restore = d.restore := rfl
@[simp] theorem onPanel_strata (d : Dev) (f : Panel → Panel) : (d.onPanel f).strata = d.strata := rfl
@[simp] theorem onPanel_flash (d : Dev) (f : Panel → Panel) : (d.onPanel f).flash = d.flash := rfl
@[simp] theorem onPanel_ctxs (d : Dev) (f : Panel → Panel) : (d.onPanel f).ctxs = d.ctxs := rfl
@[simp] theorem onPanel_dram (d : Dev) (f : Panel → Panel) : (d.onPanel f).dram = d.dram := rfl
@[simp] theorem onPanel_energy (d : Dev) (f : Panel → Panel) : (d.onPanel f).energy = d.energy := rfl
@[simp] theorem onPanel_therm (d : Dev) (f : Panel → Panel) : (d.onPanel f).therm = d.therm := rfl
@[simp] theorem onPanel_flint (d : Dev) (f : Panel → Panel) : (d.onPanel f).flint = d.flint := rfl
@[simp] theorem onPanel_qtz (d : Dev) (f : Panel → Panel) : (d.onPanel f).qtz = d.qtz := rfl
@[simp] theorem onPanel_snap (d : Dev) (f : Panel → Panel) : (d.onPanel f).snap = d.snap := rfl
@[simp] theorem onPanel_lat (d : Dev) (f : Panel → Panel) : (d.onPanel f).lat = d.lat := rfl
@[simp] theorem onPanel_heads (d : Dev) (f : Panel → Panel) : (d.onPanel f).heads = d.heads := rfl
@[simp] theorem onPanel_jcs (d : Dev) (f : Panel → Panel) : (d.onPanel f).jcs = d.jcs := rfl
@[simp] theorem onPanel_slate (d : Dev) (f : Panel → Panel) : (d.onPanel f).slate = d.slate := rfl
@[simp] theorem onPanel_upd (d : Dev) (f : Panel → Panel) : (d.onPanel f).upd = d.upd := rfl
@[simp] theorem onPanel_panel (d : Dev) (f : Panel → Panel) : (d.onPanel f).panel = f d.panel := rfl
@[simp] theorem onPanel_mirror (d : Dev) (f : Panel → Panel) : (d.onPanel f).mirror = d.mirror := rfl
@[simp] theorem onPanel_dw (d : Dev) (f : Panel → Panel) : (d.onPanel f).dw = d.dw := rfl
@[simp] theorem onPanel_out (d : Dev) (f : Panel → Panel) : (d.onPanel f).out = d.out := rfl
@[simp] theorem onPanel_freeN (d : Dev) (f : Panel → Panel) : (d.onPanel f).freeN = d.freeN := rfl
@[simp] theorem onMirror_mem (d : Dev) (f : Mirror → Mirror) : (d.onMirror f).mem = d.mem := rfl
@[simp] theorem onMirror_pkg (d : Dev) (f : Mirror → Mirror) : (d.onMirror f).pkg = d.pkg := rfl
@[simp] theorem onMirror_expo (d : Dev) (f : Mirror → Mirror) : (d.onMirror f).expo = d.expo := rfl
@[simp] theorem onMirror_sealing (d : Dev) (f : Mirror → Mirror) : (d.onMirror f).sealing = d.sealing := rfl
@[simp] theorem onMirror_restore (d : Dev) (f : Mirror → Mirror) : (d.onMirror f).restore = d.restore := rfl
@[simp] theorem onMirror_strata (d : Dev) (f : Mirror → Mirror) : (d.onMirror f).strata = d.strata := rfl
@[simp] theorem onMirror_flash (d : Dev) (f : Mirror → Mirror) : (d.onMirror f).flash = d.flash := rfl
@[simp] theorem onMirror_ctxs (d : Dev) (f : Mirror → Mirror) : (d.onMirror f).ctxs = d.ctxs := rfl
@[simp] theorem onMirror_dram (d : Dev) (f : Mirror → Mirror) : (d.onMirror f).dram = d.dram := rfl
@[simp] theorem onMirror_energy (d : Dev) (f : Mirror → Mirror) : (d.onMirror f).energy = d.energy := rfl
@[simp] theorem onMirror_therm (d : Dev) (f : Mirror → Mirror) : (d.onMirror f).therm = d.therm := rfl
@[simp] theorem onMirror_flint (d : Dev) (f : Mirror → Mirror) : (d.onMirror f).flint = d.flint := rfl
@[simp] theorem onMirror_qtz (d : Dev) (f : Mirror → Mirror) : (d.onMirror f).qtz = d.qtz := rfl
@[simp] theorem onMirror_snap (d : Dev) (f : Mirror → Mirror) : (d.onMirror f).snap = d.snap := rfl
@[simp] theorem onMirror_lat (d : Dev) (f : Mirror → Mirror) : (d.onMirror f).lat = d.lat := rfl
@[simp] theorem onMirror_heads (d : Dev) (f : Mirror → Mirror) : (d.onMirror f).heads = d.heads := rfl
@[simp] theorem onMirror_jcs (d : Dev) (f : Mirror → Mirror) : (d.onMirror f).jcs = d.jcs := rfl
@[simp] theorem onMirror_slate (d : Dev) (f : Mirror → Mirror) : (d.onMirror f).slate = d.slate := rfl
@[simp] theorem onMirror_upd (d : Dev) (f : Mirror → Mirror) : (d.onMirror f).upd = d.upd := rfl
@[simp] theorem onMirror_panel (d : Dev) (f : Mirror → Mirror) : (d.onMirror f).panel = d.panel := rfl
@[simp] theorem onMirror_mirror (d : Dev) (f : Mirror → Mirror) : (d.onMirror f).mirror = f d.mirror := rfl
@[simp] theorem onMirror_dw (d : Dev) (f : Mirror → Mirror) : (d.onMirror f).dw = d.dw := rfl
@[simp] theorem onMirror_out (d : Dev) (f : Mirror → Mirror) : (d.onMirror f).out = d.out := rfl
@[simp] theorem onMirror_freeN (d : Dev) (f : Mirror → Mirror) : (d.onMirror f).freeN = d.freeN := rfl
@[simp] theorem onDw_mem (d : Dev) (f : (Tbl (BitVec 64)) → Tbl (BitVec 64)) : (d.onDw f).mem = d.mem := rfl
@[simp] theorem onDw_pkg (d : Dev) (f : (Tbl (BitVec 64)) → Tbl (BitVec 64)) : (d.onDw f).pkg = d.pkg := rfl
@[simp] theorem onDw_expo (d : Dev) (f : (Tbl (BitVec 64)) → Tbl (BitVec 64)) : (d.onDw f).expo = d.expo := rfl
@[simp] theorem onDw_sealing (d : Dev) (f : (Tbl (BitVec 64)) → Tbl (BitVec 64)) : (d.onDw f).sealing = d.sealing := rfl
@[simp] theorem onDw_restore (d : Dev) (f : (Tbl (BitVec 64)) → Tbl (BitVec 64)) : (d.onDw f).restore = d.restore := rfl
@[simp] theorem onDw_strata (d : Dev) (f : (Tbl (BitVec 64)) → Tbl (BitVec 64)) : (d.onDw f).strata = d.strata := rfl
@[simp] theorem onDw_flash (d : Dev) (f : (Tbl (BitVec 64)) → Tbl (BitVec 64)) : (d.onDw f).flash = d.flash := rfl
@[simp] theorem onDw_ctxs (d : Dev) (f : (Tbl (BitVec 64)) → Tbl (BitVec 64)) : (d.onDw f).ctxs = d.ctxs := rfl
@[simp] theorem onDw_dram (d : Dev) (f : (Tbl (BitVec 64)) → Tbl (BitVec 64)) : (d.onDw f).dram = d.dram := rfl
@[simp] theorem onDw_energy (d : Dev) (f : (Tbl (BitVec 64)) → Tbl (BitVec 64)) : (d.onDw f).energy = d.energy := rfl
@[simp] theorem onDw_therm (d : Dev) (f : (Tbl (BitVec 64)) → Tbl (BitVec 64)) : (d.onDw f).therm = d.therm := rfl
@[simp] theorem onDw_flint (d : Dev) (f : (Tbl (BitVec 64)) → Tbl (BitVec 64)) : (d.onDw f).flint = d.flint := rfl
@[simp] theorem onDw_qtz (d : Dev) (f : (Tbl (BitVec 64)) → Tbl (BitVec 64)) : (d.onDw f).qtz = d.qtz := rfl
@[simp] theorem onDw_snap (d : Dev) (f : (Tbl (BitVec 64)) → Tbl (BitVec 64)) : (d.onDw f).snap = d.snap := rfl
@[simp] theorem onDw_lat (d : Dev) (f : (Tbl (BitVec 64)) → Tbl (BitVec 64)) : (d.onDw f).lat = d.lat := rfl
@[simp] theorem onDw_heads (d : Dev) (f : (Tbl (BitVec 64)) → Tbl (BitVec 64)) : (d.onDw f).heads = d.heads := rfl
@[simp] theorem onDw_jcs (d : Dev) (f : (Tbl (BitVec 64)) → Tbl (BitVec 64)) : (d.onDw f).jcs = d.jcs := rfl
@[simp] theorem onDw_slate (d : Dev) (f : (Tbl (BitVec 64)) → Tbl (BitVec 64)) : (d.onDw f).slate = d.slate := rfl
@[simp] theorem onDw_upd (d : Dev) (f : (Tbl (BitVec 64)) → Tbl (BitVec 64)) : (d.onDw f).upd = d.upd := rfl
@[simp] theorem onDw_panel (d : Dev) (f : (Tbl (BitVec 64)) → Tbl (BitVec 64)) : (d.onDw f).panel = d.panel := rfl
@[simp] theorem onDw_mirror (d : Dev) (f : (Tbl (BitVec 64)) → Tbl (BitVec 64)) : (d.onDw f).mirror = d.mirror := rfl
@[simp] theorem onDw_dw (d : Dev) (f : (Tbl (BitVec 64)) → Tbl (BitVec 64)) : (d.onDw f).dw = f d.dw := rfl
@[simp] theorem onDw_out (d : Dev) (f : (Tbl (BitVec 64)) → Tbl (BitVec 64)) : (d.onDw f).out = d.out := rfl
@[simp] theorem onDw_freeN (d : Dev) (f : (Tbl (BitVec 64)) → Tbl (BitVec 64)) : (d.onDw f).freeN = d.freeN := rfl
@[simp] theorem onOut_mem (d : Dev) (f : (List Out) → List Out) : (d.onOut f).mem = d.mem := rfl
@[simp] theorem onOut_pkg (d : Dev) (f : (List Out) → List Out) : (d.onOut f).pkg = d.pkg := rfl
@[simp] theorem onOut_expo (d : Dev) (f : (List Out) → List Out) : (d.onOut f).expo = d.expo := rfl
@[simp] theorem onOut_sealing (d : Dev) (f : (List Out) → List Out) : (d.onOut f).sealing = d.sealing := rfl
@[simp] theorem onOut_restore (d : Dev) (f : (List Out) → List Out) : (d.onOut f).restore = d.restore := rfl
@[simp] theorem onOut_strata (d : Dev) (f : (List Out) → List Out) : (d.onOut f).strata = d.strata := rfl
@[simp] theorem onOut_flash (d : Dev) (f : (List Out) → List Out) : (d.onOut f).flash = d.flash := rfl
@[simp] theorem onOut_ctxs (d : Dev) (f : (List Out) → List Out) : (d.onOut f).ctxs = d.ctxs := rfl
@[simp] theorem onOut_dram (d : Dev) (f : (List Out) → List Out) : (d.onOut f).dram = d.dram := rfl
@[simp] theorem onOut_energy (d : Dev) (f : (List Out) → List Out) : (d.onOut f).energy = d.energy := rfl
@[simp] theorem onOut_therm (d : Dev) (f : (List Out) → List Out) : (d.onOut f).therm = d.therm := rfl
@[simp] theorem onOut_flint (d : Dev) (f : (List Out) → List Out) : (d.onOut f).flint = d.flint := rfl
@[simp] theorem onOut_qtz (d : Dev) (f : (List Out) → List Out) : (d.onOut f).qtz = d.qtz := rfl
@[simp] theorem onOut_snap (d : Dev) (f : (List Out) → List Out) : (d.onOut f).snap = d.snap := rfl
@[simp] theorem onOut_lat (d : Dev) (f : (List Out) → List Out) : (d.onOut f).lat = d.lat := rfl
@[simp] theorem onOut_heads (d : Dev) (f : (List Out) → List Out) : (d.onOut f).heads = d.heads := rfl
@[simp] theorem onOut_jcs (d : Dev) (f : (List Out) → List Out) : (d.onOut f).jcs = d.jcs := rfl
@[simp] theorem onOut_slate (d : Dev) (f : (List Out) → List Out) : (d.onOut f).slate = d.slate := rfl
@[simp] theorem onOut_upd (d : Dev) (f : (List Out) → List Out) : (d.onOut f).upd = d.upd := rfl
@[simp] theorem onOut_panel (d : Dev) (f : (List Out) → List Out) : (d.onOut f).panel = d.panel := rfl
@[simp] theorem onOut_mirror (d : Dev) (f : (List Out) → List Out) : (d.onOut f).mirror = d.mirror := rfl
@[simp] theorem onOut_dw (d : Dev) (f : (List Out) → List Out) : (d.onOut f).dw = d.dw := rfl
@[simp] theorem onOut_out (d : Dev) (f : (List Out) → List Out) : (d.onOut f).out = f d.out := rfl
@[simp] theorem onOut_freeN (d : Dev) (f : (List Out) → List Out) : (d.onOut f).freeN = d.freeN := rfl
@[simp] theorem onFreeN_mem (d : Dev) (f : Nat → Nat) : (d.onFreeN f).mem = d.mem := rfl
@[simp] theorem onFreeN_pkg (d : Dev) (f : Nat → Nat) : (d.onFreeN f).pkg = d.pkg := rfl
@[simp] theorem onFreeN_expo (d : Dev) (f : Nat → Nat) : (d.onFreeN f).expo = d.expo := rfl
@[simp] theorem onFreeN_sealing (d : Dev) (f : Nat → Nat) : (d.onFreeN f).sealing = d.sealing := rfl
@[simp] theorem onFreeN_restore (d : Dev) (f : Nat → Nat) : (d.onFreeN f).restore = d.restore := rfl
@[simp] theorem onFreeN_strata (d : Dev) (f : Nat → Nat) : (d.onFreeN f).strata = d.strata := rfl
@[simp] theorem onFreeN_flash (d : Dev) (f : Nat → Nat) : (d.onFreeN f).flash = d.flash := rfl
@[simp] theorem onFreeN_ctxs (d : Dev) (f : Nat → Nat) : (d.onFreeN f).ctxs = d.ctxs := rfl
@[simp] theorem onFreeN_dram (d : Dev) (f : Nat → Nat) : (d.onFreeN f).dram = d.dram := rfl
@[simp] theorem onFreeN_energy (d : Dev) (f : Nat → Nat) : (d.onFreeN f).energy = d.energy := rfl
@[simp] theorem onFreeN_therm (d : Dev) (f : Nat → Nat) : (d.onFreeN f).therm = d.therm := rfl
@[simp] theorem onFreeN_flint (d : Dev) (f : Nat → Nat) : (d.onFreeN f).flint = d.flint := rfl
@[simp] theorem onFreeN_qtz (d : Dev) (f : Nat → Nat) : (d.onFreeN f).qtz = d.qtz := rfl
@[simp] theorem onFreeN_snap (d : Dev) (f : Nat → Nat) : (d.onFreeN f).snap = d.snap := rfl
@[simp] theorem onFreeN_lat (d : Dev) (f : Nat → Nat) : (d.onFreeN f).lat = d.lat := rfl
@[simp] theorem onFreeN_heads (d : Dev) (f : Nat → Nat) : (d.onFreeN f).heads = d.heads := rfl
@[simp] theorem onFreeN_jcs (d : Dev) (f : Nat → Nat) : (d.onFreeN f).jcs = d.jcs := rfl
@[simp] theorem onFreeN_slate (d : Dev) (f : Nat → Nat) : (d.onFreeN f).slate = d.slate := rfl
@[simp] theorem onFreeN_upd (d : Dev) (f : Nat → Nat) : (d.onFreeN f).upd = d.upd := rfl
@[simp] theorem onFreeN_panel (d : Dev) (f : Nat → Nat) : (d.onFreeN f).panel = d.panel := rfl
@[simp] theorem onFreeN_mirror (d : Dev) (f : Nat → Nat) : (d.onFreeN f).mirror = d.mirror := rfl
@[simp] theorem onFreeN_dw (d : Dev) (f : Nat → Nat) : (d.onFreeN f).dw = d.dw := rfl
@[simp] theorem onFreeN_out (d : Dev) (f : Nat → Nat) : (d.onFreeN f).out = d.out := rfl
@[simp] theorem onFreeN_freeN (d : Dev) (f : Nat → Nat) : (d.onFreeN f).freeN = f d.freeN := rfl

end Sys2Proof.Machine
end

