-- ==== Sys2Proof/WellFormed.lean ====
section
/-! DEFINITION. Well-formed commands: the operands lie within the widths and ranges that the spec gives them. A meaning is total and
never asks for it; statements do. -/

namespace Sys2Proof

/-- A number of `n` bits. -/
def wide (n v : Nat) : Bool := decide (v < 2 ^ n)
/-- A context ID (R173). -/
def ctxOk (c : Nat) : Bool := decide (c < 16384)
/-- A ring of a context (R185). -/
def ringOk (k : Nat) : Bool := decide (k < 64)
/-- A ring of a context, or number 64 for the entries that the device makes itself (R382). -/
def rowRingOk (k : Nat) : Bool := decide (k ≤ 64)
/-- A granule (R31). -/
def granOk (g : Nat) : Bool := decide (g < 32768)
/-- A page index, DPA[44:12] (R14). -/
def pageOk (p : Nat) : Bool := decide (p < 2 ^ 33)
/-- A line index, DPA[44:6] (R32). -/
def lineOk (l : Nat) : Bool := decide (l < 2 ^ 39)
/-- A JCS payload of at most 16 KiB (R397, R398). -/
def payloadOk (p : List Byte) : Bool := decide (p.length ≤ 16384)
/-- A unique ID of 64 bits, of a peer only (R401). -/
def callerOk (by_ : Fin 4) (uid : Nat) : Bool := if by_.val = 3 then wide 64 uid else uid == 0
/-- A leasable resource (R404). -/
def resOk (r : Nat) : Bool := decide (r ≤ 0x4005)
/-- A lattice link of a peer (R361). -/
def linkOk (l : Nat) : Bool := decide (l < 6)
/-- At most one entry for each tile. -/
def tilesOk {α : Type} (l : List α) : Bool := decide (l.length ≤ 8)
/-- A chunk of a firmware transfer (R467). -/
def chunkOk (p : List Byte) : Bool := decide (p.length ≤ 16256)
/-- The bytes of a page, or none. -/
def pageBytesOk (p : List Byte) : Bool := p.isEmpty || p.length == 4096
/-- Disturbed symbols of a burst: 10 × slice + device, and the bits that are wrong (R219, R220). -/
def errsOk (l : List (Nat × Nat)) : Bool := l.all fun e => decide (e.1 < 80) && wide 8 e.2
/-- Uncorrectable lines of a page, with the devices of their subchannel seen failing (R224, R225). -/
def pageUeOk (l : List (Nat × Nat)) : Bool := l.all fun e => decide (e.1 < 64) && wide 10 e.2
/-- An uncorrectable line of a reserve area: tile, offset within its 12 GiB, devices seen failing (R37, R150). -/
def resvOk (r : Option (Nat × Nat × Nat × Bool)) : Bool := match r with
  | some x => decide (x.1 < 8) && decide (x.2.1 < 12 * 2 ^ 30) && x.2.1 % 64 == 0 && wide 10 x.2.2.1
  | none => true
/-- A run of pages of the fill pass: the first and their number. -/
def fillOk (r : Option (Nat × Nat)) : Bool := match r with
  | some x => pageOk x.1 && pageOk x.2
  | none => true

/-- The operands of a command lie within their ranges. -/
def Instr.wf : Instr → Bool
  | .cxlMemRead _ hpa errs _ _ resv _ => wide 64 hpa && errsOk errs && resvOk resv
  | .cxlMemWrite _ hpa _ _ _ _ _ => wide 64 hpa
  | .armBatchProgram _ _ => true
  | .armProgramDone _ _ _ => true
  | .groupDisarm g _ => wide 24 g
  | .disarmBatchProgram _ _ => true
  | .trickleCapture _ keyErr ue _ => decide (keyErr ≤ 2) && pageUeOk ue
  | .pageRecordDurable _ ue _ => ue.all (fun x => lineOk x.1 && wide 10 x.2)
  | .expoStatusUpdate _ => true
  | .governorRecompute _ => true
  | .eventRecompute _ => true
  | .writePacingDelayExpiry _ => true
  | .writeHoldExpiry _ => true
  | .globalPersistentFlush _ _ => true
  | .gpfCompletion _ _ => true
  | .heartbeat _ => true
  | .leadLost _ => true
  | .takeoverComplete _ => true
  | .paceUpdate paces _ => tilesOk paces && paces.all (fun x => wide 16 x.1 && wide 16 x.2)
  | .powerEstimate _ _ _ => true
  | .operatingPointChange _ => true
  | .operatingPointSettled _ => true
  | .meshLinkFailed _ _ => true
  | .regionTableCommit g _ _ => granOk g
  | .clockedDomainReset _ _ _ => true
  | .pwrFailNAssert _ _ _ => true
  | .vinSenseLow _ _ _ => true
  | .stage1Complete _ => true
  | .stage2MetadataVerified _ _ => true
  | .stage2Complete _ ue _ => ue.all (fun x => lineOk x.1 && wide 10 x.2)
  | .stage3Complete _ _ => true
  | .tileSealRecordWritten _ _ => true
  | .packageSealRecordWritten _ _ => true
  | .stage5Complete _ => true
  | .sealStatusUpdate _ => true
  | .energyFloorReached _ => true
  | .sealProgramFail _ blk _ => wide 21 blk
  | .mainsGood _ => true
  | .resetNRelease _ => true
  | .forcedReset _ => true
  | .testSealPathVerified _ _ => true
  | .testSealHoldLimit _ => true
  | .bootComplete _ _ _ _ _ half torn temps _ untrained _ => half.all (fun x => decide (x.1 < 8) && decide (x.2 < 63)) && torn.all (fun x => decide (x.1 < 8) && wide 16 x.2) && temps.all (fun x => decide (x.1 < 72)) && untrained.all (fun x => decide (x.1 < 8) && decide (x.2 < 16))
  | .dramInitComplete _ _ _ ecc _ => ecc.all (fun x => decide (x.1 < 128))
  | .channelTrainingDone _ _ _ _ _ _ _ => true
  | .tileTierDecided _ _ _ badHdr half _ => badHdr.all (wide 34) && half.all (wide 21)
  | .mountCrossCheck _ => true
  | .mountCommitted _ _ => true
  | .mountTimeout _ _ => true
  | .earlyOpen _ => true
  | .demandFetchComplete p _ _ _ => pageOk p
  | .bulkRestorePage _ fill _ _ _ => fillOk fill
  | .bulkRestoreComplete _ _ => true
  | .restoreStatusUpdate _ => true
  | .locatorCheckpoint _ _ => true
  | .checkpointCommit _ _ => true
  | .ledgerSummary _ _ => true
  | .backgroundErase _ _ _ => true
  | .eraseDone _ _ _ _ => true
  | .flashOpFail _ _ _ lost soft _ _ _ => lost.all pageOk && soft.all pageOk
  | .garbageCollection _ lost soft _ => lost.all pageOk && soft.all pageOk
  | .coldCompaction _ lost soft _ => lost.all pageOk && soft.all pageOk
  | .retentionRefresh _ _ lost soft _ => lost.all pageOk && soft.all pageOk
  | .wearLeveling _ _ lost soft _ => lost.all pageOk && soft.all pageOk
  | .budgetRecompute _ => true
  | .borrowAccountUpdate _ => true
  | .strataStatusUpdate _ => true
  | .doorbellSq _ c k _ _ _ => ctxOk c && ringOk k
  | .doorbellCq _ c k _ _ => ctxOk c && ringOk k
  | .fence c k _ => ctxOk c && ringOk k
  | .fenceComplete c k _ => ctxOk c && ringOk k
  | .checkpoint c k _ => ctxOk c && rowRingOk k
  | .checkpointStratumSet c k _ => ctxOk c && rowRingOk k
  | .checkpointComplete c k _ _ => ctxOk c && rowRingOk k
  | .rollback c k _ => ctxOk c && ringOk k
  | .rollbackSwitchCommit c k _ => ctxOk c && ringOk k
  | .reversalComplete p _ _ => pageOk p
  | .rollbackBitmapRebuilt _ _ => true
  | .exposureQuery c k _ => ctxOk c && ringOk k
  | .meterMark c k _ => ctxOk c && ringOk k
  | .nop c k _ => ctxOk c && ringOk k
  | .coalesceTimerExpiry c k _ => ctxOk c && ringOk k
  | .quiesceComplete c _ => ctxOk c
  | .zeroFillComplete g _ => granOk g
  | .dcReleaseTimeout _ _ => true
  | .sanitizeStepDone c _ => ctxOk c
  | .minuteBoundary _ => true
  | .meteringWrite _ => true
  | .lineRepairComplete p _ _ => pageOk p
  | .patrolScrub line errs _ _ _ => lineOk line && errsOk errs
  | .caRetrainDone _ _ _ _ => true
  | .tokenRefill _ _ _ => true
  | .mr4Poll _ _ codes _ => decide (codes.length ≤ 4)
  | .refreshDue _ _ _ _ _ => true
  | .gatherWindowOpen _ _ _ => true
  | .gatherWindowClose _ _ drifts _ => decide (drifts.length ≤ 4)
  | .partialTrainingDone _ _ _ _ => true
  | .fspSwitchDone _ _ _ => true
  | .selfRefreshEntry _ _ _ _ => true
  | .dramChStatusUpdate _ => true
  | .steerRecordProgrammed _ _ => true
  | .sweepBlockCopied _ _ ue _ _ => ue.all (fun x => wide 15 x.1 && wide 10 x.2)
  | .hpprDone _ _ _ _ => true
  | .patternTestDone _ _ _ _ _ _ _ => true
  | .gaugeSample samples _ _ => decide (samples.length ≤ 3)
  | .packFaultCleared _ _ => true
  | .offsetCalibration _ _ _ => true
  | .estimatorRecompute _ => true
  | .qualifiedRestEnd _ _ _ => true
  | .dcirMeasurement _ _ _ _ => true
  | .bridgeChargeMeasured _ _ _ _ _ _ => true
  | .packFirstEstimate _ _ _ => true
  | .chargeTimeout _ _ => true
  | .capacityTestDue _ _ => true
  | .capacityTestStep _ _ => true
  | .gaugeRecordWrite _ => true
  | .slotAssistUpdate _ _ => true
  | .forcedRestDue _ => true
  | .bayTouch _ _ => true
  | .bayReleasePress _ _ _ => true
  | .bayLatchOpen _ _ => true
  | .bayLatchClose _ _ => true
  | .waitingTimeout _ _ => true
  | .grantLapse _ _ => true
  | .thermalSample codes _ => decide (codes.length ≤ 72) && codes.all (fun x => decide (x.1 < 72))
  | .thresholdLevelLeave _ _ _ => true
  | .throttleStep _ _ => true
  | .throttleFall _ _ => true
  | .sensorRecover _ _ => true
  | .freezeEnd _ _ => true
  | .coolWaitExpiry _ => true
  | .criticalTrip _ _ => true
  | .thermalStatusUpdate _ => true
  | .flintMessage _ _ _ _ => true
  | .safeStateDecision _ => true
  | .shadowWindowClose _ => true
  | .lostMessageReport _ _ => true
  | .eventPostRate _ => true
  | .flintExtractWrite _ => true
  | .aliveToggle _ => true
  | .standbyCountLoad _ => true
  | .quartzTimeRecord _ => true
  | .referenceLost _ => true
  | .referenceGood _ => true
  | .ppsInEdge _ _ => true
  | .ppsTimeout _ => true
  | .ppsOutEdge _ => true
  | .ppsOutFall _ => true
  | .qtzNowRead _ _ _ => true
  | .qtzStatusUpdate _ => true
  | .rootGiveWay _ => true
  | .timeRootLost _ => true
  | .snapInEdge _ _ => true
  | .scheduledTriggerFire _ => true
  | .snapshotBankWrite _ => true
  | .linkTrainingAttempt _ _ _ => true
  | .linkTrained _ _ _ => true
  | .linkSignalLoss _ _ => true
  | .ack _ _ _ => true
  | .nak _ _ _ => true
  | .ackSend _ _ => true
  | .replayTimeout _ _ => true
  | .creditReturn _ _ _ _ => true
  | .creditWaitDiscard _ _ => true
  | .frameForward _ _ _ _ _ _ _ _ _ _ uid body _ => wide 64 uid && body.all (wide 64)
  | .helloSend _ _ => true
  | .hello _ _ uid _ plink _ _ _ troot tseq _ hseq _ => wide 64 uid && linkOk plink && wide 64 troot && wide 32 tseq && wide 32 hseq
  | .helloMissing _ _ => true
  | .holdExpired _ _ => true
  | .linkStateAdvertisement _ _ uid _ _ _ nbrs _ => wide 64 uid && decide (nbrs.length ≤ 6)
  | .lsaPeriodic _ => true
  | .lsaExpiry _ => true
  | .routeCompute _ _ => true
  | .nodeIdRequest _ uid _ _ => wide 64 uid
  | .nodeIdGrant _ uid _ _ _ => wide 64 uid
  | .timeExchangeSend _ => true
  | .timeExchangeReq _ t1 _ => wide 64 t1
  | .timeExchangeAnswer _ t2 t3 unc _ => wide 64 t2 && wide 64 t3 && wide 32 unc
  | .latticeCheckpointRequest _ uid _ tc _ _ => wide 64 uid && wide 64 tc
  | .latticeCheckpointTime _ => true
  | .latticeCheckpointAnswer _ uid _ _ _ ts _ => wide 64 uid && wide 64 ts
  | .latticeCheckpointTimeout _ => true
  | .replicaSend session ue _ => wide 32 session && pageUeOk ue
  | .replicaData _ uid session _ _ k o grans data n _ => wide 64 uid && wide 32 session && granOk k && wide 18 o && wide 16 grans && pageBytesOk data && wide 16 n
  | .replicaAck _ session _ _ status grans _ => wide 32 session && wide 16 status && wide 16 grans
  | .sessionResend session _ => wide 32 session
  | .peerUnreachable uid _ => wide 64 uid
  | .migrationFinalAck _ session _ => wide 32 session
  | .remoteSnapshotTrigger _ _ _ time _ => wide 64 time
  | .remoteSnapshotAnswer _ _ _ _ _ => true
  | .remoteSnapshotTimeout _ => true
  | .jcsRelay _ uid _ _ payload _ => wide 64 uid && payloadOk payload
  | .latticeStatusUpdate _ => true
  | .commandDispatch _ => true
  | .leaseTimeout res _ => resOk res
  | .backgroundComplete _ _ => true
  | .dwWriteDiscarded _ _ _ => true
  | .getCapabilities by_ uid payload _ => callerOk by_ uid && payloadOk payload
  | .getIdentity by_ uid payload _ => callerOk by_ uid && payloadOk payload
  | .readDirectWindow by_ uid payload _ => callerOk by_ uid && payloadOk payload
  | .getBackgroundStatus by_ uid payload _ => callerOk by_ uid && payloadOk payload
  | .create by_ uid payload _ => callerOk by_ uid && payloadOk payload
  | .assign by_ uid payload _ => callerOk by_ uid && payloadOk payload
  | .release by_ uid payload _ => callerOk by_ uid && payloadOk payload
  | .setClass by_ uid payload _ => callerOk by_ uid && payloadOk payload
  | .setOwner by_ uid payload _ => callerOk by_ uid && payloadOk payload
  | .disable by_ uid payload _ => callerOk by_ uid && payloadOk payload
  | .enable by_ uid payload _ => callerOk by_ uid && payloadOk payload
  | .sanitize by_ uid payload _ => callerOk by_ uid && payloadOk payload
  | .getContext by_ uid payload _ => callerOk by_ uid && payloadOk payload
  | .setRetention by_ uid payload _ => callerOk by_ uid && payloadOk payload
  | .readMetering by_ uid payload _ => callerOk by_ uid && payloadOk payload
  | .listContexts by_ uid payload _ => callerOk by_ uid && payloadOk payload
  | .configureRing by_ uid payload _ => callerOk by_ uid && payloadOk payload
  | .disableRing by_ uid payload _ => callerOk by_ uid && payloadOk payload
  | .setInterrupts by_ uid payload _ => callerOk by_ uid && payloadOk payload
  | .getRing by_ uid payload _ => callerOk by_ uid && payloadOk payload
  | .getExposure by_ uid payload _ => callerOk by_ uid && payloadOk payload
  | .setExposurePolicy by_ uid payload _ => callerOk by_ uid && payloadOk payload
  | .getExposurePolicy by_ uid payload _ => callerOk by_ uid && payloadOk payload
  | .readLapseRecords by_ uid payload _ => callerOk by_ uid && payloadOk payload
  | .getGauge by_ uid payload _ => callerOk by_ uid && payloadOk payload
  | .requestRelease by_ uid payload _ => callerOk by_ uid && payloadOk payload
  | .setHold by_ uid payload _ => callerOk by_ uid && payloadOk payload
  | .capacityTest by_ uid payload _ => callerOk by_ uid && payloadOk payload
  | .testSeal by_ uid payload _ => callerOk by_ uid && payloadOk payload
  | .setEnergyPolicy by_ uid payload _ => callerOk by_ uid && payloadOk payload
  | .setBayParameters by_ uid payload _ => callerOk by_ uid && payloadOk payload
  | .setBridgeParameters by_ uid payload _ => callerOk by_ uid && payloadOk payload
  | .loadChemistryTable by_ uid payload _ => callerOk by_ uid && payloadOk payload
  | .readGaugeRecords by_ uid payload _ => callerOk by_ uid && payloadOk payload
  | .getThermal by_ uid payload _ => callerOk by_ uid && payloadOk payload
  | .setThermal by_ uid payload _ => callerOk by_ uid && payloadOk payload
  | .setBoardThresholds by_ uid payload _ => callerOk by_ uid && payloadOk payload
  | .readThermalRecords by_ uid payload _ => callerOk by_ uid && payloadOk payload
  | .readLog by_ uid payload _ => callerOk by_ uid && payloadOk payload
  | .readFirstFault by_ uid payload _ => callerOk by_ uid && payloadOk payload
  | .acknowledge by_ uid payload _ => callerOk by_ uid && payloadOk payload
  | .inject by_ uid payload _ => callerOk by_ uid && payloadOk payload
  | .holdTfaultN by_ uid payload _ => callerOk by_ uid && payloadOk payload
  | .readCounts by_ uid payload _ => callerOk by_ uid && payloadOk payload
  | .takeSnapshot by_ uid payload _ => callerOk by_ uid && payloadOk payload
  | .scheduleSnapshot by_ uid payload _ => callerOk by_ uid && payloadOk payload
  | .latticeSnapshot by_ uid payload _ => callerOk by_ uid && payloadOk payload
  | .readSnapshot by_ uid payload _ => callerOk by_ uid && payloadOk payload
  | .releaseBank by_ uid payload _ => callerOk by_ uid && payloadOk payload
  | .cancelScheduled by_ uid payload _ => callerOk by_ uid && payloadOk payload
  | .getTime by_ uid payload _ => callerOk by_ uid && payloadOk payload
  | .setOffset by_ uid payload _ => callerOk by_ uid && payloadOk payload
  | .setTimeOptions by_ uid payload _ => callerOk by_ uid && payloadOk payload
  | .getLattice by_ uid payload _ => callerOk by_ uid && payloadOk payload
  | .setLink by_ uid payload _ => callerOk by_ uid && payloadOk payload
  | .setGrant by_ uid payload _ => callerOk by_ uid && payloadOk payload
  | .createReplica by_ uid payload _ => callerOk by_ uid && payloadOk payload
  | .controlReplica by_ uid payload _ => callerOk by_ uid && payloadOk payload
  | .streamStatus by_ uid payload _ => callerOk by_ uid && payloadOk payload
  | .migrate by_ uid payload _ => callerOk by_ uid && payloadOk payload
  | .controlMigration by_ uid payload _ => callerOk by_ uid && payloadOk payload
  | .latticeCheckpoint by_ uid payload _ => callerOk by_ uid && payloadOk payload
  | .checkpointResult by_ uid payload _ => callerOk by_ uid && payloadOk payload
  | .getRanks by_ uid payload _ => callerOk by_ uid && payloadOk payload
  | .readRowFaults by_ uid payload _ => callerOk by_ uid && payloadOk payload
  | .retireRank by_ uid payload _ => callerOk by_ uid && payloadOk payload
  | .returnRank by_ uid payload _ => callerOk by_ uid && payloadOk payload
  | .setDramConfiguration by_ uid payload _ => callerOk by_ uid && payloadOk payload
  | .getStrataStatus by_ uid payload _ => callerOk by_ uid && payloadOk payload
  | .setLifeTarget by_ uid payload _ => callerOk by_ uid && payloadOk payload
  | .listStrata by_ uid payload _ => callerOk by_ uid && payloadOk payload
  | .releaseStratum by_ uid payload _ => callerOk by_ uid && payloadOk payload
  | .readDamageList by_ uid payload _ => callerOk by_ uid && payloadOk payload
  | .acquire by_ uid payload _ => callerOk by_ uid && payloadOk payload
  | .leaseRelease by_ uid payload _ => callerOk by_ uid && payloadOk payload
  | .query by_ uid payload _ => callerOk by_ uid && payloadOk payload
  | .breakLease by_ uid payload _ => callerOk by_ uid && payloadOk payload
  | .getRestoreStatus by_ uid payload _ => callerOk by_ uid && payloadOk payload
  | .readPoisonList by_ uid payload _ => callerOk by_ uid && payloadOk payload
  | .readSealRecords by_ uid payload _ => callerOk by_ uid && payloadOk payload
  | .getUpdateStatus by_ uid payload _ => callerOk by_ uid && payloadOk payload
  | .setUpdatePolicy by_ uid payload _ => callerOk by_ uid && payloadOk payload
  | .confirm by_ uid payload _ => callerOk by_ uid && payloadOk payload
  | .enterBedrock by_ uid payload _ => callerOk by_ uid && payloadOk payload
  | .identifyMemoryDevice _ _ => true
  | .getPartitionInfo _ _ => true
  | .setPartitionInfo _ _ => true
  | .getHealthInfo _ _ => true
  | .getAlertConfiguration _ _ => true
  | .setAlertConfiguration _ _ _ => true
  | .getShutdownState _ _ => true
  | .setShutdownState _ _ _ => true
  | .getPoisonList _ a n _ => wide 45 a && wide 46 n
  | .injectPoison _ _ _ => true
  | .clearPoison _ _ _ _ => true
  | .scanMedia _ _ => true
  | .getEventRecords _ _ _ => true
  | .clearEventRecords _ _ _ handles _ => handles.all (wide 16)
  | .getEventInterruptPolicy _ _ => true
  | .setEventInterruptPolicy _ _ _ => true
  | .getTimestamp _ _ => true
  | .setTimestamp _ _ _ => true
  | .getSupportedLogs _ _ => true
  | .getLog _ _ _ _ _ => true
  | .getFwInfo _ _ => true
  | .transferFw _ _ _ _ data dig _ _ => chunkOk data && wide 128 dig
  | .activateFw _ _ _ _ => true
  | .getDcConfig _ _ => true
  | .getDcExtentList _ _ => true
  | .addDcResponse _ gs _ => gs.all granOk
  | .releaseDc _ gs _ => gs.all granOk
  | .cxlSanitize _ _ => true
  | .secureErase _ _ => true
  | .getLsa _ _ => true
  | .setLsa _ _ => true
  | .requestUpdate eid maxTransfer _ => wide 8 eid && wide 32 maxTransfer
  | .requestFirmwareData data dig _ _ => decide (data.length ≤ 4096) && wide 128 dig
  | .activateFirmware _ _ => true
  | .cancelUpdate _ => true
  | .chunkDurable _ => true
  | .slotVerification facts _ => tilesOk facts
  | .updateIdleTimeout _ => true
  | .updateConfirmation _ => true
  | .confirmWindowExpiry _ => true
  | .slateKey _ _ _ _ _ _ => true
  | .programLine _ _ _ _ _ => true
  | .eraseSector _ _ _ _ _ => true
  | .marginVerify _ _ _ _ => true
  | .readEraseCounter _ _ _ _ => true
  | .swapBootTwin _ _ _ _ => true
  | .blankCheck _ _ _ _ => true
  | .slateSequenceTimeout _ _ => true
  | .slateOperationDone _ _ _ _ _ _ => true
  | .suspend _ _ => true
  | .resume _ _ => true
  | .suspendHoldEnd _ _ => true
  | .suspended _ _ => true
  | .slateReadUnderrun _ _ _ => true
  | .parameterRecordWrite _ typ len _ => wide 16 typ && decide (len ≤ 8192)
  | .eventStoreRotation _ _ => true
  | .slateRefresh _ _ _ _ => true
  | .brId _ => true
  | .brTiles _ _ _ => true
  | .brAddr _ _ _ => true
  | .brStat _ => true
  | .brRes _ => true
  | .brLine _ _ _ => true
  | .brErase _ _ _ => true
  | .brOp _ _ _ _ => true
  | .brData _ _ => true
  | .brVerify _ facts _ _ => tilesOk facts
  | .brVres _ => true
  | .brExit _ _ _ => true
  | .vauxRise _ _ _ _ _ => true
  | .powerUp _ => true
  | .railGood _ _ => true
  | .railTimeout _ _ => true
  | .powerUpRetry _ => true
  | .packageReset _ _ _ _ _ => true
  | .vauxFall _ => true
  | .railOutOfRange _ _ => true
  | .headReset _ _ _ => true
  | .headLinkUp _ _ => true
  | .sidebandReset _ _ => true
  | .supervisorWatchdog _ _ => true
  | .mctpRequest _ _ _ payload _ => payloadOk payload
  | .mailboxDoorbell _ _ payload _ => payloadOk payload
  | .moduleButtonRelease _ => true
  | .buttonStuck _ => true
  | .identifyEnd _ => true
  | .touchStuck _ _ _ => true
  | .removalDrainEnd _ => true
  | .refusedHoldIndicationEnd _ => true
  | .bayTouchEnd _ _ => true
  | .headLinkDownLeaseEnd _ _ => true
  | .refusedPressIndicationEnd _ _ => true
  | .tfaultPulseEnd _ _ => true
  | .lossOfBothSupervisors _ => true
  | .msixVectorUnmask _ _ _ => true
  | .hdmDecoderCommit _ _ base size ways gran pos dpaBase _ => wide 64 base && wide 64 size && wide 5 ways && wide 15 gran && wide 4 pos && wide 45 dpaBase
  | .perstNDeassert _ _ => true
  | .resetNAssert _ => true
  | .moduleButtonPress _ => true
  | .pwrFailNDeassert _ => true
  | .vinSenseHigh _ => true
  | .thermalRecordWrite _ => true
  | .slateCmdWrite _ _ _ => true

end Sys2Proof
end

