-- ==== Sys2Proof/Tests/Slice0.lean ====
section
/-! SUPPORT. The model's own tests: the well-formedness smoke, a few worked examples of the spec, and for every statement with hypotheses
a state and operands that meet them. -/

set_option linter.unusedVariables false
set_option maxRecDepth 20000

namespace Sys2Proof.Tests
open Sys2Proof Sys2Proof.Machine

/-- A device in normal operation: both supervisors of the package role run, memory is open, head H0 has one decoder over the whole
address space and owns granules 0 (P1), 1 (P2) and 2 (V). -/
def up : Dev :=
  { pkg := { tiles := tiles8.map fun t => (t, { supvOk := true, pace := 0x1000, sealPace := 0x1000 }) }
    restore := { phase := 7, ready := true }
    sealing := { hibernating := false }
    panel := { coreUp := true, pwrEn := true, mainsGood := true }
    qtz := { running := true, count := 1000000000000000 }
    heads := [(0, { linkUp := true, media := 1,
                    hdm := [(0, { committed := true, base := 0, size := 2 ^ 44, ways := 1, gran := 256, pos := 0, dpaBase := 0 })] }),
              (1, { media := 1 })]
    ctxs := { tbl := [(5, { state := 1, owner := 1, keyValid := 0xFF, keyMeta := true }), (6, { state := 1, owner := 1 })]
              rt := [(0, { valid := true, head := 1, cls := 1, context := 5 }), (1, { valid := true, head := 1, cls := 2, context := 5 }),
                     (2, { valid := true, head := 1, cls := 3, context := 6 })] } }

/-- A state with no command waiting whose device is `up`, changed by `f`. -/
def at_ (f : Dev → Dev) : State := { pending := [], dev := f up }


/-- `up` with ES0 of tile 1 filled but for less than 96 KiB, and one line in ES1. -/
def full : Dev :=
  up.onSl 1 fun x => { x with lines := ((List.range 10241).map fun i : Nat => (0x74000 + i, (5 : BitVec 128))) ++ [(0x78000, 5)] }

/-- The lines that fill ES0 all lie in it. -/
theorem full_lines (f : Nat × BitVec 128 → Bool) (h : ∀ i, i < 10241 → f (0x74000 + i, 5) = true) :
    ((List.range 10241).map fun i : Nat => (0x74000 + i, (5 : BitVec 128))).filter f =
      (List.range 10241).map fun i : Nat => (0x74000 + i, (5 : BitVec 128)) := by
  rw [List.filter_eq_self]
  intro a ha
  obtain ⟨i, hi, rfl⟩ := List.mem_map.1 ha
  exact h i (List.mem_range.1 hi)

/-- Tile 1 of `full` holds those lines. -/
theorem full_sl : ((full.elapse 0).sl 1).lines =
    ((List.range 10241).map fun i : Nat => (0x74000 + i, (5 : BitVec 128))) ++ [(0x78000, 5)] := rfl

/-- ES0 of tile 1 holds 10,241 lines or more. -/
theorem full_es0 : 10241 ≤ (full.elapse 0).secUsed 1 0x3C := by
  unfold Dev.secUsed Dev.secContents
  rw [full_sl, List.filter_append, full_lines _ (by intro i hi; simp [secBase, secLines]; omega)]
  simp

/-- ES1 of tile 1 is not empty. -/
theorem full_es1 : (full.elapse 0).secUsed 1 0x3D ≠ 0 := by
  unfold Dev.secUsed Dev.secContents
  rw [full_sl, List.filter_append]
  simp [secBase, secLines]

/-- The 512-byte header of an image of 64 bytes, version 2.8.20, SVN 6. -/
def img : List Byte :=
  fields [(4, 0x4A524D49), (2, 1), (2, 0x8800), (4, 0x02080014), (1, 6), (1, 0), (2, 0), (4, 64), (4, 0), (4, 0), (4, 0), (2, 0)]
    ++ List.replicate 478 0

/-! ### Well-formedness: each check refuses an ill-formed command -/

theorem test_wf_hpa : Instr.wf (.cxlMemRead 0 (2 ^ 64) [] false false none 0) = false := by decide
theorem test_wf_hpa_ok : Instr.wf (.cxlMemRead 0 (2 ^ 64 - 1) [] false false none 0) = true := by decide
theorem test_wf_symbol : Instr.wf (.cxlMemRead 0 0 [(80, 1)] false false none 0) = false := by decide
theorem test_wf_error : Instr.wf (.cxlMemRead 0 0 [(0, 256)] false false none 0) = false := by decide
theorem test_wf_reserve_tile : Instr.wf (.cxlMemRead 0 0 [] false false (some (8, 0, 0, false)) 0) = false := by decide
theorem test_wf_reserve_offset : Instr.wf (.cxlMemRead 0 0 [] false false (some (0, 12 * 2 ^ 30, 0, false)) 0) = false := by decide
theorem test_wf_devices : Instr.wf (.cxlMemRead 0 0 [] false false (some (0, 0, 1024, false)) 0) = false := by decide
theorem test_wf_group : Instr.wf (.groupDisarm (2 ^ 24) 0) = false := by decide
theorem test_wf_keys : Instr.wf (.trickleCapture 0 3 [] 0) = false := by decide
theorem test_wf_page_line : Instr.wf (.trickleCapture 0 0 [(64, 6)] 0) = false := by decide
theorem test_wf_pace_tiles : Instr.wf (.paceUpdate (List.replicate 9 (0, 0)) 0) = false := by decide
theorem test_wf_pace_width : Instr.wf (.paceUpdate [(65536, 0)] 0) = false := by decide
theorem test_wf_granule : Instr.wf (.regionTableCommit 32768 false 0) = false := by decide
theorem test_wf_block : Instr.wf (.sealProgramFail 0 (2 ^ 21) 0) = false := by decide
theorem test_wf_half : Instr.wf (.bootComplete 0 0 0 0 true [(0, 63)] [] [] (0, 0) [] 0) = false := by decide
theorem test_wf_torn : Instr.wf (.bootComplete 0 0 0 0 true [] [(8, 0)] [] (0, 0) [] 0) = false := by decide
theorem test_wf_channel : Instr.wf (.bootComplete 0 0 0 0 true [] [] [(72, 0)] (0, 0) [] 0) = false := by decide
theorem test_wf_page : Instr.wf (.demandFetchComplete (2 ^ 33) 0 0 0) = false := by decide
theorem test_wf_fill : Instr.wf (.bulkRestorePage 0 (some (0, 2 ^ 33)) 0 0 0) = false := by decide
theorem test_wf_lost_page : Instr.wf (.garbageCollection 0 [2 ^ 33] [] 0) = false := by decide
theorem test_wf_soft_page : Instr.wf (.retentionRefresh 0 0 [] [2 ^ 33] 0) = false := by decide
theorem test_wf_untrained : Instr.wf (.bootComplete 0 0 0 0 true [] [] [] (0, 0) [(0, 16)] 0) = false := by decide
theorem test_wf_bad_header : Instr.wf (.tileTierDecided 0 false true [2 ^ 34] [] 0) = false := by decide
theorem test_wf_context : Instr.wf (.fence 16384 0 0) = false := by decide
theorem test_wf_ring : Instr.wf (.doorbellSq 0 5 64 0 0 0) = false := by decide
theorem test_wf_ring_ok : Instr.wf (.doorbellSq 0 16383 63 0 0 0) = true := by decide
theorem test_wf_own_ring : Instr.wf (.checkpoint 5 65 0) = false := by decide
theorem test_wf_own_ring_ok : Instr.wf (.checkpoint 5 64 0) = true := by decide
theorem test_wf_line : Instr.wf (.patrolScrub (2 ^ 39) [] false false 0) = false := by decide
theorem test_wf_mr4 : Instr.wf (.mr4Poll 0 0 [0, 0, 0, 0, 0] 0) = false := by decide
theorem test_wf_drifts : Instr.wf (.gatherWindowClose 0 0 [0, 0, 0, 0, 0] 0) = false := by decide
theorem test_wf_samples : Instr.wf (.gaugeSample (List.replicate 4 (0, 0, 0, 0)) 0 0) = false := by decide
theorem test_wf_sensor : Instr.wf (.thermalSample [(72, 0)] 0) = false := by decide
theorem test_wf_flit_uid : Instr.wf (.frameForward 0 true 0 0 0 0 0 0 true true (2 ^ 64) [] 0) = false := by decide
theorem test_wf_flit_body : Instr.wf (.frameForward 0 true 0 0 0 0 0 0 true true 0 [2 ^ 64] 0) = false := by decide
theorem test_wf_peer_link : Instr.wf (.hello 0 true 0 0 6 0 0 0 0 0 0 0 0) = false := by decide
theorem test_wf_hello_seq : Instr.wf (.hello 0 true 0 0 0 0 0 0 0 0 0 (2 ^ 32) 0) = false := by decide
theorem test_wf_neighbours : Instr.wf (.linkStateAdvertisement 0 true 0 0 0 0 (List.replicate 7 (0, 0, 0, 0, 0)) 0) = false := by decide
theorem test_wf_time_answer : Instr.wf (.timeExchangeAnswer 0 0 0 (2 ^ 32) 0) = false := by decide
theorem test_wf_page_bytes : Instr.wf (.replicaData 0 0 0 0 0 0 0 0 [1] 0 0) = false := by decide
theorem test_wf_page_bytes_ok : Instr.wf (.replicaData 0 0 0 0 0 0 0 0 [] 0 0) = true := by decide
theorem test_wf_session : Instr.wf (.replicaSend (2 ^ 32) [] 0) = false := by decide
theorem test_wf_caller : Instr.wf (.getIdentity 0 1 [] 0) = false := by decide
theorem test_wf_peer : Instr.wf (.getIdentity 3 (2 ^ 64) [] 0) = false := by decide
theorem test_wf_peer_ok : Instr.wf (.getIdentity 3 (2 ^ 64 - 1) [] 0) = true := by decide
theorem test_wf_payload : Instr.wf (.getIdentity 0 0 (List.replicate 16385 0) 0) = false := by
  simp only [Instr.wf, payloadOk, List.length_replicate]; decide
theorem test_wf_lease : Instr.wf (.leaseTimeout 0x4006 0) = false := by decide
theorem test_wf_poison_range : Instr.wf (.getPoisonList 0 (2 ^ 45) 64 0) = false := by decide
theorem test_wf_handles : Instr.wf (.clearEventRecords 0 0 false [65536] 0) = false := by decide
theorem test_wf_chunk : Instr.wf (.transferFw 0 1 0 0 (List.replicate 16257 0) 0 0 0) = false := by
  simp only [Instr.wf, chunkOk, List.length_replicate]; decide
theorem test_wf_digest : Instr.wf (.transferFw 0 1 0 0 [] (2 ^ 128) 0 0) = false := by decide
theorem test_wf_extent : Instr.wf (.addDcResponse 0 [32768] 0) = false := by decide
theorem test_wf_endpoint : Instr.wf (.requestUpdate 256 0 0) = false := by decide
theorem test_wf_component_data : Instr.wf (.requestFirmwareData (List.replicate 4097 0) 0 0 0) = false := by
  simp only [Instr.wf, List.length_replicate]; decide
theorem test_wf_facts : Instr.wf (.slotVerification (List.replicate 9 0) 0) = false := by decide
theorem test_wf_record_type : Instr.wf (.parameterRecordWrite 0 65536 0 0) = false := by decide
theorem test_wf_record_length : Instr.wf (.parameterRecordWrite 0 1 8193 0) = false := by decide
theorem test_wf_decoder : Instr.wf (.hdmDecoderCommit 0 0 0 0 32 256 0 0 0) = false := by decide

/-! ### Worked examples of the spec -/

/-- The worked example of spec chapter 1: 4 ranks a channel of 256 GiB, one spare, a 64 MiB tile grain and a 1 KiB channel grain. -/
def example1 : Dev := up.onDram fun x => { x with cfg := { x.cfg with n := 4, sGib := 256, spares := 1, tgrain := 1, cgrain := 2 } }

theorem test_decode_granule : pageGran (0x0ABCDE123456 / 4096) = 0x2AF3 ∧ pageGroup (0x0ABCDE123456 / 4096) = 0x55E6F0 := by decide
theorem test_decode_tile : example1.tileOf 0x0ABCDE123456 = 7 ∧ example1.tla 0x0ABCDE123456 = 0x1579A123456 := by decide
theorem test_decode_channel : example1.chanOf 0x1579A123456 = (1, 1, 0x15E6848C56) := by decide
theorem test_host_visible : 8 * example1.hostGib = 30624 := by decide
/-- Chapter 2's bridge-only column: 4.3 kJ over the fixed energy at 0.78 J/GB and 320 GB/s hold 4,685.9 GB. -/
theorem test_energy_bound : energyPages (8 * paceDen) 4300000 780000 320000 * 4096 / 100000000 = 46858 := by decide
/-- Chapter 2's rate bound: 320 GB/s for 30 s is 9,600 GB. -/
theorem test_rate_bound : windowPages (8 * paceDen) * 4096 = 9600000000000 := by decide

/-! ### States and operands that meet the hypotheses of the statements -/

theorem test_wit_PackageRoleRows_1 :
    let s : State := (at_ id); let dt : Nat := (7); 
    (s.dev.supv s.dev.pkg.lead = true) := by
  decide

theorem test_wit_PackageRoleRows_2 :
    let s : State := (at_ fun d => d.onTile 0 fun t => { t with supvOk := false }); let dt : Nat := (5); let t : Nat := (4); 
    (s.dev.pkg.takeStep = 0) ∧ (s.dev.pkg.deputy = some t) ∧ (s.dev.supv s.dev.pkg.lead = false) := by
  decide

theorem test_wit_PackageRoleRows_3 :
    let s : State := (at_ fun d => (d.onPkg fun p => { p with takeStep := 2 }).onMirror fun m => { m with kSeal := 900000, leases := [(3, {})] }); let dt : Nat := (5); let t : Nat := (4); 
    (s.dev.pkg.takeStep = 2) ∧ (s.dev.pkg.deputy = some t) := by
  decide

theorem test_wit_PackageRoleRows_4 :
    let s : State := (at_ fun d => d.onPkg fun p => { p with tiles := [] }); let dt : Nat := (0); 
    (s.dev.supv 0 = false) ∧ (s.dev.supv 4 = false) ∧ (s.dev.pkg.safe ≠ 2) := by
  decide

theorem test_wit_PaceAndOperatingPointRows_1 :
    let s : State := (at_ id); let paces : List (Nat × Nat) := ([(1, 2), (70000, 4)]); let dt : Nat := (0); let t : Fin 8 := (1); 
    ((s.dev.elapse dt).tickDue 0 1000000 = true) := by
  decide

theorem test_wit_PaceAndOperatingPointRows_2 :
    let s : State := (at_ fun d => d.onPkg fun p => { p with lastTick := [(0, 1000000000)] }); let paces : List (Nat × Nat) := ([(1, 2)]); let dt : Nat := (5); 
    ((s.dev.elapse dt).tickDue 0 1000000 = false) := by
  decide

theorem test_wit_PaceAndOperatingPointRows_4 :
    let s : State := (at_ fun d => d.onRestore fun r => { r with phase := 6 }); let dt : Nat := (0); 
    (s.dev.pkg.takeStep = 0) := by
  decide

theorem test_wit_PaceAndOperatingPointRows_5 :
    let s : State := (at_ fun d => d.onPkg fun p => { p with takeStep := 2 }); let dt : Nat := (0); 
    (s.dev.pkg.takeStep ≠ 0) := by
  decide

theorem test_wit_PaceAndOperatingPointRows_6 :
    let s : State := (at_ fun d => d.onPkg fun p => { p with opptReq := some 0 }); let dt : Nat := (3); let pt : Nat := (0); 
    (s.dev.pkg.opptReq = some pt) := by
  decide

theorem test_wit_SealSelectsSealPoint_1 :
    let d : Dev := (up.onSealing fun x => { x with active := true, stage := 5 }); 
    (d.sealing.active = true) ∧ (2 ≤ d.sealing.stage) ∧ (d.sealing.stage ≤ (if d.sealing.test then 4 else 5)) := by
  decide

theorem test_wit_SealSelectsSealPoint_2 :
    let d : Dev := (up.onTile 7 fun t => { t with throttle := 1 }); let t : Fin 8 := (7); 
    ((d.tile t.val).throttle ≠ 0) := by
  decide

theorem test_wit_SealSelectsSealPoint_3 :
    let d : Dev := (up.onPkg fun p => { p with powerMw := 160001 }); 
    (160000 < d.pkg.powerMw) := by
  decide

theorem test_wit_SealSelectsSealPoint_4 :
    let d : Dev := ((up.onPkg fun p => { p with powerMw := 160000 }).onRestore fun r => { r with phase := 6 }); 
    (d.sealing.active = false) ∧ (d.restore.phase = 6) ∧ (d.pkg.powerMw ≤ 160000) ∧ ((∀ t : Fin 8, (d.tile t.val).throttle = 0)) := by
  decide

theorem test_wit_MeshAndDomainRows_1 :
    let s : State := (at_ id); let l : Fin 12 := (11); let dt : Nat := (0); 
    (s.dev.pkg.meshFailed.contains l.val = false) := by
  decide

theorem test_wit_MeshAndDomainRows_3 :
    let d : Dev := (up.onPkg fun p => { p with meshFailed := [3] }); let a : Fin 8 := (0); let b : Fin 8 := (3); 
    (d.pkg.meshFailed.length ≤ 1) := by
  decide

theorem test_wit_MemoryRequestRows_1 :
    let s : State := (at_ id); let h : Fin 2 := (0); let hpa : Nat := (0x1040); let dt : Nat := (1); let dpa : Nat := (0x1040); 
    (s.dev.pkg.safe = 0) ∧ (s.dev.hdmDecode h.val hpa = some dpa) ∧ (s.dev.restore.ready = true) ∧ (s.dev.sealing.frozen = false) ∧ (s.dev.pageOpen h.val (dpa / 4096) = true) ∧ ((s.dev.tile (s.dev.pageTile (dpa / 4096))).isolated = false) ∧ ((s.dev.holds { head := h.val, line := dpa / 64 }).free = true) ∧ (s.dev.poisoned (dpa / 64) = false) ∧ (s.dev.lineWaits (dpa / 64) false false false = false) := by
  decide

theorem test_wit_MemoryRequestRows_2 :
    let s : State := (at_ id); let h : Fin 2 := (0); let hpa : Nat := (0x1040); let dt : Nat := (1); let dpa : Nat := (0x1040); let errs : List (Nat × Nat) := ([(3, 0x81), (73, 7)]); let j : Fin 8 := (3); 
    (s.dev.pkg.safe = 0) ∧ (s.dev.hdmDecode h.val hpa = some dpa) ∧ (s.dev.restore.ready = true) ∧ (s.dev.sealing.frozen = false) ∧ (s.dev.pageOpen h.val (dpa / 4096) = true) ∧ ((s.dev.tile (s.dev.pageTile (dpa / 4096))).isolated = false) ∧ ((s.dev.holds { head := h.val, line := dpa / 64 }).free = true) ∧ (s.dev.poisoned (dpa / 64) = false) ∧ (s.dev.lineWaits (dpa / 64) false false false = false) ∧ ((∀ e ∈ errs, e.1 < 80 ∧ e.1 % 10 = j.val)) := by
  decide

theorem test_wit_MemoryRequestRows_3 :
    let s : State := (at_ fun d => d.onExpo fun e => { e with armed := [{ group := 0 }] }); let h : Fin 2 := (0); let hpa : Nat := (0x1040); let data : BitVec 512 := (0x1234); let mask : BitVec 64 := (3); let dt : Nat := (1); let dpa : Nat := (0x1040); 
    (s.dev.pkg.safe = 0) ∧ (s.dev.hdmDecode h.val hpa = some dpa) ∧ (s.dev.restore.ready = true) ∧ (s.dev.sealing.frozen = false) ∧ (s.dev.pageOpen h.val (dpa / 4096) = true) ∧ ((s.dev.tile (s.dev.pageTile (dpa / 4096))).isolated = false) ∧ ((s.dev.holds { head := h.val, line := dpa / 64, write := true }).free = true) ∧ (s.dev.poisoned (dpa / 64) = false) ∧ (s.dev.lineWaits (dpa / 64) true true false = false) := by
  decide

theorem test_wit_MemoryRequestRows_4 :
    let s : State := (at_ id); let h : Fin 2 := (1); let hpa : Nat := (0); let dt : Nat := (0); 
    (s.dev.pkg.safe = 0) ∧ (s.dev.hdmDecode h.val hpa = none) := by
  decide

theorem test_wit_MemoryRequestRows_5 :
    let s : State := (at_ id); let h : Fin 2 := (0); let hpa : Nat := (2 ^ 30 * 3); let data : BitVec 512 := (1); let mask : BitVec 64 := (1); let dt : Nat := (0); let dpa : Nat := (2 ^ 30 * 3); 
    (s.dev.pkg.safe = 0) ∧ (s.dev.hdmDecode h.val hpa = some dpa) ∧ (s.dev.restore.ready = true) ∧ (s.dev.sealing.frozen = false) ∧ (s.dev.pageOpen h.val (dpa / 4096) = false) := by
  decide

theorem test_wit_MemoryRequestRows_7 :
    let d : Dev := (up.storePoison 3); let l : Nat := (3); let data : BitVec 512 := (5); let mask : BitVec 64 := (1); 
    (mask ≠ BitVec.allOnes 64) ∧ (d.poisoned l = true) := by
  decide

theorem test_wit_ArmingRows_1 :
    let s : State := (at_ fun d => d.onExpo fun e => { e with armReq := [0], disarmQ := [(7, 3), (8, 3)] }); let t : Fin 8 := (0); let dt : Nat := (0); 
    (tget s.dev.expo.armProg none t.val = none) ∧ (s.dev.armReqs t.val ≠ []) ∧ (s.dev.armRoom t.val ≠ 0) ∧ ((s.dev.tile t.val).isolated = false) := by
  decide

theorem test_wit_ArmingRows_2 :
    let s : State := (at_ fun d => d.onExpo fun e => { e with armProg := [(0, some { arms := [0, 256], disarms := [9] })] }); let t : Fin 8 := (0); let dt : Nat := (0); let p : ArmProg := ({ arms := [0, 256], disarms := [9] }); 
    (tget s.dev.expo.armProg none t.val = some p) := by
  decide

theorem test_wit_ArmingRows_3 :
    let s : State := (at_ fun d => d.onExpo fun e => { e with armed := [{ group := 3, cleanSince := some 999400000000000 }] }); let g : Nat := (3); let dt : Nat := (0); let x : ArmedGroup := ({ group := 3, cleanSince := some 999400000000000 }); let t0 : Nat := (999400000000000); 
    (x ∈ s.dev.expo.armed) ∧ (x.group = g) ∧ (x.cleanSince = some t0) ∧ (600000000000 ≤ (s.dev.elapse dt).since t0) := by
  decide

theorem test_wit_ArmingRows_4 :
    let s : State := (at_ fun d => d.onExpo fun e => { e with disarmQ := [(0, 999999000000000)] }); let t : Fin 8 := (0); let dt : Nat := (0); let q : Nat × Nat := ((0, 999999000000000)); 
    (tget s.dev.expo.armProg none t.val = none) ∧ (q ∈ s.dev.expo.disarmQ) ∧ (s.dev.groupTile q.1 = t.val) ∧ (1000000000 ≤ (s.dev.elapse dt).since q.2) := by
  decide

theorem test_wit_GovernorRows_1 :
    let s : State := (at_ fun d => d.onExpo fun e => { e with dirty := [{ page := 1, since := 0 }, { page := 9, since := 0 }] }); let dt : Nat := (0); 
    ((s.dev.elapse dt).tickDue 1 1000000 = true) := by
  decide

theorem test_wit_GovernorRows_2 :
    let s : State := (at_ id); let dt : Nat := (0); 
    (s.dev.roleRuns = true) ∧ ((s.dev.bay 0).state ≠ 3) ∧ ((s.dev.bay 1).state ≠ 3) := by
  decide

theorem test_wit_GovernorRows_3 :
    let s : State := (at_ fun d => d.govTrigger 4); let dt : Nat := (0); 
    (s.dev.roleRuns = true) ∧ (s.dev.expo.gov.triggers ≠ []) ∧ ((s.dev.bay 0).state ≠ 3) ∧ ((s.dev.bay 1).state ≠ 3) := by
  decide

theorem test_wit_GovernorRows_4 :
    let s : State := (at_ fun d => d.onExpo fun e => { e with paced := [{ id := 1, head := 0, due := 5 }, { id := 2, head := 0, due := 2000000000000000 }] }); let dt : Nat := (1); 
    ((∀ p ∈ s.dev.expo.paced, p.ack = false)) := by
  decide

theorem test_wit_GovernorRows_7 :
    let s : State := (at_ id); let h : Fin 2 := (1); let dt : Nat := (0); 
    (s.dev.sealing.active = false) := by
  decide

theorem test_wit_GovernorRows_8 :
    let s : State := (at_ fun d => d.onSealing fun x => { x with active := true }); let h : Fin 2 := (1); let dt : Nat := (0); 
    (s.dev.sealing.active = true) ∧ (s.dev.sealing.test = false) := by
  decide

theorem test_wit_GovernorRows_9 :
    let s : State := (at_ fun d => d.onHead 0 fun h => { h with gpf := [4, 5] }); let h : Fin 2 := (0); let dt : Nat := (0); let x : Nat := (4); let r : List Nat := ([5]); 
    ((s.dev.head h.val).gpf = x :: r) := by
  decide

theorem test_wit_TrickleRows_1 :
    let s : State := (at_ fun d => (d.onExpo fun e => { e with dirty := [{ page := 1, since := 0 }], armed := [{ group := 0 }] }).onFl 0 fun f => { f with zone := 10 }); let t : Fin 8 := (0); let dt : Nat := (0); let x : DirtyPage := ({ page := 1, since := 0 }); let fence : Bool := (false); let c : Nat := (5); 
    ((s.dev.elapse dt).trickleMay t.val = true) ∧ ((s.dev.elapse dt).tricklePick t.val = some (x, fence)) ∧ ((s.dev.elapse dt).rateMay t.val = true) ∧ ((s.dev.elapse dt).flashTurn t.val ((s.dev.elapse dt).trickleLevel t.val fence) 1 = true) ∧ (((s.dev.stream t.val 0).left ≠ 0 ∨ (s.dev.leastWorn t.val (s.dev.dataDies t.val) ≠ none ∧ s.dev.strata.slcPages ≠ 0))) ∧ (s.dev.pageCtx x.page = some c) ∧ ((s.dev.ctx c).keyLost = false) := by
  decide

theorem test_wit_TrickleRows_2 :
    let s : State := (at_ fun d => (d.onExpo fun e => { e with dirty := [{ page := 1, since := 0 }], inflight := [{ page := 1, vseq := 1, time := 5 }], armed := [{ group := 0 }] })); let t : Fin 8 := (0); let dt : Nat := (0); let f : InFlight := ({ page := 1, vseq := 1, time := 5 }); 
    (s.dev.flashHeld = false) ∧ ((s.dev.tile t.val).isolated = false) ∧ ((s.dev.expo.inflight.find? fun f => s.dev.pageTile f.page == t.val) = some f) ∧ (s.dev.persistent f.page = true) ∧ (s.dev.notTrimmed (s.dev.recOf t.val f) = true) ∧ (s.dev.sealing.stopped = false) ∧ ((∀ g ∈ s.dev.expo.inflight, g.page = f.page → g = f)) := by
  decide

theorem test_wit_PowerFailRows_1 :
    let s : State := (at_ id); let width : Nat := (1000); let taken : Bool := (false); let dt : Nat := (5); 
    (s.dev.panel.coreUp = true) ∧ (s.dev.pkg.safe = 0) ∧ (s.dev.restore.ready = true) ∧ (s.dev.pkg.bedrock = false) ∧ (s.dev.sealing.active = false) ∧ (1000 ≤ width) := by
  decide

theorem test_wit_PowerFailRows_2 :
    let s : State := (at_ id); let width : Nat := (200); let taken : Bool := (true); let dt : Nat := (5); 
    (s.dev.panel.coreUp = true) ∧ (s.dev.pkg.safe = 0) ∧ (s.dev.restore.ready = true) ∧ (s.dev.pkg.bedrock = false) ∧ (s.dev.sealing.active = false) ∧ ((1000 ≤ width ∨ (200 ≤ width ∧ taken = true))) := by
  decide

theorem test_wit_PowerFailRows_3 :
    let s : State := (at_ id); let width : Nat := (199); let taken : Bool := (true); let dt : Nat := (0); 
    (width < 200) := by
  decide

theorem test_wit_PowerFailRows_4 :
    let s : State := (at_ id); let width : Nat := (0); let taken : Bool := (true); let dt : Nat := (0); 
    (width < 200) := by
  decide

theorem test_wit_PowerFailRows_5 :
    let s : State := (at_ fun d => d.onSealing fun x => { x with active := true, cause := 1 }); let width : Nat := (5000); let taken : Bool := (false); let dt : Nat := (1); 
    (s.dev.panel.coreUp = true) ∧ (s.dev.pkg.safe = 0) ∧ (s.dev.sealing.active = true) ∧ (s.dev.sealing.test = false) ∧ (1000 ≤ width) := by
  decide

theorem test_wit_PowerFailRows_6 :
    let s : State := (at_ fun d => d.onPanel fun p => { p with pwrFailN := false, vinOk := true, goodSince := none }); let dt : Nat := (3); 
    (s.dev.panel.vinOk = true) ∧ (s.dev.panel.goodSince = none) := by
  decide

theorem test_wit_PowerFailRows_7 :
    let s : State := (at_ fun d => d.onPanel fun p => { p with pwrFailN := false }); let dt : Nat := (3); 
    (s.dev.panel.pwrFailN = false) := by
  decide

theorem test_wit_PowerFailRows_8 :
    let s : State := (at_ fun d => (d.onPanel fun p => { p with mainsGood := false, goodSince := some 5 }).onSealing fun x => { x with active := true }); let dt : Nat := (3); let t0 : Nat := (5); 
    (s.dev.panel.goodSince = some t0) ∧ (t0 + 100000000 ≤ (s.dev.elapse dt).now) ∧ (s.dev.panel.mainsGood = false) := by
  decide

theorem test_wit_SealStageRows_1 :
    let s : State := (at_ fun d => (d.onSealing fun x => { x with active := true, stage := 1 }).onExpo fun e => { e with held := [{ id := 1, head := 0, line := 70, write := true, forArm := true }] }); let dt : Nat := (1); 
    (s.dev.sealing.active = true) ∧ (s.dev.sealing.stage = 1) ∧ (s.dev.stage1Done = true) := by
  decide

theorem test_wit_SealStageRows_2 :
    let s : State := (at_ fun d => d.onSealing fun x => { x with active := true, stage := 2, tileStage := [(0, 2)] }); let t : Fin 8 := (0); let dt : Nat := (1); 
    (s.dev.sealing.active = true) ∧ (s.dev.tileStage t.val = 2) ∧ ((s.dev.tile t.val).isolated = false) := by
  decide

theorem test_wit_SealStageRows_3 :
    let s : State := (at_ fun d => d.onSealing fun x => { x with active := true, stage := 2, tileStage := [(3, 2)], metaOk := 8, tTrigger := 9, p1Start := [(3, 7)] }); let t : Fin 8 := (3); let dt : Nat := (1); 
    (s.dev.sealing.active = true) ∧ (s.dev.tileStage t.val = 2) ∧ (mbit s.dev.sealing.metaOk t.val = true) ∧ ((s.dev.tile t.val).isolated = false) := by
  decide

theorem test_wit_SealStageRows_4 :
    let s : State := (at_ fun d => d.onSealing fun x => { x with active := true, stage := 3, tileStage := [(3, 3)] }); let t : Fin 8 := (3); let dt : Nat := (1); 
    (s.dev.sealing.active = true) ∧ (s.dev.sealing.test = false) ∧ (s.dev.tileStage t.val = 3) ∧ (s.dev.quiet t.val = true) ∧ (s.dev.xTile t.val = 0) := by
  decide

theorem test_wit_SealStageRows_5 :
    let s : State := (at_ fun d => (d.onSealing fun x => { x with active := true, stage := 3, tileStage := [(0, 3)], stopped := true }).onExpo fun e => { e with dirty := [{ page := 0, since := 1 }] }); let t : Fin 8 := (0); let dt : Nat := (1); 
    (s.dev.sealing.active = true) ∧ (s.dev.sealing.test = false) ∧ (s.dev.tileStage t.val = 3) ∧ (s.dev.quiet t.val = true) ∧ (s.dev.xTile t.val ≠ 0) ∧ (s.dev.sealing.stopped = true) ∧ (mbit s.dev.sealing.noLand t.val = false) := by
  decide

theorem test_wit_SealStageRows_6 :
    let s : State := (at_ fun d => d.onSealing fun x => { x with active := true, stage := 4, tileStage := [(3, 4)], landedT := [(3, 6)] }); let t : Fin 8 := (3); let dt : Nat := (1); 
    (s.dev.sealing.active = true) ∧ (s.dev.tileStage t.val = 4) ∧ ((s.dev.tile t.val).isolated = false) := by
  decide

theorem test_wit_SealStageRows_7 :
    let s : State := (at_ fun d => (d.onSealing fun x => { x with active := true, stage := 3 }).onEnergy fun e => { e with src := [] }); let dt : Nat := (1); 
    (s.dev.sealing.active = true) ∧ (2 ≤ s.dev.sealing.stage) ∧ (s.dev.sealing.stage ≤ 4) ∧ (s.dev.sealing.pkgRecord = false) ∧ (s.dev.floorMj ≤ s.dev.eStop) ∧ (s.dev.sealing.stopped = false) ∧ (s.dev.pkg.takeStep = 0) := by
  decide

theorem test_wit_SealStageRows_8 :
    let s : State := (at_ fun d => d.onSealing fun x => { x with active := true, stage := 3 }); let t : Fin 8 := (2); let blk : Nat := (128); let dt : Nat := (1); 
    (s.dev.sealing.active = true) ∧ (2 ≤ s.dev.sealing.stage) ∧ (s.dev.sealing.stage ≤ 4) ∧ ((s.dev.tile t.val).isolated = false) ∧ (dieOf blk ≠ ledgerDie) := by
  decide

theorem test_wit_SealStageRows_9 :
    let s : State := (at_ fun d => (d.onFl 2 fun f => { f with ledBlock := 127, ledLeft := 9 }).onSealing fun x => { x with active := true, stage := 3 }); let t : Fin 8 := (2); let dt : Nat := (1); 
    (s.dev.sealing.active = true) ∧ (2 ≤ s.dev.sealing.stage) ∧ (s.dev.sealing.stage ≤ 4) ∧ ((s.dev.tile t.val).isolated = false) ∧ (dieOf (s.dev.fl t.val).ledBlock = ledgerDie) := by
  decide

theorem test_wit_SealStageRows_10 :
    let s : State := (at_ fun d => d.onPkg fun p => { p with lastTick := [(2, 100000000)] }); let dt : Nat := (7); 
    ((s.dev.elapse dt).tickDue 2 10000000 = false) := by
  decide

theorem test_wit_SealStageRows_11 :
    let s : State := (at_ fun d => d.onSealing fun x => { x with active := true, stage := 3, cause := 2, tileStage := [(4, 3)] }); let dt : Nat := (7); 
    ((s.dev.elapse dt).tickDue 2 10000000 = true) ∧ (s.dev.sealing.active = true) ∧ ((s.dev.inSvc.any fun t : Nat => s.dev.tileStage t == 3) = true) := by
  decide

theorem test_wit_SealEndRows_1 :
    let s : State := (at_ fun d => d.onSealing fun x => { x with active := true, frozen := true, stage := 4, mainsBack := true, tileStage := tiles8.map fun t => (t, 5) }); let canary : BitVec 8 := (0xFF); let dt : Nat := (1); 
    (s.dev.sealing.active = true) ∧ (s.dev.sealing.test = false) ∧ (2 ≤ s.dev.sealing.stage) ∧ (s.dev.sealing.stage < 5) ∧ (s.dev.sealing.pkgRecord = false) ∧ (s.dev.tilesSealed = true) ∧ (s.dev.pkg.takeStep = 0) ∧ (s.dev.sealing.cause ≤ 1) ∧ (s.dev.sealing.mainsBack = true) ∧ (s.dev.inSvc.all (fun t : Nat => mbit canary t) = true) := by
  decide

theorem test_wit_SealEndRows_2 :
    let s : State := (at_ fun d => d.onSealing fun x => { x with active := true, frozen := true, stage := 4, mainsBack := true, tileStage := tiles8.map fun t => (t, 5) }); let canary : BitVec 8 := (0xF7); let dt : Nat := (1); 
    (s.dev.sealing.active = true) ∧ (s.dev.sealing.test = false) ∧ (2 ≤ s.dev.sealing.stage) ∧ (s.dev.sealing.stage < 5) ∧ (s.dev.sealing.pkgRecord = false) ∧ (s.dev.tilesSealed = true) ∧ (s.dev.pkg.takeStep = 0) ∧ (s.dev.sealing.cause ≤ 1) ∧ (s.dev.sealing.mainsBack = true) ∧ (s.dev.inSvc.all (fun t : Nat => mbit canary t) = false) := by
  decide

theorem test_wit_SealEndRows_3 :
    let s : State := (at_ fun d => d.onSealing fun x => { x with active := true, frozen := true, cause := 3, stage := 4, mainsBack := true, tileStage := tiles8.map fun t => (t, 5) }); let canary : BitVec 8 := (0xF7); let dt : Nat := (1); 
    (s.dev.sealing.active = true) ∧ (s.dev.sealing.test = false) ∧ (2 ≤ s.dev.sealing.stage) ∧ (s.dev.sealing.stage < 5) ∧ (s.dev.sealing.pkgRecord = false) ∧ (s.dev.tilesSealed = true) ∧ (s.dev.pkg.takeStep = 0) ∧ ((2 ≤ s.dev.sealing.cause ∨ s.dev.sealing.mainsBack = false)) := by
  decide

theorem test_wit_SealEndRows_4 :
    let s : State := (at_ fun d => d.onSealing fun x => { x with active := true, frozen := true, test := true, cause := 4, stage := 4, tileStage := tiles8.map fun t => (t, 5) }); let canary : BitVec 8 := (0); let dt : Nat := (1); 
    (s.dev.sealing.active = true) ∧ (s.dev.sealing.test = true) ∧ (2 ≤ s.dev.sealing.stage) ∧ (s.dev.sealing.stage < 5) ∧ (s.dev.sealing.pkgRecord = false) ∧ (s.dev.tilesSealed = true) ∧ (s.dev.pkg.takeStep = 0) := by
  decide

theorem test_wit_SealEndRows_5 :
    let s : State := (at_ fun d => d.onSealing fun x => { x with active := true, cause := 3, stage := 5, rec_ := { x.rec_ with cause := 3 } }); let dt : Nat := (1); 
    (s.dev.sealing.active = true) ∧ (s.dev.sealing.stage = 5) ∧ (s.dev.pkg.takeStep = 0) ∧ (s.dev.sealing.cause = 3) := by
  decide

theorem test_wit_SealEndRows_6 :
    let s : State := (at_ fun d => d.onSealing fun x => { x with active := true, cause := 2, stage := 5 }); let dt : Nat := (1); 
    (s.dev.sealing.active = true) ∧ (s.dev.sealing.stage = 5) ∧ (s.dev.pkg.takeStep = 0) ∧ (s.dev.sealing.cause ≠ 3) := by
  decide

theorem test_wit_ResetPinAndTestSealRows_1 :
    let s : State := (at_ id); let dt : Nat := (1); 
    ((s.dev.panel.coreUp = true ∨ s.dev.panel.pwrEn = true)) := by
  decide

theorem test_wit_ResetPinAndTestSealRows_2 :
    let s : State := (at_ fun d => d.onPanel fun p => { p with resetNAt := some d.now }); let dt : Nat := (1); let t0 : Nat := (1000000000000000); 
    (s.dev.panel.resetNAt = some t0) ∧ ((s.dev.elapse dt).now < t0 + 10000) := by
  decide

theorem test_wit_ResetPinAndTestSealRows_3 :
    let s : State := (at_ fun d => d.onPanel fun p => { p with resetNAt := some d.now }); let dt : Nat := (100000); let t0 : Nat := (1000000000000000); 
    (s.dev.panel.resetNAt = some t0) ∧ (t0 + 10000 ≤ (s.dev.elapse dt).now) ∧ ((s.dev.elapse dt).now < t0 + 2000000000) ∧ (s.dev.panel.resetTaken = false) ∧ (s.dev.panel.coreUp = true) ∧ (s.dev.panel.mainsGood = true) ∧ (s.dev.pkg.safe = 0) ∧ (s.dev.restore.ready = true) ∧ (s.dev.pkg.bedrock = false) ∧ (s.dev.sealing.active = false) := by
  decide

theorem test_wit_ResetPinAndTestSealRows_4 :
    let s : State := (at_ fun d => d.onPanel fun p => { p with resetNAt := some d.now, coreUp := false, rails := 4 }); let dt : Nat := (100000); let t0 : Nat := (1000000000000000); 
    (s.dev.panel.resetNAt = some t0) ∧ (t0 + 10000 ≤ (s.dev.elapse dt).now) ∧ (s.dev.panel.resetTaken = false) ∧ (s.dev.panel.coreUp = false) ∧ (s.dev.panel.pwrEn = true) ∧ (s.dev.sealing.active = false) := by
  decide

theorem test_wit_ResetPinAndTestSealRows_5 :
    let s : State := (at_ fun d => d.onPanel fun p => { p with resetNAt := some 5 }); let dt : Nat := (1); let t0 : Nat := (5); 
    (s.dev.panel.resetNAt = some t0) ∧ (t0 + 2000000000 ≤ (s.dev.elapse dt).now) ∧ (s.dev.panel.resetTaken = false) ∧ (s.dev.panel.coreUp = true) ∧ (s.dev.panel.mainsGood = true) ∧ (s.dev.sealing.active = false) := by
  decide

theorem test_wit_ResetPinAndTestSealRows_6 :
    let s : State := (at_ fun d => d.onSealing fun x => { x with active := true, test := true, testStep := 1 }); let dt : Nat := (1); 
    (s.dev.sealing.active = true) ∧ (s.dev.sealing.testStep = 1) := by
  decide

theorem test_wit_ResetPinAndTestSealRows_7 :
    let s : State := (at_ fun d => d.onSealing fun x => { x with active := true, test := true, testStep := 1 }); let dt : Nat := (1); 
    (s.dev.sealing.active = true) ∧ (s.dev.sealing.testStep = 1) := by
  decide

theorem test_wit_ResetPinAndTestSealRows_8 :
    let s : State := (at_ fun d => d.onSealing fun x => { x with active := true, test := true, testStep := 2, holdAt := 5, holdLimit := 1000 }); let dt : Nat := (1); 
    (s.dev.sealing.active = true) ∧ (s.dev.sealing.test = true) ∧ (s.dev.sealing.testStep = 2) ∧ (s.dev.sealing.holdAt + s.dev.sealing.holdLimit * 1000 ≤ (s.dev.elapse dt).now + 5000000) := by
  decide

theorem test_wit_RestoreMountRows_2 :
    let s : State := (at_ fun d => ((d.onRestore fun r => { r with phase := 4 }).ledger 3 0x0D).ledger 3 0x09 0 5); let t : Fin 8 := (3); let scan : Bool := (true); let badHdr : List Nat := ([7]); let half : List Nat := ([129]); let dt : Nat := (1); 
    (s.dev.restore.phase = 4) ∧ ((s.dev.tile t.val).isolated = false) ∧ (mbit s.dev.restore.decided t.val = false) ∧ (s.dev.pkg.safe = 0) := by
  decide

theorem test_wit_RestoreMountRows_3 :
    let s : State := (at_ fun d => d.onRestore fun r => { r with phase := 4 }); let t : Fin 8 := (3); let scan : Bool := (true); let dt : Nat := (1); 
    (s.dev.restore.phase = 4) ∧ ((s.dev.tile t.val).isolated = false) ∧ (mbit s.dev.restore.decided t.val = false) ∧ (s.dev.pkg.safe = 0) := by
  decide

theorem test_wit_RestoreMountRows_4 :
    let s : State := (at_ fun d => (d.onRestore fun r => { r with phase := 4, decided := 0xFF, committed := 0xFE }).onExpo fun e => { e with armed := [{ group := 0 }, { group := 1 }] }); let t : Fin 8 := (0); let dt : Nat := (1); 
    (s.dev.restore.phase = 4) ∧ ((s.dev.tile t.val).isolated = false) ∧ (mbit s.dev.restore.decided t.val = true) ∧ (mbit s.dev.restore.committed t.val = false) ∧ (s.dev.pkg.safe = 0) := by
  decide

theorem test_wit_RestoreMountRows_5 :
    let s : State := (at_ fun d => ((d.onRestore fun r => { r with phase := 4, decided := 0xFF }).cairn 3 [{ typ := 9, time := 5 }]).cairn 0 [{ typ := 9, time := 6 }]); let dt : Nat := (1); 
    (s.dev.restore.phase = 4) ∧ (s.dev.inSvc.all (fun t : Nat => mbit s.dev.restore.decided t) = true) ∧ (s.dev.inSvc.any (fun t : Nat => (s.dev.sealHdr t).isSome && (s.dev.sealHdr t).map (fun x : LedgerEntry => x.time) != (s.dev.sealHdr s.dev.pkg.lead).map (fun x : LedgerEntry => x.time)) = true) := by
  decide

theorem test_wit_RestoreMountRows_6 :
    let s : State := (at_ fun d => d.onRestore fun r => { r with phase := 4, decided := 0xFF, committed := 0xFE }); let t : Fin 8 := (0); let dt : Nat := (1); 
    (s.dev.restore.phase = 4) ∧ ((s.dev.tile t.val).isolated = false) ∧ (mbit s.dev.restore.committed t.val = false) ∧ ((if mbit s.dev.restore.scan t.val then 120000000000 else 4000000000) < (s.dev.elapse dt).since s.dev.restore.mountAt) := by
  decide

theorem test_wit_RestoreMountRows_7 :
    let s : State := (at_ fun d => d.onRestore fun r => { r with phase := 4, mountAt := d.now }); let t : Fin 8 := (0); let dt : Nat := (1); 
    ((s.dev.elapse dt).since s.dev.restore.mountAt ≤ 4000000000) := by
  decide

theorem test_wit_RestoreRows_1 :
    let s : State := (at_ fun d => d.onRestore fun r => { r with phase := 2, ready := false }); let self : BitVec 8 := (0xFF); let okA : BitVec 8 := (0xFF); let okB : BitVec 8 := (0); let warmOk : BitVec 8 := (0); let twinOk : Bool := (true); let half : List (Nat × Nat) := ([]); let torn : List (Nat × Nat) := ([]); let temps : List (Nat × BitVec 18) := ([]); let geom : Nat × Nat := ((2716, 512)); let untrained : List (Nat × Nat) := ([(2, 3)]); let dt : Nat := (1); 
    (s.dev.restore.phase = 2) ∧ (s.dev.panel.coreUp = true) ∧ (s.dev.pkg.bedrock = false) ∧ (s.dev.panel.resetDue = false) ∧ (s.dev.restore.thermalCheck = false) ∧ (s.dev.restore.dramKept = false) := by
  decide

theorem test_wit_RestoreRows_2 :
    let s : State := (at_ fun d => d.onRestore fun r => { r with phase := 5, ready := false, committed := 0xFF, decided := 0xFF }); let dt : Nat := (1); 
    (((s.dev.tile 0).isolated = false ∨ (s.dev.tile 4).isolated = false)) ∧ (s.dev.restore.phase = 5) ∧ (s.dev.pkg.safe = 0) := by
  decide

theorem test_wit_RestoreRows_3 :
    let s : State := (at_ fun d => d.onRestore fun r => { r with phase := 6, allRestored := false, fetching := [7] }); let p : Nat := (7); let out : Fin 3 := (0); let keyErr : Fin 3 := (0); let dt : Nat := (1); 
    (s.dev.restore.fetching.contains p = true) ∧ ((s.dev.tile (s.dev.pageTile p)).isolated = false) ∧ (s.dev.pkg.safe = 0) ∧ (s.dev.restored p = false) := by
  decide

theorem test_wit_RestoreRows_4 :
    let d : Dev := (up.onStrata fun x => { x with recs := [{ page := 1, context := 5, gen := 0, vseq := 1, time := 3, img := [], addr := 128 }], loc := [{ page := 1, kind := 1, vseqLo := 1, addr := 128 }] }); let p : Nat := (1); let r : PageRec := ({ page := 1, context := 5, gen := 0, vseq := 1, time := 3, img := [], addr := 128 }); let src : Nat := (75); 
    (d.persistent p = true) ∧ (d.curRec p = some r) ∧ ((d.loc p).poison = false) ∧ (r.pmask = []) ∧ ((d.ctx ((d.pageCtx p).getD 0)).keyLost = false) ∧ (d.expo.held = []) := by
  decide

theorem test_wit_RestoreRows_5 :
    let s : State := (at_ fun d => (d.onRestore fun r => { r with phase := 6, allRestored := false }).onStrata fun x => { x with loc := [{ page := 5 }] }); let t : Fin 8 := (0); let out : Fin 3 := (2); let keyErr : Fin 3 := (0); let dt : Nat := (1); let p : Nat := (5); 
    (s.dev.restore.phase = 6) ∧ (s.dev.restore.allRestored = false) ∧ ((s.dev.tile t.val).isolated = false) ∧ (s.dev.sealing.active = false) ∧ (s.dev.pkg.safe = 0) ∧ (s.dev.nextRecord t.val = some p) := by
  decide

theorem test_wit_RestoreRows_6 :
    let s : State := (at_ fun d => d.onRestore fun r => { r with phase := 6, allRestored := false }); let t : Fin 8 := (1); let i : Nat := (0); let n : Nat := (1000); let out : Fin 3 := (2); let keyErr : Fin 3 := (0); let dt : Nat := (1); 
    (s.dev.restore.phase = 6) ∧ (s.dev.restore.allRestored = false) ∧ ((s.dev.tile t.val).isolated = false) ∧ (s.dev.sealing.active = false) ∧ (s.dev.pkg.safe = 0) ∧ (i + n ≤ s.dev.tilePages) ∧ (s.dev.strata.loc = []) := by
  decide

theorem test_wit_RestoreRows_7 :
    let s : State := (at_ fun d => d.onRestore fun r => { r with phase := 6, allRestored := false, drainDone := 0xEF, restored := [(4 * 2 ^ 40, d.tilePages)] }); let t : Fin 8 := (4); let dt : Nat := (1); 
    (s.dev.restore.phase = 6) ∧ (s.dev.restore.allRestored = false) ∧ ((s.dev.tile t.val).isolated = false) ∧ (s.dev.restoredOn t.val = s.dev.tilePages) ∧ (s.dev.inSvc.all (fun k : Nat => k == t.val || mbit s.dev.restore.drainDone k) = true) := by
  decide

theorem test_wit_RestoreRows_8 :
    let s : State := (at_ fun d => d.onPkg fun p => { p with lastTick := [(4, 10000000)] }); let dt : Nat := (7); 
    ((s.dev.elapse dt).tickDue 4 100000000 = false) := by
  decide

theorem test_wit_RestoreRows_9 :
    let s : State := (at_ fun d => d.onRestore fun r => { r with phase := 6 }); let dt : Nat := (1); 
    ((s.dev.elapse dt).tickDue 4 100000000 = true) ∧ (s.dev.restore.phase = 6) := by
  decide

theorem test_wit_StrataLogRows_1 :
    let s : State := (at_ fun d => d.onFl 2 fun f => { f with tail := [5] }); let t : Fin 8 := (2); let dt : Nat := (60000000000); 
    (s.dev.flashMay t.val = true) ∧ ((s.dev.fl t.val).ckptRun = none) ∧ ((1048576 ≤ (s.dev.fl t.val).tail.length ∨ 60000000000 ≤ (s.dev.elapse dt).since (s.dev.fl t.val).ckptAt)) := by
  decide

theorem test_wit_StrataLogRows_2 :
    let s : State := (at_ fun d => d.onFl 2 fun f => { f with ckptRun := some [5], blocks := [(3, { state := 8 }), (4, { state := 5 })] }); let t : Fin 8 := (2); let dt : Nat := (0); 
    (s.dev.flashMay t.val = true) ∧ ((s.dev.fl t.val).ckptRun.isSome = true) := by
  decide

theorem test_wit_StrataLogRows_3 :
    let s : State := (at_ fun d => d.onFl 2 fun f => { f with sinceSummary := 268435456, ledger := [{ typ := 0x0D, lseq := 2 }, { typ := 0x01, lseq := 1 }], nextLseq := 3 }); let t : Fin 8 := (2); let dt : Nat := (0); 
    (268435456 ≤ (s.dev.fl t.val).sinceSummary) ∧ (s.dev.pkg.safe = 0) ∧ ((s.dev.tile t.val).isolated = false) := by
  decide

theorem test_wit_StrataLogRows_4 :
    let s : State := (at_ fun d => d.onFl 2 fun f => { f with ledBlock := 127, ledLeft := 5 }); let t : Fin 8 := (2); let blk : BitVec 21 := (127); let reason : Fin 4 := (0); let lost : List Nat := ([]); let soft : List Nat := ([]); let statusFail : Bool := (false); let dt : Nat := (0); 
    (dieOf blk.toNat = ledgerDie) := by
  decide

theorem test_wit_StrataLogRows_5 :
    let s : State := (at_ id); let t : Fin 8 := (2); let blk : BitVec 21 := (127); let reason : Fin 4 := (0); let lost : List Nat := ([]); let soft : List Nat := ([]); let statusFail : Bool := (false); let dt : Nat := (0); 
    (dieOf blk.toNat = ledgerDie) := by
  decide

theorem test_wit_StrataLogRows_6 :
    let s : State := (at_ id); let t : Fin 8 := (2); let blk : BitVec 21 := (5); let reason : Fin 4 := (0); let lost : List Nat := ([]); let soft : List Nat := ([4]); let statusFail : Bool := (false); let dt : Nat := (0); 
    (dieOf blk.toNat ≠ ledgerDie) ∧ ((s.dev.fl t.val).diesRetired.contains (dieOf blk.toNat) = false) ∧ ((s.dev.blk t.val blk.toNat).state ≠ 4) := by
  decide

theorem test_wit_StrataLogRows_7 :
    let s : State := (at_ id); let t : Fin 8 := (2); let blk : BitVec 21 := (5); let reason : Fin 4 := (3); let lost : List Nat := ([]); let soft : List Nat := ([]); let dt : Nat := (0); 
    (dieOf blk.toNat ≠ ledgerDie) ∧ ((s.dev.fl t.val).diesRetired.contains (dieOf blk.toNat) = false) ∧ ((s.dev.blk t.val blk.toNat).state ≠ 4) := by
  decide

theorem test_wit_StrataLogRows_8 :
    let s : State := (at_ fun d => (d.onFl 2 fun f => { f with zone := 0, blocks := [(5, { state := 6 })] }).onExpo fun x => { x with armProg := [(2, some {})], gov := { x.gov with tileCeil := [(2, 1)] } }); let t : Fin 8 := (2); let blk : BitVec 21 := (5); let dt : Nat := (0); let n : Nat := (2); 
    ((s.dev.elapse dt).eraseLevel t.val = some n) ∧ (s.dev.erasable t.val blk.toNat = true) ∧ ((s.dev.elapse dt).flashTurn t.val n 2 = true) := by
  decide

theorem test_wit_StrataLogRows_9 :
    let s : State := (at_ fun d => (d.onFl 2 fun f => { f with zone := 0, blocks := [(5, { state := 6 })] }).onExpo fun x => { x with gov := { x.gov with tileCeil := [(2, 1)] } }); let t : Fin 8 := (2); let blk : BitVec 21 := (5); let dt : Nat := (0); let n : Nat := (2); 
    ((s.dev.elapse dt).eraseLevel t.val = some n) ∧ (s.dev.erasable t.val blk.toNat = true) ∧ ((s.dev.elapse dt).flashTurn t.val n 2 = true) ∧ ((s.dev.fl t.val).intentQ = []) ∧ (tget s.dev.expo.armProg none t.val = none) := by
  decide

theorem test_wit_StrataLogRows_10 :
    let s : State := (at_ fun d => (d.onFl 2 fun f => { f with blocks := [(5, { state := 3, tlc := true })] }).onStrata fun x => { x with recs := [{ page := 1, addr := 5 }] }); let t : Fin 8 := (2); let blk : BitVec 21 := (5); let dt : Nat := (0); 
    ((s.dev.blk t.val blk.toNat).state = 3) ∧ (s.dev.pkg.safe = 0) ∧ (s.dev.sealing.active = false) ∧ ((s.dev.blk t.val blk.toNat).wear + (if (s.dev.blk t.val blk.toNat).tlc = true then 20 else 1) < 60000) ∧ (dieOf blk.toNat ≠ ledgerDie) := by
  decide

theorem test_wit_StrataLogRows_11 :
    let s : State := (at_ fun d => d.onFl 2 fun f => { f with ledBlock := 255, ledLeft := 4, blocks := [(127, { state := 3 })] }); let t : Fin 8 := (2); let blk : BitVec 21 := (127); let dt : Nat := (0); 
    ((s.dev.blk t.val blk.toNat).state = 3) ∧ (s.dev.pkg.safe = 0) ∧ (s.dev.sealing.active = false) ∧ (dieOf blk.toNat = ledgerDie) := by
  decide

theorem test_wit_StrataLogRows_12 :
    let s : State := (at_ fun d => d.onFl 2 fun f => { f with blocks := [(5, { state := 3 })] }); let t : Fin 8 := (2); let blk : BitVec 21 := (5); let dt : Nat := (0); 
    ((s.dev.blk t.val blk.toNat).state = 3) ∧ (s.dev.pkg.safe = 0) ∧ (s.dev.sealing.active = false) := by
  decide

theorem test_wit_StrataBackgroundRows_1 :
    let s : State := (at_ fun d => d.onFl 2 fun f => { f with zone := 400000, blocks := [(5, { state := 2 })] }); let t : Fin 8 := (2); let soft : List Nat := ([]); let dt : Nat := (0); 
    ((s.dev.elapse dt).moveMay t.val = true) := by
  decide

theorem test_wit_StrataBackgroundRows_2 :
    let s : State := (at_ fun d => d.onFl 2 fun f => { f with zone := 4000000000, blocks := [(5, { state := 2 })] }); let t : Fin 8 := (2); let soft : List Nat := ([]); let dt : Nat := (0); 
    ((s.dev.elapse dt).moveMay t.val = true) ∧ ((s.dev.tile t.val).throttle < 2) ∧ ((s.dev.elapse dt).drawMay t.val = true) ∧ ((s.dev.elapse dt).tlcMay t.val = true) := by
  decide

theorem test_wit_StrataBackgroundRows_3 :
    let s : State := (at_ fun d => d.onFl 2 fun f => { f with zone := 400000, blocks := [(5, { state := 2 })] }); let t : Fin 8 := (2); let blk : BitVec 21 := (5); let soft : List Nat := ([]); let dt : Nat := (10000000000000000); 
    ((s.dev.elapse dt).moveMay t.val = true) ∧ ((s.dev.tile t.val).throttle < 2) ∧ ((s.dev.elapse dt).aged (s.dev.blk t.val blk.toNat) = true) := by
  decide

theorem test_wit_StrataBackgroundRows_4 :
    let s : State := (at_ fun d => d.onFl 2 fun f => { f with zone := 400000, blocks := [(5, { state := 2, refresh := true, progTime := 1000000000000000 })] }); let t : Fin 8 := (2); let blk : BitVec 21 := (5); let soft : List Nat := ([3]); let dt : Nat := (0); 
    ((s.dev.elapse dt).moveMay t.val = true) ∧ ((s.dev.tile t.val).throttle < 2) ∧ ((s.dev.blk t.val blk.toNat).state = 2) ∧ ((s.dev.blk t.val blk.toNat).refresh = true) ∧ ((s.dev.fl t.val).blocks.any (fun x : Nat × Block => (s.dev.elapse dt).aged x.2) = false) := by
  decide

theorem test_wit_StrataBackgroundRows_5 :
    let s : State := (at_ fun d => d.onFl 2 fun f => { f with zone := 400000, blocks := [(5, { state := 2, wear := 1 }), (133, { state := 2, wear := 2002 })] }); let t : Fin 8 := (2); let die : Fin 127 := (5); let soft : List Nat := ([]); let dt : Nat := (0); let b : Nat × Block := ((5, { state := 2, wear := 1 })); let x : Nat × Block := ((133, { state := 2, wear := 2002 })); 
    ((s.dev.elapse dt).moveMay t.val = true) ∧ (s.dev.liveDie t.val die.val = true) ∧ (((s.dev.fl t.val).blocks.countP fun y : Nat × Block => dieOf y.1 == die.val && y.2.state != 4) < s.dev.dieBlocks) ∧ (x ∈ (s.dev.fl t.val).blocks) ∧ (dieOf x.1 = die.val) ∧ (x.2.state ≠ 4) ∧ (2000 < x.2.wear) ∧ (argMin ((s.dev.fl t.val).blocks.filter fun y : Nat × Block => dieOf y.1 == die.val && y.2.state != 4 && y.2.state == 2)
      (fun y : Nat × Block => y.2.wear * 2 ^ 64 + y.2.progTime) = some b) ∧ (s.dev.blk t.val b.1 = b.2) := by
  decide

theorem test_wit_StrataBackgroundRows_8 :
    let s : State := (at_ id); let dt : Nat := (0); 
    ((s.dev.elapse dt).tickDue 5 1000000000 = true) := by
  decide

theorem test_wit_RegionTableAndSanitizeRows_1 :
    let s : State := (at_ fun d => (d.onExpo fun e => { e with dirty := [{ page := 5 }, { page := 262149 }], armed := [{ group := 0 }, { group := 512 }] }).onCtxs fun c => { c with rtPend := [{ granule := 1, trim := true }] }); let g : Nat := (1); let replBad : Bool := (false); let dt : Nat := (1); let x : RtChange := ({ granule := 1, trim := true }); 
    (s.dev.ctxs.rtPend.find? (fun y : RtChange => y.granule == g) = some x) ∧ (x.waitFill = false) ∧ (x.zero = false) ∧ (s.dev.sealing.frozen = false) ∧ (s.dev.expo.held = []) := by
  decide

theorem test_wit_RegionTableAndSanitizeRows_2 :
    let s : State := (at_ fun d => (d.onCtxs fun c => { c with rtPend := [{ granule := 7, waitFill := true, entry := { valid := true, head := 1, cls := 1, context := 5 } }] })); let g : Nat := (7); let dt : Nat := (1); let x : RtChange := ({ granule := 7, waitFill := true, entry := { valid := true, head := 1, cls := 1, context := 5 } }); 
    (s.dev.ctxs.rtPend.find? (fun y : RtChange => y.granule == g && (y.waitFill || y.zero)) = some x) ∧ (s.dev.sealing.frozen = false) ∧ (s.dev.expo.held = []) := by
  decide

theorem test_wit_RegionTableAndSanitizeRows_4 :
    let s : State := (at_ id); let dt : Nat := (1); 
    (s.dev.ctxs.minuteEnd ≤ (s.dev.elapse dt).now) ∧ (s.dev.restore.ready = true) := by
  decide

theorem test_wit_RegionTableAndSanitizeRows_5 :
    let s : State := (at_ fun d => d.onCtx 5 fun x => { x with unwritten := 3 }); let dt : Nat := (1); 
    (s.dev.sealing.frozen = false) ∧ (s.dev.pkg.safe = 0) := by
  decide

theorem test_wit_RegionTableAndSanitizeRows_6 :
    let s : State := (at_ fun d => d.onCtx 5 fun x => { x with state := 4, sanStep := 1 }); let c : Nat := (5); let dt : Nat := (1); 
    ((s.dev.ctx c).state = 4) ∧ ((s.dev.ctx c).sanStep = 1) ∧ (s.dev.sealing.frozen = false) ∧ (s.dev.restore.ready = true) ∧ (s.dev.pkg.safe = 0) := by
  decide

theorem test_wit_RegionTableAndSanitizeRows_7 :
    let s : State := (at_ fun d => d.onCtx 5 fun x => { x with state := 4, sanStep := 2 }); let c : Nat := (5); let dt : Nat := (1); 
    ((s.dev.ctx c).state = 4) ∧ ((s.dev.ctx c).sanStep = 2) ∧ (s.dev.sealing.frozen = false) ∧ (s.dev.restore.ready = true) ∧ (s.dev.pkg.safe = 0) := by
  decide

theorem test_wit_RegionTableAndSanitizeRows_8 :
    let s : State := (at_ fun d => (d.onCtx 5 fun x => { x with state := 4, sanStep := 3 }).onCtxs fun x => { x with keyCache := [(3, [5, 6])] }); let c : Nat := (5); let dt : Nat := (1); 
    ((s.dev.ctx c).state = 4) ∧ ((s.dev.ctx c).sanStep = 3) ∧ (s.dev.sealing.frozen = false) ∧ (s.dev.restore.ready = true) ∧ (s.dev.pkg.safe = 0) := by
  decide

theorem test_wit_RegionTableAndSanitizeRows_9 :
    let s : State := (at_ fun d => d.onCtx 5 fun x => { x with state := 4, sanStep := 6 }); let c : Nat := (5); let dt : Nat := (1); 
    ((s.dev.ctx c).state = 4) ∧ ((s.dev.ctx c).sanStep = 6) ∧ (s.dev.sealing.frozen = false) ∧ (s.dev.restore.ready = true) ∧ (s.dev.pkg.safe = 0) ∧ ((∀ t ∈ s.dev.inSvc, s.dev.oldKeyBlocks t c = [])) := by
  decide

theorem test_wit_RegionTableAndSanitizeRows_10 :
    let s : State := (at_ fun d => (d.onCtx 5 fun x => { x with state := 4, sanStep := 4 }).onStrata fun x => { x with strata := [{ context := 5 }, { context := 6 }] }); let c : Nat := (5); let dt : Nat := (1); 
    ((s.dev.ctx c).state = 4) ∧ ((s.dev.ctx c).sanStep = 4) ∧ (s.dev.sealing.frozen = false) ∧ (s.dev.restore.ready = true) ∧ (s.dev.pkg.safe = 0) := by
  decide

theorem test_wit_RegionTableAndSanitizeRows_11 :
    let s : State := (at_ fun d => d.onCtx 5 fun x => { x with state := 4, sanStep := 5, gen := 3 }); let c : Nat := (5); let dt : Nat := (1); 
    ((s.dev.ctx c).state = 4) ∧ ((s.dev.ctx c).sanStep = 5) ∧ (s.dev.sealing.frozen = false) ∧ (s.dev.restore.ready = true) ∧ (s.dev.pkg.safe = 0) := by
  decide

theorem test_wit_RingDoorbellRows_1 :
    let s : State := (at_ id); let h : Fin 2 := (1); let c : Nat := (5); let k : Nat := (0); let tail : BitVec 12 := (1); let ue : BitVec 10 := (4); let dt : Nat := (1); 
    ((s.dev.ctx c).owner ≠ h.val + 1) := by
  decide

theorem test_wit_RingDoorbellRows_2 :
    let s : State := (at_ id); let h : Fin 2 := (1); let c : Nat := (5); let k : Nat := (0); let head : BitVec 12 := (1); let dt : Nat := (1); 
    ((s.dev.ctx c).owner ≠ h.val + 1) := by
  decide

theorem test_wit_RingDoorbellRows_3 :
    let s : State := (at_ fun d => d.onRing 6 0 fun r => { r with state := 1, sqBase := 2 * 2 ^ 30, cqBase := 2 * 2 ^ 30 + 4096 }); let h : Fin 2 := (0); let c : Nat := (6); let k : Nat := (0); let tail : BitVec 12 := (2); let ue : BitVec 10 := (0); let dt : Nat := (1); 
    ((s.dev.ctx c).owner = h.val + 1) ∧ (s.dev.doorbellOk c k = true) ∧ (tail.toNat < (s.dev.ring c k).slots) := by
  decide

theorem test_wit_RingDoorbellRows_4 :
    let s : State := (at_ fun d => d.onRing 6 0 fun r => { r with state := 1 }); let h : Fin 2 := (0); let c : Nat := (6); let k : Nat := (0); let tail : BitVec 12 := (16); let ue : BitVec 10 := (0); let dt : Nat := (1); 
    ((s.dev.ctx c).owner = h.val + 1) ∧ (s.dev.doorbellOk c k = true) ∧ ((s.dev.ring c k).slots ≤ tail.toNat) := by
  decide

theorem test_wit_RingDoorbellRows_5 :
    let s : State := (at_ fun d => d.onRing 6 0 fun r => { r with state := 1, cqTail := 3, cqHead := 15 }); let h : Fin 2 := (0); let c : Nat := (6); let k : Nat := (0); let head : BitVec 12 := (2); let dt : Nat := (1); 
    ((s.dev.ctx c).owner = h.val + 1) ∧ (s.dev.doorbellOk c k = true) ∧ (head.toNat < (s.dev.ring c k).slots) ∧ ((head.toNat + (s.dev.ring c k).slots - (s.dev.ring c k).cqHead) % (s.dev.ring c k).slots ≤
      ((s.dev.ring c k).cqTail + (s.dev.ring c k).slots - (s.dev.ring c k).cqHead) % (s.dev.ring c k).slots) := by
  decide

theorem test_wit_RingDoorbellRows_6 :
    let s : State := (at_ fun d => d.onRing 6 0 fun r => { r with state := 1 }); let h : Fin 2 := (0); let c : Nat := (6); let k : Nat := (0); let head : BitVec 12 := (16); let dt : Nat := (1); 
    ((s.dev.ctx c).owner = h.val + 1) ∧ (s.dev.doorbellOk c k = true) ∧ ((s.dev.ring c k).slots ≤ head.toNat) := by
  decide

theorem test_wit_RingDoorbellRows_7 :
    let s : State := (at_ fun d => d.onRing 6 0 fun r => { r with state := 1, unsig := 1, vector := 20 }); let c : Nat := (6); let k : Nat := (0); let dt : Nat := (1); 
    ((s.dev.ring c k).unsig ≠ 0) ∧ ((s.dev.ring c k).coalTime * 1000 ≤ (s.dev.elapse dt).since (s.dev.ring c k).unsigAt) := by
  decide

theorem test_wit_RingDoorbellRows_9 :
    let s : State := (at_ fun d => (d.onCtx 6 fun x => { x with state := 2 }).onRing 6 0 fun r => { r with state := 2 }); let c : Nat := (6); let dt : Nat := (1); 
    ((s.dev.ctx c).state = 2) ∧ ((s.dev.ctx c).rings.all (fun r : Nat × Ring => r.2.idle) = true) ∧ (s.dev.ctxs.rollback = []) := by
  decide

theorem test_wit_RingEntryRows_1 :
    let s : State := (at_ fun d => d.onRing 6 0 fun r => { r with state := 1, entries := [{ idx := 1, opc := 1, started := true }] }); let c : Nat := (6); let k : Nat := (0); let dt : Nat := (1); let x : RingEntry := ({ idx := 1, opc := 1, started := true }); 
    (s.dev.nextUp c k (fun o : Nat => o == 1 || o == 0 || decide (6 < o)) = some x) ∧ (s.dev.sealing.frozen = false) ∧ (s.dev.pkg.safe = 0) ∧ (x.opc = 1) ∧ (s.dev.entryStatus c x = 0) ∧ ((x.arg1 = 0 ∨ s.dev.inCtx c (x.arg0 * 4096) (x.arg1 * 4096) = true)) := by
  decide

theorem test_wit_RingEntryRows_2 :
    let s : State := (at_ fun d => d.onRing 6 0 fun r => { r with state := 1, cqBase := 2 * 2 ^ 30, entries := [{ idx := 1, opc := 7, started := true }] }); let c : Nat := (6); let k : Nat := (0); let dt : Nat := (1); let x : RingEntry := ({ idx := 1, opc := 7, started := true }); 
    (s.dev.nextUp c k (fun o : Nat => o == 1 || o == 0 || decide (6 < o)) = some x) ∧ (s.dev.sealing.frozen = false) ∧ (s.dev.pkg.safe = 0) ∧ (x.opc ≠ 1) ∧ (k ≠ latRing) ∧ (s.dev.inCtx c (s.dev.ring c k).cqBase (32 * (s.dev.ring c k).slots) = true) := by
  decide

theorem test_wit_RingEntryRows_3 :
    let s : State := (at_ fun d => d.onRing 6 0 fun r => { r with state := 1, cqBase := 2 * 2 ^ 30, entries := [{ idx := 1, opc := 1, started := true, checked := true }] }); let c : Nat := (6); let k : Nat := (0); let dt : Nat := (1); let x : RingEntry := ({ idx := 1, opc := 1, started := true, checked := true }); 
    ((s.dev.ring c k).entries.find? (fun y : RingEntry => y.opc == 1 && s.dev.fenceDone y) = some x) ∧ (s.dev.sealing.frozen = false) ∧ (s.dev.pkg.safe = 0) ∧ (k ≠ latRing) ∧ (s.dev.inCtx c (s.dev.ring c k).cqBase (32 * (s.dev.ring c k).slots) = true) := by
  decide

theorem test_wit_RingEntryRows_4 :
    let s : State := (at_ fun d => d.onRing 6 0 fun r => { r with state := 1, entries := [{ idx := 1, opc := 2, started := true }] }); let c : Nat := (6); let k : Nat := (0); let dt : Nat := (1); let x : RingEntry := ({ idx := 1, opc := 2, started := true }); 
    (s.dev.nextUp c k (fun o : Nat => o == 2) = some x) ∧ (s.dev.sealing.frozen = false) ∧ (s.dev.pkg.safe = 0) ∧ (s.dev.entryStatus c x = 0) := by
  decide

theorem test_wit_RingEntryRows_5 :
    let s : State := (at_ fun d => d.onRing 6 0 fun r => { r with state := 1, entries := [{ idx := 1, opc := 2, started := true, checked := true }] }); let c : Nat := (6); let k : Nat := (0); let dt : Nat := (1); let x : RingEntry := ({ idx := 1, opc := 2, started := true, checked := true }); 
    ((s.dev.ring c k).entries.find? (fun y : RingEntry => y.opc == 2 && s.dev.fenceDone y && y.ts == 0) = some x) ∧ (s.dev.sealing.frozen = false) ∧ (s.dev.pkg.safe = 0) := by
  decide

theorem test_wit_RingEntryRows_6 :
    let s : State := (at_ fun d => (d.onCtx 5 fun x => { x with retainCount := 8 }).onRing 5 0 fun r => { r with state := 1, entries := [{ idx := 1, opc := 2, started := true, checked := true, ts := 77, arg0 := 5 }] }); let c : Nat := (5); let k : Nat := (0); let m : BitVec 8 := (1); let dt : Nat := (1); let x : RingEntry := ({ idx := 1, opc := 2, started := true, checked := true, ts := 77, arg0 := 5 }); 
    ((s.dev.ring c k).entries.find? (fun y : RingEntry => y.opc == 2 && y.checked && y.ts != 0) = some x) ∧ (s.dev.sealing.frozen = false) ∧ (s.dev.pkg.safe = 0) ∧ ((s.dev.ctx c).keyLost = false) ∧ ((s.dev.ctxTiles c).all (fun t : Nat => mbit (x.done ||| m) t) = false) := by
  decide

theorem test_wit_RingEntryRows_7 :
    let s : State := (at_ fun d => (d.onCtx 6 fun x => { x with retainCount := 8 }).onRing 6 0 fun r => { r with state := 1, cqBase := 2 * 2 ^ 30, entries := [{ idx := 1, opc := 2, started := true, checked := true, ts := 77, arg0 := 5, done := 3 }] }); let c : Nat := (6); let k : Nat := (0); let m : BitVec 8 := (0xFC); let dt : Nat := (1); let x : RingEntry := ({ idx := 1, opc := 2, started := true, checked := true, ts := 77, arg0 := 5, done := 3 }); 
    ((s.dev.ring c k).entries.find? (fun y : RingEntry => y.opc == 2 && y.checked && y.ts != 0) = some x) ∧ (s.dev.sealing.frozen = false) ∧ (s.dev.pkg.safe = 0) ∧ ((s.dev.ctx c).keyLost = false) ∧ ((s.dev.strataOf c).length < (s.dev.ctx c).retainCount) ∧ ((s.dev.ctxTiles c).all (fun t : Nat => mbit (x.done ||| m) t) = true) := by
  decide

theorem test_wit_RingEntryRows_8 :
    let s : State := (at_ fun d => (d.onStrata fun y => { y with strata := [{ context := 6, time := 77 }] }).onRing 6 0 fun r => { r with state := 1, entries := [{ idx := 1, opc := 3, arg0 := 77, started := true }] }); let c : Nat := (6); let k : Nat := (0); let dt : Nat := (1); let x : RingEntry := ({ idx := 1, opc := 3, arg0 := 77, started := true }); let st : Stratum := ({ context := 6, time := 77 }); 
    (s.dev.nextUp c k (fun o : Nat => o == 3) = some x) ∧ (s.dev.sealing.frozen = false) ∧ (s.dev.pkg.safe = 0) ∧ (s.dev.entryStatus c x = 0) ∧ ((s.dev.strataOf c).find? (fun y : Stratum => y.time == x.arg0) = some st) ∧ ((st.damaged = false ∨ x.flags.getLsbD 2 = true)) ∧ (s.dev.rollbackBusy c k x = false) := by
  decide

theorem test_wit_RingEntryRows_9 :
    let s : State := (at_ fun d => d.onRing 6 0 fun r => { r with state := 1, cqBase := 2 * 2 ^ 30, entries := [{ idx := 1, opc := 3, started := true, checked := true, ts := 77 }] }); let c : Nat := (6); let k : Nat := (0); let dt : Nat := (1); let x : RingEntry := ({ idx := 1, opc := 3, started := true, checked := true, ts := 77 }); 
    ((s.dev.ring c k).entries.find? (fun y : RingEntry => y.opc == 3 && y.checked) = some x) ∧ (s.dev.expo.inflight = []) ∧ (s.dev.sealing.frozen = false) ∧ (s.dev.pkg.safe = 0) ∧ ((s.dev.ctx c).keyLost = false) ∧ ((s.dev.ctx c).state = 1) ∧ ((s.dev.ctx c).rebuild = 0) ∧ (s.dev.ctxs.rollback = []) ∧ ((∀ g ∈ s.dev.ctxGrans c, (s.dev.gran g).cls ≠ 1 ∧ (s.dev.gran g).cls ≠ 2)) ∧ ((s.dev.elapse dt).now ≠ 0) := by
  decide

theorem test_wit_RingEntryRows_10 :
    let s : State := (at_ fun d => d.onRing 5 0 fun r => { r with state := 1, entries := [{ idx := 1, opc := 3, started := true, checked := true, ts := 77 }] }); let c : Nat := (5); let k : Nat := (0); let dt : Nat := (1); let x : RingEntry := ({ idx := 1, opc := 3, started := true, checked := true, ts := 77 }); let g : Nat := (0); 
    ((s.dev.ring c k).entries.find? (fun y : RingEntry => y.opc == 3 && y.checked) = some x) ∧ (s.dev.expo.inflight = []) ∧ (s.dev.sealing.frozen = false) ∧ (s.dev.pkg.safe = 0) ∧ ((s.dev.ctx c).keyLost = false) ∧ ((s.dev.ctx c).state = 1) ∧ (g ∈ s.dev.ctxGrans c) ∧ (((s.dev.gran g).cls = 1 ∨ (s.dev.gran g).cls = 2)) ∧ ((s.dev.tile (s.dev.pageTile (g * 262144))).isolated = false) ∧ (s.dev.backed g = true) := by
  decide

theorem test_wit_RingEntryRows_11 :
    let s : State := (at_ fun d => (d.onCtx 5 fun x => { x with state := 5, tR := 9, tSRb := 4 }).onCtxs fun x => { x with rollback := [3, 4] }); let p : Nat := (3); let out : Fin 3 := (2); let dt : Nat := (1); 
    (s.dev.ctxs.rollback.contains p = true) ∧ (s.dev.pkg.safe = 0) ∧ (s.dev.pageCtx p ≠ none) ∧ (s.dev.sealing.active = false) ∧ ((s.dev.reversalAsked p = true ∨ s.dev.bulkReversal (s.dev.pageTile p) = some p)) ∧ (((s.dev.stream (s.dev.pageTile p) 0).left ≠ 0 ∨
      (s.dev.leastWorn (s.dev.pageTile p) (s.dev.dataDies (s.dev.pageTile p)) ≠ none ∧ s.dev.strata.slcPages ≠ 0))) := by
  decide

theorem test_wit_RingEntryRows_13 :
    let s : State := (at_ fun d => d.onRing 6 0 fun r => { r with state := 1, cqBase := 2 * 2 ^ 30, entries := [{ idx := 1, opc := 4, started := true }] }); let c : Nat := (6); let k : Nat := (0); let dt : Nat := (1); let x : RingEntry := ({ idx := 1, opc := 4, started := true }); 
    (s.dev.nextUp c k (fun o : Nat => o == 4) = some x) ∧ (s.dev.sealing.frozen = false) ∧ (s.dev.pkg.safe = 0) ∧ (s.dev.entryStatus c x = 0) ∧ (k ≠ latRing) ∧ (s.dev.inCtx c (s.dev.ring c k).cqBase (32 * (s.dev.ring c k).slots) = true) := by
  decide

theorem test_wit_RingEntryRows_14 :
    let s : State := (at_ fun d => d.onRing 6 0 fun r => { r with state := 1, cqBase := 2 * 2 ^ 30, entries := [{ idx := 1, opc := 5, arg0 := 99, started := true }] }); let c : Nat := (6); let k : Nat := (0); let dt : Nat := (1); let x : RingEntry := ({ idx := 1, opc := 5, arg0 := 99, started := true }); 
    (s.dev.nextUp c k (fun o : Nat => o == 5) = some x) ∧ (s.dev.sealing.frozen = false) ∧ (s.dev.pkg.safe = 0) ∧ (s.dev.entryStatus c x = 0) ∧ (k ≠ latRing) ∧ (s.dev.inCtx c (s.dev.ring c k).cqBase (32 * (s.dev.ring c k).slots) = true) := by
  decide

theorem test_wit_RingEntryRows_15 :
    let s : State := (at_ fun d => d.onRing 6 0 fun r => { r with state := 1, cqBase := 2 * 2 ^ 30, cqTail := 15, entries := [{ idx := 1, opc := 6, started := true }] }); let c : Nat := (6); let k : Nat := (0); let dt : Nat := (1); let x : RingEntry := ({ idx := 1, opc := 6, started := true }); 
    (s.dev.nextUp c k (fun o : Nat => o == 6) = some x) ∧ (s.dev.sealing.frozen = false) ∧ (s.dev.pkg.safe = 0) ∧ (s.dev.entryStatus c x = 0) ∧ (k ≠ latRing) ∧ (s.dev.inCtx c (s.dev.ring c k).cqBase (32 * (s.dev.ring c k).slots) = true) := by
  decide

theorem test_wit_CompletionWrite_1 :
    let d : Dev := (up); let c : Nat := (6); let k : Nat := (0); let a : Nat := (2 * 2 ^ 30 + 32); let bs : List Byte := ([1, 2, 3]); let irq : Bool := (true); 
    ((d.ctx c).keyLost = false) ∧ ((d.tile (d.pageTile (linePage (a / 64)))).isolated = false) ∧ ((d.holds ({ head := 3, line := a / 64, write := true, cmd := 3 } : HeldReq)).free = true) ∧ (d.poisoned (a / 64) = false) ∧ (a % 64 ≤ 32) := by
  decide

theorem test_wit_CompletionWrite_2 :
    let d : Dev := (up); let r : HeldReq := ({ cmd := 3 }); 
    (r.cmd = 3) := by
  decide

theorem test_wit_CompletionWrite_3 :
    let d : Dev := (up); let c : Nat := (5); let k : Nat := (0); let a : Nat := (64); let bs : List Byte := ([1, 2, 3]); let irq : Bool := (true); 
    ((d.ctx c).keyLost = false) ∧ (d.persistent (linePage (a / 64)) = true) ∧ (d.isDirty (linePage (a / 64)) = false) ∧ (d.isArmed (pageGroup (linePage (a / 64))) = false) := by
  decide

theorem test_wit_AddressMapIsOneToOne_1 :
    let d : Dev := (up); let t : Nat := (5); let a : Nat := (0x1234567); 
    (t < 8) := by
  decide

theorem test_wit_AddressMapIsOneToOne_4 :
    let d : Dev := (up); let a : Nat := (77); let b : Nat := (77); 
    (d.dram.cfg.spares < 4) ∧ (d.chanOf a = d.chanOf b) := by
  decide

theorem test_wit_SymbolCodeCorrectsOneDevice_1 :
    let mark : Nat := (3); let j : Nat := (2); let es : List (BitVec 8) := ([0, 7]); 
    (j < 10) ∧ ((∃ e ∈ es, e ≠ 0)) := by
  decide

theorem test_wit_SymbolCodeCorrectsOneDevice_4 :
    let line : BitVec 512 := (0x1234); let p : Bool := (true); let s : Nat := (0); 
    (s < 8) := by
  decide

theorem test_wit_SymbolCodeCorrectsOneDevice_5 :
    let line : BitVec 512 := (0x1234); let p : Bool := (false); let errs : List (Nat × Nat) := ([(3, 7), (14, 9)]); let s : Nat := (1); 
    (s < 8) := by
  decide

theorem test_wit_SymbolCodeCorrectsOneDevice_6 :
    let mark : Nat := (3); let e : BitVec 8 := (7); 
    (mark < 10) := by
  decide

theorem test_wit_DramChannelRows_1 :
    let s : State := (at_ fun d => d.onRestore fun r => { r with phase := 3 }); let t : Fin 8 := (1); let c : Fin 4 := (2); let dt : Nat := (1); 
    (s.dev.restore.phase = 3) ∧ ((s.dev.chan t.val c.val).state ≠ 3) ∧ ((s.dev.tile t.val).isolated = false) := by
  decide

theorem test_wit_DramChannelRows_2 :
    let s : State := (at_ fun d => (d.onRestore fun r => { r with phase := 3 }).onChan 1 2 fun x => { x with trainTries := 1 }); let t : Fin 8 := (1); let c : Fin 4 := (2); let dt : Nat := (1); 
    (s.dev.restore.phase = 3) ∧ ((s.dev.chan t.val c.val).state ≠ 3) ∧ ((s.dev.tile t.val).isolated = false) := by
  decide

theorem test_wit_DramChannelRows_3 :
    let s : State := (at_ fun d => d.onRestore fun r => { r with phase := 3 }); let t : Fin 8 := (1); let c : Fin 4 := (2); let ok : Bool := (true); let pop : Bool := (true); let dev : Bool := (false); let chk : Bool := (true); let dt : Nat := (1); 
    (s.dev.restore.phase = 3) ∧ ((s.dev.chan t.val c.val).state ≠ 3) ∧ ((s.dev.tile t.val).isolated = false) ∧ ((pop && dev && chk) = false) := by
  decide

theorem test_wit_DramChannelRows_4 :
    let s : State := (at_ fun d => (d.onRestore fun r => { r with phase := 3 }).onDram fun x => { x with chans := (List.range 32).map fun k => (k / 4 * 4 + k % 4, { state := 1 }) }); let n : Fin 4 := (3); let size : Fin 4 := (3); let rate : Fin 3 := (0); let ecc : List (Nat × Nat) := ([(17, 4)]); let dt : Nat := (1); 
    (s.dev.restore.phase = 3) ∧ ((∀ t ∈ s.dev.inSvc, ∀ c ∈ [0, 1, 2, 3], (s.dev.chan t c).state = 1)) := by
  decide

theorem test_wit_DramChannelRows_5 :
    let s : State := (at_ fun d => d.onChan 1 2 fun x => { x with state := 1, caTrain := true }); let t : Fin 8 := (1); let c : Fin 4 := (2); let dt : Nat := (1); 
    ((s.dev.chan t.val c.val).caTrain = true) := by
  decide

theorem test_wit_DramChannelRows_6 :
    let s : State := (at_ fun d => d.onChan 1 2 fun x => { x with state := 1, caTrain := true }); let t : Fin 8 := (1); let c : Fin 4 := (2); let dt : Nat := (1); 
    ((s.dev.chan t.val c.val).caTrain = true) := by
  decide

theorem test_wit_DramChannelRows_7 :
    let s : State := (at_ fun d => d.onChan 1 2 fun x => { x with tokens := 3 }); let t : Fin 8 := (1); let c : Fin 4 := (2); let dt : Nat := (1); 
    (s.dev.expo.held = []) := by
  decide

theorem test_wit_DramChannelRows_8 :
    let s : State := (at_ id); let t : Fin 8 := (1); let c : Fin 4 := (2); let codes : List (Fin 3) := ([0, 2]); let dt : Nat := (1); let r : Fin 4 := (1); let k : Fin 3 := (2); 
    ((s.dev.tile t.val).isolated = false) ∧ (codes[r.val]? = some k) ∧ (k ≠ 0) := by
  decide

theorem test_wit_DramChannelRows_9 :
    let s : State := (at_ fun d => (d.onChan 1 2 fun x => { x with state := 1, postponed := [5] }).onRank 1 2 fun r => { r with refNext := 31 }); let t : Fin 8 := (1); let c : Fin 4 := (2); let bank : Fin 128 := (31); let postpone : Bool := (true); let dt : Nat := (1); 
    ((s.dev.chan t.val c.val).state = 1) ∧ ((s.dev.rank t.val (rankEntry (bank.val / 32) c.val)).refNext = bank.val % 32) := by
  decide

theorem test_wit_DramChannelRows_10 :
    let s : State := (at_ fun d => d.onChan 1 2 fun x => { x with state := 1, postponed := [5, 6, 5] }); let t : Fin 8 := (1); let c : Fin 4 := (2); let bank : Fin 128 := (5); let dt : Nat := (1); 
    ((s.dev.chan t.val c.val).state = 1) ∧ ((s.dev.rank t.val (rankEntry (bank.val / 32) c.val)).refNext ≠ bank.val % 32) := by
  decide

theorem test_wit_DramChannelRows_11 :
    let s : State := (at_ fun d => d.onChan 1 2 fun x => { x with state := 1 }); let t : Fin 8 := (1); let c : Fin 4 := (2); let dt : Nat := (1); 
    ((s.dev.chan t.val c.val).state = 1) ∧ (s.dev.sealing.active = false) ∧ ((s.dev.chan t.val c.val).switchTo = none) := by
  decide

theorem test_wit_DramChannelRows_12 :
    let s : State := (at_ fun d => d.onChan 1 2 fun x => { x with state := 1, gather := true }); let t : Fin 8 := (1); let c : Fin 4 := (2); let drifts : List (Fin 4) := ([0, 3]); let dt : Nat := (1); 
    ((s.dev.chan t.val c.val).gather = true) ∧ ((s.dev.chan t.val c.val).switchPend = false) := by
  decide

theorem test_wit_DramChannelRows_13 :
    let s : State := (at_ fun d => d.onChan 1 2 fun x => { x with state := 1, partial_ := [0, 3] }); let t : Fin 8 := (1); let c : Fin 4 := (2); let r : Fin 4 := (3); let dt : Nat := (1); 
    ((s.dev.chan t.val c.val).switchTo = none) := by
  decide

theorem test_wit_DramChannelRows_14 :
    let s : State := (at_ fun d => d.onChan 1 2 fun x => { x with state := 1, partial_ := [3], switchPend := true, switchTo := some 0, fsp := 1 }); let t : Fin 8 := (1); let c : Fin 4 := (2); let r : Fin 4 := (3); let dt : Nat := (1); let w : Nat := (0); 
    ((s.dev.chan t.val c.val).switchTo = some w) ∧ ((s.dev.chan t.val c.val).switchPend = true) ∧ ((s.dev.chan t.val c.val).partial_ = [r.val]) := by
  decide

theorem test_wit_DramChannelRows_15 :
    let s : State := (at_ fun d => d.onChan 1 2 fun x => { x with state := 1, switchTo := some 0, fsp := 1 }); let t : Fin 8 := (1); let c : Fin 4 := (2); let dt : Nat := (1); let w : Nat := (0); 
    ((s.dev.chan t.val c.val).switchTo = some w) ∧ ((s.dev.chan t.val c.val).partial_ = []) := by
  decide

theorem test_wit_DramChannelRows_16 :
    let s : State := (at_ fun d => d.onChan 1 2 fun x => { x with state := 1 }); let t : Fin 8 := (1); let c : Fin 4 := (2); let dt : Nat := (200000); 
    ((s.dev.chan t.val c.val).state = 1) ∧ (s.dev.dram.cfg.idleSr ≠ 0) ∧ (s.dev.dram.cfg.idleSr * 1000 ≤ (s.dev.elapse dt).since (s.dev.chan t.val c.val).lastReq) ∧ ((s.dev.chan t.val c.val).gather = false) ∧ ((s.dev.chan t.val c.val).partial_ = []) ∧ ((s.dev.chan t.val c.val).switchTo = none) ∧ (s.dev.chanBusy t.val c.val = false) ∧ (s.dev.expo.held = []) := by
  decide

theorem test_wit_DramChannelRows_17 :
    let s : State := (at_ id); let dt : Nat := (1); 
    ((s.dev.elapse dt).tickDue 7 100000000 = true) := by
  decide

theorem test_wit_DramRepairAndSteeringRows_1 :
    let s : State := (at_ fun d => (d.onDram fun x => { x with repairs := [3] }).onExpo fun x => { x with ueLines := [192, 5] }); let p : Nat := (3); let recBad : Bool := (true); let dt : Nat := (1); 
    (s.dev.dram.repairs.contains p = true) ∧ (s.dev.expo.held = []) := by
  decide

theorem test_wit_DramRepairAndSteeringRows_2 :
    let s : State := (at_ fun d => d.onChan 0 0 fun x => { x with state := 1 }); let line : Nat := (3); let lost : Bool := (false); let dt : Nat := (1); 
    ((s.dev.tile (s.dev.lineLoc line).t).isolated = false) ∧ (4 ≤ s.dev.restore.phase) ∧ ((∀ p ∈ s.dev.lineRanks line false, (s.dev.chan (s.dev.lineLoc line).t (p % 4)).state = 1)) := by
  decide

theorem test_wit_DramRepairAndSteeringRows_3 :
    let s : State := (at_ fun d => d.onDram fun x => { x with steerPend := [{ tile := 1, entry := 9, new := { state := 3, sweep := 0 } }] }); let t : Fin 8 := (1); let dt : Nat := (1); let x : SteerPend := ({ tile := 1, entry := 9, new := { state := 3, sweep := 0 } }); 
    (s.dev.dram.steerPend = [x]) ∧ (x.tile = t.val) ∧ (x.new.state ≠ 4) ∧ ((∀ k ∈ List.range 16, k ≠ x.entry → (s.dev.steer t.val k).state ≠ 4)) := by
  decide

theorem test_wit_DramRepairAndSteeringRows_4 :
    let s : State := (at_ fun d => d.onSteer 1 9 fun x => { x with state := 1, sweep := 4, altCh := 3, altRank := 3, altValid := true }); let t : Fin 8 := (1); let e : Fin 16 := (9); let dt : Nat := (1); 
    (s.dev.dram.steerPend = []) ∧ (s.dev.rankMay t.val = true) ∧ ((s.dev.steer t.val e.val).state = 1) ∧ ((s.dev.steer t.val e.val).sweep + 1 < s.dev.rankBytes / 2097152) := by
  decide

theorem test_wit_DramRepairAndSteeringRows_5 :
    let s : State := (at_ fun d => d.onSteer 1 9 fun x => { x with state := 1, sweep := 131071, altCh := 3, altRank := 3, altValid := true }); let t : Fin 8 := (1); let e : Fin 16 := (9); let dt : Nat := (1); 
    (s.dev.dram.steerPend = []) ∧ (s.dev.rankMay t.val = true) ∧ ((s.dev.steer t.val e.val).state = 1) ∧ (s.dev.rankBytes / 2097152 ≤ (s.dev.steer t.val e.val).sweep + 1) ∧ (s.dev.migSource t.val e.val = e.val) := by
  decide

theorem test_wit_DramRepairAndSteeringRows_6 :
    let s : State := (at_ fun d => d.onSteer 1 9 fun x => { x with state := 3, sweep := 131, altCh := 3, altRank := 3, altValid := true, testPass := true }); let t : Fin 8 := (1); let e : Fin 16 := (9); let dt : Nat := (1); 
    (s.dev.dram.steerPend = []) ∧ (s.dev.rankMay t.val = true) ∧ ((s.dev.steer t.val e.val).state = 3) := by
  decide

theorem test_wit_DramRepairAndSteeringRows_7 :
    let s : State := (at_ fun d => d.onRank 1 9 fun x => { x with pprRun := true }); let t : Fin 8 := (1); let e : Fin 16 := (9); let dt : Nat := (1); 
    ((s.dev.rank t.val e.val).pprRun = true) ∧ (s.dev.rankMay t.val = true) := by
  decide

theorem test_wit_DramRepairAndSteeringRows_8 :
    let s : State := (at_ fun d => d.onRank 1 9 fun x => { x with pprRun := true }); let t : Fin 8 := (1); let e : Fin 16 := (9); let dt : Nat := (1); 
    ((s.dev.rank t.val e.val).pprRun = true) ∧ (s.dev.rankMay t.val = true) := by
  decide

theorem test_wit_DramRepairAndSteeringRows_9 :
    let s : State := (at_ fun d => (d.onRank 1 9 fun x => { x with testRun := true }).onSteer 1 9 fun x => { x with state := 2 }); let t : Fin 8 := (1); let e : Fin 16 := (9); let ues : Nat := (0); let ces : Nat := (17); let clean0 : Bool := (true); let clean1 : Bool := (true); let dt : Nat := (1); 
    (s.dev.rankMay t.val = true) ∧ ((s.dev.steer t.val e.val).state = 2) ∧ ((s.dev.rank t.val e.val).testRun = true) ∧ ((ues ≠ 0 ∨ 16 < ces)) := by
  decide

theorem test_wit_DramRepairAndSteeringRows_10 :
    let s : State := (at_ fun d => (d.onRank 1 9 fun x => { x with testRun := true }).onSteer 1 9 fun x => { x with state := 2 }); let t : Fin 8 := (1); let e : Fin 16 := (9); let ces : Nat := (16); let clean0 : Bool := (true); let clean1 : Bool := (true); let dt : Nat := (1); 
    (s.dev.rankMay t.val = true) ∧ ((s.dev.steer t.val e.val).state = 2) ∧ ((s.dev.rank t.val e.val).testRun = true) ∧ (ces ≤ 16) ∧ ((s.dev.steer t.val e.val).mark0 = 15) ∧ ((s.dev.steer t.val e.val).mark1 = 15) := by
  decide

theorem test_wit_DramRepairAndSteeringRows_11 :
    let s : State := (at_ fun d => d.onSteer 1 9 fun x => { x with state := 5 }); let t : Fin 8 := (1); let e : Fin 16 := (9); let ues : Nat := (1); let ces : Nat := (0); let clean0 : Bool := (true); let clean1 : Bool := (true); let dt : Nat := (1); 
    (s.dev.rankMay t.val = true) ∧ ((s.dev.steer t.val e.val).state = 5) ∧ ((ues ≠ 0 ∨ 16 < ces)) := by
  decide

theorem test_wit_GaugeAndEstimatorRows_2 :
    let s : State := (at_ fun d => (d.onSealing fun x => { x with active := true }).onEnergy fun x => { x with brShunt := 2000, src := [(2, { eMj := 1000 })] }); let a : Nat × Int × Nat × Nat := ((0, 0, 0, 0)); let b : Nat × Int × Nat × Nat := ((0, 0, 0, 0)); let c : Nat × Int × Nat × Nat := ((200000, 3200, 0, 0)); let cv : BitVec 2 := (0); let dt : Nat := (1000000); 
    (s.dev.sealing.active = true) ∧ (s.dev.energy.brShunt ≠ 0) := by
  decide

theorem test_wit_GaugeAndEstimatorRows_3 :
    let s : State := (at_ fun d => (d.onPanel fun p => { p with vinOk := true, pwrFailN := true }).onEnergy fun x => { x with pack := [(1, { calFrom := some 5 })] }); let b : Fin 2 := (1); let mean : Int := (-12); let t0 : Nat := (5); let dt : Nat := (70000000000); 
    ((s.dev.bay b.val).path ≤ 1) ∧ (s.dev.panel.pwrFailN = true) ∧ (s.dev.panel.vinOk = true) ∧ ((s.dev.bay b.val).calFrom = some t0) ∧ (70000000000 ≤ (s.dev.elapse dt).since t0) := by
  decide

theorem test_wit_GaugeAndEstimatorRows_4 :
    let s : State := (at_ fun d => d.onEnergy fun x => { x with brCnom := some 20000, brC := 20000, brEsr := 10000, src := [(2, { vCode := 240000 })] }); let dt : Nat := (0); 
    ((s.dev.elapse dt).tickDue 9 100000000 = true) ∧ (s.dev.sealing.active = false) ∧ (s.dev.bridgeCounted = true) := by
  decide

theorem test_wit_GaugeAndEstimatorRows_5 :
    let s : State := (at_ fun d => d.onEnergy fun x => { x with src := [(1, { tEst := 1 })], pack := [(1, { latch := true, nameplate := some 3000, state := 2 })] }); let b : Fin 2 := (1); let dt : Nat := (0); 
    ((s.dev.elapse dt).tickDue 9 100000000 = true) ∧ (s.dev.sealing.active = false) ∧ (s.dev.estimated b.val = true) := by
  decide

theorem test_wit_GaugeAndEstimatorRows_6 :
    let s : State := (at_ fun d => d.onSealing fun x => { x with active := true }); let dt : Nat := (0); 
    (s.dev.sealing.active = true) := by
  decide

theorem test_wit_GaugeAndEstimatorRows_7 :
    let s : State := (at_ fun d => d.onEnergy fun x => { x with restCap := true, src := [(1, { tEst := 1 })], pack := [(1, { latch := true, nameplate := some 3000, state := 2, resting := true, restFrom := some 7 })] }); let b : Fin 2 := (1); let vOc : Nat := (16000); let t0 : Nat := (7); let dt : Nat := (1200000000000); 
    (s.dev.estimated b.val = true) ∧ ((s.dev.bay b.val).restFrom = some t0) ∧ (1200000000000 ≤ (s.dev.elapse dt).since t0) := by
  decide

theorem test_wit_GaugeAndEstimatorRows_8 :
    let s : State := (at_ fun d => d.onEnergy fun x => { x with chemTab := [(0, List.replicate 252 9)], src := [(1, { tEst := 1 })], pack := [(1, { latch := true, nameplate := some 3000, state := 2 })] }); let b : Fin 2 := (1); let dv : Nat := (1000); let di : Nat := (2000000); let dt : Nat := (0); 
    (1000000 ≤ di) ∧ (s.dev.estimated b.val = true) := by
  decide

theorem test_wit_GaugeAndEstimatorRows_9 :
    let s : State := (at_ fun d => d.onEnergy fun x => { x with brCnom := some 20000, brC := 20000, brEsr := 10000 }); let v0 : Nat := (20000); let v1 : Nat := (23500); let q : Nat := (90000); let esr : Nat := (20000); let cn : Nat := (20000); let dt : Nat := (0); 
    (s.dev.energy.brCnom = some cn) ∧ (v0 ≤ 20000) ∧ (23500 ≤ v1) := by
  decide

theorem test_wit_GaugeAndEstimatorRows_10 :
    let s : State := (at_ fun d => d.onEnergy fun x => { x with pack := [(1, { latch := true, nameplate := some 3000, state := 1 })] }); let b : Fin 2 := (1); let mv : Nat := (0); let dt : Nat := (0); 
    ((s.dev.bay b.val).state = 1) ∧ ((s.dev.bay b.val).latch = true) ∧ ((s.dev.bay b.val).nameplate.isSome = true) ∧ ((s.dev.bay b.val).fault = 0) ∧ ((s.dev.bay b.val).resumed = false) ∧ (s.dev.sealing.active = false) := by
  decide

theorem test_wit_GaugeAndEstimatorRows_11 :
    let s : State := (at_ fun d => d.onEnergy fun x => { x with pack := [(1, { latch := true, nameplate := some 3000, state := 1, resumed := true, soc := 77 })] }); let b : Fin 2 := (1); let mv : Nat := (0); let dt : Nat := (0); 
    ((s.dev.bay b.val).state = 1) ∧ ((s.dev.bay b.val).latch = true) ∧ ((s.dev.bay b.val).nameplate.isSome = true) ∧ ((s.dev.bay b.val).fault = 0) ∧ ((s.dev.bay b.val).resumed = true) ∧ (s.dev.sealing.active = false) := by
  decide

theorem test_wit_CapacityFaultAssistRows_1 :
    let s : State := (at_ fun d => d.onEnergy fun x => { x with pack := [(1, { latch := true, state := 2, charging := true, chargeAt := 1 })] }); let b : Fin 2 := (1); let dt : Nat := (0); 
    ((s.dev.bay b.val).charging = true) ∧ ((s.dev.bay b.val).latch = true) ∧ ((s.dev.bay b.val).fault = 0) ∧ ((s.dev.bay b.val).state ≠ 4) ∧ (s.dev.sealing.active = false) ∧ (21600000000000 ≤ (s.dev.elapse dt).since (s.dev.bay b.val).chargeAt) := by
  decide

theorem test_wit_CapacityFaultAssistRows_2 :
    let s : State := (at_ fun d => d.onEnergy fun x => { x with pack := [(1, { latch := true, state := 2, counted := true })] }); let b : Fin 2 := (1); let dt : Nat := (0); 
    ((s.dev.bay b.val).learnInt ≠ 0) ∧ ((s.dev.bay b.val).test = 0) ∧ ((s.dev.bay b.val).counted = true) ∧ ((s.dev.bay b.val).tNextLearn ≤ (s.dev.elapse dt).now) := by
  decide

theorem test_wit_CapacityFaultAssistRows_3 :
    let s : State := (at_ fun d => d.onEnergy fun x => { x with pack := [(1, { test := 1, testSa := some 9900 })] }); let b : Fin 2 := (1); let dt : Nat := (0); 
    ((s.dev.bay b.val).test = 1) ∧ ((s.dev.bay b.val).testSa.isSome = true) := by
  decide

theorem test_wit_CapacityFaultAssistRows_4 :
    let s : State := (at_ fun d => d.onEnergy fun x => { x with pack := [(1, { test := 2, soc := 3000 })] }); let b : Fin 2 := (1); let dt : Nat := (0); 
    ((s.dev.bay b.val).test = 2) ∧ ((s.dev.bay b.val).soc ≤ 3000) ∧ ((s.dev.bay b.val).intrAt = none) := by
  decide

theorem test_wit_CapacityFaultAssistRows_5 :
    let s : State := (at_ fun d => d.onEnergy fun x => { x with pack := [(1, { test := 3, testSa := some 9900, testSb := some 2900, nameplate := some 3000, rShunt := 2000, testQ := 24192000000 })] }); let b : Fin 2 := (1); let np : Nat := (3000); let sa : Nat := (9900); let sb : Nat := (2900); let meas : Nat := (3000); let dt : Nat := (0); 
    ((s.dev.bay b.val).test = 3) ∧ ((s.dev.bay b.val).testSa = some sa) ∧ ((s.dev.bay b.val).testSb = some sb) ∧ ((s.dev.bay b.val).nameplate = some np) ∧ ((s.dev.bay b.val).rShunt * (sa - sb) ≠ 0) ∧ (meas = (s.dev.bay b.val).testQ.toNat * 6250 / (3600 * (s.dev.bay b.val).rShunt * (sa - sb))) ∧ (meas ≠ 0) ∧ (np ≤ 2 * meas) ∧ (10 * meas ≤ 11 * np) := by
  decide

theorem test_wit_CapacityFaultAssistRows_6 :
    let s : State := (at_ fun d => d.onEnergy fun x => { x with pack := [(1, { test := 3, testSa := some 9900, testSb := some 2900, nameplate := some 3000, fccMah := 2700, rShunt := 2000, testQ := 5 })] }); let b : Fin 2 := (1); let np : Nat := (3000); let sa : Nat := (9900); let sb : Nat := (2900); let meas : Nat := (0); let dt : Nat := (0); 
    ((s.dev.bay b.val).test = 3) ∧ ((s.dev.bay b.val).testSa = some sa) ∧ ((s.dev.bay b.val).testSb = some sb) ∧ ((s.dev.bay b.val).nameplate = some np) ∧ ((s.dev.bay b.val).rShunt * (sa - sb) ≠ 0) ∧ (meas = (s.dev.bay b.val).testQ.toNat * 6250 / (3600 * (s.dev.bay b.val).rShunt * (sa - sb))) ∧ ((2 * meas < np ∨ 11 * np < 10 * meas)) ∧ (np ≤ 2 * (s.dev.bay b.val).fccMah) := by
  decide

theorem test_wit_CapacityFaultAssistRows_7 :
    let s : State := (at_ fun d => d.onEnergy fun x => { x with src := [(1, { tEst := 1 })], pack := [(1, { latch := true, state := 5, fault := 4, nameplate := some 1 })] }); let b : Fin 2 := (1); let dt : Nat := (0); 
    (1 ≤ (s.dev.bay b.val).fault) ∧ ((s.dev.bay b.val).fault ≤ 6) ∧ ((s.dev.bay b.val).state = 5) ∧ (60000000000 ≤ (s.dev.elapse dt).since (s.dev.bay b.val).faultSince) := by
  decide

theorem test_wit_CapacityFaultAssistRows_8 :
    let s : State := (at_ fun d => d.onEnergy fun x => { x with recDue := true }); let dt : Nat := (0); 
    ((s.dev.energy.recDue = true ∨ 21600000000000 ≤ (s.dev.elapse dt).since s.dev.energy.recAt)) := by
  decide

theorem test_wit_CapacityFaultAssistRows_9 :
    let s : State := (at_ fun d => d.onEnergy fun x => { x with assistEn := true }); let drawMw : Nat := (300000); let dt : Nat := (0); 
    (s.dev.energy.assistEn = true) ∧ (s.dev.holdup = false) ∧ (s.dev.pkg.safe = 0) := by
  decide

theorem test_wit_CapacityFaultAssistRows_10 :
    let s : State := (at_ id); let drawMw : Nat := (300000); let dt : Nat := (0); 
    ((s.dev.energy.assistEn = false ∨ s.dev.holdup = true ∨ s.dev.pkg.safe ≠ 0)) := by
  decide

theorem test_wit_CapacityFaultAssistRows_11 :
    let s : State := (at_ fun d => d.onEnergy fun x => { x with src := [(0, { tEst := 1 })], pack := [(0, { latch := true, state := 2, noRestMin := 4320, nameplate := some 1 })] }); let dt : Nat := (0); 
    (s.dev.estimated 0 = true) ∧ (4320 ≤ (s.dev.bay 0).noRestMin) ∧ ((s.dev.bay 0).state = 2) ∧ ((s.dev.bay 1).noRestMin ≤ (s.dev.bay 0).noRestMin) ∧ ((s.dev.bay 0).resting = false) ∧ ((s.dev.bay 1).resting = false) ∧ (s.dev.expo.gov.pkgState ≠ 4) ∧ (s.dev.sealing.active = false) ∧ (s.dev.pkg.safe = 0) ∧ (s.dev.energy.restRetry ≤ (s.dev.elapse dt).now) := by
  decide

theorem test_wit_CapacityFaultAssistRows_12 :
    let s : State := (at_ fun d => d.onEnergy fun x => { x with pack := [(0, { resting := true })] }); let dt : Nat := (0); 
    ((s.dev.bay 0).resting = true) ∧ ((s.dev.bay 1).resting = false) := by
  decide

theorem test_wit_BayRows_1 :
    let s : State := (at_ id); let b : Fin 2 := (1); let dt : Nat := (0); 
    (s.dev.sealing.active = false) ∧ (s.dev.panel.coreUp = true) ∧ (s.dev.panel.touchStuck.contains b.val = false) ∧ ((s.dev.bay b.val).touch = false) := by
  decide

theorem test_wit_BayRows_2 :
    let s : State := (at_ fun d => d.onEnergy fun x => { x with pack := [(1, { touch := true })] }); let b : Fin 2 := (1); let dt : Nat := (0); 
    ((s.dev.bay b.val).touch = true) := by
  decide

theorem test_wit_BayRows_3 :
    let s : State := (at_ fun d => (d.onEnergy fun x => { x with pack := [(1, { touch := true })] }).onPanel fun p => { p with touchAt := [(1, 5)] }); let b : Fin 2 := (1); let count : Nat := (9); let t : Nat := (5); let dt : Nat := (0); 
    ((s.dev.bay b.val).touch = true) ∧ (tget (s.dev.panel.touchAt.map fun x => (x.1, some x.2)) none b.val = some t) ∧ (600000000000 ≤ (s.dev.elapse dt).since t) := by
  decide

theorem test_wit_BayRows_4 :
    let s : State := (at_ fun d => d.onEnergy fun x => { x with pack := [(1, { button := true })] }); let b : Fin 2 := (1); let dt : Nat := (0); 
    (s.dev.panel.coreUp = true) := by
  decide

theorem test_wit_BayRows_5 :
    let s : State := (at_ id); let b : Fin 2 := (1); let dt : Nat := (0); 
    (s.dev.panel.coreUp = true) ∧ ((s.dev.bay b.val).state = 0) := by
  decide

theorem test_wit_BayRows_6 :
    let s : State := (at_ fun d => d.onEnergy fun x => { x with pack := [(1, { state := 2, hold := true })] }); let b : Fin 2 := (1); let dt : Nat := (0); 
    (s.dev.panel.coreUp = true) ∧ ((s.dev.bay b.val).state ≠ 0) ∧ ((s.dev.realSeal = true ∨ (s.dev.bay b.val).hold = true ∨ (s.dev.bay b.val).state = 1)) := by
  decide

theorem test_wit_BayRows_7 :
    let s : State := (at_ fun d => d.onEnergy fun x => { x with pack := [(1, { state := 5, lock := true })] }); let b : Fin 2 := (1); let dt : Nat := (0); 
    (s.dev.panel.coreUp = true) ∧ (s.dev.realSeal = false) ∧ ((s.dev.bay b.val).hold = false) ∧ ((s.dev.bay b.val).state = 5) := by
  decide

theorem test_wit_BayRows_8 :
    let s : State := (at_ fun d => d.onEnergy fun x => { x with pack := [(1, { state := 3, lock := true })] }); let b : Fin 2 := (1); let dt : Nat := (0); 
    (s.dev.panel.coreUp = true) ∧ (s.dev.realSeal = false) ∧ ((s.dev.bay b.val).hold = false) ∧ ((s.dev.bay b.val).state = 3) := by
  decide

theorem test_wit_BayRows_9 :
    let s : State := (at_ fun d => d.onEnergy fun x => { x with pack := [(1, { state := 2, lock := true, counted := true })] }); let b : Fin 2 := (1); let dt : Nat := (0); 
    (s.dev.panel.coreUp = true) ∧ (s.dev.realSeal = false) ∧ (s.dev.testSealRuns = false) ∧ ((s.dev.bay b.val).hold = false) ∧ ((s.dev.bay b.val).state = 2) ∧ ((s.dev.xPkg = 0 ∨ (s.dev.bay b.val).counted = false)) := by
  decide

theorem test_wit_BayRows_10 :
    let s : State := (at_ fun d => d.onEnergy fun x => { x with pack := [(1, { state := 2, lock := true, counted := true })] }); let b : Fin 2 := (1); let dt : Nat := (0); 
    (s.dev.panel.coreUp = true) ∧ (s.dev.realSeal = false) ∧ ((s.dev.bay b.val).hold = false) ∧ ((s.dev.bay b.val).state = 2) := by
  decide

theorem test_wit_BayRows_11 :
    let s : State := (at_ fun d => d.onEnergy fun x => { x with pack := [(1, { state := 2, lock := true, latch := true, counted := true })] }); let b : Fin 2 := (1); let dt : Nat := (0); 
    (s.dev.panel.coreUp = true) := by
  decide

theorem test_wit_BayRows_12 :
    let s : State := (at_ fun d => d.onPanel fun p => { p with coreUp := false }); let b : Fin 2 := (1); let dt : Nat := (0); 
    (s.dev.panel.coreUp = false) := by
  decide

theorem test_wit_BayRows_13 :
    let s : State := (at_ id); let b : Fin 2 := (1); let dt : Nat := (0); 
    (s.dev.panel.coreUp = true) ∧ ((s.dev.bay b.val).state = 0) := by
  decide

theorem test_wit_BayRows_14 :
    let s : State := (at_ fun d => d.onEnergy fun x => { x with pack := [(1, { state := 3 })] }); let b : Fin 2 := (1); let dt : Nat := (0); 
    ((s.dev.bay b.val).state = 3) ∧ (120000000000 ≤ (s.dev.elapse dt).since (s.dev.bay b.val).waitSince) := by
  decide

theorem test_wit_BayRows_15 :
    let s : State := (at_ fun d => d.onEnergy fun x => { x with pack := [(1, { state := 4, latch := true })] }); let b : Fin 2 := (1); let dt : Nat := (0); 
    ((s.dev.bay b.val).state = 4) ∧ ((s.dev.bay b.val).latch = true) ∧ (60000000000 ≤ (s.dev.elapse dt).since (s.dev.bay b.val).grantAt) := by
  decide

theorem test_wit_BayRows_16 :
    let s : State := (at_ fun d => d.onEnergy fun x => { x with pack := [(1, { refusedUntil := some 5 })] }); let b : Fin 2 := (1); let t : Nat := (5); let dt : Nat := (0); 
    ((s.dev.bay b.val).refusedUntil = some t) ∧ (t ≤ (s.dev.elapse dt).now) := by
  decide

theorem test_wit_ThermalRows_1 :
    let s : State := (at_ fun d => d.onTherm fun x => { x with sens := [(3, { runT := 2, code := 55000, temp := 1718 }), (4, { inT := true })] }); let codes : List (Nat × BitVec 18) := ([(3, 55001), (66, 30000)]); let dt : Nat := (0); 
    (s.dev.panel.coreUp = true) ∧ ((∀ n ∈ sensors, (s.dev.sens n).runS < 2)) := by
  decide

theorem test_wit_ThermalRows_2 :
    let s : State := (at_ fun d => d.onTherm fun x => { x with sens := [(3, { inW := true, belW := some 5 })] }); let n : Fin 72 := (3); let u : Nat := (5); let dt : Nat := (0); 
    ((s.dev.sens n.val).inW = true) ∧ ((s.dev.sens n.val).belW = some u) ∧ (1000000000 ≤ (s.dev.elapse dt).since u) := by
  decide

theorem test_wit_ThermalRows_3 :
    let s : State := (at_ fun d => d.onTherm fun x => { x with sens := [(3, { inT := true, belT := some 5 })], tile := [(0, { hot := true, step := 2 })] }); let n : Fin 72 := (3); let u : Nat := (5); let dt : Nat := (0); 
    ((s.dev.sens n.val).inT = true) ∧ ((s.dev.sens n.val).belT = some u) ∧ (1000000000 ≤ (s.dev.elapse dt).since u) := by
  decide

theorem test_wit_ThermalRows_4 :
    let s : State := (at_ fun d => d.onTherm fun x => { x with sens := [(3, { inS := true, belS := some 5 })] }); let n : Fin 72 := (3); let u : Nat := (5); let dt : Nat := (0); 
    ((s.dev.sens n.val).inS = true) ∧ ((s.dev.sens n.val).belS = some u) ∧ (1000000000 ≤ (s.dev.elapse dt).since u) := by
  decide

theorem test_wit_ThermalRows_5 :
    let s : State := (at_ fun d => d.onTherm fun x => { x with tile := [(1, { hot := true, step := 1 })] }); let t : Fin 8 := (1); let dt : Nat := (0); 
    ((s.dev.ttile t.val).hot = true) ∧ ((s.dev.ttile t.val).frozenUntil = none) ∧ ((s.dev.ttile t.val).step < 3) ∧ (s.dev.therm.stepS * 1000000000 ≤ (s.dev.elapse dt).since (s.dev.ttile t.val).stepAt) := by
  decide

theorem test_wit_ThermalRows_6 :
    let s : State := (at_ fun d => d.onTherm fun x => { x with tile := [(1, { step := 1, floor := 2 })] }); let t : Fin 8 := (1); let dt : Nat := (0); 
    ((s.dev.ttile t.val).hot = false) ∧ ((s.dev.ttile t.val).frozenUntil = none) ∧ (0 < (s.dev.ttile t.val).step) ∧ (1000000000 ≤ (s.dev.elapse dt).since (s.dev.ttile t.val).stepAt) := by
  decide

theorem test_wit_ThermalRows_7 :
    let s : State := (at_ fun d => d.onTherm fun x => { x with tile := [(1, { step := 2, frozenUntil := some 5 })] }); let t : Fin 8 := (1); let u : Nat := (5); let dt : Nat := (0); 
    ((s.dev.ttile t.val).frozenUntil = some u) ∧ (u ≤ (s.dev.elapse dt).now) := by
  decide

theorem test_wit_ThermalRows_8 :
    let s : State := (at_ fun d => d.onTherm fun x => { x with sens := [(3, { failed := true, cause := 2, okSince := 5 })] }); let n : Fin 72 := (3); let dt : Nat := (0); 
    ((s.dev.sens n.val).failed = true) ∧ ((s.dev.elapse dt).failCause n.val = 0) ∧ (600000000000 ≤ (s.dev.elapse dt).since (s.dev.sens n.val).okSince) := by
  decide

theorem test_wit_ThermalRows_9 :
    let s : State := (at_ fun d => d.onTherm fun x => { x with sens := [(3, { code := -5, temp := -1, failed := true })] }); let dt : Nat := (0); 
    ((s.dev.elapse dt).tickDue 6 10000000 = true) := by
  decide

theorem test_wit_ThermalRows_10 :
    let s : State := (at_ fun d => (d.onTherm fun x => { x with recPend := [{ kind := 5 }] }).onSealing fun x => { x with active := true, stage := 5 }); let dt : Nat := (0); 
    ((s.dev.elapse dt).recMay = true) ∧ (s.dev.therm.recPend ≠ []) := by
  decide

theorem test_wit_FlintWindowRows_1 :
    let s : State := (at_ fun d => d.onColl 8 fun x => { x with input := [{ src := 811, kind := 0x14, sev := 1 }] }); let m : FlintMsg := (({ src := 811, kind := 0x14, sev := 1 } : FlintMsg)); let n : Nat := (8); let pk : Nat := (0); let dt : Nat := (0); 
    ((s.dev.coll 8).urgent = []) ∧ ((s.dev.coll 8).input = [m]) ∧ (1 ≤ n) ∧ (s.dev.flint.shadows = []) ∧ (m.sev ≤ 1) := by
  decide

theorem test_wit_FlintWindowRows_2 :
    let s : State := (at_ fun d => d.onColl 8 fun x => { x with input := [{ src := 806, kind := 0x83, sev := 2, tile := 4 }] }); let m : FlintMsg := (({ src := 806, kind := 0x83, sev := 2, tile := 4 } : FlintMsg)); let n : Nat := (8); let pk : Nat := (0); let dt : Nat := (0); 
    ((s.dev.coll 8).urgent = []) ∧ ((s.dev.coll 8).input = [m]) ∧ (1 ≤ n) ∧ (s.dev.flint.shadows = []) ∧ (m.sev = 2) ∧ ((s.dev.coll 8).ff.valid = false) ∧ (768 ≤ m.src) ∧ (m.tile < 8) := by
  decide

theorem test_wit_FlintWindowRows_3 :
    let s : State := (at_ fun d => d.onColl 8 fun x => { x with ff := { x.ff with valid := true }, input := [{ src := 806, kind := 0x83, sev := 2, tile := 4 }] }); let m : FlintMsg := (({ src := 806, kind := 0x83, sev := 2, tile := 4 } : FlintMsg)); let n : Nat := (8); let pk : Nat := (0); let dt : Nat := (0); 
    ((s.dev.coll 8).urgent = []) ∧ ((s.dev.coll 8).input = [m]) ∧ (1 ≤ n) ∧ (s.dev.flint.shadows = []) ∧ (m.sev = 2) ∧ ((s.dev.coll 8).ff.valid = true) := by
  decide

theorem test_wit_FlintWindowRows_4 :
    let s : State := (at_ fun d => d.onColl 3 fun x => { x with input := [{ src := 296, kind := 0x41, sev := 2, tile := 3 }] }); let c : Fin 9 := (3); let m : FlintMsg := (({ src := 296, kind := 0x41, sev := 2, tile := 3 } : FlintMsg)); let n : Nat := (8); let dt : Nat := (0); 
    (c.val < 8) ∧ ((s.dev.coll c.val).urgent = []) ∧ ((s.dev.coll c.val).input = [m]) ∧ (1 ≤ n) ∧ (s.dev.flint.shadows = []) ∧ (m.sev = 2) ∧ ((s.dev.coll c.val).ff.valid = false) := by
  decide

theorem test_wit_FlintWindowRows_5 :
    let s : State := (at_ fun d => (d.onColl 8 fun x => { x with input := [{ src := 770, kind := 0x82, sev := 2 }] }).onFlint fun f => { f with shadows := [{ cause := 3, sev := 3, reaction := 5, unit := 0, until_ := 2000000000000000 }] }); let m : FlintMsg := (({ src := 770, kind := 0x82, sev := 2 } : FlintMsg)); let n : Nat := (8); let pk : Nat := (0); let dt : Nat := (0); 
    ((s.dev.coll 8).urgent = []) ∧ ((s.dev.coll 8).input = [m]) ∧ (1 ≤ n) ∧ (((s.dev.elapse dt).judge m).cause.isSome = true) := by
  decide

theorem test_wit_FlintWindowRows_6 :
    let s : State := (at_ fun d => d.onColl 3 fun x => { x with input := [{ src := 326, kind := 0x83, sev := 3, tile := 3 }] }); let c : Fin 9 := (3); let m : FlintMsg := (({ src := 326, kind := 0x83, sev := 3, tile := 3 } : FlintMsg)); let n : Nat := (8); let dt : Nat := (0); 
    (c.val < 8) ∧ ((s.dev.coll c.val).urgent = []) ∧ ((s.dev.coll c.val).input = [m]) ∧ (1 ≤ n) ∧ (s.dev.flint.shadows = []) ∧ (m.sev = 3) ∧ (m.src = tsrc c.val 38) ∧ (m.quiet = false) := by
  decide

theorem test_wit_FlintWindowRows_7 :
    let s : State := (at_ fun d => d.onColl 8 fun x => { x with urgent := [{ src := 831, kind := 0x26, sev := 4 }] }); let m : FlintMsg := (({ src := 831, kind := 0x26, sev := 4 } : FlintMsg)); let n : Nat := (8); let dt : Nat := (0); 
    ((s.dev.coll 8).urgent = [m]) ∧ ((s.dev.coll 8).input = []) ∧ (1 ≤ n) ∧ (s.dev.flint.shadows = []) ∧ (768 ≤ m.src) ∧ (m.quiet = false) ∧ (m.sev = 4) ∧ (s.dev.sealing.active = false) := by
  decide

theorem test_wit_FlintWindowRows_8 :
    let s : State := (at_ fun d => d.onColl 8 fun x => { x with urgent := [{ src := 831, kind := 0x26, sev := 5 }] }); let m : FlintMsg := (({ src := 831, kind := 0x26, sev := 5 } : FlintMsg)); let n : Nat := (8); let dt : Nat := (0); 
    ((s.dev.coll 8).urgent = [m]) ∧ ((s.dev.coll 8).input = []) ∧ (1 ≤ n) ∧ (s.dev.flint.shadows = []) ∧ (768 ≤ m.src) ∧ (m.quiet = false) ∧ (m.sev = 5) := by
  decide

theorem test_wit_FlintServiceRows_2 :
    let s : State := (at_ fun d => d.onColl 2 fun x => { x with lostSince := 7 }); let c : Fin 9 := (2); let dt : Nat := (0); 
    ((s.dev.coll c.val).lostSince ≠ 0) ∧ ((s.dev.coll c.val).input.length < 64) := by
  decide

theorem test_wit_FlintServiceRows_3 :
    let s : State := (at_ fun d => d.onPkg fun p => { p with safe := 1 }); let dt : Nat := (0); 
    (s.dev.pkg.safe = 1) ∧ (s.dev.sealing.active = false) ∧ (s.dev.sealing.hibernating = false) ∧ (s.dev.roleRuns = true) ∧ (s.dev.panel.coreUp = true) ∧ (s.dev.restore.ready = true) ∧ (s.dev.pkg.bedrock = false) := by
  decide

theorem test_wit_FlintServiceRows_4 :
    let s : State := (at_ fun d => d.onPkg fun p => { p with safe := 1, takeStep := 1 }); let dt : Nat := (0); 
    (s.dev.pkg.safe = 1) ∧ (s.dev.sealing.active = false) ∧ (s.dev.sealing.hibernating = false) ∧ (s.dev.roleRuns = false) := by
  decide

theorem test_wit_FlintServiceRows_5 :
    let s : State := (at_ fun d => (d.onFlint fun f => { f with extractDue := true }).onSealing fun x => { x with active := true, stage := 5 }); let dt : Nat := (0); 
    (s.dev.flint.extractDue = true) ∧ ((s.dev.elapse dt).recMay = true) := by
  decide

theorem test_wit_FlintServiceRows_6 :
    let s : State := (at_ fun d => d.onFlint fun f => { f with rate := [{ count := 4, last := 5 }] }); let x : RateSlot := (({ count := 4, last := 5 } : RateSlot)); let dt : Nat := (0); 
    (s.dev.roleRuns = true) ∧ (s.dev.flint.rate = [x]) ∧ (x.count ≠ 0) ∧ (1000000000 ≤ (s.dev.elapse dt).now - x.last) := by
  decide

theorem test_wit_FlintServiceRows_7 :
    let s : State := (at_ id); let dt : Nat := (0); 
    (s.dev.panel.coreUp = true) ∧ (s.dev.flint.aliveStop = false) ∧ ((3 ≤ s.dev.restore.phase ∨ s.dev.pkg.bedrock = true)) := by
  decide

theorem test_wit_FlintServiceRows_8 :
    let s : State := (at_ fun d => d.onFlint fun f => { f with tfPulse := 255, tfAt := [(6, 1000)] }); let t : Fin 8 := (6); let dt : Nat := (30000); 
    (20000 ≤ (s.dev.elapse dt).since (tget s.dev.flint.tfAt 0 t.val)) := by
  decide

theorem test_wit_QuartzRows_1 :
    let s : State := (at_ fun d => d.onQtz fun q => { q with rate := -7, ofsValid := true }); let dt : Nat := (0); 
    ((s.dev.elapse dt).tickDue 3 10000000 = true) := by
  decide

theorem test_wit_QuartzRows_5 :
    let s : State := (at_ id); let width : Nat := (99); let dt : Nat := (5); 
    (width < 100) ∧ ((s.dev.qtz.hasTime = false ∨ s.dev.qtz.isRoot = true)) := by
  decide

theorem test_wit_QuartzRows_6 :
    let s : State := (at_ fun d => d.onQtz fun q => { q with ppsEn := true, ppsState := 2, ofsValid := true, offset := 320, ppsLastValid := some 999999000000000 }); let width : Nat := (100); let p : Nat := (999999000000000); let dt : Nat := (0); 
    (100 ≤ width) ∧ (s.dev.pkg.takeStep = 0) ∧ (s.dev.qtz.ppsEn = true) ∧ (s.dev.qtz.running = true) ∧ (s.dev.qtz.ppsState = 2) ∧ (s.dev.qtz.ofsValid = true) ∧ ((s.dev.qtz.hasTime = false ∨ s.dev.qtz.isRoot = true)) ∧ (s.dev.qtz.refLost = false) ∧ (s.dev.qtz.ppsLastValid = some p) ∧ (999750000 ≤ (s.dev.elapse dt).qtz.count - p) ∧ ((s.dev.elapse dt).qtz.count - p ≤ 1000250000) ∧ (-1000000 ≤ phaseErr (s.dev.elapse dt).qtz.count s.dev.qtz.offset) ∧ (phaseErr (s.dev.elapse dt).qtz.count s.dev.qtz.offset ≤ 1000000) := by
  decide

theorem test_wit_QuartzRows_7 :
    let s : State := (at_ fun d => d.onQtz fun q => { q with ppsEn := true, ppsState := 2, ofsValid := true, offset := 2000000, ppsRejects := 2, ppsLastValid := some 999999000000000 }); let width : Nat := (100); let p : Nat := (999999000000000); let dt : Nat := (0); 
    (100 ≤ width) ∧ (s.dev.pkg.takeStep = 0) ∧ (s.dev.qtz.ppsEn = true) ∧ (s.dev.qtz.running = true) ∧ (s.dev.qtz.ppsState = 2) ∧ (s.dev.qtz.ofsValid = true) ∧ (s.dev.qtz.ppsLastValid = some p) ∧ (999750000 ≤ (s.dev.elapse dt).qtz.count - p) ∧ ((s.dev.elapse dt).qtz.count - p ≤ 1000250000) ∧ ((phaseErr (s.dev.elapse dt).qtz.count s.dev.qtz.offset < -1000000 ∨ 1000000 < phaseErr (s.dev.elapse dt).qtz.count s.dev.qtz.offset)) := by
  decide

theorem test_wit_QuartzRows_8 :
    let s : State := (at_ fun d => d.onQtz fun q => { q with ppsEn := true, ppsState := 1, ppsRun := 2, ofsValid := true, offset := 2000000, ppsLastValid := some 999999000000000 }); let width : Nat := (100); let p : Nat := (999999000000000); let dt : Nat := (0); 
    (100 ≤ width) ∧ (s.dev.pkg.takeStep = 0) ∧ (s.dev.qtz.ppsEn = true) ∧ (s.dev.qtz.running = true) ∧ (s.dev.qtz.ppsState = 1) ∧ (s.dev.qtz.ppsRun = 2) ∧ (s.dev.qtz.ofsValid = true) ∧ ((s.dev.qtz.hasTime = false ∨ s.dev.qtz.isRoot = true)) ∧ (s.dev.qtz.refLost = false) ∧ (s.dev.qtz.ppsLastValid = some p) ∧ (999750000 ≤ (s.dev.elapse dt).qtz.count - p) ∧ ((s.dev.elapse dt).qtz.count - p ≤ 1000250000) ∧ ((phaseErr (s.dev.elapse dt).qtz.count s.dev.qtz.offset < -1000000 ∨ 1000000 < phaseErr (s.dev.elapse dt).qtz.count s.dev.qtz.offset)) := by
  decide

theorem test_wit_QuartzRows_9 :
    let s : State := (at_ fun d => d.onQtz fun q => { q with ppsState := 2, ppsLastValid := some 5, freq := 9 }); let u : Nat := (5); let dt : Nat := (0); 
    (s.dev.pkg.takeStep = 0) ∧ (s.dev.qtz.ppsState = 2) ∧ (s.dev.qtz.ppsLastValid = some u) ∧ (2000000000 ≤ (s.dev.elapse dt).now - u) := by
  decide

theorem test_wit_QuartzRows_10 :
    let s : State := (at_ fun d => (d.onQtz fun q => { q with ppsEn := true, ppsState := 2 }).onPkg fun p => { p with takeStep := 3 }); let width : Nat := (200); let dt : Nat := (10); 
    (s.dev.pkg.takeStep ≠ 0) ∧ (s.dev.qtz.ppsEn = true) ∧ (s.dev.qtz.running = true) := by
  decide

theorem test_wit_QuartzRows_11 :
    let s : State := (at_ fun d => (d.onQtz fun q => { q with ppsState := 2, ppsLastValid := some 5 }).onPkg fun p => { p with takeStep := 2 }); let dt : Nat := (0); 
    (s.dev.pkg.takeStep ≠ 0) := by
  decide

theorem test_wit_QuartzRows_12 :
    let s : State := (at_ fun d => d.onQtz fun q => { q with ppsOutEn := true, ppsOutLast := some 5 }); let dt : Nat := (0); 
    (s.dev.qtz.ppsOutEn = true) ∧ (s.dev.qtz.running = true) ∧ (3 ≤ s.dev.restore.phase) ∧ (s.dev.pkg.bedrock = false) ∧ ((s.dev.elapse dt).onSecond = true) ∧ ((∀ u ∈ s.dev.qtz.ppsOutLast, 500000000 ≤ (s.dev.elapse dt).now - u)) := by
  decide

theorem test_wit_QuartzRows_13 :
    let s : State := (at_ fun d => d.onQtz fun q => { q with ppsOutEn := true, ppsOutLast := some 1000000000000000 }); let u : Nat := (1000000000000000); let dt : Nat := (0); 
    (s.dev.qtz.ppsOutLast = some u) ∧ ((s.dev.elapse dt).now - u < 500000000) := by
  decide

theorem test_wit_QuartzRows_14 :
    let s : State := (at_ fun d => d.onQtz fun q => { q with ppsOut := true, ppsOutLast := some 5 }); let u : Nat := (5); let dt : Nat := (0); 
    (s.dev.qtz.ppsOutLast = some u) ∧ (s.dev.qtz.ppsOut = true) ∧ (10000000 ≤ (s.dev.elapse dt).now - u) := by
  decide

theorem test_wit_QuartzRows_15 :
    let s : State := (at_ id); let dt : Nat := (7); 
    (s.dev.qtz.running = true) := by
  decide

theorem test_wit_QuartzRows_16 :
    let s : State := (at_ fun d => d.onSealing fun x => { x with active := true, stage := 5 }); let dt : Nat := (7); 
    (s.dev.qtz.running = true) ∧ ((s.dev.elapse dt).recMay = true) := by
  decide

theorem test_wit_QuartzRows_18 :
    let s : State := (at_ fun d => d.onQtz fun q => { q with refLost := true, refSince := 5 }); let dt : Nat := (7); 
    (s.dev.qtz.refLost = true) ∧ (1000000000 ≤ (s.dev.elapse dt).since s.dev.qtz.refSince) := by
  decide

theorem test_wit_SnapshotRows_1 :
    let s : State := (at_ fun d => (d.onQtz fun q => { q with snapInEn := true }).onTile 3 fun t => { t with isolated := true }); let width : Nat := (50); let dt : Nat := (0); 
    (s.dev.qtz.snapInEn = true) ∧ (50 ≤ width) ∧ ((∀ u ∈ s.dev.qtz.snapInLast, 1000000 ≤ (s.dev.elapse dt).now - u)) ∧ (s.dev.panel.coreUp = true) ∧ ((tget s.dev.snap.banks {} 1).state = 0) := by
  decide

theorem test_wit_SnapshotRows_2 :
    let s : State := (at_ fun d => (d.onQtz fun q => { q with snapInEn := true }).onSnap fun x => { x with banks := [(1, { state := 1 }), (2, { state := 1 }), (3, { state := 1 })] }); let width : Nat := (50); let dt : Nat := (0); 
    (s.dev.qtz.snapInEn = true) ∧ (50 ≤ width) ∧ ((∀ u ∈ s.dev.qtz.snapInLast, 1000000 ≤ (s.dev.elapse dt).now - u)) ∧ (s.dev.panel.coreUp = true) ∧ ((∀ b ∈ ([1, 2, 3] : List Nat), (tget s.dev.snap.banks {} b).state ≠ 0)) := by
  decide

theorem test_wit_SnapshotRows_3 :
    let s : State := (at_ fun d => d.onSnap fun y => { y with sched := [{ time := 5, owner := 2, id := 9 }] }); let x : SnapSched := (({ time := 5, owner := 2, id := 9 } : SnapSched)); let dt : Nat := (0); 
    (s.dev.snap.sched = [x]) ∧ ((s.dev.elapse dt).schedDue x = true) ∧ ((tget s.dev.snap.banks {} 1).state = 0) := by
  decide

theorem test_wit_SnapshotRows_4 :
    let s : State := (at_ fun d => (d.onSnap fun y => { y with banks := [(0, { state := 1 })] }).onSealing fun x => { x with active := true, stage := 5 }); let dt : Nat := (0); 
    ((tget s.dev.snap.banks {} 0).state = 1) ∧ (mbit (tget s.dev.snap.banks {} 0).flags 0 = false) ∧ ((s.dev.elapse dt).recMay = true) := by
  decide

theorem test_wit_LatticeFrameRows_1 :
    let s : State := (at_ fun d => d.onLink 2 fun k => { k with state := 5, outst := [(254, 0, {}), (255, 0, {}), (0, 0, {})] }); let l : Fin 6 := (2); let fseq : BitVec 8 := (255); let dt : Nat := (0); 
    ((s.dev.link l.val).wait = []) ∧ (((s.dev.link l.val).outst.any fun f : Nat × Nat × LatFrame => f.1 == fseq.toNat) = true) := by
  decide

theorem test_wit_LatticeFrameRows_2 :
    let s : State := (at_ fun d => d.onLink 2 fun k => { k with state := 5, outst := [(254, 0, {})] }); let l : Fin 6 := (2); let fseq : BitVec 8 := (255); let dt : Nat := (0); 
    (((s.dev.link l.val).outst.any fun f : Nat × Nat × LatFrame => f.1 == fseq.toNat) = false) := by
  decide

theorem test_wit_LatticeFrameRows_3 :
    let s : State := (at_ fun d => d.onLink 2 fun k => { k with state := 5, outst := [(254, 0, {}), (255, 3, {}), (0, 0, {})] }); let l : Fin 6 := (2); let fseq : BitVec 8 := (254); let dt : Nat := (0); 
    ((s.dev.link l.val).wait = []) ∧ (((s.dev.link l.val).outst.any fun f : Nat × Nat × LatFrame => f.1 == fseq.toNat) = true) := by
  decide

theorem test_wit_LatticeFrameRows_4 :
    let s : State := (at_ fun d => d.onLink 2 fun k => { k with state := 5, outst := [(254, 0, {})] }); let l : Fin 6 := (2); let fseq : BitVec 8 := (255); let dt : Nat := (0); 
    (((s.dev.link l.val).outst.any fun f : Nat × Nat × LatFrame => f.1 == fseq.toNat) = false) := by
  decide

theorem test_wit_LatticeFrameRows_5 :
    let s : State := (at_ fun d => d.onLink 2 fun k => { k with state := 5, unacked := 16, rxNext := 0 }); let l : Fin 6 := (2); let dt : Nat := (0); 
    (3 ≤ (s.dev.link l.val).state) ∧ ((s.dev.link l.val).state ≠ 6) := by
  decide

theorem test_wit_LatticeFrameRows_6 :
    let s : State := (at_ fun d => d.onLink 2 fun k => { k with state := 5, outst := [(254, 0, {}), (255, 3, { since := 1000000000000000 })] }); let l : Fin 6 := (2); let dt : Nat := (0); 
    ((s.dev.link l.val).retraining = false) := by
  decide

theorem test_wit_LatticeFrameRows_7 :
    let s : State := (at_ fun d => d.onLink 2 fun k => { k with state := 5 }); let l : Fin 6 := (2); let vl : Fin 4 := (3); let n : Nat := (32); let dt : Nat := (0); 
    ((s.dev.link l.val).wait = []) := by
  decide

theorem test_wit_LatticeFrameRows_8 :
    let s : State := (at_ fun d => d.onLink 2 fun k => { k with state := 5, credits := [(3, 0)], wait := [{ vl := 3 }] }); let l : Fin 6 := (2); let vl : Fin 4 := (3); let n : Nat := (32); let f : LatFrame := (({ vl := 3 } : LatFrame)); let dt : Nat := (0); 
    ((s.dev.link l.val).wait = [f]) ∧ (f.vl = vl.val) ∧ ((s.dev.link l.val).outst = []) ∧ ((s.dev.link l.val).retraining = false) ∧ ((s.dev.link l.val).state = 5) ∧ ((s.dev.link l.val).credit vl.val = 0) ∧ (1 ≤ n) := by
  decide

theorem test_wit_LatticeFrameRows_10 :
    let s : State := (at_ fun d => d.onLink 2 fun k => { k with state := 5 }); let l : Fin 6 := (2); let good : Bool := (true); let fseq : BitVec 8 := (1); let dst : BitVec 12 := (5); let src : BitVec 12 := (6); let vl : Fin 4 := (0); let svc : BitVec 5 := (6); let ttl : BitVec 6 := (9); let som : Bool := (true); let eom : Bool := (true); let uid : Nat := (0); let body : List Nat := ([]); let dt : Nat := (0); 
    (s.dev.latUp = true) ∧ (3 ≤ (s.dev.link l.val).state) ∧ ((s.dev.link l.val).state ≠ 6) ∧ ((good = false ∨ fseq.toNat ≠ (s.dev.link l.val).rxNext)) := by
  decide

theorem test_wit_LatticeFrameRows_11 :
    let s : State := (at_ fun d => (d.onLink 2 fun k => { k with state := 5 }).onLat fun x => { x with nodeId := 5 }); let l : Fin 6 := (2); let fseq : BitVec 8 := (0); let dst : BitVec 12 := (5); let src : BitVec 12 := (6); let vl : Fin 4 := (0); let svc : BitVec 5 := (6); let ttl : BitVec 6 := (9); let som : Bool := (true); let eom : Bool := (true); let uid : Nat := (0); let body : List Nat := ([7]); let dt : Nat := (0); 
    (s.dev.latUp = true) ∧ (3 ≤ (s.dev.link l.val).state) ∧ ((s.dev.link l.val).state ≠ 6) ∧ (fseq.toNat = (s.dev.link l.val).rxNext) ∧ (dst.toNat = s.dev.lat.nodeId) ∧ (dst ≠ 0) ∧ (dst ≠ 0xFFF) ∧ (svc.toNat < 10) := by
  decide

theorem test_wit_LatticeFrameRows_12 :
    let s : State := (at_ fun d => (d.onLink 2 fun k => { k with state := 5 }).onLat fun x => { x with nodeId := 5 }); let l : Fin 6 := (2); let fseq : BitVec 8 := (0); let dst : BitVec 12 := (7); let src : BitVec 12 := (6); let vl : Fin 4 := (0); let svc : BitVec 5 := (6); let ttl : BitVec 6 := (1); let som : Bool := (true); let eom : Bool := (true); let uid : Nat := (0); let body : List Nat := ([7]); let dt : Nat := (0); 
    (s.dev.latUp = true) ∧ (3 ≤ (s.dev.link l.val).state) ∧ ((s.dev.link l.val).state ≠ 6) ∧ (fseq.toNat = (s.dev.link l.val).rxNext) ∧ ((10 ≤ svc.toNat ∨ dst.toNat ≠ s.dev.lat.nodeId ∧ dst ≠ 0 ∧ dst ≠ 0xFFF ∧ ttl.toNat ≤ 1)) := by
  decide

theorem test_wit_LatticeFrameRows_13 :
    let s : State := (at_ fun d => ((d.onLink 2 fun k => { k with state := 5 }).onLink 3 fun k => { k with state := 5 }).onLat fun x => { x with nodeId := 5, loaded := true, routes := [(7, { pri := 3, valid := true })] }); let l : Fin 6 := (2); let x : Fin 6 := (3); let fseq : BitVec 8 := (0); let dst : BitVec 12 := (7); let src : BitVec 12 := (6); let vl : Fin 4 := (1); let svc : BitVec 5 := (6); let ttl : BitVec 6 := (9); let eom : Bool := (true); let uid : Nat := (0); let body : List Nat := ([7]); let dt : Nat := (0); 
    (s.dev.latUp = true) ∧ (3 ≤ (s.dev.link l.val).state) ∧ ((s.dev.link l.val).state ≠ 6) ∧ (fseq.toNat = (s.dev.link l.val).rxNext) ∧ (svc.toNat < 10) ∧ (svc.toNat ≠ 3) ∧ (dst.toNat ≠ s.dev.lat.nodeId) ∧ (dst ≠ 0) ∧ (dst ≠ 0xFFF) ∧ (2 ≤ ttl.toNat) ∧ (s.dev.transitRuns = true) ∧ (s.dev.routeLink dst.toNat = some x.val) ∧ (s.dev.linkIdle x.val = true) := by
  decide

theorem test_wit_LatticeDiscoveryRows_1 :
    let s : State := (at_ id); let l : Fin 6 := (4); let dt : Nat := (0); 
    (s.dev.latUp = true) ∧ ((s.dev.link l.val).state = 1) := by
  decide

theorem test_wit_LatticeDiscoveryRows_2 :
    let s : State := (at_ fun d => d.onLink 4 fun k => { k with state := 2 }); let l : Fin 6 := (4); let outcome : Fin 3 := (2); let dt : Nat := (0); 
    ((s.dev.link l.val).state = 2) ∧ ((s.dev.link l.val).retraining = false) := by
  decide

theorem test_wit_LatticeDiscoveryRows_3 :
    let s : State := (at_ fun d => d.onLink 4 fun k => { k with state := 5, flaps := [999999000000000, 999999500000000] }); let l : Fin 6 := (4); let dt : Nat := (0); 
    (((s.dev.link l.val).state = 4 ∨ (s.dev.link l.val).state = 5)) := by
  decide

theorem test_wit_LatticeDiscoveryRows_4 :
    let s : State := (at_ fun d => d.onLink 4 fun k => { k with state := 3 }); let l : Fin 6 := (4); let dt : Nat := (0); 
    (((s.dev.link l.val).state = 2 ∨ (s.dev.link l.val).state = 3)) := by
  decide

theorem test_wit_LatticeDiscoveryRows_5 :
    let s : State := (at_ fun d => d.onLink 4 fun k => { k with state := 5, lastHello := some 5 }); let l : Fin 6 := (4); let u : Nat := (5); let dt : Nat := (0); 
    ((s.dev.link l.val).lastHello = some u) ∧ (3 ≤ (s.dev.link l.val).state) ∧ ((s.dev.link l.val).state ≤ 5) ∧ (30000000 ≤ (s.dev.elapse dt).now - u) := by
  decide

theorem test_wit_LatticeDiscoveryRows_6 :
    let s : State := (at_ fun d => d.onLink 4 fun k => { k with state := 6 }); let l : Fin 6 := (4); let dt : Nat := (0); 
    ((s.dev.link l.val).state = 6) ∧ ((s.dev.link l.val).heldUntil ≤ (s.dev.elapse dt).now) := by
  decide

theorem test_wit_LatticeDiscoveryRows_7 :
    let s : State := (at_ fun d => d.onLink 4 fun k => { k with state := 3 }); let l : Fin 6 := (4); let dt : Nat := (0); 
    (s.dev.latUp = true) ∧ (3 ≤ (s.dev.link l.val).state) ∧ ((s.dev.link l.val).state ≠ 6) := by
  decide

theorem test_wit_LatticeDiscoveryRows_8 :
    let s : State := (at_ fun d => d.onLink 4 fun k => { k with state := 3, clean := 2, lastHello := some 999999990000000, peerUid := 9, peerId := 0, lastHseq := 6 }); let l : Fin 6 := (4); let uid : Nat := (9); let nodeId : BitVec 12 := (0); let plink : Nat := (1); let flags : BitVec 8 := (2); let cls : BitVec 3 := (3); let hops : BitVec 5 := (31); let troot : Nat := (9); let tseq : Nat := (1); let rclass : BitVec 3 := (3); let hseq : Nat := (7); let u : Nat := (999999990000000); let dt : Nat := (0); 
    (uid ≠ s.dev.lat.uid) ∧ (s.dev.dupLinks l.val uid nodeId.toNat plink = []) ∧ (mbit flags 0 = false) ∧ ((s.dev.link l.val).state = 3) ∧ ((s.dev.link l.val).clean = 2) ∧ ((s.dev.link l.val).lastHello = some u) ∧ (uid = (s.dev.link l.val).peerUid) ∧ (nodeId.toNat = (s.dev.link l.val).peerId) ∧ (hseq = (s.dev.link l.val).lastHseq + 1) ∧ ((s.dev.link l.val).replayed = false) ∧ (9000000 ≤ (s.dev.elapse dt).now - u) ∧ ((s.dev.elapse dt).now - u ≤ 11000000) := by
  decide

theorem test_wit_LatticeDiscoveryRows_9 :
    let s : State := (at_ fun d => d.onLink 4 fun k => { k with state := 5, clean := 3, lastHello := some 999999990000000, peerUid := 9, peerId := 0, lastHseq := 6 }); let l : Fin 6 := (4); let uid : Nat := (9); let nodeId : BitVec 12 := (0); let plink : Nat := (1); let flags : BitVec 8 := (2); let cls : BitVec 3 := (3); let hops : BitVec 5 := (31); let troot : Nat := (9); let tseq : Nat := (1); let rclass : BitVec 3 := (3); let hseq : Nat := (8); let u : Nat := (999999990000000); let dt : Nat := (0); 
    (uid ≠ s.dev.lat.uid) ∧ (s.dev.dupLinks l.val uid nodeId.toNat plink = []) ∧ (mbit flags 0 = false) ∧ ((s.dev.link l.val).state = 5) ∧ ((s.dev.link l.val).lastHello = some u) ∧ ((hseq ≠ (s.dev.link l.val).lastHseq + 1 ∨ (s.dev.link l.val).replayed = true ∨ (s.dev.elapse dt).now - u < 9000000)) := by
  decide

theorem test_wit_LatticeDiscoveryRows_10 :
    let s : State := (at_ fun d => d.onLink 4 fun k => { k with state := 3 }); let l : Fin 6 := (4); let nodeId : BitVec 12 := (0); let plink : Nat := (1); let flags : BitVec 8 := (2); let cls : BitVec 3 := (3); let hops : BitVec 5 := (31); let troot : Nat := (9); let tseq : Nat := (1); let rclass : BitVec 3 := (3); let hseq : Nat := (8); let dt : Nat := (0); 
    (3 ≤ (s.dev.link l.val).state) ∧ ((s.dev.link l.val).state ≠ 6) := by
  decide

theorem test_wit_LatticeDiscoveryRows_11 :
    let s : State := (at_ fun d => d.onLink 4 fun k => { k with state := 5, lastHello := some 999999990000000, peerUid := 9 }); let l : Fin 6 := (4); let uid : Nat := (9); let nodeId : BitVec 12 := (0); let plink : Nat := (1); let flags : BitVec 8 := (1); let cls : BitVec 3 := (3); let hops : BitVec 5 := (31); let troot : Nat := (9); let tseq : Nat := (1); let rclass : BitVec 3 := (3); let hseq : Nat := (8); let u : Nat := (999999990000000); let dt : Nat := (0); 
    (uid ≠ s.dev.lat.uid) ∧ (s.dev.dupLinks l.val uid nodeId.toNat plink = []) ∧ (mbit flags 0 = true) ∧ (3 ≤ (s.dev.link l.val).state) ∧ ((s.dev.link l.val).state ≠ 6) ∧ ((s.dev.link l.val).lastHello = some u) := by
  decide

theorem test_wit_LatticeDiscoveryRows_12 :
    let s : State := (at_ fun d => d.onLat fun x => { x with lsas := [{ uid := 9, seq := 4 }] }); let l : Fin 6 := (4); let uid : Nat := (9); let nodeId : BitVec 12 := (7); let flags : BitVec 8 := (0); let seq : BitVec 32 := (5); let nbrs : List (Nat × Nat × Nat × Nat × Nat) := ([(1, 2, 3, 10, 0)]); let dt : Nat := (0); 
    (uid ≠ s.dev.lat.uid) ∧ ((∀ a ∈ s.dev.lat.lsas, a.uid = uid → a.seq < seq.toNat)) := by
  decide

theorem test_wit_LatticeDiscoveryRows_13 :
    let s : State := (at_ id); let l : Fin 6 := (4); let crcOk : Bool := (false); let uid : Nat := (9); let nodeId : BitVec 12 := (7); let flags : BitVec 8 := (0); let seq : BitVec 32 := (5); let nbrs : List (Nat × Nat × Nat × Nat × Nat) := ([(1, 2, 3, 10, 0)]); let dt : Nat := (0); 
    ((crcOk = false ∨ ∃ a ∈ s.dev.lat.lsas.find? (fun a : Lsa => a.uid == uid), seq.toNat < a.seq)) := by
  decide

theorem test_wit_LatticeDiscoveryRows_14 :
    let s : State := (at_ id); let dt : Nat := (0); 
    (s.dev.latUp = true) := by
  decide

theorem test_wit_LatticeDiscoveryRows_16 :
    let s : State := (at_ fun d => (d.onLink 2 fun k => { k with state := 4, peerUid := 9, cost := 10 }).onLat fun x => { x with routeDue := true, nodeId := 5, lsas := [{ uid := 9, nodeId := 7, nbrs := [(1, 5, 0, 10, 0)] }, { uid := 1, nodeId := 5, nbrs := [(9, 7, 2, 10, 0)] }] }); let ms : Nat := (3); let dt : Nat := (0); 
    (s.dev.lat.routeDue = true) ∧ (s.dev.roleRuns = true) := by
  decide

theorem test_wit_LatticeDiscoveryRows_17 :
    let s : State := (at_ fun d => d.onLink 2 fun k => { k with state := 5, peerId := 77 }); let dt : Nat := (0); 
    ((s.dev.elapse dt).tickDue 8 100000000 = true) := by
  decide

theorem test_wit_LatticeIdAndTimeRows_1 :
    let s : State := (at_ fun d => (d.onLink 2 fun k => { k with state := 4 }).onLat fun x => { x with nodeId := 5 }); let l : Fin 6 := (2); let uid : Nat := (9); let pref : BitVec 12 := (7); let dt : Nat := (0); 
    (s.dev.aroot = s.dev.lat.uid) ∧ (s.dev.lat.nodeId ≠ 0) ∧ (s.dev.roleRuns = true) ∧ (s.dev.linkIdle l.val = true) ∧ (pref ≠ 0) ∧ (pref ≠ 0xFFF) ∧ (pref.toNat ≠ s.dev.lat.nodeId) ∧ ((∀ a ∈ s.dev.lat.lsas, a.uid ≠ uid → a.nodeId ≠ pref.toNat)) := by
  decide

theorem test_wit_LatticeIdAndTimeRows_2 :
    let s : State := (at_ id); let l : Fin 6 := (2); let id : BitVec 12 := (7); let dt : Nat := (0); 
    (s.dev.lat.nodeId = 0) := by
  decide

theorem test_wit_LatticeIdAndTimeRows_3 :
    let s : State := (at_ id); let l : Fin 6 := (2); let id : BitVec 12 := (0); let dt : Nat := (0); 
    (s.dev.lat.nodeId = 0) := by
  decide

theorem test_wit_LatticeIdAndTimeRows_4 :
    let s : State := (at_ fun d => d.onQtz fun q => { q with hasTime := true, rootUid := 9, rival := some (1, 5) }); let t0 : Nat := (5); let dt : Nat := (0); 
    (s.dev.qtz.rival = some (s.dev.lat.uid, t0)) ∧ (10000000000 ≤ (s.dev.elapse dt).now - t0) := by
  decide

theorem test_wit_LatticeIdAndTimeRows_5 :
    let s : State := (at_ fun d => d.onQtz fun q => { q with hasTime := true, rootUid := 9 }); let dt : Nat := (0); 
    (s.dev.qtz.hasTime = true) ∧ (s.dev.qtz.isRoot = false) ∧ (30000000 ≤ (s.dev.elapse dt).now - s.dev.qtz.rootSeen) ∧ (s.dev.linksIn (fun x : Nat => x == 5) = []) := by
  decide

theorem test_wit_LatticeIdAndTimeRows_6 :
    let s : State := (at_ fun d => (d.onQtz fun q => { q with hasTime := true, rootUid := 9 }).onLink 3 fun k => { k with state := 5, peerRoot := 9, peerHops := 0 }); let l : Nat := (3); let dt : Nat := (0); 
    (s.dev.qtz.hasTime = true) ∧ (s.dev.qtz.isRoot = false) ∧ (s.dev.upstream = some l) := by
  decide

theorem test_wit_LatticeIdAndTimeRows_7 :
    let s : State := (at_ fun d => d.onLink 3 fun k => { k with state := 5 }); let l : Fin 6 := (3); let t1 : Nat := (9); let dt : Nat := (0); 
    (s.dev.linkIdle l.val = true) := by
  decide

theorem test_wit_LatticeIdAndTimeRows_8 :
    let s : State := (at_ fun d => (d.onQtz fun q => { q with hasTime := true, rootUid := 9, ofsValid := true }).onLink 3 fun k => { k with state := 5, exch := some 5 }); let l : Fin 6 := (3); let t1 : Nat := (5); let t2 : Nat := (9); let t3 : Nat := (10); let unc : Nat := (4); let off : Int := (-499999999999993); let dt : Nat := (0); 
    ((s.dev.link l.val).exch = some t1) ∧ ((s.dev.link l.val).delays = []) ∧ (s.dev.qtz.hasTime = true) ∧ (s.dev.qtz.isRoot = false) ∧ (s.dev.qtz.ofsValid = true) ∧ (s.dev.pkg.takeStep = 0) ∧ (off = ((((t2 : Int) - t1) - ((s.dev.elapse dt).lTime - t3)) / 2 + (s.dev.link l.val).asym)) := by
  decide

theorem test_wit_LatticeServiceRows_1 :
    let s : State := (at_ fun d => (d.onQtz fun q => { q with hasTime := true }).onLat fun x => { x with grants := [{ context := 5, uid := 9, svc := 4 }] }); let l : Fin 6 := (3); let uid : Nat := (9); let reqId : BitVec 32 := (8); let tc : Nat := (1000000050000000); let c : BitVec 14 := (5); let dt : Nat := (0); 
    (s.dev.latGate = some 0) ∧ (s.dev.qtz.hasTime = true) ∧ ((s.dev.ctx c.toNat).state = 1) ∧ (s.dev.granted c.toNat uid 2 = true) ∧ (50000000 ≤ (tc : Int) - (s.dev.elapse dt).lTime) := by
  decide

theorem test_wit_LatticeServiceRows_2 :
    let s : State := (at_ id); let l : Fin 6 := (3); let uid : Nat := (9); let reqId : BitVec 32 := (8); let tc : Nat := (1000000050000000); let c : BitVec 14 := (5); let dt : Nat := (0); 
    (s.dev.latGate = some 0) ∧ (s.dev.granted c.toNat uid 2 = false) := by
  decide

theorem test_wit_LatticeServiceRows_3 :
    let s : State := (at_ fun d => d.onLat fun x => { x with ckpts := [{ reqId := 8, coord := false, uid := 9, context := 5, tc := 5 }] }); let k : Ckpt := (({ reqId := 8, coord := false, uid := 9, context := 5, tc := 5 } : Ckpt)); let dt : Nat := (0); 
    (s.dev.lat.ckpts = [k]) ∧ (k.coord = false) ∧ ((k.tc : Int) ≤ (s.dev.elapse dt).lTime) ∧ (((s.dev.ring k.context latRing).entries.any fun x : RingEntry => x.arg0 == ckptTag k.reqId k.uid) = false) ∧ ((s.dev.ctx k.context).state = 1) := by
  decide

theorem test_wit_LatticeServiceRows_4 :
    let s : State := (at_ fun d => d.onLat fun x => { x with ckpts := [{ reqId := 8, parts := [{ uid := 9, context := 5 }], by_ := 2 }] }); let l : Fin 6 := (3); let uid : Nat := (9); let reqId : BitVec 32 := (8); let c : BitVec 14 := (5); let status : BitVec 16 := (0); let ts : Nat := (77); let k : Ckpt := (({ reqId := 8, parts := [{ uid := 9, context := 5 }], by_ := 2 } : Ckpt)); let dt : Nat := (0); 
    (s.dev.lat.ckpts = [k]) ∧ (k.coord = true) ∧ (k.complete = false) ∧ (k.reqId = reqId.toNat) ∧ (k.parts = [{ uid := uid, context := c.toNat }]) ∧ ((s.dev.bgOf k.by_).arg ≠ k.reqId) := by
  decide

theorem test_wit_LatticeServiceRows_5 :
    let s : State := (at_ fun d => d.onLat fun x => { x with ckpts := [{ reqId := 8, parts := [{ uid := 9, context := 5 }], by_ := 2 }] }); let k : Ckpt := (({ reqId := 8, parts := [{ uid := 9, context := 5 }], by_ := 2 } : Ckpt)); let dt : Nat := (0); 
    (s.dev.lat.ckpts = [k]) ∧ (k.coord = true) ∧ (k.complete = false) ∧ ((k.tc : Int) + 10000000000 ≤ (s.dev.elapse dt).lTime) ∧ ((s.dev.bgOf k.by_).arg ≠ k.reqId) := by
  decide

theorem test_wit_LatticeServiceRows_6 :
    let s : State := (at_ fun d => d.onLat fun y => { y with streams := [{ session := 4, local_ := 5, uid := 9, state := 1, setup := false, grans := 2, bits := [(262147, 7)] }] }); let x : Stream := (({ session := 4, local_ := 5, uid := 9, state := 1, setup := false, grans := 2, bits := [(262147, 7)] } : Stream)); let p : Nat := (262147); let w : Nat := (7); let k : Nat := (1); let o : Nat := (3); let dt : Nat := (0); 
    (s.dev.lat.streams = [x]) ∧ (x.outgoing = true) ∧ (x.setup = false) ∧ (x.state ≤ 1) ∧ (x.bits = [(p, w)]) ∧ (x.flying = []) ∧ (s.dev.sealing.frozen = false) ∧ (s.dev.pkg.safe = 0) ∧ ((s.dev.ctx x.local_).state = 1) ∧ (s.dev.pagePlace x.local_ p = some (k, o)) ∧ (k < x.grans) ∧ (s.dev.dram.repairs.contains p = false) := by
  decide

theorem test_wit_LatticeServiceRows_7 :
    let s : State := (at_ fun d => d.onLat fun y => { y with streams := [{ session := 4, local_ := 5, uid := 9, state := 1, setup := false, bits := [(3, 7)], flying := [(3, 6, false)] }] }); let l : Fin 6 := (2); let x : Stream := (({ session := 4, local_ := 5, uid := 9, state := 1, setup := false, bits := [(3, 7)], flying := [(3, 6, false)] } : Stream)); let p : Nat := (3); let w : Nat := (7); let mseq : BitVec 32 := (6); let again : Bool := (false); let status : Nat := (0); let grans : Nat := (0); let dt : Nat := (0); 
    (s.dev.lat.streams = [x]) ∧ (x.outgoing = true) ∧ (x.state = 1) ∧ (x.migration = false) ∧ (x.bits = [(p, w)]) ∧ (x.flying = [(p, mseq.toNat, again)]) ∧ (x.marks = []) ∧ (s.dev.sealing.frozen = false) ∧ (s.dev.pkg.safe = 0) := by
  decide

theorem test_wit_LatticeServiceRows_8 :
    let s : State := (at_ fun d => d.onLat fun y => { y with streams := [{ session := 4, local_ := 5, uid := 9 }] }); let x : Stream := (({ session := 4, local_ := 5, uid := 9 } : Stream)); let dt : Nat := (0); 
    (s.dev.lat.streams = [x]) ∧ (x.outgoing = true) ∧ (x.setup = true) ∧ (x.migration = false) ∧ (5000000 ≤ (s.dev.elapse dt).now - x.lastAns) ∧ (s.dev.sealing.frozen = false) ∧ (s.dev.pkg.safe = 0) := by
  decide

theorem test_wit_LatticeServiceRows_9 :
    let s : State := (at_ fun d => d.onLat fun y => { y with streams := [{ session := 4, local_ := 5, uid := 9, state := 1, setup := false, flying := [(3, 6, false)] }] }); let x : Stream := (({ session := 4, local_ := 5, uid := 9, state := 1, setup := false, flying := [(3, 6, false)] } : Stream)); let dt : Nat := (0); 
    (s.dev.lat.streams = [x]) ∧ (x.outgoing = true) ∧ (x.setup = false) ∧ (x.peerOpen = true) ∧ (10000000000 ≤ (s.dev.elapse dt).now - x.lastAns) ∧ (x.flying ≠ []) ∧ (x.state ≤ 1 ∨ x.migration = true ∧ 0x10 ≤ x.state ∧ x.state ≤ 0x12) := by
  decide

theorem test_wit_LatticeServiceRows_10 :
    let s : State := (at_ fun d => d.onLat fun y => { y with streams := [{ session := 4, migration := true, state := 0x12, finalSent := true }] }); let l : Fin 6 := (2); let x : Stream := (({ session := 4, migration := true, state := 0x12, finalSent := true } : Stream)); let dt : Nat := (0); 
    (s.dev.lat.streams = [x]) ∧ (x.outgoing = true) ∧ (x.migration = true) ∧ (x.state = 0x12) ∧ (x.finalSent = true) := by
  decide

theorem test_wit_LatticeServiceRows_11 :
    let s : State := (at_ fun d => (d.onCtx 5 fun c => { c with state := 3 }).onLat fun x => { x with grants := [{ context := 5, uid := 9, svc := 1 }] }); let l : Fin 6 := (2); let uid : Nat := (9); let session : Nat := (4); let mseq : BitVec 32 := (0); let k : Nat := (8); let o : Nat := (5); let grans : Nat := (2); let data : List Byte := ([]); let n : Nat := (1); let dt : Nat := (0); 
    (s.dev.latGate = some 0) ∧ (s.dev.inStream uid session = none) ∧ (s.dev.setupStatus uid o grans false = 0) := by
  decide

theorem test_wit_LatticeServiceRows_12 :
    let s : State := (at_ fun d => d.onLat fun x => { x with streams := [{ session := 4, outgoing := false, uid := 9, local_ := 5, setup := false }] }); let l : Fin 6 := (2); let uid : Nat := (9); let session : Nat := (4); let mseq : BitVec 32 := (0); let k : Nat := (1); let o : Nat := (5); let grans : Nat := (2); let data : List Byte := ([]); let n : Nat := (65); let g : Nat := (1); let x : Stream := (({ session := 4, outgoing := false, uid := 9, local_ := 5, setup := false } : Stream)); let dt : Nat := (0); 
    (s.dev.latGate = some 0) ∧ (s.dev.inStream uid session = some x) ∧ (x.uid = uid) ∧ (x.session = session) ∧ (x.outgoing = false) ∧ (x.state ≠ 0x14) ∧ (x.mseqRx = mseq.toNat) ∧ ((s.dev.ctxGrans x.local_)[k]? = some g) := by
  decide

theorem test_wit_LatticeServiceRows_13 :
    let s : State := (at_ fun d => d.onLat fun x => { x with streams := [{ session := 4, outgoing := false, uid := 9, local_ := 5, setup := false }] }); let l : Fin 6 := (2); let uid : Nat := (9); let session : Nat := (4); let mseq : BitVec 32 := (1); let k : Nat := (1); let o : Nat := (5); let grans : Nat := (2); let data : List Byte := ([]); let n : Nat := (65); let x : Stream := (({ session := 4, outgoing := false, uid := 9, local_ := 5, setup := false } : Stream)); let dt : Nat := (0); 
    (s.dev.latGate = some 0) ∧ (s.dev.inStream uid session = some x) ∧ (x.state ≠ 0x14) ∧ (x.mseqRx < mseq.toNat) := by
  decide

theorem test_wit_LatticeServiceRows_14 :
    let s : State := (at_ fun d => d.onLat fun x => { x with streams := [{ session := 4, outgoing := false, uid := 9, local_ := 5, setup := false }, {}] }); let l : Fin 6 := (2); let uid : Nat := (9); let session : Nat := (4); let mseq : BitVec 32 := (1); let k : Nat := (1); let o : Nat := (5); let grans : Nat := (2); let data : List Byte := ([]); let n : Nat := (65); let dt : Nat := (0); 
    (s.dev.latGate = some 0) ∧ ((s.dev.inStream uid session).isSome = true) := by
  decide

theorem test_wit_LatticeServiceRows_15 :
    let s : State := (at_ fun d => d.onQtz fun q => { q with hasTime := true }); let l : Fin 6 := (2); let node : BitVec 12 := (7); let reqId : BitVec 32 := (9); let time : Nat := (1000000001000000); let dt : Nat := (0); 
    (s.dev.latGate = some 0) ∧ ((s.dev.elapse dt).trigCode time = 0) := by
  decide

theorem test_wit_LatticeServiceRows_16 :
    let s : State := (at_ fun d => d.onSnap fun x => { x with reqs := [{ reqId := 9, by_ := 2 }] }); let l : Fin 6 := (2); let node : BitVec 12 := (7); let reqId : BitVec 32 := (9); let code : BitVec 8 := (2); let r : SnapReq := (({ reqId := 9, by_ := 2 } : SnapReq)); let dt : Nat := (0); 
    (s.dev.snap.reqs = [r]) ∧ (r.reqId = reqId.toNat) ∧ ((r.answers.any fun a : Nat × Nat => a.1 == node.toNat) = false) ∧ (r.nodes = []) := by
  decide

theorem test_wit_LatticeServiceRows_17 :
    let s : State := (at_ fun d => d.onSnap fun x => { x with reqs := [{ reqId := 9, by_ := 2, nodes := [7] }] }); let l : Fin 6 := (2); let node : BitVec 12 := (7); let reqId : BitVec 32 := (9); let code : BitVec 8 := (2); let r : SnapReq := (({ reqId := 9, by_ := 2, nodes := [7] } : SnapReq)); let dt : Nat := (0); 
    (s.dev.snap.reqs = [r]) ∧ (r.reqId = reqId.toNat) ∧ (r.answers = []) ∧ (r.nodes = [node.toNat]) := by
  decide

theorem test_wit_LatticeServiceRows_18 :
    let s : State := (at_ fun d => d.onSnap fun x => { x with reqs := [{ reqId := 9, by_ := 2, nodes := [7] }] }); let r : SnapReq := (({ reqId := 9, by_ := 2, nodes := [7] } : SnapReq)); let dt : Nat := (0); 
    (s.dev.snap.reqs = [r]) ∧ (1000000000 ≤ (s.dev.elapse dt).now - r.sent) := by
  decide

theorem test_wit_JcsReadRowsOne_1 :
    let s : State := (at_ id); let dt : Nat := (0); let d : Dev := (s.dev.elapse dt); let b : Fin 4 := (2); let uid : Nat := (0); let p : List Byte := (fields [(4, 8), (4, 16)]); 
    (d = s.dev.elapse dt) ∧ (d.admits 0xC400 (caller b uid) p = true) ∧ (fieldAt p 4 4 ≤ 16384) ∧ (fieldAt p 0 4 < capList.length) := by
  decide

theorem test_wit_JcsReadRowsOne_2 :
    let s : State := (at_ id); let dt : Nat := (0); let d : Dev := (s.dev.elapse dt); let b : Fin 4 := (2); let uid : Nat := (0); let p : List Byte := ([]); 
    (d = s.dev.elapse dt) ∧ (d.admits 0xC401 (caller b uid) p = true) := by
  decide

theorem test_wit_JcsReadRowsOne_3 :
    let s : State := (at_ id); let dt : Nat := (0); let d : Dev := (s.dev.elapse dt); let b : Fin 4 := (2); let uid : Nat := (0); let p : List Byte := (fields [(4, 0), (4, 16)]); 
    (d = s.dev.elapse dt) ∧ (d.admits 0xC402 (caller b uid) p = true) ∧ (fieldAt p 0 4 % 8 = 0) ∧ (fieldAt p 4 4 % 8 = 0) ∧ (fieldAt p 4 4 ≤ 4096) ∧ (fieldAt p 0 4 + fieldAt p 4 4 ≤ 0x100000) ∧ (fieldAt p 0 4 ≤ 0xFFFF8) := by
  decide

theorem test_wit_JcsReadRowsOne_4 :
    let s : State := (at_ id); let dt : Nat := (0); let d : Dev := (s.dev.elapse dt); let b : Fin 4 := (2); let uid : Nat := (0); let p : List Byte := ([]); 
    (d = s.dev.elapse dt) ∧ (d.admits 0xC403 (caller b uid) p = true) := by
  decide

theorem test_wit_JcsReadRowsOne_5 :
    let s : State := (at_ id); let dt : Nat := (0); let d : Dev := (s.dev.elapse dt); let b : Fin 4 := (0); let uid : Nat := (0); let p : List Byte := (fields [(2, 5)]); 
    (d = s.dev.elapse dt) ∧ (d.admits 0xC418 (caller b uid) p = true) := by
  decide

theorem test_wit_JcsReadRowsOne_6 :
    let s : State := (at_ fun d => d.onCtx 5 fun c => { c with records := [{ context := 5, start := 3 }] }); let dt : Nat := (0); let d : Dev := (s.dev.elapse dt); let b : Fin 4 := (2); let uid : Nat := (0); let p : List Byte := (fields [(2, 5), (6, 0), (8, 0), (8, 9), (2, 1)]); let rs : List MeterRec := ([{ context := 5, start := 3 }]); 
    (d = s.dev.elapse dt) ∧ (d.admits 0xC41A (caller b uid) p = true) ∧ (1 ≤ fieldAt p 24 2) ∧ (fieldAt p 24 2 ≤ 255) ∧ (fieldAt p 8 8 ≤ fieldAt p 16 8) ∧ (rs = ((d.ctx (fieldAt p 0 2)).records.reverse.filter fun r : MeterRec => decide (fieldAt p 8 8 ≤ r.start) && decide (r.start ≤ fieldAt p 16 8))) := by
  decide

theorem test_wit_JcsReadRowsOne_7 :
    let s : State := (at_ id); let dt : Nat := (0); let d : Dev := (s.dev.elapse dt); let b : Fin 4 := (2); let uid : Nat := (0); let p : List Byte := (fields [(2, 4), (2, 2)]); 
    (d = s.dev.elapse dt) ∧ (d.admits 0xC41B (caller b uid) p = true) ∧ (fieldAt p 0 2 < 0x4000) ∧ (1 ≤ fieldAt p 2 2) ∧ (fieldAt p 2 2 ≤ 4096) := by
  decide

theorem test_wit_JcsReadRowsOne_8 :
    let s : State := (at_ id); let dt : Nat := (0); let d : Dev := (s.dev.elapse dt); let b : Fin 4 := (0); let uid : Nat := (0); let p : List Byte := (fields [(2, 5), (1, 3)]); 
    (d = s.dev.elapse dt) ∧ (d.admits 0xC423 (caller b uid) p = true) ∧ (fieldAt p 2 1 < 64) := by
  decide

theorem test_wit_JcsReadRowsOne_9 :
    let s : State := (at_ id); let dt : Nat := (0); let d : Dev := (s.dev.elapse dt); let b : Fin 4 := (2); let uid : Nat := (0); let p : List Byte := ([]); 
    (d = s.dev.elapse dt) ∧ (d.admits 0xC430 (caller b uid) p = true) := by
  decide

theorem test_wit_JcsReadRowsOne_10 :
    let s : State := (at_ id); let dt : Nat := (0); let d : Dev := (s.dev.elapse dt); let b : Fin 4 := (3); let uid : Nat := (0); let p : List Byte := ([]); 
    (d = s.dev.elapse dt) ∧ (d.admits 0xC432 (caller b uid) p = true) := by
  decide

theorem test_wit_JcsReadRowsOne_11 :
    let s : State := (at_ id); let dt : Nat := (0); let d : Dev := (s.dev.elapse dt); let b : Fin 4 := (2); let uid : Nat := (0); let p : List Byte := (fields [(2, 0), (2, 4)]); 
    (d = s.dev.elapse dt) ∧ (d.admits 0xC433 (caller b uid) p = true) ∧ (fieldAt p 2 2 ≤ 256) := by
  decide

theorem test_wit_JcsReadRowsOne_12 :
    let s : State := (at_ id); let dt : Nat := (0); let d : Dev := (s.dev.elapse dt); let b : Fin 4 := (2); let uid : Nat := (0); let p : List Byte := ([]); 
    (d = s.dev.elapse dt) ∧ (d.admits 0xC440 (caller b uid) p = true) := by
  decide

theorem test_wit_JcsReadRowsOne_13 :
    let s : State := (at_ id); let dt : Nat := (0); let d : Dev := (s.dev.elapse dt); let b : Fin 4 := (2); let uid : Nat := (0); let p : List Byte := ([]); 
    (d = s.dev.elapse dt) ∧ (d.admits 0xC449 (caller b uid) p = true) := by
  decide

theorem test_wit_JcsReadRowsOne_14 :
    let s : State := (at_ id); let dt : Nat := (0); let d : Dev := (s.dev.elapse dt); let b : Fin 4 := (2); let uid : Nat := (0); let p : List Byte := ([]); 
    (d = s.dev.elapse dt) ∧ (d.admits 0xC450 (caller b uid) p = true) := by
  decide

theorem test_wit_JcsReadRowsOne_15 :
    let s : State := (at_ id); let dt : Nat := (0); let d : Dev := (s.dev.elapse dt); let b : Fin 4 := (2); let uid : Nat := (0); let p : List Byte := (fields [(1, 4)]); 
    (d = s.dev.elapse dt) ∧ (d.admits 0xC453 (caller b uid) p = true) ∧ (fieldAt p 0 1 ≤ 64) := by
  decide

theorem test_wit_JcsReadRowsTwo_1 :
    let s : State := (at_ fun d => d.onColl 8 fun c => { c with log := [{ lseq := 4 }] }); let dt : Nat := (0); let d : Dev := (s.dev.elapse dt); let b : Fin 4 := (2); let uid : Nat := (0); let p : List Byte := (fields [(1, 8), (3, 0), (4, 0), (2, 5)]); let log : List LogEntry := ([{ lseq := 4 }]); let es : List LogEntry := ([{ lseq := 4 }]); 
    (d = s.dev.elapse dt) ∧ (d.admits 0xC460 (caller b uid) p = true) ∧ (fieldAt p 0 1 ≤ 9) ∧ (fieldAt p 8 2 ≤ 511) ∧ (log = (if fieldAt p 0 1 = 9 then d.flint.prevLog else (d.coll (fieldAt p 0 1)).log).reverse) ∧ (es = (log.filter fun x : LogEntry => decide (fieldAt p 4 4 ≤ x.lseq)).take (fieldAt p 8 2)) := by
  decide

theorem test_wit_JcsReadRowsTwo_2 :
    let s : State := (at_ id); let dt : Nat := (0); let d : Dev := (s.dev.elapse dt); let b : Fin 4 := (2); let uid : Nat := (0); let p : List Byte := ([17]); 
    (d = s.dev.elapse dt) ∧ (d.admits 0xC461 (caller b uid) p = true) ∧ (fieldAt p 0 1 ≤ 17) := by
  decide

theorem test_wit_JcsReadRowsTwo_3 :
    let s : State := (at_ id); let dt : Nat := (0); let d : Dev := (s.dev.elapse dt); let b : Fin 4 := (2); let uid : Nat := (0); let p : List Byte := (fields [(2, 1020), (2, 4)]); 
    (d = s.dev.elapse dt) ∧ (d.admits 0xC465 (caller b uid) p = true) ∧ (fieldAt p 2 2 ≤ 1024) ∧ (fieldAt p 0 2 + fieldAt p 2 2 ≤ 1024) := by
  decide

theorem test_wit_JcsReadRowsTwo_4 :
    let s : State := (at_ fun d => d.onSnap fun x => { x with banks := [(1, { state := 1 })] }); let dt : Nat := (0); let d : Dev := (s.dev.elapse dt); let b : Fin 4 := (2); let uid : Nat := (0); let p : List Byte := (fields [(2, 1), (2, 0), (2, 5)]); let k : SnapBank := ({ state := 1 }); 
    (d = s.dev.elapse dt) ∧ (d.admits 0xC473 (caller b uid) p = true) ∧ (fieldAt p 0 1 ≤ 4) ∧ (k = (if fieldAt p 0 1 = 4 then d.snap.prevBoot.getD {} else tget d.snap.banks {} (fieldAt p 0 1))) ∧ (k.state ≠ 0) := by
  decide

theorem test_wit_JcsReadRowsTwo_5 :
    let s : State := (at_ id); let dt : Nat := (0); let d : Dev := (s.dev.elapse dt); let b : Fin 4 := (2); let uid : Nat := (0); let p : List Byte := ([]); 
    (d = s.dev.elapse dt) ∧ (d.admits 0xC480 (caller b uid) p = true) := by
  decide

theorem test_wit_JcsReadRowsTwo_6 :
    let s : State := (at_ id); let dt : Nat := (0); let d : Dev := (s.dev.elapse dt); let b : Fin 4 := (2); let uid : Nat := (0); let p : List Byte := (fields [(2, 4094), (2, 4)]); 
    (d = s.dev.elapse dt) ∧ (d.admits 0xC490 (caller b uid) p = true) ∧ (fieldAt p 0 2 < 4096) ∧ (fieldAt p 2 2 ≤ 4080) := by
  decide

theorem test_wit_JcsReadRowsTwo_7 :
    let s : State := (at_ fun d => d.onLat fun x => { x with streams := [{ session := 3 }] }); let dt : Nat := (0); let d : Dev := (s.dev.elapse dt); let b : Fin 4 := (2); let uid : Nat := (0); let p : List Byte := (fields [(2, 0), (2, 0), (2, 9)]); let ss : List Stream := ([{ session := 3 }]); 
    (d = s.dev.elapse dt) ∧ (d.admits 0xC495 (caller b uid) p = true) ∧ (fieldAt p 0 1 ≤ 2) ∧ (fieldAt p 4 2 ≤ 341) ∧ (ss = d.lat.streams.filter (fun x : Stream => if fieldAt p 0 1 = 2 then x.migration else !x.migration && x.outgoing == (fieldAt p 0 1 == 0))) := by
  decide

theorem test_wit_JcsReadRowsTwo_8 :
    let s : State := (at_ fun d => d.onLat fun x => { x with ckpts := [{ reqId := 9, by_ := 2, complete := true }] }); let dt : Nat := (0); let d : Dev := (s.dev.elapse dt); let b : Fin 4 := (2); let uid : Nat := (0); let p : List Byte := (fields [(4, 9)]); let k : Ckpt := ({ reqId := 9, by_ := 2, complete := true }); 
    (d = s.dev.elapse dt) ∧ (d.admits 0xC499 (caller b uid) p = true) ∧ (d.ckptOf (caller b uid) (fieldAt p 0 4) = some k) := by
  decide

theorem test_wit_JcsReadRowsTwo_9 :
    let s : State := (at_ id); let dt : Nat := (0); let d : Dev := (s.dev.elapse dt); let b : Fin 4 := (2); let uid : Nat := (0); let p : List Byte := ([7]); 
    (d = s.dev.elapse dt) ∧ (d.admits 0xC4A0 (caller b uid) p = true) ∧ (fieldAt p 0 1 ≤ 7) := by
  decide

theorem test_wit_JcsReadRowsTwo_10 :
    let s : State := (at_ id); let dt : Nat := (0); let d : Dev := (s.dev.elapse dt); let b : Fin 4 := (2); let uid : Nat := (0); let p : List Byte := ([7, 15]); 
    (d = s.dev.elapse dt) ∧ (d.admits 0xC4A1 (caller b uid) p = true) ∧ (fieldAt p 0 1 ≤ 7) ∧ (fieldAt p 1 1 ≤ 15) := by
  decide

theorem test_wit_JcsReadRowsTwo_11 :
    let s : State := (at_ id); let dt : Nat := (0); let d : Dev := (s.dev.elapse dt); let b : Fin 4 := (2); let uid : Nat := (0); let p : List Byte := ([]); 
    (d = s.dev.elapse dt) ∧ (d.admits 0xC4B0 (caller b uid) p = true) := by
  decide

theorem test_wit_JcsReadRowsTwo_12 :
    let s : State := (at_ fun d => d.onStrata fun x => { x with strata := [{ context := 5, time := 7 }] }); let dt : Nat := (0); let d : Dev := (s.dev.elapse dt); let b : Fin 4 := (2); let uid : Nat := (0); let p : List Byte := (fields [(2, 5), (2, 0), (2, 2)]); let all : List Stratum := ([{ context := 5, time := 7 }]); let ss : List Stratum := ([{ context := 5, time := 7 }]); 
    (d = s.dev.elapse dt) ∧ (d.admits 0xC4B2 (caller b uid) p = true) ∧ (fieldAt p 4 2 ≤ 511) ∧ (all = sortLe (fun x y : Stratum => decide (y.time ≤ x.time)) (d.strataOf (fieldAt p 0 2))) ∧ (ss = (all.drop (fieldAt p 2 2)).take (fieldAt p 4 2)) := by
  decide

theorem test_wit_JcsReadRowsTwo_13 :
    let s : State := (at_ fun d => d.onStrata fun x => { x with strata := [{ context := 5, time := 8, damage := [4] }] }); let dt : Nat := (0); let d : Dev := (s.dev.elapse dt); let b : Fin 4 := (2); let uid : Nat := (0); let p : List Byte := (fields [(8, 5), (8, 8), (4, 0), (2, 2)]); let x : Stratum := ({ context := 5, time := 8, damage := [4] }); let ps : List Nat := ([4]); 
    (d = s.dev.elapse dt) ∧ (d.admits 0xC4B4 (caller b uid) p = true) ∧ (fieldAt p 20 2 ≤ 2046) ∧ (d.stratumAt (fieldAt p 0 2) (fieldAt p 8 8) = some x) ∧ (ps = (x.damage.drop (fieldAt p 16 4)).take (fieldAt p 20 2)) := by
  decide

theorem test_wit_JcsReadRowsTwo_14 :
    let s : State := (at_ id); let dt : Nat := (0); let d : Dev := (s.dev.elapse dt); let b : Fin 4 := (2); let uid : Nat := (0); let p : List Byte := (fields [(2, 0x4005)]); let l : Lease_ := ({}); 
    (d = s.dev.elapse dt) ∧ (d.admits 0xC4C2 (caller b uid) p = true) ∧ (fieldAt p 0 2 ≤ 0x4005) ∧ (l = d.lease (fieldAt p 0 2)) := by
  decide

theorem test_wit_JcsReadRowsTwo_15 :
    let s : State := (at_ id); let dt : Nat := (0); let d : Dev := (s.dev.elapse dt); let b : Fin 4 := (2); let uid : Nat := (0); let p : List Byte := ([]); 
    (d = s.dev.elapse dt) ∧ (d.admits 0xC4D0 (caller b uid) p = true) := by
  decide

theorem test_wit_JcsReadRowsTwo_16 :
    let s : State := (at_ id); let dt : Nat := (0); let d : Dev := (s.dev.elapse dt); let b : Fin 4 := (2); let uid : Nat := (0); let p : List Byte := (fields [(4, 0), (2, 9)]); let all : List PoisonRange := ([]); 
    (d = s.dev.elapse dt) ∧ (d.admits 0xC4D1 (caller b uid) p = true) ∧ (fieldAt p 4 2 ≤ 682) ∧ (all = (if b = 2 then d.poisonAll else d.poisonAll.filter fun r : PoisonRange => r.context != 65535 && (d.ctx r.context).owner == b.val + 1)) := by
  decide

theorem test_wit_JcsReadRowsTwo_17 :
    let s : State := (at_ id); let dt : Nat := (0); let d : Dev := (s.dev.elapse dt); let b : Fin 4 := (2); let uid : Nat := (0); let p : List Byte := ([0, 9]); 
    (d = s.dev.elapse dt) ∧ (d.admits 0xC4D2 (caller b uid) p = true) ∧ (fieldAt p 1 1 ≤ 63) := by
  decide

theorem test_wit_JcsReadRowsTwo_18 :
    let s : State := (at_ id); let dt : Nat := (0); let d : Dev := (s.dev.elapse dt); let b : Fin 4 := (2); let uid : Nat := (0); let p : List Byte := ([]); 
    (d = s.dev.elapse dt) ∧ (d.admits 0xC4E0 (caller b uid) p = true) := by
  decide

theorem test_wit_JcsReadRowsTwo_19 :
    let s : State := (at_ id); let dt : Nat := (0); let d : Dev := (s.dev.elapse dt); let b : Fin 4 := (2); let uid : Nat := (0); let p : List Byte := (fields [(2, 1), (2, 0), (2, 5)]); 
    (d = s.dev.elapse dt) ∧ (d.admits 0xC473 (caller b uid) p = true) ∧ (fieldAt p 0 1 ≤ 4) ∧ ((if fieldAt p 0 1 = 4 then d.snap.prevBoot.getD {} else tget d.snap.banks {} (fieldAt p 0 1)).state = 0) := by
  decide

theorem test_wit_JcsReadRowsTwo_20 :
    let s : State := (at_ id); let dt : Nat := (0); let d : Dev := (s.dev.elapse dt); let b : Fin 4 := (2); let uid : Nat := (0); let p : List Byte := (fields [(4, 9)]); 
    (d = s.dev.elapse dt) ∧ (d.admits 0xC499 (caller b uid) p = true) ∧ (d.ckptOf (caller b uid) (fieldAt p 0 4) = none) := by
  decide

theorem test_wit_JcsReadRowsTwo_21 :
    let s : State := (at_ id); let dt : Nat := (0); let d : Dev := (s.dev.elapse dt); let b : Fin 4 := (2); let uid : Nat := (0); let p : List Byte := (fields [(8, 5), (8, 8), (4, 0), (2, 2)]); 
    (d = s.dev.elapse dt) ∧ (d.admits 0xC4B4 (caller b uid) p = true) ∧ (fieldAt p 20 2 ≤ 2046) ∧ (d.stratumAt (fieldAt p 0 2) (fieldAt p 8 8) = none) := by
  decide

theorem test_wit_ContextAndRingCommands_1 :
    let s : State := (at_ id); let dt : Nat := (0); let d : Dev := (s.dev.elapse dt); let b : Fin 4 := (2); let uid : Nat := (0); let p : List Byte := (fields [(2, 9), (1, 2), (1, 0), (2, 0), (2, 0), (4, 60)]); let c : Nat := (9); 
    (d = s.dev.elapse dt) ∧ (d.admits 0xC410 (caller b uid) p = true) ∧ (c = fieldAt p 0 2) ∧ ((fieldAt p 2 1 = 1 ∨ fieldAt p 2 1 = 2)) ∧ (fieldAt p 4 2 ≤ 1024) ∧ ((d.ctx c).state = 0) := by
  decide

theorem test_wit_ContextAndRingCommands_2 :
    let s : State := (at_ id); let dt : Nat := (0); let d : Dev := (s.dev.elapse dt); let b : Fin 4 := (2); let uid : Nat := (0); let p : List Byte := (fields [(2, 5), (1, 2), (1, 0), (2, 0), (2, 0), (4, 60)]); 
    (d = s.dev.elapse dt) ∧ (d.admits 0xC410 (caller b uid) p = true) ∧ ((fieldAt p 2 1 = 1 ∨ fieldAt p 2 1 = 2)) ∧ (fieldAt p 4 2 ≤ 1024) ∧ ((d.ctx (fieldAt p 0 2)).state ≠ 0) := by
  decide

theorem test_wit_ContextAndRingCommands_3 :
    let s : State := (at_ id); let dt : Nat := (0); let d : Dev := (s.dev.elapse dt); let b : Fin 4 := (2); let uid : Nat := (0); let p : List Byte := (fields [(2, 5), (2, 2), (4, 0), (2, 7), (1, 1), (1, 0), (2, 8), (1, 3), (1, 0)]); let c : Nat := (5); let es : List (Nat × Nat) := ([(7, 1), (8, 3)]); 
    (d = s.dev.elapse dt) ∧ (d.admits 0xC411 (caller b uid) p = true) ∧ (c = fieldAt p 0 2) ∧ (es = granClasses p) ∧ (es.length = fieldAt p 2 2) ∧ (es ≠ []) ∧ (es.length ≤ 4094) ∧ (8 + 4 * es.length ≤ p.length) ∧ ((∀ x ∈ es, 1 ≤ x.2 ∧ x.2 ≤ 3)) ∧ ((es.map (fun x : Nat × Nat => x.1)).eraseDups.length = es.length) ∧ ((∀ x ∈ es, d.backed x.1 = true ∧ (d.gran x.1).valid = false ∧ d.granPend x.1 = false ∧ ∀ t ∈ d.granTiles x.1, (d.tile t).isolated = false)) ∧ (((d.ctx c).state = 1 ∨ (d.ctx c).state = 3)) ∧ ((d.ctx c).keyLost = false) := by
  decide

theorem test_wit_ContextAndRingCommands_4 :
    let s : State := (at_ id); let dt : Nat := (0); let d : Dev := (s.dev.elapse dt); let b : Fin 4 := (2); let uid : Nat := (0); let p : List Byte := (fields [(2, 5), (2, 1), (4, 0), (2, 1), (1, 1), (1, 0)]); let g : Nat := (1); let k : Nat := (1); 
    (d = s.dev.elapse dt) ∧ (d.admits 0xC411 (caller b uid) p = true) ∧ (granClasses p = [(g, k)]) ∧ (fieldAt p 2 2 = 1) ∧ (12 ≤ p.length) ∧ (1 ≤ k) ∧ (k ≤ 3) ∧ (((d.ctx (fieldAt p 0 2)).state = 1 ∨ (d.ctx (fieldAt p 0 2)).state = 3)) ∧ ((d.ctx (fieldAt p 0 2)).keyLost = false) ∧ ((d.backed g = false ∨ (d.gran g).valid = true)) := by
  decide

theorem test_wit_ContextAndRingCommands_5 :
    let s : State := (at_ id); let dt : Nat := (0); let d : Dev := (s.dev.elapse dt); let b : Fin 4 := (2); let uid : Nat := (0); let p : List Byte := (fields [(2, 5), (1, 0), (1, 0), (4, 60), (2, 1), (2, 0), (2, 1)]); let c : Nat := (5); let h : Nat := (0); let gs : List Nat := ([1]); 
    (d = s.dev.elapse dt) ∧ (d.admits 0xC412 (caller b uid) p = true) ∧ (c = fieldAt p 0 2) ∧ (gs = releaseList p) ∧ (1 ≤ fieldAt p 4 4) ∧ (fieldAt p 4 4 ≤ 3600) ∧ (1 ≤ fieldAt p 8 2) ∧ (fieldAt p 8 2 ≤ 8186) ∧ (12 + 2 * fieldAt p 8 2 ≤ p.length) ∧ (gs.eraseDups.length = gs.length) ∧ ((gs.all fun g : Nat => (d.gran g).valid && (d.gran g).context == c && !d.granPend g) = true) ∧ ((fieldAt p 2 1).testBit 0 = false) ∧ ((d.ctx c).keyLost = false) ∧ (h = (d.ctx c).owner - 1) ∧ (h < 2) := by
  decide

theorem test_wit_ContextAndRingCommands_6 :
    let s : State := (at_ id); let dt : Nat := (0); let d : Dev := (s.dev.elapse dt); let b : Fin 4 := (2); let uid : Nat := (0); let p : List Byte := (fields [(2, 5), (1, 1), (1, 0), (4, 60), (2, 1), (2, 0), (2, 1)]); let c : Nat := (5); let h : Nat := (0); let gs : List Nat := ([1]); 
    (d = s.dev.elapse dt) ∧ (d.admits 0xC412 (caller b uid) p = true) ∧ (c = fieldAt p 0 2) ∧ (gs = releaseList p) ∧ (1 ≤ fieldAt p 4 4) ∧ (fieldAt p 4 4 ≤ 3600) ∧ (1 ≤ fieldAt p 8 2) ∧ (fieldAt p 8 2 ≤ 8186) ∧ (12 + 2 * fieldAt p 8 2 ≤ p.length) ∧ (gs.eraseDups.length = gs.length) ∧ ((gs.all fun g : Nat => (d.gran g).valid && (d.gran g).context == c && !d.granPend g) = true) ∧ ((fieldAt p 2 1).testBit 0 = true) ∧ ((d.ctx c).keyLost = false) ∧ (h = (d.ctx c).owner - 1) ∧ (h < 2) := by
  decide

theorem test_wit_ContextAndRingCommands_7 :
    let s : State := (at_ id); let dt : Nat := (0); let d : Dev := (s.dev.elapse dt); let b : Fin 4 := (2); let uid : Nat := (0); let p : List Byte := (fields [(2, 5), (2, 1), (4, 0), (2, 1), (1, 3), (1, 0)]); let c : Nat := (5); let g : Nat := (1); let k : Nat := (3); 
    (d = s.dev.elapse dt) ∧ (d.admits 0xC413 (caller b uid) p = true) ∧ (c = fieldAt p 0 2) ∧ (granClasses p = [(g, k)]) ∧ (fieldAt p 2 2 = 1) ∧ (12 ≤ p.length) ∧ (1 ≤ k) ∧ (k ≤ 3) ∧ ((d.gran g).valid = true) ∧ ((d.gran g).context = c) ∧ (d.granPend g = false) ∧ ((d.ctx c).keyLost = false) := by
  decide

theorem test_wit_ContextAndRingCommands_8 :
    let s : State := (at_ fun d => d.onCtx 5 fun x => { x with state := 3 }); let dt : Nat := (0); let d : Dev := (s.dev.elapse dt); let b : Fin 4 := (2); let uid : Nat := (0); let p : List Byte := (fields [(2, 5), (1, 2)]); let c : Nat := (5); let n : Nat := (2); let h : Nat := (0); 
    (d = s.dev.elapse dt) ∧ (d.admits 0xC414 (caller b uid) p = true) ∧ (c = fieldAt p 0 2) ∧ (n = fieldAt p 2 1) ∧ ((n = 1 ∨ n = 2)) ∧ ((d.ctx c).state = 3) ∧ ((d.ctx c).keyLost = false) ∧ (h = (d.ctx c).owner - 1) ∧ (h < 2) := by
  decide

theorem test_wit_ContextAndRingCommands_9 :
    let s : State := (at_ id); let dt : Nat := (0); let d : Dev := (s.dev.elapse dt); let b : Fin 4 := (2); let uid : Nat := (0); let p : List Byte := (fields [(2, 5), (1, 2)]); 
    (d = s.dev.elapse dt) ∧ (d.admits 0xC414 (caller b uid) p = true) ∧ ((fieldAt p 2 1 = 1 ∨ fieldAt p 2 1 = 2)) ∧ ((d.ctx (fieldAt p 0 2)).state ≠ 3) := by
  decide

theorem test_wit_ContextAndRingCommands_10 :
    let s : State := (at_ id); let dt : Nat := (0); let d : Dev := (s.dev.elapse dt); let b : Fin 4 := (0); let uid : Nat := (0); let p : List Byte := (fields [(2, 5)]); let c : Nat := (5); 
    (d = s.dev.elapse dt) ∧ (d.admits 0xC415 (caller b uid) p = true) ∧ (c = fieldAt p 0 2) ∧ (((d.ctx c).state = 1 ∨ (d.ctx c).state = 5)) := by
  decide

theorem test_wit_ContextAndRingCommands_11 :
    let s : State := (at_ fun d => d.onCtx 5 fun x => { x with state := 3 }); let dt : Nat := (0); let d : Dev := (s.dev.elapse dt); let b : Fin 4 := (2); let uid : Nat := (0); let p : List Byte := (fields [(2, 5)]); 
    (d = s.dev.elapse dt) ∧ (d.admits 0xC415 (caller b uid) p = true) ∧ ((d.ctx (fieldAt p 0 2)).state ≠ 1) ∧ ((d.ctx (fieldAt p 0 2)).state ≠ 5) := by
  decide

theorem test_wit_ContextAndRingCommands_12 :
    let s : State := (at_ fun d => d.onCtx 5 fun x => { x with state := 3 }); let dt : Nat := (0); let d : Dev := (s.dev.elapse dt); let b : Fin 4 := (0); let uid : Nat := (0); let p : List Byte := (fields [(2, 5)]); let c : Nat := (5); 
    (d = s.dev.elapse dt) ∧ (d.admits 0xC416 (caller b uid) p = true) ∧ (c = fieldAt p 0 2) ∧ ((d.ctx c).state = 3) ∧ ((d.ctx c).keyLost = false) ∧ (d.lat.streams = []) := by
  decide

theorem test_wit_ContextAndRingCommands_13 :
    let s : State := (at_ fun d => d.onCtx 5 fun x => { x with state := 3, keyLost := true }); let dt : Nat := (0); let d : Dev := (s.dev.elapse dt); let b : Fin 4 := (0); let uid : Nat := (0); let p : List Byte := (fields [(2, 5)]); 
    (d = s.dev.elapse dt) ∧ (d.admits 0xC416 (caller b uid) p = true) ∧ ((d.ctx (fieldAt p 0 2)).state = 3) ∧ ((d.ctx (fieldAt p 0 2)).keyLost = true) := by
  decide

theorem test_wit_ContextAndRingCommands_14 :
    let s : State := (at_ fun d => d.onCtx 5 fun x => { x with state := 3, keyLost := true }); let dt : Nat := (0); let d : Dev := (s.dev.elapse dt); let b : Fin 4 := (2); let uid : Nat := (0); let p : List Byte := (fields [(2, 5), (2, 1), (4, 0), (2, 7), (1, 1), (1, 0)]); let g : Nat := (7); let k : Nat := (1); 
    (d = s.dev.elapse dt) ∧ (d.admits 0xC411 (caller b uid) p = true) ∧ (granClasses p = [(g, k)]) ∧ (fieldAt p 2 2 = 1) ∧ (12 ≤ p.length) ∧ (1 ≤ k) ∧ (k ≤ 3) ∧ (((d.ctx (fieldAt p 0 2)).state = 1 ∨ (d.ctx (fieldAt p 0 2)).state = 3)) ∧ ((d.ctx (fieldAt p 0 2)).keyLost = true) := by
  decide

theorem test_wit_ContextAndRingCommands_15 :
    let s : State := (at_ fun d => d.onCtx 5 fun x => { x with state := 3, keyLost := true }); let dt : Nat := (0); let d : Dev := (s.dev.elapse dt); let b : Fin 4 := (2); let uid : Nat := (0); let p : List Byte := (fields [(2, 5), (1, 1), (1, 0), (4, 60), (2, 1), (2, 0), (2, 1)]); 
    (d = s.dev.elapse dt) ∧ (d.admits 0xC412 (caller b uid) p = true) ∧ (1 ≤ fieldAt p 4 4) ∧ (fieldAt p 4 4 ≤ 3600) ∧ (1 ≤ fieldAt p 8 2) ∧ (fieldAt p 8 2 ≤ 8186) ∧ (12 + 2 * fieldAt p 8 2 ≤ p.length) ∧ ((d.ctx (fieldAt p 0 2)).keyLost = true) := by
  decide

theorem test_wit_ContextAndRingCommands_16 :
    let s : State := (at_ fun d => d.onCtx 5 fun x => { x with state := 3, keyLost := true }); let dt : Nat := (0); let d : Dev := (s.dev.elapse dt); let b : Fin 4 := (2); let uid : Nat := (0); let p : List Byte := (fields [(2, 5), (2, 1), (4, 0), (2, 1), (1, 3), (1, 0)]); let g : Nat := (1); let k : Nat := (3); 
    (d = s.dev.elapse dt) ∧ (d.admits 0xC413 (caller b uid) p = true) ∧ (granClasses p = [(g, k)]) ∧ (fieldAt p 2 2 = 1) ∧ (12 ≤ p.length) ∧ (1 ≤ k) ∧ (k ≤ 3) ∧ ((d.ctx (fieldAt p 0 2)).keyLost = true) := by
  decide

theorem test_wit_ContextAndRingCommands_17 :
    let s : State := (at_ fun d => d.onCtx 5 fun x => { x with state := 3, keyLost := true }); let dt : Nat := (0); let d : Dev := (s.dev.elapse dt); let b : Fin 4 := (2); let uid : Nat := (0); let p : List Byte := (fields [(2, 5), (1, 2)]); 
    (d = s.dev.elapse dt) ∧ (d.admits 0xC414 (caller b uid) p = true) ∧ ((fieldAt p 2 1 = 1 ∨ fieldAt p 2 1 = 2)) ∧ ((d.ctx (fieldAt p 0 2)).state = 3) ∧ ((d.ctx (fieldAt p 0 2)).keyLost = true) := by
  decide

theorem test_wit_ContextAndRingCommands_18 :
    let s : State := (at_ fun d => d.onCtx 5 fun x => { x with state := 3, keyLost := true }); let dt : Nat := (0); let d : Dev := (s.dev.elapse dt); let b : Fin 4 := (2); let uid : Nat := (0); let p : List Byte := (fields [(2, 5), (2, 3), (4, 60)]); 
    (d = s.dev.elapse dt) ∧ (d.admits 0xC419 (caller b uid) p = true) ∧ (1 ≤ fieldAt p 2 2) ∧ (fieldAt p 2 2 ≤ 1024) ∧ ((d.ctx (fieldAt p 0 2)).state ≠ 0) ∧ ((d.ctx (fieldAt p 0 2)).keyLost = true) := by
  decide

theorem test_wit_ContextAndRingCommands_19 :
    let s : State := (at_ fun d => d.onCtx 5 fun x => { x with state := 3 }); let dt : Nat := (0); let d : Dev := (s.dev.elapse dt); let b : Fin 4 := (2); let uid : Nat := (0); let p : List Byte := (fields [(2, 5)]); let c : Nat := (5); 
    (d = s.dev.elapse dt) ∧ (d.admits 0xC417 (caller b uid) p = true) ∧ (c = fieldAt p 0 2) ∧ ((d.ctx c).state = 3) := by
  decide

theorem test_wit_ContextAndRingCommands_20 :
    let s : State := (at_ id); let dt : Nat := (0); let d : Dev := (s.dev.elapse dt); let b : Fin 4 := (2); let uid : Nat := (0); let p : List Byte := (fields [(2, 5)]); 
    (d = s.dev.elapse dt) ∧ (d.admits 0xC417 (caller b uid) p = true) ∧ ((d.ctx (fieldAt p 0 2)).state ≠ 3) := by
  decide

theorem test_wit_ContextAndRingCommands_21 :
    let s : State := (at_ id); let dt : Nat := (0); let d : Dev := (s.dev.elapse dt); let b : Fin 4 := (0); let uid : Nat := (0); let p : List Byte := (fields [(2, 5), (2, 3), (4, 60)]); let c : Nat := (5); 
    (d = s.dev.elapse dt) ∧ (d.admits 0xC419 (caller b uid) p = true) ∧ (c = fieldAt p 0 2) ∧ (1 ≤ fieldAt p 2 2) ∧ (fieldAt p 2 2 ≤ 1024) ∧ ((d.ctx c).state ≠ 0) ∧ ((d.ctx c).keyLost = false) := by
  decide

theorem test_wit_ContextAndRingCommands_22 :
    let s : State := (at_ id); let dt : Nat := (0); let d : Dev := (s.dev.elapse dt); let b : Fin 4 := (0); let uid : Nat := (0); let p : List Byte := (fields [(2, 5), (1, 3), (5, 0), (8, 4096), (8, 8192), (1, 4), (1, 0), (2, 16), (2, 1), (2, 5)]); let c : Nat := (5); let k : Nat := (3); 
    (d = s.dev.elapse dt) ∧ (d.admits 0xC420 (caller b uid) p = true) ∧ (c = fieldAt p 0 2) ∧ (k = fieldAt p 2 1) ∧ (k < 64) ∧ (4 ≤ fieldAt p 24 1) ∧ (fieldAt p 24 1 ≤ 12) ∧ (fieldAt p 8 8 % 4096 = 0) ∧ (fieldAt p 16 8 % 4096 = 0) ∧ (d.inCtx c (fieldAt p 8 8) (64 * 2 ^ min (fieldAt p 24 1) 12) = true) ∧ (d.inCtx c (fieldAt p 16 8) (32 * 2 ^ min (fieldAt p 24 1) 12) = true) ∧ ((fieldAt p 26 2 = 0xFFFF ∨ 16 ≤ fieldAt p 26 2 ∧ fieldAt p 26 2 ≤ 2047)) ∧ (fieldAt p 28 2 ≤ 4096) ∧ (fieldAt p 30 2 ≤ 10000) ∧ (((d.ring c k).state = 0 ∨ (d.ring c k).state = 3)) := by
  decide

theorem test_wit_ContextAndRingCommands_23 :
    let s : State := (at_ id); let dt : Nat := (0); let d : Dev := (s.dev.elapse dt); let b : Fin 4 := (0); let uid : Nat := (0); let p : List Byte := (fields [(2, 5), (1, 3), (5, 0), (8, 4096), (8, 8192), (1, 3), (1, 0), (2, 16), (2, 1), (2, 5)]); let c : Nat := (5); let k : Nat := (3); 
    (d = s.dev.elapse dt) ∧ (d.admits 0xC420 (caller b uid) p = true) ∧ (c = fieldAt p 0 2) ∧ (k = fieldAt p 2 1) ∧ ((64 ≤ k ∨ fieldAt p 24 1 < 4 ∨ 12 < fieldAt p 24 1 ∨ fieldAt p 8 8 % 4096 ≠ 0 ∨ fieldAt p 16 8 % 4096 ≠ 0 ∨ ((d.ring c k).state ≠ 0 ∧ (d.ring c k).state ≠ 3))) := by
  decide

theorem test_wit_ContextAndRingCommands_24 :
    let s : State := (at_ fun d => d.onRing 5 3 fun r => { r with state := 1, sqTail := 4 }); let dt : Nat := (0); let d : Dev := (s.dev.elapse dt); let b : Fin 4 := (0); let uid : Nat := (0); let p : List Byte := (fields [(2, 5), (1, 3)]); let c : Nat := (5); let k : Nat := (3); 
    (d = s.dev.elapse dt) ∧ (d.admits 0xC421 (caller b uid) p = true) ∧ (c = fieldAt p 0 2) ∧ (k = fieldAt p 2 1) ∧ (k < 64) ∧ (((d.ring c k).state = 1 ∨ (d.ring c k).state = 4)) := by
  decide

theorem test_wit_ContextAndRingCommands_25 :
    let s : State := (at_ id); let dt : Nat := (0); let d : Dev := (s.dev.elapse dt); let b : Fin 4 := (0); let uid : Nat := (0); let p : List Byte := (fields [(2, 5), (1, 3)]); 
    (d = s.dev.elapse dt) ∧ (d.admits 0xC421 (caller b uid) p = true) ∧ (fieldAt p 2 1 < 64) ∧ ((d.ring (fieldAt p 0 2) (fieldAt p 2 1)).state ≠ 1) ∧ ((d.ring (fieldAt p 0 2) (fieldAt p 2 1)).state ≠ 4) := by
  decide

theorem test_wit_ContextAndRingCommands_26 :
    let s : State := (at_ id); let dt : Nat := (0); let d : Dev := (s.dev.elapse dt); let b : Fin 4 := (0); let uid : Nat := (0); let p : List Byte := (fields [(2, 5), (1, 3), (1, 0), (2, 0xFFFF), (2, 1), (2, 5)]); let c : Nat := (5); let k : Nat := (3); 
    (d = s.dev.elapse dt) ∧ (d.admits 0xC422 (caller b uid) p = true) ∧ (c = fieldAt p 0 2) ∧ (k = fieldAt p 2 1) ∧ (k < 64) ∧ ((fieldAt p 4 2 = 0xFFFF ∨ 16 ≤ fieldAt p 4 2 ∧ fieldAt p 4 2 ≤ 2047)) ∧ (fieldAt p 6 2 ≤ 4096) ∧ (fieldAt p 8 2 ≤ 10000) := by
  decide

theorem test_wit_PolicyEnergyAndThermalCommands_1 :
    let s : State := (at_ fun d => d.onJcs fun j => { j with leases := [(0x4005, { holder := 2 })] }); let dt : Nat := (0); let d : Dev := (s.dev.elapse dt); let b : Fin 4 := (2); let uid : Nat := (0); let p : List Byte := (fields [(1, 63), (3, 0), (4, 32), (1, 0), (1, 1), (1, 0), (1, 0), (2, 20), (2, 400)]); let m : Nat := (63); 
    (d = s.dev.elapse dt) ∧ (d.admits 0xC431 (caller b uid) p = true) ∧ (m = fieldAt p 0 1) ∧ ((m.testBit 0 = true → 16 ≤ fieldAt p 4 4 ∧ fieldAt p 4 4 ≤ 32768)) ∧ ((m.testBit 1 = true → 0 ≤ fieldAt p 8 1 ∧ fieldAt p 8 1 ≤ 1)) ∧ ((m.testBit 2 = true → 1 ≤ fieldAt p 12 2 ∧ fieldAt p 12 2 ≤ 400)) ∧ ((m.testBit 3 = true → 1 ≤ fieldAt p 14 2 ∧ fieldAt p 14 2 ≤ 400)) ∧ ((m.testBit 4 = true → 0 ≤ fieldAt p 9 1 ∧ fieldAt p 9 1 ≤ 1)) ∧ ((m.testBit 5 = true → 0 ≤ fieldAt p 10 1 ∧ fieldAt p 10 1 ≤ 1)) := by
  decide

theorem test_wit_PolicyEnergyAndThermalCommands_2 :
    let s : State := (at_ fun d => d.onJcs fun j => { j with leases := [(0x4005, { holder := 2 })] }); let dt : Nat := (0); let d : Dev := (s.dev.elapse dt); let b : Fin 4 := (2); let uid : Nat := (0); let p : List Byte := (fields [(1, 1), (3, 0), (4, 15), (8, 0)]); 
    (d = s.dev.elapse dt) ∧ (d.admits 0xC431 (caller b uid) p = true) ∧ ((fieldAt p 0 1).testBit 0 = true) ∧ ((fieldAt p 4 4 < 16 ∨ 32768 < fieldAt p 4 4)) := by
  decide

theorem test_wit_PolicyEnergyAndThermalCommands_3 :
    let s : State := (at_ fun d => d.onBay 0 fun x => { x with hold := true }); let dt : Nat := (0); let d : Dev := (s.dev.elapse dt); let b : Fin 4 := (2); let uid : Nat := (0); let p : List Byte := ([0]); let a : Nat := (0); 
    (d = s.dev.elapse dt) ∧ (d.admits 0xC441 (caller b uid) p = true) ∧ (a = fieldAt p 0 1) ∧ (a ≤ 1) ∧ (((d.bay a).hold = true ∨ (d.bay a).state = 1 ∧ (d.bay a).lock = true)) := by
  decide

theorem test_wit_PolicyEnergyAndThermalCommands_4 :
    let s : State := (at_ fun d => d.onBay 1 fun x => { x with state := 3 }); let dt : Nat := (0); let d : Dev := (s.dev.elapse dt); let b : Fin 4 := (2); let uid : Nat := (0); let p : List Byte := ([1]); let a : Nat := (1); 
    (d = s.dev.elapse dt) ∧ (d.admits 0xC441 (caller b uid) p = true) ∧ (a = fieldAt p 0 1) ∧ (a ≤ 1) ∧ ((d.bay a).hold = false) ∧ ((d.bay a).state = 3) := by
  decide

theorem test_wit_PolicyEnergyAndThermalCommands_5 :
    let s : State := (at_ id); let dt : Nat := (0); let d : Dev := (s.dev.elapse dt); let b : Fin 4 := (3); let uid : Nat := (0); let p : List Byte := ([1]); let a : Nat := (1); 
    (d = s.dev.elapse dt) ∧ (d.admits 0xC441 (caller b uid) p = true) ∧ (a = fieldAt p 0 1) ∧ (a ≤ 1) ∧ ((d.bay a).hold = false) ∧ (((d.bay a).state = 0 ∨ (d.bay a).state = 4)) := by
  decide

theorem test_wit_PolicyEnergyAndThermalCommands_6 :
    let s : State := (at_ fun d => d.onBay 1 fun x => { x with state := 2, lock := true, counted := true }); let dt : Nat := (0); let d : Dev := (s.dev.elapse dt); let b : Fin 4 := (2); let uid : Nat := (0); let p : List Byte := ([1]); let a : Nat := (1); 
    (d = s.dev.elapse dt) ∧ (d.admits 0xC441 (caller b uid) p = true) ∧ (a = fieldAt p 0 1) ∧ (a ≤ 1) ∧ ((d.bay a).hold = false) ∧ (((d.bay a).state = 2 ∨ (d.bay a).state = 5)) ∧ ((d.bay a).test = 0) ∧ (d.sealing.testStep = 0) ∧ (d.xPkg = 0) := by
  decide

theorem test_wit_PolicyEnergyAndThermalCommands_7 :
    let s : State := (at_ fun d => (d.onBay 1 fun x => { x with state := 2, lock := true, counted := true }).onExpo fun x => { x with dirty := [{ page := 7 }] }); let dt : Nat := (0); let d : Dev := (s.dev.elapse dt); let b : Fin 4 := (2); let uid : Nat := (0); let p : List Byte := ([1]); let a : Nat := (1); 
    (d = s.dev.elapse dt) ∧ (d.admits 0xC441 (caller b uid) p = true) ∧ (a = fieldAt p 0 1) ∧ (a ≤ 1) ∧ ((d.bay a).hold = false) ∧ ((d.bay a).state = 2) ∧ ((d.bay a).test = 0) ∧ ((d.bay a).counted = true) ∧ (0 < d.xPkg) ∧ (d.sealing.testStep = 0) ∧ ((d.ceilings (addOnce d.withoutBays a)).c ≤ d.xPkg) := by
  decide

theorem test_wit_PolicyEnergyAndThermalCommands_8 :
    let s : State := (at_ fun d => d.onJcs fun j => { j with leases := [(0x4001, { holder := 2 })] }); let dt : Nat := (0); let d : Dev := (s.dev.elapse dt); let b : Fin 4 := (2); let uid : Nat := (0); let p : List Byte := ([1, 1]); let a : Nat := (1); 
    (d = s.dev.elapse dt) ∧ (d.admits 0xC442 (caller b uid) p = true) ∧ (a = fieldAt p 0 1) ∧ (a ≤ 1) ∧ (fieldAt p 1 1 ≤ 1) := by
  decide

theorem test_wit_PolicyEnergyAndThermalCommands_9 :
    let s : State := (at_ fun d => d.onJcs fun j => { j with leases := [(0x4001, { holder := 2 })] }); let dt : Nat := (0); let d : Dev := (s.dev.elapse dt); let b : Fin 4 := (2); let uid : Nat := (0); let p : List Byte := ([1, 1]); let a : Nat := (1); 
    (d = s.dev.elapse dt) ∧ (d.admits 0xC443 (caller b uid) p = true) ∧ (a = fieldAt p 0 1) ∧ (a ≤ 1) ∧ (fieldAt p 1 1 = 1) := by
  decide

theorem test_wit_PolicyEnergyAndThermalCommands_10 :
    let s : State := (at_ fun d => d.onJcs fun j => { j with leases := [(0x4001, { holder := 2 })] }); let dt : Nat := (0); let d : Dev := (s.dev.elapse dt); let b : Fin 4 := (2); let uid : Nat := (0); let p : List Byte := ([1, 2]); let a : Nat := (1); 
    (d = s.dev.elapse dt) ∧ (d.admits 0xC443 (caller b uid) p = true) ∧ (a = fieldAt p 0 1) ∧ (a ≤ 1) ∧ (fieldAt p 1 1 = 2) := by
  decide

theorem test_wit_PolicyEnergyAndThermalCommands_11 :
    let s : State := (at_ fun d => (d.onJcs fun j => { j with leases := [(0x4002, { holder := 2 })] }).onExpo fun x => { x with gov := { x.gov with eAvail := 10000000 } }); let dt : Nat := (0); let d : Dev := (s.dev.elapse dt); let b : Fin 4 := (2); let uid : Nat := (0); let p : List Byte := (fields [(4, 1000), (4, 0)]); 
    (d = s.dev.elapse dt) ∧ (d.admits 0xC444 (caller b uid) p = true) ∧ (1000 ≤ fieldAt p 0 4) ∧ (fieldAt p 0 4 ≤ 10000000) ∧ (fieldAt p 4 4 ≤ 1024) ∧ (d.expo.gov.pkgState < 2) ∧ ((∀ a : Nat, a < 2 → (d.bay a).state ≠ 3 ∧ (d.bay a).state ≠ 4 ∧ (d.bay a).test = 0)) ∧ (d.restore.phase = 7) ∧ (d.activating = false) ∧ (((2 * (d.expo.kSeal * max (d.xPkg * 4096) (fieldAt p 4 4 * 2 ^ 30)) : Nat) : Int) ≤ ((d.expo.gov.eAvail : Int) - d.expo.eFixed) * 1000000000000) := by
  decide

theorem test_wit_PolicyEnergyAndThermalCommands_12 :
    let s : State := (at_ fun d => (d.onJcs fun j => { j with leases := [(0x4002, { holder := 2 })] }).onExpo fun x => { x with gov := { x.gov with pkgState := 2 } }); let dt : Nat := (0); let d : Dev := (s.dev.elapse dt); let b : Fin 4 := (2); let uid : Nat := (0); let p : List Byte := (fields [(4, 1000), (4, 0)]); 
    (d = s.dev.elapse dt) ∧ (d.admits 0xC444 (caller b uid) p = true) ∧ (1000 ≤ fieldAt p 0 4) ∧ (fieldAt p 0 4 ≤ 10000000) ∧ (fieldAt p 4 4 ≤ 1024) ∧ (2 ≤ d.expo.gov.pkgState) := by
  decide

theorem test_wit_PolicyEnergyAndThermalCommands_13 :
    let s : State := (at_ fun d => (d.onJcs fun j => { j with leases := [(0x4002, { holder := 2 })] }).onBay 1 fun x => { x with state := 3 }); let dt : Nat := (0); let d : Dev := (s.dev.elapse dt); let b : Fin 4 := (2); let uid : Nat := (0); let p : List Byte := (fields [(4, 1000), (4, 0)]); 
    (d = s.dev.elapse dt) ∧ (d.admits 0xC444 (caller b uid) p = true) ∧ (1000 ≤ fieldAt p 0 4) ∧ (fieldAt p 0 4 ≤ 10000000) ∧ (fieldAt p 4 4 ≤ 1024) ∧ (d.expo.gov.pkgState < 2) ∧ (¬ (∀ a : Nat, a < 2 → (d.bay a).state ≠ 3 ∧ (d.bay a).state ≠ 4 ∧ (d.bay a).test = 0)) := by
  decide

theorem test_wit_PolicyEnergyAndThermalCommands_14 :
    let s : State := (at_ fun d => (d.onJcs fun j => { j with leases := [(0x4002, { holder := 2 })] }).onRestore fun x => { x with phase := 6 }); let dt : Nat := (0); let d : Dev := (s.dev.elapse dt); let b : Fin 4 := (2); let uid : Nat := (0); let p : List Byte := (fields [(4, 1000), (4, 0)]); 
    (d = s.dev.elapse dt) ∧ (d.admits 0xC444 (caller b uid) p = true) ∧ (1000 ≤ fieldAt p 0 4) ∧ (fieldAt p 0 4 ≤ 10000000) ∧ (fieldAt p 4 4 ≤ 1024) ∧ (d.expo.gov.pkgState < 2) ∧ ((∀ a : Nat, a < 2 → (d.bay a).state ≠ 3 ∧ (d.bay a).state ≠ 4 ∧ (d.bay a).test = 0)) ∧ ((d.restore.phase ≠ 7 ∨ d.activating = true)) := by
  decide

theorem test_wit_PolicyEnergyAndThermalCommands_15 :
    let s : State := (at_ fun d => (d.onJcs fun j => { j with leases := [(0x4002, { holder := 2 })] })); let dt : Nat := (0); let d : Dev := (s.dev.elapse dt); let b : Fin 4 := (2); let uid : Nat := (0); let p : List Byte := (fields [(4, 1000), (4, 0)]); 
    (d = s.dev.elapse dt) ∧ (d.admits 0xC444 (caller b uid) p = true) ∧ (1000 ≤ fieldAt p 0 4) ∧ (fieldAt p 0 4 ≤ 10000000) ∧ (fieldAt p 4 4 ≤ 1024) ∧ (d.expo.gov.pkgState < 2) ∧ ((∀ a : Nat, a < 2 → (d.bay a).state ≠ 3 ∧ (d.bay a).state ≠ 4 ∧ (d.bay a).test = 0)) ∧ (d.restore.phase = 7) ∧ (d.activating = false) ∧ (((d.expo.gov.eAvail : Int) - d.expo.eFixed) * 1000000000000 < ((2 * (d.expo.kSeal * max (d.xPkg * 4096) (fieldAt p 4 4 * 2 ^ 30)) : Nat) : Int)) := by
  decide

theorem test_wit_PolicyEnergyAndThermalCommands_16 :
    let s : State := (at_ fun d => d.onJcs fun j => { j with leases := [(0x4005, { holder := 2 })] }); let dt : Nat := (0); let d : Dev := (s.dev.elapse dt); let b : Fin 4 := (2); let uid : Nat := (0); let p : List Byte := (fields [(1, 63), (1, 0), (1, 1), (1, 60), (1, 90), (1, 20), (2, 300), (2, 30)]); let m : Nat := (63); 
    (d = s.dev.elapse dt) ∧ (d.admits 0xC445 (caller b uid) p = true) ∧ (m = fieldAt p 0 1) ∧ ((m.testBit 0 = true → 0 ≤ fieldAt p 2 1 ∧ fieldAt p 2 1 ≤ 1)) ∧ ((m.testBit 1 = true → 50 ≤ fieldAt p 3 1 ∧ fieldAt p 3 1 ≤ 95)) ∧ ((m.testBit 2 = true → 80 ≤ fieldAt p 4 1 ∧ fieldAt p 4 1 ≤ 100)) ∧ ((m.testBit 3 = true → 10 ≤ fieldAt p 5 1 ∧ fieldAt p 5 1 ≤ 70)) ∧ ((m.testBit 4 = true → 50 ≤ fieldAt p 6 2 ∧ fieldAt p 6 2 ≤ 400)) ∧ ((m.testBit 5 = true → 5 ≤ fieldAt p 8 2 ∧ fieldAt p 8 2 ≤ 60)) := by
  decide

theorem test_wit_PolicyEnergyAndThermalCommands_17 :
    let s : State := (at_ fun d => d.onJcs fun j => { j with leases := [(0x4001, { holder := 2 })] }); let dt : Nat := (0); let d : Dev := (s.dev.elapse dt); let b : Fin 4 := (2); let uid : Nat := (0); let p : List Byte := (fields [(1, 1), (1, 2), (2, 90), (1, 20), (3, 0), (4, 3000), (4, 2000), (4, 10000), (4, 3435)]); let a : Nat := (1); 
    (d = s.dev.elapse dt) ∧ (d.admits 0xC446 (caller b uid) p = true) ∧ (a = fieldAt p 0 1) ∧ (a ≤ 1) ∧ (fieldAt p 1 1 ≤ 3) ∧ ((fieldAt p 2 2 = 0 ∨ 30 ≤ fieldAt p 2 2 ∧ fieldAt p 2 2 ≤ 365)) ∧ (5 ≤ fieldAt p 4 1) ∧ (fieldAt p 4 1 ≤ 50) := by
  decide

theorem test_wit_PolicyEnergyAndThermalCommands_18 :
    let s : State := (at_ fun d => d.onJcs fun j => { j with leases := [(0x4000, { holder := 2 }), (0x4001, { holder := 2 })] }); let dt : Nat := (0); let d : Dev := (s.dev.elapse dt); let b : Fin 4 := (2); let uid : Nat := (0); let p : List Byte := (fields [(4, 9000), (4, 5000), (4, 23900), (4, 2000)]); 
    (d = s.dev.elapse dt) ∧ (d.admits 0xC447 (caller b uid) p = true) ∧ (fieldAt p 8 2 ≤ 24000) := by
  decide

theorem test_wit_PolicyEnergyAndThermalCommands_19 :
    let s : State := (at_ fun d => d.onJcs fun j => { j with leases := [(0x4000, { holder := 2 }), (0x4001, { holder := 2 })] }); let dt : Nat := (0); let d : Dev := (s.dev.elapse dt); let b : Fin 4 := (2); let uid : Nat := (0); let p : List Byte := ([2] ++ List.replicate 511 1); 
    (d = s.dev.elapse dt) ∧ (d.admits 0xC448 (caller b uid) p = true) ∧ (fieldAt p 0 1 ≤ 3) := by
  decide

theorem test_wit_PolicyEnergyAndThermalCommands_20 :
    let s : State := (at_ fun d => d.onJcs fun j => { j with leases := [(0x4005, { holder := 2 })] }); let dt : Nat := (0); let d : Dev := (s.dev.elapse dt); let b : Fin 4 := (2); let uid : Nat := (0); let p : List Byte := (fields [(2, 511), (1, 90), (1, 100), (1, 110), (1, 2), (1, 2), (1, 9), (1, 5), (1, 4), (2, 100)]); let x : Therm := (thermSet d.therm p); let m : Nat := (511); 
    (d = s.dev.elapse dt) ∧ (d.admits 0xC451 (caller b uid) p = true) ∧ (x = thermSet d.therm p) ∧ (60 ≤ x.warnC ∧ x.warnC ≤ 105 ∧ 80 ≤ x.throttleC ∧ x.throttleC ≤ 110 ∧ 95 ≤ x.shutC ∧ x.shutC ≤ 118) ∧ (1 ≤ x.warnHys ∧ x.warnHys ≤ 10 ∧ 1 ≤ x.throttleHys ∧ x.throttleHys ≤ 10 ∧ 5 ≤ x.shutHys ∧ x.shutHys ≤ 20) ∧ (2 ≤ x.stepS ∧ x.stepS ≤ 60 ∧ 60 ≤ x.coolWait ∧ x.coolWait ≤ 3600 ∧ x.restartMax ≤ 8) ∧ (x.warnC < x.throttleC) ∧ (x.throttleC + 6 ≤ x.shutC) ∧ (m = fieldAt p 0 2) := by
  decide

theorem test_wit_PolicyEnergyAndThermalCommands_21 :
    let s : State := (at_ fun d => d.onJcs fun j => { j with leases := [(0x4005, { holder := 2 })] }); let dt : Nat := (0); let d : Dev := (s.dev.elapse dt); let b : Fin 4 := (2); let uid : Nat := (0); let p : List Byte := (fields [(2, 1), (1, 105), (9, 0)]); let x : Therm := (thermSet d.therm p); 
    (d = s.dev.elapse dt) ∧ (d.admits 0xC451 (caller b uid) p = true) ∧ (x = thermSet d.therm p) ∧ ((x.throttleC ≤ x.warnC ∨ x.shutC < x.throttleC + 6)) := by
  decide

theorem test_wit_PolicyEnergyAndThermalCommands_22 :
    let s : State := (at_ fun d => d.onJcs fun j => { j with leases := [(0x4000, { holder := 2 }), (0x4001, { holder := 2 })] }); let dt : Nat := (0); let d : Dev := (s.dev.elapse dt); let b : Fin 4 := (2); let uid : Nat := (0); let p : List Byte := (List.replicate 32 50); 
    (d = s.dev.elapse dt) ∧ (d.admits 0xC452 (caller b uid) p = true) ∧ ((∀ i : Nat, i < 8 → ∀ k : Nat, k < 3 → fieldAt p (4 * i + k) 1 ≤ 125)) := by
  decide

theorem test_wit_FlintSnapshotAndTimeCommands_1 :
    let s : State := (at_ fun d => (d.onColl 3 fun x => { x with ff := { valid := true, lseq := 7, held := true } }).onFlint fun x => { x with tfHold := 255 }); let dt : Nat := (0); let d : Dev := (s.dev.elapse dt); let b : Fin 4 := (2); let uid : Nat := (0); let p : List Byte := (fields [(1, 3), (3, 0), (4, 7)]); let k : Nat := (3); 
    (d = s.dev.elapse dt) ∧ (d.admits 0xC462 (caller b uid) p = true) ∧ (k = fieldAt p 0 1) ∧ (k ≤ 8) ∧ ((d.coll k).ff.valid = true) ∧ ((d.coll k).ff.lseq = fieldAt p 4 4) := by
  decide

theorem test_wit_FlintSnapshotAndTimeCommands_2 :
    let s : State := (at_ id); let dt : Nat := (0); let d : Dev := (s.dev.elapse dt); let b : Fin 4 := (2); let uid : Nat := (0); let p : List Byte := (fields [(1, 9), (3, 0), (4, 7)]); let k : Nat := (9); 
    (d = s.dev.elapse dt) ∧ (d.admits 0xC462 (caller b uid) p = true) ∧ (k = fieldAt p 0 1) ∧ ((8 < k ∨ (d.coll k).ff.valid = false ∨ (d.coll k).ff.lseq ≠ fieldAt p 4 4)) := by
  decide

theorem test_wit_FlintSnapshotAndTimeCommands_3 :
    let s : State := (at_ fun d => d.onJcs fun j => { j with leases := [(0x4005, { holder := 2 })] }); let dt : Nat := (0); let d : Dev := (s.dev.elapse dt); let b : Fin 4 := (2); let uid : Nat := (0); let p : List Byte := (fields [(2, 833), (1, 0x10), (1, 3), (4, 2), (8, 0)]); let src : Nat := (833); 
    (d = s.dev.elapse dt) ∧ (d.admits 0xC463 (caller b uid) p = true) ∧ (src = fieldAt p 0 2) ∧ (populated src = true) ∧ (fieldAt p 2 1 ∈ kindCodes) ∧ (fieldAt p 3 1 ≤ 5) ∧ ((fieldAt p 3 1 = 5 → (fieldAt p 4 1).testBit 1 = false)) ∧ (sevNamed src (fieldAt p 3 1) = true) := by
  decide

theorem test_wit_FlintSnapshotAndTimeCommands_4 :
    let s : State := (at_ fun d => (d.onJcs fun j => { j with leases := [(0x4005, { holder := 2 })] }).onColl 8 fun x => { x with nextLseq := 1 }); let dt : Nat := (0); let d : Dev := (s.dev.elapse dt); let b : Fin 4 := (2); let uid : Nat := (0); let p : List Byte := (fields [(2, 833), (1, 0x10), (1, 3), (4, 0), (8, 0)]); let src : Nat := (833); let k : Nat := (1); 
    (d = s.dev.elapse dt) ∧ (d.admits 0xC463 (caller b uid) p = true) ∧ (src = fieldAt p 0 2) ∧ (populated src = true) ∧ (fieldAt p 2 1 ∈ kindCodes) ∧ (fieldAt p 3 1 ≤ 5) ∧ ((fieldAt p 3 1 = 5 → (fieldAt p 4 1).testBit 1 = false)) ∧ (sevNamed src (fieldAt p 3 1) = true) ∧ (768 ≤ src) ∧ ((d.coll 8).input = []) ∧ ((d.coll 8).urgent = []) ∧ ((fieldAt p 4 1).testBit 1 = false) ∧ (k = (d.coll 8).nextLseq) := by
  decide

theorem test_wit_FlintSnapshotAndTimeCommands_5 :
    let s : State := (at_ fun d => d.onJcs fun j => { j with leases := [(0x4005, { holder := 2 })] }); let dt : Nat := (0); let d : Dev := (s.dev.elapse dt); let b : Fin 4 := (2); let uid : Nat := (0); let p : List Byte := (fields [(2, 900), (1, 0x10), (1, 3), (4, 0), (8, 0)]); 
    (d = s.dev.elapse dt) ∧ (d.admits 0xC463 (caller b uid) p = true) ∧ ((populated (fieldAt p 0 2) = false ∨ fieldAt p 2 1 ∉ kindCodes ∨ 5 < fieldAt p 3 1 ∨ fieldAt p 3 1 = 5 ∧ (fieldAt p 4 1).testBit 1 = true)) := by
  decide

theorem test_wit_FlintSnapshotAndTimeCommands_6 :
    let s : State := (at_ fun d => d.onColl 0 fun x => { x with ff := { valid := true } }); let dt : Nat := (0); let d : Dev := (s.dev.elapse dt); let b : Fin 4 := (2); let uid : Nat := (0); let p : List Byte := ([1, 1]); let m : BitVec 8 := (1); 
    (d = s.dev.elapse dt) ∧ (d.admits 0xC464 (caller b uid) p = true) ∧ (fieldAt p 1 1 = 1) ∧ (m = BitVec.ofNat 8 (fieldAt p 0 1)) ∧ ((∀ t : Nat, t < 8 → mbit m t = true → (d.coll t).ff.valid = true)) := by
  decide

theorem test_wit_FlintSnapshotAndTimeCommands_7 :
    let s : State := (at_ id); let dt : Nat := (0); let d : Dev := (s.dev.elapse dt); let b : Fin 4 := (2); let uid : Nat := (0); let p : List Byte := ([1, 1]); let m : BitVec 8 := (1); let t : Nat := (0); 
    (d = s.dev.elapse dt) ∧ (d.admits 0xC464 (caller b uid) p = true) ∧ (fieldAt p 1 1 = 1) ∧ (m = BitVec.ofNat 8 (fieldAt p 0 1)) ∧ (t < 8) ∧ (mbit m t = true) ∧ ((d.coll t).ff.valid = false) := by
  decide

theorem test_wit_FlintSnapshotAndTimeCommands_8 :
    let s : State := (at_ id); let dt : Nat := (0); let d : Dev := (s.dev.elapse dt); let b : Fin 4 := (2); let uid : Nat := (0); let p : List Byte := ([1, 0]); let m : BitVec 8 := (1); 
    (d = s.dev.elapse dt) ∧ (d.admits 0xC464 (caller b uid) p = true) ∧ (fieldAt p 1 1 = 0) ∧ (m = BitVec.ofNat 8 (fieldAt p 0 1)) := by
  decide

theorem test_wit_FlintSnapshotAndTimeCommands_9 :
    let s : State := (at_ id); let dt : Nat := (0); let d : Dev := (s.dev.elapse dt); let b : Fin 4 := (2); let uid : Nat := (0); let p : List Byte := ([]); let k : Nat := (1); 
    (d = s.dev.elapse dt) ∧ (d.admits 0xC470 (caller b uid) p = true) ∧ (d.snapBank false = some k) := by
  decide

theorem test_wit_FlintSnapshotAndTimeCommands_10 :
    let s : State := (at_ fun d => d.onSnap fun x => { x with banks := [(1, { state := 1 }), (2, { state := 1 }), (3, { state := 1 })] }); let dt : Nat := (0); let d : Dev := (s.dev.elapse dt); let b : Fin 4 := (2); let uid : Nat := (0); let p : List Byte := ([]); 
    (d = s.dev.elapse dt) ∧ (d.admits 0xC470 (caller b uid) p = true) ∧ (d.snapBank false = none) := by
  decide

theorem test_wit_FlintSnapshotAndTimeCommands_11 :
    let s : State := (at_ id); let dt : Nat := (0); let d : Dev := (s.dev.elapse dt); let b : Fin 4 := (2); let uid : Nat := (0); let p : List Byte := (fields [(8, 0), (8, 1000000001000000)]); let u : Nat := (0); let ahead : Int := (1000000); 
    (d = s.dev.elapse dt) ∧ (d.admits 0xC471 (caller b uid) p = true) ∧ (u = fieldAt p 0 1) ∧ (ahead = (fieldAt p 8 8 : Int) - (if u = 1 then d.lTime else d.qtz.count)) ∧ (u ≤ 1) ∧ ((u = 1 → d.qtz.hasTime = true)) ∧ (1000000 ≤ ahead) ∧ (ahead ≤ 86400000000000) ∧ (d.snap.sched.length < 8) := by
  decide

theorem test_wit_FlintSnapshotAndTimeCommands_12 :
    let s : State := (at_ fun d => d.onSnap fun x => { x with sched := List.replicate 8 {} }); let dt : Nat := (0); let d : Dev := (s.dev.elapse dt); let b : Fin 4 := (2); let uid : Nat := (0); let p : List Byte := (fields [(8, 0), (8, 1000000001000000)]); let u : Nat := (0); let ahead : Int := (1000000); 
    (d = s.dev.elapse dt) ∧ (d.admits 0xC471 (caller b uid) p = true) ∧ (u = fieldAt p 0 1) ∧ (ahead = (fieldAt p 8 8 : Int) - (if u = 1 then d.lTime else d.qtz.count)) ∧ (u ≤ 1) ∧ ((u = 1 → d.qtz.hasTime = true)) ∧ (1000000 ≤ ahead) ∧ (ahead ≤ 86400000000000) ∧ (8 ≤ d.snap.sched.length) := by
  decide

theorem test_wit_FlintSnapshotAndTimeCommands_13 :
    let s : State := (at_ fun d => d.onQtz fun q => { q with hasTime := true }); let dt : Nat := (0); let d : Dev := (s.dev.elapse dt); let b : Fin 4 := (2); let uid : Nat := (0); let p : List Byte := (fields [(8, 0), (8, 1000000010000000), (2, 1), (14, 0), (2, 7)]); let n : Nat := (1); let ns : List Nat := ([7]); 
    (d = s.dev.elapse dt) ∧ (d.admits 0xC472 (caller b uid) p = true) ∧ (d.qtz.hasTime = true) ∧ (10000000 ≤ (fieldAt p 8 8 : Int) - d.lTime) ∧ ((fieldAt p 8 8 : Int) - d.lTime ≤ 86400000000000) ∧ (n = fieldAt p 16 2) ∧ (32 + 2 * n ≤ p.length) ∧ (ns = (List.range n).map (fun i : Nat => fieldAt p (32 + 2 * i) 2)) ∧ ((∃ x ∈ ns, x ≠ d.lat.nodeId)) := by
  decide

theorem test_wit_FlintSnapshotAndTimeCommands_14 :
    let s : State := (at_ fun d => d.onQtz fun q => { q with hasTime := true }); let dt : Nat := (0); let d : Dev := (s.dev.elapse dt); let b : Fin 4 := (2); let uid : Nat := (0); let p : List Byte := (fields [(8, 0), (8, 1000000010000000), (2, 0)]); 
    (d = s.dev.elapse dt) ∧ (d.admits 0xC472 (caller b uid) p = true) ∧ (d.qtz.hasTime = true) ∧ (10000000 ≤ (fieldAt p 8 8 : Int) - d.lTime) ∧ ((fieldAt p 8 8 : Int) - d.lTime ≤ 86400000000000) ∧ (fieldAt p 16 2 = 0) := by
  decide

theorem test_wit_FlintSnapshotAndTimeCommands_15 :
    let s : State := (at_ fun d => d.onSnap fun x => { x with banks := [(2, { state := 1, owner := 1 })] }); let dt : Nat := (0); let d : Dev := (s.dev.elapse dt); let b : Fin 4 := (1); let uid : Nat := (0); let p : List Byte := ([2]); let k : Nat := (2); 
    (d = s.dev.elapse dt) ∧ (d.admits 0xC474 (caller b uid) p = true) ∧ (k = fieldAt p 0 1) ∧ (k ≤ 3) ∧ ((b = 2 ∨ k ≠ 0 ∧ (tget d.snap.banks {} k).state ≠ 0 ∧ (tget d.snap.banks {} k).owner = b.val)) := by
  decide

theorem test_wit_FlintSnapshotAndTimeCommands_16 :
    let s : State := (at_ id); let dt : Nat := (0); let d : Dev := (s.dev.elapse dt); let b : Fin 4 := (1); let uid : Nat := (0); let p : List Byte := ([0]); let k : Nat := (0); 
    (d = s.dev.elapse dt) ∧ (d.admits 0xC474 (caller b uid) p = true) ∧ (k = fieldAt p 0 1) ∧ (k ≤ 3) ∧ (b ≠ 2) ∧ ((k = 0 ∨ (tget d.snap.banks {} k).owner ≠ b.val)) := by
  decide

theorem test_wit_FlintSnapshotAndTimeCommands_17 :
    let s : State := (at_ fun d => d.onSnap fun x => { x with sched := [{ id := 8 }] }); let dt : Nat := (0); let d : Dev := (s.dev.elapse dt); let b : Fin 4 := (2); let uid : Nat := (0); let p : List Byte := (fields [(4, 8)]); let y : SnapSched := ({ id := 8 }); 
    (d = s.dev.elapse dt) ∧ (d.admits 0xC475 (caller b uid) p = true) ∧ (d.snap.sched.find? (fun x : SnapSched => x.id == fieldAt p 0 4) = some y) ∧ ((b = 2 ∨ y.owner = b.val)) := by
  decide

theorem test_wit_FlintSnapshotAndTimeCommands_18 :
    let s : State := (at_ id); let dt : Nat := (0); let d : Dev := (s.dev.elapse dt); let b : Fin 4 := (2); let uid : Nat := (0); let p : List Byte := (fields [(4, 8)]); 
    (d = s.dev.elapse dt) ∧ (d.admits 0xC475 (caller b uid) p = true) ∧ ((∀ x ∈ d.snap.sched, x.id ≠ fieldAt p 0 4)) := by
  decide

theorem test_wit_FlintSnapshotAndTimeCommands_19 :
    let s : State := (at_ id); let dt : Nat := (0); let d : Dev := (s.dev.elapse dt); let b : Fin 4 := (2); let uid : Nat := (0); let p : List Byte := (fields [(8, 2 ^ 64 - 5), (4, 70000)]); 
    (d = s.dev.elapse dt) ∧ (d.admits 0xC481 (caller b uid) p = true) := by
  decide

theorem test_wit_FlintSnapshotAndTimeCommands_20 :
    let s : State := (at_ id); let dt : Nat := (0); let d : Dev := (s.dev.elapse dt); let b : Fin 4 := (2); let uid : Nat := (0); let p : List Byte := ([15, 1, 1, 1, 0]); let m : Nat := (15); 
    (d = s.dev.elapse dt) ∧ (d.admits 0xC482 (caller b uid) p = true) ∧ (m = fieldAt p 0 1) ∧ ((∀ i : Nat, i < 4 → m.testBit i = true → fieldAt p (1 + i) 1 ≤ 1)) ∧ (d.qtz.isRoot = false) := by
  decide

theorem test_wit_FlintSnapshotAndTimeCommands_21 :
    let s : State := (at_ id); let dt : Nat := (0); let d : Dev := (s.dev.elapse dt); let b : Fin 4 := (2); let uid : Nat := (0); let p : List Byte := ([4, 1, 1, 2, 0]); 
    (d = s.dev.elapse dt) ∧ (d.admits 0xC482 (caller b uid) p = true) ∧ ((fieldAt p 0 1).testBit 2 = true) ∧ (1 < fieldAt p 3 1) := by
  decide

theorem test_wit_LatticeCommands_1 :
    let s : State := (at_ fun d => (d.onJcs fun j => { j with leases := [(0x4004, { holder := 2 })] }).onLink 3 fun k => { k with state := 5 }); let dt : Nat := (0); let d : Dev := (s.dev.elapse dt); let b : Fin 4 := (2); let uid : Nat := (0); let p : List Byte := (fields [(1, 3), (1, 7), (1, 0), (1, 30), (2, 2 ^ 16 - 500)]); let l : Nat := (3); let m : Nat := (7); 
    (d = s.dev.elapse dt) ∧ (d.admits 0xC491 (caller b uid) p = true) ∧ (l = fieldAt p 0 1) ∧ (m = fieldAt p 1 1) ∧ (l ≤ 5) ∧ ((m.testBit 1 = true → 1 ≤ fieldAt p 3 1)) ∧ ((m.testBit 2 = true → -500 ≤ signed 16 (fieldAt p 4 2) ∧ signed 16 (fieldAt p 4 2) ≤ 500)) ∧ (m.testBit 0 = true) ∧ ((fieldAt p 2 1).testBit 0 = false) := by
  decide

theorem test_wit_LatticeCommands_2 :
    let s : State := (at_ fun d => (d.onJcs fun j => { j with leases := [(0x4004, { holder := 2 })] }).onLink 3 fun k => { k with state := 0, disabledBy := 1 }); let dt : Nat := (0); let d : Dev := (s.dev.elapse dt); let b : Fin 4 := (2); let uid : Nat := (0); let p : List Byte := (fields [(1, 3), (1, 1), (1, 1), (1, 30), (2, 0)]); let l : Nat := (3); let m : Nat := (1); 
    (d = s.dev.elapse dt) ∧ (d.admits 0xC491 (caller b uid) p = true) ∧ (l = fieldAt p 0 1) ∧ (m = fieldAt p 1 1) ∧ (l ≤ 5) ∧ ((m.testBit 1 = true → 1 ≤ fieldAt p 3 1)) ∧ ((m.testBit 2 = true → -500 ≤ signed 16 (fieldAt p 4 2) ∧ signed 16 (fieldAt p 4 2) ≤ 500)) ∧ (m.testBit 0 = true) ∧ ((fieldAt p 2 1).testBit 0 = true) ∧ ((d.link l).state = 0) ∧ (d.panel.strapNoLat = false) := by
  decide

theorem test_wit_LatticeCommands_3 :
    let s : State := (at_ fun d => d.onJcs fun j => { j with leases := [(0x4004, { holder := 2 })] }); let dt : Nat := (0); let d : Dev := (s.dev.elapse dt); let b : Fin 4 := (2); let uid : Nat := (0); let p : List Byte := (fields [(1, 3), (1, 6), (1, 1), (1, 255), (2, 500)]); let l : Nat := (3); let m : Nat := (6); 
    (d = s.dev.elapse dt) ∧ (d.admits 0xC491 (caller b uid) p = true) ∧ (l = fieldAt p 0 1) ∧ (m = fieldAt p 1 1) ∧ (l ≤ 5) ∧ ((m.testBit 1 = true → 1 ≤ fieldAt p 3 1)) ∧ ((m.testBit 2 = true → -500 ≤ signed 16 (fieldAt p 4 2) ∧ signed 16 (fieldAt p 4 2) ≤ 500)) ∧ (m.testBit 0 = false) ∧ ((d.link l).state < 4) := by
  decide

theorem test_wit_LatticeCommands_4 :
    let s : State := (at_ fun d => d.onJcs fun j => { j with leases := [(0x4004, { holder := 2 })] }); let dt : Nat := (0); let d : Dev := (s.dev.elapse dt); let b : Fin 4 := (2); let uid : Nat := (0); let p : List Byte := (fields [(1, 3), (1, 6), (1, 1), (1, 255), (2, 501)]); 
    (d = s.dev.elapse dt) ∧ (d.admits 0xC491 (caller b uid) p = true) ∧ ((5 < fieldAt p 0 1 ∨ (fieldAt p 1 1).testBit 1 = true ∧ fieldAt p 3 1 = 0 ∨ (fieldAt p 1 1).testBit 2 = true ∧ (signed 16 (fieldAt p 4 2) < -500 ∨ 500 < signed 16 (fieldAt p 4 2)))) := by
  decide

theorem test_wit_LatticeCommands_5 :
    let s : State := (at_ fun d => d.onJcs fun j => { j with leases := [(0x4004, { holder := 2 })] }); let dt : Nat := (0); let d : Dev := (s.dev.elapse dt); let b : Fin 4 := (2); let uid : Nat := (0); let p : List Byte := (fields [(2, 5), (1, 5), (1, 0), (4, 0), (8, 9)]); let c : Nat := (5); let u : Nat := (9); let svc : BitVec 8 := (5); 
    (d = s.dev.elapse dt) ∧ (d.admits 0xC492 (caller b uid) p = true) ∧ (c = fieldAt p 0 2) ∧ (c < 0x4000) ∧ (u = fieldAt p 8 8) ∧ (svc = BitVec.ofNat 8 (fieldAt p 2 1 % 8)) ∧ (fieldAt p 3 1 = 0) ∧ ((∀ g ∈ d.lat.grants, ¬(g.context = c ∧ g.uid = u))) ∧ (svc ≠ 0) ∧ (d.lat.grants.length < 1024) := by
  decide

theorem test_wit_LatticeCommands_6 :
    let s : State := (at_ fun d => (d.onJcs fun j => { j with leases := [(0x4004, { holder := 2 })] }).onLat fun x => { x with grants := [{ context := 5, uid := 9, svc := 1 }] }); let dt : Nat := (0); let d : Dev := (s.dev.elapse dt); let b : Fin 4 := (2); let uid : Nat := (0); let p : List Byte := (fields [(2, 5), (1, 4), (1, 0), (4, 0), (8, 9)]); let c : Nat := (5); let u : Nat := (9); let svc : BitVec 8 := (4); let g : Grant := ({ context := 5, uid := 9, svc := 1 }); 
    (d = s.dev.elapse dt) ∧ (d.admits 0xC492 (caller b uid) p = true) ∧ (c = fieldAt p 0 2) ∧ (c < 0x4000) ∧ (u = fieldAt p 8 8) ∧ (svc = BitVec.ofNat 8 (fieldAt p 2 1 % 8)) ∧ (fieldAt p 3 1 = 0) ∧ (g ∈ d.lat.grants) ∧ (g.context = c) ∧ (g.uid = u) := by
  decide

theorem test_wit_LatticeCommands_7 :
    let s : State := (at_ fun d => (d.onJcs fun j => { j with leases := [(0x4004, { holder := 2 })] }).onLat fun x => { x with grants := [{ context := 5, uid := 9, svc := 1 }] }); let dt : Nat := (0); let d : Dev := (s.dev.elapse dt); let b : Fin 4 := (2); let uid : Nat := (0); let p : List Byte := (fields [(2, 5), (1, 1), (1, 1), (4, 0), (8, 9)]); let c : Nat := (5); let u : Nat := (9); let svc : BitVec 8 := (1); 
    (d = s.dev.elapse dt) ∧ (d.admits 0xC492 (caller b uid) p = true) ∧ (c = fieldAt p 0 2) ∧ (c < 0x4000) ∧ (u = fieldAt p 8 8) ∧ (svc = BitVec.ofNat 8 (fieldAt p 2 1 % 8)) ∧ (fieldAt p 3 1 = 1) := by
  decide

theorem test_wit_LatticeCommands_8 :
    let s : State := (at_ fun d => (d.onJcs fun j => { j with leases := [(0x4004, { holder := 2 })] }).onLat fun x => { x with grants := List.replicate 1024 {} }); let dt : Nat := (0); let d : Dev := (s.dev.elapse dt); let b : Fin 4 := (2); let uid : Nat := (0); let p : List Byte := (fields [(2, 5), (1, 5), (1, 0), (4, 0), (8, 9)]); let c : Nat := (5); let u : Nat := (9); let svc : BitVec 8 := (5); 
    (d = s.dev.elapse dt) ∧ (d.admits 0xC492 (caller b uid) p = true) ∧ (c = fieldAt p 0 2) ∧ (c < 0x4000) ∧ (u = fieldAt p 8 8) ∧ (svc = BitVec.ofNat 8 (fieldAt p 2 1 % 8)) ∧ (fieldAt p 3 1 = 0) ∧ ((∀ g ∈ d.lat.grants, ¬(g.context = c ∧ g.uid = u))) ∧ (svc ≠ 0) ∧ (1024 ≤ d.lat.grants.length) := by
  decide

theorem test_wit_LatticeCommands_9 :
    let s : State := (at_ fun d => ((d.onJcs fun j => { j with leases := [(0x4004, { holder := 2 })] }).onLink 2 fun k => { k with state := 5 }).onLat fun x => { x with nodeId := 3, lsas := [{ uid := 9, nodeId := 7 }], routes := [(7, { valid := true, pri := 2 })] }); let dt : Nat := (0); let d : Dev := (s.dev.elapse dt); let b : Fin 4 := (2); let uid : Nat := (0); let p : List Byte := (fields [(2, 5), (2, 6), (4, 100), (8, 9)]); let c : Nat := (5); let r : Nat := (6); let u : Nat := (9); 
    (d = s.dev.elapse dt) ∧ (d.admits 0xC493 (caller b uid) p = true) ∧ (c = fieldAt p 0 2) ∧ (r = fieldAt p 2 2) ∧ (u = fieldAt p 8 8) ∧ (c < 0x4000) ∧ (r < 0x4000) ∧ (u ≠ d.lat.uid) ∧ (1 ≤ fieldAt p 4 4) ∧ (fieldAt p 4 4 ≤ 13700) ∧ ((d.ctx c).state ≠ 0) ∧ ((d.ctx c).state ≠ 4) ∧ (d.liveStream c = none) ∧ (d.lat.streams.countP (fun x : Stream => x.outgoing && x.migration == false && x.state != 4 && x.state != 0x13 && x.state != 0x14) < 1024) ∧ (d.nodeOf u ≠ 0) ∧ ((d.routeLink (d.nodeOf u)).isSome = true) := by
  decide

theorem test_wit_LatticeCommands_10 :
    let s : State := (at_ fun d => (d.onJcs fun j => { j with leases := [(0x4004, { holder := 2 })] }).onCtx 5 fun x => { x with state := 4 }); let dt : Nat := (0); let d : Dev := (s.dev.elapse dt); let b : Fin 4 := (2); let uid : Nat := (0); let p : List Byte := (fields [(2, 5), (2, 6), (4, 100), (8, 9)]); let c : Nat := (5); let r : Nat := (6); let u : Nat := (9); 
    (d = s.dev.elapse dt) ∧ (d.admits 0xC493 (caller b uid) p = true) ∧ (c = fieldAt p 0 2) ∧ (r = fieldAt p 2 2) ∧ (u = fieldAt p 8 8) ∧ (c < 0x4000) ∧ (r < 0x4000) ∧ (u ≠ d.lat.uid) ∧ (1 ≤ fieldAt p 4 4) ∧ (fieldAt p 4 4 ≤ 13700) ∧ (((d.ctx c).state = 0 ∨ (d.ctx c).state = 4 ∨ (d.liveStream c).isSome = true)) := by
  decide

theorem test_wit_LatticeCommands_11 :
    let s : State := (at_ fun d => (d.onJcs fun j => { j with leases := [(0x4004, { holder := 2 })] }).onLat fun x => { x with streams := List.replicate 1024 { local_ := 7, migration := false } }); let dt : Nat := (0); let d : Dev := (s.dev.elapse dt); let b : Fin 4 := (2); let uid : Nat := (0); let p : List Byte := (fields [(2, 5), (2, 6), (4, 100), (8, 9)]); let c : Nat := (5); let r : Nat := (6); let u : Nat := (9); 
    (d = s.dev.elapse dt) ∧ (d.admits 0xC493 (caller b uid) p = true) ∧ (c = fieldAt p 0 2) ∧ (r = fieldAt p 2 2) ∧ (u = fieldAt p 8 8) ∧ (c < 0x4000) ∧ (r < 0x4000) ∧ (u ≠ d.lat.uid) ∧ (1 ≤ fieldAt p 4 4) ∧ (fieldAt p 4 4 ≤ 13700) ∧ ((d.ctx c).state ≠ 0) ∧ ((d.ctx c).state ≠ 4) ∧ (d.liveStream c = none) ∧ (1024 ≤ d.lat.streams.countP (fun x : Stream => x.outgoing && x.migration == false && x.state != 4 && x.state != 0x13 && x.state != 0x14)) := by
  decide

theorem test_wit_LatticeCommands_12 :
    let s : State := (at_ fun d => d.onJcs fun j => { j with leases := [(0x4004, { holder := 2 })] }); let dt : Nat := (0); let d : Dev := (s.dev.elapse dt); let b : Fin 4 := (2); let uid : Nat := (0); let p : List Byte := (fields [(2, 5), (2, 6), (4, 100), (8, 9)]); let c : Nat := (5); let r : Nat := (6); let u : Nat := (9); 
    (d = s.dev.elapse dt) ∧ (d.admits 0xC493 (caller b uid) p = true) ∧ (c = fieldAt p 0 2) ∧ (r = fieldAt p 2 2) ∧ (u = fieldAt p 8 8) ∧ (c < 0x4000) ∧ (r < 0x4000) ∧ (u ≠ d.lat.uid) ∧ (1 ≤ fieldAt p 4 4) ∧ (fieldAt p 4 4 ≤ 13700) ∧ ((d.ctx c).state ≠ 0) ∧ ((d.ctx c).state ≠ 4) ∧ (d.liveStream c = none) ∧ (d.lat.streams.countP (fun x : Stream => x.outgoing && x.migration == false && x.state != 4 && x.state != 0x13 && x.state != 0x14) < 1024) ∧ ((d.nodeOf u = 0 ∨ d.routeLink (d.nodeOf u) = none)) := by
  decide

theorem test_wit_LatticeCommands_13 :
    let s : State := (at_ fun d => ((d.onJcs fun j => { j with leases := [(0x4004, { holder := 2 })] }).onLink 2 fun k => { k with state := 5 }).onLat fun x => { x with nodeId := 3, lsas := [{ uid := 9, nodeId := 7 }], routes := [(7, { valid := true, pri := 2 })] }); let dt : Nat := (0); let d : Dev := (s.dev.elapse dt); let b : Fin 4 := (2); let uid : Nat := (0); let p : List Byte := (fields [(2, 5), (2, 6), (1, 1), (1, 2), (2, 0), (8, 9)]); let c : Nat := (5); let r : Nat := (6); let u : Nat := (9); 
    (d = s.dev.elapse dt) ∧ (d.admits 0xC496 (caller b uid) p = true) ∧ (c = fieldAt p 0 2) ∧ (r = fieldAt p 2 2) ∧ (u = fieldAt p 8 8) ∧ (c < 0x4000) ∧ (r < 0x4000) ∧ (u ≠ d.lat.uid) ∧ (fieldAt p 4 1 ≤ 1) ∧ (1 ≤ fieldAt p 5 1) ∧ (fieldAt p 5 1 ≤ 64) ∧ ((d.ctx c).state ≠ 0) ∧ ((d.ctx c).state ≠ 4) ∧ (d.liveStream c = none) ∧ (d.lat.streams.countP (fun x : Stream => x.outgoing && x.migration == true && x.state != 4 && x.state != 0x13 && x.state != 0x14) < 8) ∧ (d.nodeOf u ≠ 0) ∧ ((d.routeLink (d.nodeOf u)).isSome = true) := by
  decide

theorem test_wit_LatticeCommands_14 :
    let s : State := (at_ fun d => (d.onJcs fun j => { j with leases := [(0x4004, { holder := 2 })] }).onCtx 5 fun x => { x with state := 4 }); let dt : Nat := (0); let d : Dev := (s.dev.elapse dt); let b : Fin 4 := (2); let uid : Nat := (0); let p : List Byte := (fields [(2, 5), (2, 6), (1, 1), (1, 2), (2, 0), (8, 9)]); let c : Nat := (5); let r : Nat := (6); let u : Nat := (9); 
    (d = s.dev.elapse dt) ∧ (d.admits 0xC496 (caller b uid) p = true) ∧ (c = fieldAt p 0 2) ∧ (r = fieldAt p 2 2) ∧ (u = fieldAt p 8 8) ∧ (c < 0x4000) ∧ (r < 0x4000) ∧ (u ≠ d.lat.uid) ∧ (fieldAt p 4 1 ≤ 1) ∧ (1 ≤ fieldAt p 5 1) ∧ (fieldAt p 5 1 ≤ 64) ∧ (((d.ctx c).state = 0 ∨ (d.ctx c).state = 4 ∨ (d.liveStream c).isSome = true)) := by
  decide

theorem test_wit_LatticeCommands_15 :
    let s : State := (at_ fun d => (d.onJcs fun j => { j with leases := [(0x4004, { holder := 2 })] }).onLat fun x => { x with streams := List.replicate 8 { local_ := 7, migration := true } }); let dt : Nat := (0); let d : Dev := (s.dev.elapse dt); let b : Fin 4 := (2); let uid : Nat := (0); let p : List Byte := (fields [(2, 5), (2, 6), (1, 1), (1, 2), (2, 0), (8, 9)]); let c : Nat := (5); let r : Nat := (6); let u : Nat := (9); 
    (d = s.dev.elapse dt) ∧ (d.admits 0xC496 (caller b uid) p = true) ∧ (c = fieldAt p 0 2) ∧ (r = fieldAt p 2 2) ∧ (u = fieldAt p 8 8) ∧ (c < 0x4000) ∧ (r < 0x4000) ∧ (u ≠ d.lat.uid) ∧ (fieldAt p 4 1 ≤ 1) ∧ (1 ≤ fieldAt p 5 1) ∧ (fieldAt p 5 1 ≤ 64) ∧ ((d.ctx c).state ≠ 0) ∧ ((d.ctx c).state ≠ 4) ∧ (d.liveStream c = none) ∧ (8 ≤ d.lat.streams.countP (fun x : Stream => x.outgoing && x.migration == true && x.state != 4 && x.state != 0x13 && x.state != 0x14)) := by
  decide

theorem test_wit_LatticeCommands_16 :
    let s : State := (at_ fun d => d.onJcs fun j => { j with leases := [(0x4004, { holder := 2 })] }); let dt : Nat := (0); let d : Dev := (s.dev.elapse dt); let b : Fin 4 := (2); let uid : Nat := (0); let p : List Byte := (fields [(2, 5), (2, 6), (1, 1), (1, 2), (2, 0), (8, 9)]); let c : Nat := (5); let r : Nat := (6); let u : Nat := (9); 
    (d = s.dev.elapse dt) ∧ (d.admits 0xC496 (caller b uid) p = true) ∧ (c = fieldAt p 0 2) ∧ (r = fieldAt p 2 2) ∧ (u = fieldAt p 8 8) ∧ (c < 0x4000) ∧ (r < 0x4000) ∧ (u ≠ d.lat.uid) ∧ (fieldAt p 4 1 ≤ 1) ∧ (1 ≤ fieldAt p 5 1) ∧ (fieldAt p 5 1 ≤ 64) ∧ ((d.ctx c).state ≠ 0) ∧ ((d.ctx c).state ≠ 4) ∧ (d.liveStream c = none) ∧ (d.lat.streams.countP (fun x : Stream => x.outgoing && x.migration == true && x.state != 4 && x.state != 0x13 && x.state != 0x14) < 8) ∧ ((d.nodeOf u = 0 ∨ d.routeLink (d.nodeOf u) = none)) := by
  decide

theorem test_wit_LatticeCommands_17 :
    let s : State := (at_ fun d => (d.onJcs fun j => { j with leases := [(0x4004, { holder := 2 })] }).onLat fun y => { y with streams := [{ session := 4, local_ := 5, uid := 9, state := 1, setup := false }] }); let dt : Nat := (0); let d : Dev := (s.dev.elapse dt); let b : Fin 4 := (2); let uid : Nat := (0); let p : List Byte := (fields [(2, 5), (1, 1), (1, 0), (4, 0)]); let x : Stream := ({ session := 4, local_ := 5, uid := 9, state := 1, setup := false }); 
    (d = s.dev.elapse dt) ∧ (d.admits 0xC494 (caller b uid) p = true) ∧ (d.lat.streams = [x]) ∧ (x.outgoing = true) ∧ (x.local_ = fieldAt p 0 2) ∧ (x.migration = false) ∧ (x.state ≠ 4) ∧ (x.state ≠ 0x13) ∧ (x.state ≠ 0x14) ∧ (fieldAt p 2 1 = 1) := by
  decide

theorem test_wit_LatticeCommands_18 :
    let s : State := (at_ fun d => (d.onJcs fun j => { j with leases := [(0x4004, { holder := 2 })] }).onLat fun y => { y with streams := [{ session := 4, local_ := 5, uid := 9, state := 1, setup := false }] }); let dt : Nat := (0); let d : Dev := (s.dev.elapse dt); let b : Fin 4 := (2); let uid : Nat := (0); let p : List Byte := (fields [(2, 5), (1, 2), (1, 0), (4, 50)]); let x : Stream := ({ session := 4, local_ := 5, uid := 9, state := 1, setup := false }); 
    (d = s.dev.elapse dt) ∧ (d.admits 0xC494 (caller b uid) p = true) ∧ (d.lat.streams = [x]) ∧ (x.outgoing = true) ∧ (x.local_ = fieldAt p 0 2) ∧ (x.migration = false) ∧ (x.state ≠ 4) ∧ (x.state ≠ 0x13) ∧ (x.state ≠ 0x14) ∧ (fieldAt p 2 1 = 2) ∧ (1 ≤ fieldAt p 4 4) ∧ (fieldAt p 4 4 ≤ 13700) := by
  decide

theorem test_wit_LatticeCommands_19 :
    let s : State := (at_ fun d => (d.onJcs fun j => { j with leases := [(0x4004, { holder := 2 })] }).onLat fun y => { y with streams := [{ session := 4, local_ := 5, uid := 9, state := 1, setup := false }] }); let dt : Nat := (0); let d : Dev := (s.dev.elapse dt); let b : Fin 4 := (2); let uid : Nat := (0); let p : List Byte := (fields [(2, 5), (1, 3), (1, 0), (4, 0)]); let x : Stream := ({ session := 4, local_ := 5, uid := 9, state := 1, setup := false }); 
    (d = s.dev.elapse dt) ∧ (d.admits 0xC494 (caller b uid) p = true) ∧ (d.lat.streams = [x]) ∧ (x.outgoing = true) ∧ (x.local_ = fieldAt p 0 2) ∧ (x.migration = false) ∧ (x.state ≠ 4) ∧ (x.state ≠ 0x13) ∧ (x.state ≠ 0x14) ∧ (fieldAt p 2 1 = 3) ∧ (x.setup = false) := by
  decide

theorem test_wit_LatticeCommands_20 :
    let s : State := (at_ fun d => d.onJcs fun j => { j with leases := [(0x4004, { holder := 2 })] }); let dt : Nat := (0); let d : Dev := (s.dev.elapse dt); let b : Fin 4 := (2); let uid : Nat := (0); let p : List Byte := (fields [(2, 5), (1, 1), (1, 0), (4, 0)]); 
    (d = s.dev.elapse dt) ∧ (d.admits 0xC494 (caller b uid) p = true) ∧ (1 ≤ fieldAt p 2 1) ∧ (fieldAt p 2 1 ≤ 3) ∧ ((fieldAt p 2 1 = 2 → 1 ≤ fieldAt p 4 4 ∧ fieldAt p 4 4 ≤ 13700)) ∧ (d.liveStream (fieldAt p 0 2) = none) := by
  decide

theorem test_wit_LatticeCommands_21 :
    let s : State := (at_ fun d => (d.onJcs fun j => { j with leases := [(0x4004, { holder := 2 })] }).onLat fun y => { y with streams := [{ session := 4, local_ := 5, uid := 9, state := 0x11, setup := false, migration := true }] }); let dt : Nat := (0); let d : Dev := (s.dev.elapse dt); let b : Fin 4 := (2); let uid : Nat := (0); let p : List Byte := (fields [(2, 5), (1, 2)]); let x : Stream := ({ session := 4, local_ := 5, uid := 9, state := 0x11, setup := false, migration := true }); 
    (d = s.dev.elapse dt) ∧ (d.admits 0xC497 (caller b uid) p = true) ∧ (d.lat.streams = [x]) ∧ (x.outgoing = true) ∧ (x.local_ = fieldAt p 0 2) ∧ (x.migration = true) ∧ (x.state ≠ 4) ∧ (x.state ≠ 0x13) ∧ (x.state ≠ 0x14) ∧ (fieldAt p 2 1 = 2) := by
  decide

theorem test_wit_LatticeCommands_22 :
    let s : State := (at_ fun d => (d.onJcs fun j => { j with leases := [(0x4004, { holder := 2 })] }).onLat fun y => { y with streams := [{ session := 4, local_ := 5, uid := 9, state := 0x11, setup := false, migration := true }] }); let dt : Nat := (0); let d : Dev := (s.dev.elapse dt); let b : Fin 4 := (2); let uid : Nat := (0); let p : List Byte := (fields [(2, 5), (1, 1)]); let x : Stream := ({ session := 4, local_ := 5, uid := 9, state := 0x11, setup := false, migration := true }); 
    (d = s.dev.elapse dt) ∧ (d.admits 0xC497 (caller b uid) p = true) ∧ (d.lat.streams = [x]) ∧ (x.outgoing = true) ∧ (x.local_ = fieldAt p 0 2) ∧ (x.migration = true) ∧ (x.state ≠ 4) ∧ (x.state ≠ 0x13) ∧ (x.state ≠ 0x14) ∧ (fieldAt p 2 1 = 1) ∧ (x.state = 0x11) ∧ ((4096 * x.bits.length ≤ x.switchGib * 2 ^ 30 ∨ 8 ≤ x.passes)) ∧ ((d.ctx x.local_).state = 1) := by
  decide

theorem test_wit_LatticeCommands_23 :
    let s : State := (at_ fun d => d.onJcs fun j => { j with leases := [(0x4004, { holder := 2 })] }); let dt : Nat := (0); let d : Dev := (s.dev.elapse dt); let b : Fin 4 := (2); let uid : Nat := (0); let p : List Byte := (fields [(2, 5), (1, 1)]); 
    (d = s.dev.elapse dt) ∧ (d.admits 0xC497 (caller b uid) p = true) ∧ (1 ≤ fieldAt p 2 1) ∧ (fieldAt p 2 1 ≤ 2) ∧ (d.liveStream (fieldAt p 0 2) = none) := by
  decide

theorem test_wit_LatticeCommands_24 :
    let s : State := (at_ fun d => d.onQtz fun q => { q with hasTime := true }); let dt : Nat := (0); let d : Dev := (s.dev.elapse dt); let b : Fin 4 := (2); let uid : Nat := (0); let p : List Byte := (fields [(8, 6), (8, 1000000100000000), (2, 1), (14, 0), (8, 9), (8, 5)]); let id : Nat := (6); let tc : Nat := (1000000100000000); let ps : List (Nat × Nat) := ([(9, 5)]); 
    (d = s.dev.elapse dt) ∧ (d.admits 0xC498 (caller b uid) p = true) ∧ (id = fieldAt p 0 4) ∧ (tc = fieldAt p 8 8) ∧ (ps = ckptParts p) ∧ (d.qtz.hasTime = true) ∧ (100000000 ≤ (tc : Int) - d.lTime) ∧ ((tc : Int) - d.lTime ≤ 86400000000000) ∧ (1 ≤ fieldAt p 16 2) ∧ (fieldAt p 16 2 ≤ 256) ∧ (32 + 16 * fieldAt p 16 2 ≤ p.length) ∧ ((∀ x ∈ ps, x.2 < 0x4000)) ∧ ((∀ k ∈ d.lat.ckpts, k.coord = true → k.complete = false → ¬(k.by_ = b.val ∧ k.reqId = id))) ∧ (b = 2) ∧ (d.lat.ckpts.countP (fun k : Ckpt => k.coord && !k.complete) < 16) ∧ ((∀ x ∈ ps, x.1 ≠ d.lat.uid)) := by
  decide

theorem test_wit_LatticeCommands_25 :
    let s : State := (at_ fun d => (d.onQtz fun q => { q with hasTime := true }).onLat fun x => { x with uid := 1 }); let dt : Nat := (0); let d : Dev := (s.dev.elapse dt); let b : Fin 4 := (0); let uid : Nat := (0); let p : List Byte := (fields [(8, 6), (8, 1000000100000000), (2, 1), (14, 0), (8, 1), (8, 5)]); let id : Nat := (6); let tc : Nat := (1000000100000000); let ps : List (Nat × Nat) := ([(1, 5)]); let c : Nat := (5); 
    (d = s.dev.elapse dt) ∧ (d.admits 0xC498 (caller b uid) p = true) ∧ (id = fieldAt p 0 4) ∧ (tc = fieldAt p 8 8) ∧ (ps = ckptParts p) ∧ (d.qtz.hasTime = true) ∧ (100000000 ≤ (tc : Int) - d.lTime) ∧ ((tc : Int) - d.lTime ≤ 86400000000000) ∧ (1 ≤ fieldAt p 16 2) ∧ (fieldAt p 16 2 ≤ 256) ∧ (32 + 16 * fieldAt p 16 2 ≤ p.length) ∧ ((∀ x ∈ ps, x.2 < 0x4000)) ∧ ((∀ k ∈ d.lat.ckpts, k.coord = true → k.complete = false → ¬(k.by_ = b.val ∧ k.reqId = id))) ∧ (d.lat.ckpts.countP (fun k : Ckpt => k.coord && !k.complete) < 16) ∧ (ps = [(d.lat.uid, c)]) ∧ ((d.ctx c).state = 1) ∧ ((b = 2 ∨ (d.ctx c).owner = b.val + 1)) := by
  decide

theorem test_wit_LatticeCommands_26 :
    let s : State := (at_ fun d => (d.onQtz fun q => { q with hasTime := true }).onLat fun x => { x with ckpts := List.replicate 16 { reqId := 1, coord := true } }); let dt : Nat := (0); let d : Dev := (s.dev.elapse dt); let b : Fin 4 := (2); let uid : Nat := (0); let p : List Byte := (fields [(8, 6), (8, 1000000100000000), (2, 1), (14, 0), (8, 9), (8, 5)]); let id : Nat := (6); let tc : Nat := (1000000100000000); let ps : List (Nat × Nat) := ([(9, 5)]); 
    (d = s.dev.elapse dt) ∧ (d.admits 0xC498 (caller b uid) p = true) ∧ (id = fieldAt p 0 4) ∧ (tc = fieldAt p 8 8) ∧ (ps = ckptParts p) ∧ (d.qtz.hasTime = true) ∧ (100000000 ≤ (tc : Int) - d.lTime) ∧ ((tc : Int) - d.lTime ≤ 86400000000000) ∧ (1 ≤ fieldAt p 16 2) ∧ (fieldAt p 16 2 ≤ 256) ∧ (32 + 16 * fieldAt p 16 2 ≤ p.length) ∧ ((∀ x ∈ ps, x.2 < 0x4000)) ∧ ((∀ k ∈ d.lat.ckpts, k.coord = true → k.complete = false → ¬(k.by_ = b.val ∧ k.reqId = id))) ∧ (b = 2) ∧ (16 ≤ d.lat.ckpts.countP (fun k : Ckpt => k.coord && !k.complete)) := by
  decide

theorem test_wit_LatticeCommands_27 :
    let s : State := (at_ fun d => d.onQtz fun q => { q with hasTime := true }); let dt : Nat := (0); let d : Dev := (s.dev.elapse dt); let b : Fin 4 := (1); let uid : Nat := (0); let p : List Byte := (fields [(8, 6), (8, 1000000100000000), (2, 1), (14, 0), (8, 9), (8, 5)]); let id : Nat := (6); let tc : Nat := (1000000100000000); let ps : List (Nat × Nat) := ([(9, 5)]); let x : Nat × Nat := ((9, 5)); 
    (d = s.dev.elapse dt) ∧ (d.admits 0xC498 (caller b uid) p = true) ∧ (id = fieldAt p 0 4) ∧ (tc = fieldAt p 8 8) ∧ (ps = ckptParts p) ∧ (d.qtz.hasTime = true) ∧ (100000000 ≤ (tc : Int) - d.lTime) ∧ ((tc : Int) - d.lTime ≤ 86400000000000) ∧ (1 ≤ fieldAt p 16 2) ∧ (fieldAt p 16 2 ≤ 256) ∧ (32 + 16 * fieldAt p 16 2 ≤ p.length) ∧ ((∀ x ∈ ps, x.2 < 0x4000)) ∧ ((∀ k ∈ d.lat.ckpts, k.coord = true → k.complete = false → ¬(k.by_ = b.val ∧ k.reqId = id))) ∧ (b < 2) ∧ (x ∈ ps) ∧ ((x.1 ≠ d.lat.uid ∨ (d.ctx x.2).owner ≠ b.val + 1)) := by
  decide

theorem test_wit_LatticeCommands_28 :
    let s : State := (at_ id); let dt : Nat := (0); let d : Dev := (s.dev.elapse dt); let b : Fin 4 := (2); let uid : Nat := (0); let p : List Byte := (fields [(8, 6), (8, 1000000100000000), (2, 1), (14, 0), (8, 9), (8, 5)]); 
    (d = s.dev.elapse dt) ∧ (d.admits 0xC498 (caller b uid) p = true) ∧ ((d.qtz.hasTime = false ∨ (fieldAt p 8 8 : Int) - d.lTime < 100000000 ∨ 86400000000000 < (fieldAt p 8 8 : Int) - d.lTime ∨ fieldAt p 16 2 = 0 ∨ 256 < fieldAt p 16 2)) := by
  decide

theorem test_wit_RankStrataLeaseAndUpdateCommands_1 :
    let s : State := (at_ fun d => d.onSteer 1 6 fun x => { x with state := 5 }); let dt : Nat := (0); let d : Dev := (s.dev.elapse dt); let b : Fin 4 := (2); let uid : Nat := (0); let p : List Byte := ([1, 2]); let t : Nat := (1); let k : Nat := (2); let sp : Nat := (6); 
    (d = s.dev.elapse dt) ∧ (d.admits 0xC4A2 (caller b uid) p = true) ∧ (t = fieldAt p 0 1) ∧ (k = fieldAt p 1 1) ∧ (t ≤ 7) ∧ (k ≤ 15) ∧ (((d.steerNext t k).state = 0 ∨ (d.steerNext t k).state = 4)) ∧ (d.freeSpare t (k % 4) = some sp) := by
  decide

theorem test_wit_RankStrataLeaseAndUpdateCommands_2 :
    let s : State := (at_ id); let dt : Nat := (0); let d : Dev := (s.dev.elapse dt); let b : Fin 4 := (2); let uid : Nat := (0); let p : List Byte := ([1, 2]); let t : Nat := (1); let k : Nat := (2); 
    (d = s.dev.elapse dt) ∧ (d.admits 0xC4A2 (caller b uid) p = true) ∧ (t = fieldAt p 0 1) ∧ (k = fieldAt p 1 1) ∧ (t ≤ 7) ∧ (k ≤ 15) ∧ ((d.steerNext t k).state = 0) ∧ (d.freeSpare t (k % 4) = none) := by
  decide

theorem test_wit_RankStrataLeaseAndUpdateCommands_3 :
    let s : State := (at_ fun d => d.onSteer 1 2 fun x => { x with state := 4 }); let dt : Nat := (0); let d : Dev := (s.dev.elapse dt); let b : Fin 4 := (2); let uid : Nat := (0); let p : List Byte := ([1, 2]); let t : Nat := (1); let k : Nat := (2); 
    (d = s.dev.elapse dt) ∧ (d.admits 0xC4A2 (caller b uid) p = true) ∧ (t = fieldAt p 0 1) ∧ (k = fieldAt p 1 1) ∧ (t ≤ 7) ∧ (k ≤ 15) ∧ ((d.steerNext t k).state = 4) ∧ (d.freeSpare t (k % 4) = none) := by
  decide

theorem test_wit_RankStrataLeaseAndUpdateCommands_4 :
    let s : State := (at_ fun d => d.onSteer 1 2 fun x => { x with state := 2 }); let dt : Nat := (0); let d : Dev := (s.dev.elapse dt); let b : Fin 4 := (2); let uid : Nat := (0); let p : List Byte := ([1, 2]); let t : Nat := (1); let k : Nat := (2); 
    (d = s.dev.elapse dt) ∧ (d.admits 0xC4A2 (caller b uid) p = true) ∧ (t = fieldAt p 0 1) ∧ (k = fieldAt p 1 1) ∧ (t ≤ 7) ∧ (k ≤ 15) ∧ ((d.steerNext t k).state ≠ 0) ∧ ((d.steerNext t k).state ≠ 4) := by
  decide

theorem test_wit_RankStrataLeaseAndUpdateCommands_5 :
    let s : State := (at_ fun d => d.onSteer 1 2 fun x => { x with state := 2, testPass := true }); let dt : Nat := (0); let d : Dev := (s.dev.elapse dt); let b : Fin 4 := (2); let uid : Nat := (0); let p : List Byte := ([1, 2]); let t : Nat := (1); let k : Nat := (2); 
    (d = s.dev.elapse dt) ∧ (d.admits 0xC4A3 (caller b uid) p = true) ∧ (t = fieldAt p 0 1) ∧ (k = fieldAt p 1 1) ∧ (t ≤ 7) ∧ (k ≤ 15) ∧ ((d.steerNext t k).state = 2) ∧ ((d.steerNext t k).testPass = true) := by
  decide

theorem test_wit_RankStrataLeaseAndUpdateCommands_6 :
    let s : State := (at_ id); let dt : Nat := (0); let d : Dev := (s.dev.elapse dt); let b : Fin 4 := (2); let uid : Nat := (0); let p : List Byte := ([1, 2]); let t : Nat := (1); let k : Nat := (2); 
    (d = s.dev.elapse dt) ∧ (d.admits 0xC4A3 (caller b uid) p = true) ∧ (t = fieldAt p 0 1) ∧ (k = fieldAt p 1 1) ∧ (t ≤ 7) ∧ (k ≤ 15) ∧ (((d.steerNext t k).state ≠ 2 ∨ (d.steerNext t k).testPass = false)) := by
  decide

theorem test_wit_RankStrataLeaseAndUpdateCommands_7 :
    let s : State := (at_ fun d => d.onCtxs fun x => { x with rt := [] }); let dt : Nat := (0); let d : Dev := (s.dev.elapse dt); let b : Fin 4 := (2); let uid : Nat := (0); let p : List Byte := (fields [(1, 63), (1, 2), (1, 1), (1, 2), (1, 1), (1, 1), (2, 0), (2, 500)]); let m : Nat := (63); 
    (d = s.dev.elapse dt) ∧ (d.admits 0xC4A4 (caller b uid) p = true) ∧ (m = fieldAt p 0 1) ∧ ((m.testBit 0 = true → 0 ≤ fieldAt p 1 1 ∧ fieldAt p 1 1 ≤ 3)) ∧ ((m.testBit 1 = true → 0 ≤ fieldAt p 2 1 ∧ fieldAt p 2 1 ≤ 4)) ∧ ((m.testBit 2 = true → 0 ≤ fieldAt p 3 1 ∧ fieldAt p 3 1 ≤ 2)) ∧ ((m.testBit 3 = true → 0 ≤ fieldAt p 4 1 ∧ fieldAt p 4 1 ≤ 2)) ∧ ((m.testBit 4 = true → 0 ≤ fieldAt p 5 1 ∧ fieldAt p 5 1 ≤ 1)) ∧ ((m.testBit 5 = true → fieldAt p 8 2 = 0 ∨ 50 ≤ fieldAt p 8 2 ∧ fieldAt p 8 2 ≤ 10000)) ∧ ((m % 16 = 0 ∨ (∀ g ∈ d.ctxs.rt, g.2.valid = false))) := by
  decide

theorem test_wit_RankStrataLeaseAndUpdateCommands_8 :
    let s : State := (at_ id); let dt : Nat := (0); let d : Dev := (s.dev.elapse dt); let b : Fin 4 := (2); let uid : Nat := (0); let p : List Byte := (fields [(1, 1), (1, 2), (8, 0)]); let m : Nat := (1); let g : Nat × Granule := ((0, { valid := true, head := 1, cls := 1, context := 5 })); 
    (d = s.dev.elapse dt) ∧ (d.admits 0xC4A4 (caller b uid) p = true) ∧ (m = fieldAt p 0 1) ∧ ((m.testBit 0 = true → 0 ≤ fieldAt p 1 1 ∧ fieldAt p 1 1 ≤ 3)) ∧ ((m.testBit 1 = true → 0 ≤ fieldAt p 2 1 ∧ fieldAt p 2 1 ≤ 4)) ∧ ((m.testBit 2 = true → 0 ≤ fieldAt p 3 1 ∧ fieldAt p 3 1 ≤ 2)) ∧ ((m.testBit 3 = true → 0 ≤ fieldAt p 4 1 ∧ fieldAt p 4 1 ≤ 2)) ∧ ((m.testBit 4 = true → 0 ≤ fieldAt p 5 1 ∧ fieldAt p 5 1 ≤ 1)) ∧ ((m.testBit 5 = true → fieldAt p 8 2 = 0 ∨ 50 ≤ fieldAt p 8 2 ∧ fieldAt p 8 2 ≤ 10000)) ∧ (m % 16 ≠ 0) ∧ (g ∈ d.ctxs.rt) ∧ (g.2.valid = true) := by
  decide

theorem test_wit_RankStrataLeaseAndUpdateCommands_9 :
    let s : State := (at_ fun d => d.onJcs fun j => { j with leases := [(0x4005, { holder := 2 })] }); let dt : Nat := (0); let d : Dev := (s.dev.elapse dt); let b : Fin 4 := (2); let uid : Nat := (0); let p : List Byte := ([7]); let y : Nat := (7); 
    (d = s.dev.elapse dt) ∧ (d.admits 0xC4B1 (caller b uid) p = true) ∧ (y = fieldAt p 0 1) ∧ (1 ≤ y) ∧ (y ≤ 40) ∧ (d.now + 30 * day ≤ y * year) := by
  decide

theorem test_wit_RankStrataLeaseAndUpdateCommands_10 :
    let s : State := (at_ fun d => d.onJcs fun j => { j with leases := [(0x4005, { holder := 2 })] }); let dt : Nat := (0); let d : Dev := (s.dev.elapse dt); let b : Fin 4 := (2); let uid : Nat := (0); let p : List Byte := ([0]); let y : Nat := (0); 
    (d = s.dev.elapse dt) ∧ (d.admits 0xC4B1 (caller b uid) p = true) ∧ (y = fieldAt p 0 1) ∧ ((y = 0 ∨ 40 < y ∨ y * year < d.now + 30 * day)) := by
  decide

theorem test_wit_RankStrataLeaseAndUpdateCommands_11 :
    let s : State := (at_ fun d => d.onStrata fun x => { x with strata := [{ context := 5, time := 8 }] }); let dt : Nat := (0); let d : Dev := (s.dev.elapse dt); let b : Fin 4 := (0); let uid : Nat := (0); let p : List Byte := (fields [(8, 5), (8, 8)]); let c : Nat := (5); let x : Stratum := ({ context := 5, time := 8 }); 
    (d = s.dev.elapse dt) ∧ (d.admits 0xC4B3 (caller b uid) p = true) ∧ (c = fieldAt p 0 2) ∧ (x ∈ d.strata.strata) ∧ (x.context = c) ∧ (x.time = fieldAt p 8 8) := by
  decide

theorem test_wit_RankStrataLeaseAndUpdateCommands_12 :
    let s : State := (at_ fun d => d.onStrata fun x => { x with strata := [{ context := 5, time := 8 }] }); let dt : Nat := (0); let d : Dev := (s.dev.elapse dt); let b : Fin 4 := (0); let uid : Nat := (0); let p : List Byte := (fields [(8, 5), (8, 9)]); 
    (d = s.dev.elapse dt) ∧ (d.admits 0xC4B3 (caller b uid) p = true) ∧ (d.stratumAt (fieldAt p 0 2) (fieldAt p 8 8) = none) := by
  decide

theorem test_wit_RankStrataLeaseAndUpdateCommands_13 :
    let s : State := (at_ id); let dt : Nat := (0); let d : Dev := (s.dev.elapse dt); let b : Fin 4 := (3); let uid : Nat := (0); let p : List Byte := (fields [(2, 0x4001), (2, 0)]); let r : Nat := (0x4001); let t : Nat := (0); let n : Nat := (600); 
    (d = s.dev.elapse dt) ∧ (d.admits 0xC4C0 (caller b uid) p = true) ∧ (r = fieldAt p 0 2) ∧ (t = fieldAt p 2 2) ∧ (r ≤ 0x4005) ∧ (r ≠ 0x4003) ∧ ((t = 0 ∨ 10 ≤ t ∧ t ≤ 3600)) ∧ (d.mayHold b.val r = true) ∧ ((d.lease r).holder = 255) ∧ (n = (if t = 0 then 600 else t)) := by
  decide

theorem test_wit_RankStrataLeaseAndUpdateCommands_14 :
    let s : State := (at_ fun d => d.onJcs fun j => { j with leases := [(0x4001, { holder := 3, acquired := 5 })] }); let dt : Nat := (0); let d : Dev := (s.dev.elapse dt); let b : Fin 4 := (3); let uid : Nat := (0); let p : List Byte := (fields [(2, 0x4001), (2, 20)]); let r : Nat := (0x4001); let t : Nat := (20); let n : Nat := (20); 
    (d = s.dev.elapse dt) ∧ (d.admits 0xC4C0 (caller b uid) p = true) ∧ (r = fieldAt p 0 2) ∧ (t = fieldAt p 2 2) ∧ (r ≤ 0x4005) ∧ (r ≠ 0x4003) ∧ ((t = 0 ∨ 10 ≤ t ∧ t ≤ 3600)) ∧ (d.mayHold b.val r = true) ∧ ((d.lease r).heldBy (caller b uid) = true) ∧ (n = (if t = 0 then 600 else t)) := by
  decide

theorem test_wit_RankStrataLeaseAndUpdateCommands_15 :
    let s : State := (at_ id); let dt : Nat := (0); let d : Dev := (s.dev.elapse dt); let b : Fin 4 := (0); let uid : Nat := (0); let p : List Byte := (fields [(2, 0x4004), (2, 20)]); let r : Nat := (0x4004); let t : Nat := (20); 
    (d = s.dev.elapse dt) ∧ (d.admits 0xC4C0 (caller b uid) p = true) ∧ (r = fieldAt p 0 2) ∧ (t = fieldAt p 2 2) ∧ (r ≤ 0x4005) ∧ (r ≠ 0x4003) ∧ ((t = 0 ∨ 10 ≤ t ∧ t ≤ 3600)) ∧ (d.mayHold b.val r = false) := by
  decide

theorem test_wit_RankStrataLeaseAndUpdateCommands_16 :
    let s : State := (at_ id); let dt : Nat := (0); let d : Dev := (s.dev.elapse dt); let b : Fin 4 := (2); let uid : Nat := (0); let p : List Byte := (fields [(2, 0x4003), (2, 20)]); let r : Nat := (0x4003); let t : Nat := (20); 
    (d = s.dev.elapse dt) ∧ (d.admits 0xC4C0 (caller b uid) p = true) ∧ (r = fieldAt p 0 2) ∧ (t = fieldAt p 2 2) ∧ ((0x4005 < r ∨ r = 0x4003 ∨ 0 < t ∧ t < 10 ∨ 3600 < t)) := by
  decide

theorem test_wit_RankStrataLeaseAndUpdateCommands_17 :
    let s : State := (at_ fun d => d.onJcs fun j => { j with leases := [(0x4001, { holder := 1 })] }); let dt : Nat := (0); let d : Dev := (s.dev.elapse dt); let b : Fin 4 := (1); let uid : Nat := (0); let p : List Byte := (fields [(2, 0x4001)]); let r : Nat := (0x4001); 
    (d = s.dev.elapse dt) ∧ (d.admits 0xC4C1 (caller b uid) p = true) ∧ (r = fieldAt p 0 2) ∧ (r ≤ 0x4005) ∧ (r ≠ 0x4003) ∧ ((d.lease r).heldBy (caller b uid) = true) := by
  decide

theorem test_wit_RankStrataLeaseAndUpdateCommands_18 :
    let s : State := (at_ fun d => d.onJcs fun j => { j with leases := [(0x4001, { holder := 0 })] }); let dt : Nat := (0); let d : Dev := (s.dev.elapse dt); let b : Fin 4 := (1); let uid : Nat := (0); let p : List Byte := (fields [(2, 0x4001)]); let r : Nat := (0x4001); 
    (d = s.dev.elapse dt) ∧ (d.admits 0xC4C1 (caller b uid) p = true) ∧ (r = fieldAt p 0 2) ∧ (r ≤ 0x4005) ∧ ((d.lease r).heldBy (caller b uid) = false) := by
  decide

theorem test_wit_RankStrataLeaseAndUpdateCommands_19 :
    let s : State := (at_ fun d => d.onJcs fun j => { j with leases := [(0x4001, { holder := 1 })] }); let dt : Nat := (0); let d : Dev := (s.dev.elapse dt); let b : Fin 4 := (2); let uid : Nat := (0); let p : List Byte := (fields [(2, 0x4001)]); let r : Nat := (0x4001); 
    (d = s.dev.elapse dt) ∧ (d.admits 0xC4C3 (caller b uid) p = true) ∧ (r = fieldAt p 0 2) ∧ (r ≤ 0x4005) ∧ (r ≠ 0x4003) := by
  decide

theorem test_wit_RankStrataLeaseAndUpdateCommands_20 :
    let s : State := (at_ fun d => (d.onJcs fun j => { j with leases := [(0x4003, { holder := 1 })] }).onUpd fun u => { u with recs := [(0, { owner := 1 })] }); let dt : Nat := (0); let d : Dev := (s.dev.elapse dt); let b : Fin 4 := (2); let uid : Nat := (0); let p : List Byte := (fields [(2, 0x4003)]); 
    (d = s.dev.elapse dt) ∧ (d.admits 0xC4C3 (caller b uid) p = true) ∧ (fieldAt p 0 2 = 0x4003) ∧ (d.lrec.trySlot = none) ∧ (d.lrec.owner ≠ 255) := by
  decide

theorem test_wit_RankStrataLeaseAndUpdateCommands_21 :
    let s : State := (at_ id); let dt : Nat := (0); let d : Dev := (s.dev.elapse dt); let b : Fin 4 := (2); let uid : Nat := (0); let p : List Byte := ([1]); 
    (d = s.dev.elapse dt) ∧ (d.admits 0xC4E1 (caller b uid) p = true) ∧ (fieldAt p 0 1 ≤ 1) := by
  decide

theorem test_wit_RankStrataLeaseAndUpdateCommands_22 :
    let s : State := (at_ fun d => d.onUpd fun u => { u with recs := [(0, { trySlot := some 1 })] }); let dt : Nat := (0); let d : Dev := (s.dev.elapse dt); let b : Fin 4 := (2); let uid : Nat := (0); let p : List Byte := ([]); 
    (d = s.dev.elapse dt) ∧ (d.admits 0xC4E2 (caller b uid) p = true) ∧ (d.lrec.trySlot ≠ none) := by
  decide

theorem test_wit_RankStrataLeaseAndUpdateCommands_23 :
    let s : State := (at_ id); let dt : Nat := (0); let d : Dev := (s.dev.elapse dt); let b : Fin 4 := (2); let uid : Nat := (0); let p : List Byte := ([]); 
    (d = s.dev.elapse dt) ∧ (d.admits 0xC4E2 (caller b uid) p = true) ∧ (d.lrec.trySlot = none) := by
  decide

theorem test_wit_RankStrataLeaseAndUpdateCommands_24 :
    let s : State := (at_ fun d => d.onJcs fun j => { j with leases := [(0x4003, { holder := 2 })] }); let dt : Nat := (0); let d : Dev := (s.dev.elapse dt); let b : Fin 4 := (2); let uid : Nat := (0); let p : List Byte := ([]); 
    (d = s.dev.elapse dt) ∧ (d.admits 0xC4E3 (caller b uid) p = true) := by
  decide

theorem test_wit_SerialiserCommands_1 :
    let s : State := (at_ fun d => d.onHead 1 fun x => { x with mboxBusy := true }); let dt : Nat := (0); let d : Dev := (s.dev.elapse dt); let h : Fin 2 := (1); let op : BitVec 16 := (0xC462); let p : List Byte := ([]); 
    (d = s.dev.elapse dt) ∧ ((d.head h.val).mboxBusy = true) := by
  decide

theorem test_wit_SerialiserCommands_2 :
    let s : State := (at_ id); let dt : Nat := (0); let d : Dev := (s.dev.elapse dt); let h : Fin 2 := (1); let op : BitVec 16 := (0xC462); let p : List Byte := ([1, 0, 0, 0, 0, 0, 0, 0]); 
    (d = s.dev.elapse dt) ∧ ((d.head h.val).mboxBusy = false) ∧ (d.panel.coreUp = true) ∧ (d.restore.phase ≠ 1) ∧ (d.restore.phase ≠ 2) ∧ (isChanging op.toNat = true) ∧ (d.jcs.queue.length < 64) := by
  decide

theorem test_wit_SerialiserCommands_3 :
    let s : State := (at_ fun d => d.onJcs fun j => { j with queue := List.replicate 64 ({} : QCmd) }); let dt : Nat := (0); let d : Dev := (s.dev.elapse dt); let h : Fin 2 := (1); let op : BitVec 16 := (0xC462); let p : List Byte := ([]); 
    (d = s.dev.elapse dt) ∧ ((d.head h.val).mboxBusy = false) ∧ (d.panel.coreUp = true) ∧ (d.restore.phase ≠ 1) ∧ (d.restore.phase ≠ 2) ∧ (0xC400 ≤ op.toNat) ∧ (op.toNat ≤ 0xC4FF) ∧ (64 ≤ d.jcs.queue.length) := by
  decide

theorem test_wit_SerialiserCommands_4 :
    let s : State := (at_ id); let dt : Nat := (0); let d : Dev := (s.dev.elapse dt); let h : Fin 2 := (1); let op : BitVec 16 := (0xC480); let p : List Byte := ([]); 
    (d = s.dev.elapse dt) ∧ ((d.head h.val).mboxBusy = false) ∧ (d.panel.coreUp = true) ∧ (d.restore.phase ≠ 1) ∧ (d.restore.phase ≠ 2) ∧ (0xC400 ≤ op.toNat) ∧ (op.toNat ≤ 0xC4FF) ∧ (isChanging op.toNat = false) ∧ (d.jcs.queue.length < 64) ∧ (d.answers = true) := by
  decide

theorem test_wit_SerialiserCommands_5 :
    let s : State := (at_ id); let dt : Nat := (0); let d : Dev := (s.dev.elapse dt); let eid : BitVec 8 := (0); let tag : BitVec 16 := (7); let op : BitVec 16 := (0xC462); let p : List Byte := ([]); 
    (d = s.dev.elapse dt) ∧ (d.panel.coreUp = true) ∧ (d.pkg.bedrock = false) ∧ (eid.toNat = d.jcs.sbEid) ∧ (d.restore.phase ≠ 1) ∧ (d.restore.phase ≠ 2) ∧ (p.length ≤ 16384) ∧ (isChanging op.toNat = true) ∧ (d.jcs.queue.length < 64) := by
  decide

theorem test_wit_SerialiserCommands_6 :
    let s : State := (at_ id); let dt : Nat := (0); let d : Dev := (s.dev.elapse dt); let eid : BitVec 8 := (9); let tag : BitVec 16 := (7); let op : BitVec 16 := (0xC462); let p : List Byte := ([]); 
    (d = s.dev.elapse dt) ∧ (d.panel.coreUp = true) ∧ (d.pkg.bedrock = false) ∧ (eid.toNat ≠ d.jcs.sbEid) := by
  decide

theorem test_wit_SerialiserCommands_7 :
    let s : State := (at_ id); let dt : Nat := (0); let l : Fin 6 := (2); let uid : Nat := (9); let tag : BitVec 16 := (7); let op : BitVec 16 := (0xC441); let p : List Byte := ([0]); let d : Dev := ((s.dev.elapse dt).rxFrames l.val 1 (1 + (p.length + 63) / 64)); 
    (d = (s.dev.elapse dt).rxFrames l.val 1 (1 + (p.length + 63) / 64)) ∧ (d.latGate = some 0) ∧ (d.panel.coreUp = true) ∧ (d.restore.phase ≠ 1) ∧ (d.restore.phase ≠ 2) ∧ (d.pkg.bedrock = false) ∧ (p.length ≤ 16384) ∧ (isChanging op.toNat = true) ∧ (d.jcs.queue.length < 64) := by
  decide

theorem test_wit_SerialiserCommands_8 :
    let s : State := (at_ fun d => d.onJcs fun j => { j with queue := [({ by_ := 2, stamp := 999999999999990, opcode := 0xC474, payload := [0] } : QCmd)] }); let dt : Nat := (0); let d : Dev := (s.dev.elapse dt); 
    (d = s.dev.elapse dt) ∧ ((∀ q : QCmd, q ∈ d.jcs.queue → isChanging q.opcode = true ∧ d.now < q.stamp + 1000 ∧ q.stamp ≤ d.now)) := by
  decide

theorem test_wit_SerialiserCommands_9 :
    let s : State := (at_ fun d => d.onJcs fun j => { j with queue := [({ by_ := 2, stamp := 9, opcode := 0xC474, payload := [0] } : QCmd)] }); let dt : Nat := (0); let d : Dev := (s.dev.elapse dt); let q : QCmd := (({ by_ := 2, stamp := 9, opcode := 0xC474, payload := [0] } : QCmd)); 
    (d = s.dev.elapse dt) ∧ (d.answers = true) ∧ (d.jcs.queue = [q]) ∧ (isChanging q.opcode = true) ∧ (q.stamp + 1000 ≤ d.now) := by
  decide

theorem test_wit_SerialiserCommands_10 :
    let s : State := (at_ fun d => d.onJcs fun j => { j with queue := [({ by_ := 0, stamp := 9, opcode := 0xC4C0, payload := [1, 0x40, 20, 0] } : QCmd), ({ by_ := 2, stamp := 19, opcode := 0xC4C0, payload := [1, 0x40, 20, 0] } : QCmd)] }); let dt : Nat := (0); let d : Dev := (s.dev.elapse dt); let q : QCmd := (({ by_ := 0, stamp := 9, opcode := 0xC4C0, payload := [1, 0x40, 20, 0] } : QCmd)); let x : QCmd := (({ by_ := 2, stamp := 19, opcode := 0xC4C0, payload := [1, 0x40, 20, 0] } : QCmd)); let r : Nat := (0x4001); 
    (d = s.dev.elapse dt) ∧ (d.answers = true) ∧ (d.jcs.queue = [q, x]) ∧ (isChanging q.opcode = true) ∧ (isChanging x.opcode = true) ∧ (q.stamp + 1000 ≤ d.now) ∧ (x.stamp < q.stamp + 1000) ∧ (q.by_ ≠ x.by_) ∧ (d.reaches q = true) ∧ (d.reaches x = true) ∧ (q.shared x = some r) ∧ (x.shared q = some r) ∧ ((d.lease r).holder = 255) ∧ (leaseRank r x.by_ < leaseRank r q.by_) ∧ (x.stamp + 1000 ≤ d.now) := by
  decide

theorem test_wit_SerialiserCommands_11 :
    let s : State := (at_ fun d => d.onJcs fun j => { j with queue := [({ by_ := 0, stamp := 999999999998900, opcode := 0xC4C0, payload := [1, 0x40, 20, 0] } : QCmd), ({ by_ := 2, stamp := 999999999999300, opcode := 0xC4C0, payload := [1, 0x40, 20, 0] } : QCmd)] }); let dt : Nat := (0); let d : Dev := (s.dev.elapse dt); let q : QCmd := (({ by_ := 0, stamp := 999999999998900, opcode := 0xC4C0, payload := [1, 0x40, 20, 0] } : QCmd)); let x : QCmd := (({ by_ := 2, stamp := 999999999999300, opcode := 0xC4C0, payload := [1, 0x40, 20, 0] } : QCmd)); let r : Nat := (0x4001); 
    (d = s.dev.elapse dt) ∧ (d.answers = true) ∧ (d.jcs.queue = [q, x]) ∧ (isChanging q.opcode = true) ∧ (isChanging x.opcode = true) ∧ (q.stamp + 1000 ≤ d.now) ∧ (x.stamp < q.stamp + 1000) ∧ (q.by_ ≠ x.by_) ∧ (d.reaches q = true) ∧ (d.reaches x = true) ∧ (q.shared x = some r) ∧ (x.shared q = some r) ∧ ((d.lease r).holder = 255) ∧ (leaseRank r x.by_ < leaseRank r q.by_) ∧ (x.stamp ≤ d.now) ∧ (d.now < x.stamp + 1000) := by
  decide

theorem test_wit_SerialiserCommands_12 :
    let s : State := (at_ fun d => d.onJcs fun j => { j with queue := [({ by_ := 0, stamp := 9, opcode := 0xC4C0, payload := [1, 0x40, 20, 0] } : QCmd), ({ by_ := 1, stamp := 19, opcode := 0xC4C0, payload := [1, 0x40, 20, 0] } : QCmd)] }); let dt : Nat := (0); let d : Dev := (s.dev.elapse dt); let q : QCmd := (({ by_ := 0, stamp := 9, opcode := 0xC4C0, payload := [1, 0x40, 20, 0] } : QCmd)); let x : QCmd := (({ by_ := 1, stamp := 19, opcode := 0xC4C0, payload := [1, 0x40, 20, 0] } : QCmd)); let r : Nat := (0x4001); 
    (d = s.dev.elapse dt) ∧ (d.answers = true) ∧ (d.jcs.queue = [q, x]) ∧ (isChanging q.opcode = true) ∧ (isChanging x.opcode = true) ∧ (q.stamp + 1000 ≤ d.now) ∧ (x.stamp < q.stamp + 1000) ∧ (q.by_ ≠ x.by_) ∧ (d.reaches q = true) ∧ (d.reaches x = true) ∧ (q.shared x = some r) ∧ (x.shared q = some r) ∧ ((d.lease r).holder = 255) ∧ (leaseRank r q.by_ < leaseRank r x.by_) := by
  decide

theorem test_wit_SerialiserCommands_13 :
    let s : State := (at_ fun d => d.onJcs fun j => { j with leases := [(0x4001, { holder := 1, timeoutS := 20, last := 5 })] }); let dt : Nat := (0); let d : Dev := (s.dev.elapse dt); let r : Nat := (0x4001); 
    (d = s.dev.elapse dt) ∧ (r ≠ 0x4003) ∧ ((d.lease r).holder ≠ 255) ∧ ((d.lease r).timeoutS * 1000000000 ≤ d.now - (d.lease r).last) := by
  decide

theorem test_wit_SerialiserCommands_14 :
    let s : State := (at_ fun d => d.onJcs fun j => { j with leases := [(0x4001, { holder := 1, timeoutS := 20, last := 999999000000000 })] }); let dt : Nat := (0); let d : Dev := (s.dev.elapse dt); let r : Nat := (0x4001); 
    (d = s.dev.elapse dt) ∧ ((r = 0x4003 ∨ (d.lease r).holder = 255 ∨ d.now - (d.lease r).last < (d.lease r).timeoutS * 1000000000)) := by
  decide

theorem test_wit_SerialiserCommands_15 :
    let s : State := (at_ fun d => d.onJcs fun j => { j with sbBg := { opcode := 0xC413, running := true, arg := 5 } }); let dt : Nat := (0); let d : Dev := (s.dev.elapse dt); let b : Fin 3 := (2); 
    (d = s.dev.elapse dt) ∧ ((d.bgOf b.val).running = true) ∧ (d.bgOver b.val (d.bgOf b.val) = true) := by
  decide

theorem test_wit_SerialiserCommands_16 :
    let s : State := (at_ fun d => d.onJcs fun j => { j with sbBg := { opcode := 0xC415, running := true, arg := 5 } }); let dt : Nat := (0); let d : Dev := (s.dev.elapse dt); let b : Fin 3 := (2); 
    (d = s.dev.elapse dt) ∧ (((d.bgOf b.val).running = false ∨ d.bgOver b.val (d.bgOf b.val) = false)) := by
  decide

theorem test_wit_SerialiserCommands_17 :
    let s : State := (at_ id); let dt : Nat := (0); let d : Dev := (s.dev.elapse dt); let h : Fin 2 := (0); let off : BitVec 27 := (0x100000); 
    (d = s.dev.elapse dt) ∧ (0x100000 ≤ off.toNat) := by
  decide

theorem test_wit_SerialiserCommands_18 :
    let s : State := (at_ id); let dt : Nat := (0); let d : Dev := (s.dev.elapse dt); let h : Fin 2 := (0); let off : BitVec 27 := (0x500); 
    (d = s.dev.elapse dt) ∧ (d.panel.coreUp = true) ∧ (off.toNat < 0x100000) := by
  decide

theorem test_wit_CxlMemoryDeviceCommands_1 :
    let s : State := (at_ id); let dt : Nat := (0); let d : Dev := (s.dev.elapse dt); let h : Fin 2 := (0); 
    (d = s.dev.elapse dt) ∧ (d.cxlServes = true) := by
  decide

theorem test_wit_CxlMemoryDeviceCommands_2 :
    let s : State := (at_ id); let dt : Nat := (0); let d : Dev := (s.dev.elapse dt); let h : Fin 2 := (0); 
    (d = s.dev.elapse dt) ∧ (d.cxlServes = true) := by
  decide

theorem test_wit_CxlMemoryDeviceCommands_3 :
    let s : State := (at_ id); let dt : Nat := (0); let d : Dev := (s.dev.elapse dt); let h : Fin 2 := (0); 
    (d = s.dev.elapse dt) ∧ (d.answers = true) ∧ (d.pkg.bedrock = false) ∧ (d.sealing.active = false) ∧ (d.pkg.safe = 0) := by
  decide

theorem test_wit_CxlMemoryDeviceCommands_4 :
    let s : State := (at_ id); let dt : Nat := (0); let d : Dev := (s.dev.elapse dt); let h : Fin 2 := (0); 
    (d = s.dev.elapse dt) ∧ (d.cxlServes = true) := by
  decide

theorem test_wit_CxlMemoryDeviceCommands_5 :
    let s : State := (at_ id); let dt : Nat := (0); let d : Dev := (s.dev.elapse dt); let h : Fin 2 := (0); let cfg : BitVec 128 := (77); 
    (d = s.dev.elapse dt) ∧ (d.cxlServes = true) := by
  decide

theorem test_wit_CxlMemoryDeviceCommands_6 :
    let s : State := (at_ id); let dt : Nat := (0); let d : Dev := (s.dev.elapse dt); let h : Fin 2 := (0); 
    (d = s.dev.elapse dt) ∧ (d.cxlServes = true) := by
  decide

theorem test_wit_CxlMemoryDeviceCommands_7 :
    let s : State := (at_ id); let dt : Nat := (0); let d : Dev := (s.dev.elapse dt); let h : Fin 2 := (0); let v : BitVec 8 := (2); 
    (d = s.dev.elapse dt) ∧ (d.cxlServes = true) := by
  decide

theorem test_wit_CxlMemoryDeviceCommands_8 :
    let s : State := (at_ fun d => d.onHead 0 fun x => { x with poison := [{ dpa := 4096, len := 64 }] }); let dt : Nat := (0); let d : Dev := (s.dev.elapse dt); let h : Fin 2 := (0); let a : Nat := (0); let n : Nat := (8192); let rs : List PoisonRange := ([({ dpa := 4096, len := 64 } : PoisonRange)]); 
    (d = s.dev.elapse dt) ∧ (d.cxlServes = true) ∧ (rs = (d.head h.val).poison.filter (fun r : PoisonRange => decide (r.dpa < a + n) && decide (a < r.dpa + r.len))) := by
  decide

theorem test_wit_CxlMemoryDeviceCommands_9 :
    let s : State := (at_ fun d => d.onExpo fun e => { e with armed := [{ group := 0 }] }); let dt : Nat := (0); let d : Dev := (s.dev.elapse dt); let h : Fin 2 := (0); let dpa : BitVec 45 := (0x1040); 
    (d = s.dev.elapse dt) ∧ (d.cxlServes = true) ∧ (dpa.toNat % 64 = 0) ∧ (d.pageOpen h.val (dpa.toNat / 4096) = true) ∧ ((d.tile (d.pageTile (dpa.toNat / 4096))).isolated = false) ∧ (((d.holds { id := d.expo.nextReq, head := h.val, line := dpa.toNat / 64, write := true, data := 0, mask := BitVec.allOnes 64, arrive := d.now, cmd := 1 }).free = true)) ∧ (d.lineWaits (dpa.toNat / 64) true false false = false) := by
  decide

theorem test_wit_CxlMemoryDeviceCommands_10 :
    let s : State := (at_ id); let dt : Nat := (0); let d : Dev := (s.dev.elapse dt); let h : Fin 2 := (0); let dpa : BitVec 45 := (0x1041); 
    (d = s.dev.elapse dt) ∧ (d.cxlServes = true) ∧ ((dpa.toNat % 64 ≠ 0 ∨ d.pageOpen h.val (dpa.toNat / 4096) = false)) := by
  decide

theorem test_wit_CxlMemoryDeviceCommands_11 :
    let s : State := (at_ fun d => (d.onExpo fun e => { e with armed := [{ group := 0 }] }).storePoison 65); let dt : Nat := (0); let d : Dev := (s.dev.elapse dt); let h : Fin 2 := (0); let dpa : BitVec 45 := (0x1040); let data : BitVec 512 := (9); 
    (d = s.dev.elapse dt) ∧ (d.cxlServes = true) ∧ (dpa.toNat % 64 = 0) ∧ (d.pageOpen h.val (dpa.toNat / 4096) = true) ∧ ((d.tile (d.pageTile (dpa.toNat / 4096))).isolated = false) ∧ (((d.holds { id := d.expo.nextReq, head := h.val, line := dpa.toNat / 64, write := true, data := data, mask := BitVec.allOnes 64, arrive := d.now, cmd := 2 }).free = true)) ∧ (d.lineWaits (dpa.toNat / 64) true false false = false) := by
  decide

theorem test_wit_CxlMemoryDeviceCommands_12 :
    let s : State := (at_ id); let dt : Nat := (0); let d : Dev := (s.dev.elapse dt); let h : Fin 2 := (0); let dpa : BitVec 45 := (2 ^ 32); let data : BitVec 512 := (9); 
    (d = s.dev.elapse dt) ∧ (d.cxlServes = true) ∧ ((dpa.toNat % 64 ≠ 0 ∨ d.pageOpen h.val (dpa.toNat / 4096) = false)) := by
  decide

theorem test_wit_CxlMemoryDeviceCommands_13 :
    let s : State := (at_ fun d => d.onHead 0 fun x => { x with events := [{ log := 1, handle := 3 }, { log := 2, handle := 4 }] }); let dt : Nat := (0); let d : Dev := (s.dev.elapse dt); let h : Fin 2 := (0); let log : Fin 5 := (1); let es : List CxlEvent := ([({ log := 1, handle := 3 } : CxlEvent)]); 
    (d = s.dev.elapse dt) ∧ (d.cxlServes = true) ∧ (es = (d.head h.val).events.filter (fun x : CxlEvent => x.log == log.val)) := by
  decide

theorem test_wit_CxlMemoryDeviceCommands_14 :
    let s : State := (at_ fun d => d.onHead 0 fun x => { x with events := [{ log := 1, handle := 3 }, { log := 2, handle := 4 }] }); let dt : Nat := (0); let d : Dev := (s.dev.elapse dt); let h : Fin 2 := (0); let log : Fin 5 := (1); let all : Bool := (false); let hs : List Nat := ([3]); 
    (d = s.dev.elapse dt) ∧ (d.cxlServes = true) ∧ ((all = true ∨ ∀ k ∈ hs, ∃ x ∈ (d.head h.val).events, x.log = log.val ∧ x.handle = k)) := by
  decide

theorem test_wit_CxlMemoryDeviceCommands_15 :
    let s : State := (at_ fun d => d.onHead 0 fun x => { x with events := [{ log := 1, handle := 3 }, { log := 2, handle := 4 }] }); let dt : Nat := (0); let d : Dev := (s.dev.elapse dt); let h : Fin 2 := (0); let log : Fin 5 := (1); let hs : List Nat := ([4]); let k : Nat := (4); 
    (d = s.dev.elapse dt) ∧ (d.cxlServes = true) ∧ (k ∈ hs) ∧ ((∀ x : CxlEvent, x ∈ (d.head h.val).events → x.log = log.val → x.handle ≠ k)) := by
  decide

theorem test_wit_CxlMemoryDeviceCommands_16 :
    let s : State := (at_ id); let dt : Nat := (0); let d : Dev := (s.dev.elapse dt); let h : Fin 2 := (0); 
    (d = s.dev.elapse dt) ∧ (d.cxlServes = true) := by
  decide

theorem test_wit_CxlMemoryDeviceCommands_17 :
    let s : State := (at_ id); let dt : Nat := (0); let d : Dev := (s.dev.elapse dt); let h : Fin 2 := (0); let v : BitVec 40 := (5); 
    (d = s.dev.elapse dt) ∧ (d.cxlServes = true) := by
  decide

theorem test_wit_CxlMemoryDeviceCommands_18 :
    let s : State := (at_ id); let dt : Nat := (0); let d : Dev := (s.dev.elapse dt); let h : Fin 2 := (0); 
    (d = s.dev.elapse dt) ∧ (d.cxlServes = true) := by
  decide

theorem test_wit_CxlMemoryDeviceCommands_19 :
    let s : State := (at_ id); let dt : Nat := (0); let d : Dev := (s.dev.elapse dt); let h : Fin 2 := (0); let v : BitVec 64 := (5); 
    (d = s.dev.elapse dt) ∧ (d.cxlServes = true) := by
  decide

theorem test_wit_CxlMemoryDeviceCommands_20 :
    let s : State := (at_ id); let dt : Nat := (0); let d : Dev := (s.dev.elapse dt); let h : Fin 2 := (0); 
    (d = s.dev.elapse dt) ∧ (d.cxlServes = true) := by
  decide

theorem test_wit_CxlMemoryDeviceCommands_21 :
    let s : State := (at_ id); let dt : Nat := (0); let d : Dev := (s.dev.elapse dt); let h : Fin 2 := (0); let off : BitVec 32 := (4); let n : BitVec 32 := (8); 
    (d = s.dev.elapse dt) ∧ (d.cxlServes = true) ∧ (off.toNat + n.toNat ≤ effectsLog.length) ∧ (n.toNat ≤ 16384) := by
  decide

theorem test_wit_CxlMemoryDeviceCommands_22 :
    let s : State := (at_ id); let dt : Nat := (0); let d : Dev := (s.dev.elapse dt); let h : Fin 2 := (0); let log : BitVec 128 := (0); let off : BitVec 32 := (4); let n : BitVec 32 := (8); 
    (d = s.dev.elapse dt) ∧ (d.cxlServes = true) ∧ ((log ≠ celUuid ∨ effectsLog.length < off.toNat + n.toNat)) := by
  decide

theorem test_wit_CxlMemoryDeviceCommands_23 :
    let s : State := (at_ id); let dt : Nat := (0); let d : Dev := (s.dev.elapse dt); let h : Fin 2 := (0); 
    (d = s.dev.elapse dt) ∧ (d.cxlServes = true) := by
  decide

theorem test_wit_CxlMemoryDeviceCommands_24 :
    let s : State := (at_ id); let dt : Nat := (0); let d : Dev := (s.dev.elapse dt); let h : Fin 2 := (0); 
    (d = s.dev.elapse dt) ∧ (d.cxlServes = true) := by
  decide

theorem test_wit_CxlMemoryDeviceCommands_25 :
    let s : State := (at_ id); let dt : Nat := (0); let d : Dev := (s.dev.elapse dt); let h : Fin 2 := (0); 
    (d = s.dev.elapse dt) ∧ (d.cxlServes = true) := by
  decide

theorem test_wit_CxlMemoryDeviceCommands_26 :
    let s : State := (at_ fun d => d.onHead 0 fun x => { x with dcOffers := [{ context := 5, granules := [0, 1] }] }); let dt : Nat := (0); let d : Dev := (s.dev.elapse dt); let h : Fin 2 := (0); let gs : List Nat := ([1]); 
    (d = s.dev.elapse dt) ∧ (d.cxlServes = true) ∧ ((∀ g ∈ gs, ∃ o ∈ (d.head h.val).dcOffers, o.release = false ∧ g ∈ o.granules)) := by
  decide

theorem test_wit_CxlMemoryDeviceCommands_27 :
    let s : State := (at_ fun d => d.onHead 0 fun x => { x with dcOffers := [{ context := 5, granules := [0, 1] }] }); let dt : Nat := (0); let d : Dev := (s.dev.elapse dt); let h : Fin 2 := (0); let gs : List Nat := ([1, 3]); let g : Nat := (3); 
    (d = s.dev.elapse dt) ∧ (d.cxlServes = true) ∧ (g ∈ gs) ∧ ((∀ o : DcOffer, o ∈ (d.head h.val).dcOffers → o.release = false → g ∉ o.granules)) := by
  decide

theorem test_wit_CxlMemoryDeviceCommands_28 :
    let s : State := (at_ fun d => d.onHead 0 fun x => { x with extents := [(0, 5), (1, 5)] }); let dt : Nat := (0); let d : Dev := (s.dev.elapse dt); let h : Fin 2 := (0); let gs : List Nat := ([1]); 
    (d = s.dev.elapse dt) ∧ (d.cxlServes = true) ∧ ((∀ k ∈ gs, (d.gran k).valid = true ∧ (d.gran k).head = h.val + 1 ∧ d.granPend k = false ∧ ∃ x ∈ (d.head h.val).extents, x.1 = k)) := by
  decide

theorem test_wit_CxlMemoryDeviceCommands_29 :
    let s : State := (at_ id); let dt : Nat := (0); let d : Dev := (s.dev.elapse dt); let h : Fin 2 := (0); let gs : List Nat := ([9]); let k : Nat := (9); 
    (d = s.dev.elapse dt) ∧ (d.cxlServes = true) ∧ (k ∈ gs) ∧ ((d.gran k).valid = false) := by
  decide

theorem test_wit_CxlMemoryDeviceCommands_30 :
    let s : State := (at_ id); let dt : Nat := (0); let d : Dev := (s.dev.elapse dt); let h : Fin 2 := (0); 
    (d = s.dev.elapse dt) ∧ (d.answers = true) := by
  decide

theorem test_wit_CxlMemoryDeviceCommands_31 :
    let s : State := (at_ id); let dt : Nat := (0); let d : Dev := (s.dev.elapse dt); let h : Fin 2 := (0); 
    (d = s.dev.elapse dt) ∧ (d.answers = true) := by
  decide

theorem test_wit_CxlMemoryDeviceCommands_32 :
    let s : State := (at_ id); let dt : Nat := (0); let d : Dev := (s.dev.elapse dt); let h : Fin 2 := (0); 
    (d = s.dev.elapse dt) ∧ (d.answers = true) := by
  decide

theorem test_wit_CxlMemoryDeviceCommands_33 :
    let s : State := (at_ id); let dt : Nat := (0); let d : Dev := (s.dev.elapse dt); let h : Fin 2 := (0); 
    (d = s.dev.elapse dt) ∧ (d.answers = true) := by
  decide

theorem test_wit_CxlMemoryDeviceCommands_34 :
    let s : State := (at_ id); let dt : Nat := (0); let d : Dev := (s.dev.elapse dt); let h : Fin 2 := (0); 
    (d = s.dev.elapse dt) ∧ (d.answers = true) := by
  decide

theorem test_wit_CxlMemoryDeviceCommands_35 :
    let s : State := (at_ id); let dt : Nat := (0); let d : Dev := (s.dev.elapse dt); let h : Fin 2 := (0); 
    (d = s.dev.elapse dt) ∧ (d.answers = true) := by
  decide

theorem test_wit_SlateCommands_1 :
    let s : State := (at_ id); let dt : Nat := (0); let d : Dev := (s.dev.elapse dt); let t : Fin 8 := (1); let v : BitVec 64 := (0x6D2B); let fetch : Fin 3 := (2); let purpose : Fin 4 := (0); 
    (d = s.dev.elapse dt) ∧ ((d.sl t.val).keyStep = 0) ∧ (v.toNat % 65536 = 0x6D2B) := by
  decide

theorem test_wit_SlateCommands_2 :
    let s : State := (at_ fun d => d.onSl 1 fun x => { x with keyStep := 1, keyAt := 999999999999500 }); let dt : Nat := (0); let d : Dev := (s.dev.elapse dt); let t : Fin 8 := (1); let v : BitVec 64 := (0x92D4); let fetch : Fin 3 := (2); let purpose : Fin 4 := (0); 
    (d = s.dev.elapse dt) ∧ ((d.sl t.val).keyStep = 1) ∧ (v.toNat % 65536 = 0x92D4) ∧ (d.now - (d.sl t.val).keyAt ≤ 1000) := by
  decide

theorem test_wit_SlateCommands_3 :
    let s : State := (at_ fun d => d.onSl 1 fun x => { x with keyStep := 1, keyAt := 999999999998500 }); let dt : Nat := (0); let d : Dev := (s.dev.elapse dt); let t : Fin 8 := (1); let v : BitVec 64 := (0x92D4); let fetch : Fin 3 := (2); let purpose : Fin 4 := (0); 
    (d = s.dev.elapse dt) ∧ ((d.sl t.val).keyStep = 1) ∧ ((v.toNat % 65536 ≠ 0x92D4 ∨ 1000 < d.now - (d.sl t.val).keyAt)) := by
  decide

theorem test_wit_SlateCommands_4 :
    let s : State := (at_ fun d => d.onSl 1 fun x => { x with keyStep := 1, keyAt := 999999999999500 }); let dt : Nat := (0); let d : Dev := (s.dev.elapse dt); let t : Fin 8 := (1); let off : BitVec 7 := (0x18); let v : BitVec 64 := (5); let fetch : Fin 3 := (2); let purpose : Fin 4 := (0); 
    (d = s.dev.elapse dt) ∧ ((d.sl t.val).keyStep = 1) ∧ (off.toNat ≠ 8) ∧ ((d.sl t.val).seq = none) ∧ (off ≠ 0x48) := by
  decide

theorem test_wit_SlateCommands_5 :
    let s : State := (at_ id); let dt : Nat := (0); let d : Dev := (s.dev.elapse dt); let t : Fin 8 := (1); let v : BitVec 64 := (3); let fetch : Fin 3 := (2); let purpose : Fin 4 := (0); 
    (d = s.dev.elapse dt) ∧ ((d.sl t.val).keyStep = 0) := by
  decide

theorem test_wit_SlateCommands_6 :
    let s : State := (at_ fun d => d.onSl 1 fun x => { x with done := true, fail := true, underrun := true, rdErr := true, err := 4 }); let dt : Nat := (0); let d : Dev := (s.dev.elapse dt); let t : Fin 8 := (1); let v : BitVec 64 := (0xC2); let fetch : Fin 3 := (2); let purpose : Fin 4 := (0); 
    (d = s.dev.elapse dt) ∧ ((d.sl t.val).keyStep = 0) := by
  decide

theorem test_wit_SlateCommands_7 :
    let s : State := (at_ id); let dt : Nat := (0); let d : Dev := (s.dev.elapse dt); let t : Fin 8 := (1); let v : BitVec 64 := (0x19); let fetch : Fin 3 := (2); let purpose : Fin 4 := (0); 
    (d = s.dev.elapse dt) ∧ ((d.sl t.val).keyStep = 0) := by
  decide

theorem test_wit_SlateCommands_8 :
    let s : State := (at_ fun d => d.onSl 1 fun x => { x with keyStep := 2 }); let dt : Nat := (0); let d : Dev := (s.dev.elapse dt); let t : Fin 8 := (1); let code : BitVec 8 := (6); 
    (d = s.dev.elapse dt) ∧ ((d.sl t.val).keyStep = 2) ∧ ((d.sl t.val).seq = none) ∧ (1 ≤ code.toNat) ∧ (code.toNat ≤ 6) := by
  decide

theorem test_wit_SlateCommands_9 :
    let s : State := (at_ fun d => d.onSl 1 fun x => { x with keyStep := 2 }); let dt : Nat := (0); let d : Dev := (s.dev.elapse dt); let t : Fin 8 := (1); let code : BitVec 8 := (7); 
    (d = s.dev.elapse dt) ∧ ((d.sl t.val).keyStep = 2) ∧ ((d.sl t.val).seq = none) ∧ ((code.toNat = 0 ∨ 6 < code.toNat)) := by
  decide

theorem test_wit_SlateCommands_10 :
    let s : State := (at_ id); let dt : Nat := (0); let d : Dev := (s.dev.elapse dt); let t : Fin 8 := (1); let code : BitVec 8 := (2); 
    (d = s.dev.elapse dt) ∧ ((d.sl t.val).keyStep = 0) := by
  decide

theorem test_wit_SlateCommands_11 :
    let s : State := (at_ fun d => d.onSl 1 fun x => { x with keyStep := 2, seq := some 1, seqAt := 999999999950000 }); let dt : Nat := (0); let d : Dev := (s.dev.elapse dt); let t : Fin 8 := (1); let addr : BitVec 23 := (0xC0010); let data : BitVec 128 := (0x1234); let fetch : Fin 3 := (2); 
    (d = s.dev.elapse dt) ∧ ((d.sl t.val).keyStep = 2) ∧ ((d.sl t.val).seq = some 1) ∧ ((d.sl t.val).opIdx = 0) ∧ (d.now - (d.sl t.val).seqAt ≤ 100000) ∧ (d.opRefused t.val fetch.val 1 (addr.toNat) = none) := by
  decide

theorem test_wit_SlateCommands_12 :
    let s : State := (at_ fun d => d.onSl 1 fun x => { x with keyStep := 2, seq := some 1, seqAt := 999999999950000 }); let dt : Nat := (0); let d : Dev := (s.dev.elapse dt); let t : Fin 8 := (1); let addr : BitVec 23 := (0xC0010); let data : BitVec 128 := (0x1234); let fetch : Fin 3 := (0); let r : Nat := (2); 
    (d = s.dev.elapse dt) ∧ ((d.sl t.val).keyStep = 2) ∧ ((d.sl t.val).seq = some 1) ∧ ((d.sl t.val).opIdx = 0) ∧ (d.now - (d.sl t.val).seqAt ≤ 100000) ∧ (d.opRefused t.val fetch.val 1 addr.toNat = some r) := by
  decide

theorem test_wit_SlateCommands_13 :
    let s : State := (at_ fun d => d.onSl 1 fun x => { x with keyStep := 2, seq := some 1, seqAt := 5 }); let dt : Nat := (0); let d : Dev := (s.dev.elapse dt); let t : Fin 8 := (1); let addr : BitVec 23 := (0xC0010); let data : BitVec 128 := (0x1234); let fetch : Fin 3 := (2); 
    (d = s.dev.elapse dt) ∧ ((d.sl t.val).keyStep = 2) ∧ ((d.sl t.val).seq = some 1) ∧ (100000 < d.now - (d.sl t.val).seqAt) := by
  decide

theorem test_wit_SlateCommands_14 :
    let s : State := (at_ id); let dt : Nat := (0); let d : Dev := (s.dev.elapse dt); let t : Fin 8 := (1); let addr : BitVec 23 := (0xC0010); let data : BitVec 128 := (0x1234); let fetch : Fin 3 := (2); 
    (d = s.dev.elapse dt) ∧ ((d.sl t.val).keyStep = 0) ∧ ((d.sl t.val).seq = none) := by
  decide

theorem test_wit_SlateCommands_15 :
    let s : State := (at_ fun d => d.onSl 1 fun x => { x with keyStep := 2, seq := some 2, seqAt := 999999999950000 }); let dt : Nat := (0); let d : Dev := (s.dev.elapse dt); let t : Fin 8 := (1); let addr : BitVec 23 := (0xC0010); let fetch : Fin 3 := (2); let purpose : Fin 4 := (2); 
    (d = s.dev.elapse dt) ∧ ((d.sl t.val).keyStep = 2) ∧ ((d.sl t.val).seq = some 2) ∧ ((d.sl t.val).opIdx = 0) ∧ (d.now - (d.sl t.val).seqAt ≤ 100000) ∧ (d.opRefused t.val fetch.val 2 (addr.toNat) = none) ∧ (d.openIntent t.val (secOf addr.toNat) = none) ∧ (d.secUsed t.val (26 + (d.sl t.val).intentSector) ≤ 504) ∧ ((d.sl t.val).intentSector ≤ 1) := by
  decide

theorem test_wit_SlateCommands_16 :
    let s : State := (at_ fun d => d.onSl 1 fun x => { x with keyStep := 2, seq := some 3, seqAt := 999999999950000 }); let dt : Nat := (0); let d : Dev := (s.dev.elapse dt); let t : Fin 8 := (1); let addr : BitVec 23 := (0x400000); let fetch : Fin 3 := (0); 
    (d = s.dev.elapse dt) ∧ ((d.sl t.val).keyStep = 2) ∧ ((d.sl t.val).seq = some 3) ∧ ((d.sl t.val).opIdx = 0) ∧ (d.now - (d.sl t.val).seqAt ≤ 100000) ∧ (d.opRefused t.val fetch.val 3 (addr.toNat) = none) := by
  decide

theorem test_wit_SlateCommands_17 :
    let s : State := (at_ fun d => d.onSl 1 fun x => { x with keyStep := 2, seq := some 4, seqAt := 999999999950000 }); let dt : Nat := (0); let d : Dev := (s.dev.elapse dt); let t : Fin 8 := (1); let addr : BitVec 23 := (0x400000); let fetch : Fin 3 := (0); 
    (d = s.dev.elapse dt) ∧ ((d.sl t.val).keyStep = 2) ∧ ((d.sl t.val).seq = some 4) ∧ ((d.sl t.val).opIdx = 0) ∧ (d.now - (d.sl t.val).seqAt ≤ 100000) ∧ (d.opRefused t.val fetch.val 4 (addr.toNat) = none) := by
  decide

theorem test_wit_SlateCommands_18 :
    let s : State := (at_ fun d => d.onSl 1 fun x => { x with keyStep := 2, seq := some 6, seqAt := 999999999950000 }); let dt : Nat := (0); let d : Dev := (s.dev.elapse dt); let t : Fin 8 := (1); let addr : BitVec 23 := (0x400000); let fetch : Fin 3 := (0); 
    (d = s.dev.elapse dt) ∧ ((d.sl t.val).keyStep = 2) ∧ ((d.sl t.val).seq = some 6) ∧ ((d.sl t.val).opIdx = 0) ∧ (d.now - (d.sl t.val).seqAt ≤ 100000) ∧ (d.opRefused t.val fetch.val 6 (addr.toNat) = none) := by
  decide

theorem test_wit_SlateCommands_19 :
    let s : State := (at_ fun d => d.onSl 1 fun x => { x with keyStep := 2, seq := some 5, seqAt := 999999999950000, lines := [(secBase 29 / 16, swapBits 0 3)] }); let dt : Nat := (0); let d : Dev := (s.dev.elapse dt); let t : Fin 8 := (1); let addr : BitVec 23 := (1); let fetch : Fin 3 := (2); let sq : Nat := (3); let tw : Nat := (0); let slot : Nat := (1); 
    (d = s.dev.elapse dt) ∧ ((d.sl t.val).keyStep = 2) ∧ ((d.sl t.val).seq = some 5) ∧ ((d.sl t.val).opIdx = 0) ∧ (d.now - (d.sl t.val).seqAt ≤ 100000) ∧ (d.opRefused t.val fetch.val 5 (addr.toNat) = none) ∧ (d.newestSwap t.val = some (sq, tw, slot)) := by
  decide

theorem test_wit_SlateCommands_20 :
    let s : State := (at_ fun d => d.onSl 1 fun x => { x with keyStep := 2, seq := some 5, seqAt := 999999999950000 }); let dt : Nat := (0); let d : Dev := (s.dev.elapse dt); let t : Fin 8 := (1); let addr : BitVec 23 := (1); let fetch : Fin 3 := (2); 
    (d = s.dev.elapse dt) ∧ ((d.sl t.val).keyStep = 2) ∧ ((d.sl t.val).seq = some 5) ∧ ((d.sl t.val).opIdx = 0) ∧ (d.now - (d.sl t.val).seqAt ≤ 100000) ∧ (d.opRefused t.val fetch.val 5 (addr.toNat) = none) ∧ (d.newestSwap t.val = none) := by
  decide

theorem test_wit_SlateCommands_21 :
    let s : State := (at_ fun d => d.onSl 1 fun x => { x with keyStep := 2, seq := some 1, seqAt := 5 }); let dt : Nat := (0); let d : Dev := (s.dev.elapse dt); let t : Fin 8 := (1); let k : Nat := (1); 
    (d = s.dev.elapse dt) ∧ ((d.sl t.val).seq = some k) ∧ (100000 ≤ d.now - (d.sl t.val).seqAt) := by
  decide

theorem test_wit_SlateCommands_22 :
    let s : State := (at_ id); let dt : Nat := (0); let d : Dev := (s.dev.elapse dt); let t : Fin 8 := (1); let b : Fin 2 := (0); let ok : Bool := (true); let pulses : BitVec 6 := (0); let fail : BitVec 24 := (0); 
    (d = s.dev.elapse dt) ∧ (d.slOp t.val b.val = none) := by
  decide

theorem test_wit_SlateCommands_23 :
    let s : State := (at_ fun d => d.onSl 1 fun x => { x with ops := [(1, { code := 1, addr := 0x400020, data := 9 })] }); let dt : Nat := (0); let d : Dev := (s.dev.elapse dt); let t : Fin 8 := (1); let b : Fin 2 := (1); let o : SlateOp := (({ code := 1, addr := 0x400020, data := 9 } : SlateOp)); let pulses : BitVec 6 := (3); let fail : BitVec 24 := (0xFFFFFF); 
    (d = s.dev.elapse dt) ∧ (d.slOp t.val b.val = some o) ∧ (o.code = 1) := by
  decide

theorem test_wit_SlateCommands_24 :
    let s : State := (at_ fun d => d.onSl 1 fun x => { x with ops := [(1, { code := 1, addr := 0x400020, data := 9 })] }); let dt : Nat := (0); let d : Dev := (s.dev.elapse dt); let t : Fin 8 := (1); let b : Fin 2 := (1); let o : SlateOp := (({ code := 1, addr := 0x400020, data := 9 } : SlateOp)); let pulses : BitVec 6 := (3); let fail : BitVec 24 := (0xFFFFFF); 
    (d = s.dev.elapse dt) ∧ (d.slOp t.val b.val = some o) ∧ (o.code = 1) := by
  decide

theorem test_wit_SlateCommands_25 :
    let s : State := (at_ fun d => d.onSl 1 fun x => { x with ops := [(1, { code := 5, addr := 0x400020, data := 9 })] }); let dt : Nat := (0); let d : Dev := (s.dev.elapse dt); let t : Fin 8 := (1); let b : Fin 2 := (1); let o : SlateOp := (({ code := 5, addr := 0x400020, data := 9 } : SlateOp)); let pulses : BitVec 6 := (3); let fail : BitVec 24 := (0xFFFFFF); 
    (d = s.dev.elapse dt) ∧ (d.slOp t.val b.val = some o) ∧ (o.code = 5) := by
  decide

theorem test_wit_SlateCommands_26 :
    let s : State := (at_ fun d => d.onSl 1 fun x => { x with ops := [(1, { code := 2, addr := 0x400020, data := 9 })], lines := [(0x40000, 5), (0x48000, 6)] }); let dt : Nat := (0); let d : Dev := (s.dev.elapse dt); let t : Fin 8 := (1); let b : Fin 2 := (1); let o : SlateOp := (({ code := 2, addr := 0x400020, data := 9 } : SlateOp)); let pulses : BitVec 6 := (3); let fail : BitVec 24 := (0xFFFFFF); 
    (d = s.dev.elapse dt) ∧ (d.slOp t.val b.val = some o) ∧ (o.code = 2) ∧ ((d.sl t.val).refresh ≠ some (secOf o.addr)) ∧ (tget (d.sl t.val).counters 0 (secOf o.addr) < ratedCycles (secOf o.addr)) ∧ (secOf o.addr ≠ 26) ∧ (secOf o.addr ≠ 27) ∧ (d.secUsed t.val (26 + (d.sl t.val).intentSector) ≤ 504) ∧ ((d.sl t.val).intentSector ≤ 1) := by
  decide

theorem test_wit_SlateCommands_27 :
    let s : State := (at_ fun d => d.onSl 1 fun x => { x with ops := [(1, { code := 2, addr := 0x400020, data := 9 })] }); let dt : Nat := (0); let d : Dev := (s.dev.elapse dt); let t : Fin 8 := (1); let b : Fin 2 := (1); let o : SlateOp := (({ code := 2, addr := 0x400020, data := 9 } : SlateOp)); let pulses : BitVec 6 := (3); let fail : BitVec 24 := (0xFFFFFF); 
    (d = s.dev.elapse dt) ∧ (d.slOp t.val b.val = some o) ∧ (o.code = 2) := by
  decide

theorem test_wit_SlateCommands_28 :
    let s : State := (at_ fun d => d.onSl 1 fun x => { x with ops := [(1, { code := 3, addr := 0x400020, data := 9 })] }); let dt : Nat := (0); let d : Dev := (s.dev.elapse dt); let t : Fin 8 := (1); let b : Fin 2 := (1); let o : SlateOp := (({ code := 3, addr := 0x400020, data := 9 } : SlateOp)); let pulses : BitVec 6 := (3); 
    (d = s.dev.elapse dt) ∧ (d.slOp t.val b.val = some o) ∧ (o.code = 3) ∧ ((d.sl t.val).refresh = none) := by
  decide

theorem test_wit_SlateCommands_29 :
    let s : State := (at_ fun d => d.onSl 1 fun x => { x with ops := [(1, { code := 3, addr := 0x400020, data := 9 })] }); let dt : Nat := (0); let d : Dev := (s.dev.elapse dt); let t : Fin 8 := (1); let b : Fin 2 := (1); let o : SlateOp := (({ code := 3, addr := 0x400020, data := 9 } : SlateOp)); let pulses : BitVec 6 := (3); let fail : BitVec 24 := (0x400030); 
    (d = s.dev.elapse dt) ∧ (d.slOp t.val b.val = some o) ∧ (o.code = 3) ∧ ((d.sl t.val).refresh = none) ∧ (fail ≠ 0xFFFFFF) := by
  decide

theorem test_wit_SlateCommands_30 :
    let s : State := (at_ fun d => d.onSl 1 fun x => { x with ops := [(1, { code := 4, addr := 0x400020, data := 9 })] }); let dt : Nat := (0); let d : Dev := (s.dev.elapse dt); let t : Fin 8 := (1); let b : Fin 2 := (1); let o : SlateOp := (({ code := 4, addr := 0x400020, data := 9 } : SlateOp)); let pulses : BitVec 6 := (3); let fail : BitVec 24 := (0xFFFFFF); 
    (d = s.dev.elapse dt) ∧ (d.slOp t.val b.val = some o) ∧ (o.code = 4) := by
  decide

theorem test_wit_SlateCommands_31 :
    let s : State := (at_ fun d => d.onSl 1 fun x => { x with ops := [(1, { code := 6, addr := 0x400020, data := 9 })] }); let dt : Nat := (0); let d : Dev := (s.dev.elapse dt); let t : Fin 8 := (1); let b : Fin 2 := (1); let o : SlateOp := (({ code := 6, addr := 0x400020, data := 9 } : SlateOp)); let pulses : BitVec 6 := (3); let fail : BitVec 24 := (0xFFFFFF); 
    (d = s.dev.elapse dt) ∧ (d.slOp t.val b.val = some o) ∧ (o.code = 6) ∧ ((d.sl t.val).badSectors.contains (secOf o.addr) = false) ∧ (d.secContents t.val (secOf o.addr) = []) := by
  decide

theorem test_wit_SlateCommands_32 :
    let s : State := (at_ fun d => d.onSl 1 fun x => { x with ops := [(1, { code := 6, addr := 0x400020, data := 9 })], lines := [(0x40003, 5)] }); let dt : Nat := (0); let d : Dev := (s.dev.elapse dt); let t : Fin 8 := (1); let b : Fin 2 := (1); let o : SlateOp := (({ code := 6, addr := 0x400020, data := 9 } : SlateOp)); let pulses : BitVec 6 := (3); let fail : BitVec 24 := (0xFFFFFF); let x : Nat × BitVec 128 := ((0x40003, 5)); let r : Tbl (BitVec 128) := ([]); 
    (d = s.dev.elapse dt) ∧ (d.slOp t.val b.val = some o) ∧ (o.code = 6) ∧ (d.secContents t.val (secOf o.addr) = x :: r) ∧ ((d.sl t.val).badSectors.contains (secOf o.addr) = false) ∧ (x.1 < 0x80000) := by
  decide

theorem test_wit_SlateCommands_33 :
    let s : State := (at_ fun d => d.onSl 1 fun x => { x with ops := [(1, { code := 2, addr := 0x740000 })] }); let dt : Nat := (0); let d : Dev := (s.dev.elapse dt); let t : Fin 8 := (1); let b : Fin 2 := (1); let o : SlateOp := (({ code := 2, addr := 0x740000 } : SlateOp)); 
    (d = s.dev.elapse dt) ∧ ((d.sl t.val).keyStep = 0) ∧ (d.slOp t.val b.val = some o) ∧ (o.code = 2) ∧ (o.suspended = false) ∧ (o.suspReq = none) := by
  decide

theorem test_wit_SlateCommands_34 :
    let s : State := (at_ fun d => d.onSl 1 fun x => { x with ops := [(1, { code := 2, addr := 0x740000, suspReq := some 5 })] }); let dt : Nat := (0); let d : Dev := (s.dev.elapse dt); let t : Fin 8 := (1); let b : Fin 2 := (1); let o : SlateOp := (({ code := 2, addr := 0x740000, suspReq := some 5 } : SlateOp)); 
    (d = s.dev.elapse dt) ∧ (d.slOp t.val b.val = some o) ∧ (o.code = 2) ∧ (o.suspReq ≠ none) ∧ (o.held = false) := by
  decide

theorem test_wit_SlateCommands_35 :
    let s : State := (at_ fun d => d.onSl 1 fun x => { x with ops := [(1, { code := 2, addr := 0x740000, suspReq := some 5, held := true })] }); let dt : Nat := (0); let d : Dev := (s.dev.elapse dt); let t : Fin 8 := (1); let b : Fin 2 := (1); let o : SlateOp := (({ code := 2, addr := 0x740000, suspReq := some 5, held := true } : SlateOp)); 
    (d = s.dev.elapse dt) ∧ (d.slOp t.val b.val = some o) ∧ (o.code = 2) ∧ ((o.suspReq = none ∨ o.held = true)) := by
  decide

theorem test_wit_SlateCommands_36 :
    let s : State := (at_ fun d => d.onSl 1 fun x => { x with ops := [(1, { code := 2, addr := 0x740000, suspReq := some 5, held := true, resumedAt := 999999999000000 })] }); let dt : Nat := (0); let d : Dev := (s.dev.elapse dt); let t : Fin 8 := (1); let b : Fin 2 := (1); let o : SlateOp := (({ code := 2, addr := 0x740000, suspReq := some 5, held := true, resumedAt := 999999999000000 } : SlateOp)); 
    (d = s.dev.elapse dt) ∧ (d.slOp t.val b.val = some o) ∧ (o.code = 2) ∧ (o.held = true) := by
  decide

theorem test_wit_SlateCommands_37 :
    let s : State := (at_ fun d => d.onSl 1 fun x => { x with ops := [(3, { code := 2, addr := 0x740000, suspended := true, pulses := 4 })] }); let dt : Nat := (0); let d : Dev := (s.dev.elapse dt); let t : Fin 8 := (1); let b : Fin 2 := (1); let o : SlateOp := (({ code := 2, addr := 0x740000, suspended := true, pulses := 4 } : SlateOp)); 
    (d = s.dev.elapse dt) ∧ ((d.sl t.val).keyStep = 0) ∧ (d.slSusp t.val b.val = some o) ∧ (d.slOp t.val b.val = none) := by
  decide

theorem test_wit_SlateCommands_38 :
    let s : State := (at_ id); let dt : Nat := (0); let d : Dev := (s.dev.elapse dt); let t : Fin 8 := (1); 
    (d = s.dev.elapse dt) ∧ ((d.sl t.val).keyStep = 0) ∧ (d.slSusp t.val 0 = none) ∧ (d.slSusp t.val 1 = none) := by
  decide

theorem test_wit_SlateCommands_39 :
    let s : State := (at_ fun d => d.onSl 1 fun x => { x with tap := 9 }); let dt : Nat := (0); let d : Dev := (s.dev.elapse dt); let t : Fin 8 := (1); 
    (d = s.dev.elapse dt) := by
  decide

theorem test_wit_SlateCommands_40 :
    let s : State := (at_ fun d => d.onSl 1 fun x => { x with tap := 9 }); let dt : Nat := (0); let d : Dev := (s.dev.elapse dt); let t : Fin 8 := (1); 
    (d = s.dev.elapse dt) := by
  decide

theorem test_wit_SlateCommands_41 :
    let s : State := (at_ fun d => d.onSl 1 fun x => { x with tap := 9 }); let dt : Nat := (0); let d : Dev := (s.dev.elapse dt); let t : Fin 8 := (1); 
    (d = s.dev.elapse dt) := by
  decide

theorem test_wit_SlateCommands_42 :
    let s : State := (at_ fun d => (d.onSealing fun x => { x with active := true, stage := 2 }).onSl 1 fun x => { x with pend := [0x62], recs := [(0x62, { typ := 0x62, rseq := 4, sector := 4, len := 3 })] }); let dt : Nat := (0); let d : Dev := (s.dev.elapse dt); let t : Fin 8 := (1); let typ : Nat := (0x62); let len : Nat := (3); let p : Nat := (1); let a : Nat := (4); let b : Nat := (5); let target : Nat := (5); let cur : ParamRec := (({ typ := 0x62, rseq := 4, sector := 4, len := 3 } : ParamRec)); 
    (d = s.dev.elapse dt) ∧ (typ ∈ (d.sl t.val).pend) ∧ (d.recMay = true) ∧ (1 ≤ len) ∧ (d.upd.keepOld = false) ∧ (d.slBusy t.val 0 = false) ∧ (p = pairOf typ) ∧ (a = d.secPhys t.val (2 + 2 * p)) ∧ (b = d.secPhys t.val (3 + 2 * p)) ∧ (cur = tget (d.sl t.val).recs {} typ) ∧ (target = (if cur.rseq ≠ 0 ∧ cur.sector = a then b else a)) ∧ ((∀ x ∈ d.intents t.val, x.ltype ≠ 0x52)) ∧ (d.secReady t.val target (maxBy ((d.sl t.val).recs.filter (fun r : Nat × ParamRec => pairOf r.1 == p)) len (fun r : Nat × ParamRec => r.2.len)) = true) := by
  decide

theorem test_wit_SlateCommands_43 :
    let s : State := (at_ id); let dt : Nat := (0); let d : Dev := (s.dev.elapse dt); let t : Fin 8 := (1); let typ : Nat := (0x62); let len : Nat := (3); 
    (d = s.dev.elapse dt) ∧ ((typ ∉ (d.sl t.val).pend ∨ d.recMay = false)) := by
  decide

theorem test_wit_SlateCommands_44 :
    let s : State := (at_ fun _ => full); let dt : Nat := (0); let d : Dev := (s.dev.elapse dt); let t : Fin 8 := (1); let k : Nat := (0); let o : Nat := (1); 
    (d = s.dev.elapse dt) ∧ (k = (d.sl t.val).storeSector) ∧ (o = d.storeNext t.val k) ∧ (16384 - d.secUsed t.val (0x3C + k) < 6144) ∧ (o ≠ k) ∧ (d.secUsed t.val (0x3C + o) ≠ 0) ∧ (d.slBusy t.val 1 = false) := by
  intro s dt d t k o
  have h1 : 10241 ≤ d.secUsed t.val (0x3C + k) := full_es0
  have h2 : d.secUsed t.val (0x3C + o) ≠ 0 := full_es1
  exact ⟨rfl, rfl, rfl, by omega, by decide, h2, rfl⟩

theorem test_wit_SlateCommands_45 :
    let s : State := (at_ id); let dt : Nat := (0); let d : Dev := (s.dev.elapse dt); let t : Fin 8 := (1); 
    (d = s.dev.elapse dt) ∧ (6144 ≤ 16384 - d.secUsed t.val (0x3C + (d.sl t.val).storeSector)) := by
  decide

theorem test_wit_SlateCommands_46 :
    let s : State := (at_ fun d => d.onSl 1 fun x => { x with refresh := some 7 }); let dt : Nat := (0); let d : Dev := (s.dev.elapse dt); let t : Fin 8 := (1); let k : Fin 63 := (3); let bad : Bool := (true); 
    (d = s.dev.elapse dt) ∧ ((d.refreshMay = false ∨ (d.sl t.val).refresh ≠ none)) := by
  decide

theorem test_wit_SlateCommands_47 :
    let s : State := (at_ fun d => ((d.onQtz fun q => { q with count := 200000000000000000 }).onUpd fun u => { u with recs := [(1, { stateA := 1, stateB := 1 })] }).onSl 1 fun x => { x with lines := [(0x40001, 5)] }); let dt : Nat := (0); let d : Dev := (s.dev.elapse dt); let t : Fin 8 := (1); let k : Fin 63 := (0x2F); let bad : Bool := (false); 
    (d = s.dev.elapse dt) ∧ (d.refreshMay = true) ∧ ((d.sl t.val).refresh = none) ∧ (d.slBusy t.val (slateBank (secBase k.val)) = false) ∧ (fiveYears < d.now - tget (d.sl t.val).lastErase 0 k.val) ∧ (0x22 ≤ k.val) ∧ (k.val < 0x3C) ∧ ((if k.val < 0x2F then (d.urec t.val).stateB else (d.urec t.val).stateA) = 1) := by
  decide

theorem test_wit_SlateCommands_48 :
    let s : State := (at_ fun d => ((d.onQtz fun q => { q with count := 200000000000000000 }).onUpd fun u => { u with recs := [(1, { stateA := 4, stateB := 1 })] }).onSl 1 fun x => { x with lines := [(0x40001, 5)] }); let dt : Nat := (0); let d : Dev := (s.dev.elapse dt); let t : Fin 8 := (1); let k : Fin 63 := (0x2F); let bad : Bool := (false); 
    (d = s.dev.elapse dt) ∧ (d.refreshMay = true) ∧ ((d.sl t.val).refresh = none) ∧ (d.slBusy t.val (slateBank (secBase k.val)) = false) ∧ (fiveYears < d.now - tget (d.sl t.val).lastErase 0 k.val) ∧ (0x22 ≤ k.val) ∧ (k.val < 0x3C) ∧ ((if k.val < 0x2F then (d.urec t.val).stateB else (d.urec t.val).stateA) ≠ 1) := by
  decide

theorem test_wit_UpdateAndBedrockCommands_1 :
    let s : State := (at_ id); let dt : Nat := (0); let d : Dev := (s.dev.elapse dt); let h : Fin 2 := (0); let slot : BitVec 8 := (2); let data : List Byte := (img); let dig : Nat := (77); let facts : BitVec 4 := (15); let k : Nat := (1); 
    (d = s.dev.elapse dt) ∧ (d.cxlServes = true) ∧ ((∀ t : Nat, t < 8 → (d.tile t).supvOk = true)) ∧ (k = slot.toNat - 1) ∧ (1 ≤ slot.toNat) ∧ (slot.toNat ≤ 2) ∧ (k ≠ d.runSlot) ∧ (512 ≤ data.length) ∧ (data.length ≤ 16256) ∧ (d.lrec.owner = 255) ∧ (d.imgReason (parseHdr data) facts d.floorPkg false false = 0) ∧ (data.length < (parseHdr data).fileLen) ∧ ((d.lrec.state k ≠ 2 ∨ d.lrec.hdrDig ≠ dig)) := by
  decide

theorem test_wit_UpdateAndBedrockCommands_2 :
    let s : State := (at_ fun d => d.onUpd fun u => { u with recs := [(0, { stateB := 2, hdrDig := 77, committed := 65536 })] }); let dt : Nat := (0); let d : Dev := (s.dev.elapse dt); let h : Fin 2 := (0); let slot : BitVec 8 := (2); let data : List Byte := ((img.take 16) ++ leBytes 4 0x20000 ++ img.drop 20); let dig : Nat := (77); let facts : BitVec 4 := (15); let k : Nat := (1); 
    (d = s.dev.elapse dt) ∧ (d.cxlServes = true) ∧ ((∀ t : Nat, t < 8 → (d.tile t).supvOk = true)) ∧ (k = slot.toNat - 1) ∧ (1 ≤ slot.toNat) ∧ (slot.toNat ≤ 2) ∧ (k ≠ d.runSlot) ∧ (512 ≤ data.length) ∧ (data.length ≤ 16256) ∧ (d.lrec.owner = 255) ∧ (d.imgReason (parseHdr data) facts d.floorPkg false false = 0) ∧ (data.length < d.lrec.committed) ∧ (d.lrec.committed < (parseHdr data).fileLen) ∧ (d.lrec.state k = 2) ∧ (d.lrec.hdrDig = dig) := by
  decide

theorem test_wit_UpdateAndBedrockCommands_3 :
    let s : State := (at_ id); let dt : Nat := (0); let d : Dev := (s.dev.elapse dt); let h : Fin 2 := (0); let slot : BitVec 8 := (2); let data : List Byte := (img); let dig : Nat := (77); let facts : BitVec 4 := (13); let k : Nat := (1); 
    (d = s.dev.elapse dt) ∧ (d.cxlServes = true) ∧ ((∀ t : Nat, t < 8 → (d.tile t).supvOk = true)) ∧ (k = slot.toNat - 1) ∧ (1 ≤ slot.toNat) ∧ (slot.toNat ≤ 2) ∧ (k ≠ d.runSlot) ∧ (512 ≤ data.length) ∧ (data.length ≤ 16256) ∧ (d.lrec.owner = 255) ∧ (d.imgReason (parseHdr data) facts d.floorPkg false false ≠ 0) := by
  decide

theorem test_wit_UpdateAndBedrockCommands_4 :
    let s : State := (at_ fun d => d.onUpd fun u => { u with recs := [(0, { owner := 2 })] }); let dt : Nat := (0); let d : Dev := (s.dev.elapse dt); let h : Fin 2 := (0); let slot : BitVec 8 := (2); let data : List Byte := (img); let dig : Nat := (77); let facts : BitVec 4 := (15); let k : Nat := (1); 
    (d = s.dev.elapse dt) ∧ (d.cxlServes = true) ∧ ((∀ t : Nat, t < 8 → (d.tile t).supvOk = true)) ∧ (k = slot.toNat - 1) ∧ (1 ≤ slot.toNat) ∧ (slot.toNat ≤ 2) ∧ (k ≠ d.runSlot) ∧ (512 ≤ data.length) ∧ (data.length ≤ 16256) ∧ (d.lrec.owner ≠ 255) ∧ ((d.lease 0x4003).acquired + 1000 ≤ d.now) := by
  decide

theorem test_wit_UpdateAndBedrockCommands_5 :
    let s : State := (at_ id); let dt : Nat := (0); let d : Dev := (s.dev.elapse dt); let h : Fin 2 := (0); let slot : BitVec 8 := (1); let data : List Byte := (img); let dig : Nat := (77); let facts : BitVec 4 := (15); let action : Fin 5 := (1); let off : BitVec 32 := (0); 
    (d = s.dev.elapse dt) ∧ (d.cxlServes = true) ∧ (action ≠ 4) ∧ (slot.toNat - 1 = d.runSlot) := by
  decide

theorem test_wit_UpdateAndBedrockCommands_6 :
    let s : State := (at_ fun d => d.onUpd fun u => { u with recs := [(0, { owner := 0, stateB := 2 })], xfer := { active := true, slot := 1, by_ := 0, hdr := parseHdr img, durable := 512 } }); let dt : Nat := (0); let d : Dev := (s.dev.elapse dt); let h : Fin 2 := (0); let slot : BitVec 8 := (2); let off : BitVec 32 := (4); let data : List Byte := (List.replicate 32 9); let dig : Nat := (0); let facts : BitVec 4 := (0); let k : Nat := (1); 
    (d = s.dev.elapse dt) ∧ (d.cxlServes = true) ∧ ((∀ t : Nat, t < 8 → (d.tile t).supvOk = true)) ∧ (k = slot.toNat - 1) ∧ (1 ≤ slot.toNat) ∧ (slot.toNat ≤ 2) ∧ (k ≠ d.runSlot) ∧ (data.length ≤ 16256) ∧ (d.lrec.owner = h.val) ∧ (d.upd.xfer.active = true) ∧ (d.upd.xfer.pldm = false) ∧ (d.upd.xfer.slot = k) ∧ (d.upd.xfer.ended = false) ∧ (d.upd.xfer.chunkAt = none) ∧ (off.toNat * 128 = d.upd.xfer.durable) ∧ (0 < data.length) ∧ (d.upd.xfer.durable + data.length ≤ d.upd.xfer.hdr.fileLen) := by
  decide

theorem test_wit_UpdateAndBedrockCommands_7 :
    let s : State := (at_ fun d => d.onUpd fun u => { u with recs := [(0, { owner := 0, stateB := 2 })], xfer := { active := true, slot := 1, by_ := 0, hdr := parseHdr img, durable := 512 } }); let dt : Nat := (0); let d : Dev := (s.dev.elapse dt); let h : Fin 2 := (0); let slot : BitVec 8 := (2); let off : BitVec 32 := (4); let data : List Byte := (List.replicate 64 9); let dig : Nat := (0); let facts : BitVec 4 := (0); let k : Nat := (1); 
    (d = s.dev.elapse dt) ∧ (d.cxlServes = true) ∧ ((∀ t : Nat, t < 8 → (d.tile t).supvOk = true)) ∧ (k = slot.toNat - 1) ∧ (1 ≤ slot.toNat) ∧ (slot.toNat ≤ 2) ∧ (k ≠ d.runSlot) ∧ (data.length ≤ 16256) ∧ (d.lrec.owner = h.val) ∧ (d.upd.xfer.active = true) ∧ (d.upd.xfer.pldm = false) ∧ (d.upd.xfer.slot = k) ∧ (d.upd.xfer.ended = false) ∧ (d.upd.xfer.chunkAt = none) ∧ (off.toNat * 128 = d.upd.xfer.durable) ∧ (0 < data.length) ∧ (d.upd.xfer.durable + data.length = d.upd.xfer.hdr.fileLen) := by
  decide

theorem test_wit_UpdateAndBedrockCommands_8 :
    let s : State := (at_ fun d => d.onUpd fun u => { u with recs := [(0, { owner := 0, stateB := 2 })], xfer := { active := true, slot := 1, by_ := 0, hdr := parseHdr img, durable := 512 } }); let dt : Nat := (0); let d : Dev := (s.dev.elapse dt); let h : Fin 2 := (0); let slot : BitVec 8 := (2); let off : BitVec 32 := (1); let data : List Byte := (List.replicate 32 9); let dig : Nat := (0); let facts : BitVec 4 := (0); let k : Nat := (1); 
    (d = s.dev.elapse dt) ∧ (d.cxlServes = true) ∧ ((∀ t : Nat, t < 8 → (d.tile t).supvOk = true)) ∧ (k = slot.toNat - 1) ∧ (1 ≤ slot.toNat) ∧ (slot.toNat ≤ 2) ∧ (k ≠ d.runSlot) ∧ (data.length ≤ 16256) ∧ (d.lrec.owner = h.val) ∧ (d.upd.xfer.active = true) ∧ (d.upd.xfer.pldm = false) ∧ (d.upd.xfer.slot = k) ∧ (d.upd.xfer.ended = false) ∧ (d.upd.xfer.chunkAt = none) ∧ (off.toNat * 128 + data.length ≤ d.upd.xfer.durable) ∧ (d.upd.xfer.durable ≤ d.upd.xfer.hdr.fileLen) := by
  decide

theorem test_wit_UpdateAndBedrockCommands_9 :
    let s : State := (at_ fun d => d.onUpd fun u => { u with recs := [(0, { owner := 0, stateB := 2 })], xfer := { active := true, slot := 1, by_ := 0, hdr := parseHdr img, durable := 512 } }); let dt : Nat := (0); let d : Dev := (s.dev.elapse dt); let h : Fin 2 := (0); let slot : BitVec 8 := (2); let off : BitVec 32 := (0); let data : List Byte := ([]); let dig : Nat := (0); let facts : BitVec 4 := (0); 
    (d = s.dev.elapse dt) ∧ (d.cxlServes = true) ∧ (d.lrec.owner = h.val) ∧ (d.lrec.trySlot = none) := by
  decide

theorem test_wit_UpdateAndBedrockCommands_10 :
    let s : State := (at_ fun d => d.onUpd fun u => { u with recs := [(0, { owner := 0, stateB := 2 })], xfer := { active := true, slot := 1, by_ := 0, hdr := parseHdr img, durable := 512, chunkAt := some 512, chunkLen := 32, chunk := List.replicate 32 9, erased := true } }); let dt : Nat := (0); let d : Dev := (s.dev.elapse dt); let x : Xfer := (({ active := true, slot := 1, by_ := 0, hdr := parseHdr img, durable := 512, chunkAt := some 512, chunkLen := 32, chunk := List.replicate 32 9, erased := true } : Xfer)); let off : Nat := (512); 
    (d = s.dev.elapse dt) ∧ (d.sealing.active = false) ∧ (x = d.upd.xfer) ∧ (x.chunkAt = some off) ∧ (x.erased = true) ∧ (x.durable = off) ∧ (0 < x.chunkLen) ∧ (x.chunk.length = x.chunkLen) ∧ (x.pldm = false) ∧ (x.ended = false) ∧ (off + x.chunkLen < 512 + x.hdr.mainLen) ∧ ((off + x.chunkLen) / 65536 * 65536 ≤ d.lrec.committed) := by
  decide

theorem test_wit_UpdateAndBedrockCommands_11 :
    let s : State := (at_ fun d => d.onUpd fun u => { u with recs := [(0, { owner := 0, stateB := 2 })], xfer := { active := true, slot := 1, by_ := 0, hdr := parseHdr img, durable := 512, chunkAt := some 512, chunkLen := 64, chunk := List.replicate 64 9, erased := true, ended := true } }); let dt : Nat := (0); let d : Dev := (s.dev.elapse dt); let x : Xfer := (({ active := true, slot := 1, by_ := 0, hdr := parseHdr img, durable := 512, chunkAt := some 512, chunkLen := 64, chunk := List.replicate 64 9, erased := true, ended := true } : Xfer)); let off : Nat := (512); 
    (d = s.dev.elapse dt) ∧ (d.sealing.active = false) ∧ (x = d.upd.xfer) ∧ (x.chunkAt = some off) ∧ (x.erased = true) ∧ (x.durable ≤ off + x.chunkLen) ∧ (x.pldm = false) ∧ (x.ended = true) ∧ (x.hdr.fileLen = off + x.chunkLen) ∧ (d.lrec.committed < x.hdr.fileLen) := by
  decide

theorem test_wit_UpdateAndBedrockCommands_12 :
    let s : State := (at_ id); let dt : Nat := (0); let d : Dev := (s.dev.elapse dt); 
    (d = s.dev.elapse dt) ∧ ((d.sealing.active = true ∨ d.upd.xfer.chunkAt = none)) := by
  decide

theorem test_wit_UpdateAndBedrockCommands_13 :
    let s : State := (at_ fun d => (tiles8.foldl (fun d t => d.slatePut t 0x400000 img) d).onUpd fun u => { u with recs := [(0, { owner := 0, stateB := 2 })], xfer := { active := true, slot := 1, by_ := 0, hdr := parseHdr img, durable := 576, erased := true, ended := true } }); let dt : Nat := (0); let d : Dev := (s.dev.elapse dt); let x : Xfer := (({ active := true, slot := 1, by_ := 0, hdr := parseHdr img, durable := 576, erased := true, ended := true } : Xfer)); let facts : List (BitVec 4) := (List.replicate 8 15); 
    (d = s.dev.elapse dt) ∧ (d.sealing.active = false) ∧ (x = d.upd.xfer) ∧ (x.active = true) ∧ (x.ended = true) ∧ (x.chunkAt = none) ∧ (x.pldm = false) ∧ (x.by_ < 2) ∧ (x.hdr.flags.getLsbD 0 = false) ∧ ((∀ t : Nat, t < 8 → d.imgReason (d.slateHdr t (slotBase x.slot)) (facts.getD t 0) (tget d.upd.floor 0 t) true false = 0)) := by
  decide

theorem test_wit_UpdateAndBedrockCommands_14 :
    let s : State := (at_ fun d => d.onUpd fun u => { u with recs := [(0, { owner := 0, stateB := 2 })], xfer := { active := true, slot := 1, by_ := 0, hdr := parseHdr img, durable := 576, erased := true, ended := true } }); let dt : Nat := (0); let d : Dev := (s.dev.elapse dt); let x : Xfer := (({ active := true, slot := 1, by_ := 0, hdr := parseHdr img, durable := 576, erased := true, ended := true } : Xfer)); let facts : List (BitVec 4) := (List.replicate 8 15); let t0 : Nat := (3); 
    (d = s.dev.elapse dt) ∧ (d.sealing.active = false) ∧ (x = d.upd.xfer) ∧ (x.active = true) ∧ (x.ended = true) ∧ (x.chunkAt = none) ∧ (x.pldm = false) ∧ (x.by_ < 2) ∧ (x.hdr.flags.getLsbD 0 = false) ∧ (t0 < 8) ∧ (d.imgReason (d.slateHdr t0 (slotBase x.slot)) (facts.getD t0 0) (tget d.upd.floor 0 t0) true false ≠ 0) ∧ (d.lrec.owner ≠ 255) := by
  decide

theorem test_wit_UpdateAndBedrockCommands_15 :
    let s : State := (at_ id); let dt : Nat := (0); let d : Dev := (s.dev.elapse dt); let facts : List (BitVec 4) := ([]); 
    (d = s.dev.elapse dt) ∧ (d.upd.xfer.ended = false) := by
  decide

theorem test_wit_UpdateAndBedrockCommands_16 :
    let s : State := (at_ fun d => d.onUpd fun u => { u with recs := [(0, { owner := 0, stateB := 2 })], xfer := { active := true, slot := 1, by_ := 0, hdr := parseHdr img } }); let dt : Nat := (0); let d : Dev := (s.dev.elapse dt); 
    (d = s.dev.elapse dt) ∧ (d.lrec.owner ≠ 255) ∧ (d.lrec.trySlot = none) ∧ (d.upd.xfer.last + 1800000000000 ≤ d.now) ∧ ((d.lease 0x4003).last + 1800000000000 ≤ d.now) := by
  decide

theorem test_wit_UpdateAndBedrockCommands_17 :
    let s : State := (at_ id); let dt : Nat := (0); let d : Dev := (s.dev.elapse dt); 
    (d = s.dev.elapse dt) ∧ ((d.lrec.owner = 255 ∨ d.lrec.trySlot ≠ none ∨ d.now < d.upd.xfer.last + 1800000000000)) := by
  decide

theorem test_wit_UpdateAndBedrockCommands_18 :
    let s : State := (at_ id); let dt : Nat := (0); let d : Dev := (s.dev.elapse dt); let eid : Nat := (0); let mx : Nat := (1024); 
    (d = s.dev.elapse dt) ∧ (d.answers = true) ∧ (d.pkg.bedrock = false) ∧ (eid = d.jcs.sbEid) ∧ (d.updBar = 0) ∧ (d.lrec.owner = 255) := by
  decide

theorem test_wit_UpdateAndBedrockCommands_19 :
    let s : State := (at_ fun d => d.onUpd fun u => { u with recs := [(0, { owner := 0, stateB := 2 })], xfer := { active := true, slot := 1, by_ := 0, hdr := parseHdr img } }); let dt : Nat := (0); let d : Dev := (s.dev.elapse dt); let eid : Nat := (0); let mx : Nat := (1024); 
    (d = s.dev.elapse dt) ∧ (d.answers = true) ∧ (d.pkg.bedrock = false) ∧ (eid = d.jcs.sbEid) ∧ (d.updBar = 0) ∧ (d.lrec.owner ≠ 255) ∧ ((d.lease 0x4003).acquired + 1000 ≤ d.now) := by
  decide

theorem test_wit_UpdateAndBedrockCommands_20 :
    let s : State := (at_ fun d => (d.onJcs fun j => { j with leases := [(0x4003, { holder := 1, acquired := 999999999999500 })] }).onUpd fun u => { u with recs := tiles8.map fun t => (t, { owner := 1, stateB := 2 }), xfer := { active := true, slot := 1, by_ := 1, chunkAt := some 0, chunk := [9], prev := some (0, 5, 0) } }); let dt : Nat := (0); let d : Dev := (s.dev.elapse dt); let eid : Nat := (0); let mx : Nat := (1024); let h : Nat := (1); let st : Nat := (0); let dig : Nat := (5); let com : Nat := (0); 
    (d = s.dev.elapse dt) ∧ (d.answers = true) ∧ (d.pkg.bedrock = false) ∧ (eid = d.jcs.sbEid) ∧ (d.updBar = 0) ∧ (d.lrec.owner = h) ∧ (h < 2) ∧ (d.now < (d.lease 0x4003).acquired + 1000) ∧ (d.upd.xfer.active = true) ∧ (d.upd.xfer.pldm = false) ∧ (d.upd.xfer.chunkAt ≠ none) ∧ (d.upd.xfer.ended = false) ∧ (d.upd.xfer.slot ≤ 1) ∧ (d.upd.xfer.prev = some (st, dig, com)) ∧ ((∀ t : Nat, t < 8 → thas d.upd.recs t = true)) := by
  decide

theorem test_wit_UpdateAndBedrockCommands_21 :
    let s : State := (at_ id); let dt : Nat := (0); let d : Dev := (s.dev.elapse dt); let eid : Nat := (9); let mx : Nat := (1024); 
    (d = s.dev.elapse dt) ∧ (d.answers = true) ∧ (d.pkg.bedrock = false) ∧ (eid ≠ d.jcs.sbEid) := by
  decide

theorem test_wit_UpdateAndBedrockCommands_22 :
    let s : State := (at_ fun d => d.onUpd fun u => { u with recs := [(0, { owner := 2 })], xfer := { active := true, pldm := true, slot := 1 } }); let dt : Nat := (0); let d : Dev := (s.dev.elapse dt); let data : List Byte := ([1, 2]); let dig : Nat := (0); let facts : BitVec 4 := (0); 
    (d = s.dev.elapse dt) ∧ (d.answers = true) ∧ (d.pkg.bedrock = false) ∧ (d.updBar = 0) ∧ (d.upd.xfer.active = true) ∧ (d.upd.xfer.pldm = true) ∧ (d.upd.xfer.ended = false) ∧ (d.upd.xfer.chunkAt = none) ∧ (data ≠ []) ∧ (d.upd.xfer.hdr.magic = 0) ∧ (d.upd.xfer.hdrBuf.length + (data.take d.upd.xfer.maxReq).length < 512) := by
  decide

theorem test_wit_UpdateAndBedrockCommands_23 :
    let s : State := (at_ fun d => d.onUpd fun u => { u with recs := [(0, { owner := 2 })], xfer := { active := true, pldm := true, slot := 1 } }); let dt : Nat := (0); let d : Dev := (s.dev.elapse dt); let data : List Byte := (img); let dig : Nat := (8); let facts : BitVec 4 := (15); let buf : List Byte := (img); 
    (d = s.dev.elapse dt) ∧ (d.answers = true) ∧ (d.pkg.bedrock = false) ∧ (d.updBar = 0) ∧ (d.upd.xfer.active = true) ∧ (d.upd.xfer.pldm = true) ∧ (d.upd.xfer.ended = false) ∧ (d.upd.xfer.chunkAt = none) ∧ (data ≠ []) ∧ (d.upd.xfer.hdr.magic = 0) ∧ (buf = d.upd.xfer.hdrBuf ++ data.take d.upd.xfer.maxReq) ∧ (512 ≤ buf.length) ∧ (d.imgReason (parseHdr buf) facts d.floorPkg false false = 0) ∧ (d.upd.xfer.slot ≤ 1) ∧ ((d.lrec.state d.upd.xfer.slot ≠ 2 ∨ d.lrec.hdrDig ≠ dig)) := by
  decide

theorem test_wit_UpdateAndBedrockCommands_24 :
    let s : State := (at_ fun d => d.onUpd fun u => { u with recs := [(0, { owner := 2 })], xfer := { active := true, pldm := true, slot := 1 } }); let dt : Nat := (0); let d : Dev := (s.dev.elapse dt); let data : List Byte := (img); let dig : Nat := (8); let facts : BitVec 4 := (13); let buf : List Byte := (img); let r : Nat := (3); 
    (d = s.dev.elapse dt) ∧ (d.answers = true) ∧ (d.pkg.bedrock = false) ∧ (d.updBar = 0) ∧ (d.upd.xfer.active = true) ∧ (d.upd.xfer.pldm = true) ∧ (d.upd.xfer.ended = false) ∧ (d.upd.xfer.chunkAt = none) ∧ (data ≠ []) ∧ (d.upd.xfer.hdr.magic = 0) ∧ (buf = d.upd.xfer.hdrBuf ++ data.take d.upd.xfer.maxReq) ∧ (512 ≤ buf.length) ∧ (r = d.imgReason (parseHdr buf) facts d.floorPkg false false) ∧ (r ≠ 0) ∧ (d.lrec.owner = 2) := by
  decide

theorem test_wit_UpdateAndBedrockCommands_25 :
    let s : State := (at_ fun d => d.onUpd fun u => { u with recs := [(0, { owner := 2 })], xfer := { active := true, pldm := true, slot := 1, hdr := parseHdr img, durable := 512 } }); let dt : Nat := (0); let d : Dev := (s.dev.elapse dt); let data : List Byte := ([1, 2]); let dig : Nat := (0); let facts : BitVec 4 := (0); 
    (d = s.dev.elapse dt) ∧ (d.answers = true) ∧ (d.pkg.bedrock = false) ∧ (d.updBar = 0) ∧ (d.upd.xfer.active = true) ∧ (d.upd.xfer.pldm = true) ∧ (d.upd.xfer.ended = false) ∧ (d.upd.xfer.chunkAt = none) ∧ (data ≠ []) ∧ (d.upd.xfer.hdr.magic ≠ 0) := by
  decide

theorem test_wit_UpdateAndBedrockCommands_26 :
    let s : State := (at_ fun d => d.onUpd fun u => { u with recs := [(0, { owner := 2 })], xfer := { active := true, pldm := true, slot := 1 } }); let dt : Nat := (0); let d : Dev := (s.dev.elapse dt); 
    (d = s.dev.elapse dt) ∧ (d.answers = true) ∧ (d.pkg.bedrock = false) ∧ (d.updBar ≠ 8) ∧ (d.lrec.owner = 2) ∧ (d.lrec.trySlot = none) := by
  decide

theorem test_wit_UpdateAndBedrockCommands_27 :
    let s : State := (at_ id); let dt : Nat := (0); let d : Dev := (s.dev.elapse dt); 
    (d = s.dev.elapse dt) ∧ (d.answers = true) ∧ (d.pkg.bedrock = false) ∧ (d.updBar ≠ 8) ∧ ((d.lrec.owner ≠ 2 ∨ d.lrec.trySlot ≠ none)) := by
  decide

theorem test_wit_UpdateAndBedrockCommands_28 :
    let s : State := (at_ fun d => d.onUpd fun u => { u with recs := [(0, { owner := 2, stateB := 1 })] }); let dt : Nat := (0); let d : Dev := (s.dev.elapse dt); let k : Nat := (1); 
    (d = s.dev.elapse dt) ∧ (d.answers = true) ∧ (d.pkg.bedrock = false) ∧ (d.updBar ≠ 8) ∧ (k = 1 - d.lrec.runSlot) ∧ (d.lrec.owner = 2) ∧ (d.restore.ready = true) ∧ (d.sealing.active = false) ∧ (d.pkg.safe = 0) ∧ (d.lrec.runSlot ≤ 1) ∧ (d.lrec.state k = 1) ∧ (d.lrec.trySlot = none) ∧ (d.restore.phase = 7) ∧ ((∀ t : Nat, t < 8 → (d.tile t).supvOk = true)) := by
  decide

theorem test_wit_UpdateAndBedrockCommands_29 :
    let s : State := (at_ fun d => d.onUpd fun u => { u with recs := [(0, { owner := 2, stateB := 1 })] }); let dt : Nat := (0); let d : Dev := (s.dev.elapse dt); let k : Nat := (1); 
    (d = s.dev.elapse dt) ∧ (d.answers = true) ∧ (d.pkg.bedrock = false) ∧ (d.updBar ≠ 8) ∧ (k = 1 - d.lrec.runSlot) ∧ (d.lrec.owner = 2) ∧ (d.restore.ready = true) ∧ (d.sealing.active = false) ∧ (d.pkg.safe = 0) ∧ (d.panel.coreUp = true) ∧ (d.lrec.runSlot ≤ 1) ∧ (d.lrec.state k = 1) ∧ (d.lrec.trySlot = none) ∧ (d.restore.phase = 7) ∧ ((∀ t : Nat, t < 8 → (d.tile t).supvOk = true)) := by
  decide

theorem test_wit_UpdateAndBedrockCommands_30 :
    let s : State := (at_ fun d => d.onUpd fun u => { u with recs := [(0, { owner := 0, stateB := 1 })] }); let dt : Nat := (0); let d : Dev := (s.dev.elapse dt); let h : Fin 2 := (0); let slot : BitVec 8 := (2); let k : Nat := (1); 
    (d = s.dev.elapse dt) ∧ (d.cxlServes = true) ∧ (1 ≤ slot.toNat) ∧ (slot.toNat ≤ 2) ∧ (k = slot.toNat - 1) ∧ (k ≠ d.lrec.runSlot) ∧ (d.lrec.owner = h.val) ∧ (d.lrec.runSlot ≤ 1) ∧ (d.lrec.state k = 1) ∧ (d.lrec.trySlot = none) ∧ (d.restore.phase = 7) ∧ ((∀ t : Nat, t < 8 → (d.tile t).supvOk = true)) := by
  decide

theorem test_wit_UpdateAndBedrockCommands_31 :
    let s : State := (at_ fun d => d.onUpd fun u => { u with recs := [(0, { owner := 0, stateB := 2 })] }); let dt : Nat := (0); let d : Dev := (s.dev.elapse dt); let h : Fin 2 := (0); let slot : BitVec 8 := (2); let online : Bool := (true); 
    (d = s.dev.elapse dt) ∧ (d.cxlServes = true) ∧ (1 ≤ slot.toNat) ∧ (slot.toNat ≤ 2) ∧ (d.lrec.owner = h.val) ∧ ((d.lrec.state (slot.toNat - 1) ≠ 1 ∨ d.lrec.trySlot ≠ none)) := by
  decide

theorem test_wit_UpdateAndBedrockCommands_32 :
    let s : State := (at_ fun d => (d.onRestore fun r => { r with phase := 6 }).onUpd fun u => { u with recs := [(0, { owner := 0, stateB := 1 })] }); let dt : Nat := (0); let d : Dev := (s.dev.elapse dt); let h : Fin 2 := (0); let slot : BitVec 8 := (2); let online : Bool := (true); let k : Nat := (1); 
    (d = s.dev.elapse dt) ∧ (d.cxlServes = true) ∧ (1 ≤ slot.toNat) ∧ (slot.toNat ≤ 2) ∧ (k = slot.toNat - 1) ∧ (k ≠ d.lrec.runSlot) ∧ (d.lrec.owner = h.val) ∧ (d.lrec.state k = 1) ∧ (d.lrec.trySlot = none) ∧ (d.restore.phase ≠ 7) := by
  decide

theorem test_wit_UpdateAndBedrockCommands_33 :
    let s : State := (at_ fun d => d.onUpd fun u => { u with recs := tiles8.map fun t => (t, { owner := 0, stateA := 1, stateB := 3, trySlot := some 1, tries := 1, svnB := 6 }), running := tiles8.map fun t => (t, 1), windowLeft := 600000000000, windowFrom := some 999999999999000 }); let dt : Nat := (0); let d : Dev := (s.dev.elapse dt); let k : Nat := (1); 
    (d = s.dev.elapse dt) ∧ (d.lrec.trySlot = some k) ∧ (k ≤ 1) ∧ (d.confirmMay = true) ∧ (d.lrec.owner ≠ 255) := by
  decide

theorem test_wit_UpdateAndBedrockCommands_34 :
    let s : State := (at_ id); let dt : Nat := (0); let d : Dev := (s.dev.elapse dt); 
    (d = s.dev.elapse dt) ∧ (d.confirmMay = false) ∧ (d.lrec.confirming = false) := by
  decide

theorem test_wit_UpdateAndBedrockCommands_35 :
    let s : State := (at_ fun d => d.onUpd fun u => { u with recs := tiles8.map fun t => (t, { owner := 0, stateA := 1, stateB := 3, trySlot := some 1, tries := 1, svnB := 6 }), running := tiles8.map fun t => (t, 1), windowLeft := 600000000000, windowFrom := some 999399999999000 }); let dt : Nat := (0); let d : Dev := (s.dev.elapse dt); let t0 : Nat := (999399999999000); 
    (d = s.dev.elapse dt) ∧ (d.lrec.trySlot ≠ none) ∧ (d.lrec.confirming = false) ∧ (d.upd.windowFrom = some t0) ∧ (d.upd.windowLeft ≤ d.now - t0) ∧ (d.sealing.active = false) ∧ (d.panel.coreUp = true) ∧ (d.pkg.safe = 0) ∧ (d.restore.ready = true) ∧ (d.pkg.bedrock = false) := by
  decide

theorem test_wit_UpdateAndBedrockCommands_36 :
    let s : State := (at_ fun d => d.onUpd fun u => { u with recs := tiles8.map fun t => (t, { owner := 0, stateA := 1, stateB := 3, trySlot := some 1, tries := 1, svnB := 6 }), running := tiles8.map fun t => (t, 1), windowLeft := 600000000000, windowFrom := some 999999999999000 }); let dt : Nat := (0); let d : Dev := (s.dev.elapse dt); let t0 : Nat := (999999999999000); 
    (d = s.dev.elapse dt) ∧ (d.upd.windowFrom = some t0) ∧ (d.now - t0 < d.upd.windowLeft) := by
  decide

theorem test_wit_UpdateAndBedrockCommands_37 :
    let s : State := (at_ fun d => (d.onPkg fun p => { p with bedrock := true }).onUpd fun u => { u with brTiles := 2, bedCause := 4 }); let dt : Nat := (0); let d : Dev := (s.dev.elapse dt); 
    (d = s.dev.elapse dt) ∧ (d.pkg.bedrock = true) ∧ (d.brBusy = false) := by
  decide

theorem test_wit_UpdateAndBedrockCommands_38 :
    let s : State := (at_ fun d => (d.onPkg fun p => { p with bedrock := true }).onUpd fun u => { u with brTiles := 2, bedCause := 4 }); let dt : Nat := (0); let d : Dev := (s.dev.elapse dt); let pec : Bool := (false); 
    (d = s.dev.elapse dt) ∧ (d.pkg.bedrock = true) ∧ (d.brBusy = false) := by
  decide

theorem test_wit_UpdateAndBedrockCommands_39 :
    let s : State := (at_ fun d => (d.onPkg fun p => { p with bedrock := true }).onUpd fun u => { u with brTiles := 2, bedCause := 4 }); let dt : Nat := (0); let d : Dev := (s.dev.elapse dt); let v : BitVec 8 := (3); 
    (d = s.dev.elapse dt) ∧ (d.pkg.bedrock = true) ∧ (d.brBusy = false) := by
  decide

theorem test_wit_UpdateAndBedrockCommands_40 :
    let s : State := (at_ fun d => (d.onPkg fun p => { p with bedrock := true }).onUpd fun u => { u with brTiles := 2, bedCause := 4 }); let dt : Nat := (0); let d : Dev := (s.dev.elapse dt); let v : BitVec 8 := (3); 
    (d = s.dev.elapse dt) ∧ (d.pkg.bedrock = true) := by
  decide

theorem test_wit_UpdateAndBedrockCommands_41 :
    let s : State := (at_ fun d => (d.onPkg fun p => { p with bedrock := true }).onUpd fun u => { u with brTiles := 2, bedCause := 4 }); let dt : Nat := (0); let d : Dev := (s.dev.elapse dt); let pec : Bool := (false); 
    (d = s.dev.elapse dt) ∧ (d.pkg.bedrock = true) ∧ (d.brBusy = false) := by
  decide

theorem test_wit_UpdateAndBedrockCommands_42 :
    let s : State := (at_ fun d => (d.onPkg fun p => { p with bedrock := true }).onUpd fun u => { u with brTiles := 2, bedCause := 4 }); let dt : Nat := (0); let d : Dev := (s.dev.elapse dt); let v : BitVec 23 := (0x400000); 
    (d = s.dev.elapse dt) ∧ (d.pkg.bedrock = true) ∧ (d.brBusy = false) := by
  decide

theorem test_wit_UpdateAndBedrockCommands_43 :
    let s : State := (at_ fun d => (d.onPkg fun p => { p with bedrock := true }).onUpd fun u => { u with brTiles := 2, bedCause := 4 }); let dt : Nat := (0); let d : Dev := (s.dev.elapse dt); 
    (d = s.dev.elapse dt) ∧ (d.pkg.bedrock = true) ∧ (d.brBusy = false) := by
  decide

theorem test_wit_UpdateAndBedrockCommands_44 :
    let s : State := (at_ fun d => (d.onPkg fun p => { p with bedrock := true }).onSl 3 fun x => { x with ops := [(0, { code := 2 })] }); let dt : Nat := (0); let d : Dev := (s.dev.elapse dt); 
    (d = s.dev.elapse dt) ∧ (d.pkg.bedrock = true) ∧ (d.brBusy = true) := by
  decide

theorem test_wit_UpdateAndBedrockCommands_45 :
    let s : State := (at_ fun d => (d.onPkg fun p => { p with bedrock := true }).onUpd fun u => { u with brTiles := 2, bedCause := 4 }); let dt : Nat := (0); let d : Dev := (s.dev.elapse dt); 
    (d = s.dev.elapse dt) ∧ (d.pkg.bedrock = true) ∧ (d.brBusy = false) := by
  decide

theorem test_wit_UpdateAndBedrockCommands_46 :
    let s : State := (at_ fun d => (d.onPkg fun p => { p with bedrock := true }).onUpd fun u => { u with brTiles := 2, bedCause := 4, brAddr := 0x400010, vres := [(5, 0)] }); let dt : Nat := (0); let d : Dev := (s.dev.elapse dt); let data : BitVec 128 := (9); let t0 : Nat := (1); let a : Nat := (0x400010); 
    (d = s.dev.elapse dt) ∧ (d.pkg.bedrock = true) ∧ (d.brBusy = false) ∧ (d.brSel = [t0]) ∧ (t0 < 8) ∧ (a = d.upd.brAddr) ∧ ((d.sl t0).ops = []) ∧ ((2 ≤ secOf a ∧ (secOf a < 26 ∨ 30 < secOf a))) ∧ (d.opRefused t0 2 1 a = none) := by
  decide

theorem test_wit_UpdateAndBedrockCommands_47 :
    let s : State := (at_ fun d => (d.onPkg fun p => { p with bedrock := true }).onUpd fun u => { u with brTiles := 2, bedCause := 4, brAddr := 0x40000 }); let dt : Nat := (0); let d : Dev := (s.dev.elapse dt); let data : BitVec 128 := (9); let t0 : Nat := (1); let a : Nat := (0x40000); 
    (d = s.dev.elapse dt) ∧ (d.pkg.bedrock = true) ∧ (d.brBusy = false) ∧ (d.brSel = [t0]) ∧ (t0 < 8) ∧ (a = d.upd.brAddr) ∧ ((d.sl t0).ops = []) ∧ ((secOf a < 2 ∨ 26 ≤ secOf a ∧ secOf a ≤ 30)) := by
  decide

theorem test_wit_UpdateAndBedrockCommands_48 :
    let s : State := (at_ fun d => (d.onPkg fun p => { p with bedrock := true }).onUpd fun u => { u with brTiles := 2, bedCause := 4 }); let dt : Nat := (0); let d : Dev := (s.dev.elapse dt); let k : BitVec 8 := (0x30); let t0 : Nat := (1); let a : Nat := (0); 
    (d = s.dev.elapse dt) ∧ (d.pkg.bedrock = true) ∧ (d.brBusy = false) ∧ (d.brSel = [t0]) ∧ (t0 < 8) ∧ (a = d.upd.brAddr) ∧ ((d.sl t0).ops = []) ∧ (k.toNat < 0x3F) ∧ (k ≠ 26) ∧ (k ≠ 27) ∧ (d.opRefused t0 2 2 (secBase k.toNat) = none) := by
  decide

theorem test_wit_UpdateAndBedrockCommands_49 :
    let s : State := (at_ fun d => (d.onPkg fun p => { p with bedrock := true }).onUpd fun u => { u with brTiles := 2, bedCause := 4 }); let dt : Nat := (0); let d : Dev := (s.dev.elapse dt); let arg : BitVec 8 := (0x30); let code : BitVec 8 := (6); let t0 : Nat := (1); let a : Nat := (0); 
    (d = s.dev.elapse dt) ∧ (d.pkg.bedrock = true) ∧ (d.brBusy = false) ∧ (d.brSel = [t0]) ∧ (t0 < 8) ∧ (a = d.upd.brAddr) ∧ ((d.sl t0).ops = []) ∧ ((code = 3 ∨ code = 4 ∨ code = 6)) ∧ (arg.toNat < 0x3F) ∧ (d.opRefused t0 2 code.toNat (secBase arg.toNat) = none) := by
  decide

theorem test_wit_UpdateAndBedrockCommands_50 :
    let s : State := (at_ fun d => (d.onPkg fun p => { p with bedrock := true }).onUpd fun u => { u with brTiles := 2, bedCause := 4, brAddr := 0x400010 }); let dt : Nat := (0); let d : Dev := (s.dev.elapse dt); let a : Nat := (0x400010); 
    (d = s.dev.elapse dt) ∧ (d.pkg.bedrock = true) ∧ (d.brBusy = false) ∧ (a = d.upd.brAddr) ∧ ((d.sl d.brLow).badLines.contains (a / 16) = false) ∧ ((d.sl d.brLow).badSectors.contains (secOf (16 * (a / 16))) = false) := by
  decide

theorem test_wit_UpdateAndBedrockCommands_51 :
    let s : State := (at_ fun d => (d.onPkg fun p => { p with bedrock := true }).onUpd fun u => { u with brTiles := 2, bedCause := 4 }); let dt : Nat := (0); let d : Dev := (s.dev.elapse dt); let k : BitVec 8 := (1); let facts : List (BitVec 4) := ([]); 
    (d = s.dev.elapse dt) ∧ (d.pkg.bedrock = true) ∧ (d.brBusy = false) ∧ (k.toNat ≤ 1) := by
  decide

theorem test_wit_UpdateAndBedrockCommands_52 :
    let s : State := (at_ fun d => (d.onPkg fun p => { p with bedrock := true }).onUpd fun u => { u with brTiles := 2, bedCause := 4 }); let dt : Nat := (0); let d : Dev := (s.dev.elapse dt); 
    (d = s.dev.elapse dt) ∧ (d.pkg.bedrock = true) ∧ (d.brBusy = false) := by
  decide

theorem test_wit_UpdateAndBedrockCommands_53 :
    let s : State := (at_ fun d => (d.onPkg fun p => { p with bedrock := true }).onUpd fun u => { u with brTiles := 2, bedCause := 4, vres := tiles8.map fun t => (4 * t + 1, 0) }); let dt : Nat := (0); let d : Dev := (s.dev.elapse dt); let k : BitVec 8 := (1); 
    (d = s.dev.elapse dt) ∧ (d.pkg.bedrock = true) ∧ (d.brBusy = false) ∧ (k.toNat ≤ 1) ∧ ((∀ t : Nat, t < 8 → d.brRes t k.toNat = 0)) := by
  decide

theorem test_wit_UpdateAndBedrockCommands_54 :
    let s : State := (at_ fun d => (d.onPkg fun p => { p with bedrock := true }).onUpd fun u => { u with brTiles := 2, bedCause := 4 }); let dt : Nat := (0); let d : Dev := (s.dev.elapse dt); let k : BitVec 8 := (1); 
    (d = s.dev.elapse dt) ∧ (d.pkg.bedrock = true) ∧ (d.brBusy = false) ∧ ((1 < k.toNat ∨ ∃ t ∈ tiles8, d.brRes t k.toNat ≠ 0)) := by
  decide

theorem test_wit_PowerResetAndPanelCommands_1 :
    let s : State := (at_ fun d => (d.onPanel fun p => { p with vaux := true, pwrEn := false, coreUp := false, mainsGood := true, sealCause := some 6, freshOk := true })); let dt : Nat := (0); let d : Dev := (s.dev.elapse dt); 
    (d = s.dev.elapse dt) ∧ (d.panel.vaux = true) ∧ (d.panel.pwrEn = false) ∧ (d.panel.coreUp = false) ∧ (d.panel.mainsGood = true) ∧ (d.panel.strapTest = 0) ∧ (d.panel.retryAt = none) ∧ (d.therm.withheld = false) ∧ (d.panel.failedRestart = false) ∧ (d.panel.sealCause ≠ some 2) ∧ ((d.panel.sealCause = some 5 ∨ d.panel.sealCause = some 6 → d.panel.freshOk = true)) := by
  decide

theorem test_wit_PowerResetAndPanelCommands_2 :
    let s : State := (at_ fun d => (d.onPanel fun p => { p with vaux := true, pwrEn := false, coreUp := false, mainsGood := true, sealCause := some 6 })); let dt : Nat := (0); let d : Dev := (s.dev.elapse dt); 
    (d = s.dev.elapse dt) ∧ ((d.panel.mainsGood = false ∨ d.panel.strapTest ≠ 0 ∨ d.panel.sealCause = some 6 ∧ d.panel.freshOk = false)) := by
  decide

theorem test_wit_PowerResetAndPanelCommands_3 :
    let s : State := (at_ fun d => (d.onPanel fun p => { p with vaux := true, pwrEn := false, coreUp := false, mainsGood := true, sealCause := some 2 }).onTherm fun x => { x with coolFrom := some 5, coolWait := 60 }); let dt : Nat := (0); let d : Dev := (s.dev.elapse dt); let t0 : Nat := (5); 
    (d = s.dev.elapse dt) ∧ (d.therm.coolFrom = some t0) ∧ (d.therm.coolWait * 1000000000 ≤ d.now - t0) ∧ (d.panel.coreUp = false) ∧ (d.panel.pwrEn = false) ∧ (d.restartMay = true) ∧ (d.panel.vaux = true) ∧ (d.panel.mainsGood = true) ∧ (d.panel.strapTest = 0) ∧ (d.panel.retryAt = none) ∧ (d.therm.withheld = false) ∧ (d.panel.failedRestart = false) ∧ (d.panel.sealCause = some 2) := by
  decide

theorem test_wit_PowerResetAndPanelCommands_4 :
    let s : State := (at_ fun d => (d.onPanel fun p => { p with vaux := true, pwrEn := false, coreUp := false, mainsGood := true, sealCause := some 2 }).onTherm fun x => { x with coolFrom := some 5, coolWait := 60, restartMax := 0 }); let dt : Nat := (0); let d : Dev := (s.dev.elapse dt); let t0 : Nat := (5); 
    (d = s.dev.elapse dt) ∧ (d.therm.coolFrom = some t0) ∧ (d.therm.coolWait * 1000000000 ≤ d.now - t0) ∧ (d.panel.coreUp = false) ∧ (d.panel.pwrEn = false) ∧ (d.restartMay = false) := by
  decide

theorem test_wit_PowerResetAndPanelCommands_5 :
    let s : State := (at_ fun d => (d.onPanel fun p => { p with coreUp := false, rails := 3, railsGood := 2 })); let dt : Nat := (0); let d : Dev := (s.dev.elapse dt); let i : Fin 6 := (2); 
    (d = s.dev.elapse dt) ∧ (d.panel.pwrEn = true) ∧ (d.panel.coreUp = false) ∧ (i.val < 5) ∧ (d.panel.railsGood = i.val) ∧ (d.panel.rails = i.val + 1) ∧ ((i.val < 4 ∨ d.panel.refGood = false)) := by
  decide

theorem test_wit_PowerResetAndPanelCommands_6 :
    let s : State := (at_ fun d => (d.onPanel fun p => { p with coreUp := false, rails := 5, railsGood := 4, refGood := true })); let dt : Nat := (0); let d : Dev := (s.dev.elapse dt); 
    (d = s.dev.elapse dt) ∧ (d.panel.pwrEn = true) ∧ (d.panel.coreUp = false) ∧ (d.panel.railsGood = 4) ∧ (d.panel.rails = 5) ∧ (d.panel.refGood = true) := by
  decide

theorem test_wit_PowerResetAndPanelCommands_7 :
    let s : State := (at_ fun d => (d.onPanel fun p => { p with coreUp := false, rails := 2, railsGood := 1 })); let dt : Nat := (0); let d : Dev := (s.dev.elapse dt); 
    (d = s.dev.elapse dt) ∧ (d.panel.pwrEn = true) ∧ (d.panel.coreUp = false) ∧ (0 < d.panel.railsGood) ∧ (d.panel.railsGood < 5) := by
  decide

theorem test_wit_PowerResetAndPanelCommands_8 :
    let s : State := (at_ fun d => (d.onPanel fun p => { p with coreUp := false, rails := 2, railsGood := 1, attempts := 2 })); let dt : Nat := (0); let d : Dev := (s.dev.elapse dt); let i : Fin 6 := (5); let n : Nat := (3); 
    (d = s.dev.elapse dt) ∧ (d.panel.pwrEn = true) ∧ (d.panel.coreUp = false) ∧ ((if i = 5 then 0 < d.panel.railsGood ∧ d.panel.refGood = false else i.val + 1 = d.panel.rails ∧ d.panel.railsGood = i.val)) ∧ (n = d.panel.attempts + 1) := by
  decide

theorem test_wit_PowerResetAndPanelCommands_9 :
    let s : State := (at_ fun d => (d.onPanel fun p => { p with vaux := true, pwrEn := false, coreUp := false, mainsGood := true, retryAt := some 5 })); let dt : Nat := (0); let d : Dev := (s.dev.elapse dt); let t0 : Nat := (5); 
    (d = s.dev.elapse dt) ∧ (d.panel.retryAt = some t0) ∧ (t0 + 10000000000 ≤ d.now) ∧ (d.panel.mainsGood = true) ∧ (d.panel.pwrEn = false) := by
  decide

theorem test_wit_PowerResetAndPanelCommands_10 :
    let s : State := (at_ fun d => (d.onPanel fun p => { p with vaux := true, pwrEn := false, coreUp := false, mainsGood := true, retryAt := some 999999999999999 })); let dt : Nat := (0); let d : Dev := (s.dev.elapse dt); let t0 : Nat := (999999999999999); 
    (d = s.dev.elapse dt) ∧ (d.panel.retryAt = some t0) ∧ (d.now < t0 + 10000000000) := by
  decide

theorem test_wit_PowerResetAndPanelCommands_11 :
    let s : State := (at_ fun d => (d.onPanel fun p => { p with resetDue := true })); let dt : Nat := (0); let d : Dev := (s.dev.elapse dt); let noLat : Bool := (true); let smb : Fin 4 := (2); 
    (d = s.dev.elapse dt) ∧ (d.panel.resetDue = true) ∧ (d.panel.coreUp = true) ∧ (d.restore.dramKept = false) := by
  decide

theorem test_wit_PowerResetAndPanelCommands_12 :
    let s : State := (at_ fun d => (d.onPanel fun p => { p with resetDue := true })); let dt : Nat := (0); let d : Dev := (s.dev.elapse dt); let noLat : Bool := (false); let smb : Fin 4 := (0); 
    (d = s.dev.elapse dt) ∧ (d.panel.resetDue = true) ∧ (d.panel.coreUp = true) := by
  decide

theorem test_wit_PowerResetAndPanelCommands_13 :
    let s : State := (at_ fun d => (d.onPanel fun p => { p with resetDue := true })); let dt : Nat := (0); let d : Dev := (s.dev.elapse dt); let bed : Bool := (false); let noLat : Bool := (false); let smb : Fin 4 := (0); let test : Fin 4 := (3); 
    (d = s.dev.elapse dt) ∧ (d.panel.resetDue = true) ∧ (d.panel.coreUp = true) ∧ (test ≠ 0) := by
  decide

theorem test_wit_PowerResetAndPanelCommands_14 :
    let s : State := (at_ id); let dt : Nat := (0); let d : Dev := (s.dev.elapse dt); let bed : Bool := (false); let noLat : Bool := (false); let smb : Fin 4 := (0); let test : Fin 4 := (3); 
    (d = s.dev.elapse dt) ∧ ((d.panel.resetDue = false ∨ d.panel.coreUp = false)) := by
  decide

theorem test_wit_PowerResetAndPanelCommands_15 :
    let s : State := (at_ id); let dt : Nat := (0); let d : Dev := (s.dev.elapse dt); let pf : Bool := (true); let vin : Bool := (true); let la : Bool := (true); let lb : Bool := (false); 
    (d = s.dev.elapse dt) ∧ (d.panel.vaux = false) := by
  decide

theorem test_wit_PowerResetAndPanelCommands_16 :
    let s : State := (at_ fun d => (d.onPanel fun p => { p with vaux := true })); let dt : Nat := (0); let d : Dev := (s.dev.elapse dt); 
    (d = s.dev.elapse dt) ∧ (d.panel.vaux = true) := by
  decide

theorem test_wit_PowerResetAndPanelCommands_17 :
    let s : State := (at_ id); let dt : Nat := (0); let d : Dev := (s.dev.elapse dt); let rail : Fin 6 := (1); 
    (d = s.dev.elapse dt) ∧ (d.panel.coreUp = true) ∧ (rail.val < 3) := by
  decide

theorem test_wit_PowerResetAndPanelCommands_18 :
    let s : State := (at_ id); let dt : Nat := (0); let d : Dev := (s.dev.elapse dt); let rail : Fin 6 := (4); 
    (d = s.dev.elapse dt) ∧ (d.panel.coreUp = true) ∧ (3 ≤ rail.val) := by
  decide

theorem test_wit_PowerResetAndPanelCommands_19 :
    let s : State := (at_ id); let dt : Nat := (0); let d : Dev := (s.dev.elapse dt); let n : Fin 64 := (13); 
    (d = s.dev.elapse dt) ∧ (d.panel.coreUp = true) ∧ (n.val % 8 < 6) := by
  decide

theorem test_wit_PowerResetAndPanelCommands_20 :
    let s : State := (at_ fun d => d.onJcs fun j => { j with leases := [(0x4001, { holder := 0 })] }); let dt : Nat := (0); let d : Dev := (s.dev.elapse dt); let h : Fin 2 := (0); 
    (d = s.dev.elapse dt) := by
  decide

theorem test_wit_PowerResetAndPanelCommands_21 :
    let s : State := (at_ id); let dt : Nat := (0); let d : Dev := (s.dev.elapse dt); let h : Fin 2 := (0); 
    (d = s.dev.elapse dt) := by
  decide

theorem test_wit_PowerResetAndPanelCommands_22 :
    let s : State := (at_ id); let dt : Nat := (0); let d : Dev := (s.dev.elapse dt); let h : Fin 2 := (0); 
    (d = s.dev.elapse dt) := by
  decide

theorem test_wit_PowerResetAndPanelCommands_23 :
    let s : State := (at_ fun d => (d.onHead 1 fun x => { x with linkDownAt := some 5 }).onJcs fun j => { j with leases := [(0x4000, { holder := 0 }), (0x4001, { holder := 1 })] }); let dt : Nat := (0); let d : Dev := (s.dev.elapse dt); let h : Fin 2 := (1); let t0 : Nat := (5); 
    (d = s.dev.elapse dt) ∧ ((d.head h.val).linkDownAt = some t0) ∧ (t0 + 1000000000 ≤ d.now) ∧ ((d.head h.val).linkUp = false) := by
  decide

theorem test_wit_PowerResetAndPanelCommands_24 :
    let s : State := (at_ id); let dt : Nat := (0); let d : Dev := (s.dev.elapse dt); let h : Fin 2 := (0); 
    (d = s.dev.elapse dt) ∧ ((d.head h.val).linkUp = true) := by
  decide

theorem test_wit_PowerResetAndPanelCommands_25 :
    let s : State := (at_ id); let dt : Nat := (0); let d : Dev := (s.dev.elapse dt); let h : Fin 2 := (1); 
    (d = s.dev.elapse dt) := by
  decide

theorem test_wit_PowerResetAndPanelCommands_26 :
    let s : State := (at_ fun d => d.onHead 1 fun x => { x with perst := false }); let dt : Nat := (0); let d : Dev := (s.dev.elapse dt); let h : Fin 2 := (1); 
    (d = s.dev.elapse dt) ∧ (d.panel.coreUp = true) ∧ ((d.head h.val).perst = false) := by
  decide

theorem test_wit_PowerResetAndPanelCommands_27 :
    let s : State := (at_ fun d => d.onHead 1 fun x => { x with perst := true }); let dt : Nat := (0); let d : Dev := (s.dev.elapse dt); let h : Fin 2 := (1); 
    (d = s.dev.elapse dt) ∧ ((d.panel.coreUp = false ∨ (d.head h.val).perst = true)) := by
  decide

theorem test_wit_PowerResetAndPanelCommands_28 :
    let s : State := (at_ id); let dt : Nat := (0); let d : Dev := (s.dev.elapse dt); let h : Fin 2 := (1); let i : Fin 8 := (2); let base : Nat := (0); let size : Nat := (2 ^ 30); let ways : Nat := (2); let gran : Nat := (256); let pos : Nat := (1); let dpaBase : Nat := (0); 
    (d = s.dev.elapse dt) ∧ (ways ∈ [1, 2, 4, 8, 16]) ∧ (gran ∈ [256, 512, 1024, 2048, 4096, 8192, 16384]) ∧ (pos < ways) ∧ (size ≠ 0) := by
  decide

theorem test_wit_PowerResetAndPanelCommands_29 :
    let s : State := (at_ id); let dt : Nat := (0); let d : Dev := (s.dev.elapse dt); let h : Fin 2 := (1); let i : Fin 8 := (2); let base : Nat := (0); let size : Nat := (2 ^ 30); let ways : Nat := (3); let gran : Nat := (256); let pos : Nat := (1); let dpaBase : Nat := (0); 
    (d = s.dev.elapse dt) ∧ ((ways ∉ [1, 2, 4, 8, 16] ∨ gran ∉ [256, 512, 1024, 2048, 4096, 8192, 16384] ∨ ways ≤ pos ∨ size = 0)) := by
  decide

theorem test_wit_PowerResetAndPanelCommands_30 :
    let s : State := (at_ fun d => d.onJcs fun j => { j with queue := [{ by_ := 2 }, { by_ := 1 }], mctpBusy := [4] }); let dt : Nat := (0); let d : Dev := (s.dev.elapse dt); 
    (d = s.dev.elapse dt) := by
  decide

theorem test_wit_PowerResetAndPanelCommands_31 :
    let s : State := (at_ fun d => d.onJcs fun j => { j with leases := [(0x4001, { holder := 2 })] }); let dt : Nat := (0); let d : Dev := (s.dev.elapse dt); let v : BitVec 8 := (9); 
    (d = s.dev.elapse dt) ∧ (v.toNat ≠ d.jcs.sbEid) := by
  decide

theorem test_wit_PowerResetAndPanelCommands_32 :
    let s : State := (at_ id); let dt : Nat := (0); let d : Dev := (s.dev.elapse dt); let t : Fin 8 := (3); 
    (d = s.dev.elapse dt) := by
  decide

theorem test_wit_PowerResetAndPanelCommands_33 :
    let s : State := (at_ fun d => (d.onPanel fun p => { p with vaux := true })); let dt : Nat := (0); let d : Dev := (s.dev.elapse dt); 
    (d = s.dev.elapse dt) ∧ (d.panel.vaux = true) ∧ (d.panel.btnStuck = false) := by
  decide

theorem test_wit_PowerResetAndPanelCommands_34 :
    let s : State := (at_ fun d => (d.onPanel fun p => { p with btnAt := some 999999500000000 })); let dt : Nat := (0); let d : Dev := (s.dev.elapse dt); let t0 : Nat := (999999500000000); let w : Nat := (500000000); 
    (d = s.dev.elapse dt) ∧ (d.panel.btnStuck = false) ∧ (d.panel.btnAt = some t0) ∧ (t0 ≤ d.now) ∧ (w = d.now - t0) ∧ (50000000 ≤ w) ∧ (w ≤ 1000000000) ∧ (d.panel.coreUp = true) ∧ (d.sealing.active = false) ∧ (d.restore.ready = true) ∧ (d.pkg.bedrock = false) ∧ (d.pkg.safe = 0) ∧ (d.panel.removal ≠ 2) := by
  decide

theorem test_wit_PowerResetAndPanelCommands_35 :
    let s : State := (at_ fun d => (d.onPanel fun p => { p with btnAt := some 999996000000000 })); let dt : Nat := (0); let d : Dev := (s.dev.elapse dt); let t0 : Nat := (999996000000000); let w : Nat := (4000000000); 
    (d = s.dev.elapse dt) ∧ (d.panel.btnStuck = false) ∧ (d.panel.btnAt = some t0) ∧ (t0 ≤ d.now) ∧ (w = d.now - t0) ∧ (3000000000 ≤ w) ∧ (w ≤ 8000000000) ∧ (d.panel.coreUp = true) ∧ (d.sealing.active = false) ∧ (d.restore.ready = true) ∧ (d.pkg.bedrock = false) ∧ (d.pkg.safe = 0) ∧ (d.panel.removal = 0) := by
  decide

theorem test_wit_PowerResetAndPanelCommands_36 :
    let s : State := (at_ fun d => (d.onPanel fun p => { p with btnAt := some 999999500000000, removal := 2 })); let dt : Nat := (0); let d : Dev := (s.dev.elapse dt); let t0 : Nat := (999999500000000); let w : Nat := (500000000); 
    (d = s.dev.elapse dt) ∧ (d.panel.btnStuck = false) ∧ (d.panel.btnAt = some t0) ∧ (t0 ≤ d.now) ∧ (w = d.now - t0) ∧ (50000000 ≤ w) ∧ (w ≤ 1000000000) ∧ (d.panel.coreUp = true) ∧ (d.sealing.active = false) ∧ (d.restore.ready = true) ∧ (d.pkg.bedrock = false) ∧ (d.pkg.safe = 0) ∧ (d.panel.removal = 2) := by
  decide

theorem test_wit_PowerResetAndPanelCommands_37 :
    let s : State := (at_ fun d => (d.onPanel fun p => { p with btnAt := some 999996000000000, removal := 2 })); let dt : Nat := (0); let d : Dev := (s.dev.elapse dt); let t0 : Nat := (999996000000000); let w : Nat := (4000000000); 
    (d = s.dev.elapse dt) ∧ (d.panel.btnStuck = false) ∧ (d.panel.btnAt = some t0) ∧ (t0 ≤ d.now) ∧ (w = d.now - t0) ∧ (3000000000 ≤ w) ∧ (w ≤ 8000000000) ∧ (d.panel.coreUp = true) ∧ (d.sealing.active = false) ∧ (d.restore.ready = true) ∧ (d.pkg.bedrock = false) ∧ (d.pkg.safe = 0) ∧ (d.panel.removal ≠ 0) := by
  decide

theorem test_wit_PowerResetAndPanelCommands_38 :
    let s : State := (at_ fun d => (d.onPanel fun p => { p with btnAt := some 999996000000000 }).onSealing fun x => { x with active := true }); let dt : Nat := (0); let d : Dev := (s.dev.elapse dt); let t0 : Nat := (999996000000000); let w : Nat := (4000000000); 
    (d = s.dev.elapse dt) ∧ (d.panel.btnStuck = false) ∧ (d.panel.btnAt = some t0) ∧ (t0 ≤ d.now) ∧ (w = d.now - t0) ∧ (3000000000 ≤ w) ∧ (w ≤ 8000000000) ∧ (d.panel.coreUp = true) ∧ (d.sealing.active = true) ∧ (d.sealing.test = false) := by
  decide

theorem test_wit_PowerResetAndPanelCommands_39 :
    let s : State := (at_ fun d => (d.onPanel fun p => { p with btnAt := some 999996000000000 }).onRestore fun r => { r with ready := false, phase := 4 }); let dt : Nat := (0); let d : Dev := (s.dev.elapse dt); let t0 : Nat := (999996000000000); let w : Nat := (4000000000); 
    (d = s.dev.elapse dt) ∧ (d.panel.btnStuck = false) ∧ (d.panel.btnAt = some t0) ∧ (t0 ≤ d.now) ∧ (w = d.now - t0) ∧ (3000000000 ≤ w) ∧ (w ≤ 8000000000) ∧ (d.panel.coreUp = true) ∧ (d.sealing.active = false) ∧ ((d.restore.ready = false ∨ d.pkg.bedrock = true)) ∧ (d.pkg.safe ≠ 2) := by
  decide

theorem test_wit_PowerResetAndPanelCommands_40 :
    let s : State := (at_ fun d => (d.onPanel fun p => { p with btnAt := some 999998000000000 })); let dt : Nat := (0); let d : Dev := (s.dev.elapse dt); let t0 : Nat := (999998000000000); let w : Nat := (2000000000); 
    (d = s.dev.elapse dt) ∧ (d.panel.btnStuck = false) ∧ (d.panel.btnAt = some t0) ∧ (t0 ≤ d.now) ∧ (w = d.now - t0) ∧ ((w < 50000000 ∨ 1000000000 < w ∧ w < 3000000000 ∨ 8000000000 < w)) := by
  decide

theorem test_wit_PowerResetAndPanelCommands_41 :
    let s : State := (at_ fun d => (d.onPanel fun p => { p with btnAt := some 999996000000000, vaux := true, pwrEn := false, coreUp := false, mainsGood := true, sealCause := some 6 })); let dt : Nat := (0); let d : Dev := (s.dev.elapse dt); let t0 : Nat := (999996000000000); let w : Nat := (4000000000); 
    (d = s.dev.elapse dt) ∧ (d.panel.btnStuck = false) ∧ (d.panel.btnAt = some t0) ∧ (t0 ≤ d.now) ∧ (w = d.now - t0) ∧ (3000000000 ≤ w) ∧ (w ≤ 8000000000) ∧ (d.panel.vaux = true) ∧ (d.panel.pwrEn = false) ∧ (d.panel.coreUp = false) ∧ (d.panel.mainsGood = true) ∧ (d.panel.strapTest = 0) ∧ (d.panel.retryAt = none) ∧ ((d.panel.sealCause = some 5 ∨ d.panel.sealCause = some 6 ∨ d.therm.withheld = true ∨ d.panel.failedRestart = true)) := by
  decide

theorem test_wit_PowerResetAndPanelCommands_42 :
    let s : State := (at_ fun d => (d.onPanel fun p => { p with btnAt := some 5 })); let dt : Nat := (0); let d : Dev := (s.dev.elapse dt); let t0 : Nat := (5); 
    (d = s.dev.elapse dt) ∧ (d.panel.btnAt = some t0) ∧ (t0 + 30000000000 ≤ d.now) ∧ (d.panel.btnStuck = false) := by
  decide

theorem test_wit_PowerResetAndPanelCommands_43 :
    let s : State := (at_ fun d => (d.onPanel fun p => { p with identifyUntil := some 5 })); let dt : Nat := (0); let d : Dev := (s.dev.elapse dt); let t0 : Nat := (5); 
    (d = s.dev.elapse dt) ∧ (d.panel.identifyUntil = some t0) := by
  decide

theorem test_wit_PowerResetAndPanelCommands_44 :
    let s : State := (at_ fun d => (d.onPanel fun p => { p with refusedUntil := some 5 })); let dt : Nat := (0); let d : Dev := (s.dev.elapse dt); let t0 : Nat := (5); 
    (d = s.dev.elapse dt) ∧ (d.panel.refusedUntil = some t0) := by
  decide

theorem test_wit_PowerResetAndPanelCommands_45 :
    let s : State := (at_ fun d => (d.onPanel fun p => { p with removal := 2 })); let dt : Nat := (0); let d : Dev := (s.dev.elapse dt); 
    (d = s.dev.elapse dt) ∧ (d.panel.removal = 2) ∧ (d.sealing.active = false) ∧ (d.panel.coreUp = true) ∧ (d.pkg.safe = 0) ∧ (d.restore.ready = true) ∧ (d.pkg.bedrock = false) ∧ ((d.xPkg ≤ 262144 ∨ d.panel.drainAt + 60000000000 ≤ d.now)) := by
  decide

theorem test_wit_PowerResetAndPanelCommands_46 :
    let s : State := (at_ id); let dt : Nat := (0); let d : Dev := (s.dev.elapse dt); 
    (d = s.dev.elapse dt) ∧ ((d.panel.removal ≠ 2 ∨ d.sealing.active = true ∨ 262144 < d.xPkg ∧ d.now < d.panel.drainAt + 60000000000)) := by
  decide

theorem test_wit_ResetsKeepTime_8 :
    let d : Dev := (up); 
    (d.roleRuns = true) ∧ (d.pkg.deputy ≠ none) := by
  decide

theorem test_wit_ResetsKeepTime_9 :
    let s : State := (at_ fun d => d.onPkg fun p => { p with takeStep := 2 }); let dt : Nat := (5); 
    (s.dev.mirror.rate = s.dev.qtz.rate) ∧ (s.dev.mirror.freq = s.dev.qtz.freq) := by
  decide

theorem test_wit_LeasesGateChangingCommands_1 :
    let d : Dev := (up.onJcs fun j => { j with leases := [(0x4000, ({ holder := 0 } : Lease_))] }); let b : Fin 4 := (2); let uid : Nat := (0); let op : Nat := (0xC441); let p : List Byte := ([0]); let r : CmdRow := (({ op := 0xC441, by_ := 15, lease := .bay, len := 1, chg := true } : CmdRow)); let x : Nat := (0x4000); 
    (d.answers = true) ∧ ((d.pkg.bedrock = false ∨ b.val < 2)) ∧ (cmdRow op = some r) ∧ (d.admission r (caller b uid) p = 0) ∧ ((jcsRow op).1 d (caller b uid) p = 0) ∧ (d.notOwner r (caller b uid) p = none) ∧ (r.chg = true) ∧ (x ∈ r.resources p) ∧ ((d.lease x).heldBy (caller b uid) = false) ∧ ((r.held = true ∨ (d.lease x).holder ≠ 255)) := by
  decide

theorem test_wit_LeasesGateChangingCommands_2 :
    let d : Dev := (up.onJcs fun j => { j with leases := [(0x4005, ({ holder := 2 } : Lease_))] }); let b : Fin 4 := (2); let uid : Nat := (0); let op : Nat := (0xC431); let p : List Byte := (leBytes 4 2 ++ leBytes 12 0); let r : CmdRow := (({ op := 0xC431, by_ := 7, lease := .policy, held := true, len := 16, chg := true } : CmdRow)); 
    (d.answers = true) ∧ ((d.pkg.bedrock = false ∨ b.val < 2)) ∧ (cmdRow op = some r) ∧ (d.admission r (caller b uid) p = 0) ∧ ((jcsRow op).1 d (caller b uid) p = 0) ∧ (d.notOwner r (caller b uid) p = none) ∧ (r.chg = true) ∧ ((∀ y ∈ r.resources p, (d.lease y).heldBy (caller b uid) = true ∨ (r.held = false ∧ (d.lease y).holder = 255))) := by
  decide

theorem test_wit_LeasesGateChangingCommands_3 :
    let d : Dev := (up.onJcs fun j => { j with leases := [(0x4005, ({ holder := 2 } : Lease_))] }); let b : Fin 4 := (0); let uid : Nat := (0); let op : Nat := (0xC432); let p : List Byte := ([]); let r : CmdRow := (({ op := 0xC432, by_ := 15 } : CmdRow)); 
    (d.answers = true) ∧ ((d.pkg.bedrock = false ∨ b.val < 2)) ∧ (cmdRow op = some r) ∧ (d.admission r (caller b uid) p = 0) ∧ ((jcsRow op).1 d (caller b uid) p = 0) ∧ (d.notOwner r (caller b uid) p = none) ∧ (r.chg = false) := by
  decide

end Sys2Proof.Tests
end

section
/-! The address map of R34 and R36 is one to one: the tile interleave is undone by `dpaOf`, and the row, channel and address within the
logical rank name one tile-local address. -/

namespace Sys2Proof.Machine

/-! ### Tile interleave (R34) -/

/-- A tile grain is at least the 2 MiB of a group, so a group never straddles two tiles (R14, R34). -/
theorem grainLog_ge_group (d : Dev) : 21 ≤ d.grainLog := by
  unfold Dev.grainLog
  split
  · decide
  · split <;> decide

/-- The grain index of a DPA is that of its local address with the tile put in as the lowest digit in base 8 (R34). -/
theorem dpaOf_eq_grain_add_offset (d : Dev) (t a : Nat) :
    d.dpaOf t a = 2 ^ d.grainLog * (8 * (a / 2 ^ d.grainLog) + t) + a % 2 ^ d.grainLog := by
  unfold Dev.dpaOf
  ring

/-- The local address keeps the place in the grain and drops the tile's digit of the grain index (R34). -/
theorem tla_eq_grain_add_offset (d : Dev) (x : Nat) :
    d.tla x = 2 ^ d.grainLog * (x / 2 ^ d.grainLog / 8) + x % 2 ^ d.grainLog := by
  have hwidth : 2 ^ (d.grainLog + 3) = 2 ^ d.grainLog * 8 := pow_add 2 d.grainLog 3
  rw [Dev.tla, hwidth, ← Nat.div_div_eq_div_mul, Nat.mul_comm]

theorem tileOf_lt (d : Dev) (x : Nat) : d.tileOf x < 8 := Nat.mod_lt _ (by decide)

theorem dpaOf_div_grain (d : Dev) (t a : Nat) : d.dpaOf t a / 2 ^ d.grainLog = 8 * (a / 2 ^ d.grainLog) + t := by
  rw [dpaOf_eq_grain_add_offset, Nat.mul_add_div (Nat.two_pow_pos _), Nat.div_eq_of_lt (Nat.mod_lt _ (Nat.two_pow_pos _)), Nat.add_zero]

theorem dpaOf_mod_grain (d : Dev) (t a : Nat) : d.dpaOf t a % 2 ^ d.grainLog = a % 2 ^ d.grainLog := by
  rw [dpaOf_eq_grain_add_offset, Nat.mul_add_mod, Nat.mod_mod]

theorem tla_div_grain (d : Dev) (x : Nat) : d.tla x / 2 ^ d.grainLog = x / 2 ^ d.grainLog / 8 := by
  rw [tla_eq_grain_add_offset, Nat.mul_add_div (Nat.two_pow_pos _), Nat.div_eq_of_lt (Nat.mod_lt _ (Nat.two_pow_pos _)), Nat.add_zero]

theorem tla_mod_grain (d : Dev) (x : Nat) : d.tla x % 2 ^ d.grainLog = x % 2 ^ d.grainLog := by
  rw [tla_eq_grain_add_offset, Nat.mul_add_mod, Nat.mod_mod]

theorem tileOf_dpaOf (d : Dev) {t : Nat} (a : Nat) (ht : t < 8) : d.tileOf (d.dpaOf t a) = t := by
  rw [Dev.tileOf, dpaOf_div_grain, Nat.mul_add_mod, Nat.mod_eq_of_lt ht]

theorem tla_dpaOf (d : Dev) {t : Nat} (a : Nat) (ht : t < 8) : d.tla (d.dpaOf t a) = a := by
  have hdigit : (8 * (a / 2 ^ d.grainLog) + t) / 8 = a / 2 ^ d.grainLog := by omega
  rw [tla_eq_grain_add_offset, dpaOf_div_grain, dpaOf_mod_grain, hdigit, Nat.div_add_mod]

theorem dpaOf_tileOf_tla (d : Dev) (x : Nat) : d.dpaOf (d.tileOf x) (d.tla x) = x := by
  rw [dpaOf_eq_grain_add_offset, tla_div_grain, tla_mod_grain, Dev.tileOf, Nat.div_add_mod, Nat.div_add_mod]

/-- A page and the first byte of its group lie in the same grain. -/
theorem pageTile_eq_groupTile (d : Dev) (p : Nat) : d.pageTile p = d.groupTile (pageGroup p) := by
  obtain ⟨k, hk⟩ := Nat.exists_eq_add_of_le (grainLog_ge_group d)
  have hgroup : p * 4096 / 2 ^ 21 = p / 512 * 2097152 / 2 ^ 21 := by omega
  simp only [Dev.pageTile, Dev.groupTile, Dev.tileOf, pageBase, pageGroup, hk, pow_add, ← Nat.div_div_eq_div_mul, hgroup]

/-! ### Channel interleave within a tile (R35, R36) -/

/-- The channel, and the address within the logical rank, of an offset in a row interleaved over `ways` channels at a grain of 2 ^ `c`
bytes (R36). -/
def wayOf (c ways off : Nat) : Nat × Nat := (off / 2 ^ c % ways, off / 2 ^ c / ways * 2 ^ c + off % 2 ^ c)

/-- Quotient and remainder by `ways` give back the block index, and block index and place in the block give back the offset. -/
theorem wayOf_injective (c ways : Nat) : Function.Injective (wayOf c ways) := by
  intro x y h
  obtain ⟨hway, haddr⟩ := Prod.mk.inj h
  have hpos : 0 < 2 ^ c := Nat.two_pow_pos c
  have hplace : x % 2 ^ c = y % 2 ^ c := by
    have hmod := congrArg (· % 2 ^ c) haddr
    rwa [Nat.mul_add_mod', Nat.mul_add_mod', Nat.mod_mod, Nat.mod_mod] at hmod
  have hquot : x / 2 ^ c / ways = y / 2 ^ c / ways := Nat.eq_of_mul_eq_mul_right hpos (by omega)
  have hblock : x / 2 ^ c = y / 2 ^ c := by
    rw [← Nat.div_add_mod (x / 2 ^ c) ways, hquot, hway, Nat.div_add_mod]
  rw [← Nat.div_add_mod x (2 ^ c), hblock, hplace, Nat.div_add_mod]

/-- The bytes of the rows whose four channels are all in service: every row but the last (R35). -/
def Dev.fullRowBytes (d : Dev) : Nat := (d.dram.cfg.n - 1) * 4 * d.rankBytes

theorem chanOf_of_fullRow (d : Dev) {a : Nat} (h : a < d.fullRowBytes) :
    d.chanOf a = (a / (4 * d.rankBytes), wayOf (8 + d.dram.cfg.cgrain) 4 (a % (4 * d.rankBytes))) := by
  rw [Dev.fullRowBytes] at h
  simp only [Dev.chanOf, wayOf, if_pos h]

theorem chanOf_of_lastRow (d : Dev) {a : Nat} (h : ¬ a < d.fullRowBytes) :
    d.chanOf a = (d.dram.cfg.n - 1, wayOf (8 + d.dram.cfg.cgrain) d.lastWays (a - d.fullRowBytes)) := by
  rw [Dev.fullRowBytes] at h ⊢
  simp only [Dev.chanOf, wayOf, if_neg h]

/-- The row alone tells a full row from the last, so one address of each never share it. -/
theorem chanOf_row_lt_iff (d : Dev) (a : Nat) : (d.chanOf a).1 < d.dram.cfg.n - 1 ↔ a < d.fullRowBytes := by
  by_cases h : a < d.fullRowBytes
  · rw [chanOf_of_fullRow d h]
    refine iff_of_true (Nat.div_lt_of_lt_mul ?_) h
    rwa [Nat.mul_comm, ← Nat.mul_assoc]
  · rw [chanOf_of_lastRow d h]
    exact iff_of_false (Nat.lt_irrefl _) h

theorem chanOf_injective (d : Dev) : Function.Injective d.chanOf := by
  intro a b hab
  have hrows : a < d.fullRowBytes ↔ b < d.fullRowBytes := by
    rw [← chanOf_row_lt_iff, ← chanOf_row_lt_iff, hab]
  by_cases ha : a < d.fullRowBytes
  · rw [chanOf_of_fullRow d ha, chanOf_of_fullRow d (hrows.mp ha)] at hab
    obtain ⟨hrow, hway⟩ := Prod.mk.inj hab
    have hoff := wayOf_injective _ _ hway
    rw [← Nat.div_add_mod a (4 * d.rankBytes), hrow, hoff, Nat.div_add_mod]
  · have hb : ¬ b < d.fullRowBytes := mt hrows.mpr ha
    rw [chanOf_of_lastRow d ha, chanOf_of_lastRow d hb] at hab
    have hoff := wayOf_injective _ _ (Prod.mk.inj hab).2
    omega

/-- Settles O31: the tile interleave and its inverse agree on the grain index and on the place in the grain, and the channel interleave is
injective in each kind of row, which the row itself tells apart. The bound on the spares is not needed: with no way left in the last row,
the quotient by `ways` is 0 and the remainder the block index itself. -/
theorem addressMapIsOneToOne : Obligations.AddressMapIsOneToOne := by
  unfold Obligations.AddressMapIsOneToOne
  exact ⟨fun d _ a ht => ⟨tileOf_dpaOf d a ht, tla_dpaOf d a ht⟩, fun d x => ⟨dpaOf_tileOf_tla d x, tileOf_lt d x⟩,
    pageTile_eq_groupTile, fun d _ _ _ hab => chanOf_injective d hab⟩

end Sys2Proof.Machine
end

section
/-! What several rows share: a row's effect read off its equation, the parts that the passing of time leaves, accessors after their own
updates, and a message's effect on Flint. -/

namespace Sys2Proof.Machine

/-- A row whose meaning is the update `f` of the device: it answers the next state with `f` done to the device. -/
theorem Runs.of_run {i : Instr} {s : State} {r : Res} {f : Dev → Dev} {S : List Part} {P : Dev → Prop} (hexec : exec i s = r)
    (hrun : r = s.run f) (hchanges : ChangesOnly S s.dev (f s.dev)) (hP : P (f s.dev)) : Runs i s S P :=
  ⟨_, hexec.trans hrun, rfl, hchanges, hP⟩

/-- Such a row runs within the parts of its footprint. -/
theorem Runs.of_foot {i : Instr} {s : State} {r : Res} {f : Dev → Dev} {S T : List Part} {P : Dev → Prop}
    (hfoot : ∃ t, r = .next t ∧ t.pending = s.pending ∧ ChangesOnly T s.dev t.dev) (hT : ∀ p ∈ T, p ∈ S)
    (hexec : exec i s = r) (hrun : r = s.run f) (hP : P (f s.dev)) : Runs i s S P := by
  obtain ⟨t, ht, -, hchanges⟩ := hfoot
  have hdev : { s with dev := f s.dev } = t := Host.Outcome.next.inj (hrun.symm.trans ht)
  subst hdev
  exact .of_run hexec hrun (hchanges.mono hT) hP

/-! ### The passing of time changes Quartz alone (R12) -/

@[simp] theorem elapse_mem (d : Dev) (dt : Nat) : (d.elapse dt).mem = d.mem := rfl
@[simp] theorem elapse_pkg (d : Dev) (dt : Nat) : (d.elapse dt).pkg = d.pkg := rfl
@[simp] theorem elapse_sealing (d : Dev) (dt : Nat) : (d.elapse dt).sealing = d.sealing := rfl
@[simp] theorem elapse_restore (d : Dev) (dt : Nat) : (d.elapse dt).restore = d.restore := rfl
@[simp] theorem elapse_ctxs (d : Dev) (dt : Nat) : (d.elapse dt).ctxs = d.ctxs := rfl

/-! ### Accessors after their own updates -/

@[simp] theorem tile_onTile (d : Dev) (t : Nat) (f : TileSt → TileSt) : (d.onTile t f).tile t = f (d.tile t) := tget_tmod ..
theorem tile_onTile_ne (d : Dev) {t u : Nat} (f : TileSt → TileSt) (h : u ≠ t) : (d.onTile t f).tile u = d.tile u :=
  tget_tmod_ne _ _ _ _ _ h

/-! ### A part outside a footprint is the same after -/

section
variable {S : List Part} {d e : Dev} (h : ChangesOnly S d e)
include h

theorem ChangesOnly.mem_eq (hp : Part.mem ∉ S) : e.mem = d.mem := (h.same .mem hp).symm
theorem ChangesOnly.pkg_eq (hp : Part.pkg ∉ S) : e.pkg = d.pkg := (h.same .pkg hp).symm
theorem ChangesOnly.expo_eq (hp : Part.expo ∉ S) : e.expo = d.expo := (h.same .expo hp).symm
theorem ChangesOnly.sealing_eq (hp : Part.sealing ∉ S) : e.sealing = d.sealing := (h.same .sealing hp).symm
theorem ChangesOnly.strata_eq (hp : Part.strata ∉ S) : e.strata = d.strata := (h.same .strata hp).symm
theorem ChangesOnly.ctxs_eq (hp : Part.ctxs ∉ S) : e.ctxs = d.ctxs := (h.same .ctxs hp).symm
theorem ChangesOnly.flint_eq (hp : Part.flint ∉ S) : e.flint = d.flint := (h.same .flint hp).symm
theorem ChangesOnly.qtz_eq (hp : Part.qtz ∉ S) : e.qtz = d.qtz := (h.same .qtz hp).symm
theorem ChangesOnly.heads_eq (hp : Part.heads ∉ S) : e.heads = d.heads := (h.same .heads hp).symm
theorem ChangesOnly.out_eq (hp : Part.out ∉ S) : e.out = d.out := (h.same .out hp).symm

end

/-! ### Folds -/

/-- A fold whose steps leave what `π` reads leaves it. -/
theorem foldl_keeps {α β γ : Type} {f : β → α → β} {π : β → γ} {l : List α} (hf : ∀ d, ∀ a ∈ l, π (f d a) = π d) (d : β) :
    π (l.foldl f d) = π d := by
  induction l generalizing d with
  | nil => rfl
  | cons a l ih => rw [List.foldl_cons, ih fun d b hb => hf d b (List.mem_cons_of_mem _ hb), hf d a List.mem_cons_self]

/-- A fold that changes what `π` reads at one of its elements only, where each element occurs once, changes it once. -/
theorem foldl_changes_once {α β γ : Type} {f : β → α → β} {π : β → γ} {g : γ → γ} {a : α} (hself : ∀ d, π (f d a) = g (π d))
    (hother : ∀ d b, b ≠ a → π (f d b) = π d) {l : List α} (hl : l.Nodup) (ha : a ∈ l) (d : β) : π (l.foldl f d) = g (π d) := by
  induction l generalizing d with
  | nil => cases ha
  | cons b l ih =>
    obtain ⟨hb, hl⟩ := List.nodup_cons.mp hl
    rw [List.foldl_cons]
    by_cases hba : b = a
    · subst hba
      rw [foldl_keeps fun d c hc => hother d c fun e => hb (e ▸ hc), hself]
    · rw [ih hl ((List.mem_cons.mp ha).resolve_left fun e => hba e.symm), hother d b hba]

/-! ### What a message does to Flint depends on Flint and the lead alone (R310, R321) -/

theorem deliver_flint_congr {d e : Dev} (h : d.flint = e.flint) (m : FlintMsg) : (d.deliver m).flint = (e.deliver m).flint := by
  have hcoll : d.coll (collOf m.src) = e.coll (collOf m.src) := by rw [Dev.coll, Dev.coll, h]
  unfold Dev.deliver
  simp only [hcoll]
  split
  · simp only [Dev.onColl, onFlint_flint, h]
  · split <;> simp only [Dev.onColl, onFlint_flint, h]

theorem raise_flint_congr {d e : Dev} (h : d.flint = e.flint) (hlead : d.pkg.lead = e.pkg.lead) (src kind sev : Nat)
    (tile atag : Option Nat) (ctx : Nat) (detail : List Nat) (headOnly act : Nat) :
    (d.raise src kind sev tile atag ctx detail headOnly act).flint = (e.raise src kind sev tile atag ctx detail headOnly act).flint := by
  unfold Dev.raise
  rw [hlead]
  exact deliver_flint_congr h _

end Sys2Proof.Machine
end

section
/-! The package (chapter 01): memory at reset, the operating point, pace and power, the mesh and the clocked domains, and the package role. -/

namespace Sys2Proof.Machine

/-- Settles O6: the memory of the reset state is the empty list. -/
theorem memoryCanonicalAtReset : Obligations.MemoryCanonicalAtReset := by
  unfold Obligations.MemoryCanonicalAtReset
  exact ⟨⟨rfl⟩, rfl⟩

/-! ### The operating point (R23) -/

theorem wantPoint_of_seal {d : Dev} (h : d.sealing.active = true ∧ 2 ≤ d.sealing.stage ∧ d.sealing.stage ≤ (if d.sealing.test then 4 else 5)) :
    d.wantPoint = 2 := if_pos h

/-- What performance asks for: no seal, at most 160 W, no tile throttled. -/
theorem of_wantPoint_eq_zero {d : Dev} (h : d.wantPoint = 0) :
    d.pkg.powerMw ≤ 160000 ∧ ∀ t ∈ tiles8, (d.tile t).throttle = 0 := by
  by_cases hseal : d.sealing.active = true ∧ 2 ≤ d.sealing.stage ∧ d.sealing.stage ≤ (if d.sealing.test then 4 else 5)
  · exact absurd (h.symm.trans (wantPoint_of_seal hseal)) (by decide)
  · simp only [Dev.wantPoint, if_neg hseal] at h
    split at h
    · rename_i hperf
      simp only [Bool.and_eq_true, decide_eq_true_eq, List.all_eq_true, beq_iff_eq] at hperf
      exact ⟨hperf.1.2, hperf.2⟩
    · exact absurd h (by decide)

theorem wantPoint_of_bulk_restore {d : Dev} (hseal : d.sealing.active = false) (hphase : d.restore.phase = 6) (hpower : d.pkg.powerMw ≤ 160000)
    (hcool : ∀ t ∈ tiles8, (d.tile t).throttle = 0) : d.wantPoint = 0 := by
  have hall : (tiles8.all fun t => (d.tile t).throttle == 0) = true := by simpa using hcool
  simp [Dev.wantPoint, hseal, hphase, hpower, hall]

theorem mem_tiles8 {t : Nat} : t ∈ tiles8 ↔ t < 8 := by
  simp only [tiles8, List.mem_cons, List.not_mem_nil, or_false]
  omega

/-- Settles O11: each clause is a branch of the choice of the point, or the contrapositive of what performance asks for. -/
theorem sealSelectsSealPoint : Obligations.SealSelectsSealPoint := by
  unfold Obligations.SealSelectsSealPoint
  refine ⟨fun d ha h2 h5 => wantPoint_of_seal ⟨ha, h2, h5⟩, fun d t ht h => ht ?_, fun d hp h => ?_, fun d ha h6 hp ht => ?_⟩
  · exact (of_wantPoint_eq_zero h).2 _ (mem_tiles8.mpr t.isLt)
  · exact Nat.not_lt.mpr (of_wantPoint_eq_zero h).1 hp
  · exact wantPoint_of_bulk_restore ha h6 hp fun t hm => ht ⟨t, mem_tiles8.mp hm⟩

/-! ### Pace, power and changes of the point (R23 to R26) -/

theorem tapsFor_pkg (d : Dev) (a b : Nat) : (d.tapsFor a b).pkg = d.pkg := Dev.tapsFor_foot.pkg_eq (by decide)

/-- A check of the point asks for the point that R23 selects, and does not move the rail. -/
theorem pointCheck_asks {d : Dev} (h : d.pkg.takeStep = 0) :
    d.pointCheck.pkg.opptReq.getD d.pointCheck.pkg.oppt = d.wantPoint ∧ d.pointCheck.pkg.oppt = d.pkg.oppt := by
  unfold Dev.pointCheck
  simp only [h, ne_eq, not_true_eq_false, if_false]
  split
  · exact ⟨‹_›, rfl⟩
  · simp only [onPkg_pkg, tapsFor_pkg, and_true]
    split
    · exact .symm ‹_›
    · rfl

theorem pointCheck_powerMw (d : Dev) : d.pointCheck.pkg.powerMw = d.pkg.powerMw := by
  unfold Dev.pointCheck
  simp only
  split
  · rfl
  · split
    · rfl
    · simp only [onPkg_pkg, tapsFor_pkg]

/-- What PACE_UPDATE does for one tile: its pace monitors' averages, from `paces` where they are given, and its register (R25, R26). -/
def Dev.takePace (paces : List (Nat × Nat)) (d : Dev) (t : Nat) : Dev :=
  let p := paces.getD t ((d.tile t).pace, (d.tile t).sealPace)
  (d.onTile t fun x => { x with pace := p.1 % 65536, sealPace := p.2 % 65536 }).paceUpd t

theorem execPaceUpdate_eq (paces : List (Nat × Nat)) (dt : Nat) (s : State) :
    execPaceUpdate paces dt s = s.run fun d => (d.elapse dt).periodic 0 1000000 fun d => (tiles8.foldl (Dev.takePace paces) d).sealWorst := rfl

theorem paceUpd_tile (d : Dev) (t u : Nat) : (d.paceUpd t).tile u = d.tile u := by
  rw [Dev.tile, Dev.paceUpd_foot.pkg_eq (by decide), Dev.tile]

theorem sealWorst_tile (d : Dev) (u : Nat) : d.sealWorst.tile u = d.tile u := by
  rw [Dev.tile, Dev.sealWorst_foot.pkg_eq (by decide), Dev.tile]

/-- The pair of paces that a tile's registers show. -/
def TileSt.paces (x : TileSt) : Nat × Nat := (x.pace, x.sealPace)

theorem takePace_paces (l : List (Nat × Nat)) (d : Dev) (t : Nat) :
    ((d.takePace l t).tile t).paces = ((l.getD t (d.tile t).paces).1 % 65536, (l.getD t (d.tile t).paces).2 % 65536) := by
  rw [Dev.takePace, paceUpd_tile, tile_onTile]
  rfl

theorem takePace_paces_ne (l : List (Nat × Nat)) (d : Dev) {t u : Nat} (h : t ≠ u) : ((d.takePace l t).tile u).paces = (d.tile u).paces := by
  rw [Dev.takePace, paceUpd_tile, tile_onTile_ne _ _ h.symm]

theorem foldl_takePace_paces (l : List (Nat × Nat)) (d : Dev) {t : Nat} (h : t < 8) :
    ((tiles8.foldl (Dev.takePace l) d).tile t).paces = ((l.getD t (d.tile t).paces).1 % 65536, (l.getD t (d.tile t).paces).2 % 65536) :=
  foldl_changes_once (π := fun d : Dev => (d.tile t).paces) (g := fun p => ((l.getD t p).1 % 65536, (l.getD t p).2 % 65536))
    (fun d => takePace_paces l d t) (fun d _ hb => takePace_paces_ne l d hb) (by decide) (mem_tiles8.mpr h) d

/-- The share of VDD_CORE at the performance point, 0.80 V, from that at `v` mV (R23). -/
theorem powerEstimate_eq (core other oppt v : Nat) :
    (if oppt = 0 then core + other else core * 800 * 800 * 800 / (v * v * v) + other) =
      if oppt = 0 then core + other else core * 800 ^ 3 / v ^ 3 + other := by
  have hnum : core * 800 * 800 * 800 = core * 800 ^ 3 := by ring
  have hden : v * v * v = v ^ 3 := by ring
  rw [hnum, hden]

/-- Settles O10: each row from the equation of its meaning; a stored pace is changed once, at its own tile's step of the fold. -/
theorem paceAndOperatingPointRows : Obligations.PaceAndOperatingPointRows := by
  unfold Obligations.PaceAndOperatingPointRows
  refine ⟨fun s paces dt t hdue => ?_, fun s paces dt hdue => ?_, fun s core other dt => ?_, fun s dt htake => ?_, fun s dt htake => ?_,
    fun s dt pt hreq => ?_⟩
  · refine .of_foot execPaceUpdate_foot (by decide) rfl (execPaceUpdate_eq paces dt s) ?_
    simp only [Dev.periodic, hdue, if_true, sealWorst_tile]
    exact Prod.mk.inj (foldl_takePace_paces paces _ t.isLt)
  · have hidle : ∀ f, (s.dev.elapse dt).periodic 0 1000000 f = s.dev.elapse dt := fun f => by simp [Dev.periodic, hdue]
    exact .of_run rfl (execPaceUpdate_eq paces dt s) (by rw [hidle]; exact Dev.elapse_foot) (hidle _)
  · refine .of_foot execPowerEstimate_foot (by decide) rfl rfl ?_
    extract_lets
    split
    · exact (pointCheck_powerMw _).trans (powerEstimate_eq ..)
    · exact powerEstimate_eq ..
  · exact .of_foot execOperatingPointChange_foot (by decide) rfl rfl (pointCheck_asks htake)
  · refine .of_foot execOperatingPointChange_foot (by decide) rfl rfl ?_
    simp only [Dev.pointCheck]
    exact if_pos htake
  · refine .of_foot execOperatingPointSettled_foot (by decide) rfl rfl ?_
    simp only [elapse_pkg, hreq, tapsFor_pkg, onPkg_pkg]

end Sys2Proof.Machine
end

section
/-! The mesh, the clocked domains and the package role (chapter 01). -/

namespace Sys2Proof.Machine

/-! ### The mesh (R15) -/

theorem meshHops_congr {d e : Dev} (h : ∀ i < 12, d.pkg.meshFailed.contains i = e.pkg.meshFailed.contains i) (a b : Nat) :
    d.meshHops a b = e.meshHops a b := by
  have hstep : ∀ ts, d.meshStep ts = e.meshStep ts := fun ts => by
    unfold Dev.meshStep
    refine List.foldl_ext _ _ _ fun acc i hi => ?_
    rw [h i (List.mem_range.mp hi)]
  unfold Dev.meshHops
  simp only [hstep]

/-- The device after reset with one entry in its list of failed mesh links; 12 is the number of none. -/
def oneLinkFailed (l : Nat) : Dev := State.reset.dev.onPkg fun p => { p with meshFailed := [l] }

theorem meshHops_oneLinkFailed (l : Fin 13) (a b : Fin 8) : ((oneLinkFailed l.val).meshHops a.val b.val).any (· ≤ 3) = true := by
  revert l a b
  decide

/-- With at most one entry in the list of failed links, any two tiles are joined by at most three hops: only whether a link is listed
counts, so the list is one of thirteen. -/
theorem meshHops_le_three {d : Dev} (h : d.pkg.meshFailed.length ≤ 1) (a b : Fin 8) : ∃ n, d.meshHops a.val b.val = some n ∧ n ≤ 3 := by
  have hlisted : ∃ l : Fin 13, ∀ i < 12, d.pkg.meshFailed.contains i = (oneLinkFailed l.val).pkg.meshFailed.contains i := by
    match hfailed : d.pkg.meshFailed, h with
    | [], _ => exact ⟨12, fun i hi => by simp [oneLinkFailed]; omega⟩
    | [l], _ =>
      by_cases hl : l < 12
      · exact ⟨⟨l, by omega⟩, fun _ _ => rfl⟩
      · exact ⟨12, fun i hi => by simp [oneLinkFailed]; omega⟩
  obtain ⟨l, hl⟩ := hlisted
  have hhops := meshHops_oneLinkFailed l a b
  rw [← meshHops_congr hl, Option.any_eq_true] at hhops
  simpa using hhops

/-! ### Clocked domains (R29) -/

theorem foldl_emit_out {α : Type} (f : α → Out) (l : List α) (d : Dev) :
    (l.foldl (fun d x => d.emit (f x)) d).out = (l.map f).reverse ++ d.out := by
  induction l generalizing d with
  | nil => rfl
  | cons x l ih =>
    rw [List.foldl_cons, ih]
    simp [Dev.emit]

theorem foldl_emit_foot {α : Type} (f : α → Out) (l : List α) (d : Dev) : ChangesOnly [.out] d (l.foldl (fun d x => d.emit (f x)) d) :=
  .foldl (fun _ _ h => .step Dev.emit_foot (by decide) h) (.refl _ _)

/-- Settles O12: the effect of each row read part by part, and the mesh with at most one entry in its list of failed links. -/
theorem meshAndDomainRows : Obligations.MeshAndDomainRows := by
  unfold Obligations.MeshAndDomainRows
  refine ⟨fun s l dt hnew => ?_, fun s n reqs dt => ?_, fun d a b h => meshHops_le_three h a b⟩
  · refine .of_foot execMeshLinkFailed_foot (by decide) rfl rfl ?_
    simp only [elapse_pkg, hnew, Bool.false_eq_true, if_false]
    constructor
    · rw [Dev.raise_foot.pkg_eq (by decide), onPkg_pkg, elapse_pkg, addOnce, if_neg (by simpa using hnew)]
    · apply raise_flint_congr <;> rfl
  · refine .of_foot execClockedDomainReset_foot (by decide) rfl rfl ?_
    extract_lets d gone late emptied
    have hfoot := foldl_emit_foot Out.reqError reqs emptied
    refine ⟨?_, fun r hr hcmd hhead hid => ?_, fun r hr hid => ?_, ?_⟩
    · rw [Dev.raise_foot.out_eq (by decide), foldl_emit_out]
      rfl
    · rw [Dev.raise_foot.expo_eq (by decide), hfoot.expo_eq (by decide)] at hr
      have hgone : gone r = false := by simpa using (List.mem_filter.mp hr).2
      have hin : r.head ≤ 1 → d.inDomain n.val r = false := by simpa [gone, hcmd, hid] using hgone
      exact hin (by omega)
    · rw [Dev.raise_foot.expo_eq (by decide), hfoot.expo_eq (by decide)]
      exact List.mem_filter.mpr ⟨hr, by simp [gone, hid]⟩
    · apply raise_flint_congr
      · exact hfoot.flint_eq (by decide)
      · rw [hfoot.pkg_eq (by decide)]
        rfl

/-! ### The package role (R19 to R21) -/

/-- The device after reset with a number in `safe` that names no safe state: the field has 0 for none and 1 and 2 for those of R318. No
supervisor runs in it. -/
def unnamedSafeState : State := { pending := [], dev := State.reset.dev.onPkg fun p => { p with safe := 3 } }

/-- Entering a safe state takes the larger number of the one in force and the one asked for (R318). -/
theorem safeState_safe (d : Dev) (lvl : Nat) : (d.safeState lvl).pkg.safe = max d.pkg.safe lvl := by
  unfold Dev.safeState
  extract_lets held paced frozen safe emptied refused answered asleep locked ended
  have hrefused : ChangesOnly [.out] emptied refused := .foldl (fun _ _ h => .step Dev.refuseErr_foot (by decide) h) (.refl _ _)
  have hanswered : ChangesOnly [.out] refused answered := .foldl (fun _ _ h => .step Dev.emit_foot (by decide) h) (.refl _ _)
  have hasleep : ChangesOnly [.dram, .dw] answered asleep := .foldl (fun _ _ h => .step Dev.tileChans_foot (by decide) h) (.refl _ _)
  have hfrozen : frozen.pkg = d.pkg := Dev.freezeEnergy_foot.pkg_eq (by decide)
  simp only [ended, locked, onFlint_pkg, onSealing_pkg, onPanel_pkg]
  rw [hasleep.pkg_eq (by decide), hanswered.pkg_eq (by decide), hrefused.pkg_eq (by decide)]
  simp only [emptied, safe, onExpo_pkg, onPkg_pkg, hfrozen]

theorem bothLost_safe {d : Dev} (h : d.pkg.safe ≠ 2) : d.bothLost.pkg.safe = max d.pkg.safe 2 := by
  rw [Dev.bothLost, if_neg h, safeState_safe, Dev.raise_foot.pkg_eq (by decide)]

/-- Refutes O9: its last clause asks of any state not yet in safe state 2 that it enters safe state 2, but a state with 3 in that field
stays at 3. The field is a natural number, and no hypothesis bounds it; for 0 and 1 `bothLost_safe` gives the 2 asked for. -/
theorem not_packageRoleRows : ¬ Obligations.PackageRoleRows := by
  unfold Obligations.PackageRoleRows
  intro h
  obtain ⟨-, -, -, hloss⟩ := h
  obtain ⟨t, ht, -, -, hsafe, -⟩ := hloss unnamedSafeState 0 (by decide) (by decide) (by decide)
  have hdev : t.dev = (unnamedSafeState.dev.elapse 0).bothLost := by
    have hlost : exec (.lossOfBothSupervisors 0) unnamedSafeState =
        .next { unnamedSafeState with dev := (unnamedSafeState.dev.elapse 0).bothLost } := rfl
    rw [← Host.Outcome.next.inj (hlost.symm.trans ht)]
  rw [hdev, bothLost_safe (by decide)] at hsafe
  exact absurd hsafe (by decide)

end Sys2Proof.Machine
end

section
/-! The CXL memory-device commands of a head's mailbox (R430): admission, responses, poison and dynamic capacity. -/

namespace Sys2Proof.Machine

/-! ### A head after its own update and after another's -/

@[simp] theorem head_onHead (d : Dev) (h : Nat) (f : HeadSt → HeadSt) : (d.onHead h f).head h = f (d.head h) := tget_tmod ..
theorem head_onHead_ne (d : Dev) {h k : Nat} (f : HeadSt → HeadSt) (hk : k ≠ h) : (d.onHead h f).head k = d.head k :=
  tget_tmod_ne _ _ _ _ _ hk

@[simp] theorem emit_head (d : Dev) (o : Out) (h : Nat) : (d.emit o).head h = d.head h := rfl

/-! ### Admission and response (R397, R403) -/

theorem cxlDo_of_admitted {d : Dev} {early : Bool} (hanswers : d.answers = true) (hbedrock : d.pkg.bedrock = false)
    (hready : d.restore.ready = true ∨ early = true) (hseal : d.sealing.active = false) (hsafe : d.pkg.safe = 0) (h op : Nat) (f : Dev → Dev) :
    d.cxlDo h op early f = f d := by
  have hearly : ¬ (!d.restore.ready ∧ !early) := by
    rcases hready with hr | hr <;> simp [hr]
  simp only [Dev.cxlDo, if_neg hearly, hanswers, hbedrock, hseal, hsafe]
  rfl

theorem cxlDo_of_serves {d : Dev} (hserves : d.cxlServes = true) (h op : Nat) (early : Bool) (f : Dev → Dev) : d.cxlDo h op early f = f d := by
  simp only [Dev.cxlServes, Bool.and_eq_true, Bool.not_eq_true', decide_eq_true_eq] at hserves
  obtain ⟨⟨⟨⟨hanswers, hbedrock⟩, hready⟩, hseal⟩, hsafe⟩ := hserves
  exact cxlDo_of_admitted hanswers hbedrock (.inl hready) hseal hsafe h op f

theorem cxlUnsup_of_answers {d : Dev} (hanswers : d.answers = true) (h op : Nat) : d.cxlUnsup h op = d.cxlRespond h op 1 [] := if_pos hanswers

/-- A CXL row runs where the device serves it: with the footprint of its meaning, and the effect that follows the admission. -/
theorem Runs.of_cxl {i : Instr} {s : State} {r : Res} {dt h op : Nat} {early : Bool} {f : Dev → Dev} {S T : List Part} {P : Dev → Prop}
    (hfoot : ∃ t, r = .next t ∧ t.pending = s.pending ∧ ChangesOnly T s.dev t.dev) (hT : ∀ p ∈ T, p ∈ S) (hexec : exec i s = r)
    (hrun : r = s.run fun d => (d.elapse dt).cxlDo h op early f) (hserves : (s.dev.elapse dt).cxlServes = true)
    (hP : P (f (s.dev.elapse dt))) : Runs i s S P :=
  .of_foot hfoot hT hexec hrun (by rw [cxlDo_of_serves hserves]; exact hP)

@[simp] theorem cxlRespond_out (d : Dev) (h op ext : Nat) (vals : List Nat) :
    (d.cxlRespond h op ext vals).out = .cxlResp h op (retOf ext) ext vals :: d.out := rfl
@[simp] theorem cxlRespond_head (d : Dev) (h op ext : Nat) (vals : List Nat) :
    (d.cxlRespond h op ext vals).head h = { d.head h with mboxBusy := false, mboxRet := retOf ext, mboxExt := ext, mboxOut := [] } := by
  rw [Dev.cxlRespond, emit_head, head_onHead]
theorem cxlRespond_head_ne (d : Dev) {h k : Nat} (op ext : Nat) (vals : List Nat) (hk : k ≠ h) :
    (d.cxlRespond h op ext vals).head k = d.head k := by
  rw [Dev.cxlRespond, emit_head, head_onHead_ne _ _ hk]
@[simp] theorem cxlRespond_mem (d : Dev) (h op ext : Nat) (vals : List Nat) : (d.cxlRespond h op ext vals).mem = d.mem := rfl
@[simp] theorem cxlRespond_expo (d : Dev) (h op ext : Nat) (vals : List Nat) : (d.cxlRespond h op ext vals).expo = d.expo := rfl
@[simp] theorem cxlRespond_ctxs (d : Dev) (h op ext : Nat) (vals : List Nat) : (d.cxlRespond h op ext vals).ctxs = d.ctxs := rfl

/-- A response sent after nothing that was sent before is lost is the answer. -/
theorem cxlAnswered_respond {d e : Dev} (hout : d.out.length ≤ e.out.length) (h op ext : Nat) (vals : List Nat) :
    CxlAnswered d (e.cxlRespond h op ext vals) h op ext vals := by
  refine ⟨?_, by rw [cxlRespond_head]; exact ⟨rfl, rfl, rfl⟩⟩
  rw [cxlRespond_out, List.length_cons, Nat.succ_sub hout, List.take_succ_cons]
  exact List.mem_cons_self

/-- A row that the device does not support answers Unsupported wherever commands are answered (R403 step 1). -/
theorem Runs.of_cxlUnsup {i : Instr} {s : State} {r : Res} {dt h op : Nat} {S T : List Part}
    (hfoot : ∃ t, r = .next t ∧ t.pending = s.pending ∧ ChangesOnly T s.dev t.dev) (hT : ∀ p ∈ T, p ∈ S) (hexec : exec i s = r)
    (hrun : r = s.run fun d => (d.elapse dt).cxlUnsup h op) (hanswers : (s.dev.elapse dt).answers = true) :
    Runs i s S fun e => CxlAnswered (s.dev.elapse dt) e h op 1 [] :=
  .of_foot hfoot hT hexec hrun (by rw [cxlUnsup_of_answers hanswers]; exact cxlAnswered_respond le_rfl ..)

/-- A head's fields, set before the response, read as set; -/
theorem setAndRespond_head (d : Dev) (h : Nat) (f : HeadSt → HeadSt) (op ext : Nat) (vals : List Nat) :
    ((d.onHead h f).cxlRespond h op ext vals).head h =
      { f (d.head h) with mboxBusy := false, mboxRet := retOf ext, mboxExt := ext, mboxOut := [] } := by
  rw [cxlRespond_head, head_onHead]

/-- the other head is as before. -/
theorem setAndRespond_other (d : Dev) (h : Fin 2) (f : HeadSt → HeadSt) (op ext : Nat) (vals : List Nat) :
    ((d.onHead h.val f).cxlRespond h.val op ext vals).head (1 - h.val) = d.head (1 - h.val) := by
  have hother : 1 - h.val ≠ h.val := by omega
  rw [cxlRespond_head_ne _ _ _ _ hother, head_onHead_ne _ _ hother]

/-! ### Event records (R335, R430) -/

/-- A clearing of records is refused exactly where it is not of the whole log and the log lacks a record with one of the handles. -/
theorem missing_handles_iff (es : List CxlEvent) (log : Nat) (all : Bool) (hs : List Nat) :
    (!all && hs.any fun k => !((es.filter fun e => e.log == log).any fun e => e.handle == k)) = true ↔
      all = false ∧ ∃ k ∈ hs, ∀ x ∈ es, x.log = log → x.handle ≠ k := by
  simp [List.any_eq_true]

theorem no_handle_missing {es : List CxlEvent} {log : Nat} {all : Bool} {hs : List Nat}
    (hheld : all = true ∨ ∀ k ∈ hs, ∃ x ∈ es, x.log = log ∧ x.handle = k) :
    ¬ (all = false ∧ ∃ k ∈ hs, ∀ x ∈ es, x.log = log → x.handle ≠ k) := by
  rintro ⟨hall, k, hk, hmissing⟩
  obtain ⟨x, hx, hlog, hhandle⟩ := hheld.resolve_left (by simp [hall]) k hk
  exact hmissing x hx hlog hhandle

/-! ### A line's poison and a page's dirty bit (R41, R74, R221) -/

/-- Clearing a range zeroes its bytes and leaves every other. -/
theorem Mem.byte_clear (m : Mem) (a n x : Nat) : (m.clear a n).byte x = if a ≤ x ∧ x < a + n then 0 else m.byte x := by
  induction m with
  | nil => simp [Mem.clear, Mem.byte, tget]
  | cons c r ih =>
    have hkeep : (decide (c.1 < a) || decide (a + n ≤ c.1)) = true ↔ ¬ (a ≤ c.1 ∧ c.1 < a + n) := by
      simp only [Bool.or_eq_true, decide_eq_true_eq]
      omega
    simp only [Mem.clear, Mem.byte, List.filter_cons] at ih ⊢
    by_cases hin : a ≤ c.1 ∧ c.1 < a + n
    · rw [if_neg fun h => hkeep.mp h hin, ih, tget]
      by_cases hx : c.1 = x
      · rw [if_pos (hx ▸ hin), if_pos (hx ▸ hin)]
      · rw [if_neg hx]
    · rw [if_pos (hkeep.mpr hin), tget, tget, ih]
      by_cases hx : c.1 = x
      · rw [if_pos hx, if_neg (hx ▸ hin), if_pos hx]
      · rw [if_neg hx, if_neg hx]

theorem mem_insDirty_self (x : DirtyPage) (l : List DirtyPage) : ∃ y ∈ insDirty x l, y.page = x.page := by
  induction l with
  | nil => exact ⟨x, List.mem_singleton_self x, rfl⟩
  | cons y r ih =>
    unfold insDirty
    split
    · exact ⟨x, List.mem_cons_self, rfl⟩
    · split
      · rename_i heq
        exact ⟨y, List.mem_cons_self, heq.symm⟩
      · obtain ⟨z, hz, hpage⟩ := ih
        exact ⟨z, List.mem_cons_of_mem _ hz, hpage⟩

/-- The class of a page is read from the Region Table. -/
theorem persistent_congr {d e : Dev} (h : e.ctxs = d.ctxs) (p : Nat) : e.persistent p = d.persistent p := by
  unfold Dev.persistent Dev.pageCls Dev.pageEntry Dev.gran
  rw [h]

theorem dirtyPage_isDirty {d : Dev} {p : Nat} (h : d.persistent p = true) : (d.dirtyPage p).isDirty p = true := by
  rw [Dev.dirtyPage, if_pos h, Dev.isDirty, onExpo_expo, List.any_eq_true]
  obtain ⟨y, hy, hpage⟩ := mem_insDirty_self { page := p, since := d.now } d.expo.dirty
  exact ⟨y, hy, by simpa using hpage⟩

theorem dirtyPage_poisonLines (d : Dev) (p : Nat) : (d.dirtyPage p).expo.poisonLines = d.expo.poisonLines := by
  unfold Dev.dirtyPage
  split <;> rfl

theorem storePoison_poisoned (d : Dev) (l : Nat) : (d.storePoison l).poisoned l = true := by
  have hadd : ∀ xs : List Nat, l ∈ addOnce xs l := fun xs => by
    unfold addOnce
    split
    · exact List.contains_iff_mem.mp ‹_›
    · exact List.mem_append_right _ (List.mem_singleton_self l)
  exact List.contains_iff_mem.mpr (hadd _)

theorem clearPoison_poisoned (d : Dev) (l : Nat) : (d.clearPoison l).poisoned l = false := by
  unfold Dev.clearPoison
  split
  · simp [Dev.poisoned, Dev.onHead]
  · exact eq_false_of_ne_true ‹_›

theorem poisoned_congr {d e : Dev} (h : e.expo.poisonLines = d.expo.poisonLines) (l : Nat) : e.poisoned l = d.poisoned l := by
  rw [Dev.poisoned, h, Dev.poisoned]

theorem linePage_div (dpa : Nat) : linePage (dpa / 64) = dpa / 4096 := Nat.div_div_eq_div_mul ..

@[simp] theorem cxlRespond_poisoned (d : Dev) (h op ext : Nat) (vals : List Nat) (l : Nat) :
    (d.cxlRespond h op ext vals).poisoned l = d.poisoned l := poisoned_congr rfl l
@[simp] theorem cxlRespond_isDirty (d : Dev) (h op ext : Nat) (vals : List Nat) (p : Nat) :
    (d.cxlRespond h op ext vals).isDirty p = d.isDirty p := by
  rw [Dev.isDirty, cxlRespond_expo, Dev.isDirty]

/-! ### What a poison command performs (R74, R430) -/

/-- Inject Poison, once nothing holds it: a poisoned line is stored, listed and its page made dirty. -/
def Dev.injectLine (d : Dev) (l : Nat) : Dev :=
  ((((d.chanTouch l true false false).otherWrite (linePage l)).storePoison l).poisonEntry (l * 64) 64 3).dirtyPage (linePage l)

/-- Clear Poison, once nothing holds it: the whole line is written. -/
def Dev.clearLine (d : Dev) (l : Nat) (data : BitVec 512) : Dev :=
  ((d.chanTouch l true false false).otherWrite (linePage l)).doWrite l data (BitVec.allOnes 64)

section
variable {d : Dev} {r : HeldReq} (hwrite : r.write = true) (hhead : r.head ≠ 2)
  (hiso : (d.tile (d.pageTile (linePage r.line))).isolated = false)
  (harm : (d.wouldDirty r && !d.isArmed (pageGroup (linePage r.line))) = false)
  (hwait : d.lineWaits r.line true false false = false)
include hwrite hiso harm hwait hhead

/-- A write of a poison command goes through unless its tile is isolated, its page's group is not armed, or its channel makes it wait. -/
theorem perform_injectPoison (hcmd : r.cmd = 1) : d.perform r = (d.injectLine r.line).replicaMark (linePage r.line) := by
  simp [Dev.perform, Dev.injectLine, hwrite, hhead, hiso, harm, hwait, hcmd]

theorem perform_clearPoison (hcmd : r.cmd = 2) (hmask : r.mask = BitVec.allOnes 64) :
    d.perform r = (d.clearLine r.line r.data).meterWrite r.line := by
  simp [Dev.perform, Dev.clearLine, hwrite, hhead, hiso, harm, hwait, hcmd, hmask]

end

/-- Where nothing holds a write, its page is dirty already, or not persistent, or its group is armed (R47). -/
theorem armed_of_holds_free {d : Dev} {r : HeldReq} (hfree : (d.holds r).free = true) :
    (d.wouldDirty r && !d.isArmed (pageGroup (linePage r.line))) = false := by
  simp only [HeldReq.free, Bool.not_eq_true', Bool.or_eq_false_iff] at hfree
  exact hfree.1.1.1.1.1.1.1

theorem admitReq_of_free {d : Dev} {r : HeldReq} (hfree : (d.holds r).free = true) (hcmd : r.cmd ≠ 3) :
    d.admitReq r = d.perform (d.holds r) := by
  have hgoes : d.goes (d.holds r) = true := by
    have hkind : ((d.holds r).cmd == 3) = false := beq_false_of_ne hcmd
    rw [Dev.goes, hfree, hkind, Bool.and_false]
    rfl
  exact if_pos hgoes

theorem injectLine_effect (d : Dev) (l : Nat) :
    ((d.injectLine l).replicaMark (linePage l)).out = d.out ∧ ((d.injectLine l).replicaMark (linePage l)).poisoned l = true ∧
      (d.persistent (linePage l) = true → ((d.injectLine l).replicaMark (linePage l)).isDirty (linePage l) = true) ∧
      ∀ a, a / 64 ≠ l → ((d.injectLine l).replicaMark (linePage l)).mem.byte a = d.mem.byte a := by
  unfold Dev.injectLine
  set used := (d.chanTouch l true false false).otherWrite (linePage l) with hused
  set listed := (used.storePoison l).poisonEntry (l * 64) 64 3 with hlisted
  have hfirst : ChangesOnly [.dram, .dw, .lat] d used := .step Dev.otherWrite_foot (by decide) (Dev.chanTouch_foot.mono (by decide))
  have hstored : ChangesOnly [.mem, .expo, .heads] used listed := .step Dev.poisonEntry_foot (by decide) (Dev.storePoison_foot.mono (by decide))
  have hlast : ChangesOnly [.expo, .lat] listed ((listed.dirtyPage (linePage l)).replicaMark (linePage l)) :=
    .step Dev.replicaMark_foot (by decide) (Dev.dirtyPage_foot.mono (by decide))
  have hexpo : ((listed.dirtyPage (linePage l)).replicaMark (linePage l)).expo = (listed.dirtyPage (linePage l)).expo :=
    Dev.replicaMark_foot.expo_eq (by decide)
  refine ⟨?_, ?_, fun hp => ?_, fun a ha => ?_⟩
  · rw [hlast.out_eq (by decide), hstored.out_eq (by decide), hfirst.out_eq (by decide)]
  · rw [poisoned_congr (congrArg Expo.poisonLines hexpo), poisoned_congr (dirtyPage_poisonLines ..), hlisted,
      poisoned_congr (congrArg Expo.poisonLines (Dev.poisonEntry_foot.expo_eq (by decide))), storePoison_poisoned]
  · have hpersistent : listed.persistent (linePage l) = true := by
      rw [persistent_congr (hstored.ctxs_eq (by decide)), persistent_congr (hfirst.ctxs_eq (by decide)), hp]
    rw [Dev.isDirty, hexpo]
    exact dirtyPage_isDirty hpersistent
  · have hstore : listed.mem = used.mem.clear (l * 64) 64 := Dev.poisonEntry_foot.mem_eq (by decide)
    rw [hlast.mem_eq (by decide), hstore, Mem.byte_clear, if_neg (by omega), hfirst.mem_eq (by decide)]

theorem doWrite_full (d : Dev) (l : Nat) (data : BitVec 512) : d.doWrite l data (BitVec.allOnes 64) =
    ((((d.clearPoison l).onMem fun m => m.setLine l data (BitVec.allOnes 64)).dirtyPage (linePage l)).replicaMark (linePage l)) := by
  simp [Dev.doWrite, clearPoison_poisoned]

theorem clearLine_effect (d : Dev) (l : Nat) (data : BitVec 512) :
    ((d.clearLine l data).meterWrite l).out = d.out ∧ ((d.clearLine l data).meterWrite l).poisoned l = false ∧
      ((d.clearLine l data).meterWrite l).mem = d.mem.setLine l data (BitVec.allOnes 64) ∧
      (d.persistent (linePage l) = true → ((d.clearLine l data).meterWrite l).isDirty (linePage l) = true) := by
  unfold Dev.clearLine
  rw [doWrite_full]
  set used := (d.chanTouch l true false false).otherWrite (linePage l) with hused
  set written := (used.clearPoison l).onMem fun m => m.setLine l data (BitVec.allOnes 64) with hwritten
  have hfirst : ChangesOnly [.dram, .dw, .lat] d used := .step Dev.otherWrite_foot (by decide) (Dev.chanTouch_foot.mono (by decide))
  have hcleared : ChangesOnly [.expo, .heads] used (used.clearPoison l) := Dev.clearPoison_foot
  have hlast : ChangesOnly [.lat, .ctxs] (written.dirtyPage (linePage l))
      (((written.dirtyPage (linePage l)).replicaMark (linePage l)).meterWrite l) :=
    .step Dev.meterWrite_foot (by decide) (Dev.replicaMark_foot.mono (by decide))
  have hdirty : ChangesOnly [.expo] written (written.dirtyPage (linePage l)) := Dev.dirtyPage_foot
  refine ⟨?_, ?_, ?_, fun hp => ?_⟩
  · rw [hlast.out_eq (by decide), hdirty.out_eq (by decide), hwritten, onMem_out, hcleared.out_eq (by decide), hfirst.out_eq (by decide)]
  · rw [poisoned_congr (congrArg Expo.poisonLines (hlast.expo_eq (by decide))), poisoned_congr (dirtyPage_poisonLines ..),
      poisoned_congr (d := used.clearPoison l) (e := written) rfl, clearPoison_poisoned]
  · rw [hlast.mem_eq (by decide), hdirty.mem_eq (by decide), hwritten, onMem_mem, hcleared.mem_eq (by decide), hfirst.mem_eq (by decide)]
  · have hpersistent : written.persistent (linePage l) = true := by
      have hctxs : written.ctxs = used.ctxs := by rw [hwritten, onMem_ctxs, hcleared.ctxs_eq (by decide)]
      rw [persistent_congr hctxs, persistent_congr (hfirst.ctxs_eq (by decide)), hp]
    rw [Dev.isDirty, hlast.expo_eq (by decide)]
    exact dirtyPage_isDirty hpersistent

/-- The request that a poison command of head `h` at address `dpa` makes. -/
def Dev.poisonReq (d : Dev) (h dpa cmd : Nat) (data : BitVec 512) : HeldReq :=
  { id := d.expo.nextReq, head := h, line := dpa / 64, write := true, data := data, mask := BitVec.allOnes 64, arrive := d.now, cmd := cmd }

/-- The device after a request has taken its number. -/
def Dev.takeReqId (d : Dev) : Dev := d.onExpo fun e => { e with nextReq := e.nextReq + 1 }

theorem poisonCmd_refused {d : Dev} {h op dpa cmd : Nat} {data : BitVec 512} (hbad : dpa % 64 ≠ 0 ∨ d.pageOpen h (dpa / 4096) = false) :
    d.poisonCmd h op dpa cmd data = d.cxlRespond h op 3 [] :=
  if_pos (by simpa using hbad)

section
variable {d : Dev} {h dpa : Nat} (hline : dpa % 64 = 0) (hopen : d.pageOpen h (dpa / 4096) = true)
  (hiso : (d.tile (d.pageTile (dpa / 4096))).isolated = false)
include hline hopen hiso

theorem poisonCmd_admitted (op cmd : Nat) (data : BitVec 512) : d.poisonCmd h op dpa cmd data =
    (d.takeReqId.admitReq (d.poisonReq h dpa cmd data)).cxlRespond h op 0 [] := by
  simp [Dev.poisonCmd, Dev.poisonReq, Dev.takeReqId, hline, hopen, hiso]

variable {n : Nat} {data : BitVec 512} (hhead : h < 2) (hfree : (d.holds (d.poisonReq h dpa n data)).free = true)
  (hwait : d.lineWaits (dpa / 64) true false false = false)
include hhead hfree hwait

theorem poisonCmd_inject (hn : n = 1) (op : Nat) : d.poisonCmd h op dpa n data =
    ((d.takeReqId.injectLine (dpa / 64)).replicaMark (linePage (dpa / 64))).cxlRespond h op 0 [] := by
  rw [poisonCmd_admitted hline hopen hiso, admitReq_of_free (d := d.takeReqId) hfree (fun h3 : n = 3 => by omega),
    perform_injectPoison (d := d.takeReqId) (r := d.takeReqId.holds (d.poisonReq h dpa n data)) rfl (Nat.ne_of_lt hhead)
      (by rw [← linePage_div] at hiso; exact hiso) (armed_of_holds_free (d := d) hfree) hwait hn]
  rfl

theorem poisonCmd_clear (hn : n = 2) (op : Nat) : d.poisonCmd h op dpa n data =
    ((d.takeReqId.clearLine (dpa / 64) data).meterWrite (dpa / 64)).cxlRespond h op 0 [] := by
  rw [poisonCmd_admitted hline hopen hiso, admitReq_of_free (d := d.takeReqId) hfree (fun h3 : n = 3 => by omega),
    perform_clearPoison (d := d.takeReqId) (r := d.takeReqId.holds (d.poisonReq h dpa n data)) rfl (Nat.ne_of_lt hhead)
      (by rw [← linePage_div] at hiso; exact hiso) (armed_of_holds_free (d := d) hfree) hwait hn rfl]
  rfl

end

/-! ### Dynamic capacity (R176 to R178) -/

theorem dcSettle_rt (d : Dev) (c : Nat) : (d.dcSettle c).ctxs.rt = d.ctxs.rt ∧ (d.dcSettle c).ctxs.rtPend = d.ctxs.rtPend := by
  unfold Dev.dcSettle
  extract_lets
  split
  · exact ⟨rfl, rfl⟩
  · rw [Dev.ctxSave_foot.ctxs_eq (by decide)]
    exact ⟨rfl, rfl⟩

/-- What an offer keeps of its granules when the head takes those of `gs` from the offers that satisfy `f`. -/
def DcOffer.without (gs : List Nat) (f : DcOffer → Bool) (o : DcOffer) : DcOffer :=
  if f o then { o with granules := o.granules.filter fun g => !gs.contains g } else o

theorem DcOffer.without_release (gs : List Nat) (f : DcOffer → Bool) (o : DcOffer) : (o.without gs f).release = o.release := by
  unfold DcOffer.without
  split <;> rfl

theorem dcTake_heads (d : Dev) (h : Nat) (gs : List Nat) (f : DcOffer → Bool) :
    (d.dcTake h gs f).heads =
      (d.onHead h fun x => { x with dcOffers := (x.dcOffers.map (DcOffer.without gs f)).filter fun o => !o.granules.isEmpty }).heads :=
  foldl_keeps (π := Dev.heads) (fun _ _ _ => Dev.dcSettle_foot.heads_eq (by decide)) _

theorem dcTake_head (d : Dev) (h : Nat) (gs : List Nat) (f : DcOffer → Bool) : (d.dcTake h gs f).head h =
    { d.head h with dcOffers := ((d.head h).dcOffers.map (DcOffer.without gs f)).filter fun o => !o.granules.isEmpty } := by
  rw [Dev.head, dcTake_heads, ← Dev.head, head_onHead]

theorem dcTake_rt (d : Dev) (h : Nat) (gs : List Nat) (f : DcOffer → Bool) : (d.dcTake h gs f).ctxs.rt = d.ctxs.rt :=
  foldl_keeps (π := fun d : Dev => d.ctxs.rt) (fun e c _ => (dcSettle_rt e c).1) _

theorem dcTake_rtPend (d : Dev) (h : Nat) (gs : List Nat) (f : DcOffer → Bool) : (d.dcTake h gs f).ctxs.rtPend = d.ctxs.rtPend :=
  foldl_keeps (π := fun d : Dev => d.ctxs.rtPend) (fun e c _ => (dcSettle_rt e c).2) _

theorem dcTake_out (d : Dev) (h : Nat) (gs : List Nat) (f : DcOffer → Bool) : (d.dcTake h gs f).out = d.out :=
  Dev.dcTake_foot.out_eq (by decide)

/-- Capacity is accepted where every granule named is in an offer to add (R177). -/
theorem all_offered_iff (l : List DcOffer) (gs : List Nat) :
    (gs.all fun g => l.any fun o => !o.release && o.granules.contains g) = true ↔ ∀ g ∈ gs, ∃ o ∈ l, o.release = false ∧ g ∈ o.granules := by
  simp [List.all_eq_true, List.any_eq_true]

/-- No offer to add keeps a granule that the head has taken from such offers. -/
theorem not_mem_granules_of_taken {gs : List Nat} {l : List DcOffer} {o : DcOffer}
    (ho : o ∈ (l.map (DcOffer.without gs fun o => !o.release)).filter fun o => !o.granules.isEmpty) (hadd : o.release = false) :
    ∀ g ∈ gs, g ∉ o.granules := by
  intro g hg hmem
  obtain ⟨x, -, rfl⟩ := List.mem_map.mp (List.mem_filter.mp ho).1
  rw [DcOffer.without_release] at hadd
  rw [DcOffer.without, if_pos (by simp [hadd]), List.mem_filter] at hmem
  simp [hg] at hmem

/-- Every granule accepted is among the extents, old or new. -/
theorem accepted_mem_extents (old : List (Nat × Nat)) (tag : Nat → Nat) {gs : List Nat} {g : Nat} (hg : g ∈ gs) :
    ∃ x ∈ old ++ (gs.eraseDups.filter fun g => !(old.any fun e => e.1 == g)).map (fun g => (g, tag g)), x.1 = g := by
  by_cases hold : ∃ x ∈ old, x.1 = g
  · obtain ⟨x, hx, hfst⟩ := hold
    exact ⟨x, List.mem_append_left _ hx, hfst⟩
  · refine ⟨(g, tag g), List.mem_append_right _ (List.mem_map.mpr ⟨g, List.mem_filter.mpr ⟨List.mem_eraseDups.mpr hg, ?_⟩, rfl⟩), rfl⟩
    simp only [Bool.not_eq_true', List.any_eq_false, beq_iff_eq]
    exact fun x hx hfst => hold ⟨x, hx, hfst⟩

/-- A release is accepted where the head owns every granule named, no change to it waits and the head has its extent (R178). -/
theorem all_releasable {d : Dev} {h : Nat} {gs : List Nat} (hmine : ∀ k ∈ gs, (d.gran k).valid = true ∧ (d.gran k).head = h + 1 ∧
      d.granPend k = false ∧ ∃ x ∈ (d.head h).extents, x.1 = k) :
    (gs.all fun g => (d.gran g).valid && (d.gran g).head == h + 1 && !d.granPend g &&
      (((d.head h).extents.any fun e => e.1 == g) || (d.head h).dcOffers.any fun o => o.granules.contains g)) = true := by
  refine List.all_eq_true.mpr fun g hg => ?_
  obtain ⟨hvalid, howner, hpend, x, hx, hfst⟩ := hmine g hg
  have hext : ((d.head h).extents.any fun e => e.1 == g) = true := List.any_eq_true.mpr ⟨x, hx, by simpa using hfst⟩
  rw [hvalid, howner, hpend, hext, beq_self_eq_true]
  rfl

/-- The granules released wait for the commit of VALID = 0 with a TRIM (R178). -/
theorem foldl_releaseGran_rtPend (l : List Nat) (d : Dev) :
    (l.foldl Dev.releaseGran d).ctxs.rtPend = d.ctxs.rtPend ++ l.map fun g => { granule := g, entry := {}, trim := true } := by
  induction l generalizing d with
  | nil => exact (List.append_nil _).symm
  | cons g l ih =>
    rw [List.foldl_cons, ih, List.map_cons]
    simp [Dev.releaseGran, Dev.rtChange]

theorem foldl_releaseGran_foot (l : List Nat) (d : Dev) : ChangesOnly [.ctxs] d (l.foldl Dev.releaseGran d) :=
  .foldl (fun _ _ h => .step Dev.releaseGran_foot (by decide) h) (.refl _ _)

theorem releaseGran_pending {gs : List Nat} {k : Nat} (hk : k ∈ gs) (d : Dev) :
    ({ granule := k, entry := {}, trim := true } : RtChange) ∈ (gs.eraseDups.foldl Dev.releaseGran d).ctxs.rtPend := by
  rw [foldl_releaseGran_rtPend]
  exact List.mem_append_right _ (List.mem_map.mpr ⟨k, List.mem_eraseDups.mpr hk, rfl⟩)

/-- Settles O55: behind the admission of R403 each row is one response, with the one change that the row makes before it. -/
theorem cxlMemoryDeviceCommands : Obligations.CxlMemoryDeviceCommands := by
  unfold Obligations.CxlMemoryDeviceCommands
  refine ⟨?identify, ?partition, ?health, ?getAlert, ?setAlert, ?getShutdown, ?setShutdown, ?poisonList, ?inject, ?injectBad, ?clear,
    ?clearBad, ?getEvents, ?clearEvents, ?clearEventsBad, ?getPolicy, ?setPolicy, ?getTime, ?setTime, ?logs, ?getLog, ?getLogBad, ?fwInfo,
    ?dcConfig, ?dcList, ?addDc, ?addDcBad, ?releaseDc, ?releaseDcBad, ?setPartition, ?scan, ?sanitize, ?erase, ?getLsa, ?setLsa⟩
  case identify =>
    rintro s _ h dt rfl hserves
    exact .of_cxl execIdentifyMemoryDevice_foot (by decide) rfl rfl hserves (cxlAnswered_respond le_rfl ..)
  case partition =>
    rintro s _ h dt rfl hserves
    exact .of_cxl execGetPartitionInfo_foot (by decide) rfl rfl hserves (cxlAnswered_respond le_rfl ..)
  case health =>
    rintro s _ h dt rfl hanswers hbedrock hseal hsafe
    refine .of_foot execGetHealthInfo_foot (by decide) rfl rfl ?_
    rw [cxlDo_of_admitted hanswers hbedrock (.inr rfl) hseal hsafe]
    exact cxlAnswered_respond le_rfl ..
  case getAlert =>
    rintro s _ h dt rfl hserves
    exact .of_cxl execGetAlertConfiguration_foot (by decide) rfl rfl hserves (cxlAnswered_respond le_rfl ..)
  case setAlert =>
    rintro s _ h cfg dt rfl hserves
    refine .of_cxl execSetAlertConfiguration_foot (by decide) rfl rfl hserves ⟨cxlAnswered_respond le_rfl .., ?_⟩
    rw [setAndRespond_head, setAndRespond_other]
    exact ⟨rfl, rfl⟩
  case getShutdown =>
    rintro s _ h dt rfl hserves
    exact .of_cxl execGetShutdownState_foot (by decide) rfl rfl hserves (cxlAnswered_respond le_rfl ..)
  case setShutdown =>
    rintro s _ h v dt rfl hserves
    refine .of_cxl execSetShutdownState_foot (by decide) rfl rfl hserves ⟨cxlAnswered_respond le_rfl .., ?_⟩
    rw [setAndRespond_head]
    exact ⟨rfl, rfl⟩
  case poisonList =>
    rintro s _ h a n _ dt rfl hserves rfl
    exact .of_cxl execGetPoisonList_foot (by decide) rfl rfl hserves (cxlAnswered_respond le_rfl ..)
  case inject =>
    rintro s _ h dpa dt rfl hserves hline hopen hiso hfree hwait
    refine .of_cxl execInjectPoison_foot (by decide) rfl rfl hserves ?_
    obtain ⟨hout, hpoisoned, hdirty, hmem⟩ := injectLine_effect (s.dev.elapse dt).takeReqId (dpa.toNat / 64)
    rw [poisonCmd_inject hline hopen hiso h.isLt hfree hwait rfl]
    rw [cxlRespond_poisoned, cxlRespond_isDirty, cxlRespond_mem, ← linePage_div]
    exact ⟨cxlAnswered_respond (by rw [hout]; exact le_rfl) .., hpoisoned, hdirty, hmem⟩
  case injectBad =>
    rintro s _ h dpa dt rfl hserves hbad
    refine .of_cxl execInjectPoison_foot (by decide) rfl rfl hserves ?_
    rw [poisonCmd_refused hbad]
    exact ⟨cxlAnswered_respond le_rfl .., rfl, rfl⟩
  case clear =>
    rintro s _ h dpa data dt rfl hserves hline hopen hiso hfree hwait
    refine .of_cxl execClearPoison_foot (by decide) rfl rfl hserves ?_
    obtain ⟨hout, hpoisoned, hmem, hdirty⟩ := clearLine_effect (s.dev.elapse dt).takeReqId (dpa.toNat / 64) data
    rw [poisonCmd_clear hline hopen hiso h.isLt hfree hwait rfl]
    rw [cxlRespond_poisoned, cxlRespond_isDirty, cxlRespond_mem, ← linePage_div]
    exact ⟨cxlAnswered_respond (by rw [hout]; exact le_rfl) .., hpoisoned, hmem, hdirty⟩
  case clearBad =>
    rintro s _ h dpa data dt rfl hserves hbad
    refine .of_cxl execClearPoison_foot (by decide) rfl rfl hserves ?_
    rw [poisonCmd_refused hbad]
    exact ⟨cxlAnswered_respond le_rfl .., rfl, rfl⟩
  case getEvents =>
    rintro s _ h log _ dt rfl hserves rfl
    exact .of_cxl execGetEventRecords_foot (by decide) rfl rfl hserves (cxlAnswered_respond le_rfl ..)
  case clearEvents =>
    rintro s _ h log all hs dt rfl hserves hheld
    refine .of_cxl execClearEventRecords_foot (by decide) rfl rfl hserves ?_
    have hnone := mt (missing_handles_iff ((s.dev.elapse dt).head h.val).events log.val all hs).mp (no_handle_missing hheld)
    simp only [if_neg hnone]
    refine ⟨cxlAnswered_respond le_rfl .., ?_⟩
    rw [setAndRespond_head, setAndRespond_other]
    exact ⟨rfl, rfl⟩
  case clearEventsBad =>
    rintro s _ h log hs k dt rfl hserves hk hmissing
    refine .of_cxl execClearEventRecords_foot (by decide) rfl rfl hserves ?_
    have hany := (missing_handles_iff ((s.dev.elapse dt).head h.val).events log.val false hs).mpr ⟨rfl, k, hk, hmissing⟩
    simp only [if_pos hany]
    exact ⟨cxlAnswered_respond le_rfl .., by rw [cxlRespond_head]⟩
  case getPolicy =>
    rintro s _ h dt rfl hserves
    exact .of_cxl execGetEventInterruptPolicy_foot (by decide) rfl rfl hserves (cxlAnswered_respond le_rfl ..)
  case setPolicy =>
    rintro s _ h v dt rfl hserves
    refine .of_cxl execSetEventInterruptPolicy_foot (by decide) rfl rfl hserves ⟨cxlAnswered_respond le_rfl .., ?_⟩
    rw [setAndRespond_head, setAndRespond_other]
    exact ⟨rfl, rfl⟩
  case getTime =>
    rintro s _ h dt rfl hserves
    exact .of_cxl execGetTimestamp_foot (by decide) rfl rfl hserves (cxlAnswered_respond le_rfl ..)
  case setTime =>
    rintro s _ h v dt rfl hserves
    refine .of_cxl execSetTimestamp_foot (by decide) rfl rfl hserves ⟨cxlAnswered_respond le_rfl .., ?_⟩
    rw [setAndRespond_head]
    exact ⟨rfl, rfl, rfl⟩
  case logs =>
    rintro s _ h dt rfl hserves
    exact .of_cxl execGetSupportedLogs_foot (by decide) rfl rfl hserves (cxlAnswered_respond le_rfl ..)
  case getLog =>
    rintro s _ h off n dt rfl hserves hrange hn
    refine .of_cxl execGetLog_foot (by decide) rfl rfl hserves ?_
    rw [if_neg (by rintro (hne | hlong | hbig); exacts [hne rfl, by omega, by omega])]
    exact cxlAnswered_respond le_rfl ..
  case getLogBad =>
    rintro s _ h log off n dt rfl hserves hbad
    refine .of_cxl execGetLog_foot (by decide) rfl rfl hserves ?_
    rw [if_pos (hbad.imp_right .inl)]
    exact cxlAnswered_respond le_rfl ..
  case fwInfo =>
    rintro s _ h dt rfl hserves
    exact .of_cxl execGetFwInfo_foot (by decide) rfl rfl hserves (cxlAnswered_respond le_rfl ..)
  case dcConfig =>
    rintro s _ h dt rfl hserves
    exact .of_cxl execGetDcConfig_foot (by decide) rfl rfl hserves (cxlAnswered_respond le_rfl ..)
  case dcList =>
    rintro s _ h dt rfl hserves
    exact .of_cxl execGetDcExtentList_foot (by decide) rfl rfl hserves (cxlAnswered_respond le_rfl ..)
  case addDc =>
    rintro s _ h gs dt rfl hserves hoffered
    refine .of_cxl execAddDcResponse_foot (by decide) rfl rfl hserves ?_
    have hall := (all_offered_iff ((s.dev.elapse dt).head h.val).dcOffers gs).mpr hoffered
    simp only [hall, Bool.not_true, Bool.false_eq_true, if_false]
    rw [cxlRespond_head, dcTake_head, head_onHead, cxlRespond_ctxs, dcTake_rt]
    exact ⟨cxlAnswered_respond (by rw [dcTake_out]; exact le_rfl) .., fun g hg => accepted_mem_extents _ _ hg,
      fun x hx => List.mem_append_left _ hx, fun o ho hadd => not_mem_granules_of_taken ho hadd, rfl⟩
  case addDcBad =>
    rintro s _ h gs g dt rfl hserves hg hnot
    refine .of_cxl execAddDcResponse_foot (by decide) rfl rfl hserves ?_
    have hall := eq_false_of_ne_true fun hall => by
      obtain ⟨o, ho, hadd, hmem⟩ := (all_offered_iff ((s.dev.elapse dt).head h.val).dcOffers gs).mp hall g hg
      exact hnot o ho hadd hmem
    simp only [hall, Bool.not_false, if_true]
    exact ⟨cxlAnswered_respond le_rfl .., by rw [cxlRespond_head], rfl⟩
  case releaseDc =>
    rintro s _ h gs dt rfl hserves hmine
    refine .of_cxl execReleaseDc_foot (by decide) rfl rfl hserves ?_
    have hall := all_releasable hmine
    simp only [hall, Bool.not_true, Bool.false_eq_true, if_false]
    have hfoot := foldl_releaseGran_foot gs.eraseDups (s.dev.elapse dt)
    have hpending := fun k (hk : k ∈ gs) => releaseGran_pending hk (s.dev.elapse dt)
    generalize gs.eraseDups.foldl Dev.releaseGran (s.dev.elapse dt) = released at hfoot hpending
    have hhead : released.head h.val = (s.dev.elapse dt).head h.val := by rw [Dev.head, hfoot.heads_eq (by decide), ← Dev.head]
    rw [cxlRespond_head, dcTake_head, head_onHead, cxlRespond_ctxs, dcTake_rtPend, hhead]
    exact ⟨cxlAnswered_respond (by rw [dcTake_out]; exact (congrArg List.length (hfoot.out_eq (by decide))).ge) ..,
      fun k hk => ⟨_, hpending k hk, rfl, rfl, rfl⟩, rfl⟩
  case releaseDcBad =>
    rintro s _ h gs k dt rfl hserves hk hinvalid
    refine .of_cxl execReleaseDc_foot (by decide) rfl rfl hserves ?_
    rw [if_pos (by rw [List.all_eq_false.mpr ⟨k, hk, by simp [hinvalid]⟩]; rfl)]
    exact ⟨cxlAnswered_respond le_rfl .., by rw [cxlRespond_head], rfl⟩
  case setPartition =>
    rintro s _ h dt rfl hanswers
    exact .of_cxlUnsup execSetPartitionInfo_foot (by decide) rfl rfl hanswers
  case scan =>
    rintro s _ h dt rfl hanswers
    exact .of_cxlUnsup execScanMedia_foot (by decide) rfl rfl hanswers
  case sanitize =>
    rintro s _ h dt rfl hanswers
    exact .of_cxlUnsup execCxlSanitize_foot (by decide) rfl rfl hanswers
  case erase =>
    rintro s _ h dt rfl hanswers
    exact .of_cxlUnsup execSecureErase_foot (by decide) rfl rfl hanswers
  case getLsa =>
    rintro s _ h dt rfl hanswers
    exact .of_cxlUnsup execGetLsa_foot (by decide) rfl rfl hanswers
  case setLsa =>
    rintro s _ h dt rfl hanswers
    exact .of_cxlUnsup execSetLsa_foot (by decide) rfl rfl hanswers

end Sys2Proof.Machine
end

section
/-! Contexts and the Region Table (chapter 06): what commits, zero fills, releases, metering and the steps of a sanitize leave of the held
requests, the dirty pages and the table itself. -/

namespace Sys2Proof.Machine

@[simp] theorem ctx_onCtx (d : Dev) (c : Nat) (f : Ctx → Ctx) : (d.onCtx c f).ctx c = f (d.ctx c) := tget_tmod ..
theorem ctx_onCtx_ne (d : Dev) {c k : Nat} (f : Ctx → Ctx) (hk : k ≠ c) : (d.onCtx c f).ctx k = d.ctx k := tget_tmod_ne _ _ _ _ _ hk
theorem ctx_congr {d e : Dev} (h : e.ctxs = d.ctxs) (c : Nat) : e.ctx c = d.ctx c := by rw [Dev.ctx, h, Dev.ctx]
@[simp] theorem elapse_ctx (d : Dev) (dt c : Nat) : (d.elapse dt).ctx c = d.ctx c := rfl
theorem now_congr {d e : Dev} (h : e.qtz = d.qtz) : e.now = d.now := by rw [Dev.now, h, Dev.now]

/-! ### The held requests and the dirty pages -/

/-- The requests held and the pages dirty. -/
def Dev.pageView (d : Dev) : List HeldReq × List DirtyPage := (d.expo.held, d.expo.dirty)

theorem ChangesOnly.pageView_eq {S : List Part} {d e : Dev} (h : ChangesOnly S d e) (hp : Part.expo ∉ S) : e.pageView = d.pageView := by
  rw [Dev.pageView, h.expo_eq hp, Dev.pageView]

theorem cairn_pageView (d : Dev) (t : Nat) (es : List LedgerEntry) : (d.cairn t es).pageView = d.pageView := by
  unfold Dev.cairn
  extract_lets room ints dis put emptied drained
  have hput : ChangesOnly [.flash] d put := Dev.cairnPut_foot
  have hemptied : ChangesOnly [.flash] put emptied := .foldl (fun _ _ h => .step Dev.onBlk_foot (by decide) h) (.refl _ _)
  exact (hemptied.pageView_eq (by decide)).trans (hput.pageView_eq (by decide))

theorem ledger_pageView (d : Dev) (t typ a b c : Nat) (test : Bool) : (d.ledger t typ a b c test).pageView = d.pageView := cairn_pageView ..

theorem ledgerAll_pageView (d : Dev) (ts : List Nat) (typ a b c : Nat) : (d.ledgerAll ts typ a b c).pageView = d.pageView :=
  foldl_keeps (fun _ _ _ => ledger_pageView ..) d

@[simp] theorem onFlow_pageView (d : Dev) (t k : Nat) (f : FlashStream → FlashStream) : (d.onFlow t k f).pageView = d.pageView := rfl
@[simp] theorem onFl_pageView (d : Dev) (t : Nat) (f : TileFlash → TileFlash) : (d.onFl t f).pageView = d.pageView := rfl

theorem openFor_pageView (d : Dev) (t k : Nat) : (d.openFor t k).pageView = d.pageView := by
  unfold Dev.openFor
  split
  · rfl
  · rw [onFlow_pageView, apply_ite Dev.pageView, onFl_pageView, ite_self, ledger_pageView]
    rfl

theorem takePage_pageView (d : Dev) (t k : Nat) : (d.takePage t k).1.pageView = d.pageView := by
  have hopen : (if (d.stream t k).left = 0 then d.openFor t k else d).pageView = d.pageView := by
    rw [apply_ite Dev.pageView, openFor_pageView, ite_self]
  unfold Dev.takePage
  split
  · exact Dev.landPage_foot.pageView_eq (by decide)
  · extract_lets opened stream
    split <;> exact hopen

theorem drawSlot_pageView (d : Dev) (t k : Nat) : (d.drawSlot t k false).1.pageView = d.pageView := by
  have hzone : ∀ e : Dev, (e.zoneUse t k 1).pageView = e.pageView := fun e => Dev.zoneUse_foot.pageView_eq (by decide)
  unfold Dev.drawSlot
  simp only [Bool.false_eq_true, if_false]
  split
  · exact hzone d
  · split
    · exact takePage_pageView d t k
    · exact (hzone _).trans (takePage_pageView d t k)

theorem metaOne_pageView (d : Dev) (t : Nat) (m : MetaRec) : (d.metaOne t m).pageView = d.pageView := by
  unfold Dev.metaOne
  extract_lets slot
  split
  · exact drawSlot_pageView d t 3
  · exact (Dev.putMetas_foot.pageView_eq (by decide)).trans (drawSlot_pageView d t 3)

theorem metaPut_pageView (d : Dev) (t kind : Nat) (l : List (Nat × List (Nat × Nat))) : (d.metaPut t kind l).pageView = d.pageView :=
  (Dev.closeStream_foot.pageView_eq (by decide)).trans (foldl_keeps (fun _ _ _ => metaOne_pageView ..) d)

theorem ctxSave_pageView (d : Dev) (c : Nat) : (d.ctxSave c).pageView = d.pageView := metaPut_pageView ..
theorem rtSave_pageView (d : Dev) (g : Nat) : (d.rtSave g).pageView = d.pageView := metaPut_pageView ..

/-! ### What a commit's later steps leave alone -/

/-- The Region Table and the changes to it not yet committed. -/
def Dev.rtView (d : Dev) : Tbl Granule × List RtChange := (d.ctxs.rt, d.ctxs.rtPend)

theorem ChangesOnly.rtView_eq {S : List Part} {d e : Dev} (h : ChangesOnly S d e) (hp : Part.ctxs ∉ S) : e.rtView = d.rtView := by
  rw [Dev.rtView, h.ctxs_eq hp, Dev.rtView]

/-- The two devices have the same memory, Region Table with its waiting changes, held requests and dirty pages. -/
structure SameViews (d e : Dev) : Prop where
  mem : e.mem = d.mem
  rt : e.rtView = d.rtView
  page : e.pageView = d.pageView

theorem SameViews.held {d e : Dev} (h : SameViews d e) : e.expo.held = d.expo.held := congrArg Prod.fst h.page

theorem SameViews.refl (d : Dev) : SameViews d d := ⟨rfl, rfl, rfl⟩

theorem SameViews.trans {a b c : Dev} (h : SameViews a b) (k : SameViews b c) : SameViews a c :=
  ⟨k.mem.trans h.mem, k.rt.trans h.rt, k.page.trans h.page⟩

theorem SameViews.of_foot {S : List Part} {d e : Dev} (h : ChangesOnly S d e) (hS : ∀ p ∈ S, p ∉ [Part.mem, .ctxs, .expo]) : SameViews d e :=
  ⟨h.mem_eq fun hp => hS _ hp (by decide), h.rtView_eq fun hp => hS _ hp (by decide),
    h.pageView_eq fun hp => hS _ hp (by decide)⟩

theorem SameViews.ite {c : Prop} {_ : Decidable c} {d a b : Dev} (ha : SameViews d a) (hb : SameViews d b) : SameViews d (if c then a else b) := by
  split <;> assumption

theorem SameViews.foldl {α : Type} {f : Dev → α → Dev} (hf : ∀ e a, SameViews e (f e a)) (l : List α) (d : Dev) : SameViews d (l.foldl f d) := by
  induction l generalizing d with
  | nil => exact .refl d
  | cons a l ih => exact (hf d a).trans (ih _)

theorem onCtx_sameViews (d : Dev) (c : Nat) (f : Ctx → Ctx) : SameViews d (d.onCtx c f) := ⟨rfl, rfl, rfl⟩

theorem ctxSave_sameViews (d : Dev) (c : Nat) : SameViews d (d.ctxSave c) :=
  ⟨Dev.ctxSave_foot.mem_eq (by decide), Dev.ctxSave_foot.rtView_eq (by decide), ctxSave_pageView d c⟩

theorem rtSave_sameViews (d : Dev) (g : Nat) : SameViews d (d.rtSave g) :=
  ⟨Dev.rtSave_foot.mem_eq (by decide), Dev.rtSave_foot.rtView_eq (by decide), rtSave_pageView d g⟩

theorem rollbackEnd_sameViews (d : Dev) (c : Nat) : SameViews d (d.rollbackEnd c) := by
  unfold Dev.rollbackEnd
  split
  · exact .refl d
  · extract_lets ended
    have hended : SameViews d ended := onCtx_sameViews ..
    refine hended.trans (.ite ?_ (ctxSave_sameViews ..))
    exact ((onCtx_sameViews ..).trans (ctxSave_sameViews ..)).trans (.of_foot Dev.raise_foot (by decide))

theorem dcOffer_sameViews (d : Dev) (h c : Nat) (gs : List Nat) (release : Bool) (deadline : Option Nat) (by_ : Nat) :
    SameViews d (d.dcOffer h c gs release deadline by_) := by
  unfold Dev.dcOffer
  extract_lets offer listed
  have hlisted : SameViews d listed := .of_foot Dev.onHead_foot (by decide)
  exact ((hlisted.trans (onCtx_sameViews ..)).trans (ctxSave_sameViews ..)).trans (.of_foot Dev.dcPost_foot (by decide))

theorem ringAreas_sameViews (d : Dev) (c : Nat) : SameViews d (d.ringAreas c) :=
  .foldl (fun _ _ => .ite (.refl _) ((onCtx_sameViews ..).trans (.of_foot Dev.raise_foot (by decide)))) ..

theorem disarmIf_pageView (d : Dev) (f : Nat → Bool) : (d.disarmIf f).pageView = d.pageView := rfl

theorem cleanPages_pageView (d : Dev) (f : Nat → Bool) :
    (d.cleanPages f).pageView = (d.expo.held, d.expo.dirty.filter fun x => !f x.page) := rfl

theorem cleanPages_held (d : Dev) (f : Nat → Bool) : (d.cleanPages f).expo.held = d.expo.held := rfl

/-- A trim leaves none of its granule's pages dirty (R178). -/
theorem trimGranule_pageView (d : Dev) (c g : Nat) :
    (d.trimGranule c g).pageView = (d.expo.held, d.expo.dirty.filter fun x => !(pageGran x.page == g)) := by
  unfold Dev.trimGranule
  extract_lets logged recorded cleared
  have hview : cleared.pageView = d.pageView := (Dev.clearLoc_foot.pageView_eq (by decide)).trans (ledgerAll_pageView ..)
  obtain ⟨hheld, hdirty⟩ := Prod.mk.inj hview
  rw [disarmIf_pageView, cleanPages_pageView, hheld, hdirty]

/-! ### Nothing is performed where no request is held -/

theorem serve_of_none_held {d : Dev} (h : d.expo.held = []) : d.serve = d.onExpo fun e => { e with held := [] } := by
  have hnone : ∀ f : HeldReq → Bool, d.expo.held.filter f = [] := fun f => by rw [h, List.filter_nil]
  simp only [Dev.serve, hnone, List.foldl_nil]
  exact congrArg (fun l => { d with expo := { d.expo with held := l } }) (hnone _)

theorem serve_sameViews {d : Dev} (h : d.expo.held = []) : SameViews d d.serve := by
  rw [serve_of_none_held h]
  refine ⟨rfl, rfl, ?_⟩
  rw [Dev.pageView, Dev.pageView, h]
  rfl

/-- Requests let go of a wait and served: with none held, nothing comes of it. -/
theorem map_serve_sameViews {d : Dev} (h : d.expo.held = []) (f : HeldReq → HeldReq) :
    SameViews d (d.onExpo fun e => { e with held := e.held.map f }).serve := by
  have hmap : (d.onExpo fun e => { e with held := e.held.map f }).expo.held = [] := congrArg (List.map f) h
  have hheld : SameViews d (d.onExpo fun e => { e with held := e.held.map f }) :=
    ⟨rfl, rfl, by rw [Dev.pageView, Dev.pageView, hmap, h]; rfl⟩
  exact hheld.trans (serve_sameViews hmap)

/-! ### The commit of a change to the Region Table (R33, R45, R178) -/

/-- The granule's waiting changes are dropped, and a trim, if it comes with one, is done; `c` is the context it belonged to. -/
def Dev.commitTrim (d : Dev) (x : RtChange) (c : Nat) : Dev :=
  let d := d.onCtxs fun s => { s with rtPend := s.rtPend.filter fun y => !(y.granule == x.granule) }
  if x.trim then (d.trimGranule c x.granule).onCtxs fun s => { s with rollback := s.rollback.filter fun p => pageGran p != x.granule } else d

/-- The granule's entry is replaced and saved; a rollback that waited for the granule may end. -/
def Dev.commitEntry (d : Dev) (x : RtChange) (old : Granule) (c : Nat) : Dev :=
  (((d.onGran x.granule fun _ => { x.entry with isolated := old.isolated }).rtSave x.granule).ctxSave c).rollbackEnd old.context

/-- A head is offered the granule, or loses it. -/
def Dev.commitOffer (d : Dev) (x : RtChange) (old : Granule) (c : Nat) : Dev :=
  let d := if x.offer ≠ 0 then d.dcOffer (x.offer - 1) c [x.granule] false none 2 else d
  if !x.entry.valid then
    (d.onHead (old.head - 1) fun h => { h with extents := h.extents.filter fun e => e.1 != x.granule }).ringAreas c
  else d

/-- A request held for the class change of granule `g` waits for it no longer. -/
def HeldReq.classDone (g : Nat) (r : HeldReq) : HeldReq :=
  if r.forClass ∧ pageGran (linePage r.line) = g then { r with forClass := false } else r

/-- The background commands that waited for the last change of context `c` end. -/
def Dev.commitAnswer (d : Dev) (c : Nat) : Dev :=
  if d.ctxs.rtPend.any fun y => y.entry.context == c || (d.gran y.granule).context == c then d
  else
    let d := if d.releasing c then d else d.bgEndAny 0xC412 0 fun a => a == c
    [0xC411, 0xC413, 0xC414].foldl (fun d op => d.bgEndAny op 0 fun a => a == c) d

/-- The context whose table entry a commit saves. -/
def RtChange.ctxOf (x : RtChange) (old : Granule) : Nat := if x.entry.valid then x.entry.context else old.context

theorem rtCommit_eq (d : Dev) (x : RtChange) : d.rtCommit x =
    ((((((d.commitTrim x (d.gran x.granule).context).commitEntry x (d.gran x.granule) (x.ctxOf (d.gran x.granule))).commitOffer x
      (d.gran x.granule) (x.ctxOf (d.gran x.granule))).onExpo fun e => { e with held := e.held.map (HeldReq.classDone x.granule) }).serve).commitAnswer
        (x.ctxOf (d.gran x.granule))) := rfl

theorem commitTrim_views (d : Dev) (x : RtChange) (c : Nat) :
    (d.commitTrim x c).mem = d.mem ∧ (d.commitTrim x c).rtView = (d.ctxs.rt, d.ctxs.rtPend.filter fun y => !(y.granule == x.granule)) ∧
      (d.commitTrim x c).pageView =
        (d.expo.held, if x.trim then d.expo.dirty.filter fun y => !(pageGran y.page == x.granule) else d.expo.dirty) := by
  unfold Dev.commitTrim
  extract_lets taken
  by_cases htrim : x.trim = true
  · have hmem : (taken.trimGranule c x.granule).mem = taken.mem := Dev.trimGranule_foot.mem_eq (by decide)
    have hctxs : (taken.trimGranule c x.granule).ctxs = taken.ctxs := Dev.trimGranule_foot.ctxs_eq (by decide)
    have hpage := trimGranule_pageView taken c x.granule
    simp only [if_pos htrim]
    generalize taken.trimGranule c x.granule = done at hmem hctxs hpage
    refine ⟨hmem, ?_, hpage⟩
    rw [Dev.rtView, onCtxs_ctxs, hctxs]
    rfl
  · simp only [if_neg htrim]
    exact ⟨rfl, rfl, rfl⟩

theorem commitEntry_views (d : Dev) (x : RtChange) (old : Granule) (c : Nat) :
    (d.commitEntry x old c).mem = d.mem ∧ (d.commitEntry x old c).pageView = d.pageView ∧ (d.commitEntry x old c).rtView =
      (tmod d.ctxs.rt {} x.granule fun _ => { x.entry with isolated := old.isolated }, d.ctxs.rtPend) := by
  unfold Dev.commitEntry
  set placed := d.onGran x.granule fun _ => { x.entry with isolated := old.isolated } with hplaced
  have hkept := ((rtSave_sameViews placed x.granule).trans (ctxSave_sameViews _ c)).trans (rollbackEnd_sameViews _ old.context)
  exact ⟨hkept.mem, hkept.page, hkept.rt⟩

theorem commitOffer_sameViews (d : Dev) (x : RtChange) (old : Granule) (c : Nat) : SameViews d (d.commitOffer x old c) := by
  unfold Dev.commitOffer
  extract_lets offered
  have hoffered : SameViews d offered := .ite (dcOffer_sameViews ..) (.refl d)
  exact .ite ((hoffered.trans (.of_foot Dev.onHead_foot (by decide))).trans (ringAreas_sameViews ..)) hoffered

theorem commitAnswer_sameViews (d : Dev) (c : Nat) : SameViews d (d.commitAnswer c) := by
  have hend : ∀ (e : Dev) (op : Nat), SameViews e (e.bgEndAny op 0 fun a => a == c) := fun _ _ => .of_foot Dev.bgEndAny_foot (by decide)
  exact .ite (.refl d) ((SameViews.ite (.refl d) (hend d _)).trans (.foldl (fun e op => hend e op) ..))

/-- With no request held, a commit gives the granule its entry and drops its waiting changes, keeps the memory, holds nothing, and after a
trim leaves none of the granule's pages dirty. -/
theorem rtCommit_effect {d : Dev} (hheld : d.expo.held = []) (x : RtChange) :
    (d.rtCommit x).mem = d.mem ∧
      (d.rtCommit x).rtView = (tmod d.ctxs.rt {} x.granule fun _ => { x.entry with isolated := (d.gran x.granule).isolated },
        d.ctxs.rtPend.filter fun y => !(y.granule == x.granule)) ∧
      (d.rtCommit x).pageView = ([], if x.trim then d.expo.dirty.filter fun y => !(pageGran y.page == x.granule) else d.expo.dirty) := by
  rw [rtCommit_eq]
  set old := d.gran x.granule
  set c := x.ctxOf old
  set trimmed := d.commitTrim x old.context with htrimmed
  set entered := trimmed.commitEntry x old c with hentered
  obtain ⟨hmem, hrt, hpage⟩ := commitTrim_views d x old.context
  obtain ⟨hmem', hpage', hrt'⟩ := commitEntry_views trimmed x old c
  rw [← htrimmed] at hmem hrt hpage
  rw [← hentered] at hmem' hrt' hpage'
  have hoffered := commitOffer_sameViews entered x old c
  have hnone : (entered.commitOffer x old c).expo.held = [] := by
    rw [← hheld]
    exact congrArg Prod.fst (hoffered.page.trans (hpage'.trans hpage))
  have hkept := (hoffered.trans (map_serve_sameViews hnone (HeldReq.classDone x.granule))).trans (commitAnswer_sameViews _ c)
  refine ⟨hkept.mem.trans (hmem'.trans hmem), hkept.rt.trans ?_, hkept.page.trans (hpage'.trans (by rw [hpage, hheld]))⟩
  obtain ⟨htable, hpend⟩ := Prod.mk.inj hrt
  rw [hrt', htable, hpend]

theorem fetchDone_sameViews {d : Dev} (h : d.expo.held = []) (p : Nat) : SameViews d (d.fetchDone p) := by
  unfold Dev.fetchDone
  extract_lets fetched f
  have hfetched : SameViews d fetched := .of_foot Dev.onRestore_foot (by decide)
  exact hfetched.trans (map_serve_sameViews (d := fetched) h f)

/-- With no request held, a zero fill zeroes the granule's bytes, and leaves the Region Table and nothing held (R45, R177). -/
theorem zeroGranule_effect {d : Dev} (hheld : d.expo.held = []) (g : Nat) :
    (d.zeroGranule g).mem = d.mem.clear (g * 2 ^ 30) (2 ^ 30) ∧ (d.zeroGranule g).rtView = d.rtView ∧ (d.zeroGranule g).expo.held = [] := by
  unfold Dev.zeroGranule
  extract_lets zeroed unpoisoned listed cleared marked
  have hlisted : ChangesOnly [.heads] unpoisoned listed := .foldl (fun _ _ h => .step Dev.onHead_foot (by decide) h) (.refl _ _)
  have hcleared : ChangesOnly [.strata, .flash] listed cleared := Dev.clearLoc_foot
  have hmarked : ChangesOnly [.restore] cleared marked :=
    .foldl (fun _ _ h => .ite (.step Dev.markRange_foot (by decide) h) (.step Dev.markRange_foot (by decide) h)) (.refl _ _)
  have hkept : SameViews unpoisoned marked :=
    ((SameViews.of_foot hlisted (by decide)).trans (.of_foot hcleared (by decide))).trans (.of_foot hmarked (by decide))
  set cleaned := marked.cleanPages fun p => pageGran p == g
  have hcleaned : ChangesOnly [.expo] marked cleaned := Dev.cleanPages_foot
  have hnone : cleaned.expo.held = [] := ((cleanPages_held ..).trans hkept.held).trans hheld
  have hdone := fetchDone_sameViews hnone (g * 262144)
  exact ⟨(hdone.mem.trans (hcleaned.mem_eq (by decide))).trans hkept.mem, (hdone.rt.trans (hcleaned.rtView_eq (by decide))).trans hkept.rt,
    hdone.held.trans hnone⟩

theorem gran_of_rtView {d e : Dev} {g : Nat} {f : Granule → Granule} {l : List RtChange} (h : e.rtView = (tmod d.ctxs.rt {} g f, l)) :
    e.gran g = f (d.gran g) := by
  rw [Dev.gran, (Prod.mk.inj h).1, tget_tmod, Dev.gran]

/-! ### Offers of dynamic capacity (R176 to R178) -/

theorem bgEnd_dcOffers (d : Dev) (p op ext h : Nat) : ((d.bgEnd p op ext).head h).dcOffers = (d.head h).dcOffers := by
  unfold Dev.bgEnd
  split
  · rw [Dev.head, Dev.mirrorNow_foot.heads_eq (by decide), ← Dev.head]
    unfold Dev.onBg
    split
    · by_cases hp : h = p
      · rw [hp, head_onHead]
      · rw [head_onHead_ne _ _ hp]
    · rfl
  · rfl

/-! ### Metering (R208 to R211) -/

/-- The next minute boundary lies after the present time, by at most a minute (R208). -/
theorem nextBoundary_bounds (d : Dev) (t : Nat) : t < d.nextBoundary t ∧ d.nextBoundary t ≤ t + 60000000000 := by
  unfold Dev.nextBoundary
  extract_lets u
  have hnonneg : 0 ≤ ((t : Int) + u) % 60000000000 := Int.emod_nonneg _ (by decide)
  have hlt : ((t : Int) + u) % 60000000000 < 60000000000 := Int.emod_lt_of_pos _ (by decide)
  omega

theorem cutMeter_start (d : Dev) (c : Nat) (flags : BitVec 16) : ((d.cutMeter c flags).ctx c).meterStart = d.now := by
  unfold Dev.cutMeter
  rw [ctx_onCtx]

theorem cutMeter_start_ne (d : Dev) {c k : Nat} (flags : BitVec 16) (hk : k ≠ c) :
    ((d.cutMeter c flags).ctx k).meterStart = (d.ctx k).meterStart := by
  unfold Dev.cutMeter
  rw [ctx_onCtx_ne _ _ hk]

/-- A minute boundary's work on one context: its record is cut, and strata over its age are released. -/
def Dev.minuteCtx (d : Dev) (c : Nat) : Dev := (d.cutMeter c 0).ageStrata c

theorem minuteCtx_foot (d : Dev) (c : Nat) : ChangesOnly [.expo, .strata, .flash, .ctxs] d (d.minuteCtx c) :=
  .step Dev.ageStrata_foot (by decide) (Dev.cutMeter_foot.mono (by decide))

theorem minuteCtx_start (d : Dev) (c : Nat) : ((d.minuteCtx c).ctx c).meterStart = d.now := by
  rw [Dev.minuteCtx, ctx_congr (Dev.ageStrata_foot.ctxs_eq (by decide)), cutMeter_start]

theorem minuteCtx_start_ne (d : Dev) {c k : Nat} (hk : k ≠ c) : ((d.minuteCtx c).ctx k).meterStart = (d.ctx k).meterStart := by
  rw [Dev.minuteCtx, ctx_congr (Dev.ageStrata_foot.ctxs_eq (by decide)), cutMeter_start_ne _ _ hk]

theorem foldl_minuteCtx_now (l : List Nat) (d : Dev) : (l.foldl Dev.minuteCtx d).now = d.now :=
  foldl_keeps (fun e c _ => now_congr ((minuteCtx_foot e c).qtz_eq (by decide))) d

/-- Every context of the list starts a new record. -/
theorem foldl_minuteCtx_start {l : List Nat} {c : Nat} (hc : c ∈ l) (d : Dev) : ((l.foldl Dev.minuteCtx d).ctx c).meterStart = d.now := by
  induction l generalizing d with
  | nil => cases hc
  | cons k l ih =>
    rw [List.foldl_cons]
    by_cases hl : c ∈ l
    · rw [ih hl, now_congr ((minuteCtx_foot d k).qtz_eq (by decide))]
    · have hck : c = k := (List.mem_cons.mp hc).resolve_right hl
      rw [foldl_keeps (π := fun e : Dev => (e.ctx c).meterStart) fun e j hj => minuteCtx_start_ne e fun h => hl (h ▸ hj), hck, minuteCtx_start]

/-- What writing the metering records of the tiles of `l` makes of an entry of the context table: a context that one of them meters has none
unwritten (R211). -/
def metered (l : List Nat) (x : Nat × Ctx) : Nat × Ctx := if x.1 % 8 ∈ l then (x.1, { x.2 with unwritten := 0 }) else x

theorem metered_unwritten {l : List Nat} {x : Nat × Ctx} (h : (metered l x).1 % 8 ∈ l) : (metered l x).2.unwritten = 0 := by
  unfold metered at h ⊢
  split at h
  · rename_i hl
    rw [if_pos hl]
  · exact absurd h ‹_›

theorem metered_metered (t : Nat) (l : List Nat) (x : Nat × Ctx) : metered l (metered [t] x) = metered (t :: l) x := by
  unfold metered
  by_cases ht : x.1 % 8 = t
  · simp [ht]
  · simp [ht]

theorem meterSave_tbl (d : Dev) (t : Nat) :
    (d.meterSave t).ctxs.tbl = d.ctxs.tbl.map (metered [t]) ∧ (d.meterSave t).ctxs.rt = d.ctxs.rt := by
  unfold Dev.meterSave
  extract_lets rs n put counted
  have hput : ChangesOnly [.expo, .flash] d put := Dev.metaPut_foot
  have hcounted : ChangesOnly [.flash] put counted := Dev.onFl_foot
  rw [onCtxs_ctxs, hcounted.ctxs_eq (by decide), hput.ctxs_eq (by decide)]
  refine ⟨List.map_congr_left fun x _ => ?_, rfl⟩
  simp only [metered, List.mem_singleton]

theorem foldl_meterSave_tbl (l : List Nat) (d : Dev) : (l.foldl Dev.meterSave d).ctxs.tbl = d.ctxs.tbl.map (metered l) := by
  induction l generalizing d with
  | nil =>
    have hid : metered [] = id := funext fun x => if_neg List.not_mem_nil
    rw [List.foldl_nil, hid, List.map_id]
  | cons t l ih =>
    rw [List.foldl_cons, ih, (meterSave_tbl d t).1, List.map_map]
    exact List.map_congr_left fun x _ => metered_metered t l x

/-! ### The steps of a sanitize (R205) -/

/-- The work of step 2 of a sanitize of context `c`: its granules leave the head, and each is committed out of it, trimmed and zeroed. -/
def Dev.sanitizeGrans (d : Dev) (c : Nat) : Dev :=
  (d.ctxGrans c).foldl (fun d g => (d.rtCommit { granule := g, entry := {}, trim := true }).zeroGranule g)
    (d.dcForced ((d.ctx c).owner - 1) c (d.ctxGrans c))

/-- The work of step 3: the keys are erased, and the blocks with earlier wrapped keys emptied. -/
def Dev.sanitizeKeys (d : Dev) (c : Nat) : Dev := d.inSvc.foldl (fun d t => d.dropOldKeys t c) (d.keyErase c)

/-- The work of step 4: a context TRIM is logged on every tile in service, the context's strata are dropped and its streams stop. -/
def Dev.sanitizeStrata (d : Dev) (c : Nat) : Dev :=
  ((d.ledgerAll d.inSvc 0x12 c 0).onStrata fun s => { s with
    trims := { context := c, granule := none, time := (d.ledgerAll d.inSvc 0x12 c 0).now } :: s.trims
    strata := s.strata.filter fun st => st.context != c }).stopStreams c

section
variable {s : State} {c : Nat} (dt : Nat) (hstate : (s.dev.ctx c).state = 4) (hfrozen : s.dev.sealing.frozen = false)
  (hready : s.dev.restore.ready = true) (hsafe : s.dev.pkg.safe = 0)
include hstate hfrozen hready hsafe

omit dt in
/-- The condition under which SANITIZE_STEP_DONE only lets time pass does not hold. -/
theorem sanitize_served : ¬ ((s.dev.ctx c).state ≠ 4 ∨ s.dev.sealing.frozen ∨ !s.dev.restore.ready ∨ s.dev.pkg.safe ≠ 0) := by
  simp [hstate, hfrozen, hready, hsafe]

theorem sanitize_after_step1 (hstep : (s.dev.ctx c).sanStep = 1) : execSanitizeStepDone c dt s = s.run fun d =>
    ((d.elapse dt).ctxSave c).onCtx c fun x => { x with sanStep := 2 } := by
  have hserved := sanitize_served hstate hfrozen hready hsafe
  simp only [execSanitizeStepDone, State.run, elapse_ctx, elapse_sealing, elapse_restore, elapse_pkg, if_neg hserved, hstep]

theorem sanitize_after_step2 (hstep : (s.dev.ctx c).sanStep = 2) : execSanitizeStepDone c dt s = s.run fun d =>
    ((d.elapse dt).sanitizeGrans c).onCtx c fun x => { x with sanStep := 3 } := by
  have hserved := sanitize_served hstate hfrozen hready hsafe
  simp only [execSanitizeStepDone, State.run, elapse_ctx, elapse_sealing, elapse_restore, elapse_pkg, if_neg hserved, hstep]
  rfl

theorem sanitize_after_step3 (hstep : (s.dev.ctx c).sanStep = 3) : execSanitizeStepDone c dt s = s.run fun d =>
    ((d.elapse dt).sanitizeKeys c).onCtx c fun x => { x with sanStep := 6 } := by
  have hserved := sanitize_served hstate hfrozen hready hsafe
  simp only [execSanitizeStepDone, State.run, elapse_ctx, elapse_sealing, elapse_restore, elapse_pkg, if_neg hserved, hstep]
  rfl

/-- The third step ends once no metadata block holds an earlier wrapped key. -/
theorem sanitize_after_step6 (hstep : (s.dev.ctx c).sanStep = 6) (hold : ∀ t ∈ s.dev.inSvc, s.dev.oldKeyBlocks t c = []) :
    execSanitizeStepDone c dt s = s.run fun d => (d.elapse dt).onCtx c fun x => { x with sanStep := 4 } := by
  have herased : ((s.dev.elapse dt).inSvc.all fun t => ((s.dev.elapse dt).oldKeyBlocks t c).isEmpty) = true :=
    List.all_eq_true.mpr fun t ht => List.isEmpty_iff.mpr (hold t ht)
  have hserved := sanitize_served hstate hfrozen hready hsafe
  simp only [execSanitizeStepDone, State.run, elapse_ctx, elapse_sealing, elapse_restore, elapse_pkg, if_neg hserved, hstep, herased,
    if_true]

theorem sanitize_after_step4 (hstep : (s.dev.ctx c).sanStep = 4) : execSanitizeStepDone c dt s = s.run fun d =>
    ((d.elapse dt).sanitizeStrata c).onCtx c fun x => { x with sanStep := 5 } := by
  have hserved := sanitize_served hstate hfrozen hready hsafe
  simp only [execSanitizeStepDone, State.run, elapse_ctx, elapse_sealing, elapse_restore, elapse_pkg, if_neg hserved, hstep]
  rfl

theorem sanitize_after_step5 (hstep : (s.dev.ctx c).sanStep = 5) :
    execSanitizeStepDone c dt s = s.run fun d => (d.elapse dt).sanitizeEnd c := by
  have hserved := sanitize_served hstate hfrozen hready hsafe
  simp only [execSanitizeStepDone, State.run, elapse_ctx, elapse_sealing, elapse_restore, elapse_pkg, if_neg hserved, hstep]

end

theorem sanitizeStrata_effect (d : Dev) (c : Nat) :
    (∀ x ∈ (d.sanitizeStrata c).strata.strata, x.context ≠ c) ∧
      (d.sanitizeStrata c).strata.trims.head? = some { context := c, granule := none, time := d.now } := by
  have hlogged : ChangesOnly [.expo, .flash] d (d.ledgerAll d.inSvc 0x12 c 0) := Dev.ledgerAll_foot
  unfold Dev.sanitizeStrata
  rw [Dev.stopStreams_foot.strata_eq (by decide), onStrata_strata, now_congr (hlogged.qtz_eq (by decide))]
  refine ⟨fun x hx => ?_, rfl⟩
  simpa using (List.mem_filter.mp hx).2

theorem sanitizeEnd_effect (d : Dev) (c : Nat) :
    ((d.sanitizeEnd c).ctx c).state = 0 ∧ ((d.sanitizeEnd c).ctx c).gen = ((d.ctx c).gen + 1) % 4 ∧ ((d.sanitizeEnd c).ctx c).owner = 0 := by
  unfold Dev.sanitizeEnd
  extract_lets cut
  have hcut : (cut.ctx c).state = 0 ∧ (cut.ctx c).gen = (d.ctx c).gen := by
    simp only [cut, Dev.cutMeter, Dev.ctxState, ctx_onCtx, and_self]
  rw [ctx_congr (Dev.bgEndAny_foot.ctxs_eq (by decide)), ctx_congr (Dev.ctxSave_foot.ctxs_eq (by decide)), ctx_onCtx]
  exact ⟨hcut.1, by rw [← hcut.2], rfl⟩

theorem keyErase_effect (d : Dev) (c : Nat) :
    ((d.keyErase c).ctx c).keyValid = 0 ∧ ((d.keyErase c).ctx c).keyMeta = false ∧
      ∀ x ∈ (d.keyErase c).ctxs.keyCache, x.2.contains c = false := by
  unfold Dev.keyErase
  extract_lets uncached erased
  have hsaved : ChangesOnly [.expo, .flash] erased (erased.inSvc.foldl (fun d t => d.keySave t c) erased) :=
    .foldl (fun _ _ h => .step Dev.keySave_foot (by decide) h) (.refl _ _)
  rw [ctx_congr (hsaved.ctxs_eq (by decide)), hsaved.ctxs_eq (by decide)]
  have hctx : erased.ctx c = { uncached.ctx c with keyValid := 0, keyMeta := false } := ctx_onCtx ..
  refine ⟨by rw [hctx], by rw [hctx], fun x hx => ?_⟩
  obtain ⟨y, -, rfl⟩ := List.mem_map.mp hx
  simp

theorem sanitizeKeys_effect (d : Dev) (c : Nat) :
    ((d.sanitizeKeys c).ctx c).keyValid = 0 ∧ ((d.sanitizeKeys c).ctx c).keyMeta = false ∧
      ∀ x ∈ (d.sanitizeKeys c).ctxs.keyCache, x.2.contains c = false := by
  have hdropped : ChangesOnly [.expo, .strata, .flash, .flint] (d.keyErase c) (d.sanitizeKeys c) :=
    .foldl (fun _ _ h => .step Dev.dropOldKeys_foot (by decide) h) (.refl _ _)
  rw [ctx_congr (hdropped.ctxs_eq (by decide)), hdropped.ctxs_eq (by decide)]
  exact keyErase_effect d c

/-- Settles O27: a commit and a zero fill do nothing but their own work while no request is held; every other row is read off its fold or its
last update. -/
theorem regionTableAndSanitizeRows : Obligations.RegionTableAndSanitizeRows := by
  unfold Obligations.RegionTableAndSanitizeRows
  refine ⟨?commit, ?fill, ?release, ?minute, ?metering, ?step1, ?step2, ?step3, ?step6, ?step4, ?step5⟩
  case commit =>
    intro s g replBad dt x hfind hwait hzero hfrozen hheld
    refine .of_foot execRegionTableCommit_foot (by decide) rfl rfl ?_
    extract_lets d d'
    have hfoot : ChangesOnly [.flint] d d' := .ite Dev.raise_foot (.refl _ _)
    have hctxs : d'.ctxs = s.dev.ctxs := hfoot.ctxs_eq (by decide)
    have hexpo : d'.expo = s.dev.expo := hfoot.expo_eq (by decide)
    have hsealing : d'.sealing = s.dev.sealing := hfoot.sealing_eq (by decide)
    have hcommits : ¬ (x.waitFill ∨ x.zero ∨ d'.sealing.frozen) := by simp [hwait, hzero, hsealing, hfrozen]
    have hg : x.granule = g := by simpa using List.find?_some hfind
    rw [← hctxs] at hfind
    simp only [hfind, if_neg hcommits]
    obtain ⟨-, hrt, hpage⟩ := rtCommit_effect (by rw [hexpo]; exact hheld) x
    rw [hg] at hrt hpage
    refine ⟨?_, ?_, fun htrim y hy => ?_⟩
    · rw [gran_of_rtView hrt, Dev.gran, Dev.gran, hctxs]
    · rw [← hctxs]
      exact congrArg Prod.snd hrt
    · rw [if_pos htrim] at hpage
      rw [show (d'.rtCommit x).expo.dirty = _ from congrArg Prod.snd hpage] at hy
      simpa using (List.mem_filter.mp hy).2
  case fill =>
    intro s g dt x hfind hfrozen hheld
    refine .of_foot execZeroFillComplete_foot (by decide) rfl rfl ?_
    have hg : x.granule = g := by
      have hx := List.find?_some hfind
      simp only [Bool.and_eq_true, beq_iff_eq] at hx
      exact hx.1
    obtain ⟨hmem, hrt, hnone⟩ := zeroGranule_effect (d := s.dev.elapse dt) hheld g
    obtain ⟨hmem', hrt', -⟩ := rtCommit_effect hnone x
    have hbyte : ∀ a, (((s.dev.elapse dt).zeroGranule g).rtCommit x).mem.byte a = if a / 2 ^ 30 = g then 0 else s.dev.mem.byte a := fun a => by
      rw [hmem', hmem, Mem.byte_clear, elapse_mem]
      exact ite_congr (propext (by omega)) (fun _ => rfl) fun _ => rfl
    simp only [elapse_ctxs, hfind, elapse_sealing, hfrozen, Bool.false_eq_true, if_false]
    rw [hg] at hrt'
    refine ⟨?_, fun a ha => by rw [hbyte, if_pos ha], fun a ha => by rw [hbyte, if_neg ha]⟩
    rw [gran_of_rtView hrt', Dev.gran, (Prod.mk.inj hrt).1]
    rfl
  case release =>
    intro s h dt
    refine .of_foot execDcReleaseTimeout_foot (by decide) rfl rfl ?_
    extract_lets d late dead kept
    have hoffers : ((dead.foldl (fun d o => (d.dcSettle o.context).bgEnd o.by_ 0xC412 0xE) kept).head h.val).dcOffers =
        ((s.dev.head h.val).dcOffers.filter fun o => !late o) := by
      rw [foldl_keeps (π := fun d : Dev => (d.head h.val).dcOffers) (fun e o _ => ?_) kept, head_onHead]
      · rfl
      · rw [bgEnd_dcOffers, Dev.head, Dev.dcSettle_foot.heads_eq (by decide), ← Dev.head]
    rw [hoffers]
    refine ⟨fun o ho hrelease => ?_, fun o ho => (List.mem_filter.mp ho).1⟩
    have hnotlate := (List.mem_filter.mp ho).2
    cases hdeadline : o.deadline with
    | none => rfl
    | some t => simpa [late, hrelease, hdeadline] using hnotlate
  case minute =>
    intro s dt hdue hready
    refine .of_foot execMinuteBoundary_foot (by decide) rfl rfl ?_
    extract_lets d cut
    have hdone : d.ctxs.minuteEnd ≤ d.now ∧ d.restore.ready := ⟨hdue, hready⟩
    have hnow : cut.now = d.now := foldl_minuteCtx_now ..
    rw [if_pos hdone]
    refine ⟨?_, ?_, fun c hc => ?_⟩
    · exact hnow ▸ (nextBoundary_bounds cut cut.now).1
    · exact hnow ▸ (nextBoundary_bounds cut cut.now).2
    · exact foldl_minuteCtx_start hc d
  case metering =>
    intro s dt hfrozen hsafe
    refine .of_foot execMeteringWrite_foot (by decide) rfl rfl ?_
    extract_lets d
    have hserved : ¬ (d.sealing.frozen ∨ d.pkg.safe ≠ 0) := by simp [d, hfrozen, hsafe]
    rw [if_neg hserved]
    refine ⟨fun x hx ht => ?_, foldl_keeps (π := fun d : Dev => d.ctxs.rt) (fun e t _ => (meterSave_tbl e t).2) _⟩
    rw [foldl_meterSave_tbl] at hx
    obtain ⟨y, -, rfl⟩ := List.mem_map.mp hx
    exact metered_unwritten ht
  case step1 =>
    intro s c dt hstate hstep hfrozen hready hsafe
    refine .of_foot execSanitizeStepDone_foot (by decide) rfl (sanitize_after_step1 dt hstate hfrozen hready hsafe hstep) ?_
    rw [ctx_onCtx, ctx_congr (Dev.ctxSave_foot.ctxs_eq (by decide))]
    exact ⟨rfl, hstate⟩
  case step2 =>
    intro s c dt hstate hstep hfrozen hready hsafe
    refine .of_foot execSanitizeStepDone_foot (by decide) rfl (sanitize_after_step2 dt hstate hfrozen hready hsafe hstep) ?_
    rw [ctx_onCtx]
  case step3 =>
    intro s c dt hstate hstep hfrozen hready hsafe
    refine .of_foot execSanitizeStepDone_foot (by decide) rfl (sanitize_after_step3 dt hstate hfrozen hready hsafe hstep) ?_
    rw [ctx_onCtx]
    exact ⟨rfl, sanitizeKeys_effect (s.dev.elapse dt) c⟩
  case step6 =>
    intro s c dt hstate hstep hfrozen hready hsafe hold
    refine .of_foot execSanitizeStepDone_foot (by decide) rfl (sanitize_after_step6 dt hstate hfrozen hready hsafe hstep hold) ?_
    rw [ctx_onCtx]
  case step4 =>
    intro s c dt hstate hstep hfrozen hready hsafe
    refine .of_foot execSanitizeStepDone_foot (by decide) rfl (sanitize_after_step4 dt hstate hfrozen hready hsafe hstep) ?_
    rw [ctx_onCtx]
    exact ⟨rfl, sanitizeStrata_effect (s.dev.elapse dt) c⟩
  case step5 =>
    intro s c dt hstate hstep hfrozen hready hsafe
    exact .of_foot execSanitizeStepDone_foot (by decide) rfl (sanitize_after_step5 dt hstate hfrozen hready hsafe hstep)
      (sanitizeEnd_effect (s.dev.elapse dt) c)

end Sys2Proof.Machine
end

section
/-! LEMMAS. What a step keeps of two invariants: the DRAM contents are canonical, and every dirty page lies in an armed group. `Kept d e` says that
from `d` to `e` both are kept; an operation that touches neither part keeps them by its footprint, the others by the lemmas of this file. -/

set_option Elab.async false
namespace Sys2Proof.Machine

/-- From `d` to `e` the DRAM contents stay canonical, and the dirty pages stay in armed groups. -/
structure Kept (d e : Dev) : Prop where
  mem : MemOk d → MemOk e
  armed : ArmedOk d → ArmedOk e

namespace Kept
variable {d e f : Dev}

theorem refl (d : Dev) : Kept d d := ⟨id, id⟩

theorem trans (h : Kept d e) (k : Kept e f) : Kept d f := ⟨k.mem ∘ h.mem, k.armed ∘ h.armed⟩

theorem of_parts (k : Kept d e) (hmem : e.mem = f.mem) (hdirty : f.expo.dirty = e.expo.dirty) (harmed : f.expo.armed = e.expo.armed) : Kept d f where
  mem h := ⟨hmem ▸ (k.mem h).wf⟩
  armed h := by
    obtain ⟨h1, h2⟩ := k.armed h
    exact ⟨by rwa [hdirty, harmed], by rwa [hdirty, harmed]⟩

/-- An operation that touches neither memory nor exposure. -/
theorem step {S : List Part} (k : Kept d e) (h : ChangesOnly S e f) (hS : Part.mem ∉ S ∧ Part.expo ∉ S := by decide) : Kept d f :=
  k.of_parts (h.mem_eq hS.1).symm (by rw [h.expo_eq hS.2]) (by rw [h.expo_eq hS.2])

/-- A change of the exposure part that leaves the dirty pages and the armed set. -/
theorem onExpo {g : Expo → Expo} (k : Kept d e) (hg : ∀ x, (g x).dirty = x.dirty ∧ (g x).armed = x.armed := by exact fun _ => ⟨rfl, rfl⟩) :
    Kept d (e.onExpo g) :=
  k.of_parts rfl (hg e.expo).1 (hg e.expo).2

theorem ite {c : Prop} {_ : Decidable c} (h : Kept d e) (k : Kept d f) : Kept d (if c then e else f) := by split <;> assumption

theorem foldl {α : Type} {g : Dev → α → Dev} {l : List α} (k : Kept d e) (hg : ∀ e a, Kept d e → Kept d (g e a)) : Kept d (l.foldl g e) := by
  induction l generalizing e with
  | nil => exact k
  | cons a l ih => exact ih (hg _ _ k)

theorem pair {α : Type} {p : Dev × α} {x : α} (q : p = (e, x)) (k : Kept d p.1) : Kept d e := by rwa [q] at k

end Kept

/-! ### Dirty pages and armed groups -/

theorem mem_insDirty {x y : DirtyPage} {l : List DirtyPage} (h : y ∈ insDirty x l) : y = x ∨ y ∈ l := by
  induction l with
  | nil => simpa [insDirty] using h
  | cons z r ih =>
    simp only [insDirty] at h
    split at h
    · simpa using h
    · split at h
      · exact .inr h
      · rcases List.mem_cons.mp h with rfl | h
        · simp
        · exact (ih h).imp_right (List.mem_cons_of_mem _)

theorem isArmed_iff {d : Dev} {g : Nat} : d.isArmed g = true ↔ ∃ x ∈ d.expo.armed, x.group = g := by
  simp [Dev.isArmed]

theorem groupDirty_iff {d : Dev} {g : Nat} : d.groupDirty g = true ↔ ∃ x ∈ d.expo.dirty, pageGroup x.page = g := by
  simp [Dev.groupDirty]

/-- The invariant is kept when no page becomes dirty, a dirty page's group keeps its entries, and gains none with a time since which it has
been clean. -/
theorem ArmedOk.of_fewer {d e : Dev} (h : ArmedOk d) (hdirty : ∀ x ∈ e.expo.dirty, x ∈ d.expo.dirty)
    (hkeep : ∀ x ∈ e.expo.dirty, ∀ g ∈ d.expo.armed, g.group = pageGroup x.page → g ∈ e.expo.armed)
    (hnew : ∀ x ∈ e.expo.dirty, ∀ g ∈ e.expo.armed, g.group = pageGroup x.page → g ∈ d.expo.armed ∨ g.cleanSince = none) : ArmedOk e where
  armed x hx := by
    obtain ⟨g, hg, hgroup⟩ := h.armed x (hdirty x hx)
    exact ⟨g, hkeep x hx g hg hgroup, hgroup⟩
  held x hx g hg hgroup := (hnew x hx g hg hgroup).elim (fun hg => h.held x (hdirty x hx) g hg hgroup) id

namespace Kept
variable {d e : Dev}

/-- An operation that changes memory alone, and keeps its canonical form. -/
theorem onMem {g : Mem → Mem} (k : Kept d e) (hg : ∀ m, Mem.wf m = true → Mem.wf (g m) = true) : Kept d (e.onMem g) where
  mem h := Dev.onMem_memOk hg (k.mem h)
  armed h := let ⟨harmed, hheld⟩ := k.armed h; ⟨harmed, hheld⟩

/-- A change of the exposure part that keeps the invariant of the armed groups. -/
theorem onExpo_armed {g : Expo → Expo} (k : Kept d e) (hg : ArmedOk e → ArmedOk (e.onExpo g)) : Kept d (e.onExpo g) :=
  ⟨fun h => ⟨(k.mem h).wf⟩, fun h => hg (k.armed h)⟩

end Kept

/-- A page that may become dirty now: its group is armed, or it is dirty already, or its class keeps nothing. -/
def Dev.mayDirty (d : Dev) (p : Nat) : Prop := d.persistent p = true → d.isArmed (pageGroup p) = true ∨ d.isDirty p = true

theorem Dev.mayDirty.of_same {d e : Dev} {p : Nat} (h : d.mayDirty p) (hctxs : e.ctxs = d.ctxs) (hdirty : e.expo.dirty = d.expo.dirty)
    (harmed : e.expo.armed = d.expo.armed) : e.mayDirty p := by
  unfold Dev.mayDirty Dev.isArmed Dev.isDirty at *
  rwa [persistent_congr hctxs, hdirty, harmed]

theorem Dev.mayDirty.of_step {S : List Part} {d e : Dev} {p : Nat} (h : d.mayDirty p) (k : ChangesOnly S d e)
    (hS : Part.ctxs ∉ S ∧ Part.expo ∉ S := by decide) : e.mayDirty p :=
  h.of_same (k.ctxs_eq hS.1) (by rw [k.expo_eq hS.2]) (by rw [k.expo_eq hS.2])

namespace Kept
variable {d e : Dev}

theorem dirtyPage {p : Nat} (k : Kept d e) (hp : e.mayDirty p) :
    Kept d (e.dirtyPage p) := by
  unfold Dev.dirtyPage
  split
  case isFalse => exact k
  case isTrue hpers =>
    refine k.onExpo_armed fun h => ?_
    have hp' : ∃ g ∈ e.expo.armed, g.group = pageGroup p := by
      rcases hp hpers with hp | hp
      · exact isArmed_iff.mp hp
      · obtain ⟨x, hx, hxp⟩ : ∃ x ∈ e.expo.dirty, x.page = p := by simpa [Dev.isDirty] using hp
        exact hxp ▸ h.armed x hx
    have harmed : ∀ x ∈ insDirty { page := p, since := e.now } e.expo.dirty, ∃ g ∈ e.expo.armed, g.group = pageGroup x.page := by
      intro x hx
      rcases mem_insDirty hx with rfl | hx
      · exact hp'
      · exact h.armed x hx
    constructor
    · intro x hx
      obtain ⟨g, hg, hgroup⟩ := harmed x hx
      exact ⟨_, List.mem_map_of_mem hg, by split <;> exact hgroup⟩
    · intro x hx g hg hgroup
      obtain ⟨g', hg', rfl⟩ := List.mem_map.mp hg
      split at hgroup
      · simp [*]
      · rename_i hne
        rcases mem_insDirty hx with rfl | hx
        · exact absurd hgroup hne
        · simpa [hne] using h.held x hx g' hg' hgroup

theorem summaryClear (k : Kept d e) : Kept d e.summaryClear := by
  unfold Dev.summaryClear
  refine k.onExpo_armed fun h => ?_
  have hsame : ∀ x ∈ e.expo.dirty, ∀ g : ArmedGroup, g.group = pageGroup x.page → ¬ (g.cleanSince.isNone ∧ (!e.groupDirty g.group) = true) := by
    intro x hx g hgroup
    simp [groupDirty_iff.mpr ⟨x, hx, hgroup.symm⟩]
  refine h.of_fewer (fun x hx => hx) (fun x hx g hg hgroup => ?_) (fun x hx g hg hgroup => ?_)
  · exact List.mem_map.mpr ⟨g, hg, if_neg (hsame x hx g hgroup)⟩
  · obtain ⟨g', hg', rfl⟩ := List.mem_map.mp hg
    have hgroup' : g'.group = pageGroup x.page := by split at hgroup <;> exact hgroup
    rw [if_neg (hsame x hx g' hgroup')]
    exact .inl hg'

theorem cleanPages (k : Kept d e) {f : Nat → Bool} : Kept d (e.cleanPages f) := by
  unfold Dev.cleanPages
  refine (k.onExpo_armed fun h => ?_).summaryClear
  exact h.of_fewer (fun x hx => List.mem_of_mem_filter hx) (fun _ _ g hg _ => hg) (fun _ _ g hg _ => .inl hg)

end Kept

end Sys2Proof.Machine
end

section
/-! LEMMAS. What keeps memory canonical and dirty pages armed: the governor, exposure, and a host's write. -/

set_option Elab.async false
namespace Sys2Proof.Machine.Kept
variable {d e : Dev}

theorem govTrigger {cause} (k : Kept d e) : Kept d (e.govTrigger cause) := by
  unfold Dev.govTrigger
  exact k.onExpo

theorem cairn {t es} (k : Kept d e) : Kept d (e.cairn t es) := by
  unfold Dev.cairn
  exact (((k.step Dev.cairnPut_foot).foldl fun _ _ kf => kf.step Dev.onBlk_foot).step Dev.onFl_foot).onExpo

theorem ledger {t typ a b c test} (k : Kept d e) : Kept d (e.ledger t typ a b c test) := by
  unfold Dev.ledger
  exact k.cairn

theorem ledgerAll {ts typ a b c} (k : Kept d e) : Kept d (e.ledgerAll ts typ a b c) := by
  unfold Dev.ledgerAll
  exact k.foldl fun _ _ kf => kf.ledger

theorem lapseEnter (k : Kept d e) : Kept d e.lapseEnter := by
  unfold Dev.lapseEnter
  exact k.onExpo.step Dev.raise_foot

theorem lapseTrack (k : Kept d e) : Kept d e.lapseTrack := by
  unfold Dev.lapseTrack
  exact k.onExpo

theorem lapseExit (k : Kept d e) : Kept d e.lapseExit := by
  unfold Dev.lapseExit
  exact k.onExpo.step Dev.raise_foot

theorem takeCeil (k : Kept d e) : Kept d e.takeCeil := by
  unfold Dev.takeCeil
  exact k.onExpo

theorem stateEvent {changed} (k : Kept d e) : Kept d (e.stateEvent changed) := by
  unfold Dev.stateEvent
  exact .ite (k.onExpo.step Dev.raise_foot) (.ite k.onExpo k)

theorem evalStates (k : Kept d e) : Kept d e.evalStates := by
  unfold Dev.evalStates
  extract_lets _ _ _ _ e1 e2 e3 e4
  have k1 : Kept d e1 := k.onExpo
  have k2 : Kept d e2 := .ite (k1.lapseEnter.step Dev.abandonRest_foot) (.ite (k1.lapseExit.step Dev.restAgain_foot) k1)
  have k3 : Kept d e3 := .ite k2.lapseTrack k2
  have k4 : Kept d e4 := k3.stateEvent
  exact .ite (k4.step Dev.expoUpd_foot) k4

theorem grantBay {b} (k : Kept d e) : Kept d (e.grantBay b) := by
  unfold Dev.grantBay
  exact (k.step Dev.bayDo_foot).govTrigger.step Dev.expoPkgUpd_foot

theorem grantWaiting (k : Kept d e) : Kept d e.grantWaiting := by
  unfold Dev.grantWaiting
  exact k.foldl fun _ _ kf => .ite kf.grantBay kf

theorem releaseGov (k : Kept d e) : Kept d e.releaseGov := by
  unfold Dev.releaseGov
  exact k.onExpo

theorem recompute (k : Kept d e) : Kept d e.recompute := by
  unfold Dev.recompute
  exact k.grantWaiting.takeCeil.evalStates.onExpo.releaseGov

theorem storePoison {l} (k : Kept d e) : Kept d (e.storePoison l) := by
  unfold Dev.storePoison
  exact k.onExpo.onMem fun _ h => Mem.clear_wf _ _ h

theorem linePoison {l} (k : Kept d e) : Kept d (e.linePoison l) := by
  unfold Dev.linePoison
  exact (k.storePoison.step Dev.poisonEntry_foot).step Dev.raise_foot

theorem clearPoison {l} (k : Kept d e) : Kept d (e.clearPoison l) := by
  unfold Dev.clearPoison
  exact .ite ((k.onExpo.step Dev.onHead_foot).step Dev.onHead_foot) k

theorem pagePoison {p cause} (k : Kept d e) : Kept d (e.pagePoison p cause) := by
  unfold Dev.pagePoison
  exact k.onExpo.step Dev.poisonEntry_foot

theorem pageClearPoison {p} (k : Kept d e) : Kept d (e.pageClearPoison p) := by
  unfold Dev.pageClearPoison
  exact (k.onExpo.step Dev.onHead_foot).step Dev.onHead_foot

theorem loadPage {p img} (k : Kept d e) : Kept d (e.loadPage p img) := by
  unfold Dev.loadPage
  exact k.onMem fun _ h => Mem.load_wf _ (Mem.clear_wf _ _ h)

theorem loadLine {l img} (k : Kept d e) : Kept d (e.loadLine l img) := by
  unfold Dev.loadLine
  exact k.onMem fun _ h => Mem.load_wf _ (Mem.clear_wf _ _ h)

theorem repairStart {l} (k : Kept d e) : Kept d (e.repairStart l) := by
  unfold Dev.repairStart
  exact k.onExpo.step Dev.onDram_foot

theorem lineUe {l devs} (k : Kept d e) : Kept d (e.lineUe l devs).1 := by
  unfold Dev.lineUe
  extract_lets _ _ e1
  have k1 : Kept d e1 := k.step Dev.ueEvent_foot
  split
  · exact k1
  split
  · exact k1.linePoison
  split
  · split
    · exact k1.loadLine.step Dev.lineMended_foot
    exact k1.linePoison
  split
  · exact k1.linePoison
  split
  · exact k1.repairStart
  split
  · split
    · exact k1.loadLine.step Dev.lineMended_foot
    exact (k1.onMem fun _ h => Mem.clear_wf _ _ h).step Dev.lineMended_foot
  exact (k1.onMem fun _ h => Mem.clear_wf _ _ h).step Dev.lineMended_foot

theorem readLine {l errs} (k : Kept d e) : Kept d (e.readLine l errs).1 := by
  unfold Dev.readLine
  dsimp only
  split
  · exact k
  · exact k
  · exact k.step Dev.correctedEvent_foot
  · exact k.lineUe

theorem pageUe {p ue} (k : Kept d e) : Kept d (e.pageUe p ue) := by
  unfold Dev.pageUe
  exact k.foldl fun _ _ kf => .ite kf kf.lineUe

theorem requestArm {g} (k : Kept d e) : Kept d (e.requestArm g) := by
  unfold Dev.requestArm
  exact .ite k k.onExpo

theorem armFullCheck {t} (k : Kept d e) : Kept d (e.armFullCheck t) := by
  unfold Dev.armFullCheck
  exact .ite (.ite k (k.onExpo.step Dev.raise_foot)) k.onExpo

theorem finishWrite {r wasClean} (k : Kept d e) : Kept d (e.finishWrite r wasClean) := by
  unfold Dev.finishWrite
  exact .ite (k.step Dev.emit_foot) k.onExpo

theorem replicaDone {r} (k : Kept d e) : Kept d (e.replicaDone r) := by
  unfold Dev.replicaDone
  exact .ite (k.step Dev.ackPage_foot) k.onExpo

theorem startHeld {r} (k : Kept d e) : Kept d (e.startHeld r) := by
  unfold Dev.startHeld
  exact .ite (Kept.ite (k.step Dev.onRestore_foot) k).requestArm.armFullCheck (.ite (k.step Dev.onRestore_foot) k)

theorem Dev.mayDirty.clearPoison {p : Nat} (h : e.mayDirty p) (l : Nat) : (e.clearPoison l).mayDirty p := by
  unfold Dev.clearPoison
  split
  · exact h.of_same rfl rfl rfl
  · exact h

theorem doWrite {l : Nat} {data : BitVec 512} {mask : BitVec 64} (k : Kept d e) (hp : e.mayDirty (linePage l)) : Kept d (e.doWrite l data mask) := by
  unfold Dev.doWrite
  extract_lets full cleared written
  have hcleared : Kept d cleared ∧ cleared.mayDirty (linePage l) := by
    unfold cleared
    split
    · exact ⟨k.clearPoison, Dev.mayDirty.clearPoison hp l⟩
    · exact ⟨k, hp⟩
  have hwritten : Kept d written ∧ written.mayDirty (linePage l) := by
    unfold written
    split
    · exact hcleared
    · exact ⟨hcleared.1.onMem fun _ h => Mem.setLine_wf _ _ _ h, hcleared.2.of_same rfl rfl rfl⟩
  exact (hwritten.1.dirtyPage hwritten.2).step Dev.replicaMark_foot

/-- Past its first gate a write may make its page dirty: a clean page of a group that is not armed waits (R47). -/
theorem mayDirty_of_gate {r : HeldReq} (hw : r.write = true) (h : ¬ (e.wouldDirty r && !e.isArmed (pageGroup (linePage r.line))) = true) :
    e.mayDirty (linePage r.line) := by
  intro hp
  by_contra hn
  simp [Dev.wouldDirty, hw, hp] at h
  simp_all

theorem perform {r : HeldReq} (k : Kept d e) : Kept d (e.perform r) := by
  unfold Dev.perform
  extract_lets p hostWrite touched clean other written
  have htouch : ChangesOnly [.dram, .dw] e touched := Dev.chanTouch_foot
  have k1 : Kept d touched := k.step htouch
  split
  · exact k.step Dev.refuseQuiet_foot
  split
  · exact k.startHeld.onExpo
  rename_i hgate
  split
  · exact k.onExpo
  split
  case isFalse => exact .ite (k1.step Dev.emit_foot) (k1.step Dev.emit_foot)
  case isTrue hw =>
    have hp : touched.mayDirty p := (mayDirty_of_gate hw hgate).of_step htouch
    have hother : Kept d other ∧ other.mayDirty p := by
      unfold other
      split
      · exact ⟨k1, hp⟩
      · exact ⟨k1.step Dev.otherWrite_foot, hp.of_step Dev.otherWrite_foot⟩
    have hpoison : ((other.storePoison r.line).poisonEntry (r.line * 64) 64 3).mayDirty p :=
      (hother.2.of_same (e := other.storePoison r.line) rfl rfl rfl).of_step Dev.poisonEntry_foot
    have kw : Kept d written :=
      .ite (((hother.1.storePoison.step Dev.poisonEntry_foot).dirtyPage hpoison).step Dev.replicaMark_foot) (hother.1.doWrite hother.2)
    exact .ite kw (.ite (kw.step Dev.posted_foot) (.ite (kw.step Dev.meterWrite_foot) (.ite (.ite kw.replicaDone kw)
      ((kw.step Dev.meterWrite_foot).finishWrite))))

end Sys2Proof.Machine.Kept
end

section
/-! LEMMAS. What keeps memory canonical and dirty pages armed: arms, captures, contexts, strata and the image log. -/

set_option Elab.async false
namespace Sys2Proof.Machine.Kept
variable {d e : Dev}

theorem serve (k : Kept d e) : Kept d e.serve := by
  unfold Dev.serve
  exact k.onExpo.foldl fun _ _ kf => kf.perform

theorem chanServe {t} (k : Kept d e) : Kept d (e.chanServe t) := by
  unfold Dev.chanServe
  exact k.onExpo.serve

theorem admitReq {r} (k : Kept d e) : Kept d (e.admitReq r) := by
  unfold Dev.admitReq
  exact .ite k.perform k.startHeld.onExpo

theorem request {h hpa : Nat} {write : Bool} {data : BitVec 512} {mask : BitVec 64} {errs : List (Nat × Nat)} (k : Kept d e) :
    Kept d (e.request h hpa write data mask errs) := by
  unfold Dev.request
  extract_lets id numbered r0
  have k1 : Kept d numbered := k.onExpo
  split
  · exact k1.step Dev.refuseErr_foot
  split
  · exact k1.step Dev.emit_foot
  extract_lets r p flips
  split
  · exact (k1.step Dev.refuseErr_foot).step Dev.countOwn_foot
  split
  · exact .ite k1.onExpo (k1.step Dev.refuseErr_foot)
  split
  · exact (k1.step Dev.refuseQuiet_foot).step Dev.countOwn_foot
  split
  · exact k1.step Dev.refuseQuiet_foot
  split
  · exact k1.admitReq
  split
  rename_i read o hread
  have k2 : Kept d read := .pair hread k1.readLine
  split
  · exact k2.perform
  · exact k2.step Dev.emit_foot
  · exact k2.admitReq
  · exact k2.admitReq

theorem releaseTest (k : Kept d e) : Kept d e.releaseTest := by
  unfold Dev.releaseTest
  exact k.onExpo.foldl fun _ _ kf => .ite ((kf.step Dev.refuseQuiet_foot).step Dev.countOwn_foot) kf.admitReq

theorem fetchDone {p} (k : Kept d e) : Kept d (e.fetchDone p) := by
  unfold Dev.fetchDone
  exact (k.step Dev.onRestore_foot).onExpo.serve

theorem revDone {f} (k : Kept d e) : Kept d (e.revDone f) := by
  unfold Dev.revDone
  exact k.onExpo.serve

theorem argMin_mem {α : Type} {l : List α} {f : α → Nat} {a : α} (h : argMin l f = some a) : a ∈ l := by
  have hstep : ∀ (l : List α) (o : Option α), l.foldl (fun a x => match a with
      | none => some x
      | some y => if f x < f y then some x else some y) o = some a → a ∈ l ∨ o = some a := by
    intro l
    induction l with
    | nil => exact fun o h => .inr h
    | cons x l ih =>
      intro o h
      rcases ih _ h with hl | ho
      · exact .inl (List.mem_cons_of_mem _ hl)
      · cases o with
        | none => exact .inl (by simp_all)
        | some y =>
          dsimp only at ho
          split at ho
          · exact .inl (by simp_all)
          · exact .inr ho
  exact (hstep l none h).resolve_right (by simp)

theorem groupDirty_of_clean {a : ArmedGroup} (h : ArmedOk e) (ha : a ∈ e.expo.armed) (hclean : a.cleanSince ≠ none) :
    e.groupDirty a.group = false := by
  refine Bool.eq_false_iff.mpr fun hdirty => ?_
  obtain ⟨x, hx, hgroup⟩ := groupDirty_iff.mp hdirty
  exact hclean (h.held x hx a ha hgroup.symm)

/-- A group is disarmed that has no dirty page. -/
theorem disarm {g : Nat} (k : Kept d e) (hg : ArmedOk e → e.groupDirty g = false) : Kept d (e.disarm g) := by
  unfold Dev.disarm
  split
  case isFalse => exact k
  case isTrue =>
    refine k.onExpo_armed fun h => h.of_fewer (fun _ hx => hx) (fun x hx a ha hgroup => ?_) (fun _ _ a ha _ => .inl (List.mem_of_mem_filter ha))
    refine List.mem_filter.mpr ⟨ha, bne_iff_ne.mpr fun hag => ?_⟩
    exact Bool.false_ne_true ((hg h).symm.trans (groupDirty_iff.mpr ⟨x, hx, hgroup.symm.trans hag⟩))

theorem longestClean_clean {t g : Nat} (h : e.longestClean t = some g) : ∃ a ∈ e.expo.armed, a.group = g ∧ a.cleanSince ≠ none := by
  unfold Dev.longestClean at h
  extract_lets cs at h
  obtain ⟨a, ha, rfl⟩ := Option.map_eq_some_iff.mp h
  obtain ⟨hmem, hcond⟩ := List.mem_filter.mp (argMin_mem ha)
  rw [Bool.and_eq_true, Option.isSome_iff_ne_none] at hcond
  exact ⟨a, hmem, rfl, hcond.2⟩

theorem earlyDisarm {t n : Nat} (k : Kept d e) : Kept d (e.earlyDisarm t n) := by
  induction n generalizing e with
  | zero => exact k
  | succ n ih =>
    unfold Dev.earlyDisarm
    split
    · exact k
    · split
      · rename_i g hg
        obtain ⟨a, ha, hgroup, hclean⟩ := longestClean_clean hg
        exact ih (k.disarm fun h => hgroup ▸ groupDirty_of_clean h ha hclean)
      · exact k

/-- Pages of armed groups become dirty one after another. -/
theorem foldl_dirtyPage {l : List Nat} (k : Kept d e) (hl : ∀ p ∈ l, e.isArmed (pageGroup p) = true) : Kept d (l.foldl Dev.dirtyPage e) := by
  induction l generalizing e with
  | nil => exact k
  | cons p l ih =>
    have harmed : ∀ g, (e.dirtyPage p).isArmed g = e.isArmed g := by
      intro g
      unfold Dev.dirtyPage
      split
      · simp only [Dev.isArmed, onExpo_expo, List.any_map, Function.comp_def]
        exact congrArg (List.any e.expo.armed) (funext fun x => by split <;> rfl)
      · rfl
    refine ih (k.dirtyPage fun _ => .inl (hl p List.mem_cons_self)) fun q hq => ?_
    rw [harmed]
    exact hl q (List.mem_cons_of_mem _ hq)

/-- Groups not armed yet enter the armed set: none of them has a dirty page. -/
theorem addArmed {gs : List Nat} {f : Expo → Expo} {c : Option Nat} (k : Kept d e) (hdirty : (f e.expo).dirty = e.expo.dirty)
    (harmed : (f e.expo).armed = e.expo.armed ++
      (gs.filter fun g => !e.expo.armed.any fun x => x.group == g).map fun g => { group := g, cleanSince := c }) : Kept d (e.onExpo f) := by
  refine k.onExpo_armed fun h => h.of_fewer (fun x hx => ?_) (fun x hx a ha _ => ?_) (fun x hx a ha hgroup => ?_)
  · rwa [onExpo_expo, hdirty] at hx
  · rw [onExpo_expo, harmed]
    exact List.mem_append_left _ ha
  · rw [onExpo_expo, harmed, List.mem_append] at ha
    rw [onExpo_expo, hdirty] at hx
    refine ha.imp_right fun hnew => ?_
    obtain ⟨g, hg, rfl⟩ := List.mem_map.mp hnew
    obtain ⟨b, hb, hbg⟩ := h.armed x hx
    have hnot := (List.mem_filter.mp hg).2
    rw [Bool.not_eq_true', List.any_eq_false] at hnot
    exact absurd (beq_iff_eq.mpr (hbg.trans hgroup.symm)) (hnot b hb)

theorem armGroups {gs : List Nat} (k : Kept d e) : Kept d (e.armGroups gs) := by
  unfold Dev.armGroups
  extract_lets added thawed freed due waited marked
  have k1 : Kept d added := k.addArmed (gs := gs) (c := some e.now) rfl rfl
  have k2 : Kept d waited := k1.onExpo.onExpo
  have hmem : ∀ g ∈ gs, added.isArmed g = true := by
    intro g hg
    by_cases hold : (e.expo.armed.any fun x => x.group == g) = true
    · obtain ⟨a, ha, hag⟩ := List.any_eq_true.mp hold
      exact isArmed_iff.mpr ⟨a, List.mem_append_left _ ha, beq_iff_eq.mp hag⟩
    · refine isArmed_iff.mpr ⟨_, List.mem_append_right _ (List.mem_map_of_mem (List.mem_filter.mpr ⟨hg, ?_⟩)), rfl⟩
      simpa using hold
  have k3 : Kept d marked := k2.foldl_dirtyPage fun p hp => by
    have hin := (List.mem_filter.mp hp).2
    exact hmem _ (List.mem_of_mem_filter (List.contains_iff_mem.mp hin))
  exact k3.serve.foldl fun _ _ kf => kf.armFullCheck

theorem dirtyArmed {p : Nat} (k : Kept d e) : Kept d (e.dirtyArmed p) := by
  unfold Dev.dirtyArmed
  split
  · exact k
  split
  · rename_i harmed
    exact k.dirtyPage fun _ => .inl harmed
  · exact k.requestArm.armFullCheck.onExpo

theorem isolate {t cause : Nat} (k : Kept d e) : Kept d (e.isolate t cause) := by
  unfold Dev.isolate
  split
  · exact k
  extract_lets iso mine freed refused slept marked left sealed_ poisoned
  have k1 : Kept d marked := (((k.step Dev.onTile_foot).onExpo.foldl fun _ _ kf => kf.step Dev.refuseQuiet_foot).step Dev.tileChans_foot).step
    Dev.onCtxs_foot
  clear_value marked
  have k2 : Kept d left := k1.onExpo_armed fun h =>
    h.of_fewer (fun _ hx => List.mem_of_mem_filter hx) (fun _ _ _ hg _ => hg) (fun _ _ _ hg _ => .inl hg)
  have k3 : Kept d poisoned := (k2.step Dev.onSealing_foot).foldl fun _ _ kf => kf.foldl fun _ _ kg => kg.step Dev.poisonEntry_foot
  exact (k3.step Dev.raise_foot).govTrigger

theorem rewait (k : Kept d e) : Kept d e.rewait := by
  unfold Dev.rewait
  exact k.onExpo.foldl fun _ _ kf => kf.dirtyArmed

theorem capApply {t} (k : Kept d e) : Kept d (e.capApply t) := by
  unfold Dev.capApply
  exact (k.foldl fun _ _ kf => .ite kf (kf.step Dev.setCap_foot)).chanServe

theorem safeState {lvl} (k : Kept d e) : Kept d (e.safeState lvl) := by
  unfold Dev.safeState
  exact (((((((k.step Dev.freezeEnergy_foot).step Dev.onPkg_foot).onExpo.foldl fun _ _ kf => kf.step Dev.refuseErr_foot).foldl fun _ _ kf =>
    kf.step Dev.emit_foot).foldl fun _ _ kf => kf.step Dev.tileChans_foot).step Dev.onPanel_foot).step Dev.onSealing_foot).step Dev.onFlint_foot

theorem packFault {b code} (k : Kept d e) : Kept d (e.packFault b code) := by
  unfold Dev.packFault
  exact .ite k ((Kept.ite (((((k.step Dev.bayDo_foot).step Dev.bayEvent_foot).step Dev.onEnergy_foot).step Dev.bayUpd_foot).step
    Dev.disqualify_foot) ((((k.step Dev.bayDo_foot).step Dev.bayEvent_foot).step Dev.onEnergy_foot).step Dev.bayUpd_foot)).govTrigger.step
    Dev.interruptTests_foot)

theorem bridgeFault {code} (k : Kept d e) : Kept d (e.bridgeFault code) := by
  unfold Dev.bridgeFault
  exact .ite (k.step Dev.onEnergy_foot) (.ite k ((k.step Dev.onEnergy_foot).step Dev.raise_foot).govTrigger)

theorem bridgeClear (k : Kept d e) : Kept d e.bridgeClear := by
  unfold Dev.bridgeClear
  exact .ite ((k.step Dev.onEnergy_foot).step Dev.raise_foot).govTrigger k

theorem packRun {b code need cond} (k : Kept d e) : Kept d (e.packRun b code need cond) := by
  unfold Dev.packRun
  exact .ite (k.step Dev.onBay_foot).packFault (k.step Dev.onBay_foot)

theorem packChecks {b prev} (k : Kept d e) : Kept d (e.packChecks b prev) := by
  unfold Dev.packChecks
  exact .ite k k.packRun.packRun.packRun.packRun.packRun.packRun.packRun.packRun.packRun

theorem bridgeChecks {prev} (k : Kept d e) : Kept d (e.bridgeChecks prev) := by
  unfold Dev.bridgeChecks
  extract_lets _ _ _ _ _ e1 e2 e3 _ e4 e5 e6 e7
  have k1 : Kept d e1 := k.step Dev.onEnergy_foot
  have k2 : Kept d e2 := .ite k1.bridgeFault k1
  have k3 : Kept d e3 := .ite k2.bridgeFault k2
  have k4 : Kept d e4 := .ite k3.bridgeFault k3
  have k5 : Kept d e5 := .ite k4.bridgeFault k4
  have k6 : Kept d e6 := .ite k5.bridgeFault k5
  have k7 : Kept d e7 := k6.bridgeClear
  exact .ite k (k7.step Dev.onEnergy_foot)

theorem recount {b} (k : Kept d e) : Kept d (e.recount b) := by
  unfold Dev.recount
  exact .ite (k.step Dev.bayDo_foot).govTrigger k

theorem releaseAsk {b} (k : Kept d e) : Kept d (e.releaseAsk b) := by
  unfold Dev.releaseAsk
  exact .ite ((k.step Dev.disqualify_foot).govTrigger.step Dev.bayDo_foot) (.ite (k.step Dev.disqualify_foot).govTrigger.grantBay (((k.step
    Dev.disqualify_foot).govTrigger.step Dev.bayDo_foot).step Dev.raise_foot))

theorem openFor {t k0} (k : Kept d e) : Kept d (e.openFor t k0) := by
  unfold Dev.openFor
  split
  · exact k
  exact (Kept.ite ((k.step Dev.onBlk_foot).step Dev.onBlk_foot).ledger (((k.step Dev.onBlk_foot).step Dev.onBlk_foot).ledger.step
    Dev.onFl_foot)).step Dev.onFlow_foot

theorem takePage {t k0} (k : Kept d e) : Kept d (e.takePage t k0).1 := by
  unfold Dev.takePage
  split
  · exact k.step Dev.landPage_foot
  dsimp only
  split
  · split
    · exact k.openFor
    exact k.openFor.step Dev.onFlow_foot
  exact k.step Dev.onFlow_foot

theorem drawSlot {t k0 elided} (k : Kept d e) : Kept d (e.drawSlot t k0 elided).1 := by
  unfold Dev.drawSlot
  dsimp only
  split
  · split
    · exact .ite (((Kept.ite (k.step Dev.zoneUse_foot) k).step Dev.onFlow_foot).step Dev.putMetas_foot) ((Kept.ite (k.step Dev.zoneUse_foot)
        k).step Dev.onFlow_foot)
    split
    · exact k.takePage
    exact (k.takePage.step Dev.zoneUse_foot).step Dev.onFlow_foot
  split
  · exact (k.step Dev.zoneUse_foot).step Dev.onFlow_foot
  split
  · exact k.takePage
  exact (k.takePage.step Dev.zoneUse_foot).step Dev.onFlow_foot

theorem metaOne {t m} (k : Kept d e) : Kept d (e.metaOne t m) := by
  unfold Dev.metaOne
  dsimp only
  split
  · exact k.drawSlot
  exact k.drawSlot.step Dev.putMetas_foot

theorem metaPut {t kind l} (k : Kept d e) : Kept d (e.metaPut t kind l) := by
  unfold Dev.metaPut
  exact (k.foldl fun _ _ kf => kf.metaOne).step Dev.closeStream_foot

theorem ctxSave {c} (k : Kept d e) : Kept d (e.ctxSave c) := by
  unfold Dev.ctxSave
  exact k.metaPut

theorem ctxTo {c st} (k : Kept d e) : Kept d (e.ctxTo c st) := by
  unfold Dev.ctxTo
  exact (k.step Dev.ctxState_foot).ctxSave

theorem rtSave {g} (k : Kept d e) : Kept d (e.rtSave g) := by
  unfold Dev.rtSave
  exact k.metaPut

theorem keySave {t c} (k : Kept d e) : Kept d (e.keySave t c) := by
  unfold Dev.keySave
  exact k.metaPut

theorem keyDraw {c} (k : Kept d e) : Kept d (e.keyDraw c) := by
  unfold Dev.keyDraw
  exact (((k.step Dev.onCtx_foot).step Dev.tick_foot).step Dev.tick_foot).foldl fun _ _ kf => kf.keySave

theorem ringSave {c k0} (k : Kept d e) : Kept d (e.ringSave c k0) := by
  unfold Dev.ringSave
  exact k.metaPut

theorem meterSave {t} (k : Kept d e) : Kept d (e.meterSave t) := by
  unfold Dev.meterSave
  exact (k.metaPut.step Dev.onFl_foot).step Dev.onCtxs_foot

theorem keyLost {t c} (k : Kept d e) : Kept d (e.keyLost t c) := by
  unfold Dev.keyLost
  exact ((((k.step Dev.onCtx_foot).ctxTo.step Dev.raise_foot).foldl fun _ _ kf => kf.pagePoison).step Dev.onCtxs_foot).cleanPages.revDone

theorem useKey {t c err} (k : Kept d e) : Kept d (e.useKey t c err) := by
  unfold Dev.useKey
  exact .ite (k.step Dev.onCtxs_foot) (.ite (k.step Dev.onCtxs_foot).keyLost (k.step Dev.onCtxs_foot))

theorem issue {t a} (k : Kept d e) : Kept d (e.issue t a) := by
  unfold Dev.issue
  exact ((k.step Dev.closePage_foot).step Dev.closePage_foot).onExpo

theorem capture {t p atSeal fence} (k : Kept d e) : Kept d (e.capture t p atSeal fence) := by
  unfold Dev.capture
  dsimp only
  split
  · exact k.drawSlot
  exact .ite k.drawSlot.onExpo.issue k.drawSlot.onExpo

theorem recordDone {t f} (k : Kept d e) : Kept d (e.recordDone t f) := by
  unfold Dev.recordDone
  exact .ite k.onExpo (.ite (((Kept.ite (k.onExpo.step Dev.putRec_foot) (k.onExpo.step Dev.putRec_foot).cleanPages).step Dev.fenceRecord_foot).step
    Dev.onSealing_foot) ((Kept.ite (k.onExpo.step Dev.putRec_foot) (k.onExpo.step Dev.putRec_foot).cleanPages).step Dev.fenceRecord_foot))

theorem stagePages {t n : Nat} (k : Kept d e) : Kept d (e.stagePages t n) := by
  induction n generalizing e with
  | zero => exact k
  | succ n ih =>
    unfold Dev.stagePages
    split
    · exact k
    · exact .ite k (ih k.capture)

theorem landNext {t} (k : Kept d e) : Kept d (e.landNext t) := by
  unfold Dev.landNext
  split
  · exact k
  extract_lets e1
  have k1 : Kept d e1 := by
    unfold e1
    split
    · exact k.issue
    exact k.stagePages
  split
  · exact k1
  split
  · exact k1.issue
  exact .ite (.ite ((k1.drawSlot.step Dev.putMetas_foot).step Dev.onSealing_foot) k1) (k1.step Dev.onSealing_foot)

theorem landUe {t ue} (k : Kept d e) : Kept d (e.landUe t ue) := by
  unfold Dev.landUe
  exact k.foldl fun _ _ kf => .ite kf.lineUe kf

/-- A trim takes its granule's pages out of exposure before it disarms their groups (R45). -/
theorem trimGranule {c g : Nat} (k : Kept d e) : Kept d (e.trimGranule c g) := by
  unfold Dev.trimGranule
  extract_lets logged recorded cleared
  have k1 : Kept d (cleared.cleanPages fun p => pageGran p == g) := ((k.ledgerAll.step Dev.onStrata_foot).step Dev.clearLoc_foot).cleanPages
  have hclean : ∀ x ∈ (cleared.cleanPages fun p => pageGran p == g).expo.dirty, pageGran x.page ≠ g := fun x hx => by
    simpa using (List.mem_filter.mp hx).2
  generalize (cleared.cleanPages fun p => pageGran p == g) = e1 at k1 hclean ⊢
  refine k1.onExpo_armed fun h => h.of_fewer (fun _ hx => hx) (fun x hx a ha hgroup => ?_) (fun _ _ a ha _ => .inl (List.mem_of_mem_filter ha))
  refine List.mem_filter.mpr ⟨ha, ?_⟩
  have hgran : a.group / 512 ≠ g := by
    rw [hgroup, pageGroup, Nat.div_div_eq_div_mul]
    exact hclean x hx
  simpa using hgran

theorem zeroGranule {g} (k : Kept d e) : Kept d (e.zeroGranule g) := by
  unfold Dev.zeroGranule
  exact ((((k.onMem fun _ h => Mem.clear_wf _ _ h).onExpo.foldl fun _ _ kf => kf.step Dev.onHead_foot).step Dev.clearLoc_foot).foldl fun _ _ kf =>
    .ite (kf.step Dev.markRange_foot) (kf.step Dev.markRange_foot)).cleanPages.fetchDone

theorem dcOffer {h c gs release deadline by_} (k : Kept d e) : Kept d (e.dcOffer h c gs release deadline by_) := by
  unfold Dev.dcOffer
  exact ((k.step Dev.onHead_foot).step Dev.onCtx_foot).ctxSave.step Dev.dcPost_foot

theorem dcSettle {c} (k : Kept d e) : Kept d (e.dcSettle c) := by
  unfold Dev.dcSettle
  exact .ite k (k.step Dev.onCtx_foot).ctxSave

theorem dcForced {h c gs} (k : Kept d e) : Kept d (e.dcForced h c gs) := by
  unfold Dev.dcForced
  exact (k.step Dev.onHead_foot).dcSettle.step Dev.dcPost_foot

theorem rollbackEnd {c} (k : Kept d e) : Kept d (e.rollbackEnd c) := by
  unfold Dev.rollbackEnd
  exact .ite k (.ite ((k.step Dev.onCtx_foot).ctxTo.step Dev.raise_foot) (k.step Dev.onCtx_foot).ctxSave)

theorem rtCommit {x} (k : Kept d e) : Kept d (e.rtCommit x) := by
  unfold Dev.rtCommit
  extract_lets _ _ e1 e2 _ e3 e4 e5 _ e6 _ e7
  have k1 : Kept d e1 := k.step Dev.onCtxs_foot
  have k2 : Kept d e2 := .ite (k1.trimGranule.step Dev.onCtxs_foot) k1
  have k3 : Kept d e3 := (k2.step Dev.onGran_foot).rtSave.ctxSave.rollbackEnd
  have k4 : Kept d e4 := .ite k3.dcOffer k3
  have k5 : Kept d e5 := .ite ((k4.step Dev.onHead_foot).step Dev.ringAreas_foot) k4
  have k6 : Kept d e6 := k5.onExpo.serve
  have k7 : Kept d e7 := .ite k6 (k6.step Dev.bgEndAny_foot)
  exact .ite k6 (k7.foldl fun _ _ kf => kf.step Dev.bgEndAny_foot)

theorem releaseStratum {c time} (k : Kept d e) : Kept d (e.releaseStratum c time) := by
  unfold Dev.releaseStratum
  exact (k.ledgerAll.step Dev.onStrata_foot).ctxSave

theorem stratumOn {c ts tag t} (k : Kept d e) : Kept d (e.stratumOn c ts tag t) := by
  unfold Dev.stratumOn
  exact k.ledger.metaOne.step Dev.closeStream_foot

theorem createStratum {c ts tag} (k : Kept d e) : Kept d (e.createStratum c ts tag) := by
  unfold Dev.createStratum
  dsimp only
  split
  · split
    · exact ((k.step Dev.onStrata_foot).step Dev.onMeter_foot).ctxSave.releaseStratum
    exact ((k.step Dev.onStrata_foot).step Dev.onMeter_foot).ctxSave
  exact ((k.step Dev.onStrata_foot).step Dev.onMeter_foot).ctxSave

theorem ageStrata {c} (k : Kept d e) : Kept d (e.ageStrata c) := by
  unfold Dev.ageStrata
  exact .ite k (k.foldl fun _ _ kf => kf.releaseStratum)

theorem sanitizeEnd {c} (k : Kept d e) : Kept d (e.sanitizeEnd c) := by
  unfold Dev.sanitizeEnd
  exact (((k.step Dev.ctxState_foot).step Dev.cutMeter_foot).step Dev.onCtx_foot).ctxSave.step Dev.bgEndAny_foot

theorem keyErase {c} (k : Kept d e) : Kept d (e.keyErase c) := by
  unfold Dev.keyErase
  exact ((k.step Dev.onCtxs_foot).step Dev.onCtx_foot).foldl fun _ _ kf => kf.keySave

theorem dirtyGroup {g} (k : Kept d e) : Kept d (e.dirtyGroup g) := by
  unfold Dev.dirtyGroup
  exact k.foldl fun _ _ kf => kf.dirtyArmed

theorem reserveRepair {t off devs lost} (k : Kept d e) : Kept d (e.reserveRepair t off devs lost) := by
  unfold Dev.reserveRepair
  extract_lets _ e1 e2 _ _ _ _ e3
  have k1 : Kept d e1 := k.step Dev.ueEvent_foot
  have k2 : Kept d e2 := k1.step Dev.raise_foot
  have k3 : Kept d e3 := k2.step Dev.ckptStart_foot
  split
  · exact .ite k2.dirtyGroup k2
  · exact .ite (k2.foldl fun _ _ kf => kf.dirtyArmed) k2
  · exact .ite (k3.foldl fun _ _ kf => kf.dirtyGroup) k3
  · exact k2.step Dev.restoredRebuild_foot
  · exact k2.step Dev.rollbackRebuild_foot
  · exact k2.foldl fun _ _ kf => kf.step Dev.replicaMark_foot
  · exact k2

theorem lineBad {l devs} (k : Kept d e) : Kept d (e.lineBad l devs) := by
  unfold Dev.lineBad
  exact .ite k.reserveRepair k.lineUe

theorem startArm {t arms} (k : Kept d e) : Kept d (e.startArm t arms) := by
  unfold Dev.startArm
  exact k.onExpo

theorem armDone {t} (k : Kept d e) : Kept d (e.armDone t) := by
  unfold Dev.armDone
  split
  · exact k
  exact (Kept.ite (k.step Dev.cairnPut_foot).onExpo (k.step Dev.cairnPut_foot).onExpo.cairn).armGroups.earlyDisarm

theorem ckptWrite {t} (k : Kept d e) : Kept d (e.ckptWrite t) := by
  unfold Dev.ckptWrite
  exact k.metaPut.metaPut.metaPut.step Dev.onFl_foot

theorem ledgerErase {t b} (k : Kept d e) : Kept d (e.ledgerErase t b) := by
  unfold Dev.ledgerErase
  exact k.ledger.step Dev.onBlk_foot

theorem strataLost {t r} (k : Kept d e) : Kept d (e.strataLost t r) := by
  unfold Dev.strataLost
  exact .ite ((k.foldl fun _ _ kf => .ite kf kf.ledgerAll).step Dev.onStrata_foot) (((k.foldl fun _ _ kf => .ite kf kf.ledgerAll).step
    Dev.onStrata_foot).step Dev.raise_foot)

theorem recLost {t r} (k : Kept d e) : Kept d (e.recLost t r) := by
  unfold Dev.recLost
  exact (Kept.ite k (k.dirtyArmed.step Dev.raise_foot)).strataLost

theorem relocate {t k0 draw soft r} (k : Kept d e) : Kept d (e.relocate t k0 draw soft r) := by
  unfold Dev.relocate
  split
  · exact k
  dsimp only
  split
  · exact k.drawSlot
  exact .ite ((((Kept.ite (k.drawSlot.step Dev.onBlk_foot) k.drawSlot).step Dev.onStrata_foot).step Dev.capUse_foot).step Dev.onFl_foot)
    (((Kept.ite (k.drawSlot.step Dev.onBlk_foot) k.drawSlot).step Dev.onStrata_foot).step Dev.capUse_foot)

theorem relocateMeta {t draw m} (k : Kept d e) : Kept d (e.relocateMeta t draw m) := by
  unfold Dev.relocateMeta
  split
  · exact k
  dsimp only
  split
  · exact k.drawSlot
  exact k.drawSlot.step Dev.onFl_foot

theorem moveOut {t blk draw lost soft} (k : Kept d e) : Kept d (e.moveOut t blk draw lost soft) := by
  unfold Dev.moveOut
  exact (((k.foldl fun _ _ kf => .ite kf.recLost kf.relocate).foldl fun _ _ kf => kf.relocateMeta).step Dev.closeStream_foot).step
    Dev.closeStream_foot

theorem emptyBlock {t blk lost soft} (k : Kept d e) : Kept d (e.emptyBlock t blk lost soft) := by
  unfold Dev.emptyBlock
  exact .ite (k.moveOut.step Dev.onBlk_foot) k.moveOut

theorem dropStreams {t f} (k : Kept d e) : Kept d (e.dropStreams t f) := by
  unfold Dev.dropStreams
  exact (k.foldl fun _ _ kf => .ite ((kf.step Dev.zoneUse_foot).step Dev.onFlow_foot) kf).onExpo

theorem retireDie {t die} (k : Kept d e) : Kept d (e.retireDie t die) := by
  unfold Dev.retireDie
  exact .ite k (.ite (((((k.dropStreams.ledger.step Dev.onFl_foot).foldl fun _ _ kf => (Kept.ite kf.dirtyArmed kf).strataLost).step
    Dev.resvFill_foot).step Dev.raise_foot).govTrigger.step Dev.raise_foot) ((((k.dropStreams.ledger.step Dev.onFl_foot).foldl fun _ _ kf =>
    (Kept.ite kf.dirtyArmed kf).strataLost).step Dev.resvFill_foot).step Dev.raise_foot).govTrigger)

theorem badBlock {t blk reason} (k : Kept d e) : Kept d (e.badBlock t blk reason) := by
  unfold Dev.badBlock
  exact .ite (.ite ((((Kept.ite k k.govTrigger).ledger.step Dev.onBlk_foot).step Dev.onFl_foot).step Dev.raise_foot) (((Kept.ite k
    k.govTrigger).ledger.step Dev.onBlk_foot).step Dev.onFl_foot)) ((((Kept.ite k k.govTrigger).ledger.step Dev.onBlk_foot).step
    Dev.onFl_foot).step Dev.raise_foot)

theorem blockFails {t blk reason lost soft} (k : Kept d e) : Kept d (e.blockFails t blk reason lost soft) := by
  unfold Dev.blockFails
  exact .ite (Kept.ite (.ite ((k.step Dev.onFl_foot).step Dev.resvFill_foot) (k.step Dev.onFl_foot)) k.dropStreams).moveOut.badBlock ((Kept.ite
    (.ite ((k.step Dev.onFl_foot).step Dev.resvFill_foot) (k.step Dev.onFl_foot)) k.dropStreams).moveOut.step Dev.onBlk_foot)

theorem eraseBlank {t b} (k : Kept d e) : Kept d (e.eraseBlank t b) := by
  unfold Dev.eraseBlank
  exact .ite (k.ledger.step Dev.onBlk_foot).badBlock (.ite (k.ledger.step Dev.onBlk_foot) ((k.ledger.step Dev.onBlk_foot).step Dev.onFl_foot))

theorem dropOldKeys {t c} (k : Kept d e) : Kept d (e.dropOldKeys t c) := by
  unfold Dev.dropOldKeys
  exact .ite ((k.foldl fun _ _ kf => kf.dropStreams.moveOut.step Dev.onBlk_foot).step Dev.onFl_foot) ((k.foldl fun _ _ kf =>
    kf.dropStreams.moveOut.step Dev.onBlk_foot).step Dev.onFl_foot).cairn

theorem spaceCheck {t} (k : Kept d e) : Kept d (e.spaceCheck t) := by
  unfold Dev.spaceCheck
  split
  · split
    · exact k.releaseStratum.step Dev.raise_foot
    exact k
  exact k

theorem heatApply {t} (k : Kept d e) : Kept d (e.heatApply t) := by
  unfold Dev.heatApply
  exact .ite k (k.capApply.step Dev.fspStart_foot)

theorem writeCqe {c k0 a bs irq} (k : Kept d e) : Kept d (e.writeCqe c k0 a bs irq) := by
  unfold Dev.writeCqe
  exact .ite ((Kept.ite k (k.onMem fun _ h => Mem.setLine_wf _ _ _ h)).step Dev.posted_foot) k.admitReq

theorem complete {c k0 e0 status time r0 r1 poison} (k : Kept d e) : Kept d (e.complete c k0 e0 status time r0 r1 poison) := by
  unfold Dev.complete
  exact .ite (((k.step Dev.onRing_foot).step Dev.startHead_foot).step Dev.ckptAnswer_foot) (.ite ((k.step Dev.onRing_foot).step Dev.startHead_foot)
    (((k.step Dev.onRing_foot).step Dev.startHead_foot).step Dev.onRing_foot).writeCqe)

theorem fetch {c k0 n : Nat} (k : Kept d e) : Kept d (e.fetch c k0 n) := by
  induction n generalizing e with
  | zero => exact k
  | succ n ih =>
    unfold Dev.fetch
    split
    · exact k
    extract_lets r a h entry ws taken
    exact .ite (k.step Dev.ringError_foot) (.ite k.startHeld (.ite (k.step Dev.ringError_foot) (ih (k.step Dev.onRing_foot))))

theorem fetchAll {c k0} (k : Kept d e) : Kept d (e.fetchAll c k0) := by
  unfold Dev.fetchAll
  exact k.fetch

theorem fetchRings (k : Kept d e) : Kept d e.fetchRings := by
  unfold Dev.fetchRings
  exact k.foldl fun _ _ kf => kf.foldl fun _ _ kg => kg.fetchAll

theorem rejectEntry {c k0 e0 status} (k : Kept d e) : Kept d (e.rejectEntry c k0 e0 status) := by
  unfold Dev.rejectEntry
  exact k.complete

theorem takeRollback {c k0 e0} (k : Kept d e) : Kept d (e.takeRollback c k0 e0) := by
  unfold Dev.takeRollback
  split
  · exact k.rejectEntry
  exact .ite k.rejectEntry (.ite k.rejectEntry ((k.step Dev.checkEntry_foot).step Dev.onEntry_foot))

theorem takeUp {c k0 e0} (k : Kept d e) : Kept d (e.takeUp c k0 e0) := by
  unfold Dev.takeUp
  dsimp only
  split
  · exact k.rejectEntry
  split
  · exact k.rejectEntry
  split
  · exact .ite k.rejectEntry (k.step Dev.checkEntry_foot)
  · exact k.step Dev.checkEntry_foot
  · exact k.takeRollback
  · exact k.complete
  · exact (k.step Dev.onMeter_foot).complete
  · exact k.complete

theorem takeNext {c k0 f} (k : Kept d e) : Kept d (e.takeNext c k0 f) := by
  unfold Dev.takeNext
  split
  · exact k
  split
  · exact k.takeUp.fetchRings
  exact k

theorem fenceEnd {c k0 e0} (k : Kept d e) : Kept d (e.fenceEnd c k0 e0) := by
  unfold Dev.fenceEnd
  exact .ite k.complete (k.step Dev.onMeter_foot).complete

theorem ckptTiles {c k0 e0 m} (k : Kept d e) : Kept d (e.ckptTiles c k0 e0 m) := by
  unfold Dev.ckptTiles
  exact (k.foldl fun _ _ kf => kf.stratumOn).step Dev.onEntry_foot

theorem releasePartial (k : Kept d e) : Kept d e.releasePartial := by
  unfold Dev.releasePartial
  exact k.foldl fun _ _ kf => kf.foldl fun _ _ kg => kg.ledger

theorem revert {c p out : Nat} (k : Kept d e) : Kept d (e.revert c p out).1 := by
  unfold Dev.revert
  extract_lets t st v lost unread bad same img mask el x
  clear_value v
  have kx : Kept d x.1 := by
    unfold x
    split
    · exact k
    · exact k.drawSlot
  split
  · exact kx
  rename_i e1 _ _ _
  extract_lets e2 e3 e4
  have k1 : Kept d e1 := by
    unfold e1
    split
    · exact .ite (kx.step Dev.onBlk_foot) kx
    · exact kx
  clear_value e1
  have k2 : Kept d e2 := by
    unfold e2
    split
    · exact k1
    · exact (k1.step Dev.putRec_foot).issue
  clear_value e2
  have k3 : Kept d e3 := by
    unfold e3
    split
    · exact .ite (k2.strataLost.step Dev.raise_foot) k2
    · exact k2
  clear_value e3
  have k4 : Kept d e4 := k3.pageClearPoison.loadPage
  exact .ite k4.pagePoison (k4.foldl fun _ _ kf => kf.storePoison)

end Sys2Proof.Machine.Kept
end

section
/-! LEMMAS. What keeps memory canonical and dirty pages armed: seals, restores, messages and the command rows. -/

set_option Elab.async false
namespace Sys2Proof.Machine.Kept
variable {d e : Dev}

theorem abortUnstarted {c k0} (k : Kept d e) : Kept d (e.abortUnstarted c k0) := by
  unfold Dev.abortUnstarted
  exact k.foldl fun _ _ kf => kf.complete

theorem abortRollback {c k0} (k : Kept d e) : Kept d (e.abortRollback c k0) := by
  unfold Dev.abortRollback
  exact k.foldl fun _ _ kf => kf.complete

theorem quiesceRing {c k0} (k : Kept d e) : Kept d (e.quiesceRing c k0) := by
  unfold Dev.quiesceRing
  exact (k.step Dev.onRing_foot).abortUnstarted.abortRollback

theorem quiesceCtx {c} (k : Kept d e) : Kept d (e.quiesceCtx c) := by
  unfold Dev.quiesceCtx
  exact k.ctxTo.foldl fun _ _ kf => kf.quiesceRing

theorem resumeRing {c k0 kept} (k : Kept d e) : Kept d (e.resumeRing c k0 kept) := by
  unfold Dev.resumeRing
  exact ((((k.step Dev.onRing_foot).abortUnstarted.abortRollback.foldl fun _ _ kf => kf.takeUp).foldl fun _ _ kf => kf.fenceEnd).foldl fun _ _ kf
    => kf.complete).fetchAll

theorem resumeRings {kept} (k : Kept d e) : Kept d (e.resumeRings kept) := by
  unfold Dev.resumeRings
  exact (k.foldl fun _ _ kf => kf.foldl fun _ _ kg => kg.resumeRing).releasePartial

theorem freezeAccepted (k : Kept d e) : Kept d e.freezeAccepted := by
  unfold Dev.freezeAccepted
  exact (k.onExpo.onExpo.foldl fun _ _ kf => kf.step Dev.pacedDone_foot).serve

theorem refuseTest (k : Kept d e) : Kept d e.refuseTest := by
  unfold Dev.refuseTest
  exact k.onExpo.foldl fun _ _ kf => kf.step Dev.refuseErr_foot

theorem sealFreeze (k : Kept d e) : Kept d e.sealFreeze := by
  unfold Dev.sealFreeze
  exact (((k.step Dev.sealWork_foot).step Dev.onSealing_foot).freezeAccepted.step Dev.sealUpd_foot).foldl fun _ _ kf => kf.step Dev.bayUpd_foot

theorem sealBegin {cause} (k : Kept d e) : Kept d (e.sealBegin cause) := by
  unfold Dev.sealBegin
  exact (((k.step Dev.sealStart_foot).step Dev.abortBg_foot).step Dev.onCtxs_foot).sealFreeze

theorem sealHeader {t} (k : Kept d e) : Kept d (e.sealHeader t) := by
  unfold Dev.sealHeader
  exact k.cairn.step Dev.onSealing_foot

theorem testToReal {cause} (k : Kept d e) : Kept d (e.testToReal cause) := by
  unfold Dev.testToReal
  extract_lets _ _ e1 e2 e3
  have k1 : Kept d e1 := k.step Dev.onSealing_foot
  have k2 : Kept d e2 := ((k1.foldl fun _ _ kf => kf.sealHeader).refuseTest.step Dev.abortBg_foot).step Dev.onCtxs_foot
  have k3 : Kept d e3 := .ite (k2.freezeAccepted.step Dev.sealUpd_foot) k2.sealFreeze
  exact k3.foldl fun _ _ kf => kf.landNext

theorem trigger {cause} (k : Kept d e) : Kept d (e.trigger cause) := by
  unfold Dev.trigger
  exact .ite k (.ite (.ite (k.step Dev.hibernateUnsealed_foot) k) (.ite (.ite k.testToReal (k.step Dev.onSealing_foot)) (.ite (k.step
    Dev.hibernateUnsealed_foot) k.sealBegin)))

theorem sealArms (k : Kept d e) : Kept d e.sealArms := by
  unfold Dev.sealArms
  exact k.addArmed (c := none) rfl rfl

theorem readdress {t a n} (k : Kept d e) : Kept d (e.readdress t a n) := by
  unfold Dev.readdress
  exact (k.onExpo.step Dev.onFlow_foot).step Dev.onFl_foot

theorem landFail {t blk} (k : Kept d e) : Kept d (e.landFail t blk) := by
  unfold Dev.landFail
  refine ((Kept.ite (k.step Dev.onFl_foot) k).step Dev.onFlow_foot).foldl fun _ _ kf => ?_
  dsimp only
  split
  · exact (kf.step Dev.retryPage_foot).readdress
  exact ((kf.step Dev.retryPage_foot).onExpo.step Dev.onFlow_foot).step Dev.onSealing_foot

theorem afterSeal (k : Kept d e) : Kept d e.afterSeal := by
  unfold Dev.afterSeal
  exact k.foldl fun _ _ kf => ((kf.step Dev.onFl_foot).foldl fun _ _ kg => kg.blockFails).step Dev.resvFill_foot

theorem armLate {t} (k : Kept d e) : Kept d (e.armLate t) := by
  unfold Dev.armLate
  exact k.foldl fun _ _ kf => kf.cairn

theorem sealLearn (k : Kept d e) : Kept d e.sealLearn := by
  unfold Dev.sealLearn
  extract_lets _ _ _ _ _ _ _ e1 _ _ e2 e3 _ _ e4 e5
  have k1 : Kept d e1 := k.step Dev.onSealing_foot
  have k2 : Kept d e2 := k1.onExpo
  have k3 : Kept d e3 := .ite k1 (.ite (k2.step Dev.onSealing_foot) (k1.step Dev.learnReject_foot))
  have k4 : Kept d e4 := k3.onExpo
  have k5 : Kept d e5 := .ite (k4.step Dev.onSealing_foot) (k3.step Dev.learnReject_foot)
  exact (k5.step Dev.onEnergy_foot).govTrigger

/-- A mount starts from an empty memory, with no page dirty (R121). -/
theorem mountReset (k : Kept d e) : Kept d e.mountReset := by
  unfold Dev.mountReset
  extract_lets closed restore emptied cleared unrolled
  have k1 : Kept d restore := (k.foldl fun _ _ kf => kf.step Dev.landClose_foot).step Dev.onRestore_foot
  have k2 : Kept d emptied := k1.onExpo_armed fun _ => ⟨fun _ hx => absurd hx List.not_mem_nil, fun _ hx => absurd hx List.not_mem_nil⟩
  exact ((k2.onMem fun _ _ => rfl).step Dev.onCtxs_foot).foldl fun _ _ kf => kf.step Dev.onHead_foot

theorem beginMount (k : Kept d e) : Kept d e.beginMount := by
  unfold Dev.beginMount
  exact k.mountReset.step Dev.restUpd_foot

theorem warmOpen (k : Kept d e) : Kept d e.warmOpen := by
  unfold Dev.warmOpen
  exact (((((((((((Kept.ite ((((((k.step Dev.reportAborts_foot).foldl fun _ _ kf => kf.step Dev.landClose_foot).ledgerAll.foldl fun _ _ kf =>
    kf.armLate).step Dev.onSealing_foot).step Dev.onRestore_foot).step Dev.dirtyShutdown_foot) (((((k.step Dev.reportAborts_foot).foldl fun _ _ kf
    => kf.step Dev.landClose_foot).ledgerAll.foldl fun _ _ kf => kf.armLate).step Dev.onSealing_foot).step Dev.onRestore_foot)).step
    Dev.onLat_foot).foldl fun _ _ kf => .ite (kf.step Dev.onHead_foot) kf).foldl fun _ _ kf => .ite kf (kf.step Dev.tileChans_foot)).step
    Dev.pointCheck_foot).step Dev.restAgain_foot).step Dev.resumeWindow_foot).foldl fun _ _ kf => kf.heatApply).foldl fun _ _ kf => kf.step
    Dev.faultBack_foot).resumeRings.afterSeal.rewait.serve.recompute.foldl fun _ _ kf => kf.step Dev.bayUpd_foot).step Dev.sealUpd_foot).step
    Dev.restUpd_foot

theorem warmReturn {canary} (k : Kept d e) : Kept d (e.warmReturn canary) := by
  unfold Dev.warmReturn
  exact .ite k.warmOpen (((k.step Dev.onSealing_foot).foldl fun _ _ kf => kf.step Dev.faultBack_foot).beginMount.step Dev.sealUpd_foot)

theorem testEnd {ext measured} (k : Kept d e) : Kept d (e.testEnd ext measured) := by
  unfold Dev.testEnd
  exact ((((((((((((Kept.ite ((k.step Dev.onSealing_foot).sealLearn.step Dev.sealRecord_foot) (k.step Dev.onSealing_foot)).foldl fun _ _ kf =>
    kf.step Dev.landClose_foot).releaseTest.step Dev.pointCheck_foot).step Dev.restAgain_foot).step Dev.resumeWindow_foot).step
    Dev.reportAborts_foot).step Dev.onLat_foot).foldl fun _ _ kf => kf.armLate).afterSeal.rewait.serve.fetchRings.step Dev.onPanel_foot).foldl fun
    _ _ kf => kf.step Dev.bgEnd_foot).foldl fun _ _ kf => kf.step Dev.faultBack_foot).foldl fun _ _ kf => kf.heatApply).govTrigger.step
    Dev.sealUpd_foot

theorem forcedReset (k : Kept d e) : Kept d e.forcedReset := by
  unfold Dev.forcedReset
  exact ((Kept.ite k.safeState k).step Dev.onRestore_foot).step Dev.onPanel_foot

theorem operandWrite {t k0 v fetch purpose} (k : Kept d e) : Kept d (e.operandWrite t k0 v fetch purpose) := by
  unfold Dev.operandWrite
  dsimp only
  split
  · exact (k.step Dev.onSl_foot).step Dev.slTouch_foot
  exact .ite ((k.step Dev.onSl_foot).step Dev.slRefuse_foot) (.ite ((k.step Dev.onSl_foot).step Dev.onSl_foot) ((k.step Dev.onSl_foot).step
    Dev.opStart_foot))

theorem slateRegWrite {t off v fetch purpose} (k : Kept d e) : Kept d (e.slateRegWrite t off v fetch purpose) := by
  unfold Dev.slateRegWrite
  split
  · exact k.step Dev.slKeyWrite_foot
  · exact k.step Dev.slCmdWrite_foot
  · exact k.operandWrite
  · exact k.operandWrite
  · exact k.operandWrite
  · extract_lets e1 e2
    have k1 : Kept d e1 := k.step Dev.slTouch_foot
    have k2 : Kept d e2 := .ite (k1.step Dev.slSuspend_foot) k1
    exact .ite (k2.step Dev.slResume_foot) k2
  · exact (k.step Dev.onSl_foot).step Dev.slTouch_foot

theorem levelUpd {t} (k : Kept d e) : Kept d (e.levelUpd t) := by
  unfold Dev.levelUpd
  exact .ite k ((Kept.ite (((k.step Dev.onTile_foot).step Dev.raise_foot).govTrigger.capApply.step Dev.fspStart_foot) ((k.step
    Dev.onTile_foot).step Dev.raise_foot).govTrigger.capApply).step Dev.pointCheck_foot)

theorem tileHeat {t} (k : Kept d e) : Kept d (e.tileHeat t) := by
  unfold Dev.tileHeat
  exact (Kept.ite ((k.step Dev.onTtile_foot).step Dev.onTtile_foot) (.ite ((((k.step Dev.onTtile_foot).step Dev.onTtile_foot).step
    Dev.raise_foot).step Dev.thermPend_foot) (.ite (((k.step Dev.onTtile_foot).step Dev.onTtile_foot).step Dev.raise_foot) ((k.step
    Dev.onTtile_foot).step Dev.onTtile_foot)))).levelUpd

theorem thermShutdown {n} (k : Kept d e) : Kept d (e.thermShutdown n) := by
  unfold Dev.thermShutdown
  exact .ite (k.step Dev.raise_foot).trigger (((k.step Dev.raise_foot).step Dev.onTherm_foot).step Dev.thermPend_foot).trigger

theorem threshold {n k0} (k : Kept d e) : Kept d (e.threshold n k0) := by
  unfold Dev.threshold
  exact .ite (k.step Dev.onSens_foot) (.ite ((Kept.ite ((k.step Dev.onSens_foot).step Dev.raise_foot) (k.step Dev.onSens_foot)).step
    Dev.crossing_foot).thermShutdown ((Kept.ite ((k.step Dev.onSens_foot).step Dev.raise_foot) (k.step Dev.onSens_foot)).step Dev.crossing_foot))

theorem switchCheck {session} (k : Kept d e) : Kept d (e.switchCheck session) := by
  unfold Dev.switchCheck
  split
  · exact k
  exact .ite (.ite (k.step Dev.onStream_foot).quiesceCtx (k.step Dev.onStream_foot)) k

theorem streamPhase {session} (k : Kept d e) : Kept d (e.streamPhase session) := by
  unfold Dev.streamPhase
  split
  · exact k
  exact .ite k.switchCheck (Kept.ite (k.step Dev.onStream_foot) (.ite (k.step Dev.onStream_foot) (.ite (k.step Dev.onStream_foot) k))).switchCheck

theorem pageAck {session mseq} (k : Kept d e) : Kept d (e.pageAck session mseq) := by
  unfold Dev.pageAck
  split
  · exact k
  split
  · exact k
  exact ((k.step Dev.onStream_foot).step Dev.sendMarks_foot).streamPhase

theorem pageWrite {session mseq p bs} (k : Kept d e) : Kept d (e.pageWrite session mseq p bs) := by
  unfold Dev.pageWrite
  exact k.foldl fun _ _ kf => kf.onExpo.admitReq

theorem pageIn {x mseq k0 o bs} (k : Kept d e) : Kept d (e.pageIn x mseq k0 o bs) := by
  unfold Dev.pageIn
  dsimp only
  split
  · exact .ite k (k.step Dev.sendMsg_foot)
  split
  · exact k
  split
  · exact k
  exact (k.step Dev.onInStream_foot).pageWrite

theorem bothLost (k : Kept d e) : Kept d e.bothLost := by
  unfold Dev.bothLost
  exact .ite k (k.step Dev.raise_foot).safeState

theorem leadLost (k : Kept d e) : Kept d e.leadLost := by
  unfold Dev.leadLost
  split
  · exact k.bothLost
  exact .ite k ((((k.step Dev.raise_foot).step Dev.onTile_foot).step Dev.onSealing_foot).step Dev.onPkg_foot)

theorem headReset {h} (k : Kept d e) : Kept d (e.headReset h) := by
  unfold Dev.headReset
  exact (k.onExpo.foldl fun _ _ kf => kf.step Dev.refuseErr_foot).step Dev.headClear_foot

theorem haltSupv {t lseq} (k : Kept d e) : Kept d (e.haltSupv t lseq) := by
  unfold Dev.haltSupv
  exact .ite k (.ite (.ite (.ite (k.step Dev.onTile_foot).bothLost (k.step Dev.onTile_foot)) (.ite (((k.step Dev.onTile_foot).step
    Dev.onPkg_foot).step Dev.raise_foot) (k.step Dev.onTile_foot))) (k.step Dev.onTile_foot).isolate)

theorem contain {m lseq} (k : Kept d e) : Kept d (e.contain m lseq) := by
  unfold Dev.contain
  dsimp only
  split
  · split
    · exact k.headReset
    split
    · split
      · exact k.headReset
      · exact k.headReset
      · exact (k.foldl fun _ _ kf => kf.step Dev.linkDisable_foot).step Dev.latShow_foot
      · exact k
    exact .ite (((k.step Dev.linkDisable_foot).step Dev.latShow_foot).step Dev.openShadow_foot) k
  split
  · exact .ite (k.storePoison.step Dev.tick_foot) k
  split
  · exact .ite ((k.step Dev.openShadow_foot).step Dev.chanDo_foot) (((k.step Dev.openShadow_foot).step Dev.chanDo_foot).isolate.step
      Dev.openShadow_foot)
  split
  · exact .ite k (k.retireDie.step Dev.openShadow_foot)
  split
  · split
    · exact .ite k k.keyLost
    exact k
  exact .ite k (.ite k (k.isolate.step Dev.openShadow_foot))

theorem safeBegin {m lseq lvl} (k : Kept d e) : Kept d (e.safeBegin m lseq lvl) := by
  unfold Dev.safeBegin
  exact k.safeState.step Dev.openShadow_foot

theorem react {m lseq} (k : Kept d e) : Kept d (e.react m lseq) := by
  unfold Dev.react
  extract_lets _ _ _ e1 e2
  have k1 : Kept d e1 := .ite (k.step Dev.onFlint_foot) k
  have k2 : Kept d e2 := k1.step Dev.onSealing_foot
  split
  · exact k1
  · exact k1
  · split
    · split
      · exact k1.step Dev.openShadow_foot
      exact k1
    split
    · split
      · exact k1.step Dev.openShadow_foot
      exact k1
    exact .ite (k1.step Dev.openShadow_foot) k1
  · exact .ite (.ite k1 (k1.isolate.step Dev.openShadow_foot)) k1.contain
  · exact .ite k1.haltSupv (.ite (.ite (k2.isolate.step Dev.openShadow_foot) k2) k1.safeBegin)
  · exact .ite k1.haltSupv k1.safeBegin

theorem admitPkg {js} (k : Kept d e) : Kept d (e.admitPkg js) := by
  unfold Dev.admitPkg
  refine Kept.foldl ?_ fun _ _ kf => .ite (.ite (kf.step Dev.onFlint_foot) kf) (Kept.ite (kf.step Dev.onFlint_foot) kf).react
  split
  · exact .ite ((Kept.ite (((k.step Dev.windowLog_foot).foldl fun _ _ kf => kf.step Dev.post_foot).step Dev.tfPulse_foot) ((k.step
      Dev.windowLog_foot).foldl fun _ _ kf => kf.step Dev.post_foot)).step Dev.snapCapture_foot) ((k.step Dev.windowLog_foot).foldl fun _ _ kf =>
      kf.step Dev.post_foot)
  exact (k.step Dev.windowLog_foot).foldl fun _ _ kf => kf.step Dev.post_foot

theorem window {c n pk : Nat} (k : Kept d e) : Kept d (e.window c n pk) := by
  unfold Dev.window
  split
  rename_i taken ms htaken
  have k1 : Kept d taken := .pair htaken (k.step Dev.takeWindow_foot)
  extract_lets counted js had logged pulsed
  have k2 : Kept d counted := k1.foldl fun _ _ kf => kf.step Dev.countMsg_foot
  split
  · exact k2.admitPkg.step Dev.fltShow_foot
  split
  rename_i taken' ps htaken'
  have k3 : Kept d logged := k2.step Dev.windowLog_foot
  have k4 : Kept d taken' := .pair htaken' ((Kept.ite (k3.step Dev.tfPulse_foot) k3).step Dev.takeWindow_foot)
  exact (k4.foldl fun _ _ kf => kf.step Dev.countMsg_foot).admitPkg.step Dev.fltShow_foot

theorem flush {c n : Nat} (k : Kept d e) : Kept d (e.flush c n) := by
  induction n generalizing e with
  | zero => exact k
  | succ n ih =>
    unfold Dev.flush
    exact .ite k (ih k.window)

theorem activate {slot now} (k : Kept d e) : Kept d (e.activate slot now) := by
  unfold Dev.activate
  exact .ite ((((k.step Dev.gaugeWrite_foot).step Dev.onRecs_foot).step Dev.onUpd_foot).step Dev.updEvent_foot).trigger ((((k.step
    Dev.gaugeWrite_foot).step Dev.onRecs_foot).step Dev.onUpd_foot).step Dev.updEvent_foot)

theorem bootRoles {self} (k : Kept d e) : Kept d (e.bootRoles self) := by
  unfold Dev.bootRoles
  extract_lets e1 e2 e3 e4
  have k1 : Kept d e1 := k.foldl fun _ _ kf => kf.step Dev.onTile_foot
  have k2 : Kept d e2 := k1.step Dev.onPkg_foot
  have k3 : Kept d e3 := .ite (k2.step Dev.raise_foot) k2
  have k4 : Kept d e4 := .ite (k3.foldl fun _ _ kf => kf.step Dev.onHead_foot).bothLost k3
  exact (k4.foldl fun _ _ kf => .ite kf (kf.step Dev.raise_foot)).step Dev.mirrorNow_foot

theorem toDramInit (k : Kept d e) : Kept d e.toDramInit := by
  unfold Dev.toDramInit
  exact ((k.mountReset.foldl fun _ _ kf => kf.step Dev.tileChans_foot).step Dev.onRestore_foot).step Dev.restUpd_foot

theorem flashChanLost {t ch} (k : Kept d e) : Kept d (e.flashChanLost t ch) := by
  unfold Dev.flashChanLost
  exact .ite ((k.foldl fun _ _ kf => .ite kf kf.retireDie).step Dev.raise_foot) (k.foldl fun _ _ kf => .ite kf kf.retireDie)

theorem poisonRecords {t tier} (k : Kept d e) : Kept d (e.poisonRecords t tier) := by
  unfold Dev.poisonRecords
  exact k.foldl fun _ _ kf => (Kept.ite kf.ledger kf.ledger).foldl fun _ _ kg => kg.step Dev.poisonLoc_foot

theorem ringsLost (k : Kept d e) : Kept d e.ringsLost := by
  unfold Dev.ringsLost
  exact k.onExpo.step Dev.onCtxs_foot

theorem readmit (k : Kept d e) : Kept d e.readmit := by
  unfold Dev.readmit
  exact k.onExpo.foldl fun _ _ kf => kf.admitReq

theorem restoreFail {p src} (k : Kept d e) : Kept d (e.restoreFail p src) := by
  unfold Dev.restoreFail
  exact (k.pagePoison.step Dev.onRestore_foot).step Dev.raise_foot

theorem restorePage {p out keyErr src} (k : Kept d e) : Kept d (e.restorePage p out keyErr src) := by
  unfold Dev.restorePage
  refine (Kept.step ?_ Dev.markRestored_foot).fetchDone
  split
  · exact .ite k.restoreFail (.ite k.pagePoison k)
  exact .ite k.useKey.pagePoison (.ite k.useKey.restoreFail (.ite ((Kept.ite (k.useKey.step Dev.onBlk_foot) k.useKey).loadPage.step
    Dev.pageTouch_foot).pagePoison (((Kept.ite (k.useKey.step Dev.onBlk_foot) k.useKey).loadPage.step Dev.pageTouch_foot).foldl fun _ _ kf =>
    kf.storePoison.step Dev.poisonEntry_foot)))

theorem resetParts {kept noLat} (k : Kept d e) : Kept d (e.resetParts kept noLat) := by
  unfold Dev.resetParts
  exact (((((((((((((((((((((k.step Dev.onPkg_foot).step Dev.onDw_foot).step Dev.onFlint_foot).step Dev.onHeads_foot).step Dev.onJcs_foot).step
    Dev.onMirror_foot).step Dev.onLat_foot).step Dev.uncSync_foot).step Dev.onQtz_foot).step Dev.onSnap_foot).step Dev.onSlate_foot).step
    Dev.onUpd_foot).onExpo.foldl fun _ _ kf => kf.step Dev.refuseErr_foot).foldl fun _ _ kf => kf.step Dev.emit_foot).step Dev.onSealing_foot).step
    Dev.sealReport_foot).step Dev.onTherm_foot).step Dev.onCtxs_foot).foldl fun _ _ kf => kf.step Dev.disqualify_foot).step Dev.onEnergy_foot).step
    Dev.onEnergy_foot).step Dev.onDram_foot

theorem removeAsk (k : Kept d e) : Kept d e.removeAsk := by
  unfold Dev.removeAsk
  exact (((k.step Dev.raise_foot).step Dev.onPanel_foot).foldl fun _ _ kf => kf.step Dev.disqualify_foot).govTrigger

theorem createAct {x p} (k : Kept d e) : Kept d (createAct e x p).1 := by
  unfold Machine.createAct
  dsimp only
  split
  · exact k
  dsimp only
  exact (k.step Dev.onCtx_foot).keyDraw.ctxTo

theorem assignAct {x p} (k : Kept d e) : Kept d (assignAct e x p).1 := by
  unfold Machine.assignAct
  dsimp only
  split
  · exact k
  split
  · exact k
  split
  · exact k
  exact k.foldl fun _ _ kf => kf.step Dev.rtChange_foot

theorem releaseAct {k0 p} (k : Kept d e) : Kept d (releaseAct e k0 p).1 := by
  unfold Machine.releaseAct
  dsimp only
  split
  · exact k
  split
  · exact k
  split
  · exact k.dcForced.foldl fun _ _ kf => kf.step Dev.releaseGran_foot
  exact k.dcOffer

theorem classAct {x p} (k : Kept d e) : Kept d (classAct e x p).1 := by
  unfold Machine.classAct
  dsimp only
  split
  · exact k
  split
  · exact k
  exact k.foldl fun _ _ kf => kf.step Dev.rtChange_foot

theorem ownerAct {x p} (k : Kept d e) : Kept d (ownerAct e x p).1 := by
  unfold Machine.ownerAct
  dsimp only
  split
  · exact k
  split
  · exact k
  dsimp only
  exact (((k.dcForced.step Dev.stopStreams_foot).foldl fun _ _ kf => kf.step Dev.rtChange_foot).step Dev.onCtx_foot).ctxSave

theorem disableAct {x p} (k : Kept d e) : Kept d (disableAct e x p).1 := by
  unfold Machine.disableAct
  dsimp only
  split
  · exact k
  dsimp only
  exact k.quiesceCtx

theorem enableAct {x p} (k : Kept d e) : Kept d (enableAct e x p).1 := by
  unfold Machine.enableAct
  dsimp only
  split
  · exact k
  split
  · exact k
  split
  · exact k.ctxTo.dcOffer
  exact k.ctxTo

theorem sanitizeAct {x p} (k : Kept d e) : Kept d (sanitizeAct e x p).1 := by
  unfold Machine.sanitizeAct
  dsimp only
  split
  · exact k
  exact k.ctxTo.step Dev.onCtx_foot

theorem retainAct {x p} (k : Kept d e) : Kept d (retainAct e x p).1 := by
  unfold Machine.retainAct
  split
  · exact k
  split
  · exact k
  exact (k.step Dev.onCtx_foot).ctxSave

theorem ringAct {x p} (k : Kept d e) : Kept d (ringAct e x p).1 := by
  unfold Machine.ringAct
  exact (k.step Dev.onRing_foot).ringSave

theorem ringOffAct {x p} (k : Kept d e) : Kept d (ringOffAct e x p).1 := by
  unfold Machine.ringOffAct
  dsimp only
  split
  · exact k
  exact k.quiesceRing

theorem ringIntAct {x p} (k : Kept d e) : Kept d (ringIntAct e x p).1 := by
  unfold Machine.ringIntAct
  exact (k.step Dev.onRing_foot).ringSave

theorem expoPolicyAct {x p} (k : Kept d e) : Kept d (expoPolicyAct e x p).1 := by
  unfold Machine.expoPolicyAct
  exact (k.onExpo.govTrigger.step Dev.recDue_foot).step Dev.pointCheck_foot

theorem relReqAct {x p} (k : Kept d e) : Kept d (relReqAct e x p).1 := by
  unfold Machine.relReqAct
  dsimp only
  split
  · exact k.step Dev.refusePress_foot
  split
  · exact k
  split
  · exact k
  exact k.releaseAsk

theorem injectAct {x p} (k : Kept d e) : Kept d (injectAct e x p).1 := by
  unfold Machine.injectAct
  exact (k.flush.step Dev.deliver_foot).flush

theorem ctlMigAct {x p} (k : Kept d e) : Kept d (ctlMigAct e x p).1 := by
  unfold Machine.ctlMigAct
  split
  · exact k
  split
  · exact k
  split
  · exact k.step Dev.abortMigration_foot
  split
  · exact k
  exact (k.step Dev.onStream_foot).switchCheck

theorem ckptAct {c p} (k : Kept d e) : Kept d (ckptAct e c p).1 := by
  unfold Machine.ckptAct
  dsimp only
  split
  · exact k
  exact (k.step Dev.onLat_foot).foldl fun _ _ kf => .ite (kf.step Dev.ckptRequest_foot) (kf.step Dev.sendMsg_foot)

theorem ckptResAct {c p} (k : Kept d e) : Kept d (ckptResAct e c p).1 := by
  unfold Machine.ckptResAct
  split
  · exact k
  exact k.step Dev.answer_foot

theorem strataRelAct {x p} (k : Kept d e) : Kept d (strataRelAct e x p).1 := by
  unfold Machine.strataRelAct
  split
  · dsimp only
    exact k.releaseStratum
  exact k

theorem bedrockAct {c x} (k : Kept d e) : Kept d (bedrockAct e c x).1 := by
  unfold Machine.bedrockAct
  exact ((k.step Dev.onRecs_foot).step Dev.respond_foot).trigger

theorem poisonCmd {h op dpa cmd data} (k : Kept d e) : Kept d (e.poisonCmd h op dpa cmd data) := by
  unfold Dev.poisonCmd
  exact .ite (k.step Dev.cxlRespond_foot) (.ite (k.step Dev.cxlRespond_foot) (k.onExpo.admitReq.step Dev.cxlRespond_foot))

theorem dcTake {h gs f} (k : Kept d e) : Kept d (e.dcTake h gs f) := by
  unfold Dev.dcTake
  exact (k.step Dev.onHead_foot).foldl fun _ _ kf => kf.dcSettle

section
variable {act : Dev → Caller → List Byte → Dev × Rsp} {op : Nat} {c : Caller} {p : List Byte}

theorem jcsEffect {r : CmdRow} (k : Kept d e) (hact : ∀ e, Kept d e → Kept d (act e c p).1) : Kept d (e.jcsEffect op act r c p) := by
  unfold Dev.jcsEffect
  split
  · exact k.step Dev.respond_foot
  extract_lets now started
  split
  rename_i done x hdone
  have k1 : Kept d done := .pair hdone (hact _ ((k.step Dev.onJcs_foot).step Dev.useLease_foot))
  extract_lets answered
  have k2 : Kept d answered := by
    unfold answered
    split
    · exact .ite (k1.step Dev.onJcs_foot) k1
    · split
      · exact (k1.step Dev.onBg_foot).step Dev.respond_foot
      · exact k1.step Dev.respond_foot
  exact .ite (k2.step Dev.mirrorNow_foot) k2

theorem jcsDo {check : Dev → Caller → List Byte → Nat} (k : Kept d e) (hact : ∀ e, Kept d e → Kept d (act e c p).1) :
    Kept d (e.jcsDo op check act c p) := by
  unfold Dev.jcsDo
  split
  · exact k
  split
  · exact k.step Dev.respond_foot
  extract_lets e1 e2 res
  refine .ite (k.step Dev.respond_foot) (.ite (k.step Dev.respond_foot) ?_)
  split
  · exact k.step Dev.respond_foot
  · exact k.jcsEffect hact
end

theorem jcsRow {op : Nat} {c : Caller} {p : List Byte} (k : Kept d e) : Kept d ((jcsRow op).2 e c p).1 := by
  unfold Machine.jcsRow
  split
  · exact k.step (capAct_foot (x1 := c))
  · exact k.step (identAct_foot (x2 := p))
  · exact k.step dwAct_foot
  · exact k.step (bgStatAct_foot (x1 := c) (x2 := p))
  · exact k.createAct (x := c)
  · exact k.assignAct (x := c)
  · exact k.releaseAct
  · exact k.classAct (x := c)
  · exact k.ownerAct (x := c)
  · exact k.disableAct (x := c)
  · exact k.enableAct (x := c)
  · exact k.sanitizeAct (x := c)
  · exact k.step (getCtxAct_foot (x1 := c))
  · exact k.retainAct (x := c)
  · exact k.step (meterAct_foot (x1 := c))
  · exact k.step (listCtxAct_foot (x1 := c))
  · exact k.ringAct (x := c)
  · exact k.ringOffAct (x := c)
  · exact k.ringIntAct (x := c)
  · exact k.step (getRingAct_foot (x1 := c))
  · exact k.step (expoAct_foot (x1 := c) (x2 := p))
  · exact k.expoPolicyAct (x := c)
  · exact k.step (getPolicyAct_foot (x1 := c) (x2 := p))
  · exact k.step (lapseAct_foot (x1 := c))
  · exact k.step (gaugeAct_foot (x1 := c) (x2 := p))
  · exact k.relReqAct (x := c)
  · exact k.step (holdAct_foot (x1 := c))
  · exact k.step (capTestAct_foot (x1 := c))
  · exact k.step (testSealAct_foot (x1 := c))
  · exact k.step (enPolicyAct_foot (x1 := c))
  · exact k.step (bayParAct_foot (x1 := c))
  · exact k.step (bridgeParAct_foot (x1 := c))
  · exact k.step (chemAct_foot (x1 := c))
  · exact k.step (gaugeRecAct_foot (x1 := c) (x2 := p))
  · exact k.step (thermAct_foot (x1 := c) (x2 := p))
  · exact k.step (thermSetAct_foot (x1 := c))
  · exact k.step (boardAct_foot (x1 := c))
  · exact k.step (thermRecAct_foot (x1 := c))
  · exact k.step (logAct_foot (x1 := c))
  · exact k.step (ffAct_foot (x1 := c))
  · exact k.step (ackAct_foot (x1 := c))
  · exact k.injectAct (x := c)
  · exact k.step (holdTfAct_foot (x1 := c))
  · exact k.step (countsAct_foot (x1 := c))
  · exact k.step (snapAct_foot (x2 := p))
  · exact k.step schedAct_foot
  · exact k.step latSnapAct_foot
  · exact k.step (readSnapAct_foot (x1 := c))
  · exact k.step (relBankAct_foot (x1 := c))
  · exact k.step (cancelAct_foot (x1 := c))
  · exact k.step (timeAct_foot (x1 := c) (x2 := p))
  · exact k.step (offsetAct_foot (x1 := c))
  · exact k.step (timeOptAct_foot (x1 := c))
  · exact k.step (getLatAct_foot (x1 := c))
  · exact k.step (setLinkAct_foot (x1 := c))
  · exact k.step (grantAct_foot (x1 := c))
  · exact k.step (replicaAct_foot (x1 := c))
  · exact k.step (ctlReplicaAct_foot (x1 := c))
  · exact k.step (streamAct_foot (x1 := c))
  · exact k.step (migrateAct_foot (x1 := c))
  · exact k.ctlMigAct (x := c)
  · exact k.ckptAct
  · exact k.ckptResAct
  · exact k.step (ranksAct_foot (x1 := c))
  · exact k.step (rowFaultsAct_foot (x1 := c))
  · exact k.step (retireAct_foot (x1 := c))
  · exact k.step (returnAct_foot (x1 := c))
  · exact k.step (dramCfgAct_foot (x1 := c))
  · exact k.step (strataAct_foot (x1 := c) (x2 := p))
  · exact k.step (lifeAct_foot (x1 := c))
  · exact k.step (strataListAct_foot (x1 := c))
  · exact k.strataRelAct (x := c)
  · exact k.step (damageAct_foot (x1 := c))
  · exact k.step acquireAct_foot
  · exact k.step leaseRelAct_foot
  · exact k.step (leaseQueryAct_foot (x1 := c))
  · exact k.step (breakAct_foot (x1 := c))
  · exact k.step (restoreAct_foot (x1 := c) (x2 := p))
  · exact k.step poisonAct_foot
  · exact k.step (sealRecAct_foot (x1 := c))
  · exact k.step (updStatAct_foot (x1 := c) (x2 := p))
  · exact k.step (updPolAct_foot (x1 := c))
  · exact k.step (confirmAct_foot (x1 := c) (x2 := p))
  · exact k.bedrockAct (x := p)
  · exact k

theorem jcsRun {op : Nat} {c : Caller} {p : List Byte} (k : Kept d e) : Kept d (e.jcsRun op c p) := by
  unfold Dev.jcsRun
  exact k.jcsDo fun _ ke => ke.jcsRow

theorem submit {c op p} (k : Kept d e) : Kept d (e.submit c op p) := by
  unfold Dev.submit
  exact .ite k (.ite (k.step Dev.respond_foot) (.ite k.jcsRun ((k.step Dev.onJcs_foot).step Dev.mirrorNow_foot)))

theorem periodic {n q : Nat} {f : Dev → Dev} (k : Kept d e) (hf : ∀ e, Kept d e → Kept d (f e)) : Kept d (e.periodic n q f) := by
  unfold Dev.periodic
  exact .ite (hf _ (k.step Dev.onPkg_foot)) k

theorem cxlDo {h op : Nat} {early : Bool} {f : Dev → Dev} (k : Kept d e) (hf : ∀ e, Kept d e → Kept d (f e)) : Kept d (e.cxlDo h op early f) := by
  unfold Dev.cxlDo
  exact .ite k (.ite (k.step Dev.cxlRespond_foot) (.ite (k.step Dev.cxlRespond_foot) (.ite (k.step Dev.cxlRespond_foot) (hf _ k))))

theorem brDo {pec : Bool} {f : Dev → Dev} (k : Kept d e) (hf : ∀ e, Kept d e → Kept d (f e)) : Kept d (e.brDo pec f) := by
  unfold Dev.brDo
  exact .ite k (.ite (k.step Dev.emit_foot) (hf _ k))

end Sys2Proof.Machine.Kept
end

section
/-! LEMMAS. Every command keeps memory canonical and dirty pages armed, and with it every step. -/

set_option Elab.async false
namespace Sys2Proof.Machine

/-- The outcome `r` of a command on `s` is a next state that keeps the memory canonical and the dirty pages in armed groups. -/
def KeepsRow (s : State) (r : Res) : Prop := ∃ t, r = .next t ∧ Kept s.dev t.dev

theorem KeepsRow.run {s : State} {f : Dev → Dev} (h : ∀ d, Kept d d → Kept d (f d)) : KeepsRow s (s.run f) :=
  ⟨_, rfl, h _ (.refl _)⟩

theorem KeepsRow.of_foot {s : State} {r : Res} {S : List Part} (h : ∃ t, r = .next t ∧ t.pending = s.pending ∧ ChangesOnly S s.dev t.dev)
    (hS : Part.mem ∉ S ∧ Part.expo ∉ S := by decide) : KeepsRow s r :=
  let ⟨t, ht, _, hchanges⟩ := h
  ⟨t, ht, (Kept.refl _).step hchanges hS⟩

theorem execPackFaultCleared_keeps {b dt s} : KeepsRow s (execPackFaultCleared b dt s) := by
  unfold execPackFaultCleared
  refine .run fun d k => ?_
  exact .ite (((Kept.ite (k.step Dev.elapse_foot) ((k.step Dev.elapse_foot).step Dev.onSrc_foot)).step Dev.bayDo_foot).step
    Dev.bayEvent_foot).govTrigger (k.step Dev.elapse_foot)

theorem execGaugeSample_keeps {samples cv dt s} : KeepsRow s (execGaugeSample samples cv dt s) := by
  unfold execGaugeSample
  refine .run fun d k => ?_
  extract_lets e1 e2 _ _ _ _ _ e3 e4 e5 e6 e7 e8 e9
  have k1 : Kept d e1 := k.step Dev.elapse_foot
  have k2 : Kept d e2 := k1.step Dev.onEnergy_foot
  have k3 : Kept d e3 := ((k2.step Dev.takeSample_foot).step Dev.takeSample_foot).step Dev.takeSample_foot
  have k4 : Kept d e4 := .ite (k3.foldl fun _ _ kf => kf.step Dev.countDown_foot) k3
  have k5 : Kept d e5 := (k4.step Dev.countCharge_foot).step Dev.countCharge_foot
  have k6 : Kept d e6 := k5.foldl fun _ _ kf => (kf.step Dev.calRun_foot).step Dev.restRun_foot
  have k7 : Kept d e7 := k6.packChecks.packChecks.bridgeChecks
  have k8 : Kept d e8 := (k7.step Dev.chargeEnd_foot).step Dev.chargeEnd_foot
  have k9 : Kept d e9 := k8.foldl fun _ _ kf => .ite (((kf.step Dev.interruptStep_foot).step Dev.testRate_foot).step Dev.disqualify_foot) ((kf.step
    Dev.interruptStep_foot).step Dev.testRate_foot)
  exact .ite k9 (k9.step Dev.mirrorNow_foot)

theorem execEstimatorRecompute_keeps {dt s} : KeepsRow s (execEstimatorRecompute dt s) := by
  unfold execEstimatorRecompute
  refine .run fun d k => ?_
  exact (k.step Dev.elapse_foot).periodic fun _ kf => ((((Kept.ite kf ((kf.foldl fun _ _ kg => .ite ((kg.step Dev.sigGrow_foot).step
    Dev.estimatePack_foot).recount kg).step Dev.estimateBridge_foot)).foldl fun _ _ kg => .ite (kg.step Dev.viewPack_foot) kg).step
    Dev.bridgeView_foot).foldl fun _ _ kg => (kg.step Dev.chargeStep_foot).step Dev.bayUpd_foot).step Dev.viewUpd_foot

theorem execDcirMeasurement_keeps {b dv di dt s} : KeepsRow s (execDcirMeasurement b dv di dt s) := by
  unfold execDcirMeasurement
  refine .run fun d k => ?_
  exact .ite (k.step Dev.elapse_foot) (.ite (((k.step Dev.elapse_foot).step Dev.onBay_foot).step Dev.onEnergy_foot).packFault (((k.step
    Dev.elapse_foot).step Dev.onBay_foot).step Dev.onEnergy_foot))

theorem execBridgeChargeMeasured_keeps {v0 v1 q esr steady dt s} : KeepsRow s (execBridgeChargeMeasured v0 v1 q esr steady dt s) := by
  unfold execBridgeChargeMeasured
  refine .run fun d k => ?_
  extract_lets e1
  have k1 : Kept d e1 := k.step Dev.elapse_foot
  split
  · exact k1
  exact .ite (.ite (Kept.ite (k1.step Dev.onEnergy_foot).bridgeFault (k1.step Dev.onEnergy_foot)).bridgeFault (.ite (k1.step
    Dev.onEnergy_foot).bridgeFault (k1.step Dev.onEnergy_foot))) k1

theorem execPackFirstEstimate_keeps {b mv dt s} : KeepsRow s (execPackFirstEstimate b mv dt s) := by
  unfold execPackFirstEstimate
  refine .run fun d k => ?_
  exact .ite (k.step Dev.elapse_foot) (.ite (k.step Dev.elapse_foot).packFault (((((((((k.step Dev.elapse_foot).step Dev.onBay_foot).step
    Dev.onSrc_foot).step Dev.estimatePack_foot).step Dev.onBay_foot).step Dev.viewPack_foot).step Dev.bayUpd_foot).step Dev.bayEvent_foot).step
    Dev.gaugeDue_foot).govTrigger)

theorem execChargeTimeout_keeps {b dt s} : KeepsRow s (execChargeTimeout b dt s) := by
  unfold execChargeTimeout
  refine .run fun d k => ?_
  exact .ite (k.step Dev.elapse_foot).packFault (k.step Dev.elapse_foot)

theorem execCapacityTestStep_keeps {b dt s} : KeepsRow s (execCapacityTestStep b dt s) := by
  unfold execCapacityTestStep
  refine .run fun d k => ?_
  extract_lets e1
  have k1 : Kept d e1 := k.step Dev.elapse_foot
  split
  · exact k1.step Dev.bayDo_foot
  · exact .ite (k1.step Dev.bayDo_foot) k1
  · extract_lets e2
    have k2 : Kept d e2 := k1.step Dev.testResult_foot
    exact .ite k2.packFault k2
  · exact k1

theorem execBayTouch_keeps {b dt s} : KeepsRow s (execBayTouch b dt s) := by
  unfold execBayTouch
  refine .run fun d k => ?_
  exact .ite (k.step Dev.elapse_foot) ((((k.step Dev.elapse_foot).step Dev.onPanel_foot).step Dev.bayDo_foot).step
    Dev.interruptTests_foot).govTrigger.onExpo

theorem execBayTouchEnd_keeps {b dt s} : KeepsRow s (execBayTouchEnd b dt s) := by
  unfold execBayTouchEnd
  refine .run fun d k => ?_
  exact .ite (((k.step Dev.elapse_foot).step Dev.onPanel_foot).step Dev.bayDo_foot).govTrigger.onExpo ((k.step Dev.elapse_foot).step Dev.onPanel_foot)

theorem execTouchStuck_keeps {b count dt s} : KeepsRow s (execTouchStuck b count dt s) := by
  unfold execTouchStuck
  refine .run fun d k => ?_
  exact .ite ((((k.step Dev.elapse_foot).step Dev.onPanel_foot).step Dev.bayDo_foot).step Dev.bayEvent_foot).govTrigger.onExpo (k.step
    Dev.elapse_foot)

theorem execBayReleasePress_keeps {b down dt s} : KeepsRow s (execBayReleasePress b down dt s) := by
  unfold execBayReleasePress
  refine .run fun d k => ?_
  extract_lets e1 e2 _ e3
  have k1 : Kept d e1 := k.step Dev.elapse_foot
  have k2 : Kept d e2 := k1.step Dev.bayDo_foot
  have k3 : Kept d e3 := k2.step Dev.interruptTests_foot
  exact .ite k1 (.ite (k1.step Dev.bayDo_foot) (.ite k2 (.ite (k3.step Dev.refusePress_foot) (.ite k3.grantBay (.ite k3 (.ite ((k3.step
    Dev.bayDo_foot).step Dev.bayEvent_foot).govTrigger k3.releaseAsk))))))

theorem execBayLatchOpen_keeps {b dt s} : KeepsRow s (execBayLatchOpen b dt s) := by
  unfold execBayLatchOpen
  refine .run fun d k => ?_
  extract_lets e1 e2 _ _ e3 e4 e5 e6
  have k1 : Kept d e1 := k.step Dev.elapse_foot
  have k2 : Kept d e2 := k1.step Dev.onBay_foot
  have k3 : Kept d e3 := k2.step Dev.disqualify_foot
  have k4 : Kept d e4 := k3.step Dev.onSrc_foot
  have k5 : Kept d e5 := k4.step Dev.bayDo_foot
  have k6 : Kept d e6 := .ite k5 (.ite ((k5.step Dev.bayEvent_foot).step Dev.gaugeDue_foot).govTrigger ((k5.step Dev.bayEvent_foot).step
    Dev.gaugeDue_foot).govTrigger)
  exact .ite (k2.step Dev.onBay_foot) ((k6.step Dev.interruptTests_foot).step Dev.viewUpd_foot)

theorem execWaitingTimeout_keeps {b dt s} : KeepsRow s (execWaitingTimeout b dt s) := by
  unfold execWaitingTimeout
  refine .run fun d k => ?_
  exact .ite (((k.step Dev.elapse_foot).step Dev.bayDo_foot).step Dev.bayEvent_foot).govTrigger (k.step Dev.elapse_foot)

theorem execGrantLapse_keeps {b dt s} : KeepsRow s (execGrantLapse b dt s) := by
  unfold execGrantLapse
  refine .run fun d k => ?_
  exact .ite (((k.step Dev.elapse_foot).step Dev.bayDo_foot).step Dev.bayEvent_foot).govTrigger (k.step Dev.elapse_foot)

theorem execPageRecordDurable_keeps {t ue dt s} : KeepsRow s (execPageRecordDurable t ue dt s) := by
  unfold execPageRecordDurable
  refine .run fun d k => ?_
  dsimp only
  split
  · exact k.step Dev.elapse_foot
  refine (Kept.earlyDisarm ?_).armFullCheck.landUe.landNext
  split
  · exact k.step Dev.elapse_foot
  exact (k.step Dev.elapse_foot).issue.foldl fun _ _ kf => kf.recordDone

theorem execRegionTableCommit_keeps {g replBad dt s} : KeepsRow s (execRegionTableCommit g replBad dt s) := by
  unfold execRegionTableCommit
  refine .run fun d k => ?_
  extract_lets e1 e2
  have k1 : Kept d e1 := k.step Dev.elapse_foot
  have k2 : Kept d e2 := .ite (k1.step Dev.raise_foot) k1
  split
  · exact .ite k2 k2.rtCommit
  exact k2

theorem execZeroFillComplete_keeps {g dt s} : KeepsRow s (execZeroFillComplete g dt s) := by
  unfold execZeroFillComplete
  refine .run fun d k => ?_
  dsimp only
  split
  · exact .ite (k.step Dev.elapse_foot) (k.step Dev.elapse_foot).zeroGranule.rtCommit
  exact k.step Dev.elapse_foot

theorem execDcReleaseTimeout_keeps {h dt s} : KeepsRow s (execDcReleaseTimeout h dt s) := by
  unfold execDcReleaseTimeout
  refine .run fun d k => ?_
  exact ((k.step Dev.elapse_foot).step Dev.onHead_foot).foldl fun _ _ kf => kf.dcSettle.step Dev.bgEnd_foot

theorem execMinuteBoundary_keeps {dt s} : KeepsRow s (execMinuteBoundary dt s) := by
  unfold execMinuteBoundary
  refine .run fun d k => ?_
  exact .ite (((k.step Dev.elapse_foot).foldl fun _ _ kf => (kf.step Dev.cutMeter_foot).ageStrata).step Dev.onCtxs_foot) (k.step Dev.elapse_foot)

theorem execMeteringWrite_keeps {dt s} : KeepsRow s (execMeteringWrite dt s) := by
  unfold execMeteringWrite
  refine .run fun d k => ?_
  exact .ite (k.step Dev.elapse_foot) ((k.step Dev.elapse_foot).foldl fun _ _ kf => kf.meterSave)

theorem execCxlMemRead_keeps {h hpa errs replBad caErr resv dt s} : KeepsRow s (execCxlMemRead h hpa errs replBad caErr resv dt s) := by
  unfold execCxlMemRead
  refine .run fun d k => ?_
  refine Kept.request ?_
  split
  · refine Kept.reserveRepair ?_
    split
    · exact .ite (((k.step Dev.elapse_foot).step Dev.replicaReload_foot).step Dev.caError_foot) ((k.step Dev.elapse_foot).step Dev.replicaReload_foot)
    exact k.step Dev.elapse_foot
  split
  · exact .ite (((k.step Dev.elapse_foot).step Dev.replicaReload_foot).step Dev.caError_foot) ((k.step Dev.elapse_foot).step Dev.replicaReload_foot)
  exact k.step Dev.elapse_foot

theorem execCxlMemWrite_keeps {h hpa data mask ue replBad dt s} : KeepsRow s (execCxlMemWrite h hpa data mask ue replBad dt s) := by
  unfold execCxlMemWrite
  refine .run fun d k => ?_
  refine Kept.request ?_
  split
  · exact .ite ((k.step Dev.elapse_foot).step Dev.replicaReload_foot).lineUe ((k.step Dev.elapse_foot).step Dev.replicaReload_foot)
  exact k.step Dev.elapse_foot

theorem execArmBatchProgram_keeps {t dt s} : KeepsRow s (execArmBatchProgram t dt s) := by
  unfold execArmBatchProgram
  refine .run fun d k => ?_
  exact .ite (k.step Dev.elapse_foot).startArm (k.step Dev.elapse_foot)

theorem execArmProgramDone_keeps {t dead dt s} : KeepsRow s (execArmProgramDone t dead dt s) := by
  unfold execArmProgramDone
  refine .run fun d k => ?_
  exact .ite ((k.step Dev.elapse_foot).step Dev.raise_foot) (k.step Dev.elapse_foot).armDone

theorem execDisarmBatchProgram_keeps {t dt s} : KeepsRow s (execDisarmBatchProgram t dt s) := by
  unfold execDisarmBatchProgram
  refine .run fun d k => ?_
  exact .ite (k.step Dev.elapse_foot).startArm (k.step Dev.elapse_foot)

theorem execGovernorRecompute_keeps {dt s} : KeepsRow s (execGovernorRecompute dt s) := by
  unfold execGovernorRecompute
  refine .run fun d k => ?_
  exact .ite ((((k.step Dev.elapse_foot).recompute.serve.step Dev.heldEvent_foot).step Dev.heldEvent_foot).step Dev.mirrorNow_foot) (k.step
    Dev.elapse_foot)

theorem execEventRecompute_keeps {dt s} : KeepsRow s (execEventRecompute dt s) := by
  unfold execEventRecompute
  refine .run fun d k => ?_
  exact .ite ((k.step Dev.elapse_foot).recompute.serve.step Dev.mirrorNow_foot) (k.step Dev.elapse_foot)

theorem execWritePacingDelayExpiry_keeps {dt s} : KeepsRow s (execWritePacingDelayExpiry dt s) := by
  unfold execWritePacingDelayExpiry
  refine .run fun d k => ?_
  exact (k.step Dev.elapse_foot).onExpo.foldl fun _ _ kf => kf.step Dev.pacedDone_foot

theorem execWriteHoldExpiry_keeps {dt s} : KeepsRow s (execWriteHoldExpiry dt s) := by
  unfold execWriteHoldExpiry
  refine .run fun d k => ?_
  exact (((k.step Dev.elapse_foot).onExpo.foldl fun _ _ kf => kf.step Dev.onHead_foot).serve.step Dev.heldEvent_foot).step Dev.heldEvent_foot

theorem execCheckpointCommit_keeps {t dt s} : KeepsRow s (execCheckpointCommit t dt s) := by
  unfold execCheckpointCommit
  refine .run fun d k => ?_
  exact .ite ((k.step Dev.elapse_foot).ckptWrite.cairn.step Dev.onFl_foot) (k.step Dev.elapse_foot)

theorem execLedgerSummary_keeps {t dt s} : KeepsRow s (execLedgerSummary t dt s) := by
  unfold execLedgerSummary
  refine .run fun d k => ?_
  exact .ite (((((k.step Dev.elapse_foot).foldl fun _ _ kf => kf.step Dev.summaryPut_foot).step Dev.onFl_foot).ledger.foldl fun _ _ kf =>
    kf.ledgerErase).step Dev.onFl_foot) (k.step Dev.elapse_foot)

theorem execFlashOpFail_keeps {t blk reason lost soft statusFail wholeDie dt s} :
     KeepsRow s (execFlashOpFail t blk reason lost soft statusFail wholeDie dt s) := by
  unfold execFlashOpFail
  refine .run fun d k => ?_
  extract_lets e1 _ _ _ _ e2
  have k1 : Kept d e1 := k.step Dev.elapse_foot
  have k2 : Kept d e2 := k1.step Dev.onFl_foot
  exact .ite (.ite (k1.step Dev.raise_foot) (k1.step Dev.onFl_foot).badBlock) (.ite k1 (.ite k2.retireDie k2.blockFails))

theorem execTrickleCapture_keeps {t keyErr ue dt s} : KeepsRow s (execTrickleCapture t keyErr ue dt s) := by
  unfold execTrickleCapture
  refine .run fun d k => ?_
  extract_lets e1
  have k1 : Kept d e1 := k.step Dev.elapse_foot
  split
  · split
    · exact k1
    exact .ite k1 (.ite k1.useKey (((k1.useKey.step Dev.pageTouch_foot).pageUe.step Dev.rateUse_foot).capture.step Dev.flashServed_foot))
  exact k1

theorem execBackgroundErase_keeps {t blk dt s} : KeepsRow s (execBackgroundErase t blk dt s) := by
  unfold execBackgroundErase
  refine .run fun d k => ?_
  dsimp only
  split
  · exact k.step Dev.elapse_foot
  exact .ite (k.step Dev.elapse_foot) (.ite (((k.step Dev.elapse_foot).step Dev.onFl_foot).step Dev.flashServed_foot) (((k.step
    Dev.elapse_foot).step Dev.onFl_foot).step Dev.flashServed_foot).cairn)

theorem execEraseDone_keeps {t blk ok dt s} : KeepsRow s (execEraseDone t blk ok dt s) := by
  unfold execEraseDone
  refine .run fun d k => ?_
  exact .ite (k.step Dev.elapse_foot) (.ite ((((k.step Dev.elapse_foot).step Dev.onStrata_foot).step Dev.onStrata_foot).step
    Dev.onFl_foot).eraseBlank (((((k.step Dev.elapse_foot).step Dev.onStrata_foot).step Dev.onStrata_foot).step Dev.onFl_foot).step
    Dev.onBlk_foot).badBlock)

theorem execSanitizeStepDone_keeps {c dt s} : KeepsRow s (execSanitizeStepDone c dt s) := by
  unfold execSanitizeStepDone
  refine .run fun d k => ?_
  dsimp only
  split
  · exact k.step Dev.elapse_foot
  split
  · exact (k.step Dev.elapse_foot).ctxSave.step Dev.onCtx_foot
  · exact ((k.step Dev.elapse_foot).dcForced.foldl fun _ _ kf => kf.rtCommit.zeroGranule).step Dev.onCtx_foot
  · exact ((k.step Dev.elapse_foot).keyErase.foldl fun _ _ kf => kf.dropOldKeys).step Dev.onCtx_foot
  · exact .ite ((k.step Dev.elapse_foot).step Dev.onCtx_foot) (k.step Dev.elapse_foot)
  · exact (((k.step Dev.elapse_foot).ledgerAll.step Dev.onStrata_foot).step Dev.stopStreams_foot).step Dev.onCtx_foot
  · exact (k.step Dev.elapse_foot).sanitizeEnd

theorem execGarbageCollection_keeps {t lost soft dt s} : KeepsRow s (execGarbageCollection t lost soft dt s) := by
  unfold execGarbageCollection
  refine .run fun d k => ?_
  dsimp only
  split
  · refine Kept.spaceCheck ?_
    split
    · exact ((k.step Dev.elapse_foot).step Dev.dropTlc_foot).emptyBlock
    exact (k.step Dev.elapse_foot).step Dev.dropTlc_foot
  exact k.step Dev.elapse_foot

theorem execColdCompaction_keeps {t lost soft dt s} : KeepsRow s (execColdCompaction t lost soft dt s) := by
  unfold execColdCompaction
  refine .run fun d k => ?_
  exact .ite ((((k.step Dev.elapse_foot).foldl fun _ _ kf => .ite kf.strataLost kf.relocate).step Dev.closeStream_foot).step Dev.dropTlc_foot)
    (k.step Dev.elapse_foot)

theorem execRetentionRefresh_keeps {t blk lost soft dt s} : KeepsRow s (execRetentionRefresh t blk lost soft dt s) := by
  unfold execRetentionRefresh
  refine .run fun d k => ?_
  exact .ite (k.step Dev.elapse_foot).emptyBlock (k.step Dev.elapse_foot)

theorem execWearLeveling_keeps {t die lost soft dt s} : KeepsRow s (execWearLeveling t die lost soft dt s) := by
  unfold execWearLeveling
  refine .run fun d k => ?_
  extract_lets e1
  have k1 : Kept d e1 := k.step Dev.elapse_foot
  split
  · split
    · exact k1.emptyBlock
    exact k1
  exact k1

theorem execStrataStatusUpdate_keeps {dt s} : KeepsRow s (execStrataStatusUpdate dt s) := by
  unfold execStrataStatusUpdate
  refine .run fun d k => ?_
  exact (k.step Dev.elapse_foot).periodic fun _ kf => (kf.foldl fun _ _ kg => kg.spaceCheck).step Dev.strataUpd_foot

theorem execLineRepairComplete_keeps {p recBad dt s} : KeepsRow s (execLineRepairComplete p recBad dt s) := by
  unfold execLineRepairComplete
  refine .run fun d k => ?_
  dsimp only
  split
  · exact k.step Dev.elapse_foot
  refine ((((k.step Dev.elapse_foot).foldl fun _ _ kf => ?_).step Dev.pageTouch_foot).onExpo.step Dev.onDram_foot).serve
  split
  · exact .ite kf.linePoison (kf.loadLine.step Dev.lineMended_foot)
  exact kf.linePoison

theorem execPatrolScrub_keeps {line errs caErr lost dt s} : KeepsRow s (execPatrolScrub line errs caErr lost dt s) := by
  unfold execPatrolScrub
  refine .run fun d k => ?_
  extract_lets e1 _ _ e2 e3 e4
  have k1 : Kept d e1 := k.step Dev.elapse_foot
  have k2 : Kept d e2 := k1.step Dev.onDram_foot
  have k3 : Kept d e3 := .ite (k2.step Dev.caError_foot) k2
  have k4 : Kept d e4 := k3.step Dev.chanTouch_foot
  split
  · exact k1
  split
  · exact k4.reserveRepair
  exact k4.readLine

theorem execCaRetrainDone_keeps {t c ok dt s} : KeepsRow s (execCaRetrainDone t c ok dt s) := by
  unfold execCaRetrainDone
  refine .run fun d k => ?_
  exact .ite (k.step Dev.elapse_foot) (.ite ((k.step Dev.elapse_foot).step Dev.onChan_foot).chanServe (((k.step Dev.elapse_foot).step
    Dev.chanDo_foot).step Dev.raise_foot))

theorem execTokenRefill_keeps {t c dt s} : KeepsRow s (execTokenRefill t c dt s) := by
  unfold execTokenRefill
  refine .run fun d k => ?_
  exact ((k.step Dev.elapse_foot).step Dev.onChan_foot).chanServe

theorem execPartialTrainingDone_keeps {t c r dt s} : KeepsRow s (execPartialTrainingDone t c r dt s) := by
  unfold execPartialTrainingDone
  refine .run fun d k => ?_
  dsimp only
  split
  · exact .ite (((k.step Dev.elapse_foot).step Dev.onChan_foot).step Dev.fspEnd_foot).chanServe ((k.step Dev.elapse_foot).step
      Dev.onChan_foot).chanServe
  exact ((k.step Dev.elapse_foot).step Dev.onChan_foot).chanServe

theorem execFspSwitchDone_keeps {t c dt s} : KeepsRow s (execFspSwitchDone t c dt s) := by
  unfold execFspSwitchDone
  refine .run fun d k => ?_
  dsimp only
  split
  · exact k.step Dev.elapse_foot
  exact .ite ((k.step Dev.elapse_foot).step Dev.fspEnd_foot).chanServe ((k.step Dev.elapse_foot).step Dev.chanDo_foot)

theorem execSweepBlockCopied_keeps {t e0 ue homeBad dt s} : KeepsRow s (execSweepBlockCopied t e0 ue homeBad dt s) := by
  unfold execSweepBlockCopied
  refine .run fun d k => ?_
  extract_lets e1 _ _ e2 _ e3 e4 e5
  have k1 : Kept d e1 := k.step Dev.elapse_foot
  have k2 : Kept d e2 := k1.foldl fun _ _ kf => kf.step Dev.chanUse_foot
  have k3 : Kept d e3 := k2.foldl fun _ _ kf => kf.lineBad
  have k4 : Kept d e4 := k3.step Dev.steerNow_foot
  have k5 : Kept d e5 := k2.step Dev.steerNow_foot
  split
  · exact k1
  split
  · exact .ite (k4.step Dev.migrateEnd_foot) k4
  · exact .ite ((k2.step Dev.returnAbort_foot).foldl fun _ _ kf => kf.lineBad) (.ite (k5.step Dev.returnEnd_foot) k5)
  · exact k2

theorem execDoorbellSq_keeps {h c k0 tail ue dt s} : KeepsRow s (execDoorbellSq h c k0 tail ue dt s) := by
  unfold execDoorbellSq
  refine .run fun d k => ?_
  extract_lets e1 e2
  have k1 : Kept d e1 := k.step Dev.elapse_foot
  have k2 : Kept d e2 := k1.step Dev.onRing_foot
  exact .ite (k1.step Dev.raise_foot) (.ite k1 (.ite (k1.step Dev.ringError_foot) (Kept.ite k2.lineUe k2).fetchAll))

theorem execDoorbellCq_keeps {h c k0 head dt s} : KeepsRow s (execDoorbellCq h c k0 head dt s) := by
  unfold execDoorbellCq
  refine .run fun d k => ?_
  exact .ite ((k.step Dev.elapse_foot).step Dev.raise_foot) (.ite (k.step Dev.elapse_foot) (.ite ((k.step Dev.elapse_foot).step Dev.ringError_foot)
    ((k.step Dev.elapse_foot).step Dev.onRing_foot).fetchAll))

theorem execFence_keeps {c k0 dt s} : KeepsRow s (execFence c k0 dt s) := by
  unfold execFence
  refine .run fun d k => ?_
  exact (k.step Dev.elapse_foot).takeNext

theorem execCheckpoint_keeps {c k0 dt s} : KeepsRow s (execCheckpoint c k0 dt s) := by
  unfold execCheckpoint
  refine .run fun d k => ?_
  exact (k.step Dev.elapse_foot).takeNext

theorem execRollback_keeps {c k0 dt s} : KeepsRow s (execRollback c k0 dt s) := by
  unfold execRollback
  refine .run fun d k => ?_
  exact (k.step Dev.elapse_foot).takeNext

theorem execExposureQuery_keeps {c k0 dt s} : KeepsRow s (execExposureQuery c k0 dt s) := by
  unfold execExposureQuery
  refine .run fun d k => ?_
  exact (k.step Dev.elapse_foot).takeNext

theorem execMeterMark_keeps {c k0 dt s} : KeepsRow s (execMeterMark c k0 dt s) := by
  unfold execMeterMark
  refine .run fun d k => ?_
  exact (k.step Dev.elapse_foot).takeNext

theorem execNop_keeps {c k0 dt s} : KeepsRow s (execNop c k0 dt s) := by
  unfold execNop
  refine .run fun d k => ?_
  exact (k.step Dev.elapse_foot).takeNext

theorem execFenceComplete_keeps {c k0 dt s} : KeepsRow s (execFenceComplete c k0 dt s) := by
  unfold execFenceComplete
  refine .run fun d k => ?_
  dsimp only
  split
  · exact k.step Dev.elapse_foot
  split
  · exact (k.step Dev.elapse_foot).fenceEnd.fetchRings
  exact k.step Dev.elapse_foot

theorem execCheckpointComplete_keeps {c k0 m dt s} : KeepsRow s (execCheckpointComplete c k0 m dt s) := by
  unfold execCheckpointComplete
  refine .run fun d k => ?_
  extract_lets e1
  have k1 : Kept d e1 := k.step Dev.elapse_foot
  split
  · exact .ite k1 (.ite k1.complete.fetchRings (.ite (k1.ckptTiles.createStratum.step Dev.markStreams_foot).complete.fetchRings k1.ckptTiles))
  exact k1

theorem execRollbackSwitchCommit_keeps {c k0 dt s} : KeepsRow s (execRollbackSwitchCommit c k0 dt s) := by
  unfold execRollbackSwitchCommit
  refine .run fun d k => ?_
  extract_lets e1 e2 e3
  have k1 : Kept d e1 := k.step Dev.elapse_foot
  have k2 : Kept d e2 := k1.cleanPages
  have k3 : Kept d e3 := k2.step Dev.onCtxs_foot
  split
  · exact k1
  exact .ite k1 (.ite k1.complete.fetchRings ((Kept.ite (k3.step Dev.onCtx_foot).ctxTo (k3.step Dev.onCtx_foot).ctxSave).step
    Dev.onMeter_foot).complete.rollbackEnd.fetchRings)

theorem execReversalComplete_keeps {p out dt s} : KeepsRow s (execReversalComplete p out dt s) := by
  unfold execReversalComplete
  refine .run fun d k => ?_
  dsimp only
  split
  · split
    · exact (k.step Dev.elapse_foot).step Dev.onCtxs_foot
    exact .ite (k.step Dev.elapse_foot).revert (((k.step Dev.elapse_foot).revert.step Dev.onCtxs_foot).step
      Dev.markRestored_foot).fetchDone.revDone.rollbackEnd.fetchRings
  exact k.step Dev.elapse_foot

theorem execRollbackBitmapRebuilt_keeps {t dt s} : KeepsRow s (execRollbackBitmapRebuilt t dt s) := by
  unfold execRollbackBitmapRebuilt
  refine .run fun d k => ?_
  exact ((((k.step Dev.elapse_foot).step Dev.onCtxs_foot).foldl fun _ _ kf => kf.step Dev.onCtx_foot).revDone.foldl fun _ _ kf =>
    kf.rollbackEnd).fetchRings

theorem execQuiesceComplete_keeps {c dt s} : KeepsRow s (execQuiesceComplete c dt s) := by
  unfold execQuiesceComplete
  refine .run fun d k => ?_
  exact .ite (((k.step Dev.elapse_foot).foldl fun _ _ kf => (kf.step Dev.onRing_foot).step Dev.bgEndAny_foot).ctxTo.step Dev.bgEndAny_foot)
    ((k.step Dev.elapse_foot).foldl fun _ _ kf => (kf.step Dev.onRing_foot).step Dev.bgEndAny_foot)

theorem execPwrFailNAssert_keeps {width taken dt s} : KeepsRow s (execPwrFailNAssert width taken dt s) := by
  unfold execPwrFailNAssert
  refine .run fun d k => ?_
  exact .ite (((k.step Dev.elapse_foot).step Dev.onPanel_foot).step Dev.mainsLost_foot).trigger (k.step Dev.elapse_foot)

theorem execVinSenseLow_keeps {width taken dt s} : KeepsRow s (execVinSenseLow width taken dt s) := by
  unfold execVinSenseLow
  refine .run fun d k => ?_
  exact .ite (((k.step Dev.elapse_foot).step Dev.onPanel_foot).step Dev.mainsLost_foot).trigger (k.step Dev.elapse_foot)

theorem execStage1Complete_keeps {dt s} : KeepsRow s (execStage1Complete dt s) := by
  unfold execStage1Complete
  refine .run fun d k => ?_
  exact .ite (k.step Dev.elapse_foot) ((((((k.step Dev.elapse_foot).sealArms.step Dev.onSealing_foot).step Dev.onDram_foot).foldl fun _ _ kf =>
    kf.step Dev.onFl_foot).step Dev.stage2Lead_foot).step Dev.sealUpd_foot)

theorem execStage2MetadataVerified_keeps {t dt s} : KeepsRow s (execStage2MetadataVerified t dt s) := by
  unfold execStage2MetadataVerified
  refine .run fun d k => ?_
  exact .ite (k.step Dev.elapse_foot) ((((k.step Dev.elapse_foot).sealArms.onExpo.serve.step Dev.onFl_foot).step Dev.resvPut_foot).step
    Dev.onSealing_foot)

theorem execStage2Complete_keeps {t ue dt s} : KeepsRow s (execStage2Complete t ue dt s) := by
  unfold execStage2Complete
  refine .run fun d k => ?_
  exact .ite (k.step Dev.elapse_foot) (((((k.step Dev.elapse_foot).sealHeader.step Dev.toStage_foot).step Dev.onSealing_foot).step
    Dev.sealWorst_foot).landUe.landNext.step Dev.sealUpd_foot)

theorem execEnergyFloorReached_keeps {dt s} : KeepsRow s (execEnergyFloorReached dt s) := by
  unfold execEnergyFloorReached
  refine .run fun d k => ?_
  exact .ite ((((k.step Dev.elapse_foot).onExpo.foldl fun _ _ kf => kf.step Dev.onFlow_foot).step Dev.onSealing_foot).step Dev.sealUpd_foot)
    (k.step Dev.elapse_foot)

theorem execSealProgramFail_keeps {t blk dt s} : KeepsRow s (execSealProgramFail t blk dt s) := by
  unfold execSealProgramFail
  refine .run fun d k => ?_
  extract_lets e1 e2
  have k1 : Kept d e1 := k.step Dev.elapse_foot
  have k2 : Kept d e2 := .ite (k1.step Dev.resvFail_foot) k1.landFail
  exact .ite k1 (.ite (.ite (k1.step Dev.onFl_foot) k1) ((k2.step Dev.onBlk_foot).step Dev.onFl_foot))

theorem execTileSealRecordWritten_keeps {t dt s} : KeepsRow s (execTileSealRecordWritten t dt s) := by
  unfold execTileSealRecordWritten
  refine .run fun d k => ?_
  exact .ite (k.step Dev.elapse_foot) ((((k.step Dev.elapse_foot).ledger.step Dev.toStage_foot).step Dev.onSealing_foot).step Dev.sealUpd_foot)

theorem execPackageSealRecordWritten_keeps {canary dt s} : KeepsRow s (execPackageSealRecordWritten canary dt s) := by
  unfold execPackageSealRecordWritten
  refine .run fun d k => ?_
  extract_lets e1 _ e2 e3
  have k1 : Kept d e1 := k.step Dev.elapse_foot
  have k2 : Kept d e2 := k1.ledger
  have k3 : Kept d e3 := k2.step Dev.onSealing_foot
  exact .ite k1 (.ite k3.testEnd (.ite (k3.sealLearn.step Dev.sealRecord_foot).warmReturn (k3.step Dev.stage5Begin_foot)))

theorem execStage5Complete_keeps {dt s} : KeepsRow s (execStage5Complete dt s) := by
  unfold execStage5Complete
  refine .run fun d k => ?_
  extract_lets e1 _ e2 _ e3 e4 e5 e6 e7
  have k1 : Kept d e1 := k.step Dev.elapse_foot
  have k2 : Kept d e2 := (((((k1.sealLearn.step Dev.sealRecord_foot).step Dev.stateWrite_foot).step Dev.thermKeep_foot).step
    Dev.flintExtract_foot).step Dev.snapKeep_foot).step Dev.stampFloor_foot
  have k3 : Kept d e3 := k2.step Dev.onSealing_foot
  have k4 : Kept d e4 := k3.step Dev.onRestore_foot
  have k5 : Kept d e5 := k2.step Dev.onSnap_foot
  have k6 : Kept d e6 := k5.foldl fun _ _ kf => kf.step Dev.disqualify_foot
  have k7 : Kept d e7 := (k6.step Dev.onSealing_foot).step Dev.sealUpd_foot
  exact .ite k1 (.ite ((k4.step Dev.onPanel_foot).step Dev.sealUpd_foot) (k7.step Dev.hibernate_foot))

theorem execResetNRelease_keeps {dt s} : KeepsRow s (execResetNRelease dt s) := by
  unfold execResetNRelease
  refine .run fun d k => ?_
  extract_lets e1 _ e2
  have k1 : Kept d e1 := k.step Dev.elapse_foot
  have k2 : Kept d e2 := k1.step Dev.onPanel_foot
  split
  · exact k1
  extract_lets
  exact .ite k2 (.ite (.ite (k2.step Dev.powerStart_foot) k2) (.ite k2.forcedReset (.ite (k2.step Dev.onPanel_foot) (.ite k2.trigger k2))))

theorem execForcedReset_keeps {dt s} : KeepsRow s (execForcedReset dt s) := by
  unfold execForcedReset
  refine .run fun d k => ?_
  exact .ite (.ite (k.step Dev.elapse_foot).forcedReset (.ite (((k.step Dev.elapse_foot).step Dev.powerStart_foot).step Dev.onPanel_foot) (k.step
    Dev.elapse_foot))) (k.step Dev.elapse_foot)

theorem execTestSealPathVerified_keeps {ok dt s} : KeepsRow s (execTestSealPathVerified ok dt s) := by
  unfold execTestSealPathVerified
  refine .run fun d k => ?_
  exact .ite (k.step Dev.elapse_foot) (.ite ((k.step Dev.elapse_foot).step Dev.onSealing_foot).sealFreeze (k.step Dev.elapse_foot).testEnd)

theorem execProgramLine_keeps {t addr data fetch dt s} : KeepsRow s (execProgramLine t addr data fetch dt s) := by
  unfold execProgramLine
  refine .run fun d k => ?_
  exact (k.step Dev.elapse_foot).operandWrite.operandWrite.operandWrite

theorem execEraseSector_keeps {t addr fetch purpose dt s} : KeepsRow s (execEraseSector t addr fetch purpose dt s) := by
  unfold execEraseSector
  refine .run fun d k => ?_
  exact (k.step Dev.elapse_foot).operandWrite

theorem execMarginVerify_keeps {t addr fetch dt s} : KeepsRow s (execMarginVerify t addr fetch dt s) := by
  unfold execMarginVerify
  refine .run fun d k => ?_
  exact (k.step Dev.elapse_foot).operandWrite

theorem execReadEraseCounter_keeps {t addr fetch dt s} : KeepsRow s (execReadEraseCounter t addr fetch dt s) := by
  unfold execReadEraseCounter
  refine .run fun d k => ?_
  exact (k.step Dev.elapse_foot).operandWrite

theorem execSwapBootTwin_keeps {t addr fetch dt s} : KeepsRow s (execSwapBootTwin t addr fetch dt s) := by
  unfold execSwapBootTwin
  refine .run fun d k => ?_
  exact (k.step Dev.elapse_foot).operandWrite

theorem execBlankCheck_keeps {t addr fetch dt s} : KeepsRow s (execBlankCheck t addr fetch dt s) := by
  unfold execBlankCheck
  refine .run fun d k => ?_
  exact (k.step Dev.elapse_foot).operandWrite

theorem execSlateKey_keeps {t off v fetch purpose dt s} : KeepsRow s (execSlateKey t off v fetch purpose dt s) := by
  unfold execSlateKey
  refine .run fun d k => ?_
  exact (k.step Dev.elapse_foot).slateRegWrite

theorem execThrottleStep_keeps {t dt s} : KeepsRow s (execThrottleStep t dt s) := by
  unfold execThrottleStep
  refine .run fun d k => ?_
  exact .ite (((k.step Dev.elapse_foot).step Dev.onTtile_foot).levelUpd.step Dev.thermShow_foot) (k.step Dev.elapse_foot)

theorem execThrottleFall_keeps {t dt s} : KeepsRow s (execThrottleFall t dt s) := by
  unfold execThrottleFall
  refine .run fun d k => ?_
  exact .ite (((k.step Dev.elapse_foot).step Dev.onTtile_foot).levelUpd.step Dev.thermShow_foot) (k.step Dev.elapse_foot)

theorem execFreezeEnd_keeps {t dt s} : KeepsRow s (execFreezeEnd t dt s) := by
  unfold execFreezeEnd
  refine .run fun d k => ?_
  dsimp only
  split
  · exact k.step Dev.elapse_foot
  exact .ite (k.step Dev.elapse_foot) (((k.step Dev.elapse_foot).step Dev.onTtile_foot).levelUpd.step Dev.thermUpd_foot)

theorem execThresholdLevelLeave_keeps {n k0 dt s} : KeepsRow s (execThresholdLevelLeave n k0 dt s) := by
  unfold execThresholdLevelLeave
  refine .run fun d k => ?_
  extract_lets e1
  have k1 : Kept d e1 := k.step Dev.elapse_foot
  split
  · exact .ite (((k1.step Dev.onSens_foot).step Dev.raise_foot).step Dev.thermShow_foot) k1
  · exact .ite (((k1.step Dev.onSens_foot).foldl fun _ _ kf => kf.tileHeat).step Dev.thermShow_foot) k1
  · exact .ite ((k1.step Dev.onSens_foot).step Dev.thermShow_foot) k1

theorem execThermalSample_keeps {codes dt s} : KeepsRow s (execThermalSample codes dt s) := by
  unfold execThermalSample
  refine .run fun d k => ?_
  exact .ite (k.step Dev.elapse_foot) ((((((((((k.step Dev.elapse_foot).step Dev.onTherm_foot).foldl fun _ _ kf => kf.step Dev.takeCode_foot).foldl
    fun _ _ kf => kf.step Dev.judgeSensor_foot).step Dev.substAll_foot).step Dev.learnOffsets_foot).foldl fun _ _ kf => kf.foldl fun _ _ kg => .ite
    kg.threshold kg).foldl fun _ _ kf => kf.tileHeat).step Dev.sealWorst_foot).step Dev.thermShow_foot)

theorem execSensorRecover_keeps {n dt s} : KeepsRow s (execSensorRecover n dt s) := by
  unfold execSensorRecover
  refine .run fun d k => ?_
  exact .ite ((((((k.step Dev.elapse_foot).step Dev.onSens_foot).step Dev.raise_foot).step Dev.substAll_foot).foldl fun _ _ kf => kf.tileHeat).step
    Dev.thermUpd_foot) (k.step Dev.elapse_foot)

theorem execLatticeCheckpointTimeout_keeps {dt s} : KeepsRow s (execLatticeCheckpointTimeout dt s) := by
  unfold execLatticeCheckpointTimeout
  refine .run fun d k => ?_
  dsimp only
  split
  · exact k.step Dev.elapse_foot
  exact (((k.step Dev.elapse_foot).step Dev.onLat_foot).foldl fun _ _ kf => kf.step Dev.raise_foot).step Dev.ckptEnd_foot

theorem execReplicaSend_keeps {session ue dt s} : KeepsRow s (execReplicaSend session ue dt s) := by
  unfold execReplicaSend
  refine .run fun d k => ?_
  extract_lets e1
  have k1 : Kept d e1 := k.step Dev.elapse_foot
  split
  · exact k1
  extract_lets
  split
  · exact k1
  split
  · exact (k1.step Dev.sendMarks_foot).step Dev.finalMsg_foot
  split
  · exact k1.step Dev.onStream_foot
  exact .ite (.ite (k1.step Dev.onStream_foot) ((k1.step Dev.onStream_foot).step Dev.raise_foot)) (.ite (k1.step Dev.pageTouch_foot).pageUe
    (((k1.step Dev.pageTouch_foot).pageUe.step Dev.onStream_foot).step Dev.sendPage_foot))

theorem execReplicaAck_keeps {l session op mseq status grans dt s} : KeepsRow s (execReplicaAck l session op mseq status grans dt s) := by
  unfold execReplicaAck
  refine .run fun d k => ?_
  extract_lets e1 e2 _ e3
  have k1 : Kept d e1 := (k.step Dev.elapse_foot).step Dev.rxFrames_foot
  have k2 : Kept d e2 := k1.step Dev.onStream_foot
  have k3 : Kept d e3 := .ite (k2.step Dev.resumeStream_foot) k2
  split
  · exact k1
  split
  · exact k3.pageAck
  · exact k3.step Dev.setupAnswer_foot
  · exact k3.step Dev.resumeStream_foot
  · exact k3.step Dev.onStream_foot

theorem execReplicaData_keeps {l uid session op mseq k0 o grans data n dt s} :
     KeepsRow s (execReplicaData l uid session op mseq k0 o grans data n dt s) := by
  unfold execReplicaData
  refine .run fun d k => ?_
  extract_lets e1 e2 _ e3 _ e4
  have k1 : Kept d e1 := (k.step Dev.elapse_foot).step Dev.rxFrames_foot
  have k2 : Kept d e2 := k1.step Dev.tellDirtied_foot
  have k3 : Kept d e3 := .ite (k2.step Dev.onLat_foot) k2
  have k4 : Kept d e4 := .ite (k2.step Dev.onLat_foot) k2
  split
  · exact k1
  · split
    · exact .ite (k2.step Dev.sendMsg_foot) k2.pageIn
    · exact k3.step Dev.sendMsg_foot
    · exact k4.step Dev.sendMsg_foot
    · exact k2.step Dev.sendMsg_foot
    · exact k2.step Dev.sendMsg_foot
    · exact .ite (((k2.step Dev.onInStream_foot).step Dev.submitOwn_foot).step Dev.sendMsg_foot) (.ite (k2.step Dev.sendMsg_foot) k2)
    · exact .ite (k2.step Dev.sendMsg_foot) (.ite ((k2.step Dev.onInStream_foot).step Dev.sendMsg_foot) k2)
    · exact k2.step Dev.onLat_foot
    · exact k2.step Dev.sendMsg_foot
    · exact k2
  · exact k1.step Dev.sendMsg_foot

theorem execLeadLost_keeps {dt s} : KeepsRow s (execLeadLost dt s) := by
  unfold execLeadLost
  refine .run fun d k => ?_
  exact .ite (k.step Dev.elapse_foot).leadLost (k.step Dev.elapse_foot)

theorem execTakeoverComplete_keeps {dt s} : KeepsRow s (execTakeoverComplete dt s) := by
  unfold execTakeoverComplete
  refine .run fun d k => ?_
  extract_lets e1
  have k1 : Kept d e1 := k.step Dev.elapse_foot
  split
  · exact k1
  exact .ite k1 (.ite ((((((((k1.step Dev.onPkg_foot).onExpo.step Dev.loadGauge_foot).step Dev.onQtz_foot).step Dev.onJcs_foot).foldl fun _ _ kf =>
    kf.step Dev.takeoverResp_foot).step Dev.chunkAbort_foot).step Dev.onUpd_foot).step Dev.stage2Lead_foot) ((((((((k1.step
    Dev.onPkg_foot).onExpo.step Dev.loadGauge_foot).step Dev.onQtz_foot).step Dev.onJcs_foot).foldl fun _ _ kf => kf.step
    Dev.takeoverResp_foot).step Dev.chunkAbort_foot).step Dev.onUpd_foot).step Dev.pointCheck_foot))

theorem execLossOfBothSupervisors_keeps {dt s} : KeepsRow s (execLossOfBothSupervisors dt s) := by
  unfold execLossOfBothSupervisors
  refine .run fun d k => ?_
  exact .ite (k.step Dev.elapse_foot).bothLost (k.step Dev.elapse_foot)

theorem execClockedDomainReset_keeps {dom reqs dt s} : KeepsRow s (execClockedDomainReset dom reqs dt s) := by
  unfold execClockedDomainReset
  refine .run fun d k => ?_
  exact ((k.step Dev.elapse_foot).onExpo.foldl fun _ _ kf => kf.step Dev.emit_foot).step Dev.raise_foot

theorem execFlintMessage_keeps {c n pk dt s} : KeepsRow s (execFlintMessage c n pk dt s) := by
  unfold execFlintMessage
  refine .run fun d k => ?_
  exact (k.step Dev.elapse_foot).window

theorem execSafeStateDecision_keeps {dt s} : KeepsRow s (execSafeStateDecision dt s) := by
  unfold execSafeStateDecision
  refine .run fun d k => ?_
  exact .ite (k.step Dev.elapse_foot) (.ite (k.step Dev.elapse_foot).trigger ((((k.step Dev.elapse_foot).step Dev.onPkg_foot).step
    Dev.onFlint_foot).step Dev.fltShow_foot))

theorem execActivateFirmware_keeps {selfContained dt s} : KeepsRow s (execActivateFirmware selfContained dt s) := by
  unfold execActivateFirmware
  refine .run fun d k => ?_
  exact .ite (k.step Dev.elapse_foot) (.ite ((k.step Dev.elapse_foot).step Dev.emit_foot) ((k.step Dev.elapse_foot).step Dev.emit_foot).activate)

theorem execConfirmWindowExpiry_keeps {dt s} : KeepsRow s (execConfirmWindowExpiry dt s) := by
  unfold execConfirmWindowExpiry
  refine .run fun d k => ?_
  exact .ite (((k.step Dev.elapse_foot).step Dev.onRecs_foot).step Dev.onUpd_foot).trigger (k.step Dev.elapse_foot)

theorem execBrExit_keeps {slot pec dt s} : KeepsRow s (execBrExit slot pec dt s) := by
  unfold execBrExit
  refine .run fun d k => ?_
  exact (k.step Dev.elapse_foot).brDo fun _ kf => .ite (kf.step Dev.emit_foot) (((kf.foldl fun _ _ kg => (kg.step Dev.onUrec_foot).step
    Dev.recWrite_foot).step Dev.onUpd_foot).step Dev.onPanel_foot)

theorem execBootComplete_keeps {self okA okB warmOk twinOk half torn temps geom untrained dt s} :
     KeepsRow s (execBootComplete self okA okB warmOk twinOk half torn temps geom untrained dt s) := by
  unfold execBootComplete
  refine .run fun d k => ?_
  extract_lets e1 e2 e3 e4 e5 e6 e7 e8 e9 e10 e11 e12 e13 e14 e15 e16 e17 _ e18 e19 e20
  have k1 : Kept d e1 := k.step Dev.elapse_foot
  have k2 : Kept d e2 := k1.foldl fun _ _ kf => kf.step Dev.intentScan_foot
  have k3 : Kept d e3 := k2.foldl fun _ _ kf => kf.step Dev.tornRecord_foot
  have k4 : Kept d e4 := .ite ((k3.step Dev.onSealing_foot).step Dev.sealReport_foot) k3
  have k5 : Kept d e5 := k4.step Dev.timeFloor_foot
  have k6 : Kept d e6 := k5.bootRoles
  have k7 : Kept d e7 := k6.foldl fun _ _ kf => kf.step Dev.raise_foot
  have k8 : Kept d e8 := k7.step Dev.onPanel_foot
  have k9 : Kept d e9 := by
    unfold e9
    split
    · exact (k8.step Dev.thermPend_foot).step Dev.onTherm_foot
    exact k8
  have k10 : Kept d e10 := .ite ((k9.step Dev.raise_foot).step Dev.onTherm_foot) k9
  have k11 : Kept d e11 := .ite ((k10.step Dev.raise_foot).step Dev.onSnap_foot) k10
  have k12 : Kept d e12 := .ite (k11.foldl fun _ _ kf => kf.step Dev.takeCode_foot) k11
  have k13 : Kept d e13 := k12.step Dev.onRestore_foot
  have k14 : Kept d e14 := k13.step Dev.bootSlots_foot
  have k15 : Kept d e15 := (k14.foldl fun _ _ kf => kf.step Dev.bayBoot_foot).step Dev.onEnergy_foot
  have k16 : Kept d e16 := k15.step Dev.onPanel_foot
  have k17 : Kept d e17 := (k16.step Dev.onRestore_foot).step Dev.qtzUpd_foot
  have k18 : Kept d e18 := k17.step Dev.onRestore_foot
  have k19 : Kept d e19 := k18.step Dev.onStrata_foot
  have k20 : Kept d e20 := .ite ((k19.step Dev.dramCfgUpd_foot).foldl fun _ _ kf => kf.step Dev.steerLoad_foot).warmOpen k19.toDramInit
  exact .ite k1 (.ite (k12.step Dev.tooHot_foot) (.ite k14 (k20.foldl fun _ _ kf => kf.flashChanLost)))

theorem execTileTierDecided_keeps {t scan ledgerOk badHdr half dt s} : KeepsRow s (execTileTierDecided t scan ledgerOk badHdr half dt s) := by
  unfold execTileTierDecided
  refine .run fun d k => ?_
  extract_lets e1 _ _ _ e2 e3 e4 _ _ e5 e6 e7 _ _ e8 e9
  have k1 : Kept d e1 := k.step Dev.elapse_foot
  have k2 : Kept d e2 := .ite (k1.step Dev.raise_foot) k1
  have k3 : Kept d e3 := k2.step Dev.timeFloor_foot
  have k4 : Kept d e4 := .ite (k3.step Dev.raise_foot) k3
  have k5 : Kept d e5 := .ite (k4.step Dev.formatTile_foot) k4
  have k6 : Kept d e6 := k5.step Dev.onFl_foot
  have k7 : Kept d e7 := ((k6.step Dev.halfErased_foot).step Dev.dropHeaders_foot).step Dev.rebuildLoc_foot
  have k8 : Kept d e8 := .ite k7.poisonRecords k7
  have k9 : Kept d e9 := k8.ledger
  exact .ite k1 (.ite (k1.step Dev.raise_foot) (k9.step Dev.onRestore_foot))

theorem execEarlyOpen_keeps {dt s} : KeepsRow s (execEarlyOpen dt s) := by
  unfold execEarlyOpen
  refine .run fun d k => ?_
  dsimp only
  split
  · exact (k.step Dev.elapse_foot).foldl fun _ _ kf => kf.step Dev.onHead_foot
  split
  · exact (k.step Dev.elapse_foot).step Dev.mountEnds_foot
  refine (((((((((Kept.foldl ?_ fun _ _ kf => kf.step Dev.onCtx_foot).step Dev.outageMeter_foot).step
    Dev.onCtxs_foot).readmit.resumeRings.afterSeal.step Dev.latEarlyOpen_foot).step Dev.pointCheck_foot).step Dev.resumeWindow_foot).foldl fun _ _
    kf => kf.heatApply).step Dev.bedrockEvents_foot).foldl fun _ _ kf => kf.step Dev.bayUpd_foot).recompute.step Dev.restUpd_foot
  split
  · refine (((((Kept.step ?_ Dev.poisonReport_foot).step Dev.onRestore_foot).foldl fun _ _ kf => .ite (kf.step Dev.onHead_foot) kf).onExpo.step
      Dev.onSealing_foot).step Dev.onLat_foot).ringsLost
    split
    · exact ((k.step Dev.elapse_foot).step Dev.mountEnds_foot).ledgerAll.step Dev.dirtyShutdown_foot
    exact ((k.step Dev.elapse_foot).step Dev.mountEnds_foot).ledgerAll
  refine ((((Kept.step ?_ Dev.poisonReport_foot).step Dev.onRestore_foot).foldl fun _ _ kf => .ite (kf.step Dev.onHead_foot) kf).onExpo.step
    Dev.onSealing_foot).step Dev.onLat_foot
  split
  · exact ((k.step Dev.elapse_foot).step Dev.mountEnds_foot).ledgerAll.step Dev.dirtyShutdown_foot
  exact ((k.step Dev.elapse_foot).step Dev.mountEnds_foot).ledgerAll

theorem execDemandFetchComplete_keeps {p out keyErr dt s} : KeepsRow s (execDemandFetchComplete p out keyErr dt s) := by
  unfold execDemandFetchComplete
  refine .run fun d k => ?_
  exact .ite (k.step Dev.elapse_foot) (.ite (k.step Dev.elapse_foot).fetchDone ((k.step Dev.elapse_foot).step
    Dev.onRestore_foot).restorePage.fetchRings)

theorem execBulkRestorePage_keeps {t fill out keyErr dt s} : KeepsRow s (execBulkRestorePage t fill out keyErr dt s) := by
  unfold execBulkRestorePage
  refine .run fun d k => ?_
  dsimp only
  split
  · exact k.step Dev.elapse_foot
  split
  · exact .ite (k.step Dev.elapse_foot) ((((k.step Dev.elapse_foot).step Dev.markRange_foot).step Dev.onRestore_foot).foldl fun _ _ kf =>
      kf.fetchDone).fetchRings
  split
  · exact k.step Dev.elapse_foot
  exact ((k.step Dev.elapse_foot).step Dev.onRestore_foot).restorePage.fetchRings

theorem execPackageReset_keeps {bedrock noLat smb test dt s} : KeepsRow s (execPackageReset bedrock noLat smb test dt s) := by
  unfold execPackageReset
  refine .run fun d k => ?_
  extract_lets e1 _ _ _ e2 e3 e4 _ e5 e6 e7
  have k1 : Kept d e1 := k.step Dev.elapse_foot
  have k2 : Kept d e2 := (k1.step Dev.xferUndo_foot).resetParts
  have k3 : Kept d e3 := k2.step Dev.onRestore_foot
  have k4 : Kept d e4 := k3.step Dev.onPanel_foot
  have k5 : Kept d e5 := .ite (k4.step Dev.onJcs_foot) k4
  have k6 : Kept d e6 := .ite (k5.step Dev.onRecs_foot) k5
  have k7 : Kept d e7 := k6.step Dev.restUpd_foot
  exact .ite k1 (.ite ((k7.step Dev.coreOff_foot).step Dev.onRestore_foot) (.ite (k7.step Dev.enterBedrock_foot) k7))

theorem execVauxFall_keeps {dt s} : KeepsRow s (execVauxFall dt s) := by
  unfold execVauxFall
  refine .run fun d k => ?_
  exact .ite (k.step Dev.elapse_foot) (((((((((Kept.ite ((Kept.ite (k.step Dev.elapse_foot).safeState (k.step Dev.elapse_foot)).step
    Dev.coreOff_foot) (.ite (k.step Dev.elapse_foot).safeState (k.step Dev.elapse_foot))).step Dev.onSealing_foot).step Dev.onRestore_foot).step
    Dev.onQtz_foot).step Dev.onDram_foot).step Dev.onEnergy_foot).step Dev.onTherm_foot).foldl fun _ _ kf => kf.step Dev.onBay_foot).step
    Dev.onPanel_foot)

theorem execCriticalTrip_keeps {n dt s} : KeepsRow s (execCriticalTrip n dt s) := by
  unfold execCriticalTrip
  refine .run fun d k => ?_
  exact .ite (k.step Dev.elapse_foot) ((((((k.step Dev.elapse_foot).step Dev.raise_foot).safeState.step Dev.onTherm_foot).step
    Dev.onRestore_foot).step Dev.onSealing_foot).step Dev.coreOff_foot)

theorem execHeadReset_keeps {h cause dt s} : KeepsRow s (execHeadReset h cause dt s) := by
  unfold execHeadReset
  refine .run fun d k => ?_
  extract_lets e1 _ e2 e3 e4
  have k1 : Kept d e1 := k.step Dev.elapse_foot
  have k2 : Kept d e2 := k1.onExpo
  have k3 : Kept d e3 := k2.step Dev.headClear_foot
  have k4 : Kept d e4 := .ite (k3.step Dev.onHead_foot) (.ite (k3.step Dev.onHead_foot) k3)
  exact .ite k4 ((k4.step Dev.endLeases_foot).step Dev.updLoses_foot)

theorem execModuleButtonRelease_keeps {dt s} : KeepsRow s (execModuleButtonRelease dt s) := by
  unfold execModuleButtonRelease
  refine .run fun d k => ?_
  extract_lets e1 e2
  have k1 : Kept d e1 := k.step Dev.elapse_foot
  have k2 : Kept d e2 := k1.step Dev.onPanel_foot
  split
  · exact k1.step Dev.onPanel_foot
  split
  · exact k1
  extract_lets
  exact .ite k2 (.ite (.ite (k2.step Dev.powerStart_foot) k2) (.ite (.ite k2 (.ite k2.removeAsk (k2.step Dev.refuseHold_foot))) (.ite (.ite
    (k2.step Dev.identify_foot) (k2.step Dev.hibernate_foot)) (.ite k2 (.ite (.ite ((k2.step Dev.onPanel_foot).step Dev.raise_foot).govTrigger
    (k2.step Dev.identify_foot)) (.ite (k2.step Dev.refuseHold_foot) k2.removeAsk))))))

theorem execRemovalDrainEnd_keeps {dt s} : KeepsRow s (execRemovalDrainEnd dt s) := by
  unfold execRemovalDrainEnd
  refine .run fun d k => ?_
  exact .ite (k.step Dev.elapse_foot).trigger (k.step Dev.elapse_foot)

theorem execCreate_keeps {by_ uid payload dt s} : KeepsRow s (execCreate by_ uid payload dt s) := by
  unfold execCreate
  refine .run fun d k => ?_
  exact (k.step Dev.elapse_foot).jcsDo fun _ kf => kf.createAct

theorem execAssign_keeps {by_ uid payload dt s} : KeepsRow s (execAssign by_ uid payload dt s) := by
  unfold execAssign
  refine .run fun d k => ?_
  exact (k.step Dev.elapse_foot).jcsDo fun _ kf => kf.assignAct

theorem execRelease_keeps {by_ uid payload dt s} : KeepsRow s (execRelease by_ uid payload dt s) := by
  unfold execRelease
  refine .run fun d k => ?_
  exact (k.step Dev.elapse_foot).jcsDo fun _ kf => kf.releaseAct

theorem execSetClass_keeps {by_ uid payload dt s} : KeepsRow s (execSetClass by_ uid payload dt s) := by
  unfold execSetClass
  refine .run fun d k => ?_
  exact (k.step Dev.elapse_foot).jcsDo fun _ kf => kf.classAct

theorem execSetOwner_keeps {by_ uid payload dt s} : KeepsRow s (execSetOwner by_ uid payload dt s) := by
  unfold execSetOwner
  refine .run fun d k => ?_
  exact (k.step Dev.elapse_foot).jcsDo fun _ kf => kf.ownerAct

theorem execDisable_keeps {by_ uid payload dt s} : KeepsRow s (execDisable by_ uid payload dt s) := by
  unfold execDisable
  refine .run fun d k => ?_
  exact (k.step Dev.elapse_foot).jcsDo fun _ kf => kf.disableAct

theorem execEnable_keeps {by_ uid payload dt s} : KeepsRow s (execEnable by_ uid payload dt s) := by
  unfold execEnable
  refine .run fun d k => ?_
  exact (k.step Dev.elapse_foot).jcsDo fun _ kf => kf.enableAct

theorem execSanitize_keeps {by_ uid payload dt s} : KeepsRow s (execSanitize by_ uid payload dt s) := by
  unfold execSanitize
  refine .run fun d k => ?_
  exact (k.step Dev.elapse_foot).jcsDo fun _ kf => kf.sanitizeAct

theorem execSetRetention_keeps {by_ uid payload dt s} : KeepsRow s (execSetRetention by_ uid payload dt s) := by
  unfold execSetRetention
  refine .run fun d k => ?_
  exact (k.step Dev.elapse_foot).jcsDo fun _ kf => kf.retainAct

theorem execConfigureRing_keeps {by_ uid payload dt s} : KeepsRow s (execConfigureRing by_ uid payload dt s) := by
  unfold execConfigureRing
  refine .run fun d k => ?_
  exact (k.step Dev.elapse_foot).jcsDo fun _ kf => kf.ringAct

theorem execDisableRing_keeps {by_ uid payload dt s} : KeepsRow s (execDisableRing by_ uid payload dt s) := by
  unfold execDisableRing
  refine .run fun d k => ?_
  exact (k.step Dev.elapse_foot).jcsDo fun _ kf => kf.ringOffAct

theorem execSetInterrupts_keeps {by_ uid payload dt s} : KeepsRow s (execSetInterrupts by_ uid payload dt s) := by
  unfold execSetInterrupts
  refine .run fun d k => ?_
  exact (k.step Dev.elapse_foot).jcsDo fun _ kf => kf.ringIntAct

theorem execSetExposurePolicy_keeps {by_ uid payload dt s} : KeepsRow s (execSetExposurePolicy by_ uid payload dt s) := by
  unfold execSetExposurePolicy
  refine .run fun d k => ?_
  exact (k.step Dev.elapse_foot).jcsDo fun _ kf => kf.expoPolicyAct

theorem execRequestRelease_keeps {by_ uid payload dt s} : KeepsRow s (execRequestRelease by_ uid payload dt s) := by
  unfold execRequestRelease
  refine .run fun d k => ?_
  exact (k.step Dev.elapse_foot).jcsDo fun _ kf => kf.relReqAct

theorem execInject_keeps {by_ uid payload dt s} : KeepsRow s (execInject by_ uid payload dt s) := by
  unfold execInject
  refine .run fun d k => ?_
  exact (k.step Dev.elapse_foot).jcsDo fun _ kf => kf.injectAct

theorem execControlMigration_keeps {by_ uid payload dt s} : KeepsRow s (execControlMigration by_ uid payload dt s) := by
  unfold execControlMigration
  refine .run fun d k => ?_
  exact (k.step Dev.elapse_foot).jcsDo fun _ kf => kf.ctlMigAct

theorem execLatticeCheckpoint_keeps {by_ uid payload dt s} : KeepsRow s (execLatticeCheckpoint by_ uid payload dt s) := by
  unfold execLatticeCheckpoint
  refine .run fun d k => ?_
  exact (k.step Dev.elapse_foot).jcsDo fun _ kf => kf.ckptAct

theorem execCheckpointResult_keeps {by_ uid payload dt s} : KeepsRow s (execCheckpointResult by_ uid payload dt s) := by
  unfold execCheckpointResult
  refine .run fun d k => ?_
  exact (k.step Dev.elapse_foot).jcsDo fun _ kf => kf.ckptResAct

theorem execReleaseStratum_keeps {by_ uid payload dt s} : KeepsRow s (execReleaseStratum by_ uid payload dt s) := by
  unfold execReleaseStratum
  refine .run fun d k => ?_
  exact (k.step Dev.elapse_foot).jcsDo fun _ kf => kf.strataRelAct

theorem execEnterBedrock_keeps {by_ uid payload dt s} : KeepsRow s (execEnterBedrock by_ uid payload dt s) := by
  unfold execEnterBedrock
  refine .run fun d k => ?_
  exact (k.step Dev.elapse_foot).jcsDo fun _ kf => kf.bedrockAct

theorem execInjectPoison_keeps {h dpa dt s} : KeepsRow s (execInjectPoison h dpa dt s) := by
  unfold execInjectPoison
  refine .run fun d k => ?_
  exact (k.step Dev.elapse_foot).cxlDo fun _ kf => kf.poisonCmd

theorem execClearPoison_keeps {h dpa data dt s} : KeepsRow s (execClearPoison h dpa data dt s) := by
  unfold execClearPoison
  refine .run fun d k => ?_
  exact (k.step Dev.elapse_foot).cxlDo fun _ kf => kf.poisonCmd

theorem execActivateFw_keeps {h online slot dt s} : KeepsRow s (execActivateFw h online slot dt s) := by
  unfold execActivateFw
  refine .run fun d k => ?_
  exact .ite ((k.step Dev.elapse_foot).step Dev.cxlRespond_foot) ((k.step Dev.elapse_foot).cxlDo fun _ kf => .ite (kf.step Dev.cxlRespond_foot)
    (.ite (kf.step Dev.updConflict_foot) (.ite (kf.step Dev.cxlRespond_foot) (.ite (kf.activate.step Dev.cxlRespond_foot).trigger (kf.activate.step
    Dev.cxlRespond_foot)))))

theorem execAddDcResponse_keeps {h gs dt s} : KeepsRow s (execAddDcResponse h gs dt s) := by
  unfold execAddDcResponse
  refine .run fun d k => ?_
  exact (k.step Dev.elapse_foot).cxlDo fun _ kf => .ite (kf.step Dev.cxlRespond_foot) ((kf.step Dev.onHead_foot).dcTake.step Dev.cxlRespond_foot)

theorem execReleaseDc_keeps {h gs dt s} : KeepsRow s (execReleaseDc h gs dt s) := by
  unfold execReleaseDc
  refine .run fun d k => ?_
  exact (k.step Dev.elapse_foot).cxlDo fun _ kf => .ite (kf.step Dev.cxlRespond_foot) (((kf.foldl fun _ _ kg => kg.step Dev.releaseGran_foot).step
    Dev.onHead_foot).dcTake.step Dev.cxlRespond_foot)

theorem execMailboxDoorbell_keeps {h opcode payload dt s} : KeepsRow s (execMailboxDoorbell h opcode payload dt s) := by
  unfold execMailboxDoorbell
  refine .run fun d k => ?_
  exact .ite (k.step Dev.elapse_foot) (.ite ((k.step Dev.elapse_foot).step Dev.onHead_foot) ((k.step Dev.elapse_foot).step Dev.onHead_foot).submit)

theorem execMctpRequest_keeps {eid tag opcode payload dt s} : KeepsRow s (execMctpRequest eid tag opcode payload dt s) := by
  unfold execMctpRequest
  refine .run fun d k => ?_
  exact .ite (k.step Dev.elapse_foot) (.ite ((k.step Dev.elapse_foot).step Dev.emit_foot) (.ite ((k.step Dev.elapse_foot).step Dev.respond_foot)
    ((k.step Dev.elapse_foot).step Dev.onJcs_foot).submit))

theorem execJcsRelay_keeps {l uid tag opcode payload dt s} : KeepsRow s (execJcsRelay l uid tag opcode payload dt s) := by
  unfold execJcsRelay
  refine .run fun d k => ?_
  extract_lets e1
  have k1 : Kept d e1 := (k.step Dev.elapse_foot).step Dev.rxFrames_foot
  split
  · exact k1
  · exact .ite (k1.step Dev.respond_foot) k1.submit
  · exact k1.step Dev.respond_foot

theorem execCommandDispatch_keeps {dt s} : KeepsRow s (execCommandDispatch dt s) := by
  unfold execCommandDispatch
  refine .run fun d k => ?_
  dsimp only
  split
  · exact k.step Dev.elapse_foot
  split
  · exact k.step Dev.elapse_foot
  exact .ite (k.step Dev.elapse_foot) ((((k.step Dev.elapse_foot).step Dev.onJcs_foot).jcsRun.foldl fun _ _ kf => kf.step Dev.respond_foot).step
    Dev.mirrorNow_foot)

/-- The group that is disarmed has an entry with a time since which it has been clean (R49). -/
theorem execGroupDisarm_keeps {g dt : Nat} {s : State} : KeepsRow s (execGroupDisarm g dt s) := by
  unfold execGroupDisarm
  refine .run fun d k => ?_
  extract_lets e1 due e2
  have k1 : Kept d e1 := k.step Dev.elapse_foot
  have k2 : Kept d e2 := by
    unfold e2
    split
    case isFalse => exact k1
    case isTrue hdue =>
      obtain ⟨a, ha, hcond⟩ := List.any_eq_true.mp hdue
      obtain ⟨hgroup, hclean⟩ := Bool.and_eq_true_iff.mp hcond
      have hsome : a.cleanSince ≠ none := fun hnone => by simp [hnone] at hclean
      exact (k1.disarm fun h => beq_iff_eq.mp hgroup ▸ Kept.groupDirty_of_clean h ha hsome).armFullCheck
  exact k2.earlyDisarm

/-- A mount disarms the tile's groups that have no dirty page. -/
theorem execMountCommitted_keeps {t : Fin 8} {dt : Nat} {s : State} : KeepsRow s (execMountCommitted t dt s) := by
  unfold execMountCommitted
  refine .run fun d k => ?_
  extract_lets e1 _ _ e2 e3
  have k1 : Kept d e1 := k.step Dev.elapse_foot
  have k2 : Kept d e2 := k1.ledger.ledger
  clear_value e2
  have k3 : Kept d e3 := k2.onExpo_armed fun h => by
    refine h.of_fewer (fun _ hx => hx) (fun x hx a ha hgroup => List.mem_filter.mpr ⟨ha, ?_⟩) fun _ _ a ha _ => .inl (List.mem_of_mem_filter ha)
    exact Bool.or_eq_true_iff.mpr (.inr (groupDirty_iff.mpr ⟨x, hx, hgroup.symm⟩))
  exact .ite k1 ((k3.step Dev.onRestore_foot).step Dev.mountEnds_foot)

theorem exec_keeps (i : Instr) (s : State) : KeepsRow s (exec i s) :=
  match i with
  | .cxlMemRead .. => execCxlMemRead_keeps
  | .cxlMemWrite .. => execCxlMemWrite_keeps
  | .armBatchProgram .. => execArmBatchProgram_keeps
  | .armProgramDone .. => execArmProgramDone_keeps
  | .groupDisarm .. => execGroupDisarm_keeps
  | .disarmBatchProgram .. => execDisarmBatchProgram_keeps
  | .trickleCapture .. => execTrickleCapture_keeps
  | .pageRecordDurable .. => execPageRecordDurable_keeps
  | .expoStatusUpdate .. => .of_foot execExpoStatusUpdate_foot
  | .governorRecompute .. => execGovernorRecompute_keeps
  | .eventRecompute .. => execEventRecompute_keeps
  | .writePacingDelayExpiry .. => execWritePacingDelayExpiry_keeps
  | .writeHoldExpiry .. => execWriteHoldExpiry_keeps
  | .globalPersistentFlush .. => .of_foot execGlobalPersistentFlush_foot
  | .gpfCompletion .. => .of_foot execGpfCompletion_foot
  | .heartbeat .. => .of_foot execHeartbeat_foot
  | .leadLost .. => execLeadLost_keeps
  | .takeoverComplete .. => execTakeoverComplete_keeps
  | .paceUpdate .. => .of_foot execPaceUpdate_foot
  | .powerEstimate .. => .of_foot execPowerEstimate_foot
  | .operatingPointChange .. => .of_foot execOperatingPointChange_foot
  | .operatingPointSettled .. => .of_foot execOperatingPointSettled_foot
  | .meshLinkFailed .. => .of_foot execMeshLinkFailed_foot
  | .regionTableCommit .. => execRegionTableCommit_keeps
  | .clockedDomainReset .. => execClockedDomainReset_keeps
  | .pwrFailNAssert .. => execPwrFailNAssert_keeps
  | .vinSenseLow .. => execVinSenseLow_keeps
  | .stage1Complete .. => execStage1Complete_keeps
  | .stage2MetadataVerified .. => execStage2MetadataVerified_keeps
  | .stage2Complete .. => execStage2Complete_keeps
  | .stage3Complete .. => .of_foot execStage3Complete_foot
  | .tileSealRecordWritten .. => execTileSealRecordWritten_keeps
  | .packageSealRecordWritten .. => execPackageSealRecordWritten_keeps
  | .stage5Complete .. => execStage5Complete_keeps
  | .sealStatusUpdate .. => .of_foot execSealStatusUpdate_foot
  | .energyFloorReached .. => execEnergyFloorReached_keeps
  | .sealProgramFail .. => execSealProgramFail_keeps
  | .mainsGood .. => .of_foot execMainsGood_foot
  | .resetNRelease .. => execResetNRelease_keeps
  | .forcedReset .. => execForcedReset_keeps
  | .testSealPathVerified .. => execTestSealPathVerified_keeps
  | .testSealHoldLimit .. => .of_foot execTestSealHoldLimit_foot
  | .bootComplete .. => execBootComplete_keeps
  | .dramInitComplete .. => .of_foot execDramInitComplete_foot
  | .channelTrainingDone .. => .of_foot execChannelTrainingDone_foot
  | .tileTierDecided .. => execTileTierDecided_keeps
  | .mountCrossCheck .. => .of_foot execMountCrossCheck_foot
  | .mountCommitted .. => execMountCommitted_keeps
  | .mountTimeout .. => .of_foot execMountTimeout_foot
  | .earlyOpen .. => execEarlyOpen_keeps
  | .demandFetchComplete .. => execDemandFetchComplete_keeps
  | .bulkRestorePage .. => execBulkRestorePage_keeps
  | .bulkRestoreComplete .. => .of_foot execBulkRestoreComplete_foot
  | .restoreStatusUpdate .. => .of_foot execRestoreStatusUpdate_foot
  | .locatorCheckpoint .. => .of_foot execLocatorCheckpoint_foot
  | .checkpointCommit .. => execCheckpointCommit_keeps
  | .ledgerSummary .. => execLedgerSummary_keeps
  | .backgroundErase .. => execBackgroundErase_keeps
  | .eraseDone .. => execEraseDone_keeps
  | .flashOpFail .. => execFlashOpFail_keeps
  | .garbageCollection .. => execGarbageCollection_keeps
  | .coldCompaction .. => execColdCompaction_keeps
  | .retentionRefresh .. => execRetentionRefresh_keeps
  | .wearLeveling .. => execWearLeveling_keeps
  | .budgetRecompute .. => .of_foot execBudgetRecompute_foot
  | .borrowAccountUpdate .. => .of_foot execBorrowAccountUpdate_foot
  | .strataStatusUpdate .. => execStrataStatusUpdate_keeps
  | .doorbellSq .. => execDoorbellSq_keeps
  | .doorbellCq .. => execDoorbellCq_keeps
  | .fence .. => execFence_keeps
  | .fenceComplete .. => execFenceComplete_keeps
  | .checkpoint .. => execCheckpoint_keeps
  | .checkpointStratumSet .. => .of_foot execCheckpointStratumSet_foot
  | .checkpointComplete .. => execCheckpointComplete_keeps
  | .rollback .. => execRollback_keeps
  | .rollbackSwitchCommit .. => execRollbackSwitchCommit_keeps
  | .reversalComplete .. => execReversalComplete_keeps
  | .rollbackBitmapRebuilt .. => execRollbackBitmapRebuilt_keeps
  | .exposureQuery .. => execExposureQuery_keeps
  | .meterMark .. => execMeterMark_keeps
  | .nop .. => execNop_keeps
  | .coalesceTimerExpiry .. => .of_foot execCoalesceTimerExpiry_foot
  | .quiesceComplete .. => execQuiesceComplete_keeps
  | .zeroFillComplete .. => execZeroFillComplete_keeps
  | .dcReleaseTimeout .. => execDcReleaseTimeout_keeps
  | .sanitizeStepDone .. => execSanitizeStepDone_keeps
  | .minuteBoundary .. => execMinuteBoundary_keeps
  | .meteringWrite .. => execMeteringWrite_keeps
  | .lineRepairComplete .. => execLineRepairComplete_keeps
  | .patrolScrub .. => execPatrolScrub_keeps
  | .caRetrainDone .. => execCaRetrainDone_keeps
  | .tokenRefill .. => execTokenRefill_keeps
  | .mr4Poll .. => .of_foot execMr4Poll_foot
  | .refreshDue .. => .of_foot execRefreshDue_foot
  | .gatherWindowOpen .. => .of_foot execGatherWindowOpen_foot
  | .gatherWindowClose .. => .of_foot execGatherWindowClose_foot
  | .partialTrainingDone .. => execPartialTrainingDone_keeps
  | .fspSwitchDone .. => execFspSwitchDone_keeps
  | .selfRefreshEntry .. => .of_foot execSelfRefreshEntry_foot
  | .dramChStatusUpdate .. => .of_foot execDramChStatusUpdate_foot
  | .steerRecordProgrammed .. => .of_foot execSteerRecordProgrammed_foot
  | .sweepBlockCopied .. => execSweepBlockCopied_keeps
  | .hpprDone .. => .of_foot execHpprDone_foot
  | .patternTestDone .. => .of_foot execPatternTestDone_foot
  | .gaugeSample .. => execGaugeSample_keeps
  | .packFaultCleared .. => execPackFaultCleared_keeps
  | .offsetCalibration .. => .of_foot execOffsetCalibration_foot
  | .estimatorRecompute .. => execEstimatorRecompute_keeps
  | .qualifiedRestEnd .. => .of_foot execQualifiedRestEnd_foot
  | .dcirMeasurement .. => execDcirMeasurement_keeps
  | .bridgeChargeMeasured .. => execBridgeChargeMeasured_keeps
  | .packFirstEstimate .. => execPackFirstEstimate_keeps
  | .chargeTimeout .. => execChargeTimeout_keeps
  | .capacityTestDue .. => .of_foot execCapacityTestDue_foot
  | .capacityTestStep .. => execCapacityTestStep_keeps
  | .gaugeRecordWrite .. => .of_foot execGaugeRecordWrite_foot
  | .slotAssistUpdate .. => .of_foot execSlotAssistUpdate_foot
  | .forcedRestDue .. => .of_foot execForcedRestDue_foot
  | .bayTouch .. => execBayTouch_keeps
  | .bayReleasePress .. => execBayReleasePress_keeps
  | .bayLatchOpen .. => execBayLatchOpen_keeps
  | .bayLatchClose .. => .of_foot execBayLatchClose_foot
  | .waitingTimeout .. => execWaitingTimeout_keeps
  | .grantLapse .. => execGrantLapse_keeps
  | .thermalSample .. => execThermalSample_keeps
  | .thresholdLevelLeave .. => execThresholdLevelLeave_keeps
  | .throttleStep .. => execThrottleStep_keeps
  | .throttleFall .. => execThrottleFall_keeps
  | .sensorRecover .. => execSensorRecover_keeps
  | .freezeEnd .. => execFreezeEnd_keeps
  | .coolWaitExpiry .. => .of_foot execCoolWaitExpiry_foot
  | .criticalTrip .. => execCriticalTrip_keeps
  | .thermalStatusUpdate .. => .of_foot execThermalStatusUpdate_foot
  | .flintMessage .. => execFlintMessage_keeps
  | .safeStateDecision .. => execSafeStateDecision_keeps
  | .shadowWindowClose .. => .of_foot execShadowWindowClose_foot
  | .lostMessageReport .. => .of_foot execLostMessageReport_foot
  | .eventPostRate .. => .of_foot execEventPostRate_foot
  | .flintExtractWrite .. => .of_foot execFlintExtractWrite_foot
  | .aliveToggle .. => .of_foot execAliveToggle_foot
  | .standbyCountLoad .. => .of_foot execStandbyCountLoad_foot
  | .quartzTimeRecord .. => .of_foot execQuartzTimeRecord_foot
  | .referenceLost .. => .of_foot execReferenceLost_foot
  | .referenceGood .. => .of_foot execReferenceGood_foot
  | .ppsInEdge .. => .of_foot execPpsInEdge_foot
  | .ppsTimeout .. => .of_foot execPpsTimeout_foot
  | .ppsOutEdge .. => .of_foot execPpsOutEdge_foot
  | .ppsOutFall .. => .of_foot execPpsOutFall_foot
  | .qtzNowRead .. => .of_foot execQtzNowRead_foot
  | .qtzStatusUpdate .. => .of_foot execQtzStatusUpdate_foot
  | .rootGiveWay .. => .of_foot execRootGiveWay_foot
  | .timeRootLost .. => .of_foot execTimeRootLost_foot
  | .snapInEdge .. => .of_foot execSnapInEdge_foot
  | .scheduledTriggerFire .. => .of_foot execScheduledTriggerFire_foot
  | .snapshotBankWrite .. => .of_foot execSnapshotBankWrite_foot
  | .linkTrainingAttempt .. => .of_foot execLinkTrainingAttempt_foot
  | .linkTrained .. => .of_foot execLinkTrained_foot
  | .linkSignalLoss .. => .of_foot execLinkSignalLoss_foot
  | .ack .. => .of_foot execAck_foot
  | .nak .. => .of_foot execNak_foot
  | .ackSend .. => .of_foot execAckSend_foot
  | .replayTimeout .. => .of_foot execReplayTimeout_foot
  | .creditReturn .. => .of_foot execCreditReturn_foot
  | .creditWaitDiscard .. => .of_foot execCreditWaitDiscard_foot
  | .frameForward .. => .of_foot execFrameForward_foot
  | .helloSend .. => .of_foot execHelloSend_foot
  | .hello .. => .of_foot execHello_foot
  | .helloMissing .. => .of_foot execHelloMissing_foot
  | .holdExpired .. => .of_foot execHoldExpired_foot
  | .linkStateAdvertisement .. => .of_foot execLinkStateAdvertisement_foot
  | .lsaPeriodic .. => .of_foot execLsaPeriodic_foot
  | .lsaExpiry .. => .of_foot execLsaExpiry_foot
  | .routeCompute .. => .of_foot execRouteCompute_foot
  | .nodeIdRequest .. => .of_foot execNodeIdRequest_foot
  | .nodeIdGrant .. => .of_foot execNodeIdGrant_foot
  | .timeExchangeSend .. => .of_foot execTimeExchangeSend_foot
  | .timeExchangeReq .. => .of_foot execTimeExchangeReq_foot
  | .timeExchangeAnswer .. => .of_foot execTimeExchangeAnswer_foot
  | .latticeCheckpointRequest .. => .of_foot execLatticeCheckpointRequest_foot
  | .latticeCheckpointTime .. => .of_foot execLatticeCheckpointTime_foot
  | .latticeCheckpointAnswer .. => .of_foot execLatticeCheckpointAnswer_foot
  | .latticeCheckpointTimeout .. => execLatticeCheckpointTimeout_keeps
  | .replicaSend .. => execReplicaSend_keeps
  | .replicaData .. => execReplicaData_keeps
  | .replicaAck .. => execReplicaAck_keeps
  | .sessionResend .. => .of_foot execSessionResend_foot
  | .peerUnreachable .. => .of_foot execPeerUnreachable_foot
  | .migrationFinalAck .. => .of_foot execMigrationFinalAck_foot
  | .remoteSnapshotTrigger .. => .of_foot execRemoteSnapshotTrigger_foot
  | .remoteSnapshotAnswer .. => .of_foot execRemoteSnapshotAnswer_foot
  | .remoteSnapshotTimeout .. => .of_foot execRemoteSnapshotTimeout_foot
  | .jcsRelay .. => execJcsRelay_keeps
  | .latticeStatusUpdate .. => .of_foot execLatticeStatusUpdate_foot
  | .commandDispatch .. => execCommandDispatch_keeps
  | .leaseTimeout .. => .of_foot execLeaseTimeout_foot
  | .backgroundComplete .. => .of_foot execBackgroundComplete_foot
  | .dwWriteDiscarded .. => .of_foot execDwWriteDiscarded_foot
  | .getCapabilities .. => .of_foot execGetCapabilities_foot
  | .getIdentity .. => .of_foot execGetIdentity_foot
  | .readDirectWindow .. => .of_foot execReadDirectWindow_foot
  | .getBackgroundStatus .. => .of_foot execGetBackgroundStatus_foot
  | .create .. => execCreate_keeps
  | .assign .. => execAssign_keeps
  | .release .. => execRelease_keeps
  | .setClass .. => execSetClass_keeps
  | .setOwner .. => execSetOwner_keeps
  | .disable .. => execDisable_keeps
  | .enable .. => execEnable_keeps
  | .sanitize .. => execSanitize_keeps
  | .getContext .. => .of_foot execGetContext_foot
  | .setRetention .. => execSetRetention_keeps
  | .readMetering .. => .of_foot execReadMetering_foot
  | .listContexts .. => .of_foot execListContexts_foot
  | .configureRing .. => execConfigureRing_keeps
  | .disableRing .. => execDisableRing_keeps
  | .setInterrupts .. => execSetInterrupts_keeps
  | .getRing .. => .of_foot execGetRing_foot
  | .getExposure .. => .of_foot execGetExposure_foot
  | .setExposurePolicy .. => execSetExposurePolicy_keeps
  | .getExposurePolicy .. => .of_foot execGetExposurePolicy_foot
  | .readLapseRecords .. => .of_foot execReadLapseRecords_foot
  | .getGauge .. => .of_foot execGetGauge_foot
  | .requestRelease .. => execRequestRelease_keeps
  | .setHold .. => .of_foot execSetHold_foot
  | .capacityTest .. => .of_foot execCapacityTest_foot
  | .testSeal .. => .of_foot execTestSeal_foot
  | .setEnergyPolicy .. => .of_foot execSetEnergyPolicy_foot
  | .setBayParameters .. => .of_foot execSetBayParameters_foot
  | .setBridgeParameters .. => .of_foot execSetBridgeParameters_foot
  | .loadChemistryTable .. => .of_foot execLoadChemistryTable_foot
  | .readGaugeRecords .. => .of_foot execReadGaugeRecords_foot
  | .getThermal .. => .of_foot execGetThermal_foot
  | .setThermal .. => .of_foot execSetThermal_foot
  | .setBoardThresholds .. => .of_foot execSetBoardThresholds_foot
  | .readThermalRecords .. => .of_foot execReadThermalRecords_foot
  | .readLog .. => .of_foot execReadLog_foot
  | .readFirstFault .. => .of_foot execReadFirstFault_foot
  | .acknowledge .. => .of_foot execAcknowledge_foot
  | .inject .. => execInject_keeps
  | .holdTfaultN .. => .of_foot execHoldTfaultN_foot
  | .readCounts .. => .of_foot execReadCounts_foot
  | .takeSnapshot .. => .of_foot execTakeSnapshot_foot
  | .scheduleSnapshot .. => .of_foot execScheduleSnapshot_foot
  | .latticeSnapshot .. => .of_foot execLatticeSnapshot_foot
  | .readSnapshot .. => .of_foot execReadSnapshot_foot
  | .releaseBank .. => .of_foot execReleaseBank_foot
  | .cancelScheduled .. => .of_foot execCancelScheduled_foot
  | .getTime .. => .of_foot execGetTime_foot
  | .setOffset .. => .of_foot execSetOffset_foot
  | .setTimeOptions .. => .of_foot execSetTimeOptions_foot
  | .getLattice .. => .of_foot execGetLattice_foot
  | .setLink .. => .of_foot execSetLink_foot
  | .setGrant .. => .of_foot execSetGrant_foot
  | .createReplica .. => .of_foot execCreateReplica_foot
  | .controlReplica .. => .of_foot execControlReplica_foot
  | .streamStatus .. => .of_foot execStreamStatus_foot
  | .migrate .. => .of_foot execMigrate_foot
  | .controlMigration .. => execControlMigration_keeps
  | .latticeCheckpoint .. => execLatticeCheckpoint_keeps
  | .checkpointResult .. => execCheckpointResult_keeps
  | .getRanks .. => .of_foot execGetRanks_foot
  | .readRowFaults .. => .of_foot execReadRowFaults_foot
  | .retireRank .. => .of_foot execRetireRank_foot
  | .returnRank .. => .of_foot execReturnRank_foot
  | .setDramConfiguration .. => .of_foot execSetDramConfiguration_foot
  | .getStrataStatus .. => .of_foot execGetStrataStatus_foot
  | .setLifeTarget .. => .of_foot execSetLifeTarget_foot
  | .listStrata .. => .of_foot execListStrata_foot
  | .releaseStratum .. => execReleaseStratum_keeps
  | .readDamageList .. => .of_foot execReadDamageList_foot
  | .acquire .. => .of_foot execAcquire_foot
  | .leaseRelease .. => .of_foot execLeaseRelease_foot
  | .query .. => .of_foot execQuery_foot
  | .breakLease .. => .of_foot execBreak_foot
  | .getRestoreStatus .. => .of_foot execGetRestoreStatus_foot
  | .readPoisonList .. => .of_foot execReadPoisonList_foot
  | .readSealRecords .. => .of_foot execReadSealRecords_foot
  | .getUpdateStatus .. => .of_foot execGetUpdateStatus_foot
  | .setUpdatePolicy .. => .of_foot execSetUpdatePolicy_foot
  | .confirm .. => .of_foot execConfirm_foot
  | .enterBedrock .. => execEnterBedrock_keeps
  | .identifyMemoryDevice .. => .of_foot execIdentifyMemoryDevice_foot
  | .getPartitionInfo .. => .of_foot execGetPartitionInfo_foot
  | .setPartitionInfo .. => .of_foot execSetPartitionInfo_foot
  | .getHealthInfo .. => .of_foot execGetHealthInfo_foot
  | .getAlertConfiguration .. => .of_foot execGetAlertConfiguration_foot
  | .setAlertConfiguration .. => .of_foot execSetAlertConfiguration_foot
  | .getShutdownState .. => .of_foot execGetShutdownState_foot
  | .setShutdownState .. => .of_foot execSetShutdownState_foot
  | .getPoisonList .. => .of_foot execGetPoisonList_foot
  | .injectPoison .. => execInjectPoison_keeps
  | .clearPoison .. => execClearPoison_keeps
  | .scanMedia .. => .of_foot execScanMedia_foot
  | .getEventRecords .. => .of_foot execGetEventRecords_foot
  | .clearEventRecords .. => .of_foot execClearEventRecords_foot
  | .getEventInterruptPolicy .. => .of_foot execGetEventInterruptPolicy_foot
  | .setEventInterruptPolicy .. => .of_foot execSetEventInterruptPolicy_foot
  | .getTimestamp .. => .of_foot execGetTimestamp_foot
  | .setTimestamp .. => .of_foot execSetTimestamp_foot
  | .getSupportedLogs .. => .of_foot execGetSupportedLogs_foot
  | .getLog .. => .of_foot execGetLog_foot
  | .getFwInfo .. => .of_foot execGetFwInfo_foot
  | .transferFw .. => .of_foot execTransferFw_foot
  | .activateFw .. => execActivateFw_keeps
  | .getDcConfig .. => .of_foot execGetDcConfig_foot
  | .getDcExtentList .. => .of_foot execGetDcExtentList_foot
  | .addDcResponse .. => execAddDcResponse_keeps
  | .releaseDc .. => execReleaseDc_keeps
  | .cxlSanitize .. => .of_foot execCxlSanitize_foot
  | .secureErase .. => .of_foot execSecureErase_foot
  | .getLsa .. => .of_foot execGetLsa_foot
  | .setLsa .. => .of_foot execSetLsa_foot
  | .requestUpdate .. => .of_foot execRequestUpdate_foot
  | .requestFirmwareData .. => .of_foot execRequestFirmwareData_foot
  | .activateFirmware .. => execActivateFirmware_keeps
  | .cancelUpdate .. => .of_foot execCancelUpdate_foot
  | .chunkDurable .. => .of_foot execChunkDurable_foot
  | .slotVerification .. => .of_foot execSlotVerification_foot
  | .updateIdleTimeout .. => .of_foot execUpdateIdleTimeout_foot
  | .updateConfirmation .. => .of_foot execUpdateConfirmation_foot
  | .confirmWindowExpiry .. => execConfirmWindowExpiry_keeps
  | .slateKey .. => execSlateKey_keeps
  | .programLine .. => execProgramLine_keeps
  | .eraseSector .. => execEraseSector_keeps
  | .marginVerify .. => execMarginVerify_keeps
  | .readEraseCounter .. => execReadEraseCounter_keeps
  | .swapBootTwin .. => execSwapBootTwin_keeps
  | .blankCheck .. => execBlankCheck_keeps
  | .slateSequenceTimeout .. => .of_foot execSlateSequenceTimeout_foot
  | .slateOperationDone .. => .of_foot execSlateOperationDone_foot
  | .suspend .. => .of_foot execSuspend_foot
  | .resume .. => .of_foot execResume_foot
  | .suspendHoldEnd .. => .of_foot execSuspendHoldEnd_foot
  | .suspended .. => .of_foot execSuspended_foot
  | .slateReadUnderrun .. => .of_foot execSlateReadUnderrun_foot
  | .parameterRecordWrite .. => .of_foot execParameterRecordWrite_foot
  | .eventStoreRotation .. => .of_foot execEventStoreRotation_foot
  | .slateRefresh .. => .of_foot execSlateRefresh_foot
  | .brId .. => .of_foot execBrId_foot
  | .brTiles .. => .of_foot execBrTiles_foot
  | .brAddr .. => .of_foot execBrAddr_foot
  | .brStat .. => .of_foot execBrStat_foot
  | .brRes .. => .of_foot execBrRes_foot
  | .brLine .. => .of_foot execBrLine_foot
  | .brErase .. => .of_foot execBrErase_foot
  | .brOp .. => .of_foot execBrOp_foot
  | .brData .. => .of_foot execBrData_foot
  | .brVerify .. => .of_foot execBrVerify_foot
  | .brVres .. => .of_foot execBrVres_foot
  | .brExit .. => execBrExit_keeps
  | .vauxRise .. => .of_foot execVauxRise_foot
  | .powerUp .. => .of_foot execPowerUp_foot
  | .railGood .. => .of_foot execRailGood_foot
  | .railTimeout .. => .of_foot execRailTimeout_foot
  | .powerUpRetry .. => .of_foot execPowerUpRetry_foot
  | .packageReset .. => execPackageReset_keeps
  | .vauxFall .. => execVauxFall_keeps
  | .railOutOfRange .. => .of_foot execRailOutOfRange_foot
  | .headReset .. => execHeadReset_keeps
  | .headLinkUp .. => .of_foot execHeadLinkUp_foot
  | .sidebandReset .. => .of_foot execSidebandReset_foot
  | .supervisorWatchdog .. => .of_foot execSupervisorWatchdog_foot
  | .mctpRequest .. => execMctpRequest_keeps
  | .mailboxDoorbell .. => execMailboxDoorbell_keeps
  | .moduleButtonRelease .. => execModuleButtonRelease_keeps
  | .buttonStuck .. => .of_foot execButtonStuck_foot
  | .identifyEnd .. => .of_foot execIdentifyEnd_foot
  | .touchStuck .. => execTouchStuck_keeps
  | .removalDrainEnd .. => execRemovalDrainEnd_keeps
  | .refusedHoldIndicationEnd .. => .of_foot execRefusedHoldIndicationEnd_foot
  | .bayTouchEnd .. => execBayTouchEnd_keeps
  | .headLinkDownLeaseEnd .. => .of_foot execHeadLinkDownLeaseEnd_foot
  | .refusedPressIndicationEnd .. => .of_foot execRefusedPressIndicationEnd_foot
  | .tfaultPulseEnd .. => .of_foot execTfaultPulseEnd_foot
  | .lossOfBothSupervisors .. => execLossOfBothSupervisors_keeps
  | .msixVectorUnmask .. => .of_foot execMsixVectorUnmask_foot
  | .hdmDecoderCommit .. => .of_foot execHdmDecoderCommit_foot
  | .perstNDeassert .. => .of_foot execPerstNDeassert_foot
  | .resetNAssert .. => .of_foot execResetNAssert_foot
  | .moduleButtonPress .. => .of_foot execModuleButtonPress_foot
  | .pwrFailNDeassert .. => .of_foot execPwrFailNDeassert_foot
  | .vinSenseHigh .. => .of_foot execVinSenseHigh_foot
  | .thermalRecordWrite .. => .of_foot execThermalRecordWrite_foot
  | .slateCmdWrite .. => .of_foot execSlateCmdWrite_foot

/-- A step keeps both invariants: the front command does, and so does the time that an empty queue lets pass. -/
theorem step_kept {s t : State} (h : step s = .next t) : Kept s.dev t.dev := by
  unfold step at h
  split at h
  · injection h with h
    exact h ▸ (Kept.refl s.dev).step Dev.elapse_foot
  · rename_i c r _
    obtain ⟨u, hu, hkept⟩ := exec_keeps c { s with pending := r }
    injection hu.symm.trans h with h
    exact h ▸ hkept

/-- Settles O5: no step leaves the DRAM contents out of canonical form. -/
theorem memoryStaysCanonical : Obligations.MemoryStaysCanonical :=
  fun _ _ hmem hstep => (step_kept hstep).mem hmem

/-- Settles O7: no step leaves a dirty page outside the armed groups. -/
theorem dirtyPagesLieInArmedGroups : Obligations.DirtyPagesLieInArmedGroups :=
  fun _ _ harmed hstep => (step_kept hstep).armed harmed

/-- Settles O8: the reset state has no dirty page, so nothing is to be in an armed group. -/
theorem noDirtyPageAtReset : Obligations.NoDirtyPageAtReset :=
  ⟨⟨fun _ hx => absurd hx List.not_mem_nil, fun _ hx => absurd hx List.not_mem_nil⟩, rfl, rfl⟩

end Sys2Proof.Machine
end

section
set_option Elab.async false
/-! LEMMAS. What the performing of held requests leaves of the exposure part. -/

namespace Sys2Proof.Machine

/-! ### What the performing of held requests leaves of exposure: the governor, the Cairn programs, the queued disarms, and the writes that the
governor holds -/

/-- From `d` to `e` requests are performed: the governor, the Cairn programs and the queued disarms stay, and the governor holds no further
request. -/
structure Serves (d e : Dev) : Prop where
  gov : e.expo.gov = d.expo.gov
  prog : e.expo.armProg = d.expo.armProg
  queue : e.expo.disarmQ = d.expo.disarmQ
  held : ∀ r ∈ e.expo.held, r.forGov = true → r ∈ d.expo.held

namespace Serves
variable {d e f : Dev}

theorem refl (d : Dev) : Serves d d := ⟨rfl, rfl, rfl, fun _ hr _ => hr⟩

theorem trans (h : Serves d e) (k : Serves e f) : Serves d f :=
  ⟨k.gov.trans h.gov, k.prog.trans h.prog, k.queue.trans h.queue, fun r hr hgov => h.held r (k.held r hr hgov) hgov⟩

theorem foot {S : List Part} (h : Serves d e) (k : ChangesOnly S e f) (hS : Part.expo ∉ S := by decide) : Serves d f :=
  h.trans (by
    have hexpo := k.expo_eq hS
    exact ⟨by rw [hexpo], by rw [hexpo], by rw [hexpo], fun r hr _ => by rwa [hexpo] at hr⟩)

/-- An update of other fields of the exposure part. -/
theorem onExpo {g : Expo → Expo} (h : Serves d e) (hg : ∀ x, (g x).gov = x.gov ∧ (g x).armProg = x.armProg ∧ (g x).disarmQ = x.disarmQ ∧
    (g x).held = x.held := by exact fun _ => ⟨rfl, rfl, rfl, rfl⟩) : Serves d (e.onExpo g) :=
  h.trans (by
    obtain ⟨hgov, hprog, hqueue, hheld⟩ := hg e.expo
    exact ⟨hgov, hprog, hqueue, fun r hr _ => by rwa [onExpo_expo, hheld] at hr⟩)

theorem ite {c : Prop} {_ : Decidable c} (h : Serves d e) (k : Serves d f) : Serves d (if c then e else f) := by split <;> assumption

theorem foldl {α : Type} {g : Dev → α → Dev} {l : List α} (h : Serves d e) (hg : ∀ e, ∀ a ∈ l, Serves d e → Serves d (g e a)) :
    Serves d (l.foldl g e) := by
  induction l generalizing e with
  | nil => exact h
  | cons a l ih => exact ih (hg _ _ List.mem_cons_self h) fun e b hb => hg e b (List.mem_cons_of_mem _ hb)

/-- A request that the governor does not hold waits on, for another cause. -/
theorem putBack {r : HeldReq} (h : Serves d e) (hr : r.forGov = false) : Serves d (e.onExpo fun x => { x with held := x.held ++ [r] }) :=
  h.trans ⟨rfl, rfl, rfl, fun q hq hgov => by
    rcases List.mem_append.mp hq with hq | hq
    · exact hq
    · rw [List.mem_singleton.mp hq, hr] at hgov
      cases hgov⟩

theorem requestArm {g : Nat} (h : Serves d e) : Serves d (e.requestArm g) := by
  unfold Dev.requestArm
  exact h.ite h.onExpo

theorem armFullCheck {t : Nat} (h : Serves d e) : Serves d (e.armFullCheck t) := by
  unfold Dev.armFullCheck
  exact .ite (h.ite (h.onExpo.foot Dev.raise_foot)) h.onExpo

theorem storePoison {l : Nat} (h : Serves d e) : Serves d (e.storePoison l) := h.trans ⟨rfl, rfl, rfl, fun _ hr _ => hr⟩

theorem clearPoison {l : Nat} (h : Serves d e) : Serves d (e.clearPoison l) := by
  unfold Dev.clearPoison
  exact .ite (h.trans ⟨rfl, rfl, rfl, fun _ hr _ => hr⟩) h

theorem dirtyPage {p : Nat} (h : Serves d e) : Serves d (e.dirtyPage p) := by
  unfold Dev.dirtyPage
  exact h.onExpo.ite h

theorem doWrite {l : Nat} {data : BitVec 512} {mask : BitVec 64} (h : Serves d e) : Serves d (e.doWrite l data mask) := by
  unfold Dev.doWrite
  extract_lets full cleared written
  have hcleared : Serves d cleared := h.clearPoison.ite h
  have hwritten : Serves d written := hcleared.ite (hcleared.trans ⟨rfl, rfl, rfl, fun _ hr _ => hr⟩)
  exact hwritten.dirtyPage.foot Dev.replicaMark_foot

theorem startHeld {r : HeldReq} (h : Serves d e) : Serves d (e.startHeld r) := by
  unfold Dev.startHeld
  extract_lets p asked
  have hasked : Serves d asked := .ite (h.trans ⟨rfl, rfl, rfl, fun _ hr _ => hr⟩) h
  exact hasked.requestArm.armFullCheck.ite hasked

theorem replicaDone {r : HeldReq} (h : Serves d e) : Serves d (e.replicaDone r) := by
  unfold Dev.replicaDone
  exact .ite (h.foot Dev.ackPage_foot) h.onExpo

theorem finishWrite {r : HeldReq} {clean : Bool} (h : Serves d e) : Serves d (e.finishWrite r clean) := by
  unfold Dev.finishWrite
  exact .ite (h.foot Dev.emit_foot) h.onExpo

theorem perform {r : HeldReq} (h : Serves d e) (hr : r.forGov = false) : Serves d (e.perform r) := by
  unfold Dev.perform
  extract_lets p hostWrite touched clean other written
  have htouched : Serves d touched := h.foot Dev.chanTouch_foot
  have hother : Serves d other := htouched.ite (htouched.foot Dev.otherWrite_foot)
  have hwritten : Serves d written :=
    .ite ((hother.storePoison.foot Dev.poisonEntry_foot).dirtyPage.foot Dev.replicaMark_foot) hother.doWrite
  refine .ite (h.foot Dev.refuseQuiet_foot) (.ite (h.startHeld.putBack hr) (.ite (h.putBack hr) (.ite ?write ?read)))
  case write =>
    exact .ite hwritten (.ite (hwritten.foot Dev.posted_foot) (.ite (hwritten.foot Dev.meterWrite_foot)
      (.ite (hwritten.replicaDone.ite hwritten) (hwritten.foot Dev.meterWrite_foot).finishWrite)))
  case read => exact .ite (htouched.foot Dev.emit_foot) (htouched.foot Dev.emit_foot)

theorem forGov_of_goes {r : HeldReq} (h : d.goes r = true) : r.forGov = false := by
  unfold Dev.goes HeldReq.free at h
  simp_all

/-- Only requests are performed that the governor does not hold. -/
theorem serve (h : Serves d e) : Serves d e.serve := by
  unfold Dev.serve
  refine .foldl (h.trans ⟨rfl, rfl, rfl, fun r hr _ => List.mem_of_mem_filter hr⟩) fun f r hr hf => hf.perform ?_
  exact forGov_of_goes (List.mem_filter.mp hr).2

end Serves

/-- Arming changes neither the governor, nor the Cairn programs, nor the queued disarms. -/
theorem armGroups_expo (d : Dev) (gs : List Nat) : (d.armGroups gs).expo.gov = d.expo.gov ∧
    (d.armGroups gs).expo.armProg = d.expo.armProg ∧ (d.armGroups gs).expo.disarmQ = d.expo.disarmQ := by
  unfold Dev.armGroups
  extract_lets added thawed freed due waited marked
  have hmarked : Serves waited marked := .foldl (.refl waited) fun _ _ _ h => h.dirtyPage
  have hserved := hmarked.serve.foldl (l := (thawed.map marked.groupTile).dedup) (g := Dev.armFullCheck) fun _ _ _ h => h.armFullCheck
  exact ⟨hserved.gov, hserved.prog, hserved.queue⟩

end Sys2Proof.Machine
end

section
set_option Elab.async false
/-! LEMMAS. The ledger of a tile: what a Cairn program adds to it, and that it drops nothing. -/

namespace Sys2Proof.Machine

/-! ### The ledger of a tile (R154 to R156) -/

@[simp] theorem fl_onFl (d : Dev) (t : Nat) (f : TileFlash → TileFlash) : (d.onFl t f).fl t = f (d.fl t) := tget_tmod ..
theorem fl_onFl_ne (d : Dev) {t u : Nat} (f : TileFlash → TileFlash) (h : u ≠ t) : (d.onFl t f).fl u = d.fl u := tget_tmod_ne _ _ _ _ _ h

/-- A field of a tile's flash bookkeeping that an update of any tile's keeps. -/
theorem fl_onFl_field {α : Type} {π : TileFlash → α} {f : TileFlash → TileFlash} (d : Dev) (t u : Nat)
    (hf : ∀ x, π (f x) = π x := by exact fun _ => rfl) : π ((d.onFl t f).fl u) = π (d.fl u) := by
  by_cases h : u = t
  · rw [h, fl_onFl, hf]
  · rw [fl_onFl_ne d f h]

theorem fl_congr {d e : Dev} (h : e.flash = d.flash) (t : Nat) : e.fl t = d.fl t := by rw [Dev.fl, h, Dev.fl]

theorem onBlk_ledger (d : Dev) (t n u : Nat) (f : Block → Block) : ((d.onBlk t n f).fl u).ledger = (d.fl u).ledger :=
  fl_onFl_field (π := TileFlash.ledger) d t u

theorem ledgerPage_ledger (d : Dev) (t u : Nat) : ((d.ledgerPage t).1.fl u).ledger = (d.fl u).ledger := by
  unfold Dev.ledgerPage
  extract_lets n closed ready f
  have hready : (ready.fl u).ledger = (d.fl u).ledger := by
    unfold ready
    split
    · rfl
    · exact (fl_onFl_field (π := TileFlash.ledger) ..).trans ((onBlk_ledger ..).trans (onBlk_ledger ..))
  exact (fl_onFl_field (π := TileFlash.ledger) ..).trans hready

/-- An entry is in the ledger of tile `t`, whatever its LSEQ, TIME and page. -/
def Dev.entered (d : Dev) (t : Nat) (e : LedgerEntry) : Prop :=
  ∃ lseq time page, { e with lseq := lseq, time := time, page := page } ∈ (d.fl t).ledger

theorem entered_of_ledger_subset {d e : Dev} {t : Nat} {x : LedgerEntry} (h : d.entered t x)
    (hsub : ∀ y ∈ (d.fl t).ledger, y ∈ (e.fl t).ledger) : e.entered t x :=
  let ⟨l, m, p, hmem⟩ := h
  ⟨l, m, p, hsub _ hmem⟩

theorem ledgerAdd_ledger (d : Dev) (t page : Nat) (e : LedgerEntry) : ((d.ledgerAdd t page e).fl t).ledger =
    { e with lseq := (d.fl t).nextLseq, time := if e.time = 0 then d.now else e.time, page := page } :: (d.fl t).ledger := by
  unfold Dev.ledgerAdd
  rw [fl_onFl]

theorem foldl_ledgerAdd (t page : Nat) (es : List LedgerEntry) (d : Dev) :
    (∀ y ∈ (d.fl t).ledger, y ∈ ((es.foldl (fun d e => d.ledgerAdd t page e) d).fl t).ledger) ∧
    ∀ e ∈ es, (es.foldl (fun d e => d.ledgerAdd t page e) d).entered t e := by
  induction es generalizing d with
  | nil => exact ⟨fun _ h => h, fun _ h => absurd h List.not_mem_nil⟩
  | cons e es ih =>
    obtain ⟨hkeep, hadd⟩ := ih (d.ledgerAdd t page e)
    rw [ledgerAdd_ledger] at hkeep
    refine ⟨fun y hy => hkeep y (List.mem_cons_of_mem _ hy), fun x hx => ?_⟩
    rcases List.mem_cons.mp hx with rfl | hx
    · exact ⟨_, _, _, hkeep _ List.mem_cons_self⟩
    · exact hadd x hx

theorem cairnPut_keeps_ledger (d : Dev) (t : Nat) (es : List LedgerEntry) : ∀ y ∈ (d.fl t).ledger, y ∈ ((d.cairnPut t es).fl t).ledger := by
  rw [← ledgerPage_ledger d t t]
  exact (foldl_ledgerAdd t _ es _).1

theorem cairnPut_entered (d : Dev) (t : Nat) (es : List LedgerEntry) : ∀ e ∈ es, (d.cairnPut t es).entered t e := (foldl_ledgerAdd t _ es _).2

/-- After its ledger page, which carries intents and disarms besides, a Cairn program only marks blocks and takes those from their queues. -/
theorem cairn_ledger (d : Dev) (t : Nat) (es : List LedgerEntry) : ∃ more, (∀ x ∈ more, x.typ = 4 ∨ x.typ = 2) ∧
    ((d.cairn t es).fl t).ledger = ((d.cairnPut t (es ++ more)).fl t).ledger := by
  unfold Dev.cairn
  extract_lets room ints dis put marked taken
  refine ⟨(ints.map fun b => { typ := 4, a := b, b := bit (d.blk t b).tlc }) ++ dis.map fun g => { typ := 2, a := g }, fun x hx => ?_, ?_⟩
  · rcases List.mem_append.mp hx with hx | hx
    · obtain ⟨_, _, rfl⟩ := List.mem_map.mp hx
      exact .inl rfl
    · obtain ⟨_, _, rfl⟩ := List.mem_map.mp hx
      exact .inr rfl
  · have hmarked : (marked.fl t).ledger = (put.fl t).ledger :=
      foldl_keeps (π := fun d : Dev => (d.fl t).ledger) (fun d b _ => onBlk_ledger d t b t _) _
    rw [← List.append_assoc]
    exact ((congrArg TileFlash.ledger (fl_congr (d := taken) rfl t)).trans (fl_onFl_field (π := TileFlash.ledger) marked t t)).trans hmarked

theorem cairn_keeps_ledger (d : Dev) (t : Nat) (es : List LedgerEntry) : ∀ y ∈ (d.fl t).ledger, y ∈ ((d.cairn t es).fl t).ledger := by
  obtain ⟨more, -, hmore⟩ := cairn_ledger d t es
  rw [hmore]
  exact cairnPut_keeps_ledger d t _

/-! ### The latest entry of a type -/

theorem foldl_ledgerAdd_lastEntry {t page typ : Nat} (es : List LedgerEntry) (hes : ∀ e ∈ es, e.typ ≠ typ) (d : Dev) :
    (es.foldl (fun d e => d.ledgerAdd t page e) d).lastEntry t (fun x => x.typ == typ) = d.lastEntry t fun x => x.typ == typ := by
  induction es generalizing d with
  | nil => rfl
  | cons e es ih =>
    rw [List.foldl_cons, ih (fun x hx => hes x (List.mem_cons_of_mem _ hx)), Dev.lastEntry, ledgerAdd_ledger,
      List.find?_cons_of_neg (by simp [hes e List.mem_cons_self]), Dev.lastEntry]

/-- The first entry of a ledger page is the latest of its type where the rest of the page has none. -/
theorem cairnPut_lastEntry (d : Dev) (t : Nat) (e : LedgerEntry) {more : List LedgerEntry} (hother : ∀ x ∈ more, x.typ ≠ e.typ) :
    ∃ lseq time page, (d.cairnPut t (e :: more)).lastEntry t (fun x => x.typ == e.typ) =
      some { e with lseq := lseq, time := time, page := page } ∧ (e.time ≠ 0 → time = e.time) := by
  have hput := foldl_ledgerAdd_lastEntry (t := t) (page := (d.ledgerPage t).2) more hother ((d.ledgerPage t).1.ledgerAdd t (d.ledgerPage t).2 e)
  have hadd : ((d.ledgerPage t).1.ledgerAdd t (d.ledgerPage t).2 e).lastEntry t (fun x => x.typ == e.typ) = some { e with
      lseq := ((d.ledgerPage t).1.fl t).nextLseq, time := if e.time = 0 then (d.ledgerPage t).1.now else e.time, page := (d.ledgerPage t).2 } := by
    rw [Dev.lastEntry, ledgerAdd_ledger, List.find?_cons_of_pos (by simp)]
  exact ⟨_, _, _, hput.trans hadd, fun htime => if_neg htime⟩

/-- An entry that is neither an intent nor a disarm is the latest of its type after its program. -/
theorem cairn_lastEntry (d : Dev) (t : Nat) (e : LedgerEntry) (h4 : e.typ ≠ 4) (h2 : e.typ ≠ 2) :
    ∃ lseq time page, (d.cairn t [e]).lastEntry t (fun x => x.typ == e.typ) = some { e with lseq := lseq, time := time, page := page } ∧
      (e.time ≠ 0 → time = e.time) := by
  obtain ⟨more, hmore, hledger⟩ := cairn_ledger d t [e]
  have hother : ∀ x ∈ more, x.typ ≠ e.typ := fun x hx heq => (hmore x hx).elim (fun h => h4 (heq ▸ h)) fun h => h2 (heq ▸ h)
  obtain ⟨lseq, time, page, hlast, htime⟩ := cairnPut_lastEntry d t e hother
  exact ⟨lseq, time, page, (congrArg (List.find? _) hledger).trans hlast, htime⟩

end Sys2Proof.Machine
end

section
set_option Elab.async false
/-! LEMMAS. The ceiling and the states of the governor (chapter 02). -/

namespace Sys2Proof.Machine

/-- The policy bound in pages, as R77 words it: the field, or host-visible capacity where the field is higher. -/
theorem Dev.policyPages_eq (d : Dev) :
    d.policyPages = if d.expo.policy.boundGib ≤ 8 * d.hostGib then d.expo.policy.boundGib * 262144 else 8 * d.hostGib * 262144 := by
  unfold Dev.policyPages
  split
  · rw [Nat.min_eq_left ‹_›]
  · rw [Nat.min_eq_right (by omega)]

theorem Dev.ceilings_c (d : Dev) (excl : List Nat) : (d.ceilings excl).c =
    if d.expo.policy.windowEn then min (min (min (d.ceilings excl).cE (d.ceilings excl).cL) (d.ceilings excl).cT) (d.ceilings excl).cP
    else min (min (d.ceilings excl).cE (d.ceilings excl).cL) (d.ceilings excl).cP := by
  rw [Nat.min_right_comm]
  rfl

theorem Dev.ceilings_bound (d : Dev) (excl : List Nat) : (d.ceilings excl).bound =
    if (d.ceilings excl).c = (d.ceilings excl).cE then 0 else if (d.ceilings excl).c = (d.ceilings excl).cL then 1
    else if d.expo.policy.windowEn = true ∧ (d.ceilings excl).c = (d.ceilings excl).cT then 2 else 3 := rfl

/-- Settles O16: the ceiling is the minimum that it is defined as, and BOUND tries the bounds in the order of R59. Where it names policy, the
ceiling equals none of the others, and as their minimum it can only be the policy bound. -/
theorem ceilingIsLeastBound : Obligations.CeilingIsLeastBound := by
  intro d c
  have hc : c.c = _ := d.ceilings_c []
  have hbound : c.bound = _ := d.ceilings_bound []
  refine ⟨d.policyPages_eq, hc, ?_⟩
  change c.c = if d.expo.policy.windowEn then min (min (min c.cE c.cL) c.cT) c.cP else min (min c.cE c.cL) c.cP at hc
  change c.bound = if c.c = c.cE then 0 else if c.c = c.cL then 1 else if d.expo.policy.windowEn = true ∧ c.c = c.cT then 2 else 3 at hbound
  clear_value c
  cases hw : d.expo.policy.windowEn
  case false =>
    simp only [hw, Bool.false_eq_true, if_false, false_and, and_false, false_imp_iff, and_true, iff_false] at hc hbound ⊢
    split_ifs at hbound <;> omega
  case true =>
    simp only [hw, if_true, true_and, true_imp_iff] at hc hbound ⊢
    split_ifs at hbound <;> omega

/-- Settles O17: the branches of `Dev.nextState`, the first of them for either breach. -/
theorem governorStateTable : Obligations.GovernorStateTable := by
  intro d t
  unfold Dev.nextState
  refine ⟨fun hbreach => ?_, fun hpkg hall htile => ?_⟩
  · rcases hbreach with h | h <;> simp [h]
  · simp [hpkg, hall, htile]
end Sys2Proof.Machine
end

section
set_option Elab.async false
/-! LEMMAS. The armed set and the Cairn programs (chapter 02). -/

namespace Sys2Proof.Machine

/-- A row whose device, in the case at hand, is `e`. -/
theorem Runs.of_dev {i : Instr} {s : State} {r : Res} {f : Dev → Dev} {S T : List Part} {P : Dev → Prop} {e : Dev}
    (hfoot : ∃ t, r = .next t ∧ t.pending = s.pending ∧ ChangesOnly T s.dev t.dev) (hT : ∀ p ∈ T, p ∈ S)
    (hexec : exec i s = r) (hrun : r = s.run f) (hdev : f s.dev = e) (hP : P e) : Runs i s S P :=
  .of_foot hfoot hT hexec hrun (hdev ▸ hP)

/-! ### Disarms (R49) -/

/-- From `d` to `e` groups are only disarmed: none is armed, no queued disarm is dropped, and the Cairn programs and the dirty pages stay. -/
structure Disarms (d e : Dev) : Prop where
  armed : ∀ a ∈ e.expo.armed, a ∈ d.expo.armed
  queue : ∀ q ∈ d.expo.disarmQ, q ∈ e.expo.disarmQ
  prog : e.expo.armProg = d.expo.armProg
  dirty : e.expo.dirty = d.expo.dirty

theorem Disarms.refl (d : Dev) : Disarms d d := ⟨fun _ h => h, fun _ h => h, rfl, rfl⟩

theorem Disarms.trans {d e f : Dev} (h : Disarms d e) (k : Disarms e f) : Disarms d f :=
  ⟨fun a ha => h.armed a (k.armed a ha), fun q hq => k.queue q (h.queue q hq), k.prog.trans h.prog, k.dirty.trans h.dirty⟩

theorem disarm_disarms (d : Dev) (g : Nat) : Disarms d (d.disarm g) := by
  unfold Dev.disarm
  split
  · exact ⟨fun _ ha => List.mem_of_mem_filter ha, fun _ hq => List.mem_append_left _ hq, rfl, rfl⟩
  · exact .refl d

theorem earlyDisarm_disarms (d : Dev) (t n : Nat) : Disarms d (d.earlyDisarm t n) := by
  induction n generalizing d with
  | zero => exact .refl d
  | succ n ih =>
    unfold Dev.earlyDisarm
    split
    · exact .refl d
    · split
      · exact (disarm_disarms d _).trans (ih _)
      · exact .refl d

theorem Disarms.of_same {d e : Dev} (harmed : e.expo.armed = d.expo.armed) (hqueue : e.expo.disarmQ = d.expo.disarmQ)
    (hprog : e.expo.armProg = d.expo.armProg) (hdirty : e.expo.dirty = d.expo.dirty) : Disarms d e :=
  ⟨fun _ ha => harmed ▸ ha, fun _ hq => hqueue ▸ hq, hprog, hdirty⟩

theorem armFullCheck_disarms (d : Dev) (t : Nat) : Disarms d (d.armFullCheck t) := by
  unfold Dev.armFullCheck
  split
  · split
    · exact .refl d
    · have hraise (e : Dev) : (e.raise 811 0x13 2 (tile := some t)).expo = e.expo := Dev.raise_foot.expo_eq (by decide)
      exact .of_same (by rw [hraise]; rfl) (by rw [hraise]; rfl) (by rw [hraise]; rfl) (by rw [hraise]; rfl)
  · exact .of_same rfl rfl rfl rfl

/-- A group disarmed is out of the armed set, and its disarm record is queued. -/
theorem disarm_effect {d : Dev} {g : Nat} (h : d.isArmed g = true) : (d.disarm g).isArmed g = false ∧ (g, d.now) ∈ (d.disarm g).expo.disarmQ := by
  unfold Dev.disarm
  rw [if_pos h]
  refine ⟨?_, List.mem_append_right _ List.mem_cons_self⟩
  unfold Dev.isArmed
  simp

theorem Disarms.isArmed {d e : Dev} (h : Disarms d e) {g : Nat} (hg : d.isArmed g = false) : e.isArmed g = false := by
  unfold Dev.isArmed at *
  rw [List.any_eq_false] at *
  exact fun a ha => hg a (h.armed a ha)

/-! ### A Cairn program ends (R48) -/

theorem cairn_armProg (d : Dev) (t : Nat) (es : List LedgerEntry) : (d.cairn t es).expo.armProg = d.expo.armProg := by
  unfold Dev.cairn
  extract_lets room ints dis put marked taken
  have hput : put.expo = d.expo := Dev.cairnPut_foot.expo_eq (by decide)
  have hmarked : marked.expo = put.expo := foldl_keeps (π := Dev.expo) (fun d b _ => show (d.onBlk t b _).expo = d.expo from rfl) _
  exact (congrArg Expo.armProg (hmarked.trans hput) :)


theorem armGroups_fl (d : Dev) (gs : List Nat) (t : Nat) : (d.armGroups gs).fl t = d.fl t :=
  fl_congr (Dev.armGroups_foot.same .flash (by decide)).symm t

theorem armDone_effect {d : Dev} {t : Nat} {p : ArmProg} (h : tget d.expo.armProg none t = some p) :
    tget (d.armDone t).expo.armProg none t = none ∧ ∀ g ∈ p.arms, ∃ b, (d.armDone t).entered t { typ := 1, a := g, b := b } := by
  unfold Dev.armDone
  split
  case h_1 hnone => exact absurd (h.symm.trans hnone) (by simp)
  case h_2 q hq =>
    obtain rfl : p = q := Option.some.inj (h.symm.trans hq)
    extract_lets ctxOf put ended intents armed
    have hintents : intents.expo.armProg = ended.expo.armProg ∧ ∀ y ∈ (ended.fl t).ledger, y ∈ (intents.fl t).ledger := by
      unfold intents
      split
      · exact ⟨rfl, fun _ hy => hy⟩
      · exact ⟨cairn_armProg .., cairn_keeps_ledger ended t []⟩
    have hprog : (armed.earlyDisarm t 1048576).expo.armProg = ended.expo.armProg :=
      (earlyDisarm_disarms armed t _).prog.trans ((armGroups_expo intents p.arms).2.1.trans hintents.1)
    have hledger : (armed.earlyDisarm t 1048576).fl t = intents.fl t :=
      (fl_congr (Dev.earlyDisarm_foot.same .flash (by decide)).symm t).trans (armGroups_fl intents p.arms t)
    refine ⟨?_, fun g hg => ⟨ctxOf g, ?_⟩⟩
    · rw [hprog]
      exact tget_tset _ _ _ _ _ rfl
    · have hput : put.entered t { typ := 1, a := g, b := ctxOf g } :=
        cairnPut_entered d t _ _ (List.mem_append_right _ (List.mem_map_of_mem hg))
      exact entered_of_ledger_subset hput fun y hy => hledger ▸ hintents.2 y hy

/-- Settles O14: the running program of a tile, its ledger and the queue of disarms, row by row. -/
theorem armingRows : Obligations.ArmingRows := by
  refine ⟨fun s t dt hidle hreq hroom hiso => ?_, fun s t dt p hp => ?_, fun s g dt x t0 hx hg hclean hold => ?_,
    fun s t dt q hidle hq ht hold => ?_⟩
  · have hrun : ((tget s.dev.expo.armProg none t.val).isNone && !((s.dev.armReqs t.val).take (s.dev.armRoom t.val)).isEmpty
        && !(s.dev.tile t.val).isolated) = true := by
      simp [hidle, hiso, hreq, hroom]
    refine .of_dev execArmBatchProgram_foot (by decide) rfl rfl (if_pos hrun) ?_
    exact ⟨_, tget_tset _ _ _ _ _ rfl, rfl, (List.length_take_le _ _).trans (Nat.min_le_left _ _), rfl⟩
  · refine .of_foot execArmProgramDone_foot (by decide) rfl rfl ?_
    obtain ⟨hprog, hledger⟩ := armDone_effect (d := s.dev.elapse dt) hp
    refine ⟨hprog, fun g hg => ?_⟩
    obtain ⟨b, lseq, time, page, hmem⟩ := hledger g hg
    exact ⟨_, hmem, rfl, rfl⟩
  · have hdue : ((s.dev.elapse dt).expo.armed.any fun x => x.group == g && (match x.cleanSince with
        | some t => decide (600000000000 ≤ (s.dev.elapse dt).since t)
        | none => false)) = true := List.any_eq_true.mpr ⟨x, hx, by simp [hg, hclean, hold]⟩
    obtain ⟨hout, hqueued⟩ := disarm_effect (d := s.dev.elapse dt) (isArmed_iff.mpr ⟨x, hx, hg⟩)
    refine .of_dev execGroupDisarm_foot (by decide) rfl rfl (congrArg (fun e : Dev => e.earlyDisarm (e.groupTile g) 1048576) (if_pos hdue)) ?_
    have hlater (t : Nat) := (armFullCheck_disarms ((s.dev.elapse dt).disarm g) ((s.dev.elapse dt).groupTile g)).trans
      (earlyDisarm_disarms _ t 1048576)
    exact ⟨(hlater _).isArmed hout, (hlater _).queue _ hqueued⟩
  · have hrun : ((tget s.dev.expo.armProg none t.val).isNone && (s.dev.expo.disarmQ.any fun q => s.dev.groupTile q.1 == t.val
        && decide (1000000000 ≤ (s.dev.elapse dt).since q.2))) = true := by
      rw [hidle]
      exact List.any_eq_true.mpr ⟨q, hq, by simp [ht, hold]⟩
    refine .of_dev execDisarmBatchProgram_foot (by decide) rfl rfl (if_pos hrun) ?_
    exact ⟨_, tget_tset _ _ _ _ _ rfl, rfl, rfl⟩

end Sys2Proof.Machine
end

section
set_option Elab.async false
/-! LEMMAS. The governor rows: registers, recomputations, pacing, held writes and flushes (chapter 02). -/

namespace Sys2Proof.Machine

/-! ### The exposure registers (R46) -/

@[simp] theorem dwGet_dwSet (d : Dev) (off v dflt : Nat) : (d.dwSet off v).dwGet off dflt = v % 2 ^ 64 := by
  unfold Dev.dwSet Dev.dwGet
  rw [onDw_dw, tget_tset _ _ _ _ _ rfl, BitVec.toNat_ofNat]

theorem dwGet_dwSet_ne (d : Dev) {off off' : Nat} (v dflt : Nat) (h : off' ≠ off) : (d.dwSet off v).dwGet off' dflt = d.dwGet off' dflt := by
  unfold Dev.dwSet Dev.dwGet
  rw [onDw_dw, tget_tset_ne _ _ _ _ _ h]

theorem expoTileUpd_dwGet (d : Dev) {off : Nat} (t dflt : Nat) (h : off < 0x540) : (d.expoTileUpd t).dwGet off dflt = d.dwGet off dflt :=
  dwGet_dwSet_ne _ _ _ (by omega)

theorem expoUpd_dwGet (d : Dev) {off : Nat} (dflt : Nat) (h : off < 0x540) : d.expoUpd.dwGet off dflt = d.expoPkgUpd.dwGet off dflt :=
  foldl_keeps (π := fun d : Dev => d.dwGet off dflt) (fun d t _ => expoTileUpd_dwGet d t dflt h) _

theorem expoUpd_registers (d : Dev) : bits (d.expoUpd.dwGet 0x500 0) 0 34 = d.xPkg % 2 ^ 34 ∧
    bits (d.expoUpd.dwGet 0x508 0) 0 34 = d.expo.gov.ceiling % 2 ^ 34 := by
  rw [expoUpd_dwGet d 0 (by decide), expoUpd_dwGet d 0 (by decide)]
  unfold Dev.expoPkgUpd
  extract_lets g seq pend v
  rw [dwGet_dwSet, dwGet_dwSet_ne _ _ _ (by decide), dwGet_dwSet]
  have hg : g.ceiling = d.expo.gov.ceiling := rfl
  unfold v bits put
  omega

theorem xPkg_congr {d e : Dev} (hexpo : e.expo.dirty = d.expo.dirty) (hdram : e.dram = d.dram) (htiles : e.pkg.tiles = d.pkg.tiles) :
    e.xPkg = d.xPkg := by
  unfold Dev.xPkg Dev.pageTile Dev.tileOf Dev.grainLog Dev.tile
  rw [hexpo, hdram, htiles]

/-- The registers after a sample of the meters, of a device `d` that differs from `e` in other parts. -/
theorem sampled_registers {d e : Dev} (hexpo : e.expo = d.expo) (hdram : e.dram = d.dram) (htiles : e.pkg.tiles = d.pkg.tiles) :
    bits (e.meterSample.expoUpd.dwGet 0x500 0) 0 34 = d.xPkg % 2 ^ 34 ∧
    bits (e.meterSample.expoUpd.dwGet 0x508 0) 0 34 = d.expo.gov.ceiling % 2 ^ 34 := by
  have hmeter : ChangesOnly [.ctxs] e e.meterSample := Dev.meterSample_foot
  have hsame : e.meterSample.expo = d.expo := (hmeter.expo_eq (by decide)).trans hexpo
  have hx : e.meterSample.xPkg = d.xPkg :=
    xPkg_congr (by rw [hsame]) ((hmeter.same .dram (by decide)).symm.trans hdram) (by rw [hmeter.pkg_eq (by decide), htiles])
  rw [← hx, ← hsame]
  exact expoUpd_registers _

/-! ### A recomputation (R52, R61) -/

theorem grantWaiting_of_none (d : Dev) (h0 : (d.bay 0).state ≠ 3) (h1 : (d.bay 1).state ≠ 3) : d.grantWaiting = d := by
  simp [Dev.grantWaiting, h0, h1]

theorem takeCeil_ceiling (d : Dev) : d.takeCeil.expo.gov.ceiling = (d.ceilings []).c := rfl

theorem ceiling_of_foot {S : List Part} {d e : Dev} (h : ChangesOnly S d e) (hS : Part.expo ∉ S := by decide) :
    e.expo.gov.ceiling = d.expo.gov.ceiling := by
  rw [h.expo_eq hS]

theorem lapseEnter_ceiling (d : Dev) : d.lapseEnter.expo.gov.ceiling = d.expo.gov.ceiling := by
  unfold Dev.lapseEnter
  exact (ceiling_of_foot Dev.raise_foot).trans rfl

theorem lapseExit_ceiling (d : Dev) : d.lapseExit.expo.gov.ceiling = d.expo.gov.ceiling := by
  unfold Dev.lapseExit
  exact (ceiling_of_foot Dev.raise_foot).trans rfl

theorem stateEvent_ceiling (d : Dev) (changed : Bool) : (d.stateEvent changed).expo.gov.ceiling = d.expo.gov.ceiling := by
  unfold Dev.stateEvent
  extract_lets due free
  split
  · exact (ceiling_of_foot Dev.raise_foot).trans rfl
  · split <;> rfl

theorem evalStates_ceiling (d : Dev) : d.evalStates.expo.gov.ceiling = d.expo.gov.ceiling := by
  unfold Dev.evalStates
  extract_lets prev prevT ts pk told lapsed tracked event
  have htold : told.expo.gov.ceiling = d.expo.gov.ceiling := rfl
  clear_value told
  have hlapsed : lapsed.expo.gov.ceiling = told.expo.gov.ceiling := by
    unfold lapsed
    split
    · exact (ceiling_of_foot Dev.abandonRest_foot).trans (lapseEnter_ceiling told)
    · split
      · exact (ceiling_of_foot Dev.restAgain_foot).trans (lapseExit_ceiling told)
      · rfl
  clear_value lapsed
  have htracked : tracked.expo.gov.ceiling = lapsed.expo.gov.ceiling := by
    unfold tracked
    split <;> rfl
  clear_value tracked
  have hevent : event.expo.gov.ceiling = d.expo.gov.ceiling := by
    unfold event
    rw [stateEvent_ceiling, htracked, hlapsed, htold]
  split
  · exact (ceiling_of_foot Dev.expoUpd_foot).trans hevent
  · exact hevent

/-- A recomputation puts the ceiling of R52 in force and consumes the triggers. -/
theorem recompute_gov (d : Dev) (h0 : (d.bay 0).state ≠ 3) (h1 : (d.bay 1).state ≠ 3) :
    d.recompute.expo.gov.ceiling = (d.ceilings []).c ∧ d.recompute.expo.gov.triggers = [] := by
  unfold Dev.recompute
  rw [grantWaiting_of_none d h0 h1]
  exact ⟨(evalStates_ceiling d.takeCeil).trans (takeCeil_ceiling d), rfl⟩

/-- The held writes that a recomputation then lets go leave the governor as it is. -/
theorem recompute_serve_gov (d : Dev) (h0 : (d.bay 0).state ≠ 3) (h1 : (d.bay 1).state ≠ 3) :
    d.recompute.serve.expo.gov.ceiling = (d.ceilings []).c ∧ d.recompute.serve.expo.gov.triggers = [] := by
  rw [(Serves.refl d.recompute).serve.gov]
  exact recompute_gov d h0 h1

/-! ### Held writes and paced completions (R66, R68) -/

theorem pacedDone_expo (d : Dev) (p : Paced) : (d.pacedDone p).expo = d.expo := Dev.pacedDone_foot.expo_eq (by decide)

/-- Paced writes, none of them an acknowledgement, complete in order. -/
theorem foldl_pacedDone_out {l : List Paced} (hl : ∀ p ∈ l, p.ack = false) (d : Dev) :
    (l.foldl Dev.pacedDone d).out = (l.map fun p => Out.memWrite p.head p.id).reverse ++ d.out := by
  induction l generalizing d with
  | nil => rfl
  | cons p l ih =>
    have hp : d.pacedDone p = d.emit (.memWrite p.head p.id) := by
      unfold Dev.pacedDone
      simp [hl p List.mem_cons_self]
    rw [List.foldl_cons, hp, ih fun q hq => hl q (List.mem_cons_of_mem _ hq)]
    simp [Dev.emit]

theorem foldl_onHead_expo {α : Type} (h : Dev → α → Nat) (f : HeadSt → HeadSt) (l : List α) (d : Dev) :
    (l.foldl (fun d a => d.onHead (h d a) f) d).expo = d.expo := by
  induction l generalizing d with
  | nil => rfl
  | cons a l ih => exact ih _

/-- A held write as WRITE_HOLD_EXPIRY leaves it: the governor lets one go that has waited 500 µs. -/
theorem not_forGov_of_waited {hit : HeldReq → Bool} {l : List HeldReq} {r : HeldReq}
    (hr : r ∈ l.map fun q => if hit q then { q with forGov := false } else q) (hgov : r.forGov = true) : r ∈ l ∧ hit r = false := by
  obtain ⟨q, hq, rfl⟩ := List.mem_map.mp hr
  split at hgov
  · cases hgov
  · rename_i hhit
    rw [if_neg hhit]
    exact ⟨hq, Bool.eq_false_iff.mpr hhit⟩

/-- Settles O15: each row's effect, and that the requests it then lets go leave the governor alone. -/
theorem governorRows : Obligations.GovernorRows := by
  refine ⟨fun s dt hdue => ?_, fun s dt hrole h0 h1 => ?_, fun s dt hrole htrig h0 h1 => ?_, fun s dt hacks => ?_, fun s dt => ?_, fun s dt => ?_,
    fun s h dt hseal => ?_, fun s h dt hseal htest => ?_, fun s h dt x r hgpf => ?_⟩
  · refine .of_dev execExpoStatusUpdate_foot (by decide) rfl rfl (if_pos hdue) ?_
    exact sampled_registers rfl rfl rfl
  · refine .of_dev execGovernorRecompute_foot (by decide) rfl rfl (if_pos hrole) ?_
    rw [Dev.mirrorNow_foot.expo_eq (by decide), Dev.heldEvent_foot.expo_eq (by decide), Dev.heldEvent_foot.expo_eq (by decide)]
    exact recompute_serve_gov (s.dev.elapse dt) h0 h1
  · have hrun : (s.dev.roleRuns && !s.dev.expo.gov.triggers.isEmpty) = true := by simp [hrole, htrig]
    refine .of_dev execEventRecompute_foot (by decide) rfl rfl (if_pos hrun) ?_
    rw [Dev.mirrorNow_foot.expo_eq (by decide)]
    exact recompute_serve_gov (s.dev.elapse dt) h0 h1
  · refine .of_foot execWritePacingDelayExpiry_foot (by decide) rfl rfl ?_
    refine ⟨congrArg Expo.paced (foldl_keeps (π := Dev.expo) (fun d p _ => pacedDone_expo d p) _), ?_⟩
    exact foldl_pacedDone_out (fun p hp => hacks p (List.mem_of_mem_filter hp)) _
  · refine .of_foot execWritePacingDelayExpiry_foot (by decide) rfl rfl ?_
    exact congrArg Expo.paced (foldl_keeps (π := Dev.expo) (fun d p _ => pacedDone_expo d p) _)
  · refine .of_foot execWriteHoldExpiry_foot (by decide) rfl rfl ?_
    intro r hr hgov
    rw [Dev.heldEvent_foot.expo_eq (by decide), Dev.heldEvent_foot.expo_eq (by decide)] at hr
    have hheld := (Serves.refl _).serve.held r hr hgov
    rw [foldl_onHead_expo] at hheld
    obtain ⟨-, hhit⟩ := not_forGov_of_waited hheld hgov
    simpa [hgov] using hhit
  · have hrun : ¬ ((s.dev.elapse dt).sealing.active = true ∧ (!(s.dev.elapse dt).sealing.test) = true) := by simp [hseal]
    refine .of_dev execGlobalPersistentFlush_foot (by decide) rfl rfl (if_neg hrun) ?_
    rw [head_onHead]
    rfl
  · have hrun : (s.dev.elapse dt).sealing.active = true ∧ (!(s.dev.elapse dt).sealing.test) = true := by simp [hseal, htest]
    exact .of_dev execGlobalPersistentFlush_foot (by decide) rfl rfl (if_pos hrun) rfl
  · refine .of_foot execGpfCompletion_foot (by decide) rfl rfl ?_
    have hgpf' : ((s.dev.elapse dt).head h.val).gpf = x :: r := hgpf
    dsimp only
    rw [hgpf']
    exact ⟨congrArg HeadSt.gpf (head_onHead (s.dev.elapse dt) h.val fun y => { y with gpf := r }), rfl⟩

end Sys2Proof.Machine
end

section
set_option Elab.async false
/-! LEMMAS. Trickle capture and the durable page record (chapters 02, 05). -/

namespace Sys2Proof.Machine

/-! ### What flash programs leave of exposure: everything but the queued disarms -/

/-- The exposure part but for the queued disarms, which any ledger program may carry. -/
def Dev.offQueue (d : Dev) : Expo := { d.expo with disarmQ := [] }

theorem ChangesOnly.offQueue_eq {S : List Part} {d e : Dev} (h : ChangesOnly S d e) (hS : Part.expo ∉ S := by decide) :
    e.offQueue = d.offQueue := by
  unfold Dev.offQueue
  rw [h.expo_eq hS]

theorem cairn_offQueue (d : Dev) (t : Nat) (es : List LedgerEntry) : (d.cairn t es).offQueue = d.offQueue := by
  unfold Dev.cairn
  extract_lets room ints dis put marked taken
  have hput : put.offQueue = d.offQueue := Dev.cairnPut_foot.offQueue_eq
  have hmarked : marked.offQueue = put.offQueue :=
    foldl_keeps (π := Dev.offQueue) (fun d b _ => show (d.onBlk t b _).offQueue = d.offQueue from rfl) _
  exact (hmarked.trans hput :)

theorem openFor_offQueue (d : Dev) (t k : Nat) : (d.openFor t k).offQueue = d.offQueue := by
  unfold Dev.openFor
  split
  · rfl
  · extract_lets closed opened zoned
    have hopened : opened.offQueue = d.offQueue := (cairn_offQueue ..).trans rfl
    have hzoned : zoned.offQueue = opened.offQueue := by
      unfold zoned
      split <;> rfl
    exact (hzoned.trans hopened :)

theorem takePage_offQueue (d : Dev) (t k : Nat) : (d.takePage t k).1.offQueue = d.offQueue := by
  unfold Dev.takePage
  split
  · exact Dev.landPage_foot.offQueue_eq
  · extract_lets opened f
    have hopened : opened.offQueue = d.offQueue := by
      unfold opened
      split
      · exact openFor_offQueue d t k
      · rfl
    split
    · exact hopened
    · exact hopened

theorem drawSlot_offQueue (d : Dev) (t k : Nat) (el : Bool) : (d.drawSlot t k el).1.offQueue = d.offQueue := by
  unfold Dev.drawSlot
  extract_lets s zoned counted closed page
  have hpage : page.1.offQueue = d.offQueue := takePage_offQueue d t k
  have hzoned : zoned.offQueue = d.offQueue := by
    unfold zoned
    split
    · exact Dev.zoneUse_foot.offQueue_eq
    · rfl
  have hclosed : closed.offQueue = d.offQueue := by
    unfold closed
    split
    · exact Dev.putMetas_foot.offQueue_eq.trans hzoned
    · exact hzoned
  clear_value closed page
  split
  · split
    · exact hclosed
    · split
      · exact hpage
      · exact (Dev.zoneUse_foot.offQueue_eq (d := page.1)).trans hpage
  · split
    · exact Dev.zoneUse_foot.offQueue_eq (d := d)
    · split
      · exact hpage
      · exact (Dev.zoneUse_foot.offQueue_eq (d := page.1)).trans hpage

theorem drawSlot_inflight (d : Dev) (t k : Nat) (el : Bool) : (d.drawSlot t k el).1.expo.inflight = d.expo.inflight :=
  (congrArg Expo.inflight (drawSlot_offQueue d t k el) :)

theorem drawSlot_dirty (d : Dev) (t k : Nat) (el : Bool) : (d.drawSlot t k el).1.expo.dirty = d.expo.dirty :=
  (congrArg Expo.dirty (drawSlot_offQueue d t k el) :)

/-! ### Captures in flight (R139, R145) -/

/-- A capture but for its mark that its NAND page was issued. -/
def InFlight.capture (f : InFlight) : InFlight := { f with issued := false }

theorem closePages_expo (d : Dev) (t a : Nat) : ((d.closePage t 0 a).closePage t 4 a).expo = d.expo :=
  (Dev.closePage_foot.expo_eq (by decide)).trans (Dev.closePage_foot.expo_eq (by decide))

theorem issue_captures (d : Dev) (t a : Nat) : (d.issue t a).expo.inflight.map InFlight.capture = d.expo.inflight.map InFlight.capture := by
  unfold Dev.issue
  extract_lets closed
  have hclosed : closed.expo = d.expo := closePages_expo d t a
  rw [onExpo_expo, hclosed]
  simp only [List.map_map]
  refine List.map_congr_left fun f _ => ?_
  simp only [Function.comp_apply]
  split <;> rfl

theorem issue_dirty (d : Dev) (t a : Nat) : (d.issue t a).expo.dirty = d.expo.dirty := by
  unfold Dev.issue
  exact (congrArg Expo.dirty (closePages_expo d t a) :)

/-- The entry that a capture puts in the in-flight table, but for the slot that it draws. -/
theorem capture_inflight {d : Dev} {t p : Nat} {atSeal fence : Bool}
    (hslot : (d.drawSlot t (if atSeal then 4 else 0) (uniform (Mem.slice d.mem (pageBase p) 4096) (pageBase p))).2 ≠ none) :
    ∃ f : InFlight, (d.capture t p atSeal fence).expo.inflight.map InFlight.capture = (d.expo.inflight ++ [f]).map InFlight.capture ∧
      f.page = p ∧ f.img = Mem.slice d.mem (pageBase p) 4096 ∧ f.rewrite = false ∧ f.atSeal = atSeal := by
  unfold Dev.capture
  extract_lets k img el v mask x
  have hx : x.1.expo.inflight = d.expo.inflight := by
    unfold x
    exact drawSlot_inflight d t k el
  split
  case h_1 hnone => exact absurd hnone hslot
  case h_2 a ha =>
    clear ha hslot
    clear_value x
    extract_lets f entered s
    have hentered : entered.expo.inflight = d.expo.inflight ++ [f] := congrArg (· ++ [f]) hx
    have heither (c : Prop) [Decidable c] (n : Nat) : (if c then entered.issue t n else entered).expo.inflight.map InFlight.capture =
        (d.expo.inflight ++ [f]).map InFlight.capture := by
      rw [← hentered]
      split
      · exact issue_captures entered t n
      · rfl
    exact ⟨f, heither _ _, rfl, rfl, rfl, rfl⟩

theorem capture_dirty (d : Dev) (t p : Nat) (atSeal fence : Bool) : (d.capture t p atSeal fence).expo.dirty = d.expo.dirty := by
  unfold Dev.capture
  extract_lets k img el v mask x
  have hx : x.1.expo.dirty = d.expo.dirty := by
    unfold x
    exact drawSlot_dirty d t k el
  clear_value x
  split
  · exact hx
  · extract_lets f entered s
    have heither (c : Prop) [Decidable c] (n : Nat) : (if c then entered.issue t n else entered).expo.dirty = d.expo.dirty := by
      split
      · exact (issue_dirty entered t n).trans hx
      · exact hx
    exact heither _ _

theorem stream_onFlow (d : Dev) (t k : Nat) (f : FlashStream → FlashStream) : (d.onFlow t k f).stream t k = f (d.stream t k) := by
  unfold Dev.onFlow Dev.stream
  rw [fl_onFl, tget_tmod]

/-- A stream's new block has every page left. -/
theorem openFor_left {d : Dev} {t : Nat} (h : d.leastWorn t (d.dataDies t) ≠ none) : ((d.openFor t 0).stream t 0).left = d.strata.slcPages := by
  unfold Dev.openFor
  split
  case h_1 hnone => exact absurd hnone h
  case h_2 n _ =>
    extract_lets closed opened zoned
    have hzoned : zoned.strata = d.strata := (Dev.ledger_foot.strata_eq (by decide) : opened.strata = _)
    rw [stream_onFlow]
    exact congrArg Strata.slcPages hzoned

/-- The trickle stream has a slot to draw: its block has a page left, or an erased block stands by. -/
theorem drawSlot_isSome {d : Dev} {t : Nat} (el : Bool)
    (h : (d.stream t 0).left ≠ 0 ∨ (d.leastWorn t (d.dataDies t) ≠ none ∧ d.strata.slcPages ≠ 0)) : (d.drawSlot t 0 el).2 ≠ none := by
  have hopened : (d.stream t 0).left = 0 → ((d.openFor t 0).stream t 0).left ≠ 0 := by
    intro hleft
    obtain ⟨hworn, hpages⟩ := h.resolve_left (fun hne => hne hleft)
    rw [openFor_left hworn]
    exact hpages
  have hpage : (d.takePage t 0).2 ≠ none := by
    unfold Dev.takePage
    rw [if_neg (by decide)]
    extract_lets opened f
    have hf : f.left ≠ 0 := by
      unfold f opened
      split
      · exact hopened ‹_›
      · assumption
    rw [if_neg hf]
    exact Option.some_ne_none _
  unfold Dev.drawSlot
  extract_lets s zoned counted closed page
  obtain ⟨a, ha⟩ := Option.ne_none_iff_exists'.mp hpage
  have hpage' : page.2 = some a := ha
  split
  · split
    · exact Option.some_ne_none _
    · rw [hpage']
      exact Option.some_ne_none _
  · split
    · exact Option.some_ne_none _
    · rw [hpage']
      exact Option.some_ne_none _

theorem leastWorn_congr {d e : Dev} {t : Nat} (hblocks : (e.fl t).blocks = (d.fl t).blocks) (hresv : (e.fl t).resv = (d.fl t).resv)
    (hled : (e.fl t).ledBlock = (d.fl t).ledBlock) (hstrata : e.strata = d.strata) (dies : List Nat) : e.leastWorn t dies = d.leastWorn t dies := by
  unfold Dev.leastWorn Dev.dieBlocks
  simp only [hblocks, hresv, hled, hstrata]

/-- The flash bookkeeping of a tile but for the times from which its rate lets work go on. -/
def TileFlash.offRate (f : TileFlash) : TileFlash := { f with budgetDue := 0, capDue := 0 }

theorem onFl_offRate (d : Dev) (t : Nat) (g h : TileFlash → Nat) :
    ((d.onFl t fun f => { f with budgetDue := g f, capDue := h f }).fl t).offRate = (d.fl t).offRate := by
  rw [fl_onFl]
  rfl

theorem capUse_offRate (d : Dev) (t bytes : Nat) : ((d.capUse t bytes).fl t).offRate = (d.fl t).offRate := by
  unfold Dev.capUse
  split
  · rfl
  · exact onFl_offRate d t (fun f => f.budgetDue) _

theorem rateUse_offRate (d : Dev) (t : Nat) (el : Bool) : ((d.rateUse t el).fl t).offRate = (d.fl t).offRate := by
  unfold Dev.rateUse
  extract_lets r due
  exact (capUse_offRate ..).trans (onFl_offRate d t (fun _ => due) fun f => f.capDue)

/-- Whether the trickle stream has a slot does not depend on the rate, nor on parts other than flash and Strata. -/
theorem slot_of_offRate {d e : Dev} {t : Nat} (hfl : (e.fl t).offRate = (d.fl t).offRate) (hstrata : e.strata = d.strata)
    (h : (d.stream t 0).left ≠ 0 ∨ (d.leastWorn t (d.dataDies t) ≠ none ∧ d.strata.slcPages ≠ 0)) :
    (e.stream t 0).left ≠ 0 ∨ (e.leastWorn t (e.dataDies t) ≠ none ∧ e.strata.slcPages ≠ 0) := by
  have hstreams : (e.fl t).streams = (d.fl t).streams := (congrArg TileFlash.streams hfl :)
  have hdies : (e.fl t).diesRetired = (d.fl t).diesRetired := (congrArg TileFlash.diesRetired hfl :)
  have hworn := leastWorn_congr ((congrArg TileFlash.blocks hfl :)) ((congrArg TileFlash.resv hfl :)) ((congrArg TileFlash.ledBlock hfl :)) hstrata
  unfold Dev.stream Dev.dataDies at *
  rwa [hstreams, hworn, hdies, hstrata]

/-- The capture of a page at hand: it enters the in-flight table with its present contents. -/
theorem trickle_capture {d e : Dev} {t p : Nat} {el fence : Bool} (hmem : e.mem = d.mem) (hexpo : e.expo = d.expo) (hflash : e.flash = d.flash)
    (hstrata : e.strata = d.strata)
    (hslot : (d.stream t 0).left ≠ 0 ∨ (d.leastWorn t (d.dataDies t) ≠ none ∧ d.strata.slcPages ≠ 0)) :
    ∃ f ∈ (((e.rateUse t el).capture t p false fence).flashServed t 1).expo.inflight,
      (((e.rateUse t el).capture t p false fence).flashServed t 1).expo.inflight.map (fun f => f.page) =
        d.expo.inflight.map (fun f => f.page) ++ [p] ∧
      f.page = p ∧ f.img = Mem.slice d.mem (pageBase p) 4096 ∧ f.rewrite = false ∧ f.atSeal = false := by
  have hrate : ChangesOnly [.flash] e (e.rateUse t el) := Dev.rateUse_foot
  have hfl : ((e.rateUse t el).fl t).offRate = (d.fl t).offRate := (rateUse_offRate e t el).trans (congrArg TileFlash.offRate (fl_congr hflash t))
  have hsome := drawSlot_isSome (uniform (Mem.slice (e.rateUse t el).mem (pageBase p) 4096) (pageBase p))
    (slot_of_offRate hfl ((hrate.strata_eq (by decide)).trans hstrata) hslot)
  obtain ⟨f, hcap, hpage, himg, hrewrite, hseal⟩ := capture_inflight (atSeal := false) (fence := fence) hsome
  rw [hrate.mem_eq (by decide), hmem] at himg
  rw [hrate.expo_eq (by decide), hexpo] at hcap
  generalize (e.rateUse t el).capture t p false fence = captured at hcap ⊢
  have hserved : (captured.flashServed t 1).expo = captured.expo := rfl
  rw [hserved]
  obtain ⟨f', hf', hsame⟩ : ∃ f' ∈ captured.expo.inflight, f'.capture = f.capture := by
    have hin : f.capture ∈ captured.expo.inflight.map InFlight.capture := by
      rw [hcap]
      exact List.mem_map_of_mem (List.mem_append_right _ List.mem_cons_self)
    exact List.mem_map.mp hin
  refine ⟨f', hf', ?_, ?_, ?_, ?_, ?_⟩
  · have hpages := congrArg (List.map InFlight.page) hcap
    simpa only [List.map_map, List.map_append, List.map_cons, List.map_nil, hpage, Function.comp_def, InFlight.capture] using hpages
  · exact (congrArg InFlight.page hsame).trans hpage
  · exact (congrArg InFlight.img hsame).trans himg
  · exact (congrArg InFlight.rewrite hsame).trans hrewrite
  · exact (congrArg InFlight.atSeal hsame).trans hseal

/-- A key at hand is only noted as the latest used. -/
theorem useKey_of_good (d : Dev) (t c : Nat) : d.useKey t c 0 = d.onCtxs fun x =>
    { x with keyCache := tset x.keyCache t ((c :: (tget d.ctxs.keyCache [] t).filter fun k => k != c).take 1024) } := by
  unfold Dev.useKey
  extract_lets l noted
  split
  · rfl
  · exact if_neg fun h => absurd h.1 (by decide)

/-! ### A page record becomes durable (R42, R137) -/

/-- What decides whether a capture's record counts: the Region Table and the trims. -/
def Dev.trimView (d : Dev) : Tbl Granule × List TrimRec := (d.ctxs.rt, d.strata.trims)

theorem ChangesOnly.trimView_eq {S : List Part} {d e : Dev} (h : ChangesOnly S d e) (hS : Part.ctxs ∉ S ∧ Part.strata ∉ S := by decide) :
    e.trimView = d.trimView := by
  unfold Dev.trimView
  rw [h.ctxs_eq hS.1, h.strata_eq hS.2]

theorem persistent_of_trimView {d e : Dev} (h : e.trimView = d.trimView) (p : Nat) : e.persistent p = d.persistent p := by
  have hrt : e.ctxs.rt = d.ctxs.rt := (congrArg Prod.fst h :)
  unfold Dev.persistent Dev.pageCls Dev.pageEntry Dev.gran
  rw [hrt]

theorem notTrimmed_of_trimView {d e : Dev} (h : e.trimView = d.trimView) (t : Nat) (f : InFlight) :
    e.notTrimmed (e.recOf t f) = d.notTrimmed (d.recOf t f) := by
  have hrt : e.ctxs.rt = d.ctxs.rt := (congrArg Prod.fst h :)
  have htrims : e.strata.trims = d.strata.trims := (congrArg Prod.snd h :)
  unfold Dev.notTrimmed Dev.recOf Dev.pageCtx Dev.pageEntry Dev.gran
  rw [hrt, htrims]

/-- The record of a capture counts: its page is in a persistent region that was not trimmed since. -/
def Dev.counts (d : Dev) (t : Nat) (f : InFlight) : Bool := d.persistent f.page && d.notTrimmed (d.recOf t f)

/-- A capture's record, where it counts, enters Strata and takes its page out of exposure unless it was rewritten. -/
theorem recordDone_effect (d : Dev) (t : Nat) (f : InFlight) : (d.recordDone t f).trimView = d.trimView ∧
    (d.recordDone t f).strata.recs = (if d.counts t f then d.recOf t f :: d.strata.recs else d.strata.recs) ∧
    (d.recordDone t f).expo.dirty = (if d.counts t f && !f.rewrite then d.expo.dirty.filter fun x => !(x.page == f.page) else d.expo.dirty) := by
  unfold Dev.recordDone
  extract_lets dropped r put cleaned fenced
  have hcounts : d.counts t f = (dropped.persistent f.page && dropped.notTrimmed r) := rfl
  split
  · rename_i hnot
    have hno : d.counts t f = false := by rw [hcounts]; rcases hnot with h | h <;> simp_all
    simp only [hno, Bool.false_and, Bool.false_eq_true, if_false]
    exact ⟨rfl, rfl, rfl⟩
  · rename_i hyes
    have hcount : d.counts t f = true := by rw [hcounts]; simp_all
    have hcleaned : cleaned.trimView = d.trimView ∧ cleaned.strata.recs = d.recOf t f :: d.strata.recs ∧
        cleaned.expo.dirty = if !f.rewrite then d.expo.dirty.filter fun x => !(x.page == f.page) else d.expo.dirty := by
      unfold cleaned
      cases f.rewrite <;> exact ⟨rfl, rfl, rfl⟩
    simp only [hcount, Bool.true_and, if_true]
    split
    · exact hcleaned
    · exact hcleaned

theorem counts_of_trimView {d e : Dev} (h : e.trimView = d.trimView) (t : Nat) (f : InFlight) : e.counts t f = d.counts t f := by
  unfold Dev.counts
  rw [persistent_of_trimView h, notTrimmed_of_trimView h]

/-- One record's effect on whether a page is dirty. -/
theorem recordDone_isDirty {d : Dev} {t p : Nat} {f : InFlight} {rw_ : Bool} (hf : f.page = p → d.counts t f = true ∧ f.rewrite = rw_) :
    (d.recordDone t f).isDirty p = ((if f.page == p then rw_ else true) && d.isDirty p) := by
  obtain ⟨-, -, hdirty⟩ := recordDone_effect d t f
  unfold Dev.isDirty
  rw [hdirty]
  by_cases hp : f.page = p
  · obtain ⟨hcount, hrewrite⟩ := hf hp
    cases rw_ <;> simp [hcount, hrewrite, hp]
  · have hkept : (d.expo.dirty.filter fun x => !(x.page == f.page)).any (fun x => x.page == p) = d.expo.dirty.any fun x => x.page == p := by
      rw [List.any_filter]
      refine congrArg _ (funext fun x => ?_)
      by_cases hx : x.page = p
      · simp [hx, Ne.symm hp]
      · simp [hx]
    simp only [beq_eq_false_iff_ne.mpr hp, Bool.false_eq_true, if_false, Bool.true_and]
    split
    · exact hkept
    · rfl

/-- The records of a NAND page's captures, one of them of page `p`, of which all captures among them agree on the rewrite flag. -/
theorem foldl_recordDone_effect {t p : Nat} {rw_ : Bool} (l : List InFlight) (d : Dev)
    (hl : ∀ f ∈ l, f.page = p → d.counts t f = true ∧ f.rewrite = rw_) :
    (∀ r ∈ d.strata.recs, r ∈ (l.foldl (fun d f => d.recordDone t f) d).strata.recs) ∧
    (∀ f ∈ l, f.page = p → ∃ r ∈ (l.foldl (fun d f => d.recordDone t f) d).strata.recs,
      r.page = p ∧ r.vseq = f.vseq ∧ r.img = f.img) ∧
    (l.foldl (fun d f => d.recordDone t f) d).isDirty p = ((if l.any fun f => f.page == p then rw_ else true) && d.isDirty p) := by
  induction l generalizing d with
  | nil => exact ⟨fun _ h => h, fun _ h => absurd h List.not_mem_nil, by simp⟩
  | cons f l ih =>
    obtain ⟨hview, hrecs, hdirty⟩ := recordDone_effect d t f
    obtain ⟨hkeep, hput, hleft⟩ := ih (d.recordDone t f) fun g hg hgp => by
      rw [counts_of_trimView hview]
      exact hl g (List.mem_cons_of_mem _ hg) hgp
    have hgrow : ∀ r ∈ d.strata.recs, r ∈ (d.recordDone t f).strata.recs := by
      intro r hr
      rw [hrecs]
      split
      · exact List.mem_cons_of_mem _ hr
      · exact hr
    refine ⟨fun r hr => hkeep r (hgrow r hr), fun g hg hgp => ?_, ?_⟩
    · rcases List.mem_cons.mp hg with rfl | hg
      · obtain ⟨hcount, -⟩ := hl g List.mem_cons_self hgp
        rw [if_pos hcount] at hrecs
        exact ⟨d.recOf t g, hkeep _ (hrecs ▸ List.mem_cons_self), hgp, rfl, rfl⟩
      · exact hput g hg hgp
    · rw [List.foldl_cons, hleft, recordDone_isDirty (hl f List.mem_cons_self), List.any_cons]
      cases f.page == p <;> cases l.any fun f => f.page == p <;> simp

/-- The NAND page of the capture `f` ends: it is issued, and the records of its captures are durable. -/
def Dev.pageDurable (d : Dev) (t : Nat) (f : InFlight) : Dev :=
  ((d.issue t (npOf f.addr)).expo.inflight.filter ((d.issue t (npOf f.addr)).inPage t (npOf f.addr))).foldl (fun d f => d.recordDone t f)
    (d.issue t (npOf f.addr))

theorem capture_counts {d : Dev} {t : Nat} {f g : InFlight} (h : g.capture = f.capture) : d.counts t g = d.counts t f := by
  have hpage : g.page = f.page := (congrArg InFlight.page h :)
  have htime : g.time = f.time := (congrArg InFlight.time h :)
  unfold Dev.counts Dev.notTrimmed Dev.recOf
  rw [hpage, htime]

theorem pageTile_congr {d e : Dev} (h : e.dram = d.dram) (p : Nat) : e.pageTile p = d.pageTile p := by
  unfold Dev.pageTile Dev.tileOf Dev.grainLog
  rw [h]

theorem pageDurable_effect {d : Dev} {t : Nat} {f : InFlight} (hf : f ∈ d.expo.inflight) (ht : d.pageTile f.page = t) (hcount : d.counts t f = true)
    (huniq : ∀ g ∈ d.expo.inflight, g.page = f.page → g = f) :
    (∃ r ∈ (d.pageDurable t f).strata.recs, r.page = f.page ∧ r.vseq = f.vseq ∧ r.img = f.img) ∧
      (d.pageDurable t f).isDirty f.page = (f.rewrite && d.isDirty f.page) := by
  have hissue : ChangesOnly [.expo, .flash] d (d.issue t (npOf f.addr)) := Dev.issue_foot
  have hcaptures := issue_captures d t (npOf f.addr)
  have hdirty := issue_dirty d t (npOf f.addr)
  unfold Dev.pageDurable
  generalize d.issue t (npOf f.addr) = i at hissue hcaptures hdirty ⊢
  have hsame : ∀ g ∈ i.expo.inflight, g.page = f.page → g.capture = f.capture := by
    intro g hg hpage
    have hin : g.capture ∈ d.expo.inflight.map InFlight.capture := hcaptures ▸ List.mem_map_of_mem hg
    obtain ⟨g', hg', hgg⟩ := List.mem_map.mp hin
    have hpage' : g'.page = f.page := (congrArg InFlight.page hgg :).trans hpage
    rw [← hgg, huniq g' hg' hpage']
  obtain ⟨f', hf', hff⟩ : ∃ f' ∈ i.expo.inflight, f'.capture = f.capture := List.mem_map.mp (hcaptures ▸ List.mem_map_of_mem hf)
  have hpage : f'.page = f.page := (congrArg InFlight.page hff :)
  have hin : f' ∈ i.expo.inflight.filter (i.inPage t (npOf f.addr)) := by
    have haddr : f'.addr = f.addr := (congrArg InFlight.addr hff :)
    have htile : i.pageTile f'.page = t := by rw [hpage, ← ht, pageTile_congr (hissue.same .dram (by decide)).symm]
    refine List.mem_filter.mpr ⟨hf', ?_⟩
    unfold Dev.inPage
    rw [haddr, htile, beq_self_eq_true, beq_self_eq_true, Bool.and_self]
  obtain ⟨-, hput, hleft⟩ := foldl_recordDone_effect (t := t) (rw_ := f.rewrite) (i.expo.inflight.filter (i.inPage t (npOf f.addr))) i
    fun g hg hgp => by
      have hg := hsame g (List.mem_of_mem_filter hg) hgp
      exact ⟨(counts_of_trimView hissue.trimView_eq t g).trans ((capture_counts hg).trans hcount), (congrArg InFlight.rewrite hg :)⟩
  refine ⟨?_, hleft.trans ?_⟩
  · obtain ⟨r, hr, hrp, hrv, hri⟩ := hput f' hin hpage
    exact ⟨r, hr, hrp, hrv.trans (congrArg InFlight.vseq hff :), hri.trans (congrArg InFlight.img hff :)⟩
  · rw [if_pos (List.any_eq_true.mpr ⟨f', hin, by simp [hpage]⟩), Dev.isDirty, hdirty, Dev.isDirty]

/-! ### What follows in a seal (R86, R97) -/

theorem stagePages_dirty (d : Dev) (t n : Nat) : (d.stagePages t n).expo.dirty = d.expo.dirty := by
  induction n generalizing d with
  | zero => rfl
  | succ n ih =>
    unfold Dev.stagePages
    split
    · rfl
    · split
      · rfl
      · exact (ih _).trans (capture_dirty ..)

theorem landNext_dirty (d : Dev) (t : Nat) : (d.landNext t).expo.dirty = d.expo.dirty := by
  unfold Dev.landNext
  split
  · rfl
  · extract_lets staged x
    have hstaged : staged.expo.dirty = d.expo.dirty := by
      unfold staged
      split
      · exact issue_dirty ..
      · exact stagePages_dirty ..
    have hx : x.1.expo.dirty = staged.expo.dirty := drawSlot_dirty ..
    clear_value x staged
    split
    · exact hstaged
    · split
      · exact (issue_dirty ..).trans hstaged
      · split
        · split
          · exact hx.trans hstaged
          · exact hstaged
        · exact hstaged

theorem landUe_nil (d : Dev) (t : Nat) : d.landUe t [] = d := rfl

/-- The early disarms and the next landing keep Strata and the dirty pages. -/
theorem landNext_after_disarms (d : Dev) (t : Nat) :
    (((d.earlyDisarm t 1048576).armFullCheck t).landNext t).strata = d.strata ∧
    (((d.earlyDisarm t 1048576).armFullCheck t).landNext t).expo.dirty = d.expo.dirty := by
  constructor
  · exact (Dev.landNext_foot.strata_eq (by decide)).trans ((Dev.armFullCheck_foot.strata_eq (by decide)).trans
      (Dev.earlyDisarm_foot.strata_eq (by decide)))
  · exact (landNext_dirty ..).trans ((earlyDisarm_disarms d t _).trans (armFullCheck_disarms _ t)).dirty

/-- Settles O18: the capture by way of its slot, its record by way of the fold over the captures of its NAND page. -/
theorem trickleRows : Obligations.TrickleRows := by
  refine ⟨fun s t dt x fence c hmay hpick hrate hturn hslot hctx hkey => ?_, fun s t dt f hheld hiso hfind hpers htrim hstop huniq => ?_⟩
  · let used : Dev := ((s.dev.elapse dt).useKey t.val c 0).pageTouch x.page false
    have hc : (s.dev.elapse dt).pageCtx x.page = some c := hctx
    have hk : (((s.dev.elapse dt).useKey t.val c 0).ctx c).keyLost = false := by
      rw [useKey_of_good]
      exact hkey
    refine .of_dev execTrickleCapture_foot (by decide) rfl rfl
      (e := ((used.rateUse t.val (uniform used.mem (pageBase x.page))).capture t.val x.page false fence).flashServed t.val 1) ?_ ?_
    · simp only [hmay, hrate, hpick, hturn, hc, hk, Bool.and_self, if_true, Bool.not_true, Bool.false_eq_true, if_false, Option.getD_some]
      rfl
    have htouch : ChangesOnly [.dram, .dw] ((s.dev.elapse dt).useKey t.val c 0) used := Dev.pageTouch_foot
    have hused : ChangesOnly [.ctxs, .dram, .qtz, .dw] s.dev used := by
      refine htouch.step (by decide) ?_
      rw [useKey_of_good]
      exact .step (Dev.onCtxs_foot) (by decide) (Dev.elapse_foot.mono (by decide))
    exact trickle_capture (hused.mem_eq (by decide)) (hused.expo_eq (by decide)) (hused.same .flash (by decide)).symm
      (hused.strata_eq (by decide)) hslot
  · refine .of_dev execPageRecordDurable_foot (by decide) rfl rfl
      (e := ((((s.dev.elapse dt).pageDurable t.val f).earlyDisarm t.val 1048576).armFullCheck t.val).landNext t.val) ?_ ?_
    · have hgo : ¬ ((s.dev.elapse dt).flashHeld = true ∨ ((s.dev.elapse dt).tile t.val).isolated = true) := by
        rw [not_or]
        exact ⟨Bool.not_eq_true _ ▸ hheld, Bool.not_eq_true _ ▸ hiso⟩
      have hfind' : (s.dev.expo.inflight.find? fun g => s.dev.pageTile g.page == t.val && (g.issued || !s.dev.sealing.stopped)) = some f := by
        simpa [hstop] using hfind
      have hissued : ((s.dev.elapse dt).expo.inflight.find? fun g => (s.dev.elapse dt).pageTile g.page == t.val &&
          (g.issued || !(s.dev.elapse dt).sealing.stopped)) = some f := hfind'
      dsimp only
      rw [if_neg hgo, hissued, landUe_nil]
      rfl
    · have htile : s.dev.pageTile f.page = t.val := by simpa using List.find?_some hfind
      obtain ⟨hrec, hclean⟩ := pageDurable_effect (d := s.dev.elapse dt) (t := t.val) (f := f) (List.mem_of_find?_eq_some hfind)
        htile (Bool.and_eq_true_iff.mpr ⟨hpers, htrim⟩) huniq
      generalize (s.dev.elapse dt).pageDurable t.val f = done at hrec hclean ⊢
      obtain ⟨hstrata, hdirty⟩ := landNext_after_disarms done t.val
      rw [Dev.isDirty, hstrata, hdirty]
      exact ⟨hrec, hclean⟩

end Sys2Proof.Machine
end

section
set_option Elab.async false
/-! LEMMAS. The stages of a seal (chapter 03). -/

namespace Sys2Proof.Machine

/-- A row whose device, in the case at hand, is `e`, and which there changes fewer parts than its footprint. -/
theorem Runs.of_eq {i : Instr} {s : State} {r : Res} {f : Dev → Dev} {S : List Part} {P : Dev → Prop} {e : Dev} (hexec : exec i s = r)
    (hrun : r = s.run f) (hdev : f s.dev = e) (hchanges : ChangesOnly S s.dev e) (hP : P e) : Runs i s S P :=
  .of_run hexec hrun (hdev ▸ hchanges) (hdev ▸ hP)

/-! ### Landing leaves the ledger (R86) -/

theorem putMetas_ledger (d : Dev) (t : Nat) (ms : List MetaRec) : ((d.putMetas t ms).fl t).ledger = (d.fl t).ledger :=
  fl_onFl_field (π := TileFlash.ledger) d t t

theorem onFlow_ledger (d : Dev) (t k : Nat) (f : FlashStream → FlashStream) : ((d.onFlow t k f).fl t).ledger = (d.fl t).ledger :=
  fl_onFl_field (π := TileFlash.ledger) d t t

theorem zoneUse_ledger (d : Dev) (t k n : Nat) : ((d.zoneUse t k n).fl t).ledger = (d.fl t).ledger := by
  unfold Dev.zoneUse
  split
  · exact fl_onFl_field (π := TileFlash.ledger) d t t
  · rfl

theorem closePage_ledger (d : Dev) (t k a : Nat) : ((d.closePage t k a).fl t).ledger = (d.fl t).ledger := by
  unfold Dev.closePage
  extract_lets s n
  split
  · rw [onFlow_ledger, zoneUse_ledger, putMetas_ledger]
  · split
    · rw [onFlow_ledger, zoneUse_ledger, putMetas_ledger]
    · rfl

theorem issue_ledger (d : Dev) (t a : Nat) : ((d.issue t a).fl t).ledger = (d.fl t).ledger :=
  (closePage_ledger (d.closePage t 0 a) t 4 a).trans (closePage_ledger d t 0 a)

theorem landOn_ledger (d : Dev) (t die : Nat) : ((d.landOn t die).1.fl t).ledger = (d.fl t).ledger := by
  unfold Dev.landOn
  extract_lets opened x
  have hopened : (opened.fl t).ledger = (d.fl t).ledger := by
    unfold opened
    split
    · rfl
    · split
      · exact (fl_onFl_field (π := TileFlash.ledger) _ t t).trans (onBlk_ledger ..)
      · rfl
  split
  · exact hopened
  · exact (fl_onFl_field (π := TileFlash.ledger) opened t t).trans hopened

theorem landPage_ledger (d : Dev) (t : Nat) : ((d.landPage t).1.fl t).ledger = (d.fl t).ledger := by
  unfold Dev.landPage
  extract_lets f ready dies
  split
  · exact landOn_ledger ..
  · split
    · exact (landOn_ledger ..).trans (fl_onFl_field (π := TileFlash.ledger) d t t)
    · rfl

/-- A slot of the landing stream comes from the landing zone, without a ledger record. -/
theorem drawSlot_ledger (d : Dev) (t : Nat) (el : Bool) : ((d.drawSlot t 4 el).1.fl t).ledger = (d.fl t).ledger := by
  unfold Dev.drawSlot
  extract_lets s zoned counted closed page
  have hpage : (page.1.fl t).ledger = (d.fl t).ledger := landPage_ledger d t
  have hzoned : (zoned.fl t).ledger = (d.fl t).ledger := by
    unfold zoned
    split
    · exact zoneUse_ledger ..
    · rfl
  have hclosed : (closed.fl t).ledger = (d.fl t).ledger := by
    unfold closed
    split
    · exact (putMetas_ledger ..).trans ((onFlow_ledger ..).trans hzoned)
    · exact (onFlow_ledger ..).trans hzoned
  clear_value closed page
  split
  · split
    · exact hclosed
    · split
      · exact hpage
      · exact (onFlow_ledger ..).trans ((zoneUse_ledger ..).trans hpage)
  · split
    · exact (onFlow_ledger ..).trans (zoneUse_ledger ..)
    · split
      · exact hpage
      · exact (onFlow_ledger ..).trans ((zoneUse_ledger ..).trans hpage)

theorem capture_ledger (d : Dev) (t p : Nat) (fence : Bool) : ((d.capture t p true fence).fl t).ledger = (d.fl t).ledger := by
  unfold Dev.capture
  extract_lets k img el v mask x
  have hx : (x.1.fl t).ledger = (d.fl t).ledger := by
    unfold x
    exact drawSlot_ledger d t el
  clear_value x
  split
  · exact hx
  · extract_lets f entered s
    have heither (c : Prop) [Decidable c] (n : Nat) : ((if c then entered.issue t n else entered).fl t).ledger = (d.fl t).ledger := by
      split
      · exact (issue_ledger entered t n).trans hx
      · exact hx
    exact heither _ _

theorem stagePages_ledger (d : Dev) (t n : Nat) : ((d.stagePages t n).fl t).ledger = (d.fl t).ledger := by
  induction n generalizing d with
  | zero => rfl
  | succ n ih =>
    unfold Dev.stagePages
    split
    · rfl
    · split
      · rfl
      · exact (ih _).trans (capture_ledger ..)

/-- The next landing of a tile adds nothing to its ledger and moves no tile to another stage. -/
theorem landNext_keeps (d : Dev) (t : Nat) :
    ((d.landNext t).fl t).ledger = (d.fl t).ledger ∧ (d.landNext t).sealing.tileStage = d.sealing.tileStage := by
  unfold Dev.landNext
  split
  · exact ⟨rfl, rfl⟩
  · extract_lets staged x
    have hstaged : (staged.fl t).ledger = (d.fl t).ledger ∧ staged.sealing = d.sealing := by
      unfold staged
      split
      · exact ⟨issue_ledger .., Dev.issue_foot.sealing_eq (by decide)⟩
      · exact ⟨stagePages_ledger .., Dev.stagePages_foot.sealing_eq (by decide)⟩
    obtain ⟨hledger, hsealing⟩ := hstaged
    have hx : (x.1.fl t).ledger = (staged.fl t).ledger := drawSlot_ledger ..
    have hxs : x.1.sealing = staged.sealing := Dev.drawSlot_foot.sealing_eq (by decide)
    clear_value x staged
    split
    · exact ⟨hledger, by rw [hsealing]⟩
    · split
      · exact ⟨(issue_ledger ..).trans hledger, by rw [Dev.issue_foot.sealing_eq (by decide), hsealing]⟩
      · split
        · split
          · exact ⟨(putMetas_ledger ..).trans (hx.trans hledger), (congrArg Seal.tileStage (hxs.trans hsealing) :)⟩
          · exact ⟨hledger, by rw [hsealing]⟩
        · exact ⟨hledger, (congrArg Seal.tileStage hsealing :)⟩

/-! ### Tables and masks -/

theorem tget_map_self {α : Type} {l : List Nat} {t : Nat} (f : Nat → α) (z : α) (h : t ∈ l) : tget (l.map fun t => (t, f t)) z t = f t := by
  induction l with
  | nil => exact absurd h List.not_mem_nil
  | cons u l ih =>
    rw [List.map_cons, tget]
    split
    · rename_i hu
      rw [show u = t from hu]
    · rename_i hu
      exact ih ((List.mem_cons.mp h).resolve_left fun ht => hu ht.symm)

theorem mbit_mset {w : Nat} (m : BitVec w) {i : Nat} (h : i < w) : mbit (mset m i) i = true := by
  unfold mbit mset
  rw [BitVec.getLsbD_or, BitVec.getLsbD_ofNat, decide_eq_true h, Nat.testBit_two_pow_self, Bool.and_self, Bool.or_true]

theorem mem_addOnce (l : List Nat) (n : Nat) : n ∈ addOnce l n := by
  unfold addOnce
  split
  · rename_i h
    exact List.contains_iff_mem.mp h
  · exact List.mem_append_right _ List.mem_cons_self

theorem blk_onBlk (d : Dev) (t n : Nat) (f : Block → Block) : (d.onBlk t n f).blk t n = f (d.blk t n) := by
  unfold Dev.blk Dev.onBlk
  rw [fl_onFl]
  exact tget_tmod ..

/-- A block is as before an update that keeps its tile's table of blocks. -/
theorem blk_onFl {f : TileFlash → TileFlash} (d : Dev) (t n : Nat) (hf : ∀ x, (f x).blocks = x.blocks := by exact fun _ => rfl) :
    (d.onFl t f).blk t n = d.blk t n := by
  unfold Dev.blk
  rw [fl_onFl, hf]

/-! ### The rows of stage 1 and stage 2 -/

/-- The groups of the writes held for arming enter the armed set; the groups that stand in it stay (R47, R84). -/
theorem sealArms_armed (d : Dev) :
    (∀ r ∈ d.expo.held, r.forArm = true → ∃ g ∈ d.sealArms.expo.armed, g.group = pageGroup (linePage r.line)) ∧
    ∀ g ∈ d.expo.armed, g ∈ d.sealArms.expo.armed := by
  unfold Dev.sealArms
  extract_lets gs
  refine ⟨fun r hr harm => ?_, fun g hg => List.mem_append_left _ hg⟩
  have hgs : pageGroup (linePage r.line) ∈ gs := List.mem_dedup.mpr (List.mem_map_of_mem (List.mem_filter.mpr ⟨hr, harm⟩))
  by_cases hold : (d.expo.armed.any fun a => a.group == pageGroup (linePage r.line)) = true
  · obtain ⟨a, ha, hag⟩ := List.any_eq_true.mp hold
    exact ⟨a, List.mem_append_left _ ha, beq_iff_eq.mp hag⟩
  · refine ⟨_, List.mem_append_right _ (List.mem_map_of_mem (List.mem_filter.mpr ⟨hgs, ?_⟩)), rfl⟩
    simpa using hold

theorem resvPut_sealDirty (d : Dev) (t : Nat) (ms : List MetaRec) : ((d.resvPut t ms).fl t).sealDirty = (d.fl t).sealDirty := by
  unfold Dev.resvPut
  extract_lets f n at_ pad all put
  have hput : (put.fl t).sealDirty = (d.fl t).sealDirty := fl_onFl_field (π := TileFlash.sealDirty) d t t
  refine (foldl_keeps (π := fun d : Dev => (d.fl t).sealDirty) (fun d b _ => ?_) put).trans hput
  exact fl_onFl_field (π := TileFlash.sealDirty) d t t

theorem dwGet_dwUpd (d : Dev) (off w fields : Nat) : (d.dwUpd off w fields).dwGet off 0 =
    (fields % 2 ^ (64 - w) + put (64 - w) w (bits (d.dwGet off 0) (64 - w) w + 1)) % 2 ^ 64 := dwGet_dwSet ..

/-- STAGE, CAUSE and SEQ of DW_SEAL_STAT after its update. -/
theorem sealUpd_registers (d : Dev) : bits (d.sealUpd.dwGet 0x600 0) 0 3 = d.sealing.stage % 8 ∧
    bits (d.sealUpd.dwGet 0x600 0) 4 4 = d.sealing.cause % 16 ∧
    bits (d.sealUpd.dwGet 0x600 0) 48 16 = (bits (d.dwGet 0x600 0) 48 16 + 1) % 65536 := by
  unfold Dev.sealUpd
  extract_lets x
  have hx : x.stage = d.sealing.stage ∧ x.cause = d.sealing.cause := ⟨rfl, rfl⟩
  rw [dwGet_dwUpd, ← hx.1, ← hx.2]
  generalize bits (d.dwGet 0x600 0) (64 - 16) 16 = seq
  unfold bits put
  omega

theorem sealHeader_effect (d : Dev) (t : Nat) : ∃ lseq time page ext, (d.sealHeader t).lastEntry t (fun x => x.typ == 9) =
    some {
      typ := 9, a := d.sealing.cause, b := tget d.sealing.p1Start 0 t, c := tget d.sealing.p2Start 0 t, test := d.sealing.test
      lseq := lseq, time := time, page := page, ext := ext } ∧ (d.sealing.tTrigger ≠ 0 → time = d.sealing.tTrigger) := by
  unfold Dev.sealHeader
  extract_lets x f n opn ext
  obtain ⟨lseq, time, page, hlast, htime⟩ := cairn_lastEntry d t {
    typ := 9, a := x.cause, b := tget x.p1Start 0 t, c := tget x.p2Start 0 t, time := x.tTrigger, test := x.test, ext := ext }
    (by decide : (9 : Nat) ≠ 4) (by decide : (9 : Nat) ≠ 2)
  exact ⟨lseq, time, page, ext, hlast, htime⟩

theorem sealWorst_tileStage (d : Dev) : d.sealWorst.sealing.tileStage = d.sealing.tileStage := by
  unfold Dev.sealWorst
  split <;> rfl

/-- Settles O20: each row by its branch, its tables and masks read back, and the ledger that landing leaves alone. -/
theorem sealStageRows : Obligations.SealStageRows := by
  refine ⟨fun s dt hact hstage hdone => ?_, fun s t dt hact hstage hiso => ?_, fun s t dt hact hstage hmeta hiso => ?_,
    fun s t dt hact htest hstage hquiet hx => ?_, fun s t dt hact htest hstage hquiet hx hstop hland => ?_,
    fun s t dt hact hstage hiso => ?_, fun s dt hact h2 h4 hrec hfloor hstop htake => ?_, fun s t blk dt hact h2 h4 hiso hdie => ?_,
    fun s t dt hact h2 h4 hiso hdie => ?_, fun s dt hdue => ?_, fun s dt hdue hact hany => ?_⟩
  · have hrow : ¬ ((!s.dev.sealing.active) = true ∨ s.dev.sealing.stage ≠ 1 ∨ (!s.dev.stage1Done) = true) := by simp [hact, hstage, hdone]
    refine .of_dev execStage1Complete_foot (by decide) rfl rfl (if_neg hrow) ?_
    extract_lets armed staged steered dated
    have hdated : ChangesOnly [.flash] steered dated :=
      .foldl (fun _ _ h => .step Dev.onFl_foot (by decide) h) (.refl _ _)
    have hlead : ChangesOnly [.pkg, .energy, .qtz, .slate, .freeN, .dw] dated dated.stage2Lead.sealUpd :=
      .step Dev.sealUpd_foot (by decide) (Dev.stage2Lead_foot.mono (by decide))
    have hsealing : dated.stage2Lead.sealUpd.sealing = staged.sealing := (hlead.sealing_eq (by decide)).trans (hdated.sealing_eq (by decide))
    have hexpo : dated.stage2Lead.sealUpd.expo = armed.expo := (hlead.expo_eq (by decide)).trans (hdated.expo_eq (by decide))
    have hdram : dated.stage2Lead.sealUpd.dram = steered.dram :=
      (hlead.same .dram (by decide)).symm.trans (hdated.same .dram (by decide)).symm
    obtain ⟨hheld, hold⟩ := sealArms_armed (s.dev.elapse dt)
    generalize dated.stage2Lead.sealUpd = e at hsealing hexpo hdram ⊢
    rw [hsealing, hexpo, hdram]
    refine ⟨rfl, fun t ht => ?_, rfl, hheld, hold, fun t ht => ⟨?_, ?_⟩⟩
    · rw [Dev.tileStage, hsealing]
      exact tget_map_self (fun _ => 2) 0 ht
    · exact tget_map_self (fun t => armed.xCls t 1) 0 ht
    · exact tget_map_self (fun t => armed.xCls t 2) 0 ht
  · have hrow : ¬ ((!s.dev.sealing.active) = true ∨ s.dev.tileStage t.val ≠ 2 ∨ (s.dev.tile t.val).isolated = true) := by
      simp [hact, hstage, hiso]
    refine .of_dev execStage2MetadataVerified_foot (by decide) rfl rfl (if_neg hrow) ?_
    extract_lets f armed served dirty armedGroups noted put
    have hput : ChangesOnly [.flash] served put := .step Dev.resvPut_foot (by decide) (Dev.onFl_foot.mono (by decide))
    refine ⟨mbit_mset _ t.isLt, ?_⟩
    have hfl : (put.fl t.val).sealDirty = dirty := by
      unfold put
      rw [resvPut_sealDirty]
      unfold noted
      rw [fl_onFl]
    refine hfl.trans ?_
    unfold dirty
    rw [onSealing_expo, hput.expo_eq (by decide)]
    simp only [pageTile_congr (d := served) (e := put.onSealing _) (hput.same .dram (by decide)).symm]
  · have hrow : ¬ ((!s.dev.sealing.active) = true ∨ s.dev.tileStage t.val ≠ 2 ∨ (!mbit s.dev.sealing.metaOk t.val) = true ∨
        (s.dev.tile t.val).isolated = true) := by simp [hact, hstage, hmeta, hiso]
    refine .of_dev execStage2Complete_foot (by decide) rfl rfl (if_neg hrow) ?_
    extract_lets headed limited
    obtain ⟨lseq, time, page, ext, hlast, htime⟩ := sealHeader_effect (s.dev.elapse dt) t.val
    have hworst : ChangesOnly [.sealing] limited limited.sealWorst := Dev.sealWorst_foot
    obtain ⟨hledger, hstages⟩ := landNext_keeps limited.sealWorst t.val
    have hentry : ((limited.sealWorst.landNext t.val).sealUpd.lastEntry t.val fun x => x.typ == 9) =
        ((s.dev.elapse dt).sealHeader t.val).lastEntry t.val fun x => x.typ == 9 := by
      refine congrArg (List.find? _) (Eq.trans ?_ (hledger.trans ?_))
      · exact congrArg TileFlash.ledger (fl_congr (Dev.sealUpd_foot.same .flash (by decide)).symm t.val)
      · exact congrArg TileFlash.ledger (fl_congr (hworst.same .flash (by decide)).symm t.val)
    rw [landUe_nil, hentry, hlast]
    refine ⟨?_, rfl, fun htrig => congrArg some (htime htrig)⟩
    rw [Dev.tileStage, Dev.sealUpd_foot.sealing_eq (by decide), hstages, sealWorst_tileStage]
    exact tget_tset _ _ _ _ _ rfl
  · have hrow : ¬ ((!s.dev.sealing.active) = true ∨ s.dev.tileStage t.val ≠ 3 ∨ (!s.dev.quiet t.val) = true) := by simp [hact, hstage, hquiet]
    have hends : (if s.dev.sealing.test then (decide (s.dev.xTile t.val = 0) && s.dev.testLanded t.val) || mbit s.dev.sealing.noLand t.val
        else decide (s.dev.xTile t.val = 0)) = true := by simp [htest, hx]
    refine .of_dev execStage3Complete_foot (by decide) rfl rfl ((if_neg hrow).trans (if_pos hends)) ?_
    extract_lets moved
    refine ⟨?_, ?_⟩
    · rw [Dev.tileStage, Dev.sealUpd_foot.sealing_eq (by decide)]
      exact tget_tset _ _ _ _ _ rfl
    · rw [Dev.sealUpd_foot.sealing_eq (by decide)]
      exact mbit_mset _ t.isLt
  · have hrow : ¬ ((!s.dev.sealing.active) = true ∨ s.dev.tileStage t.val ≠ 3 ∨ (!s.dev.quiet t.val) = true) := by simp [hact, hstage, hquiet]
    have hends : ¬ (if s.dev.sealing.test then (decide (s.dev.xTile t.val = 0) && s.dev.testLanded t.val) || mbit s.dev.sealing.noLand t.val
        else decide (s.dev.xTile t.val = 0)) = true := by simp [htest, hx]
    have hlands : ¬ mbit s.dev.sealing.noLand t.val = true := by rw [hland]; decide
    refine .of_dev execStage3Complete_foot (by decide) rfl rfl ((if_neg hrow).trans ((if_neg hends).trans ((if_neg hlands).trans (if_pos hstop)))) ?_
    rw [Dev.tileStage, Dev.sealUpd_foot.sealing_eq (by decide)]
    exact ⟨tget_tset _ _ _ _ _ rfl, rfl⟩
  · have hrow : ¬ ((!s.dev.sealing.active) = true ∨ s.dev.tileStage t.val ≠ 4 ∨ (s.dev.tile t.val).isolated = true) := by
      simp [hact, hstage, hiso]
    refine .of_dev execTileSealRecordWritten_foot (by decide) rfl rfl (if_neg hrow) ?_
    extract_lets hdr written
    obtain ⟨lseq, time, page, hlast, -⟩ := cairn_lastEntry (s.dev.elapse dt) t.val {
      typ := 0x0A, a := hdr, b := tget (s.dev.elapse dt).sealing.landedT 0 t.val, test := (s.dev.elapse dt).sealing.test }
      (by decide : (10 : Nat) ≠ 4) (by decide : (10 : Nat) ≠ 2)
    have hsealing : ((s.dev.elapse dt).ledger t.val 0x0A hdr (tget (s.dev.elapse dt).sealing.landedT 0 t.val) 0
      (s.dev.elapse dt).sealing.test).sealing = s.dev.sealing := Dev.ledger_foot.sealing_eq (by decide)
    have hentry : ((written.onSealing fun x => { x with t4Done := mset x.t4Done t.val }).sealUpd.lastEntry t.val fun x => x.typ == 0x0A) = _ :=
      (congrArg (List.find? _) (congrArg TileFlash.ledger (fl_congr (Dev.sealUpd_foot.same .flash (by decide)).symm t.val))).trans hlast
    rw [hentry, Dev.tileStage, Dev.sealUpd_foot.sealing_eq (by decide)]
    refine ⟨tget_tset _ _ _ _ _ rfl, ?_, rfl⟩
    exact (congrArg (fun x : Seal => mset x.t4Done t.val) hsealing :)
  · have hrow : s.dev.sealing.active = true ∧ 2 ≤ s.dev.sealing.stage ∧ s.dev.sealing.stage ≤ 4 ∧ (!s.dev.sealing.pkgRecord) = true ∧
        s.dev.floorMj ≤ s.dev.eStop ∧ (!s.dev.sealing.stopped) = true ∧ s.dev.pkg.takeStep = 0 := by
      simp [hact, h2, h4, hrec, hfloor, hstop, htake]
    refine .of_dev execEnergyFloorReached_foot (by decide) rfl rfl (if_pos hrow) ?_
    extract_lets dropped cut
    have hcut : ChangesOnly [.flash] dropped cut := .foldl (fun _ _ h => .step Dev.onFlow_foot (by decide) h) (.refl _ _)
    rw [Dev.sealUpd_foot.sealing_eq (by decide), Dev.sealUpd_foot.expo_eq (by decide)]
    rw [onSealing_sealing, hcut.sealing_eq (by decide)]
    exact ⟨rfl, congrArg Expo.inflight (hcut.expo_eq (by decide))⟩
  · have hrow : ¬ ((!s.dev.sealing.active) = true ∨ s.dev.sealing.stage < 2 ∨ 4 < s.dev.sealing.stage ∨
        (s.dev.tile t.val).isolated = true) := by
      simp only [hact, hiso, Bool.not_true, Bool.false_eq_true, false_or, or_false]
      omega
    refine .of_dev execSealProgramFail_foot (by decide) rfl rfl ((if_neg hrow).trans (if_neg hdie)) ?_
    extract_lets failed
    refine ⟨?_, ?_⟩
    · refine (congrArg Block.state (blk_onFl (failed.onBlk t.val blk _) t.val blk)).trans ?_
      rw [blk_onBlk]
    · rw [fl_onFl]
      exact mem_addOnce ..
  · have hrow : ¬ ((!s.dev.sealing.active) = true ∨ s.dev.sealing.stage < 2 ∨ 4 < s.dev.sealing.stage ∨
        (s.dev.tile t.val).isolated = true) := by
      simp only [hact, hiso, Bool.not_true, Bool.false_eq_true, false_or, or_false]
      omega
    refine .of_dev execSealProgramFail_foot (by decide) rfl rfl ((if_neg hrow).trans ((if_pos hdie).trans (if_pos rfl))) ?_
    rw [fl_onFl]
    exact ⟨rfl, rfl⟩
  · exact .of_eq (r := execSealStatusUpdate dt s) rfl rfl (if_neg (Bool.eq_false_iff.mp hdue)) Dev.elapse_foot rfl
  · have hrun : (s.dev.sealing.active && s.dev.inSvc.any fun t => s.dev.tileStage t == 3) = true := by rw [hact, hany, Bool.and_self]
    refine .of_dev execSealStatusUpdate_foot (by decide) rfl rfl ((if_pos hdue).trans (if_pos hrun)) ?_
    refine ⟨Dev.sealUpd_foot.sealing_eq (by decide), ?_⟩
    exact sealUpd_registers ((s.dev.elapse dt).onPkg _)

end Sys2Proof.Machine
end

section
set_option Elab.async false
/-! LEMMAS. What Strata keeps of a tile's flash bookkeeping, and a block and a die taken out (chapter 06). -/

namespace Sys2Proof.Machine

/-! ### What ledger programs leave of a tile's flash bookkeeping (R154 to R156) -/

/-- A tile's bookkeeping but for what a ledger program changes: the ledger and its block, the states of blocks, and the erase intents. -/
def TileFlash.offLedger (f : TileFlash) : TileFlash :=
  { f with blocks := [], ledBlock := 0, ledLeft := 0, ledger := [], nextLseq := 0, sinceSummary := 0, intentQ := [] }

theorem onBlk_offLedger (d : Dev) (t n u : Nat) (f : Block → Block) : ((d.onBlk t n f).fl u).offLedger = (d.fl u).offLedger :=
  fl_onFl_field (π := TileFlash.offLedger) d t u

theorem ledgerPage_offLedger (d : Dev) (t u : Nat) : ((d.ledgerPage t).1.fl u).offLedger = (d.fl u).offLedger := by
  unfold Dev.ledgerPage
  extract_lets n closed ready f
  have hready : (ready.fl u).offLedger = (d.fl u).offLedger := by
    unfold ready
    split
    · rfl
    · exact (fl_onFl_field (π := TileFlash.offLedger) ..).trans ((onBlk_offLedger ..).trans (onBlk_offLedger ..))
  exact (fl_onFl_field (π := TileFlash.offLedger) ..).trans hready

theorem cairnPut_offLedger (d : Dev) (t u : Nat) (es : List LedgerEntry) : ((d.cairnPut t es).fl u).offLedger = (d.fl u).offLedger := by
  unfold Dev.cairnPut
  extract_lets x
  refine (foldl_keeps (π := fun d : Dev => (d.fl u).offLedger) (fun d e _ => ?_) x.1).trans (ledgerPage_offLedger d t u)
  exact fl_onFl_field (π := TileFlash.offLedger) d t u

theorem cairn_offLedger (d : Dev) (t u : Nat) (es : List LedgerEntry) : ((d.cairn t es).fl u).offLedger = (d.fl u).offLedger := by
  unfold Dev.cairn
  extract_lets room ints dis put marked taken
  have hmarked : (marked.fl u).offLedger = (put.fl u).offLedger :=
    foldl_keeps (π := fun d : Dev => (d.fl u).offLedger) (fun d b _ => onBlk_offLedger d t b u _) _
  have htaken : (taken.fl u).offLedger = (marked.fl u).offLedger := fl_onFl_field (π := TileFlash.offLedger) marked t u
  exact htaken.trans (hmarked.trans (cairnPut_offLedger ..))

theorem ledger_offLedger (d : Dev) (t u typ a b c : Nat) (test : Bool) : ((d.ledger t typ a b c test).fl u).offLedger = (d.fl u).offLedger :=
  cairn_offLedger ..

/-- The checkpoint number and the retired dies of a tile. -/
def TileFlash.lasting (f : TileFlash) : Nat × List Nat := (f.ckptNo, f.diesRetired)

theorem lasting_of_offLedger {f g : TileFlash} (h : f.offLedger = g.offLedger) : f.lasting = g.lasting := (congrArg TileFlash.lasting h :)

theorem fl_of_foot {S : List Part} {d e : Dev} (h : ChangesOnly S d e) (t : Nat) (hS : Part.flash ∉ S := by decide) : e.fl t = d.fl t :=
  fl_congr (h.same .flash hS).symm t

theorem zoneUse_lasting (d : Dev) (t k n u : Nat) : ((d.zoneUse t k n).fl u).lasting = (d.fl u).lasting := by
  unfold Dev.zoneUse
  split
  · exact fl_onFl_field (π := TileFlash.lasting) d t u
  · rfl

theorem onFlow_lasting (d : Dev) (t k u : Nat) (f : FlashStream → FlashStream) : ((d.onFlow t k f).fl u).lasting = (d.fl u).lasting :=
  fl_onFl_field (π := TileFlash.lasting) d t u

theorem putMetas_lasting (d : Dev) (t u : Nat) (ms : List MetaRec) : ((d.putMetas t ms).fl u).lasting = (d.fl u).lasting :=
  fl_onFl_field (π := TileFlash.lasting) d t u

theorem openFor_lasting (d : Dev) (t k u : Nat) : ((d.openFor t k).fl u).lasting = (d.fl u).lasting := by
  unfold Dev.openFor
  split
  · rfl
  · extract_lets closed opened zoned
    have hopened : (opened.fl u).lasting = (d.fl u).lasting :=
      (lasting_of_offLedger (ledger_offLedger ..)).trans
        ((lasting_of_offLedger (onBlk_offLedger ..)).trans (lasting_of_offLedger (onBlk_offLedger ..)))
    have hzoned : (zoned.fl u).lasting = (opened.fl u).lasting := by
      unfold zoned
      split
      · rfl
      · exact fl_onFl_field (π := TileFlash.lasting) opened t u
    exact (onFlow_lasting ..).trans (hzoned.trans hopened)

/-- A slot of the metadata stream is drawn without a change of the checkpoint number or the retired dies. -/
theorem drawMeta_lasting (d : Dev) (t u : Nat) : ((d.drawSlot t 3 false).1.fl u).lasting = (d.fl u).lasting := by
  have hpage : ((d.takePage t 3).1.fl u).lasting = (d.fl u).lasting := by
    unfold Dev.takePage
    rw [if_neg (by decide)]
    extract_lets opened f
    have hopened : (opened.fl u).lasting = (d.fl u).lasting := by
      unfold opened
      split
      · exact openFor_lasting ..
      · rfl
    split
    · exact hopened
    · exact (onFlow_lasting ..).trans hopened
  unfold Dev.drawSlot
  extract_lets s zoned counted closed page
  rw [if_neg Bool.false_ne_true]
  have hpage : (page.1.fl u).lasting = (d.fl u).lasting := hpage
  clear_value page
  split
  · exact (onFlow_lasting ..).trans (zoneUse_lasting ..)
  · split
    · exact hpage
    · exact (onFlow_lasting ..).trans ((zoneUse_lasting ..).trans hpage)

theorem closePage_lasting (d : Dev) (t k a u : Nat) : ((d.closePage t k a).fl u).lasting = (d.fl u).lasting := by
  unfold Dev.closePage
  extract_lets s n
  split
  · rw [onFlow_lasting, zoneUse_lasting, putMetas_lasting]
  · split
    · rw [onFlow_lasting, zoneUse_lasting, putMetas_lasting]
    · rfl

theorem metaOne_lasting (d : Dev) (t u : Nat) (m : MetaRec) : ((d.metaOne t m).fl u).lasting = (d.fl u).lasting := by
  unfold Dev.metaOne
  extract_lets x
  have hx : (x.1.fl u).lasting = (d.fl u).lasting := drawMeta_lasting d t u
  clear_value x
  split
  · exact hx
  · exact (putMetas_lasting ..).trans hx

theorem metaPut_lasting (d : Dev) (t kind u : Nat) (l : List (Nat × List (Nat × Nat))) :
    ((d.metaPut t kind l).fl u).lasting = (d.fl u).lasting := by
  unfold Dev.metaPut Dev.closeStream
  refine (closePage_lasting ..).trans ((closePage_lasting ..).trans ?_)
  exact foldl_keeps (π := fun d : Dev => (d.fl u).lasting) (fun d x _ => metaOne_lasting d t u _) _

theorem ckptWrite_lasting (d : Dev) (t u : Nat) : ((d.ckptWrite t).fl u).lasting = (d.fl u).lasting := by
  unfold Dev.ckptWrite
  extract_lets f gs segs rs addrs
  refine (fl_onFl_field (π := TileFlash.lasting) _ t u).trans ((metaPut_lasting ..).trans ?_)
  exact (metaPut_lasting ..).trans (metaPut_lasting ..)

theorem resvFill_lasting (d : Dev) (t u : Nat) : ((d.resvFill t).fl u).lasting = (d.fl u).lasting := by
  unfold Dev.resvFill
  extract_lets ok freed
  refine (foldl_keeps (π := fun d : Dev => (d.fl u).lasting) (fun d ch _ => ?_) freed).trans (fl_onFl_field (π := TileFlash.lasting) d t u)
  split
  · rfl
  · split
    · exact fl_onFl_field (π := TileFlash.lasting) d t u
    · rfl

theorem strataLost_lasting (d : Dev) (t u : Nat) (r : PageRec) : ((d.strataLost t r).fl u).lasting = (d.fl u).lasting := by
  unfold Dev.strataLost
  extract_lets hit bad logged recorded
  have hlogged : (logged.fl u).lasting = (d.fl u).lasting := by
    refine foldl_keeps (π := fun d : Dev => (d.fl u).lasting) (fun d s _ => ?_) d
    split
    · rfl
    · exact foldl_keeps (π := fun d : Dev => (d.fl u).lasting) (fun d t _ => lasting_of_offLedger (ledger_offLedger ..)) d
  have hrecorded : (recorded.fl u).lasting = (logged.fl u).lasting := rfl
  split
  · exact hrecorded.trans hlogged
  · exact (congrArg TileFlash.lasting (fl_of_foot Dev.raise_foot u)).trans (hrecorded.trans hlogged)

/-! ### A block and its die taken out (R160, R161) -/

theorem blk_of_fl {d e : Dev} {t : Nat} (h : e.fl t = d.fl t) (n : Nat) : e.blk t n = d.blk t n := by rw [Dev.blk, h, Dev.blk]

/-- A record on a retired die is lost to Strata, its page first made dirty again where DRAM still has it. -/
theorem lostStep_lasting (d : Dev) (t : Nat) (r : PageRec) (again : Bool) :
    (((if again then d.dirtyArmed r.page else d).strataLost t r).fl t).lasting = (d.fl t).lasting := by
  rw [strataLost_lasting]
  cases again
  · rfl
  · exact congrArg TileFlash.lasting (fl_of_foot Dev.dirtyArmed_foot t)

theorem lostSteps_lasting (d : Dev) (t : Nat) (again : Dev → PageRec → Bool) (l : List PageRec) :
    ((l.foldl (fun d r => (if again d r then d.dirtyArmed r.page else d).strataLost t r) d).fl t).lasting = (d.fl t).lasting :=
  foldl_keeps (π := fun d : Dev => (d.fl t).lasting) (fun d r _ => lostStep_lasting d t r (again d r)) d

/-- The die is in the list of the retired ones, and what follows on its retirement leaves the list. -/
theorem retired_of_lasting {d e : Dev} {t die : Nat} (h : (e.fl t).lasting = (d.fl t).lasting) (hd : die ∈ (d.fl t).diesRetired) :
    (e.fl t).diesRetired.contains die = true := by
  have hlist : (e.fl t).diesRetired = (d.fl t).diesRetired := congrArg Prod.snd h
  rw [hlist]
  exact List.contains_iff_mem.mpr hd

theorem retireDie_retired {d : Dev} {t die : Nat} (hnot : (d.fl t).diesRetired.contains die = false) (hdie : die ≠ ledgerDie) :
    ((d.retireDie t die).fl t).diesRetired.contains die = true := by
  unfold Dev.retireDie
  rw [if_neg (not_or.mpr ⟨Bool.eq_false_iff.mp hnot, hdie⟩)]
  extract_lets f used here dropped retired moved filled
  have hretired : die ∈ (retired.fl t).diesRetired := by
    unfold retired
    rw [fl_onFl]
    dsimp only
    exact mem_addOnce _ _
  have hmoved : (moved.fl t).lasting = (retired.fl t).lasting := lostSteps_lasting retired t (fun d r => d.isCurrent r && !(d.isDirty r.page)) here
  clear_value retired
  have hfilled : (filled.fl t).lasting = (moved.fl t).lasting :=
    (congrArg TileFlash.lasting (fl_of_foot Dev.govTrigger_foot t)).trans ((congrArg TileFlash.lasting (fl_of_foot Dev.raise_foot t)).trans
      (resvFill_lasting moved t t))
  clear_value filled
  split
  · exact retired_of_lasting ((congrArg TileFlash.lasting (fl_of_foot Dev.raise_foot t)).trans (hfilled.trans hmoved)) hretired
  · exact retired_of_lasting (hfilled.trans hmoved) hretired

/-- The latest BAD_BLOCK entry, after one for `b` and what leaves the ledger. -/
theorem lastEntry_of_badEntry {d e : Dev} {t b c r : Nat} (h : (e.fl t).ledger = ((d.ledger t 7 b c r).fl t).ledger) :
    ((e.lastEntry t fun x => x.typ == 7).map fun x => x.a) = some b := by
  obtain ⟨_, _, _, hlast, -⟩ := cairn_lastEntry d t { typ := 7, a := b, b := c, c := r }
    (by decide : (7 : Nat) ≠ 4) (by decide : (7 : Nat) ≠ 2)
  have hfind : (((d.ledger t 7 b c r).lastEntry t fun x => x.typ == 7).map fun x => x.a) = some b := congrArg (Option.map fun x => x.a) hlast
  unfold Dev.lastEntry at hfind ⊢
  rw [h]
  exact hfind

/-- A block after its BAD_BLOCK record, which is the latest of its type: the block is remapped, or retired, or, where it was programmed and is no
ledger block, emptied first. -/
theorem badBlock_effect (d : Dev) (t b reason : Nat) :
    (((d.badBlock t b reason).blk t b).state = 4 ∨ ((d.badBlock t b reason).blk t b).state = 6 ∨
      ((d.badBlock t b reason).blk t b).state = 5 ∧ dieOf b ≠ ledgerDie ∧ ((d.blk t b).state = 1 ∨ (d.blk t b).state = 2)) ∧
    (((d.badBlock t b reason).lastEntry t fun x => x.typ == 7).map fun x => x.a) = some b := by
  unfold Dev.badBlock
  extract_lets die n held triggered remapped counted retired
  split
  · have hstate : (counted.blk t b).state = if held = true ∧ die ≠ ledgerDie then 5 else 6 :=
      (congrArg Block.state (blk_onFl remapped t b)).trans (congrArg Block.state (blk_onBlk ..))
    have hledger : (counted.fl t).ledger = ((triggered.ledger t 7 b (triggered.dieBlocks + n) reason).fl t).ledger :=
      (fl_onFl_field (π := TileFlash.ledger) remapped t t).trans (onBlk_ledger ..)
    have hcases : (counted.blk t b).state = 4 ∨ (counted.blk t b).state = 6 ∨
        (counted.blk t b).state = 5 ∧ dieOf b ≠ ledgerDie ∧ ((d.blk t b).state = 1 ∨ (d.blk t b).state = 2) := by
      by_cases hheld : held = true ∧ die ≠ ledgerDie
      · refine .inr (.inr ⟨hstate.trans (if_pos hheld), hheld.2, ?_⟩)
        simpa [held] using hheld.1
      · exact .inr (.inl (hstate.trans (if_neg hheld)))
    clear_value counted
    have hend (e : Dev) (he : e.fl t = counted.fl t) :
        ((e.blk t b).state = 4 ∨ (e.blk t b).state = 6 ∨
          (e.blk t b).state = 5 ∧ dieOf b ≠ ledgerDie ∧ ((d.blk t b).state = 1 ∨ (d.blk t b).state = 2)) ∧
        ((e.lastEntry t fun x => x.typ == 7).map fun x => x.a) = some b := by
      rw [blk_of_fl he]
      exact ⟨hcases, lastEntry_of_badEntry ((congrArg TileFlash.ledger he).trans hledger)⟩
    split
    · exact hend _ (fl_of_foot Dev.raise_foot t)
    · exact hend _ rfl
  · have hledger : ((retired.onFl t fun f => { f with blocksRetired := f.blocksRetired + 1 }).fl t).ledger =
        ((triggered.ledger t 7 b 0 (reason + 8)).fl t).ledger :=
      (fl_onFl_field (π := TileFlash.ledger) retired t t).trans (onBlk_ledger ..)
    have hstate : ((retired.onFl t fun f => { f with blocksRetired := f.blocksRetired + 1 }).blk t b).state = 4 :=
      (congrArg Block.state (blk_onFl retired t b)).trans (congrArg Block.state (blk_onBlk ..))
    refine ⟨.inl ?_, lastEntry_of_badEntry ((congrArg TileFlash.ledger (fl_of_foot Dev.raise_foot t)).trans hledger)⟩
    exact (congrArg Block.state (blk_of_fl (fl_of_foot Dev.raise_foot t) b)).trans hstate

end Sys2Proof.Machine
end

section
set_option Elab.async false
/-! LEMMAS. Erase intents, the entries that programs add, and an erased block (chapter 06). -/

namespace Sys2Proof.Machine

/-! ### Intents in a Cairn program (R157) -/

theorem blk_onBlk_ne (d : Dev) (t : Nat) {n m : Nat} (f : Block → Block) (h : m ≠ n) : (d.onBlk t n f).blk t m = d.blk t m := by
  unfold Dev.blk Dev.onBlk
  rw [fl_onFl]
  exact tget_tmod_ne _ _ _ _ _ h

theorem marked_onBlk (d : Dev) (t n : Nat) {b : Nat} (h : b = n ∨ (d.blk t b).state = 3) :
    ((d.onBlk t n fun x => { x with state := 3 }).blk t b).state = 3 := by
  by_cases hb : b = n
  · rw [hb, blk_onBlk]
  · rw [blk_onBlk_ne d t _ hb]
    exact h.resolve_left hb

/-- Every block of the list is under erase once all are marked. -/
theorem foldl_marked (t : Nat) (ints : List Nat) (d : Dev) {b : Nat} (h : b ∈ ints ∨ (d.blk t b).state = 3) :
    ((ints.foldl (fun d b => d.onBlk t b fun x => { x with state := 3 }) d).blk t b).state = 3 := by
  induction ints generalizing d with
  | nil => exact h.resolve_left List.not_mem_nil
  | cons n ints ih =>
    refine ih _ ?_
    rcases h with h | h
    · rcases List.mem_cons.mp h with h | h
      · exact .inr (marked_onBlk d t n (.inl h))
      · exact .inl h
    · exact .inr (marked_onBlk d t n (.inr h))

theorem cairnPut_intentQ (d : Dev) (t : Nat) (es : List LedgerEntry) : ((d.cairnPut t es).fl t).intentQ = (d.fl t).intentQ := by
  have hpage : ((d.ledgerPage t).1.fl t).intentQ = (d.fl t).intentQ := by
    unfold Dev.ledgerPage
    extract_lets n closed ready f
    have hready : (ready.fl t).intentQ = (d.fl t).intentQ := by
      unfold ready
      split
      · rfl
      · exact (fl_onFl_field (π := TileFlash.intentQ) ..).trans ((fl_onFl_field (π := TileFlash.intentQ) ..).trans
          (fl_onFl_field (π := TileFlash.intentQ) ..))
    exact (fl_onFl_field (π := TileFlash.intentQ) ..).trans hready
  unfold Dev.cairnPut
  extract_lets x
  exact (foldl_keeps (π := fun d : Dev => (d.fl t).intentQ) (fun d e _ => fl_onFl_field (π := TileFlash.intentQ) d t t) x.1).trans hpage

/-- A waiting intent goes into the program, and its block is under erase, or waits on. -/
theorem cairn_intent {d : Dev} {t b : Nat} (es : List LedgerEntry) (h : b ∈ (d.fl t).intentQ) :
    ((d.cairn t es).blk t b).state = 3 ∨ b ∈ ((d.cairn t es).fl t).intentQ := by
  unfold Dev.cairn
  extract_lets room ints dis put marked taken
  by_cases hb : b ∈ ints
  · have htaken : taken.blk t b = marked.blk t b := blk_onFl marked t b
    exact .inl ((congrArg Block.state htaken).trans (foldl_marked t ints put (.inl hb)))
  · refine .inr ?_
    have hq : (marked.fl t).intentQ = (d.fl t).intentQ :=
      (foldl_keeps (π := fun d : Dev => (d.fl t).intentQ) (fun d n _ => fl_onFl_field (π := TileFlash.intentQ) d t t) put).trans
        (cairnPut_intentQ ..)
    have htaken : (taken.fl t).intentQ = (marked.fl t).intentQ.filter fun b => !ints.contains b := by
      unfold taken
      rw [fl_onFl]
    refine (?_ : b ∈ (taken.fl t).intentQ)
    rw [htaken, hq]
    exact List.mem_filter.mpr ⟨h, by simp [hb]⟩

/-- A program for the one intent that waits marks its block, and the intent is the latest of its type. -/
theorem cairn_only_intent {d : Dev} {t b : Nat} (h : (d.fl t).intentQ = [b]) : ((d.cairn t []).blk t b).state = 3 ∧
    (((d.cairn t []).lastEntry t fun x => x.typ == 4).map fun x => x.a) = some b := by
  unfold Dev.cairn
  extract_lets room ints dis put marked taken
  have hints : ints = [b] := by
    unfold ints
    rw [h]
    rfl
  constructor
  · have htaken : taken.blk t b = marked.blk t b := blk_onFl marked t b
    refine (congrArg Block.state htaken).trans (foldl_marked t ints put (.inl ?_))
    rw [hints]
    exact List.mem_singleton_self b
  · have hmarked : (marked.fl t).ledger = (put.fl t).ledger :=
      foldl_keeps (π := fun d : Dev => (d.fl t).ledger) (fun d b _ => onBlk_ledger d t b t _) _
    have htaken : (taken.fl t).ledger = (put.fl t).ledger := (fl_onFl_field (π := TileFlash.ledger) marked t t).trans hmarked
    have hdis : ∀ x ∈ dis.map fun g => { typ := 2, a := g : LedgerEntry }, x.typ ≠ 4 := by
      intro x hx
      obtain ⟨_, _, rfl⟩ := List.mem_map.mp hx
      exact (by decide : (2 : Nat) ≠ 4)
    obtain ⟨_, _, _, hlast, -⟩ := cairnPut_lastEntry d t { typ := 4, a := b, b := bit (d.blk t b).tlc } hdis
    have hput : put = d.cairnPut t ({ typ := 4, a := b, b := bit (d.blk t b).tlc } :: dis.map fun g => { typ := 2, a := g }) := by
      unfold put
      rw [hints]
      rfl
    have hfind : ((put.lastEntry t fun x => x.typ == 4).map fun x => x.a) = some b := by
      rw [hput]
      exact congrArg (Option.map fun x => x.a) hlast
    unfold Dev.lastEntry at hfind ⊢
    rw [← htaken] at hfind
    exact hfind

/-! ### The entries that a Cairn program and a ledger summary add (R155) -/

theorem foldl_ledgerAdd_new (t page : Nat) (es : List LedgerEntry) (d : Dev) :
    ∀ x ∈ ((es.foldl (fun d e => d.ledgerAdd t page e) d).fl t).ledger, x ∈ (d.fl t).ledger ∨ ∃ e ∈ es, x.typ = e.typ := by
  induction es generalizing d with
  | nil => exact fun x hx => .inl hx
  | cons e es ih =>
    intro x hx
    rcases ih (d.ledgerAdd t page e) x hx with h | ⟨y, hy, htyp⟩
    · rw [ledgerAdd_ledger] at h
      rcases List.mem_cons.mp h with rfl | h
      · exact .inr ⟨e, List.mem_cons_self, rfl⟩
      · exact .inl h
    · exact .inr ⟨y, List.mem_cons_of_mem _ hy, htyp⟩

/-- A program for one entry adds that entry, erase intents and disarms. -/
theorem ledger_new (d : Dev) (t typ a b c : Nat) : ∀ x ∈ ((d.ledger t typ a b c).fl t).ledger,
    x ∈ (d.fl t).ledger ∨ x.typ = typ ∨ x.typ = 4 ∨ x.typ = 2 := by
  intro x hx
  obtain ⟨more, hmore, hledger⟩ := cairn_ledger d t [{ typ := typ, a := a, b := b, c := c }]
  have hx : x ∈ ((d.cairnPut t ([{ typ := typ, a := a, b := b, c := c }] ++ more)).fl t).ledger := hledger ▸ hx
  rcases foldl_ledgerAdd_new t _ _ (d.ledgerPage t).1 x hx with h | ⟨e, he, htyp⟩
  · exact .inl (ledgerPage_ledger d t t ▸ h)
  · rw [htyp]
    rcases List.mem_cons.mp he with rfl | he
    · exact .inr (.inl rfl)
    · exact .inr (.inr (hmore e he))

/-- A program leaves the latest entry of a type that it has none of. -/
theorem ledger_lastEntry_ne (d : Dev) (t a b c : Nat) {typ typ' : Nat} (h : typ ≠ typ') (h4 : 4 ≠ typ') (h2 : 2 ≠ typ') :
    ((d.ledger t typ a b c).lastEntry t fun x => x.typ == typ') = d.lastEntry t fun x => x.typ == typ' := by
  obtain ⟨more, hmore, hledger⟩ := cairn_ledger d t [{ typ := typ, a := a, b := b, c := c }]
  have hother : ∀ x ∈ [{ typ := typ, a := a, b := b, c := c }] ++ more, x.typ ≠ typ' := by
    intro x hx
    rcases List.mem_cons.mp hx with rfl | hx
    · exact h
    · rcases hmore x hx with hx | hx
      · exact hx ▸ h4
      · exact hx ▸ h2
  have hput := foldl_ledgerAdd_lastEntry (page := (d.ledgerPage t).2) (t := t) _ hother (d.ledgerPage t).1
  exact ((congrArg (List.find? _) hledger).trans hput).trans (congrArg (List.find? _) (ledgerPage_ledger d t t))

/-- The old ledger blocks are erased with their intents: nothing but intents and disarms is added, and the summary stays the latest of its type. -/
theorem foldl_ledgerErase (t : Nat) (old : List Nat) (d : Dev) :
    (∀ x ∈ ((old.foldl (fun d b => d.ledgerErase t b) d).fl t).ledger, x ∈ (d.fl t).ledger ∨ x.typ = 4 ∨ x.typ = 2) ∧
    (∀ x ∈ (d.fl t).ledger, x ∈ ((old.foldl (fun d b => d.ledgerErase t b) d).fl t).ledger) ∧
    ((old.foldl (fun d b => d.ledgerErase t b) d).lastEntry t fun x => x.typ == 16) = d.lastEntry t fun x => x.typ == 16 := by
  induction old generalizing d with
  | nil => exact ⟨fun x hx => .inl hx, fun x hx => hx, rfl⟩
  | cons b old ih =>
    have hone : ((d.ledgerErase t b).fl t).ledger = ((d.ledger t 4 b).fl t).ledger := onBlk_ledger ..
    obtain ⟨hnew, hkept, hlast⟩ := ih (d.ledgerErase t b)
    rw [hone] at hnew hkept
    refine ⟨fun x hx => ?_, fun x hx => hkept x (cairn_keeps_ledger d t _ x hx), ?_⟩
    · rcases hnew x hx with hx | hx
      · rcases ledger_new d t 4 b 0 0 x hx with hx | hx | hx
        · exact .inl hx
        · exact .inr (.inl hx)
        · exact .inr hx
      · exact .inr hx
    · have hledger : (d.ledgerErase t b).lastEntry t (fun x => x.typ == 16) = (d.ledger t 4 b).lastEntry t fun x => x.typ == 16 :=
        congrArg (List.find? _) hone
      exact hlast.trans (hledger.trans (ledger_lastEntry_ne d t b 0 0 (by decide) (by decide) (by decide)))

/-! ### An erased block (R158) -/

/-- A blank block that keeps wear in reserve: its state and wear, its done entry, and the zone. -/
theorem eraseBlank_effect {d : Dev} {t b : Nat}
    (h : ¬ (60000 ≤ (d.blk t b).wear + (if (d.blk t b).tlc = true then 20 else 1) ∧ dieOf b ≠ ledgerDie)) :
    ((d.eraseBlank t b).blk t b).state = 0 ∧
    ((d.eraseBlank t b).blk t b).wear = (d.blk t b).wear + (if (d.blk t b).tlc = true then 20 else 1) ∧
    ((d.eraseBlank t b).fl t).zone = (d.fl t).zone + (if dieOf b = ledgerDie then 0 else d.blkRecs) ∧
    (((d.eraseBlank t b).lastEntry t fun x => x.typ == 5).map fun x => x.a) = some b := by
  unfold Dev.eraseBlank
  extract_lets x w put wiped
  rw [if_neg h]
  have hwiped : wiped.blk t b = { put.blk t b with wear := w, tlc := false, state := 0, refresh := false } := blk_onBlk ..
  have hzone : (wiped.fl t).zone = (d.fl t).zone :=
    (fl_onFl_field (π := TileFlash.zone) put t t).trans (congrArg TileFlash.zone (ledger_offLedger d t t 5 b (bit x.tlc) 0 false) :)
  have hchange : ChangesOnly [.expo, .flash] d wiped := .step Dev.onBlk_foot (by decide) (Dev.ledger_foot.mono (by decide))
  have hrecs : wiped.blkRecs = d.blkRecs := by
    unfold Dev.blkRecs
    rw [hchange.strata_eq (by decide)]
  have hledger : (wiped.fl t).ledger = (put.fl t).ledger := onBlk_ledger ..
  obtain ⟨_, _, _, hlast, -⟩ := cairn_lastEntry d t { typ := 5, a := b, b := bit x.tlc }
    (by decide : (5 : Nat) ≠ 4) (by decide : (5 : Nat) ≠ 2)
  have hput : ((put.lastEntry t fun x => x.typ == 5).map fun x => x.a) = some b := congrArg (Option.map fun x => x.a) hlast
  have hentry : ((wiped.lastEntry t fun x => x.typ == 5).map fun x => x.a) = some b := by
    unfold Dev.lastEntry at hput ⊢
    rw [hledger]
    exact hput
  clear_value wiped
  by_cases hdie : dieOf b = ledgerDie
  · rw [if_pos hdie, if_pos hdie]
    exact ⟨congrArg Block.state hwiped, congrArg Block.wear hwiped, hzone, hentry⟩
  · rw [if_neg hdie, if_neg hdie, blk_onFl, fl_onFl]
    refine ⟨congrArg Block.state hwiped, congrArg Block.wear hwiped, ?_, ?_⟩
    · dsimp only
      rw [hzone, hrecs]
    · unfold Dev.lastEntry at hentry ⊢
      rw [fl_onFl]
      exact hentry

end Sys2Proof.Machine
end

section
set_option Elab.async false
/-! LEMMAS. Checkpoints, summaries, failures and erases of the image log (chapter 06). -/

namespace Sys2Proof.Machine

theorem strataLog_checkpoints :
    (∀ s (t : Fin 8) dt, s.dev.flashMay t.val = true → (s.dev.fl t.val).ckptRun = none →
      (1048576 ≤ (s.dev.fl t.val).tail.length ∨ 60000000000 ≤ (s.dev.elapse dt).since (s.dev.fl t.val).ckptAt) →
      Runs (.locatorCheckpoint t dt) s [.flash, .qtz] fun e =>
        (e.fl t.val).ckptRun = some (s.dev.fl t.val).tail ∧ (e.fl t.val).tail = [] ∧ (e.fl t.val).ckptAt = (s.dev.elapse dt).now) ∧
    (∀ s (t : Fin 8) dt, s.dev.flashMay t.val = true → (s.dev.fl t.val).ckptRun.isSome = true →
      Runs (.checkpointCommit t dt) s [.expo, .flash, .qtz] fun e =>
        (e.fl t.val).ckptRun = none ∧ (e.fl t.val).ckptNo = (s.dev.fl t.val).ckptNo + 1 ∧
        ((e.lastEntry t.val fun x : LedgerEntry => x.typ == 0x08).map fun x : LedgerEntry => (x.a, x.ext)) =
          some ((s.dev.fl t.val).ckptNo + 1, (List.range 8).map fun i : Nat => e.metaAddr t.val 9 i) ∧
        (∀ b ∈ (e.fl t.val).blocks, b.2.state ≠ 8)) := by
  refine ⟨fun s t dt hmay hnone hdue => ?_, fun s t dt hmay hrun => ?_⟩
  · have hdue : (decide (60000000000 ≤ (s.dev.elapse dt).since (s.dev.fl t.val).ckptAt) ||
        decide (1048576 ≤ (s.dev.fl t.val).tail.length)) = true := by simpa [or_comm] using hdue
    have hcond : ((s.dev.fl t.val).ckptRun.isNone && (decide (60000000000 ≤ (s.dev.elapse dt).since (s.dev.fl t.val).ckptAt) ||
        decide (1048576 ≤ (s.dev.fl t.val).tail.length)) && s.dev.flashMay t.val) = true := by rw [hnone, hdue, hmay]; rfl
    refine .of_dev execLocatorCheckpoint_foot (by decide) rfl rfl (if_pos hcond) ?_
    have hidle : ¬ ((s.dev.elapse dt).fl t.val).ckptRun.isSome = true := by
      rw [Option.isSome_iff_ne_none]
      exact not_not_intro hnone
    unfold Dev.ckptStart
    rw [if_neg hidle, fl_onFl]
    exact ⟨rfl, rfl, rfl⟩
  · have hcond : ((s.dev.fl t.val).ckptRun.isSome && s.dev.flashMay t.val) = true := by rw [hrun, hmay]; rfl
    refine .of_dev execCheckpointCommit_foot (by decide) rfl rfl (if_pos hcond) ?_
    extract_lets written
    have hlasting : (written.fl t.val).lasting = (s.dev.fl t.val).lasting := ckptWrite_lasting (s.dev.elapse dt) t.val t.val
    clear_value written
    have hno : (written.fl t.val).ckptNo = (s.dev.fl t.val).ckptNo := congrArg Prod.fst hlasting
    obtain ⟨_, _, _, hlast, -⟩ := cairn_lastEntry written t.val
      { typ := 8, a := (written.fl t.val).ckptNo + 1, ext := (List.range 8).map fun i => written.metaAddr t.val 9 i }
      (by decide : (8 : Nat) ≠ 4) (by decide : (8 : Nat) ≠ 2)
    have hrest := cairn_offLedger written t.val t.val
      [{ typ := 8, a := (written.fl t.val).ckptNo + 1, ext := (List.range 8).map fun i => written.metaAddr t.val 9 i }]
    generalize written.cairn t.val _ = put at hlast hrest ⊢
    have hmetas : (put.fl t.val).metas = (written.fl t.val).metas := (congrArg TileFlash.metas hrest :)
    have hputNo : (put.fl t.val).ckptNo = (written.fl t.val).ckptNo := (congrArg TileFlash.ckptNo hrest :)
    simp only [Dev.lastEntry, Dev.metaAddr, Dev.metaAt, fl_onFl] at hlast ⊢
    refine ⟨trivial, by rw [hputNo, hno], ?_, ?_⟩
    · rw [hlast, hmetas, hno]
      rfl
    · intro b hb
      obtain ⟨x, -, rfl⟩ := List.mem_map.mp hb
      dsimp only
      split
      · exact (by decide : (6 : Nat) ≠ 8)
      · assumption

/-- The ledger after a summary of what `kept` holds: the summary's record, and besides it intents and disarms. -/
theorem summary_effect (d : Dev) (t first n upto : Nat) (kept : List LedgerEntry) (old : List Nat) :
    let e := old.foldl (fun d b => d.ledgerErase t b) ((d.onFl t fun f => { f with ledger := kept }).ledger t 0x10 first n upto)
    (((e.lastEntry t fun x => x.typ == 0x10).map fun x => x.c) = some upto) ∧
    (∀ x ∈ (e.fl t).ledger, x ∈ kept ∨ x.typ = 0x10 ∨ x.typ = 0x04 ∨ x.typ = 0x02) ∧ (∀ x ∈ kept, x ∈ (e.fl t).ledger) := by
  have hkept : ((d.onFl t fun f => { f with ledger := kept }).fl t).ledger = kept := by rw [fl_onFl]
  generalize d.onFl t (fun f => { f with ledger := kept }) = d at hkept ⊢
  obtain ⟨_, _, _, hfirst, -⟩ := cairn_lastEntry d t { typ := 16, a := first, b := n, c := upto }
    (by decide : (16 : Nat) ≠ 4) (by decide : (16 : Nat) ≠ 2)
  obtain ⟨hnew, hold, hlast⟩ := foldl_ledgerErase t old (d.ledger t 16 first n upto)
  refine ⟨?_, fun x hx => ?_, fun x hx => hold x (cairn_keeps_ledger d t _ x (hkept ▸ hx))⟩
  · rw [hlast]
    exact congrArg (Option.map fun x => x.c) hfirst
  · rcases hnew x hx with h | h
    · rw [← hkept]
      exact ledger_new d t 16 first n upto x h
    · exact .inr (.inr h)

theorem strataLog_summary (s : State) (t : Fin 8) (dt : Nat) (hdue : 268435456 ≤ (s.dev.fl t.val).sinceSummary) (hsafe : s.dev.pkg.safe = 0)
    (hiso : (s.dev.tile t.val).isolated = false) :
    Runs (.ledgerSummary t dt) s [.expo, .flash, .qtz] fun e =>
      (e.fl t.val).sinceSummary = 0 ∧ ((e.lastEntry t.val fun x : LedgerEntry => x.typ == 0x10).map fun x : LedgerEntry => x.c) =
        some ((s.dev.fl t.val).nextLseq - 1) ∧
      (∀ x ∈ (e.fl t.val).ledger, x ∈ (s.dev.fl t.val).ledger ∨ x.typ = 0x10 ∨ x.typ = 0x04 ∨ x.typ = 0x02) ∧
      (∀ x ∈ (s.dev.fl t.val).ledger, s.dev.keepEntry (s.dev.fl t.val).ledger x = true → x ∈ (e.fl t.val).ledger) := by
  have hheld : s.dev.flashHeld = false := by simp [Dev.flashHeld, hsafe]
  have hcond : (decide (268435456 ≤ (s.dev.fl t.val).sinceSummary) && !s.dev.flashHeld && !(s.dev.tile t.val).isolated) = true := by
    rw [decide_eq_true hdue, hheld, hiso]
    rfl
  refine .of_dev execLedgerSummary_foot (by decide) rfl rfl (if_pos hcond) ?_
  extract_lets kept old first put summed erased
  obtain ⟨hlast, hnew, hkept⟩ : (((erased.lastEntry t.val fun x => x.typ == 0x10).map fun x => x.c) = some ((s.dev.fl t.val).nextLseq - 1)) ∧
      (∀ x ∈ (erased.fl t.val).ledger, x ∈ kept ∨ x.typ = 0x10 ∨ x.typ = 0x04 ∨ x.typ = 0x02) ∧
      (∀ x ∈ kept, x ∈ (erased.fl t.val).ledger) :=
    summary_effect put t.val first (summaryBodies kept).length _ kept old
  clear_value erased
  simp only [Dev.lastEntry, fl_onFl] at hlast ⊢
  refine ⟨trivial, hlast, fun x hx => (hnew x hx).imp_left fun h => (List.mem_filter.mp h).1, fun x hx hkeep => hkept x ?_⟩
  exact List.mem_filter.mpr ⟨hx, hkeep⟩

/-- A failed block is out of the log, or waits for its refresh. -/
theorem blockFails_effect (d : Dev) (t b reason : Nat) (lost soft : List Nat) :
    ((d.blockFails t b reason lost soft).blk t b).state = 4 ∨ ((d.blockFails t b reason lost soft).blk t b).state = 5 ∨
      ((d.blockFails t b reason lost soft).blk t b).state = 6 ∨
      ((d.blockFails t b reason lost soft).blk t b).state = 2 ∧ ((d.blockFails t b reason lost soft).blk t b).refresh = true := by
  unfold Dev.blockFails
  extract_lets freed moved
  clear_value moved
  split
  · rcases (badBlock_effect moved t b reason).1 with h | h | ⟨h, -⟩
    · exact .inl h
    · exact .inr (.inr (.inl h))
    · exact .inr (.inl h)
  · rw [blk_onBlk]
    exact .inr (.inr (.inr ⟨rfl, rfl⟩))

/-- A block that is no programmed block of a data die is retired or remapped by its BAD_BLOCK record. -/
theorem badBlock_out {d : Dev} {t b : Nat} (reason : Nat) (h : dieOf b = ledgerDie ∨ (d.blk t b).state = 3) :
    ((d.badBlock t b reason).blk t b).state = 4 ∨ ((d.badBlock t b reason).blk t b).state = 6 := by
  rcases (badBlock_effect d t b reason).1 with h4 | h6 | ⟨-, hdie, hstate⟩
  · exact .inl h4
  · exact .inr h6
  · rcases h with h | h
    · exact absurd h hdie
    · omega

theorem strataLog_failures :
    (∀ s (t : Fin 8) (blk : BitVec 21) (reason : Fin 4) (lost soft : List Nat) (statusFail : Bool) dt, dieOf blk.toNat = ledgerDie →
      Runs (.flashOpFail t blk reason lost soft statusFail false dt) s [.expo, .strata, .flash, .flint, .qtz] fun e =>
        ((e.blk t.val blk.toNat).state = 6 ∨ (e.blk t.val blk.toNat).state = 4) ∧
        ((e.lastEntry t.val fun x : LedgerEntry => x.typ == 0x07).map fun x : LedgerEntry => x.a) = some blk.toNat) ∧
    (∀ s (t : Fin 8) (blk : BitVec 21) (reason : Fin 4) (lost soft : List Nat) (statusFail : Bool) dt, dieOf blk.toNat = ledgerDie →
      Runs (.flashOpFail t blk reason lost soft statusFail true dt) s [.expo, .strata, .flash, .flint, .qtz] fun e =>
        e.flint = (s.dev.raise (tsrc t.val 36) 0x81 3).flint ∧ e.flash = s.dev.flash) ∧
    (∀ s (t : Fin 8) (blk : BitVec 21) (reason : Fin 4) (lost soft : List Nat) (statusFail : Bool) dt, dieOf blk.toNat ≠ ledgerDie →
      (s.dev.fl t.val).diesRetired.contains (dieOf blk.toNat) = false → (s.dev.blk t.val blk.toNat).state ≠ 4 →
      Runs (.flashOpFail t blk reason lost soft statusFail true dt) s [.expo, .strata, .flash, .flint, .qtz] fun e =>
        (e.fl t.val).diesRetired.contains (dieOf blk.toNat) = true) ∧
    (∀ s (t : Fin 8) (blk : BitVec 21) (reason : Fin 4) (lost soft : List Nat) dt, dieOf blk.toNat ≠ ledgerDie →
      (s.dev.fl t.val).diesRetired.contains (dieOf blk.toNat) = false → (s.dev.blk t.val blk.toNat).state ≠ 4 →
      Runs (.flashOpFail t blk reason lost soft false false dt) s [.expo, .strata, .flash, .flint, .qtz] fun e =>
        (e.blk t.val blk.toNat).state = 4 ∨ (e.blk t.val blk.toNat).state = 5 ∨ (e.blk t.val blk.toNat).state = 6 ∨
        ((e.blk t.val blk.toNat).state = 2 ∧ (e.blk t.val blk.toNat).refresh = true)) := by
  refine ⟨fun s t blk reason lost soft fail dt hdie => ?_, fun s t blk reason lost soft fail dt hdie => ?_,
    fun s t blk reason lost soft fail dt hdie hlive hstate => ?_, fun s t blk reason lost soft dt hdie hlive hstate => ?_⟩
  · refine .of_dev execFlashOpFail_foot (by decide) rfl rfl ((if_pos hdie).trans (if_neg Bool.false_ne_true)) ?_
    exact ⟨(badBlock_out reason.val (.inl hdie)).symm, (badBlock_effect _ t.val blk.toNat reason.val).2⟩
  · refine .of_dev execFlashOpFail_foot (by decide) rfl rfl ((if_pos hdie).trans (if_pos rfl)) ?_
    exact ⟨raise_flint_congr (d := s.dev.elapse dt) (e := s.dev) rfl rfl .., (Dev.raise_foot.same .flash (by decide)).symm⟩
  all_goals have hgo : ¬ ((s.dev.fl t.val).diesRetired.contains (dieOf blk.toNat) = true ∨ (s.dev.blk t.val blk.toNat).state = 4) :=
      not_or.mpr ⟨Bool.eq_false_iff.mp hlive, hstate⟩
  · refine .of_dev execFlashOpFail_foot (by decide) rfl rfl ((if_neg hdie).trans ((if_neg hgo).trans (if_pos rfl))) ?_
    refine retireDie_retired ?_ hdie
    rw [fl_onFl]
    exact hlive
  · refine .of_dev execFlashOpFail_foot (by decide) rfl rfl ((if_neg hdie).trans ((if_neg hgo).trans (if_neg ?_))) ?_
    · rw [Bool.and_false]
      exact Bool.false_ne_true
    · exact blockFails_effect ..

theorem strataLog_erases :
    (∀ s (t : Fin 8) (blk : BitVec 21) dt n, (s.dev.elapse dt).eraseLevel t.val = some n → s.dev.erasable t.val blk.toNat = true →
      (s.dev.elapse dt).flashTurn t.val n 2 = true →
      Runs (.backgroundErase t blk dt) s [.expo, .flash, .qtz] fun e =>
        (e.blk t.val blk.toNat).state = 3 ∨ blk.toNat ∈ (e.fl t.val).intentQ) ∧
    (∀ s (t : Fin 8) (blk : BitVec 21) dt n, (s.dev.elapse dt).eraseLevel t.val = some n → s.dev.erasable t.val blk.toNat = true →
      (s.dev.elapse dt).flashTurn t.val n 2 = true → (s.dev.fl t.val).intentQ = [] → tget s.dev.expo.armProg none t.val = none →
      Runs (.backgroundErase t blk dt) s [.expo, .flash, .qtz] fun e =>
        (e.blk t.val blk.toNat).state = 3 ∧
        ((e.lastEntry t.val fun x : LedgerEntry => x.typ == 0x04).map fun x : LedgerEntry => x.a) = some blk.toNat) := by
  refine ⟨fun s t blk dt n hlevel herasable hturn => ?_, fun s t blk dt n hlevel herasable hturn hq hprog => ?_⟩
  all_goals have hgo : ¬ ((!s.dev.erasable t.val blk.toNat) || !(s.dev.elapse dt).flashTurn t.val n 2) = true := by simp [herasable, hturn]
  · refine .of_dev execBackgroundErase_foot (by decide) rfl rfl
      (e := if (tget s.dev.expo.armProg none t.val).isSome = true then
          ((s.dev.elapse dt).onFl t.val fun f => { f with intentQ := f.intentQ ++ [blk.toNat] }).flashServed t.val 2
        else (((s.dev.elapse dt).onFl t.val fun f => { f with intentQ := f.intentQ ++ [blk.toNat] }).flashServed t.val 2).cairn t.val []) ?_ ?_
    · dsimp only
      rw [hlevel]
      exact if_neg hgo
    · have hqueued : blk.toNat ∈ ((((s.dev.elapse dt).onFl t.val fun f => { f with intentQ := f.intentQ ++ [blk.toNat] }).flashServed t.val 2).fl
          t.val).intentQ := by
        unfold Dev.flashServed
        rw [fl_onFl, fl_onFl]
        exact List.mem_append_right _ (List.mem_singleton_self _)
      split
      · exact .inr hqueued
      · exact cairn_intent [] hqueued
  · refine .of_dev execBackgroundErase_foot (by decide) rfl rfl
      (e := (((s.dev.elapse dt).onFl t.val fun f => { f with intentQ := f.intentQ ++ [blk.toNat] }).flashServed t.val 2).cairn t.val []) ?_ ?_
    · have hidle : ¬ (tget s.dev.expo.armProg none t.val).isSome = true := by rw [hprog]; exact Bool.false_ne_true
      dsimp only
      rw [hlevel]
      exact (if_neg hgo).trans (if_neg hidle)
    · refine cairn_only_intent ?_
      unfold Dev.flashServed
      rw [fl_onFl, fl_onFl]
      exact congrArg (· ++ [blk.toNat]) hq

/-- What ERASE_DONE does of block `b` of tile `t` before it looks at the outcome (R152, R158): it counts the wear and forgets the records and
the metadata of the block. -/
def Dev.unmapped (d : Dev) (t b : Nat) : Dev :=
  let u := if (d.blk t b).tlc then 20 else 1
  let d := d.onStrata fun s => { s with
    unitsUsed := s.unitsUsed + (if dieOf b = ledgerDie then 0 else u), erasesH := s.erasesH + (if dieOf b = ledgerDie then 0 else u)
    recs := s.recs.filter fun r => !(r.block == b && d.pageTile r.page == t) }
  let d := d.onStrata fun s => { s with
    trims := s.trims.filter fun k => s.recs.any fun r => r.context == k.context && decide (r.time < k.time) && (match k.granule with
      | none => true
      | some g => pageGran r.page == g) }
  d.onFl t fun f => { f with metas := f.metas.filter fun m => blkOf m.addr != b }

theorem unmapped_blk (d : Dev) (t b n : Nat) : (d.unmapped t b).blk t n = d.blk t n := by
  unfold Dev.unmapped
  extract_lets u d1 d2
  exact blk_onFl d2 t n

theorem unmapped_zone (d : Dev) (t b : Nat) : ((d.unmapped t b).fl t).zone = (d.fl t).zone := by
  unfold Dev.unmapped
  extract_lets u d1 d2
  exact fl_onFl_field (π := TileFlash.zone) d2 t t

theorem unmapped_recs (d : Dev) (t b : Nat) : ∀ r ∈ (d.unmapped t b).strata.recs, r.block = b → d.pageTile r.page ≠ t := by
  intro r hr hblock htile
  have hkept : (!(r.block == b && d.pageTile r.page == t)) = true := (List.mem_filter.mp hr).2
  rw [beq_iff_eq.mpr hblock, beq_iff_eq.mpr htile] at hkept
  exact Bool.false_ne_true hkept

/-- A block's erase ends well where it may: the bookkeeping goes on with the block unmapped. -/
theorem eraseDone_dev {s : State} {t : Fin 8} {blk : BitVec 21} {dt : Nat} (ok : Bool) (hstate : (s.dev.blk t.val blk.toNat).state = 3)
    (hsafe : s.dev.pkg.safe = 0) (hseal : s.dev.sealing.active = false) {P : Dev → Prop}
    (hP : P (if ok = true then ((s.dev.elapse dt).unmapped t.val blk.toNat).eraseBlank t.val blk.toNat
      else (((s.dev.elapse dt).unmapped t.val blk.toNat).onBlk t.val blk.toNat fun y =>
        { y with wear := y.wear + (if (s.dev.blk t.val blk.toNat).tlc then 20 else 1) }).badBlock t.val blk.toNat 1)) :
    Runs (.eraseDone t blk ok dt) s [.expo, .strata, .flash, .flint, .qtz] P := by
  have hheld : s.dev.flashHeld = false := by simp [Dev.flashHeld, hsafe]
  have hgo : ¬ ((s.dev.blk t.val blk.toNat).state ≠ 3 ∨ s.dev.flashHeld = true ∨
      (s.dev.sealing.active = true ∧ 2 ≤ s.dev.sealing.stage)) := by
    simp [hstate, hheld, hseal]
  exact .of_dev execEraseDone_foot (by decide) rfl rfl (if_neg hgo) hP

theorem strataLog_erased :
    (∀ s (t : Fin 8) (blk : BitVec 21) dt, (s.dev.blk t.val blk.toNat).state = 3 → s.dev.pkg.safe = 0 → s.dev.sealing.active = false →
      (s.dev.blk t.val blk.toNat).wear + (if (s.dev.blk t.val blk.toNat).tlc = true then 20 else 1) < 60000 → dieOf blk.toNat ≠ ledgerDie →
      Runs (.eraseDone t blk true dt) s [.expo, .strata, .flash, .flint, .qtz] fun e =>
        (e.blk t.val blk.toNat).state = 0 ∧
        (e.blk t.val blk.toNat).wear = (s.dev.blk t.val blk.toNat).wear + (if (s.dev.blk t.val blk.toNat).tlc = true then 20 else 1) ∧
        (e.fl t.val).zone = (s.dev.fl t.val).zone + s.dev.blkRecs ∧
        ((e.lastEntry t.val fun x : LedgerEntry => x.typ == 0x05).map fun x : LedgerEntry => x.a) = some blk.toNat ∧
        (∀ r ∈ e.strata.recs, r.block = blk.toNat → e.pageTile r.page ≠ t.val)) ∧
    (∀ s (t : Fin 8) (blk : BitVec 21) dt, (s.dev.blk t.val blk.toNat).state = 3 → s.dev.pkg.safe = 0 → s.dev.sealing.active = false →
      dieOf blk.toNat = ledgerDie →
      Runs (.eraseDone t blk true dt) s [.expo, .strata, .flash, .flint, .qtz] fun e =>
        (e.blk t.val blk.toNat).state = 0 ∧ (e.fl t.val).zone = (s.dev.fl t.val).zone) ∧
    (∀ s (t : Fin 8) (blk : BitVec 21) dt, (s.dev.blk t.val blk.toNat).state = 3 → s.dev.pkg.safe = 0 → s.dev.sealing.active = false →
      Runs (.eraseDone t blk false dt) s [.expo, .strata, .flash, .flint, .qtz] fun e =>
        (e.blk t.val blk.toNat).state = 4 ∨ (e.blk t.val blk.toNat).state = 6) := by
  refine ⟨fun s t blk dt hstate hsafe hseal hwear hdie => eraseDone_dev true hstate hsafe hseal ?_,
    fun s t blk dt hstate hsafe hseal hdie => eraseDone_dev true hstate hsafe hseal ?_,
    fun s t blk dt hstate hsafe hseal => eraseDone_dev false hstate hsafe hseal ?_⟩
  · have hblk := unmapped_blk (s.dev.elapse dt) t.val blk.toNat blk.toNat
    have hzone := unmapped_zone (s.dev.elapse dt) t.val blk.toNat
    have hrecs := unmapped_recs (s.dev.elapse dt) t.val blk.toNat
    have hdram : ((s.dev.elapse dt).unmapped t.val blk.toNat).dram = s.dev.dram := rfl
    have hpages : ((s.dev.elapse dt).unmapped t.val blk.toNat).blkRecs = s.dev.blkRecs := rfl
    rw [if_pos rfl]
    generalize (s.dev.elapse dt).unmapped t.val blk.toNat = d at hblk hzone hrecs hdram hpages ⊢
    have hblk : d.blk t.val blk.toNat = s.dev.blk t.val blk.toNat := hblk
    have hblank := eraseBlank_effect (d := d) (t := t.val) (b := blk.toNat) fun h => by
      rw [hblk] at h
      exact Nat.not_lt.mpr h.1 hwear
    rw [hblk, hzone, if_neg hdie, hpages] at hblank
    obtain ⟨h0, hworn, hfree, hdone⟩ := hblank
    refine ⟨h0, hworn, hfree, hdone, fun r hr hb => ?_⟩
    rw [Dev.eraseBlank_foot.strata_eq (by decide)] at hr
    rw [pageTile_congr ((Dev.eraseBlank_foot.same .dram (by decide)).symm.trans hdram)]
    exact hrecs r hr hb
  · have hblank := eraseBlank_effect (d := (s.dev.elapse dt).unmapped t.val blk.toNat) (t := t.val) (b := blk.toNat) fun h => h.2 hdie
    rw [if_pos hdie, unmapped_zone] at hblank
    obtain ⟨h0, -, hfree, -⟩ := hblank
    exact ⟨h0, hfree⟩
  · refine badBlock_out 1 (.inr ?_)
    rw [blk_onBlk, unmapped_blk]
    exact hstate

/-- Settles O25: each row by its branch, through what a Cairn program and a BAD_BLOCK record do to a tile's bookkeeping. -/
theorem strataLogRows : Obligations.StrataLogRows := by
  obtain ⟨hcheckpoint, hcommit⟩ := strataLog_checkpoints
  obtain ⟨hbad, hcontained, hdie, hblock⟩ := strataLog_failures
  obtain ⟨herase, hintent⟩ := strataLog_erases
  exact ⟨hcheckpoint, hcommit, strataLog_summary, hbad, hcontained, hdie, hblock, herase, hintent, strataLog_erased⟩

end Sys2Proof.Machine
end

section
set_option Elab.async false
/-! LEMMAS. Moves of records, the budget and the status of Strata (chapter 06). -/

namespace Sys2Proof.Machine

/-! ### What a move of records leaves (R145, R164): the dirty pages, the contents of DRAM, and no block retired -/

/-- From `d` to `e` the dirty pages and the contents of DRAM stay as they are, and no block is retired. -/
structure Moves (d e : Dev) : Prop where
  /-- The dirty pages are the same. -/
  dirty : e.expo.dirty = d.expo.dirty
  /-- DRAM holds the same. -/
  mem : e.mem = d.mem
  /-- A retired block was retired before. -/
  retired : ∀ t n, (e.blk t n).state = 4 → (d.blk t n).state = 4

theorem Moves.refl (d : Dev) : Moves d d := ⟨rfl, rfl, fun _ _ h => h⟩

theorem Moves.trans {d e f : Dev} (h : Moves d e) (h' : Moves e f) : Moves d f :=
  ⟨h'.dirty.trans h.dirty, h'.mem.trans h.mem, fun t n hf => h.retired t n (h'.retired t n hf)⟩

theorem Moves.foldl {α : Type} {f : Dev → α → Dev} (hf : ∀ d a, Moves d (f d a)) (l : List α) (d : Dev) : Moves d (l.foldl f d) := by
  induction l generalizing d with
  | nil => exact .refl d
  | cons a l ih => exact (hf d a).trans (ih _)

/-- An update that keeps the exposure, the flash and DRAM. -/
theorem Moves.of_foot {S : List Part} {d e : Dev} (h : ChangesOnly S d e) (hexpo : Part.expo ∉ S := by decide)
    (hflash : Part.flash ∉ S := by decide) (hmem : Part.mem ∉ S := by decide) : Moves d e :=
  ⟨by rw [h.expo_eq hexpo], h.mem_eq hmem, fun t n he => by rwa [blk_of_fl (fl_of_foot h t hflash)] at he⟩

theorem Moves.onFl (d : Dev) (t : Nat) {f : TileFlash → TileFlash} (hf : ∀ x, (f x).blocks = x.blocks := by exact fun _ => rfl) :
    Moves d (d.onFl t f) := by
  refine ⟨rfl, rfl, fun u n he => ?_⟩
  have hblocks : ((d.onFl t f).fl u).blocks = (d.fl u).blocks := fl_onFl_field (π := TileFlash.blocks) d t u hf
  rwa [Dev.blk, hblocks] at he

theorem Moves.onBlk (d : Dev) (t n : Nat) {f : Block → Block} (hf : ∀ b, (f b).state = 4 → b.state = 4) : Moves d (d.onBlk t n f) := by
  refine ⟨rfl, rfl, fun u m he => ?_⟩
  by_cases hu : u = t
  · subst hu
    by_cases hm : m = n
    · subst hm
      rw [blk_onBlk] at he
      exact hf _ he
    · rwa [blk_onBlk_ne d u f hm] at he
  · have hfl : (d.onBlk t n f).fl u = d.fl u := fl_onFl_ne d _ hu
    rwa [blk_of_fl hfl] at he

/-- A mark whose state is another than retired. -/
theorem Moves.onBlk_mark (d : Dev) (t n : Nat) {f : Block → Block} (hf : ∀ b, (f b).state ≠ 4) : Moves d (d.onBlk t n f) :=
  .onBlk d t n fun b h => absurd h (hf b)

theorem ledgerPage_moves (d : Dev) (t : Nat) : Moves d (d.ledgerPage t).1 := by
  unfold Dev.ledgerPage
  extract_lets n closed ready f
  have hready : Moves d ready := by
    unfold ready
    split
    · exact .refl d
    · refine .trans (e := closed) (.onBlk_mark d t _ fun _ => (by decide : (2 : Nat) ≠ 4)) ?_
      exact (Moves.onBlk_mark closed t n fun _ => (by decide : (1 : Nat) ≠ 4)).trans (.onFl _ t)
  exact hready.trans (.onFl ready t)

theorem cairnPut_moves (d : Dev) (t : Nat) (es : List LedgerEntry) : Moves d (d.cairnPut t es) := by
  unfold Dev.cairnPut
  extract_lets x
  exact (ledgerPage_moves d t).trans (.foldl (fun d e => .onFl d t) es x.1)

theorem cairn_moves (d : Dev) (t : Nat) (es : List LedgerEntry) : Moves d (d.cairn t es) := by
  unfold Dev.cairn
  extract_lets room ints dis put marked taken
  have hmarked : Moves put marked := .foldl (fun d b => .onBlk_mark d t b fun _ => (by decide : (3 : Nat) ≠ 4)) ints put
  have htaken : Moves marked taken := .onFl marked t
  have hend : Moves d taken := (cairnPut_moves d t _).trans (hmarked.trans htaken)
  exact ⟨hend.dirty, hend.mem, hend.retired⟩

theorem openFor_moves (d : Dev) (t k : Nat) : Moves d (d.openFor t k) := by
  unfold Dev.openFor
  split
  · exact .refl d
  · extract_lets closed opened zoned
    have hclosed : Moves d closed := by
      refine .onBlk d t _ fun b h => ?_
      dsimp only at h
      split at h
      · exact absurd h (by decide)
      · exact h
    have hopened : Moves closed opened := (Moves.onBlk_mark closed t _ fun _ => (by decide : (1 : Nat) ≠ 4)).trans (cairn_moves _ t _)
    have hzoned : Moves opened zoned := by
      unfold zoned
      split
      · exact .refl _
      · exact .onFl opened t
    exact hclosed.trans (hopened.trans (hzoned.trans (.onFl zoned t)))

theorem zoneUse_moves (d : Dev) (t k n : Nat) : Moves d (d.zoneUse t k n) := by
  unfold Dev.zoneUse
  split
  · exact .onFl d t
  · exact .refl d

theorem onFlow_moves (d : Dev) (t k : Nat) (f : FlashStream → FlashStream) : Moves d (d.onFlow t k f) := .onFl d t

theorem putMetas_moves (d : Dev) (t : Nat) (ms : List MetaRec) : Moves d (d.putMetas t ms) := .onFl d t

/-- A page of a stream but the landing one. -/
theorem takePage_moves (d : Dev) (t : Nat) {k : Nat} (hk : k ≠ 4) : Moves d (d.takePage t k).1 := by
  unfold Dev.takePage
  rw [if_neg hk]
  extract_lets opened s
  have hopened : Moves d opened := by
    unfold opened
    split
    · exact openFor_moves d t k
    · exact .refl d
  split
  · exact hopened
  · exact hopened.trans (onFlow_moves opened t k _)

theorem drawSlot_moves (d : Dev) (t : Nat) {k : Nat} (hk : k ≠ 4) (elided : Bool) : Moves d (d.drawSlot t k elided).1 := by
  unfold Dev.drawSlot
  extract_lets s zoned counted closed page
  have hpage : Moves d page.1 := takePage_moves d t hk
  have hzoned : Moves d zoned := by
    unfold zoned
    split
    · exact zoneUse_moves d t k 1
    · exact .refl d
  have hcounted : Moves d counted := hzoned.trans (onFlow_moves zoned t k _)
  have hclosed : Moves d closed := by
    unfold closed
    split
    · exact hcounted.trans (putMetas_moves counted t _)
    · exact hcounted
  clear_value closed page
  split
  · split
    · exact hclosed
    · split
      · exact hpage
      · exact hpage.trans ((zoneUse_moves page.1 t k 1).trans (onFlow_moves _ t k _))
  · split
    · exact (zoneUse_moves d t k 1).trans (onFlow_moves _ t k _)
    · split
      · exact hpage
      · exact hpage.trans ((zoneUse_moves page.1 t k 1).trans (onFlow_moves _ t k _))

theorem closePage_moves (d : Dev) (t k a : Nat) : Moves d (d.closePage t k a) := by
  unfold Dev.closePage
  extract_lets s n
  split
  · exact (putMetas_moves d t _).trans ((zoneUse_moves _ t k _).trans (onFlow_moves _ t k _))
  · split
    · exact (putMetas_moves d t _).trans ((zoneUse_moves _ t k _).trans (onFlow_moves _ t k _))
    · exact .refl d

theorem closeStream_moves (d : Dev) (t k : Nat) : Moves d (d.closeStream t k) := (closePage_moves d t k _).trans (closePage_moves _ t k _)

theorem capUse_moves (d : Dev) (t bytes : Nat) : Moves d (d.capUse t bytes) := by
  unfold Dev.capUse
  split
  · exact .refl d
  · exact .onFl d t

theorem relocate_moves (d : Dev) (t : Nat) {k : Nat} (hk : k ≠ 4) (draw : Bool) (soft : List Nat) (r : PageRec) :
    Moves d (d.relocate t k draw soft r) := by
  unfold Dev.relocate
  extract_lets x refreshed cur
  have hx : Moves d x.1 := drawSlot_moves d t hk r.elided
  have hrefreshed : Moves d refreshed := by
    unfold refreshed
    split
    · exact hx.trans (.onBlk x.1 t _ fun _ h => h)
    · exact hx
  clear_value refreshed cur
  split
  · exact .refl d
  · split
    · exact hx
    · extract_lets moved remapped used
      have hremapped : Moves refreshed remapped := .of_foot Dev.onStrata_foot
      have hused : Moves d used := hrefreshed.trans (hremapped.trans (capUse_moves remapped t _))
      split
      · exact hused.trans (.onFl used t)
      · exact hused

theorem relocateMeta_moves (d : Dev) (t : Nat) (draw : Bool) (m : MetaRec) : Moves d (d.relocateMeta t draw m) := by
  unfold Dev.relocateMeta
  extract_lets x
  have hx : Moves d x.1 := drawSlot_moves d t (by decide) false
  clear_value x
  split
  · exact .refl d
  · split
    · exact hx
    · exact hx.trans (.onFl x.1 t)

/-- Every record of a block can be read: none is lost on its way. -/
theorem moveOut_moves (d : Dev) (t b : Nat) (draw : Bool) (soft : List Nat) : Moves d (d.moveOut t b draw [] soft) := by
  unfold Dev.moveOut
  extract_lets recs metas
  have hrecs : Moves d recs := .foldl (fun d r => relocate_moves d t (k := 1) (by decide) draw soft r) _ d
  have hmetas : Moves recs metas := .foldl (fun d m => relocateMeta_moves d t draw m) _ recs
  exact hrecs.trans (hmetas.trans ((closeStream_moves metas t 1).trans (closeStream_moves _ t 3)))

/-! ### A block emptied (R145, R164) -/

theorem emptyBlock_moves (d : Dev) (t b : Nat) (soft : List Nat) : Moves d (d.emptyBlock t b [] soft) := by
  unfold Dev.emptyBlock
  extract_lets moved
  have hmoved : Moves d moved := moveOut_moves d t b false soft
  split
  · refine hmoved.trans (.onBlk moved t b fun x h => ?_)
    split at h
    · assumption
    · exact absurd h (by decide : (5 : Nat) ≠ 4)
  · exact hmoved

/-- A block that was not retired waits for a checkpoint once nothing live is left in it. -/
theorem emptyBlock_state {d : Dev} {t b : Nat} {soft : List Nat} (h : (d.blk t b).state ≠ 4) :
    (d.emptyBlock t b [] soft).blockDead t b = true → ((d.emptyBlock t b [] soft).blk t b).state = 5 := by
  unfold Dev.emptyBlock
  extract_lets moved
  have hmoved : (moved.blk t b).state ≠ 4 := mt ((moveOut_moves d t b false soft).retired t b) h
  clear_value moved
  split
  · intro _
    rw [blk_onBlk, if_neg hmoved]
  · intro hdead
    exact absurd hdead ‹_›

theorem dropTlc_moves (d : Dev) (t : Nat) : Moves d (d.dropTlc t) := by
  unfold Dev.dropTlc
  exact .foldl (fun d (b : Nat × Block) => .onBlk_mark d t b.1 fun _ => (by decide : (5 : Nat) ≠ 4)) _ d

theorem metaPut_moves (d : Dev) (t kind : Nat) (l : List (Nat × List (Nat × Nat))) : Moves d (d.metaPut t kind l) := by
  unfold Dev.metaPut
  refine (Moves.foldl (fun d x => ?_) l d).trans (closeStream_moves _ t 3)
  unfold Dev.metaOne
  extract_lets y
  have hy : Moves d y.1 := drawSlot_moves d t (by decide) false
  clear_value y
  split
  · exact hy
  · exact hy.trans (putMetas_moves y.1 t _)

theorem spaceCheck_moves (d : Dev) (t : Nat) : Moves d (d.spaceCheck t) := by
  unfold Dev.spaceCheck
  split
  · split
    · rename_i x _
      have hreleased : Moves d (d.releaseStratum x.context x.time) := by
        unfold Dev.releaseStratum
        extract_lets logged
        have hlogged : Moves d logged := .foldl (fun d t => cairn_moves d t _) _ d
        exact hlogged.trans (.trans (.of_foot Dev.onStrata_foot) (metaPut_moves _ _ _ _))
      exact hreleased.trans (.of_foot Dev.raise_foot)
    · exact .refl d
  · exact .refl d

/-! ### The rows -/

/-- Moves from the elapsed device show no dirty page and no byte of DRAM changed. -/
theorem Moves.frame {d e : Dev} {dt : Nat} (h : Moves (d.elapse dt) e) : e.expo.dirty = d.expo.dirty ∧ e.mem = d.mem := ⟨h.dirty, h.mem⟩

theorem strataBackground_moves :
    (∀ s (t : Fin 8) (soft : List Nat) dt, (s.dev.elapse dt).moveMay t.val = true →
      Runs (.garbageCollection t [] soft dt) s [.expo, .strata, .flash, .flint, .qtz] fun e =>
        e.expo.dirty = s.dev.expo.dirty ∧ e.mem = s.dev.mem) ∧
    (∀ s (t : Fin 8) (soft : List Nat) dt, (s.dev.elapse dt).moveMay t.val = true → (s.dev.tile t.val).throttle < 2 →
      (s.dev.elapse dt).drawMay t.val = true → (s.dev.elapse dt).tlcMay t.val = true →
      Runs (.coldCompaction t [] soft dt) s [.expo, .strata, .flash, .flint, .qtz] fun e =>
        e.expo.dirty = s.dev.expo.dirty ∧ e.mem = s.dev.mem) := by
  refine ⟨fun s t soft dt hmay => ?_, fun s t soft dt hmay hcool hdraw htlc => ?_⟩
  · refine .of_dev execGarbageCollection_foot (by decide) rfl rfl (if_pos hmay) ?_
    extract_lets swept vs live emptied
    have hswept : Moves (s.dev.elapse dt) swept := dropTlc_moves ..
    have hemptied : Moves swept emptied := by
      unfold emptied
      split
      · exact emptyBlock_moves ..
      · exact .refl _
    exact (hswept.trans (hemptied.trans (spaceCheck_moves emptied t.val))).frame
  · have hcond : ((s.dev.elapse dt).moveMay t.val && decide ((s.dev.tile t.val).throttle < 2) && (s.dev.elapse dt).drawMay t.val &&
        ((s.dev.elapse dt).tlcMay t.val || ((s.dev.elapse dt).slotOpen t.val 2 false || (s.dev.elapse dt).slotOpen t.val 2 true))) = true := by
      rw [hmay, decide_eq_true hcool, hdraw, htlc]
      rfl
    refine .of_dev execColdCompaction_foot (by decide) rfl rfl (if_pos hcond) ?_
    extract_lets cold left n
    refine Moves.frame (dt := dt) (.trans ?_ (dropTlc_moves _ t.val))
    exact (Moves.foldl (fun d r => relocate_moves d t.val (k := 2) (by decide) false soft r) (cold.take n) _).trans (closeStream_moves _ t.val 2)

theorem strataBackground_refresh :
    (∀ s (t : Fin 8) (blk : BitVec 21) (soft : List Nat) dt, (s.dev.elapse dt).moveMay t.val = true → (s.dev.tile t.val).throttle < 2 →
      (s.dev.elapse dt).aged (s.dev.blk t.val blk.toNat) = true →
      Runs (.retentionRefresh t blk [] soft dt) s [.expo, .strata, .flash, .flint, .qtz] fun e =>
        (e.blockDead t.val blk.toNat = true → (e.blk t.val blk.toNat).state = 5) ∧ e.expo.dirty = s.dev.expo.dirty ∧ e.mem = s.dev.mem) ∧
    (∀ s (t : Fin 8) (blk : BitVec 21) (soft : List Nat) dt, (s.dev.elapse dt).moveMay t.val = true → (s.dev.tile t.val).throttle < 2 →
      (s.dev.blk t.val blk.toNat).state = 2 → (s.dev.blk t.val blk.toNat).refresh = true →
      (s.dev.fl t.val).blocks.any (fun x : Nat × Block => (s.dev.elapse dt).aged x.2) = false →
      Runs (.retentionRefresh t blk [] soft dt) s [.expo, .strata, .flash, .flint, .qtz] fun e =>
        (e.blockDead t.val blk.toNat = true → (e.blk t.val blk.toNat).state = 5) ∧ e.expo.dirty = s.dev.expo.dirty ∧ e.mem = s.dev.mem) := by
  have hrow (s : State) (t : Fin 8) (blk : BitVec 21) (soft : List Nat) (dt : Nat) (hmay : (s.dev.elapse dt).moveMay t.val = true)
      (hcool : (s.dev.tile t.val).throttle < 2) (hstate : (s.dev.blk t.val blk.toNat).state = 2)
      (hnext : ((s.dev.elapse dt).aged (s.dev.blk t.val blk.toNat) || ((s.dev.blk t.val blk.toNat).refresh &&
        (s.dev.blk t.val blk.toNat).state == 2 && !((s.dev.fl t.val).blocks.any fun x => (s.dev.elapse dt).aged x.2))) = true) :
      Runs (.retentionRefresh t blk [] soft dt) s [.expo, .strata, .flash, .flint, .qtz] fun e =>
        (e.blockDead t.val blk.toNat = true → (e.blk t.val blk.toNat).state = 5) ∧ e.expo.dirty = s.dev.expo.dirty ∧ e.mem = s.dev.mem := by
    have hcond := Bool.and_eq_true_iff.mpr ⟨Bool.and_eq_true_iff.mpr ⟨hmay, decide_eq_true hcool⟩, hnext⟩
    refine .of_dev execRetentionRefresh_foot (by decide) rfl rfl (if_pos hcond) ?_
    have hheld : ((s.dev.elapse dt).blk t.val blk.toNat).state ≠ 4 := fun h => absurd (hstate.symm.trans h) (by decide)
    exact ⟨emptyBlock_state hheld, (emptyBlock_moves (s.dev.elapse dt) t.val blk.toNat soft).frame⟩
  refine ⟨fun s t blk soft dt hmay hcool haged => ?_, fun s t blk soft dt hmay hcool hstate hrefresh hnone => ?_⟩
  · refine hrow s t blk soft dt hmay hcool ?_ (Bool.or_eq_true_iff.mpr (.inl haged))
    exact beq_iff_eq.mp (Bool.and_eq_true_iff.mp haged).1
  · refine hrow s t blk soft dt hmay hcool hstate (Bool.or_eq_true_iff.mpr (.inr ?_))
    rw [hrefresh, hstate, hnone]
    rfl

/-! ### The budget, the borrow account and the status (R167 to R171) -/

theorem budget_effect (d : Dev) : d.budget.strata.bDay = d.budget.strata.rate * 86400 ∧ d.budget.strata.wearHist = d.strata.wearHist ∧
    (d.budget.strata.wRem ≠ 0 → d.budget.strata.rate = d.budget.strata.wRem * 1000 * 1000000000 /
      (d.budget.strata.waMilli * max (30 * day) (d.strata.lifeTarget * year - d.now))) ∧
    (d.budget.strata.wRem = 0 → d.budget.strata.rate = d.strata.rateBol / 10) := by
  unfold Dev.budget
  extract_lets w lRem rate first e
  have he : e.strata.bDay = e.strata.rate * 86400 ∧ e.strata.wearHist = d.strata.wearHist ∧
      (e.strata.wRem ≠ 0 → e.strata.rate = e.strata.wRem * 1000 * 1000000000 /
        (e.strata.waMilli * max (30 * day) (d.strata.lifeTarget * year - d.now))) ∧
      (e.strata.wRem = 0 → e.strata.rate = d.strata.rateBol / 10) := ⟨rfl, rfl, fun h => if_neg h, fun h => if_pos h⟩
  clear_value e
  split
  · rw [Dev.raise_foot.strata_eq (by decide)]
    exact he
  · exact he

theorem strataBackground_budget (s : State) (dt : Nat) : Runs (.budgetRecompute dt) s [.strata, .flint, .qtz] fun e =>
    e.strata.bDay = e.strata.rate * 86400 ∧ e.strata.wearHist.head? = some (s.dev.strata.erasesH, s.dev.strata.landedH) ∧
    (e.strata.wRem ≠ 0 → e.strata.rate = e.strata.wRem * 1000 * 1000000000 /
      (e.strata.waMilli * max (30 * day) (s.dev.strata.lifeTarget * year - (s.dev.elapse dt).now))) ∧
    (e.strata.wRem = 0 → e.strata.rate = s.dev.strata.rateBol / 10) := by
  refine .of_dev execBudgetRecompute_foot (by decide) rfl rfl rfl ?_
  extract_lets elapsed temp
  generalize hsampled : elapsed.onStrata _ = sampled
  have hstrata : sampled.strata.erasesH = s.dev.strata.erasesH ∧ sampled.strata.landedH = s.dev.strata.landedH ∧
      sampled.strata.lifeTarget = s.dev.strata.lifeTarget ∧ sampled.strata.rateBol = s.dev.strata.rateBol ∧
      sampled.now = (s.dev.elapse dt).now := by
    rw [← hsampled]
    exact ⟨rfl, rfl, rfl, rfl, rfl⟩
  obtain ⟨herases, hlanded, hlife, hbol, hnow⟩ := hstrata
  obtain ⟨hday, hhist, hrate, hend⟩ := budget_effect sampled.writeAmp
  rw [← herases, ← hlanded, ← hlife, ← hbol, ← hnow]
  exact ⟨hday, congrArg List.head? hhist, hrate, hend⟩

/-- A table whose entries and default all have the same value of a field. -/
theorem tget_map_field {α β : Type} {π : α → β} {f : α → α} {z : α} {v : β} (hf : ∀ x, π (f x) = v) (hz : π z = v)
    (l : Tbl α) (k : Nat) : π (tget (l.map fun x => (x.1, f x.2)) z k) = v := by
  induction l with
  | nil => exact hz
  | cons x l ih =>
    rw [List.map_cons, tget]
    split
    · exact hf x.2
    · exact ih

theorem strataBackground_borrow (s : State) (dt : Nat) : Runs (.borrowAccountUpdate dt) s [.strata, .flash, .flint, .qtz] fun e =>
    e.strata.borrow = s.dev.strata.borrow + sumBy tiles8 (fun t : Nat => (s.dev.fl t).landedBytes) - s.dev.strata.rate ∧
    (∀ t ∈ tiles8, (e.fl t).landedBytes = 0) := by
  refine .of_dev execBorrowAccountUpdate_foot (by decide) rfl rfl rfl ?_
  extract_lets elapsed landed account out rise emptied settled
  have hsettled : settled.strata.borrow = account ∧ ∀ t, (settled.fl t).landedBytes = 0 :=
    ⟨rfl, fun t => tget_map_field (π := TileFlash.landedBytes) (f := fun f => { f with landedBytes := 0 }) (fun _ => rfl) rfl elapsed.flash t⟩
  clear_value settled
  split
  · rw [Dev.raise_foot.strata_eq (by decide)]
    refine ⟨hsettled.1, fun t _ => ?_⟩
    rw [fl_of_foot Dev.raise_foot t]
    exact hsettled.2 t
  · exact ⟨hsettled.1, fun t _ => hsettled.2 t⟩

theorem le_maxBy {α : Type} (f : α → Nat) {l : List α} {x : α} (hx : x ∈ l) (z : Nat) : f x ≤ maxBy l z f := by
  have hrise (l : List α) (z : Nat) : z ≤ maxBy l z f := by
    induction l generalizing z with
    | nil => exact Nat.le_refl z
    | cons y l ih => exact (Nat.le_max_left z (f y)).trans (ih _)
  induction l generalizing z with
  | nil => exact absurd hx List.not_mem_nil
  | cons y l ih =>
    rcases List.mem_cons.mp hx with rfl | hx
    · exact (Nat.le_max_right z (f x)).trans (hrise l _)
    · exact ih hx _

/-- RATE and SEQ of the two Strata registers after their update. -/
theorem strataUpd_registers (d : Dev) : bits (d.strataUpd.dwGet 0x680 0) 0 20 = d.strata.rate / 1000000 % 2 ^ 20 ∧
    bits (d.strataUpd.dwGet 0x680 0) 56 8 = (bits (d.dwGet 0x680 0) 56 8 + 1) % 256 ∧
    bits (d.strataUpd.dwGet 0x688 0) 56 8 = bits (d.strataUpd.dwGet 0x680 0) 56 8 := by
  unfold Dev.strataUpd
  extract_lets x pct written seq
  have hwritten : written.dwGet 0x680 0 = _ := dwGet_dwUpd ..
  rw [dwGet_dwSet_ne _ _ _ (by decide), dwGet_dwSet]
  unfold seq
  rw [hwritten]
  generalize bits (d.dwGet 0x680 0) (64 - 8) 8 = old
  have hx : x.rate = d.strata.rate := rfl
  rw [← hx]
  unfold bits put
  omega

theorem spaceCheck_rate (d : Dev) (t : Nat) : (d.spaceCheck t).strata.rate = d.strata.rate := by
  unfold Dev.spaceCheck
  split
  · split
    · rename_i x _
      rw [Dev.raise_foot.strata_eq (by decide)]
      unfold Dev.releaseStratum
      extract_lets logged
      rw [Dev.ctxSave_foot.strata_eq (by decide)]
      have hlogged : logged.strata = d.strata := Dev.ledgerAll_foot.strata_eq (by decide)
      exact (congrArg Strata.rate hlogged :)
    · rfl
  · rfl

theorem dwGet_of_foot {S : List Part} {d e : Dev} (h : ChangesOnly S d e) (off dflt : Nat) (hS : Part.dw ∉ S := by decide) :
    e.dwGet off dflt = d.dwGet off dflt := by
  unfold Dev.dwGet
  have hdw : d.dw = e.dw := h.same .dw hS
  rw [hdw]

/-- The registers after space checks, which keep them and the rate. -/
theorem checked_registers (d : Dev) (l : List Nat) :
    bits ((l.foldl Dev.spaceCheck d).strataUpd.dwGet 0x680 0) 0 20 = d.strata.rate / 1000000 % 2 ^ 20 ∧
    bits ((l.foldl Dev.spaceCheck d).strataUpd.dwGet 0x680 0) 56 8 = (bits (d.dwGet 0x680 0) 56 8 + 1) % 256 ∧
    bits ((l.foldl Dev.spaceCheck d).strataUpd.dwGet 0x688 0) 56 8 = bits ((l.foldl Dev.spaceCheck d).strataUpd.dwGet 0x680 0) 56 8 := by
  have hrate : (l.foldl Dev.spaceCheck d).strata.rate = d.strata.rate :=
    foldl_keeps (π := fun d : Dev => d.strata.rate) (fun d t _ => spaceCheck_rate d t) d
  have hdw : (l.foldl Dev.spaceCheck d).dwGet 0x680 0 = d.dwGet 0x680 0 :=
    foldl_keeps (π := fun d : Dev => d.dwGet 0x680 0) (fun d t _ => dwGet_of_foot Dev.spaceCheck_foot 0x680 0) d
  rw [← hrate, ← hdw]
  exact strataUpd_registers _

theorem strataBackground_status (s : State) (dt : Nat) (hdue : (s.dev.elapse dt).tickDue 5 1000000000 = true) :
    Runs (.strataStatusUpdate dt) s [.pkg, .expo, .strata, .flash, .flint, .qtz, .dw] fun e =>
      bits (e.dwGet 0x680 0) 0 20 = s.dev.strata.rate / 1000000 % 2 ^ 20 ∧
      bits (e.dwGet 0x680 0) 56 8 = (bits (s.dev.dwGet 0x680 0) 56 8 + 1) % 256 ∧
      bits (e.dwGet 0x688 0) 56 8 = bits (e.dwGet 0x680 0) 56 8 :=
  .of_dev execStrataStatusUpdate_foot (by decide) rfl rfl (if_pos hdue) (checked_registers _ _)

theorem strataBackground_wear (s : State) (t : Fin 8) (die : Fin 127) (soft : List Nat) (dt : Nat) (b x : Nat × Block)
    (hmay : (s.dev.elapse dt).moveMay t.val = true) (hlive : s.dev.liveDie t.val die.val = true)
    (hnew : ((s.dev.fl t.val).blocks.countP fun y : Nat × Block => dieOf y.1 == die.val && y.2.state != 4) < s.dev.dieBlocks)
    (hx : x ∈ (s.dev.fl t.val).blocks) (hdie : dieOf x.1 = die.val) (hstate : x.2.state ≠ 4) (hworn : 2000 < x.2.wear)
    (hleast : argMin ((s.dev.fl t.val).blocks.filter fun y : Nat × Block => dieOf y.1 == die.val && y.2.state != 4 && y.2.state == 2)
      (fun y : Nat × Block => y.2.wear * 2 ^ 64 + y.2.progTime) = some b) (hb : s.dev.blk t.val b.1 = b.2) :
    Runs (.wearLeveling t die [] soft dt) s [.expo, .strata, .flash, .flint, .qtz] fun e =>
      (e.blockDead t.val b.1 = true → (e.blk t.val b.1).state = 5) ∧ e.expo.dirty = s.dev.expo.dirty ∧ e.mem = s.dev.mem := by
  have hfilter : (((s.dev.fl t.val).blocks.filter fun y => dieOf y.1 == die.val && y.2.state != 4).filter fun y => y.2.state == 2) =
      (s.dev.fl t.val).blocks.filter fun y => dieOf y.1 == die.val && y.2.state != 4 && y.2.state == 2 := by
    rw [List.filter_filter]
    exact List.filter_congr fun y _ => Bool.and_comm ..
  have hheld : (s.dev.blk t.val b.1).state = 2 := by
    rw [hb]
    exact beq_iff_eq.mp (Bool.and_eq_true_iff.mp (List.mem_filter.mp (Kept.argMin_mem hleast)).2).2
  have hhigh : 2000 < maxBy ((s.dev.fl t.val).blocks.filter fun y => dieOf y.1 == die.val && y.2.state != 4) 0 (fun y => y.2.wear) := by
    refine hworn.trans_le (le_maxBy (fun y : Nat × Block => y.2.wear) (List.mem_filter.mpr ⟨hx, ?_⟩) 0)
    simp [hdie, hstate]
  have hfew : ((s.dev.fl t.val).blocks.filter fun y => dieOf y.1 == die.val && y.2.state != 4).length < s.dev.dieBlocks := by
    rwa [← List.countP_eq_length_filter]
  refine .of_dev execWearLeveling_foot (by decide) rfl rfl (e := (s.dev.elapse dt).emptyBlock t.val b.1 [] soft) ?_ ?_
  · have hgap (lo : Nat) : 2000 < maxBy ((s.dev.fl t.val).blocks.filter fun y => dieOf y.1 == die.val && y.2.state != 4) 0 (fun y => y.2.wear) -
        (if ((s.dev.fl t.val).blocks.filter fun y => dieOf y.1 == die.val && y.2.state != 4).length < s.dev.dieBlocks then 0 else lo) := by
      rw [if_pos hfew, Nat.sub_zero]
      exact hhigh
    refine (if_pos (Bool.and_eq_true_iff.mpr ⟨Bool.and_eq_true_iff.mpr ⟨hmay, decide_eq_true (hgap _)⟩, hlive⟩)).trans ?_
    have hpick := (congrArg (fun l => argMin l fun y : Nat × Block => y.2.wear * 2 ^ 64 + y.2.progTime) hfilter).trans hleast
    exact congrArg (fun o : Option (Nat × Block) => match o with
      | some b => (s.dev.elapse dt).emptyBlock t.val b.1 [] soft
      | none => s.dev.elapse dt) hpick
  · have hkept : ((s.dev.elapse dt).blk t.val b.1).state ≠ 4 := fun h => absurd (hheld.symm.trans h) (by decide)
    exact ⟨emptyBlock_state hkept, (emptyBlock_moves (s.dev.elapse dt) t.val b.1 soft).frame⟩

/-- Settles O26: the moves by what a move of records leaves, the reports by their formulas. -/
theorem strataBackgroundRows : Obligations.StrataBackgroundRows := by
  obtain ⟨hcollect, hcompact⟩ := strataBackground_moves
  obtain ⟨haged, hmarked⟩ := strataBackground_refresh
  exact ⟨hcollect, hcompact, haged, hmarked, strataBackground_wear, strataBackground_budget, strataBackground_borrow, strataBackground_status⟩

end Sys2Proof.Machine
end

section
set_option Elab.async false
/-! LEMMAS. Job commands: what is sent, the checks of R403, and the answer. -/

namespace Sys2Proof.Machine

/-! ### What is sent (R397, R398): nothing that went out before is lost -/

/-- From `d` to `e` the device has sent more, and nothing less. -/
def Grown (d e : Dev) : Prop := ∃ sent, e.out = sent ++ d.out

theorem Grown.of_out {d e : Dev} (h : e.out = d.out) : Grown d e := ⟨[], h⟩

theorem Grown.of_foot {S : List Part} {d e : Dev} (h : ChangesOnly S d e) (hS : Part.out ∉ S := by decide) : Grown d e := .of_out (h.out_eq hS)

theorem Grown.trans {d e f : Dev} (h : Grown d e) (h' : Grown e f) : Grown d f := by
  obtain ⟨sent, hsent⟩ := h
  obtain ⟨sent', hsent'⟩ := h'
  exact ⟨sent' ++ sent, by rw [hsent', hsent, List.append_assoc]⟩

theorem Grown.emit (d : Dev) (o : Out) : Grown d (d.emit o) := ⟨[o], rfl⟩

theorem pump_grown (l n : Nat) (d : Dev) : Grown d (d.pump l n) := by
  induction n generalizing d with
  | zero => exact .of_out rfl
  | succ n ih =>
    unfold Dev.pump
    extract_lets k
    split
    · exact .of_out rfl
    · split
      · exact .of_out rfl
      · split
        · exact .of_out rfl
        · rename_i vl drr _ _ f _
          exact (Grown.emit d (frameOut l k.txNext f)).trans (.trans (.of_foot Dev.onLink_foot) (ih _))

theorem sendMsg_grown (d : Dev) (uid svc vl : Nat) (body : List Nat) (data : List Byte) : Grown d (d.sendMsg uid svc vl body data) := by
  unfold Dev.sendMsg
  split
  · exact .emit d _
  · split
    · exact .of_foot Dev.latDiscard_foot
    · unfold Dev.sendNode
      split
      · exact .emit d _
      · extract_lets cs n
        split
        · exact .of_foot Dev.latDiscard_foot
        · unfold Dev.sendFrames
          extract_lets frames
          exact .trans (.of_foot Dev.onLink_foot) (pump_grown _ _ _)

/-! ### A response (R397) -/

/-- What a response does: it goes out, a head's mailbox shows it, and the background slots stay. -/
theorem respond_effect (d : Dev) (c : Caller) (op ret ext : Nat) (bg : Bool) (out : List Byte) :
    (∃ sent, (d.respond c op ret ext bg out).out = sent ++ Out.resp c.p op c.tag ret ext bg out :: d.out) ∧
    (c.p < 2 → (d.respond c op ret ext bg out).head c.p =
      { d.head c.p with mboxBusy := false, mboxRet := ret, mboxExt := ext, mboxOut := out }) ∧
    (d.respond c op ret ext bg out).bgOf c.p = d.bgOf c.p := by
  unfold Dev.respond
  extract_lets mine cleared shown idle sent
  have hshown : shown.out = d.out ∧ shown.jcs.sbBg = d.jcs.sbBg ∧ (c.p < 2 →
      shown.head c.p = { d.head c.p with mboxBusy := false, mboxRet := ret, mboxExt := ext, mboxOut := out }) := by
    unfold shown
    split
    · exact ⟨rfl, rfl, fun _ => head_onHead ..⟩
    · exact ⟨rfl, rfl, fun h => absurd h ‹_›⟩
  clear_value shown
  have hidle : idle.out = shown.out ∧ idle.jcs.sbBg = shown.jcs.sbBg ∧ idle.heads = shown.heads := by
    unfold idle
    split <;> exact ⟨rfl, rfl, rfl⟩
  clear_value idle
  obtain ⟨hout, hsb, hhead⟩ := hshown
  obtain ⟨hidleOut, hidleSb, hidleHeads⟩ := hidle
  have hend (e : Dev) (hgrown : Grown sent e) (hheads : e.heads = idle.heads) (hjcs : e.jcs = idle.jcs) :
      (∃ sent, e.out = sent ++ Out.resp c.p op c.tag ret ext bg out :: d.out) ∧
      (c.p < 2 → e.head c.p = { d.head c.p with mboxBusy := false, mboxRet := ret, mboxExt := ext, mboxOut := out }) ∧
      e.bgOf c.p = d.bgOf c.p := by
    have heq (h : Nat) : e.head h = shown.head h := by rw [Dev.head, hheads, hidleHeads, Dev.head]
    refine ⟨?_, fun hp => (heq _).trans (hhead hp), ?_⟩
    · obtain ⟨more, hmore⟩ := hgrown
      have hsent : sent.out = Out.resp c.p op c.tag ret ext bg out :: d.out := congrArg (_ :: ·) (hidleOut.trans hout)
      exact ⟨more, by rw [hmore, hsent]⟩
    · unfold Dev.bgOf
      split
      · rw [heq, hhead ‹_›]
      · rw [hjcs, hidleSb, hsb]
  split
  · exact hend _ (sendMsg_grown ..) (Dev.sendMsg_foot.same .heads (by decide)).symm (Dev.sendMsg_foot.same .jcs (by decide)).symm
  · exact hend _ (.of_out rfl) rfl rfl

/-- The footprint of what follows a command's effect: its response, and the mirror of it. -/
abbrev answerParts : List Part := [.flint, .lat, .heads, .jcs, .mirror, .out]

/-- A response of a caller whose command has no tag is the answer, once nothing sent was lost and only the mirror follows. -/
theorem answered_respond {d d1 : Dev} (hgrown : Grown d d1) (b : Fin 4) (uid op ret ext : Nat) (bg : Bool) (out : List Byte) {e : Dev}
    (he : ChangesOnly [.mirror] (d1.respond (caller b uid) op ret ext bg out) e) : Answered d e b.val op ret ext bg out := by
  obtain ⟨⟨sent, hsent⟩, hhead, -⟩ := respond_effect d1 (caller b uid) op ret ext bg out
  obtain ⟨before, hbefore⟩ := hgrown
  have hout : e.out = sent ++ Out.resp b.val op 0 ret ext bg out :: (before ++ d.out) := by rw [he.out_eq (by decide), hsent, hbefore]
  refine ⟨?_, fun hb => ?_⟩
  · have hmem : Out.resp b.val op 0 ret ext bg out ∈ (sent ++ Out.resp b.val op 0 ret ext bg out :: before) :=
      List.mem_append_right _ List.mem_cons_self
    have hsplit : e.out = (sent ++ Out.resp b.val op 0 ret ext bg out :: before) ++ d.out := by
      rw [hout, List.append_assoc, List.cons_append]
    rw [hsplit, List.length_append, Nat.add_sub_cancel, List.take_left]
    exact hmem
  · have hheads : e.head b.val = (d1.respond (caller b uid) op ret ext bg out).head b.val := by
      rw [Dev.head, he.heads_eq (by decide), Dev.head]
    rw [hheads, hhead hb]
    exact ⟨rfl, rfl, rfl, rfl⟩

/-! ### A command that passes the checks of R403 -/

/-- The use of a lease, and the command in progress, are in the job bookkeeping alone. -/
theorem useLease_jcs (d : Dev) (c : Caller) (res : List Nat) : ∃ j, d.useLease c res = d.onJcs fun _ => j := by
  unfold Dev.useLease
  induction res generalizing d with
  | nil => exact ⟨d.jcs, rfl⟩
  | cons r res ih =>
    rw [List.foldl_cons]
    split
    · obtain ⟨j, hj⟩ := ih (d.onJcs fun j => { j with leases := tmod j.leases {} r fun l => { l with last := d.now } })
      exact ⟨j, hj⟩
    · exact ih d

theorem mirror_foot (d : Dev) (chg : Bool) : ChangesOnly [.mirror] d (if chg = true then d.mirrorNow else d) := by
  split
  · exact Dev.mirrorNow_foot
  · exact .refl _ _

/-- An admitted command: commands are answered, its row is known, and no gate of the row refuses it. -/
structure Admitted (d : Dev) (op : Nat) (c : Caller) (p : List Byte) (r : CmdRow) : Prop where
  serves : ¬ ((!d.answers) = true ∨ (d.pkg.bedrock = true ∧ 2 ≤ c.p))
  row : cmdRow op = some r
  admission : d.admission r c p = 0
  gate : (d.notOwner r c p).or (if r.chg = true then d.leaseGate c (r.resources p) r.held else none) = none
  free : ¬ (r.bg = true ∧ (d.bgOf c.p).running = true)

theorem admitted_of_admits {d : Dev} {op : Nat} {c : Caller} {p : List Byte} (hadm : d.admits op c p = true) : ∃ r, Admitted d op c p r := by
  unfold Dev.admits at hadm
  obtain ⟨hserves, hrow⟩ := Bool.and_eq_true_iff.mp hadm
  obtain ⟨hanswers, hbedrock⟩ := Bool.and_eq_true_iff.mp hserves
  split at hrow
  · exact absurd hrow Bool.false_ne_true
  · rename_i r hsome
    simp only [Bool.and_eq_true] at hrow
    obtain ⟨⟨⟨hadmission, howner⟩, hlease⟩, hfree⟩ := hrow
    refine ⟨r, ?_, hsome, beq_iff_eq.mp hadmission, ?_, ?_⟩
    · rw [hanswers]
      simp only [Bool.or_eq_true, Bool.not_eq_true', decide_eq_true_eq] at hbedrock
      rcases hbedrock with h | h
      · simp [h]
      · simp only [Bool.not_true, Bool.false_eq_true, false_or, not_and]
        omega
    · rw [Option.isNone_iff_eq_none.mp howner, Option.none_or]
      split
      · rw [‹r.chg = true›] at hlease
        exact Option.isNone_iff_eq_none.mp (by simpa using hlease)
      · rfl
    · rintro ⟨hbg, hrunning⟩
      simp [hbg, hrunning] at hfree

theorem jcsDo_of_refused {d : Dev} {op ext : Nat} {check : Dev → Caller → List Byte → Nat}
    {act : Dev → Caller → List Byte → Dev × Rsp} {c : Caller} {p : List Byte} (hadm : d.admits op c p = true)
    (hcheck : check d c p = ext) (hext : ext ≠ 0) :
    d.jcsDo op check act c p = d.respond c op (retOf ext) ext false [] := by
  obtain ⟨r, hserves, hrow, hadmission, -, -⟩ := admitted_of_admits hadm
  unfold Dev.jcsDo
  rw [if_neg hserves, hrow]
  dsimp only
  rw [if_neg (not_not_intro hadmission), hcheck, if_pos hext]

/-- An admitted command whose fields pass runs its effect, from a device that differs in the job bookkeeping, and answers its outcome. -/
theorem jcsDo_of_admits {d : Dev} {op : Nat} {check : Dev → Caller → List Byte → Nat}
    {act : Dev → Caller → List Byte → Dev × Rsp} {c : Caller} {p : List Byte} (hadm : d.admits op c p = true)
    (hcheck : check d c p = 0) : ∃ j chg, d.jcsDo op check act c p =
      let x := act (d.onJcs fun _ => j) c p
      let e := if x.2.later then
          (if x.1.jcs.inProg.any fun q => q.by_ == c.p && q.tag == c.tag && q.opcode == op then
            x.1.onJcs fun j => { j with done := j.done ++ [d.now] } else x.1)
        else match x.2.bg with
          | some a => (x.1.onBg c.p fun _ => { opcode := op, running := true, arg := a }).respond c op 1 0 true []
          | none => x.1.respond c op (retOf x.2.ext) x.2.ext false x.2.out
      if chg = true then e.mirrorNow else e := by
  obtain ⟨r, hserves, hrow, hadmission, hgate, hfree⟩ := admitted_of_admits hadm
  unfold Dev.jcsDo
  rw [if_neg hserves, hrow]
  dsimp only
  rw [if_neg (not_not_intro hadmission), if_neg (not_not_intro hcheck), hgate]
  dsimp only
  unfold Dev.jcsEffect
  rw [if_neg hfree]
  obtain ⟨j, hj⟩ := useLease_jcs
    (d.onJcs fun j => { j with inProg := j.inProg ++ [{ by_ := c.p, uid := c.uid, tag := c.tag, stamp := d.now, opcode := op }] }) c (r.names p)
  refine ⟨j, r.chg, ?_⟩
  dsimp only
  rw [hj]
  rfl

/-- A row of the job commands whose effect is `(d1, r)` from every bookkeeping, and which answers at once. -/
theorem Runs.of_jcs {i : Instr} {s : State} {r : Res} {S T : List Part} {P : Dev → Prop} {op dt uid : Nat} {b : Fin 4} {p : List Byte}
    {check : Dev → Caller → List Byte → Nat} {act : Dev → Caller → List Byte → Dev × Rsp}
    (hfoot : ∃ t, r = .next t ∧ t.pending = s.pending ∧ ChangesOnly T s.dev t.dev) (hT : ∀ p ∈ T, p ∈ S) (hexec : exec i s = r)
    (hrun : r = s.run fun d => (d.elapse dt).jcsDo op check act (caller b uid) p)
    (hadm : (s.dev.elapse dt).admits op (caller b uid) p = true) (hcheck : check (s.dev.elapse dt) (caller b uid) p = 0)
    (hquiet : ∀ d, (act d (caller b uid) p).1.out = d.out)
    (hact : ∀ j, ∃ d1 ext out, act ((s.dev.elapse dt).onJcs fun _ => j) (caller b uid) p = (d1, { ext := ext, out := out }) ∧
      ∀ e, ChangesOnly answerParts d1 e → Answered (s.dev.elapse dt) e b.val op (retOf ext) ext false out → P e) :
    Runs i s S P := by
  obtain ⟨j, chg, hjcs⟩ := jcsDo_of_admits (act := act) hadm hcheck
  obtain ⟨d1, ext, out, hx, hP⟩ := hact j
  have hgrown : Grown (s.dev.elapse dt) d1 := .of_out ((congrArg (fun x => x.1.out) hx).symm.trans (hquiet _))
  refine .of_dev hfoot hT hexec hrun hjcs ?_
  rw [hx]
  dsimp only
  rw [if_neg Bool.false_ne_true]
  have hmirror := mirror_foot (d1.respond (caller b uid) op (retOf ext) ext false out) chg
  exact hP _ (.step hmirror (by decide) (Dev.respond_foot.mono (by decide)))
    (answered_respond hgrown b uid op (retOf ext) ext false out hmirror)

/-- A row of the job commands that goes on in the background. -/
theorem Runs.of_jcs_bg {i : Instr} {s : State} {r : Res} {S T : List Part} {P : Dev → Prop} {op dt uid : Nat} {b : Fin 4} {p : List Byte}
    {check : Dev → Caller → List Byte → Nat} {act : Dev → Caller → List Byte → Dev × Rsp}
    (hfoot : ∃ t, r = .next t ∧ t.pending = s.pending ∧ ChangesOnly T s.dev t.dev) (hT : ∀ p ∈ T, p ∈ S) (hexec : exec i s = r)
    (hrun : r = s.run fun d => (d.elapse dt).jcsDo op check act (caller b uid) p)
    (hadm : (s.dev.elapse dt).admits op (caller b uid) p = true) (hcheck : check (s.dev.elapse dt) (caller b uid) p = 0)
    (hquiet : ∀ d, (act d (caller b uid) p).1.out = d.out)
    (hact : ∀ j, ∃ d1 arg, act ((s.dev.elapse dt).onJcs fun _ => j) (caller b uid) p = (d1, { bg := some arg }) ∧
      ∀ e, ChangesOnly answerParts d1 e → Answered (s.dev.elapse dt) e b.val op 1 0 true [] →
        e.bgOf b.val = { opcode := op, running := true, arg := arg } →
        P e) : Runs i s S P := by
  obtain ⟨j, chg, hjcs⟩ := jcsDo_of_admits (act := act) hadm hcheck
  obtain ⟨d1, arg, hx, hP⟩ := hact j
  have hgrown : Grown (s.dev.elapse dt) d1 := .of_out ((congrArg (fun x => x.1.out) hx).symm.trans (hquiet _))
  refine .of_dev hfoot hT hexec hrun hjcs ?_
  rw [hx]
  dsimp only
  rw [if_neg Bool.false_ne_true]
  generalize hstarted : d1.onBg b.val (fun _ => { opcode := op, running := true, arg := arg }) = started
  have hstart : ChangesOnly [.heads, .jcs] d1 started := hstarted ▸ Dev.onBg_foot
  have hslot : started.bgOf b.val = { opcode := op, running := true, arg := arg } := by
    rw [← hstarted]
    unfold Dev.bgOf Dev.onBg
    split
    · rw [head_onHead]
    · rfl
  have hmirror := mirror_foot (started.respond (caller b uid) op 1 0 true []) chg
  have hkept := (respond_effect started (caller b uid) op 1 0 true []).2.2
  refine hP _ (.step hmirror (by decide) (.step Dev.respond_foot (by decide) (hstart.mono (by decide))))
    (answered_respond (hgrown.trans (.of_foot hstart)) b uid op 1 0 true [] hmirror) ?_
  refine Eq.trans ?_ (hkept.trans hslot)
  unfold Dev.bgOf Dev.head
  rw [hmirror.heads_eq (by decide), hmirror.same .jcs (by decide)]

/-- A row of the job commands whose fields are refused. -/
theorem Runs.of_jcs_refused {i : Instr} {s : State} {r : Res} {S T : List Part} {P : Dev → Prop} {op dt uid : Nat} {b : Fin 4} {p : List Byte}
    {check : Dev → Caller → List Byte → Nat} {act : Dev → Caller → List Byte → Dev × Rsp} {ext : Nat}
    (hfoot : ∃ t, r = .next t ∧ t.pending = s.pending ∧ ChangesOnly T s.dev t.dev) (hT : ∀ p ∈ T, p ∈ S) (hexec : exec i s = r)
    (hrun : r = s.run fun d => (d.elapse dt).jcsDo op check act (caller b uid) p)
    (hadm : (s.dev.elapse dt).admits op (caller b uid) p = true) (hcheck : check (s.dev.elapse dt) (caller b uid) p = ext) (hext : ext ≠ 0)
    (hP : ∀ e, ChangesOnly answerParts (s.dev.elapse dt) e → Answered (s.dev.elapse dt) e b.val op (retOf ext) ext false [] → P e) :
    Runs i s S P := by
  have hjcs : (s.dev.elapse dt).jcsDo op check act (caller b uid) p = (s.dev.elapse dt).respond (caller b uid) op (retOf ext) ext false [] :=
    jcsDo_of_refused hadm hcheck hext
  refine .of_dev hfoot hT hexec hrun hjcs (hP _ (Dev.respond_foot.mono (by decide)) ?_)
  exact answered_respond (.of_out rfl) b uid op (retOf ext) ext false [] (.refl _ _)

end Sys2Proof.Machine
end

section
set_option Elab.async false
/-! LEMMAS. Policy records, pack bays and test seals under their commands (chapters 02, 03, 08). -/

namespace Sys2Proof.Machine

/-! ### Field checks (R403) -/

theorem within_iff {lo hi v : Nat} : within lo hi v = true ↔ lo ≤ v ∧ v ≤ hi := by
  unfold within
  rw [Bool.and_eq_true, decide_eq_true_eq, decide_eq_true_eq]

/-- A field that MASK selects is in its range. -/
theorem maskOk_of_range {m i lo hi v : Nat} (h : m.testBit i = true → lo ≤ v ∧ v ≤ hi) : maskOk m i (within lo hi v) = true := by
  unfold maskOk
  rw [Bool.or_eq_true, Bool.not_eq_true']
  by_cases hbit : m.testBit i = true
  · exact .inr (within_iff.mpr (h hbit))
  · exact .inl (Bool.not_eq_true _ ▸ hbit)

theorem orErr_of_ok {ok : Bool} {ext : Nat} (h : ok = true) : orErr ok ext = 0 := if_pos h
theorem orErr_of_not {ok : Bool} {ext : Nat} (h : ok = false) : orErr ok ext = ext := if_neg (Bool.eq_false_iff.mp h)

/-! ### Records due (R432) -/

theorem sl_onSl (d : Dev) (t : Nat) (f : SlateTile → SlateTile) : (d.onSl t f).sl t = f (d.sl t) := tget_tmod ..
theorem sl_onSl_ne (d : Dev) {t u : Nat} (f : SlateTile → SlateTile) (h : u ≠ t) : (d.onSl t f).sl u = d.sl u := tget_tmod_ne _ _ _ _ _ h

theorem sl_onSl_pend (d : Dev) (t u : Nat) {f : SlateTile → SlateTile} (hf : ∀ x, (f x).pend = x.pend) :
    ((d.onSl t f).sl u).pend = (d.sl u).pend := by
  by_cases h : u = t
  · rw [h, sl_onSl, hf]
  · rw [sl_onSl_ne d f h]

/-- A package record is due on T0 and on T4. -/
theorem recDue_pend (d : Dev) (typ : Nat) : typ ∈ ((d.recDue typ).sl 0).pend ∧ typ ∈ ((d.recDue typ).sl 4).pend := by
  unfold Dev.recDue Dev.recDueOn
  constructor
  · rw [sl_onSl_ne _ _ (by decide), sl_onSl]
    exact mem_addOnce _ _
  · rw [sl_onSl]
    exact mem_addOnce _ _

theorem pointCheck_pend (d : Dev) (u : Nat) : (d.pointCheck.sl u).pend = (d.sl u).pend := by
  unfold Dev.pointCheck
  extract_lets w
  split
  · rfl
  · split
    · rfl
    · have htaps : ((d.tapsFor d.pkg.oppt w).sl u).pend = (d.sl u).pend := by
        unfold Dev.tapsFor
        refine foldl_keeps (π := fun d : Dev => (d.sl u).pend) (fun d t _ => ?_) d
        exact sl_onSl_pend d t u fun _ => rfl
      exact htaps

theorem sl_of_slate {d e : Dev} (h : e.slate = d.slate) (t : Nat) : e.sl t = d.sl t := by rw [Dev.sl, h, Dev.sl]

/-! ### Pack bays -/

theorem bay_onBay (d : Dev) (b : Nat) (f : PackSt → PackSt) : (d.onBay b f).bay b = f (d.bay b) := tget_tmod ..
theorem bay_onBay_ne (d : Dev) {b k : Nat} (f : PackSt → PackSt) (h : k ≠ b) : (d.onBay b f).bay k = d.bay k := tget_tmod_ne _ _ _ _ _ h

theorem bay_of_energy {d e : Dev} (h : e.energy = d.energy) (b : Nat) : e.bay b = d.bay b := by rw [Dev.bay, h, Dev.bay]

/-- A bay's update, and its power path and register after it. -/
theorem bayDo_bay (d : Dev) (b : Nat) (f : PackSt → PackSt) : ∃ path, (d.bayDo b f).bay b = { f (d.bay b) with path := path } := by
  unfold Dev.bayDo Dev.bayUpd
  extract_lets routed p
  have hrouted : routed.bay b = { (d.onBay b f).bay b with path := (routed.bay b).path } := by
    unfold routed
    rw [bay_onBay]
  rw [bay_onBay d b f] at hrouted
  exact ⟨_, hrouted⟩

theorem bayDo_bay_ne (d : Dev) {b k : Nat} (f : PackSt → PackSt) (h : k ≠ b) : (d.bayDo b f).bay k = d.bay k := by
  unfold Dev.bayDo Dev.bayUpd
  extract_lets routed p
  exact (bay_onBay_ne _ _ h).trans (bay_onBay_ne _ _ h)

theorem other_bay_ne {a : Nat} (h : a ≤ 1) : 1 - a ≠ a := by omega

theorem bay_of_foot {S : List Part} {d e : Dev} (h : ChangesOnly S d e) (b : Nat) (hS : Part.energy ∉ S := by decide) : e.bay b = d.bay b :=
  bay_of_energy (h.same .energy hS).symm b

theorem sl_of_foot {S : List Part} {d e : Dev} (h : ChangesOnly S d e) (t : Nat) (hS : Part.slate ∉ S := by decide) : e.sl t = d.sl t :=
  sl_of_slate (h.same .slate hS).symm t

/-- The device that answers with a package record due: the record is due on T0 and T4. -/
theorem due_of_recDue {d e : Dev} {typ : Nat} (h : ChangesOnly answerParts (d.recDue typ) e) : typ ∈ (e.sl 0).pend ∧ typ ∈ (e.sl 4).pend := by
  rw [sl_of_foot h, sl_of_foot h]
  exact recDue_pend d typ

theorem refusePress_bay (d : Dev) (b : Nat) :
    ∃ path, (d.refusePress b).bay b = { d.bay b with refusedUntil := some (d.now + 3000000000), path := path } := by
  unfold Dev.refusePress
  obtain ⟨path, hpath⟩ := bayDo_bay d b fun p => { p with refusedUntil := some (d.now + 3000000000) }
  exact ⟨path, (bay_of_foot Dev.bayEvent_foot b).trans hpath⟩

theorem disqualify_of_idle {d : Dev} {b : Nat} (h : (d.bay b).test = 0) : d.disqualify b = d := if_pos h

/-- A release asked at exposure 0 is granted. -/
theorem releaseAsk_granted {d : Dev} {b : Nat} (htest : (d.bay b).test = 0) (hstep : d.sealing.testStep = 0) (hx : d.xPkg = 0) :
    (∃ path, (d.releaseAsk b).bay b = { d.bay b with state := 4, counted := false, lock := false, grantAt := d.now, path := path }) ∧
    7 ∈ (d.releaseAsk b).expo.gov.triggers ∧ ∀ k, k ≠ b → (d.releaseAsk b).bay k = d.bay k := by
  have hseal : ¬ (d.govTrigger 8).testSealRuns = true := by simp [Dev.testSealRuns, Dev.govTrigger, hstep]
  unfold Dev.releaseAsk
  rw [disqualify_of_idle htest]
  dsimp only
  rw [if_neg hseal, if_pos (.inl hx)]
  unfold Dev.grantBay
  obtain ⟨path, hpath⟩ := bayDo_bay (d.govTrigger 8) b fun p => { p with state := 4, counted := false, lock := false, grantAt := d.now }
  refine ⟨⟨path, (bay_of_foot Dev.expoPkgUpd_foot b).trans hpath⟩, ?_,
    fun k hk => (bay_of_foot Dev.expoPkgUpd_foot k).trans (bayDo_bay_ne (d.govTrigger 8) _ hk)⟩
  rw [Dev.expoPkgUpd_foot.expo_eq (by decide)]
  exact mem_addOnce _ _

/-- A release asked with exposure not below the ceiling without the pack waits. -/
theorem releaseAsk_waits {d : Dev} {b : Nat} (htest : (d.bay b).test = 0) (hstep : d.sealing.testStep = 0) (hx : 0 < d.xPkg)
    (hcounted : (d.bay b).counted = true) (hfull : (d.ceilings (addOnce d.withoutBays b)).c ≤ d.xPkg) :
    ∃ path, (d.releaseAsk b).bay b = { d.bay b with state := 3, waitSince := d.now, path := path } := by
  have hseal : ¬ (d.govTrigger 8).testSealRuns = true := by simp [Dev.testSealRuns, Dev.govTrigger, hstep]
  have hgrant : ¬ d.mayGrant b = true := by
    simp only [Dev.mayGrant, Bool.and_eq_true, decide_eq_true_eq, not_and]
    exact fun h => absurd h (Nat.not_lt.mpr hfull)
  have hno : ¬ (d.xPkg = 0 ∨ (!(d.bay b).counted) = true ∨ d.mayGrant b = true) := by
    rw [hcounted]
    exact fun h => h.elim hx.ne' fun h => h.elim (fun h => Bool.false_ne_true h) hgrant
  unfold Dev.releaseAsk
  rw [disqualify_of_idle htest]
  dsimp only
  have hno : ¬ ((d.govTrigger 8).xPkg = 0 ∨ (!((d.govTrigger 8).bay b).counted) = true ∨ (d.govTrigger 8).mayGrant b = true) := hno
  rw [if_neg hseal, if_neg hno]
  obtain ⟨path, hpath⟩ := bayDo_bay (d.govTrigger 8) b fun p => { p with state := 3, waitSince := d.now }
  exact ⟨path, (bay_of_foot Dev.raise_foot b).trans hpath⟩

/-! ### A test seal (R103, R104) -/

theorem testSeal_busy_iff (d : Dev) : ([0, 1].any fun b => (d.bay b).state == 3 || (d.bay b).state == 4 || (d.bay b).test != 0) = true ↔
    ¬ ∀ a : Nat, a < 2 → (d.bay a).state ≠ 3 ∧ (d.bay a).state ≠ 4 ∧ (d.bay a).test = 0 := by
  have hboth : (∀ a : Nat, a < 2 → (d.bay a).state ≠ 3 ∧ (d.bay a).state ≠ 4 ∧ (d.bay a).test = 0) ↔
      ((d.bay 0).state ≠ 3 ∧ (d.bay 0).state ≠ 4 ∧ (d.bay 0).test = 0) ∧
      ((d.bay 1).state ≠ 3 ∧ (d.bay 1).state ≠ 4 ∧ (d.bay 1).test = 0) := by
    refine ⟨fun h => ⟨h 0 (by decide), h 1 (by decide)⟩, fun h a ha => ?_⟩
    obtain rfl | rfl : a = 0 ∨ a = 1 := by omega
    · exact h.1
    · exact h.2
  rw [hboth]
  simp only [List.any_cons, List.any_nil, Bool.or_false, Bool.or_eq_true, beq_iff_eq, bne_iff_ne]
  tauto

theorem sealStart_effect (d : Dev) (cause : Nat) (test : Bool) :
    (d.sealStart cause test).sealing.active = true ∧ (d.sealStart cause test).sealing.test = test := by
  unfold Dev.sealStart
  extract_lets ea hot started held shown
  have hshown : shown.sealing = started.sealing := rfl
  rw [Dev.sealUpd_foot.sealing_eq (by decide), foldl_keeps (π := Dev.sealing) (fun d c _ => Dev.cutMeter_foot.sealing_eq (by decide)), hshown]
  exact ⟨rfl, rfl⟩

theorem testBegin_effect (d : Dev) (holdLimit fillGib : Nat) :
    (d.testBegin holdLimit fillGib).sealing.active = true ∧ (d.testBegin holdLimit fillGib).sealing.test = true ∧
    (d.testBegin holdLimit fillGib).sealing.testStep = 1 ∧ (d.testBegin holdLimit fillGib).sealing.holdLimit = holdLimit ∧
    (d.testBegin holdLimit fillGib).sealing.fillGib = fillGib ∧ (d.testBegin holdLimit fillGib).energy.assistSet = [] := by
  unfold Dev.testBegin
  extract_lets started stepped
  obtain ⟨hactive, htest⟩ := sealStart_effect d 4 true
  have hsealing : ∀ e : Dev, ([0, 1].foldl Dev.bayUpd e).sealing = e.sealing :=
    foldl_keeps (π := Dev.sealing) fun d b _ => Dev.bayUpd_foot.sealing_eq (by decide)
  rw [hsealing]
  exact ⟨hactive, htest, rfl, rfl, rfl, rfl⟩

end Sys2Proof.Machine
end

section
set_option Elab.async false
/-! LEMMAS. The policy, energy and thermal commands (chapters 08, 09). -/

namespace Sys2Proof.Machine

/-- The outcome of a release asked for on a bay that is neither empty, granted nor waiting, nor held, nor engaging its lock. -/
theorem relReqAct_asks {d : Dev} {c : Caller} {p : List Byte} (hhold : (d.bay (bayOf p)).hold = false)
    (hstate : (d.bay (bayOf p)).state = 2 ∨ (d.bay (bayOf p)).state = 5) :
    relReqAct d c p = (d.releaseAsk (bayOf p), { out := [if ((d.releaseAsk (bayOf p)).bay (bayOf p)).state = 4 then 0 else 1] }) := by
  have hgo : ¬ ((d.bay (bayOf p)).hold = true ∨ ((d.bay (bayOf p)).state = 1 ∧ (d.bay (bayOf p)).lock = true)) := by
    rw [hhold]
    rcases hstate with h | h <;> simp [h]
  have hidle : ¬ ((d.bay (bayOf p)).state = 0 ∨ (d.bay (bayOf p)).state = 4) := by omega
  have hwaits : ¬ (d.bay (bayOf p)).state = 3 := by omega
  exact (if_neg hgo).trans ((if_neg hidle).trans (if_neg hwaits))

theorem bayCheck_of_le {d : Dev} {c : Caller} {p : List Byte} (h : fieldAt p 0 1 ≤ 1) : bayCheck d c p = 0 := orErr_of_ok (decide_eq_true h)

theorem testSealCheck_of_range {d : Dev} {c : Caller} {p : List Byte} (hlo : 1000 ≤ fieldAt p 0 4) (hhi : fieldAt p 0 4 ≤ 10000000)
    (hfill : fieldAt p 4 4 ≤ 1024) : testSealCheck d c p = 0 :=
  orErr_of_ok (Bool.and_eq_true_iff.mpr ⟨within_iff.mpr ⟨hlo, hhi⟩, decide_eq_true hfill⟩)

/-- A check of a test seal that refuses it changes nothing. -/
theorem testSeal_refused {s : State} {b : Fin 4} {uid dt ext : Nat} {p : List Byte} (hadm : (s.dev.elapse dt).admits 0xC444 (caller b uid) p = true)
    (hcheck : testSealCheck (s.dev.elapse dt) (caller b uid) p = 0) (hact : ∀ j, testSealAct ((s.dev.elapse dt).onJcs fun _ => j) (caller b uid) p =
      ((s.dev.elapse dt).onJcs fun _ => j, .err ext)) :
    Runs (.testSeal b uid p dt) s [.sealing, .ctxs, .energy, .flint, .qtz, .lat, .heads, .jcs, .panel, .mirror, .dw, .out] fun e =>
      Answered (s.dev.elapse dt) e b.val 0xC444 (retOf ext) ext false [] ∧ e.sealing = (s.dev.elapse dt).sealing ∧
      e.energy = (s.dev.elapse dt).energy :=
  .of_jcs execTestSeal_foot (by decide) rfl rfl hadm hcheck (fun d => testSealAct_foot.out_eq (by decide))
    fun j => ⟨_, _, _, hact j, fun e he hans => ⟨hans, he.sealing_eq (by decide), (he.same .energy (by decide)).symm⟩⟩

/-- Settles O50: each row by the checks that it passes, the command's effect, and the answer that follows. -/
theorem policyEnergyAndThermalCommands : Obligations.PolicyEnergyAndThermalCommands := by
  refine ⟨?_, ?_, ?_, ?_, ?_, ?_, ?_, ?_, ?_, ?_, ?_, ?_, ?_, ?_, ?_, ?_, ?_, ?_, ?_, ?_, ?_, ?_⟩
  -- Set exposure policy (C431h): written, then refused
  · rintro s _ b uid p _ dt rfl hadm rfl h0 h1 h2 h3 h4 h5
    have hcheck : expoPolicyCheck (s.dev.elapse dt) (caller b uid) p = 0 := by
      refine orErr_of_ok ?_
      simp only [maskOk_of_range h0, maskOk_of_range h1, maskOk_of_range h2, maskOk_of_range h3, maskOk_of_range h4, maskOk_of_range h5,
        Bool.and_self]
    refine .of_jcs execSetExposurePolicy_foot (by decide) rfl rfl hadm hcheck (fun d => expoPolicyAct_foot.out_eq (by decide))
      fun j => ⟨_, _, _, rfl, fun e he hans => ⟨hans, ?_⟩⟩
    rw [he.expo_eq (by decide), sl_of_foot he, sl_of_foot he, pointCheck_pend, pointCheck_pend, Dev.pointCheck_foot.expo_eq (by decide)]
    exact ⟨rfl, mem_addOnce _ _, recDue_pend _ _⟩
  · rintro s _ b uid p dt rfl hadm hbit hout
    have hrange : maskOk (fieldAt p 0 1) 0 (within 16 32768 (fieldAt p 4 4)) = false := by
      simp only [maskOk, hbit, within, Bool.not_true, Bool.false_or, Bool.and_eq_false_iff, decide_eq_false_iff_not]
      omega
    have hcheck : expoPolicyCheck (s.dev.elapse dt) (caller b uid) p = 2 := by
      refine orErr_of_not ?_
      simp only [hrange, Bool.false_and]
    exact .of_jcs_refused execSetExposurePolicy_foot (by decide) rfl rfl hadm hcheck (by decide) fun e he hans =>
      ⟨hans, by rw [he.expo_eq (by decide)], (he.same .slate (by decide)).symm⟩
  -- Request release (C441h): refused under HOLD or while the lock engages, then by the state of the bay
  · rintro s _ b uid p _ dt rfl hadm rfl hle hheld
    refine .of_jcs execRequestRelease_foot (by decide) rfl rfl hadm (bayCheck_of_le hle) (fun d => relReqAct_foot.out_eq (by decide))
      fun j => ⟨_, _, _, if_pos hheld, fun e he hans => ⟨hans, ?_⟩⟩
    obtain ⟨path, hbay⟩ := refusePress_bay ((s.dev.elapse dt).onJcs fun _ => j) (bayOf p)
    have hbay : e.bay (fieldAt p 0 1) = _ := (bay_of_foot he _).trans hbay
    rw [hbay]
    exact ⟨rfl, rfl, rfl, rfl⟩
  · rintro s _ b uid p _ dt rfl hadm rfl hle hhold hstate
    have hgo : ¬ (((s.dev.elapse dt).bay (fieldAt p 0 1)).hold = true ∨ (((s.dev.elapse dt).bay (fieldAt p 0 1)).state = 1 ∧
        ((s.dev.elapse dt).bay (fieldAt p 0 1)).lock = true)) := by simp [hhold, hstate]
    have hidle : ¬ (((s.dev.elapse dt).bay (fieldAt p 0 1)).state = 0 ∨ ((s.dev.elapse dt).bay (fieldAt p 0 1)).state = 4) := by omega
    exact .of_jcs execRequestRelease_foot (by decide) rfl rfl hadm (bayCheck_of_le hle) (fun d => relReqAct_foot.out_eq (by decide))
      fun j => ⟨_, _, _, (if_neg hgo).trans ((if_neg hidle).trans (if_pos hstate)),
        fun e he hans => ⟨hans, (he.same .energy (by decide)).symm⟩⟩
  · rintro s _ b uid p _ dt rfl hadm rfl hle hhold hstate
    have hgo : ¬ (((s.dev.elapse dt).bay (fieldAt p 0 1)).hold = true ∨ (((s.dev.elapse dt).bay (fieldAt p 0 1)).state = 1 ∧
        ((s.dev.elapse dt).bay (fieldAt p 0 1)).lock = true)) := by
      rcases hstate with h | h <;> simp [hhold, h]
    exact .of_jcs execRequestRelease_foot (by decide) rfl rfl hadm (bayCheck_of_le hle) (fun d => relReqAct_foot.out_eq (by decide))
      fun j => ⟨_, _, _, (if_neg hgo).trans (if_pos hstate), fun e he hans => ⟨hans, (he.same .energy (by decide)).symm⟩⟩
  · rintro s _ b uid p _ dt rfl hadm rfl hle hhold hstate htest hstep hx
    refine .of_jcs execRequestRelease_foot (by decide) rfl rfl hadm (bayCheck_of_le hle) (fun d => relReqAct_foot.out_eq (by decide))
      fun j => ⟨_, _, _, relReqAct_asks hhold hstate, fun e he hans => ?_⟩
    obtain ⟨⟨path, hbay⟩, htrig, hother⟩ := releaseAsk_granted (d := (s.dev.elapse dt).onJcs fun _ => j) (b := bayOf p) htest hstep hx
    rw [if_pos (congrArg PackSt.state hbay)] at hans
    refine ⟨hans, ?_⟩
    rw [bay_of_foot he, bay_of_foot he, he.expo_eq (by decide)]
    have hbay : Dev.bay _ (fieldAt p 0 1) = _ := hbay
    rw [hbay]
    exact ⟨rfl, rfl, rfl, rfl, htrig, hother _ (other_bay_ne hle)⟩
  · rintro s _ b uid p _ dt rfl hadm rfl hle hhold hstate htest hcounted hx hstep hfull
    refine .of_jcs execRequestRelease_foot (by decide) rfl rfl hadm (bayCheck_of_le hle) (fun d => relReqAct_foot.out_eq (by decide))
      fun j => ⟨_, _, _, relReqAct_asks hhold (.inl hstate), fun e he hans => ?_⟩
    obtain ⟨path, hbay⟩ := releaseAsk_waits (d := (s.dev.elapse dt).onJcs fun _ => j) (b := bayOf p) htest hstep hx hcounted hfull
    have hwaits : ((((s.dev.elapse dt).onJcs fun _ => j).releaseAsk (bayOf p)).bay (bayOf p)).state ≠ 4 := by
      rw [hbay]
      exact (by decide : (3 : Nat) ≠ 4)
    rw [if_neg hwaits] at hans
    have hbay : e.bay (fieldAt p 0 1) = _ := (bay_of_foot he _).trans hbay
    rw [hbay]
    exact ⟨hans, rfl, rfl, hcounted, rfl⟩
  -- Set hold (C442h)
  · rintro s _ b uid p _ dt rfl hadm rfl hle hval
    have hcheck : holdCheck (s.dev.elapse dt) (caller b uid) p = 0 :=
      orErr_of_ok (Bool.and_eq_true_iff.mpr ⟨decide_eq_true hle, within_iff.mpr ⟨Nat.zero_le _, hval⟩⟩)
    refine .of_jcs execSetHold_foot (by decide) rfl rfl hadm hcheck (fun d => holdAct_foot.out_eq (by decide))
      fun j => ⟨_, _, _, rfl, fun e he hans => ⟨hans, ?_⟩⟩
    obtain ⟨path, hbay⟩ := bayDo_bay ((s.dev.elapse dt).onJcs fun _ => j) (bayOf p) fun x => { x with hold := fieldAt p 1 1 == 1 }
    have hbay : e.bay (fieldAt p 0 1) = _ := (bay_of_foot he _).trans hbay
    rw [hbay, bay_of_foot he]
    exact ⟨rfl, rfl, rfl, bayDo_bay_ne _ _ (other_bay_ne hle)⟩
  -- Capacity test (C443h): started or refused, then stopped
  · rintro s _ b uid p _ dt rfl hadm rfl hle hstart
    have hcheck : capTestCheck (s.dev.elapse dt) (caller b uid) p = 0 :=
      orErr_of_ok (Bool.and_eq_true_iff.mpr ⟨decide_eq_true hle, within_iff.mpr (by omega)⟩)
    by_cases hmay : (s.dev.elapse dt).testMayStart (fieldAt p 0 1) = true
    · refine .of_jcs execCapacityTest_foot (by decide) rfl rfl hadm hcheck (fun d => capTestAct_foot.out_eq (by decide))
        fun j => ⟨_, _, _, (if_pos hstart).trans (if_pos hmay), fun e he hans => ?_⟩
      obtain ⟨path, hbay⟩ := bayDo_bay ((s.dev.elapse dt).onJcs fun _ => j) (bayOf p) fun q => { q with
        test := 1, testIntr := 0, intrAt := none, intrClear := none, testSa := none, testSb := none
        charging := q.charging || decide (q.soc < 10000), chargeAt := if q.charging then q.chargeAt else (s.dev.elapse dt).now }
      have hbay : e.bay (fieldAt p 0 1) = _ := (bay_of_foot he _).trans hbay
      rw [hbay, if_pos hmay, bay_of_foot he]
      exact ⟨bayDo_bay_ne _ _ (other_bay_ne hle), rfl, hans, rfl, rfl⟩
    · refine .of_jcs execCapacityTest_foot (by decide) rfl rfl hadm hcheck (fun d => capTestAct_foot.out_eq (by decide))
        fun j => ⟨_, _, _, (if_pos hstart).trans (if_neg hmay), fun e he hans => ?_⟩
      have henergy : e.energy = (s.dev.elapse dt).energy := (he.same .energy (by decide)).symm
      rw [if_neg hmay, bay_of_energy henergy, bay_of_energy henergy]
      exact ⟨rfl, rfl, hans, henergy⟩
  · rintro s _ b uid p _ dt rfl hadm rfl hle hstop
    have hcheck : capTestCheck (s.dev.elapse dt) (caller b uid) p = 0 :=
      orErr_of_ok (Bool.and_eq_true_iff.mpr ⟨decide_eq_true hle, within_iff.mpr (by omega)⟩)
    have hno : ¬ fieldAt p 1 1 = 1 := by omega
    refine .of_jcs execCapacityTest_foot (by decide) rfl rfl hadm hcheck (fun d => capTestAct_foot.out_eq (by decide))
      fun j => ⟨_, _, _, if_neg hno, fun e he hans => ⟨hans, ?_⟩⟩
    obtain ⟨path, hbay⟩ := bayDo_bay ((s.dev.elapse dt).onJcs fun _ => j) (bayOf p) fun x =>
      { x with test := 0, testIntr := 0, intrAt := none, intrClear := none, testSa := none, testSb := none }
    have hbay : e.bay (fieldAt p 0 1) = _ := (bay_of_foot he _).trans hbay
    rw [hbay, bay_of_foot he]
    exact ⟨rfl, rfl, bayDo_bay_ne _ _ (other_bay_ne hle)⟩
  -- Test seal (C444h): begun, then refused in the order of its checks
  · rintro s _ b uid p dt rfl hadm hlo hhi hfill hstate hbays hphase hactive henergy
    have hbusy := mt (testSeal_busy_iff (s.dev.elapse dt)).mp (not_not_intro hbays)
    have hready : ¬ ((s.dev.elapse dt).restore.phase ≠ 7 ∨ (s.dev.elapse dt).activating = true) :=
      fun h => h.elim (fun h => h hphase) fun h => Bool.false_ne_true (hactive.symm.trans h)
    refine .of_jcs_bg execTestSeal_foot (by decide) rfl rfl hadm (testSealCheck_of_range hlo hhi hfill) (fun d => testSealAct_foot.out_eq (by decide))
      fun j => ⟨_, _, (if_neg (Nat.not_le.mpr hstate)).trans ((if_neg hbusy).trans ((if_neg hready).trans (if_neg (Int.not_lt.mpr henergy)))),
        fun e he hans hbg => ⟨hans, ?_⟩⟩
    obtain ⟨hact, htest, hstep, hlimit, hgib, hassist⟩ :=
      testBegin_effect ((s.dev.elapse dt).onJcs fun _ => j) (fieldAt p 0 4) (fieldAt p 4 4)
    rw [he.sealing_eq (by decide), ← he.same .energy (by decide), hbg]
    exact ⟨hact, htest, hstep, hlimit, hgib, hassist, rfl, rfl⟩
  · rintro s _ b uid p dt rfl hadm hlo hhi hfill hstate
    exact testSeal_refused hadm (testSealCheck_of_range hlo hhi hfill) fun j => if_pos hstate
  · rintro s _ b uid p dt rfl hadm hlo hhi hfill hstate hbays
    exact testSeal_refused hadm (testSealCheck_of_range hlo hhi hfill) fun j =>
      (if_neg (Nat.not_le.mpr hstate)).trans (if_pos ((testSeal_busy_iff (s.dev.elapse dt)).mpr hbays))
  · rintro s _ b uid p dt rfl hadm hlo hhi hfill hstate hbays hready
    have hbusy := mt (testSeal_busy_iff (s.dev.elapse dt)).mp (not_not_intro hbays)
    exact testSeal_refused hadm (testSealCheck_of_range hlo hhi hfill) fun j =>
      (if_neg (Nat.not_le.mpr hstate)).trans ((if_neg hbusy).trans (if_pos hready))
  · rintro s _ b uid p dt rfl hadm hlo hhi hfill hstate hbays hphase hactive henergy
    have hbusy := mt (testSeal_busy_iff (s.dev.elapse dt)).mp (not_not_intro hbays)
    have hready : ¬ ((s.dev.elapse dt).restore.phase ≠ 7 ∨ (s.dev.elapse dt).activating = true) :=
      fun h => h.elim (fun h => h hphase) fun h => Bool.false_ne_true (hactive.symm.trans h)
    exact testSeal_refused hadm (testSealCheck_of_range hlo hhi hfill) fun j =>
      (if_neg (Nat.not_le.mpr hstate)).trans ((if_neg hbusy).trans ((if_neg hready).trans (if_pos henergy)))
  -- Set energy policy (C445h)
  · rintro s _ b uid p _ dt rfl hadm rfl h0 h1 h2 h3 h4 h5
    have hcheck : enPolicyCheck (s.dev.elapse dt) (caller b uid) p = 0 := by
      refine orErr_of_ok ?_
      simp only [maskOk_of_range h0, maskOk_of_range h1, maskOk_of_range h2, maskOk_of_range h3, maskOk_of_range h4, maskOk_of_range h5,
        Bool.and_self]
    refine .of_jcs execSetEnergyPolicy_foot (by decide) rfl rfl hadm hcheck (fun d => enPolicyAct_foot.out_eq (by decide))
      fun j => ⟨_, _, _, rfl, fun e he hans => ⟨hans, ?_⟩⟩
    have hdue := due_of_recDue he
    rw [← he.same .energy (by decide)]
    exact ⟨rfl, rfl, rfl, rfl, rfl, rfl, rfl, hdue⟩
  -- Set bay parameters (C446h)
  · rintro s _ b uid p _ dt rfl hadm rfl hle hchem hlearn hlo hhi
    have hcheck : bayParCheck (s.dev.elapse dt) (caller b uid) p = 0 := by
      have hdays : (fieldAt p 2 2 == 0 || within 30 365 (fieldAt p 2 2)) = true := by
        rw [Bool.or_eq_true, beq_iff_eq, within_iff]
        exact hlearn
      refine orErr_of_ok ?_
      simp only [Bool.and_eq_true]
      exact ⟨⟨⟨decide_eq_true hle, within_iff.mpr ⟨Nat.zero_le _, hchem⟩⟩, hdays⟩, within_iff.mpr ⟨hlo, hhi⟩⟩
    refine .of_jcs execSetBayParameters_foot (by decide) rfl rfl hadm hcheck (fun d => bayParAct_foot.out_eq (by decide))
      fun j => ⟨_, _, _, rfl, fun e he hans => ⟨hans, ?_⟩⟩
    have hdue := due_of_recDue he
    rw [bay_of_foot he, bay_of_foot he, bay_of_foot Dev.recDue_foot, bay_of_foot Dev.recDue_foot]
    exact ⟨bay_onBay _ _ _, bay_onBay_ne _ _ (other_bay_ne hle), hdue⟩
  -- Set bridge parameters (C447h)
  · rintro s _ b uid p dt rfl hadm hle
    refine .of_jcs execSetBridgeParameters_foot (by decide) rfl rfl hadm (orErr_of_ok (decide_eq_true hle))
      (fun d => bridgeParAct_foot.out_eq (by decide)) fun j => ⟨_, _, _, rfl, fun e he hans => ⟨hans, ?_⟩⟩
    have hdue := due_of_recDue he
    rw [← he.same .energy (by decide)]
    exact ⟨rfl, hdue⟩
  -- Load chemistry table (C448h)
  · rintro s _ b uid p dt rfl hadm hle
    refine .of_jcs execLoadChemistryTable_foot (by decide) rfl rfl hadm (orErr_of_ok (within_iff.mpr ⟨Nat.zero_le _, hle⟩))
      (fun d => chemAct_foot.out_eq (by decide)) fun j => ⟨_, _, _, rfl, fun e he hans => ⟨hans, ?_⟩⟩
    have hdue := due_of_recDue he
    rw [← he.same .energy (by decide)]
    exact ⟨tget_tset _ _ _ _ _ rfl, rfl, hdue⟩
  -- Set thermal (C451h): written, then refused
  · rintro s _ b uid p _ _ dt rfl hadm rfl hranges hhys hsteps hwarn hshut rfl
    have hcheck : thermCheck (s.dev.elapse dt) (caller b uid) p = 0 := by
      refine orErr_of_ok ?_
      unfold Therm.setOk
      generalize thermSet (s.dev.elapse dt).therm p = x at hranges hhys hsteps hwarn hshut ⊢
      simp only [Bool.and_eq_true, within_iff, decide_eq_true_eq]
      omega
    refine .of_jcs execSetThermal_foot (by decide) rfl rfl hadm hcheck (fun d => thermSetAct_foot.out_eq (by decide))
      fun j => ⟨_, _, _, rfl, fun e he hans => ⟨hans, ?_⟩⟩
    have hdue := due_of_recDue he
    rw [← he.same .therm (by decide)]
    exact ⟨rfl, rfl, rfl, rfl, rfl, rfl, rfl, rfl, rfl, rfl, hdue⟩
  · rintro s _ b uid p _ dt rfl hadm rfl hbad
    have hcheck : thermCheck (s.dev.elapse dt) (caller b uid) p = 2 := by
      refine orErr_of_not ?_
      unfold Therm.setOk
      generalize thermSet (s.dev.elapse dt).therm p = x at hbad ⊢
      simp only [Bool.and_eq_false_iff, decide_eq_false_iff_not]
      omega
    exact .of_jcs_refused execSetThermal_foot (by decide) rfl rfl hadm hcheck (by decide) fun e he hans =>
      ⟨hans, (he.same .therm (by decide)).symm, (he.same .slate (by decide)).symm⟩
  -- Set board thresholds (C452h)
  · rintro s _ b uid p dt rfl hadm hle
    have hcheck : boardCheck (s.dev.elapse dt) (caller b uid) p = 0 := by
      refine orErr_of_ok ?_
      simp only [List.all_eq_true, decide_eq_true_eq]
      intro i hi k hk
      refine hle i ?_ k ?_
      · simp only [tiles8, List.mem_cons, List.not_mem_nil, or_false] at hi
        omega
      · simp only [List.mem_cons, List.not_mem_nil, or_false] at hk
        omega
    refine .of_jcs execSetBoardThresholds_foot (by decide) rfl rfl hadm hcheck (fun d => boardAct_foot.out_eq (by decide))
      fun j => ⟨_, _, _, rfl, fun e he hans => ⟨hans, ?_⟩⟩
    have hdue := due_of_recDue he
    rw [← he.same .therm (by decide)]
    exact ⟨rfl, hdue⟩

end Sys2Proof.Machine
end

section
/-! LEMMAS. Triggers: how a seal begins, power inputs taken as failed, and mains (chapter 03). -/

namespace Sys2Proof.Machine

section
variable {S : List Part} {d e : Dev} (h : ChangesOnly S d e)
include h

theorem ChangesOnly.restore_eq (hp : Part.restore ∉ S) : e.restore = d.restore := (h.same .restore hp).symm
theorem ChangesOnly.panel_eq (hp : Part.panel ∉ S) : e.panel = d.panel := (h.same .panel hp).symm

end

@[simp] theorem elapse_panel (d : Dev) (dt : Nat) : (d.elapse dt).panel = d.panel := rfl

/-- The tiles in service are told from the package's state alone. -/
theorem inSvc_congr {d e : Dev} (h : e.pkg = d.pkg) : e.inSvc = d.inSvc := by
  simp only [Dev.inSvc, Dev.tile, h]

/-! ### A seal begins (R79, R82, R84) -/

/-- Stage 0 latches the cause and the trigger time; of the panel it changes the removal alone, which a test seal leaves too. -/
theorem sealStart_latches (d : Dev) (cause : Nat) (test : Bool) :
    (d.sealStart cause test).sealing.cause = cause ∧ (d.sealStart cause test).sealing.tTrigger = d.now ∧
    (d.sealStart cause test).panel = { d.panel with removal := if cause = 4 then d.panel.removal else 0 } := by
  unfold Dev.sealStart
  extract_lets ea hot started sourced kept
  have hsourced : ChangesOnly [.energy] started sourced := .foldl (fun _ _ h => .step Dev.onSrc_foot (by decide) h) (.refl _ _)
  have hcut : ChangesOnly [.ctxs, .dw] kept (kept.liveCtxs.foldl (fun d c => d.cutMeter c 1) kept).sealUpd :=
    .step Dev.sealUpd_foot (by decide) (.foldl (fun _ _ h => .step Dev.cutMeter_foot (by decide) h) (.refl _ _))
  rw [hcut.sealing_eq (by decide), hcut.panel_eq (by decide), show kept.sealing = started.sealing from hsourced.sealing_eq (by decide)]
  exact ⟨rfl, rfl,
    congrArg (fun p : Panel => { p with removal := if cause = 4 then p.removal else 0 }) (hsourced.panel_eq (by decide))⟩

theorem sealFreeze_sealing (d : Dev) :
    d.sealFreeze.sealing = { d.sealing with stage := 1, frozen := true, tileStage := d.inSvc.map fun t => (t, 1) } := by
  unfold Dev.sealFreeze
  extract_lets worked frozen
  have hworked : worked.sealing = d.sealing ∧ worked.inSvc = d.inSvc :=
    ⟨Dev.sealWork_foot.sealing_eq (by decide), inSvc_congr (Dev.sealWork_foot.pkg_eq (by decide))⟩
  have hbays : ChangesOnly [.energy, .dw] frozen.freezeAccepted.sealUpd ([0, 1].foldl Dev.bayUpd frozen.freezeAccepted.sealUpd) :=
    .foldl (fun _ _ h => .step Dev.bayUpd_foot (by decide) h) (.refl _ _)
  rw [hbays.sealing_eq (by decide), Dev.sealUpd_foot.sealing_eq (by decide), Dev.freezeAccepted_foot.sealing_eq (by decide)]
  unfold frozen
  rw [onSealing_sealing, hworked.1, hworked.2]

/-- A real seal stands in stage 1: its cause and its trigger time are latched and ingress is frozen. -/
theorem sealBegin_fields (d : Dev) (cause : Nat) :
    (d.sealBegin cause).sealing.active = true ∧ (d.sealBegin cause).sealing.frozen = true ∧ (d.sealBegin cause).sealing.test = false ∧
    (d.sealBegin cause).sealing.stage = 1 ∧ (d.sealBegin cause).sealing.cause = cause ∧ (d.sealBegin cause).sealing.tTrigger = d.now := by
  unfold Dev.sealBegin
  obtain ⟨hactive, htest⟩ := sealStart_effect d cause false
  obtain ⟨hcause, htime, -⟩ := sealStart_latches d cause false
  rw [sealFreeze_sealing, onCtxs_sealing, Dev.abortBg_foot.sealing_eq (by decide)]
  exact ⟨hactive, rfl, htest, rfl, hcause, htime⟩

theorem sealBegin_panel (d : Dev) (cause : Nat) :
    (d.sealBegin cause).panel = { d.panel with removal := if cause = 4 then d.panel.removal else 0 } := by
  unfold Dev.sealBegin
  obtain ⟨-, -, hpanel⟩ := sealStart_latches d cause false
  rw [Dev.sealFreeze_foot.panel_eq (by decide), onCtxs_panel, Dev.abortBg_foot.panel_eq (by decide), hpanel]

/-- On an opened device outside a safe state, with no seal running, a trigger begins a seal. -/
theorem trigger_opened {d : Dev} {cause : Nat} (hup : d.panel.coreUp = true) (hsafe : d.pkg.safe = 0) (hready : d.restore.ready = true)
    (hbed : d.pkg.bedrock = false) (hact : d.sealing.active = false) : d.trigger cause = d.sealBegin cause := by
  simp [Dev.trigger, hup, hsafe, hready, hbed, hact]

/-- While a real seal runs a trigger is recorded, the first one standing. -/
theorem trigger_sealing {d : Dev} {cause : Nat} (hup : d.panel.coreUp = true) (hsafe : d.pkg.safe = 0) (hact : d.sealing.active = true)
    (htest : d.sealing.test = false) :
    d.trigger cause = d.onSealing fun s => { s with later := if s.later = 15 then cause else s.later } := by
  simp [Dev.trigger, hup, hsafe, hact, htest]

/-! ### A power input taken as failed (R79, R80, R99) -/

theorem filterTakes_of_long {width : Nat} {taken : Bool} (h : 1000 ≤ width) : filterTakes width taken = true := by
  simp [filterTakes, h]

theorem filterTakes_of_short {width : Nat} {taken : Bool} (h : width < 200) : ¬ filterTakes width taken = true := by
  simp only [filterTakes, Bool.or_eq_true, Bool.and_eq_true, decide_eq_true_eq]
  omega

theorem mainsLost_panel (d : Dev) : d.mainsLost.panel =
    { d.panel with mainsGood := false, goodSince := none, notGoodAt := if d.panel.notGoodAt.isSome then d.panel.notGoodAt else some d.now } :=
  Dev.interruptTests_foot.panel_eq (by decide)

/-- On an opened device an input taken as failed, which `f` records in the panel, begins a seal and leaves mains not good. -/
theorem inputLost_opened {d : Dev} {f : Panel → Panel} {cause : Nat} (hup : (f d.panel).coreUp = true) (hsafe : d.pkg.safe = 0)
    (hready : d.restore.ready = true) (hbed : d.pkg.bedrock = false) (hact : d.sealing.active = false) :
    let e := (d.onPanel f).mainsLost.trigger cause
    (e.sealing.active = true ∧ e.sealing.frozen = true ∧ e.sealing.test = false ∧ e.sealing.stage = 1 ∧ e.sealing.cause = cause ∧
      e.sealing.tTrigger = d.now) ∧
    e.panel.pwrFailN = (f d.panel).pwrFailN ∧ e.panel.vinOk = (f d.panel).vinOk ∧ e.panel.mainsGood = false := by
  intro e
  have hlost : ChangesOnly [.energy, .flint, .panel, .dw] (d.onPanel f) (d.onPanel f).mainsLost := Dev.mainsLost_foot
  have he : e = (d.onPanel f).mainsLost.sealBegin cause := by
    refine trigger_opened ?_ ?_ ?_ ?_ ?_
    · rw [mainsLost_panel]
      exact hup
    · rw [hlost.pkg_eq (by decide)]
      exact hsafe
    · rw [hlost.restore_eq (by decide)]
      exact hready
    · rw [hlost.pkg_eq (by decide)]
      exact hbed
    · rw [hlost.sealing_eq (by decide)]
      exact hact
  have hnow : (d.onPanel f).mainsLost.now = d.now := now_congr (hlost.qtz_eq (by decide))
  rw [he, ← hnow]
  refine ⟨sealBegin_fields _ cause, ?_⟩
  rw [sealBegin_panel, mainsLost_panel]
  exact ⟨rfl, rfl, rfl⟩

/-- While a real seal runs, such an input is recorded as a later trigger, and nothing else of the seal changes. -/
theorem inputLost_sealing {d : Dev} {f : Panel → Panel} {cause : Nat} (hup : (f d.panel).coreUp = true) (hsafe : d.pkg.safe = 0)
    (hact : d.sealing.active = true) (htest : d.sealing.test = false) :
    ((d.onPanel f).mainsLost.trigger cause).sealing =
      { d.sealing with later := if d.sealing.later = 15 then cause else d.sealing.later } := by
  have hlost : ChangesOnly [.energy, .flint, .panel, .dw] (d.onPanel f) (d.onPanel f).mainsLost := Dev.mainsLost_foot
  have hsealing : (d.onPanel f).mainsLost.sealing = d.sealing := hlost.sealing_eq (by decide)
  have hrec := trigger_sealing (d := (d.onPanel f).mainsLost) (cause := cause) (by rw [mainsLost_panel]; exact hup)
    (by rw [hlost.pkg_eq (by decide)]; exact hsafe) (by rw [hsealing]; exact hact) (by rw [hsealing]; exact htest)
  rw [hrec, onSealing_sealing, hsealing]

theorem inputsGood_panel (d : Dev) : d.inputsGood.panel = { d.panel with
    goodSince := if d.panel.pwrFailN ∧ d.panel.vinOk ∧ d.panel.goodSince.isNone then some d.now else d.panel.goodSince } := rfl

/-! ### The rows -/

/-- Settles O19: an input held long enough is taken by the filter, and the trigger goes by whether a seal runs. -/
theorem powerFailRows : Obligations.PowerFailRows := by
  refine ⟨fun s width taken dt hup hsafe hready hbed hact hwidth => ?_, fun s width taken dt hup hsafe hready hbed hact hwidth => ?_,
    fun s width taken dt hwidth => ?_, fun s width taken dt hwidth => ?_, fun s width taken dt hup hsafe hact htest hwidth => ?_,
    fun s dt hvin hgood => ?_, fun s dt hpwr => ?_, fun s dt t0 hgood hlong hmains => ?_⟩
  · obtain ⟨⟨hactive, hfrozen, htest, hstage, hcause, htime⟩, hpwr, -, hmains⟩ :=
      inputLost_opened (d := s.dev.elapse dt) (f := fun p => { p with pwrFailN := false }) (cause := 0) hup hsafe hready hbed hact
    exact .of_dev execPwrFailNAssert_foot (by decide) rfl rfl (if_pos (filterTakes_of_long hwidth))
      ⟨hactive, hfrozen, htest, hstage, hcause, htime, hpwr, hmains⟩
  · have htakes : filterTakes width taken = true := by
      simpa only [filterTakes, Bool.or_eq_true, Bool.and_eq_true, decide_eq_true_eq] using hwidth
    obtain ⟨⟨hactive, hfrozen, htest, hstage, hcause, htime⟩, -, hvin, hmains⟩ :=
      inputLost_opened (d := s.dev.elapse dt) (f := fun p => { p with vinOk := false }) (cause := 1) hup hsafe hready hbed hact
    exact .of_dev execVinSenseLow_foot (by decide) rfl rfl (if_pos htakes)
      ⟨hactive, hfrozen, htest, hstage, hcause, htime, hvin, hmains⟩
  · exact .of_eq (r := execPwrFailNAssert width taken dt s) rfl rfl (if_neg (filterTakes_of_short hwidth)) Dev.elapse_foot rfl
  · exact .of_eq (r := execVinSenseLow width taken dt s) rfl rfl (if_neg (filterTakes_of_short hwidth)) Dev.elapse_foot rfl
  · refine .of_dev execPwrFailNAssert_foot (by decide) rfl rfl (if_pos (filterTakes_of_long hwidth)) ?_
    exact inputLost_sealing (d := s.dev.elapse dt) hup hsafe hact htest
  · refine .of_dev execPwrFailNDeassert_foot (by decide) rfl rfl rfl ?_
    rw [inputsGood_panel]
    simp [hvin, hgood, now_congr (onPanel_qtz ..)]
  · refine .of_dev execVinSenseHigh_foot (by decide) rfl rfl rfl ?_
    rw [inputsGood_panel]
    simp [hpwr]
  · have hpanel : (s.dev.elapse dt).panel.goodSince = some t0 := hgood
    have hdue : 100000000 ≤ (s.dev.elapse dt).since t0 := Nat.le_sub_of_add_le' hlong
    refine .of_dev execMainsGood_foot (by decide) rfl rfl (if_pos ?_) ?_
    · rw [hpanel]
      exact Bool.and_eq_true_iff.mpr ⟨decide_eq_true hdue, congrArg (! ·) hmains⟩
    · extract_lets fresh good powered
      split
      · rename_i hact
        rw [Dev.sealUpd_foot.panel_eq (by decide), Dev.sealUpd_foot.sealing_eq (by decide)]
        exact ⟨rfl, rfl, rfl, (Bool.or_eq_true_iff.mpr (.inr hact)).symm⟩
      · rename_i hact
        have hidle : s.dev.sealing.active = false := Bool.eq_false_iff.mpr hact
        rw [hidle, Bool.or_false]
        exact ⟨rfl, rfl, hidle, rfl⟩

end Sys2Proof.Machine
end

section
/-! LEMMAS. How a seal ends: its records, warm return, the mount, stage 5, hibernation and the end of a test (chapter 03). -/

namespace Sys2Proof.Machine

/-! ### Learning and the seal event record (R56, R107, R108) -/

/-- From `d` to `e` the seal keeps all but its event record, and that keeps the cause. -/
def Measures (d e : Dev) : Prop := ∃ r : SealRec, e.sealing = { d.sealing with rec_ := r } ∧ r.cause = d.sealing.rec_.cause

theorem Measures.of_eq {d e : Dev} (h : e.sealing = d.sealing) : Measures d e := ⟨d.sealing.rec_, h, rfl⟩

theorem Measures.trans {d e f : Dev} (h : Measures d e) (k : Measures e f) : Measures d f := by
  obtain ⟨r, he, hr⟩ := h
  obtain ⟨q, hf, hq⟩ := k
  rw [he] at hq hf
  exact ⟨q, hf, hq.trans hr⟩

theorem learnReject_measures (d : Dev) : Measures d d.learnReject := by
  unfold Dev.learnReject
  exact (Measures.of_eq (Dev.raise_foot.sealing_eq (by decide))).trans ⟨_, rfl, rfl⟩

theorem sealLearn_measures (d : Dev) : Measures d d.sealLearn := by
  unfold Dev.sealLearn
  extract_lets s pages bytes dur k land ef measured kSeal kChanged learnt landed eFixed fixedChanged learntFixed fixed
  have hmeasured : Measures d measured := ⟨_, rfl, rfl⟩
  have hlanded : Measures measured landed := by
    unfold landed
    split
    · exact .of_eq rfl
    · split
      · exact ⟨_, rfl, rfl⟩
      · exact learnReject_measures _
  have hfixed : Measures landed fixed := by
    unfold fixed
    split
    · exact ⟨_, rfl, rfl⟩
    · exact learnReject_measures _
  exact ((hmeasured.trans hlanded).trans hfixed).trans (.of_eq (Dev.govTrigger_foot.sealing_eq (by decide)))

/-- The record of the seal, its cause and the tiles that wrote their records, goes in front of the last 128. -/
theorem sealRecord_kept (d : Dev) (warm : Bool) : ∃ r : SealRec, r.cause = d.sealing.rec_.cause ∧ r.t4Mask = d.sealing.t4Done ∧
    (d.sealLearn.sealRecord warm).sealing =
      { d.sealing with rec_ := r, last := (r :: d.sealing.last).take 128, nextRseq := d.sealing.nextRseq + 1 } := by
  obtain ⟨m, hlearn, hcause⟩ := sealLearn_measures d
  refine ⟨d.sealLearn.sealEvt warm, ?_, ?_, ?_⟩
  · unfold Dev.sealEvt
    rw [hlearn]
    exact hcause
  · unfold Dev.sealEvt
    rw [hlearn]
  · unfold Dev.sealRecord
    rw [onSealing_sealing, Dev.storeNew_foot.sealing_eq (by decide), hlearn]

/-! ### The end of a test seal (R104) -/

/-- The seal's own fields as a test ends. -/
def Dev.testOver (d : Dev) : Dev := d.onSealing fun s => { s with active := false, frozen := false, testStep := 0, tileStage := [] }

/-- What goes on after a test leaves the seal as its record has it. -/
theorem testEnd_sealing (d : Dev) (ext : Nat) (measured : Bool) : (d.testEnd ext measured).sealing =
    (if measured then d.testOver.sealLearn.sealRecord false else d.testOver).sealing := by
  unfold Dev.testEnd Dev.testOver
  extract_lets ended released reported served drained answered
  have hreleased : released.sealing = (if measured then ended.sealLearn.sealRecord false else ended).sealing := by
    unfold released
    rw [Dev.resumeWindow_foot.sealing_eq (by decide), Dev.restAgain_foot.sealing_eq (by decide), Dev.pointCheck_foot.sealing_eq (by decide),
      Dev.releaseTest_foot.sealing_eq (by decide)]
    exact foldl_keeps (π := Dev.sealing) (fun _ _ _ => Dev.landClose_foot.sealing_eq (by decide)) _
  have hreported : reported.sealing = released.sealing := by
    unfold reported
    rw [onLat_sealing, Dev.reportAborts_foot.sealing_eq (by decide)]
  have hserved : served.sealing = reported.sealing := by
    unfold served
    rw [Dev.fetchRings_foot.sealing_eq (by decide), Dev.serve_foot.sealing_eq (by decide), Dev.rewait_foot.sealing_eq (by decide),
      Dev.afterSeal_foot.sealing_eq (by decide)]
    exact foldl_keeps (π := Dev.sealing) (fun _ _ _ => Dev.armLate_foot.sealing_eq (by decide)) _
  have hdrained : drained.sealing = served.sealing := by
    unfold drained
    rw [onPanel_sealing]
  have hanswered : answered.sealing = drained.sealing :=
    foldl_keeps (π := Dev.sealing) (fun _ _ _ => Dev.bgEnd_foot.sealing_eq (by decide)) drained
  rw [Dev.sealUpd_foot.sealing_eq (by decide), Dev.govTrigger_foot.sealing_eq (by decide),
    foldl_keeps (π := Dev.sealing) (fun _ _ _ => Dev.heatApply_foot.sealing_eq (by decide)),
    foldl_keeps (π := Dev.sealing) (fun _ _ _ => Dev.faultBack_foot.sealing_eq (by decide)), hanswered, hdrained, hserved, hreported, hreleased]

/-! ### Warm return (R99, R100) -/

theorem warmOpen_sealing (d : Dev) :
    d.warmOpen.sealing = { d.sealing with active := false, frozen := false, hibernating := false } := by
  unfold Dev.warmOpen
  extract_lets reported closed opened armed ended ready counted joined headed awake heated resumed
  have harmed : armed.sealing = d.sealing := by
    refine (foldl_keeps (π := Dev.sealing) (fun _ _ _ => Dev.armLate_foot.sealing_eq (by decide)) opened).trans ?_
    refine (Dev.ledgerAll_foot.sealing_eq (by decide)).trans ?_
    refine (foldl_keeps (π := Dev.sealing) (fun _ _ _ => Dev.landClose_foot.sealing_eq (by decide)) reported).trans ?_
    exact Dev.reportAborts_foot.sealing_eq (by decide)
  have hcounted : counted.sealing = ended.sealing := by
    unfold counted
    split
    · exact Dev.dirtyShutdown_foot.sealing_eq (by decide)
    · rfl
  have hheated : ChangesOnly [.mem, .pkg, .expo, .restore, .ctxs, .dram, .energy, .flint, .lat, .heads, .slate, .upd, .dw, .out] counted heated := by
    refine .foldl (fun _ _ h => .step Dev.heatApply_foot (by decide) h) ?_
    refine .step Dev.resumeWindow_foot (by decide) (.step Dev.restAgain_foot (by decide) (.step Dev.pointCheck_foot (by decide) ?_))
    refine .foldl (fun _ _ h => .ite h (.step Dev.tileChans_foot (by decide) h)) ?_
    refine .foldl (fun _ _ h => .ite (.step Dev.onHead_foot (by decide) h) h) ?_
    exact Dev.onLat_foot.mono (by decide)
  have hresumed : resumed.sealing = heated.sealing := by
    unfold resumed
    rw [Dev.recompute_foot.sealing_eq (by decide), Dev.serve_foot.sealing_eq (by decide), Dev.rewait_foot.sealing_eq (by decide),
      Dev.afterSeal_foot.sealing_eq (by decide), Dev.resumeRings_foot.sealing_eq (by decide),
      foldl_keeps (π := Dev.sealing) (fun _ _ _ => Dev.faultBack_foot.sealing_eq (by decide))]
  rw [Dev.restUpd_foot.sealing_eq (by decide), Dev.sealUpd_foot.sealing_eq (by decide),
    foldl_keeps (π := Dev.sealing) (fun _ _ _ => Dev.bayUpd_foot.sealing_eq (by decide)), hresumed, hheated.sealing_eq (by decide), hcounted]
  exact congrArg (fun s : Seal => { s with active := false, frozen := false, hibernating := false }) harmed

/-- The restore starts again from the mount: memory is closed, DRAM is empty and no page is dirty. -/
theorem beginMount_fields (d : Dev) : d.beginMount.restore.phase = 4 ∧ d.beginMount.restore.ready = false ∧ d.beginMount.mem = [] ∧
    d.beginMount.expo.dirty = [] := by
  unfold Dev.beginMount Dev.mountReset
  extract_lets closed phased emptied lost reverted
  have hheads : ChangesOnly [.heads, .dw] reverted
      ([0, 1].foldl (fun d h => d.onHead h fun x => { x with media := if x.media = 3 then 3 else 0, poison := [], poisonOvf := false })
        reverted).restUpd :=
    .step Dev.restUpd_foot (by decide) (.foldl (fun _ _ h => .step Dev.onHead_foot (by decide) h) (.refl _ _))
  rw [hheads.restore_eq (by decide), hheads.mem_eq (by decide), hheads.expo_eq (by decide)]
  exact ⟨rfl, rfl, rfl, rfl⟩

/-- With a canary lost on a tile in service the seal ends in a restore from the mount. -/
theorem warmReturn_lost {d : Dev} {canary : BitVec 8} (h : (d.inSvc.all fun t => mbit canary t) = false) :
    (d.warmReturn canary).sealing.active = false ∧ (d.warmReturn canary).restore.phase = 4 ∧ (d.warmReturn canary).restore.ready = false ∧
    (d.warmReturn canary).mem = [] ∧ (d.warmReturn canary).expo.dirty = [] := by
  unfold Dev.warmReturn
  rw [if_neg (Bool.eq_false_iff.mp h), Dev.sealUpd_foot.sealing_eq (by decide), Dev.sealUpd_foot.restore_eq (by decide),
    Dev.sealUpd_foot.mem_eq (by decide), Dev.sealUpd_foot.expo_eq (by decide), Dev.beginMount_foot.sealing_eq (by decide),
    foldl_keeps (π := Dev.sealing) (fun _ _ _ => Dev.faultBack_foot.sealing_eq (by decide))]
  exact ⟨rfl, beginMount_fields _⟩

/-! ### Stages 5 and 6 (R89, R90, R101) -/

/-- Stage 5 begins with write protection on, and the DRAM and flash rails off but for cause 3h. -/
theorem stage5Begin_effect (d : Dev) : d.stage5Begin.sealing = { d.sealing with stage := 5 } ∧ d.stage5Begin.panel = { d.panel with
    fWpN := true
    rails := if d.sealing.cause != 3 then min d.panel.rails 3 else d.panel.rails
    railsGood := if d.sealing.cause != 3 then min d.panel.railsGood 3 else d.panel.railsGood } := by
  unfold Dev.stage5Begin
  extract_lets off cut slept
  have hslept : ChangesOnly [.dram, .dw] cut slept := .foldl (fun _ _ h => .ite h (.step Dev.tileChans_foot (by decide) h)) (.refl _ _)
  rw [Dev.sealUpd_foot.sealing_eq (by decide), Dev.sealUpd_foot.panel_eq (by decide), onSealing_sealing, onSealing_panel,
    hslept.sealing_eq (by decide), hslept.panel_eq (by decide)]
  exact ⟨rfl, rfl⟩

/-- With the core off PWR_EN is deasserted; the cause of the seal and a package reset that is due stay. -/
theorem coreOff_panel (d : Dev) : d.coreOff.panel.pwrEn = false ∧ d.coreOff.panel.coreUp = false ∧
    d.coreOff.panel.sealCause = d.panel.sealCause ∧ d.coreOff.panel.resetDue = d.panel.resetDue := by
  unfold Dev.coreOff
  extract_lets off unsynced quiet slates tiles
  have hbays : ChangesOnly [.energy] tiles
      ([0, 1].foldl (fun d b => d.onBay b fun x => { x with lock := false, charging := false }) tiles) :=
    .foldl (fun _ _ h => .step Dev.onBay_foot (by decide) h) (.refl _ _)
  rw [hbays.panel_eq (by decide), show tiles.panel = off.panel from Dev.uncSync_foot.panel_eq (by decide)]
  exact ⟨rfl, rfl, rfl, rfl⟩

theorem hibernate_sealing (d : Dev) (cause : Nat) (clean : Bool) : (d.hibernate cause clean).sealing =
    { d.sealing with active := false, frozen := false, hibernating := true, stage6Clean := clean } := by
  unfold Dev.hibernate
  extract_lets ended cooling
  rw [Dev.coreOff_foot.sealing_eq (by decide), onPanel_sealing]
  unfold cooling
  split <;> rfl

theorem hibernate_panel (d : Dev) (cause : Nat) (clean : Bool) :
    (d.hibernate cause clean).panel.pwrEn = false ∧ (d.hibernate cause clean).panel.coreUp = false ∧
    (d.hibernate cause clean).panel.sealCause = some cause ∧ (d.hibernate cause clean).panel.resetDue = d.panel.resetDue := by
  unfold Dev.hibernate
  extract_lets ended cooling
  obtain ⟨hpwr, hcore, hcause, hreset⟩ := coreOff_panel (cooling.onPanel fun p => { p with sealCause := some cause })
  have hcooling : cooling.panel = d.panel := by
    unfold cooling
    split <;> rfl
  exact ⟨hpwr, hcore, hcause, hreset.trans (congrArg Panel.resetDue hcooling :)⟩

/-- What stage 5 writes: the learning values, the seal's event record, and what other blocks keep (R89, R107). -/
def Dev.stage5Writes (d : Dev) : Dev := ((d.sealLearn.sealRecord false).stateWrite).thermKeep.flintExtract.snapKeep.stampFloor

/-- Of the seal they change the event record alone, which goes in front of the last 128. -/
theorem stage5Writes_sealing (d : Dev) : ∃ r : SealRec, r.cause = d.sealing.rec_.cause ∧ r.t4Mask = d.sealing.t4Done ∧
    d.stage5Writes.sealing = { d.sealing with rec_ := r, last := (r :: d.sealing.last).take 128, nextRseq := d.sealing.nextRseq + 1 } := by
  unfold Dev.stage5Writes
  rw [Dev.stampFloor_foot.sealing_eq (by decide), Dev.snapKeep_foot.sealing_eq (by decide), Dev.flintExtract_foot.sealing_eq (by decide),
    Dev.thermKeep_foot.sealing_eq (by decide), Dev.stateWrite_foot.sealing_eq (by decide)]
  exact sealRecord_kept d false

theorem stage5Writes_foot (d : Dev) : ChangesOnly [.expo, .sealing, .energy, .therm, .flint, .qtz, .snap, .slate, .freeN] d d.stage5Writes := by
  unfold Dev.stage5Writes
  refine .step Dev.stampFloor_foot (by decide) (.step Dev.snapKeep_foot (by decide) (.step Dev.flintExtract_foot (by decide) ?_))
  refine .step Dev.thermKeep_foot (by decide) (.step Dev.stateWrite_foot (by decide) (.step Dev.sealRecord_foot (by decide) ?_))
  exact Dev.sealLearn_foot.mono (by decide)

/-- What follows in stage 5 before stage 6 for a cause other than 3h: scheduled snapshots are cancelled, the rests end, and the core goes off. -/
def Dev.stage5Off (d : Dev) (cause : Nat) (clean : Bool) : Dev :=
  let d := d.onSnap fun s => { s with cancelledEvent := s.cancelledEvent || !s.sched.isEmpty, sched := [] }
  let d := [0, 1].foldl (fun d b => d.disqualify b) d
  (d.onSealing fun s => { s with stage := 6 }).sealUpd.hibernate cause clean

theorem stage5Off_sealing (d : Dev) (cause : Nat) (clean : Bool) : (d.stage5Off cause clean).sealing =
    { d.sealing with stage := 6, active := false, frozen := false, hibernating := true, stage6Clean := clean } := by
  unfold Dev.stage5Off
  extract_lets cancelled rested
  rw [hibernate_sealing, Dev.sealUpd_foot.sealing_eq (by decide), onSealing_sealing,
    show rested.sealing = d.sealing from foldl_keeps (π := Dev.sealing) (fun _ _ _ => Dev.disqualify_foot.sealing_eq (by decide)) cancelled]

theorem stage5Off_panel (d : Dev) (cause : Nat) (clean : Bool) :
    (d.stage5Off cause clean).panel.pwrEn = false ∧ (d.stage5Off cause clean).panel.coreUp = false ∧
    (d.stage5Off cause clean).panel.sealCause = some cause ∧ (d.stage5Off cause clean).panel.resetDue = d.panel.resetDue := by
  unfold Dev.stage5Off
  extract_lets cancelled rested
  have hpanel : (rested.onSealing fun s => { s with stage := 6 }).sealUpd.panel = d.panel := by
    rw [Dev.sealUpd_foot.panel_eq (by decide), onSealing_panel]
    exact foldl_keeps (π := Dev.panel) (fun _ _ _ => Dev.disqualify_foot.panel_eq (by decide)) cancelled
  rw [← hpanel]
  exact hibernate_panel _ cause clean

/-! ### The package seal record (R88, R107) -/

/-- The lead has written the package seal record. -/
def Dev.pkgSealed (d : Dev) : Dev :=
  let e := d.ledger d.pkg.lead 0x0B d.sealing.t4Done.toNat 0 0 d.sealing.test
  e.onSealing fun s => { s with
    stage := 4, pkgRecord := true, rec_ := { s.rec_ with tPkg := e.now, vA := e.srcMv 0, vB := e.srcMv 1, vBridge := e.srcMv 2 } }

theorem pkgSealed_foot (d : Dev) : ChangesOnly [.expo, .sealing, .flash] d d.pkgSealed := by
  unfold Dev.pkgSealed
  exact .step Dev.onSealing_foot (by decide) (Dev.ledger_foot.mono (by decide))

theorem pkgSealed_sealing (d : Dev) : ∃ r, d.pkgSealed.sealing = { d.sealing with stage := 4, pkgRecord := true, rec_ := r } := by
  unfold Dev.pkgSealed
  extract_lets e
  rw [onSealing_sealing, show e.sealing = d.sealing from Dev.ledger_foot.sealing_eq (by decide)]
  exact ⟨_, rfl⟩

theorem pkgSealed_dirty (d : Dev) : d.pkgSealed.expo.dirty = d.expo.dirty :=
  (congrArg Expo.dirty (cairn_offQueue d ..) :)

/-- The record is due once every tile in service is done, and none waits for a takeover. -/
theorem pkgRecord_due {d : Dev} (hact : d.sealing.active = true) (h2 : 2 ≤ d.sealing.stage) (h5 : d.sealing.stage < 5)
    (hrec : d.sealing.pkgRecord = false) (hdone : d.tilesSealed = true) (htake : d.pkg.takeStep = 0) :
    ¬ ((!d.sealing.active) = true ∨ d.sealing.stage < 2 ∨ 5 ≤ d.sealing.stage ∨ d.sealing.pkgRecord = true ∨ (!d.tilesSealed) = true ∨
      d.pkg.takeStep ≠ 0) := by
  simp only [hact, hrec, hdone, htake, Bool.not_true, Bool.false_eq_true, false_or, or_false, ne_eq, not_true]
  omega

/-- Stage 5 ends where no takeover is under way. -/
theorem stage5_ends {d : Dev} (hact : d.sealing.active = true) (hstage : d.sealing.stage = 5) (htake : d.pkg.takeStep = 0) :
    ¬ ((!d.sealing.active) = true ∨ d.sealing.stage ≠ 5 ∨ d.pkg.takeStep ≠ 0) := by
  simp [hact, hstage, htake]

/-- A warm return finds the tiles in service that were there before the records were written. -/
theorem warmReturn_inSvc (d : Dev) : (d.pkgSealed.sealLearn.sealRecord true).inSvc = d.inSvc := by
  refine inSvc_congr ((Dev.sealRecord_foot.pkg_eq (by decide)).trans ((Dev.sealLearn_foot.pkg_eq (by decide)).trans ?_))
  exact (pkgSealed_foot d).pkg_eq (by decide)

/-- Settles O21: the package seal record, then the branch that ends the seal; stage 5 writes the event record and resets or hibernates. -/
theorem sealEndRows : Obligations.SealEndRows := by
  refine ⟨fun s canary dt hact htest h2 h5 hrec hdone htake hcause hback hcan => ?_,
    fun s canary dt hact htest h2 h5 hrec hdone htake hcause hback hcan => ?_,
    fun s canary dt hact htest h2 h5 hrec hdone htake hstays => ?_, fun s canary dt hact htest h2 h5 hrec hdone htake => ?_,
    fun s dt hact hstage htake hcause => ?_, fun s dt hact hstage htake hcause => ?_⟩
  · have hrow := pkgRecord_due (d := s.dev.elapse dt) hact h2 h5 hrec hdone htake
    have hin : (((s.dev.elapse dt).pkgSealed.sealLearn.sealRecord true).inSvc.all fun t => mbit canary t) = true := by
      rw [warmReturn_inSvc]
      exact hcan
    refine .of_dev (e := ((s.dev.elapse dt).pkgSealed.sealLearn.sealRecord true).warmReturn canary)
      execPackageSealRecordWritten_foot (by decide) rfl rfl
      ((if_neg hrow).trans ((if_neg (Bool.eq_false_iff.mp htest)).trans (if_pos ⟨hcause, hback⟩))) ?_
    obtain ⟨m, hsealed⟩ := pkgSealed_sealing (s.dev.elapse dt)
    obtain ⟨r, -, -, hkept⟩ := sealRecord_kept (s.dev.elapse dt).pkgSealed true
    rw [Dev.warmReturn, if_pos hin, warmOpen_sealing, hkept, hsealed]
    exact ⟨rfl, rfl, rfl⟩
  · have hrow := pkgRecord_due (d := s.dev.elapse dt) hact h2 h5 hrec hdone htake
    refine .of_dev (e := ((s.dev.elapse dt).pkgSealed.sealLearn.sealRecord true).warmReturn canary)
      execPackageSealRecordWritten_foot (by decide) rfl rfl
      ((if_neg hrow).trans ((if_neg (Bool.eq_false_iff.mp htest)).trans (if_pos ⟨hcause, hback⟩))) ?_
    refine warmReturn_lost ?_
    rw [warmReturn_inSvc]
    exact hcan
  · have hrow := pkgRecord_due (d := s.dev.elapse dt) hact h2 h5 hrec hdone htake
    have hnowarm : ¬ (s.dev.sealing.cause ≤ 1 ∧ s.dev.sealing.mainsBack = true) := by
      rintro ⟨hle, hback⟩
      rcases hstays with h | h
      · omega
      · rw [h] at hback
        cases hback
    refine .of_dev (e := (s.dev.elapse dt).pkgSealed.stage5Begin) execPackageSealRecordWritten_foot (by decide) rfl rfl
      ((if_neg hrow).trans ((if_neg (Bool.eq_false_iff.mp htest)).trans (if_neg hnowarm))) ?_
    obtain ⟨m, hsealed⟩ := pkgSealed_sealing (s.dev.elapse dt)
    obtain ⟨hsealing, hpanel⟩ := stage5Begin_effect (s.dev.elapse dt).pkgSealed
    rw [hsealing, hpanel, Dev.stage5Begin_foot.mem_eq (by decide), Dev.stage5Begin_foot.expo_eq (by decide),
      pkgSealed_dirty, (pkgSealed_foot _).mem_eq (by decide), (pkgSealed_foot _).panel_eq (by decide), hsealed]
    refine ⟨hact, rfl, rfl, rfl, rfl, rfl, fun hcause => ?_, fun hcause => ?_⟩
    · exact (if_pos (bne_iff_ne.mpr hcause)).trans_le (Nat.min_le_right ..)
    · exact if_neg fun h => bne_iff_ne.mp h hcause
  · have hrow := pkgRecord_due (d := s.dev.elapse dt) hact h2 h5 hrec hdone htake
    refine .of_dev (e := (s.dev.elapse dt).pkgSealed.testEnd 0 true) execPackageSealRecordWritten_foot (by decide) rfl rfl
      ((if_neg hrow).trans (if_pos htest)) ?_
    obtain ⟨m, hsealed⟩ := pkgSealed_sealing (s.dev.elapse dt)
    obtain ⟨r, -, -, hkept⟩ := sealRecord_kept (s.dev.elapse dt).pkgSealed.testOver false
    rw [testEnd_sealing, if_pos rfl, hkept, Dev.testOver, onSealing_sealing, hsealed]
    exact ⟨rfl, rfl, rfl, rfl⟩
  · have hrow := stage5_ends (d := s.dev.elapse dt) hact hstage htake
    refine .of_dev (e := ((((s.dev.elapse dt).stage5Writes.onSealing fun s => { s with active := false }).onRestore fun r =>
      { r with dramKept := true }).onPanel fun p => { p with resetDue := true }).sealUpd)
      execStage5Complete_foot (by decide) rfl rfl ((if_neg hrow).trans (if_pos hcause)) ?_
    obtain ⟨r, hr, ht4, hkept⟩ := stage5Writes_sealing (s.dev.elapse dt)
    have hmem : (s.dev.elapse dt).stage5Writes.mem = s.dev.mem := (stage5Writes_foot _).mem_eq (by decide)
    generalize (s.dev.elapse dt).stage5Writes = e at hkept hmem ⊢
    rw [Dev.sealUpd_foot.sealing_eq (by decide), Dev.sealUpd_foot.restore_eq (by decide), Dev.sealUpd_foot.panel_eq (by decide),
      Dev.sealUpd_foot.mem_eq (by decide), onPanel_sealing, onRestore_sealing, onSealing_sealing, hkept]
    exact ⟨rfl, rfl, rfl, hmem, rfl, congrArg some (Prod.ext hr ht4)⟩
  · have hrow := stage5_ends (d := s.dev.elapse dt) hact hstage htake
    refine .of_dev (e := (s.dev.elapse dt).stage5Writes.stage5Off s.dev.sealing.cause (s.dev.sealing.inService &&& ~~~s.dev.sealing.t4Done == 0))
      execStage5Complete_foot (by decide) rfl rfl ((if_neg hrow).trans (if_neg hcause)) ?_
    obtain ⟨r, hr, ht4, hkept⟩ := stage5Writes_sealing (s.dev.elapse dt)
    obtain ⟨hpwr, hup, hcaused, hreset⟩ := stage5Off_panel (s.dev.elapse dt).stage5Writes s.dev.sealing.cause
      (s.dev.sealing.inService &&& ~~~s.dev.sealing.t4Done == 0)
    have hpanel : (s.dev.elapse dt).stage5Writes.panel = s.dev.panel := (stage5Writes_foot _).panel_eq (by decide)
    generalize (s.dev.elapse dt).stage5Writes = e at hkept hpanel hpwr hup hcaused hreset ⊢
    rw [hpanel] at hreset
    rw [stage5Off_sealing, hkept]
    exact ⟨rfl, rfl, hpwr, hup, hcaused, hreset, rfl, congrArg some (Prod.ext hr ht4)⟩

end Sys2Proof.Machine
end

section
/-! LEMMAS. RESET_N and the timed steps of a test seal (chapter 03). -/

namespace Sys2Proof.Machine

/-! ### RESET_N (R101) -/

/-- RESET_N is released: its timing ends. -/
def Dev.resetReleased (d : Dev) : Dev := d.onPanel fun p => { p with resetNAt := none, resetTaken := false }

/-- An assertion of 10 µs or more that no forced reset has taken acts where no seal runs. -/
theorem resetN_acts {d : Dev} {t0 : Nat} (hwidth : 10000 ≤ d.since t0) (htaken : d.panel.resetTaken = false)
    (hact : d.sealing.active = false) : ¬ (d.since t0 < 10000 ∨ d.panel.resetTaken = true ∨ d.sealing.active = true) := by
  simp only [htaken, hact, Bool.false_eq_true, or_false]
  omega

/-- The safe state of an Urgent fault leaves the seal as it is. -/
theorem safeState_one (d : Dev) : 1 ≤ (d.safeState 1).pkg.safe ∧ (d.safeState 1).sealing = d.sealing := by
  unfold Dev.safeState
  extract_lets held paced frozen safe emptied refused answered slept
  have hslept : ChangesOnly [.dram, .dw, .out] emptied slept := by
    refine .foldl (fun _ _ h => .step Dev.tileChans_foot (by decide) h) (.foldl (fun _ _ h => .step Dev.emit_foot (by decide) h) ?_)
    exact .foldl (fun _ _ h => .step Dev.refuseErr_foot (by decide) h) (.refl _ _)
  rw [onFlint_pkg, onFlint_sealing, onSealing_pkg, onSealing_sealing, onPanel_pkg, onPanel_sealing, hslept.pkg_eq (by decide),
    hslept.sealing_eq (by decide)]
  exact ⟨Nat.le_max_right .., Dev.freezeEnergy_foot.sealing_eq (by decide)⟩

/-- A forced reset puts the device in a safe state, makes a package reset due and does not trust DRAM; whether a seal runs stays. -/
theorem forcedReset_fields (d : Dev) : d.forcedReset.panel.resetDue = true ∧ d.forcedReset.panel.resetTaken = true ∧
    d.forcedReset.restore.dramKept = false ∧ 1 ≤ d.forcedReset.pkg.safe ∧ d.forcedReset.sealing = d.sealing := by
  unfold Dev.forcedReset
  extract_lets safe unkept
  have hsafe : 1 ≤ safe.pkg.safe ∧ safe.sealing = d.sealing := by
    unfold safe
    split
    · exact safeState_one d
    · rename_i hne
      exact ⟨Nat.one_le_iff_ne_zero.mpr hne, rfl⟩
  exact ⟨rfl, rfl, rfl, hsafe.1, hsafe.2⟩

/-- Settles O22: each row by the length of the assertion and the state of the device, and the two steps of a test by their guards. -/
theorem resetPinAndTestSealRows : Obligations.ResetPinAndTestSealRows := by
  refine ⟨fun s dt hon => ?_, fun s dt t0 hat hshort => ?_, fun s dt t0 hat hlong hbelow htaken hup hmains hsafe hready hbed hact => ?_,
    fun s dt t0 hat hlong htaken hup hpwr hact => ?_, fun s dt t0 hat hlong htaken hup hmains hact => ?_, fun s dt hact hstep => ?_,
    fun s dt hact hstep => ?_, fun s dt hact htest hstep hlimit => ?_⟩
  · exact .of_dev execResetNAssert_foot (by decide) rfl rfl (if_pos (Bool.or_eq_true_iff.mpr hon)) rfl
  · have hpanel : (s.dev.elapse dt).panel.resetNAt = some t0 := hat
    have hwidth : (s.dev.elapse dt).since t0 < 10000 := by
      unfold Dev.since
      omega
    refine .of_eq (r := execResetNRelease dt s) (e := (s.dev.elapse dt).resetReleased) rfl rfl ?_
      (.step Dev.onPanel_foot (by decide) (Dev.elapse_foot.mono (by decide))) rfl
    dsimp only
    rw [hpanel]
    exact if_pos (.inl hwidth)
  · have hpanel : (s.dev.elapse dt).panel.resetNAt = some t0 := hat
    have hwidth : 10000 ≤ (s.dev.elapse dt).since t0 ∧ (s.dev.elapse dt).since t0 < 2000000000 := by
      unfold Dev.since
      omega
    have hacts := resetN_acts (d := s.dev.elapse dt) hwidth.1 htaken hact
    have hcore : ¬ (!s.dev.panel.coreUp) = true := by simp [hup]
    have hunsafe : ¬ s.dev.pkg.safe = 2 := by omega
    have hopen : ¬ (s.dev.pkg.bedrock = true ∨ (!s.dev.restore.ready) = true) := by simp [hbed, hready]
    refine .of_dev (e := (s.dev.elapse dt).resetReleased.sealBegin 3) execResetNRelease_foot (by decide) rfl rfl ?_ ?_
    · dsimp only
      rw [hpanel]
      refine (if_neg hacts).trans ((if_neg hcore).trans ((if_neg hunsafe).trans ((if_neg hopen).trans ((if_pos ⟨hwidth.2, hmains⟩).trans ?_))))
      exact trigger_opened (d := (s.dev.elapse dt).resetReleased) hup hsafe hready hbed hact
    · obtain ⟨hactive, hfrozen, -, hstage, hcause, -⟩ := sealBegin_fields (s.dev.elapse dt).resetReleased 3
      rw [sealBegin_panel]
      exact ⟨hactive, hcause, hstage, hfrozen, rfl⟩
  · have hpanel : (s.dev.elapse dt).panel.resetNAt = some t0 := hat
    have hwidth : 10000 ≤ (s.dev.elapse dt).since t0 := by
      unfold Dev.since
      omega
    refine .of_dev (e := (s.dev.elapse dt).resetReleased.powerStart) execResetNRelease_foot (by decide) rfl rfl ?_ ⟨rfl, rfl, rfl, rfl, rfl⟩
    dsimp only
    rw [hpanel]
    exact (if_neg (resetN_acts (d := s.dev.elapse dt) hwidth htaken hact)).trans ((if_pos (congrArg (! ·) hup)).trans (if_pos hpwr))
  · have hpanel : (s.dev.elapse dt).panel.resetNAt = some t0 := hat
    have hwidth : 2000000000 ≤ (s.dev.elapse dt).since t0 := Nat.le_sub_of_add_le' hlong
    refine .of_dev (e := (s.dev.elapse dt).forcedReset) execForcedReset_foot (by decide) rfl rfl ?_ ?_
    · dsimp only
      rw [hpanel]
      refine (if_pos ?_).trans (if_pos hup)
      simp [hwidth, htaken, hact, hmains]
    · obtain ⟨hreset, htook, hkept, hsafe, hsealing⟩ := forcedReset_fields (s.dev.elapse dt)
      exact ⟨hreset, htook, hkept, hsafe, (congrArg Seal.active hsealing).trans hact⟩
  · have hrow : ¬ (s.dev.sealing.testStep ≠ 1 ∨ (!s.dev.sealing.active) = true) := by simp [hact, hstep]
    refine .of_dev execTestSealPathVerified_foot (by decide) rfl rfl ((if_neg hrow).trans (if_pos rfl)) ?_
    rw [sealFreeze_sealing]
    exact ⟨hact, rfl, rfl, rfl, rfl⟩
  · have hrow : ¬ (s.dev.sealing.testStep ≠ 1 ∨ (!s.dev.sealing.active) = true) := by simp [hact, hstep]
    refine .of_dev execTestSealPathVerified_foot (by decide) rfl rfl ((if_neg hrow).trans (if_neg (by decide))) ?_
    rw [testEnd_sealing]
    exact ⟨rfl, rfl, rfl⟩
  · exact .of_dev execTestSealHoldLimit_foot (by decide) rfl rfl (if_pos ⟨hact, htest, hstep, hlimit⟩) rfl

end Sys2Proof.Machine
end

section
set_option Elab.async false
/-! LEMMAS. The latest OPEN record of a tile, which a block that fails and the release of partial strata leave (chapters 04 and 06). -/

namespace Sys2Proof.Machine

/-- The latest OPEN record in the ledger of a tile (R114). -/
def Dev.lastOpen (d : Dev) (t : Nat) : Option LedgerEntry := d.lastEntry t fun x => x.typ == 0x0D

theorem lastOpen_of_ledger {d e : Dev} {t : Nat} (h : (e.fl t).ledger = (d.fl t).ledger) : e.lastOpen t = d.lastOpen t := by
  unfold Dev.lastOpen Dev.lastEntry
  rw [h]

/-! ### OPEN records of all tiles in service (R119) -/

/-- A Cairn program of tile `t` leaves the latest OPEN record of every other tile, and that of `t` where it programs none. -/
theorem cairn_lastOpen (d : Dev) (t u : Nat) (es : List LedgerEntry) (h : u = t → ∀ x ∈ es, x.typ ≠ 0x0D) :
    (d.cairn t es).lastOpen u = d.lastOpen u := by
  by_cases hu : u = t
  · subst hu
    obtain ⟨more, hmore, hledger⟩ := cairn_ledger d u es
    have hother : ∀ x ∈ es ++ more, x.typ ≠ 0x0D := by
      intro x hx
      rcases List.mem_append.mp hx with hx | hx
      · exact h rfl x hx
      · have htyp := hmore x hx
        omega
    calc (d.cairn u es).lastOpen u = (d.cairnPut u (es ++ more)).lastOpen u := lastOpen_of_ledger hledger
      _ = (d.ledgerPage u).1.lastOpen u := foldl_ledgerAdd_lastEntry _ hother _
      _ = d.lastOpen u := lastOpen_of_ledger (ledgerPage_ledger d u u)
  · have hput (es : List LedgerEntry) : ((d.cairnPut t es).fl u).ledger = (d.fl u).ledger :=
      (foldl_keeps (π := fun d : Dev => (d.fl u).ledger) (fun d _ _ => congrArg TileFlash.ledger (fl_onFl_ne d _ hu)) _).trans
        (ledgerPage_ledger d t u)
    unfold Dev.cairn
    extract_lets room ints dis put marked taken
    refine lastOpen_of_ledger ?_
    calc (taken.fl u).ledger = (marked.fl u).ledger := fl_onFl_field (π := TileFlash.ledger) marked t u
      _ = (put.fl u).ledger := foldl_keeps (π := fun d : Dev => (d.fl u).ledger) (fun d b _ => onBlk_ledger d t b u _) put
      _ = (d.fl u).ledger := hput _

/-- The OPEN record of a cold open becomes the latest of its tile. -/
theorem ledger_opened (d : Dev) (t : Nat) : ((d.ledger t 0x0D 0).lastOpen t).map (fun x => x.a) = some 0 := by
  obtain ⟨lseq, time, page, hlast, -⟩ := cairn_lastEntry d t { typ := 0x0D } (by decide) (by decide)
  exact congrArg (Option.map fun x => x.a) hlast

theorem ledgerAll_opened {t : Nat} {ts : List Nat} (d : Dev) (h : t ∈ ts ∨ (d.lastOpen t).map (fun x => x.a) = some 0) :
    ((d.ledgerAll ts 0x0D 0).lastOpen t).map (fun x => x.a) = some 0 := by
  unfold Dev.ledgerAll
  induction ts generalizing d with
  | nil => exact h.resolve_left List.not_mem_nil
  | cons u ts ih =>
    refine ih (d.ledger u 0x0D 0) ?_
    by_cases hu : t = u
    · subst hu
      exact .inr (ledger_opened d t)
    · refine h.imp (fun hmem => (List.mem_cons.mp hmem).resolve_left hu) fun hlast => ?_
      unfold Dev.ledger
      rwa [cairn_lastOpen d u t _ fun heq => absurd heq hu]

/-! ### What leaves the OPEN records -/

/-- From `d` to `e` no OPEN record is programmed. -/
def SameOpen (d e : Dev) : Prop := ∀ t, e.lastOpen t = d.lastOpen t

namespace SameOpen
variable {d e f : Dev}

theorem refl (d : Dev) : SameOpen d d := fun _ => rfl

theorem trans (h : SameOpen d e) (k : SameOpen e f) : SameOpen d f := fun t => (k t).trans (h t)

theorem step {S : List Part} (h : SameOpen d e) (k : ChangesOnly S e f) (hS : Part.flash ∉ S := by decide) : SameOpen d f :=
  h.trans fun t => lastOpen_of_ledger (congrArg TileFlash.ledger (fl_of_foot k t hS))

theorem onFl {t : Nat} {g : TileFlash → TileFlash} (h : SameOpen d e) (hg : ∀ x, (g x).ledger = x.ledger := by exact fun _ => rfl) :
    SameOpen d (e.onFl t g) :=
  h.trans fun u => lastOpen_of_ledger (fl_onFl_field (π := TileFlash.ledger) e t u hg)

theorem onBlk {t n : Nat} {g : Block → Block} (h : SameOpen d e) : SameOpen d (e.onBlk t n g) := h.onFl

theorem ite {c : Prop} {_ : Decidable c} (h : SameOpen d e) (k : SameOpen d f) : SameOpen d (if c then e else f) := by split <;> assumption

theorem foldl {α : Type} {g : Dev → α → Dev} {l : List α} (h : SameOpen d e) (hg : ∀ e a, SameOpen d e → SameOpen d (g e a)) :
    SameOpen d (l.foldl g e) := by
  induction l generalizing e with
  | nil => exact h
  | cons a l ih => exact ih (hg _ _ h)

theorem ledger {t typ a b c : Nat} {test : Bool} (h : SameOpen d e) (htyp : typ ≠ 0x0D := by decide) :
    SameOpen d (e.ledger t typ a b c test) :=
  h.trans fun u => cairn_lastOpen e t u _ fun _ x hx => by
    rw [List.mem_singleton.mp hx]
    exact htyp

/-! #### The streams of the log (R137, R152) -/

theorem zoneUse {t k n : Nat} (h : SameOpen d e) : SameOpen d (e.zoneUse t k n) := by
  unfold Dev.zoneUse
  exact .ite h.onFl h

theorem onFlow {t k : Nat} {g : FlashStream → FlashStream} (h : SameOpen d e) : SameOpen d (e.onFlow t k g) := h.onFl

theorem putMetas {t : Nat} {ms : List MetaRec} (h : SameOpen d e) : SameOpen d (e.putMetas t ms) := h.onFl

theorem openFor {t k : Nat} (h : SameOpen d e) : SameOpen d (e.openFor t k) := by
  unfold Dev.openFor
  split
  · exact h
  · extract_lets closed opened zoned
    have hopened : SameOpen d opened := h.onBlk.onBlk.ledger
    have hzoned : SameOpen d zoned := .ite hopened hopened.onFl
    exact hzoned.onFlow

theorem takePage {t k : Nat} (h : SameOpen d e) (hk : k ≠ 4) : SameOpen d (e.takePage t k).1 := by
  unfold Dev.takePage
  rw [if_neg hk]
  extract_lets opened s
  have hopened : SameOpen d opened := .ite h.openFor h
  split
  · exact hopened
  · exact hopened.onFlow

theorem drawSlot {t k : Nat} {elided : Bool} (h : SameOpen d e) (hk : k ≠ 4) : SameOpen d (e.drawSlot t k elided).1 := by
  unfold Dev.drawSlot
  extract_lets s zoned counted closed page
  have hpage : SameOpen d page.1 := h.takePage hk
  have hzoned : SameOpen d zoned := .ite h.zoneUse h
  have hclosed : SameOpen d closed := .ite hzoned.onFlow.putMetas hzoned.onFlow
  clear_value closed page
  split
  · split
    · exact hclosed
    · split
      · exact hpage
      · exact hpage.zoneUse.onFlow
  · split
    · exact h.zoneUse.onFlow
    · split
      · exact hpage
      · exact hpage.zoneUse.onFlow

theorem closePage {t k a : Nat} (h : SameOpen d e) : SameOpen d (e.closePage t k a) := by
  unfold Dev.closePage
  exact .ite h.putMetas.zoneUse.onFlow (.ite h.putMetas.zoneUse.onFlow h)

theorem closeStream {t k : Nat} (h : SameOpen d e) : SameOpen d (e.closeStream t k) := h.closePage.closePage

theorem metaPut {t kind : Nat} {l : List (Nat × List (Nat × Nat))} (h : SameOpen d e) : SameOpen d (e.metaPut t kind l) := by
  unfold Dev.metaPut
  refine (h.foldl fun f x hf => ?_).closeStream
  unfold Dev.metaOne
  extract_lets y
  have hy : SameOpen d y.1 := hf.drawSlot (by decide)
  clear_value y
  split
  · exact hy
  · exact hy.putMetas

/-! #### Records moved out of a block (R143, R145) -/

theorem capUse {t bytes : Nat} (h : SameOpen d e) : SameOpen d (e.capUse t bytes) := by
  unfold Dev.capUse
  split
  · exact h
  · exact h.onFl

theorem relocate {t k : Nat} {draw : Bool} {soft : List Nat} {r : PageRec} (h : SameOpen d e) (hk : k ≠ 4) :
    SameOpen d (e.relocate t k draw soft r) := by
  unfold Dev.relocate
  extract_lets x refreshed cur
  have hx : SameOpen d x.1 := h.drawSlot hk
  have hrefreshed : SameOpen d refreshed := .ite hx.onBlk hx
  clear_value refreshed cur
  split
  · exact h
  · split
    · exact hx
    · extract_lets moved remapped used
      have hused : SameOpen d used := (hrefreshed.step Dev.onStrata_foot).capUse
      exact .ite hused.onFl hused

theorem relocateMeta {t : Nat} {draw : Bool} {m : MetaRec} (h : SameOpen d e) : SameOpen d (e.relocateMeta t draw m) := by
  unfold Dev.relocateMeta
  extract_lets x
  have hx : SameOpen d x.1 := h.drawSlot (by decide)
  clear_value x
  split
  · exact h
  · split
    · exact hx
    · exact hx.onFl

theorem strataLost {t : Nat} {r : PageRec} (h : SameOpen d e) : SameOpen d (e.strataLost t r) := by
  unfold Dev.strataLost
  extract_lets hit bad logged recorded
  have hlogged : SameOpen d logged := h.foldl fun _ _ hf => .ite hf (hf.foldl fun _ _ hg => hg.ledger)
  have hrecorded : SameOpen d recorded := hlogged.step Dev.onStrata_foot
  exact .ite hrecorded (hrecorded.step Dev.raise_foot)

theorem recLost {t : Nat} {r : PageRec} (h : SameOpen d e) : SameOpen d (e.recLost t r) := by
  unfold Dev.recLost
  exact (SameOpen.ite h ((h.step Dev.dirtyArmed_foot).step Dev.raise_foot)).strataLost

theorem moveOut {t b : Nat} {draw : Bool} {lost soft : List Nat} (h : SameOpen d e) : SameOpen d (e.moveOut t b draw lost soft) := by
  unfold Dev.moveOut
  have hrecs := h.foldl (l := e.liveRecs t b) (g := fun d r => if lost.contains r.page then d.recLost t r else d.relocate t 1 draw soft r)
    fun _ _ hf => .ite hf.recLost (hf.relocate (by decide))
  exact (hrecs.foldl fun _ _ hf => hf.relocateMeta).closeStream.closeStream

/-! #### A block that fails (R160) -/

theorem dropStreams {t : Nat} {g : Nat → Bool} (h : SameOpen d e) : SameOpen d (e.dropStreams t g) := by
  unfold Dev.dropStreams
  extract_lets ended
  have hended : SameOpen d ended := h.foldl fun _ _ hf => .ite hf.zoneUse.onFlow hf
  exact hended.step Dev.onExpo_foot

theorem resvFill {t : Nat} (h : SameOpen d e) : SameOpen d (e.resvFill t) := by
  unfold Dev.resvFill
  extract_lets ok freed
  have hfreed : SameOpen d freed := h.onFl
  refine hfreed.foldl fun f ch hf => .ite hf ?_
  split
  · exact hf.onFl
  · exact hf

theorem badBlock {t b reason : Nat} (h : SameOpen d e) : SameOpen d (e.badBlock t b reason) := by
  unfold Dev.badBlock
  extract_lets die n held triggered remapped counted retired
  have htriggered : SameOpen d triggered := .ite h (h.step Dev.govTrigger_foot)
  have hcounted : SameOpen d counted := htriggered.ledger.onBlk.onFl
  have hretired : SameOpen d retired := htriggered.ledger.onBlk
  exact .ite (.ite (hcounted.step Dev.raise_foot) hcounted) (hretired.onFl.step Dev.raise_foot)

theorem blockFails {t b reason : Nat} {lost soft : List Nat} (h : SameOpen d e) : SameOpen d (e.blockFails t b reason lost soft) := by
  unfold Dev.blockFails
  extract_lets freed moved
  have hfreed : SameOpen d freed := .ite (.ite h.onFl.resvFill h.onFl) h.dropStreams
  have hmoved : SameOpen d moved := hfreed.moveOut
  exact .ite hmoved.badBlock hmoved.onBlk

theorem afterSeal (h : SameOpen d e) : SameOpen d e.afterSeal := by
  unfold Dev.afterSeal
  exact h.foldl fun _ _ hf => (hf.onFl.foldl fun _ _ hg => hg.blockFails).resvFill

/-- Partial entries of strata are released (R194). -/
theorem releasePartial (h : SameOpen d e) : SameOpen d e.releasePartial := by
  unfold Dev.releasePartial
  exact h.foldl fun _ _ hf => hf.foldl fun _ _ hg => hg.ledger

end SameOpen

end Sys2Proof.Machine
end

section
set_option Elab.async false
/-! LEMMAS. What the serving of requests, completions and rings leaves: which pages are restored, the progress of the restore, the heads'
link and media status, and the OPEN records (chapters 02, 04 and 06). -/

namespace Sys2Proof.Machine

/-! ### What stays while requests are served -/

/-- The restore but for the demand fetches in progress and the count of poisoned pages. -/
def Restore.progress (r : Restore) : Restore := { r with fetching := [], poisonPages := 0 }

/-- The bytes restored by demand fetch and by bulk restore. -/
def Restore.bytes (r : Restore) : Nat × Nat := (r.fetchBytes, r.bulkBytes)

/-- A head's link and media status. -/
def HeadSt.status (x : HeadSt) : Bool × Nat := (x.linkUp, x.media)

theorem restored_congr {d e : Dev} (hprogress : e.restore.progress = d.restore.progress) (hcfg : e.dram.cfg = d.dram.cfg) (p : Nat) :
    e.restored p = d.restored p := by
  have hall : e.restore.allRestored = d.restore.allRestored := (congrArg Restore.allRestored hprogress :)
  have hranges : e.restore.restored = d.restore.restored := (congrArg Restore.restored hprogress :)
  have hgrain : e.grainLog = d.grainLog := by rw [Dev.grainLog, hcfg, Dev.grainLog]
  have hidx : e.restIdx p = d.restIdx p := by
    simp only [Dev.restIdx, Dev.pageTile, Dev.tileOf, Dev.tla, hgrain]
  rw [Dev.restored, hall, hranges, hidx, Dev.restored]

/-- From `d` to `e` requests, completions and ring entries are served: a demand fetch is started for no page that is restored. -/
structure Traffic (d e : Dev) : Prop where
  progress : e.restore.progress = d.restore.progress
  fetching : ∀ p ∈ e.restore.fetching, d.restored p = true → p ∈ d.restore.fetching
  cfg : e.dram.cfg = d.dram.cfg
  status : ∀ h, (e.head h).status = (d.head h).status
  opened : SameOpen d e

namespace Traffic
variable {d e f : Dev}

theorem refl (d : Dev) : Traffic d d := ⟨rfl, fun _ hp _ => hp, rfl, fun _ => rfl, .refl d⟩

theorem restored (h : Traffic d e) (p : Nat) : e.restored p = d.restored p := restored_congr h.progress h.cfg p

theorem ready (h : Traffic d e) : e.restore.ready = d.restore.ready := (congrArg Restore.ready h.progress :)
theorem phase (h : Traffic d e) : e.restore.phase = d.restore.phase := (congrArg Restore.phase h.progress :)
theorem bytes (h : Traffic d e) : e.restore.bytes = d.restore.bytes := (congrArg Restore.bytes h.progress :)
theorem media (h : Traffic d e) (n : Nat) : (e.head n).media = (d.head n).media := congrArg Prod.snd (h.status n)

theorem trans (h : Traffic d e) (k : Traffic e f) : Traffic d f where
  progress := k.progress.trans h.progress
  fetching p hp hr := h.fetching p (k.fetching p hp ((h.restored p).trans hr)) hr
  cfg := k.cfg.trans h.cfg
  status n := (k.status n).trans (h.status n)
  opened := h.opened.trans k.opened

/-- A step that may change the flash, but programs no OPEN record. -/
theorem stepFlash {S : List Part} (h : Traffic d e) (k : ChangesOnly S e f) (ho : SameOpen e f)
    (hS : Part.restore ∉ S ∧ Part.dram ∉ S ∧ Part.heads ∉ S := by decide) : Traffic d f :=
  h.trans (by
    obtain ⟨hrest, hdram, hheads⟩ := hS
    have hrestore := k.restore_eq hrest
    exact ⟨by rw [hrestore], fun p hp _ => by rwa [hrestore] at hp, congrArg Dram.cfg (k.same .dram hdram).symm,
      fun n => by rw [Dev.head, k.heads_eq hheads, Dev.head], ho⟩)

theorem step {S : List Part} (h : Traffic d e) (k : ChangesOnly S e f)
    (hS : (Part.restore ∉ S ∧ Part.dram ∉ S ∧ Part.heads ∉ S) ∧ Part.flash ∉ S := by decide) : Traffic d f :=
  h.stepFlash k (.step (.refl e) k hS.2) hS.1

theorem ite {c : Prop} {_ : Decidable c} (h : Traffic d e) (k : Traffic d f) : Traffic d (if c then e else f) := by split <;> assumption

theorem foldl {α : Type} {g : Dev → α → Dev} {l : List α} (h : Traffic d e) (hg : ∀ e, ∀ a ∈ l, Traffic d e → Traffic d (g e a)) :
    Traffic d (l.foldl g e) := by
  induction l generalizing e with
  | nil => exact h
  | cons a l ih => exact ih (hg _ _ List.mem_cons_self h) fun e b hb => hg e b (List.mem_cons_of_mem _ hb)

theorem onHead {n : Nat} {g : HeadSt → HeadSt} (h : Traffic d e) (hg : ∀ x, (g x).status = x.status := by exact fun _ => rfl) :
    Traffic d (e.onHead n g) :=
  h.trans ⟨rfl, fun _ hp _ => hp, rfl, fun k => by
    by_cases hk : k = n
    · rw [hk, head_onHead, hg]
    · rw [head_onHead_ne e g hk], fun _ => rfl⟩

theorem onChan {t c : Nat} {g : Chan → Chan} (h : Traffic d e) : Traffic d (e.onChan t c g) :=
  h.trans ⟨rfl, fun _ hp _ => hp, rfl, fun _ => rfl, fun _ => rfl⟩

/-- A demand fetch starts for a page that is not restored. -/
theorem startFetch {p : Nat} (h : Traffic d e) (hp : e.restored p = false) :
    Traffic d (e.onRestore fun x => { x with fetching := addOnce x.fetching p }) :=
  h.trans ⟨rfl, fun q hq hr => by
    have hne : q ≠ p := fun heq => Bool.false_ne_true (hp.symm.trans (heq ▸ hr))
    rw [onRestore_restore] at hq
    dsimp only at hq
    unfold addOnce at hq
    split at hq
    · exact hq
    · exact (List.mem_append.mp hq).resolve_right fun hmem => hne (List.mem_singleton.mp hmem), rfl, fun _ => rfl, fun _ => rfl⟩

theorem endFetch {g : Nat → Bool} (h : Traffic d e) : Traffic d (e.onRestore fun x => { x with fetching := x.fetching.filter g }) :=
  h.trans ⟨rfl, fun _ hp _ => List.mem_of_mem_filter hp, rfl, fun _ => rfl, fun _ => rfl⟩

theorem countPoison {g : Nat → Nat} (h : Traffic d e) : Traffic d (e.onRestore fun x => { x with poisonPages := g x.poisonPages }) :=
  h.trans ⟨rfl, fun _ hp _ => hp, rfl, fun _ => rfl, fun _ => rfl⟩

/-! ### Poison and the channels -/

theorem poisonEntry {dpa len cause : Nat} (h : Traffic d e) : Traffic d (e.poisonEntry dpa len cause) := by
  unfold Dev.poisonEntry
  extract_lets p
  split
  · exact h
  · exact h.onHead fun x => by split <;> rfl

theorem clearPoison {l : Nat} (h : Traffic d e) : Traffic d (e.clearPoison l) := by
  unfold Dev.clearPoison
  exact .ite (h.step Dev.onExpo_foot).onHead.onHead h

theorem pagePoison {p cause : Nat} (h : Traffic d e) : Traffic d (e.pagePoison p cause) := by
  unfold Dev.pagePoison
  exact (h.step Dev.onExpo_foot).poisonEntry

theorem chanUse {t p n : Nat} {hostWrite supv : Bool} (h : Traffic d e) : Traffic d (e.chanUse t p n hostWrite supv) := by
  unfold Dev.chanUse
  exact .ite (h.onChan.step Dev.chanUpd_foot) h.onChan

theorem chanTouch {l : Nat} {write hostWrite supv : Bool} (h : Traffic d e) : Traffic d (e.chanTouch l write hostWrite supv) := by
  unfold Dev.chanTouch
  exact h.foldl fun _ _ _ hf => hf.chanUse

theorem pageTouch {p : Nat} {write : Bool} (h : Traffic d e) : Traffic d (e.pageTouch p write) := by
  unfold Dev.pageTouch
  exact h.foldl fun _ _ _ hf => hf.foldl fun _ _ _ hg => hg.chanUse

theorem chanDo {t c : Nat} {g : Chan → Chan} (h : Traffic d e) : Traffic d (e.chanDo t c g) := by
  unfold Dev.chanDo
  exact .ite h.onChan (h.onChan.step Dev.chanUpd_foot)

/-! ### A request is performed (R122, R189, R202) -/

theorem signal {c k : Nat} (h : Traffic d e) : Traffic d (e.signal c k) := by
  unfold Dev.signal Dev.fireRing Dev.fire
  extract_lets r counted fired x
  have hcounted : Traffic d counted := h.step Dev.onRing_foot
  have hrung (g : Ring → Ring) : Traffic d (counted.onRing c k g) := hcounted.step Dev.onRing_foot
  exact .ite h (.ite (.ite (hrung _).onHead ((hrung _).step Dev.emit_foot)) hcounted)

theorem posted {r : HeldReq} (h : Traffic d e) : Traffic d (e.posted r) := by
  unfold Dev.posted
  exact .ite (h.step Dev.emit_foot).signal (h.step Dev.emit_foot)

theorem doWrite {l : Nat} {data : BitVec 512} {mask : BitVec 64} (h : Traffic d e) : Traffic d (e.doWrite l data mask) := by
  unfold Dev.doWrite
  extract_lets full cleared written
  have hcleared : Traffic d cleared := .ite h.clearPoison h
  have hwritten : Traffic d written := .ite hcleared (hcleared.step Dev.onMem_foot)
  exact (hwritten.step Dev.dirtyPage_foot).step Dev.replicaMark_foot

/-- What a held request waits for starts: a demand fetch only of a page that is not restored. -/
theorem startHeld {r : HeldReq} (h : Traffic d e) (hr : r.forFetch = true → e.restored (linePage r.line) = false) : Traffic d (e.startHeld r) := by
  unfold Dev.startHeld
  extract_lets p asked
  have hasked : Traffic d asked := by
    unfold asked
    split
    · rename_i hfetch
      exact h.startFetch (hr hfetch)
    · exact h
  exact .ite ((hasked.step Dev.requestArm_foot).step Dev.armFullCheck_foot) hasked

theorem perform {r : HeldReq} (h : Traffic d e) (hr : r.forFetch = true → e.restored (linePage r.line) = false) : Traffic d (e.perform r) := by
  unfold Dev.perform
  extract_lets p hostWrite touched clean other written
  have htouched : Traffic d touched := h.chanTouch
  have hother : Traffic d other := .ite htouched (htouched.step Dev.otherWrite_foot)
  have hpoisoned : Traffic d ((other.storePoison r.line).poisonEntry (r.line * 64) 64 3) := (hother.step Dev.storePoison_foot).poisonEntry
  have hwritten : Traffic d written := .ite ((hpoisoned.step Dev.dirtyPage_foot).step Dev.replicaMark_foot) hother.doWrite
  have hmetered : Traffic d (written.meterWrite r.line) := hwritten.step Dev.meterWrite_foot
  have hwaits : Traffic d (e.startHeld { r with forArm := true }) := h.startHeld hr
  refine .ite (h.step Dev.refuseQuiet_foot) (.ite (hwaits.step Dev.onExpo_foot) (.ite (h.step Dev.onExpo_foot) (.ite ?write ?read)))
  case write =>
    exact .ite hwritten (.ite hwritten.posted (.ite hmetered (.ite (.ite (hwritten.step Dev.replicaDone_foot) hwritten)
      (hmetered.step Dev.finishWrite_foot))))
  case read => exact .ite (htouched.step Dev.emit_foot) (htouched.step Dev.emit_foot)

theorem forFetch_of_goes {r : HeldReq} (h : d.goes r = true) : r.forFetch = false := by
  unfold Dev.goes HeldReq.free at h
  simp_all

theorem serve (h : Traffic d e) : Traffic d e.serve := by
  unfold Dev.serve
  refine (h.step Dev.onExpo_foot).foldl fun f r hr hf => hf.perform fun hfetch => ?_
  rw [forFetch_of_goes (List.mem_filter.mp hr).2] at hfetch
  cases hfetch

/-- A request that has passed every check waits for a fetch just where its page is not restored. -/
theorem holds_forFetch (d : Dev) (r : HeldReq) : (d.holds r).forFetch = true → d.restored (linePage (d.holds r).line) = false := by
  intro h
  simpa [Dev.holds] using h

theorem admitReq {r : HeldReq} (h : Traffic d e) : Traffic d (e.admitReq r) := by
  unfold Dev.admitReq
  exact .ite (h.perform (holds_forFetch e r)) ((h.startHeld (holds_forFetch e r)).step Dev.onExpo_foot)

theorem fetchDone {p : Nat} (h : Traffic d e) : Traffic d (e.fetchDone p) := by
  unfold Dev.fetchDone
  exact (h.endFetch.step Dev.onExpo_foot).serve

theorem revDone {g : Nat → Bool} (h : Traffic d e) : Traffic d (e.revDone g) := by
  unfold Dev.revDone
  exact (h.step Dev.onExpo_foot).serve

theorem readmit (h : Traffic d e) : Traffic d e.readmit := by
  unfold Dev.readmit
  exact (h.step Dev.onExpo_foot).foldl fun _ _ _ hf => hf.admitReq

/-! ### Throttle caps and set points (R231, R237) -/

theorem chanServe {t : Nat} (h : Traffic d e) : Traffic d (e.chanServe t) := by
  unfold Dev.chanServe
  exact (h.step Dev.onExpo_foot).serve

theorem capApply {t : Nat} (h : Traffic d e) : Traffic d (e.capApply t) := by
  unfold Dev.capApply
  exact (h.foldl fun _ _ _ hf => .ite hf hf.chanDo).chanServe

theorem fspUnwait {t c : Nat} (h : Traffic d e) : Traffic d (e.fspUnwait t c) := by
  unfold Dev.fspUnwait
  exact .ite h.chanDo h

theorem fspFrom {t c : Nat} {urgent : Bool} (h : Traffic d e) : Traffic d (e.fspFrom t urgent c) := by
  unfold Dev.fspFrom
  extract_lets w
  split
  · exact h
  · exact .ite h (.ite h.chanDo h.chanDo)

theorem heatApply {t : Nat} (h : Traffic d e) : Traffic d (e.heatApply t) := by
  unfold Dev.heatApply Dev.fspStart
  refine .ite h (.ite h.capApply (fspFrom ?_))
  exact h.capApply.foldl fun _ _ _ hf => hf.fspUnwait

/-! ### Commit rings (R187 to R207) -/

theorem fetch {c k n : Nat} (h : Traffic d e) : Traffic d (e.fetch c k n) := by
  induction n generalizing e with
  | zero => exact h
  | succ n ih =>
    unfold Dev.fetch
    split
    · exact h
    · extract_lets r a x entry ws taken
      exact .ite (h.step Dev.ringError_foot) (.ite (h.startHeld (holds_forFetch e _)) (.ite (h.step Dev.ringError_foot)
        (ih (h.step Dev.onRing_foot))))

theorem fetchAll {c k : Nat} (h : Traffic d e) : Traffic d (e.fetchAll c k) := h.fetch

theorem fetchRings (h : Traffic d e) : Traffic d e.fetchRings := by
  unfold Dev.fetchRings
  exact h.foldl fun _ _ _ hf => hf.foldl fun _ _ _ hg => hg.fetchAll

theorem bgEnd {p opcode ext : Nat} (h : Traffic d e) : Traffic d (e.bgEnd p opcode ext) := by
  unfold Dev.bgEnd Dev.onBg
  exact .ite ((Traffic.ite h.onHead (h.step Dev.onJcs_foot)).step Dev.mirrorNow_foot) h

theorem ckptRecord {uid reqId c status ts : Nat} (h : Traffic d e) : Traffic d (e.ckptRecord uid reqId c status ts) := by
  unfold Dev.ckptRecord Dev.ckptEnd
  extract_lets mine put
  split
  · exact h
  · extract_lets k noted told ended
    have hnoted : Traffic d noted := h.step Dev.onLat_foot
    have htold : Traffic d told := .ite hnoted (hnoted.step Dev.raise_foot)
    exact .ite (.ite (htold.step Dev.onLat_foot).bgEnd (htold.step Dev.onLat_foot)) htold

theorem ckptAnswer {c status time : Nat} {x : RingEntry} (h : Traffic d e) : Traffic d (e.ckptAnswer c x status time) := by
  unfold Dev.ckptAnswer Dev.ckptReply
  extract_lets mine
  split
  · have hdropped (g : Lat → Lat) : Traffic d (e.onLat g) := h.step Dev.onLat_foot
    exact .ite (hdropped _).ckptRecord ((hdropped _).step Dev.sendMsg_foot)
  · exact h

theorem writeCqe {c k a : Nat} {bs : List Byte} {irq : Bool} (h : Traffic d e) : Traffic d (e.writeCqe c k a bs irq) := by
  unfold Dev.writeCqe
  exact .ite (Traffic.ite h (h.step Dev.onMem_foot)).posted h.admitReq

theorem complete {c k status time r0 r1 : Nat} {x : RingEntry} {poison : Bool} (h : Traffic d e) :
    Traffic d (e.complete c k x status time r0 r1 poison) := by
  unfold Dev.complete
  extract_lets r dropped fl bs posted
  have hdropped : Traffic d dropped := (h.step Dev.onRing_foot).step Dev.startHead_foot
  have hposted : Traffic d posted := hdropped.step Dev.onRing_foot
  exact .ite hdropped.ckptAnswer (.ite hdropped hposted.writeCqe)

theorem takeRollback {c k : Nat} {x : RingEntry} (h : Traffic d e) : Traffic d (e.takeRollback c k x) := by
  unfold Dev.takeRollback
  split
  · exact h.complete
  · exact .ite h.complete (.ite h.complete ((h.step Dev.checkEntry_foot).step Dev.onEntry_foot))

theorem takeUp {c k : Nat} {x : RingEntry} (h : Traffic d e) : Traffic d (e.takeUp c k x) := by
  unfold Dev.takeUp
  dsimp only
  have hreject (status : Nat) : Traffic d (e.rejectEntry c k x status) := h.complete
  split
  · exact hreject 1
  split
  · exact hreject _
  split
  · exact .ite (hreject 3) (h.step Dev.checkEntry_foot)
  · exact h.step Dev.checkEntry_foot
  · exact h.takeRollback
  · exact h.complete
  · exact (h.step Dev.onMeter_foot).complete
  · exact h.complete

theorem fenceEnd {c k : Nat} {x : RingEntry} (h : Traffic d e) : Traffic d (e.fenceEnd c k x) := by
  unfold Dev.fenceEnd
  exact .ite h.complete (h.step Dev.onMeter_foot).complete

theorem abortUnstarted {c k : Nat} (h : Traffic d e) : Traffic d (e.abortUnstarted c k) := by
  unfold Dev.abortUnstarted
  exact h.foldl fun _ _ _ hf => hf.complete

theorem abortRollback {c k : Nat} (h : Traffic d e) : Traffic d (e.abortRollback c k) := by
  unfold Dev.abortRollback
  exact h.foldl fun _ _ _ hf => hf.complete

theorem resumeRing {c k : Nat} {kept : Bool} (h : Traffic d e) : Traffic d (e.resumeRing c k kept) := by
  unfold Dev.resumeRing
  have haborted (g : Ring → Ring) : Traffic d (((e.onRing c k g).abortUnstarted c k).abortRollback c k) :=
    (h.step Dev.onRing_foot).abortUnstarted.abortRollback
  exact ((((haborted _).foldl fun _ _ _ hf => hf.takeUp).foldl fun _ _ _ hf => hf.fenceEnd).foldl fun _ _ _ hf => hf.complete).fetchAll

theorem resumeRings {kept : Bool} (h : Traffic d e) : Traffic d (e.resumeRings kept) := by
  unfold Dev.resumeRings
  have hresumed := h.foldl (l := e.ctxs.tbl) (g := fun d c => c.2.rings.foldl (fun d r => d.resumeRing c.1 r.1 kept) d)
    fun _ _ _ hf => hf.foldl fun _ _ _ hg => hg.resumeRing
  exact hresumed.stepFlash Dev.releasePartial_foot (.releasePartial (.refl _))

/-! ### A key is lost (R183) -/

theorem keyLost {t c : Nat} (h : Traffic d e) : Traffic d (e.keyLost t c) := by
  unfold Dev.keyLost
  extract_lets disabled told ps poisoned reverted
  have hdisabled : Traffic d disabled := (h.step Dev.onCtx_foot).stepFlash Dev.ctxTo_foot (((SameOpen.refl _).step Dev.ctxState_foot).metaPut)
  have htold : Traffic d told := hdisabled.step Dev.raise_foot
  have hpoisoned : Traffic d poisoned := htold.foldl fun _ _ _ hf => hf.pagePoison
  have hreverted : Traffic d reverted := hpoisoned.step Dev.onCtxs_foot
  exact (hreverted.step Dev.cleanPages_foot).revDone

theorem useKey {t c err : Nat} (h : Traffic d e) : Traffic d (e.useKey t c err) := by
  unfold Dev.useKey
  extract_lets l used
  have hused : Traffic d used := h.step Dev.onCtxs_foot
  exact .ite hused (.ite hused.keyLost hused)

end Traffic

end Sys2Proof.Machine
end

section
set_option Elab.async false
/-! LEMMAS. Pages restored by demand fetch and by bulk restore, and the end of bulk restore (chapter 04). -/

namespace Sys2Proof.Machine

/-! ### The restored-page bitmaps (R121) -/

/-- A place of the range added lies in a range of the list. -/
theorem mem_addRange {a n x : Nat} (ha : a ≤ x) (hn : x < a + n) (l : List (Nat × Nat)) : ∃ r ∈ addRange a n l, r.1 ≤ x ∧ x < r.1 + r.2 := by
  induction l generalizing a n with
  | nil => exact ⟨(a, n), List.mem_singleton_self _, ha, hn⟩
  | cons r l ih =>
    obtain ⟨b, m⟩ := r
    unfold addRange
    split
    · exact ⟨(a, n), List.mem_cons_self, ha, hn⟩
    · split
      · obtain ⟨r, hr, hin⟩ := ih ha hn
        exact ⟨r, List.mem_cons_of_mem _ hr, hin⟩
      · exact ih (by omega) (by omega)

theorem markRange_of_pending {d : Dev} (h : d.restore.allRestored = false) (a n : Nat) :
    d.markRange a n = d.onRestore fun r => { r with restored := addRange a n r.restored } := if_neg (Bool.eq_false_iff.mp h)

theorem markRestored_restored (d : Dev) (p : Nat) : (d.markRestored p).restored p = true := by
  unfold Dev.markRestored
  by_cases hall : d.restore.allRestored = true
  · rw [Dev.markRange, if_pos hall, Dev.restored, hall, Bool.true_or]
  · rw [markRange_of_pending (Bool.eq_false_iff.mpr hall)]
    obtain ⟨r, hr, hlow, hhigh⟩ := mem_addRange (n := 1) (Nat.le_refl (d.restIdx p)) (Nat.lt_succ_self _) d.restore.restored
    refine Bool.or_eq_true_iff.mpr (.inr (List.any_eq_true.mpr ⟨r, hr, ?_⟩))
    exact Bool.and_eq_true_iff.mpr ⟨decide_eq_true hlow, decide_eq_true hhigh⟩

theorem markRange_bytes (d : Dev) (a n : Nat) : (d.markRange a n).restore.bytes = d.restore.bytes := by
  unfold Dev.markRange
  split <;> rfl

/-! ### A page is restored (R121, R122, R125) -/

/-- The fetch of a restored page ends, and none starts again. -/
theorem fetchDone_ends {d : Dev} {p : Nat} (h : d.restored p = true) : p ∉ (d.fetchDone p).restore.fetching := by
  have hserved : Traffic (d.onRestore fun x => { x with fetching := x.fetching.filter fun q => q != p }) (d.fetchDone p) := by
    unfold Dev.fetchDone
    exact ((Traffic.refl _).step Dev.onExpo_foot).serve
  intro hp
  have hleft := (List.mem_filter.mp (hserved.fetching p hp h)).2
  simp at hleft

theorem restoreFail_traffic {d e : Dev} {p src : Nat} (h : Traffic d e) : Traffic d (e.restoreFail p src) := by
  unfold Dev.restoreFail
  exact h.pagePoison.countPoison.step Dev.raise_foot

/-- A page is restored in two steps: its content comes to DRAM, or is poisoned; then it is marked restored and its fetch ends. -/
theorem restorePage_steps (d : Dev) (p out keyErr src : Nat) : ∃ e, Traffic d e ∧ d.restorePage p out keyErr src = (e.markRestored p).fetchDone p := by
  unfold Dev.restorePage
  extract_lets t c l record keyed content
  refine ⟨content, ?_, rfl⟩
  have hkeyed : Traffic d keyed := (Traffic.refl d).useKey
  unfold content
  clear_value record
  split
  · exact .ite (restoreFail_traffic (.refl d)) (.ite (Traffic.refl d).pagePoison (.refl d))
  · rename_i r
    extract_lets softened loaded
    have hsoftened : Traffic d softened := .ite (hkeyed.stepFlash Dev.onBlk_foot (.onBlk (.refl _))) hkeyed
    have hloaded : Traffic d loaded := (hsoftened.step Dev.loadPage_foot).pageTouch
    exact .ite hkeyed.pagePoison (.ite (restoreFail_traffic hkeyed) (.ite hloaded.pagePoison
      (hloaded.foldl fun _ _ _ hf => (hf.step Dev.storePoison_foot).poisonEntry)))

/-- From `d` to `e` page `p` has been restored: no fetch of it is in progress, and the bytes counted are as they were. -/
structure PageBack (d e : Dev) (p : Nat) : Prop where
  restored : e.restored p = true
  idle : e.restore.fetching.contains p = false
  bytes : e.restore.bytes = d.restore.bytes

theorem PageBack.of_fetch_ended {d e : Dev} {p : Nat} (hrestored : e.restored p = true) (hidle : p ∉ e.restore.fetching)
    (hbytes : e.restore.bytes = d.restore.bytes) : PageBack d e p :=
  ⟨hrestored, Bool.eq_false_iff.mpr fun h => hidle (List.contains_iff_mem.mp h), hbytes⟩

theorem restorePage_back (d : Dev) (p out keyErr src : Nat) : PageBack d (d.restorePage p out keyErr src).fetchRings p := by
  obtain ⟨e, hread, hsteps⟩ := restorePage_steps d p out keyErr src
  have hmarked := markRestored_restored e p
  have hdone : Traffic (e.markRestored p) ((e.markRestored p).fetchDone p) := (Traffic.refl _).fetchDone
  have hrings : Traffic ((e.markRestored p).fetchDone p) ((e.markRestored p).fetchDone p).fetchRings := (Traffic.refl _).fetchRings
  have hback : ((e.markRestored p).fetchDone p).restored p = true := (hdone.restored p).trans hmarked
  rw [hsteps]
  refine .of_fetch_ended ((hrings.restored p).trans hback) (fun hp => fetchDone_ends hmarked (hrings.fetching p hp hback)) ?_
  exact hrings.bytes.trans (hdone.bytes.trans ((markRange_bytes ..).trans hread.bytes))

/-! ### A record that is read and marks no poison (R121) -/

/-- A key at hand, or in the reserve copy, is used without a change of its context. -/
theorem useKey_ctx (d : Dev) (t c k : Nat) : (d.useKey t c 0).ctx k = d.ctx k := by
  simp [Dev.useKey, Dev.ctx]

/-- The record of a page with its key at hand is read: its image is loaded, and the page is marked restored. -/
theorem restorePage_read {d : Dev} {p : Nat} {r : PageRec} (src : Nat) (hpersistent : d.persistent p = true) (hrec : d.curRec p = some r)
    (hpoison : (d.loc p).poison = false) (hmask : r.pmask = []) (hkey : (d.ctx ((d.pageCtx p).getD 0)).keyLost = false) :
    d.restorePage p 0 0 src =
      ((((d.useKey (d.pageTile p) ((d.pageCtx p).getD 0) 0).loadPage p r.img).pageTouch p true).markRestored p).fetchDone p := by
  have hused : ((d.useKey (d.pageTile p) ((d.pageCtx p).getD 0) 0).ctx ((d.pageCtx p).getD 0)).keyLost = false := by
    rwa [useKey_ctx]
  unfold Dev.restorePage
  simp only [hpersistent, hrec, if_true, hused, hpoison, hmask, Bool.false_eq_true, if_false, Nat.reduceEqDiff, List.foldl_nil]

theorem useKey_memory (d : Dev) (t c : Nat) : (d.useKey t c 0).mem = d.mem ∧ (d.useKey t c 0).expo = d.expo := by
  simp [Dev.useKey]

/-- With no request held the end of a fetch performs none. -/
theorem fetchDone_of_none_held {d : Dev} (h : d.expo.held = []) (p : Nat) :
    (d.fetchDone p).mem = d.mem ∧ (d.fetchDone p).expo.dirty = d.expo.dirty := by
  unfold Dev.fetchDone Dev.serve
  simp [h]

/-- Restoring such a page where no request waits loads the image of its record, and makes nothing dirty. -/
theorem restorePage_loads {d : Dev} {p : Nat} {r : PageRec} (src : Nat) (hpersistent : d.persistent p = true) (hrec : d.curRec p = some r)
    (hpoison : (d.loc p).poison = false) (hmask : r.pmask = []) (hkey : (d.ctx ((d.pageCtx p).getD 0)).keyLost = false)
    (hheld : d.expo.held = []) :
    (d.restorePage p 0 0 src).mem = (d.mem.clear (pageBase p) 4096).load r.img ∧ (d.restorePage p 0 0 src).restored p = true ∧
    (d.restorePage p 0 0 src).expo.dirty = d.expo.dirty := by
  rw [restorePage_read src hpersistent hrec hpoison hmask hkey]
  obtain ⟨hmem, hexpo⟩ := useKey_memory d (d.pageTile p) ((d.pageCtx p).getD 0)
  generalize d.useKey (d.pageTile p) ((d.pageCtx p).getD 0) 0 = keyed at hmem hexpo ⊢
  have hloaded : ((keyed.loadPage p r.img).pageTouch p true).mem = (d.mem.clear (pageBase p) 4096).load r.img :=
    (Dev.pageTouch_foot.mem_eq (by decide)).trans (congrArg (fun m : Mem => (m.clear (pageBase p) 4096).load r.img) hmem)
  have hsame : ((keyed.loadPage p r.img).pageTouch p true).expo = d.expo := (Dev.pageTouch_foot.expo_eq (by decide)).trans hexpo
  generalize (keyed.loadPage p r.img).pageTouch p true = loaded at hloaded hsame ⊢
  have hmarked : (loaded.markRestored p).expo = d.expo := (Dev.markRestored_foot.expo_eq (by decide)).trans hsame
  obtain ⟨hkept, hdirty⟩ := fetchDone_of_none_held (d := loaded.markRestored p) (by rw [hmarked, hheld]) p
  refine ⟨hkept.trans ((Dev.markRestored_foot.mem_eq (by decide)).trans hloaded), ?_, hdirty.trans (by rw [hmarked])⟩
  exact ((Traffic.refl (loaded.markRestored p)).fetchDone.restored p).trans (markRestored_restored loaded p)

/-! ### The rows of demand fetch and bulk restore (R122 to R128) -/

theorem restore_demandFetch (s : State) (p : Nat) (out keyErr : Fin 3) (dt : Nat) (hfetch : s.dev.restore.fetching.contains p = true)
    (hiso : (s.dev.tile (s.dev.pageTile p)).isolated = false) (hsafe : s.dev.pkg.safe = 0) (hnew : s.dev.restored p = false) :
    Runs (.demandFetchComplete p out keyErr dt) s [.mem, .expo, .restore, .flash, .ctxs, .dram, .flint, .qtz, .lat, .heads, .dw, .out] fun e =>
      e.restored p = true ∧ e.restore.fetching.contains p = false ∧ e.restore.fetchBytes = s.dev.restore.fetchBytes + 4096 := by
  have hrow : ¬ ((!s.dev.restore.fetching.contains p) = true ∨ (s.dev.tile (s.dev.pageTile p)).isolated = true ∨ s.dev.pkg.safe ≠ 0) := by
    rw [hfetch, hiso, hsafe]
    decide
  refine .of_dev execDemandFetchComplete_foot (by decide) rfl rfl ((if_neg hrow).trans (if_neg (Bool.eq_false_iff.mp hnew))) ?_
  obtain ⟨hrestored, hidle, hbytes⟩ := restorePage_back ((s.dev.elapse dt).onRestore fun r => { r with fetchBytes := r.fetchBytes + 4096 }) p
    out.val keyErr.val 76
  exact ⟨hrestored, hidle, congrArg Prod.fst hbytes⟩

/-- Bulk restore goes on for a tile in service, in phase 6, outside a seal. -/
theorem bulkRestore_runs {d : Dev} {t : Nat} (hphase : d.restore.phase = 6) (hall : d.restore.allRestored = false)
    (hiso : (d.tile t).isolated = false) (hact : d.sealing.active = false) (hsafe : d.pkg.safe = 0) :
    ¬ (d.restore.phase ≠ 6 ∨ d.restore.allRestored = true ∨ (d.tile t).isolated = true ∨ d.sealing.active = true ∨ d.pkg.safe ≠ 0) := by
  rw [hphase, hall, hiso, hact, hsafe]
  decide

theorem restore_bulkPage (s : State) (t : Fin 8) (out keyErr : Fin 3) (dt p : Nat) (hphase : s.dev.restore.phase = 6)
    (hall : s.dev.restore.allRestored = false) (hiso : (s.dev.tile t.val).isolated = false) (hact : s.dev.sealing.active = false)
    (hsafe : s.dev.pkg.safe = 0) (hnext : s.dev.nextRecord t.val = some p) :
    Runs (.bulkRestorePage t none out keyErr dt) s [.mem, .expo, .restore, .flash, .ctxs, .dram, .flint, .qtz, .lat, .heads, .dw, .out] fun e =>
      e.restored p = true ∧ e.restore.fetching.contains p = false ∧ e.restore.bulkBytes = s.dev.restore.bulkBytes + 4096 := by
  have hpick : (s.dev.elapse dt).nextRecord t.val = some p := hnext
  refine .of_foot (r := execBulkRestorePage t none out keyErr dt s) execBulkRestorePage_foot (by decide) rfl rfl ?_
  rw [if_neg (bulkRestore_runs (d := s.dev.elapse dt) hphase hall hiso hact hsafe)]
  dsimp only
  rw [hpick]
  obtain ⟨hrestored, hidle, hbytes⟩ := restorePage_back ((s.dev.elapse dt).onRestore fun r => { r with bulkBytes := r.bulkBytes + 4096 }) p
    out.val keyErr.val 75
  exact ⟨hrestored, hidle, congrArg Prod.snd hbytes⟩

/-- Page `p` is one of the `n` pages of tile `t` from its page `i` on. -/
def Dev.inFill (d : Dev) (t i n p : Nat) : Bool :=
  d.pageTile p == t && decide (i ≤ d.tla (pageBase p) / 4096) && decide (d.tla (pageBase p) / 4096 < i + n)

/-- The fill pass over those pages, none of which has a record to be read. -/
def Dev.fillPass (d : Dev) (t i n : Nat) : Dev :=
  let e := (d.markRange (t * 2 ^ 40 + i) n).onRestore fun r =>
    { r with bulkBytes := r.bulkBytes + ((d.markRange (t * 2 ^ 40 + i) n).restoredOn t - d.restoredOn t) * 4096 }
  ((e.restore.fetching.filter (d.inFill t i n)).foldl Dev.fetchDone e).fetchRings

theorem fillPass_counts (d : Dev) (t i n : Nat) : (d.fillPass t i n).restore.bulkBytes =
      d.restore.bulkBytes + ((d.markRange (t * 2 ^ 40 + i) n).restoredOn t - d.restoredOn t) * 4096 ∧
    (d.fillPass t i n).restore.phase = d.restore.phase := by
  unfold Dev.fillPass
  extract_lets e
  have hserved : Traffic e ((e.restore.fetching.filter (d.inFill t i n)).foldl Dev.fetchDone e).fetchRings :=
    ((Traffic.refl e).foldl fun _ _ _ hf => hf.fetchDone).fetchRings
  have hbytes : (d.markRange (t * 2 ^ 40 + i) n).restore.bulkBytes = d.restore.bulkBytes := congrArg Prod.snd (markRange_bytes ..)
  have hphase : (d.markRange (t * 2 ^ 40 + i) n).restore.phase = d.restore.phase := by
    unfold Dev.markRange
    split <;> rfl
  exact ⟨(congrArg Prod.snd hserved.bytes).trans (congrArg (· + _) hbytes), hserved.phase.trans hphase⟩

theorem restoredOn_congr {d e : Dev} (hrestore : e.restore = d.restore) (hdram : e.dram = d.dram) (t : Nat) : e.restoredOn t = d.restoredOn t := by
  rw [Dev.restoredOn, Dev.tilePages, Dev.hostGib, hrestore, hdram]
  rfl

theorem restore_fill (s : State) (t : Fin 8) (i n : Nat) (out keyErr : Fin 3) (dt : Nat) (hphase : s.dev.restore.phase = 6)
    (hall : s.dev.restore.allRestored = false) (hiso : (s.dev.tile t.val).isolated = false) (hact : s.dev.sealing.active = false)
    (hsafe : s.dev.pkg.safe = 0) (hfit : i + n ≤ s.dev.tilePages) (hloc : s.dev.strata.loc = []) :
    Runs (.bulkRestorePage t (some (i, n)) out keyErr dt) s [.mem, .expo, .restore, .flash, .ctxs, .dram, .flint, .qtz, .lat, .heads, .dw, .out] fun e =>
      e.restore.bulkBytes = s.dev.restore.bulkBytes +
        ((s.dev.markRange (t.val * 2 ^ 40 + i) n).restoredOn t.val - s.dev.restoredOn t.val) * 4096 ∧ e.restore.phase = 6 := by
  have hrun (inRun : Nat → Bool) : ¬ (s.dev.tilePages < i + n ∨
      (s.dev.strata.loc.any fun l => inRun l.page && !(s.dev.fillPage l.page)) = true) := by
    rw [hloc]
    exact fun h => h.elim (Nat.not_lt.mpr hfit) (by simp)
  have hmarked : ((s.dev.elapse dt).markRange (t.val * 2 ^ 40 + i) n).restoredOn t.val =
      (s.dev.markRange (t.val * 2 ^ 40 + i) n).restoredOn t.val := by
    rw [markRange_of_pending (d := s.dev) hall, markRange_of_pending (d := s.dev.elapse dt) hall]
    exact restoredOn_congr rfl rfl t.val
  refine .of_dev (r := execBulkRestorePage t (some (i, n)) out keyErr dt s) (e := (s.dev.elapse dt).fillPass t.val i n)
    execBulkRestorePage_foot (by decide) rfl rfl
    ((if_neg (bulkRestore_runs (d := s.dev) hphase hall hiso hact hsafe)).trans (if_neg (hrun (s.dev.inFill t.val i n)))) ?_
  obtain ⟨hbytes, hkept⟩ := fillPass_counts (s.dev.elapse dt) t.val i n
  rw [hmarked] at hbytes
  exact ⟨hbytes, hkept.trans hphase⟩

/-! ### Bulk restore ends (R128, R133) -/

theorem mbit_mset_of_mbit {w : Nat} {m : BitVec w} (i : Nat) {k : Nat} (h : mbit m k = true) : mbit (mset m i) k = true := by
  unfold mbit mset at *
  rw [BitVec.getLsbD_or, h, Bool.true_or]

/-- With every tile in service done the restore is complete. -/
theorem restoreEnds_complete {d e : Dev} (hpkg : e.pkg = d.pkg) (hrestore : e.restore = d.restore)
    (h : (d.inSvc.all fun t => mbit d.restore.drainDone t) = true) :
    e.restoreEnds.restore.phase = 7 ∧ e.restoreEnds.restore.allRestored = true := by
  rw [← inSvc_congr hpkg, ← hrestore] at h
  unfold Dev.restoreEnds
  rw [if_pos h, Dev.restUpd_foot.restore_eq (by decide), Dev.pointCheck_foot.restore_eq (by decide), Dev.raise_foot.restore_eq (by decide)]
  exact ⟨rfl, rfl⟩

theorem restore_bulkComplete (s : State) (t : Fin 8) (dt : Nat) (hphase : s.dev.restore.phase = 6) (hall : s.dev.restore.allRestored = false)
    (hiso : (s.dev.tile t.val).isolated = false) (hdone : s.dev.restoredOn t.val = s.dev.tilePages)
    (hlast : s.dev.inSvc.all (fun k : Nat => k == t.val || mbit s.dev.restore.drainDone k) = true) :
    Runs (.bulkRestoreComplete t dt) s [.pkg, .restore, .dram, .flint, .qtz, .slate, .dw] fun e =>
      e.restore.phase = 7 ∧ e.restore.allRestored = true := by
  have hrow : ¬ (s.dev.restore.phase ≠ 6 ∨ s.dev.restore.allRestored = true ∨ (s.dev.tile t.val).isolated = true ∨
      s.dev.restoredOn t.val < s.dev.tilePages) := by
    simp [hphase, hall, hiso, hdone]
  refine .of_dev execBulkRestoreComplete_foot (by decide) rfl rfl (if_neg hrow)
    (restoreEnds_complete (Dev.rankWork_foot.pkg_eq (by decide)) (Dev.rankWork_foot.restore_eq (by decide)) ?_)
  refine List.all_eq_true.mpr fun k hk => ?_
  rcases Bool.or_eq_true_iff.mp (List.all_eq_true.mp hlast k hk) with hself | hother
  · rw [beq_iff_eq.mp hself]
    exact mbit_mset _ t.isLt
  · exact mbit_mset_of_mbit t.val hother

/-! ### The restore registers (R132) -/

theorem sumBy_dvd {α : Type} {n : Nat} {f : α → Nat} (h : ∀ x, n ∣ f x) (l : List α) : n ∣ sumBy l f := by
  have hfold : ∀ a, n ∣ a → n ∣ l.foldl (fun a x => a + f x) a := by
    induction l with
    | nil => exact fun _ ha => ha
    | cons x l ih => exact fun a ha => ih _ (Nat.dvd_add ha (h x))
  exact hfold 0 (Nat.dvd_zero n)

/-- A field from bit 4 on does not touch the bits below. -/
theorem put_dvd {lo : Nat} (h : 4 ≤ lo) (n v : Nat) : 16 ∣ put lo n v := (pow_dvd_pow 2 h).mul_left _

/-- PHASE, READY, SEQ and POISON_PAGES after an update of the two registers. -/
theorem restUpd_registers (d : Dev) : bits (d.restUpd.dwGet 0x640 0) 0 3 = d.restore.phase % 8 ∧
    bits (d.restUpd.dwGet 0x640 0) 3 1 = bit d.restore.ready ∧
    bits (d.restUpd.dwGet 0x640 0) 48 16 = (bits (d.dwGet 0x640 0) 48 16 + 1) % 65536 ∧
    bits (d.restUpd.dwGet 0x648 0) 48 16 = bits (d.restUpd.dwGet 0x640 0) 48 16 ∧
    bits (d.restUpd.dwGet 0x648 0) 0 40 = d.restore.poisonPages % 2 ^ 40 := by
  unfold Dev.restUpd
  extract_lets r total done tier f written
  have hready : bit r.ready ≤ 1 := by cases r.ready <;> decide
  obtain ⟨k, hk⟩ : ∃ k, f = put 0 3 r.phase + put 3 1 (bit r.ready) + 16 * k := by
    refine ⟨(f - (put 0 3 r.phase + put 3 1 (bit r.ready))) / 16, ?_⟩
    have hrest : 16 ∣ put 4 1 (bit r.warm) + put 5 1 (bit r.dsInc) + sumBy tiles8 (fun t => put (8 + 2 * t) 2 (tier t)) +
        put 24 8 (if total = 0 then 100 else done * 100 / total) + put 32 16 ((total - done + 262143) / 262144) := by
      refine Nat.dvd_add (Nat.dvd_add (Nat.dvd_add (Nat.dvd_add ?_ ?_) (sumBy_dvd (fun t => put_dvd (by omega) _ _) _)) ?_) ?_
      all_goals exact put_dvd (by decide) _ _
    omega
  have hwritten : written.dwGet 0x640 0 = _ := dwGet_dwUpd ..
  rw [dwGet_dwSet_ne _ _ _ (by decide), dwGet_dwSet, hwritten, hk]
  generalize bits (d.dwGet 0x640 0) (64 - 16) 16 = old
  have hphase : r.phase = d.restore.phase := rfl
  have hpoison : r.poisonPages = d.restore.poisonPages := rfl
  have hrdy : r.ready = d.restore.ready := rfl
  rw [← hphase, ← hpoison, ← hrdy]
  clear_value r
  unfold bits put
  omega

theorem restore_statusUpdate (s : State) (dt : Nat) (hdue : (s.dev.elapse dt).tickDue 4 100000000 = true) (hphase : s.dev.restore.phase = 6) :
    Runs (.restoreStatusUpdate dt) s [.pkg, .qtz, .dw] fun e =>
      bits (e.dwGet 0x640 0) 0 3 = s.dev.restore.phase % 8 ∧ bits (e.dwGet 0x640 0) 3 1 = bit s.dev.restore.ready ∧
      bits (e.dwGet 0x640 0) 48 16 = (bits (s.dev.dwGet 0x640 0) 48 16 + 1) % 65536 ∧
      bits (e.dwGet 0x648 0) 48 16 = bits (e.dwGet 0x640 0) 48 16 ∧ bits (e.dwGet 0x648 0) 0 40 = s.dev.restore.poisonPages % 2 ^ 40 :=
  .of_dev execRestoreStatusUpdate_foot (by decide) rfl rfl ((if_pos hdue).trans (if_pos hphase)) (restUpd_registers _)

/-! ### The dirty-shutdown count (R131) -/

theorem dirtyShutdown_new {d : Dev} {i : Nat} (h : d.restore.lastLoss ≠ some i) :
    (d.dirtyShutdown i).restore.dsCount = min 4294967295 (d.restore.dsCount + 1) ∧ (d.dirtyShutdown i).restore.lastLoss = some i := by
  unfold Dev.dirtyShutdown
  rw [if_neg h, Dev.recDue_foot.restore_eq (by decide)]
  exact ⟨rfl, rfl⟩

theorem dirtyShutdown_known {d : Dev} {i : Nat} (h : d.restore.lastLoss = some i) : d.dirtyShutdown i = d := if_pos h

theorem dirtyShutdown_once (d : Dev) (i : Nat) : (d.dirtyShutdown i).dirtyShutdown i = d.dirtyShutdown i := by
  by_cases h : d.restore.lastLoss = some i
  · rw [dirtyShutdown_known h, dirtyShutdown_known h]
  · exact dirtyShutdown_known (dirtyShutdown_new h).2

end Sys2Proof.Machine
end

section
set_option Elab.async false
/-! LEMMAS. Early open, and how boot goes on with DRAM initialisation (chapter 04). -/

namespace Sys2Proof.Machine

/-! ### Early open (R119, R120) -/

/-- A head whose link is up reports media status Ready. -/
def Dev.markReady (d : Dev) (h : Nat) : Dev := if (d.head h).linkUp then d.onHead h fun x => { x with media := 1 } else d

theorem markReady_head (d : Dev) (h k : Nat) :
    (d.markReady h).head k = if k = h ∧ (d.head h).linkUp = true then { d.head k with media := 1 } else d.head k := by
  unfold Dev.markReady
  by_cases hk : k = h
  · subst hk
    by_cases hup : (d.head k).linkUp = true
    · rw [if_pos hup, head_onHead, if_pos ⟨rfl, hup⟩]
    · rw [if_neg hup, if_neg fun hrow => hup hrow.2]
  · rw [if_neg (c := k = h ∧ _) fun hrow => hk hrow.1]
    split
    · exact head_onHead_ne d _ hk
    · rfl

theorem markReady_media (d : Dev) : ((d.head 0).linkUp = true → (([0, 1].foldl Dev.markReady d).head 0).media = 1) ∧
    ((d.head 1).linkUp = true → (([0, 1].foldl Dev.markReady d).head 1).media = 1) := by
  constructor <;> intro hup <;> simp [markReady_head, hup]

/-- What early open writes, counts and reports, up to media Ready: `loss` is the identity of the loss that the mount found. -/
def Dev.openReady (d : Dev) (loss : Option Nat) : Dev :=
  let logged := d.ledgerAll d.inSvc 0x0D 0
  let counted := match loss with
    | some i => logged.dirtyShutdown i
    | none => logged
  let ready := counted.poisonReport.onRestore fun r => { r with ready := true, phase := 6, phaseEnd := tset r.phaseEnd 5 counted.poisonReport.now }
  [0, 1].foldl Dev.markReady ready

theorem poisonReport_traffic (d : Dev) : Traffic d d.poisonReport := by
  unfold Dev.poisonReport
  extract_lets ps unowned iso entered counted
  have hentered : Traffic d entered := (Traffic.refl d).foldl fun _ _ _ hf => hf.poisonEntry
  have hcounted : Traffic d counted := hentered.countPoison (g := fun _ => ps.length + unowned + iso)
  exact hcounted.foldl fun _ _ _ hf => hf.step Dev.raise_foot

theorem openReady_fields (d : Dev) (loss : Option Nat) : (d.openReady loss).restore.ready = true ∧ (d.openReady loss).restore.phase = 6 ∧
    (∀ t ∈ d.inSvc, ((d.openReady loss).lastOpen t).map (fun x => x.a) = some 0) ∧
    ((d.head 0).linkUp = true → ((d.openReady loss).head 0).media = 1) ∧
    ((d.head 1).linkUp = true → ((d.openReady loss).head 1).media = 1) := by
  unfold Dev.openReady
  extract_lets logged counted ready
  have hcounted : ChangesOnly [.restore, .slate] logged counted := by
    unfold counted
    split
    · exact Dev.dirtyShutdown_foot.mono (by decide)
    · exact .refl _ _
  have hreported : Traffic counted counted.poisonReport := poisonReport_traffic counted
  have hmarked : ChangesOnly [.heads] ready ([0, 1].foldl Dev.markReady ready) :=
    .foldl (fun _ _ h => .ite (.step Dev.onHead_foot (by decide) h) h) (.refl _ _)
  have hup (k : Nat) : (ready.head k).linkUp = (d.head k).linkUp :=
    calc (ready.head k).linkUp = (counted.head k).linkUp := congrArg Prod.fst (hreported.status k)
      _ = (d.head k).linkUp := by
        rw [Dev.head, hcounted.heads_eq (by decide), Dev.ledgerAll_foot.heads_eq (by decide), Dev.head]
  have hopened : SameOpen logged ([0, 1].foldl Dev.markReady ready) :=
    (((SameOpen.refl logged).step hcounted).trans (hreported.opened.step Dev.onRestore_foot)).step hmarked
  obtain ⟨hmedia0, hmedia1⟩ := markReady_media ready
  rw [hup] at hmedia0 hmedia1
  rw [hmarked.restore_eq (by decide)]
  exact ⟨rfl, rfl, fun t ht => (congrArg _ (hopened t)).trans (ledgerAll_opened d (.inl ht)), hmedia0, hmedia1⟩

/-- The work that goes on at early open, once the heads report Ready; `unclean`: the lead's tile had an unclean loss. -/
def Dev.openWork (d : Dev) (unclean : Bool) : Dev :=
  let d := d.onExpo fun e => { e with gov := { e.gov with pkgState := 0, tileState := [], sent := [], relRef := false, preDrain := none } }
  let d := d.onSealing fun x => { x with hibernating := false }
  let d := d.onLat fun l => { l with leaving := false }
  let d := if unclean then d.ringsLost else d
  let d := (d.ctxs.tbl.filter fun c => c.2.state == 5 || (c.2.state == 2 && c.2.tR != 0)).foldl (fun d c =>
    d.onCtx c.1 fun x => { x with rebuild := maskOf (d.ctxTiles c.1) }) d
  let d := d.outageMeter
  let d := d.onCtxs fun x => { x with minuteEnd := d.nextBoundary d.now }
  let d := (d.readmit.resumeRings false).afterSeal.latEarlyOpen fun c =>
    (d.ctxTiles c).any fun t => tget d.restore.tier 0 t != 0
  let d := tiles8.foldl Dev.heatApply d.pointCheck.resumeWindow
  (([0, 1].foldl Dev.bayUpd d.bedrockEvents).recompute).restUpd

theorem openWork_traffic (d : Dev) (unclean : Bool) : Traffic d (d.openWork unclean) := by
  unfold Dev.openWork
  extract_lets governed awake joined lost rebuilt metered minuted resumed heated
  have hjoined : Traffic d joined := (((Traffic.refl d).step Dev.onExpo_foot).step Dev.onSealing_foot).step Dev.onLat_foot
  have hlost : Traffic d lost := .ite (hjoined.step Dev.ringsLost_foot) hjoined
  have hrebuilt : Traffic d rebuilt := hlost.foldl fun _ _ _ hf => hf.step Dev.onCtx_foot
  have hminuted : Traffic d minuted := (hrebuilt.step Dev.outageMeter_foot).step Dev.onCtxs_foot
  have hresumed : Traffic d resumed :=
    (hminuted.readmit.resumeRings.stepFlash Dev.afterSeal_foot (.afterSeal (.refl _))).step Dev.latEarlyOpen_foot
  have hheated : Traffic d heated := ((hresumed.step Dev.pointCheck_foot).step Dev.resumeWindow_foot).foldl fun _ _ _ hf => hf.heatApply
  exact (((hheated.step Dev.bedrockEvents_foot).foldl fun _ _ _ hf => hf.step Dev.bayUpd_foot).step Dev.recompute_foot).step Dev.restUpd_foot

theorem mountEnds_of_phase {d : Dev} (h : d.restore.phase ≠ 4) : d.mountEnds = d := if_neg fun hrow => h hrow.1

theorem restore_earlyOpen (s : State) (dt : Nat) (hlead : (s.dev.tile 0).isolated = false ∨ (s.dev.tile 4).isolated = false)
    (hphase : s.dev.restore.phase = 5) (hsafe : s.dev.pkg.safe = 0) :
    Runs (.earlyOpen dt) s [.mem, .pkg, .expo, .sealing, .restore, .strata, .flash, .ctxs, .dram, .energy, .flint, .qtz, .lat, .heads, .jcs, .slate, .upd, .mirror, .dw, .out] fun e =>
      e.restore.ready = true ∧ e.restore.phase = 6 ∧
      (∀ t ∈ s.dev.inSvc, ((e.lastEntry t fun x : LedgerEntry => x.typ == 0x0D).map fun x : LedgerEntry => x.a) = some 0) ∧
      ((s.dev.head 0).linkUp = true → (e.head 0).media = 1) ∧ ((s.dev.head 1).linkUp = true → (e.head 1).media = 1) := by
  let d := s.dev.elapse dt
  have hleads : ¬ ((d.tile 0).isolated = true ∧ (d.tile 4).isolated = true ∧ (!d.restore.ready) = true ∧ (!d.pkg.bedrock) = true ∧
      d.panel.coreUp = true) := by
    rintro ⟨h0, h4, -⟩
    rcases hlead with h | h
    · exact Bool.false_ne_true (h.symm.trans h0)
    · exact Bool.false_ne_true (h.symm.trans h4)
  have hmounted : d.mountEnds = d := mountEnds_of_phase (by rw [show d.restore.phase = 5 from hphase]; decide)
  have hserves : ¬ (d.mountEnds.restore.phase ≠ 5 ∨ d.mountEnds.pkg.safe ≠ 0) := by
    rw [hmounted, show d.restore.phase = 5 from hphase, show d.pkg.safe = 0 from hsafe]
    decide
  refine .of_dev (e := (d.mountEnds.openReady d.mountEnds.lossIdentity).openWork (tget d.mountEnds.restore.tier 0 d.mountEnds.pkg.lead == 2))
    execEarlyOpen_foot (by decide) rfl rfl ((if_neg hleads).trans (if_neg hserves)) ?_
  rw [hmounted]
  obtain ⟨hready, hopen, hlogged, hmedia0, hmedia1⟩ := openReady_fields d d.lossIdentity
  have hwork := openWork_traffic (d.openReady d.lossIdentity) (tget d.restore.tier 0 d.pkg.lead == 2)
  exact ⟨hwork.ready.trans hready, hwork.phase.trans hopen, fun t ht => (congrArg _ (hwork.opened t)).trans (hlogged t ht),
    fun hup => (hwork.media 0).trans (hmedia0 hup), fun hup => (hwork.media 1).trans (hmedia1 hup)⟩

end Sys2Proof.Machine
end

section
set_option Elab.async false
/-! LEMMAS. Boot goes on with DRAM initialisation where DRAM was not kept, and the rows of the restore (chapter 04). -/

namespace Sys2Proof.Machine

/-! ### With no group armed, nothing that the loss of flash dies does makes a page dirty (R47, R161) -/

/-- No page is dirty, and no group is armed. -/
structure Unarmed (d : Dev) : Prop where
  armed : d.expo.armed = []
  dirty : d.expo.dirty = []

namespace Unarmed
variable {d : Dev}

theorem of_same {e : Dev} (h : Unarmed d) (harmed : e.expo.armed = d.expo.armed) (hdirty : e.expo.dirty = d.expo.dirty) : Unarmed e :=
  ⟨harmed.trans h.armed, hdirty.trans h.dirty⟩

theorem step {S : List Part} {e : Dev} (h : Unarmed d) (k : ChangesOnly S d e) (hS : Part.expo ∉ S := by decide) : Unarmed e :=
  h.of_same (by rw [k.expo_eq hS]) (by rw [k.expo_eq hS])

theorem onExpo {g : Expo → Expo} (h : Unarmed d) (hg : ∀ x, (g x).armed = x.armed ∧ (g x).dirty = x.dirty := by exact fun _ => ⟨rfl, rfl⟩) :
    Unarmed (d.onExpo g) :=
  h.of_same (hg d.expo).1 (hg d.expo).2

theorem ite {c : Prop} {_ : Decidable c} {e f : Dev} (h : Unarmed e) (k : Unarmed f) : Unarmed (if c then e else f) := by split <;> assumption

theorem foldl {α : Type} {g : Dev → α → Dev} {l : List α} (h : Unarmed d) (hg : ∀ e a, Unarmed e → Unarmed (g e a)) : Unarmed (l.foldl g d) := by
  induction l generalizing d with
  | nil => exact h
  | cons a l ih => exact ih (hg _ _ h)

theorem ledger {t typ a b c : Nat} (h : Unarmed d) : Unarmed (d.ledger t typ a b c) :=
  have hexpo : (d.ledger t typ a b c).offQueue = d.offQueue := cairn_offQueue ..
  h.of_same (congrArg Expo.armed hexpo :) (congrArg Expo.dirty hexpo :)

theorem requestArm {g : Nat} (h : Unarmed d) : Unarmed (d.requestArm g) := by
  unfold Dev.requestArm
  exact .ite h h.onExpo

theorem armFullCheck {t : Nat} (h : Unarmed d) : Unarmed (d.armFullCheck t) := by
  unfold Dev.armFullCheck
  exact .ite (.ite h (h.onExpo.step Dev.raise_foot)) h.onExpo

/-- A page that is to be marked dirty waits for its group's arm. -/
theorem dirtyArmed {p : Nat} (h : Unarmed d) : Unarmed (d.dirtyArmed p) := by
  have hnot : ¬ d.isArmed (pageGroup p) = true := by
    rw [Dev.isArmed, h.armed]
    exact Bool.false_ne_true
  unfold Dev.dirtyArmed
  rw [if_neg hnot]
  exact .ite h h.requestArm.armFullCheck.onExpo

theorem govTrigger {cause : Nat} (h : Unarmed d) : Unarmed (d.govTrigger cause) := h.onExpo

theorem strataLost {t : Nat} {r : PageRec} (h : Unarmed d) : Unarmed (d.strataLost t r) := by
  unfold Dev.strataLost
  extract_lets hit bad logged recorded
  have hlogged : Unarmed logged := h.foldl fun _ _ hf => .ite hf (hf.foldl fun _ _ hg => hg.ledger)
  have hrecorded : Unarmed recorded := hlogged.step Dev.onStrata_foot
  exact .ite hrecorded (hrecorded.step Dev.raise_foot)

theorem dropStreams {t : Nat} {g : Nat → Bool} (h : Unarmed d) : Unarmed (d.dropStreams t g) := by
  unfold Dev.dropStreams
  extract_lets ended
  have hended : Unarmed ended := h.foldl fun _ _ hf => .ite ((hf.step Dev.zoneUse_foot).step Dev.onFlow_foot) hf
  exact hended.onExpo

theorem retireDie {t die : Nat} (h : Unarmed d) : Unarmed (d.retireDie t die) := by
  unfold Dev.retireDie
  extract_lets f used here dropped retired moved filled
  have hretired : Unarmed retired := h.dropStreams.ledger.step Dev.onFl_foot
  have hmoved : Unarmed moved := hretired.foldl fun _ _ hf => (Unarmed.ite hf.dirtyArmed hf).strataLost
  have hfilled : Unarmed filled := ((hmoved.step Dev.resvFill_foot).step Dev.raise_foot).govTrigger
  exact .ite h (.ite (hfilled.step Dev.raise_foot) hfilled)

theorem flashChanLost {t ch : Nat} (h : Unarmed d) : Unarmed (d.flashChanLost t ch) := by
  unfold Dev.flashChanLost
  extract_lets lost
  have hlost : Unarmed lost := h.foldl fun _ _ hf => .ite hf hf.retireDie
  exact .ite (hlost.step Dev.raise_foot) hlost

end Unarmed

/-! ### DRAM initialisation after boot (R109, R129) -/

/-- Memory is closed and empty, in phase 3. -/
def Dev.Closed (d : Dev) : Prop := d.restore.phase = 3 ∧ d.restore.ready = false ∧ d.mem = []

theorem toDramInit_closed (d : Dev) : d.toDramInit.Closed ∧ Unarmed d.toDramInit := by
  unfold Dev.toDramInit Dev.mountReset
  extract_lets closed phased emptied lost reverted headed trained
  have htrained : ChangesOnly [.heads, .dram, .dw] reverted trained :=
    .foldl (fun _ _ h => .step Dev.tileChans_foot (by decide) h) (.foldl (fun _ _ h => .step Dev.onHead_foot (by decide) h) (.refl _ _))
  have hexpo : (trained.onRestore fun r => { r with phase := 3 }).restUpd.expo = reverted.expo := by
    rw [Dev.restUpd_foot.expo_eq (by decide), onRestore_expo, htrained.expo_eq (by decide)]
  rw [Dev.Closed, Dev.restUpd_foot.restore_eq (by decide), Dev.restUpd_foot.mem_eq (by decide), onRestore_restore, onRestore_mem,
    htrained.restore_eq (by decide), htrained.mem_eq (by decide)]
  have hcleared : reverted.expo.armed = [] ∧ reverted.expo.dirty = [] := ⟨rfl, rfl⟩
  exact ⟨⟨rfl, rfl, rfl⟩, (congrArg Expo.armed hexpo).trans hcleared.1, (congrArg Expo.dirty hexpo).trans hcleared.2⟩

/-- The loss of flash channels keeps it so. -/
theorem flashChansLost_closed {d : Dev} (hclosed : d.Closed) (hunarmed : Unarmed d) (l : List (Nat × Nat)) :
    (l.foldl (fun d x => d.flashChanLost x.1 x.2) d).restore.phase = 3 ∧ (l.foldl (fun d x => d.flashChanLost x.1 x.2) d).restore.ready = false ∧
    (l.foldl (fun d x => d.flashChanLost x.1 x.2) d).mem = [] ∧ (l.foldl (fun d x => d.flashChanLost x.1 x.2) d).expo.dirty = [] := by
  have hlost : ChangesOnly [.expo, .strata, .flash, .flint] d (l.foldl (fun d x => d.flashChanLost x.1 x.2) d) :=
    .foldl (fun _ _ h => .step Dev.flashChanLost_foot (by decide) h) (.refl _ _)
  obtain ⟨hphase, hready, hmem⟩ := hclosed
  rw [hlost.restore_eq (by decide), hlost.mem_eq (by decide)]
  exact ⟨hphase, hready, hmem, (hunarmed.foldl fun _ _ hf => hf.flashChanLost).dirty⟩

theorem enterBedrock_bedrock (d : Dev) (cause : Nat) : (d.enterBedrock cause).pkg.bedrock = true := by
  unfold Dev.enterBedrock
  extract_lets entered loaded closed
  have hheads : ChangesOnly [.heads, .dw] closed
      ([0, 1].foldl (fun d h => d.onHead h fun x => { x with media := 2 }) closed).restUpd :=
    .step Dev.restUpd_foot (by decide) (.foldl (fun _ _ h => .step Dev.onHead_foot (by decide) h) (.refl _ _))
  rw [hheads.pkg_eq (by decide)]
  rfl

/-- From `d` to `e` the restore stays, unless the device enters Bedrock. -/
def KeepsRestore (d e : Dev) : Prop := e.pkg.bedrock = true ∨ e.restore = d.restore

theorem KeepsRestore.ite {d e f : Dev} {c : Prop} {_ : Decidable c} (h : KeepsRestore d e) (k : KeepsRestore d f) :
    KeepsRestore d (if c then e else f) := by split <;> assumption

theorem bootSlots_keepsRestore (d : Dev) (okA okB : BitVec 8) (twinOk : Bool) : KeepsRestore d (d.bootSlots okA okB twinOk) := by
  unfold Dev.bootSlots
  refine .ite (.inl (enterBedrock_bedrock d 3)) (.ite (.inl (enterBedrock_bedrock d 4)) ?_)
  extract_lets tw hdr ld loaded recorded want ok
  have hrecorded : recorded.restore = d.restore := by
    refine (Dev.bootRecords_foot.restore_eq (by decide)).trans ?_
    unfold loaded
    split <;> rfl
  have hrun (want slot : Nat) (ok : BitVec 8) : KeepsRestore d (recorded.bootRun want slot ok) :=
    .inr ((Dev.bootRun_foot.restore_eq (by decide)).trans hrecorded)
  exact .ite (hrun ..) (.ite (hrun ..) (.inl (enterBedrock_bedrock recorded 2)))

/-- How boot ends: no cause of a failed restart is left, and outside Bedrock memory is closed and empty in phase 3, with no page dirty. -/
def Booted (e : Dev) : Prop := e.panel.failCauses = [] ∧
  (e.pkg.bedrock = false → e.restore.phase = 3 ∧ e.restore.ready = false ∧ e.mem = [] ∧ e.expo.dirty = [])

/-- Boot that goes on with DRAM initialisation ends so, whatever flash channels are lost. -/
theorem toDramInit_booted {d : Dev} (h : d.panel.failCauses = []) (untrained : List (Nat × Nat)) :
    Booted (untrained.foldl (fun d x => d.flashChanLost x.1 x.2) d.toDramInit) := by
  obtain ⟨hclosed, hunarmed⟩ := toDramInit_closed d
  have hpanel : (untrained.foldl (fun d x => d.flashChanLost x.1 x.2) d.toDramInit).panel = d.panel :=
    (foldl_keeps (π := Dev.panel) (fun _ _ _ => Dev.flashChanLost_foot.panel_eq (by decide)) _).trans (Dev.toDramInit_foot.panel_eq (by decide))
  exact ⟨(congrArg Panel.failCauses hpanel).trans h, fun _ => flashChansLost_closed hclosed hunarmed untrained⟩

theorem restore_boot (s : State) (self okA okB warmOk : BitVec 8) (twinOk : Bool) (half torn : List (Nat × Nat)) (temps : List (Nat × BitVec 18))
    (geom : Nat × Nat) (untrained : List (Nat × Nat)) (dt : Nat) (hphase : s.dev.restore.phase = 2) (hup : s.dev.panel.coreUp = true)
    (hbed : s.dev.pkg.bedrock = false) (hreset : s.dev.panel.resetDue = false) (hcool : s.dev.restore.thermalCheck = false)
    (hkept : s.dev.restore.dramKept = false) :
    Runs (.bootComplete self okA okB warmOk twinOk half torn temps geom untrained dt) s [.mem, .pkg, .expo, .sealing, .restore, .strata, .flash, .ctxs, .dram, .energy, .therm, .flint, .qtz, .snap, .lat, .heads, .jcs, .slate, .upd, .panel, .mirror, .dw, .out, .freeN] Booted := by
  refine .of_foot execBootComplete_foot (by decide) rfl rfl ?_
  extract_lets e1 scanned torn1 sealed timed roled told cleared crit withheld cancelled read checked booted bayed wpOff phased kept unforced sized going
  have hrow : ¬ (e1.restore.phase ≠ 2 ∨ (!e1.panel.coreUp) = true ∨ e1.pkg.bedrock = true ∨ e1.panel.resetDue = true) := by
    show ¬ (s.dev.restore.phase ≠ 2 ∨ (!s.dev.panel.coreUp) = true ∨ s.dev.pkg.bedrock = true ∨ s.dev.panel.resetDue = true)
    rw [hphase, hup, hbed, hreset]
    decide
  have htold : ChangesOnly [.pkg, .expo, .sealing, .dram, .energy, .flint, .qtz, .heads, .slate, .upd, .panel, .mirror, .dw, .out] e1 told := by
    have htorn : ChangesOnly [.flint, .slate, .upd] e1 torn1 := .foldl (fun _ _ h => .step Dev.tornRecord_foot (by decide) h)
      (.foldl (fun _ _ h => .step Dev.intentScan_foot (by decide) h) (.refl _ _))
    have hsealed : ChangesOnly [.sealing, .dw] torn1 sealed :=
      .ite (.step Dev.sealReport_foot (by decide) (Dev.onSealing_foot.mono (by decide))) (.refl _ _)
    refine .step ?_ (fun _ h => h) (.step hsealed (by decide) (htorn.mono (by decide)))
    exact .foldl (fun _ _ h => .step Dev.raise_foot (by decide) h)
      (.step Dev.bootRoles_foot (by decide) (Dev.timeFloor_foot.mono (by decide)))
  have hread : ChangesOnly [.therm, .flint, .snap] cleared read := by
    have hcrit : ChangesOnly [.therm, .flint, .snap] cleared crit := by
      unfold crit
      split
      · exact .step Dev.onTherm_foot (by decide) (Dev.thermPend_foot.mono (by decide))
      · exact .refl _ _
    have hwithheld : ChangesOnly [.therm, .flint, .snap] cleared withheld := .ite (.step Dev.onTherm_foot (by decide) (.step Dev.raise_foot (by decide) hcrit)) hcrit
    have hcancelled : ChangesOnly [.therm, .flint, .snap] cleared cancelled :=
      .ite (.step Dev.onSnap_foot (by decide) (.step Dev.raise_foot (by decide) hwithheld)) hwithheld
    exact .ite (.foldl (fun _ _ h => .step Dev.takeCode_foot (by decide) h) hcancelled) hcancelled
  have hrestore : read.restore = s.dev.restore := (hread.restore_eq (by decide)).trans (htold.restore_eq (by decide))
  have hcauses : read.panel.failCauses = [] := (congrArg Panel.failCauses (hread.panel_eq (by decide)) :)
  have hcold : ¬ (read.restore.thermalCheck && !read.coolEnough) = true := by
    rw [hrestore, hcool]
    exact Bool.false_ne_true
  rw [if_neg hrow, if_neg hcold]
  have hbooted : booted.panel.failCauses = [] := by
    rw [show booted.panel = checked.panel from Dev.bootSlots_foot.panel_eq (by decide)]
    exact hcauses
  split
  · rename_i hin
    exact ⟨hbooted, fun hout => absurd hin (Bool.eq_false_iff.mp hout)⟩
  · rename_i hout
    have hslots : booted.restore = checked.restore := (bootSlots_keepsRestore checked okA okB twinOk).resolve_left hout
    have hbayed : ChangesOnly [.energy, .flint, .dw] booted bayed :=
      .step Dev.onEnergy_foot (by decide) (.foldl (fun _ _ h => .step Dev.bayBoot_foot (by decide) h) (.refl _ _))
    have hlost : phased.restore.dramKept = false :=
      calc phased.restore.dramKept = bayed.restore.dramKept := (congrArg Restore.dramKept (Dev.qtzUpd_foot.restore_eq (by decide)) :)
        _ = checked.restore.dramKept := congrArg Restore.dramKept ((hbayed.restore_eq (by decide)).trans hslots)
        _ = s.dev.restore.dramKept := (congrArg Restore.dramKept hrestore :)
        _ = false := hkept
    have hcold : ¬ kept = true := by
      unfold kept
      rw [hlost]
      exact Bool.false_ne_true
    have hsized : sized.panel.failCauses = [] :=
      calc sized.panel.failCauses = bayed.panel.failCauses := (congrArg Panel.failCauses (Dev.qtzUpd_foot.panel_eq (by decide)) :)
        _ = booted.panel.failCauses := congrArg Panel.failCauses (hbayed.panel_eq (by decide))
        _ = [] := hbooted
    unfold going
    rw [if_neg hcold]
    exact toDramInit_booted hsized untrained

/-- Settles O24: boot, early open, the restoring of pages and its end, and the reports, each row from what it leaves of the restore. -/
theorem restoreRows : Obligations.RestoreRows := by
  refine ⟨restore_boot, fun s dt => restore_earlyOpen s dt, fun s p out keyErr dt => restore_demandFetch s p out keyErr dt,
    fun d p r src => restorePage_loads src, fun s t out keyErr dt p => restore_bulkPage s t out keyErr dt p,
    fun s t i n out keyErr dt => restore_fill s t i n out keyErr dt, fun s t dt => restore_bulkComplete s t dt, fun s dt hnot => ?_,
    fun s dt => restore_statusUpdate s dt, fun d i => ⟨fun hnew => (dirtyShutdown_new hnew).1, dirtyShutdown_once d i⟩⟩
  exact .of_eq (r := execRestoreStatusUpdate dt s) rfl rfl (if_neg (Bool.eq_false_iff.mp hnot)) Dev.elapse_foot rfl

end Sys2Proof.Machine
end

section
set_option Elab.async false
/-! LEMMAS. Leases, and the commands that name one resource (chapter 13). -/

namespace Sys2Proof.Machine

/-! ### Leases (R404 to R407) -/

theorem tget_tdel {α : Type} (t : Tbl α) (z : α) (k : Nat) : tget (tdel t k) z k = z := by
  induction t with
  | nil => rfl
  | cons e r ih =>
    by_cases hk : e.1 = k
    · simpa [tdel, hk] using ih
    · simpa [tdel, hk, tget] using ih

theorem tget_tdel_ne {α : Type} (t : Tbl α) (z : α) {k j : Nat} (hj : j ≠ k) : tget (tdel t k) z j = tget t z j := by
  induction t with
  | nil => rfl
  | cons e r ih =>
    by_cases hk : e.1 = k
    · have hne : e.1 ≠ j := fun h => hj (h.symm.trans hk)
      simpa [tdel, hk, tget, hj.symm] using ih
    · simp only [tdel, tget, bne_iff_ne, ne_eq, hk, not_false_eq_true, List.filter_cons_of_pos]
      exact if_congr Iff.rfl rfl ih

theorem lease_congr {d e : Dev} (h : e.jcs.leases = d.jcs.leases) (r : Nat) : e.lease r = d.lease r := by rw [Dev.lease, h, Dev.lease]

theorem lease_of_tset {e : Dev} {ls : Tbl Lease_} {r : Nat} {l : Lease_} (h : e.jcs.leases = tset ls r l) : e.lease r = l := by
  rw [Dev.lease, h, tget_tset _ _ _ _ _ rfl]

theorem lease_of_tset_ne {d e : Dev} {r k : Nat} {l : Lease_} (h : e.jcs.leases = tset d.jcs.leases r l) (hk : k ≠ r) : e.lease k = d.lease k := by
  rw [Dev.lease, h, tget_tset_ne _ _ _ _ _ hk, Dev.lease]

theorem endLease_leases (d : Dev) (r : Nat) : (d.endLease r).jcs.leases = tdel d.jcs.leases r :=
  congrArg JcsSt.leases (Dev.mirrorNow_foot.same .jcs (by decide)).symm

theorem endLease_lease (d : Dev) (r : Nat) : (d.endLease r).lease r = {} := by
  rw [Dev.lease, endLease_leases, tget_tdel]

theorem endLease_lease_ne (d : Dev) {r k : Nat} (hk : k ≠ r) : (d.endLease r).lease k = d.lease k := by
  rw [Dev.lease, endLease_leases, tget_tdel_ne _ _ hk, Dev.lease]

theorem giveUp_of_ne {d : Dev} {r : Nat} (h : r ≠ 0x4003) : d.giveUp r = d.endLease r := if_pos h

theorem giveUp_update {d : Dev} (h : d.lrec.trySlot = none) : d.giveUp 0x4003 = d.updRelease := by
  have htry : ¬ d.lrec.trySlot.isSome = true := by simp [h]
  exact (if_neg (not_not_intro rfl)).trans (if_neg htry)

/-- The leases once a command of `c` that names resource `r` has kept a lease of its caller's from lapsing (R406). -/
def Dev.usedLeases (d : Dev) (c : Caller) (r : Nat) : Tbl Lease_ :=
  if (d.lease r).heldBy c then tmod d.jcs.leases {} r fun l => { l with last := d.now } else d.jcs.leases

theorem useLease_leases (d : Dev) (c : Caller) (r : Nat) : (d.useLease c [r]).jcs.leases = d.usedLeases c r := by
  unfold Dev.useLease Dev.usedLeases
  simp only [List.foldl_cons, List.foldl_nil]
  split <;> rfl

theorem usedLeases_of_not_held {d : Dev} {c : Caller} {r : Nat} (h : (d.lease r).heldBy c = false) : d.usedLeases c r = d.jcs.leases :=
  if_neg (Bool.eq_false_iff.mp h)

section
variable {d : Dev} {c : Caller} {r : Nat} {j : JcsSt} (hj : j.leases = d.usedLeases c r)
include hj

/-- The use of a lease changes its idle time alone, -/
theorem lease_of_used : ∃ last, (d.onJcs fun _ => j).lease r = { d.lease r with last := last } := by
  rw [Dev.lease, onJcs_jcs, hj]
  unfold Dev.usedLeases
  split
  · exact ⟨d.now, tget_tmod ..⟩
  · exact ⟨(d.lease r).last, rfl⟩

theorem heldBy_of_used : ((d.onJcs fun _ => j).lease r).heldBy c = (d.lease r).heldBy c := by
  obtain ⟨last, hlease⟩ := lease_of_used hj
  rw [hlease]
  rfl

theorem holder_of_used : ((d.onJcs fun _ => j).lease r).holder = (d.lease r).holder := by
  obtain ⟨last, hlease⟩ := lease_of_used hj
  rw [hlease]

/-- and no other lease. -/
theorem lease_of_used_ne {k : Nat} (hk : k ≠ r) : (d.onJcs fun _ => j).lease k = d.lease k := by
  rw [Dev.lease, onJcs_jcs, hj]
  unfold Dev.usedLeases
  split
  · exact tget_tmod_ne _ _ _ _ _ hk
  · rfl

/-- A lease given up in the course of a command is free after it, and no other changes. -/
theorem giveUp_leases {e : Dev} (hr : r ≠ 0x4003) (he : e.jcs.leases = ((d.onJcs fun _ => j).giveUp r).jcs.leases) :
    (e.lease r).holder = 255 ∧ ∀ k : Nat, k < 0x4006 → k ≠ r → e.lease k = d.lease k := by
  rw [giveUp_of_ne hr] at he
  refine ⟨?_, fun k _ hk => ?_⟩
  · rw [lease_congr he, endLease_lease]
  · rw [lease_congr he, endLease_lease_ne _ hk, lease_of_used_ne hj hk]

end

/-- The response of a command leaves the leases. -/
theorem respond_leases (d : Dev) (c : Caller) (op ret ext : Nat) (bg : Bool) (out : List Byte) :
    (d.respond c op ret ext bg out).jcs.leases = d.jcs.leases := by
  unfold Dev.respond
  extract_lets mine cleared shown idle sent
  have hshown : shown.jcs.leases = d.jcs.leases := by
    unfold shown
    split <;> rfl
  clear_value shown
  have hidle : idle.jcs.leases = d.jcs.leases := by
    unfold idle
    split <;> exact hshown
  split
  · rw [← Dev.sendMsg_foot.same .jcs (by decide)]
    exact hidle
  · exact hidle

/-! ### Commands that name one resource (R403, R406) -/

/-- An admitted command whose fields pass comes to its effect. -/
theorem jcsDo_eq_jcsEffect {d : Dev} {op : Nat} {check : Dev → Caller → List Byte → Nat} {act : Dev → Caller → List Byte → Dev × Rsp}
    {c : Caller} {p : List Byte} {r : CmdRow} (hadm : Admitted d op c p r) (hcheck : check d c p = 0) :
    d.jcsDo op check act c p = d.jcsEffect op act r c p := by
  unfold Dev.jcsDo
  rw [if_neg hadm.serves, hadm.row]
  dsimp only
  rw [if_neg (not_not_intro hadm.admission), if_neg (not_not_intro hcheck), hadm.gate]

/-- A command that names resource `n` and answers at once has its effect from a bookkeeping whose leases are those of its use. -/
theorem jcsEffect_of_naming {d : Dev} {op n : Nat} {act : Dev → Caller → List Byte → Dev × Rsp} {c : Caller} {p : List Byte} {r : CmdRow}
    (hfree : ¬ (r.bg = true ∧ (d.bgOf c.p).running = true)) (hnames : r.names p = [n]) : ∃ j : JcsSt, j.leases = d.usedLeases c n ∧
      ∀ d1 ext out, act (d.onJcs fun _ => j) c p = (d1, { ext := ext, out := out }) →
        d.jcsEffect op act r c p = let e := d1.respond c op (retOf ext) ext false out; if r.chg = true then e.mirrorNow else e := by
  let begun := d.onJcs fun j => { j with inProg := j.inProg ++ [{ by_ := c.p, uid := c.uid, tag := c.tag, stamp := d.now, opcode := op }] }
  obtain ⟨j, hj⟩ := useLease_jcs begun c [n]
  have hleases : (begun.useLease c [n]).jcs.leases = d.usedLeases c n := useLease_leases begun c n
  refine ⟨j, ?_, fun d1 ext out hact => ?_⟩
  · rw [hj] at hleases
    exact hleases
  · have hused : act (begun.useLease c [n]) c p = (d1, { ext := ext, out := out }) := by
      rw [hj]
      exact hact
    unfold Dev.jcsEffect
    rw [if_neg hfree, hnames]
    extract_lets now _
    rw [hused]
    rfl

/-- A row of the job commands that names one resource and answers at once: nothing after its effect changes a lease. -/
theorem Runs.of_jcs_naming {i : Instr} {s : State} {r : Res} {S T : List Part} {P : Dev → Prop} {op dt uid n : Nat} {b : Fin 4} {p : List Byte}
    {check : Dev → Caller → List Byte → Nat} {act : Dev → Caller → List Byte → Dev × Rsp}
    (hfoot : ∃ t, r = .next t ∧ t.pending = s.pending ∧ ChangesOnly T s.dev t.dev) (hT : ∀ p ∈ T, p ∈ S) (hexec : exec i s = r)
    (hrun : r = s.run fun d => (d.elapse dt).jcsDo op check act (caller b uid) p)
    (hadm : (s.dev.elapse dt).admits op (caller b uid) p = true) (hcheck : check (s.dev.elapse dt) (caller b uid) p = 0)
    (hnames : (cmdRow op).map (fun r => r.names p) = some [n])
    (hact : ∀ j : JcsSt, j.leases = (s.dev.elapse dt).usedLeases (caller b uid) n → ∃ d1 ext out,
      act ((s.dev.elapse dt).onJcs fun _ => j) (caller b uid) p = (d1, { ext := ext, out := out }) ∧ Grown (s.dev.elapse dt) d1 ∧
      ∀ e, ChangesOnly answerParts d1 e → e.jcs.leases = d1.jcs.leases →
        Answered (s.dev.elapse dt) e b.val op (retOf ext) ext false out → P e) :
    Runs i s S P := by
  obtain ⟨row, hadmitted⟩ := admitted_of_admits hadm
  rw [hadmitted.row] at hnames
  obtain ⟨j, hj, heffect⟩ := jcsEffect_of_naming (act := act) (op := op) hadmitted.free (Option.some.inj hnames)
  obtain ⟨d1, ext, out, hx, hgrown, hP⟩ := hact j hj
  refine .of_dev hfoot hT hexec hrun ((jcsDo_eq_jcsEffect hadmitted hcheck).trans (heffect d1 ext out hx)) ?_
  have hmirror := mirror_foot (d1.respond (caller b uid) op (retOf ext) ext false out) row.chg
  refine hP _ (.step hmirror (by decide) (Dev.respond_foot.mono (by decide))) ?_
    (answered_respond hgrown b uid op (retOf ext) ext false out hmirror)
  rw [← hmirror.same .jcs (by decide)]
  exact respond_leases ..

end Sys2Proof.Machine
end

section
set_option Elab.async false
/-! LEMMAS. The steering of ranks, its changes that wait for their Slate records, and the rank commands (chapter 07). -/

namespace Sys2Proof.Machine

/-- The steering table, and the changes of it that wait for their records. -/
def Dev.steering (d : Dev) : Tbl Steer × List SteerPend := (d.dram.steer, d.dram.steerPend)

theorem steerNext_congr {d e : Dev} (h : e.steering = d.steering) (t k : Nat) : e.steerNext t k = d.steerNext t k := by
  obtain ⟨hsteer, hpend⟩ := Prod.mk.inj h
  rw [Dev.steerNext, hpend, Dev.steer, hsteer]
  rfl

theorem steering_of_dram {d e : Dev} (h : e.dram = d.dram) : e.steering = d.steering := by rw [Dev.steering, h, Dev.steering]

/-! ### An entry as it will stand, after a change of it and of another (R251) -/

/-- A change that waits is one of entry `k` of tile `t`. -/
abbrev SteerPend.isOf (t k : Nat) (p : SteerPend) : Bool := p.tile == t && p.entry == k

/-- The waiting changes with one of entry `k` of tile `t` put last, in the place of an earlier one. -/
def pendWith (l : List SteerPend) (t k : Nat) (new : Steer) : List SteerPend :=
  (l.filter fun p : SteerPend => !p.isOf t k) ++ [{ tile := t, entry := k, new := new }]

theorem steerPut_steerPend (d : Dev) (t k : Nat) (f : Steer → Steer) :
    (d.steerPut t k f).dram.steerPend = pendWith d.dram.steerPend t k (f (d.steerNext t k)) := rfl

theorem find_pendWith (l : List SteerPend) (t k : Nat) (new : Steer) :
    (pendWith l t k new).find? (SteerPend.isOf t k) = some { tile := t, entry := k, new := new } := by
  have hgone : (l.filter fun p : SteerPend => !p.isOf t k).find? (SteerPend.isOf t k) = none := by
    rw [List.find?_eq_none]
    intro x hx hof
    have hnot := (List.mem_filter.mp hx).2
    rw [hof] at hnot
    exact Bool.false_ne_true hnot
  rw [pendWith, List.find?_append, hgone]
  simp

theorem find_pendWith_ne (l : List SteerPend) (t : Nat) {k u : Nat} (new : Steer) (h : u ≠ k) :
    (pendWith l t k new).find? (SteerPend.isOf t u) = l.find? (SteerPend.isOf t u) := by
  have hkept : (fun x : SteerPend => decide ((!x.isOf t k) = true ∧ x.isOf t u = true)) = SteerPend.isOf t u := by
    funext x
    rw [Bool.eq_iff_iff]
    by_cases hu : x.entry = u
    · have hk : x.entry ≠ k := fun hk => h (hu.symm.trans hk)
      simp [SteerPend.isOf, hk]
    · simp [SteerPend.isOf, hu]
  rw [pendWith, List.find?_append, List.find?_filter, hkept]
  simp [h.symm]

theorem steerNext_steerPut (d : Dev) (t k : Nat) (f : Steer → Steer) : (d.steerPut t k f).steerNext t k = f (d.steerNext t k) := by
  rw [Dev.steerNext, steerPut_steerPend, find_pendWith]

theorem steerNext_steerPut_ne (d : Dev) (t : Nat) {k u : Nat} (f : Steer → Steer) (h : u ≠ k) :
    (d.steerPut t k f).steerNext t u = d.steerNext t u := by
  rw [Dev.steerNext, steerPut_steerPend, find_pendWith_ne _ t _ h]
  rfl

/-- A change at once of what an entry keeps outside its record shows in the entry as it will stand too. -/
theorem steerNext_steerNow (d : Dev) (t k : Nat) (f : Steer → Steer) : (d.steerNow t k f).steerNext t k = f (d.steerNext t k) := by
  let g (p : SteerPend) : SteerPend := if p.tile = t ∧ p.entry = k then { p with new := f p.new } else p
  have hpend : (d.steerNow t k f).dram.steerPend = d.dram.steerPend.map g := rfl
  have hsteer : (d.steerNow t k f).steer t k = f (d.steer t k) := tget_tmod ..
  have hof : (SteerPend.isOf t k ∘ g) = SteerPend.isOf t k := by
    funext p
    simp only [Function.comp_apply, g]
    split <;> rfl
  rw [Dev.steerNext, hpend, hsteer, List.find?_map, hof, Dev.steerNext]
  cases hfind : d.dram.steerPend.find? (SteerPend.isOf t k) with
  | none => rfl
  | some p =>
    have hp : p.tile = t ∧ p.entry = k := by simpa using List.find?_some hfind
    exact congrArg SteerPend.new (if_pos hp)

/-! ### A spare is looked for, and a migration to it begins (R245) -/

/-- A fold that takes up an element or keeps what it has ends with an element or with what it began with. -/
theorem mem_of_foldl_choice {f : Option Nat → Nat → Option Nat} (hf : ∀ a n, f a n = some n ∨ f a n = a) {l : List Nat} {a : Option Nat} {x : Nat}
    (h : l.foldl f a = some x) : x ∈ l ∨ a = some x := by
  induction l generalizing a with
  | nil => exact .inr h
  | cons n l ih =>
    rcases ih h with hl | hstep
    · exact .inl (List.mem_cons_of_mem n hl)
    · rcases hf a n with hn | ha
      · exact .inl (Option.some.inj (hn.symm.trans hstep) ▸ List.mem_cons_self)
      · exact .inr (ha.symm.trans hstep)

theorem freeSpare_state {d : Dev} {t c sp : Nat} (h : d.freeSpare t c = some sp) : (d.steerNext t sp).state = 5 := by
  unfold Dev.freeSpare at h
  extract_lets free at h
  have hfree : sp ∈ free := by
    split at h
    · exact Option.some.inj h ▸ List.mem_of_find?_eq_some ‹_›
    · refine (mem_of_foldl_choice (fun a n => ?_) h).resolve_right (by simp)
      cases a with
      | none => exact .inl rfl
      | some x =>
        by_cases hle : x % 4 ≤ n % 4
        · exact .inl (if_pos hle)
        · exact .inr (if_neg hle)
  exact beq_iff_eq.mp (List.mem_filter.mp hfree).2

theorem freeSpare_congr {d e : Dev} (h : e.steering = d.steering) (t c : Nat) : e.freeSpare t c = d.freeSpare t c := by
  unfold Dev.freeSpare
  simp only [steerNext_congr h]

/-- A migration is the wait of two entries for their records: the rank's, and the spare's. -/
theorem migrateTo_steering (d : Dev) (t : Nat) {k sp : Nat} (reason : Nat) (h : sp ≠ k) :
    (d.migrateTo t k sp reason).steerNext t k = { d.steerNext t k with
      state := 1, sweep := 0, altCh := sp % 4, altRank := sp / 4, altValid := true, reason := reason, pprDone := false
      testPass := false, changed := d.now } ∧
    (d.migrateTo t k sp reason).steerNext t sp = { d.steerNext t sp with
      state := 6, altCh := k % 4, altRank := k / 4, altValid := true, changed := d.now } := by
  unfold Dev.migrateTo
  rw [steerNext_steerPut_ne _ _ _ h.symm, steerNext_steerPut, steerNext_steerPut, steerNext_steerPut_ne _ _ _ h]
  exact ⟨rfl, rfl⟩

theorem migrateTo_steer (d : Dev) (t k sp reason : Nat) : (d.migrateTo t k sp reason).dram.steer = d.dram.steer := rfl

/-! ### Ranks (R245, R248, R250) -/

theorem entryCheck_of_le {d : Dev} {c : Caller} {p : List Byte} (ht : fieldAt p 0 1 ≤ 7) (hk : fieldAt p 1 1 ≤ 15) : entryCheck d c p = 0 :=
  orErr_of_ok (Bool.and_eq_true_iff.mpr ⟨within_iff.mpr ⟨Nat.zero_le _, ht⟩, within_iff.mpr ⟨Nat.zero_le _, hk⟩⟩)

/-- The first work of a retirement: the rank is marked as retired, and Flint is told. -/
def Dev.markRetired (d : Dev) (t k sc : Nat) : Dev :=
  ((d.onRank t k fun r => { r with retSc := sc }).onRank t k fun r => { r with retired := true }).raise
    (tsrc t (4 * (k % 4) + 3)) 0x85 2 (detail := [k])

theorem markRetired_dram (d : Dev) (t k sc : Nat) : (d.markRetired t k sc).dram =
    ((d.onRank t k fun r => { r with retSc := sc }).onRank t k fun r => { r with retired := true }).dram :=
  (Dev.raise_foot.same .dram (by decide)).symm

theorem markRetired_steering (d : Dev) (t k sc : Nat) : (d.markRetired t k sc).steering = d.steering :=
  (steering_of_dram (markRetired_dram d t k sc)).trans rfl

theorem markRetired_retired (d : Dev) (t k sc : Nat) : ((d.markRetired t k sc).rank t k).retired = true := by
  rw [Dev.rank, markRetired_dram]
  unfold Dev.onRank
  rw [onDram_dram, tget_tmod]

/-- A NORMAL rank that is retired migrates to a free spare, -/
theorem retire_to_spare {d : Dev} {t k sp : Nat} (reason sc : Nat) (hstate : (d.steerNext t k).state = 0)
    (hspare : d.freeSpare t (k % 4) = some sp) : d.retire t k reason sc = (d.markRetired t k sc).migrateTo t k sp reason := by
  have hfree : (d.markRetired t k sc).freeSpare t (k % 4) = some sp := (freeSpare_congr (markRetired_steering d t k sc) t _).trans hspare
  unfold Dev.retire
  simp only [hstate]
  split
  · rename_i x hx
    obtain rfl : sp = x := Option.some.inj (hfree.symm.trans hx)
    rfl
  · exact absurd (hfree.symm.trans ‹_›) (by simp)

/-- and without one becomes DEGRADED. -/
theorem retire_without_spare {d : Dev} {t k : Nat} (reason sc : Nat) (hstate : (d.steerNext t k).state = 0)
    (hspare : d.freeSpare t (k % 4) = none) : ∃ now, d.retire t k reason sc =
      ((d.markRetired t k sc).steerPut t k fun s => { s with state := 4, reason := reason, changed := now }).raise (tsrc t (4 * (k % 4) + 3)) 0x13 2 := by
  have hfree : (d.markRetired t k sc).freeSpare t (k % 4) = none := (freeSpare_congr (markRetired_steering d t k sc) t _).trans hspare
  refine ⟨(d.markRetired t k sc).now, ?_⟩
  unfold Dev.retire
  simp only [hstate]
  split
  · exact absurd (hfree.symm.trans ‹_›) (by simp)
  · rfl

section
variable {d : Dev} {c : Caller} {p : List Byte} {t k : Nat} (ht : t = fieldAt p 0 1) (hk : k = fieldAt p 1 1)
include ht hk

theorem retireAct_of_normal (hstate : (d.steerNext t k).state = 0) : retireAct d c p = (d.retire t k 6 2, {}) := by
  subst ht hk
  unfold retireAct
  simp only [hstate]

theorem retireAct_of_other (h0 : (d.steerNext t k).state ≠ 0) (h4 : (d.steerNext t k).state ≠ 4) : retireAct d c p = (d, .err 4) := by
  subst ht hk
  unfold retireAct
  dsimp only
  split
  · exact absurd ‹_› h0
  · exact absurd ‹_› h4
  · rfl

/-- With a free spare a NORMAL or DEGRADED rank migrates to it. -/
theorem retireAct_migrates {sp : Nat} (hstate : (d.steerNext t k).state = 0 ∨ (d.steerNext t k).state = 4)
    (hspare : d.freeSpare t (k % 4) = some sp) : ∃ marked : Dev, retireAct d c p = (marked.migrateTo t k sp 6, {}) ∧ marked.steering = d.steering := by
  rcases hstate with h | h
  · refine ⟨d.markRetired t k 2, (retireAct_of_normal ht hk h).trans ?_, markRetired_steering ..⟩
    rw [retire_to_spare 6 2 h hspare]
  · refine ⟨d, ?_, rfl⟩
    subst ht hk
    unfold retireAct
    simp only [h, hspare]

/-- Without one a NORMAL rank becomes DEGRADED, marked as retired, -/
theorem retireAct_degrades (hstate : (d.steerNext t k).state = 0) (hspare : d.freeSpare t (k % 4) = none) : ∃ d1, retireAct d c p = (d1, {}) ∧
    (d1.steerNext t k).state = 4 ∧ (d1.steerNext t k).reason = 6 ∧ (d1.rank t k).retired = true ∧ d1.dram.steer = d.dram.steer := by
  obtain ⟨now, hretire⟩ := retire_without_spare 6 2 hstate hspare
  refine ⟨_, retireAct_of_normal ht hk hstate, ?_⟩
  have hput : (d.retire t k 6 2).dram = ((d.markRetired t k 2).steerPut t k fun x => { x with state := 4, reason := 6, changed := now }).dram :=
    hretire ▸ (Dev.raise_foot.same .dram (by decide)).symm
  rw [steerNext_congr (steering_of_dram hput), steerNext_steerPut, Dev.rank, hput]
  exact ⟨rfl, rfl, markRetired_retired d t k 2, congrArg Prod.fst (markRetired_steering d t k 2)⟩

/-- and a DEGRADED one stays so, for the new reason. -/
theorem retireAct_stays (hstate : (d.steerNext t k).state = 4) (hspare : d.freeSpare t (k % 4) = none) :
    retireAct d c p = (d.steerNow t k fun s => { s with reason := 6 }, {}) := by
  subst ht hk
  unfold retireAct
  simp only [hstate, hspare]

end

/-- A row of Retire rank whose fields are in range, by its outcome. -/
theorem Runs.of_retireRank {s : State} {b : Fin 4} {uid dt ext : Nat} {p : List Byte} {P : Dev → Prop}
    (hadm : (s.dev.elapse dt).admits 0xC4A2 (caller b uid) p = true) (ht : fieldAt p 0 1 ≤ 7) (hk : fieldAt p 1 1 ≤ 15)
    (hact : ∀ j, ∃ d1, retireAct ((s.dev.elapse dt).onJcs fun _ => j) (caller b uid) p = (d1, { ext := ext }) ∧
      ∀ e, ChangesOnly answerParts d1 e → Answered (s.dev.elapse dt) e b.val 0xC4A2 (retOf ext) ext false [] → P e) :
    Runs (.retireRank b uid p dt) s [.dram, .flint, .qtz, .lat, .heads, .jcs, .slate, .mirror, .dw, .out] P :=
  .of_jcs execRetireRank_foot (by decide) rfl rfl hadm (entryCheck_of_le ht hk) (fun _ => retireAct_foot.out_eq (by decide)) fun j =>
    let ⟨d1, hd1, hP⟩ := hact j
    ⟨d1, ext, [], hd1, hP⟩

theorem steerNext_of_foot {S : List Part} {d e : Dev} (h : ChangesOnly S d e) (t k : Nat) (hS : Part.dram ∉ S := by decide) :
    e.steerNext t k = d.steerNext t k := steerNext_congr (steering_of_dram (h.same .dram hS).symm) t k

end Sys2Proof.Machine
end

section
set_option Elab.async false
/-! LEMMAS. What a seal's start sends and what it leaves of the update records, and the update slot given up (chapters 03, 15). -/

namespace Sys2Proof.Machine

/-- The work that a seal's start ends: last of all a chunk in flight and the confirmation window, which alone touch the update part. -/
theorem sealWork_eq (d : Dev) : ∃ left, ChangesOnly [.dram, .energy, .flint, .lat, .dw] d left ∧ d.sealWork = (left.chunkAbort 8).pauseWindow := by
  unfold Dev.sealWork
  extract_lets settle chans rested stop left
  refine ⟨left, ?_, rfl⟩
  have hchans : ChangesOnly [.dram, .dw] d chans := .foldl (fun _ _ h => .step Dev.tileChans_foot (by decide) h) (.refl _ _)
  have hrested : ChangesOnly [.energy, .flint, .dw] chans rested :=
    .step Dev.interruptTests_foot (by decide) (.step Dev.abandonRest_foot (by decide) (Dev.onEnergy_foot.mono (by decide)))
  exact .step Dev.onLat_foot (by decide) (.step hrested (by decide) (hchans.mono (by decide)))

/-! ### Nothing that went out is lost while requests are served and ingress freezes (R84, R92) -/

namespace Grown
variable {d e f : Dev}

theorem refl (d : Dev) : Grown d d := .of_out rfl

theorem foot {S : List Part} (h : Grown d e) (k : ChangesOnly S e f) (hS : Part.out ∉ S := by decide) : Grown d f := h.trans (.of_foot k hS)

theorem sends {o : Out} (h : Grown d e) : Grown d (e.emit o) := h.trans (.emit e o)

theorem ite {c : Prop} {_ : Decidable c} (h : Grown d e) (k : Grown d f) : Grown d (if c then e else f) := by split <;> assumption

theorem foldl {α : Type} {g : Dev → α → Dev} {l : List α} (h : Grown d e) (hg : ∀ e, ∀ a ∈ l, Grown d e → Grown d (g e a)) :
    Grown d (l.foldl g e) := by
  induction l generalizing e with
  | nil => exact h
  | cons a l ih => exact ih (hg _ _ List.mem_cons_self h) fun e b hb => hg e b (List.mem_cons_of_mem _ hb)

theorem signal {c k : Nat} (h : Grown d e) : Grown d (e.signal c k) := by
  unfold Dev.signal Dev.fireRing Dev.fire
  extract_lets r counted fired x
  have hcounted : Grown d counted := h.foot Dev.onRing_foot
  have hrung (g : Ring → Ring) : Grown d (counted.onRing c k g) := hcounted.foot Dev.onRing_foot
  exact .ite h (.ite (.ite ((hrung _).foot Dev.onHead_foot) (hrung _).sends) hcounted)

theorem posted {r : HeldReq} (h : Grown d e) : Grown d (e.posted r) := by
  unfold Dev.posted
  exact .ite h.sends.signal h.sends

theorem ackPage {session mseq line : Nat} (h : Grown d e) : Grown d (e.ackPage session mseq line) := by
  unfold Dev.ackPage
  split
  · exact h.trans (sendMsg_grown ..)
  · exact h

theorem pacedDone {p : Paced} (h : Grown d e) : Grown d (e.pacedDone p) := by
  unfold Dev.pacedDone
  exact .ite h.ackPage h.sends

theorem refuseQuiet {r : HeldReq} (h : Grown d e) : Grown d (e.refuseQuiet r) := by
  unfold Dev.refuseQuiet
  exact .ite h (.ite h.sends h.sends)

theorem replicaDone {r : HeldReq} (h : Grown d e) : Grown d (e.replicaDone r) := by
  unfold Dev.replicaDone
  exact .ite h.ackPage (h.foot Dev.onExpo_foot)

theorem finishWrite {r : HeldReq} {clean : Bool} (h : Grown d e) : Grown d (e.finishWrite r clean) := by
  unfold Dev.finishWrite
  exact .ite h.sends (h.foot Dev.onExpo_foot)

theorem perform {r : HeldReq} (h : Grown d e) : Grown d (e.perform r) := by
  unfold Dev.perform
  extract_lets p hostWrite touched clean other written
  have htouched : Grown d touched := h.foot Dev.chanTouch_foot
  have hother : Grown d other := .ite htouched (htouched.foot Dev.otherWrite_foot)
  have hpoisoned : Grown d ((other.storePoison r.line).poisonEntry (r.line * 64) 64 3) := (hother.foot Dev.storePoison_foot).foot Dev.poisonEntry_foot
  have hwritten : Grown d written :=
    .ite ((hpoisoned.foot Dev.dirtyPage_foot).foot Dev.replicaMark_foot) (hother.foot Dev.doWrite_foot)
  have hmetered : Grown d (written.meterWrite r.line) := hwritten.foot Dev.meterWrite_foot
  refine .ite h.refuseQuiet (.ite ((h.foot Dev.startHeld_foot).foot Dev.onExpo_foot) (.ite (h.foot Dev.onExpo_foot) (.ite ?write ?read)))
  case write => exact .ite hwritten (.ite hwritten.posted (.ite hmetered (.ite (.ite hwritten.replicaDone hwritten) hmetered.finishWrite)))
  case read => exact .ite htouched.sends htouched.sends

theorem serve (h : Grown d e) : Grown d e.serve := by
  unfold Dev.serve
  exact (h.foot Dev.onExpo_foot).foldl fun _ _ _ hf => hf.perform

theorem freezeAccepted (h : Grown d e) : Grown d e.freezeAccepted := by
  unfold Dev.freezeAccepted
  extract_lets gone released due taken
  have htaken : Grown d taken := (h.foot (f := released) Dev.onExpo_foot).foot Dev.onExpo_foot
  exact (htaken.foldl fun _ _ _ hf => hf.pacedDone).serve

theorem chunkAbort {ext : Nat} (h : Grown d e) : Grown d (e.chunkAbort ext) := by
  unfold Dev.chunkAbort
  exact (ite (h.foot Dev.onHead_foot).sends h).foot Dev.onUpd_foot

theorem sealWork (h : Grown d e) : Grown d e.sealWork := by
  obtain ⟨left, hleft, heq⟩ := sealWork_eq e
  rw [heq]
  exact (h.foot hleft).chunkAbort.foot Dev.pauseWindow_foot

theorem sealBegin {cause : Nat} (h : Grown d e) : Grown d (e.sealBegin cause) := by
  unfold Dev.sealBegin Dev.sealFreeze
  extract_lets worked frozen
  have hworked : Grown d worked := (((h.foot Dev.sealStart_foot).foot Dev.abortBg_foot).foot Dev.onCtxs_foot).sealWork
  have hfrozen : Grown d frozen := hworked.foot Dev.onSealing_foot
  exact (hfrozen.freezeAccepted.foot Dev.sealUpd_foot).foldl fun _ _ _ hf => hf.foot Dev.bayUpd_foot

theorem updRelease (h : Grown d e) : Grown d e.updRelease := by
  unfold Dev.updRelease
  extract_lets aborted ended
  have hended : Grown d ended := (h.chunkAbort.foot Dev.onRecs_foot).foot Dev.endLease_foot
  exact .ite h ((hended.foot Dev.onUpd_foot).foot Dev.updEvent_foot)

end Grown

/-! ### The update records (R463) -/

theorem urec_congr {d e : Dev} (h : e.upd.recs = d.upd.recs) (t : Nat) : e.urec t = d.urec t := by rw [Dev.urec, h, Dev.urec]

theorem recs_of_foot {S : List Part} {d e : Dev} (h : ChangesOnly S d e) (hS : Part.upd ∉ S := by decide) : e.upd.recs = d.upd.recs :=
  congrArg Update.recs (h.same .upd hS).symm

/-- A change of the records reaches each tile's once, the lead's too. -/
theorem onRecs_urec (d : Dev) (f : UpdRec → UpdRec) {t : Nat} (ht : t < 8 ∨ t = d.pkg.lead) : (d.onRecs f).urec t = f (d.urec t) := by
  have hwrite (e : Dev) (u : Nat) : ((e.onUrec u f).recWrite u 0x67 6).urec t = (e.onUrec u f).urec t :=
    urec_congr (recs_of_foot Dev.recWrite_foot) t
  unfold Dev.onRecs
  refine foldl_changes_once (π := fun e : Dev => e.urec t) (g := f) (a := t) (fun e => ?_) (fun e u hu => ?_) ?_ ?_ d
  · exact (hwrite e t).trans (tget_tmod ..)
  · exact (hwrite e u).trans (tget_tmod_ne _ _ _ _ _ hu.symm)
  · rw [List.nodup_append]
    refine ⟨List.Nodup.filter _ (by decide), List.nodup_singleton _, fun a ha b hb => ?_⟩
    rw [List.mem_singleton.mp hb]
    simpa using (List.mem_filter.mp ha).2
  · by_cases hlead : t = d.pkg.lead
    · exact List.mem_append_right _ (List.mem_singleton.mpr hlead)
    · refine List.mem_append_left _ (List.mem_filter.mpr ⟨?_, by simpa using hlead⟩)
      have ht : t < 8 := ht.resolve_right hlead
      simp only [tiles8, List.mem_cons, List.not_mem_nil, or_false]
      omega

theorem chunkAbort_recs (d : Dev) (ext : Nat) : (d.chunkAbort ext).upd.recs = d.upd.recs := by
  unfold Dev.chunkAbort
  extract_lets x told
  have htold : told.upd.recs = d.upd.recs := by
    unfold told
    split <;> rfl
  exact htold

theorem pauseWindow_recs (d : Dev) : d.pauseWindow.upd.recs = d.upd.recs := by
  unfold Dev.pauseWindow
  rw [onUpd_upd]
  split <;> rfl

theorem sealFreeze_recs (d : Dev) : d.sealFreeze.upd.recs = d.upd.recs := by
  obtain ⟨left, hleft, heq⟩ := sealWork_eq d
  unfold Dev.sealFreeze
  rw [heq]
  extract_lets worked frozen
  have hshown : ChangesOnly [.mem, .expo, .restore, .ctxs, .dram, .energy, .flint, .lat, .heads, .dw, .out] frozen
      ([0, 1].foldl Dev.bayUpd frozen.freezeAccepted.sealUpd) :=
    .foldl (fun _ _ h => .step Dev.bayUpd_foot (by decide) h) (.step Dev.sealUpd_foot (by decide) (Dev.freezeAccepted_foot.mono (by decide)))
  calc _ = frozen.upd.recs := recs_of_foot hshown
    _ = (left.chunkAbort 8).pauseWindow.upd.recs := rfl
    _ = left.upd.recs := (pauseWindow_recs _).trans (chunkAbort_recs _ _)
    _ = d.upd.recs := recs_of_foot hleft

/-- A seal's start leaves the update records. -/
theorem sealBegin_recs (d : Dev) (cause : Nat) : (d.sealBegin cause).upd.recs = d.upd.recs := by
  have hstarted : ChangesOnly [.sealing, .ctxs, .energy, .panel, .dw, .heads, .jcs] d
      ((d.sealStart cause false).abortBg.onCtxs fun c => { c with rtPend := [] }) :=
    .step Dev.onCtxs_foot (by decide) (.step Dev.abortBg_foot (by decide) (Dev.sealStart_foot.mono (by decide)))
  exact (sealFreeze_recs _).trans (recs_of_foot hstarted)

/-! ### The update slot given up (R466) -/

/-- Given up by an owner, the slot has no owner and no lease, and no transfer runs. -/
theorem updRelease_effect {d : Dev} (howner : d.lrec.owner ≠ 255) :
    d.updRelease.lrec.owner = 255 ∧ d.updRelease.lease 0x4003 = {} ∧ d.updRelease.upd.xfer = {} := by
  unfold Dev.updRelease
  rw [if_neg howner]
  generalize d.chunkAbort 4 = aborted
  dsimp only
  generalize hrecs : (aborted.onRecs fun u => { u with owner := 255, ownerUid := 0 }) = owned
  have hended : ChangesOnly [.jcs, .mirror] owned (owned.endLease 0x4003) := Dev.endLease_foot
  generalize hreleased : ((owned.endLease 0x4003).onUpd fun u => { u with xfer := {} }) = released
  have htold : ChangesOnly [.flint] released (released.updEvent 834 0x14 0 [0]) := Dev.updEvent_foot
  have hlead : (released.updEvent 834 0x14 0 [0]).pkg.lead = aborted.pkg.lead := by
    rw [htold.pkg_eq (by decide), ← hreleased, onUpd_pkg, hended.pkg_eq (by decide), ← hrecs, Dev.onRecs_foot.pkg_eq (by decide)]
  refine ⟨?_, ?_, ?_⟩
  · rw [Dev.lrec, hlead, Dev.urec, ← htold.same .upd (by decide), ← hreleased]
    show (tget (owned.endLease 0x4003).upd.recs {} aborted.pkg.lead).owner = 255
    rw [← hended.same .upd (by decide), ← hrecs]
    exact congrArg UpdRec.owner (onRecs_urec aborted _ (.inr rfl))
  · rw [Dev.lease, ← htold.same .jcs (by decide), ← hreleased]
    exact endLease_lease owned 0x4003
  · rw [← htold.same .upd (by decide), ← hreleased]
    rfl

end Sys2Proof.Machine
end

section
set_option Elab.async false
/-! LEMMAS. The rank, Strata, lease and update commands (chapters 05, 07, 13, 15). -/

namespace Sys2Proof.Machine

/-! ### Set DRAM configuration and Release stratum (R162, R218) -/

/-- Every field that MASK selects has one of its values. -/
theorem dramCfgCheck_of_range {d : Dev} {c : Caller} {p : List Byte} {m : Nat} (hm : m = fieldAt p 0 1)
    (h0 : m.testBit 0 = true → 0 ≤ fieldAt p 1 1 ∧ fieldAt p 1 1 ≤ 3) (h1 : m.testBit 1 = true → 0 ≤ fieldAt p 2 1 ∧ fieldAt p 2 1 ≤ 4)
    (h2 : m.testBit 2 = true → 0 ≤ fieldAt p 3 1 ∧ fieldAt p 3 1 ≤ 2) (h3 : m.testBit 3 = true → 0 ≤ fieldAt p 4 1 ∧ fieldAt p 4 1 ≤ 2)
    (h4 : m.testBit 4 = true → 0 ≤ fieldAt p 5 1 ∧ fieldAt p 5 1 ≤ 1)
    (h5 : m.testBit 5 = true → fieldAt p 8 2 = 0 ∨ 50 ≤ fieldAt p 8 2 ∧ fieldAt p 8 2 ≤ 10000) : dramCfgCheck d c p = 0 := by
  subst hm
  have hidle : maskOk (fieldAt p 0 1) 5 (fieldAt p 8 2 == 0 || within 50 10000 (fieldAt p 8 2)) = true := by
    unfold maskOk
    by_cases hbit : (fieldAt p 0 1).testBit 5 = true
    · simpa only [hbit, Bool.not_true, Bool.false_or, Bool.or_eq_true, beq_iff_eq, within_iff] using h5 hbit
    · simp [hbit]
  refine orErr_of_ok ?_
  simp only [maskOk_of_range h0, maskOk_of_range h1, maskOk_of_range h2, maskOk_of_range h3, maskOk_of_range h4, hidle, Bool.and_self]

theorem any_valid_iff (d : Dev) : (d.ctxs.rt.any fun g => g.2.valid) = true ↔ ¬ ∀ g ∈ d.ctxs.rt, g.2.valid = false := by
  simp

/-- The stratum found for a context and a time has both. -/
theorem stratumAt_some {d : Dev} {c time : Nat} {x : Stratum} (h : d.stratumAt c time = some x) : x.context = c ∧ x.time = time := by
  have hmem : x ∈ d.strata.strata.filter fun s => s.context == c := List.mem_of_find?_eq_some h
  have htime : (x.time == time) = true := List.find?_some (p := fun x : Stratum => x.time == time) h
  exact ⟨beq_iff_eq.mp (List.mem_filter.mp hmem).2, beq_iff_eq.mp htime⟩

theorem stratumAt_isSome {d : Dev} {x : Stratum} (h : x ∈ d.strata.strata) : (d.stratumAt x.context x.time).isSome = true :=
  List.find?_isSome.mpr ⟨x, List.mem_filter.mpr ⟨h, beq_self_eq_true _⟩, beq_self_eq_true _⟩

/-- The release of a stratum takes it out of the list, and moves no record. -/
theorem releaseStratum_strata (d : Dev) (c time : Nat) : (d.releaseStratum c time).strata =
    { d.strata with strata := d.strata.strata.filter fun x => !(x.context == c && x.time == time) } := by
  unfold Dev.releaseStratum
  rw [Dev.ctxSave_foot.strata_eq (by decide), onStrata_strata, Dev.ledgerAll_foot.strata_eq (by decide)]

theorem strataRelAct_of_some {d : Dev} {c : Caller} {p : List Byte} {x : Stratum} (h : x ∈ d.strata.strata) (hc : x.context = fieldAt p 0 2)
    (ht : x.time = fieldAt p 8 8) : strataRelAct d c p = (d.releaseStratum (fieldAt p 0 2) (fieldAt p 8 8), {}) := by
  obtain ⟨y, hy⟩ := Option.isSome_iff_exists.mp (stratumAt_isSome h)
  rw [hc, ht] at hy
  obtain ⟨hyc, hyt⟩ := stratumAt_some hy
  unfold strataRelAct
  rw [show d.stratumAt (ctxOf p) (fieldAt p 8 8) = some y from hy]
  dsimp only
  rw [hyc, hyt]

theorem strataRelAct_of_none {d : Dev} {c : Caller} {p : List Byte} (h : d.stratumAt (fieldAt p 0 2) (fieldAt p 8 8) = none) :
    strataRelAct d c p = (d, .err 0x10) := by
  unfold strataRelAct
  rw [show d.stratumAt (ctxOf p) (fieldAt p 8 8) = none from h]

/-! ### The lease commands (R404, R406) -/

theorem acquireCheck_eq {d : Dev} {c : Caller} {p : List Byte} (hr : fieldAt p 0 2 ≤ 0x4005) (hupd : fieldAt p 0 2 ≠ 0x4003)
    (ht : fieldAt p 2 2 = 0 ∨ 10 ≤ fieldAt p 2 2 ∧ fieldAt p 2 2 ≤ 3600) : acquireCheck d c p = orErr (d.mayHold c.p (fieldAt p 0 2)) 5 := by
  refine if_neg ?_
  rintro (h | h | h)
  · exact absurd h (Nat.not_lt.mpr hr)
  · exact hupd h
  · rw [← beq_iff_eq, ← within_iff, ← Bool.or_eq_true] at ht
    rw [ht] at h
    exact Bool.false_ne_true h

theorem acquireCheck_of_bad {d : Dev} {c : Caller} {p : List Byte} (h : 0x4005 < fieldAt p 0 2 ∨ fieldAt p 0 2 = 0x4003 ∨
    0 < fieldAt p 2 2 ∧ fieldAt p 2 2 < 10 ∨ 3600 < fieldAt p 2 2) : acquireCheck d c p = 2 := by
  refine if_pos (h.imp_right (Or.imp_right fun ht => ?_))
  have hout : ¬ (fieldAt p 2 2 = 0 ∨ 10 ≤ fieldAt p 2 2 ∧ fieldAt p 2 2 ≤ 3600) := by omega
  rw [← beq_iff_eq, ← within_iff, ← Bool.or_eq_true] at hout
  simpa using hout

/-- A refused Acquire leaves every lease. -/
theorem acquire_refused {s : State} {b : Fin 4} {uid dt ext : Nat} {p : List Byte} (hadm : (s.dev.elapse dt).admits 0xC4C0 (caller b uid) p = true)
    (hcheck : acquireCheck (s.dev.elapse dt) (caller b uid) p = ext) (hext : ext ≠ 0) :
    Runs (.acquire b uid p dt) s [.flint, .qtz, .lat, .heads, .jcs, .mirror, .out] fun e =>
      Answered (s.dev.elapse dt) e b.val 0xC4C0 (retOf ext) ext false [] ∧ e.jcs.leases = (s.dev.elapse dt).jcs.leases :=
  .of_dev execAcquire_foot (by decide) rfl rfl (jcsDo_of_refused hadm hcheck hext)
    ⟨answered_respond (.of_out rfl) b uid 0xC4C0 (retOf ext) ext false [] (.refl _ _), respond_leases ..⟩

theorem leaseCheck_of_le {d : Dev} {c : Caller} {p : List Byte} (h : fieldAt p 0 2 ≤ 0x4005) : leaseCheck d c p = 0 :=
  orErr_of_ok (within_iff.mpr ⟨Nat.zero_le _, h⟩)

theorem heldBy_of_free {l : Lease_} {b : Fin 4} {uid : Nat} (h : l.holder = 255) : l.heldBy (caller b uid) = false := by
  have hb : (255 : Nat) ≠ b.val := by omega
  simp [Lease_.heldBy, h, hb]

theorem giveUp_grown (d : Dev) {r : Nat} (hr : r ≠ 0x4003) : Grown d (d.giveUp r) := by
  rw [giveUp_of_ne hr]
  exact .of_foot Dev.endLease_foot

/-! ### Enter Bedrock (R473, R483) -/

/-- A command that the first three steps of R403 let through: its row allows the principal, and the state of the device serves it. -/
theorem admission_passes {d : Dev} {r : CmdRow} {c : Caller} {p : List Byte} (h : d.admission r c p = 0) :
    Nat.testBit r.by_ c.p = true ∧ ¬ (d.pkg.bedrock = true ∧ r.op ≠ 0xC400 ∧ r.op ≠ 0xC401 ∧ r.op ≠ 0xC4E0) ∧
    ¬ ((!d.restore.ready) = true ∧ (!d.pkg.bedrock) = true ∧ (!r.early) = true) ∧
    ¬ ((d.sealing.active = true ∨ d.pkg.safe ≠ 0) ∧ (!r.inSeal) = true) := by
  unfold Dev.admission at h
  split at h
  · cases h
  rename_i hby
  split at h
  · cases h
  rename_i hbed
  split at h
  · cases h
  rename_i hready
  split at h
  · cases h
  rename_i hseal
  exact ⟨by simpa using hby, hbed, hready, hseal⟩

theorem Admitted.coreUp {d : Dev} {op : Nat} {c : Caller} {p : List Byte} {r : CmdRow} (h : Admitted d op c p r) : d.panel.coreUp = true := by
  have hserves := h.serves
  unfold Dev.answers at hserves
  by_contra hdown
  simp [hdown] at hserves

/-- SB alone may send Enter Bedrock, and where it is let through a trigger begins a seal. -/
theorem enterBedrock_admitted {d : Dev} {c : Caller} {p : List Byte} (hadm : d.admits 0xC4E3 c p = true) :
    2 ≤ c.p ∧ d.panel.coreUp = true ∧ d.pkg.safe = 0 ∧ d.restore.ready = true ∧ d.pkg.bedrock = false ∧ d.sealing.active = false := by
  obtain ⟨row, hadmitted⟩ := admitted_of_admits hadm
  have hrow : some row = some { op := 0xC4E3, by_ := 4, lease := .update, held := true, chg := true } := hadmitted.row.symm.trans (by decide)
  obtain rfl := Option.some.inj hrow
  obtain ⟨hby, hbed, hready, hseal⟩ := admission_passes hadmitted.admission
  have hbed : d.pkg.bedrock = false := by simpa using hbed
  refine ⟨?_, hadmitted.coreUp, ?_, ?_, hbed, ?_⟩
  · by_contra hhead
    obtain h | h : c.p = 0 ∨ c.p = 1 := by omega
    · rw [h] at hby
      exact absurd hby (by decide)
    · rw [h] at hby
      exact absurd hby (by decide)
  · by_contra hsafe
    exact hseal ⟨.inr hsafe, rfl⟩
  · simpa [hbed] using hready
  · by_contra hact
    exact hseal ⟨.inl (by simpa using hact), rfl⟩

/-- An answer to a caller without a mailbox stands, whatever is sent after it. -/
theorem answered_before_later {d d1 e : Dev} {b : Fin 4} {uid op ret ext : Nat} {bg : Bool} {out : List Byte} (hgrown : Grown d d1)
    (hlater : Grown (d1.respond (caller b uid) op ret ext bg out) e) (hb : 2 ≤ b.val) : Answered d e b.val op ret ext bg out := by
  obtain ⟨⟨sent, hsent⟩, -, -⟩ := respond_effect d1 (caller b uid) op ret ext bg out
  obtain ⟨before, hbefore⟩ := hgrown
  obtain ⟨later, hlater⟩ := hlater
  refine ⟨?_, fun h => absurd h (Nat.not_lt.mpr hb)⟩
  have hout : e.out = (later ++ sent ++ Out.resp b.val op 0 ret ext bg out :: before) ++ d.out := by
    rw [hlater, hsent, hbefore]
    simp only [List.append_assoc, List.cons_append]
  rw [hout, List.length_append, Nat.add_sub_cancel, List.take_left]
  exact List.mem_append_right _ List.mem_cons_self

/-- Enter Bedrock, once admitted: the records, the answer, and the seal of cause 3h; the bookkeeping of the command follows. -/
theorem enterBedrock_seals {d : Dev} {b : Fin 4} {uid : Nat} {p : List Byte} (hadm : d.admits 0xC4E3 (caller b uid) p = true) :
    ∃ d1, ChangesOnly [.jcs] d d1 ∧ ChangesOnly [.jcs, .mirror]
      (((d1.onRecs fun u => { u with bedrockReq := true }).respond (caller b uid) 0xC4E3 0 0 false []).sealBegin 3)
      (d.jcsDo 0xC4E3 noCheck bedrockAct (caller b uid) p) := by
  obtain ⟨-, hup, hsafe, hready, hbed, hact⟩ := enterBedrock_admitted hadm
  obtain ⟨j, chg, hjcs⟩ := jcsDo_of_admits (act := bedrockAct) (check := noCheck) hadm rfl
  refine ⟨d.onJcs fun _ => j, Dev.onJcs_foot, ?_⟩
  rw [hjcs]
  generalize hanswered : (((d.onJcs fun _ => j).onRecs fun u => { u with bedrockReq := true }).respond (caller b uid) 0xC4E3 0 0 false []) = answered
  have hfoot : ChangesOnly [.jcs, .qtz, .slate, .upd, .freeN, .flint, .lat, .heads, .out] d answered :=
    hanswered ▸ .step Dev.respond_foot (by decide) (.step Dev.onRecs_foot (by decide) (Dev.onJcs_foot.mono (by decide)))
  have htrigger : answered.trigger 3 = answered.sealBegin 3 := trigger_opened (by rw [hfoot.panel_eq (by decide)]; exact hup)
    (by rw [hfoot.pkg_eq (by decide)]; exact hsafe) (by rw [hfoot.restore_eq (by decide)]; exact hready)
    (by rw [hfoot.pkg_eq (by decide)]; exact hbed) (by rw [hfoot.sealing_eq (by decide)]; exact hact)
  have hactEq : bedrockAct (d.onJcs fun _ => j) (caller b uid) p = (answered.sealBegin 3, { later := true }) := by
    rw [← htrigger, ← hanswered]
    rfl
  rw [hactEq]
  dsimp only
  rw [if_pos rfl]
  exact .step (mirror_foot _ chg) (by decide) (.ite (Dev.onJcs_foot.mono (by decide)) (.refl _ _))

/-- What Enter Bedrock leaves: its answer, BEDROCK_REQ in every record, and a real seal of cause 3h with ingress frozen. -/
theorem enterBedrock_effect {d e : Dev} {b : Fin 4} {uid : Nat} {p : List Byte} (hadm : d.admits 0xC4E3 (caller b uid) p = true)
    (he : d.jcsDo 0xC4E3 noCheck bedrockAct (caller b uid) p = e) :
    Answered d e b.val 0xC4E3 0 0 false [] ∧ (∀ t : Nat, t < 8 → (e.urec t).bedrockReq = true) ∧
    e.sealing.active = true ∧ e.sealing.test = false ∧ e.sealing.cause = 3 ∧ e.sealing.frozen = true := by
  obtain ⟨hb, -⟩ := enterBedrock_admitted hadm
  obtain ⟨d1, hd1, hdone⟩ := enterBedrock_seals hadm
  rw [he] at hdone
  generalize hrecs : d1.onRecs (fun u => { u with bedrockReq := true }) = asked at hdone
  obtain ⟨hactive, hfrozen, htest, -, hcause, -⟩ := sealBegin_fields (asked.respond (caller b uid) 0xC4E3 0 0 false []) 3
  have hasked : Grown d asked := hrecs ▸ (Grown.of_foot hd1).foot Dev.onRecs_foot
  refine ⟨answered_before_later hasked ((Grown.refl _).sealBegin.foot hdone) hb, fun t ht => ?_, ?_⟩
  · have hkept : e.upd.recs = asked.upd.recs := (recs_of_foot hdone).trans ((sealBegin_recs _ 3).trans (recs_of_foot Dev.respond_foot))
    rw [urec_congr hkept, ← hrecs, onRecs_urec d1 _ (.inl ht)]
  · rw [hdone.sealing_eq (by decide)]
    exact ⟨hactive, htest, hcause, hfrozen⟩

/-- Settles O53: each row by the checks that it passes, the command's effect, and the answer that follows. -/
theorem rankStrataLeaseAndUpdateCommands : Obligations.RankStrataLeaseAndUpdateCommands := by
  refine ⟨?_, ?_, ?_, ?_, ?_, ?_, ?_, ?_, ?_, ?_, ?_, ?_, ?_, ?_, ?_, ?_, ?_, ?_, ?_, ?_, ?_, ?_, ?_, ?_⟩
  -- Retire rank (C4A2h): to a spare, without one, and refused
  · rintro s _ b uid p t k sp dt rfl hadm ht hk hle hke hstate hspare
    refine .of_retireRank (ext := 0) hadm (ht ▸ hle) (hk ▸ hke) fun j => ?_
    obtain ⟨marked, hact, hsteering⟩ := retireAct_migrates (d := (s.dev.elapse dt).onJcs fun _ => j) (c := caller b uid) ht hk hstate hspare
    refine ⟨_, hact, fun e he hans => ⟨hans, ?_⟩⟩
    have hne : sp ≠ k := by
      rintro rfl
      have hfree := freeSpare_state hspare
      omega
    obtain ⟨hrank, hsp⟩ := migrateTo_steering marked t 6 hne
    have hmem : (marked.migrateTo t k sp 6).mem = (s.dev.elapse dt).mem :=
      (congrArg (fun x : Dev × Rsp => x.1.mem) hact).symm.trans (retireAct_foot.mem_eq (by decide))
    rw [steerNext_of_foot he, steerNext_of_foot he, hrank, hsp, ← he.same .dram (by decide), migrateTo_steer, he.mem_eq (by decide), hmem]
    exact ⟨rfl, rfl, rfl, rfl, rfl, rfl, rfl, rfl, congrArg Prod.fst hsteering, rfl⟩
  · rintro s _ b uid p t k dt rfl hadm ht hk hle hke hstate hspare
    refine .of_retireRank (ext := 0) hadm (ht ▸ hle) (hk ▸ hke) fun j => ?_
    obtain ⟨d1, hact, hdegraded⟩ := retireAct_degrades (d := (s.dev.elapse dt).onJcs fun _ => j) (c := caller b uid) ht hk hstate hspare
    refine ⟨d1, hact, fun e he hans => ⟨hans, ?_⟩⟩
    rw [steerNext_of_foot he, Dev.rank, ← he.same .dram (by decide)]
    exact hdegraded
  · rintro s _ b uid p t k dt rfl hadm ht hk hle hke hstate hspare
    refine .of_retireRank hadm (ht ▸ hle) (hk ▸ hke) fun j => ⟨_, retireAct_stays ht hk hstate hspare, fun e he hans => ⟨hans, ?_⟩⟩
    rw [steerNext_of_foot he, steerNext_steerNow]
    exact ⟨hstate, rfl⟩
  · rintro s _ b uid p t k dt rfl hadm ht hk hle hke h0 h4
    exact .of_retireRank hadm (ht ▸ hle) (hk ▸ hke) fun j =>
      ⟨_, retireAct_of_other ht hk h0 h4, fun e he hans => ⟨hans, (he.same .dram (by decide)).symm⟩⟩
  -- Return rank (C4A3h): begun, and refused
  · rintro s _ b uid p _ _ dt rfl hadm rfl rfl hle hke hstate htest
    refine .of_jcs execReturnRank_foot (by decide) rfl rfl hadm (entryCheck_of_le hle hke) (fun d => returnAct_foot.out_eq (by decide))
      fun j => ⟨_, _, _, if_pos ⟨hstate, htest⟩, fun e he hans => ⟨hans, ?_⟩⟩
    unfold Dev.returnBegin at he
    rw [steerNext_of_foot he, steerNext_steerPut, ← he.same .dram (by decide)]
    exact ⟨rfl, rfl, rfl, rfl⟩
  · rintro s _ b uid p _ _ dt rfl hadm rfl rfl hle hke hnot
    have hno : ¬ (((s.dev.elapse dt).steerNext (fieldAt p 0 1) (fieldAt p 1 1)).state = 2 ∧
        ((s.dev.elapse dt).steerNext (fieldAt p 0 1) (fieldAt p 1 1)).testPass = true) := by
      rintro ⟨hstate, htest⟩
      exact hnot.elim (fun h => h hstate) fun h => Bool.false_ne_true (h.symm.trans htest)
    exact .of_jcs execReturnRank_foot (by decide) rfl rfl hadm (entryCheck_of_le hle hke) (fun d => returnAct_foot.out_eq (by decide))
      fun j => ⟨_, _, _, if_neg hno, fun e he hans => ⟨hans, (he.same .dram (by decide)).symm⟩⟩
  -- Set DRAM configuration (C4A4h): kept, and refused while a granule is VALID
  · rintro s _ b uid p _ dt rfl hadm rfl h0 h1 h2 h3 h4 h5 hfree
    have hgo : ¬ (fieldAt p 0 1 % 16 ≠ 0 ∧ ((s.dev.elapse dt).ctxs.rt.any fun g => g.2.valid) = true) := by
      rintro ⟨hmask, hvalid⟩
      exact hfree.elim hmask ((any_valid_iff (s.dev.elapse dt)).mp hvalid)
    refine .of_jcs execSetDramConfiguration_foot (by decide) rfl rfl hadm (dramCfgCheck_of_range rfl h0 h1 h2 h3 h4 h5)
      (fun d => dramCfgAct_foot.out_eq (by decide)) fun j => ⟨_, _, _, if_neg hgo, fun e he hans => ⟨hans, ?_⟩⟩
    rw [← he.same .dram (by decide), sl_of_foot he, sl_of_foot he, sl_of_foot Dev.dramCfgUpd_foot, sl_of_foot Dev.dramCfgUpd_foot]
    exact ⟨rfl, rfl, recDue_pend _ _⟩
  · rintro s _ b uid p _ g dt rfl hadm rfl h0 h1 h2 h3 h4 h5 hmask hg hvalid
    have hstop : fieldAt p 0 1 % 16 ≠ 0 ∧ ((s.dev.elapse dt).ctxs.rt.any fun g => g.2.valid) = true :=
      ⟨hmask, List.any_eq_true.mpr ⟨g, hg, hvalid⟩⟩
    exact .of_jcs execSetDramConfiguration_foot (by decide) rfl rfl hadm (dramCfgCheck_of_range rfl h0 h1 h2 h3 h4 h5)
      (fun d => dramCfgAct_foot.out_eq (by decide)) fun j => ⟨_, _, _, if_pos hstop,
        fun e he hans => ⟨hans, (he.same .dram (by decide)).symm, (he.same .slate (by decide)).symm⟩⟩
  -- Set life target (C4B1h): written, and refused
  · rintro s _ b uid p _ dt rfl hadm rfl hlo hhi hend
    have hcheck : lifeCheck (s.dev.elapse dt) (caller b uid) p = 0 :=
      orErr_of_ok (Bool.and_eq_true_iff.mpr ⟨within_iff.mpr ⟨hlo, hhi⟩, decide_eq_true hend⟩)
    refine .of_jcs execSetLifeTarget_foot (by decide) rfl rfl hadm hcheck (fun d => lifeAct_foot.out_eq (by decide))
      fun j => ⟨_, _, _, rfl, fun e he hans => ⟨hans, ?_⟩⟩
    rw [he.strata_eq (by decide)]
    exact ⟨rfl, due_of_recDue he⟩
  · rintro s _ b uid p _ dt rfl hadm rfl hbad
    have hcheck : lifeCheck (s.dev.elapse dt) (caller b uid) p = 2 := by
      refine orErr_of_not ?_
      simp only [within, Bool.and_eq_false_iff, decide_eq_false_iff_not]
      omega
    exact .of_jcs_refused execSetLifeTarget_foot (by decide) rfl rfl hadm hcheck (by decide) fun e he hans =>
      ⟨hans, he.strata_eq (by decide), (he.same .slate (by decide)).symm⟩
  -- Release stratum (C4B3h): released, and not found
  · rintro s _ b uid p _ x dt rfl hadm rfl hx hc ht
    refine .of_jcs execReleaseStratum_foot (by decide) rfl rfl hadm rfl (fun d => strataRelAct_foot.out_eq (by decide))
      fun j => ⟨_, _, _, strataRelAct_of_some hx hc ht, fun e he hans => ⟨hans, ?_⟩⟩
    rw [he.strata_eq (by decide), releaseStratum_strata]
    exact ⟨rfl, rfl⟩
  · rintro s _ b uid p dt rfl hadm hnone
    exact .of_jcs execReleaseStratum_foot (by decide) rfl rfl hadm rfl (fun d => strataRelAct_foot.out_eq (by decide))
      fun j => ⟨_, _, _, strataRelAct_of_none hnone, fun e he hans => ⟨hans, he.strata_eq (by decide)⟩⟩
  -- Acquire (C4C0h): a free lease, the caller's own, then refused for the principal and for a field
  · rintro s _ b uid p _ _ _ dt rfl hadm rfl rfl hr hupd ht hmay hfree rfl
    have hcheck := (acquireCheck_eq (c := caller b uid) hr hupd ht).trans (orErr_of_ok hmay)
    refine .of_jcs_naming execAcquire_foot (by decide) rfl rfl hadm hcheck rfl fun j hj =>
      ⟨_, _, _, rfl, .of_out rfl, fun e he hleases hans => ⟨hans, ?_, fun k _ hk => ?_⟩⟩
    · have hother := (heldBy_of_used hj).trans (heldBy_of_free hfree)
      have huid : (if b.val = 3 then uid else 0) = if b = 3 then uid else 0 := if_congr (Fin.ext_iff (a := b) (b := 3)).symm rfl rfl
      rw [lease_of_tset hleases, if_neg (Bool.eq_false_iff.mp hother), ← huid]
      rfl
    · exact (lease_of_tset_ne (d := (s.dev.elapse dt).onJcs fun _ => j) hleases hk).trans (lease_of_used_ne hj hk)
  · rintro s _ b uid p _ _ _ dt rfl hadm rfl rfl hr hupd ht hmay hheld rfl
    have hcheck := (acquireCheck_eq (c := caller b uid) hr hupd ht).trans (orErr_of_ok hmay)
    refine .of_jcs_naming execAcquire_foot (by decide) rfl rfl hadm hcheck rfl fun j hj =>
      ⟨_, _, _, rfl, .of_out rfl, fun e he hleases hans => ⟨hans, ?_⟩⟩
    obtain ⟨last, hlease⟩ := lease_of_used hj
    rw [lease_of_tset hleases, if_pos ((heldBy_of_used hj).trans hheld), hlease]
    exact ⟨rfl, rfl, rfl, rfl⟩
  · rintro s _ b uid p _ _ dt rfl hadm rfl rfl hr hupd ht hmay
    exact acquire_refused hadm ((acquireCheck_eq (c := caller b uid) hr hupd ht).trans (orErr_of_not hmay)) (by decide)
  · rintro s _ b uid p _ _ dt rfl hadm rfl rfl hbad
    exact acquire_refused hadm (acquireCheck_of_bad hbad) (by decide)
  -- Release (C4C1h): by the holder, and refused
  · rintro s _ b uid p _ dt rfl hadm rfl hr hupd hheld
    exact .of_jcs_naming execLeaseRelease_foot (by decide) rfl rfl hadm (leaseCheck_of_le hr) rfl fun j hj =>
      ⟨_, _, _, if_pos ((heldBy_of_used hj).trans hheld), (Grown.of_foot Dev.onJcs_foot).trans (giveUp_grown _ hupd),
        fun e he hleases hans => ⟨hans, giveUp_leases hj hupd hleases⟩⟩
  · rintro s _ b uid p _ dt rfl hadm rfl hr hother
    exact .of_jcs_naming execLeaseRelease_foot (by decide) rfl rfl hadm (leaseCheck_of_le hr) rfl fun j hj =>
      ⟨_, _, _, if_neg (Bool.eq_false_iff.mp ((heldBy_of_used hj).trans hother)), .of_foot Dev.onJcs_foot,
        fun e he hleases hans => ⟨hans, hleases.trans (hj.trans (usedLeases_of_not_held hother))⟩⟩
  -- Break (C4C3h): of a lease, and of the update slot
  · rintro s _ b uid p _ dt rfl hadm rfl hr hupd
    exact .of_jcs_naming execBreak_foot (by decide) rfl rfl hadm (leaseCheck_of_le hr) rfl fun j hj =>
      ⟨_, _, _, rfl, (Grown.of_foot Dev.onJcs_foot).trans (giveUp_grown _ hupd), fun e he hleases hans =>
        ⟨holder_of_used hj ▸ hans, giveUp_leases hj hupd hleases⟩⟩
  · rintro s _ b uid p dt rfl hadm hr htry howner
    refine .of_jcs_naming execBreak_foot (by decide) rfl rfl hadm (leaseCheck_of_le (hr.trans_le (by decide))) rfl fun j hj => ?_
    have hgiven : ((s.dev.elapse dt).onJcs fun _ => j).giveUp (fieldAt p 0 2) = ((s.dev.elapse dt).onJcs fun _ => j).updRelease := by
      rw [hr]
      exact giveUp_update htry
    obtain ⟨hfree, hlease, hxfer⟩ := updRelease_effect (d := (s.dev.elapse dt).onJcs fun _ => j) howner
    refine ⟨_, _, _, congrArg (·, _) hgiven, (Grown.of_foot Dev.onJcs_foot).updRelease, fun e he hleases hans => ⟨?_, ?_, ?_, ?_⟩⟩
    · rwa [holder_of_used hj, hr] at hans
    · rw [lease_congr hleases, hlease]
    · rw [Dev.lrec, he.pkg_eq (by decide), urec_congr (recs_of_foot he)]
      exact hfree
    · rw [← he.same .upd (by decide), hxfer]
  -- Set update policy (C4E1h)
  · rintro s _ b uid p dt rfl hadm hmode
    refine .of_jcs execSetUpdatePolicy_foot (by decide) rfl rfl hadm (orErr_of_ok (within_iff.mpr ⟨Nat.zero_le _, hmode⟩))
      (fun d => updPolAct_foot.out_eq (by decide)) fun j => ⟨_, _, _, rfl, fun e he hans => ⟨hans, ?_⟩⟩
    rw [← he.same .upd (by decide)]
    exact ⟨rfl, due_of_recDue he⟩
  -- Confirm (C4E2h): of a pending try, and refused
  · rintro s _ b uid p dt rfl hadm htry
    have hgo : ¬ (s.dev.elapse dt).lrec.trySlot.isNone = true := mt Option.isNone_iff_eq_none.mp htry
    exact .of_jcs execConfirm_foot (by decide) rfl rfl hadm rfl (fun d => confirmAct_foot.out_eq (by decide))
      fun j => ⟨_, _, _, if_neg hgo, fun e he hans => ⟨hans, (he.same .upd (by decide)).symm⟩⟩
  · rintro s _ b uid p dt rfl hadm htry
    exact .of_jcs execConfirm_foot (by decide) rfl rfl hadm rfl (fun d => confirmAct_foot.out_eq (by decide))
      fun j => ⟨_, _, _, if_pos (Option.isNone_iff_eq_none.mpr htry), fun e he hans => ⟨hans, (he.same .upd (by decide)).symm⟩⟩
  -- Enter Bedrock (C4E3h)
  · rintro s _ b uid p dt rfl hadm
    exact .of_dev execEnterBedrock_foot (by decide) rfl rfl rfl (enterBedrock_effect hadm rfl)

end Sys2Proof.Machine
end

section
set_option Elab.async false
/-! LEMMAS. What the mirror leaves, and the commands that answer at once (chapters 01 and 13). -/

namespace Sys2Proof.Machine

/-! ### The mirror leaves everything but itself (R18) -/

theorem mirrorNow_jcs (d : Dev) : d.mirrorNow.jcs = d.jcs := (Dev.mirrorNow_foot.same .jcs (by decide)).symm
theorem mirrorNow_out (d : Dev) : d.mirrorNow.out = d.out := Dev.mirrorNow_foot.out_eq (by decide)
theorem mirrorNow_head (d : Dev) (h : Nat) : d.mirrorNow.head h = d.head h := by
  rw [Dev.head, Dev.mirrorNow_foot.heads_eq (by decide), Dev.head]

/-! ### Changing commands and reads (R402) -/

theorem cmdRow_mem {op : Nat} {r : CmdRow} (h : cmdRow op = some r) : r ∈ rows1 ++ rows2 ++ rows3 ++ rows4 ∧ r.op = op :=
  ⟨List.mem_of_find?_eq_some h, by simpa using List.find?_some h⟩

/-- Every command of the tables lies in the range of the JCS opcodes (R399). -/
theorem opcode_of_changing {op : Nat} (h : isChanging op = true) : 0xC400 ≤ op ∧ op ≤ 0xC4FF := by
  have hrange : ∀ r ∈ rows1 ++ rows2 ++ rows3 ++ rows4, 0xC400 ≤ r.op ∧ r.op ≤ 0xC4FF := by decide
  unfold isChanging at h
  split at h
  · rename_i r hrow
    obtain ⟨hmem, rfl⟩ := cmdRow_mem hrow
    exact hrange r hmem
  · cases h

/-- A command's effect that answers with its completion, at the latest by starting a background command. -/
def AnswersAtOnce (act : Dev → Caller → List Byte → Dev × Rsp) : Prop := ∀ d c p, (act d c p).2.later = false

theorem readSnapAct_answers : AnswersAtOnce readSnapAct := fun d c p => by
  unfold readSnapAct
  extract_lets b
  split <;> rfl

theorem ckptResAct_answers : AnswersAtOnce ckptResAct := fun d c p => by
  unfold ckptResAct
  split <;> rfl

theorem damageAct_answers : AnswersAtOnce damageAct := fun d c p => by
  unfold damageAct
  split <;> rfl

/-- The opcodes of the rows that are not changing. -/
def readOps : List Nat := [
  0xC400, 0xC401, 0xC402, 0xC403, 0xC418, 0xC41A, 0xC41B, 0xC423, 0xC430, 0xC432, 0xC433, 0xC440, 0xC449, 0xC450, 0xC453, 0xC460, 0xC461,
  0xC465, 0xC473, 0xC480, 0xC490, 0xC495, 0xC499, 0xC4A0, 0xC4A1, 0xC4B0, 0xC4B2, 0xC4B4, 0xC4C2, 0xC4D0, 0xC4D1, 0xC4D2, 0xC4E0]

theorem mem_readOps {r : CmdRow} (h : r ∈ rows1 ++ rows2 ++ rows3 ++ rows4) (hread : r.chg = false) : r.op ∈ readOps := by
  revert r
  decide

theorem readOps_answer : ∀ op ∈ readOps, AnswersAtOnce (jcsRow op).2 := by
  simp only [readOps, List.forall_mem_cons, List.not_mem_nil, false_imp_iff, implies_true, and_true]
  exact ⟨fun _ _ _ => rfl, fun _ _ _ => rfl, fun _ _ _ => rfl, fun _ _ _ => rfl, fun _ _ _ => rfl, fun _ _ _ => rfl, fun _ _ _ => rfl,
    fun _ _ _ => rfl, fun _ _ _ => rfl, fun _ _ _ => rfl, fun _ _ _ => rfl, fun _ _ _ => rfl, fun _ _ _ => rfl, fun _ _ _ => rfl,
    fun _ _ _ => rfl, fun _ _ _ => rfl, fun _ _ _ => rfl, fun _ _ _ => rfl, readSnapAct_answers, fun _ _ _ => rfl, fun _ _ _ => rfl,
    fun _ _ _ => rfl, ckptResAct_answers, fun _ _ _ => rfl, fun _ _ _ => rfl, fun _ _ _ => rfl, fun _ _ _ => rfl, damageAct_answers,
    fun _ _ _ => rfl, fun _ _ _ => rfl, fun _ _ _ => rfl, fun _ _ _ => rfl, fun _ _ _ => rfl⟩

end Sys2Proof.Machine
end

section
set_option Elab.async false
/-! LEMMAS. Requests that reach the serialiser, and what is dispatched of its queue (chapter 13). -/

namespace Sys2Proof.Machine

/-- A read that is dispatched frees its head's mailbox: whatever it answers, it answers at once (R397, R402). -/
theorem jcsRun_read_frees {d : Dev} {op : Nat} {c : Caller} {p : List Byte} (hread : isChanging op = false) (hans : d.answers = true)
    (hc : c.p < 2) : ((d.jcsRun op c p).head c.p).mboxBusy = false := by
  have hresp (e : Dev) (ret ext : Nat) (bg : Bool) (out : List Byte) : ((e.respond c op ret ext bg out).head c.p).mboxBusy = false := by
    rw [(respond_effect e c op ret ext bg out).2.1 hc]
  have hserves : ¬ ((!d.answers) = true ∨ (d.pkg.bedrock = true ∧ 2 ≤ c.p)) := by
    rw [hans]
    simp only [Bool.not_true, Bool.false_eq_true, false_or, not_and]
    omega
  unfold Dev.jcsRun Dev.jcsDo
  rw [if_neg hserves]
  split
  · exact hresp ..
  rename_i r hrow
  obtain ⟨hmem, rfl⟩ := cmdRow_mem hrow
  have hchg : r.chg = false := by
    unfold isChanging at hread
    rwa [hrow] at hread
  have hnow : AnswersAtOnce (jcsRow r.op).2 := readOps_answer _ (mem_readOps hmem hchg)
  extract_lets refusal refusal' res
  split
  · exact hresp ..
  split
  · exact hresp ..
  split
  · exact hresp ..
  unfold Dev.jcsEffect
  split
  · exact hresp ..
  extract_lets now begun
  generalize hx : (jcsRow r.op).2 (begun.useLease c (r.names p)) c p = x
  have hlater : x.2.later = false := hx ▸ hnow ..
  obtain ⟨d1, x⟩ := x
  dsimp only
  rw [hchg, if_neg Bool.false_ne_true, if_neg (Bool.eq_false_iff.mp hlater)]
  split <;> exact hresp ..

/-! ### A request reaches the serialiser (R402) -/

/-- The entry of a request in the serialiser's queue. -/
def queued (d : Dev) (c : Caller) (op : Nat) (p : List Byte) : QCmd :=
  { by_ := c.p, uid := c.uid, tag := c.tag, stamp := d.now, opcode := op, payload := p }

section
variable {d : Dev} {c : Caller} {op : Nat} {p : List Byte} (hup : d.panel.coreUp = true) (hp1 : d.restore.phase ≠ 1)
  (hp2 : d.restore.phase ≠ 2) (hbr : d.pkg.bedrock = true → c.p < 2)
include hup hp1 hp2 hbr

theorem submit_served : ¬ (!d.panel.coreUp ∨ d.restore.phase = 1 ∨ d.restore.phase = 2 ∨ (d.pkg.bedrock ∧ 2 ≤ c.p)) := by
  have hc : ¬ (d.pkg.bedrock = true ∧ 2 ≤ c.p) := fun ⟨h, hle⟩ => absurd (hbr h) (Nat.not_lt.mpr hle)
  simp [hup, hp1, hp2]
  simpa using hc

/-- A full queue refuses it, -/
theorem submit_of_full (hfull : 64 ≤ d.jcs.queue.length) : d.submit c op p = d.respond c op (retOf 9) 9 false (conflictOut 255 0) := by
  unfold Dev.submit
  rw [if_neg (submit_served hup hp1 hp2 hbr), if_pos hfull]

/-- a read is dispatched at once, -/
theorem submit_of_read (hroom : d.jcs.queue.length < 64) (hread : isChanging op = false) (hans : d.answers = true) :
    d.submit c op p = d.jcsRun op c p := by
  unfold Dev.submit
  rw [if_neg (submit_served hup hp1 hp2 hbr), if_neg (Nat.not_le.mpr hroom), if_pos ⟨by rw [hread]; rfl, hans⟩]

/-- and a changing command joins the queue. -/
theorem submit_of_changing (hroom : d.jcs.queue.length < 64) (hchg : isChanging op = true) :
    d.submit c op p = (d.onJcs fun j => { j with queue := j.queue ++ [queued d c op p] }).mirrorNow := by
  have hkept : ¬ ((!isChanging op) = true ∧ d.answers = true) := fun h => by simp [hchg] at h
  unfold Dev.submit
  rw [if_neg (submit_served hup hp1 hp2 hbr), if_neg (Nat.not_le.mpr hroom), if_neg hkept]
  rfl

theorem submit_changing (hroom : d.jcs.queue.length < 64) (hchg : isChanging op = true) :
    (d.submit c op p).jcs = { d.jcs with queue := d.jcs.queue ++ [queued d c op p] } ∧ (d.submit c op p).out = d.out ∧
      ∀ h, (d.submit c op p).head h = d.head h := by
  rw [submit_of_changing hup hp1 hp2 hbr hroom hchg]
  exact ⟨mirrorNow_jcs _, mirrorNow_out _, fun h => mirrorNow_head _ h⟩

end

/-- A response leaves the serialiser's queue. -/
theorem respond_queue (d : Dev) (c : Caller) (op ret ext : Nat) (bg : Bool) (out : List Byte) :
    (d.respond c op ret ext bg out).jcs.queue = d.jcs.queue := by
  unfold Dev.respond
  extract_lets mine cleared shown idle sent
  have hshown : shown.jcs.queue = d.jcs.queue := by
    unfold shown
    split <;> rfl
  clear_value shown
  have hidle : idle.jcs.queue = d.jcs.queue := by
    unfold idle
    split <;> exact hshown
  split
  · rw [← Dev.sendMsg_foot.same .jcs (by decide)]
    exact hidle
  · exact hidle

/-- The device with head `h`'s mailbox busy on a command. -/
abbrev Dev.mailboxTaken (d : Dev) (h : Nat) : Dev := d.onHead h fun x => { x with mboxBusy := true }

/-- A doorbell of a mailbox that is free submits its command, where it is one of the JCS's. -/
theorem mailboxDoorbell_submits {d : Dev} {h : Fin 2} {op : Nat} {p : List Byte} (hfree : (d.head h.val).mboxBusy = false)
    (hup : d.panel.coreUp = true) (hp1 : d.restore.phase ≠ 1) (hp2 : d.restore.phase ≠ 2) (hop : 0xC400 ≤ op ∧ op ≤ 0xC4FF) :
    (if (d.head h.val).mboxBusy ∨ !d.panel.coreUp ∨ d.restore.phase = 1 ∨ d.restore.phase = 2 then d
      else if op < 0xC400 ∨ 0xC4FF < op then d.mailboxTaken h.val else (d.mailboxTaken h.val).submit { p := h.val } op p) =
      (d.mailboxTaken h.val).submit { p := h.val } op p := by
  rw [if_neg (by simp [hfree, hup, hp1, hp2]), if_neg (by omega)]

/-! ### Dispatch (R402, R403, R407) -/

/-- Of the queue's first due command `q` and its rivals, the one that runs: the least in rank, `q` before its equals. -/
def dispatchWinner (q : QCmd) (rs : List QCmd) : QCmd :=
  rs.foldl (fun w x => if leaseRank ((q.shared x).getD (q.resources.headD 0)) x.by_ < leaseRank ((q.shared x).getD 0) w.by_ then x else w) q

/-- The winner `win` of `q` and its rivals runs, once it is 1 µs old, and the others lose. -/
def Dev.dispatchRun (d : Dev) (q : QCmd) (rs : List QCmd) (win : QCmd) : Dev :=
  if isChanging win.opcode && decide (d.now - win.stamp < 1000) then d else
  let all := q :: rs
  let d := d.onJcs fun j => { j with queue := j.queue.filter fun x => !all.contains x }
  let d := d.jcsRun win.opcode win.caller win.payload
  ((all.filter fun x => x != win).foldl (fun d x =>
    d.respond x.caller x.opcode (retOf 6) 6 false (conflictOut win.by_ ((win.shared x).getD ((q.shared x).getD (q.resources.headD 0))))) d).mirrorNow

/-- COMMAND_DISPATCH takes the first command that is due. -/
def Dev.dispatch (d : Dev) : Dev :=
  if !d.answers then d
  else match d.jcs.queue.find? fun q => !(isChanging q.opcode) || decide (1000 ≤ d.now - q.stamp) with
    | none => d
    | some q =>
      let rs := if d.reaches q then d.rivals q else []
      d.dispatchRun q rs (dispatchWinner q rs)

theorem execCommandDispatch_eq (dt : Nat) (s : State) : execCommandDispatch dt s = s.run fun d => (d.elapse dt).dispatch := rfl

theorem dispatch_of_young {d : Dev} (h : ∀ q : QCmd, q ∈ d.jcs.queue → isChanging q.opcode = true ∧ d.now < q.stamp + 1000 ∧ q.stamp ≤ d.now) :
    d.dispatch = d := by
  have hnone : (d.jcs.queue.find? fun q => !(isChanging q.opcode) || decide (1000 ≤ d.now - q.stamp)) = none := by
    refine List.find?_eq_none.mpr fun q hq => ?_
    obtain ⟨hchg, hyoung, -⟩ := h q hq
    simp only [hchg, Bool.not_true, Bool.false_or, decide_eq_true_eq]
    omega
  unfold Dev.dispatch
  rw [hnone, ite_self]

/-- The command at the head of the queue is taken 1 µs after its stamp. -/
theorem dispatch_of_due {d : Dev} {q : QCmd} {l : List QCmd} (hans : d.answers = true) (hqueue : d.jcs.queue = q :: l)
    (hdue : q.stamp + 1000 ≤ d.now) {rs : List QCmd} (hrs : (if d.reaches q then d.rivals q else []) = rs) :
    d.dispatch = d.dispatchRun q rs (dispatchWinner q rs) := by
  have hold : decide (1000 ≤ d.now - q.stamp) = true := decide_eq_true (by omega)
  have hfirst : (d.jcs.queue.find? fun q => !(isChanging q.opcode) || decide (1000 ≤ d.now - q.stamp)) = some q := by
    rw [hqueue, List.find?_cons_of_pos (by simp only [hold, Bool.or_true])]
  unfold Dev.dispatch
  rw [hfirst, if_neg (by simp [hans])]
  exact congrArg (fun rs => d.dispatchRun q rs (dispatchWinner q rs)) hrs

theorem rivals_of_alone {d : Dev} {q : QCmd} (hqueue : d.jcs.queue = [q]) : d.rivals q = [] := by
  unfold Dev.rivals
  rw [hqueue]
  simp

/-- A changing command of another principal on the same free resource, stamped within 1 µs, is a rival. -/
theorem rivals_of_pair {d : Dev} {q x : QCmd} {r : Nat} (hqueue : d.jcs.queue = [q, x]) (hchg : isChanging x.opcode = true)
    (hstamp : x.stamp < q.stamp + 1000) (hby : q.by_ ≠ x.by_) (hreach : d.reaches x = true) (hshared : q.shared x = some r)
    (hfree : (d.lease r).holder = 255) : d.rivals q = [x] := by
  unfold Dev.rivals
  rw [hqueue]
  simp [hchg, hstamp, hby.symm, hreach, hshared, hfree]

/-- Once every queued command is taken the queue is empty. -/
theorem takeAll_of_queue {d : Dev} {l : List QCmd} (hqueue : d.jcs.queue = l) :
    (d.onJcs fun j => { j with queue := j.queue.filter fun x => !l.contains x }) = d.onJcs fun j => { j with queue := [] } := by
  have hnone : d.jcs.queue.filter (fun x => !l.contains x) = [] := by
    rw [hqueue, List.filter_eq_nil_iff]
    simp
  exact congrArg (fun queue => { d with jcs := { d.jcs with queue := queue } }) hnone

/-- A command with no rival runs. -/
theorem dispatchRun_alone {d : Dev} {q : QCmd} (hqueue : d.jcs.queue = [q]) (hdue : q.stamp + 1000 ≤ d.now) :
    d.dispatchRun q [] q = ((d.onJcs fun j => { j with queue := [] }).jcsRun q.opcode q.caller q.payload).mirrorNow := by
  have hold : ¬ (isChanging q.opcode && decide (d.now - q.stamp < 1000)) = true := by
    simp only [Bool.and_eq_true, decide_eq_true_eq, not_and]
    omega
  have hlosers : [q].filter (fun x => x != q) = [] := by simp
  unfold Dev.dispatchRun
  rw [if_neg hold]
  dsimp only
  rw [takeAll_of_queue hqueue, hlosers]
  rfl

theorem dispatchWinner_of_lt {q x : QCmd} {r : Nat} (hqx : q.shared x = some r) (hrank : leaseRank r x.by_ < leaseRank r q.by_) :
    dispatchWinner q [x] = x := by
  simp only [dispatchWinner, List.foldl_cons, List.foldl_nil, hqx, Option.getD_some, if_pos hrank]

theorem dispatchWinner_of_gt {q x : QCmd} {r : Nat} (hqx : q.shared x = some r) (hrank : leaseRank r q.by_ < leaseRank r x.by_) :
    dispatchWinner q [x] = q := by
  simp only [dispatchWinner, List.foldl_cons, List.foldl_nil, hqx, Option.getD_some, if_neg (Nat.not_lt.mpr hrank.le)]

/-- Of two simultaneous commands on a resource, the winner waits for 1 µs after its own stamp; -/
theorem dispatchRun_young {d : Dev} {q win : QCmd} {rs : List QCmd} (hchg : isChanging win.opcode = true) (hyoung : d.now < win.stamp + 1000)
    (hpast : win.stamp ≤ d.now) : d.dispatchRun q rs win = d := by
  refine if_pos ?_
  simp only [hchg, Bool.true_and, decide_eq_true_eq]
  omega

/-- then it runs, and the other loses with LEASE_CONFLICT, which names the winner and the resource. -/
theorem dispatchRun_pair {d : Dev} {q x win lost : QCmd} {r : Nat} (hqueue : d.jcs.queue = [q, x]) (hdue : win.stamp + 1000 ≤ d.now)
    (hlosers : [q, x].filter (fun y => y != win) = [lost]) (hlost : win.shared lost = some r) :
    d.dispatchRun q [x] win = (((d.onJcs fun j => { j with queue := [] }).jcsRun win.opcode win.caller win.payload).respond lost.caller
      lost.opcode (retOf 6) 6 false (conflictOut win.by_ r)).mirrorNow := by
  have hold : ¬ (isChanging win.opcode && decide (d.now - win.stamp < 1000)) = true := by
    simp only [Bool.and_eq_true, decide_eq_true_eq, not_and]
    omega
  unfold Dev.dispatchRun
  rw [if_neg hold]
  dsimp only
  rw [takeAll_of_queue hqueue, hlosers]
  simp only [List.foldl_cons, List.foldl_nil, hlost, Option.getD_some]

end Sys2Proof.Machine
end

section
set_option Elab.async false
/-! LEMMAS. Background commands that end, and the rows of the serialiser (chapter 13). -/

namespace Sys2Proof.Machine

/-! ### Background commands (R400) -/

theorem bgOf_onBg (d : Dev) (p : Nat) (f : Bg → Bg) : (d.onBg p f).bgOf p = f (d.bgOf p) := by
  unfold Dev.bgOf Dev.onBg
  by_cases hp : p < 2
  · simp only [if_pos hp, head_onHead]
  · simp only [if_neg hp, onJcs_jcs]

theorem mirrorNow_bgOf (d : Dev) (p : Nat) : d.mirrorNow.bgOf p = d.bgOf p := by
  rw [Dev.bgOf, mirrorNow_head, mirrorNow_jcs, Dev.bgOf]

/-- The background command that runs reports SUCCESS. -/
theorem bgEnd_success {d : Dev} {p : Nat} (hrun : (d.bgOf p).running = true) :
    (d.bgEnd p (d.bgOf p).opcode 0).bgOf p = { d.bgOf p with running := false, pct := 100, ret := 0, ext := 0 } := by
  unfold Dev.bgEnd
  rw [if_pos ⟨hrun, rfl⟩, mirrorNow_bgOf, bgOf_onBg]
  rfl

/-- Settles O54: a request is refused, runs or joins the queue by `submit`; what is dispatched of a queue of one or two commands is what
`dispatchOf` makes of its head and that one's rival. -/
theorem serialiserCommands : Obligations.SerialiserCommands := by
  unfold Obligations.SerialiserCommands
  refine ⟨?busy, ?doorbell, ?full, ?read, ?mctp, ?stranger, ?relay, ?young, ?alone, ?rivalWins, ?rivalYoung, ?firstWins, ?lapses, ?stands, ?ends,
    ?goesOn, ?discarded, ?counted⟩
  case busy =>
    rintro s _ h op p dt rfl hbusy
    exact .of_dev execMailboxDoorbell_foot (by decide) rfl rfl (if_pos (.inl hbusy)) rfl
  case doorbell =>
    rintro s _ h op p dt rfl hfree hup hp1 hp2 hchg hroom
    refine .of_dev execMailboxDoorbell_foot (by decide) rfl rfl (mailboxDoorbell_submits hfree hup hp1 hp2 (opcode_of_changing hchg)) ?_
    obtain ⟨hjcs, hout, hhead⟩ := submit_changing (d := (s.dev.elapse dt).mailboxTaken h.val) (c := { p := h.val }) (p := p) hup hp1 hp2
      (fun _ => h.isLt) hroom hchg
    exact ⟨congrArg JcsSt.queue hjcs, by rw [hhead, head_onHead], hout⟩
  case full =>
    rintro s _ h op p dt rfl hfree hup hp1 hp2 hlo hhi hfull
    have hbr : (s.dev.elapse dt).pkg.bedrock = true → h.val < 2 := fun _ => h.isLt
    refine .of_dev execMailboxDoorbell_foot (by decide) rfl rfl
      ((mailboxDoorbell_submits hfree hup hp1 hp2 ⟨hlo, hhi⟩).trans (submit_of_full hup hp1 hp2 hbr hfull)) ⟨respond_queue .., ?_⟩
    exact answered_respond (d1 := (s.dev.elapse dt).mailboxTaken h.val) (.of_out rfl) ⟨h.val, h.isLt.trans (by decide)⟩ 0 _ _ _ _ _ (.refl _ _)
  case read =>
    rintro s _ h op p dt rfl hfree hup hp1 hp2 hlo hhi hread hroom hans
    have hbr : (s.dev.elapse dt).pkg.bedrock = true → h.val < 2 := fun _ => h.isLt
    refine .of_dev execMailboxDoorbell_foot (by decide) rfl rfl
      ((mailboxDoorbell_submits hfree hup hp1 hp2 ⟨hlo, hhi⟩).trans (submit_of_read hup hp1 hp2 hbr hroom hread hans)) ⟨rfl, ?_⟩
    exact jcsRun_read_frees (c := { p := h.val }) hread hans h.isLt
  case mctp =>
    rintro s _ eid tag op p dt rfl hup hbedrock heid hp1 hp2 hlen hchg hroom
    obtain ⟨hjcs, hout, -⟩ := submit_changing (d := (s.dev.elapse dt).onJcs fun j => { j with mctpBusy := addOnce j.mctpBusy tag.toNat })
      (c := { p := 2, tag := tag.toNat }) (p := p) hup hp1 hp2 (fun h => absurd (hbedrock.symm.trans h) Bool.false_ne_true) hroom hchg
    refine .of_dev execMctpRequest_foot (by decide) rfl rfl ((if_neg (by rw [hup, hbedrock]; decide)).trans
      ((if_neg (not_not_intro heid)).trans (if_neg (Nat.not_lt.mpr hlen)))) ?_
    exact ⟨congrArg JcsSt.queue hjcs, by rw [hjcs]; exact mem_addOnce _ _, hout⟩
  case stranger =>
    rintro s _ eid tag op p dt rfl hup hbedrock heid
    exact .of_dev execMctpRequest_foot (by decide) rfl rfl ((if_neg (by rw [hup, hbedrock]; decide)).trans (if_pos heid)) ⟨rfl, _, rfl⟩
  case relay =>
    rintro s _ l uid tag op p dt rfl hgate hup hp1 hp2 hbedrock hlen hchg hroom
    obtain ⟨hjcs, hout, -⟩ := submit_changing (c := { p := 3, uid := uid, tag := tag.toNat }) (p := p) hup hp1 hp2
      (fun h => absurd (hbedrock.symm.trans h) Bool.false_ne_true) hroom hchg
    refine .of_dev execJcsRelay_foot (by decide) rfl rfl ?_ ⟨congrArg JcsSt.queue hjcs, hout⟩
    dsimp only
    rw [hgate]
    exact if_neg (Nat.not_lt.mpr hlen)
  case young =>
    rintro s _ dt rfl hyoung
    exact .of_dev execCommandDispatch_foot (by decide) rfl (execCommandDispatch_eq dt s) (dispatch_of_young hyoung) rfl
  case alone =>
    rintro s _ q dt rfl hans hqueue hchg hdue
    refine .of_dev execCommandDispatch_foot (by decide) rfl (execCommandDispatch_eq dt s) ?_ rfl
    rw [dispatch_of_due hans hqueue hdue (by rw [rivals_of_alone hqueue, ite_self])]
    exact dispatchRun_alone hqueue hdue
  case rivalWins =>
    rintro s _ q x r dt rfl hans hqueue hq hx hdue hstamp hby hreachq hreachx hqx hxq hfree hrank hdue'
    refine .of_dev execCommandDispatch_foot (by decide) rfl (execCommandDispatch_eq dt s) ?_ rfl
    have hne : q ≠ x := fun h => hby (congrArg QCmd.by_ h)
    rw [dispatch_of_due hans hqueue hdue ((if_pos hreachq).trans (rivals_of_pair hqueue hx hstamp hby hreachx hqx hfree)),
      dispatchWinner_of_lt hqx hrank]
    exact dispatchRun_pair hqueue hdue' (by simp [hne]) hxq
  case rivalYoung =>
    rintro s _ q x r dt rfl hans hqueue hq hx hdue hstamp hby hreachq hreachx hqx hxq hfree hrank hpast hyoung
    refine .of_dev execCommandDispatch_foot (by decide) rfl (execCommandDispatch_eq dt s) ?_ rfl
    rw [dispatch_of_due hans hqueue hdue ((if_pos hreachq).trans (rivals_of_pair hqueue hx hstamp hby hreachx hqx hfree)),
      dispatchWinner_of_lt hqx hrank]
    exact dispatchRun_young hx hyoung hpast
  case firstWins =>
    rintro s _ q x r dt rfl hans hqueue hq hx hdue hstamp hby hreachq hreachx hqx hxq hfree hrank
    refine .of_dev execCommandDispatch_foot (by decide) rfl (execCommandDispatch_eq dt s) ?_ rfl
    have hne : q ≠ x := fun h => hby (congrArg QCmd.by_ h)
    rw [dispatch_of_due hans hqueue hdue ((if_pos hreachq).trans (rivals_of_pair hqueue hx hstamp hby hreachx hqx hfree)),
      dispatchWinner_of_gt hqx hrank]
    exact dispatchRun_pair hqueue hdue (by simp [hne.symm]) hqx
  case lapses =>
    rintro s _ r dt rfl hr hheld hidle
    refine .of_dev execLeaseTimeout_foot (by decide) rfl rfl (if_pos ⟨hr, hheld, hidle⟩) ⟨?_, fun j _ hj => endLease_lease_ne _ hj⟩
    rw [endLease_lease]
  case stands =>
    rintro s _ r dt rfl hstands
    refine .of_dev execLeaseTimeout_foot (by decide) rfl rfl (if_neg fun ⟨hr, hheld, hidle⟩ => ?_) rfl
    rcases hstands with h | h | h
    · exact hr h
    · exact hheld h
    · exact Nat.not_lt.mpr hidle h
  case ends =>
    rintro s _ b dt rfl hrun hover
    exact .of_dev execBackgroundComplete_foot (by decide) rfl rfl (if_pos (by rw [hrun, hover]; rfl)) (bgEnd_success hrun)
  case goesOn =>
    rintro s _ b dt rfl hgoes
    refine .of_dev execBackgroundComplete_foot (by decide) rfl rfl (if_neg ?_) rfl
    rw [Bool.and_eq_true]
    rintro ⟨hrun, hover⟩
    rcases hgoes with h | h
    · exact Bool.false_ne_true (h.symm.trans hrun)
    · exact Bool.false_ne_true (h.symm.trans hover)
  case discarded =>
    rintro s _ h off dt rfl hout
    exact .of_dev execDwWriteDiscarded_foot (by decide) rfl rfl (if_neg fun ⟨_, hin⟩ => Nat.not_lt.mpr hout hin) rfl
  case counted =>
    rintro s _ h off dt rfl hup hin
    refine .of_dev execDwWriteDiscarded_foot (by decide) rfl rfl (if_pos ⟨hup, hin⟩) ?_
    have hsrc : ¬ ownSrc h.val < 768 := by unfold ownSrc; omega
    simp only [Dev.raise, if_neg hsrc]
    rfl

end Sys2Proof.Machine
end

section
set_option Elab.async false
/-! LEMMAS. Contexts and their rings after their own updates, and what the serving of requests and the work of commit rings leave of them
(chapter 06). -/

namespace Sys2Proof.Machine

/-! ### Rings and states after their own updates -/

theorem ring_onRing (d : Dev) (c k : Nat) (f : Ring → Ring) : (d.onRing c k f).ring c k = f (d.ring c k) := by
  rw [Dev.ring, Dev.onRing, ctx_onCtx, tget_tmod, Dev.ring]

theorem ring_onRing_ne (d : Dev) {c k c' k' : Nat} (f : Ring → Ring) (h : ¬ (c' = c ∧ k' = k)) : (d.onRing c k f).ring c' k' = d.ring c' k' := by
  rw [Dev.ring, Dev.onRing, Dev.ring]
  by_cases hc : c' = c
  · subst hc
    rw [ctx_onCtx, tget_tmod_ne _ _ _ _ _ fun hk => h ⟨rfl, hk⟩]
  · rw [ctx_onCtx_ne _ _ hc]

theorem ring_congr {d e : Dev} (h : e.ctxs = d.ctxs) (c k : Nat) : e.ring c k = d.ring c k := by rw [Dev.ring, ctx_congr h, Dev.ring]

/-- The entry of a context is what its change of state makes of it. -/
theorem ctxTo_ctx (d : Dev) (c st : Nat) : (d.ctxTo c st).ctx c =
    { d.ctx c with state := st, tState := d.now, meter := { (d.ctx c).meter with flags := (d.ctx c).meter.flags ||| 0x10 } } := by
  rw [Dev.ctxTo, ctx_congr (Dev.ctxSave_foot.ctxs_eq (by decide)), Dev.ctxState, ctx_onCtx]

theorem ctxTo_ctx_ne (d : Dev) {c k : Nat} (st : Nat) (hk : k ≠ c) : (d.ctxTo c st).ctx k = d.ctx k := by
  rw [Dev.ctxTo, ctx_congr (Dev.ctxSave_foot.ctxs_eq (by decide)), Dev.ctxState, ctx_onCtx_ne _ _ hk]

theorem ctxTo_rtView (d : Dev) (c st : Nat) : (d.ctxTo c st).rtView = d.rtView := (ctxSave_sameViews ..).rt

/-! ### What served requests and worked rings leave -/

/-- A context but for its rings and its running metering record. -/
def Ctx.standing (x : Ctx) : Ctx := { x with rings := [], meter := {} }

/-- A ring's pointers that the host writes, and the one that it reads. -/
def Ring.pointers (r : Ring) : Nat × Nat × Nat := (r.sqTail, r.cqTail, r.cqHead)

/-- A ring's state and its pointers into the submission queue. -/
def Ring.submission (r : Ring) : Nat × Nat × Nat := (r.state, r.sqTail, r.sqHead)

/-- From `d` to `e` every ring keeps what `π` reads of it, and the contexts and the Region Table stand but for rings and metering. -/
structure RingsKeep {α : Type} (π : Ring → α) (d e : Dev) : Prop where
  rt : e.rtView = d.rtView
  ctx : ∀ c, (e.ctx c).standing = (d.ctx c).standing
  ring : ∀ c k, π (e.ring c k) = π (d.ring c k)

namespace RingsKeep
variable {α : Type} {π : Ring → α} {d e f : Dev}

theorem refl (d : Dev) : RingsKeep π d d := ⟨rfl, fun _ => rfl, fun _ _ => rfl⟩

theorem trans (h : RingsKeep π d e) (k : RingsKeep π e f) : RingsKeep π d f :=
  ⟨k.rt.trans h.rt, fun c => (k.ctx c).trans (h.ctx c), fun c n => (k.ring c n).trans (h.ring c n)⟩

theorem step {S : List Part} (h : RingsKeep π d e) (k : ChangesOnly S e f) (hS : Part.ctxs ∉ S := by decide) : RingsKeep π d f :=
  h.trans ⟨k.rtView_eq hS, fun c => by rw [ctx_congr (k.ctxs_eq hS)], fun c n => by rw [ring_congr (k.ctxs_eq hS)]⟩

theorem ite {c : Prop} {_ : Decidable c} (h : RingsKeep π d e) (k : RingsKeep π d f) : RingsKeep π d (if c then e else f) := by split <;> assumption

theorem foldl {β : Type} {g : Dev → β → Dev} {l : List β} (h : RingsKeep π d e) (hg : ∀ e a, RingsKeep π d e → RingsKeep π d (g e a)) :
    RingsKeep π d (l.foldl g e) := by
  induction l generalizing e with
  | nil => exact h
  | cons a l ih => exact ih (hg _ a h)

theorem onRing {c k : Nat} {g : Ring → Ring} (h : RingsKeep π d e) (hg : π (g (e.ring c k)) = π (e.ring c k)) : RingsKeep π d (e.onRing c k g) :=
  h.trans ⟨rfl, fun c' => by
    by_cases hc : c' = c
    · rw [hc, Dev.onRing, ctx_onCtx]
      rfl
    · rw [Dev.onRing, ctx_onCtx_ne _ _ hc], fun c' k' => by
    by_cases hck : c' = c ∧ k' = k
    · rw [hck.1, hck.2, ring_onRing, hg]
    · rw [ring_onRing_ne _ _ hck]⟩

/-- A count in the running metering record. -/
theorem onMeter {c : Nat} {g : MeterRec → MeterRec} (h : RingsKeep π d e) : RingsKeep π d (e.onMeter c g) :=
  h.trans ⟨rfl, fun c' => by
    by_cases hc : c' = c
    · rw [hc, Dev.onMeter, ctx_onCtx]
      rfl
    · rw [Dev.onMeter, ctx_onCtx_ne _ _ hc], fun c' k' => by
    by_cases hc : c' = c
    · rw [hc, Dev.ring, Dev.onMeter, ctx_onCtx, Dev.ring]
    · rw [Dev.ring, Dev.onMeter, ctx_onCtx_ne _ _ hc, Dev.ring]⟩

/-! #### A request is performed, and a completion posted (R189, R202) -/

section
variable (hπ : ∀ r n t, π { r with unsig := n, unsigAt := t } = π r)
include hπ

theorem fireRing {c k : Nat} (h : RingsKeep π d e) : RingsKeep π d (e.fireRing c k) := by
  unfold Dev.fireRing
  exact (h.onRing (hπ _ 0 _)).step Dev.fire_foot

theorem signal {c k : Nat} (h : RingsKeep π d e) : RingsKeep π d (e.signal c k) := by
  unfold Dev.signal
  extract_lets r counted
  have hcounted : RingsKeep π d counted := h.onRing (hπ _ _ _)
  exact .ite h (.ite (hcounted.fireRing hπ) hcounted)

theorem posted {r : HeldReq} (h : RingsKeep π d e) : RingsKeep π d (e.posted r) := by
  unfold Dev.posted
  exact .ite ((h.step Dev.emit_foot).signal hπ) (h.step Dev.emit_foot)

omit hπ in
theorem meterWrite {l : Nat} (h : RingsKeep π d e) : RingsKeep π d (e.meterWrite l) := by
  unfold Dev.meterWrite
  split
  · exact h.onMeter (g := fun m => { m with written := m.written + 64 })
  · exact h

theorem perform {r : HeldReq} (h : RingsKeep π d e) : RingsKeep π d (e.perform r) := by
  unfold Dev.perform
  extract_lets p hostWrite touched clean other written
  have htouched : RingsKeep π d touched := h.step Dev.chanTouch_foot
  have hother : RingsKeep π d other := .ite htouched (htouched.step Dev.otherWrite_foot)
  have hpoisoned : RingsKeep π d ((other.storePoison r.line).poisonEntry (r.line * 64) 64 3) :=
    (hother.step Dev.storePoison_foot).step Dev.poisonEntry_foot
  have hwritten : RingsKeep π d written :=
    .ite ((hpoisoned.step Dev.dirtyPage_foot).step Dev.replicaMark_foot) (hother.step Dev.doWrite_foot)
  have hmetered : RingsKeep π d (written.meterWrite r.line) := hwritten.meterWrite
  refine .ite (h.step Dev.refuseQuiet_foot) (.ite ((h.step Dev.startHeld_foot).step Dev.onExpo_foot) (.ite (h.step Dev.onExpo_foot)
    (.ite ?write ?read)))
  case write =>
    exact .ite hwritten (.ite (hwritten.posted hπ) (.ite hmetered (.ite (.ite (hwritten.step Dev.replicaDone_foot) hwritten)
      (hmetered.step Dev.finishWrite_foot))))
  case read => exact .ite (htouched.step Dev.emit_foot) (htouched.step Dev.emit_foot)

theorem admitReq {r : HeldReq} (h : RingsKeep π d e) : RingsKeep π d (e.admitReq r) := by
  unfold Dev.admitReq
  exact .ite (h.perform hπ) ((h.step Dev.startHeld_foot).step Dev.onExpo_foot)

theorem writeCqe {c k a : Nat} {bs : List Byte} {irq : Bool} (h : RingsKeep π d e) : RingsKeep π d (e.writeCqe c k a bs irq) := by
  unfold Dev.writeCqe
  exact .ite ((RingsKeep.ite h (h.step Dev.onMem_foot)).posted hπ) (h.admitReq hπ)

end

/-! #### Entries are fetched (R186, R190): the host's pointers stand -/

theorem fetch {c k n : Nat} (h : RingsKeep Ring.pointers d e) : RingsKeep Ring.pointers d (e.fetch c k n) := by
  have herror {e : Dev} {err : Nat} (h : RingsKeep Ring.pointers d e) : RingsKeep Ring.pointers d (e.ringError c k err) :=
    (h.onRing (c := c) (k := k) rfl).step Dev.raise_foot
  induction n generalizing e with
  | zero => exact h
  | succ n ih =>
    unfold Dev.fetch
    split
    · exact h
    · extract_lets r a x entry ws taken
      exact .ite (herror h) (.ite (h.step Dev.startHeld_foot) (.ite (herror h) (ih (h.onRing rfl))))

theorem fetchAll {c k : Nat} (h : RingsKeep Ring.pointers d e) : RingsKeep Ring.pointers d (e.fetchAll c k) := h.fetch

/-! #### Entries complete (R187, R190): the state and the submission queue's pointers stand -/

theorem startHead {c k : Nat} (h : RingsKeep Ring.submission d e) : RingsKeep Ring.submission d (e.startHead c k) := by
  unfold Dev.startHead
  extract_lets r
  split
  · exact .ite h (h.onRing rfl)
  · exact h

theorem complete {c k status time r0 r1 : Nat} {x : RingEntry} {poison : Bool} (h : RingsKeep Ring.submission d e) :
    RingsKeep Ring.submission d (e.complete c k x status time r0 r1 poison) := by
  unfold Dev.complete
  extract_lets r dropped fl bs posted
  have hdropped : RingsKeep Ring.submission d dropped := (h.onRing (c := c) (k := k) rfl).startHead
  exact .ite (hdropped.step Dev.ckptAnswer_foot) (.ite hdropped ((hdropped.onRing rfl).writeCqe fun _ _ _ => rfl))

theorem abortUnstarted {c k : Nat} (h : RingsKeep Ring.submission d e) : RingsKeep Ring.submission d (e.abortUnstarted c k) := by
  unfold Dev.abortUnstarted
  exact h.foldl fun _ _ hf => hf.complete

theorem abortRollback {c k : Nat} (h : RingsKeep Ring.submission d e) : RingsKeep Ring.submission d (e.abortRollback c k) := by
  unfold Dev.abortRollback
  exact h.foldl fun _ _ hf => hf.complete

end RingsKeep

end Sys2Proof.Machine
end

section
set_option Elab.async false
/-! LEMMAS. Doorbells, interrupts and the end of quiescing (chapter 06). -/

namespace Sys2Proof.Machine

/-! ### Ring errors and interrupts (R187, R202) -/

theorem ringError_ring (d : Dev) (c k err : Nat) : (d.ringError c k err).ring c k =
    ringStep { d.ring c k with
      state := 4, err := err, entries := (d.ring c k).entries.filter fun e => e.started || !e.flags.getLsbD 0 } := by
  unfold Dev.ringError
  dsimp only
  rw [ring_congr (Dev.raise_foot.ctxs_eq (by decide)), ring_onRing]

theorem fireRing_ring (d : Dev) (c k : Nat) : (d.fireRing c k).ring c k = { d.ring c k with unsig := 0 } := by
  unfold Dev.fireRing
  rw [ring_congr (Dev.fire_foot.ctxs_eq (by decide)), ring_onRing]

/-! ### A property of every ring (R203) -/

/-- A table whose entries all satisfy `P` still does after one of them is set to a value that does. -/
theorem all_tset {α : Type} {P : α → Bool} {t : Tbl α} {v : α} (ht : (t.all fun e => P e.2) = true) (hv : P v = true) (k : Nat) :
    ((tset t k v).all fun e => P e.2) = true := by
  induction t with
  | nil => simpa [tset] using hv
  | cons e r ih =>
    obtain ⟨he, hr⟩ := Bool.and_eq_true_iff.mp (List.all_cons.symm.trans ht)
    unfold tset
    split
    · rw [List.all_cons, hv, List.all_cons, he, hr]
      rfl
    · split
      · rw [List.all_cons, hv, hr]
        rfl
      · rw [List.all_cons, he, ih hr]
        rfl

/-- What an entry of a table, or its default, satisfies. -/
theorem tget_of_all {α : Type} {P : α → Bool} {t : Tbl α} {z : α} (ht : (t.all fun e => P e.2) = true) (hz : P z = true) (k : Nat) :
    P (tget t z k) = true := by
  induction t with
  | nil => exact hz
  | cons e r ih =>
    obtain ⟨he, hr⟩ := Bool.and_eq_true_iff.mp (List.all_cons.symm.trans ht)
    unfold tget
    split
    · exact he
    · exact ih hr

/-! ### QUIESCE_COMPLETE (R203) -/

/-- Ring `k` of context `c`, quiescing with nothing started, is disabled, and the command that waited for it ends. -/
def Dev.ringOff (d : Dev) (c k : Nat) : Dev :=
  (d.onRing c k fun r => if r.state = 2 then ringStep { r with state := 3 } else r).bgEndAny 0xC421 0 fun a => a == c * 64 + k

/-- The rings of context `c` that quiesce, or met an error, with nothing started. -/
def Dev.ringsDone (d : Dev) (c : Nat) : List Nat :=
  ((d.ctx c).rings.filter fun r => (r.2.state == 2 || r.2.state == 4) && r.2.idle).map fun r => r.1

/-- Context `c`, quiescing with nothing started and nothing to revert, is disabled, and the command that waited for it ends. -/
def Dev.ctxOff (d : Dev) (c : Nat) : Dev :=
  if (d.ctx c).state = 2 ∧ ((d.ctx c).rings.all fun r => r.2.idle) ∧ !(d.ctxs.rollback.any fun p => d.pageCtx p == some c) then
    (d.ctxTo c 3).bgEndAny 0xC415 0 fun a => a == c
  else d

theorem execQuiesceComplete_eq (c dt : Nat) (s : State) : execQuiesceComplete c dt s =
    s.run fun d => (((d.elapse dt).ringsDone c).foldl (fun d k => d.ringOff c k) (d.elapse dt)).ctxOff c := rfl

/-- A context that quiesces with nothing started on its rings and nothing to revert. -/
structure Quiet (d : Dev) (c : Nat) : Prop where
  state : (d.ctx c).state = 2
  idle : ((d.ctx c).rings.all fun r => r.2.idle) = true
  rollback : d.ctxs.rollback = []

theorem Quiet.ringOff {d : Dev} {c : Nat} (h : Quiet d c) (k : Nat) : Quiet (d.ringOff c k) c := by
  unfold Dev.ringOff Dev.onRing
  set off : Ring → Ring := fun r => if r.state = 2 then ringStep { r with state := 3 } else r
  have hoff (r : Ring) : (off r).idle = r.idle := by
    dsimp only [off]
    split <;> rfl
  have hctxs : ((d.onCtx c fun x => { x with rings := tmod x.rings {} k off }).bgEndAny 0xC421 0 fun a => a == c * 64 + k).ctxs =
      (d.onCtx c fun x => { x with rings := tmod x.rings {} k off }).ctxs := Dev.bgEndAny_foot.ctxs_eq (by decide)
  refine ⟨?_, ?_, ?_⟩
  · rw [ctx_congr hctxs, ctx_onCtx]
    exact h.state
  · rw [ctx_congr hctxs, ctx_onCtx]
    exact all_tset h.idle ((hoff _).trans (tget_of_all h.idle rfl k)) k
  · rw [hctxs]
    exact h.rollback

theorem Quiet.foldl_ringOff {d : Dev} {c : Nat} (h : Quiet d c) (l : List Nat) : Quiet (l.foldl (fun d k => d.ringOff c k) d) c := by
  induction l generalizing d with
  | nil => exact h
  | cons k l ih => exact ih (h.ringOff k)

theorem Quiet.ctxOff {d : Dev} {c : Nat} (h : Quiet d c) : ((d.ctxOff c).ctx c).state = 3 := by
  unfold Dev.ctxOff
  rw [if_pos ⟨h.state, h.idle, by rw [h.rollback]; rfl⟩, ctx_congr (Dev.bgEndAny_foot.ctxs_eq (by decide)), ctxTo_ctx]

/-! ### Doorbells (R186, R187, R190) -/

theorem ringSet_pointers (b : Bool) (r : Ring) : (ringSet b r).pointers = r.pointers := by
  unfold ringSet
  split <;> rfl

theorem wrongHead_of_ne {d : Dev} {h c : Nat} (hown : (d.ctx c).owner ≠ h + 1) : d.wrongHead h c = true := bne_iff_ne.mpr hown

theorem wrongHead_of_eq {d : Dev} {h c : Nat} (hown : (d.ctx c).owner = h + 1) : ¬ d.wrongHead h c = true := by
  rw [Dev.wrongHead, hown, bne_self_eq_false]
  exact Bool.false_ne_true

theorem doorbell_taken {d : Dev} {c k : Nat} (h : d.doorbellOk c k = true) : ¬ (!d.doorbellOk c k) = true := by
  rw [h]
  exact Bool.false_ne_true

/-- A tail in range is taken: the ring's SQ_TAIL is set, the read of the next entry may find its line uncorrectable, and the ring fetches as
far as it may. -/
def Dev.sqTake (d : Dev) (c k : Nat) (tail : BitVec 12) (ue : BitVec 10) : Dev :=
  let d := d.onRing c k fun r => ringSet (r.sqTail != tail.toNat) { r with sqTail := tail.toNat }
  let r := d.ring c k
  let x := d.entryRead (r.sqBase + 64 * r.sqHead)
  (if ue != 0 && d.mayFetch c k && x.free && !d.poisoned x.line then (d.lineUe x.line ue.toNat).1 else d).fetchAll c k

theorem execDoorbellSq_eq (h : Fin 2) (c k : Nat) (tail : BitVec 12) (ue : BitVec 10) (dt : Nat) (s : State) :
    execDoorbellSq h c k tail ue dt s = s.run fun d =>
      if (d.elapse dt).wrongHead h.val c then (d.elapse dt).raise (ownSrc h.val) 0x12 0 (ctx := c) (headOnly := h.val)
      else if !((d.elapse dt).doorbellOk c k) then d.elapse dt
      else if ((d.elapse dt).ring c k).slots ≤ tail.toNat then (d.elapse dt).ringError c k 1
      else (d.elapse dt).sqTake c k tail ue := rfl

/-- A pointer of a ring takes its value, and the ring's other pointers stand through what follows. -/
theorem sqTail_of_set {d e : Dev} {c k v : Nat}
    (h : RingsKeep Ring.pointers (d.onRing c k fun r => ringSet (r.sqTail != v) { r with sqTail := v }) e) :
    (e.ring c k).sqTail = v ∧ (e.ring c k).cqTail = (d.ring c k).cqTail := by
  have hkept := h.ring c k
  rw [ring_onRing, ringSet_pointers] at hkept
  obtain ⟨htail, hrest⟩ := Prod.mk.inj hkept
  exact ⟨htail, congrArg Prod.fst hrest⟩

theorem sqTake_ring (d : Dev) (c k : Nat) (tail : BitVec 12) (ue : BitVec 10) :
    ((d.sqTake c k tail ue).ring c k).sqTail = tail.toNat ∧ ((d.sqTake c k tail ue).ring c k).cqTail = (d.ring c k).cqTail := by
  unfold Dev.sqTake
  extract_lets told r x
  exact sqTail_of_set (d := d) (.fetchAll (.ite (.step (.refl told) Dev.lineUe_foot) (.refl told)))

theorem cqHead_of_set {d e : Dev} {c k v : Nat}
    (h : RingsKeep Ring.pointers (d.onRing c k fun r => ringSet (r.cqHead != v) { r with cqHead := v }) e) :
    (e.ring c k).cqHead = v ∧ (e.ring c k).cqTail = (d.ring c k).cqTail := by
  have hkept := h.ring c k
  rw [ring_onRing, ringSet_pointers] at hkept
  obtain ⟨-, hrest⟩ := Prod.mk.inj hkept
  obtain ⟨htail, hhead⟩ := Prod.mk.inj hrest
  exact ⟨hhead, htail⟩

/-- Settles O28: a doorbell changes its ring's pointer and then only lets the ring fetch, which leaves the host's pointers; a ring error and
an interrupt are single updates; nothing that disabling a quiet context's rings does ends its quiet. -/
theorem ringDoorbellRows : Obligations.RingDoorbellRows := by
  unfold Obligations.RingDoorbellRows
  refine ⟨?sqStranger, ?cqStranger, ?sq, ?sqError, ?cq, ?cqError, ?coalesce, ?unmask, ?quiesce⟩
  case sqStranger =>
    intro s h c k tail ue dt hown
    refine .of_eq (r := execDoorbellSq h c k tail ue dt s) rfl rfl (if_pos (wrongHead_of_ne (d := s.dev.elapse dt) hown))
      (.step Dev.raise_foot (by decide) (Dev.elapse_foot.mono (by decide))) ?_
    exact raise_flint_congr (Dev.elapse_foot.flint_eq (by decide)) rfl ..
  case cqStranger =>
    intro s h c k head dt hown
    refine .of_eq (r := execDoorbellCq h c k head dt s) rfl rfl (if_pos (wrongHead_of_ne (d := s.dev.elapse dt) hown))
      (.step Dev.raise_foot (by decide) (Dev.elapse_foot.mono (by decide))) ?_
    exact raise_flint_congr (Dev.elapse_foot.flint_eq (by decide)) rfl ..
  case sq =>
    intro s h c k tail ue dt hown hok hin
    refine .of_dev execDoorbellSq_foot (by decide) rfl (execDoorbellSq_eq h c k tail ue dt s)
      ((if_neg (wrongHead_of_eq hown)).trans ((if_neg (doorbell_taken (d := s.dev.elapse dt) hok)).trans (if_neg (Nat.not_le.mpr hin)))) ?_
    exact sqTake_ring (s.dev.elapse dt) c k tail ue
  case sqError =>
    intro s h c k tail ue dt hown hok hout
    refine .of_dev execDoorbellSq_foot (by decide) rfl rfl
      ((if_neg (wrongHead_of_eq hown)).trans ((if_neg (doorbell_taken (d := s.dev.elapse dt) hok)).trans (if_pos hout))) ?_
    rw [ringError_ring]
    exact ⟨rfl, rfl, rfl⟩
  case cq =>
    intro s h c k head dt hown hok hin hposted
    refine .of_dev execDoorbellCq_foot (by decide) rfl rfl
      ((if_neg (wrongHead_of_eq hown)).trans ((if_neg (doorbell_taken (d := s.dev.elapse dt) hok)).trans
        (if_neg (not_or.mpr ⟨Nat.not_le.mpr hin, Nat.not_lt.mpr hposted⟩)))) ?_
    exact cqHead_of_set (d := s.dev.elapse dt) (.fetchAll (.refl _))
  case cqError =>
    intro s h c k head dt hown hok hout
    refine .of_dev execDoorbellCq_foot (by decide) rfl rfl
      ((if_neg (wrongHead_of_eq hown)).trans ((if_neg (doorbell_taken (d := s.dev.elapse dt) hok)).trans (if_pos (.inl hout)))) ?_
    rw [ringError_ring]
    exact ⟨rfl, rfl⟩
  case coalesce =>
    intro s c k dt hunsig htime
    refine .of_dev execCoalesceTimerExpiry_foot (by decide) rfl rfl (if_pos ⟨hunsig, htime⟩) ?_
    rw [fireRing_ring]
  case unmask =>
    intro s h v dt
    refine .of_foot execMsixVectorUnmask_foot (by decide) rfl rfl ?_
    dsimp only
    split
    · rw [emit_head, head_onHead, head_onHead]
      exact ⟨List.contains_iff_mem.mpr (mem_addOnce _ _), fun _ => by simp⟩
    · rename_i hquiet
      rw [head_onHead] at hquiet ⊢
      exact ⟨List.contains_iff_mem.mpr (mem_addOnce _ _), fun hup => Bool.eq_false_iff.mpr fun hpending => hquiet ⟨hpending, hup⟩⟩
  case quiesce =>
    intro s c dt hstate hidle hrollback
    exact .of_dev execQuiesceComplete_foot (by decide) rfl (execQuiesceComplete_eq c dt s) rfl
      ((Quiet.foldl_ringOff (d := s.dev.elapse dt) ⟨hstate, hidle, hrollback⟩ _).ctxOff)

end Sys2Proof.Machine
end

section
set_option Elab.async false
/-! LEMMAS. The end of a rollback that finds no page to revert (chapter 06). -/

namespace Sys2Proof.Machine

/-! ### A ROLLBACK whose context has no page (R197, R199) -/

theorem pageCtx_of_rtView {d e : Dev} (h : e.rtView = d.rtView) (p : Nat) : e.pageCtx p = d.pageCtx p := by
  rw [Dev.pageCtx, Dev.pageEntry, Dev.gran, (Prod.mk.inj h).1]
  rfl

theorem onMeter_rtView (d : Dev) (c : Nat) (f : MeterRec → MeterRec) : (d.onMeter c f).rtView = d.rtView := rfl

theorem RingsKeep.fetchRings {d e : Dev} (h : RingsKeep Ring.pointers d e) : RingsKeep Ring.pointers d e.fetchRings := by
  unfold Dev.fetchRings
  exact h.foldl fun _ _ hc => hc.foldl fun _ _ hk => hk.fetchAll

/-- A context in ROLLBACK_PENDING with its maps whole and no page to revert is ACTIVE again. -/
theorem rollbackEnd_active {d : Dev} {c : Nat} (hpages : ∀ p, d.pageCtx p = none) (hstate : (d.ctx c).state = 5) (hbegun : (d.ctx c).tR ≠ 0)
    (hmaps : (d.ctx c).rebuild = 0) : ((d.rollbackEnd c).ctx c).state = 1 := by
  have hnone : (d.ctxs.rollback.any fun p => d.pageCtx p == some c) = false :=
    List.any_eq_false.mpr fun p _ => by rw [hpages p]; exact Bool.false_ne_true
  unfold Dev.rollbackEnd
  rw [hnone, hmaps, decide_eq_false hbegun, if_neg (by decide)]
  extract_lets ended
  have hended : (ended.ctx c).state = 5 := by rw [ctx_onCtx]; exact hstate
  rw [if_pos hended, ctx_congr (Dev.raise_foot.ctxs_eq (by decide)), ctxTo_ctx]

/-- The switch of a ROLLBACK that is checked, before its completion: the pages are clean, their bits set, and the context names the switch
time and the stratum. -/
def Dev.rollbackSwitched (d : Dev) (c : Nat) (e : RingEntry) : Dev :=
  let d := d.cleanPages fun p => d.pageCtx p == some c
  let d := d.onCtxs fun x => { x with rollback := x.rollback ++ d.ctxPages c }
  let d := d.onCtx c fun x => { x with tSRb := e.ts, tR := d.now, allowDamaged := e.flags.getLsbD 2 }
  let d := if (d.ctx c).state = 1 then d.ctxTo c 5 else d.ctxSave c
  d.onMeter c fun m => { m with rollbacks := m.rollbacks + 1, flags := m.flags ||| 0x10 }

theorem rollbackSwitched_facts {d : Dev} {c : Nat} {e : RingEntry} (hstate : (d.ctx c).state = 1) :
    (d.rollbackSwitched c e).rtView = d.rtView ∧ ((d.rollbackSwitched c e).ctx c).state = 5 ∧
    ((d.rollbackSwitched c e).ctx c).tR = d.now ∧ ((d.rollbackSwitched c e).ctx c).rebuild = (d.ctx c).rebuild := by
  unfold Dev.rollbackSwitched
  extract_lets cleaned marked named begun
  have hcleaned : cleaned.ctxs = d.ctxs := Dev.cleanPages_foot.ctxs_eq (by decide)
  have hnow : cleaned.now = d.now := by rw [Dev.now, Dev.cleanPages_foot.qtz_eq (by decide)]; rfl
  have hnamed : named.ctx c = { d.ctx c with tSRb := e.ts, tR := d.now, allowDamaged := e.flags.getLsbD 2 } := by
    rw [ctx_onCtx, ← hnow, ← ctx_congr hcleaned]
    rfl
  have hrt : named.rtView = d.rtView := by rw [Dev.rtView, Dev.rtView, ← hcleaned]; rfl
  have hbegun : begun = named.ctxTo c 5 := if_pos (by rw [hnamed]; exact hstate)
  clear_value named
  rw [hbegun, onMeter_rtView, ctxTo_rtView, Dev.onMeter, ctx_onCtx, ctxTo_ctx, hnamed]
  exact ⟨hrt, rfl, rfl, rfl⟩

theorem execRollbackSwitchCommit_of_find {c k dt : Nat} {s : State} {x : RingEntry}
    (hx : (s.dev.ring c k).entries.find? (fun e => e.opc == 3 && e.checked) = some x) (hidle : s.dev.expo.inflight = [])
    (hfree : s.dev.sealing.frozen = false) (hsafe : s.dev.pkg.safe = 0) (hkey : (s.dev.ctx c).keyLost = false) :
    execRollbackSwitchCommit c k dt s = .next { s with dev :=
      let d := (s.dev.elapse dt).rollbackSwitched c x
      ((d.complete c k x 0 (d.ctx c).tR x.ts 0).rollbackEnd c).fetchRings } := by
  have hfound : ((s.dev.elapse dt).ring c k).entries.find? (fun e => e.opc == 3 && e.checked) = some x := hx
  have hruns : ¬ (((s.dev.elapse dt).expo.inflight.any fun f => (s.dev.elapse dt).pageCtx f.page == some c) = true ∨
      (s.dev.elapse dt).sealing.frozen = true ∨ (s.dev.elapse dt).pkg.safe ≠ 0) := by
    rw [show (s.dev.elapse dt).expo.inflight = [] from hidle]
    exact not_or.mpr ⟨Bool.false_ne_true, not_or.mpr ⟨Bool.eq_false_iff.mp hfree, not_not_intro hsafe⟩⟩
  have hlost : ¬ ((s.dev.elapse dt).ctx c).keyLost = true := Bool.eq_false_iff.mp hkey
  unfold execRollbackSwitchCommit State.run
  dsimp only
  rw [hfound]
  dsimp only
  rw [if_neg hruns, if_neg hlost]
  rfl

/-- Where no page has a context, the switch of a ROLLBACK finds nothing to revert and ends it: the context is ACTIVE. -/
theorem rollbackSwitchCommit_active {c k dt : Nat} {s t : State} {x : RingEntry}
    (hx : (s.dev.ring c k).entries.find? (fun e => e.opc == 3 && e.checked) = some x) (hidle : s.dev.expo.inflight = [])
    (hfree : s.dev.sealing.frozen = false) (hsafe : s.dev.pkg.safe = 0) (hkey : (s.dev.ctx c).keyLost = false)
    (hstate : (s.dev.ctx c).state = 1) (hmaps : (s.dev.ctx c).rebuild = 0) (hnow : (s.dev.elapse dt).now ≠ 0)
    (hpages : ∀ p, s.dev.pageCtx p = none) (ht : exec (.rollbackSwitchCommit c k dt) s = .next t) : (t.dev.ctx c).state = 1 := by
  obtain ⟨hrt, hst, htR, hreb⟩ := rollbackSwitched_facts (d := s.dev.elapse dt) (e := x) hstate
  have hdone := Host.Outcome.next.inj ((execRollbackSwitchCommit_of_find (dt := dt) hx hidle hfree hsafe hkey).symm.trans ht)
  rw [← hdone]
  clear hdone
  dsimp only
  set d := (s.dev.elapse dt).rollbackSwitched c x
  have hcompleted : RingsKeep Ring.submission d (d.complete c k x 0 (d.ctx c).tR x.ts 0) := (RingsKeep.refl d).complete
  clear_value d
  generalize d.complete c k x 0 (d.ctx c).tR x.ts 0 = e at hcompleted
  have hstanding := hcompleted.ctx c
  have hactive : ((e.rollbackEnd c).ctx c).state = 1 := rollbackEnd_active
    (fun p => (pageCtx_of_rtView (hcompleted.rt.trans hrt) p).trans (hpages p)) ((congrArg Ctx.state hstanding).trans hst)
    (fun h0 => hnow ((htR.symm.trans (congrArg Ctx.tR hstanding).symm).trans h0)) (((congrArg Ctx.rebuild hstanding).trans hreb).trans hmaps)
  exact (congrArg Ctx.state ((RingsKeep.refl (e.rollbackEnd c)).fetchRings.ctx c)).trans hactive

/-! ### A Region Table that lists a granule twice -/

/-- Granule 0 stands in the Region Table twice: its first entry, the one that is read, is of class P1 and not valid; the second is valid, of
context 0, which so has a granule of class P1 that no page of it is found in. A checked ROLLBACK waits on the context's ring 0. -/
def granuleListedTwice : State := { dev := {
  qtz := { standby := 1 }
  ctxs := {
    rt := [(0, { cls := 1 }), (0, { valid := true })]
    tbl := [(0, { state := 1, rings := [(0, { entries := [{ opc := 3, checked := true }] })] })] } } }

theorem granuleListedTwice_pageCtx (p : Nat) : granuleListedTwice.dev.pageCtx p = none := by
  have hinvalid (g : Nat) : (granuleListedTwice.dev.gran g).valid = false := by
    unfold Dev.gran granuleListedTwice
    by_cases hg : g = 0
    · rw [hg]
      rfl
    · simp [tget, Ne.symm hg]
  exact if_neg (Bool.eq_false_iff.mp (hinvalid _))

/-- Refutes O29: where the Region Table lists a granule twice, the first entry not valid and of class P1, the second valid and the context's,
the context has a granule of class P1 but no page is found to be its own; the switch of its ROLLBACK has nothing to revert, and leaves it
ACTIVE, not in ROLLBACK_PENDING. The clause needs a Region Table that lists each granule once. -/
theorem not_ringEntryRows : ¬ Obligations.RingEntryRows := by
  unfold Obligations.RingEntryRows
  rintro ⟨-, -, -, -, -, -, -, -, -, hswitch, -⟩
  obtain ⟨t, ht, -, -, hpending, -⟩ := hswitch granuleListedTwice 0 0 0 { opc := 3, checked := true } 0 (by decide) (by decide) (by decide)
    (by decide) (by decide) (by decide) (by decide) (by decide) (by decide) (by decide)
  have hactive : (t.dev.ctx 0).state = 1 := rollbackSwitchCommit_active (x := { opc := 3, checked := true }) (by decide) (by decide) (by decide)
    (by decide) (by decide) (by decide) (by decide) (by decide) granuleListedTwice_pageCtx ht
  exact absurd (hpending.symm.trans hactive) (by decide)

end Sys2Proof.Machine
end

section
set_option Elab.async false
/-! LEMMAS. Job commands whose effect sends messages of its own (chapters 06 and 13). -/

namespace Sys2Proof.Machine

/-! ### What an answer adds (R397) -/

/-- A head's extents, and the offers and releases that it has not answered. -/
def HeadSt.capacity (x : HeadSt) : List (Nat × Nat) × List DcOffer := (x.extents, x.dcOffers)

/-- From `d` to `e` an answer or a notice goes out: the parts of an answer alone change, nothing sent is lost, and every head keeps its capacity. -/
structure Reports (d e : Dev) : Prop where
  changes : ChangesOnly answerParts d e
  sent : Grown d e
  capacity : ∀ h, (e.head h).capacity = (d.head h).capacity

theorem Reports.trans {d e f : Dev} (h : Reports d e) (k : Reports e f) : Reports d f :=
  ⟨.step k.changes (by decide) h.changes, h.sent.trans k.sent, fun n => (k.capacity n).trans (h.capacity n)⟩

theorem Reports.of_foot {S : List Part} {d e : Dev} (h : ChangesOnly S d e) (hS : ∀ p ∈ S, p ∈ answerParts := by decide)
    (hout : Part.out ∉ S := by decide) (hheads : Part.heads ∉ S := by decide) : Reports d e :=
  ⟨h.mono hS, .of_foot h hout, fun n => by rw [Dev.head, h.heads_eq hheads, Dev.head]⟩

theorem Reports.onHead {d : Dev} {n : Nat} {f : HeadSt → HeadSt} (hf : ∀ x, (f x).capacity = x.capacity) : Reports d (d.onHead n f) := by
  refine ⟨Dev.onHead_foot.mono (by decide), .of_out rfl, fun m => ?_⟩
  by_cases hm : m = n
  · rw [hm, head_onHead, hf]
  · rw [head_onHead_ne _ _ hm]

theorem Reports.ctxs_eq {d e : Dev} (h : Reports d e) : e.ctxs = d.ctxs := h.changes.ctxs_eq (by decide)

theorem Reports.ctx_eq {d e : Dev} (h : Reports d e) (c : Nat) : e.ctx c = d.ctx c := ctx_congr h.ctxs_eq c

theorem Reports.rtView_eq {d e : Dev} (h : Reports d e) : e.rtView = d.rtView := h.changes.rtView_eq (by decide)

theorem Reports.ring_eq {d e : Dev} (h : Reports d e) (c k : Nat) : e.ring c k = d.ring c k := ring_congr h.ctxs_eq c k

theorem Reports.emit (d : Dev) (o : Out) : Reports d (d.emit o) := ⟨Dev.emit_foot.mono (by decide), .emit .., fun _ => rfl⟩

theorem Reports.ite {c : Prop} {_ : Decidable c} {d e f : Dev} (h : Reports d e) (k : Reports d f) : Reports d (if c then e else f) := by
  split <;> assumption

theorem onBg_reports (d : Dev) (p : Nat) (f : Bg → Bg) : Reports d (d.onBg p f) := by
  unfold Dev.onBg
  exact .ite (.onHead fun _ => rfl) (.of_foot Dev.onJcs_foot)

theorem sendMsg_reports (d : Dev) (uid svc vl : Nat) (body : List Nat) (data : List Byte) : Reports d (d.sendMsg uid svc vl body data) :=
  ⟨Dev.sendMsg_foot.mono (by decide), sendMsg_grown .., fun n => by rw [Dev.head, Dev.sendMsg_foot.heads_eq (by decide), Dev.head]⟩

theorem respond_reports (d : Dev) (c : Caller) (op ret ext : Nat) (bg : Bool) (out : List Byte) : Reports d (d.respond c op ret ext bg out) := by
  unfold Dev.respond
  extract_lets mine cleared shown idle sent
  have hcleared : Reports d cleared := .of_foot Dev.onJcs_foot
  have hshown : Reports d shown := .ite (hcleared.trans (.onHead fun _ => rfl)) hcleared
  have hidle : Reports d idle := .ite (hshown.trans (.of_foot Dev.onJcs_foot)) hshown
  have hsent : Reports d sent := hidle.trans (.emit ..)
  exact .ite (hsent.trans (sendMsg_reports ..)) hsent

theorem mem_of_grown {d e : Dev} {o : Out} (h : Grown d e) (ho : o ∈ d.out) : o ∈ e.out := by
  obtain ⟨sent, hsent⟩ := h
  exact hsent ▸ List.mem_append_right sent ho

theorem fire_reports (d : Dev) (h v : Nat) : Reports d (d.fire h v) := by
  unfold Dev.fire
  exact .ite (.onHead fun _ => rfl) (.emit ..)

theorem dcPost_reports (d : Dev) (h kind c : Nat) (gs : List Nat) : Reports d (d.dcPost h kind c gs) := by
  unfold Dev.dcPost Dev.evtIrq
  extract_lets x event logged p
  have hlogged : Reports d logged := .onHead fun _ => rfl
  have hsent : Reports d (logged.emit (.dcEvent h (kind != 0) c gs)) := hlogged.trans (.emit ..)
  exact .ite (hsent.trans (fire_reports ..)) hsent

/-! ### Rows whose effect may send (R400, R403) -/

section
variable {i : Instr} {s : State} {r : Res} {S T : List Part} {P : Dev → Prop} {op dt uid : Nat} {b : Fin 4} {p : List Byte}
  {check : Dev → Caller → List Byte → Nat} {act : Dev → Caller → List Byte → Dev × Rsp}
  (hfoot : ∃ t, r = .next t ∧ t.pending = s.pending ∧ ChangesOnly T s.dev t.dev) (hT : ∀ p ∈ T, p ∈ S) (hexec : exec i s = r)
  (hrun : r = s.run fun d => (d.elapse dt).jcsDo op check act (caller b uid) p)
  (hadm : (s.dev.elapse dt).admits op (caller b uid) p = true) (hcheck : check (s.dev.elapse dt) (caller b uid) p = 0)
include hfoot hT hexec hrun hadm hcheck

/-- A row whose effect is `d1` and which answers at once. -/
theorem Runs.of_jcs_sends (hact : ∀ j, ∃ d1 ext out,
      act ((s.dev.elapse dt).onJcs fun _ => j) (caller b uid) p = (d1, { ext := ext, out := out }) ∧
      Grown (s.dev.elapse dt) d1 ∧ ∀ e, Reports d1 e → Answered (s.dev.elapse dt) e b.val op (retOf ext) ext false out → P e) :
    Runs i s S P := by
  obtain ⟨j, chg, hjcs⟩ := jcsDo_of_admits (act := act) hadm hcheck
  obtain ⟨d1, ext, out, hx, hgrown, hP⟩ := hact j
  refine .of_dev hfoot hT hexec hrun hjcs ?_
  rw [hx]
  dsimp only
  rw [if_neg Bool.false_ne_true]
  have hmirror := mirror_foot (d1.respond (caller b uid) op (retOf ext) ext false out) chg
  exact hP _ ((respond_reports ..).trans (.of_foot hmirror)) (answered_respond hgrown b uid op (retOf ext) ext false out hmirror)

/-- A row whose effect is `d1` and which goes on in the background. -/
theorem Runs.of_jcs_bg_sends (hact : ∀ j, ∃ d1 arg, act ((s.dev.elapse dt).onJcs fun _ => j) (caller b uid) p = (d1, { bg := some arg }) ∧
      Grown (s.dev.elapse dt) d1 ∧ ∀ e, Reports d1 e → Answered (s.dev.elapse dt) e b.val op 1 0 true [] →
        (e.bgOf b.val).running = true ∧ (e.bgOf b.val).opcode = op → P e) :
    Runs i s S P := by
  obtain ⟨j, chg, hjcs⟩ := jcsDo_of_admits (act := act) hadm hcheck
  obtain ⟨d1, arg, hx, hgrown, hP⟩ := hact j
  refine .of_dev hfoot hT hexec hrun hjcs ?_
  rw [hx]
  dsimp only
  rw [if_neg Bool.false_ne_true]
  generalize hstarted : d1.onBg b.val (fun _ => { opcode := op, running := true, arg := arg }) = started
  have hstart : Reports d1 started := hstarted ▸ onBg_reports ..
  have hslot : started.bgOf b.val = { opcode := op, running := true, arg := arg } := by rw [← hstarted, bgOf_onBg]
  have hmirror := mirror_foot (started.respond (caller b uid) op 1 0 true []) chg
  have hkept : _ = started.bgOf b.val := (respond_effect started (caller b uid) op 1 0 true []).2.2
  refine hP _ ((hstart.trans (respond_reports ..)).trans (.of_foot hmirror))
    (answered_respond (hgrown.trans hstart.sent) b uid op 1 0 true [] hmirror) ?_
  rw [Dev.bgOf, Dev.head, hmirror.heads_eq (by decide), ← hmirror.same .jcs (by decide), ← Dev.head, ← Dev.bgOf, hkept, hslot]
  exact ⟨rfl, rfl⟩

/-- A row that refuses with a status after its checks, and changes nothing. -/
theorem Runs.of_jcs_err {ext : Nat}
    (hact : ∀ j, act ((s.dev.elapse dt).onJcs fun _ => j) (caller b uid) p = ((s.dev.elapse dt).onJcs fun _ => j, .err ext)) :
    Runs i s S fun e => Answered (s.dev.elapse dt) e b.val op (retOf ext) ext false [] ∧ e.ctxs = (s.dev.elapse dt).ctxs :=
  .of_jcs_sends hfoot hT hexec hrun hadm hcheck fun j => ⟨_, _, _, hact j, .of_out rfl, fun _ he hans => ⟨hans, he.ctxs_eq⟩⟩

end

/-! ### Nothing that went out is lost while contexts and rings change hands (R176 to R180, R203) -/

namespace Grown
variable {d e : Dev}

theorem dcOffer {h c by_ : Nat} {gs : List Nat} {release : Bool} {deadline : Option Nat} (k : Grown d e) :
    Grown d (e.dcOffer h c gs release deadline by_) := by
  unfold Dev.dcOffer
  exact (((k.foot Dev.onHead_foot).foot Dev.onCtx_foot).foot Dev.ctxSave_foot).trans (dcPost_reports ..).sent

theorem dcForced {h c : Nat} {gs : List Nat} (k : Grown d e) : Grown d (e.dcForced h c gs) := by
  unfold Dev.dcForced
  exact ((k.foot Dev.onHead_foot).foot Dev.dcSettle_foot).trans (dcPost_reports ..).sent

theorem stopStreams {c : Nat} (k : Grown d e) : Grown d (e.stopStreams c) := by
  unfold Dev.stopStreams Dev.stopStream
  exact k.foldl fun _ _ _ hf => (hf.foot Dev.onLat_foot).trans (sendMsg_grown ..)

theorem admitReq {r : HeldReq} (k : Grown d e) : Grown d (e.admitReq r) := by
  unfold Dev.admitReq
  exact .ite k.perform ((k.foot Dev.startHeld_foot).foot Dev.onExpo_foot)

theorem writeCqe {c n a : Nat} {bs : List Byte} {irq : Bool} (k : Grown d e) : Grown d (e.writeCqe c n a bs irq) := by
  unfold Dev.writeCqe
  exact .ite (Grown.ite k (k.foot Dev.onMem_foot)).posted k.admitReq

theorem ckptAnswer {c status time : Nat} {x : RingEntry} (k : Grown d e) : Grown d (e.ckptAnswer c x status time) := by
  unfold Dev.ckptAnswer Dev.ckptReply
  extract_lets mine
  split
  · exact .ite ((k.foot Dev.onLat_foot).foot Dev.ckptRecord_foot) ((k.foot Dev.onLat_foot).trans (sendMsg_grown ..))
  · exact k

theorem complete {c n status time r0 r1 : Nat} {x : RingEntry} {poison : Bool} (k : Grown d e) :
    Grown d (e.complete c n x status time r0 r1 poison) := by
  unfold Dev.complete
  extract_lets r dropped fl bs posted
  have hdropped : Grown d dropped := (k.foot Dev.onRing_foot).foot Dev.startHead_foot
  exact .ite hdropped.ckptAnswer (.ite hdropped (hdropped.foot Dev.onRing_foot).writeCqe)

theorem quiesceRing {c n : Nat} (k : Grown d e) : Grown d (e.quiesceRing c n) := by
  unfold Dev.quiesceRing Dev.abortRollback Dev.abortUnstarted
  exact ((k.foot Dev.onRing_foot).foldl fun _ _ _ hf => hf.complete).foldl fun _ _ _ hf => hf.complete

theorem quiesceCtx {c : Nat} (k : Grown d e) : Grown d (e.quiesceCtx c) := by
  unfold Dev.quiesceCtx
  exact (k.foot Dev.ctxTo_foot).foldl fun _ _ _ hf => hf.quiesceRing

end Grown

end Sys2Proof.Machine
end

section
set_option Elab.async false
/-! LEMMAS. Updates of the context and ring commands (chapter 06). -/

namespace Sys2Proof.Machine

/-! ### Changes that wait for their commit point (R33, R177, R179, R180) -/

/-- A command that queues a change for each entry of a list only appends them to the changes that wait. -/
theorem foldl_rtChange {α : Type} {f : Dev → α → RtChange} (hf : ∀ d x a, f (Dev.rtChange d x) a = f d a) (l : List α) (d : Dev) :
    (l.foldl (fun d a => d.rtChange (f d a)) d).ctxs = { d.ctxs with rtPend := d.ctxs.rtPend ++ l.map (f d) } := by
  induction l generalizing d with
  | nil => rw [List.foldl_nil, List.map_nil, List.append_nil]
  | cons a l ih =>
    rw [List.foldl_cons, ih, List.map_cons, funext fun a' => hf d (f d a) a']
    simp only [Dev.rtChange, onCtxs_ctxs, List.append_assoc, List.singleton_append]

theorem foldl_rtChange_foot {α : Type} (f : Dev → α → RtChange) (l : List α) (d : Dev) :
    ChangesOnly [.ctxs] d (l.foldl (fun d a => d.rtChange (f d a)) d) :=
  .foldl (fun _ _ h => .step Dev.rtChange_foot (by decide) h) (.refl _ _)

theorem ctxSave_ctx (d : Dev) (c k : Nat) : (d.ctxSave c).ctx k = d.ctx k := ctx_congr (Dev.ctxSave_foot.ctxs_eq (by decide)) k

/-! ### Dynamic capacity (R173, R177, R178) -/

theorem dcSettle_ctx_state (d : Dev) (c : Nat) : ((d.dcSettle c).ctx c).state = (d.ctx c).state := by
  unfold Dev.dcSettle
  extract_lets p
  split
  · rfl
  · rw [ctxSave_ctx, ctx_onCtx]

theorem dcPost_rtView (d : Dev) (h kind c : Nat) (gs : List Nat) : (d.dcPost h kind c gs).rtView = d.rtView :=
  Dev.dcPost_foot.rtView_eq (by decide)

/-- A forced release takes the granules from the head's extents, and changes neither the Region Table nor the state of a context. -/
theorem dcForced_facts (d : Dev) (h c : Nat) (gs : List Nat) :
    (d.dcForced h c gs).rtView = d.rtView ∧ ((d.dcForced h c gs).ctx c).state = (d.ctx c).state ∧
    ((d.dcForced h c gs).head h).extents = (d.head h).extents.filter fun x => !gs.contains x.1 := by
  unfold Dev.dcForced
  extract_lets cut
  refine ⟨?_, ?_, ?_⟩
  · rw [dcPost_rtView, Dev.rtView, (dcSettle_rt _ c).1, (dcSettle_rt _ c).2]
    rfl
  · rw [ctx_congr (Dev.dcPost_foot.ctxs_eq (by decide)), dcSettle_ctx_state]
    rfl
  · refine (congrArg Prod.fst ((dcPost_reports ..).capacity h)).trans ?_
    rw [Dev.head, Dev.dcSettle_foot.heads_eq (by decide), ← Dev.head, head_onHead]
    rfl

/-- The notice of a record in the Dynamic Capacity log goes out. -/
theorem dcEvent_mem_dcPost (d : Dev) (h kind c : Nat) (gs : List Nat) : Out.dcEvent h (kind != 0) c gs ∈ (d.dcPost h kind c gs).out := by
  unfold Dev.dcPost Dev.evtIrq
  extract_lets x event logged p
  have hnotice : Out.dcEvent h (kind != 0) c gs ∈ (logged.emit (.dcEvent h (kind != 0) c gs)).out := List.mem_cons_self
  split
  · exact mem_of_grown (fire_reports ..).sent hnotice
  · exact hnotice

theorem dcOffer_facts (d : Dev) (h c : Nat) (gs : List Nat) (release : Bool) (deadline : Option Nat) (by_ : Nat) :
    (d.dcOffer h c gs release deadline by_).rtView = d.rtView ∧ ((d.dcOffer h c gs release deadline by_).ctx c).dcPending = true ∧
    ((d.dcOffer h c gs release deadline by_).head h).dcOffers = (d.head h).dcOffers ++
      [{ release := release, context := c, granules := gs, deadline := deadline, by_ := by_ }] := by
  refine ⟨(dcOffer_sameViews ..).rt, ?_, ?_⟩
  · unfold Dev.dcOffer
    extract_lets offer listed
    rw [ctx_congr (Dev.dcPost_foot.ctxs_eq (by decide)), ctxSave_ctx, ctx_onCtx]
  · unfold Dev.dcOffer
    extract_lets offer listed
    refine (congrArg Prod.snd ((dcPost_reports ..).capacity h)).trans ?_
    rw [Dev.head, Dev.ctxSave_foot.heads_eq (by decide), Dev.onCtx_foot.heads_eq (by decide), ← Dev.head, head_onHead]
    rfl

/-! ### Keys (R181) -/

theorem keyDraw_ctxs (d : Dev) (c : Nat) : (d.keyDraw c).ctxs = (d.onCtx c fun x => { x with
    key1W := Config.freeValue d.freeN % 2 ^ 320, key2W := Config.freeValue (d.freeN + 1) % 2 ^ 320, keyValid := 0xFF, keyMeta := true }).ctxs :=
  foldl_keeps (π := Dev.ctxs) (fun _ _ _ => Dev.keySave_foot.ctxs_eq (by decide)) _

/-! ### Quiescing (R203) -/

namespace RingsKeep
variable {α : Type} {π : Ring → α} {d e : Dev}

/-- What holds of the contexts and the Region Table whatever becomes of the rings. -/
theorem forget (h : RingsKeep π d e) : RingsKeep (fun _ => ()) d e := ⟨h.rt, h.ctx, fun _ _ => rfl⟩

theorem quiesceRing {c k : Nat} (h : RingsKeep (fun _ => ()) d e) : RingsKeep (fun _ => ()) d (e.quiesceRing c k) := by
  unfold Dev.quiesceRing
  set stopped := e.onRing c k fun r => ringStep { r with state := 2 }
  exact (h.onRing rfl).trans (RingsKeep.refl stopped).abortUnstarted.abortRollback.forget

end RingsKeep

/-- A ring that quiesces keeps the host's tail and its own place in the submission queue. -/
theorem quiesceRing_ring (d : Dev) (c k : Nat) :
    ((d.quiesceRing c k).ring c k).submission = (2, (d.ring c k).sqTail, (d.ring c k).sqHead) ∧ (d.quiesceRing c k).rtView = d.rtView := by
  unfold Dev.quiesceRing
  set stopped := d.onRing c k fun r => ringStep { r with state := 2 }
  have hkept : RingsKeep Ring.submission stopped ((stopped.abortUnstarted c k).abortRollback c k) :=
    (RingsKeep.refl stopped).abortUnstarted.abortRollback
  exact ⟨(hkept.ring c k).trans (by rw [ring_onRing]; rfl), hkept.rt⟩

/-- A context that quiesces enters QUIESCING, and nothing of it changes beside its rings and its metering. -/
theorem quiesceCtx_keeps (d : Dev) (c : Nat) : RingsKeep (fun _ => ()) (d.ctxTo c 2) (d.quiesceCtx c) := by
  unfold Dev.quiesceCtx
  exact (RingsKeep.refl (d.ctxTo c 2)).foldl fun _ _ h => h.quiesceRing

end Sys2Proof.Machine
end

section
set_option Elab.async false
/-! LEMMAS. The context and ring commands (chapter 06). -/

namespace Sys2Proof.Machine

/-! ### The checks of the fields (R416, R417) -/

section
variable {d : Dev} {x : Caller} {p : List Byte}

theorem createCheck_ok (howner : fieldAt p 2 1 = 1 ∨ fieldAt p 2 1 = 2) (hcount : fieldAt p 4 2 ≤ 1024) : createCheck d x p = 0 :=
  orErr_of_ok (by simpa [hcount] using howner)

theorem granCheck_ok (hlo : 1 ≤ fieldAt p 2 2) (hhi : fieldAt p 2 2 ≤ 4094) (hlen : 8 + 4 * fieldAt p 2 2 ≤ p.length)
    (hcls : ∀ e ∈ granClasses p, 1 ≤ e.2 ∧ e.2 ≤ 3) : granCheck d x p = 0 :=
  orErr_of_ok (by simpa [hlo, hhi, hlen] using hcls)

/-- One granule with a class. -/
theorem granCheck_single {g k : Nat} (hone : granClasses p = [(g, k)]) (hcount : fieldAt p 2 2 = 1) (hlen : 12 ≤ p.length) (hlo : 1 ≤ k)
    (hhi : k ≤ 3) : granCheck d x p = 0 :=
  granCheck_ok (by rw [hcount]) (by rw [hcount]; decide) (by rw [hcount]; exact hlen) (by simp [hone, hlo, hhi])

theorem releaseCheck_ok (htlo : 1 ≤ fieldAt p 4 4) (hthi : fieldAt p 4 4 ≤ 3600) (hlo : 1 ≤ fieldAt p 8 2) (hhi : fieldAt p 8 2 ≤ 8186)
    (hlen : 12 + 2 * fieldAt p 8 2 ≤ p.length) : releaseCheck d x p = 0 :=
  orErr_of_ok (by simp [htlo, hthi, hlo, hhi, hlen])

theorem ownerCheck_ok (howner : fieldAt p 2 1 = 1 ∨ fieldAt p 2 1 = 2) : ownerCheck d x p = 0 := orErr_of_ok (by simpa using howner)

theorem retainCheck_ok (hlo : 1 ≤ fieldAt p 2 2) (hhi : fieldAt p 2 2 ≤ 1024) : retainCheck d x p = 0 := orErr_of_ok (by simp [hlo, hhi])

theorem ringNoCheck_ok (hring : fieldAt p 2 1 < 64) : ringNoCheck d x p = 0 := orErr_of_ok (decide_eq_true hring)

end

theorem intOk_iff {v n t : Nat} : intOk v n t = true ↔ (v = 0xFFFF ∨ 16 ≤ v ∧ v ≤ 2047) ∧ n ≤ 4096 ∧ t ≤ 10000 := by
  simp [intOk, and_assoc]

theorem ringIntCheck_ok {d : Dev} {x : Caller} {p : List Byte} (hring : fieldAt p 2 1 < 64)
    (hvec : fieldAt p 4 2 = 0xFFFF ∨ 16 ≤ fieldAt p 4 2 ∧ fieldAt p 4 2 ≤ 2047) (hcnt : fieldAt p 6 2 ≤ 4096) (htime : fieldAt p 8 2 ≤ 10000) :
    ringIntCheck d x p = 0 :=
  orErr_of_ok (Bool.and_eq_true_iff.mpr ⟨decide_eq_true hring, intOk_iff.mpr ⟨hvec, hcnt, htime⟩⟩)

theorem twice_eq_false {l : List Nat} (h : l.eraseDups.length = l.length) : twice l = false := decide_eq_false (by omega)

/-! ### The entries and rings that the commands leave -/

/-- A context after its creation, with the `n`th free value and the next drawn for its keys. -/
def Ctx.created (x : Ctx) (now n : Nat) (p : List Byte) : Ctx := { x with
  owner := fieldAt p 2 1, keyLost := false, retainCount := if fieldAt p 4 2 = 0 then 8 else fieldAt p 4 2, retainAge := fieldAt p 8 4
  rings := [], dcPending := false, meter := { flags := 0 ||| 0x10 }, meterStart := now, key1W := Config.freeValue n % 2 ^ 320
  key2W := Config.freeValue (n + 1) % 2 ^ 320, keyValid := 0xFF, keyMeta := true, state := 1, tState := now }

theorem createAct_of_free {d : Dev} {x : Caller} {p : List Byte} (hfree : (d.ctx (fieldAt p 0 2)).state = 0) : ∃ d1,
    createAct d x p = (d1, .data (leBytes 1 (d.ctx (fieldAt p 0 2)).gen)) ∧ Grown d d1 ∧
    d1.ctx (fieldAt p 0 2) = (d.ctx (fieldAt p 0 2)).created d.now d.freeN p ∧ d1.ctxs.rt = d.ctxs.rt ∧
    ∀ k, k ≠ fieldAt p 0 2 → d1.ctx k = d.ctx k := by
  unfold createAct ctxOf
  extract_lets c n d1
  rw [if_neg (not_not_intro hfree)]
  have hd1 : d1.ctx c = (d.ctx c).created d.now d.freeN p := by
    unfold d1
    rw [ctxTo_ctx, ctx_congr (keyDraw_ctxs ..), ctx_onCtx, ctx_onCtx, now_congr (Dev.keyDraw_foot.qtz_eq (by decide))]
    rfl
  refine ⟨d1, by rw [hd1]; rfl, (((Grown.refl d).foot Dev.onCtx_foot).foot Dev.keyDraw_foot).foot Dev.ctxTo_foot, hd1, ?_, fun k hk => ?_⟩
  · unfold d1
    rw [(Prod.mk.inj (ctxTo_rtView ..)).1, keyDraw_ctxs]
    rfl
  · unfold d1
    rw [ctxTo_ctx_ne _ _ hk, ctx_congr (keyDraw_ctxs ..), ctx_onCtx_ne _ _ hk, ctx_onCtx_ne _ _ hk]

/-! ### Changes of the Region Table that the commands queue -/

/-- The change that Assign queues for a granule and its class. -/
def Ctx.assigned (x : Ctx) (c : Nat) (e : Nat × Nat) : RtChange :=
  { granule := e.1, entry := { valid := true, head := x.owner, cls := e.2, context := c }, zero := true, waitFill := true, offer := x.owner }

theorem assignAct_of_free {d : Dev} {x : Caller} {p : List Byte}
    (hstate : (d.ctx (fieldAt p 0 2)).state = 1 ∨ (d.ctx (fieldAt p 0 2)).state = 3) (hkey : (d.ctx (fieldAt p 0 2)).keyLost = false)
    (honce : ((granClasses p).map fun e => e.1).eraseDups.length = (granClasses p).length)
    (hfree : ∀ e ∈ granClasses p, d.backed e.1 = true ∧ (d.gran e.1).valid = false ∧ d.granPend e.1 = false ∧
      ∀ t ∈ d.granTiles e.1, (d.tile t).isolated = false) : ∃ d1,
    assignAct d x p = (d1, { bg := some (fieldAt p 0 2) }) ∧ Grown d d1 ∧
    d1.ctxs = { d.ctxs with rtPend := d.ctxs.rtPend ++ (granClasses p).map ((d.ctx (fieldAt p 0 2)).assigned (fieldAt p 0 2)) } := by
  have hgood : ¬ (twice ((granClasses p).map fun e => e.1) = true ∨ (!(granClasses p).all fun e =>
      d.backed e.1 && !(d.gran e.1).valid && !d.granPend e.1 && (d.granTiles e.1).all fun t => !(d.tile t).isolated) = true) := by
    rw [twice_eq_false (honce.trans (List.length_map ..).symm), not_or, Bool.not_eq_true', Bool.not_eq_false, List.all_eq_true]
    refine ⟨Bool.false_ne_true, fun e he => ?_⟩
    obtain ⟨hbacked, hvalid, hpend, htiles⟩ := hfree e he
    simpa [hbacked, hvalid, hpend] using htiles
  unfold assignAct ctxOf
  extract_lets c y es free
  rw [if_neg fun h => hstate.elim h.1 h.2, if_neg (Bool.eq_false_iff.mp hkey), if_neg hgood]
  exact ⟨_, rfl, .of_out ((foldl_rtChange_foot ..).out_eq (by decide)), foldl_rtChange (f := fun _ => y.assigned c) (fun _ _ _ => rfl) es d⟩

theorem assignAct_of_taken {d : Dev} {x : Caller} {p : List Byte} {g k : Nat} (hone : granClasses p = [(g, k)])
    (hstate : (d.ctx (fieldAt p 0 2)).state = 1 ∨ (d.ctx (fieldAt p 0 2)).state = 3) (hkey : (d.ctx (fieldAt p 0 2)).keyLost = false)
    (htaken : d.backed g = false ∨ (d.gran g).valid = true) : assignAct d x p = (d, .err 3) := by
  unfold assignAct ctxOf
  extract_lets c y es free
  have hbad : (!es.all fun e => free e.1) = true := by
    rcases htaken with h | h <;> simp [es, hone, free, h]
  rw [if_neg fun h => hstate.elim h.1 h.2, if_neg (Bool.eq_false_iff.mp hkey), if_pos (.inr hbad)]

/-- The change of class that Set class queues for a granule whose entry is `o`. -/
def Granule.classed (o : Granule) (g k : Nat) : RtChange :=
  { granule := g, entry := { o with cls := k }, zero := o.cls == 3 && k != 3, waitFill := o.cls == 3 && k != 3, trim := o.cls != 3 && k == 3 }

theorem classAct_of_own {d : Dev} {x : Caller} {p : List Byte} {g k : Nat} (hone : granClasses p = [(g, k)]) (hvalid : (d.gran g).valid = true)
    (hown : (d.gran g).context = fieldAt p 0 2) (hpend : d.granPend g = false) (hkey : (d.ctx (fieldAt p 0 2)).keyLost = false) : ∃ d1,
    classAct d x p = (d1, { bg := some (fieldAt p 0 2) }) ∧ Grown d d1 ∧
    d1.ctxs = { d.ctxs with rtPend := d.ctxs.rtPend ++ [(d.gran g).classed g k] } := by
  have hgood : ¬ (twice ((granClasses p).map fun e => e.1) = true ∨ (!(granClasses p).all fun e =>
      (d.gran e.1).valid && (d.gran e.1).context == fieldAt p 0 2 && !d.granPend e.1) = true) := by
    have honce : twice ([(g, k)].map fun e => e.1) = false := twice_eq_false rfl
    rw [hone, honce]
    simp [hvalid, hown, hpend]
  unfold classAct ctxOf
  rw [if_neg (Bool.eq_false_iff.mp hkey), if_neg hgood]
  exact ⟨_, rfl, .of_out ((foldl_rtChange_foot ..).out_eq (by decide)),
    (foldl_rtChange (f := fun d (e : Nat × Nat) => (d.gran e.1).classed e.1 e.2) (fun _ _ _ => rfl) _ d).trans (by rw [hone]; rfl)⟩

/-! ### Release and change of owner (R178, R180) -/

section
variable {d : Dev} {x : Caller} {p : List Byte} (honce : (releaseList p).eraseDups.length = (releaseList p).length)
  (hown : ((releaseList p).all fun g => (d.gran g).valid && (d.gran g).context == fieldAt p 0 2 && !d.granPend g) = true)
  (hkey : (d.ctx (fieldAt p 0 2)).keyLost = false)
include honce hown hkey

theorem releaseAct_of_own : releaseAct d x p =
    if (fieldAt p 2 1).testBit 0 then
      ((releaseList p).foldl Dev.releaseGran (d.dcForced ((d.ctx (fieldAt p 0 2)).owner - 1) (fieldAt p 0 2) (releaseList p)),
        { bg := some (fieldAt p 0 2) })
    else
      (d.dcOffer ((d.ctx (fieldAt p 0 2)).owner - 1) (fieldAt p 0 2) (releaseList p) true (some (d.now + fieldAt p 4 4 * 1000000000)) x.p,
        { bg := some (fieldAt p 0 2) }) := by
  have hgood : ¬ (twice (releaseList p) = true ∨
      (!(releaseList p).all fun g => (d.gran g).valid && (d.gran g).context == fieldAt p 0 2 && !d.granPend g) = true) := by
    rw [twice_eq_false honce, hown]
    decide
  unfold releaseAct ctxOf
  rw [if_neg (Bool.eq_false_iff.mp hkey), if_neg hgood]

theorem releaseAct_of_asked (hasked : (fieldAt p 2 1).testBit 0 = false) : releaseAct d x p =
    (d.dcOffer ((d.ctx (fieldAt p 0 2)).owner - 1) (fieldAt p 0 2) (releaseList p) true (some (d.now + fieldAt p 4 4 * 1000000000)) x.p,
      { bg := some (fieldAt p 0 2) }) :=
  (releaseAct_of_own honce hown hkey).trans (if_neg (Bool.eq_false_iff.mp hasked))

theorem releaseAct_of_forced (hforced : (fieldAt p 2 1).testBit 0 = true) : releaseAct d x p =
    ((releaseList p).foldl Dev.releaseGran (d.dcForced ((d.ctx (fieldAt p 0 2)).owner - 1) (fieldAt p 0 2) (releaseList p)),
      { bg := some (fieldAt p 0 2) }) :=
  (releaseAct_of_own honce hown hkey).trans (if_pos hforced)

end

/-- Granules taken with a notice wait for the commit of their release; the head's extents lose them, and the notice goes out. -/
theorem forcedRelease_facts (d : Dev) (h c : Nat) (gs : List Nat) :
    Grown d (gs.foldl Dev.releaseGran (d.dcForced h c gs)) ∧
    (gs.foldl Dev.releaseGran (d.dcForced h c gs)).rtView =
      (d.ctxs.rt, d.ctxs.rtPend ++ gs.map fun g => { granule := g, entry := {}, trim := true }) ∧
    ((gs.foldl Dev.releaseGran (d.dcForced h c gs)).head h).extents = (d.head h).extents.filter (fun x => !gs.contains x.1) ∧
    Out.dcEvent h true c gs ∈ (gs.foldl Dev.releaseGran (d.dcForced h c gs)).out := by
  obtain ⟨hrt, -, hextents⟩ := dcForced_facts d h c gs
  obtain ⟨hrt, hpend⟩ := Prod.mk.inj hrt
  have hfoot := foldl_releaseGran_foot gs (d.dcForced h c gs)
  refine ⟨((Grown.refl d).dcForced).foot hfoot, ?_, ?_, ?_⟩
  · rw [Dev.rtView, foldl_releaseGran_rtPend, foldl_keeps (f := Dev.releaseGran) (π := fun d : Dev => d.ctxs.rt) (fun _ _ _ => rfl), hrt, hpend]
  · rw [Dev.head, hfoot.heads_eq (by decide), ← Dev.head, hextents]
  · rw [hfoot.out_eq (by decide)]
    exact dcEvent_mem_dcPost _ h 2 c gs

/-- The change of owner that Set owner queues for a granule whose entry is `o`. -/
def Granule.handed (o : Granule) (g n : Nat) : RtChange := { granule := g, entry := { o with head := n }, offer := n }

theorem ownerAct_of_disabled {d : Dev} {x : Caller} {p : List Byte} (hstate : (d.ctx (fieldAt p 0 2)).state = 3)
    (hkey : (d.ctx (fieldAt p 0 2)).keyLost = false) : ∃ d1,
    ownerAct d x p = (d1, { bg := some (fieldAt p 0 2) }) ∧ Grown d d1 ∧
    ((d1.ctx (fieldAt p 0 2)).owner = fieldAt p 2 1 ∧ (d1.ctx (fieldAt p 0 2)).rings = [] ∧ (d1.ctx (fieldAt p 0 2)).state = 3) ∧
    d1.rtView = (d.ctxs.rt, d.ctxs.rtPend ++ (d.ctxGrans (fieldAt p 0 2)).map fun g => (d.gran g).handed g (fieldAt p 2 1)) ∧
    (d1.head ((d.ctx (fieldAt p 0 2)).owner - 1)).extents = (d.head ((d.ctx (fieldAt p 0 2)).owner - 1)).extents.filter
      (fun x => !(d.ctxGrans (fieldAt p 0 2)).contains x.1) := by
  unfold ownerAct ctxOf
  extract_lets c y n gs taken queued
  rw [if_neg (not_not_intro hstate), if_neg (Bool.eq_false_iff.mp hkey)]
  obtain ⟨hrt, hst, hextents⟩ := dcForced_facts d (y.owner - 1) c gs
  have hstopped : ChangesOnly [.flint, .lat, .out] (d.dcForced (y.owner - 1) c gs) taken := Dev.stopStreams_foot
  have hgran (g : Nat) : taken.gran g = d.gran g := by rw [Dev.gran, hstopped.ctxs_eq (by decide), (Prod.mk.inj hrt).1, Dev.gran]
  have hqueued : queued.ctxs = { taken.ctxs with rtPend := taken.ctxs.rtPend ++ gs.map fun g => (d.gran g).handed g n } :=
    (foldl_rtChange (f := fun d g => (d.gran g).handed g n) (fun _ _ _ => rfl) gs taken).trans (by simp only [hgran])
  have hkept : ChangesOnly [.ctxs] taken queued := foldl_rtChange_foot (fun d g => (d.gran g).handed g n) gs taken
  have hsent : Grown d queued := (Grown.refl d).dcForced.stopStreams.foot hkept
  have hctx : queued.ctx c = (d.dcForced (y.owner - 1) c gs).ctx c := by
    rw [Dev.ctx, hqueued, hstopped.ctxs_eq (by decide), Dev.ctx]
  clear_value queued
  refine ⟨_, rfl, (hsent.foot Dev.onCtx_foot).foot Dev.ctxSave_foot, ?_, ?_, ?_⟩
  · rw [ctxSave_ctx, ctx_onCtx, hctx]
    exact ⟨rfl, rfl, hst.trans hstate⟩
  · rw [(ctxSave_sameViews ..).rt, (onCtx_sameViews ..).rt, Dev.rtView, hqueued, hstopped.ctxs_eq (by decide), (Prod.mk.inj hrt).1,
      (Prod.mk.inj hrt).2]
  · rw [Dev.head, Dev.ctxSave_foot.heads_eq (by decide), Dev.onCtx_foot.heads_eq (by decide), hkept.heads_eq (by decide),
      hstopped.heads_eq (by decide), ← Dev.head, hextents]

/-! ### Enable and the rings (R183 to R185) -/

/-- With no stream there is no migration that has filled the context: nothing is offered. -/
theorem enableAct_of_disabled {d : Dev} {x : Caller} {p : List Byte} (hstate : (d.ctx (fieldAt p 0 2)).state = 3)
    (hkey : (d.ctx (fieldAt p 0 2)).keyLost = false) (hlat : d.lat.streams = []) : enableAct d x p = (d.ctxTo (fieldAt p 0 2) 1, {}) := by
  unfold enableAct ctxOf
  extract_lets c y active h gs
  have hstreams : active.lat.streams = [] := by rw [← Dev.ctxTo_foot.same .lat (by decide), hlat]
  rw [if_neg (not_not_intro hstate), if_neg (Bool.eq_false_iff.mp hkey), hstreams]
  exact if_neg fun h => Bool.false_ne_true h.1

theorem ringCheck_iff {d : Dev} {x : Caller} {p : List Byte} : ringCheck d x p = 0 ↔
    (fieldAt p 2 1 < 64 ∧ 4 ≤ fieldAt p 24 1 ∧ fieldAt p 24 1 ≤ 12 ∧ fieldAt p 8 8 % 4096 = 0 ∧ fieldAt p 16 8 % 4096 = 0 ∧
    d.inCtx (fieldAt p 0 2) (fieldAt p 8 8) (64 * 2 ^ min (fieldAt p 24 1) 12) = true ∧
    d.inCtx (fieldAt p 0 2) (fieldAt p 16 8) (32 * 2 ^ min (fieldAt p 24 1) 12) = true ∧
    intOk (fieldAt p 26 2) (fieldAt p 28 2) (fieldAt p 30 2) = true ∧
    ((d.ring (fieldAt p 0 2) (fieldAt p 2 1)).state = 0 ∨ (d.ring (fieldAt p 0 2) (fieldAt p 2 1)).state = 3)) := by
  unfold ringCheck orErr ctxOf ringOf
  simp [and_assoc, or_iff_not_imp_left]

theorem ringCheck_refuses {d : Dev} {x : Caller} {p : List Byte} (h : ringCheck d x p ≠ 0) : ringCheck d x p = 2 := by
  unfold ringCheck orErr at h ⊢
  exact (ite_ne_left_iff.mp h).elim fun hbad _ => if_neg hbad

theorem ringSave_ring (d : Dev) (c k c' k' : Nat) : (d.ringSave c k).ring c' k' = d.ring c' k' := ring_congr (Dev.ringSave_foot.ctxs_eq (by decide)) c' k'

theorem ringSave_rtView (d : Dev) (c k : Nat) : (d.ringSave c k).rtView = d.rtView := Dev.ringSave_foot.rtView_eq (by decide)

/-- Settles O49: behind the admission of R403 each row either refuses with its status and changes nothing, or makes its one change to the
context, its rings or the changes that wait for their commit point; what is sent beside the answer leaves them. -/
theorem contextAndRingCommands : Obligations.ContextAndRingCommands := by
  unfold Obligations.ContextAndRingCommands
  refine ⟨?create, ?createBad, ?assign, ?assignBad, ?release, ?forced, ?setClass, ?setOwner, ?setOwnerBad, ?disable, ?disableBad, ?enable,
    ?enableLost, ?assignLost, ?releaseLost, ?setClassLost, ?setOwnerLost, ?setRetentionLost, ?sanitize, ?sanitizeBad, ?setRetention,
    ?configureRing, ?configureRingBad, ?disableRing, ?disableRingBad, ?setInterrupts⟩
  case create =>
    rintro s _ b uid p c dt rfl hadm rfl howner hcount hfree
    refine .of_jcs_sends execCreate_foot (by decide) rfl rfl hadm (createCheck_ok howner hcount) fun j => ?_
    obtain ⟨d1, hact, hgrown, hctx, hrt, hrest⟩ := createAct_of_free (d := (s.dev.elapse dt).onJcs fun _ => j) (x := caller b uid) hfree
    refine ⟨d1, 0, _, hact, hgrown, fun e he hans => ⟨hans, ?_⟩⟩
    rw [he.ctxs_eq, he.ctx_eq, hctx]
    exact ⟨rfl, rfl, rfl, rfl, rfl, rfl, rfl, rfl, rfl, rfl, hrt, fun k _ hk => (he.ctx_eq k).trans (hrest k hk)⟩
  case createBad =>
    rintro s _ b uid p dt rfl hadm howner hcount hstate
    exact .of_jcs_err execCreate_foot (by decide) rfl rfl hadm (createCheck_ok howner hcount) fun j => if_pos hstate
  case assign =>
    rintro s _ b uid p c es dt rfl hadm rfl rfl hcount hne hmax hlen hcls honce hfree hstate hkey
    rw [hcount] at hmax hlen
    refine .of_jcs_bg_sends execAssign_foot (by decide) rfl rfl hadm
      (granCheck_ok (hcount ▸ List.length_pos_iff.mpr hne) hmax hlen hcls) fun j => ?_
    obtain ⟨d1, hact, hgrown, hctxs⟩ := assignAct_of_free (d := (s.dev.elapse dt).onJcs fun _ => j) (x := caller b uid) hstate hkey honce hfree
    refine ⟨d1, _, hact, hgrown, fun e he hans hbg => ⟨hans, ?_⟩⟩
    rw [he.ctxs_eq, hctxs]
    exact ⟨rfl, rfl, rfl, hbg⟩
  case assignBad =>
    rintro s _ b uid p g k dt rfl hadm hone hcount hlen hlo hhi hstate hkey htaken
    exact .of_jcs_err execAssign_foot (by decide) rfl rfl hadm (granCheck_single hone hcount hlen hlo hhi) fun j =>
      assignAct_of_taken hone hstate hkey htaken
  case setClass =>
    rintro s _ b uid p c g k dt rfl hadm rfl hone hcount hlen hlo hhi hvalid hown hpend hkey
    refine .of_jcs_bg_sends execSetClass_foot (by decide) rfl rfl hadm (granCheck_single hone hcount hlen hlo hhi) fun j => ?_
    obtain ⟨d1, hact, hgrown, hctxs⟩ := classAct_of_own (d := (s.dev.elapse dt).onJcs fun _ => j) (x := caller b uid) hone hvalid hown hpend hkey
    refine ⟨d1, _, hact, hgrown, fun e he hans hbg => ⟨hans, ?_⟩⟩
    rw [he.ctxs_eq, hctxs]
    exact ⟨rfl, rfl, rfl, hbg⟩
  case assignLost =>
    rintro s _ b uid p g k dt rfl hadm hone hcount hlen hlo hhi hstate hkey
    exact .of_jcs_err execAssign_foot (by decide) rfl rfl hadm (granCheck_single hone hcount hlen hlo hhi) fun j =>
      (if_neg fun h => hstate.elim h.1 h.2).trans (if_pos hkey)
  case releaseLost =>
    rintro s _ b uid p dt rfl hadm htlo hthi hlo hhi hlen hkey
    exact .of_jcs_err execRelease_foot (by decide) rfl rfl hadm (releaseCheck_ok htlo hthi hlo hhi hlen) fun j => if_pos hkey
  case setClassLost =>
    rintro s _ b uid p g k dt rfl hadm hone hcount hlen hlo hhi hkey
    exact .of_jcs_err execSetClass_foot (by decide) rfl rfl hadm (granCheck_single hone hcount hlen hlo hhi) fun j => if_pos hkey
  case setOwnerBad =>
    rintro s _ b uid p dt rfl hadm howner hstate
    exact .of_jcs_err execSetOwner_foot (by decide) rfl rfl hadm (ownerCheck_ok howner) fun j => if_pos hstate
  case setOwnerLost =>
    rintro s _ b uid p dt rfl hadm howner hstate hkey
    exact .of_jcs_err execSetOwner_foot (by decide) rfl rfl hadm (ownerCheck_ok howner) fun j =>
      (if_neg (not_not_intro hstate)).trans (if_pos hkey)
  case disableBad =>
    rintro s _ b uid p dt rfl hadm hactive hpending
    exact .of_jcs_err execDisable_foot (by decide) rfl rfl hadm rfl fun j => if_pos ⟨hactive, hpending⟩
  case enableLost =>
    rintro s _ b uid p dt rfl hadm hstate hkey
    exact .of_jcs_err execEnable_foot (by decide) rfl rfl hadm rfl fun j => (if_neg (not_not_intro hstate)).trans (if_pos hkey)
  case setRetentionLost =>
    rintro s _ b uid p dt rfl hadm hlo hhi hstate hkey
    exact .of_jcs_err execSetRetention_foot (by decide) rfl rfl hadm (retainCheck_ok hlo hhi) fun j => (if_neg hstate).trans (if_pos hkey)
  case sanitizeBad =>
    rintro s _ b uid p dt rfl hadm hstate
    exact .of_jcs_err execSanitize_foot (by decide) rfl rfl hadm rfl fun j => if_pos hstate
  case disableRingBad =>
    rintro s _ b uid p dt rfl hadm hring hrunning herror
    exact .of_jcs_err execDisableRing_foot (by decide) rfl rfl hadm (ringNoCheck_ok hring) fun j => if_pos ⟨hrunning, herror⟩
  case release =>
    rintro s _ b uid p c h gs dt rfl hadm rfl rfl htlo hthi hlo hhi hlen honce hown hasked hkey rfl -
    refine .of_jcs_bg_sends execRelease_foot (by decide) rfl rfl hadm (releaseCheck_ok htlo hthi hlo hhi hlen) fun j =>
      ⟨_, _, releaseAct_of_asked honce hown hkey hasked, (Grown.of_foot Dev.onJcs_foot).dcOffer, fun e he hans hbg => ⟨hans, ?_⟩⟩
    obtain ⟨hrt, hpending, hoffers⟩ := dcOffer_facts ((s.dev.elapse dt).onJcs fun _ => j) (((s.dev.elapse dt).ctx (fieldAt p 0 2)).owner - 1)
      (fieldAt p 0 2) (releaseList p) true (some ((s.dev.elapse dt).now + fieldAt p 4 4 * 1000000000)) b.val
    obtain ⟨hrt, hpend⟩ := Prod.mk.inj (he.rtView_eq.trans hrt)
    exact ⟨(congrArg Prod.snd (he.capacity _)).trans hoffers, (congrArg Ctx.dcPending (he.ctx_eq _)).trans hpending, hrt, hpend, hbg⟩
  case forced =>
    rintro s _ b uid p c h gs dt rfl hadm rfl rfl htlo hthi hlo hhi hlen honce hown hforced hkey rfl -
    refine .of_jcs_bg_sends execRelease_foot (by decide) rfl rfl hadm (releaseCheck_ok htlo hthi hlo hhi hlen) fun j => ?_
    obtain ⟨hgrown, hrt, hextents, hnotice⟩ := forcedRelease_facts ((s.dev.elapse dt).onJcs fun _ => j)
      (((s.dev.elapse dt).ctx (fieldAt p 0 2)).owner - 1) (fieldAt p 0 2) (releaseList p)
    refine ⟨_, _, releaseAct_of_forced honce hown hkey hforced, hgrown, fun e he hans hbg => ⟨hans, ?_⟩⟩
    obtain ⟨hrt, hpend⟩ := Prod.mk.inj (he.rtView_eq.trans hrt)
    exact ⟨hpend, hrt, (congrArg Prod.fst (he.capacity _)).trans hextents, mem_of_grown he.sent hnotice, hbg⟩
  case setOwner =>
    rintro s _ b uid p c n h dt rfl hadm rfl rfl howner hstate hkey rfl -
    refine .of_jcs_bg_sends execSetOwner_foot (by decide) rfl rfl hadm (ownerCheck_ok howner) fun j => ?_
    obtain ⟨d1, hact, hgrown, ⟨hown, hrings, hst⟩, hrt, hextents⟩ :=
      ownerAct_of_disabled (d := (s.dev.elapse dt).onJcs fun _ => j) (x := caller b uid) hstate hkey
    refine ⟨d1, _, hact, hgrown, fun e he hans hbg => ⟨hans, ?_⟩⟩
    obtain ⟨hrt, hpend⟩ := Prod.mk.inj (he.rtView_eq.trans hrt)
    rw [he.ctx_eq]
    exact ⟨hown, hrings, hst, hrt, hpend, (congrArg Prod.fst (he.capacity _)).trans hextents, hbg⟩
  case disable =>
    rintro s _ b uid p c dt rfl hadm rfl hstate
    refine .of_jcs_bg_sends execDisable_foot (by decide) rfl rfl hadm rfl fun j =>
      ⟨_, _, if_neg fun h => hstate.elim h.1 h.2, (Grown.of_foot Dev.onJcs_foot).quiesceCtx, fun e he hans hbg => ⟨hans, ?_⟩⟩
    have hkept := quiesceCtx_keeps ((s.dev.elapse dt).onJcs fun _ => j) (fieldAt p 0 2)
    have hctx := (congrArg Ctx.standing (he.ctx_eq _)).trans (hkept.ctx (fieldAt p 0 2))
    rw [ctxTo_ctx] at hctx
    exact ⟨congrArg Ctx.state hctx, congrArg Ctx.tState hctx, (congrArg Ctx.owner hctx :),
      (Prod.mk.inj ((he.rtView_eq.trans hkept.rt).trans (ctxTo_rtView ..))).1, hbg⟩
  case enable =>
    rintro s _ b uid p c dt rfl hadm rfl hstate hkey hlat
    refine .of_jcs_sends execEnable_foot (by decide) rfl rfl hadm rfl fun j =>
      ⟨_, 0, [], enableAct_of_disabled hstate hkey hlat, (Grown.of_foot Dev.onJcs_foot).foot Dev.ctxTo_foot, fun e he hans => ⟨hans, ?_⟩⟩
    rw [he.ctx_eq, ctxTo_ctx]
    exact ⟨rfl, rfl, rfl, (Prod.mk.inj (he.rtView_eq.trans (ctxTo_rtView ..))).1, fun k _ hk => (he.ctx_eq k).trans (ctxTo_ctx_ne _ _ hk)⟩
  case sanitize =>
    rintro s _ b uid p c dt rfl hadm rfl hstate
    refine .of_jcs_bg_sends execSanitize_foot (by decide) rfl rfl hadm rfl fun j =>
      ⟨_, _, if_neg (not_not_intro hstate), ((Grown.of_foot Dev.onJcs_foot).foot Dev.ctxTo_foot).foot Dev.onCtx_foot, fun e he hans hbg => ⟨hans, ?_⟩⟩
    rw [he.ctx_eq, ctxOf, ctx_onCtx, ctxTo_ctx]
    exact ⟨rfl, rfl, (Prod.mk.inj ((he.rtView_eq.trans (onCtx_sameViews ..).rt).trans (ctxTo_rtView ..))).1,
      fun k _ hk => ((he.ctx_eq k).trans (ctx_onCtx_ne _ _ hk)).trans (ctxTo_ctx_ne _ _ hk), hbg⟩
  case setRetention =>
    rintro s _ b uid p c dt rfl hadm rfl hlo hhi hstate hkey
    refine .of_jcs_sends execSetRetention_foot (by decide) rfl rfl hadm (retainCheck_ok hlo hhi) fun j =>
      ⟨_, 0, [], (if_neg hstate).trans (if_neg (Bool.eq_false_iff.mp hkey)),
        ((Grown.of_foot Dev.onJcs_foot).foot Dev.onCtx_foot).foot Dev.ctxSave_foot, fun e he hans => ⟨hans, ?_⟩⟩
    rw [he.ctx_eq, ctxOf, ctxSave_ctx, ctx_onCtx]
    refine ⟨rfl, ?_, fun k _ hk => ((he.ctx_eq k).trans (ctxSave_ctx ..)).trans (ctx_onCtx_ne _ _ hk)⟩
    rw [← he.changes.same .strata (by decide), ← Dev.ctxSave_foot.same .strata (by decide)]
    rfl
  case configureRing =>
    rintro s _ b uid p c k dt rfl hadm rfl rfl hring hlo hhi hsq hcq hsqIn hcqIn hvec hcnt htime hstate
    refine .of_jcs_sends execConfigureRing_foot (by decide) rfl rfl hadm
      (ringCheck_iff.mpr ⟨hring, hlo, hhi, hsq, hcq, hsqIn, hcqIn, intOk_iff.mpr ⟨hvec, hcnt, htime⟩, hstate⟩) fun j =>
      ⟨_, 0, [], rfl, ((Grown.of_foot Dev.onJcs_foot).foot Dev.onRing_foot).foot Dev.ringSave_foot, fun e he hans => ⟨hans, ?_⟩⟩
    rw [he.ring_eq, ctxOf, ringOf, ringSave_ring, ring_onRing]
    exact ⟨rfl, (Prod.mk.inj ((he.rtView_eq.trans (ringSave_rtView ..)).trans (onCtx_sameViews ..).rt)).1,
      fun i _ hi => ((he.ring_eq ..).trans (ringSave_ring ..)).trans (ring_onRing_ne _ _ fun h => hi h.2)⟩
  case configureRingBad =>
    rintro s _ b uid p c k dt rfl hadm rfl rfl hbad
    refine .of_jcs_refused execConfigureRing_foot (by decide) rfl rfl hadm (ext := 2) (ringCheck_refuses fun hok => ?_) (by decide)
      fun e he hans => ⟨hans, he.ctxs_eq (by decide)⟩
    obtain ⟨hring, hlo, hhi, hsq, hcq, -, -, -, hstate⟩ := ringCheck_iff.mp hok
    omega
  case disableRing =>
    rintro s _ b uid p c k dt rfl hadm rfl rfl hring hstate
    refine .of_jcs_bg_sends execDisableRing_foot (by decide) rfl rfl hadm (ringNoCheck_ok hring) fun j =>
      ⟨_, _, if_neg fun h => hstate.elim h.1 h.2, (Grown.of_foot Dev.onJcs_foot).quiesceRing, fun e he hans hbg => ⟨hans, ?_⟩⟩
    obtain ⟨hsub, hrt⟩ := quiesceRing_ring ((s.dev.elapse dt).onJcs fun _ => j) (fieldAt p 0 2) (fieldAt p 2 1)
    obtain ⟨hst, hptrs⟩ := Prod.mk.inj hsub
    obtain ⟨htail, hhead⟩ := Prod.mk.inj hptrs
    rw [he.ring_eq]
    exact ⟨hst, htail, hhead, (Prod.mk.inj (he.rtView_eq.trans hrt)).1, hbg⟩
  case setInterrupts =>
    rintro s _ b uid p c k dt rfl hadm rfl rfl hring hvec hcnt htime
    refine .of_jcs_sends execSetInterrupts_foot (by decide) rfl rfl hadm (ringIntCheck_ok hring hvec hcnt htime) fun j =>
      ⟨_, 0, [], rfl, ((Grown.of_foot Dev.onJcs_foot).foot Dev.onRing_foot).foot Dev.ringSave_foot, fun e he hans => ⟨hans, ?_⟩⟩
    rw [he.ring_eq, ctxOf, ringOf, ringSave_ring, ring_onRing]
    exact ⟨rfl, (Prod.mk.inj ((he.rtView_eq.trans (ringSave_rtView ..)).trans (onCtx_sameViews ..).rt)).1,
      fun i _ hi => ((he.ring_eq ..).trans (ringSave_ring ..)).trans (ring_onRing_ne _ _ fun h => hi h.2)⟩

end Sys2Proof.Machine
end
